-- ==== Sys2Proof/Word.lean ====
section
/-!
DEFINITION. The byte, and the names of numbers the spec uses everywhere.  Bytes of memory are bit vectors (the host's
cell); the wider fields of packets, registers and records are natural numbers below the power of two that the spec's
width gives, because the spec states their rules as arithmetic; every operation that writes one reduces it.
-/

namespace Sys2Proof

/-- One byte of device memory or of a payload. -/
abbrev Byte := BitVec 8

/-- A sequence of bytes, lowest address first. -/
abbrev Bytes := List Byte

end Sys2Proof
end

