-- ==== Sys2Proof/Syntax.lean ====
section
/-!
DEFINITION. The commands: the rows of spec/opcode_table.json, one constructor a row, with the operands each carries,
and the records those operands are made of.  A command that stands for an event of the outside world (a frame arriving,
a temperature read, a mark edge) carries what the outside world supplies; a row for an opcode of R127 carries the
packet of R125 and, for an in payload, what the host read answered.
-/

namespace Sys2Proof

/-- A command packet (R125, spec/04_command_packets.md), every byte of it: reserved bits stay visible. -/
structure Packet where
  /-- submission ring that carried it, 0 to 15 -/
  ring : Nat
  /-- byte 0 -/
  opcode : Nat
  /-- byte 1: NO_WAIT, BARRIER, two reserved bits, F4 to F7 -/
  flags : Nat
  /-- byte 2: CLASS and six reserved bits -/
  cls : Nat
  /-- byte 3, reserved -/
  rsv3 : Nat
  tag : Nat
  payloadLen : Nat
  /-- bytes 12 and 13: TENANT and six reserved bits -/
  tenant : Nat
  /-- bytes 14 and 15, reserved -/
  rsv14 : Nat
  payloadAddr : Nat
  p0 : Nat
  p1 : Nat
  p2 : Nat
  p3 : Nat
  p4 : Nat
  deriving DecidableEq, Repr

/-- Statuses (R134). -/
inductive Status where
  | ok | okEmpty | okLate | pending | cancelled
  | rejFormat | rejZeroExtent | rejNoSpace | rejClassFull | rejDeadline | rejVersion | rejAuth
  | cfgConflict | cfgDivergent | failPlot | failStep | failFenced | failDevice
  deriving DecidableEq, Repr

/-- A token record (R136) before it is given its place in a ring. -/
structure TokenRec where
  seqId : Nat
  token : Nat
  position : Nat
  late : Bool
  stop : Bool
  last : Bool
  held : Bool
  furrow : Nat
  deriving DecidableEq, Repr

/-- An error record (R571). -/
structure ErrRec where
  time : Nat
  code : Nat
  cls : Nat
  device : Nat
  forwarded : Bool
  partition : Option Nat
  inst : Option Nat
  unit : Nat
  repeats : Nat
  addr : Nat
  furrow : Nat
  deriving DecidableEq, Repr

/-- Role of a lane (R82, R323). -/
inductive Role where
  | empty | generation | glean | gleanFinal
  deriving DecidableEq, Repr

/-- What a lane table says of one lane (R82, R86): the sequence, its input token and position, the adapter version, the
role, and the lane's place in its chunk. -/
structure LaneEntry where
  set : Nat
  lane : Nat
  /-- sequence slot index -/
  slot : Nat
  seqId : Nat
  token : Nat
  position : Nat
  role : Role
  chunkIndex : Nat
  chunkLast : Nat
  /-- adapter identifier and version bound to the sequence; identifier 0: none -/
  adapterId : Nat
  adapterVer : Nat
  /-- class and tenant of its sequence (R528) -/
  cls : Nat
  tenant : Nat
  /-- MAX_LEN of the sequence, blocks held in pages, committed staged tokens, attention group (R323, R325) -/
  maxLen : Nat
  flushed : Nat
  staged : Nat
  group : Nat
  /-- the lane's sampling record (R273), its lists and bitmap left aside; bias list and penalty table (R274) -/
  record : Bytes
  bias : List (Nat × Nat)
  penalty : List (Nat × Nat)
  deriving DecidableEq, Repr

/-- A lane table of one model instance for one furrow (R82, R90). -/
structure LaneTable where
  inst : Nat
  furrow : Nat
  /-- the instance is SUSPENDED (R578) -/
  suspended : Bool
  entries : List LaneEntry
  /-- tenants whose stack-memory quota is exhausted (R350), and sequences that will run soon (R351) -/
  full : List Nat
  soon : List Nat
  deriving DecidableEq, Repr

/-- Bytes a model image places: the member, the device address there, and the bytes. -/
structure Placed where
  device : Nat
  addr : Nat
  bytes : Bytes
  deriving DecidableEq, Repr

/-- A range a model image reserves on a tile of a member. -/
structure Reserve where
  device : Nat
  tile : Nat
  addr : Nat
  len : Nat
  deriving DecidableEq, Repr

/-- What a model image holds, as far as the rules name it.  The spec gives the image no layout of its own, so what the
firmware reads from it is the operand of MODEL_LOAD; its digest is taken over the bytes in memory. -/
structure ModelImage where
  /-- the authentication tag of a protected image's body verifies (R554) -/
  authentic : Bool
  /-- the vocabulary's tokens, the longest sequence, and the layers of the model -/
  vocab : Nat
  maxLen : Nat
  layers : Nat
  /-- local key-value heads of a device, key-value heads of the model, channels of a head, key-value format (R320) -/
  hLoc : Nat
  kvHeads : Nat
  headDim : Nat
  kvFmt : Nat
  /-- serving tiles in order of their share index (R321), and the ring size -/
  serving : List Nat
  ring : Nat
  /-- bytes by their places, and the offsets of the tensor images in the model image (R288) -/
  placed : List Placed
  tensors : List Nat
  /-- multiplier words of its rescale tables (R244) -/
  multipliers : List Nat
  /-- scale registers: member, tile, register, word (R248) -/
  scales : List (Nat × Nat × Nat × Nat)
  /-- wire table block (R312) -/
  wire : Option Bytes
  /-- unit-local regions: member, stack, region (R398) -/
  unitLocal : List (Nat × Nat × Nat)
  /-- near-bank sequences (R421): offset in the model image, and whether its unit is the first and the last of the range -/
  sequences : List (Nat × Bool × Bool)
  /-- adapter layout tag, and the adapter store of each tile (R313, R314) -/
  layoutTag : Nat
  adapterStore : List Reserve
  /-- share tables in tile stores, staging areas in scratchpads (R338, R343) -/
  shareArea : List Reserve
  stagingArea : List Reserve
  /-- ring partials: areas of the partial records and of the incoming ones, and the counter those advance (R323) -/
  partialArea : List Reserve
  ringIn : List Reserve
  ringCtr : Nat
  /-- granules of a tile-store pool kept free (R349) -/
  watermark : Nat
  deriving DecidableEq, Repr

/-- What a copy of the configuration says of a model instance (R156): its mask, image and step plan. -/
structure InstCopy where
  inst : Nat
  mask : Nat
  prot : Bool
  suspended : Bool
  image : ModelImage
  sha : Bytes
  /-- templates of its plan, the devices and tiles that have lists, and SHA-384 of the plan's image -/
  plan : Option (Nat × List (Nat × Nat) × Bytes)
  deriving DecidableEq, Repr

/-- The lead device's active cluster-scope configuration, as REJOIN copies it (R156), and the cluster's membership: epochs
accepted by device and by serial of a spare, serials and group sizes. -/
structure ClusterCopy where
  epoch : Nat
  /-- register fields of cluster scope, by field key -/
  regs : List (Nat × Nat)
  /-- image of the active furrow plan -/
  plan : Option Bytes
  insts : List InstCopy
  /-- current adapter versions: instance, identifier, version, digest -/
  adapters : List (Nat × Nat × Nat × Bytes)
  lead : Nat
  nextK : Nat
  epochs : List (Nat × Nat)
  spares : List (Nat × Nat)
  serials : List (Nat × Nat)
  groups : List (Nat × Nat)
  deriving DecidableEq, Repr

/-- What a characterisation record gives (R545): F_MAX of each tile in MHz, its engine map and spare, the PUF's helper data, the
wrapped keys, and the certificate chains. -/
structure CharBody where
  fMax : List Nat
  maps : List (Nat × Nat)
  /-- the PUF is reconstructed from its helper data (R547); the wrapped keys unwrap (R548) -/
  puf : Bool
  unwraps : Bool
  /-- certificate chains of SPDM slots 0 and 1 -/
  chains : List Bytes
  deriving DecidableEq, Repr

/-- A signed object (R538): its bytes, whether its keys and signatures pass checks 2 to 4 of R539, and what its body holds, for
which the spec gives no layout: the build identifier of a firmware image, the floors of a floor record, the characterisation. -/
structure SignedObj where
  bytes : Bytes
  verified : Bool
  build : Nat
  floorFw : Nat
  floorChar : Nat
  char : Option CharBody
  deriving DecidableEq, Repr

/-- What a self-test found on a partition (R611): its failed items, the time taken in microseconds, and the failing physical
engine, pseudo-channel and address. -/
structure SelfResult where
  partition : Nat
  failed : Nat
  micros : Nat
  engine : Nat
  pc : Nat
  addr : Nat
  deriving DecidableEq, Repr

/-- Bodies of control messages (R467, R583). -/
inductive CtrlBody where
  /-- 0x01: acknowledges the message of that identifier -/
  | ack (msgId : Nat)
  /-- 0x02: a command packet, with its in payload, and what a model image holds -/
  | fwdCmd (p : Packet) (pay : Option Bytes) (img : Option ModelImage)
  /-- 0x02: the REJOIN that brings a device its configuration (R156, R586) -/
  | fwdCopy (p : Packet) (c : ClusterCopy)
  /-- 0x03: a member's completion of the FWD_CMD of that message identifier, with the bytes the command reads -/
  | completion (msgId : Nat) (status : Status) (detail result0 result1 : Nat) (data : Bytes)
  | laneTable (t : LaneTable)
  | laneAccept (inst furrow : Nat)
  /-- 0x06, with what the lanes that go on take next -/
  | laneDiscard (inst furrow : Nat) (lanes : List LaneEntry)
  /-- 0x07, with the member's stack-pool bytes by tenant, and its sequences with pages in the far tier -/
  | laneAck (inst furrow : Nat) (used : List (Nat × Nat)) (far : List Nat)
  | cfgPrepare (epoch furrow : Nat)
  | cfgReady (epoch : Nat)
  | cfgConflict (epoch check : Nat)
  | cfgCommitGo (epoch : Nat)
  | cfgAbort (epoch : Nat)
  /-- 0x09: the start time and the first furrow's number (R40, R41) -/
  | t0 (t0 k0 : Nat)
  /-- 0x0A: what lanes of an instance of another group produced in a furrow, and the sequences whose lanes committed; lanes
  that missed a page, sequences whose pages are damaged, and those whose choice has VALID 0 (R281) -/
  | tokens (inst furrow : Nat) (l : List TokenRec) (committed missed damaged empty : List Nat)
  | fenced (device epoch serial : Nat)
  | failure (kind device inst furrow : Nat) (record : Option ErrRec)
  deriving DecidableEq, Repr

/-- A control message (R466), whole; `Machine/Frames.lean` cuts it into fragments. -/
structure CtrlMsg where
  src : Nat
  /-- 0xFF: every member of the sender's group -/
  dst : Nat
  msgId : Nat
  epoch : Nat
  body : CtrlBody
  deriving DecidableEq, Repr

/-- A frame's header (R447) and flit. -/
structure Frame where
  type : Nat
  poison : Bool
  coded : Bool
  enc : Bool
  replay : Bool
  seq : Nat
  ack : Nat
  srcTile : Nat
  flit : Bytes
  deriving DecidableEq, Repr

/-- How a control core issues an atomic operation (R384). -/
inductive AtomRoute where
  /-- a write of ATOM_CMD of core `core` at tile `tile`, with GO and SIZE -/
  | window (tile core : Nat) (wide : Bool)
  /-- a RISC-V AMO -/
  | amo (core addr : Nat) (wide : Bool) (data : Nat)
  deriving DecidableEq, Repr

/-- What the memories report of a command's accesses: the words found in error, by address, and whether each was corrected (R370); and the
clocks that words waited for a taken bank, by tile and by memory, the scratchpad or not (R366). -/
structure MemReport where
  errors : List (Nat × Bool)
  conflicts : List (Nat × Bool × Nat)
  deriving DecidableEq, Repr

/-- What a matrix engine reports of itself (R226, R227): stall clocks, corrected accumulator errors, and the cause of an
engine fault, 0 for none. -/
structure EngineReport where
  operandStalls : Nat
  slotWaits : Nat
  corrected : Nat
  fault : Nat
  deriving DecidableEq, Repr

/-- What a near-bank unit's atom meets (R419, R420, R437): plots whose first read was wrong, how often the result's CRC did
not match, and a unit fault. -/
structure NbuReport where
  glitches : List Nat
  crcFails : Nat
  fault : Bool
  deriving DecidableEq, Repr

/-- An expander behind a downstream port (R496, R497), as the firmware finds it: port 0 (A, or the x16 port) or 1 (B); lanes, speed
code and flit size of its link; whether it is a Type 3 single logical device attached directly, whether IDE can be set up, and its
bytes. -/
structure Expander where
  port : Nat
  width : Nat
  speed : Nat
  flit256 : Bool
  type3 : Bool
  ide : Bool
  bytes : Nat
  deriving DecidableEq, Repr

/-- The boot flash as the device was delivered (R601): the firmware image, the floor record slots 0 and 1, the characterisation
records A and B. -/
structure BootFlash where
  firmware : Option SignedObj
  floors : List (Option SignedObj)
  chars : List (Option SignedObj)
  deriving DecidableEq, Repr

/-- Parts of a firmware transfer (R543). -/
inductive FwPart where
  | full | first | next | last
  deriving DecidableEq, Repr
/-- The commands, one constructor per row of spec/opcode_table.json. -/
inductive Instr where
  /-- IDENTIFY (R549). Returns the identity record, with GLB.PART and GLB.READY in the completion. -/
  | identify (p : Packet)
  /-- GEOMETRY_GET (R146). Returns the geometry record as an out payload. -/
  | geometryGet (p : Packet)
  /-- CFG_STAGE (R147). Stages register entries for the named scope; entries that name live fields take effect at once. -/
  | cfgStage (p : Packet) (pay : Option Bytes)
  /-- CFG_STAGE_DISCARD (R137). CFG_STAGE with F5 DISCARD resets the staged set of the named scope to the active set. -/
  | cfgStageDiscard (p : Packet)
  /-- CFG_COMMIT (R153). Device-scope commit of the named device or of every member, at the next headland or at once when idle. -/
  | cfgCommit (p : Packet)
  /-- CFG_COMMIT_CLUSTER (R154). Cluster-wide commit: checks the target, sends PREPARE and collects READY or CONFLICT replies. -/
  | cfgCommitCluster (p : Packet)
  /-- CFG_DIGEST (R158). Returns the active epoch and digest of the named device, or CFG_DIVERGENT. -/
  | cfgDigest (p : Packet)
  /-- CLUSTER_FORM (R148). Forms the cluster from the entry list, sets membership epoch 1 and empties cluster-scope configuration. -/
  | clusterForm (p : Packet) (pay : Option Bytes)
  /-- FENCE (R132). Completes once earlier packets of its ring, or of every ring, have their final completions. -/
  | fence (p : Packet)
  /-- REJOIN (R586). Places a device at a vacant position or as a spare, under a new membership epoch. -/
  | rejoin (p : Packet)
  /-- REJOIN_ENGINE (R587). REJOIN with F5 ENGINE self-tests a retired physical engine and returns it to the map. -/
  | rejoinEngine (p : Packet)
  /-- RESET_PARTITION (R138). Holds a partition in reset, suspending the instances that use it when FORCE is set. -/
  | resetPartition (p : Packet)
  /-- MERIDIAN_SET (R37). Assigns a time of day, which the next accepted mark takes. -/
  | meridianSet (p : Packet)
  /-- FURROW_PLAN_LOAD (R47). Checks a furrow plan image and stages it on every member. -/
  | furrowPlanLoad (p : Packet) (pay : Option Bytes)
  /-- FURROW_START (R41). Names T0 and moves every member from STOPPED to ARMED. -/
  | furrowStart (p : Packet)
  /-- FURROW_STOP (R42). Stops the schedule at the named stop headland, or at once while ARMED. -/
  | furrowStop (p : Packet)
  /-- MODEL_LOAD (R140). Verifies a model image and stages the model instance on its member devices. -/
  | modelLoad (p : Packet) (img : ModelImage)
  /-- MODEL_UNLOAD (R141). Stages removal of an instance; its commit retires, closes and frees everything that depends on it. -/
  | modelUnload (p : Packet)
  /-- PLAN_LOAD (R168). Checks a step plan image and stages its lists on every member. -/
  | planLoad (p : Packet)
  /-- ADAPTER_LOAD (R314). Checks an adapter factor image and creates a new adapter version, PENDING when no room exists. -/
  | adapterLoad (p : Packet)
  /-- ADAPTER_RETIRE (R105). Moves the current adapter version to DRAINING at the next headland that admits. -/
  | adapterRetire (p : Packet)
  /-- PREFIX_CREATE (R100). Makes a prefix handle from the first L tokens of an IDLE sequence. -/
  | prefixCreate (p : Packet)
  /-- PREFIX_RELEASE (R102). Drops the handle's own page references and makes the handle stale. -/
  | prefixRelease (p : Packet)
  /-- KV_IMPORT (R356). Checks a key-value image, places its pages and creates a prefix handle. -/
  | kvImport (p : Packet)
  /-- KV_EXPORT (R356). Writes the flushed key-value state of an IDLE sequence as a key-value image. -/
  | kvExport (p : Packet)
  /-- SEQ_OPEN (R91). Runs the admission checks and opens a sequence, from a prefix handle if one is named. -/
  | seqOpen (p : Packet)
  /-- SEQ_APPEND (R77). Adds prompt tokens to a sequence, moving it to INGEST where two or more tokens are pending. -/
  | seqAppend (p : Packet) (pay : Option Bytes)
  /-- SEQ_GENERATE (R94). Admits a generation request, estimating its deadline, and completes at retirement. -/
  | seqGenerate (p : Packet) (pay : Option Bytes)
  /-- SEQ_CANCEL (R81). Retires a sequence's generation request at a headland with CANCELLED. -/
  | seqCancel (p : Packet)
  /-- SEQ_CLOSE (R81). Closes a sequence, retiring any request and releasing its page references. -/
  | seqClose (p : Packet)
  /-- TENANT_SET (R144). Creates, changes or removes a tenant queue with its weight, budget, quota and limits. -/
  | tenantSet (p : Packet)
  /-- HINT (R519). HINT packet adds expected power for the whole device over a Meridian interval. -/
  | hintPacket (p : Packet)
  /-- POWER_CAP_SET (R144). Writes CAP_W on each device of the mask, taking effect live. -/
  | powerCapSet (p : Packet)
  /-- TELEMETRY_READ (R529). Returns the named telemetry set as an out payload. -/
  | telemetryRead (p : Packet)
  /-- ENERGY_READ (R144). Returns a partition, class or tenant energy counter in µJ. -/
  | energyRead (p : Packet)
  /-- SEQ_READ (R412). TRAFFIC_GEN pattern of sequential 2 KiB reads on every pseudo-channel of a stack. -/
  | seqRead (p : Packet)
  /-- RANDOM_2K_READ (R412). TRAFFIC_GEN pattern of random 2 KiB reads. -/
  | random2kRead (p : Packet)
  /-- RANDOM_64_READ (R412). TRAFFIC_GEN pattern of random 64-byte reads. -/
  | random64Read (p : Packet)
  /-- SEQ_WRITE_CHECK (R412). Destructive TRAFFIC_GEN pattern writing PRBS31 sequentially, then reading and comparing. -/
  | seqWriteCheck (p : Packet)
  /-- MIXED_CHECK (R412). Destructive TRAFFIC_GEN pattern of 1:1 writes and reads in 2 KiB runs, compared. -/
  | mixedCheck (p : Packet)
  /-- NBU_READ (R412). TRAFFIC_GEN pattern in which each near-bank unit reads its whole pseudo-channel. -/
  | nbuRead (p : Packet)
  /-- RETRAIN (R411). TRAFFIC_GEN pattern retraining every lane of the stack while keeping contents. -/
  | retrain (p : Packet)
  /-- TRAFFIC_GEN_END (R413). At the end of DURATION_US the traffic run stops and its results complete the command. -/
  | trafficGenEnd (stack count mismatches uncorrectable : Nat) (firstPc : Option Nat) (left : List (Nat × Bytes))
  /-- PRBS31Q (R471). LINK_TEST pattern checking PRBS31Q from the peer on each lane before FEC. -/
  | prbs31q (p : Packet)
  /-- PRBS13Q (R471). LINK_TEST pattern checking PRBS13Q from the peer on each lane before FEC. -/
  | prbs13q (p : Packet)
  /-- SSPRQ (R471). LINK_TEST pattern transmitting SSPRQ for external measurement. -/
  | ssprq (p : Packet)
  /-- FRAME_LOOP (R471). LINK_TEST pattern sending random flits both ways and comparing after FEC and CRC. -/
  | frameLoop (p : Packet)
  /-- LINK_TEST_RETRAIN (R471). LINK_TEST pattern RETRAIN retrains the port under R470. -/
  | linkTestRetrain (p : Packet)
  /-- LINK_TEST_END (R476). At the end of the run the port leaves TEST and the results complete the command. -/
  | linkTestEnd (port checked errors lanes : Nat)
  /-- SELFTEST (R610). Runs self-test items on the named partitions in TEST mode. -/
  | selftest (p : Packet)
  /-- SELFTEST_DONE (R611). When every named partition has finished, PART_OK is updated and the report written. -/
  | selftestDone (results : List SelfResult) (left : List (Nat × Bytes))
  /-- SQ_TAIL_DOORBELL (R117). Host writes a new submission tail; the lead device fetches and accepts packets in ring order. -/
  | sqTailDoorbell (ring index : Nat)
  /-- CQ_HEAD_DOORBELL (R118). Host frees completion entries, releasing held records and submission fetch. -/
  | cqHeadDoorbell (ring index : Nat)
  /-- TR_HEAD_DOORBELL (R107). Host frees token ring entries so that held tokens can be written. -/
  | trHeadDoorbell (ring index : Nat)
  /-- RING_CTRL_WRITE (R120). Write to a ring control register; ENABLE 0 to 1 sets head and tail to 0. -/
  | ringCtrlWrite (kind ring value : Nat)
  /-- REGISTER_WRITE (R10). Host or core write to a register field with no row of its own, under its access code. -/
  | registerWrite (host : Bool) (size offset value : Nat)
  /-- DIRECT_LIST_GO (R189). Writing GO runs the tile's direct list in a mode other than SERVICE. -/
  | directListGo (tile : Nat)
  /-- SEQ_CTRL_MODE_WRITE (R190). Writes the tile sequencer mode, ignored when not permitted. -/
  | seqCtrlModeWrite (tile mode : Nat)
  /-- SPARE_REQ (R194). Requests substitution of a logical engine at the next turnaround. -/
  | spareReq (tile logical : Nat)
  /-- SEG_POWER_WRITE (R373). Requests power states for tile-store and scratchpad segments, refused where R374 forbids. -/
  | segPowerWrite (tile ts sp : Nat)
  /-- INST_HEALTH_CLEAR (R577). Writing CLEAR returns a DEGRADED instance to RUNNING unless a tile is DOUBLED. -/
  | instHealthClear (inst : Nat)
  /-- EVLOG_SEL_WRITE (R605). Loads the event-log entry of the named SEQ into EVLOG_DATA. -/
  | evlogSelWrite (seq : Nat)
  /-- ATOM_ADD (R382). Granary atomic add on a word, returning the old value. -/
  | atomAdd (route : AtomRoute)
  /-- ATOM_MIN (R382). Granary atomic signed minimum. -/
  | atomMin (route : AtomRoute)
  /-- ATOM_MAX (R382). Granary atomic signed maximum. -/
  | atomMax (route : AtomRoute)
  /-- MINU (R382). Granary atomic unsigned minimum. -/
  | minu (route : AtomRoute)
  /-- MAXU (R382). Granary atomic unsigned maximum. -/
  | maxu (route : AtomRoute)
  /-- CAS (R382). Granary atomic compare and swap. -/
  | cas (route : AtomRoute)
  /-- REF_INC (R383). Adds to the REFS and PINS fields of a reference word, refusing on carry. -/
  | refInc (route : AtomRoute)
  /-- REF_DEC (R383). Subtracts from REFS and PINS with zero detection, refusing on borrow. -/
  | refDec (route : AtomRoute)
  /-- DESCRIPTOR_ISSUE (R182). The tile sequencer issues the next descriptor of its list to its engine queue, waiting for room. -/
  | descriptorIssue (tile : Nat)
  /-- MATMUL (R204). A matrix engine streams weight column groups against lane activations into an accumulator slot. -/
  | matmul (tile unit : Nat) (rep : EngineReport) (mem : MemReport)
  /-- CHAIN_LINK_ADD (R222). Once DEP1 holds, a chain link adds the incoming running sum and writes out. -/
  | chainLinkAdd (tile unit : Nat) (reports : EngineReport × MemReport)
  /-- WRITE_OUT_TIMEOUT (R227). A write-out unfinished after 4,096 clocks raises an engine fault. -/
  | writeOutTimeout (tile unit : Nat)
  /-- PLOT_REFETCH_DONE (R191). The master copy of a damaged plot is in place and the MATMUL restarts at the failing K-block. -/
  | plotRefetchDone (tile unit : Nat)
  /-- VEC_COPY (R263). Vector operation COPY. -/
  | vecCopy (tile stalls : Nat) (mem : MemReport)
  /-- VEC_ADD (R263). Vector operation ADD. -/
  | vecAdd (tile stalls : Nat) (mem : MemReport)
  /-- VEC_SUB (R263). Vector operation SUB. -/
  | vecSub (tile stalls : Nat) (mem : MemReport)
  /-- VEC_MUL (R263). Vector operation MUL. -/
  | vecMul (tile stalls : Nat) (mem : MemReport)
  /-- FMA (R263). Vector operation a × b + c. -/
  | fma (tile stalls : Nat) (mem : MemReport)
  /-- AXPB (R263). Vector operation a × A + B with scalar operands. -/
  | axpb (tile stalls : Nat) (mem : MemReport)
  /-- VEC_MAX (R263). Vector operation MAX. -/
  | vecMax (tile stalls : Nat) (mem : MemReport)
  /-- VEC_MIN (R263). Vector operation MIN. -/
  | vecMin (tile stalls : Nat) (mem : MemReport)
  /-- MULROW (R263). Multiplies each row by its row-vector value. -/
  | mulrow (tile stalls : Nat) (mem : MemReport)
  /-- DIVROW (R263). Divides each row by its row-vector value. -/
  | divrow (tile stalls : Nat) (mem : MemReport)
  /-- ROWSUM (R265). Reduction sum of each row. -/
  | rowsum (tile stalls : Nat) (mem : MemReport)
  /-- ROWMAX (R265). Maximum of each row. -/
  | rowmax (tile stalls : Nat) (mem : MemReport)
  /-- ROWAMAX (R263). Maximum absolute value of each row, the per-token scale scan. -/
  | rowamax (tile stalls : Nat) (mem : MemReport)
  /-- ACT (R267). Evaluates a function table on each element. -/
  | actTable (tile stalls : Nat) (mem : MemReport)
  /-- GATE (R267). Evaluates a function table and multiplies by the second input. -/
  | gateTable (tile stalls : Nat) (mem : MemReport)
  /-- EXPROW (R263). Function table of the difference from the row value, for softmax. -/
  | exprow (tile stalls : Nat) (mem : MemReport)
  /-- RMSNORM (R266). RMS normalisation of each row. -/
  | rmsnorm (tile stalls : Nat) (mem : MemReport)
  /-- LAYERNORM (R266). Layer normalisation of each row. -/
  | layernorm (tile stalls : Nat) (mem : MemReport)
  /-- QUANT_I8S (R239). Symmetric INT8 activation quantisation. -/
  | quantI8s (tile stalls : Nat) (mem : MemReport)
  /-- QUANT_I8A (R240). Asymmetric INT8 activation quantisation with zero points. -/
  | quantI8a (tile stalls : Nat) (mem : MemReport)
  /-- QUANT_FP8 (R241). FP8 activation quantisation. -/
  | quantFp8 (tile stalls : Nat) (mem : MemReport)
  /-- RESCALE_TAB (R245). Rescales INT32 raw sums with multiplier words from a rescale table. -/
  | rescaleTab (tile stalls : Nat) (mem : MemReport)
  /-- RESCALE_REG (R248). Rescales INT32 raw sums with fall-back scale registers, counting saturations. -/
  | rescaleReg (tile stalls : Nat) (mem : MemReport)
  /-- RESCALE_FP (R247). Rescales FP32 raw sums with channel scales. -/
  | rescaleFp (tile stalls : Nat) (mem : MemReport)
  /-- WIRE_Q8 (R253). Narrows rows to the INT8 wire layout. -/
  | wireQ8 (tile stalls : Nat) (mem : MemReport)
  /-- WIRE_FP8 (R252). Narrows rows to the FP8 wire layout. -/
  | wireFp8 (tile stalls : Nat) (mem : MemReport)
  /-- WIRE_WIDE (R252). Writes rows in the BF16 or FP32 wire layout. -/
  | wireWide (tile stalls : Nat) (mem : MemReport)
  /-- WIDEN_ADD (R270). Widens a wire input and adds it in FP32. -/
  | widenAdd (tile stalls : Nat) (mem : MemReport)
  /-- WIDEN_ADD_F32 (R270). Adds an FP32 wire input in FP32. -/
  | widenAddF32 (tile stalls : Nat) (mem : MemReport)
  /-- ATTEND (R328). The attention sequencer computes partial results of each lane over owned blocks and the staging buffer. -/
  | attend (tile clocks : Nat) (reports : List (Nat × EngineReport) × MemReport)
  /-- ATTEND_MERGE (R331). Once all partials are present, the merge tile folds them and writes the lane output; the operand
  is the tile and what its memories report. -/
  | attendMerge (run : Nat × MemReport)
  /-- SAMPLE_LOCAL (R276). The Drill scans its vocabulary slice and writes candidate records. -/
  | sampleLocal (tile : Nat) (mem : MemReport)
  /-- SAMPLE_FINAL (R278). The owner device merges candidates, filters them and draws the token. -/
  | sampleFinal (tile : Nat) (mem : MemReport)
  /-- COPY (R178). Mover plain copy. -/
  | copyXfer (tile unit : Nat) (mem : MemReport)
  /-- STRIDED_COPY (R178). Mover strided copy. -/
  | stridedCopy (tile unit : Nat) (mem : MemReport)
  /-- GATHER (R178). Mover gather from an address list. -/
  | gather (tile unit : Nat) (mem : MemReport)
  /-- ZERO_FILL (R178). Mover zero fill. -/
  | zeroFill (tile unit : Nat) (mem : MemReport)
  /-- REDUCE_SCATTER (R456). Collective sending piece q to each peer and combining the pieces for the own index. -/
  | reduceScatter (tile : Nat) (mem : MemReport)
  /-- ALL_GATHER (R456). Collective sending the tile's data to every peer. -/
  | allGather (tile : Nat) (mem : MemReport)
  /-- ALL_REDUCE (R458). Two-phase collective: reduce-scatter, then the narrowed combined piece to all. -/
  | allReduce (tile : Nat) (mem : MemReport)
  /-- BROADCAST (R456). Collective in which devices with data send it to every peer. -/
  | broadcast (tile : Nat) (mem : MemReport)
  /-- ONE_SHOT_ALL_TO_ALL (R456). Collective sending piece q to peer q. -/
  | oneShotAllToAll (tile : Nat) (mem : MemReport)
  /-- RING_PASS (R456). Collective sending the data on a single port or column port set. -/
  | ringPass (tile : Nat) (mem : MemReport)
  /-- NBU (R416). The stack controller checks near-bank sequence headers and delivers each unit's input. -/
  | nbuDesc (tile : Nat) (mem : MemReport)
  /-- NBU_ATOM (R417). A near-bank unit runs one atom over its plots at an atom boundary. -/
  | nbuAtom (tile unit : Nat) (rep : NbuReport)
  /-- NBU_CHAIN_RECEIVE (R418). A unit adds the partial arriving in its incoming shadow. -/
  | nbuChainReceive (tile unit crcFails : Nat)
  /-- WAIT_MERIDIAN (R181). WAIT in mode 0b01 stops issue until a Meridian offset. -/
  | waitMeridian (tile : Nat)
  /-- WAIT_COUNTER (R181). WAIT in mode 0b10 stops issue until a counter reaches VALUE. -/
  | waitCounter (tile : Nat)
  /-- HINT_DESCRIPTOR (R519). HINT descriptor passes expected tile power to the power controller. -/
  | hintDescriptor (tile : Nat)
  /-- MARK (R182). Sets the tile's current phase identifier; the power controller learns and corrects on it. -/
  | markDesc (tile : Nat)
  /-- FAILURE_NOTICE (R192). A tile receiving a mesh failure notice enters SKIP. -/
  | failureNotice (tile : Nat)
  /-- MERID_MARK_EDGE (R35). A mark edge is timestamped and accepted, slewed, counted as an excursion, or used in acquisition. -/
  | meridMarkEdge
  /-- MISSING_MARK (R35). A search window ends with no edge, entering or prolonging HOLDOVER. -/
  | missingMark
  /-- LOCK_LOSS (R35). A third consecutive excursion ends lock. -/
  | lockLoss
  /-- HOLDOVER_EXHAUSTED (R35). Consecutive missing marks exceed HOLDOVER_MARKS and the unit becomes UNLOCKED. -/
  | holdoverExhausted
  /-- MERID_CLK_LOSS (R35). Loss of MERID_CLK moves a LOCKED unit to HOLDOVER or holds MRD.TIME. -/
  | meridClkLoss
  /-- MERID_PLL_LOCK (R35). The MERID_CLK PLL locks and the unit enters ACQUIRE. -/
  | meridPllLock
  /-- LOCAL_MILLISECOND (R131). A local millisecond tick on an unlocked device drives deferred commands and commits. -/
  | localMillisecond
  /-- START_TURNAROUND (R41). At T0 − 200 ns each member clears counters and slots and arms template 0. -/
  | startTurnaround
  /-- FURROW_BODY_START (R40). A furrow starts and the sequencers begin the template's step plan. -/
  | furrowBodyStart
  /-- LATE_STEP_CHECK (R51). At LATE_OFFSET_NS the device checks step completion and sends its beacon. -/
  | lateStepCheck
  /-- BEACON_DEADLINE (R53). At +250 ns members without a beacon are treated as late and counted missing. -/
  | beaconDeadline
  /-- RELAY_SEND (R52). At +300 ns each device sends its group view on its column ports. -/
  | relaySend
  /-- RELAY_DEADLINE (R53). At +600 ns expected relays not received are counted missing. -/
  | relayDeadline
  /-- ECHO_SEND (R52). At +650 ns each device sends the OR of its late indications on its mesh ports. -/
  | echoSend
  /-- FALLOW_DECISION (R54). At +1,000 ns LATE_GROUP is fixed, making the next furrow fallow or not. -/
  | fallowDecision
  /-- SCHEDULE_COLLAPSE (R58). FALLOW_LIMIT consecutive fallow furrows make the lead stop the schedule. -/
  | scheduleCollapse
  /-- BEACON_SEND (R39). Outside RUNNING and FALLOW a beacon is sent 500,000 ns after each accepted mark. -/
  | beaconSend
  /-- HEADLAND_START (R59). The headland begins and the firmware performs its work items in order. -/
  | headlandStart (fits : Bool)
  /-- LANE_TABLE_DEADLINE (R90). 400 ns before the headland end the lead broadcasts ACCEPT or DISCARD. -/
  | laneTableDeadline
  /-- TURNAROUND (R59). 200 ns before headland end the sequencers are armed, counters and slots cleared, scales adapted. -/
  | turnaround
  /-- LANE_EXHAUSTED (R576). A request reaching LANE_RETRY_LIMIT furrows without a token retires with FAIL_STEP. -/
  | laneExhausted (seqId : Nat)
  /-- INSTANCE_DEGRADED (R577). An instance reaching DEGRADE_COUNT failures becomes DEGRADED or SUSPENDED. -/
  | instanceDegraded (inst : Nat)
  /-- PHASE_PREPOSITION (R518). 2 µs before a phase the controller sets the voltage and guard for its level. -/
  | phasePreposition (inst phase : Nat)
  /-- PHASE_LEVEL_APPLY (R518). At the phase offset the phase's level is applied. -/
  | phaseLevelApply (inst phase : Nat)
  /-- GUARD_REMOVE (R518). 1 µs after the phase starts the voltage guard is removed. -/
  | guardRemove
  /-- IDLE_CAP_STEP (R518). Outside RUNNING and FALLOW the device-wide demand moves one level every 100 µs. -/
  | idleCapStep
  /-- POWER_SAMPLE (R514). Each 1 µs power sample is compared with PEAK and energy is accumulated. -/
  | powerSample (rails : List (Nat × Nat)) (shares : List Nat)
  /-- CURRENT_LIMIT_STEP (R513). The current-limit demand moves one level per 10 µs over or 100 µs under the limit. -/
  | currentLimitStep (tile : Nat)
  /-- VR_ALERT_FALL (R512). A VR_ALERT_N input falls and every tile goes to PL7. -/
  | vrAlertFall (input : Nat)
  /-- VR_ALERT_RISE (R512). The last VR_ALERT_N input returns high, starting the 1 ms hold. -/
  | vrAlertRise (input : Nat)
  /-- VR_ALERT_HOLD_EXPIRY (R512). 1 ms after the alert ends PL7 is released. -/
  | vrAlertHoldExpiry
  /-- DROOP_TRIP (R520). A droop detector trips and the tile's next clock period is stretched. -/
  | droopTrip (tile : Nat)
  /-- DROOP_SKIP_START (R520). A droop lasting beyond 64 cycles turns stretching into droop skipping. -/
  | droopSkipStart (tile : Nat)
  /-- DROOP_END (R520). All detectors above threshold plus 10 mV for 16 cycles end droop skipping. -/
  | droopEnd (tile : Nat)
  /-- THERMAL_SENSOR_READ (R523). Tile and tile-store temperatures are read and drive throttle, emergency or trip. -/
  | thermalSensorRead (tile : Nat) (tj ts : List Nat)
  /-- THERMAL_THROTTLE_STEP (R523). A thermal demand rises one level per 100 µs or falls one per 1 ms. -/
  | thermalThrottleStep (tile source : Nat) (down : Bool)
  /-- STACK_THERM_READ (R425). The hottest DRAM die is read, setting HOT, THROTTLING or EMERGENCY. -/
  | stackThermRead (stack temp : Nat)
  /-- REFRESH_INTERVAL (R404). A refresh interval elapses, decrementing the balance and possibly forcing a refresh. -/
  | refreshInterval (stack pc : Nat)
  /-- ATOM_BOUNDARY (R422). At an atom boundary the controller serves refresh, host accesses, other accesses, then the next atom. -/
  | atomBoundary (stack pc : Nat)
  /-- STACK_ACCESS (R400). A 64-byte access arrives at a stack controller and is queued and performed. -/
  | stackAccess (addr : Nat) (write : Option Bytes) (symbols : List Nat)
  /-- STACK_LANE_MARKED (R408). A lane reaching 256 corrected symbols is marked failed. -/
  | stackLaneMarked (stack pc lane : Nat)
  /-- STACK_CHANNEL_LOST (R579). More than 64 uncorrectable codewords of a pseudo-channel in 1 ms is partition-fatal. -/
  | stackChannelLost (stack pc : Nat)
  /-- REGION_ZERO_DONE (R398). After a region mode change the region is zeroed and the commit completes. -/
  | regionZeroDone (stack region : Nat)
  /-- GRANARY_ACCESS (R377). An access to a cacheable line is looked up at its home Granary. -/
  | granaryAccess (addr : Nat) (write : Option Bytes) (tagFault : Bool)
  /-- GRANARY_FILL_DONE (R380). A Granary miss fill returns and the waiting access completes. -/
  | granaryFillDone (tile line : Nat) (poison : Bool)
  /-- SCRUB (R371). The patrol scrubber reads one word every 256 clocks and writes back corrections. -/
  | scrub (tile : Nat) (scratch : Bool) (found : Option Bool)
  /-- SEGMENT_WAKE_DONE (R372). A segment waking from RETAIN returns to ON and waiting accesses proceed. -/
  | segmentWakeDone (tile segment : Nat)
  /-- SEGMENT_ON_DONE (R373). A segment moving from OFF to ON is zeroed and becomes ON. -/
  | segmentOnDone (tile segment : Nat)
  /-- IDLE (R448). An IDLE frame is received, advancing acknowledgement. -/
  | idleFrame (port : Nat) (f : Frame) (fixed : Nat)
  /-- DATA (R457). A DATA frame is received and its stream bytes placed by the slot table. -/
  | dataFrame (port : Nat) (f : Frame) (fixed : Nat) (full tagOk : Bool)
  /-- START (R455). A START frame is compared with the slot table and membership epoch. -/
  | startFrame (port : Nat) (f : Frame) (fixed : Nat)
  /-- BEACON (R463). A beacon is received, checked against the held epoch and its late flag recorded. -/
  | beaconFrame (port : Nat) (f : Frame) (fixed : Nat)
  /-- RELAY (R464). A relay or echo is received and its late indications recorded. -/
  | relayFrame (port : Nat) (f : Frame) (fixed : Nat)
  /-- NAK (R449). A NAK is received and the sender replays from the first unacknowledged frame. -/
  | nakFrame (port : Nat) (f : Frame) (fixed : Nat)
  /-- TRAIN (R470). A training exchange frame carrying serial, port and mode is received. -/
  | trainFrame (port serial peerPort mode : Nat)
  /-- REPLAY_TIMEOUT (R449). No acknowledgement for 1,000 ns triggers a replay. -/
  | replayTimeout (port : Nat)
  /-- LINK_RETRAIN (R449). A frame replayed 8 times takes the link out of UP into TRAIN. -/
  | linkRetrain (port : Nat)
  /-- PEER_DETECT (R470). Electrical idle exit is detected on all lanes and the port enters TRAIN. -/
  | peerDetect (port : Nat)
  /-- LINK_TRAIN_DONE (R470). Training ends, moving the port to UP, back to TRAIN, or FAILED after 3 attempts. -/
  | linkTrainDone (port : Nat) (ok : Bool)
  /-- LINK_PEER_LOST (R470). The peer is lost during training and the port returns to DETECT. -/
  | linkPeerLost (port : Nat)
  /-- ACK (R467). End-to-end acknowledgement of a control message. -/
  | ackMsg (port frags : Nat) (m : CtrlMsg)
  /-- FWD_CMD (R467). A command packet forwarded by the lead device is executed by a member. -/
  | fwdCmd (port frags : Nat) (m : CtrlMsg)
  /-- COMPLETION (R467). A member's completion is returned to the lead device. -/
  | completionMsg (port frags : Nat) (m : CtrlMsg)
  /-- LANE_TABLE (R90). A member writes a received lane table to its scratchpads. -/
  | laneTable (port frags : Nat) (m : CtrlMsg)
  /-- LANE_ACK (R90). A member acknowledges a complete lane table. -/
  | laneAck (port frags : Nat) (m : CtrlMsg)
  /-- LANE_ACCEPT (R90). Members adopt the lane table for the next furrow. -/
  | laneAccept (port frags : Nat) (m : CtrlMsg)
  /-- LANE_DISCARD (R90). Members keep the previous table less retired lanes. -/
  | laneDiscard (port frags : Nat) (m : CtrlMsg)
  /-- CFG_PREPARE (R154). A member locks its staged sets, runs the commit checks and replies. -/
  | cfgPrepare (port frags : Nat) (m : CtrlMsg)
  /-- CFG_READY (R154). A member's READY reply reaches the lead. -/
  | cfgReady (port frags : Nat) (m : CtrlMsg)
  /-- CFG_CONFLICT_REPLY (R154). A member's CONFLICT reply with its failing check reaches the lead. -/
  | cfgConflictReply (port frags : Nat) (m : CtrlMsg)
  /-- CFG_COMMIT_GO (R154). Members make the staged sets active at the target headland. -/
  | cfgCommitGo (port frags : Nat) (m : CtrlMsg)
  /-- CFG_ABORT (R154). Members release their locks without committing. -/
  | cfgAbort (port frags : Nat) (m : CtrlMsg)
  /-- CFG_DECISION_TIMEOUT (R154). While not running, 1 ms after PREPARE or the stop the lead decides with missing replies. -/
  | cfgDecisionTimeout
  /-- T0 (R41). A member receives T0 and moves from STOPPED to ARMED. -/
  | t0Msg (port frags : Nat) (m : CtrlMsg)
  /-- TOKENS (R106). Token records from another group reach the lead device. -/
  | tokensMsg (port frags : Nat) (m : CtrlMsg)
  /-- FENCED (R584). A device named by FENCED becomes FENCED, or a COLL completes with FAIL_FENCED. -/
  | fencedMsg (port frags : Nat) (m : CtrlMsg)
  /-- FAILURE_STEP_NOTICE (R192). FAILURE KIND 0x1 puts every tile of the instance into SKIP. -/
  | failureStepNotice (port frags : Nat) (m : CtrlMsg)
  /-- FAILURE_PEER_SILENT (R582). FAILURE KIND 0x2 reports a silent member to the lead. -/
  | failurePeerSilent (port frags : Nat) (m : CtrlMsg)
  /-- FAILURE_SELF_FENCE (R582). FAILURE KIND 0x3 makes the lead declare the sender dead. -/
  | failureSelfFence (port frags : Nat) (m : CtrlMsg)
  /-- FAILURE_ERROR_RECORD (R573). FAILURE KIND 0x4 is logged by the lead with FORWARDED set. -/
  | failureErrorRecord (port frags : Nat) (m : CtrlMsg)
  /-- CONTROL_RESEND (R467). No ACK within 10 µs resends the message; a second silence counts as a missing member. -/
  | controlResend (dst msgId : Nat)
  /-- PEER_DECLARED_DEAD (R582). The lead declares a member dead and broadcasts FENCED naming it. -/
  | peerDeclaredDead (device : Nat)
  /-- MEMBERSHIP_APPLY (R582). At the first headland after all acknowledgements, declared devices' epochs are cleared and instances suspended. -/
  | membershipApply
  /-- CLUSTER_DIVERGENT (R159). A counterpart divergent at two digest checks stops the schedule under ENFORCE. -/
  | clusterDivergent (device : Nat)
  /-- LEAD_LOST (R585). A member that lost the lead stops at its next headland start. -/
  | leadLost
  /-- DISSOLVE (R585). No lead beacon for 10 ms dissolves the member. -/
  | dissolve
  /-- WATCHDOG_EXPIRY (R580). The firmware watchdog expires after 10 ms, raising a device-fatal CONTROL_FAULT. -/
  | watchdogExpiry
  /-- CONTROL_FAULT (R580). A device-fatal control fault stops every sequencer and all sending. -/
  | controlFault (cause addr : Nat)
  /-- ADAPTER_ROOM (R104). Room appears in the adapter store and a PENDING load starts LOADING. -/
  | adapterRoom (inst id ver : Nat)
  /-- ADAPTER_VERIFY_DONE (R103). An adapter version is written and checked and becomes STAGED. -/
  | adapterVerifyDone (inst id ver : Nat)
  /-- ADAPTER_TIMEOUT (R104). A PENDING load reaches its timeout and completes with REJ_NO_SPACE. -/
  | adapterTimeout (inst id ver : Nat)
  /-- SPILL_COPY_DONE (R350). A spill or prefetch copy ends, so the entries can switch at the next headland. -/
  | spillCopyDone (tile addr : Nat)
  /-- MEMRD (R482). Host CXL.mem read of stack memory through the memory window. -/
  | memrd (tag offset : Nat) (symbols : List Nat)
  /-- MEMRDDATA (R482). Host CXL.mem read with data. -/
  | memrddata (tag offset : Nat) (symbols : List Nat)
  /-- MEMWR (R484). Host CXL.mem write of a line. -/
  | memwr (tag offset : Nat) (data : Bytes)
  /-- MEMWRPTL (R484). Host CXL.mem partial write with byte enables. -/
  | memwrptl (tag offset : Nat) (data : Bytes) (enable : Nat)
  /-- M2S_UNSUPPORTED (R482). Any other M2S opcode receives an Unsupported completion. -/
  | m2sUnsupported (tag : Nat)
  /-- H2D_SNOOP (R487). Every H2D snoop is answered with RspIHitI. -/
  | h2dSnoop (addr : Nat)
  /-- GO_WRITEPULL (R489). Write responses are received, allowing the ring's MSI-X message. -/
  | goWritepull (vector : Nat)
  /-- IRQ_HOLDOFF_EXPIRY (R489). The hold-off ends and one message covers records written during it. -/
  | irqHoldoffExpiry (vector : Nat)
  /-- BUS_MASTER_ENABLE_WRITE (R491). Host changes Bus Master Enable, holding or releasing D2H traffic and interrupts. -/
  | busMasterEnableWrite (on : Bool)
  /-- FUNCTION_LEVEL_RESET (R492). Disables every ring and discards unwritten completions. -/
  | functionLevelReset
  /-- UPSTREAM_LINK_DOWN (R492). Loss of the upstream link acts as a Function Level Reset. -/
  | upstreamLinkDown
  /-- EXPANDER_LINK_DOWN (R499). An expander link goes down and its far-tier range becomes unmapped. -/
  | expanderLinkDown (port : Nat)
  /-- SYS_RST_N_ASSERT (R624). Every block outside VSB is held in reset and the device stops. -/
  | sysRstNAssert
  /-- SYS_RST_N_RELEASE (R624). The device leaves reset and start-up begins. -/
  | sysRstNRelease
  /-- PERST_N_ASSERT (R626). The upstream port is held in reset. -/
  | perstNAssert
  /-- PERST_N_RELEASE (R625). Configuration space answers within 100 ms. -/
  | perstNRelease
  /-- VSB_POWER_UP (R596). VSB reaches regulation and SB_ADDR is sampled. -/
  | vsbPowerUp (straps : Nat)
  /-- ROM_BOOT (R539). At the later reset release the security core verifies floor and firmware and releases the control cores. -/
  | romBoot (flash : BootFlash) (tests : Bool)
  /-- MEMORY_INIT_DONE (R426). Stacks, tile stores and scratchpads are trained and zeroed and MEM_OK is set. -/
  | memoryInitDone (found : List (Nat × Nat × List Nat))
  /-- DOWNSTREAM_ENUMERATION (R496). After BOOT_OK the firmware enumerates expanders and maps the far tier. -/
  | downstreamEnumeration (found : List Expander)
  /-- GET_FW_INFO (R543). Mailbox command reporting the firmware slot. -/
  | getFwInfo
  /-- TRANSFER_FW (R544). Mailbox command collecting and verifying a firmware image and writing it to flash. -/
  | transferFw (part : FwPart) (slot offset : Nat) (data : Bytes) (verified : Bool) (build : Nat)
  /-- ACTIVATE_FW (R544). Mailbox command restarting the ROM flow in recovery. -/
  | activateFw (slot : Nat) (online : Bool)
  /-- GET_VERSION (R550). SPDM GET_VERSION request. -/
  | getVersion (transport : Nat)
  /-- GET_CAPABILITIES (R550). SPDM GET_CAPABILITIES request. -/
  | getCapabilities (transport : Nat)
  /-- NEGOTIATE_ALGORITHMS (R550). SPDM NEGOTIATE_ALGORITHMS request. -/
  | negotiateAlgorithms (transport : Nat)
  /-- GET_DIGESTS (R550). SPDM GET_DIGESTS request. -/
  | getDigests (transport : Nat)
  /-- GET_CERTIFICATE (R550). SPDM GET_CERTIFICATE request for slot 0 or 1. -/
  | getCertificate (transport slot : Nat)
  /-- CHALLENGE (R551). SPDM CHALLENGE answered with both signatures. -/
  | challenge (transport slot : Nat)
  /-- GET_MEASUREMENTS (R551). SPDM GET_MEASUREMENTS returning the measurement blocks. -/
  | getMeasurements (transport : Nat) (index : Option Nat) (signed : Bool)
  /-- KEY_EXCHANGE (R551). SPDM KEY_EXCHANGE opening a secured session. -/
  | keyExchange (transport session : Nat)
  /-- FINISH (R550). SPDM FINISH request. -/
  | finish (transport session : Nat) (ok : Bool)
  /-- KEY_UPDATE (R550). SPDM KEY_UPDATE request. -/
  | keyUpdate (transport session : Nat)
  /-- HEARTBEAT (R550). SPDM HEARTBEAT request. -/
  | heartbeat (transport session : Nat)
  /-- END_SESSION (R550). SPDM END_SESSION request. -/
  | endSession (transport session : Nat)
  /-- SET_INSTANCE_KEY (R552). Vendor-defined SPDM request provisioning an instance key in a secured session. -/
  | setInstanceKey (transport session inst keyId key : Nat)
  /-- SET_FLOOR (R607). Vendor-defined SPDM request writing a verified floor record to flash. -/
  | setFloor (transport session : Nat) (record : SignedObj)
  /-- CXL_IDE_KM (R493). IDE key management through DOE inside a secured session. -/
  | cxlIdeKm (session stream : Nat) (go skid : Bool)
  /-- TABLE_ACCESS (R495). DOE Table Access returning the CDAT. -/
  | tableAccess
  /-- SETDASA (R596). I3C assignment of the dynamic address from the static address. -/
  | setdasa (staticAddr addr : Nat)
  /-- ENTDAA (R596). I3C dynamic address assignment procedure. -/
  | entdaa (addr : Nat)
  /-- SET_ENDPOINT_ID (R597). MCTP control command setting the endpoint ID. -/
  | setEndpointId (eid : Nat)
  /-- GET_ENDPOINT_ID (R597). MCTP control command returning the endpoint ID. -/
  | getEndpointId
  /-- GET_VERSION_SUPPORT (R597). MCTP control command returning version support. -/
  | getVersionSupport (type : Nat)
  /-- GET_MESSAGE_TYPE_SUPPORT (R597). MCTP control command returning supported message types. -/
  | getMessageTypeSupport
  /-- GET_SENSOR_READING (R599). PLDM read of a numeric sensor. -/
  | getSensorReading (sensor standby : Nat)
  /-- SET_NUMERIC_EFFECTER_VALUE (R600). PLDM write of the sideband cap. -/
  | setNumericEffecterValue (effecter value : Nat)
  /-- GET_NUMERIC_EFFECTER_VALUE (R600). PLDM read of the sideband cap. -/
  | getNumericEffecterValue (effecter : Nat)
  /-- EVENT_LOG_READ (R605). Vendor-defined MCTP message returning four event-log entries. -/
  | eventLogRead (seq : Nat)
  /-- EVENT_LOG_WRITE (R604). The management block writes an event-log entry to flash, erasing ahead. -/
  | eventLogWrite (fails : Bool)
  /-- FLASH_REFRESH_SCAN (R606). Every 86,400 s every mapped flash sector is read and weak sectors refreshed. -/
  | flashRefreshScan (weak : List Nat)
  /-- EXTEST (R609). TAP instruction EXTEST, effective only while SYS_RST_N is low. -/
  | tapExtest
  /-- SAMPLE_PRELOAD (R609). TAP instruction SAMPLE/PRELOAD. -/
  | samplePreload
  /-- IDCODE (R608). TAP instruction selecting IDCODE. -/
  | tapIdcode
  /-- CLAMP (R609). TAP instruction CLAMP, effective only in reset. -/
  | tapClamp
  /-- HIGHZ (R609). TAP instruction HIGHZ, effective only in reset. -/
  | tapHighz
  /-- EXTEST_PULSE (R609). IEEE 1149.6 EXTEST_PULSE, effective only in reset. -/
  | extestPulse
  /-- EXTEST_TRAIN (R609). IEEE 1149.6 EXTEST_TRAIN, effective only in reset. -/
  | extestTrain
  /-- BYPASS (R608). TAP instruction BYPASS, also selected by reserved codes. -/
  | tapBypass (code : Nat)
  /-- UNCORRECTABLE_FRAME (R448). A received frame that FEC cannot correct, that fails its CRC or that carries a reserved TYPE is discarded, counted, and answered with a NAK unless one is already outstanding. -/
  | uncorrectableFrame (port : Nat)
  /-- STOP_HEADLAND_END (R42). At the end of the stop headland the furrow state moves from STOPPING to STOPPED, STOP_PENDING clears and FURROW_STOP writes its final completion. -/
  | stopHeadlandEnd
  /-- STACK_RETRAIN_DONE (R411). After 60 ms of stack lane retraining the controller reopens the stack to accesses, updates spares and marks, and completes TRAFFIC_GEN RETRAIN with its results. -/
  | stackRetrainDone (stack spares : Nat) (failed : List Nat)
  /-- ENGINE_BIST_DONE (R587). The 2 ms built-in self-test of a returned physical engine ends, giving FAIL_DEVICE on failure or scheduling the map change at the next turnaround on a pass. -/
  | engineBistDone (tile : Nat) (ok : Bool)
  /-- GRANARY_FLUSH_DONE (R386). The Granary finishes writing back and invalidating every line, so a size change takes effect and its commit completes, or RESET_PARTITION holds the partition. -/
  | granaryFlushDone (tile : Nat)
  /-- COLL_SLOT_SEND_TIME (R454). At a COLL_SLOT's OFFSET_NS, each port whose lowest sending tile has already issued its COLL sends the START frame and its ready streams. -/
  | collSlotSendTime (slot : Nat)
  /-- RDCURR_COMPLETION (R490). The host answers a RdCurr fetch with packet or payload data, which the lead device accepts and checks in ring order, or with an error or poison that counts in FETCH_ERRORS. -/
  | rdcurrCompletion (ring : Nat) (data : Option Bytes) (img : Option ModelImage)
  /-- RAILS_REMOVED (R524). Removal of every rail except VSB powers the device down and releases THERM_TRIP_N and FAULT_N after a thermal trip. -/
  | railsRemoved
  /-- UPSTREAM_LINK_UP (R502). The upstream CXL link trains, setting LINK_UP, WIDTH and SPEED, so that D2H traffic and host requests can flow again. -/
  | upstreamLinkUp (width speed : Nat)
  deriving DecidableEq, Repr

end Sys2Proof
end

