-- ==== Sys2Proof/Decode.lean ====
section
/-!
DEFINITION. The command a word spells: the rows of spec/opcode_table.json give no bits, so no word spells one.
-/

namespace Sys2Proof

/-- The command that the `nbits` low bits of `w` spell: none of the table's rows gives bits. -/
def decodeTableWord (_nbits _w : Nat) : Option Instr := none

end Sys2Proof
end

