-- ==== Sys2Proof/Machine/Bits.lean ====
section
/-!
DEFINITION. Bit fields, two's complement and byte order (R8, R9, spec/00_scope.md): the field accessors every layout of
the spec is read and written through.
-/

namespace Sys2Proof.Machine

/-- Bits `[lo + w - 1 : lo]` of a number (R9). -/
def bits (v lo w : Nat) : Nat := (v >>> lo) % 2 ^ w

/-- Bit `i`. -/
def bit (v i : Nat) : Bool := (v >>> i) % 2 == 1

/-- 1 for true. -/
def b2n (b : Bool) : Nat := if b then 1 else 0

/-- A number with bits `[lo + w - 1 : lo]` replaced. -/
def setBits (v lo w x : Nat) : Nat :=
  v - (bits v lo w) <<< lo + (x % 2 ^ w) <<< lo

/-- A number with bit `i` replaced. -/
def setBit (v i : Nat) (b : Bool) : Nat := setBits v i 1 (b2n b)

/-- The two's complement reading of a `w`-bit number. -/
def signed (w v : Nat) : Int :=
  if v % 2 ^ w < 2 ^ (w - 1) then ((v % 2 ^ w : Nat) : Int) else ((v % 2 ^ w : Nat) : Int) - ((2 ^ w : Nat) : Int)

/-- The `w`-bit two's complement form of an integer, modulo 2^w. -/
def unsign (w : Nat) (i : Int) : Nat := (i % ((2 ^ w : Nat) : Int)).toNat

/-- An integer held between the limits of `w`-bit two's complement. -/
def clampS (w : Nat) (i : Int) : Int :=
  max (-((2 ^ (w - 1) : Nat) : Int)) (min (((2 ^ (w - 1) : Nat) : Int) - 1) i)

/-- The number of bits of the low `w` that are 1. -/
def popcount : Nat → Nat → Nat
  | 0, _ => 0
  | w + 1, v => v % 2 + popcount w (v / 2)

/-- The indices of the 1 bits below `w`, ascending. -/
def bitList (w v : Nat) : List Nat := (List.range w).filter fun i => bit v i

/-- The number with exactly the listed bits at 1. -/
def bitSet (l : List Nat) : Nat := l.foldl (fun v i => v ||| 2 ^ i) 0

/-- `n` bytes of a number, least significant first (R8). -/
def leBytes : Nat → Nat → Bytes
  | 0, _ => []
  | n + 1, v => BitVec.ofNat 8 v :: leBytes n (v / 256)

/-- The number that bytes spell, least significant first (R8). -/
def ofLe : Bytes → Nat
  | [] => 0
  | b :: rest => b.toNat + 256 * ofLe rest

/-- The `n` bytes from offset `off` as a number; bytes beyond the end read 0. -/
def rd (bs : Bytes) (off n : Nat) : Nat := ofLe ((bs.drop off).take n)

/-- The `n` bytes from offset `off`. -/
def slice (bs : Bytes) (off n : Nat) : Bytes := (bs.drop off).take n

/-- Bytes cut or filled with zeros to exactly `n`. -/
def fit (n : Nat) (bs : Bytes) : Bytes := bs.take n ++ List.replicate (n - bs.length) 0

/-- Whether every byte is 0. -/
def allZero (bs : Bytes) : Bool := bs.all fun b => b == 0

/-- The bytes cut into runs of `n` (`n` above 0), the last one possibly shorter. -/
def chunks (n : Nat) : Nat → Bytes → List Bytes
  | 0, _ => []
  | fuel + 1, bs => if bs.isEmpty then [] else bs.take n :: chunks n fuel (bs.drop n)

/-- The quotient rounded up. -/
def ceilDiv (a b : Nat) : Nat := (a + b - 1) / b

/-- The list with position `i` replaced. -/
def setAt {α : Type} (l : List α) (i : Nat) (x : α) : List α := l.set i x

end Sys2Proof.Machine
end

