-- ==== Sys2Proof/Machine/Codes.lean ====
section
/-!
DEFINITION. The codes and cryptographic functions the spec names: CRC-32C (R295), CRC-32 (R446), the Reed-Solomon codes of stacks and
frames (R407, R446), SHA-384 (FIPS 180-4, for
R157 and R164) and AES-128 (FIPS 197, for R279).
-/

namespace Sys2Proof.Machine

/-! ### Cyclic redundancy checks -/

/-- One bit of a reflected CRC of 32 bits. -/
def crcBit (poly c : Nat) : Nat := if c % 2 == 1 then (c / 2) ^^^ poly else c / 2

/-- `n` bits of a reflected CRC. -/
def crcBits (poly : Nat) : Nat → Nat → Nat
  | 0, c => c
  | n + 1, c => crcBits poly n (crcBit poly c)

/-- A reflected CRC over bytes, started at all ones and inverted at the end; `poly` is the reflected polynomial. -/
def crcReflected (poly : Nat) (bs : Bytes) : Nat :=
  (bs.foldl (fun c b => crcBits poly 8 (c ^^^ b.toNat)) 0xFFFFFFFF) ^^^ 0xFFFFFFFF

/-- CRC-32C of RFC 3720: polynomial 0x1EDC6F41, reflected (R295). -/
def crc32c (bs : Bytes) : Nat := crcReflected 0x82F63B78 bs

/-- CRC-32 of IEEE 802.3: polynomial 0x04C11DB7, reflected (R446). -/
def crc32 (bs : Bytes) : Nat := crcReflected 0xEDB88320 bs

/-! ### Reed-Solomon codes over GF(2^8) -/

/-- Multiplication by α modulo 0x11D (R407). -/
def rsDouble (a : Nat) : Nat := if 128 ≤ a % 256 then (2 * (a % 256)) ^^^ 0x11D else 2 * (a % 256)

/-- The product of two elements, over `n` bits of the second. -/
def rsMul (a : Nat) : Nat → Nat → Nat
  | 0, _ => 0
  | n + 1, b => (if b % 2 == 1 then a % 256 else 0) ^^^ rsMul (rsDouble a) n (b / 2)

/-- α to a power. -/
def rsPow : Nat → Nat
  | 0 => 1
  | n + 1 => rsDouble (rsPow n)

/-- The generator (x - α^0) … (x - α^(n-1)), highest coefficient first (R407). -/
def rsGenerator : Nat → List Nat
  | 0 => [1]
  | n + 1 =>
    let g := rsGenerator n
    List.zipWith (· ^^^ ·) (g ++ [0]) (0 :: g.map fun c => rsMul c 8 (rsPow n))

/-- The 8 check symbols of a systematic code: the remainder of the data polynomial × x^8 by the generator, check symbol 0 the highest
coefficient (R407, R446). -/
def rsParity (data : Bytes) : Bytes :=
  let g := (rsGenerator 8).drop 1
  (data.foldl (fun (r : List Nat) b =>
    let f := r.headD 0 ^^^ b.toNat
    List.zipWith (fun x c => x ^^^ rsMul c 8 f) (r.drop 1 ++ [0]) g) (List.replicate 8 0)).map (BitVec.ofNat 8)

/-! ### SHA-384 -/

/-- The first 80 primes, whose roots give the constants of FIPS 180-4. -/
def shaPrimes : List Nat :=
  [2, 3, 5, 7, 11, 13, 17, 19, 23, 29, 31, 37, 41, 43, 47, 53, 59, 61, 67, 71, 73, 79, 83, 89, 97, 101, 103, 107, 109, 113,
    127, 131, 137, 139, 149, 151, 157, 163, 167, 173] ++
  [179, 181, 191, 193, 197, 199, 211, 223, 227, 229, 233, 239, 241, 251, 257, 263, 269, 271, 277, 281, 283, 293, 307, 311,
    313, 317, 331, 337, 347, 349, 353, 359, 367, 373, 379, 383, 389, 397, 401, 409]

/-- The integer cube root, one bit at a time from bit `n` down. -/
def cubeRoot (x : Nat) : Nat → Nat → Nat
  | 0, r => r
  | n + 1, r => cubeRoot x n (if (r + 2 ^ n) ^ 3 ≤ x then r + 2 ^ n else r)

/-- Round constants: the first 64 bits of the fractions of the cube roots of the primes. -/
def shaK : List (BitVec 64) := shaPrimes.map fun p => BitVec.ofNat 64 (cubeRoot (p * 2 ^ 192) 72 0)

/-- Initial value: the first 64 bits of the fractions of the square roots of the ninth to sixteenth primes. -/
def shaInit : List (BitVec 64) := ((shaPrimes.drop 8).take 8).map fun p => BitVec.ofNat 64 (Nat.sqrt (p * 2 ^ 128))

/-- The big-endian number of up to eight bytes. -/
def beWord (bs : Bytes) : BitVec 64 := bs.foldl (fun w b => (w <<< 8) ||| b.setWidth 64) 0

def shaSmall (r t u : Nat) (x : BitVec 64) : BitVec 64 := x.rotateRight r ^^^ x.rotateRight t ^^^ (x >>> u)
def shaBig (r t u : Nat) (x : BitVec 64) : BitVec 64 := x.rotateRight r ^^^ x.rotateRight t ^^^ x.rotateRight u

/-- Extend a message schedule, held newest first, by `n` words. -/
def shaSchedule : Nat → List (BitVec 64) → List (BitVec 64)
  | 0, w => w
  | n + 1, w =>
    shaSchedule n
      ((shaSmall 19 61 6 (w.getD 1 0) + w.getD 6 0 + shaSmall 1 8 7 (w.getD 14 0) + w.getD 15 0) :: w)

/-- One round of the compression function. -/
def shaRound (v : List (BitVec 64)) (kw : BitVec 64) : List (BitVec 64) :=
  match v with
  | [a, b, c, d, e, f, g, h] =>
    let t1 := h + shaBig 14 18 41 e + ((e &&& f) ^^^ (~~~e &&& g)) + kw
    let t2 := shaBig 28 34 39 a + ((a &&& b) ^^^ (a &&& c) ^^^ (b &&& c))
    [t1 + t2, a, b, c, d + t1, e, f, g]
  | other => other

/-- One block of 128 bytes. -/
def shaBlock (h : List (BitVec 64)) (block : Bytes) : List (BitVec 64) :=
  let w := (shaSchedule 64 ((chunks 8 16 block).map beWord).reverse).reverse
  let v := (List.zipWith (· + ·) shaK w).foldl shaRound h
  List.zipWith (· + ·) h v

/-- Bytes of a 64-bit word, most significant first. -/
def beBytes (w : BitVec 64) : Bytes := (leBytes 8 w.toNat).reverse

/-- SHA-384 of a byte string: 48 bytes. -/
def sha384 (bs : Bytes) : Bytes :=
  let pad := (239 - bs.length % 128) % 128
  let msg := bs ++ [0x80] ++ List.replicate pad 0 ++ (leBytes 16 (8 * bs.length)).reverse
  let h := (chunks 128 (msg.length / 128) msg).foldl shaBlock shaInit
  (h.flatMap beBytes).take 48

/-- HMAC-SHA-384 under a key of at most 128 bytes. -/
def hmacSha384 (key msg : Bytes) : Bytes :=
  let k := fit 128 key
  sha384 (k.map (· ^^^ 0x5C) ++ sha384 (k.map (· ^^^ 0x36) ++ msg))

/-- 256 bits of the KDF in counter mode with HMAC-SHA-384 (R547); a counter and a length of 32 bits, most significant byte first, and
a zero byte after the label (PRESUMED, log entry 31). -/
def kdf256 (key label context : Bytes) : Bytes :=
  (hmacSha384 key ((leBytes 4 1).reverse ++ label ++ [0] ++ context ++ (leBytes 4 256).reverse)).take 32

/-! ### AES-128 -/

/-- Multiplication by x in GF(2^8). -/
def gfTwice (a : Byte) : Byte := (a <<< 1) ^^^ (if a.msb then 0x1B else 0)

/-- Product in GF(2^8), over the low `n` bits of `b`. -/
def gfMul (a b : Byte) : Nat → Byte
  | 0 => 0
  | n + 1 => (if b.getLsbD 0 then a else 0) ^^^ gfMul (gfTwice a) (b >>> 1) n

/-- a^(2^n - 1) squared: with `n` = 7, a^254, the inverse in GF(2^8). -/
def gfInverse (a : Byte) : Byte :=
  let sq := fun x => gfMul x x 8
  let rec go : Nat → Byte → Byte
    | 0, r => r
    | n + 1, r => go n (gfMul (sq r) a 8)
  sq (go 6 a)

/-- The AES S-box. -/
def aesSub (a : Byte) : Byte :=
  let b := gfInverse a
  b ^^^ b.rotateLeft 1 ^^^ b.rotateLeft 2 ^^^ b.rotateLeft 3 ^^^ b.rotateLeft 4 ^^^ 0x63

/-- The next round key. -/
def aesNextKey (k : Bytes) (rcon : Byte) : Bytes :=
  let g := fun i => k.getD i 0
  let t := [aesSub (g 13) ^^^ rcon, aesSub (g 14), aesSub (g 15), aesSub (g 12)]
  let w0 := List.zipWith (· ^^^ ·) (slice k 0 4) t
  let w1 := List.zipWith (· ^^^ ·) (slice k 4 4) w0
  let w2 := List.zipWith (· ^^^ ·) (slice k 8 4) w1
  let w3 := List.zipWith (· ^^^ ·) (slice k 12 4) w2
  w0 ++ w1 ++ w2 ++ w3

/-- Rows of the state moved, byte i of column c being byte 4c + i. -/
def aesShift (s : Bytes) : Bytes := (List.range 16).map fun i => s.getD ((i + 4 * (i % 4)) % 16) 0

/-- One column mixed. -/
def aesMixColumn (c : Bytes) : Bytes :=
  (List.range 4).map fun i =>
    let g := fun k => c.getD ((i + k) % 4) 0
    gfTwice (g 0) ^^^ (gfTwice (g 1) ^^^ g 1) ^^^ g 2 ^^^ g 3

/-- `n` rounds, the last without the mixing of columns. -/
def aesRounds : Nat → Bytes → Bytes → Byte → Bytes
  | 0, s, _, _ => s
  | n + 1, s, k, rcon =>
    let k' := aesNextKey k rcon
    let t := aesShift (s.map aesSub)
    let t := if n == 0 then t else (chunks 4 4 t).flatMap aesMixColumn
    aesRounds n (List.zipWith (· ^^^ ·) t k') k' (gfTwice rcon)

/-- AES-128 encryption of one block of 16 bytes. -/
def aes128 (key block : Bytes) : Bytes := aesRounds 10 (List.zipWith (· ^^^ ·) block key) key 1

end Sys2Proof.Machine
end

