-- ==== Sys2Proof/Config.lean ====
section
/-!
DEFINITION. What an implementation fixes and what the spec leaves open.  The opaque constants have no body: nothing can
be proved of their values, and a statement about a machine that uses one holds for every value.
-/

namespace Sys2Proof.Config

/-- The free values: what the spec leaves undefined, unstated or to the implementation, drawn in turn.  The argument is
the state's counter `freeCtr`. -/
opaque freeNat : Nat → Nat

/-- The device's serial, of 64 bits: set in manufacture (R538, R549). -/
opaque serialWord : BitVec 64

def serial : Nat := serialWord.toNat

/-- ROM_ID (R549): SHA-384 of the two digests of the mask ROM, 48 bytes. -/
opaque romIdWord : BitVec 384

def romId : Nat := romIdWord.toNat

/-- The floors built into the mask ROM, by object type (R540): security versions of 32 bits (R538). -/
opaque romFloorWord : Nat → BitVec 32

def romFloor (type : Nat) : Nat := (romFloorWord type).toNat

/-- The bytes of a control message whose body the spec gives no layout (R467). -/
opaque ctrlBytes : CtrlBody → Bytes

/-- The tag of AES-256-GCM (NIST SP 800-38D) over a plaintext, under a key of 32 bytes, a nonce of 12 and additional data (R469). -/
opaque gcmTag (key nonce aad data : Bytes) : BitVec 128

/-- The key stream of AES-256-GCM under a key of 32 bytes and a nonce of 12: its bytes, from the first of the plaintext (R554). -/
opaque gcmStream (key nonce : Bytes) : Nat → Byte

end Sys2Proof.Config
end

