-- ==== Sys2Proof/Machine/Registers.lean ====
section
/-!
DEFINITION. Every register field the spec gives the device, one definition a field, from the register tables of
spec/00_scope.md to spec/18_management_and_test.md: the register's offset in the register window (the block bases are
those of R479, spec/14_cxl_ports.md), the field's bits, its access code (R10), its reset value, and the encodings that
are not reserved (R12).  A replicated register takes its index, or its two indices, as arguments.
-/

namespace Sys2Proof.Machine

/-- Access codes (R10, R13, spec/00_scope.md).  `staged` is RW without "live": writes reach it through CFG_STAGE and a
commit; `live` is RW marked live, written directly. -/
inductive Access where
  | ro | staged | live | wo | w1c
  deriving DecidableEq, Repr

/-- One register field. -/
structure Field where
  /-- offset of its 64-bit register in the register window -/
  addr : Nat
  /-- least significant bit -/
  lo : Nat
  width : Nat
  reset : Nat
  access : Access
  /-- the encodings that are not reserved, `none`: all of them -/
  legal : Option (Nat × Nat) := none
  deriving DecidableEq, Repr

/-- GLB.PART.FAMILY (R29). -/
def R.GLB_PART.FAMILY : Field := ⟨0x0, 0, 16, 0x5a44, .ro, none⟩
/-- GLB.PART.PART (R29). -/
def R.GLB_PART.PART : Field := ⟨0x0, 16, 16, 0x640, .ro, none⟩
/-- GLB.PART.MEMORY_GIB (R29). -/
def R.GLB_PART.MEMORY_GIB : Field := ⟨0x0, 32, 16, 0x300, .ro, none⟩
/-- GLB.PART.STEP_MINOR (R29). -/
def R.GLB_PART.STEP_MINOR : Field := ⟨0x0, 48, 4, 0x0, .ro, none⟩
/-- GLB.PART.STEP_MAJOR (R29). -/
def R.GLB_PART.STEP_MAJOR : Field := ⟨0x0, 52, 4, 0x0, .ro, none⟩
/-- GLB.READY.CXL_CFG (R30). -/
def R.GLB_READY.CXL_CFG : Field := ⟨0x8, 0, 1, 0x0, .ro, none⟩
/-- GLB.READY.BOOT_OK (R30). -/
def R.GLB_READY.BOOT_OK : Field := ⟨0x8, 1, 1, 0x0, .ro, none⟩
/-- GLB.READY.MEM_OK (R30). -/
def R.GLB_READY.MEM_OK : Field := ⟨0x8, 2, 1, 0x0, .ro, none⟩
/-- GLB.READY.LINKS_OK (R30). -/
def R.GLB_READY.LINKS_OK : Field := ⟨0x8, 3, 1, 0x0, .ro, none⟩
/-- GLB.READY.MERIDIAN_OK (R30). -/
def R.GLB_READY.MERIDIAN_OK : Field := ⟨0x8, 4, 1, 0x0, .ro, none⟩
/-- GLB.READY.READY (R30). -/
def R.GLB_READY.READY : Field := ⟨0x8, 5, 1, 0x0, .ro, none⟩
/-- GLB.READY.PART_OK (R30). -/
def R.GLB_READY.PART_OK : Field := ⟨0x8, 16, 16, 0x0, .ro, none⟩
/-- GLB.DEVPOS.POSITION (R32). -/
def R.GLB_DEVPOS.POSITION : Field := ⟨0x10, 0, 4, 0x0, .ro, none⟩
/-- GLB.DEVPOS.GROUP (R32). -/
def R.GLB_DEVPOS.GROUP : Field := ⟨0x10, 4, 2, 0x0, .ro, none⟩
/-- GLB.DEVPOS.ASSIGNED (R32). -/
def R.GLB_DEVPOS.ASSIGNED : Field := ⟨0x10, 6, 1, 0x0, .ro, none⟩
/-- GLB.DEVPOS.LEAD (R32). -/
def R.GLB_DEVPOS.LEAD : Field := ⟨0x10, 7, 1, 0x0, .ro, none⟩
/-- GLB.DEVPOS.SPARE (R32). -/
def R.GLB_DEVPOS.SPARE : Field := ⟨0x10, 8, 1, 0x0, .ro, none⟩
/-- MRD.TIME.TIME (R65). -/
def R.MRD_TIME.TIME : Field := ⟨0x1000, 0, 64, 0x0, .ro, none⟩
/-- MRD.STATUS.STATE (R66). -/
def R.MRD_STATUS.STATE : Field := ⟨0x1008, 0, 2, 0x0, .ro, none⟩
/-- MRD.STATUS.CLK_PRESENT (R66). -/
def R.MRD_STATUS.CLK_PRESENT : Field := ⟨0x1008, 2, 1, 0x0, .ro, none⟩
/-- MRD.STATUS.MARK_PRESENT (R66). -/
def R.MRD_STATUS.MARK_PRESENT : Field := ⟨0x1008, 3, 1, 0x0, .ro, none⟩
/-- MRD.STATUS.TOD_VALID (R66). -/
def R.MRD_STATUS.TOD_VALID : Field := ⟨0x1008, 4, 1, 0x0, .ro, none⟩
/-- MRD.STATUS.MISSED_MARKS (R66). -/
def R.MRD_STATUS.MISSED_MARKS : Field := ⟨0x1008, 8, 8, 0x0, .ro, none⟩
/-- MRD.STATUS.LAST_PHASE_ERR (R66). -/
def R.MRD_STATUS.LAST_PHASE_ERR : Field := ⟨0x1008, 16, 16, 0x0, .ro, none⟩
/-- MRD.LAST_MARK.LAST_MARK (R67). -/
def R.MRD_LAST_MARK.LAST_MARK : Field := ⟨0x1010, 0, 64, 0x0, .ro, none⟩
/-- MRD.CTRL.HOLDOVER_MARKS (R68). -/
def R.MRD_CTRL.HOLDOVER_MARKS : Field := ⟨0x1018, 0, 7, 0x8, .staged, some (1, 64)⟩
/-- MRD.CTRL.PHASE_TOL_NS (R68). -/
def R.MRD_CTRL.PHASE_TOL_NS : Field := ⟨0x1018, 8, 8, 0x32, .staged, some (10, 200)⟩
/-- MRD.COUNTS.LOCK_LOSSES (R69). -/
def R.MRD_COUNTS.LOCK_LOSSES : Field := ⟨0x1020, 0, 16, 0x0, .ro, none⟩
/-- MRD.COUNTS.PHASE_EXCURSIONS (R69). -/
def R.MRD_COUNTS.PHASE_EXCURSIONS : Field := ⟨0x1020, 16, 16, 0x0, .ro, none⟩
/-- MRD.COUNTS.HOLDOVER_ENTRIES (R69). -/
def R.MRD_COUNTS.HOLDOVER_ENTRIES : Field := ⟨0x1020, 32, 16, 0x0, .ro, none⟩
/-- MRD.COUNTS.TOD_MISMATCHES (R69). -/
def R.MRD_COUNTS.TOD_MISMATCHES : Field := ⟨0x1020, 48, 16, 0x0, .ro, none⟩
/-- FRW.STATE.STATE (R70). -/
def R.FRW_STATE.STATE : Field := ⟨0x2000, 0, 3, 0x0, .ro, none⟩
/-- FRW.STATE.LATE_SELF (R70). -/
def R.FRW_STATE.LATE_SELF : Field := ⟨0x2000, 3, 1, 0x0, .ro, none⟩
/-- FRW.STATE.LATE_GROUP (R70). -/
def R.FRW_STATE.LATE_GROUP : Field := ⟨0x2000, 4, 1, 0x0, .ro, none⟩
/-- FRW.STATE.HEADLAND (R70). -/
def R.FRW_STATE.HEADLAND : Field := ⟨0x2000, 5, 1, 0x0, .ro, none⟩
/-- FRW.STATE.STOP_PENDING (R70). -/
def R.FRW_STATE.STOP_PENDING : Field := ⟨0x2000, 6, 1, 0x0, .ro, none⟩
/-- FRW.FURROW_NUM.FURROW_NUM (R71). -/
def R.FRW_FURROW_NUM.FURROW_NUM : Field := ⟨0x2008, 0, 64, 0x0, .ro, none⟩
/-- FRW.START_TIME.START_TIME (R71). -/
def R.FRW_START_TIME.START_TIME : Field := ⟨0x2010, 0, 64, 0x0, .ro, none⟩
/-- FRW.PLAN.ACTIVE_ID (R72). -/
def R.FRW_PLAN.ACTIVE_ID : Field := ⟨0x2018, 0, 32, 0x0, .ro, none⟩
/-- FRW.PLAN.STAGED_ID (R72). -/
def R.FRW_PLAN.STAGED_ID : Field := ⟨0x2018, 32, 32, 0x0, .ro, none⟩
/-- FRW.TIMING.PERIOD_NS (R72). -/
def R.FRW_TIMING.PERIOD_NS : Field := ⟨0x2020, 0, 24, 0x0, .ro, none⟩
/-- FRW.TIMING.HEADLAND_NS (R72). -/
def R.FRW_TIMING.HEADLAND_NS : Field := ⟨0x2020, 24, 24, 0x0, .ro, none⟩
/-- FRW.LATE.LATE_OFFSET_NS (R72). -/
def R.FRW_LATE.LATE_OFFSET_NS : Field := ⟨0x2028, 0, 24, 0x0, .ro, none⟩
/-- FRW.LATE.TEMPLATE (R72). -/
def R.FRW_LATE.TEMPLATE : Field := ⟨0x2028, 24, 3, 0x0, .ro, none⟩
/-- FRW.LATE.CYCLE_LEN (R72). -/
def R.FRW_LATE.CYCLE_LEN : Field := ⟨0x2028, 28, 4, 0x0, .ro, none⟩
/-- FRW.CTRL.FALLOW_LIMIT (R73). -/
def R.FRW_CTRL.FALLOW_LIMIT : Field := ⟨0x2030, 0, 4, 0x4, .staged, some (1, 15)⟩
/-- FRW.CTRL.MISSING_BEACON_LIMIT (R73). -/
def R.FRW_CTRL.MISSING_BEACON_LIMIT : Field := ⟨0x2030, 8, 8, 0x2, .staged, some (1, 255)⟩
/-- FRW.EVENTS0.FALLOW_COUNT (R74). -/
def R.FRW_EVENTS0.FALLOW_COUNT : Field := ⟨0x2038, 0, 32, 0x0, .ro, none⟩
/-- FRW.EVENTS0.LATE_SELF_COUNT (R74). -/
def R.FRW_EVENTS0.LATE_SELF_COUNT : Field := ⟨0x2038, 32, 32, 0x0, .ro, none⟩
/-- FRW.EVENTS1.ABANDONED_STEPS (R74). -/
def R.FRW_EVENTS1.ABANDONED_STEPS : Field := ⟨0x2040, 0, 32, 0x0, .ro, none⟩
/-- FRW.EVENTS1.HEADLAND_SHORT (R74). -/
def R.FRW_EVENTS1.HEADLAND_SHORT : Field := ⟨0x2040, 32, 32, 0x0, .ro, none⟩
/-- FRW.EVENTS2.DAWN_BOUND_BREAKS (R74). -/
def R.FRW_EVENTS2.DAWN_BOUND_BREAKS : Field := ⟨0x2048, 0, 32, 0x0, .ro, none⟩
/-- FRW.EVENTS2.MISSING_BEACONS (R74). -/
def R.FRW_EVENTS2.MISSING_BEACONS : Field := ⟨0x2048, 32, 16, 0x0, .ro, none⟩
/-- FRW.EVENTS2.LATE_SENDS (R74). -/
def R.FRW_EVENTS2.LATE_SENDS : Field := ⟨0x2048, 48, 16, 0x0, .ro, none⟩
/-- FRW.SLACK.LAST_SLACK_NS (R75). -/
def R.FRW_SLACK.LAST_SLACK_NS : Field := ⟨0x2050, 0, 24, 0x0, .ro, none⟩
/-- FRW.SLACK.MIN_SLACK_NS (R75). -/
def R.FRW_SLACK.MIN_SLACK_NS : Field := ⟨0x2050, 24, 24, 0xffffff, .ro, none⟩
/-- FRW.SLACK.TEMPLATE_RESYNCS (R75). -/
def R.FRW_SLACK.TEMPLATE_RESYNCS : Field := ⟨0x2050, 48, 16, 0x0, .ro, none⟩
/-- QUE.CTRL.MODE (R109). -/
def R.QUE_CTRL.MODE : Field := ⟨0x10000, 0, 2, 0x0, .staged, some (0, 1)⟩
/-- QUE.SEQ_COUNT.DAWN_ADMITTED (R110). -/
def R.QUE_SEQ_COUNT.DAWN_ADMITTED : Field := ⟨0x10008, 0, 16, 0x0, .ro, none⟩
/-- QUE.SEQ_COUNT.NOON_RUNNABLE (R110). -/
def R.QUE_SEQ_COUNT.NOON_RUNNABLE : Field := ⟨0x10008, 16, 16, 0x0, .ro, none⟩
/-- QUE.SEQ_COUNT.DUSK_RUNNABLE (R110). -/
def R.QUE_SEQ_COUNT.DUSK_RUNNABLE : Field := ⟨0x10008, 32, 16, 0x0, .ro, none⟩
/-- QUE.SEQ_COUNT.INGESTING (R110). -/
def R.QUE_SEQ_COUNT.INGESTING : Field := ⟨0x10008, 48, 16, 0x0, .ro, none⟩
/-- QUE.LANE_USE.DAWN (R111). -/
def R.QUE_LANE_USE.DAWN : Field := ⟨0x10010, 0, 11, 0x0, .ro, none⟩
/-- QUE.LANE_USE.NOON (R111). -/
def R.QUE_LANE_USE.NOON : Field := ⟨0x10010, 11, 11, 0x0, .ro, none⟩
/-- QUE.LANE_USE.DUSK (R111). -/
def R.QUE_LANE_USE.DUSK : Field := ⟨0x10010, 22, 11, 0x0, .ro, none⟩
/-- QUE.LANE_USE.GLEAN (R111). -/
def R.QUE_LANE_USE.GLEAN : Field := ⟨0x10010, 33, 11, 0x0, .ro, none⟩
/-- QUE.LANE_USE.EMPTY (R111). -/
def R.QUE_LANE_USE.EMPTY : Field := ⟨0x10010, 44, 11, 0x0, .ro, none⟩
/-- QUE.LANE_USE.DISCARDED (R111). -/
def R.QUE_LANE_USE.DISCARDED : Field := ⟨0x10010, 55, 1, 0x0, .ro, none⟩
/-- QUE.REJECTS.DEADLINE (R112). -/
def R.QUE_REJECTS.DEADLINE : Field := ⟨0x10018, 0, 16, 0x0, .ro, none⟩
/-- QUE.REJECTS.CLASS_FULL (R112). -/
def R.QUE_REJECTS.CLASS_FULL : Field := ⟨0x10018, 16, 16, 0x0, .ro, none⟩
/-- QUE.REJECTS.LATE_RETIRE (R112). -/
def R.QUE_REJECTS.LATE_RETIRE : Field := ⟨0x10018, 32, 16, 0x0, .ro, none⟩
/-- QUE.REJECTS.RING_FULL (R112). -/
def R.QUE_REJECTS.RING_FULL : Field := ⟨0x10018, 48, 16, 0x0, .ro, none⟩
/-- QUE.TENANT_SEL.TENANT (R113). -/
def R.QUE_TENANT_SEL.TENANT : Field := ⟨0x10020, 0, 10, 0x0, .live, none⟩
/-- QUE.TENANT_STATE.OPEN_SEQS (R113). -/
def R.QUE_TENANT_STATE.OPEN_SEQS : Field := ⟨0x10028, 0, 16, 0x0, .ro, none⟩
/-- QUE.TENANT_STATE.RUNNABLE (R113). -/
def R.QUE_TENANT_STATE.RUNNABLE : Field := ⟨0x10028, 16, 16, 0x0, .ro, none⟩
/-- QUE.TENANT_STATE.DEFICIT_OR_CREDIT (R113). -/
def R.QUE_TENANT_STATE.DEFICIT_OR_CREDIT : Field := ⟨0x10028, 32, 16, 0x0, .ro, none⟩
/-- QUE.TENANT_STATE.DAWN_BOUND (R113). -/
def R.QUE_TENANT_STATE.DAWN_BOUND : Field := ⟨0x10028, 48, 8, 0x0, .ro, none⟩
/-- QUE.TENANT_STATE.PRESENT (R113). -/
def R.QUE_TENANT_STATE.PRESENT : Field := ⟨0x10028, 56, 1, 0x0, .ro, none⟩
/-- QUE.SQ_BASE.BASE (R121). -/
def R.QUE_SQ_BASE.BASE (n : Nat) : Field := ⟨0x10100 + 0x20 * n, 12, 52, 0x0, .live, none⟩
/-- QUE.CQ_BASE.BASE (R121). -/
def R.QUE_CQ_BASE.BASE (n : Nat) : Field := ⟨0x10110 + 0x20 * n, 12, 52, 0x0, .live, none⟩
/-- QUE.TR_BASE.BASE (R121). -/
def R.QUE_TR_BASE.BASE (n : Nat) : Field := ⟨0x11000 + 0x10 * n, 12, 52, 0x0, .live, none⟩
/-- QUE.SQ_CTRL.ENABLE (R122). -/
def R.QUE_SQ_CTRL.ENABLE (n : Nat) : Field := ⟨0x10108 + 0x20 * n, 0, 1, 0x0, .live, none⟩
/-- QUE.SQ_CTRL.TENANT (R122). -/
def R.QUE_SQ_CTRL.TENANT (n : Nat) : Field := ⟨0x10108 + 0x20 * n, 2, 10, 0x0, .live, none⟩
/-- QUE.SQ_CTRL.SIZE_CODE (R122). -/
def R.QUE_SQ_CTRL.SIZE_CODE (n : Nat) : Field := ⟨0x10108 + 0x20 * n, 12, 4, 0x0, .live, some (0, 8)⟩
/-- QUE.SQ_CTRL.INDEX (R122). -/
def R.QUE_SQ_CTRL.INDEX (n : Nat) : Field := ⟨0x10108 + 0x20 * n, 16, 16, 0x0, .ro, none⟩
/-- QUE.SQ_CTRL.ADMIN (R122). -/
def R.QUE_SQ_CTRL.ADMIN (n : Nat) : Field := ⟨0x10108 + 0x20 * n, 42, 1, 0x0, .live, none⟩
/-- QUE.CQ_CTRL.ENABLE (R122). -/
def R.QUE_CQ_CTRL.ENABLE (n : Nat) : Field := ⟨0x10118 + 0x20 * n, 0, 1, 0x0, .live, none⟩
/-- QUE.CQ_CTRL.IRQ_EN (R122). -/
def R.QUE_CQ_CTRL.IRQ_EN (n : Nat) : Field := ⟨0x10118 + 0x20 * n, 1, 1, 0x0, .live, none⟩
/-- QUE.CQ_CTRL.SIZE_CODE (R122). -/
def R.QUE_CQ_CTRL.SIZE_CODE (n : Nat) : Field := ⟨0x10118 + 0x20 * n, 12, 4, 0x0, .live, some (0, 8)⟩
/-- QUE.CQ_CTRL.INDEX (R122). -/
def R.QUE_CQ_CTRL.INDEX (n : Nat) : Field := ⟨0x10118 + 0x20 * n, 16, 16, 0x0, .ro, none⟩
/-- QUE.CQ_CTRL.IRQ_VECTOR (R122). -/
def R.QUE_CQ_CTRL.IRQ_VECTOR (n : Nat) : Field := ⟨0x10118 + 0x20 * n, 32, 10, 0x0, .live, none⟩
/-- QUE.TR_CTRL.ENABLE (R122). -/
def R.QUE_TR_CTRL.ENABLE (n : Nat) : Field := ⟨0x11008 + 0x10 * n, 0, 1, 0x0, .live, none⟩
/-- QUE.TR_CTRL.IRQ_EN (R122). -/
def R.QUE_TR_CTRL.IRQ_EN (n : Nat) : Field := ⟨0x11008 + 0x10 * n, 1, 1, 0x0, .live, none⟩
/-- QUE.TR_CTRL.TENANT (R122). -/
def R.QUE_TR_CTRL.TENANT (n : Nat) : Field := ⟨0x11008 + 0x10 * n, 2, 10, 0x0, .live, none⟩
/-- QUE.TR_CTRL.SIZE_CODE (R122). -/
def R.QUE_TR_CTRL.SIZE_CODE (n : Nat) : Field := ⟨0x11008 + 0x10 * n, 12, 4, 0x0, .live, some (0, 10)⟩
/-- QUE.TR_CTRL.INDEX (R122). -/
def R.QUE_TR_CTRL.INDEX (n : Nat) : Field := ⟨0x11008 + 0x10 * n, 16, 16, 0x0, .ro, none⟩
/-- QUE.TR_CTRL.IRQ_VECTOR (R122). -/
def R.QUE_TR_CTRL.IRQ_VECTOR (n : Nat) : Field := ⟨0x11008 + 0x10 * n, 32, 10, 0x0, .live, none⟩
/-- QUE.RING_ERRORS.DOORBELL_RANGE (R123). -/
def R.QUE_RING_ERRORS.DOORBELL_RANGE : Field := ⟨0x10030, 0, 16, 0x0, .ro, none⟩
/-- QUE.RING_ERRORS.CQ_FULL_STALLS (R123). -/
def R.QUE_RING_ERRORS.CQ_FULL_STALLS : Field := ⟨0x10030, 16, 16, 0x0, .ro, none⟩
/-- QUE.RING_ERRORS.FETCH_ERRORS (R123). -/
def R.QUE_RING_ERRORS.FETCH_ERRORS : Field := ⟨0x10030, 32, 16, 0x0, .ro, none⟩
/-- CFG.CTRL.ENFORCE (R160). -/
def R.CFG_CTRL.ENFORCE : Field := ⟨0x3000, 0, 1, 0x0, .staged, none⟩
/-- CFG.STATUS.ACTIVE_EPOCH (R161). -/
def R.CFG_STATUS.ACTIVE_EPOCH : Field := ⟨0x3008, 0, 32, 0x0, .ro, none⟩
/-- CFG.STATUS.STAGED_DIRTY (R161). -/
def R.CFG_STATUS.STAGED_DIRTY : Field := ⟨0x3008, 32, 1, 0x0, .ro, none⟩
/-- CFG.STATUS.LOCKED (R161). -/
def R.CFG_STATUS.LOCKED : Field := ⟨0x3008, 33, 1, 0x0, .ro, none⟩
/-- CFG.STATUS.DIVERGENT (R161). -/
def R.CFG_STATUS.DIVERGENT : Field := ⟨0x3008, 34, 1, 0x0, .ro, none⟩
/-- CFG.DIGEST.ACTIVE_DIGEST (R161). -/
def R.CFG_DIGEST.ACTIVE_DIGEST : Field := ⟨0x3010, 0, 64, 0x0, .ro, none⟩
/-- CFG.PENDING.TARGET_EPOCH (R162). -/
def R.CFG_PENDING.TARGET_EPOCH : Field := ⟨0x3018, 0, 32, 0x0, .ro, none⟩
/-- CFG.PENDING_FURROW.TARGET_FURROW (R162). -/
def R.CFG_PENDING_FURROW.TARGET_FURROW : Field := ⟨0x3020, 0, 64, 0x0, .ro, none⟩
/-- CFG.COUNTS.CONFLICTS (R163). -/
def R.CFG_COUNTS.CONFLICTS : Field := ⟨0x3028, 0, 16, 0x0, .ro, none⟩
/-- CFG.COUNTS.ABORTS (R163). -/
def R.CFG_COUNTS.ABORTS : Field := ⟨0x3028, 16, 16, 0x0, .ro, none⟩
/-- CFG.COUNTS.DIVERGENCES (R163). -/
def R.CFG_COUNTS.DIVERGENCES : Field := ⟨0x3028, 32, 16, 0x0, .ro, none⟩
/-- TILE[n].SEQ_CTRL.MODE (R197). -/
def R.TILE_SEQ_CTRL.MODE (n : Nat) : Field := ⟨0x1000000 + 0x100000 * n, 0, 2, 0x1, .live, none⟩
/-- TILE[n].SEQ_CTRL.GO (R197). -/
def R.TILE_SEQ_CTRL.GO (n : Nat) : Field := ⟨0x1000000 + 0x100000 * n, 2, 1, 0x0, .wo, none⟩
/-- TILE[n].SEQ_STATUS.STATE (R198). -/
def R.TILE_SEQ_STATUS.STATE (n : Nat) : Field := ⟨0x1000008 + 0x100000 * n, 0, 3, 0x0, .ro, none⟩
/-- TILE[n].SEQ_STATUS.FAILED (R198). -/
def R.TILE_SEQ_STATUS.FAILED (n : Nat) : Field := ⟨0x1000008 + 0x100000 * n, 3, 1, 0x0, .ro, none⟩
/-- TILE[n].SEQ_STATUS.ABANDONED (R198). -/
def R.TILE_SEQ_STATUS.ABANDONED (n : Nat) : Field := ⟨0x1000008 + 0x100000 * n, 4, 1, 0x0, .ro, none⟩
/-- TILE[n].SEQ_STATUS.LIST_INDEX (R198). -/
def R.TILE_SEQ_STATUS.LIST_INDEX (n : Nat) : Field := ⟨0x1000008 + 0x100000 * n, 8, 16, 0x0, .ro, none⟩
/-- TILE[n].SEQ_STATUS.FAIL_INDEX (R198). -/
def R.TILE_SEQ_STATUS.FAIL_INDEX (n : Nat) : Field := ⟨0x1000008 + 0x100000 * n, 24, 16, 0x0, .ro, none⟩
/-- TILE[n].SEQ_STATUS.FAIL_STATUS (R198). -/
def R.TILE_SEQ_STATUS.FAIL_STATUS (n : Nat) : Field := ⟨0x1000008 + 0x100000 * n, 40, 8, 0x0, .ro, none⟩
/-- TILE[n].ENGINE_MAP.PHYS (R199). -/
def R.TILE_ENGINE_MAP.PHYS (n : Nat) : Field := ⟨0x1000010 + 0x100000 * n, 0, 32, 0x76543210, .ro, none⟩
/-- TILE[n].ENGINE_MAP.SPARE (R199). -/
def R.TILE_ENGINE_MAP.SPARE (n : Nat) : Field := ⟨0x1000010 + 0x100000 * n, 32, 4, 0x8, .ro, none⟩
/-- TILE[n].ENGINE_MAP.DOUBLED (R199). -/
def R.TILE_ENGINE_MAP.DOUBLED (n : Nat) : Field := ⟨0x1000010 + 0x100000 * n, 36, 1, 0x0, .ro, none⟩
/-- TILE[n].SPARE_REQ.LOGICAL (R199). -/
def R.TILE_SPARE_REQ.LOGICAL (n : Nat) : Field := ⟨0x1000018 + 0x100000 * n, 0, 3, 0x0, .wo, none⟩
/-- TILE[n].SPARE_REQ.GO (R199). -/
def R.TILE_SPARE_REQ.GO (n : Nat) : Field := ⟨0x1000018 + 0x100000 * n, 3, 1, 0x0, .wo, none⟩
/-- TILE[n].DIRECT_LIST.ADDR (R200). -/
def R.TILE_DIRECT_LIST.ADDR (n : Nat) : Field := ⟨0x1000020 + 0x100000 * n, 6, 42, 0x0, .live, none⟩
/-- TILE[n].DIRECT_LIST.COUNT (R200). -/
def R.TILE_DIRECT_LIST.COUNT (n : Nat) : Field := ⟨0x1000020 + 0x100000 * n, 48, 16, 0x0, .live, none⟩
/-- TILE[n].SEQ_COUNTS.FAILED_STEPS (R201). -/
def R.TILE_SEQ_COUNTS.FAILED_STEPS (n : Nat) : Field := ⟨0x1000028 + 0x100000 * n, 0, 16, 0x0, .ro, none⟩
/-- TILE[n].SEQ_COUNTS.REFETCHES (R201). -/
def R.TILE_SEQ_COUNTS.REFETCHES (n : Nat) : Field := ⟨0x1000028 + 0x100000 * n, 16, 16, 0x0, .ro, none⟩
/-- TILE[n].SEQ_COUNTS.FENCED_WRITES (R201). -/
def R.TILE_SEQ_COUNTS.FENCED_WRITES (n : Nat) : Field := ⟨0x1000028 + 0x100000 * n, 32, 16, 0x0, .ro, none⟩
/-- TILE[n].SEQ_COUNTS.LATE_WAITS (R201). -/
def R.TILE_SEQ_COUNTS.LATE_WAITS (n : Nat) : Field := ⟨0x1000028 + 0x100000 * n, 48, 16, 0x0, .ro, none⟩
/-- TILE[n].EVENT[c].VALUE (R202). -/
def R.TILE_EVENT.VALUE (n : Nat) (i : Nat) : Field := ⟨0x1000100 + 0x100000 * n + 0x8 * i, 0, 24, 0x0, .ro, none⟩
/-- TILE[n].SCALAR[i].VALUE (R202). -/
def R.TILE_SCALAR.VALUE (n : Nat) (i : Nat) : Field := ⟨0x1001000 + 0x100000 * n + 0x8 * i, 0, 64, 0x0, .live, none⟩
/-- TILE[n].MAT_SAT[e].SLOTS (R229). -/
def R.TILE_MAT_SAT.SLOTS (n : Nat) (i : Nat) : Field := ⟨0x1000200 + 0x100000 * n + 0x8 * i, 0, 64, 0x0, .w1c, none⟩
/-- TILE[n].MAT_FPEXC[e].SLOTS (R229). -/
def R.TILE_MAT_FPEXC.SLOTS (n : Nat) (i : Nat) : Field := ⟨0x1000240 + 0x100000 * n + 0x8 * i, 0, 64, 0x0, .w1c, none⟩
/-- TILE[n].MAT_COUNTS[e].SAT_WRITEOUTS (R230). -/
def R.TILE_MAT_COUNTS.SAT_WRITEOUTS (n : Nat) (i : Nat) : Field := ⟨0x1000280 + 0x100000 * n + 0x8 * i, 0, 16, 0x0, .ro, none⟩
/-- TILE[n].MAT_COUNTS[e].FPEXC_WRITEOUTS (R230). -/
def R.TILE_MAT_COUNTS.FPEXC_WRITEOUTS (n : Nat) (i : Nat) : Field := ⟨0x1000280 + 0x100000 * n + 0x8 * i, 16, 16, 0x0, .ro, none⟩
/-- TILE[n].MAT_COUNTS[e].ACC_CORRECTED (R230). -/
def R.TILE_MAT_COUNTS.ACC_CORRECTED (n : Nat) (i : Nat) : Field := ⟨0x1000280 + 0x100000 * n + 0x8 * i, 32, 16, 0x0, .ro, none⟩
/-- TILE[n].MAT_COUNTS[e].CHAIN_LINKS (R230). -/
def R.TILE_MAT_COUNTS.CHAIN_LINKS (n : Nat) (i : Nat) : Field := ⟨0x1000280 + 0x100000 * n + 0x8 * i, 48, 16, 0x0, .ro, none⟩
/-- TILE[n].MAT_STALLS[e].OPERAND_STALLS (R231). -/
def R.TILE_MAT_STALLS.OPERAND_STALLS (n : Nat) (i : Nat) : Field := ⟨0x10002c0 + 0x100000 * n + 0x8 * i, 0, 32, 0x0, .ro, none⟩
/-- TILE[n].MAT_STALLS[e].SLOT_WAITS (R231). -/
def R.TILE_MAT_STALLS.SLOT_WAITS (n : Nat) (i : Nat) : Field := ⟨0x10002c0 + 0x100000 * n + 0x8 * i, 32, 32, 0x0, .ro, none⟩
/-- TILE[n].MAT_FAULT.LOGICAL (R232). -/
def R.TILE_MAT_FAULT.LOGICAL (n : Nat) : Field := ⟨0x1000300 + 0x100000 * n, 0, 3, 0x0, .ro, none⟩
/-- TILE[n].MAT_FAULT.VALID (R232). -/
def R.TILE_MAT_FAULT.VALID (n : Nat) : Field := ⟨0x1000300 + 0x100000 * n, 3, 1, 0x0, .w1c, none⟩
/-- TILE[n].MAT_FAULT.PHYS (R232). -/
def R.TILE_MAT_FAULT.PHYS (n : Nat) : Field := ⟨0x1000300 + 0x100000 * n, 4, 4, 0x0, .ro, none⟩
/-- TILE[n].MAT_FAULT.CAUSE (R232). -/
def R.TILE_MAT_FAULT.CAUSE (n : Nat) : Field := ⟨0x1000300 + 0x100000 * n, 8, 4, 0x0, .ro, none⟩
/-- TILE[n].MAT_FAULT.SLOT (R232). -/
def R.TILE_MAT_FAULT.SLOT (n : Nat) : Field := ⟨0x1000300 + 0x100000 * n, 12, 6, 0x0, .ro, none⟩
/-- TILE[n].MAT_FAULT.LIST_INDEX (R232). -/
def R.TILE_MAT_FAULT.LIST_INDEX (n : Nat) : Field := ⟨0x1000300 + 0x100000 * n, 18, 16, 0x0, .ro, none⟩
/-- TILE[n].SCALE_CTRL.THRESHOLD (R256). -/
def R.TILE_SCALE_CTRL.THRESHOLD (n : Nat) : Field := ⟨0x1000310 + 0x100000 * n, 0, 8, 0x10, .staged, some (1, 255)⟩
/-- TILE[n].SCALE_CTRL.ADAPT_EN (R256). -/
def R.TILE_SCALE_CTRL.ADAPT_EN (n : Nat) : Field := ⟨0x1000310 + 0x100000 * n, 8, 1, 0x1, .staged, none⟩
/-- TILE[n].SCALE_ADAPTS.ADAPTATIONS (R257). -/
def R.TILE_SCALE_ADAPTS.ADAPTATIONS (n : Nat) : Field := ⟨0x1000318 + 0x100000 * n, 0, 32, 0x0, .ro, none⟩
/-- TILE[n].SCALE_ADAPTS.AT_LIMIT (R257). -/
def R.TILE_SCALE_ADAPTS.AT_LIMIT (n : Nat) : Field := ⟨0x1000318 + 0x100000 * n, 32, 32, 0x0, .ro, none⟩
/-- TILE[n].RESCALE_COUNTS.Y_SATURATIONS (R258). -/
def R.TILE_RESCALE_COUNTS.Y_SATURATIONS (n : Nat) : Field := ⟨0x1000320 + 0x100000 * n, 0, 32, 0x0, .ro, none⟩
/-- TILE[n].RESCALE_COUNTS.NONFINITE_ROWS (R258). -/
def R.TILE_RESCALE_COUNTS.NONFINITE_ROWS (n : Nat) : Field := ⟨0x1000320 + 0x100000 * n, 32, 16, 0x0, .ro, none⟩
/-- TILE[n].SCALE_REG[i].MULT (R259). -/
def R.TILE_SCALE_REG.MULT (n : Nat) (i : Nat) : Field := ⟨0x1008000 + 0x100000 * n + 0x8 * i, 0, 32, 0x0, .staged, none⟩
/-- TILE[n].SCALE_REG[i].SHIFT (R259). -/
def R.TILE_SCALE_REG.SHIFT (n : Nat) (i : Nat) : Field := ⟨0x1008000 + 0x100000 * n + 0x8 * i, 32, 6, 0x0, .staged, none⟩
/-- TILE[n].SCALE_REG[i].EXP (R259). -/
def R.TILE_SCALE_REG.EXP (n : Nat) (i : Nat) : Field := ⟨0x1008000 + 0x100000 * n + 0x8 * i, 40, 6, 0x0, .staged, none⟩
/-- TILE[n].SCALE_REG[i].WIDEN (R259). -/
def R.TILE_SCALE_REG.WIDEN (n : Nat) (i : Nat) : Field := ⟨0x1008000 + 0x100000 * n + 0x8 * i, 46, 4, 0x0, .ro, none⟩
/-- TILE[n].SCALE_REG[i].SAT_COUNT (R259). -/
def R.TILE_SCALE_REG.SAT_COUNT (n : Nat) (i : Nat) : Field := ⟨0x1008000 + 0x100000 * n + 0x8 * i, 52, 8, 0x0, .ro, none⟩
/-- TILE[n].VEC_STALLS.OPERAND_STALLS (R284). -/
def R.TILE_VEC_STALLS.OPERAND_STALLS (n : Nat) : Field := ⟨0x1000400 + 0x100000 * n, 0, 32, 0x0, .ro, none⟩
/-- TILE[n].VEC_STALLS.ATTEND_CLOCKS (R284). -/
def R.TILE_VEC_STALLS.ATTEND_CLOCKS (n : Nat) : Field := ⟨0x1000400 + 0x100000 * n, 32, 32, 0x0, .ro, none⟩
/-- TILE[n].VEC_COUNTS.TABLE_FAULTS (R285). -/
def R.TILE_VEC_COUNTS.TABLE_FAULTS (n : Nat) : Field := ⟨0x1000408 + 0x100000 * n, 0, 16, 0x0, .ro, none⟩
/-- TILE[n].VEC_COUNTS.OVERLAP_FAULTS (R285). -/
def R.TILE_VEC_COUNTS.OVERLAP_FAULTS (n : Nat) : Field := ⟨0x1000408 + 0x100000 * n, 16, 16, 0x0, .ro, none⟩
/-- TILE[n].VEC_COUNTS.WORD_FAULTS (R285). -/
def R.TILE_VEC_COUNTS.WORD_FAULTS (n : Nat) : Field := ⟨0x1000408 + 0x100000 * n, 32, 16, 0x0, .ro, none⟩
/-- TILE[n].DRILL_COUNTS.NAN_LOGITS (R286). -/
def R.TILE_DRILL_COUNTS.NAN_LOGITS (n : Nat) : Field := ⟨0x1000410 + 0x100000 * n, 0, 16, 0x0, .ro, none⟩
/-- TILE[n].DRILL_COUNTS.EMPTY_LANES (R286). -/
def R.TILE_DRILL_COUNTS.EMPTY_LANES (n : Nat) : Field := ⟨0x1000410 + 0x100000 * n, 16, 16, 0x0, .ro, none⟩
/-- TILE[n].DRILL_COUNTS.TOPP_TRUNCATED (R286). -/
def R.TILE_DRILL_COUNTS.TOPP_TRUNCATED (n : Nat) : Field := ⟨0x1000410 + 0x100000 * n, 32, 16, 0x0, .ro, none⟩
/-- TILE[n].DRILL_COUNTS.PENALTY_FULL (R286). -/
def R.TILE_DRILL_COUNTS.PENALTY_FULL (n : Nat) : Field := ⟨0x1000410 + 0x100000 * n, 48, 16, 0x0, .ro, none⟩
/-- TILE[n].DRILL_LAST.TOKEN (R287). -/
def R.TILE_DRILL_LAST.TOKEN (n : Nat) : Field := ⟨0x1000418 + 0x100000 * n, 0, 32, 0x0, .ro, none⟩
/-- TILE[n].DRILL_LAST.LANE (R287). -/
def R.TILE_DRILL_LAST.LANE (n : Nat) : Field := ⟨0x1000418 + 0x100000 * n, 32, 4, 0x0, .ro, none⟩
/-- TILE[n].DRILL_LAST.LANE_SET (R287). -/
def R.TILE_DRILL_LAST.LANE_SET (n : Nat) : Field := ⟨0x1000418 + 0x100000 * n, 36, 2, 0x0, .ro, none⟩
/-- TILE[n].DRILL_LAST.VALID (R287). -/
def R.TILE_DRILL_LAST.VALID (n : Nat) : Field := ⟨0x1000418 + 0x100000 * n, 38, 1, 0x0, .ro, none⟩
/-- TILE[n].DRILL_LAST.GREEDY (R287). -/
def R.TILE_DRILL_LAST.GREEDY (n : Nat) : Field := ⟨0x1000418 + 0x100000 * n, 39, 1, 0x0, .ro, none⟩
/-- TILE[n].HARROW_PLOTS[e].CODED (R317). -/
def R.TILE_HARROW_PLOTS.CODED (n : Nat) (i : Nat) : Field := ⟨0x1000500 + 0x100000 * n + 0x8 * i, 0, 32, 0x0, .ro, none⟩
/-- TILE[n].HARROW_PLOTS[e].RAW (R317). -/
def R.TILE_HARROW_PLOTS.RAW (n : Nat) (i : Nat) : Field := ⟨0x1000500 + 0x100000 * n + 0x8 * i, 32, 32, 0x0, .ro, none⟩
/-- TILE[n].HARROW_DAMAGE[e].CRC (R318). -/
def R.TILE_HARROW_DAMAGE.CRC (n : Nat) (i : Nat) : Field := ⟨0x1000540 + 0x100000 * n + 0x8 * i, 0, 16, 0x0, .ro, none⟩
/-- TILE[n].HARROW_DAMAGE[e].FORMAT (R318). -/
def R.TILE_HARROW_DAMAGE.FORMAT (n : Nat) (i : Nat) : Field := ⟨0x1000540 + 0x100000 * n + 0x8 * i, 16, 16, 0x0, .ro, none⟩
/-- TILE[n].HARROW_DAMAGE[e].CODE (R318). -/
def R.TILE_HARROW_DAMAGE.CODE (n : Nat) (i : Nat) : Field := ⟨0x1000540 + 0x100000 * n + 0x8 * i, 32, 16, 0x0, .ro, none⟩
/-- TILE[n].HARROW_DAMAGE[e].TABLE_LOADS (R318). -/
def R.TILE_HARROW_DAMAGE.TABLE_LOADS (n : Nat) (i : Nat) : Field := ⟨0x1000540 + 0x100000 * n + 0x8 * i, 48, 16, 0x0, .ro, none⟩
/-- TILE[n].PLOT_FAULT.LOGICAL (R319). -/
def R.TILE_PLOT_FAULT.LOGICAL (n : Nat) : Field := ⟨0x1000580 + 0x100000 * n, 0, 3, 0x0, .ro, none⟩
/-- TILE[n].PLOT_FAULT.VALID (R319). -/
def R.TILE_PLOT_FAULT.VALID (n : Nat) : Field := ⟨0x1000580 + 0x100000 * n, 3, 1, 0x0, .w1c, none⟩
/-- TILE[n].PLOT_FAULT.CAUSE (R319). -/
def R.TILE_PLOT_FAULT.CAUSE (n : Nat) : Field := ⟨0x1000580 + 0x100000 * n, 4, 4, 0x0, .ro, none⟩
/-- TILE[n].PLOT_FAULT.MASTER (R319). -/
def R.TILE_PLOT_FAULT.MASTER (n : Nat) : Field := ⟨0x1000580 + 0x100000 * n, 8, 1, 0x0, .ro, none⟩
/-- TILE[n].PLOT_FAULT.LIST_INDEX (R319). -/
def R.TILE_PLOT_FAULT.LIST_INDEX (n : Nat) : Field := ⟨0x1000580 + 0x100000 * n, 16, 16, 0x0, .ro, none⟩
/-- TILE[n].PLOT_FAULT.INDEX (R319). -/
def R.TILE_PLOT_FAULT.INDEX (n : Nat) : Field := ⟨0x1000580 + 0x100000 * n, 32, 32, 0x0, .ro, none⟩
/-- TILE[n].PLOT_FAULT_ADDR.ADDR (R319). -/
def R.TILE_PLOT_FAULT_ADDR.ADDR (n : Nat) : Field := ⟨0x1000588 + 0x100000 * n, 0, 48, 0x0, .ro, none⟩
/-- TILE[n].KV_POOL_TS.BASE (R359). -/
def R.TILE_KV_POOL_TS.BASE (n : Nat) : Field := ⟨0x1000600 + 0x100000 * n, 0, 34, 0x0, .staged, none⟩
/-- TILE[n].KV_POOL_TS.GRANULES (R359). -/
def R.TILE_KV_POOL_TS.GRANULES (n : Nat) : Field := ⟨0x1000600 + 0x100000 * n, 34, 30, 0x0, .staged, none⟩
/-- TILE[n].KV_POOL_ST.BASE (R359). -/
def R.TILE_KV_POOL_ST.BASE (n : Nat) : Field := ⟨0x1000608 + 0x100000 * n, 0, 34, 0x0, .staged, none⟩
/-- TILE[n].KV_POOL_ST.GRANULES (R359). -/
def R.TILE_KV_POOL_ST.GRANULES (n : Nat) : Field := ⟨0x1000608 + 0x100000 * n, 34, 30, 0x0, .staged, none⟩
/-- TILE[n].KV_POOL_FAR.BASE (R359). -/
def R.TILE_KV_POOL_FAR.BASE (n : Nat) : Field := ⟨0x1000610 + 0x100000 * n, 0, 34, 0x0, .staged, none⟩
/-- TILE[n].KV_POOL_FAR.GRANULES (R359). -/
def R.TILE_KV_POOL_FAR.GRANULES (n : Nat) : Field := ⟨0x1000610 + 0x100000 * n, 34, 30, 0x0, .staged, none⟩
/-- TILE[n].KV_REF.ADDR (R360). -/
def R.TILE_KV_REF.ADDR (n : Nat) : Field := ⟨0x1000618 + 0x100000 * n, 6, 42, 0x0, .staged, none⟩
/-- TILE[n].ATTN_COUNTS.LAB_HITS (R361). -/
def R.TILE_ATTN_COUNTS.LAB_HITS (n : Nat) : Field := ⟨0x1000620 + 0x100000 * n, 0, 32, 0x0, .ro, none⟩
/-- TILE[n].ATTN_COUNTS.LAB_MISSES (R361). -/
def R.TILE_ATTN_COUNTS.LAB_MISSES (n : Nat) : Field := ⟨0x1000620 + 0x100000 * n, 32, 32, 0x0, .ro, none⟩
/-- TILE[n].KV_COUNTS.MISS_LANES (R362). -/
def R.TILE_KV_COUNTS.MISS_LANES (n : Nat) : Field := ⟨0x1000628 + 0x100000 * n, 0, 16, 0x0, .ro, none⟩
/-- TILE[n].KV_COUNTS.DAMAGED_PLOTS (R362). -/
def R.TILE_KV_COUNTS.DAMAGED_PLOTS (n : Nat) : Field := ⟨0x1000628 + 0x100000 * n, 16, 16, 0x0, .ro, none⟩
/-- TILE[n].KV_COUNTS.COW_COPIES (R362). -/
def R.TILE_KV_COUNTS.COW_COPIES (n : Nat) : Field := ⟨0x1000628 + 0x100000 * n, 32, 16, 0x0, .ro, none⟩
/-- TILE[n].KV_COUNTS.NONFINITE_BLOCKS (R362). -/
def R.TILE_KV_COUNTS.NONFINITE_BLOCKS (n : Nat) : Field := ⟨0x1000628 + 0x100000 * n, 48, 16, 0x0, .ro, none⟩
/-- TILE[n].KV_TIER_COUNTS.FLUSHES (R362). -/
def R.TILE_KV_TIER_COUNTS.FLUSHES (n : Nat) : Field := ⟨0x1000630 + 0x100000 * n, 0, 32, 0x0, .ro, none⟩
/-- TILE[n].KV_TIER_COUNTS.SPILLS (R362). -/
def R.TILE_KV_TIER_COUNTS.SPILLS (n : Nat) : Field := ⟨0x1000630 + 0x100000 * n, 32, 16, 0x0, .ro, none⟩
/-- TILE[n].KV_TIER_COUNTS.PREFETCHES (R362). -/
def R.TILE_KV_TIER_COUNTS.PREFETCHES (n : Nat) : Field := ⟨0x1000630 + 0x100000 * n, 48, 16, 0x0, .ro, none⟩
/-- TILE[n].KV_FAULT.CAUSE (R363). -/
def R.TILE_KV_FAULT.CAUSE (n : Nat) : Field := ⟨0x1000638 + 0x100000 * n, 0, 4, 0x0, .ro, none⟩
/-- TILE[n].KV_FAULT.VALID (R363). -/
def R.TILE_KV_FAULT.VALID (n : Nat) : Field := ⟨0x1000638 + 0x100000 * n, 4, 1, 0x0, .w1c, none⟩
/-- TILE[n].KV_FAULT.LANE (R363). -/
def R.TILE_KV_FAULT.LANE (n : Nat) : Field := ⟨0x1000638 + 0x100000 * n, 5, 4, 0x0, .ro, none⟩
/-- TILE[n].KV_FAULT.LANE_SET (R363). -/
def R.TILE_KV_FAULT.LANE_SET (n : Nat) : Field := ⟨0x1000638 + 0x100000 * n, 9, 2, 0x0, .ro, none⟩
/-- TILE[n].KV_FAULT.LAYER (R363). -/
def R.TILE_KV_FAULT.LAYER (n : Nat) : Field := ⟨0x1000638 + 0x100000 * n, 16, 8, 0x0, .ro, none⟩
/-- TILE[n].KV_FAULT.KV_HEAD (R363). -/
def R.TILE_KV_FAULT.KV_HEAD (n : Nat) : Field := ⟨0x1000638 + 0x100000 * n, 24, 4, 0x0, .ro, none⟩
/-- TILE[n].KV_FAULT.INDEX (R363). -/
def R.TILE_KV_FAULT.INDEX (n : Nat) : Field := ⟨0x1000638 + 0x100000 * n, 32, 32, 0x0, .ro, none⟩
/-- TILE[n].KV_FAULT_ADDR.ADDR (R363). -/
def R.TILE_KV_FAULT_ADDR.ADDR (n : Nat) : Field := ⟨0x1000640 + 0x100000 * n, 0, 48, 0x0, .ro, none⟩
/-- TSTORE[n].GRANARY.SIZE (R390). -/
def R.TSTORE_GRANARY.SIZE (n : Nat) : Field := ⟨0x2000000 + 0x10000 * n, 0, 4, 0x2, .staged, some (0, 8)⟩
/-- TSTORE[n].SEG_POWER.TS (R391). -/
def R.TSTORE_SEG_POWER.TS (n : Nat) : Field := ⟨0x2000008 + 0x10000 * n, 0, 32, 0x0, .live, none⟩
/-- TSTORE[n].SEG_POWER.SP (R391). -/
def R.TSTORE_SEG_POWER.SP (n : Nat) : Field := ⟨0x2000008 + 0x10000 * n, 32, 16, 0x0, .live, none⟩
/-- TSTORE[n].SEG_STATUS.TS (R391). -/
def R.TSTORE_SEG_STATUS.TS (n : Nat) : Field := ⟨0x2000010 + 0x10000 * n, 0, 32, 0x0, .ro, none⟩
/-- TSTORE[n].SEG_STATUS.SP (R391). -/
def R.TSTORE_SEG_STATUS.SP (n : Nat) : Field := ⟨0x2000010 + 0x10000 * n, 32, 16, 0x0, .ro, none⟩
/-- TSTORE[n].ECC_COUNTS.TS_CORRECTED (R392). -/
def R.TSTORE_ECC_COUNTS.TS_CORRECTED (n : Nat) : Field := ⟨0x2000018 + 0x10000 * n, 0, 16, 0x0, .ro, none⟩
/-- TSTORE[n].ECC_COUNTS.TS_POISONED (R392). -/
def R.TSTORE_ECC_COUNTS.TS_POISONED (n : Nat) : Field := ⟨0x2000018 + 0x10000 * n, 16, 16, 0x0, .ro, none⟩
/-- TSTORE[n].ECC_COUNTS.SP_CORRECTED (R392). -/
def R.TSTORE_ECC_COUNTS.SP_CORRECTED (n : Nat) : Field := ⟨0x2000018 + 0x10000 * n, 32, 16, 0x0, .ro, none⟩
/-- TSTORE[n].ECC_COUNTS.SP_POISONED (R392). -/
def R.TSTORE_ECC_COUNTS.SP_POISONED (n : Nat) : Field := ⟨0x2000018 + 0x10000 * n, 48, 16, 0x0, .ro, none⟩
/-- TSTORE[n].ECC_FAULT.ADDR (R393). -/
def R.TSTORE_ECC_FAULT.ADDR (n : Nat) : Field := ⟨0x2000020 + 0x10000 * n, 0, 48, 0x0, .ro, none⟩
/-- TSTORE[n].ECC_FAULT.VALID (R393). -/
def R.TSTORE_ECC_FAULT.VALID (n : Nat) : Field := ⟨0x2000020 + 0x10000 * n, 48, 1, 0x0, .w1c, none⟩
/-- TSTORE[n].ECC_FAULT.MEMORY (R393). -/
def R.TSTORE_ECC_FAULT.MEMORY (n : Nat) : Field := ⟨0x2000020 + 0x10000 * n, 49, 1, 0x0, .ro, none⟩
/-- TSTORE[n].ECC_FAULT.SOURCE (R393). -/
def R.TSTORE_ECC_FAULT.SOURCE (n : Nat) : Field := ⟨0x2000020 + 0x10000 * n, 50, 4, 0x0, .ro, none⟩
/-- TSTORE[n].GRANARY_COUNTS.HITS (R394). -/
def R.TSTORE_GRANARY_COUNTS.HITS (n : Nat) : Field := ⟨0x2000028 + 0x10000 * n, 0, 32, 0x0, .ro, none⟩
/-- TSTORE[n].GRANARY_COUNTS.MISSES (R394). -/
def R.TSTORE_GRANARY_COUNTS.MISSES (n : Nat) : Field := ⟨0x2000028 + 0x10000 * n, 32, 32, 0x0, .ro, none⟩
/-- TSTORE[n].GRANARY_EVENTS.WRITEBACKS (R394). -/
def R.TSTORE_GRANARY_EVENTS.WRITEBACKS (n : Nat) : Field := ⟨0x2000030 + 0x10000 * n, 0, 32, 0x0, .ro, none⟩
/-- TSTORE[n].GRANARY_EVENTS.ATOMICS (R394). -/
def R.TSTORE_GRANARY_EVENTS.ATOMICS (n : Nat) : Field := ⟨0x2000030 + 0x10000 * n, 32, 32, 0x0, .ro, none⟩
/-- TSTORE[n].BANK_STALLS.TS_CONFLICTS (R394). -/
def R.TSTORE_BANK_STALLS.TS_CONFLICTS (n : Nat) : Field := ⟨0x2000040 + 0x10000 * n, 0, 32, 0x0, .ro, none⟩
/-- TSTORE[n].BANK_STALLS.SP_CONFLICTS (R394). -/
def R.TSTORE_BANK_STALLS.SP_CONFLICTS (n : Nat) : Field := ⟨0x2000040 + 0x10000 * n, 32, 32, 0x0, .ro, none⟩
/-- TSTORE[n].ATOM_EVENTS.REF_UNDERFLOW (R395). -/
def R.TSTORE_ATOM_EVENTS.REF_UNDERFLOW (n : Nat) : Field := ⟨0x2000038 + 0x10000 * n, 0, 16, 0x0, .ro, none⟩
/-- TSTORE[n].ATOM_EVENTS.REF_OVERFLOW (R395). -/
def R.TSTORE_ATOM_EVENTS.REF_OVERFLOW (n : Nat) : Field := ⟨0x2000038 + 0x10000 * n, 16, 16, 0x0, .ro, none⟩
/-- TSTORE[n].ATOM_EVENTS.ATOM_REFUSED (R395). -/
def R.TSTORE_ATOM_EVENTS.ATOM_REFUSED (n : Nat) : Field := ⟨0x2000038 + 0x10000 * n, 32, 16, 0x0, .ro, none⟩
/-- TSTORE[n].ATOM_EVENTS.SEG_REFUSED (R395). -/
def R.TSTORE_ATOM_EVENTS.SEG_REFUSED (n : Nat) : Field := ⟨0x2000038 + 0x10000 * n, 48, 16, 0x0, .ro, none⟩
/-- TSTORE[n].WAKE_COUNTS.WAKES (R395). -/
def R.TSTORE_WAKE_COUNTS.WAKES (n : Nat) : Field := ⟨0x2000048 + 0x10000 * n, 0, 32, 0x0, .ro, none⟩
/-- TSTORE[n].WAKE_COUNTS.OFF_ACCESSES (R395). -/
def R.TSTORE_WAKE_COUNTS.OFF_ACCESSES (n : Nat) : Field := ⟨0x2000048 + 0x10000 * n, 32, 32, 0x0, .ro, none⟩
/-- TSTORE[n].ATOM_ADDR[c].ADDR (R396). -/
def R.TSTORE_ATOM_ADDR.ADDR (n : Nat) (i : Nat) : Field := ⟨0x2000200 + 0x10000 * n + 0x40 * i, 0, 48, 0x0, .live, none⟩
/-- TSTORE[n].ATOM_DATA[c].VALUE (R396). -/
def R.TSTORE_ATOM_DATA.VALUE (n : Nat) (i : Nat) : Field := ⟨0x2000208 + 0x10000 * n + 0x40 * i, 0, 64, 0x0, .live, none⟩
/-- TSTORE[n].ATOM_CMP[c].VALUE (R396). -/
def R.TSTORE_ATOM_CMP.VALUE (n : Nat) (i : Nat) : Field := ⟨0x2000210 + 0x10000 * n + 0x40 * i, 0, 64, 0x0, .live, none⟩
/-- TSTORE[n].ATOM_RESULT[c].VALUE (R396). -/
def R.TSTORE_ATOM_RESULT.VALUE (n : Nat) (i : Nat) : Field := ⟨0x2000220 + 0x10000 * n + 0x40 * i, 0, 64, 0x0, .ro, none⟩
/-- TSTORE[n].ATOM_CMD[c].OP (R396). -/
def R.TSTORE_ATOM_CMD.OP (n : Nat) (i : Nat) : Field := ⟨0x2000218 + 0x10000 * n + 0x40 * i, 0, 4, 0x0, .wo, none⟩
/-- TSTORE[n].ATOM_CMD[c].SIZE (R396). -/
def R.TSTORE_ATOM_CMD.SIZE (n : Nat) (i : Nat) : Field := ⟨0x2000218 + 0x10000 * n + 0x40 * i, 4, 1, 0x0, .wo, none⟩
/-- TSTORE[n].ATOM_CMD[c].GO (R396). -/
def R.TSTORE_ATOM_CMD.GO (n : Nat) (i : Nat) : Field := ⟨0x2000218 + 0x10000 * n + 0x40 * i, 5, 1, 0x0, .wo, none⟩
/-- TSTORE[n].ATOM_STATUS[c].DONE (R396). -/
def R.TSTORE_ATOM_STATUS.DONE (n : Nat) (i : Nat) : Field := ⟨0x2000228 + 0x10000 * n + 0x40 * i, 0, 1, 0x1, .ro, none⟩
/-- TSTORE[n].ATOM_STATUS[c].ZERO (R396). -/
def R.TSTORE_ATOM_STATUS.ZERO (n : Nat) (i : Nat) : Field := ⟨0x2000228 + 0x10000 * n + 0x40 * i, 1, 1, 0x0, .ro, none⟩
/-- TSTORE[n].ATOM_STATUS[c].WAS_ZERO (R396). -/
def R.TSTORE_ATOM_STATUS.WAS_ZERO (n : Nat) (i : Nat) : Field := ⟨0x2000228 + 0x10000 * n + 0x40 * i, 2, 1, 0x0, .ro, none⟩
/-- TSTORE[n].ATOM_STATUS[c].SUCCESS (R396). -/
def R.TSTORE_ATOM_STATUS.SUCCESS (n : Nat) (i : Nat) : Field := ⟨0x2000228 + 0x10000 * n + 0x40 * i, 3, 1, 0x0, .ro, none⟩
/-- TSTORE[n].ATOM_STATUS[c].REFUSED (R396). -/
def R.TSTORE_ATOM_STATUS.REFUSED (n : Nat) (i : Nat) : Field := ⟨0x2000228 + 0x10000 * n + 0x40 * i, 4, 1, 0x0, .ro, none⟩
/-- TSTORE[n].ATOM_STATUS[c].CAUSE (R396). -/
def R.TSTORE_ATOM_STATUS.CAUSE (n : Nat) (i : Nat) : Field := ⟨0x2000228 + 0x10000 * n + 0x40 * i, 8, 4, 0x0, .ro, none⟩
/-- STACK[n].REGION_MODE.UNIT_LOCAL (R428). -/
def R.STACK_REGION_MODE.UNIT_LOCAL (n : Nat) : Field := ⟨0x3000000 + 0x1000 * n, 0, 48, 0x0, .staged, none⟩
/-- STACK[n].REFRESH.PULLIN_MAX (R429). -/
def R.STACK_REFRESH.PULLIN_MAX (n : Nat) : Field := ⟨0x3000008 + 0x1000 * n, 0, 4, 0x8, .staged, some (0, 8)⟩
/-- STACK[n].REFRESH.HOT (R429). -/
def R.STACK_REFRESH.HOT (n : Nat) : Field := ⟨0x3000008 + 0x1000 * n, 4, 1, 0x0, .ro, none⟩
/-- STACK[n].THERM.TEMP (R430). -/
def R.STACK_THERM.TEMP (n : Nat) : Field := ⟨0x3000010 + 0x1000 * n, 0, 8, 0x0, .ro, none⟩
/-- STACK[n].THERM.THROTTLE_C (R430). -/
def R.STACK_THERM.THROTTLE_C (n : Nat) : Field := ⟨0x3000010 + 0x1000 * n, 8, 8, 0x5a, .live, some (85, 94)⟩
/-- STACK[n].THERM.THROTTLING (R430). -/
def R.STACK_THERM.THROTTLING (n : Nat) : Field := ⟨0x3000010 + 0x1000 * n, 16, 1, 0x0, .ro, none⟩
/-- STACK[n].THERM.EMERGENCY (R430). -/
def R.STACK_THERM.EMERGENCY (n : Nat) : Field := ⟨0x3000010 + 0x1000 * n, 17, 1, 0x0, .ro, none⟩
/-- STACK[n].LANE_STATUS.SPARES_USED (R431). -/
def R.STACK_LANE_STATUS.SPARES_USED (n : Nat) : Field := ⟨0x3000018 + 0x1000 * n, 0, 7, 0x0, .ro, none⟩
/-- STACK[n].LANE_STATUS.ERASED_LANES (R431). -/
def R.STACK_LANE_STATUS.ERASED_LANES (n : Nat) : Field := ⟨0x3000018 + 0x1000 * n, 8, 7, 0x0, .ro, none⟩
/-- STACK[n].ECC_COUNTS.CORRECTED (R432). -/
def R.STACK_ECC_COUNTS.CORRECTED (n : Nat) : Field := ⟨0x3000020 + 0x1000 * n, 0, 32, 0x0, .ro, none⟩
/-- STACK[n].ECC_COUNTS.UNCORRECTABLE (R432). -/
def R.STACK_ECC_COUNTS.UNCORRECTABLE (n : Nat) : Field := ⟨0x3000020 + 0x1000 * n, 32, 16, 0x0, .ro, none⟩
/-- STACK[n].ECC_COUNTS.LANE_MARKS (R432). -/
def R.STACK_ECC_COUNTS.LANE_MARKS (n : Nat) : Field := ⟨0x3000020 + 0x1000 * n, 48, 16, 0x0, .ro, none⟩
/-- STACK[n].ECC_FAULT.ADDR (R433). -/
def R.STACK_ECC_FAULT.ADDR (n : Nat) : Field := ⟨0x3000028 + 0x1000 * n, 0, 48, 0x0, .ro, none⟩
/-- STACK[n].ECC_FAULT.VALID (R433). -/
def R.STACK_ECC_FAULT.VALID (n : Nat) : Field := ⟨0x3000028 + 0x1000 * n, 48, 1, 0x0, .w1c, none⟩
/-- STACK[n].ECC_FAULT.PC (R433). -/
def R.STACK_ECC_FAULT.PC (n : Nat) : Field := ⟨0x3000028 + 0x1000 * n, 49, 6, 0x0, .ro, none⟩
/-- STACK[n].REFRESH_COUNTS.FORCED (R434). -/
def R.STACK_REFRESH_COUNTS.FORCED (n : Nat) : Field := ⟨0x3000030 + 0x1000 * n, 0, 32, 0x0, .ro, none⟩
/-- STACK[n].REFRESH_COUNTS.CATCH_UP (R434). -/
def R.STACK_REFRESH_COUNTS.CATCH_UP (n : Nat) : Field := ⟨0x3000030 + 0x1000 * n, 32, 32, 0x0, .ro, none⟩
/-- STACK[n].ARB_COUNTS.ATOMS (R434). -/
def R.STACK_ARB_COUNTS.ATOMS (n : Nat) : Field := ⟨0x3000038 + 0x1000 * n, 0, 32, 0x0, .ro, none⟩
/-- STACK[n].ARB_COUNTS.HOST_WAIT_MAX_NS (R434). -/
def R.STACK_ARB_COUNTS.HOST_WAIT_MAX_NS (n : Nat) : Field := ⟨0x3000038 + 0x1000 * n, 32, 16, 0x0, .ro, none⟩
/-- STACK[n].ARB_COUNTS.HOST_DEFERRED (R434). -/
def R.STACK_ARB_COUNTS.HOST_DEFERRED (n : Nat) : Field := ⟨0x3000038 + 0x1000 * n, 48, 16, 0x0, .ro, none⟩
/-- STACK[n].TG_REGIONS.ALLOW (R435). -/
def R.STACK_TG_REGIONS.ALLOW (n : Nat) : Field := ⟨0x3000040 + 0x1000 * n, 0, 48, 0x0, .staged, none⟩
/-- STACK[n].TG_RESULT.MISMATCHES (R435). -/
def R.STACK_TG_RESULT.MISMATCHES (n : Nat) : Field := ⟨0x3000048 + 0x1000 * n, 0, 32, 0x0, .ro, none⟩
/-- STACK[n].TG_RESULT.UNCORRECTABLE (R435). -/
def R.STACK_TG_RESULT.UNCORRECTABLE (n : Nat) : Field := ⟨0x3000048 + 0x1000 * n, 32, 16, 0x0, .ro, none⟩
/-- STACK[n].TG_RESULT.FIRST_PC (R435). -/
def R.STACK_TG_RESULT.FIRST_PC (n : Nat) : Field := ⟨0x3000048 + 0x1000 * n, 48, 6, 0x0, .ro, none⟩
/-- STACK[n].TG_RESULT.VALID (R435). -/
def R.STACK_TG_RESULT.VALID (n : Nat) : Field := ⟨0x3000048 + 0x1000 * n, 54, 1, 0x0, .ro, none⟩
/-- NBU[n].BUSY.UNITS (R436). -/
def R.NBU_BUSY.UNITS (n : Nat) : Field := ⟨0x3100000 + 0x1000 * n, 0, 64, 0x0, .ro, none⟩
/-- NBU[n].UNIT_OK.UNITS (R436). -/
def R.NBU_UNIT_OK.UNITS (n : Nat) : Field := ⟨0x3100018 + 0x1000 * n, 0, 64, 0xffffffffffffffff, .ro, none⟩
/-- NBU[n].FAULT.UNIT (R437). -/
def R.NBU_FAULT.UNIT (n : Nat) : Field := ⟨0x3100008 + 0x1000 * n, 0, 6, 0x0, .ro, none⟩
/-- NBU[n].FAULT.VALID (R437). -/
def R.NBU_FAULT.VALID (n : Nat) : Field := ⟨0x3100008 + 0x1000 * n, 6, 1, 0x0, .w1c, none⟩
/-- NBU[n].FAULT.CAUSE (R437). -/
def R.NBU_FAULT.CAUSE (n : Nat) : Field := ⟨0x3100008 + 0x1000 * n, 8, 4, 0x0, .ro, none⟩
/-- NBU[n].FAULT.ATOM (R437). -/
def R.NBU_FAULT.ATOM (n : Nat) : Field := ⟨0x3100008 + 0x1000 * n, 12, 16, 0x0, .ro, none⟩
/-- NBU[n].FAULT.LIST_INDEX (R437). -/
def R.NBU_FAULT.LIST_INDEX (n : Nat) : Field := ⟨0x3100008 + 0x1000 * n, 28, 16, 0x0, .ro, none⟩
/-- NBU[n].COUNTS.PLOT_RETRIES (R438). -/
def R.NBU_COUNTS.PLOT_RETRIES (n : Nat) : Field := ⟨0x3100010 + 0x1000 * n, 0, 16, 0x0, .ro, none⟩
/-- NBU[n].COUNTS.RESULT_RESENDS (R438). -/
def R.NBU_COUNTS.RESULT_RESENDS (n : Nat) : Field := ⟨0x3100010 + 0x1000 * n, 16, 16, 0x0, .ro, none⟩
/-- NBU[n].COUNTS.SAT_RESULTS (R438). -/
def R.NBU_COUNTS.SAT_RESULTS (n : Nat) : Field := ⟨0x3100010 + 0x1000 * n, 32, 16, 0x0, .ro, none⟩
/-- NBU[n].COUNTS.FAILED_DESCRIPTORS (R438). -/
def R.NBU_COUNTS.FAILED_DESCRIPTORS (n : Nat) : Field := ⟨0x3100010 + 0x1000 * n, 48, 16, 0x0, .ro, none⟩
/-- LINK[p].CTRL.ENABLE (R473). -/
def R.LINK_CTRL.ENABLE (n : Nat) : Field := ⟨0x40000 + 0x1000 * n, 0, 1, 0x1, .staged, none⟩
/-- LINK[p].CTRL.MODE (R473). -/
def R.LINK_CTRL.MODE (n : Nat) : Field := ⟨0x40000 + 0x1000 * n, 1, 1, 0x1, .staged, none⟩
/-- LINK[p].STATUS.STATE (R474). -/
def R.LINK_STATUS.STATE (n : Nat) : Field := ⟨0x40008 + 0x1000 * n, 0, 3, 0x0, .ro, none⟩
/-- LINK[p].STATUS.DOUBLED (R474). -/
def R.LINK_STATUS.DOUBLED (n : Nat) : Field := ⟨0x40008 + 0x1000 * n, 3, 1, 0x0, .ro, none⟩
/-- LINK[p].STATUS.PEER_PORT (R474). -/
def R.LINK_STATUS.PEER_PORT (n : Nat) : Field := ⟨0x40008 + 0x1000 * n, 4, 5, 0x0, .ro, none⟩
/-- LINK[p].STATUS.PEER_VALID (R474). -/
def R.LINK_STATUS.PEER_VALID (n : Nat) : Field := ⟨0x40008 + 0x1000 * n, 9, 1, 0x0, .ro, none⟩
/-- LINK[p].STATUS.RTT_NS (R474). -/
def R.LINK_STATUS.RTT_NS (n : Nat) : Field := ⟨0x40008 + 0x1000 * n, 16, 16, 0x0, .ro, none⟩
/-- LINK[p].PEER.SERIAL (R474). -/
def R.LINK_PEER.SERIAL (n : Nat) : Field := ⟨0x40010 + 0x1000 * n, 0, 64, 0x0, .ro, none⟩
/-- LINK[p].COUNTS0.CORRECTED_SYMBOLS (R475). -/
def R.LINK_COUNTS0.CORRECTED_SYMBOLS (n : Nat) : Field := ⟨0x40018 + 0x1000 * n, 0, 32, 0x0, .ro, none⟩
/-- LINK[p].COUNTS0.UNCORRECTABLE (R475). -/
def R.LINK_COUNTS0.UNCORRECTABLE (n : Nat) : Field := ⟨0x40018 + 0x1000 * n, 32, 16, 0x0, .ro, none⟩
/-- LINK[p].COUNTS0.REPLAYS (R475). -/
def R.LINK_COUNTS0.REPLAYS (n : Nat) : Field := ⟨0x40018 + 0x1000 * n, 48, 16, 0x0, .ro, none⟩
/-- LINK[p].COUNTS1.NAKS_SENT (R475). -/
def R.LINK_COUNTS1.NAKS_SENT (n : Nat) : Field := ⟨0x40020 + 0x1000 * n, 0, 16, 0x0, .ro, none⟩
/-- LINK[p].COUNTS1.DEFERRED (R475). -/
def R.LINK_COUNTS1.DEFERRED (n : Nat) : Field := ⟨0x40020 + 0x1000 * n, 16, 16, 0x0, .ro, none⟩
/-- LINK[p].COUNTS1.EPOCH_DROPS (R475). -/
def R.LINK_COUNTS1.EPOCH_DROPS (n : Nat) : Field := ⟨0x40020 + 0x1000 * n, 32, 16, 0x0, .ro, none⟩
/-- LINK[p].COUNTS1.TAG_FAILS (R475). -/
def R.LINK_COUNTS1.TAG_FAILS (n : Nat) : Field := ⟨0x40020 + 0x1000 * n, 48, 16, 0x0, .ro, none⟩
/-- LINK[p].COUNTS2.BUFFER_OVERFLOWS (R475). -/
def R.LINK_COUNTS2.BUFFER_OVERFLOWS (n : Nat) : Field := ⟨0x40028 + 0x1000 * n, 0, 16, 0x0, .ro, none⟩
/-- LINK[p].COUNTS2.POISON_RECEIVED (R475). -/
def R.LINK_COUNTS2.POISON_RECEIVED (n : Nat) : Field := ⟨0x40028 + 0x1000 * n, 16, 16, 0x0, .ro, none⟩
/-- LINK[p].COUNTS2.SLOT_MISMATCH (R475). -/
def R.LINK_COUNTS2.SLOT_MISMATCH (n : Nat) : Field := ⟨0x40028 + 0x1000 * n, 32, 16, 0x0, .ro, none⟩
/-- LINK[p].COUNTS2.RETRAINS (R475). -/
def R.LINK_COUNTS2.RETRAINS (n : Nat) : Field := ⟨0x40028 + 0x1000 * n, 48, 16, 0x0, .ro, none⟩
/-- LINK[p].TEST_RESULT.ERRORS (R476). -/
def R.LINK_TEST_RESULT.ERRORS (n : Nat) : Field := ⟨0x40030 + 0x1000 * n, 0, 32, 0x0, .ro, none⟩
/-- LINK[p].TEST_RESULT.ERRORED_LANES (R476). -/
def R.LINK_TEST_RESULT.ERRORED_LANES (n : Nat) : Field := ⟨0x40030 + 0x1000 * n, 32, 8, 0x0, .ro, none⟩
/-- LINK[p].TEST_RESULT.VALID (R476). -/
def R.LINK_TEST_RESULT.VALID (n : Nat) : Field := ⟨0x40030 + 0x1000 * n, 40, 1, 0x0, .ro, none⟩
/-- CXLU.STATUS.LINK_UP (R502). -/
def R.CXLU_STATUS.LINK_UP : Field := ⟨0x30000, 0, 1, 0x0, .ro, none⟩
/-- CXLU.STATUS.WIDTH (R502). -/
def R.CXLU_STATUS.WIDTH : Field := ⟨0x30000, 1, 5, 0x0, .ro, none⟩
/-- CXLU.STATUS.SPEED (R502). -/
def R.CXLU_STATUS.SPEED : Field := ⟨0x30000, 6, 3, 0x0, .ro, none⟩
/-- CXLU.STATUS.IDE_IO (R502). -/
def R.CXLU_STATUS.IDE_IO : Field := ⟨0x30000, 9, 1, 0x0, .ro, none⟩
/-- CXLU.STATUS.IDE_CM (R502). -/
def R.CXLU_STATUS.IDE_CM : Field := ⟨0x30000, 10, 1, 0x0, .ro, none⟩
/-- CXLU.STATUS.SKID (R502). -/
def R.CXLU_STATUS.SKID : Field := ⟨0x30000, 11, 1, 0x0, .ro, none⟩
/-- CXLU.STATUS.BUS_MASTER (R502). -/
def R.CXLU_STATUS.BUS_MASTER : Field := ⟨0x30000, 12, 1, 0x0, .ro, none⟩
/-- CXLU.CTRL.IRQ_HOLDOFF_NS (R503). -/
def R.CXLU_CTRL.IRQ_HOLDOFF_NS : Field := ⟨0x30008, 0, 16, 0xc8, .live, some (0, 10000)⟩
/-- CXLU.CTRL.IDE_REQUIRED (R503). -/
def R.CXLU_CTRL.IDE_REQUIRED : Field := ⟨0x30008, 16, 1, 0x0, .live, none⟩
/-- CXLU.MEM_COUNTS.READS (R504). -/
def R.CXLU_MEM_COUNTS.READS : Field := ⟨0x30010, 0, 32, 0x0, .ro, none⟩
/-- CXLU.MEM_COUNTS.WRITES (R504). -/
def R.CXLU_MEM_COUNTS.WRITES : Field := ⟨0x30010, 32, 32, 0x0, .ro, none⟩
/-- CXLU.MEM_LAT.MAX_READ_NS (R504). -/
def R.CXLU_MEM_LAT.MAX_READ_NS : Field := ⟨0x30018, 0, 16, 0x0, .ro, none⟩
/-- CXLU.MEM_LAT.MAX_WRITE_NS (R504). -/
def R.CXLU_MEM_LAT.MAX_WRITE_NS : Field := ⟨0x30018, 16, 16, 0x0, .ro, none⟩
/-- CXLU.MEM_LAT.OVER_BOUND (R504). -/
def R.CXLU_MEM_LAT.OVER_BOUND : Field := ⟨0x30018, 32, 16, 0x0, .ro, none⟩
/-- CXLU.ERRORS.WINDOW_WRITES (R505). -/
def R.CXLU_ERRORS.WINDOW_WRITES : Field := ⟨0x30020, 0, 16, 0x0, .ro, none⟩
/-- CXLU.ERRORS.NONLEAD_DOORBELLS (R505). -/
def R.CXLU_ERRORS.NONLEAD_DOORBELLS : Field := ⟨0x30020, 16, 16, 0x0, .ro, none⟩
/-- CXLU.ERRORS.DISCARDED_RECORDS (R505). -/
def R.CXLU_ERRORS.DISCARDED_RECORDS : Field := ⟨0x30020, 32, 16, 0x0, .ro, none⟩
/-- CXLU.ERRORS.LINK_DOWNS (R505). -/
def R.CXLU_ERRORS.LINK_DOWNS : Field := ⟨0x30020, 48, 16, 0x0, .ro, none⟩
/-- CXLD.CTRL.BIFURCATE (R506). -/
def R.CXLD_CTRL.BIFURCATE : Field := ⟨0x31000, 0, 1, 0x0, .staged, none⟩
/-- CXLD.CTRL.IDE_REQUIRED (R506). -/
def R.CXLD_CTRL.IDE_REQUIRED : Field := ⟨0x31000, 1, 1, 0x1, .staged, none⟩
/-- CXLD.PORT[k].LINK_UP (R507). -/
def R.CXLD_PORT.LINK_UP (n : Nat) : Field := ⟨0x31008 + 0x8 * n, 0, 1, 0x0, .ro, none⟩
/-- CXLD.PORT[k].WIDTH (R507). -/
def R.CXLD_PORT.WIDTH (n : Nat) : Field := ⟨0x31008 + 0x8 * n, 1, 5, 0x0, .ro, none⟩
/-- CXLD.PORT[k].SPEED (R507). -/
def R.CXLD_PORT.SPEED (n : Nat) : Field := ⟨0x31008 + 0x8 * n, 6, 3, 0x0, .ro, none⟩
/-- CXLD.PORT[k].FLIT256 (R507). -/
def R.CXLD_PORT.FLIT256 (n : Nat) : Field := ⟨0x31008 + 0x8 * n, 9, 1, 0x0, .ro, none⟩
/-- CXLD.PORT[k].IDE (R507). -/
def R.CXLD_PORT.IDE (n : Nat) : Field := ⟨0x31008 + 0x8 * n, 10, 1, 0x0, .ro, none⟩
/-- CXLD.PORT[k].USABLE (R507). -/
def R.CXLD_PORT.USABLE (n : Nat) : Field := ⟨0x31008 + 0x8 * n, 11, 1, 0x0, .ro, none⟩
/-- CXLD.EXP[k].MAPPED_GIB (R507). -/
def R.CXLD_EXP.MAPPED_GIB (n : Nat) : Field := ⟨0x31018 + 0x8 * n, 0, 12, 0x0, .ro, none⟩
/-- CXLD.EXP[k].MAPPED (R507). -/
def R.CXLD_EXP.MAPPED (n : Nat) : Field := ⟨0x31018 + 0x8 * n, 12, 1, 0x0, .ro, none⟩
/-- CXLD.EXP[k].BASE_GIB (R507). -/
def R.CXLD_EXP.BASE_GIB (n : Nat) : Field := ⟨0x31018 + 0x8 * n, 48, 16, 0x0, .ro, none⟩
/-- CXLD.COUNTS.POISON_READS (R508). -/
def R.CXLD_COUNTS.POISON_READS : Field := ⟨0x31028, 0, 16, 0x0, .ro, none⟩
/-- CXLD.COUNTS.LINK_DOWNS (R508). -/
def R.CXLD_COUNTS.LINK_DOWNS : Field := ⟨0x31028, 16, 16, 0x0, .ro, none⟩
/-- CXLD.COUNTS.UNUSABLE (R508). -/
def R.CXLD_COUNTS.UNUSABLE : Field := ⟨0x31028, 32, 16, 0x0, .ro, none⟩
/-- PWR.CTRL.CAP_W (R530). -/
def R.PWR_CTRL.CAP_W : Field := ⟨0x20000, 0, 16, 0xc80, .live, some (800, 3200)⟩
/-- PWR.CTRL.LEARN_EN (R530). -/
def R.PWR_CTRL.LEARN_EN : Field := ⟨0x20000, 16, 1, 0x1, .live, none⟩
/-- PWR.CTRL.PREPOS_EN (R530). -/
def R.PWR_CTRL.PREPOS_EN : Field := ⟨0x20000, 17, 1, 0x1, .live, none⟩
/-- PWR.CTRL.GUARD_MV (R530). -/
def R.PWR_CTRL.GUARD_MV : Field := ⟨0x20000, 18, 6, 0xa, .live, some (0, 40)⟩
/-- PWR.STATUS.DEVICE_PL (R531). -/
def R.PWR_STATUS.DEVICE_PL : Field := ⟨0x20008, 0, 3, 0x0, .ro, none⟩
/-- PWR.STATUS.VR_ALERT (R531). -/
def R.PWR_STATUS.VR_ALERT : Field := ⟨0x20008, 3, 4, 0x0, .ro, none⟩
/-- PWR.STATUS.SLACK_SHORT (R531). -/
def R.PWR_STATUS.SLACK_SHORT : Field := ⟨0x20008, 7, 1, 0x0, .ro, none⟩
/-- PWR.STATUS.PEAK_GUARD (R531). -/
def R.PWR_STATUS.PEAK_GUARD : Field := ⟨0x20008, 8, 1, 0x0, .ro, none⟩
/-- PWR.STATUS.POWER_W (R531). -/
def R.PWR_STATUS.POWER_W : Field := ⟨0x20008, 16, 16, 0x0, .ro, none⟩
/-- PWR.STATUS.WINDOW_W (R531). -/
def R.PWR_STATUS.WINDOW_W : Field := ⟨0x20008, 32, 16, 0x0, .ro, none⟩
/-- PWR.STATUS.PHASE_MISMATCHES (R531). -/
def R.PWR_STATUS.PHASE_MISMATCHES : Field := ⟨0x20008, 48, 16, 0x0, .ro, none⟩
/-- PWR.FREQ_CTRL.MAX_MODE (R532). -/
def R.PWR_FREQ_CTRL.MAX_MODE : Field := ⟨0x20010, 0, 16, 0x0, .staged, none⟩
/-- PWR.FREQ_CTRL.DROOP_MV (R532). -/
def R.PWR_FREQ_CTRL.DROOP_MV : Field := ⟨0x20010, 16, 8, 0x28, .staged, some (20, 80)⟩
/-- PWR.FREQ_CTRL.CUR_LIMIT_A (R532). -/
def R.PWR_FREQ_CTRL.CUR_LIMIT_A : Field := ⟨0x20010, 24, 8, 0xa0, .staged, some (80, 160)⟩
/-- PWR.REASONS.ACTIVE (R533). -/
def R.PWR_REASONS.ACTIVE : Field := ⟨0x20018, 0, 8, 0x0, .ro, none⟩
/-- PWR.THROTTLE[r].NS (R533). -/
def R.PWR_THROTTLE.NS (n : Nat) : Field := ⟨0x20040 + 0x8 * n, 0, 64, 0x0, .ro, none⟩
/-- PWR.TILE[n].PL (R534). -/
def R.PWR_TILE.PL (n : Nat) : Field := ⟨0x20100 + 0x8 * n, 0, 3, 0x0, .ro, none⟩
/-- PWR.TILE[n].STRETCH (R534). -/
def R.PWR_TILE.STRETCH (n : Nat) : Field := ⟨0x20100 + 0x8 * n, 3, 1, 0x0, .ro, none⟩
/-- PWR.TILE[n].DROOP_SKIP (R534). -/
def R.PWR_TILE.DROOP_SKIP (n : Nat) : Field := ⟨0x20100 + 0x8 * n, 4, 1, 0x0, .ro, none⟩
/-- PWR.TILE[n].F_SET_MHZ (R534). -/
def R.PWR_TILE.F_SET_MHZ (n : Nat) : Field := ⟨0x20100 + 0x8 * n, 16, 11, 0x44c, .ro, none⟩
/-- PWR.TILE[n].F_MAX_MHZ (R534). -/
def R.PWR_TILE.F_MAX_MHZ (n : Nat) : Field := ⟨0x20100 + 0x8 * n, 32, 11, 0x44c, .ro, none⟩
/-- PWR.TILE[n].CURRENT_A (R534). -/
def R.PWR_TILE.CURRENT_A (n : Nat) : Field := ⟨0x20100 + 0x8 * n, 48, 8, 0x0, .ro, none⟩
/-- PWR.ENERGY[n].UJ (R535). -/
def R.PWR_ENERGY.UJ (n : Nat) : Field := ⟨0x20200 + 0x8 * n, 0, 64, 0x0, .ro, none⟩
/-- PWR.ENERGY_CLASS[n][c].UJ (R535). -/
def R.PWR_ENERGY_CLASS.UJ (n : Nat) (i : Nat) : Field := ⟨0x20300 + 0x20 * n + 0x8 * i, 0, 64, 0x0, .ro, none⟩
/-- THM.CTRL.TILE_THROTTLE_C (R536). -/
def R.THM_CTRL.TILE_THROTTLE_C : Field := ⟨0x21000, 0, 8, 0x64, .live, some (90, 104)⟩
/-- THM.CTRL.STORE_THROTTLE_C (R536). -/
def R.THM_CTRL.STORE_THROTTLE_C : Field := ⟨0x21000, 8, 8, 0x5a, .live, some (85, 99)⟩
/-- THM.EVENTS.EMERGENCIES (R536). -/
def R.THM_EVENTS.EMERGENCIES : Field := ⟨0x21008, 0, 16, 0x0, .ro, none⟩
/-- THM.EVENTS.THROTTLE_ENTRIES (R536). -/
def R.THM_EVENTS.THROTTLE_ENTRIES : Field := ⟨0x21008, 16, 16, 0x0, .ro, none⟩
/-- THM.EVENTS.VR_ALERTS (R536). -/
def R.THM_EVENTS.VR_ALERTS : Field := ⟨0x21008, 32, 16, 0x0, .ro, none⟩
/-- THM.TILE[n].TJ (R537). -/
def R.THM_TILE.TJ (n : Nat) : Field := ⟨0x21100 + 0x8 * n, 0, 8, 0x0, .ro, none⟩
/-- THM.TILE[n].TSTORE (R537). -/
def R.THM_TILE.TSTORE (n : Nat) : Field := ⟨0x21100 + 0x8 * n, 8, 8, 0x0, .ro, none⟩
/-- THM.TILE[n].TILE_THROTTLING (R537). -/
def R.THM_TILE.TILE_THROTTLING (n : Nat) : Field := ⟨0x21100 + 0x8 * n, 16, 1, 0x0, .ro, none⟩
/-- THM.TILE[n].TILE_EMERGENCY (R537). -/
def R.THM_TILE.TILE_EMERGENCY (n : Nat) : Field := ⟨0x21100 + 0x8 * n, 17, 1, 0x0, .ro, none⟩
/-- THM.TILE[n].STORE_THROTTLING (R537). -/
def R.THM_TILE.STORE_THROTTLING (n : Nat) : Field := ⟨0x21100 + 0x8 * n, 18, 1, 0x0, .ro, none⟩
/-- THM.TILE[n].STORE_EMERGENCY (R537). -/
def R.THM_TILE.STORE_EMERGENCY (n : Nat) : Field := ⟨0x21100 + 0x8 * n, 19, 1, 0x0, .ro, none⟩
/-- SEC.STATUS.FW_OK (R564). -/
def R.SEC_STATUS.FW_OK : Field := ⟨0x22000, 0, 1, 0x0, .ro, none⟩
/-- SEC.STATUS.FLOOR_OK (R564). -/
def R.SEC_STATUS.FLOOR_OK : Field := ⟨0x22000, 1, 1, 0x0, .ro, none⟩
/-- SEC.STATUS.CHAR_OK (R564). -/
def R.SEC_STATUS.CHAR_OK : Field := ⟨0x22000, 2, 1, 0x0, .ro, none⟩
/-- SEC.STATUS.PUF_OK (R564). -/
def R.SEC_STATUS.PUF_OK : Field := ⟨0x22000, 3, 1, 0x0, .ro, none⟩
/-- SEC.STATUS.IDENTITY_OK (R564). -/
def R.SEC_STATUS.IDENTITY_OK : Field := ⟨0x22000, 4, 1, 0x0, .ro, none⟩
/-- SEC.STATUS.TRNG_OK (R564). -/
def R.SEC_STATUS.TRNG_OK : Field := ⟨0x22000, 5, 1, 0x0, .ro, none⟩
/-- SEC.STATUS.SESSIONS (R564). -/
def R.SEC_STATUS.SESSIONS : Field := ⟨0x22000, 8, 8, 0x0, .ro, none⟩
/-- SEC.FW.SVN (R565). -/
def R.SEC_FW.SVN : Field := ⟨0x22008, 0, 32, 0x0, .ro, none⟩
/-- SEC.FW.SEQUENCE (R565). -/
def R.SEC_FW.SEQUENCE : Field := ⟨0x22008, 32, 32, 0x0, .ro, none⟩
/-- SEC.FLOOR.FW (R565). -/
def R.SEC_FLOOR.FW : Field := ⟨0x22010, 0, 32, 0x0, .ro, none⟩
/-- SEC.FLOOR.CHAR (R565). -/
def R.SEC_FLOOR.CHAR : Field := ⟨0x22010, 32, 32, 0x0, .ro, none⟩
/-- SEC.PROT.PARTITIONS (R566). -/
def R.SEC_PROT.PARTITIONS : Field := ⟨0x22018, 0, 16, 0x0, .ro, none⟩
/-- SEC.OPEN[n].REGIONS (R567). -/
def R.SEC_OPEN.REGIONS (n : Nat) : Field := ⟨0x22080 + 0x8 * n, 0, 48, 0xffffffffffff, .staged, none⟩
/-- SEC.VIOL[n].HOST (R568). -/
def R.SEC_VIOL.HOST (n : Nat) : Field := ⟨0x22100 + 0x10 * n, 0, 16, 0x0, .ro, none⟩
/-- SEC.VIOL[n].PARTITION (R568). -/
def R.SEC_VIOL.PARTITION (n : Nat) : Field := ⟨0x22100 + 0x10 * n, 16, 16, 0x0, .ro, none⟩
/-- SEC.VIOL[n].OUTBOUND (R568). -/
def R.SEC_VIOL.OUTBOUND (n : Nat) : Field := ⟨0x22100 + 0x10 * n, 32, 16, 0x0, .ro, none⟩
/-- SEC.VIOL_ADDR[n].ADDR (R568). -/
def R.SEC_VIOL_ADDR.ADDR (n : Nat) : Field := ⟨0x22108 + 0x10 * n, 0, 48, 0x0, .ro, none⟩
/-- SEC.VIOL_ADDR[n].VALID (R568). -/
def R.SEC_VIOL_ADDR.VALID (n : Nat) : Field := ⟨0x22108 + 0x10 * n, 48, 1, 0x0, .w1c, none⟩
/-- SEC.VIOL_ADDR[n].WRITE (R568). -/
def R.SEC_VIOL_ADDR.WRITE (n : Nat) : Field := ⟨0x22108 + 0x10 * n, 49, 1, 0x0, .ro, none⟩
/-- SEC.VIOL_ADDR[n].SOURCE (R568). -/
def R.SEC_VIOL_ADDR.SOURCE (n : Nat) : Field := ⟨0x22108 + 0x10 * n, 50, 4, 0x0, .ro, none⟩
/-- SEC.VIOL_ADDR[n].PARTITION (R568). -/
def R.SEC_VIOL_ADDR.PARTITION (n : Nat) : Field := ⟨0x22108 + 0x10 * n, 54, 4, 0x0, .ro, none⟩
/-- GLB.ERR_CTRL.DEGRADE_COUNT (R590). -/
def R.GLB_ERR_CTRL.DEGRADE_COUNT : Field := ⟨0x18, 0, 8, 0x8, .live, some (1, 255)⟩
/-- GLB.ERR_CTRL.LANE_RETRY_LIMIT (R590). -/
def R.GLB_ERR_CTRL.LANE_RETRY_LIMIT : Field := ⟨0x18, 8, 8, 0x10, .live, some (1, 255)⟩
/-- GLB.ERR_CTRL.IRQ_CLASS (R590). -/
def R.GLB_ERR_CTRL.IRQ_CLASS : Field := ⟨0x18, 16, 4, 0x3, .live, some (1, 8)⟩
/-- GLB.ERR_CTRL.IRQ_EN (R590). -/
def R.GLB_ERR_CTRL.IRQ_EN : Field := ⟨0x18, 20, 1, 0x0, .live, none⟩
/-- GLB.ERR_CTRL.LOG_CORRECTED (R590). -/
def R.GLB_ERR_CTRL.LOG_CORRECTED : Field := ⟨0x18, 21, 1, 0x0, .live, none⟩
/-- GLB.ERR_CTRL.FAULT_ON_PARTITION (R590). -/
def R.GLB_ERR_CTRL.FAULT_ON_PARTITION : Field := ⟨0x18, 22, 1, 0x0, .live, none⟩
/-- GLB.ERR_CTRL.DEGRADED_STOP (R590). -/
def R.GLB_ERR_CTRL.DEGRADED_STOP : Field := ⟨0x18, 23, 1, 0x0, .live, none⟩
/-- GLB.ERR_CTRL.IRQ_VECTOR (R590). -/
def R.GLB_ERR_CTRL.IRQ_VECTOR : Field := ⟨0x18, 24, 10, 0x0, .live, none⟩
/-- GLB.ERR_SUMMARY.SEEN (R591). -/
def R.GLB_ERR_SUMMARY.SEEN : Field := ⟨0x20, 0, 8, 0x0, .w1c, none⟩
/-- GLB.ERR_LOG.HEAD (R591). -/
def R.GLB_ERR_LOG.HEAD : Field := ⟨0x28, 0, 6, 0x0, .live, none⟩
/-- GLB.ERR_LOG.TAIL (R591). -/
def R.GLB_ERR_LOG.TAIL : Field := ⟨0x28, 8, 6, 0x0, .ro, none⟩
/-- GLB.ERR_LOG.OVERFLOWS (R591). -/
def R.GLB_ERR_LOG.OVERFLOWS : Field := ⟨0x28, 16, 16, 0x0, .ro, none⟩
/-- GLB.MEMBERSHIP.EPOCH (R593). -/
def R.GLB_MEMBERSHIP.EPOCH : Field := ⟨0x30, 0, 32, 0x0, .ro, none⟩
/-- GLB.MEMBERSHIP.ISSUED (R593). -/
def R.GLB_MEMBERSHIP.ISSUED : Field := ⟨0x30, 32, 32, 0x0, .ro, none⟩
/-- GLB.MEMBER_STATE.STATE (R593). -/
def R.GLB_MEMBER_STATE.STATE : Field := ⟨0x38, 0, 2, 0x0, .ro, none⟩
/-- GLB.INST_HEALTH[i].STATE (R594). -/
def R.GLB_INST_HEALTH.STATE (n : Nat) : Field := ⟨0x100 + 0x8 * n, 0, 2, 0x0, .ro, none⟩
/-- GLB.INST_HEALTH[i].CLEAR (R594). -/
def R.GLB_INST_HEALTH.CLEAR (n : Nat) : Field := ⟨0x100 + 0x8 * n, 2, 1, 0x0, .wo, none⟩
/-- GLB.INST_HEALTH[i].FAIL_RUN (R594). -/
def R.GLB_INST_HEALTH.FAIL_RUN (n : Nat) : Field := ⟨0x100 + 0x8 * n, 8, 8, 0x0, .ro, none⟩
/-- GLB.INST_HEALTH[i].DEGRADE_EVENTS (R594). -/
def R.GLB_INST_HEALTH.DEGRADE_EVENTS (n : Nat) : Field := ⟨0x100 + 0x8 * n, 16, 16, 0x0, .ro, none⟩
/-- GLB.PEER_EPOCH[d].EPOCH (R594). -/
def R.GLB_PEER_EPOCH.EPOCH (n : Nat) : Field := ⟨0x200 + 0x8 * n, 0, 32, 0x0, .ro, none⟩
/-- GLB.PEER_EPOCH[d].VACANT (R594). -/
def R.GLB_PEER_EPOCH.VACANT (n : Nat) : Field := ⟨0x200 + 0x8 * n, 32, 1, 0x0, .ro, none⟩
/-- TILE[n].ENGINE_EPOCH.EPOCH (R595). -/
def R.TILE_ENGINE_EPOCH.EPOCH (n : Nat) : Field := ⟨0x1000030 + 0x100000 * n, 0, 16, 0x1, .ro, none⟩
/-- MGT.SB_STATUS.DYN_ADDR (R612). -/
def R.MGT_SB_STATUS.DYN_ADDR : Field := ⟨0x23000, 0, 7, 0x0, .ro, none⟩
/-- MGT.SB_STATUS.EID (R612). -/
def R.MGT_SB_STATUS.EID : Field := ⟨0x23000, 8, 8, 0x0, .ro, none⟩
/-- MGT.SB_STATUS.STATIC_SEL (R612). -/
def R.MGT_SB_STATUS.STATIC_SEL : Field := ⟨0x23000, 16, 2, 0x0, .ro, none⟩
/-- MGT.SB_CAP.CAP_W (R613). -/
def R.MGT_SB_CAP.CAP_W : Field := ⟨0x23008, 0, 16, 0x0, .ro, none⟩
/-- MGT.FLASH_STATUS.MAP_GENERATION (R614). -/
def R.MGT_FLASH_STATUS.MAP_GENERATION : Field := ⟨0x23010, 0, 32, 0x0, .ro, none⟩
/-- MGT.FLASH_STATUS.RETIRED (R614). -/
def R.MGT_FLASH_STATUS.RETIRED : Field := ⟨0x23010, 32, 10, 0x0, .ro, none⟩
/-- MGT.FLASH_STATUS.POOL_FREE (R614). -/
def R.MGT_FLASH_STATUS.POOL_FREE : Field := ⟨0x23010, 42, 10, 0x0, .ro, none⟩
/-- MGT.FLASH_STATUS.BUSY (R614). -/
def R.MGT_FLASH_STATUS.BUSY : Field := ⟨0x23010, 52, 1, 0x0, .ro, none⟩
/-- MGT.EVLOG_SEL.SEQ (R615). -/
def R.MGT_EVLOG_SEL.SEQ : Field := ⟨0x23018, 0, 32, 0x0, .live, none⟩
/-- MGT.EVLOG_SEL.NEWEST (R615). -/
def R.MGT_EVLOG_SEL.NEWEST : Field := ⟨0x23018, 32, 32, 0x0, .ro, none⟩
/-- MGT.EVLOG_DATA[k].BYTES (R615). -/
def R.MGT_EVLOG_DATA.BYTES (n : Nat) : Field := ⟨0x23020 + 0x8 * n, 0, 64, 0x0, .ro, none⟩

/-- A register, or a family of like registers: its fields, found by address. -/
structure RegClass where
  name : String
  base : Nat
  stride : Nat
  count : Nat
  stride2 : Nat
  count2 : Nat
  fields : Nat → Nat → List Field

/-- The registers of block GLB. -/
def regClassesGLB : List RegClass :=
  [ ⟨"GLB.PART", 0x0, 0x0, 1, 0x0, 1, fun _ _ => [R.GLB_PART.FAMILY, R.GLB_PART.PART, R.GLB_PART.MEMORY_GIB, R.GLB_PART.STEP_MINOR, R.GLB_PART.STEP_MAJOR]⟩,
    ⟨"GLB.READY", 0x8, 0x0, 1, 0x0, 1, fun _ _ => [R.GLB_READY.CXL_CFG, R.GLB_READY.BOOT_OK, R.GLB_READY.MEM_OK, R.GLB_READY.LINKS_OK, R.GLB_READY.MERIDIAN_OK, R.GLB_READY.READY, R.GLB_READY.PART_OK]⟩,
    ⟨"GLB.DEVPOS", 0x10, 0x0, 1, 0x0, 1, fun _ _ => [R.GLB_DEVPOS.POSITION, R.GLB_DEVPOS.GROUP, R.GLB_DEVPOS.ASSIGNED, R.GLB_DEVPOS.LEAD, R.GLB_DEVPOS.SPARE]⟩,
    ⟨"GLB.ERR_CTRL", 0x18, 0x0, 1, 0x0, 1, fun _ _ => [R.GLB_ERR_CTRL.DEGRADE_COUNT, R.GLB_ERR_CTRL.LANE_RETRY_LIMIT, R.GLB_ERR_CTRL.IRQ_CLASS, R.GLB_ERR_CTRL.IRQ_EN, R.GLB_ERR_CTRL.LOG_CORRECTED, R.GLB_ERR_CTRL.FAULT_ON_PARTITION, R.GLB_ERR_CTRL.DEGRADED_STOP, R.GLB_ERR_CTRL.IRQ_VECTOR]⟩,
    ⟨"GLB.ERR_SUMMARY", 0x20, 0x0, 1, 0x0, 1, fun _ _ => [R.GLB_ERR_SUMMARY.SEEN]⟩,
    ⟨"GLB.ERR_LOG", 0x28, 0x0, 1, 0x0, 1, fun _ _ => [R.GLB_ERR_LOG.HEAD, R.GLB_ERR_LOG.TAIL, R.GLB_ERR_LOG.OVERFLOWS]⟩,
    ⟨"GLB.MEMBERSHIP", 0x30, 0x0, 1, 0x0, 1, fun _ _ => [R.GLB_MEMBERSHIP.EPOCH, R.GLB_MEMBERSHIP.ISSUED]⟩,
    ⟨"GLB.MEMBER_STATE", 0x38, 0x0, 1, 0x0, 1, fun _ _ => [R.GLB_MEMBER_STATE.STATE]⟩,
    ⟨"GLB.INST_HEALTH", 0x100, 0x8, 16, 0x0, 1, fun n _ => [R.GLB_INST_HEALTH.STATE n, R.GLB_INST_HEALTH.CLEAR n, R.GLB_INST_HEALTH.FAIL_RUN n, R.GLB_INST_HEALTH.DEGRADE_EVENTS n]⟩,
    ⟨"GLB.PEER_EPOCH", 0x200, 0x8, 64, 0x0, 1, fun n _ => [R.GLB_PEER_EPOCH.EPOCH n, R.GLB_PEER_EPOCH.VACANT n]⟩ ]

/-- The registers of block MRD. -/
def regClassesMRD : List RegClass :=
  [ ⟨"MRD.TIME", 0x1000, 0x0, 1, 0x0, 1, fun _ _ => [R.MRD_TIME.TIME]⟩,
    ⟨"MRD.STATUS", 0x1008, 0x0, 1, 0x0, 1, fun _ _ => [R.MRD_STATUS.STATE, R.MRD_STATUS.CLK_PRESENT, R.MRD_STATUS.MARK_PRESENT, R.MRD_STATUS.TOD_VALID, R.MRD_STATUS.MISSED_MARKS, R.MRD_STATUS.LAST_PHASE_ERR]⟩,
    ⟨"MRD.LAST_MARK", 0x1010, 0x0, 1, 0x0, 1, fun _ _ => [R.MRD_LAST_MARK.LAST_MARK]⟩,
    ⟨"MRD.CTRL", 0x1018, 0x0, 1, 0x0, 1, fun _ _ => [R.MRD_CTRL.HOLDOVER_MARKS, R.MRD_CTRL.PHASE_TOL_NS]⟩,
    ⟨"MRD.COUNTS", 0x1020, 0x0, 1, 0x0, 1, fun _ _ => [R.MRD_COUNTS.LOCK_LOSSES, R.MRD_COUNTS.PHASE_EXCURSIONS, R.MRD_COUNTS.HOLDOVER_ENTRIES, R.MRD_COUNTS.TOD_MISMATCHES]⟩ ]

/-- The registers of block FRW. -/
def regClassesFRW : List RegClass :=
  [ ⟨"FRW.STATE", 0x2000, 0x0, 1, 0x0, 1, fun _ _ => [R.FRW_STATE.STATE, R.FRW_STATE.LATE_SELF, R.FRW_STATE.LATE_GROUP, R.FRW_STATE.HEADLAND, R.FRW_STATE.STOP_PENDING]⟩,
    ⟨"FRW.FURROW_NUM", 0x2008, 0x0, 1, 0x0, 1, fun _ _ => [R.FRW_FURROW_NUM.FURROW_NUM]⟩,
    ⟨"FRW.START_TIME", 0x2010, 0x0, 1, 0x0, 1, fun _ _ => [R.FRW_START_TIME.START_TIME]⟩,
    ⟨"FRW.PLAN", 0x2018, 0x0, 1, 0x0, 1, fun _ _ => [R.FRW_PLAN.ACTIVE_ID, R.FRW_PLAN.STAGED_ID]⟩,
    ⟨"FRW.TIMING", 0x2020, 0x0, 1, 0x0, 1, fun _ _ => [R.FRW_TIMING.PERIOD_NS, R.FRW_TIMING.HEADLAND_NS]⟩,
    ⟨"FRW.LATE", 0x2028, 0x0, 1, 0x0, 1, fun _ _ => [R.FRW_LATE.LATE_OFFSET_NS, R.FRW_LATE.TEMPLATE, R.FRW_LATE.CYCLE_LEN]⟩,
    ⟨"FRW.CTRL", 0x2030, 0x0, 1, 0x0, 1, fun _ _ => [R.FRW_CTRL.FALLOW_LIMIT, R.FRW_CTRL.MISSING_BEACON_LIMIT]⟩,
    ⟨"FRW.EVENTS0", 0x2038, 0x0, 1, 0x0, 1, fun _ _ => [R.FRW_EVENTS0.FALLOW_COUNT, R.FRW_EVENTS0.LATE_SELF_COUNT]⟩,
    ⟨"FRW.EVENTS1", 0x2040, 0x0, 1, 0x0, 1, fun _ _ => [R.FRW_EVENTS1.ABANDONED_STEPS, R.FRW_EVENTS1.HEADLAND_SHORT]⟩,
    ⟨"FRW.EVENTS2", 0x2048, 0x0, 1, 0x0, 1, fun _ _ => [R.FRW_EVENTS2.DAWN_BOUND_BREAKS, R.FRW_EVENTS2.MISSING_BEACONS, R.FRW_EVENTS2.LATE_SENDS]⟩,
    ⟨"FRW.SLACK", 0x2050, 0x0, 1, 0x0, 1, fun _ _ => [R.FRW_SLACK.LAST_SLACK_NS, R.FRW_SLACK.MIN_SLACK_NS, R.FRW_SLACK.TEMPLATE_RESYNCS]⟩ ]

/-- The registers of block QUE. -/
def regClassesQUE : List RegClass :=
  [ ⟨"QUE.CTRL", 0x10000, 0x0, 1, 0x0, 1, fun _ _ => [R.QUE_CTRL.MODE]⟩,
    ⟨"QUE.SEQ_COUNT", 0x10008, 0x0, 1, 0x0, 1, fun _ _ => [R.QUE_SEQ_COUNT.DAWN_ADMITTED, R.QUE_SEQ_COUNT.NOON_RUNNABLE, R.QUE_SEQ_COUNT.DUSK_RUNNABLE, R.QUE_SEQ_COUNT.INGESTING]⟩,
    ⟨"QUE.LANE_USE", 0x10010, 0x0, 1, 0x0, 1, fun _ _ => [R.QUE_LANE_USE.DAWN, R.QUE_LANE_USE.NOON, R.QUE_LANE_USE.DUSK, R.QUE_LANE_USE.GLEAN, R.QUE_LANE_USE.EMPTY, R.QUE_LANE_USE.DISCARDED]⟩,
    ⟨"QUE.REJECTS", 0x10018, 0x0, 1, 0x0, 1, fun _ _ => [R.QUE_REJECTS.DEADLINE, R.QUE_REJECTS.CLASS_FULL, R.QUE_REJECTS.LATE_RETIRE, R.QUE_REJECTS.RING_FULL]⟩,
    ⟨"QUE.TENANT_SEL", 0x10020, 0x0, 1, 0x0, 1, fun _ _ => [R.QUE_TENANT_SEL.TENANT]⟩,
    ⟨"QUE.TENANT_STATE", 0x10028, 0x0, 1, 0x0, 1, fun _ _ => [R.QUE_TENANT_STATE.OPEN_SEQS, R.QUE_TENANT_STATE.RUNNABLE, R.QUE_TENANT_STATE.DEFICIT_OR_CREDIT, R.QUE_TENANT_STATE.DAWN_BOUND, R.QUE_TENANT_STATE.PRESENT]⟩,
    ⟨"QUE.SQ_BASE", 0x10100, 0x20, 16, 0x0, 1, fun n _ => [R.QUE_SQ_BASE.BASE n]⟩,
    ⟨"QUE.CQ_BASE", 0x10110, 0x20, 16, 0x0, 1, fun n _ => [R.QUE_CQ_BASE.BASE n]⟩,
    ⟨"QUE.TR_BASE", 0x11000, 0x10, 256, 0x0, 1, fun n _ => [R.QUE_TR_BASE.BASE n]⟩,
    ⟨"QUE.SQ_CTRL", 0x10108, 0x20, 16, 0x0, 1, fun n _ => [R.QUE_SQ_CTRL.ENABLE n, R.QUE_SQ_CTRL.TENANT n, R.QUE_SQ_CTRL.SIZE_CODE n, R.QUE_SQ_CTRL.INDEX n, R.QUE_SQ_CTRL.ADMIN n]⟩,
    ⟨"QUE.CQ_CTRL", 0x10118, 0x20, 16, 0x0, 1, fun n _ => [R.QUE_CQ_CTRL.ENABLE n, R.QUE_CQ_CTRL.IRQ_EN n, R.QUE_CQ_CTRL.SIZE_CODE n, R.QUE_CQ_CTRL.INDEX n, R.QUE_CQ_CTRL.IRQ_VECTOR n]⟩,
    ⟨"QUE.TR_CTRL", 0x11008, 0x10, 256, 0x0, 1, fun n _ => [R.QUE_TR_CTRL.ENABLE n, R.QUE_TR_CTRL.IRQ_EN n, R.QUE_TR_CTRL.TENANT n, R.QUE_TR_CTRL.SIZE_CODE n, R.QUE_TR_CTRL.INDEX n, R.QUE_TR_CTRL.IRQ_VECTOR n]⟩,
    ⟨"QUE.RING_ERRORS", 0x10030, 0x0, 1, 0x0, 1, fun _ _ => [R.QUE_RING_ERRORS.DOORBELL_RANGE, R.QUE_RING_ERRORS.CQ_FULL_STALLS, R.QUE_RING_ERRORS.FETCH_ERRORS]⟩ ]

/-- The registers of block CFG. -/
def regClassesCFG : List RegClass :=
  [ ⟨"CFG.CTRL", 0x3000, 0x0, 1, 0x0, 1, fun _ _ => [R.CFG_CTRL.ENFORCE]⟩,
    ⟨"CFG.STATUS", 0x3008, 0x0, 1, 0x0, 1, fun _ _ => [R.CFG_STATUS.ACTIVE_EPOCH, R.CFG_STATUS.STAGED_DIRTY, R.CFG_STATUS.LOCKED, R.CFG_STATUS.DIVERGENT]⟩,
    ⟨"CFG.DIGEST", 0x3010, 0x0, 1, 0x0, 1, fun _ _ => [R.CFG_DIGEST.ACTIVE_DIGEST]⟩,
    ⟨"CFG.PENDING", 0x3018, 0x0, 1, 0x0, 1, fun _ _ => [R.CFG_PENDING.TARGET_EPOCH]⟩,
    ⟨"CFG.PENDING_FURROW", 0x3020, 0x0, 1, 0x0, 1, fun _ _ => [R.CFG_PENDING_FURROW.TARGET_FURROW]⟩,
    ⟨"CFG.COUNTS", 0x3028, 0x0, 1, 0x0, 1, fun _ _ => [R.CFG_COUNTS.CONFLICTS, R.CFG_COUNTS.ABORTS, R.CFG_COUNTS.DIVERGENCES]⟩ ]

/-- The registers of block TILE. -/
def regClassesTILE : List RegClass :=
  [ ⟨"TILE.SEQ_CTRL", 0x1000000, 0x100000, 16, 0x0, 1, fun n _ => [R.TILE_SEQ_CTRL.MODE n, R.TILE_SEQ_CTRL.GO n]⟩,
    ⟨"TILE.SEQ_STATUS", 0x1000008, 0x100000, 16, 0x0, 1, fun n _ => [R.TILE_SEQ_STATUS.STATE n, R.TILE_SEQ_STATUS.FAILED n, R.TILE_SEQ_STATUS.ABANDONED n, R.TILE_SEQ_STATUS.LIST_INDEX n, R.TILE_SEQ_STATUS.FAIL_INDEX n, R.TILE_SEQ_STATUS.FAIL_STATUS n]⟩,
    ⟨"TILE.ENGINE_MAP", 0x1000010, 0x100000, 16, 0x0, 1, fun n _ => [R.TILE_ENGINE_MAP.PHYS n, R.TILE_ENGINE_MAP.SPARE n, R.TILE_ENGINE_MAP.DOUBLED n]⟩,
    ⟨"TILE.SPARE_REQ", 0x1000018, 0x100000, 16, 0x0, 1, fun n _ => [R.TILE_SPARE_REQ.LOGICAL n, R.TILE_SPARE_REQ.GO n]⟩,
    ⟨"TILE.DIRECT_LIST", 0x1000020, 0x100000, 16, 0x0, 1, fun n _ => [R.TILE_DIRECT_LIST.ADDR n, R.TILE_DIRECT_LIST.COUNT n]⟩,
    ⟨"TILE.SEQ_COUNTS", 0x1000028, 0x100000, 16, 0x0, 1, fun n _ => [R.TILE_SEQ_COUNTS.FAILED_STEPS n, R.TILE_SEQ_COUNTS.REFETCHES n, R.TILE_SEQ_COUNTS.FENCED_WRITES n, R.TILE_SEQ_COUNTS.LATE_WAITS n]⟩,
    ⟨"TILE.EVENT", 0x1000100, 0x100000, 16, 0x8, 32, fun n i => [R.TILE_EVENT.VALUE n i]⟩,
    ⟨"TILE.SCALAR", 0x1001000, 0x100000, 16, 0x8, 256, fun n i => [R.TILE_SCALAR.VALUE n i]⟩,
    ⟨"TILE.MAT_SAT", 0x1000200, 0x100000, 16, 0x8, 8, fun n i => [R.TILE_MAT_SAT.SLOTS n i]⟩,
    ⟨"TILE.MAT_FPEXC", 0x1000240, 0x100000, 16, 0x8, 8, fun n i => [R.TILE_MAT_FPEXC.SLOTS n i]⟩,
    ⟨"TILE.MAT_COUNTS", 0x1000280, 0x100000, 16, 0x8, 8, fun n i => [R.TILE_MAT_COUNTS.SAT_WRITEOUTS n i, R.TILE_MAT_COUNTS.FPEXC_WRITEOUTS n i, R.TILE_MAT_COUNTS.ACC_CORRECTED n i, R.TILE_MAT_COUNTS.CHAIN_LINKS n i]⟩,
    ⟨"TILE.MAT_STALLS", 0x10002c0, 0x100000, 16, 0x8, 8, fun n i => [R.TILE_MAT_STALLS.OPERAND_STALLS n i, R.TILE_MAT_STALLS.SLOT_WAITS n i]⟩,
    ⟨"TILE.MAT_FAULT", 0x1000300, 0x100000, 16, 0x0, 1, fun n _ => [R.TILE_MAT_FAULT.LOGICAL n, R.TILE_MAT_FAULT.VALID n, R.TILE_MAT_FAULT.PHYS n, R.TILE_MAT_FAULT.CAUSE n, R.TILE_MAT_FAULT.SLOT n, R.TILE_MAT_FAULT.LIST_INDEX n]⟩,
    ⟨"TILE.SCALE_CTRL", 0x1000310, 0x100000, 16, 0x0, 1, fun n _ => [R.TILE_SCALE_CTRL.THRESHOLD n, R.TILE_SCALE_CTRL.ADAPT_EN n]⟩,
    ⟨"TILE.SCALE_ADAPTS", 0x1000318, 0x100000, 16, 0x0, 1, fun n _ => [R.TILE_SCALE_ADAPTS.ADAPTATIONS n, R.TILE_SCALE_ADAPTS.AT_LIMIT n]⟩,
    ⟨"TILE.RESCALE_COUNTS", 0x1000320, 0x100000, 16, 0x0, 1, fun n _ => [R.TILE_RESCALE_COUNTS.Y_SATURATIONS n, R.TILE_RESCALE_COUNTS.NONFINITE_ROWS n]⟩,
    ⟨"TILE.SCALE_REG", 0x1008000, 0x100000, 16, 0x8, 4096, fun n i => [R.TILE_SCALE_REG.MULT n i, R.TILE_SCALE_REG.SHIFT n i, R.TILE_SCALE_REG.EXP n i, R.TILE_SCALE_REG.WIDEN n i, R.TILE_SCALE_REG.SAT_COUNT n i]⟩,
    ⟨"TILE.VEC_STALLS", 0x1000400, 0x100000, 16, 0x0, 1, fun n _ => [R.TILE_VEC_STALLS.OPERAND_STALLS n, R.TILE_VEC_STALLS.ATTEND_CLOCKS n]⟩,
    ⟨"TILE.VEC_COUNTS", 0x1000408, 0x100000, 16, 0x0, 1, fun n _ => [R.TILE_VEC_COUNTS.TABLE_FAULTS n, R.TILE_VEC_COUNTS.OVERLAP_FAULTS n, R.TILE_VEC_COUNTS.WORD_FAULTS n]⟩,
    ⟨"TILE.DRILL_COUNTS", 0x1000410, 0x100000, 16, 0x0, 1, fun n _ => [R.TILE_DRILL_COUNTS.NAN_LOGITS n, R.TILE_DRILL_COUNTS.EMPTY_LANES n, R.TILE_DRILL_COUNTS.TOPP_TRUNCATED n, R.TILE_DRILL_COUNTS.PENALTY_FULL n]⟩,
    ⟨"TILE.DRILL_LAST", 0x1000418, 0x100000, 16, 0x0, 1, fun n _ => [R.TILE_DRILL_LAST.TOKEN n, R.TILE_DRILL_LAST.LANE n, R.TILE_DRILL_LAST.LANE_SET n, R.TILE_DRILL_LAST.VALID n, R.TILE_DRILL_LAST.GREEDY n]⟩,
    ⟨"TILE.HARROW_PLOTS", 0x1000500, 0x100000, 16, 0x8, 8, fun n i => [R.TILE_HARROW_PLOTS.CODED n i, R.TILE_HARROW_PLOTS.RAW n i]⟩,
    ⟨"TILE.HARROW_DAMAGE", 0x1000540, 0x100000, 16, 0x8, 8, fun n i => [R.TILE_HARROW_DAMAGE.CRC n i, R.TILE_HARROW_DAMAGE.FORMAT n i, R.TILE_HARROW_DAMAGE.CODE n i, R.TILE_HARROW_DAMAGE.TABLE_LOADS n i]⟩,
    ⟨"TILE.PLOT_FAULT", 0x1000580, 0x100000, 16, 0x0, 1, fun n _ => [R.TILE_PLOT_FAULT.LOGICAL n, R.TILE_PLOT_FAULT.VALID n, R.TILE_PLOT_FAULT.CAUSE n, R.TILE_PLOT_FAULT.MASTER n, R.TILE_PLOT_FAULT.LIST_INDEX n, R.TILE_PLOT_FAULT.INDEX n]⟩,
    ⟨"TILE.PLOT_FAULT_ADDR", 0x1000588, 0x100000, 16, 0x0, 1, fun n _ => [R.TILE_PLOT_FAULT_ADDR.ADDR n]⟩,
    ⟨"TILE.KV_POOL_TS", 0x1000600, 0x100000, 16, 0x0, 1, fun n _ => [R.TILE_KV_POOL_TS.BASE n, R.TILE_KV_POOL_TS.GRANULES n]⟩,
    ⟨"TILE.KV_POOL_ST", 0x1000608, 0x100000, 16, 0x0, 1, fun n _ => [R.TILE_KV_POOL_ST.BASE n, R.TILE_KV_POOL_ST.GRANULES n]⟩,
    ⟨"TILE.KV_POOL_FAR", 0x1000610, 0x100000, 16, 0x0, 1, fun n _ => [R.TILE_KV_POOL_FAR.BASE n, R.TILE_KV_POOL_FAR.GRANULES n]⟩,
    ⟨"TILE.KV_REF", 0x1000618, 0x100000, 16, 0x0, 1, fun n _ => [R.TILE_KV_REF.ADDR n]⟩,
    ⟨"TILE.ATTN_COUNTS", 0x1000620, 0x100000, 16, 0x0, 1, fun n _ => [R.TILE_ATTN_COUNTS.LAB_HITS n, R.TILE_ATTN_COUNTS.LAB_MISSES n]⟩,
    ⟨"TILE.KV_COUNTS", 0x1000628, 0x100000, 16, 0x0, 1, fun n _ => [R.TILE_KV_COUNTS.MISS_LANES n, R.TILE_KV_COUNTS.DAMAGED_PLOTS n, R.TILE_KV_COUNTS.COW_COPIES n, R.TILE_KV_COUNTS.NONFINITE_BLOCKS n]⟩,
    ⟨"TILE.KV_TIER_COUNTS", 0x1000630, 0x100000, 16, 0x0, 1, fun n _ => [R.TILE_KV_TIER_COUNTS.FLUSHES n, R.TILE_KV_TIER_COUNTS.SPILLS n, R.TILE_KV_TIER_COUNTS.PREFETCHES n]⟩,
    ⟨"TILE.KV_FAULT", 0x1000638, 0x100000, 16, 0x0, 1, fun n _ => [R.TILE_KV_FAULT.CAUSE n, R.TILE_KV_FAULT.VALID n, R.TILE_KV_FAULT.LANE n, R.TILE_KV_FAULT.LANE_SET n, R.TILE_KV_FAULT.LAYER n, R.TILE_KV_FAULT.KV_HEAD n, R.TILE_KV_FAULT.INDEX n]⟩,
    ⟨"TILE.KV_FAULT_ADDR", 0x1000640, 0x100000, 16, 0x0, 1, fun n _ => [R.TILE_KV_FAULT_ADDR.ADDR n]⟩,
    ⟨"TILE.ENGINE_EPOCH", 0x1000030, 0x100000, 16, 0x0, 1, fun n _ => [R.TILE_ENGINE_EPOCH.EPOCH n]⟩ ]

/-- The registers of block TSTORE. -/
def regClassesTSTORE : List RegClass :=
  [ ⟨"TSTORE.GRANARY", 0x2000000, 0x10000, 16, 0x0, 1, fun n _ => [R.TSTORE_GRANARY.SIZE n]⟩,
    ⟨"TSTORE.SEG_POWER", 0x2000008, 0x10000, 16, 0x0, 1, fun n _ => [R.TSTORE_SEG_POWER.TS n, R.TSTORE_SEG_POWER.SP n]⟩,
    ⟨"TSTORE.SEG_STATUS", 0x2000010, 0x10000, 16, 0x0, 1, fun n _ => [R.TSTORE_SEG_STATUS.TS n, R.TSTORE_SEG_STATUS.SP n]⟩,
    ⟨"TSTORE.ECC_COUNTS", 0x2000018, 0x10000, 16, 0x0, 1, fun n _ => [R.TSTORE_ECC_COUNTS.TS_CORRECTED n, R.TSTORE_ECC_COUNTS.TS_POISONED n, R.TSTORE_ECC_COUNTS.SP_CORRECTED n, R.TSTORE_ECC_COUNTS.SP_POISONED n]⟩,
    ⟨"TSTORE.ECC_FAULT", 0x2000020, 0x10000, 16, 0x0, 1, fun n _ => [R.TSTORE_ECC_FAULT.ADDR n, R.TSTORE_ECC_FAULT.VALID n, R.TSTORE_ECC_FAULT.MEMORY n, R.TSTORE_ECC_FAULT.SOURCE n]⟩,
    ⟨"TSTORE.GRANARY_COUNTS", 0x2000028, 0x10000, 16, 0x0, 1, fun n _ => [R.TSTORE_GRANARY_COUNTS.HITS n, R.TSTORE_GRANARY_COUNTS.MISSES n]⟩,
    ⟨"TSTORE.GRANARY_EVENTS", 0x2000030, 0x10000, 16, 0x0, 1, fun n _ => [R.TSTORE_GRANARY_EVENTS.WRITEBACKS n, R.TSTORE_GRANARY_EVENTS.ATOMICS n]⟩,
    ⟨"TSTORE.BANK_STALLS", 0x2000040, 0x10000, 16, 0x0, 1, fun n _ => [R.TSTORE_BANK_STALLS.TS_CONFLICTS n, R.TSTORE_BANK_STALLS.SP_CONFLICTS n]⟩,
    ⟨"TSTORE.ATOM_EVENTS", 0x2000038, 0x10000, 16, 0x0, 1, fun n _ => [R.TSTORE_ATOM_EVENTS.REF_UNDERFLOW n, R.TSTORE_ATOM_EVENTS.REF_OVERFLOW n, R.TSTORE_ATOM_EVENTS.ATOM_REFUSED n, R.TSTORE_ATOM_EVENTS.SEG_REFUSED n]⟩,
    ⟨"TSTORE.WAKE_COUNTS", 0x2000048, 0x10000, 16, 0x0, 1, fun n _ => [R.TSTORE_WAKE_COUNTS.WAKES n, R.TSTORE_WAKE_COUNTS.OFF_ACCESSES n]⟩,
    ⟨"TSTORE.ATOM_ADDR", 0x2000200, 0x10000, 16, 0x40, 4, fun n i => [R.TSTORE_ATOM_ADDR.ADDR n i]⟩,
    ⟨"TSTORE.ATOM_DATA", 0x2000208, 0x10000, 16, 0x40, 4, fun n i => [R.TSTORE_ATOM_DATA.VALUE n i]⟩,
    ⟨"TSTORE.ATOM_CMP", 0x2000210, 0x10000, 16, 0x40, 4, fun n i => [R.TSTORE_ATOM_CMP.VALUE n i]⟩,
    ⟨"TSTORE.ATOM_RESULT", 0x2000220, 0x10000, 16, 0x40, 4, fun n i => [R.TSTORE_ATOM_RESULT.VALUE n i]⟩,
    ⟨"TSTORE.ATOM_CMD", 0x2000218, 0x10000, 16, 0x40, 4, fun n i => [R.TSTORE_ATOM_CMD.OP n i, R.TSTORE_ATOM_CMD.SIZE n i, R.TSTORE_ATOM_CMD.GO n i]⟩,
    ⟨"TSTORE.ATOM_STATUS", 0x2000228, 0x10000, 16, 0x40, 4, fun n i => [R.TSTORE_ATOM_STATUS.DONE n i, R.TSTORE_ATOM_STATUS.ZERO n i, R.TSTORE_ATOM_STATUS.WAS_ZERO n i, R.TSTORE_ATOM_STATUS.SUCCESS n i, R.TSTORE_ATOM_STATUS.REFUSED n i, R.TSTORE_ATOM_STATUS.CAUSE n i]⟩ ]

/-- The registers of block STACK. -/
def regClassesSTACK : List RegClass :=
  [ ⟨"STACK.REGION_MODE", 0x3000000, 0x1000, 16, 0x0, 1, fun n _ => [R.STACK_REGION_MODE.UNIT_LOCAL n]⟩,
    ⟨"STACK.REFRESH", 0x3000008, 0x1000, 16, 0x0, 1, fun n _ => [R.STACK_REFRESH.PULLIN_MAX n, R.STACK_REFRESH.HOT n]⟩,
    ⟨"STACK.THERM", 0x3000010, 0x1000, 16, 0x0, 1, fun n _ => [R.STACK_THERM.TEMP n, R.STACK_THERM.THROTTLE_C n, R.STACK_THERM.THROTTLING n, R.STACK_THERM.EMERGENCY n]⟩,
    ⟨"STACK.LANE_STATUS", 0x3000018, 0x1000, 16, 0x0, 1, fun n _ => [R.STACK_LANE_STATUS.SPARES_USED n, R.STACK_LANE_STATUS.ERASED_LANES n]⟩,
    ⟨"STACK.ECC_COUNTS", 0x3000020, 0x1000, 16, 0x0, 1, fun n _ => [R.STACK_ECC_COUNTS.CORRECTED n, R.STACK_ECC_COUNTS.UNCORRECTABLE n, R.STACK_ECC_COUNTS.LANE_MARKS n]⟩,
    ⟨"STACK.ECC_FAULT", 0x3000028, 0x1000, 16, 0x0, 1, fun n _ => [R.STACK_ECC_FAULT.ADDR n, R.STACK_ECC_FAULT.VALID n, R.STACK_ECC_FAULT.PC n]⟩,
    ⟨"STACK.REFRESH_COUNTS", 0x3000030, 0x1000, 16, 0x0, 1, fun n _ => [R.STACK_REFRESH_COUNTS.FORCED n, R.STACK_REFRESH_COUNTS.CATCH_UP n]⟩,
    ⟨"STACK.ARB_COUNTS", 0x3000038, 0x1000, 16, 0x0, 1, fun n _ => [R.STACK_ARB_COUNTS.ATOMS n, R.STACK_ARB_COUNTS.HOST_WAIT_MAX_NS n, R.STACK_ARB_COUNTS.HOST_DEFERRED n]⟩,
    ⟨"STACK.TG_REGIONS", 0x3000040, 0x1000, 16, 0x0, 1, fun n _ => [R.STACK_TG_REGIONS.ALLOW n]⟩,
    ⟨"STACK.TG_RESULT", 0x3000048, 0x1000, 16, 0x0, 1, fun n _ => [R.STACK_TG_RESULT.MISMATCHES n, R.STACK_TG_RESULT.UNCORRECTABLE n, R.STACK_TG_RESULT.FIRST_PC n, R.STACK_TG_RESULT.VALID n]⟩ ]

/-- The registers of block NBU. -/
def regClassesNBU : List RegClass :=
  [ ⟨"NBU.BUSY", 0x3100000, 0x1000, 16, 0x0, 1, fun n _ => [R.NBU_BUSY.UNITS n]⟩,
    ⟨"NBU.UNIT_OK", 0x3100018, 0x1000, 16, 0x0, 1, fun n _ => [R.NBU_UNIT_OK.UNITS n]⟩,
    ⟨"NBU.FAULT", 0x3100008, 0x1000, 16, 0x0, 1, fun n _ => [R.NBU_FAULT.UNIT n, R.NBU_FAULT.VALID n, R.NBU_FAULT.CAUSE n, R.NBU_FAULT.ATOM n, R.NBU_FAULT.LIST_INDEX n]⟩,
    ⟨"NBU.COUNTS", 0x3100010, 0x1000, 16, 0x0, 1, fun n _ => [R.NBU_COUNTS.PLOT_RETRIES n, R.NBU_COUNTS.RESULT_RESENDS n, R.NBU_COUNTS.SAT_RESULTS n, R.NBU_COUNTS.FAILED_DESCRIPTORS n]⟩ ]

/-- The registers of block LINK. -/
def regClassesLINK : List RegClass :=
  [ ⟨"LINK.CTRL", 0x40000, 0x1000, 24, 0x0, 1, fun n _ => [R.LINK_CTRL.ENABLE n, R.LINK_CTRL.MODE n]⟩,
    ⟨"LINK.STATUS", 0x40008, 0x1000, 24, 0x0, 1, fun n _ => [R.LINK_STATUS.STATE n, R.LINK_STATUS.DOUBLED n, R.LINK_STATUS.PEER_PORT n, R.LINK_STATUS.PEER_VALID n, R.LINK_STATUS.RTT_NS n]⟩,
    ⟨"LINK.PEER", 0x40010, 0x1000, 24, 0x0, 1, fun n _ => [R.LINK_PEER.SERIAL n]⟩,
    ⟨"LINK.COUNTS0", 0x40018, 0x1000, 24, 0x0, 1, fun n _ => [R.LINK_COUNTS0.CORRECTED_SYMBOLS n, R.LINK_COUNTS0.UNCORRECTABLE n, R.LINK_COUNTS0.REPLAYS n]⟩,
    ⟨"LINK.COUNTS1", 0x40020, 0x1000, 24, 0x0, 1, fun n _ => [R.LINK_COUNTS1.NAKS_SENT n, R.LINK_COUNTS1.DEFERRED n, R.LINK_COUNTS1.EPOCH_DROPS n, R.LINK_COUNTS1.TAG_FAILS n]⟩,
    ⟨"LINK.COUNTS2", 0x40028, 0x1000, 24, 0x0, 1, fun n _ => [R.LINK_COUNTS2.BUFFER_OVERFLOWS n, R.LINK_COUNTS2.POISON_RECEIVED n, R.LINK_COUNTS2.SLOT_MISMATCH n, R.LINK_COUNTS2.RETRAINS n]⟩,
    ⟨"LINK.TEST_RESULT", 0x40030, 0x1000, 24, 0x0, 1, fun n _ => [R.LINK_TEST_RESULT.ERRORS n, R.LINK_TEST_RESULT.ERRORED_LANES n, R.LINK_TEST_RESULT.VALID n]⟩ ]

/-- The registers of block CXLU. -/
def regClassesCXLU : List RegClass :=
  [ ⟨"CXLU.STATUS", 0x30000, 0x0, 1, 0x0, 1, fun _ _ => [R.CXLU_STATUS.LINK_UP, R.CXLU_STATUS.WIDTH, R.CXLU_STATUS.SPEED, R.CXLU_STATUS.IDE_IO, R.CXLU_STATUS.IDE_CM, R.CXLU_STATUS.SKID, R.CXLU_STATUS.BUS_MASTER]⟩,
    ⟨"CXLU.CTRL", 0x30008, 0x0, 1, 0x0, 1, fun _ _ => [R.CXLU_CTRL.IRQ_HOLDOFF_NS, R.CXLU_CTRL.IDE_REQUIRED]⟩,
    ⟨"CXLU.MEM_COUNTS", 0x30010, 0x0, 1, 0x0, 1, fun _ _ => [R.CXLU_MEM_COUNTS.READS, R.CXLU_MEM_COUNTS.WRITES]⟩,
    ⟨"CXLU.MEM_LAT", 0x30018, 0x0, 1, 0x0, 1, fun _ _ => [R.CXLU_MEM_LAT.MAX_READ_NS, R.CXLU_MEM_LAT.MAX_WRITE_NS, R.CXLU_MEM_LAT.OVER_BOUND]⟩,
    ⟨"CXLU.ERRORS", 0x30020, 0x0, 1, 0x0, 1, fun _ _ => [R.CXLU_ERRORS.WINDOW_WRITES, R.CXLU_ERRORS.NONLEAD_DOORBELLS, R.CXLU_ERRORS.DISCARDED_RECORDS, R.CXLU_ERRORS.LINK_DOWNS]⟩ ]

/-- The registers of block CXLD. -/
def regClassesCXLD : List RegClass :=
  [ ⟨"CXLD.CTRL", 0x31000, 0x0, 1, 0x0, 1, fun _ _ => [R.CXLD_CTRL.BIFURCATE, R.CXLD_CTRL.IDE_REQUIRED]⟩,
    ⟨"CXLD.PORT", 0x31008, 0x8, 2, 0x0, 1, fun n _ => [R.CXLD_PORT.LINK_UP n, R.CXLD_PORT.WIDTH n, R.CXLD_PORT.SPEED n, R.CXLD_PORT.FLIT256 n, R.CXLD_PORT.IDE n, R.CXLD_PORT.USABLE n]⟩,
    ⟨"CXLD.EXP", 0x31018, 0x8, 2, 0x0, 1, fun n _ => [R.CXLD_EXP.MAPPED_GIB n, R.CXLD_EXP.MAPPED n, R.CXLD_EXP.BASE_GIB n]⟩,
    ⟨"CXLD.COUNTS", 0x31028, 0x0, 1, 0x0, 1, fun _ _ => [R.CXLD_COUNTS.POISON_READS, R.CXLD_COUNTS.LINK_DOWNS, R.CXLD_COUNTS.UNUSABLE]⟩ ]

/-- The registers of block PWR. -/
def regClassesPWR : List RegClass :=
  [ ⟨"PWR.CTRL", 0x20000, 0x0, 1, 0x0, 1, fun _ _ => [R.PWR_CTRL.CAP_W, R.PWR_CTRL.LEARN_EN, R.PWR_CTRL.PREPOS_EN, R.PWR_CTRL.GUARD_MV]⟩,
    ⟨"PWR.STATUS", 0x20008, 0x0, 1, 0x0, 1, fun _ _ => [R.PWR_STATUS.DEVICE_PL, R.PWR_STATUS.VR_ALERT, R.PWR_STATUS.SLACK_SHORT, R.PWR_STATUS.PEAK_GUARD, R.PWR_STATUS.POWER_W, R.PWR_STATUS.WINDOW_W, R.PWR_STATUS.PHASE_MISMATCHES]⟩,
    ⟨"PWR.FREQ_CTRL", 0x20010, 0x0, 1, 0x0, 1, fun _ _ => [R.PWR_FREQ_CTRL.MAX_MODE, R.PWR_FREQ_CTRL.DROOP_MV, R.PWR_FREQ_CTRL.CUR_LIMIT_A]⟩,
    ⟨"PWR.REASONS", 0x20018, 0x0, 1, 0x0, 1, fun _ _ => [R.PWR_REASONS.ACTIVE]⟩,
    ⟨"PWR.THROTTLE", 0x20040, 0x8, 8, 0x0, 1, fun n _ => [R.PWR_THROTTLE.NS n]⟩,
    ⟨"PWR.TILE", 0x20100, 0x8, 16, 0x0, 1, fun n _ => [R.PWR_TILE.PL n, R.PWR_TILE.STRETCH n, R.PWR_TILE.DROOP_SKIP n, R.PWR_TILE.F_SET_MHZ n, R.PWR_TILE.F_MAX_MHZ n, R.PWR_TILE.CURRENT_A n]⟩,
    ⟨"PWR.ENERGY", 0x20200, 0x8, 16, 0x0, 1, fun n _ => [R.PWR_ENERGY.UJ n]⟩,
    ⟨"PWR.ENERGY_CLASS", 0x20300, 0x20, 16, 0x8, 3, fun n i => [R.PWR_ENERGY_CLASS.UJ n i]⟩ ]

/-- The registers of block THM. -/
def regClassesTHM : List RegClass :=
  [ ⟨"THM.CTRL", 0x21000, 0x0, 1, 0x0, 1, fun _ _ => [R.THM_CTRL.TILE_THROTTLE_C, R.THM_CTRL.STORE_THROTTLE_C]⟩,
    ⟨"THM.EVENTS", 0x21008, 0x0, 1, 0x0, 1, fun _ _ => [R.THM_EVENTS.EMERGENCIES, R.THM_EVENTS.THROTTLE_ENTRIES, R.THM_EVENTS.VR_ALERTS]⟩,
    ⟨"THM.TILE", 0x21100, 0x8, 16, 0x0, 1, fun n _ => [R.THM_TILE.TJ n, R.THM_TILE.TSTORE n, R.THM_TILE.TILE_THROTTLING n, R.THM_TILE.TILE_EMERGENCY n, R.THM_TILE.STORE_THROTTLING n, R.THM_TILE.STORE_EMERGENCY n]⟩ ]

/-- The registers of block SEC. -/
def regClassesSEC : List RegClass :=
  [ ⟨"SEC.STATUS", 0x22000, 0x0, 1, 0x0, 1, fun _ _ => [R.SEC_STATUS.FW_OK, R.SEC_STATUS.FLOOR_OK, R.SEC_STATUS.CHAR_OK, R.SEC_STATUS.PUF_OK, R.SEC_STATUS.IDENTITY_OK, R.SEC_STATUS.TRNG_OK, R.SEC_STATUS.SESSIONS]⟩,
    ⟨"SEC.FW", 0x22008, 0x0, 1, 0x0, 1, fun _ _ => [R.SEC_FW.SVN, R.SEC_FW.SEQUENCE]⟩,
    ⟨"SEC.FLOOR", 0x22010, 0x0, 1, 0x0, 1, fun _ _ => [R.SEC_FLOOR.FW, R.SEC_FLOOR.CHAR]⟩,
    ⟨"SEC.PROT", 0x22018, 0x0, 1, 0x0, 1, fun _ _ => [R.SEC_PROT.PARTITIONS]⟩,
    ⟨"SEC.OPEN", 0x22080, 0x8, 16, 0x0, 1, fun n _ => [R.SEC_OPEN.REGIONS n]⟩,
    ⟨"SEC.VIOL", 0x22100, 0x10, 16, 0x0, 1, fun n _ => [R.SEC_VIOL.HOST n, R.SEC_VIOL.PARTITION n, R.SEC_VIOL.OUTBOUND n]⟩,
    ⟨"SEC.VIOL_ADDR", 0x22108, 0x10, 16, 0x0, 1, fun n _ => [R.SEC_VIOL_ADDR.ADDR n, R.SEC_VIOL_ADDR.VALID n, R.SEC_VIOL_ADDR.WRITE n, R.SEC_VIOL_ADDR.SOURCE n, R.SEC_VIOL_ADDR.PARTITION n]⟩ ]

/-- The registers of block MGT. -/
def regClassesMGT : List RegClass :=
  [ ⟨"MGT.SB_STATUS", 0x23000, 0x0, 1, 0x0, 1, fun _ _ => [R.MGT_SB_STATUS.DYN_ADDR, R.MGT_SB_STATUS.EID, R.MGT_SB_STATUS.STATIC_SEL]⟩,
    ⟨"MGT.SB_CAP", 0x23008, 0x0, 1, 0x0, 1, fun _ _ => [R.MGT_SB_CAP.CAP_W]⟩,
    ⟨"MGT.FLASH_STATUS", 0x23010, 0x0, 1, 0x0, 1, fun _ _ => [R.MGT_FLASH_STATUS.MAP_GENERATION, R.MGT_FLASH_STATUS.RETIRED, R.MGT_FLASH_STATUS.POOL_FREE, R.MGT_FLASH_STATUS.BUSY]⟩,
    ⟨"MGT.EVLOG_SEL", 0x23018, 0x0, 1, 0x0, 1, fun _ _ => [R.MGT_EVLOG_SEL.SEQ, R.MGT_EVLOG_SEL.NEWEST]⟩,
    ⟨"MGT.EVLOG_DATA", 0x23020, 0x8, 8, 0x0, 1, fun n _ => [R.MGT_EVLOG_DATA.BYTES n]⟩ ]

/-- Every register class of the window map (R479). -/
def regClasses : List RegClass :=
  regClassesGLB ++ regClassesMRD ++ regClassesFRW ++ regClassesQUE ++ regClassesCFG ++ regClassesTILE ++ regClassesTSTORE ++ regClassesSTACK ++ regClassesNBU ++ regClassesLINK ++ regClassesCXLU ++ regClassesCXLD ++ regClassesPWR ++ regClassesTHM ++ regClassesSEC ++ regClassesMGT

end Sys2Proof.Machine
end

