-- ==== Sys2Proof/Machine/Table.lean ====
section
/-!
DEFINITION. Sparse tables: lists of key and value, keys strictly rising, an absent key reading as the table's default.
Device memory, the register fields, the tiles, the stacks, the ports and the firmware's object tables are all held so.
-/

namespace Sys2Proof.Machine

/-- A sparse table from natural numbers. -/
abbrev Table (α : Type) := List (Nat × α)

/-- The value at `k`; `d` where the table lists nothing. -/
def Table.get {α : Type} (d : α) (k : Nat) : Table α → α
  | [] => d
  | (j, v) :: rest => if j = k then v else Table.get d k rest

/-- Enter `v` at `k`, whatever was there. -/
def Table.insert {α : Type} (k : Nat) (v : α) : Table α → Table α
  | [] => [(k, v)]
  | (j, w) :: rest =>
    if k < j then (k, v) :: (j, w) :: rest
    else if k = j then (k, v) :: rest
    else (j, w) :: Table.insert k v rest

/-- List nothing at `k`. -/
def Table.erase {α : Type} (k : Nat) (t : Table α) : Table α :=
  t.filter fun e => e.1 != k

/-- Write `v` at `k`, keeping the canonical form: the default is never listed. -/
def Table.set {α : Type} [DecidableEq α] (d : α) (k : Nat) (v : α) (t : Table α) : Table α :=
  if v = d then Table.erase k t else Table.insert k v t

/-- Replace the value at `k` by its image. -/
def Table.modify {α : Type} [DecidableEq α] (d : α) (k : Nat) (f : α → α) (t : Table α) : Table α :=
  Table.set d k (f (Table.get d k t)) t

/-- Keys strictly rising. -/
def Table.sorted {α : Type} : Table α → Bool
  | [] => true
  | [_] => true
  | (j, _) :: (k, w) :: rest => decide (j < k) && Table.sorted ((k, w) :: rest)

/-- The canonical form: keys strictly rising, no entry equal to the default. -/
def Table.wf {α : Type} [DecidableEq α] (d : α) (t : Table α) : Bool :=
  Table.sorted t && t.all fun e => decide (e.2 ≠ d)

/-- The keys listed. -/
def Table.keys {α : Type} (t : Table α) : List Nat := t.map Prod.fst

end Sys2Proof.Machine
end

