-- ==== Sys2Proof/Machine/State.lean ====
section
/-!
DEFINITION. The state of one ZD-1600, as plain data: every register field (one sparse table keyed by the field's place in
the register window), device memory, and the state the rules give each block beside its registers, grouped by block.
`State.reset` is the device at the release of reset.
-/

namespace Sys2Proof.Machine

/-- The machine never stops with a fault: no rule of the spec leaves it without a next state. -/
inductive Fault where
  deriving DecidableEq, Repr

/-- Refusals. -/
inductive Refusal where
  /-- raised by an arm of `exec` whose command has no meaning yet; no arm is left so.  Safe: the model stops. -/
  | notModelled (mnemonic : String)
  deriving DecidableEq, Repr

/-! ### Meridian unit (spec/02_meridian_and_furrows.md) -/

/-- The Meridian unit's state beside its registers (R33 to R38). -/
structure Mrd where
  /-- the MERID_CLK PLL has locked -/
  pllLocked : Bool
  /-- ACQUIRE: MRD.TIME has been aligned at a mark -/
  aligned : Bool
  /-- ACQUIRE: marks seen in tolerance since the alignment -/
  goodMarks : Nat
  /-- LOCKED: consecutive excursions -/
  excursions : Nat
  /-- the search window whose edge has been handled, as its millisecond -/
  handled : Option Nat
  /-- a mark has been accepted since the unit last left UNLOCKED -/
  accepted : Bool
  /-- MERIDIAN_SETs that wait for the mark, oldest first: the value and the packet's ticket number -/
  setTo : List (Nat × Nat)
  /-- R38: the lead's value to adopt at the next mark -/
  adopt : Option Nat
  /-- the next count is withheld: the slew of R35 -/
  withhold : Bool
  deriving DecidableEq, Repr

def Mrd.reset : Mrd := ⟨false, false, 0, 0, none, false, [], none, false⟩

/-! ### Furrows (spec/02_meridian_and_furrows.md) -/

/-- One furrow plan entry (R46). -/
structure PlanEntry where
  type : Nat
  template : Nat
  inst : Nat
  tag : Nat
  offset : Nat
  duration : Nat
  argA : Nat
  argB : Nat
  op : Nat
  deriving DecidableEq, Repr

/-- A furrow plan (R45), with the image it was loaded from. -/
structure FurrowPlan where
  planId : Nat
  period : Nat
  headland : Nat
  lateOffset : Nat
  cycleLen : Nat
  laneSets : Nat
  entries : List PlanEntry
  image : Bytes
  deriving DecidableEq, Repr

/-- The schedule's state beside the FRW registers. -/
structure Frw where
  active : Option FurrowPlan
  staged : Option FurrowPlan
  /-- T0 and k0 of R40 and R43 -/
  t0 : Nat
  k0 : Nat
  /-- the number the next first furrow takes (R40) -/
  nextK : Nat
  /-- the start turnaround has run (R41) -/
  turned : Bool
  /-- the template index of the next furrow that is not fallow (R55) -/
  nextTemplate : Nat
  /-- the furrow whose headland stops the schedule (R42) -/
  stopAt : Option Nat
  /-- the stop has moved to the headland that ends a fallow furrow -/
  stopMoved : Bool
  /-- ticket of the FURROW_START and of the FURROW_STOP in force -/
  startTicket : Option Nat
  stopTicket : Option Nat
  /-- offset from furrow start at which the step was complete -/
  doneAt : Option Nat
  /-- a step runs or was run in this furrow or continues into it -/
  stepOpen : Bool
  /-- consecutive fallow furrows -/
  fallowRun : Nat
  /-- devices whose beacon of this furrow has arrived, and those of them that were late -/
  beacons : List Nat
  lateBeacons : List Nat
  /-- devices treated as late under R53 -/
  missing : List Nat
  /-- groups whose relay has arrived; groups reported late or missing; an echo reported lateness -/
  relays : List Nat
  lateGroups : List Nat
  missingRelays : List Nat
  echoLate : Bool
  /-- consecutive furrows without a beacon, by device (R53) -/
  silent : Table Nat
  /-- the lead's next template as its beacon or its group's relay gives it (R55) -/
  leadNext : Option Nat
  /-- the index to take at the turnaround that ends the fallow furrow that the difference makes, and that furrow runs (R55) -/
  resync : Option Nat
  correcting : Bool
  /-- the member stops at its next headland start (R585) -/
  leadSilent : Bool
  deriving DecidableEq, Repr

def Frw.reset : Frw :=
  ⟨none, none, 0, 0, 0, false, 0, none, false, none, none, none, false, 0, [], [], [], [], [], [], false, [], none, none, false, false⟩

/-! ### Model instances and configuration (spec/04_command_packets.md, 05_step_plans.md) -/

/-- One list of a step plan (R165): its 64-byte descriptors. -/
structure PlanList where
  device : Nat
  tile : Nat
  template : Nat
  descs : List Bytes
  deriving DecidableEq, Repr

/-- A step plan (R164), and SHA-384 of its image. -/
structure StepPlan where
  templates : Nat
  lists : List PlanList
  /-- devices and tiles to which the plan gives a list, of every member -/
  dir : List (Nat × Nat)
  sha : Bytes
  deriving DecidableEq, Repr

/-- A model instance of a configuration set (R140, R150). -/
structure Inst where
  mask : Nat
  prot : Bool
  image : ModelImage
  sha : Bytes
  plan : Option StepPlan
  deriving DecidableEq, Repr

/-- A cluster-wide commit prepared at this device (R154). -/
structure Prepared where
  epoch : Nat
  furrow : Nat
  /-- COMMIT has been decided -/
  go : Bool
  deriving DecidableEq, Repr

/-- The lead's side of a cluster-wide commit (R154): members whose reply is awaited, refusals by device. -/
structure LeadCommit where
  ticket : Nat
  epoch : Nat
  furrow : Nat
  waiting : List Nat
  refused : Table Nat
  decided : Bool
  deriving DecidableEq, Repr

/-- Configuration (R150 to R159). -/
structure Cfg where
  /-- staged register fields, by field key: the fields written since the last commit or discard -/
  stagedRegs : Table Nat
  /-- model instances of the active and of the staged cluster-scope set -/
  instA : Table (Option Inst)
  instS : Table (Option Inst)
  /-- locks of R152 -/
  lockCluster : Bool
  lockDevice : Bool
  prepared : Option Prepared
  lead : Option LeadCommit
  /-- a device-scope commit waiting for the headland, by ticket -/
  deviceCommit : List Nat
  /-- epoch and digest pairs of this furrow's beacons of the group, by device -/
  peers : Table (Nat × Nat)
  /-- consecutive digest checks at which a device was found divergent, this one or a counterpart (R159) -/
  divergent : Table Nat
  /-- size changes that wait for a Granary's flush: tile and new size (R386) -/
  granaryFlush : List (Nat × Nat)
  /-- commands whose completion waits for a flush or for regions being zeroed: ticket, RESULT0, RESULT1 (R386, R398) -/
  finishing : List (Nat × Nat × Nat)
  deriving DecidableEq, Repr

def Cfg.reset : Cfg := ⟨[], [], [], false, false, none, none, [], [], [], [], []⟩

/-! ### Serving firmware (spec/03_serving_firmware.md) -/

/-- A tenant queue (TENANT_SET, R144). The credit is kept in units of 10^-9. -/
structure Tenant where
  weight : Nat
  dawnLanes : Nat
  budget : Nat
  quota : Nat
  maxOpen : Nat
  instMask : Nat
  credit : Nat
  deriving DecidableEq, Repr

/-- Sampling parameters (R149). FP32 values by their bits. -/
structure Sampling where
  temperature : Nat
  topK : Nat
  topP : Nat
  minP : Nat
  repPenalty : Nat
  freqPenalty : Nat
  seed : Nat
  bitmapAddr : Nat
  stops : List Nat
  bias : List (Nat × Nat)
  deriving DecidableEq, Repr

/-- A generation request (R78, R94). -/
structure Request where
  ticket : Nat
  wanted : Nat
  delivered : Nat
  deadline : Option Nat
  withhold : Bool
  sampling : Sampling
  deriving DecidableEq, Repr

/-- Sequence states (R77); a CLOSED sequence is not listed. -/
inductive SeqState where
  | idle | ingest | generate
  deriving DecidableEq, Repr

/-- A sequence (R76 to R81). -/
structure Seq where
  gen : Nat
  cls : Nat
  tenant : Nat
  inst : Nat
  adapterId : Nat
  adapterVer : Nat
  ring : Nat
  maxLen : Nat
  state : SeqState
  /-- input tokens pending, the token of R79 first -/
  inputs : List Nat
  /-- committed positions -/
  len : Nat
  /-- committed tokens of the staging buffer, and blocks held in pages -/
  stagedToks : Nat
  flushed : Nat
  /-- dawn lane: lane set and lane (R93) -/
  bound : Option (Nat × Nat)
  req : Option Request
  /-- furrows waited since the last step (R88) -/
  waited : Nat
  /-- consecutive furrows without a token or a commit (R576) -/
  fails : Nat
  /-- tokens held under R107 -/
  held : List TokenRec
  /-- no usable state is left (R357, R578) -/
  unusable : Bool
  /-- Meridian time of the last delivered token, and the furrow period of that furrow (R63, R64) -/
  lastToken : Option Nat
  lastPeriod : Nat
  /-- SEQ_CANCEL or SEQ_CLOSE has taken effect for the ending step (R81) -/
  cancelled : Bool
  /-- prefix handle slot the sequence opened from, and its length L -/
  prefixSlot : Option Nat
  prefixLen : Nat
  /-- tokens appended while a request is in force, the next input after it (R77) -/
  later : List Nat
  /-- penalty table of the request in force (R274) -/
  penalty : List (Nat × Nat)
  deriving DecidableEq, Repr

/-- A prefix handle (R99, R100). -/
structure Handle where
  gen : Nat
  inst : Nat
  adapterId : Nat
  adapterVer : Nat
  kvFmt : Nat
  len : Nat
  tenant : Nat
  shared : Bool
  deriving DecidableEq, Repr

/-- Adapter version states (R103). -/
inductive AdapterState where
  | pending | loading | staged | current | draining
  deriving DecidableEq, Repr

/-- An adapter version (R103, R104). -/
structure Adapter where
  inst : Nat
  id : Nat
  ver : Nat
  state : AdapterState
  imageAddr : Nat
  imageLen : Nat
  sha : Bytes
  /-- its slices: device, tile, offset in the image, bytes -/
  dir : List Reserve
  ticket : Option Nat
  /-- a retirement waits for the next headland that admits (R105) -/
  retire : Option Nat
  deriving DecidableEq, Repr

/-- A slice of an adapter version in an adapter store of this device, and its master copy (R314). -/
structure Slice where
  inst : Nat
  id : Nat
  ver : Nat
  tile : Nat
  addr : Nat
  len : Nat
  master : Nat
  /-- its bytes from the image while it loads (R308) -/
  image : Bytes
  deriving DecidableEq, Repr

/-- A round of the deficit round-robin of R97: deficits by tenant, and the round pointer. -/
structure Round where
  deficit : Table Nat
  pointer : Nat
  deriving DecidableEq, Repr

def Round.empty : Round := ⟨[], 0⟩

/-- What a step left for one lane, read at token delivery. -/
structure LaneResult where
  inst : Nat
  set : Nat
  lane : Nat
  /-- the token of the lane's choice record; `none`: VALID was 0 (R281) -/
  token : Option Nat
  deriving DecidableEq, Repr

/-- The serving firmware's tables (R76). -/
structure Srv where
  tenants : Table (Option Tenant)
  /-- slots closed since the last headland: not reused yet (R77) -/
  closing : List Nat
  /-- instances that are SUSPENDED (R578) -/
  suspended : List Nat
  seqs : Table (Option Seq)
  /-- last generation number used, by slot -/
  seqGen : Table Nat
  handles : Table (Option Handle)
  handleGen : Table Nat
  adapters : List Adapter
  slices : List Slice
  /-- page descriptor lists in force, by instance: their addresses (R341) -/
  descLists : Table (List Nat)
  /-- lane table in force and lane table built, by instance -/
  lanes : Table (List LaneEntry)
  built : Table (List LaneEntry)
  /-- members whose LANE_ACK is awaited, by instance -/
  laneWait : Table (List Nat)
  /-- lane table received by a member and not yet accepted, by instance -/
  laneRecv : Table (Option LaneTable)
  /-- choices of the step that ends -/
  results : List LaneResult
  /-- lanes of that step, as instance, lane set and lane, that missed a far-tier page (R352), and sequences whose page is
  damaged (R357), as instance and sequence identifier -/
  misses : List (Nat × Nat × Nat)
  damaged : List (Nat × Nat)
  /-- instances whose step failed or was abandoned in this furrow -/
  failedInst : List Nat
  /-- rounds of R97, keyed instance × 64 + class × 16 + role -/
  rounds : Table Round
  /-- the tenant last served in token-budget mode -/
  lastServed : Nat
  /-- commands waiting for a headland, oldest first: ticket numbers -/
  deferred : List Nat
  /-- of those, what waits for a lane of its sequence to be settled in this headland (R59) -/
  waitCmds : List Nat
  /-- lanes of the step that ended whose token has not reached the lead yet: the last lane of each chunk, with its instance
  (R59, R106) -/
  openLanes : List (Nat × LaneEntry)
  /-- instances whose lanes are filled once their open lanes are settled -/
  farWait : List Nat
  /-- this headland has been counted in RING_FULL (R112), and in HEADLAND_SHORT (R61) -/
  ringFull : Bool
  short : Bool
  /-- closings and releases that the lead has told ahead of the headland they take effect in (R348) -/
  told : List Packet
  /-- at the lead: stack-pool bytes of each tenant on the other members, keyed device × 1024 + tenant, and their sequences with
  pages in the far tier, by device; at a member: the tenants whose quota is exhausted, and the sequences that will run soon -/
  farUse : Table Nat
  farSeqs : Table (List Nat)
  full : List Nat
  soon : List Nat
  /-- the lane rates of the last furrow, keyed class: runnable, lanes given; and glean lanes (R94) -/
  lastRunnable : Table Nat
  lastGiven : Table Nat
  lastGlean : Nat

  deriving DecidableEq, Repr

def Srv.reset : Srv :=
  ⟨[], [], [], [], [], [], [], [], [], [], [], [], [], [], [], [], [], [], [], 0, [], [], [], [], false, false, [], [], [], [], [], [], [], 0⟩

/-! ### Rings and the command queue (spec/04_command_packets.md) -/

/-- Who issued a packet: a host ring, or the lead device in a control message. -/
inductive Origin where
  | host (ring : Nat)
  | lead (src msgId : Nat)
  deriving DecidableEq, Repr

/-- A device's answer to its part of a command. -/
structure Reply where
  device : Nat
  status : Status
  detail : Nat
  result0 : Nat
  result1 : Nat
  data : Bytes
  deriving DecidableEq, Repr

/-- A packet that has no final completion yet. -/
structure Ticket where
  no : Nat
  origin : Origin
  packet : Packet
  payload : Option Bytes
  image : Option ModelImage
  /-- its PENDING record is written (R135) -/
  pending : Bool
  /-- held behind BARRIER until every earlier packet of the ring is done -/
  barrier : Bool
  /-- FENCE: the numbers it waits for -/
  fence : Option (List Nat)
  /-- devices whose part of the command is not done, with the identifier of the FWD_CMD sent; and the answers so far -/
  awaiting : List (Nat × Nat)
  answers : List Reply
  /-- a value the command keeps until its answers are in -/
  note : Nat
  deriving DecidableEq, Repr

/-- A completion record (R133) waiting for or given its place. -/
structure Completion where
  tag : Nat
  opcode : Nat
  status : Status
  final : Bool
  detail : Nat
  device : Nat
  result0 : Nat
  result1 : Nat
  deriving DecidableEq, Repr

/-- A host read in flight: a packet's 64 bytes, or the payload of a packet. -/
structure Fetch where
  ring : Nat
  index : Nat
  /-- the packet whose payload is fetched, by its ticket; `none`: the packet itself -/
  ticket : Option Nat
  deriving DecidableEq, Repr

/-- The rings' state beside their registers (R114 to R119). -/
structure Que where
  sqTail : Table Nat
  cqHead : Table Nat
  trHead : Table Nat
  /-- passes of the completion and token rings completed since they were enabled (R116) -/
  cqPass : Table Nat
  trPass : Table Nat
  /-- records held under R118, by completion ring -/
  cqHeld : Table (List Completion)
  /-- completion rings, enabled and full, whose hold has been counted (R118) -/
  cqStalled : List Nat
  fetches : List Fetch
  /-- packets without a final completion, in order of acceptance -/
  tickets : List Ticket
  nextNo : Nat
  deriving DecidableEq, Repr

def Que.reset : Que := ⟨[], [], [], [], [], [], [], [], [], 0⟩

/-! ### Errors, membership and the control channel (spec/17_faults.md, 13_fjarip_fabric.md) -/

/-- A device the lead has declared dead and not yet removed (R582). -/
structure Declared where
  device : Nat
  epoch : Nat
  /-- members whose acknowledgement of the FENCED broadcast is awaited -/
  waiting : List Nat
  deriving DecidableEq, Repr

/-- A control message sent and not acknowledged (R467). -/
structure Sent where
  dst : Nat
  msg : CtrlMsg
  resent : Bool
  deriving DecidableEq, Repr

/-- What the beacons of a device have told (R463): by serial. -/
structure Heard where
  serial : Nat
  assigned : Bool
  spare : Bool
  lead : Bool
  device : Nat
  frwState : Nat
  mrdState : Nat
  epoch : Nat
  port : Nat
  deriving DecidableEq, Repr

/-- A device that joins (R586): the REJOIN's ticket at the lead, serial, place (none: a spare), epoch. -/
structure Joining where
  ticket : Option Nat
  serial : Nat
  place : Option Nat
  epoch : Nat
  deriving DecidableEq, Repr

/-- Error and membership state. -/
structure Flt where
  /-- the error log's records, by index (R570) -/
  log : Table (Option ErrRec)
  /-- index of the record last written -/
  last : Option Nat
  /-- devices heard, by serial -/
  heard : Table (Option Heard)
  /-- epochs accepted from spares, by serial (R581) -/
  spareEpoch : Table Nat
  declared : List Declared
  /-- FAILURE messages of KIND 0x2 of this furrow: named device and sender -/
  silentReports : List (Nat × Nat)
  /-- time of the last FENCED answer, by sender (R581) -/
  answered : Table Nat
  sent : List Sent
  nextMsg : Nat
  /-- devices that join at the next headland or mark (R586) -/
  rejoin : List Joining
  /-- partitions whose partition-fatal event waits for the headland (R579); those of members that the lead has heard of: device
  and partition -/
  fatalParts : List Nat
  fatalFar : List (Nat × Nat)
  /-- tiles of members that are DOUBLED, as the lead has heard: device and tile (R577) -/
  doubled : List (Nat × Nat)
  /-- partitions held in reset (R20), and those whose hold waits: partition and ticket -/
  heldParts : List Nat
  holdWait : List (Nat × Nat)
  /-- every partition passed start-up self-test (R31) -/
  startPassed : Bool
  /-- start-up self-test is over; partitions whose stack failed its lane training at start-up (R410) -/
  startTested : Bool
  trainFailed : List Nat
  /-- a device-fatal event has stopped the device (R580) -/
  dead : Bool
  /-- partitions for which FAULT_N is held low (R575) -/
  faultParts : List Nat
  /-- positions assigned in each group: the highest assigned plus 1 (R439) -/
  groupSize : Table Nat
  /-- device identifier of the lead, for a member -/
  leadDevice : Option Nat
  /-- the lead has been lost (R585) -/
  leadLost : Bool
  /-- serial by device identifier, as CLUSTER_FORM and REJOIN placed them -/
  serials : Table Nat
  /-- SELFTEST under way: its ticket and partitions (R610) -/
  selftest : Option (Nat × Nat)
  /-- entries of a CLUSTER_FORM under way, at a device that it names (R148) -/
  forming : Option Bytes
  deriving DecidableEq, Repr

def Flt.reset : Flt :=
  ⟨[], none, [], [], [], [], [], [], 0, [], [], [], [], [], [], false, false, [], false, [], [], none, false, [], none, none⟩

/-! ### What leaves the device -/

/-- Return codes of the primary mailbox that R543 and R544 name, and success. -/
inductive MailCode where
  | success | invalidInput | unsupported | busy | authFailed
  deriving DecidableEq, Repr

/-- The two signatures over one transcript: RSA, and SLH-DSA in the vendor-defined element (R551). -/
structure Sigs where
  rsa : Nat
  slh : Nat
  deriving DecidableEq, Repr

/-- Answers to SPDM requests, as far as R550 to R552 and R607 give them; SPDM's own formats are left aside. -/
inductive SpdmAnswer where
  /-- versions, major x 16 + minor -/
  | version (l : List Nat)
  | capabilities
  /-- RSAPSS_3072, SHA_384, secp384r1, AES-256-GCM, the SPDM key schedule -/
  | algorithms
  /-- SHA-384 of the certificate chains of slots 0 and 1 -/
  | digests (l : List Bytes)
  | certificate (slot : Nat) (chain : Bytes)
  | challengeAuth (slot : Nat) (sigs : Sigs)
  | measurements (blocks : List (Nat × Bytes)) (sigs : Option Sigs)
  | keyExchange (session : Nat) (sigs : Sigs)
  | finished (session : Nat)
  | keyUpdated (session : Nat)
  | alive (session : Nat)
  | ended (session : Nat)
  /-- a vendor-defined request has been carried out -/
  | vendor
  | error
  deriving DecidableEq, Repr

/-- CDAT structures (R495); a DSLBIS: handle, write or read, bandwidth or latency, in MB/s or ns. -/
inductive CdatEntry where
  | dsmas (handle base length : Nat) (volatile : Bool)
  | dslbis (handle : Nat) (write bandwidth : Bool) (value : Nat)
  /-- EfiReservedMemoryType -/
  | dsemtsReserved (handle : Nat)
  deriving DecidableEq, Repr

/-- Answers on the sideband: MCTP control, PLDM and the event log. -/
inductive SbAnswer where
  | endpoint (eid : Nat)
  /-- versions, major x 256 + minor -/
  | versions (l : List Nat)
  | types (l : List Nat)
  | reading (value : Nat)
  | unavailable
  | effecter (value : Nat)
  | done
  | invalidData
  | entries (l : List Bytes)
  deriving DecidableEq, Repr

/-- What the device has sent to the outside world, oldest first. -/
inductive Output where
  /-- CXL.cache write of bytes to host memory (R487) -/
  | hostWrite (addr : Nat) (bytes : Bytes)
  /-- CXL.cache read (RdCurr) of host memory (R490) -/
  | hostRead (addr len : Nat)
  /-- MSI-X message (R489) -/
  | msix (vector : Nat)
  /-- a frame on a port (R445) -/
  | frame (port : Nat) (f : Frame)
  /-- a control message towards a device (R466) -/
  | ctrl (dst : Nat) (m : CtrlMsg)
  /-- CXL.mem response with data (MemData), and without (Cmp); an unsupported request's completion (R482, R484) -/
  | memData (tag : Nat) (bytes : Bytes) (poison : Bool)
  | memDone (tag : Nat)
  | memUnsupported (tag : Nat)
  /-- the answer RspIHitI to a snoop (R487) -/
  | snoopMiss (addr : Nat)
  /-- an answer of the primary mailbox; Get FW Info also gives the slots, the active one and its build identifier (R543, R544) -/
  | mailbox (code : MailCode)
  | fwInfo (slots active build : Nat)
  /-- an answer to an SPDM request, by its transport: 0 DOE, 1 sideband (R550) -/
  | spdm (transport : Nat) (a : SpdmAnswer)
  /-- the CDAT (R495), and an answer of CXL_IDE_KM (R493) -/
  | cdat (l : List CdatEntry)
  | ideKm (accepted : Bool)
  /-- an answer on the sideband (R596 to R600, R605) -/
  | sideband (a : SbAnswer)
  /-- bits that the TAP shifts out, and their number (R608) -/
  | tdo (len value : Nat)
  /-- PLDM events that the device sends (R599): a threshold crossed, by sensor and reading; an error record logged, by code -/
  | sensorEvent (sensor reading : Nat)
  | errorEvent (code : Nat)
  /-- a RISC-V access fault raised in the control core that made an access: a store's, or a load's (R26, R384, R385) -/
  | coreFault (addr : Nat) (store : Bool)
  deriving DecidableEq, Repr

/-! ### CXL ports and interrupts (spec/14_cxl_ports.md) -/

/-- An expander behind the downstream port (R496 to R498): the device address its range starts at and its bytes. -/
structure FarRange where
  base : Nat
  bytes : Nat
  deriving DecidableEq, Repr

/-- State of the CXL ports beside their registers. -/
structure Cxl where
  /-- record writes whose Go-Writepull response is awaited, by vector (R489) -/
  goWait : Table Nat
  /-- vectors whose message waits for those responses -/
  irqWant : List Nat
  /-- vectors in their hold-off, and those of them with a record written during it -/
  holdoff : List Nat
  irqDue : List Nat
  /-- D2H requests and messages that wait for Bus Master Enable or IDE (R491, R493), oldest first -/
  waiting : List Output
  /-- M2S credits in use: host requests without data, and with data, whose completion has not been sent (R485) -/
  reqUsed : Nat
  rwdUsed : Nat
  /-- mapped far-tier ranges, by expander -/
  far : Table (Option FarRange)
  /-- configuration space answers (R501) -/
  answers : Bool
  /-- BIFURCATE and IDE_REQUIRED of CXLD.CTRL as the last reset took them (R506) -/
  bifurcated : Bool
  expanderIde : Bool
  /-- the firmware has enumerated the downstream port (R496) -/
  enumerated : Bool
  deriving DecidableEq, Repr

def Cxl.reset : Cxl := ⟨[], [], [], [], [], 0, 0, [], false, false, true, false⟩

/-! ### Pins (spec/19_electrical_package.md) -/

/-- Levels of the package's signal pins: true is high. -/
structure Pins where
  sysRstN : Bool
  perstN : Bool
  /-- open drain, driven low by the device -/
  faultN : Bool
  thermTripN : Bool
  /-- VR_ALERT_N inputs that are low -/
  vrAlertLow : List Nat
  /-- every rail but VSB is on -/
  railsOn : Bool
  deriving DecidableEq, Repr

def Pins.reset : Pins := ⟨true, false, true, true, [], true⟩

/-! ### Management block (spec/18_management_and_test.md) -/

/-- The management block, in the VSB domain (R596 to R609). -/
structure Mgt where
  /-- error records waiting to be written to the event-log ring (R604) -/
  toLog : List ErrRec
  /-- the event-log ring in flash: the 64 bytes of each of the 32,768 slots that hold an entry -/
  evlog : Table (Option Bytes)
  /-- SEQ of the next entry -/
  evSeq : Nat
  /-- the bad-sector map: physical sector of a logical sector; an absent one is mapped to itself -/
  map : Table (Option Nat)
  /-- GENERATION of the two copies of the map, A and B (R602) -/
  genA : Nat
  genB : Nat
  /-- retired physical sectors -/
  retired : List Nat
  /-- erases per physical sector (R606) -/
  erases : Table Nat
  /-- TAP instruction in force, by its code (R608) -/
  tapIr : Nat
  /-- Meridian time of the last retention scan (R606) -/
  lastScan : Nat
  deriving DecidableEq, Repr

def Mgt.reset : Mgt := ⟨[], [], 0, [], 0, 0, [], [], 0x02, 0⟩

/-! ### Tiles (spec/05_step_plans.md to spec/11_on_package_memory.md) -/

/-- A descriptor in an engine queue, with the scalars copied at issue (R182, R188). -/
structure Queued where
  desc : Bytes
  /-- its index in its list -/
  index : Nat
  scalarA : Nat
  scalarB : Nat
  /-- MATMUL: the pass and K-block to restart at, pass × K_BLOCKS + block (R191, R221) -/
  resume : Nat
  /-- the descriptor has started -/
  started : Bool
  /-- MATMUL: all K-blocks consumed, DEP1 awaited (R222); ATTEND: partials computed, the merge awaited (R331);
  NBU: units started, their results awaited (R416) -/
  waiting : Bool
  /-- MATMUL: the damaged plot being refetched, its place and its master copy (R191, R307) -/
  refetch : Option (Nat × Nat)
  /-- MATMUL: outlier sums kept for the write-out, lane-major (R220) -/
  outliers : List Nat
  deriving DecidableEq, Repr

/-- An accumulator slot (R213): entries by lane × 256 + column, and the slot's flags. -/
structure Slot where
  vals : Table Nat
  sat : Bool
  colSat : Nat
  invalid : Bool
  overflow : Bool
  deriving DecidableEq, Repr

def Slot.clear : Slot := ⟨[], false, 0, false, false⟩

/-- A set of a Granary (R376): the line each way holds, with its dirty bit, and the tree's bits. -/
structure GSet where
  ways : Table (Option (Nat × Bool))
  plru : Table Bool
  deriving DecidableEq, Repr

def GSet.empty : GSet := ⟨[], []⟩

/-- An access that waits for a Granary fill (R377, R384): a control core's read or write, or an atomic operation issued
through core `core`'s window (`window`) or as an AMO. -/
inductive GAccess where
  | read (addr : Nat)
  | write (addr : Nat) (bytes : Bytes)
  | atom (window : Bool) (core op addr : Nat) (wide : Bool) (data cmp : Nat)
  deriving DecidableEq, Repr

/-- A tile's state beside its registers and memories. -/
structure Tile where
  /-- model instance and template of the list that runs; no instance: a direct list -/
  inst : Option Nat
  template : Nat
  list : List Bytes
  /-- engine queues: 0 to 7 matrix, 8 vector, 9 attention, 10 Drill, 11 to 14 movers, 15 collective, 16 near-bank -/
  queues : Table (List Queued)
  /-- accumulator slots, by physical engine × 64 + slot -/
  slots : Table Slot
  /-- code tables a Harrow holds, newest first, by logical engine: tensor identifier and block (R305) -/
  harrow : Table (List (Nat × Bytes))
  /-- current phase identifier (R182) -/
  phase : Option Nat
  /-- Meridian time of the write of GO (R189) -/
  goTime : Nat
  /-- a WAIT has been issued and its condition does not hold yet (R182) -/
  waiting : Bool
  /-- page look-aside buffer, most recently used first: share table address and page (R340) -/
  lab : List (Nat × Nat)
  /-- logical engines that SPARE_REQ names, ascending (R194, R588) -/
  spareReq : List Nat
  /-- plots that failed once in this step, by device address (R192) -/
  damaged : List Nat
  /-- a failure notice is on its way over the mesh (R192) -/
  notice : Bool
  /-- a direct list has ended: the interrupt to the control cores (R189) -/
  coreIrq : Bool
  /-- matrix queues whose started head runs on a physical engine that has left the map since (R196) -/
  stale : List Nat
  /-- built-in self-test of a returned engine: physical engine and ticket; and the map change it schedules (R587) -/
  bist : Option (Nat × Nat)
  regain : Option Nat
  /-- the logical engine that R195 doubled -/
  dbl : Option Nat
  /-- physical engines retired from the map (R194 to R196) -/
  retired : List Nat
  /-- Granary sets that hold a line -/
  granary : Table GSet
  /-- accesses waiting for a Granary fill, by line address, oldest first (R380) -/
  fills : List (Nat × GAccess)
  /-- offset the patrol scrubber reads next, tile store then scratchpad (R371) -/
  scrubTs : Nat
  scrubSp : Nat
  /-- segments waking from OFF, and requests made during a wake, by segment, scratchpad segments from 16 (R373) -/
  fromOff : List Nat
  segPend : Table (Option Nat)
  deriving DecidableEq, Repr

def Tile.reset : Tile :=
  ⟨none, 0, [], [], [], [], none, 0, false, [], [], [], false, false, [], none, none, none, [], [], [], 0, 0, [], []⟩

/-! ### Power and temperature (spec/15_power_thermal.md) -/

/-- An entry of the phase table (R517); phase 0xFFFF stands for the span outside phases. -/
structure PhaseEnt where
  template : Nat
  inst : Nat
  phase : Nat
  /-- learned PL0 power, in 1/16 W -/
  p0 : Nat
  count : Nat
  deriving DecidableEq, Repr

/-- An occurrence of a phase in progress (R517): the tile whose MARK began it, the phase, its level, and what the power
samples taken in it sum to. -/
structure Occur where
  tile : Nat
  template : Nat
  phase : Nat
  level : Nat
  sum : Nat
  samples : Nat
  /-- some tile ran at PL7 -/
  seven : Bool
  deriving DecidableEq, Repr

/-- A hint in force (R519): start, end, added watts. -/
structure PowerHint where
  start : Nat
  stop : Nat
  watts : Nat
  deriving DecidableEq, Repr

/-- The level fixed for a phase of a furrow (R516). -/
structure PhaseLevel where
  inst : Nat
  phase : Nat
  offset : Nat
  level : Nat
  deriving DecidableEq, Repr

/-- The power controller (R509 to R528). -/
structure Pwr where
  /-- demands, by source x 16 + tile: 0 cap controller, 1 peak guard, 2 current limit, 3 tile, 4 tile store and 5 stack
  temperature (R511); the thermal ones without emergency -/
  demands : Table Nat
  /-- device power of the last 10,000 samples, newest first, in microwatts (R515) -/
  samples : List Nat
  /-- currents of VCORE_TILE in the last 10 samples, newest first, in milliamperes (R513) -/
  currents : Table (List Nat)
  /-- windows below 95 % of the current limit, by tile -/
  under : Table Nat
  /-- samples for which the peak guard still demands its level (R514) -/
  peakLeft : Nat
  /-- the last sample's rails: millivolts and milliamperes, in the order of R529 -/
  rails : List (Nat × Nat)
  /-- energy below 1 microjoule of each partition, in sixteenths of a picojoule (R527) -/
  fraction : Table Nat
  /-- PWR.ENERGY at the last headland start (R528) -/
  atHeadland : Table Nat
  /-- the tenants' energy counters, in microjoules -/
  tenants : Table Nat
  /-- phase table, most recently used first -/
  phases : List PhaseEnt
  /-- occurrence in progress, by instance; the span outside phases is key 16 -/
  occur : Table (Option Occur)
  /-- levels of the furrow predicted last, and of a tile whose hints changed them (R516, R519) -/
  levels : List PhaseLevel
  tileLevels : Table (List PhaseLevel)
  /-- phase applied last, by instance (R518) -/
  applied : Table (Option Nat)
  /-- phases being prepared, as instance and phase, and the voltage guards that prepared phases add, in millivolts, oldest first
  (R518) -/
  prepared : List (Nat × Nat)
  guards : List Nat
  /-- hints of packets, and of descriptors with their tile -/
  hints : List PowerHint
  tileHints : List (Nat × PowerHint)
  /-- PL7 is held after the last alert (R512) -/
  alertHold : Bool
  deriving DecidableEq, Repr

def Pwr.reset : Pwr := ⟨[], [], [], [], 0, [], [], [], [], [], [], [], [], [], [], [], [], [], false⟩

/-! ### Stacks and near-bank units (spec/12_stack_memory.md) -/

/-- What a 64-byte access at a stack controller does: a block's read or write, or the host's with its tag. -/
inductive StackOp where
  | read
  | write (bytes : Bytes)
  | hostRead (tag : Nat)
  | hostWrite (tag : Nat) (bytes : Bytes) (enable : Nat)
  /-- a host's write that is complete for the host and waits in the write queue (R484) -/
  | hostMerge (bytes : Bytes) (enable : Nat)
  deriving DecidableEq, Repr

/-- An access waiting at a stack controller: its address, its arrival, and the symbols of its codeword in error (R407). -/
structure StackAcc where
  addr : Nat
  op : StackOp
  symbols : List Nat
  arrived : Nat
  deriving DecidableEq, Repr

/-- Where a run of a near-bank unit stands (R415): group reached, TENSOR and INDEX of its last plot, base exponents by column. -/
structure NbRun where
  group : Nat
  last : Option (Nat × Nat)
  bases : Table Nat
  deriving DecidableEq, Repr

def NbRun.start : NbRun := ⟨0, none, []⟩

/-- A near-bank unit that holds a descriptor (R414 to R419). -/
structure NbUnit where
  /-- its input buffer, K-block major as the activation rows of R205 -/
  input : Bytes
  kbCount : Nat
  columns : Nat
  kind : Nat
  atoms : Nat
  /-- the atom it runs next; 0 it runs, 1 it waits for its incoming shadow, 2 for its neighbour's, at the end of that atom -/
  next : Nat
  phase : Nat
  /-- its runs, by slot -/
  runs : Table NbRun
  deriving DecidableEq, Repr

/-- A TRAFFIC_GEN run (R412): pattern, regions, the packet's ticket. -/
structure Traffic where
  pattern : Nat
  regions : Nat
  micros : Nat
  ticket : Nat
  deriving DecidableEq, Repr

/-- A stack and its controller (R397 to R427). -/
structure Stack where
  /-- refresh balance B by pseudo-channel (R404) -/
  balance : Table Int
  /-- pseudo-channels whose forced refresh waits for an atom boundary -/
  forced : List Nat
  /-- pseudo-channels inside an atom -/
  inAtom : List Nat
  /-- accesses waiting, by pseudo-channel, oldest first -/
  queue : Table (List StackAcc)
  /-- corrected symbols since the last training, by pseudo-channel × 64 + lane (R408) -/
  corrected : Table Nat
  /-- marked lanes, so numbered -/
  marked : List Nat
  /-- times of the uncorrectable codewords of the last millisecond, by pseudo-channel (R579) -/
  recent : Table (List Nat)
  units : Table (Option NbUnit)
  /-- accumulator slots and incoming shadows, by unit × 16 + slot -/
  slots : Table Slot
  shadows : Table (Option Slot)
  /-- units whose fault clears their UNIT_OK bit at the next turnaround -/
  badUnits : List Nat
  traffic : Option Traffic
  /-- lanes are being trained while the contents are kept (R411): the packet's ticket -/
  training : Option Nat
  /-- regions being zeroed after a mode change (R398) -/
  zeroing : List Nat
  deriving DecidableEq, Repr

def Stack.reset : Stack := ⟨[], [], [], [], [], [], [], [], [], [], [], none, none, []⟩


/-! ### Links and collectives (spec/13_fjarip_fabric.md) -/

/-- A sequenced frame kept for replay (R449): with the tile and slot whose stream it belongs to, the time it was sent, how
often it has been replayed, and whether its replay is deferred to the headland (R460). -/
structure TxFrame where
  frame : Frame
  owner : Option (Nat × Nat)
  sent : Nat
  tries : Nat
  deferred : Bool
  deriving DecidableEq, Repr

/-- A phase of a slot that a port has begun or is to begin (R454): tiles whose streams are not sent yet. -/
structure Send where
  slot : Nat
  template : Nat
  inst : Nat
  op : Nat
  phase : Nat
  due : Nat
  begun : Bool
  /-- bytes 0 to 15 of the START sent: additional data of its streams (R469) -/
  head : Bytes
  tiles : List Nat
  deriving DecidableEq, Repr

/-- A slot phase being received on a port (R455): the piece index of the sender, the tiles and bytes of the streams still to
come, and the frames of the stream in hand. -/
structure Rx where
  slot : Nat
  template : Nat
  inst : Nat
  phase : Nat
  peer : Nat
  tiles : List (Nat × Nat)
  frames : List Frame
  deriving DecidableEq, Repr

/-- A LINK_TEST run (R471): pattern and ticket. -/
structure LinkTest where
  pattern : Nat
  ticket : Nat
  deriving DecidableEq, Repr

/-- A port beside its registers. -/
structure Link where
  /-- SEQ last sent and SEQ last received in order -/
  txSeq : Nat
  rxSeq : Nat
  /-- a NAK has been sent since the last intact sequenced frame -/
  nakSent : Bool
  /-- frames not acknowledged, oldest first; frames that wait for room behind them -/
  replay : List TxFrame
  waiting : List (Frame × Option (Nat × Nat))
  sends : List Send
  rx : Option Rx
  /-- training attempts, and whether the training began from UP -/
  attempts : Nat
  retraining : Bool
  /-- serial, port and mode of the peer's TRAIN frame -/
  train : Option (Nat × Nat × Nat)
  test : Option LinkTest
  deriving DecidableEq, Repr

def Link.reset : Link := ⟨0, 0, false, [], [], [], none, 0, false, none, none⟩

/-- A piece that has arrived to be combined (R458); no bytes: it is poisoned. -/
structure Piece where
  slot : Nat
  tile : Nat
  index : Nat
  bytes : Option Bytes
  deriving DecidableEq, Repr

/-- The collective interfaces (R452 to R461) over the step in progress. -/
structure Coll where
  /-- slots whose send time has come -/
  opened : List Nat
  pieces : List Piece
  /-- pieces combined, and arrivals counted, by slot × 16 + tile -/
  combined : Table Nat
  counted : Table Nat
  /-- narrowed combined pieces for the second phase of OP 0x3: slot, tile -/
  second : List Piece
  /-- streams written or counted as lost: port, slot, phase, tile -/
  arrived : List (Nat × Nat × Nat × Nat)
  /-- own streams lost with a port that left UP: tile, slot -/
  lost : List (Nat × Nat)
  /-- AES-GCM counters, by instance × 16 + tile (R469) -/
  nonces : Table Nat
  deriving DecidableEq, Repr

def Coll.reset : Coll := ⟨[], [], [], [], [], [], [], []⟩

/-! ### Key-value state (spec/10_attention_and_kv.md) -/

/-- A page of a pool: its partition, tier and address, its size 16 KiB × 2^size, the tenant it is charged to, and the furrow
that last used it. -/
structure KvPage where
  tile : Nat
  tier : Nat
  addr : Nat
  size : Nat
  tenant : Nat
  used : Nat
  deriving DecidableEq, Repr

/-- What a member holds of a sequence (R337, R343): counts of blocks held in pages and of committed staged tokens, the share
tables by share index (tile, address), the staging buffer in a scratchpad (tile, address) or moved to stack memory (address),
and its copy of the allowed-token bitmap. -/
structure KvFile where
  seqId : Nat
  inst : Nat
  tenant : Nat
  dawn : Bool
  maxLen : Nat
  flushed : Nat
  staged : Nat
  tables : List (Nat × Nat)
  stage : Option (Nat × Nat)
  parked : Option Nat
  bitmap : Option (Nat × Nat)
  used : Nat
  deriving DecidableEq, Repr

/-- What a member holds of a prefix handle (R100): the entries of its pages, by share index (tile, entries). -/
structure KvHandle where
  inst : Nat
  tenant : Nat
  maxLen : Nat
  len : Nat
  tables : List (Nat × List Nat)
  deriving DecidableEq, Repr

/-- A spill or prefetch copy (R350, R351); it has ended; its page has lost its last reference (R348). -/
structure KvCopy where
  page : KvPage
  tier : Nat
  addr : Nat
  ended : Bool
  doomed : Bool
  deriving DecidableEq, Repr

/-- Key-value state of the device's partitions. -/
structure Kv where
  files : Table (Option KvFile)
  handles : Table (Option KvHandle)
  pages : List KvPage
  copies : List KvCopy
  /-- ranges of stack memory the firmware uses for itself: address, bytes -/
  own : List (Nat × Nat)
  deriving DecidableEq, Repr

def Kv.reset : Kv := ⟨[], [], [], [], []⟩

/-! ### Security block (spec/16_security.md) -/

/-- State of the security block beside its registers. -/
structure Sec where
  /-- instance keys: key identifier and key, by instance (R552) -/
  keys : Table (Option (Nat × Nat))
  /-- both releases have come: the security core has started (R625) -/
  started : Bool
  /-- the ROM found no valid firmware image (R541) -/
  recovery : Bool
  /-- memory keys of the protected partitions (R557) -/
  partKeys : Table (Option Nat)
  /-- what the boot flash holds: the firmware image, the floor record slots, the characterisation records A and B (R601) -/
  fwSlot : Option SignedObj
  floorSlots : Table (Option SignedObj)
  charSlots : Table (Option SignedObj)
  /-- the boot flash has been read as it was delivered -/
  read : Bool
  /-- the monotonic counter of the boot flash (R603) -/
  counter : Nat
  /-- the image that runs, the active floor record (R540), the characterisation record in force (R545) -/
  running : Option SignedObj
  floor : Option SignedObj
  char : Option SignedObj
  /-- a Transfer FW in progress, its bytes so far (R544) -/
  transfer : Option Bytes
  /-- SPDM connection by transport, 0 DOE and 1 sideband: how far it is negotiated (R550); open sessions: transport and identifier -/
  spdm : Table Nat
  sessions : List (Nat × Nat)
  /-- sessions whose FINISH has not come -/
  handshakes : List (Nat × Nat)
  deriving DecidableEq, Repr

def Sec.reset : Sec :=
  ⟨[], false, false, [], none, [], [], false, 0, none, none, none, none, [], [], []⟩

/-! ### The whole device -/

/-- The state of the device. -/
structure State where
  /-- commands waiting, first in first out -/
  pending : List Instr
  /-- register fields, by key; an absent field reads its reset value -/
  regs : Table Nat
  /-- device memory: tile stores, scratchpads, control-core SRAM, stacks, far tier (R25) -/
  mem : List Host.Cell
  /-- poisoned lanes of 8 bytes, by address / 8 (R370, R409) -/
  poison : Table Bool
  mrd : Mrd
  frw : Frw
  cfg : Cfg
  srv : Srv
  que : Que
  flt : Flt
  cxl : Cxl
  mgt : Mgt
  /-- tiles, by number -/
  tiles : Table Tile
  /-- stacks, by number -/
  stk : Table Stack
  pwr : Pwr
  /-- ports, by number -/
  links : Table Link
  coll : Coll
  kv : Kv
  sec : Sec
  pins : Pins
  /-- sent to the outside world -/
  out : List Output
  /-- the model's own counter of the free values drawn so far -/
  freeCtr : Nat
  deriving DecidableEq, Repr

def State.reset : State where
  pending := []
  regs := []
  mem := []
  poison := []
  mrd := Mrd.reset
  frw := Frw.reset
  cfg := Cfg.reset
  srv := Srv.reset
  que := Que.reset
  flt := Flt.reset
  cxl := Cxl.reset
  mgt := Mgt.reset
  tiles := []
  stk := []
  pwr := Pwr.reset
  links := []
  coll := Coll.reset
  kv := Kv.reset
  sec := Sec.reset
  pins := Pins.reset
  out := []
  freeCtr := 0

/-- What a command answers. -/
abbrev Answered := Host.Outcome State Fault Refusal

end Sys2Proof.Machine
end

