-- ==== Sys2Proof/Machine/Ops.lean ====
section
/-!
DEFINITION. The named operations every meaning is written over: register fields, device memory, free values, the
device's place in its cluster, and what it sends to the outside world.
-/

namespace Sys2Proof.Machine

/-! ### Register fields -/

/-- The place of a field in the register table. -/
def Field.key (f : Field) : Nat := f.addr * 64 + f.lo

/-- The value of a field. -/
def State.get (s : State) (f : Field) : Nat := Table.get f.reset f.key s.regs

/-- Whether a one-bit field is 1. -/
def State.isSet (s : State) (f : Field) : Bool := s.get f == 1

/-- Write a field, modulo its width. -/
def State.put (s : State) (f : Field) (v : Nat) : State :=
  { s with regs := Table.set f.reset f.key (v % 2 ^ f.width) s.regs }

/-- Write a one-bit field. -/
def State.putBit (s : State) (f : Field) (b : Bool) : State := s.put f (b2n b)

/-- Add to a counter that saturates at all ones. -/
def State.bump (s : State) (f : Field) (n : Nat := 1) : State := s.put f (min (2 ^ f.width - 1) (s.get f + n))

/-- Add to a counter that wraps modulo its width. -/
def State.wrapAdd (s : State) (f : Field) (n : Nat := 1) : State := s.put f (s.get f + n)

/-- Whether a value is an encoding the field's map does not reserve (R12). -/
def Field.isLegal (f : Field) (v : Nat) : Bool :=
  match f.legal with
  | none => true
  | some (a, b) => decide (a ≤ v ∧ v ≤ b)

/-! ### Device memory -/

/-- The byte at a device address; a byte nothing has written reads 0. -/
def State.byte (s : State) (a : Nat) : Byte := Table.get 0 a s.mem

/-- Store one byte. -/
def State.setByte (s : State) (a : Nat) (b : Byte) : State := { s with mem := Table.set 0 a b s.mem }

/-- The `n` bytes from a device address. -/
def State.read (s : State) (a : Nat) : Nat → Bytes
  | 0 => []
  | n + 1 => s.byte a :: State.read s (a + 1) n

/-- The memory with bytes stored from an address. -/
def writeMem (m : List Host.Cell) (a : Nat) : Bytes → List Host.Cell
  | [] => m
  | b :: rest => writeMem (Table.set 0 a b m) (a + 1) rest

/-- Whether a write of `n` bytes from `a` replaces lane `l` of 8 bytes whole: an SRAM lane by itself (R370), a lane of a
stack or the far tier with the 64-byte access it lies in (R409). -/
def replacesLane (a n l : Nat) : Bool :=
  if l < 0x200000000 then decide (a ≤ 8 * l ∧ 8 * l + 8 ≤ a + n)
  else decide (a ≤ 64 * (l / 8) ∧ 64 * (l / 8) + 64 ≤ a + n)

/-- Store bytes from a device address; lanes replaced whole lose their poison. -/
def State.write (s : State) (a : Nat) (bs : Bytes) : State :=
  { s with
    mem := writeMem s.mem a bs
    poison := s.poison.filter fun e => !replacesLane a bs.length e.1 }

/-- Whether a range holds a poisoned lane. -/
def State.poisoned (s : State) (a n : Nat) : Bool :=
  s.poison.any fun e => decide (a / 8 ≤ e.1 ∧ 8 * e.1 < a + n)

/-- Poison the 64-byte words of a range (R370, R409). -/
def State.poisonRange (s : State) (a n : Nat) : State :=
  let lanes := List.range (ceilDiv (a % 64 + n) 64 * 8)
  { s with poison := lanes.foldl (fun p i => Table.set false (a / 64 * 8 + i) true p) s.poison }

/-- The little-endian number in `n` bytes (R8). -/
def State.readNat (s : State) (a n : Nat) : Nat := ofLe (s.read a n)

/-- Store a number in `n` bytes (R8). -/
def State.writeNat (s : State) (a n v : Nat) : State := s.write a (leBytes n v)

/-- Zero `n` bytes from an address: nothing stays listed there. -/
def State.zero (s : State) (a n : Nat) : State :=
  { s with
    mem := s.mem.filter fun c => decide (¬ (a ≤ c.1 ∧ c.1 < a + n))
    poison := s.poison.filter fun e => !replacesLane a n e.1 }

/-! ### Free values -/

/-- The next free value. -/
def State.freeVal (s : State) : Nat := Config.freeNat s.freeCtr

/-- The state with the next free value drawn. -/
def State.draw (s : State) : State := { s with freeCtr := s.freeCtr + 1 }

/-- A member of a list, which the spec leaves to the implementation to choose; 0 of an empty list. -/
def State.pick (s : State) (l : List Nat) : Nat := l.getD (s.freeVal % l.length) 0

/-! ### Time, and the device's place in its cluster -/

/-- Meridian time (R33). -/
def State.now (s : State) : Nat := s.get R.MRD_TIME.TIME

/-- Meridian unit states (R66). -/
def mrdUnlocked : Nat := 0
def mrdAcquire : Nat := 1
def mrdLocked : Nat := 2
def mrdHoldover : Nat := 3

/-- Furrow states (R70). -/
def frwNoPlan : Nat := 0
def frwStopped : Nat := 1
def frwArmed : Nat := 2
def frwRunning : Nat := 3
def frwFallow : Nat := 4
def frwStopping : Nat := 5

def State.mrdState (s : State) : Nat := s.get R.MRD_STATUS.STATE
def State.frwState (s : State) : Nat := s.get R.FRW_STATE.STATE
def State.furrow (s : State) : Nat := s.get R.FRW_FURROW_NUM.FURROW_NUM

/-- A furrow runs: RUNNING or FALLOW. -/
def State.inSchedule (s : State) : Bool := s.frwState == frwRunning || s.frwState == frwFallow

/-- The block is idle for commits: NO_PLAN or STOPPED (R153). -/
def State.idle (s : State) : Bool := s.frwState == frwNoPlan || s.frwState == frwStopped

/-- The device identifier (R7). -/
def State.self (s : State) : Nat := 16 * s.get R.GLB_DEVPOS.GROUP + s.get R.GLB_DEVPOS.POSITION

def State.assigned (s : State) : Bool := s.isSet R.GLB_DEVPOS.ASSIGNED
def State.isSpare (s : State) : Bool := s.isSet R.GLB_DEVPOS.SPARE

/-- The device acts as lead: it is the lead of its cluster, or belongs to none (R481). -/
def State.isLead (s : State) : Bool := !s.assigned || s.isSet R.GLB_DEVPOS.LEAD

/-- The device is FENCED (R584, R593). -/
def State.isFenced (s : State) : Bool := s.get R.GLB_MEMBER_STATE.STATE == 3

/-- The members of the cluster whose epoch the device accepts, itself included (R581). -/
def State.members (s : State) : List Nat :=
  if s.assigned then (List.range 64).filter fun d => s.get (R.GLB_PEER_EPOCH.EPOCH d) != 0 else [s.self]

/-- The other members. -/
def State.others (s : State) : List Nat := s.members.filter fun d => d != s.self

/-- The other members of the device's group. -/
def State.groupPeers (s : State) : List Nat := s.others.filter fun d => d / 16 == s.get R.GLB_DEVPOS.GROUP

/-- Its counterparts: the members at its position in the other groups (R440). -/
def State.counterparts (s : State) : List Nat :=
  s.others.filter fun d => d / 16 != s.get R.GLB_DEVPOS.GROUP && d % 16 == s.get R.GLB_DEVPOS.POSITION

/-- Partitions whose start-up self-test term is met (R30). -/
def State.partOk (s : State) (n : Nat) : Bool := bit (s.get R.GLB_READY.PART_OK) n

/-- READY: bits [4:0] of GLB.READY at 1 and the start-up partition term met (R31). -/
def State.ready (s : State) : Bool :=
  s.isSet R.GLB_READY.CXL_CFG && s.isSet R.GLB_READY.BOOT_OK && s.isSet R.GLB_READY.MEM_OK &&
    s.isSet R.GLB_READY.LINKS_OK && s.isSet R.GLB_READY.MERIDIAN_OK && s.flt.startPassed

/-- The device works: out of reset, powered, and not stopped by a device-fatal event (R524, R580, R624). -/
def State.alive (s : State) : Bool := s.pins.sysRstN && s.pins.railsOn && !s.flt.dead

/-- What a command answers: the state it leaves behind the commands that wait, which it never touches. -/
def State.become (s t : State) : Answered := .next { t with pending := s.pending }

/-- The effect of a command on a device that works; one that does not is left as it is. -/
def State.whenAlive (s : State) (f : State → State) : Answered := s.become (if s.alive then f s else s)

/-- The effect of a command on a device out of reset and powered, stopped or not. -/
def State.whenOn (s : State) (f : State → State) : Answered :=
  s.become (if s.pins.sysRstN && s.pins.railsOn then f s else s)

/-! ### Address map (R25 to R28) -/

def tileStoreBase (n : Nat) : Nat := n * 0x10000000
def scratchBase (n : Nat) : Nat := 0x100000000 + n * 0x2000000
def sramBase : Nat := 0xF00000000
def windowBase : Nat := 0xF80000000
def stackBase (n : Nat) : Nat := 0x1000000000 + n * 0xC00000000
def farBase : Nat := 0x10000000000

/-- What lies at a device address. -/
inductive Place where
  | tileStore (n : Nat) | planArea (n : Nat) | granary (n : Nat)
  | scratch (n : Nat) | sram | registers | stack (n : Nat) | far (k : Nat) | unmapped
  deriving DecidableEq, Repr

/-- Bytes of the Granary of tile `n` (R27, R390). -/
def State.granaryBytes (s : State) (n : Nat) : Nat := s.get (R.TSTORE_GRANARY.SIZE n) * 0x400000

/-- The far-tier range that holds an address. -/
def State.farRange (s : State) (a : Nat) : Option Nat :=
  [0, 1].find? fun k =>
    match Table.get none k s.cxl.far with
    | some r => decide (r.base ≤ a ∧ a < r.base + r.bytes)
    | none => false

/-- What lies at a device address, as direct accesses see it (R25 to R28, R167). -/
def State.place (s : State) (a : Nat) : Place :=
  if a < 0x100000000 then
    let n := a / 0x10000000
    let o := a % 0x10000000
    if o < 0x400000 then .planArea n
    else if 0x10000000 ≤ o + s.granaryBytes n then .granary n
    else .tileStore n
  else if a < 0x120000000 then .scratch ((a - 0x100000000) / 0x2000000)
  else if 0xF00000000 ≤ a ∧ a < 0xF01000000 then .sram
  else if 0xF80000000 ≤ a ∧ a < 0xF90000000 then .registers
  else if 0x1000000000 ≤ a ∧ a < 0xD000000000 then .stack ((a - 0x1000000000) / 0xC00000000)
  else match s.farRange a with
    | some k => .far k
    | none => .unmapped

/-- Whether a direct access to an address is accepted: neither reserved nor unmapped (R26). -/
def State.mapped (s : State) (a : Nat) : Bool :=
  match s.place a with
  | .planArea _ | .granary _ | .unmapped | .registers => false
  | _ => true

/-- Whether every byte of a range is accepted: its ends are, and no hole lies between them. -/
def State.mappedRange (s : State) (a n : Nat) : Bool :=
  n == 0 ||
    (s.mapped a && s.mapped (a + n - 1) &&
      match s.place a, s.place (a + n - 1) with
      | .scratch _, .scratch _ => true
      | .stack _, .stack _ => true
      | x, y => x == y)

/-- The partition that owns an address (R25). -/
def State.owner (s : State) (a : Nat) : Option Nat :=
  match s.place a with
  | .tileStore n | .planArea n | .granary n | .scratch n | .stack n => some n
  | _ => none

/-! ### The outside world -/

/-- Send something to the outside world. -/
def State.emit (s : State) (o : Output) : State := { s with out := s.out ++ [o] }

/-- Host memory may be accessed: link up, Bus Master Enable set, IDE active where required (R491, R493). -/
def State.d2hOpen (s : State) : Bool :=
  s.isSet R.CXLU_STATUS.LINK_UP && s.isSet R.CXLU_STATUS.BUS_MASTER &&
    (!s.isSet R.CXLU_CTRL.IDE_REQUIRED || (s.isSet R.CXLU_STATUS.IDE_IO && s.isSet R.CXLU_STATUS.IDE_CM))

/-- A D2H request or an MSI-X message: sent, or held while the port may send none (R491, R493). -/
def State.d2h (s : State) (o : Output) : State :=
  if s.d2hOpen then s.emit o else { s with cxl := { s.cxl with waiting := s.cxl.waiting ++ [o] } }

/-- A message to a vector is due: sent at once, or at the end of the vector's hold-off (R489). -/
def State.message (s : State) (v : Nat) : State :=
  if s.cxl.holdoff.contains v then
    { s with cxl := { s.cxl with irqDue := if s.cxl.irqDue.contains v then s.cxl.irqDue else s.cxl.irqDue ++ [v] } }
  else
    let s := s.d2h (.msix v)
    if s.get R.CXLU_CTRL.IRQ_HOLDOFF_NS == 0 then s
    else { s with cxl := { s.cxl with holdoff := s.cxl.holdoff ++ [v] } }

/-- A record has been written for a vector: its message follows the responses of the writes (R489). -/
def State.recordWritten (s : State) (v : Nat) : State :=
  { s with cxl := { s.cxl with
      goWait := Table.modify 0 v (· + 1) s.cxl.goWait
      irqWant := if s.cxl.irqWant.contains v then s.cxl.irqWant else s.cxl.irqWant ++ [v] } }

end Sys2Proof.Machine
end

