-- ==== Sys2Proof/Machine/Frames.lean ====
section
/-!
DEFINITION. Frames (R445 to R450, spec/13_fjarip_fabric.md): header and CRC, sequence numbers, acknowledgement and the
replay buffer; control message fragments (R466) and error records as bytes (R571).
-/

namespace Sys2Proof.Machine

/-- Frame types (R447). -/
def fIdle : Nat := 0x0
def fData : Nat := 0x1
def fStart : Nat := 0x2
def fBeacon : Nat := 0x3
def fRelay : Nat := 0x4
def fControl : Nat := 0x5
def fNak : Nat := 0x6
def fTrain : Nat := 0x7

/-- A plain frame of a type: 256 bytes of flit. -/
def plainFrame (ty : Nat) (flit : Bytes) : Frame := ⟨ty, false, false, false, false, 0, 0, 0, fit 256 flit⟩

/-- The header of a frame as a number (R447). -/
def frameHeader (f : Frame) : Nat :=
  f.type % 16 + 2 ^ 4 * b2n f.poison + 2 ^ 5 * b2n f.coded + 2 ^ 6 * b2n f.enc + 2 ^ 7 * b2n f.replay +
    2 ^ 8 * (f.seq % 1024) + 2 ^ 18 * (f.ack % 1024) + 2 ^ 28 * (f.srcTile % 16)

/-- The CRC of a frame (R446): over its header, then its flit. -/
def frameCrc (f : Frame) : Nat := crc32 (leBytes 4 (frameHeader f) ++ f.flit)

/-- The data symbols of a frame (R445): flit, header, CRC. -/
def frameData (f : Frame) : Bytes := f.flit ++ leBytes 4 (frameHeader f) ++ leBytes 4 (frameCrc f)

/-- The 272 bytes of a frame (R445, R446): its data symbols and the parity of RS(272,264). -/
def frameBytes (f : Frame) : Bytes := frameData f ++ rsParity (frameData f)

def State.link (s : State) (p : Nat) : Link := Table.get Link.reset p s.links

/-- Replace a port's state by its image. -/
def State.modLink (s : State) (p : Nat) (f : Link → Link) : State :=
  { s with links := Table.modify Link.reset p f s.links }

/-- A frame leaves a port; it carries the current ACK (R448). -/
def State.transmit (s : State) (p : Nat) (f : Frame) : State := s.emit (.frame p { f with ack := (s.link p).rxSeq })

/-- A sequenced frame leaves with the next SEQ and is kept (R447, R449). -/
def State.transmitSeq (s : State) (p : Nat) (f : Frame) (owner : Option (Nat × Nat)) : State :=
  let q := ((s.link p).txSeq + 1) % 1024
  let f := { f with seq := q, ack := (s.link p).rxSeq }
  (s.emit (.frame p f)).modLink p fun l => { l with txSeq := q, replay := l.replay ++ [⟨f, owner, s.now, 0, false⟩] }

/-- Frames that wait leave while the replay buffer has room, at most `n`. -/
def State.drainLink (s : State) (p : Nat) : Nat → State
  | 0 => s
  | n + 1 =>
    match (s.link p).waiting with
    | [] => s
    | (f, o) :: rest =>
      if 256 ≤ (s.link p).replay.length then s
      else State.drainLink ((s.modLink p fun l => { l with waiting := rest }).transmitSeq p f o) p n

/-- Send a sequenced frame: at once, or behind others while the replay buffer is full (R449). -/
def State.sendSeq (s : State) (p : Nat) (f : Frame) (owner : Option (Nat × Nat) := none) : State :=
  let s := s.modLink p fun l => { l with waiting := l.waiting ++ [(f, owner)] }
  s.drainLink p (s.link p).waiting.length

/-- Frames up to the one of a SEQ are acknowledged (R449); the round trip of that frame is kept (R474). -/
def State.acknowledge (s : State) (p ack : Nat) : State :=
  match (s.link p).replay.find? fun x => x.frame.seq == ack with
  | none => s
  | some x =>
    let s := s.put (R.LINK_STATUS.RTT_NS p) (min 0xFFFF (s.now - x.sent))
    let s := s.modLink p fun l => { l with replay := (l.replay.dropWhile fun y => y.frame.seq != ack).drop 1 }
    s.drainLink p 256

/-- Send a NAK, unless one has been sent since the last intact sequenced frame (R448). -/
def State.sendNak (s : State) (p : Nat) : State :=
  if (s.link p).nakSent then s
  else ((s.transmit p (plainFrame fNak [])).modLink p fun l => { l with nakSent := true }).bump (R.LINK_COUNTS1.NAKS_SENT p)

/-! ### Bytes of packets, error records and control messages -/

/-- The 64 bytes of a command packet (R125). -/
def packetBytes (p : Packet) : Bytes :=
  leBytes 1 p.opcode ++ leBytes 1 p.flags ++ leBytes 1 p.cls ++ leBytes 1 p.rsv3 ++ leBytes 4 p.tag ++
    leBytes 4 p.payloadLen ++ leBytes 2 p.tenant ++ leBytes 2 p.rsv14 ++ leBytes 8 p.payloadAddr ++
    leBytes 8 p.p0 ++ leBytes 8 p.p1 ++ leBytes 8 p.p2 ++ leBytes 8 p.p3 ++ leBytes 8 p.p4

/-- The 32 bytes of an error record (R571). -/
def errBytes (r : ErrRec) : Bytes :=
  leBytes 8 r.time ++ leBytes 2 r.code ++ leBytes 1 (r.cls % 16 + 16 * b2n r.partition.isSome + 32 * b2n r.inst.isSome) ++
    leBytes 1 (r.device % 64 + 64 * b2n r.forwarded) ++ leBytes 1 (r.partition.getD 0 % 16 + 16 * (r.inst.getD 0 % 16)) ++
    leBytes 1 r.unit ++ leBytes 2 r.repeats ++ leBytes 8 r.addr ++ leBytes 8 r.furrow

/-- MSG of a control message (R467). -/
def ctrlCode : CtrlBody → Nat
  | .ack _ => 0x01
  | .fwdCmd .. => 0x02
  | .fwdCopy _ _ => 0x02
  | .completion .. => 0x03
  | .laneTable _ => 0x04
  | .laneAccept _ _ => 0x05
  | .laneDiscard .. => 0x06
  | .laneAck .. => 0x07
  | .cfgPrepare _ _ => 0x08
  | .cfgReady _ => 0x08
  | .cfgConflict _ _ => 0x08
  | .cfgCommitGo _ => 0x08
  | .cfgAbort _ => 0x08
  | .t0 _ _ => 0x09
  | .tokens .. => 0x0A
  | .fenced .. => 0x0B
  | .failure .. => 0x0C

/-- The bytes of a control message: by R583 and R125 where they give them. -/
def ctrlBytes : CtrlBody → Bytes
  | .fwdCmd p pay _ => packetBytes p ++ pay.getD []
  | .fenced d e serial => leBytes 4 (d % 64) ++ leBytes 4 e ++ leBytes 8 serial
  | .failure kind d i k r =>
    leBytes 1 kind ++ leBytes 1 (if kind == 2 then d else 0) ++ leBytes 6 (if kind == 1 then i % 16 else 0) ++ leBytes 8 k ++
      List.replicate 16 0 ++ (match r with
        | some r => errBytes r
        | none => List.replicate 32 0)
  | b => Config.ctrlBytes b

/-- The model instance a control message is of, for R469. -/
def ctrlInst : CtrlBody → Option Nat
  | .laneTable t => some t.inst
  | .laneAccept i _ => some i
  | .laneDiscard i _ _ => some i
  | .laneAck i _ _ _ => some i
  | .tokens i _ _ _ _ _ _ => some i
  | _ => none

/-- The CONTROL flits of a message's bytes (R466). -/
def fragments (m : CtrlMsg) (bs : Bytes) : List Bytes :=
  let parts := chunks 240 (bs.length + 1) bs
  (List.zip (List.range parts.length) parts).map fun (e : Nat × Bytes) =>
    leBytes 1 (ctrlCode m.body) ++ leBytes 1 (b2n (e.1 == 0) + 2 * b2n (e.1 + 1 == parts.length)) ++ leBytes 1 m.src ++
      leBytes 1 m.dst ++ leBytes 4 m.msgId ++ leBytes 2 e.2.length ++ leBytes 2 e.1 ++ leBytes 4 m.epoch ++ fit 240 e.2

/-- The next counter of an instance's AES-GCM nonces at a tile (R469). -/
def State.nonce (s : State) (i tile : Nat) : State :=
  { s with coll := { s.coll with nonces := Table.modify 0 (i * 16 + tile) (· + 1) s.coll.nonces } }

/-- The membership epoch of a device, as this one holds it (R455). -/
def State.epochOf (s : State) (d : Nat) : Nat :=
  if d == s.self then s.get R.GLB_MEMBERSHIP.EPOCH else s.get (R.GLB_PEER_EPOCH.EPOCH d)

/-- "FJARIP". -/
def linkLabel : Bytes := [0x46, 0x4A, 0x41, 0x52, 0x49, 0x50]

/-- K_inst of an instance (R552); zeros where it has none. -/
def State.instKey (s : State) (i : Nat) : Bytes := leBytes 32 (((Table.get none i s.sec.keys).map Prod.snd).getD 0)

/-- AES-256-GCM over bytes, either way: what the key stream makes of them (R554). -/
def gcmCrypt (key nonce b : Bytes) : Bytes :=
  (List.zip (List.range b.length) b).map fun (e : Nat × Byte) => e.2 ^^^ Config.gcmStream key nonce e.1

/-- K_link of a sending device for an instance (R555): one byte of instance, one of device, four of its epoch (PRESUMED, log entry 31).
A key of zeros where the instance has none. -/
def State.linkKey (s : State) (i d : Nat) : Bytes :=
  kdf256 (s.instKey i) linkLabel (leBytes 1 i ++ leBytes 1 d ++ leBytes 4 (s.epochOf d))

/-- The nonce of a tile's next stream or message of an instance (R469). -/
def State.gcmNonce (s : State) (i tile : Nat) : Bytes :=
  leBytes 1 s.self ++ leBytes 1 tile ++ leBytes 10 (Table.get 0 (i * 16 + tile) s.coll.nonces)

/-- The tag of a stream or message of an instance that leaves a tile (R469). -/
def State.gcmTag (s : State) (i tile : Nat) (aad data : Bytes) : Bytes :=
  leBytes 16 (Config.gcmTag (s.linkKey i s.self) (s.gcmNonce i tile) aad data).toNat

/-- A message leaves on a port in fragments (R466); it is encrypted where it is of a protected instance (R469). -/
def State.sendFragments (s : State) (p : Nat) (m : CtrlMsg) : State :=
  let prot := match ctrlInst m.body with
    | some i => match Table.get none i s.cfg.instA with
      | some x => if x.prot then some i else none
      | none => none
    | none => none
  let s := s.emit (.ctrl m.dst m)
  match prot with
  | none => (fragments m (ctrlBytes m.body)).foldl (fun (s : State) f => s.sendSeq p (plainFrame fControl f)) s
  | some i =>
    let data := ctrlBytes m.body
    let aad := ((fragments m (data ++ List.replicate 16 0)).headD []).take 16
    let fs := fragments m (data ++ s.gcmTag i 0 aad data)
    fs.foldl (fun (s : State) f => s.sendSeq p { plainFrame fControl f with enc := true }) (s.nonce i 0)

end Sys2Proof.Machine
end

