-- ==== Sys2Proof/Machine/Control.lean ====
section
/-!
DEFINITION. The control channel (R466 to R468, spec/13_fjarip_fabric.md): which port a message takes, sending it, and
what waits for its acknowledgement.
-/

namespace Sys2Proof.Machine

/-- Link states (R474). -/
def linkDown : Nat := 0
def linkDetect : Nat := 1
def linkTrain : Nat := 2
def linkUp : Nat := 3
def linkTest : Nat := 4
def linkFailed : Nat := 5

/-- Whether port `p` is UP. -/
def State.portUp (s : State) (p : Nat) : Bool := s.get (R.LINK_STATUS.STATE p) == linkUp

/-- The positions assigned in a group (R439). -/
def State.groupOf (s : State) (g : Nat) : Nat := Table.get 0 g s.flt.groupSize

/-- The mesh port that reaches a position of the own group (R439). -/
def State.meshPort (s : State) (pos : Nat) : Nat :=
  let n := s.groupOf (s.get R.GLB_DEVPOS.GROUP)
  (pos + n - s.get R.GLB_DEVPOS.POSITION - 1) % n

/-- Groups of the cluster. -/
def State.groups (s : State) : List Nat := (List.range 4).filter fun g => s.groupOf g != 0

/-- The column ports that reach group `b` (R440). -/
def State.columnPorts (s : State) (b : Nat) : List Nat :=
  let j := (s.groups.filter fun g => g != s.get R.GLB_DEVPOS.GROUP).idxOf b
  [15 + 3 * j, 16 + 3 * j, 17 + 3 * j]

/-- The column ports, in a cluster of one group, that double mesh ports (R441). -/
def State.doubledPorts (s : State) : List Nat :=
  (List.range 9).filterMap fun k => if s.isSet (R.LINK_STATUS.DOUBLED (15 + k)) then some (15 + k) else none

/-- The port a control message to a device takes: the mesh port inside the group, the lowest column port that is UP to
another group; `none`: the message is undeliverable (R468). -/
def State.route (s : State) (dst : Nat) : Option Nat :=
  if dst / 16 == s.get R.GLB_DEVPOS.GROUP then
    let p := s.meshPort (dst % 16)
    if s.portUp p then some p else none
  else (s.columnPorts (dst / 16)).find? s.portUp

/-- Whether a message is acknowledged end to end (R467): all but ACK and FENCED; the broadcast of R582, which names a device
other than its receiver, is (DEDUCED). -/
def acknowledged (dst : Nat) : CtrlBody → Bool
  | .ack _ => false
  | .fenced d _ _ => d != dst
  | _ => true

/-- A message that is not sent later where it has no way now: the copy of an error record (R573). -/
def notQueued : CtrlBody → Bool
  | .failure kind _ _ _ _ => kind == 4
  | _ => false

/-- Send a control message on a port, if there is one, and keep it until it is acknowledged (R467): one that has no way now
waits for its resend, but for a copy of an error record (R573).  A dead device sends none (R580). -/
def State.sendPort (s : State) (port : Option Nat) (dst : Nat) (body : CtrlBody) : State :=
  if s.flt.dead || (port.isNone && (notQueued body || !acknowledged dst body)) then s
  else
    let m : CtrlMsg := ⟨s.self, dst, s.flt.nextMsg, s.get R.GLB_MEMBERSHIP.EPOCH, body⟩
    let s := match port with
      | some p => s.sendFragments p m
      | none => s
    { s with flt := { s.flt with
        nextMsg := (s.flt.nextMsg + 1) % 2 ^ 32
        sent := if acknowledged dst body then s.flt.sent ++ [⟨dst, m, false⟩] else s.flt.sent } }

/-- Send a control message by the way that R468 gives. -/
def State.sendCtrl (s : State) (dst : Nat) (body : CtrlBody) : State := s.sendPort (s.route dst) dst body

/-- Send to each of a list of devices. -/
def State.sendAll (s : State) (dsts : List Nat) (body : CtrlBody) : State :=
  dsts.foldl (fun s d => s.sendCtrl d body) s

/-- The device identifier of the lead, as this device knows it. -/
def State.leadId (s : State) : Nat := if s.isLead then s.self else s.flt.leadDevice.getD 0

end Sys2Proof.Machine
end

