-- ==== Sys2Proof/Machine/Rings.lean ====
section
/-!
DEFINITION. Rings, records and tickets (R114 to R119, R133 to R136, spec/04_command_packets.md): completion and token
records as the bytes the host sees, the holds of a ring that cannot take them, and the packets that have no final
completion yet.
-/

namespace Sys2Proof.Machine

/-- Status codes (R134). -/
def statusCode : Status → Nat
  | .ok => 0x00 | .okEmpty => 0x01 | .okLate => 0x02 | .pending => 0x03 | .cancelled => 0x04
  | .rejFormat => 0x10 | .rejZeroExtent => 0x11 | .rejNoSpace => 0x12 | .rejClassFull => 0x13 | .rejDeadline => 0x14
  | .rejVersion => 0x15 | .rejAuth => 0x16 | .cfgConflict => 0x20 | .cfgDivergent => 0x21
  | .failPlot => 0x30 | .failStep => 0x31 | .failFenced => 0x32 | .failDevice => 0x33

/-- Entries of a submission or completion ring, and of a token ring, by SIZE_CODE (R114). -/
def sqSize (c : Nat) : Nat := 16 * 2 ^ c
def trSize (c : Nat) : Nat := 64 * 2 ^ c

def State.sqEntries (s : State) (i : Nat) : Nat := sqSize (s.get (R.QUE_SQ_CTRL.SIZE_CODE i))
def State.cqEntries (s : State) (i : Nat) : Nat := sqSize (s.get (R.QUE_CQ_CTRL.SIZE_CODE i))
def State.trEntries (s : State) (j : Nat) : Nat := trSize (s.get (R.QUE_TR_CTRL.SIZE_CODE j))

/-- PHASE of the records of a pass: 1 on the first pass, inverted on each later one (R116). -/
def phaseOf (pass : Nat) : Nat := (pass + 1) % 2

/-- The bytes of a completion record (R133). -/
def completionBytes (c : Completion) (phase ring head : Nat) : Bytes :=
  leBytes 4 c.tag ++ leBytes 1 c.opcode ++ leBytes 1 (statusCode c.status) ++ leBytes 1 (phase + 2 * b2n c.final) ++
    leBytes 1 c.detail ++ leBytes 2 ring ++ leBytes 2 head ++ leBytes 4 (c.device % 64) ++ leBytes 8 c.result0 ++
    leBytes 8 c.result1

/-- The bytes of a token record (R136). -/
def tokenBytes (t : TokenRec) (phase : Nat) : Bytes :=
  leBytes 4 t.seqId ++ leBytes 4 t.token ++ leBytes 4 t.position ++
    leBytes 1 (statusCode (if t.late then .okLate else .ok)) ++
    leBytes 1 (phase + 2 * b2n t.stop + 4 * b2n t.last + 8 * b2n t.held) ++ leBytes 2 t.furrow

/-- Whether completion ring `i` is in use and full (R115). -/
def State.cqFull (s : State) (i : Nat) : Bool :=
  (s.get (R.QUE_CQ_CTRL.INDEX i) + 1) % s.cqEntries i == Table.get 0 i s.que.cqHead

/-- Whether a completion record can be written now (R118). -/
def State.cqOpen (s : State) (i : Nat) : Bool := s.isSet (R.QUE_CQ_CTRL.ENABLE i) && s.d2hOpen && !s.cqFull i

/-- Write one completion record at the ring's tail. -/
def State.writeCq (s : State) (i : Nat) (c : Completion) : State :=
  let t := s.get (R.QUE_CQ_CTRL.INDEX i)
  let pass := Table.get 0 i s.que.cqPass
  let bytes := completionBytes c (phaseOf pass) i (s.get (R.QUE_SQ_CTRL.INDEX i))
  let t' := (t + 1) % s.cqEntries i
  let s := s.emit (.hostWrite (s.get (R.QUE_CQ_BASE.BASE i) * 4096 + 32 * t) bytes)
  let s := { s.put (R.QUE_CQ_CTRL.INDEX i) t' with que := { s.que with cqStalled := s.que.cqStalled.filter fun k => k != i } }
  let s := if t' == 0 then { s with que := { s.que with cqPass := Table.set 0 i (pass + 1) s.que.cqPass } } else s
  if s.isSet (R.QUE_CQ_CTRL.IRQ_EN i) then s.recordWritten (s.get (R.QUE_CQ_CTRL.IRQ_VECTOR i)) else s

/-- Write the held records of a completion ring while it takes them, at most `n`. -/
def State.drainCqN (s : State) (i : Nat) : Nat → State
  | 0 => s
  | n + 1 =>
    match Table.get [] i s.que.cqHeld with
    | [] => s
    | c :: rest =>
      if s.cqOpen i then
        State.drainCqN ({ s with que := { s.que with cqHeld := Table.set [] i rest s.que.cqHeld } }.writeCq i c) i n
      else s

/-- Write every held record of a completion ring that can be written. -/
def State.drainCq (s : State) (i : Nat) : State := s.drainCqN i (Table.get [] i s.que.cqHeld).length

/-- An enabled full completion ring holds records, or packets of its submission ring: the hold is counted once, until a record is
written (R118). -/
def State.noteHold (s : State) (i : Nat) : State :=
  let full := s.isSet (R.QUE_CQ_CTRL.ENABLE i) && s.d2hOpen && s.cqFull i
  let waits := !(Table.get [] i s.que.cqHeld).isEmpty ||
    (s.isSet (R.QUE_SQ_CTRL.ENABLE i) && s.get (R.QUE_SQ_CTRL.INDEX i) != Table.get 0 i s.que.sqTail)
  if full && waits && !s.que.cqStalled.contains i then
    { s.bump R.QUE_RING_ERRORS.CQ_FULL_STALLS with que := { s.que with cqStalled := s.que.cqStalled ++ [i] } }
  else s

/-- A completion record for ring `i`: written behind the held ones, or held (R118). -/
def State.postCq (s : State) (i : Nat) (c : Completion) : State :=
  ({ s with que := { s.que with cqHeld := Table.modify [] i (· ++ [c]) s.que.cqHeld } }.drainCq i).noteHold i

/-- Whether token ring `j` has a free record and may be written (R107, R108, R491). -/
def State.trOpen (s : State) (j : Nat) : Bool :=
  s.isSet (R.QUE_TR_CTRL.ENABLE j) && s.d2hOpen &&
    (s.get (R.QUE_TR_CTRL.INDEX j) + 1) % s.trEntries j != Table.get 0 j s.que.trHead

/-- A write of a token record joins the last write where both fall in one 64-byte line, in order (R488). -/
def State.emitToken (s : State) (a : Nat) (bs : Bytes) : State × Bool :=
  match s.out.getLast? with
  | some (.hostWrite b old) =>
    if b + old.length == a && a / 64 == b / 64 && old.length % 16 == 0 then
      ({ s with out := s.out.dropLast ++ [.hostWrite b (old ++ bs)] }, true)
    else (s.emit (.hostWrite a bs), false)
  | _ => (s.emit (.hostWrite a bs), false)

/-- Write one token record at the ring's tail. -/
def State.writeTr (s : State) (j : Nat) (t : TokenRec) : State :=
  let i := s.get (R.QUE_TR_CTRL.INDEX j)
  let pass := Table.get 0 j s.que.trPass
  let (s, joined) := s.emitToken (s.get (R.QUE_TR_BASE.BASE j) * 4096 + 16 * i) (tokenBytes t (phaseOf pass))
  let i' := (i + 1) % s.trEntries j
  let s := s.put (R.QUE_TR_CTRL.INDEX j) i'
  let s := if i' == 0 then { s with que := { s.que with trPass := Table.set 0 j (pass + 1) s.que.trPass } } else s
  if s.isSet (R.QUE_TR_CTRL.IRQ_EN j) && !joined then s.recordWritten (s.get (R.QUE_TR_CTRL.IRQ_VECTOR j)) else s

/-! ### Tickets -/

/-- The ring a ticket's packet came from. -/
def Ticket.ring (t : Ticket) : Option Nat := match t.origin with
  | .host i => some i
  | .lead _ _ => none

/-- A packet accepted: it gets the next number. -/
def State.openTicket (s : State) (o : Origin) (p : Packet) (pay : Option Bytes) (img : Option ModelImage) : State × Nat :=
  let t : Ticket := ⟨s.que.nextNo, o, p, pay, img, false, false, none, [], [], 0⟩
  ({ s with que := { s.que with tickets := s.que.tickets ++ [t], nextNo := s.que.nextNo + 1 } }, s.que.nextNo)

/-- The ticket of a number. -/
def State.ticket? (s : State) (no : Nat) : Option Ticket := s.que.tickets.find? fun t => t.no == no

/-- Replace a ticket. -/
def State.mapTicket (s : State) (no : Nat) (f : Ticket → Ticket) : State :=
  { s with que := { s.que with tickets := s.que.tickets.map fun t => if t.no == no then f t else t } }

/-- What a final completion says beyond its status. -/
structure Answer where
  status : Status
  detail : Nat := 0
  device : Option Nat := none
  result0 : Nat := 0
  result1 : Nat := 0
  data : Bytes := []

/-- Write a packet's final completion and close its ticket: a record in its ring's completion ring, or a COMPLETION
message to the lead that forwarded it (R133, R135, R467). -/
def State.finish (s : State) (no : Nat) (a : Answer) : State :=
  match s.ticket? no with
  | none => s
  | some t =>
    let s := { s with que := { s.que with tickets := s.que.tickets.filter fun u => u.no != no } }
    match t.origin with
    | .host i =>
      s.postCq i ⟨t.packet.tag, t.packet.opcode, a.status, true, a.detail, a.device.getD s.self, a.result0, a.result1⟩
    | .lead src msgId => s.sendCtrl src (.completion msgId a.status a.detail a.result0 a.result1 a.data)

/-- Write a packet's PENDING record, at most one (R135). -/
def State.markPending (s : State) (no : Nat) : State :=
  match s.ticket? no with
  | none => s
  | some t =>
    if t.pending then s
    else
    let s := s.mapTicket no fun t => { t with pending := true }
    match t.origin with
    | .host i => s.postCq i ⟨t.packet.tag, t.packet.opcode, .pending, false, 0, s.self, 0, 0⟩
    | .lead _ _ => s

/-- A completion with nothing beside its status. -/
def State.finishWith (s : State) (no : Nat) (st : Status) (detail : Nat := 0) : State :=
  s.finish no { status := st, detail := detail }

/-- An out payload: the first PAYLOAD_LEN bytes of the result, to the packet's PAYLOAD_ADDR (R126). -/
def State.outPayload (s : State) (p : Packet) (bs : Bytes) : State :=
  s.d2h (.hostWrite p.payloadAddr (bs.take p.payloadLen))

end Sys2Proof.Machine
end

