-- ==== Sys2Proof/Machine/Accept.lean ====
section
/-!
DEFINITION. Acceptance of a command packet (R11, R14, R125 to R129, spec/04_command_packets.md): what each opcode defines
of the packet, and the common checks 1 to 4 of R128.
-/

namespace Sys2Proof

/-- The flags F4 to F7 of byte 1, and NO_WAIT and BARRIER (R125). -/
def Packet.f4 (p : Packet) : Bool := Machine.bit p.flags 4
def Packet.f5 (p : Packet) : Bool := Machine.bit p.flags 5
def Packet.noWait (p : Packet) : Bool := Machine.bit p.flags 0
def Packet.barrier (p : Packet) : Bool := Machine.bit p.flags 1

end Sys2Proof

namespace Sys2Proof.Machine

/-- What an opcode does with the payload fields (R125, R127). -/
inductive PayKind where
  | none | into | out
  deriving DecidableEq, Repr

/-- What an opcode defines of the packet in hand: the flag bits of byte 1, whether CLASS is named, its payload, the bits
of P0 to P4 that are not reserved, whether every value field lies in its range, and whether a count or an extent is 0. -/
structure OpSpec where
  flags : Nat := 0
  cls : Bool := false
  pay : PayKind := .none
  words : List Nat := [0, 0, 0, 0, 0]
  inRange : Bool := true
  zeroCount : Bool := false
  zeroExtent : Bool := false

/-- The bits of a word below `w`, and of a field at `lo`. -/
def mask (lo w : Nat) : Nat := (2 ^ w - 1) * 2 ^ lo

/-- Whether a range of device addresses lies wholly in stack memory, where the host places images (R126). -/
def inStack (a n : Nat) : Bool := decide (0x1000000000 ≤ a ∧ a + n ≤ 0xD000000000)

/-- What each opcode defines (R127, R137 to R144, R586, R587); `none` for a reserved opcode.  DURATION_US of TRAFFIC_GEN and LINK_TEST is
an extent for every PATTERN: RETRAIN ignores how long it is, and 0 is refused there too (DESIGN CHOICE, log entry 25). -/
def opSpec (s : State) (p : Packet) : Option OpSpec :=
  match p.opcode with
  | 0x00 => some { pay := .out }
  | 0x01 => some { pay := .out }
  | 0x02 => some { flags := 0x30, pay := if p.f5 then .none else .into, words := [if p.f4 then 0 else mask 0 6, 0, 0, 0, 0] }
  | 0x03 =>
    if p.f4 then
      some { flags := 0x10, words := [mask 0 32, mask 0 64, 0, 0, 0], inRange := s.inSchedule || p.p1 == 0 }
    else some { flags := 0x20, words := [0, 0, if p.f5 then 0 else mask 0 6, 0, 0] }
  | 0x04 => some { words := [mask 0 6, 0, 0, 0, 0] }
  | 0x05 => some { pay := .into }
  | 0x06 => some { flags := 0x10 }
  | 0x07 =>
    if p.f5 then some { flags := 0x20, words := [0, 0, mask 0 6 + mask 8 8, 0, 0], inRange := decide (bits p.p2 12 4 ≤ 8) }
    else some { flags := 0x10, words := [mask 0 64, mask 0 6, 0, 0, 0], inRange := !p.f4 || p.p1 == 0 }
  | 0x08 => some { flags := 0x10, words := [mask 0 6 + mask 8 4, 0, 0, 0, 0] }
  | 0x10 => some { words := [mask 0 64, 0, 0, 0, 0], inRange := p.p0 % 1000000 == 0 }
  | 0x11 => some { pay := .into }
  | 0x12 => some { words := [mask 0 64, 0, 0, 0, 0] }
  | 0x13 => some { flags := 0x10, words := [if p.f4 then 0 else mask 0 64, 0, 0, 0, 0] }
  | 0x20 => some { flags := 0x10, words := [mask 0 64, mask 0 64, mask 0 4, mask 0 64, 0],
                   inRange := p.p3 != 0 && inStack p.p0 p.p1, zeroExtent := p.p1 == 0 }
  | 0x21 => some { words := [mask 0 4, 0, 0, 0, 0] }
  | 0x22 => some { words := [mask 0 4, mask 0 64, mask 0 64, 0, 0], inRange := inStack p.p1 p.p2, zeroExtent := p.p2 == 0 }
  | 0x23 => some { flags := 0x01, words := [mask 0 4 + mask 32 32, mask 0 64, mask 0 64, if p.noWait then 0 else mask 0 32, 0],
                   inRange := bits p.p0 32 32 != 0 && inStack p.p1 p.p2 && decide (p.p3 ≤ 60000),
                   zeroExtent := p.p2 == 0 || (!p.noWait && p.p3 == 0) }
  | 0x24 => some { words := [mask 0 4 + mask 32 32, 0, 0, 0, 0], inRange := bits p.p0 32 32 != 0 }
  | 0x30 => some { flags := 0x10, words := [mask 0 32, mask 0 32, 0, 0, 0], inRange := p.p1 % 64 == 0, zeroExtent := p.p1 == 0 }
  | 0x31 => some { words := [mask 0 64, 0, 0, 0, 0] }
  | 0x32 => some { flags := 0x10, words := [mask 0 4 + mask 32 32, mask 0 32, mask 0 64, mask 0 32, 0],
                   inRange := p.p3 % 64 == 0 && inStack p.p2 64 && (bits p.p0 32 32 != 0 || p.p1 == 0),
                   zeroExtent := p.p3 == 0 }
  | 0x33 => some { words := [mask 0 32, mask 0 32, mask 0 64, 0, 0], inRange := p.p1 % 64 == 0 && inStack p.p2 64,
                   zeroCount := p.p1 == 0 }
  | 0x40 => some { cls := true, words := [mask 0 4 + mask 32 32, mask 0 64, mask 0 32, mask 0 8, 0],
                   inRange := p.cls != 0 && s.isSet (R.QUE_TR_CTRL.ENABLE (p.p3 % 256)), zeroExtent := p.p2 == 0 }
  | 0x41 => some { pay := .into, words := [mask 0 32, 0, 0, 0, 0], inRange := p.payloadLen % 4 == 0 }
  | 0x42 => some { flags := 0x30, pay := .into, words := [mask 0 32, mask 0 32, if p.f4 then mask 0 64 else 0, 0, 0],
                   zeroCount := p.p1 == 0 }
  | 0x43 => some { words := [mask 0 32, 0, 0, 0, 0] }
  | 0x44 => some { words := [mask 0 32, 0, 0, 0, 0] }
  | 0x50 =>
    if p.f4 then some { flags := 0x10 }
    else some { flags := 0x10, words := [mask 0 16, mask 0 32, mask 0 64, mask 0 32, mask 0 16],
                inRange := decide (bits p.p0 8 8 ≤ 64) && p.p2 % 16384 == 0 && decide (1 ≤ p.p3 ∧ p.p3 ≤ 65536),
                zeroExtent := bits p.p0 0 8 == 0 || p.p2 == 0 }
  | 0x51 => some { words := [mask 0 64, mask 0 32, mask 0 16, 0, 0], zeroExtent := p.p1 == 0 }
  | 0x60 => some { words := [mask 0 16, mask 0 64, 0, 0, 0],
                   inRange := p.p1 != 0 && (p.p0 == 0 || decide (800 ≤ p.p0 ∧ p.p0 ≤ 3200)), zeroExtent := p.p0 == 0 }
  | 0x61 => some { pay := .out, words := [mask 0 6, mask 0 16, 0, 0, 0], inRange := decide (1 ≤ p.p1 ∧ p.p1 ≤ 5) }
  | 0x62 => some { flags := 0x10, cls := true, words := [mask 0 6 + mask 8 4, 0, 0, 0, 0],
                   inRange := !p.f4 || (p.cls == 0 && bits p.p0 8 4 == 0) }
  | 0x70 => some { words := [mask 0 6 + mask 8 4 + mask 16 8, mask 0 32, 0, 0, 0],
                   inRange := decide (1 ≤ bits p.p0 16 8 ∧ bits p.p0 16 8 ≤ 7), zeroExtent := p.p1 == 0 }
  | 0x71 => some { words := [mask 0 6 + mask 8 5 + mask 16 8, mask 0 32, 0, 0, 0],
                   inRange := decide (bits p.p0 8 5 < 24) && decide (1 ≤ bits p.p0 16 8 ∧ bits p.p0 16 8 ≤ 5),
                   zeroExtent := p.p1 == 0 }
  | 0x72 => some { pay := .out, words := [mask 0 6 + mask 16 16, 0, 0, 0, 0], inRange := bits p.p0 16 16 != 0 }
  | _ => none

/-- Whether a value has a bit outside a mask. -/
def outside (v m : Nat) : Bool := v &&& m != v

/-- Check 1 of R128: a reserved bit, a reserved encoding or a value out of range. -/
def badFormat (p : Packet) (o : OpSpec) : Bool :=
  outside p.flags (o.flags + 2) || (if o.cls then decide (p.cls > 3) else p.cls != 0) || p.rsv3 != 0 || p.rsv14 != 0 ||
    decide (p.tenant > 1023) ||
    (if o.pay == .none then p.payloadLen != 0 || p.payloadAddr != 0
     else decide (p.payloadLen > 1048576) || p.payloadAddr % 64 != 0) ||
    (List.zip [p.p0, p.p1, p.p2, p.p3, p.p4] o.words).any (fun e => outside e.1 e.2) || !o.inRange

/-- Check 4 of R128: what a ring whose ADMIN is 0 may issue (R129). -/
def unauthorised (s : State) (p : Packet) : Bool :=
  !s.isSet (R.QUE_SQ_CTRL.ADMIN p.ring) &&
    (!(p.opcode == 0x00 || p.opcode == 0x01 || decide (0x30 ≤ p.opcode ∧ p.opcode ≤ 0x44) || p.opcode == 0x51 ||
        p.opcode == 0x61 || p.opcode == 0x62) ||
      p.tenant != s.get (R.QUE_SQ_CTRL.TENANT p.ring) ||
      (p.opcode == 0x40 && s.get (R.QUE_TR_CTRL.TENANT (p.p3 % 256)) != p.tenant))

/-- The common checks 1 to 4 of R128, in order: the status and DETAIL of the first that fails. -/
def commonCheck (s : State) (p : Packet) : Option (Status × Nat) :=
  match opSpec s p with
  | none => some (.rejFormat, 0x81)
  | some o =>
    if badFormat p o then some (.rejFormat, 0x81)
    else if o.zeroCount || (o.pay != .none && p.payloadLen == 0) then some (.okEmpty, 0x82)
    else if o.zeroExtent then some (.rejZeroExtent, 0x83)
    else if unauthorised s p then some (.rejAuth, 0x84)
    else none

/-- The packet that 64 bytes of a submission ring spell (R125). -/
def packetOf (ring : Nat) (b : Bytes) : Packet :=
  { ring := ring, opcode := rd b 0 1, flags := rd b 1 1, cls := rd b 2 1, rsv3 := rd b 3 1, tag := rd b 4 4,
    payloadLen := rd b 8 4, tenant := rd b 12 2, rsv14 := rd b 14 2, payloadAddr := rd b 16 8, p0 := rd b 24 8,
    p1 := rd b 32 8, p2 := rd b 40 8, p3 := rd b 48 8, p4 := rd b 56 8 }

/-- Whether the packet's opcode reads an in payload. -/
def readsPayload (s : State) (p : Packet) : Bool :=
  match opSpec s p with
  | some o => o.pay == .into
  | none => false

end Sys2Proof.Machine
end

