-- ==== Sys2Proof/Machine/Desc.lean ====
section
/-!
DEFINITION. Descriptors (R170 to R181, spec/05_step_plans.md): the fields of a 64-byte descriptor, read in place.
-/

namespace Sys2Proof.Machine

/-- Bits of the byte or word at an offset of a descriptor. -/
def fld (d : Bytes) (off n lo w : Nat) : Nat := bits (rd d off n) lo w

namespace D

/-! Header (R170). -/
def type (d : Bytes) : Nat := fld d 0 1 0 4
def unit (d : Bytes) : Nat := fld d 0 1 4 4
def imm (d : Bytes) : Bool := bit (rd d 1 1) 0
def adapter (d : Bytes) : Bool := bit (rd d 1 1) 1
def sigCtr (d : Bytes) : Nat := fld d 2 2 0 5
def sigEn (d : Bytes) : Bool := bit (rd d 2 2) 5
def sigTile (d : Bytes) : Nat := fld d 2 2 6 4
def sigRemote (d : Bytes) : Bool := bit (rd d 2 2) 10
def depCtr (d : Bytes) (k : Nat) : Nat := fld d (4 + 4 * k) 4 0 5
def depEn (d : Bytes) (k : Nat) : Bool := bit (rd d (4 + 4 * k) 4) 5
def depThreshold (d : Bytes) (k : Nat) : Nat := fld d (4 + 4 * k) 4 8 24

/-! MATMUL (R173). -/
def mWeight (d : Bytes) : Nat := rd d 16 6
def mKBlocks (d : Bytes) : Nat := rd d 22 2
def mAct (d : Bytes) : Nat := rd d 24 6
def mOut (d : Bytes) : Nat := rd d 30 6
def mWfmt (d : Bytes) : Nat := fld d 36 1 0 4
def mAfmt (d : Bytes) : Nat := fld d 36 1 4 4
def mSlot (d : Bytes) : Nat := fld d 37 1 0 6
def mAcc (d : Bytes) : Bool := bit (rd d 37 1) 6
def mWriteOut (d : Bytes) : Bool := bit (rd d 37 1) 7
def mColumns (d : Bytes) : Nat := fld d 38 2 0 9
def mLanes (d : Bytes) : Nat := fld d 38 2 9 5
def mMaster (d : Bytes) : Nat := rd d 40 6
def mScaleBase (d : Bytes) : Nat := fld d 46 2 0 12
def mOutlier (d : Bytes) : Nat := rd d 48 6
def mChain (d : Bytes) : Nat := rd d 54 6

/-! VEC (R175). -/
def vOp (d : Bytes) : Nat := rd d 16 1
def vNIn (d : Bytes) : Nat := fld d 17 1 0 2
def vLength (d : Bytes) : Nat := rd d 20 4
def vIn (d : Bytes) (k : Nat) : Nat := rd d (24 + 6 * k) 6
def vOut (d : Bytes) : Nat := rd d 42 6
def vRows (d : Bytes) : Nat := fld d 48 1 0 5
def vScalarA (d : Bytes) : Nat := rd d 50 1
def vScalarB (d : Bytes) : Nat := rd d 51 1
def vImmA (d : Bytes) : Nat := rd d 52 8
def vImmB (d : Bytes) : Nat := rd d 60 4

/-! ATTEND (R176). -/
def aLayer (d : Bytes) : Nat := rd d 16 1
def aKvHead (d : Bytes) : Nat := fld d 17 1 0 4
def aLaneSet (d : Bytes) : Nat := fld d 17 1 4 2
def aDescMode (d : Bytes) : Bool := bit (rd d 17 1) 6
def aQPerKv (d : Bytes) : Nat := fld d 18 1 0 5
def aKvFmt (d : Bytes) : Nat := fld d 19 1 0 4
def aHeadDim (d : Bytes) : Nat := rd d 20 2
def aEngineMask (d : Bytes) : Nat := rd d 22 1
def aQ (d : Bytes) : Nat := rd d 24 6
def aOut (d : Bytes) : Nat := rd d 30 6
def aStats (d : Bytes) : Nat := rd d 36 6
def aLaneTable (d : Bytes) : Nat := rd d 42 6
def aScalarA (d : Bytes) : Nat := rd d 48 1
def aImmA (d : Bytes) : Nat := rd d 52 8

/-! SAMPLE (R177). -/
def sLogit (d : Bytes) : Nat := rd d 16 6
def sVocabBase (d : Bytes) : Nat := rd d 22 4
def sVocabCount (d : Bytes) : Nat := rd d 26 4
def sCand (d : Bytes) : Nat := rd d 30 6
def sLanes (d : Bytes) : Nat := fld d 36 1 0 5
def sLaneSet (d : Bytes) : Nat := fld d 36 1 5 2
def sFinal (d : Bytes) : Bool := bit (rd d 37 1) 0
def sLaneTable (d : Bytes) : Nat := rd d 38 6

/-! XFER (R178). -/
def xSrc (d : Bytes) : Nat := rd d 16 6
def xDst (d : Bytes) : Nat := rd d 22 6
def xBytes (d : Bytes) : Nat := rd d 28 4
def xKind (d : Bytes) : Nat := fld d 32 1 0 3
def xSrcStride (d : Bytes) : Nat := rd d 34 4
def xDstStride (d : Bytes) : Nat := rd d 38 4
def xElem (d : Bytes) : Nat := rd d 42 4

/-! COLL (R179). -/
def cSlot (d : Bytes) : Nat := rd d 16 2
def cSrc (d : Bytes) : Nat := rd d 20 6
def cDst (d : Bytes) : Nat := rd d 26 6
def cBytes (d : Bytes) : Nat := rd d 32 4
def cRecvCtr (d : Bytes) : Nat := fld d 36 1 0 5
def cRecvEn (d : Bytes) : Bool := bit (rd d 36 1) 5
def cWireFmt (d : Bytes) : Nat := fld d 37 1 0 4

/-! NBU (R180). -/
def nProg (d : Bytes) : Nat := rd d 16 6
def nFirst (d : Bytes) : Nat := fld d 22 1 0 6
def nCount (d : Bytes) : Nat := fld d 23 1 0 7
def nLanes (d : Bytes) : Nat := fld d 24 1 0 3
def nAct (d : Bytes) : Nat := rd d 26 6
def nOut (d : Bytes) : Nat := rd d 32 6
def nAtoms (d : Bytes) : Nat := rd d 38 4

/-! WAIT, HINT and MARK (R181). -/
def wMode (d : Bytes) : Nat := fld d 16 1 0 2
def wOffset (d : Bytes) : Nat := rd d 20 4
def wCtr (d : Bytes) : Nat := fld d 24 1 0 5
def wValue (d : Bytes) : Nat := fld d 28 4 0 24
def hPhase (d : Bytes) : Nat := rd d 16 2
def hAhead (d : Bytes) : Nat := rd d 20 4
def hDuration (d : Bytes) : Nat := rd d 24 4
def hExtra (d : Bytes) : Nat := rd d 28 2

end D

/-- Descriptor types (R171). -/
def tMatmul : Nat := 0x1
def tVec : Nat := 0x2
def tAttend : Nat := 0x3
def tSample : Nat := 0x4
def tXfer : Nat := 0x5
def tColl : Nat := 0x6
def tNbu : Nat := 0x7
def tWait : Nat := 0x8
def tHint : Nat := 0x9
def tMark : Nat := 0xA

/-- The engine queue a descriptor goes to; `none` for those the sequencer executes itself (R182). -/
def queueOf (d : Bytes) : Option Nat :=
  match D.type d with
  | 0x1 => some (D.unit d % 8)
  | 0x2 => some 8
  | 0x3 => some 9
  | 0x4 => some 10
  | 0x5 => some (11 + D.unit d % 4)
  | 0x6 => some 15
  | 0x7 => some 16
  | _ => none

/-- Depth of an engine queue. -/
def queueDepth (q : Nat) : Nat :=
  if q == 9 || q == 10 then 4 else if q == 16 then 8 else 16

end Sys2Proof.Machine
end

