-- ==== Sys2Proof/Machine/Errors.lean ====
section
/-!
DEFINITION. The error log (R569 to R575, spec/17_faults.md): codes and classes, merging, overflow, the copy to the lead
device, the interrupt and FAULT_N.
-/

namespace Sys2Proof.Machine

/-- A record of class PARTITION_FATAL or worse that has been logged is reported on the sideband (R599). -/
def State.reportEvent (s : State) (new : Bool) (r : ErrRec) : State :=
  if new && decide (5 ≤ r.cls) then s.emit (.errorEvent r.code) else s

/-- What an event reports: the columns of R572, with the partition and the instance it concerns. -/
structure Event where
  code : Nat
  cls : Nat
  unit : Nat := 0
  addr : Nat := 0
  partition : Option Nat := none
  inst : Option Nat := none

/-- Drive FAULT_N for an event's class (R575). -/
def State.driveFault (s : State) (e : Event) : State :=
  if e.cls == 7 then { s with pins := { s.pins with faultN := false } }
  else if e.cls == 5 && s.isSet R.GLB_ERR_CTRL.FAULT_ON_PARTITION then
    { s with
      pins := { s.pins with faultN := false }
      flt := { s.flt with faultParts := s.flt.faultParts ++ [e.partition.getD 0] } }
  else s

/-- The interrupt of R574 for a record that has been logged. -/
def State.errorIrq (s : State) (cls : Nat) : State :=
  if s.isLead && s.isSet R.GLB_ERR_CTRL.IRQ_EN && decide (s.get R.GLB_ERR_CTRL.IRQ_CLASS ≤ cls) then
    s.message (s.get R.GLB_ERR_CTRL.IRQ_VECTOR)
  else s

/-- Whether an event merges into the record last written: not consumed, of the same CODE, DEVICE, PARTITION and UNIT, and
at most 1 ms old (R570). -/
def State.mergeable (s : State) (r : ErrRec) : Bool :=
  match s.flt.last with
  | none => false
  | some i =>
    match Table.get none i s.flt.log with
    | none => false
    | some q =>
      s.get R.GLB_ERR_LOG.HEAD != s.get R.GLB_ERR_LOG.TAIL &&
        q.code == r.code && q.device == r.device && q.partition == r.partition && q.unit == r.unit &&
        decide (q.time ≤ r.time ∧ r.time - q.time ≤ 1000000)

/-- Append a record at the log's tail, merge it, or drop it when the log is full (R570); answer whether it is in the log
as a new record. -/
def State.appendRecord (s : State) (r : ErrRec) : State × Bool :=
  if s.mergeable r then
    let i := s.flt.last.getD 0
    let upd : Option ErrRec → Option ErrRec := fun o => o.map fun q => { q with repeats := min 0xFFFF (q.repeats + 1) }
    ({ s with flt := { s.flt with log := Table.modify none i upd s.flt.log } }, false)
  else
    let t := s.get R.GLB_ERR_LOG.TAIL
    if (t + 1) % 64 == s.get R.GLB_ERR_LOG.HEAD then (s.bump R.GLB_ERR_LOG.OVERFLOWS, false)
    else
      ({ (s.put R.GLB_ERR_LOG.TAIL ((t + 1) % 64)) with
          flt := { s.flt with log := Table.set none t (some r) s.flt.log, last := some t } }, true)

/-- The record of an event at this device, now (R571). -/
def State.record (s : State) (e : Event) : ErrRec :=
  ⟨s.now, e.code, e.cls, s.self, false, e.partition, e.inst, e.unit, 0, e.addr, s.furrow⟩

/-- A detected event with a code of R572 is logged: its class is set in the summary, the record written, merged or
dropped, the copy forwarded to the lead (R573), the interrupt signalled (R574) and FAULT_N driven (R575).  A merged occurrence is
forwarded too, so that the lead's copy merges with it; of the dropped, those that the lead acts on under R577 and R579 (DEDUCED,
log entry 49). -/
def State.raise (s : State) (e : Event) : State :=
  let s := s.put R.GLB_ERR_SUMMARY.SEEN (s.get R.GLB_ERR_SUMMARY.SEEN ||| 2 ^ (e.cls - 1))
  let s := s.driveFault e
  if e.cls == 1 && !s.isSet R.GLB_ERR_CTRL.LOG_CORRECTED then s
  else
    let r := s.record e
    let merged := s.mergeable r
    let (s, new) := s.appendRecord r
    let s := (if new then s.errorIrq e.cls else s).reportEvent new r
    let s := if 5 ≤ e.cls && !merged then { s with mgt := { s.mgt with toLog := s.mgt.toLog ++ [r] } } else s
    if 3 ≤ e.cls && e.cls != 7 && !s.isLead && (new || merged || e.cls == 5 || e.code == 0x21) then s.sendCtrl s.leadId (.failure 4 0 0 s.furrow (some r)) else s

/-- A forwarded copy is logged by the lead with FORWARDED set (R573); the summary is not touched (R591).  Every error record of class
PARTITION_FATAL or worse goes to the boot-flash event log too, this device's own or a copy (R570, R604). -/
def State.logForwarded (s : State) (r : ErrRec) : State :=
  let r := { r with forwarded := true, repeats := 0 }
  let s := if decide (5 ≤ r.cls) && !s.mergeable r then { s with mgt := { s.mgt with toLog := s.mgt.toLog ++ [r] } } else s
  let (s, new) := s.appendRecord r
  (if new then s.errorIrq r.cls else s).reportEvent new r

/-! The events of R572. -/

def evSramCorrected (tile addr : Nat) : Event := { code := 0x0001, cls := 1, unit := tile, addr := addr, partition := some tile }
def evStackCorrected (n pc addr : Nat) : Event := { code := 0x0002, cls := 1, unit := pc, addr := addr, partition := some n }
def evPlotRefetched (tile e addr : Nat) : Event := { code := 0x0003, cls := 1, unit := 16 * tile + e, addr := addr, partition := some tile }
def evStackLaneMarked (n pc lane : Nat) : Event := { code := 0x0004, cls := 2, unit := pc, addr := lane, partition := some n }
def evLinkRetrain (port state : Nat) : Event := { code := 0x0005, cls := 2, unit := port, addr := state }
def evLatentPoison (n unit addr : Nat) : Event := { code := 0x0006, cls := 2, unit := unit, addr := addr, partition := some n }
def evThermalEmergency (n src temp : Nat) : Event := { code := 0x0007, cls := 2, unit := src, addr := temp, partition := some n }
def evVrAlert (k : Nat) : Event := { code := 0x0008, cls := 2, unit := k }
def evHostLinkDown : Event := { code := 0x0009, cls := 2 }
def evDivergent (digest : Nat) : Event := { code := 0x000A, cls := 2, addr := digest }
def evUnitFenced (n unit : Nat) : Event := { code := 0x000B, cls := 2, unit := unit, partition := some n }
def evStepFailed (tile idx st : Nat) (i : Option Nat) : Event :=
  { code := 0x0010, cls := 3, unit := tile, addr := idx % 65536 + st * 65536, partition := some tile, inst := i }
def evPoisonConsumed (tile addr : Nat) (i : Option Nat) : Event :=
  { code := 0x0011, cls := 3, unit := tile, addr := addr, partition := some tile, inst := i }
def evAddressError (tile addr : Nat) (i : Option Nat) : Event :=
  { code := 0x0012, cls := 3, unit := tile, addr := addr, partition := some tile, inst := i }
def evKvDamaged (tile addr : Nat) (i : Option Nat) : Event :=
  { code := 0x0013, cls := 3, unit := tile, addr := addr, partition := some tile, inst := i }
def evFarTierLost (k base : Nat) : Event := { code := 0x0014, cls := 3, unit := k, addr := base }
def evEngineFault (tile e cause : Nat) (i : Option Nat) : Event :=
  { code := 0x0015, cls := 3, unit := 16 * tile + e, addr := cause, partition := some tile, inst := i }
def evNbuFault (n unit cause : Nat) (i : Option Nat) : Event :=
  { code := 0x0016, cls := 3, unit := unit, addr := cause, partition := some n, inst := i }
def evStepAbandoned (i : Option Nat) : Event := { code := 0x0017, cls := 3, inst := i }
def evLaneExhausted (set lane seqId inst : Nat) : Event :=
  { code := 0x0018, cls := 3, unit := set * 16 + lane, addr := seqId, inst := some inst }
def evInstanceDegraded (inst run : Nat) : Event := { code := 0x0020, cls := 4, addr := run, inst := some inst }
def evEngineDoubled (tile e : Nat) : Event := { code := 0x0021, cls := 4, unit := 16 * tile + e, partition := some tile }
def evGranaryTag (tile set : Nat) : Event := { code := 0x0030, cls := 5, unit := tile, addr := set, partition := some tile }
def evStackChannelLost (n pc count : Nat) : Event := { code := 0x0031, cls := 5, unit := pc, addr := count, partition := some n }
def evMeridianLost (status : Nat) : Event := { code := 0x0040, cls := 6, addr := status }
def evSelfFenced (digest : Nat) : Event := { code := 0x0041, cls := 6, addr := digest }
def evPeerDeclaredDead (d epoch : Nat) : Event := { code := 0x0042, cls := 6, unit := d, addr := epoch }
def evFencedOnContact (epoch : Nat) : Event := { code := 0x0043, cls := 6, addr := epoch }
def evThermalTrip (n src temp : Nat) : Event := { code := 0x0050, cls := 7, unit := src, addr := temp, partition := some n }
def evControlFault (cause addr : Nat) : Event := { code := 0x0051, cls := 7, unit := cause, addr := addr }
def evScheduleCollapse (limit : Nat) : Event := { code := 0x0060, cls := 8, addr := limit }
def evLeadLost (d : Nat) : Event := { code := 0x0061, cls := 8, addr := d }
def evClusterDivergent (d digest : Nat) : Event := { code := 0x0062, cls := 8, unit := d, addr := digest }

end Sys2Proof.Machine
end

