-- ==== Sys2Proof/Machine/Memory.lean ====
section
/-!
DEFINITION. On-package memory as its readers and writers meet it (R26, R364 to R375, spec/01_organisation.md,
11_on_package_memory.md): segment power, error correction and poison, and the gate every engine access passes.
-/

namespace Sys2Proof.Machine

/-- Sources of an access, as ECC_FAULT.SOURCE encodes them (R393). -/
def srcScrubber : Nat := 1
def srcMatrix : Nat := 2
def srcVector : Nat := 3
def srcAttention : Nat := 4
def srcDrill : Nat := 5
def srcMover : Nat := 6
def srcMesh : Nat := 7
def srcCore : Nat := 8
def srcGranary : Nat := 9

/-! ### Segments (R372, R391) -/

def segOn : Nat := 0
def segRetain : Nat := 1
def segOff : Nat := 2
def segWaking : Nat := 3

/-- A segment: of the tile store of a tile, or of its scratchpad. -/
structure Seg where
  tile : Nat
  sp : Bool
  idx : Nat
  deriving DecidableEq, Repr

/-- The field that holds a segment's current state, and where in it. -/
def Seg.field (g : Seg) : Field := if g.sp then R.TSTORE_SEG_STATUS.SP g.tile else R.TSTORE_SEG_STATUS.TS g.tile
def Seg.asked (g : Seg) : Field := if g.sp then R.TSTORE_SEG_POWER.SP g.tile else R.TSTORE_SEG_POWER.TS g.tile

def State.segState (s : State) (g : Seg) : Nat := bits (s.get g.field) (2 * g.idx) 2
def State.setSeg (s : State) (g : Seg) (v : Nat) : State := s.put g.field (setBits (s.get g.field) (2 * g.idx) 2 v)

/-- First address and bytes of a segment. -/
def Seg.base (g : Seg) : Nat :=
  if g.sp then scratchBase g.tile + g.idx * 0x400000 else tileStoreBase g.tile + g.idx * 0x1000000
def Seg.size (g : Seg) : Nat := if g.sp then 0x400000 else 0x1000000

/-- The segment that holds an address of an SRAM. -/
def segOf (a : Nat) : Option Seg :=
  if a < 0x100000000 then some ⟨a / 0x10000000, false, a % 0x10000000 / 0x1000000⟩
  else if a < 0x120000000 then
    some ⟨(a - 0x100000000) / 0x2000000, true, (a - 0x100000000) % 0x2000000 / 0x400000⟩
  else none

/-- The segments a range touches. -/
def segsOf (a n : Nat) : List Seg :=
  let step := if a < 0x100000000 then 0x1000000 else 0x400000
  if n == 0 then []
  else (List.range ((a + n - 1) / step - a / step + 1)).filterMap fun i => segOf (if i == 0 then a else (a / step + i) * step)

/-! ### Error correction (R370) -/

/-- Record the first poisoned word since VALID was last cleared (R393). -/
def State.eccFault (s : State) (a src : Nat) : State :=
  match segOf a with
  | none => s
  | some g =>
    if s.isSet (R.TSTORE_ECC_FAULT.VALID g.tile) then s
    else
      let s := s.put (R.TSTORE_ECC_FAULT.ADDR g.tile) (a / 64 * 64)
      let s := s.putBit (R.TSTORE_ECC_FAULT.VALID g.tile) true
      let s := s.putBit (R.TSTORE_ECC_FAULT.MEMORY g.tile) g.sp
      s.put (R.TSTORE_ECC_FAULT.SOURCE g.tile) src

/-- What the check bits of a word read show: corrected, or uncorrectable, at an address of an SRAM. -/
structure EccEvent where
  addr : Nat
  corrected : Bool
  deriving DecidableEq, Repr

/-- A reader finds an error in an SRAM word: counted, and poisoned where it cannot be corrected (R370); what an expander returns
poisoned is poisoned (R499). -/
def State.eccEvent (src : Nat) (s : State) (e : Nat × Bool) : State :=
  match segOf e.1 with
  | none => if farBase ≤ e.1 && !e.2 then s.poisonRange e.1 64 else s
  | some g =>
    if e.2 then
      (s.bump (if g.sp then R.TSTORE_ECC_COUNTS.SP_CORRECTED g.tile else R.TSTORE_ECC_COUNTS.TS_CORRECTED g.tile)).raise
        (evSramCorrected g.tile e.1)
    else
      ((s.bump (if g.sp then R.TSTORE_ECC_COUNTS.SP_POISONED g.tile else R.TSTORE_ECC_COUNTS.TS_POISONED g.tile)).poisonRange
        (e.1 / 64 * 64) 64).eccFault e.1 src

/-- Clocks lost to a taken bank are counted (R366, R394). -/
def State.bankStall (s : State) (x : Nat × Bool × Nat) : State :=
  s.wrapAdd (if x.2.1 then R.TSTORE_BANK_STALLS.SP_CONFLICTS x.1 else R.TSTORE_BANK_STALLS.TS_CONFLICTS x.1) x.2.2

/-- What a command's accesses meet: every error its reads find, in order, and the clocks its words lose to taken banks. -/
def State.memReport (s : State) (src : Nat) (m : MemReport) : State :=
  m.conflicts.foldl State.bankStall (m.errors.foldl (State.eccEvent src) s)

/-- Far-tier reads of a range that return poison are counted (R499, R508). -/
def State.countFarPoison (s : State) (a n : Nat) : State :=
  if a < farBase then s
  else s.bump R.CXLD_COUNTS.POISON_READS
    ((List.range (ceilDiv (a % 64 + n) 64)).filter fun i => s.poisoned (a / 64 * 64 + 64 * i) 64).length

/-! ### The gate of an access -/

/-- One range an engine reads or writes; `unchecked`: no poison in it stops the descriptor (it is written, or its reader
judges poison itself). -/
structure Acc where
  addr : Nat
  len : Nat
  unchecked : Bool
  deriving DecidableEq, Repr

/-- What the memories answer to the accesses of a descriptor. -/
inductive Verdict where
  | go
  /-- a segment wakes: the accesses wait (R372) -/
  | wait
  /-- refused or poisoned, with the event to record (R26, R370) -/
  | refuse (e : Event)

/-- Start the wake of a segment in RETAIN (R372). -/
def State.wake (s : State) (g : Seg) : State :=
  if s.segState g == segRetain then (s.setSeg g segWaking).bump (R.TSTORE_WAKE_COUNTS.WAKES g.tile) else s

def State.stack (s : State) (n : Nat) : Stack := Table.get Stack.reset n s.stk
def State.modStack (s : State) (n : Nat) (f : Stack → Stack) : State :=
  { s with stk := Table.modify Stack.reset n f s.stk }

/-- The lanes that run marked after a training, at most two of a pseudo-channel (R410, R431). -/
def marksOf (failed : List Nat) : List Nat := (List.range 64).flatMap fun pc => (failed.filter fun m => m / 64 == pc).take 2

/-- A stack access waits: its partition's controller is held in reset, or trains its lanes (R20, R411, R427). -/
def State.stackBusy (s : State) (x : Acc) : Bool :=
  [x.addr, x.addr + (x.len - 1)].any fun a => match s.place a with
    | .stack n => s.flt.heldParts.contains n || (s.stack n).training.isSome
    | _ => false

/-- The answer to the accesses of a tile's descriptor: refused where one is unmapped or in a segment that is OFF, waiting where a
segment wakes or a stack controller is out of service, and refused where a range read is poisoned (R26, R370, R372, R375, R427). -/
def State.gate (s : State) (tile : Nat) (inst : Option Nat) (l : List Acc) : State × Verdict :=
  match l.find? fun x => !s.mappedRange x.addr x.len with
  | some x => (s, .refuse (evAddressError tile x.addr inst))
  | none =>
    match l.find? fun x => (segsOf x.addr x.len).any fun g => s.segState g == segOff with
    | some x =>
      let off := (segsOf x.addr x.len).find? fun g => s.segState g == segOff
      (s.bump (R.TSTORE_WAKE_COUNTS.OFF_ACCESSES ((off.map Seg.tile).getD tile)), .refuse (evAddressError tile x.addr inst))
    | none =>
      let segs := l.flatMap fun x => segsOf x.addr x.len
      if segs.any fun g => s.segState g != segOn then (segs.foldl State.wake s, .wait)
      else if l.any s.stackBusy then (s, .wait)
      else
        match l.find? fun x => !x.unchecked && s.poisoned x.addr x.len with
        | some x => (s, .refuse (evPoisonConsumed tile x.addr inst))
        | none => (s, .go)

/-- Whether a range lies in a tile's own scratchpad. -/
def inScratch (tile a n : Nat) : Bool := decide (scratchBase tile ≤ a ∧ a + n ≤ scratchBase tile + 0x2000000)

/-- Whether a range lies in a tile's own tile store, above the plan area. -/
def inTileStore (tile a n : Nat) : Bool :=
  decide (tileStoreBase tile + 0x400000 ≤ a ∧ a + n ≤ tileStoreBase tile + 0x10000000)

/-- Whether a range lies in a tile's own stack. -/
def inOwnStack (tile a n : Nat) : Bool := decide (stackBase tile ≤ a ∧ a + n ≤ stackBase tile + 0xC00000000)

end Sys2Proof.Machine
end

