-- ==== Sys2Proof/Machine/Tile.lean ====
section
/-!
DEFINITION. The tile sequencer and its queues (R182 to R196, spec/05_step_plans.md): dependencies, signals, completion,
failure and the SKIP state.  The engines' own chapters are in the files that follow.
-/

namespace Sys2Proof.Machine

def State.tile (s : State) (n : Nat) : Tile := Table.get Tile.reset n s.tiles

/-- Replace a tile's state by its image. -/
def State.modTile (s : State) (n : Nat) (f : Tile → Tile) : State :=
  { s with tiles := Table.modify Tile.reset n f s.tiles }

/-- Sequencer states (R198). -/
def seqIdle : Nat := 0
def seqArmed : Nat := 1
def seqRun : Nat := 2
def seqSkip : Nat := 3
def seqDone : Nat := 4
def seqHeld : Nat := 5
def seqDirect : Nat := 6

def State.seqState (s : State) (n : Nat) : Nat := s.get (R.TILE_SEQ_STATUS.STATE n)
def State.setSeq (s : State) (n v : Nat) : State := s.put (R.TILE_SEQ_STATUS.STATE n) v

/-- The queue of a tile. -/
def State.queue (s : State) (n q : Nat) : List Queued := Table.get [] q (s.tile n).queues

def State.setQueue (s : State) (n q : Nat) (l : List Queued) : State :=
  s.modTile n fun t => { t with queues := Table.set [] q l t.queues }

/-- Replace the head of a queue. -/
def State.setHead (s : State) (n q : Nat) (h : Queued) : State :=
  match s.queue n q with
  | [] => s
  | _ :: rest => s.setQueue n q (h :: rest)

/-- The firmware asks for a logical engine's substitution at the next turnaround (R194): ignored while a pair is doubled
(R195). -/
def State.wantSpare (s : State) (n e : Nat) : State :=
  if s.isSet (R.TILE_ENGINE_MAP.DOUBLED n) then s
  else s.modTile n fun t => { t with spareReq := (List.range 8).filter fun x => x == e || t.spareReq.contains x }

/-- Event counter `c` of a tile (R187). -/
def State.event (s : State) (n c : Nat) : Nat := s.get (R.TILE_EVENT.VALUE n c)

/-- Increments reach a counter, which saturates (R187). -/
def State.signal (s : State) (n c : Nat) (k : Nat := 1) : State := s.bump (R.TILE_EVENT.VALUE n c) k

/-- A dependency holds: not in force, or its counter at or above its threshold (R170). -/
def State.depHolds (s : State) (n : Nat) (d : Bytes) (k : Nat) : Bool :=
  !D.depEn d k || decide (D.depThreshold d k ≤ s.event n (D.depCtr d k))

/-- Apply a descriptor's signal (R184). -/
def State.applySignal (s : State) (n : Nat) (d : Bytes) : State :=
  if D.sigEn d then s.signal (if D.sigRemote d then D.sigTile d else n) (D.sigCtr d) else s

/-- Physical engine of a logical engine (R199). -/
def State.phys (s : State) (n e : Nat) : Nat := bits (s.get (R.TILE_ENGINE_MAP.PHYS n)) (4 * e) 4

/-- Index of the next descriptor to issue (R198). -/
def State.listIndex (s : State) (n : Nat) : Nat := s.get (R.TILE_SEQ_STATUS.LIST_INDEX n)

/-- Every queue of a tile is empty. -/
def State.queuesEmpty (s : State) (n : Nat) : Bool := (s.tile n).queues.isEmpty

/-- Whether a tile still owes the device's step something (R50). -/
def State.owes (s : State) (n : Nat) : Bool :=
  [seqArmed, seqRun, seqSkip, seqHeld].contains (s.seqState n)

/-- The device's step is complete when every sequencer has retired its list (R50): the offset from furrow start is kept. -/
def State.noteDone (s : State) : State :=
  if s.frw.stepOpen && s.frw.doneAt.isNone && (List.range 16).all fun n => !s.owes n then
    { s with frw := { s.frw with doneAt := some (s.now - s.get R.FRW_START_TIME.START_TIME) } }
  else s

/-- A sequencer retires the end of its list once every descriptor of it has completed (R186); a direct list's end
interrupts the control cores (R189). -/
def State.retire (s : State) (n : Nat) : State :=
  if s.queuesEmpty n && decide ((s.tile n).list.length ≤ s.listIndex n) then
    let st := s.seqState n
    if st == seqRun || st == seqSkip then (s.setSeq n (if s.idle then seqIdle else seqDone)).noteDone
    else if st == seqDirect then (s.setSeq n seqIdle).modTile n fun t => { t with coreIrq := true }
    else s
  else s

/-- The schedule has stopped: sequencers that run no list are IDLE (R190). -/
def State.restTiles (s : State) : State :=
  (List.range 16).foldl (fun (s : State) n =>
    if [seqArmed, seqHeld, seqDone].contains (s.seqState n) then s.setSeq n seqIdle else s) s

/-- A descriptor that was issued but has no queue, or does no work, completes: its signal is applied. -/
def State.completeDesc (s : State) (n : Nat) (d : Bytes) : State := (s.applySignal n d).retire n

/-- The head of a queue completes (R184). -/
def State.complete (s : State) (n q : Nat) : State :=
  match s.queue n q with
  | [] => s
  | h :: rest => (s.setQueue n q rest).completeDesc n h.desc

/-- What a replaced engine still writes and signals is dropped and counted, and its descriptor is gone (R196). -/
def State.fencedHead (s : State) (n q : Nat) : State :=
  match s.queue n q with
  | [] => s
  | h :: rest =>
    let s := (s.setQueue n q rest).modTile n fun t => { t with stale := t.stale.filter fun e => e != q }
    (s.bump (R.TILE_SEQ_COUNTS.FENCED_WRITES n) (b2n (D.mWriteOut h.desc) + b2n (D.sigEn h.desc))).retire n

/-- Whether the head of a queue runs on a replaced engine. -/
def State.isStale (s : State) (n q : Nat) : Bool := (s.tile n).stale.contains q

/-- In SKIP, what has not started does no work and completes with its signal; a COLL keeps its place, to send its bytes
marked poisoned at its slot's time (R192).  An ATTEND whose merge waits completes and writes nothing (R332). -/
def State.skipQueue (s : State) (n q : Nat) : State :=
  if q == 15 then s
  else
    let l := s.queue n q
    let stays := fun (h : Queued) => h.started && !(q == 9 && h.waiting)
    let s := s.setQueue n q (l.filter stays)
    (l.filter fun h => !stays h).foldl (fun (s : State) h => s.applySignal n h.desc) s

/-- A tile enters SKIP (R192). -/
def State.enterSkip (s : State) (n : Nat) : State :=
  let s := s.setSeq n seqSkip
  ((List.range 17).foldl (fun (s : State) q => s.skipQueue n q) s).retire n

/-- The tiles of the device that run an instance's step. -/
def State.tilesOf (s : State) (i : Nat) : List Nat :=
  (List.range 16).filter fun n => (s.tile n).inst == some i && s.owes n

/-- The members an active instance runs on. -/
def State.instMembers (s : State) (i : Nat) : List Nat :=
  match Table.get none i s.cfg.instA with
  | some x => s.members.filter fun d => bit x.mask d
  | none => []

/-- Note that an instance's step has failed in this furrow. -/
def State.noteFailed (s : State) (i : Nat) : State :=
  if s.srv.failedInst.contains i then s else { s with srv := { s.srv with failedInst := s.srv.failedInst ++ [i] } }

/-- Who is told that an instance's step has failed: its other members, and the lead, which counts it (R192, R577). -/
def State.failTold (s : State) (i : Nat) : List Nat :=
  let l := s.instMembers i
  (if l.contains s.leadId then l else l ++ [s.leadId]).filter fun d => d != s.self

/-- A step fails on a tile (R192): the descriptor's index and status are kept, every other tile of the instance is sent a
notice, the other members are told, and the tile enters SKIP.  In a direct list the status is kept and the list goes on. -/
def State.stepFail (s : State) (n idx : Nat) (st : Status) : State :=
  let inst := (s.tile n).inst
  let s := s.put (R.TILE_SEQ_STATUS.FAIL_INDEX n) idx
  let s := s.put (R.TILE_SEQ_STATUS.FAIL_STATUS n) (statusCode st)
  let s := s.putBit (R.TILE_SEQ_STATUS.FAILED n) true
  let s := s.raise (evStepFailed n idx (statusCode st) inst)
  if s.seqState n == seqDirect then s
  else
    let s := s.bump (R.TILE_SEQ_COUNTS.FAILED_STEPS n)
    let s := match inst with
      | none => s
      | some i =>
        let s := ((s.tilesOf i).filter fun m => m != n).foldl
          (fun (s : State) m => s.modTile m fun t => { t with notice := true }) s
        if s.srv.failedInst.contains i then s
        else (s.noteFailed i).sendAll (s.failTold i) (.failure 1 0 i s.furrow none)
    s.enterSkip n

/-- The head of a queue ends with a failure: it leaves the queue with its signal, and the step fails (R192). -/
def State.failHead (s : State) (n q : Nat) (st : Status) : State :=
  match s.queue n q with
  | [] => s
  | h :: rest => (((s.setQueue n q rest).applySignal n h.desc).stepFail n h.index st).retire n

/-- The head of a queue ends with FAIL_STEP after an event is recorded (R26, R370). -/
def State.failEvent (s : State) (n q : Nat) (e : Event) : State := (s.raise e).failHead n q .failStep

/-- The descriptor that a queue would start or go on with: of the right type, its dependencies in force holding (but a
chain link's second one), in a state of the sequencer that lets it run (R183, R174). -/
def State.runnable (s : State) (n q ty : Nat) : Option Queued :=
  match s.queue n q with
  | [] => none
  | h :: _ =>
    let st := s.seqState n
    let chain := ty == tMatmul && D.mChain h.desc != 0
    if !s.flt.dead && !s.flt.heldParts.contains n && D.type h.desc == ty && !h.waiting && h.refetch.isNone &&
        (h.started || st == seqRun || st == seqDirect) &&
        s.depHolds n h.desc 0 && (chain || s.depHolds n h.desc 1) then some h
    else none

/-- Physical engines an ATTEND in progress holds (R185). -/
def State.attendHolds (s : State) (n e : Nat) : Bool :=
  match s.queue n 9 with
  | [] => false
  | h :: _ => h.started && bit (D.aEngineMask h.desc) e

/-- Pass a descriptor's accesses through the memories: go on, wait, or fail the head of the queue. -/
def State.gated (s : State) (n q : Nat) (l : List Acc) (go : State → State) : State :=
  match s.gate n (s.tile n).inst l with
  | (s, .go) => go s
  | (s, .wait) => s
  | (s, .refuse e) => s.failEvent n q e

/-- The accesses of a descriptor that works in its own tile's scratchpad alone: one elsewhere is an address error. -/
def State.scratched (s : State) (n q : Nat) (l : List Acc) (go : State → State) : State :=
  match l.find? fun x => !inScratch n x.addr x.len with
  | some x => s.failEvent n q (evAddressError n x.addr (s.tile n).inst)
  | none => s.gated n q l go

end Sys2Proof.Machine
end

