-- ==== Sys2Proof/Machine/Granary.lean ====
section
/-!
DEFINITION. The Granary and its atomic operations (R376 to R388, spec/11_on_package_memory.md).  Lines are held coherently
with device memory: the Granary's state is which line each way holds, whether it is dirty, and the tree of its set.
-/

namespace Sys2Proof.Machine

/-- The region, 0 to 47, of a stack address (R397). -/
def regionOf (a : Nat) : Nat := (a - 0x1000000000) % 0xC00000000 / 2 ^ 30

/-- The stack of a stack address. -/
def stackOf (a : Nat) : Nat := (a - 0x1000000000) / 0xC00000000

/-- Whether a stack address lies in a unit-local region (R397, R428). -/
def State.unitLocal (s : State) (a : Nat) : Bool := bit (s.get (R.STACK_REGION_MODE.UNIT_LOCAL (stackOf a))) (regionOf a)

/-- The home Granary of a line: the stack's own tile, or by address bits [15:12] in the far tier (R377). -/
def State.home (s : State) (a : Nat) : Option Nat :=
  match s.place a with
  | .stack n => some n
  | .far _ => some (bits a 12 4)
  | _ => none

/-- The home of a cacheable line (R377). -/
def State.cacheHome (s : State) (a : Nat) : Option Nat :=
  match s.home a with
  | none => none
  | some n =>
    if s.get (R.TSTORE_GRANARY.SIZE n) == 0 then none
    else if (match s.place a with | .stack _ => s.unitLocal a | _ => false) then none
    else some n

/-- Ways of each set (R376). -/
def State.ways (s : State) (n : Nat) : Nat := 16 * s.get (R.TSTORE_GRANARY.SIZE n)

/-- Set of a line. -/
def setOf (a : Nat) : Nat := bits a 6 12

def State.gset (s : State) (n k : Nat) : GSet := Table.get GSet.empty k (s.tile n).granary
def State.setGset (s : State) (n k : Nat) (g : GSet) : State :=
  s.modTile n fun t => { t with granary := Table.set GSet.empty k g t.granary }

/-- The way of a set that holds a line. -/
def GSet.find (g : GSet) (line : Nat) : Option Nat :=
  (g.ways.find? fun e => (e.2.map Prod.fst) == some line).map Prod.fst

/-! Tree pseudo-LRU: the tree halves the range of ways; a node's bit is 1 where the next victim lies in the upper half. -/

/-- The tree after an access to way `w` of `[lo, hi)`. -/
def plruTouch (w : Nat) : Nat → (node lo hi : Nat) → Table Bool → Table Bool
  | 0, _, _, _, t => t
  | fuel + 1, node, lo, hi, t =>
    if hi ≤ lo + 1 then t
    else
      let mid := (lo + hi) / 2
      if w < mid then plruTouch w fuel (2 * node) lo mid (Table.set false node true t)
      else plruTouch w fuel (2 * node + 1) mid hi (Table.set false node false t)

/-- The way the tree names as victim. -/
def plruVictim (t : Table Bool) : Nat → (node lo hi : Nat) → Nat
  | 0, _, lo, _ => lo
  | fuel + 1, node, lo, hi =>
    if hi ≤ lo + 1 then lo
    else
      let mid := (lo + hi) / 2
      if Table.get false node t then plruVictim t fuel (2 * node + 1) mid hi else plruVictim t fuel (2 * node) lo mid

/-- Count a write-back of a dirty line (R378, R394). -/
def State.writeback (s : State) (n : Nat) : State := s.wrapAdd (R.TSTORE_GRANARY_EVENTS.WRITEBACKS n)

/-- A hit: the line is used, and becomes dirty where it is written. -/
def State.useLine (s : State) (n line : Nat) (write : Bool) : State :=
  let k := setOf line
  let g := s.gset n k
  match g.find line with
  | none => s
  | some w =>
    let old := (Table.get none w g.ways).map Prod.snd
    s.setGset n k
      { ways := Table.set none w (some (line, old == some true || write)) g.ways
        plru := plruTouch w 8 1 0 (s.ways n) g.plru }

/-- Bring a line into its set: into a free way, or in place of the tree's victim, written back where dirty (R376, R378). -/
def State.install (s : State) (n line : Nat) (dirty : Bool) : State :=
  let k := setOf line
  let g := s.gset n k
  match g.find line with
  | some _ => s.useLine n line dirty
  | none =>
    let free := (List.range (s.ways n)).find? fun w => Table.get none w g.ways == none
    let w := free.getD (plruVictim g.plru 8 1 0 (s.ways n))
    let s := match Table.get none w g.ways with
      | some (_, true) => s.writeback n
      | _ => s
    s.setGset n k
      { ways := Table.set none w (some (line, dirty)) g.ways
        plru := plruTouch w 8 1 0 (s.ways n) g.plru }

/-- A lookup is counted (R394); answer whether the line is present. -/
def State.lookup (s : State) (n line : Nat) : State × Bool :=
  if ((s.gset n (setOf line)).find line).isSome then (s.wrapAdd (R.TSTORE_GRANARY_COUNTS.HITS n), true)
  else (s.wrapAdd (R.TSTORE_GRANARY_COUNTS.MISSES n), false)

/-- One line accessed by a source that does not allocate: mover, master refetch or host (R377). -/
def State.passLine (s : State) (line : Nat) (write : Bool) : State :=
  match s.cacheHome line with
  | none => s
  | some n =>
    match s.lookup n line with
    | (s, true) => s.useLine n line write
    | (s, false) => s

/-- Every line of a range accessed by a source that does not allocate. -/
def State.passRange (s : State) (a n : Nat) (write : Bool) : State :=
  if n == 0 || a < 0x1000000000 then s
  else (List.range ((a + n - 1) / 64 - a / 64 + 1)).foldl (fun s i => s.passLine ((a / 64 + i) * 64) write) s

/-- Write back every dirty line and invalidate every line (R386, R387). -/
def State.flushGranary (s : State) (n : Nat) : State :=
  let dirty := ((s.tile n).granary.map fun e => (e.2.ways.filter fun w => (w.2.map Prod.snd) == some true).length).sum
  (s.wrapAdd (R.TSTORE_GRANARY_EVENTS.WRITEBACKS n) dirty).modTile n fun t => { t with granary := [] }

/-- An uncorrectable tag error: the set is invalidated, the stack copies of its dirty lines are poisoned, and the event is
partition-fatal (R376, R579). -/
def State.tagError (s : State) (n line : Nat) : State :=
  let g := s.gset n (setOf line)
  let dirty := g.ways.filterMap fun w => match w.2 with
    | some (l, true) => some l
    | _ => none
  let s := dirty.foldl (fun (s : State) l => s.poisonRange l 64) s
  let s := s.setGset n (setOf line) GSet.empty
  let s := s.raise (evGranaryTag n (setOf line))
  { s with flt := { s.flt with fatalParts := if s.flt.fatalParts.contains n then s.flt.fatalParts else s.flt.fatalParts ++ [n] } }

/-! ### Atomic operations (R382 to R385) -/

/-- What an operation leaves: the new value, or the cause of its refusal, and its flags. -/
structure AtomResult where
  new : Nat
  zero : Bool := false
  wasZero : Bool := false
  success : Bool := false
  cause : Option Nat := none

/-- The new value and flags of an operation on a word of `w` bits (R382, R383). -/
def atomOp (op w old data cmp : Nat) : AtomResult :=
  let m := 2 ^ w
  let old := old % m
  let data := data % m
  match op with
  | 0x1 => let new := (old + data) % m; { new := new, zero := new == 0 }
  | 0x2 => { new := if signed w old ≤ signed w data then old else data }
  | 0x3 => { new := if signed w old ≤ signed w data then data else old }
  | 0x4 => { new := Nat.min old data }
  | 0x5 => { new := Nat.max old data }
  | 0x6 => if old == cmp % m then { new := data, success := true } else { new := old }
  | 0x7 =>
    let r := old % 65536 + data % 65536
    let p := bits old 16 16 + bits data 16 16
    if r > 0xFFFF || p > 0xFFFF then { new := old, cause := some 5 }
    else { new := r + 65536 * p, wasZero := old % 65536 == 0 }
  | 0x8 =>
    if old % 65536 < data % 65536 || bits old 16 16 < bits data 16 16 then { new := old, cause := some 4 }
    else
      let r := old % 65536 - data % 65536
      { new := r + 65536 * (bits old 16 16 - bits data 16 16), zero := r == 0 }
  | _ => { new := old }

/-- The window registers show an operation's end (R396). -/
def State.atomStatus (s : State) (n c old : Nat) (r : AtomResult) : State :=
  let s := s.put (R.TSTORE_ATOM_RESULT.VALUE n c) old
  let s := s.putBit (R.TSTORE_ATOM_STATUS.DONE n c) true
  let s := s.putBit (R.TSTORE_ATOM_STATUS.ZERO n c) r.zero
  let s := s.putBit (R.TSTORE_ATOM_STATUS.WAS_ZERO n c) r.wasZero
  let s := s.putBit (R.TSTORE_ATOM_STATUS.SUCCESS n c) r.success
  let s := s.putBit (R.TSTORE_ATOM_STATUS.REFUSED n c) r.cause.isSome
  s.put (R.TSTORE_ATOM_STATUS.CAUSE n c) (r.cause.getD 0)

/-- Perform an operation on the line present at its home `n` (R382): a refusal of R383 changes nothing and is counted. -/
def State.atomPerform (s : State) (n : Nat) (window : Bool) (c op addr : Nat) (wide : Bool) (data cmp : Nat) : State :=
  let len := if wide then 8 else 4
  let old := s.readNat addr len
  let r := atomOp op (8 * len) old data cmp
  let s := match r.cause with
    | none => ((s.writeNat addr len r.new).useLine n (addr / 64 * 64) true).wrapAdd (R.TSTORE_GRANARY_EVENTS.ATOMICS n)
    | some k => s.bump (if k == 4 then R.TSTORE_ATOM_EVENTS.REF_UNDERFLOW n else R.TSTORE_ATOM_EVENTS.REF_OVERFLOW n)
  if window then s.atomStatus n c old r else s

/-- A refusal of R385: in the window's status, or as a store access fault of an AMO. -/
def State.atomRefuse (s : State) (n : Nat) (window : Bool) (c cause addr : Nat) : State :=
  let s := s.bump (R.TSTORE_ATOM_EVENTS.ATOM_REFUSED n)
  if window then
    let s := s.putBit (R.TSTORE_ATOM_STATUS.DONE n c) true
    let s := s.putBit (R.TSTORE_ATOM_STATUS.ZERO n c) false
    let s := s.putBit (R.TSTORE_ATOM_STATUS.WAS_ZERO n c) false
    let s := s.putBit (R.TSTORE_ATOM_STATUS.SUCCESS n c) false
    let s := s.putBit (R.TSTORE_ATOM_STATUS.REFUSED n c) true
    s.put (R.TSTORE_ATOM_STATUS.CAUSE n c) cause
  else s.emit (.coreFault addr true)

/-- Issue an operation at tile `n` for core `c`: refused under R385, performed on a line that is present, or made to wait
for the line's fill (R377, R380, R384). -/
def State.atomIssue (s : State) (n : Nat) (window : Bool) (c op addr : Nat) (wide : Bool) (data cmp : Nat) : State :=
  let len := if wide then 8 else 4
  match s.cacheHome addr with
  | none => s.atomRefuse n window c 1 addr
  | some h =>
    if window && h != n then s.atomRefuse n window c 2 addr
    else if addr % len != 0 || (wide && decide (7 ≤ op)) then s.atomRefuse h window c 3 addr
    else
      match s.lookup h (addr / 64 * 64) with
      | (s, true) => s.atomPerform h window c op addr wide data cmp
      | (s, false) =>
        let s := if window then s.putBit (R.TSTORE_ATOM_STATUS.DONE n c) false else s
        s.modTile h fun t => { t with fills := t.fills ++ [(addr / 64 * 64, .atom window c op addr wide data cmp)] }

/-- How a control core issues an operation (R384): through the atomic window of tile `n`, whose ADDR, DATA and CMP are in
their registers, or as an AMO on an address; RISC-V's other atomic operations raise a store access fault. -/
def State.atomCommand (s : State) (r : AtomRoute) (op : Nat) : State :=
  match r with
  | .window n c wide =>
    if !s.isSet (R.TSTORE_ATOM_STATUS.DONE n c) then s
    else s.atomIssue n true c op (s.get (R.TSTORE_ATOM_ADDR.ADDR n c)) wide (s.get (R.TSTORE_ATOM_DATA.VALUE n c))
      (s.get (R.TSTORE_ATOM_CMP.VALUE n c))
  | .amo c addr wide data =>
    if 1 ≤ op && op ≤ 5 then s.atomIssue ((s.home addr).getD 0) false c op addr wide data 0 else s.emit (.coreFault addr true)

end Sys2Proof.Machine
end

