-- ==== Sys2Proof/Machine/Float.lean ====
section
/-!
DEFINITION. Number formats and rounding (R210, R233 to R236, R264, spec/06_matrix_engines.md, 07_number_formats.md,
08_vector_engine_and_drill.md).  A number is held exactly, as a fraction times a power of two; every operation is exact
and one rounding brings it to a format, to nearest with ties away from zero.
-/

namespace Sys2Proof.Machine

/-- An exact extended real: NaN, an infinity, or ±(num / den) × 2^e with `den` above 0.  Zero keeps its sign. -/
inductive Num where
  | nan
  | inf (neg : Bool)
  | fin (neg : Bool) (num den : Nat) (e : Int)
  deriving DecidableEq, Repr

/-- +0. -/
def Num.zero : Num := .fin false 0 1 0

/-- An integer. -/
def Num.ofInt (i : Int) : Num := .fin (decide (i < 0)) i.natAbs 1 0

/-- 2^k. -/
def Num.pow2 (k : Int) : Num := .fin false 1 1 k

/-- A floating-point format (R235): its field widths and bias, the encodings of its largest finite value, of what a finite
value beyond it becomes, of an infinity and of NaN (R234), all without the sign. -/
structure Fmt where
  expW : Nat
  manW : Nat
  bias : Nat
  hasInf : Bool
  maxFin : Nat
  overflow : Nat
  infEnc : Nat
  nanEnc : Nat
  deriving DecidableEq, Repr

def fp32 : Fmt := ⟨8, 23, 127, true, 0x7F7FFFFF, 0x7F800000, 0x7F800000, 0x7FC00000⟩
def bf16 : Fmt := ⟨8, 7, 127, true, 0x7F7F, 0x7F80, 0x7F80, 0x7FC0⟩
def e4m3 : Fmt := ⟨4, 3, 7, false, 0x7E, 0x7E, 0x7F, 0x7F⟩
def e5m2 : Fmt := ⟨5, 2, 15, true, 0x7B, 0x7B, 0x7C, 0x7E⟩

/-- Bytes of an element. -/
def Fmt.bytes (f : Fmt) : Nat := (1 + f.expW + f.manW) / 8

/-- The number that an encoding stands for (R235). -/
def Fmt.decode (f : Fmt) (v : Nat) : Num :=
  let neg := bit v (f.expW + f.manW)
  let e := bits v f.manW f.expW
  let m := bits v 0 f.manW
  let top := e == 2 ^ f.expW - 1
  if f.hasInf && top then (if m == 0 then .inf neg else .nan)
  else if !f.hasInf && top && m == 2 ^ f.manW - 1 then .nan
  else if e == 0 then .fin neg m 1 (1 - (f.bias : Int) - f.manW)
  else .fin neg (2 ^ f.manW + m) 1 ((e : Int) - f.bias - f.manW)

/-- num/den × 2^e as a fraction of natural numbers. -/
def fraction (num den : Nat) (e : Int) : Nat × Nat :=
  if 0 ≤ e then (num * 2 ^ e.toNat, den) else (num, den * 2 ^ (-e).toNat)

/-- The natural number nearest num/den, ties up (R233, of a magnitude). -/
def nearest (num den : Nat) : Nat := (2 * num + den) / (2 * den)

/-- floor(log2(num/den)), for num and den above 0. -/
def floorLog2 (num den : Nat) : Int :=
  let k : Int := (Nat.log2 num : Int) - Nat.log2 den
  let (a, b) := fraction num den (-k)
  if b ≤ a then k else k - 1

/-- The encoding of a positive magnitude without its sign, rounded once (R233, R234). -/
def Fmt.magnitude (f : Fmt) (num den : Nat) (e : Int) : Nat :=
  let least : Int := 1 - (f.bias : Int) - f.manW
  let u := max (floorLog2 num den + e - f.manW) least
  let (a, b) := fraction num den (e - u)
  let code := nearest a b + (u - least).toNat * 2 ^ f.manW
  if code ≤ f.maxFin then code else f.overflow

/-- The encoding of a number: rounded once to nearest, ties away from zero (R233, R234). -/
def Fmt.round (f : Fmt) : Num → Nat
  | .nan => f.nanEnc
  | .inf neg => if f.hasInf then f.infEnc + (b2n neg) * 2 ^ (f.expW + f.manW) else f.infEnc
  | .fin neg num den e =>
    (if num == 0 then 0 else f.magnitude num den e) + (b2n neg) * 2 ^ (f.expW + f.manW)

/-- The number an encoding rounded to a format stands for. -/
def Fmt.rnd (f : Fmt) (x : Num) : Num := f.decode (f.round x)

def Num.isNan : Num → Bool
  | .nan => true
  | _ => false

def Num.isFinite : Num → Bool
  | .fin _ _ _ _ => true
  | _ => false

def Num.isZero : Num → Bool
  | .fin _ n _ _ => n == 0
  | _ => false

def Num.negative : Num → Bool
  | .nan => false
  | .inf n => n
  | .fin n _ _ _ => n

def Num.neg : Num → Num
  | .nan => .nan
  | .inf n => .inf (!n)
  | .fin n a d e => .fin (!n) a d e

def Num.abs : Num → Num
  | .nan => .nan
  | .inf _ => .inf false
  | .fin _ a d e => .fin false a d e

/-- a/b over den × 2^e, signed: the exact sum of two finite numbers. -/
def Num.addFin (n₁ : Bool) (a₁ d₁ : Nat) (e₁ : Int) (n₂ : Bool) (a₂ d₂ : Nat) (e₂ : Int) : Num :=
  let e := min e₁ e₂
  let x : Int := ((a₁ * 2 ^ (e₁ - e).toNat * d₂ : Nat) : Int) * (if n₁ then -1 else 1)
  let y : Int := ((a₂ * 2 ^ (e₂ - e).toNat * d₁ : Nat) : Int) * (if n₂ then -1 else 1)
  let z := x + y
  if z == 0 then .fin (n₁ && n₂ && a₁ == 0 && a₂ == 0) 0 1 0
  else .fin (decide (z < 0)) z.natAbs (d₁ * d₂) e

/-- The exact sum; ∞ − ∞ is invalid and gives NaN (R210). -/
def Num.add : Num → Num → Num
  | .nan, _ => .nan
  | _, .nan => .nan
  | .inf a, .inf b => if a == b then .inf a else .nan
  | .inf a, .fin _ _ _ _ => .inf a
  | .fin _ _ _ _, .inf b => .inf b
  | .fin n₁ a₁ d₁ e₁, .fin n₂ a₂ d₂ e₂ => Num.addFin n₁ a₁ d₁ e₁ n₂ a₂ d₂ e₂

def Num.sub (x y : Num) : Num := x.add y.neg

/-- The exact product; 0 × ∞ is invalid (R210). -/
def Num.mul : Num → Num → Num
  | .nan, _ => .nan
  | _, .nan => .nan
  | .inf a, .inf b => .inf (a != b)
  | .inf a, .fin n m _ _ => if m == 0 then .nan else .inf (a != n)
  | .fin n m _ _, .inf b => if m == 0 then .nan else .inf (n != b)
  | .fin n₁ a₁ d₁ e₁, .fin n₂ a₂ d₂ e₂ => .fin (n₁ != n₂) (a₁ * a₂) (d₁ * d₂) (e₁ + e₂)

/-- The exact quotient; 0/0 and ∞/∞ are invalid, a finite number over 0 is an infinity (IEEE 754-2019 through R210). -/
def Num.div : Num → Num → Num
  | .nan, _ => .nan
  | _, .nan => .nan
  | .inf _, .inf _ => .nan
  | .inf a, .fin n _ _ _ => .inf (a != n)
  | .fin n _ _ _, .inf b => .fin (n != b) 0 1 0
  | .fin n₁ a₁ d₁ e₁, .fin n₂ a₂ d₂ e₂ =>
    if a₂ == 0 then (if a₁ == 0 then .nan else .inf (n₁ != n₂))
    else .fin (n₁ != n₂) (a₁ * d₂) (d₁ * a₂) (e₁ - e₂)

/-- 1/√x: an infinity for zero, NaN for a negative number or NaN (R266).  The fraction carries 64 bits beyond any format's
significand and its last bit is set when the root is not exact, so that one rounding of it is the rounding of the exact
value. -/
def Num.invSqrt : Num → Num
  | .nan => .nan
  | .inf neg => if neg then .nan else .zero
  | .fin neg a d e =>
    if a == 0 then .inf neg
    else if neg then .nan
    else
      let up := e % 2 != 0
      let d' := if up then d * 2 else d
      let e' := if up then e + 1 else e
      -- x = (a / d') × 2^e' with e' even, so 1/√x = √(d' / a) × 2^(-e'/2)
      let p := 128 + Nat.log2 a
      let q := d' * 2 ^ (2 * p)
      let r := Nat.sqrt (q / a)
      let exact := r * r * a == q
      .fin false (2 * r + (if exact then 0 else 1)) 1 (-(e' / 2) - p - 1)

/-- Strict order of extended reals; false where either is NaN. -/
def Num.lt (x y : Num) : Bool :=
  match x, y with
  | .nan, _ => false
  | _, .nan => false
  | .inf a, .inf b => a && !b
  | .inf a, .fin _ _ _ _ => a
  | .fin _ _ _ _, .inf b => !b
  | .fin _ _ _ _, .fin _ _ _ _ =>
    match x.sub y with
    | .fin n a _ _ => n && a != 0
    | _ => false

def Num.le (x y : Num) : Bool := !x.isNan && !y.isNan && !y.lt x

def Num.eq (x y : Num) : Bool := x.le y && y.le x

/-- MAX of R264: NaN where either is NaN, +0 above −0. -/
def Num.max (x y : Num) : Num :=
  if x.isNan || y.isNan then .nan
  else if x.lt y then y else if y.lt x then x else if x.negative then y else x

/-- MIN of R264. -/
def Num.min (x y : Num) : Num :=
  if x.isNan || y.isNan then .nan
  else if x.lt y then x else if y.lt x then y else if x.negative then x else y

/-- rta of a fraction: to the nearest integer, ties away from zero (R233). -/
def rtaFrac (neg : Bool) (num den : Nat) (e : Int) : Int :=
  let (a, b) := fraction num den e
  let m : Int := (nearest a b : Nat)
  if neg then -m else m

/-- clamp(rta(x), lo, hi); an infinity is held at its limit; `free` stands for a NaN, whose integer no rule states. -/
def Num.rtaClamp (x : Num) (lo hi free : Int) : Int :=
  match x with
  | .nan => free
  | .inf neg => if neg then lo else hi
  | .fin neg a d e => Max.max lo (Min.min hi (rtaFrac neg a d e))

/-- A right shift of an integer with ties away from zero (R245). -/
def shiftTies (p : Int) (sh : Nat) : Int :=
  if sh == 0 then p
  else
    let m : Int := ((p.natAbs + 2 ^ (sh - 1)) / 2 ^ sh : Nat)
    if p < 0 then -m else m

/-! ### FP32 operations on encodings -/

def dec32 (v : Nat) : Num := fp32.decode v
def rnd32 (x : Num) : Nat := fp32.round x
def add32 (a b : Nat) : Nat := rnd32 ((dec32 a).add (dec32 b))
def mul32 (a b : Nat) : Nat := rnd32 ((dec32 a).mul (dec32 b))

/-! ### The exponential (R276) -/

/-- Fixed-point fraction bits of the exponential's evaluation. -/
def expBits : Nat := 320

/-- Σ over k of (−x)^k / k!, x in units of 2^-expBits below 2^-1, from term `k` on, with `n` terms to go. -/
def expSeries (x : Nat) : Nat → Nat → Int → Int → Int
  | 0, _, _, acc => acc
  | n + 1, k, term, acc =>
    let t' := -(term * (x : Int)) / ((2 ^ expBits * (k + 1) : Nat) : Int)
    expSeries x n (k + 1) t' (acc + t')

/-- Square a fixed-point number `n` times. -/
def squares : Nat → Nat → Nat
  | 0, y => y
  | n + 1, y => squares n (y * y / 2 ^ expBits)

/-- e(x) = round_fp32(exp(x)) for x at most 0 (R276): the exponential to about 300 bits, rounded once.  An argument below
−104 gives 0, since exp(−104) is below half the smallest subnormal; exp of an argument other than 0 is never a tie. -/
def expNeg (x : Num) : Nat :=
  match x with
  | .nan => fp32.nanEnc
  | .inf neg => if neg then 0 else fp32.infEnc
  | .fin neg a d e =>
    if a == 0 then 0x3F800000
    else if !neg then fp32.nanEnc
    else if x.lt (.ofInt (-104)) then 0
    else
      let (n, m) := fraction a d e
      let y := n * 2 ^ expBits / (m * 2 ^ 8)
      let r := expSeries y 96 0 (2 ^ expBits : Nat) (2 ^ expBits : Nat)
      rnd32 (.fin false (squares 8 r.toNat) 1 (-(expBits : Int)))

end Sys2Proof.Machine
end

