-- ==== Sys2Proof/Machine/Plots.lean ====
section
/-!
DEFINITION. Plots (R288 to R301, spec/09_harrow_and_plots.md): headers, sidecars, payloads, code tables and exponent
coding, and the checks of R306 that a plot passes before its groups are released.
-/

namespace Sys2Proof.Machine

/-! ### Kinds (R292) -/

/-- Column-group width. -/
def kindN (k : Nat) : Nat :=
  match k with
  | 1 => 32 | 2 => 32 | 3 => 16 | 4 => 16 | 5 => 8 | 6 => 8 | 7 => 4 | 8 => 16 | 9 => 32 | _ => 1

/-- Largest GROUPS. -/
def kindGroups (k : Nat) : Nat := if k == 5 || k == 6 || k == 7 then 8 else 4

/-- Header bytes. -/
def kindHeader (k : Nat) : Nat :=
  match k with
  | 1 => 256 | 2 => 320 | 3 => 192 | 7 => 192 | _ => 64

/-- Raw payload bytes of one group. -/
def kindGroupBytes (k : Nat) : Nat := if k == 5 || k == 6 || k == 7 then 512 else 1024

/-! ### Header fields (R291) -/

namespace P
def magic (b : Bytes) : Nat := rd b 0 2
def kind (b : Bytes) : Nat := rd b 2 1
def coded (b : Bytes) : Bool := bit (rd b 3 1) 0
def table (b : Bytes) : Nat := bits (rd b 4 1) 0 4
def groups (b : Bytes) : Nat := rd b 5 1
def payloadBytes (b : Bytes) : Nat := rd b 6 2
def tensor (b : Bytes) : Nat := rd b 8 4
def index (b : Bytes) : Nat := rd b 12 4
def tableOffset (b : Bytes) : Int := signed 32 (rd b 16 4)
def crc (b : Bytes) : Nat := rd b 28 4
def header (b : Bytes) : Nat := kindHeader (kind b)
def size (b : Bytes) : Nat := header b + payloadBytes b
def payload (b : Bytes) : Bytes := slice b (header b) (payloadBytes b)
end P

/-- The bytes a plot's CRC runs over (R295). -/
def plotCrcBytes (b : Bytes) : Bytes := slice b 0 28 ++ slice b 32 (P.header b - 32) ++ P.payload b

/-- Every bit of a sidecar that R293 reserves or leaves to groups beyond GROUPS is 0. -/
def sidecarClean (b : Bytes) : Bool :=
  let g := P.groups b
  match P.kind b with
  | 1 => rd b (32 + 32 * g) (128 - 32 * g) == 0 && rd b 160 80 >>> (160 * g) == 0 && rd b 240 16 == 0
  | 2 => rd b (32 + 32 * g) (128 - 32 * g) == 0 && rd b 160 80 >>> (160 * g) == 0 && rd b (240 + 16 * g) (80 - 16 * g) == 0
  | 3 => rd b (32 + 16 * g) (64 - 16 * g) == 0 && rd b 96 40 >>> (80 * g) == 0 && rd b 136 56 == 0
  | 7 => rd b 160 32 == 0 && (P.coded b || rd b 32 128 == 0)
  | _ => true

/-- Check 1 of R306 against an expected kind. -/
def headerClean (b : Bytes) (kind : Nat) (prot : Bool) : Bool :=
  P.magic b == 0x4C50 && P.kind b == kind && decide (1 ≤ P.groups b ∧ P.groups b ≤ kindGroups kind) &&
    (kind != 8 && kind != 9 || P.groups b == 4) &&
    decide (64 ≤ P.payloadBytes b ∧ P.payloadBytes b ≤ 4096) && P.payloadBytes b % 64 == 0 &&
    rd b 3 1 < 2 && rd b 4 1 < 16 && rd b 20 8 == 0 &&
    (if P.coded b then kind == 7 && !prot
     else P.table b == 0 && rd b 16 4 == 0 && P.payloadBytes b == kindGroupBytes kind * P.groups b) &&
    sidecarClean b

/-! ### Sidecar fields (R293) -/

/-- Block scale of group `j`, column `i`. -/
def sideScale (b : Bytes) (j i : Nat) : Nat := rd b (32 + kindN (P.kind b) * j + i) 1

/-- Base exponent of group `j`, column `i`. -/
def sideBase (b : Bytes) (j i : Nat) : Nat :=
  let k := P.kind b
  bits (rd b (if k == 3 then 96 else 160) (if k == 3 then 40 else 80)) (5 * (kindN k * j + i)) 5

/-- Zero point of group `j`, column `i`. -/
def sideZero (b : Bytes) (j i : Nat) : Nat :=
  let f := 32 * j + i
  bits (rd b (240 + f / 2) 1) (4 * (f % 2)) 4

/-! ### Code tables (R299, R300) -/

/-- The codewords of a table of 128 bytes: length, codeword and exponent, in canonical order. -/
def codewords (t : Bytes) : List (Nat × Nat × Nat) :=
  let len := fun e => bits (rd t (e / 2) 1) (4 * (e % 2)) 4
  let syms := ((List.range 15).map (· + 1)).flatMap fun l => ((List.range 256).filter fun e => len e == l).map fun e => (l, e)
  let next := fun (acc : List (Nat × Nat × Nat)) (s : Nat × Nat) =>
    match acc with
    | [] => [(s.1, 0, s.2)]
    | (l, c, e) :: rest => (s.1, (c + 1) * 2 ^ (s.1 - l), s.2) :: (l, c, e) :: rest
  (syms.foldl next []).reverse

/-- A table is whole: it has a codeword, no reserved length, and meets the Kraft bound (R299). -/
def tableClean (t : Bytes) : Bool :=
  let cw := codewords t
  !cw.isEmpty && cw.all (fun c => decide (c.1 ≤ 10)) && decide ((cw.map fun c => 2 ^ (10 - c.1)).sum ≤ 2 ^ 10)

/-- A code table block is whole, by its MAGIC, COUNT, CRC and lengths (R299, R305). -/
def blockClean (blk : Bytes) : Bool :=
  let n := rd blk 4 1
  rd blk 0 4 == 0x4C425443 && decide (1 ≤ n ∧ n ≤ 16) && rd blk 5 3 == 0 && rd blk 12 52 == 0 &&
    rd blk 8 4 == crc32c (slice blk 64 (128 * n)) &&
    (List.range n).all fun t => tableClean (slice blk (64 + 128 * t) 128)

/-! ### Exponent coding (R296 to R298, R301) -/

/-- How a sub-stream's decoding ends: its exponents, or the cause of R306. -/
abbrev SubStream := List Nat × Option Nat

/-- Decode `n` symbols from bits, most significant bit of a codeword first; causes 0x7, 0x5 and 0x6 of R306. -/
def decodeSub (cw : List (Nat × Nat × Nat)) (longest : Nat) :
    List Bool → (n len code : Nat) → List Nat → SubStream
  | [], n, _, _, acc => (acc.reverse, if n == 0 then none else some 0x5)
  | b :: rest, n, len, code, acc =>
    if n == 0 then (acc.reverse, some 0x6)
    else
      let len := len + 1
      let code := 2 * code + b2n b
      match cw.find? fun c => c.1 == len && c.2.1 == code with
      | some c => decodeSub cw longest rest (n - 1) 0 0 (c.2.2 :: acc)
      | none => if longest ≤ len then (acc.reverse, some 0x7) else decodeSub cw longest rest n len code acc

/-- LENGTH of sub-stream `s`. -/
def subLength (b : Bytes) (s : Nat) : Nat := rd b (32 + s) 1

/-- Check 8 of R306: PAYLOAD_BYTES and every LENGTH are as R301 says. -/
def codedSizeClean (b : Bytes) : Bool :=
  let g := P.groups b
  let total := ((List.range 128).map (subLength b)).sum
  P.payloadBytes b == 64 * ceilDiv (256 * g + ceilDiv total 8) 64 && decide (P.payloadBytes b < 512 * g) &&
    (List.range 128).all fun s => decide (2 * g ≤ subLength b s ∧ subLength b s ≤ 20 * g)

/-- The bits of the exponent area (R298). -/
def exponentBits (b : Bytes) : List Bool :=
  ((P.payload b).drop (256 * P.groups b)).flatMap fun x => (List.range 8).map fun i => x.getLsbD i

/-- The sub-streams of a coded plot, decoded with a table. -/
def subStreams (b : Bytes) (table : Bytes) : List SubStream :=
  let cw := codewords table
  let longest := cw.foldl (fun m c => max m c.1) 0
  let area := exponentBits b
  let step := fun (acc : Nat × List SubStream) s =>
    let n := subLength b s
    (acc.1 + n, decodeSub cw longest ((area.drop acc.1).take n) (2 * P.groups b) 0 0 [] :: acc.2)
  ((List.range 128).foldl step (0, [])).2.reverse

/-- The BF16 values of a coded plot in plot order (R297, R303). -/
def codedValues (b : Bytes) (subs : List SubStream) : List Nat :=
  (List.range (256 * P.groups b)).map fun v =>
    let sm := rd (P.payload b) v 1
    let e := ((subs.getD (v % 256 / 2) ([], none)).1).getD (2 * (v / 256) + v % 2) 0
    (sm / 128) * 32768 + e * 128 + sm % 128

/-- The values of a raw payload in plot order (R294). -/
def rawValues (b : Bytes) : List Nat :=
  let p := P.payload b
  match P.kind b with
  | 1 | 2 | 9 => p.flatMap fun x => [x.toNat % 16, x.toNat / 16]
  | 7 => (List.range (p.length / 2)).map fun v => rd p (2 * v) 2
  | _ => p.map BitVec.toNat

/-! ### Groups -/

/-- A column group as the Harrow releases it: 64 rows of N stored values, and the sidecar fields of its columns. -/
structure Group where
  vals : List Nat
  scales : List Nat
  bases : List Nat
  zeros : List Nat

/-- The groups of a plot whose values are decoded. -/
def plotGroups (b : Bytes) (vals : List Nat) : List Group :=
  let n := kindN (P.kind b)
  (List.range (P.groups b)).map fun j =>
    { vals := (vals.drop (64 * n * j)).take (64 * n)
      scales := (List.range n).map (sideScale b j)
      bases := (List.range n).map (sideBase b j)
      zeros := (List.range n).map (sideZero b j) }

/-- A block scale breaks R212 or R237. -/
def scaleBroken (scale base : Nat) : Bool :=
  let e := scale / 8
  if e == 0 then scale % 8 != 0 else !decide (base ≤ e ∧ e ≤ base + 7)

/-- Check 5 of R306: a block scale of a block-scaled kind breaks R212 or R237. -/
def scalesBroken (b : Bytes) : Bool :=
  decide (1 ≤ P.kind b ∧ P.kind b ≤ 3) &&
    (List.range (P.groups b)).any fun j => (List.range (kindN (P.kind b))).any fun i =>
      scaleBroken (sideScale b j i) (sideBase b j i)

/-- Check 6 of R306: the columns of the plot's groups against the base exponents carried before, and the map with the
plot's own added; `g0` is the number of the first group in the descriptor, `per` the groups of a K-block. -/
def baseMap (b : Bytes) (g0 per : Nat) (m : Table Nat) : Option (Table Nat) :=
  if P.kind b == 1 || P.kind b == 2 || P.kind b == 3 then
    let n := kindN (P.kind b)
    let cells := (List.range (P.groups b)).flatMap fun j => (List.range n).map fun i =>
      (n * ((g0 + j) % per) + i, sideBase b j i + 1)
    cells.foldl (fun acc c =>
      match acc with
      | none => none
      | some m =>
        let old := Table.get 0 c.1 m
        if old == 0 then some (Table.set 0 c.1 c.2 m) else if old == c.2 then some m else none) (some m)
  else some m

/-- The checks 7 to 11 of R306 on a coded plot with its code table block, and its values. -/
def decodePlot (b : Bytes) (blk : Bytes) : Except Nat (List Nat) :=
  if !blockClean blk || decide (rd blk 4 1 ≤ P.table b) then .error 0x8
  else if !codedSizeClean b then .error 0x4
  else
    let subs := subStreams b (slice blk (64 + 128 * P.table b) 128)
    if subs.any fun s => s.2 == some 0x7 then .error 0x7
    else if subs.any fun s => s.2 == some 0x5 then .error 0x5
    else if subs.any fun s => s.2 == some 0x6 then .error 0x6
    else .ok (codedValues b subs)

/-! ### Exponent coding of a unit, as the collective interface sends it (R310) -/

/-- Bits most significant first of a codeword. -/
def codeBits (len code : Nat) : List Bool := (List.range len).map fun i => bit code (len - 1 - i)

/-- Bytes of a list of bits, the first bit the least significant of the first byte (R298). -/
def bitsToBytes (l : List Bool) : Bytes :=
  (List.range (ceilDiv l.length 8)).map fun i =>
    BitVec.ofNat 8 (bitSet ((List.range 8).filter fun j => l.getD (8 * i + j) false))

/-- The sub-streams of 2,048 BF16 values coded with a table; `none` where an exponent has no codeword. -/
def codeUnit (table : Bytes) (vals : List Nat) : Option (List (List Bool)) :=
  let cw := codewords table
  let word := fun v => (cw.find? fun c => c.2.2 == bits v 7 8).map fun c => codeBits c.1 c.2.1
  (List.range 128).mapM fun s =>
    ((List.range (vals.length / 256)).flatMap fun t => [256 * t + 2 * s, 256 * t + 2 * s + 1]).foldl
      (fun acc v => match acc, word (vals.getD v 0) with
        | some l, some w => some (l ++ w)
        | _, _ => none) (some [])

/-- A coded unit's bytes: a 192-byte KIND 0x7 header and the coded payload (R310). -/
def unitBytes (t : Nat) (vals : List Nat) (subs : List (List Bool)) : Bytes :=
  let area := bitsToBytes subs.flatten
  let sm := vals.map fun v => BitVec.ofNat 8 (v / 32768 * 128 + v % 128)
  let payload := fit (64 * ceilDiv (sm.length + area.length) 64) (sm ++ area)
  let head := leBytes 2 0x4C50 ++ leBytes 1 7 ++ leBytes 1 1 ++ leBytes 1 t ++ leBytes 1 (vals.length / 256) ++
    leBytes 2 payload.length ++ List.replicate 20 0
  let side := fit 160 (subs.map fun l => BitVec.ofNat 8 l.length)
  head ++ leBytes 4 (crc32c (head ++ side ++ payload)) ++ side ++ payload

/-- The form a unit of 4,096 bytes is sent in: coded with the best table, or raw (R310). -/
def sendUnit (blk : Bytes) (raw : Bytes) : Bytes × Bool :=
  let vals := (List.range 2048).map fun v => rd raw (2 * v) 2
  let tries := (List.range (rd blk 4 1)).filterMap fun t =>
    (codeUnit (slice blk (64 + 128 * t) 128) vals).map fun subs => unitBytes t vals subs
  match tries.foldl (fun best u => match best with
      | none => some u
      | some (v : Bytes) => if u.length < v.length then some u else some v) (none : Option Bytes) with
  | some u => if u.length < 4096 then (u, true) else (raw, false)
  | none => (raw, false)

/-- The BF16 bytes a received coded unit stands for; `none` where it fails a check of R306 other than check 3 (R311). -/
def receiveUnit (blk b : Bytes) : Option Bytes :=
  if !headerClean b 7 false || P.crc b != crc32c (plotCrcBytes b) then none
  else match decodePlot b blk with
    | .ok vals => some (vals.flatMap (leBytes 2))
    | .error _ => none

end Sys2Proof.Machine
end

