-- ==== Sys2Proof/Machine/Matrix.lean ====
section
/-!
DEFINITION. The matrix engines (R191, R203 to R228, R302 to R307, spec/06_matrix_engines.md, 09_harrow_and_plots.md): a
MATMUL's stream through the Harrow, its block sums and accumulator slot, write-out, chains, damage and engine faults.
-/

namespace Sys2Proof.Machine

/-! ### Operands (R205 to R207) -/

/-- Bytes of an activation element. -/
def actBytes (afmt : Nat) : Nat := if afmt == 5 then 2 else 1

/-- The 64 stored activation elements of a lane in a K-block. -/
def State.actRow (s : State) (act afmt k lane : Nat) : List Nat :=
  let b := actBytes afmt
  let bs := s.read (act + k * 16 * 64 * b + lane * 64 * b) (64 * b)
  (List.range 64).map fun r => rd bs (b * r) b

/-- An integer weight operand (R207). -/
def intWeight (wfmt v z : Nat) : Int :=
  match wfmt with
  | 1 => signed 4 v
  | 2 => (v : Int) - z
  | _ => signed 8 v

/-- An integer activation operand (R207). -/
def intAct (afmt v z : Nat) : Int := if afmt == 2 then (v : Int) - z else signed 8 v

/-- Formats of floating-point operands. -/
def wFmt (wfmt : Nat) : Fmt := if wfmt == 5 then e4m3 else if wfmt == 6 then e5m2 else bf16
def aFmt (afmt : Nat) : Fmt := if afmt == 3 then e4m3 else if afmt == 4 then e5m2 else bf16

/-- Sums in FP32 with the note of an invalid operation (R210, R213). -/
structure FpSum where
  val : Num
  invalid : Bool

/-- A result rounded to FP32; a NaN from numbers is an invalid operation. -/
def fpResult (x y z : Num) (before : Bool) : FpSum :=
  ⟨fp32.rnd z, before || (z.isNan && !x.isNan && !y.isNan)⟩

def FpSum.add (x y : FpSum) : FpSum := fpResult x.val y.val (x.val.add y.val) (x.invalid || y.invalid)

/-- One level of a balanced pairwise tree (R208). -/
def pairUp {α : Type} (op : α → α → α) : List α → List α
  | a :: b :: rest => op a b :: pairUp op rest
  | l => l

/-- A balanced tree of `n` levels. -/
def treeOf {α : Type} (op : α → α → α) : Nat → List α → List α
  | 0, l => l
  | n + 1, l => treeOf op n (pairUp op l)

/-- Column `i` of a group's stored values. -/
def Group.column (g : Group) (n i : Nat) : List Nat := (List.range 64).map fun r => g.vals.getD (n * r + i) 0

/-- The integer block sum (R208, R209). -/
def intBlock (w a : List Int) : Int := (List.zipWith (· * ·) w a).foldl (· + ·) 0

/-- The floating-point block sum (R208, R210). -/
def fpBlock (w a : List Num) : FpSum :=
  ((treeOf FpSum.add 6 (List.zipWith (fun x y => fpResult x y (x.mul y) false) w a)).head?).getD ⟨.zero, false⟩

/-- A clamp to 32 bits, and whether it changed the value (R211, R213). -/
def clamp32 (t : Int) : Int × Bool := (clampS 32 t, clampS 32 t != t)

/-- The scaled term of an integer block sum (R211). -/
def scaledTerm (wfmt : Nat) (sum : Int) (scale base : Nat) : Int × Bool :=
  if wfmt == 4 then (sum, false)
  else
    let e := scale / 8
    if e == 0 then (0, false) else clamp32 (sum * ((8 + scale % 8 : Nat) : Int) * ((2 ^ (e - base) : Nat) : Int))

/-! ### Accumulator slots (R213) -/

def Slot.get (x : Slot) (l c : Nat) : Nat := Table.get 0 (l * 256 + c) x.vals
def Slot.put (x : Slot) (l c v : Nat) : Slot := { x with vals := Table.set 0 (l * 256 + c) v x.vals }

/-- Add an integer to an entry. -/
def Slot.addInt (x : Slot) (l c : Nat) (t : Int) (clampedBefore : Bool) : Slot :=
  let (v, clamped) := clamp32 (signed 32 (x.get l c) + t)
  let x := x.put l c (unsign 32 v)
  if clamped || clampedBefore then { x with sat := true, colSat := x.colSat ||| 2 ^ c } else x

/-- Add an FP32 number to an entry. -/
def Slot.addFp (x : Slot) (l c : Nat) (t : FpSum) : Slot :=
  let old := dec32 (x.get l c)
  let r := FpSum.add ⟨old, false⟩ t
  let inf := old.isFinite && t.val.isFinite && !r.val.isFinite && !r.val.isNan
  let x := x.put l c (rnd32 r.val)
  { x with invalid := x.invalid || r.invalid, overflow := x.overflow || inf }

/-- Whether a weight format is on the integer path. -/
def intPath (wfmt : Nat) : Bool := decide (wfmt ≤ 4)

/-- A MATMUL in hand: its fields, the outlier rows, and the zero points of its lanes. -/
structure Mm where
  d : Bytes
  rows : List Nat
  zeros : List Nat

/-- Activation operands of a K-block, for each lane of a list; an outlier row's integer operand is 0 (R220). -/
def State.intActs (s : State) (m : Mm) (k lane : Nat) : List Int :=
  let vals := s.actRow (D.mAct m.d) (D.mAfmt m.d) k lane
  (List.range 64).map fun r =>
    if m.rows.contains (64 * k + r) then 0 else intAct (D.mAfmt m.d) (vals.getD r 0) (m.zeros.getD lane 0)

def State.fpActs (s : State) (m : Mm) (k lane : Nat) : List Num :=
  (s.actRow (D.mAct m.d) (D.mAfmt m.d) k lane).map (aFmt (D.mAfmt m.d)).decode

/-- Add a column group into a slot of `columns` columns for the given lanes; the operands are given by K-block and lane
(R204, R208 to R213). -/
def addGroupTo (wf columns : Nat) (ints : Nat → Nat → List Int) (fps : Nat → Nat → List Num) (lanes : List Nat) (x : Slot)
    (gi : Nat) (g : Group) : Slot :=
  let n := kindN wf
  let per := ceilDiv columns n
  let k := gi / per
  let cols := (List.range n).filter fun i => decide (n * (gi % per) + i < columns)
  lanes.foldl (fun x l =>
    if intPath wf then
      let a := ints k l
      cols.foldl (fun x i =>
        let w := (g.column n i).map fun v => intWeight wf v (g.zeros.getD i 0)
        let (t, c) := scaledTerm wf (intBlock w a) (g.scales.getD i 0) (g.bases.getD i 0)
        x.addInt l (n * (gi % per) + i) t c) x
    else
      let a := fps k l
      cols.foldl (fun x i => x.addFp l (n * (gi % per) + i) (fpBlock ((g.column n i).map (wFmt wf).decode) a)) x) x

/-- Add a column group of a MATMUL. -/
def State.addGroup (s : State) (m : Mm) (lanes : List Nat) (x : Slot) (gi : Nat) (g : Group) : Slot :=
  addGroupTo (D.mWfmt m.d) (D.mColumns m.d) (s.intActs m) (s.fpActs m) lanes x gi g

/-! ### The Harrow's walk over the plots of a MATMUL (R302 to R306) -/

/-- How a walk ends. -/
inductive WalkEnd where
  /-- every group is released -/
  | done
  /-- a plot is damaged: its address, the cause of R306 and INDEX as read -/
  | damaged (addr cause index : Nat)
  /-- the plot cannot be read now, or not at all: another Harrow's copy of it runs, or the memories' gate does not let it pass -/
  | stopped (addr len : Nat)

/-- What a walk has released and counted, and how it ends. -/
structure Walk where
  groups : List (Nat × Group) := []
  coded : Nat := 0
  raw : Nat := 0
  loads : Nat := 0
  cache : List (Nat × Bytes)
  stop : WalkEnd := .done

/-- Bytes of the plot that begins at an address: its header, and its payload as the header gives it. -/
def State.plotAt (s : State) (a : Nat) : Bytes := s.read a (P.size (s.read a 32))

/-- The code table block a coded plot names, from the Harrow's slots or from memory (R305). -/
def State.codeBlock (s : State) (cache : List (Nat × Bytes)) (a : Nat) (b : Bytes) : Bytes × Bool :=
  match cache.find? fun e => e.1 == P.tensor b with
  | some e => (e.2, false)
  | none =>
    let at' := ((a : Int) + 64 * P.tableOffset b).toNat
    (s.read at' (64 + 128 * (rd (s.read at' 64) 4 1)), true)

/-- The checks 1, 2, 5 and 7 to 11 of R306, which look at the plot alone: the cause, or its values. -/
def plotAlone (b blk : Bytes) (kind : Nat) (prot poisoned : Bool) : Except Nat (List Nat) :=
  if !headerClean b kind prot then .error 0x2
  else if poisoned || P.crc b != crc32c (plotCrcBytes b) then .error 0x1
  else if scalesBroken b then .error 0x9
  else if P.coded b then decodePlot b blk
  else .ok (rawValues b)

/-- All checks of R306 in order, on the plot at an address; `first` is TENSOR and INDEX of the plot before it. -/
def State.plotCause (s : State) (a : Nat) (b blk : Bytes) (kind : Nat) (prot : Bool) (first : Option (Nat × Nat))
    (gi need per : Nat) (bases : Table Nat) : Except Nat (List Nat × Table Nat) :=
  match plotAlone b blk kind prot (s.poisoned a (P.size b)) with
  | .error 0x2 => .error 0x2
  | .error 0x1 => .error 0x1
  | r =>
    if (match first with | none => false | some (t, i) => P.tensor b != t || P.index b != i + 1) then .error 0x3
    else if need < gi + P.groups b then .error 0xA
    else
      match r with
      | .error 0x9 => .error 0x9
      | _ =>
        match baseMap b gi per bases with
        | none => .error 0xB
        | some m => match r with
          | .error c => .error c
          | .ok vals => .ok (vals, m)

/-- A plot may be read: no other engine's copy of it runs (R307), and the memories let it pass (R26, R372). -/
def State.plotReadable (s : State) (n : Nat) (busy : List Nat) (a len : Nat) : Bool :=
  !busy.contains a && match (s.gate n (s.tile n).inst [⟨a, len, true⟩]).2 with
    | .go => true
    | _ => false

/-- A plot that ends its MATMUL's share, as fewer groups than a full plot's say (R292), while more are needed: damaged at this last
plot (R306).  The cause is that of check 4 (DESIGN CHOICE, log entry 29); where the last plot is full, the plot that follows fails its
own checks. -/
def endsShort (kind need gi : Nat) (b : Bytes) : Bool :=
  decide (P.groups b < kindGroups kind ∧ gi + P.groups b < need)

/-- Where a MATMUL's walk reads: tile, kind, groups of a K-block and of the MATMUL, first group wanted, protection of the tile, and the
plots that other engines' copies replace. -/
structure WalkCtx where
  tile : Nat
  kind : Nat
  per : Nat
  need : Nat
  start : Nat
  prot : Bool
  busy : List Nat

/-- Walk the plots from an address until the groups needed are released or the walk stops; groups below the first one wanted are passed
over, as a restart does (R191). -/
def State.walk (s : State) (c : WalkCtx) : Nat → (a gi : Nat) → Option (Nat × Nat) → Table Nat → Walk → Walk
  | 0, _, _, _, _, w => w
  | fuel + 1, a, gi, first, bases, w =>
    if c.need ≤ gi then w
    else if !s.plotReadable c.tile c.busy a (P.size (s.read a 32)) then { w with stop := .stopped a (P.size (s.read a 32)) }
    else
      let b := s.plotAt a
      let (blk, fresh) := if headerClean b c.kind c.prot && P.coded b then s.codeBlock w.cache a b else ([], false)
      let w := if fresh then { w with loads := w.loads + 1, cache := (P.tensor b, blk) :: w.cache.take 1 } else w
      match s.plotCause a b blk c.kind c.prot first gi c.need c.per bases with
      | .error k => { w with stop := .damaged a k (P.index b) }
      | .ok (vals, m) =>
        if endsShort c.kind c.need gi b then { w with stop := .damaged a 0xA (P.index b) }
        else
          let gs := (List.range (P.groups b)).map (gi + ·)
          let w := { w with groups := w.groups ++ (List.zip gs (plotGroups b vals)).filter fun e => decide (c.start ≤ e.1) }
          let w := if gi + P.groups b ≤ c.start then w
            else if P.coded b then { w with coded := w.coded + 1 } else { w with raw := w.raw + 1 }
          s.walk c fuel (a + ceilDiv (P.size b) 64 * 64) (gi + P.groups b) (some (P.tensor b, P.index b)) m w

/-! ### Outliers (R220) -/

/-- The outlier record's rows where it is whole; `none` where it is damaged. -/
def State.outlierRows (s : State) (d : Bytes) : Option (List Nat) :=
  if D.mOutlier d == 0 then some []
  else
    let r := s.read (D.mOutlier d) 128
    let n := rd r 0 1
    let rows := (List.range n).map fun i => rd r (64 + 2 * i) 2
    let rest := (List.range (32 - n)).all fun i => rd r (64 + 2 * (n + i)) 2 == 0
    let rising := (List.zip rows (rows.drop 1)).all fun e => decide (e.1 < e.2)
    if allZero (slice r 1 63) && decide (n ≤ 32) && rest && rising && rows.all (fun x => decide (x < 64 * D.mKBlocks d)) &&
        !s.poisoned (D.mOutlier d) 128 then some rows
    else none

/-- Bytes of one listed row's weights. -/
def outlierRowBytes (cols : Nat) : Nat := ceilDiv (2 * cols) 64 * 64

/-- The outlier sums, lane-major (R220). -/
def State.outlierSums (s : State) (d : Bytes) (rows : List Nat) : List Nat :=
  let cols := D.mColumns d
  (List.range (D.mLanes d)).flatMap fun l => (List.range cols).map fun c =>
    rnd32 ((List.range rows.length).foldl (fun o i =>
      let w := bf16.decode (s.readNat (D.mOutlier d + 128 + i * outlierRowBytes cols + 2 * c) 2)
      let a := bf16.decode (s.readNat (D.mAct d + D.mKBlocks d * 16 * 64 + l * 64 + 2 * i) 2)
      fp32.rnd (o.add (fp32.rnd (w.mul a)))) .zero)

/-! ### Write-out (R217, R218) -/

/-- Offset of what follows the raw sums. -/
def rawEnd (lanes cols : Nat) : Nat := ceilDiv (4 * lanes * cols) 64 * 64

/-- Offset of the trailer of a write-out region. -/
def trailerAt (lanes cols : Nat) (outlier : Bool) : Nat := (if outlier then 2 else 1) * rawEnd lanes cols

/-- Bytes of a write-out region. -/
def regionBytes (lanes cols : Nat) (outlier : Bool) : Nat := trailerAt lanes cols outlier + 64

/-- The status trailer (R217). -/
def trailerBytes (x : Slot) (cols : Nat) : Bytes :=
  leBytes 1 (b2n x.sat + 2 * b2n x.invalid + 4 * b2n x.overflow) ++ List.replicate 31 0 ++ leBytes 32 (x.colSat % 2 ^ cols)

/-- The region a slot is written out to (R217). -/
def regionOfSlot (x : Slot) (lanes cols : Nat) (outliers : Option (List Nat)) : Bytes :=
  let sums := (List.range lanes).flatMap fun l => (List.range cols).flatMap fun c => leBytes 4 (x.get l c)
  fit (rawEnd lanes cols) sums ++
    (match outliers with
      | some o => fit (rawEnd lanes cols) (o.flatMap (leBytes 4))
      | none => []) ++ trailerBytes x cols

/-- The events of a saturated column reach its scale register (R218, R249). -/
def State.satColumns (s : State) (n base : Nat) (cols : List Nat) : State :=
  cols.foldl (fun s c => s.bump (R.TILE_SCALE_REG.SAT_COUNT n (base + c))) s

/-- A write-out updates the engine's registers (R218). -/
def State.countWriteOut (s : State) (n e : Nat) (d : Bytes) (x : Slot) : State :=
  let b := D.mSlot d
  let s := if x.sat then
      (s.put (R.TILE_MAT_SAT.SLOTS n e) (s.get (R.TILE_MAT_SAT.SLOTS n e) ||| 2 ^ b)).bump (R.TILE_MAT_COUNTS.SAT_WRITEOUTS n e)
    else s
  let s := if x.invalid || x.overflow then
      (s.put (R.TILE_MAT_FPEXC.SLOTS n e) (s.get (R.TILE_MAT_FPEXC.SLOTS n e) ||| 2 ^ b)).bump
        (R.TILE_MAT_COUNTS.FPEXC_WRITEOUTS n e)
    else s
  if D.mWfmt d == 4 then s.satColumns n (D.mScaleBase d) (bitList (D.mColumns d) x.colSat) else s

def State.slot (s : State) (n e k : Nat) : Slot := Table.get Slot.clear (s.phys n e * 64 + k) (s.tile n).slots
def State.setSlot (s : State) (n e k : Nat) (x : Slot) : State :=
  let p := s.phys n e
  s.modTile n fun t => { t with slots := Table.set Slot.clear (p * 64 + k) x t.slots }

/-- Write a slot out, where the descriptor says so, and complete (R217, R184). -/
def State.writeOut (s : State) (n e : Nat) (d : Bytes) (outliers : List Nat) : State :=
  if D.mWriteOut d then
    let x := s.slot n e (D.mSlot d)
    let s := s.write (D.mOut d)
      (regionOfSlot x (D.mLanes d) (D.mColumns d) (if D.mOutlier d == 0 then none else some outliers))
    (s.countWriteOut n e d x).complete n e
  else s.complete n e

/-! ### Damage and engine faults (R191, R192, R227, R306, R307) -/

/-- Count and record a damaged plot (R318, R319). -/
def State.plotDamage (s : State) (n e idx a cause index : Nat) (master : Bool) : State :=
  let s := s.bump (if cause == 1 then R.TILE_HARROW_DAMAGE.CRC n e
    else if decide (4 ≤ cause ∧ cause ≤ 8) then R.TILE_HARROW_DAMAGE.CODE n e else R.TILE_HARROW_DAMAGE.FORMAT n e)
  if s.isSet (R.TILE_PLOT_FAULT.VALID n) then s
  else
    let s := s.put (R.TILE_PLOT_FAULT.LOGICAL n) e
    let s := s.putBit (R.TILE_PLOT_FAULT.VALID n) true
    let s := s.put (R.TILE_PLOT_FAULT.CAUSE n) cause
    let s := s.putBit (R.TILE_PLOT_FAULT.MASTER n) master
    let s := s.put (R.TILE_PLOT_FAULT.LIST_INDEX n) idx
    let s := s.put (R.TILE_PLOT_FAULT.INDEX n) index
    s.put (R.TILE_PLOT_FAULT_ADDR.ADDR n) a

/-- The head of a queue meets a damaged plot: the first time its master copy is fetched and the descriptor restarts at
`resume`; the second time in a step, the step fails (R191, R192). -/
def State.plotFails (s : State) (n e : Nat) (h : Queued) (a master resume : Nat) : State :=
  if (s.tile n).damaged.contains a then s.failHead n e .failPlot
  else
    (s.modTile n fun t => { t with damaged := t.damaged ++ [a] }).setHead n e
      { h with started := true, resume := resume, refetch := some (a, master) }

/-- An engine fault (R227, R232) under the head of queue `q`: recorded with the slot in use, and the step fails; the firmware names
the engine in SPARE_REQ (R194). -/
def State.engineFault (s : State) (n q e cause slot : Nat) (h : Queued) : State :=
  let s := if s.isSet (R.TILE_MAT_FAULT.VALID n) then s
    else
      let s := s.put (R.TILE_MAT_FAULT.LOGICAL n) e
      let s := s.putBit (R.TILE_MAT_FAULT.VALID n) true
      let s := s.put (R.TILE_MAT_FAULT.PHYS n) (s.phys n e)
      let s := s.put (R.TILE_MAT_FAULT.CAUSE n) cause
      let s := s.put (R.TILE_MAT_FAULT.SLOT n) slot
      s.put (R.TILE_MAT_FAULT.LIST_INDEX n) h.index
  let s := s.raise (evEngineFault n e cause (s.tile n).inst)
  (s.failHead n q .failStep).wantSpare n e

/-! ### MATMUL -/

/-- The passes of a MATMUL: where its weights start, where their master copy starts, and the lanes it serves (R221, R307). -/
def State.passes (s : State) (d : Bytes) : List (Nat × Nat × List Nat) :=
  let lanes := List.range (D.mLanes d)
  if D.adapter d then
    let base := fun l => s.readNat (D.mAct d - 128 + 8 * l) 8
    let bases := (lanes.map base).foldl (fun acc b => if b == 0 || acc.contains b then acc else acc ++ [b]) []
    bases.map fun b => (b + D.mWeight d, s.readNat b 8 + D.mWeight d, lanes.filter fun l => base l == b)
  else [(D.mWeight d, D.mMaster d, lanes)]

/-- Lanes of a matrix operand, as one range where they are all read or, at run time, the lanes below LANES of each K-block (R205). -/
def actAccs (d : Bytes) (whole : Bool) : List Acc :=
  let row := 64 * actBytes (D.mAfmt d)
  if whole then [⟨D.mAct d, D.mKBlocks d * 16 * row, false⟩]
  else (List.range (D.mKBlocks d)).map fun k => ⟨D.mAct d + k * 16 * row, D.mLanes d * row, false⟩

/-- The ranges a MATMUL reads and writes in scratchpads, weights and outlier rows apart; `whole`: every lane of its layout, as the
checks of addresses see it (R168, R205, R206, R220, R221). -/
def matmulRanges (d : Bytes) (whole : Bool) : List Acc :=
  let lanes := if whole then 16 else D.mLanes d
  actAccs d whole ++
    (if D.mAfmt d == 2 then [⟨D.mAct d - 64, if whole then 64 else lanes, false⟩] else []) ++
    (if D.adapter d then [⟨D.mAct d - 128, 8 * lanes, false⟩] else []) ++
    (if D.mOutlier d == 0 then [] else [⟨D.mAct d + D.mKBlocks d * 1024, 64 * lanes, false⟩]) ++
    (if D.mWriteOut d then [⟨D.mOut d, regionBytes (D.mLanes d) (D.mColumns d) (D.mOutlier d != 0), true⟩] else [])

def matmulAccs (d : Bytes) : List Acc := matmulRanges d true

/-- What a MATMUL reads of its outlier record: the record, judged for poison by its own check, and the rows it lists (R220). -/
def State.outlierAccs (s : State) (d : Bytes) : List Acc :=
  if D.mOutlier d == 0 then []
  else [⟨D.mOutlier d, 128, true⟩, ⟨D.mOutlier d + 128, min 32 (s.readNat (D.mOutlier d) 1) * outlierRowBytes (D.mColumns d), false⟩]

/-- Whether every field of a MATMUL names memory that the field allows (R173, R219). -/
def matmulPlaces (n : Nat) (d : Bytes) : Bool :=
  (matmulAccs d).all (fun x => inScratch n x.addr x.len) &&
    (D.mChain d == 0 || decide (0x100000000 ≤ D.mChain d ∧
      D.mChain d + regionBytes (D.mLanes d) (D.mColumns d) false ≤ 0x120000000)) &&
    (D.adapter d || inTileStore n (D.mWeight d) 64) &&
    (D.mOutlier d == 0 || inTileStore n (D.mOutlier d) 128)

/-- Plots that the copies of other engines' queues replace now (R307). -/
def State.copying (s : State) (n e : Nat) : List Nat :=
  (List.range 8).filterMap fun q => if q == e then none else
    match s.queue n q with
    | h :: _ => h.refetch.map Prod.fst
    | [] => none

/-- The walk of a pass of a MATMUL from K-block `startK` on. -/
def State.passWalk (s : State) (n e : Nat) (d : Bytes) (weights startK : Nat) : Walk :=
  let per := ceilDiv (D.mColumns d) (kindN (D.mWfmt d))
  let need := D.mKBlocks d * per
  s.walk ⟨n, D.mWfmt d, per, need, startK * per, bit (s.get R.SEC_PROT.PARTITIONS) n, s.copying n e⟩ need weights 0 none []
    { cache := Table.get [] e (s.tile n).harrow }

/-- One pass's groups into the slot, up to the K-block where the walk stopped; and that K-block. -/
def State.runPass (s : State) (n e : Nat) (m : Mm) (p : Nat × Nat × List Nat) (startK : Nat) : State × WalkEnd × Nat :=
  let per := ceilDiv (D.mColumns m.d) (kindN (D.mWfmt m.d))
  let w := s.passWalk n e m.d p.1 startK
  let stop := match w.stop with
    | .done => D.mKBlocks m.d * per
    | _ => (w.groups.map fun g => g.1 + 1).foldl max (startK * per)
  let use := w.groups.filter fun g => decide (g.1 < stop / per * per)
  let x := use.foldl (fun x g => s.addGroup m p.2.2 x g.1 g.2) (s.slot n e (D.mSlot m.d))
  let s := s.setSlot n e (D.mSlot m.d) x
  let s := s.wrapAdd (R.TILE_HARROW_PLOTS.CODED n e) w.coded
  let s := s.wrapAdd (R.TILE_HARROW_PLOTS.RAW n e) w.raw
  let s := s.bump (R.TILE_HARROW_DAMAGE.TABLE_LOADS n e) w.loads
  let s := s.modTile n fun t => { t with harrow := Table.set [] e w.cache t.harrow }
  (s, w.stop, stop / per)

/-- The passes of a MATMUL from pass `i` on.  One whose plot cannot be read keeps what it has, and goes on there when it can (R307,
R372), or fails (R26). -/
def State.runPasses (s : State) (n e : Nat) (m : Mm) (h : Queued) : List (Nat × Nat × List Nat) → (i startK : Nat) → State
  | [], _, _ =>
    let o := s.outlierSums m.d m.rows
    if D.mChain m.d != 0 then s.setHead n e { h with started := true, waiting := true, outliers := o }
    else s.writeOut n e m.d o
  | p :: rest, i, startK =>
    match s.runPass n e m p startK with
    | (s, .done, _) => s.runPasses n e m h rest (i + 1) 0
    | (s, .damaged a cause index, k) =>
      (s.plotDamage n e h.index a cause index false).plotFails n e h a (p.2.1 + (a - p.1)) (i * D.mKBlocks m.d + k)
    | (s, .stopped a len, k) =>
      (s.setHead n e { h with started := true, resume := i * D.mKBlocks m.d + k }).gated n e [⟨a, len, true⟩] fun s => s

/-- Stall clocks and corrected errors an engine reports (R226, R227). -/
def State.engineCounts (s : State) (n e : Nat) (rep : EngineReport) : State :=
  let s := s.wrapAdd (R.TILE_MAT_STALLS.OPERAND_STALLS n e) rep.operandStalls
  let s := s.wrapAdd (R.TILE_MAT_STALLS.SLOT_WAITS n e) rep.slotWaits
  s.bump (R.TILE_MAT_COUNTS.ACC_CORRECTED n e) rep.corrected

/-- Whether a logical engine may take its queue's head: no ATTEND holds it, and where its physical engine is doubled, the
other queue's head is later in the list and not started (R185, R195). -/
def State.engineFree (s : State) (n e : Nat) (h : Queued) : Bool :=
  !s.attendHolds n e &&
    (!(s.isSet (R.TILE_ENGINE_MAP.DOUBLED n) && s.phys n e == s.phys n (e ^^^ 1)) ||
      match s.queue n (e ^^^ 1) with
      | [] => true
      | o :: _ => !o.started && decide (h.index < o.index))

/-- Lanes' zero points of a MATMUL (R206). -/
def State.zeroPoints (s : State) (d : Bytes) : List Nat :=
  if D.mAfmt d == 2 then (List.range 16).map fun l => s.readNat (D.mAct d - 64 + l) 1 else []

/-- MATMUL's stream and what follows it, once its operands may be read (R204 to R222, R315).  Without a pass, every lane's base being
0, its slot is cleared and written out as any other's (DESIGN CHOICE, log entry 27). -/
def State.matmulRun (s : State) (n e : Nat) (h : Queued) : State :=
  let d := h.desc
  match s.outlierRows d with
  | none => s.plotFails n e h (D.mOutlier d) ((D.mMaster d : Int) + ((D.mOutlier d : Int) - D.mWeight d)).toNat h.resume
  | some rows =>
    let s := if D.mAcc d || h.resume != 0 then s else s.setSlot n e (D.mSlot d) Slot.clear
    let i := h.resume / D.mKBlocks d
    s.runPasses n e ⟨d, rows, s.zeroPoints d⟩ h ((s.passes d).drop i) i (h.resume % D.mKBlocks d)

/-- MATMUL (R204 to R221): the head of engine `e`'s queue runs; one that a replaced engine had started is fenced (R196). -/
def State.matmul (s : State) (n e : Nat) (rep : EngineReport) (mem : MemReport) : State :=
  match s.runnable n e tMatmul with
  | none => s
  | some h =>
    if s.isStale n e then s.fencedHead n e
    else if !s.engineFree n e h then s
    else
      let s := (s.memReport srcMatrix mem).engineCounts n e rep
      let d := h.desc
      if D.mKBlocks d == 0 then s.complete n e
      else if rep.fault != 0 then s.engineFault n e e rep.fault (D.mSlot d) h
      else if !matmulPlaces n d then s.failEvent n e (evAddressError n (D.mAct d) (s.tile n).inst)
      else s.gated n e (matmulRanges d false ++ s.outlierAccs d) fun s => s.matmulRun n e h

/-- A chain link adds the incoming region into its slot and writes out (R222). -/
def State.chainAdd (s : State) (n e : Nat) (rep : EngineReport) (mem : MemReport) : State :=
  match s.queue n e with
  | [] => s
  | h :: _ =>
    let d := h.desc
    if !h.waiting || D.type d != tMatmul || !s.depHolds n d 1 then s
    else if s.isStale n e then s.fencedHead n e
    else
      let s := (s.memReport srcMatrix mem).engineCounts n e rep
      if rep.fault != 0 then s.engineFault n e e rep.fault (D.mSlot d) h else
      let lanes := D.mLanes d
      let cols := D.mColumns d
      s.gated n e [⟨D.mChain d, regionBytes lanes cols false, false⟩] fun s =>
        let r := s.read (D.mChain d) (regionBytes lanes cols false)
        let x := (List.range lanes).foldl (fun x l => (List.range cols).foldl (fun x c =>
          let v := rd r (4 * (l * cols + c)) 4
          if intPath (D.mWfmt d) then x.addInt l c (signed 32 v) false else x.addFp l c ⟨dec32 v, false⟩) x)
          (s.slot n e (D.mSlot d))
        let t := rawEnd lanes cols
        let f := rd r t 1
        let x := { x with
          sat := x.sat || bit f 0
          invalid := x.invalid || bit f 1
          overflow := x.overflow || bit f 2
          colSat := x.colSat ||| rd r (t + 32) 32 }
        let s := (s.setSlot n e (D.mSlot d) x).bump (R.TILE_MAT_COUNTS.CHAIN_LINKS n e)
        s.writeOut n e d h.outliers

/-- A write-out has not completed within 4,096 clocks: an engine fault of cause 0x3 (R227). -/
def State.writeOutTimeout (s : State) (n e : Nat) : State :=
  match s.queue n e with
  | [] => s
  | h :: _ =>
    if D.type h.desc == tMatmul && D.mWriteOut h.desc && h.refetch.isNone && !s.isStale n e &&
        (h.waiting || (s.runnable n e tMatmul).isSome) && s.depHolds n h.desc 0 && s.depHolds n h.desc 1 then
      s.engineFault n e e 3 (D.mSlot h.desc) h
    else s

/-- Why a master copy fails the checks of R306 in the plot's place, whose checks 3, 4 and 6 look at the plots before it (R307). -/
def State.masterCause (s : State) (n e : Nat) (h : Queued) (a m len : Nat) : Option Nat :=
  let d := h.desc
  let there := s.write a (s.read m len)
  let found := match (s.passes d).drop (h.resume / D.mKBlocks d) with
    | [] => none
    | p :: _ => match (there.passWalk n e d p.1 0).stop with
      | .damaged b c _ => if b == a then some c else none
      | _ => none
  if s.poisoned m len && found != some 2 then some 1 else found

/-- The master copy of a damaged plot or outlier record arrives (R191, R220, R307): whole, it replaces the tile-store copy and the
MATMUL may restart; damaged itself, that is the second failure. -/
def State.plotRefetched (s : State) (n e : Nat) : State :=
  match s.queue n e with
  | [] => s
  | h :: _ =>
    match h.refetch with
    | none => s
    | some (a, m) =>
      let outlier := a == D.mOutlier h.desc && a != 0
      let len := if outlier then 128 + min 32 (rd (s.read m 1) 0 1) * outlierRowBytes (D.mColumns h.desc) else P.size (s.read m 32)
      let s := s.passRange m len false
      let put := fun (s : State) => ((s.write a (s.read m len)).bump (R.TILE_SEQ_COUNTS.REFETCHES n)).raise (evPlotRefetched n e a)
      if outlier then
        if s.poisoned m 128 || ((s.write a (s.read m len)).outlierRows h.desc).isNone then s.failHead n e .failPlot
        else (put s).setHead n e { h with refetch := none }
      else
        match s.masterCause n e h a m len with
        | some c => (s.plotDamage n e h.index m c (P.index (s.read m 32)) true).failHead n e .failPlot
        | none => (put s).setHead n e { h with refetch := none }

end Sys2Proof.Machine
end

