-- ==== Sys2Proof/Machine/Vector.lean ====
section
/-!
DEFINITION. The vector engine (R239 to R253, R260 to R270, spec/07_number_formats.md, 08_vector_engine_and_drill.md):
element operations, reductions, norms, function tables, quantisation, rescaling and the wire formats.
-/

namespace Sys2Proof.Machine

/-! ### Streams (R260) -/

/-- The format of a wide stream, by its bit of OP. -/
def wideFmt (b : Bool) : Fmt := if b then bf16 else fp32

/-- Element `i` of row `r` of a packed stream. -/
def State.elem (s : State) (a : Nat) (f : Fmt) (len r i : Nat) : Num :=
  f.decode (s.readNat (a + (r * len + i) * f.bytes) f.bytes)

/-- A row of a packed stream. -/
def State.vrow (s : State) (a : Nat) (f : Fmt) (len r : Nat) : List Num :=
  (List.range len).map (s.elem a f len r)

/-- Row `r` of a row vector. -/
def State.rowVal (s : State) (a r : Nat) : Num := dec32 (s.readNat (a + 4 * r) 4)

/-- The bytes of numbers rounded to a format. -/
def encodeRow (f : Fmt) (l : List Num) : Bytes := l.flatMap fun x => leBytes f.bytes (f.round x)

/-- The operation, its wide input and output formats. -/
def vCode (d : Bytes) : Nat := D.vOp d % 64
def vInFmt (d : Bytes) : Fmt := wideFmt (bit (D.vOp d) 7)
def vOutFmt (d : Bytes) : Fmt := wideFmt (bit (D.vOp d) 6)

/-! ### Shapes: the ranges of an operation's streams -/

/-- Layouts a stream may have. -/
inductive Layout where
  | packed (f : Fmt) | rowVector | broadcast (f : Fmt) | region | table | scales | record | kblocks | wire (k : Nat)
  deriving DecidableEq, Repr

/-- Bytes of the wire layouts (R252): 0 INT8, 1 and 2 FP8, 3 BF16, 4 FP32. -/
def wireBytes (k rows len : Nat) : Nat :=
  match k with
  | 0 => 64 + rows * 64 * ceilDiv len 64
  | 1 | 2 => rows * 64 * ceilDiv len 64
  | 3 => rows * 64 * ceilDiv (2 * len) 64
  | _ => rows * 64 * ceilDiv (4 * len) 64

/-- Bytes of a stream. -/
def layoutBytes (rows len : Nat) : Layout → Nat
  | .packed f => rows * len * f.bytes
  | .rowVector => 4 * rows
  | .broadcast f => len * f.bytes
  | .region => regionBytes rows len false
  | .table => 8 * len
  | .scales => 4 * len
  | .record => 128
  | .kblocks => ceilDiv len 64 * 1024
  | .wire k => wireBytes k rows len

/-- The layouts of the inputs and of the output of a VEC (R263); `none` for a reserved operation. -/
def vecShape (d : Bytes) : Option (List Layout × Layout) :=
  let i := vInFmt d
  let o := vOutFmt d
  let w := .packed i
  match vCode d with
  | 0x01 | 0x06 | 0x18 => some ([w], .packed o)
  | 0x02 | 0x03 | 0x04 | 0x07 | 0x08 | 0x19 => some ([w, w], .packed o)
  | 0x05 => some ([w, w, w], .packed o)
  | 0x09 | 0x0A | 0x1A => some ([w, .rowVector], .packed o)
  | 0x10 | 0x11 | 0x12 => some ([w], .rowVector)
  | 0x1C => some ([w, .broadcast i], .packed o)
  | 0x1D => some ([w, .broadcast i, .broadcast i], .packed o)
  | 0x20 | 0x21 | 0x22 => some (if D.vNIn d == 2 then [w, .record] else [w], .kblocks)
  | 0x24 => some ([.region, .table], .packed o)
  | 0x25 => some ([.region], .packed o)
  | 0x26 => some (if D.vNIn d == 2 then [.region, .scales] else [.region], .packed o)
  | 0x28 => some ([w], .wire 0)
  | 0x29 => some ([w], .wire (if bit (D.vOp d) 6 then 2 else 1))
  | 0x2A => some ([w], .wire (if bit (D.vOp d) 6 then 3 else 4))
  | 0x2C => some ([.packed fp32, .wire (D.vOp d / 64)], .packed fp32)
  | 0x2D => some ([.packed fp32, .wire 4], .packed fp32)
  | _ => none

/-- OP[7:6] takes a value the operation allows (R261, R263). -/
def vecBits (d : Bytes) : Bool :=
  let c := vCode d
  if [0x10, 0x11, 0x12, 0x20, 0x21, 0x28].contains c then !bit (D.vOp d) 6
  else if [0x24, 0x25, 0x26].contains c then !bit (D.vOp d) 7
  else if c == 0x2D then D.vOp d / 64 == 0
  else true

/-- Whether two ranges meet. -/
def overlap (a n b m : Nat) : Bool := decide (0 < n ∧ 0 < m ∧ a < b + m ∧ b < a + n)

/-- An input range overlaps the output range without having the same start, format and layout (R261). -/
def vecOverlap (d : Bytes) : Bool :=
  match vecShape d with
  | none => false
  | some (ins, out) =>
    let rows := D.vRows d
    let len := D.vLength d
    (List.zip (List.range 3) ins).any fun e =>
      overlap (D.vIn d e.1) (layoutBytes rows len e.2) (D.vOut d) (layoutBytes rows len out) &&
        !(D.vIn d e.1 == D.vOut d && e.2 == out)

/-- Bytes of the function table at an address: its header alone where the header breaks the layout of R267, which R285 counts. -/
def State.tableBytes (s : State) (a : Nat) : Nat :=
  let n := rd (s.read (a + 4) 2) 0 2
  if 1 ≤ n ∧ n ≤ 64 then 64 + 32 * n else 64

/-- The extra ranges of an operation: function table, token scale record, zero points, outlier records, outlier sums. -/
def State.vecExtra (s : State) (h : Queued) : List Acc :=
  let d := h.desc
  let a := h.scalarA % 2 ^ 48
  let c := vCode d
  let kb := ceilDiv (D.vLength d) 64
  let outl := fun (b : Bool) => if b then [(⟨D.vIn d 0 + rawEnd (D.vRows d) (D.vLength d), rawEnd (D.vRows d) (D.vLength d), false⟩ : Acc)] else []
  if [0x18, 0x19, 0x1A].contains c then [⟨a, s.tableBytes a, false⟩]
  else if [0x20, 0x21, 0x22].contains c then
    [⟨a, 64, true⟩] ++ (if c == 0x21 then [⟨D.vOut d - 64, 64, true⟩] else []) ++
      (if D.vNIn d == 2 then [⟨D.vOut d + kb * 1024, 1024, true⟩] else [])
  else if c == 0x24 || c == 0x26 then [⟨a, 64, false⟩] ++ outl (bit h.scalarB 0)
  else if c == 0x25 then [⟨a, 64, false⟩] ++ outl (bit h.scalarB 12)
  else []

/-- Every range a VEC reads and writes. -/
def State.vecAccs (s : State) (h : Queued) : List Acc :=
  let d := h.desc
  match vecShape d with
  | none => []
  | some (ins, out) =>
    ((List.zip (List.range 3) ins).map fun e => ⟨D.vIn d e.1, layoutBytes (D.vRows d) (D.vLength d) e.2, false⟩) ++
      [⟨D.vOut d, layoutBytes (D.vRows d) (D.vLength d) out, true⟩] ++ s.vecExtra h

/-! ### Reductions (R265) -/

/-- The 256 partial results of a row, each taking every 256th value in ascending order. -/
def partials (op : Num → Num → Num) (start : Num) (v : List Num) : List Num :=
  (List.range 256).map fun j =>
    ((List.range (ceilDiv v.length 256)).foldl (fun acc k =>
      match v[256 * k + j]? with
      | some x => op acc x
      | none => acc) start)

/-- The reduction of a row: partial results, then the balanced tree over them. -/
def reduce (op : Num → Num → Num) (start : Num) (v : List Num) : Num :=
  ((treeOf op 8 (partials op start v)).head?).getD start

def addRnd (x y : Num) : Num := fp32.rnd (x.add y)
def sumRow (v : List Num) : Num := reduce addRnd .zero v
def maxRow (v : List Num) : Num := reduce Num.max (.inf true) v

/-! ### Function tables (R267) -/

/-- Whether a function table keeps its layout. -/
def tableWhole (t : Bytes) : Bool :=
  let n := rd t 4 2
  let bp := fun i => rd t (64 + 32 * i) 4
  rd t 0 4 == 0x4C424154 && decide (1 ≤ n ∧ n ≤ 64) && allZero (slice t 6 58) &&
    (List.range n).all fun i =>
      allZero (slice t (64 + 32 * i + 20) 12) &&
        (if i + 1 == n then bp i == 0x7F800000
         else (dec32 (bp i)).isFinite && (i == 0 || (dec32 (bp (i - 1))).lt (dec32 (bp i))))

/-- Evaluate a function table. -/
def evalTable (t : Bytes) (x : Num) : Num :=
  let n := rd t 4 2
  let c := fun i k => dec32 (rd t (64 + 32 * i + 4 + 4 * k) 4)
  match x with
  | .nan => .nan
  | .inf neg => if neg then c 0 0 else c (n - 1) 0
  | _ =>
    let i := ((List.range n).find? fun i => x.lt (dec32 (rd t (64 + 32 * i) 4))).getD (n - 1)
    let step := fun y k => fp32.rnd ((Num.mul y x).add (c i k))
    step (step (step (c i 3) 2) 1) 0

/-! ### Norms (R266) -/

def rmsNorm (f : Fmt) (eps : Num) (g x : List Num) : Bytes :=
  let n := Num.ofInt x.length
  let v := x.map fun a => fp32.rnd (a.mul a)
  let d := fp32.rnd ((fp32.rnd ((sumRow v).div n)).add eps)
  let inv := fp32.rnd d.invSqrt
  encodeRow f (List.zipWith (fun a b => (a.mul inv).mul b) x g)

def layerNorm (f : Fmt) (eps : Num) (g beta x : List Num) : Bytes :=
  let n := Num.ofInt x.length
  let mu := fp32.rnd ((sumRow x).div n)
  let v := x.map fun a => fp32.rnd ((a.sub mu).mul (a.sub mu))
  let d := fp32.rnd ((fp32.rnd ((sumRow v).div n)).add eps)
  let inv := fp32.rnd d.invSqrt
  encodeRow f (List.zipWith (fun a (gb : Num × Num) => (((a.sub mu).mul inv).mul gb.1).add gb.2) x (List.zip g beta))

/-! ### Quantisation (R239 to R243) -/

/-- A quantised row: stored elements, the FP32 scale's encoding, the zero point, and whether the row was not finite. -/
structure QRow where
  q : List Nat
  scale : Nat
  zp : Nat
  nonfinite : Bool

/-- How a row is narrowed. -/
inductive QKind where
  | i8s | i8a | fp8 (f : Fmt)
  deriving DecidableEq, Repr

def maxAbs (x : List Num) : Num := x.foldl (fun m a => m.max a.abs) .zero

/-- Quantise a row whose outlier channels are listed; `free` stands for values no rule states (the zero point of a row
that is not finite, and the integer of a NaN). -/
def quantRow (k : QKind) (x : List Num) (outliers : List Nat) (free : Nat) : QRow :=
  let kept := (List.zip (List.range x.length) x).filterMap fun e => if outliers.contains e.1 then none else some e.2
  let fill := fun z f => (List.zip (List.range x.length) x).map fun e => if outliers.contains e.1 then z else f e.2
  let nan := fp32.nanEnc
  if kept.any fun a => !a.isFinite then
    let z := if k == .i8a then free % 256 else 0
    ⟨x.map fun _ => z, nan, z, true⟩
  else
    match k with
    | .i8s =>
      let m := maxAbs kept
      if m.isZero then ⟨x.map fun _ => 0, 0, 0, false⟩
      else
        let inv := fp32.rnd ((Num.ofInt 127).div m)
        ⟨fill 0 fun a => unsign 8 ((a.mul inv).rtaClamp (-127) 127 ((free % 255 : Nat) - 127)),
          rnd32 (m.div (.ofInt 127)), 0, false⟩
    | .i8a =>
      let lo := kept.foldl Num.min .zero
      let hi := kept.foldl Num.max .zero
      if hi.eq lo then ⟨x.map fun _ => 0, 0, 0, false⟩
      else
        let d := fp32.rnd (hi.sub lo)
        let inv := fp32.rnd ((Num.ofInt 255).div d)
        let z := ((lo.neg).mul inv).rtaClamp 0 255 (free % 256 : Nat)
        let q := fun a => (max 0 (min 255 ((Num.mul a inv).rtaClamp (-65536) 65536 (free % 256 : Nat) + z))).toNat
        ⟨fill z.toNat q, rnd32 (d.div (.ofInt 255)), z.toNat, false⟩
    | .fp8 f =>
      let m := maxAbs kept
      let top := f.decode f.maxFin
      if m.isZero then ⟨x.map fun _ => 0, 0, 0, false⟩
      else
        let inv := fp32.rnd (top.div m)
        ⟨fill 0 fun a => f.round (a.mul inv), rnd32 (m.div top), 0, false⟩

/-- The K-block-major layout of quantised rows: 16 lanes a record, absent lanes 0 (R242). -/
def kblockBytes (rows : List QRow) (len : Nat) : Bytes :=
  (List.range (ceilDiv len 64)).flatMap fun k => (List.range 16).flatMap fun l =>
    match rows[l]? with
    | none => List.replicate 64 0
    | some r => (List.range 64).map fun i => BitVec.ofNat 8 (r.q.getD (64 * k + i) r.zp)

/-- A token scale record (R242). -/
def scaleRecord (scales : List Nat) : Bytes := fit 64 (scales.flatMap (leBytes 4))

/-! ### Rescaling (R244 to R247) -/

/-- A multiplier word's fields, with the widening of R248. -/
structure Mult where
  mult : Int
  shift : Nat
  exp : Int
  widen : Nat

def multOf (w : Nat) : Mult := ⟨signed 32 w, bits w 32 6, signed 6 (bits w 40 6), 0⟩

/-- A word with a nonzero reserved bit (R244). -/
def multBad (w : Nat) : Bool := bits w 38 2 != 0 || bits w 46 18 != 0

/-- Stage 1 (R245): y, and whether it saturated. -/
def stage1 (m : Mult) (acc : Int) : Int × Bool :=
  let y := shiftTies (acc * m.mult) (m.shift + m.widen)
  let c := max (-8388607) (min 8388607 y)
  (c, c != y)

/-- Stage 2 (R246), before its rounding. -/
def stage2 (m : Mult) (y : Int) (sc o : Num) : Num :=
  (((Num.ofInt y).mul sc).mul (.pow2 (m.exp + m.widen))).add o

/-- The word of scale register `i` of a tile (R248). -/
def State.scaleReg (s : State) (n i : Nat) : Mult :=
  ⟨signed 32 (s.get (R.TILE_SCALE_REG.MULT n i)), s.get (R.TILE_SCALE_REG.SHIFT n i),
    signed 6 (s.get (R.TILE_SCALE_REG.EXP n i)), s.get (R.TILE_SCALE_REG.WIDEN n i)⟩

/-! ### Wire formats (R252, R253) -/

/-- A wire element widened (R253): layout, row, element of `len`. -/
def State.wireElem (s : State) (a k len rows r i : Nat) : Num :=
  match k with
  | 0 => fp32.rnd ((Num.ofInt (signed 8 (s.readNat (a + 64 + r * 64 * ceilDiv len 64 + i) 1))).mul (s.rowVal a r))
  | 1 => e4m3.decode (s.readNat (a + r * 64 * ceilDiv len 64 + i) 1)
  | 2 => e5m2.decode (s.readNat (a + r * 64 * ceilDiv len 64 + i) 1)
  | 3 => bf16.decode (s.readNat (a + r * 64 * ceilDiv (2 * len) 64 + 2 * i) 2)
  | _ => if rows == 0 then .zero else dec32 (s.readNat (a + r * 64 * ceilDiv (4 * len) 64 + 4 * i) 4)

/-- Rows padded to whole 64-byte words. -/
def padRows (rows : List Bytes) : Bytes := rows.flatMap fun b => fit (ceilDiv b.length 64 * 64) b

/-! ### Running a VEC -/

/-- How the body of a VEC ends. -/
inductive VecEnd where
  | done (s : State)
  /-- a function table breaks its layout (R267) -/
  | tableFault
  /-- a multiplier word is refused, or SCALE_BASE overruns (R244, R269) -/
  | wordFault

/-- The head of the vector queue runs the operation of a code (R183, R260 to R262): an operation whose LENGTH is 0 does no
work; a range the fields do not allow, an overlap in a direct list, a refused access and a fault of the body end it with
FAIL_STEP. -/
def State.vec (s : State) (n code stalls : Nat) (mem : MemReport) (body : State → Queued → VecEnd) : State :=
  match s.runnable n 8 tVec with
  | none => s
  | some h =>
    if vCode h.desc != code then s
    else
      let s := (s.memReport srcVector mem).wrapAdd (R.TILE_VEC_STALLS.OPERAND_STALLS n) stalls
      let accs := s.vecAccs h
      let inst := (s.tile n).inst
      if D.vLength h.desc == 0 then s.complete n 8
      else if s.seqState n == seqDirect && vecOverlap h.desc then
        (s.bump (R.TILE_VEC_COUNTS.OVERLAP_FAULTS n)).failHead n 8 .failStep
      else
        match accs.find? fun x => !(inScratch n x.addr x.len || inTileStore n x.addr x.len) with
        | some x => s.failEvent n 8 (evAddressError n x.addr inst)
        | none =>
          s.gated n 8 accs fun s =>
            match body s h with
            | .done s => s.complete n 8
            | .tableFault => (s.bump (R.TILE_VEC_COUNTS.TABLE_FAULTS n)).failHead n 8 .failStep
            | .wordFault => (s.bump (R.TILE_VEC_COUNTS.WORD_FAULTS n)).failHead n 8 .failStep

/-- Write a packed output, row by row. -/
def State.outRows (s : State) (d : Bytes) (f : Nat → List Num) : VecEnd :=
  .done (s.write (D.vOut d) ((List.range (D.vRows d)).flatMap fun r => encodeRow (vOutFmt d) (f r)))

/-- Write a row vector of FP32 results. -/
def State.outVector (s : State) (d : Bytes) (f : Nat → Num) : VecEnd :=
  .done (s.write (D.vOut d) ((List.range (D.vRows d)).flatMap fun r => leBytes 4 (rnd32 (f r))))

/-- Input `k` of a VEC as the packed rows of its format. -/
def State.inRow (s : State) (d : Bytes) (k r : Nat) : List Num := s.vrow (D.vIn d k) (vInFmt d) (D.vLength d) r

def vecUnary (f : Queued → Num → Num) (s : State) (h : Queued) : VecEnd :=
  s.outRows h.desc fun r => (s.inRow h.desc 0 r).map (f h)

def vecBinary (f : Num → Num → Num) (s : State) (h : Queued) : VecEnd :=
  s.outRows h.desc fun r => List.zipWith f (s.inRow h.desc 0 r) (s.inRow h.desc 1 r)

def vecTernary (f : Num → Num → Num → Num) (s : State) (h : Queued) : VecEnd :=
  s.outRows h.desc fun r =>
    List.zipWith (fun a bc => f a bc.1 bc.2) (s.inRow h.desc 0 r) (List.zip (s.inRow h.desc 1 r) (s.inRow h.desc 2 r))

def vecByRow (f : Num → Num → Num) (s : State) (h : Queued) : VecEnd :=
  s.outRows h.desc fun r => (s.inRow h.desc 0 r).map fun a => f a (s.rowVal (D.vIn h.desc 1) r)

def vecReduce (f : List Num → Num) (s : State) (h : Queued) : VecEnd :=
  s.outVector h.desc fun r => f (s.inRow h.desc 0 r)

/-- An operation that reads a function table at the address in scalar A (R267). -/
def vecTable (f : (Num → Num) → State → Queued → VecEnd) (s : State) (h : Queued) : VecEnd :=
  let a := h.scalarA % 2 ^ 48
  let t := s.read a (s.tableBytes a)
  if tableWhole t then f (evalTable t) s h else .tableFault

def vecNorm (f : Fmt → Num → List Num → List Num → List Num → Bytes) (s : State) (h : Queued) : VecEnd :=
  let d := h.desc
  let g := s.vrow (D.vIn d 1) (vInFmt d) (D.vLength d) 0
  let b := s.vrow (D.vIn d 2) (vInFmt d) (D.vLength d) 0
  .done (s.write (D.vOut d) ((List.range (D.vRows d)).flatMap fun r =>
    f (vOutFmt d) (dec32 (h.scalarB % 2 ^ 32)) g b (s.inRow d 0 r)))

/-- The listed rows of an outlier record, as a QUANT reads them (R268). -/
def State.quantOutliers (s : State) (d : Bytes) : List Nat :=
  if D.vNIn d == 2 then
    let r := s.read (D.vIn d 1) 128
    (List.range (min 32 (rd r 0 1))).map fun i => rd r (64 + 2 * i) 2
  else []

def vecQuant (n : Nat) (k : QKind) (s : State) (h : Queued) : VecEnd :=
  let d := h.desc
  let ol := s.quantOutliers d
  let rows := (List.range (D.vRows d)).map fun r => quantRow k (s.inRow d 0 r) ol s.freeVal
  let kb := ceilDiv (D.vLength d) 64
  let recs := (List.range 16).flatMap fun l =>
    if l < D.vRows d then fit 64 (ol.flatMap fun i => leBytes 2 (bf16.round ((s.inRow d 0 l).getD i .zero)))
    else List.replicate 64 0
  let s := s.draw
  let s := s.write (D.vOut d) (kblockBytes rows (D.vLength d))
  let s := s.write (h.scalarA % 2 ^ 48) (scaleRecord (rows.map QRow.scale))
  let s := if k == .i8a then s.write (D.vOut d - 64) (fit 64 (rows.map fun r => BitVec.ofNat 8 r.zp)) else s
  let s := if D.vNIn d == 2 then s.write (D.vOut d + kb * 1024) recs else s
  .done (s.bump (R.TILE_RESCALE_COUNTS.NONFINITE_ROWS n) (rows.filter QRow.nonfinite).length)

/-- A rescale of integer sums (R245, R246, R269): words by column, the place of the token scales, and whether the outlier
sums are added; `base` names the scale registers that count saturated columns. -/
def vecRescale (n : Nat) (words : Nat → Mult) (base : Option Nat) (outl : Bool) (s : State) (h : Queued) : VecEnd :=
  let d := h.desc
  let rows := D.vRows d
  let len := D.vLength d
  let acc := fun l c => signed 32 (s.readNat (D.vIn d 0 + 4 * (l * len + c)) 4)
  let o := fun l c => if outl then dec32 (s.readNat (D.vIn d 0 + rawEnd rows len + 4 * (l * len + c)) 4) else Num.zero
  let sc := fun l => s.rowVal (h.scalarA % 2 ^ 48) l
  let y := fun l c => stage1 (words c) (acc l c)
  let bytes := (List.range rows).flatMap fun l =>
    encodeRow (vOutFmt d) ((List.range len).map fun c => stage2 (words c) (y l c).1 (sc l) (o l c))
  let satOf := fun c => ((List.range rows).filter fun l => (y l c).2).length
  let sats := (List.range len).map satOf
  let s := (s.write (D.vOut d) bytes).bump (R.TILE_RESCALE_COUNTS.Y_SATURATIONS n) sats.sum
  match base with
  | none => .done s
  | some b => .done (s.satColumns n b ((List.range len).filter fun c => sats.getD c 0 != 0))

def vecRescaleTab (n : Nat) (s : State) (h : Queued) : VecEnd :=
  let d := h.desc
  let word := fun c => s.readNat (D.vIn d 1 + 8 * c) 8
  if (List.range (D.vLength d)).any fun c => multBad (word c) then .wordFault
  else vecRescale n (fun c => multOf (word c)) none (bit h.scalarB 0) s h

def vecRescaleReg (n : Nat) (s : State) (h : Queued) : VecEnd :=
  let base := h.scalarB % 4096
  if 4096 < base + D.vLength h.desc then .wordFault
  else vecRescale n (fun c => s.scaleReg n (base + c)) (some base) (bit h.scalarB 12) s h

/-- The rescale of FP32 sums (R247, R269). -/
def vecRescaleFp (s : State) (h : Queued) : VecEnd :=
  let d := h.desc
  let rows := D.vRows d
  let len := D.vLength d
  s.outRows d fun l => (List.range len).map fun c =>
    let acc := dec32 (s.readNat (D.vIn d 0 + 4 * (l * len + c)) 4)
    let ch := if D.vNIn d == 2 then s.rowVal (D.vIn d 1) c else Num.ofInt 1
    let v := (acc.mul ch).mul (s.rowVal (h.scalarA % 2 ^ 48) l)
    if bit h.scalarB 0 then v.add (dec32 (s.readNat (D.vIn d 0 + rawEnd rows len + 4 * (l * len + c)) 4)) else v

/-- WIRE_Q8 (R253, R270): the INT8 wire payload, each row narrowed by itself. -/
def vecWireQ8 (n : Nat) (s : State) (h : Queued) : VecEnd :=
  let d := h.desc
  let rows := (List.range (D.vRows d)).map fun r => quantRow .i8s (s.inRow d 0 r) [] s.freeVal
  let bytes := scaleRecord (rows.map QRow.scale) ++ padRows (rows.map fun r => r.q.map (BitVec.ofNat 8))
  .done ((s.draw.write (D.vOut d) bytes).bump (R.TILE_RESCALE_COUNTS.NONFINITE_ROWS n) (rows.filter QRow.nonfinite).length)

/-- A wire payload without scales, in a format (R252). -/
def vecWire (f : Bytes → Fmt) (s : State) (h : Queued) : VecEnd :=
  .done (s.write (D.vOut h.desc) (padRows ((List.range (D.vRows h.desc)).map fun r => encodeRow (f h.desc) (s.inRow h.desc 0 r))))

/-- A wire input widened and added in FP32 (R253, R270). -/
def vecWiden (k : Bytes → Nat) (s : State) (h : Queued) : VecEnd :=
  let d := h.desc
  let len := D.vLength d
  .done (s.write (D.vOut d) ((List.range (D.vRows d)).flatMap fun r =>
    encodeRow fp32 ((List.range len).map fun i =>
      (s.elem (D.vIn d 0) fp32 len r i).add (s.wireElem (D.vIn d 1) (k d) len (D.vRows d) r i))))

/-! ### The operations -/

/-- FP32 scalars of AXPB. -/
def axpb (h : Queued) (a : Num) : Num := (a.mul (dec32 (h.scalarA % 2 ^ 32))).add (dec32 (h.scalarB % 2 ^ 32))

end Sys2Proof.Machine
end

