-- ==== Sys2Proof/Machine/Plan.lean ====
section
/-!
DEFINITION. Step plans (R164 to R181, R219, R261, R342, R421, R453, R639): what a descriptor may hold, the image, and the
checks of its load and of a commit.
-/

namespace Sys2Proof.Machine

/-! ### Reserved bits and encodings (check 8 of R168) -/

/-- The mask of a field of `w` bits from bit `lo` of byte `off`. -/
def fieldMask (f : Nat × Nat × Nat) : Nat := mask (8 * f.1 + f.2.1) f.2.2

/-- The bits of the header (R170). -/
def headerFields (d : Bytes) : List (Nat × Nat × Nat) :=
  let t := D.type d
  [(0, 0, 4), (1, 0, 1), (2, 0, 11), (4, 0, 6), (5, 0, 24), (8, 0, 6), (9, 0, 24)] ++
    (if t == tMatmul || t == tXfer then [(0, 4, 4)] else []) ++ (if t == tMatmul then [(1, 1, 1)] else [])

/-- The bits of the body (R173 to R181), as the other fields make them meaningful (R172). -/
def bodyFields (d : Bytes) : List (Nat × Nat × Nat) :=
  match D.type d with
  | 0x1 =>
    [(16, 0, 48), (22, 0, 16), (24, 0, 48), (30, 0, 48), (36, 0, 8), (37, 0, 8), (38, 0, 14), (48, 0, 48), (54, 0, 48)] ++
      [(40, 0, 48)] ++ (if D.mWfmt d == 4 then [(46, 0, 12)] else [])
  | 0x2 =>
    [(16, 0, 8), (17, 0, 2), (20, 0, 32), (42, 0, 48), (48, 0, 5)] ++
      (List.range (D.vNIn d)).map (fun k => (24 + 6 * k, 0, 48)) ++
      (if D.imm d then [(52, 0, 96)] else [(50, 0, 16)])
  | 0x3 =>
    [(16, 0, 8), (17, 0, 7), (18, 0, 5), (19, 0, 4), (20, 0, 16), (22, 0, 8), (24, 0, 192)] ++
      (if D.imm d then [(52, 0, 64)] else [(48, 0, 8)])
  | 0x4 => [(16, 0, 160), (36, 0, 7), (37, 0, 1), (38, 0, 48)]
  | 0x5 =>
    [(16, 0, 128), (32, 0, 3)] ++ (if D.xKind d == 2 then [(34, 0, 64)] else []) ++
      (if D.xKind d == 2 || D.xKind d == 3 then [(42, 0, 32)] else [])
  | 0x6 => [(16, 0, 16), (20, 0, 128), (36, 0, 6), (37, 0, 4)]
  | 0x7 => [(16, 0, 48), (22, 0, 6), (23, 0, 7), (24, 0, 3), (26, 0, 128)]
  | 0x8 => (16, 0, 2) :: (if D.wMode d == 1 then [(20, 0, 32)] else if D.wMode d == 2 then [(24, 0, 5), (28, 0, 24)] else [])
  | 0x9 => [(16, 0, 16), (20, 0, 80)]
  | 0xA => [(16, 0, 16)]
  | _ => []

/-- A reserved bit is 1. -/
def descReserved (d : Bytes) : Bool :=
  outside (ofLe d) (((headerFields d ++ bodyFields d).map fieldMask).foldl (· ||| ·) 0)

/-- A reserved encoding is used. -/
def descEncoding (d : Bytes) : Bool :=
  match D.type d with
  | 0x1 => D.mWfmt d == 0 || decide (7 < D.mWfmt d) || D.mAfmt d == 0 || decide (5 < D.mAfmt d)
  | 0x2 => (vecShape d).isNone || D.vNIn d == 0
  | 0x3 => D.aKvFmt d == 0 || decide (2 < D.aKvFmt d) || D.aEngineMask d == 0
  | 0x4 => false
  | 0x5 => D.xKind d == 0 || decide (4 < D.xKind d)
  | 0x6 => D.cWireFmt d == 0 || decide (6 < D.cWireFmt d)
  | 0x7 => false
  | 0x8 => D.wMode d == 0 || D.wMode d == 3
  | 0x9 => false
  | 0xA => false
  | _ => true

/-- Check 8: a reserved bit, a reserved encoding, or an immediate in a step plan. -/
def descCheck8 (d : Bytes) : Bool := descReserved d || descEncoding d || D.imm d

/-! ### Extents and ranges (checks 9 and 10) -/

/-- Check 9: an extent field is 0. -/
def descZeroExtent (d : Bytes) : Bool :=
  match D.type d with
  | 0x1 => D.mColumns d == 0 || D.mLanes d == 0
  | 0x2 => D.vRows d == 0
  | 0x3 => D.aQPerKv d == 0 || D.aHeadDim d == 0
  | 0x4 => D.sLanes d == 0
  | 0x5 => (D.xKind d == 2 || D.xKind d == 3) && D.xElem d == 0
  | 0x7 => D.nCount d == 0 || D.nLanes d == 0
  | 0x9 => D.hDuration d == 0
  | _ => false

/-- Whether a range lies in the device address map outside the plan areas, the Granary left aside (R25, R639). -/
def inMap (a n : Nat) : Bool :=
  let e := a + n
  (decide (e ≤ 0x100000000) && a % 0x10000000 ≥ 0x400000 && decide (a % 0x10000000 + n ≤ 0x10000000)) ||
    (decide (0x100000000 ≤ a ∧ e ≤ 0x120000000)) || decide (sramBase ≤ a ∧ e ≤ sramBase + 0x1000000) ||
    inStack a n || decide (farBase ≤ a ∧ e ≤ 0x30000000000)

/-- Whether a range lies in some scratchpad of the device. -/
def inSomeScratch (a n : Nat) : Bool := (List.range 16).any fun t => inScratch t a n

def aligned64 (a : Nat) : Bool := a % 64 == 0

/-- Legal format pairs (R174). -/
def formatPair (w a : Nat) : Bool :=
  if w ≤ 4 then a == 1 || a == 2 else if w ≤ 6 then a == 3 || a == 4 else a == 5

/-- The inputs of a VEC's operation agree with N_IN (R261, R263). -/
def vecCount (d : Bytes) : Bool :=
  match vecShape d with
  | some (ins, _) => ins.length == D.vNIn d
  | none => false

/-- The ranges of a VEC's streams (R260). -/
def vecRanges (d : Bytes) : List (Nat × Nat) :=
  match vecShape d with
  | some (ins, out) =>
    ((List.zip (List.range 3) ins).map fun e => (D.vIn d e.1, layoutBytes (D.vRows d) (D.vLength d) e.2)) ++
      [(D.vOut d, layoutBytes (D.vRows d) (D.vLength d) out)]
  | none => []

/-- The extent of `count` elements at a stride. -/
def strided (bytes elem stride : Nat) : Nat :=
  if bytes == 0 || elem == 0 then 0 else (ceilDiv bytes elem - 1) * stride + elem

/-- The ranges of an XFER that its fields name. -/
def xferRanges (d : Bytes) : List (Nat × Nat) :=
  let n := D.xBytes d
  let e := D.xElem d
  match D.xKind d with
  | 1 => [(D.xSrc d, n), (D.xDst d, n)]
  | 2 => [(D.xSrc d, strided n e (D.xSrcStride d)), (D.xDst d, strided n e (D.xDstStride d))]
  | 3 => [(D.xSrc d, 8 * ceilDiv n (max e 1)), (D.xDst d, n)]
  | 4 => [(D.xDst d, n)]
  | _ => []

/-- What check 10 knows of the instance: protected, with a wire table block, its members, and its image. -/
structure PlanCtx where
  prot : Bool
  mask : Nat
  image : ModelImage

/-- A MATMUL's fields are out of range (R174, R219). -/
def mBad (n : Nat) (d : Bytes) : Bool :=
  decide (7 < D.unit d) || decide (256 < D.mColumns d) || decide (16 < D.mLanes d) ||
    !formatPair (D.mWfmt d) (D.mAfmt d) || (D.mWfmt d == 4 && decide (4096 < D.mScaleBase d + D.mColumns d)) ||
    (D.mOutlier d != 0 && (decide (4 < D.mWfmt d) || !D.mWriteOut d || !inTileStore n (D.mOutlier d) 128)) ||
    (D.mChain d != 0 && (!D.mWriteOut d || !D.depEn d 1)) ||
    (if D.adapter d then rd d 40 6 != 0 || D.mAfmt d == 2
     else !inTileStore n (D.mWeight d) 1 || !inStack (D.mMaster d) 1) ||
    !(matmulAccs d).all (fun x => inScratch n x.addr x.len) || !inScratch n (D.mAct d) 1 || !inScratch n (D.mOut d) 1 ||
    (D.mChain d != 0 && !inSomeScratch (D.mChain d) (regionBytes (D.mLanes d) (D.mColumns d) false)) ||
    !([D.mWeight d, D.mAct d, D.mOut d, D.mOutlier d, D.mChain d, D.mMaster d].all aligned64)

/-- An ATTEND's fields are out of range (R176, R320, R342). -/
def aBad (x : Option PlanCtx) (n : Nat) (d : Bytes) : Bool :=
  decide (16 < D.aQPerKv d) || D.aHeadDim d % 32 != 0 || decide (256 < D.aHeadDim d) ||
    !([D.aQ d, D.aOut d, D.aStats d, D.aLaneTable d].all fun a => inScratch n a 1) ||
    (match x with
     | none => false
     | some x =>
       decide (x.image.layers ≤ D.aLayer d) || decide (x.image.hLoc ≤ D.aKvHead d) || D.aHeadDim d != x.image.headDim ||
         D.aKvFmt d != x.image.kvFmt ||
         (!D.aDescMode d && (decide (16 < popcount 64 x.mask) || decide (1 < x.image.ring))))

/-- Check 10: a field is outside its range, or names memory its field does not allow (R639).  A direct list has no
instance. -/
def descCheck10 (s : State) (x : Option PlanCtx) (n : Nat) (d : Bytes) : Bool :=
  match D.type d with
  | 0x1 => mBad n d
  | 0x2 =>
    decide (16 < D.vRows d) || !vecCount d || !vecBits d || vecOverlap d ||
      !((vecRanges d).all fun r => aligned64 r.1 && (inScratch n r.1 r.2 || inTileStore n r.1 r.2))
  | 0x3 => aBad x n d
  | 0x4 =>
    decide (16 < D.sLanes d) || !([D.sLogit d, D.sLaneTable d, D.sCand d].all fun a => inScratch n a 1)
  | 0x5 =>
    decide (3 < D.unit d) || D.xBytes d % 64 != 0 || ((D.xKind d == 2 || D.xKind d == 3) && D.xElem d % 64 != 0) ||
      !((xferRanges d).all fun r => inMap r.1 r.2)
  | 0x6 =>
    D.cBytes d % 64 != 0 ||
      !([D.cSrc d, D.cDst d].all fun a => a == 0 || (aligned64 a && (inScratch n a (D.cBytes d) || inTileStore n a (D.cBytes d)))) ||
      (D.cWireFmt d == 5 && match x with
        | none => false
        | some x => x.prot || x.image.wire.isNone)
  | 0x7 =>
    decide (64 < D.nFirst d + D.nCount d) || decide (4 < D.nLanes d) || !inOwnStack n (D.nProg d) 64 ||
      !s.unitLocal (D.nProg d) || !aligned64 (D.nProg d) || !inScratch n (D.nAct d) 1 || !inScratch n (D.nOut d) 1 ||
      (match x with
       | none => false
       | some x => x.prot)
  | _ => false

/-! ### The image (R164, R165) -/

/-- Directory entries of an image: device, tile, template, count, offset. -/
structure DirEntry where
  device : Nat
  tile : Nat
  template : Nat
  count : Nat
  offset : Nat
  /-- its reserved bits are 0 -/
  clean : Bool
  deriving DecidableEq, Repr

def dirEntry (b : Bytes) (i : Nat) : DirEntry :=
  let o := 64 + 16 * i
  ⟨fld b o 1 0 6, fld b (o + 1) 1 0 4, fld b (o + 1) 1 4 3, rd b (o + 4) 4, rd b (o + 8) 8,
    fld b o 1 6 2 == 0 && !bit (rd b (o + 1) 1) 7 && rd b (o + 2) 2 == 0⟩

def directory (b : Bytes) : List DirEntry := (List.range (rd b 6 2)).map (dirEntry b)

/-- The end of the body (R164). -/
def planEnd (b : Bytes) : Nat :=
  (directory b).foldl (fun m e => max m (e.offset + 64 * e.count)) (64 + 16 * rd b 6 2)

/-- The descriptors of a list of an image. -/
def listOf (b : Bytes) (e : DirEntry) : List Bytes := (List.range e.count).map fun i => slice b (e.offset + 64 * i) 64

/-- What a device has of a step plan image: header and directory, the lists it is sent, and SHA-384 of the whole image. -/
structure PlanView where
  head : Bytes
  lists : List (DirEntry × List Bytes)
  sha : Bytes

/-- The image as the lead device has it. -/
def imageView (b : Bytes) : PlanView := ⟨b, (directory b).map fun e => (e, listOf b e), sha384 b⟩

/-- What the lead device sends a member of an image (R167): header and directory, the lists whose DEVICE names the member in the
directory's order, and SHA-384 of the image. -/
def planShare (b : Bytes) (d : Nat) : Bytes :=
  slice b 0 (64 + 16 * rd b 6 2) ++ ((directory b).filter fun e => e.device == d).flatMap (fun e => slice b e.offset (64 * e.count)) ++
    sha384 b

/-- The lists of a share, from an offset. -/
def shareLists (b : Bytes) : Nat → List DirEntry → List (DirEntry × List Bytes)
  | _, [] => []
  | o, e :: rest =>
    (e, (List.range e.count).map fun i => slice b (o + 64 * i) 64) :: shareLists b (o + 64 * e.count) rest

/-- The image as a member has it. -/
def shareView (b : Bytes) (d : Nat) : PlanView :=
  ⟨b, shareLists b (64 + 16 * rd b 6 2) ((directory b).filter fun e => e.device == d), slice b (b.length - 48) 48⟩

/-- A step plan image as this device has it: whole on the lead device. -/
def State.planView (s : State) (b : Bytes) : PlanView := if s.isLead then imageView b else shareView b s.self

/-- Every descriptor at hand. -/
def PlanView.descs (v : PlanView) : List Bytes := v.lists.flatMap Prod.snd

/-- The descriptors of a device's lists, with their tiles. -/
def PlanView.own (v : PlanView) (d : Nat) : List (Nat × Bytes) :=
  (v.lists.filter fun e => e.1.device == d).flatMap fun e => e.2.map fun x => (e.1.tile, x)

/-- The step plan that a device keeps of an image: its own lists. -/
def PlanView.plan (v : PlanView) (d : Nat) : StepPlan :=
  ⟨rd v.head 9 1, (v.lists.filter fun e => e.1.device == d && e.1.count != 0).map fun e => ⟨e.1.device, e.1.tile, e.1.template, e.2⟩,
    (((directory v.head).filter fun e => e.count != 0).map fun e => (e.device, e.tile)).eraseDups, v.sha⟩

/-- Descriptors that a plan's lists put on a tile of this device. -/
def StepPlan.on (p : StepPlan) (n : Nat) : Nat := ((p.lists.filter fun l => l.tile == n).map fun l => l.descs.length).sum

/-- MODEL_TAG of an instance: the first 8 bytes of SHA-384 of its image. -/
def Inst.tag (x : Inst) : Nat := rd x.sha 0 8

/-- The instance as loaded or staged (R168). -/
def State.instance? (s : State) (i : Nat) : Option Inst :=
  match Table.get none i s.cfg.instS with
  | some x => some x
  | none => Table.get none i s.cfg.instA

/-- Descriptors on tile `n` of every active and staged list, those of instance `i`'s staged plan left out (R167). -/
def State.planRoom (s : State) (i n : Nat) : Nat :=
  let onTile := fun (e : Nat × Option Inst) => match e.2 with
    | some x => match x.plan with
      | some p => StepPlan.on p n
      | none => 0
    | none => 0
  ((s.cfg.instA.map onTile).sum) + (((s.cfg.instS.filter fun e =>
    e.1 != i && Table.get none e.1 s.cfg.instA != e.2).map onTile).sum)

/-- Checks 1 to 4 of R168, which take the whole image: the lead device makes them. -/
def planWhole (b : Bytes) : Option (Status × Nat) :=
  if rd b 6 2 == 0 then some (.okEmpty, 1)
  else if rd b 0 4 != 0x4E414C50 then some (.rejFormat, 2)
  else if rd b 4 2 != 1 then some (.rejVersion, 3)
  else if b.length < planEnd b || crc32c (slice b 64 (planEnd b - 64)) != rd b 24 4 then some (.rejFormat, 4)
  else none

/-- Reserved bits of the header and of the directory entries (R164, R165). -/
def headReserved (b : Bytes) : Bool :=
  fld b 8 1 4 4 != 0 || rd b 10 6 != 0 || !allZero (slice b 28 36) || (directory b).any fun e => !e.clean

/-- Checks 5 to 12 of R168 in order, on what this device has of the image: the status of the first that fails, with its number.  Check
10 judges the device's own lists, whose memory it knows; check 12 holds for as long as the commit locks the staged set (R152).  A SUSPENDED
instance takes no command (R578). -/
def State.planCheck (s : State) (i : Nat) (v : PlanView) : Option (Status × Nat) :=
  let b := v.head
  let dir := directory b
  if s.srv.suspended.contains i then some (.failDevice, 0)
  else match (if fld b 8 1 0 4 == i then s.instance? i else none) with
  | none => some (.cfgConflict, 5)
  | some x =>
    if rd b 16 8 != x.tag then some (.rejVersion, 6)
    else if decide (8 < rd b 9 1) ||
        dir.any (fun e => !bit x.mask e.device || (rd b 9 1 != 0 && decide (rd b 9 1 ≤ e.template)) ||
          decide (32768 < e.count) || e.offset % 64 != 0) ||
        decide ((dir.map fun e => (e.device, e.tile, e.template)).eraseDups.length < dir.length) then some (.rejFormat, 7)
    else if headReserved b || v.descs.any descCheck8 then some (.rejFormat, 8)
    else if rd b 9 1 == 0 || v.descs.any descZeroExtent then some (.rejZeroExtent, 9)
    else if (v.own s.self).any fun e => descCheck10 s (some ⟨x.prot, x.mask, x.image⟩) e.1 e.2 then some (.rejFormat, 10)
    else if (List.range 16).any fun n => decide (65536 < s.planRoom i n + (v.plan s.self).on n) then some (.rejNoSpace, 11)
    else if s.cfg.prepared.isSome || s.cfg.lockCluster then some (.cfgConflict, 12)
    else none

/-- Stage an instance's plan, in place of its staged one (R167). -/
def State.stagePlan (s : State) (i : Nat) (p : StepPlan) : State :=
  match s.instance? i with
  | none => s
  | some x => { s with cfg := { s.cfg with instS := Table.insert i (some { x with plan := some p }) s.cfg.instS } }

/-- The list a tile runs in furrows of a template: the first active instance that has one there and is not SUSPENDED
(R166, R169, R578). -/
def State.listFor (s : State) (n t : Nat) : Option (Nat × List Bytes) :=
  (s.cfg.instA.filter fun e => !s.srv.suspended.contains e.1).findSome? fun e => match e.2 with
    | some x => match x.plan with
      | some p => (p.lists.find? fun l => l.tile == n && l.template == t).map fun l => (e.1, l.descs)
      | none => none
    | none => none

/-! ### What a commit judges (R639, R169) -/

/-- Bytes that the plots of a MATMUL's weights take at least: every plot but the last is full (R292), and only BF16 plots may be
shorter than raw ones, down to two bits a symbol (R301). -/
def weightBytes (d : Bytes) : Nat :=
  let k := D.mWfmt d
  let size := fun (g : Nat) => kindHeader k + if k == 7 then 64 * ceilDiv (288 * g) 64 else kindGroupBytes k * g
  let n := D.mKBlocks d * ceilDiv (D.mColumns d) (kindN k)
  n / kindGroups k * size (kindGroups k) + if n % kindGroups k == 0 then 0 else size (n % kindGroups k)

/-- The ranges that a descriptor names by its fields: of a MATMUL's weights what their plots take at least, and of its outlier record
what comes before the listed rows. -/
def descRanges (d : Bytes) : List (Nat × Nat) :=
  match D.type d with
  | 0x1 => (if D.adapter d then [] else [(D.mWeight d, weightBytes d)]) ++ (if D.mOutlier d == 0 then [] else [(D.mOutlier d, 128)]) ++ (matmulAccs d).map fun x => (x.addr, x.len)
  | 0x2 => vecRanges d
  | 0x5 => xferRanges d
  | 0x6 => [D.cSrc d, D.cDst d].map fun a => (a, D.cBytes d)
  | _ => []

/-- A range meets the span of a Granary of `g` units of 4 MiB on some tile, `g` by tile. -/
def inGranarySpan (g : Nat → Nat) (r : Nat × Nat) : Bool :=
  r.2 != 0 && decide (r.1 < 0x100000000) &&
    (List.range 16).any fun n => overlap r.1 r.2 (tileStoreBase n + 0x10000000 - g n * 0x400000) (g n * 0x400000)

/-- A descriptor breaks a condition of R639 that the commit judges: Granary sizes, the furrow plan and the region modes
that would be active. -/
def commitBad (granary : Nat → Nat) (laneSets headlandAt : Nat) (unitLocal : Nat → Bool) (d : Bytes) : Bool :=
  (descRanges d).any (inGranarySpan granary) ||
    (D.type d == tAttend && decide (laneSets ≤ D.aLaneSet d)) || (D.type d == tSample && decide (laneSets ≤ D.sLaneSet d)) ||
    (D.type d == tWait && D.wMode d == 1 && decide (headlandAt ≤ D.wOffset d)) ||
    (D.type d == tNbu && !unitLocal (D.nProg d))

end Sys2Proof.Machine
end

