-- ==== Sys2Proof/Machine/Power.lean ====
section
/-!
DEFINITION. The power controller (R509 to R528, spec/15_power_thermal.md): demands and levels, the cap controller's
prediction, learning, hints, samples and the thermal ladder.
-/

namespace Sys2Proof.Machine

/-! ### Levels and demands (R510, R511, R526) -/

/-- Power factor of a level in hundredths, and its speed share in sixteenths (R510). -/
def powerFactor (l : Nat) : Nat := [100, 85, 71, 58, 46, 36, 24, 15].getD l 15
def speedShare (l : Nat) : Nat := [16, 14, 12, 10, 8, 6, 3, 1].getD l 1

def srcCap : Nat := 0
def srcPeak : Nat := 1
def srcCurrent : Nat := 2
def srcTileTemp : Nat := 3
def srcStoreTemp : Nat := 4
def srcStackTemp : Nat := 5

def State.demand (s : State) (src n : Nat) : Nat := Table.get 0 (src * 16 + n) s.pwr.demands

/-- Whether a temperature's emergency is in force on a tile (R523). -/
def State.emergency (s : State) (src n : Nat) : Bool :=
  if src == srcTileTemp then s.isSet (R.THM_TILE.TILE_EMERGENCY n)
  else if src == srcStoreTemp then s.isSet (R.THM_TILE.STORE_EMERGENCY n)
  else if src == srcStackTemp then s.isSet (R.STACK_THERM.EMERGENCY n)
  else false

/-- What a source demands of a tile, its emergency counted in (R511, R523). -/
def State.demanded (s : State) (src n : Nat) : Nat := if s.emergency src n then 7 else s.demand src n

/-- VR_ALERT demands PL7 while an input is low and for 1 ms after (R512). -/
def State.alert (s : State) : Bool := !s.pins.vrAlertLow.isEmpty || s.pwr.alertHold

/-- The level a tile runs at: the highest demanded (R511). -/
def State.wanted (s : State) (n : Nat) : Nat :=
  (List.range 6).foldl (fun m src => max m (s.demanded src n)) (if s.alert then 7 else 0)

def State.pl (s : State) (n : Nat) : Nat := s.get (R.PWR_TILE.PL n)

/-- CAP in watts: CAP_W, or the sideband's cap where it is set and lower (R600). -/
def State.cap (s : State) : Nat :=
  let sb := s.get R.MGT_SB_CAP.CAP_W
  if sb == 0 then s.get R.PWR_CTRL.CAP_W else min (s.get R.PWR_CTRL.CAP_W) sb

/-- Whether a reason binds on some tile (R526). -/
def State.binds (s : State) (r : Nat) : Bool :=
  let by_ := fun (src : Nat) => (List.range 16).any fun n => decide (0 < s.demanded src n ∧ s.wanted n ≤ s.demanded src n)
  let cap := by_ srcCap || by_ srcPeak
  match r with
  | 0 => (List.range 16).any fun n => s.isSet (R.PWR_TILE.STRETCH n) || s.isSet (R.PWR_TILE.DROOP_SKIP n)
  | 1 => cap && s.get R.PWR_CTRL.CAP_W == 3200
  | 2 => by_ srcCurrent
  | 3 => by_ srcTileTemp
  | 4 => by_ srcStoreTemp
  | 5 => by_ srcStackTemp
  | 6 => s.alert
  | _ => cap && s.get R.PWR_CTRL.CAP_W != 3200

/-- Every tile takes the level demanded; the device level and the reasons follow (R510, R511, R533). -/
def State.settleLevels (s : State) : State :=
  let active := bitSet ((List.range 8).filter s.binds)
  let want := (List.range 16).map s.wanted
  let s := (List.range 16).foldl (fun (s : State) n => s.put (R.PWR_TILE.PL n) (want.getD n 0)) s
  let s := s.put R.PWR_STATUS.DEVICE_PL (want.foldl max 0)
  let s := s.put R.PWR_REASONS.ACTIVE active
  if want.contains 7 then
    { s with pwr := { s.pwr with
        occur := s.pwr.occur.map fun e => (e.1, e.2.map fun o => { o with seven := true }) } }
  else s

/-- Set what a source demands of a tile. -/
def State.setDemand (s : State) (src n l : Nat) : State :=
  { s with pwr := { s.pwr with demands := Table.set 0 (src * 16 + n) l s.pwr.demands } }

/-- The throttle reasons' times grow by one nanosecond (R526, R533). -/
def State.throttleTick (s : State) : State :=
  (bitList 8 (s.get R.PWR_REASONS.ACTIVE)).foldl (fun (s : State) r => s.bump (R.PWR_THROTTLE.NS r)) s

/-! ### The cap (R514, R515) -/

/-- The mean of the device's newest `n` samples, in microwatts. -/
def State.meanPower (s : State) (n : Nat) : Nat :=
  let l := s.pwr.samples.take n
  if l.isEmpty then 0 else l.sum / l.length

/-! ### The phase table (R517) -/

def PhaseEnt.is (e : PhaseEnt) (t i p : Nat) : Bool := e.template == t && e.inst == i && e.phase == p

def State.phaseEnt (s : State) (t i p : Nat) : Option PhaseEnt := s.pwr.phases.find? fun e => e.is t i p

/-- An entry becomes the most recently used. -/
def State.usePhase (s : State) (t i p : Nat) : State :=
  match s.phaseEnt t i p with
  | none => s
  | some e => { s with pwr := { s.pwr with phases := e :: s.pwr.phases.filter fun x => !x.is t i p } }

/-- `p0 + rta((pm - p0) / 8)` where `pm` is `num / den`. -/
def learnStep (p0 num den : Nat) : Nat :=
  let d : Int := (num : Int) - (p0 * den : Nat)
  let m := (2 * d.natAbs + 8 * den) / (16 * den)
  ((p0 : Int) + (if d < 0 then -(m : Int) else (m : Int))).toNat

/-- An occurrence ends: its entry learns, entered first where it is new, in place of the least recently used where the
table is full (R517).  No rule gives a new entry's P0 before its first update: it is a free value. -/
def State.learn (s : State) (i : Nat) (o : Occur) : State :=
  if !s.isSet R.PWR_CTRL.LEARN_EN || o.seven || o.samples == 0 then s
  else
    let inst := if i == 16 then 0 else i
    let (e, s) := match s.phaseEnt o.template inst o.phase with
      | some e => (e, s)
      | none => ((⟨o.template, inst, o.phase, s.freeVal % 2 ^ 32, 0⟩ : PhaseEnt), s.draw)
    let e := { e with
      p0 := min (2 ^ 32 - 1) (learnStep e.p0 (o.sum * 1600) (o.samples * 1000000 * powerFactor o.level))
      count := min (2 ^ 32 - 1) (e.count + 1) }
    { s with pwr := { s.pwr with
        phases := (e :: s.pwr.phases.filter fun x => !x.is o.template inst o.phase).take 512 } }

/-- The occurrence of an instance in progress ends. -/
def State.endOccur (s : State) (i : Nat) : State :=
  match Table.get none i s.pwr.occur with
  | none => s
  | some o => (s.learn i o).usePhase o.template (if i == 16 then 0 else i) o.phase |>
      fun (s : State) => { s with pwr := { s.pwr with occur := Table.erase i s.pwr.occur } }

/-- An occurrence that was abandoned is not learned (R517). -/
def State.dropOccur (s : State) (i : Nat) : State := { s with pwr := { s.pwr with occur := Table.erase i s.pwr.occur } }

def State.setOccur (s : State) (i : Nat) (o : Occur) : State :=
  { s with pwr := { s.pwr with occur := Table.insert i (some o) s.pwr.occur } }

/-! ### Prediction (R516) -/

/-- PHASE entries of a template of the active plan. -/
def State.phaseEntries (s : State) (t : Nat) : List PlanEntry :=
  match s.frw.active with
  | none => []
  | some p => p.entries.filter fun e => e.type == 1 && e.template == t

/-- Power assumed where a phase is not yet learned, in 1/16 W: the highest of its template's learned entries, or PEAK (R517; an entry that
has not been learned over 4 occurrences does not count: DESIGN CHOICE, log entry 45). -/
def State.p0Default (s : State) (t : Nat) : Nat :=
  match (s.pwr.phases.filter fun e => e.template == t && decide (4 ≤ e.count)).map PhaseEnt.p0 with
  | [] => (s.cap + 700) * 16
  | l => l.foldl max 0

/-- Power assumed for a phase, in 1/16 W: learned over at least 4 occurrences, else the default of its template. -/
def State.p0 (s : State) (t i p : Nat) : Nat :=
  match s.phaseEnt t i p with
  | some e => if 4 ≤ e.count then e.p0 else s.p0Default t
  | none => s.p0Default t

/-- Length of the part two spans have in common. -/
def common (a b c d : Nat) : Nat := min b d - max a c

/-- Length of the union of spans, given sorted by start. -/
def unionLen : List (Nat × Nat) → (from_ : Nat) → Nat
  | [], _ => 0
  | (a, b) :: rest, f => (b - max a f) + unionLen rest (max b f)

/-- Energy units: 1/16 W x ns, in parts of 168,000,000, so that every level's factor and speed divide evenly. -/
def unitsPerWattNs : Nat := 16 * 168000000

/-- Predicted energy of a furrow that starts at `t0`, phases above CAP at level `a`, the others at level `b`. -/
def State.predict (s : State) (t t0 : Nat) (hints : List PowerHint) (a b : Nat) : Nat :=
  match s.frw.active with
  | none => 0
  | some plan =>
    let es := s.phaseEntries t
    let level := fun (e : PlanEntry) => if s.cap * 16 < s.p0 t e.inst e.tag then a else b
    let phase := fun (e : PlanEntry) =>
      let l := level e
      let st := t0 + e.offset
      let hintWn := (hints.map fun h => h.watts * common h.start h.stop st (st + e.duration)).sum
      (s.p0 t e.inst e.tag * powerFactor l * e.duration + 1600 * hintWn) * (16 * 1680000 / speedShare l)
    let spans := (es.map fun e => (e.offset, e.offset + e.duration)).mergeSort fun x y => decide (x.1 ≤ y.1)
    let outside := plan.period - unionLen spans 0
    let hintOut := (hints.map fun h => h.watts *
      (common h.start h.stop t0 (t0 + plan.period) -
        (es.map fun e => common h.start h.stop (t0 + e.offset) (t0 + e.offset + e.duration)).sum)).sum
    (es.map phase).sum + s.p0 t 0 0xFFFF * outside * 168000000 + hintOut * unitsPerWattNs

/-- The smallest level at which the prediction meets the allowance, or 6. -/
def firstLevel (ok : Nat → Bool) : Nat := ((List.range 7).find? ok).getD 6

/-- Levels of the phases of a furrow of template `t` that starts at `t0` (R516). -/
def State.fixLevels (s : State) (t t0 allow : Nat) (hints : List PowerHint) : List PhaseLevel :=
  let a := firstLevel fun a => decide (s.predict t t0 hints a 0 ≤ allow)
  let b := if s.predict t t0 hints a 0 ≤ allow then 0 else firstLevel fun b => decide (s.predict t t0 hints a b ≤ allow)
  (s.phaseEntries t).map fun e =>
    ⟨e.inst, e.tag, e.offset, if s.cap * 16 < s.p0 t e.inst e.tag then a else b⟩

/-- The energy allowance of the next furrow, in the prediction's units (R515). -/
def State.allowance (s : State) : Nat :=
  match s.frw.active with
  | none => 0
  | some plan =>
    let meas := (s.pwr.samples.take ((10000000 - plan.period) / 1000)).sum
    let rest := s.p0 (s.get R.FRW_LATE.TEMPLATE) 0 0xFFFF * plan.headland * 168000000
    s.cap * 10000000 * unitsPerWattNs - meas * (unitsPerWattNs / 1000) - rest

/-- At the start of a headland the controller fixes the levels of the next furrow, of template `t`, and judges the slack
(R515, R516, R519). -/
def State.predictFurrow (s : State) (t : Nat) : State :=
  match s.frw.active with
  | none => s
  | some plan =>
    let t0 := s.get R.FRW_START_TIME.START_TIME + plan.period
    let hints := s.pwr.hints ++ s.pwr.tileHints.map Prod.snd
    let levels := s.fixLevels t t0 s.allowance hints
    let added := (List.zipWith (fun (e : PlanEntry) (l : PhaseLevel) =>
      e.duration * 16 / speedShare l.level - e.duration) (s.phaseEntries t) levels).sum
    let s := (s.phaseEntries t).foldl (fun (s : State) e => s.usePhase t e.inst e.tag) s
    let s := s.putBit R.PWR_STATUS.SLACK_SHORT (decide (s.get R.FRW_SLACK.LAST_SLACK_NS < added))
    { s with pwr := { s.pwr with
        levels := levels, tileLevels := []
        hints := s.pwr.hints.filter fun h => decide (s.now < h.stop)
        tileHints := s.pwr.tileHints.filter fun h => decide (s.now < h.2.stop) } }

/-! ### Phases (R518) -/

/-- The level predicted for a phase of an instance on a tile: the latest entry of that phase not after `off`, else its
first. -/
def State.levelOf (s : State) (n i p off : Nat) : Option Nat :=
  let l := (Table.get s.pwr.levels n s.pwr.tileLevels).filter fun x => x.inst == i && x.phase == p
  match (l.filter fun x => decide (x.offset ≤ off)).getLast? with
  | some x => some x.level
  | none => l.head?.map PhaseLevel.level

/-- Offset of now from the start of the furrow. -/
def State.offset (s : State) : Nat := s.now - s.get R.FRW_START_TIME.START_TIME

/-- Tiles that run an instance's list. -/
def State.instTiles (s : State) (i : Nat) : List Nat := (List.range 16).filter fun n => (s.tile n).inst == some i

/-- A phase's level is applied on the tiles of its instance. -/
def State.applyPhase (s : State) (i p : Nat) : State :=
  let s := (s.instTiles i).foldl (fun (s : State) n =>
    match s.levelOf n i p s.offset with
    | some l => s.setDemand srcCap n l
    | none => s) s
  { s with pwr := { s.pwr with applied := Table.insert i (some p) s.pwr.applied } }.settleLevels

/-- Predicted power of a phase, in 1/1600 W (R518). -/
def State.phasePower (s : State) (t : Nat) (e : PlanEntry) : Nat :=
  s.p0 t e.inst e.tag * powerFactor ((s.levelOf 16 e.inst e.tag e.offset).getD 0)

/-- 2 us before a phase: the setpoint for its level, with the guard where its power exceeds that of the phase before it by
more than 10 % (R518). -/
def State.prepare (s : State) (i p : Nat) : State :=
  if !s.isSet R.PWR_CTRL.PREPOS_EN || !s.inSchedule || s.alert then s
  else
    let t := s.get R.FRW_LATE.TEMPLATE
    let es := s.phaseEntries t
    match (es.filter fun e => e.inst == i && e.tag == p && decide (s.offset ≤ e.offset)).head? with
    | none => s
    | some e =>
      let before := (es.filter fun x => decide (x.offset < e.offset)).mergeSort fun x y => decide (x.offset ≤ y.offset)
      let guard := match before.getLast? with
        | some b => decide (11 * s.phasePower t b < 10 * s.phasePower t e)
        | none => false
      if s.pwr.prepared.contains (i, p) then s
      else { s with pwr := { s.pwr with
          prepared := s.pwr.prepared ++ [(i, p)]
          guards := if guard then s.pwr.guards ++ [s.get R.PWR_CTRL.GUARD_MV] else s.pwr.guards } }

/-- At a phase's offset its level is applied (R518). -/
def State.beginPhase (s : State) (i p : Nat) : State :=
  if !s.inSchedule || !s.pwr.prepared.contains (i, p) then s
  else { s with pwr := { s.pwr with prepared := s.pwr.prepared.erase (i, p) } }.applyPhase i p

/-- The voltage guard of a phase is removed, 1 us after it starts: that of the phase prepared first (R518). -/
def State.removeGuard (s : State) : State := { s with pwr := { s.pwr with guards := s.pwr.guards.drop 1 } }

/-- The voltage that the guards in force add, in millivolts: each phase's guard is the same voltage, held until the last is removed
(R518). -/
def State.guardMv (s : State) : Nat := s.pwr.guards.foldl max 0

/-- MARK (R182, R517, R518): the tile's phase; the instance's occurrence ends and the next begins where the phase is new, or
where the tile that began it marks again; a phase other than the one applied is corrected. -/
def State.mark (s : State) (n p : Nat) : State :=
  let s := s.modTile n fun t => { t with phase := some p }
  match (s.tile n).inst with
  | none => s
  | some i =>
    let fresh := match Table.get none i s.pwr.occur with
      | none => true
      | some o => o.phase != p || o.tile == n
    if !fresh then s
    else
      let s := s.endOccur i
      let s := match Table.get none i s.pwr.applied with
        | some q => if q != p && s.inSchedule then (s.bump R.PWR_STATUS.PHASE_MISMATCHES).applyPhase i p else s
        | none => s
      s.setOccur i ⟨n, (s.tile n).template, p, (s.levelOf n i p s.offset).getD (s.pl n), 0, 0, decide (s.get R.PWR_STATUS.DEVICE_PL = 7)⟩

/-- HINT of a tile (R181, R519): added power from AHEAD_NS on; where it falls into the furrow already predicted, the tile's
levels for the phases still to come are fixed anew. -/
def State.hintTile (s : State) (n : Nat) (d : Bytes) : State :=
  let h : PowerHint := ⟨s.now + D.hAhead d, s.now + D.hAhead d + D.hDuration d, D.hExtra d⟩
  let s := { s with pwr := { s.pwr with tileHints := s.pwr.tileHints ++ [(n, h)] } }
  match s.frw.active with
  | none => s
  | some plan =>
    let t0 := s.get R.FRW_START_TIME.START_TIME
    if s.inSchedule && decide (0 < common h.start h.stop t0 (t0 + plan.period)) then
      let t := s.get R.FRW_LATE.TEMPLATE
      let l := s.fixLevels t t0 s.allowance (s.pwr.hints ++ s.pwr.tileHints.map Prod.snd)
      let old := Table.get s.pwr.levels n s.pwr.tileLevels
      let new := (List.zip (List.range l.length) l).map fun e =>
        if s.offset < e.2.offset then e.2 else old.getD e.1 e.2
      { s with pwr := { s.pwr with tileLevels := Table.insert n new s.pwr.tileLevels } }
    else s

/-- A HINT packet (R519): held, at most 16; a 17th replaces the one that ends soonest. -/
def State.hintDevice (s : State) (h : PowerHint) : State :=
  let l := s.pwr.hints
  let l := if l.length < 16 then l
    else
      let first := (l.map PowerHint.stop).foldl min (2 ^ 64)
      l.eraseIdx ((l.findIdx? fun x => x.stop == first).getD 0)
  { s with pwr := { s.pwr with hints := l ++ [h] } }

/-- A step's end ends the occurrences in progress (R517). -/
def State.endPhases (s : State) : State :=
  (Table.keys s.pwr.occur).foldl (fun (s : State) i => if i == 16 then s else s.endOccur i) s

/-- A furrow starts: the span outside phases of the furrow before is learned, and this furrow's begins. -/
def State.startOutside (s : State) (t : Nat) : State :=
  (s.endOccur 16).setOccur 16 ⟨0, t, 0xFFFF, 0, 0, 0, false⟩

/-! ### Samples (R514, R515, R527) -/

/-- Power of rail `i` of a sample, in microwatts. -/
def railPower (rails : List (Nat × Nat)) (i : Nat) : Nat := (rails.getD i (0, 0)).1 * (rails.getD i (0, 0)).2

/-- Device power of a sample, in microwatts. -/
def samplePower (rails : List (Nat × Nat)) : Nat := ((List.range 22).map (railPower rails)).sum

/-- A sample enters the windows over which power and current are averaged, and the occurrences in progress (R515, R517). -/
def State.keepSample (s : State) (rails : List (Nat × Nat)) : State :=
  let total := samplePower rails
  { s with pwr := { s.pwr with
      rails := (List.range 22).map fun i => rails.getD i (0, 0)
      samples := (total :: s.pwr.samples).take 10000
      currents := (List.range 16).foldl (fun c n =>
        Table.modify [] n (fun l => ((rails.getD n (0, 0)).2 :: l).take 10) c) s.pwr.currents
      occur := s.pwr.occur.map fun e =>
        (e.1, e.2.map fun o =>
          if e.1 == 16 && s.pwr.occur.length != 1 then o else { o with sum := o.sum + total, samples := o.samples + 1 }) } }

/-- The averages as their registers show them (R515, R526). -/
def State.showPower (s : State) : State :=
  let s := (List.range 16).foldl (fun (s : State) n =>
    let l := Table.get [] n s.pwr.currents
    s.put (R.PWR_TILE.CURRENT_A n) (min 255 (l.sum / (1000 * max 1 l.length)))) s
  let s := s.put R.PWR_STATUS.POWER_W (min 0xFFFF (s.meanPower 1000 / 1000000))
  s.put R.PWR_STATUS.WINDOW_W (min 0xFFFF (s.meanPower 10000 / 1000000))

/-- The sample's energy, added to the partitions' counters (R527). -/
def State.addEnergy (s : State) (rails : List (Nat × Nat)) (shares : List Nat) : State :=
  let common := railPower rails 17 + railPower rails 19 + railPower rails 20
  (List.range 16).foldl (fun (s : State) n =>
    let e := Table.get 0 n s.pwr.fraction + 16 * (railPower rails n + shares.getD n 0) + common
    { (s.wrapAdd (R.PWR_ENERGY.UJ n) (e / 16000000)) with
        pwr := { s.pwr with fraction := Table.set 0 n (e % 16000000) s.pwr.fraction } }) s

/-- What the peak guard demands of every tile, and for how many samples (R514). -/
def State.setGuard (s : State) (f : Nat → Nat) (left : Nat) : State :=
  let s := (List.range 16).foldl (fun (s : State) n => s.setDemand srcPeak n (f n)) s
  ({ s with pwr := { s.pwr with peakLeft := left } }.putBit R.PWR_STATUS.PEAK_GUARD (left != 0)).settleLevels

/-- The peak guard, at a sample of `total` microwatts (R514). -/
def State.peakGuard (s : State) (total : Nat) : State :=
  if (s.cap + 700) * 1000000 < total then s.setGuard (fun n => min 6 (s.pl n + 2)) 10
  else if 1 < s.pwr.peakLeft then { s with pwr := { s.pwr with peakLeft := s.pwr.peakLeft - 1 } }
  else if s.pwr.peakLeft == 1 then s.setGuard (fun _ => 0) 0
  else s

/-- A sample of every rail, with each partition's share of VTS and VLINK_H in microwatts; the
occurrences of a step that is over end before it (R517). -/
def State.powerSample (s : State) (rails : List (Nat × Nat)) (shares : List Nat) : State :=
  ((((if s.frw.doneAt.isSome then s.endPhases else s).keepSample rails).showPower).addEnergy rails shares).peakGuard (samplePower rails)

/-- What a sample of the rails does. -/
def sampleRails (rails : List (Nat × Nat)) (shares : List Nat) (s : State) : State := s.powerSample rails shares

/-- 10 us of a tile's current have passed (R513). -/
def State.currentStep (s : State) (n : Nat) : State :=
  let l := Table.get [] n s.pwr.currents
  let limit := 1000 * s.get (R.PWR_FREQ_CTRL.CUR_LIMIT_A) * l.length
  let under := fun (s : State) (k : Nat) => { s with pwr := { s.pwr with under := Table.set 0 n k s.pwr.under } }
  if limit < l.sum then ((under s 0).setDemand srcCurrent n (min 6 (s.pl n + 1))).settleLevels
  else if 100 * l.sum < 95 * limit then
    let k := Table.get 0 n s.pwr.under + 1
    if k == 10 then ((under s 0).setDemand srcCurrent n (s.demand srcCurrent n - 1)).settleLevels else under s k
  else under s 0

/-- Outside RUNNING and FALLOW: every 100 us the device-wide demand follows the 10 ms mean (R518). -/
def State.idleCap (s : State) : State :=
  if s.inSchedule then s
  else
    let m := s.meanPower 10000
    let c := s.cap * 1000000
    let f := fun (l : Nat) => if c < m then min 6 (l + 1) else if 100 * m < 95 * c then l - 1 else l
    ((List.range 16).foldl (fun (s : State) n => s.setDemand srcCap n (f (s.demand srcCap n))) s).settleLevels

/-! ### Alerts, droop and temperature (R512, R520, R523, R524) -/

/-- VR_ALERT_N[k] falls: PL7 on every tile, and what was prepared is discarded (R512, R525). -/
def State.alertFall (s : State) (k : Nat) : State :=
  if s.pins.vrAlertLow.contains k then s
  else
    let s := { s with pins := { s.pins with vrAlertLow := s.pins.vrAlertLow ++ [k] },
                      pwr := { s.pwr with prepared := [], alertHold := false } }
    let s := s.put R.PWR_STATUS.VR_ALERT (s.get R.PWR_STATUS.VR_ALERT ||| 2 ^ k)
    ((s.bump R.THM_EVENTS.VR_ALERTS).raise (evVrAlert k)).settleLevels

/-- VR_ALERT_N[k] returns high; after the last one PL7 is held (R512). -/
def State.alertRise (s : State) (k : Nat) : State :=
  if !s.pins.vrAlertLow.contains k then s
  else
    let low := s.pins.vrAlertLow.filter fun j => j != k
    let s := s.put R.PWR_STATUS.VR_ALERT (s.get R.PWR_STATUS.VR_ALERT - 2 ^ k)
    { s with pins := { s.pins with vrAlertLow := low }, pwr := { s.pwr with alertHold := low.isEmpty } }.settleLevels

/-- The hold after an alert ends (R512). -/
def State.alertEnd (s : State) : State :=
  if s.pins.vrAlertLow.isEmpty then { s with pwr := { s.pwr with alertHold := false } }.settleLevels else s

/-- The fields of a temperature: its reading, throttle value, emergency and trip values. -/
def State.tempOf (s : State) (src n : Nat) : Nat × Nat × Nat × Nat :=
  if src == srcTileTemp then (s.get (R.THM_TILE.TJ n), s.get R.THM_CTRL.TILE_THROTTLE_C, 105, 115)
  else if src == srcStoreTemp then (s.get (R.THM_TILE.TSTORE n), s.get R.THM_CTRL.STORE_THROTTLE_C, 100, 110)
  else (s.get (R.STACK_THERM.TEMP n), s.get (R.STACK_THERM.THROTTLE_C n), 95, 105)

/-- A temperature that crosses a threshold is reported on the sideband (R599). -/
def State.crossed (s : State) (src n old : Nat) : State :=
  let (t, thr, emg, trp) := s.tempOf src n
  if [thr, emg, trp].any fun x => decide (x ≤ old) != decide (x ≤ t) then s.emit (.sensorEvent (1 + 16 * (src - 3) + n) t) else s

def emergencyField (src n : Nat) : Field :=
  if src == srcTileTemp then R.THM_TILE.TILE_EMERGENCY n
  else if src == srcStoreTemp then R.THM_TILE.STORE_EMERGENCY n
  else R.STACK_THERM.EMERGENCY n

def throttlingField (src n : Nat) : Field :=
  if src == srcTileTemp then R.THM_TILE.TILE_THROTTLING n
  else if src == srcStoreTemp then R.THM_TILE.STORE_THROTTLING n
  else R.STACK_THERM.THROTTLING n

/-- A thermal trip (R524, R580): THERM_TRIP_N and FAULT_N fall, every tile clock stops, and the event is recorded. -/
def State.trip (s : State) (src n temp : Nat) : State :=
  if !s.pins.thermTripN then s
  else
    let s := { s with pins := { s.pins with thermTripN := false } }
    let s := s.raise (evThermalTrip n (src - 3) temp)
    { s with flt := { s.flt with dead := true } }

/-- A temperature has been read: throttling, emergency and trip follow (R523).  A stack's EMERGENCY bit shows its emergency, until the
temperature is below the throttle value (R425, R430; DEDUCED, log entry 46). -/
def State.thermal (s : State) (src n : Nat) : State :=
  let (t, thr, emg, trp) := s.tempOf src n
  let hot := decide (thr ≤ t)
  let s := if hot && !s.isSet (throttlingField src n) then s.bump R.THM_EVENTS.THROTTLE_ENTRIES else s
  let s := s.putBit (throttlingField src n) hot
  let s :=
    if emg ≤ t && !s.emergency src n then
      ((s.putBit (emergencyField src n) true).bump R.THM_EVENTS.EMERGENCIES).raise (evThermalEmergency n (src - 3) t)
    else if t < thr then s.putBit (emergencyField src n) false
    else s
  (if trp ≤ t then s.trip src n t else s).settleLevels

/-- A thermal demand's step: up by one level every 100 us at or above the throttle value, down by one every 1 ms below it
less 3 degrees (R523). -/
def State.thermalStep (s : State) (src n : Nat) (down : Bool) : State :=
  let (t, thr, _, _) := s.tempOf src n
  if !down && decide (thr ≤ t) then (s.setDemand src n (min 6 (s.demand src n + 1))).settleLevels
  else if down && decide (t + 3 < thr) then (s.setDemand src n (s.demand src n - 1)).settleLevels
  else s

/-- Whether a partition of the device is in thermal emergency (R523, R63). -/
def State.thermalEmergency (s : State) : Bool :=
  (List.range 16).any fun n => s.emergency srcTileTemp n || s.emergency srcStoreTemp n || s.emergency srcStackTemp n

/-! ### Attribution (R528) -/

/-- At a headland start, the energy of the furrow just ended goes in equal shares to the lanes that ran on each partition:
to their class and their tenant. -/
def State.attribute (s : State) (fallow : Bool) : State :=
  (List.range 16).foldl (fun (s : State) n =>
    let e := s.get (R.PWR_ENERGY.UJ n) - Table.get 0 n s.pwr.atHeadland
    let lanes := match (s.tile n).inst with
      | some i => (Table.get [] i s.srv.lanes).filter fun (x : LaneEntry) => x.role != Role.empty
      | none => []
    let s := { s with pwr := { s.pwr with atHeadland := Table.set 0 n (s.get (R.PWR_ENERGY.UJ n)) s.pwr.atHeadland } }
    if fallow || lanes.isEmpty then s
    else
      lanes.foldl (fun (s : State) x =>
        let s := s.wrapAdd (R.PWR_ENERGY_CLASS.UJ n (x.cls - 1)) (e / lanes.length)
        { s with pwr := { s.pwr with tenants := Table.modify 0 x.tenant (· + e / lanes.length) s.pwr.tenants } }) s) s

end Sys2Proof.Machine
end

