-- ==== Sys2Proof/Machine/Sequencer.lean ====
section
/-!
DEFINITION. The tile sequencer's own work (R181 to R196, spec/05_step_plans.md): issue, waits, direct lists, modes, and
what a turnaround does on a tile (R187, R194, R195, R215, R250).
-/

namespace Sys2Proof.Machine

/-- The descriptor a sequencer issues next. -/
def State.nextDesc (s : State) (n : Nat) : Option Bytes := (s.tile n).list[s.listIndex n]?

/-- The sequencer goes past its next descriptor. -/
def State.advance (s : State) (n : Nat) : State :=
  (s.wrapAdd (R.TILE_SEQ_STATUS.LIST_INDEX n)).modTile n fun t => { t with waiting := false }

/-- The scalars copied into a descriptor at issue (R188). -/
def State.scalars (s : State) (n : Nat) (d : Bytes) : Nat × Nat :=
  if D.imm d then (D.vImmA d, if D.type d == tVec then D.vImmB d else 0)
  else if D.type d == tVec then
    (s.get (R.TILE_SCALAR.VALUE n (D.vScalarA d)), s.get (R.TILE_SCALAR.VALUE n (D.vScalarB d)) % 2 ^ 32)
  else if D.type d == tAttend then (s.get (R.TILE_SCALAR.VALUE n (D.aScalarA d)), 0)
  else (0, 0)

/-- Whether the sequencer issues: it runs a list. -/
def State.issuing (s : State) (n : Nat) : Bool :=
  let st := s.seqState n
  (st == seqRun || st == seqSkip || st == seqDirect) && !s.flt.heldParts.contains n

/-- What a direct list may not hold: no PLAN_LOAD has checked it, and it has no slots (R189).  An overlap of a VEC is the
vector engine's to find (R261). -/
def State.directBad (s : State) (n : Nat) (d : Bytes) : Bool :=
  descReserved d || descEncoding d || descZeroExtent d || D.type d == tColl ||
    (!(D.type d == tVec && vecOverlap d) && descCheck10 s none n d)

/-- A direct list's descriptor that cannot run ends with FAIL_STEP as it is issued, with its signal. -/
def State.directFail (s : State) (n : Nat) (d : Bytes) : State :=
  (((s.advance n).applySignal n d).stepFail n (s.listIndex n) .failStep).retire n

/-- Issue the next descriptor to its engine's queue (R182); in SKIP it completes at once, a COLL apart (R192). -/
def State.issue (s : State) (n : Nat) : State :=
  match s.nextDesc n with
  | none => s
  | some d =>
    match queueOf d with
    | none => s
    | some q =>
      if !s.issuing n then s
      else if s.seqState n == seqDirect && s.directBad n d then s.directFail n d
      else if s.seqState n == seqSkip && q != 15 then (s.advance n).completeDesc n d
      else if queueDepth q ≤ (s.queue n q).length then s
      else
        let (a, b) := s.scalars n d
        let e : Queued := ⟨d, s.listIndex n, a, b, 0, false, false, none, []⟩
        (s.advance n).setQueue n q (s.queue n q ++ [e])

/-- A descriptor that the sequencer executes itself, of the wanted type: in SKIP it does no work; else `act` says whether it
is done, and what it did. -/
def State.ownDesc (s : State) (n ty : Nat) (act : State → Bytes → State × Bool) : State :=
  match s.nextDesc n with
  | none => s
  | some d =>
    if D.type d != ty || !s.issuing n then s
    else if s.seqState n == seqDirect && s.directBad n d then s.directFail n d
    else if s.seqState n == seqSkip then (s.advance n).completeDesc n d
    else
      match act s d with
      | (s, true) => (s.advance n).completeDesc n d
      | (s, false) => s

/-- WAIT of mode 0b01 (R181, R182, R201): issue goes on at the offset from furrow start, or from GO; one issued after its
offset is counted. -/
def State.waitMeridian (s : State) (n : Nat) : State :=
  s.ownDesc n tWait fun s d =>
    if D.wMode d != 1 then (s, false)
    else
      let base := if s.seqState n == seqDirect then (s.tile n).goTime else s.get R.FRW_START_TIME.START_TIME
      let t := base + D.wOffset d
      if s.now < t then (s.modTile n fun x => { x with waiting := true }, false)
      else if t < s.now && !(s.tile n).waiting then (s.bump (R.TILE_SEQ_COUNTS.LATE_WAITS n), true)
      else (s, true)

/-- WAIT of mode 0b10 (R181): issue goes on once the counter holds the value. -/
def State.waitCounter (s : State) (n : Nat) : State :=
  s.ownDesc n tWait fun s d =>
    if D.wMode d != 2 then (s, false) else (s, decide (D.wValue d ≤ s.event n (D.wCtr d)))

/-- GO (R189): outside SERVICE, an idle sequencer takes the direct list from the control cores' SRAM. -/
def State.directGo (s : State) (n : Nat) : State :=
  let a := s.get (R.TILE_DIRECT_LIST.ADDR n) * 64
  let c := s.get (R.TILE_DIRECT_LIST.COUNT n)
  if s.get (R.TILE_SEQ_CTRL.MODE n) == 0 || s.seqState n != seqIdle || s.flt.heldParts.contains n then s
  else if c == 0 then s.modTile n fun t => { t with coreIrq := true }
  else if !(decide (sramBase ≤ a ∧ a + 64 * c ≤ sramBase + 0x1000000)) then s
  else
    let l := (List.range c).map fun i => s.read (a + 64 * i) 64
    let s := s.put (R.TILE_SEQ_STATUS.LIST_INDEX n) 0
    let s := s.putBit (R.TILE_SEQ_STATUS.FAILED n) false
    let s := s.putBit (R.TILE_SEQ_STATUS.ABANDONED n) false
    (s.setSeq n seqDirect).modTile n fun t => { t with inst := none, list := l, goTime := s.now, waiting := false }

/-- Whether an instance uses a partition of a device: its plan gives the tile a list, or it serves there. -/
def Inst.uses (x : Inst) (self n : Nat) : Bool :=
  bit x.mask self && (x.image.serving.contains n ||
    match x.plan with
    | some p => p.dir.contains (self, n)
    | none => false)

/-- Whether any instance of a set uses a partition. -/
def State.usedBy (s : State) (insts : Table (Option Inst)) (n : Nat) : List Nat :=
  insts.filterMap fun e => match e.2 with
    | some x => if x.uses s.self n then some e.1 else none
    | none => none

/-- A write of MODE (R190): another mode than SERVICE only outside the schedule, or on a partition that no model instance
uses. -/
def State.writeMode (s : State) (n m : Nat) : State :=
  if m % 4 == 0 || s.idle || (s.usedBy s.cfg.instA n).isEmpty then s.put (R.TILE_SEQ_CTRL.MODE n) m else s

/-- A write of SPARE_REQ with GO (R194, R195). -/
def State.requestSpare (s : State) (n e : Nat) : State := s.wantSpare n (e % 8)

/-- A notice reaches a tile over the mesh (R192). -/
def State.takeNotice (s : State) (n : Nat) : State :=
  if !(s.tile n).notice then s
  else
    let s := s.modTile n fun t => { t with notice := false }
    if s.owes n && s.seqState n != seqSkip then s.enterSkip n else s

/-! ### Turnaround (R41, R59, R187, R194, R215, R250) -/

/-- The near-bank units of a partition stop: nothing of what they held or computed stays (R193, R427); a pseudo-channel
inside an atom is free again at its ATOM_BOUNDARY. -/
def State.stopUnits (s : State) (n : Nat) : State :=
  (s.modStack n fun k => { k with units := [], slots := [], shadows := [] }).put (R.NBU_BUSY.UNITS n) 0

/-- A commit has work left: the flush of a Granary or the zeroing of a region is not over (R386, R398). -/
def State.unsettled (s : State) : Bool :=
  !s.cfg.granaryFlush.isEmpty || (List.range 16).any fun n => !(s.stack n).zeroing.isEmpty

/-- What an engine that leaves the map has in progress is fenced (R196). -/
def State.fenceEngine (s : State) (n e : Nat) : State :=
  match s.queue n e with
  | [] => s
  | h :: _ => if h.started && !s.isStale n e then s.modTile n fun t => { t with stale := t.stale ++ [e] } else s

/-- A logical engine changes to the spare, or doubles onto its neighbour's (R194, R195); while a pair is doubled it stays. -/
def State.replaceEngine (s : State) (n e : Nat) : State :=
  let s := s.fenceEngine n e
  let old := s.phys n e
  let map := s.get (R.TILE_ENGINE_MAP.PHYS n)
  let sp := s.get (R.TILE_ENGINE_MAP.SPARE n)
  if sp == 0xF && s.isSet (R.TILE_ENGINE_MAP.DOUBLED n) then s
  else
    let s := (s.modTile n fun t => { t with retired := if t.retired.contains old then t.retired else t.retired ++ [old] }).wrapAdd
      (R.TILE_ENGINE_EPOCH.EPOCH n)
    if sp != 0xF then
      (s.put (R.TILE_ENGINE_MAP.PHYS n) (setBits map (4 * e) 4 sp)).put (R.TILE_ENGINE_MAP.SPARE n) 0xF
    else
      let s := s.put (R.TILE_ENGINE_MAP.PHYS n) (setBits map (4 * e) 4 (s.phys n (e ^^^ 1)))
      let s := s.modTile n fun t => { t with dbl := some e }
      (s.putBit (R.TILE_ENGINE_MAP.DOUBLED n) true).raise (evEngineDoubled n e)

/-- Substitution of the engines that SPARE_REQ named, in ascending logical index (R588). -/
def State.substitute (s : State) (n : Nat) : State :=
  let l := (s.tile n).spareReq
  l.foldl (fun (s : State) e => s.replaceEngine n e) (s.modTile n fun t => { t with spareReq := [] })

/-- A physical engine is in the map, or is the spare. -/
def State.mapsEngine (s : State) (n e : Nat) : Bool :=
  (List.range 8).any (fun l => s.phys n l == e) || s.get (R.TILE_ENGINE_MAP.SPARE n) == e

/-- A returned engine that passed its self-test comes into the map (R587): in place of the doubled one, or as the spare; one that
RESET_PARTITION has brought back meanwhile is there already (R228). -/
def State.regainEngine (s : State) (n : Nat) : State :=
  match (s.tile n).regain with
  | none => s
  | some e =>
    if s.mapsEngine n e then s.modTile n fun t => { t with regain := none } else
    let dbl := (s.tile n).dbl
    let s := s.modTile n fun t => { t with regain := none, dbl := none, retired := t.retired.filter fun x => x != e }
    let s := match s.isSet (R.TILE_ENGINE_MAP.DOUBLED n), dbl with
      | true, some l =>
        (s.put (R.TILE_ENGINE_MAP.PHYS n) (setBits (s.get (R.TILE_ENGINE_MAP.PHYS n)) (4 * l) 4 e)).putBit
          (R.TILE_ENGINE_MAP.DOUBLED n) false
      | _, _ => s.put (R.TILE_ENGINE_MAP.SPARE n) e
    s.wrapAdd (R.TILE_ENGINE_EPOCH.EPOCH n)

/-- Scale registers that have saturated often are widened (R250). -/
def State.adapt (s : State) (n : Nat) : State :=
  if !s.isSet (R.TILE_SCALE_CTRL.ADAPT_EN n) then s
  else
    (List.range 4096).foldl (fun (s : State) i =>
      if s.get (R.TILE_SCALE_REG.SAT_COUNT n i) < s.get (R.TILE_SCALE_CTRL.THRESHOLD n) then s
      else
        let s := if s.get (R.TILE_SCALE_REG.WIDEN n i) < 15
          then (s.wrapAdd (R.TILE_SCALE_REG.WIDEN n i)).bump (R.TILE_SCALE_ADAPTS.ADAPTATIONS n)
          else s.bump (R.TILE_SCALE_ADAPTS.AT_LIMIT n)
        s.put (R.TILE_SCALE_REG.SAT_COUNT n i) 0) s

/-- Event counters of a tile return to 0 (R187). -/
def State.clearEvents (s : State) (n : Nat) : State :=
  (List.range 32).foldl (fun (s : State) c => s.put (R.TILE_EVENT.VALUE n c) 0) s

/-- A tile is armed with the list of its instance for a template (R41, R190, R250). -/
def State.armTile (s : State) (t n i : Nat) (l : List Bytes) : State :=
  let s := (s.adapt n).modTile n fun x => { x with inst := some i, template := t, list := l, queues := [], stale := [], waiting := false }
  let s := s.put (R.TILE_SEQ_STATUS.LIST_INDEX n) 0
  let s := s.putBit (R.TILE_SEQ_STATUS.FAILED n) false
  let s := s.putBit (R.TILE_SEQ_STATUS.ABANDONED n) false
  s.setSeq n seqArmed

/-- A tile at a turnaround: its engine map changes and its look-aside buffer empties (R194, R340, R587), even where a step runs on
into a fallow furrow; counters clear where its sequencer is DONE or IDLE (R187).  If a template is to run, every engine's slots clear
(R215), and the tile is armed where it has a list and works in SERVICE. -/
def State.turnTile (s : State) (template : Option Nat) (n : Nat) : State :=
  let quiet := s.seqState n == seqDone || s.seqState n == seqIdle
  let s := ((s.substitute n).regainEngine n).modTile n fun x => { x with lab := [] }
  let s := if quiet then (s.clearEvents n).modTile n fun x => { x with damaged := [], phase := none } else s
  match template with
  | none => s
  | some t =>
    let s := s.modTile n fun x => { x with slots := [] }
    if !quiet || s.get (R.TILE_SEQ_CTRL.MODE n) != 0 || s.flt.heldParts.contains n || !s.partOk n then s
    else
      match s.listFor n t with
      | none => s.modTile n fun x => { x with inst := none, template := t, list := [] }
      | some (i, l) => s.armTile t n i l

/-- Every tile at a turnaround. -/
def State.turnTiles (s : State) (template : Option Nat) : State :=
  (List.range 16).foldl (fun (s : State) n => s.turnTile template n) s

/-- At furrow start a tile begins its list, or is held while a commit has work left (R60; DEDUCED, log entry 28: retirement, the
staging flush and the digest check end within HEADLAND_START); one of SERVICE without a list reaches DONE (R166). -/
def State.startTile (s : State) (n : Nat) : State :=
  if s.seqState n == seqArmed then if s.unsettled then s.setSeq n seqHeld else (s.setSeq n seqRun).retire n
  else if s.get (R.TILE_SEQ_CTRL.MODE n) == 0 && s.seqState n == seqIdle && !s.flt.heldParts.contains n then s.setSeq n seqDone
  else s

/-- The work that held the step is done (R60, R198). -/
def State.releaseHeld (s : State) : State :=
  (List.range 16).foldl (fun (s : State) n => if s.seqState n == seqHeld then (s.setSeq n seqRun).retire n else s) s

/-- A step is abandoned on a tile: queues, engines and units stop, and nothing they hold stays (R57, R193). -/
def State.abandonTile (s : State) (n : Nat) : State :=
  let s := (s.modTile n fun t => { t with queues := [], slots := [], stale := [], waiting := false, notice := false }).stopUnits n
  (s.putBit (R.TILE_SEQ_STATUS.ABANDONED n) true).setSeq n seqDone

/-! ### The commands -/

/-- WAIT of mode 0b01 (R181). -/
def execWaitMeridian (tile : Nat) (s : State) : Answered := s.whenAlive fun s => s.waitMeridian tile

/-- WAIT of mode 0b10 (R181). -/
def execWaitCounter (tile : Nat) (s : State) : Answered := s.whenAlive fun s => s.waitCounter tile

/-- HINT (R181, R519). -/
def execHintDescriptor (tile : Nat) (s : State) : Answered :=
  s.whenAlive fun s => s.ownDesc tile tHint fun s d => (s.hintTile tile d, true)

/-- MARK (R182). -/
def execMarkDesc (tile : Nat) (s : State) : Answered :=
  s.whenAlive fun s => s.ownDesc tile tMark fun s d => (s.mark tile (D.hPhase d), true)

/-- FAILURE_NOTICE (R192). -/
def execFailureNotice (tile : Nat) (s : State) : Answered := s.whenAlive fun s => s.takeNotice tile

/-- A write of SEQ_CTRL.GO (R189). -/
def execDirectListGo (tile : Nat) (s : State) : Answered := s.whenAlive fun s => s.directGo tile

/-- A write of SEQ_CTRL.MODE (R190). -/
def execSeqCtrlModeWrite (tile mode : Nat) (s : State) : Answered := s.whenAlive fun s => s.writeMode tile mode

/-- A write of SPARE_REQ with GO (R194). -/
def execSpareReq (tile logical : Nat) (s : State) : Answered := s.whenAlive fun s => s.requestSpare tile logical

/-! Power and temperature (spec/15_power_thermal.md). -/

/-- 2 us before a phase (R518). -/
def execPhasePreposition (inst phase : Nat) (s : State) : Answered := s.whenAlive fun s => s.prepare inst phase

/-- A phase's offset (R518). -/
def execPhaseLevelApply (inst phase : Nat) (s : State) : Answered := s.whenAlive fun s => s.beginPhase inst phase

/-- 1 us after a phase's start the guard is removed (R518). -/
def execGuardRemove (s : State) : Answered := s.whenAlive State.removeGuard

/-- 100 us outside the schedule (R518). -/
def execIdleCapStep (s : State) : Answered := s.whenAlive fun s => s.idleCap

/-- A power sample (R514, R527). -/
def execPowerSample (rails : List (Nat × Nat)) (shares : List Nat) (s : State) : Answered :=
  s.whenOn (sampleRails rails shares)

/-- 10 us of a tile's current (R513). -/
def execCurrentLimitStep (tile : Nat) (s : State) : Answered := s.whenAlive fun s => s.currentStep tile

/-- A VR_ALERT_N input falls (R512): in reset only its level is seen (R629). -/
def execVrAlertFall (input : Nat) (s : State) : Answered :=
  s.become (if 4 ≤ input then s else if s.pins.sysRstN && s.pins.railsOn then s.alertFall input
    else if s.pins.vrAlertLow.contains input then s
    else { s with pins := { s.pins with vrAlertLow := s.pins.vrAlertLow ++ [input] } })

/-- A VR_ALERT_N input rises (R512). -/
def execVrAlertRise (input : Nat) (s : State) : Answered :=
  s.become (if s.pins.sysRstN && s.pins.railsOn then s.alertRise input
    else { s with pins := { s.pins with vrAlertLow := s.pins.vrAlertLow.filter fun k => k != input } })

/-- The hold after the last alert ends (R512). -/
def execVrAlertHoldExpiry (s : State) : Answered := s.whenOn fun s => s.alertEnd

/-- A droop detector trips (R520). -/
def execDroopTrip (tile : Nat) (s : State) : Answered :=
  s.whenAlive fun s => (if s.isSet (R.PWR_TILE.DROOP_SKIP tile) then s else s.putBit (R.PWR_TILE.STRETCH tile) true).settleLevels

/-- A droop outlasts 64 cycles (R520). -/
def execDroopSkipStart (tile : Nat) (s : State) : Answered :=
  s.whenAlive fun s =>
    if s.isSet (R.PWR_TILE.STRETCH tile) then
      ((s.putBit (R.PWR_TILE.STRETCH tile) false).putBit (R.PWR_TILE.DROOP_SKIP tile) true).settleLevels
    else s

/-- Every detector has recovered (R520). -/
def execDroopEnd (tile : Nat) (s : State) : Answered :=
  s.whenAlive fun s => ((s.putBit (R.PWR_TILE.STRETCH tile) false).putBit (R.PWR_TILE.DROOP_SKIP tile) false).settleLevels

/-- The temperatures of a tile's 8 sensors and of its tile store's 4 (R522, R523). -/
def execThermalSensorRead (tile : Nat) (tj ts : List Nat) (s : State) : Answered :=
  s.whenOn fun s =>
    let old := (s.get (R.THM_TILE.TJ tile), s.get (R.THM_TILE.TSTORE tile))
    let s := s.put (R.THM_TILE.TJ tile) (min 255 (tj.foldl max 0))
    let s := s.put (R.THM_TILE.TSTORE tile) (min 255 (ts.foldl max 0))
    let s := (s.crossed srcTileTemp tile old.1).crossed srcStoreTemp tile old.2
    (s.thermal srcTileTemp tile).thermal srcStoreTemp tile

/-- A step of a thermal demand: `source` 0 tile, 1 tile store, 2 stack; `down` at the end of 1 ms, else of 100 us (R523). -/
def execThermalThrottleStep (tile source : Nat) (down : Bool) (s : State) : Answered :=
  s.whenOn fun s => if source < 3 then s.thermalStep (3 + source) tile down else s

end Sys2Proof.Machine
end

