-- ==== Sys2Proof/Machine/Collective.lean ====
section
/-!
DEFINITION. Scheduled collectives (R452 to R461, R469, spec/13_fjarip_fabric.md): slot tables, the streams a port sends, the
placement of what arrives, combining, completion, and poisoned streams.
-/

namespace Sys2Proof.Machine

/-! ### Slots -/

/-- The COLL_SLOT entry of a template that a slot identifier names (R46). -/
def State.slotEntry (s : State) (t slot : Nat) : Option PlanEntry :=
  match s.frw.active with
  | some p => p.entries.find? fun e => e.type == 2 && e.template == t && e.tag == slot
  | none => none

/-- The slot table (R452): the tiles of this device that name a slot in a template, with their instance and COLL. -/
def State.slotTable (s : State) (t slot : Nat) : List (Nat × Nat × Bytes) :=
  (List.range 16).filterMap fun n =>
    match s.listFor n t with
    | some (i, l) => (l.find? fun d => D.type d == tColl && D.cSlot d == slot).map fun d => (n, i, d)
    | none => none

/-- A tile's COLL in a slot table. -/
def collOf (tab : List (Nat × Nat × Bytes)) (n : Nat) : Option (Nat × Bytes) := (tab.find? fun e => e.1 == n).map Prod.snd

/-- The logical links of a slot's port set (R439 to R441, R456): the piece index of the peer, and the ports to it. -/
def State.slotLinks (s : State) (ports : Nat) : List (Nat × List Nat) :=
  let g := s.groupOf (s.get R.GLB_DEVPOS.GROUP)
  let mesh := (List.range (g - 1)).filterMap fun p =>
    if bit ports p then
      some ((s.get R.GLB_DEVPOS.POSITION + p + 1) % g, if s.doubledPorts.contains (15 + p) then [p, 15 + p] else [p])
    else none
  let cols := (s.groups.filter fun b => b != s.get R.GLB_DEVPOS.GROUP).filterMap fun b =>
    match (s.columnPorts b).filter (bit ports) with
    | [] => none
    | l => some (b, l)
  mesh ++ cols

/-- The own piece index for a port set (R456). -/
def State.ownIndex (s : State) (ports : Nat) : Nat :=
  if ports % 32768 != 0 then s.get R.GLB_DEVPOS.POSITION else s.get R.GLB_DEVPOS.GROUP

/-- The port that a tile's stream takes among the ports to one peer (R441). -/
def streamPort (l : List Nat) (t : Nat) : Nat := l.getD (t % l.length) 0

/-- Piece indices of a slot, ascending. -/
def State.slotIndices (s : State) (e : PlanEntry) : List Nat :=
  let l := (s.slotLinks e.argA).map Prod.fst
  (List.range 16).filter fun q => q == s.ownIndex e.argA || l.contains q

/-- Tiles that send in a slot: one whose BYTES is 0 does no work (R172). -/
def sendersOf (tab : List (Nat × Nat × Bytes)) : List Nat := (tab.filter fun e => D.cSrc e.2.2 != 0 && D.cBytes e.2.2 != 0).map Prod.fst

/-- The one tile that receives for all, where the slot is collecting (R457). -/
def collector (tab : List (Nat × Nat × Bytes)) : Option (Nat × Bytes) :=
  match tab.filter fun e => D.cDst e.2.2 != 0 with
  | [e] => some (e.1, e.2.2)
  | _ => none

/-- Whether an operation has a second phase. -/
def twoPhase (e : PlanEntry) (tab : List (Nat × Nat × Bytes)) : Bool := e.op == 3 && (collector tab).isNone

/-- The furrow whose step is in progress (R56). -/
def State.stepFurrow (s : State) : Nat := if s.frwState == frwFallow then s.furrow - 1 else s.furrow

/-- The active instance of an identifier. -/
def State.activeInst (s : State) (i : Nat) : Option Inst := Table.get none i s.cfg.instA

def State.instProt (s : State) (i : Nat) : Bool := match s.activeInst i with
  | some x => x.prot
  | none => false

/-- The wire table block of an instance (R312). -/
def State.wireBlock (s : State) (i : Nat) : Bytes := match s.activeInst i with
  | some x => x.image.wire.getD []
  | none => []

/-! ### Wire values (R252, R253, R457, R458) -/

/-- The layout that a WIRE_FMT sends: 0 INT8, 1 and 2 FP8, 3 BF16, 4 FP32. -/
def wireLayout (f : Nat) : Nat := if f == 5 then 3 else if f == 6 then 4 else f - 1

/-- Padded row length of a 16-row payload. -/
def ePad (f bytes : Nat) : Nat :=
  match wireLayout f with
  | 0 => (bytes - 64) / 16
  | 1 | 2 => bytes / 16
  | 3 => bytes / 32
  | _ => bytes / 64

/-- An element of a payload, widened (R253). -/
def payloadElem (b : Bytes) (f e r i : Nat) : Num :=
  match wireLayout f with
  | 0 => fp32.rnd ((Num.ofInt (signed 8 (rd b (64 + r * e + i) 1))).mul (dec32 (rd b (4 * r) 4)))
  | 1 => e4m3.decode (rd b (r * e + i) 1)
  | 2 => e5m2.decode (rd b (r * e + i) 1)
  | 3 => bf16.decode (rd b (2 * (r * e + i)) 2)
  | _ => dec32 (rd b (4 * (r * e + i)) 4)

/-- The rows of a payload. -/
def payloadRows (b : Bytes) (f : Nat) : List (List Num) :=
  let e := ePad f b.length
  (List.range 16).map fun r => (List.range e).map fun i => payloadElem b f e r i

/-- Rows added in FP32 (R233, R458). -/
def addRows (x y : List (List Num)) : List (List Num) := List.zipWith (List.zipWith fun a b => fp32.rnd (a.add b)) x y

/-- Rows in the FP32 layout (R252). -/
def fp32Bytes (x : List (List Num)) : Bytes := padRows (x.map (encodeRow fp32))

/-- Rows narrowed to a WIRE_FMT (R253, R458), and the number of rows that were not finite; `free` as in quantRow. -/
def narrow (f : Nat) (x : List (List Num)) (free : Nat) : Bytes × Nat :=
  match wireLayout f with
  | 0 =>
    let q := x.map fun r => quantRow .i8s r [] free
    (scaleRecord (q.map QRow.scale) ++ padRows (q.map fun r => r.q.map (BitVec.ofNat 8)), (q.filter QRow.nonfinite).length)
  | 1 => (padRows (x.map (encodeRow e4m3)), 0)
  | 2 => (padRows (x.map (encodeRow e5m2)), 0)
  | 3 => (padRows (x.map (encodeRow bf16)), 0)
  | _ => (fp32Bytes x, 0)

/-! ### Sending -/

/-- START of a slot phase on a port (R454). -/
def State.startFlit (s : State) (x : Send) (fmt : Nat) (streams : List (Nat × Nat)) : Bytes :=
  leBytes 2 x.slot ++ leBytes 2 s.stepFurrow ++ leBytes 4 (s.get R.GLB_MEMBERSHIP.EPOCH) ++ leBytes 1 (x.op % 16 + 16 * (fmt % 16)) ++
    leBytes 1 (x.template % 8 + 8 * x.phase) ++ leBytes 1 (x.inst % 16) ++ leBytes 1 0 ++ leBytes 2 streams.length ++ leBytes 2 0 ++
    (List.range 16).flatMap fun t => leBytes 4 (match streams.find? fun e => e.1 == t with
      | some e => e.2
      | none => 0)

/-- The head of a tile's collective queue, where it names a slot. -/
def State.collHead (s : State) (n slot : Nat) : Option Queued :=
  match s.queue n 15 with
  | h :: _ => if D.cSlot h.desc == slot then some h else none
  | [] => none

/-- Whether a tile has issued its COLL of a slot and not completed it. -/
def State.collIssued (s : State) (n slot : Nat) : Bool := (s.queue n 15).any fun h => D.cSlot h.desc == slot

/-- The narrowed piece of a tile for the second phase. -/
def State.secondPiece (s : State) (n slot : Nat) : Option Piece :=
  s.coll.second.find? fun x => x.slot == slot && x.tile == n

/-- Whether a tile's stream of a slot phase can be sent (R454). -/
def State.streamReady (s : State) (x : Send) (n : Nat) : Bool :=
  match s.collHead n x.slot with
  | some h => h.started && (x.phase == 0 || s.seqState n == seqSkip || (s.secondPiece n x.slot).isSome)
  | none => false

/-- The units a stream's data are cut into: 4,096 bytes each where exponent-coded (R310), with the coded mark. -/
def streamUnits (fmt : Nat) (blk data : Bytes) : List (Bytes × Bool) :=
  if fmt == 5 then (chunks 4096 (data.length + 1) data).map fun u => if u.length == 4096 then sendUnit blk u else (u, false)
  else [(data, false)]

/-- Send one stream on a port: DATA frames from a frame boundary on, poisoned, coded or encrypted (R454, R461, R469). -/
def State.sendStream (s : State) (p n : Nat) (x : Send) (fmt : Nat) (data : Option Bytes) (len : Nat) : State :=
  let prot := s.instProt x.inst
  let units := match data with
    | some b => streamUnits fmt (s.wireBlock x.inst) b
    | none => [(List.replicate len 0, false)]
  let tag := if prot then s.gcmTag x.inst n (x.head ++ leBytes 1 n) (data.getD (List.replicate len 0)) else []
  let s := if prot then s.nonce x.inst n else s
  let bytes := (List.zip (List.range units.length) units).map fun (e : Nat × Bytes × Bool) =>
    (if e.1 + 1 == units.length then e.2.1 ++ tag else e.2.1, e.2.2)
  let frames := bytes.flatMap fun u => (chunks 256 (u.1.length + 1) u.1).map fun b =>
    { plainFrame fData b with poison := data.isNone, coded := u.2, enc := prot, srcTile := n }
  frames.foldl (fun (s : State) f => s.sendSeq p f (some (n, x.slot))) s

/-- What a tile sends to piece index `q` (R456): nothing where it is poisoned (R461). -/
def State.streamData (s : State) (x : Send) (n q : Nat) (d : Bytes) : Option Bytes :=
  if s.seqState n == seqSkip then none
  else if x.phase == 1 then (s.secondPiece n x.slot).bind Piece.bytes
  else if x.op == 1 || x.op == 3 || x.op == 5 then some (s.read (D.cSrc d + q * D.cBytes d) (D.cBytes d))
  else some (s.read (D.cSrc d) (D.cBytes d))

def State.setSends (s : State) (p : Nat) (l : List Send) : State := s.modLink p fun x => { x with sends := l }

/-- A START or a stream, of either phase, that goes after the slot's time is a late send (R49, R454). -/
def State.noteLate (s : State) (x : Send) : State :=
  if x.due < s.now then s.bump R.FRW_EVENTS2.LATE_SENDS else s

/-- A port sends what is ready, in order (R454), over at most `n` items. -/
def State.pumpPort (s : State) (p : Nat) : Nat → State
  | 0 => s
  | k + 1 =>
    match (s.link p).sends with
    | [] => s
    | x :: rest =>
      match x.tiles with
      | [] => State.pumpPort (s.setSends p rest) p k
      | n :: more =>
        let tab := s.slotTable x.template x.slot
        match s.slotEntry x.template x.slot, collOf tab n with
        | some e, some (_, d) =>
          if !s.portUp p then s
          else if !x.begun then
            if s.collIssued n x.slot then
              let streams := x.tiles.filterMap fun t => (collOf tab t).map fun c => (t, D.cBytes c.2)
              let flit := s.startFlit x (D.cWireFmt d) streams
              let f := { plainFrame fStart flit with enc := s.instProt x.inst }
              let x := { x with begun := true, head := flit.take 16 }
              State.pumpPort (((s.noteLate x).sendSeq p f).setSends p (x :: rest)) p k
            else s
          else if s.streamReady x n then
            let s := s.noteLate x
            let q := ((s.slotLinks e.argA).find? fun l => l.2.contains p).map Prod.fst
            let s := s.sendStream p n x (D.cWireFmt d) (s.streamData x n (q.getD 0) d) (D.cBytes d)
            State.pumpPort (s.setSends p ({ x with tiles := more } :: rest)) p k
          else s
        | _, _ => State.pumpPort (s.setSends p ({ x with tiles := more } :: rest)) p k

/-- Every port sends what is ready. -/
def State.pump (s : State) : State := (List.range 24).foldl (fun (s : State) p => s.pumpPort p 600) s

/-! ### Arrivals -/

/-- Arrivals counted for a tile in a slot (R459): RECV_CTR advances where RECV_EN is 1.  A stream written as poison counts as well, so
that no COLL waits for it (DEDUCED, log entry 44). -/
def State.countArrival (s : State) (n slot : Nat) (d : Bytes) (k : Nat) : State :=
  let s := { s with coll := { s.coll with counted := Table.modify 0 (slot * 16 + n) (· + k) s.coll.counted } }
  if D.cRecvEn d then s.signal n (D.cRecvCtr d) k else s

/-- What arrives fails the step of a tile, at its COLL of the slot (R192). -/
def State.arrivalFails (s : State) (n slot : Nat) : State :=
  if s.owes n && s.seqState n != seqSkip then
    s.stepFail n ((s.tile n).list.findIdx fun d => D.type d == tColl && D.cSlot d == slot) .failStep
  else s

/-- Poisoned collective data arrive at a tile (R192, R461): the event, and the step fails there. -/
def State.poisonArrived (s : State) (n slot addr : Nat) : State :=
  (s.raise (evPoisonConsumed n addr (s.tile n).inst)).arrivalFails n slot

/-- Write what arrived, or poisoned words in its place; into memory that is unmapped or off nothing is written, and the step fails as
for poison (R26, R27, R372).  A segment that wakes takes the data then. -/
def State.placeData (s : State) (n slot addr len : Nat) (b : Option Bytes) : State :=
  match s.gate n (s.tile n).inst [⟨addr, len, true⟩], b with
  | (s, .refuse e), _ => (s.raise e).arrivalFails n slot
  | (s, _), some b => s.write addr b
  | (s, _), none => (s.poisonRange addr len).poisonArrived n slot addr

/-- The pieces at hand of a tile in a slot, by their index. -/
def State.piecesOf (s : State) (n slot : Nat) : List Piece := s.coll.pieces.filter fun x => x.slot == slot && x.tile == n

/-- The rows of the pieces of given indices added in order; `none` where one is poisoned (R458). -/
def combineRows (f : Nat) (ps : List Piece) : List Nat → Option (List (List Num))
  | [] => none
  | [q] => (ps.find? fun x => x.index == q).bind fun x => x.bytes.map fun b => payloadRows b f
  | q :: rest =>
    match combineRows f ps rest, (ps.find? fun x => x.index == q).bind Piece.bytes with
    | some acc, some b => some (addRows acc (payloadRows b f))
    | _, _ => none

/-- Combine the pieces of a tile as far as they have come, in ascending index (R458): each peer's piece is counted for OP
0x1 as it is combined; after the last one the result is written, or narrowed for the second phase. -/
def State.combine (s : State) (n : Nat) (e : PlanEntry) (d : Bytes) : State :=
  let slot := e.tag
  let own := s.ownIndex e.argA
  let idx := (s.slotIndices e).filter fun q => q != own || D.cSrc d != 0
  let ps := s.piecesOf n slot
  let done := Table.get 0 (slot * 16 + n) s.coll.combined
  let here := idx.takeWhile fun q => ps.any fun x => x.index == q
  let new := here.drop done
  let s := { s with coll := { s.coll with combined := Table.set 0 (slot * 16 + n) here.length s.coll.combined } }
  let fmt := D.cWireFmt d
  let ep := ePad fmt (D.cBytes d)
  let s :=
    if here.length == idx.length && !new.isEmpty then
      let r := combineRows fmt ps idx.reverse
      if e.op == 1 then s.placeData n slot (D.cDst d) (64 * ep) (r.map fp32Bytes)
      else
        let f := 64 * ep
        let nb : Option (Bytes × Nat) := r.map fun x => narrow fmt x s.freeVal
        let s := { s with coll := { s.coll with second := s.coll.second ++ [(⟨slot, n, own, nb.map Prod.fst⟩ : Piece)] } }
        let s := (s.bump (R.TILE_RESCALE_COUNTS.NONFINITE_ROWS n) ((nb.map Prod.snd).getD 0)).draw
        s.placeData n slot (D.cDst d + own * f) f (nb.map fun b => fp32Bytes (payloadRows b.1 fmt))
    else s
  if e.op == 1 then s.countArrival n slot d (new.filter fun q => q != own).length else s

/-- A piece comes to be combined. -/
def State.addPiece (s : State) (n : Nat) (e : PlanEntry) (d : Bytes) (q : Nat) (b : Option Bytes) : State :=
  ({ s with coll := { s.coll with pieces := s.coll.pieces ++ [(⟨e.tag, n, q, b⟩ : Piece)] } }).combine n e d

/-- A stream of tile `t` and piece index `g` arrives whole, poisoned where it has no bytes; it is placed by the slot table
(R457). -/
def State.deliver (s : State) (e : PlanEntry) (phase g t : Nat) (b : Option Bytes) : State :=
  let tab := s.slotTable e.template e.tag
  match collector tab with
  | some (c, d) =>
    (s.placeData c e.tag (D.cDst d + (g * 16 + t) * D.cBytes d) (D.cBytes d) b).countArrival c e.tag d 1
  | none =>
    match collOf tab t with
    | none => s
    | some (_, d) =>
      if D.cDst d == 0 then s
      else if e.op == 1 || (e.op == 3 && phase == 0) then s.addPiece t e d g b
      else if e.op == 3 then
        let f := 64 * ePad (D.cWireFmt d) (D.cBytes d)
        (s.placeData t e.tag (D.cDst d + g * f) f (b.map fun b => fp32Bytes (payloadRows b (D.cWireFmt d)))).countArrival t e.tag d 1
      else if e.op == 4 || e.op == 6 then (s.placeData t e.tag (D.cDst d) (D.cBytes d) b).countArrival t e.tag d 1
      else (s.placeData t e.tag (D.cDst d + g * D.cBytes d) (D.cBytes d) b).countArrival t e.tag d 1

/-- A stream arrives on a port: it is counted where poisoned (R461), noted, and delivered. -/
def State.streamIn (s : State) (p : Nat) (r : Rx) (t : Nat) (b : Option Bytes) : State :=
  let s := if b.isNone then s.bump (R.LINK_COUNTS2.POISON_RECEIVED p) else s
  let s := { s with coll := { s.coll with arrived := s.coll.arrived ++ [(p, r.slot, r.phase, t)] } }
  match s.slotEntry r.template r.slot with
  | some e => s.deliver e r.phase r.peer t b
  | none => s

/-- The own piece of a tile whose COLL starts: copied locally, or the first of those to combine (R457, R458). -/
def State.ownPiece (s : State) (n : Nat) (e : PlanEntry) (d : Bytes) : State :=
  let own := s.ownIndex e.argA
  let a := if e.op == 1 || e.op == 3 || e.op == 5 then D.cSrc d + own * D.cBytes d else D.cSrc d
  let tab := s.slotTable e.template e.tag
  if D.cSrc d == 0 then s
  else
    match collector tab with
    | some (c, dc) =>
      if e.op == 4 || e.op == 6 then s
      else (s.placeData c e.tag (D.cDst dc + (own * 16 + n) * D.cBytes dc) (D.cBytes d) (some (s.read a (D.cBytes d)))).countArrival
        c e.tag dc 1
    | none =>
      if D.cDst d == 0 then s
      else if e.op == 1 || e.op == 3 then s.addPiece n e d own (some (s.read a (D.cBytes d)))
      else if e.op == 2 || e.op == 5 then
        s.placeData n e.tag (D.cDst d + own * D.cBytes d) (D.cBytes d) (some (s.read a (D.cBytes d)))
      else s

/-! ### Starting and completing -/

/-- Arrivals a tile's COLL waits for where RECV_EN is 1 (R459). -/
def State.expected (s : State) (e : PlanEntry) (d : Bytes) : Nat :=
  let tab := s.slotTable e.template e.tag
  let peers := (s.slotIndices e).length - 1
  if D.cDst d == 0 then 0
  else if (collector tab).isSome then
    if e.op == 4 || e.op == 6 then tab.length else (peers + 1) * (sendersOf tab).length
  else if e.op == 4 then (if D.cSrc d == 0 then 1 else 0)
  else if e.op == 6 then 1
  else peers

/-- Frames of a tile's streams of a slot that are not acknowledged; what is deferred to the headland does not count (R50). -/
def State.unacked (s : State) (n slot : Nat) : Bool :=
  (List.range 24).any fun p =>
    let l := s.link p
    (l.replay.any fun x => x.owner == some (n, slot) && !x.deferred) || (l.waiting.any fun x => x.2 == some (n, slot)) ||
      (l.sends.any fun x => x.slot == slot && x.tiles.contains n)

/-- Whether a started COLL at the head of its queue is complete (R459). -/
def State.collDone (s : State) (n : Nat) : Bool :=
  match s.queue n 15 with
  | [] => false
  | h :: _ =>
    let d := h.desc
    match s.slotEntry (s.tile n).template (D.cSlot d) with
    | none => h.started
    | some e =>
      h.started && (e.argB == 0 || D.cBytes d == 0 ||
        ((D.cSrc d == 0 || (s.coll.opened.contains e.tag && !s.unacked n e.tag && !s.coll.lost.contains (n, e.tag))) &&
          (!D.cRecvEn d || decide (s.expected e d ≤ Table.get 0 (e.tag * 16 + n) s.coll.counted))))

/-- In SKIP a COLL at the head of its queue starts at its slot's time (R192). -/
def State.skipStart (s : State) (n : Nat) : State :=
  match s.queue n 15 with
  | [] => s
  | h :: _ =>
    let empty := match s.slotEntry (s.tile n).template (D.cSlot h.desc) with
      | some e => e.argB == 0 || D.cBytes h.desc == 0
      | none => true
    if s.seqState n == seqSkip && !h.started && (empty || s.coll.opened.contains (D.cSlot h.desc)) then
      s.setHead n 15 { h with started := true }
    else s

/-- The COLLs of a tile go on as far as they can, at most `k` of them. -/
def State.collTile (s : State) (n : Nat) : Nat → State
  | 0 => s
  | k + 1 =>
    let s := (s.skipStart n).pump
    if s.collDone n then State.collTile (s.complete n 15) n k else s

/-- The collective interfaces of every tile go on as far as they can. -/
def State.collectives (s : State) : State := (List.range 16).foldl (fun (s : State) n => s.collTile n 17) s

/-- A tile's COLL of an operation starts once its dependencies hold (R183, R456): poison in its data fails the step, and its
streams go out poisoned. -/
def State.collStart (s : State) (n op : Nat) (mem : MemReport) : State :=
  match s.runnable n 15 tColl with
  | none => s
  | some h =>
    match s.slotEntry (s.tile n).template (D.cSlot h.desc) with
    | none => s
    | some e =>
      if e.op != op || h.started then s
      else
        let d := h.desc
        let pieces := if op == 1 || op == 3 || op == 5 then (s.slotIndices e).getLast?.getD 0 + 1 else 1
        let src := D.cBytes d * pieces
        let s := s.memReport srcMesh mem
        let s := s.setHead n 15 { h with started := true }
        if e.argB == 0 || D.cBytes d == 0 then s.collectives
        else if D.cSrc d != 0 && s.poisoned (D.cSrc d) src then
          ((s.raise (evPoisonConsumed n (D.cSrc d) (s.tile n).inst)).stepFail n h.index .failStep).collectives
        else
          match s.gate n (s.tile n).inst (if D.cSrc d == 0 then [] else [⟨D.cSrc d, src, true⟩]) with
          | (s, .go) => (s.ownPiece n e d).collectives
          | (s, .wait) => s.setHead n 15 h
          | (s, .refuse ev) => ((s.raise ev).stepFail n h.index .failStep).collectives

/-- A slot's send time (R454): every port of its set is to send its phases. -/
def State.openSlot (s : State) (slot : Nat) : State :=
  let t := s.get R.FRW_LATE.TEMPLATE
  match s.slotEntry t slot with
  | none => s
  | some e =>
    if s.frwState != frwRunning || s.coll.opened.contains slot || !s.frw.stepOpen then s
    else
      let tab := s.slotTable t slot
      let s := { s with coll := { s.coll with opened := s.coll.opened ++ [slot] } }
      let due := s.get R.FRW_START_TIME.START_TIME + e.offset
      let phases := if twoPhase e tab then [0, 1] else [0]
      let s := if e.argB == 0 then s else
        (s.slotLinks e.argA).foldl (fun (s : State) l =>
          l.2.foldl (fun (s : State) p =>
            let tiles := (sendersOf tab).filter fun n => streamPort l.2 n == p
            let new := phases.map fun ph => (⟨slot, t, e.inst, e.op, ph, due, false, [], tiles⟩ : Send)
            s.modLink p fun x => { x with sends := x.sends ++ new }) s) s
      s.collectives

/-- The collectives of a step are over: abandoned (R57), or the next step is armed. -/
def State.clearColl (s : State) : State :=
  let s := { s with coll := { Coll.reset with nonces := s.coll.nonces } }
  (List.range 24).foldl (fun (s : State) p => s.modLink p fun l => { l with sends := [], rx := none }) s

/-! ### What a commit judges (R452) -/

/-- Bytes of the layout of R252 that a COLL's BYTES may be: rows of whole 64-byte words, after the token record of INT8. -/
def layoutFits (d : Bytes) (op : Nat) : Bool :=
  let b := D.cBytes d
  let body := if D.cWireFmt d == 1 then b - 64 else b
  decide (D.cWireFmt d == 1 → 64 ≤ b) && body % 64 == 0 && (!(op == 1 || op == 3) || body % 1024 == 0)

/-- A slot of a template conflicts with its COLLs: formats differ, a length does not fit, a port's bytes differ from ARG_B,
or a placement has no place.  Ports to one peer are judged by the fullest of them. -/
def State.slotConflict (s : State) (e : PlanEntry) (tab : List (Nat × Nat × Bytes)) : Bool :=
  let fmts := tab.map fun x => D.cWireFmt x.2.2
  let bytesOn := fun (l : List Nat) (p : Nat) =>
    ((tab.filter fun x => D.cSrc x.2.2 != 0 && D.cBytes x.2.2 != 0 && streamPort l x.1 == p).map fun x => ceilDiv (D.cBytes x.2.2) 256 * 256).sum *
      (if twoPhase e tab then 2 else 1)
  let senders := sendersOf tab
  (fmts.any fun f => f != fmts.headD 0) || (tab.any fun x => !layoutFits x.2.2 e.op) ||
    ((e.op != 4 || !senders.isEmpty) && (s.slotLinks e.argA).any fun l => (l.2.map (bytesOn l.2)).foldl max 0 != e.argB) ||
    (e.op != 4 && e.op != 6 && (collector tab).isNone && senders.any fun n => match collOf tab n with
      | some (_, d) => D.cDst d == 0
      | none => true)

/-! ### The commands -/

/-- COLL_SLOT_SEND_TIME (R454). -/
def execCollSlotSendTime (slot : Nat) (s : State) : Answered := s.whenAlive fun s => s.openSlot slot

/-- DESCRIPTOR_ISSUE (R182); a COLL issued after its slot's time lets its port send START (R454). -/
def execDescriptorIssue (tile : Nat) (s : State) : Answered := s.whenAlive fun s => (s.issue tile).collectives

def execReduceScatter (tile : Nat) (mem : MemReport) (s : State) : Answered :=
  s.whenAlive fun s => s.collStart tile 1 mem

def execAllGather (tile : Nat) (mem : MemReport) (s : State) : Answered :=
  s.whenAlive fun s => s.collStart tile 2 mem

def execAllReduce (tile : Nat) (mem : MemReport) (s : State) : Answered :=
  s.whenAlive fun s => s.collStart tile 3 mem

def execBroadcast (tile : Nat) (mem : MemReport) (s : State) : Answered :=
  s.whenAlive fun s => s.collStart tile 4 mem

def execOneShotAllToAll (tile : Nat) (mem : MemReport) (s : State) : Answered :=
  s.whenAlive fun s => s.collStart tile 5 mem

def execRingPass (tile : Nat) (mem : MemReport) (s : State) : Answered :=
  s.whenAlive fun s => s.collStart tile 6 mem

end Sys2Proof.Machine
end

