-- ==== Sys2Proof/Machine/Places.lean ====
section
/-!
DEFINITION. Where CLUSTER_FORM places devices (R148), and the cabling that R439 to R442 ask for (spec/13_fjarip_fabric.md,
spec/04_command_packets.md).
-/

namespace Sys2Proof.Machine

/-- An entry of CLUSTER_FORM (R148). -/
structure FormEntry where
  serial : Nat
  pos : Nat
  group : Nat
  spare : Bool
  /-- its reserved bits are 0 -/
  clean : Bool
  deriving DecidableEq, Repr

def formEntries (b : Bytes) : List FormEntry :=
  (List.range (b.length / 16)).map fun i =>
    let o := 16 * i
    let x := rd b (o + 8) 1
    { serial := rd b o 8, pos := bits x 0 4, group := bits x 4 2, spare := bit x 6
      clean := decide (x < 128) && allZero (slice b (o + 9) 7) && (!bit x 6 || bits x 0 6 == 0) }

def FormEntry.id (e : FormEntry) : Nat := 16 * e.group + e.pos

/-- Places of a cluster: serial by device identifier, positions of each group (R439), and the serials of the spares. -/
structure Places where
  ids : Table Nat
  sizes : Table Nat
  spares : List Nat

/-- The places that entries assign. -/
def placesOf (l : List FormEntry) : Places :=
  let held := l.filter fun e => !e.spare
  { ids := held.foldl (fun t e => Table.insert e.id e.serial t) []
    sizes := held.foldl (fun t e => Table.insert e.group (max (e.pos + 1) (Table.get 0 e.group t)) t) []
    spares := (l.filter FormEntry.spare).map FormEntry.serial }

/-- The device that a serial becomes. -/
def Places.idOf (c : Places) (serial : Nat) : Option Nat := (c.ids.find? fun e => e.2 == serial).map Prod.fst

/-- The peer that R439 and R440 require on a port of a device: device and port; none where the port is unused. -/
def Places.peer (c : Places) (id p : Nat) : Option (Nat × Nat) :=
  let g := id / 16
  let n := Table.get 0 g c.sizes
  let groups := (List.range 4).filter fun b => Table.get 0 b c.sizes != 0
  let want :=
    if p < 15 then if p + 1 < n then some (16 * g + (id % 16 + p + 1) % n, n - 2 - p) else none
    else
      match (groups.filter fun b => b != g)[(p - 15) / 3]? with
      | some b => some (16 * b + id % 16, 15 + 3 * (groups.filter fun a => a != b).idxOf g + (p - 15) % 3)
      | none => none
  want.filter fun e => c.ids.any fun x => x.1 == e.1

/-- The peer a column port has where it doubles a mesh port (R441). -/
def Places.doubled (c : Places) (id p : Nat) : Option (Nat × Nat) :=
  let g := id / 16
  let n := Table.get 0 g c.sizes
  let alone := (List.range 4).all fun b => b == g || Table.get 0 b c.sizes == 0
  if alone && n ≤ 10 && 15 ≤ p && p - 15 + 1 < n then some (16 * g + (id % 16 + (p - 15) + 1) % n, 15 + (n - 2 - (p - 15)))
  else none

/-- Serial and port that a port is trained to. -/
def State.trainedTo (s : State) (p : Nat) : Option (Nat × Nat) :=
  if s.portUp p && s.isSet (R.LINK_STATUS.PEER_VALID p) then
    some (s.get (R.LINK_PEER.SERIAL p), s.get (R.LINK_STATUS.PEER_PORT p))
  else none

/-- A port is trained to a device and port. -/
def State.reaches (s : State) (c : Places) (p : Nat) (there : Option (Nat × Nat)) : Bool :=
  match there, s.trainedTo p with
  | some (d, q), some x => (c.ids.any fun e => e.1 == d && e.2 == x.1) && x.2 == q
  | _, _ => false

/-- This device's trained ports meet R439 to R441 for a place (R442). -/
def State.cabled (s : State) (c : Places) (id : Nat) : Bool :=
  (List.range 24).all fun p =>
    match c.peer id p with
    | some x => s.reaches c p (some x)
    | none => match s.trainedTo p with
      | none => true
      | some x => s.reaches c p (c.doubled id p) || !((c.ids.any fun e => e.2 == x.1) || c.spares.contains x.1)

/-- Column ports that double mesh ports, and those mesh ports, as trained (R441, R474). -/
def State.markDoubled (s : State) (c : Places) (id : Nat) : State :=
  (List.range 24).foldl (fun (s : State) p =>
    let q := if p < 15 then p + 15 else p
    s.putBit (R.LINK_STATUS.DOUBLED p) (q < 24 && (c.peer id q).isNone && s.reaches c q (c.doubled id q))) s

/-- The state with this device where places put it: what the routes of R468 follow while a cluster is formed. -/
def State.placed (s : State) (c : Places) : State :=
  let id := (c.idOf Config.serial).getD 0
  let s := (s.put R.GLB_DEVPOS.POSITION (id % 16)).put R.GLB_DEVPOS.GROUP (id / 16)
  { s with flt := { s.flt with groupSize := c.sizes } }

/-- Act as if placed, and take the place back. -/
def State.viaPlaces (s : State) (c : Places) (act : State → State) : State :=
  let t := act (s.placed c)
  let t := (t.put R.GLB_DEVPOS.POSITION (s.get R.GLB_DEVPOS.POSITION)).put R.GLB_DEVPOS.GROUP (s.get R.GLB_DEVPOS.GROUP)
  { t with flt := { t.flt with groupSize := s.flt.groupSize } }

/-- The places of a CLUSTER_FORM under way at a device that belongs to no cluster. -/
def State.formingPlaces (s : State) : Option Places :=
  if s.assigned then none else s.flt.forming.map fun b => placesOf (formEntries b)

end Sys2Proof.Machine
end

