-- ==== Sys2Proof/Machine/Fabric.lean ====
section
/-!
DEFINITION. The links (R448 to R461, R465 to R476, spec/13_fjarip_fabric.md): receiving and replaying frames, START and DATA,
training, link tests, and the delivery of control messages.
-/

namespace Sys2Proof.Machine

/-! ### Peers -/

/-- The device a port reaches (R439 to R441). -/
def State.portDevice (s : State) (p : Nat) : Option Nat :=
  let grp := s.get R.GLB_DEVPOS.GROUP
  let pos := s.get R.GLB_DEVPOS.POSITION
  let g := s.groupOf grp
  if p < g - 1 then some (16 * grp + (pos + p + 1) % g)
  else if s.doubledPorts.contains p then some (16 * grp + (pos + (p - 15) + 1) % g)
  else ((s.groups.filter fun b => b != grp).find? fun b => (s.columnPorts b).contains p).map fun b => 16 * b + pos

/-- Answer an item dropped on a port with FENCED, at most once a millisecond for a sender (R581). -/
def State.answerFenced (s : State) (port : Option Nat) (dev epoch serial : Nat) : State :=
  let last := Table.get 0 serial s.flt.answered
  if !s.assigned || s.isFenced || (last != 0 && decide (s.now < last + 1000000)) then s
  else
    let s := s.sendPort port dev (.fenced dev epoch serial)
    { s with flt := { s.flt with answered := Table.set 0 serial s.now s.flt.answered } }

/-! ### Leaving UP, and training (R470) -/

/-- GLB.READY.LINKS_OK: every port with a detected peer is trained (R30): a port in TRAIN or FAILED is not, and one in TEST, which was UP
before, counts as trained (DESIGN CHOICE, log entry 26).  It is set at link events, and at start-up when the firmware runs and when
memory is ready, so that ports without a peer do not hold it at 0. -/
def State.refreshLinks (s : State) : State :=
  s.putBit R.GLB_READY.LINKS_OK ((List.range 24).all fun p =>
    let st := s.get (R.LINK_STATUS.STATE p)
    st != linkTrain && st != linkFailed)

/-- Streams that a port has not delivered in the slots under way arrive poisoned (R460). -/
def State.poisonPending (s : State) (p : Nat) : State :=
  let t := s.get R.FRW_LATE.TEMPLATE
  let s := match (s.link p).rx with
    | some r => r.tiles.foldl (fun (s : State) (x : Nat × Nat) => s.streamIn p r x.1 none) s
    | none => s
  s.coll.opened.foldl (fun (s : State) (slot : Nat) =>
    match s.slotEntry t slot with
    | none => s
    | some e =>
      match (s.slotLinks e.argA).find? fun (l : Nat × List Nat) => l.2.contains p with
      | none => s
      | some l =>
        let tab := s.slotTable t slot
        let start := s.get R.FRW_START_TIME.START_TIME + e.offset
        if e.op == 4 || !(decide (s.now < start + e.duration)) then s
        else
          (if twoPhase e tab then [0, 1] else [0]).foldl (fun (s : State) ph =>
            ((sendersOf tab).filter fun n => streamPort l.2 n == p && !s.coll.arrived.contains (p, slot, ph, n)).foldl
              (fun (s : State) n => s.streamIn p ⟨slot, t, e.inst, ph, l.1, [], []⟩ n none) s) s) s

/-- A port leaves UP: what it held for replay is lost (R468), what it has not delivered is poisoned, and numbering starts
anew. -/
def State.leaveUp (s : State) (p st : Nat) : State :=
  let l := s.link p
  let owners := (l.replay.filterMap TxFrame.owner) ++ l.waiting.filterMap Prod.snd
  let s := { s with coll := { s.coll with lost := s.coll.lost ++ owners.eraseDups } }
  let s := (s.put (R.LINK_STATUS.STATE p) st).putBit (R.LINK_STATUS.PEER_VALID p) false
  let s := if st == linkTrain then s.bump (R.LINK_COUNTS2.RETRAINS p) else s
  let s := s.poisonPending p
  let s := s.modLink p fun l => { l with
    txSeq := 0, rxSeq := 0, nakSent := false, replay := [], waiting := [], rx := none, attempts := 0, train := none
    retraining := st == linkTrain }
  s.refreshLinks.collectives

/-- Training is done: UP where it succeeded and both ends have the same mode, else again, or FAILED after 3 attempts (R444,
R470); a retrain's end is recorded (R449). -/
def State.trainDone (s : State) (p : Nat) (ok : Bool) : State :=
  if s.get (R.LINK_STATUS.STATE p) != linkTrain then s
  else
    let l := s.link p
    let attempts := l.attempts + 1
    let good := match l.train with
      | some (_, _, mode) => ok && mode == s.get (R.LINK_CTRL.MODE p)
      | none => false
    let report := fun (s : State) (failed : Bool) =>
      match l.test with
      | some t =>
        let s := (s.put (R.LINK_TEST_RESULT.ERRORS p) (b2n failed)).putBit (R.LINK_TEST_RESULT.VALID p) true
        (s.finish t.ticket { status := .ok, result0 := attempts, result1 := b2n failed }).modLink p fun l => { l with test := none }
      | none => s
    if good then
      let (ser, port, _) := l.train.getD (0, 0, 0)
      let s := (s.put (R.LINK_PEER.SERIAL p) ser).put (R.LINK_STATUS.PEER_PORT p) port
      let s := (s.putBit (R.LINK_STATUS.PEER_VALID p) true).put (R.LINK_STATUS.STATE p) linkUp
      let s := s.modLink p fun l => { l with txSeq := 0, rxSeq := 0, nakSent := false, attempts := 0, retraining := false, train := none }
      let s := if l.retraining then s.raise (evLinkRetrain p linkUp) else s
      (report s false).refreshLinks
    else if attempts < 3 then s.modLink p fun l => { l with attempts := attempts, train := none }
    else
      let s := s.put (R.LINK_STATUS.STATE p) linkFailed
      let s := s.modLink p fun l => { l with attempts := 0, retraining := false, train := none }
      (report (s.raise (evLinkRetrain p linkFailed)) true).refreshLinks

/-- A port enters TRAIN. -/
def State.enterTrain (s : State) (p : Nat) : State :=
  ((s.put (R.LINK_STATUS.STATE p) linkTrain).modLink p fun l => { l with attempts := 0, train := none, retraining := false }).refreshLinks

/-- A change of LINK.CTRL takes effect (R470, R472): DOWN while ENABLE is 0; a port that was FAILED, whose three attempts are kept
meanwhile, trains again when it is written to 1; any other change retrains the port. -/
def State.relink (s : State) (p : Nat) (wasEnabled : Bool) : State :=
  let st := s.get (R.LINK_STATUS.STATE p)
  if !s.isSet (R.LINK_CTRL.ENABLE p) then
    if st == linkUp then s.leaveUp p linkDown
    else
      let s := if st == linkFailed then s.modLink p fun l => { l with attempts := 3 } else s
      (s.put (R.LINK_STATUS.STATE p) linkDown).refreshLinks
  else if st == linkUp then s.leaveUp p linkTrain
  else if st == linkFailed then (if wasEnabled then s else s.enterTrain p)
  else if st == linkDown then
    if 3 ≤ (s.link p).attempts then s.enterTrain p else (s.put (R.LINK_STATUS.STATE p) linkDetect).refreshLinks
  else s

/-! ### Replay (R449, R460) -/

/-- Replay from the first unacknowledged frame on; a frame replayed 8 times takes the link out of UP. -/
def State.replay (s : State) (p : Nat) : State :=
  let l := (s.link p).replay
  if l.isEmpty then s
  else if l.any fun x => decide (8 ≤ x.tries) then s.leaveUp p linkTrain
  else
    let s := s.bump (R.LINK_COUNTS0.REPLAYS p)
    let go := fun (x : TxFrame) => if x.deferred then x else { x with frame := { x.frame with replay := true }, tries := x.tries + 1 }
    let s := (l.filter fun x => !x.deferred).foldl (fun (s : State) x => s.transmit p { x.frame with replay := true }) s
    s.modLink p fun k => { k with replay := l.map go }

/-- Whether every receiving COLL of a slot has RECV_EN 0. -/
def State.deferrable (s : State) (o : Option (Nat × Nat)) : Bool :=
  match o with
  | some (_, slot) => (s.slotTable (s.get R.FRW_LATE.TEMPLATE) slot).all fun e => D.cDst e.2.2 == 0 || !D.cRecvEn e.2.2
  | none => false

/-- At the late-step check, replay still pending for such slots is deferred (R460). -/
def State.deferReplay (s : State) : State :=
  (List.range 24).foldl (fun (s : State) p =>
    let l := (s.link p).replay
    let wants := fun (x : TxFrame) => decide (0 < x.tries) && s.deferrable x.owner
    if l.any wants then
      (s.modLink p fun k => { k with replay := l.map fun x => if wants x then { x with deferred := true } else x }).bump
        (R.LINK_COUNTS1.DEFERRED p)
    else s) s

/-- At the headland start, deferred replay resumes (R460). -/
def State.resumeReplay (s : State) : State :=
  (List.range 24).foldl (fun (s : State) p =>
    let l := (s.link p).replay
    if s.portUp p && l.any TxFrame.deferred then
      let s := (l.filter TxFrame.deferred).foldl (fun (s : State) x => s.transmit p x.frame) s
      s.modLink p fun k => { k with replay := l.map fun x => { x with deferred := false } }
    else s) s

/-! ### Receiving (R448, R455) -/

/-- Whether a type is sequenced (R447). -/
def sequenced (ty : Nat) : Bool := decide (1 ≤ ty ∧ ty ≤ 5)

/-- An intact frame arrives at a port that is UP: symbols corrected are counted, what its ACK covers is acknowledged, and a
sequenced frame is accepted only in order. -/
def State.receive (s : State) (p : Nat) (f : Frame) (fixed : Nat) (act : State → State) : State :=
  if !s.portUp p then s
  else
    let s := (s.wrapAdd (R.LINK_COUNTS0.CORRECTED_SYMBOLS p) fixed).acknowledge p f.ack
    let s :=
      if !sequenced f.type then act s
      else if f.seq != ((s.link p).rxSeq + 1) % 1024 then s
      else act (s.modLink p fun l => { l with rxSeq := f.seq, nakSent := false })
    s.collectives

/-- A frame is discarded at the receiver and asked for again (R448). -/
def State.discardFrame (s : State) (p : Nat) : State := if s.portUp p then s.sendNak p else s

/-- BYTES of the streams that the slot table expects on a port (R455); of a broadcast, only devices with data send. -/
def streamsAgree (e : PlanEntry) (tab : List (Nat × Nat × Bytes)) (ports : List Nat) (p : Nat) (flit : Bytes) : Bool :=
  (List.range 16).all fun t =>
    let b := rd flit (16 + 4 * t) 4
    match collOf tab t with
    | none => b == 0
    | some (_, d) =>
      if e.op == 4 then b == 0 || b == D.cBytes d
      else b == (if D.cSrc d != 0 && streamPort ports t == p then D.cBytes d else 0)

/-- A START is compared with the membership epoch and the slot table of the template in force (R455). -/
def State.startIn (s : State) (p : Nat) (f : Frame) : State :=
  let b := f.flit
  let dev := (s.portDevice p).getD 0
  let slot := rd b 0 2
  let ep := rd b 4 4
  let s := s.modLink p fun l => { l with rx := none }
  if ep != s.get (R.GLB_PEER_EPOCH.EPOCH dev) then
    (s.bump (R.LINK_COUNTS1.EPOCH_DROPS p) (rd b 12 2)).answerFenced (some p) dev ep (s.get (R.LINK_PEER.SERIAL p))
  else
    let t := s.get R.FRW_LATE.TEMPLATE
    let ph := fld b 9 1 3 1
    let tab := s.slotTable t slot
    let furrowOk := rd b 2 2 == s.furrow % 65536 || (s.frw.stepOpen && rd b 2 2 == s.stepFurrow % 65536)
    match s.slotEntry t slot with
    | none => s.bump (R.LINK_COUNTS2.SLOT_MISMATCH p) (max 1 (rd b 12 2))
    | some e =>
      let link := (s.slotLinks e.argA).find? fun l => l.2.contains p
      let ports := (link.map Prod.snd).getD []
      let peer := (link.map Prod.fst).getD 0
      let fine := furrowOk && fld b 9 1 0 3 == t && !tab.isEmpty && link.isSome && fld b 8 1 0 4 == e.op && fld b 10 1 0 4 == e.inst &&
        tab.all (fun x => D.cWireFmt x.2.2 == fld b 8 1 4 4) && streamsAgree e tab ports p b && (ph == 0 || twoPhase e tab)
      if fine then
        let tiles := (List.range 16).filterMap fun t => if rd b (16 + 4 * t) 4 == 0 then none else some (t, rd b (16 + 4 * t) 4)
        s.modLink p fun l => { l with rx := some ⟨slot, t, e.inst, ph, peer, tiles, []⟩ }
      else
        let s := s.bump (R.LINK_COUNTS2.SLOT_MISMATCH p) (max 1 (rd b 12 2))
        ((sendersOf tab).filter fun n => streamPort ports n == p).foldl
          (fun (s : State) n => s.deliver e ph peer n none) s

/-- The data of exponent-coded units, `len` bytes of them still to come: `none` while frames are missing, no bytes where a
unit fails its checks (R310, R311). -/
def parseUnits (blk : Bytes) : Nat → Nat → List Frame → Option (Option Bytes)
  | 0, _, _ => none
  | fuel + 1, len, fs =>
    if len == 0 then some (some [])
    else
      let u := min 4096 len
      let coded := u == 4096 && (fs.head?.map Frame.coded).getD false
      let size := if coded then 192 + rd ((fs.head?.map Frame.flit).getD []) 6 2 else u
      let n := ceilDiv size 256
      if fs.length < n then none
      else
        let raw := ((fs.take n).flatMap Frame.flit).take size
        let here := if coded then receiveUnit blk raw else some raw
        match parseUnits blk fuel (len - u) (fs.drop n) with
        | none => none
        | some rest => some (match here, rest with
          | some a, some b => some (a ++ b)
          | _, _ => none)

/-- What the frames of a stream of `len` bytes spell: `none` while frames are missing. -/
def parseStream (fmt : Nat) (blk : Bytes) (len : Nat) (fs : List Frame) : Option (Option Bytes) :=
  let tag := if fs.any Frame.enc then 16 else 0
  if fmt == 5 then parseUnits blk (len / 4096 + 2) len fs
  else if fs.length < ceilDiv (len + tag) 256 then none
  else some (some ((fs.flatMap Frame.flit).take len))

/-- A DATA frame joins the stream in hand (R457); the last one delivers it, poisoned where a frame was, or the tag failed
(R461, R469). -/
def State.dataIn (s : State) (p : Nat) (f : Frame) (tagOk : Bool) : State :=
  match (s.link p).rx with
  | none => s
  | some r =>
    match r.tiles with
    | [] => s
    | (t, len) :: more =>
      let fs := r.frames ++ [f]
      let fmt := ((collOf (s.slotTable r.template r.slot) t).map fun c => D.cWireFmt c.2).getD 0
      match parseStream fmt (s.wireBlock r.inst) len fs with
      | none => s.modLink p fun l => { l with rx := some { r with frames := fs } }
      | some b =>
        let bad := fs.any Frame.enc && !tagOk
        let s := if bad then s.bump (R.LINK_COUNTS1.TAG_FAILS p) else s
        let b := if bad || fs.any Frame.poison then none else b
        (s.modLink p fun l => { l with rx := some { r with tiles := more, frames := [] } }).streamIn p r t b

/-! ### Control messages (R465 to R468) -/

/-- Where a message for another device goes on (R468): a member forwards it, and so does a device that a CLUSTER_FORM under way
places elsewhere; a spare, a fenced device and one that belongs to no cluster take every message themselves. -/
def State.passOn (s : State) (m : CtrlMsg) : Option (Option Nat) :=
  if m.dst == 0xFF then none
  else if s.get R.GLB_MEMBER_STATE.STATE == 1 then if m.dst == s.self then none else some (s.route m.dst)
  else
    match s.formingPlaces with
    | none => none
    | some c => match c.idOf Config.serial with
      | some id => if m.dst == id then none else some ((s.placed c).route m.dst)
      | none => none

/-- The membership epoch that a message of a device must carry, on the port it comes by: a spare sends on its own port, and is told by
its serial (R581). -/
def State.heldEpoch (s : State) (p src : Nat) : Nat :=
  let spare := Table.get 0 (s.get (R.LINK_PEER.SERIAL p)) s.flt.spareEpoch
  if spare != 0 then spare else s.get (R.GLB_PEER_EPOCH.EPOCH src)

/-- An ACK or a COMPLETION of a device that is asked to join, which holds no epoch that a member accepts: it is taken by the message it
answers (DEDUCED, log entry 48). -/
def State.fromJoiner (s : State) : CtrlBody → Bool
  | .ack i => s.flt.sent.any fun x => x.msg.msgId == i && match x.msg.body with
    | .fwdCopy _ _ => true
    | _ => false
  | .completion i _ _ _ _ _ => s.que.tickets.any fun t => t.awaiting.contains (64, i)
  | _ => false

/-- A control message arrives whole, in `frags` frames of a port: one for another device is forwarded (R468), one of an epoch
not held is dropped and answered (R581), any other is acknowledged (R467) and acted on.  A device that belongs to no cluster holds
no epochs. -/
def State.ctrlIn (s : State) (p frags : Nat) (m : CtrlMsg) (act : State → State) : State :=
  if !s.portUp p then s
  else
    let s := s.modLink p fun l => { l with rxSeq := (l.rxSeq + frags) % 1024, nakSent := false }
    match s.passOn m with
    | some (some q) => s.sendFragments q m
    | some none => s
    | none =>
      if s.assigned && m.epoch != s.heldEpoch p m.src && !s.fromJoiner m.body then
        s.answerFenced (s.route m.src) m.src m.epoch (Table.get 0 m.src s.flt.serials)
      else
        let back := if s.get R.GLB_MEMBER_STATE.STATE == 1 then s.route m.src else some p
        act (if acknowledged s.self m.body then s.sendPort back m.src (.ack m.msgId) else s)

/-- An ACK ends the wait for a message (R467), and for a declared device's broadcast (R582). -/
def State.ackIn (s : State) (src msgId : Nat) : State :=
  let hit := fun (x : Sent) => x.dst == src && x.msg.msgId == msgId
  let named := (s.flt.sent.filter hit).filterMap fun x => match x.msg.body with
    | .fenced d _ _ => some d
    | _ => none
  { s with flt := { s.flt with
      sent := s.flt.sent.filter fun x => !hit x
      declared := s.flt.declared.map fun d =>
        if named.contains d.device then { d with waiting := d.waiting.filter fun w => w != src } else d } }

/-! ### The commands -/

/-- IDLE (R448). -/
def execIdleFrame (port : Nat) (f : Frame) (fixed : Nat) (s : State) : Answered :=
  s.whenAlive fun s => s.receive port { f with type := fIdle } fixed fun s => s

/-- A DATA frame: `full` where the port's receive buffer has no room; `tagOk` the verdict on the tag that a stream ends with. -/
def State.dataFrame (s : State) (port : Nat) (f : Frame) (fixed : Nat) (full tagOk : Bool) : State :=
  if full then
    if s.portUp port then (s.bump (R.LINK_COUNTS2.BUFFER_OVERFLOWS port)).discardFrame port else s
  else s.receive port { f with type := fData } fixed fun s => s.dataIn port f tagOk

/-- START (R455). -/
def execStartFrame (port : Nat) (f : Frame) (fixed : Nat) (s : State) : Answered :=
  s.whenAlive fun s => s.receive port { f with type := fStart } fixed fun s => s.startIn port f

/-- NAK (R449). -/
def execNakFrame (port : Nat) (f : Frame) (fixed : Nat) (s : State) : Answered :=
  s.whenAlive fun s => s.receive port { f with type := fNak } fixed fun s => s.replay port

/-- TRAIN (R470): the exchange of serial, port number and mode, only outside UP. -/
def execTrainFrame (port serial peerPort mode : Nat) (s : State) : Answered :=
  s.whenAlive fun s =>
    if s.get (R.LINK_STATUS.STATE port) == linkTrain then s.modLink port fun l => { l with train := some (serial, peerPort, mode) }
    else s

/-- UNCORRECTABLE_FRAME (R448). -/
def execUncorrectableFrame (port : Nat) (s : State) : Answered :=
  s.whenAlive fun s =>
    if s.portUp port then (s.bump (R.LINK_COUNTS0.UNCORRECTABLE port)).discardFrame port else s

/-- REPLAY_TIMEOUT (R449). -/
def execReplayTimeout (port : Nat) (s : State) : Answered :=
  s.whenAlive fun s => if s.portUp port then s.replay port else s

/-- LINK_RETRAIN (R449): a frame has been replayed 8 times without acknowledgement. -/
def execLinkRetrain (port : Nat) (s : State) : Answered :=
  s.whenAlive fun s =>
    if s.portUp port && (s.link port).replay.any fun x => decide (8 ≤ x.tries) then s.leaveUp port linkTrain else s

/-- PEER_DETECT (R470); a port that reset left DOWN with ENABLE 1 has gone to DETECT by itself (R472). -/
def execPeerDetect (port : Nat) (s : State) : Answered :=
  s.whenAlive fun s =>
    let st := s.get (R.LINK_STATUS.STATE port)
    if s.isSet (R.LINK_CTRL.ENABLE port) && (st == linkDetect || st == linkDown) then s.enterTrain port else s

/-- LINK_PEER_LOST (R470). -/
def execLinkPeerLost (port : Nat) (s : State) : Answered :=
  s.whenAlive fun s =>
    if s.get (R.LINK_STATUS.STATE port) == linkTrain then
      ((s.put (R.LINK_STATUS.STATE port) linkDetect).modLink port fun l => { l with attempts := 0, train := none }).refreshLinks
    else s

/-- ACK (R467). -/
def execAckMsg (port frags : Nat) (m : CtrlMsg) (s : State) : Answered :=
  s.whenAlive fun s => s.ctrlIn port frags m fun s => match m.body with
    | .ack i => s.ackIn m.src i
    | _ => s

end Sys2Proof.Machine
end

