-- ==== Sys2Proof/Machine/Protect.lean ====
section
/-!
DEFINITION. Protected partitions (R559 to R563, spec/16_security.md): who may reach what, and the silent violation.
Memory encryption (R557) is invisible at this level: memory is held in plaintext.
-/

namespace Sys2Proof.Machine

/-- Whether partition `n` is protected. -/
def State.prot (s : State) (n : Nat) : Bool := bit (s.get R.SEC_PROT.PARTITIONS) n

/-- Protect every partition (R556): each that was not draws a new key (R557). -/
def State.protectAll (s : State) : State :=
  let s := ((List.range 16).filter fun n => !s.prot n).foldl (fun (s : State) n =>
    { s with sec := { s.sec with partKeys := Table.insert n (some s.freeVal) s.sec.partKeys } }.draw) s
  s.put R.SEC_PROT.PARTITIONS 0xFFFF

/-- No partition is protected any more: the keys are gone (R557). -/
def State.unprotect (s : State) : State :=
  { s with sec := { s.sec with partKeys := [] } }.put R.SEC_PROT.PARTITIONS 0

/-- Whether a stack address lies in an open region of its partition (R559). -/
def State.openAt (s : State) (a : Nat) : Bool :=
  match s.place a with
  | .stack n => bit (s.get (R.SEC_OPEN.REGIONS n)) (regionOf a)
  | _ => false

/-- The partition whose protection refuses an access of a partition's block (`some p`) or of the host (`none`), with the
kind of the violation: 0 host, 1 other partition, 2 outbound (R560). -/
def State.violated (s : State) (req : Option Nat) (a : Nat) : Option (Nat × Nat) :=
  let tgt := (s.owner a).filter fun n => s.prot n
  match tgt, req with
  | some n, none => if s.openAt a then none else some (n, 0)
  | some n, some p => if s.openAt a || s.prot p then none else some (n, 1)
  | none, some p => if s.prot p && !(s.openAt a && s.owner a == some p) then some (p, 2) else none
  | none, none => none

/-- Count and record a violation (R562, R568). -/
def State.violation (s : State) (v : Nat × Nat) (req : Option Nat) (a src : Nat) (write : Bool) : State :=
  let n := v.1
  let s := s.bump (if v.2 == 0 then R.SEC_VIOL.HOST n else if v.2 == 1 then R.SEC_VIOL.PARTITION n else R.SEC_VIOL.OUTBOUND n)
  if s.isSet (R.SEC_VIOL_ADDR.VALID n) then s
  else
    let s := s.put (R.SEC_VIOL_ADDR.ADDR n) a
    let s := s.putBit (R.SEC_VIOL_ADDR.VALID n) true
    let s := s.putBit (R.SEC_VIOL_ADDR.WRITE n) write
    let s := s.put (R.SEC_VIOL_ADDR.SOURCE n) (if v.2 == 2 then 6 else src)
    s.put (R.SEC_VIOL_ADDR.PARTITION n) (req.getD 0)

/-- A range cut at 64-byte lines: address and length of each piece. -/
def linePieces (a n : Nat) : List (Nat × Nat) :=
  if n == 0 then []
  else (List.range ((a + n - 1) / 64 - a / 64 + 1)).map fun i =>
    let lo := max a ((a / 64 + i) * 64)
    (lo, min (a + n) ((a / 64 + i + 1) * 64) - lo)

/-- Read a range for a requester, line by line: what is refused reads zeros (R562). -/
def State.readFor (s : State) (req : Option Nat) (src a n : Nat) : State × Bytes :=
  (linePieces a n).foldl (fun (acc : State × Bytes) p =>
    match acc.1.violated req p.1 with
    | some v => (acc.1.violation v req p.1 src false, acc.2 ++ List.replicate p.2 0)
    | none => (acc.1.passLine (p.1 / 64 * 64) false, acc.2 ++ acc.1.read p.1 p.2)) (s, [])

/-- Write a range for a requester, line by line: what is refused changes nothing (R562). -/
def State.writeFor (s : State) (req : Option Nat) (src a : Nat) (bs : Bytes) : State :=
  (linePieces a bs.length).foldl (fun (s : State) p =>
    match s.violated req p.1 with
    | some v => s.violation v req p.1 src true
    | none => (s.passLine (p.1 / 64 * 64) true).write p.1 (slice bs (p.1 - a) p.2)) s

end Sys2Proof.Machine
end

