-- ==== Sys2Proof/Machine/Stack.lean ====
section
/-!
DEFINITION. Stack controllers and near-bank units (R397 to R427, spec/12_stack_memory.md).
-/

namespace Sys2Proof.Machine

/-- Pseudo-channel of a stack address (R397). -/
def State.pcOf (s : State) (a : Nat) : Nat :=
  let o := (a - 0x1000000000) % 0xC00000000
  if s.unitLocal a then bits o 24 6 else bits o 11 6

/-! ### Error correction (R407 to R409) -/

/-- The lane that carries a symbol (R407): data bytes 0 to 63, check symbols 64 to 71. -/
def symbolLane (y : Nat) : Nat := if y < 64 then y % 32 else 32 + y % 4

/-- The codeword of a 64-byte access (R407): data bytes, then check symbols. -/
def stackCodeword (data : Bytes) : Bytes := data ++ rsParity data

/-- Marked lanes of a pseudo-channel. -/
def Stack.marks (k : Stack) (pc : Nat) : List Nat := k.marked.filter fun m => m / 64 == pc

/-- A codeword with these symbols in error is corrected (R408). -/
def Stack.corrects (k : Stack) (pc : Nat) (symbols : List Nat) : Bool :=
  let e := (symbols.filter fun y => !(k.marks pc).contains (pc * 64 + symbolLane y)).length
  decide (2 * e + 2 * (k.marks pc).length ≤ 8)

/-- A lane with 256 corrected symbols is marked, at most two on a pseudo-channel (R408). -/
def State.markLane (s : State) (n pc lane : Nat) : State :=
  let k := s.stack n
  let m := pc * 64 + lane
  if 256 ≤ Table.get 0 m k.corrected && !k.marked.contains m && (k.marks pc).length < 2 then
    let s := s.modStack n fun k => { k with marked := k.marked ++ [m] }
    let s := (s.bump (R.STACK_ECC_COUNTS.LANE_MARKS n)).bump (R.STACK_LANE_STATUS.ERASED_LANES n)
    s.raise (evStackLaneMarked n pc lane)
  else s

/-- More than 64 uncorrectable codewords of a pseudo-channel within 1 ms lose it: a partition-fatal event (R579). -/
def State.channelLost (s : State) (n pc : Nat) : State :=
  let l := (Table.get [] pc (s.stack n).recent).filter fun t => decide (s.now < t + 1000000)
  if l.length ≤ 64 || s.flt.fatalParts.contains n then s
  else
    let s := s.raise (evStackChannelLost n pc l.length)
    { s with flt := { s.flt with fatalParts := s.flt.fatalParts ++ [n] } }

/-- An access's codeword is decoded (R408, R409). -/
def State.decodeWord (s : State) (n pc addr : Nat) (symbols : List Nat) : State :=
  let line := addr / 64 * 64
  if symbols.isEmpty then s
  else if (s.stack n).corrects pc symbols then
    let s := (s.bump (R.STACK_ECC_COUNTS.CORRECTED n)).raise (evStackCorrected n pc line)
    symbols.foldl (fun (s : State) y =>
      (s.modStack n fun k => { k with corrected := Table.modify 0 (pc * 64 + symbolLane y) (· + 1) k.corrected }).markLane
        n pc (symbolLane y)) s
  else
    let s := (s.zero line 64).poisonRange line 64
    let s := (s.bump (R.STACK_ECC_COUNTS.UNCORRECTABLE n)).raise (evLatentPoison n pc line)
    let s := if s.isSet (R.STACK_ECC_FAULT.VALID n) then s
      else ((s.put (R.STACK_ECC_FAULT.ADDR n) line).putBit (R.STACK_ECC_FAULT.VALID n) true).put (R.STACK_ECC_FAULT.PC n) pc
    (s.modStack n fun k => { k with recent := Table.modify [] pc (fun l =>
      (l.filter fun t => decide (s.now < t + 1000000)) ++ [s.now]) k.recent }).channelLost n pc

/-! ### Accesses (R400, R401, R422, R424) -/

def StackOp.host : StackOp → Bool
  | .hostRead _ => true
  | .hostWrite _ _ _ => true
  | .hostMerge _ _ => true
  | .read => false
  | .write _ => false

/-- The bytes of a line with those enabled replaced. -/
def merge64 (old new : Bytes) (enable : Nat) : Bytes :=
  (List.zip (List.range 64) old).map fun e => if bit enable e.1 then new.getD e.1 0 else e.2

/-- A partial write of a poisoned line leaves it poisoned; a whole one does not (R409). -/
def State.writeLine (s : State) (line : Nat) (bs : Bytes) (enable : Nat) : State :=
  let bad := s.poisoned line 64 && enable != 2 ^ 64 - 1
  let s := s.write line (merge64 (s.read line 64) bs enable)
  if bad then s.poisonRange line 64 else s

/-- A host's request completes: counted, with its time since arrival (R504). -/
def State.memServed (s : State) (write : Bool) (arrived : Nat) : State :=
  let d := s.now - arrived
  let f := if write then R.CXLU_MEM_LAT.MAX_WRITE_NS else R.CXLU_MEM_LAT.MAX_READ_NS
  let s := s.wrapAdd (if write then R.CXLU_MEM_COUNTS.WRITES else R.CXLU_MEM_COUNTS.READS)
  let s := s.put f (max (s.get f) (min 0xFFFF d))
  if 3000 < d then s.bump R.CXLU_MEM_LAT.OVER_BOUND else s

/-- A credit goes back to the host with its request's completion (R485). -/
def State.returnCredit (s : State) (data : Bool) : State :=
  { s with cxl := if data then { s.cxl with rwdUsed := s.cxl.rwdUsed - 1 } else { s.cxl with reqUsed := s.cxl.reqUsed - 1 } }

/-- A host's read of a line (R483, R562): a refused one reads zeros. -/
def State.hostRead (s : State) (n pc line tag : Nat) (a : StackAcc) : State :=
  let s := s.returnCredit false
  match s.violated none line with
  | some v => ((s.violation v none line 1 false).memServed false a.arrived).emit (.memData tag (List.replicate 64 0) false)
  | none =>
    let s := ((s.decodeWord n pc line a.symbols).passLine line false).memServed false a.arrived
    s.emit (.memData tag (s.read line 64) (s.poisoned line 64))

/-- A host's write of a line (R483, R562): a refused one changes nothing. -/
def State.hostWriteLine (s : State) (line : Nat) (bs : Bytes) (enable : Nat) : State :=
  match s.violated none line with
  | some v => s.violation v none line 1 true
  | none => (s.writeLine line bs enable).passLine line true

/-- A host's write completes (R484, R485). -/
def State.writeServed (s : State) (tag arrived : Nat) : State := ((s.returnCredit true).memServed true arrived).emit (.memDone tag)

/-- Perform one access; a host's wait is measured (R424). -/
def State.perform (s : State) (n pc : Nat) (a : StackAcc) : State :=
  let line := a.addr / 64 * 64
  let s := if a.op.host then
      s.put (R.STACK_ARB_COUNTS.HOST_WAIT_MAX_NS n) (max (s.get (R.STACK_ARB_COUNTS.HOST_WAIT_MAX_NS n)) (min 0xFFFF (s.now - a.arrived)))
    else s
  match a.op with
  | .read => s.decodeWord n pc line a.symbols
  | .write bs => s.writeLine line (fit 64 bs) (2 ^ 64 - 1)
  | .hostRead tag => s.hostRead n pc line tag a
  | .hostWrite tag bs en => (s.hostWriteLine line (fit 64 bs) en).writeServed tag a.arrived
  | .hostMerge bs en => s.hostWriteLine line (fit 64 bs) en

/-- A stack controller performs accesses: no training runs (R411) and its partition is not held in reset (R20). -/
def State.stackServes (s : State) (n : Nat) : Bool := (s.stack n).training.isNone && !s.flt.heldParts.contains n

/-- Whether a pseudo-channel serves accesses at once: outside an atom (R422). -/
def State.pcFree (s : State) (n pc : Nat) : Bool := !(s.stack n).inAtom.contains pc && s.stackServes n

/-- An access arrives (R400): a host's write that has to wait completes as it enters the write queue (R484). -/
def State.stackArrive (s : State) (n : Nat) (a : StackAcc) : State :=
  let pc := s.pcOf a.addr
  if s.pcFree n pc then s.perform n pc a
  else
    let (s, op) := match a.op with
      | .hostWrite tag bs en => (s.writeServed tag a.arrived, StackOp.hostMerge bs en)
      | op => (s, op)
    s.modStack n fun k => { k with queue := Table.modify [] pc (· ++ [{ a with op := op }]) k.queue }

/-- Serve a pseudo-channel's waiting accesses: at most 32 of the host, then at most 32 others (R422). -/
def State.servePc (s : State) (n pc : Nat) : State :=
  let q := Table.get [] pc (s.stack n).queue
  let hosts := q.filter fun a => a.op.host
  let others := q.filter fun a => !a.op.host
  let s := s.modStack n fun k => { k with queue := Table.set [] pc (hosts.drop 32 ++ others.drop 32) k.queue }
  let s := s.bump (R.STACK_ARB_COUNTS.HOST_DEFERRED n) (hosts.drop 32).length
  (hosts.take 32 ++ others.take 32).foldl (fun (s : State) a => s.perform n pc a) s

/-! ### Refresh (R404 to R406) -/

/-- Whether a stack may catch up now: in a REFRESH_WINDOW that names it, or anywhere in a fallow furrow (R405), to 200 ns before the
furrow's end (R59). -/
def State.catchUp (s : State) (n : Nat) : Bool :=
  match s.frw.active with
  | none => false
  | some p => decide (s.offset + 200 < p.period) &&
    (s.frwState == frwFallow ||
      (s.frwState == frwRunning && p.entries.any fun e =>
        e.type == 4 && e.template == s.get R.FRW_LATE.TEMPLATE && bit e.argA n &&
          decide (e.offset ≤ s.offset ∧ s.offset < e.offset + e.duration)))

def Stack.bal (k : Stack) (pc : Nat) : Int := Table.get 0 pc k.balance
def State.setBal (s : State) (n pc : Nat) (b : Int) : State :=
  s.modStack n fun k => { k with balance := Table.set 0 pc b k.balance }

/-- The schedule's refresh rules apply: a partition held in reset refreshes under the first rule throughout (R405, R427). -/
def State.postpones (s : State) (n : Nat) : Bool := s.inSchedule && !s.flt.heldParts.contains n

/-- The refreshes a pseudo-channel may issue at a boundary (R405): a forced one that these make up for is no longer due. -/
def State.refreshes (s : State) (n pc : Nat) : State :=
  let b := (s.stack n).bal pc
  let top : Int := s.get (R.STACK_REFRESH.PULLIN_MAX n)
  let unforce := fun (s : State) => s.modStack n fun k => { k with forced := k.forced.filter fun x => x != pc }
  if !s.postpones n then if b < 0 then unforce (s.setBal n pc 0) else s
  else if s.catchUp n then
    if b < top then (unforce (s.setBal n pc top)).wrapAdd (R.STACK_REFRESH_COUNTS.CATCH_UP n) (top - b).toNat else s
  else if (s.stack n).forced.contains pc then (unforce (s.setBal n pc (b + 1))).wrapAdd (R.STACK_REFRESH_COUNTS.FORCED n)
  else s

/-- A refresh interval elapses (R404, R405). -/
def State.refreshInterval (s : State) (n pc : Nat) : State :=
  let b := (s.stack n).bal pc - 1
  let s := s.setBal n pc b
  let s := if b < -2 && s.postpones n && !s.catchUp n then
      s.modStack n fun k => { k with forced := if k.forced.contains pc then k.forced else k.forced ++ [pc] }
    else s
  if (s.stack n).inAtom.contains pc then s else s.refreshes n pc

/-- An atom boundary: refreshes, then the host, then the others (R422). -/
def State.boundary (s : State) (n pc : Nat) : State :=
  let s := s.modStack n fun k => { k with inAtom := k.inAtom.filter fun x => x != pc }
  if s.stackServes n then (s.refreshes n pc).servePc n pc
  else if (s.stack n).training.isSome then s else s.refreshes n pc

/-! ### Near-bank units (R414 to R420) -/

def State.unit (s : State) (n u : Nat) : Option NbUnit := Table.get none u (s.stack n).units
def State.setUnit (s : State) (n u : Nat) (x : Option NbUnit) : State :=
  let s := s.modStack n fun k => { k with units := Table.set none u x k.units }
  s.put (R.NBU_BUSY.UNITS n) (setBit (s.get (R.NBU_BUSY.UNITS n)) u x.isSome)

/-- The units of a descriptor. -/
def nbUnits (d : Bytes) : List Nat := (List.range (D.nCount d)).map (D.nFirst d + ·)

/-- Where a unit's sequence lies (R414). -/
def sequenceAt (d : Bytes) (u : Nat) : Nat := D.nProg d + (u - D.nFirst d) * 2 ^ 24

/-- A sequence header is whole, for a descriptor of `atoms` atoms (R414). -/
def headerWhole (h : Bytes) (atoms : Nat) : Bool :=
  let kind := fld h 14 1 0 4
  rd h 0 4 == 0x5351424E && rd h 4 2 == 1 && rd h 6 2 == atoms && rd h 10 2 != 0 &&
    decide (rd h 10 2 ≤ if kind == 7 then 128 else 256) && decide (1 ≤ fld h 12 2 0 9 ∧ fld h 12 2 0 9 ≤ 256) &&
    (kind == 1 || kind == 2 || kind == 3 || kind == 7) && fld h 12 2 9 7 == 0 && fld h 14 1 4 4 == 0 && rd h 15 49 == 0

/-- An atom record is whole, for unit `u` of a descriptor (R414, R421). -/
def atomWhole (a : Bytes) (first last : Bool) : Bool :=
  let chain := fld a 7 1 6 2
  rd a 0 6 % 64 == 0 && decide (1 ≤ fld a 6 1 0 4 ∧ fld a 6 1 0 4 ≤ 13) && fld a 6 1 4 4 == 0 && rd a 12 52 == 0 &&
    (bit (rd a 7 1) 5 || chain == 0) && !(last && bit chain 0) && !(first && bit chain 1)

/-- Record the first near-bank failure (R437). -/
def State.nbuRecord (s : State) (n u cause atom idx : Nat) : State :=
  if s.isSet (R.NBU_FAULT.VALID n) then s
  else
    let s := s.put (R.NBU_FAULT.UNIT n) u
    let s := s.putBit (R.NBU_FAULT.VALID n) true
    let s := s.put (R.NBU_FAULT.CAUSE n) cause
    let s := s.put (R.NBU_FAULT.ATOM n) atom
    s.put (R.NBU_FAULT.LIST_INDEX n) idx

/-- A near-bank descriptor ends with a failure, after an event is recorded: its units are idle again, and the step fails (R192, R438). -/
def State.nbuEnd (s : State) (n : Nat) (h : Queued) (e : Event) (st : Status) : State :=
  let s := (s.bump (R.NBU_COUNTS.FAILED_DESCRIPTORS n)).raise e
  ((nbUnits h.desc).foldl (fun (s : State) v => s.setUnit n v none) s).failHead n 16 st

/-- A failure that NBU.FAULT records (R420, R437). -/
def State.nbuFail (s : State) (n u cause atom : Nat) (h : Queued) : State :=
  (s.nbuRecord n u cause atom h.index).nbuEnd n h (evNbuFault n u cause (s.tile n).inst) (if cause == 1 then .failPlot else .failStep)

/-- Bytes of an activation row of a plot kind. -/
def nbuActBytes (kind : Nat) : Nat := if kind == 7 then 2 else 1

/-- A unit as its descriptor starts, or the cause of its refusal (R416). -/
def State.unitStart (s : State) (n : Nat) (d : Bytes) (u : Nat) : Except Nat NbUnit :=
  let h := s.read (sequenceAt d u) 64
  let kind := fld h 14 1 0 4
  let row := 1024 * nbuActBytes kind
  if !bit (s.get (R.NBU_UNIT_OK.UNITS n)) u then .error 6
  else if !headerWhole h (D.nAtoms d) then .error 2
  else if !inScratch n (D.nAct d + rd h 8 2 * row) (rd h 10 2 * row) then .error 4
  else .ok ⟨s.read (D.nAct d + rd h 8 2 * row) (rd h 10 2 * row), rd h 10 2, fld h 12 2 0 9, kind, rd h 6 2, 0, 0, []⟩

/-- The activations that the units of a descriptor read into their buffers: the lanes below LANES of their K-blocks. -/
def State.nbuAccs (s : State) (d : Bytes) : List Acc := (nbUnits d).flatMap fun u =>
  let h := s.read (sequenceAt d u) 64
  let b := nbuActBytes (fld h 14 1 0 4)
  (List.range (rd h 10 2)).map fun k => ⟨D.nAct d + (rd h 8 2 + k) * (1024 * b), D.nLanes d * 64 * b, false⟩

/-- NBU: the head of the near-bank queue starts its units (R416). -/
def State.nbuStart (s : State) (n : Nat) (mem : MemReport) : State :=
  match s.runnable n 16 tNbu with
  | none => s
  | some h =>
    let d := h.desc
    if (nbUnits d).any fun u => (s.unit n u).isSome then s
    else
      let s := s.memReport srcMover mem
      if D.nAtoms d == 0 then s.complete n 16
      else if !s.unitLocal (D.nProg d) || !inScratch n (D.nOut d) 1 then s.nbuFail n (D.nFirst d) 2 0 h
      else
        match (nbUnits d).find? fun u => match s.unitStart n d u with
          | .error _ => true
          | .ok _ => false with
        | some u =>
          let c := match s.unitStart n d u with
            | .error c => c
            | .ok _ => 0
          s.nbuFail n u c 0 h
        | none =>
          match s.gate n (s.tile n).inst (s.nbuAccs d) with
          | (s, .wait) => s
          | (s, .refuse e) => s.nbuEnd n h e .failStep
          | (s, .go) =>
            let s := (nbUnits d).foldl (fun (s : State) u => match s.unitStart n d u with
              | .ok x => s.setUnit n u (some x)
              | .error _ => s) s
            s.setHead n 16 { h with started := true, waiting := true }

/-- Operands of a unit's input buffer, by K-block and lane. -/
def NbUnit.row (x : NbUnit) (k l : Nat) : List Nat :=
  let b := nbuActBytes x.kind
  (List.range 64).map fun r => rd x.input (k * 1024 * b + l * 64 * b + b * r) b

def State.nbSlot (s : State) (n u k : Nat) : Slot := Table.get Slot.clear (u * 16 + k) (s.stack n).slots
def State.setNbSlot (s : State) (n u k : Nat) (x : Slot) : State :=
  s.modStack n fun t => { t with slots := Table.set Slot.clear (u * 16 + k) x t.slots }

/-- How an atom's plots end: where the run and the slot stand after the plots used; the cause of a failure. -/
structure AtomEnd where
  run : NbRun
  slot : Slot
  fail : Option Nat

/-- The plots of an atom, from address `a`: each is read, checked and used; one that fails is read again once (R417, R420).  A unit sees
no memory but its own slice: a plot that reaches past its end is a fault of the record (DEDUCED, log entry 43). -/
def State.atomPlots (s : State) (x : NbUnit) (lanes : Nat) : Nat → (a : Nat) → AtomEnd → AtomEnd
  | 0, _, e => e
  | p + 1, a, e =>
    let r := e.run
    let per := ceilDiv x.columns (kindN x.kind)
    let b := s.plotAt a
    if 2 ^ 24 < a % 2 ^ 24 + P.size b then { e with fail := some 3 }
    else
      match s.plotCause a b [] x.kind true r.last r.group (x.kbCount * per) per r.bases with
      | .error c => { e with fail := some (if c == 0xA then 4 else 1) }
      | .ok (vals, m) =>
        let ints := fun k l => (x.row k l).map fun v => signed 8 v
        let fps := fun k l => (x.row k l).map bf16.decode
        let gs := List.zip ((List.range (P.groups b)).map (r.group + ·)) (plotGroups b vals)
        let slot := gs.foldl (fun y g => addGroupTo x.kind x.columns ints fps (List.range lanes) y g.1 g.2) e.slot
        let r : NbRun := ⟨r.group + P.groups b, some (P.tensor b, P.index b), m⟩
        s.atomPlots x lanes p (a + ceilDiv (P.size b) 64 * 64) { e with run := r, slot := slot }

/-- The descriptor completes once every unit has finished (R419). -/
def State.nbuDone (s : State) (n : Nat) (h : Queued) : State :=
  if (nbUnits h.desc).all fun u => (s.unit n u).isNone then s.complete n 16 else s

/-- A unit goes on past its atom: to the next, or to idle after its last. -/
def State.unitNext (s : State) (n u : Nat) (x : NbUnit) (h : Queued) : State :=
  if x.next + 1 < x.atoms then s.setUnit n u (some { x with next := x.next + 1, phase := 0 })
  else (s.setUnit n u none).nbuDone n h

/-- A finished slot is returned (R419): resent once on a CRC mismatch, failed on the second. -/
def State.nbuReturn (s : State) (n u : Nat) (x : NbUnit) (slot : Slot) (atom : Bytes) (crcFails : Nat) (h : Queued) : State :=
  let d := h.desc
  let lanes := D.nLanes d
  let size := rawEnd lanes x.columns + 64
  let r := regionOfSlot slot lanes x.columns none
  let r := slice r 0 (size - 40) ++ leBytes 4 u ++ slice r (size - 36) 36
  let crc := crc32c (slice r 0 (size - 36) ++ slice r (size - 32) 32)
  let r := slice r 0 (size - 36) ++ leBytes 4 crc ++ slice r (size - 32) 32
  let s := if crcFails == 0 then s else s.bump (R.NBU_COUNTS.RESULT_RESENDS n)
  if 2 ≤ crcFails then s.nbuFail n u 5 x.next h
  else
    let a := D.nOut d + rd atom 10 2 * size
    if !inScratch n a size then s.nbuEnd n h (evAddressError n a (s.tile n).inst) .failStep
    else
      match s.gate n (s.tile n).inst [⟨a, size, true⟩] with
      | (s, .refuse e) => s.nbuEnd n h e .failStep
      | (s, _) =>
        let s := if slot.sat then s.bump (R.NBU_COUNTS.SAT_RESULTS n) else s
        (s.write a r).unitNext n u x h

/-- The end of an atom whose slot is complete: send it to the neighbour, return it, or go on (R414, R418, R419). -/
def State.atomEnd (s : State) (n u : Nat) (x : NbUnit) (atom : Bytes) (crcFails : Nat) (h : Queued) : State :=
  let k := fld atom 7 1 0 4
  let slot := s.nbSlot n u k
  if !bit (rd atom 7 1) 5 then s.unitNext n u x h
  else if bit (rd atom 7 1) 6 then
    if (Table.get none ((u + 1) * 16 + k) (s.stack n).shadows).isSome then s.setUnit n u (some { x with phase := 2 })
    else
      (s.modStack n fun t => { t with shadows := Table.set none ((u + 1) * 16 + k) (some slot) t.shadows }).unitNext n u x h
  else s.nbuReturn n u x slot atom crcFails h

/-- The record of the atom a unit is at. -/
def State.atomAt (s : State) (d : Bytes) (u : Nat) (x : NbUnit) : Bytes := s.read (sequenceAt d u + 64 + 64 * x.next) 64

/-- NBU_ATOM: a unit at an atom boundary runs its next atom, or sends the slot that waited (R417, R418, R422). -/
def State.nbuAtom (s : State) (n u : Nat) (rep : NbuReport) : State :=
  match s.queue n 16, s.unit n u with
  | h :: _, some x =>
    let d := h.desc
    let a := s.atomAt d u x
    if !h.waiting || !(nbUnits d).contains u || x.phase == 1 || (x.phase == 0 && (s.stack n).inAtom.contains u) then s
    else if x.phase == 2 then s.atomEnd n u x a rep.crcFails h
    else
      let per := ceilDiv x.columns (kindN x.kind)
      let acc := bit (rd a 7 1) 4
      let k := fld a 7 1 0 4
      let run : NbRun := if acc then Table.get NbRun.start k x.runs else { NbRun.start with group := rd a 8 2 * per }
      let s := (s.modStack n fun t => { t with inAtom := if t.inAtom.contains u then t.inAtom else t.inAtom ++ [u] }).wrapAdd
        (R.STACK_ARB_COUNTS.ATOMS n)
      if rep.fault then
        (s.modStack n fun t => { t with badUnits := t.badUnits ++ [u] }).nbuFail n u 6 x.next h
      else if !atomWhole a (u == D.nFirst d) (u + 1 == D.nFirst d + D.nCount d) || run.group / per != rd a 8 2 ||
          decide (2 ^ 24 ≤ rd a 0 6) then
        s.nbuFail n u 3 x.next h
      else
        let slot := if acc then s.nbSlot n u k else Slot.clear
        let plots := fld a 6 1 0 4
        let wa := sequenceAt d u / 2 ^ 24 * 2 ^ 24 + rd a 0 6
        let e := s.atomPlots x (D.nLanes d) plots wa ⟨run, slot, none⟩
        let s := s.bump (R.NBU_COUNTS.PLOT_RETRIES n) ((rep.glitches.filter fun i => decide (i < plots)).length + (if e.fail == some 1 then 1 else 0))
        let s := s.setNbSlot n u k e.slot
        match e.fail with
        | some c => s.nbuFail n u c x.next h
        | none =>
          let x := { x with runs := Table.set NbRun.start k e.run x.runs }
          if bit (rd a 7 1) 5 && bit (rd a 7 1) 7 then s.setUnit n u (some { x with phase := 1 })
          else s.atomEnd n u x a rep.crcFails h
  | _, _ => s

/-- NBU_CHAIN_RECEIVE: the partial in the incoming shadow joins the slot (R418, R222). -/
def State.chainReceive (s : State) (n u crcFails : Nat) : State :=
  match s.queue n 16, s.unit n u with
  | h :: _, some x =>
    let a := s.atomAt h.desc u x
    let k := fld a 7 1 0 4
    match Table.get none (u * 16 + k) (s.stack n).shadows with
    | none => s
    | some y =>
      if x.phase != 1 then s
      else
        let cells := (List.range (D.nLanes h.desc)).flatMap fun l => (List.range x.columns).map fun c => (l, c)
        let z := cells.foldl (fun (z : Slot) e =>
          let v := y.get e.1 e.2
          if intPath x.kind then z.addInt e.1 e.2 (signed 32 v) false else z.addFp e.1 e.2 ⟨dec32 v, false⟩) (s.nbSlot n u k)
        let z := { z with sat := z.sat || y.sat, invalid := z.invalid || y.invalid, overflow := z.overflow || y.overflow,
                          colSat := z.colSat ||| y.colSat }
        let s := s.modStack n fun t => { t with shadows := Table.set none (u * 16 + k) none t.shadows }
        (s.setNbSlot n u k z).atomEnd n u x a crcFails h
  | _, _ => s

/-- Units that faulted leave UNIT_OK at a turnaround (spec/17_faults.md). -/
def State.fenceUnits (s : State) (n : Nat) : State :=
  let bad := (s.stack n).badUnits
  let s := bad.foldl (fun (s : State) u =>
    (s.put (R.NBU_UNIT_OK.UNITS n) (setBit (s.get (R.NBU_UNIT_OK.UNITS n)) u false)).raise (evUnitFenced n u)) s
  if bad.isEmpty then s else s.modStack n fun k => { k with badUnits := [] }

/-! ### Traffic runs, training, zeroing (R398, R411 to R413) -/

/-- TRAFFIC_GEN ends (R413): its counts, and, for a destructive pattern, what it left in the regions it may write. -/
def State.trafficEnd (s : State) (n count mismatches uncorrectable : Nat) (firstPc : Option Nat) (left : List (Nat × Bytes)) : State :=
  match (s.stack n).traffic with
  | none => s
  | some t =>
    let s := s.modStack n fun k => { k with traffic := none }
    let s := s.put (R.STACK_TG_RESULT.MISMATCHES n) mismatches
    let s := s.put (R.STACK_TG_RESULT.UNCORRECTABLE n) uncorrectable
    let s := s.put (R.STACK_TG_RESULT.FIRST_PC n) (firstPc.getD 0)
    let s := s.putBit (R.STACK_TG_RESULT.VALID n) firstPc.isSome
    let s := if t.pattern == 4 || t.pattern == 5 then
        let s := (bitList 48 t.regions).foldl (fun (s : State) r => s.zero (stackBase n + r * 2 ^ 30) (2 ^ 30)) s
        (left.filter fun e => stackBase n ≤ e.1 && inStack e.1 e.2.length && stackOf e.1 == n && bit t.regions (regionOf e.1) &&
          regionOf e.1 == regionOf (e.1 + e.2.length - 1)).foldl (fun (s : State) e => s.write e.1 e.2) s
      else s
    s.finish t.ticket { status := .ok, result0 := count, result1 := mismatches % 2 ^ 32 + uncorrectable % 2 ^ 16 * 2 ^ 32 }

/-- Lane training ends (R410, R411): spares and marks as found, accesses accepted again, and TRAFFIC_GEN completes. -/
def State.trainingEnd (s : State) (n spares : Nat) (failed : List Nat) : State :=
  match (s.stack n).training with
  | none => s
  | some no =>
    let s := s.modStack n fun k => { k with training := none, corrected := [], marked := marksOf failed }
    let s := s.put (R.STACK_LANE_STATUS.SPARES_USED n) spares
    let s := s.put (R.STACK_LANE_STATUS.ERASED_LANES n) (marksOf failed).length
    let s := (List.range 64).foldl (fun (s : State) pc => s.servePc n pc) s
    s.finish no { status := .ok, result0 := spares, result1 := (marksOf failed).length }

/-! ### The commands -/

/-- A refresh interval elapses (R404). -/
def execRefreshInterval (stack pc : Nat) (s : State) : Answered := s.whenAlive fun s => s.refreshInterval stack pc

/-- An atom boundary (R422). -/
def execAtomBoundary (stack pc : Nat) (s : State) : Answered := s.whenAlive fun s => s.boundary stack pc

/-- A 64-byte access of a block arrives at a stack controller (R400). -/
def execStackAccess (addr : Nat) (write : Option Bytes) (symbols : List Nat) (s : State) : Answered :=
  s.whenAlive fun s =>
    match s.place addr with
    | .stack n => s.stackArrive n ⟨addr, match write with
        | some b => .write b
        | none => .read, symbols, s.now⟩
    | _ => s

/-- A lane reaches 256 corrected symbols (R408). -/
def execStackLaneMarked (stack pc lane : Nat) (s : State) : Answered := s.whenAlive fun s => s.markLane stack pc lane

/-- More than 64 uncorrectable codewords in 1 ms (R579). -/
def execStackChannelLost (stack pc : Nat) (s : State) : Answered := s.whenAlive fun s => s.channelLost stack pc

/-- The hottest DRAM die of a stack has been read (R425). -/
def execStackThermRead (stack temp : Nat) (s : State) : Answered :=
  s.whenOn fun s =>
    let old := s.get (R.STACK_THERM.TEMP stack)
    let s := (s.put (R.STACK_THERM.TEMP stack) (min 255 temp)).crossed srcStackTemp stack old
    let s := if 85 < temp then s.putBit (R.STACK_REFRESH.HOT stack) true
      else if temp ≤ 83 then s.putBit (R.STACK_REFRESH.HOT stack) false else s
    s.thermal srcStackTemp stack

/-- NBU (R416). -/
def execNbuDesc (tile : Nat) (mem : MemReport) (s : State) : Answered := s.whenAlive fun s => s.nbuStart tile mem

/-- A near-bank unit's atom (R417). -/
def execNbuAtom (tile unit : Nat) (rep : NbuReport) (s : State) : Answered := s.whenAlive fun s => s.nbuAtom tile unit rep

/-- A unit's incoming partial (R418). -/
def execNbuChainReceive (tile unit crcFails : Nat) (s : State) : Answered :=
  s.whenAlive fun s => s.chainReceive tile unit crcFails

end Sys2Proof.Machine
end

