-- ==== Sys2Proof/Machine/Images.lean ====
section
/-!
DEFINITION. Tensor images (R288 to R290, R308, spec/09_harrow_and_plots.md): header, index and layout, and the checks of every plot
as an image is written.
-/

namespace Sys2Proof.Machine

/-! ### The header (R288) -/

namespace TI
def kind (b : Bytes) : Nat := rd b 6 1
def tables (b : Bytes) : Nat := rd b 7 1
def plotCount (b : Bytes) : Nat := rd b 12 4
def indexOffset (b : Bytes) : Nat := rd b 16 4
def tableOffset (b : Bytes) : Nat := rd b 20 4
def imageBytes (b : Bytes) : Nat := rd b 24 8
/-- Byte offset of plot `i`; of index PLOT_COUNT, the end of the last one (R289). -/
def plotOffset (b : Bytes) (i : Nat) : Nat := rd b (indexOffset b + 4 * i) 4 * 64
end TI

/-- An extent of the header is 0. -/
def tensorZero (b : Bytes) : Bool := TI.plotCount b == 0 || TI.imageBytes b == 0

/-- MAGIC, reserved bits and value fields of the header keep R288. -/
def tensorHeader (b : Bytes) : Bool :=
  rd b 0 4 == 0x534E4554 && rd b 4 2 == 1 && decide (1 ≤ TI.kind b ∧ TI.kind b ≤ 9) && decide (TI.tables b ≤ 16) &&
    (TI.tables b == 0 || TI.kind b == 7) && TI.indexOffset b % 64 == 0 && (TI.tables b != 0 || TI.tableOffset b == 0) &&
    TI.imageBytes b % 64 == 0 && rd b 36 28 == 0

/-- The plot at an offset of an image. -/
def imagePlot (b : Bytes) (o : Nat) : Bytes :=
  let h := slice b o 512
  slice b o (P.size h)

/-- The plots of an image with their offsets (R289). -/
def tensorPlots (b : Bytes) : List (Nat × Bytes) :=
  (List.range (TI.plotCount b)).map fun i => (TI.plotOffset b i, imagePlot b (TI.plotOffset b i))

/-- The layout of R290: the plots lie back to back as the index says, inside the image, and HEADER_CRC holds. -/
def tensorLayout (b : Bytes) : Bool :=
  let n := TI.plotCount b
  rd b 32 4 == crc32c (slice b 0 32 ++ slice b (TI.indexOffset b) (4 * (n + 1))) && decide (TI.imageBytes b ≤ b.length) &&
    (List.range n).all fun i =>
      let o := TI.plotOffset b i
      let e := o + P.size (slice b o 512)
      let next := if i + 1 == n then e else ceilDiv e 64 * 64
      decide (e ≤ TI.imageBytes b) && ceilDiv next 64 * 64 == TI.plotOffset b (i + 1)

/-- Whether every plot of an image passes the checks of R306 that its image can show (R308); the code table block of a coded plot holds as
many tables as the image says (R299). -/
def tensorWhole (prot : Bool) (b : Bytes) : Bool :=
  let ps := tensorPlots b
  let alone := fun (e : Nat × Bytes) =>
    let blk := b.drop ((e.1 : Int) + 64 * P.tableOffset e.2).toNat
    (!P.coded e.2 || rd blk 4 1 == TI.tables b) && match plotAlone e.2 (blk.take (64 + 128 * rd blk 4 1)) (TI.kind b) prot false with
    | .ok _ => true
    | .error _ => false
  ps.all alone && (List.zip ps (ps.drop 1)).all fun x =>
    P.tensor x.1.2 == P.tensor x.2.2 && P.index x.2.2 == P.index x.1.2 + 1

/-- Tensor images lying one behind another from an offset of some bytes on: their offsets, at most `n`. -/
def imagesFrom (b : Bytes) : Nat → (o : Nat) → List Nat
  | 0, _ => []
  | n + 1, o =>
    if b.length ≤ o || TI.imageBytes (b.drop o) == 0 then []
    else o :: imagesFrom b n (o + TI.imageBytes (b.drop o))

end Sys2Proof.Machine
end

