-- ==== Sys2Proof/Machine/Forward.lean ====
section
/-!
DEFINITION. Commands that several devices carry out (R128, R467): the lead device forwards the packet to the members, keeps
what they answer, and each device answers its own part.
-/

namespace Sys2Proof.Machine

/-- Keep a device's answer to a command that several devices carry out. -/
def State.addReply (s : State) (no : Nat) (r : Reply) : State :=
  s.mapTicket no fun t =>
    { t with awaiting := t.awaiting.filter (fun w => w.1 != r.device), answers := t.answers ++ [r] }

/-- This device's answer to a command: one answer of several, or the final completion. -/
def State.reply (s : State) (no : Nat) (a : Answer) : State :=
  match s.ticket? no with
  | none => s
  | some t =>
    if t.awaiting.any fun w => w.1 == s.self then
      s.addReply no ⟨s.self, a.status, a.detail, a.result0, a.result1, a.data⟩
    else s.finish no a

def State.replyWith (s : State) (no : Nat) (st : Status) (detail : Nat := 0) : State :=
  s.reply no { status := st, detail := detail }

/-- Forward a packet to other devices; the answer of one that cannot be reached is FAIL_DEVICE (R467, R588). -/
def State.forwardEach (s : State) (no : Nat) (p : Packet) (pay : Nat → Option Bytes) (dsts : List Nat)
    (img : Option ModelImage := none) : State :=
  dsts.foldl (fun (s : State) (d : Nat) =>
    match s.route d with
    | none => s.addReply no ⟨d, .failDevice, 0, 0, 0, []⟩
    | some _ =>
      let s := s.mapTicket no fun t => { t with awaiting := t.awaiting ++ [(d, s.flt.nextMsg)] }
      s.sendCtrl d (.fwdCmd p (pay d) img)) s

/-- Forward a packet with one payload to other devices. -/
def State.forwardTo (s : State) (no : Nat) (p : Packet) (pay : Option Bytes) (dsts : List Nat) (img : Option ModelImage := none) :
    State := s.forwardEach no p (fun _ => pay) dsts img

/-- This device is one of those whose answer is awaited. -/
def State.awaitSelf (s : State) (no : Nat) : State :=
  s.mapTicket no fun t => { t with awaiting := t.awaiting ++ [(s.self, 0)] }

/-- The answer with the lowest device identifier of a list. -/
def lowest : List Reply → Option Reply
  | [] => none
  | r :: rest => some (rest.foldl (fun a b => if b.device < a.device then b else a) r)

/-- The first refusal or failure in ascending device identifier order (R153). -/
def refusal (l : List Reply) : Option Reply := lowest (l.filter fun r => r.status != .ok)

/-- The final completion that carries an answer, naming the device that gave it. -/
def Reply.answer (r : Reply) : Answer :=
  { status := r.status, detail := r.detail, device := some r.device, result0 := r.result0, result1 := r.result1 }

end Sys2Proof.Machine
end

