-- ==== Sys2Proof/Machine/Drill.lean ====
section
/-!
DEFINITION. The Drill (R273 to R283, spec/08_vector_engine_and_drill.md): sampling records, the local scan of a vocabulary
slice, the merge of candidates, the filters and the draw.
-/

namespace Sys2Proof.Machine

/-! ### Sampling records (R273, R274) -/

namespace S
def temperature (r : Bytes) : Nat := rd r 0 4
def topK (r : Bytes) : Nat := rd r 4 2
def topP (r : Bytes) : Nat := rd r 8 4
def minP (r : Bytes) : Nat := rd r 12 4
def rep (r : Bytes) : Nat := rd r 16 4
def freq (r : Bytes) : Nat := rd r 20 4
def seed (r : Bytes) : Bytes := slice r 24 16
def position (r : Bytes) : Nat := rd r 40 8
def bitmap (r : Bytes) : Nat := rd r 48 6
def biasAddr (r : Bytes) : Nat := rd r 56 6
def biasCount (r : Bytes) : Nat := rd r 62 2
def penAddr (r : Bytes) : Nat := rd r 64 6
def penCount (r : Bytes) : Nat := rd r 70 2
def active (r : Bytes) : Bool := bit (rd r 72 1) 0
end S

/-- Entries of 8 bytes of a list: token and word. -/
def State.pairs (s : State) (a n : Nat) : List (Nat × Nat) :=
  (List.range n).map fun i => (s.readNat (a + 8 * i) 4, s.readNat (a + 8 * i + 4) 4)

def rising (l : List (Nat × Nat)) : Bool := (List.zip l (l.drop 1)).all fun e => decide (e.1.1 < e.2.1)

/-- An FP32 field between two bounds. -/
def within (v : Nat) (lo hi : Num) : Bool := lo.le (dec32 v) && (dec32 v).le hi

/-- The ranges of the sampling parameters (R149). -/
def samplingInRange (temperature topK topP minP rep freq : Nat) : Bool :=
  within temperature .zero (.ofInt 16) && decide (topK ≤ 64) && within topP .zero (.ofInt 1) && !(dec32 topP).isZero &&
    within minP .zero (.ofInt 1) && minP != 0x3F800000 && within rep (.ofInt 1) (.ofInt 4) && within freq .zero (.ofInt 4)

/-- The reserved bits of a sampling record are 0. -/
def sampleRecClean (r : Bytes) : Bool := rd r 6 2 == 0 && rd r 54 2 == 0 && rd r 72 1 < 2 && allZero (slice r 73 55)

/-- An active sampling record keeps R273: fields in range, reserved bits 0, lists strictly ascending. -/
def State.recordWhole (s : State) (r : Bytes) : Bool :=
  samplingInRange (S.temperature r) (S.topK r) (S.topP r) (S.minP r) (S.rep r) (S.freq r) && sampleRecClean r && decide (S.biasCount r ≤ 256) &&
    decide (S.penCount r ≤ 1024) && rising (s.pairs (S.biasAddr r) (S.biasCount r)) &&
    rising (s.pairs (S.penAddr r) (S.penCount r))

/-- The sampling record of a lane (R273). -/
def State.samplingRecord (s : State) (table lane : Nat) : Bytes := s.read (table + 0x800 + 128 * lane) 128

/-! ### The local stage (R275 to R277) -/

/-- z of a logit (R275). -/
def State.zOf (s : State) (r : Bytes) (bias pen : List (Nat × Nat)) (t : Nat) (x : Num) : Num :=
  if (S.bitmap r != 0 && !bit (s.readNat (S.bitmap r + t / 8) 1) (t % 8)) || x.isNan then .inf true
  else
    let x := match bias.find? fun e => e.1 == t with
      | some e => fp32.rnd (x.add (dec32 e.2))
      | none => x
    let p := pen.find? fun e => e.1 == t
    let rep := dec32 (S.rep r)
    let x := if p.isSome && S.rep r != 0x3F800000 then
        (if Num.zero.lt x then fp32.rnd (x.div rep) else fp32.rnd (x.mul rep))
      else x
    let freq := dec32 (S.freq r)
    let x := match p with
      | some e => if freq.isZero then x else fp32.rnd (x.sub (freq.mul (.ofInt e.2)))
      | none => x
    let temp := dec32 (S.temperature r)
    if temp.isZero then x else fp32.rnd (x.div temp)

/-- e(round_fp32(a − b)), 1.0 for equal operands (R276). -/
def expDiff (a b : Num) : Num := if a.eq b then .ofInt 1 else dec32 (expNeg (fp32.rnd (a.sub b)))

/-- A pair of partial statistics. -/
structure Stat where
  m : Num
  sum : Num

def Stat.start : Stat := ⟨.inf true, .zero⟩

/-- One value joins a partial statistic (R276). -/
def Stat.visit (p : Stat) (z : Num) : Stat :=
  if z == .inf true then p
  else if p.m.lt z then ⟨z, fp32.rnd ((p.sum.mul (expDiff p.m z)).add (.ofInt 1))⟩
  else ⟨p.m, fp32.rnd (p.sum.add (expDiff z p.m))⟩

/-- Two pairs merged (R276). -/
def Stat.merge (a b : Stat) : Stat :=
  let m := a.m.max b.m
  if m == .inf true then .start
  else ⟨m, fp32.rnd ((a.sum.mul (expDiff a.m m)).add (b.sum.mul (expDiff b.m m)))⟩

/-- Statistics of a scan: 256 partials by position, then the tree of eight levels (R276). -/
def statsOf (z : List Num) : Stat :=
  let ps := (List.range 256).map fun j =>
    (List.range (ceilDiv z.length 256)).foldl (fun p k =>
      match z[256 * k + j]? with
      | some x => p.visit x
      | none => p) Stat.start
  ((treeOf Stat.merge 8 ps).head?).getD .start

/-- A candidate: z and token. -/
abbrev Cand := Num × Nat

/-- The order of candidates: descending z, then ascending token. -/
def candBefore (a b : Cand) : Bool := b.1.lt a.1 || (a.1.eq b.1 && decide (a.2 < b.2))

/-- Insert a candidate in order. -/
def candInsert (c : Cand) : List Cand → List Cand
  | [] => [c]
  | d :: rest => if candBefore c d then c :: d :: rest else d :: candInsert c rest

/-- The 64 first candidates of a list (R276). -/
def bestOf (l : List Cand) : List Cand :=
  l.foldl (fun acc c => if c.1 == .inf true then acc else (candInsert c acc).take 64) []

/-- A candidate record (R277). -/
def candidateRecord (lane set : Nat) (st : Stat) (cs : List Cand) : Bytes :=
  fit 64 (leBytes 4 (rnd32 st.m) ++ leBytes 4 (rnd32 st.sum) ++ leBytes 2 cs.length ++ leBytes 1 (lane + 16 * set)) ++
    fit 512 (cs.flatMap fun c => leBytes 4 (rnd32 c.1) ++ leBytes 4 c.2)

/-- The local stage of one lane (R275 to R277): its record, and whether it met a NaN logit. -/
def State.localLane (s : State) (d : Bytes) (l : Nat) : Bytes × Bool :=
  let r := s.samplingRecord (D.sLaneTable d) l
  if !S.active r then (candidateRecord l (D.sLaneSet d) .start [], false)
  else
    let n := D.sVocabCount d
    let x := (List.range n).map fun i => dec32 (s.readNat (D.sLogit d + 4 * (l * n + i)) 4)
    let bias := s.pairs (S.biasAddr r) (S.biasCount r)
    let pen := s.pairs (S.penAddr r) (S.penCount r)
    let z := (List.zip (List.range n) x).map fun e => s.zOf r bias pen (D.sVocabBase d + e.1) e.2
    let cs := bestOf ((List.zip (List.range n) z).map fun e => (e.2, D.sVocabBase d + e.1))
    (candidateRecord l (D.sLaneSet d) (statsOf z) cs, x.any Num.isNan)

/-! ### The final stage (R278 to R281) -/

/-- Devices of the instance's group: those of its mask in this device's group. -/
def State.groupSizeOf (s : State) (inst : Option Nat) : Nat :=
  match inst with
  | none => 1
  | some i => ((s.instMembers i).filter fun d => d / 16 == s.get R.GLB_DEVPOS.GROUP).length

/-- Whether this device owns a lane of a lane set: the device at position (16 × set + lane) mod G. -/
def State.ownsLane (s : State) (inst : Option Nat) (set lane : Nat) : Bool :=
  (16 * set + lane) % (max 1 (s.groupSizeOf inst)) == s.get R.GLB_DEVPOS.POSITION

/-- The lanes below LANES that the device owns, ascending. -/
def State.ownedLanes (s : State) (inst : Option Nat) (d : Bytes) : List Nat :=
  (List.range (D.sLanes d)).filter fun l => s.ownsLane inst (D.sLaneSet d) l

/-- The draw u of a sampling record, as b / 2^24 (R279). -/
def drawU (r : Bytes) : Num :=
  let o := aes128 (S.seed r) (leBytes 8 (S.position r) ++ List.replicate 8 0)
  .fin false (rd o 0 3) 1 (-24)

/-- Running sums of weights, rounded at each addition. -/
def runningSums (w : List Num) : List Num :=
  (w.foldl (fun (acc : List Num × Num) x => let c := addRnd acc.2 x; (acc.1 ++ [c], c)) ([], .zero)).1

/-- The TOP_P prefix: candidates reached while the running sum is below t, and the sum (R278 step 5). -/
def topPrefix (t : Num) : List Num → (n : Nat) → Num → Nat × Num
  | [], n, c => (n, c)
  | w :: rest, n, c => if n != 0 && t.le c then (n, c) else topPrefix t rest (n + 1) (addRnd c w)

/-- What the final stage chooses: a token, whether greedily, and whether the lane counts as truncated. -/
structure Choice where
  token : Option Nat
  greedy : Bool := false
  truncated : Bool := false

/-- Filter and draw among the kept candidates (R278 steps 3 to 6). -/
def choose (r : Bytes) (st : Stat) (kept : List Cand) : Choice :=
  match kept with
  | [] => { token := none }
  | first :: _ =>
    if (dec32 (S.temperature r)).isZero then { token := some first.2, greedy := true }
    else
      let w := kept.map fun c => expDiff c.1 st.m
      let k1 := if S.topK r == 0 then 64 else S.topK r
      let minP := dec32 (S.minP r)
      let k2 := (List.zip (List.range w.length) w).foldl (fun n e => if minP.le e.2 then e.1 + 1 else n) 0
      let off := S.topP r == 0x3F800000
      let t := fp32.rnd ((dec32 (S.topP r)).mul st.sum)
      let (k3, c) := if off then (kept.length, .zero) else topPrefix t w 0 .zero
      let n := min k1 (min k2 k3)
      let surv := kept.take n
      let sums := runningSums (w.take n)
      let target := fp32.rnd ((drawU r).mul (sums.getLastD .zero))
      let i := ((List.range n).find? fun i => target.lt (sums.getD i .zero)).getD (n - 1)
      { token := some (surv.getD i first).2, truncated := !off && k3 == kept.length && c.lt t }

/-- A choice record (R280). -/
def choiceRecord (token position lane set : Nat) (valid greedy : Bool) : Bytes :=
  fit 16 (leBytes 4 token ++ leBytes 4 (position % 2 ^ 32) ++ leBytes 1 (lane + 16 * set + 64 * b2n valid + 128 * b2n greedy))

/-- The final stage of one owned lane, the `q`-th: its choice, from its VOCAB_COUNT records (R278). -/
def State.finalLane (s : State) (d : Bytes) (q l : Nat) : Choice :=
  let n := D.sVocabCount d
  let rec' := fun k => s.read (D.sCand d + 576 * (q * n + k)) 576
  let recs := (List.range n).map rec'
  let stats := recs.map fun b => Stat.mk (dec32 (rd b 0 4)) (dec32 (rd b 4 4))
  let st := match stats with
    | [] => .start
    | p :: rest => rest.foldl Stat.merge p
  let cs := recs.flatMap fun b => (List.range (min 64 (rd b 8 2))).map fun c => (dec32 (rd b (64 + 8 * c) 4), rd b (68 + 8 * c) 4)
  choose (s.samplingRecord (D.sLaneTable d) l) st (bestOf cs)

/-- Keep a lane's choice for the serving firmware, in place of an earlier one. -/
def State.addResult (s : State) (r : LaneResult) : State :=
  let same := fun (q : LaneResult) => q.inst == r.inst && q.set == r.set && q.lane == r.lane
  { s with srv := { s.srv with results := s.srv.results.filter (fun q => !same q) ++ [r] } }

/-- The lane's choice is written, counted and kept for the serving firmware (R280, R281, R287). -/
def State.putChoice (s : State) (n : Nat) (inst : Option Nat) (d : Bytes) (l : Nat) (c : Choice) : State :=
  let r := s.samplingRecord (D.sLaneTable d) l
  let token := c.token.getD (s.freeVal % 2 ^ 32)
  let s := if c.token.isNone then s.draw.bump (R.TILE_DRILL_COUNTS.EMPTY_LANES n) else s
  let s := if c.truncated then s.bump (R.TILE_DRILL_COUNTS.TOPP_TRUNCATED n) else s
  let s := s.write (D.sLogit d + 16 * l) (choiceRecord token (S.position r) l (D.sLaneSet d) c.token.isSome c.greedy)
  let s := s.put (R.TILE_DRILL_LAST.TOKEN n) token
  let s := s.put (R.TILE_DRILL_LAST.LANE n) l
  let s := s.put (R.TILE_DRILL_LAST.LANE_SET n) (D.sLaneSet d)
  let s := s.putBit (R.TILE_DRILL_LAST.VALID n) c.token.isSome
  let s := s.putBit (R.TILE_DRILL_LAST.GREEDY n) c.greedy
  match inst with
  | none => s
  | some i => s.addResult ⟨i, D.sLaneSet d, l, c.token⟩

/-! ### Running a SAMPLE -/

/-- The lists that active sampling records name, and in the local stage the bytes of a bitmap that cover the slice (R273, R274, R283).
A COUNT out of its range names nothing: the record itself is refused. -/
def State.listAccs (s : State) (d : Bytes) : List Acc :=
  (List.range (D.sLanes d)).flatMap fun l =>
    let r := s.samplingRecord (D.sLaneTable d) l
    let first := D.sVocabBase d / 8
    let words := fun (a n most : Nat) => if n == 0 || most < n then [] else [(⟨a, 8 * n, false⟩ : Acc)]
    if !S.active r then []
    else words (S.biasAddr r) (S.biasCount r) 256 ++ words (S.penAddr r) (S.penCount r) 1024 ++
      (if D.sFinal d || S.bitmap r == 0 then []
       else [⟨S.bitmap r + first, (D.sVocabBase d + D.sVocabCount d - 1) / 8 - first + 1, false⟩])

/-- The head of the Drill's queue runs where it is of the wanted stage (R183, R273, R283). -/
def State.sample (s : State) (n : Nat) (final : Bool) (mem : MemReport) (lanes : List Nat)
    (accs : Bytes → List Acc) (body : State → Bytes → State) : State :=
  match s.runnable n 10 tSample with
  | none => s
  | some h =>
    let d := h.desc
    if D.sFinal d != final then s
    else
      let s := s.memReport srcDrill mem
      if D.sVocabCount d == 0 then s.complete n 10
      else
        s.scratched n 10 (accs d) fun s => s.gated n 10 (s.listAccs d) fun s =>
          let bad := lanes.any fun l =>
            let r := s.samplingRecord (D.sLaneTable d) l
            decide (l < D.sLanes d) && S.active r && !s.recordWhole r
          if bad then s.failHead n 10 .failStep else (body s d).complete n 10

/-- SAMPLE with FINAL 0 (R275 to R277). -/
def State.sampleLocal (s : State) (n : Nat) (mem : MemReport) : State :=
  s.sample n false mem (List.range 16)
    (fun d => [⟨D.sLogit d, 4 * D.sLanes d * D.sVocabCount d, false⟩, ⟨D.sLaneTable d + 0x800, 0x800, false⟩,
      ⟨D.sCand d, 576 * D.sLanes d, true⟩])
    fun s d =>
      let outs := (List.range (D.sLanes d)).map (s.localLane d)
      (s.write (D.sCand d) (outs.flatMap Prod.fst)).bump (R.TILE_DRILL_COUNTS.NAN_LOGITS n) (outs.filter Prod.snd).length

/-- SAMPLE with FINAL 1 (R278 to R281). -/
def State.sampleFinal (s : State) (n : Nat) (mem : MemReport) : State :=
  let inst := (s.tile n).inst
  s.sample n true mem (List.range 16)
    (fun d => [⟨D.sCand d, 576 * D.sVocabCount d * (s.ownedLanes inst d).length, false⟩,
      ⟨D.sLaneTable d + 0x800, 0x800, false⟩, ⟨D.sLogit d, 16 * D.sLanes d, true⟩])
    fun s d =>
      let owned := s.ownedLanes inst d
      (List.zip (List.range owned.length) owned).foldl (fun s e => s.putChoice n inst d e.2 (s.finalLane d e.1 e.2)) s

end Sys2Proof.Machine
end

