-- ==== Sys2Proof/Machine/Attention.lean ====
section
/-!
DEFINITION. Attention (R320 to R342, R357, spec/10_attention_and_kv.md): lane entries and tile records, page translation,
key-value plots, the partial results of a tile and their merge.
-/

namespace Sys2Proof.Machine

/-! ### Lane table records (R323) -/

namespace L
def seqId (r : Bytes) : Nat := rd r 0 4
def role (r : Bytes) : Nat := fld r 4 1 0 2
def chunkIndex (r : Bytes) : Nat := fld r 5 1 0 4
def chunkLast (r : Bytes) : Nat := fld r 5 1 4 4
def group (r : Bytes) : Nat := rd r 6 1
def flushed (r : Bytes) : Nat := rd r 12 4
def position (r : Bytes) : Nat := rd r 16 8
def staged (r : Bytes) : Nat := fld r 24 1 0 6
def shareTable (r : Bytes) : Nat := rd r 32 6
def stageAddr (r : Bytes) : Nat := rd r 38 6
def maskAddr (r : Bytes) : Nat := rd r 44 6
def descList (r : Bytes) : Nat := rd r 50 6
def descStride (r : Bytes) : Nat := rd r 56 2
def descCount (r : Bytes) : Nat := rd r 58 2
def shareBlocks (r : Bytes) : Nat := rd r 60 4
def stageMask (r : Bytes) : Nat := rd r 64 8
/-- Its reserved bits are 0. -/
def clean (r : Bytes) : Bool :=
  fld r 4 1 2 6 == 0 && fld r 24 1 6 2 == 0 && rd r 25 7 == 0 && rd r 78 50 == 0

def shareIndex (t : Bytes) : Nat := fld t 0 1 0 4
def shares (t : Bytes) : Nat := fld t 0 1 4 4 + 1
def ringPos (t : Bytes) : Nat := fld t 1 1 0 4
def ring (t : Bytes) : Nat := fld t 1 1 4 4 + 1
def ringCtr (t : Bytes) : Nat := fld t 2 1 0 5
def ringEn (t : Bytes) : Bool := bit (rd t 3 1) 0
def partialAddr (t : Bytes) : Nat := rd t 8 6
def ringIn (t : Bytes) : Nat := rd t 14 6
def tileMap (t : Bytes) : Nat := rd t 20 6
def tileClean (t : Bytes) : Bool := fld t 2 1 5 3 == 0 && fld t 3 1 1 7 == 0 && rd t 4 4 == 0 && rd t 26 38 == 0
end L

def State.laneRec (s : State) (table l : Nat) : Bytes := s.read (table + 128 * l) 128
def State.tileRec (s : State) (table : Nat) : Bytes := s.read (table + 0x1000) 64

/-! ### Sizes -/

def up64 (n : Nat) : Nat := ceilDiv n 64 * 64

/-- Bytes of a lane's query record, of a partial record and of an output record (R324, R330, R332). -/
def queryBytes (d : Bytes) : Nat := up64 (2 * D.aHeadDim d * (D.aQPerKv d + 2))
def partialBytes (d : Bytes) : Nat := up64 (192 + 4 * D.aHeadDim d * D.aQPerKv d)
def outBytes (d : Bytes) : Nat := up64 (2 * D.aHeadDim d * D.aQPerKv d)

/-- Key plots of a block, and bytes of its slot (R334). -/
def kvPlots (fmt headDim : Nat) : Nat := if fmt == 1 then ceilDiv headDim 64 else ceilDiv headDim 128
def pow2Ceil (n : Nat) : Nat := if n ≤ 1 then 1 else if n ≤ 2 then 2 else 4
def slotBytes (fmt headDim : Nat) : Nat := 2 * 4096 * pow2Ceil (kvPlots fmt headDim)

/-- Local heads of a tile's instance, and lane sets of the active furrow plan. -/
def State.headsOf (s : State) (inst : Option Nat) : Nat :=
  match inst.bind fun i => Table.get none i s.cfg.instA with
  | some x => x.image.hLoc
  | none => 1
def State.laneSets (s : State) : Nat :=
  match s.frw.active with
  | some p => p.laneSets
  | none => 1

/-- Whether a tile with a tile record owns block `j` of a sequence (R321). -/
def ownsBlock (t : Bytes) (j : Nat) : Bool := j % L.ring t == L.ringPos t && j / L.ring t % L.shares t == L.shareIndex t

/-! ### Pools and page table entries (R338, R339) -/

/-- Base, granules of pool `tier` of a partition. -/
def State.pool (s : State) (n tier : Nat) : Nat × Nat :=
  match tier with
  | 0 => (s.get (R.TILE_KV_POOL_TS.BASE n) * 16384, s.get (R.TILE_KV_POOL_TS.GRANULES n))
  | 1 => (s.get (R.TILE_KV_POOL_ST.BASE n) * 16384, s.get (R.TILE_KV_POOL_ST.GRANULES n))
  | _ => (s.get (R.TILE_KV_POOL_FAR.BASE n) * 16384, s.get (R.TILE_KV_POOL_FAR.GRANULES n))

/-- The header of the plot whose payload lies at an address of a pool (R339). -/
def headerOf (pool : Nat × Nat) (a : Nat) : Nat := pool.1 + pool.2 * 16384 + (a - pool.1) / 64

namespace Pte
def valid (e : Nat) : Bool := bit e 0
def cow (e : Nat) : Bool := bit e 1
def tier (e : Nat) : Nat := bits e 3 2
def size (e : Nat) : Nat := bits e 5 3
def fmt (e : Nat) : Nat := bits e 8 2
def moving (e : Nat) : Bool := bit e 10
def addr (e : Nat) : Nat := bits e 14 34 * 16384
def bytes (e : Nat) : Nat := 16384 * 2 ^ size e
/-- Reserved bits and encodings are unused. -/
def clean (e : Nat) : Bool := bits e 11 3 == 0 && bits e 48 16 == 0 && tier e != 3 && (fmt e == 1 || fmt e == 2)
end Pte

/-- Whether an entry's page lies wholly inside its pool, aligned to its size (R338, R339). -/
def State.inPool (s : State) (n e : Nat) : Bool :=
  let p := s.pool n (Pte.tier e)
  decide (p.1 ≤ Pte.addr e ∧ Pte.addr e + Pte.bytes e ≤ p.1 + p.2 * 16384) && Pte.addr e % Pte.bytes e == 0

/-- A block of a lane as the tile reads it: block number, slot, header of its first plot. -/
structure Block where
  j : Nat
  slot : Nat
  header : Nat

/-- The blocks of a lane on a tile, or why there are none: a fault of a table (`none`), or far-tier pages (`some []` with
the flag). -/
inductive Blocks where
  | bad
  | miss
  | ok (l : List Block)

/-- Translation of one block by the share table (R337, R340). -/
def State.translate (s : State) (n : Nat) (d r t : Bytes) (hLoc j : Nat) : Option (Nat × Option Block) :=
  let i := j / (L.ring t * L.shares t)
  let sz := slotBytes (D.aKvFmt d) (D.aHeadDim d)
  let off := ((D.aLayer d * hLoc + D.aKvHead d) * L.shareBlocks r + i) * sz
  let e := s.readNat (L.shareTable r + 8 * (off / 16384)) 8
  if !Pte.valid e || !Pte.clean e || Pte.fmt e != D.aKvFmt d || !s.inPool n e then none
  else if Pte.tier e == 2 then some (off / 16384 * 8 + Pte.size e, none)
  else
    let slot := Pte.addr e + off % Pte.bytes e
    some (off / 16384 * 8 + Pte.size e, some ⟨j, slot, headerOf (s.pool n (Pte.tier e)) slot⟩)

/-- The entries of its share table that a lane's steps read (R337, R340). -/
def shareEntries (d r t : Bytes) (hLoc : Nat) : List Acc :=
  ((List.range (L.flushed r)).filter (ownsBlock t)).map fun j =>
    let i := j / (L.ring t * L.shares t)
    let off := ((D.aLayer d * hLoc + D.aKvHead d) * L.shareBlocks r + i) * slotBytes (D.aKvFmt d) (D.aHeadDim d)
    ⟨L.shareTable r + 8 * (off / 16384), 8, false⟩

/-- Where page descriptor `k` of a lane lies (R341). -/
def descAddr (d r : Bytes) (hLoc k : Nat) : Nat :=
  L.descList r + 32 * (D.aLayer d * hLoc + D.aKvHead d) * L.descStride r + 32 * k

/-- A page descriptor (R341): block, or `none` where it breaks the layout. -/
def State.pageDesc (s : State) (d r : Bytes) (hLoc k : Nat) : Option Block :=
  let b := s.read (descAddr d r hLoc k) 32
  let a := rd b 0 8
  let far := match s.place a with
    | .tileStore _ | .stack _ | .scratch _ => false
    | _ => true
  if far || rd b 12 1 != D.aKvFmt d || rd b 13 3 != 0 || rd b 24 8 != 0 then none else some ⟨rd b 8 4, a, rd b 16 8⟩

/-- Blocks by number strictly rising. -/
def blocksRise (l : List Block) : Bool := (List.zip l (l.drop 1)).all fun e => decide (e.1.j < e.2.j)

/-- What a step of a lane finds: nothing it may read (`bad`), a far-tier page, or a block; with the key of the translation in walker
mode. -/
structure LaneStep where
  key : Option Nat
  far : Bool
  block : Option Block

/-- The steps of a lane on a tile over flushed blocks, in ascending order; one that breaks the layout as `none` (R325, R340, R341). -/
def State.laneSteps (s : State) (n : Nat) (d r t : Bytes) (hLoc : Nat) : List (Option LaneStep) :=
  if D.aDescMode d then
    (List.range (L.descCount r)).map fun k => (s.pageDesc d r hLoc k).map fun b => ⟨none, false, some b⟩
  else
    ((List.range (L.flushed r)).filter (ownsBlock t)).map fun j =>
      (s.translate n d r t hLoc j).map fun x => ⟨some x.1, x.2.isNone, x.2⟩

/-- The flushed blocks that a lane attends to on a tile (R325, R340, R341). -/
def State.blocks (s : State) (n : Nat) (d r t : Bytes) (hLoc : Nat) : Blocks :=
  let l := s.laneSteps n d r t hLoc
  let bs := l.filterMap fun x => x.bind LaneStep.block
  if l.any Option.isNone || (D.aDescMode d && !blocksRise bs) then .bad
  else if l.any fun x => (x.map LaneStep.far).getD false then .miss
  else .ok bs

/-- The look-aside buffer serves one translation: a hit, or a miss that enters the page in place of the least recently used
of 64 (R340, R361). -/
def State.labUse (s : State) (n table key : Nat) : State :=
  let page := fun k => k / 8 / 2 ^ (k % 8)
  let hit := fun (e : Nat × Nat) => e.1 == table && e.2 % 8 == key % 8 && page e.2 == page key
  let l := (s.tile n).lab
  let s := s.wrapAdd (if l.any hit then R.TILE_ATTN_COUNTS.LAB_HITS n else R.TILE_ATTN_COUNTS.LAB_MISSES n)
  s.modTile n fun x => { x with lab := ((table, key) :: l.filter fun e => !hit e).take 64 }

/-! ### Key-value plots (R335, R357) -/

/-- Plot `p` of a block with its header in front. -/
def State.kvPlot (s : State) (d : Bytes) (b : Block) (p : Nat) : Bytes :=
  let half := slotBytes (D.aKvFmt d) (D.aHeadDim d) / 2
  let o := if p < 4 then 4096 * p else half + 4096 * (p - 4)
  s.read (b.header + o / 64) 64 ++ s.read (b.slot + o) 4096

/-- Address of plot `p`'s payload. -/
def kvPlotAddr (d : Bytes) (b : Block) (p : Nat) : Nat :=
  b.slot + if p < 4 then 4096 * p else slotBytes (D.aKvFmt d) (D.aHeadDim d) / 2 + 4096 * (p - 4)

/-- Why a key-value plot is damaged (R357), against the format, layer, head and INDEX expected: 2 header, 1 CRC or poison,
3 TENSOR or INDEX. -/
def kvPlotCause (fmt layer head index : Nat) (b : Bytes) (poisoned : Bool) : Option Nat :=
  if P.magic b != 0x4C50 || P.kind b != (if fmt == 1 then 8 else 9) || rd b 3 1 != 0 || rd b 4 1 != 0 ||
      P.groups b != 4 || P.payloadBytes b != 4096 || rd b 16 4 != 0 || rd b 20 8 != 0 || rd b 40 24 != 0 then some 2
  else if poisoned || crc32c (plotCrcBytes b) != P.crc b then some 1
  else if P.tensor b != 0x4B560000 + layer * 256 + head || P.index b != index then some 3
  else none

/-- The same for a descriptor's layer and head. -/
def kvCause (d : Bytes) (b : Bytes) (j p : Nat) (poisoned : Bool) : Option Nat :=
  kvPlotCause (D.aKvFmt d) (D.aLayer d) (D.aKvHead d) (8 * j + p) b poisoned

/-- A block's plots, a damaged one as `none`. -/
structure KvBlock where
  keys : List (Option Bytes)
  values : List (Option Bytes)

def State.kvWhole (s : State) (d : Bytes) (b : Block) (p : Nat) : Option Bytes :=
  let x := s.kvPlot d b p
  match kvCause d x b.j p (s.poisoned (kvPlotAddr d b p) 4096) with
  | none => some x
  | some _ => none

def State.kvBlock (s : State) (d : Bytes) (b : Block) : KvBlock :=
  let n := kvPlots (D.aKvFmt d) (D.aHeadDim d)
  ⟨(List.range n).map (s.kvWhole d b), (List.range n).map fun p => s.kvWhole d b (4 + p)⟩

/-- The integer at row `r`, column `c` of K-block `k` of a plot with `cols` columns (R204, R294, R335). -/
def kvInt (fmt : Nat) (vals : List Nat) (cols k r c : Nat) : Int :=
  let n := if fmt == 1 then 16 else 32
  signed (if fmt == 1 then 8 else 4) (vals.getD (64 * n * (k * (cols / n) + c / n) + n * r + c % n) 0)

/-- The BF16 scale of scale block `g` of a plot. -/
def kvScale (b : Bytes) (g : Nat) : Num := bf16.decode (rd b (32 + 2 * g) 2)

/-- Channels a plot covers. -/
def plotChannels (fmt : Nat) : Nat := if fmt == 1 then 64 else 128

/-! ### The partial result (R328) -/

/-- Running statistics of one query-head row: maximum, sum, outputs. -/
structure Row where
  m : Num
  l : Num
  o : List Num

def Row.start (h : Nat) : Row := ⟨.inf true, .zero, List.replicate h .zero⟩

/-- e(round_fp32(a - b)) (R328). -/
def expOf (a b : Num) : Num := dec32 (expNeg (fp32.rnd (a.sub b)))

/-- Scores of a flushed block for a quantised query row (R327, R328). -/
def flushedScores (d : Bytes) (b : KvBlock) (q : QRow) (alpha : Num) : List Num :=
  let fmt := D.aKvFmt d
  let ch := plotChannels fmt
  let qi := q.q.map (signed 8)
  (List.range 64).map fun t =>
    let terms := (List.zip (List.range b.keys.length) b.keys).flatMap fun e =>
      (List.range (ch / 32)).map fun g =>
        match e.2 with
        | none => (Num.zero, (0 : Int))
        | some x =>
          let vals := rawValues x
          (kvScale x g, ((List.range 32).map fun i =>
            let c := 32 * g + i
            kvInt fmt vals 64 (c / 64) (c % 64) t * qi.getD (ch * e.1 + c) 0).foldl (· + ·) 0)
    let a := terms.foldl (fun a x => fp32.rnd (a.add (x.1.mul (.ofInt x.2)))) Num.zero
    fp32.rnd ((a.mul (dec32 q.scale)).mul alpha)

/-- A BF16 row at an address. -/
def State.bfRow (s : State) (a n : Nat) : List Num := (List.range n).map fun i => bf16.decode (s.readNat (a + 2 * i) 2)

/-- An FP32 dot product over K-blocks of 64 (R208, R210, R213). -/
def dotFp (w a : List Num) : Num :=
  (List.range (ceilDiv w.length 64)).foldl (fun x k =>
    let pad := fun (l : List Num) => let y := (l.drop (64 * k)).take 64; y ++ List.replicate (64 - y.length) .zero
    fp32.rnd (x.add (fpBlock (pad w) (pad a)).val)) .zero

/-- One step of a row over a block's scores; `raw` gives a channel's value-pass term from the probabilities (R328). -/
def Row.visit (x : Row) (z : List Num) (flushed : Bool) (raw : (List Num) → Nat → Num) : Row :=
  let m2 := z.foldl Num.max x.m
  if m2 == .inf true then x
  else
    let k := expOf x.m m2
    let p := z.map fun v => expOf v m2
    let tree := ((treeOf addRnd 6 p).head?).getD .zero
    let u := if flushed then p.map fun v => Num.ofInt ((v.mul (.ofInt 127)).rtaClamp 0 127 0)
      else p.map fun v => bf16.rnd v
    ⟨m2, fp32.rnd ((x.l.mul k).add tree),
      (List.zip (List.range x.o.length) x.o).map fun e => fp32.rnd ((e.2.mul k).add (raw u e.1))⟩

/-- The value-pass term of a channel of a flushed block: scale times the integer sum over 127 (R327, R328). -/
def flushedRaw (d : Bytes) (b : KvBlock) (u : List Num) (c : Nat) : Num :=
  let fmt := D.aKvFmt d
  let ch := plotChannels fmt
  match b.values.getD (c / ch) none with
  | none => .zero
  | some x =>
    let vals := rawValues x
    let ui := u.map fun v => v.rtaClamp 0 127 0
    let sum := ((List.zip (List.range 64) ui).map fun e => e.2 * kvInt fmt vals ch 0 e.1 (c % ch)).foldl (· + ·) 0
    ((kvScale x (c % ch / 32)).mul (.ofInt sum)).div (.ofInt 127)

/-- A key position is visible to a lane (R329). -/
def State.visible (s : State) (r : Bytes) (p : Nat) : Bool :=
  decide (p ≤ L.position r) &&
    (L.maskAddr r == 0 || bit (s.byte (L.maskAddr r + p / 8)).toNat (p % 8)) &&
    (p < 64 * L.flushed r || (bit (L.stageMask r) (p - 64 * L.flushed r) &&
      decide (p - 64 * L.flushed r ≤ L.staged r + L.chunkLast r)))

def masked (vis : Nat → Bool) (first : Nat) (z : List Num) : List Num :=
  (List.zip (List.range z.length) z).map fun e => if vis (first + e.1) then e.2 else .inf true

/-- Where a lane's staging buffer holds row `p` of keys and of values (R343). -/
def stageRow (d r : Bytes) (hLoc p : Nat) (value : Bool) : Nat :=
  L.stageAddr r + (D.aLayer d * hLoc + D.aKvHead d) * 256 * D.aHeadDim d +
    (if value then 128 * D.aHeadDim d else 0) + 2 * D.aHeadDim d * p

/-- A lane's query rows. -/
def State.queryRow (s : State) (d : Bytes) (l i : Nat) : List Num :=
  s.bfRow (D.aQ d + l * queryBytes d + 2 * D.aHeadDim d * i) (D.aHeadDim d)

/-- The partial result of one row of a lane on a tile. -/
def State.rowPartial (s : State) (d r : Bytes) (hLoc l i : Nat) (alpha : Num) (bs : List (Block × KvBlock)) (staging : Bool) : Row :=
  let h := D.aHeadDim d
  let q := s.queryRow d l i
  let qq := quantRow .i8s q [] s.freeVal
  let x := bs.foldl (fun (x : Row) b =>
    x.visit (masked (s.visible r) (64 * b.1.j) (flushedScores d b.2 qq alpha)) true (flushedRaw d b.2)) (Row.start h)
  if !staging then x
  else
    let keys := (List.range 64).map fun t => s.bfRow (stageRow d r hLoc t false) h
    let vals := (List.range 64).map fun t => s.bfRow (stageRow d r hLoc t true) h
    let z := keys.map fun k => fp32.rnd ((dotFp k q).mul alpha)
    x.visit (masked (s.visible r) (64 * L.flushed r) z) false fun u c => dotFp (vals.map fun v => v.getD c .zero) u

/-! ### Partial records (R330) -/

/-- SEAL of the partials of this descriptor. -/
def State.sealWord (s : State) (d : Bytes) : Nat :=
  D.aLayer d + D.aKvHead d * 256 + D.aLaneSet d * 4096 + s.furrow % 65536 * 65536 + 2 ^ 32

def partialRecord (d : Bytes) (mark : Nat) (rows : List Row) : Bytes :=
  let head := leBytes 8 mark ++ List.replicate 56 0 ++
    fit 128 (rows.flatMap fun x => leBytes 4 (rnd32 x.m) ++ leBytes 4 (rnd32 x.l))
  fit (partialBytes d) (head ++ rows.flatMap fun x => encodeRow fp32 x.o)

def recordRows (d b : Bytes) : List Row :=
  (List.range (D.aQPerKv d)).map fun r =>
    ⟨dec32 (rd b (64 + 8 * r) 4), dec32 (rd b (68 + 8 * r) 4),
      (List.range (D.aHeadDim d)).map fun c => dec32 (rd b (192 + 4 * D.aHeadDim d * r + 4 * c) 4)⟩

/-- Offset of the record of lane `l` and share `i` in a partial area. -/
def partialOff (d : Bytes) (l i : Nat) : Nat :=
  ((((D.aLayer d % 2) * 4 + D.aLaneSet d) * 16 + l) * 16 + i) * partialBytes d

/-- The tile of a share index (R323). -/
def State.shareTile (s : State) (t : Bytes) (i : Nat) : Nat := (s.byte (L.tileMap t + i)).toNat % 16

/-- The lanes of a descriptor's table that ATTEND serves, with their entries. -/
def State.attendLanes (s : State) (d : Bytes) : List (Nat × Bytes) :=
  ((List.range 16).map fun l => (l, s.laneRec (D.aLaneTable d) l)).filter fun e => L.role e.2 != 0

/-- The table breaks R324: a reserved bit of a lane entry, a sampling record or the tile record is set, or a group or a chunk of a
served lane is too large. -/
def State.tableBad (s : State) (d : Bytes) : Bool :=
  let table := D.aLaneTable d
  let lanes := s.attendLanes d
  !L.tileClean (s.tileRec table) ||
    (List.range 16).any (fun l => !L.clean (s.laneRec table l) || !sampleRecClean (s.read (table + 0x800 + 128 * l) 128)) ||
    lanes.any (fun e => decide (15 < L.group e.2) || decide (63 < L.staged e.2 + L.chunkLast e.2) ||
      decide (popcount 8 (D.aEngineMask d) < (lanes.filter fun f => L.group f.2 == L.group e.2).length))

/-- Set bits of a lane's STATUS (R323). -/
def State.laneStatus (s : State) (d : Bytes) (l b : Nat) : State :=
  let a := D.aLaneTable d + 128 * l + 7
  s.writeNat a 1 ((s.byte a).toNat ||| b)

/-- A member tells the lead at once of a lane that has missed, or of a sequence with a damaged page (DESIGN CHOICE, log entry 35). -/
def State.tellLane (s : State) (i : Nat) (missed damaged : List Nat) : State :=
  if s.isLead then s else s.sendCtrl s.leadId (.tokens i s.furrow [] [] missed damaged [])

/-- A lane of an instance has missed (R352). -/
def State.noteMiss (s : State) (i set lane seqId : Nat) : State :=
  if s.srv.misses.contains (i, set, lane) then s
  else ({ s with srv := { s.srv with misses := s.srv.misses ++ [(i, set, lane)] } }).tellLane i [seqId] []

/-- A page of a sequence is damaged (R357). -/
def State.noteDamage (s : State) (i seqId : Nat) : State :=
  if s.srv.damaged.contains (i, seqId) then s
  else ({ s with srv := { s.srv with damaged := s.srv.damaged ++ [(i, seqId)] } }).tellLane i [] [seqId]

/-- A damaged key-value plot, counted once in a step, with the lane it damages (R357, R363). -/
def State.kvDamage (s : State) (n : Nat) (d r : Bytes) (l a cause index : Nat) : State :=
  let t := s.tile n
  let s := s.laneStatus d l 2
  let s := match t.inst with
    | some i => s.noteDamage i (L.seqId r)
    | none => s
  if t.damaged.contains a then s
  else
    let s := s.modTile n fun x => { x with damaged := x.damaged ++ [a] }
    let s := (s.bump (R.TILE_KV_COUNTS.DAMAGED_PLOTS n)).raise (evKvDamaged n a t.inst)
    if s.isSet (R.TILE_KV_FAULT.VALID n) then s
    else
      let s := s.put (R.TILE_KV_FAULT.CAUSE n) cause
      let s := s.putBit (R.TILE_KV_FAULT.VALID n) true
      let s := s.put (R.TILE_KV_FAULT.LANE n) l
      let s := s.put (R.TILE_KV_FAULT.LANE_SET n) (D.aLaneSet d)
      let s := s.put (R.TILE_KV_FAULT.LAYER n) (D.aLayer d)
      let s := s.put (R.TILE_KV_FAULT.KV_HEAD n) (D.aKvHead d)
      let s := s.put (R.TILE_KV_FAULT.INDEX n) index
      s.put (R.TILE_KV_FAULT_ADDR.ADDR n) a

/-- Every damaged plot of a block that a lane reads is reported. -/
def State.kvDamages (s : State) (n : Nat) (d r : Bytes) (l : Nat) (b : Block) : State :=
  let k := kvPlots (D.aKvFmt d) (D.aHeadDim d)
  ((List.range k) ++ (List.range k).map (4 + ·)).foldl (fun (s : State) p =>
    let x := s.kvPlot d b p
    let a := kvPlotAddr d b p
    match kvCause d x b.j p (s.poisoned a 4096) with
    | none => s
    | some c => s.kvDamage n d r l a c (P.index x)) s

/-! ### ATTEND -/

/-- The ranges an ATTEND reads and writes in scratchpads; pages pass their own checks. -/
def State.attendAccs (s : State) (d : Bytes) : List Acc :=
  let lanes := s.attendLanes d
  [⟨D.aLaneTable d, 0x1040, false⟩] ++
    lanes.flatMap fun e => [⟨D.aQ d + e.1 * queryBytes d, queryBytes d, false⟩,
      ⟨D.aOut d + e.1 * max (outBytes d) (partialBytes d), max (outBytes d) (partialBytes d), true⟩,
      ⟨D.aStats d + 128 * e.1, 128, true⟩]

/-- What an ATTEND reads and writes where its lane table's entries say (R26, R323, R337, R341, R343): share tables or descriptor lists,
headers in descriptor mode, masks, and the staging rows that this tile owns.  A table with a reserved bit set names nothing. -/
def State.attendReads (s : State) (d : Bytes) (hLoc : Nat) : List Acc :=
  let t := s.tileRec (D.aLaneTable d)
  let h := D.aHeadDim d
  if s.tableBad d then []
  else (s.attendLanes d).flatMap fun e =>
    let r := e.2
    let list := if D.aDescMode d then
        ⟨descAddr d r hLoc 0, 32 * L.descCount r, false⟩ :: ((List.range (L.descCount r)).filterMap (s.pageDesc d r hLoc)).map
          fun b => ⟨b.header, 32, true⟩
      else shareEntries d r t hLoc
    let mask := if L.maskAddr r == 0 then [] else [⟨L.maskAddr r, L.position r / 8 + 1, false⟩]
    let stage := if ownsBlock t (L.flushed r) then
        [⟨stageRow d r hLoc 0 false, 128 * h, false⟩, ⟨stageRow d r hLoc 0 true, 128 * h, false⟩]
      else []
    list ++ mask ++ stage

/-- A lane's new key and value rows enter its staging buffer (R326). -/
def State.stageLane (s : State) (d t : Bytes) (hLoc : Nat) (e : Nat × Bytes) : State :=
  if !ownsBlock t (L.flushed e.2) then s
  else
    let q := D.aQ d + e.1 * queryBytes d
    let w := 2 * D.aHeadDim d
    let p := L.staged e.2 + L.chunkIndex e.2
    (s.write (stageRow d e.2 hLoc p false) (s.read (q + w * D.aQPerKv d) w)).write
      (stageRow d e.2 hLoc p true) (s.read (q + w * (D.aQPerKv d + 1)) w)

/-- Query rows that are quantised and are not finite are counted (R243, R258, R327). -/
def State.nonfinite (s : State) (n : Nat) (d : Bytes) (l : Nat) : State :=
  s.bump (R.TILE_RESCALE_COUNTS.NONFINITE_ROWS n)
    ((List.range (D.aQPerKv d)).filter fun i => (s.queryRow d l i).any fun x => !x.isFinite).length

/-- Step `k` of a lane: its translation passes through the look-aside buffer, and what is damaged in the block it reads is reported.  A
lane that has met a far-tier page reads no more (R352). -/
def State.attendStep (n : Nat) (d : Bytes) (k : Nat) (s : State) (x : (Nat × Bytes) × List LaneStep) : State :=
  match x.2[k]? with
  | none => s
  | some st =>
    let s := match st.key with
      | some key => s.labUse n (L.shareTable x.1.2) key
      | none => s
    match st.block with
    | some b => if (x.2.take k).any LaneStep.far then s else s.kvDamages n d x.1.2 x.1.1 b
    | none => s

/-- A group of lanes advances in lock step, as many steps as its longest lane has (R325). -/
def State.attendGroup (s : State) (n : Nat) (d t : Bytes) (hLoc : Nat) (lanes : List (Nat × Bytes)) : State :=
  let l := lanes.map fun e => (e, (s.laneSteps n d e.2 t hLoc).filterMap id)
  (List.range ((l.map fun x => x.2.length).foldl max 0)).foldl (fun (s : State) k => l.foldl (State.attendStep n d k) s) s

/-- The partial of one lane, sent to its merge tile (R328, R330, R352). -/
def State.attendLane (s : State) (n : Nat) (d t : Bytes) (hLoc : Nat) (alpha : Num) (e : Nat × Bytes) : State :=
  let (l, r) := e
  let blank := List.replicate (D.aQPerKv d) (Row.start (D.aHeadDim d))
  let (s, rows) := match s.blocks n d r t hLoc with
    | .ok bs =>
      let kv := bs.map fun b => (b, s.kvBlock d b)
      (if bs.isEmpty then s else s.nonfinite n d l,
        (List.range (D.aQPerKv d)).map fun i => s.rowPartial d r hLoc l i alpha kv (ownsBlock t (L.flushed r)))
    | _ =>
      let s := (s.laneStatus d l 1).bump (R.TILE_KV_COUNTS.MISS_LANES n)
      (match (s.tile n).inst with
        | some i => s.noteMiss i (D.aLaneSet d) l (L.seqId r)
        | none => s, blank)
  let m := s.shareTile t (l % L.shares t)
  let area := scratchBase m + (L.partialAddr t - scratchBase n)
  s.write (area + partialOff d l (L.shareIndex t)) (partialRecord d (s.sealWord d) rows)

/-- An ATTEND's own slots of the engines it holds, 48 to 63, are left cleared (R216): what they hold while it computes is read by nothing
else. -/
def State.clearAttendSlots (s : State) (n mask : Nat) : State :=
  (bitList 8 mask).foldl (fun (s : State) e =>
    (List.range 16).foldl (fun (s : State) k => s.setSlot n e (48 + k) Slot.clear) s) s

/-- The address of a page descriptor that names reserved or unmapped memory (R26), if some lane has one. -/
def State.badPage (s : State) (d : Bytes) (hLoc : Nat) (lanes : List (Nat × Bytes)) : Option Nat :=
  if !D.aDescMode d then none
  else lanes.findSome? fun e => ((List.range (L.descCount e.2)).map fun k => s.readNat (descAddr d e.2 hLoc k) 8).find? fun a => !s.mapped a

/-- The work of an ATTEND whose operands may be read: every lane is staged, then summed; its partials wait for the merge where this
tile merges one (R322, R324). -/
def State.attendRun (s : State) (n hLoc : Nat) (h : Queued) : State :=
  let d := h.desc
  let t := s.tileRec (D.aLaneTable d)
  let lanes := s.attendLanes d
  let bad := lanes.any fun e => match s.blocks n d e.2 t hLoc with
    | .bad => true
    | _ => false
  match s.badPage d hLoc lanes with
  | some a => s.failEvent n 9 (evAddressError n a (s.tile n).inst)
  | none =>
    if s.tableBad d || bad then s.failHead n 9 .failStep
    else
      let s := lanes.foldl (fun (s : State) e => s.stageLane d t hLoc e) s
      let s := (List.range 16).foldl (fun (s : State) g =>
        s.attendGroup n d t hLoc (lanes.filter fun e => L.group e.2 == g)) s
      let s := lanes.foldl (fun (s : State) e => s.attendLane n d t hLoc (dec32 (h.scalarA % 2 ^ 32)) e) s
      let s := s.draw.clearAttendSlots n (D.aEngineMask d)
      if lanes.any fun e => e.1 % L.shares t == L.shareIndex t then
        s.setHead n 9 { h with started := true, waiting := true }
      else s.complete n 9

/-- Reports of the engines an ATTEND uses: their stalls and corrected errors (R226, R227). -/
def State.attendCounts (s : State) (n mask : Nat) (reps : List (Nat × EngineReport)) : State :=
  (reps.filter fun e => bit mask e.1).foldl (fun (s : State) e => s.engineCounts n e.1 e.2) s

/-- What the engines and the memories report under an ATTEND is counted (R226, R285). -/
def State.attendReport (s : State) (n clocks mask : Nat) (reps : List (Nat × EngineReport)) (mem : MemReport) : State :=
  ((s.memReport srcAttention mem).wrapAdd (R.TILE_VEC_STALLS.ATTEND_CLOCKS n) clocks).attendCounts n mask reps

/-- An ATTEND's lanes, where its places are a scratchpad's and what it reads lets it go on. -/
def State.attendGo (s : State) (n : Nat) (h : Queued) : State :=
  s.scratched n 9 (s.attendAccs h.desc) fun s =>
    s.gated n 9 (s.attendReads h.desc (s.headsOf (s.tile n).inst)) fun s => s.attendRun n (s.headsOf (s.tile n).inst) h

/-- ATTEND (R325 to R330): the head of the attention queue computes this tile's partials, and waits where it merges.  An engine's fault
under it names the first of its own slots, 48 (DESIGN CHOICE, log entry 30). -/
def State.attend (s : State) (n clocks : Nat) (reps : List (Nat × EngineReport)) (mem : MemReport) : State :=
  match s.runnable n 9 tAttend with
  | none => s
  | some h =>
    let mask := D.aEngineMask h.desc
    let busy := (bitList 8 mask).any fun e => match s.queue n e with
      | [] => false
      | x :: _ => x.started
    if busy then s
    else match reps.find? fun e => bit mask e.1 && e.2.fault != 0 with
      | some e => (s.attendReport n clocks mask reps mem).engineFault n 9 e.1 e.2.fault 48 h
      | none => (s.attendReport n clocks mask reps mem).attendGo n h

/-! ### The merge (R331, R332) -/

/-- Two partials of a row folded, each scaled by the e of its difference from the greater maximum; of equal ones 1.0 (R276, R331;
DEDUCED, log entry 130). -/
def Row.fold (a b : Row) : Row :=
  let m := a.m.max b.m
  if m == .inf true then ⟨m, .zero, a.o.map fun _ => .zero⟩
  else
    let ca := expDiff a.m m
    let cb := expDiff b.m m
    ⟨m, fp32.rnd ((a.l.mul ca).add (b.l.mul cb)),
      List.zipWith (fun x y => fp32.rnd ((x.mul ca).add (y.mul cb))) a.o b.o⟩

/-- Whether everything a lane's merge needs is present. -/
def State.mergeReady (s : State) (n : Nat) (d t : Bytes) (hLoc l : Nat) : Bool :=
  ((List.range (L.shares t)).all fun i => s.readNat (L.partialAddr t + partialOff d l i) 8 == s.sealWord d) &&
    (!L.ringEn t || L.ringPos t == 0 ||
      decide ((D.aLayer d * hLoc + D.aKvHead d) * s.laneSets + D.aLaneSet d + 1 ≤ s.event n (L.ringCtr t)))

/-- A lane's pieces folded and written. -/
def State.mergeLane (s : State) (d t : Bytes) (l : Nat) : State :=
  let own := (List.range (L.shares t)).map fun i => recordRows d (s.read (L.partialAddr t + partialOff d l i) (partialBytes d))
  let pieces := if L.ringEn t && L.ringPos t != 0
    then recordRows d (s.read (L.ringIn t + l * partialBytes d) (partialBytes d)) :: own else own
  let rows := match pieces with
    | [] => []
    | p :: rest => rest.foldl (fun a b => List.zipWith Row.fold a b) p
  if !L.ringEn t || L.ringPos t + 1 == L.ring t then
    let out := rows.flatMap fun x => encodeRow bf16 (if x.l.isZero then x.o.map fun _ => .zero else x.o.map fun v => v.div x.l)
    let stats := rows.flatMap fun x => leBytes 4 (rnd32 x.m) ++ leBytes 4 (rnd32 x.l)
    (s.write (D.aOut d + l * outBytes d) out).write (D.aStats d + 128 * l) stats
  else s.write (D.aOut d + l * partialBytes d) (partialRecord d (s.sealWord d) rows)

/-- ATTEND_MERGE: once every lane this tile merges is ready, the results are written and the ATTEND completes. -/
def State.attendMerge (s : State) (n : Nat) (mem : MemReport) : State :=
  match s.queue n 9 with
  | [] => s
  | h :: _ =>
    let d := h.desc
    let t := s.tileRec (D.aLaneTable d)
    let hLoc := s.headsOf (s.tile n).inst
    let mine := (s.attendLanes d).filter fun e => e.1 % L.shares t == L.shareIndex t
    if h.waiting && D.type d == tAttend && mine.all fun e => s.mergeReady n d t hLoc e.1 then
      (mine.foldl (fun (s : State) e => s.mergeLane d t e.1) (s.memReport srcAttention mem)).complete n 9
    else s

/-- ATTEND (R328). -/
def execAttend (tile clocks : Nat) (reports : List (Nat × EngineReport) × MemReport) (s : State) : Answered :=
  s.whenAlive fun s => s.attend tile clocks reports.1 reports.2

/-- The merge inside an ATTEND (R331). -/
def execAttendMerge (run : Nat × MemReport) (s : State) : Answered := s.whenAlive fun s => s.attendMerge run.1 run.2

end Sys2Proof.Machine
end

