-- ==== Sys2Proof/Machine/Package.lean ====
section
/-!
DEFINITION. On-package memory's own commands (R370 to R380, spec/11_on_package_memory.md): segment power, scrubbing, and
the control cores' accesses to homed lines.
-/

namespace Sys2Proof.Machine

/-! ### Extents -/

/-- Ranges of this device that an instance occupies: what its image places and reserves. -/
def Inst.extents (x : Inst) (self : Nat) : List (Nat × Nat) :=
  ((x.image.placed.filter fun e => e.device == self).map fun e => (e.addr, e.bytes.length)) ++
    (((x.image.adapterStore ++ x.image.shareArea ++ x.image.stagingArea).filter fun e => e.device == self).map fun e =>
      (e.addr, e.len))

/-- The instances of the active and the staged configuration on this device. -/
def State.instsHere (s : State) : List Inst :=
  ((s.cfg.instA ++ s.cfg.instS).filterMap Prod.snd).filter fun x => bit x.mask s.self

/-- A pool of a partition with its header shadow (R339). -/
def State.poolSpan (s : State) (n tier : Nat) : Nat × Nat :=
  let p := s.pool n tier
  (p.1, p.2 * 16384 + p.2 * 256)

/-- Whether a segment holds what may not lose power (R374). -/
def State.segHeld (s : State) (g : Seg) : Bool :=
  let meets := fun (r : Nat × Nat) => overlap r.1 r.2 g.base g.size
  if g.sp then s.instsHere.any fun x => x.uses s.self g.tile
  else
    g.idx == 0 || meets (tileStoreBase g.tile + 0x10000000 - s.granaryBytes g.tile, s.granaryBytes g.tile) ||
      meets (s.poolSpan g.tile 0) || s.instsHere.any fun x => (x.extents s.self).any meets

/-- Number of a segment in the tile's lists. -/
def Seg.no (g : Seg) : Nat := if g.sp then 16 + g.idx else g.idx

/-- A segment loses power: its data are lost (R372). -/
def State.segLose (s : State) (g : Seg) : State := (s.setSeg g segOff).zero g.base g.size

/-- An allowed request for a segment (R373). -/
def State.segGo (s : State) (g : Seg) (want : Nat) : State :=
  let cur := s.segState g
  if cur == segWaking then s.modTile g.tile fun t => { t with segPend := Table.insert g.no (some want) t.segPend }
  else if want == cur then s
  else if want == segOff then s.segLose g
  else if want == segRetain then if cur == segOn then s.setSeg g segRetain else s
  else
    let s := if cur == segOff then s.modTile g.tile fun t => { t with fromOff := t.fromOff ++ [g.no] } else s
    s.setSeg g segWaking

/-- A request for a segment: a reserved encoding and a refused one keep the field's value (R12, R373, R374). -/
def State.segAsk (s : State) (g : Seg) (want : Nat) : State :=
  if want == 3 then s
  else if want == segOff && s.segHeld g then s.bump (R.TSTORE_ATOM_EVENTS.SEG_REFUSED g.tile)
  else (s.put g.asked (setBits (s.get g.asked) (2 * g.idx) 2 want)).segGo g want

/-- A write of SEG_POWER (R373). -/
def State.segPower (s : State) (n ts sp : Nat) : State :=
  let s := (List.range 16).foldl (fun (s : State) i => s.segAsk ⟨n, false, i⟩ (bits ts (2 * i) 2)) s
  (List.range 8).foldl (fun (s : State) i => s.segAsk ⟨n, true, i⟩ (bits sp (2 * i) 2)) s

/-- A wake ends: the segment is ON, and a request made meanwhile takes effect (R372, R373); from OFF every word is zero. -/
def State.segWoken (s : State) (g : Seg) (off : Bool) : State :=
  let t := s.tile g.tile
  if s.segState g != segWaking || t.fromOff.contains g.no != off then s
  else
    let pend := Table.get none g.no t.segPend
    let s := s.modTile g.tile fun t =>
      { t with fromOff := t.fromOff.filter fun x => x != g.no, segPend := Table.erase g.no t.segPend }
    let s := if off then s.zero g.base g.size else s
    let s := s.setSeg g segOn
    match pend with
    | some w => s.segGo g w
    | none => s

/-! ### Scrubbing (R371) -/

/-- The scrubber reads its next word, unless its segment is not ON or it belongs to the Granary. -/
def State.scrub (s : State) (n : Nat) (sp : Bool) (found : Option Bool) : State :=
  let o := if sp then (s.tile n).scrubSp else (s.tile n).scrubTs
  let size := if sp then 0x2000000 else 0x10000000
  let a := (if sp then scratchBase n else tileStoreBase n) + o
  let set := fun (s : State) (o : Nat) => s.modTile n fun t => if sp then { t with scrubSp := o % size } else { t with scrubTs := o % size }
  let g : Seg := ⟨n, sp, o / (if sp then 0x400000 else 0x1000000)⟩
  if s.segState g != segOn then set s ((g.idx + 1) * (if sp then 0x400000 else 0x1000000))
  else if !sp && decide (0x10000000 ≤ o + s.granaryBytes n) then set s 0
  else
    let s := match found with
      | none => s
      | some c =>
        let s := s.eccEvent srcScrubber (a, c)
        if c then s else s.raise (evLatentPoison n n a)
    set s (o + 64)

/-! ### Control-core accesses to lines (R377 to R380) -/

/-- Perform a waiting access on the line that is present. -/
def State.granaryPerform (s : State) (n line : Nat) (a : GAccess) : State :=
  match a with
  | .read addr =>
    let s := s.useLine n line false
    if s.poisoned line 64 then s.emit (.coreFault addr false) else s
  | .write addr bs => (s.write addr bs).useLine n line true
  | .atom w c op addr wide data cmp => s.atomPerform n w c op addr wide data cmp

/-- A control core reads or writes an address that no Granary holds (R26, R370, R375, R377): unmapped, in a segment that is OFF, or
poisoned when read, it faults; a segment in RETAIN wakes. -/
def State.coreDirect (s : State) (addr : Nat) (write : Option Bytes) : State :=
  if !s.mapped addr then s.emit (.coreFault addr write.isSome)
  else
    match (segOf addr).filter fun g => s.segState g == segOff with
    | some g => (s.bump (R.TSTORE_WAKE_COUNTS.OFF_ACCESSES g.tile)).emit (.coreFault addr write.isSome)
    | none =>
      let s := match segOf addr with
        | some g => s.wake g
        | none => s
      match write with
      | some bs => s.write addr bs
      | none => if s.poisoned (addr / 64 * 64) 64 then s.emit (.coreFault addr false) else s

/-- A control core reads or writes within one line (R377): an absent line is fetched first, and the access waits. -/
def State.granaryAccess (s : State) (addr : Nat) (write : Option Bytes) (tagFault : Bool) : State :=
  let line := addr / 64 * 64
  let bs := (write.getD []).take (64 - addr % 64)
  match s.cacheHome addr with
  | none => s.coreDirect addr (write.map fun _ => bs)
  | some n =>
    let s := if tagFault then s.tagError n line else s
    let a : GAccess := match write with
      | some _ => .write addr bs
      | none => .read addr
    if (s.tile n).fills.any fun e => e.1 == line then s.modTile n fun t => { t with fills := t.fills ++ [(line, a)] }
    else
      match s.lookup n line with
      | (s, true) => s.granaryPerform n line a
      | (s, false) => s.modTile n fun t => { t with fills := t.fills ++ [(line, a)] }

/-- A fill returns: the line enters, and what waited for it is performed in order (R379, R380). -/
def State.fillDone (s : State) (n line : Nat) (poison : Bool) : State :=
  let l := (s.tile n).fills.filter fun e => e.1 == line
  if l.isEmpty then s
  else
    let s := s.modTile n fun t => { t with fills := t.fills.filter fun e => e.1 != line }
    let s := (if poison && decide (farBase ≤ line) then s.poisonRange line 64 else s).countFarPoison line 64
    let s := s.install n line false
    l.foldl (fun (s : State) e => s.granaryPerform n line e.2) s

/-! ### The commands -/

/-- A write of SEG_POWER: its TS and SP fields (R373). -/
def execSegPowerWrite (tile ts sp : Nat) (s : State) : Answered := s.whenAlive fun s => s.segPower tile ts sp

/-- A wake from RETAIN ends (R372); segments from 16 are the scratchpad's. -/
def execSegmentWakeDone (tile segment : Nat) (s : State) : Answered :=
  s.whenAlive fun s => s.segWoken ⟨tile, decide (16 ≤ segment), segment % 16⟩ false

/-- A segment is ON after OFF (R373). -/
def execSegmentOnDone (tile segment : Nat) (s : State) : Answered :=
  s.whenAlive fun s => s.segWoken ⟨tile, decide (16 ≤ segment), segment % 16⟩ true

/-- The scrubber's next read, and what it found: an error corrected, or not (R371). -/
def execScrub (tile : Nat) (scratch : Bool) (found : Option Bool) (s : State) : Answered :=
  s.whenAlive fun s => s.scrub tile scratch found

/-- A control core's access to stack memory or the far tier (R377), with an uncorrectable tag error or not (R376). -/
def execGranaryAccess (addr : Nat) (write : Option Bytes) (tagFault : Bool) (s : State) : Answered :=
  s.whenAlive fun s => s.granaryAccess addr write tagFault

/-- A fill returns (R380), poisoned by an expander or not (R499). -/
def execGranaryFillDone (tile line : Nat) (poison : Bool) (s : State) : Answered :=
  s.whenAlive fun s => s.fillDone tile (line / 64 * 64) poison

end Sys2Proof.Machine
end

