-- ==== Sys2Proof/Machine/Pages.lean ====
section
/-!
DEFINITION. Key-value pages (R337 to R339, R346 to R350, spec/10_attention_and_kv.md): where a member keeps the pages of its
sequences, the reference words, sharing and copying, and the ranges of stack memory the firmware uses for itself.
-/

namespace Sys2Proof.Machine

/-! ### Geometry -/

/-- What an instance fixes of its key-value state on this device: layers, local heads, format, channels, ring and position in
it, serving tiles by share index, and the image's watermark. -/
structure Geo where
  layers : Nat
  hLoc : Nat
  fmt : Nat
  dim : Nat
  ring : Nat
  pos : Nat
  serving : List Nat
  watermark : Nat

def Inst.geo (x : Inst) (self : Nat) : Geo :=
  let m := x.image
  ⟨m.layers, m.hLoc, m.kvFmt, m.headDim, max 1 m.ring, (bitList 64 x.mask).idxOf self % max 1 m.ring, m.serving, m.watermark⟩

def Geo.shares (g : Geo) : Nat := max 1 g.serving.length
def Geo.slot (g : Geo) : Nat := slotBytes g.fmt g.dim
/-- Plots of a key or a value half of a block. -/
def Geo.plots (g : Geo) : Nat := kvPlots g.fmt g.dim
/-- J_t of R337. -/
def Geo.blocks (g : Geo) (maxLen : Nat) : Nat := ceilDiv (ceilDiv maxLen 64) (g.ring * g.shares)
/-- 16 KiB granules of a share region. -/
def Geo.granules (g : Geo) (maxLen : Nat) : Nat := ceilDiv (g.layers * g.hLoc * g.blocks maxLen * g.slot) 16384
/-- SIZE of its pages: the smallest that holds a slot. -/
def Geo.size (g : Geo) : Nat := if g.slot ≤ 16384 then 0 else 1
def Geo.pageBytes (g : Geo) : Nat := 16384 * 2 ^ g.size
/-- Offset in the share region of the block of layer and head `x` with share-local index `i`. -/
def Geo.offset (g : Geo) (maxLen x i : Nat) : Nat := (x * g.blocks maxLen + i) * g.slot
/-- Where block `j` lies here: share index and share-local index (R321). -/
def Geo.home (g : Geo) (j : Nat) : Option (Nat × Nat) :=
  if j % g.ring == g.pos then some (j / g.ring % g.shares, j / (g.ring * g.shares)) else none
/-- Bytes of a staging buffer (R343), and of one (layer, head) of it. -/
def Geo.stagePart (g : Geo) : Nat := 256 * g.dim
def Geo.stageBytes (g : Geo) : Nat := g.layers * g.hLoc * g.stagePart
def Geo.tileOf (g : Geo) (share : Nat) : Nat := g.serving.getD share 0

/-- The geometry of an active instance that has this device. -/
def State.geo (s : State) (i : Nat) : Option Geo :=
  match Table.get none i s.cfg.instA with
  | some x => if bit x.mask s.self then some (x.geo s.self) else none
  | none => none

/-! ### Room -/

/-- The lowest aligned place of `size` bytes in a range that meets none of the ranges used. -/
def firstFit (base len size align : Nat) (used : List (Nat × Nat)) : Option Nat :=
  let up := fun (a : Nat) => ceilDiv a align * align
  let fits := fun (a : Nat) => decide (base ≤ a ∧ a + size ≤ base + len) && used.all fun u => !overlap a size u.1 u.2
  let cands := ((used.map fun u => up (u.1 + u.2)) ++ [up base]).filter fits
  match cands with
  | [] => none
  | c :: rest => some (rest.foldl min c)

/-- The ranges of a partition's stack that something occupies. -/
def State.stackUsed (s : State) (n : Nat) : List (Nat × Nat) :=
  let refs := ((List.range 3).map fun t => (s.pool n t).2).sum * 4
  (s.instsHere.flatMap fun x => x.extents s.self) ++
    [s.poolSpan n 1, (s.get (R.TILE_KV_REF.ADDR n) * 64, refs)] ++ s.kv.own

/-- A range of a partition's stack memory for the firmware's own use. -/
def State.ownAlloc (s : State) (n size : Nat) : Option (State × Nat) :=
  (firstFit (stackBase n) 0xC00000000 size 64 (s.stackUsed n)).map fun a =>
    ({ s with kv := { s.kv with own := s.kv.own ++ [(a, size)] } }, a)

def State.ownFree (s : State) (a : Nat) : State :=
  { s with kv := { s.kv with own := s.kv.own.filter fun r => r.1 != a } }

/-- The reserve an image makes on a tile of this device. -/
def reserveOn (l : List Reserve) (self n : Nat) : Nat × Nat :=
  match l.find? fun r => r.device == self && r.tile == n with
  | some r => (r.addr, r.len)
  | none => (0, 0)

/-! ### Reference words (R339, R346) -/

/-- Address of the reference word of a page. -/
def State.refAddr (s : State) (n tier addr : Nat) : Nat :=
  let before := ((List.range tier).map fun t => (s.pool n t).2).sum
  s.get (R.TILE_KV_REF.ADDR n) * 64 + 4 * (before + (addr - (s.pool n tier).1) / 16384)

/-- An atomic operation of the Granary on a page's reference word (R339, R382): its line is brought in where it is absent (R377). -/
def State.refOp (s : State) (n tier addr op data cmp : Nat) : State × AtomResult :=
  let a := s.refAddr n tier addr
  let r := atomOp op 32 (s.readNat a 4) data cmp
  let s := match s.cacheHome a with
    | none => s
    | some h => match s.lookup h (a / 64 * 64) with
      | (s, true) => s
      | (s, false) => s.install h (a / 64 * 64) false
  (s.atomPerform n false 0 op a false data cmp, r)

/-- Read a page's reference word: an addition of 0. -/
def State.refRead (s : State) (n tier addr : Nat) : State × Nat :=
  let (s, r) := s.refOp n tier addr 0x1 0 0
  (s, r.new)

/-- Give a page's reference word a value: a compare-and-swap with what it holds. -/
def State.setRef (s : State) (n tier addr v : Nat) : State :=
  let (s, w) := s.refRead n tier addr
  (s.refOp n tier addr 0x6 v w).1

/-! ### Entries -/

namespace Pte
/-- An entry (R338). -/
def make (cow pinned : Bool) (tier size fmt addr : Nat) : Nat :=
  1 + 2 * b2n cow + 4 * b2n pinned + 8 * tier + 32 * size + 256 * fmt + addr
def pinned (e : Nat) : Bool := bit e 2
/-- Whether an entry names a page. -/
def names (e addr : Nat) : Bool := valid e && Pte.addr e == addr
end Pte

/-- The entry of a granule of a share table. -/
def State.pte (s : State) (table g : Nat) : Nat := s.readNat (table + 8 * g) 8

/-- Write the entries of every granule of the page whose first granule is `g`. -/
def State.setPtes (s : State) (table g size e : Nat) : State :=
  (List.range (2 ^ size)).foldl (fun (s : State) k => s.writeNat (table + 8 * (g + k)) 8 e) s

/-- The share tables on a tile: address and granules. -/
def State.tablesOn (s : State) (n : Nat) : List (Nat × Nat) :=
  s.kv.files.flatMap fun e => match e.2 with
    | none => []
    | some f => match s.geo f.inst with
      | none => []
      | some g => (f.tables.filter fun t => t.1 == n).map fun t => (t.2, g.granules f.maxLen)

/-- Change every entry of a page, in the share tables and in the handles (R346, R350). -/
def State.mapEntries (s : State) (n addr : Nat) (f : Nat → Nat) : State :=
  let s := (s.tablesOn n).foldl (fun (s : State) (t : Nat × Nat) =>
    (List.range t.2).foldl (fun (s : State) g =>
      if Pte.names (s.pte t.1 g) addr then s.writeNat (t.1 + 8 * g) 8 (f (s.pte t.1 g)) else s) s) s
  let go := fun (h : KvHandle) => { h with tables := h.tables.map fun (t : Nat × List Nat) =>
    if t.1 == n then (t.1, t.2.map fun e => if Pte.names e addr then f e else e) else t }
  { s with kv := { s.kv with handles := s.kv.handles.map fun e => (e.1, e.2.map go) } }

/-! ### Pages -/

/-- The pages of a pool, as ranges; the targets of copies count. -/
def State.poolUsed (s : State) (n tier : Nat) : List (Nat × Nat) :=
  ((s.kv.pages.filter fun p => p.tile == n && p.tier == tier).map fun p => (p.addr, 16384 * 2 ^ p.size)) ++
    ((s.kv.copies.filter fun c => c.page.tile == n && c.tier == tier).map fun c => (c.addr, 16384 * 2 ^ c.page.size))

/-- A place for a page in a pool. -/
def State.pagePlace (s : State) (n tier size : Nat) : Option Nat :=
  let p := s.pool n tier
  firstFit p.1 (p.2 * 16384) (16384 * 2 ^ size) (16384 * 2 ^ size) (s.poolUsed n tier)

/-- Free granules of a pool. -/
def State.poolFree (s : State) (n tier : Nat) : Nat :=
  (s.pool n tier).2 - ((s.poolUsed n tier).map fun r => r.2 / 16384).sum

/-- Bytes of stack-pool pages charged to a tenant on this device (R349). -/
def State.stackBytes (s : State) (tenant : Nat) : Nat :=
  ((s.kv.pages.filter fun p => p.tier == 1 && p.tenant == tenant).map fun p => 16384 * 2 ^ p.size).sum

/-- Bytes of stack-pool pages charged to a tenant on every member, as the lead knows them: its own, and what the others told in their
last acknowledgement of a lane table (DESIGN CHOICE, log entry 33). -/
def State.tenantBytes (s : State) (tenant : Nat) : Nat :=
  s.stackBytes tenant + ((s.srv.farUse.filter fun e => e.1 % 1024 == tenant).map Prod.snd).sum

/-- Whether a tenant's stack-memory quota takes `n` bytes more (R91, R349): the lead holds the tenant table; a member goes by the tenants
that the last lane table named exhausted (log entry 33). -/
def State.quotaTakes (s : State) (tenant n : Nat) : Bool :=
  match Table.get none tenant s.srv.tenants with
  | some t => decide (s.tenantBytes tenant + n ≤ t.quota)
  | none => !s.isLead && !s.srv.full.contains tenant

/-- A new page of a tile in a tier, with its word at 1 reference (R346).  The quota of a dawn sequence is judged whole, at SEQ_OPEN
(R92). -/
def State.pageIn (s : State) (n tier size tenant : Nat) (dawn : Bool) : Option (State × Nat) :=
  if tier == 1 && !dawn && !s.quotaTakes tenant (16384 * 2 ^ size) then none
  else
    (s.pagePlace n tier size).map fun a =>
      let s := { s with kv := { s.kv with pages := s.kv.pages ++ [(⟨n, tier, a, size, tenant, s.furrow⟩ : KvPage)] } }
      (s.setRef n tier a (if dawn then 0x00010001 else 1), a)

/-- A new page where R349 puts it: address and tier. -/
def State.newPage (s : State) (n size tenant : Nat) (dawn : Bool) (watermark : Nat) : Option (State × Nat × Nat) :=
  let ts := if !dawn && decide (watermark + 2 ^ size ≤ s.poolFree n 0) then s.pageIn n 0 size tenant dawn else none
  match ts with
  | some (s, a) => some (s, a, 0)
  | none => (s.pageIn n 1 size tenant dawn).map fun x => (x.1, x.2, 1)

/-- A page is freed: at once, or at the first headland after the copy in flight ends (R348). -/
def State.freePage (s : State) (n addr : Nat) : State :=
  if s.kv.copies.any fun c => c.page.tile == n && c.page.addr == addr then
    { s with kv := { s.kv with copies := s.kv.copies.map fun c =>
        if c.page.tile == n && c.page.addr == addr then { c with doomed := true } else c } }
  else { s with kv := { s.kv with pages := s.kv.pages.filter fun p => !(p.tile == n && p.addr == addr) } }

/-- What a reference adds to or takes from a word (R346, R383). -/
def refData (dawn : Bool) : Nat := if dawn then 0x00010001 else 1

/-- Drop a reference on the page of an entry (R346): REF_DEC, which a word that holds none refuses (R383). -/
def State.dropRef (s : State) (n e : Nat) (dawn : Bool) : State :=
  let a := Pte.addr e
  let (s, r) := s.refOp n (Pte.tier e) a 0x8 (refData dawn) 0
  if r.cause.isSome then s
  else if r.zero then s.freePage n a
  else if r.new / 0x10000 == 0 then s.mapEntries n a fun e => setBit e 2 false
  else s

/-- Take a reference on the page of an entry (R346): REF_INC, which a full word refuses (R383). -/
def State.takeRef (s : State) (n e : Nat) (dawn : Bool) : State :=
  let a := Pte.addr e
  let (s, r) := s.refOp n (Pte.tier e) a 0x7 (refData dawn) 0
  if r.cause.isSome then s
  else
    let s := if r.wasZero then s else s.mapEntries n a fun e => setBit e 1 true
    if 0x10000 ≤ r.new then s.mapEntries n a fun e => setBit e 2 true else s

/-- The distinct pages of a list of entries. -/
def pagesOf (es : List Nat) : List Nat :=
  es.foldl (fun (l : List Nat) e => if Pte.valid e && !(l.any fun x => Pte.addr x == Pte.addr e) then l ++ [e] else l) []

/-- Copy bytes with the poison of their lanes. -/
def State.copyBytes (s : State) (src dst n : Nat) : State :=
  let bad := (List.range (ceilDiv n 64)).filter fun i => s.poisoned (src + 64 * i) (min 64 (n - 64 * i))
  let s := s.write dst (s.read src n)
  bad.foldl (fun (s : State) i => s.poisonRange (dst + 64 * i) (min 64 (n - 64 * i))) s

/-- Copy `len` bytes of slots from one page to another, with their headers (R347). -/
def State.copySlots (s : State) (n tierA a tierB b len : Nat) : State :=
  let s := s.copyBytes a b len
  s.copyBytes (headerOf (s.pool n tierA) a) (headerOf (s.pool n tierB) b) (len / 64)

/-! ### Files and handles -/

def State.file? (s : State) (slot : Nat) : Option KvFile := Table.get none slot s.kv.files

def State.setFile (s : State) (slot : Nat) (f : Option KvFile) : State :=
  { s with kv := { s.kv with files := Table.set none slot f s.kv.files } }

/-- The ranges of an instance's share areas or staging areas in use on a tile. -/
def State.shareUsed (s : State) (n : Nat) : List (Nat × Nat) := (s.tablesOn n).map fun t => (t.1, 8 * t.2)

def State.stageUsed (s : State) (n : Nat) : List (Nat × Nat) :=
  s.kv.files.filterMap fun e => match e.2 with
    | none => none
    | some f => match f.stage, s.geo f.inst with
      | some (t, a), some g => if t == n then some (a, g.stageBytes) else none
      | _, _ => none

/-- Put a share table of zeros on every serving tile. -/
def State.newTables (s : State) (areas : List Reserve) (g : Geo) (maxLen : Nat) : List Nat → Option (State × List (Nat × Nat))
  | [] => some (s, [])
  | n :: rest =>
    let r := reserveOn areas s.self n
    let size := 8 * g.granules maxLen
    match firstFit r.1 r.2 size 64 (s.shareUsed n) with
    | none => none
    | some a => (State.newTables (s.zero a size) areas g maxLen rest).map fun x => (x.1, (n, a) :: x.2)

/-- A handle's block on a tile, by its layer and head `x` and share-local index `i`: its entry and its slot. -/
def KvHandle.slot (h : KvHandle) (g : Geo) (share x i : Nat) : Nat × Nat :=
  let off := g.offset h.maxLen x i
  let e := ((h.tables.getD share (0, [])).2).getD (off / 16384) 0
  (e, Pte.addr e + off % Pte.bytes e)

/-- A private copy of a slot in a table: its page is allocated where there is none. -/
def State.privateSlot (s : State) (n table off size tenant fmt watermark : Nat) (dawn : Bool) : Option (State × Nat) :=
  let gr := off / 16384 / 2 ^ size * 2 ^ size
  let e := s.pte table gr
  if Pte.valid e then some (s, Pte.addr e + off % Pte.bytes e)
  else
    (s.newPage n size tenant dawn watermark).map fun (x : State × Nat × Nat) =>
      (x.1.setPtes table gr size (Pte.make false dawn x.2.2 size fmt x.2.1), x.2.1 + off % (16384 * 2 ^ size))

/-- Whether two maximum lengths lay the blocks of a share region out in the same pages: a page that holds several block slots (R338) then
lies alike in both (R337). -/
def Geo.alike (g : Geo) (a b : Nat) : Bool :=
  let r := g.pageBytes / g.slot
  g.blocks a == g.blocks b || (g.blocks a % r == 0 && g.blocks b % r == 0)

/-- Give a new sequence's table the blocks of a handle (R101): the handle's pages by reference where both layouts place them
alike, else copies of their slots (DESIGN CHOICE, log entry 34). -/
def State.shareBlocks (s : State) (h : KvHandle) (g : Geo) (f : KvFile) (share n table : Nat) (x i : Nat) : Option State :=
  let (e, src) := h.slot g share x i
  let off := g.offset f.maxLen x i
  if g.alike h.maxLen f.maxLen then
    let gr := off / 16384 / 2 ^ g.size * 2 ^ g.size
    if Pte.valid (s.pte table gr) then some s
    else some ((s.setPtes table gr g.size e).takeRef n e f.dawn)
  else
    (s.privateSlot n table off g.size f.tenant g.fmt g.watermark f.dawn).map fun y =>
      y.1.copySlots n (Pte.tier e) src (Pte.tier (y.1.pte table (off / 16384))) y.2 g.slot

/-- Run a step that may fail over a list. -/
def tryAll {α β : Type} (f : α → β → Option α) : α → List β → Option α
  | a, [] => some a
  | a, b :: rest => match f a b with
    | some a => tryAll f a rest
    | none => none

/-- Every layer and head with every share-local index that a tile has of the first `n` blocks. -/
def Geo.places (g : Geo) (share n : Nat) : List (Nat × Nat) :=
  let is := (List.range n).filterMap fun j => match g.home j with
    | some (t, i) => if t == share then some i else none
    | none => none
  (List.range (g.layers * g.hLoc)).flatMap fun x => is.map fun i => (x, i)

/-- Open the member's side of a sequence (R91, R92, R101): tables, the handle's pages, and the pinned pages of a dawn sequence;
`none`: no room. -/
def State.openFile (s : State) (slot : Nat) (f : KvFile) (h : Option KvHandle) : Option State :=
  match Table.get none f.inst s.cfg.instA with
  | none => none
  | some x =>
    if !bit x.mask s.self then some s
    else
      let g := x.geo s.self
      match s.newTables x.image.shareArea g f.maxLen g.serving with
      | none => none
      | some (s, tables) =>
        let f := { f with tables := tables }
        let s := s.setFile slot (some f)
        let shared : Option State := match h with
          | none => some s
          | some h => tryAll (fun (s : State) (t : Nat × Nat × Nat) =>
              tryAll (fun (s : State) (p : Nat × Nat) => s.shareBlocks h g f t.1 t.2.1 t.2.2 p.1 p.2) s (g.places t.1 (h.len / 64)))
              s (List.zip (List.range tables.length) tables)
        match shared with
        | none => none
        | some s =>
          if !f.dawn then some s
          else tryAll (fun (s : State) (t : Nat × Nat × Nat) =>
            tryAll (fun (s : State) (p : Nat × Nat) =>
              (s.privateSlot t.2.1 t.2.2 (g.offset f.maxLen p.1 p.2) g.size f.tenant g.fmt g.watermark true).map Prod.fst)
              s (g.places t.1 (ceilDiv f.maxLen 64))) s (List.zip (List.range tables.length) tables)

/-- Stack-pool bytes that a dawn sequence reserves on a device beyond the pages of the `len` tokens it shares (R92). -/
def Geo.reserve (g : Geo) (maxLen len : Nat) : Nat :=
  ((List.range g.serving.length).map fun t =>
    let pages := fun (n : Nat) => ((g.places t n).map fun p => g.offset maxLen p.1 p.2 / g.pageBytes).eraseDups
    ((pages (ceilDiv maxLen 64)).length - (pages (len / 64)).length) * g.pageBytes).sum

/-- Stack-pool bytes charged to each tenant here, for the lead. -/
def State.usedByTenant (s : State) : List (Nat × Nat) :=
  ((s.kv.pages.filter fun p => p.tier == 1).map fun p => p.tenant).eraseDups.map fun t => (t, s.stackBytes t)

/-- The entries of a share table. -/
def State.entries (s : State) (table n : Nat) : List Nat := (List.range n).map fun g => s.pte table g

/-- Close the member's side of a sequence: its references drop (R81), its tables and buffers are free. -/
def State.closeFile (s : State) (slot : Nat) : State :=
  match s.file? slot with
  | none => s
  | some f =>
    let n := match s.geo f.inst with
      | some g => g.granules f.maxLen
      | none => 0
    let held := f.tables.map fun (t : Nat × Nat) => (t.1, pagesOf (s.entries t.2 n))
    let s := s.setFile slot none
    let s := held.foldl (fun (s : State) (t : Nat × List Nat) => t.2.foldl (fun (s : State) e => s.dropRef t.1 e f.dawn) s) s
    let s := match f.bitmap with
      | some b => s.ownFree b.1
      | none => s
    match f.parked with
    | some a => s.ownFree a
    | none => s

/-- Close the member's side of the sequence of an identifier. -/
def State.closeFileOf (s : State) (id : Nat) : State := match s.file? (id % 65536) with
  | some f => if f.seqId == id then s.closeFile (id % 65536) else s
  | none => s

/-- The entries of a sequence's pages that cover its first `len` tokens, by share index; the others read 0. -/
def State.coverTables (s : State) (f : KvFile) (g : Geo) (len : Nat) : List (Nat × List Nat) :=
  (List.zip (List.range f.tables.length) f.tables).map fun (t : Nat × Nat × Nat) =>
    let keep := ((g.places t.1 (len / 64)).map fun p => g.offset f.maxLen p.1 p.2 / 16384 / 2 ^ g.size)
    (t.2.1, (List.range (g.granules f.maxLen)).map fun k => if keep.contains (k / 2 ^ g.size) then s.pte t.2.2 k else 0)

/-- The pages of some entries are charged to a tenant (R92, R102). -/
def State.charge (s : State) (n tenant : Nat) (es : List Nat) : State :=
  { s with kv := { s.kv with pages := s.kv.pages.map fun p =>
      if p.tile == n && es.any (fun e => Pte.names e p.addr) then { p with tenant := tenant } else p } }

/-- Make the member's side of a handle from a sequence (R100); its pages count against the owning tenant's quota (R102). -/
def State.makeHandle (s : State) (hslot slot tenant len : Nat) : State :=
  match s.file? slot with
  | none => s
  | some f =>
    match s.geo f.inst with
    | none => s
    | some g =>
      let ts := s.coverTables f g len
      let h : KvHandle := ⟨f.inst, tenant, f.maxLen, len, ts⟩
      let s := { s with kv := { s.kv with handles := Table.set none hslot (some h) s.kv.handles } }
      ts.foldl (fun (s : State) (t : Nat × List Nat) =>
        ((pagesOf t.2).foldl (fun (s : State) e => s.takeRef t.1 e false) s).charge t.1 tenant t.2) s

/-- Release the member's side of a handle (R102). -/
def State.dropHandle (s : State) (hslot : Nat) : State :=
  match Table.get none hslot s.kv.handles with
  | none => s
  | some h =>
    let s := { s with kv := { s.kv with handles := Table.set none hslot none s.kv.handles } }
    h.tables.foldl (fun (s : State) (t : Nat × List Nat) => (pagesOf t.2).foldl (fun (s : State) e => s.dropRef t.1 e false) s) s

end Sys2Proof.Machine
end

