-- ==== Sys2Proof/Machine/Kv.lean ====
section
/-!
DEFINITION. What a member's firmware does for its lanes and key-value state (R89, R90, R323, R336, R341 to R352,
spec/10_attention_and_kv.md): lane tables, committed appends, the staging flush, copy-on-write, spill and prefetch.
-/

namespace Sys2Proof.Machine

/-! ### What a step left -/

/-- The choice record of a lane among 16-byte records: same lane, lane set and position (R280); `some none`: VALID is 0 (R281). -/
def choiceAt (b : Bytes) (e : LaneEntry) : Option (Option Nat) :=
  if fld b 8 1 0 4 == e.lane && fld b 8 1 4 2 == e.set && rd b 4 4 == rd e.record 40 8 % 2 ^ 32
  then some (if bit (rd b 8 1) 6 then some (rd b 0 4) else none) else none

/-- The descriptors of an instance's lists on this device in the current template: tile and descriptor. -/
def State.descsOf (s : State) (i : Nat) : List (Nat × Bytes) :=
  match s.activeInst i with
  | some x => match x.plan with
    | some p => (p.lists.filter fun l => l.template == s.get R.FRW_LATE.TEMPLATE).flatMap fun l => l.descs.map fun d => (l.tile, d)
    | none => []
  | none => []

/-- The position in its group of the device that chooses a lane's token: (16 × set + lane) mod G. -/
def State.ownerOf (s : State) (inst : Nat) (e : LaneEntry) : Nat := (16 * e.set + e.lane) % max 1 (s.groupSizeOf (some inst))

/-- Choice records that a broadcast has brought for a lane of another device. -/
def State.broadcastChoice (s : State) (e : LaneEntry) (inst : Nat) : Option (Option Nat) :=
  let q := s.ownerOf inst e
  (s.descsOf inst).findSome? fun (x : Nat × Bytes) =>
    let d := x.2
    if D.type d != tColl || D.cDst d == 0 then none
    else
      match s.slotEntry (s.get R.FRW_LATE.TEMPLATE) (D.cSlot d) with
      | none => none
      | some p =>
        if p.op != 4 then none
        else
          let tab := s.slotTable p.template p.tag
          let starts := if (collector tab).isSome then (List.range 16).map fun t => D.cDst d + (q * 16 + t) * D.cBytes d else [D.cDst d]
          starts.findSome? fun a => (List.range (D.cBytes d / 16)).findSome? fun k => choiceAt (s.read (a + 16 * k) 16) e

/-- Whether a lane is sampled in the step: a generation lane, or the glean lane of a final prompt token (R82, R84). -/
def sampled (e : LaneEntry) : Bool := e.role == .generation || e.role == .gleanFinal

/-- The token of a lane: this device's choice, or the one a broadcast brought.  `none`: no record; `some none`: VALID was 0. -/
def State.choiceOf (s : State) (inst : Nat) (e : LaneEntry) : Option (Option Nat) :=
  match s.srv.results.find? fun r => r.inst == inst && r.set == e.set && r.lane == e.lane with
  | some r => some r.token
  | none => s.broadcastChoice e inst

/-- Whether a lane of an instance kept its appends in the step that ends (R344, R352): the step did not fail and was not
abandoned, no page was missed or damaged, and a sampled lane has its token. -/
def State.laneKept (s : State) (inst : Nat) (e : LaneEntry) : Bool :=
  !s.srv.failedInst.contains inst && !s.srv.misses.contains (inst, e.set, e.lane) &&
    !s.srv.damaged.contains (inst, e.seqId) && (!sampled e || ((s.choiceOf inst e).bind id).isSome)

/-- Sequences whose chunk of the step is kept: every lane of it is. -/
def State.keptSeqs (s : State) (inst : Nat) : List Nat :=
  let l := Table.get [] inst s.srv.lanes
  ((l.map fun e => e.seqId).eraseDups).filter fun q => (l.filter fun e => e.seqId == q).all fun e => s.laneKept inst e

/-- The tokens a chunk of a sequence carried. -/
def State.chunkLen (s : State) (inst seqId : Nat) : Nat :=
  ((Table.get [] inst s.srv.lanes).filter fun e => e.seqId == seqId).length

/-- The pages of a sequence are used in this furrow (R350). -/
def State.touchPages (s : State) (f : KvFile) : State :=
  match s.geo f.inst with
  | none => s
  | some g => f.tables.foldl (fun (s : State) (t : Nat × Nat) =>
      let es := s.entries t.2 (g.granules f.maxLen)
      { s with kv := { s.kv with pages := s.kv.pages.map fun p =>
          if p.tile == t.1 && es.any (fun e => Pte.names e p.addr) then { p with used := s.furrow } else p } }) s

/-- Every sequence with a lane in the step that ends has used its pages (R350). -/
def State.touchLanes (s : State) (inst : Nat) : State :=
  ((Table.get [] inst s.srv.lanes).map fun e => e.slot).eraseDups.foldl (fun (s : State) q => match s.file? q with
    | some f => s.touchPages f
    | none => s) s

/-- Commit the appends of the kept sequences of an instance in the member's files (R344). -/
def State.commitFiles (s : State) (inst : Nat) (kept : List Nat) : State :=
  kept.foldl (fun (s : State) (q : Nat) =>
    match s.file? (q % 65536) with
    | none => s
    | some f =>
      if f.seqId != q then s
      else s.setFile (q % 65536) (some { f with staged := f.staged + s.chunkLen inst q, used := s.furrow })) s

/-! ### The flush (R336, R345, R347) -/

/-- A scale block narrowed: its BF16 scale and its integers; counted where it is not finite (R336).  Where the scale rounds to 0 no rule
states the quotient of a 0: `free` stands for it. -/
def narrowBlock (fmt : Nat) (x : List Num) (free : Nat) : Nat × List Int × Bool :=
  let q : Nat := if fmt == 1 then 127 else 7
  let mx := maxAbs x
  if x.any fun v => !v.isFinite then (0x7FC0, x.map fun _ => 0, true)
  else if mx.isZero then (0, x.map fun _ => 0, false)
  else
    let sg := bf16.round (mx.div (.ofInt q))
    (sg, (List.zip (List.range x.length) x).map fun e =>
      (e.2.div (bf16.decode sg)).rtaClamp (-(q : Int)) q ((free / 256 ^ e.1 % (2 * q + 1) : Nat) - (q : Int)), false)

/-- Pack the values of a plot: bytes of 8 bits, or of two 4-bit values, the first low (R294). -/
def packValues (fmt : Nat) (l : List Int) : Bytes :=
  if fmt == 1 then l.map fun v => BitVec.ofNat 8 (unsign 8 v)
  else
    let n := l.map (unsign 4)
    (List.range (n.length / 2)).map fun i => BitVec.ofNat 8 (n.getD (2 * i) 0 + 16 * n.getD (2 * i + 1) 0)

/-- A key-value plot's header and payload (R335). -/
def kvPlotBytes (fmt layer head index : Nat) (scales : List Nat) (payload : Bytes) : Bytes :=
  let h := leBytes 2 0x4C50 ++ leBytes 1 (if fmt == 1 then 8 else 9) ++ leBytes 2 0 ++ leBytes 1 4 ++ leBytes 2 4096 ++
    leBytes 4 (0x4B560000 + layer * 256 + head) ++ leBytes 4 index ++ List.replicate 12 0
  let side := fit 32 (scales.flatMap (leBytes 2))
  h ++ leBytes 4 (crc32c (h ++ side ++ payload)) ++ side ++ payload

/-- The plots of a key or value half from its 64 token rows of HEAD_DIM values, and how many scale blocks were not finite. -/
def kvHalf (g : Geo) (value : Bool) (layer head j : Nat) (rows : List (List Num)) (free : Nat) : List Bytes × Nat :=
  let ch := plotChannels g.fmt
  let n := if g.fmt == 1 then 16 else 32
  let blocks := (List.range (g.plots * (ch / 32))).map fun b =>
    narrowBlock g.fmt (rows.flatMap fun r => (List.range 32).map fun c => r.getD (32 * b + c) .zero) (free / 2 ^ (16384 * b))
  let at_ := fun (t c : Nat) => ((blocks.getD (c / 32) (0, [], false)).2.1).getD (32 * t + c % 32) 0
  let plot := fun (p : Nat) =>
    let cols := if value then ch else 64
    let ks := if value then 1 else ch / 64
    let vals := (List.range ks).flatMap fun k => (List.range (cols / n)).flatMap fun grp =>
      (List.range 64).flatMap fun r => (List.range n).map fun c =>
        if value then at_ r (ch * p + grp * n + c) else at_ (grp * n + c) (ch * p + 64 * k + r)
    kvPlotBytes g.fmt layer head (8 * j + p + if value then 4 else 0)
      ((List.range (ch / 32)).map fun b => (blocks.getD (ch / 32 * p + b) (0, [], false)).1) (packValues g.fmt vals)
  ((List.range g.plots).map plot, (blocks.filter fun b => b.2.2).length)

/-- Offset in a slot of plot `p` of a half. -/
def kvPlotOff (g : Geo) (value : Bool) (p : Nat) : Nat := (if value then g.slot / 2 else 0) + 4096 * p

/-- Write a plot into a slot with its header (R339). -/
def State.putPlot (s : State) (pool : Nat × Nat) (slot off : Nat) (b : Bytes) : State :=
  (s.write (slot + off) (b.drop 64)).write (headerOf pool (slot + off)) (b.take 64)

/-- The slots of a page of a share region that hold flushed blocks (R347), as offsets in the page. -/
def Geo.filled (g : Geo) (f : KvFile) (share page : Nat) : List Nat :=
  (List.range (g.pageBytes / g.slot)).filterMap fun k =>
    let v := page * g.pageBytes / g.slot + k
    let i := v % max 1 (g.blocks f.maxLen)
    if decide (v / max 1 (g.blocks f.maxLen) < g.layers * g.hLoc ∧ (i * g.shares + share) * g.ring + g.pos < f.flushed) then some (k * g.slot) else none

/-- The slot a flush writes: its page is allocated, or made private where it is shared (R345, R347); `none`: no room. -/
def State.flushSlot (s : State) (n share table off : Nat) (g : Geo) (f : KvFile) : Option (State × Nat × Nat) :=
  let gr := off / 16384 / 2 ^ g.size * 2 ^ g.size
  let e := s.pte table gr
  let inPage := off % g.pageBytes
  if !Pte.valid e then
    (s.newPage n g.size f.tenant f.dawn g.watermark).map fun (x : State × Nat × Nat) =>
      (x.1.setPtes table gr g.size (Pte.make false f.dawn x.2.2 g.size g.fmt x.2.1), x.2.2, x.2.1 + inPage)
  else if !Pte.cow e then some (s, Pte.tier e, Pte.addr e + inPage)
  else
    let (s, w) := s.refRead n (Pte.tier e) (Pte.addr e)
    if w % 0x10000 ≤ 1 then some (s.mapEntries n (Pte.addr e) fun e => setBit e 1 false, Pte.tier e, Pte.addr e + inPage)
    else (s.pageIn n (Pte.tier e) g.size f.tenant f.dawn).map fun (x : State × Nat) =>
      let s := (g.filled f share (off / g.pageBytes)).foldl (fun (s : State) o =>
        s.copySlots n (Pte.tier e) (Pte.addr e + o) (Pte.tier e) (x.2 + o) g.slot) x.1
      let s := s.setPtes table gr g.size (Pte.make false f.dawn (Pte.tier e) g.size g.fmt x.2)
      ((s.dropRef n e f.dawn).bump (R.TILE_KV_COUNTS.COW_COPIES n), Pte.tier e, x.2 + inPage)

/-- Flush one layer and head of a staging buffer. -/
def State.flushHead (s : State) (n share table stage j i : Nat) (g : Geo) (f : KvFile) (x : Nat) : Option State :=
  (s.flushSlot n share table (g.offset f.maxLen x i) g f).map fun (r : State × Nat × Nat) =>
    let s := r.1
    let pool := s.pool n r.2.1
    let base := stage + x * g.stagePart
    let rows := fun (v : Nat) => (List.range 64).map fun t => s.bfRow (base + v * 128 * g.dim + 2 * g.dim * t) g.dim
    let (ks, bk) := kvHalf g false (x / g.hLoc) (x % g.hLoc) j (rows 0) s.freeVal
    let (vs, bv) := kvHalf g true (x / g.hLoc) (x % g.hLoc) j (rows 1) s.draw.freeVal
    let s := (List.zip (List.range ks.length) ks).foldl (fun (s : State) (e : Nat × Bytes) => s.putPlot pool r.2.2 (kvPlotOff g false e.1) e.2) s
    let s := (List.zip (List.range vs.length) vs).foldl (fun (s : State) (e : Nat × Bytes) => s.putPlot pool r.2.2 (kvPlotOff g true e.1) e.2) s
    (s.bump (R.TILE_KV_COUNTS.NONFINITE_BLOCKS n) (bk + bv)).draw.draw

/-- Flush a sequence whose staged count is 64 (R345); one that finds no page stays as it is. -/
def State.flushSeq (s : State) (slot : Nat) (f : KvFile) : State :=
  match s.geo f.inst with
  | none => s
  | some g =>
    let past := { f with flushed := f.flushed + 1, staged := 0, stage := none }
    match g.home f.flushed with
    | none => s.setFile slot (some past)
    | some (share, i) =>
      let n := g.tileOf share
      let table := (f.tables.getD share (0, 0)).2
      match f.stage with
      | none => s
      | some (_, a) =>
        match tryAll (fun (s : State) x => s.flushHead n share table a f.flushed i g f x) s (List.range (g.layers * g.hLoc)) with
        | none => s
        | some s => (s.setFile slot (some past)).bump (R.TILE_KV_TIER_COUNTS.FLUSHES n)

/-- The flush item of the headland (R59). -/
def State.flushItem (s : State) : State :=
  s.kv.files.foldl (fun (s : State) (e : Nat × Option KvFile) =>
    match s.file? e.1 with
    | some f => if f.staged == 64 then s.flushSeq e.1 f else s
    | none => s) s

/-! ### Staging buffers (R343) -/

/-- Move a staging buffer to its partition's stack memory. -/
def State.park (s : State) (slot : Nat) : State :=
  match s.file? slot with
  | none => s
  | some f => match f.stage, s.geo f.inst with
    | some (n, a), some g => match s.ownAlloc n g.stageBytes with
      | none => s
      | some (s, b) => (s.copyBytes a b g.stageBytes).setFile slot (some { f with stage := none, parked := some b })
    | _, _ => s

/-- Sequences with lanes in some table in force: their buffers stay. -/
def State.inLanes (s : State) : List Nat := s.srv.lanes.flatMap fun e => e.2.map fun x => x.seqId

/-- A noon or dusk sequence that waits: its buffer may be moved (R343). -/
def State.parkable (s : State) (n : Nat) (busy : List Nat) : List (Nat × KvFile) :=
  s.kv.files.filterMap fun e => match e.2 with
    | some f => if !f.dawn && !busy.contains f.seqId && (f.stage.map Prod.fst) == some n then some (e.1, f) else none
    | none => none

/-- The waiting sequence run least recently. -/
def oldest (l : List (Nat × KvFile)) : Option Nat :=
  match l with
  | [] => none
  | e :: rest => some (rest.foldl (fun (a : Nat × KvFile) (b : Nat × KvFile) => if b.2.used < a.2.used then b else a) e).1

/-- Give a sequence its staging buffer on its staging tile, moving buffers of waiting ones away while there is no room. -/
def State.stageIn (s : State) (slot : Nat) (busy : List Nat) : Nat → State
  | 0 => s
  | fuel + 1 =>
    match s.file? slot with
    | none => s
    | some f =>
      if f.stage.isSome then s
      else match s.geo f.inst, s.activeInst f.inst with
        | some g, some x => match g.home f.flushed with
          | none => s
          | some (share, _) =>
            let n := g.tileOf share
            let r := reserveOn x.image.stagingArea s.self n
            match firstFit r.1 r.2 g.stageBytes 64 (s.stageUsed n) with
            | some a =>
              let s := match f.parked with
                | some b => (s.copyBytes b a g.stageBytes).ownFree b
                | none => s
              s.setFile slot (some { f with stage := some (n, a), parked := none })
            | none => match oldest (s.parkable n busy) with
              | some v => State.stageIn (s.park v) slot busy fuel
              | none => s
        | _, _ => s

/-! ### Lane tables (R90, R274, R323, R341) -/

/-- Places of the firmware's lists for a lane in the control-core SRAM: bias list, penalty table. -/
def laneLists (inst set lane : Nat) : Nat := sramBase + 0x10000 + (inst * 64 + set * 16 + lane) * 10240
def tileMapAt (inst : Nat) : Nat := sramBase + 64 * inst

/-- The lane tables that an instance's descriptors name on a tile: lane set and address. -/
def State.tablePlaces (s : State) (i n : Nat) : List (Nat × Nat) :=
  match s.activeInst i with
  | some x => match x.plan with
    | some p => ((p.lists.filter fun l => l.tile == n).flatMap fun l => l.descs.filterMap fun d =>
        if D.type d == tAttend then some (D.aLaneSet d, D.aLaneTable d)
        else if D.type d == tSample then some (D.sLaneSet d, D.sLaneTable d) else none).eraseDups
    | none => []
  | none => []

/-- Whether an instance's plan attends in descriptor mode. -/
def State.descMode (s : State) (i : Nat) : Bool :=
  match s.activeInst i with
  | some x => match x.plan with
    | some p => p.lists.any fun l => l.descs.any fun d => D.type d == tAttend && D.aDescMode d
    | none => false
  | none => false

/-- Whether a block that a tile owns of a sequence lies in the far tier or nowhere. -/
def State.blockAway (s : State) (table : Nat) (g : Geo) (f : KvFile) (share flushed : Nat) : Bool :=
  (g.places share flushed).any fun p =>
    let e := s.pte table (g.offset f.maxLen p.1 p.2 / 16384)
    !Pte.valid e || Pte.tier e == 2

/-- The page descriptors of a sequence on a tile, by layer and head, in ascending block (R341): one for each block the tile owns; none at
all where a block of it lies in the far tier, which no descriptor may name: the lane misses there (R352). -/
def State.descList (s : State) (n table : Nat) (g : Geo) (f : KvFile) (share flushed : Nat) : List (List Bytes) :=
  if s.blockAway table g f share flushed then []
  else (List.range (g.layers * g.hLoc)).map fun x => (List.range flushed).filterMap fun j =>
    match g.home j with
    | some (t, i) =>
      let off := g.offset f.maxLen x i
      let e := s.pte table (off / 16384)
      if t != share then none
      else
        let a := Pte.addr e + off % Pte.bytes e
        some (leBytes 8 a ++ leBytes 4 j ++ leBytes 1 g.fmt ++ leBytes 3 0 ++ leBytes 8 (headerOf (s.pool n (Pte.tier e)) a) ++ leBytes 8 0)
    | none => none

/-- Page descriptor lists written from an address that is recorded as theirs, one every `stride` descriptors. -/
def State.putDescs (s : State) (i a stride : Nat) (l : List (List Bytes)) : State :=
  let s := { s with srv := { s.srv with descLists := Table.modify [] i (· ++ [a]) s.srv.descLists } }
  (List.zip (List.range l.length) l).foldl (fun (s : State) (e : Nat × List Bytes) =>
    s.write (a + 32 * stride * e.1) e.2.flatten) s

/-- Write a lane's page descriptor list into the partition's stack memory: its address, 0 where there is no room. -/
def State.writeDescs (s : State) (i n stride : Nat) (l : List (List Bytes)) : State × Nat :=
  match s.ownAlloc n (32 * stride * l.length + 64) with
  | none => (s, 0)
  | some (s, a) => (s.putDescs i a stride l, a)

/-- The 128 bytes of a lane entry on a tile. -/
def State.laneBytes (s : State) (i n share : Nat) (g : Geo) (e : LaneEntry) : State × Bytes :=
  let role : Nat := match e.role with
    | .empty => 0
    | .generation => 1
    | .glean => 2
    | .gleanFinal => 3
  let f := (s.file? e.slot).getD ⟨e.seqId, i, e.tenant, false, e.maxLen, e.flushed, e.staged, [], none, none, none, 0⟩
  let table := (f.tables.getD share (0, 0)).2
  let l := s.descList n table g f share e.flushed
  let longest := (l.map List.length).foldl max 0
  let (s, list) := if s.descMode i then s.writeDescs i n longest l else (s, 0)
  let stride := if list == 0 then 0 else longest
  let ad := ((s.srv.slices.find? fun x => x.inst == i && x.id == e.adapterId && x.ver == e.adapterVer && x.tile == n).map fun x => x.addr).getD 0
  let gleans := e.role == .glean || e.role == .gleanFinal
  (s, fit 128 (leBytes 4 e.seqId ++ leBytes 1 role ++ leBytes 1 (if gleans then e.chunkIndex + 16 * e.chunkLast else 0) ++
    leBytes 1 e.group ++ leBytes 1 0 ++ leBytes 4 e.token ++ leBytes 4 e.flushed ++ leBytes 8 e.position ++ leBytes 1 e.staged ++
    leBytes 7 0 ++ leBytes 6 (if s.descMode i then 0 else table) ++ leBytes 6 ((f.stage.map Prod.snd).getD 0) ++ leBytes 6 0 ++
    leBytes 6 list ++ leBytes 2 stride ++ leBytes 2 stride ++ leBytes 4 (g.blocks e.maxLen) ++
    leBytes 8 (2 ^ (e.staged + e.chunkIndex + 1) - 1) ++ leBytes 6 ad))

/-- The sampling record of a lane with its lists in place (R273, R274). -/
def State.recordBytes (s : State) (i : Nat) (e : LaneEntry) : State × Bytes :=
  let a := laneLists i e.set e.lane
  let pairs := fun (l : List (Nat × Nat)) => l.flatMap fun p => leBytes 4 p.1 ++ leBytes 4 p.2
  let s := (s.write a (pairs e.bias)).write (a + 2048) (pairs e.penalty)
  let bm := match s.file? e.slot with
    | some f => (f.bitmap.map Prod.fst).getD 0
    | none => 0
  (s, fit 128 (slice e.record 0 48 ++ leBytes 6 bm ++ leBytes 2 0 ++ leBytes 6 (if e.bias.isEmpty then 0 else a) ++ leBytes 2 e.bias.length ++
    leBytes 6 (if e.penalty.isEmpty then 0 else a + 2048) ++ leBytes 2 e.penalty.length ++ slice e.record 72 1))

/-- The tile record (R323): in a decode furrow of a ring of several members the partials travel (R353), in an ingestion furrow none does
(R354). -/
def State.tileBytes (s : State) (i n share : Nat) (g : Geo) (x : Inst) (generation : Bool) : Bytes :=
  leBytes 1 (share + 16 * (g.shares - 1)) ++ leBytes 1 (g.pos + 16 * (g.ring - 1)) ++ leBytes 1 x.image.ringCtr ++
    leBytes 1 (b2n (generation && decide (1 < g.ring))) ++ leBytes 4 0 ++ leBytes 6 (reserveOn x.image.partialArea s.self n).1 ++
    leBytes 6 (reserveOn x.image.ringIn s.self n).1 ++ leBytes 6 (tileMapAt i) ++ List.replicate 38 0

/-- One lane set's table of a tile. -/
def State.writeTable (s : State) (i n share : Nat) (g : Geo) (x : Inst) (es : List LaneEntry) (set a : Nat) : State :=
  let mine := es.filter fun e => e.set == set
  let s := s.write a (List.replicate 0x1000 0)
  let s := mine.foldl (fun (s : State) (e : LaneEntry) =>
    let (s, b) := s.laneBytes i n share g e
    let (s, r) := s.recordBytes i e
    (s.write (a + 128 * e.lane) b).write (a + 0x800 + 128 * e.lane) r) s
  s.write (a + 0x1000) (s.tileBytes i n share g x (mine.any fun e => e.role == .generation))

/-- A member writes an instance's lane table into the scratchpads of its serving tiles (R90, R323), with the staging buffers
its sequences need. -/
def State.writeLanes (s : State) (i : Nat) (es : List LaneEntry) : State :=
  match s.activeInst i with
  | none => s
  | some x =>
    if !bit x.mask s.self then s
    else
      let g := x.geo s.self
      let busy := s.inLanes ++ es.map fun e => e.seqId
      let s := (es.map fun e => e.slot).eraseDups.foldl (fun (s : State) q => s.stageIn q busy 64) s
      let s := (Table.get [] i s.srv.descLists).foldl (fun (s : State) a => s.ownFree a) s
      let s := { s with srv := { s.srv with descLists := Table.erase i s.srv.descLists } }
      let s := s.write (tileMapAt i) (fit 16 (g.serving.map (BitVec.ofNat 8)))
      (List.zip (List.range g.serving.length) g.serving).foldl (fun (s : State) (t : Nat × Nat) =>
        (s.tablePlaces i t.2).foldl (fun (s : State) (p : Nat × Nat) => s.writeTable i t.2 t.1 g x es p.1 p.2) s) s

/-! ### Spill and prefetch (R349 to R352) -/

/-- Whether a page holds the next block slot of a sequence that references it. -/
def State.holdsNext (s : State) (p : KvPage) : Bool :=
  s.kv.files.any fun e => match e.2 with
    | none => false
    | some f => match s.geo f.inst with
      | none => false
      | some g => match g.home f.flushed with
        | none => false
        | some (share, i) => g.tileOf share == p.tile &&
          (List.range (g.layers * g.hLoc)).any fun x =>
            Pte.names (s.pte (f.tables.getD share (0, 0)).2 (g.offset f.maxLen x i / 16384)) p.addr

/-- Whether a page is pinned: its entries say so (R338, R346). -/
def State.pinnedPage (s : State) (p : KvPage) : Bool :=
  let hit := fun (e : Nat) => Pte.names e p.addr && Pte.pinned e
  (s.tablesOn p.tile).any (fun t => (s.entries t.1 t.2).any hit) ||
    s.kv.handles.any fun e => match e.2 with
      | some h => h.tables.any fun t => t.1 == p.tile && t.2.any hit
      | none => false

def State.moving (s : State) (p : KvPage) : Bool := s.kv.copies.any fun c => c.page.tile == p.tile && c.page.addr == p.addr

/-- Issue the copy of a page into a tier: MOVING is set in its entries (R350). -/
def State.movePage (s : State) (p : KvPage) (tier : Nat) : State :=
  if tier == 1 && !s.quotaTakes p.tenant (16384 * 2 ^ p.size) then s
  else match s.pagePlace p.tile tier p.size with
    | none => s
    | some a =>
      { (s.mapEntries p.tile p.addr fun e => setBit e 10 true) with
        kv := { (s.mapEntries p.tile p.addr fun e => setBit e 10 true).kv with
          copies := s.kv.copies ++ [(⟨p, tier, a, false, false⟩ : KvCopy)] } }

/-- At the first headland after a copy ends, entries switch to it and the source is free; a page without references frees
both (R348, R350, R351). -/
def State.switchCopies (s : State) : State :=
  (s.kv.copies.filter fun c => c.ended).foldl (fun (s : State) (c : KvCopy) =>
    let p := c.page
    let s := { s with kv := { s.kv with
      copies := s.kv.copies.filter fun x => !(x.page.tile == p.tile && x.page.addr == p.addr)
      pages := s.kv.pages.filter fun x => !(x.tile == p.tile && x.addr == p.addr) } }
    if c.doomed then s
    else
      let (s, w) := s.refRead p.tile p.tier p.addr
      let s := { s with kv := { s.kv with pages := s.kv.pages ++ [{ p with tier := c.tier, addr := c.addr }] } }
      let s := (s.setRef p.tile c.tier c.addr w).setRef p.tile p.tier p.addr 0
      let s := s.mapEntries p.tile p.addr fun e => Pte.make (Pte.cow e) (Pte.pinned e) c.tier (Pte.size e) (Pte.fmt e) c.addr
      s.bump (if c.tier == 2 then R.TILE_KV_TIER_COUNTS.SPILLS p.tile else R.TILE_KV_TIER_COUNTS.PREFETCHES p.tile)) s

/-- Downstream IDE is active at every mapped expander (R499). -/
def State.farIde (s : State) : Bool :=
  [0, 1].all fun k => !s.isSet (R.CXLD_EXP.MAPPED k) || s.isSet (R.CXLD_PORT.IDE k)

/-- A stack-pool page that may spill, used least recently, of a tenant. -/
def State.spillVictim (s : State) (ok : KvPage → Bool) : Option KvPage :=
  let ide := s.farIde
  let l := s.kv.pages.filter fun p => p.tier == 1 && ok p && (ide || !s.prot p.tile) && !s.pinnedPage p && !s.moving p && !s.holdsNext p
  match l with
  | [] => none
  | p :: rest => some (rest.foldl (fun (a : KvPage) (b : KvPage) => if b.used < a.used then b else a) p)

/-- Spill: a page of each tenant whose quota is exhausted, and of each partition whose stack pool is full (R350). -/
def State.spillItem (s : State) : State :=
  let go := fun (s : State) (ok : KvPage → Bool) => match s.spillVictim ok with
    | some p => s.movePage p 2
    | none => s
  let tenants := (s.kv.pages.map fun p => p.tenant).eraseDups
  let s := (tenants.filter fun t => !s.quotaTakes t 16384).foldl (fun (s : State) t => go s fun p => p.tenant == t) s
  ((List.range 16).filter fun n => (s.pool n 1).2 != 0 && s.poolFree n 1 == 0).foldl (fun (s : State) n => go s fun p => p.tile == n) s

/-- Far-tier entries of a sequence's pages: tile and entry. -/
def State.farPages (s : State) (f : KvFile) : List (Nat × Nat) :=
  match s.geo f.inst with
  | none => []
  | some g => f.tables.flatMap fun (t : Nat × Nat) =>
      ((pagesOf (s.entries t.2 (g.granules f.maxLen))).filter fun e => Pte.tier e == 2).map fun e => (t.1, e)

/-- In descriptor mode the lanes in force of a sequence with a block away miss at once, on each tile that owns one (R341, R352):
tile, lane. -/
def State.awayLanes (s : State) (i : Nat) : List (Nat × LaneEntry) :=
  if !s.descMode i then []
  else match s.geo i with
    | none => []
    | some g => (Table.get [] i s.srv.lanes).flatMap fun e => match s.file? e.slot with
      | none => []
      | some f => (List.zip (List.range f.tables.length) f.tables).filterMap fun (t : Nat × Nat × Nat) =>
          if s.blockAway t.2.2 g f t.1 e.flushed then some (t.2.1, e) else none

/-- The lanes of a step that begins which miss for want of a descriptor. -/
def State.startMisses (s : State) : State :=
  s.srv.lanes.foldl (fun (s : State) (x : Nat × List LaneEntry) => (s.awayLanes x.1).foldl (fun (s : State) (e : Nat × LaneEntry) =>
    (s.bump (R.TILE_KV_COUNTS.MISS_LANES e.1)).noteMiss x.1 e.2.set e.2.lane e.2.seqId) s) s

/-- A sampled lane whose bitmap found no room here gives no token: its step is retried as one that missed (DESIGN CHOICE, log entry 40). -/
def State.startBlind (s : State) : State :=
  s.srv.lanes.foldl (fun (s : State) (x : Nat × List LaneEntry) => x.2.foldl (fun (s : State) (e : LaneEntry) =>
    match (s.file? e.slot).bind fun f => f.bitmap with
    | some (0, _) => if sampled e then s.noteMiss x.1 e.set e.lane e.seqId else s
    | _ => s) s) s

/-- Sequences with far-tier pages here. -/
def State.farHere (s : State) : List Nat :=
  s.kv.files.filterMap fun e => match e.2 with
    | some f => if (s.farPages f).isEmpty then none else some f.seqId
    | none => none

/-- Prefetch the far-tier pages of sequences that are to run (R351, R352). -/
def State.prefetchItem (s : State) (slots : List Nat) : State :=
  slots.foldl (fun (s : State) q => match s.file? q with
    | none => s
    | some f => (s.farPages f).foldl (fun (s : State) (x : Nat × Nat) =>
        match s.kv.pages.find? fun p => p.tile == x.1 && p.addr == Pte.addr x.2 with
        | some p => if s.moving p then s else s.movePage p 1
        | none => s) s) s

/-- A copy ends: the bytes and headers are in place (R350). -/
def State.copyEnds (s : State) (n addr : Nat) : State :=
  match s.kv.copies.find? fun c => c.page.tile == n && c.page.addr == addr && !c.ended with
  | none => s
  | some c =>
    let len := 16384 * 2 ^ c.page.size
    let s := (s.countFarPoison addr len).copySlots n c.page.tier addr c.tier c.addr len
    { s with kv := { s.kv with copies := s.kv.copies.map fun x =>
        if x.page.tile == n && x.page.addr == addr then { x with ended := true } else x } }

/-- SPILL_COPY_DONE (R350, R351): the copy of the page at an address of a partition ends. -/
def execSpillCopyDone (tile addr : Nat) (s : State) : Answered := s.whenAlive fun s => s.copyEnds tile addr

end Sys2Proof.Machine
end

