-- ==== Sys2Proof/Machine/Serving.lean ====
section
/-!
DEFINITION. Sequences and generation requests (R76 to R81, R95, R105 to R108, R274, R344, R576 to R578,
spec/03_serving_firmware.md, 17_faults.md): what a headland delivers, and how requests and sequences end.
-/

namespace Sys2Proof.Machine

/-! ### Look-up -/

/-- The sequence of an identifier, where its generation is the slot's (R137). -/
def State.seqOf (s : State) (id : Nat) : Option Seq :=
  match Table.get none (id % 65536) s.srv.seqs with
  | some q => if q.gen == id / 65536 then some q else none
  | none => none

def State.setSeqn (s : State) (id : Nat) (q : Option Seq) : State :=
  { s with srv := { s.srv with seqs := Table.set none (id % 65536) q s.srv.seqs } }

/-- Change a sequence. -/
def State.modSeq (s : State) (id : Nat) (f : Seq → Seq) : State :=
  match s.seqOf id with
  | some q => s.setSeqn id (some (f q))
  | none => s

def Seq.id (q : Seq) (slot : Nat) : Nat := slot + 65536 * q.gen

/-- The open sequences: identifier and sequence, in order of slots. -/
def State.openSeqs (s : State) : List (Nat × Seq) :=
  s.srv.seqs.filterMap fun e => e.2.map fun q => (q.id e.1, q)

/-- The open sequences of an instance. -/
def State.seqsOf (s : State) (i : Nat) : List (Nat × Seq) := s.openSeqs.filter fun e => e.2.inst == i

/-- Instance health (R594). -/
def healthNone : Nat := 0
def healthRunning : Nat := 1
def healthDegraded : Nat := 2
def healthSuspended : Nat := 3
def State.health (s : State) (i : Nat) : Nat := s.get (R.GLB_INST_HEALTH.STATE i)
def State.isSuspended (s : State) (i : Nat) : Bool := s.srv.suspended.contains i

/-- The furrow period of the active plan. -/
def State.period (s : State) : Nat := match s.frw.active with
  | some p => p.period
  | none => 0
def State.headlandLen (s : State) : Nat := match s.frw.active with
  | some p => p.headland
  | none => 0

/-- The start of furrow `k` (R40). -/
def State.furrowStart (s : State) (k : Nat) : Nat := s.frw.t0 + (k - s.frw.k0) * s.period

/-! ### The end of a request (R77 to R79) -/

/-- A sequence without request (R77, R79).  One that generated keeps its last token, and takes the tokens appended meanwhile behind it: with
two or more it ingests them, a dawn sequence in the lane that its retirement would free (DESIGN CHOICE, log entry 36).  One whose
ingestion is given up keeps the next input alone, as IDLE may (DESIGN CHOICE, log entry 37). -/
def Seq.idled (q : Seq) : Seq :=
  let inputs := if q.state == .ingest then q.inputs.take 1 else q.inputs ++ q.later
  let more := q.state != .ingest && !q.later.isEmpty && decide (2 ≤ inputs.length)
  { q with req := none, inputs := inputs, later := [], penalty := [], cancelled := false, fails := 0, lastToken := none
           bound := if more then q.bound else none, state := if more then .ingest else .idle }

/-- Retire a sequence's request, or its ingestion, at the headland that started at `th`: SEQ_GENERATE completes (R78, R143).  Its lane of the
step that ended, where that is not settled yet, is withheld. -/
def State.retireSeq (s : State) (id th : Nat) (st : Status) : State :=
  match s.seqOf id with
  | none => s
  | some q =>
    let s := s.setSeqn id (some q.idled)
    let s := { s with srv := { s.srv with openLanes := s.srv.openLanes.filter fun x => x.2.seqId != id } }
    match q.req with
    | some r => s.finish r.ticket { status := st, result0 := r.delivered, result1 := th }
    | none => s

/-- Close a sequence (R77, R81): its slot is free after the next headland. -/
def State.closeSeq (s : State) (id th : Nat) : State :=
  match s.seqOf id with
  | none => s
  | some _ =>
    let s := (s.retireSeq id th .cancelled).setSeqn id none
    { s with srv := { s.srv with closing := s.srv.closing ++ [id % 65536] } }

/-- Suspend an instance (R578): it runs no step, its requests retire with FAIL_DEVICE, its sequences keep no usable state. -/
def State.suspend (s : State) (i th : Nat) : State :=
  if s.isSuspended i then s
  else
    let s := { s with srv := { s.srv with suspended := s.srv.suspended ++ [i] } }
    let s := if s.isLead then s.put (R.GLB_INST_HEALTH.STATE i) healthSuspended else s
    (s.seqsOf i).foldl (fun (s : State) (e : Nat × Seq) =>
      (s.retireSeq e.1 th .failDevice).modSeq e.1 fun q => { q with unusable := true, state := .idle, bound := none }) s

/-! ### Token delivery (R106 to R108, R136) -/

/-- Write the held tokens of a sequence while its ring takes them (R107). -/
def State.drainHeld (s : State) (id : Nat) : Nat → State
  | 0 => s
  | n + 1 =>
    match s.seqOf id with
    | none => s
    | some q => match q.held with
      | [] => s
      | t :: rest =>
        if s.trOpen q.ring then
          State.drainHeld ((s.writeTr q.ring { t with held := true }).modSeq id fun q => { q with held := rest }) id n
        else s

/-- Every sequence's held tokens are tried again (R107): in each headland, before new ones. -/
def State.drainAll (s : State) : State := s.openSeqs.foldl (fun (s : State) (e : Nat × Seq) => s.drainHeld e.1 64) s

/-- Count a headland in which a token is held, once (R107, R112). -/
def State.noteHeld (s : State) : State :=
  if s.srv.ringFull || !(s.openSeqs.any fun e => !e.2.held.isEmpty) then s
  else { (s.bump R.QUE_REJECTS.RING_FULL) with srv := { s.srv with ringFull := true } }

/-- Deliver a token: to its ring, or into the holding buffer behind those it holds. -/
def State.deliverToken (s : State) (id : Nat) (t : TokenRec) : State :=
  match s.seqOf id with
  | none => s
  | some q =>
    if q.held.isEmpty && s.trOpen q.ring then s.writeTr q.ring t
    else s.modSeq id fun q => { q with held := q.held ++ [t] }

/-- Enter a delivered token into the penalty table (R274); one too many is counted. -/
def State.countToken (s : State) (id t : Nat) : State :=
  match s.seqOf id with
  | none => s
  | some q =>
    if q.penalty.any fun e => e.1 == t then
      s.modSeq id fun q => { q with penalty := q.penalty.map fun e => if e.1 == t then (t, e.2 + 1) else e }
    else if 1024 ≤ q.penalty.length then s.bump (R.TILE_DRILL_COUNTS.PENALTY_FULL 0)
    else s.modSeq id fun q => { q with penalty := Table.insert t 1 q.penalty }

/-- The furrow whose step ends in this headland (R56). -/
def State.endingFurrow (s : State) : Nat := s.stepFurrow

/-- What a lane's step gave to the lead: a token, none, or a choice with VALID 0. -/
inductive LaneEnd where
  | token (t : Nat)
  | none
  | empty
  deriving DecidableEq, Repr

/-- Advance a sequence past the tokens its chunk committed (R344); sampled or not. -/
def Seq.advanced (q : Seq) (n : Nat) (token : Option Nat) : Seq :=
  let inputs := match token with
    | some t => [t]
    | none => q.inputs.drop n
  let state : SeqState := match token with
    | some _ => .generate
    | none => if inputs.length ≤ 1 && q.req.isNone then .idle else q.state
  { q with inputs := inputs, len := q.len + n, stagedToks := q.stagedToks + n, fails := 0, state := state
           bound := if state = .idle then none else q.bound }

/-- A request whose deadline lies at or before a headland's start (R95). -/
def Request.passed (r : Request) (th : Nat) : Bool := match r.deadline with
  | some d => decide (d ≤ th)
  | none => false

/-- A request retires for its deadline (R95). -/
def State.retireLate (s : State) (id th : Nat) : State := (s.bump R.QUE_REJECTS.LATE_RETIRE).retireSeq id th .okLate

/-- A lane that gave no token and committed nothing (R57, R344, R576). -/
def State.failLane (s : State) (id : Nat) : State := s.modSeq id fun q => { q with fails := q.fails + 1 }

/-- The token of a lane is delivered (R78, R95, R106, R344), with what it ends. -/
def State.giveToken (s : State) (th : Nat) (e : LaneEntry) (n : Nat) (q : Seq) (x : Request) (t : Nat) : State :=
  let stop := x.sampling.stops.contains t
  let full := decide (q.maxLen ≤ e.position + 2)
  let passed := x.passed th
  let last := stop || full || passed || decide (x.wanted ≤ x.delivered + 1)
  let s := s.deliverToken e.seqId ⟨e.seqId, t, e.position + 1, passed, stop, last, false, s.endingFurrow % 65536⟩
  let s := (s.countToken e.seqId t).modSeq e.seqId fun q =>
    { q.advanced n (some t) with lastToken := some th, lastPeriod := s.period, req := some { x with delivered := x.delivered + 1 } }
  if passed then s.retireLate e.seqId th else if last then s.retireSeq e.seqId th .ok else s

/-- The last lane of a sequence's chunk in the step that ends, `n` tokens long, is settled at a headland that began at `th`
(R81, R84, R95, R106, R281, R344): its token is delivered, withheld or missing, its appends kept or not.  What a withheld token's step
appended is not kept: its input stays pending (DESIGN CHOICE, log entry 38). -/
def State.settleLane (s : State) (th : Nat) (e : LaneEntry) (n : Nat) (kept : Bool) (r : LaneEnd) : State :=
  match s.seqOf e.seqId with
  | none => s
  | some q =>
    let prompt := if kept then s.modSeq e.seqId fun q => q.advanced n none else s.failLane e.seqId
    match q.req with
    | none => if q.state == .ingest && !sampled e then prompt else s
    | some x =>
      let late := fun (s : State) => if x.passed th then s.retireLate e.seqId th else s
      if !sampled e then late prompt
      else match r with
        | .empty => s.retireSeq e.seqId th .failStep
        | .none => late (s.failLane e.seqId)
        | .token t =>
          if !kept then late (s.failLane e.seqId)
          else if q.cancelled then s
          else if x.passed th && x.withhold then s.retireLate e.seqId th
          else s.giveToken th e n q x t

/-- Lanes in the order of delivery (R106): dawn, noon, dusk, then lane set, then lane; of equal ones the lower instance first. -/
def deliveryOrder (l : List (Nat × LaneEntry)) : List (Nat × LaneEntry) :=
  [1, 2, 3].flatMap fun c => (List.range 64).flatMap fun k => l.filter fun e => e.2.cls == c && e.2.set * 16 + e.2.lane == k

/-- Whether a lane carries the last token of its chunk. -/
def lastOfChunk (e : LaneEntry) : Bool := e.chunkIndex == e.chunkLast

/-- Settle the open lanes of which `got` knows whether the step's appends are kept and what it gave, in the order of delivery; the others
stay open. -/
def State.settleOpen (s : State) (th : Nat) (got : Nat → LaneEntry → Option (Bool × LaneEnd)) : State :=
  s.srv.openLanes.foldl (fun (s : State) (x : Nat × LaneEntry) => match got x.1 x.2 with
    | none => s
    | some (kept, r) =>
      let s := s.settleLane th x.2 (x.2.chunkLast + 1) kept r
      { s with srv := { s.srv with openLanes := s.srv.openLanes.filter fun y => y != x } }) s

/-- Whether the instance's group is the lead's: its tokens reach the lead by the broadcast (R106). -/
def State.hereInst (s : State) (i : Nat) : Bool :=
  match s.activeInst i with
  | some x => bit x.mask s.self
  | none => false

/-- Whether the choice of a sampled lane may still reach this device: its owner is another device, its step has not failed, and its record
is not here yet, as where it waits on a deferred retry (R59, R460). -/
def State.choiceDue (s : State) (i : Nat) (e : LaneEntry) : Bool :=
  sampled e && !s.srv.failedInst.contains i && (s.choiceOf i e).isNone && !s.ownsLane (some i) e.set e.lane

/-- What this device knows of a lane of an instance that it is a member of. -/
def State.knownHere (s : State) (i : Nat) (e : LaneEntry) : Option (Bool × LaneEnd) :=
  if !s.hereInst i || s.choiceDue i e then none
  else some ((s.keptSeqs i).contains e.seqId, match s.choiceOf i e with
    | some (some t) => .token t
    | some none => .empty
    | none => .none)

/-- Nothing more is waited for: a lane here gives what it has, one of another group nothing. -/
def State.knownLast (s : State) (i : Nat) (e : LaneEntry) : Option (Bool × LaneEnd) :=
  match s.knownHere i e with
  | some r => some r
  | none => some (false, .none)

/-- FAIL_RUN after a step (R577). -/
def State.countRun (s : State) (i : Nat) : State :=
  if !s.isLead || s.health i == healthNone then s
  else if s.srv.failedInst.contains i then s.bump (R.GLB_INST_HEALTH.FAIL_RUN i)
  else s.put (R.GLB_INST_HEALTH.FAIL_RUN i) 0

/-- Whether a tile of an instance is DOUBLED (R577), on this device or, as the lead has heard, on a member. -/
def State.doubledTile (s : State) (i : Nat) : Bool :=
  match s.activeInst i with
  | none => false
  | some x => ((List.range 16).any fun n => s.isSet (R.TILE_ENGINE_MAP.DOUBLED n) && x.uses s.self n) ||
      s.flt.doubled.any fun e => x.uses e.1 e.2

/-- A RUNNING instance becomes DEGRADED, or SUSPENDED under DEGRADED_STOP, when its failures reach DEGRADE_COUNT or one of its
tiles is DOUBLED; a DEGRADED one is SUSPENDED while DEGRADED_STOP is 1 (R577, R590).  One that is suspended instead has not entered
DEGRADED: no INSTANCE_DEGRADED, no count (DEDUCED, log entry 128). -/
def State.degrade (s : State) (i th : Nat) : State :=
  if s.isLead && s.health i == healthRunning &&
      (decide (s.get R.GLB_ERR_CTRL.DEGRADE_COUNT ≤ s.get (R.GLB_INST_HEALTH.FAIL_RUN i)) || s.doubledTile i) then
    if s.isSet R.GLB_ERR_CTRL.DEGRADED_STOP then s.suspend i th
    else
      let s := s.raise (evInstanceDegraded i (s.get (R.GLB_INST_HEALTH.FAIL_RUN i)))
      (s.put (R.GLB_INST_HEALTH.STATE i) healthDegraded).bump (R.GLB_INST_HEALTH.DEGRADE_EVENTS i)
  else if s.isLead && s.health i == healthDegraded && s.isSet R.GLB_ERR_CTRL.DEGRADED_STOP then s.suspend i th
  else s

/-- A request that has reached LANE_RETRY_LIMIT retires with FAIL_STEP and is logged (R576). -/
def State.exhaust (s : State) (id th : Nat) : State :=
  match s.seqOf id with
  | none => s
  | some q =>
    if q.fails < s.get R.GLB_ERR_CTRL.LANE_RETRY_LIMIT then s
    else
      let e := (Table.get [] q.inst s.srv.lanes).find? fun e => e.seqId == id
      let s := s.raise (evLaneExhausted ((e.map fun e => e.set).getD 0) ((e.map fun e => e.lane).getD 0) id q.inst)
      s.retireSeq id th .failStep

/-- Deadlines that have passed retire sequences without a step in hand (R95). -/
def State.expire (s : State) (th : Nat) (stepping : List Nat) : State :=
  s.openSeqs.foldl (fun (s : State) (e : Nat × Seq) =>
    match (s.seqOf e.1).bind fun q => q.req with
    | some r => if r.passed th && !stepping.contains e.1 then s.retireLate e.1 th else s
    | none => s) s

/-- Sequences whose page is damaged retire with FAIL_STEP and stay unusable (R357). -/
def State.retireDamaged (s : State) (th : Nat) : State :=
  s.srv.damaged.foldl (fun (s : State) (x : Nat × Nat) =>
    match s.seqOf x.2 with
    | none => s
    | some _ => (s.retireSeq x.2 th .failStep).modSeq x.2 fun q => { q with unusable := true }) s

/-- Whether the interval since an admitted dawn sequence's last token exceeds the bound: the larger of the periods across a commit, and
2 µs (R63, R64). -/
def State.boundBroken (s : State) (th : Nat) : Bool :=
  s.openSeqs.any fun e => e.2.cls == 1 && e.2.bound.isSome && e.2.held.isEmpty &&
    match e.2.lastToken with
    | some t => decide (max s.period e.2.lastPeriod + 2000 < th - t)
    | none => false

/-- A furrow over the bound is counted (R64), before this headland delivers. -/
def State.countBound (s : State) (th : Nat) : State :=
  if s.boundBroken th then s.bump R.FRW_EVENTS2.DAWN_BOUND_BREAKS else s

/-- Token records of an instance of another group, for the lead (R106). -/
def State.tellLead (s : State) (i : Nat) (kept : List Nat) : State :=
  let lanes := (Table.get [] i s.srv.lanes).filter fun e => lastOfChunk e && sampled e
  let recs := (lanes.filter fun e => kept.contains e.seqId).filterMap fun e => match s.choiceOf i e with
    | some (some t) => some (⟨e.seqId, t, e.position + 1, false, false, false, false, s.endingFurrow % 65536⟩ : TokenRec)
    | _ => none
  let empty := (lanes.filter fun e => s.choiceOf i e == some none).map fun e => e.seqId
  s.sendCtrl s.leadId (.tokens i s.endingFurrow recs kept [] [] empty)

/-- Whether a member speaks for its group's instance to a lead outside it: the lowest member of the instance (R106; DESIGN CHOICE, log entry
35). -/
def State.speaks (s : State) (i : Nat) : Bool :=
  !s.isLead && !(s.instMembers i).contains s.leadId && (s.instMembers i).head? == some s.self

/-- The instances that had lanes in the step that ends. -/
def State.steppedInsts (s : State) : List Nat := s.srv.lanes.filterMap fun e => if e.2.isEmpty then none else some e.1

/-- A member's part of token delivery (R106, R344): it commits what was kept, and speaks for an instance of its group. -/
def State.memberCommit (s : State) (i : Nat) : State :=
  let kept := s.keptSeqs i
  let s := (s.touchLanes i).commitFiles i kept
  if s.speaks i then s.tellLead i kept else s

/-- Token delivery (R59, R106, R344): members commit what was kept; the lead delivers what has reached it, dawn first over every instance,
and counts runs. -/
def State.tokenItem (s : State) (th : Nat) : State :=
  let insts := s.steppedInsts
  let s := insts.foldl (fun (s : State) i => s.memberCommit i) s
  if !s.isLead then s
  else
    let lanes := insts.flatMap fun i => ((Table.get [] i s.srv.lanes).filter lastOfChunk).map fun e => (i, e)
    let s := { s with srv := { s.srv with openLanes := deliveryOrder lanes } }
    insts.foldl (fun (s : State) i => s.countRun i) (s.settleOpen th s.knownHere)

/-- Retirement (R59, R78, R81, R95): what has expired, is damaged or exhausted; `ended` where a step ends in this headland. -/
def State.retireItem (s : State) (th : Nat) (ended : Bool) : State :=
  let stepping := if ended then s.srv.openLanes.map fun x => x.2.seqId
    else if s.frw.stepOpen then s.srv.lanes.flatMap fun e => e.2.map fun x => x.seqId
    else []
  let s := s.retireDamaged th
  let s := s.expire th stepping
  let s := s.openSeqs.foldl (fun (s : State) (e : Nat × Seq) => s.exhaust e.1 th) s
  (s.cfg.instA.map Prod.fst).foldl (fun (s : State) i => s.degrade i th) s

/-- The start of the headland that delivers what is still open. -/
def State.deliveryTime (s : State) : Nat :=
  (if s.isSet R.FRW_STATE.HEADLAND then s.furrowStart (s.furrow + 1) else s.furrowStart s.furrow) - s.headlandLen

/-- What the step that ended left is forgotten; lanes that are still open gave nothing. -/
def State.endStep (s : State) : State :=
  let s := s.settleOpen s.deliveryTime s.knownLast
  { s with srv := { s.srv with results := [], misses := [], damaged := [], failedInst := [], openLanes := [] } }

end Sys2Proof.Machine
end

