-- ==== Sys2Proof/Machine/Lanes.lean ====
section
/-!
DEFINITION. Lane filling (R82 to R90, R96 to R98, R155, R273, R325, spec/03_serving_firmware.md): which sequences run in which
lanes of the next furrow, and how the tables are agreed.
-/

namespace Sys2Proof.Machine

/-! ### Reserved lanes -/

/-- The dawn lanes a plan reserves for an instance in a lane set and template (R46, R48). -/
def dawnMask (p : FurrowPlan) (template inst set : Nat) : Nat :=
  ((p.entries.filter fun e => e.type == 3 && e.template == template && e.inst == inst && e.tag == set).map fun e => e.argA % 65536).headD 0

/-- Templates of a plan in which entries name an instance (R48). -/
def templatesOf (p : FurrowPlan) (inst : Nat) : List Nat :=
  (List.range p.cycleLen).filter fun t => p.entries.any fun e => e.template == t && e.inst == inst && e.type != 4

/-- The dawn lanes reserved in every template that an instance runs in. -/
def reservedLanes (p : FurrowPlan) (inst : Nat) : List (Nat × Nat) :=
  (List.range (p.laneSets * 16)).filterMap fun k =>
    let ts := templatesOf p inst
    if !ts.isEmpty && ts.all fun t => bit (dawnMask p t inst (k / 16)) (k % 16) then some (k / 16, k % 16) else none

/-- The staged plan that a prepared commit would activate (R155). -/
def State.preparedPlan (s : State) : Option FurrowPlan := if s.cfg.prepared.isSome then s.frw.staged else none

/-- The lanes a dawn sequence of an instance may be bound to now (R93, R155), lowest lane set first. -/
def State.openDawnLanes (s : State) (i : Nat) : List (Nat × Nat) :=
  match s.frw.active with
  | none => []
  | some p =>
    let taken := (s.seqsOf i).filterMap fun e => e.2.bound
    (reservedLanes p i).filter fun k => !taken.contains k &&
      match s.preparedPlan with
      | some q => (reservedLanes q i).contains k
      | none => true

/-- Dawn lanes bound to a tenant. -/
def State.dawnBound (s : State) (t : Nat) : Nat := (s.openSeqs.filter fun e => e.2.tenant == t && e.2.bound.isSome).length

/-- Bind a dawn sequence to a lane (R93); `none`: no lane can be bound. -/
def State.bindDawn (s : State) (id : Nat) (q : Seq) : Option State :=
  if q.bound.isSome then some s
  else
    let limit := match Table.get none q.tenant s.srv.tenants with
      | some t => t.dawnLanes
      | none => 0
    if limit ≤ s.dawnBound q.tenant || s.health q.inst == healthDegraded then none
    else match s.openDawnLanes q.inst with
      | [] => none
      | k :: _ => some (s.modSeq id fun q => { q with bound := some k })

/-! ### Runnable sequences -/

/-- Whether a sequence may be scheduled: its instance runs, its state is usable, its holding buffer is not full (R107), its
staging buffer is not full, and no page of it lies in the far tier, here or, as the lead was told, on a member (R351). -/
def State.schedulable (s : State) (id : Nat) (q : Seq) : Bool :=
  !s.isSuspended q.inst && !q.unusable && !q.cancelled && decide (q.held.length < 64 ∧ q.stagedToks < 64) &&
    !(s.srv.farSeqs.any fun e => e.2.contains id) &&
    match s.file? (id % 65536) with
    | some f => (s.farPages f).isEmpty
    | none => true

/-- Prompt tokens a sequence in INGEST may place in one furrow (R79, R85). -/
def Seq.chunkRoom (q : Seq) : Nat :=
  let n := if q.req.isSome then q.inputs.length else q.inputs.length - 1
  min (min 16 n) (64 - q.len % 64)

/-- A sequence placed: lane set, first lane, its lanes. -/
structure Placing where
  id : Nat
  set : Nat
  lanes : List Nat

/-- What filling has done so far: free lanes, placings. -/
structure Filling where
  free : List (Nat × Nat)
  placed : List Placing

/-- The placing of a sequence. -/
def Filling.of (f : Filling) (id : Nat) : Option Placing := f.placed.find? fun p => p.id == id

/-- The free lanes a sequence's chunk could go on with: above its last lane in its lane set, or, where it has none yet, those of the
lowest lane set that has any (R85). -/
def Filling.rest (f : Filling) (id : Nat) : List (Nat × Nat) :=
  match f.of id with
  | some p => f.free.filter fun x => x.1 == p.set && p.lanes.all fun l => decide (l < x.2)
  | none => match f.free with
    | [] => []
    | k :: _ => f.free.filter fun x => x.1 == k.1

/-- Lanes a sequence has. -/
def Filling.has (f : Filling) (id : Nat) : Nat := ((f.of id).map fun p => p.lanes.length).getD 0

/-- Give a sequence `n` more lanes. -/
def Filling.take (f : Filling) (id n : Nat) : Filling :=
  let l := (f.rest id).take n
  match l with
  | [] => f
  | k :: _ =>
    ⟨f.free.filter fun x => !l.contains x,
      if (f.of id).isSome then f.placed.map fun p => if p.id == id then { p with lanes := p.lanes ++ l.map Prod.snd } else p
      else f.placed ++ [⟨id, k.1, l.map Prod.snd⟩]⟩

/-- The sequences of an instance, class and role that a lane may go to: in generation (role 0) those in GENERATE without one; in glean (role
1) those in INGEST whose chunk could be longer, a chunk grown at most once where it is placed whole (`once`, R97): a dawn sequence's from its
own lane (R83). -/
def State.waitingFor (s : State) (i cls role : Nat) (once : Bool) (f : Filling) : List (Nat × Seq) :=
  (s.seqsOf i).filter fun e => e.2.cls == cls && s.schedulable e.1 e.2 &&
    (if role == 0 then e.2.state == .generate && f.has e.1 == 0
     else e.2.state == .ingest && decide (f.has e.1 < e.2.chunkRoom) && !(f.rest e.1).isEmpty &&
      (if cls == 1 then f.has e.1 == 1 || (!once && f.has e.1 != 0) else f.has e.1 == 0 || !once))

/-- The sequence of a tenant that has waited longest, the lower identifier of two (R88). -/
def longest (l : List (Nat × Seq)) : Option (Nat × Seq) :=
  match l with
  | [] => none
  | e :: rest => some (rest.foldl (fun (a : Nat × Seq) (b : Nat × Seq) =>
      if a.2.waited < b.2.waited || (a.2.waited == b.2.waited && decide (b.1 < a.1)) then b else a) e)

/-! ### Fairness (R96 to R98) -/

/-- The tenant queues that exist, ascending. -/
def State.tenantList (s : State) : List Nat := s.srv.tenants.filterMap fun e => e.2.map fun _ => e.1

/-- The first tenant at or after the pointer, around. -/
def nextTenant (ts : List Nat) (p : Nat) : Nat := (ts.find? fun t => decide (p ≤ t)).getD (ts.headD 0)

def roundKey (i cls role : Nat) : Nat := i * 64 + cls * 16 + role
def State.round (s : State) (k : Nat) : Round := Table.get Round.empty k s.srv.rounds
def State.setRound (s : State) (k : Nat) (r : Round) : State :=
  { s with srv := { s.srv with rounds := Table.set Round.empty k r s.srv.rounds } }

/-- Fill the lanes of one class and role by deficit round-robin (R97). -/
def State.fillWeighted (s : State) (i cls role : Nat) : Nat → Filling → State × Filling
  | 0, f => (s, f)
  | fuel + 1, f =>
    let w := s.waitingFor i cls role true f
    if f.free.isEmpty || w.isEmpty then (s, f)
    else
      let ts := s.tenantList
      let r := s.round (roundKey i cls role)
      let t := nextTenant ts r.pointer
      let d := Table.get 0 t r.deficit
      match longest (w.filter fun e => e.2.tenant == t) with
      | none => State.fillWeighted (s.setRound (roundKey i cls role) ⟨Table.set 0 t 0 r.deficit, t + 1⟩) i cls role fuel f
      | some (id, q) =>
        if 1 ≤ d then
          let n := if role == 0 then 1 else min (min (q.chunkRoom - f.has id) d) (f.rest id).length
          State.fillWeighted (s.setRound (roundKey i cls role) ⟨Table.set 0 t (d - n) r.deficit, t⟩) i cls role fuel (f.take id n)
        else
          let weight := match Table.get none t s.srv.tenants with
            | some x => x.weight
            | none => 1
          State.fillWeighted (s.setRound (roundKey i cls role) ⟨Table.set 0 t (d + weight) r.deficit, t + 1⟩) i cls role fuel f

/-- A tenant's credit in lanes. -/
def State.creditOf (s : State) (t : Nat) : Nat :=
  match Table.get none t s.srv.tenants with
  | some x => x.credit / 1000000000
  | none => 0

def State.spend (s : State) (t n : Nat) : State :=
  { s with srv := { s.srv with
      lastServed := t
      tenants := Table.modify none t (fun o => o.map fun (x : Tenant) => { x with credit := x.credit - n * 1000000000 }) s.srv.tenants } }

/-- Fill the lanes of one class and role in token-budget mode: round-robin over the tenants with credit, one lane a visit, after the
one last served (R98). -/
def State.fillBudget (s : State) (i cls role : Nat) : Nat → Filling → State × Filling
  | 0, f => (s, f)
  | fuel + 1, f =>
    let w := s.waitingFor i cls role false f
    let ts := s.tenantList.filter fun t => decide (1 ≤ s.creditOf t) && w.any fun e => e.2.tenant == t
    if f.free.isEmpty || ts.isEmpty then (s, f)
    else
      let t := nextTenant ts (s.srv.lastServed + 1)
      match longest (w.filter fun e => e.2.tenant == t) with
      | none => (s, f)
      | some (id, _) => State.fillBudget (s.spend t 1) i cls role fuel (f.take id 1)

/-- Fill one class and role under the mode of QUE.CTRL.  A lane goes out at the latest after every tenant has been visited twice. -/
def State.fillClass (s : State) (i cls role : Nat) (f : Filling) : State × Filling :=
  if s.get R.QUE_CTRL.MODE == 1 then s.fillBudget i cls role (f.free.length + 1) f
  else s.fillWeighted i cls role ((f.free.length + 1) * (2 * s.tenantList.length + 2)) f

/-! ### The table of an instance -/

/-- Dawn lanes (R82, R83, R85, R89): each admitted sequence in its lane; in INGEST its chunk goes on in the free lanes above it in
its lane set. -/
def State.fillDawn (s : State) (i : Nat) (f : Filling) : Filling :=
  let l := (s.seqsOf i).filter fun e => e.2.cls == 1 && s.schedulable e.1 e.2
  l.foldl (fun (f : Filling) (e : Nat × Seq) =>
    match e.2.bound with
    | none => f
    | some k =>
      if e.2.state == .generate || (e.2.state == .ingest && decide (0 < e.2.chunkRoom)) then
        ⟨f.free.filter fun x => x != k, f.placed ++ [⟨e.1, k.1, [k.2]⟩]⟩
      else f) f

/-- The sampling record of a lane, its addresses left 0 (R273). -/
def recordOf (x : Sampling) (position : Nat) (active : Bool) : Bytes :=
  fit 128 (leBytes 4 x.temperature ++ leBytes 2 x.topK ++ leBytes 2 0 ++ leBytes 4 x.topP ++ leBytes 4 x.minP ++
    leBytes 4 x.repPenalty ++ leBytes 4 x.freqPenalty ++ leBytes 16 x.seed ++ leBytes 8 position ++ List.replicate 24 0 ++
    leBytes 1 (b2n active))

/-- The lane entries of a placing. -/
def State.entriesOf (s : State) (p : Placing) : List LaneEntry :=
  match s.seqOf p.id with
  | none => []
  | some q =>
    (List.zip (List.range p.lanes.length) p.lanes).map fun (x : Nat × Nat) =>
      let final := decide (x.1 + 1 = q.inputs.length) && q.req.isSome
      let role : Role := if q.state == .generate then .generation else if final then .gleanFinal else .glean
      let act := role == .generation || role == .gleanFinal
      let pos := q.len + x.1
      { set := p.set, lane := x.2, slot := p.id % 65536, seqId := p.id, token := q.inputs.getD x.1 0, position := pos,
        role := role, chunkIndex := x.1, chunkLast := p.lanes.length - 1, adapterId := q.adapterId, adapterVer := q.adapterVer,
        cls := q.cls, tenant := q.tenant, maxLen := q.maxLen, flushed := q.flushed, staged := q.stagedToks, group := 0,
        record := match q.req with
          | some r => recordOf r.sampling (pos + 1) act
          | none => List.replicate 128 0
        bias := match q.req with
          | some r => if act then r.sampling.bias else []
          | none => []
        penalty := if act then q.penalty else [] }

/-- Engines that an instance's ATTENDs use, at least 1. -/
def State.attendEngines (s : State) (i : Nat) : Nat :=
  match s.activeInst i with
  | some x => match x.plan with
    | some p => ((p.lists.flatMap fun l => l.descs.filterMap fun d =>
        if D.type d == tAttend then some (popcount 8 (D.aEngineMask d)) else none).foldl min 8)
    | none => 8
  | none => 8

/-- Insert by flushed blocks, keeping the order of equal ones. -/
def insertByFlushed (e : LaneEntry) : List LaneEntry → List LaneEntry
  | [] => [e]
  | x :: rest => if e.flushed < x.flushed then e :: x :: rest else x :: insertByFlushed e rest

/-- Number the attention groups of each lane set in ascending FLUSHED_BLOCKS (R325). -/
def numberGroups (size : Nat) (l : List LaneEntry) : List LaneEntry :=
  [0, 1, 2, 3].flatMap fun k =>
    let sorted := (l.filter fun e => e.set == k).foldl (fun (a : List LaneEntry) e => insertByFlushed e a) []
    (List.zip (List.range sorted.length) sorted).map fun x => { x.2 with group := x.1 / max 1 size }

/-- Fill the lanes of an instance for the next furrow (R82). -/
def State.fillInst (s : State) (i : Nat) : State × List LaneEntry :=
  if s.isSuspended i then (s, [])
  else
    let sets := match s.frw.active with
      | some p => p.laneSets
      | none => 0
    let f : Filling := ⟨(List.range (16 * sets)).map fun k => (k / 16, k % 16), []⟩
    let f := s.fillDawn i f
    let (s, f) := s.fillClass i 2 0 f
    let (s, f) := s.fillClass i 3 0 f
    let (s, f) := s.fillClass i 1 1 f
    let (s, f) := s.fillClass i 2 1 f
    let (s, f) := s.fillClass i 3 1 f
    (s, numberGroups (s.attendEngines i) (f.placed.flatMap s.entriesOf))

/-! ### Agreement (R90) -/

/-- The lanes of one sequence in an instance's table, in the order of its chunk. -/
def State.lanesOf (s : State) (i id : Nat) : List LaneEntry := (Table.get [] i s.srv.lanes).filter fun e => e.seqId == id

/-- What a sequence takes next in the lanes it holds: in GENERATE its first lane, in INGEST as many as its next chunk fills. -/
def State.nextLanes (s : State) (i id : Nat) : List LaneEntry :=
  match s.seqOf id, s.lanesOf i id with
  | some q, e :: rest =>
    let n := if q.state == .generate then 1 else if q.state == .ingest then q.chunkRoom else 0
    if s.schedulable id q then
      (s.entriesOf ⟨id, e.set, ((e :: rest).map fun x => x.lane).take n⟩).map fun x => { x with group := e.group }
    else []
  | _, _ => []

/-- The lanes an instance keeps without a new table: those of its table whose sequences have not retired, with what they take next (R61,
R90). -/
def State.keptLanes (s : State) (i : Nat) : List LaneEntry :=
  ((Table.get [] i s.srv.lanes).map fun e => e.seqId).eraseDups.flatMap fun id => s.nextLanes i id

def State.setLanes (s : State) (i : Nat) (l : List LaneEntry) : State :=
  ({ s with srv := { s.srv with
      lanes := Table.set [] i l s.srv.lanes
      built := Table.erase i s.srv.built
      laneWait := Table.erase i s.srv.laneWait
      laneRecv := Table.erase i s.srv.laneRecv } }).writeLanes i l

/-- No lane is in force in any table (R42). -/
def State.clearLanes (s : State) : State := s.srv.lanes.foldl (fun (s : State) e => s.setLanes e.1 []) s

/-- Tenants whose quota is exhausted, and sequences that are to run soon: what members spill and prefetch by (R350, R351; DESIGN CHOICE,
log entry 33). -/
def State.exhausted (s : State) : List Nat := s.tenantList.filter fun t => !s.quotaTakes t 16384
def State.soonSeqs (s : State) : List Nat := (s.openSeqs.filter fun e => e.2.state != .idle).map Prod.fst

/-- Build and send an instance's lane table (R82, R90). -/
def State.buildLanes (s : State) (i : Nat) : State :=
  let (s, l) := s.fillInst i
  let others := (s.instMembers i).filter fun d => d != s.self
  let s := { s with srv := { s.srv with
    built := Table.insert i l s.srv.built
    laneWait := Table.set [] i others s.srv.laneWait } }
  s.sendAll others (.laneTable ⟨i, s.furrow + 1, s.isSuspended i, l, s.exhausted, s.soonSeqs⟩)

/-- A headland whose admission is put off is counted, once (R61). -/
def State.noteShort (s : State) : State :=
  if s.srv.short then s else { (s.bump R.FRW_EVENTS1.HEADLAND_SHORT) with srv := { s.srv with short := true } }

/-- The lead has every member of some instances go on without a new table (R61, R90).  DISCARD tells what the kept lanes take next
(DESIGN CHOICE, log entry 39). -/
def State.discardLanes (s : State) (l : List Nat) : State :=
  l.foldl (fun (s : State) i =>
    let kept := s.keptLanes i
    (s.sendAll ((s.instMembers i).filter fun d => d != s.self) (.laneDiscard i (s.furrow + 1) kept)).setLanes i kept) s

/-- 400 ns before the headland's end: ACCEPT where every member has acknowledged, else DISCARD (R90), which R61 counts. -/
def State.decideLanes (s : State) : State :=
  if !s.isLead then s
  else s.srv.built.foldl (fun (s : State) (x : Nat × List LaneEntry) =>
    let i := x.1
    let others := (s.instMembers i).filter fun d => d != s.self
    if (Table.get [] i s.srv.laneWait).isEmpty then
      ((s.putBit R.QUE_LANE_USE.DISCARDED false).sendAll others (.laneAccept i (s.furrow + 1))).setLanes i x.2
    else ((s.putBit R.QUE_LANE_USE.DISCARDED true).noteShort).discardLanes [i]) s

/-- What a table says of a sequence's counts is taken over: a block that the lead counts as flushed and this member has not flushed, whose
last choice had not come, is flushed now (R344, R345). -/
def State.takeCounts (s : State) (e : LaneEntry) : State := match s.file? e.slot with
  | some f =>
    if f.seqId != e.seqId then s
    else
      let s := if f.flushed < e.flushed then s.flushSeq e.slot { f with staged := 64 } else s
      match s.file? e.slot with
      | some f => s.setFile e.slot (some { f with staged := e.staged, flushed := e.flushed })
      | none => s
  | none => s

/-- A lane table reaches a member (R90): written to the scratchpads and acknowledged. -/
def State.laneTableIn (s : State) (src : Nat) (t : LaneTable) : State :=
  let s := { s with srv := { s.srv with
    laneRecv := Table.insert t.inst (some t) s.srv.laneRecv
    full := t.full
    soon := t.soon
    suspended := if t.suspended && !s.srv.suspended.contains t.inst then s.srv.suspended ++ [t.inst] else s.srv.suspended } }
  let s := t.entries.foldl (fun (s : State) (e : LaneEntry) => s.takeCounts e) s
  (s.writeLanes t.inst t.entries).sendCtrl src (.laneAck t.inst t.furrow s.usedByTenant s.farHere)

/-- ACCEPT: a member adopts the table for the next furrow (R90). -/
def State.laneAcceptIn (s : State) (i k : Nat) : State :=
  match Table.get none i s.srv.laneRecv with
  | some t => if t.furrow == k then s.setLanes i t.entries else s
  | none => s

/-- DISCARD: a member runs the previous table less the retired lanes, and the headland is counted (R61, R90). -/
def State.laneDiscardIn (s : State) (i : Nat) (l : List LaneEntry) : State :=
  (l.foldl (fun (s : State) (e : LaneEntry) => s.takeCounts e) s.noteShort).setLanes i l

/-- A member has the whole table (R90); what it tells of its pages is kept. -/
def State.laneAckIn (s : State) (src i k : Nat) (used : List (Nat × Nat)) (far : List Nat) : State :=
  let rest := s.srv.farUse.filter fun e => e.1 / 1024 != src
  let s := { s with srv := { s.srv with
    farUse := used.foldl (fun (t : Table Nat) e => Table.set 0 (src * 1024 + e.1 % 1024) e.2 t) rest
    farSeqs := Table.set [] src far s.srv.farSeqs } }
  if k == s.furrow + 1 then
    { s with srv := { s.srv with laneWait := Table.modify [] i (fun l => l.filter fun d => d != src) s.srv.laneWait } }
  else s

/-! ### Counts -/

/-- Lanes of a class and of glean in the tables in force. -/
def State.lanesIn (s : State) (p : LaneEntry → Bool) : Nat := ((s.srv.lanes.map fun e => (e.2.filter p).length).sum)

/-- QUE.LANE_USE of the lead device, and the figures that R94 takes from the last furrow, as a furrow that is not fallow starts: a dawn
sequence's own lane counts as DAWN, its further lanes as GLEAN (R83, R111). -/
def State.countLanes (s : State) : State :=
  if !s.isLead then s
  else
    let glean := fun (e : LaneEntry) => e.role == .glean || e.role == .gleanFinal
    let dawn := s.lanesIn fun e => e.cls == 1 && (!glean e || e.chunkIndex == 0)
    let noon := s.lanesIn fun e => e.cls == 2 && e.role == .generation
    let dusk := s.lanesIn fun e => e.cls == 3 && e.role == .generation
    let gl := s.lanesIn fun e => glean e && (e.cls != 1 || e.chunkIndex != 0)
    let sets := match s.frw.active with
      | some p => p.laneSets
      | none => 0
    let insts := (s.cfg.instA.filter fun e => e.2.isSome).length
    let s := s.put R.QUE_LANE_USE.DAWN dawn
    let s := s.put R.QUE_LANE_USE.NOON noon
    let s := s.put R.QUE_LANE_USE.DUSK dusk
    let s := s.put R.QUE_LANE_USE.GLEAN gl
    let s := s.put R.QUE_LANE_USE.EMPTY (insts * 16 * sets - (dawn + noon + dusk + gl))
    let run := fun (c : Nat) => (s.openSeqs.filter fun e => e.2.cls == c && e.2.state == .generate).length
    { s with srv := { s.srv with
        lastRunnable := [(2, run 2), (3, run 3)]
        lastGiven := [(2, noon), (3, dusk)]
        lastGlean := gl } }

/-- Sequences that wait a furrow without a lane, and those that run (R88). -/
def State.countWaits (s : State) : State :=
  s.openSeqs.foldl (fun (s : State) (e : Nat × Seq) =>
    let runs := s.srv.lanes.any fun x => x.2.any fun y => y.seqId == e.1
    if runs then s.modSeq e.1 fun q => { q with waited := 0 }
    else if e.2.state == .idle then s
    else s.modSeq e.1 fun q => { q with waited := q.waited + 1 }) s

/-- The credits of token-budget mode grow at a headland (R98). -/
def State.addCredits (s : State) : State :=
  if s.get R.QUE_CTRL.MODE != 1 then s
  else { s with srv := { s.srv with tenants := s.srv.tenants.map fun e => (e.1, e.2.map fun (t : Tenant) =>
      { t with credit := min (t.budget * 1000000000) (t.credit + t.budget * s.period) }) } }

/-- QUE.SEQ_COUNT and the state of the selected tenant queue, at a headland (R110, R113). -/
def State.countSeqs (s : State) : State :=
  let n := fun (p : Seq → Bool) => (s.openSeqs.filter fun e => p e.2).length
  let s := s.put R.QUE_SEQ_COUNT.DAWN_ADMITTED (n fun q => q.bound.isSome)
  let s := s.put R.QUE_SEQ_COUNT.NOON_RUNNABLE (n fun q => q.cls == 2 && q.state == .generate)
  let s := s.put R.QUE_SEQ_COUNT.DUSK_RUNNABLE (n fun q => q.cls == 3 && q.state == .generate)
  s.put R.QUE_SEQ_COUNT.INGESTING (n fun q => q.state == .ingest)

/-- QUE.TENANT_STATE of the queue that QUE.TENANT_SEL names (R113). -/
def State.countTenant (s : State) : State :=
  let t := s.get R.QUE_TENANT_SEL.TENANT
  let n := fun (p : Seq → Bool) => (s.openSeqs.filter fun e => e.2.tenant == t && p e.2).length
  let deficit := if s.get R.QUE_CTRL.MODE == 1 then s.creditOf t else (s.srv.rounds.map fun e => Table.get 0 t e.2.deficit).foldl max 0
  let s := s.put R.QUE_TENANT_STATE.OPEN_SEQS (min 0xFFFF (n fun _ => true))
  let s := s.put R.QUE_TENANT_STATE.RUNNABLE (min 0xFFFF (n fun q => q.state != .idle))
  let s := s.put R.QUE_TENANT_STATE.DEFICIT_OR_CREDIT (min 0xFFFF deficit)
  let s := s.put R.QUE_TENANT_STATE.DAWN_BOUND (s.dawnBound t)
  s.putBit R.QUE_TENANT_STATE.PRESENT (Table.get none t s.srv.tenants).isSome

end Sys2Proof.Machine
end

