-- ==== Sys2Proof/Machine/Adapters.lean ====
section
/-!
DEFINITION. Adapters (R103 to R105, R313, R314, spec/03_serving_firmware.md, 09_harrow_and_plots.md): the factor image and its
checks, versions, the adapter store, and the switch of the headland.
-/

namespace Sys2Proof.Machine

/-! ### The factor image (R313) -/

/-- A slice entry: device, tile, offset, bytes; its reserved bits are 0. -/
def sliceEntry (b : Bytes) (i : Nat) : Reserve × Bool :=
  let o := 64 + 16 * i
  (⟨fld b o 1 0 6, fld b (o + 1) 1 0 4, rd b (o + 8) 8, rd b (o + 4) 4⟩,
    fld b o 1 6 2 == 0 && fld b (o + 1) 1 4 4 == 0 && rd b (o + 2) 2 == 0)

def sliceCount (b : Bytes) : Nat := rd b 24 2
def sliceDir (b : Bytes) : List (Reserve × Bool) := (List.range (sliceCount b)).map (sliceEntry b)

/-- The furthest end of header, directory and slices. -/
def factorEnd (b : Bytes) : Nat :=
  (sliceDir b).foldl (fun m e => max m (e.1.addr + e.1.len)) (64 + 16 * sliceCount b)

/-- The bytes BODY_CRC runs over: the directory, then every slice in its order. -/
def factorBody (b : Bytes) : Bytes :=
  slice b 64 (16 * sliceCount b) ++ (sliceDir b).flatMap fun e => slice b e.1.addr e.1.len

/-- The factor tensor images of a slice, behind its version record. -/
def sliceImages (b : Bytes) : List Bytes := (imagesFrom b (b.length / 64 + 1) 64).map fun o => b.drop o

/-- The checks of R314 in order: the status and number of the first that fails, or the version's directory. -/
def State.adapterCheck (s : State) (i : Nat) (b : Bytes) : Except (Status × Nat) (List Reserve) :=
  let dir := sliceDir b
  let inst := s.activeInst i
  if sliceCount b == 0 then .error (.okEmpty, 5)
  else if rd b 0 4 != 0x50444441 || b.length < factorEnd b || crc32c (factorBody b) != rd b 28 4 then .error (.rejFormat, 6)
  else match inst with
    | none => .error (.rejVersion, 7)
    | some x =>
      if rd b 4 2 != 1 || rd b 8 8 != x.tag || rd b 16 8 != x.image.layoutTag then .error (.rejVersion, 7)
      else if rd b 6 1 == 0 || dir.any fun e => e.1.len == 0 then .error (.rejZeroExtent, 8)
      else if rd b 7 1 != 0 || rd b 26 2 != 0 || !allZero (slice b 32 32) || decide (64 < rd b 6 1) ||
          dir.any (fun e => !e.2 || !bit x.mask e.1.device || e.1.addr % 64 != 0 || e.1.len % 64 != 0 ||
            decide (e.1.addr < 64 + 16 * sliceCount b ∨ b.length < e.1.addr + e.1.len)) ||
          decide ((dir.map fun e => (e.1.device, e.1.tile)).eraseDups.length < dir.length) ||
          dir.any (fun e => (sliceImages (slice b e.1.addr e.1.len)).any fun t => TI.kind t != 7) then .error (.rejFormat, 9)
      else if x.prot && dir.any fun e => (sliceImages (slice b e.1.addr e.1.len)).any fun t => (tensorPlots t).any fun p => P.coded p.2 then .error (.cfgConflict, 10)
      else .ok (dir.map Prod.fst)

/-! ### Versions -/

def State.version? (s : State) (i id ver : Nat) : Option Adapter :=
  s.srv.adapters.find? fun a => a.inst == i && a.id == id && a.ver == ver

def State.modAdapter (s : State) (i id ver : Nat) (f : Adapter → Adapter) : State :=
  { s with srv := { s.srv with adapters := s.srv.adapters.map fun a =>
      if a.inst == i && a.id == id && a.ver == ver then f a else a } }

/-- The version of an identifier that new sequences bind (R103). -/
def State.currentOf (s : State) (i id : Nat) : Option Adapter :=
  s.srv.adapters.find? fun a => a.inst == i && a.id == id && a.state == .current

/-- Whether a version holds adapter store space. -/
def Adapter.resident (a : Adapter) : Bool := a.state != .pending

/-- Whether a version finds room (R104): fewer than two versions of its identifier are resident, and the adapter store of each
of its tiles has the bytes. -/
def State.adapterRoom (s : State) (a : Adapter) : Bool :=
  let others := s.srv.adapters.filter fun b => b.inst == a.inst && b.resident && !(b.id == a.id && b.ver == a.ver)
  decide ((others.filter fun b => b.id == a.id).length < 2) &&
    a.dir.all fun e =>
      let store := match s.activeInst a.inst with
        | some x => (reserveOn x.image.adapterStore e.device e.tile).2
        | none => 0
      let used := ((others.flatMap fun b => b.dir.filter fun d => d.device == e.device && d.tile == e.tile).map fun d => d.len).sum
      decide (used + e.len ≤ store)

/-- Sequences bound to a version (R103). -/
def State.bindings (s : State) (a : Adapter) : Nat :=
  (s.openSeqs.filter fun e => e.2.inst == a.inst && e.2.adapterId == a.id && e.2.adapterVer == a.ver).length

/-- A version's slices and master copies here are free. -/
def State.dropSlices (s : State) (i id ver : Nat) : State :=
  let mine := fun (x : Slice) => x.inst == i && x.id == id && x.ver == ver
  let s := (s.srv.slices.filter mine).foldl (fun (s : State) x => s.ownFree x.master) s
  { s with srv := { s.srv with slices := s.srv.slices.filter fun x => !mine x } }

/-- Drop a version here. -/
def State.dropVersion (s : State) (i id ver : Nat) : State :=
  let s := s.dropSlices i id ver
  { s with srv := { s.srv with adapters := s.srv.adapters.filter fun a => !(a.inst == i && a.id == id && a.ver == ver) } }

/-- Write a slice and its master copy from the image. -/
def State.writeSlice (s : State) (x : Slice) : State := (s.write x.addr x.image).write x.master x.image

/-- Write this device's slices of a version (R314): into the adapter store of each tile, with the version record, and a master
copy in the partition's stack memory; `none`: no room. -/
def State.placeSlices (s : State) (i id ver : Nat) (b : Bytes) (dir : List Reserve) : Option State :=
  tryAll (fun (s : State) (e : Reserve) =>
    match s.activeInst i with
    | none => none
    | some x =>
      let r := reserveOn x.image.adapterStore s.self e.tile
      let used := (s.srv.slices.filter fun y => y.inst == i && y.tile == e.tile).map fun y => (y.addr, y.len)
      match firstFit r.1 r.2 e.len 64 used, s.ownAlloc e.tile e.len with
      | some a, some (t, m) =>
        let rec_ := fit 64 (leBytes 8 m ++ leBytes 4 id ++ leBytes 4 ver)
        let x : Slice := ⟨i, id, ver, e.tile, a, e.len, m, rec_ ++ (slice b e.addr e.len).drop 64⟩
        some { t.writeSlice x with srv := { t.srv with slices := t.srv.slices ++ [x] } }
      | _, _ => none) s (dir.filter fun e => e.device == s.self)

/-- A device takes part in a load (R314): it keeps the version and writes its slices; one that has none is done at once.  At the lead a
version is STAGED once every device has answered. -/
def State.loadVersion (s : State) (no i id ver : Nat) (b : Bytes) : State :=
  let dir := (sliceDir b).map Prod.fst
  let a : Adapter := ⟨i, id, ver, .loading, 0, b.length, sha384 b, dir, some no, none⟩
  let s := if (s.version? i id ver).isSome then s.modAdapter i id ver fun x => { x with state := .loading }
    else { s with srv := { s.srv with adapters := s.srv.adapters ++ [a] } }
  match s.placeSlices i id ver b dir with
  | none => (if s.isLead then s else s.dropVersion i id ver).replyWith no .rejNoSpace
  | some s =>
    if dir.any fun e => e.device == s.self then s
    else (if s.isLead then s else s.modAdapter i id ver fun x => { x with state := .staged }).replyWith no .ok

/-- Start loading a version at the lead (R104): every other member gets the image. -/
def State.startLoad (s : State) (a : Adapter) : State :=
  match a.ticket.bind s.ticket? with
  | none => s
  | some t =>
    let b := s.read a.imageAddr a.imageLen
    let s := (s.awaitSelf t.no).forwardTo t.no { t.packet with p4 := a.ver } (some b) s.others
    s.loadVersion t.no a.inst a.id a.ver b

/-- ADAPTER_LOAD at the lead (R104, R314). -/
def State.adapterLoad (s : State) (t : Ticket) : State :=
  let p := t.packet
  let i := bits p.p0 0 4
  let id := bits p.p0 32 32
  let b := s.read p.p1 p.p2
  match s.adapterCheck i b with
  | .error (st, k) => s.finishWith t.no st k
  | .ok dir =>
    if s.isSuspended i then s.finishWith t.no .failDevice
    else if decide (1024 ≤ (s.srv.adapters.filter fun a => a.inst == i).length) then s.finishWith t.no .rejNoSpace
    else
      let ver := ((s.srv.adapters.filter fun a => a.inst == i && a.id == id).map fun a => a.ver).foldl max 0 + 1
      let a : Adapter := ⟨i, id, ver, .pending, p.p1, p.p2, sha384 b, dir, some t.no, none⟩
      if s.adapterRoom a then ({ s with srv := { s.srv with adapters := s.srv.adapters ++ [a] } }).startLoad a
      else if p.noWait then s.finishWith t.no .rejNoSpace
      else ({ s with srv := { s.srv with adapters := s.srv.adapters ++ [a] } }).markPending t.no

/-- The other members are told that a version is freed: the packet's P4 names it. -/
def State.tellVersion (s : State) (i id ver : Nat) : State :=
  let p : Packet := { ring := 0, opcode := 0x24, flags := 0, cls := 0, rsv3 := 0, tag := 0, payloadLen := 0, tenant := 0, rsv14 := 0,
                      payloadAddr := 0, p0 := i + id * 2 ^ 32, p1 := 0, p2 := 0, p3 := 0, p4 := ver }
  s.sendAll s.others (.fwdCmd p none none)

/-- Free a version everywhere. -/
def State.freeVersion (s : State) (i id ver : Nat) : State :=
  (s.dropVersion i id ver).tellVersion i id ver

/-- A load that found no place on some device waits for room (R104): what was written of it is free again. -/
def State.waitRoom (s : State) (t : Ticket) (a : Adapter) : State :=
  let s := ((s.dropSlices a.inst a.id a.ver).tellVersion a.inst a.id a.ver).modAdapter a.inst a.id a.ver fun x => { x with state := .pending }
  (s.mapTicket t.no fun t => { t with answers := [] }).markPending t.no

/-- Every device has answered a load (R103, R104). -/
def State.loadConcluded (s : State) (t : Ticket) : State :=
  match s.srv.adapters.find? fun a => a.ticket == some t.no with
  | none => s.finishWith t.no .cancelled
  | some a =>
    match refusal t.answers with
    | some r =>
      if r.status == .rejNoSpace && !t.packet.noWait then s.waitRoom t a
      else (s.freeVersion a.inst a.id a.ver).finish t.no r.answer
    | none =>
      (s.modAdapter a.inst a.id a.ver fun x => { x with state := .staged, ticket := none }).finish t.no { status := .ok, result0 := a.ver }

/-- The slices of a version here whose plots are not all whole (R306, R308). -/
def State.badSlices (s : State) (i id ver : Nat) : List Slice :=
  let prot := s.instProt i
  s.srv.slices.filter fun x => x.inst == i && x.id == id && x.ver == ver &&
    !(sliceImages (s.read x.addr x.len)).all (tensorWhole prot)

/-- This device has verified its slices of a version (R103): a slice with a plot that fails is written once more from the image, and a second
failure fails the load (R308). -/
def State.verified (s : State) (i id ver : Nat) : State :=
  match s.version? i id ver with
  | none => s
  | some a =>
    if a.state != .loading then s
    else
      let s := (s.badSlices i id ver).foldl (fun (s : State) (x : Slice) => s.writeSlice x) s
      let good := (s.badSlices i id ver).isEmpty
      let s := { s with srv := { s.srv with slices := s.srv.slices.map fun x =>
        if x.inst == i && x.id == id && x.ver == ver then { x with image := [] } else x } }
      match a.ticket with
      | none => s
      | some no =>
        if good then (if s.isLead then s else s.modAdapter i id ver fun x => { x with state := .staged }).replyWith no .ok
        else (if s.isLead then s else s.dropVersion i id ver).replyWith no .failPlot

/-- Room appears (R104): a version that waits starts. -/
def State.roomFor (s : State) (i id ver : Nat) : State :=
  match s.version? i id ver with
  | none => s
  | some a => if a.state == .pending && s.adapterRoom a then s.startLoad a else s

/-- The timeout of a load that waits passes (R104). -/
def State.loadTimeout (s : State) (i id ver : Nat) : State :=
  match s.version? i id ver with
  | none => s
  | some a =>
    if a.state != .pending then s
    else
      let s := s.dropVersion i id ver
      match a.ticket with
      | some no => s.finishWith no .rejNoSpace
      | none => s

/-- ADAPTER_RETIRE takes effect at the lead (R105): CURRENT drains; STAGED and PENDING are freed everywhere, and a waiting load is
cancelled. -/
def State.retireAdapter (s : State) (i id : Nat) : State :=
  (s.srv.adapters.filter fun a => a.inst == i && a.id == id).foldl (fun (s : State) (a : Adapter) =>
    match a.state with
    | .current => s.modAdapter i id a.ver fun x => { x with state := .draining }
    | .staged | .pending =>
      let s := s.freeVersion i id a.ver
      match a.ticket with
      | some no => s.finishWith no .cancelled
      | none => s
    | _ => s) s

/-- STAGED versions become CURRENT, the newest of an identifier, and the older ones drain (R103). -/
def State.switchVersions (s : State) : State :=
  (s.srv.adapters.filter fun a => a.state == .staged).foldl (fun (s : State) (a : Adapter) =>
    { s with srv := { s.srv with adapters := s.srv.adapters.map fun b =>
        if b.inst == a.inst && b.id == a.id then
          if b.ver == a.ver then { b with state := .current } else if b.state == .current then { b with state := .draining } else b
        else b } }) s

/-- Draining versions that nothing is bound to are freed (R103). -/
def State.freeDrained (s : State) : State :=
  if !s.isLead then s
  else (s.srv.adapters.filter fun a => a.state == .draining && s.bindings a == 0).foldl
    (fun (s : State) (a : Adapter) => s.freeVersion a.inst a.id a.ver) s

/-- The adapter-switch item of the headland (R59, R103, R105): the lead keeps the states of the versions; a member holds the slices until the
lead frees the version. -/
def State.adapterItem (s : State) : State :=
  if !s.isLead then s
  else
  let s := s.que.tickets.foldl (fun (s : State) (t : Ticket) =>
    if t.packet.opcode != 0x24 || !s.srv.deferred.contains t.no then s
    else
      let i := bits t.packet.p0 0 4
      let id := bits t.packet.p0 32 32
      let s := { s with srv := { s.srv with deferred := s.srv.deferred.filter fun n => n != t.no } }
      if s.isSuspended i then s.finishWith t.no .failDevice
      else if (s.srv.adapters.filter fun a => a.inst == i && a.id == id && a.state != .draining).isEmpty then s.finishWith t.no .rejVersion
      else (s.retireAdapter i id).finishWith t.no .ok) s
  s.switchVersions.freeDrained

end Sys2Proof.Machine
end

