-- ==== Sys2Proof/Machine/Admission.lean ====
section
/-!
DEFINITION. The commands that take effect at a headland (R76 to R81, R91 to R102, R130, R142 to R144, R149, R348, R355, R356,
spec/03_serving_firmware.md, 04_command_packets.md): sequences, prefixes, key-value images and tenants.
-/

namespace Sys2Proof.Machine

/-! ### The sampling block (R149, R274) -/

/-- Enter a bias, combining it with an earlier one of the same token in FP32 (R274). -/
def addBias (l : List (Nat × Nat)) (e : Nat × Nat) : List (Nat × Nat) :=
  match l.find? fun x => x.1 == e.1 with
  | some x => l.map fun y => if y.1 == e.1 then (y.1, add32 x.2 e.2) else y
  | none => Table.insert e.1 e.2 l

/-- The sampling block of a payload; `none`: a field is out of range or a reserved bit is set. -/
def samplingOf (b : Bytes) : Option Sampling :=
  let nb := rd b 6 2
  let stops := (List.range 8).map fun k => rd b (64 + 4 * k) 4
  let bias := (List.range nb).map fun k => (rd b (96 + 8 * k) 4, rd b (100 + 8 * k) 4)
  if decide (256 < nb) || b.length != 96 + 8 * nb || decide (8 < rd b 48 1) || !allZero (slice b 49 15) ||
      !samplingInRange (rd b 0 4) (rd b 4 2) (rd b 8 4) (rd b 12 4) (rd b 16 4) (rd b 20 4) ||
      (stops.drop (rd b 48 1)).any (fun t => t != 0) || bias.any fun e => !(dec32 e.2).isFinite then none
  else
    some { temperature := rd b 0 4, topK := rd b 4 2, topP := rd b 8 4, minP := rd b 12 4, repPenalty := rd b 16 4
           freqPenalty := rd b 20 4, seed := rd b 24 16, bitmapAddr := rd b 40 8, stops := stops.take (rd b 48 1)
           bias := bias.foldl addBias [] }

/-! ### Telling the members -/

/-- The other members of an instance get a packet that needs no answer; the identifier a command makes is in P4. -/
def State.tellMembers (s : State) (i : Nat) (p : Packet) (pay : Option Bytes) : State :=
  s.sendAll ((s.instMembers i).filter fun d => d != s.self) (.fwdCmd p pay none)

def State.otherMembers (s : State) (i : Nat) : List Nat := (s.instMembers i).filter fun d => d != s.self

/-! ### Sequences (R76, R77, R79 to R81, R91 to R94) -/

/-- The first slot of `n` that is free. -/
def freeSlot (n : Nat) (used : Nat → Bool) : Option Nat := (List.range n).find? fun k => !used k

/-- The next generation number of `w` bits after one, never 0 (R137). -/
def nextGen (w g : Nat) : Nat := if (g + 1) % 2 ^ w == 0 then 1 else (g + 1) % 2 ^ w

def handleSlot (h : Nat) : Nat := h % 2 ^ 32

/-- The handle of a value, where its generation is the slot's (R99). -/
def State.handleOf (s : State) (h : Nat) : Option Handle :=
  match Table.get none (handleSlot h) s.srv.handles with
  | some x => if x.gen == h / 2 ^ 32 then some x else none
  | none => none

/-- Stack-pool bytes that a dawn sequence reserves on all the members of an instance (R92). -/
def reserveAll (x : Inst) (maxLen len : Nat) : Nat := ((bitList 64 x.mask).map fun d => (x.geo d).reserve maxLen len).sum

/-- The bytes that a dawn sequence reserves on the other members count for the lead from now on (R92). -/
def State.reserveFar (s : State) (x : Inst) (tenant maxLen len : Nat) : State :=
  { s with srv := { s.srv with farUse := ((bitList 64 x.mask).filter fun d => d != s.self).foldl (fun (t : Table Nat) d =>
      Table.modify 0 (d * 1024 + tenant) (· + (x.geo d).reserve maxLen len) t) s.srv.farUse } }

/-- The checks of R91 that the lead's tables decide: rows 2 to 5, and the tenant's quota of rows 6 and 7, over every member. -/
def State.openCheck (s : State) (p : Packet) : Option (Status × Nat) :=
  let i := bits p.p0 0 4
  let id := bits p.p0 32 32
  let h := s.handleOf p.p1
  match Table.get none p.tenant s.srv.tenants with
  | none => some (.rejAuth, 2)
  | some t =>
    if !bit t.instMask i then some (.rejAuth, 2)
    else match s.activeInst i with
      | none => some (.rejVersion, 3)
      | some x =>
        let adVer := (s.currentOf i id).map fun a => a.ver
        if s.isSuspended i then some (.failDevice, 3)
        else if p.p1 != 0 && (match h with
            | none => true
            | some h => (h.tenant != p.tenant && !h.shared) || h.inst != i || h.adapterId != id ||
                (id != 0 && adVer.isSome && some h.adapterVer != adVer)) then some (.rejVersion, 3)
        else if id != 0 && adVer.isNone then some (.rejVersion, 4)
        else if decide (x.image.maxLen < p.p2) || decide (p.p2 < (h.map fun h => h.len).getD 0) then some (.rejFormat, 1)
        else if decide (65536 ≤ s.openSeqs.length) || decide (16384 ≤ (s.seqsOf i).length) ||
            decide (t.maxOpen ≤ (s.openSeqs.filter fun e => e.2.tenant == p.tenant).length) then some (.rejNoSpace, 5)
        else if p.cls == 1 && !s.quotaTakes p.tenant (reserveAll x p.p2 ((h.map fun h => h.len).getD 0)) then some (.rejNoSpace, 6)
        else if p.cls != 1 && !s.quotaTakes p.tenant (x.geo s.self).pageBytes then some (.rejNoSpace, 7)
        else none

/-- The member's side of a new sequence. -/
def fileOf (id : Nat) (p : Packet) (len : Nat) : KvFile :=
  { seqId := id, inst := bits p.p0 0 4, tenant := p.tenant, dawn := p.cls == 1, maxLen := p.p2, flushed := len / 64, staged := 0
    tables := [], stage := none, parked := none, bitmap := none, used := 0 }

/-- Open the member's side for a SEQ_OPEN packet. -/
def State.openMember (s : State) (id : Nat) (p : Packet) : Option State :=
  let h := if p.p1 == 0 then none else Table.get none (handleSlot p.p1) s.kv.handles
  s.openFile (id % 65536) (fileOf id p ((h.map fun h => h.len).getD 0)) h

/-- SEQ_OPEN at the lead (R91, R92, R101). -/
def State.seqOpen (s : State) (t : Ticket) : State :=
  let p := t.packet
  let i := bits p.p0 0 4
  match s.openCheck p with
  | some (st, k) => s.finishWith t.no st k
  | none =>
    match freeSlot 65536 fun k => (Table.get none k s.srv.seqs).isSome || s.srv.closing.contains k with
    | none => s.finishWith t.no .rejNoSpace 5
    | some slot =>
      let gen := nextGen 16 (Table.get 0 slot s.srv.seqGen)
      let id := slot + 65536 * gen
      match s.openMember id p with
      | none => s.finishWith t.no .rejNoSpace 6
      | some s =>
        let len := ((s.handleOf p.p1).map fun h => h.len).getD 0
        let ad := bits p.p0 32 32
        let q : Seq :=
          { gen := gen, cls := p.cls, tenant := p.tenant, inst := i, adapterId := ad
            adapterVer := ((s.currentOf i ad).map fun a => a.ver).getD 0, ring := p.p3 % 256, maxLen := p.p2, state := .idle
            inputs := [], len := len, stagedToks := 0, flushed := len / 64, bound := none, req := none, waited := 0, fails := 0
            held := [], unusable := false, lastToken := none, lastPeriod := 0, cancelled := false
            prefixSlot := if p.p1 == 0 then none else some (handleSlot p.p1), prefixLen := len, later := [], penalty := [] }
        let s := { s with srv := { s.srv with
          seqs := Table.insert slot (some q) s.srv.seqs, seqGen := Table.set 0 slot gen s.srv.seqGen } }
        let s := match s.activeInst i with
          | some x => if p.cls == 1 then s.reserveFar x p.tenant p.p2 len else s
          | none => s
        let others := s.otherMembers i
        if others.isEmpty then s.finish t.no { status := .ok, result0 := id }
        else (s.mapTicket t.no fun t => { t with note := id }).forwardTo t.no { p with p4 := id } none others

/-- A packet that closes a sequence at the members. -/
def closePacket (id : Nat) : Packet :=
  { ring := 0, opcode := 0x44, flags := 0, cls := 0, rsv3 := 0, tag := 0, payloadLen := 0, tenant := 0, rsv14 := 0
    payloadAddr := 0, p0 := id, p1 := 0, p2 := 0, p3 := 0, p4 := 0 }

/-- Close a sequence everywhere (R77, R81); the members may have been `told` already. -/
def State.closeEverywhere (s : State) (id th : Nat) (told : Bool := false) : State :=
  match s.seqOf id with
  | none => s
  | some q =>
    let s := (s.closeSeq id th).closeFileOf id
    (if told then s else s.tellMembers q.inst (closePacket id) none).freeDrained

/-- Every member has answered a SEQ_OPEN. -/
def State.openConcluded (s : State) (t : Ticket) : State :=
  match refusal t.answers with
  | some r => (s.closeEverywhere t.note 0).finish t.no { r.answer with result0 := 0 }
  | none => s.finish t.no { status := .ok, result0 := t.note }

/-- SEQ_APPEND (R77, R79, R93, R143).  Tokens appended while a request is in force wait in `later` until it retires: the spec's INGEST is entered
from GENERATE only after that (DESIGN CHOICE, log entry 36). -/
def State.seqAppend (s : State) (t : Ticket) : State :=
  let id := t.packet.p0
  let b := t.payload.getD []
  let toks := (List.range (b.length / 4)).map fun k => rd b (4 * k) 4
  match s.seqOf id with
  | none => s.finishWith t.no .rejVersion
  | some q =>
    let vocab := ((s.activeInst q.inst).map fun x => x.image.vocab).getD 0
    if toks.any fun k => decide (vocab ≤ k) then s.finishWith t.no .rejFormat 0x81
    else if s.isSuspended q.inst then s.finishWith t.no .failDevice
    else if q.maxLen < q.len + q.inputs.length + q.later.length + toks.length then s.finishWith t.no .rejNoSpace
    else if q.req.isSome then (s.modSeq id fun q => { q with later := q.later ++ toks }).finishWith t.no .ok
    else
      let inputs := q.inputs ++ toks
      let starts := q.state == .idle && decide (2 ≤ inputs.length)
      match (if starts && q.cls == 1 then s.bindDawn id q else some s) with
      | none => (s.bump R.QUE_REJECTS.CLASS_FULL).finishWith t.no .rejClassFull
      | some s =>
        (s.modSeq id fun q => { q with inputs := inputs, state := if starts then .ingest else q.state }).finishWith t.no .ok

/-- The estimate of R94: the time at which the last of `n` tokens is delivered, from a first furrow start `start`; `none`: the
class was given no lane although it had runnable sequences. -/
def State.estimate (s : State) (q : Seq) (n start : Nat) : Option Nat :=
  let nin := q.inputs.length
  let f : Option Nat :=
    if q.cls == 1 then some (ceilDiv (nin - 1) 16 + n)
    else
      let run := Table.get 0 q.cls s.srv.lastRunnable
      let given := Table.get 0 q.cls s.srv.lastGiven
      if given == 0 then (if run == 0 then some (ceilDiv nin (max 1 s.srv.lastGlean) + n) else none)
      else some (ceilDiv nin (max 1 s.srv.lastGlean) + max n (ceilDiv (n * run) given))
  f.map fun f => start + f * s.period - s.headlandLen + 2000

/-- The first furrow start after this headland; a free value where none is set (R94). -/
def State.nextStart (s : State) : State × Nat :=
  if s.inSchedule then (s, s.furrowStart (s.furrow + 1))
  else if s.frwState == frwArmed then (s, s.frw.t0)
  else (s.draw, s.freeVal)

/-- The bytes of an allowed-token bitmap in the lead's stack memory (R274). -/
def State.bitmapBytes (s : State) (x : Sampling) (vocab : Nat) : Option Bytes :=
  if x.bitmapAddr == 0 then none else some (s.read x.bitmapAddr (ceilDiv vocab 8))

/-- Keep a member's copy of a bitmap in its stack memory, in place of an earlier one (R274); one that finds no room is noted at address 0
(log entry 40). -/
def State.keepBitmap (s : State) (id : Nat) (b : Option Bytes) : State :=
  match s.file? (id % 65536) with
  | none => s
  | some f =>
    let s := match f.bitmap with
      | some x => s.ownFree x.1
      | none => s
    let n := match s.geo f.inst with
      | some g => g.tileOf 0
      | none => 0
    match b with
    | none => s.setFile (id % 65536) (some { f with bitmap := none })
    | some b => match s.ownAlloc n b.length with
      | none => s.setFile (id % 65536) (some { f with bitmap := some (0, b.length) })
      | some (s, a) => (s.write a b).setFile (id % 65536) (some { f with bitmap := some (a, b.length) })

/-- The checks of a SEQ_GENERATE's payload (R128, R149, R274): the block, and, where the sequence is known, its vocabulary and the bitmap's
range. -/
def State.samplingCheck (s : State) (t : Ticket) : Option Sampling :=
  match samplingOf (t.payload.getD []) with
  | none => none
  | some x =>
    let vocab := ((s.seqOf t.packet.p0).bind fun q => s.activeInst q.inst).map fun i => i.image.vocab
    let far := match vocab with
      | some v => x.bias.any fun e => decide (v ≤ e.1)
      | none => false
    if far || (x.bitmapAddr != 0 && !inStack x.bitmapAddr (max 1 (ceilDiv (vocab.getD 0) 8))) then none else some x

/-- SEQ_GENERATE is admitted (R77, R80, R93, R94, R135): a dawn lane is bound, the bitmap is read, and the request is in force. -/
def State.admitRequest (s : State) (t : Ticket) (q : Seq) (x : Sampling) : State :=
  let p := t.packet
  let vocab := ((s.activeInst q.inst).map fun x => x.image.vocab).getD 0
  let (s, start) := s.nextStart
  let late := p.f4 && match s.estimate q p.p1 start with
    | some e => decide (p.p2 < e)
    | none => true
  match (if q.cls == 1 then s.bindDawn p.p0 q else some s) with
  | none => (s.bump R.QUE_REJECTS.CLASS_FULL).finishWith t.no .rejClassFull
  | some bound =>
    if late then (s.bump R.QUE_REJECTS.DEADLINE).finishWith t.no .rejDeadline
    else
      let r : Request := ⟨t.no, p.p1, 0, if p.f4 then some p.p2 else none, p.f5, x⟩
      let bm := bound.bitmapBytes x vocab
      let s := bound.modSeq p.p0 fun q =>
        { q with req := some r, penalty := [], state := if 2 ≤ q.inputs.length then .ingest else .generate }
      let s := (s.keepBitmap p.p0 bm).tellMembers q.inst { p with payloadLen := (bm.getD []).length } bm
      s.markPending t.no

/-- SEQ_GENERATE (R77 to R80, R93, R94, R135, R149, R357). -/
def State.seqGenerate (s : State) (t : Ticket) : State :=
  match s.samplingCheck t with
  | none => s.finishWith t.no .rejFormat 0x81
  | some x => match s.seqOf t.packet.p0 with
    | none => s.finishWith t.no .rejVersion
    | some q =>
      if s.isSuspended q.inst then s.finishWith t.no .failDevice
      else if q.unusable then s.finishWith t.no .failStep
      else if q.req.isSome || q.inputs.isEmpty then s.finishWith t.no .cfgConflict
      else s.admitRequest t q x

/-- SEQ_CANCEL (R78, R81). -/
def State.seqCancel (s : State) (t : Ticket) (th : Nat) : State :=
  match s.seqOf t.packet.p0 with
  | none => s.finishWith t.no .rejVersion
  | some q =>
    if s.isSuspended q.inst then s.finishWith t.no .failDevice
    else (s.retireSeq t.packet.p0 th .cancelled).finishWith t.no .ok

/-- SEQ_CLOSE (R77, R81). -/
def State.seqClose (s : State) (t : Ticket) (th : Nat) : State :=
  match s.seqOf t.packet.p0 with
  | none => s.finishWith t.no .rejVersion
  | some _ => (s.closeEverywhere t.packet.p0 th (t.note == 1)).finishWith t.no .ok

/-! ### Prefix handles (R99 to R102) -/

/-- Enter a new handle: its value. -/
def State.newHandle (s : State) (h : Handle) : Option (State × Nat) :=
  (freeSlot 16384 fun k => (Table.get none k s.srv.handles).isSome).map fun slot =>
    let gen := nextGen 32 (Table.get 0 slot s.srv.handleGen)
    ({ s with srv := { s.srv with
        handles := Table.insert slot (some { h with gen := gen }) s.srv.handles
        handleGen := Table.set 0 slot gen s.srv.handleGen } }, slot + 2 ^ 32 * gen)

/-- PREFIX_CREATE (R100, R142). -/
def State.prefixCreate (s : State) (t : Ticket) : State :=
  let p := t.packet
  match s.seqOf p.p0 with
  | none => s.finishWith t.no .rejVersion
  | some q =>
    if 64 * q.flushed < p.p1 then s.finishWith t.no .rejFormat 0x81
    else if s.isSuspended q.inst then s.finishWith t.no .failDevice
    else if q.state != .idle then s.finishWith t.no .cfgConflict
    else
      let fmt := ((s.activeInst q.inst).map fun x => x.image.kvFmt).getD 0
      match s.newHandle ⟨0, q.inst, q.adapterId, q.adapterVer, fmt, p.p1, p.tenant, p.f4⟩ with
      | none => s.finishWith t.no .rejNoSpace
      | some (s, h) =>
        let s := s.makeHandle (handleSlot h) (p.p0 % 65536) p.tenant p.p1
        (s.tellMembers q.inst { p with p4 := h } none).finish t.no { status := .ok, result0 := h }

/-- Release a handle everywhere (R102); the members may have been `told` already. -/
def State.releaseHandle (s : State) (h : Nat) (told : Bool := false) : State :=
  match s.handleOf h with
  | none => s
  | some x =>
    let s := ({ s with srv := { s.srv with handles := Table.set none (handleSlot h) none s.srv.handles } }).dropHandle (handleSlot h)
    if told then s else s.tellMembers x.inst { closePacket h with opcode := 0x31 } none

/-- PREFIX_RELEASE (R102). -/
def State.prefixRelease (s : State) (t : Ticket) : State :=
  match s.handleOf t.packet.p0 with
  | none => s.finishWith t.no .rejVersion
  | some _ => (s.releaseHandle t.packet.p0 (t.note == 1)).finishWith t.no .ok

/-! ### Tenants (R144) -/

/-- TENANT_SET. -/
def State.tenantSet (s : State) (t : Ticket) : State :=
  let p := t.packet
  let old := Table.get none p.tenant s.srv.tenants
  let set := fun (o : Option Tenant) => { s with srv := { s.srv with tenants := Table.set none p.tenant o s.srv.tenants } }
  if p.f4 then
    if s.openSeqs.any fun e => e.2.tenant == p.tenant then s.finishWith t.no .cfgConflict
    else (set none).finishWith t.no .ok
  else
    let credit := (old.map fun x => x.credit).getD 0
    (set (some ⟨bits p.p0 0 8, bits p.p0 8 8, p.p1, p.p2, p.p3, p.p4, credit⟩)).finishWith t.no .ok

/-! ### Key-value images (R355, R356) -/

/-- Global key-value heads that an instance's device holds, by local head (R320). -/
def globalHead (x : Inst) (self h : Nat) : Nat :=
  let ring := max 1 x.image.ring
  let m := (bitList 64 x.mask).length / ring
  let k := (bitList 64 x.mask).idxOf self / ring
  (k * x.image.hLoc + h) * x.image.kvHeads / max 1 (m * x.image.hLoc)

/-- Offset in an image of a plot: layer, global head, block of `nb`, plot of a slot (keys first). -/
def imageOff (g : Geo) (heads nb layer head j p : Nat) : Nat :=
  64 + (((layer * heads + head) * nb + j) * (2 * g.plots) + p) * 4160

/-- Where plot `p` of the image order lies in a slot. -/
def imagePlotOff (g : Geo) (p : Nat) : Nat := kvPlotOff g (decide (g.plots ≤ p)) (p % g.plots)

/-- INDEX of plot `p` of the image order (R335). -/
def imagePlotIndex (g : Geo) (j p : Nat) : Nat := 8 * j + (if g.plots ≤ p then 4 + (p - g.plots) else p)

/-- A plot with another TENSOR, its CRC made anew. -/
def retensor (b : Bytes) (tensor : Nat) : Bytes :=
  let h := slice b 0 8 ++ leBytes 4 tensor ++ slice b 12 16
  h ++ leBytes 4 (crc32c (h ++ slice b 32 32 ++ b.drop 64)) ++ b.drop 32

/-- Bytes of the nonce and the tag that stand before the body of a protected instance's image (R554). -/
def Inst.tagLen (x : Inst) : Nat := if x.prot then 28 else 0

/-- An image with its body in plaintext; `none`: the tag of a protected instance's image fails (R554; DEDUCED, log entry 47: no
additional data). -/
def State.openImage (s : State) (x : Inst) (i : Nat) (b : Bytes) : Option Bytes :=
  if !x.prot then some b
  else
    let nonce := slice b 64 12
    let body := gcmCrypt (s.instKey i) nonce (b.drop 92)
    if slice b 76 16 == leBytes 16 (Config.gcmTag (s.instKey i) nonce [] body).toNat then some (b.take 64 ++ body) else none

/-- The checks of R356 on an image, with R554's on its tag: the status of the first that fails, or the image in plaintext. -/
def State.imageCheck (s : State) (i : Nat) (tokens : Nat) (b : Bytes) : Except Status Bytes :=
  let nb := tokens / 64
  if rd b 0 4 != 0x4D49564B || rd b 16 4 != tokens || rd b 7 1 != 0 || rd b 14 2 != 0 || rd b 20 4 != 0 || !allZero (slice b 36 28) then
    .error .rejFormat
  else match s.activeInst i with
    | none => .error .rejVersion
    | some x =>
      let m := x.image
      let g := x.geo s.self
      let body := m.layers * m.kvHeads * nb * (2 * g.plots) * 4160
      if crc32c (slice b (64 + x.tagLen) body) != rd b 32 4 then .error .rejFormat
      else match s.openImage x i b with
      | none => .error .rejAuth
      | some b =>
      if rd b 4 2 != 1 || rd b 24 8 != x.tag || rd b 6 1 != m.kvFmt || rd b 8 2 != m.headDim || rd b 10 2 != m.layers ||
          rd b 12 2 != m.kvHeads then .error .rejVersion
      else
        let whole := (List.range m.layers).all fun l => (List.range m.kvHeads).all fun h => (List.range nb).all fun j =>
          (List.range (2 * g.plots)).all fun p =>
            (kvPlotCause m.kvFmt l h (imagePlotIndex g j p) (slice b (imageOff g m.kvHeads nb l h j p) 4160) false).isNone
        if whole then .ok b else .error .failPlot

/-- Bytes of a key-value image. -/
def State.imageLen (s : State) (i tokens : Nat) : Nat :=
  match s.activeInst i with
  | none => 64
  | some x => 64 + x.tagLen + x.image.layers * x.image.kvHeads * (tokens / 64) * (2 * (x.geo s.self).plots) * 4160

/-- Place an image's plots on this device's partitions, and its handle over them (R356); `none`: no room. -/
def State.importHere (s : State) (i h tenant tokens : Nat) (b : Bytes) : Option State :=
  match s.activeInst i with
  | none => none
  | some x =>
    if !bit x.mask s.self then some s
    else
      let g := x.geo s.self
      let nb := tokens / 64
      -- the pages stand for a moment in the tables of a sequence outside the slots, which then become the handle's
      let f : KvFile := { fileOf 0 (closePacket 0) 0 with inst := i, tenant := tenant, maxLen := tokens, flushed := nb }
      match s.newTables x.image.shareArea g tokens g.serving with
      | none => none
      | some (s, tables) =>
        let f := { f with tables := tables }
        let s := s.setFile 65536 (some f)
        let done := tryAll (fun (s : State) (t : Nat × Nat × Nat) =>
          tryAll (fun (s : State) (p : Nat × Nat) =>
            (s.privateSlot t.2.1 t.2.2 (g.offset tokens p.1 p.2) g.size tenant g.fmt g.watermark false).map
              fun (y : State × Nat) =>
                let e := y.1.pte t.2.2 (g.offset tokens p.1 p.2 / 16384)
                let j := (p.2 * g.shares + t.1) * g.ring + g.pos
                let l := p.1 / g.hLoc
                (List.range (2 * g.plots)).foldl (fun (s : State) k =>
                  let src := slice b (imageOff g x.image.kvHeads nb l (globalHead x s.self (p.1 % g.hLoc)) j k) 4160
                  s.putPlot (s.pool t.2.1 (Pte.tier e)) y.2 (imagePlotOff g k) (retensor src (0x4B560000 + l * 256 + p.1 % g.hLoc))) y.1)
            s (g.places t.1 nb)) s (List.zip (List.range tables.length) tables)
        done.map fun s =>
          let k : KvHandle := ⟨i, tenant, tokens, tokens, s.coverTables f g tokens⟩
          let s := s.setFile 65536 none
          { s with kv := { s.kv with handles := Table.set none (handleSlot h) (some k) s.kv.handles } }

/-- KV_IMPORT at the lead (R142, R356). -/
def State.kvImport (s : State) (t : Ticket) : State :=
  let p := t.packet
  let i := bits p.p0 0 4
  let ad := bits p.p0 32 32
  let b := s.read p.p2 (s.imageLen i p.p3)
  let resident := (s.version? i ad p.p1).map fun a => a.resident && a.state != .loading
  if s.isSuspended i then s.finishWith t.no .failDevice
  else if (s.activeInst i).isNone || (ad != 0 && resident != some true) then s.finishWith t.no .rejVersion
  else match s.imageCheck i p.p3 b with
    | .error st => s.finishWith t.no st
    | .ok b =>
      let fmt := ((s.activeInst i).map fun x => x.image.kvFmt).getD 0
      match s.newHandle ⟨0, i, ad, p.p1, fmt, p.p3, p.tenant, p.f4⟩ with
      | none => s.finishWith t.no .rejNoSpace
      | some (s', h) =>
        match s'.importHere i h p.tenant p.p3 b with
        | none => s.finishWith t.no .rejNoSpace
        | some s =>
          let others := s.otherMembers i
          if others.isEmpty then s.finish t.no { status := .ok, result0 := h }
          else (s.mapTicket t.no fun t => { t with note := h }).forwardTo t.no { p with p4 := h } (some b) others

/-- Every member has answered a KV_IMPORT. -/
def State.importConcluded (s : State) (t : Ticket) : State :=
  match refusal t.answers with
  | some r => (s.releaseHandle t.note).finish t.no { r.answer with result0 := 0 }
  | none => s.finish t.no { status := .ok, result0 := t.note }

/-- What a device holds of the first blocks of a sequence, as offsets in the image with the plots (R356); `none`: a plot is
damaged. -/
def State.exportParts (s : State) (id nb : Nat) : Option (List (Nat × Bytes)) :=
  match s.file? (id % 65536) with
  | none => some []
  | some f =>
    match s.activeInst f.inst with
    | none => some []
    | some x =>
      let g := x.geo s.self
      let parts := (List.zip (List.range f.tables.length) f.tables).flatMap fun (t : Nat × Nat × Nat) =>
        (g.places t.1 nb).flatMap fun (p : Nat × Nat) =>
          let off := g.offset f.maxLen p.1 p.2
          let e := s.pte t.2.2 (off / 16384)
          let slot := Pte.addr e + off % Pte.bytes e
          let pool := s.pool t.2.1 (Pte.tier e)
          let j := (p.2 * g.shares + t.1) * g.ring + g.pos
          let l := p.1 / g.hLoc
          (List.range (2 * g.plots)).map fun k =>
            let a := slot + imagePlotOff g k
            let b := s.read (headerOf pool a) 64 ++ s.read a 4096
            let head := globalHead x s.self (p.1 % g.hLoc)
            let bad := kvPlotCause g.fmt l (p.1 % g.hLoc) (imagePlotIndex g j k) b (s.poisoned a 4096)
            (imageOff g x.image.kvHeads nb l head j k, bad.isSome, retensor b (0x4B560000 + l * 256 + head))
      if parts.any fun e => e.2.1 then none else some (parts.map fun e => (e.1, e.2.2))

/-- Plots in the bytes of a member's answer: each with its offset in front. -/
def partBytes (l : List (Nat × Bytes)) : Bytes := l.flatMap fun e => leBytes 8 e.1 ++ e.2

/-- Write plots so packed into an image at an address. -/
def State.placeParts (s : State) (dst : Nat) (b : Bytes) : State :=
  (chunks 4168 (b.length + 1) b).foldl (fun (s : State) c => s.write (dst + rd c 0 8) (c.drop 8)) s

/-- What stands after the header of an exported image: a protected instance's body is encrypted, under a free nonce (R554). -/
def State.exportBody (s : State) (x : Inst) (i : Nat) (body : Bytes) : Bytes :=
  if !x.prot then body
  else
    let nonce := leBytes 12 s.freeVal
    nonce ++ leBytes 16 (Config.gcmTag (s.instKey i) nonce [] body).toNat ++ gcmCrypt (s.instKey i) nonce body

/-- The header of an exported image, and its completion, once every part is in place. -/
def State.exportDone (s : State) (t : Ticket) : State :=
  let p := t.packet
  match (s.seqOf p.p0).bind fun q => s.activeInst q.inst with
  | none => s.finishWith t.no .rejVersion
  | some x =>
    let i := ((s.seqOf p.p0).map fun q => q.inst).getD 0
    let len := s.imageLen i p.p1
    let m := x.image
    let body := s.exportBody x i (s.read (p.p2 + 64) (len - 64 - x.tagLen))
    let crc := crc32c (body.drop x.tagLen)
    let h := leBytes 4 0x4D49564B ++ leBytes 2 1 ++ leBytes 1 m.kvFmt ++ leBytes 1 0 ++ leBytes 2 m.headDim ++ leBytes 2 m.layers ++
      leBytes 2 m.kvHeads ++ leBytes 2 0 ++ leBytes 4 p.p1 ++ leBytes 4 0 ++ leBytes 8 x.tag ++ leBytes 4 crc ++ List.replicate 28 0
    ((s.write p.p2 h).write (p.p2 + 64) body).draw.finish t.no { status := .ok, result0 := len }

/-- KV_EXPORT at the lead (R142, R356). -/
def State.kvExport (s : State) (t : Ticket) : State :=
  let p := t.packet
  match s.seqOf p.p0 with
  | none => s.finishWith t.no .rejVersion
  | some q =>
    if 64 * q.flushed < p.p1 || !inStack p.p2 (s.imageLen q.inst p.p1) then s.finishWith t.no .rejFormat 0x81
    else if s.isSuspended q.inst then s.finishWith t.no .failDevice
    else if q.state != .idle then s.finishWith t.no .cfgConflict
    else match s.exportParts p.p0 (p.p1 / 64) with
      | none => s.finishWith t.no .failPlot
      | some l => ((s.awaitSelf t.no).forwardTo t.no p none (s.otherMembers q.inst)).reply t.no { status := .ok, data := partBytes l }

/-- Every device has answered a KV_EXPORT: nothing is written before, nor where one failed (R135). -/
def State.exportConcluded (s : State) (t : Ticket) : State :=
  match refusal t.answers with
  | some r => s.finish t.no r.answer
  | none => (t.answers.foldl (fun (s : State) r => s.placeParts t.packet.p2 r.data) s).exportDone t

/-! ### The end of an instance (R141) -/

/-- What depends on an instance ends, when a commit removes it. -/
def State.endInst (s : State) (i th : Nat) : State :=
  let ids := (s.seqsOf i).map Prod.fst
  let s := ids.foldl (fun (s : State) id => s.retireSeq id th .cancelled) s
  let s := ids.foldl (fun (s : State) id => (s.closeSeq id th).closeFile (id % 65536)) s
  let s := s.kv.files.foldl (fun (s : State) e => match e.2 with
    | some f => if f.inst == i then s.closeFile e.1 else s
    | none => s) s
  let s := s.srv.handles.foldl (fun (s : State) e => match e.2 with
    | some h => if h.inst == i then { s with srv := { s.srv with handles := Table.set none e.1 none s.srv.handles } } else s
    | none => s) s
  let s := s.kv.handles.foldl (fun (s : State) e => match e.2 with
    | some h => if h.inst == i then s.dropHandle e.1 else s
    | none => s) s
  let s := (s.srv.adapters.filter fun a => a.inst == i).foldl (fun (s : State) (a : Adapter) =>
    let s := s.dropVersion i a.id a.ver
    match a.ticket with
    | some no => s.finishWith no .cancelled
    | none => s) s
  let s := (Table.get [] i s.srv.descLists).foldl (fun (s : State) a => s.ownFree a) s
  { s with srv := { s.srv with
      lanes := Table.erase i s.srv.lanes
      built := Table.erase i s.srv.built
      laneWait := Table.erase i s.srv.laneWait
      laneRecv := Table.erase i s.srv.laneRecv
      descLists := Table.erase i s.srv.descLists
      suspended := s.srv.suspended.filter fun x => x != i
      rounds := s.srv.rounds.filter fun e => e.1 / 64 != i } }

/-! ### The commands in order (R81, R130, R348) -/

/-- The object a command acts on: a sequence or a handle; SEQ_OPEN's is the handle it names. -/
def objectOf (p : Packet) : Option (Nat × Nat) :=
  match p.opcode with
  | 0x30 => some (0, p.p0) | 0x31 => some (1, p.p0) | 0x33 => some (0, p.p0)
  | 0x40 => if p.p1 == 0 then none else some (1, p.p1)
  | 0x41 => some (0, p.p0) | 0x42 => some (0, p.p0) | 0x43 => some (0, p.p0) | 0x44 => some (0, p.p0)
  | _ => none

def State.undefer (s : State) (no : Nat) : State :=
  { s with srv := { s.srv with deferred := s.srv.deferred.filter fun n => n != no } }

/-- A command that waited for a headland takes effect. -/
def State.applyTicket (s : State) (th no : Nat) : State :=
  match s.ticket? no with
  | none => s.undefer no
  | some t =>
    let s := s.undefer no
    match t.packet.opcode with
    | 0x30 => s.prefixCreate t
    | 0x31 => s.prefixRelease t
    | 0x32 => s.kvImport t
    | 0x33 => s.kvExport t
    | 0x40 => s.seqOpen t
    | 0x41 => s.seqAppend t
    | 0x42 => s.seqGenerate t
    | 0x43 => s.seqCancel t th
    | 0x44 => s.seqClose t th
    | 0x50 => s.tenantSet t
    | _ => s

/-- Whether a command must still wait for an earlier one on its object that its devices have not all answered (R132). -/
def State.objectBusy (s : State) (t : Ticket) : Bool :=
  (objectOf t.packet).isSome &&
    s.que.tickets.any fun u => decide (u.no < t.no) && !u.awaiting.isEmpty && objectOf u.packet == objectOf t.packet

/-- In the retirement item, cancellations, closings and releases that no earlier command on their object precedes. -/
def State.applyEndings (s : State) (th : Nat) : State :=
  (s.srv.deferred.foldl (fun (x : State × List (Nat × Nat)) no =>
    match x.1.ticket? no with
    | none => (x.1.undefer no, x.2)
    | some t => match objectOf t.packet with
      | none => x
      | some o =>
        let op := t.packet.opcode
        if (op == 0x31 || op == 0x43 || op == 0x44) && !x.2.contains o && !x.1.objectBusy t then (x.1.applyTicket th no, x.2)
        else (x.1, x.2 ++ [o])) (s, [])).1

/-- Whether a command acts on a sequence whose lane of the step that ended is not settled: token delivery precedes it (R59). -/
def State.laneOpen (s : State) (t : Ticket) : Bool := match objectOf t.packet with
  | some (0, id) => s.srv.openLanes.any fun x => x.2.seqId == id
  | _ => false

/-- A command that waits acts, or goes on waiting: in this headland for its sequence's lane, or for a later one. -/
def State.applyOne (s : State) (th no : Nat) : State :=
  match s.ticket? no with
  | none => s.undefer no
  | some t =>
    if t.packet.opcode == 0x24 || s.objectBusy t then s
    else if s.laneOpen t then { s with srv := { s.srv with waitCmds := s.srv.waitCmds ++ [no] } }
    else s.applyTicket th no

/-- The commands that wait, in submission order (R81, R130); ADAPTER_RETIRE has its own item. -/
def State.applyCommands (s : State) (th : Nat) : State := s.srv.deferred.foldl (fun (s : State) no => s.applyOne th no) s

/-- The commands that waited for a lane of their sequence, in order. -/
def State.applyWaiting (s : State) (th : Nat) : State :=
  s.srv.waitCmds.foldl (fun (s : State) no => s.applyOne th no) { s with srv := { s.srv with waitCmds := [] } }

/-- Closings and releases that were told ahead take effect (R348). -/
def State.applyTold (s : State) : State :=
  s.srv.told.foldl (fun (s : State) (p : Packet) => if p.opcode == 0x31 then s.dropHandle (handleSlot p.p0) else s.closeFileOf p.p0)
    { s with srv := { s.srv with told := [] } }

/-- A closing or release is told to the members when it is accepted, with the furrow whose headland it takes effect in, so that they drop
their references in that headland's retirement item (R348): unless an earlier command on its object is still to come. -/
def State.tellEnding (s : State) (t : Ticket) : State :=
  let p := t.packet
  let first := !(s.que.tickets.any fun u => decide (u.no < t.no) && !(u.packet.opcode == 0x42 && u.pending) &&
    (objectOf u.packet).isSome && objectOf u.packet == objectOf p)
  let inst := if p.opcode == 0x31 then (s.handleOf p.p0).map fun h => h.inst
    else if p.opcode == 0x44 then (s.seqOf p.p0).map fun q => q.inst
    else none
  match inst with
  | none => s
  | some i =>
    if !s.inSchedule || !first then s
    else
      let k := if s.isSet R.FRW_STATE.HEADLAND then s.furrow + 1 else s.furrow
      (s.mapTicket t.no fun t => { t with note := 1 }).tellMembers i { closePacket p.p0 with opcode := p.opcode, p3 := k, p4 := 1 } none

/-- Sequences whose cancellation or closing will take effect at this headland: their tokens are withheld (R81). -/
def State.markCancelled (s : State) : State :=
  s.srv.deferred.foldl (fun (s : State) no =>
    match s.ticket? no with
    | some t => if t.packet.opcode == 0x43 || t.packet.opcode == 0x44 then s.modSeq t.packet.p0 fun q => { q with cancelled := true } else s
    | none => s) s

/-- The files take the counts of the lead's sequences before the flush, and give them back after it (R344, R345). -/
def State.syncFiles (s : State) : State :=
  s.openSeqs.foldl (fun (s : State) (e : Nat × Seq) => match s.file? (e.1 % 65536) with
    | some f => s.setFile (e.1 % 65536) (some { f with staged := e.2.stagedToks, flushed := e.2.flushed })
    | none => s) s
def State.syncSeqs (s : State) : State :=
  s.openSeqs.foldl (fun (s : State) (e : Nat × Seq) => match s.file? (e.1 % 65536) with
    | some f => s.modSeq e.1 fun q => { q with stagedToks := f.staged, flushed := f.flushed }
    | none => s.modSeq e.1 fun q => if q.stagedToks == 64 then { q with stagedToks := 0, flushed := q.flushed + 1 } else q) s

end Sys2Proof.Machine
end

