-- ==== Sys2Proof/Machine/Fetching.lean ====
section
/-!
DEFINITION. Fetching from the submission rings (R117, R118, R490): bursts of packet reads in ring order, held while the paired
completion ring cannot take a record.
-/

namespace Sys2Proof.Machine

/-- Packet reads of a ring in flight. -/
def State.inFlight (s : State) (i : Nat) : Nat :=
  (s.que.fetches.filter fun f => f.ring == i && f.ticket.isNone).length

/-- Whether the lead device may fetch from a submission ring (R118, R481, R501). -/
def State.mayFetch (s : State) (i : Nat) : Bool :=
  s.alive && s.isLead && s.isSet R.GLB_READY.BOOT_OK && s.isSet (R.QUE_SQ_CTRL.ENABLE i) && s.cqOpen i &&
    (Table.get [] i s.que.cqHeld).isEmpty

/-- Issue the next burst of a ring: up to 8 packets between the head and the tail, once the burst before is in (R490). -/
def State.fetchRing (s : State) (i : Nat) : State :=
  if !s.mayFetch i || s.inFlight i != 0 then s.noteHold i
  else
    let n := s.sqEntries i
    let head := s.get (R.QUE_SQ_CTRL.INDEX i)
    let k := min 8 ((Table.get 0 i s.que.sqTail + n - head) % n)
    (List.range k).foldl (fun (s : State) j =>
      let e := (head + j) % n
      let s := s.emit (.hostRead (s.get (R.QUE_SQ_BASE.BASE i) * 4096 + 64 * e) 64)
      { s with que := { s.que with fetches := s.que.fetches ++ [⟨i, e, none⟩] } }) s

/-- The packet reads of a ring that has been disabled are forgotten. -/
def State.dropFetches (s : State) (i : Nat) : State :=
  { s with que := { s.que with fetches := s.que.fetches.filter fun f => f.ring != i || f.ticket.isSome } }

/-- Held completion records of a ring are written as it takes them, and its fetches go on. -/
def State.resumeRing (s : State) (i : Nat) : State := (s.drainCq i).fetchRing i

end Sys2Proof.Machine
end

