-- ==== Sys2Proof/Machine/RegFile.lean ====
section
/-!
DEFINITION. The register file as software sees it (R8 to R13, R31, R66, R592): whole registers by their offset in the
register window, with the bits that follow other state live.
-/

namespace Sys2Proof.Machine

/-- Whether an offset is that of a register of a class, and its indices. -/
def RegClass.index (c : RegClass) (a : Nat) : Option (Nat × Nat) :=
  if a < c.base then none
  else
    let o := a - c.base
    let n := if c.stride == 0 then 0 else min (o / c.stride) (c.count - 1)
    let r := o - n * c.stride
    let i := if c.stride2 == 0 then 0 else r / c.stride2
    if r == i * c.stride2 && decide (n < c.count ∧ i < c.count2) then some (n, i) else none

/-- The fields of the register at an offset; none where no register lies. -/
def fieldsAt (a : Nat) : List Field :=
  (regClasses.findSome? fun c => (c.index a).map fun x => c.fields x.1 x.2).getD []

/-- MRD.STATUS.MARK_PRESENT (R66): a mark was accepted in the current search window or the one before it, and the second window in a
row without one is not over.  The two halves of R66 differ during that second window; the bit falls at its end (DEDUCED, log entry
18). -/
def State.markPresent (s : State) : Bool :=
  s.mrdState != mrdUnlocked && s.mrd.accepted &&
    decide ((s.now + 500000) / 1000000 ≤ s.get R.MRD_LAST_MARK.LAST_MARK / 1000000 + 2)

/-- What a field reads: READY and MARK_PRESENT follow live (R31, R66), a write-only field reads 0 (R10). -/
def State.fieldValue (s : State) (f : Field) : Nat :=
  if f == R.GLB_READY.READY then b2n s.ready
  else if f == R.MRD_STATUS.MARK_PRESENT then b2n s.markPresent
  else if f.access == .wo then 0
  else s.get f

/-- An error record's register (R592). -/
def State.errReg (s : State) (a : Nat) : Nat :=
  match Table.get none ((a - 0x800) / 32) s.flt.log with
  | some r => rd (errBytes r) (a % 32) 8
  | none => 0

/-- The register at an offset of the window, as a read answers it. -/
def State.readReg (s : State) (a : Nat) : Nat :=
  if 0x800 ≤ a ∧ a < 0x1000 then s.errReg a
  else (fieldsAt a).foldl (fun v f => v + s.fieldValue f * 2 ^ f.lo) 0

end Sys2Proof.Machine
end

