-- ==== Sys2Proof/Machine/RegWrite.lean ====
section
/-!
DEFINITION. Writes of registers (R10 to R12, R113, R120, R373, R384, R480, R481, R501, R562, R577, R580, R592, R605): live, W1C
and write-only fields, the registers whose write does more than set a field, and what the host may write.
-/

namespace Sys2Proof.Machine

/-! ### Fields -/

/-- A field under a write of some of its register's bits: a reserved encoding leaves it as it is (R12). -/
def State.writeField (s : State) (v m : Nat) (f : Field) : State :=
  let fm := bits m f.lo f.width
  let x := bits v f.lo f.width &&& fm
  let old := s.get f
  match f.access with
  | .live =>
    let new := old - (old &&& fm) + x
    if fm != 0 && f.isLegal new then s.put f new else s
  | .w1c => s.put f (old - (old &&& x))
  | _ => s

/-- Whether software can write some field of a register (R480). -/
def writable (off : Nat) : Bool := (fieldsAt off).any fun f => f.access == .live || f.access == .w1c || f.access == .wo

/-! ### Rings (R116, R120) -/

/-- The control register of a ring: 0 submission, 1 completion, 2 token. -/
def ringEnable (k i : Nat) : Field :=
  if k == 0 then R.QUE_SQ_CTRL.ENABLE i else if k == 1 then R.QUE_CQ_CTRL.ENABLE i else R.QUE_TR_CTRL.ENABLE i
def ringSize (k i : Nat) : Field :=
  if k == 0 then R.QUE_SQ_CTRL.SIZE_CODE i else if k == 1 then R.QUE_CQ_CTRL.SIZE_CODE i else R.QUE_TR_CTRL.SIZE_CODE i
def ringIndex (k i : Nat) : Field :=
  if k == 0 then R.QUE_SQ_CTRL.INDEX i else if k == 1 then R.QUE_CQ_CTRL.INDEX i else R.QUE_TR_CTRL.INDEX i
def ringBase (k i : Nat) : Field :=
  if k == 0 then R.QUE_SQ_BASE.BASE i else if k == 1 then R.QUE_CQ_BASE.BASE i else R.QUE_TR_BASE.BASE i

/-- Rings of a kind (R114). -/
def ringCount (k : Nat) : Nat := if k == 2 then 256 else 16

/-- A ring comes into use: head and tail are 0, and its first pass begins. -/
def State.startRing (s : State) (k i : Nat) : State :=
  let s := s.put (ringIndex k i) 0
  let q := s.que
  if k == 0 then { s with que := { q with sqTail := Table.set 0 i 0 q.sqTail } }
  else if k == 1 then
    ({ s with que := { q with cqHead := Table.set 0 i 0 q.cqHead, cqPass := Table.set 0 i 0 q.cqPass } }).resumeRing i
  else { s with que := { q with trHead := Table.set 0 i 0 q.trHead, trPass := Table.set 0 i 0 q.trPass } }

/-- A write of a ring's control register: SIZE_CODE only while ENABLE was 0. -/
def State.ringCtrl (s : State) (k i v m : Nat) : State :=
  if ringCount k ≤ i then s
  else
    let was := s.isSet (ringEnable k i)
    let m := if was then m - (m &&& mask (ringSize k i).lo (ringSize k i).width) else m
    let s := (fieldsAt (ringEnable k i).addr).foldl (fun (s : State) f => s.writeField v m f) s
    if !was && s.isSet (ringEnable k i) then s.startRing k i
    else if was && k == 0 && !s.isSet (ringEnable k i) then s.dropFetches i
    else s

/-- D2H traffic may flow again (R491, R493): what waited leaves, and held completion records are written. -/
def State.reopen (s : State) : State :=
  if !s.d2hOpen then s
  else
    let l := s.cxl.waiting
    let s := { s with cxl := { s.cxl with waiting := [] } }
    let s := l.foldl (fun (s : State) o => s.emit o) s
    (List.range 16).foldl (fun (s : State) i => s.resumeRing i) s

/-! ### Other registers with an effect of their own -/

/-- CLEAR of an instance's health (R577). -/
def State.clearHealth (s : State) (i : Nat) : State :=
  if s.isLead && s.health i == healthDegraded && !s.doubledTile i then
    (s.put (R.GLB_INST_HEALTH.STATE i) healthRunning).put (R.GLB_INST_HEALTH.FAIL_RUN i) 0
  else s

/-- Whether 64 bytes are an event-log entry whose CRC is right (R604). -/
def evEntryWhole (b : Bytes) : Bool := rd b 28 4 == crc32c (slice b 0 28 ++ slice b 32 32)

/-- The entry of a SEQ, where the ring holds it. -/
def State.evEntry (s : State) (q : Nat) : Option Bytes :=
  match Table.get none (q % 32768) s.mgt.evlog with
  | some b => if rd b 0 4 == q && evEntryWhole b then some b else none
  | none => none

/-- EVLOG_SEL names an entry (R605): it is loaded into EVLOG_DATA; free values where the ring does not hold it. -/
def State.selectEvent (s : State) (q : Nat) : State :=
  let s := s.put R.MGT_EVLOG_SEL.SEQ q
  match s.evEntry (q % 2 ^ 32) with
  | some b => (List.range 8).foldl (fun (s : State) k => s.put (R.MGT_EVLOG_DATA.BYTES k) (rd b (8 * k) 8)) s
  | none => (List.range 8).foldl (fun (s : State) k => (s.put (R.MGT_EVLOG_DATA.BYTES k) s.freeVal).draw) s

/-! ### Registers by offset -/

/-- What a write of the register at an offset does. -/
inductive RegAction where
  | plain
  | ringCtrl (kind i : Nat)
  | ringBase (kind i : Nat)
  | seqCtrl (n : Nat)
  | spare (n : Nat)
  | segPower (n : Nat)
  | atom (n i : Nat)
  | health (i : Nat)
  | evlog
  | tenant
  | power
  | hostLink
  deriving DecidableEq, Repr

/-- The index below `n` for which a field lies at an offset. -/
def indexAt (off n : Nat) (f : Nat → Field) : Option Nat := (List.range n).find? fun i => (f i).addr == off

def regAction (off : Nat) : RegAction :=
  let pick := fun (n : Nat) (f : Nat → Field) (g : Nat → RegAction) => (indexAt off n f).map g
  ([ pick 16 (ringEnable 0) (.ringCtrl 0), pick 16 (ringEnable 1) (.ringCtrl 1), pick 256 (ringEnable 2) (.ringCtrl 2),
     pick 16 (ringBase 0) (.ringBase 0), pick 16 (ringBase 1) (.ringBase 1), pick 256 (ringBase 2) (.ringBase 2),
     pick 16 R.TILE_SEQ_CTRL.MODE .seqCtrl, pick 16 R.TILE_SPARE_REQ.GO .spare, pick 16 R.TSTORE_SEG_POWER.TS .segPower,
     (List.range 16).findSome? fun n => (indexAt off 4 (R.TSTORE_ATOM_CMD.GO n)).map fun i => RegAction.atom n i,
     pick 16 R.GLB_INST_HEALTH.CLEAR .health,
     (if off == R.MGT_EVLOG_SEL.SEQ.addr then some RegAction.evlog else none),
     (if off == R.QUE_TENANT_SEL.TENANT.addr then some RegAction.tenant else none),
     (if off == R.PWR_CTRL.CAP_W.addr then some RegAction.power else none),
     (if off == R.CXLU_CTRL.IDE_REQUIRED.addr then some RegAction.hostLink else none) ].findSome? id).getD .plain

/-- A write of the bits of a register that a mask selects, by software on the control cores or, where R480 lets it, by the
host. -/
def State.writeReg (s : State) (off v m : Nat) : State :=
  let fields := fun (s : State) => (fieldsAt off).foldl (fun (s : State) f => s.writeField v m f) s
  match regAction off with
  | .plain => fields s
  | .ringCtrl k i => s.ringCtrl k i v m
  | .ringBase k i => if s.isSet (ringEnable k i) then s else fields s
  | .seqCtrl n =>
    let s := if bits m 0 2 == 0 then s else s.writeMode n (setBits (s.get (R.TILE_SEQ_CTRL.MODE n)) 0 2 (v &&& m))
    if bit v 2 && bit m 2 then s.directGo n else s
  | .spare n => if bit v 3 && bit m 3 then s.requestSpare n (bits (v &&& m) 0 3) else s
  | .segPower n =>
    let v := s.readReg off - (s.readReg off &&& m) + (v &&& m)
    s.segPower n (bits v 0 32) (bits v 32 16)
  | .atom n i =>
    let op := bits v 0 4
    if bit v 5 && bit m 5 && decide (1 ≤ op ∧ op ≤ 8) then s.atomCommand (.window n i (bit v 4)) op else s
  | .health i => if bit v 2 && bit m 2 then s.clearHealth i else s
  | .evlog => if bits m 0 32 == 0 then s else s.selectEvent (bits (s.get R.MGT_EVLOG_SEL.SEQ - (s.get R.MGT_EVLOG_SEL.SEQ &&& m) + (v &&& m)) 0 32)
  | .tenant => if 1024 ≤ v &&& m then s else (fields s).countTenant
  | .power => (fields s).settleLevels
  | .hostLink => (fields s).reopen

/-! ### The host's writes (R480, R481, R501, R560, R562, R580) -/

/-- The upstream function answers the host. -/
def State.hostReaches (s : State) : Bool := s.cxl.answers && s.isSet R.CXLU_STATUS.LINK_UP

/-- The protected partition in whose register blocks an offset lies. -/
def State.protBlock (s : State) (off : Nat) : Option Nat :=
  let n :=
    if 0x1000000 ≤ off ∧ off < 0x2000000 then some ((off - 0x1000000) / 0x100000)
    else if 0x2000000 ≤ off ∧ off < 0x2100000 then some ((off - 0x2000000) / 0x10000)
    else if 0x3000000 ≤ off ∧ off < 0x3010000 then some ((off - 0x3000000) / 0x1000)
    else if 0x3100000 ≤ off ∧ off < 0x3110000 then some ((off - 0x3100000) / 0x1000)
    else none
  n.filter s.prot

/-- Whether an offset lies in QUE. -/
def inQue (off : Nat) : Bool := decide (0x10000 ≤ off ∧ off < 0x12000)

/-- A write by the host through the register window: 8 aligned bytes of a register with a live field, on a device that has
booted; any other is ignored and counted.  One into a protected partition's blocks is a violation.  A device that has stopped
takes EVLOG_SEL alone. -/
def State.hostWrites (s : State) (size off v : Nat) : State :=
  if !s.hostReaches then s
  else if s.flt.dead then (if off == R.MGT_EVLOG_SEL.SEQ.addr && size == 8 then s.selectEvent (bits v 0 32) else s)
  else if !s.isSet R.GLB_READY.BOOT_OK || size != 8 || off % 8 != 0 || !writable off || (inQue off && !s.isLead) then
    s.bump R.CXLU_ERRORS.WINDOW_WRITES
  else match s.protBlock off with
    | some n => s.violation (n, 0) none (windowBase + off) 2 true
    | none => s.writeReg off v (2 ^ 64 - 1)

/-! ### The host's reads (R124, R480, R481, R501, R561, R580) -/

/-- Registers of TILE, TSTORE, STACK and NBU that the host may read on a protected partition, by their fields at index 0: the
sequencer's status, and the registers that count (R561; DEDUCED, log entry 32: a register that counts is one whose rule says so, the event
counters of R187 apart). -/
def openToHost : List Field :=
  [ R.TILE_SEQ_STATUS.STATE 0, R.TILE_SEQ_COUNTS.FAILED_STEPS 0, R.TILE_SCALE_ADAPTS.ADAPTATIONS 0,
    R.TILE_RESCALE_COUNTS.Y_SATURATIONS 0, R.TILE_VEC_STALLS.ATTEND_CLOCKS 0, R.TILE_VEC_COUNTS.TABLE_FAULTS 0,
    R.TILE_DRILL_COUNTS.NAN_LOGITS 0, R.TILE_ATTN_COUNTS.LAB_HITS 0, R.TILE_KV_COUNTS.MISS_LANES 0,
    R.TILE_KV_TIER_COUNTS.SPILLS 0, R.TSTORE_GRANARY_COUNTS.HITS 0, R.TSTORE_GRANARY_EVENTS.WRITEBACKS 0,
    R.TSTORE_ECC_COUNTS.TS_CORRECTED 0, R.TSTORE_WAKE_COUNTS.WAKES 0, R.TSTORE_BANK_STALLS.TS_CONFLICTS 0,
    R.TSTORE_ATOM_EVENTS.ATOM_REFUSED 0, R.STACK_ECC_COUNTS.CORRECTED 0, R.STACK_REFRESH_COUNTS.FORCED 0,
    R.STACK_ARB_COUNTS.ATOMS 0, R.NBU_COUNTS.PLOT_RETRIES 0 ] ++
  (List.range 8).flatMap fun e => [R.TILE_MAT_COUNTS.CHAIN_LINKS 0 e, R.TILE_MAT_STALLS.SLOT_WAITS 0 e,
    R.TILE_HARROW_PLOTS.CODED 0 e, R.TILE_HARROW_DAMAGE.CRC 0 e]

/-- Offset of a register of partition `n`'s blocks as it is for partition 0. -/
def asFirst (n off : Nat) : Nat :=
  if off < 0x2000000 then off - 0x100000 * n else if off < 0x3000000 then off - 0x10000 * n else off - 0x1000 * n

/-- The register at an offset with every field at its reset value. -/
def resetReg (off : Nat) : Nat := (fieldsAt off).foldl (fun v f => v + f.reset * 2 ^ f.lo) 0

/-- The 64-bit register at an offset as the host reads it: of a device that has stopped GLB and MGT alone (R580), before BOOT_OK GLB and
MRD alone (R501), of a device that is not the lead QUE at reset (R111, R481) and INST_HEALTH as 0 (R594), and of a protected partition what R561 leaves open. -/
def State.hostReg (s : State) (off : Nat) : Nat :=
  let glb := decide (off < 0x1000)
  if s.flt.dead then if glb || decide (0x23000 ≤ off ∧ off < 0x24000) then s.readReg off else 0
  else if !s.isSet R.GLB_READY.BOOT_OK then if glb || decide (0x1000 ≤ off ∧ off < 0x2000) then s.readReg off else 0
  else if inQue off && !s.isLead then resetReg off
  else if decide (0x100 ≤ off ∧ off < 0x180) && !s.isLead then 0
  else match s.protBlock off with
    | some n => if openToHost.any fun f => f.addr == asFirst n off then s.readReg off else 0
    | none => s.readReg off

/-- What the register window answers to a read of some bytes at an offset: all ones unless 4 or 8 bytes, naturally aligned (R480);
`none` where the upstream function does not answer. -/
def State.hostReads (s : State) (size off : Nat) : Option Nat :=
  if !s.hostReaches then none
  else if !(size == 4 || size == 8) || off % size != 0 then some (2 ^ (8 * size) - 1)
  else some (s.hostReg (off / 8 * 8) / 2 ^ (8 * (off % 8)) % 2 ^ (8 * size))

/-- What the doorbell window answers to a read (R124). -/
def doorbellReads : Nat := 0

/-! ### The commands -/

/-- REGISTER_WRITE (R10, R480): by the host through the register window, or by a control core. -/
def execRegisterWrite (host : Bool) (size offset value : Nat) (s : State) : Answered :=
  s.whenOn fun s =>
    if host then s.hostWrites size offset value
    else if s.flt.dead then s else s.writeReg offset value (2 ^ 64 - 1)

/-- RING_CTRL_WRITE (R120): the host writes the control register of a ring, 0 submission, 1 completion, 2 token. -/
def execRingCtrlWrite (kind ring value : Nat) (s : State) : Answered :=
  s.whenAlive fun s =>
    if decide (2 < kind) || decide (ringCount kind ≤ ring) then s else s.hostWrites 8 (ringEnable kind ring).addr value

/-- INST_HEALTH_CLEAR (R577). -/
def execInstHealthClear (inst : Nat) (s : State) : Answered := s.whenAlive fun s => s.clearHealth (inst % 16)

/-- EVLOG_SEL_WRITE (R605). -/
def execEvlogSelWrite (seq : Nat) (s : State) : Answered :=
  s.whenOn fun s => s.hostWrites 8 R.MGT_EVLOG_SEL.SEQ.addr (seq % 2 ^ 32)

end Sys2Proof.Machine
end

