-- ==== Sys2Proof/Machine/Staging.lean ====
section
/-!
DEFINITION. The staged configuration (R13, R48, R147, R150 to R154, R157, R169, R386 to R399, R452, R472, R506, R559,
spec/04_command_packets.md): the two staged sets, the entries of CFG_STAGE, the checks of a commit, and the digest.
-/

namespace Sys2Proof.Machine

/-! ### The two sets (R150) -/

/-- The instances of a configuration, with their identifiers. -/
def instList (t : Table (Option Inst)) : List (Nat × Inst) := t.filterMap fun e => e.2.map fun x => (e.1, x)

/-- Offsets of the registers of cluster scope. -/
def clusterRegs : List Nat := [R.MRD_CTRL.HOLDOVER_MARKS.addr, R.FRW_CTRL.FALLOW_LIMIT.addr, R.CFG_CTRL.ENFORCE.addr]

/-- Whether a field key is that of a cluster-scope register. -/
def clusterKey (k : Nat) : Bool := clusterRegs.contains (k / 64)

/-- The field of a key. -/
def fieldOf (k : Nat) : Option Field := (fieldsAt (k / 64)).find? fun f => f.key == k

/-- What a field would read if every staged set were active. -/
def State.stagedValue (s : State) (f : Field) : Nat :=
  match s.cfg.stagedRegs.find? fun e => e.1 == f.key with
  | some e => e.2
  | none => s.get f

/-- The state with staged fields of chosen keys active, no other effect. -/
def State.takeRegs (s : State) (which : Nat → Bool) : State :=
  (s.cfg.stagedRegs.filter fun e => which e.1).foldl (fun (s : State) (e : Nat × Nat) => match fieldOf e.1 with
    | some f => s.put f e.2
    | none => s) s

/-- The configuration that a device-scope commit would make active. -/
def State.wouldDevice (s : State) : State := s.takeRegs fun k => !clusterKey k

/-- The region modes as they are once the instances that a table lacks are removed: their regions return to interleaved (R398). -/
def State.lessGone (s : State) (stay : Table (Option Inst)) : State :=
  ((instList s.cfg.instA).filter fun e => (Table.get none e.1 stay).isNone).foldl (fun (s : State) (e : Nat × Inst) =>
    (e.2.image.unitLocal.filter fun r => r.1 == s.self).foldl (fun (s : State) (r : Nat × Nat × Nat) =>
      s.put (R.STACK_REGION_MODE.UNIT_LOCAL r.2.1) (setBit (s.get (R.STACK_REGION_MODE.UNIT_LOCAL r.2.1)) r.2.2 false)) s) s

/-- The configuration that a cluster-wide commit would make active. -/
def State.wouldCluster (s : State) : State :=
  let w := (s.lessGone s.cfg.instS).takeRegs fun _ => true
  { w with
    cfg := { w.cfg with instA := s.cfg.instS }
    frw := { w.frw with active := match s.frw.staged with
      | some p => some p
      | none => s.frw.active } }

/-- Whether a staged set differs from the active one (R161). -/
def State.stagedDirty (s : State) : Bool :=
  (s.cfg.stagedRegs.any fun e => match fieldOf e.1 with
    | some f => s.get f != e.2
    | none => false) ||
    s.cfg.instA != s.cfg.instS || (s.frw.staged.isSome && s.frw.staged != s.frw.active)

def planIdOf : Option FurrowPlan → Nat
  | some p => p.planId
  | none => 0

/-- CFG.STATUS, CFG.PENDING and FRW.PLAN follow the staged sets, the locks and a prepared commit (R72, R161, R162).  In NO_PLAN,
STAGED_ID still names a staged plan (DESIGN CHOICE, log entry 21). -/
def State.refreshCfg (s : State) : State :=
  let s := s.putBit R.CFG_STATUS.STAGED_DIRTY s.stagedDirty
  let s := s.putBit R.CFG_STATUS.LOCKED (s.cfg.lockCluster || s.cfg.lockDevice)
  let s := s.put R.CFG_PENDING.TARGET_EPOCH ((s.cfg.prepared.map fun p => p.epoch).getD 0)
  let s := s.put R.CFG_PENDING_FURROW.TARGET_FURROW ((s.cfg.prepared.map fun p => p.furrow).getD 0)
  (s.put R.FRW_PLAN.ACTIVE_ID (planIdOf s.frw.active)).put R.FRW_PLAN.STAGED_ID (planIdOf s.frw.staged)

/-- A refusal for a conflict of configuration is counted (R163). -/
def State.countConflict (s : State) : State := s.bump R.CFG_COUNTS.CONFLICTS

/-! ### Entries of CFG_STAGE (R147) -/

/-- Address, value and mask of the entries of a payload. -/
def stageEntries (b : Bytes) : List (Nat × Nat × Nat) :=
  (List.range (b.length / 24)).map fun i => (rd b (24 * i) 8, rd b (24 * i + 8) 8, rd b (24 * i + 16) 8)

/-- A field under the bits of an entry: what it would take. -/
def State.entryValue (s : State) (e : Nat × Nat × Nat) (f : Field) : Nat :=
  let m := bits e.2.2 f.lo f.width
  let old := s.stagedValue f
  old - (old &&& m) + (bits e.2.1 f.lo f.width &&& m)

/-- The codes that a register field packs are none of the reserved ones (R12): two bits for each segment of SEG_POWER (R391), the
operation of ATOM_CMD (R382). -/
def codesLegal (off : Nat) (f : Field) (v : Nat) : Bool := match regAction off with
  | .segPower _ => (List.range (f.width / 2)).all fun i => bits v (2 * i) 2 != 3
  | .atom _ _ => f.lo != 0 || decide (1 ≤ v ∧ v ≤ 8)
  | _ => true

/-- An entry names no register, or a bit that software may not write, or a reserved encoding. -/
def State.entryBad (s : State) (e : Nat × Nat × Nat) : Bool :=
  let fs := fieldsAt (e.1 - windowBase)
  let may := ((fs.filter fun f => f.access != .ro).map fun f => mask f.lo f.width).foldl (· ||| ·) 0
  decide (e.1 < windowBase) || e.1 % 8 != 0 || fs.isEmpty || outside e.2.2 may ||
    fs.any fun f => bits e.2.2 f.lo f.width != 0 &&
      !(f.isLegal (s.entryValue e f) && codesLegal (e.1 - windowBase) f (s.entryValue e f))

/-- What an entry breaks on every device (R147): its address, its mask, or a field that it gives whole a reserved encoding. -/
def entryShape (e : Nat × Nat × Nat) : Bool :=
  let fs := fieldsAt (e.1 - windowBase)
  let may := ((fs.filter fun f => f.access != .ro).map fun f => mask f.lo f.width).foldl (· ||| ·) 0
  decide (e.1 < windowBase) || e.1 % 8 != 0 || fs.isEmpty || outside e.2.2 may ||
    fs.any fun f => bits e.2.2 f.lo f.width == 2 ^ f.width - 1 &&
      !(f.isLegal (bits e.2.1 f.lo f.width) && codesLegal (e.1 - windowBase) f (bits e.2.1 f.lo f.width))

/-- Enter the staged fields of an entry into the staged set. -/
def State.stageEntry (s : State) (e : Nat × Nat × Nat) : State :=
  ((fieldsAt (e.1 - windowBase)).filter fun f => f.access == .staged && bits e.2.2 f.lo f.width != 0).foldl
    (fun (s : State) f =>
      { s with cfg := { s.cfg with stagedRegs := Table.insert f.key (s.entryValue e f) s.cfg.stagedRegs } }) s

/-- The state after every entry has been staged; `none`: an entry is bad. -/
def State.stageEntries (s : State) (b : Bytes) : Option State :=
  tryAll (fun (s : State) e => if s.entryBad e then none else some (s.stageEntry e)) s (Machine.stageEntries b)

/-- Whether an entry names a field of cluster scope. -/
def clusterEntry (e : Nat × Nat × Nat) : Bool := clusterRegs.contains (e.1 - windowBase)

/-- The bits of a register whose fields are live. -/
def liveMask (off : Nat) : Nat :=
  (((fieldsAt off).filter fun f => f.access != .staged).map fun f => mask f.lo f.width).foldl (· ||| ·) 0

/-- Live fields take effect on acceptance (R151). -/
def State.liveEntries (s : State) (b : Bytes) : State :=
  (Machine.stageEntries b).foldl (fun (s : State) e =>
    let m := e.2.2 &&& liveMask (e.1 - windowBase)
    if m == 0 then s else s.writeReg (e.1 - windowBase) e.2.1 m) s

/-! ### Commit checks -/

/-- The lists that instances run on this device. -/
def activeLists (l : List (Nat × Inst)) : List (Nat × PlanList) :=
  l.flatMap fun e => match e.2.plan with
    | some p => p.lists.map fun x => (e.1, x)
    | none => []

/-- Whether the plan's template `t` has an entry of a type for an instance with a tag. -/
def hasEntry (p : FurrowPlan) (ty t : Nat) (i : Option Nat) (tag : Nat) : Bool :=
  p.entries.any fun e => e.type == ty && e.template == t && e.tag == tag && match i with
    | some i => e.inst == i
    | none => true

/-- Templates that a furrow plan runs agree with the instances' step plans (R48, R169, R452). -/
def State.templatesStand (w : State) (p : FurrowPlan) : Bool :=
  let insts := instList w.cfg.instA
  let lists := (activeLists insts).filter fun l => decide (l.2.template < p.cycleLen)
  let plan := fun (i : Nat) => (insts.find? fun e => e.1 == i).bind fun e => e.2.plan
  (p.entries.all fun e => e.type == 4 || match plan e.inst with
    | some x => decide (e.template < x.templates)
    | none => false) &&
  (lists.all fun l => lists.all fun m => l.1 == m.1 || l.2.tile != m.2.tile || l.2.template != m.2.template) &&
  (lists.all fun l => l.2.descs.all fun d =>
    !(D.type d == tMark && !hasEntry p 1 l.2.template (some l.1) (D.hPhase d)) &&
      !(D.type d == tColl && !hasEntry p 2 l.2.template none (D.cSlot d)) &&
      !(commitBad (fun _ => 0) p.laneSets (p.period - p.headland) (fun _ => true) d)) &&
  (p.entries.all fun e => e.type != 2 ||
    let tab := { w with srv := { w.srv with suspended := [] } }.slotTable e.template e.tag
    tab.isEmpty || !w.slotConflict e tab)

/-- Every dawn sequence bound to a lane keeps it in every template that its instance runs in (R48). -/
def State.dawnStands (w : State) (p : FurrowPlan) : Bool :=
  w.openSeqs.all fun q => match q.2.bound with
    | none => true
    | some k => (templatesOf p q.2.inst).all fun t => bit (dawnMask p t q.2.inst k.1) k.2

/-- Descriptors keep out of the Granary spans, and near-bank programs in unit-local regions (R169, R639). -/
def State.listsStand (w : State) : Bool :=
  (activeLists (instList w.cfg.instA)).all fun l => l.2.descs.all fun d =>
    !commitBad (fun n => w.get (R.TSTORE_GRANARY.SIZE n)) 4 (2 ^ 32) w.unitLocal d

/-- A range that is not empty meets another. -/
def meets (a b : Nat × Nat) : Bool := overlap a.1 a.2 b.1 b.2

/-- The span of a Granary of a size (R27). -/
def granarySpan (n size : Nat) : Nat × Nat := (tileStoreBase n + 0x10000000 - size * 0x400000, size * 0x400000)

/-- Changes of Granary sizes (R386), and pools beside a Granary of size 0 (R388). -/
def State.granaryStands (s w : State) : Bool :=
  (List.range 16).all fun n =>
    let size := w.get (R.TSTORE_GRANARY.SIZE n)
    (size == s.get (R.TSTORE_GRANARY.SIZE n) ||
      (s.idle && !meets (granarySpan n size) (w.poolSpan n 0) && !meets (granarySpan n size) (tileStoreBase n, 0x400000) &&
        !(s.instsHere ++ w.instsHere).any fun x => (x.extents s.self).any (meets (granarySpan n size)))) &&
    (size != 0 || (List.range 3).all fun t => (w.pool n t).2 == 0)

/-- The span of a region of a stack (R397). -/
def regionSpan (n r : Nat) : Nat × Nat := (stackBase n + r * 2 ^ 30, 2 ^ 30)

/-- The reference word array of a partition (R339). -/
def State.refSpan (s : State) (n : Nat) : Nat × Nat :=
  (s.get (R.TILE_KV_REF.ADDR n) * 64, ((List.range 3).map fun t => (s.pool n t).2).sum * 4)

/-- A region is idle: nothing of the active configuration lies in it (R398). -/
def State.regionIdle (s : State) (n r : Nat) : Bool :=
  let here := (instList s.cfg.instA).filter fun e => bit e.2.mask s.self
  !((here.flatMap fun e => e.2.extents s.self) ++ [s.poolSpan n 1, s.refSpan n] ++ s.kv.own).any (meets (regionSpan n r))

/-- Changes of region modes (R398), and what may not lie in a unit-local region (R399). -/
def State.regionsStand (s w : State) : Bool :=
  (List.range 16).all fun n =>
    let old := s.get (R.STACK_REGION_MODE.UNIT_LOCAL n)
    let new := w.get (R.STACK_REGION_MODE.UNIT_LOCAL n)
    (List.range 48).all fun r =>
      (bit old r == bit new r || s.regionIdle n r) &&
        !(bit new r && [w.poolSpan n 1, w.refSpan n].any (meets (regionSpan n r)))

/-- No open region of a partition holds what is of a protected instance (R559, R567). -/
def State.openStands (s w : State) : Bool :=
  !(w.instsHere.any fun x => x.prot) ||
    (List.range 16).all fun n => (List.range 48).all fun r =>
      !(bit (w.get (R.SEC_OPEN.REGIONS n)) r) ||
        !(((w.instsHere.filter fun x => x.prot).flatMap fun x => x.extents s.self) ++ [w.poolSpan n 1, w.refSpan n] ++ s.kv.own).any
          (meets (regionSpan n r))

/-- LINK.CTRL changes only outside the schedule (R472); CXLD.CTRL not while an expander is mapped (R506). -/
def State.portsStand (s w : State) : Bool :=
  (s.idle || (List.range 24).all fun p =>
    s.get (R.LINK_CTRL.ENABLE p) == w.get (R.LINK_CTRL.ENABLE p) && s.get (R.LINK_CTRL.MODE p) == w.get (R.LINK_CTRL.MODE p)) &&
  ((s.get R.CXLD_CTRL.BIFURCATE == w.get R.CXLD_CTRL.BIFURCATE && s.get R.CXLD_CTRL.IDE_REQUIRED == w.get R.CXLD_CTRL.IDE_REQUIRED) ||
    s.cxl.far.all fun e => e.2.isNone)

/-- No instance comes to use a partition that is held in reset (R138): one that already uses it is suspended. -/
def State.heldStands (s w : State) : Bool :=
  (instList w.cfg.instA).all fun e => s.flt.heldParts.all fun n =>
    !e.2.uses s.self n || match Table.get none e.1 s.cfg.instA with
      | some x => x.uses s.self n
      | none => false

/-- Every check of a commit. -/
def State.commitStands (s w : State) : Bool :=
  (match w.frw.active with
    | some p => w.templatesStand p && w.dawnStands p
    | none => true) &&
  w.listsStand && s.granaryStands w && (s.lessGone w.cfg.instA).regionsStand w && s.openStands w && s.portsStand w && s.heldStands w

/-! ### The digest (R157) -/

/-- A digest record. -/
def digestRecord (kind id : Nat) (body : Bytes) : Bytes :=
  leBytes 1 kind ++ List.replicate 7 0 ++ leBytes 8 id ++ leBytes 8 body.length ++ body

/-- The records in order. -/
def State.digestBytes (s : State) : Bytes :=
  let regs := clusterRegs.flatMap fun a => leBytes 8 (windowBase + a) ++ leBytes 8 (s.readReg a)
  let plan := match s.frw.active with
    | some p => digestRecord 2 p.planId p.image
    | none => []
  let insts := (instList s.cfg.instA).flatMap fun e =>
    digestRecord 3 e.1 (leBytes 8 e.2.mask ++ e.2.sha ++ match e.2.plan with
      | some p => p.sha
      | none => List.replicate 48 0)
  let cur := s.srv.adapters.filter fun a => a.state == .current && (s.activeInst a.inst).isSome
  let byId : Table Adapter := cur.foldl (fun t a => Table.insert (a.inst * 2 ^ 32 + a.id) a t) []
  digestRecord 1 0 regs ++ plan ++ insts ++
    byId.flatMap fun e => digestRecord 4 e.1 (leBytes 4 e.2.ver ++ List.replicate 4 0 ++ e.2.sha)

/-- Compute the digest of the active configuration. -/
def State.digest (s : State) : State := s.put R.CFG_DIGEST.ACTIVE_DIGEST (rd (sha384 s.digestBytes) 0 8)

end Sys2Proof.Machine
end

