-- ==== Sys2Proof/Machine/Commit.lean ====
section
/-!
DEFINITION. Commits (R43, R48, R62, R141, R150 to R157, R251, R386, R398, R472, R556, spec/04_command_packets.md): what a commit
makes active, and the cluster-wide commit between the lead device and its members.
-/

namespace Sys2Proof.Machine

/-! ### Registers -/

/-- A stack's regions change their mode (R398): a region that changes is zeroed, which ends at REGION_ZERO_DONE. -/
def State.regionMode (s : State) (n new : Nat) : State :=
  let old := s.get (R.STACK_REGION_MODE.UNIT_LOCAL n)
  (List.range 48).foldl (fun (s : State) r =>
    if bit old r == bit new r then s
    else (s.zero (regionSpan n r).1 (regionSpan n r).2).modStack n fun k => { k with zeroing := k.zeroing ++ [r] })
    (s.put (R.STACK_REGION_MODE.UNIT_LOCAL n) new)

/-- Tile and index of the scale register at an offset. -/
def scaleRegAt (off : Nat) : Option (Nat × Nat) :=
  if 0x1000000 ≤ off ∧ off < 0x2000000 ∧ 0x8000 ≤ off % 0x100000 ∧ off % 0x100000 < 0x10000 then
    some ((off - 0x1000000) / 0x100000, (off % 0x100000 - 0x8000) / 8)
  else none

/-- A staged field becomes active: a Granary's size once the Granary is flushed (R386), a region mode with its zeroing (R398), a
scale register not widened (R251). -/
def State.commitField (s : State) (e : Nat × Nat) : State :=
  match fieldOf e.1 with
  | none => s
  | some f =>
    match (List.range 16).find? fun n => R.TSTORE_GRANARY.SIZE n == f, (List.range 16).find? fun n => R.STACK_REGION_MODE.UNIT_LOCAL n == f with
    | some n, _ =>
      if s.get f == e.2 then s
      else
        let s := s.flushGranary n
        { s with cfg := { s.cfg with granaryFlush := s.cfg.granaryFlush ++ [(n, e.2)] } }
    | none, some n => s.regionMode n e.2
    | none, none =>
      let s := s.put f e.2
      match scaleRegAt f.addr with
      | some (n, i) => (s.put (R.TILE_SCALE_REG.WIDEN n i) 0).put (R.TILE_SCALE_REG.SAT_COUNT n i) 0
      | none => s

/-- Staged fields of chosen keys become active; a port whose control changed trains again (R472). -/
def State.commitRegs (s : State) (which : Nat → Bool) : State :=
  let t := (s.cfg.stagedRegs.filter fun e => which e.1).foldl (fun (s : State) e => s.commitField e) s
  let t := { t with cfg := { t.cfg with stagedRegs := t.cfg.stagedRegs.filter fun e => !which e.1 } }
  let t := (List.range 24).foldl (fun (t : State) p =>
    if s.get (R.LINK_CTRL.ENABLE p) == t.get (R.LINK_CTRL.ENABLE p) && s.get (R.LINK_CTRL.MODE p) == t.get (R.LINK_CTRL.MODE p) then t
    else t.relink p (s.isSet (R.LINK_CTRL.ENABLE p))) t
  t.settleLevels

/-! ### Instances and plan -/

/-- Regions that an image makes unit-local here return to interleaved (R398). -/
def State.returnRegions (s : State) (x : Inst) : State :=
  (x.image.unitLocal.filter fun e => e.1 == s.self).foldl (fun (s : State) (e : Nat × Nat × Nat) =>
    s.regionMode e.2.1 (setBit (s.get (R.STACK_REGION_MODE.UNIT_LOCAL e.2.1)) e.2.2 false)) s

/-- Write an instance's extents here to zero (R556). -/
def State.zeroExtents (s : State) (x : Inst) : State :=
  (x.extents s.self).foldl (fun (s : State) r => s.zero r.1 r.2) s

/-- The partitions of a device without a protected instance are not protected (R556). -/
def State.refreshProt (s : State) : State :=
  if s.instsHere.any fun x => x.prot then s else s.unprotect

/-- An instance is over: what depends on it ends, its extents are zeroed where it is protected, its key goes, and the lead drops its
health (R141, R552, R556, R594). -/
def State.endsWhole (s : State) (th : Nat) (e : Nat × Inst) : State :=
  let s := s.endInst e.1 th
  let s := if e.2.prot then s.zeroExtents e.2 else s
  let s := { s with sec := { s.sec with keys := Table.erase e.1 s.sec.keys } }
  if s.isLead then (s.put (R.GLB_INST_HEALTH.STATE e.1) healthNone).put (R.GLB_INST_HEALTH.FAIL_RUN e.1) 0 else s

/-- A commit removes an instance: its unit-local regions return to interleaved too (R398). -/
def State.removeInst (s : State) (th : Nat) (e : Nat × Inst) : State := (s.endsWhole th e).returnRegions e.2

/-- The staged table of instances becomes active. -/
def State.commitInsts (s : State) (th : Nat) : State :=
  let gone := (instList s.cfg.instA).filter fun e => (Table.get none e.1 s.cfg.instS).isNone
  let new := (instList s.cfg.instS).filter fun e => (Table.get none e.1 s.cfg.instA).isNone
  let s := gone.foldl (fun (s : State) e => s.removeInst th e) s
  let s := { s with cfg := { s.cfg with instA := s.cfg.instS } }
  let s := new.foldl (fun (s : State) (e : Nat × Inst) =>
    if s.isLead then (s.put (R.GLB_INST_HEALTH.STATE e.1) healthRunning).put (R.GLB_INST_HEALTH.FAIL_RUN e.1) 0 else s) s
  s.refreshProt

/-- Registers that report the active plan (R72). -/
def State.showPlan (s : State) : State :=
  let g := fun (f : FurrowPlan → Nat) => (s.frw.active.map f).getD 0
  let s := s.put R.FRW_TIMING.PERIOD_NS (g FurrowPlan.period)
  let s := s.put R.FRW_TIMING.HEADLAND_NS (g FurrowPlan.headland)
  let s := s.put R.FRW_LATE.LATE_OFFSET_NS (g FurrowPlan.lateOffset)
  s.put R.FRW_LATE.CYCLE_LEN (g FurrowPlan.cycleLen)

/-- The staged furrow plan becomes active: NO_PLAN goes to STOPPED (R44); a new timing of a schedule that runs starts where this
headland ends (R43); the phase table empties (R517). -/
def State.commitPlan (s : State) : State :=
  match s.frw.staged with
  | none => s
  | some p =>
    let next := s.furrow + 1
    let timed := (s.inSchedule || s.frwState == frwStopping) && (p.period != s.period || p.headland != s.headlandLen)
    let fs := s.furrowStart next
    let s := if s.frw.active == some p then s else { s with pwr := { s.pwr with phases := [] } }
    let s := { s with frw := { s.frw with
      active := some p, staged := none, nextTemplate := s.frw.nextTemplate % max 1 p.cycleLen
      t0 := if timed then fs else s.frw.t0, k0 := if timed then next else s.frw.k0 } }
    (if s.frwState == frwNoPlan then s.put R.FRW_STATE.STATE frwStopped else s).showPlan

/-! ### Activation -/

def State.lockSets (s : State) (cluster device : Bool) : State :=
  { s with cfg := { s.cfg with lockCluster := cluster, lockDevice := device } }.refreshCfg

/-- A command that a commit ends: its locks fall and its answer goes out. -/
def State.commitDone (s : State) (no r0 r1 : Nat) : State :=
  let s := match s.ticket? no with
    | some t => if t.packet.opcode == 0x03 then s.lockSets (s.cfg.lockCluster && !t.packet.f4) false else s
    | none => s
  s.reply no { status := .ok, result0 := r0, result1 := r1 }

/-- A command completes, now or when every flush and zeroing is over. -/
def State.finishSettled (s : State) (no r0 r1 : Nat) : State :=
  if s.unsettled then { s with cfg := { s.cfg with finishing := s.cfg.finishing ++ [(no, r0, r1)] } } else s.commitDone no r0 r1

/-- Nothing is left to flush or to zero: a step held for it runs (R60), and the commands that waited complete. -/
def State.releaseSettled (s : State) : State :=
  if s.unsettled then s
  else
    let s := s.releaseHeld
    let l := s.cfg.finishing
    let s := { s with cfg := { s.cfg with finishing := [] } }
    l.foldl (fun (s : State) (e : Nat × Nat × Nat) => s.commitDone e.1 e.2.1 e.2.2) s

/-- The device-scope set becomes active. -/
def State.activateDevice (s : State) : State := ((s.commitRegs fun k => !clusterKey k).digest).refreshCfg

/-- Both sets become active together, under a new configuration epoch (R154). -/
def State.activateCluster (s : State) (epoch th : Nat) : State :=
  let s := ((s.commitInsts th).commitRegs fun _ => true).commitPlan
  let s := { s with cfg := { s.cfg with prepared := none } }
  (s.put R.CFG_STATUS.ACTIVE_EPOCH epoch).digest.refreshCfg

/-! ### Device scope (R153) -/

/-- This device's device-scope commit is due: checked, and made or refused. -/
def State.dueDevice (s : State) (no : Nat) : State :=
  if s.commitStands s.wouldDevice then s.activateDevice.finishSettled no 0 0
  else ((s.lockSets s.cfg.lockCluster false).bump R.CFG_COUNTS.CONFLICTS).replyWith no .cfgConflict

/-- This device takes a device-scope commit: locked against another, at once outside the schedule, else at the headland. -/
def State.takeDevice (s : State) (no : Nat) : State :=
  if s.cfg.lockDevice then (s.bump R.CFG_COUNTS.CONFLICTS).replyWith no .cfgConflict
  else
    let s := s.lockSets s.cfg.lockCluster true
    if s.idle then s.dueDevice no else { s with cfg := { s.cfg with deviceCommit := s.cfg.deviceCommit ++ [no] } }

/-- A device the lead has declared dead (R582). -/
def State.isDeclared (s : State) (d : Nat) : Bool := s.flt.declared.any fun x => x.device == d

/-- Another CFG_COMMIT that has acted and has no final completion yet locks the device-scope set of a device, or of some device (R152). -/
def State.commitHolds (s : State) (no : Nat) (dev : Option Nat) : Bool :=
  s.que.tickets.any fun u => u.no != no && u.packet.opcode == 0x03 && !u.barrier && u.ring.isSome &&
    (u.packet.f4 || u.packet.f5 || match dev with
      | some d => bits u.packet.p2 0 6 == d
      | none => true)

/-- A commit refused for a lock (R152, R163). -/
def State.refuseCommit (s : State) (t : Ticket) : State := (s.bump R.CFG_COUNTS.CONFLICTS).finishWith t.no .cfgConflict

/-- CFG_COMMIT of device scope at the lead. -/
def State.commitDevices (s : State) (t : Ticket) : State :=
  if s.commitHolds t.no (if t.packet.f5 then none else some (bits t.packet.p2 0 6)) then s.refuseCommit t else
  let dsts := if t.packet.f5 then s.members else [bits t.packet.p2 0 6]
  let (gone, here) := dsts.partition fun d => s.isDeclared d
  let s := if here.contains s.self then s.awaitSelf t.no else s
  let s := gone.foldl (fun (s : State) d => s.addReply t.no ⟨d, .failFenced, 0, 0, 0, []⟩) s
  let s := (here.filter fun d => !s.members.contains d).foldl (fun (s : State) d => s.addReply t.no ⟨d, .failDevice, 0, 0, 0, []⟩) s
  let s := s.forwardTo t.no t.packet none (here.filter fun d => d != s.self && s.members.contains d)
  if here.contains s.self then s.takeDevice t.no else s

/-! ### The cluster-wide commit (R154) -/

/-- The commit is decided for ABORT: every lock falls, and the completion names the first refusal. -/
def State.abortCommit (s : State) (c : LeadCommit) (dev detail : Nat) : State :=
  let s := s.sendAll s.others (.cfgAbort c.epoch)
  let s := { s with cfg := { s.cfg with lead := none, prepared := none } }.lockSets false false
  let s := (s.bump R.CFG_COUNTS.ABORTS).bump R.CFG_COUNTS.CONFLICTS
  s.finish c.ticket { status := .cfgConflict, detail := detail, result0 := dev }

/-- The lead decides: COMMIT where every member is READY, else ABORT; a member without reply counts as one that refused. -/
def State.decideCommit (s : State) : State :=
  match s.cfg.lead with
  | none => s
  | some c =>
    if c.decided then s
    else
      let refused : Table Nat := c.waiting.foldl (fun t d => Table.insert d 0xFF t) c.refused
      match refused with
      | [] =>
        let s := s.sendAll s.others (.cfgCommitGo c.epoch)
        { s with cfg := { s.cfg with
            lead := some { c with decided := true }
            prepared := s.cfg.prepared.map fun p => { p with go := true } } }
      | e :: _ => s.abortCommit c e.1 e.2

/-- Outside the schedule the decision falls as soon as all replies are in. -/
def State.decideEarly (s : State) : State :=
  match s.cfg.lead with
  | some c => if c.waiting.isEmpty && !s.inSchedule then s.decideCommit else s
  | none => s

/-- CFG_COMMIT with CLUSTER at the lead. -/
def State.commitCluster (s : State) (t : Ticket) : State :=
  let epoch := t.packet.p0
  let k := t.packet.p1
  if s.cfg.lockCluster || s.cfg.lockDevice || s.commitHolds t.no none || epoch != s.get R.CFG_STATUS.ACTIVE_EPOCH + 1 then
    s.refuseCommit t
  else if s.inSchedule && decide (k < s.furrow + 2) then s.finishWith t.no .rejDeadline
  else
    let own : Table Nat := if s.commitStands s.wouldCluster then [] else [(s.self, 0)]
    let s := { s with cfg := { s.cfg with
      lead := some ⟨t.no, epoch, k, s.others, own, false⟩, prepared := some ⟨epoch, k, false⟩ } }
    ((s.lockSets true true).sendAll s.others (.cfgPrepare epoch k)).decideEarly

/-- PREPARE reaches a member: it locks its sets, checks them and answers. -/
def State.prepareIn (s : State) (src epoch k : Nat) : State :=
  if s.cfg.prepared.isSome || s.cfg.lockCluster || s.cfg.lockDevice then s.countConflict.sendCtrl src (.cfgConflict epoch 0)
  else
    let s := { s with cfg := { s.cfg with prepared := some ⟨epoch, k, false⟩ } }.lockSets true true
    if s.commitStands s.wouldCluster then s.sendCtrl src (.cfgReady epoch) else s.countConflict.sendCtrl src (.cfgConflict epoch 0)

/-- Whether a reply still counts: until 1,000 ns before the late-step check of the target furrow. -/
def State.replyInTime (s : State) (c : LeadCommit) : Bool :=
  !s.inSchedule ||
    match s.frw.active with
    | some p => decide (s.now ≤ s.furrowStart c.furrow + p.lateOffset - 1000)
    | none => true

/-- A member's reply reaches the lead: `none` READY, else the check that failed. -/
def State.replyIn (s : State) (src epoch : Nat) (check : Option Nat) : State :=
  match s.cfg.lead with
  | none => s
  | some c =>
    if c.epoch != epoch || c.decided || !c.waiting.contains src || !s.replyInTime c then s
    else
      let c := { c with
        waiting := c.waiting.filter fun d => d != src
        refused := match check with
          | some k => Table.insert src k c.refused
          | none => c.refused }
      { s with cfg := { s.cfg with lead := some c } }.decideEarly

/-- COMMIT reaches a member. -/
def State.goIn (s : State) (epoch : Nat) : State :=
  match s.cfg.prepared with
  | some p => if p.epoch == epoch then { s with cfg := { s.cfg with prepared := some { p with go := true } } } else s
  | none => s

/-- ABORT reaches a member. -/
def State.abortIn (s : State) (epoch : Nat) : State :=
  match s.cfg.prepared with
  | some p =>
    if p.epoch == epoch then ({ s with cfg := { s.cfg with prepared := none } }.lockSets false false).bump R.CFG_COUNTS.ABORTS else s
  | none => s

/-- A prepared commit that has been decided takes place, at the headland that started at `th`. -/
def State.commitPrepared (s : State) (th : Nat) : State :=
  match s.cfg.prepared with
  | none => s
  | some p =>
    if !p.go then s
    else
      let s := s.activateCluster p.epoch th
      match s.cfg.lead with
      | some c =>
        { s with cfg := { s.cfg with lead := none } }.finishSettled c.ticket p.epoch (s.get R.CFG_DIGEST.ACTIVE_DIGEST)
      | none => s.lockSets false false

/-- The configuration-commit item of a headland (R59, R62, R154). -/
def State.commitItem (s : State) (th : Nat) : State :=
  let due := match s.cfg.prepared with
    | some p => decide (p.furrow ≤ s.furrow)
    | none => false
  let s := if due then s.commitPrepared th else s
  let l := s.cfg.deviceCommit
  let s := { s with cfg := { s.cfg with deviceCommit := [] } }
  l.foldl (fun (s : State) no => s.dueDevice no) s

/-- The headland is followed by a fallow furrow: a commit that targets it moves on (R62, R162). -/
def State.deferCommit (s : State) : State :=
  match s.cfg.prepared with
  | some p =>
    if p.furrow ≤ s.furrow then
      { s with cfg := { s.cfg with prepared := some { p with furrow := s.furrow + 1 } } }.refreshCfg
    else s
  | none => s

/-- A declaration before the decision aborts the commit (R582). -/
def State.declaredAbort (s : State) (dev : Nat) : State :=
  match s.cfg.lead with
  | some c => if c.decided then s else s.abortCommit c dev 0xFF
  | none => s

end Sys2Proof.Machine
end

