-- ==== Sys2Proof/Machine/Meridian.lean ====
section
/-!
DEFINITION. The Meridian unit (R33 to R38, spec/02_meridian_and_furrows.md): search windows, the lock states, slew, and the
assignment of a time of day.
-/

namespace Sys2Proof.Machine

/-- The search window of a time, as its millisecond (R35). -/
def windowOf (t : Nat) : Nat := (t + 500000) / 1000000

/-- The phase error of an edge at a time. -/
def phaseError (t : Nat) : Int := (t : Int) - ((windowOf t * 1000000 : Nat) : Int)

def State.setMrd (s : State) (v : Nat) : State :=
  (s.put R.MRD_STATUS.STATE v).putBit R.GLB_READY.MERIDIAN_OK (v == mrdLocked || v == mrdHoldover)

/-- Whether the unit is in UNLOCKED or in ACQUIRE, where no mark is accepted (R35). -/
def State.lockless (s : State) : Bool := s.mrdState == mrdUnlocked || s.mrdState == mrdAcquire

/-- What waited for a headland of the schedule, and for the lead's decision in it, goes on at once on a device whose schedule is over
(R153, R154): device-scope commits are made or refused, and a cluster-wide commit with every reply is decided. -/
def State.commitIdle (s : State) : State :=
  let l := s.cfg.deviceCommit
  let s := { s with cfg := { s.cfg with deviceCommit := [] } }
  (l.foldl (fun (s : State) no => s.dueDevice no) s).decideEarly

/-- No scheduled send stands on any port (R36). -/
def State.dropSends (s : State) : State :=
  { s with links := s.links.map fun (e : Nat × Link) => (e.1, { e.2 with sends := [] }) }

/-- The schedule is over: the state becomes STOPPED, nothing of the last furrow stands, no send is due, and the sequencers rest (R44).
The dawn bound does not hold across a stop: the interval to the next token is not judged (R42, R63).  No lane stays in force: the first
furrow after a start, which no headland fills, runs empty lanes (DESIGN CHOICE, log entry 41). -/
def State.stopped (s : State) : State :=
  let k := if s.frwState == frwArmed then s.frw.nextK else s.furrow + 1
  let s := (s.put R.FRW_STATE.STATE frwStopped).putBit R.FRW_STATE.HEADLAND false
  let s := (s.putBit R.FRW_STATE.STOP_PENDING false).putBit R.FRW_STATE.LATE_SELF false
  let s := s.putBit R.FRW_STATE.LATE_GROUP false
  let s := { s with frw := { s.frw with stepOpen := false, doneAt := none, stopAt := none, stopMoved := false, resync := none, correcting := false, turned := false, nextK := k } }
  let s := { s with srv := { s.srv with seqs := s.srv.seqs.map fun (e : Nat × Option Seq) => (e.1, e.2.map fun (q : Seq) => { q with lastToken := none }) } }
  { s.clearLanes with srv := { s.clearLanes.srv with openLanes := [], waitCmds := [], farWait := [] } }.dropSends.restTiles.commitIdle

/-- A packet that waits on the schedule gets its completion. -/
def State.endWait (s : State) (no : Option Nat) (a : Answer) : State := match no with
  | some n => s.finish n a
  | none => s

/-- A step in progress is given up on every tile that runs one, as R193 has it: the state table's sequencers are IDLE in STOPPED
(DEDUCED, log entry 12). -/
def State.dropSteps (s : State) : State :=
  ((List.range 16).foldl (fun (s : State) n => if s.seqState n == seqRun || s.seqState n == seqSkip then s.abandonTile n else s) s).clearColl

/-- The schedule stops at once (R36, R584, R585): no headland item runs, and no step goes on.  A FURROW_START that waits for T0 is
refused; a FURROW_STOP is done. -/
def State.haltSchedule (s : State) : State :=
  if s.inSchedule || s.frwState == frwStopping || s.frwState == frwArmed then
    let s := if s.frwState == frwArmed then s else s.dropSteps
    let s := (s.stopped.endWait s.frw.startTicket { status := .cfgConflict }).endWait s.frw.stopTicket { status := .ok }
    { s with frw := { s.frw with startTicket := none, stopTicket := none } }
  else s

/-- The device is FENCED (R584). -/
def State.setFenced (s : State) : State := if s.assigned then s.put R.GLB_MEMBER_STATE.STATE 3 else s

/-- The unit leaves UNLOCKED while MERID_CLK is present and its PLL locked (R35): it waits for a mark to align to. -/
def State.reacquire (s : State) : State :=
  if s.mrdState == mrdUnlocked && s.mrd.pllLocked then
    ({ s with mrd := { s.mrd with aligned := false, goodMarks := 0 } }).setMrd mrdAcquire
  else s

/-- The unit enters UNLOCKED, which it leaves at the next count or edge if MERID_CLK is there (DESIGN CHOICE, log entry 13): a loss of lock is counted where it was LOCKED or in HOLDOVER; a running schedule stops and the
device is fenced (R36, R584). -/
def State.unlock (s : State) : State :=
  let st := s.mrdState
  let s := if st == mrdLocked || st == mrdHoldover then s.bump R.MRD_COUNTS.LOCK_LOSSES else s
  let s := (s.setMrd mrdUnlocked).put R.MRD_STATUS.MISSED_MARKS 0
  let s := { s with mrd := { s.mrd with aligned := false, goodMarks := 0, excursions := 0, accepted := false, withhold := false } }
  if s.inSchedule then (s.haltSchedule.setFenced).raise (evMeridianLost (s.readReg R.MRD_STATUS.STATE.addr)) else s

/-- ACQUIRE aligns MRD.TIME at an edge: the next multiple of 1,000,000, no time of day in force. -/
def State.align (s : State) : State :=
  let t := (s.now / 1000000 + 1) * 1000000
  let s := (s.put R.MRD_TIME.TIME t).putBit R.MRD_STATUS.TOD_VALID false
  { s with mrd := { s.mrd with aligned := true, goodMarks := 0, handled := some (windowOf t), withhold := false } }

/-- A time of day is assigned at an accepted mark (R37, R38). -/
def State.assignTime (s : State) (v : Nat) : State :=
  let s := ((s.put R.MRD_TIME.TIME v).put R.MRD_LAST_MARK.LAST_MARK v).putBit R.MRD_STATUS.TOD_VALID true
  { s with mrd := { s.mrd with handled := some (windowOf v), withhold := false } }

/-- An edge within tolerance is accepted: the slew, the mark's time, and a time of day that waits for it (R35, R37, R38).  Of several
MERIDIAN_SETs that wait for one mark the newest value is taken, and all of them are done (DESIGN CHOICE, log entry 14). -/
def State.acceptMark (s : State) (e : Int) : State :=
  let w := windowOf s.now
  let s := s.put R.MRD_LAST_MARK.LAST_MARK (w * 1000000)
  let s := { s with mrd := { s.mrd with accepted := true, excursions := 0, withhold := decide (0 < e) } }
  let s := if e < 0 then s.wrapAdd R.MRD_TIME.TIME else s
  if !s.idle then s
  else
    let l := s.mrd.setTo
    match l.getLast?, s.mrd.adopt with
    | some (v, _), _ =>
      let s := { s with mrd := { s.mrd with setTo := [], adopt := none } }.assignTime v
      l.foldl (fun (s : State) (e : Nat × Nat) => s.finishWith e.2 .ok) s
    | none, some v => { s with mrd := { s.mrd with adopt := none } }.assignTime v
    | none, none => s

/-- A mark edge at the present time (R35): the first of its search window is handled; answer whether it was accepted. -/
def State.markEdge (s : State) : State × Bool :=
  let s := s.reacquire
  let w := windowOf s.now
  let e := phaseError s.now
  let st := s.mrdState
  if st == mrdUnlocked then (s, false)
  else if st == mrdAcquire && !s.mrd.aligned then (s.align, false)
  else if s.mrd.handled == some w then (s, false)
  else
    let s := (s.put R.MRD_STATUS.LAST_PHASE_ERR (unsign 16 (max (-32767) (min 32767 e))))
    let s := { s with mrd := { s.mrd with handled := some w } }
    let fine := decide (e.natAbs ≤ s.get R.MRD_CTRL.PHASE_TOL_NS)
    if st == mrdAcquire then
      if 4 < e.natAbs then (s.align, false)
      else if s.mrd.goodMarks < 3 then ({ s with mrd := { s.mrd with goodMarks := s.mrd.goodMarks + 1 } }, false)
      else (({ s with mrd := { s.mrd with goodMarks := 4, excursions := 0 } }).setMrd mrdLocked, false)
    else if st == mrdLocked then
      if fine then (s.acceptMark e, true)
      else
        let s := s.bump R.MRD_COUNTS.PHASE_EXCURSIONS
        if s.mrd.excursions < 2 then ({ s with mrd := { s.mrd with excursions := s.mrd.excursions + 1 } }, false)
        else (s.unlock, false)
    else if fine then (((s.setMrd mrdLocked).put R.MRD_STATUS.MISSED_MARKS 0).acceptMark e, true)
    else (s.unlock, false)

/-- A search window ends with no edge (R35): the window before the present one.  A missing mark ends a run of excursions: the unit
leaves LOCKED, and three consecutive ones are counted in LOCKED (DEDUCED, log entry 15). -/
def State.missMark (s : State) : State :=
  let w := windowOf s.now - 1
  let st := s.mrdState
  if st == mrdUnlocked || (st == mrdAcquire && !s.mrd.aligned) || s.mrd.handled == some w then s
  else
    let s := { s with mrd := { s.mrd with handled := some w } }
    if st == mrdAcquire then { s with mrd := { s.mrd with aligned := false, goodMarks := 0 } }
    else if st == mrdLocked then
      let s := (s.setMrd mrdHoldover).bump R.MRD_COUNTS.HOLDOVER_ENTRIES
      ({ s with mrd := { s.mrd with excursions := 0 } }).put R.MRD_STATUS.MISSED_MARKS 1
    else
      let s := s.bump R.MRD_STATUS.MISSED_MARKS
      if s.get R.MRD_CTRL.HOLDOVER_MARKS < s.get R.MRD_STATUS.MISSED_MARKS then s.unlock else s

/-- MERID_CLK is lost: holdover from LOCKED, UNLOCKED from ACQUIRE. -/
def State.clockLost (s : State) : State :=
  let st := s.mrdState
  let s := { (s.putBit R.MRD_STATUS.CLK_PRESENT false) with mrd := { s.mrd with pllLocked := false } }
  if st == mrdLocked then
    ((s.setMrd mrdHoldover).bump R.MRD_COUNTS.HOLDOVER_ENTRIES).put R.MRD_STATUS.MISSED_MARKS 0
  else if st == mrdAcquire then s.unlock
  else s

/-- The MERID_CLK PLL locks: UNLOCKED goes to ACQUIRE. -/
def State.pllLock (s : State) : State :=
  let s := { (s.putBit R.MRD_STATUS.CLK_PRESENT true) with mrd := { s.mrd with pllLocked := true } }
  if s.mrdState == mrdUnlocked then
    ({ s with mrd := { s.mrd with aligned := false, goodMarks := 0 } }).setMrd mrdAcquire
  else s

/-- A mark's time as the lead tells it disagrees with this device's time by a millisecond or more (R38): it is neither that of the own
last mark nor the millisecond that the own time is in, from which a device that missed a mark or ignored one does not differ; and
it is no older mark of a lead in HOLDOVER (DEDUCED, log entry 16). -/
def State.markDiffers (s : State) (v st : Nat) : Bool :=
  let far := fun (own : Nat) => decide (v + 1000000 ≤ own ∨ own + 1000000 ≤ v)
  let present := s.now / 1000000 * 1000000
  far (s.get R.MRD_LAST_MARK.LAST_MARK) && far present && far (windowOf s.now * 1000000) && !(st == mrdHoldover && decide (v ≤ present))

/-- The lead's beacon tells its last mark, and the state of its Meridian unit (R38): a member adopts it at its next mark where it has no
time of day, or the value has changed while no schedule runs; in any other state a disagreement of a millisecond or more ends lock.
The next mark comes a millisecond after the one that the beacon tells, so it takes that value plus 1,000,000 (DEDUCED, log entry
17). -/
def State.heardMark (s : State) (v st : Nat) : State :=
  if s.isLead || !(s.mrdState == mrdLocked || s.mrdState == mrdHoldover) then s
  else
    let differs := s.markDiffers v st
    if s.idle then
      if !s.isSet R.MRD_STATUS.TOD_VALID || differs then { s with mrd := { s.mrd with adopt := some (v + 1000000) } } else s
    else if differs then (s.bump R.MRD_COUNTS.TOD_MISMATCHES).unlock
    else s

end Sys2Proof.Machine
end

