-- ==== Sys2Proof/Machine/Clock.lean ====
section
/-!
DEFINITION. The passing of time (R33 to R36, R526): MRD.TIME counts one nanosecond where the Meridian unit counts, and the
throttle reasons in force grow.
-/

namespace Sys2Proof.Machine

/-- MRD.TIME counts: outside UNLOCKED, on MERID_CLK or in holdover; in UNLOCKED while MERID_CLK is present and its PLL
locked. -/
def State.counts (s : State) : Bool :=
  s.mrdState != mrdUnlocked || (s.isSet R.MRD_STATUS.CLK_PRESENT && s.mrd.pllLocked)

/-- MRD.TIME takes its next count; a count that the slew withholds is left out (R35). -/
def State.count (s : State) : State :=
  if !s.counts then s
  else if s.mrd.withhold then { s with mrd := { s.mrd with withhold := false } }
  else s.wrapAdd R.MRD_TIME.TIME

/-- One nanosecond passes. -/
def State.tick (s : State) : State := if s.alive then s.count.throttleTick.reacquire else s

end Sys2Proof.Machine
end

