-- ==== Sys2Proof/Machine/Flash.lean ====
section
/-!
DEFINITION. The boot flash (R601 to R607, R614, R615, spec/18_management_and_test.md): the bad-sector map, the event log, and the
refresh of weak sectors.
-/

namespace Sys2Proof.Machine

/-! ### The bad-sector map (R601, R602, R606) -/

/-- The physical sector of a logical sector. -/
def Mgt.phys (m : Mgt) (l : Nat) : Nat := (Table.get none l m.map).getD l

/-- The pool: physical sectors neither mapped nor retired. -/
def Mgt.pool (m : Mgt) : List Nat :=
  let used := (List.range 192).map m.phys
  (List.range 1024).filter fun p => !used.contains p && !m.retired.contains p

/-- FLASH_STATUS shows the map in use (R614). -/
def State.flashStatus (s : State) : State :=
  let s := s.put R.MGT_FLASH_STATUS.MAP_GENERATION (max s.mgt.genA s.mgt.genB)
  (s.put R.MGT_FLASH_STATUS.RETIRED s.mgt.retired.length).put R.MGT_FLASH_STATUS.POOL_FREE s.mgt.pool.length

/-- A changed map is in force: written with the next generation into the copy not in use, then into the other (R602). -/
def State.newMap (s : State) (m : Mgt) : State :=
  let g := max s.mgt.genA s.mgt.genB + 1
  ({ s with mgt := { m with genA := g, genB := g } }).flashStatus

/-- A logical sector moves to a sector of the pool; its old sector is retired, or goes back to the pool.  Which sector of the pool
the controller takes is left open. -/
def State.moveSector (s : State) (l : Nat) (retire : Bool) : State :=
  if s.mgt.pool.isEmpty then s
  else
    let p := s.pick s.mgt.pool
    let s := s.draw
    let old := s.mgt.phys l
    let m := { s.mgt with
      map := Table.insert l (some p) s.mgt.map
      retired := if retire then s.mgt.retired ++ [old] else s.mgt.retired
      erases := Table.modify 0 p (· + 1) s.mgt.erases }
    s.newMap m

/-- A logical sector is erased: the erase is counted, and a sector that has had 50,000 is retired (R606). -/
def State.eraseSector (s : State) (l : Nat) : State :=
  let p := s.mgt.phys l
  let n := Table.get 0 p s.mgt.erases + 1
  let s := { s with mgt := { s.mgt with erases := Table.set 0 p n s.mgt.erases } }
  if 50000 ≤ n then s.moveSector l true else s

/-! ### The event log (R604, R605) -/

/-- The 64 bytes of an entry. -/
def evEntryBytes (q : Nat) (r : ErrRec) : Bytes :=
  let a := leBytes 4 q ++ List.replicate 24 0
  let b := errBytes r
  a ++ leBytes 4 (crc32c (a ++ b)) ++ b

/-- Write the oldest record that waits: the first entry of a sector first erases the next sector of the ring; a sector that fails
is retired and its contents move. -/
def State.writeEvent (s : State) (fails : Bool) : State :=
  match s.mgt.toLog with
  | [] => s
  | r :: rest =>
    let q := s.mgt.evSeq
    let slot := q % 32768
    let l := 160 + slot / 1024
    let s := { s with mgt := { s.mgt with toLog := rest } }
    let s := if slot % 1024 != 0 then s
      else
        let k := (slot / 1024 + 1) % 32
        let s := { s with mgt := { s.mgt with
          evlog := s.mgt.evlog.filter fun e => decide (e.1 < 1024 * k ∨ 1024 * k + 1024 ≤ e.1) } }
        s.eraseSector (160 + k)
    let s := if fails then s.moveSector l true else s
    let s := { s with mgt := { s.mgt with
      evlog := Table.insert slot (some (evEntryBytes q r)) s.mgt.evlog, evSeq := (q + 1) % 2 ^ 32 } }
    s.put R.MGT_EVLOG_SEL.NEWEST q

/-- The entries held, oldest first: their SEQ and bytes; one with a bad CRC is skipped. -/
def State.evHeld (s : State) : List (Nat × Bytes) :=
  let c := s.mgt.evSeq % 32768
  ((s.mgt.evlog.filter fun e => decide (c ≤ e.1)) ++ s.mgt.evlog.filter fun e => decide (e.1 < c)).filterMap fun e =>
    e.2.bind fun b => if rd b 0 4 % 32768 == e.1 && evEntryWhole b then some (rd b 0 4, b) else none

/-- At boot the firmware finds the highest valid SEQ and goes on from it. -/
def State.findNewest (s : State) : State :=
  match s.evHeld.getLast? with
  | some e => { s with mgt := { s.mgt with evSeq := (e.1 + 1) % 2 ^ 32 } }.put R.MGT_EVLOG_SEL.NEWEST e.1
  | none => s

/-- The reply to an event-log read: four entries from the one named, or from the oldest where it is no longer held. -/
def State.readEvents (s : State) (q : Nat) : List Bytes :=
  let l := s.evHeld
  let from_ := l.dropWhile fun e => e.1 != q
  ((if from_.isEmpty then l else from_).take 4).map Prod.snd

/-! ### Refresh (R606) -/

/-- Every mapped sector has been read: weak ones are copied to the pool, and their old sectors go back to it. -/
def State.refreshFlash (s : State) (weak : List Nat) : State :=
  let s := { s with mgt := { s.mgt with lastScan := s.now } }
  (weak.filter fun l => decide (l < 192)).foldl (fun (s : State) l =>
    let p := s.mgt.phys l
    s.moveSector l (decide (50000 ≤ Table.get 0 p s.mgt.erases))) s

/-! ### The commands -/

/-- EVENT_LOG_WRITE (R602, R604): the management block writes the next entry; `fails`: the sector's program fails. -/
def execEventLogWrite (fails : Bool) (s : State) : Answered := s.become (s.writeEvent fails)

/-- FLASH_REFRESH_SCAN (R606): the logical sectors found weak. -/
def execFlashRefreshScan (weak : List Nat) (s : State) : Answered :=
  s.whenAlive fun s => if s.isSet R.GLB_READY.BOOT_OK then s.refreshFlash weak else s

end Sys2Proof.Machine
end

