-- ==== Sys2Proof/Machine/Furrow.lean ====
section
/-!
DEFINITION. The furrow schedule of one device (R39 to R44, R50 to R58, R463 to R465, spec/02_meridian_and_furrows.md,
13_fjarip_fabric.md): start and stop, furrow starts, the late-step check with its beacons, relays and echoes, the decision for
a fallow furrow, and turnarounds.  What a headland does stands in `Machine/Headland.lean`.
-/

namespace Sys2Proof.Machine

/-! ### Start and stop (R40 to R44) -/

/-- A MERIDIAN_SET that still waits for a mark when a schedule is armed is refused, as R37 has it in ARMED, and no value of the lead's is
adopted any more (R38) (DEDUCED, log entry 14). -/
def State.refuseSets (s : State) : State :=
  let l := s.mrd.setTo
  l.foldl (fun (s : State) (e : Nat × Nat) => s.finishWith e.2 .cfgConflict) { s with mrd := { s.mrd with setTo := [], adopt := none } }

/-- The state moves from STOPPED to ARMED: T0 is known (R41). -/
def State.arm (s : State) (t0 k0 : Nat) : State :=
  let s := s.refuseSets
  { (s.put R.FRW_STATE.STATE frwArmed) with
    frw := { s.frw with t0 := t0, k0 := k0, turned := false, nextTemplate := 0, fallowRun := 0 } }

/-- FURROW_START at the lead (R41): the checks in order, and T0 to every member. -/
def State.startLead (s : State) (t : Ticket) : State :=
  let t0 := t.packet.p0
  if !s.ready || s.frw.active.isNone || s.frwState != frwStopped then s.finishWith t.no .cfgConflict
  else if t0 < s.now + 100000 then s.finishWith t.no .rejDeadline
  else
    let k0 := s.frw.nextK
    let s := (s.arm t0 k0).sendAll s.others (.t0 t0 k0)
    { s with frw := { s.frw with startTicket := some t.no } }

/-- T0 reaches a member. -/
def State.t0In (s : State) (t0 k0 : Nat) : State := if s.frwState == frwStopped then s.arm t0 k0 else s

/-- The headland that a stop at furrow `k` takes: the next one where that of `k` has started (R44). -/
def State.stopHeadland (s : State) (k : Nat) : Nat :=
  if k ≤ s.furrow then (if s.isSet R.FRW_STATE.HEADLAND then s.furrow + 1 else s.furrow) else k

/-- No stop is due at the headland of furrow `k` or before it. -/
def State.mayStop (s : State) (k : Nat) : Bool := match s.frw.stopAt with
  | some j => decide (k < j)
  | none => true

/-- The schedule is to stop at the headland of furrow `k`, or earlier where a stop is already due (R42). -/
def State.stopAtHeadland (s : State) (k : Nat) : State :=
  let k := match s.frw.stopAt with
    | some j => min j k
    | none => k
  { (s.putBit R.FRW_STATE.STOP_PENDING true) with frw := { s.frw with stopAt := some k } }

/-- The packet that tells the other members of a stop: its headland. -/
def stopPacket (k : Nat) : Packet :=
  { ring := 0, opcode := 0x13, flags := 0, cls := 0, rsv3 := 0, tag := 0, payloadLen := 0, tenant := 0, rsv14 := 0
    payloadAddr := 0, p0 := k, p1 := 0, p2 := 0, p3 := 0, p4 := 0 }

/-- The lead stops the schedule at a headland (R42, R58, R159). -/
def State.stopAll (s : State) (k : Nat) : State :=
  (s.stopAtHeadland k).sendAll s.others (.fwdCmd (stopPacket k) none none)

/-- FURROW_STOP at the lead (R42, R44, R139). -/
def State.stopLead (s : State) (t : Ticket) : State :=
  let armed := s.frwState == frwArmed
  if !(armed || s.inSchedule) || s.frw.stopAt.isSome then s.finishWith t.no .cfgConflict
  else if !t.packet.f4 && decide (t.packet.p0 < s.furrow) then s.finishWith t.no .rejDeadline
  else if armed then
    let s := s.haltSchedule.sendAll s.others (.fwdCmd (stopPacket 0) none none)
    s.finishWith t.no .ok
  else
    let s := s.stopAll (s.stopHeadland (if t.packet.f4 then s.furrow else t.packet.p0))
    { s with frw := { s.frw with stopTicket := some t.no } }

/-- A stop reaches a member. -/
def State.stopIn (s : State) (k : Nat) : State :=
  if s.frwState == frwArmed then s.haltSchedule
  else if s.inSchedule then s.stopAtHeadland (s.stopHeadland k)
  else s

/-- The end of the stop headland (R42). -/
def State.stopEnds (s : State) : State :=
  if s.frwState == frwStopping then
    let s := s.endStep.stopped.endWait s.frw.stopTicket { status := .ok }
    { s with frw := { s.frw with stopTicket := none } }
  else s

/-! ### Turnarounds and furrow starts (R40, R41, R55, R56, R59) -/

/-- A turnaround at every tile and near-bank unit: the next step is armed from a template, or none where the furrow to come is
fallow; the maximum clock rate follows MAX_MODE (R521). -/
def State.turnDevice (s : State) (template : Option Nat) : State :=
  let s := s.turnTiles template
  let s := (List.range 16).foldl (fun (s : State) n => s.fenceUnits n) s
  let s := if template.isSome then s.clearColl else s
  (List.range 16).foldl (fun (s : State) n =>
    s.put (R.PWR_TILE.F_SET_MHZ n) (if bit (s.get R.PWR_FREQ_CTRL.MAX_MODE) n then s.get (R.PWR_TILE.F_MAX_MHZ n) else 1100)) s

/-- START_TURNAROUND (R41): 200 ns before T0, template index 0. -/
def State.startTurn (s : State) : State :=
  if s.frwState == frwArmed && !s.frw.turned then
    let s := s.turnDevice (some 0)
    { s with frw := { s.frw with turned := true } }
  else s

/-- The turnaround of a headland: a template corrected under R55 is taken at the end of the fallow furrow that the difference made, as the
lead told it last. -/
def State.turn (s : State) : State :=
  if !(s.inSchedule && s.isSet R.FRW_STATE.HEADLAND) then s
  else
    let s := match s.frw.resync, s.frw.correcting with
      | some t, true =>
        { (s.bump R.FRW_SLACK.TEMPLATE_RESYNCS) with frw := { s.frw with nextTemplate := t, resync := none, correcting := false } }
      | _, _ => s
    s.turnDevice (if s.isSet R.FRW_STATE.LATE_GROUP then none else some s.frw.nextTemplate)

/-- What a furrow has heard so far is forgotten at its start. -/
def State.freshFurrow (s : State) : State :=
  let s := (s.putBit R.FRW_STATE.LATE_SELF false).putBit R.FRW_STATE.LATE_GROUP false
  { s with
    frw := { s.frw with
      beacons := [], lateBeacons := [], missing := [], relays := [], lateGroups := [], missingRelays := [], echoLate := false
      leadNext := none }
    cfg := { s.cfg with peers := [] }
    flt := { s.flt with silentReports := [] } }

/-- A furrow that runs a step begins (R40, R48). -/
def State.beginStep (s : State) : State :=
  let t := s.frw.nextTemplate
  let cycle := max 1 (s.get R.FRW_LATE.CYCLE_LEN)
  let s := (s.put R.FRW_STATE.STATE frwRunning).put R.FRW_LATE.TEMPLATE t
  let s := { s with frw := { s.frw with
    nextTemplate := (t + 1) % cycle, stepOpen := true, doneAt := none, fallowRun := 0 } }
  let s := ((List.range 16).foldl (fun (s : State) n => s.startTile n) s).noteDone
  (((s.startOutside t).countLanes).countWaits).startMisses.startBlind

/-- A fallow furrow begins (R56).  It runs no template: FRW.LATE.TEMPLATE keeps that of the last furrow that ran one (DESIGN CHOICE, log
entry 19). -/
def State.beginFallow (s : State) : State :=
  let s := ((s.put R.FRW_STATE.STATE frwFallow).bump R.FRW_EVENTS0.FALLOW_COUNT).endOccur 16
  { s with frw := { s.frw with fallowRun := s.frw.fallowRun + 1, correcting := s.frw.resync.isSome } }

/-- FURROW_BODY_START (R40): the first furrow at T0, each later one at the end of a headland.  A device without lock at T0 runs no
furrow (R35): its start is over (DEDUCED, log entry 129). -/
def State.bodyStart (s : State) : State :=
  if s.frwState == frwArmed && s.frw.turned && s.lockless then s.haltSchedule
  else if s.frwState == frwArmed && s.frw.turned then
    let s := (s.put R.FRW_FURROW_NUM.FURROW_NUM s.frw.k0).put R.FRW_START_TIME.START_TIME s.frw.t0
    let s := s.freshFurrow.endStep.beginStep
    let s := s.endWait s.frw.startTicket { status := .ok, result0 := s.frw.t0 }
    { s with frw := { s.frw with startTicket := none } }
  else if s.inSchedule && s.isSet R.FRW_STATE.HEADLAND then
    let fallow := s.isSet R.FRW_STATE.LATE_GROUP
    let k := s.furrow + 1
    let s := (s.put R.FRW_FURROW_NUM.FURROW_NUM k).put R.FRW_START_TIME.START_TIME (s.furrowStart k)
    let s := (s.putBit R.FRW_STATE.HEADLAND false).freshFurrow
    let s := if s.frw.stepOpen then s else s.endStep
    if fallow then s.beginFallow else s.beginStep
  else s

/-! ### Beacons (R39, R51, R463) -/

/-- The BEACON flit. -/
def State.beaconFlit (s : State) : Bytes :=
  let b1 := b2n (s.isSet R.FRW_STATE.LATE_SELF) + 2 * b2n s.assigned + 4 * s.get R.GLB_DEVPOS.LEAD + 8 * s.mrdState +
    32 * s.get R.GLB_DEVPOS.SPARE
  fit 256 (leBytes 1 1 ++ leBytes 1 b1 ++ leBytes 1 s.self ++
    leBytes 1 (s.frwState + 16 * s.get R.FRW_LATE.TEMPLATE) ++ leBytes 4 (s.get R.GLB_MEMBERSHIP.EPOCH) ++
    leBytes 4 (s.get R.CFG_STATUS.ACTIVE_EPOCH) ++ leBytes 4 (s.get R.FRW_PLAN.ACTIVE_ID) ++ leBytes 8 Config.serial ++
    leBytes 8 (s.get R.CFG_DIGEST.ACTIVE_DIGEST) ++ leBytes 8 (s.get R.MRD_LAST_MARK.LAST_MARK) ++ leBytes 8 s.furrow ++
    leBytes 4 (s.get R.FRW_SLACK.LAST_SLACK_NS) ++ leBytes 1 s.frw.nextTemplate)

/-- Send a frame on each of some ports that is UP. -/
def State.sendOn (s : State) (ports : List Nat) (f : Frame) : State :=
  (ports.filter fun p => s.portUp p).foldl (fun (s : State) p => s.sendSeq p f) s

/-- Send a beacon on every port whose link is UP; a device in UNLOCKED or ACQUIRE sends none (R39). -/
def State.sendBeacon (s : State) : State :=
  if s.lockless then s
  else s.sendOn (List.range 24) (plainFrame fBeacon s.beaconFlit)

/-- What any beacon tells of its sender, by its serial. -/
def State.hearBeacon (s : State) (p : Nat) (b : Bytes) : State :=
  let h : Heard := ⟨rd b 16 8, fld b 1 1 1 1 == 1, fld b 1 1 5 1 == 1, fld b 1 1 2 1 == 1, fld b 2 1 0 6, fld b 3 1 0 3,
    fld b 1 1 3 2, rd b 4 4, p⟩
  { s with flt := { s.flt with heard := Table.insert h.serial (some h) s.flt.heard } }

/-- A beacon of a member, of the epoch held for it. -/
def State.acceptBeacon (s : State) (b : Bytes) : State :=
  let d := fld b 2 1 0 6
  let fromLead := d == s.leadId && fld b 1 1 2 1 == 1
  let s := if fromLead then { s with flt := { s.flt with leadLost := false } }.heardMark (rd b 32 8) (fld b 1 1 3 2) else s
  if !(s.inSchedule && rd b 40 8 == s.furrow) then s
  else
    let late := fld b 1 1 0 1 == 1 && !s.frw.lateBeacons.contains d
    { s with
      frw := { s.frw with
        beacons := if s.frw.beacons.contains d then s.frw.beacons else s.frw.beacons ++ [d]
        lateBeacons := if late then s.frw.lateBeacons ++ [d] else s.frw.lateBeacons
        leadNext := if fromLead && d / 16 == s.get R.GLB_DEVPOS.GROUP then some (fld b 52 1 0 3) else s.frw.leadNext }
      cfg := { s.cfg with peers := Table.insert d (rd b 8 4, rd b 24 8) s.cfg.peers } }

/-- Count an item dropped on a port for its epoch, and answer it (R465, R581). -/
def State.dropEpoch (s : State) (p dev epoch serial : Nat) : State :=
  (s.bump (R.LINK_COUNTS1.EPOCH_DROPS p)).answerFenced (some p) dev epoch serial

/-- A beacon arrives on a port (R463, R465, R581): a spare's epoch is held by its serial, and a serial for which none is held counts
as unassigned. -/
def State.beaconIn (s : State) (p : Nat) (b : Bytes) : State :=
  let s := s.hearBeacon p b
  let serial := rd b 16 8
  let epoch := rd b 4 4
  if !s.assigned || fld b 1 1 1 1 == 0 then s
  else if fld b 1 1 5 1 == 1 then
    let held := Table.get 0 serial s.flt.spareEpoch
    if held == 0 || held == epoch then s else s.dropEpoch p 0 epoch serial
  else
    let d := fld b 2 1 0 6
    if epoch != s.get (R.GLB_PEER_EPOCH.EPOCH d) then s.dropEpoch p d epoch serial else s.acceptBeacon b

/-! ### The late-step check (R50, R51, R57, R75) -/

/-- A step that is still incomplete at the check of a fallow furrow is abandoned on this device (R57). -/
def State.abandonStep (s : State) : State :=
  let tiles := (List.range 16).filter fun n => s.owes n
  let insts := (tiles.filterMap fun n => (s.tile n).inst).eraseDups
  let s := tiles.foldl (fun (s : State) n => s.abandonTile n) s
  let s := (Table.keys s.pwr.occur).foldl (fun (s : State) i => if i == 16 then s else s.dropOccur i) s
  let s := insts.foldl (fun (s : State) i => (s.noteFailed i).raise (evStepAbandoned (some i))) s
  let s := (s.clearColl).bump R.FRW_EVENTS1.ABANDONED_STEPS
  { s with frw := { s.frw with stepOpen := false, doneAt := some s.offset } }

/-- The check of a furrow that runs a step: late, or the slack of the completed one.  A device that R55 treats as late for its template
index set no late flag itself, and its slack counts (DESIGN CHOICE, log entry 20). -/
def State.checkStep (s : State) : State :=
  match s.frw.doneAt with
  | none => (s.putBit R.FRW_STATE.LATE_SELF true).bump R.FRW_EVENTS0.LATE_SELF_COUNT
  | some off =>
    let slack := s.get R.FRW_LATE.LATE_OFFSET_NS - off
    let s := s.put R.FRW_SLACK.LAST_SLACK_NS slack
    if slack < s.get R.FRW_SLACK.MIN_SLACK_NS then s.put R.FRW_SLACK.MIN_SLACK_NS slack else s

/-- LATE_STEP_CHECK: frames of a completed step that wait for a replay leave it to the headland (R460); the lead decides a commit
whose target furrow this is (R154); the beacon follows. -/
def State.lateCheck (s : State) : State :=
  if !s.inSchedule || s.isSet R.FRW_STATE.HEADLAND then s
  else
    let s := s.deferReplay
    let s := if s.frwState == frwRunning then s.checkStep
      else if s.frw.stepOpen && s.frw.doneAt.isNone then s.abandonStep
      else s
    let s := match s.cfg.lead with
      | some c => if c.furrow ≤ s.furrow then s.decideCommit else s
      | none => s
    s.sendBeacon

/-! ### Missing beacons, relays, echoes (R52 to R55, R464) -/

/-- Devices a beacon is expected from (R53). -/
def State.expectedBeacons (s : State) : List Nat := s.groupPeers ++ s.counterparts

/-- The span in which late indications are collected. -/
def State.inBody (s : State) : Bool := s.inSchedule && !s.isSet R.FRW_STATE.HEADLAND

/-- A member whose beacons have been missing to the limit (R53, R582, R585): the lead is lost at the next headland; any other is
reported to the lead, which itself declares at PEER_DECLARED_DEAD. -/
def State.silentFor (s : State) (d n : Nat) : State :=
  if n != s.get R.FRW_CTRL.MISSING_BEACON_LIMIT then s
  else if s.isLead then s
  else if d == s.leadId then { s with frw := { s.frw with leadSilent := true } }
  else s.sendCtrl s.leadId (.failure 2 d 0 s.furrow none)

/-- BEACON_DEADLINE (R53). -/
def State.beaconsDue (s : State) : State :=
  if !s.inBody then s
  else
    let gone := s.expectedBeacons.filter fun d => !s.frw.beacons.contains d
    let silent : Table Nat := gone.foldl (fun t d => Table.insert d (Table.get 0 d s.frw.silent + 1) t) []
    let s := { s with frw := { s.frw with missing := gone, silent := silent } }
    let s := s.bump R.FRW_EVENTS2.MISSING_BEACONS gone.length
    gone.foldl (fun (s : State) d => s.silentFor d (Table.get 0 d silent)) s

/-- The lead's next template index differs from this device's (R55). -/
def State.indexDiffers (s : State) : Bool := match s.frw.leadNext with
  | some t => t != s.frw.nextTemplate
  | none => false

/-- A device whose index differs treats itself as late (R55): not again in the fallow furrow that its difference has made, at whose end it
takes the lead's index. -/
def State.offCourse (s : State) : Bool := s.indexDiffers && !s.frw.correcting

/-- LATE_MASK: the members of the own group that are late in this device's view (R52). -/
def State.lateMask (s : State) : Nat :=
  let g := s.get R.GLB_DEVPOS.GROUP
  let own := if s.isSet R.FRW_STATE.LATE_SELF || s.offCourse then [s.self] else []
  bitSet (((own ++ s.frw.lateBeacons ++ s.frw.missing).filter fun d => d / 16 == g).map fun d => d % 16)

/-- A RELAY flit (R464). -/
def State.relayFlit (s : State) (echo : Bool) (groupsLate : Nat) : Bytes :=
  let g := s.get R.GLB_DEVPOS.GROUP
  let next := if s.isLead then some s.frw.nextTemplate
    else if s.leadId / 16 == g then s.frw.leadNext
    else none
  let b4 := match next with
    | some t => t + 8
    | none => 0
  fit 256 (leBytes 1 1 ++ leBytes 1 (g + 4 * b2n echo) ++ leBytes 2 s.lateMask ++ leBytes 1 b4 ++ leBytes 3 groupsLate ++
    leBytes 8 s.furrow ++ leBytes 4 (s.get R.GLB_MEMBERSHIP.EPOCH))

/-- RELAY_SEND (R52): on the column ports, in a cluster of more than one group. -/
def State.sendRelay (s : State) : State :=
  if s.inBody && decide (1 < s.groups.length) then
    s.sendOn ((List.range 9).map fun j => 15 + j) (plainFrame fRelay (s.relayFlit false 0))
  else s

/-- RELAY_DEADLINE (R53): one relay is expected from each counterpart's group. -/
def State.relaysDue (s : State) : State :=
  if !s.inBody then s
  else
    let gone := (s.counterparts.map fun d => d / 16).filter fun g => !s.frw.relays.contains g
    { (s.bump R.FRW_EVENTS2.MISSING_BEACONS gone.length) with frw := { s.frw with missingRelays := gone } }

/-- ECHO_SEND (R52): on the mesh ports. -/
def State.sendEcho (s : State) : State :=
  if s.inBody then
    s.sendOn (List.range 15) (plainFrame fRelay (s.relayFlit true (bitSet (s.frw.lateGroups ++ s.frw.missingRelays))))
  else s

/-- A relay or echo arrives on a port (R464, R465). -/
def State.relayIn (s : State) (p : Nat) (b : Bytes) : State :=
  let d := (s.portDevice p).getD 0
  if !s.assigned then s
  else if rd b 16 4 != s.get (R.GLB_PEER_EPOCH.EPOCH d) then s.dropEpoch p d (rd b 16 4) (s.get (R.LINK_PEER.SERIAL p))
  else if !(s.inSchedule && rd b 8 8 == s.furrow) then s
  else
    let mask := rd b 2 2
    if fld b 1 1 2 1 == 1 then
      { s with frw := { s.frw with echoLate := s.frw.echoLate || mask != 0 || fld b 5 1 0 4 != 0 } }
    else
      let g := fld b 1 1 0 2
      { s with frw := { s.frw with
        relays := if s.frw.relays.contains g then s.frw.relays else s.frw.relays ++ [g]
        lateGroups := if mask == 0 || s.frw.lateGroups.contains g then s.frw.lateGroups else s.frw.lateGroups ++ [g]
        leadNext := if fld b 4 1 3 1 == 1 && s.leadId / 16 != s.get R.GLB_DEVPOS.GROUP then some (fld b 4 1 0 3)
          else s.frw.leadNext } }

/-- FALLOW_DECISION (R54, R55): any late indication makes the next furrow fallow. -/
def State.decideFallow (s : State) : State :=
  if !s.inBody then s
  else
    let f := s.frw
    let late := s.isSet R.FRW_STATE.LATE_SELF || s.offCourse || !f.lateBeacons.isEmpty || !f.missing.isEmpty ||
      !f.lateGroups.isEmpty || !f.missingRelays.isEmpty || f.echoLate
    { (s.putBit R.FRW_STATE.LATE_GROUP late) with
      frw := { f with resync := if s.indexDiffers then f.leadNext else f.resync } }

/-- SCHEDULE_COLLAPSE (R58): the lead stops the schedule at the next headland. -/
def State.collapse (s : State) : State :=
  if s.isLead && s.inSchedule && decide (s.get R.FRW_CTRL.FALLOW_LIMIT ≤ s.frw.fallowRun) && s.mayStop (s.stopHeadland s.furrow) then
    (s.raise (evScheduleCollapse (s.get R.FRW_CTRL.FALLOW_LIMIT))).stopAll (s.stopHeadland s.furrow)
  else s

end Sys2Proof.Machine
end

