-- ==== Sys2Proof/Machine/Loading.lean ====
section
/-!
DEFINITION. Commands that stage configuration on every member (R45 to R47, R137, R140, R147, R150, R168, R308, R398, R421, R552,
R554, R556, spec/02_meridian_and_furrows.md, 04_command_packets.md): CFG_STAGE, furrow plans, model instances and step plans.  The
lead has every device check its part first, and only then stage it.
-/

namespace Sys2Proof.Machine

/-! ### The furrow plan image (R45 to R47) -/

namespace FP
def count (b : Bytes) : Nat := rd b 6 2
def period (b : Bytes) : Nat := rd b 12 4
def headland (b : Bytes) : Nat := rd b 16 4
def late (b : Bytes) : Nat := rd b 20 4
def cycle (b : Bytes) : Nat := rd b 24 1
def sets (b : Bytes) : Nat := rd b 25 1
end FP

/-- Entry `i` of an image (R46). -/
def planEntry (b : Bytes) (i : Nat) : PlanEntry :=
  let o := 64 + 32 * i
  { type := fld b o 1 0 4, template := fld b o 1 4 4, inst := rd b (o + 1) 1, tag := rd b (o + 2) 2, offset := rd b (o + 4) 4
    duration := rd b (o + 8) 4, argA := rd b (o + 12) 4, argB := rd b (o + 16) 4, op := rd b (o + 20) 1 }

def planEntries (b : Bytes) : List PlanEntry := (List.range (FP.count b)).map (planEntry b)

/-- Fields that an entry's type does not use are 0, and its encodings are not reserved. -/
def entryClean (e : PlanEntry) : Bool :=
  match e.type with
  | 1 => e.argA == 0 && e.argB == 0 && e.op == 0
  | 2 => decide (e.argA < 2 ^ 24) && decide (1 ≤ e.op ∧ e.op ≤ 6)
  | 3 => e.offset == 0 && e.duration == 0 && decide (e.argA < 65536) && e.argB == 0 && e.op == 0
  | 4 => e.inst == 0 && e.tag == 0 && decide (e.argA < 65536) && e.argB == 0 && e.op == 0
  | _ => false

/-- Every bit that R45 and R46 reserve is 0. -/
def planClean (b : Bytes) : Bool :=
  rd b 8 4 != 0 && rd b 26 2 == 0 && allZero (slice b 32 32) && (planEntries b).all entryClean &&
    (List.range (FP.count b)).all fun i => allZero (slice b (64 + 32 * i + 21) 11)

/-- Two spans of entries have time in common. -/
def spansMeet (a b : PlanEntry) : Bool := decide (a.offset < b.offset + b.duration ∧ b.offset < a.offset + a.duration)

/-- Some two entries of a list, at different places, are related. -/
def anyPair (r : PlanEntry → PlanEntry → Bool) : List PlanEntry → Bool
  | [] => false
  | e :: rest => rest.any (r e) || anyPair r rest

/-- The plan of an image. -/
def furrowPlanOf (b : Bytes) : FurrowPlan :=
  ⟨rd b 8 4, FP.period b, FP.headland b, FP.late b, FP.cycle b, FP.sets b, planEntries b, b⟩

/-- The checks of R47 in order: the status of the first that fails, with its number.  Check 13 holds for as long as the commit locks the
staged set (R152). -/
def State.furrowPlanCheck (s : State) (b : Bytes) : Option (Status × Nat) :=
  let es := planEntries b
  let start := FP.period b - FP.headland b
  let ends := fun (e : PlanEntry) => e.offset + e.duration
  let late := FP.late b
  if b.length != 64 + 32 * FP.count b then some (.rejFormat, 0x81)
  else if FP.count b == 0 then some (.okEmpty, 1)
  else if rd b 0 4 != 0x50575246 then some (.rejFormat, 2)
  else if rd b 4 2 != 1 then some (.rejVersion, 3)
  else if crc32c (b.drop 64) != rd b 28 4 then some (.rejFormat, 4)
  else if !planClean b then some (.rejFormat, 5)
  else if FP.period b == 0 || FP.headland b == 0 || late == 0 || FP.cycle b == 0 || FP.sets b == 0 ||
      es.any (fun e => e.type != 3 && e.duration == 0) then some (.rejZeroExtent, 6)
  else if !(decide (20000 ≤ FP.period b ∧ FP.period b ≤ 400000)) || FP.period b % 100 != 0 ||
      !(decide (1000 ≤ FP.headland b ∧ FP.headland b ≤ 20000)) || FP.headland b % 100 != 0 || decide (8 < FP.cycle b) ||
      decide (4 < FP.sets b) || decide (FP.period b < FP.headland b + 10000) ||
      es.any (fun e => decide (FP.cycle b ≤ e.template) || (e.type == 3 && decide (FP.sets b ≤ e.tag))) then some (.rejFormat, 7)
  else if es.any fun e => (e.type == 1 || e.type == 2) && decide (start < ends e) then some (.cfgConflict, 8)
  else if anyPair (fun a c => a.type == 1 && c.type == 1 && a.template == c.template && spansMeet a c) es then some (.cfgConflict, 9)
  else if anyPair (fun a c => a.type == 2 && c.type == 2 && a.template == c.template && spansMeet a c && a.argA &&& c.argA != 0) es then
    some (.cfgConflict, 10)
  else if es.any (fun e => e.type == 2 && decide (late < ends e)) || decide (start < late + 1000) then some (.cfgConflict, 11)
  else if anyPair (fun a c => a.type == 3 && c.type == 3 && a.template == c.template && a.inst == c.inst && a.tag == c.tag) es then
    some (.cfgConflict, 12)
  else if s.cfg.prepared.isSome || s.cfg.lockCluster then some (.cfgConflict, 13)
  else none

/-! ### The model image (R140, R244, R288 to R290, R308, R398, R421, R552 to R556) -/

/-- A multiplier word's reserved bits are 0 (R244). -/
def wordClean (w : Nat) : Bool := !outside w (mask 0 32 + mask 32 6 + mask 40 6)

/-- The tensor images of a model image. -/
def modelTensors (b : Bytes) (m : ModelImage) : List Bytes := m.tensors.map fun o => b.drop o

/-- A near-bank sequence of a model image: an extent of it is 0; it is whole (R414, R421). -/
def sequenceZero (b : Bytes) (o : Nat) : Bool :=
  rd b (o + 10) 2 == 0 || fld b (o + 12) 2 0 9 == 0 ||
    (List.range (rd b (o + 6) 2)).any fun k => fld b (o + 64 + 64 * k + 6) 1 0 4 == 0
def sequenceWhole (b : Bytes) (e : Nat × Bool × Bool) : Bool :=
  headerWhole (slice b e.1 64) (rd b (e.1 + 6) 2) &&
    (List.range (rd b (e.1 + 6) 2)).all fun k => atomWhole (slice b (e.1 + 64 + 64 * k) 64) e.2.1 e.2.2

/-- What an image's own content breaks of the common checks 1 and 3 (R128), in order: a format or a value out of range in what has no
zero extent, then a zero extent. -/
def imageFault (b : Bytes) (m : ModelImage) : Option (Status × Nat) :=
  let ts := modelTensors b m
  let whole := fun (t : Bytes) => tensorZero t || rd t 4 2 != 1 || (tensorHeader t && tensorLayout t)
  if !(ts.all whole) || decide ((ts.map fun t => rd t 8 4).eraseDups.length < ts.length) ||
      !(m.multipliers.all wordClean) || !(m.scales.all fun e => wordClean e.2.2.2 && decide (e.2.2.1 < 4096 ∧ e.2.1 < 16)) ||
      !(m.sequences.all fun e => sequenceZero b e.1 || sequenceWhole b e) || decide (m.layers = 0 ∨ m.vocab = 0) ||
      !(m.serving.all fun n => decide (n < 16)) then some (.rejFormat, 0x81)
  else if ts.any tensorZero || m.sequences.any (fun e => sequenceZero b e.1) || m.placed.any (fun e => e.bytes.isEmpty) then
    some (.rejZeroExtent, 0x83)
  else none

/-- A range that an image may occupy: tile store, scratchpad or stack, no address reserved or in the Granary (R25, R27, R167). -/
def State.mayHold (s : State) (r : Nat × Nat) : Bool :=
  s.mappedRange r.1 r.2 && (s.owner r.1).isSome

/-- The instance that a load makes. -/
def instOf (p : Packet) (b : Bytes) (m : ModelImage) : Inst := ⟨p.p3, p.f4, m, sha384 b, none⟩

/-- The checks of MODEL_LOAD on a device, in order: a protected image is decrypted and authenticated before every
other check of it (R554); the common checks 1 and 3 as they reach the image come next (R128). -/
def State.modelCheck (s : State) (p : Packet) (b : Bytes) (m : ModelImage) : Option (Status × Nat) :=
  let i := bits p.p2 0 4
  let x := instOf p b m
  let here := bit p.p3 s.self
  let ext := x.extents s.self
  let local_ := m.unitLocal.filter fun e => e.1 == s.self
  if (bitList 64 p.p3).any fun d => !s.members.contains d then some (.rejFormat, 0x81)
  else if p.f4 && here && ((Table.get none i s.sec.keys).isNone || !s.isSet R.SEC_STATUS.IDENTITY_OK) then some (.rejAuth, 0)
  else if p.f4 && !m.authentic then some (.rejAuth, 0)
  else match imageFault b m with
  | some r => some r
  | none =>
  if here && !(ext.all s.mayHold) then some (.rejFormat, 0x81)
  else if (modelTensors b m).any fun t => rd t 0 4 == 0x534E4554 && rd t 4 2 != 1 then some (.rejVersion, 0)
  else if s.srv.suspended.contains i then some (.failDevice, 0)
  else if (Table.get none i s.cfg.instA).isSome || (Table.get none i s.cfg.instS).isSome then some (.cfgConflict, 0)
  else if s.cfg.lockCluster || s.cfg.lockDevice then some (.cfgConflict, 0)
  else if p.f4 && (modelTensors b m).any fun t => (tensorPlots t).any fun e => P.coded e.2 then some (.cfgConflict, 0)
  else if !here then none
  else if p.f4 && (!s.instsHere.isEmpty || !m.unitLocal.isEmpty ||
      ext.any fun r => s.openAt r.1 || (r.2 != 0 && s.openAt (r.1 + r.2 - 1))) then some (.cfgConflict, 0)
  else if s.instsHere.any fun y => y.prot then some (.cfgConflict, 0)
  else if ext.any fun r => (s.instsHere.any fun y => (y.extents s.self).any (meets r)) ||
      (List.range 16).any fun n => meets r (s.poolSpan n 0) || meets r (s.poolSpan n 1) || meets r (s.refSpan n) then
    some (.rejNoSpace, 0)
  else if local_.any fun e => !bit (s.get (R.STACK_REGION_MODE.UNIT_LOCAL e.2.1)) e.2.2 && !s.regionIdle e.2.1 e.2.2 then
    some (.cfgConflict, 0)
  else if !((modelTensors b m).all (tensorWhole p.f4)) then some (.failPlot, 0)
  else none

/-- Stage scale registers of an image (R248). -/
def State.stageScale (s : State) (n i w : Nat) : State :=
  [R.TILE_SCALE_REG.MULT n i, R.TILE_SCALE_REG.SHIFT n i, R.TILE_SCALE_REG.EXP n i].foldl (fun (s : State) f =>
    { s with cfg := { s.cfg with stagedRegs := Table.insert f.key (bits w f.lo f.width) s.cfg.stagedRegs } }) s

/-- Stage an instance (R140, R150): its bytes are written, its regions made unit-local (R398), its scale registers staged, and its
partitions protected (R556). -/
def State.modelStage (s : State) (p : Packet) (b : Bytes) (m : ModelImage) : State :=
  let i := bits p.p2 0 4
  let s := { s with cfg := { s.cfg with instS := Table.insert i (some (instOf p b m)) s.cfg.instS } }
  if !bit p.p3 s.self then s
  else
    let s := (m.unitLocal.filter fun e => e.1 == s.self).foldl (fun (s : State) (e : Nat × Nat × Nat) =>
      s.regionMode e.2.1 (setBit (s.get (R.STACK_REGION_MODE.UNIT_LOCAL e.2.1)) e.2.2 true)) s
    let s := (m.placed.filter fun e => e.device == s.self).foldl (fun (s : State) e => s.write e.addr e.bytes) s
    let s := (m.scales.filter fun e => e.1 == s.self).foldl (fun (s : State) (e : Nat × Nat × Nat × Nat) =>
      s.stageScale e.2.1 e.2.2.1 e.2.2.2) s
    if p.f4 then s.protectAll else s

/-! ### Discarding a staged set (R137, R152) -/

/-- The cluster-scope staged set becomes the active one again; staged plan and instances are gone, and so are the regions that
only they made unit-local. -/
def State.discardCluster (s : State) : State :=
  let gone := (instList s.cfg.instS).filter fun e => (Table.get none e.1 s.cfg.instA).isNone
  let s := { s with
    cfg := { s.cfg with instS := s.cfg.instA, stagedRegs := s.cfg.stagedRegs.filter fun e => !clusterKey e.1 }
    frw := { s.frw with staged := none } }
  gone.foldl (fun (s : State) e => s.returnRegions e.2) s

/-- The device-scope staged set becomes the active one again. -/
def State.discardDevice (s : State) : State :=
  { s with cfg := { s.cfg with stagedRegs := s.cfg.stagedRegs.filter fun e => clusterKey e.1 } }

/-! ### One device's part -/

/-- Whether this device may stage what a packet asks: the refusal, or none. -/
def State.stageCheck (s : State) (p : Packet) (b : Bytes) (img : Option ModelImage) : Option (Status × Nat) :=
  match p.opcode with
  | 0x02 =>
    if p.f5 then if s.cfg.lockDevice || (p.f4 && s.cfg.lockCluster) then some (.cfgConflict, 0) else none
    else if b.length % 24 != 0 || (s.stageEntries b).isNone then some (.rejFormat, 0x81)
    else
      let es := Machine.stageEntries b
      let staged := fun (e : Nat × Nat × Nat) =>
        (fieldsAt (e.1 - windowBase)).any fun f => f.access == .staged && bits e.2.2 f.lo f.width != 0
      if es.any fun e => clusterEntry e && (!p.f4 || s.cfg.lockCluster) then some (.cfgConflict, 0)
      else if s.cfg.lockDevice && es.any fun e => !clusterEntry e && staged e then some (.cfgConflict, 0)
      else none
  | 0x11 => s.furrowPlanCheck b
  | 0x20 => match img with
    | some m => s.modelCheck p b m
    | none => some (.rejFormat, 0x81)
  | 0x21 => if (s.instance? (bits p.p0 0 4)).isNone || s.cfg.lockCluster then some (.cfgConflict, 0) else none
  | 0x22 => match if s.isLead then planWhole b else none with
    | some e => some e
    | none => s.planCheck (bits p.p0 0 4) (s.planView b)
  | _ => none

/-- This device stages it. -/
def State.stageHere (s : State) (p : Packet) (b : Bytes) (img : Option ModelImage) : State :=
  (match p.opcode with
    | 0x02 =>
      if p.f5 then if p.f4 then s.discardCluster.discardDevice else s.discardDevice
      else ((s.stageEntries b).getD s).liveEntries b
    | 0x11 => { s with frw := { s.frw with staged := some (furrowPlanOf b) } }
    | 0x20 => match img with
      | some m => s.modelStage p b m
      | none => s
    | 0x21 => { s with cfg := { s.cfg with instS := Table.erase (bits p.p0 0 4) s.cfg.instS } }
    | 0x22 => s.stagePlan (bits p.p0 0 4) ((s.planView b).plan s.self)
    | _ => s).refreshCfg

/-- What the completion of a packet that stages carries in RESULT0 (R139). -/
def stageResult (p : Packet) (b : Bytes) : Nat := if p.opcode == 0x11 then rd b 8 4 else 0

/-- The key identifier of a protected load, which a member tells the lead (R552). -/
def State.keyId (s : State) (p : Packet) : Nat :=
  if p.opcode == 0x20 && p.f4 then ((Table.get none (bits p.p2 0 4) s.sec.keys).map Prod.fst).getD 0 else 0

/-! ### The lead and the members -/

/-- The image or payload of a packet that stages, as the lead holds it. -/
def State.stageBytes (s : State) (t : Ticket) : Bytes :=
  match t.packet.opcode with
  | 0x20 => s.read t.packet.p0 t.packet.p1
  | 0x22 => s.read t.packet.p1 t.packet.p2
  | _ => t.payload.getD []

/-- Whether a packet that stages is for every member: only CFG_STAGE without ALL is not (R150). -/
def stagesAll (p : Packet) : Bool := p.opcode != 0x02 || p.f4

/-- Packets that stage. -/
def isStaging (op : Nat) : Bool := op == 0x02 || op == 0x11 || op == 0x20 || op == 0x21 || op == 0x22

/-- Whether a packet that stages changes the device-scope staged set of its devices. -/
def touchesDevice (p : Packet) (b : Bytes) : Bool := match p.opcode with
  | 0x02 => p.f5 || (Machine.stageEntries b).any fun e => !clusterEntry e &&
      (fieldsAt (e.1 - windowBase)).any fun f => f.access == .staged && bits e.2.2 f.lo f.width != 0
  | 0x20 => true
  | _ => false

/-- What each device is sent of the bytes (R167): of a step plan, its own lists. -/
def sharePart (p : Packet) (b : Bytes) (d : Nat) : Option Bytes := some (if p.opcode == 0x22 then planShare b d else b)

/-- Stage here and answer, once what it makes a region wait for is over. -/
def State.stageAnswer (s : State) (no : Nat) (p : Packet) (b : Bytes) (img : Option ModelImage) : State :=
  (s.stageHere p b img).finishSettled no (stageResult p b) 0

/-- A packet that stages, at the lead: checked here, and on every other member concerned before anything is staged. -/
def State.stageLead (s : State) (t : Ticket) : State :=
  let p := t.packet
  let b := s.stageBytes t
  let dev := bits p.p0 0 6
  if p.opcode == 0x02 && !p.f5 && (b.length % 24 != 0 || (Machine.stageEntries b).any entryShape) then s.finishWith t.no .rejFormat 0x81
  else if touchesDevice p b && s.commitHolds t.no (if stagesAll p then none else some dev) then s.finishWith t.no .cfgConflict
  else if !stagesAll p && dev != s.self then
    if s.isDeclared dev then s.finish t.no { status := .failFenced, device := some dev }
    else if !s.members.contains dev then s.finish t.no { status := .failDevice, device := some dev }
    else s.forwardTo t.no p t.payload [dev]
  else match s.stageCheck p b t.image with
    | some (st, k) => s.finishWith t.no st k
    | none =>
      if !stagesAll p || s.others.isEmpty then s.stageAnswer t.no p b t.image
      else (s.mapTicket t.no fun t => { t with note := 1 }).forwardEach t.no { p with p4 := 1 } (sharePart p b) s.others t.image

/-- A packet that stages, at a member: P4 1 asks for the check alone, 2 for the staging of what has been checked, 0 for both. -/
def State.stageMember (s : State) (t : Ticket) : State :=
  let p := { t.packet with p4 := 0 }
  let b := t.payload.getD []
  if t.packet.p4 == 2 then s.stageAnswer t.no p b t.image
  else match s.stageCheck p b t.image with
  | some (st, k) => s.finishWith t.no st k
  | none =>
    if t.packet.p4 == 1 then s.finish t.no { status := .ok, result0 := s.keyId p }
    else s.stageAnswer t.no p b t.image

/-- Members of a protected load hold keys of different identifiers (R552). -/
def State.keysDiffer (s : State) (t : Ticket) : Bool :=
  let p := t.packet
  let own := if bit p.p3 s.self then [s.keyId p] else []
  let ids := own ++ (t.answers.filter fun r => bit p.p3 r.device).map fun r => r.result0
  p.opcode == 0x20 && p.f4 && ids.any fun k => k != ids.headD 0

/-- Every member has answered: after the checks everyone stages, after the staging the packet is done.  What has passed its checks
everywhere is staged: a member that cannot be reached any more changes nothing of the answer, since the packet has had its effect
(DESIGN CHOICE, log entry 22). -/
def State.stageConcluded (s : State) (t : Ticket) : State :=
  let p := t.packet
  match if t.note == 2 then none else refusal t.answers with
  | some r => s.finish t.no { r.answer with result0 := 0 }
  | none =>
    if t.note == 1 then
      let b := s.stageBytes t
      if s.keysDiffer t then s.finishWith t.no .rejAuth
      else match s.stageCheck p b t.image with
        | some (st, k) => s.finishWith t.no st k
        | none =>
          let s := s.mapTicket t.no fun t => { t with note := 2, answers := [] }
          ((s.awaitSelf t.no).forwardEach t.no { p with p4 := 2 } (sharePart p b) s.others t.image).stageAnswer t.no p b t.image
    else s.finish t.no { status := .ok, result0 := if t.note == 2 then stageResult p (s.stageBytes t) else (t.answers.map fun r => r.result0).headD 0 }

end Sys2Proof.Machine
end

