-- ==== Sys2Proof/Machine/Members.lean ====
section
/-!
DEFINITION. Membership (R467, R573, R579 to R585, R588, spec/17_faults.md): FAILURE and FENCED messages, declaring a member dead,
what a headland does for it, the loss of the lead, and the faults that stop a device.
-/

namespace Sys2Proof.Machine

/-! ### Suspension -/

/-- Suspend the active instances that a predicate picks (R578). -/
def State.suspendWhere (s : State) (th : Nat) (p : Inst → Bool) : State :=
  ((instList s.cfg.instA).filter fun e => p e.2).foldl (fun (s : State) e => s.suspend e.1 th) s

/-- An instance's step plan gives a partition of a device a list (R579). -/
def Inst.listed (x : Inst) (d n : Nat) : Bool :=
  bit x.mask d && match x.plan with
    | some p => p.dir.contains (d, n)
    | none => false

/-- Partition-fatal events take effect at a headland (R579): PART_OK here, and at the lead the instances that use a partition of
this device or of a member. -/
def State.fatalItem (s : State) (th : Nat) : State :=
  let own := s.flt.fatalParts.map fun n => (s.self, n)
  let ok := s.flt.fatalParts.foldl (fun v n => setBit v n false) (s.get R.GLB_READY.PART_OK)
  let all := own ++ s.flt.fatalFar
  let s := { (s.put R.GLB_READY.PART_OK ok) with flt := { s.flt with fatalParts := [], fatalFar := [] } }
  if s.isLead then s.suspendWhere th fun x => all.any fun e => x.listed e.1 e.2 else s

/-! ### Declaring a member dead (R582) -/

/-- Commands in flight to a device that is declared dead (R588). -/
def State.failAwaiting (s : State) (d : Nat) : State :=
  (s.que.tickets.filter fun t => t.awaiting.any fun w => w.1 == d).foldl (fun (s : State) (t : Ticket) =>
    s.addReply t.no (⟨d, .failDevice, 0, 0, 0, []⟩ : Reply)) s

/-- The lead declares a member dead: it is logged, a commit under preparation is aborted (R588), and FENCED naming it goes to every
member.  No acknowledgement of it is awaited from a device already declared. -/
def State.declareDead (s : State) (x : Nat) : State :=
  if !s.isLead || x == s.self || s.isDeclared x || !s.members.contains x then s
  else
    let ep := s.get (R.GLB_PEER_EPOCH.EPOCH x)
    let s := (s.raise (evPeerDeclaredDead x ep)).declaredAbort x
    let waiting := s.others.filter fun d => d != x && !s.isDeclared d
    let before := s.flt.declared.map fun d => { d with waiting := d.waiting.filter fun w => w != x }
    let s := { s with flt := { s.flt with
      declared := before ++ [(⟨x, ep, waiting⟩ : Declared)]
      sent := s.flt.sent.filter fun m => m.dst != x } }
    (s.sendAll s.others (.fenced x ep (Table.get 0 x s.flt.serials))).failAwaiting x

/-- The members of a device's group, the device left aside. -/
def State.mates (s : State) (x : Nat) : List Nat := s.members.filter fun d => d != x && d / 16 == x / 16

/-- Whether R582 gives a cause to declare a member: the limit of R53 reached here, or reports from more than half of the other
members of its group. -/
def State.deathDue (s : State) (x : Nat) : Bool :=
  decide (s.get R.FRW_CTRL.MISSING_BEACON_LIMIT ≤ Table.get 0 x s.frw.silent) ||
    decide ((s.mates x).length < 2 * (s.flt.silentReports.filter fun r => r.1 == x && (s.mates x).contains r.2).length)

/-- A device removed from the membership (R582): its epoch, its place, and the instances that name it. -/
def State.removeMember (s : State) (th x : Nat) : State :=
  let s := (s.put (R.GLB_PEER_EPOCH.EPOCH x) 0).putBit (R.GLB_PEER_EPOCH.VACANT x) true
  let s := { s with
    flt := { s.flt with
      declared := s.flt.declared.filter fun d => d.device != x
      sent := s.flt.sent.filter fun m => m.dst != x
      doubled := s.flt.doubled.filter fun (e : Nat × Nat) => e.1 != x }
    srv := { s.srv with laneWait := s.srv.laneWait.map fun (e : Nat × List Nat) => (e.1, e.2.filter fun d => d != x) }
    frw := { s.frw with silent := Table.erase x s.frw.silent } }
  s.suspendWhere th fun i => bit i.mask x

/-- Membership changes of a headland (R582): made once every broadcast has been acknowledged by every member not declared dead. -/
def State.membershipItem (s : State) (th : Nat) : State :=
  if s.flt.declared.all fun d => d.waiting.isEmpty then
    (s.flt.declared.map fun d => d.device).foldl (fun (s : State) x => s.removeMember th x) s
  else s

/-! ### FENCED and FAILURE (R581 to R584) -/

/-- The COLLs that run end with FAIL_FENCED (R581). -/
def State.fenceColls (s : State) : State :=
  (List.range 16).foldl (fun (s : State) n => match (s.queue n 15).head? with
    | some h => if h.started && s.owes n then s.failHead n 15 .failFenced else s
    | none => s) s

/-- FENCED (R581, R582, R584): naming this device, it is fenced; naming another, that device is removed at the next headland. -/
def State.fencedIn (s : State) (d epoch serial : Nat) : State :=
  if serial == Config.serial then
    let s := s.fenceColls
    if !s.assigned || s.isFenced || epoch != s.get R.GLB_MEMBERSHIP.EPOCH then s
    else (s.haltSchedule.setFenced).raise (evFencedOnContact epoch)
  else if s.isLead || !s.members.contains d || epoch != s.get (R.GLB_PEER_EPOCH.EPOCH d) || s.isDeclared d then s
  else { s with flt := { s.flt with declared := s.flt.declared ++ [⟨d, epoch, []⟩] } }

/-- FAILURE of KIND 0x1 (R192): every tile that runs the step of the instance enters SKIP. -/
def State.stepNoticeIn (s : State) (i k : Nat) : State :=
  if k != s.stepFurrow then s
  else (s.tilesOf i).foldl (fun (s : State) n => if s.seqState n == seqSkip then s else s.enterSkip n) (s.noteFailed i)

/-- FAILURE of KIND 0x2 (R582): a member reports a silent one. -/
def State.silentIn (s : State) (src x : Nat) : State :=
  if !s.isLead || s.flt.silentReports.contains (x, src) then s
  else { s with flt := { s.flt with silentReports := s.flt.silentReports ++ [(x, src)] } }

/-- FAILURE of KIND 0x4 (R573): the copy is logged; what it tells of partitions and doubled engines is kept (R577, R579). -/
def State.recordIn (s : State) (r : ErrRec) : State :=
  if !s.isLead then s
  else
    let s := s.logForwarded r
    let n := r.partition.getD 0
    if r.code == 0x30 || r.code == 0x31 then
      { s with flt := { s.flt with fatalFar := s.flt.fatalFar ++ [(r.device, n)] } }
    else if r.code == 0x21 then { s with flt := { s.flt with doubled := s.flt.doubled ++ [(r.device, n)] } }
    else s

/-! ### Silence on the control channel (R467) -/

/-- 10 us without an acknowledgement: the message is sent once more, by the way of now; a second silence is a missing member, and
where the message tells of a device declared dead, the silent one is declared in its turn (R582). -/
def State.resend (s : State) (dst msgId : Nat) : State :=
  let hit := fun (x : Sent) => x.dst == dst && x.msg.msgId == msgId
  match s.flt.sent.find? hit with
  | none => s
  | some x =>
    if !x.resent then
      let s := { s with flt := { s.flt with sent := s.flt.sent.map fun y => if hit y then { y with resent := true } else y } }
      match s.route dst with
      | some p => s.sendFragments p x.msg
      | none => s
    else
      let s := { s with flt := { s.flt with sent := s.flt.sent.filter fun y => !hit y } }
      match x.msg.body with
      | .fenced _ _ _ => s.declareDead dst
      | _ =>
        let s := { s with frw := { s.frw with missing := if s.frw.missing.contains dst then s.frw.missing else s.frw.missing ++ [dst] } }
        s.bump R.FRW_EVENTS2.MISSING_BEACONS

/-! ### The lead is lost (R585) -/

/-- A member that has lost the lead stops at the start of a headland. -/
def State.loseLead (s : State) : State :=
  let s := s.haltSchedule.raise (evLeadLost s.leadId)
  { s with
    frw := { s.frw with leadSilent := false }
    flt := { s.flt with leadLost := true } }

/-! ### Device-fatal events (R580) -/

/-- A CONTROL_FAULT: it is logged and nothing is forwarded; every sequencer and all sending stop. -/
def State.controlFault (s : State) (cause addr : Nat) : State :=
  let s := s.raise (evControlFault cause addr)
  { s with flt := { s.flt with dead := true } }

end Sys2Proof.Machine
end

