-- ==== Sys2Proof/Machine/Forming.lean ====
section
/-!
DEFINITION. Forming a cluster, joining it and leaving it (R148, R156, R442, R552, R581, R585 to R587,
spec/04_command_packets.md, 17_faults.md).
-/

namespace Sys2Proof.Machine

/-! ### An empty cluster-scope configuration -/

/-- Every cluster-scope register field at its reset value. -/
def State.resetClusterRegs (s : State) : State :=
  (clusterRegs.flatMap fieldsAt).foldl (fun (s : State) f => s.put f f.reset) s

/-- The active and the staged cluster-scope configuration become empty (R148, R156, R585): instances end, no plan is active, and a
commit under preparation lets go of its locks.  The device-scope sets stay as they are, region modes among them: no commit has
removed an instance (DEDUCED, log entry 24). -/
def State.emptyCluster (s : State) (th : Nat) : State :=
  let s := match s.cfg.lead with
    | some c => s.abortCommit c s.self 0
    | none => if s.cfg.prepared.isSome then s.lockSets false false else s
  let s := { s with cfg := { s.cfg with stagedRegs := s.cfg.stagedRegs.filter fun e => !clusterKey e.1 } }
  let s := (instList s.cfg.instA).foldl (fun (s : State) e => s.endsWhole th e) s
  let s := s.resetClusterRegs
  let s := { s with
    cfg := { s.cfg with instA := [], instS := [], lockCluster := false, prepared := none, peers := [], divergent := [] }
    frw := { s.frw with active := none, staged := none, leadNext := none, resync := none, correcting := false }
    srv := { s.srv with suspended := [], adapters := [], lanes := [], built := [], laneWait := [], laneRecv := [] }
    pwr := { s.pwr with phases := [] } }
  let s := ((s.put R.FRW_STATE.STATE frwNoPlan).put R.FRW_LATE.TEMPLATE 0).showPlan
  let s := (s.refreshProt.put R.CFG_STATUS.ACTIVE_EPOCH 0).putBit R.CFG_STATUS.DIVERGENT false
  s.digest.refreshCfg

/-- No membership is held: epochs, places and what waits on other devices (R581, R585, R594). -/
def State.forgetCluster (s : State) : State :=
  let s := (List.range 64).foldl (fun (s : State) d =>
    (s.put (R.GLB_PEER_EPOCH.EPOCH d) 0).putBit (R.GLB_PEER_EPOCH.VACANT d) false) s
  let s := (List.range 24).foldl (fun (s : State) p => s.putBit (R.LINK_STATUS.DOUBLED p) false) s
  { s with
    flt := { s.flt with
      spareEpoch := [], declared := [], silentReports := [], sent := [], rejoin := [], fatalFar := [], doubled := []
      groupSize := [], leadDevice := none, leadLost := false, serials := [], forming := none }
    frw := { s.frw with silent := [], missing := [], beacons := [], relays := [] } }

/-- The device's own place (R32, R593). -/
def State.setPlace (s : State) (place : Option Nat) (lead : Bool) (epoch issued : Nat) : State :=
  let s := (s.put R.GLB_DEVPOS.POSITION (place.getD 0 % 16)).put R.GLB_DEVPOS.GROUP (place.getD 0 / 16)
  let s := (s.putBit R.GLB_DEVPOS.ASSIGNED true).putBit R.GLB_DEVPOS.LEAD lead
  let s := (s.putBit R.GLB_DEVPOS.SPARE place.isNone).put R.GLB_MEMBER_STATE.STATE (if place.isNone then 2 else 1)
  (s.put R.GLB_MEMBERSHIP.EPOCH epoch).put R.GLB_MEMBERSHIP.ISSUED issued

/-! ### CLUSTER_FORM (R148) -/

/-- This device takes its place in a cluster being formed: empty configuration, membership epoch 1, configuration epoch 0. -/
def State.formHere (s : State) (l : List FormEntry) (lead : Nat) : State :=
  let c := placesOf l
  let s := (s.emptyCluster s.now).forgetCluster
  let me := l.find? fun e => e.serial == Config.serial
  let place := me.bind fun e => if e.spare then none else some e.id
  let s := s.setPlace place (place == some lead) 1 (if place == some lead then 1 else 0)
  let s := c.ids.foldl (fun (s : State) (e : Nat × Nat) => s.put (R.GLB_PEER_EPOCH.EPOCH e.1) 1) s
  let s := { s with
    flt := { s.flt with
      groupSize := c.sizes, serials := c.ids, leadDevice := if place == some lead then none else some lead
      spareEpoch := c.spares.foldl (fun t x => Table.insert x 1 t) [] }
    sec := { s.sec with keys := [] }
    coll := { s.coll with nonces := [] }
    frw := { s.frw with nextK := 0, nextTemplate := 0 } }
  let s := (s.put R.FRW_FURROW_NUM.FURROW_NUM 0).put R.FRW_START_TIME.START_TIME 0
  match place with
  | some id => s.markDoubled c id
  | none => s

/-- What a device finds against taking a place (R148): it is assigned, its schedule runs, or its cabling disagrees. -/
def State.formConflict (s : State) (l : List FormEntry) : Bool :=
  let c := placesOf l
  s.assigned || !s.idle || match c.idOf Config.serial with
    | some id => !s.cabled c id
    | none => false

/-- The first entry whose serial the lead has not heard in a beacon. -/
def State.unheard (s : State) (l : List FormEntry) : Option Nat :=
  (List.range l.length).find? fun i => match l[i]? with
    | some e => e.serial != Config.serial && (Table.get none e.serial s.flt.heard).isNone
    | none => false

/-- Keys of the answers of a formation: 64 + the entry's index. -/
def State.sendForm (s : State) (t : Ticket) (l : List FormEntry) (round : Nat) : State :=
  s.viaPlaces (placesOf l) fun s =>
    (List.range l.length).foldl (fun (s : State) i => match l[i]? with
      | none => s
      | some e =>
        if e.serial == Config.serial then s
        else
          let port := if e.spare then (Table.get none e.serial s.flt.heard).map fun h => h.port else s.route e.id
          match port with
          | none => s.addReply t.no ⟨64 + i, .failDevice, 0, 0, 0, []⟩
          | some p =>
            let s := s.mapTicket t.no fun t => { t with awaiting := t.awaiting ++ [(64 + i, s.flt.nextMsg)] }
            s.sendPort (some p) (if e.spare then 0 else e.id) (.fwdCmd { t.packet with p4 := round } t.payload none)) s

/-- CLUSTER_FORM at the device that becomes the lead. -/
def State.formLead (s : State) (t : Ticket) : State :=
  let b := t.payload.getD []
  let l := formEntries b
  let ids := (l.filter fun e => !e.spare).map FormEntry.id
  if b.length % 16 != 0 || !(l.all FormEntry.clean) || decide (ids.eraseDups.length < ids.length) ||
      decide ((l.map FormEntry.serial).eraseDups.length < l.length) then s.finishWith t.no .rejFormat 0x81
  else match s.unheard l with
    | some i => s.finish t.no { status := .failDevice, result0 := i }
    | none =>
      let busy := l.any fun e => match Table.get none e.serial s.flt.heard with
        | some h => e.serial != Config.serial && (h.assigned || 2 ≤ h.frwState)
        | none => false
      match (placesOf l).idOf Config.serial with
      | none => s.finishWith t.no .cfgConflict
      | some id =>
        if busy || s.formConflict l then s.finishWith t.no .cfgConflict
        else if l.length == 1 then (s.formHere l id).finish t.no { status := .ok }
        else (s.mapTicket t.no fun t => { t with note := 1 }).sendForm t l 1

/-- Every device of a formation has answered. -/
def State.formConcluded (s : State) (t : Ticket) : State :=
  let l := formEntries (t.payload.getD [])
  match refusal t.answers with
  | some r => s.finish t.no { status := r.status, result0 := if r.status == .failDevice then r.device - 64 else 0 }
  | none =>
    if t.note == 1 then
      let part := s.readReg R.GLB_PART.FAMILY.addr % 2 ^ 32
      if t.answers.any fun r => r.result0 % 2 ^ 32 != part then s.finishWith t.no .cfgConflict
      else
        let s := s.mapTicket t.no fun t => { t with note := 2, answers := [] }
        s.sendForm t l 2
    else (s.formHere l (((placesOf l).idOf Config.serial).getD 0)).finish t.no { status := .ok }

/-- CLUSTER_FORM reaches a device that it names, on a port: round 1 asks for what stands against it, round 2 makes it a member. -/
def State.formMember (s : State) (p : Nat) (m : CtrlMsg) (q : Packet) (b : Bytes) : State :=
  let l := formEntries b
  let c := placesOf l
  let spare := (c.idOf Config.serial).isNone
  let part := s.readReg R.GLB_PART.FAMILY.addr
  let answer := fun (s : State) (st : Status) =>
    let go := fun (s : State) => s.sendPort (if spare then some p else s.route m.src) m.src (.completion m.msgId st 0 part 0 [])
    if s.assigned then go s else s.viaPlaces c go
  if q.p4 == 1 then answer { s with flt := { s.flt with forming := some b } } (if s.formConflict l then .cfgConflict else .ok)
  else if s.assigned then answer s .cfgConflict
  else answer (s.formHere l m.src) .ok

/-! ### Dissolution (R585) -/

/-- The member leaves its cluster. -/
def State.dissolve (s : State) : State :=
  let s := (s.haltSchedule.emptyCluster s.now).forgetCluster
  let s := { s with sec := { s.sec with keys := [] } }
  let s := ((s.put R.GLB_DEVPOS.POSITION 0).put R.GLB_DEVPOS.GROUP 0).putBit R.GLB_DEVPOS.ASSIGNED false
  let s := (s.putBit R.GLB_DEVPOS.LEAD false).putBit R.GLB_DEVPOS.SPARE false
  ((s.put R.GLB_MEMBERSHIP.EPOCH 0).put R.GLB_MEMBERSHIP.ISSUED 0).put R.GLB_MEMBER_STATE.STATE 0

/-! ### REJOIN (R156, R586) -/

/-- The copy of the configuration and of the membership that the lead gives. -/
def State.clusterCopy (s : State) : ClusterCopy :=
  { epoch := s.get R.CFG_STATUS.ACTIVE_EPOCH
    regs := (clusterRegs.flatMap fieldsAt).map fun f => (f.key, s.get f)
    plan := s.frw.active.map fun p => p.image
    insts := (instList s.cfg.instA).map fun e =>
      { inst := e.1, mask := e.2.mask, prot := e.2.prot, suspended := s.srv.suspended.contains e.1, image := e.2.image
        sha := e.2.sha, plan := e.2.plan.map fun p => (p.templates, p.dir, p.sha) }
    adapters := (s.srv.adapters.filter fun a => a.state == .current).map fun a => (a.inst, a.id, a.ver, a.sha)
    lead := s.self
    nextK := s.frw.nextK
    epochs := s.members.map fun d => (d, s.get (R.GLB_PEER_EPOCH.EPOCH d))
    spares := s.flt.spareEpoch
    serials := s.flt.serials
    groups := s.flt.groupSize }

/-- The places of a cluster with a device put at a place. -/
def copyPlaces (c : ClusterCopy) (place : Option Nat) : Places :=
  let held := c.serials.filter fun e => c.epochs.any fun x => x.1 == e.1
  { ids := match place with
      | some d => Table.insert d Config.serial held
      | none => held
    sizes := c.groups, spares := [] }

def rejoinPlace (p : Packet) : Option Nat := if p.f4 then none else some (bits p.p1 0 6)

/-- What the device itself finds against its joining, for checks 6 and 7 of R586. -/
def State.rejoinFlags (s : State) (p : Packet) (c : ClusterCopy) : Nat :=
  let six := (s.assigned && !s.isSpare && !s.isFenced) || !s.ready || !s.idle
  let seven := match rejoinPlace p with
    | some d => !s.cabled (copyPlaces c (some d)) d
    | none => false
  b2n six + 2 * b2n seven

/-- The device takes the copy (R156): active and staged cluster-scope sets alike; its device-scope sets and its keys stay. -/
def State.takeCopy (s : State) (c : ClusterCopy) : State :=
  let keys := s.sec.keys
  let s := (s.emptyCluster s.now).forgetCluster
  let s := { s with sec := { s.sec with keys := keys } }
  let s := c.regs.foldl (fun (s : State) (e : Nat × Nat) => match fieldOf e.1 with
    | some f => s.put f e.2
    | none => s) s
  let insts : Table (Option Inst) := c.insts.foldl (fun t e =>
    Table.insert e.inst (some ⟨e.mask, e.prot, e.image, e.sha, e.plan.map fun x => ⟨x.1, [], x.2.1, x.2.2⟩⟩) t) []
  let plan := c.plan.map furrowPlanOf
  let s := { s with
    cfg := { s.cfg with instA := insts, instS := insts }
    srv := { s.srv with
      suspended := (c.insts.filter fun e => e.suspended).map fun e => e.inst
      adapters := c.adapters.map fun a => ⟨a.1, a.2.1, a.2.2.1, .current, 0, 0, a.2.2.2, [], none, none⟩ }
    frw := { s.frw with active := plan, nextK := c.nextK }
    flt := { s.flt with
      groupSize := c.groups, serials := c.serials, spareEpoch := c.spares, leadDevice := some c.lead } }
  let s := c.epochs.foldl (fun (s : State) (e : Nat × Nat) => s.put (R.GLB_PEER_EPOCH.EPOCH e.1) e.2) s
  let s := (if plan.isSome then s.put R.FRW_STATE.STATE frwStopped else s).showPlan
  (s.put R.CFG_STATUS.ACTIVE_EPOCH c.epoch).digest.refreshCfg

/-- The members hold the epoch of a device that joins (R581, R586); the device takes its place; the REJOIN completes. -/
def State.joinNow (s : State) (j : Joining) : State :=
  let s := match j.place with
    | some d =>
      let s := (s.put (R.GLB_PEER_EPOCH.EPOCH d) j.epoch).putBit (R.GLB_PEER_EPOCH.VACANT d) false
      { s with flt := { s.flt with
          serials := Table.insert d j.serial s.flt.serials
          spareEpoch := Table.erase j.serial s.flt.spareEpoch } }
    | none => { s with flt := { s.flt with spareEpoch := Table.insert j.serial j.epoch s.flt.spareEpoch } }
  let s := if j.serial != Config.serial then s
    else
      let s := { (s.setPlace j.place false j.epoch 0) with coll := { s.coll with nonces := [] } }
      match j.place with
      | some d => s.markDoubled ⟨s.flt.serials, s.flt.groupSize, []⟩ d
      | none => s
  match j.ticket with
  | some no => s.finish no { status := .ok, result0 := j.epoch }
  | none => s

/-- Joining devices at a headland, or at a mark while no schedule runs. -/
def State.joinItem (s : State) : State :=
  let l := s.flt.rejoin
  l.foldl (fun (s : State) j => s.joinNow j) { s with flt := { s.flt with rejoin := [] } }

/-- Send a REJOIN with the copy to the device on the port it is heard on; its answer has key 64. -/
def State.sendJoin (s : State) (t : Ticket) (round epoch : Nat) : State :=
  match Table.get none t.packet.p0 s.flt.heard with
  | none => s.addReply t.no ⟨64, .failDevice, 0, 0, 0, []⟩
  | some h =>
    if !s.portUp h.port then s.addReply t.no ⟨64, .failDevice, 0, 0, 0, []⟩
    else
      let s := s.mapTicket t.no fun t => { t with awaiting := t.awaiting ++ [(64, s.flt.nextMsg)] }
      s.sendPort (some h.port) h.device (.fwdCopy { t.packet with p3 := epoch, p4 := round } s.clusterCopy)

/-- REJOIN at the lead: checks 5 and 6 as its beacons tell, then the device is asked. -/
def State.rejoinLead (s : State) (t : Ticket) : State :=
  if t.packet.p0 == Config.serial then s.finishWith t.no .cfgConflict 6
  else match Table.get none t.packet.p0 s.flt.heard with
    | none => s.finishWith t.no .failDevice 5
    | some _ => (s.mapTicket t.no fun t => { t with note := 1 }).sendJoin t 1 0

/-- A device waits to join, or holds, a place. -/
def State.placeTaken (s : State) (d : Nat) : Bool :=
  !s.isSet (R.GLB_PEER_EPOCH.VACANT d) || s.flt.rejoin.any fun j => j.place == some d

/-- The device has answered, and then every member. -/
def State.rejoinConcluded (s : State) (t : Ticket) : State :=
  let p := t.packet
  match t.answers.find? fun r => r.device == 64 with
  | none => s
  | some r =>
    if r.status != .ok then s.finishWith t.no .failDevice
    else if t.note == 1 then
      if bit r.result0 0 || s.flt.rejoin.any (fun j => j.serial == p.p0) then s.finishWith t.no .cfgConflict 6
      else if bit r.result0 1 || (match rejoinPlace p with
          | some d => s.placeTaken d
          | none => false) then s.finishWith t.no .cfgConflict 7
      else if s.cfg.prepared.isSome then s.finishWith t.no .cfgConflict 8
      else
        let s := s.wrapAdd R.GLB_MEMBERSHIP.ISSUED
        let e := s.get R.GLB_MEMBERSHIP.ISSUED
        let s := s.mapTicket t.no fun t => { t with note := 2, answers := [] }
        (s.sendJoin t 2 e).forwardTo t.no { p with p3 := e, p4 := 3 } none s.others
    else
      let s := s.mapTicket t.no fun t => { t with answers := [] }
      { s with flt := { s.flt with
          rejoin := s.flt.rejoin ++ [⟨some t.no, p.p0, rejoinPlace p, s.get R.GLB_MEMBERSHIP.ISSUED⟩] } }

/-- REJOIN with the copy reaches the device it names. -/
def State.joinIn (s : State) (port : Nat) (m : CtrlMsg) (p : Packet) (c : ClusterCopy) : State :=
  if p.p0 != Config.serial then s
  else
    let answer := fun (s : State) (r : Nat) => s.sendPort (some port) m.src (.completion m.msgId .ok 0 r 0 [])
    if p.p4 == 1 then answer s (s.rejoinFlags p c)
    else
      let s := s.takeCopy c
      answer { s with flt := { s.flt with rejoin := [(⟨none, p.p0, rejoinPlace p, p.p3⟩ : Joining)] } } 0

/-- A member is told who joins. -/
def State.joinTold (s : State) (t : Ticket) : State :=
  ({ s with flt := { s.flt with
      rejoin := s.flt.rejoin ++ [(⟨none, t.packet.p0, rejoinPlace t.packet, t.packet.p3⟩ : Joining)] } }).finish t.no { status := .ok }

/-! ### REJOIN of an engine (R587) -/

/-- REJOIN with ENGINE on the device it names: the engine is out of the map and no spare waits; its self-test begins. -/
def State.rejoinEngine (s : State) (no : Nat) (p : Packet) : State :=
  let n := bits p.p2 8 4
  let e := bits p.p2 12 4
  let map := s.get (R.TILE_ENGINE_MAP.PHYS n)
  if (List.range 8).any (fun l => bits map (4 * l) 4 == e) || s.get (R.TILE_ENGINE_MAP.SPARE n) != 0xF ||
      (s.tile n).bist.isSome || (s.tile n).regain.isSome then s.replyWith no .cfgConflict
  else s.modTile n fun t => { t with bist := some (e, no) }

/-- The self-test of 2 ms ends: FAIL_DEVICE, or the map changes at the next turnaround. -/
def State.bistDone (s : State) (n : Nat) (ok : Bool) : State :=
  match (s.tile n).bist with
  | none => s
  | some (e, no) =>
    let s := s.modTile n fun t => { t with bist := none, regain := if ok then some e else t.regain }
    s.replyWith no (if ok then .ok else .failDevice)

end Sys2Proof.Machine
end

