-- ==== Sys2Proof/Machine/Holding.lean ====
section
/-!
DEFINITION. Partitions held in reset (R20, R137, R138, R228, R255, R283, R316, R358, R387, R389, R427, R575, R610), and what ends with
a Granary's flush or a region's zeroing (R386, R398).
-/

namespace Sys2Proof.Machine

/-! ### The hold -/

/-- Registers of a tile that RESET_PARTITION returns to reset, as offsets in TILE[n] (R228, R255, R283 to R286, R316 to R318, R358,
R361, R362), in TSTORE[n] (R389, R392 to R395) and in NBU[n] (R438): first and last. -/
def resetTile : List (Nat × Nat) :=
  [(0x200, 0x307), (0x310, 0x327), (0x8000, 0xFFFF), (0x400, 0x41F), (0x500, 0x58F), (0x600, 0x617), (0x620, 0x637)]
def resetStore : List (Nat × Nat) := [(0x18, 0x1F), (0x28, 0x4F)]
def resetUnits : List (Nat × Nat) := [(0x10, 0x17)]

/-- The registers in ranges of offsets from a block's base read their reset values. -/
def State.resetRegs (s : State) (base : Nat) (l : List (Nat × Nat)) : State :=
  { s with regs := s.regs.filter fun e => !(l.any fun r => decide (base + r.1 ≤ e.1 / 64 ∧ e.1 / 64 ≤ base + r.2)) }

/-- The engine map of a tile comes from the repair map of the characterisation record, or stands at reset where no record is in force
(R199, R228): no pair is doubled. -/
def State.loadMap (s : State) (n : Nat) : State :=
  let m := ((s.sec.char.bind fun o => o.char).bind fun c => c.maps[n]?).getD
    ((R.TILE_ENGINE_MAP.PHYS n).reset, (R.TILE_ENGINE_MAP.SPARE n).reset)
  ((s.put (R.TILE_ENGINE_MAP.PHYS n) m.1).put (R.TILE_ENGINE_MAP.SPARE n) m.2).putBit (R.TILE_ENGINE_MAP.DOUBLED n) false

/-- A partition is held in reset (R20): engines, sequencer and near-bank units lose their state; memories, map, segments and what
waits at the stack controller for others stay (R387, R427). -/
def State.holdPart (s : State) (n : Nat) : State :=
  let t := s.tile n
  let s := (s.modTile n fun _ => { Tile.reset with
    bist := t.bist, regain := t.regain, granary := t.granary
    fills := t.fills, scrubTs := t.scrubTs, scrubSp := t.scrubSp, fromOff := t.fromOff, segPend := t.segPend }).loadMap n
  let s := (s.stopUnits n).modStack n fun k => { k with
    inAtom := []
    queue := (k.queue.map fun e => (e.1, e.2.filter fun a => a.op.host)).filter fun e => !e.2.isEmpty }
  let s := ((s.resetRegs (0x1000000 + 0x100000 * n) resetTile).resetRegs (0x2000000 + 0x10000 * n) resetStore).resetRegs
    (0x3100000 + 0x1000 * n) resetUnits
  let s := (s.setSeq n seqIdle).putBit (R.TILE_SEQ_STATUS.FAILED n) false
  let s := (s.putBit (R.TILE_SEQ_STATUS.ABANDONED n) false).put (R.TILE_SEQ_STATUS.LIST_INDEX n) 0
  let s := (List.range 4).foldl (fun (s : State) c => s.putBit (R.TSTORE_ATOM_STATUS.DONE n c) true) s
  let s := s.put R.GLB_READY.PART_OK (setBit (s.get R.GLB_READY.PART_OK) n false)
  let parts := s.flt.faultParts.filter fun x => x != n
  { s with
    flt := { s.flt with
      heldParts := if s.flt.heldParts.contains n then s.flt.heldParts else s.flt.heldParts ++ [n]
      fatalParts := s.flt.fatalParts.filter fun x => x != n
      faultParts := parts }
    pins := { s.pins with faultN := s.pins.faultN || (!s.flt.faultParts.isEmpty && parts.isEmpty) } }

/-- The hold ends (R610): the stack controller performs what waited. -/
def State.unhold (s : State) (n : Nat) : State :=
  let s := { s with flt := { s.flt with heldParts := s.flt.heldParts.filter fun x => x != n } }
  (List.range 64).foldl (fun (s : State) pc => if s.pcFree n pc then s.servePc n pc else s) s

/-! ### RESET_PARTITION (R137, R138) -/

/-- The Granary writes back and empties before the hold (R387). -/
def State.beginHold (s : State) (n no : Nat) : State :=
  let s := s.flushGranary n
  { s with flt := { s.flt with holdWait := s.flt.holdWait ++ [(n, no)] } }

/-- Active instances that use a partition of a device. -/
def State.users (s : State) (d n : Nat) : List Nat :=
  ((instList s.cfg.instA).filter fun e => e.2.uses d n).map Prod.fst

/-- RESET_PARTITION at the lead: refused or put off while an active instance uses the partition, else the device holds it. -/
def State.resetLead (s : State) (t : Ticket) (th : Option Nat) : State :=
  let d := bits t.packet.p0 0 6
  let n := bits t.packet.p0 8 4
  let us := s.users d n
  if d != s.self && !s.members.contains d then s.finish t.no { status := .failDevice, device := some d }
  else if !us.isEmpty && !t.packet.f4 then s.finish t.no { status := .cfgConflict, device := some d }
  else if !us.isEmpty && th.isNone then { s with srv := { s.srv with deferred := s.srv.deferred ++ [t.no] } }
  else
    let s := us.foldl (fun (s : State) i => s.suspend i (th.getD s.now)) s
    if d == s.self then s.beginHold n t.no else s.forwardTo t.no t.packet none [d]

/-- The commands of this kind that waited for a headland or a mark. -/
def State.resetItem (s : State) (th : Nat) : State :=
  (s.srv.deferred.filterMap fun no => s.ticket? no).foldl (fun (s : State) t =>
    if t.packet.opcode == 0x08 then (s.undefer t.no).resetLead t (some th) else s) s

/-! ### Ends of a flush and of a zeroing (R386, R387, R398) -/

/-- A size change takes effect after the flush: what the Granary held since goes too, and the space that leaves it is zero. -/
def State.resizeGranary (s : State) (n size : Nat) : State :=
  let old := s.get (R.TSTORE_GRANARY.SIZE n)
  let s := (s.flushGranary n).put (R.TSTORE_GRANARY.SIZE n) size
  let top := tileStoreBase n + 0x10000000
  if size < old then s.zero (top - old * 0x400000) ((old - size) * 0x400000) else s

/-- A Granary's flush is over. -/
def State.flushDone (s : State) (n : Nat) : State :=
  let sizes := s.cfg.granaryFlush.filter fun e => e.1 == n
  let holds := s.flt.holdWait.filter fun e => e.1 == n
  let s := { s with
    cfg := { s.cfg with granaryFlush := s.cfg.granaryFlush.filter fun e => e.1 != n }
    flt := { s.flt with holdWait := s.flt.holdWait.filter fun e => e.1 != n } }
  let s := sizes.foldl (fun (s : State) e => s.resizeGranary n e.2) s
  let s := holds.foldl (fun (s : State) e => ((s.flushGranary n).holdPart n).finish e.2 { status := .ok }) s
  s.releaseSettled

/-- A region has been zeroed. -/
def State.zeroDone (s : State) (n r : Nat) : State :=
  (s.modStack n fun k => { k with zeroing := k.zeroing.filter fun x => x != r }).releaseSettled

end Sys2Proof.Machine
end

