-- ==== Sys2Proof/Machine/Commands.lean ====
section
/-!
DEFINITION. Command packets that act at once or on one named device (R37, R127, R137, R139, R144 to R146, R412, R471, R529,
R549, R610, R611, spec/04_command_packets.md): identity, geometry, digest, fence, time, power, telemetry and diagnostics.
-/

namespace Sys2Proof.Machine

/-! ### A packet that names a device -/

/-- A packet for one device: done here, or forwarded (R127, R467, R588). -/
def State.onDevice (s : State) (t : Ticket) (d : Nat) (act : State → Nat → Packet → State) : State :=
  if d == s.self then act s t.no t.packet
  else if s.isDeclared d then s.finish t.no { status := .failFenced, device := some d }
  else if !s.members.contains d then s.finish t.no { status := .failDevice, device := some d }
  else s.forwardTo t.no t.packet none [d]

/-- The bytes of a register. -/
def State.regBytes (s : State) (a : Nat) : Bytes := leBytes 8 (s.readReg a)

/-- An answer with the bytes that the command reads: written to the host here, else sent to the lead. -/
def State.replyData (s : State) (no : Nat) (a : Answer) (b : Bytes) : State :=
  match s.ticket? no with
  | none => s
  | some t => match t.origin with
    | .host _ => (s.outPayload t.packet b).finish no a
    | .lead _ _ => s.finish no { a with data := b }

/-! ### IDENTIFY, GEOMETRY_GET, CFG_DIGEST, FENCE -/

/-- The identity record (R549). -/
def State.identityRecord (s : State) : Bytes :=
  let n := fun (o : Option SignedObj) (f : SignedObj → Nat) => (o.map f).getD 0
  fit 128 (leBytes 8 Config.serial ++ s.regBytes R.GLB_PART.FAMILY.addr ++ leBytes 16 (n s.sec.running SignedObj.build) ++
    leBytes 4 (s.get R.SEC_FW.SVN) ++ leBytes 4 (n s.sec.floor fun o => rd o.bytes 24 8) ++ leBytes 4 (s.get R.SEC_FLOOR.FW) ++
    leBytes 4 (s.get R.SEC_FLOOR.CHAR) ++ leBytes 1 (s.readReg R.SEC_STATUS.FW_OK.addr % 64) ++ leBytes 15 0 ++
    leBytes 48 Config.romId)

/-- IDENTIFY (R137). -/
def State.identify (s : State) (t : Ticket) : State :=
  (s.outPayload t.packet s.identityRecord).finish t.no
    { status := .ok, result0 := s.readReg R.GLB_PART.FAMILY.addr, result1 := s.readReg R.GLB_READY.READY.addr }

/-- The geometry record (R146). -/
def geometryRecord : Bytes :=
  [16, 4, 4, 8, 1, 16, 4, 4].flatMap (leBytes 1) ++ leBytes 2 256 ++ leBytes 2 32 ++ [16, 64].flatMap (leBytes 1) ++ leBytes 2 48 ++
    [2, 24, 0, 14, 15, 23, 3, 16, 4].flatMap (leBytes 1) ++ leBytes 7 0 ++ leBytes 2 0x5A44 ++ leBytes 2 0x0640 ++ leBytes 4 1

/-- GEOMETRY_GET (R137, R146): RESULT0 is the number of bytes written. -/
def State.geometryGet (s : State) (t : Ticket) : State :=
  (s.outPayload t.packet geometryRecord).finish t.no { status := .ok, result0 := min t.packet.payloadLen geometryRecord.length }

/-- CFG_DIGEST on the device it names (R137, R158). -/
def State.digestHere (s : State) (no : Nat) (_ : Packet) : State :=
  s.finish no {
    status := if s.isSet R.CFG_STATUS.DIVERGENT then .cfgDivergent else .ok
    result0 := s.get R.CFG_STATUS.ACTIVE_EPOCH
    result1 := s.get R.CFG_DIGEST.ACTIVE_DIGEST }

/-- A packet is done for FENCE and BARRIER: its final completion is written, or its PENDING one where it is a SEQ_GENERATE (R132). -/
def State.settled (s : State) (no : Nat) : Bool := match s.ticket? no with
  | none => true
  | some t => t.packet.opcode == 0x42 && t.pending

/-- Packets accepted before one: of its ring, or of every ring. -/
def State.earlier (s : State) (t : Ticket) (all : Bool) : List Nat :=
  (s.que.tickets.filter fun u => decide (u.no < t.no) && u.ring.isSome && (all || u.ring == t.ring)).map Ticket.no

/-- FENCE (R132) waits for earlier packets. -/
def State.fence (s : State) (t : Ticket) : State :=
  s.mapTicket t.no fun u => { u with fence := some (s.earlier t t.packet.f4) }

/-! ### Time and power -/

/-- MERIDIAN_SET (R37). -/
def State.meridianSet (s : State) (t : Ticket) : State :=
  if s.idle then { s with mrd := { s.mrd with setTo := s.mrd.setTo ++ [(t.packet.p0, t.no)] } }
  else s.finishWith t.no .cfgConflict

/-- A hint of a packet (R519). -/
def State.takeHint (s : State) (p : Packet) : State := s.hintDevice ⟨p.p0, p.p0 + p.p1, p.p2⟩

/-- HINT (R144, R519): every device of the cluster takes it. -/
def State.hintLead (s : State) (t : Ticket) : State :=
  if t.packet.p0 < s.now then s.finishWith t.no .rejDeadline
  else ((s.takeHint t.packet).sendAll s.others (.fwdCmd t.packet none none)).finishWith t.no .ok

/-- POWER_CAP_SET on a device (R144): CAP_W is live, as a write of its register is (R13). -/
def State.capHere (s : State) (no : Nat) (p : Packet) : State := ((s.put R.PWR_CTRL.CAP_W p.p0).settleLevels).replyWith no .ok

/-- POWER_CAP_SET at the lead: every device named must be within reach before any takes it. -/
def State.capLead (s : State) (t : Ticket) : State :=
  let l := bitList 64 t.packet.p1
  match l.find? fun d => d != s.self && (s.isDeclared d || !s.members.contains d || (s.route d).isNone) with
  | some d => s.finish t.no { status := if s.isDeclared d then .failFenced else .failDevice, device := some d }
  | none =>
    let s := if l.contains s.self then s.awaitSelf t.no else s
    let s := s.forwardTo t.no t.packet none (l.filter fun d => d != s.self)
    if l.contains s.self then s.capHere t.no t.packet else s

/-- A telemetry set (R529). -/
def State.telemetry (s : State) (set : Nat) : Bytes :=
  match set with
  | 1 => (List.range 22).flatMap fun i =>
      let r := s.pwr.rails.getD i (0, 0)
      leBytes 2 r.1 ++ leBytes 4 r.2 ++ leBytes 2 0
  | 2 => s.regBytes R.PWR_REASONS.ACTIVE.addr ++ (List.range 8).flatMap fun r => s.regBytes (R.PWR_THROTTLE.NS r).addr
  | 3 => ((List.range 16).flatMap fun n => s.regBytes (R.THM_TILE.TJ n).addr) ++
      (List.range 16).flatMap fun n => s.regBytes (R.STACK_THERM.TEMP n).addr
  | 4 => (List.range 16).flatMap fun n => s.regBytes (R.PWR_TILE.PL n).addr
  | _ => leBytes 8 s.pwr.phases.length ++ s.pwr.phases.flatMap fun e =>
      leBytes 1 (e.inst % 16 + 16 * (e.template % 8)) ++ leBytes 1 0 ++ leBytes 2 e.phase ++ leBytes 4 e.p0 ++
        leBytes 4 (min e.count (2 ^ 32 - 1)) ++ leBytes 4 0

/-- TELEMETRY_READ on the device it names. -/
def State.telemetryHere (s : State) (no : Nat) (p : Packet) : State :=
  let b := s.telemetry p.p1
  s.replyData no { status := .ok, result0 := b.length } b

/-- ENERGY_READ on the device it names (R144). -/
def State.energyHere (s : State) (no : Nat) (p : Packet) : State :=
  let n := bits p.p0 8 4
  let v := if p.f4 then Table.get 0 (bits p.tenant 0 10) s.pwr.tenants
    else if bits p.cls 0 2 == 0 then s.get (R.PWR_ENERGY.UJ n)
    else s.get (R.PWR_ENERGY_CLASS.UJ n (bits p.cls 0 2 - 1))
  s.finish no { status := .ok, result0 := v }

/-! ### Diagnostics (R145) -/

/-- TRAFFIC_GEN on the device it names (R411, R412): a run on a stack, or the training of its lanes. -/
def State.trafficHere (s : State) (no : Nat) (p : Packet) : State :=
  let n := bits p.p0 8 4
  let pat := bits p.p0 16 8
  let k := s.stack n
  let regions := s.get (R.STACK_TG_REGIONS.ALLOW n)
  let destructive := pat == 4 || pat == 5
  if !s.idle || k.traffic.isSome || k.training.isSome || (destructive && regions == 0) then s.finishWith no .cfgConflict
  else
    let s := (s.put (R.STACK_TG_RESULT.MISMATCHES n) 0).put (R.STACK_TG_RESULT.UNCORRECTABLE n) 0
    let s := (s.put (R.STACK_TG_RESULT.FIRST_PC n) 0).putBit (R.STACK_TG_RESULT.VALID n) false
    if pat == 7 then s.modStack n fun k => { k with training := some no }
    else s.modStack n fun k => { k with traffic := some ⟨pat, if destructive then regions else 0, p.p1, no⟩ }

/-- The peer of a port runs a schedule, as its beacons tell (R471). -/
def State.peerRuns (s : State) (p : Nat) : Bool := match Table.get none (s.get (R.LINK_PEER.SERIAL p)) s.flt.heard with
  | some h => decide (2 ≤ h.frwState)
  | none => false

/-- LINK_TEST on the device it names (R471): on a port that is UP; a test that only transmits needs no peer. -/
def State.linkTestHere (s : State) (no : Nat) (p : Packet) : State :=
  let port := bits p.p0 8 5
  let pat := bits p.p0 16 8
  let st := s.get (R.LINK_STATUS.STATE port)
  let may := s.portUp port || (pat == 3 && st != linkDown && st != linkTest)
  if !s.idle || !may || s.peerRuns port || (s.link port).test.isSome then s.finishWith no .cfgConflict
  else
    let s := (s.put (R.LINK_TEST_RESULT.ERRORS port) 0).put (R.LINK_TEST_RESULT.ERRORED_LANES port) 0
    let s := s.putBit (R.LINK_TEST_RESULT.VALID port) false
    let to_ := if pat == 5 then linkTrain else linkTest
    (if s.portUp port then s.leaveUp port to_ else (s.put (R.LINK_STATUS.STATE port) to_).refreshLinks).modLink port fun l =>
      { l with test := some ⟨pat, no⟩ }

/-- SELFTEST on the device it names (R145, R610): the partitions enter TEST mode. -/
def State.selftestHere (s : State) (no : Nat) (p : Packet) : State :=
  let parts := bits p.p0 16 16
  let used := (bitList 16 parts).any fun n => !(s.usedBy s.cfg.instA n).isEmpty || !(s.usedBy s.cfg.instS n).isEmpty
  if !s.idle || used || s.flt.selftest.isSome then s.finishWith no .cfgConflict
  else
    let s := (bitList 16 parts).foldl (fun (s : State) n => s.put (R.TILE_SEQ_CTRL.MODE n) 2) s
    { s with flt := { s.flt with selftest := some (no, parts) } }

/-- The report of a self-test (R611): 272 bytes. -/
def selfReport (tested passed : Nat) (l : List SelfResult) : Bytes :=
  leBytes 2 tested ++ leBytes 2 passed ++ leBytes 12 0 ++ (List.range 16).flatMap fun n =>
    match l.find? fun r => r.partition == n && bit tested n with
    | some r => leBytes 2 r.failed ++ leBytes 2 0x40 ++ leBytes 4 r.micros ++
        leBytes 8 (bits r.engine 0 4 + bits r.pc 0 6 * 2 ^ 4 + bits r.addr 6 42 * 2 ^ 10)
    | none => leBytes 16 0

/-- The parts of a self-test report that are written: its head, and the entries of the partitions tested. -/
def selfParts (b : Bytes) (len : Nat) : List (Nat × Bytes) :=
  let at_ := fun o => (o, (slice b o 16).take (len - o))
  (at_ 0 :: (bitList 16 (rd b 0 2)).map fun n => at_ (16 + 16 * n)).filter fun e => !e.2.isEmpty

/-- Write a self-test report to the host. -/
def State.outReport (s : State) (p : Packet) (b : Bytes) : State :=
  (selfParts b p.payloadLen).foldl (fun (s : State) (e : Nat × Bytes) => s.d2h (.hostWrite (p.payloadAddr + e.1) e.2)) s

/-- Every named partition has finished (R610): tile stores and scratchpads end with zeros; a partition that passed serves again. -/
def State.selftestEnds (s : State) (l : List SelfResult) : State :=
  match s.flt.selftest with
  | none => s
  | some (no, parts) =>
    let s := { s with flt := { s.flt with selftest := none } }
    let ok := fun n => l.any fun r => r.partition == n && r.failed == 0
    let passed := bitSet ((bitList 16 parts).filter ok)
    let s := (bitList 16 parts).foldl (fun (s : State) n =>
      let s := (s.zero (tileStoreBase n) 0x10000000).zero (scratchBase n) 0x2000000
      if bit passed n then
        let s := s.put R.GLB_READY.PART_OK (setBit (s.get R.GLB_READY.PART_OK) n true)
        (s.put (R.TILE_SEQ_CTRL.MODE n) 0).unhold n
      else s.put R.GLB_READY.PART_OK (setBit (s.get R.GLB_READY.PART_OK) n false)) s
    let b := selfReport parts passed l
    let a : Answer := { status := .ok, result0 := passed, result1 := parts - passed }
    match s.ticket? no with
    | some t => match t.origin with
      | .host _ => (s.outReport t.packet b).finish no a
      | .lead _ _ => s.finish no { a with data := b }
    | none => s

end Sys2Proof.Machine
end

