-- ==== Sys2Proof/Machine/Settle.lean ====
section
/-!
DEFINITION. A command packet from its acceptance to its effect (R126 to R132, R467, R588, spec/04_command_packets.md): the
checks, BARRIER and FENCE, the part each device does, and what follows when every device has answered.
-/

namespace Sys2Proof.Machine

/-! ### What a packet does -/

/-- A command that takes effect at a headland waits for it (R81). -/
def State.deferTicket (s : State) (t : Ticket) : State :=
  ({ s with srv := { s.srv with deferred := s.srv.deferred ++ [t.no] } }).tellEnding t

/-- A packet of a submission ring acts at the lead device (R127). -/
def State.runHost (s : State) (t : Ticket) : State :=
  let p := t.packet
  match p.opcode with
  | 0x00 => s.identify t
  | 0x01 => s.geometryGet t
  | 0x02 | 0x11 | 0x20 | 0x21 | 0x22 => s.stageLead t
  | 0x03 => if p.f4 then s.commitCluster t else s.commitDevices t
  | 0x04 => s.onDevice t (bits p.p0 0 6) State.digestHere
  | 0x05 => s.formLead t
  | 0x06 => s.fence t
  | 0x07 => if p.f5 then s.onDevice t (bits p.p2 0 6) State.rejoinEngine else s.rejoinLead t
  | 0x08 => s.resetLead t none
  | 0x10 => s.meridianSet t
  | 0x12 => s.startLead t
  | 0x13 => s.stopLead t
  | 0x23 => s.adapterLoad t
  | 0x51 => s.hintLead t
  | 0x60 => s.capLead t
  | 0x61 => s.onDevice t (bits p.p0 0 6) State.telemetryHere
  | 0x62 => s.onDevice t (bits p.p0 0 6) State.energyHere
  | 0x70 => s.onDevice t (bits p.p0 0 6) State.trafficHere
  | 0x71 => s.onDevice t (bits p.p0 0 6) State.linkTestHere
  | 0x72 => s.onDevice t (bits p.p0 0 6) State.selftestHere
  | _ => s.deferTicket t

/-! ### What a member does with a forwarded packet -/

/-- A closing or release reaches a member: one told ahead waits for the headland it names, unless that has begun. -/
def State.endTold (s : State) (p : Packet) : State :=
  let begun := !s.inSchedule || decide (p.p3 < s.furrow) || (s.isSet R.FRW_STATE.HEADLAND && p.p3 == s.furrow)
  let s := { s with srv := { s.srv with told := s.srv.told ++ [p] } }
  if p.p4 == 1 && !begun then s else s.applyTold

/-- A forwarded packet that the lead does not wait for; `none`: the lead waits for its completion. -/
def State.runTold (s : State) (p : Packet) (pay : Option Bytes) : Option State :=
  match p.opcode with
  | 0x13 => some (s.stopIn p.p0)
  | 0x24 =>
    let i := bits p.p0 0 4
    let id := bits p.p0 32 32
    some (s.dropVersion i id p.p4)
  | 0x30 => some (s.makeHandle (handleSlot p.p4) (p.p0 % 65536) p.tenant p.p1)
  | 0x31 => some (s.endTold p)
  | 0x42 => some (s.keepBitmap p.p0 pay)
  | 0x44 => some (s.endTold p)
  | 0x51 => some (s.takeHint p)
  | _ => none

/-- This device's part of a KV_IMPORT. -/
def State.importMember (s : State) (t : Ticket) : State :=
  let p := t.packet
  match s.importHere (bits p.p0 0 4) p.p4 p.tenant p.p3 (t.payload.getD []) with
  | some s => s.finishWith t.no .ok
  | none => s.finishWith t.no .rejNoSpace

/-- This device's part of a KV_EXPORT. -/
def State.exportMember (s : State) (t : Ticket) : State :=
  match s.exportParts t.packet.p0 (t.packet.p1 / 64) with
  | some l => s.finish t.no { status := .ok, data := partBytes l }
  | none => s.finishWith t.no .failPlot

/-- This device's part of a SEQ_OPEN. -/
def State.openPart (s : State) (t : Ticket) : State :=
  match s.openMember t.packet.p4 t.packet with
  | some s => s.finishWith t.no .ok
  | none => s.finishWith t.no .rejNoSpace 6

/-- A forwarded packet acts at a member. -/
def State.runMember (s : State) (t : Ticket) : State :=
  let p := t.packet
  match p.opcode with
  | 0x02 | 0x11 | 0x20 | 0x21 | 0x22 => s.stageMember t
  | 0x03 => s.takeDevice t.no
  | 0x04 => s.digestHere t.no p
  | 0x07 => if p.f5 then s.rejoinEngine t.no p else s.joinTold t
  | 0x08 => s.beginHold (bits p.p0 8 4) t.no
  | 0x23 => s.loadVersion t.no (bits p.p0 0 4) (bits p.p0 32 32) p.p4 (t.payload.getD [])
  | 0x32 => s.importMember t
  | 0x33 => s.exportMember t
  | 0x40 => s.openPart t
  | 0x60 => s.capHere t.no p
  | 0x61 => s.telemetryHere t.no p
  | 0x62 => s.energyHere t.no p
  | 0x70 => s.trafficHere t.no p
  | 0x71 => s.linkTestHere t.no p
  | 0x72 => s.selftestHere t.no p
  | _ => s.finishWith t.no .rejFormat

/-- A forwarded packet reaches this device: a FENCED one does nothing (R584). -/
def State.forwarded (s : State) (src msgId : Nat) (p : Packet) (pay : Option Bytes) (img : Option ModelImage) : State :=
  if s.isFenced then s.sendCtrl src (.completion msgId .failFenced 0 0 0 [])
  else match s.runTold p pay with
    | some s => s
    | none =>
      let (s, no) := s.openTicket (.lead src msgId) p pay img
      match s.ticket? no with
      | some t => s.runMember t
      | none => s

/-! ### Answers -/

/-- Every device has answered a ticket's command. -/
def State.conclude (s : State) (t : Ticket) : State :=
  match t.packet.opcode with
  | 0x02 | 0x11 | 0x20 | 0x21 | 0x22 => s.stageConcluded t
  | 0x05 => s.formConcluded t
  | 0x23 => s.loadConcluded t
  | 0x32 => s.importConcluded t
  | 0x33 => s.exportConcluded t
  | 0x40 => s.openConcluded t
  | op =>
    if op == 0x07 && !t.packet.f5 then s.rejoinConcluded t
    else match refusal t.answers with
      | some r =>
        s.finish t.no r.answer
      | none =>
        let one := t.answers.headD ⟨0, .ok, 0, 0, 0, []⟩
        if op == 0x03 || op == 0x60 then s.finish t.no { status := .ok }
        else
          let s := if op == 0x72 then s.outReport t.packet one.data
            else if one.data.isEmpty then s
            else s.outPayload t.packet one.data
          s.finish t.no one.answer

/-- A member's COMPLETION reaches the lead (R467). -/
def State.completionIn (s : State) (msgId : Nat) (st : Status) (detail r0 r1 : Nat) (data : Bytes) : State :=
  match s.que.tickets.find? fun t => t.awaiting.any fun w => w.2 == msgId && w.1 != s.self with
  | none => s
  | some t => match t.awaiting.find? fun w => w.2 == msgId && w.1 != s.self with
    | some w => s.addReply t.no ⟨w.1, st, detail, r0, r1, data⟩
    | none => s

/-! ### BARRIER, FENCE and acceptance (R128, R132) -/

/-- Packets that change or commit the staged configuration. -/
def isConfig (op : Nat) : Bool := isStaging op || op == 0x03

/-- Whether a packet must still wait: for every earlier packet of its ring under BARRIER, or behind one on the same object that
waits so, or, where it stages or commits, behind an earlier one that is still staging; of any ring (DESIGN CHOICE, log entry 23: the
order of packets of different rings is open, R132). -/
def State.blocked (s : State) (t : Ticket) : Bool :=
  (isConfig t.packet.opcode && s.que.tickets.any fun u => decide (u.no < t.no) && u.ring.isSome && isStaging u.packet.opcode) ||
  (bit t.packet.flags 1 && !(s.earlier t false).all s.settled) ||
    s.que.tickets.any fun u => decide (u.no < t.no) && u.ring == t.ring && u.barrier && (objectOf t.packet).isSome &&
      objectOf u.packet == objectOf t.packet

/-- A ticket goes on, where it can: its answers are in, its fence holds, or nothing holds it any more. -/
def State.proceed (s : State) (no : Nat) : State :=
  match s.ticket? no with
  | none => s
  | some t =>
    if t.barrier then
      if s.blocked t then s
      else (s.mapTicket no fun t => { t with barrier := false }).runHost { t with barrier := false }
    else if t.awaiting.isEmpty && !t.answers.isEmpty then s.conclude t
    else match t.fence with
      | some l => if l.all s.settled then s.finishWith no .ok else s
      | none => s

/-- Every ticket goes on as far as it can, in `n` rounds. -/
def State.settleN (s : State) : Nat → State
  | 0 => s
  | n + 1 => ((s.que.tickets.map Ticket.no).foldl (fun (s : State) no => s.proceed no) s).settleN n

/-- Commands go on as far as they can: a command answered by all concludes, and may free the one behind it. -/
def State.settle (s : State) : State := s.settleN (s.que.tickets.length + 1)

/-- The effect of a command on a device that works, with what follows from it for commands that wait. -/
def State.act (s : State) (f : State → State) : Answered := s.whenAlive fun s => (f s).settle

/-- An accepted packet acts, or waits. -/
def State.launch (s : State) (no : Nat) : State :=
  match s.ticket? no with
  | none => s
  | some t => if s.blocked t then s.mapTicket no fun t => { t with barrier := true } else s.runHost t

/-- The checks common to every packet (R128), and its ticket: whether it goes on. -/
def State.takeIn (s : State) (p : Packet) (img : Option ModelImage) : State × Nat × Bool :=
  let (s, no) := s.openTicket (.host p.ring) p none img
  match commonCheck s p with
  | some (st, k) => (s.finishWith no st k, no, false)
  | none => (s, no, true)

/-- The payload of a packet has been read, or its read has failed (R123). -/
def State.payloadIn (s : State) (no : Nat) (pay : Option Bytes) : State :=
  match pay with
  | none => (s.bump R.QUE_RING_ERRORS.FETCH_ERRORS).finishWith no .rejFormat 0xFE
  | some b => (s.mapTicket no fun t => { t with payload := some (fit t.packet.payloadLen b) }).launch no

/-- A packet reaches the lead device, with what the read of its in payload answered. -/
def State.submit (s : State) (p : Packet) (pay : Option Bytes) (img : Option ModelImage) : State :=
  if !s.isLead then s
  else
    let (s, no, go) := s.takeIn p img
    if !go then s else if readsPayload s p then s.payloadIn no pay else s.launch no

end Sys2Proof.Machine
end

