-- ==== Sys2Proof/Machine/Host.lean ====
section
/-!
DEFINITION. The host at the upstream port (R117 to R124, R478 to R493, R499 to R502, spec/14_cxl_ports.md): doorbells, the reads of
packets and payloads, the memory window, interrupts, and the port's resets; and the expanders of the downstream port.
-/

namespace Sys2Proof.Machine

/-! ### Doorbells (R119, R124, R481, R501) -/

/-- A doorbell of an enabled ring with an index of its size; one of a device that is not the lead is counted and ignored. -/
def State.doorbell (s : State) (enabled : Bool) (size index : Nat) (f : State → State) : State :=
  if !s.hostReaches || !s.isSet R.GLB_READY.BOOT_OK then s
  else if !s.isLead then s.bump R.CXLU_ERRORS.NONLEAD_DOORBELLS
  else if !enabled then s
  else if size ≤ index then s.bump R.QUE_RING_ERRORS.DOORBELL_RANGE
  else f s

/-- A new submission tail: the packets before it are fetched (R117, R490). -/
def State.sqDoorbell (s : State) (i index : Nat) : State :=
  s.doorbell (s.isSet (R.QUE_SQ_CTRL.ENABLE i)) (s.sqEntries i) index fun s =>
    ({ s with que := { s.que with sqTail := Table.set 0 i index s.que.sqTail } }).fetchRing i

/-- A new completion head: held records are written, and fetching goes on (R118). -/
def State.cqDoorbell (s : State) (i index : Nat) : State :=
  s.doorbell (s.isSet (R.QUE_CQ_CTRL.ENABLE i)) (s.cqEntries i) index fun s =>
    ({ s with que := { s.que with cqHead := Table.set 0 i index s.que.cqHead } }).resumeRing i

/-- A new token head: held tokens are tried again in the next headland (R107). -/
def State.trDoorbell (s : State) (j index : Nat) : State :=
  s.doorbell (s.isSet (R.QUE_TR_CTRL.ENABLE j)) (s.trEntries j) index fun s =>
    { s with que := { s.que with trHead := Table.set 0 j index s.que.trHead } }

/-- The doorbell at an offset of the doorbell window: its kind, 0 submission, 1 completion, 2 token, and its ring (R124). -/
def doorbellAt (off : Nat) : Option (Nat × Nat) :=
  if off % 8 != 0 then none
  else if off < 0x80 then some (0, off / 8)
  else if off < 0x100 then some (1, (off - 0x80) / 8)
  else if off < 0x900 then some (2, (off - 0x100) / 8)
  else none

/-- A write of the doorbell window: the index is in bits 15 to 0; outside the assigned offsets it is ignored (R124). -/
def State.doorbellWrite (s : State) (off v : Nat) : State :=
  match doorbellAt off with
  | some (0, i) => s.sqDoorbell i (v % 65536)
  | some (1, i) => s.cqDoorbell i (v % 65536)
  | some (_, j) => s.trDoorbell j (v % 65536)
  | none => s

/-- Offset of a ring's doorbell. -/
def doorbellOffset (kind ring : Nat) : Nat := (if kind == 0 then 0 else if kind == 1 then 0x80 else 0x100) + 8 * ring

/-- A doorbell of a ring is written; rings beyond those of R114 have none. -/
def State.ringDoorbell (s : State) (kind ring v : Nat) : State :=
  if ringCount kind ≤ ring then s else s.doorbellWrite (doorbellOffset kind ring) v

/-! ### Reads of host memory (R123, R128, R490) -/

/-- A packet that could not be read completes with REJ_FORMAT; what its record names of it is not known: free values. -/
def State.unreadPacket (s : State) (i : Nat) : State :=
  let tag := s.freeVal % 2 ^ 32
  let s := s.draw
  let op := s.freeVal % 256
  (s.draw.bump R.QUE_RING_ERRORS.FETCH_ERRORS).postCq i ⟨tag, op, .rejFormat, true, 0xFE, s.self, 0, 0⟩

/-- A packet has been read: the head advances and the packet is checked; one with an in payload that passes the common checks has
it read before the ring's next packet. -/
def State.packetRead (s : State) (f : Fetch) (data : Option Bytes) (img : Option ModelImage) : State :=
  let i := f.ring
  let s := s.put (R.QUE_SQ_CTRL.INDEX i) ((f.index + 1) % s.sqEntries i)
  match data with
  | none => s.unreadPacket i
  | some b =>
    let p := packetOf i (fit 64 b)
    let (s, no, go) := s.takeIn p img
    if !go then s
    else if readsPayload s p then
      let s := s.d2h (.hostRead p.payloadAddr p.payloadLen)
      { s with que := { s.que with fetches := ⟨i, f.index, some no⟩ :: s.que.fetches } }
    else s.launch no

/-- The oldest read of a ring answers: with its bytes, or with an error or poison. -/
def State.rdcurr (s : State) (i : Nat) (data : Option Bytes) (img : Option ModelImage) : State :=
  match s.que.fetches.find? fun f => f.ring == i with
  | none => s
  | some f =>
    let s := { s with que := { s.que with fetches := s.que.fetches.erase f } }
    let s := match f.ticket with
      | some no => s.payloadIn no data
      | none => s.packetRead f data img
    s.fetchRing i

/-! ### The memory window (R482 to R486, R493, R501, R560) -/

/-- Whether the memory window serves a request: memory is there, and IDE is active where it is required. -/
def State.windowServes (s : State) : Bool :=
  (s.isSet R.GLB_READY.BOOT_OK || s.isSet R.GLB_READY.MEM_OK) &&
    (!s.isSet R.CXLU_CTRL.IDE_REQUIRED || (s.isSet R.CXLU_STATUS.IDE_IO && s.isSet R.CXLU_STATUS.IDE_CM))

/-- Whether a request carries data: it takes an M2S RwD credit, else an M2S Req credit. -/
def StackOp.carries : StackOp → Bool
  | .hostWrite _ _ _ => true
  | _ => false

/-- A credit of the kind a request takes is free: 32 of each (R485). -/
def State.creditFree (s : State) (data : Bool) : Bool := decide ((if data then s.cxl.rwdUsed else s.cxl.reqUsed) < 32)

/-- A request takes its credit. -/
def State.takeCredit (s : State) (data : Bool) : State :=
  { s with cxl := if data then { s.cxl with rwdUsed := s.cxl.rwdUsed + 1 } else { s.cxl with reqUsed := s.cxl.reqUsed + 1 } }

/-- A request for the line at an offset of the memory window: performed at its home where the Granary holds the line, else it
queues at the stack controller (R377, R400).  The host sends none without a credit (R485). -/
def State.windowAccess (s : State) (tag offset : Nat) (op : StackOp) (symbols : List Nat) : State :=
  if !s.hostReaches || !s.creditFree op.carries then s
  else if !s.windowServes || decide (0xC000000000 ≤ offset) then s.emit (.memUnsupported tag)
  else
    let s := s.takeCredit op.carries
    let line := 0x1000000000 + offset / 64 * 64
    let n := stackOf line
    let held := match s.cacheHome line with
      | some h => ((s.gset h (setOf line)).find line).isSome
      | none => false
    if held then s.perform n (s.pcOf line) ⟨line, op, [], s.now⟩ else s.stackArrive n ⟨line, op, symbols, s.now⟩

/-! ### Interrupts (R489) -/

/-- The response to a record write for a vector: its message goes once every response is in. -/
def State.pulled (s : State) (v : Nat) : State :=
  let n := Table.get 0 v s.cxl.goWait
  if n == 0 then s
  else
    let s := { s with cxl := { s.cxl with goWait := Table.set 0 v (n - 1) s.cxl.goWait } }
    if n == 1 && s.cxl.irqWant.contains v then
      ({ s with cxl := { s.cxl with irqWant := s.cxl.irqWant.filter fun x => x != v } }).message v
    else s

/-- A vector's hold-off ends: one message covers the records written during it. -/
def State.holdoffEnds (s : State) (v : Nat) : State :=
  if !s.cxl.holdoff.contains v then s
  else
    let due := s.cxl.irqDue.contains v
    let s := { s with cxl := { s.cxl with
      holdoff := s.cxl.holdoff.filter fun x => x != v
      irqDue := s.cxl.irqDue.filter fun x => x != v } }
    if due then s.message v else s

/-! ### Bus Master Enable and the resets of the port (R491, R492, R626) -/

/-- The host writes Bus Master Enable. -/
def State.busMaster (s : State) (on : Bool) : State :=
  if !s.hostReaches then s else (s.putBit R.CXLU_STATUS.BUS_MASTER on).reopen

def Output.isMsix : Output → Bool
  | .msix _ => true
  | _ => false

def Output.isRead : Output → Bool
  | .hostRead _ _ => true
  | _ => false

/-- The host is lost (R492): rings are disabled, records not written are discarded, and the interrupts' state is forgotten. -/
def State.hostLost (s : State) : State :=
  let s := (List.range 16).foldl (fun (s : State) i =>
    ((s.putBit (R.QUE_SQ_CTRL.ENABLE i) false).putBit (R.QUE_CQ_CTRL.ENABLE i) false).dropFetches i) s
  let s := (List.range 256).foldl (fun (s : State) j => s.putBit (R.QUE_TR_CTRL.ENABLE j) false) s
  let lost := (s.que.cqHeld.map fun e => e.2.length).sum
  let s := ({ s with que := { s.que with cqHeld := [], cqStalled := [] } }).bump R.CXLU_ERRORS.DISCARDED_RECORDS lost
  { s with cxl := { s.cxl with
      goWait := []
      irqWant := []
      holdoff := []
      irqDue := []
      waiting := s.cxl.waiting.filter fun o => !o.isMsix } }

/-- A Function Level Reset (R491, R492): the host is lost, and Bus Master Enable is 0. -/
def State.functionReset (s : State) : State := s.hostLost.putBit R.CXLU_STATUS.BUS_MASTER false

/-- Payload reads fail with the link, those that wait to go out among them. -/
def State.failReads (s : State) : State :=
  let l := s.que.fetches.filterMap fun f => f.ticket
  let s := { s with
    que := { s.que with fetches := s.que.fetches.filter fun f => f.ticket.isNone }
    cxl := { s.cxl with waiting := s.cxl.waiting.filter fun o => !o.isRead } }
  l.foldl (fun (s : State) no => s.payloadIn no none) s

/-- The upstream link is lost (R492): counted, and logged by the lead device. Bus Master Enable stays as the host set it: R491 and
R492 name no loss of the link (DEDUCED, log entry 127). -/
def State.linkLost (s : State) : State :=
  if !s.isSet R.CXLU_STATUS.LINK_UP then s
  else
    let s := (((s.putBit R.CXLU_STATUS.LINK_UP false).put R.CXLU_STATUS.WIDTH 0).put R.CXLU_STATUS.SPEED 0)
    let s := ((s.putBit R.CXLU_STATUS.IDE_IO false).putBit R.CXLU_STATUS.IDE_CM false).putBit R.CXLU_STATUS.SKID false
    let s := (s.failReads.hostLost).bump R.CXLU_ERRORS.LINK_DOWNS
    let s := { s with cxl := { s.cxl with reqUsed := 0, rwdUsed := 0 } }
    if s.isLead then s.raise evHostLinkDown else s

/-- The upstream link trains (R502); what waited for it goes out where Bus Master Enable and IDE let it. -/
def State.linkTrained (s : State) (width speed : Nat) : State :=
  if !s.pins.perstN || decide (width = 0 ∨ 16 < width) || decide (speed = 0 ∨ 4 < speed) then s
  else (((s.putBit R.CXLU_STATUS.LINK_UP true).put R.CXLU_STATUS.WIDTH width).put R.CXLU_STATUS.SPEED speed).reopen

/-! ### Expanders (R496 to R499, R508) -/

/-- Whether an expander can be used (R497, R506): a type 3 device of at least 1 GiB, with IDE where it is required. -/
def State.usable (s : State) (e : Expander) : Bool := e.type3 && decide (0x40000000 ≤ e.bytes) && (e.ide || !s.cxl.expanderIde)

/-- The GiB of an expander that fit in the far tier from `base`. -/
def expanderGib (base : Nat) (e : Expander) : Nat := min (e.bytes / 0x40000000) ((0x30000000000 - base) / 0x40000000)

/-- An expander as the firmware finds it behind its port: its kind and bytes, the link's lanes, speed and flit size, and whether IDE
can be set up; it is mapped at `base` if it can be used. -/
def State.mapExpander (s : State) (base : Nat) (e : Expander) : State :=
  let k := e.port
  let s := ((s.putBit (R.CXLD_PORT.LINK_UP k) true).put (R.CXLD_PORT.WIDTH k) e.width).put (R.CXLD_PORT.SPEED k) e.speed
  let s := (s.putBit (R.CXLD_PORT.FLIT256 k) e.flit256).putBit (R.CXLD_PORT.IDE k) e.ide
  if !s.usable e then s.bump R.CXLD_COUNTS.UNUSABLE
  else
    let gib := expanderGib base e
    let s := s.putBit (R.CXLD_PORT.USABLE k) true
    let s := (s.put (R.CXLD_EXP.MAPPED_GIB k) gib).putBit (R.CXLD_EXP.MAPPED k) (gib != 0)
    let s := s.put (R.CXLD_EXP.BASE_GIB k) ((base - farBase) / 0x40000000)
    { s with cxl := { s.cxl with far := Table.set none k (some ⟨base, gib * 0x40000000⟩) s.cxl.far } }

/-- Expanders are mapped one behind the other, in the order of their ports (R498). -/
def State.mapExpanders (s : State) (base : Nat) : List Expander → State
  | [] => s
  | e :: rest => (s.mapExpander base e).mapExpanders (if s.usable e then base + expanderGib base e * 0x40000000 else base) rest

/-- The firmware enumerates the downstream port, once after a reset (R496, R498): two ports where it is bifurcated. -/
def State.enumerate (s : State) (l : List Expander) : State :=
  if !s.isSet R.GLB_READY.BOOT_OK || s.cxl.enumerated then s
  else
    let ports := if s.cxl.bifurcated then [0, 1] else [0]
    let found := ports.filterMap fun k => l.find? fun e => e.port == k
    { s with cxl := { s.cxl with enumerated := true } }.mapExpanders farBase found

/-- The files of sequences with a page in a range of the far tier. -/
def State.filesIn (s : State) (r : FarRange) : List (Nat × Nat) :=
  s.kv.files.filterMap fun e => e.2.bind fun f =>
    if (s.farPages f).any fun x => decide (r.base ≤ Pte.addr x.2 ∧ Pte.addr x.2 < r.base + r.bytes) then some (f.inst, f.seqId) else none

/-- An expander's link goes down (R499, R508): it is counted; its range is unmapped, the loss of the tier is logged, and sequences with
pages there have lost them. -/
def State.expanderLost (s : State) (k : Nat) : State :=
  if !s.isSet (R.CXLD_PORT.LINK_UP k) then s
  else
    let s := ((s.putBit (R.CXLD_PORT.LINK_UP k) false).put (R.CXLD_PORT.WIDTH k) 0).put (R.CXLD_PORT.SPEED k) 0
    let s := (s.putBit (R.CXLD_PORT.IDE k) false).bump R.CXLD_COUNTS.LINK_DOWNS
    match Table.get none k s.cxl.far with
    | none => s
    | some r =>
      let lost := (s.filesIn r).filter fun x => !s.srv.damaged.contains x
      let s := { s with
        cxl := { s.cxl with far := Table.set none k none s.cxl.far }
        srv := { s.srv with damaged := s.srv.damaged ++ lost } }
      (s.putBit (R.CXLD_EXP.MAPPED k) false).raise (evFarTierLost k r.base)

/-! ### The commands -/

/-- SQ_TAIL_DOORBELL (R117, R119). -/
def execSqTailDoorbell (ring index : Nat) (s : State) : Answered := s.act fun s => s.ringDoorbell 0 ring index

/-- CQ_HEAD_DOORBELL (R118, R119). -/
def execCqHeadDoorbell (ring index : Nat) (s : State) : Answered := s.act fun s => s.ringDoorbell 1 ring index

/-- TR_HEAD_DOORBELL (R107, R119). -/
def execTrHeadDoorbell (ring index : Nat) (s : State) : Answered := s.act fun s => s.ringDoorbell 2 ring index

/-- RDCURR_COMPLETION (R490): the host answers the oldest read of a ring; `none`: with an error or poison. -/
def execRdcurrCompletion (ring : Nat) (data : Option Bytes) (img : Option ModelImage) (s : State) : Answered :=
  s.act fun s => s.rdcurr ring data img

/-- MEMRD (R482). -/
def execMemrd (tag offset : Nat) (symbols : List Nat) (s : State) : Answered :=
  s.whenAlive fun s => s.windowAccess tag offset (.hostRead tag) symbols

/-- MEMRDDATA (R482). -/
def execMemrddata (tag offset : Nat) (symbols : List Nat) (s : State) : Answered :=
  s.whenAlive fun s => s.windowAccess tag offset (.hostRead tag) symbols

/-- MEMWR (R482, R484): all 64 bytes. -/
def execMemwr (tag offset : Nat) (data : Bytes) (s : State) : Answered :=
  s.whenAlive fun s => s.windowAccess tag offset (.hostWrite tag data (2 ^ 64 - 1)) []

/-- MEMWRPTL (R482, R484): the bytes whose enable is 1. -/
def execMemwrptl (tag offset : Nat) (data : Bytes) (enable : Nat) (s : State) : Answered :=
  s.whenAlive fun s => s.windowAccess tag offset (.hostWrite tag data enable) []

/-- M2S_UNSUPPORTED (R482): any other opcode changes nothing. -/
def execM2sUnsupported (tag : Nat) (s : State) : Answered :=
  s.whenAlive fun s => if s.hostReaches then s.emit (.memUnsupported tag) else s

/-- H2D_SNOOP (R487). -/
def execH2dSnoop (addr : Nat) (s : State) : Answered :=
  s.whenAlive fun s => if s.hostReaches then s.emit (.snoopMiss addr) else s

/-- GO_WRITEPULL (R489): the response to a write of a record whose ring signals a vector. -/
def execGoWritepull (vector : Nat) (s : State) : Answered := s.whenAlive fun s => s.pulled vector

/-- IRQ_HOLDOFF_EXPIRY (R489). -/
def execIrqHoldoffExpiry (vector : Nat) (s : State) : Answered := s.whenAlive fun s => s.holdoffEnds vector

/-- BUS_MASTER_ENABLE_WRITE (R491). -/
def execBusMasterEnableWrite (on : Bool) (s : State) : Answered := s.act fun s => s.busMaster on

/-- FUNCTION_LEVEL_RESET (R492). -/
def execFunctionLevelReset (s : State) : Answered := s.act fun s => if s.hostReaches then s.functionReset else s

/-- UPSTREAM_LINK_DOWN (R492). -/
def execUpstreamLinkDown (s : State) : Answered := s.act State.linkLost

/-- UPSTREAM_LINK_UP (R502): the lanes in use and the speed's code. -/
def execUpstreamLinkUp (width speed : Nat) (s : State) : Answered := s.whenAlive fun s => s.linkTrained width speed

/-- DOWNSTREAM_ENUMERATION (R496): the expanders found, by port. -/
def execDownstreamEnumeration (found : List Expander) (s : State) : Answered := s.whenAlive fun s => s.enumerate found

/-- EXPANDER_LINK_DOWN (R499). -/
def execExpanderLinkDown (port : Nat) (s : State) : Answered := s.act fun s => s.expanderLost port

end Sys2Proof.Machine
end

