-- ==== Sys2Proof/Machine/Messages.lean ====
section
/-!
DEFINITION. The commands that bring messages of other devices to a member or the lead, and the ends of what packets began
(R103, R104, R148, R154, R386, R398, R411, R412, R467, R470, R471, R576 to R587, R611).
-/

namespace Sys2Proof.Machine

/-! ### Commands between devices -/

/-- A message of one kind arrives and acts. -/
def State.messageIn (s : State) (port frags : Nat) (m : CtrlMsg) (f : State → State) : Answered :=
  s.act fun s => s.ctrlIn port frags m f

/-- FWD_CMD (R148, R156, R467): a CLUSTER_FORM names the places by which it travels on. -/
def State.fwdIn (s : State) (port frags : Nat) (m : CtrlMsg) : State :=
  match m.body with
  | .fwdCmd p pay img =>
    if p.opcode == 0x05 then
      let b := pay.getD []
      let s := if s.assigned then s else { s with flt := { s.flt with forming := some b } }
      s.ctrlIn port frags m fun s => s.formMember port m p b
    else s.ctrlIn port frags m fun s => s.forwarded m.src m.msgId p pay img
  | .fwdCopy p c => s.ctrlIn port frags m fun s => s.joinIn port m p c
  | _ => s.ctrlIn port frags m fun s => s

/-- FWD_CMD. -/
def execFwdCmd (port frags : Nat) (m : CtrlMsg) (s : State) : Answered := s.act fun s => s.fwdIn port frags m

/-- COMPLETION (R467). -/
def execCompletionMsg (port frags : Nat) (m : CtrlMsg) (s : State) : Answered :=
  s.messageIn port frags m fun s => match m.body with
    | .completion i st d r0 r1 data => s.completionIn i st d r0 r1 data
    | _ => s

/-- CFG_PREPARE (R154). -/
def execCfgPrepare (port frags : Nat) (m : CtrlMsg) (s : State) : Answered :=
  s.messageIn port frags m fun s => match m.body with
    | .cfgPrepare e k => s.prepareIn m.src e k
    | _ => s

/-- CFG_READY (R154). -/
def execCfgReady (port frags : Nat) (m : CtrlMsg) (s : State) : Answered :=
  s.messageIn port frags m fun s => match m.body with
    | .cfgReady e => s.replyIn m.src e none
    | _ => s

/-- CFG_CONFLICT (R154). -/
def execCfgConflictReply (port frags : Nat) (m : CtrlMsg) (s : State) : Answered :=
  s.messageIn port frags m fun s => match m.body with
    | .cfgConflict e k => s.replyIn m.src e (some k)
    | _ => s

/-- CFG_COMMIT (R154). -/
def execCfgCommitGo (port frags : Nat) (m : CtrlMsg) (s : State) : Answered :=
  s.messageIn port frags m fun s => match m.body with
    | .cfgCommitGo e => s.goIn e
    | _ => s

/-- CFG_ABORT (R154). -/
def execCfgAbort (port frags : Nat) (m : CtrlMsg) (s : State) : Answered :=
  s.messageIn port frags m fun s => match m.body with
    | .cfgAbort e => s.abortIn e
    | _ => s

/-! ### Ends of what a packet began -/

/-- ADAPTER_ROOM (R104). -/
def execAdapterRoom (inst id ver : Nat) (s : State) : Answered := s.act fun s => s.roomFor inst id ver

/-- ADAPTER_VERIFY_DONE (R103). -/
def execAdapterVerifyDone (inst id ver : Nat) (s : State) : Answered := s.act fun s => s.verified inst id ver

/-- ADAPTER_TIMEOUT (R104). -/
def execAdapterTimeout (inst id ver : Nat) (s : State) : Answered := s.act fun s => s.loadTimeout inst id ver

/-- REGION_ZERO_DONE (R398). -/
def execRegionZeroDone (stack region : Nat) (s : State) : Answered := s.act fun s => s.zeroDone stack region

/-- GRANARY_FLUSH_DONE (R386, R387). -/
def execGranaryFlushDone (tile : Nat) (s : State) : Answered := s.act fun s => s.flushDone tile

/-- ENGINE_BIST_DONE (R587). -/
def execEngineBistDone (tile : Nat) (ok : Bool) (s : State) : Answered := s.act fun s => s.bistDone tile ok

/-- LINK_TRAIN_DONE (R470); `ok`: equalisation, alignment and the PRBS31Q check succeeded on every lane. -/
def execLinkTrainDone (port : Nat) (ok : Bool) (s : State) : Answered := s.act fun s => s.trainDone port ok

/-- LINK_TEST_END (R471, R476): what the run checked, the errors, and the lanes that saw one. -/
def execLinkTestEnd (port checked errors lanes : Nat) (s : State) : Answered :=
  s.act fun s =>
    match (s.link port).test with
    | none => s
    | some t =>
      if s.get (R.LINK_STATUS.STATE port) != linkTest then s
      else
        let (r0, r1) := if t.pattern == 3 then (0, 0) else (checked, errors)
        let s := s.put (R.LINK_TEST_RESULT.ERRORS port) r1
        let s := s.put (R.LINK_TEST_RESULT.ERRORED_LANES port) (if t.pattern ≤ 2 then lanes else 0)
        let s := s.putBit (R.LINK_TEST_RESULT.VALID port) true
        let s := (s.modLink port fun l => { l with test := none }).enterTrain port
        s.finish t.ticket { status := .ok, result0 := r0, result1 := r1 }

/-- TRAFFIC_GEN's run ends (R413). -/
def execTrafficGenEnd (stack count mismatches uncorrectable : Nat) (firstPc : Option Nat) (left : List (Nat × Bytes)) (s : State) : Answered :=
  s.act fun s => s.trafficEnd stack count mismatches uncorrectable firstPc left

/-- Lane training ends (R411). -/
def execStackRetrainDone (stack spares : Nat) (failed : List Nat) (s : State) : Answered :=
  s.act fun s => s.trainingEnd stack spares failed

/-! ### Membership and faults -/

/-- FENCED (R582, R584). -/
def execFencedMsg (port frags : Nat) (m : CtrlMsg) (s : State) : Answered :=
  s.act fun s => s.ctrlIn port frags m fun s => match m.body with
    | .fenced d e serial => s.fencedIn d e serial
    | _ => s

/-- FAILURE of KIND 0x1. -/
def execFailureStepNotice (port frags : Nat) (m : CtrlMsg) (s : State) : Answered :=
  s.act fun s => s.ctrlIn port frags m fun s => match m.body with
    | .failure 1 _ i k _ => s.stepNoticeIn i k
    | _ => s

/-- FAILURE of KIND 0x2. -/
def execFailurePeerSilent (port frags : Nat) (m : CtrlMsg) (s : State) : Answered :=
  s.act fun s => s.ctrlIn port frags m fun s => match m.body with
    | .failure 2 d _ _ _ => s.silentIn m.src d
    | _ => s

/-- FAILURE of KIND 0x3. -/
def execFailureSelfFence (port frags : Nat) (m : CtrlMsg) (s : State) : Answered :=
  s.act fun s => s.ctrlIn port frags m fun s => match m.body with
    | .failure 3 _ _ _ _ => s.declareDead m.src
    | _ => s

/-- FAILURE of KIND 0x4. -/
def execFailureErrorRecord (port frags : Nat) (m : CtrlMsg) (s : State) : Answered :=
  s.act fun s => s.ctrlIn port frags m fun s => match m.body with
    | .failure 4 _ _ _ (some r) => s.recordIn r
    | _ => s

/-- CONTROL_RESEND (R467). -/
def execControlResend (dst msgId : Nat) (s : State) : Answered := s.act fun s => s.resend dst msgId

/-- PEER_DECLARED_DEAD (R582). -/
def execPeerDeclaredDead (device : Nat) (s : State) : Answered :=
  s.act fun s => if s.deathDue device then s.declareDead device else s

/-- MEMBERSHIP_APPLY (R582): in a headland, or while no schedule runs. -/
def execMembershipApply (s : State) : Answered :=
  s.act fun s => if s.isSet R.FRW_STATE.HEADLAND || !s.inSchedule then s.membershipItem s.now else s

/-- LEAD_LOST (R585). -/
def execLeadLost (s : State) : Answered := s.act fun s => if s.frw.leadSilent then s.loseLead else s

/-- WATCHDOG_EXPIRY (R580). -/
def execWatchdogExpiry (s : State) : Answered := s.act fun s => s.controlFault 3 0

/-- CONTROL_FAULT (R580). -/
def execControlFault (cause addr : Nat) (s : State) : Answered := s.act fun s => s.controlFault cause addr

/-- LANE_EXHAUSTED (R576). -/
def execLaneExhausted (seqId : Nat) (s : State) : Answered := s.act fun s => s.exhaust seqId s.now

/-- INSTANCE_DEGRADED (R577). -/
def execInstanceDegraded (inst : Nat) (s : State) : Answered := s.act fun s => s.degrade inst s.now

/-- DISSOLVE (R585): no beacon of the lead for 10 ms after it was lost. -/
def execDissolve (s : State) : Answered := s.act fun s => if s.flt.leadLost then s.dissolve else s

end Sys2Proof.Machine
end

