-- ==== Sys2Proof/Machine/Boot.lean ====
section
/-!
DEFINITION. Power, reset and start-up (R30, R410, R426, R524, R538 to R549, R575, R596, R606, R622 to R630, spec/16_security.md,
18_management_and_test.md, 19_electrical_package.md).
-/

namespace Sys2Proof.Machine

/-! ### Signed objects (R538, R539) -/

/-- Body bytes of a signed object, and the security version number. -/
def objBody (b : Bytes) : Nat := rd b 12 4
def objSvn (b : Bytes) : Nat := rd b 8 4
def objSequence (b : Bytes) : Nat := rd b 24 8

/-- Check 1 of R539: the header is as R538 gives it, and the object is complete. -/
def objHeader (type : Nat) (b : Bytes) : Bool :=
  rd b 0 4 == 0x4A424F53 && rd b 4 1 == type && rd b 5 1 == 0 && rd b 6 2 == 1 && (slice b 32 32).all (· == 0) &&
    decide (1 ≤ objBody b ∧ objBody b ≤ 8388608) && b.length == objBody b + 17108 && (type == 3 || objSequence b == 0)

/-- Every check of R539, with the floor in force for the object's type. -/
def objAccepted (type floor : Nat) (o : SignedObj) : Bool :=
  let serial := rd o.bytes 16 8
  objHeader type o.bytes && o.verified && ((type == 1 && serial == 0) || serial == Config.serial) &&
    decide (floor ≤ objSvn o.bytes)

/-- The sections of a characterisation record: ascending TAG, none twice, none reserved, together the whole body (R545). -/
def sectionsFrom (b : Bytes) (o stop last : Nat) : Nat → Bool
  | 0 => o == stop
  | n + 1 =>
    if o == stop then true
    else
      let tag := rd b o 2
      decide (o + 8 ≤ stop) && decide (last < tag ∧ tag ≤ 8) && rd b (o + 2) 2 == 0 &&
        decide (o + 8 + rd b (o + 4) 4 ≤ stop) && sectionsFrom b (o + 8 + rd b (o + 4) 4) stop tag n

def charLaidOut (b : Bytes) : Bool := sectionsFrom b 64 (64 + objBody b) 0 8

/-! ### The ROM flow (R540 to R548, R625) -/

/-- What the boot flash holds is known from its first reading on. -/
def State.readFlash (s : State) (f : BootFlash) : State :=
  if s.sec.read then s
  else
    let slots := fun (l : List (Option SignedObj)) =>
      (List.range 2).foldl (fun (t : Table (Option SignedObj)) k => Table.set none k (l.getD k none) t) []
    { s with sec := { s.sec with
      read := true
      fwSlot := s.sec.fwSlot <|> f.firmware
      floorSlots := slots f.floors
      charSlots := slots f.chars } }

/-- The valid floor records of the flash. -/
def State.validFloors (s : State) : List SignedObj :=
  [0, 1].filterMap fun k => (Table.get none k s.sec.floorSlots).filter fun o => objAccepted 3 0 o

/-- The floor of a type: the active record's, else the one built into the ROM (R540). -/
def State.floorOf (s : State) (type : Nat) : Nat :=
  match s.sec.floor with
  | some o => if type == 1 then o.floorFw else o.floorChar
  | none => Config.romFloor type

/-- The monotonic counter goes up by one: when the active one of logical sectors 2 and 3 is full, the other is erased first and the old
one after the write (R603). -/
def State.raiseCounter (s : State) : State :=
  let v := s.sec.counter
  let s' := { s with sec := { s.sec with counter := v + 1 } }
  if v != 0 && v % 4096 == 0 then (s'.eraseSector (2 + v / 4096 % 2)).eraseSector (2 + (v / 4096 + 1) % 2) else s'

/-- The floors at start-up: a record one above the counter that lowers nothing is adopted (R542); the active record is the valid
one whose SEQUENCE is the counter's (R540). -/
def State.adoptFloor (s : State) : State :=
  let l := s.validFloors
  let at_ := fun (n : Nat) => l.find? fun o => objSequence o.bytes == n
  let s := { s with sec := { s.sec with floor := at_ s.sec.counter } }
  let s := match at_ (s.sec.counter + 1) with
    | some o =>
      if s.floorOf 1 ≤ o.floorFw && s.floorOf 2 ≤ o.floorChar && decide (s.sec.counter < 0xFFFFFFFF) then
        let s := s.raiseCounter
        { s with sec := { s.sec with floor := some o } }
      else s
    | none => s
  let s := s.putBit R.SEC_STATUS.FLOOR_OK s.sec.floor.isSome
  (s.put R.SEC_FLOOR.FW (s.floorOf 1)).put R.SEC_FLOOR.CHAR (s.floorOf 2)

/-- The characterisation record in force: the first of copies A and B that is valid (R546, R547). -/
def State.validChar (s : State) : Option (SignedObj × CharBody) :=
  [0, 1].findSome? fun k => (Table.get none k s.sec.charSlots).bind fun o =>
    if objAccepted 2 (s.floorOf 2) o && charLaidOut o.bytes then (o.char.filter fun c => c.puf).map fun c => (o, c) else none

/-- F_MAX of a tile's entry: 1,100 where the entry is not one that R521 allows. -/
def fMaxOf (l : List Nat) (n : Nat) : Nat :=
  let f := l.getD n 1100
  if 1100 ≤ f && f ≤ 1320 && f % 10 == 0 then f else 1100

/-- Frequency limits, engine maps and identity of a valid characterisation record (R199, R521, R546 to R548). -/
def State.applyChar (s : State) : State :=
  match s.validChar with
  | none => s
  | some (o, c) =>
    let s := { s with sec := { s.sec with char := some o } }
    let s := ((s.putBit R.SEC_STATUS.CHAR_OK true).putBit R.SEC_STATUS.PUF_OK true).putBit R.SEC_STATUS.IDENTITY_OK c.unwraps
    (List.range 16).foldl (fun (s : State) n =>
      let s := s.put (R.PWR_TILE.F_MAX_MHZ n) (fMaxOf c.fMax n)
      match c.maps[n]? with
      | some m => (s.put (R.TILE_ENGINE_MAP.PHYS n) m.1).put (R.TILE_ENGINE_MAP.SPARE n) m.2
      | none => s) s

/-- The ROM flow and what the control cores do before BOOT_OK; `tests`: the known-answer tests passed.  Without a valid image the
ROM enters recovery and keeps nothing of the image it rejected (R541). -/
def State.boot (s : State) (f : BootFlash) (tests : Bool) : State :=
  if !s.sec.started || s.isSet R.GLB_READY.BOOT_OK || s.sec.recovery then s
  else
    let s := s.readFlash f
    if !tests then s.controlFault 4 0
    else
      let s := (s.putBit R.SEC_STATUS.TRNG_OK true).put R.SEC_FW.SEQUENCE s.sec.counter
      let s := s.adoptFloor
      match s.sec.fwSlot.filter fun o => objAccepted 1 (s.floorOf 1) o with
      | none => { s with sec := { s.sec with recovery := true, fwSlot := none } }
      | some o =>
        let s := { s with sec := { s.sec with running := some o } }
        let s := (s.putBit R.SEC_STATUS.FW_OK true).put R.SEC_FW.SVN (objSvn o.bytes)
        let s := s.applyChar.flashStatus.findNewest
        (s.putBit R.GLB_READY.BOOT_OK true).refreshLinks.digest.refreshCfg

/-! ### Memory initialisation and start-up self-test (R389, R410, R426, R610) -/

/-- Tile stores, scratchpads and stacks are zero and hold no poison. -/
def State.memZeroed (s : State) : State :=
  { s with
    mem := s.mem.filter fun c => decide (0xF00000000 ≤ c.1 ∧ c.1 < 0x1000000000) || decide (farBase ≤ c.1)
    poison := s.poison.filter fun e => decide (farBase ≤ 8 * e.1) }

/-- Every stack is trained, with what each found: stack, spares used, failed lanes as pseudo-channel × 64 + lane; every stack, tile
store and scratchpad is zero. -/
def State.memoryInit (s : State) (found : List (Nat × Nat × List Nat)) : State :=
  if !s.sec.started || s.isSet R.GLB_READY.MEM_OK then s
  else
    let s := s.memZeroed
    let s := found.foldl (fun (s : State) x =>
      let n := x.1
      let failed := x.2.2
      let bad := failed.any fun m => decide (2 < (failed.filter fun k => k / 64 == m / 64).length)
      let s := s.modStack n fun k => { k with marked := marksOf failed, corrected := [] }
      let s := (s.put (R.STACK_LANE_STATUS.SPARES_USED n) x.2.1).put (R.STACK_LANE_STATUS.ERASED_LANES n) (marksOf failed).length
      if bad then { s with flt := { s.flt with trainFailed := s.flt.trainFailed ++ [n] } } else s) s
    (s.putBit R.GLB_READY.MEM_OK true).refreshLinks

/-- Start-up self-test is over: PART_OK, the partition term of READY, and SERVICE mode where a partition passed (R30, R31, R190).
The stacks hold what the write check left. -/
def State.startupTest (s : State) (l : List SelfResult) (left : List (Nat × Bytes)) : State :=
  if s.flt.startTested || !s.isSet R.GLB_READY.BOOT_OK || !s.isSet R.GLB_READY.MEM_OK then s
  else
    let passed := (List.range 16).filter fun n =>
      !s.flt.trainFailed.contains n && l.any fun r => r.partition == n && r.failed == 0
    let s := { s with flt := { s.flt with startTested := true, startPassed := passed.length == 16 } }
    let s := s.memZeroed
    let s := (left.filter fun e => inStack e.1 e.2.length).foldl (fun (s : State) e => s.write e.1 e.2) s
    let s := s.put R.GLB_READY.PART_OK (bitSet passed)
    passed.foldl (fun (s : State) n => s.put (R.TILE_SEQ_CTRL.MODE n) 0) s

/-! ### Reset and power (R524, R575, R596, R622 to R629) -/

/-- A register of the management block, and a counter of energy. -/
def inMgt (k : Nat) : Bool := decide (0x23000 ≤ k / 64 ∧ k / 64 < 0x24000)
def inEnergy (k : Nat) : Bool := decide (0x20200 ≤ k / 64 ∧ k / 64 < 0x20500)

/-- The device's blocks outside the VSB domain at reset: the management block, the boot flash, the energy counters, which only a power-on
clears (R528), and the pins' levels stay; CXLD.CTRL is taken as it stood (R506). -/
def State.cleared (s : State) : State :=
  { State.reset with
    pending := s.pending
    regs := s.regs.filter fun e => inMgt e.1 || inEnergy e.1
    pwr := { Pwr.reset with fraction := s.pwr.fraction, atHeadland := s.pwr.atHeadland, tenants := s.pwr.tenants }
    mgt := s.mgt
    sec := { Sec.reset with
      fwSlot := s.sec.fwSlot
      floorSlots := s.sec.floorSlots
      charSlots := s.sec.charSlots
      read := s.sec.read
      counter := s.sec.counter }
    flt := { Flt.reset with dead := !s.pins.thermTripN }
    cxl := { Cxl.reset with
      bifurcated := s.isSet R.CXLD_CTRL.BIFURCATE
      expanderIde := s.isSet R.CXLD_CTRL.IDE_REQUIRED }
    pins := s.pins
    out := s.out
    freeCtr := s.freeCtr }

/-- SYS_RST_N falls (R624). -/
def State.resetAssert (s : State) : State :=
  if !s.pins.sysRstN then s else { s.cleared with pins := { s.pins with sysRstN := false } }

/-- The security core starts at the later release, and configuration space answers after PERST_N (R501, R625). -/
def State.released (s : State) : State :=
  if s.pins.sysRstN && s.pins.perstN then
    { s with sec := { s.sec with started := true }, cxl := { s.cxl with answers := true } }.putBit R.GLB_READY.CXL_CFG true
  else s

/-- SYS_RST_N rises, with every rail on (R622): FAULT_N is released but after a trip, and alerts that are low take effect (R575,
R629). -/
def State.resetRelease (s : State) : State :=
  if s.pins.sysRstN then s
  else
    let s := { s with pins := { s.pins with sysRstN := true, railsOn := true, faultN := s.pins.thermTripN } }
    let low := s.pins.vrAlertLow
    let s := s.put R.PWR_STATUS.VR_ALERT (bitSet low)
    (if low.isEmpty then s else s.settleLevels).released

/-- PERST_N falls (R501, R626): the upstream port is held in reset, as at a loss of its link, and
Bus Master Enable is 0 (R491). -/
def State.perstAssert (s : State) : State :=
  if !s.pins.perstN then s
  else
    let s := { s.linkLost with pins := { s.pins with perstN := false } }
    ({ s with cxl := { s.cxl with answers := false } }.putBit R.GLB_READY.CXL_CFG false).putBit R.CXLU_STATUS.BUS_MASTER false

/-- PERST_N rises. -/
def State.perstRelease (s : State) : State :=
  if s.pins.perstN then s else { s with pins := { s.pins with perstN := true } }.released

/-- Every rail but VSB goes (R524, R623): what is not in the VSB domain is lost, and the pins the device drives are released. -/
def State.railsOff (s : State) : State :=
  if !s.pins.railsOn then s
  else
    let t := s.cleared
    { t with
      regs := t.regs.filter fun e => inMgt e.1
      pwr := Pwr.reset
      flt := { t.flt with dead := false }
      pins := { s.pins with railsOn := false, faultN := true, thermTripN := true } }

/-- VSB comes into regulation (R596, R600): nothing else is powered, the sideband has no address, and SB_ADDR is sampled. -/
def State.vsbUp (s : State) (straps : Nat) : State :=
  let t := s.cleared
  let t := { t with
    regs := []
    pwr := Pwr.reset
    mgt := { s.mgt with toLog := [], tapIr := Mgt.reset.tapIr }
    flt := Flt.reset
    pins := { Pins.reset with sysRstN := false, perstN := false, railsOn := false } }
  t.put R.MGT_SB_STATUS.STATIC_SEL straps

/-! ### The commands -/

/-- SYS_RST_N_ASSERT (R624). -/
def execSysRstNAssert (s : State) : Answered := s.become s.resetAssert

/-- SYS_RST_N_RELEASE (R624, R625). -/
def execSysRstNRelease (s : State) : Answered := s.become s.resetRelease

/-- PERST_N_ASSERT (R626). -/
def execPerstNAssert (s : State) : Answered :=
  s.become (if s.alive then s.perstAssert.settle else { s with pins := { s.pins with perstN := false }, cxl := { s.cxl with answers := false } })

/-- PERST_N_RELEASE (R625). -/
def execPerstNRelease (s : State) : Answered := s.become s.perstRelease

/-- VSB_POWER_UP (R596). -/
def execVsbPowerUp (straps : Nat) (s : State) : Answered := s.become (s.vsbUp straps)

/-- RAILS_REMOVED (R524, R623). -/
def execRailsRemoved (s : State) : Answered := s.become s.railsOff

/-- ROM_BOOT (R539 to R548). -/
def execRomBoot (flash : BootFlash) (tests : Bool) (s : State) : Answered := s.whenAlive fun s => s.boot flash tests

/-- MEMORY_INIT_DONE (R389, R426). -/
def execMemoryInitDone (found : List (Nat × Nat × List Nat)) (s : State) : Answered := s.whenAlive fun s => s.memoryInit found

/-- SELFTEST_DONE (R610, R611): what every partition tested found; at start-up, with what the write check left in the stacks. -/
def execSelftestDone (results : List SelfResult) (left : List (Nat × Bytes)) (s : State) : Answered :=
  s.act fun s => if s.flt.selftest.isSome then s.selftestEnds results else s.startupTest results left

end Sys2Proof.Machine
end

