-- ==== Sys2Proof/Machine/Movers.lean ====
section
/-!
DEFINITION. The movers (R172, R178, R370, spec/05_step_plans.md): plain, strided and gathering copies, and zero fill.
-/

namespace Sys2Proof.Machine

/-- Source and destination of each run of bytes an XFER moves (R178): address read, address written, length. -/
def State.xferRuns (s : State) (d : Bytes) : List (Nat × Nat × Nat) :=
  let n := D.xBytes d
  let e := D.xElem d
  match D.xKind d with
  | 1 => [(D.xSrc d, D.xDst d, n)]
  | 2 => (List.range (ceilDiv n e)).map fun i =>
      (D.xSrc d + i * D.xSrcStride d, D.xDst d + i * D.xDstStride d, min e (n - i * e))
  | 3 => (List.range (ceilDiv n e)).map fun i => (s.readNat (D.xSrc d + 8 * i) 8, D.xDst d + i * e, min e (n - i * e))
  | _ => []

/-- The ranges an XFER reads and writes; poison in a source travels with its data (R370). -/
def State.xferAccs (s : State) (d : Bytes) : List Acc :=
  (if D.xKind d == 3 then [⟨D.xSrc d, 8 * ceilDiv (D.xBytes d) (D.xElem d), false⟩] else []) ++
    (s.xferRuns d).flatMap (fun r => [⟨r.1, r.2.2, true⟩, ⟨r.2.1, r.2.2, true⟩]) ++
    (if D.xKind d == 4 then [⟨D.xDst d, D.xBytes d, true⟩] else [])

/-- Move one run; 64-byte words that read poisoned arrive poisoned (R370). -/
def State.moveRun (s : State) (n : Nat) (r : Nat × Nat × Nat) : State :=
  let bad := (List.range (ceilDiv r.2.2 64)).filter fun i => s.poisoned (r.1 + 64 * i) (min 64 (r.2.2 - 64 * i))
  let (s, bs) := (s.countFarPoison r.1 r.2.2).readFor (some n) 3 r.1 r.2.2
  let s := s.writeFor (some n) 3 r.2.1 bs
  bad.foldl (fun (s : State) i => s.poisonRange (r.2.1 + 64 * i) (min 64 (r.2.2 - 64 * i))) s

/-- Far-tier words that an XFER writes while their expander fails the write: they are left poisoned (R499). -/
def writeFails (d : Bytes) (runs : List (Nat × Nat × Nat)) (mem : MemReport) : List Nat :=
  (mem.errors.filter fun e => !e.2 && decide (farBase ≤ e.1) && (runs.any (fun r => decide (r.2.1 ≤ e.1 ∧ e.1 < r.2.1 + r.2.2)) ||
    (D.xKind d == 4 && decide (D.xDst d ≤ e.1 ∧ e.1 < D.xDst d + D.xBytes d)))).map Prod.fst

/-- The head of mover `u`'s queue runs where it is of the wanted kind (R183, R178). -/
def State.xfer (s : State) (n u kind : Nat) (mem : MemReport) : State :=
  let q := 11 + u
  match s.runnable n q tXfer with
  | none => s
  | some h =>
    let d := h.desc
    if D.xKind d != kind then s
    else
      let s := s.memReport srcMover mem
      if D.xBytes d == 0 then s.complete n q
      else if (kind == 2 || kind == 3) && D.xElem d == 0 then s.failHead n q .failStep
      else
        let runs := s.xferRuns d
        s.gated n q (s.xferAccs d) fun s =>
          let poisoned := runs.find? fun r => s.poisoned r.1 r.2.2
          let s := runs.foldl (fun (s : State) r => s.moveRun n r) s
          let s := if kind == 4 then s.writeFor (some n) 3 (D.xDst d) (List.replicate (D.xBytes d) 0) else s
          let s := (writeFails d runs mem).foldl (fun (s : State) a => s.poisonRange a 64) s
          match poisoned with
          | some r => s.failEvent n q (evPoisonConsumed n r.1 (s.tile n).inst)
          | none => s.complete n q

end Sys2Proof.Machine
end

