-- ==== Sys2Proof/Machine/Engines.lean ====
section
/-!
DEFINITION. The commands of the engines: atomic operations (R382), MATMUL and what follows it (R204 to R227), the vector
operations (R263), SAMPLE (R273 to R283) and XFER (R178).  `stalls` is how long the engine waited, `mem` the errors its
reads of the SRAMs find: what only the circuit knows.
-/

namespace Sys2Proof.Machine

/-- The operation of code 0x1 (R382). -/
def execAtomAdd (route : AtomRoute) (s : State) : Answered := s.whenAlive fun s => s.atomCommand route 1

/-- The operation of code 0x2 (R382). -/
def execAtomMin (route : AtomRoute) (s : State) : Answered := s.whenAlive fun s => s.atomCommand route 2

/-- The operation of code 0x3 (R382). -/
def execAtomMax (route : AtomRoute) (s : State) : Answered := s.whenAlive fun s => s.atomCommand route 3

/-- The operation of code 0x4 (R382). -/
def execMinu (route : AtomRoute) (s : State) : Answered := s.whenAlive fun s => s.atomCommand route 4

/-- The operation of code 0x5 (R382). -/
def execMaxu (route : AtomRoute) (s : State) : Answered := s.whenAlive fun s => s.atomCommand route 5

/-- The operation of code 0x6 (R382). -/
def execCas (route : AtomRoute) (s : State) : Answered := s.whenAlive fun s => s.atomCommand route 6

/-- The operation of code 0x7 (R383). -/
def execRefInc (route : AtomRoute) (s : State) : Answered := s.whenAlive fun s => s.atomCommand route 7

/-- The operation of code 0x8 (R383). -/
def execRefDec (route : AtomRoute) (s : State) : Answered := s.whenAlive fun s => s.atomCommand route 8

/-- MATMUL (R204). -/
def execMatmul (tile unit : Nat) (rep : EngineReport) (mem : MemReport) (s : State) : Answered :=
  s.whenAlive fun s => s.matmul tile unit rep mem

/-- A chain link's addition (R222). -/
def execChainLinkAdd (tile unit : Nat) (reports : EngineReport × MemReport) (s : State) : Answered :=
  s.whenAlive fun s => s.chainAdd tile unit reports.1 reports.2

/-- A write-out that takes too long (R227). -/
def execWriteOutTimeout (tile unit : Nat) (s : State) : Answered := s.whenAlive fun s => s.writeOutTimeout tile unit

/-- The master copy of a damaged plot is in place (R191). -/
def execPlotRefetchDone (tile unit : Nat) (s : State) : Answered := s.whenAlive fun s => s.plotRefetched tile unit

/-- Vector operation 0x01 (R263). -/
def execVecCopy (tile stalls : Nat) (mem : MemReport) (s : State) : Answered :=
  s.whenAlive fun s => s.vec tile 0x01 stalls mem (vecUnary fun _ x => x)

/-- Vector operation 0x02 (R263). -/
def execVecAdd (tile stalls : Nat) (mem : MemReport) (s : State) : Answered :=
  s.whenAlive fun s => s.vec tile 0x02 stalls mem (vecBinary Num.add)

/-- Vector operation 0x03 (R263). -/
def execVecSub (tile stalls : Nat) (mem : MemReport) (s : State) : Answered :=
  s.whenAlive fun s => s.vec tile 0x03 stalls mem (vecBinary Num.sub)

/-- Vector operation 0x04 (R263). -/
def execVecMul (tile stalls : Nat) (mem : MemReport) (s : State) : Answered :=
  s.whenAlive fun s => s.vec tile 0x04 stalls mem (vecBinary Num.mul)

/-- Vector operation 0x05 (R263). -/
def execFma (tile stalls : Nat) (mem : MemReport) (s : State) : Answered :=
  s.whenAlive fun s => s.vec tile 0x05 stalls mem (vecTernary fun a b c => (a.mul b).add c)

/-- Vector operation 0x06 (R263). -/
def execAxpb (tile stalls : Nat) (mem : MemReport) (s : State) : Answered :=
  s.whenAlive fun s => s.vec tile 0x06 stalls mem (vecUnary axpb)

/-- Vector operation 0x07 (R263). -/
def execVecMax (tile stalls : Nat) (mem : MemReport) (s : State) : Answered :=
  s.whenAlive fun s => s.vec tile 0x07 stalls mem (vecBinary Num.max)

/-- Vector operation 0x08 (R263). -/
def execVecMin (tile stalls : Nat) (mem : MemReport) (s : State) : Answered :=
  s.whenAlive fun s => s.vec tile 0x08 stalls mem (vecBinary Num.min)

/-- Vector operation 0x09 (R263). -/
def execMulrow (tile stalls : Nat) (mem : MemReport) (s : State) : Answered :=
  s.whenAlive fun s => s.vec tile 0x09 stalls mem (vecByRow Num.mul)

/-- Vector operation 0x0a (R263). -/
def execDivrow (tile stalls : Nat) (mem : MemReport) (s : State) : Answered :=
  s.whenAlive fun s => s.vec tile 0x0a stalls mem (vecByRow Num.div)

/-- Vector operation 0x10 (R263). -/
def execRowsum (tile stalls : Nat) (mem : MemReport) (s : State) : Answered :=
  s.whenAlive fun s => s.vec tile 0x10 stalls mem (vecReduce sumRow)

/-- Vector operation 0x11 (R263). -/
def execRowmax (tile stalls : Nat) (mem : MemReport) (s : State) : Answered :=
  s.whenAlive fun s => s.vec tile 0x11 stalls mem (vecReduce maxRow)

/-- Vector operation 0x12 (R263). -/
def execRowamax (tile stalls : Nat) (mem : MemReport) (s : State) : Answered :=
  s.whenAlive fun s => s.vec tile 0x12 stalls mem (vecReduce fun v => maxRow (v.map Num.abs))

/-- Vector operation 0x18 (R263). -/
def execActTable (tile stalls : Nat) (mem : MemReport) (s : State) : Answered :=
  s.whenAlive fun s => s.vec tile 0x18 stalls mem (vecTable fun t => vecUnary fun _ x => t x)

/-- Vector operation 0x19 (R263). -/
def execGateTable (tile stalls : Nat) (mem : MemReport) (s : State) : Answered :=
  s.whenAlive fun s => s.vec tile 0x19 stalls mem (vecTable fun t => vecBinary fun a b => (t a).mul b)

/-- Vector operation 0x1a (R263). -/
def execExprow (tile stalls : Nat) (mem : MemReport) (s : State) : Answered :=
  s.whenAlive fun s => s.vec tile 0x1a stalls mem (vecTable fun t => vecByRow fun a r => t (fp32.rnd (a.sub r)))

/-- Vector operation 0x1c (R263). -/
def execRmsnorm (tile stalls : Nat) (mem : MemReport) (s : State) : Answered :=
  s.whenAlive fun s => s.vec tile 0x1c stalls mem (vecNorm fun f eps g _ x => rmsNorm f eps g x)

/-- Vector operation 0x1d (R263). -/
def execLayernorm (tile stalls : Nat) (mem : MemReport) (s : State) : Answered :=
  s.whenAlive fun s => s.vec tile 0x1d stalls mem (vecNorm layerNorm)

/-- Vector operation 0x20 (R263). -/
def execQuantI8s (tile stalls : Nat) (mem : MemReport) (s : State) : Answered :=
  s.whenAlive fun s => s.vec tile 0x20 stalls mem (vecQuant tile .i8s)

/-- Vector operation 0x21 (R263). -/
def execQuantI8a (tile stalls : Nat) (mem : MemReport) (s : State) : Answered :=
  s.whenAlive fun s => s.vec tile 0x21 stalls mem (vecQuant tile .i8a)

/-- Vector operation 0x22 (R263). -/
def execQuantFp8 (tile stalls : Nat) (mem : MemReport) (s : State) : Answered :=
  s.whenAlive fun s => s.vec tile 0x22 stalls mem (fun s h => vecQuant tile (.fp8 (if bit (D.vOp h.desc) 6 then e5m2 else e4m3)) s h)

/-- Vector operation 0x24 (R263). -/
def execRescaleTab (tile stalls : Nat) (mem : MemReport) (s : State) : Answered :=
  s.whenAlive fun s => s.vec tile 0x24 stalls mem (vecRescaleTab tile)

/-- Vector operation 0x25 (R263). -/
def execRescaleReg (tile stalls : Nat) (mem : MemReport) (s : State) : Answered :=
  s.whenAlive fun s => s.vec tile 0x25 stalls mem (vecRescaleReg tile)

/-- Vector operation 0x26 (R263). -/
def execRescaleFp (tile stalls : Nat) (mem : MemReport) (s : State) : Answered :=
  s.whenAlive fun s => s.vec tile 0x26 stalls mem (vecRescaleFp)

/-- Vector operation 0x28 (R263). -/
def execWireQ8 (tile stalls : Nat) (mem : MemReport) (s : State) : Answered :=
  s.whenAlive fun s => s.vec tile 0x28 stalls mem (vecWireQ8 tile)

/-- Vector operation 0x29 (R263). -/
def execWireFp8 (tile stalls : Nat) (mem : MemReport) (s : State) : Answered :=
  s.whenAlive fun s => s.vec tile 0x29 stalls mem (vecWire fun d => if bit (D.vOp d) 6 then e5m2 else e4m3)

/-- Vector operation 0x2a (R263). -/
def execWireWide (tile stalls : Nat) (mem : MemReport) (s : State) : Answered :=
  s.whenAlive fun s => s.vec tile 0x2a stalls mem (vecWire fun d => if bit (D.vOp d) 6 then bf16 else fp32)

/-- Vector operation 0x2c (R263). -/
def execWidenAdd (tile stalls : Nat) (mem : MemReport) (s : State) : Answered :=
  s.whenAlive fun s => s.vec tile 0x2c stalls mem (vecWiden fun d => D.vOp d / 64)

/-- Vector operation 0x2d (R263). -/
def execWidenAddF32 (tile stalls : Nat) (mem : MemReport) (s : State) : Answered :=
  s.whenAlive fun s => s.vec tile 0x2d stalls mem (vecWiden fun _ => 4)

/-- SAMPLE with FINAL 0 (R276). -/
def execSampleLocal (tile : Nat) (mem : MemReport) (s : State) : Answered := s.whenAlive fun s => s.sampleLocal tile mem

/-- SAMPLE with FINAL 1 (R278). -/
def execSampleFinal (tile : Nat) (mem : MemReport) (s : State) : Answered := s.whenAlive fun s => s.sampleFinal tile mem

/-- XFER of KIND 1 (R178). -/
def execCopyXfer (tile unit : Nat) (mem : MemReport) (s : State) : Answered := s.whenAlive fun s => s.xfer tile unit 1 mem

/-- XFER of KIND 2 (R178). -/
def execStridedCopy (tile unit : Nat) (mem : MemReport) (s : State) : Answered := s.whenAlive fun s => s.xfer tile unit 2 mem

/-- XFER of KIND 3 (R178). -/
def execGather (tile unit : Nat) (mem : MemReport) (s : State) : Answered := s.whenAlive fun s => s.xfer tile unit 3 mem

/-- XFER of KIND 4 (R178). -/
def execZeroFill (tile unit : Nat) (mem : MemReport) (s : State) : Answered := s.whenAlive fun s => s.xfer tile unit 4 mem

end Sys2Proof.Machine
end

