-- ==== Sys2Proof/Machine/Headland.lean ====
section
/-!
DEFINITION. What a headland does (R42, R59 to R62, R158, R159, spec/02_meridian_and_furrows.md, 04_command_packets.md), and what
is done at a mark while no schedule runs (R130, R131, R154).
-/

namespace Sys2Proof.Machine

/-! ### The digest check (R158, R159) -/

/-- Pairs of epoch and digest of the own group in this furrow, this device's included, in order of positions. -/
def State.groupPairs (s : State) : Table (Nat × Nat) :=
  let g := s.get R.GLB_DEVPOS.GROUP
  Table.insert s.self (s.get R.CFG_STATUS.ACTIVE_EPOCH, s.get R.CFG_DIGEST.ACTIVE_DIGEST)
    (s.cfg.peers.filter fun e => e.1 / 16 == g)

/-- The pair that most devices hold; of a tie, that of the lowest position. -/
def reference (l : Table (Nat × Nat)) : Nat × Nat :=
  let votes := fun (x : Nat × Nat) => (l.filter fun e => e.2 == x).length
  let best := (l.map fun e => votes e.2).foldl max 0
  ((l.map Prod.snd).find? fun x => votes x == best).getD (0, 0)

/-- A device fences itself as divergent (R159, R584). -/
def State.selfFence (s : State) : State :=
  let s := (s.haltSchedule.setFenced).raise (evSelfFenced (s.get R.CFG_DIGEST.ACTIVE_DIGEST))
  s.sendCtrl s.leadId (.failure 3 s.self 0 s.furrow none)

/-- The digest check of a headland: this device against the reference, and at the lead its counterparts; what differs at consecutive
checks is counted for CLUSTER_DIVERGENT. -/
def State.digestItem (s : State) : State :=
  let own := (s.get R.CFG_STATUS.ACTIVE_EPOCH, s.get R.CFG_DIGEST.ACTIVE_DIGEST)
  let differs := reference s.groupPairs != own
  let far := if !s.isLead then [] else (s.cfg.peers.filter fun e =>
    s.counterparts.contains e.1 && e.2.1 == own.1 && e.2.2 != own.2).map Prod.fst
  let bad := far ++ if differs then [s.self] else []
  let counts : Table Nat := bad.foldl (fun t d => Table.insert d (Table.get 0 d s.cfg.divergent + 1) t) []
  let s := { (s.putBit R.CFG_STATUS.DIVERGENT differs) with cfg := { s.cfg with divergent := counts } }
  if !differs then s
  else
    let s := s.bump R.CFG_COUNTS.DIVERGENCES
    if !s.isSet R.CFG_CTRL.ENFORCE then s.raise (evDivergent own.2)
    else if s.isLead || decide (Table.get 0 s.self counts < 2) then s
    else s.selfFence

/-- CLUSTER_DIVERGENT (R159, R584): a counterpart, or the lead itself, differs at two consecutive checks; under ENFORCE the lead stops
the schedule at the next headland. -/
def State.clusterDivergent (s : State) (d : Nat) : State :=
  let enforce := s.isSet R.CFG_CTRL.ENFORCE
  if !s.isLead || decide (Table.get 0 d s.cfg.divergent < 2) || (d == s.self && !enforce) then s
  else
    let digest := if d == s.self then s.get R.CFG_DIGEST.ACTIVE_DIGEST else (Table.get (0, 0) d s.cfg.peers).2
    let s := { s with cfg := { s.cfg with divergent := Table.insert d 1 s.cfg.divergent } }
    let s := s.raise (evClusterDivergent d digest)
    let k := s.stopHeadland s.furrow
    if enforce && s.inSchedule && s.mayStop k then s.stopAll k else s

/-! ### The headland -/

/-- Meridian start of the headland of the present furrow (R40). -/
def State.headlandTime (s : State) : Nat := s.furrowStart (s.furrow + 1) - s.headlandLen

/-- Instances with a lane of the step that ended that is not settled. -/
def State.openInsts (s : State) : List Nat := (s.srv.openLanes.map Prod.fst).eraseDups

/-- Admission and lane filling, and the lane tables sent (R59, R82, R90).  An instance with a lane that is not settled waits for its token,
from which its lanes go on (R59, R106). -/
def State.admission (s : State) (th : Nat) : State :=
  if !s.isLead then s
  else
    let s := s.applyCommands th
    let late := s.openInsts
    let s := { s with srv := { s.srv with farWait := late } }
    ((instList s.cfg.instA).filter fun e => !late.contains e.1).foldl (fun (s : State) e => s.buildLanes e.1) s

/-- Spill and prefetch are issued (R350, R351): for the sequences that are to run, as the lead knows and as it told the members. -/
def State.spills (s : State) : State :=
  let run := if s.isLead then s.soonSeqs else s.srv.soon
  s.spillItem.prefetchItem (run.map fun q => q % 65536)

/-- Admission has not finished at the turnaround (R61): it is put off whole. -/
def State.shortHeadland (s : State) : State :=
  let s := s.noteShort
  if !s.isLead then s
  else
    let late := s.openInsts
    ({ s with srv := { s.srv with farWait := late } }).discardLanes ((s.srv.lanes.map Prod.fst).filter fun i => !late.contains i)

/-- Lanes that were open have been settled: their sequences are flushed, what waited for them acts, and their instances' lanes follow. -/
def State.afterSettle (s : State) : State :=
  let s := (s.noteHeld.syncFiles.flushItem.syncSeqs).applyWaiting s.deliveryTime
  let late := s.openInsts
  let ready := s.srv.farWait.filter fun i => !late.contains i
  let s := { s with srv := { s.srv with farWait := s.srv.farWait.filter late.contains } }
  if s.srv.short then s.discardLanes ready else ready.foldl (fun (s : State) i => s.buildLanes i) s

/-- A choice record may have come with data that have arrived: lanes that waited for theirs are settled (R59). -/
def State.settleArrived (s : State) : State :=
  if s.srv.openLanes.isEmpty then s else (s.settleOpen s.deliveryTime s.knownHere).afterSettle

/-- Token records of an instance of another group reach the lead (R106), or what a lane met (R352, R357). -/
def State.tokensIn (s : State) (i : Nat) (l : List TokenRec) (kept missed damaged empty : List Nat) : State :=
  let lanes := (Table.get [] i s.srv.lanes).filter fun e => missed.contains e.seqId
  let s := { s with srv := { s.srv with
    damaged := s.srv.damaged ++ damaged.map fun q => (i, q)
    misses := s.srv.misses ++ lanes.map fun e => (i, e.set, e.lane) } }
  if !s.isLead then s
  else if !missed.isEmpty || !damaged.isEmpty then if s.isSet R.FRW_STATE.HEADLAND then s.retireDamaged s.deliveryTime else s
  else
    let got := fun (j : Nat) (e : LaneEntry) => if j != i then none
      else some (kept.contains e.seqId && !(s.srv.misses.contains (i, e.set, e.lane)),
        if empty.contains e.seqId then LaneEnd.empty
        else match l.find? fun r => r.seqId == e.seqId with
          | some r => .token r.token
          | none => .none)
    (s.settleOpen s.deliveryTime got).afterSettle

/-- 400 ns before the headland's end (R90): lanes that are open gave nothing, and tables that not every member has are discarded. -/
def State.laneDeadline (s : State) : State :=
  if !(s.inSchedule && s.isSet R.FRW_STATE.HEADLAND) then s
  else
    let far := s.srv.farWait
    let s := { s with srv := { s.srv with farWait := [] } }
    let s := ((s.settleOpen s.deliveryTime s.knownLast).afterSettle).decideLanes
    (if far.isEmpty then s else s.noteShort).discardLanes far

/-- What a step that ends leaves is delivered and committed; retirement; flush (R59). -/
def State.deliverWork (s : State) (th : Nat) (ended : Bool) : State :=
  let s := s.markCancelled
  let s := if s.isLead then ((s.addCredits).countBound th).drainAll else s
  let s := if ended then (s.endPhases).tokenItem th else s
  let s := if s.isLead then s.noteHeld else s
  let s := ((s.retireItem th ended).applyTold).applyEndings th
  s.syncFiles.flushItem.syncSeqs

/-- Membership, resets and failed partitions take effect (R138, R579, R582, R586), before the commit item. -/
def State.memberWork (s : State) (th : Nat) : State :=
  (((s.resetItem th).fatalItem th).membershipItem th).joinItem

/-- The items after the digest check.  In a headland that a fallow furrow follows, spill and prefetch are put off with the items that R62 names
(DEDUCED, log entry 42: the example of R62 does them a furrow later), and the headland is not counted short.  Copies that have ended are
switched to in every headland (R350). -/
def State.laterWork (s : State) (th : Nat) (ended fallow stopping fits : Bool) : State :=
  let s := s.memberWork th
  let s := if fallow then s.deferCommit else s.commitItem th
  let s := { s with frw := { s.frw with stepOpen := s.frw.stepOpen && !ended, doneAt := none } }
  let s :=
    if stopping || fallow then s.switchCopies
    else if fits then ((s.adapterItem).admission th).switchCopies.spills
    else s.switchCopies.shortHeadland
  s.countSeqs.countTenant

/-- HEADLAND_START (R42, R59 to R62, R585): `fits` where adapter switching, admission and spill issue finish by the turnaround. -/
def State.headland (s : State) (fits : Bool) : State :=
  if !s.inSchedule || s.isSet R.FRW_STATE.HEADLAND then s
  else if s.frw.leadSilent then s.loseLead
  else
    let th := s.headlandTime
    let late := s.isSet R.FRW_STATE.LATE_GROUP
    let due := match s.frw.stopAt with
      | some k => decide (k ≤ s.furrow)
      | none => false
    let moves := due && late && !s.frw.stopMoved
    let stopping := due && !moves
    let fallow := late && !stopping
    let ended := s.frw.doneAt.isSome
    let s := s.attribute (s.frwState == frwFallow)
    let s := s.putBit R.FRW_STATE.HEADLAND true
    let s := if moves then { s with frw := { s.frw with stopAt := some (s.furrow + 1), stopMoved := true } } else s
    let s := if stopping then s.put R.FRW_STATE.STATE frwStopping else s
    let s := if fallow || stopping then { s with pwr := { s.pwr with levels := [], tileLevels := [] } }
      else s.predictFurrow s.frw.nextTemplate
    let s := { s.resumeReplay with srv := { s.srv with
      closing := [], built := [], laneWait := [], farWait := [], waitCmds := [], ringFull := false, short := false } }
    let s := (s.deliverWork th ended).digestItem
    if s.isFenced then s else s.laterWork th ended fallow stopping fits

/-! ### Marks while no schedule runs -/

/-- What waits for a headland is done at a mark, or at a local millisecond, at time `th` (R130, R131, R138, R154, R586). -/
def State.markWork (s : State) (th : Nat) : State :=
  if s.inSchedule then s
  else
    let s := { s with srv := { s.srv with closing := [] } }
    let s := (s.memberWork th).commitPrepared th
    let s := if s.isLead then s.applyCommands th else s.applyTold
    s.countSeqs.countTenant

/-- A mark edge (R35), and what an accepted one brings. -/
def State.mark_ (s : State) : State :=
  let (s, accepted) := s.markEdge
  if accepted then s.markWork (s.get R.MRD_LAST_MARK.LAST_MARK) else s

/-! ### The commands -/

/-- HEADLAND_START (R59). -/
def execHeadlandStart (fits : Bool) (s : State) : Answered := s.act fun s => s.headland fits

/-- LANE_TABLE_DEADLINE (R90). -/
def execLaneTableDeadline (s : State) : Answered := s.act State.laneDeadline

/-- CLUSTER_DIVERGENT (R159). -/
def execClusterDivergent (device : Nat) (s : State) : Answered := s.act fun s => s.clusterDivergent device

/-- MERID_MARK_EDGE (R35). -/
def execMeridMarkEdge (s : State) : Answered := s.act State.mark_

/-- LOCAL_MILLISECOND (R131): the tick of a device that accepts no mark. -/
def execLocalMillisecond (s : State) : Answered :=
  s.act fun s => if s.lockless then s.markWork s.now else s

/-- CFG_DECISION_TIMEOUT (R154): 1 ms outside the schedule. -/
def execCfgDecisionTimeout (s : State) : Answered := s.act fun s => if s.inSchedule then s else s.decideCommit

/-- TOKENS (R106). -/
def execTokensMsg (port frags : Nat) (m : CtrlMsg) (s : State) : Answered :=
  s.act fun s => s.ctrlIn port frags m fun s => match m.body with
    | .tokens i _ l kept missed damaged empty => s.tokensIn i l kept missed damaged empty
    | _ => s

/-- DATA (R451, R457); `full`: the port's receive buffer has no room; `tagOk`: the verdict on the tag that a stream ends with. -/
def execDataFrame (port : Nat) (f : Frame) (fixed : Nat) (full tagOk : Bool) (s : State) : Answered :=
  s.act fun s => (s.dataFrame port f fixed full tagOk).settleArrived

end Sys2Proof.Machine
end

