-- ==== Sys2Proof/Machine/Manage.lean ====
section
/-!
DEFINITION. The sideband and the test access port (R596 to R600, R605, R608, R609, spec/18_management_and_test.md).  Both work on VSB.
-/

namespace Sys2Proof.Machine

/-! ### Addresses (R596, R597) -/

/-- SETDASA names the static address, ENTDAA none: a target that has no dynamic address takes one. -/
def State.takeAddress (s : State) (addr : Nat) : State :=
  if s.get R.MGT_SB_STATUS.DYN_ADDR == 0 then s.put R.MGT_SB_STATUS.DYN_ADDR addr else s

/-- An answer on the sideband, of a target that has an address. -/
def State.sideband (s : State) (a : SbAnswer) : State :=
  if s.get R.MGT_SB_STATUS.DYN_ADDR == 0 then s else s.emit (.sideband a)

/-- A request reaches the target once it has an address. -/
def State.onSideband (s : State) (f : State → State) : Answered :=
  s.become (if s.get R.MGT_SB_STATUS.DYN_ADDR == 0 then s else f s)

/-- Set Endpoint ID: 0 and 0xFF are no identifiers. -/
def State.setEid (s : State) (eid : Nat) : State :=
  if eid == 0 || 255 ≤ eid then s.sideband .invalidData else (s.put R.MGT_SB_STATUS.EID eid).sideband (.endpoint eid)

/-- The MCTP message types (R597). -/
def mctpTypes : List Nat := [0x00, 0x01, 0x05, 0x06, 0x7E]

/-- Versions of a message type, major × 256 + minor (R550, R597, R598); 0xFF asks for MCTP itself.  The vendor type's is not given. -/
def State.versionsOf (s : State) (type : Nat) : State :=
  if type == 0 || type == 0xFF then s.sideband (.versions [0x103])
  else if type == 1 then s.sideband (.versions [0x101])
  else if type == 5 || type == 6 then s.sideband (.versions [0x102, 0x103])
  else if type == 0x7E then (s.sideband (.versions [s.freeVal % 65536])).draw
  else s.sideband .invalidData

/-! ### Sensors and the effecter (R599, R600) -/

/-- A sensor's reading, without that of the standby sensor; `none`: no such sensor, or one that is not there yet. -/
def State.sensor (s : State) (id : Nat) : Option Nat :=
  if 1 ≤ id && id ≤ 0x10 then some (s.get (R.THM_TILE.TJ (id - 1)))
  else if 0x11 ≤ id && id ≤ 0x20 then some (s.get (R.THM_TILE.TSTORE (id - 0x11)))
  else if 0x21 ≤ id && id ≤ 0x30 then some (s.get (R.STACK_THERM.TEMP (id - 0x21)))
  else if 0x31 ≤ id && id ≤ 0x46 then (s.pwr.rails[id - 0x31]?).map Prod.fst
  else if 0x47 ≤ id && id ≤ 0x5C then (s.pwr.rails[id - 0x47]?).map Prod.snd
  else if id == 0x5D then some (s.get R.PWR_STATUS.POWER_W)
  else if id == 0x5E then some (s.get R.PWR_STATUS.DEVICE_PL)
  else if id == 0x5F then some (s.readReg R.GLB_READY.READY.addr % 64)
  else none

/-- GetSensorReading: without the rails only the standby sensor reads; its temperature is the world's. -/
def State.readSensor (s : State) (id standby : Nat) : State :=
  if id == 0x60 then s.sideband (.reading standby)
  else if id == 0 || 0x60 < id then s.sideband .invalidData
  else if !s.pins.railsOn then s.sideband .unavailable
  else match s.sensor id with
    | some v => s.sideband (.reading v)
    | none => s.sideband .unavailable

/-- SetNumericEffecterValue of the sideband cap (R600). -/
def State.setCap (s : State) (id watts : Nat) : State :=
  if id != 0x101 || !(watts == 0 || (800 ≤ watts && watts ≤ 3200)) then s.sideband .invalidData
  else
    let s := s.put R.MGT_SB_CAP.CAP_W watts
    (if s.alive then s.settleLevels else s).sideband .done

/-! ### Test access port (R608, R609) -/

/-- The instruction that a code selects and that is in effect: reserved codes select BYPASS, and what drives the outputs acts only
while SYS_RST_N is low. -/
def State.tapEffect (s : State) : Nat :=
  let c := s.mgt.tapIr
  if c == 1 || c == 2 then c
  else if (c == 0 || (3 ≤ c && c ≤ 6)) && !s.pins.sysRstN then c
  else 0xFF

/-- IDCODE (R608). -/
def idcode : Nat := 0x0064056B

/-- An instruction is loaded: the register it selects shifts out its 32 bits of identity, or the single bit of BYPASS; the cells of
the boundary register are the land map's. -/
def State.tapLoad (s : State) (code : Nat) : State :=
  let s := { s with mgt := { s.mgt with tapIr := code } }
  let c := s.tapEffect
  if c == 2 then s.emit (.tdo 32 idcode)
  else if c == 0xFF || c == 3 || c == 4 then s.emit (.tdo 1 0)
  else s

/-! ### The commands -/

/-- SETDASA (R596): the static address is 0x50 + SB_ADDR. -/
def execSetdasa (staticAddr addr : Nat) (s : State) : Answered :=
  s.become (if staticAddr == 0x50 + s.get R.MGT_SB_STATUS.STATIC_SEL then s.takeAddress addr else s)

/-- ENTDAA (R596). -/
def execEntdaa (addr : Nat) (s : State) : Answered := s.become (s.takeAddress addr)

/-- SET_ENDPOINT_ID (R597). -/
def execSetEndpointId (eid : Nat) (s : State) : Answered := s.onSideband fun s => s.setEid eid

/-- GET_ENDPOINT_ID (R597). -/
def execGetEndpointId (s : State) : Answered := s.onSideband fun s => s.sideband (.endpoint (s.get R.MGT_SB_STATUS.EID))

/-- GET_VERSION_SUPPORT (R597). -/
def execGetVersionSupport (type : Nat) (s : State) : Answered := s.onSideband fun s => s.versionsOf type

/-- GET_MESSAGE_TYPE_SUPPORT (R597). -/
def execGetMessageTypeSupport (s : State) : Answered := s.onSideband fun s => s.sideband (.types mctpTypes)

/-- GET_SENSOR_READING (R599), with the standby sensor's temperature. -/
def execGetSensorReading (sensor standby : Nat) (s : State) : Answered := s.onSideband fun s => s.readSensor sensor standby

/-- SET_NUMERIC_EFFECTER_VALUE (R600). -/
def execSetNumericEffecterValue (effecter value : Nat) (s : State) : Answered := s.onSideband fun s => s.setCap effecter value

/-- GET_NUMERIC_EFFECTER_VALUE (R600). -/
def execGetNumericEffecterValue (effecter : Nat) (s : State) : Answered :=
  s.onSideband fun s =>
    s.sideband (if effecter == 0x101 then .effecter (s.get R.MGT_SB_CAP.CAP_W) else .invalidData)

/-- EVENT_LOG_READ (R605). -/
def execEventLogRead (seq : Nat) (s : State) : Answered := s.onSideband fun s => s.sideband (.entries (s.readEvents (seq % 2 ^ 32)))

/-- EXTEST (R609). -/
def execTapExtest (s : State) : Answered := s.become (s.tapLoad 0x00)

/-- SAMPLE/PRELOAD (R608). -/
def execSamplePreload (s : State) : Answered := s.become (s.tapLoad 0x01)

/-- IDCODE (R608). -/
def execTapIdcode (s : State) : Answered := s.become (s.tapLoad 0x02)

/-- CLAMP (R609). -/
def execTapClamp (s : State) : Answered := s.become (s.tapLoad 0x03)

/-- HIGHZ (R609). -/
def execTapHighz (s : State) : Answered := s.become (s.tapLoad 0x04)

/-- EXTEST_PULSE (R609). -/
def execExtestPulse (s : State) : Answered := s.become (s.tapLoad 0x05)

/-- EXTEST_TRAIN (R609). -/
def execExtestTrain (s : State) : Answered := s.become (s.tapLoad 0x06)

/-- BYPASS (R608): also what a reserved code selects. -/
def execTapBypass (code : Nat) (s : State) : Answered := s.become (s.tapLoad (if 7 ≤ code then code % 256 else 0xFF))

end Sys2Proof.Machine
end

