-- ==== Sys2Proof/Machine/Packets.lean ====
section
/-!
DEFINITION. The rows that are command packets (R125, R127, spec/04_command_packets.md): each is the packet of its opcode as the lead
device takes it from a submission ring, with what the read of an in payload answered.
-/

namespace Sys2Proof

/-- A packet of an opcode. -/
def Packet.op (p : Packet) (op : Nat) : Packet := { p with opcode := op }

/-- A packet with a flag of byte 1 as its row has it. -/
def Packet.with_ (p : Packet) (i : Nat) (b : Bool) : Packet := { p with flags := Machine.setBit p.flags i b }

/-- A TRAFFIC_GEN or LINK_TEST packet with its row's PATTERN (R412, R471). -/
def Packet.pattern (p : Packet) (v : Nat) : Packet := { p with p0 := Machine.setBits p.p0 16 8 v }

end Sys2Proof

namespace Sys2Proof.Machine

/-- IDENTIFY (R549). -/
def execIdentify (p : Packet) (s : State) : Answered := s.act fun s => s.submit (p.op 0x00) none none

/-- GEOMETRY_GET (R146). -/
def execGeometryGet (p : Packet) (s : State) : Answered := s.act fun s => s.submit (p.op 0x01) none none

/-- CFG_STAGE (R147). -/
def execCfgStage (p : Packet) (pay : Option Bytes) (s : State) : Answered := s.act fun s => s.submit ((p.op 0x02).with_ 5 false) pay none

/-- CFG_STAGE_DISCARD (R137). -/
def execCfgStageDiscard (p : Packet) (s : State) : Answered := s.act fun s => s.submit ((p.op 0x02).with_ 5 true) none none

/-- CFG_COMMIT (R153). -/
def execCfgCommit (p : Packet) (s : State) : Answered := s.act fun s => s.submit ((p.op 0x03).with_ 4 false) none none

/-- CFG_COMMIT_CLUSTER (R154). -/
def execCfgCommitCluster (p : Packet) (s : State) : Answered := s.act fun s => s.submit ((p.op 0x03).with_ 4 true) none none

/-- CFG_DIGEST (R158). -/
def execCfgDigest (p : Packet) (s : State) : Answered := s.act fun s => s.submit (p.op 0x04) none none

/-- CLUSTER_FORM (R148). -/
def execClusterForm (p : Packet) (pay : Option Bytes) (s : State) : Answered := s.act fun s => s.submit (p.op 0x05) pay none

/-- FENCE (R132). -/
def execFence (p : Packet) (s : State) : Answered := s.act fun s => s.submit (p.op 0x06) none none

/-- REJOIN (R586). -/
def execRejoin (p : Packet) (s : State) : Answered := s.act fun s => s.submit ((p.op 0x07).with_ 5 false) none none

/-- REJOIN_ENGINE (R587). -/
def execRejoinEngine (p : Packet) (s : State) : Answered := s.act fun s => s.submit ((p.op 0x07).with_ 5 true) none none

/-- RESET_PARTITION (R138). -/
def execResetPartition (p : Packet) (s : State) : Answered := s.act fun s => s.submit (p.op 0x08) none none

/-- MERIDIAN_SET (R37). -/
def execMeridianSet (p : Packet) (s : State) : Answered := s.act fun s => s.submit (p.op 0x10) none none

/-- FURROW_PLAN_LOAD (R47). -/
def execFurrowPlanLoad (p : Packet) (pay : Option Bytes) (s : State) : Answered := s.act fun s => s.submit (p.op 0x11) pay none

/-- FURROW_START (R41). -/
def execFurrowStart (p : Packet) (s : State) : Answered := s.act fun s => s.submit (p.op 0x12) none none

/-- FURROW_STOP (R42). -/
def execFurrowStop (p : Packet) (s : State) : Answered := s.act fun s => s.submit (p.op 0x13) none none

/-- MODEL_LOAD (R140). -/
def execModelLoad (p : Packet) (img : ModelImage) (s : State) : Answered := s.act fun s => s.submit (p.op 0x20) none (some img)

/-- MODEL_UNLOAD (R141). -/
def execModelUnload (p : Packet) (s : State) : Answered := s.act fun s => s.submit (p.op 0x21) none none

/-- PLAN_LOAD (R168). -/
def execPlanLoad (p : Packet) (s : State) : Answered := s.act fun s => s.submit (p.op 0x22) none none

/-- ADAPTER_LOAD (R314). -/
def execAdapterLoad (p : Packet) (s : State) : Answered := s.act fun s => s.submit (p.op 0x23) none none

/-- ADAPTER_RETIRE (R105). -/
def execAdapterRetire (p : Packet) (s : State) : Answered := s.act fun s => s.submit (p.op 0x24) none none

/-- PREFIX_CREATE (R100). -/
def execPrefixCreate (p : Packet) (s : State) : Answered := s.act fun s => s.submit (p.op 0x30) none none

/-- PREFIX_RELEASE (R102). -/
def execPrefixRelease (p : Packet) (s : State) : Answered := s.act fun s => s.submit (p.op 0x31) none none

/-- KV_IMPORT (R356). -/
def execKvImport (p : Packet) (s : State) : Answered := s.act fun s => s.submit (p.op 0x32) none none

/-- KV_EXPORT (R356). -/
def execKvExport (p : Packet) (s : State) : Answered := s.act fun s => s.submit (p.op 0x33) none none

/-- SEQ_OPEN (R91). -/
def execSeqOpen (p : Packet) (s : State) : Answered := s.act fun s => s.submit (p.op 0x40) none none

/-- SEQ_APPEND (R77). -/
def execSeqAppend (p : Packet) (pay : Option Bytes) (s : State) : Answered := s.act fun s => s.submit (p.op 0x41) pay none

/-- SEQ_GENERATE (R94). -/
def execSeqGenerate (p : Packet) (pay : Option Bytes) (s : State) : Answered := s.act fun s => s.submit (p.op 0x42) pay none

/-- SEQ_CANCEL (R81). -/
def execSeqCancel (p : Packet) (s : State) : Answered := s.act fun s => s.submit (p.op 0x43) none none

/-- SEQ_CLOSE (R81). -/
def execSeqClose (p : Packet) (s : State) : Answered := s.act fun s => s.submit (p.op 0x44) none none

/-- TENANT_SET (R144). -/
def execTenantSet (p : Packet) (s : State) : Answered := s.act fun s => s.submit (p.op 0x50) none none

/-- HINT (R519). -/
def execHintPacket (p : Packet) (s : State) : Answered := s.act fun s => s.submit (p.op 0x51) none none

/-- POWER_CAP_SET (R144). -/
def execPowerCapSet (p : Packet) (s : State) : Answered := s.act fun s => s.submit (p.op 0x60) none none

/-- TELEMETRY_READ (R529). -/
def execTelemetryRead (p : Packet) (s : State) : Answered := s.act fun s => s.submit (p.op 0x61) none none

/-- ENERGY_READ (R144). -/
def execEnergyRead (p : Packet) (s : State) : Answered := s.act fun s => s.submit (p.op 0x62) none none

/-- SEQ_READ (R412). -/
def execSeqRead (p : Packet) (s : State) : Answered := s.act fun s => s.submit ((p.op 0x70).pattern 1) none none

/-- RANDOM_2K_READ (R412). -/
def execRandom2kRead (p : Packet) (s : State) : Answered := s.act fun s => s.submit ((p.op 0x70).pattern 2) none none

/-- RANDOM_64_READ (R412). -/
def execRandom64Read (p : Packet) (s : State) : Answered := s.act fun s => s.submit ((p.op 0x70).pattern 3) none none

/-- SEQ_WRITE_CHECK (R412). -/
def execSeqWriteCheck (p : Packet) (s : State) : Answered := s.act fun s => s.submit ((p.op 0x70).pattern 4) none none

/-- MIXED_CHECK (R412). -/
def execMixedCheck (p : Packet) (s : State) : Answered := s.act fun s => s.submit ((p.op 0x70).pattern 5) none none

/-- NBU_READ (R412). -/
def execNbuRead (p : Packet) (s : State) : Answered := s.act fun s => s.submit ((p.op 0x70).pattern 6) none none

/-- RETRAIN (R411). -/
def execRetrain (p : Packet) (s : State) : Answered := s.act fun s => s.submit ((p.op 0x70).pattern 7) none none

/-- PRBS31Q (R471). -/
def execPrbs31q (p : Packet) (s : State) : Answered := s.act fun s => s.submit ((p.op 0x71).pattern 1) none none

/-- PRBS13Q (R471). -/
def execPrbs13q (p : Packet) (s : State) : Answered := s.act fun s => s.submit ((p.op 0x71).pattern 2) none none

/-- SSPRQ (R471). -/
def execSsprq (p : Packet) (s : State) : Answered := s.act fun s => s.submit ((p.op 0x71).pattern 3) none none

/-- FRAME_LOOP (R471). -/
def execFrameLoop (p : Packet) (s : State) : Answered := s.act fun s => s.submit ((p.op 0x71).pattern 4) none none

/-- LINK_TEST_RETRAIN (R471). -/
def execLinkTestRetrain (p : Packet) (s : State) : Answered := s.act fun s => s.submit ((p.op 0x71).pattern 5) none none

/-- SELFTEST (R610). -/
def execSelftest (p : Packet) (s : State) : Answered := s.act fun s => s.submit (p.op 0x72) none none

end Sys2Proof.Machine
end

