-- ==== Sys2Proof/Machine/Schedule.lean ====
section
/-!
DEFINITION. The commands of the schedule and the Meridian unit (R35, R39 to R42, R51 to R59, R90, R463, R464), each with what
follows for the packets that wait.
-/

namespace Sys2Proof.Machine

/-! ### Furrows -/

/-- START_TURNAROUND (R41). -/
def execStartTurnaround (s : State) : Answered := s.act State.startTurn

/-- FURROW_BODY_START (R40). -/
def execFurrowBodyStart (s : State) : Answered := s.act State.bodyStart

/-- LATE_STEP_CHECK (R51). -/
def execLateStepCheck (s : State) : Answered := s.act State.lateCheck

/-- BEACON_DEADLINE (R53). -/
def execBeaconDeadline (s : State) : Answered := s.act State.beaconsDue

/-- RELAY_SEND (R52). -/
def execRelaySend (s : State) : Answered := s.act State.sendRelay

/-- RELAY_DEADLINE (R53). -/
def execRelayDeadline (s : State) : Answered := s.act State.relaysDue

/-- ECHO_SEND (R52). -/
def execEchoSend (s : State) : Answered := s.act State.sendEcho

/-- FALLOW_DECISION (R54). -/
def execFallowDecision (s : State) : Answered := s.act State.decideFallow

/-- SCHEDULE_COLLAPSE (R58). -/
def execScheduleCollapse (s : State) : Answered := s.act State.collapse

/-- BEACON_SEND (R39): outside RUNNING and FALLOW. -/
def execBeaconSend (s : State) : Answered := s.act fun s => if s.inSchedule then s else s.sendBeacon

/-- BEACON (R463). -/
def execBeaconFrame (port : Nat) (f : Frame) (fixed : Nat) (s : State) : Answered :=
  s.act fun s => s.receive port { f with type := fBeacon } fixed fun s => s.beaconIn port f.flit

/-- RELAY (R464). -/
def execRelayFrame (port : Nat) (f : Frame) (fixed : Nat) (s : State) : Answered :=
  s.act fun s => s.receive port { f with type := fRelay } fixed fun s => s.relayIn port f.flit

/-- TURNAROUND (R59). -/
def execTurnaround (s : State) : Answered := s.act State.turn

/-- STOP_HEADLAND_END (R42). -/
def execStopHeadlandEnd (s : State) : Answered := s.act State.stopEnds

/-- T0 (R41). -/
def execT0Msg (port frags : Nat) (m : CtrlMsg) (s : State) : Answered :=
  s.act fun s => s.ctrlIn port frags m fun s => match m.body with
    | .t0 t0 k0 => s.t0In t0 k0
    | _ => s

/-- LANE_TABLE (R90). -/
def execLaneTable (port frags : Nat) (m : CtrlMsg) (s : State) : Answered :=
  s.act fun s => s.ctrlIn port frags m fun s => match m.body with
    | .laneTable t => s.laneTableIn m.src t
    | _ => s

/-- LANE_ACK (R90). -/
def execLaneAck (port frags : Nat) (m : CtrlMsg) (s : State) : Answered :=
  s.act fun s => s.ctrlIn port frags m fun s => match m.body with
    | .laneAck i k used far => s.laneAckIn m.src i k used far
    | _ => s

/-- LANE_ACCEPT (R90). -/
def execLaneAccept (port frags : Nat) (m : CtrlMsg) (s : State) : Answered :=
  s.act fun s => s.ctrlIn port frags m fun s => match m.body with
    | .laneAccept i k => s.laneAcceptIn i k
    | _ => s

/-- LANE_DISCARD (R90). -/
def execLaneDiscard (port frags : Nat) (m : CtrlMsg) (s : State) : Answered :=
  s.act fun s => s.ctrlIn port frags m fun s => match m.body with
    | .laneDiscard i _ l => s.laneDiscardIn i l
    | _ => s

/-! ### Meridian unit -/

/-- MISSING_MARK (R35). -/
def execMissingMark (s : State) : Answered := s.act State.missMark

/-- LOCK_LOSS (R35): a third consecutive excursion, after two. -/
def execLockLoss (s : State) : Answered :=
  s.act fun s =>
    if s.mrdState == mrdLocked && decide (2 ≤ s.mrd.excursions) then (s.bump R.MRD_COUNTS.PHASE_EXCURSIONS).unlock else s

/-- HOLDOVER_EXHAUSTED (R35): one missing mark more than HOLDOVER_MARKS. -/
def execHoldoverExhausted (s : State) : Answered :=
  s.act fun s =>
    if s.mrdState == mrdHoldover && decide (s.get R.MRD_CTRL.HOLDOVER_MARKS ≤ s.get R.MRD_STATUS.MISSED_MARKS) then s.unlock else s

/-- MERID_CLK_LOSS. -/
def execMeridClkLoss (s : State) : Answered := s.act State.clockLost

/-- MERID_PLL_LOCK. -/
def execMeridPllLock (s : State) : Answered := s.act State.pllLock

end Sys2Proof.Machine
end

