-- ==== Sys2Proof/Machine/Secure.lean ====
section
/-!
DEFINITION. The security block's protocols (R493 to R495, R543, R544, R550 to R552, R607, spec/14_cxl_ports.md, 16_security.md): the
primary mailbox, SPDM over DOE and the sideband, IDE key management, and the CDAT.
-/

namespace Sys2Proof.Machine

/-! ### Firmware over the primary mailbox (R543, R544) -/

/-- The mailbox answers: with the firmware, or in recovery with the ROM. -/
def State.mailReady (s : State) : Bool := s.hostReaches && (s.isSet R.GLB_READY.BOOT_OK || s.sec.recovery)

/-- Get FW Info: one slot, active while the firmware runs. -/
def State.fwInfo (s : State) : State :=
  s.emit (.fwInfo 1 (b2n (s.isSet R.GLB_READY.BOOT_OK)) ((s.sec.fwSlot.map SignedObj.build).getD 0))

/-- A transfer is whole: an image that R539 accepts is written to the flash (R544). -/
def State.transferEnd (s : State) (b : Bytes) (verified : Bool) (build : Nat) : State :=
  let s := { s with sec := { s.sec with transfer := none } }
  let o : SignedObj := ⟨b, verified, build, 0, 0, none⟩
  if objAccepted 1 (s.floorOf 1) o then ({ s with sec := { s.sec with fwSlot := some o } }).emit (.mailbox .success)
  else s.emit (.mailbox .authFailed)

/-- Transfer FW: offsets are in 128-byte units, the parts come in order, into slot 1. -/
def State.transferFw (s : State) (part : FwPart) (slot offset : Nat) (data : Bytes) (verified : Bool) (build : Nat) : State :=
  let bad := s.emit (.mailbox .invalidInput)
  let fits := fun (b : Bytes) => decide (b.length + data.length ≤ 8405716) && offset * 128 == b.length
  if slot != 1 then bad
  else match part, s.sec.transfer with
    | .full, none => if fits [] then s.transferEnd data verified build else bad
    | .first, none =>
      if fits [] then ({ s with sec := { s.sec with transfer := some data } }).emit (.mailbox .success) else bad
    | .full, some _ => s.emit (.mailbox .busy)
    | .first, some _ => s.emit (.mailbox .busy)
    | .next, some b =>
      if fits b then ({ s with sec := { s.sec with transfer := some (b ++ data) } }).emit (.mailbox .success) else bad
    | .last, some b => if fits b then s.transferEnd (b ++ data) verified build else bad
    | .next, none => bad
    | .last, none => bad

/-- Activate FW: online in recovery, where the ROM flow starts again; offline otherwise, from the next reset. -/
def State.activateFw (s : State) (slot : Nat) (online : Bool) : State :=
  if slot != 1 || online != s.sec.recovery then s.emit (.mailbox .invalidInput)
  else ({ s with sec := { s.sec with recovery := false } }).emit (.mailbox .success)

/-! ### SPDM (R550, R551) -/

/-- The responder answers on a transport: 0 the DOE mailbox, 1 the sideband. -/
def State.spdmReady (s : State) (tr : Nat) : Bool :=
  s.isSet R.GLB_READY.BOOT_OK && (tr == 1 || (tr == 0 && s.hostReaches))

def State.answer (s : State) (tr : Nat) (a : SpdmAnswer) : State := s.emit (.spdm tr a)

/-- Free bits of both signatures over a transcript. -/
def State.sign (s : State) : State × Sigs :=
  let a := s.freeVal
  let s := s.draw
  (s.draw, ⟨a, s.freeVal⟩)

/-- A request that comes after version, capabilities and algorithms are agreed; `identity`: it needs the identity keys (R546). -/
def State.whenAgreed (s : State) (tr : Nat) (identity : Bool) (f : State → State) : State :=
  if !s.spdmReady tr then s
  else if Table.get 0 tr s.sec.spdm != 3 || (identity && !s.isSet R.SEC_STATUS.IDENTITY_OK) then s.answer tr .error
  else f s

/-- A step of the negotiation: after the one before it. -/
def State.agree (s : State) (tr after : Nat) (a : SpdmAnswer) : State :=
  if !s.spdmReady tr then s
  else if Table.get 0 tr s.sec.spdm < after then s.answer tr .error
  else ({ s with sec := { s.sec with spdm := Table.set 0 tr (after + 1) s.sec.spdm } }).answer tr a

/-- The certificate chain of a slot. -/
def State.chain (s : State) (slot : Nat) : Option Bytes := (s.sec.char.bind SignedObj.char).bind fun c => c.chains[slot]?

/-- The measurement blocks (R551). -/
def State.measurements (s : State) : List (Nat × Bytes) :=
  let signed := fun (b : Bytes) => b.take (64 + objBody b)
  let ids := (s.sec.keys.filterMap fun e => e.2.map fun k => leBytes 1 e.1 ++ leBytes 4 k.1).flatten
  let hash := fun (o : Option SignedObj) (f : Bytes → Bytes) => (o.map fun x => sha384 (f x.bytes)).getD []
  [(1, leBytes 48 Config.romId), (2, hash s.sec.running signed), (3, hash s.sec.char id), (4, hash s.sec.floor id),
    (5, leBytes 8 (s.get R.CFG_STATUS.ACTIVE_EPOCH) ++ leBytes 8 (s.get R.CFG_DIGEST.ACTIVE_DIGEST)),
    (6, leBytes 2 (s.get R.SEC_PROT.PARTITIONS) ++ ids)]

/-- A session is open on a transport. -/
def State.inSession (s : State) (tr id : Nat) : Bool := s.sec.sessions.contains (tr, id)

/-- SESSIONS shows the open sessions (R564). -/
def State.countSessions (s : State) : State := s.put R.SEC_STATUS.SESSIONS s.sec.sessions.length

/-- KEY_EXCHANGE: at most 8 sessions (R564). -/
def State.keyExchange (s : State) (tr id : Nat) : State :=
  s.whenAgreed tr true fun s =>
    if 8 ≤ s.sec.sessions.length + s.sec.handshakes.length || s.inSession tr id || s.sec.handshakes.contains (tr, id) then
      s.answer tr .error
    else
      let (s, g) := s.sign
      ({ s with sec := { s.sec with handshakes := s.sec.handshakes ++ [(tr, id)] } }).answer tr (.keyExchange id g)

/-- FINISH: the session is open where the requester's proof verifies. -/
def State.finishSession (s : State) (tr id : Nat) (ok : Bool) : State :=
  s.whenAgreed tr false fun s =>
    if !s.sec.handshakes.contains (tr, id) then s.answer tr .error
    else
      let s := { s with sec := { s.sec with handshakes := s.sec.handshakes.erase (tr, id) } }
      if ok then (({ s with sec := { s.sec with sessions := s.sec.sessions ++ [(tr, id)] } }).countSessions).answer tr (.finished id)
      else s.answer tr .error

/-- A request inside an open session. -/
def State.withSession (s : State) (tr id : Nat) (f : State → State) : State :=
  if !s.spdmReady tr then s else if s.inSession tr id then f s else s.answer tr .error

/-- END_SESSION. -/
def State.endSession (s : State) (tr id : Nat) : State :=
  s.withSession tr id fun s =>
    (({ s with sec := { s.sec with sessions := s.sec.sessions.erase (tr, id) } }).countSessions).answer tr (.ended id)

/-! ### Vendor-defined requests (R552, R607) -/

/-- SET_INSTANCE_KEY: 256 bits and a 4-byte identifier for an instance. -/
def State.setInstanceKey (s : State) (tr id inst keyId key : Nat) : State :=
  s.withSession tr id fun s =>
    if 16 ≤ inst then s.answer tr .error
    else
      let k := some (keyId % 2 ^ 32, key % 2 ^ 256)
      ({ s with sec := { s.sec with keys := Table.insert inst k s.sec.keys } }).answer tr .vendor

/-- The floor record slot that does not hold the active record. -/
def State.freeFloorSlot (s : State) : Nat :=
  match s.sec.floor with
  | some o => if Table.get none 0 s.sec.floorSlots == some o then 1 else 0
  | none => 0

/-- SET_FLOOR: a record that R539 accepts is written to the flash. -/
def State.setFloor (s : State) (tr id : Nat) (o : SignedObj) : State :=
  s.withSession tr id fun s =>
    if objAccepted 3 0 o then
      ({ s with sec := { s.sec with floorSlots := Table.insert s.freeFloorSlot (some o) s.sec.floorSlots } }).answer tr .vendor
    else s.answer tr .error

/-! ### IDE and the CDAT (R493, R495) -/

/-- CXL_IDE_KM inside a session over DOE: a stream, 0 CXL.io or 1 CXL.cachemem, starts or stops; the host selects skid mode. -/
def State.ideKm (s : State) (id stream : Nat) (go skid : Bool) : State :=
  if !s.spdmReady 0 then s
  else if !s.inSession 0 id || decide (1 < stream) then s.emit (.ideKm false)
  else
    let s := if stream == 0 then s.putBit R.CXLU_STATUS.IDE_IO go
      else (s.putBit R.CXLU_STATUS.IDE_CM go).putBit R.CXLU_STATUS.SKID (go && skid)
    (s.emit (.ideKm true)).reopen

/-- The CDAT. -/
def cdat : List CdatEntry :=
  [.dsmas 0 0 0xC000000000 true, .dslbis 0 false false 370, .dslbis 0 true false 310, .dslbis 0 false true 5500,
    .dslbis 0 true true 6600, .dsemtsReserved 0]

/-! ### The commands -/

/-- GET_FW_INFO (R543). -/
def execGetFwInfo (s : State) : Answered := s.whenAlive fun s => if s.mailReady then s.fwInfo else s

/-- TRANSFER_FW (R544); `verified` and `build` of the whole image. -/
def execTransferFw (part : FwPart) (slot offset : Nat) (data : Bytes) (verified : Bool) (build : Nat) (s : State) : Answered :=
  s.whenAlive fun s => if s.mailReady then s.transferFw part slot offset data verified build else s

/-- ACTIVATE_FW (R544). -/
def execActivateFw (slot : Nat) (online : Bool) (s : State) : Answered :=
  s.whenAlive fun s => if s.mailReady then s.activateFw slot online else s

/-- GET_VERSION (R550). -/
def execGetVersion (transport : Nat) (s : State) : Answered := s.whenAlive fun s => s.agree transport 0 (.version [0x12, 0x13])

/-- GET_CAPABILITIES (R550). -/
def execGetCapabilities (transport : Nat) (s : State) : Answered := s.whenAlive fun s => s.agree transport 1 .capabilities

/-- NEGOTIATE_ALGORITHMS (R550). -/
def execNegotiateAlgorithms (transport : Nat) (s : State) : Answered := s.whenAlive fun s => s.agree transport 2 .algorithms

/-- GET_DIGESTS (R550). -/
def execGetDigests (transport : Nat) (s : State) : Answered :=
  s.whenAlive fun s => s.whenAgreed transport true fun s =>
    s.answer transport (.digests ([0, 1].filterMap fun k => (s.chain k).map sha384))

/-- GET_CERTIFICATE (R550): slot 0 holds the RSA chain, slot 1 the SLH-DSA chain. -/
def execGetCertificate (transport slot : Nat) (s : State) : Answered :=
  s.whenAlive fun s => s.whenAgreed transport true fun s =>
    match s.chain slot with
    | some c => s.answer transport (.certificate slot c)
    | none => s.answer transport .error

/-- CHALLENGE (R551): answered with both signatures. -/
def execChallenge (transport slot : Nat) (s : State) : Answered :=
  s.whenAlive fun s => s.whenAgreed transport true fun s =>
    if (s.chain slot).isNone then s.answer transport .error
    else
      let (s, g) := s.sign
      s.answer transport (.challengeAuth slot g)

/-- GET_MEASUREMENTS (R551): one block or all, signed or not. -/
def execGetMeasurements (transport : Nat) (index : Option Nat) (signed : Bool) (s : State) : Answered :=
  s.whenAlive fun s => s.whenAgreed transport signed fun s =>
    let l := s.measurements.filter fun e => index.isNone || index == some e.1
    if l.isEmpty then s.answer transport .error
    else if signed then
      let (s, g) := s.sign
      s.answer transport (.measurements l (some g))
    else s.answer transport (.measurements l none)

/-- KEY_EXCHANGE (R551): answered with both signatures. -/
def execKeyExchange (transport session : Nat) (s : State) : Answered := s.whenAlive fun s => s.keyExchange transport session

/-- FINISH (R550). -/
def execFinish (transport session : Nat) (ok : Bool) (s : State) : Answered :=
  s.whenAlive fun s => s.finishSession transport session ok

/-- KEY_UPDATE (R550). -/
def execKeyUpdate (transport session : Nat) (s : State) : Answered :=
  s.whenAlive fun s => s.withSession transport session fun s => s.answer transport (.keyUpdated session)

/-- HEARTBEAT (R550). -/
def execHeartbeat (transport session : Nat) (s : State) : Answered :=
  s.whenAlive fun s => s.withSession transport session fun s => s.answer transport (.alive session)

/-- END_SESSION (R550). -/
def execEndSession (transport session : Nat) (s : State) : Answered := s.whenAlive fun s => s.endSession transport session

/-- SET_INSTANCE_KEY (R552). -/
def execSetInstanceKey (transport session inst keyId key : Nat) (s : State) : Answered :=
  s.whenAlive fun s => s.setInstanceKey transport session inst keyId key

/-- SET_FLOOR (R607). -/
def execSetFloor (transport session : Nat) (record : SignedObj) (s : State) : Answered :=
  s.whenAlive fun s => s.setFloor transport session record

/-- CXL_IDE_KM (R493). -/
def execCxlIdeKm (session stream : Nat) (go skid : Bool) (s : State) : Answered :=
  s.act fun s => s.ideKm session stream go skid

/-- TABLE_ACCESS (R495). -/
def execTableAccess (s : State) : Answered := s.whenAlive fun s => if s.hostReaches then s.emit (.cdat cdat) else s

end Sys2Proof.Machine
end

