-- ==== Sys2Proof/Machine/Dispatch.lean ====
section
/-!
DEFINITION. One arm per command: the meaning that runs.
-/

namespace Sys2Proof.Machine

def exec (i : Instr) (s : State) : Host.Outcome State Fault Refusal :=
  match i with
  | .identify p => Sys2Proof.Machine.execIdentify p s
  | .geometryGet p => Sys2Proof.Machine.execGeometryGet p s
  | .cfgStage p pay => Sys2Proof.Machine.execCfgStage p pay s
  | .cfgStageDiscard p => Sys2Proof.Machine.execCfgStageDiscard p s
  | .cfgCommit p => Sys2Proof.Machine.execCfgCommit p s
  | .cfgCommitCluster p => Sys2Proof.Machine.execCfgCommitCluster p s
  | .cfgDigest p => Sys2Proof.Machine.execCfgDigest p s
  | .clusterForm p pay => Sys2Proof.Machine.execClusterForm p pay s
  | .fence p => Sys2Proof.Machine.execFence p s
  | .rejoin p => Sys2Proof.Machine.execRejoin p s
  | .rejoinEngine p => Sys2Proof.Machine.execRejoinEngine p s
  | .resetPartition p => Sys2Proof.Machine.execResetPartition p s
  | .meridianSet p => Sys2Proof.Machine.execMeridianSet p s
  | .furrowPlanLoad p pay => Sys2Proof.Machine.execFurrowPlanLoad p pay s
  | .furrowStart p => Sys2Proof.Machine.execFurrowStart p s
  | .furrowStop p => Sys2Proof.Machine.execFurrowStop p s
  | .modelLoad p img => Sys2Proof.Machine.execModelLoad p img s
  | .modelUnload p => Sys2Proof.Machine.execModelUnload p s
  | .planLoad p => Sys2Proof.Machine.execPlanLoad p s
  | .adapterLoad p => Sys2Proof.Machine.execAdapterLoad p s
  | .adapterRetire p => Sys2Proof.Machine.execAdapterRetire p s
  | .prefixCreate p => Sys2Proof.Machine.execPrefixCreate p s
  | .prefixRelease p => Sys2Proof.Machine.execPrefixRelease p s
  | .kvImport p => Sys2Proof.Machine.execKvImport p s
  | .kvExport p => Sys2Proof.Machine.execKvExport p s
  | .seqOpen p => Sys2Proof.Machine.execSeqOpen p s
  | .seqAppend p pay => Sys2Proof.Machine.execSeqAppend p pay s
  | .seqGenerate p pay => Sys2Proof.Machine.execSeqGenerate p pay s
  | .seqCancel p => Sys2Proof.Machine.execSeqCancel p s
  | .seqClose p => Sys2Proof.Machine.execSeqClose p s
  | .tenantSet p => Sys2Proof.Machine.execTenantSet p s
  | .hintPacket p => Sys2Proof.Machine.execHintPacket p s
  | .powerCapSet p => Sys2Proof.Machine.execPowerCapSet p s
  | .telemetryRead p => Sys2Proof.Machine.execTelemetryRead p s
  | .energyRead p => Sys2Proof.Machine.execEnergyRead p s
  | .seqRead p => Sys2Proof.Machine.execSeqRead p s
  | .random2kRead p => Sys2Proof.Machine.execRandom2kRead p s
  | .random64Read p => Sys2Proof.Machine.execRandom64Read p s
  | .seqWriteCheck p => Sys2Proof.Machine.execSeqWriteCheck p s
  | .mixedCheck p => Sys2Proof.Machine.execMixedCheck p s
  | .nbuRead p => Sys2Proof.Machine.execNbuRead p s
  | .retrain p => Sys2Proof.Machine.execRetrain p s
  | .trafficGenEnd stack count mismatches uncorrectable firstPc left => Sys2Proof.Machine.execTrafficGenEnd stack count mismatches uncorrectable firstPc left s
  | .prbs31q p => Sys2Proof.Machine.execPrbs31q p s
  | .prbs13q p => Sys2Proof.Machine.execPrbs13q p s
  | .ssprq p => Sys2Proof.Machine.execSsprq p s
  | .frameLoop p => Sys2Proof.Machine.execFrameLoop p s
  | .linkTestRetrain p => Sys2Proof.Machine.execLinkTestRetrain p s
  | .linkTestEnd port checked errors lanes => Sys2Proof.Machine.execLinkTestEnd port checked errors lanes s
  | .selftest p => Sys2Proof.Machine.execSelftest p s
  | .selftestDone results left => Sys2Proof.Machine.execSelftestDone results left s
  | .sqTailDoorbell ring index => Sys2Proof.Machine.execSqTailDoorbell ring index s
  | .cqHeadDoorbell ring index => Sys2Proof.Machine.execCqHeadDoorbell ring index s
  | .trHeadDoorbell ring index => Sys2Proof.Machine.execTrHeadDoorbell ring index s
  | .ringCtrlWrite kind ring value => Sys2Proof.Machine.execRingCtrlWrite kind ring value s
  | .registerWrite host size offset value => Sys2Proof.Machine.execRegisterWrite host size offset value s
  | .directListGo tile => Sys2Proof.Machine.execDirectListGo tile s
  | .seqCtrlModeWrite tile mode => Sys2Proof.Machine.execSeqCtrlModeWrite tile mode s
  | .spareReq tile logical => Sys2Proof.Machine.execSpareReq tile logical s
  | .segPowerWrite tile ts sp => Sys2Proof.Machine.execSegPowerWrite tile ts sp s
  | .instHealthClear inst => Sys2Proof.Machine.execInstHealthClear inst s
  | .evlogSelWrite seq => Sys2Proof.Machine.execEvlogSelWrite seq s
  | .atomAdd route => Sys2Proof.Machine.execAtomAdd route s
  | .atomMin route => Sys2Proof.Machine.execAtomMin route s
  | .atomMax route => Sys2Proof.Machine.execAtomMax route s
  | .minu route => Sys2Proof.Machine.execMinu route s
  | .maxu route => Sys2Proof.Machine.execMaxu route s
  | .cas route => Sys2Proof.Machine.execCas route s
  | .refInc route => Sys2Proof.Machine.execRefInc route s
  | .refDec route => Sys2Proof.Machine.execRefDec route s
  | .descriptorIssue tile => Sys2Proof.Machine.execDescriptorIssue tile s
  | .matmul tile unit rep mem => Sys2Proof.Machine.execMatmul tile unit rep mem s
  | .chainLinkAdd tile unit reports => Sys2Proof.Machine.execChainLinkAdd tile unit reports s
  | .writeOutTimeout tile unit => Sys2Proof.Machine.execWriteOutTimeout tile unit s
  | .plotRefetchDone tile unit => Sys2Proof.Machine.execPlotRefetchDone tile unit s
  | .vecCopy tile stalls mem => Sys2Proof.Machine.execVecCopy tile stalls mem s
  | .vecAdd tile stalls mem => Sys2Proof.Machine.execVecAdd tile stalls mem s
  | .vecSub tile stalls mem => Sys2Proof.Machine.execVecSub tile stalls mem s
  | .vecMul tile stalls mem => Sys2Proof.Machine.execVecMul tile stalls mem s
  | .fma tile stalls mem => Sys2Proof.Machine.execFma tile stalls mem s
  | .axpb tile stalls mem => Sys2Proof.Machine.execAxpb tile stalls mem s
  | .vecMax tile stalls mem => Sys2Proof.Machine.execVecMax tile stalls mem s
  | .vecMin tile stalls mem => Sys2Proof.Machine.execVecMin tile stalls mem s
  | .mulrow tile stalls mem => Sys2Proof.Machine.execMulrow tile stalls mem s
  | .divrow tile stalls mem => Sys2Proof.Machine.execDivrow tile stalls mem s
  | .rowsum tile stalls mem => Sys2Proof.Machine.execRowsum tile stalls mem s
  | .rowmax tile stalls mem => Sys2Proof.Machine.execRowmax tile stalls mem s
  | .rowamax tile stalls mem => Sys2Proof.Machine.execRowamax tile stalls mem s
  | .actTable tile stalls mem => Sys2Proof.Machine.execActTable tile stalls mem s
  | .gateTable tile stalls mem => Sys2Proof.Machine.execGateTable tile stalls mem s
  | .exprow tile stalls mem => Sys2Proof.Machine.execExprow tile stalls mem s
  | .rmsnorm tile stalls mem => Sys2Proof.Machine.execRmsnorm tile stalls mem s
  | .layernorm tile stalls mem => Sys2Proof.Machine.execLayernorm tile stalls mem s
  | .quantI8s tile stalls mem => Sys2Proof.Machine.execQuantI8s tile stalls mem s
  | .quantI8a tile stalls mem => Sys2Proof.Machine.execQuantI8a tile stalls mem s
  | .quantFp8 tile stalls mem => Sys2Proof.Machine.execQuantFp8 tile stalls mem s
  | .rescaleTab tile stalls mem => Sys2Proof.Machine.execRescaleTab tile stalls mem s
  | .rescaleReg tile stalls mem => Sys2Proof.Machine.execRescaleReg tile stalls mem s
  | .rescaleFp tile stalls mem => Sys2Proof.Machine.execRescaleFp tile stalls mem s
  | .wireQ8 tile stalls mem => Sys2Proof.Machine.execWireQ8 tile stalls mem s
  | .wireFp8 tile stalls mem => Sys2Proof.Machine.execWireFp8 tile stalls mem s
  | .wireWide tile stalls mem => Sys2Proof.Machine.execWireWide tile stalls mem s
  | .widenAdd tile stalls mem => Sys2Proof.Machine.execWidenAdd tile stalls mem s
  | .widenAddF32 tile stalls mem => Sys2Proof.Machine.execWidenAddF32 tile stalls mem s
  | .attend tile clocks reports => Sys2Proof.Machine.execAttend tile clocks reports s
  | .attendMerge run => Sys2Proof.Machine.execAttendMerge run s
  | .sampleLocal tile mem => Sys2Proof.Machine.execSampleLocal tile mem s
  | .sampleFinal tile mem => Sys2Proof.Machine.execSampleFinal tile mem s
  | .copyXfer tile unit mem => Sys2Proof.Machine.execCopyXfer tile unit mem s
  | .stridedCopy tile unit mem => Sys2Proof.Machine.execStridedCopy tile unit mem s
  | .gather tile unit mem => Sys2Proof.Machine.execGather tile unit mem s
  | .zeroFill tile unit mem => Sys2Proof.Machine.execZeroFill tile unit mem s
  | .reduceScatter tile mem => Sys2Proof.Machine.execReduceScatter tile mem s
  | .allGather tile mem => Sys2Proof.Machine.execAllGather tile mem s
  | .allReduce tile mem => Sys2Proof.Machine.execAllReduce tile mem s
  | .broadcast tile mem => Sys2Proof.Machine.execBroadcast tile mem s
  | .oneShotAllToAll tile mem => Sys2Proof.Machine.execOneShotAllToAll tile mem s
  | .ringPass tile mem => Sys2Proof.Machine.execRingPass tile mem s
  | .nbuDesc tile mem => Sys2Proof.Machine.execNbuDesc tile mem s
  | .nbuAtom tile unit rep => Sys2Proof.Machine.execNbuAtom tile unit rep s
  | .nbuChainReceive tile unit crcFails => Sys2Proof.Machine.execNbuChainReceive tile unit crcFails s
  | .waitMeridian tile => Sys2Proof.Machine.execWaitMeridian tile s
  | .waitCounter tile => Sys2Proof.Machine.execWaitCounter tile s
  | .hintDescriptor tile => Sys2Proof.Machine.execHintDescriptor tile s
  | .markDesc tile => Sys2Proof.Machine.execMarkDesc tile s
  | .failureNotice tile => Sys2Proof.Machine.execFailureNotice tile s
  | .meridMarkEdge => Sys2Proof.Machine.execMeridMarkEdge s
  | .missingMark => Sys2Proof.Machine.execMissingMark s
  | .lockLoss => Sys2Proof.Machine.execLockLoss s
  | .holdoverExhausted => Sys2Proof.Machine.execHoldoverExhausted s
  | .meridClkLoss => Sys2Proof.Machine.execMeridClkLoss s
  | .meridPllLock => Sys2Proof.Machine.execMeridPllLock s
  | .localMillisecond => Sys2Proof.Machine.execLocalMillisecond s
  | .startTurnaround => Sys2Proof.Machine.execStartTurnaround s
  | .furrowBodyStart => Sys2Proof.Machine.execFurrowBodyStart s
  | .lateStepCheck => Sys2Proof.Machine.execLateStepCheck s
  | .beaconDeadline => Sys2Proof.Machine.execBeaconDeadline s
  | .relaySend => Sys2Proof.Machine.execRelaySend s
  | .relayDeadline => Sys2Proof.Machine.execRelayDeadline s
  | .echoSend => Sys2Proof.Machine.execEchoSend s
  | .fallowDecision => Sys2Proof.Machine.execFallowDecision s
  | .scheduleCollapse => Sys2Proof.Machine.execScheduleCollapse s
  | .beaconSend => Sys2Proof.Machine.execBeaconSend s
  | .headlandStart fits => Sys2Proof.Machine.execHeadlandStart fits s
  | .laneTableDeadline => Sys2Proof.Machine.execLaneTableDeadline s
  | .turnaround => Sys2Proof.Machine.execTurnaround s
  | .laneExhausted seqId => Sys2Proof.Machine.execLaneExhausted seqId s
  | .instanceDegraded inst => Sys2Proof.Machine.execInstanceDegraded inst s
  | .phasePreposition inst phase => Sys2Proof.Machine.execPhasePreposition inst phase s
  | .phaseLevelApply inst phase => Sys2Proof.Machine.execPhaseLevelApply inst phase s
  | .guardRemove => Sys2Proof.Machine.execGuardRemove s
  | .idleCapStep => Sys2Proof.Machine.execIdleCapStep s
  | .powerSample rails shares => Sys2Proof.Machine.execPowerSample rails shares s
  | .currentLimitStep tile => Sys2Proof.Machine.execCurrentLimitStep tile s
  | .vrAlertFall input => Sys2Proof.Machine.execVrAlertFall input s
  | .vrAlertRise input => Sys2Proof.Machine.execVrAlertRise input s
  | .vrAlertHoldExpiry => Sys2Proof.Machine.execVrAlertHoldExpiry s
  | .droopTrip tile => Sys2Proof.Machine.execDroopTrip tile s
  | .droopSkipStart tile => Sys2Proof.Machine.execDroopSkipStart tile s
  | .droopEnd tile => Sys2Proof.Machine.execDroopEnd tile s
  | .thermalSensorRead tile tj ts => Sys2Proof.Machine.execThermalSensorRead tile tj ts s
  | .thermalThrottleStep tile source down => Sys2Proof.Machine.execThermalThrottleStep tile source down s
  | .stackThermRead stack temp => Sys2Proof.Machine.execStackThermRead stack temp s
  | .refreshInterval stack pc => Sys2Proof.Machine.execRefreshInterval stack pc s
  | .atomBoundary stack pc => Sys2Proof.Machine.execAtomBoundary stack pc s
  | .stackAccess addr write symbols => Sys2Proof.Machine.execStackAccess addr write symbols s
  | .stackLaneMarked stack pc lane => Sys2Proof.Machine.execStackLaneMarked stack pc lane s
  | .stackChannelLost stack pc => Sys2Proof.Machine.execStackChannelLost stack pc s
  | .regionZeroDone stack region => Sys2Proof.Machine.execRegionZeroDone stack region s
  | .granaryAccess addr write tagFault => Sys2Proof.Machine.execGranaryAccess addr write tagFault s
  | .granaryFillDone tile line poison => Sys2Proof.Machine.execGranaryFillDone tile line poison s
  | .scrub tile scratch found => Sys2Proof.Machine.execScrub tile scratch found s
  | .segmentWakeDone tile segment => Sys2Proof.Machine.execSegmentWakeDone tile segment s
  | .segmentOnDone tile segment => Sys2Proof.Machine.execSegmentOnDone tile segment s
  | .idleFrame port f fixed => Sys2Proof.Machine.execIdleFrame port f fixed s
  | .dataFrame port f fixed full tagOk => Sys2Proof.Machine.execDataFrame port f fixed full tagOk s
  | .startFrame port f fixed => Sys2Proof.Machine.execStartFrame port f fixed s
  | .beaconFrame port f fixed => Sys2Proof.Machine.execBeaconFrame port f fixed s
  | .relayFrame port f fixed => Sys2Proof.Machine.execRelayFrame port f fixed s
  | .nakFrame port f fixed => Sys2Proof.Machine.execNakFrame port f fixed s
  | .trainFrame port serial peerPort mode => Sys2Proof.Machine.execTrainFrame port serial peerPort mode s
  | .replayTimeout port => Sys2Proof.Machine.execReplayTimeout port s
  | .linkRetrain port => Sys2Proof.Machine.execLinkRetrain port s
  | .peerDetect port => Sys2Proof.Machine.execPeerDetect port s
  | .linkTrainDone port ok => Sys2Proof.Machine.execLinkTrainDone port ok s
  | .linkPeerLost port => Sys2Proof.Machine.execLinkPeerLost port s
  | .ackMsg port frags m => Sys2Proof.Machine.execAckMsg port frags m s
  | .fwdCmd port frags m => Sys2Proof.Machine.execFwdCmd port frags m s
  | .completionMsg port frags m => Sys2Proof.Machine.execCompletionMsg port frags m s
  | .laneTable port frags m => Sys2Proof.Machine.execLaneTable port frags m s
  | .laneAck port frags m => Sys2Proof.Machine.execLaneAck port frags m s
  | .laneAccept port frags m => Sys2Proof.Machine.execLaneAccept port frags m s
  | .laneDiscard port frags m => Sys2Proof.Machine.execLaneDiscard port frags m s
  | .cfgPrepare port frags m => Sys2Proof.Machine.execCfgPrepare port frags m s
  | .cfgReady port frags m => Sys2Proof.Machine.execCfgReady port frags m s
  | .cfgConflictReply port frags m => Sys2Proof.Machine.execCfgConflictReply port frags m s
  | .cfgCommitGo port frags m => Sys2Proof.Machine.execCfgCommitGo port frags m s
  | .cfgAbort port frags m => Sys2Proof.Machine.execCfgAbort port frags m s
  | .cfgDecisionTimeout => Sys2Proof.Machine.execCfgDecisionTimeout s
  | .t0Msg port frags m => Sys2Proof.Machine.execT0Msg port frags m s
  | .tokensMsg port frags m => Sys2Proof.Machine.execTokensMsg port frags m s
  | .fencedMsg port frags m => Sys2Proof.Machine.execFencedMsg port frags m s
  | .failureStepNotice port frags m => Sys2Proof.Machine.execFailureStepNotice port frags m s
  | .failurePeerSilent port frags m => Sys2Proof.Machine.execFailurePeerSilent port frags m s
  | .failureSelfFence port frags m => Sys2Proof.Machine.execFailureSelfFence port frags m s
  | .failureErrorRecord port frags m => Sys2Proof.Machine.execFailureErrorRecord port frags m s
  | .controlResend dst msgId => Sys2Proof.Machine.execControlResend dst msgId s
  | .peerDeclaredDead device => Sys2Proof.Machine.execPeerDeclaredDead device s
  | .membershipApply => Sys2Proof.Machine.execMembershipApply s
  | .clusterDivergent device => Sys2Proof.Machine.execClusterDivergent device s
  | .leadLost => Sys2Proof.Machine.execLeadLost s
  | .dissolve => Sys2Proof.Machine.execDissolve s
  | .watchdogExpiry => Sys2Proof.Machine.execWatchdogExpiry s
  | .controlFault cause addr => Sys2Proof.Machine.execControlFault cause addr s
  | .adapterRoom inst id ver => Sys2Proof.Machine.execAdapterRoom inst id ver s
  | .adapterVerifyDone inst id ver => Sys2Proof.Machine.execAdapterVerifyDone inst id ver s
  | .adapterTimeout inst id ver => Sys2Proof.Machine.execAdapterTimeout inst id ver s
  | .spillCopyDone tile addr => Sys2Proof.Machine.execSpillCopyDone tile addr s
  | .memrd tag offset symbols => Sys2Proof.Machine.execMemrd tag offset symbols s
  | .memrddata tag offset symbols => Sys2Proof.Machine.execMemrddata tag offset symbols s
  | .memwr tag offset data => Sys2Proof.Machine.execMemwr tag offset data s
  | .memwrptl tag offset data enable => Sys2Proof.Machine.execMemwrptl tag offset data enable s
  | .m2sUnsupported tag => Sys2Proof.Machine.execM2sUnsupported tag s
  | .h2dSnoop addr => Sys2Proof.Machine.execH2dSnoop addr s
  | .goWritepull vector => Sys2Proof.Machine.execGoWritepull vector s
  | .irqHoldoffExpiry vector => Sys2Proof.Machine.execIrqHoldoffExpiry vector s
  | .busMasterEnableWrite on => Sys2Proof.Machine.execBusMasterEnableWrite on s
  | .functionLevelReset => Sys2Proof.Machine.execFunctionLevelReset s
  | .upstreamLinkDown => Sys2Proof.Machine.execUpstreamLinkDown s
  | .expanderLinkDown port => Sys2Proof.Machine.execExpanderLinkDown port s
  | .sysRstNAssert => Sys2Proof.Machine.execSysRstNAssert s
  | .sysRstNRelease => Sys2Proof.Machine.execSysRstNRelease s
  | .perstNAssert => Sys2Proof.Machine.execPerstNAssert s
  | .perstNRelease => Sys2Proof.Machine.execPerstNRelease s
  | .vsbPowerUp straps => Sys2Proof.Machine.execVsbPowerUp straps s
  | .romBoot flash tests => Sys2Proof.Machine.execRomBoot flash tests s
  | .memoryInitDone found => Sys2Proof.Machine.execMemoryInitDone found s
  | .downstreamEnumeration found => Sys2Proof.Machine.execDownstreamEnumeration found s
  | .getFwInfo => Sys2Proof.Machine.execGetFwInfo s
  | .transferFw part slot offset data verified build => Sys2Proof.Machine.execTransferFw part slot offset data verified build s
  | .activateFw slot online => Sys2Proof.Machine.execActivateFw slot online s
  | .getVersion transport => Sys2Proof.Machine.execGetVersion transport s
  | .getCapabilities transport => Sys2Proof.Machine.execGetCapabilities transport s
  | .negotiateAlgorithms transport => Sys2Proof.Machine.execNegotiateAlgorithms transport s
  | .getDigests transport => Sys2Proof.Machine.execGetDigests transport s
  | .getCertificate transport slot => Sys2Proof.Machine.execGetCertificate transport slot s
  | .challenge transport slot => Sys2Proof.Machine.execChallenge transport slot s
  | .getMeasurements transport index signed => Sys2Proof.Machine.execGetMeasurements transport index signed s
  | .keyExchange transport session => Sys2Proof.Machine.execKeyExchange transport session s
  | .finish transport session ok => Sys2Proof.Machine.execFinish transport session ok s
  | .keyUpdate transport session => Sys2Proof.Machine.execKeyUpdate transport session s
  | .heartbeat transport session => Sys2Proof.Machine.execHeartbeat transport session s
  | .endSession transport session => Sys2Proof.Machine.execEndSession transport session s
  | .setInstanceKey transport session inst keyId key => Sys2Proof.Machine.execSetInstanceKey transport session inst keyId key s
  | .setFloor transport session record => Sys2Proof.Machine.execSetFloor transport session record s
  | .cxlIdeKm session stream go skid => Sys2Proof.Machine.execCxlIdeKm session stream go skid s
  | .tableAccess => Sys2Proof.Machine.execTableAccess s
  | .setdasa staticAddr addr => Sys2Proof.Machine.execSetdasa staticAddr addr s
  | .entdaa addr => Sys2Proof.Machine.execEntdaa addr s
  | .setEndpointId eid => Sys2Proof.Machine.execSetEndpointId eid s
  | .getEndpointId => Sys2Proof.Machine.execGetEndpointId s
  | .getVersionSupport type => Sys2Proof.Machine.execGetVersionSupport type s
  | .getMessageTypeSupport => Sys2Proof.Machine.execGetMessageTypeSupport s
  | .getSensorReading sensor standby => Sys2Proof.Machine.execGetSensorReading sensor standby s
  | .setNumericEffecterValue effecter value => Sys2Proof.Machine.execSetNumericEffecterValue effecter value s
  | .getNumericEffecterValue effecter => Sys2Proof.Machine.execGetNumericEffecterValue effecter s
  | .eventLogRead seq => Sys2Proof.Machine.execEventLogRead seq s
  | .eventLogWrite fails => Sys2Proof.Machine.execEventLogWrite fails s
  | .flashRefreshScan weak => Sys2Proof.Machine.execFlashRefreshScan weak s
  | .tapExtest => Sys2Proof.Machine.execTapExtest s
  | .samplePreload => Sys2Proof.Machine.execSamplePreload s
  | .tapIdcode => Sys2Proof.Machine.execTapIdcode s
  | .tapClamp => Sys2Proof.Machine.execTapClamp s
  | .tapHighz => Sys2Proof.Machine.execTapHighz s
  | .extestPulse => Sys2Proof.Machine.execExtestPulse s
  | .extestTrain => Sys2Proof.Machine.execExtestTrain s
  | .tapBypass code => Sys2Proof.Machine.execTapBypass code s
  | .uncorrectableFrame port => Sys2Proof.Machine.execUncorrectableFrame port s
  | .stopHeadlandEnd => Sys2Proof.Machine.execStopHeadlandEnd s
  | .stackRetrainDone stack spares failed => Sys2Proof.Machine.execStackRetrainDone stack spares failed s
  | .engineBistDone tile ok => Sys2Proof.Machine.execEngineBistDone tile ok s
  | .granaryFlushDone tile => Sys2Proof.Machine.execGranaryFlushDone tile s
  | .collSlotSendTime slot => Sys2Proof.Machine.execCollSlotSendTime slot s
  | .rdcurrCompletion ring data img => Sys2Proof.Machine.execRdcurrCompletion ring data img s
  | .railsRemoved => Sys2Proof.Machine.execRailsRemoved s
  | .upstreamLinkUp width speed => Sys2Proof.Machine.execUpstreamLinkUp width speed s

end Sys2Proof.Machine
end

