-- ==== Sys2Proof/WellFormed.lean ====
section
/-!
DEFINITION. Well-formed commands: every operand lies in the range that the spec gives what it names.  A command that is not
well-formed stands for no event of the device.
-/

namespace Sys2Proof

/-- A packet's fields in their widths (R125). -/
def Packet.wf (p : Packet) : Bool :=
  decide (p.ring < 16) && decide (p.opcode < 256) && decide (p.flags < 256) && decide (p.cls < 256) && decide (p.rsv3 < 256) &&
    decide (p.tag < 2 ^ 32) && decide (p.payloadLen < 2 ^ 32) && decide (p.tenant < 65536) && decide (p.rsv14 < 65536) &&
    decide (p.payloadAddr < 2 ^ 64) && decide (p.p0 < 2 ^ 64) && decide (p.p1 < 2 ^ 64) && decide (p.p2 < 2 ^ 64) &&
    decide (p.p3 < 2 ^ 64) && decide (p.p4 < 2 ^ 64)

/-- A frame's header fields in their widths, and its flit of 256 bytes (R445, R447). -/
def Frame.wf (f : Frame) : Bool :=
  decide (f.type < 16) && decide (f.seq < 1024) && decide (f.ack < 1024) && decide (f.srcTile < 16) && f.flit.length == 256

/-- A control message's header in its widths (R466). -/
def CtrlMsg.wf (m : CtrlMsg) : Bool :=
  decide (m.src < 64) && (decide (m.dst < 64) || m.dst == 0xFF) && decide (m.msgId < 2 ^ 32) && decide (m.epoch < 2 ^ 32)

/-- Words in error lie in the device's address space (R25), and taken banks in a tile. -/
def MemReport.wf (m : MemReport) : Bool := (m.errors.all fun e => decide (e.1 < 2 ^ 48)) && m.conflicts.all fun e => decide (e.1 < 16)

/-- The cause of an engine fault in its 8 bits. -/
def EngineReport.wf (r : EngineReport) : Bool := decide (r.fault < 256)

/-- Plots of a near-bank run by their number; a result is sent at most twice (R419). -/
def NbuReport.wf (r : NbuReport) : Bool := decide (r.crcFails < 3)

/-- How an atomic operation is issued: a tile and a core's window, or an AMO of a core (R384). -/
def AtomRoute.wf : AtomRoute → Bool
  | .window tile core _ => decide (tile < 16) && decide (core < 4)
  | .amo core addr _ _ => decide (core < 4) && decide (addr < 2 ^ 48)

/-- A port, lanes and a speed that CXLD.PORT can show (R507). -/
def Expander.wf (e : Expander) : Bool := decide (e.port < 2) && decide (e.width < 17) && decide (e.speed < 5)

/-- A partition, and the items of R611. -/
def SelfResult.wf (r : SelfResult) : Bool := decide (r.partition < 16) && decide (r.failed < 256)

/-- A value below a bound, where there is one. -/
def optBelow (n : Nat) : Option Nat → Bool
  | some k => decide (k < n)
  | none => true

/-- A write of a stack line brings its 64 bytes. -/
def wholeLine : Option Bytes → Bool
  | some b => b.length == 64
  | none => true

/-- A write of a control core stays inside one line (R377). -/
def insideLine (addr : Nat) : Option Bytes → Bool
  | some b => decide (addr % 64 + b.length ≤ 64)
  | none => true

/-- Every operand of a command lies in its range. -/
def Instr.wf : Instr → Bool
  | .identify p => p.wf
  | .geometryGet p => p.wf
  | .cfgStage p _ => p.wf
  | .cfgStageDiscard p => p.wf
  | .cfgCommit p => p.wf
  | .cfgCommitCluster p => p.wf
  | .cfgDigest p => p.wf
  | .clusterForm p _ => p.wf
  | .fence p => p.wf
  | .rejoin p => p.wf
  | .rejoinEngine p => p.wf
  | .resetPartition p => p.wf
  | .meridianSet p => p.wf
  | .furrowPlanLoad p _ => p.wf
  | .furrowStart p => p.wf
  | .furrowStop p => p.wf
  | .modelLoad p _ => p.wf
  | .modelUnload p => p.wf
  | .planLoad p => p.wf
  | .adapterLoad p => p.wf
  | .adapterRetire p => p.wf
  | .prefixCreate p => p.wf
  | .prefixRelease p => p.wf
  | .kvImport p => p.wf
  | .kvExport p => p.wf
  | .seqOpen p => p.wf
  | .seqAppend p _ => p.wf
  | .seqGenerate p _ => p.wf
  | .seqCancel p => p.wf
  | .seqClose p => p.wf
  | .tenantSet p => p.wf
  | .hintPacket p => p.wf
  | .powerCapSet p => p.wf
  | .telemetryRead p => p.wf
  | .energyRead p => p.wf
  | .seqRead p => p.wf
  | .random2kRead p => p.wf
  | .random64Read p => p.wf
  | .seqWriteCheck p => p.wf
  | .mixedCheck p => p.wf
  | .nbuRead p => p.wf
  | .retrain p => p.wf
  | .trafficGenEnd stack _ _ _ firstPc left =>
    decide (stack < 16) && optBelow 64 firstPc && (left.all fun e => decide (e.1 + e.2.length ≤ 2 ^ 48))
  | .prbs31q p => p.wf
  | .prbs13q p => p.wf
  | .ssprq p => p.wf
  | .frameLoop p => p.wf
  | .linkTestRetrain p => p.wf
  | .linkTestEnd port _ _ lanes => decide (port < 24) && decide (lanes < 256)
  | .selftest p => p.wf
  | .selftestDone results left => results.all SelfResult.wf && (left.all fun e => decide (e.1 + e.2.length ≤ 2 ^ 48))
  | .sqTailDoorbell ring index => decide (ring < 16) && decide (index < 2 ^ 64)
  | .cqHeadDoorbell ring index => decide (ring < 16) && decide (index < 2 ^ 64)
  | .trHeadDoorbell ring index => decide (ring < 256) && decide (index < 2 ^ 64)
  | .ringCtrlWrite kind ring value => decide (kind < 3) && decide (ring < 256) && decide (value < 2 ^ 64)
  | .registerWrite _ _ offset value => decide (offset < 0x10000000) && decide (value < 2 ^ 64)
  | .directListGo tile => decide (tile < 16)
  | .seqCtrlModeWrite tile mode => decide (tile < 16) && decide (mode < 4)
  | .spareReq tile logical => decide (tile < 16) && decide (logical < 8)
  | .segPowerWrite tile ts sp => decide (tile < 16) && decide (ts < 2 ^ 32) && decide (sp < 2 ^ 16)
  | .instHealthClear inst => decide (inst < 16)
  | .evlogSelWrite seq => decide (seq < 2 ^ 32)
  | .atomAdd route => route.wf
  | .atomMin route => route.wf
  | .atomMax route => route.wf
  | .minu route => route.wf
  | .maxu route => route.wf
  | .cas route => route.wf
  | .refInc route => route.wf
  | .refDec route => route.wf
  | .descriptorIssue tile => decide (tile < 16)
  | .matmul tile unit rep mem => decide (tile < 16) && decide (unit < 8) && rep.wf && mem.wf
  | .chainLinkAdd tile unit reports => decide (tile < 16) && decide (unit < 8) && reports.1.wf && reports.2.wf
  | .writeOutTimeout tile unit => decide (tile < 16) && decide (unit < 8)
  | .plotRefetchDone tile unit => decide (tile < 16) && decide (unit < 8)
  | .vecCopy tile _ mem => decide (tile < 16) && mem.wf
  | .vecAdd tile _ mem => decide (tile < 16) && mem.wf
  | .vecSub tile _ mem => decide (tile < 16) && mem.wf
  | .vecMul tile _ mem => decide (tile < 16) && mem.wf
  | .fma tile _ mem => decide (tile < 16) && mem.wf
  | .axpb tile _ mem => decide (tile < 16) && mem.wf
  | .vecMax tile _ mem => decide (tile < 16) && mem.wf
  | .vecMin tile _ mem => decide (tile < 16) && mem.wf
  | .mulrow tile _ mem => decide (tile < 16) && mem.wf
  | .divrow tile _ mem => decide (tile < 16) && mem.wf
  | .rowsum tile _ mem => decide (tile < 16) && mem.wf
  | .rowmax tile _ mem => decide (tile < 16) && mem.wf
  | .rowamax tile _ mem => decide (tile < 16) && mem.wf
  | .actTable tile _ mem => decide (tile < 16) && mem.wf
  | .gateTable tile _ mem => decide (tile < 16) && mem.wf
  | .exprow tile _ mem => decide (tile < 16) && mem.wf
  | .rmsnorm tile _ mem => decide (tile < 16) && mem.wf
  | .layernorm tile _ mem => decide (tile < 16) && mem.wf
  | .quantI8s tile _ mem => decide (tile < 16) && mem.wf
  | .quantI8a tile _ mem => decide (tile < 16) && mem.wf
  | .quantFp8 tile _ mem => decide (tile < 16) && mem.wf
  | .rescaleTab tile _ mem => decide (tile < 16) && mem.wf
  | .rescaleReg tile _ mem => decide (tile < 16) && mem.wf
  | .rescaleFp tile _ mem => decide (tile < 16) && mem.wf
  | .wireQ8 tile _ mem => decide (tile < 16) && mem.wf
  | .wireFp8 tile _ mem => decide (tile < 16) && mem.wf
  | .wireWide tile _ mem => decide (tile < 16) && mem.wf
  | .widenAdd tile _ mem => decide (tile < 16) && mem.wf
  | .widenAddF32 tile _ mem => decide (tile < 16) && mem.wf
  | .attend tile _ reports => decide (tile < 16) && (reports.1.all fun e => decide (e.1 < 8) && e.2.wf) && reports.2.wf
  | .attendMerge run => decide (run.1 < 16) && run.2.wf
  | .sampleLocal tile mem => decide (tile < 16) && mem.wf
  | .sampleFinal tile mem => decide (tile < 16) && mem.wf
  | .copyXfer tile unit mem => decide (tile < 16) && decide (unit < 4) && mem.wf
  | .stridedCopy tile unit mem => decide (tile < 16) && decide (unit < 4) && mem.wf
  | .gather tile unit mem => decide (tile < 16) && decide (unit < 4) && mem.wf
  | .zeroFill tile unit mem => decide (tile < 16) && decide (unit < 4) && mem.wf
  | .reduceScatter tile mem => decide (tile < 16) && mem.wf
  | .allGather tile mem => decide (tile < 16) && mem.wf
  | .allReduce tile mem => decide (tile < 16) && mem.wf
  | .broadcast tile mem => decide (tile < 16) && mem.wf
  | .oneShotAllToAll tile mem => decide (tile < 16) && mem.wf
  | .ringPass tile mem => decide (tile < 16) && mem.wf
  | .nbuDesc tile mem => decide (tile < 16) && mem.wf
  | .nbuAtom tile unit rep => decide (tile < 16) && decide (unit < 64) && rep.wf
  | .nbuChainReceive tile unit crcFails => decide (tile < 16) && decide (unit < 64) && decide (crcFails < 3)
  | .waitMeridian tile => decide (tile < 16)
  | .waitCounter tile => decide (tile < 16)
  | .hintDescriptor tile => decide (tile < 16)
  | .markDesc tile => decide (tile < 16)
  | .failureNotice tile => decide (tile < 16)
  | .meridMarkEdge => true
  | .missingMark => true
  | .lockLoss => true
  | .holdoverExhausted => true
  | .meridClkLoss => true
  | .meridPllLock => true
  | .localMillisecond => true
  | .startTurnaround => true
  | .furrowBodyStart => true
  | .lateStepCheck => true
  | .beaconDeadline => true
  | .relaySend => true
  | .relayDeadline => true
  | .echoSend => true
  | .fallowDecision => true
  | .scheduleCollapse => true
  | .beaconSend => true
  | .headlandStart _ => true
  | .laneTableDeadline => true
  | .turnaround => true
  | .laneExhausted seqId => decide (seqId < 2 ^ 32)
  | .instanceDegraded inst => decide (inst < 16)
  | .phasePreposition inst phase => decide (inst < 16) && decide (phase < 2 ^ 16)
  | .phaseLevelApply inst phase => decide (inst < 16) && decide (phase < 2 ^ 16)
  | .guardRemove => true
  | .idleCapStep => true
  | .powerSample rails shares => rails.length == 22 && shares.length == 16
  | .currentLimitStep tile => decide (tile < 16)
  | .vrAlertFall input => decide (input < 4)
  | .vrAlertRise input => decide (input < 4)
  | .vrAlertHoldExpiry => true
  | .droopTrip tile => decide (tile < 16)
  | .droopSkipStart tile => decide (tile < 16)
  | .droopEnd tile => decide (tile < 16)
  | .thermalSensorRead tile tj ts => decide (tile < 16) && tj.length == 8 && ts.length == 4
  | .thermalThrottleStep tile source _ => decide (tile < 16) && decide (source < 3)
  | .stackThermRead stack _ => decide (stack < 16)
  | .refreshInterval stack pc => decide (stack < 16) && decide (pc < 64)
  | .atomBoundary stack pc => decide (stack < 16) && decide (pc < 64)
  | .stackAccess addr write symbols => decide (addr < 2 ^ 48) && wholeLine write && (symbols.all fun y => decide (y < 72))
  | .stackLaneMarked stack pc lane => decide (stack < 16) && decide (pc < 64) && decide (lane < 36)
  | .stackChannelLost stack pc => decide (stack < 16) && decide (pc < 64)
  | .regionZeroDone stack region => decide (stack < 16) && decide (region < 48)
  | .granaryAccess addr write _ => decide (addr < 2 ^ 48) && insideLine addr write
  | .granaryFillDone tile line _ => decide (tile < 16) && decide (line < 2 ^ 48)
  | .scrub tile _ _ => decide (tile < 16)
  | .segmentWakeDone tile segment => decide (tile < 16) && decide (segment < 24)
  | .segmentOnDone tile segment => decide (tile < 16) && decide (segment < 24)
  | .idleFrame port f fixed => decide (port < 24) && f.wf && decide (fixed < 5)
  | .dataFrame port f fixed _ _ => decide (port < 24) && f.wf && decide (fixed < 5)
  | .startFrame port f fixed => decide (port < 24) && f.wf && decide (fixed < 5)
  | .beaconFrame port f fixed => decide (port < 24) && f.wf && decide (fixed < 5)
  | .relayFrame port f fixed => decide (port < 24) && f.wf && decide (fixed < 5)
  | .nakFrame port f fixed => decide (port < 24) && f.wf && decide (fixed < 5)
  | .trainFrame port serial peerPort mode =>
    decide (port < 24) && decide (serial < 2 ^ 64) && decide (peerPort < 24) && decide (mode < 2)
  | .replayTimeout port => decide (port < 24)
  | .linkRetrain port => decide (port < 24)
  | .peerDetect port => decide (port < 24)
  | .linkTrainDone port _ => decide (port < 24)
  | .linkPeerLost port => decide (port < 24)
  | .ackMsg port _ m => decide (port < 24) && m.wf
  | .fwdCmd port _ m => decide (port < 24) && m.wf
  | .completionMsg port _ m => decide (port < 24) && m.wf
  | .laneTable port _ m => decide (port < 24) && m.wf
  | .laneAck port _ m => decide (port < 24) && m.wf
  | .laneAccept port _ m => decide (port < 24) && m.wf
  | .laneDiscard port _ m => decide (port < 24) && m.wf
  | .cfgPrepare port _ m => decide (port < 24) && m.wf
  | .cfgReady port _ m => decide (port < 24) && m.wf
  | .cfgConflictReply port _ m => decide (port < 24) && m.wf
  | .cfgCommitGo port _ m => decide (port < 24) && m.wf
  | .cfgAbort port _ m => decide (port < 24) && m.wf
  | .cfgDecisionTimeout => true
  | .t0Msg port _ m => decide (port < 24) && m.wf
  | .tokensMsg port _ m => decide (port < 24) && m.wf
  | .fencedMsg port _ m => decide (port < 24) && m.wf
  | .failureStepNotice port _ m => decide (port < 24) && m.wf
  | .failurePeerSilent port _ m => decide (port < 24) && m.wf
  | .failureSelfFence port _ m => decide (port < 24) && m.wf
  | .failureErrorRecord port _ m => decide (port < 24) && m.wf
  | .controlResend dst msgId => decide (dst < 64) && decide (msgId < 2 ^ 32)
  | .peerDeclaredDead device => decide (device < 64)
  | .membershipApply => true
  | .clusterDivergent device => decide (device < 64)
  | .leadLost => true
  | .dissolve => true
  | .watchdogExpiry => true
  | .controlFault cause addr => decide (cause < 256) && decide (addr < 2 ^ 48)
  | .adapterRoom inst id ver => decide (inst < 16) && decide (id < 2 ^ 32) && decide (ver < 2 ^ 32)
  | .adapterVerifyDone inst id ver => decide (inst < 16) && decide (id < 2 ^ 32) && decide (ver < 2 ^ 32)
  | .adapterTimeout inst id ver => decide (inst < 16) && decide (id < 2 ^ 32) && decide (ver < 2 ^ 32)
  | .spillCopyDone tile addr => decide (tile < 16) && decide (addr < 2 ^ 48)
  | .memrd tag offset symbols => decide (tag < 2 ^ 16) && decide (offset < 2 ^ 40) && (symbols.all fun y => decide (y < 72))
  | .memrddata tag offset symbols => decide (tag < 2 ^ 16) && decide (offset < 2 ^ 40) && (symbols.all fun y => decide (y < 72))
  | .memwr tag offset data => decide (tag < 2 ^ 16) && decide (offset < 2 ^ 40) && data.length == 64
  | .memwrptl tag offset data enable =>
    decide (tag < 2 ^ 16) && decide (offset < 2 ^ 40) && data.length == 64 && decide (enable < 2 ^ 64)
  | .m2sUnsupported tag => decide (tag < 2 ^ 16)
  | .h2dSnoop addr => decide (addr < 2 ^ 48)
  | .goWritepull vector => decide (vector < 1024)
  | .irqHoldoffExpiry vector => decide (vector < 1024)
  | .busMasterEnableWrite _ => true
  | .functionLevelReset => true
  | .upstreamLinkDown => true
  | .expanderLinkDown port => decide (port < 2)
  | .sysRstNAssert => true
  | .sysRstNRelease => true
  | .perstNAssert => true
  | .perstNRelease => true
  | .vsbPowerUp straps => decide (straps < 4)
  | .romBoot _ _ => true
  | .memoryInitDone found => (found.all fun e => decide (e.1 < 16) && e.2.2.all fun m => decide (m < 4096))
  | .downstreamEnumeration found => found.all Expander.wf
  | .getFwInfo => true
  | .transferFw _ slot offset _ _ _ => decide (slot < 256) && decide (offset < 2 ^ 40)
  | .activateFw slot _ => decide (slot < 256)
  | .getVersion transport => decide (transport < 2)
  | .getCapabilities transport => decide (transport < 2)
  | .negotiateAlgorithms transport => decide (transport < 2)
  | .getDigests transport => decide (transport < 2)
  | .getCertificate transport slot => decide (transport < 2) && decide (slot < 256)
  | .challenge transport slot => decide (transport < 2) && decide (slot < 256)
  | .getMeasurements transport _ _ => decide (transport < 2)
  | .keyExchange transport session => decide (transport < 2) && decide (session < 2 ^ 32)
  | .finish transport session _ => decide (transport < 2) && decide (session < 2 ^ 32)
  | .keyUpdate transport session => decide (transport < 2) && decide (session < 2 ^ 32)
  | .heartbeat transport session => decide (transport < 2) && decide (session < 2 ^ 32)
  | .endSession transport session => decide (transport < 2) && decide (session < 2 ^ 32)
  | .setInstanceKey transport session inst keyId key =>
    decide (transport < 2) && decide (session < 2 ^ 32) && decide (inst < 16) && decide (keyId < 2 ^ 32) && decide (key < 2 ^ 256)
  | .setFloor transport session _ => decide (transport < 2) && decide (session < 2 ^ 32)
  | .cxlIdeKm session stream _ _ => decide (session < 2 ^ 32) && decide (stream < 2)
  | .tableAccess => true
  | .setdasa staticAddr addr => decide (staticAddr < 128) && decide (addr < 128)
  | .entdaa addr => decide (addr < 128)
  | .setEndpointId eid => decide (eid < 256)
  | .getEndpointId => true
  | .getVersionSupport type => decide (type < 256)
  | .getMessageTypeSupport => true
  | .getSensorReading sensor _ => decide (sensor < 2 ^ 16)
  | .setNumericEffecterValue effecter value => decide (effecter < 2 ^ 16) && decide (value < 2 ^ 64)
  | .getNumericEffecterValue effecter => decide (effecter < 2 ^ 16)
  | .eventLogRead seq => decide (seq < 2 ^ 32)
  | .eventLogWrite _ => true
  | .flashRefreshScan weak => (weak.all fun l => decide (l < 192))
  | .tapExtest => true
  | .samplePreload => true
  | .tapIdcode => true
  | .tapClamp => true
  | .tapHighz => true
  | .extestPulse => true
  | .extestTrain => true
  | .tapBypass code => decide (code < 256)
  | .uncorrectableFrame port => decide (port < 24)
  | .stopHeadlandEnd => true
  | .stackRetrainDone stack _ failed => decide (stack < 16) && (failed.all fun m => decide (m < 4096))
  | .engineBistDone tile _ => decide (tile < 16)
  | .granaryFlushDone tile => decide (tile < 16)
  | .collSlotSendTime slot => decide (slot < 2 ^ 16)
  | .rdcurrCompletion ring _ _ => decide (ring < 16)
  | .railsRemoved => true
  | .upstreamLinkUp width speed => decide (width < 17) && decide (speed < 5)

end Sys2Proof
end

