-- ==== Sys2Proof/Safety.lean ====
section
/-!
DEFINITION. The terms that statements are made in: a command that completes, what is sent, the canonical form of what the device
holds, and a packet that passes the checks common to every packet.
-/

namespace Sys2Proof.Machine

/-- A command completes: it answers a next state, of which `P` holds. -/
def Completes (i : Instr) (s : State) (P : State → Prop) : Prop := ∃ t, exec i s = .next t ∧ P t

/-- Device memory in its canonical form (R25): addresses rise, and no byte listed reads as an unlisted one. -/
abbrev Memory.wf (m : List Host.Cell) : Prop := Table.wf 0 m = true

/-- What the device holds is in its canonical form: the register table rises, and memory and poison list nothing that an absent
entry would read as. -/
abbrev State.inForm (s : State) : Prop := Table.sorted s.regs = true ∧ Memory.wf s.mem ∧ Table.wf false s.poison = true

/-- Every waiting command stands for an event of the device. -/
abbrev State.queueWf (s : State) : Prop := ∀ i ∈ s.pending, i.wf = true

/-- An output as it stands later: the same, or a write of host memory that has grown at its end (R488). -/
def Output.extends (a b : Output) : Prop := a = b ∨ ∃ x u v, a = .hostWrite x u ∧ b = .hostWrite x (u ++ v)

/-- Everything sent stays sent, in its order. -/
def stillSent : List Output → List Output → Prop
  | [], _ => True
  | _ :: _, [] => False
  | a :: l, b :: m => a.extends b ∧ stillSent l m

/-- The lead device takes a packet: it works, no packet is without its final completion, and the checks common to every packet pass
(R127, R128). -/
abbrev State.takes (s : State) (p : Packet) : Prop :=
  s.alive = true ∧ s.isLead = true ∧ s.que.tickets = [] ∧ commonCheck s p = none

/-- The device belongs to no cluster. -/
abbrev State.alone (s : State) : Prop := s.assigned = false

/-- The ticket of the packet taken next. -/
def State.nextTicket (s : State) (p : Packet) (pay : Option Bytes) (img : Option ModelImage) : Ticket :=
  ⟨s.que.nextNo, .host p.ring, p, pay, img, false, false, none, [], [], 0⟩

/-- One more packet has been taken. -/
def State.counted (s : State) : State := { s with que := { s.que with nextNo := s.que.nextNo + 1 } }

/-- A packet is accepted: its ticket stands behind the others, and is the next packet's no more. -/
def State.accepted (s : State) (p : Packet) (pay : Option Bytes) (img : Option ModelImage) : State :=
  { s with que := { s.que with tickets := s.que.tickets ++ [s.nextTicket p pay img], nextNo := s.que.nextNo + 1 } }

/-- The final completion of a packet is posted to its ring's completion ring (R133). -/
def State.completed (s : State) (p : Packet) (a : Answer) : State :=
  s.postCq p.ring ⟨p.tag, p.opcode, a.status, true, a.detail, a.device.getD s.self, a.result0, a.result1⟩

/-- Every register field reads as before, but for the ones named. -/
def State.sameRegs (s t : State) (l : List Field) : Prop := ∀ f : Field, (∀ g ∈ l, f.key ≠ g.key) → t.get f = s.get f

/-! ### States that statements speak of -/

/-- The device works, and no packet is without its final completion. -/
abbrev State.quiet (s : State) : Prop := s.alive = true ∧ s.que.tickets = []

/-- From `s` to `t` memory stays, nothing is sent, and every register field but those named reads as before. -/
def State.leaves (s t : State) (l : List Field) : Prop := t.mem = s.mem ∧ t.out = s.out ∧ s.sameRegs t l

/-- A device in no cluster, with no model instance, no sequence and no commit under way: its headlands have nothing to do. -/
abbrev State.servesNothing (s : State) : Prop :=
  s.alone ∧ s.isFenced = false ∧ s.srv = Srv.reset ∧ s.kv = Kv.reset ∧ s.cfg.instA = [] ∧ s.cfg.peers = [] ∧ s.cfg.prepared = none ∧
    s.cfg.lead = none ∧ s.cfg.deviceCommit = [] ∧ s.flt.declared = [] ∧ s.flt.rejoin = []

/-- No lane is in force, no commit waits for a headland, and the lead has none to decide: where the schedule stops, nothing else ends
with it. -/
abbrev State.stopsAlone (s : State) : Prop := s.srv.lanes = [] ∧ s.cfg.deviceCommit = [] ∧ s.cfg.lead = none

/-- Every tile's level register holds the level that its demands give (R511). -/
def State.levelsFollow (s : State) : Prop := ∀ n, n < 16 → s.pl n = s.wanted n % 8

/-- No collective stands in a queue, and no port has one to send: nothing of them moves when the links do. -/
abbrev State.noColl (s : State) : Prop := (∀ n, n < 16 → s.queue n 15 = []) ∧ ∀ p, p < 24 → (s.link p).sends = []

/-- Port `p` is UP and takes `f` as the next sequenced frame, which acknowledges nothing; no collective waits. -/
abbrev State.hears (s : State) (p : Nat) (f : Frame) : Prop :=
  s.quiet ∧ s.noColl ∧ p < 24 ∧ s.portUp p = true ∧ (∀ x ∈ (s.link p).replay, x.frame.seq ≠ f.ack) ∧ f.seq = ((s.link p).rxSeq + 1) % 1024

/-- No port but `p` has changed. -/
def State.onlyLink (s t : State) (p : Nat) : Prop := ∀ q, q ≠ p → t.link q = s.link q

/-- A control message has come in on a port and has been acknowledged (R448, R467), before it acts. -/
def State.arrived (s : State) (p frags : Nat) (m : CtrlMsg) : State :=
  let s := s.modLink p fun l => { l with rxSeq := (l.rxSeq + frags) % 1024, nakSent := false }
  if acknowledged s.self m.body then
    s.sendPort (if s.get R.GLB_MEMBER_STATE.STATE == 1 then s.route m.src else some p) m.src (.ack m.msgId)
  else s

/-- The device takes a control message that comes to a port: the port is UP, the message is for this device, and it is of the epoch held for
its sender (R468, R581). -/
abbrev State.takesMessage (s : State) (p : Nat) (m : CtrlMsg) : Prop :=
  s.alive = true ∧ p < 24 ∧ s.portUp p = true ∧ s.passOn m = none ∧
    (s.assigned = true → m.epoch = s.heldEpoch p m.src)

/-- A control message with this body has been sent to a device. -/
def State.told (t : State) (dst : Nat) (b : CtrlBody) : Prop := ∃ m : CtrlMsg, Output.ctrl dst m ∈ t.out ∧ m.dst = dst ∧ m.body = b

end Sys2Proof.Machine
end

