-- ==== Sys2Proof/Certificates/Slice0/Obligations.lean ====
section
/-!
DEFINITION. The statements for the provers.
-/

open Sys2Proof Sys2Proof.Machine

/-! ### The queue and every command -/

/-- Of the commands that wait, the first runs, on the state with the rest waiting. -/
def Obligations.StepRunsFront : Prop :=
  ∀ (s : State) (c : Instr) (rest : List Instr), s.pending = c :: rest → step s = exec c { s with pending := rest }

/-- No command stops the device, whatever its operands and the state: it leaves the commands behind it as they were, takes
back nothing that has been sent, and draws free values only onward. A command whose event cannot happen changes nothing: the
model's choice (log entry 4). -/
def Obligations.NoCommandStops : Prop :=
  ∀ (i : Instr) (s : State), ∃ t, exec i s = .next t ∧ t.pending = s.pending ∧ stillSent s.out t.out ∧ s.freeCtr ≤ t.freeCtr

/-- First in, first out: after `n` steps the first `n` commands have run, none of them lost, and the rest wait in their order;
what was sent before is still sent. -/
def Obligations.QueueRunsInOrder : Prop :=
  ∀ (s : State) (n : Nat), n ≤ s.pending.length →
    ∃ t, Host.Core.run Sys2Proof.core n s = .next t ∧ t.pending = s.pending.drop n ∧ stillSent s.out t.out

/-- Every step keeps the canonical form of the register table, of device memory and of its poison. -/
def Obligations.FormKept : Prop :=
  ∀ s t : State, s.inForm → step s = .next t → t.inForm

/-- Reset (spec/01_organisation.md to spec/17_faults.md): nothing waits or has been sent; memory is empty, in its canonical
form and reads zero; no READY bit is set, no plan is held, Meridian time is unlocked, the device stands alone; and registers
whose reset is not zero hold what their maps give. What the spec gives no reset value stands at the model's choice: lists and
flags (log entry 6), memory (7), pins (66). -/
def Obligations.Reset : Prop :=
  State.reset.inForm ∧ State.reset.pending = [] ∧ State.reset.out = [] ∧ State.reset.mem = [] ∧ (∀ a, State.reset.byte a = 0) ∧
    State.reset.frwState = frwNoPlan ∧ State.reset.mrdState = mrdUnlocked ∧ State.reset.now = 0 ∧ State.reset.assigned = false ∧
    State.reset.isLead = true ∧ State.reset.self = 0 ∧ State.reset.queueWf ∧
    (∀ f ∈ [R.GLB_READY.BOOT_OK, R.GLB_READY.MEM_OK, R.GLB_READY.MERIDIAN_OK, R.GLB_READY.LINKS_OK, R.GLB_READY.CXL_CFG,
      R.GLB_READY.PART_OK, R.CXLU_STATUS.BUS_MASTER, R.SEC_PROT.PARTITIONS], State.reset.get f = 0) ∧
    (∀ e ∈ [(R.MRD_CTRL.HOLDOVER_MARKS, 8), (R.MRD_CTRL.PHASE_TOL_NS, 50), (R.FRW_CTRL.FALLOW_LIMIT, 4),
      (R.FRW_CTRL.MISSING_BEACON_LIMIT, 2), (R.CXLU_CTRL.IRQ_HOLDOFF_NS, 200), (R.CXLD_CTRL.IDE_REQUIRED, 1),
      (R.THM_CTRL.TILE_THROTTLE_C, 100), (R.GLB_ERR_CTRL.DEGRADE_COUNT, 8), (R.GLB_ERR_CTRL.LANE_RETRY_LIMIT, 16)],
      State.reset.get e.1 = e.2) ∧
    ∀ n, n < 16 → State.reset.seqState n = seqIdle ∧ State.reset.get (R.TILE_SEQ_CTRL.MODE n) = 1 ∧
      State.reset.get (R.TILE_ENGINE_MAP.PHYS n) = 0x76543210 ∧ State.reset.get (R.TILE_ENGINE_MAP.SPARE n) = 8 ∧
      State.reset.get (R.TILE_ENGINE_EPOCH.EPOCH n) = 1 ∧ State.reset.get (R.TSTORE_GRANARY.SIZE n) = 2 ∧
      State.reset.get (R.STACK_REFRESH.PULLIN_MAX n) = 8 ∧ State.reset.get (R.SEC_OPEN.REGIONS n) = 2 ^ 48 - 1 ∧
      State.reset.get (R.LINK_CTRL.ENABLE n) = 1 ∧ State.reset.get (R.LINK_STATUS.STATE n) = linkDown

/-- Mesh wiring (R439): in a group of `G` positions, port `p` of position `g` reaches position (g + p + 1) mod G, whose port G −
2 − p comes back; ports G − 1 to 14 reach nothing. -/
def Obligations.MeshWiring : Prop :=
  ∀ (s u : State) (p : Nat),
    let grp := s.get R.GLB_DEVPOS.GROUP
    let G := s.groupOf grp
    let g := s.get R.GLB_DEVPOS.POSITION
    let h := (g + p + 1) % G
    u.flt.groupSize = s.flt.groupSize → u.get R.GLB_DEVPOS.GROUP = grp → u.get R.GLB_DEVPOS.POSITION = h → g < G →
      (p + 1 < G → s.portDevice p = some (16 * grp + h) ∧ s.meshPort h = p ∧ u.portDevice (G - 2 - p) = some (16 * grp + g) ∧
        u.meshPort g = G - 2 - p) ∧
      (G ≤ p + 1 → p ≤ 14 → s.portDevice p = none)

/-! ### Management and test (spec/18_management_and_test.md) -/

/-- A target without a dynamic address takes the one that SETDASA gives to its static address 0x50 + SB_ADDR, or ENTDAA gives,
and nothing else changes (R596). A target that has an address answers MCTP control requests, the read of the sideband cap and
the read of the event log, on VSB alone; of these only Set Endpoint ID changes a register (R597, R600, R605). The sensors:
while only VSB is present every sensor but 0x0060 is unavailable; otherwise the tiles', the stores', the stacks' temperatures
and the device's power read the latest value of their register (R599). The sideband cap takes 0 and 800 to 3,200 watts, from
which the levels follow at once on a device that works; any other value is refused and changes nothing (R600). That an address
is given only where there is none is presumed (log entry 100). -/
def Obligations.Sideband : Prop :=
  (∀ (s : State) (a : Nat), s.get R.MGT_SB_STATUS.DYN_ADDR = 0 → a < 128 →
    Completes (.setdasa (0x50 + s.get R.MGT_SB_STATUS.STATIC_SEL) a) s (fun t =>
      t = s.put R.MGT_SB_STATUS.DYN_ADDR a ∧ t.get R.MGT_SB_STATUS.DYN_ADDR = a) ∧
    Completes (.entdaa a) s (fun t => t = s.put R.MGT_SB_STATUS.DYN_ADDR a ∧ t.get R.MGT_SB_STATUS.DYN_ADDR = a)) ∧
  (∀ s : State, s.get R.MGT_SB_STATUS.DYN_ADDR ≠ 0 →
    (∀ eid, 1 ≤ eid → eid < 255 → Completes (.setEndpointId eid) s fun t =>
      t = (s.put R.MGT_SB_STATUS.EID eid).emit (.sideband (.endpoint eid)) ∧ t.get R.MGT_SB_STATUS.EID = eid) ∧
    Completes .getEndpointId s (fun t => t = s.emit (.sideband (.endpoint (s.get R.MGT_SB_STATUS.EID)))) ∧
    Completes .getMessageTypeSupport s (fun t => t = s.emit (.sideband (.types [0x00, 0x01, 0x05, 0x06, 0x7E]))) ∧
    Completes (.getVersionSupport 0x00) s (fun t => t = s.emit (.sideband (.versions [0x103]))) ∧
    Completes (.getVersionSupport 0x05) s (fun t => t = s.emit (.sideband (.versions [0x102, 0x103]))) ∧
    Completes (.getNumericEffecterValue 0x101) s (fun t => t = s.emit (.sideband (.effecter (s.get R.MGT_SB_CAP.CAP_W)))) ∧
    ∀ q, Completes (.eventLogRead q) s fun t => ∃ l, t = s.emit (.sideband (.entries l)) ∧ l.length ≤ 4) ∧
  (∀ s : State, s.get R.MGT_SB_STATUS.DYN_ADDR ≠ 0 →
    (∀ c, Completes (.getSensorReading 0x60 c) s fun t => t = s.emit (.sideband (.reading c))) ∧
    (∀ id c, 1 ≤ id → id < 0x60 → s.pins.railsOn = false →
      Completes (.getSensorReading id c) s fun t => t = s.emit (.sideband .unavailable)) ∧
    (∀ n c, n < 16 → s.pins.railsOn = true →
      Completes (.getSensorReading (0x01 + n) c) s (fun t => t = s.emit (.sideband (.reading (s.get (R.THM_TILE.TJ n))))) ∧
      Completes (.getSensorReading (0x11 + n) c) s (fun t => t = s.emit (.sideband (.reading (s.get (R.THM_TILE.TSTORE n))))) ∧
      Completes (.getSensorReading (0x21 + n) c) s (fun t => t = s.emit (.sideband (.reading (s.get (R.STACK_THERM.TEMP n)))))) ∧
    ∀ c, s.pins.railsOn = true →
      Completes (.getSensorReading 0x5D c) s (fun t => t = s.emit (.sideband (.reading (s.get R.PWR_STATUS.POWER_W)))) ∧
      Completes (.getSensorReading 0x5E c) s (fun t => t = s.emit (.sideband (.reading (s.get R.PWR_STATUS.DEVICE_PL))))) ∧
  (∀ (s : State) (w : Nat), s.get R.MGT_SB_STATUS.DYN_ADDR ≠ 0 →
    (w = 0 ∨ (800 ≤ w ∧ w ≤ 3200) → Completes (.setNumericEffecterValue 0x101 w) s fun t =>
      t.get R.MGT_SB_CAP.CAP_W = w ∧ t.out = s.out ++ [.sideband .done] ∧ t.mem = s.mem ∧ t.mgt = s.mgt) ∧
    (¬ (w = 0 ∨ (800 ≤ w ∧ w ≤ 3200)) → Completes (.setNumericEffecterValue 0x101 w) s fun t =>
      t = s.emit (.sideband .invalidData)))

/-- The TAP: an instruction is loaded and shifts out the identity code or the bypass bit; EXTEST, EXTEST_PULSE and
EXTEST_TRAIN behave as BYPASS unless SYS_RST_N is low, as CLAMP and HIGHZ, which select BYPASS's bit, always do; reserved
codes are BYPASS (R608, R609). The oldest record that waits is written to the slot of its SEQ modulo 32,768, NEWEST names it,
and SEQ goes on by 1; here the entry is not the first of a sector and its program succeeds (R604). A scan of the flash that
finds no weak sector leaves the map as it is (R606). The map of the flash and the numbers the log starts with are the model's
choice (log entry 101). -/
def Obligations.ManagementBlock : Prop :=
  (∀ s : State, let loaded := fun c => { s with mgt := { s.mgt with tapIr := c } }
    Completes .tapIdcode s (fun t => t = (loaded 2).emit (.tdo 32 0x0064056B)) ∧
    Completes .samplePreload s (fun t => t = loaded 1) ∧
    Completes .tapClamp s (fun t => t = (loaded 3).emit (.tdo 1 0)) ∧
    Completes .tapHighz s (fun t => t = (loaded 4).emit (.tdo 1 0)) ∧
    (∀ c, 7 ≤ c → c < 256 → Completes (.tapBypass c) s fun t => t = (loaded c).emit (.tdo 1 0)) ∧
    (∀ e ∈ [(0, Instr.tapExtest), (5, .extestPulse), (6, .extestTrain)], Completes e.2 s fun t =>
      t = if s.pins.sysRstN then (loaded e.1).emit (.tdo 1 0) else loaded e.1)) ∧
  (∀ (s : State) (r : ErrRec) (rest : List ErrRec), s.mgt.toLog = r :: rest → s.mgt.evSeq < 2 ^ 32 → s.mgt.evSeq % 1024 ≠ 0 →
    Completes (.eventLogWrite false) s fun t =>
      t.mgt.toLog = rest ∧ Table.get none (s.mgt.evSeq % 32768) t.mgt.evlog = some (evEntryBytes s.mgt.evSeq r) ∧
        t.mgt.evSeq = (s.mgt.evSeq + 1) % 2 ^ 32 ∧ t.get R.MGT_EVLOG_SEL.NEWEST = s.mgt.evSeq ∧ t.mem = s.mem ∧ t.out = s.out) ∧
  (∀ s : State, s.alive = true → s.isSet R.GLB_READY.BOOT_OK = true →
    Completes (.flashRefreshScan []) s fun t => t = { s with mgt := { s.mgt with lastScan := s.now } })

/-! ### Security (spec/16_security.md) -/

/-- Version, capabilities and algorithms are agreed in that order on a transport that answers (R550). Once they are agreed and
the identity keys are there, digests and certificates of the chains are given, and challenges and signed measurements carry
both signatures, which are free values (R550, R551). Sessions: a key exchange opens a handshake while there are fewer than 8,
FINISH opens the session, key updates and heartbeats are answered inside it, and END_SESSION closes it; SESSIONS counts the
open ones (R550, R564). Inside a session over DOE a stream of IDE starts or stops; outside one nothing changes (R493). The
order of the exchange, and that handshakes count toward the 8 sessions, are presumed (log entry 97). -/
def Obligations.Spdm : Prop :=
  (∀ (s : State) (tr : Nat), s.alive = true → s.spdmReady tr = true →
    ∀ e ∈ [(0, Instr.getVersion tr, SpdmAnswer.version [0x12, 0x13]), (1, .getCapabilities tr, .capabilities),
        (2, .negotiateAlgorithms tr, .algorithms)],
      (e.1 ≤ Table.get 0 tr s.sec.spdm → Completes e.2.1 s fun t =>
        t = { s with sec := { s.sec with spdm := Table.set 0 tr (e.1 + 1) s.sec.spdm } }.emit (.spdm tr e.2.2)) ∧
      (Table.get 0 tr s.sec.spdm < e.1 → Completes e.2.1 s fun t => t = s.emit (.spdm tr .error))) ∧
  (∀ (s : State) (tr : Nat), s.alive = true → s.spdmReady tr = true → Table.get 0 tr s.sec.spdm = 3 →
    s.isSet R.SEC_STATUS.IDENTITY_OK = true →
      Completes (.getDigests tr) s (fun t => t = s.emit (.spdm tr (.digests ([0, 1].filterMap fun k => (s.chain k).map sha384)))) ∧
      (∀ slot c, s.chain slot = some c →
        Completes (.getCertificate tr slot) s (fun t => t = s.emit (.spdm tr (.certificate slot c))) ∧
        Completes (.challenge tr slot) s (fun t => ∃ g, t = s.draw.draw.emit (.spdm tr (.challengeAuth slot g)))) ∧
      ∀ i b, (i, b) ∈ s.measurements →
        Completes (.getMeasurements tr (some i) true) s (fun t =>
          ∃ l g, (i, b) ∈ l ∧ t = s.draw.draw.emit (.spdm tr (.measurements l (some g)))) ∧
        Completes (.getMeasurements tr (some i) false) s (fun t =>
          ∃ l, (i, b) ∈ l ∧ t = s.emit (.spdm tr (.measurements l none)))) ∧
  (∀ (s : State) (tr id : Nat), s.alive = true → s.spdmReady tr = true → Table.get 0 tr s.sec.spdm = 3 →
    (s.isSet R.SEC_STATUS.IDENTITY_OK = true → s.sec.sessions.length + s.sec.handshakes.length < 8 →
      (tr, id) ∉ s.sec.sessions → (tr, id) ∉ s.sec.handshakes →
        Completes (.keyExchange tr id) s fun t => ∃ g,
          t = { s.draw.draw with sec := { s.sec with handshakes := s.sec.handshakes ++ [(tr, id)] } }.emit (.spdm tr (.keyExchange id g))) ∧
    ((tr, id) ∈ s.sec.handshakes → Completes (.finish tr id true) s fun t =>
      t.sec.sessions = s.sec.sessions ++ [(tr, id)] ∧ t.sec.handshakes = s.sec.handshakes.erase (tr, id) ∧
        t.get R.SEC_STATUS.SESSIONS = (s.sec.sessions.length + 1) % 2 ^ R.SEC_STATUS.SESSIONS.width ∧
        t.out = s.out ++ [.spdm tr (.finished id)] ∧ t.mem = s.mem) ∧
    ((tr, id) ∈ s.sec.sessions →
      Completes (.keyUpdate tr id) s (fun t => t = s.emit (.spdm tr (.keyUpdated id))) ∧
      Completes (.heartbeat tr id) s (fun t => t = s.emit (.spdm tr (.alive id))) ∧
      Completes (.endSession tr id) s (fun t =>
        t.sec.sessions = s.sec.sessions.erase (tr, id) ∧ t.out = s.out ++ [.spdm tr (.ended id)] ∧ t.mem = s.mem))) ∧
  (∀ (s : State) (id : Nat) (go skid : Bool), s.alive = true → s.spdmReady 0 = true → s.que.tickets = [] →
    ((0, id) ∈ s.sec.sessions → s.isSet R.CXLU_STATUS.BUS_MASTER = false →
      Completes (.cxlIdeKm id 0 go skid) s (fun t =>
        t = (s.putBit R.CXLU_STATUS.IDE_IO go).emit (.ideKm true) ∧ t.isSet R.CXLU_STATUS.IDE_IO = go) ∧
      Completes (.cxlIdeKm id 1 go skid) s (fun t =>
        t = ((s.putBit R.CXLU_STATUS.IDE_CM go).putBit R.CXLU_STATUS.SKID (go && skid)).emit (.ideKm true))) ∧
    ((0, id) ∉ s.sec.sessions → ∀ k, Completes (.cxlIdeKm id k go skid) s fun t => t = s.emit (.ideKm false)))

/-- The vendor's requests inside a session: an instance key is kept under its instance, and a floor record that passes the
checks goes to the slot that does not hold the active one; outside a session a key is refused (R552, R607). Firmware over the
mailbox: the slot's information; the first part of a transfer is kept and a second start is answered Busy; activation is
online in recovery only (R543, R544). That a transfer goes on where its bytes so far end is the model's choice (log entry 99).
-/
def Obligations.FirmwareAndKeys : Prop :=
  (∀ (s : State) (tr id : Nat), s.alive = true → s.spdmReady tr = true →
    ((tr, id) ∈ s.sec.sessions →
      (∀ i k key, i < 16 → k < 2 ^ 32 → key < 2 ^ 256 → Completes (.setInstanceKey tr id i k key) s fun t =>
        Table.get none i t.sec.keys = some (k, key) ∧ (∀ j, j ≠ i → Table.get none j t.sec.keys = Table.get none j s.sec.keys) ∧
          t.out = s.out ++ [.spdm tr .vendor] ∧ t.mem = s.mem ∧ t.regs = s.regs) ∧
      (∀ o, objAccepted 3 0 o = true → Completes (.setFloor tr id o) s fun t =>
        t = { s with sec := { s.sec with floorSlots := Table.insert s.freeFloorSlot (some o) s.sec.floorSlots } }.emit
          (.spdm tr .vendor))) ∧
    ((tr, id) ∉ s.sec.sessions → ∀ i k key, Completes (.setInstanceKey tr id i k key) s fun t => t = s.emit (.spdm tr .error))) ∧
  (∀ s : State, s.alive = true → s.mailReady = true →
    Completes .getFwInfo s (fun t => t = s.emit (.fwInfo 1 (b2n (s.isSet R.GLB_READY.BOOT_OK)) ((s.sec.fwSlot.map SignedObj.build).getD 0))) ∧
    (∀ data ok build, data.length ≤ 8405716 → s.sec.transfer = none → Completes (.transferFw .first 1 0 data ok build) s fun t =>
      t = { s with sec := { s.sec with transfer := some data } }.emit (.mailbox .success)) ∧
    (∀ data ok build b, s.sec.transfer = some b → Completes (.transferFw .first 1 0 data ok build) s fun t =>
      t = s.emit (.mailbox .busy)) ∧
    (∀ data build, data.length ≤ 8405716 → s.sec.transfer = none → Completes (.transferFw .full 1 0 data false build) s fun t =>
      t.sec.fwSlot = s.sec.fwSlot ∧ t.sec.running = s.sec.running ∧ t.out = s.out ++ [.mailbox .authFailed] ∧ t.mem = s.mem) ∧
    Completes (.activateFw 1 s.sec.recovery) s (fun t =>
      t = { s with sec := { s.sec with recovery := false } }.emit (.mailbox .success)) ∧
    Completes (.activateFw 1 (!s.sec.recovery)) s (fun t => t = s.emit (.mailbox .invalidInput)))

/-- The CDAT that Table Access returns holds the structures of R495, and no others. -/
def Obligations.CdatContents : Prop :=
  ∀ s : State, s.alive = true → s.hostReaches = true → Completes .tableAccess s fun t => t = s.emit (.cdat
    [.dsmas 0 0 0xC000000000 true, .dslbis 0 false false 370, .dslbis 0 true false 310, .dslbis 0 false true 5500,
      .dslbis 0 true true 6600, .dsemtsReserved 0])

/-! ### Command packets (spec/04_command_packets.md) -/

/-- A packet that fails one of the checks common to every packet gets its final completion, with that check's status and DETAIL,
and has no other effect (R127, R128). -/
def Obligations.CommonChecks : Prop :=
  ∀ (s : State) (p q : Packet) (img : ModelImage) (pay : Option Bytes) (st : Status) (k : Nat), s.alive = true → s.isLead = true →
    s.que.tickets = [] → commonCheck s q = some (st, k) →
      ∀ c ∈ [(p.op 0x00, Instr.identify p), (p.op 0x01, .geometryGet p), ((p.op 0x02).with_ 5 false, .cfgStage p pay),
          ((p.op 0x02).with_ 5 true, .cfgStageDiscard p), ((p.op 0x03).with_ 4 false, .cfgCommit p),
          ((p.op 0x03).with_ 4 true, .cfgCommitCluster p), (p.op 0x04, .cfgDigest p), (p.op 0x05, .clusterForm p pay), (p.op 0x06, .fence p),
          ((p.op 0x07).with_ 5 false, .rejoin p), ((p.op 0x07).with_ 5 true, .rejoinEngine p), (p.op 0x08, .resetPartition p),
          (p.op 0x10, .meridianSet p), (p.op 0x11, .furrowPlanLoad p pay), (p.op 0x12, .furrowStart p), (p.op 0x13, .furrowStop p),
          (p.op 0x20, .modelLoad p img), (p.op 0x21, .modelUnload p), (p.op 0x22, .planLoad p), (p.op 0x23, .adapterLoad p),
          (p.op 0x24, .adapterRetire p), (p.op 0x30, .prefixCreate p), (p.op 0x31, .prefixRelease p), (p.op 0x32, .kvImport p),
          (p.op 0x33, .kvExport p), (p.op 0x40, .seqOpen p), (p.op 0x41, .seqAppend p pay), (p.op 0x42, .seqGenerate p pay),
          (p.op 0x43, .seqCancel p), (p.op 0x44, .seqClose p), (p.op 0x50, .tenantSet p), (p.op 0x51, .hintPacket p),
          (p.op 0x60, .powerCapSet p), (p.op 0x61, .telemetryRead p), (p.op 0x62, .energyRead p), ((p.op 0x70).pattern 1, .seqRead p),
          ((p.op 0x70).pattern 2, .random2kRead p), ((p.op 0x70).pattern 3, .random64Read p), ((p.op 0x70).pattern 4, .seqWriteCheck p),
          ((p.op 0x70).pattern 5, .mixedCheck p), ((p.op 0x70).pattern 6, .nbuRead p), ((p.op 0x70).pattern 7, .retrain p),
          ((p.op 0x71).pattern 1, .prbs31q p), ((p.op 0x71).pattern 2, .prbs13q p), ((p.op 0x71).pattern 3, .ssprq p),
          ((p.op 0x71).pattern 4, .frameLoop p), ((p.op 0x71).pattern 5, .linkTestRetrain p), (p.op 0x72, .selftest p)],
        q = c.1 → Completes c.2 s fun t => t = s.counted.completed q { status := st, detail := k }

/-- The packets that the lead answers at once, for a device in no cluster: what each answers, and the two that change something,
the cap and the hints (R129, R132, R137, R144, R146, R158, R519, R529, R549). -/
def Obligations.ImmediatePackets : Prop :=
  ∀ (s : State) (p : Packet), s.alone →
    (s.takes (p.op 0x00) → Completes (.identify p) s fun t =>
      t = (s.counted.outPayload (p.op 0x00) s.identityRecord).completed (p.op 0x00)
        { status := .ok, result0 := s.readReg R.GLB_PART.FAMILY.addr, result1 := s.readReg R.GLB_READY.READY.addr }) ∧
    (s.takes (p.op 0x01) → Completes (.geometryGet p) s fun t =>
      t = (s.counted.outPayload (p.op 0x01) geometryRecord).completed (p.op 0x01)
        { status := .ok, result0 := min p.payloadLen geometryRecord.length }) ∧
    (s.takes (p.op 0x04) → bits p.p0 0 6 = s.self → Completes (.cfgDigest p) s fun t =>
      t = s.counted.completed (p.op 0x04)
        { status := if s.isSet R.CFG_STATUS.DIVERGENT then .cfgDivergent else .ok, result0 := s.get R.CFG_STATUS.ACTIVE_EPOCH,
          result1 := s.get R.CFG_DIGEST.ACTIVE_DIGEST }) ∧
    (s.takes (p.op 0x06) → Completes (.fence p) s fun t => t = s.counted.completed (p.op 0x06) { status := .ok }) ∧
    (s.takes (p.op 0x51) → s.now ≤ p.p0 → Completes (.hintPacket p) s fun t =>
      t = (s.counted.hintDevice ⟨p.p0, p.p0 + p.p1, p.p2⟩).completed (p.op 0x51) { status := .ok }) ∧
    (s.takes (p.op 0x51) → p.p0 < s.now → Completes (.hintPacket p) s fun t =>
      t = s.counted.completed (p.op 0x51) { status := .rejDeadline }) ∧
    (s.takes (p.op 0x60) → bitList 64 p.p1 = [s.self] → Completes (.powerCapSet p) s fun t =>
      t.get R.PWR_CTRL.CAP_W = p.p0 % 65536 ∧ t.que.tickets = [] ∧ t.mem = s.mem) ∧
    (s.takes (p.op 0x61) → bits p.p0 0 6 = s.self → Completes (.telemetryRead p) s fun t =>
      t = (s.counted.outPayload (p.op 0x61) (s.telemetry p.p1)).completed (p.op 0x61)
        { status := .ok, result0 := (s.telemetry p.p1).length }) ∧
    (s.takes (p.op 0x62) → bits p.p0 0 6 = s.self → Completes (.energyRead p) s fun t =>
      t = s.counted.completed (p.op 0x62)
        { status := .ok
          result0 := if p.f4 then Table.get 0 (bits p.tenant 0 10) s.pwr.tenants
            else if bits p.cls 0 2 == 0 then s.get (R.PWR_ENERGY.UJ (bits p.p0 8 4))
            else s.get (R.PWR_ENERGY_CLASS.UJ (bits p.p0 8 4) (bits p.cls 0 2 - 1)) })

/-- A packet that takes effect at a headland is accepted and waits for it, in its order, behind those that wait already; a closing
or a release is told to the members ahead (R348).  A tenant's queue is then set, its credit kept, and the packet completes (R81, R130,
R144). -/
def Obligations.PacketsForTheHeadland : Prop :=
  ∀ (s : State) (p : Packet),
    (∀ c ∈ [(0x24, Instr.adapterRetire p), (0x30, .prefixCreate p), (0x31, .prefixRelease p), (0x32, .kvImport p),
        (0x33, .kvExport p), (0x40, .seqOpen p), (0x43, .seqCancel p), (0x44, .seqClose p), (0x50, .tenantSet p)],
      s.takes (p.op c.1) → Completes c.2 s fun t =>
        t = (s.accepted (p.op c.1) none none).deferTicket (s.nextTicket (p.op c.1) none none) ∧
        t.srv.deferred = s.srv.deferred ++ [s.que.nextNo] ∧ t.que.tickets.map Ticket.no = [s.que.nextNo] ∧
        (s.inSchedule = false → t = { s.accepted (p.op c.1) none none with srv := { s.srv with deferred := s.srv.deferred ++ [s.que.nextNo] } })) ∧
    (∀ b, ∀ c ∈ [(0x41, Instr.seqAppend p (some b)), (0x42, .seqGenerate p (some b))],
      s.takes (p.op c.1) → Completes c.2 s fun t =>
        t = { s.accepted (p.op c.1) (some (fit p.payloadLen b)) none with
          srv := { s.srv with deferred := s.srv.deferred ++ [s.que.nextNo] } }) ∧
    ∀ th, s.takes (p.op 0x50) → p.f4 = false → (∀ no ∈ s.srv.deferred, no ≠ s.que.nextNo) → Completes (.tenantSet p) s fun t =>
      t.applyTicket th s.que.nextNo = ({ s.counted with srv := { s.srv with
        tenants := Table.set none p.tenant (some ⟨bits p.p0 0 8, bits p.p0 8 8, p.p1, p.p2, p.p3, p.p4,
          ((Table.get none p.tenant s.srv.tenants).map Tenant.credit).getD 0⟩) s.srv.tenants } }).completed (p.op 0x50)
            { status := .ok }

/-- Packets that stage, for a device in no cluster: where the checks pass the staged set takes what is given, while the active
one stays, and where one fails nothing is staged; discarding gives the active set back; a protected instance protects every
partition (R47, R137, R140, R141, R150, R168, R556). Which partitions a protected instance protects is the model's choice (log
entry 78). -/
def Obligations.StagingPackets : Prop :=
  ∀ (s : State) (p : Packet), s.alone → s.unsettled = false →
    (∀ b, s.takes (p.op 0x11) → b.length = p.payloadLen →
      (s.furrowPlanCheck b = none → Completes (.furrowPlanLoad p (some b)) s fun t =>
        t = ({ s.counted with frw := { s.frw with staged := some (furrowPlanOf b) } }.refreshCfg).completed (p.op 0x11)
          { status := .ok, result0 := rd b 8 4 }) ∧
      (∀ st k, s.furrowPlanCheck b = some (st, k) → Completes (.furrowPlanLoad p (some b)) s fun t =>
        t = s.counted.completed (p.op 0x11) { status := st, detail := k })) ∧
    (s.takes (p.op 0x21) →
      ((s.instance? (bits p.p0 0 4)).isSome = true → s.cfg.lockCluster = false → Completes (.modelUnload p) s fun t =>
        t = ({ s.counted with cfg := { s.cfg with instS := Table.erase (bits p.p0 0 4) s.cfg.instS } }.refreshCfg).completed
          (p.op 0x21) { status := .ok }) ∧
      ((s.instance? (bits p.p0 0 4)).isSome = false ∨ s.cfg.lockCluster = true → Completes (.modelUnload p) s fun t =>
        t = s.counted.completed (p.op 0x21) { status := .cfgConflict })) ∧
    (∀ y v, s.takes (p.op 0x22) → planWhole (s.read p.p1 p.p2) = none → v = s.planView (s.read p.p1 p.p2) →
      s.planCheck (bits p.p0 0 4) v = none → s.instance? (bits p.p0 0 4) = some y → Completes (.planLoad p) s fun t =>
        t = ({ s.counted with cfg := { s.cfg with
          instS := Table.insert (bits p.p0 0 4) (some { y with plan := some (v.plan s.self) }) s.cfg.instS } }.refreshCfg).completed
            (p.op 0x22) { status := .ok }) ∧
    (∀ q, q = (p.op 0x02).with_ 5 true → s.takes q → s.cfg.lockDevice = false →
      (q.f4 = false → bits p.p0 0 6 = s.self → Completes (.cfgStageDiscard p) s fun t =>
        t = (s.counted.discardDevice.refreshCfg).completed q { status := .ok }) ∧
      (q.f4 = true → s.cfg.lockCluster = false → (∀ e ∈ instList s.cfg.instS, e.2.image.unitLocal = []) →
        Completes (.cfgStageDiscard p) s fun t =>
          t.cfg.instS = s.cfg.instA ∧ t.cfg.stagedRegs = [] ∧ t.frw.staged = none ∧ t.cfg.instA = s.cfg.instA ∧ t.frw.active = s.frw.active ∧
            t.que.tickets = [] ∧ t.mem = s.mem)) ∧
    (∀ q b, q = (p.op 0x02).with_ 5 false → s.takes q → b.length = p.payloadLen → q.f4 = true ∨ bits p.p0 0 6 = s.self →
      (b.length % 24 ≠ 0 ∨ (stageEntries b).any entryShape = true → Completes (.cfgStage p (some b)) s fun t =>
        t = s.counted.completed q { status := .rejFormat, detail := 0x81 }) ∧
      (∀ u, (stageEntries b).any entryShape = false → s.stageCheck q b none = none → s.stageEntries b = some u →
        (∀ e ∈ stageEntries b, e.2.2 &&& liveMask (e.1 - windowBase) = 0) → Completes (.cfgStage p (some b)) s fun t =>
          t = ({ s.counted with cfg := { s.cfg with stagedRegs := u.cfg.stagedRegs } }.refreshCfg).completed q { status := .ok })) ∧
    ∀ m, s.takes (p.op 0x20) → s.modelCheck (p.op 0x20) (s.read p.p0 p.p1) m = none → m.unitLocal = [] →
      Completes (.modelLoad p m) s fun t =>
        Table.get none (bits p.p2 0 4) t.cfg.instS = some ⟨p.p3, p.f4, m, sha384 (s.read p.p0 p.p1), none⟩ ∧
          (p.f4 = true → bit p.p3 s.self = true → t.get R.SEC_PROT.PARTITIONS = 0xFFFF) ∧
          t.cfg.instA = s.cfg.instA ∧ t.que.tickets = []

/-- Commits, for a device in no cluster. CFG_COMMIT locks the device-scope set and waits for the headland while the schedule
is not idle; else, the checks passing, the staged fields of that scope are active at once, nothing of them stays staged and
the packet completes; a set that does not pass the checks, or is locked, is refused and counted (R153). CFG_COMMIT_CLUSTER
locks both sets; it is decided at once outside the schedule, for its epoch, and takes effect at the next mark or millisecond,
under that epoch; in the schedule it waits for its furrow; a wrong epoch is refused and a furrow too near comes too late
(R154). DETAIL of a refusal, and when a set that waits for no headland is decided, follow log entries 73 and 55. -/
def Obligations.Commits : Prop :=
  ∀ (s : State) (p q : Packet), s.alone →
    (q = (p.op 0x03).with_ 4 false → s.takes q → q.f5 = true ∨ bits p.p2 0 6 = s.self → s.flt.declared = [] →
      (s.cfg.lockDevice = false → s.idle = false → Completes (.cfgCommit p) s fun t =>
        t.cfg.lockDevice = true ∧ t.cfg.lockCluster = s.cfg.lockCluster ∧ t.cfg.deviceCommit = s.cfg.deviceCommit ++ [s.que.nextNo] ∧
          t.cfg.stagedRegs = s.cfg.stagedRegs ∧ t.isSet R.CFG_STATUS.LOCKED = true ∧ t.mem = s.mem ∧ t.out = s.out ∧
          t.que.tickets.map Ticket.no = [s.que.nextNo]) ∧
      (∀ f v, s.cfg.lockDevice = false → s.idle = true → s.unsettled = false → s.commitStands s.wouldDevice = true →
        s.cfg.stagedRegs = [(f.key, v)] → fieldOf f.key = some f → f.access = .staged → clusterKey f.key = false → scaleRegAt f.addr = none →
        (∀ n, n < 16 → f ≠ R.TSTORE_GRANARY.SIZE n ∧ f ≠ R.STACK_REGION_MODE.UNIT_LOCAL n) →
        (∀ n, n < 24 → f ≠ R.LINK_CTRL.ENABLE n ∧ f ≠ R.LINK_CTRL.MODE n) → Completes (.cfgCommit p) s fun t =>
          t.get f = v % 2 ^ f.width ∧ t.cfg.stagedRegs = [] ∧ t.cfg.lockDevice = false ∧ t.cfg.instA = s.cfg.instA ∧ t.que.tickets = [] ∧
            t.mem = s.mem) ∧
      (s.cfg.lockDevice = true ∨ (s.idle = true ∧ s.commitStands s.wouldDevice = false) → Completes (.cfgCommit p) s fun t =>
        t.cfg.stagedRegs = s.cfg.stagedRegs ∧ t.cfg.lockDevice = s.cfg.lockDevice ∧ t.cfg.lockCluster = s.cfg.lockCluster ∧
          t.get R.CFG_COUNTS.CONFLICTS = min (2 ^ R.CFG_COUNTS.CONFLICTS.width - 1) (s.get R.CFG_COUNTS.CONFLICTS + 1) ∧
          t.que.tickets = [] ∧ t.mem = s.mem)) ∧
    (q = (p.op 0x03).with_ 4 true → s.takes q → s.cfg.lockCluster = false → s.cfg.lockDevice = false →
      (p.p0 = s.get R.CFG_STATUS.ACTIVE_EPOCH + 1 → s.commitStands s.wouldCluster = true → (s.inSchedule = true → s.furrow + 2 ≤ p.p1) →
        Completes (.cfgCommitCluster p) s fun t =>
          t.cfg.prepared = some ⟨p.p0, p.p1, !s.inSchedule⟩ ∧ t.cfg.lead = some ⟨s.que.nextNo, p.p0, p.p1, [], [], !s.inSchedule⟩ ∧
            t.cfg.lockCluster = true ∧ t.cfg.lockDevice = true ∧ t.get R.CFG_STATUS.ACTIVE_EPOCH = s.get R.CFG_STATUS.ACTIVE_EPOCH ∧
            t.cfg.instA = s.cfg.instA ∧ t.que.tickets.map Ticket.no = [s.que.nextNo] ∧ t.mem = s.mem ∧ t.out = s.out) ∧
      (p.p0 ≠ s.get R.CFG_STATUS.ACTIVE_EPOCH + 1 → Completes (.cfgCommitCluster p) s fun t =>
        t = (s.counted.bump R.CFG_COUNTS.CONFLICTS).completed q { status := .cfgConflict }) ∧
      (p.p0 = s.get R.CFG_STATUS.ACTIVE_EPOCH + 1 → s.inSchedule = true → p.p1 < s.furrow + 2 → Completes (.cfgCommitCluster p) s fun t =>
        t = s.counted.completed q { status := .rejDeadline })) ∧
    (∀ T r e k, s.alive = true → s.mrdState = mrdUnlocked ∨ s.mrdState = mrdAcquire → s.inSchedule = false → s.que.tickets = [T] →
      T.origin = .host r → T.awaiting = [] → T.packet.opcode = 0x03 → T.packet.f4 = true → s.cfg.prepared = some ⟨e, k, true⟩ →
      s.cfg.lead = some ⟨T.no, e, k, [], [], true⟩ → s.cfg.stagedRegs = [] → s.cfg.instA = [] → s.cfg.instS = [] → s.unsettled = false →
      s.srv = Srv.reset → s.cfg.deviceCommit = [] → s.flt.declared = [] → s.flt.rejoin = [] → s.flt.fatalParts = [] → s.flt.fatalFar = [] →
      Completes .localMillisecond s fun t =>
        t.get R.CFG_STATUS.ACTIVE_EPOCH = e % 2 ^ R.CFG_STATUS.ACTIVE_EPOCH.width ∧ t.cfg.prepared = none ∧ t.cfg.lead = none ∧
          t.cfg.lockCluster = false ∧ t.cfg.lockDevice = false ∧
          (∀ x, s.frw.staged = some x → t.frw.active = some x ∧ t.frw.staged = none ∧ (s.frwState = frwNoPlan → t.frwState = frwStopped)) ∧
          t.que.tickets = [] ∧ t.mem = s.mem)

/-- The packets of membership and repair, at a device in no cluster: a cluster of one is formed with epoch 1 and an empty
configuration; the device that REJOIN names is asked, with the copy of the configuration; an engine out of the map begins its
self-test; a partition that no instance uses writes back its Granary before it is held (R138, R148, R586, R587). -/
def Obligations.MembershipPackets : Prop :=
  ∀ (s : State) (p q : Packet), s.alone →
    (∀ b e, q = p.op 0x05 → s.takes q → b.length = p.payloadLen → b.length % 16 = 0 → formEntries b = [e] → e.clean = true →
      e.spare = false → e.serial = Config.serial → s.formConflict [e] = false → Completes (.clusterForm p (some b)) s fun t =>
        t.assigned = true ∧ t.isSet R.GLB_DEVPOS.LEAD = true ∧ t.get R.GLB_MEMBERSHIP.EPOCH = 1 ∧
          t.get R.CFG_STATUS.ACTIVE_EPOCH = 0 ∧ t.cfg.instA = [] ∧ t.frw.active = none ∧ t.que.tickets = []) ∧
    (∀ h, q = (p.op 0x07).with_ 5 false → s.takes q → p.p0 ≠ Config.serial → Table.get none p.p0 s.flt.heard = some h →
      s.portUp h.port = true → Completes (.rejoin p) s fun t =>
        t.que.tickets = [{ s.nextTicket q none none with note := 1, awaiting := [(64, s.flt.nextMsg)] }] ∧
          t.told h.device (.fwdCopy { q with p3 := 0, p4 := 1 } s.clusterCopy) ∧ t.cfg = s.cfg ∧ t.frw = s.frw ∧ t.mem = s.mem) ∧
    (q = (p.op 0x07).with_ 5 false → s.takes q → p.p0 ≠ Config.serial → Table.get none p.p0 s.flt.heard = none →
      Completes (.rejoin p) s fun t => t = s.counted.completed q { status := .failDevice, detail := 5 }) ∧
    (∀ n e, q = (p.op 0x07).with_ 5 true → s.takes q → bits p.p2 0 6 = s.self → n = bits p.p2 8 4 → e = bits p.p2 12 4 →
      (∀ l, l < 8 → bits (s.get (R.TILE_ENGINE_MAP.PHYS n)) (4 * l) 4 ≠ e) → s.get (R.TILE_ENGINE_MAP.SPARE n) = 0xF →
      (s.tile n).bist = none → (s.tile n).regain = none → Completes (.rejoinEngine p) s fun t =>
        t = (s.accepted q none none).modTile n fun x => { x with bist := some (e, s.que.nextNo) }) ∧
    (∀ n, q = p.op 0x08 → s.takes q → bits p.p0 0 6 = s.self → n = bits p.p0 8 4 → s.users s.self n = [] →
      Completes (.resetPartition p) s fun t =>
        t.flt.holdWait = s.flt.holdWait ++ [(n, s.que.nextNo)] ∧ (t.tile n).granary = [] ∧ t.mem = s.mem ∧
          s.sameRegs t [R.TSTORE_GRANARY_EVENTS.WRITEBACKS n])

/-- The packets of the schedule, at a device in no cluster. MERIDIAN_SET waits for a mark. FURROW_START on a stopped schedule
with a plan and 100 us to spare moves the state to ARMED, and its final completion waits for T0; earlier it is refused.
FURROW_STOP marks the headland at which the schedule stops; on an ARMED schedule it stops at once (R37, R41, R42, R44). A stop
in ARMED is the model's choice (log entry 50), as is the set that waits (14). -/
def Obligations.SchedulePackets : Prop :=
  ∀ (s : State) (p : Packet), s.alone →
    (s.takes (p.op 0x10) → s.idle = true → Completes (.meridianSet p) s fun t =>
      t = { s.accepted (p.op 0x10) none none with mrd := { s.mrd with setTo := s.mrd.setTo ++ [(p.p0, s.que.nextNo)] } }) ∧
    (s.takes (p.op 0x12) → s.ready = true → s.frw.active.isSome = true → s.frwState = frwStopped → s.mrd.setTo = [] →
      (s.now + 100000 ≤ p.p0 → Completes (.furrowStart p) s fun t =>
        t.frwState = frwArmed ∧ t.frw = { s.frw with t0 := p.p0, k0 := s.frw.nextK, turned := false, nextTemplate := 0, fallowRun := 0,
                                                     startTicket := some s.que.nextNo } ∧
          t.que = (s.accepted (p.op 0x12) none none).que ∧ s.leaves t [R.FRW_STATE.STATE]) ∧
      (p.p0 < s.now + 100000 → Completes (.furrowStart p) s fun t =>
        t = s.counted.completed (p.op 0x12) { status := .rejDeadline })) ∧
    (s.takes (p.op 0x13) → s.inSchedule = true → s.frw.stopAt = none → p.f4 = false → s.furrow < p.p0 →
      Completes (.furrowStop p) s fun t =>
        t.frw = { s.frw with stopAt := some p.p0, stopTicket := some s.que.nextNo } ∧ t.isSet R.FRW_STATE.STOP_PENDING = true ∧
          t.que = (s.accepted (p.op 0x13) none none).que ∧ s.leaves t [R.FRW_STATE.STOP_PENDING]) ∧
    (s.takes (p.op 0x13) → s.frwState = frwArmed → s.frw.stopAt = none → (p.f4 = true ∨ s.furrow ≤ p.p0) →
      s.frw.startTicket = none → s.frw.stopTicket = none → s.stopsAlone → Completes (.furrowStop p) s fun t =>
        t.frwState = frwStopped ∧ t.frw.nextK = s.frw.nextK ∧ t.que.tickets = [] ∧ t.mem = s.mem)

/-- Diagnostics on the device itself while no schedule runs: a run of traffic on a stack, the training of its lanes, a test of
a port and a self-test begin, and their results are cleared (R411, R412, R435, R471, R475, R610). The ends of diagnostics
(R411, R413, R471, R476, R587): what a run found is in its result registers, and the packet that began it completes. Of the
partitions a self-test has judged the tile stores and scratchpads are zero; they are in service where they passed and lost
where they did not. The modes in which a self-test leaves partitions are the model's choice (log entry 59). -/
def Obligations.Diagnostics : Prop :=
  (∀ (s : State) (p q : Packet), s.alone → s.idle = true → bits p.p0 0 6 = s.self →
    let n := bits p.p0 8 4
    let port := bits p.p0 8 5
    let result := [R.STACK_TG_RESULT.MISMATCHES n, R.STACK_TG_RESULT.UNCORRECTABLE n, R.STACK_TG_RESULT.FIRST_PC n, R.STACK_TG_RESULT.VALID n]
    let shown := [R.LINK_TEST_RESULT.ERRORS port, R.LINK_TEST_RESULT.ERRORED_LANES port, R.LINK_TEST_RESULT.VALID port]
    let S := R.LINK_STATUS.STATE port
    (∀ c ∈ [(1, Instr.seqRead p), (2, .random2kRead p), (3, .random64Read p), (4, .seqWriteCheck p), (5, .mixedCheck p),
        (6, .nbuRead p)], q = (p.op 0x70).pattern c.1 → s.takes q → (s.stack n).traffic = none → (s.stack n).training = none →
      (4 ≤ c.1 → c.1 ≤ 5 → s.get (R.STACK_TG_REGIONS.ALLOW n) ≠ 0) → Completes c.2 s fun t =>
        t.stack n = { s.stack n with
          traffic := some ⟨c.1, if 4 ≤ c.1 ∧ c.1 ≤ 5 then s.get (R.STACK_TG_REGIONS.ALLOW n) else 0, p.p1, s.que.nextNo⟩ } ∧
        (∀ k, k ≠ n → t.stack k = s.stack k) ∧ (∀ f ∈ result, t.get f = 0) ∧ t.que = (s.accepted q none none).que ∧ s.leaves t result) ∧
    (q = (p.op 0x70).pattern 7 → s.takes q → (s.stack n).traffic = none → (s.stack n).training = none → Completes (.retrain p) s fun t =>
      t.stack n = { s.stack n with training := some s.que.nextNo } ∧ (∀ k, k ≠ n → t.stack k = s.stack k) ∧ (∀ f ∈ result, t.get f = 0) ∧
        t.que = (s.accepted q none none).que ∧ s.leaves t result) ∧
    (∀ c ∈ [(1, Instr.prbs31q p), (2, .prbs13q p), (3, .ssprq p), (4, .frameLoop p), (5, .linkTestRetrain p)],
      q = (p.op 0x71).pattern c.1 → s.takes q → s.peerRuns port = false → (s.link port).test = none →
      -- the link is UP and nothing of a step is on it
      (s.portUp port = true → s.coll.opened = [] → (s.link port).rx = none → s.noColl → Completes c.2 s fun t =>
        t.get S = (if c.1 = 5 then linkTrain else linkTest) ∧ t.isSet (R.LINK_STATUS.PEER_VALID port) = false ∧
          (c.1 = 5 → t.isSet R.GLB_READY.LINKS_OK = false) ∧ (t.link port).test = some ⟨c.1, s.que.nextNo⟩ ∧ (t.link port).replay = [] ∧
          s.onlyLink t port ∧ (∀ f ∈ shown, t.get f = 0) ∧ t.que = (s.accepted q none none).que ∧
          s.leaves t (shown ++ [S, R.LINK_STATUS.PEER_VALID port, R.LINK_COUNTS2.RETRAINS port, R.GLB_READY.LINKS_OK])) ∧
      -- a pattern that is only transmitted needs no peer
      (c.1 = 3 → s.portUp port = false → s.get S ≠ linkDown → s.get S ≠ linkTest → Completes c.2 s fun t =>
        t.get S = linkTest ∧ t.link port = { s.link port with test := some ⟨3, s.que.nextNo⟩ } ∧ s.onlyLink t port ∧
          (∀ f ∈ shown, t.get f = 0) ∧ t.que = (s.accepted q none none).que ∧ s.leaves t (shown ++ [S, R.GLB_READY.LINKS_OK]))) ∧
    (q = p.op 0x72 → s.takes q → s.flt.selftest = none →
      (∀ k ∈ bitList 16 (bits p.p0 16 16), s.usedBy s.cfg.instA k = [] ∧ s.usedBy s.cfg.instS k = []) →
      Completes (.selftest p) s fun t =>
        t.flt = { s.flt with selftest := some (s.que.nextNo, bits p.p0 16 16) } ∧
          (∀ k, k < 16 → t.get (R.TILE_SEQ_CTRL.MODE k) =
            if bit (bits p.p0 16 16) k then 2 else s.get (R.TILE_SEQ_CTRL.MODE k)) ∧
          t.que = (s.accepted q none none).que ∧ s.leaves t ((bitList 16 (bits p.p0 16 16)).map R.TILE_SEQ_CTRL.MODE))) ∧
  (∀ (s : State) (T : Ticket) (i n : Nat), s.alive = true → s.que.tickets = [T] → T.origin = .host i → T.awaiting = [] → T.answers = [] →
    T.fence = none → T.barrier = false → n < 16 →
    (∀ g count mis unc first left, (s.stack n).traffic = some g → g.ticket = T.no → g.pattern ≠ 4 → g.pattern ≠ 5 →
      Completes (.trafficGenEnd n count mis unc first left) s fun t =>
        t.get (R.STACK_TG_RESULT.MISMATCHES n) = mis % 2 ^ 32 ∧ t.get (R.STACK_TG_RESULT.UNCORRECTABLE n) = unc % 2 ^ 16 ∧
          t.get (R.STACK_TG_RESULT.FIRST_PC n) = first.getD 0 % 2 ^ 6 ∧ t.isSet (R.STACK_TG_RESULT.VALID n) = first.isSome ∧
          (t.stack n).traffic = none ∧ t.que.tickets = [] ∧ t.mem = s.mem) ∧
    -- a pattern that writes leaves what it left in the regions that it may write, and nothing elsewhere changes
    (∀ g count mis unc first left, (s.stack n).traffic = some g → g.ticket = T.no → (g.pattern = 4 ∨ g.pattern = 5) →
      Completes (.trafficGenEnd n count mis unc first left) s fun t =>
        t.get (R.STACK_TG_RESULT.MISMATCHES n) = mis % 2 ^ 32 ∧ (t.stack n).traffic = none ∧ t.que.tickets = [] ∧
          ((∀ e ∈ left, e.2.length ≤ 2 ^ 30) → ∀ a, ¬ (stackBase n ≤ a ∧ a < stackBase n + 0xC00000000 ∧
            bit g.regions (regionOf a) = true) → t.byte a = s.byte a) ∧
          (left = [] → ∀ a, stackBase n ≤ a → a < stackBase n + 0xC00000000 → bit g.regions (regionOf a) = true → t.byte a = 0)) ∧
    (∀ g checked errors lanes p, p < 24 → (s.link p).test = some g → g.ticket = T.no → s.get (R.LINK_STATUS.STATE p) = linkTest →
      Completes (.linkTestEnd p checked errors lanes) s fun t =>
        t.get (R.LINK_TEST_RESULT.ERRORS p) = (if g.pattern = 3 then 0 else errors % 2 ^ 32) ∧
          t.get (R.LINK_TEST_RESULT.ERRORED_LANES p) = (if g.pattern ≤ 2 then lanes % 2 ^ 8 else 0) ∧
          t.isSet (R.LINK_TEST_RESULT.VALID p) = true ∧ t.get (R.LINK_STATUS.STATE p) = linkTrain ∧ (t.link p).test = none ∧
          t.que.tickets = [] ∧ t.mem = s.mem) ∧
    (∀ spares failed, (s.stack n).training = some T.no → (s.stack n).queue = [] → Completes (.stackRetrainDone n spares failed) s fun t =>
      t.get (R.STACK_LANE_STATUS.SPARES_USED n) = spares % 2 ^ 7 ∧
        t.get (R.STACK_LANE_STATUS.ERASED_LANES n) = (marksOf failed).length % 2 ^ 7 ∧ (t.stack n).training = none ∧
        (t.stack n).marked = marksOf failed ∧ (t.stack n).corrected = [] ∧ t.que.tickets = [] ∧ t.mem = s.mem) ∧
    (∀ parts results left, s.flt.selftest = some (T.no, parts) → (∀ k, k < 16 → (s.stack k).queue = []) →
      let passed := fun k => results.any fun r : SelfResult => r.partition == k && r.failed == 0
      Completes (.selftestDone results left) s fun t =>
        t.flt.selftest = none ∧ t.que.tickets = [] ∧ (∀ k, k < 16 → t.partOk k = if bit parts k then passed k else s.partOk k) ∧
          (∀ k, k < 16 → bit parts k = true → passed k = true → t.get (R.TILE_SEQ_CTRL.MODE k) = 0 ∧ k ∉ t.flt.heldParts) ∧
          let tested := fun a => ∃ k, k < 16 ∧ bit parts k = true ∧ ((tileStoreBase k ≤ a ∧ a < tileStoreBase k + 0x10000000) ∨
            (scratchBase k ≤ a ∧ a < scratchBase k + 0x2000000))
          (∀ a, tested a → t.byte a = 0) ∧ ∀ a, ¬ tested a → t.byte a = s.byte a))

/-- TRAFFIC_GEN, LINK_TEST and SELFTEST complete with CFG_CONFLICT when the furrow state of the device they name is neither
NO_PLAN nor STOPPED (R145): at the lead device for itself, and at the member that the lead forwards them to. -/
def Obligations.DiagnosticsRefused : Prop :=
  ∀ (s : State), s.alive = true → s.frwState ≠ frwNoPlan → s.frwState ≠ frwStopped →
    (∀ (p q : Packet), bits p.p0 0 6 = s.self → s.takes q →
      ∀ c ∈ [((p.op 0x70).pattern 1, Instr.seqRead p), ((p.op 0x70).pattern 2, .random2kRead p), ((p.op 0x70).pattern 3, .random64Read p),
        ((p.op 0x70).pattern 4, .seqWriteCheck p), ((p.op 0x70).pattern 5, .mixedCheck p), ((p.op 0x70).pattern 6, .nbuRead p),
        ((p.op 0x70).pattern 7, .retrain p), ((p.op 0x71).pattern 1, .prbs31q p), ((p.op 0x71).pattern 2, .prbs13q p),
        ((p.op 0x71).pattern 3, .ssprq p), ((p.op 0x71).pattern 4, .frameLoop p), ((p.op 0x71).pattern 5, .linkTestRetrain p),
        (p.op 0x72, .selftest p)], q = c.1 →
        Completes c.2 s fun t => t = s.counted.completed q { status := .cfgConflict }) ∧
    (∀ (port frags : Nat) (m : CtrlMsg) (k : Packet) (pay : Option Bytes) (img : Option ModelImage), s.takesMessage port m →
      s.que.tickets = [] → s.isFenced = false → m.body = .fwdCmd k pay img → k.opcode ∈ [0x70, 0x71, 0x72] → (s.route m.src).isSome = true →
        Completes (.fwdCmd port frags m) s fun t =>
          t.told m.src (.completion m.msgId .cfgConflict 0 0 0 []) ∧ t.que.tickets = [] ∧ t.mem = s.mem ∧ ∀ f, t.get f = s.get f)

/-! ### Registers that software writes -/

/-- A write of SEQ_CTRL.MODE takes: SERVICE always, another mode outside the schedule or on a partition that no instance uses;
and nothing else changes (R190).  GO on an idle sequencer outside SERVICE loads the direct list from the control cores' SRAM and
runs it: the sequencer is in DIRECT at index 0 with FAILED and ABANDONED clear, and memory and every other register stay (R189).
SPARE_REQ adds a logical engine to those to be replaced at the next turnaround, and is ignored while a pair is doubled (R194,
R195).  CLEAR brings an instance's health from DEGRADED back to RUNNING with no run of failures, unless it has a doubled tile;
in any other state it does nothing (R577). -/
def Obligations.SoftwareControls : Prop :=
  (∀ (s : State) (n m : Nat), s.alive = true → n < 16 → m < 4 →
    ((m = 0 ∨ s.idle = true ∨ s.usedBy s.cfg.instA n = []) → Completes (.seqCtrlModeWrite n m) s fun t =>
      t = s.put (R.TILE_SEQ_CTRL.MODE n) m ∧ t.get (R.TILE_SEQ_CTRL.MODE n) = m) ∧
    (¬ (m = 0 ∨ s.idle = true ∨ s.usedBy s.cfg.instA n = []) → Completes (.seqCtrlModeWrite n m) s fun t => t = s)) ∧
  (∀ (s : State) (n : Nat), s.alive = true → n < 16 → s.get (R.TILE_SEQ_CTRL.MODE n) ≠ 0 → s.seqState n = seqIdle →
    n ∉ s.flt.heldParts → 0 < s.get (R.TILE_DIRECT_LIST.COUNT n) → sramBase ≤ s.get (R.TILE_DIRECT_LIST.ADDR n) * 64 →
    s.get (R.TILE_DIRECT_LIST.ADDR n) * 64 + 64 * s.get (R.TILE_DIRECT_LIST.COUNT n) ≤ sramBase + 0x1000000 →
      Completes (.directListGo n) s fun t =>
        t.seqState n = seqDirect ∧ t.listIndex n = 0 ∧ t.isSet (R.TILE_SEQ_STATUS.FAILED n) = false ∧
        t.isSet (R.TILE_SEQ_STATUS.ABANDONED n) = false ∧ (t.tile n).goTime = s.now ∧
        (t.tile n).list = ((List.range (s.get (R.TILE_DIRECT_LIST.COUNT n))).map fun i =>
          s.read (s.get (R.TILE_DIRECT_LIST.ADDR n) * 64 + 64 * i) 64) ∧
        (∀ m, m ≠ n → t.tile m = s.tile m) ∧ t.mem = s.mem ∧ t.out = s.out ∧
        s.sameRegs t [R.TILE_SEQ_STATUS.STATE n, R.TILE_SEQ_STATUS.LIST_INDEX n, R.TILE_SEQ_STATUS.FAILED n,
          R.TILE_SEQ_STATUS.ABANDONED n]) ∧
  (∀ (s : State) (n e : Nat), s.alive = true → n < 16 → e < 8 →
    (s.isSet (R.TILE_ENGINE_MAP.DOUBLED n) = false → Completes (.spareReq n e) s fun t =>
      t = s.modTile n (fun x => { x with spareReq := (List.range 8).filter fun k => k == e || x.spareReq.contains k }) ∧
        (∀ k, k < 8 → (k ∈ (t.tile n).spareReq ↔ k = e ∨ k ∈ (s.tile n).spareReq))) ∧
    (s.isSet (R.TILE_ENGINE_MAP.DOUBLED n) = true → Completes (.spareReq n e) s fun t => t = s)) ∧
  (∀ (s : State) (i : Nat), s.alive = true → i < 16 →
    (s.isLead = true → s.health i = healthDegraded → s.doubledTile i = false → Completes (.instHealthClear i) s fun t =>
      t.health i = healthRunning ∧ t.get (R.GLB_INST_HEALTH.FAIL_RUN i) = 0 ∧ t.mem = s.mem ∧ t.out = s.out ∧
        s.sameRegs t [R.GLB_INST_HEALTH.STATE i, R.GLB_INST_HEALTH.FAIL_RUN i]) ∧
    (¬ (s.isLead = true ∧ s.health i = healthDegraded ∧ s.doubledTile i = false) →
      Completes (.instHealthClear i) s fun t => t = s))

/-- A write by the host stores a live field of a plain register where the window takes it and the field has that encoding; a
write that the window does not take changes nothing but a counter (R12, R480). EVLOG_SEL loads the entry it names into
EVLOG_DATA where the ring holds it, also on a device that has stopped (R580, R605). A submission ring that the host enables
begins empty: its base and size stand, its head and tail are 0; a ring in use keeps its size (R116, R120). Writes that change
nothing, and SIZE_CODE of a ring in use, follow log entry 68. -/
def Obligations.RegisterWrites : Prop :=
  (∀ (s : State) (size off v : Nat), s.alive = true → s.hostReaches = true →
    (s.isSet R.GLB_READY.BOOT_OK = true → size = 8 → off % 8 = 0 → writable off = true → inQue off = false → s.protBlock off = none →
      regAction off = .plain → v < 2 ^ 64 → Completes (.registerWrite true size off v) s fun t =>
        (∀ f, fieldsAt off = [f] → f.access = .live → 0 < f.width → f.lo + f.width ≤ 64 → s.get f < 2 ^ f.width →
          t = if f.isLegal (bits v f.lo f.width) then s.put f (bits v f.lo f.width) else s) ∧
        t.mem = s.mem ∧ t.out = s.out ∧ (∀ f, f ∉ fieldsAt off → (∀ g ∈ fieldsAt off, f.key ≠ g.key) → t.get f = s.get f)) ∧
    ((s.isSet R.GLB_READY.BOOT_OK = false ∨ size ≠ 8 ∨ off % 8 ≠ 0 ∨ writable off = false ∨ (inQue off = true ∧ s.isLead = false)) →
      Completes (.registerWrite true size off v) s fun t => t = s.bump R.CXLU_ERRORS.WINDOW_WRITES)) ∧
  (∀ (s : State) (q : Nat) (b : Bytes), s.pins.sysRstN = true → s.pins.railsOn = true → s.hostReaches = true →
    s.isSet R.GLB_READY.BOOT_OK = true → q < 2 ^ 32 → s.evEntry q = some b →
      Completes (.evlogSelWrite q) s fun t =>
        t.get R.MGT_EVLOG_SEL.SEQ = q ∧ (∀ k, k < 8 → t.get (R.MGT_EVLOG_DATA.BYTES k) = rd b (8 * k) 8) ∧ t.mem = s.mem ∧
          t.out = s.out ∧ s.sameRegs t (R.MGT_EVLOG_SEL.SEQ :: (List.range 8).map R.MGT_EVLOG_DATA.BYTES)) ∧
  (∀ (s : State) (i v : Nat), s.alive = true → s.hostReaches = true → s.isSet R.GLB_READY.BOOT_OK = true → s.isLead = true → i < 16 →
    v < 2 ^ 64 →
    (s.isSet (R.QUE_SQ_CTRL.ENABLE i) = false → bits v (R.QUE_SQ_CTRL.ENABLE i).lo 1 = 1 → Completes (.ringCtrlWrite 0 i v) s fun t =>
      t.isSet (R.QUE_SQ_CTRL.ENABLE i) = true ∧ t.get (R.QUE_SQ_CTRL.INDEX i) = 0 ∧ Table.get 0 i t.que.sqTail = 0 ∧
        t.mem = s.mem ∧ t.out = s.out) ∧
    (s.isSet (R.QUE_SQ_CTRL.ENABLE i) = true → Completes (.ringCtrlWrite 0 i v) s fun t =>
      t.get (R.QUE_SQ_CTRL.SIZE_CODE i) = s.get (R.QUE_SQ_CTRL.SIZE_CODE i) ∧ t.mem = s.mem ∧ t.out = s.out))

/-- An atomic operation of a control core on a word whose line is in its Granary is performed at once: the word takes the
operation's value, its old value and flags are shown, and every other byte stays; a refusal of R383 changes no byte.  What an
operation computes: sums wrap, signed and unsigned extremes compare as such, CAS stores only on equality, and a reference count
moves both halves or neither (R382, R383). -/
def Obligations.Atomics : Prop :=
  (∀ (s : State) (n c : Nat) (wide : Bool) (h : Nat), s.alive = true → n < 16 → c < 4 →
    let a := s.get (R.TSTORE_ATOM_ADDR.ADDR n c)
    let len := if wide then 8 else 4
    s.isSet (R.TSTORE_ATOM_STATUS.DONE n c) = true → s.cacheHome a = some n → a % len = 0 →
    ((s.gset n (setOf (a / 64 * 64))).find (a / 64 * 64)) = some h →
      ∀ e ∈ [(1, Instr.atomAdd (.window n c wide)), (2, .atomMin (.window n c wide)), (3, .atomMax (.window n c wide)),
          (4, .minu (.window n c wide)), (5, .maxu (.window n c wide)), (6, .cas (.window n c wide)),
          (7, .refInc (.window n c wide)), (8, .refDec (.window n c wide))], (wide = true → e.1 ≤ 6) →
        let old := s.readNat a len
        let r := atomOp e.1 (8 * len) old (s.get (R.TSTORE_ATOM_DATA.VALUE n c)) (s.get (R.TSTORE_ATOM_CMP.VALUE n c))
        Completes e.2 s fun t =>
          t.get (R.TSTORE_ATOM_RESULT.VALUE n c) = old % 2 ^ 64 ∧ t.isSet (R.TSTORE_ATOM_STATUS.DONE n c) = true ∧
          t.isSet (R.TSTORE_ATOM_STATUS.ZERO n c) = r.zero ∧ t.isSet (R.TSTORE_ATOM_STATUS.WAS_ZERO n c) = r.wasZero ∧
          t.isSet (R.TSTORE_ATOM_STATUS.SUCCESS n c) = r.success ∧ t.isSet (R.TSTORE_ATOM_STATUS.REFUSED n c) = r.cause.isSome ∧
          (r.cause = none → t.read a len = leBytes len r.new) ∧
          (∀ b, ¬ (r.cause = none ∧ a ≤ b ∧ b < a + len) → t.byte b = s.byte b) ∧ t.out = s.out) ∧
  (∀ (w old data cmp : Nat), w = 32 ∨ w = 64 → old < 2 ^ w → data < 2 ^ w → cmp < 2 ^ w →
    (atomOp 1 w old data cmp).new = (old + data) % 2 ^ w ∧
    signed w (atomOp 2 w old data cmp).new = min (signed w old) (signed w data) ∧
    signed w (atomOp 3 w old data cmp).new = max (signed w old) (signed w data) ∧
    (atomOp 4 w old data cmp).new = min old data ∧ (atomOp 5 w old data cmp).new = max old data ∧
    (atomOp 6 w old data cmp).new = (if old = cmp then data else old) ∧
    ((atomOp 6 w old data cmp).success = true ↔ old = cmp) ∧
    (∀ r p i j, r < 2 ^ 16 → p < 2 ^ 16 → i < 2 ^ 16 → j < 2 ^ 16 →
      (r + i < 2 ^ 16 → p + j < 2 ^ 16 →
        (atomOp 7 w (r + 2 ^ 16 * p) (i + 2 ^ 16 * j) cmp).new = (r + i) + 2 ^ 16 * (p + j) ∧
        (atomOp 7 w (r + 2 ^ 16 * p) (i + 2 ^ 16 * j) cmp).cause = none) ∧
      (2 ^ 16 ≤ r + i ∨ 2 ^ 16 ≤ p + j → (atomOp 7 w (r + 2 ^ 16 * p) (i + 2 ^ 16 * j) cmp).cause = some 5) ∧
      (i ≤ r → j ≤ p →
        (atomOp 8 w (r + 2 ^ 16 * p) (i + 2 ^ 16 * j) cmp).new = (r - i) + 2 ^ 16 * (p - j) ∧
        (atomOp 8 w (r + 2 ^ 16 * p) (i + 2 ^ 16 * j) cmp).cause = none) ∧
      (r < i ∨ p < j → (atomOp 8 w (r + 2 ^ 16 * p) (i + 2 ^ 16 * j) cmp).cause = some 4)))

/-! ### Step plans and engines (spec/05_step_plans.md to spec/13_fjarip_fabric.md) -/

/-- The sequencer issues its next descriptor to the engine's queue while that has room: it stands last there with its scalars
and index, LIST_INDEX goes on by one, and collectives go on as far as they can (R182, R188, R198).  What the sequencer executes
itself: a wait ends once its time or its counter's value has come, a hint is taken, a phase is marked, and the sequencer goes
past the descriptor with its signal (R181, R182, R184, R519).  A notice of a step that failed elsewhere sends a tile that still
owes its step to SKIP, or past it where its list has ended (R192). -/
def Obligations.SequencerWork : Prop :=
  (∀ (s : State) (n q : Nat) (d : Bytes), s.alive = true → n < 16 → s.nextDesc n = some d → queueOf d = some q → s.issuing n = true →
    (s.seqState n = seqRun ∨ (s.seqState n = seqDirect ∧ s.directBad n d = false)) →
    (s.queue n q).length < queueDepth q → Completes (.descriptorIssue n) s fun t =>
      t = ((s.advance n).setQueue n q (s.queue n q ++
        [(⟨d, s.listIndex n, (s.scalars n d).1, (s.scalars n d).2, 0, false, false, none, []⟩ : Queued)])).collectives) ∧
  (∀ (s : State) (n : Nat) (d : Bytes), s.alive = true → n < 16 → s.nextDesc n = some d → s.issuing n = true → s.seqState n = seqRun →
    (D.type d = tWait → D.wMode d = 1 → s.now = s.get R.FRW_START_TIME.START_TIME + D.wOffset d → Completes (.waitMeridian n) s
      fun t => t = (s.advance n).completeDesc n d) ∧
    (D.type d = tWait → D.wMode d = 1 → s.now < s.get R.FRW_START_TIME.START_TIME + D.wOffset d → Completes (.waitMeridian n) s
      fun t => t = s.modTile n fun x => { x with waiting := true }) ∧
    (D.type d = tWait → D.wMode d = 1 → s.get R.FRW_START_TIME.START_TIME + D.wOffset d < s.now → (s.tile n).waiting = false →
      Completes (.waitMeridian n) s fun t => t = ((s.bump (R.TILE_SEQ_COUNTS.LATE_WAITS n)).advance n).completeDesc n d) ∧
    (D.type d = tWait → D.wMode d = 2 → D.wValue d ≤ s.event n (D.wCtr d) → Completes (.waitCounter n) s
      fun t => t = (s.advance n).completeDesc n d) ∧
    (D.type d = tWait → D.wMode d = 2 → s.event n (D.wCtr d) < D.wValue d → Completes (.waitCounter n) s fun t => t = s) ∧
    (D.type d = tHint → Completes (.hintDescriptor n) s fun t => t = ((s.hintTile n d).advance n).completeDesc n d) ∧
    (D.type d = tMark → Completes (.markDesc n) s fun t => t = ((s.mark n (D.hPhase d)).advance n).completeDesc n d)) ∧
  (∀ (s : State) (n : Nat), s.alive = true → n < 16 → (s.tile n).notice = true →
    (s.owes n = true → s.seqState n ≠ seqSkip → Completes (.failureNotice n) s fun t =>
      (t.tile n).notice = false ∧ (t.seqState n = seqSkip ∨ t.seqState n = seqDone ∨ t.seqState n = seqIdle) ∧ t.mem = s.mem ∧
        t.out = s.out ∧ ∀ m, m ≠ n → t.tile m = s.tile m) ∧
    (s.owes n = false ∨ s.seqState n = seqSkip → Completes (.failureNotice n) s fun t => t = s.modTile n fun x => { x with notice := false }))

/-- A vector operation whose inputs can be read: what its body gives ends it, with its signal; a function table or a word that
is not whole fails the step. Its operand errors are counted first, and nothing outside what the body writes is touched (R183,
R261 to R271).  What the plain vector operations leave: the output region holds, row by row in the output format, the operation
on the inputs as they were read; every other byte of memory is as before (R261, R263, R264). -/
def Obligations.VectorEngine : Prop :=
  (∀ (s u : State) (n stalls : Nat) (mem : MemReport) (h : Queued), s.alive = true → n < 16 →
    s.runnable n 8 tVec = some h → D.vLength h.desc ≠ 0 →
    u = (s.memReport srcVector mem).wrapAdd (R.TILE_VEC_STALLS.OPERAND_STALLS n) stalls →
    (u.seqState n == seqDirect && vecOverlap h.desc) = false →
    (∀ x ∈ u.vecAccs h, inScratch n x.addr x.len = true ∨ inTileStore n x.addr x.len = true) →
    u.gate n (u.tile n).inst (u.vecAccs h) = (u, .go) →
      ∀ e ∈ ([(0x01, .vecCopy n stalls mem, vecUnary fun _ x => x), (0x02, .vecAdd n stalls mem, vecBinary Machine.Num.add),
          (0x03, .vecSub n stalls mem, vecBinary Machine.Num.sub), (0x04, .vecMul n stalls mem, vecBinary Machine.Num.mul),
          (0x05, .fma n stalls mem, vecTernary fun a b c => (a.mul b).add c), (0x06, .axpb n stalls mem, vecUnary axpb),
          (0x07, .vecMax n stalls mem, vecBinary Machine.Num.max), (0x08, .vecMin n stalls mem, vecBinary Machine.Num.min),
          (0x09, .mulrow n stalls mem, vecByRow Machine.Num.mul), (0x0a, .divrow n stalls mem, vecByRow Machine.Num.div),
          (0x10, .rowsum n stalls mem, vecReduce sumRow), (0x11, .rowmax n stalls mem, vecReduce maxRow),
          (0x12, .rowamax n stalls mem, vecReduce fun v => maxRow (v.map Machine.Num.abs)),
          (0x18, .actTable n stalls mem, vecTable fun t => vecUnary fun _ x => t x),
          (0x19, .gateTable n stalls mem, vecTable fun t => vecBinary fun a b => (t a).mul b),
          (0x1a, .exprow n stalls mem, vecTable fun t => vecByRow fun a r => t (fp32.rnd (a.sub r))),
          (0x1c, .rmsnorm n stalls mem, vecNorm fun f eps g _ x => rmsNorm f eps g x),
          (0x1d, .layernorm n stalls mem, vecNorm layerNorm),
          (0x20, .quantI8s n stalls mem, vecQuant n .i8s), (0x21, .quantI8a n stalls mem, vecQuant n .i8a),
          (0x22, .quantFp8 n stalls mem, fun s h => vecQuant n (.fp8 (if bit (D.vOp h.desc) 6 then e5m2 else e4m3)) s h),
          (0x24, .rescaleTab n stalls mem, vecRescaleTab n), (0x25, .rescaleReg n stalls mem, vecRescaleReg n),
          (0x26, .rescaleFp n stalls mem, vecRescaleFp), (0x28, .wireQ8 n stalls mem, vecWireQ8 n),
          (0x29, .wireFp8 n stalls mem, vecWire fun d => if bit (D.vOp d) 6 then e5m2 else e4m3),
          (0x2a, .wireWide n stalls mem, vecWire fun d => if bit (D.vOp d) 6 then bf16 else fp32),
          (0x2c, .widenAdd n stalls mem, vecWiden fun d => D.vOp d / 64), (0x2d, .widenAddF32 n stalls mem, vecWiden fun _ => 4)]
            : List (Nat × Instr × (State → Queued → VecEnd))), vCode h.desc = e.1 →
        (∀ w, e.2.2 u h = .done w → Completes e.2.1 s fun t => t = w.complete n 8) ∧
        (e.2.2 u h = .tableFault → Completes e.2.1 s fun t => t = (u.bump (R.TILE_VEC_COUNTS.TABLE_FAULTS n)).failHead n 8 .failStep) ∧
        (e.2.2 u h = .wordFault → Completes e.2.1 s fun t => t = (u.bump (R.TILE_VEC_COUNTS.WORD_FAULTS n)).failHead n 8 .failStep)) ∧
  (∀ (s : State) (n stalls : Nat) (h : Queued), s.alive = true → n < 16 → s.runnable n 8 tVec = some h → D.vLength h.desc ≠ 0 →
    (s.seqState n == seqDirect && vecOverlap h.desc) = false → (∀ x ∈ s.vecAccs h, inScratch n x.addr x.len = true ∨ inTileStore n x.addr x.len = true) →
    s.gate n (s.tile n).inst (s.vecAccs h) = (s, .go) →
      let d := h.desc
      let a := s.inRow d 0
      let b := s.inRow d 1
      let c := s.inRow d 2
      let k := fun r => s.rowVal (D.vIn d 1) r
      ∀ e ∈ ([(0x01, .vecCopy n stalls ⟨[], []⟩, a), (0x02, .vecAdd n stalls ⟨[], []⟩, fun r => List.zipWith Machine.Num.add (a r) (b r)),
          (0x03, .vecSub n stalls ⟨[], []⟩, fun r => List.zipWith Machine.Num.sub (a r) (b r)),
          (0x04, .vecMul n stalls ⟨[], []⟩, fun r => List.zipWith Machine.Num.mul (a r) (b r)),
          (0x05, .fma n stalls ⟨[], []⟩, fun r => List.zipWith (fun x y => (x.mul y.1).add y.2) (a r) (List.zip (b r) (c r))),
          (0x06, .axpb n stalls ⟨[], []⟩, fun r => (a r).map fun x =>
            (x.mul (dec32 (h.scalarA % 2 ^ 32))).add (dec32 (h.scalarB % 2 ^ 32))),
          (0x07, .vecMax n stalls ⟨[], []⟩, fun r => List.zipWith Machine.Num.max (a r) (b r)),
          (0x08, .vecMin n stalls ⟨[], []⟩, fun r => List.zipWith Machine.Num.min (a r) (b r)),
          (0x09, .mulrow n stalls ⟨[], []⟩, fun r => (a r).map fun x => x.mul (k r)),
          (0x0a, .divrow n stalls ⟨[], []⟩, fun r => (a r).map fun x => x.div (k r))]
            : List (Nat × Instr × (Nat → List Machine.Num))), vCode d = e.1 →
        let out := (List.range (D.vRows d)).flatMap fun r => encodeRow (vOutFmt d) (e.2.2 r)
        Completes e.2.1 s fun t =>
          t.read (D.vOut d) out.length = out ∧ (∀ x, ¬ (D.vOut d ≤ x ∧ x < D.vOut d + out.length) → t.byte x = s.byte x) ∧
            t.queue n 8 = (s.queue n 8).tail ∧ t.out = s.out)

/-- The matrix engines: a MATMUL without outliers and without a write-out adds its weights' groups into its slot, cleared first
unless ACC is 1, and writes no memory; one with no K-block completes at once; what a replaced engine had started is dropped and counted;
a chain link and a fetch of a damaged plot go on from where they wait; a write-out that takes too long fails the step (R180, R191, R196,
R204, R214, R222, R227, R307). -/
def Obligations.MatrixEngines : Prop :=
  ∀ (s v : State) (n e : Nat) (h : Queued) (rep : EngineReport) (mem : MemReport), s.alive = true → n < 16 → e < 8 →
    -- what the engine and the memories report is counted first
    v = (s.memReport srcMatrix mem).engineCounts n e rep →
    (s.runnable n e tMatmul = some h → s.isStale n e = true → Completes (.matmul n e rep mem) s fun t =>
      t.queue n e = (s.queue n e).tail ∧ t.isStale n e = false ∧ t.mem = s.mem ∧ t.out = s.out ∧
        t.get (R.TILE_SEQ_COUNTS.FENCED_WRITES n) = min (2 ^ (R.TILE_SEQ_COUNTS.FENCED_WRITES n).width - 1)
          (s.get (R.TILE_SEQ_COUNTS.FENCED_WRITES n) + (b2n (D.mWriteOut h.desc) + b2n (D.sigEn h.desc)))) ∧
    (s.isStale n e = false →
      (s.runnable n e tMatmul = some h → s.engineFree n e h = true → D.mKBlocks h.desc = 0 → Completes (.matmul n e rep mem) s
        fun t => t = v.complete n e) ∧
      (∀ u p, s.runnable n e tMatmul = some h → s.engineFree n e h = true → D.mKBlocks h.desc ≠ 0 → v.passes h.desc = [p] →
        rep.fault = 0 → matmulPlaces n h.desc = true → h.resume = 0 → D.mOutlier h.desc = 0 → D.mChain h.desc = 0 →
        D.mWriteOut h.desc = false → v.gate n (s.tile n).inst (matmulRanges h.desc false) = (v, .go) →
        u = (if D.mAcc h.desc then v else v.setSlot n e (D.mSlot h.desc) Slot.clear) →
        let w := u.passWalk n e h.desc p.1 0
        let need := D.mKBlocks h.desc * ceilDiv (D.mColumns h.desc) (kindN (D.mWfmt h.desc))
        w.stop = .done → 0 < ceilDiv (D.mColumns h.desc) (kindN (D.mWfmt h.desc)) → Completes (.matmul n e rep mem) s fun t =>
          t.slot n e (D.mSlot h.desc) = (w.groups.filter fun g => decide (g.1 < need)).foldl
            (fun x g => u.addGroup ⟨h.desc, [], v.zeroPoints h.desc⟩ p.2.2 x g.1 g.2) (u.slot n e (D.mSlot h.desc)) ∧
          t.queue n e = (s.queue n e).tail ∧ t.mem = s.mem ∧ t.out = v.out) ∧
      (∀ rest, s.queue n e = h :: rest → h.waiting = true → D.type h.desc = tMatmul → s.depHolds n h.desc 1 = true → rep.fault = 0 →
        v.gate n (s.tile n).inst [⟨D.mChain h.desc, regionBytes (D.mLanes h.desc) (D.mColumns h.desc) false, false⟩] = (v, .go) →
        Completes (.chainLinkAdd n e (rep, mem)) s fun t =>
          t.queue n e = rest ∧ t.out = v.out ∧
          t.get (R.TILE_MAT_COUNTS.CHAIN_LINKS n e) = min (2 ^ (R.TILE_MAT_COUNTS.CHAIN_LINKS n e).width - 1)
            (s.get (R.TILE_MAT_COUNTS.CHAIN_LINKS n e) + 1) ∧
          ∀ a, ¬ (D.mWriteOut h.desc = true ∧ D.mOut h.desc ≤ a ∧ a < D.mOut h.desc +
            regionBytes (D.mLanes h.desc) (D.mColumns h.desc) (D.mOutlier h.desc != 0)) → t.byte a = s.byte a) ∧
      (∀ rest, s.queue n e = h :: rest → D.type h.desc = tMatmul → D.mWriteOut h.desc = true →
        h.refetch = none → h.waiting = true → s.depHolds n h.desc 0 = true → s.depHolds n h.desc 1 = true →
        Completes (.writeOutTimeout n e) s fun t => t = s.engineFault n e e 3 (D.mSlot h.desc) h)) ∧
    (∀ a m rest, s.queue n e = h :: rest → h.refetch = some (a, m) → a ≠ D.mOutlier h.desc →
      let len := P.size (s.read m 32)
      let u := s.passRange m len false
      u.masterCause n e h a m len = none → Completes (.plotRefetchDone n e) s fun t =>
        t = (((u.write a (u.read m len)).bump (R.TILE_SEQ_COUNTS.REFETCHES n)).raise (evPlotRefetched n e a)).setHead n e
          { h with refetch := none })

/-- ATTEND works while no engine it takes is busy and its operands can be read; its merge waits until every partial of its lanes
has come, then writes the results and completes (R325, R328, R331, R332).  SAMPLE. The local stage writes one candidate record
for each lane; the final stage writes one choice record for each lane that this device owns, and shows the last one; both
complete their descriptor (R275 to R281). -/
def Obligations.AttentionAndSampling : Prop :=
  (∀ (s : State) (n : Nat) (h : Queued) (mem : MemReport), s.alive = true → n < 16 →
    let d := h.desc
    let inst := (s.tile n).inst
    (∀ clocks reps u, s.runnable n 9 tAttend = some h →
      (∀ e ∈ bitList 8 (D.aEngineMask d), ∀ x rest, s.queue n e = x :: rest → x.started = false) →
      (∀ e ∈ reps, bit (D.aEngineMask d) e.1 = true → e.2.fault = 0) → u = s.attendReport n clocks (D.aEngineMask d) reps mem →
      (∀ x ∈ u.attendAccs d, inScratch n x.addr x.len = true) → u.gate n inst (u.attendAccs d) = (u, .go) →
      u.gate n inst (u.attendReads d (s.headsOf inst)) = (u, .go) → Completes (.attend n clocks (reps, mem)) s fun t =>
        t = u.attendRun n (s.headsOf inst) h) ∧
    (∀ rest t u, s.queue n 9 = h :: rest → h.waiting = true → D.type d = tAttend → t = s.tileRec (D.aLaneTable d) →
      u = s.memReport srcAttention mem →
      let mine := (s.attendLanes d).filter fun e => e.1 % L.shares t == L.shareIndex t
      (∀ e ∈ mine, s.mergeReady n d t (s.headsOf inst) e.1 = true) → Completes (.attendMerge (n, mem)) s fun v =>
        v = (mine.foldl (fun (s : State) e => s.mergeLane d t e.1) u).complete n 9 ∧ v.queue n 9 = rest ∧ v.out = u.out)) ∧
  (∀ (s u : State) (n : Nat) (h : Queued) (mem : MemReport), s.alive = true → n < 16 → s.runnable n 10 tSample = some h →
    D.sVocabCount h.desc ≠ 0 → u = s.memReport srcDrill mem → u.gate n (s.tile n).inst (u.listAccs h.desc) = (u, .go) →
    (∀ l, l < 16 → l < D.sLanes h.desc → S.active (s.samplingRecord (D.sLaneTable h.desc) l) = true →
      s.recordWhole (s.samplingRecord (D.sLaneTable h.desc) l) = true) →
    let d := h.desc
    let inst := (s.tile n).inst
    let owned := s.ownedLanes inst d
    let localAccs : List Acc := [⟨D.sLogit d, 4 * D.sLanes d * D.sVocabCount d, false⟩, ⟨D.sLaneTable d + 0x800, 0x800, false⟩,
      ⟨D.sCand d, 576 * D.sLanes d, true⟩]
    let finalAccs : List Acc := [⟨D.sCand d, 576 * D.sVocabCount d * owned.length, false⟩, ⟨D.sLaneTable d + 0x800, 0x800, false⟩,
      ⟨D.sLogit d, 16 * D.sLanes d, true⟩]
    (D.sFinal d = false → (∀ x ∈ localAccs, inScratch n x.addr x.len = true) → u.gate n inst localAccs = (u, .go) →
      let outs := (List.range (D.sLanes d)).map (s.localLane d)
      Completes (.sampleLocal n mem) s fun t =>
        t = ((u.write (D.sCand d) (outs.flatMap Prod.fst)).bump (R.TILE_DRILL_COUNTS.NAN_LOGITS n)
          (outs.filter Prod.snd).length).complete n 10 ∧
        ∀ a, ¬ (D.sCand d ≤ a ∧ a < D.sCand d + (outs.flatMap Prod.fst).length) → t.byte a = s.byte a) ∧
    (D.sFinal d = true → (∀ x ∈ finalAccs, inScratch n x.addr x.len = true) → u.gate n inst finalAccs = (u, .go) →
      Completes (.sampleFinal n mem) s fun t =>
        t = ((List.zip (List.range owned.length) owned).foldl (fun (s : State) e =>
          s.putChoice n inst d e.2 (s.finalLane d e.1 e.2)) u).complete n 10 ∧
        ∀ a, (∀ l ∈ owned, ¬ (D.sLogit d + 16 * l ≤ a ∧ a < D.sLogit d + 16 * l + 16)) → t.byte a = s.byte a))

/-- A mover copies its runs, gathers them by a list of addresses or fills with zeros, and completes; no byte outside the runs'
destinations changes (R178).  A plain copy inside a partition without protection leaves at its destination the bytes that its
source held (R178). -/
def Obligations.Movers : Prop :=
  (∀ (s v : State) (n u : Nat) (h : Queued) (mem : MemReport), s.alive = true → n < 16 → u < 4 →
    s.runnable n (11 + u) tXfer = some h → D.xBytes h.desc ≠ 0 → mem.errors = [] → v = s.memReport srcMover mem →
    v.gate n (s.tile n).inst (s.xferAccs h.desc) = (v, .go) →
    (∀ r ∈ s.xferRuns h.desc, s.poisoned r.1 r.2.2 = false) →
      (∀ e ∈ [(1, Instr.copyXfer n u mem), (2, .stridedCopy n u mem), (3, .gather n u mem)], D.xKind h.desc = e.1 →
        (e.1 = 1 ∨ D.xElem h.desc ≠ 0) → Completes e.2 s fun t =>
          t = ((s.xferRuns h.desc).foldl (fun (s : State) r => s.moveRun n r) v).complete n (11 + u) ∧
          ∀ a, (∀ r ∈ s.xferRuns h.desc, ¬ (r.2.1 ≤ a ∧ a < r.2.1 + r.2.2)) → t.byte a = s.byte a) ∧
      (D.xKind h.desc = 4 → Completes (.zeroFill n u mem) s fun t =>
        t = (v.writeFor (some n) 3 (D.xDst h.desc) (List.replicate (D.xBytes h.desc) 0)).complete n (11 + u) ∧
        ∀ a, ¬ (D.xDst h.desc ≤ a ∧ a < D.xDst h.desc + D.xBytes h.desc) → t.byte a = s.byte a)) ∧
  (∀ (s : State) (n : Nat) (r : Nat × Nat × Nat), n < 16 → r.2.2 ≠ 0 →
    (∀ a, s.violated (some n) a = none) → r.1 < 0xF00000000 → r.1 + r.2.2 ≤ 0xF00000000 → r.2.1 + r.2.2 ≤ 0xF00000000 →
      (s.moveRun n r).read r.2.1 r.2.2 = s.read r.1 r.2.2)

/-- A COLL at the head of its queue starts: its own piece is placed and the collectives go on, with what its port sets send; one
without data of its own, or whose BYTES or slot is 0, has only to wait or to complete.  A slot's send time opens it on every port of its
set (R172, R454, R456, R457). -/
def Obligations.Collectives : Prop :=
  ∀ (s : State) (n : Nat) (h : Queued) (p : PlanEntry) (mem : MemReport), s.alive = true → n < 16 →
    (∀ e ∈ [(1, Instr.reduceScatter n mem), (2, .allGather n mem), (3, .allReduce n mem), (4, .broadcast n mem),
        (5, .oneShotAllToAll n mem), (6, .ringPass n mem)], s.runnable n 15 tColl = some h →
      s.slotEntry (s.tile n).template (D.cSlot h.desc) = some p → p.op = e.1 → h.started = false →
      let u := (s.memReport srcMesh mem).setHead n 15 { h with started := true }
      let len := D.cBytes h.desc * (if e.1 = 1 ∨ e.1 = 3 ∨ e.1 = 5 then (s.slotIndices p).getLast?.getD 0 + 1 else 1)
      (p.argB = 0 ∨ D.cBytes h.desc = 0 → Completes e.2 s fun t => t = u.collectives) ∧
      (p.argB ≠ 0 → D.cBytes h.desc ≠ 0 → D.cSrc h.desc ≠ 0 → u.poisoned (D.cSrc h.desc) len = false →
        u.gate n (s.tile n).inst [⟨D.cSrc h.desc, len, true⟩] = (u, .go) →
          Completes e.2 s fun t => t = (u.ownPiece n p h.desc).collectives) ∧
      (p.argB ≠ 0 → D.cBytes h.desc ≠ 0 → D.cSrc h.desc = 0 → Completes e.2 s fun t => t = u.collectives)) ∧
    ∀ slot, s.slotEntry (s.get R.FRW_LATE.TEMPLATE) slot = some p → s.frwState = frwRunning → slot ∉ s.coll.opened →
      s.frw.stepOpen = true → Completes (.collSlotSendTime slot) s fun t =>
        ∃ v : State, t = v.collectives ∧ v.coll = { s.coll with opened := s.coll.opened ++ [slot] } ∧ v.regs = s.regs ∧ v.mem = s.mem ∧
          ∀ port, ∃ new, (v.link port).sends = (s.link port).sends ++ new ∧ (p.argB = 0 → new = []) ∧
            ∀ x ∈ new, x.slot = slot ∧ x.due = s.get R.FRW_START_TIME.START_TIME + p.offset ∧ x.begun = false

/-- Near-bank units: a descriptor starts its units, each with its input; an atom's plots join its slot, which goes on to the
next atom, to the neighbour, or back to the tile; an incoming partial is added before (R416 to R419). -/
def Obligations.NearBankUnits : Prop :=
  ∀ (s : State) (n : Nat) (h : Queued), s.alive = true → n < 16 →
    (∀ mem v, s.runnable n 16 tNbu = some h → v = s.memReport srcMover mem →
      (∀ u ∈ nbUnits h.desc, s.unit n u = none ∧ ∃ x, s.unitStart n h.desc u = .ok x) →
      D.nAtoms h.desc ≠ 0 → s.unitLocal (D.nProg h.desc) = true → inScratch n (D.nOut h.desc) 1 = true →
      v.gate n (s.tile n).inst (s.nbuAccs h.desc) = (v, .go) → Completes (.nbuDesc n mem) s fun t =>
        (∀ u ∈ nbUnits h.desc, ∀ x, s.unitStart n h.desc u = .ok x → t.unit n u = some x) ∧
        (∀ u, u ∉ nbUnits h.desc → t.unit n u = s.unit n u) ∧
        t.queue n 16 = { h with started := true, waiting := true } :: (s.queue n 16).tail ∧ v.leaves t [R.NBU_BUSY.UNITS n]) ∧
    (∀ u x rep rest, s.queue n 16 = h :: rest → s.unit n u = some x → h.waiting = true → u ∈ nbUnits h.desc → x.phase = 0 →
      u ∉ (s.stack n).inAtom → rep.fault = false → atomWhole (s.atomAt h.desc u x) (u == D.nFirst h.desc)
        (u + 1 == D.nFirst h.desc + D.nCount h.desc) = true →
      let a := s.atomAt h.desc u x
      let k := fld a 7 1 0 4
      let per := ceilDiv x.columns (kindN x.kind)
      bit (rd a 7 1) 4 = false → bit (rd a 7 1) 5 = false → rd a 0 6 < 2 ^ 24 → x.next + 1 < x.atoms → 0 < per →
      let e := s.atomPlots x (D.nLanes h.desc) (fld a 6 1 0 4) (sequenceAt h.desc u / 2 ^ 24 * 2 ^ 24 + rd a 0 6)
        ⟨{ NbRun.start with group := rd a 8 2 * per }, Slot.clear, none⟩
      e.fail = none → Completes (.nbuAtom n u rep) s fun t =>
        t.nbSlot n u k = e.slot ∧
          t.unit n u = some { x with runs := Table.set NbRun.start k e.run x.runs, next := x.next + 1, phase := 0 } ∧
          (∀ j, j ≠ u → t.unit n j = s.unit n j) ∧
          s.leaves t [R.STACK_ARB_COUNTS.ATOMS n, R.NBU_COUNTS.PLOT_RETRIES n, R.NBU_BUSY.UNITS n]) ∧
    ∀ u x y crc rest, s.queue n 16 = h :: rest → s.unit n u = some x → x.phase = 1 →
      Table.get none (u * 16 + fld (s.atomAt h.desc u x) 7 1 0 4) (s.stack n).shadows = some y →
      bit (rd (s.atomAt h.desc u x) 7 1) 5 = true → bit (rd (s.atomAt h.desc u x) 7 1) 6 = true → x.next + 1 < x.atoms →
      Table.get none ((u + 1) * 16 + fld (s.atomAt h.desc u x) 7 1 0 4) (s.stack n).shadows = none →
      Completes (.nbuChainReceive n u crc) s fun t =>
        let k := fld (s.atomAt h.desc u x) 7 1 0 4
        Table.get none (u * 16 + k) (t.stack n).shadows = none ∧
          Table.get none ((u + 1) * 16 + k) (t.stack n).shadows = some (t.nbSlot n u k) ∧
          t.unit n u = some { x with next := x.next + 1, phase := 0 } ∧ s.leaves t [R.NBU_BUSY.UNITS n]

/-! ### Meridian time and furrows (spec/02_meridian_and_furrows.md) -/

/-- Marks (R35). In LOCKED an edge within tolerance is accepted: the window's time is kept, a count is withheld or inserted,
and nothing else changes while the schedule runs; one out of tolerance is counted, and the third in a row ends lock. In
ACQUIRE the first edge aligns MRD.TIME and the fourth good one after it locks. A window without an edge leads from LOCKED to
HOLDOVER and there counts, and an edge within tolerance leads back. Lock, lost and found again (R35, R36). A third excursion,
or a missing mark beyond HOLDOVER_MARKS, ends lock: UNLOCKED, not ready, counted, and a running schedule stops. Without
MERID_CLK a locked unit goes on in HOLDOVER; its PLL's lock takes an unlocked unit to ACQUIRE. With no command waiting a
nanosecond passes, the model's own choice (log entry 3): MRD.TIME takes its next count where it counts and none is withheld
(R34, R35), and nothing is sent or stored. That a missing mark breaks a run of excursions is deduced (log entry 15). -/
def Obligations.Meridian : Prop :=
  (∀ (s : State), s.quiet →
    (s.mrd.handled ≠ some (windowOf s.now) →
      (s.mrdState = mrdLocked → (phaseError s.now).natAbs ≤ s.get R.MRD_CTRL.PHASE_TOL_NS → s.inSchedule = true →
        Completes .meridMarkEdge s fun t =>
          t.get R.MRD_LAST_MARK.LAST_MARK = windowOf s.now * 1000000 % 2 ^ 64 ∧
            t.mrd = { s.mrd with handled := some (windowOf s.now), accepted := true, excursions := 0,
                                 withhold := decide (0 < phaseError s.now) } ∧
            t.now = (if phaseError s.now < 0 then (s.now + 1) % 2 ^ 64 else s.now) ∧
            s.leaves t [R.MRD_TIME.TIME, R.MRD_LAST_MARK.LAST_MARK, R.MRD_STATUS.LAST_PHASE_ERR]) ∧
      (s.mrdState = mrdLocked → s.get R.MRD_CTRL.PHASE_TOL_NS < (phaseError s.now).natAbs →
        (s.mrd.excursions < 2 → Completes .meridMarkEdge s fun t =>
          t.mrd = { s.mrd with handled := some (windowOf s.now), excursions := s.mrd.excursions + 1 } ∧
            t.get R.MRD_COUNTS.PHASE_EXCURSIONS =
              min (2 ^ R.MRD_COUNTS.PHASE_EXCURSIONS.width - 1) (s.get R.MRD_COUNTS.PHASE_EXCURSIONS + 1) ∧
            s.leaves t [R.MRD_STATUS.LAST_PHASE_ERR, R.MRD_COUNTS.PHASE_EXCURSIONS]) ∧
        (2 ≤ s.mrd.excursions → s.inSchedule = false → Completes .meridMarkEdge s fun t =>
          t.mrdState = mrdUnlocked ∧ t.isSet R.GLB_READY.MERIDIAN_OK = false ∧ t.mrd.accepted = false ∧ t.mem = s.mem ∧
            t.out = s.out)) ∧
      (s.mrdState = mrdAcquire → s.mrd.aligned = true → (phaseError s.now).natAbs ≤ 4 → s.mrd.goodMarks = 3 →
        Completes .meridMarkEdge s fun t =>
          t.mrdState = mrdLocked ∧ t.isSet R.GLB_READY.MERIDIAN_OK = true ∧ t.now = s.now ∧
            s.leaves t [R.MRD_STATUS.LAST_PHASE_ERR, R.MRD_STATUS.STATE, R.GLB_READY.MERIDIAN_OK]) ∧
      (s.mrdState = mrdHoldover → (phaseError s.now).natAbs ≤ s.get R.MRD_CTRL.PHASE_TOL_NS → s.inSchedule = true →
        Completes .meridMarkEdge s fun t =>
          t.mrdState = mrdLocked ∧ t.get R.MRD_STATUS.MISSED_MARKS = 0 ∧
            t.get R.MRD_LAST_MARK.LAST_MARK = windowOf s.now * 1000000 % 2 ^ 64 ∧
            s.leaves t [R.MRD_TIME.TIME, R.MRD_LAST_MARK.LAST_MARK, R.MRD_STATUS.LAST_PHASE_ERR, R.MRD_STATUS.STATE,
              R.GLB_READY.MERIDIAN_OK, R.MRD_STATUS.MISSED_MARKS])) ∧
    (s.mrdState = mrdAcquire → s.mrd.aligned = false → Completes .meridMarkEdge s fun t =>
      t.now = (s.now / 1000000 + 1) * 1000000 % 2 ^ 64 ∧ t.isSet R.MRD_STATUS.TOD_VALID = false ∧ t.mrd.aligned = true ∧
        t.mrd.goodMarks = 0 ∧ s.leaves t [R.MRD_TIME.TIME, R.MRD_STATUS.TOD_VALID]) ∧
    (s.mrdState = mrdUnlocked → s.mrd.pllLocked = false → Completes .meridMarkEdge s fun t => t = s) ∧
    (s.mrdState = mrdUnlocked → s.mrd.pllLocked = true → Completes .meridMarkEdge s fun t =>
      t.mrdState = mrdAcquire ∧ t.now = (s.now / 1000000 + 1) * 1000000 % 2 ^ 64 ∧ t.mrd.aligned = true ∧ t.mrd.goodMarks = 0 ∧
        s.leaves t [R.MRD_STATUS.STATE, R.GLB_READY.MERIDIAN_OK, R.MRD_TIME.TIME, R.MRD_STATUS.TOD_VALID]) ∧
    (s.mrd.handled ≠ some (windowOf s.now - 1) →
      (s.mrdState = mrdLocked → Completes .missingMark s fun t =>
        t.mrdState = mrdHoldover ∧ t.isSet R.GLB_READY.MERIDIAN_OK = true ∧ t.get R.MRD_STATUS.MISSED_MARKS = 1 ∧
          t.mrd = { s.mrd with handled := some (windowOf s.now - 1), excursions := 0 } ∧
          s.leaves t [R.MRD_STATUS.STATE, R.GLB_READY.MERIDIAN_OK, R.MRD_COUNTS.HOLDOVER_ENTRIES, R.MRD_STATUS.MISSED_MARKS]) ∧
      (s.mrdState = mrdHoldover → s.get R.MRD_STATUS.MISSED_MARKS < s.get R.MRD_CTRL.HOLDOVER_MARKS →
        s.get R.MRD_CTRL.HOLDOVER_MARKS < 2 ^ R.MRD_STATUS.MISSED_MARKS.width → Completes .missingMark s fun t =>
          t.mrdState = mrdHoldover ∧ t.get R.MRD_STATUS.MISSED_MARKS = s.get R.MRD_STATUS.MISSED_MARKS + 1 ∧
            t.mrd = { s.mrd with handled := some (windowOf s.now - 1) } ∧ s.leaves t [R.MRD_STATUS.MISSED_MARKS]))) ∧
  (∀ (s : State), s.quiet →
    (∀ c ∈ [(Instr.lockLoss, s.mrdState = mrdLocked ∧ 2 ≤ s.mrd.excursions),
        (Instr.holdoverExhausted, s.mrdState = mrdHoldover ∧ s.get R.MRD_CTRL.HOLDOVER_MARKS ≤ s.get R.MRD_STATUS.MISSED_MARKS)],
      (c.2 → Completes c.1 s fun t =>
        t.mrdState = mrdUnlocked ∧ t.isSet R.GLB_READY.MERIDIAN_OK = false ∧ t.get R.MRD_STATUS.MISSED_MARKS = 0 ∧
          t.get R.MRD_COUNTS.LOCK_LOSSES = min (2 ^ R.MRD_COUNTS.LOCK_LOSSES.width - 1) (s.get R.MRD_COUNTS.LOCK_LOSSES + 1) ∧
          t.mrd = { s.mrd with aligned := false, goodMarks := 0, excursions := 0, accepted := false, withhold := false } ∧
          (s.inSchedule = true → t.frwState = frwStopped) ∧ (s.inSchedule = false ∨ s.stopsAlone → t.mem = s.mem)) ∧
      (¬ c.2 → Completes c.1 s fun t => t = s)) ∧
    (s.mrdState = mrdLocked → Completes .meridClkLoss s fun t =>
      t.mrdState = mrdHoldover ∧ t.isSet R.MRD_STATUS.CLK_PRESENT = false ∧ t.get R.MRD_STATUS.MISSED_MARKS = 0 ∧
        t.mrd = { s.mrd with pllLocked := false } ∧
        s.leaves t [R.MRD_STATUS.CLK_PRESENT, R.MRD_STATUS.STATE, R.GLB_READY.MERIDIAN_OK, R.MRD_COUNTS.HOLDOVER_ENTRIES,
          R.MRD_STATUS.MISSED_MARKS]) ∧
    (s.mrdState = mrdUnlocked → Completes .meridPllLock s fun t =>
      t.mrdState = mrdAcquire ∧ t.isSet R.MRD_STATUS.CLK_PRESENT = true ∧
        t.mrd = { s.mrd with pllLocked := true, aligned := false, goodMarks := 0 } ∧
        s.leaves t [R.MRD_STATUS.CLK_PRESENT, R.MRD_STATUS.STATE, R.GLB_READY.MERIDIAN_OK]) ∧
    -- the millisecond of a device that accepts no mark does what waits for one (R131)
    (s.mrdState = mrdUnlocked ∨ s.mrdState = mrdAcquire → s.inSchedule = false → s.srv.deferred = [] → s.srv.told = [] →
      s.flt.declared = [] → s.flt.rejoin = [] → s.flt.fatalFar = [] → s.cfg.prepared = none → s.cfg.instA = [] → Completes .localMillisecond s fun t =>
        t.flt.fatalParts = [] ∧ t.srv.closing = [] ∧
          (∀ n, n < 16 → t.partOk n = (s.partOk n && !s.flt.fatalParts.contains n)) ∧ t.mem = s.mem ∧ t.out = s.out) ∧
    (s.mrdState ≠ mrdUnlocked → s.mrdState ≠ mrdAcquire → Completes .localMillisecond s fun t => t = s)) ∧
  (∀ s : State, s.pending = [] → ∃ t, step s = .next t ∧ t.pending = [] ∧ t.out = s.out ∧ t.mem = s.mem ∧
    t.now = if s.alive && s.counts && !s.mrd.withhold then (s.now + 1) % 2 ^ 64 else s.now)

/-- Turnarounds, before T0 and in the headland of a furrow (R41, R55, R59, R166, R187, R215, R340, R521): the engines' slots and the
look-aside buffers empty; a sequencer that is DONE or IDLE has its event counters cleared, and where its template's list is to run it is
ARMED at index 0 with that list; one that still runs is left; every tile takes the clock that MAX_MODE gives. -/
def Obligations.Turnarounds : Prop :=
  ∀ (s : State) (c : Instr) (k : Nat) (frw : Frw), s.quiet →
    ((c = .startTurnaround ∧ s.frwState = frwArmed ∧ s.frw.turned = false ∧ k = 0 ∧ frw = { s.frw with turned := true }) ∨
      (c = .turnaround ∧ s.inSchedule = true ∧ s.isSet R.FRW_STATE.HEADLAND = true ∧ s.isSet R.FRW_STATE.LATE_GROUP = false ∧
        ((s.frw.correcting = false ∧ k = s.frw.nextTemplate ∧ frw = s.frw) ∨
          (s.frw.correcting = true ∧ s.frw.resync = some k ∧
            frw = { s.frw with nextTemplate := k, resync := none, correcting := false })))) →
    Completes c s fun t =>
      t.frw = frw ∧ t.frwState = s.frwState ∧ t.furrow = s.furrow ∧ t.mem = s.mem ∧ ∀ n, n < 16 →
          t.get (R.PWR_TILE.F_SET_MHZ n) =
            (if bit (s.get R.PWR_FREQ_CTRL.MAX_MODE) n then s.get (R.PWR_TILE.F_MAX_MHZ n) % 2 ^ 11 else 1100) ∧
          (t.tile n).slots = [] ∧ (t.tile n).lab = [] ∧
          ((s.seqState n = seqDone ∨ s.seqState n = seqIdle) → (∀ e, e < 32 → t.event n e = 0) ∧
            (s.get (R.TILE_SEQ_CTRL.MODE n) = 0 → n ∉ s.flt.heldParts → s.partOk n = true →
              (∀ i l, s.listFor n k = some (i, l) → t.seqState n = seqArmed ∧ t.listIndex n = 0 ∧ (t.tile n).inst = some i ∧
                (t.tile n).list = l ∧ (t.tile n).queues = [] ∧ t.isSet (R.TILE_SEQ_STATUS.FAILED n) = false) ∧
              (s.listFor n k = none → t.seqState n = s.seqState n ∧ (t.tile n).list = []))) ∧
          (s.seqState n ≠ seqDone → s.seqState n ≠ seqIdle → t.seqState n = s.seqState n ∧ (t.tile n).list = (s.tile n).list ∧
            (t.tile n).queues = (s.tile n).queues ∧ (∀ e, e < 32 → t.event n e = s.event n e))

/-- Furrow starts and headlands (R40, R42, R44, R56, R59, R60, R90). The first furrow starts at T0 as furrow k0, each later
one is the next; it runs its template's step, held while a commit has work left, or is FALLOW where lateness was agreed. A
headland begins with HEADLAND set and, where a stop is due, STOPPING; its end leaves STOPPED. A lane table that every member
has acknowledged takes effect. FURROW_STOP gets its final completion at the end of the stop headland (R42). When a tile is
held is deduced (log entry 28), and that a device without lock at T0 starts no furrow and stops (log entry 129). -/
def Obligations.FurrowStarts : Prop :=
  (∀ (s : State), s.quiet →
    (s.frwState = frwArmed → s.frw.turned = true → s.lockless = true → s.frw.startTicket = none → s.frw.stopTicket = none →
      s.stopsAlone → Completes .furrowBodyStart s fun t =>
      t.frwState = frwStopped ∧ t.furrow = s.furrow ∧ t.frw.nextK = s.frw.nextK ∧
        (∀ n, n < 16 → t.seqState n = if s.seqState n = seqArmed ∨ s.seqState n = seqHeld ∨ s.seqState n = seqDone then seqIdle
          else s.seqState n) ∧ t.mem = s.mem ∧ t.out = s.out) ∧
    (s.frwState = frwArmed → s.frw.turned = true → s.lockless = false → s.srv.openLanes = [] → Completes .furrowBodyStart s fun t =>
      t.frwState = frwRunning ∧ t.furrow = s.frw.k0 % 2 ^ 64 ∧ t.get R.FRW_START_TIME.START_TIME = s.frw.t0 % 2 ^ 64 ∧
        t.get R.FRW_LATE.TEMPLATE = s.frw.nextTemplate % 8 ∧ t.isSet R.FRW_STATE.LATE_SELF = false ∧
        t.isSet R.FRW_STATE.LATE_GROUP = false ∧ t.frw.nextTemplate = (s.frw.nextTemplate + 1) % max 1 (s.get R.FRW_LATE.CYCLE_LEN) ∧
        t.frw.stepOpen = true ∧ t.frw.startTicket = none ∧
        (∀ n, n < 16 → s.seqState n = seqArmed →
          (s.unsettled = false → s.listIndex n < (s.tile n).list.length → t.seqState n = seqRun) ∧
          (s.unsettled = true → t.seqState n = seqHeld)) ∧
        t.mem = s.mem ∧ (s.srv.lanes = [] → t.out = s.out)) ∧
    (s.inSchedule = true → s.isSet R.FRW_STATE.HEADLAND = true → s.srv.openLanes = [] → Completes .furrowBodyStart s fun t =>
      t.furrow = (s.furrow + 1) % 2 ^ 64 ∧ t.get R.FRW_START_TIME.START_TIME = s.furrowStart (s.furrow + 1) % 2 ^ 64 ∧
        t.isSet R.FRW_STATE.HEADLAND = false ∧ t.isSet R.FRW_STATE.LATE_GROUP = false ∧
        (s.isSet R.FRW_STATE.LATE_GROUP = true → t.frwState = frwFallow ∧ t.frw.nextTemplate = s.frw.nextTemplate ∧
          t.frw.fallowRun = s.frw.fallowRun + 1 ∧ t.get R.FRW_LATE.TEMPLATE = s.get R.FRW_LATE.TEMPLATE) ∧
        (s.isSet R.FRW_STATE.LATE_GROUP = false → t.frwState = frwRunning ∧ t.frw.fallowRun = 0 ∧
          t.frw.nextTemplate = (s.frw.nextTemplate + 1) % max 1 (s.get R.FRW_LATE.CYCLE_LEN) ∧
          t.get R.FRW_LATE.TEMPLATE = s.frw.nextTemplate % 8) ∧ t.mem = s.mem ∧ (s.srv.lanes = [] → t.out = s.out)) ∧
    (∀ fits, s.inSchedule = true → s.isSet R.FRW_STATE.HEADLAND = false → s.frw.leadSilent = false → s.servesNothing →
      Completes (.headlandStart fits) s fun t =>
        t.isSet R.FRW_STATE.HEADLAND = true ∧ t.furrow = s.furrow ∧
          (∀ k, s.frw.stopAt = some k → k ≤ s.furrow →
            (s.isSet R.FRW_STATE.LATE_GROUP = false ∨ s.frw.stopMoved = true → t.frwState = frwStopping) ∧
            (s.isSet R.FRW_STATE.LATE_GROUP = true → s.frw.stopMoved = false → t.frwState = s.frwState ∧
              t.frw.stopAt = some (s.furrow + 1) ∧ t.frw.stopMoved = true)) ∧
          (s.frw.stopAt = none → t.frwState = s.frwState) ∧ t.frw.doneAt = none ∧ t.mem = s.mem) ∧
    (s.frwState = frwStopping → s.srv.openLanes = [] → s.stopsAlone → Completes .stopHeadlandEnd s fun t =>
      t.frwState = frwStopped ∧ t.isSet R.FRW_STATE.HEADLAND = false ∧ t.isSet R.FRW_STATE.STOP_PENDING = false ∧
        t.frw.stopAt = none ∧ t.frw.nextK = s.furrow + 1 ∧
        (∀ n, n < 16 → t.seqState n = if s.seqState n = seqArmed ∨ s.seqState n = seqHeld ∨ s.seqState n = seqDone then seqIdle
          else s.seqState n) ∧
        s.leaves t ([R.FRW_STATE.STATE, R.FRW_STATE.HEADLAND, R.FRW_STATE.STOP_PENDING, R.FRW_STATE.LATE_SELF,
          R.FRW_STATE.LATE_GROUP] ++ (List.range 16).map R.TILE_SEQ_STATUS.STATE)) ∧
    (∀ i l, s.inSchedule = true → s.isSet R.FRW_STATE.HEADLAND = true → s.alone → s.srv.built = [(i, l)] →
      Table.get [] i s.srv.laneWait = [] → s.srv.farWait = [] → s.srv.openLanes = [] → s.srv.waitCmds = [] →
      Completes .laneTableDeadline s fun t =>
        Table.get [] i t.srv.lanes = l ∧ t.srv.built = [] ∧ t.isSet R.QUE_LANE_USE.DISCARDED = false ∧ t.frw = s.frw)) ∧
  (∀ (s : State) (T : Ticket) (i : Nat), s.alive = true → s.frwState = frwStopping → s.que.tickets = [T] → T.origin = .host i →
    s.frw.stopTicket = some T.no → s.srv.openLanes = [] → s.stopsAlone → Completes .stopHeadlandEnd s fun t =>
      t.frwState = frwStopped ∧ t.que.tickets = [] ∧ t.frw.stopTicket = none ∧ t.mem = s.mem)

/-- LATE_OFFSET_NS of a RUNNING furrow (R51): the device checks its step and sends its beacon on every port with a trained peer;
where the step is not complete the beacon carries the late flag, LATE_SELF becomes 1 and LATE_SELF_COUNT goes up by 1. -/
def Obligations.LateCheck : Prop :=
  ∀ (s : State), s.quiet → s.frwState = frwRunning → s.isSet R.FRW_STATE.HEADLAND = false →
    s.mrdState = mrdLocked ∨ s.mrdState = mrdHoldover → (∀ c, s.cfg.lead = some c → s.furrow < c.furrow) →
    (∀ p, p < 24 → s.portUp p = true → (s.link p).waiting = [] ∧ (s.link p).replay.length < 256) →
    Completes .lateStepCheck s fun t => ∃ b : Bytes,
      t.out = s.out ++ ((List.range 24).filter fun p => s.portUp p).map (fun p =>
        .frame p { plainFrame fBeacon b with seq := ((s.link p).txSeq + 1) % 1024, ack := (s.link p).rxSeq }) ∧
      (s.frw.doneAt = none → fld b 1 1 0 1 = 1 ∧ t.isSet R.FRW_STATE.LATE_SELF = true ∧ t.get R.FRW_EVENTS0.LATE_SELF_COUNT =
        min (2 ^ R.FRW_EVENTS0.LATE_SELF_COUNT.width - 1) (s.get R.FRW_EVENTS0.LATE_SELF_COUNT + 1)) ∧
      (s.frw.doneAt ≠ none → fld b 1 1 0 1 = b2n (s.isSet R.FRW_STATE.LATE_SELF) ∧
        t.isSet R.FRW_STATE.LATE_SELF = s.isSet R.FRW_STATE.LATE_SELF ∧
        t.get R.FRW_EVENTS0.LATE_SELF_COUNT = s.get R.FRW_EVENTS0.LATE_SELF_COUNT)

/-- The late-step check and what follows (R50 to R58). A step incomplete at the check makes its device late; one complete
leaves its slack; one incomplete at the check of a fallow furrow is abandoned. Missing beacons and relays are counted, and any
sign of lateness makes the next furrow fallow; the lead stops after FALLOW_LIMIT fallow furrows in a row. That a furrow whose
index differs measures its slack is the model's choice (log entry 20). -/
def Obligations.Lateness : Prop :=
  ∀ (s : State), s.quiet →
    (s.inBody = true → s.cfg.lead = none →
      (s.frwState = frwRunning → s.frw.doneAt = none → Completes .lateStepCheck s fun t =>
        t.isSet R.FRW_STATE.LATE_SELF = true ∧ t.get R.FRW_EVENTS0.LATE_SELF_COUNT =
          min (2 ^ R.FRW_EVENTS0.LATE_SELF_COUNT.width - 1) (s.get R.FRW_EVENTS0.LATE_SELF_COUNT + 1) ∧ t.frw = s.frw ∧ t.mem = s.mem) ∧
      (∀ off, s.frwState = frwRunning → s.frw.doneAt = some off → Completes .lateStepCheck s fun t =>
        t.get R.FRW_SLACK.LAST_SLACK_NS = (s.get R.FRW_LATE.LATE_OFFSET_NS - off) % 2 ^ 24 ∧
          t.isSet R.FRW_STATE.LATE_SELF = s.isSet R.FRW_STATE.LATE_SELF ∧ t.frw = s.frw ∧ t.mem = s.mem) ∧
      (s.frwState = frwFallow → s.frw.stepOpen = true → s.frw.doneAt = none → Completes .lateStepCheck s fun t =>
        t.frw.stepOpen = false ∧ (∀ n, n < 16 → s.owes n = true →
          t.seqState n = seqDone ∧ t.isSet (R.TILE_SEQ_STATUS.ABANDONED n) = true ∧ (t.tile n).queues = []) ∧ t.mem = s.mem)) ∧
    (s.inBody = true → s.isLead = true → Completes .beaconDeadline s fun t =>
      t.frw.missing = s.expectedBeacons.filter (fun d => !s.frw.beacons.contains d) ∧
        (∀ d, Table.get 0 d t.frw.silent = if d ∈ t.frw.missing then Table.get 0 d s.frw.silent + 1 else 0) ∧
        s.leaves t [R.FRW_EVENTS2.MISSING_BEACONS]) ∧
    (s.inBody = true → Completes .relayDeadline s fun t =>
      t.frw = { s.frw with missingRelays := (s.counterparts.map fun d => d / 16).filter fun g => !s.frw.relays.contains g } ∧
        s.leaves t [R.FRW_EVENTS2.MISSING_BEACONS]) ∧
    (s.inBody = true → Completes .fallowDecision s fun t =>
      t.isSet R.FRW_STATE.LATE_GROUP = (s.isSet R.FRW_STATE.LATE_SELF || s.offCourse || !s.frw.lateBeacons.isEmpty ||
        !s.frw.missing.isEmpty || !s.frw.lateGroups.isEmpty || !s.frw.missingRelays.isEmpty || s.frw.echoLate) ∧
        t.frw = { s.frw with resync := if s.indexDiffers then s.frw.leadNext else s.frw.resync } ∧
        s.leaves t [R.FRW_STATE.LATE_GROUP]) ∧
    (s.alone → s.inSchedule = true → s.get R.FRW_CTRL.FALLOW_LIMIT ≤ s.frw.fallowRun → s.frw.stopAt = none →
      Completes .scheduleCollapse s fun t =>
        t.frw.stopAt = some (if s.isSet R.FRW_STATE.HEADLAND then s.furrow + 1 else s.furrow) ∧
          t.isSet R.FRW_STATE.STOP_PENDING = true ∧ bit (t.get R.GLB_ERR_SUMMARY.SEEN) 7 = true ∧ t.frwState = s.frwState ∧
          t.mem = s.mem) ∧
    (s.frw.fallowRun < s.get R.FRW_CTRL.FALLOW_LIMIT → Completes .scheduleCollapse s fun t => t = s)

/-- Beacons, relays and echoes go out on the ports whose link is UP, and on no other (R39, R52): where the replay buffer has
room the frame leaves with the port's next sequence number. -/
def Obligations.ScheduleFrames : Prop :=
  ∀ (s : State), s.quiet →
    ∀ c ∈ [(Instr.beaconSend, List.range 24, s.inSchedule = false ∧ s.mrdState ≠ mrdUnlocked ∧ s.mrdState ≠ mrdAcquire,
          plainFrame fBeacon s.beaconFlit),
        (.relaySend, (List.range 9).map (fun j => 15 + j), s.inBody = true ∧ 1 < s.groups.length,
          plainFrame fRelay (s.relayFlit false 0)),
        (.echoSend, List.range 15, s.inBody = true,
          plainFrame fRelay (s.relayFlit true (bitSet (s.frw.lateGroups ++ s.frw.missingRelays))))],
      (¬ c.2.2.1 → Completes c.1 s fun t => t = s) ∧
      (c.2.2.1 → c.2.1.filter (fun p => s.portUp p) = [] → Completes c.1 s fun t => t = s) ∧
      (∀ p, c.2.2.1 → c.2.1.filter (fun p => s.portUp p) = [p] → (s.link p).waiting = [] → (s.link p).replay.length < 256 →
        Completes c.1 s fun t =>
          t.out = s.out ++ [.frame p { c.2.2.2 with seq := ((s.link p).txSeq + 1) % 1024, ack := (s.link p).rxSeq }] ∧
            (t.link p).txSeq = ((s.link p).txSeq + 1) % 1024 ∧ (t.link p).replay.length = (s.link p).replay.length + 1 ∧
            (∀ q, q ≠ p → t.link q = s.link q) ∧ t.mem = s.mem ∧ ∀ f, t.get f = s.get f)

/-! ### Power and memory (spec/11_on_package_memory.md, 12_stack_memory.md, 15_power_thermal.md) -/

/-- Phases (R518): 2 us before a phase its level is prepared, with the guard where its power is above that of the phase before
by more than 10 %; at its offset every tile of the instance takes its level; 1 us after a phase's start the guard of the phase
prepared first is gone. Outside the schedule the cap's demand follows the mean of 10 ms. Measurements (R513, R514, R527). A
sample of the rails enters the windows and the energy counters; one above CAP by more than 700 W makes the peak guard demand
two levels more of every tile for ten samples, and the tenth sample that is not ends it. 10 us of a tile's current above its
limit demand one level more, 100 us of ten steps below 95 % of it one less. Divisions round down: the model's choice (log
entry 118). -/
def Obligations.PowerLevels : Prop :=
  (∀ (s : State), s.alive = true →
    (∀ i p e, s.isSet R.PWR_CTRL.PREPOS_EN = true → s.inSchedule = true → s.alert = false →
      ((s.phaseEntries (s.get R.FRW_LATE.TEMPLATE)).filter fun x => x.inst == i && x.tag == p && decide (s.offset ≤ x.offset)).head?
        = some e →
      let es := s.phaseEntries (s.get R.FRW_LATE.TEMPLATE)
      let before := (es.filter fun x => decide (x.offset < e.offset)).mergeSort fun x y => decide (x.offset ≤ y.offset)
      (i, p) ∉ s.pwr.prepared → Completes (.phasePreposition i p) s fun t =>
        t = { s with pwr := { s.pwr with prepared := s.pwr.prepared ++ [(i, p)], guards := t.pwr.guards } } ∧
          (∀ b, before.getLast? = some b →
            (11 * s.phasePower (s.get R.FRW_LATE.TEMPLATE) b < 10 * s.phasePower (s.get R.FRW_LATE.TEMPLATE) e →
              t.pwr.guards = s.pwr.guards ++ [s.get R.PWR_CTRL.GUARD_MV]) ∧
            (10 * s.phasePower (s.get R.FRW_LATE.TEMPLATE) e ≤ 11 * s.phasePower (s.get R.FRW_LATE.TEMPLATE) b →
              t.pwr.guards = s.pwr.guards)) ∧
          (before = [] → t.pwr.guards = s.pwr.guards)) ∧
    (∀ i p, s.isSet R.PWR_CTRL.PREPOS_EN = false ∨ s.inSchedule = false ∨ s.alert = true ∨ (i, p) ∈ s.pwr.prepared →
      Completes (.phasePreposition i p) s fun t => t = s) ∧
    (∀ i p, s.inSchedule = true → (i, p) ∈ s.pwr.prepared → Completes (.phaseLevelApply i p) s fun t =>
      t.pwr.prepared = s.pwr.prepared.erase (i, p) ∧ t.levelsFollow ∧ t.mem = s.mem ∧ t.out = s.out ∧ ∀ n, n < 16 →
        ((s.tile n).inst = some i → ∀ l, s.levelOf n i p s.offset = some l → t.demand srcCap n = l) ∧
        ((s.tile n).inst ≠ some i ∨ s.levelOf n i p s.offset = none → t.demand srcCap n = s.demand srcCap n)) ∧
    (∀ i p, s.inSchedule = false ∨ (i, p) ∉ s.pwr.prepared → Completes (.phaseLevelApply i p) s fun t => t = s) ∧
    (Completes .guardRemove s fun t => t = { s with pwr := { s.pwr with guards := s.pwr.guards.drop 1 } } ∧
      (s.pwr.guards.length ≤ 1 → t.guardMv = 0)) ∧
    (s.inSchedule = false → Completes .idleCapStep s fun t =>
      t.levelsFollow ∧ t.mem = s.mem ∧ t.out = s.out ∧ ∀ n, n < 16 →
        (s.cap * 1000000 < s.meanPower 10000 → t.demand srcCap n = min 6 (s.demand srcCap n + 1)) ∧
        (100 * s.meanPower 10000 < 95 * (s.cap * 1000000) → t.demand srcCap n = s.demand srcCap n - 1) ∧
        (s.meanPower 10000 ≤ s.cap * 1000000 → 95 * (s.cap * 1000000) ≤ 100 * s.meanPower 10000 →
          t.demand srcCap n = s.demand srcCap n)) ∧
    (s.inSchedule = true → Completes .idleCapStep s fun t => t = s)) ∧
  (∀ (s : State), s.alive = true →
    (∀ rails shares, s.frw.doneAt = none → Completes (.powerSample rails shares) s fun t =>
      t.pwr.samples = (samplePower rails :: s.pwr.samples).take 10000 ∧
        t.get R.PWR_STATUS.POWER_W = min 0xFFFF (t.meanPower 1000 / 1000000) ∧
        t.get R.PWR_STATUS.WINDOW_W = min 0xFFFF (t.meanPower 10000 / 1000000) ∧
        (∀ n, n < 16 → ∃ e, e = Table.get 0 n s.pwr.fraction + 16 * (railPower rails n + shares.getD n 0) +
            (railPower rails 17 + railPower rails 19 + railPower rails 20) ∧
          t.get (R.PWR_ENERGY.UJ n) = (s.get (R.PWR_ENERGY.UJ n) + e / 16000000) % 2 ^ 64 ∧
          Table.get 0 n t.pwr.fraction = e % 16000000) ∧
        ((s.cap + 700) * 1000000 < samplePower rails → t.isSet R.PWR_STATUS.PEAK_GUARD = true ∧ t.pwr.peakLeft = 10 ∧ t.levelsFollow ∧
          ∀ n, n < 16 → t.demand srcPeak n = min 6 (s.pl n + 2)) ∧
        (samplePower rails ≤ (s.cap + 700) * 1000000 → t.pwr.peakLeft = s.pwr.peakLeft - 1 ∧
          (s.pwr.peakLeft = 1 → t.isSet R.PWR_STATUS.PEAK_GUARD = false ∧ t.levelsFollow ∧ ∀ n, n < 16 → t.demand srcPeak n = 0)) ∧
        t.mem = s.mem ∧ t.out = s.out) ∧
    (∀ n, n < 16 →
      let l := Table.get [] n s.pwr.currents
      let limit := 1000 * s.get R.PWR_FREQ_CTRL.CUR_LIMIT_A * l.length
      (limit < l.sum → Completes (.currentLimitStep n) s fun t =>
        t.demand srcCurrent n = min 6 (s.pl n + 1) ∧ Table.get 0 n t.pwr.under = 0 ∧ t.levelsFollow ∧ t.mem = s.mem) ∧
      (100 * l.sum < 95 * limit → Table.get 0 n s.pwr.under = 9 → Completes (.currentLimitStep n) s fun t =>
        t.demand srcCurrent n = s.demand srcCurrent n - 1 ∧ Table.get 0 n t.pwr.under = 0 ∧ t.levelsFollow ∧ t.mem = s.mem) ∧
      (100 * l.sum < 95 * limit → Table.get 0 n s.pwr.under ≠ 9 → Completes (.currentLimitStep n) s fun t =>
        t = { s with pwr := { s.pwr with under := Table.set 0 n (Table.get 0 n s.pwr.under + 1) s.pwr.under } }) ∧
      (l.sum ≤ limit → 95 * limit ≤ 100 * l.sum → Completes (.currentLimitStep n) s fun t =>
        t = { s with pwr := { s.pwr with under := Table.set 0 n 0 s.pwr.under } })))

/-- Alerts and droop (R512, R520). A VR_ALERT_N input that falls puts every tile at PL7 and is shown and counted; PL7 stays
until 1 ms after the last input has risen. A droop stretches a tile's clock, one that lasts skips cycles, and its end clears
both.  Temperatures (R425, R523, R524). A reading below the trip value is shown; at the throttle value the tile throttles, at
the emergency value it is in emergency, which ends below the throttle value; one at the trip value drives THERM_TRIP_N and
FAULT_N low and stops the device. A step moves the demand one level up, or one down once it is 3 degrees below. A stack above 85
degrees refreshes at the hot rate, one at 83 or below does not. -/
def Obligations.AlertsAndTemperatures : Prop :=
  (∀ (s : State), s.alive = true →
    (∀ k, k < 4 → k ∉ s.pins.vrAlertLow → Completes (.vrAlertFall k) s fun t =>
      t.pins.vrAlertLow = s.pins.vrAlertLow ++ [k] ∧ bit (t.get R.PWR_STATUS.VR_ALERT) k = true ∧ t.pwr.prepared = [] ∧
        t.get R.THM_EVENTS.VR_ALERTS = min (2 ^ R.THM_EVENTS.VR_ALERTS.width - 1) (s.get R.THM_EVENTS.VR_ALERTS + 1) ∧
        (∀ n, n < 16 → 7 ≤ t.wanted n) ∧ t.levelsFollow ∧ bit (t.get R.GLB_ERR_SUMMARY.SEEN) 1 = true ∧ t.mem = s.mem) ∧
    (∀ k, k ∈ s.pins.vrAlertLow → Completes (.vrAlertRise k) s fun t =>
      t.pins.vrAlertLow = s.pins.vrAlertLow.filter (fun j => j != k) ∧ t.pwr.alertHold = t.pins.vrAlertLow.isEmpty ∧ t.alert = true ∧
        t.levelsFollow ∧ t.mem = s.mem ∧ t.out = s.out) ∧
    (s.pins.vrAlertLow = [] → Completes .vrAlertHoldExpiry s fun t =>
      t.alert = false ∧ t.pwr = { s.pwr with alertHold := false, occur := t.pwr.occur } ∧ t.levelsFollow ∧ t.mem = s.mem ∧
        t.out = s.out) ∧
    (∀ n, n < 16 →
      (s.isSet (R.PWR_TILE.DROOP_SKIP n) = false → Completes (.droopTrip n) s fun t =>
        t.isSet (R.PWR_TILE.STRETCH n) = true ∧ bit (t.get R.PWR_REASONS.ACTIVE) 0 = true ∧ t.mem = s.mem ∧ t.out = s.out) ∧
      (s.isSet (R.PWR_TILE.STRETCH n) = true → Completes (.droopSkipStart n) s fun t =>
        t.isSet (R.PWR_TILE.STRETCH n) = false ∧ t.isSet (R.PWR_TILE.DROOP_SKIP n) = true ∧
          bit (t.get R.PWR_REASONS.ACTIVE) 0 = true ∧ t.mem = s.mem ∧ t.out = s.out) ∧
      (Completes (.droopEnd n) s fun t =>
        t.isSet (R.PWR_TILE.STRETCH n) = false ∧ t.isSet (R.PWR_TILE.DROOP_SKIP n) = false ∧ t.mem = s.mem ∧ t.out = s.out))) ∧
  (∀ (s : State), s.alive = true → s.pins.thermTripN = true → ∀ n, n < 16 →
    (∀ tj ts T U, T = min 255 (tj.foldl max 0) → U = min 255 (ts.foldl max 0) → Completes (.thermalSensorRead n tj ts) s fun t =>
      t.get (R.THM_TILE.TJ n) = T ∧ t.get (R.THM_TILE.TSTORE n) = U ∧
        t.isSet (R.THM_TILE.TILE_THROTTLING n) = decide (s.get R.THM_CTRL.TILE_THROTTLE_C ≤ T) ∧
        t.isSet (R.THM_TILE.STORE_THROTTLING n) = decide (s.get R.THM_CTRL.STORE_THROTTLE_C ≤ U) ∧
        (105 ≤ T → s.get R.THM_CTRL.TILE_THROTTLE_C ≤ T → t.isSet (R.THM_TILE.TILE_EMERGENCY n) = true) ∧
        (T < 105 → T < s.get R.THM_CTRL.TILE_THROTTLE_C → t.isSet (R.THM_TILE.TILE_EMERGENCY n) = false) ∧
        (100 ≤ U → s.get R.THM_CTRL.STORE_THROTTLE_C ≤ U → t.isSet (R.THM_TILE.STORE_EMERGENCY n) = true) ∧
        (T < 115 → U < 110 → t.flt.dead = false ∧ t.pins = s.pins) ∧
        (115 ≤ T ∨ 110 ≤ U → t.alive = false ∧ t.pins.thermTripN = false ∧ t.pins.faultN = false) ∧ t.levelsFollow ∧ t.mem = s.mem) ∧
    (∀ c T, T = min 255 c → Completes (.stackThermRead n c) s fun t =>
      t.get (R.STACK_THERM.TEMP n) = T ∧ t.isSet (R.STACK_THERM.THROTTLING n) = decide (s.get (R.STACK_THERM.THROTTLE_C n) ≤ T) ∧
        (95 ≤ T → s.get (R.STACK_THERM.THROTTLE_C n) ≤ T → t.isSet (R.STACK_THERM.EMERGENCY n) = true) ∧
        (85 < c → t.isSet (R.STACK_REFRESH.HOT n) = true) ∧ (c ≤ 83 → t.isSet (R.STACK_REFRESH.HOT n) = false) ∧
        (83 < c → c ≤ 85 → t.isSet (R.STACK_REFRESH.HOT n) = s.isSet (R.STACK_REFRESH.HOT n)) ∧
        (T < 105 → t.flt.dead = false) ∧ (105 ≤ T → t.alive = false ∧ t.pins.thermTripN = false) ∧ t.levelsFollow ∧ t.mem = s.mem) ∧
    (∀ k, k < 3 → ∀ down,
      let T := (s.tempOf (3 + k) n).1
      let H := (s.tempOf (3 + k) n).2.1
      (down = false → H ≤ T → Completes (.thermalThrottleStep n k down) s fun t =>
        t.demand (3 + k) n = min 6 (s.demand (3 + k) n + 1) ∧ t.levelsFollow ∧ t.mem = s.mem ∧ t.out = s.out) ∧
      (down = true → T + 3 < H → Completes (.thermalThrottleStep n k down) s fun t =>
        t.demand (3 + k) n = s.demand (3 + k) n - 1 ∧ t.levelsFollow ∧ t.mem = s.mem ∧ t.out = s.out) ∧
      ((down = false ∧ T < H) ∨ (down = true ∧ H ≤ T + 3) → Completes (.thermalThrottleStep n k down) s fun t => t = s)))

/-- Segments (R371 to R374). Software sets a segment's state: OFF loses its data, RETAIN keeps them, ON wakes it; a segment
that holds what may not lose power refuses OFF and counts it; code 3 asks for nothing. At the end of a wake the segment is ON,
zero where it came from OFF. The scrubber reads word after word of a segment that is ON (R371): a clean word changes nothing,
a corrected one is counted, one that is not is poisoned. Control-core accesses to lines that a Granary may hold (R377, R379,
R380): one whose line is present is performed at once and counted as a hit, another waits for the line's fill and is performed
when it returns; an access to what no Granary holds goes past it. That code 3 asks for nothing here is the model's choice (log
entry 70). -/
def Obligations.OnPackageMemory : Prop :=
  (∀ (s : State) (g : Seg) (v : Nat), s.alive = true → g.tile < 16 → g.idx < (if g.sp then 8 else 16) →
    (∀ ts sp, (if g.sp then ts else sp) = (if g.sp then 0xFFFFFFFF else 0xFFFF) →
      (if g.sp then sp else ts) = setBits (if g.sp then 0xFFFF else 0xFFFFFFFF) (2 * g.idx) 2 v → s.segState g ≠ segWaking →
      (v = segOff → s.segHeld g = false → Completes (.segPowerWrite g.tile ts sp) s fun t =>
        t.segState g = segOff ∧ bits (t.get g.asked) (2 * g.idx) 2 = segOff ∧
          (s.segState g ≠ segOff → ∀ a, g.base ≤ a → a < g.base + g.size → t.byte a = 0) ∧
          (∀ a, ¬ (g.base ≤ a ∧ a < g.base + g.size) → t.byte a = s.byte a) ∧ s.sameRegs t [g.field, g.asked]) ∧
      (v = segOff → s.segHeld g = true → Completes (.segPowerWrite g.tile ts sp) s fun t =>
        t.segState g = s.segState g ∧ s.leaves t [R.TSTORE_ATOM_EVENTS.SEG_REFUSED g.tile]) ∧
      (v = segRetain → s.segState g = segOn → Completes (.segPowerWrite g.tile ts sp) s fun t =>
        t.segState g = segRetain ∧ s.leaves t [g.field, g.asked]) ∧
      (v = segOn → s.segState g ≠ segOn → Completes (.segPowerWrite g.tile ts sp) s fun t =>
        t.segState g = segWaking ∧ (s.segState g = segOff → g.no ∈ (t.tile g.tile).fromOff) ∧ s.leaves t [g.field, g.asked]) ∧
      (v = 3 → Completes (.segPowerWrite g.tile ts sp) s fun t => t = s)) ∧
    (∀ k, k = g.no → s.segState g = segWaking → Table.get none g.no (s.tile g.tile).segPend = none →
      (g.no ∉ (s.tile g.tile).fromOff → Completes (.segmentWakeDone g.tile k) s fun t =>
        t.segState g = segOn ∧ s.leaves t [g.field]) ∧
      (g.no ∈ (s.tile g.tile).fromOff → Completes (.segmentOnDone g.tile k) s fun t =>
        t.segState g = segOn ∧ g.no ∉ (t.tile g.tile).fromOff ∧ (∀ a, g.base ≤ a → a < g.base + g.size → t.byte a = 0) ∧
          (∀ a, ¬ (g.base ≤ a ∧ a < g.base + g.size) → t.byte a = s.byte a) ∧ s.sameRegs t [g.field]))) ∧
  (∀ (s : State) (n : Nat) (sp : Bool) (o : Nat), s.alive = true → n < 16 →
    o = (if sp then (s.tile n).scrubSp else (s.tile n).scrubTs) → o < (if sp then 0x2000000 else 0x10000000) → o % 64 = 0 →
    s.segState ⟨n, sp, o / (if sp then 0x400000 else 0x1000000)⟩ = segOn → (sp = false → o + s.granaryBytes n < 0x10000000) →
    let a := (if sp then scratchBase n else tileStoreBase n) + o
    let next := (o + 64) % (if sp then 0x2000000 else 0x10000000)
    (∀ r ∈ [none, some true, some false], Completes (.scrub n sp r) s fun t =>
      (if sp then (t.tile n).scrubSp else (t.tile n).scrubTs) = next ∧ t.mem = s.mem) ∧
    (Completes (.scrub n sp none) s fun t => t = s.modTile n fun x => if sp then { x with scrubSp := next } else { x with scrubTs := next }) ∧
    (Completes (.scrub n sp (some true)) s fun t =>
      let f := if sp then R.TSTORE_ECC_COUNTS.SP_CORRECTED n else R.TSTORE_ECC_COUNTS.TS_CORRECTED n
      t.get f = min (2 ^ f.width - 1) (s.get f + 1) ∧ t.poison = s.poison) ∧
    (Completes (.scrub n sp (some false)) s fun t => t.poisoned a 64 = true ∧ bit (t.get R.GLB_ERR_SUMMARY.SEEN) 1 = true)) ∧
  (∀ (s : State) (n addr : Nat) (b : Bytes), s.alive = true → n < 16 → addr % 64 + b.length ≤ 64 →
    let line := addr / 64 * 64
    (s.cacheHome addr = some n →
      ((s.tile n).fills = [] → ((s.gset n (setOf line)).find line).isSome = true →
        (Completes (.granaryAccess addr (some b) false) s fun t =>
          t.read addr b.length = b ∧ (∀ x, ¬ (addr ≤ x ∧ x < addr + b.length) → t.byte x = s.byte x) ∧ t.out = s.out ∧
            s.sameRegs t [R.TSTORE_GRANARY_COUNTS.HITS n]) ∧
        (s.poisoned line 64 = false → Completes (.granaryAccess addr none false) s fun t =>
          s.leaves t [R.TSTORE_GRANARY_COUNTS.HITS n])) ∧
      ((s.tile n).fills = [] → (s.gset n (setOf line)).find line = none →
        Completes (.granaryAccess addr (some b) false) s fun t =>
          (t.tile n).fills = [(line, .write addr b)] ∧ s.leaves t [R.TSTORE_GRANARY_COUNTS.MISSES n])) ∧
    (s.cacheHome addr = none → (s.home addr).isSome = true → Completes (.granaryAccess addr (some b) false) s fun t =>
      t = s.write addr b) ∧
    (addr < farBase → (s.tile n).fills = [(line, .write addr b)] → Completes (.granaryFillDone n line false) s fun t =>
      (t.tile n).fills = [] ∧ ((t.gset n (setOf line)).find line).isSome = true ∧ t.read addr b.length = b ∧
        (∀ x, ¬ (addr ≤ x ∧ x < addr + b.length) → t.byte x = s.byte x) ∧ t.out = s.out))

/-- The stack controller (R400, R404, R405, R408, R409, R422, R579). An access outside an atom is performed at once: a write
replaces its 64 bytes, a clean read changes nothing, one that cannot be corrected poisons its line; inside an atom it waits
for the boundary. A refresh interval lowers the balance, which is made up outside the schedule and in the windows; in the
schedule outside them one refresh is forced once more than two are owed. That an access outside an atom waits for nothing is
the model's choice (log entry 119). -/
def Obligations.StackController : Prop :=
  ∀ (s : State) (n pc : Nat), s.alive = true → n < 16 → pc < 64 →
    (∀ addr b line, s.place addr = .stack n → s.pcOf addr = pc → line = addr / 64 * 64 →
      (s.pcFree n pc = true →
        (b.length = 64 → Completes (.stackAccess addr (some b) []) s fun t =>
          t.read line 64 = b ∧ (∀ x, ¬ (line ≤ x ∧ x < line + 64) → t.byte x = s.byte x) ∧ t.poisoned line 64 = false ∧
            t.out = s.out ∧ s.sameRegs t []) ∧
        (Completes (.stackAccess addr none []) s fun t => t = s) ∧
        (∀ y, y ≠ [] → (s.stack n).corrects pc y = false → Completes (.stackAccess addr none y) s fun t =>
          t.poisoned line 64 = true ∧ (∀ x, ¬ (line ≤ x ∧ x < line + 64) → t.byte x = s.byte x) ∧
            bit (t.get R.GLB_ERR_SUMMARY.SEEN) 1 = true ∧
            (s.isSet (R.STACK_ECC_FAULT.VALID n) = false → t.isSet (R.STACK_ECC_FAULT.VALID n) = true ∧
              t.get (R.STACK_ECC_FAULT.PC n) = pc))) ∧
      (s.pcFree n pc = false → Completes (.stackAccess addr (some b) []) s fun t =>
        t = s.modStack n fun k => { k with queue := Table.modify [] pc (· ++ [(⟨addr, .write b, [], s.now⟩ : StackAcc)]) k.queue }) ∧
      (s.stackServes n = true → s.inSchedule = false → 0 ≤ (s.stack n).bal pc → b.length = 64 →
        (∃ at_, Table.get [] pc (s.stack n).queue = [(⟨addr, .write b, [], at_⟩ : StackAcc)]) →
        Completes (.atomBoundary n pc) s fun t =>
          pc ∉ (t.stack n).inAtom ∧ Table.get [] pc (t.stack n).queue = [] ∧ t.read line 64 = b ∧
            (∀ x, ¬ (line ≤ x ∧ x < line + 64) → t.byte x = s.byte x) ∧ t.out = s.out)) ∧
    ((s.stack n).inAtom.contains pc = true → Completes (.refreshInterval n pc) s fun t =>
      (t.stack n).bal pc = (s.stack n).bal pc - 1 ∧
        ((s.stack n).bal pc < -1 → s.postpones n = true → s.catchUp n = false → pc ∈ (t.stack n).forced) ∧ s.leaves t []) ∧
    ((s.stack n).inAtom.contains pc = false →
      (s.postpones n = false → Completes (.refreshInterval n pc) s fun t =>
        (t.stack n).bal pc = max 0 ((s.stack n).bal pc - 1) ∧ s.leaves t []) ∧
      (s.postpones n = true → s.catchUp n = true → (s.stack n).bal pc ≤ s.get (R.STACK_REFRESH.PULLIN_MAX n) →
        Completes (.refreshInterval n pc) s fun t =>
          (t.stack n).bal pc = s.get (R.STACK_REFRESH.PULLIN_MAX n) ∧ s.leaves t [R.STACK_REFRESH_COUNTS.CATCH_UP n]) ∧
      (s.postpones n = true → s.catchUp n = false → pc ∉ (s.stack n).forced → -1 ≤ (s.stack n).bal pc →
        Completes (.refreshInterval n pc) s fun t => (t.stack n).bal pc = (s.stack n).bal pc - 1 ∧ s.leaves t []) ∧
      (s.postpones n = true → s.catchUp n = false → (s.stack n).bal pc < -1 → Completes (.refreshInterval n pc) s fun t =>
        (t.stack n).bal pc = (s.stack n).bal pc ∧ pc ∉ (t.stack n).forced ∧ s.leaves t [R.STACK_REFRESH_COUNTS.FORCED n])) ∧
    (∀ lane, lane < 36 →
      (256 ≤ Table.get 0 (pc * 64 + lane) (s.stack n).corrected → pc * 64 + lane ∉ (s.stack n).marked →
        ((s.stack n).marks pc).length < 2 → Completes (.stackLaneMarked n pc lane) s fun t =>
          (t.stack n).marked = (s.stack n).marked ++ [pc * 64 + lane] ∧ t.get (R.STACK_ECC_COUNTS.LANE_MARKS n) =
            min (2 ^ 16 - 1) (s.get (R.STACK_ECC_COUNTS.LANE_MARKS n) + 1) ∧ bit (t.get R.GLB_ERR_SUMMARY.SEEN) 1 = true ∧ t.mem = s.mem) ∧
      (Table.get 0 (pc * 64 + lane) (s.stack n).corrected < 256 → Completes (.stackLaneMarked n pc lane) s fun t => t = s)) ∧
    (64 < ((Table.get [] pc (s.stack n).recent).filter fun x => decide (s.now < x + 1000000)).length → n ∉ s.flt.fatalParts →
      Completes (.stackChannelLost n pc) s fun t =>
        t.flt.fatalParts = s.flt.fatalParts ++ [n] ∧ bit (t.get R.GLB_ERR_SUMMARY.SEEN) 4 = true ∧ t.mem = s.mem)

/-- Ends of long work (R350, R386, R387, R398, R426, R587): a region is zeroed, a Granary's new size or a partition's hold
takes effect once the Granary is empty, an engine's self-test gives it back or fails the packet, a page's copy is in its new
place, and memory initialisation leaves stacks, tile stores and scratchpads zero. Adapter versions at a device in no cluster
(R103, R104, R314). ADAPTER_LOAD with room writes its slices and is LOADING; without room it waits as PENDING, or is refused
where it may not wait. A version that waits starts when room appears and is refused at its timeout. A slice with a plot that
is not whole is written once more from the image (R308); a version whose plots are whole then is STAGED and completes; else it
is gone and the packet fails. When regions are zeroed and a new size holds is the model's choice (log entry 74). -/
def Obligations.LongWorkEnds : Prop :=
  (∀ (s : State) (n : Nat), s.alive = true → n < 16 →
    (∀ r, s.que.tickets = [] → s.cfg.finishing = [] → (∀ k, k < 16 → s.seqState k ≠ seqHeld) → Completes (.regionZeroDone n r) s fun t =>
      t = s.modStack n fun k => { k with zeroing := k.zeroing.filter fun x => x != r }) ∧
    (∀ size, s.que.tickets = [] → s.cfg.finishing = [] → s.cfg.granaryFlush = [(n, size)] → size ≤ 8 → s.get (R.TSTORE_GRANARY.SIZE n) ≤ 8 →
      s.flt.holdWait = [] → (∀ k, k < 16 → s.seqState k ≠ seqHeld) → Completes (.granaryFlushDone n) s fun t =>
        t.get (R.TSTORE_GRANARY.SIZE n) = size ∧ (t.tile n).granary = [] ∧ t.cfg.granaryFlush = [] ∧
          (∀ a, t.byte a = if tileStoreBase n + 0x10000000 - s.get (R.TSTORE_GRANARY.SIZE n) * 0x400000 ≤ a ∧
            a < tileStoreBase n + 0x10000000 - size * 0x400000 then 0 else s.byte a)) ∧
    (∀ T i, s.que.tickets = [T] → T.origin = .host i → T.awaiting = [] → T.answers = [] → T.fence = none → T.barrier = false →
      (s.cfg.finishing = [] → s.cfg.granaryFlush = [] → s.flt.holdWait = [(n, T.no)] → (∀ k, k < 16 → s.seqState k ≠ seqHeld) →
        Completes (.granaryFlushDone n) s fun t =>
        n ∈ t.flt.heldParts ∧ t.partOk n = false ∧ t.seqState n = seqIdle ∧ (t.tile n).queues = [] ∧ (t.stack n).units = [] ∧
          t.flt.holdWait = [] ∧ t.que.tickets = [] ∧ t.mem = s.mem) ∧
      (∀ e ok, (s.tile n).bist = some (e, T.no) → Completes (.engineBistDone n ok) s fun t =>
        (t.tile n).bist = none ∧ (t.tile n).regain = (if ok then some e else (s.tile n).regain) ∧ t.que.tickets = [] ∧ t.mem = s.mem)) ∧
    (∀ c, (s.kv.copies.find? fun x => x.page.tile == n && x.page.addr == c.page.addr && !x.ended) = some c →
      let len := 16384 * 2 ^ c.page.size
      c.addr + len ≤ headerOf (s.pool n c.tier) c.addr → Completes (.spillCopyDone n c.page.addr) s fun t =>
        t.read c.addr len = s.read c.page.addr len ∧
          (∀ x, ¬ (c.addr ≤ x ∧ x < c.addr + len) →
            ¬ (headerOf (s.pool n c.tier) c.addr ≤ x ∧ x < headerOf (s.pool n c.tier) c.addr + len / 64) → t.byte x = s.byte x) ∧
          (∀ x ∈ t.kv.copies, x.page.tile = n → x.page.addr = c.page.addr → x.ended = true) ∧ t.out = s.out) ∧
    (∀ found, s.sec.started = true → s.isSet R.GLB_READY.MEM_OK = false → Completes (.memoryInitDone found) s fun t =>
      t.isSet R.GLB_READY.MEM_OK = true ∧ (∀ a, a < 0x120000000 ∨ (0x1000000000 ≤ a ∧ a < 0xD000000000) → t.byte a = 0) ∧
        (∀ a, farBase ≤ a → t.byte a = s.byte a) ∧ t.out = s.out)) ∧
  (∀ (s : State), s.alone →
    (∀ (p q : Packet) (dir : List Reserve) (a : Adapter) (z m : State), q = p.op 0x23 → s.takes q →
      s.adapterCheck (bits p.p0 0 4) (s.read p.p1 p.p2) = .ok dir → bits p.p0 0 4 ∉ s.srv.suspended →
      (s.srv.adapters.filter fun x => x.inst == bits p.p0 0 4).length < 1024 →
      a = ⟨bits p.p0 0 4, bits p.p0 32 32,
        ((s.srv.adapters.filter fun x => x.inst == bits p.p0 0 4 && x.id == bits p.p0 32 32).map fun x => x.ver).foldl max 0 + 1,
        .pending, p.p1, p.p2, sha384 (s.read p.p1 p.p2), dir, some s.que.nextNo, none⟩ →
      z = { s.accepted q none none with srv := { s.srv with adapters := s.srv.adapters ++ [a] } } →
      m = (z.awaitSelf s.que.nextNo).modAdapter a.inst a.id a.ver (fun x => { x with state := .loading }) →
        (∀ u, s.adapterRoom a = true → dir.any (fun e => e.device == s.self) = true →
          m.placeSlices a.inst a.id a.ver (s.read p.p1 p.p2) dir = some u → Completes (.adapterLoad p) s fun t => t = u) ∧
        (s.adapterRoom a = false → p.noWait = true → Completes (.adapterLoad p) s fun t =>
          t = s.counted.completed q { status := .rejNoSpace }) ∧
        (s.adapterRoom a = false → p.noWait = false → Completes (.adapterLoad p) s fun t =>
          t.srv.adapters = s.srv.adapters ++ [a] ∧ t.que.tickets.map Ticket.no = [s.que.nextNo] ∧ t.mem = s.mem)) ∧
    (∀ (a : Adapter) (T : Ticket) (i : Nat), s.alive = true → s.que.tickets = [T] → T.origin = .host i → T.packet.opcode = 0x23 →
      T.barrier = false → T.fence = none → T.answers = [] → s.srv.adapters = [a] → a.ticket = some T.no →
        (∀ m u b, a.state = .pending → s.adapterRoom a = true → T.awaiting = [] → b = s.read a.imageAddr a.imageLen →
          m = (s.awaitSelf T.no).modAdapter a.inst a.id a.ver (fun x => { x with state := .loading }) →
          ((sliceDir b).map Prod.fst).any (fun e => e.device == s.self) = true →
          m.placeSlices a.inst a.id a.ver b ((sliceDir b).map Prod.fst) = some u →
            Completes (.adapterRoom a.inst a.id a.ver) s fun t => t = u) ∧
        (a.state = .pending → T.awaiting = [] → Completes (.adapterTimeout a.inst a.id a.ver) s fun t =>
          t.srv.adapters = [] ∧ t.que.tickets = [] ∧ t.mem = s.mem) ∧
        (a.state = .loading → T.awaiting = [(s.self, 0)] →
          let r := (s.badSlices a.inst a.id a.ver).foldl State.writeSlice s
          Completes (.adapterVerifyDone a.inst a.id a.ver) s fun t =>
            t.que.tickets = [] ∧ t.mem = r.mem ∧
              t.srv.adapters = if (r.badSlices a.inst a.id a.ver).isEmpty then [{ a with state := .staged, ticket := none }] else [])))

/-! ### Links (spec/13_fjarip_fabric.md) -/

/-- Frames at the receiver (R448). A port that is not UP takes none. A frame that is uncorrectable, or finds no room, is
discarded and answered by a NAK, unless one has been sent since the last intact sequenced frame; a sequenced frame whose SEQ is
not the next one is discarded without a NAK; an intact one in order is accepted, and ACK advances to its SEQ. Every frame sent
carries the current ACK. -/
def Obligations.LinkFrames : Prop :=
  ∀ (s : State) (p : Nat) (f : Frame) (fixed : Nat) (tag : Bool), s.quiet → p < 24 →
    (s.portUp p = false →
      ∀ c ∈ [Instr.idleFrame p f fixed, .dataFrame p f fixed false tag, .dataFrame p f fixed true tag, .startFrame p f fixed,
        .beaconFrame p f fixed, .relayFrame p f fixed, .nakFrame p f fixed, .uncorrectableFrame p, .replayTimeout p, .linkRetrain p],
        Completes c s fun t => t = s) ∧
    (s.portUp p = true → s.noColl →
      ((∀ x ∈ (s.link p).replay, x.frame.seq ≠ f.ack) → ∀ c, (c = Instr.idleFrame p f fixed ∨ f.seq ≠ ((s.link p).rxSeq + 1) % 1024 ∧
          c ∈ [Instr.dataFrame p f fixed false tag, .startFrame p f fixed, .beaconFrame p f fixed, .relayFrame p f fixed]) →
        Completes c s fun t => t.get (R.LINK_COUNTS0.CORRECTED_SYMBOLS p) =
            (s.get (R.LINK_COUNTS0.CORRECTED_SYMBOLS p) + fixed) % 2 ^ (R.LINK_COUNTS0.CORRECTED_SYMBOLS p).width ∧
          t.links = s.links ∧ t.flt = s.flt ∧ t.frw = s.frw ∧ t.coll = s.coll ∧ s.leaves t [R.LINK_COUNTS0.CORRECTED_SYMBOLS p]) ∧
      ((∀ x ∈ (s.link p).replay, x.frame.seq ≠ f.ack) → (s.link p).rx = none → f.seq = ((s.link p).rxSeq + 1) % 1024 →
        Completes (.dataFrame p f fixed false tag) s fun t =>
          t.link p = { s.link p with rxSeq := f.seq, nakSent := false } ∧ s.onlyLink t p ∧ s.leaves t [R.LINK_COUNTS0.CORRECTED_SYMBOLS p])) ∧
    (s.portUp p = true →
      ∀ c ∈ [(Instr.uncorrectableFrame p, R.LINK_COUNTS0.UNCORRECTABLE p), (.dataFrame p f fixed true tag, R.LINK_COUNTS2.BUFFER_OVERFLOWS p)],
        ((s.link p).nakSent = false → Completes c.1 s fun t =>
          t.get c.2 = min (2 ^ c.2.width - 1) (s.get c.2 + 1) ∧
            t.get (R.LINK_COUNTS1.NAKS_SENT p) = min (2 ^ (R.LINK_COUNTS1.NAKS_SENT p).width - 1) (s.get (R.LINK_COUNTS1.NAKS_SENT p) + 1) ∧
            t.out = s.out ++ [.frame p { plainFrame fNak [] with ack := (s.link p).rxSeq }] ∧
            t.link p = { s.link p with nakSent := true } ∧ s.onlyLink t p ∧ t.mem = s.mem ∧
            s.sameRegs t [c.2, R.LINK_COUNTS1.NAKS_SENT p]) ∧
        ((s.link p).nakSent = true → Completes c.1 s fun t =>
          t.get c.2 = min (2 ^ c.2.width - 1) (s.get c.2 + 1) ∧ t.links = s.links ∧ s.leaves t [c.2])) ∧
    (∀ g : Frame, (s.transmit p g).out = s.out ++ [.frame p { g with ack := (s.link p).rxSeq }]) ∧
    ∀ (g : Frame) (o : Option (Nat × Nat)), (s.transmitSeq p g o).out =
      s.out ++ [.frame p { g with seq := ((s.link p).txSeq + 1) % 1024, ack := (s.link p).rxSeq }]

/-- Replay (R449). A sequenced frame is kept until it is acknowledged; while the buffer of 256 frames is full nothing new is
sent. A NAK, or the timeout without an acknowledgement, sends every frame of the buffer again, in its order and with REPLAY set;
a frame already replayed 8 times takes the link out of UP to train again, and the retrain is counted. -/
def Obligations.ReplayBuffer : Prop :=
  ∀ (s : State) (p : Nat) (f : Frame) (fixed : Nat), s.quiet → s.noColl → p < 24 → s.portUp p = true →
    (∀ x ∈ (s.link p).replay, x.frame.seq ≠ f.ack) →
    let P := R.LINK_COUNTS0.REPLAYS p
    let C := R.LINK_COUNTS0.CORRECTED_SYMBOLS p
    (∀ c ∈ [Instr.nakFrame p f fixed, .replayTimeout p], (s.link p).replay ≠ [] →
      (∀ x ∈ (s.link p).replay, x.tries < 8 ∧ x.deferred = false) → Completes c s fun t =>
        t.out = s.out ++ (s.link p).replay.map (fun x => .frame p { x.frame with replay := true, ack := (s.link p).rxSeq }) ∧
          t.link p = { s.link p with replay := (s.link p).replay.map fun x =>
            { x with frame := { x.frame with replay := true }, tries := x.tries + 1 } } ∧
          t.get P = min (2 ^ P.width - 1) (s.get P + 1) ∧ s.onlyLink t p ∧ t.mem = s.mem ∧ s.sameRegs t [C, P]) ∧
    (∀ c ∈ [Instr.nakFrame p f fixed, .replayTimeout p, .linkRetrain p], (∃ x ∈ (s.link p).replay, 8 ≤ x.tries) →
      (s.link p).rx = none → s.coll.opened = [] → Completes c s fun t =>
        t.get (R.LINK_STATUS.STATE p) = linkTrain ∧ t.isSet (R.LINK_STATUS.PEER_VALID p) = false ∧
          t.isSet R.GLB_READY.LINKS_OK = false ∧
          t.get (R.LINK_COUNTS2.RETRAINS p) = min (2 ^ (R.LINK_COUNTS2.RETRAINS p).width - 1) (s.get (R.LINK_COUNTS2.RETRAINS p) + 1) ∧
          t.link p = { s.link p with txSeq := 0, rxSeq := 0, nakSent := false, replay := [], waiting := [], attempts := 0, train := none,
                                     retraining := true } ∧
          s.onlyLink t p ∧ t.mem = s.mem ∧ t.out = s.out) ∧
    ((s.link p).replay = [] → Completes (.replayTimeout p) s fun t => t = s) ∧
    ((∀ x ∈ (s.link p).replay, x.tries < 8) → Completes (.linkRetrain p) s fun t => t = s) ∧
    (∀ a x b g, (s.link p).replay = a ++ x :: b → (∀ y ∈ a, y.frame.seq ≠ x.frame.seq) → g.ack = x.frame.seq →
      (s.link p).waiting = [] → Completes (.idleFrame p g fixed) s fun t =>
        t.link p = { s.link p with replay := b } ∧ t.get (R.LINK_STATUS.RTT_NS p) = min 0xFFFF (s.now - x.sent) ∧
          s.onlyLink t p ∧ s.leaves t [C, R.LINK_STATUS.RTT_NS p]) ∧
    (∀ g : Frame, (s.link p).waiting = [] →
      ((s.link p).replay.length < 256 → ((s.sendSeq p g).link p).replay = (s.link p).replay ++
        [⟨{ g with seq := ((s.link p).txSeq + 1) % 1024, ack := (s.link p).rxSeq }, none, s.now, 0, false⟩] ∧
        ((s.sendSeq p g).link p).waiting = []) ∧
      (256 ≤ (s.link p).replay.length → (s.sendSeq p g).out = s.out ∧ ((s.sendSeq p g).link p).waiting = [(g, none)] ∧
        ((s.sendSeq p g).link p).replay = (s.link p).replay))

/-- Training (R30, R444, R470). A peer detected takes an enabled port to TRAIN, a peer lost back to DETECT; the TRAIN exchange
is kept; a port whose training succeeded with both ends in the same mode comes UP, numbering anew, and after three attempts
without success it is FAILED. Outcomes of training are commands (log entry 87). -/
def Obligations.Training : Prop :=
  ∀ (s : State) (p ser port mode : Nat) (ok : Bool), s.quiet → p < 24 →
    let S := R.LINK_STATUS.STATE p
    let L := R.GLB_READY.LINKS_OK
    (s.isSet (R.LINK_CTRL.ENABLE p) = true → s.get S = linkDetect ∨ s.get S = linkDown → Completes (.peerDetect p) s fun t =>
      t.get S = linkTrain ∧ t.isSet L = false ∧ t.link p = { s.link p with attempts := 0, train := none, retraining := false } ∧
        s.onlyLink t p ∧ s.leaves t [S, L]) ∧
    (s.isSet (R.LINK_CTRL.ENABLE p) = false → Completes (.peerDetect p) s fun t => t = s) ∧
    (s.get S ≠ linkTrain →
      ∀ c ∈ [Instr.trainFrame p ser port mode, .linkTrainDone p ok, .linkPeerLost p], Completes c s fun t => t = s) ∧
    (s.get S = linkTrain →
      (Completes (.trainFrame p ser port mode) s fun t => t = s.modLink p fun l => { l with train := some (ser, port, mode) }) ∧
      (Completes (.linkPeerLost p) s fun t =>
        t.get S = linkDetect ∧ t.link p = { s.link p with attempts := 0, train := none } ∧ s.onlyLink t p ∧ s.leaves t [S, L]) ∧
      ((s.link p).test = none →
        ((s.link p).train = some (ser, port, s.get (R.LINK_CTRL.MODE p)) → Completes (.linkTrainDone p true) s fun t =>
          t.get S = linkUp ∧ t.isSet (R.LINK_STATUS.PEER_VALID p) = true ∧ t.get (R.LINK_PEER.SERIAL p) = ser % 2 ^ 64 ∧
            t.get (R.LINK_STATUS.PEER_PORT p) = port % 2 ^ (R.LINK_STATUS.PEER_PORT p).width ∧
            t.link p = { s.link p with txSeq := 0, rxSeq := 0, nakSent := false, attempts := 0, retraining := false, train := none } ∧
            s.onlyLink t p ∧ t.mem = s.mem ∧ ((s.link p).retraining = true → bit (t.get R.GLB_ERR_SUMMARY.SEEN) 1 = true) ∧
            ((s.link p).retraining = false →
              s.leaves t [S, L, R.LINK_STATUS.PEER_VALID p, R.LINK_PEER.SERIAL p, R.LINK_STATUS.PEER_PORT p])) ∧
        ((ok = false ∨ (s.link p).train = none ∨ (s.link p).train = some (ser, port, mode) ∧ mode ≠ s.get (R.LINK_CTRL.MODE p)) →
          ((s.link p).attempts < 2 → Completes (.linkTrainDone p ok) s fun t =>
            t = s.modLink p fun l => { l with attempts := l.attempts + 1, train := none }) ∧
          (2 ≤ (s.link p).attempts → Completes (.linkTrainDone p ok) s fun t =>
            t.get S = linkFailed ∧ t.isSet L = false ∧ bit (t.get R.GLB_ERR_SUMMARY.SEEN) 1 = true ∧
              t.link p = { s.link p with attempts := 0, retraining := false, train := none } ∧ s.onlyLink t p ∧ t.mem = s.mem))))

/-- Streams (R455, R457). A START that agrees with the slot table opens its streams on the port; one of another epoch is counted
and answered with FENCED, one of a slot that is not there is counted. DATA joins the stream in hand, and the last frame of a
broadcast stream puts its bytes where the receiving COLL asks for them. -/
def Obligations.Streams : Prop :=
  ∀ (s : State) (p : Nat) (f : Frame) (fixed : Nat) (tag : Bool), s.hears p f →
    let C := R.LINK_COUNTS0.CORRECTED_SYMBOLS p
    let l := { s.link p with rxSeq := f.seq, nakSent := false }
    let b := f.flit
    let dev := (s.portDevice p).getD 0
    let E := R.LINK_COUNTS1.EPOCH_DROPS p
    let M := R.LINK_COUNTS2.SLOT_MISMATCH p
    let T := s.get R.FRW_LATE.TEMPLATE
    ((s.link p).rx = none → Completes (.dataFrame p f fixed false tag) s fun t =>
      t.link p = l ∧ s.onlyLink t p ∧ s.leaves t [C]) ∧
    (∀ r n len more, (s.link p).rx = some r → r.tiles = (n, len) :: more →
      ((collOf (s.slotTable r.template r.slot) n).map fun c => D.cWireFmt c.2).getD 0 ≠ 5 →
      ((r.frames.length + 1) * 256 < len → Completes (.dataFrame p f fixed false tag) s fun t =>
        t.link p = { l with rx := some { r with frames := r.frames ++ [f] } } ∧ s.onlyLink t p ∧ s.leaves t [C]) ∧
      (∀ e i d, r.frames = [] → f.enc = false → f.poison = false → b.length = 256 → len ≤ 256 →
        s.slotEntry r.template r.slot = some e → e.op = 4 → collector (s.slotTable r.template r.slot) = none →
        collOf (s.slotTable r.template r.slot) n = some (i, d) → D.cDst d ≠ 0 → s.mappedRange (D.cDst d) (D.cBytes d) = true →
        (∀ g ∈ segsOf (D.cDst d) (D.cBytes d), s.segState g ≠ segOff) → Completes (.dataFrame p f fixed false tag) s fun t =>
          t.link p = { l with rx := some { r with tiles := more, frames := [] } } ∧ s.onlyLink t p ∧
            t.read (D.cDst d) len = b.take len ∧ (∀ a, ¬ (D.cDst d ≤ a ∧ a < D.cDst d + len) → t.byte a = s.byte a) ∧
            t.coll.arrived = s.coll.arrived ++ [(p, r.slot, r.phase, n)] ∧ t.out = s.out)) ∧
    (rd b 4 4 ≠ s.get (R.GLB_PEER_EPOCH.EPOCH dev) → Completes (.startFrame p f fixed) s fun t =>
      t.get E = min (2 ^ E.width - 1) (s.get E + rd b 12 2) ∧ (t.link p).rx = none ∧ t.mem = s.mem ∧ s.sameRegs t [C, E] ∧
        (s.assigned = true → s.isFenced = false → Table.get 0 (s.get (R.LINK_PEER.SERIAL p)) s.flt.answered = 0 →
          Output.ctrl dev ⟨s.self, dev, s.flt.nextMsg, s.get R.GLB_MEMBERSHIP.EPOCH,
            .fenced dev (rd b 4 4) (s.get (R.LINK_PEER.SERIAL p))⟩ ∈ t.out)) ∧
    (rd b 4 4 = s.get (R.GLB_PEER_EPOCH.EPOCH dev) →
      (s.slotEntry T (rd b 0 2) = none → Completes (.startFrame p f fixed) s fun t =>
        t.get M = min (2 ^ M.width - 1) (s.get M + max 1 (rd b 12 2)) ∧ t.link p = { l with rx := none } ∧ s.onlyLink t p ∧
          s.leaves t [C, M]) ∧
      (∀ e k, s.slotEntry T (rd b 0 2) = some e → fld b 9 1 0 3 = T → (s.slotLinks e.argA).find? (fun k => k.2.contains p) = some k →
        rd b 2 2 = s.furrow % 65536 → s.slotTable T (rd b 0 2) ≠ [] → fld b 8 1 0 4 = e.op → fld b 10 1 0 4 = e.inst →
        (∀ x ∈ s.slotTable T (rd b 0 2), D.cWireFmt x.2.2 = fld b 8 1 4 4) →
        streamsAgree e (s.slotTable T (rd b 0 2)) k.2 p b = true → fld b 9 1 3 1 = 0 →
        Completes (.startFrame p f fixed) s fun t =>
          t.link p = { l with rx := some ⟨rd b 0 2, T, e.inst, 0, k.1,
            (List.range 16).filterMap fun n => if rd b (16 + 4 * n) 4 == 0 then none else some (n, rd b (16 + 4 * n) 4), []⟩ } ∧
            s.onlyLink t p ∧ s.leaves t [C]))

/-- Beacons and relays at the receiver (R463 to R465). Of a member's beacon of this furrow the device keeps that it came,
whether it is late, and the configuration it names; a relay or echo of this furrow leaves its sign of lateness; one of another
epoch is counted and nothing else is taken from it. -/
def Obligations.BeaconsAndRelays : Prop :=
  ∀ (s : State) (p : Nat) (f : Frame) (fixed : Nat), s.hears p f →
    let C := R.LINK_COUNTS0.CORRECTED_SYMBOLS p
    let E := R.LINK_COUNTS1.EPOCH_DROPS p
    let b := f.flit
    let d := fld b 2 1 0 6
    let peer := (s.portDevice p).getD 0
    (s.alone → Completes (.beaconFrame p f fixed) s fun t =>
      (∃ h, Table.get none (rd b 16 8) t.flt.heard = some h ∧ h.serial = rd b 16 8 ∧ h.device = d ∧ h.epoch = rd b 4 4 ∧ h.port = p) ∧
        t.frw = s.frw ∧ s.leaves t [C]) ∧
    (s.assigned = true → fld b 1 1 1 1 = 1 → fld b 1 1 5 1 = 0 →
      (rd b 4 4 = s.get (R.GLB_PEER_EPOCH.EPOCH d) → d ≠ s.leadId → s.inSchedule = true → rd b 40 8 = s.furrow →
        d ∉ s.frw.beacons → d ∉ s.frw.lateBeacons → Completes (.beaconFrame p f fixed) s fun t =>
          t.frw = { s.frw with beacons := s.frw.beacons ++ [d]
                               lateBeacons := if fld b 1 1 0 1 = 1 then s.frw.lateBeacons ++ [d] else s.frw.lateBeacons } ∧
            (d, (rd b 8 4, rd b 24 8)) ∈ t.cfg.peers ∧ s.leaves t [C]) ∧
      (rd b 4 4 ≠ s.get (R.GLB_PEER_EPOCH.EPOCH d) → Completes (.beaconFrame p f fixed) s fun t =>
        t.get E = min (2 ^ E.width - 1) (s.get E + 1) ∧ t.frw = s.frw ∧ t.cfg = s.cfg ∧ t.mem = s.mem ∧ s.sameRegs t [C, E])) ∧
    (s.assigned = true →
      (rd b 16 4 ≠ s.get (R.GLB_PEER_EPOCH.EPOCH peer) → Completes (.relayFrame p f fixed) s fun t =>
        t.get E = min (2 ^ E.width - 1) (s.get E + 1) ∧ t.frw = s.frw ∧ t.mem = s.mem ∧ s.sameRegs t [C, E]) ∧
      (rd b 16 4 = s.get (R.GLB_PEER_EPOCH.EPOCH peer) → s.inSchedule = true → rd b 8 8 = s.furrow →
        (fld b 1 1 2 1 = 1 → Completes (.relayFrame p f fixed) s fun t =>
          t.frw = { s.frw with echoLate := s.frw.echoLate || rd b 2 2 != 0 || fld b 5 1 0 4 != 0 } ∧ s.leaves t [C]) ∧
        (fld b 1 1 2 1 = 0 → Completes (.relayFrame p f fixed) s fun t =>
          (∀ g, g ∈ t.frw.relays ↔ g ∈ s.frw.relays ∨ g = fld b 1 1 0 2) ∧
            (∀ g, g ∈ t.frw.lateGroups ↔ g ∈ s.frw.lateGroups ∨ (rd b 2 2 ≠ 0 ∧ g = fld b 1 1 0 2)) ∧
            (fld b 4 1 3 1 = 0 → t.frw.leadNext = s.frw.leadNext) ∧ t.frw.beacons = s.frw.beacons ∧ s.leaves t [C])))

/-- On its way (R467, R468, R581): a message comes only to a port that is UP; one for another device goes on to it; one of an
epoch not held for its sender, unless it answers what a device that is to join was sent, does nothing but draw FENCED; any other is acknowledged to its sender, but for ACK itself. -/
def Obligations.MessagesOnTheWay : Prop :=
  ∀ (s : State) (p frags : Nat) (m : CtrlMsg), s.quiet → p < 24 → (∀ k pay img, m.body = .fwdCmd k pay img → k.opcode ≠ 5) →
    ∀ c ∈ [Instr.ackMsg p frags m, .fwdCmd p frags m, .completionMsg p frags m, .laneTable p frags m, .laneAck p frags m,
        .laneAccept p frags m, .laneDiscard p frags m, .cfgPrepare p frags m, .cfgReady p frags m, .cfgConflictReply p frags m,
        .cfgCommitGo p frags m, .cfgAbort p frags m, .t0Msg p frags m, .tokensMsg p frags m, .fencedMsg p frags m,
        .failureStepNotice p frags m, .failurePeerSilent p frags m, .failureSelfFence p frags m, .failureErrorRecord p frags m],
      (s.portUp p = false → Completes c s fun t => t = s) ∧
      (∀ q, s.portUp p = true → s.passOn m = some (some q) → Completes c s fun t =>
        Output.ctrl m.dst m ∈ t.out ∧ (t.link p).rxSeq = ((s.link p).rxSeq + frags) % 1024 ∧
          (∀ r, r ≠ p → r ≠ q → t.link r = s.link r) ∧ t.flt = s.flt ∧ t.frw = s.frw ∧ t.cfg = s.cfg ∧ t.mem = s.mem ∧
          ∀ f, t.get f = s.get f) ∧
      (s.portUp p = true → s.passOn m = none → s.assigned = true → m.epoch ≠ s.heldEpoch p m.src → s.fromJoiner m.body = false →
        Completes c s fun t =>
          t.frw = s.frw ∧ t.cfg = s.cfg ∧ t.srv = s.srv ∧ t.que = s.que ∧ t.mem = s.mem ∧ (∀ f, t.get f = s.get f) ∧
            (s.isFenced = false → (s.route m.src).isSome = true →
              Table.get 0 (Table.get 0 m.src s.flt.serials) s.flt.answered = 0 →
              t.told m.src (.fenced m.src m.epoch (Table.get 0 m.src s.flt.serials)))) ∧
      (s.takesMessage p m → acknowledged s.self m.body = true →
        (s.get R.GLB_MEMBER_STATE.STATE = 1 → (s.route m.src).isSome = true) → Completes c s fun t =>
          t.told m.src (.ack m.msgId))

/-- What messages of a schedule and a commit do at the device they reach (R41, R90, R106, R154, R467). An ACK ends the wait for
its message. T0 arms a stopped schedule. A lane table is kept and acknowledged, and adopted at ACCEPT; DISCARD counts the headland as
short and puts the lanes that it names into force. CFG_PREPARE locks and is answered, one that finds a set locked is counted and
refused, CFG_COMMIT decides what is prepared, CFG_ABORT unlocks and is counted.
A forwarded command acts at the member it reaches and is answered by COMPLETION: a digest is told, a power cap set, a stop noted
for its headland; a fenced member does none of it. -/
def Obligations.MessagesToMembers : Prop :=
  (∀ (s : State) (p frags : Nat) (m : CtrlMsg), s.takesMessage p m → s.que.tickets = [] →
    let A := s.arrived p frags m
    (∀ i, m.body = .ack i → Completes (.ackMsg p frags m) s fun t =>
      t.flt.sent = s.flt.sent.filter (fun x => !(x.dst == m.src && x.msg.msgId == i)) ∧
        (∀ d e n, (∃ x ∈ s.flt.sent, x.dst = m.src ∧ x.msg.msgId = i ∧ x.msg.body = .fenced d e n) → ∀ y ∈ t.flt.declared,
          y.device = d → m.src ∉ y.waiting) ∧ s.leaves t []) ∧
    (∀ t0 k0, m.body = .t0 t0 k0 →
      (s.frwState = frwStopped → Completes (.t0Msg p frags m) s fun t =>
        t.frwState = frwArmed ∧ t.frw = { s.frw with t0 := t0, k0 := k0, turned := false, nextTemplate := 0, fallowRun := 0 } ∧
          t.mem = s.mem ∧ s.sameRegs t [R.FRW_STATE.STATE]) ∧
      (s.frwState ≠ frwStopped → Completes (.t0Msg p frags m) s fun t => t = A)) ∧
    (∀ T, m.body = .laneTable T → Completes (.laneTable p frags m) s fun t =>
      Table.get none T.inst t.srv.laneRecv = some T ∧ t.srv.lanes = s.srv.lanes ∧ (T.suspended = true → T.inst ∈ t.srv.suspended) ∧
        ((s.route m.src).isSome = true → t.told m.src (.laneAck T.inst T.furrow t.usedByTenant t.farHere))) ∧
    (∀ i k used far, m.body = .laneAck i k used far → Completes (.laneAck p frags m) s fun t =>
      (k = s.furrow + 1 → Table.get [] i t.srv.laneWait = (Table.get [] i s.srv.laneWait).filter (fun d => d != m.src)) ∧
        (k ≠ s.furrow + 1 → t.srv.laneWait = s.srv.laneWait) ∧ Table.get [] m.src t.srv.farSeqs = far ∧
        (∀ x n, used = [(x, n)] → x < 1024 → Table.get 0 (m.src * 1024 + x) t.srv.farUse = n) ∧ t.srv.lanes = s.srv.lanes ∧
        t.mem = s.mem ∧ ∀ f, t.get f = s.get f) ∧
    (∀ i k, m.body = .laneAccept i k →
      (∀ T, Table.get none i s.srv.laneRecv = some T → T.furrow = k → Completes (.laneAccept p frags m) s fun t =>
        Table.get [] i t.srv.lanes = T.entries ∧ Table.get none i t.srv.laneRecv = none) ∧
      ((∀ T, Table.get none i s.srv.laneRecv = some T → T.furrow ≠ k) → Completes (.laneAccept p frags m) s fun t => t = A)) ∧
    (∀ i k l, m.body = .laneDiscard i k l → Completes (.laneDiscard p frags m) s fun t =>
      let H := R.FRW_EVENTS1.HEADLAND_SHORT
      Table.get [] i t.srv.lanes = l ∧ Table.get none i t.srv.laneRecv = none ∧ t.srv.short = true ∧
        t.get H = if s.srv.short then s.get H else min (2 ^ H.width - 1) (s.get H + 1)) ∧
    (∀ e k, m.body = .cfgPrepare e k →
      (s.cfg.prepared = none → s.cfg.lockCluster = false → s.cfg.lockDevice = false → Completes (.cfgPrepare p frags m) s fun t =>
        t.cfg = { s.cfg with prepared := some ⟨e, k, false⟩, lockCluster := true, lockDevice := true } ∧
          t.isSet R.CFG_STATUS.LOCKED = true ∧ t.get R.CFG_PENDING.TARGET_EPOCH = e % 2 ^ R.CFG_PENDING.TARGET_EPOCH.width ∧ t.mem = s.mem ∧
          ((s.route m.src).isSome = true → t.told m.src (.cfgReady e) ∨ t.told m.src (.cfgConflict e 0))) ∧
      (s.cfg.prepared ≠ none ∨ s.cfg.lockCluster = true ∨ s.cfg.lockDevice = true → Completes (.cfgPrepare p frags m) s fun t =>
        t.cfg = s.cfg ∧ t.get R.CFG_COUNTS.CONFLICTS = min (2 ^ R.CFG_COUNTS.CONFLICTS.width - 1) (s.get R.CFG_COUNTS.CONFLICTS + 1) ∧
          t.mem = s.mem ∧ s.sameRegs t [R.CFG_COUNTS.CONFLICTS] ∧ ((s.route m.src).isSome = true → t.told m.src (.cfgConflict e 0)))) ∧
    (∀ e P, s.cfg.prepared = some P → P.epoch = e →
      (m.body = .cfgCommitGo e → Completes (.cfgCommitGo p frags m) s fun t =>
        t = { A with cfg := { s.cfg with prepared := some { P with go := true } } }) ∧
      (m.body = .cfgAbort e → Completes (.cfgAbort p frags m) s fun t =>
        t.cfg = { s.cfg with prepared := none, lockCluster := false, lockDevice := false } ∧
          t.isSet R.CFG_STATUS.LOCKED = false ∧ t.frw = s.frw ∧ t.mem = s.mem ∧
          t.get R.CFG_COUNTS.ABORTS = min (2 ^ R.CFG_COUNTS.ABORTS.width - 1) (s.get R.CFG_COUNTS.ABORTS + 1))) ∧
    (∀ e, (∀ P, s.cfg.prepared = some P → P.epoch ≠ e) →
      (m.body = .cfgCommitGo e → Completes (.cfgCommitGo p frags m) s fun t => t = A) ∧
      (m.body = .cfgAbort e → Completes (.cfgAbort p frags m) s fun t => t = A))) ∧
  (∀ (s : State) (p frags : Nat) (m : CtrlMsg) (k : Packet) (pay : Option Bytes) (img : Option ModelImage),
    s.takesMessage p m → s.que.tickets = [] → m.body = .fwdCmd k pay img → (s.route m.src).isSome = true → k.opcode ≠ 5 →
    (s.isFenced = true → Completes (.fwdCmd p frags m) s fun t =>
      t.told m.src (.completion m.msgId .failFenced 0 0 0 []) ∧ t.frw = s.frw ∧ t.cfg = s.cfg ∧ t.que = s.que ∧ t.mem = s.mem ∧
        ∀ f, t.get f = s.get f) ∧
    (s.isFenced = false →
      (k.opcode = 0x04 → Completes (.fwdCmd p frags m) s fun t =>
        t.told m.src (.completion m.msgId (if s.isSet R.CFG_STATUS.DIVERGENT then .cfgDivergent else .ok) 0
          (s.get R.CFG_STATUS.ACTIVE_EPOCH) (s.get R.CFG_DIGEST.ACTIVE_DIGEST) []) ∧ t.que.tickets = [] ∧ t.mem = s.mem ∧
          ∀ f, t.get f = s.get f) ∧
      (k.opcode = 0x60 → Completes (.fwdCmd p frags m) s fun t =>
        t.get R.PWR_CTRL.CAP_W = k.p0 % 2 ^ R.PWR_CTRL.CAP_W.width ∧ t.told m.src (.completion m.msgId .ok 0 0 0 []) ∧
          t.que.tickets = [] ∧ t.mem = s.mem) ∧
      (k.opcode = 0x13 → s.inSchedule = true → s.frw.stopAt = none → Completes (.fwdCmd p frags m) s fun t =>
        t.frw = { s.frw with stopAt := some (s.stopHeadland k.p0) } ∧ t.isSet R.FRW_STATE.STOP_PENDING = true ∧ t.mem = s.mem ∧
          s.sameRegs t [R.FRW_STATE.STOP_PENDING])))

/-- What comes to the lead (R106, R154, R467): a reply strikes its member off those the commit waits for, and the last one
decides it outside the schedule; a COMPLETION ends its member's part of a command, and the last part completes the packet;
TOKENS of a group elsewhere deliver what its lanes chose, and a lane without a choice has failed once more. A decision that is
overdue aborts. The decision on a commit that is overdue (R154): outside the schedule the commit aborts, the members are told,
the packet completes and the sets are free again. How a lead learns of lanes without a choice is the model's choice (log entry
35). -/
def Obligations.MessagesToTheLead : Prop :=
  (∀ (s : State) (p frags : Nat) (m : CtrlMsg), s.takesMessage p m →
    let A := s.arrived p frags m
    (∀ e c, s.que.tickets = [] → s.cfg.lead = some c → c.epoch = e → c.decided = false → m.src ∈ c.waiting → s.replyInTime c = true →
      (m.body = .cfgReady e →
        (s.inSchedule = true ∨ (∃ d ∈ c.waiting, d ≠ m.src) → Completes (.cfgReady p frags m) s fun t =>
          t = { A with cfg := { s.cfg with lead := some { c with waiting := c.waiting.filter fun d => d != m.src } } }) ∧
        (s.inSchedule = false → (∀ d ∈ c.waiting, d = m.src) → c.refused = [] → Completes (.cfgReady p frags m) s fun t =>
          t.cfg.lead = some { c with waiting := [], decided := true } ∧ (∀ P, t.cfg.prepared = some P → P.go = true) ∧
            (∀ d ∈ s.others, (s.route d).isSome = true → t.told d (.cfgCommitGo e)) ∧ t.mem = s.mem ∧ ∀ f, t.get f = s.get f)) ∧
      (∀ k, m.body = .cfgConflict e k → s.inSchedule = true → Completes (.cfgConflictReply p frags m) s fun t =>
        t = { A with cfg := { s.cfg with lead := some { c with
          waiting := c.waiting.filter fun d => d != m.src, refused := Table.insert m.src k c.refused } } })) ∧
    (∀ T i d st k r0 r1 data, s.que.tickets = [T] → m.body = .completion i st k r0 r1 data → d ≠ s.self → T.barrier = false → T.fence = none →
      (∀ w rest, T.awaiting = (d, i) :: w :: rest → w.1 ≠ d → Completes (.completionMsg p frags m) s fun t =>
        t.que.tickets = [{ T with awaiting := (w :: rest).filter fun x => x.1 != d, answers := T.answers ++ [⟨d, st, k, r0, r1, data⟩] }] ∧
          t.mem = s.mem ∧ ∀ f, t.get f = s.get f) ∧
      (∀ r, T.awaiting = [(d, i)] → T.answers = [] → T.origin = .host r → T.packet.opcode ∈ [0x04, 0x60, 0x61, 0x62, 0x70, 0x71] →
        data = [] → Completes (.completionMsg p frags m) s fun t =>
          t.que.tickets = [] ∧ t.mem = s.mem ∧ t.frw = s.frw ∧ t.cfg = s.cfg ∧ t.srv = s.srv)) ∧
    (∀ i k l kept e q x, s.que.tickets = [] → m.body = .tokens i k l kept [] [] [] → s.isLead = true → s.srv.waitCmds = [] →
      s.srv.farWait = [] → s.srv.openLanes = [(i, e)] → sampled e = true → s.seqOf e.seqId = some q → q.req = some x → x.deadline = none →
      q.cancelled = false → e.seqId ∈ kept → (i, e.set, e.lane) ∉ s.srv.misses →
      (∀ r, l.find? (fun r => r.seqId == e.seqId) = some r → r.token ∉ x.sampling.stops → e.position + 2 < q.maxLen →
        x.delivered + 1 < x.wanted → Completes (.tokensMsg p frags m) s fun t =>
          ∃ v : Seq, t.seqOf e.seqId = some v ∧ v.req = some { x with delivered := x.delivered + 1 } ∧ v.inputs = [r.token] ∧
            v.state = .generate ∧ v.len = q.len + (e.chunkLast + 1) ∧ v.fails = 0 ∧ v.lastToken = some s.deliveryTime ∧
            t.srv.openLanes = []) ∧
      (l = [] → s.kv.files = [] → Completes (.tokensMsg p frags m) s fun t =>
        ∃ v : Seq, t.seqOf e.seqId = some v ∧ v.fails = q.fails + 1 ∧ v.req = q.req ∧ v.inputs = q.inputs ∧ v.state = q.state ∧ v.len = q.len ∧
          t.srv.openLanes = [] ∧ t.mem = s.mem ∧ s.sameRegs t [R.QUE_REJECTS.RING_FULL]))) ∧
  (∀ (s : State), s.alive = true →
    (∀ c T i d rest, s.inSchedule = false → s.cfg.lead = some c → c.decided = false → s.que.tickets = [T] → T.no = c.ticket → T.origin = .host i →
      c.refused = [] → c.waiting = d :: rest → Completes .cfgDecisionTimeout s fun t =>
        t.cfg.lead = none ∧ t.cfg.prepared = none ∧ t.cfg.lockCluster = false ∧ t.cfg.lockDevice = false ∧ t.que.tickets = [] ∧
          t.get R.CFG_COUNTS.ABORTS = min (2 ^ R.CFG_COUNTS.ABORTS.width - 1) (s.get R.CFG_COUNTS.ABORTS + 1) ∧
          (∀ x ∈ s.others, (s.route x).isSome = true → t.told x (.cfgAbort c.epoch)) ∧ t.mem = s.mem) ∧
    (s.que.tickets = [] → s.inSchedule = true ∨ s.cfg.lead = none → Completes .cfgDecisionTimeout s fun t => t = s))

/-! ### Membership and faults (spec/17_faults.md) -/

/-- FENCED and FAILURE (R192, R573, R581 to R584). A device that FENCED names stops its schedule and is fenced; another notes
the removal. A failed step takes its tiles to SKIP. The lead keeps who reports a silent member, declares one that fences itself,
and logs the record of a fault elsewhere. -/
def Obligations.FailureMessages : Prop :=
  ∀ (s : State) (p frags : Nat) (m : CtrlMsg), s.takesMessage p m → s.que.tickets = [] →
    let A := s.arrived p frags m
    (∀ d e n, m.body = .fenced d e n →
      (n ≠ Config.serial → s.isLead = false → d ∈ s.members → e = s.get (R.GLB_PEER_EPOCH.EPOCH d) → s.isDeclared d = false →
        Completes (.fencedMsg p frags m) s fun t =>
          t = { A with flt := { A.flt with declared := s.flt.declared ++ [⟨d, e, []⟩] } }) ∧
      (n = Config.serial → s.noColl → s.assigned = true → s.isFenced = false → e = s.get R.GLB_MEMBERSHIP.EPOCH →
        s.frw.startTicket = none → s.frw.stopTicket = none → s.stopsAlone → Completes (.fencedMsg p frags m) s fun t =>
          t.isFenced = true ∧ t.inSchedule = false ∧ (s.inSchedule = true → t.frwState = frwStopped) ∧
            bit (t.get R.GLB_ERR_SUMMARY.SEEN) 5 = true ∧ t.mem = s.mem)) ∧
    (∀ d i k r, m.body = .failure 1 d i k r →
      (k = s.stepFurrow → Completes (.failureStepNotice p frags m) s fun t =>
        i ∈ t.srv.failedInst ∧ t.mem = s.mem ∧
          (∀ n ∈ s.tilesOf i, t.seqState n = seqSkip ∨ t.seqState n = seqDone ∨ t.seqState n = seqIdle) ∧
          ∀ n, n < 16 → n ∉ s.tilesOf i → t.seqState n = s.seqState n) ∧
      (k ≠ s.stepFurrow → Completes (.failureStepNotice p frags m) s fun t => t = A)) ∧
    (∀ d i k r, m.body = .failure 2 d i k r → s.isLead = true → (d, m.src) ∉ s.flt.silentReports →
      Completes (.failurePeerSilent p frags m) s fun t =>
        t = { A with flt := { A.flt with silentReports := s.flt.silentReports ++ [(d, m.src)] } }) ∧
    (∀ d i k r, m.body = .failure 3 d i k r → s.isLead = true → s.cfg.lead = none → m.src ≠ s.self → m.src ∈ s.members →
      s.isDeclared m.src = false → Completes (.failureSelfFence p frags m) s fun t =>
        (∃ y ∈ t.flt.declared, y.device = m.src ∧ y.epoch = s.get (R.GLB_PEER_EPOCH.EPOCH m.src) ∧
          y.waiting = s.others.filter fun d => d != m.src && !s.isDeclared d) ∧
          (∀ d ∈ s.others, (s.route d).isSome = true →
            t.told d (.fenced m.src (s.get (R.GLB_PEER_EPOCH.EPOCH m.src)) (Table.get 0 m.src s.flt.serials))) ∧
          bit (t.get R.GLB_ERR_SUMMARY.SEEN) 5 = true ∧ t.mem = s.mem) ∧
    (∀ d i k r, m.body = .failure 4 d i k (some r) →
      (s.isLead = true → s.flt.last = none → (s.get R.GLB_ERR_LOG.TAIL + 1) % 64 ≠ s.get R.GLB_ERR_LOG.HEAD →
        Completes (.failureErrorRecord p frags m) s fun t =>
          Table.get none (s.get R.GLB_ERR_LOG.TAIL) t.flt.log = some { r with forwarded := true, repeats := 0 } ∧
            t.get R.GLB_ERR_LOG.TAIL = (s.get R.GLB_ERR_LOG.TAIL + 1) % 64 ∧ t.get R.GLB_ERR_SUMMARY.SEEN = s.get R.GLB_ERR_SUMMARY.SEEN ∧
            (r.code = 0x30 ∨ r.code = 0x31 → (r.device, r.partition.getD 0) ∈ t.flt.fatalFar) ∧
            (r.code = 0x21 → (r.device, r.partition.getD 0) ∈ t.flt.doubled) ∧ t.mem = s.mem) ∧
      (s.isLead = false → Completes (.failureErrorRecord p frags m) s fun t => t = A))

/-- Membership (R467, R582, R585). A message without acknowledgement goes out once more, and then counts its receiver as
missing. The lead declares a member dead on the causes of R582 alone; a headland removes it once all have acknowledged. A member
that has lost its lead stops, and where the lead stays lost it leaves the cluster. -/
def Obligations.Membership : Prop :=
  ∀ (s : State), s.quiet →
    (∀ dst id x, s.flt.sent.find? (fun x => x.dst == dst && x.msg.msgId == id) = some x →
      (∀ q, x.resent = false → s.route dst = some q → Completes (.controlResend dst id) s fun t =>
        Output.ctrl x.msg.dst x.msg ∈ t.out ∧ t.frw = s.frw ∧ t.mem = s.mem ∧ (∀ f, t.get f = s.get f) ∧
          t.flt = { s.flt with sent := s.flt.sent.map fun y => if y.dst == dst && y.msg.msgId == id then { y with resent := true } else y }) ∧
      (x.resent = true → (∀ d e n, x.msg.body ≠ .fenced d e n) → Completes (.controlResend dst id) s fun t =>
        t.flt = { s.flt with sent := s.flt.sent.filter fun y => !(y.dst == dst && y.msg.msgId == id) } ∧ dst ∈ t.frw.missing ∧
          s.leaves t [R.FRW_EVENTS2.MISSING_BEACONS])) ∧
    (∀ d, (s.deathDue d = false → Completes (.peerDeclaredDead d) s fun t => t = s) ∧
      (s.deathDue d = true → s.isLead = true → s.cfg.lead = none → d ≠ s.self → d ∈ s.members → s.isDeclared d = false →
        Completes (.peerDeclaredDead d) s fun t =>
          (∃ y ∈ t.flt.declared, y.device = d ∧ y.epoch = s.get (R.GLB_PEER_EPOCH.EPOCH d)) ∧
            (∀ x ∈ s.others, (s.route x).isSome = true →
              t.told x (.fenced d (s.get (R.GLB_PEER_EPOCH.EPOCH d)) (Table.get 0 d s.flt.serials))) ∧
            (∀ y ∈ t.flt.sent, y.dst ≠ d) ∧ bit (t.get R.GLB_ERR_SUMMARY.SEEN) 5 = true ∧ t.mem = s.mem)) ∧
    (∀ d e, d < 64 → s.isSet R.FRW_STATE.HEADLAND = true ∨ s.inSchedule = false → s.flt.declared = [⟨d, e, []⟩] → s.cfg.instA = [] →
      Completes .membershipApply s fun t =>
        t.get (R.GLB_PEER_EPOCH.EPOCH d) = 0 ∧ t.isSet (R.GLB_PEER_EPOCH.VACANT d) = true ∧ t.flt.declared = [] ∧
          (∀ y ∈ t.flt.sent, y.dst ≠ d) ∧ s.leaves t [R.GLB_PEER_EPOCH.EPOCH d, R.GLB_PEER_EPOCH.VACANT d]) ∧
    ((∃ y ∈ s.flt.declared, y.waiting ≠ []) ∨ (s.isSet R.FRW_STATE.HEADLAND = false ∧ s.inSchedule = true) →
      Completes .membershipApply s fun t => t = s) ∧
    (∀ d, (s.isLead = true → 2 ≤ Table.get 0 d s.cfg.divergent → d ≠ s.self → Completes (.clusterDivergent d) s fun t =>
        bit (t.get R.GLB_ERR_SUMMARY.SEEN) 7 = true ∧ t.mem = s.mem ∧
          (s.isSet R.CFG_CTRL.ENFORCE = false → t.frw = s.frw) ∧
          (s.isSet R.CFG_CTRL.ENFORCE = true → s.inSchedule = true → s.frw.stopAt = none →
            t.frw.stopAt = some (s.stopHeadland s.furrow) ∧ t.isSet R.FRW_STATE.STOP_PENDING = true)) ∧
      (Table.get 0 d s.cfg.divergent < 2 → Completes (.clusterDivergent d) s fun t => t = s)) ∧
    (s.frw.leadSilent = true → s.frw.startTicket = none → s.frw.stopTicket = none → s.stopsAlone → Completes .leadLost s fun t =>
      t.flt.leadLost = true ∧ t.frw.leadSilent = false ∧ t.inSchedule = false ∧ (s.inSchedule = true → t.frwState = frwStopped) ∧
        bit (t.get R.GLB_ERR_SUMMARY.SEEN) 7 = true ∧ t.mem = s.mem) ∧
    (s.frw.leadSilent = false → Completes .leadLost s fun t => t = s) ∧
    (s.flt.leadLost = true → s.stopsAlone → s.cfg.instA = [] → s.cfg.instS = [] → s.frw.startTicket = none → s.frw.stopTicket = none →
      Completes .dissolve s fun t =>
        t.assigned = false ∧ t.isSet R.GLB_DEVPOS.LEAD = false ∧ t.isSet R.GLB_DEVPOS.SPARE = false ∧ t.self = 0 ∧
          t.get R.GLB_MEMBERSHIP.EPOCH = 0 ∧ t.get R.GLB_MEMBER_STATE.STATE = 0 ∧ (∀ d, d < 64 → t.get (R.GLB_PEER_EPOCH.EPOCH d) = 0) ∧
          t.frwState = frwNoPlan ∧ t.frw.active = none ∧ t.get R.CFG_STATUS.ACTIVE_EPOCH = 0 ∧ t.sec.keys = [] ∧ t.flt.declared = [] ∧
          t.mem = s.mem) ∧
    (s.flt.leadLost = false → Completes .dissolve s fun t => t = s)

/-- What faults do (R576 to R580): a control fault, the watchdog's among them, stops the device, on which the events of its
schedule, clock and links then do nothing; a request that reaches LANE_RETRY_LIMIT retires with FAIL_STEP; a running instance
that reaches DEGRADE_COUNT is DEGRADED, or under DEGRADED_STOP SUSPENDED and not counted (deduced: log entry 128), as is a
DEGRADED one. -/
def Obligations.Faults : Prop :=
  ∀ (s : State), s.alive = true →
    (∀ cause addr, s.que.tickets = [] → ∀ c ∈ [Instr.watchdogExpiry, .controlFault cause addr], Completes c s fun t =>
      t.flt.dead = true ∧ t.alive = false ∧ bit (t.get R.GLB_ERR_SUMMARY.SEEN) 6 = true ∧ t.pins.faultN = false ∧ t.mem = s.mem ∧
        t.frw = s.frw ∧ ∀ d ∈ [Instr.furrowBodyStart, .turnaround, .meridMarkEdge, .beaconSend, .localMillisecond, .dissolve,
          .membershipApply, .linkRetrain 0, .peerDetect 0, .collSlotSendTime 0, .descriptorIssue 0], Completes d t fun u => u = t) ∧
    (∀ id q,
      (s.que.tickets = [] → s.seqOf id = some q → q.fails < s.get R.GLB_ERR_CTRL.LANE_RETRY_LIMIT →
        Completes (.laneExhausted id) s fun t => t = s) ∧
      (∀ T i r, s.que.tickets = [T] → T.origin = .host i → s.seqOf id = some q → q.req = some r → r.ticket = T.no →
        s.get R.GLB_ERR_CTRL.LANE_RETRY_LIMIT ≤ q.fails → Completes (.laneExhausted id) s fun t =>
          t.seqOf id = some q.idled ∧ t.que.tickets = [] ∧ bit (t.get R.GLB_ERR_SUMMARY.SEEN) 2 = true ∧ t.mem = s.mem)) ∧
    (∀ i, i < 16 → s.que.tickets = [] →
      (s.isLead = false ∨ s.health i = healthNone ∨ s.health i = healthSuspended ∨
        (s.health i = healthDegraded ∧ s.isSet R.GLB_ERR_CTRL.DEGRADED_STOP = false) → Completes (.instanceDegraded i) s fun t => t = s) ∧
      (s.health i = healthDegraded → s.isLead = true → s.isSet R.GLB_ERR_CTRL.DEGRADED_STOP = true → i ∉ s.srv.suspended →
        Completes (.instanceDegraded i) s fun t => t.health i = healthSuspended ∧ i ∈ t.srv.suspended ∧ t.mem = s.mem ∧
          s.sameRegs t [R.GLB_INST_HEALTH.STATE i]) ∧
      (s.health i = healthRunning → s.isLead = true →
        s.get R.GLB_ERR_CTRL.DEGRADE_COUNT ≤ s.get (R.GLB_INST_HEALTH.FAIL_RUN i) ∨ s.doubledTile i = true →
        Completes (.instanceDegraded i) s fun t =>
          (s.isSet R.GLB_ERR_CTRL.DEGRADED_STOP = false → t.health i = healthDegraded ∧ t.srv = s.srv ∧
              bit (t.get R.GLB_ERR_SUMMARY.SEEN) 3 = true ∧
              t.get (R.GLB_INST_HEALTH.DEGRADE_EVENTS i) =
                min (2 ^ (R.GLB_INST_HEALTH.DEGRADE_EVENTS i).width - 1) (s.get (R.GLB_INST_HEALTH.DEGRADE_EVENTS i) + 1)) ∧
            (s.isSet R.GLB_ERR_CTRL.DEGRADED_STOP = true → i ∉ s.srv.suspended → t.health i = healthSuspended ∧ i ∈ t.srv.suspended ∧
              s.sameRegs t [R.GLB_INST_HEALTH.STATE i]) ∧
            t.mem = s.mem))

/-! ### The host port (spec/14_cxl_ports.md) -/

/-- Doorbells (R119): one whose index is the ring's size or more is ignored and counted, one of a disabled ring is ignored
without being counted. -/
def Obligations.DoorbellChecks : Prop :=
  ∀ (s : State) (r index : Nat), s.quiet → s.hostReaches = true → s.isSet R.GLB_READY.BOOT_OK = true → s.isLead = true → index < 65536 →
    ∀ c ∈ [(Instr.sqTailDoorbell r index, R.QUE_SQ_CTRL.ENABLE r, s.sqEntries r, 16), (.cqHeadDoorbell r index, R.QUE_CQ_CTRL.ENABLE r, s.cqEntries r, 16),
      (.trHeadDoorbell r index, R.QUE_TR_CTRL.ENABLE r, s.trEntries r, 256)], r < c.2.2.2 →
      (s.isSet c.2.1 = true → c.2.2.1 ≤ index → Completes c.1 s fun t =>
        t.get R.QUE_RING_ERRORS.DOORBELL_RANGE =
          min (2 ^ R.QUE_RING_ERRORS.DOORBELL_RANGE.width - 1) (s.get R.QUE_RING_ERRORS.DOORBELL_RANGE + 1) ∧ t.que = s.que ∧
          s.leaves t [R.QUE_RING_ERRORS.DOORBELL_RANGE]) ∧
      (s.isSet c.2.1 = false → Completes c.1 s fun t => t = s)

/-- Rings (R107, R117, R118, R481, R490). A new tail starts a burst of up to 8 packet reads; a new completion head lets a held
record be written; a new token head is kept. What a read answers is the ring's next packet, whose in payload is read next; a
read that fails, of a packet or of a payload, completes its packet with REJ_FORMAT and is counted. A device that is not the
lead ignores doorbells and counts them. How packets are fetched is the model's choice (log entry 89). -/
def Obligations.Rings : Prop :=
  ∀ (s : State) (r index : Nat), s.alive = true → s.hostReaches = true → s.isSet R.GLB_READY.BOOT_OK = true → index < 65536 →
    let F := R.QUE_RING_ERRORS.FETCH_ERRORS
    let n := s.sqEntries r
    let head := s.get (R.QUE_SQ_CTRL.INDEX r)
    (s.que.tickets = [] → s.isLead = false → r < 16 → ∀ c ∈ [Instr.sqTailDoorbell r index, .cqHeadDoorbell r index, .trHeadDoorbell r index],
      Completes c s fun t => t.get R.CXLU_ERRORS.NONLEAD_DOORBELLS =
        min (2 ^ R.CXLU_ERRORS.NONLEAD_DOORBELLS.width - 1) (s.get R.CXLU_ERRORS.NONLEAD_DOORBELLS + 1) ∧ t.que = s.que ∧
          s.leaves t [R.CXLU_ERRORS.NONLEAD_DOORBELLS]) ∧
    (s.que.tickets = [] → s.isLead = true →
      (r < 16 → index < n → s.mayFetch r = true → s.inFlight r = 0 → Completes (.sqTailDoorbell r index) s fun t =>
        t.que.sqTail = Table.set 0 r index s.que.sqTail ∧
          t.out = s.out ++ (List.range (min 8 ((index + n - head) % n))).map (fun j =>
            .hostRead (s.get (R.QUE_SQ_BASE.BASE r) * 4096 + 64 * ((head + j) % n)) 64) ∧ t.mem = s.mem ∧ ∀ f, t.get f = s.get f) ∧
      (∀ c, r < 16 → index < s.cqEntries r → s.isSet (R.QUE_CQ_CTRL.ENABLE r) = true → s.d2hOpen = true →
        Table.get [] r s.que.cqHeld = [c] → (s.get (R.QUE_CQ_CTRL.INDEX r) + 1) % s.cqEntries r ≠ index →
        Completes (.cqHeadDoorbell r index) s fun t =>
          Table.get [] r t.que.cqHeld = [] ∧ Table.get 0 r t.que.cqHead = index ∧
            t.get (R.QUE_CQ_CTRL.INDEX r) = (s.get (R.QUE_CQ_CTRL.INDEX r) + 1) % s.cqEntries r % 2 ^ (R.QUE_CQ_CTRL.INDEX r).width ∧
            ∃ l, t.out = s.out ++ .hostWrite (s.get (R.QUE_CQ_BASE.BASE r) * 4096 + 32 * s.get (R.QUE_CQ_CTRL.INDEX r))
              (completionBytes c (phaseOf (Table.get 0 r s.que.cqPass)) r head) :: l) ∧
      (r < 256 → index < s.trEntries r → s.isSet (R.QUE_TR_CTRL.ENABLE r) = true → Completes (.trHeadDoorbell r index) s fun t =>
        t.que = { s.que with trHead := Table.set 0 r index s.que.trHead } ∧ s.leaves t []) ∧
      ((∀ f ∈ s.que.fetches, f.ring ≠ r) → ∀ data img, Completes (.rdcurrCompletion r data img) s fun t => t = s) ∧
      (∀ k img, r < 16 → s.que.fetches = [⟨r, k, none⟩] →
        (Completes (.rdcurrCompletion r none img) s fun t =>
          t.get F = min (2 ^ F.width - 1) (s.get F + 1) ∧
            t.get (R.QUE_SQ_CTRL.INDEX r) = (k + 1) % n % 2 ^ (R.QUE_SQ_CTRL.INDEX r).width ∧ t.que.tickets = [] ∧ t.mem = s.mem) ∧
        (∀ b, let p := packetOf r (fit 64 b)
          commonCheck s p = none → readsPayload s p = true → s.d2hOpen = true → Completes (.rdcurrCompletion r (some b) img) s fun t =>
            t.que.tickets = [s.nextTicket p none img] ∧ Output.hostRead p.payloadAddr p.payloadLen ∈ t.out ∧
              t.get (R.QUE_SQ_CTRL.INDEX r) = (k + 1) % n % 2 ^ (R.QUE_SQ_CTRL.INDEX r).width ∧ t.mem = s.mem))) ∧
    (∀ T k i img, s.que.tickets = [T] → T.origin = .host i → s.que.fetches = [⟨r, k, some T.no⟩] → Completes (.rdcurrCompletion r none img) s fun t =>
      t.get F = min (2 ^ F.width - 1) (s.get F + 1) ∧ t.que.tickets = [] ∧ t.mem = s.mem)

/-- The memory window (R482 to R484, R487, R501). A read of a line the device serves answers its bytes and changes none; a
write replaces all 64 bytes, a partial one those whose enable is 1. Beyond the window, or where memory does not answer, a
request is unsupported, as any other opcode is; a snoop finds nothing. That offsets past the memory are unsupported is the
model's choice (log entry 91). -/
def Obligations.MemoryWindow : Prop :=
  ∀ (s : State) (tag offset enable : Nat) (data : Bytes), s.alive = true → s.cxl.reqUsed < 32 → s.cxl.rwdUsed < 32 →
    let line := 0x1000000000 + offset / 64 * 64
    (s.hostReaches = false → ∀ c ∈ [Instr.memrd tag offset [], .memrddata tag offset [], .memwr tag offset data,
      .memwrptl tag offset data enable, .m2sUnsupported tag, .h2dSnoop offset], Completes c s fun t => t = s) ∧
    (s.hostReaches = true →
      (Completes (.m2sUnsupported tag) s fun t => t = s.emit (.memUnsupported tag)) ∧
      (Completes (.h2dSnoop offset) s fun t => t = s.emit (.snoopMiss offset)) ∧
      (s.windowServes = false ∨ 0xC000000000 ≤ offset → ∀ c ∈ [Instr.memrd tag offset [], .memrddata tag offset [], .memwr tag offset data,
        .memwrptl tag offset data enable], Completes c s fun t => t = s.emit (.memUnsupported tag)) ∧
      (s.windowServes = true → offset < 0xC000000000 → s.cacheHome line = none → s.pcFree (stackOf line) (s.pcOf line) = true →
        s.violated none line = none →
        (∀ c ∈ [Instr.memrd tag offset [], .memrddata tag offset []], Completes c s fun t =>
          t.mem = s.mem ∧ t.poison = s.poison ∧ t.out = s.out ++ [.memData tag (s.read line 64) (s.poisoned line 64)]) ∧
        (data.length = 64 → s.poisoned line 64 = false →
          (Completes (.memwr tag offset data) s fun t =>
            t.read line 64 = data ∧ (∀ a, ¬ (line ≤ a ∧ a < line + 64) → t.byte a = s.byte a) ∧ t.out = s.out ++ [.memDone tag]) ∧
          (Completes (.memwrptl tag offset data enable) s fun t =>
            (∀ i, i < 64 → t.byte (line + i) = if bit enable i then data.getD i 0 else s.byte (line + i)) ∧
              (∀ a, ¬ (line ≤ a ∧ a < line + 64) → t.byte a = s.byte a) ∧ t.out = s.out ++ [.memDone tag]))))

/-- Interrupts (R489). The message of a vector goes out when the last response to its record writes is in, and not again
within the hold-off; at the hold-off's end one message covers the records written during it. The upstream port (R491, R492,
R502). Bus Master Enable opened lets what waits go out, in order. A Function Level Reset, and a loss of the link, disable
every ring and discard the records not written; the reset clears Bus Master Enable, which a loss leaves as the host set it
(deduced: log entry 127); a loss is counted, and the lead logs it. -/
def Obligations.UpstreamPort : Prop :=
  (∀ (s : State) (v : Nat), s.alive = true →
    (Table.get 0 v s.cxl.goWait = 0 → Completes (.goWritepull v) s fun t => t = s) ∧
    (1 < Table.get 0 v s.cxl.goWait → Completes (.goWritepull v) s fun t =>
      t = { s with cxl := { s.cxl with goWait := Table.set 0 v (Table.get 0 v s.cxl.goWait - 1) s.cxl.goWait } }) ∧
    (Table.get 0 v s.cxl.goWait = 1 → v ∈ s.cxl.irqWant → s.d2hOpen = true →
      (v ∉ s.cxl.holdoff → Completes (.goWritepull v) s fun t =>
        t.out = s.out ++ [.msix v] ∧ Table.get 0 v t.cxl.goWait = 0 ∧ v ∉ t.cxl.irqWant ∧
          (v ∈ t.cxl.holdoff ↔ s.get R.CXLU_CTRL.IRQ_HOLDOFF_NS ≠ 0) ∧ t.mem = s.mem ∧ ∀ f, t.get f = s.get f) ∧
      (v ∈ s.cxl.holdoff → Completes (.goWritepull v) s fun t =>
        t.out = s.out ∧ v ∈ t.cxl.irqDue ∧ v ∉ t.cxl.irqWant ∧ t.mem = s.mem ∧ ∀ f, t.get f = s.get f)) ∧
    (v ∉ s.cxl.holdoff → Completes (.irqHoldoffExpiry v) s fun t => t = s) ∧
    (v ∈ s.cxl.holdoff →
      (v ∉ s.cxl.irqDue → Completes (.irqHoldoffExpiry v) s fun t => v ∉ t.cxl.holdoff ∧ s.leaves t []) ∧
      (v ∈ s.cxl.irqDue → s.d2hOpen = true → Completes (.irqHoldoffExpiry v) s fun t =>
        t.out = s.out ++ [.msix v] ∧ v ∉ t.cxl.irqDue ∧ t.mem = s.mem ∧ ∀ f, t.get f = s.get f))) ∧
  (∀ (s : State) (width speed : Nat), s.quiet →
    let B := R.CXLU_STATUS.BUS_MASTER
    let D := R.CXLU_ERRORS.DISCARDED_RECORDS
    let L := R.CXLU_ERRORS.LINK_DOWNS
    (s.hostReaches = true →
      (Completes (.busMasterEnableWrite false) s fun t => t.isSet B = false ∧ s.leaves t [B]) ∧
      (s.isSet R.CXLU_CTRL.IDE_REQUIRED = false → Completes (.busMasterEnableWrite true) s fun t =>
        t.isSet B = true ∧ t.cxl.waiting = [] ∧ (∃ l, t.out = s.out ++ s.cxl.waiting ++ l) ∧ t.mem = s.mem) ∧
      (Completes .functionLevelReset s fun t =>
        (∀ i, i < 16 → t.isSet (R.QUE_SQ_CTRL.ENABLE i) = false ∧ t.isSet (R.QUE_CQ_CTRL.ENABLE i) = false) ∧
          (∀ j, j < 256 → t.isSet (R.QUE_TR_CTRL.ENABLE j) = false) ∧ t.isSet B = false ∧ t.que.cqHeld = [] ∧
          t.get D = min (2 ^ D.width - 1) (s.get D + (s.que.cqHeld.map fun e => e.2.length).sum) ∧
          t.cxl.goWait = [] ∧ t.cxl.irqWant = [] ∧ t.cxl.holdoff = [] ∧ t.cxl.irqDue = [] ∧ t.mem = s.mem ∧ t.out = s.out)) ∧
    (s.isSet R.CXLU_STATUS.LINK_UP = true → s.que.fetches = [] → Completes .upstreamLinkDown s fun t =>
      t.isSet R.CXLU_STATUS.LINK_UP = false ∧ t.get R.CXLU_STATUS.WIDTH = 0 ∧ t.get R.CXLU_STATUS.SPEED = 0 ∧ t.isSet B = s.isSet B ∧
        t.get L = min (2 ^ L.width - 1) (s.get L + 1) ∧ (∀ i, i < 16 → t.isSet (R.QUE_SQ_CTRL.ENABLE i) = false) ∧ t.que.cqHeld = [] ∧
        (s.isLead = true → bit (t.get R.GLB_ERR_SUMMARY.SEEN) 1 = true) ∧ t.mem = s.mem) ∧
    (s.isSet R.CXLU_STATUS.LINK_UP = false → Completes .upstreamLinkDown s fun t => t = s) ∧
    (s.pins.perstN = true → 0 < width → width ≤ 16 → 0 < speed → speed ≤ 4 → Completes (.upstreamLinkUp width speed) s fun t =>
      t.isSet R.CXLU_STATUS.LINK_UP = true ∧ t.get R.CXLU_STATUS.WIDTH = width ∧ t.get R.CXLU_STATUS.SPEED = speed ∧
        t.isSet B = s.isSet B ∧ t.mem = s.mem ∧
        (s.isSet B = false → s.leaves t [R.CXLU_STATUS.LINK_UP, R.CXLU_STATUS.WIDTH, R.CXLU_STATUS.SPEED]) ∧
        (s.isSet B = true → s.isSet R.CXLU_CTRL.IDE_REQUIRED = false →
          t.cxl.waiting = [] ∧ ∃ l, t.out = s.out ++ s.cxl.waiting ++ l)) ∧
    (s.pins.perstN = false → Completes (.upstreamLinkUp width speed) s fun t => t = s))

/-- Expanders (R496 to R499, R508). Enumeration, once after BOOT_OK, maps a usable expander at the start of the far tier and
counts one that is not usable; a lost link takes its range from the map and is logged, and memory elsewhere stays as it is.
Enumeration once after BOOT_OK is the model's choice (log entry 93). -/
def Obligations.Expanders : Prop :=
  ∀ (s : State) (e : Expander) (l : List Expander), s.quiet →
    (s.isSet R.GLB_READY.BOOT_OK = false ∨ s.cxl.enumerated = true → Completes (.downstreamEnumeration l) s fun t => t = s) ∧
    (s.isSet R.GLB_READY.BOOT_OK = true → s.cxl.enumerated = false → s.cxl.bifurcated = false → e.port = 0 →
      (s.usable e = true → Completes (.downstreamEnumeration [e]) s fun t =>
        t.cxl.enumerated = true ∧ t.isSet (R.CXLD_PORT.LINK_UP 0) = true ∧ t.isSet (R.CXLD_PORT.USABLE 0) = true ∧
          t.isSet (R.CXLD_EXP.MAPPED 0) = true ∧ t.get (R.CXLD_EXP.BASE_GIB 0) = 0 ∧
          Table.get none 0 t.cxl.far = some ⟨farBase, expanderGib farBase e * 0x40000000⟩ ∧ t.mem = s.mem ∧ t.out = s.out) ∧
      (s.usable e = false → Completes (.downstreamEnumeration [e]) s fun t =>
        t.cxl = { s.cxl with enumerated := true } ∧
          t.get R.CXLD_COUNTS.UNUSABLE = min (2 ^ R.CXLD_COUNTS.UNUSABLE.width - 1) (s.get R.CXLD_COUNTS.UNUSABLE + 1) ∧
          t.mem = s.mem ∧ t.out = s.out)) ∧
    (∀ k r, k < 2 → s.isSet (R.CXLD_PORT.LINK_UP k) = true → Table.get none k s.cxl.far = some r → s.kv.files = [] → Completes (.expanderLinkDown k) s fun t =>
      Table.get none k t.cxl.far = none ∧ t.isSet (R.CXLD_EXP.MAPPED k) = false ∧ t.isSet (R.CXLD_PORT.LINK_UP k) = false ∧
        t.get R.CXLD_COUNTS.LINK_DOWNS = min (2 ^ R.CXLD_COUNTS.LINK_DOWNS.width - 1) (s.get R.CXLD_COUNTS.LINK_DOWNS + 1) ∧
        bit (t.get R.GLB_ERR_SUMMARY.SEEN) 2 = true ∧ (∀ a, t.byte a = s.byte a)) ∧
    (∀ k, s.isSet (R.CXLD_PORT.LINK_UP k) = false → Completes (.expanderLinkDown k) s fun t => t = s)

/-- An expander that is no Type 3 single logical device, that has less than 1 GiB, or with which IDE cannot be established while
IDE_REQUIRED is 1, is unusable and counted in CXLD.COUNTS.UNUSABLE, and no other (R497). -/
def Obligations.UnusableExpanders : Prop :=
  ∀ (s : State) (e : Expander), s.alive = true → s.isSet R.GLB_READY.BOOT_OK = true → s.cxl.enumerated = false → e.port = 0 →
    let C := R.CXLD_COUNTS.UNUSABLE
    ((e.type3 = false ∨ e.bytes < 0x40000000 ∨ (e.ide = false ∧ s.cxl.expanderIde = true)) →
      Completes (.downstreamEnumeration [e]) s fun t =>
        t.get C = min (2 ^ C.width - 1) (s.get C + 1) ∧ t.isSet (R.CXLD_PORT.USABLE 0) = s.isSet (R.CXLD_PORT.USABLE 0) ∧
          t.cxl.far = s.cxl.far) ∧
    (¬ (e.type3 = false ∨ e.bytes < 0x40000000 ∨ (e.ide = false ∧ s.cxl.expanderIde = true)) →
      Completes (.downstreamEnumeration [e]) s fun t =>
        t.get C = s.get C ∧ t.isSet (R.CXLD_PORT.USABLE 0) = true ∧ (Table.get none 0 t.cxl.far).isSome = true)

/-! ### Power, reset and start-up (spec/16_security.md, spec/19_electrical_package.md) -/

/-- Reset and power (R501, R524, R575, R596, R622 to R629). SYS_RST_N low resets every block outside the VSB domain but for
the energy counters (R528); its release starts the rest again, with FAULT_N released but after a trip. The security core
starts, and configuration space answers, once PERST_N is high too. PERST_N low takes the upstream port down. Rails removed
lose what reset loses and release the pins; VSB coming up leaves all off. What a reset of SYS_RST_N keeps beside the energy
counters follows log entry 96, the pins 66. -/
def Obligations.ResetAndPower : Prop :=
  ∀ (s : State),
    let blank := fun (t : State) => t.mem = [] ∧ t.frw = Frw.reset ∧ t.cfg = Cfg.reset ∧ t.srv = Srv.reset ∧ t.que = Que.reset ∧ t.mrd = Mrd.reset ∧
      t.kv = Kv.reset ∧ t.links = [] ∧ t.tiles = [] ∧ t.stk = [] ∧ t.pending = s.pending ∧ t.out = s.out ∧
      ∀ f : Field, f.lo < 64 → f.addr < 0x20200 ∨ (0x20500 ≤ f.addr ∧ f.addr < 0x23000) ∨ 0x24000 ≤ f.addr → t.get f = f.reset
    let energy := fun (f : Field) => f.lo < 64 ∧ 0x20200 ≤ f.addr ∧ f.addr < 0x20500
    (s.pins.sysRstN = true → Completes .sysRstNAssert s fun t =>
      blank t ∧ t.pins = { s.pins with sysRstN := false } ∧ t.mgt = s.mgt ∧ t.alive = false ∧ t.sec.counter = s.sec.counter ∧
        t.sec.fwSlot = s.sec.fwSlot ∧ t.sec.started = false ∧ (∀ f, energy f → t.get f = s.get f) ∧
        t.pwr = { Pwr.reset with fraction := s.pwr.fraction, atHeadland := s.pwr.atHeadland, tenants := s.pwr.tenants }) ∧
    (s.pins.sysRstN = false → Completes .sysRstNAssert s fun t => t = s) ∧
    (s.pins.sysRstN = true → Completes .sysRstNRelease s fun t => t = s) ∧
    (s.pins.sysRstN = false → s.pins.vrAlertLow = [] → Completes .sysRstNRelease s fun t =>
      t.pins = { s.pins with sysRstN := true, railsOn := true, faultN := s.pins.thermTripN } ∧ t.get R.PWR_STATUS.VR_ALERT = 0 ∧
        (s.pins.perstN = true → t.sec.started = true ∧ t.cxl.answers = true ∧ t.isSet R.GLB_READY.CXL_CFG = true) ∧
        (s.pins.perstN = false → t.sec = s.sec ∧ t.cxl = s.cxl) ∧
        s.leaves t [R.PWR_STATUS.VR_ALERT, R.GLB_READY.CXL_CFG]) ∧
    (s.pins.perstN = false → s.pins.sysRstN = true → Completes .perstNRelease s fun t =>
      t.pins = { s.pins with perstN := true } ∧ t.sec.started = true ∧ t.cxl.answers = true ∧ t.isSet R.GLB_READY.CXL_CFG = true ∧
        s.leaves t [R.GLB_READY.CXL_CFG]) ∧
    (s.pins.perstN = true → Completes .perstNRelease s fun t => t = s) ∧
    (s.quiet → s.pins.perstN = true → s.isSet R.CXLU_STATUS.LINK_UP = true → s.que.fetches = [] → Completes .perstNAssert s fun t =>
      t.pins = { s.pins with perstN := false } ∧ t.cxl.answers = false ∧ t.isSet R.GLB_READY.CXL_CFG = false ∧
        t.isSet R.CXLU_STATUS.LINK_UP = false ∧ t.isSet R.CXLU_STATUS.BUS_MASTER = false ∧ t.que.cqHeld = [] ∧
        t.sec = s.sec ∧ t.frw = s.frw ∧ t.mem = s.mem) ∧
    (s.pins.railsOn = true → Completes .railsRemoved s fun t =>
      blank t ∧ t.pins = { s.pins with railsOn := false, faultN := true, thermTripN := true } ∧ t.mgt = s.mgt ∧ t.alive = false ∧
        t.flt.dead = false ∧ (∀ f, energy f → t.get f = f.reset) ∧ t.pwr = Pwr.reset) ∧
    (s.pins.railsOn = false → Completes .railsRemoved s fun t => t = s) ∧
    (∀ straps, Completes (.vsbPowerUp straps) s fun t =>
      blank t ∧ t.pins = { Pins.reset with sysRstN := false, perstN := false, railsOn := false } ∧ t.alive = false ∧ t.mgt.toLog = [] ∧
        (∀ f, energy f → t.get f = f.reset) ∧ t.pwr = Pwr.reset ∧
        t.get R.MGT_SB_STATUS.STATIC_SEL = straps % 2 ^ R.MGT_SB_STATUS.STATIC_SEL.width)

/-- Start-up (R30, R539 to R548, R580). The ROM boots the image in the flash where it passes every check of R539 under the
ROM's floor, else it enters recovery; known-answer tests that fail stop the device. The start-up self-test leaves PART_OK and
SERVICE mode where a partition passed, and memory zero but for what its write check left. The flash as delivered, and what the
self-test leaves in memory, are the model's choice (log entries 94 and 96). -/
def Obligations.StartUp : Prop :=
  ∀ (s : State), s.quiet →
    (s.sec.started = true → s.isSet R.GLB_READY.BOOT_OK = false → s.sec.recovery = false →
      (∀ f, Completes (.romBoot f false) s fun t => t.flt.dead = true ∧ t.isSet R.GLB_READY.BOOT_OK = false ∧ t.pins.faultN = false) ∧
      (∀ f o, s.sec.read = true → s.sec.floorSlots = [] → s.sec.charSlots = [] → s.sec.fwSlot = some o → Completes (.romBoot f true) s fun t =>
        t.isSet R.GLB_READY.BOOT_OK = objAccepted 1 (Config.romFloor 1) o ∧ t.sec.recovery = !objAccepted 1 (Config.romFloor 1) o ∧
          t.isSet R.SEC_STATUS.FLOOR_OK = false ∧ t.get R.SEC_FLOOR.FW = Config.romFloor 1 % 2 ^ R.SEC_FLOOR.FW.width ∧
          (objAccepted 1 (Config.romFloor 1) o = true → t.isSet R.SEC_STATUS.FW_OK = true ∧ t.sec.running = some o ∧
            t.get R.SEC_FW.SVN = objSvn o.bytes % 2 ^ R.SEC_FW.SVN.width) ∧ t.mem = s.mem) ∧
      (∀ f, s.sec.read = true → s.sec.fwSlot = none → Completes (.romBoot f true) s fun t =>
        t.sec.recovery = true ∧ t.isSet R.GLB_READY.BOOT_OK = false ∧ t.mem = s.mem)) ∧
    (s.sec.started = false ∨ s.isSet R.GLB_READY.BOOT_OK = true ∨ s.sec.recovery = true → ∀ f tests, Completes (.romBoot f tests) s fun t => t = s) ∧
    (∀ l, s.flt.selftest = none → s.flt.startTested = false → s.isSet R.GLB_READY.BOOT_OK = true → s.isSet R.GLB_READY.MEM_OK = true →
      let passed := fun k => !s.flt.trainFailed.contains k && l.any fun r : SelfResult => r.partition == k && r.failed == 0
      Completes (.selftestDone l []) s fun t =>
        t.flt.startTested = true ∧ (∀ k, k < 16 → t.partOk k = passed k) ∧
          (∀ k, k < 16 → t.get (R.TILE_SEQ_CTRL.MODE k) = if passed k then 0 else s.get (R.TILE_SEQ_CTRL.MODE k)) ∧
          (∀ a, a < 0x120000000 ∨ (0x1000000000 ≤ a ∧ a < 0xD000000000) → t.byte a = 0) ∧ (∀ a, farBase ≤ a → t.byte a = s.byte a) ∧
          t.out = s.out)
end

