-- ==== Sys2Proof/Laws/Table.lean ====
section
/-!
SUPPORT. Sparse tables: what a lookup finds after a write, and that every operation keeps the canonical form.
-/

namespace Sys2Proof.Machine

variable {α : Type}

/-! ### Lookup -/

@[simp] theorem Table.get_nil (d : α) (k : Nat) : Table.get d k [] = d := rfl

theorem Table.get_cons (d : α) (k : Nat) (e : Nat × α) (t : Table α) :
    Table.get d k (e :: t) = if e.1 = k then e.2 else Table.get d k t := rfl

/-- A key below every listed key reads the default. -/
theorem Table.get_below (d : α) (k : Nat) (t : Table α) (h : ∀ e ∈ t, k < e.1) : Table.get d k t = d := by
  induction t with
  | nil => rfl
  | cons e t ih =>
    have := h e (by simp)
    rw [Table.get_cons, if_neg (by omega), ih fun x hx => h x (by simp [hx])]

theorem Table.get_insert_same (d : α) (k : Nat) (v : α) (t : Table α) : Table.get d k (Table.insert k v t) = v := by
  induction t with
  | nil => simp [Table.insert, Table.get]
  | cons e t ih =>
    obtain ⟨j, w⟩ := e
    unfold Table.insert
    split
    · simp [Table.get]
    · split
      · simp [Table.get]
      · rw [Table.get_cons, if_neg (by simpa using fun h => absurd h.symm ‹_›), ih]

theorem Table.get_insert_other (d : α) {j k : Nat} (v : α) (t : Table α) (h : j ≠ k) :
    Table.get d j (Table.insert k v t) = Table.get d j t := by
  induction t with
  | nil => simp [Table.insert, Table.get, Ne.symm h]
  | cons e t ih =>
    obtain ⟨i, w⟩ := e
    unfold Table.insert
    split
    · rw [Table.get_cons, if_neg (Ne.symm h)]
    · split
      · subst_vars
        simp only [Table.get_cons]
        rw [if_neg (Ne.symm h), if_neg (Ne.symm h)]
      · simp only [Table.get_cons, ih]

theorem Table.get_erase_other (d : α) {j k : Nat} (t : Table α) (h : j ≠ k) :
    Table.get d j (Table.erase k t) = Table.get d j t := by
  unfold Table.erase
  induction t with
  | nil => rfl
  | cons e t ih =>
    rw [List.filter_cons]
    split
    · rw [Table.get_cons, Table.get_cons, ih]
    · rw [ih, Table.get_cons, if_neg]
      rintro rfl
      simp_all

theorem Table.get_erase_same (d : α) (k : Nat) (t : Table α) : Table.get d k (Table.erase k t) = d := by
  unfold Table.erase
  induction t with
  | nil => rfl
  | cons e t ih =>
    rw [List.filter_cons]
    split
    · rw [Table.get_cons, if_neg (by simp_all), ih]
    · exact ih

@[simp] theorem Table.get_set_same [DecidableEq α] (d : α) (k : Nat) (v : α) (t : Table α) :
    Table.get d k (Table.set d k v t) = v := by
  unfold Table.set
  split
  · rw [Table.get_erase_same, ‹v = d›]
  · exact Table.get_insert_same d k v t

theorem Table.get_set_other [DecidableEq α] (d : α) {j k : Nat} (v : α) (t : Table α) (h : j ≠ k) :
    Table.get d j (Table.set d k v t) = Table.get d j t := by
  unfold Table.set
  split
  · exact Table.get_erase_other d t h
  · exact Table.get_insert_other d v t h

/-- A write at one key, read at any. -/
theorem Table.get_set [DecidableEq α] (d : α) (j k : Nat) (v : α) (t : Table α) :
    Table.get d j (Table.set d k v t) = if j = k then v else Table.get d j t := by
  split
  · subst_vars
    exact Table.get_set_same ..
  · exact Table.get_set_other _ _ _ ‹_›

/-- Reading under another default than the table's own changes nothing where the key is written under that default. -/
theorem Table.get_set_ne [DecidableEq α] (d e : α) {j k : Nat} (v : α) (t : Table α) (h : j ≠ k) :
    Table.get e j (Table.set d k v t) = Table.get e j t := by
  unfold Table.set
  split
  · exact Table.get_erase_other e t h
  · exact Table.get_insert_other e v t h

/-! ### Canonical form -/

/-- Keys strictly rising, as a relation of the list. -/
def Table.Rising (t : Table α) : Prop := t.Pairwise fun a b => a.1 < b.1

theorem Table.sorted_iff (t : Table α) : Table.sorted t = true ↔ Table.Rising t := by
  unfold Table.Rising
  induction t with
  | nil => simp [Table.sorted]
  | cons e t ih =>
    cases t with
    | nil => simp [Table.sorted]
    | cons f t =>
      obtain ⟨j, v⟩ := e
      obtain ⟨k, w⟩ := f
      rw [Table.sorted, Bool.and_eq_true, ih, decide_eq_true_iff, List.pairwise_cons (a := (j, v))]
      constructor
      · rintro ⟨h, p⟩
        refine ⟨fun x hx => ?_, p⟩
        rcases List.mem_cons.1 hx with rfl | hx
        · exact h
        · exact Nat.lt_trans h ((List.pairwise_cons.1 p).1 x hx)
      · rintro ⟨h, p⟩
        exact ⟨h (k, w) (by simp), p⟩

theorem Table.wf_iff [DecidableEq α] (d : α) (t : Table α) :
    Table.wf d t = true ↔ Table.Rising t ∧ ∀ e ∈ t, e.2 ≠ d := by
  simp [Table.wf, Table.sorted_iff]

theorem Table.rising_filter {t : Table α} (h : Table.Rising t) (p : Nat × α → Bool) : Table.Rising (t.filter p) :=
  List.Pairwise.filter p h

theorem Table.mem_insert {k : Nat} {v : α} {t : Table α} {e : Nat × α} (h : e ∈ Table.insert k v t) : e = (k, v) ∨ e ∈ t := by
  induction t with
  | nil => simpa [Table.insert] using h
  | cons x t ih =>
    obtain ⟨j, w⟩ := x
    unfold Table.insert at h
    split at h
    · simpa using h
    · split at h
      · rcases List.mem_cons.1 h with h | h <;> simp [h]
      · rcases List.mem_cons.1 h with h | h
        · simp [h]
        · rcases ih h with h | h <;> simp [h]

theorem Table.rising_insert {t : Table α} (h : Table.Rising t) (k : Nat) (v : α) : Table.Rising (Table.insert k v t) := by
  induction t with
  | nil => simp [Table.insert, Table.Rising]
  | cons x t ih =>
    obtain ⟨j, w⟩ := x
    obtain ⟨hx, ht⟩ := List.pairwise_cons.1 h
    unfold Table.insert
    split
    · refine List.pairwise_cons.2 ⟨fun e he => ?_, h⟩
      rcases List.mem_cons.1 he with rfl | he
      · assumption
      · exact Nat.lt_trans ‹k < j› (hx e he)
    · split
      · subst_vars
        exact List.pairwise_cons.2 ⟨hx, ht⟩
      · refine List.pairwise_cons.2 ⟨fun e he => ?_, ih ht⟩
        rcases Table.mem_insert he with rfl | he
        · exact by simp only; omega
        · exact hx e he

theorem Table.rising_set [DecidableEq α] {t : Table α} (h : Table.Rising t) (d : α) (k : Nat) (v : α) :
    Table.Rising (Table.set d k v t) := by
  unfold Table.set
  split
  · exact Table.rising_filter h _
  · exact Table.rising_insert h k v

theorem Table.wf_filter [DecidableEq α] {d : α} {t : Table α} (h : Table.wf d t = true) (p : Nat × α → Bool) :
    Table.wf d (t.filter p) = true := by
  rw [Table.wf_iff] at *
  exact ⟨Table.rising_filter h.1 p, fun e he => h.2 e (List.mem_filter.1 he).1⟩

theorem Table.wf_set [DecidableEq α] {d : α} {t : Table α} (h : Table.wf d t = true) (k : Nat) (v : α) :
    Table.wf d (Table.set d k v t) = true := by
  rw [Table.wf_iff] at *
  refine ⟨Table.rising_set h.1 d k v, fun e he => ?_⟩
  unfold Table.set at he
  split at he
  · exact h.2 e (List.mem_filter.1 he).1
  · rcases Table.mem_insert he with rfl | he
    · assumption
    · exact h.2 e he

@[simp] theorem Table.wf_nil [DecidableEq α] (d : α) : Table.wf d ([] : Table α) = true := rfl

end Sys2Proof.Machine
end

