-- ==== Sys2Proof/Laws/Kept.lean ====
section
/-!
SUPPORT. What every operation of the device keeps: the canonical form of its memory, its poison and its register table, the
queue, what has been sent and the free values drawn.  One lemma per operation, of the form "if `s` keeps what `z` has, so does
what the operation makes of `s`".
-/

namespace Sys2Proof.Machine

/-- The canonical forms: the register table rises, memory and poison list nothing that an absent entry would read as. -/
structure Canon (regs : Table Nat) (mem : List Host.Cell) (poison : Table Bool) : Prop where
  regs : Table.Rising regs
  mem : Table.wf 0 mem = true
  poison : Table.wf false poison = true

/-- The canonical forms of a state. -/
abbrev State.canon (s : State) : Prop := Canon s.regs s.mem s.poison

theorem Output.extends.refl (a : Output) : a.extends a := .inl rfl

theorem Output.extends.trans {a b c : Output} (h : a.extends b) (k : b.extends c) : a.extends c := by
  rcases h with rfl | ⟨x, u, v, rfl, rfl⟩
  · exact k
  · rcases k with rfl | ⟨y, u', w, e, rfl⟩
    · exact .inr ⟨x, u, v, rfl, rfl⟩
    · cases e
      exact .inr ⟨x, u, v ++ w, rfl, by rw [List.append_assoc]⟩

theorem stillSent.refl : (l : List Output) → stillSent l l
  | [] => trivial
  | a :: l => ⟨.refl a, stillSent.refl l⟩

theorem stillSent.trans : {l m n : List Output} → stillSent l m → stillSent m n → stillSent l n
  | [], _, _, _, _ => trivial
  | _ :: _, [], _, h, _ => h.elim
  | _ :: _, _ :: _, [], _, k => k.elim
  | _ :: _, _ :: _, _ :: _, h, k => ⟨h.1.trans k.1, stillSent.trans h.2 k.2⟩

theorem stillSent.append : (l m : List Output) → stillSent l (l ++ m)
  | [], _ => trivial
  | a :: l, m => ⟨.refl a, stillSent.append l m⟩

theorem stillSent.grow {a b : Output} (h : a.extends b) : (l : List Output) → stillSent (l ++ [a]) (l ++ [b])
  | [] => ⟨h, trivial⟩
  | c :: l => ⟨.refl c, stillSent.grow h l⟩

/-- What of a state `z` the parts of a later one keep. -/
structure KeptParts (z : State) (pending : List Instr) (regs : Table Nat) (mem : List Host.Cell) (poison : Table Bool)
    (out : List Output) (freeCtr : Nat) : Prop where
  canon : z.canon → Canon regs mem poison
  pending : pending = z.pending
  out : stillSent z.out out
  free : z.freeCtr ≤ freeCtr

/-- `s` keeps what `z` has: canonical forms, the queue, everything sent, every free value drawn. -/
abbrev Kept (z s : State) : Prop := KeptParts z s.pending s.regs s.mem s.poison s.out s.freeCtr

/-- The state of an answer that may be none. -/
structure KeptO (z : State) (o : Option State) : Prop where
  kept : ∀ t, o = some t → Kept z t

/-- The state of an answer that may be none, beside another value. -/
structure KeptP {α : Type} (z : State) (o : Option (State × α)) : Prop where
  kept : ∀ t, o = some t → Kept z t.1

theorem Kept.refl (s : State) : Kept s s := ⟨id, rfl, stillSent.refl _, Nat.le_refl _⟩

theorem Kept.trans {a b c : State} (h : Kept a b) (k : Kept b c) : Kept a c :=
  ⟨fun x => k.canon (h.canon x), k.pending.trans h.pending, h.out.trans k.out, h.free.trans k.free⟩

theorem Kept.parts {z t : State} (h : Kept z t) : KeptParts z t.pending t.regs t.mem t.poison t.out t.freeCtr := h

theorem Kept.fst {α : Type} {z t : State} {x : α} {p : State × α} (e : p = (t, x)) (h : Kept z p.1) : Kept z t := by
  subst e
  exact h

theorem Kept.ofSome {z t : State} {o : Option State} (e : o = some t) (h : KeptO z o) : Kept z t := h.kept t e

theorem Kept.somePair {α : Type} {z t : State} {x : α} {o : Option (State × α)} (e : o = Option.some (t, x)) (h : KeptP z o) :
    Kept z t := h.kept _ e

theorem KeptO.none (z : State) : KeptO z none := ⟨by simp⟩

theorem KeptO.of {z s : State} (h : Kept z s) : KeptO z (.some s) := by
  refine ⟨?_⟩
  rintro t ⟨⟩
  exact h

theorem KeptO.getD {z s : State} {o : Option State} (h : KeptO z o) (hs : Kept z s) : Kept z (o.getD s) := by
  cases o with
  | none => exact hs
  | some t => exact h.kept t rfl

theorem KeptP.none {α : Type} (z : State) : KeptP (α := α) z none := ⟨by simp⟩

theorem KeptP.of {α : Type} {z s : State} {x : α} (h : Kept z s) : KeptP z (.some (s, x)) := by
  refine ⟨?_⟩
  rintro t ⟨⟩
  exact h

theorem Kept.foldl {α : Type} {z s : State} {f : State → α → State} {l : List α} (h : Kept z s)
    (hf : ∀ s x, Kept z s → Kept z (f s x)) : Kept z (l.foldl f s) := by
  induction l generalizing s with
  | nil => exact h
  | cons x l ih => exact ih (hf s x h)

theorem Kept.foldlPair {α β : Type} {z : State} {p : State × β} {f : State × β → α → State × β} {l : List α} (h : Kept z p.1)
    (hf : ∀ p x, Kept z p.1 → Kept z (f p x).1) : Kept z (l.foldl f p).1 := by
  induction l generalizing p with
  | nil => exact h
  | cons x l ih => exact ih (hf p x h)

theorem KeptO.foldl {α : Type} {z : State} {o : Option State} {f : Option State → α → Option State} {l : List α}
    (h : KeptO z o) (hf : ∀ o x, KeptO z o → KeptO z (f o x)) : KeptO z (l.foldl f o) := by
  induction l generalizing o with
  | nil => exact h
  | cons x l ih => exact ih (hf o x h)

theorem KeptP.foldl {α β : Type} {z : State} {o : Option (State × β)} {f : Option (State × β) → α → Option (State × β)}
    {l : List α} (h : KeptP z o) (hf : ∀ o x, KeptP z o → KeptP z (f o x)) : KeptP z (l.foldl f o) := by
  induction l generalizing o with
  | nil => exact h
  | cons x l ih => exact ih (hf o x h)

theorem KeptO.map {α : Type} {z : State} {o : Option α} {f : α → State} (hf : ∀ x, Kept z (f x)) : KeptO z (o.map f) := by
  refine ⟨fun t e => ?_⟩
  obtain ⟨x, _, rfl⟩ := Option.map_eq_some_iff.1 e
  exact hf x

theorem KeptO.mapPair {β : Type} {z : State} {o : Option (State × β)} {f : State × β → State} (h : KeptP z o)
    (hf : ∀ p, Kept z p.1 → Kept z (f p)) : KeptO z (o.map f) := by
  refine ⟨fun t e => ?_⟩
  obtain ⟨x, k, rfl⟩ := Option.map_eq_some_iff.1 e
  exact hf x (h.kept x k)

theorem KeptO.mapState {z : State} {o : Option State} {f : State → State} (h : KeptO z o)
    (hf : ∀ s, Kept z s → Kept z (f s)) : KeptO z (o.map f) := by
  refine ⟨fun t e => ?_⟩
  obtain ⟨x, k, rfl⟩ := Option.map_eq_some_iff.1 e
  exact hf x (h.kept x k)

theorem KeptP.map {α β : Type} {z : State} {o : Option α} {f : α → State × β} (hf : ∀ x, Kept z (f x).1) :
    KeptP z (o.map f) := by
  refine ⟨fun t e => ?_⟩
  obtain ⟨x, _, rfl⟩ := Option.map_eq_some_iff.1 e
  exact hf x

theorem KeptP.mapPair {β γ : Type} {z : State} {o : Option (State × β)} {f : State × β → State × γ} (h : KeptP z o)
    (hf : ∀ p, Kept z p.1 → Kept z (f p).1) : KeptP z (o.map f) := by
  refine ⟨fun t e => ?_⟩
  obtain ⟨x, k, rfl⟩ := Option.map_eq_some_iff.1 e
  exact hf x (h.kept x k)

/-! ### The operations that write what is kept -/

theorem State.put_kept {z s : State} {f : Field} {v : Nat} (h : Kept z s) : Kept z (s.put f v) :=
  ⟨fun c => ⟨Table.rising_set (h.canon c).regs .., (h.canon c).mem, (h.canon c).poison⟩, h.pending, h.out, h.free⟩

theorem State.setByte_kept {z s : State} {a : Nat} {b : Byte} (h : Kept z s) : Kept z (s.setByte a b) :=
  ⟨fun c => ⟨(h.canon c).regs, Table.wf_set (h.canon c).mem .., (h.canon c).poison⟩, h.pending, h.out, h.free⟩

theorem writeMem_wf {m : List Host.Cell} (h : Table.wf 0 m = true) (a : Nat) (bs : Bytes) :
    Table.wf 0 (writeMem m a bs) = true := by
  induction bs generalizing m a with
  | nil => exact h
  | cons b bs ih => exact ih (Table.wf_set h a b) (a + 1)

theorem State.write_kept {z s : State} {a : Nat} {bs : Bytes} (h : Kept z s) : Kept z (s.write a bs) :=
  ⟨fun c => ⟨(h.canon c).regs, writeMem_wf (h.canon c).mem a bs, Table.wf_filter (h.canon c).poison _⟩, h.pending, h.out, h.free⟩

theorem State.poisonRange_kept {z s : State} {a n : Nat} (h : Kept z s) : Kept z (s.poisonRange a n) := by
  refine ⟨fun c => ⟨(h.canon c).regs, (h.canon c).mem, ?_⟩, h.pending, h.out, h.free⟩
  have key : ∀ (l : List Nat) (p : Table Bool), Table.wf false p = true →
      Table.wf false (l.foldl (fun p i => Table.set false (a / 64 * 8 + i) true p) p) = true := by
    intro l
    induction l with
    | nil => exact fun _ hp => hp
    | cons i l ih => exact fun p hp => ih _ (Table.wf_set hp _ _)
  exact key _ _ (h.canon c).poison

theorem State.zero_kept {z s : State} {a n : Nat} (h : Kept z s) : Kept z (s.zero a n) :=
  ⟨fun c => ⟨(h.canon c).regs, Table.wf_filter (h.canon c).mem _, Table.wf_filter (h.canon c).poison _⟩, h.pending, h.out, h.free⟩

theorem State.draw_kept {z s : State} (h : Kept z s) : Kept z s.draw :=
  ⟨h.canon, h.pending, h.out, Nat.le_succ_of_le h.free⟩

theorem State.emit_kept {z s : State} {o : Output} (h : Kept z s) : Kept z (s.emit o) :=
  ⟨h.canon, h.pending, h.out.trans (.append _ _), h.free⟩

/-- What an answer keeps, if it is a next state. -/
def KeptA (z : State) (a : Answered) : Prop := ∀ t, a = .next t → Kept z t

theorem State.become_kept {z s t : State} (hs : Kept z s) (h : Kept z t) : KeptA z (s.become t) := by
  rintro _ ⟨⟩
  exact ⟨h.canon, hs.pending, h.out, h.free⟩

theorem State.whenAlive_kept {z s : State} {f : State → State} (h : Kept z s) (hf : ∀ s, Kept z s → Kept z (f s)) :
    KeptA z (s.whenAlive f) := by
  refine State.become_kept h ?_
  split
  · exact hf s h
  · exact h

theorem State.whenOn_kept {z s : State} {f : State → State} (h : Kept z s) (hf : ∀ s, Kept z s → Kept z (f s)) :
    KeptA z (s.whenOn f) := by
  refine State.become_kept h ?_
  split
  · exact hf s h
  · exact h

end Sys2Proof.Machine
end

