-- ==== Sys2Proof/Laws/KeptOps.lean ====
section
/-!
SUPPORT. What the operations of Machine/Ops.lean keep.
-/

set_option linter.all false

namespace Sys2Proof.Machine

theorem State.recordWritten_kept {z : State} {s : State} {v : ℕ} (h : Kept z s) :
    Kept z (State.recordWritten s v) := by
  unfold State.recordWritten
  with_reducible
    repeat' (first
      | assumption | split)

theorem State.bump_kept {z : State} {s : State} {f : Field} {n : optParam ℕ 1} (h : Kept z s) :
    Kept z (State.bump s f n) := by
  unfold State.bump
  with_reducible
    repeat' (first
      | assumption | apply State.put_kept)

theorem State.putBit_kept {z : State} {s : State} {f : Field} {b : Bool} (h : Kept z s) :
    Kept z (State.putBit s f b) := by
  unfold State.putBit
  with_reducible
    repeat' (first
      | assumption | apply State.put_kept)

theorem State.d2h_kept {z : State} {s : State} {o : Output} (h : Kept z s) :
    Kept z (State.d2h s o) := by
  unfold State.d2h
  with_reducible
    repeat' (first
      | assumption | apply State.emit_kept | split)

theorem State.message_kept {z : State} {s : State} {v : ℕ} (h : Kept z s) :
    Kept z (State.message s v) := by
  unfold State.message
  try dsimp only
  with_reducible
    repeat' (first
      | assumption | apply State.d2h_kept | split)

theorem State.writeNat_kept {z : State} {s : State} {a : ℕ} {n : ℕ} {v : ℕ} (h : Kept z s) :
    Kept z (State.writeNat s a n v) := by
  unfold State.writeNat
  with_reducible
    repeat' (first
      | assumption | apply State.write_kept)

theorem State.wrapAdd_kept {z : State} {s : State} {f : Field} {n : optParam ℕ 1} (h : Kept z s) :
    Kept z (State.wrapAdd s f n) := by
  unfold State.wrapAdd
  with_reducible
    repeat' (first
      | assumption | apply State.put_kept)

end Sys2Proof.Machine
end

