-- ==== Sys2Proof/Laws/KeptFrames.lean ====
section
/-!
SUPPORT. What the operations of Machine/Frames.lean keep.
-/

set_option linter.all false

namespace Sys2Proof.Machine

theorem State.modLink_kept {z : State} {s : State} {p : ℕ} {f : Link → Link} (h : Kept z s) :
    Kept z (State.modLink s p f) := by
  unfold State.modLink
  assumption

theorem State.transmitSeq_kept {z : State} {s : State} {p : ℕ} {f : Frame} {owner : Option (ℕ × ℕ)} (h : Kept z s) :
    Kept z (State.transmitSeq s p f owner) := by
  unfold State.transmitSeq
  try dsimp only
  with_reducible
    repeat' (first
      | assumption | apply State.modLink_kept | apply State.emit_kept | intro _ _ _ | intro _ _ | intro _)

theorem State.drainLink_kept {z s : State} {p n : Nat} (h : Kept z s) : Kept z (s.drainLink p n) := by
  induction n generalizing s with
  | zero => exact h
  | succ n ih =>
    unfold State.drainLink
    repeat' (first
      | with_reducible assumption
      | with_reducible apply ih
      | with_reducible apply State.transmitSeq_kept
      | with_reducible apply State.modLink_kept
      | split)

theorem State.sendSeq_kept {z : State} {s : State} {p : ℕ} {f : Frame} {owner : optParam (Option (ℕ × ℕ)) none} (h : Kept z s) :
    Kept z (State.sendSeq s p f owner) := by
  unfold State.sendSeq
  try dsimp only
  with_reducible
    repeat' (first
      | assumption | apply State.modLink_kept | apply State.drainLink_kept | intro _ _ _ | intro _ _ | intro _)

theorem State.nonce_kept {z : State} {s : State} {i : ℕ} {tile : ℕ} (h : Kept z s) :
    Kept z (State.nonce s i tile) := by
  unfold State.nonce
  assumption

theorem State.sendFragments_kept {z : State} {s : State} {p : ℕ} {m : CtrlMsg} (h : Kept z s) :
    Kept z (State.sendFragments s p m) := by
  unfold State.sendFragments
  try dsimp only
  with_reducible
    repeat' (first
      | assumption | apply State.sendSeq_kept | apply State.nonce_kept | apply State.emit_kept | apply Kept.foldl
      | intro _ _ _ | intro _ _ | intro _ | split)

theorem State.transmit_kept {z : State} {s : State} {p : ℕ} {f : Frame} (h : Kept z s) :
    Kept z (State.transmit s p f) := by
  unfold State.transmit
  with_reducible
    repeat' (first
      | assumption | apply State.emit_kept)

theorem State.acknowledge_kept {z : State} {s : State} {p : ℕ} {ack : ℕ} (h : Kept z s) :
    Kept z (State.acknowledge s p ack) := by
  unfold State.acknowledge
  try dsimp only
  with_reducible
    repeat' (first
      | assumption | apply State.modLink_kept | apply State.drainLink_kept | apply State.put_kept | intro _ _ _
      | intro _ _ | intro _ | split)

theorem State.sendNak_kept {z : State} {s : State} {p : ℕ} (h : Kept z s) :
    Kept z (State.sendNak s p) := by
  unfold State.sendNak
  with_reducible
    repeat' (first
      | assumption | apply State.modLink_kept | apply State.bump_kept | apply State.transmit_kept | intro _ _ _
      | intro _ _ | intro _ | split)

end Sys2Proof.Machine
end

