-- ==== Sys2Proof/Laws/KeptControl.lean ====
section
/-!
SUPPORT. What the operations of Machine/Control.lean keep.
-/

set_option linter.all false

namespace Sys2Proof.Machine

theorem State.sendPort_kept {z : State} {s : State} {port : Option ℕ} {dst : ℕ} {body : CtrlBody} (h : Kept z s) :
    Kept z (State.sendPort s port dst body) := by
  unfold State.sendPort
  try dsimp only
  with_reducible
    repeat' (first
      | assumption | apply State.sendFragments_kept | split)

theorem State.sendCtrl_kept {z : State} {s : State} {dst : ℕ} {body : CtrlBody} (h : Kept z s) :
    Kept z (State.sendCtrl s dst body) := by
  unfold State.sendCtrl
  with_reducible
    repeat' (first
      | assumption | apply State.sendPort_kept)

theorem State.sendAll_kept {z : State} {s : State} {dsts : List ℕ} {body : CtrlBody} (h : Kept z s) :
    Kept z (State.sendAll s dsts body) := by
  unfold State.sendAll
  with_reducible
    repeat' (first
      | assumption | apply State.sendCtrl_kept | apply Kept.foldl | intro _ _ _ | intro _ _ | intro _)

end Sys2Proof.Machine
end

