-- ==== Sys2Proof/Laws/KeptRings.lean ====
section
/-!
SUPPORT. What the operations of Machine/Rings.lean keep.
-/

set_option linter.all false

namespace Sys2Proof.Machine

theorem State.writeCq_kept {z : State} {s : State} {i : ℕ} {c : Completion} (h : Kept z s) :
    Kept z (State.writeCq s i c) := by
  unfold State.writeCq
  try dsimp only
  with_reducible
    repeat' (first
      | assumption | apply State.recordWritten_kept | apply State.put_kept | apply State.emit_kept | intro _ _ _
      | intro _ _ | intro _ | split)

theorem State.drainCqN_kept {z s : State} {i n : Nat} (h : Kept z s) : Kept z (s.drainCqN i n) := by
  induction n generalizing s with
  | zero => exact h
  | succ n ih =>
    unfold State.drainCqN
    repeat' (first
      | with_reducible assumption
      | with_reducible apply ih
      | with_reducible apply State.writeCq_kept
      | split)

theorem State.drainCq_kept {z : State} {s : State} {i : ℕ} (h : Kept z s) :
    Kept z (State.drainCq s i) := by
  unfold State.drainCq
  with_reducible
    repeat' (first
      | assumption | apply State.drainCqN_kept)

theorem State.noteHold_kept {z : State} {s : State} {i : ℕ} (h : Kept z s) :
    Kept z (State.noteHold s i) := by
  unfold State.noteHold
  try dsimp only
  with_reducible
    repeat' (first
      | assumption | apply State.bump_kept | split)

theorem State.postCq_kept {z : State} {s : State} {i : ℕ} {c : Completion} (h : Kept z s) :
    Kept z (State.postCq s i c) := by
  unfold State.postCq
  with_reducible
    repeat' (first
      | assumption | apply State.drainCq_kept | apply State.noteHold_kept)

theorem State.finish_kept {z : State} {s : State} {no : ℕ} {a : Answer} (h : Kept z s) :
    Kept z (State.finish s no a) := by
  unfold State.finish
  try dsimp only
  with_reducible
    repeat' (first
      | assumption | apply State.sendCtrl_kept | apply State.postCq_kept | apply KeptO.getD | intro _ _ _ | intro _ _
      | intro _ | split)

theorem State.finishWith_kept {z : State} {s : State} {no : ℕ} {st : Status} {detail : optParam ℕ 0} (h : Kept z s) :
    Kept z (State.finishWith s no st detail) := by
  unfold State.finishWith
  with_reducible
    repeat' (first
      | assumption | apply State.finish_kept)

theorem State.mapTicket_kept {z : State} {s : State} {no : ℕ} {f : Ticket → Ticket} (h : Kept z s) :
    Kept z (State.mapTicket s no f) := by
  unfold State.mapTicket
  with_reducible
    repeat' (first
      | assumption | intro _ _ _ | intro _ _ | intro _ | split)

theorem State.outPayload_kept {z : State} {s : State} {p : Packet} {bs : Bytes} (h : Kept z s) :
    Kept z (State.outPayload s p bs) := by
  unfold State.outPayload
  with_reducible
    repeat' (first
      | assumption | apply State.d2h_kept)

theorem State.markPending_kept {z : State} {s : State} {no : ℕ} (h : Kept z s) :
    Kept z (State.markPending s no) := by
  unfold State.markPending
  try dsimp only
  with_reducible
    repeat' (first
      | assumption | apply State.postCq_kept | apply State.mapTicket_kept | intro _ _ _ | intro _ _ | intro _ | split)

theorem State.openTicket_kept {z : State} {s : State} {o : Origin} {p : Packet} {pay : Option Bytes} {img : Option ModelImage} (h : Kept z s) :
    Kept z (State.openTicket s o p pay img).1 := by
  unfold State.openTicket
  try dsimp only
  with_reducible
    repeat' (first
      | assumption | (refine Kept.fst (by assumption) ?_))

theorem State.emitToken_kept {z s : State} {a : Nat} {bs : Bytes} (h : Kept z s) : Kept z (s.emitToken a bs).1 := by
  unfold State.emitToken
  split
  · rename_i b old e
    split
    · refine ⟨h.canon, h.pending, h.out.trans ?_, h.free⟩
      obtain ⟨l, hl⟩ := List.getLast?_eq_some_iff.1 e
      simp only [hl, List.dropLast_concat]
      exact stillSent.grow (.inr ⟨b, old, bs, rfl, rfl⟩) l
    · exact State.emit_kept h
  · exact State.emit_kept h

theorem State.writeTr_kept {z : State} {s : State} {j : ℕ} {t : TokenRec} (h : Kept z s) :
    Kept z (State.writeTr s j t) := by
  unfold State.writeTr
  try dsimp only
  with_reducible
    repeat' (first
      | assumption | apply State.emitToken_kept | apply State.recordWritten_kept | apply State.put_kept
      | (refine Kept.fst (by assumption) ?_) | split)

end Sys2Proof.Machine
end

