-- ==== Sys2Proof/Laws/KeptForward.lean ====
section
/-!
SUPPORT. What the operations of Machine/Forward.lean keep.
-/

set_option linter.all false

namespace Sys2Proof.Machine

theorem State.awaitSelf_kept {z : State} {s : State} {no : ℕ} (h : Kept z s) :
    Kept z (State.awaitSelf s no) := by
  unfold State.awaitSelf
  with_reducible
    repeat' (first
      | assumption | apply State.mapTicket_kept | intro _ _ _ | intro _ _ | intro _)

theorem State.addReply_kept {z : State} {s : State} {no : ℕ} {r : Reply} (h : Kept z s) :
    Kept z (State.addReply s no r) := by
  unfold State.addReply
  with_reducible
    repeat' (first
      | assumption | apply State.mapTicket_kept | intro _ _ _ | intro _ _ | intro _)

theorem State.reply_kept {z : State} {s : State} {no : ℕ} {a : Answer} (h : Kept z s) :
    Kept z (State.reply s no a) := by
  unfold State.reply
  with_reducible
    repeat' (first
      | assumption | apply State.finish_kept | apply State.addReply_kept | intro _ _ _ | intro _ _ | intro _ | split)

theorem State.replyWith_kept {z : State} {s : State} {no : ℕ} {st : Status} {detail : optParam ℕ 0} (h : Kept z s) :
    Kept z (State.replyWith s no st detail) := by
  unfold State.replyWith
  with_reducible
    repeat' (first
      | assumption | apply State.reply_kept)

theorem State.forwardEach_kept {z : State} {s : State} {no : ℕ} {p : Packet} {pay : ℕ → Option Bytes} {dsts : List ℕ} {img : optParam (Option ModelImage) none} (h : Kept z s) :
    Kept z (State.forwardEach s no p pay dsts img) := by
  unfold State.forwardEach
  try dsimp only
  with_reducible
    repeat' (first
      | assumption | apply State.sendCtrl_kept | apply State.mapTicket_kept | apply State.addReply_kept
      | apply Kept.foldl | intro _ _ _ | intro _ _ | intro _ | split)

theorem State.forwardTo_kept {z : State} {s : State} {no : ℕ} {p : Packet} {pay : Option Bytes} {dsts : List ℕ} {img : optParam (Option ModelImage) none} (h : Kept z s) :
    Kept z (State.forwardTo s no p pay dsts img) := by
  unfold State.forwardTo
  with_reducible
    repeat' (first
      | assumption | apply State.forwardEach_kept | intro _ _ _ | intro _ _ | intro _)

end Sys2Proof.Machine
end

