-- ==== Sys2Proof/Laws/KeptErrors.lean ====
section
/-!
SUPPORT. What the operations of Machine/Errors.lean keep.
-/

set_option linter.all false

namespace Sys2Proof.Machine

theorem State.errorIrq_kept {z : State} {s : State} {cls : ℕ} (h : Kept z s) :
    Kept z (State.errorIrq s cls) := by
  unfold State.errorIrq
  with_reducible
    repeat' (first
      | assumption | apply State.message_kept | split)

theorem State.driveFault_kept {z : State} {s : State} {e : Event} (h : Kept z s) :
    Kept z (State.driveFault s e) := by
  unfold State.driveFault
  with_reducible
    repeat' (first
      | assumption | split)

theorem State.reportEvent_kept {z : State} {s : State} {new : Bool} {r : ErrRec} (h : Kept z s) :
    Kept z (State.reportEvent s new r) := by
  unfold State.reportEvent
  with_reducible
    repeat' (first
      | assumption | apply State.emit_kept | split)

theorem State.appendRecord_kept {z : State} {s : State} {r : ErrRec} (h : Kept z s) :
    Kept z (State.appendRecord s r).1 := by
  unfold State.appendRecord
  try dsimp only
  with_reducible
    repeat' (first
      | assumption | apply State.bump_kept | apply State.put_kept | intro _ _ _ | intro _ _ | intro _
      | (refine Kept.fst (by assumption) ?_) | split)

theorem State.raise_kept {z : State} {s : State} {e : Event} (h : Kept z s) :
    Kept z (State.raise s e) := by
  unfold State.raise
  try dsimp only
  with_reducible
    repeat' (first
      | assumption | apply State.sendCtrl_kept | apply State.errorIrq_kept | apply State.driveFault_kept
      | apply State.put_kept | apply State.reportEvent_kept | apply State.appendRecord_kept
      | (refine Kept.fst (by assumption) ?_) | split)

theorem State.logForwarded_kept {z : State} {s : State} {r : ErrRec} (h : Kept z s) :
    Kept z (State.logForwarded s r) := by
  unfold State.logForwarded
  try dsimp only
  with_reducible
    repeat' (first
      | assumption | apply State.errorIrq_kept | apply State.reportEvent_kept | apply State.appendRecord_kept
      | (refine Kept.fst (by assumption) ?_) | split)

end Sys2Proof.Machine
end

