-- ==== Sys2Proof/Laws/KeptMemory.lean ====
section
/-!
SUPPORT. What the operations of Machine/Memory.lean keep.
-/

set_option linter.all false

namespace Sys2Proof.Machine

theorem State.modStack_kept {z : State} {s : State} {n : ℕ} {f : Stack → Stack} (h : Kept z s) :
    Kept z (State.modStack s n f) := by
  unfold State.modStack
  assumption

theorem State.setSeg_kept {z : State} {s : State} {g : Seg} {v : ℕ} (h : Kept z s) :
    Kept z (State.setSeg s g v) := by
  unfold State.setSeg
  with_reducible
    repeat' (first
      | assumption | apply State.put_kept)

theorem State.wake_kept {z : State} {s : State} {g : Seg} (h : Kept z s) :
    Kept z (State.wake s g) := by
  unfold State.wake
  with_reducible
    repeat' (first
      | assumption | apply State.bump_kept | apply State.setSeg_kept | split)

theorem State.gate_kept {z : State} {s : State} {tile : ℕ} {inst : Option ℕ} {l : List Acc} (h : Kept z s) :
    Kept z (State.gate s tile inst l).1 := by
  unfold State.gate
  try dsimp only
  with_reducible
    repeat' (first
      | assumption | apply State.bump_kept | apply State.wake_kept | apply Kept.foldl | apply Kept.foldlPair
      | intro _ _ _ | intro _ _ | intro _ | (refine Kept.fst (by assumption) ?_) | split)

theorem State.bankStall_kept {z : State} {s : State} {x : ℕ × Bool × ℕ} (h : Kept z s) :
    Kept z (State.bankStall s x) := by
  unfold State.bankStall
  with_reducible
    repeat' (first
      | assumption | apply State.wrapAdd_kept | split)

theorem State.eccFault_kept {z : State} {s : State} {a : ℕ} {src : ℕ} (h : Kept z s) :
    Kept z (State.eccFault s a src) := by
  unfold State.eccFault
  try dsimp only
  with_reducible
    repeat' (first
      | assumption | apply State.put_kept | apply State.putBit_kept | split)

theorem State.eccEvent_kept {z : State} {src : ℕ} {s : State} {e : ℕ × Bool} (h : Kept z s) :
    Kept z (State.eccEvent src s e) := by
  unfold State.eccEvent
  with_reducible
    repeat' (first
      | assumption | apply State.bump_kept | apply State.eccFault_kept | apply State.poisonRange_kept
      | apply State.raise_kept | split)

theorem State.memReport_kept {z : State} {s : State} {src : ℕ} {m : MemReport} (h : Kept z s) :
    Kept z (State.memReport s src m) := by
  unfold State.memReport
  with_reducible
    repeat' (first
      | assumption | apply State.bankStall_kept | apply State.eccEvent_kept | apply Kept.foldl | intro _ _ _
      | intro _ _ | intro _)

theorem State.countFarPoison_kept {z : State} {s : State} {a : ℕ} {n : ℕ} (h : Kept z s) :
    Kept z (State.countFarPoison s a n) := by
  unfold State.countFarPoison
  with_reducible
    repeat' (first
      | assumption | apply State.bump_kept | intro _ _ _ | intro _ _ | intro _ | split)

end Sys2Proof.Machine
end

