-- ==== Sys2Proof/Laws/KeptTile.lean ====
section
/-!
SUPPORT. What the operations of Machine/Tile.lean keep.
-/

set_option linter.all false

namespace Sys2Proof.Machine

theorem State.setSeq_kept {z : State} {s : State} {n : ℕ} {v : ℕ} (h : Kept z s) :
    Kept z (State.setSeq s n v) := by
  unfold State.setSeq
  with_reducible
    repeat' (first
      | assumption | apply State.put_kept)

theorem State.modTile_kept {z : State} {s : State} {n : ℕ} {f : Tile → Tile} (h : Kept z s) :
    Kept z (State.modTile s n f) := by
  unfold State.modTile
  assumption

theorem State.setQueue_kept {z : State} {s : State} {n : ℕ} {q : ℕ} {l : List Queued} (h : Kept z s) :
    Kept z (State.setQueue s n q l) := by
  unfold State.setQueue
  with_reducible
    repeat' (first
      | assumption | apply State.modTile_kept | intro _ _ _ | intro _ _ | intro _)

theorem State.noteDone_kept {z : State} {s : State} (h : Kept z s) :
    Kept z (State.noteDone s) := by
  unfold State.noteDone
  with_reducible
    repeat' (first
      | assumption | intro _ _ _ | intro _ _ | intro _ | split)

theorem State.retire_kept {z : State} {s : State} {n : ℕ} (h : Kept z s) :
    Kept z (State.retire s n) := by
  unfold State.retire
  try dsimp only
  with_reducible
    repeat' (first
      | assumption | apply State.setSeq_kept | apply State.noteDone_kept | apply State.modTile_kept | intro _ _ _
      | intro _ _ | intro _ | split)

theorem State.noteFailed_kept {z : State} {s : State} {i : ℕ} (h : Kept z s) :
    Kept z (State.noteFailed s i) := by
  unfold State.noteFailed
  with_reducible
    repeat' (first
      | assumption | split)

theorem State.signal_kept {z : State} {s : State} {n : ℕ} {c : ℕ} {k : optParam ℕ 1} (h : Kept z s) :
    Kept z (State.signal s n c k) := by
  unfold State.signal
  with_reducible
    repeat' (first
      | assumption | apply State.bump_kept)

theorem State.applySignal_kept {z : State} {s : State} {n : ℕ} {d : Bytes} (h : Kept z s) :
    Kept z (State.applySignal s n d) := by
  unfold State.applySignal
  with_reducible
    repeat' (first
      | assumption | apply State.signal_kept | split)

theorem State.skipQueue_kept {z : State} {s : State} {n : ℕ} {q : ℕ} (h : Kept z s) :
    Kept z (State.skipQueue s n q) := by
  unfold State.skipQueue
  try dsimp only
  with_reducible
    repeat' (first
      | assumption | apply State.setQueue_kept | apply State.applySignal_kept | apply Kept.foldl | intro _ _ _
      | intro _ _ | intro _ | split)

theorem State.enterSkip_kept {z : State} {s : State} {n : ℕ} (h : Kept z s) :
    Kept z (State.enterSkip s n) := by
  unfold State.enterSkip
  try dsimp only
  with_reducible
    repeat' (first
      | assumption | apply State.retire_kept | apply State.setSeq_kept | apply State.skipQueue_kept | apply Kept.foldl
      | intro _ _ _ | intro _ _ | intro _)

theorem State.stepFail_kept {z : State} {s : State} {n : ℕ} {idx : ℕ} {st : Status} (h : Kept z s) :
    Kept z (State.stepFail s n idx st) := by
  unfold State.stepFail
  try dsimp only
  with_reducible
    repeat' (first
      | assumption | apply State.bump_kept | apply State.noteFailed_kept | apply State.raise_kept
      | apply State.put_kept | apply State.putBit_kept | apply State.enterSkip_kept | apply State.sendAll_kept
      | apply State.modTile_kept | apply Kept.foldl | intro _ _ _ | intro _ _ | intro _ | split)

theorem State.failHead_kept {z : State} {s : State} {n : ℕ} {q : ℕ} {st : Status} (h : Kept z s) :
    Kept z (State.failHead s n q st) := by
  unfold State.failHead
  with_reducible
    repeat' (first
      | assumption | apply State.setQueue_kept | apply State.retire_kept | apply State.stepFail_kept
      | apply State.applySignal_kept | split)

theorem State.failEvent_kept {z : State} {s : State} {n : ℕ} {q : ℕ} {e : Event} (h : Kept z s) :
    Kept z (State.failEvent s n q e) := by
  unfold State.failEvent
  with_reducible
    repeat' (first
      | assumption | apply State.raise_kept | apply State.failHead_kept)

theorem State.completeDesc_kept {z : State} {s : State} {n : ℕ} {d : Bytes} (h : Kept z s) :
    Kept z (State.completeDesc s n d) := by
  unfold State.completeDesc
  with_reducible
    repeat' (first
      | assumption | apply State.retire_kept | apply State.applySignal_kept)

theorem State.complete_kept {z : State} {s : State} {n : ℕ} {q : ℕ} (h : Kept z s) :
    Kept z (State.complete s n q) := by
  unfold State.complete
  with_reducible
    repeat' (first
      | assumption | apply State.setQueue_kept | apply State.completeDesc_kept | split)

theorem State.setHead_kept {z : State} {s : State} {n : ℕ} {q : ℕ} {h0 : Queued} (h : Kept z s) :
    Kept z (State.setHead s n q h0) := by
  unfold State.setHead
  with_reducible
    repeat' (first
      | assumption | apply State.setQueue_kept | split)

theorem State.restTiles_kept {z : State} {s : State} (h : Kept z s) :
    Kept z (State.restTiles s) := by
  unfold State.restTiles
  with_reducible
    repeat' (first
      | assumption | apply State.setSeq_kept | apply Kept.foldl | intro _ _ _ | intro _ _ | intro _ | split)

theorem State.wantSpare_kept {z : State} {s : State} {n : ℕ} {e : ℕ} (h : Kept z s) :
    Kept z (State.wantSpare s n e) := by
  unfold State.wantSpare
  with_reducible
    repeat' (first
      | assumption | apply State.modTile_kept | intro _ _ _ | intro _ _ | intro _ | split)

theorem State.gated_kept {z : State} {s : State} {n : ℕ} {q : ℕ} {l : List Acc} {go : State → State} (h : Kept z s) (h1 : ∀ y0, Kept z y0 → Kept z (go y0)) :
    Kept z (State.gated s n q l go) := by
  unfold State.gated
  with_reducible
    repeat' (first
      | assumption | apply State.failEvent_kept | apply State.gate_kept | apply h1
      | (refine Kept.fst (by assumption) ?_) | split)

theorem State.scratched_kept {z : State} {s : State} {n : ℕ} {q : ℕ} {l : List Acc} {go : State → State} (h : Kept z s) (h1 : ∀ y0, Kept z y0 → Kept z (go y0)) :
    Kept z (State.scratched s n q l go) := by
  unfold State.scratched
  with_reducible
    repeat' (first
      | assumption | apply State.gated_kept | apply State.failEvent_kept | apply h1 | intro _ _ _ | intro _ _
      | intro _ | split)

theorem State.fencedHead_kept {z : State} {s : State} {n : ℕ} {q : ℕ} (h : Kept z s) :
    Kept z (State.fencedHead s n q) := by
  unfold State.fencedHead
  try dsimp only
  with_reducible
    repeat' (first
      | assumption | apply State.bump_kept | apply State.setQueue_kept | apply State.retire_kept
      | apply State.modTile_kept | intro _ _ _ | intro _ _ | intro _ | split)

end Sys2Proof.Machine
end

