-- ==== Sys2Proof/Laws/KeptGranary.lean ====
section
/-!
SUPPORT. What the operations of Machine/Granary.lean keep.
-/

set_option linter.all false

namespace Sys2Proof.Machine

theorem State.atomStatus_kept {z : State} {s : State} {n : ℕ} {c : ℕ} {old : ℕ} {r : AtomResult} (h : Kept z s) :
    Kept z (State.atomStatus s n c old r) := by
  unfold State.atomStatus
  try dsimp only
  with_reducible
    repeat' (first
      | assumption | apply State.put_kept | apply State.putBit_kept)

theorem State.setGset_kept {z : State} {s : State} {n : ℕ} {k : ℕ} {g : GSet} (h : Kept z s) :
    Kept z (State.setGset s n k g) := by
  unfold State.setGset
  with_reducible
    repeat' (first
      | assumption | apply State.modTile_kept | intro _ _ _ | intro _ _ | intro _)

theorem State.useLine_kept {z : State} {s : State} {n : ℕ} {line : ℕ} {write : Bool} (h : Kept z s) :
    Kept z (State.useLine s n line write) := by
  unfold State.useLine
  try dsimp only
  with_reducible
    repeat' (first
      | assumption | apply State.setGset_kept | split)

theorem State.atomPerform_kept {z : State} {s : State} {n : ℕ} {window : Bool} {c : ℕ} {op : ℕ} {addr : ℕ} {wide : Bool} {data : ℕ} {cmp : ℕ} (h : Kept z s) :
    Kept z (State.atomPerform s n window c op addr wide data cmp) := by
  unfold State.atomPerform
  try dsimp only
  with_reducible
    repeat' (first
      | assumption | apply State.bump_kept | apply State.writeNat_kept | apply State.atomStatus_kept
      | apply State.wrapAdd_kept | apply State.useLine_kept | split)

theorem State.writeback_kept {z : State} {s : State} {n : ℕ} (h : Kept z s) :
    Kept z (State.writeback s n) := by
  unfold State.writeback
  with_reducible
    repeat' (first
      | assumption | apply State.wrapAdd_kept)

theorem State.install_kept {z : State} {s : State} {n : ℕ} {line : ℕ} {dirty : Bool} (h : Kept z s) :
    Kept z (State.install s n line dirty) := by
  unfold State.install
  try dsimp only
  with_reducible
    repeat' (first
      | assumption | apply State.writeback_kept | apply State.setGset_kept | apply State.useLine_kept | intro _ _ _
      | intro _ _ | intro _ | split)

theorem State.lookup_kept {z : State} {s : State} {n : ℕ} {line : ℕ} (h : Kept z s) :
    Kept z (State.lookup s n line).1 := by
  unfold State.lookup
  with_reducible
    repeat' (first
      | assumption | apply State.wrapAdd_kept | (refine Kept.fst (by assumption) ?_) | split)

theorem State.flushGranary_kept {z : State} {s : State} {n : ℕ} (h : Kept z s) :
    Kept z (State.flushGranary s n) := by
  unfold State.flushGranary
  try dsimp only
  with_reducible
    repeat' (first
      | assumption | apply State.modTile_kept | apply State.wrapAdd_kept | intro _ _ _ | intro _ _ | intro _)

theorem State.atomRefuse_kept {z : State} {s : State} {n : ℕ} {window : Bool} {c : ℕ} {cause : ℕ} {addr : ℕ} (h : Kept z s) :
    Kept z (State.atomRefuse s n window c cause addr) := by
  unfold State.atomRefuse
  try dsimp only
  with_reducible
    repeat' (first
      | assumption | apply State.bump_kept | apply State.put_kept | apply State.putBit_kept | apply State.emit_kept
      | split)

theorem State.atomIssue_kept {z : State} {s : State} {n : ℕ} {window : Bool} {c : ℕ} {op : ℕ} {addr : ℕ} {wide : Bool} {data : ℕ} {cmp : ℕ} (h : Kept z s) :
    Kept z (State.atomIssue s n window c op addr wide data cmp) := by
  unfold State.atomIssue
  try dsimp only
  with_reducible
    repeat' (first
      | assumption | apply State.atomPerform_kept | apply State.atomRefuse_kept | apply State.putBit_kept
      | apply State.modTile_kept | apply State.lookup_kept | intro _ _ _ | intro _ _ | intro _
      | (refine Kept.fst (by assumption) ?_) | split)

theorem State.atomCommand_kept {z : State} {s : State} {r : AtomRoute} {op : ℕ} (h : Kept z s) :
    Kept z (State.atomCommand s r op) := by
  unfold State.atomCommand
  with_reducible
    repeat' (first
      | assumption | apply State.emit_kept | apply State.atomIssue_kept | split)

theorem State.passLine_kept {z : State} {s : State} {line : ℕ} {write : Bool} (h : Kept z s) :
    Kept z (State.passLine s line write) := by
  unfold State.passLine
  with_reducible
    repeat' (first
      | assumption | apply State.useLine_kept | apply State.lookup_kept | (refine Kept.fst (by assumption) ?_) | split)

theorem State.passRange_kept {z : State} {s : State} {a : ℕ} {n : ℕ} {write : Bool} (h : Kept z s) :
    Kept z (State.passRange s a n write) := by
  unfold State.passRange
  with_reducible
    repeat' (first
      | assumption | apply State.passLine_kept | apply Kept.foldl | intro _ _ _ | intro _ _ | intro _ | split)

theorem State.tagError_kept {z : State} {s : State} {n : ℕ} {line : ℕ} (h : Kept z s) :
    Kept z (State.tagError s n line) := by
  unfold State.tagError
  try dsimp only
  with_reducible
    repeat' (first
      | assumption | apply State.poisonRange_kept | apply State.raise_kept | apply State.setGset_kept
      | apply Kept.foldl | intro _ _ _ | intro _ _ | intro _ | split)

end Sys2Proof.Machine
end

