-- ==== Sys2Proof/Laws/KeptMatrix.lean ====
section
/-!
SUPPORT. What the operations of Machine/Matrix.lean keep.
-/

set_option linter.all false

namespace Sys2Proof.Machine

theorem State.plotDamage_kept {z : State} {s : State} {n : ℕ} {e : ℕ} {idx : ℕ} {a : ℕ} {cause : ℕ} {index : ℕ} {master : Bool} (h : Kept z s) :
    Kept z (State.plotDamage s n e idx a cause index master) := by
  unfold State.plotDamage
  try dsimp only
  with_reducible
    repeat' (first
      | assumption | apply State.bump_kept | apply State.put_kept | apply State.putBit_kept | split)

theorem State.plotRefetched_kept {z : State} {s : State} {n : ℕ} {e : ℕ} (h : Kept z s) :
    Kept z (State.plotRefetched s n e) := by
  unfold State.plotRefetched
  try dsimp only
  with_reducible
    repeat' (first
      | assumption | apply State.bump_kept | apply State.write_kept | apply State.raise_kept
      | apply State.plotDamage_kept | apply State.passRange_kept | apply State.failHead_kept
      | apply State.setHead_kept | intro _ _ _ | intro _ _ | intro _ | split)

theorem State.plotFails_kept {z : State} {s : State} {n : ℕ} {e : ℕ} {h0 : Queued} {a : ℕ} {master : ℕ} {resume : ℕ} (h : Kept z s) :
    Kept z (State.plotFails s n e h0 a master resume) := by
  unfold State.plotFails
  with_reducible
    repeat' (first
      | assumption | apply State.modTile_kept | apply State.failHead_kept | apply State.setHead_kept | intro _ _ _
      | intro _ _ | intro _ | split)

theorem State.setSlot_kept {z : State} {s : State} {n : ℕ} {e : ℕ} {k : ℕ} {x : Slot} (h : Kept z s) :
    Kept z (State.setSlot s n e k x) := by
  unfold State.setSlot
  try dsimp only
  with_reducible
    repeat' (first
      | assumption | apply State.modTile_kept | intro _ _ _ | intro _ _ | intro _)

theorem State.satColumns_kept {z : State} {s : State} {n : ℕ} {base : ℕ} {cols : List ℕ} (h : Kept z s) :
    Kept z (State.satColumns s n base cols) := by
  unfold State.satColumns
  with_reducible
    repeat' (first
      | assumption | apply State.bump_kept | apply Kept.foldl | intro _ _ _ | intro _ _ | intro _)

theorem State.countWriteOut_kept {z : State} {s : State} {n : ℕ} {e : ℕ} {d : Bytes} {x : Slot} (h : Kept z s) :
    Kept z (State.countWriteOut s n e d x) := by
  unfold State.countWriteOut
  try dsimp only
  with_reducible
    repeat' (first
      | assumption | apply State.bump_kept | apply State.satColumns_kept | apply State.put_kept | split)

theorem State.writeOut_kept {z : State} {s : State} {n : ℕ} {e : ℕ} {d : Bytes} {outliers : List ℕ} (h : Kept z s) :
    Kept z (State.writeOut s n e d outliers) := by
  unfold State.writeOut
  try dsimp only
  with_reducible
    repeat' (first
      | assumption | apply State.complete_kept | apply State.write_kept | apply State.countWriteOut_kept | split)

theorem State.runPass_kept {z : State} {s : State} {n : ℕ} {e : ℕ} {m : Mm} {p : ℕ × ℕ × List ℕ} {startK : ℕ} (h : Kept z s) :
    Kept z (State.runPass s n e m p startK).1 := by
  unfold State.runPass
  try dsimp only
  with_reducible
    repeat' (first
      | assumption | apply State.bump_kept | apply State.setSlot_kept | apply State.modTile_kept
      | apply State.wrapAdd_kept | apply Kept.foldl | apply Kept.foldlPair | intro _ _ _ | intro _ _ | intro _
      | (refine Kept.fst (by assumption) ?_) | split)

theorem State.runPasses_kept {z s : State} {n e : Nat} {m : Mm} {q : Queued} {l : List (Nat × Nat × List Nat)} {i startK : Nat}
    (h : Kept z s) : Kept z (s.runPasses n e m q l i startK) := by
  induction l generalizing s i startK with
  | nil =>
    unfold State.runPasses
    dsimp only
    repeat' (first
      | with_reducible assumption
      | with_reducible apply State.setHead_kept
      | with_reducible apply State.writeOut_kept
      | split)
  | cons p l ih =>
    unfold State.runPasses
    repeat' (first
      | with_reducible assumption
      | with_reducible apply ih
      | with_reducible apply State.plotFails_kept
      | with_reducible apply State.plotDamage_kept
      | with_reducible apply State.runPass_kept
      | with_reducible apply State.gated_kept
      | with_reducible apply State.setHead_kept
      | intro _ _
      | (refine Kept.fst (by with_reducible assumption) ?_)
      | split)

theorem State.matmulRun_kept {z : State} {s : State} {n : ℕ} {e : ℕ} {h0 : Queued} (h : Kept z s) :
    Kept z (State.matmulRun s n e h0) := by
  unfold State.matmulRun
  try dsimp only
  with_reducible
    repeat' (first
      | assumption | apply State.plotFails_kept | apply State.setSlot_kept | apply State.runPasses_kept | split)

theorem State.engineFault_kept {z : State} {s : State} {n : ℕ} {q : ℕ} {e : ℕ} {cause : ℕ} {slot : ℕ} {h0 : Queued} (h : Kept z s) :
    Kept z (State.engineFault s n q e cause slot h0) := by
  unfold State.engineFault
  try dsimp only
  with_reducible
    repeat' (first
      | assumption | apply State.wantSpare_kept | apply State.raise_kept | apply State.put_kept
      | apply State.putBit_kept | apply State.failHead_kept | split)

theorem State.engineCounts_kept {z : State} {s : State} {n : ℕ} {e : ℕ} {rep : EngineReport} (h : Kept z s) :
    Kept z (State.engineCounts s n e rep) := by
  unfold State.engineCounts
  try dsimp only
  with_reducible
    repeat' (first
      | assumption | apply State.bump_kept | apply State.wrapAdd_kept)

theorem State.matmul_kept {z : State} {s : State} {n : ℕ} {e : ℕ} {rep : EngineReport} {mem : MemReport} (h : Kept z s) :
    Kept z (State.matmul s n e rep mem) := by
  unfold State.matmul
  try dsimp only
  with_reducible
    repeat' (first
      | assumption | apply State.gated_kept | apply State.matmulRun_kept | apply State.failEvent_kept
      | apply State.complete_kept | apply State.fencedHead_kept | apply State.memReport_kept
      | apply State.engineFault_kept | apply State.engineCounts_kept | intro _ _ _ | intro _ _ | intro _ | split)

theorem State.writeOutTimeout_kept {z : State} {s : State} {n : ℕ} {e : ℕ} (h : Kept z s) :
    Kept z (State.writeOutTimeout s n e) := by
  unfold State.writeOutTimeout
  with_reducible
    repeat' (first
      | assumption | apply State.engineFault_kept | split)

theorem State.chainAdd_kept {z : State} {s : State} {n : ℕ} {e : ℕ} {rep : EngineReport} {mem : MemReport} (h : Kept z s) :
    Kept z (State.chainAdd s n e rep mem) := by
  unfold State.chainAdd
  try dsimp only
  with_reducible
    repeat' (first
      | assumption | apply State.gated_kept | apply State.bump_kept | apply State.setSlot_kept
      | apply State.fencedHead_kept | apply State.writeOut_kept | apply State.memReport_kept
      | apply State.engineFault_kept | apply State.engineCounts_kept | apply Kept.foldl | intro _ _ _ | intro _ _
      | intro _ | split)

end Sys2Proof.Machine
end

