-- ==== Sys2Proof/Laws/KeptVector.lean ====
section
/-!
SUPPORT. What the operations of Machine/Vector.lean keep.
-/

set_option linter.all false

namespace Sys2Proof.Machine

/-- What the end of a VEC's body keeps. -/
def KeptV (z : State) : VecEnd → Prop
  | .done s => Kept z s
  | _ => True

theorem KeptV.of {z s : State} {v : VecEnd} (e : v = .done s) (h : KeptV z v) : Kept z s := by
  subst e
  exact h

theorem KeptV.done {z s : State} (h : Kept z s) : KeptV z (.done s) := h

theorem KeptV.tableFault (z : State) : KeptV z .tableFault := trivial

theorem KeptV.wordFault (z : State) : KeptV z .wordFault := trivial

theorem State.outRows_kept {z s : State} {d : Bytes} {f : Nat → List Num} (h : Kept z s) : KeptV z (s.outRows d f) :=
  State.write_kept h

theorem vecWiden_kept {z : State} {k : Bytes → ℕ} {s : State} {h0 : Queued} (h : Kept z s) :
    KeptV z (vecWiden k s h0) := by
  unfold vecWiden
  try dsimp only
  with_reducible
    repeat' (first
      | assumption | apply State.write_kept | apply KeptV.done | apply KeptV.tableFault | apply KeptV.wordFault
      | intro _ _ _ | intro _ _ | intro _)

theorem vecRescaleFp_kept {z : State} {s : State} {h0 : Queued} (h : Kept z s) :
    KeptV z (vecRescaleFp s h0) := by
  unfold vecRescaleFp
  try dsimp only
  with_reducible
    repeat' (first
      | assumption | apply State.outRows_kept | (refine KeptV.of (by assumption) ?_) | apply KeptV.done
      | apply KeptV.tableFault | apply KeptV.wordFault | intro _ _ _ | intro _ _ | intro _ | split)

theorem vecNorm_kept {z : State} {f : Fmt →   Num →     List Num → List Num → List Num → Bytes} {s : State} {h0 : Queued} (h : Kept z s) :
    KeptV z (vecNorm f s h0) := by
  unfold vecNorm
  try dsimp only
  with_reducible
    repeat' (first
      | assumption | apply State.write_kept | apply KeptV.done | apply KeptV.tableFault | apply KeptV.wordFault
      | intro _ _ _ | intro _ _ | intro _)

theorem vecRescale_kept {z : State} {n : ℕ} {words : ℕ → Mult} {base : Option ℕ} {outl : Bool} {s : State} {h0 : Queued} (h : Kept z s) :
    KeptV z (vecRescale n words base outl s h0) := by
  unfold vecRescale
  try dsimp only
  with_reducible
    repeat' (first
      | assumption | apply State.bump_kept | apply State.satColumns_kept | apply State.write_kept | apply KeptV.done
      | apply KeptV.tableFault | apply KeptV.wordFault | intro _ _ _ | intro _ _ | intro _ | split)

theorem vecRescaleReg_kept {z : State} {n : ℕ} {s : State} {h0 : Queued} (h : Kept z s) :
    KeptV z (vecRescaleReg n s h0) := by
  unfold vecRescaleReg
  try dsimp only
  with_reducible
    repeat' (first
      | assumption | apply vecRescale_kept | (refine KeptV.of (by assumption) ?_) | apply KeptV.done
      | apply KeptV.tableFault | apply KeptV.wordFault | intro _ _ _ | intro _ _ | intro _ | split)

theorem vecWireQ8_kept {z : State} {n : ℕ} {s : State} {h0 : Queued} (h : Kept z s) :
    KeptV z (vecWireQ8 n s h0) := by
  unfold vecWireQ8
  try dsimp only
  with_reducible
    repeat' (first
      | assumption | apply State.bump_kept | apply State.draw_kept | apply State.write_kept | apply KeptV.done
      | apply KeptV.tableFault | apply KeptV.wordFault | intro _ _ _ | intro _ _ | intro _)

theorem State.outVector_kept {z : State} {s : State} {d : Bytes} {f : ℕ → Num} (h : Kept z s) :
    KeptV z (State.outVector s d f) := by
  unfold State.outVector
  with_reducible
    repeat' (first
      | assumption | apply State.write_kept | apply KeptV.done | apply KeptV.tableFault | apply KeptV.wordFault
      | intro _ _ _ | intro _ _ | intro _)

theorem vecReduce_kept {z : State} {f : List Num → Num} {s : State} {h0 : Queued} (h : Kept z s) :
    KeptV z (vecReduce f s h0) := by
  unfold vecReduce
  with_reducible
    repeat' (first
      | assumption | apply State.outVector_kept | (refine KeptV.of (by assumption) ?_) | apply KeptV.done
      | apply KeptV.tableFault | apply KeptV.wordFault | intro _ _ _ | intro _ _ | intro _)

theorem vecRescaleTab_kept {z : State} {n : ℕ} {s : State} {h0 : Queued} (h : Kept z s) :
    KeptV z (vecRescaleTab n s h0) := by
  unfold vecRescaleTab
  try dsimp only
  with_reducible
    repeat' (first
      | assumption | apply vecRescale_kept | (refine KeptV.of (by assumption) ?_) | apply KeptV.done
      | apply KeptV.tableFault | apply KeptV.wordFault | intro _ _ _ | intro _ _ | intro _ | split)

theorem vecWire_kept {z : State} {f : Bytes → Fmt} {s : State} {h0 : Queued} (h : Kept z s) :
    KeptV z (vecWire f s h0) := by
  unfold vecWire
  with_reducible
    repeat' (first
      | assumption | apply State.write_kept | apply KeptV.done | apply KeptV.tableFault | apply KeptV.wordFault
      | intro _ _ _ | intro _ _ | intro _)

theorem vecUnary_kept {z : State} {f : Queued → Num → Num} {s : State} {h0 : Queued} (h : Kept z s) :
    KeptV z (vecUnary f s h0) := by
  unfold vecUnary
  with_reducible
    repeat' (first
      | assumption | apply State.outRows_kept | (refine KeptV.of (by assumption) ?_) | apply KeptV.done
      | apply KeptV.tableFault | apply KeptV.wordFault | intro _ _ _ | intro _ _ | intro _)

theorem vecTernary_kept {z : State} {f : Num → Num → Num → Num} {s : State} {h0 : Queued} (h : Kept z s) :
    KeptV z (vecTernary f s h0) := by
  unfold vecTernary
  with_reducible
    repeat' (first
      | assumption | apply State.outRows_kept | (refine KeptV.of (by assumption) ?_) | apply KeptV.done
      | apply KeptV.tableFault | apply KeptV.wordFault | intro _ _ _ | intro _ _ | intro _)

theorem State.vec_kept {z : State} {s : State} {n : ℕ} {code : ℕ} {stalls : ℕ} {mem : MemReport} {body : State → Queued → VecEnd} (h : Kept z s) (h1 : ∀ y0 y1, Kept z y0 → KeptV z (body y0 y1)) :
    Kept z (State.vec s n code stalls mem body) := by
  unfold State.vec
  try dsimp only
  with_reducible
    repeat' (first
      | assumption | apply State.gated_kept | apply State.bump_kept | apply State.failEvent_kept
      | apply State.complete_kept | apply State.memReport_kept | apply State.wrapAdd_kept | apply State.failHead_kept
      | apply h1 | (refine KeptV.of (by assumption) ?_) | intro _ _ _ | intro _ _ | intro _ | split)

theorem vecBinary_kept {z : State} {f : Num → Num → Num} {s : State} {h0 : Queued} (h : Kept z s) :
    KeptV z (vecBinary f s h0) := by
  unfold vecBinary
  with_reducible
    repeat' (first
      | assumption | apply State.outRows_kept | (refine KeptV.of (by assumption) ?_) | apply KeptV.done
      | apply KeptV.tableFault | apply KeptV.wordFault | intro _ _ _ | intro _ _ | intro _)

theorem vecQuant_kept {z : State} {n : ℕ} {k : QKind} {s : State} {h0 : Queued} (h : Kept z s) :
    KeptV z (vecQuant n k s h0) := by
  unfold vecQuant
  try dsimp only
  with_reducible
    repeat' (first
      | assumption | apply State.bump_kept | apply State.draw_kept | apply State.write_kept | apply KeptV.done
      | apply KeptV.tableFault | apply KeptV.wordFault | intro _ _ _ | intro _ _ | intro _ | split)

theorem vecTable_kept {z : State} {f : (Num → Num) →   State → Queued → VecEnd} {s : State} {h0 : Queued} (h1 : ∀ y s q, Kept z s → KeptV z (f y s q)) (h : Kept z s) :
    KeptV z (vecTable f s h0) := by
  unfold vecTable
  try dsimp only
  with_reducible
    repeat' (first
      | assumption | apply h1 | (refine KeptV.of (by assumption) ?_) | apply KeptV.done | apply KeptV.tableFault
      | apply KeptV.wordFault | split)

theorem vecByRow_kept {z : State} {f : Num → Num → Num} {s : State} {h0 : Queued} (h : Kept z s) :
    KeptV z (vecByRow f s h0) := by
  unfold vecByRow
  with_reducible
    repeat' (first
      | assumption | apply State.outRows_kept | (refine KeptV.of (by assumption) ?_) | apply KeptV.done
      | apply KeptV.tableFault | apply KeptV.wordFault | intro _ _ _ | intro _ _ | intro _)

end Sys2Proof.Machine
end

