-- ==== Sys2Proof/Laws/KeptPlan.lean ====
section
/-!
SUPPORT. What the operations of Machine/Plan.lean keep.
-/

set_option linter.all false

namespace Sys2Proof.Machine

theorem State.stagePlan_kept {z : State} {s : State} {i : ℕ} {p : StepPlan} (h : Kept z s) :
    Kept z (State.stagePlan s i p) := by
  unfold State.stagePlan
  with_reducible
    repeat' (first
      | assumption | split)

end Sys2Proof.Machine
end

