-- ==== Sys2Proof/Laws/KeptPower.lean ====
section
/-!
SUPPORT. What the operations of Machine/Power.lean keep.
-/

set_option linter.all false

namespace Sys2Proof.Machine

theorem State.showPower_kept {z : State} {s : State} (h : Kept z s) :
    Kept z (State.showPower s) := by
  unfold State.showPower
  try dsimp only
  with_reducible
    repeat' (first
      | assumption | apply State.put_kept | apply Kept.foldl | intro _ _ _ | intro _ _ | intro _)

theorem State.settleLevels_kept {z : State} {s : State} (h : Kept z s) :
    Kept z (State.settleLevels s) := by
  unfold State.settleLevels
  try dsimp only
  with_reducible
    repeat' (first
      | assumption | apply State.put_kept | apply Kept.foldl | intro _ _ _ | intro _ _ | intro _ | split)

theorem State.hintDevice_kept {z : State} {s : State} {h0 : PowerHint} (h : Kept z s) :
    Kept z (State.hintDevice s h0) := by
  unfold State.hintDevice
  try dsimp only
  with_reducible
    repeat' (first
      | assumption | apply Kept.foldl | intro _ _ _ | intro _ _ | intro _ | split)

theorem State.trip_kept {z : State} {s : State} {src : ℕ} {n : ℕ} {temp : ℕ} (h : Kept z s) :
    Kept z (State.trip s src n temp) := by
  unfold State.trip
  try dsimp only
  with_reducible
    repeat' (first
      | assumption | apply State.raise_kept | split)

theorem State.usePhase_kept {z : State} {s : State} {t : ℕ} {i : ℕ} {p : ℕ} (h : Kept z s) :
    Kept z (State.usePhase s t i p) := by
  unfold State.usePhase
  with_reducible
    repeat' (first
      | assumption | intro _ _ _ | intro _ _ | intro _ | split)

theorem State.predictFurrow_kept {z : State} {s : State} {t : ℕ} (h : Kept z s) :
    Kept z (State.predictFurrow s t) := by
  unfold State.predictFurrow
  try dsimp only
  with_reducible
    repeat' (first
      | assumption | apply State.usePhase_kept | apply State.putBit_kept | apply Kept.foldl | intro _ _ _ | intro _ _
      | intro _ | split)

theorem State.learn_kept {z : State} {s : State} {i : ℕ} {o : Occur} (h : Kept z s) :
    Kept z (State.learn s i o) := by
  unfold State.learn
  try dsimp only
  with_reducible
    repeat' (first
      | assumption | apply State.draw_kept | intro _ _ _ | intro _ _ | intro _ | split)

theorem State.endOccur_kept {z : State} {s : State} {i : ℕ} (h : Kept z s) :
    Kept z (State.endOccur s i) := by
  unfold State.endOccur
  with_reducible
    repeat' (first
      | assumption | apply State.usePhase_kept | apply State.learn_kept | intro _ _ _ | intro _ _ | intro _ | split)

theorem State.endPhases_kept {z : State} {s : State} (h : Kept z s) :
    Kept z (State.endPhases s) := by
  unfold State.endPhases
  with_reducible
    repeat' (first
      | assumption | apply State.endOccur_kept | apply Kept.foldl | intro _ _ _ | intro _ _ | intro _ | split)

theorem State.attribute_kept {z : State} {s : State} {fallow : Bool} (h : Kept z s) :
    Kept z (State.attribute s fallow) := by
  unfold State.attribute
  try dsimp only
  with_reducible
    repeat' (first
      | assumption | apply State.wrapAdd_kept | apply Kept.foldl | intro _ _ _ | intro _ _ | intro _ | split)

theorem State.crossed_kept {z : State} {s : State} {src : ℕ} {n : ℕ} {old : ℕ} (h : Kept z s) :
    Kept z (State.crossed s src n old) := by
  unfold State.crossed
  try dsimp only
  with_reducible
    repeat' (first
      | assumption | apply State.emit_kept | intro _ _ _ | intro _ _ | intro _ | split)

theorem State.throttleTick_kept {z : State} {s : State} (h : Kept z s) :
    Kept z (State.throttleTick s) := by
  unfold State.throttleTick
  with_reducible
    repeat' (first
      | assumption | apply State.bump_kept | apply Kept.foldl | intro _ _ _ | intro _ _ | intro _)

theorem State.setDemand_kept {z : State} {s : State} {src : ℕ} {n : ℕ} {l : ℕ} (h : Kept z s) :
    Kept z (State.setDemand s src n l) := by
  unfold State.setDemand
  assumption

theorem State.idleCap_kept {z : State} {s : State} (h : Kept z s) :
    Kept z (State.idleCap s) := by
  unfold State.idleCap
  try dsimp only
  with_reducible
    repeat' (first
      | assumption | apply State.settleLevels_kept | apply State.setDemand_kept | apply Kept.foldl | intro _ _ _
      | intro _ _ | intro _ | split)

theorem State.prepare_kept {z : State} {s : State} {i : ℕ} {p : ℕ} (h : Kept z s) :
    Kept z (State.prepare s i p) := by
  unfold State.prepare
  try dsimp only
  with_reducible
    repeat' (first
      | assumption | intro _ _ _ | intro _ _ | intro _ | split)

theorem State.setGuard_kept {z : State} {s : State} {f : ℕ → ℕ} {left : ℕ} (h : Kept z s) :
    Kept z (State.setGuard s f left) := by
  unfold State.setGuard
  try dsimp only
  with_reducible
    repeat' (first
      | assumption | apply State.settleLevels_kept | apply State.putBit_kept | apply State.setDemand_kept
      | apply Kept.foldl | intro _ _ _ | intro _ _ | intro _)

theorem State.peakGuard_kept {z : State} {s : State} {total : ℕ} (h : Kept z s) :
    Kept z (State.peakGuard s total) := by
  unfold State.peakGuard
  with_reducible
    repeat' (first
      | assumption | apply State.setGuard_kept | intro _ _ _ | intro _ _ | intro _ | split)

theorem State.addEnergy_kept {z : State} {s : State} {rails : List (ℕ × ℕ)} {shares : List ℕ} (h : Kept z s) :
    Kept z (State.addEnergy s rails shares) := by
  unfold State.addEnergy
  try dsimp only
  with_reducible
    repeat' (first
      | assumption | apply State.wrapAdd_kept | apply Kept.foldl | intro _ _ _ | intro _ _ | intro _)

theorem State.keepSample_kept {z : State} {s : State} {rails : List (ℕ × ℕ)} (h : Kept z s) :
    Kept z (State.keepSample s rails) := by
  unfold State.keepSample
  try dsimp only
  with_reducible
    repeat' (first
      | assumption | apply Kept.foldl | intro _ _ _ | intro _ _ | intro _ | split)

theorem State.powerSample_kept {z : State} {s : State} {rails : List (ℕ × ℕ)} {shares : List ℕ} (h : Kept z s) :
    Kept z (State.powerSample s rails shares) := by
  unfold State.powerSample
  with_reducible
    repeat' (first
      | assumption | apply State.peakGuard_kept | apply State.endPhases_kept | apply State.addEnergy_kept
      | apply State.keepSample_kept | apply State.showPower_kept | split)

theorem sampleRails_kept {z : State} {rails : List (ℕ × ℕ)} {shares : List ℕ} {s : State} (h : Kept z s) :
    Kept z (sampleRails rails shares s) := by
  unfold sampleRails
  with_reducible
    repeat' (first
      | assumption | apply State.powerSample_kept)

theorem State.applyPhase_kept {z : State} {s : State} {i : ℕ} {p : ℕ} (h : Kept z s) :
    Kept z (State.applyPhase s i p) := by
  unfold State.applyPhase
  try dsimp only
  with_reducible
    repeat' (first
      | assumption | apply State.settleLevels_kept | apply State.setDemand_kept | apply Kept.foldl | intro _ _ _
      | intro _ _ | intro _ | split)

theorem State.setOccur_kept {z : State} {s : State} {i : ℕ} {o : Occur} (h : Kept z s) :
    Kept z (State.setOccur s i o) := by
  unfold State.setOccur
  assumption

theorem State.mark_kept {z : State} {s : State} {n : ℕ} {p : ℕ} (h : Kept z s) :
    Kept z (State.mark s n p) := by
  unfold State.mark
  try dsimp only
  with_reducible
    repeat' (first
      | assumption | apply State.bump_kept | apply State.applyPhase_kept | apply State.endOccur_kept
      | apply State.setOccur_kept | apply State.modTile_kept | intro _ _ _ | intro _ _ | intro _ | split)

theorem State.dropOccur_kept {z : State} {s : State} {i : ℕ} (h : Kept z s) :
    Kept z (State.dropOccur s i) := by
  unfold State.dropOccur
  assumption

theorem State.startOutside_kept {z : State} {s : State} {t : ℕ} (h : Kept z s) :
    Kept z (State.startOutside s t) := by
  unfold State.startOutside
  with_reducible
    repeat' (first
      | assumption | apply State.endOccur_kept | apply State.setOccur_kept)

theorem State.alertRise_kept {z : State} {s : State} {k : ℕ} (h : Kept z s) :
    Kept z (State.alertRise s k) := by
  unfold State.alertRise
  try dsimp only
  with_reducible
    repeat' (first
      | assumption | apply State.settleLevels_kept | apply State.put_kept | intro _ _ _ | intro _ _ | intro _ | split)

theorem State.beginPhase_kept {z : State} {s : State} {i : ℕ} {p : ℕ} (h : Kept z s) :
    Kept z (State.beginPhase s i p) := by
  unfold State.beginPhase
  with_reducible
    repeat' (first
      | assumption | apply State.applyPhase_kept | split)

theorem State.thermalStep_kept {z : State} {s : State} {src : ℕ} {n : ℕ} {down : Bool} (h : Kept z s) :
    Kept z (State.thermalStep s src n down) := by
  unfold State.thermalStep
  try dsimp only
  with_reducible
    repeat' (first
      | assumption | apply State.settleLevels_kept | apply State.setDemand_kept | split)

theorem State.alertEnd_kept {z : State} {s : State} (h : Kept z s) :
    Kept z (State.alertEnd s) := by
  unfold State.alertEnd
  with_reducible
    repeat' (first
      | assumption | apply State.settleLevels_kept | split)

theorem State.currentStep_kept {z : State} {s : State} {n : ℕ} (h : Kept z s) :
    Kept z (State.currentStep s n) := by
  unfold State.currentStep
  try dsimp only
  with_reducible
    repeat' (first
      | assumption | apply State.settleLevels_kept | apply State.setDemand_kept | intro _ _ _ | intro _ _ | intro _
      | split)

theorem State.alertFall_kept {z : State} {s : State} {k : ℕ} (h : Kept z s) :
    Kept z (State.alertFall s k) := by
  unfold State.alertFall
  try dsimp only
  with_reducible
    repeat' (first
      | assumption | apply State.bump_kept | apply State.settleLevels_kept | apply State.raise_kept
      | apply State.put_kept | split)

theorem State.hintTile_kept {z : State} {s : State} {n : ℕ} {d : Bytes} (h : Kept z s) :
    Kept z (State.hintTile s n d) := by
  unfold State.hintTile
  try dsimp only
  with_reducible
    repeat' (first
      | assumption | intro _ _ _ | intro _ _ | intro _ | split)

theorem State.removeGuard_kept {z : State} {s : State} (h : Kept z s) :
    Kept z (State.removeGuard s) := by
  unfold State.removeGuard
  assumption

theorem State.thermal_kept {z : State} {s : State} {src : ℕ} {n : ℕ} (h : Kept z s) :
    Kept z (State.thermal s src n) := by
  unfold State.thermal
  try dsimp only
  with_reducible
    repeat' (first
      | assumption | apply State.bump_kept | apply State.settleLevels_kept | apply State.trip_kept
      | apply State.raise_kept | apply State.putBit_kept | split)

end Sys2Proof.Machine
end

