-- ==== Sys2Proof/Laws/KeptSequencer.lean ====
section
/-!
SUPPORT. What the operations of Machine/Sequencer.lean keep.
-/

set_option linter.all false

namespace Sys2Proof.Machine

theorem State.stopUnits_kept {z : State} {s : State} {n : ℕ} (h : Kept z s) :
    Kept z (State.stopUnits s n) := by
  unfold State.stopUnits
  with_reducible
    repeat' (first
      | assumption | apply State.put_kept | apply State.modStack_kept | intro _ _ _ | intro _ _ | intro _)

theorem State.abandonTile_kept {z : State} {s : State} {n : ℕ} (h : Kept z s) :
    Kept z (State.abandonTile s n) := by
  unfold State.abandonTile
  try dsimp only
  with_reducible
    repeat' (first
      | assumption | apply State.setSeq_kept | apply State.stopUnits_kept | apply State.putBit_kept
      | apply State.modTile_kept | intro _ _ _ | intro _ _ | intro _)

theorem State.writeMode_kept {z : State} {s : State} {n : ℕ} {m : ℕ} (h : Kept z s) :
    Kept z (State.writeMode s n m) := by
  unfold State.writeMode
  with_reducible
    repeat' (first
      | assumption | apply State.put_kept | split)

theorem State.requestSpare_kept {z : State} {s : State} {n : ℕ} {e : ℕ} (h : Kept z s) :
    Kept z (State.requestSpare s n e) := by
  unfold State.requestSpare
  with_reducible
    repeat' (first
      | assumption | apply State.wantSpare_kept)

theorem State.directGo_kept {z : State} {s : State} {n : ℕ} (h : Kept z s) :
    Kept z (State.directGo s n) := by
  unfold State.directGo
  try dsimp only
  with_reducible
    repeat' (first
      | assumption | apply State.setSeq_kept | apply State.put_kept | apply State.putBit_kept
      | apply State.modTile_kept | intro _ _ _ | intro _ _ | intro _ | split)

theorem State.releaseHeld_kept {z : State} {s : State} (h : Kept z s) :
    Kept z (State.releaseHeld s) := by
  unfold State.releaseHeld
  with_reducible
    repeat' (first
      | assumption | apply State.retire_kept | apply State.setSeq_kept | apply Kept.foldl | intro _ _ _ | intro _ _
      | intro _ | split)

theorem State.fenceEngine_kept {z : State} {s : State} {n : ℕ} {e : ℕ} (h : Kept z s) :
    Kept z (State.fenceEngine s n e) := by
  unfold State.fenceEngine
  with_reducible
    repeat' (first
      | assumption | apply State.modTile_kept | intro _ _ _ | intro _ _ | intro _ | split)

theorem State.replaceEngine_kept {z : State} {s : State} {n : ℕ} {e : ℕ} (h : Kept z s) :
    Kept z (State.replaceEngine s n e) := by
  unfold State.replaceEngine
  try dsimp only
  with_reducible
    repeat' (first
      | assumption | apply State.raise_kept | apply State.put_kept | apply State.putBit_kept
      | apply State.modTile_kept | apply State.fenceEngine_kept | apply State.wrapAdd_kept | intro _ _ _ | intro _ _
      | intro _ | split)

theorem State.substitute_kept {z : State} {s : State} {n : ℕ} (h : Kept z s) :
    Kept z (State.substitute s n) := by
  unfold State.substitute
  try dsimp only
  with_reducible
    repeat' (first
      | assumption | apply State.replaceEngine_kept | apply State.modTile_kept | apply Kept.foldl | intro _ _ _
      | intro _ _ | intro _)

theorem State.clearEvents_kept {z : State} {s : State} {n : ℕ} (h : Kept z s) :
    Kept z (State.clearEvents s n) := by
  unfold State.clearEvents
  with_reducible
    repeat' (first
      | assumption | apply State.put_kept | apply Kept.foldl | intro _ _ _ | intro _ _ | intro _)

theorem State.adapt_kept {z : State} {s : State} {n : ℕ} (h : Kept z s) :
    Kept z (State.adapt s n) := by
  unfold State.adapt
  try dsimp only
  with_reducible
    repeat' (first
      | assumption | apply State.bump_kept | apply State.put_kept | apply State.wrapAdd_kept | apply Kept.foldl
      | intro _ _ _ | intro _ _ | intro _ | split)

theorem State.armTile_kept {z : State} {s : State} {t : ℕ} {n : ℕ} {i : ℕ} {l : List Bytes} (h : Kept z s) :
    Kept z (State.armTile s t n i l) := by
  unfold State.armTile
  try dsimp only
  with_reducible
    repeat' (first
      | assumption | apply State.adapt_kept | apply State.setSeq_kept | apply State.put_kept | apply State.putBit_kept
      | apply State.modTile_kept | intro _ _ _ | intro _ _ | intro _)

theorem State.regainEngine_kept {z : State} {s : State} {n : ℕ} (h : Kept z s) :
    Kept z (State.regainEngine s n) := by
  unfold State.regainEngine
  try dsimp only
  with_reducible
    repeat' (first
      | assumption | apply State.put_kept | apply State.putBit_kept | apply State.modTile_kept
      | apply State.wrapAdd_kept | intro _ _ _ | intro _ _ | intro _ | split)

theorem State.turnTile_kept {z : State} {s : State} {template : Option ℕ} {n : ℕ} (h : Kept z s) :
    Kept z (State.turnTile s template n) := by
  unfold State.turnTile
  try dsimp only
  with_reducible
    repeat' (first
      | assumption | apply State.armTile_kept | apply State.clearEvents_kept | apply State.substitute_kept
      | apply State.modTile_kept | apply State.regainEngine_kept | intro _ _ _ | intro _ _ | intro _ | split)

theorem State.turnTiles_kept {z : State} {s : State} {template : Option ℕ} (h : Kept z s) :
    Kept z (State.turnTiles s template) := by
  unfold State.turnTiles
  with_reducible
    repeat' (first
      | assumption | apply State.turnTile_kept | apply Kept.foldl | intro _ _ _ | intro _ _ | intro _)

theorem State.advance_kept {z : State} {s : State} {n : ℕ} (h : Kept z s) :
    Kept z (State.advance s n) := by
  unfold State.advance
  with_reducible
    repeat' (first
      | assumption | apply State.modTile_kept | apply State.wrapAdd_kept | intro _ _ _ | intro _ _ | intro _)

theorem State.directFail_kept {z : State} {s : State} {n : ℕ} {d : Bytes} (h : Kept z s) :
    Kept z (State.directFail s n d) := by
  unfold State.directFail
  with_reducible
    repeat' (first
      | assumption | apply State.retire_kept | apply State.stepFail_kept | apply State.applySignal_kept
      | apply State.advance_kept)

theorem State.ownDesc_kept {z : State} {s : State} {n : ℕ} {ty : ℕ} {act : State → Bytes → State × Bool} (h : Kept z s) (h1 : ∀ y0 y1, Kept z y0 → Kept z (act y0 y1).1) :
    Kept z (State.ownDesc s n ty act) := by
  unfold State.ownDesc
  with_reducible
    repeat' (first
      | assumption | apply State.completeDesc_kept | apply State.directFail_kept | apply State.advance_kept | apply h1
      | (refine Kept.fst (by assumption) ?_) | split)

theorem State.waitCounter_kept {z : State} {s : State} {n : ℕ} (h : Kept z s) :
    Kept z (State.waitCounter s n) := by
  unfold State.waitCounter
  with_reducible
    repeat' (first
      | assumption | apply State.ownDesc_kept | intro _ _ _ | intro _ _ | intro _ | split)

theorem State.takeNotice_kept {z : State} {s : State} {n : ℕ} (h : Kept z s) :
    Kept z (State.takeNotice s n) := by
  unfold State.takeNotice
  try dsimp only
  with_reducible
    repeat' (first
      | assumption | apply State.enterSkip_kept | apply State.modTile_kept | intro _ _ _ | intro _ _ | intro _ | split)

theorem State.startTile_kept {z : State} {s : State} {n : ℕ} (h : Kept z s) :
    Kept z (State.startTile s n) := by
  unfold State.startTile
  with_reducible
    repeat' (first
      | assumption | apply State.retire_kept | apply State.setSeq_kept | split)

theorem State.waitMeridian_kept {z : State} {s : State} {n : ℕ} (h : Kept z s) :
    Kept z (State.waitMeridian s n) := by
  unfold State.waitMeridian
  try dsimp only
  with_reducible
    repeat' (first
      | assumption | apply State.bump_kept | apply State.ownDesc_kept | apply State.modTile_kept | intro _ _ _
      | intro _ _ | intro _ | split)

theorem State.issue_kept {z : State} {s : State} {n : ℕ} (h : Kept z s) :
    Kept z (State.issue s n) := by
  unfold State.issue
  try dsimp only
  with_reducible
    repeat' (first
      | assumption | apply State.setQueue_kept | apply State.completeDesc_kept | apply State.directFail_kept
      | apply State.advance_kept | split)

end Sys2Proof.Machine
end

