-- ==== Sys2Proof/Laws/KeptCollective.lean ====
section
/-!
SUPPORT. What the operations of Machine/Collective.lean keep.
-/

set_option linter.all false

namespace Sys2Proof.Machine

theorem State.countArrival_kept {z : State} {s : State} {n : ℕ} {slot : ℕ} {d : Bytes} {k : ℕ} (h : Kept z s) :
    Kept z (State.countArrival s n slot d k) := by
  unfold State.countArrival
  try dsimp only
  with_reducible
    repeat' (first
      | assumption | apply State.signal_kept | split)

theorem State.arrivalFails_kept {z : State} {s : State} {n : ℕ} {slot : ℕ} (h : Kept z s) :
    Kept z (State.arrivalFails s n slot) := by
  unfold State.arrivalFails
  with_reducible
    repeat' (first
      | assumption | apply State.stepFail_kept | intro _ _ _ | intro _ _ | intro _ | split)

theorem State.poisonArrived_kept {z : State} {s : State} {n : ℕ} {slot : ℕ} {addr : ℕ} (h : Kept z s) :
    Kept z (State.poisonArrived s n slot addr) := by
  unfold State.poisonArrived
  with_reducible
    repeat' (first
      | assumption | apply State.arrivalFails_kept | apply State.raise_kept)

theorem State.placeData_kept {z : State} {s : State} {n : ℕ} {slot : ℕ} {addr : ℕ} {len : ℕ} {b : Option Bytes} (h : Kept z s) :
    Kept z (State.placeData s n slot addr len b) := by
  unfold State.placeData
  with_reducible
    repeat' (first
      | assumption | apply State.arrivalFails_kept | apply State.poisonRange_kept | apply State.write_kept
      | apply State.raise_kept | apply State.gate_kept | apply State.poisonArrived_kept
      | (refine Kept.fst (by assumption) ?_) | split)

theorem State.combine_kept {z : State} {s : State} {n : ℕ} {e : PlanEntry} {d : Bytes} (h : Kept z s) :
    Kept z (State.combine s n e d) := by
  unfold State.combine
  try dsimp only
  with_reducible
    repeat' (first
      | assumption | apply State.draw_kept | apply State.bump_kept | apply State.countArrival_kept | apply State.placeData_kept | intro _ _ _
      | intro _ _ | intro _ | split)

theorem State.sendStream_kept {z : State} {s : State} {p : ℕ} {n : ℕ} {x : Send} {fmt : ℕ} {data : Option Bytes} {len : ℕ} (h : Kept z s) :
    Kept z (State.sendStream s p n x fmt data len) := by
  unfold State.sendStream
  try dsimp only
  with_reducible
    repeat' (first
      | assumption | apply State.sendSeq_kept | apply State.nonce_kept | apply Kept.foldl | intro _ _ _ | intro _ _
      | intro _ | split)

theorem State.setSends_kept {z : State} {s : State} {p : ℕ} {l : List Send} (h : Kept z s) :
    Kept z (State.setSends s p l) := by
  unfold State.setSends
  with_reducible
    repeat' (first
      | assumption | apply State.modLink_kept | intro _ _ _ | intro _ _ | intro _)

theorem State.noteLate_kept {z : State} {s : State} {x : Send} (h : Kept z s) :
    Kept z (State.noteLate s x) := by
  unfold State.noteLate
  with_reducible
    repeat' (first
      | assumption | apply State.bump_kept | split)

theorem State.pumpPort_kept {z : State} {s : State} {p : ℕ} {x2 : ℕ} (h : Kept z s) :
    Kept z (State.pumpPort s p x2) := by
  induction x2 generalizing s p with
  | zero =>
    unfold State.pumpPort
    try dsimp only
    with_reducible
      repeat' (first
        | assumption | apply State.sendSeq_kept | apply State.sendStream_kept | apply State.setSends_kept
        | apply State.noteLate_kept | intro _ _ _ | intro _ _ | intro _ | split)
  | succ y ih =>
    unfold State.pumpPort
    try dsimp only
    with_reducible
      repeat' (first
        | assumption | apply ih | apply State.sendSeq_kept | apply State.sendStream_kept | apply State.setSends_kept
        | apply State.noteLate_kept | intro _ _ _ | intro _ _ | intro _ | split)

theorem State.pump_kept {z : State} {s : State} (h : Kept z s) :
    Kept z (State.pump s) := by
  unfold State.pump
  with_reducible
    repeat' (first
      | assumption | apply State.pumpPort_kept | apply Kept.foldl | intro _ _ _ | intro _ _ | intro _)

theorem State.skipStart_kept {z : State} {s : State} {n : ℕ} (h : Kept z s) :
    Kept z (State.skipStart s n) := by
  unfold State.skipStart
  try dsimp only
  with_reducible
    repeat' (first
      | assumption | apply State.setHead_kept | split)

theorem State.collTile_kept {z : State} {s : State} {n : ℕ} {x2 : ℕ} (h : Kept z s) :
    Kept z (State.collTile s n x2) := by
  induction x2 generalizing s n with
  | zero =>
    unfold State.collTile
    try dsimp only
    with_reducible
      repeat' (first
        | assumption | apply State.pump_kept | apply State.complete_kept | apply State.skipStart_kept | split)
  | succ y ih =>
    unfold State.collTile
    try dsimp only
    with_reducible
      repeat' (first
        | assumption | apply ih | apply State.pump_kept | apply State.complete_kept | apply State.skipStart_kept | split)

theorem State.collectives_kept {z : State} {s : State} (h : Kept z s) :
    Kept z (State.collectives s) := by
  unfold State.collectives
  with_reducible
    repeat' (first
      | assumption | apply State.collTile_kept | apply Kept.foldl | intro _ _ _ | intro _ _ | intro _)

theorem State.addPiece_kept {z : State} {s : State} {n : ℕ} {e : PlanEntry} {d : Bytes} {q : ℕ} {b : Option Bytes} (h : Kept z s) :
    Kept z (State.addPiece s n e d q b) := by
  unfold State.addPiece
  with_reducible
    repeat' (first
      | assumption | apply State.combine_kept)

theorem State.deliver_kept {z : State} {s : State} {e : PlanEntry} {phase : ℕ} {g : ℕ} {t : ℕ} {b : Option Bytes} (h : Kept z s) :
    Kept z (State.deliver s e phase g t b) := by
  unfold State.deliver
  try dsimp only
  with_reducible
    repeat' (first
      | assumption | apply State.addPiece_kept | apply State.countArrival_kept | apply State.placeData_kept
      | intro _ _ _ | intro _ _ | intro _ | split)

theorem State.streamIn_kept {z : State} {s : State} {p : ℕ} {r : Rx} {t : ℕ} {b : Option Bytes} (h : Kept z s) :
    Kept z (State.streamIn s p r t b) := by
  unfold State.streamIn
  try dsimp only
  with_reducible
    repeat' (first
      | assumption | apply State.bump_kept | apply State.deliver_kept | split)

theorem State.clearColl_kept {z : State} {s : State} (h : Kept z s) :
    Kept z (State.clearColl s) := by
  unfold State.clearColl
  try dsimp only
  with_reducible
    repeat' (first
      | assumption | apply State.modLink_kept | apply Kept.foldl | intro _ _ _ | intro _ _ | intro _)

theorem State.ownPiece_kept {z : State} {s : State} {n : ℕ} {e : PlanEntry} {d : Bytes} (h : Kept z s) :
    Kept z (State.ownPiece s n e d) := by
  unfold State.ownPiece
  try dsimp only
  with_reducible
    repeat' (first
      | assumption | apply State.addPiece_kept | apply State.countArrival_kept | apply State.placeData_kept | split)

theorem State.openSlot_kept {z : State} {s : State} {slot : ℕ} (h : Kept z s) :
    Kept z (State.openSlot s slot) := by
  unfold State.openSlot
  try dsimp only
  with_reducible
    repeat' (first
      | assumption | apply State.modLink_kept | apply State.collectives_kept | apply Kept.foldl | intro _ _ _
      | intro _ _ | intro _ | split)

theorem State.collStart_kept {z : State} {s : State} {n : ℕ} {op : ℕ} {mem : MemReport} (h : Kept z s) :
    Kept z (State.collStart s n op mem) := by
  unfold State.collStart
  try dsimp only
  with_reducible
    repeat' (first
      | assumption | apply State.ownPiece_kept | apply State.collectives_kept | apply State.stepFail_kept
      | apply State.raise_kept | apply State.gate_kept | apply State.memReport_kept | apply State.setHead_kept
      | (refine Kept.fst (by assumption) ?_) | split)

end Sys2Proof.Machine
end

