-- ==== Sys2Proof/Laws/KeptDrill.lean ====
section
/-!
SUPPORT. What the operations of Machine/Drill.lean keep.
-/

set_option linter.all false

namespace Sys2Proof.Machine

theorem State.sample_kept {z : State} {s : State} {n : ℕ} {final : Bool} {mem : MemReport} {lanes : List ℕ} {accs : Bytes → List Acc} {body : State → Bytes → State} (h : Kept z s) (h1 : ∀ y0 y1, Kept z y0 → Kept z (body y0 y1)) :
    Kept z (State.sample s n final mem lanes accs body) := by
  unfold State.sample
  try dsimp only
  with_reducible
    repeat' (first
      | assumption | apply State.gated_kept | apply State.scratched_kept | apply State.complete_kept
      | apply State.memReport_kept | apply State.failHead_kept | apply h1 | intro _ _ _ | intro _ _ | intro _ | split)

theorem State.addResult_kept {z : State} {s : State} {r : LaneResult} (h : Kept z s) :
    Kept z (State.addResult s r) := by
  unfold State.addResult
  try dsimp only
  with_reducible
    repeat' (first
      | assumption | intro _ _ _ | intro _ _ | intro _)

theorem State.putChoice_kept {z : State} {s : State} {n : ℕ} {inst : Option ℕ} {d : Bytes} {l : ℕ} {c : Choice} (h : Kept z s) :
    Kept z (State.putChoice s n inst d l c) := by
  unfold State.putChoice
  try dsimp only
  with_reducible
    repeat' (first
      | assumption | apply State.bump_kept | apply State.draw_kept | apply State.write_kept | apply State.put_kept
      | apply State.putBit_kept | apply State.addResult_kept | split)

theorem State.sampleFinal_kept {z s : State} {n : Nat} {mem : MemReport} (h : Kept z s) :
    Kept z (s.sampleFinal n mem) := by
  unfold State.sampleFinal
  apply State.sample_kept h
  intro y d h
  refine Kept.foldl h ?_
  intro y d h
  exact State.putChoice_kept h

theorem State.sampleLocal_kept {z : State} {s : State} {n : ℕ} {mem : MemReport} (h : Kept z s) :
    Kept z (State.sampleLocal s n mem) := by
  unfold State.sampleLocal
  try dsimp only
  with_reducible
    repeat' (first
      | assumption | apply State.bump_kept | apply State.sample_kept | apply State.write_kept | intro _ _ _
      | intro _ _ | intro _)

end Sys2Proof.Machine
end

