-- ==== Sys2Proof/Laws/KeptAttention.lean ====
section
/-!
SUPPORT. What the operations of Machine/Attention.lean keep.
-/

set_option linter.all false

namespace Sys2Proof.Machine

theorem State.laneStatus_kept {z : State} {s : State} {d : Bytes} {l : ℕ} {b : ℕ} (h : Kept z s) :
    Kept z (State.laneStatus s d l b) := by
  unfold State.laneStatus
  try dsimp only
  with_reducible
    repeat' (first
      | assumption | apply State.writeNat_kept)

theorem State.nonfinite_kept {z : State} {s : State} {n : ℕ} {d : Bytes} {l : ℕ} (h : Kept z s) :
    Kept z (State.nonfinite s n d l) := by
  unfold State.nonfinite
  with_reducible
    repeat' (first
      | assumption | apply State.bump_kept | intro _ _ _ | intro _ _ | intro _)

theorem State.tellLane_kept {z : State} {s : State} {i : ℕ} {missed : List ℕ} {damaged : List ℕ} (h : Kept z s) :
    Kept z (State.tellLane s i missed damaged) := by
  unfold State.tellLane
  with_reducible
    repeat' (first
      | assumption | apply State.sendCtrl_kept | split)

theorem State.noteMiss_kept {z : State} {s : State} {i : ℕ} {set : ℕ} {lane : ℕ} {seqId : ℕ} (h : Kept z s) :
    Kept z (State.noteMiss s i set lane seqId) := by
  unfold State.noteMiss
  with_reducible
    repeat' (first
      | assumption | apply State.tellLane_kept | split)

theorem State.attendLane_kept {z : State} {s : State} {n : ℕ} {d : Bytes} {t : Bytes} {hLoc : ℕ} {alpha : Num} {e : ℕ × Bytes} (h : Kept z s) :
    Kept z (State.attendLane s n d t hLoc alpha e) := by
  unfold State.attendLane
  try dsimp only
  with_reducible
    repeat' (first
      | assumption | apply State.bump_kept | apply State.laneStatus_kept | apply State.write_kept
      | apply State.nonfinite_kept | apply State.noteMiss_kept | intro _ _ _ | intro _ _ | intro _ | split)

theorem State.labUse_kept {z : State} {s : State} {n : ℕ} {table : ℕ} {key : ℕ} (h : Kept z s) :
    Kept z (State.labUse s n table key) := by
  unfold State.labUse
  try dsimp only
  with_reducible
    repeat' (first
      | assumption | apply State.modTile_kept | apply State.wrapAdd_kept | intro _ _ _ | intro _ _ | intro _ | split)

theorem State.clearAttendSlots_kept {z : State} {s : State} {n : ℕ} {mask : ℕ} (h : Kept z s) :
    Kept z (State.clearAttendSlots s n mask) := by
  unfold State.clearAttendSlots
  with_reducible
    repeat' (first
      | assumption | apply State.setSlot_kept | apply Kept.foldl | intro _ _ _ | intro _ _ | intro _)

theorem State.noteDamage_kept {z : State} {s : State} {i : ℕ} {seqId : ℕ} (h : Kept z s) :
    Kept z (State.noteDamage s i seqId) := by
  unfold State.noteDamage
  with_reducible
    repeat' (first
      | assumption | apply State.tellLane_kept | split)

theorem State.kvDamage_kept {z : State} {s : State} {n : ℕ} {d : Bytes} {r : Bytes} {l : ℕ} {a : ℕ} {cause : ℕ} {index : ℕ} (h : Kept z s) :
    Kept z (State.kvDamage s n d r l a cause index) := by
  unfold State.kvDamage
  try dsimp only
  with_reducible
    repeat' (first
      | assumption | apply State.bump_kept | apply State.laneStatus_kept | apply State.raise_kept
      | apply State.put_kept | apply State.putBit_kept | apply State.noteDamage_kept | apply State.modTile_kept
      | intro _ _ _ | intro _ _ | intro _ | split)

theorem State.kvDamages_kept {z : State} {s : State} {n : ℕ} {d : Bytes} {r : Bytes} {l : ℕ} {b : Block} (h : Kept z s) :
    Kept z (State.kvDamages s n d r l b) := by
  unfold State.kvDamages
  try dsimp only
  with_reducible
    repeat' (first
      | assumption | apply State.kvDamage_kept | apply Kept.foldl | intro _ _ _ | intro _ _ | intro _ | split)

theorem State.mergeLane_kept {z : State} {s : State} {d : Bytes} {t : Bytes} {l : ℕ} (h : Kept z s) :
    Kept z (State.mergeLane s d t l) := by
  unfold State.mergeLane
  try dsimp only
  with_reducible
    repeat' (first
      | assumption | apply State.write_kept | apply Kept.foldl | intro _ _ _ | intro _ _ | intro _ | split)

theorem State.attendStep_kept {z : State} {n : ℕ} {d : Bytes} {k : ℕ} {s : State} {x : (ℕ × Bytes) × List LaneStep} (h : Kept z s) :
    Kept z (State.attendStep n d k s x) := by
  unfold State.attendStep
  try dsimp only
  with_reducible
    repeat' (first
      | assumption | apply State.kvDamages_kept | apply State.labUse_kept | split)

theorem State.attendGroup_kept {z : State} {s : State} {n : ℕ} {d : Bytes} {t : Bytes} {hLoc : ℕ} {lanes : List (ℕ × Bytes)} (h : Kept z s) :
    Kept z (State.attendGroup s n d t hLoc lanes) := by
  unfold State.attendGroup
  try dsimp only
  with_reducible
    repeat' (first
      | assumption | apply State.attendStep_kept | apply Kept.foldl | intro _ _ _ | intro _ _ | intro _)

theorem State.attendCounts_kept {z : State} {s : State} {n : ℕ} {mask : ℕ} {reps : List (ℕ × EngineReport)} (h : Kept z s) :
    Kept z (State.attendCounts s n mask reps) := by
  unfold State.attendCounts
  with_reducible
    repeat' (first
      | assumption | apply State.engineCounts_kept | apply Kept.foldl | intro _ _ _ | intro _ _ | intro _)

theorem State.attendReport_kept {z : State} {s : State} {n : ℕ} {clocks : ℕ} {mask : ℕ} {reps : List (ℕ × EngineReport)} {mem : MemReport} (h : Kept z s) :
    Kept z (State.attendReport s n clocks mask reps mem) := by
  unfold State.attendReport
  with_reducible
    repeat' (first
      | assumption | apply State.attendCounts_kept | apply State.memReport_kept | apply State.wrapAdd_kept)

theorem State.stageLane_kept {z : State} {s : State} {d : Bytes} {t : Bytes} {hLoc : ℕ} {e : ℕ × Bytes} (h : Kept z s) :
    Kept z (State.stageLane s d t hLoc e) := by
  unfold State.stageLane
  try dsimp only
  with_reducible
    repeat' (first
      | assumption | apply State.write_kept | split)

theorem State.attendRun_kept {z : State} {s : State} {n : ℕ} {hLoc : ℕ} {h0 : Queued} (h : Kept z s) :
    Kept z (State.attendRun s n hLoc h0) := by
  unfold State.attendRun
  try dsimp only
  with_reducible
    repeat' (first
      | assumption | apply State.draw_kept | apply State.failEvent_kept | apply State.stageLane_kept
      | apply State.complete_kept | apply State.attendLane_kept | apply State.clearAttendSlots_kept
      | apply State.attendGroup_kept | apply State.failHead_kept | apply State.setHead_kept | apply Kept.foldl
      | intro _ _ _ | intro _ _ | intro _ | split)

theorem State.attendGo_kept {z : State} {s : State} {n : ℕ} {h0 : Queued} (h : Kept z s) :
    Kept z (State.attendGo s n h0) := by
  unfold State.attendGo
  with_reducible
    repeat' (first
      | assumption | apply State.gated_kept | apply State.scratched_kept | apply State.attendRun_kept | intro _ _ _
      | intro _ _ | intro _)

theorem State.attend_kept {z : State} {s : State} {n : ℕ} {clocks : ℕ} {reps : List (ℕ × EngineReport)} {mem : MemReport} (h : Kept z s) :
    Kept z (State.attend s n clocks reps mem) := by
  unfold State.attend
  try dsimp only
  with_reducible
    repeat' (first
      | assumption | apply State.attendReport_kept | apply State.attendGo_kept | apply State.engineFault_kept
      | intro _ _ _ | intro _ _ | intro _ | split)

theorem State.attendMerge_kept {z : State} {s : State} {n : ℕ} {mem : MemReport} (h : Kept z s) :
    Kept z (State.attendMerge s n mem) := by
  unfold State.attendMerge
  try dsimp only
  with_reducible
    repeat' (first
      | assumption | apply State.mergeLane_kept | apply State.complete_kept | apply State.memReport_kept
      | apply Kept.foldl | intro _ _ _ | intro _ _ | intro _ | split)

end Sys2Proof.Machine
end

