-- ==== Sys2Proof/Laws/KeptPackage.lean ====
section
/-!
SUPPORT. What the operations of Machine/Package.lean keep.
-/

set_option linter.all false

namespace Sys2Proof.Machine

theorem State.segLose_kept {z : State} {s : State} {g : Seg} (h : Kept z s) :
    Kept z (State.segLose s g) := by
  unfold State.segLose
  with_reducible
    repeat' (first
      | assumption | apply State.zero_kept | apply State.setSeg_kept)

theorem State.segGo_kept {z : State} {s : State} {g : Seg} {want : ℕ} (h : Kept z s) :
    Kept z (State.segGo s g want) := by
  unfold State.segGo
  try dsimp only
  with_reducible
    repeat' (first
      | assumption | apply State.segLose_kept | apply State.setSeg_kept | apply State.modTile_kept | intro _ _ _
      | intro _ _ | intro _ | split)

theorem State.segAsk_kept {z : State} {s : State} {g : Seg} {want : ℕ} (h : Kept z s) :
    Kept z (State.segAsk s g want) := by
  unfold State.segAsk
  with_reducible
    repeat' (first
      | assumption | apply State.bump_kept | apply State.put_kept | apply State.segGo_kept | split)

theorem State.segPower_kept {z : State} {s : State} {n : ℕ} {ts : ℕ} {sp : ℕ} (h : Kept z s) :
    Kept z (State.segPower s n ts sp) := by
  unfold State.segPower
  try dsimp only
  with_reducible
    repeat' (first
      | assumption | apply State.segAsk_kept | apply Kept.foldl | intro _ _ _ | intro _ _ | intro _)

theorem State.granaryPerform_kept {z : State} {s : State} {n : ℕ} {line : ℕ} {a : GAccess} (h : Kept z s) :
    Kept z (State.granaryPerform s n line a) := by
  unfold State.granaryPerform
  try dsimp only
  with_reducible
    repeat' (first
      | assumption | apply State.atomPerform_kept | apply State.write_kept | apply State.useLine_kept
      | apply State.emit_kept | split)

theorem State.fillDone_kept {z : State} {s : State} {n : ℕ} {line : ℕ} {poison : Bool} (h : Kept z s) :
    Kept z (State.fillDone s n line poison) := by
  unfold State.fillDone
  try dsimp only
  with_reducible
    repeat' (first
      | assumption | apply State.countFarPoison_kept | apply State.poisonRange_kept | apply State.install_kept
      | apply State.modTile_kept | apply State.granaryPerform_kept | apply Kept.foldl | intro _ _ _ | intro _ _
      | intro _ | split)

theorem State.segWoken_kept {z : State} {s : State} {g : Seg} {off : Bool} (h : Kept z s) :
    Kept z (State.segWoken s g off) := by
  unfold State.segWoken
  try dsimp only
  with_reducible
    repeat' (first
      | assumption | apply State.zero_kept | apply State.setSeg_kept | apply State.modTile_kept
      | apply State.segGo_kept | intro _ _ _ | intro _ _ | intro _ | split)

theorem State.coreDirect_kept {z : State} {s : State} {addr : ℕ} {write : Option Bytes} (h : Kept z s) :
    Kept z (State.coreDirect s addr write) := by
  unfold State.coreDirect
  try dsimp only
  with_reducible
    repeat' (first
      | assumption | apply State.bump_kept | apply State.wake_kept | apply State.write_kept | apply State.emit_kept
      | intro _ _ _ | intro _ _ | intro _ | split)

theorem State.granaryAccess_kept {z : State} {s : State} {addr : ℕ} {write : Option Bytes} {tagFault : Bool} (h : Kept z s) :
    Kept z (State.granaryAccess s addr write tagFault) := by
  unfold State.granaryAccess
  try dsimp only
  with_reducible
    repeat' (first
      | assumption | apply State.coreDirect_kept | apply State.tagError_kept | apply State.modTile_kept
      | apply State.granaryPerform_kept | apply State.lookup_kept | intro _ _ _ | intro _ _ | intro _
      | (refine Kept.fst (by assumption) ?_) | split)

theorem State.scrub_kept {z : State} {s : State} {n : ℕ} {sp : Bool} {found : Option Bool} (h : Kept z s) :
    Kept z (State.scrub s n sp found) := by
  unfold State.scrub
  try dsimp only
  with_reducible
    repeat' (first
      | assumption | apply State.raise_kept | apply State.eccEvent_kept | apply State.modTile_kept | intro _ _ _
      | intro _ _ | intro _ | split)

end Sys2Proof.Machine
end

