-- ==== Sys2Proof/Laws/KeptPages.lean ====
section
/-!
SUPPORT. What the operations of Machine/Pages.lean keep.
-/

set_option linter.all false

namespace Sys2Proof.Machine

theorem KeptO.tryAll {β : Type} {z s : State} {f : State → β → Option State} {l : List β} (h : Kept z s)
    (hf : ∀ s x, Kept z s → KeptO z (f s x)) : KeptO z (Machine.tryAll f s l) := by
  induction l generalizing s with
  | nil => exact .of h
  | cons x l ih =>
    unfold Machine.tryAll
    split
    · rename_i t e
      exact ih ((hf s x h).kept t e)
    · exact .none z

theorem State.ownAlloc_kept {z s : State} {n size : Nat} (h : Kept z s) : KeptP z (s.ownAlloc n size) := by
  unfold State.ownAlloc
  exact KeptP.map fun _ => h

theorem State.ownFree_kept {z : State} {s : State} {a : ℕ} (h : Kept z s) :
    Kept z (State.ownFree s a) := by
  unfold State.ownFree
  with_reducible
    repeat' (first
      | assumption | intro _ _ _ | intro _ _ | intro _)

theorem State.setFile_kept {z : State} {s : State} {slot : ℕ} {f : Option KvFile} (h : Kept z s) :
    Kept z (State.setFile s slot f) := by
  unfold State.setFile
  assumption

theorem State.copyBytes_kept {z : State} {s : State} {src : ℕ} {dst : ℕ} {n : ℕ} (h : Kept z s) :
    Kept z (State.copyBytes s src dst n) := by
  unfold State.copyBytes
  try dsimp only
  with_reducible
    repeat' (first
      | assumption | apply State.poisonRange_kept | apply State.write_kept | apply Kept.foldl | intro _ _ _
      | intro _ _ | intro _)

theorem State.refOp_kept {z : State} {s : State} {n : ℕ} {tier : ℕ} {addr : ℕ} {op : ℕ} {data : ℕ} {cmp : ℕ} (h : Kept z s) :
    Kept z (State.refOp s n tier addr op data cmp).1 := by
  unfold State.refOp
  try dsimp only
  with_reducible
    repeat' (first
      | assumption | apply State.atomPerform_kept | apply State.install_kept | apply State.lookup_kept
      | (refine Kept.fst (by assumption) ?_) | split)

theorem State.refRead_kept {z : State} {s : State} {n : ℕ} {tier : ℕ} {addr : ℕ} (h : Kept z s) :
    Kept z (State.refRead s n tier addr).1 := by
  unfold State.refRead
  try dsimp only
  with_reducible
    repeat' (first
      | assumption | apply State.refOp_kept | (refine Kept.fst (by assumption) ?_) | split)

theorem State.setRef_kept {z : State} {s : State} {n : ℕ} {tier : ℕ} {addr : ℕ} {v : ℕ} (h : Kept z s) :
    Kept z (State.setRef s n tier addr v) := by
  unfold State.setRef
  try dsimp only
  with_reducible
    repeat' (first
      | assumption | apply State.refRead_kept | apply State.refOp_kept | (refine Kept.fst (by assumption) ?_) | split)

theorem State.pageIn_kept {z : State} {s : State} {n : ℕ} {tier : ℕ} {size : ℕ} {tenant : ℕ} {dawn : Bool} (h : Kept z s) :
    KeptP z (State.pageIn s n tier size tenant dawn) := by
  unfold State.pageIn
  try dsimp only
  with_reducible
    repeat' (first
      | assumption | apply State.setRef_kept | apply KeptP.of | apply KeptP.none | apply KeptO.mapPair
      | apply KeptO.mapState | apply KeptO.map | apply KeptP.mapPair | apply KeptP.map | intro _ _ _ | intro _ _
      | intro _ | (refine Kept.fst (by assumption) ?_) | split)

theorem State.mapEntries_kept {z : State} {s : State} {n : ℕ} {addr : ℕ} {f : ℕ → ℕ} (h : Kept z s) :
    Kept z (State.mapEntries s n addr f) := by
  unfold State.mapEntries
  try dsimp only
  with_reducible
    repeat' (first
      | assumption | apply State.writeNat_kept | apply Kept.foldl | intro _ _ _ | intro _ _ | intro _ | split)

theorem State.setPtes_kept {z : State} {s : State} {table : ℕ} {g : ℕ} {size : ℕ} {e : ℕ} (h : Kept z s) :
    Kept z (State.setPtes s table g size e) := by
  unfold State.setPtes
  with_reducible
    repeat' (first
      | assumption | apply State.writeNat_kept | apply Kept.foldl | intro _ _ _ | intro _ _ | intro _)

theorem State.copySlots_kept {z : State} {s : State} {n : ℕ} {tierA : ℕ} {a : ℕ} {tierB : ℕ} {b : ℕ} {len : ℕ} (h : Kept z s) :
    Kept z (State.copySlots s n tierA a tierB b len) := by
  unfold State.copySlots
  try dsimp only
  with_reducible
    repeat' (first
      | assumption | apply State.copyBytes_kept)

theorem State.freePage_kept {z : State} {s : State} {n : ℕ} {addr : ℕ} (h : Kept z s) :
    Kept z (State.freePage s n addr) := by
  unfold State.freePage
  with_reducible
    repeat' (first
      | assumption | intro _ _ _ | intro _ _ | intro _ | split)

theorem State.dropRef_kept {z : State} {s : State} {n : ℕ} {e : ℕ} {dawn : Bool} (h : Kept z s) :
    Kept z (State.dropRef s n e dawn) := by
  unfold State.dropRef
  try dsimp only
  with_reducible
    repeat' (first
      | assumption | apply State.mapEntries_kept | apply State.freePage_kept | apply State.refOp_kept | intro _ _ _
      | intro _ _ | intro _ | (refine Kept.fst (by assumption) ?_) | split)

theorem State.newPage_kept {z : State} {s : State} {n : ℕ} {size : ℕ} {tenant : ℕ} {dawn : Bool} {watermark : ℕ} (h : Kept z s) :
    KeptP z (State.newPage s n size tenant dawn watermark) := by
  unfold State.newPage
  try dsimp only
  with_reducible
    repeat' (first
      | assumption | apply State.pageIn_kept | apply KeptP.of | apply KeptP.none | apply KeptO.mapPair
      | apply KeptO.mapState | apply KeptO.map | apply KeptP.mapPair | apply KeptP.map | intro _ _ _ | intro _ _
      | intro _ | (refine Kept.fst (by assumption) ?_) | (refine Kept.somePair (by assumption) ?_)
      | (dsimp only [Kept]; refine Kept.parts (Kept.somePair (by assumption) ?_)) | split)

theorem State.closeFile_kept {z : State} {s : State} {slot : ℕ} (h : Kept z s) :
    Kept z (State.closeFile s slot) := by
  unfold State.closeFile
  try dsimp only
  with_reducible
    repeat' (first
      | assumption | apply State.ownFree_kept | apply State.dropRef_kept | apply State.setFile_kept | apply Kept.foldl
      | intro _ _ _ | intro _ _ | intro _ | split)

theorem State.dropHandle_kept {z : State} {s : State} {hslot : ℕ} (h : Kept z s) :
    Kept z (State.dropHandle s hslot) := by
  unfold State.dropHandle
  try dsimp only
  with_reducible
    repeat' (first
      | assumption | apply State.dropRef_kept | apply Kept.foldl | intro _ _ _ | intro _ _ | intro _ | split)

theorem State.privateSlot_kept {z : State} {s : State} {n : ℕ} {table : ℕ} {off : ℕ} {size : ℕ} {tenant : ℕ} {fmt : ℕ} {watermark : ℕ} {dawn : Bool} (h : Kept z s) :
    KeptP z (State.privateSlot s n table off size tenant fmt watermark dawn) := by
  unfold State.privateSlot
  try dsimp only
  with_reducible
    repeat' (first
      | assumption | apply State.setPtes_kept | apply State.newPage_kept | apply KeptP.of | apply KeptP.none
      | apply KeptO.mapPair | apply KeptO.mapState | apply KeptO.map | apply KeptP.mapPair | apply KeptP.map
      | intro _ _ _ | intro _ _ | intro _ | (refine Kept.fst (by assumption) ?_)
      | (refine Kept.somePair (by assumption) ?_)
      | (dsimp only [Kept]; refine Kept.parts (Kept.somePair (by assumption) ?_)) | split)

theorem State.newTables_kept {z : State} {s : State} {areas : List Reserve} {g : Geo} {maxLen : ℕ} {x4 : List ℕ} (h : Kept z s) :
    KeptP z (State.newTables s areas g maxLen x4) := by
  induction x4 generalizing s areas g maxLen with
  | nil =>
    unfold State.newTables
    try dsimp only
    with_reducible
      repeat' (first
        | assumption | apply State.zero_kept | apply KeptP.of | apply KeptP.none | apply KeptO.mapPair
        | apply KeptO.mapState | apply KeptO.map | apply KeptP.mapPair | apply KeptP.map | intro _ _ _ | intro _ _
        | intro _ | (refine Kept.fst (by assumption) ?_) | split)
  | cons y ys ih =>
    unfold State.newTables
    try dsimp only
    with_reducible
      repeat' (first
        | assumption | apply ih | apply State.zero_kept | apply KeptP.of | apply KeptP.none | apply KeptO.mapPair
        | apply KeptO.mapState | apply KeptO.map | apply KeptP.mapPair | apply KeptP.map | intro _ _ _ | intro _ _
        | intro _ | (refine Kept.fst (by assumption) ?_) | split)

theorem State.takeRef_kept {z : State} {s : State} {n : ℕ} {e : ℕ} {dawn : Bool} (h : Kept z s) :
    Kept z (State.takeRef s n e dawn) := by
  unfold State.takeRef
  try dsimp only
  with_reducible
    repeat' (first
      | assumption | apply State.mapEntries_kept | apply State.refOp_kept | intro _ _ _ | intro _ _ | intro _
      | (refine Kept.fst (by assumption) ?_) | split)

theorem State.shareBlocks_kept {z : State} {s : State} {h0 : KvHandle} {g : Geo} {f : KvFile} {share : ℕ} {n : ℕ} {table : ℕ} {x : ℕ} {i : ℕ} (h : Kept z s) :
    KeptO z (State.shareBlocks s h0 g f share n table x i) := by
  unfold State.shareBlocks
  try dsimp only
  with_reducible
    repeat' (first
      | assumption | apply State.privateSlot_kept | apply State.takeRef_kept | apply State.setPtes_kept
      | apply State.copySlots_kept | apply KeptO.of | apply KeptO.none | apply KeptO.mapPair | apply KeptO.mapState
      | apply KeptO.map | apply KeptP.mapPair | apply KeptP.map | intro _ _ _ | intro _ _ | intro _
      | (refine Kept.somePair (by assumption) ?_)
      | (dsimp only [Kept]; refine Kept.parts (Kept.somePair (by assumption) ?_)) | split)

theorem State.openFile_kept {z : State} {s : State} {slot : ℕ} {f : KvFile} {h0 : Option KvHandle} (h : Kept z s) :
    KeptO z (State.openFile s slot f h0) := by
  unfold State.openFile
  try dsimp only
  with_reducible
    repeat' (first
      | assumption | apply State.privateSlot_kept | apply State.newTables_kept | apply State.shareBlocks_kept
      | apply State.setFile_kept | apply KeptO.of | apply KeptO.none | apply KeptO.tryAll | apply KeptO.mapPair
      | apply KeptO.mapState | apply KeptO.map | apply KeptP.mapPair | apply KeptP.map | intro _ _ _ | intro _ _
      | intro _ | (refine Kept.ofSome (by assumption) ?_) | (refine Kept.somePair (by assumption) ?_)
      | (dsimp only [Kept]; refine Kept.parts (Kept.somePair (by assumption) ?_))
      | (dsimp only [Kept]; refine Kept.parts (Kept.ofSome (by assumption) ?_)) | split)

theorem State.closeFileOf_kept {z : State} {s : State} {id : ℕ} (h : Kept z s) :
    Kept z (State.closeFileOf s id) := by
  unfold State.closeFileOf
  with_reducible
    repeat' (first
      | assumption | apply State.closeFile_kept | split)

theorem State.charge_kept {z : State} {s : State} {n : ℕ} {tenant : ℕ} {es : List ℕ} (h : Kept z s) :
    Kept z (State.charge s n tenant es) := by
  unfold State.charge
  with_reducible
    repeat' (first
      | assumption | intro _ _ _ | intro _ _ | intro _ | split)

theorem State.makeHandle_kept {z : State} {s : State} {hslot : ℕ} {slot : ℕ} {tenant : ℕ} {len : ℕ} (h : Kept z s) :
    Kept z (State.makeHandle s hslot slot tenant len) := by
  unfold State.makeHandle
  try dsimp only
  with_reducible
    repeat' (first
      | assumption | apply State.takeRef_kept | apply State.charge_kept | apply Kept.foldl | intro _ _ _ | intro _ _
      | intro _ | split)

end Sys2Proof.Machine
end

