-- ==== Sys2Proof/Laws/KeptProtect.lean ====
section
/-!
SUPPORT. What the operations of Machine/Protect.lean keep.
-/

set_option linter.all false

namespace Sys2Proof.Machine

theorem State.protectAll_kept {z : State} {s : State} (h : Kept z s) :
    Kept z (State.protectAll s) := by
  unfold State.protectAll
  try dsimp only
  with_reducible
    repeat' (first
      | assumption | apply State.draw_kept | apply State.put_kept | apply Kept.foldl | intro _ _ _ | intro _ _
      | intro _)

theorem State.unprotect_kept {z : State} {s : State} (h : Kept z s) :
    Kept z (State.unprotect s) := by
  unfold State.unprotect
  with_reducible
    repeat' (first
      | assumption | apply State.put_kept)

theorem State.violation_kept {z : State} {s : State} {v : ℕ × ℕ} {req : Option ℕ} {a : ℕ} {src : ℕ} {write : Bool} (h : Kept z s) :
    Kept z (State.violation s v req a src write) := by
  unfold State.violation
  try dsimp only
  with_reducible
    repeat' (first
      | assumption | apply State.bump_kept | apply State.put_kept | apply State.putBit_kept | split)

theorem State.writeFor_kept {z : State} {s : State} {req : Option ℕ} {src : ℕ} {a : ℕ} {bs : Bytes} (h : Kept z s) :
    Kept z (State.writeFor s req src a bs) := by
  unfold State.writeFor
  with_reducible
    repeat' (first
      | assumption | apply State.write_kept | apply State.passLine_kept | apply State.violation_kept
      | apply Kept.foldl | intro _ _ _ | intro _ _ | intro _ | split)

theorem State.readFor_kept {z : State} {s : State} {req : Option ℕ} {src : ℕ} {a : ℕ} {n : ℕ} (h : Kept z s) :
    Kept z (State.readFor s req src a n).1 := by
  unfold State.readFor
  with_reducible
    repeat' (first
      | assumption | apply State.passLine_kept | apply State.violation_kept | apply Kept.foldl | apply Kept.foldlPair
      | intro _ _ _ | intro _ _ | intro _ | (refine Kept.fst (by assumption) ?_) | split)

end Sys2Proof.Machine
end

