-- ==== Sys2Proof/Laws/KeptKv.lean ====
section
/-!
SUPPORT. What the operations of Machine/Kv.lean keep.
-/

set_option linter.all false

namespace Sys2Proof.Machine

theorem State.putDescs_kept {z : State} {s : State} {i : ℕ} {a : ℕ} {stride : ℕ} {l : List (List Bytes)} (h : Kept z s) :
    Kept z (State.putDescs s i a stride l) := by
  unfold State.putDescs
  try dsimp only
  with_reducible
    repeat' (first
      | assumption | apply State.write_kept | apply Kept.foldl | intro _ _ _ | intro _ _ | intro _)

theorem State.writeDescs_kept {z : State} {s : State} {i : ℕ} {n : ℕ} {stride : ℕ} {l : List (List Bytes)} (h : Kept z s) :
    Kept z (State.writeDescs s i n stride l).1 := by
  unfold State.writeDescs
  with_reducible
    repeat' (first
      | assumption | apply State.ownAlloc_kept | apply State.putDescs_kept | (refine Kept.fst (by assumption) ?_)
      | (refine Kept.somePair (by assumption) ?_)
      | (dsimp only [Kept]; refine Kept.parts (Kept.somePair (by assumption) ?_)) | split)

theorem State.laneBytes_kept {z : State} {s : State} {i : ℕ} {n : ℕ} {share : ℕ} {g : Geo} {e : LaneEntry} (h : Kept z s) :
    Kept z (State.laneBytes s i n share g e).1 := by
  unfold State.laneBytes
  try dsimp only
  with_reducible
    repeat' (first
      | assumption | apply State.writeDescs_kept | apply Kept.foldl | apply Kept.foldlPair | apply KeptO.getD
      | intro _ _ _ | intro _ _ | intro _ | (refine Kept.fst (by assumption) ?_) | split)

theorem State.recordBytes_kept {z : State} {s : State} {i : ℕ} {e : LaneEntry} (h : Kept z s) :
    Kept z (State.recordBytes s i e).1 := by
  unfold State.recordBytes
  try dsimp only
  with_reducible
    repeat' (first
      | assumption | apply State.write_kept | intro _ _ _ | intro _ _ | intro _ | (refine Kept.fst (by assumption) ?_)
      | split)

theorem State.writeTable_kept {z : State} {s : State} {i : ℕ} {n : ℕ} {share : ℕ} {g : Geo} {x : Inst} {es : List LaneEntry} {set : ℕ} {a : ℕ} (h : Kept z s) :
    Kept z (State.writeTable s i n share g x es set a) := by
  unfold State.writeTable
  try dsimp only
  with_reducible
    repeat' (first
      | assumption | apply State.laneBytes_kept | apply State.write_kept | apply State.recordBytes_kept
      | apply Kept.foldl | intro _ _ _ | intro _ _ | intro _ | (refine Kept.fst (by assumption) ?_) | split)

theorem State.park_kept {z : State} {s : State} {slot : ℕ} (h : Kept z s) :
    Kept z (State.park s slot) := by
  unfold State.park
  with_reducible
    repeat' (first
      | assumption | apply State.setFile_kept | apply State.ownAlloc_kept | apply State.copyBytes_kept
      | (refine Kept.somePair (by assumption) ?_)
      | (dsimp only [Kept]; refine Kept.parts (Kept.somePair (by assumption) ?_)) | split)

theorem State.stageIn_kept {z : State} {s : State} {slot : ℕ} {busy : List ℕ} {x3 : ℕ} (h : Kept z s) :
    Kept z (State.stageIn s slot busy x3) := by
  induction x3 generalizing s slot busy with
  | zero =>
    unfold State.stageIn
    try dsimp only
    with_reducible
      repeat' (first
        | assumption | apply State.ownFree_kept | apply State.setFile_kept | apply State.copyBytes_kept
        | apply State.park_kept | split)
  | succ y ih =>
    unfold State.stageIn
    try dsimp only
    with_reducible
      repeat' (first
        | assumption | apply ih | apply State.ownFree_kept | apply State.setFile_kept | apply State.copyBytes_kept
        | apply State.park_kept | split)

theorem State.writeLanes_kept {z : State} {s : State} {i : ℕ} {es : List LaneEntry} (h : Kept z s) :
    Kept z (State.writeLanes s i es) := by
  unfold State.writeLanes
  try dsimp only
  with_reducible
    repeat' (first
      | assumption | apply State.write_kept | apply State.ownFree_kept | apply State.writeTable_kept
      | apply State.stageIn_kept | apply Kept.foldl | intro _ _ _ | intro _ _ | intro _ | split)

theorem State.putPlot_kept {z : State} {s : State} {pool : ℕ × ℕ} {slot : ℕ} {off : ℕ} {b : Bytes} (h : Kept z s) :
    Kept z (State.putPlot s pool slot off b) := by
  unfold State.putPlot
  with_reducible
    repeat' (first
      | assumption | apply State.write_kept)

theorem State.flushSlot_kept {z : State} {s : State} {n : ℕ} {share : ℕ} {table : ℕ} {off : ℕ} {g : Geo} {f : KvFile} (h : Kept z s) :
    KeptP z (State.flushSlot s n share table off g f) := by
  unfold State.flushSlot
  try dsimp only
  with_reducible
    repeat' (first
      | assumption | apply State.bump_kept | apply State.pageIn_kept | apply State.mapEntries_kept
      | apply State.setPtes_kept | apply State.refRead_kept | apply State.copySlots_kept | apply State.dropRef_kept
      | apply State.newPage_kept | apply KeptP.of | apply KeptP.none | apply Kept.foldl | apply Kept.foldlPair
      | apply KeptO.mapPair | apply KeptO.mapState | apply KeptO.map | apply KeptP.mapPair | apply KeptP.map
      | apply KeptO.foldl | apply KeptP.foldl | intro _ _ _ | intro _ _ | intro _
      | (refine Kept.fst (by assumption) ?_) | (refine Kept.somePair (by assumption) ?_)
      | (dsimp only [Kept]; refine Kept.parts (Kept.somePair (by assumption) ?_)) | split)

theorem State.flushHead_kept {z : State} {s : State} {n : ℕ} {share : ℕ} {table : ℕ} {stage : ℕ} {j : ℕ} {i : ℕ} {g : Geo} {f : KvFile} {x : ℕ} (h : Kept z s) :
    KeptO z (State.flushHead s n share table stage j i g f x) := by
  unfold State.flushHead
  try dsimp only
  with_reducible
    repeat' (first
      | assumption | apply State.draw_kept | apply State.bump_kept | apply State.putPlot_kept | apply State.flushSlot_kept | apply KeptO.of
      | apply KeptO.none | apply Kept.foldl | apply Kept.foldlPair | apply KeptO.mapPair | apply KeptO.mapState
      | apply KeptO.map | apply KeptP.mapPair | apply KeptP.map | apply KeptO.foldl | apply KeptP.foldl | intro _ _ _
      | intro _ _ | intro _ | (refine Kept.fst (by assumption) ?_) | (refine Kept.somePair (by assumption) ?_)
      | (dsimp only [Kept]; refine Kept.parts (Kept.somePair (by assumption) ?_)) | split)

theorem State.flushSeq_kept {z : State} {s : State} {slot : ℕ} {f : KvFile} (h : Kept z s) :
    Kept z (State.flushSeq s slot f) := by
  unfold State.flushSeq
  try dsimp only
  with_reducible
    repeat' (first
      | assumption | apply State.bump_kept | apply State.setFile_kept | apply State.flushHead_kept
      | apply KeptO.tryAll | apply KeptO.getD | intro _ _ _ | intro _ _ | intro _
      | (refine Kept.ofSome (by assumption) ?_)
      | (dsimp only [Kept]; refine Kept.parts (Kept.ofSome (by assumption) ?_)) | split)

theorem State.flushItem_kept {z : State} {s : State} (h : Kept z s) :
    Kept z (State.flushItem s) := by
  unfold State.flushItem
  with_reducible
    repeat' (first
      | assumption | apply State.flushSeq_kept | apply Kept.foldl | intro _ _ _ | intro _ _ | intro _ | split)

theorem State.commitFiles_kept {z : State} {s : State} {inst : ℕ} {kept : List ℕ} (h : Kept z s) :
    Kept z (State.commitFiles s inst kept) := by
  unfold State.commitFiles
  with_reducible
    repeat' (first
      | assumption | apply State.setFile_kept | apply Kept.foldl | intro _ _ _ | intro _ _ | intro _ | split)

theorem State.touchPages_kept {z : State} {s : State} {f : KvFile} (h : Kept z s) :
    Kept z (State.touchPages s f) := by
  unfold State.touchPages
  try dsimp only
  with_reducible
    repeat' (first
      | assumption | apply Kept.foldl | intro _ _ _ | intro _ _ | intro _ | split)

theorem State.touchLanes_kept {z : State} {s : State} {inst : ℕ} (h : Kept z s) :
    Kept z (State.touchLanes s inst) := by
  unfold State.touchLanes
  with_reducible
    repeat' (first
      | assumption | apply State.touchPages_kept | apply Kept.foldl | intro _ _ _ | intro _ _ | intro _ | split)

theorem State.switchCopies_kept {z : State} {s : State} (h : Kept z s) :
    Kept z (State.switchCopies s) := by
  unfold State.switchCopies
  try dsimp only
  with_reducible
    repeat' (first
      | assumption | apply State.bump_kept | apply State.mapEntries_kept | apply State.refRead_kept
      | apply State.setRef_kept | apply Kept.foldl | intro _ _ _ | intro _ _ | intro _
      | (refine Kept.fst (by assumption) ?_) | split)

theorem State.movePage_kept {z : State} {s : State} {p : KvPage} {tier : ℕ} (h : Kept z s) :
    Kept z (State.movePage s p tier) := by
  unfold State.movePage
  with_reducible
    repeat' (first
      | assumption | apply State.mapEntries_kept | intro _ _ _ | intro _ _ | intro _ | split)

theorem State.spillItem_kept {z : State} {s : State} (h : Kept z s) :
    Kept z (State.spillItem s) := by
  unfold State.spillItem
  try dsimp only
  with_reducible
    repeat' (first
      | assumption | apply State.movePage_kept | apply Kept.foldl | intro _ _ _ | intro _ _ | intro _ | split)

theorem State.prefetchItem_kept {z : State} {s : State} {slots : List ℕ} (h : Kept z s) :
    Kept z (State.prefetchItem s slots) := by
  unfold State.prefetchItem
  with_reducible
    repeat' (first
      | assumption | apply State.movePage_kept | apply Kept.foldl | intro _ _ _ | intro _ _ | intro _ | split)

theorem State.startBlind_kept {z : State} {s : State} (h : Kept z s) :
    Kept z (State.startBlind s) := by
  unfold State.startBlind
  with_reducible
    repeat' (first
      | assumption | apply State.noteMiss_kept | apply Kept.foldl | intro _ _ _ | intro _ _ | intro _ | split)

theorem State.startMisses_kept {z : State} {s : State} (h : Kept z s) :
    Kept z (State.startMisses s) := by
  unfold State.startMisses
  with_reducible
    repeat' (first
      | assumption | apply State.bump_kept | apply State.noteMiss_kept | apply Kept.foldl | intro _ _ _ | intro _ _
      | intro _)

theorem State.copyEnds_kept {z : State} {s : State} {n : ℕ} {addr : ℕ} (h : Kept z s) :
    Kept z (State.copyEnds s n addr) := by
  unfold State.copyEnds
  try dsimp only
  with_reducible
    repeat' (first
      | assumption | apply State.countFarPoison_kept | apply State.copySlots_kept | intro _ _ _ | intro _ _ | intro _
      | split)

end Sys2Proof.Machine
end

