-- ==== Sys2Proof/Laws/KeptServing.lean ====
section
/-!
SUPPORT. What the operations of Machine/Serving.lean keep.
-/

set_option linter.all false

namespace Sys2Proof.Machine

theorem State.setSeqn_kept {z : State} {s : State} {id : ℕ} {q : Option Seq} (h : Kept z s) :
    Kept z (State.setSeqn s id q) := by
  unfold State.setSeqn
  assumption

theorem State.retireSeq_kept {z : State} {s : State} {id : ℕ} {th : ℕ} {st : Status} (h : Kept z s) :
    Kept z (State.retireSeq s id th st) := by
  unfold State.retireSeq
  try dsimp only
  with_reducible
    repeat' (first
      | assumption | apply State.setSeqn_kept | apply State.finish_kept | intro _ _ _ | intro _ _ | intro _ | split)

theorem State.closeSeq_kept {z : State} {s : State} {id : ℕ} {th : ℕ} (h : Kept z s) :
    Kept z (State.closeSeq s id th) := by
  unfold State.closeSeq
  try dsimp only
  with_reducible
    repeat' (first
      | assumption | apply State.setSeqn_kept | apply State.retireSeq_kept | split)

theorem State.modSeq_kept {z : State} {s : State} {id : ℕ} {f : Seq → Seq} (h : Kept z s) :
    Kept z (State.modSeq s id f) := by
  unfold State.modSeq
  with_reducible
    repeat' (first
      | assumption | apply State.setSeqn_kept | split)

theorem State.suspend_kept {z : State} {s : State} {i : ℕ} {th : ℕ} (h : Kept z s) :
    Kept z (State.suspend s i th) := by
  unfold State.suspend
  try dsimp only
  with_reducible
    repeat' (first
      | assumption | apply State.put_kept | apply State.retireSeq_kept | apply State.modSeq_kept | apply Kept.foldl
      | intro _ _ _ | intro _ _ | intro _ | split)

theorem State.retireLate_kept {z : State} {s : State} {id : ℕ} {th : ℕ} (h : Kept z s) :
    Kept z (State.retireLate s id th) := by
  unfold State.retireLate
  with_reducible
    repeat' (first
      | assumption | apply State.bump_kept | apply State.retireSeq_kept)

theorem State.noteHeld_kept {z : State} {s : State} (h : Kept z s) :
    Kept z (State.noteHeld s) := by
  unfold State.noteHeld
  with_reducible
    repeat' (first
      | assumption | apply State.bump_kept | intro _ _ _ | intro _ _ | intro _ | split)

theorem State.deliverToken_kept {z : State} {s : State} {id : ℕ} {t : TokenRec} (h : Kept z s) :
    Kept z (State.deliverToken s id t) := by
  unfold State.deliverToken
  with_reducible
    repeat' (first
      | assumption | apply State.writeTr_kept | apply State.modSeq_kept | intro _ _ _ | intro _ _ | intro _ | split)

theorem State.countToken_kept {z : State} {s : State} {id : ℕ} {t : ℕ} (h : Kept z s) :
    Kept z (State.countToken s id t) := by
  unfold State.countToken
  with_reducible
    repeat' (first
      | assumption | apply State.bump_kept | apply State.modSeq_kept | intro _ _ _ | intro _ _ | intro _ | split)

theorem State.giveToken_kept {z : State} {s : State} {th : ℕ} {e : LaneEntry} {n : ℕ} {q : Seq} {x : Request} {t : ℕ} (h : Kept z s) :
    Kept z (State.giveToken s th e n q x t) := by
  unfold State.giveToken
  try dsimp only
  with_reducible
    repeat' (first
      | assumption | apply State.deliverToken_kept | apply State.countToken_kept | apply State.retireLate_kept
      | apply State.retireSeq_kept | apply State.modSeq_kept | intro _ _ _ | intro _ _ | intro _ | split)

theorem State.failLane_kept {z : State} {s : State} {id : ℕ} (h : Kept z s) :
    Kept z (State.failLane s id) := by
  unfold State.failLane
  with_reducible
    repeat' (first
      | assumption | apply State.modSeq_kept | intro _ _ _ | intro _ _ | intro _)

theorem State.settleLane_kept {z : State} {s : State} {th : ℕ} {e : LaneEntry} {n : ℕ} {kept : Bool} {r : LaneEnd} (h : Kept z s) :
    Kept z (State.settleLane s th e n kept r) := by
  unfold State.settleLane
  try dsimp only
  with_reducible
    repeat' (first
      | assumption | apply State.giveToken_kept | apply State.retireLate_kept | apply State.failLane_kept
      | apply State.retireSeq_kept | apply State.modSeq_kept | intro _ _ _ | intro _ _ | intro _ | split)

theorem State.settleOpen_kept {z : State} {s : State} {th : ℕ} {got : ℕ → LaneEntry → Option (Bool × LaneEnd)} (h : Kept z s) :
    Kept z (State.settleOpen s th got) := by
  unfold State.settleOpen
  try dsimp only
  with_reducible
    repeat' (first
      | assumption | apply State.settleLane_kept | apply Kept.foldl | intro _ _ _ | intro _ _ | intro _ | split)

theorem State.drainHeld_kept {z : State} {s : State} {id : ℕ} {x2 : ℕ} (h : Kept z s) :
    Kept z (State.drainHeld s id x2) := by
  induction x2 generalizing s id with
  | zero =>
    unfold State.drainHeld
    with_reducible
      repeat' (first
        | assumption | apply State.writeTr_kept | apply State.modSeq_kept | intro _ _ _ | intro _ _ | intro _ | split)
  | succ y ih =>
    unfold State.drainHeld
    with_reducible
      repeat' (first
        | assumption | apply ih | apply State.writeTr_kept | apply State.modSeq_kept | intro _ _ _ | intro _ _ | intro _
        | split)

theorem State.drainAll_kept {z : State} {s : State} (h : Kept z s) :
    Kept z (State.drainAll s) := by
  unfold State.drainAll
  with_reducible
    repeat' (first
      | assumption | apply State.drainHeld_kept | apply Kept.foldl | intro _ _ _ | intro _ _ | intro _)

theorem State.tellLead_kept {z : State} {s : State} {i : ℕ} {kept : List ℕ} (h : Kept z s) :
    Kept z (State.tellLead s i kept) := by
  unfold State.tellLead
  try dsimp only
  with_reducible
    repeat' (first
      | assumption | apply State.sendCtrl_kept | intro _ _ _ | intro _ _ | intro _ | split)

theorem State.memberCommit_kept {z : State} {s : State} {i : ℕ} (h : Kept z s) :
    Kept z (State.memberCommit s i) := by
  unfold State.memberCommit
  try dsimp only
  with_reducible
    repeat' (first
      | assumption | apply State.commitFiles_kept | apply State.tellLead_kept | apply State.touchLanes_kept | split)

theorem State.countRun_kept {z : State} {s : State} {i : ℕ} (h : Kept z s) :
    Kept z (State.countRun s i) := by
  unfold State.countRun
  with_reducible
    repeat' (first
      | assumption | apply State.bump_kept | apply State.put_kept | split)

theorem State.tokenItem_kept {z : State} {s : State} {th : ℕ} (h : Kept z s) :
    Kept z (State.tokenItem s th) := by
  unfold State.tokenItem
  try dsimp only
  with_reducible
    repeat' (first
      | assumption | apply State.settleOpen_kept | apply State.memberCommit_kept | apply State.countRun_kept
      | apply Kept.foldl | intro _ _ _ | intro _ _ | intro _ | split)

theorem State.countBound_kept {z : State} {s : State} {th : ℕ} (h : Kept z s) :
    Kept z (State.countBound s th) := by
  unfold State.countBound
  with_reducible
    repeat' (first
      | assumption | apply State.bump_kept | split)

theorem State.expire_kept {z : State} {s : State} {th : ℕ} {stepping : List ℕ} (h : Kept z s) :
    Kept z (State.expire s th stepping) := by
  unfold State.expire
  with_reducible
    repeat' (first
      | assumption | apply State.retireLate_kept | apply Kept.foldl | intro _ _ _ | intro _ _ | intro _ | split)

theorem State.retireDamaged_kept {z : State} {s : State} {th : ℕ} (h : Kept z s) :
    Kept z (State.retireDamaged s th) := by
  unfold State.retireDamaged
  with_reducible
    repeat' (first
      | assumption | apply State.retireSeq_kept | apply State.modSeq_kept | apply Kept.foldl | intro _ _ _ | intro _ _
      | intro _ | split)

theorem State.exhaust_kept {z : State} {s : State} {id : ℕ} {th : ℕ} (h : Kept z s) :
    Kept z (State.exhaust s id th) := by
  unfold State.exhaust
  try dsimp only
  with_reducible
    repeat' (first
      | assumption | apply State.raise_kept | apply State.retireSeq_kept | intro _ _ _ | intro _ _ | intro _ | split)

theorem State.degrade_kept {z : State} {s : State} {i : ℕ} {th : ℕ} (h : Kept z s) :
    Kept z (State.degrade s i th) := by
  unfold State.degrade
  try dsimp only
  with_reducible
    repeat' (first
      | assumption | apply State.bump_kept | apply State.suspend_kept | apply State.raise_kept | apply State.put_kept
      | split)

theorem State.retireItem_kept {z : State} {s : State} {th : ℕ} {ended : Bool} (h : Kept z s) :
    Kept z (State.retireItem s th ended) := by
  unfold State.retireItem
  try dsimp only
  with_reducible
    repeat' (first
      | assumption | apply State.expire_kept | apply State.retireDamaged_kept | apply State.exhaust_kept
      | apply State.degrade_kept | apply Kept.foldl | intro _ _ _ | intro _ _ | intro _ | split)

theorem State.endStep_kept {z : State} {s : State} (h : Kept z s) :
    Kept z (State.endStep s) := by
  unfold State.endStep
  try dsimp only
  with_reducible
    repeat' (first
      | assumption | apply State.settleOpen_kept)

end Sys2Proof.Machine
end

