-- ==== Sys2Proof/Laws/KeptLanes.lean ====
section
/-!
SUPPORT. What the operations of Machine/Lanes.lean keep.
-/

set_option linter.all false

namespace Sys2Proof.Machine

theorem State.setLanes_kept {z : State} {s : State} {i : ℕ} {l : List LaneEntry} (h : Kept z s) :
    Kept z (State.setLanes s i l) := by
  unfold State.setLanes
  with_reducible
    repeat' (first
      | assumption | apply State.writeLanes_kept)

theorem State.laneAcceptIn_kept {z : State} {s : State} {i : ℕ} {k : ℕ} (h : Kept z s) :
    Kept z (State.laneAcceptIn s i k) := by
  unfold State.laneAcceptIn
  with_reducible
    repeat' (first
      | assumption | apply State.setLanes_kept | split)

theorem State.takeCounts_kept {z : State} {s : State} {e : LaneEntry} (h : Kept z s) :
    Kept z (State.takeCounts s e) := by
  unfold State.takeCounts
  try dsimp only
  with_reducible
    repeat' (first
      | assumption | apply State.flushSeq_kept | apply State.setFile_kept | split)

theorem State.clearLanes_kept {z : State} {s : State} (h : Kept z s) :
    Kept z (State.clearLanes s) := by
  unfold State.clearLanes
  with_reducible
    repeat' (first
      | assumption | apply State.setLanes_kept | apply Kept.foldl | intro _ _ _ | intro _ _ | intro _)

theorem State.countTenant_kept {z : State} {s : State} (h : Kept z s) :
    Kept z (State.countTenant s) := by
  unfold State.countTenant
  try dsimp only
  with_reducible
    repeat' (first
      | assumption | apply State.put_kept | apply State.putBit_kept | apply Kept.foldl | intro _ _ _ | intro _ _
      | intro _ | split)

theorem State.bindDawn_kept {z : State} {s : State} {id : ℕ} {q : Seq} (h : Kept z s) :
    KeptO z (State.bindDawn s id q) := by
  unfold State.bindDawn
  try dsimp only
  with_reducible
    repeat' (first
      | assumption | apply State.modSeq_kept | apply KeptO.of | apply KeptO.none | intro _ _ _ | intro _ _ | intro _
      | split)

theorem State.laneTableIn_kept {z : State} {s : State} {src : ℕ} {t : LaneTable} (h : Kept z s) :
    Kept z (State.laneTableIn s src t) := by
  unfold State.laneTableIn
  try dsimp only
  with_reducible
    repeat' (first
      | assumption | apply State.sendCtrl_kept | apply State.writeLanes_kept | apply State.takeCounts_kept
      | apply Kept.foldl | intro _ _ _ | intro _ _ | intro _ | split)

theorem State.discardLanes_kept {z : State} {s : State} {l : List ℕ} (h : Kept z s) :
    Kept z (State.discardLanes s l) := by
  unfold State.discardLanes
  try dsimp only
  with_reducible
    repeat' (first
      | assumption | apply State.setLanes_kept | apply State.sendAll_kept | apply Kept.foldl | intro _ _ _ | intro _ _
      | intro _)

theorem State.setRound_kept {z : State} {s : State} {k : ℕ} {r : Round} (h : Kept z s) :
    Kept z (State.setRound s k r) := by
  unfold State.setRound
  assumption

theorem State.fillWeighted_kept {z : State} {s : State} {i : ℕ} {cls : ℕ} {role : ℕ} {x4 : ℕ} {x5 : Filling} (h : Kept z s) :
    Kept z (State.fillWeighted s i cls role x4 x5).1 := by
  induction x4 generalizing s i cls role x5 with
  | zero =>
    unfold State.fillWeighted
    try dsimp only
    with_reducible
      repeat' (first
        | assumption | apply State.setRound_kept | intro _ _ _ | intro _ _ | intro _
        | (refine Kept.fst (by assumption) ?_) | split)
  | succ y ih =>
    unfold State.fillWeighted
    try dsimp only
    with_reducible
      repeat' (first
        | assumption | apply ih | apply State.setRound_kept | intro _ _ _ | intro _ _ | intro _
        | (refine Kept.fst (by assumption) ?_) | split)

theorem State.spend_kept {z : State} {s : State} {t : ℕ} {n : ℕ} (h : Kept z s) :
    Kept z (State.spend s t n) := by
  unfold State.spend
  with_reducible
    repeat' (first
      | assumption | intro _ _ _ | intro _ _ | intro _)

theorem State.fillBudget_kept {z : State} {s : State} {i : ℕ} {cls : ℕ} {role : ℕ} {x4 : ℕ} {x5 : Filling} (h : Kept z s) :
    Kept z (State.fillBudget s i cls role x4 x5).1 := by
  induction x4 generalizing s i cls role x5 with
  | zero =>
    unfold State.fillBudget
    try dsimp only
    with_reducible
      repeat' (first
        | assumption | apply State.spend_kept | intro _ _ _ | intro _ _ | intro _ | (refine Kept.fst (by assumption) ?_)
        | split)
  | succ y ih =>
    unfold State.fillBudget
    try dsimp only
    with_reducible
      repeat' (first
        | assumption | apply ih | apply State.spend_kept | intro _ _ _ | intro _ _ | intro _
        | (refine Kept.fst (by assumption) ?_) | split)

theorem State.fillClass_kept {z : State} {s : State} {i : ℕ} {cls : ℕ} {role : ℕ} {f : Filling} (h : Kept z s) :
    Kept z (State.fillClass s i cls role f).1 := by
  unfold State.fillClass
  with_reducible
    repeat' (first
      | assumption | apply State.fillWeighted_kept | apply State.fillBudget_kept
      | (refine Kept.fst (by assumption) ?_) | split)

theorem State.fillInst_kept {z : State} {s : State} {i : ℕ} (h : Kept z s) :
    Kept z (State.fillInst s i).1 := by
  unfold State.fillInst
  try dsimp only
  with_reducible
    repeat' (first
      | assumption | apply State.fillClass_kept | intro _ _ _ | intro _ _ | intro _
      | (refine Kept.fst (by assumption) ?_) | split)

theorem State.buildLanes_kept {z : State} {s : State} {i : ℕ} (h : Kept z s) :
    Kept z (State.buildLanes s i) := by
  unfold State.buildLanes
  try dsimp only
  with_reducible
    repeat' (first
      | assumption | apply State.sendAll_kept | apply State.fillInst_kept | intro _ _ _ | intro _ _ | intro _
      | (refine Kept.fst (by assumption) ?_) | split)

theorem State.noteShort_kept {z : State} {s : State} (h : Kept z s) :
    Kept z (State.noteShort s) := by
  unfold State.noteShort
  with_reducible
    repeat' (first
      | assumption | apply State.bump_kept | split)

theorem State.decideLanes_kept {z : State} {s : State} (h : Kept z s) :
    Kept z (State.decideLanes s) := by
  unfold State.decideLanes
  try dsimp only
  with_reducible
    repeat' (first
      | assumption | apply State.setLanes_kept | apply State.discardLanes_kept | apply State.putBit_kept
      | apply State.sendAll_kept | apply State.noteShort_kept | apply Kept.foldl | intro _ _ _ | intro _ _ | intro _
      | split)

theorem State.addCredits_kept {z : State} {s : State} (h : Kept z s) :
    Kept z (State.addCredits s) := by
  unfold State.addCredits
  with_reducible
    repeat' (first
      | assumption | intro _ _ _ | intro _ _ | intro _ | split)

theorem State.countSeqs_kept {z : State} {s : State} (h : Kept z s) :
    Kept z (State.countSeqs s) := by
  unfold State.countSeqs
  try dsimp only
  with_reducible
    repeat' (first
      | assumption | apply State.put_kept | intro _ _ _ | intro _ _ | intro _)

theorem State.countWaits_kept {z : State} {s : State} (h : Kept z s) :
    Kept z (State.countWaits s) := by
  unfold State.countWaits
  try dsimp only
  with_reducible
    repeat' (first
      | assumption | apply State.modSeq_kept | apply Kept.foldl | intro _ _ _ | intro _ _ | intro _ | split)

theorem State.countLanes_kept {z : State} {s : State} (h : Kept z s) :
    Kept z (State.countLanes s) := by
  unfold State.countLanes
  try dsimp only
  with_reducible
    repeat' (first
      | assumption | apply State.put_kept | intro _ _ _ | intro _ _ | intro _ | split)

theorem State.laneDiscardIn_kept {z : State} {s : State} {i : ℕ} {l : List LaneEntry} (h : Kept z s) :
    Kept z (State.laneDiscardIn s i l) := by
  unfold State.laneDiscardIn
  with_reducible
    repeat' (first
      | assumption | apply State.setLanes_kept | apply State.takeCounts_kept | apply State.noteShort_kept
      | apply Kept.foldl | intro _ _ _ | intro _ _ | intro _)

theorem State.laneAckIn_kept {z : State} {s : State} {src : ℕ} {i : ℕ} {k : ℕ} {used : List (ℕ × ℕ)} {far : List ℕ} (h : Kept z s) :
    Kept z (State.laneAckIn s src i k used far) := by
  unfold State.laneAckIn
  try dsimp only
  with_reducible
    repeat' (first
      | assumption | apply Kept.foldl | intro _ _ _ | intro _ _ | intro _ | split)

end Sys2Proof.Machine
end

