-- ==== Sys2Proof/Laws/KeptAdapters.lean ====
section
/-!
SUPPORT. What the operations of Machine/Adapters.lean keep.
-/

set_option linter.all false

namespace Sys2Proof.Machine

theorem State.dropSlices_kept {z : State} {s : State} {i : ℕ} {id : ℕ} {ver : ℕ} (h : Kept z s) :
    Kept z (State.dropSlices s i id ver) := by
  unfold State.dropSlices
  try dsimp only
  with_reducible
    repeat' (first
      | assumption | apply State.ownFree_kept | apply Kept.foldl | intro _ _ _ | intro _ _ | intro _)

theorem State.dropVersion_kept {z : State} {s : State} {i : ℕ} {id : ℕ} {ver : ℕ} (h : Kept z s) :
    Kept z (State.dropVersion s i id ver) := by
  unfold State.dropVersion
  try dsimp only
  with_reducible
    repeat' (first
      | assumption | apply State.dropSlices_kept | intro _ _ _ | intro _ _ | intro _)

theorem State.modAdapter_kept {z : State} {s : State} {i : ℕ} {id : ℕ} {ver : ℕ} {f : Adapter → Adapter} (h : Kept z s) :
    Kept z (State.modAdapter s i id ver f) := by
  unfold State.modAdapter
  with_reducible
    repeat' (first
      | assumption | intro _ _ _ | intro _ _ | intro _ | split)

theorem State.writeSlice_kept {z : State} {s : State} {x : Slice} (h : Kept z s) :
    Kept z (State.writeSlice s x) := by
  unfold State.writeSlice
  with_reducible
    repeat' (first
      | assumption | apply State.write_kept)

theorem State.placeSlices_kept {z : State} {s : State} {i : ℕ} {id : ℕ} {ver : ℕ} {b : Bytes} {dir : List Reserve} (h : Kept z s) :
    KeptO z (State.placeSlices s i id ver b dir) := by
  unfold State.placeSlices
  try dsimp only
  with_reducible
    repeat' (first
      | assumption | apply State.ownAlloc_kept | apply State.writeSlice_kept | apply KeptO.of | apply KeptO.none
      | apply KeptO.tryAll | apply KeptO.mapPair | apply KeptO.mapState | apply KeptO.map | apply KeptP.mapPair
      | apply KeptP.map | intro _ _ _ | intro _ _ | intro _ | (refine Kept.somePair (by assumption) ?_)
      | (dsimp only [Kept]; refine Kept.parts (Kept.somePair (by assumption) ?_)) | split)

theorem State.loadVersion_kept {z : State} {s : State} {no : ℕ} {i : ℕ} {id : ℕ} {ver : ℕ} {b : Bytes} (h : Kept z s) :
    Kept z (State.loadVersion s no i id ver b) := by
  unfold State.loadVersion
  try dsimp only
  with_reducible
    repeat' (first
      | assumption | apply State.modAdapter_kept | apply State.replyWith_kept | apply State.placeSlices_kept
      | apply State.dropVersion_kept | apply KeptO.mapPair | apply KeptO.mapState | apply KeptO.map
      | apply KeptP.mapPair | apply KeptP.map | intro _ _ _ | intro _ _ | intro _
      | (refine Kept.ofSome (by assumption) ?_)
      | (dsimp only [Kept]; refine Kept.parts (Kept.ofSome (by assumption) ?_)) | split)

theorem State.startLoad_kept {z : State} {s : State} {a : Adapter} (h : Kept z s) :
    Kept z (State.startLoad s a) := by
  unfold State.startLoad
  try dsimp only
  with_reducible
    repeat' (first
      | assumption | apply State.awaitSelf_kept | apply State.loadVersion_kept | apply State.forwardTo_kept | split)

theorem State.adapterLoad_kept {z : State} {s : State} {t : Ticket} (h : Kept z s) :
    Kept z (State.adapterLoad s t) := by
  unfold State.adapterLoad
  try dsimp only
  with_reducible
    repeat' (first
      | assumption | apply State.startLoad_kept | apply State.finishWith_kept | apply State.markPending_kept
      | apply Kept.foldl | intro _ _ _ | intro _ _ | intro _ | split)

theorem State.tellVersion_kept {z : State} {s : State} {i : ℕ} {id : ℕ} {ver : ℕ} (h : Kept z s) :
    Kept z (State.tellVersion s i id ver) := by
  unfold State.tellVersion
  try dsimp only
  with_reducible
    repeat' (first
      | assumption | apply State.sendAll_kept)

theorem State.freeVersion_kept {z : State} {s : State} {i : ℕ} {id : ℕ} {ver : ℕ} (h : Kept z s) :
    Kept z (State.freeVersion s i id ver) := by
  unfold State.freeVersion
  with_reducible
    repeat' (first
      | assumption | apply State.tellVersion_kept | apply State.dropVersion_kept)

theorem State.freeDrained_kept {z : State} {s : State} (h : Kept z s) :
    Kept z (State.freeDrained s) := by
  unfold State.freeDrained
  with_reducible
    repeat' (first
      | assumption | apply State.freeVersion_kept | apply Kept.foldl | intro _ _ _ | intro _ _ | intro _ | split)

theorem State.waitRoom_kept {z : State} {s : State} {t : Ticket} {a : Adapter} (h : Kept z s) :
    Kept z (State.waitRoom s t a) := by
  unfold State.waitRoom
  try dsimp only
  with_reducible
    repeat' (first
      | assumption | apply State.tellVersion_kept | apply State.modAdapter_kept | apply State.dropSlices_kept
      | apply State.mapTicket_kept | apply State.markPending_kept | intro _ _ _ | intro _ _ | intro _)

theorem State.loadConcluded_kept {z : State} {s : State} {t : Ticket} (h : Kept z s) :
    Kept z (State.loadConcluded s t) := by
  unfold State.loadConcluded
  with_reducible
    repeat' (first
      | assumption | apply State.freeVersion_kept | apply State.modAdapter_kept | apply State.finish_kept
      | apply State.finishWith_kept | apply State.waitRoom_kept | intro _ _ _ | intro _ _ | intro _ | split)

theorem State.switchVersions_kept {z : State} {s : State} (h : Kept z s) :
    Kept z (State.switchVersions s) := by
  unfold State.switchVersions
  with_reducible
    repeat' (first
      | assumption | apply Kept.foldl | intro _ _ _ | intro _ _ | intro _ | split)

theorem State.retireAdapter_kept {z : State} {s : State} {i : ℕ} {id : ℕ} (h : Kept z s) :
    Kept z (State.retireAdapter s i id) := by
  unfold State.retireAdapter
  try dsimp only
  with_reducible
    repeat' (first
      | assumption | apply State.freeVersion_kept | apply State.modAdapter_kept | apply State.finishWith_kept
      | apply Kept.foldl | intro _ _ _ | intro _ _ | intro _ | split)

theorem State.adapterItem_kept {z : State} {s : State} (h : Kept z s) :
    Kept z (State.adapterItem s) := by
  unfold State.adapterItem
  try dsimp only
  with_reducible
    repeat' (first
      | assumption | apply State.freeDrained_kept | apply State.switchVersions_kept | apply State.finishWith_kept
      | apply State.retireAdapter_kept | apply Kept.foldl | intro _ _ _ | intro _ _ | intro _ | split)

theorem State.roomFor_kept {z : State} {s : State} {i : ℕ} {id : ℕ} {ver : ℕ} (h : Kept z s) :
    Kept z (State.roomFor s i id ver) := by
  unfold State.roomFor
  with_reducible
    repeat' (first
      | assumption | apply State.startLoad_kept | split)

theorem State.loadTimeout_kept {z : State} {s : State} {i : ℕ} {id : ℕ} {ver : ℕ} (h : Kept z s) :
    Kept z (State.loadTimeout s i id ver) := by
  unfold State.loadTimeout
  try dsimp only
  with_reducible
    repeat' (first
      | assumption | apply State.finishWith_kept | apply State.dropVersion_kept | split)

theorem State.verified_kept {z : State} {s : State} {i : ℕ} {id : ℕ} {ver : ℕ} (h : Kept z s) :
    Kept z (State.verified s i id ver) := by
  unfold State.verified
  try dsimp only
  with_reducible
    repeat' (first
      | assumption | apply State.modAdapter_kept | apply State.replyWith_kept | apply State.writeSlice_kept
      | apply State.dropVersion_kept | apply Kept.foldl | intro _ _ _ | intro _ _ | intro _ | split)

end Sys2Proof.Machine
end

