-- ==== Sys2Proof/Laws/KeptAdmission.lean ====
section
/-!
SUPPORT. What the operations of Machine/Admission.lean keep.
-/

set_option linter.all false

namespace Sys2Proof.Machine

theorem State.exportDone_kept {z : State} {s : State} {t : Ticket} (h : Kept z s) :
    Kept z (State.exportDone s t) := by
  unfold State.exportDone
  try dsimp only
  with_reducible
    repeat' (first
      | assumption | apply State.draw_kept | apply State.write_kept | apply State.finish_kept
      | apply State.finishWith_kept | intro _ _ _ | intro _ _ | intro _ | split)

theorem State.placeParts_kept {z : State} {s : State} {dst : ℕ} {b : Bytes} (h : Kept z s) :
    Kept z (State.placeParts s dst b) := by
  unfold State.placeParts
  with_reducible
    repeat' (first
      | assumption | apply State.write_kept | apply Kept.foldl | intro _ _ _ | intro _ _ | intro _)

theorem State.exportConcluded_kept {z : State} {s : State} {t : Ticket} (h : Kept z s) :
    Kept z (State.exportConcluded s t) := by
  unfold State.exportConcluded
  with_reducible
    repeat' (first
      | assumption | apply State.exportDone_kept | apply State.placeParts_kept | apply State.finish_kept
      | apply Kept.foldl | intro _ _ _ | intro _ _ | intro _ | split)

theorem State.endInst_kept {z : State} {s : State} {i : ℕ} {th : ℕ} (h : Kept z s) :
    Kept z (State.endInst s i th) := by
  unfold State.endInst
  try dsimp only
  with_reducible
    repeat' (first
      | assumption | apply State.ownFree_kept | apply State.closeSeq_kept | apply State.closeFile_kept
      | apply State.finishWith_kept | apply State.dropHandle_kept | apply State.retireSeq_kept
      | apply State.dropVersion_kept | apply Kept.foldl | intro _ _ _ | intro _ _ | intro _ | split)

theorem State.tellMembers_kept {z : State} {s : State} {i : ℕ} {p : Packet} {pay : Option Bytes} (h : Kept z s) :
    Kept z (State.tellMembers s i p pay) := by
  unfold State.tellMembers
  with_reducible
    repeat' (first
      | assumption | apply State.sendAll_kept | intro _ _ _ | intro _ _ | intro _)

theorem State.tellEnding_kept {z : State} {s : State} {t : Ticket} (h : Kept z s) :
    Kept z (State.tellEnding s t) := by
  unfold State.tellEnding
  try dsimp only
  with_reducible
    repeat' (first
      | assumption | apply State.mapTicket_kept | apply State.tellMembers_kept | intro _ _ _ | intro _ _ | intro _
      | split)

theorem State.tenantSet_kept {z : State} {s : State} {t : Ticket} (h : Kept z s) :
    Kept z (State.tenantSet s t) := by
  unfold State.tenantSet
  try dsimp only
  with_reducible
    repeat' (first
      | assumption | apply State.finishWith_kept | intro _ _ _ | intro _ _ | intro _ | split)

theorem State.nextStart_kept {z : State} {s : State} (h : Kept z s) :
    Kept z (State.nextStart s).1 := by
  unfold State.nextStart
  with_reducible
    repeat' (first
      | assumption | apply State.draw_kept | (refine Kept.fst (by assumption) ?_) | split)

theorem State.keepBitmap_kept {z : State} {s : State} {id : ℕ} {b : Option Bytes} (h : Kept z s) :
    Kept z (State.keepBitmap s id b) := by
  unfold State.keepBitmap
  try dsimp only
  with_reducible
    repeat' (first
      | assumption | apply State.write_kept | apply State.ownFree_kept | apply State.setFile_kept
      | apply State.ownAlloc_kept | (refine Kept.somePair (by assumption) ?_)
      | (dsimp only [Kept]; refine Kept.parts (Kept.somePair (by assumption) ?_)) | split)

theorem State.admitRequest_kept {z : State} {s : State} {t : Ticket} {q : Seq} {x : Sampling} (h : Kept z s) :
    Kept z (State.admitRequest s t q x) := by
  unfold State.admitRequest
  try dsimp only
  with_reducible
    repeat' (first
      | assumption | apply State.bindDawn_kept | apply State.bump_kept | apply State.nextStart_kept
      | apply State.tellMembers_kept | apply State.keepBitmap_kept | apply State.finishWith_kept
      | apply State.modSeq_kept | apply State.markPending_kept | apply KeptO.of | apply KeptO.none | apply KeptP.of
      | apply KeptP.none | apply Kept.foldl | apply Kept.foldlPair | apply KeptO.tryAll | apply KeptO.getD
      | apply KeptO.mapPair | apply KeptO.mapState | apply KeptO.map | apply KeptP.mapPair | apply KeptP.map
      | apply KeptO.foldl | apply KeptP.foldl | intro _ _ _ | intro _ _ | intro _
      | (refine Kept.fst (by assumption) ?_) | (refine Kept.ofSome (by assumption) ?_)
      | (refine Kept.somePair (by assumption) ?_)
      | (dsimp only [Kept]; refine Kept.parts (Kept.somePair (by assumption) ?_))
      | (dsimp only [Kept]; refine Kept.parts (Kept.ofSome (by assumption) ?_)) | split)

theorem State.reserveFar_kept {z : State} {s : State} {x : Inst} {tenant : ℕ} {maxLen : ℕ} {len : ℕ} (h : Kept z s) :
    Kept z (State.reserveFar s x tenant maxLen len) := by
  unfold State.reserveFar
  with_reducible
    repeat' (first
      | assumption | apply Kept.foldl | intro _ _ _ | intro _ _ | intro _)

theorem State.openMember_kept {z : State} {s : State} {id : ℕ} {p : Packet} (h : Kept z s) :
    KeptO z (State.openMember s id p) := by
  unfold State.openMember
  try dsimp only
  with_reducible
    repeat' (first
      | assumption | apply State.openFile_kept | apply KeptO.of | apply KeptO.none | apply KeptO.mapPair
      | apply KeptO.mapState | apply KeptO.map | apply KeptP.mapPair | apply KeptP.map | intro _ _ _ | intro _ _
      | intro _ | (refine Kept.ofSome (by assumption) ?_)
      | (dsimp only [Kept]; refine Kept.parts (Kept.ofSome (by assumption) ?_)) | split)

theorem State.seqOpen_kept {z : State} {s : State} {t : Ticket} (h : Kept z s) :
    Kept z (State.seqOpen s t) := by
  unfold State.seqOpen
  try dsimp only
  with_reducible
    repeat' (first
      | assumption | apply State.mapTicket_kept | apply State.finish_kept | apply State.finishWith_kept
      | apply State.reserveFar_kept | apply State.forwardTo_kept | apply State.openMember_kept | apply KeptO.mapPair
      | apply KeptO.mapState | apply KeptO.map | apply KeptP.mapPair | apply KeptP.map | intro _ _ _ | intro _ _
      | intro _ | (refine Kept.ofSome (by assumption) ?_)
      | (dsimp only [Kept]; refine Kept.parts (Kept.ofSome (by assumption) ?_)) | split)

theorem State.applyTold_kept {z : State} {s : State} (h : Kept z s) :
    Kept z (State.applyTold s) := by
  unfold State.applyTold
  with_reducible
    repeat' (first
      | assumption | apply State.dropHandle_kept | apply State.closeFileOf_kept | apply Kept.foldl | intro _ _ _
      | intro _ _ | intro _ | split)

theorem State.closeEverywhere_kept {z : State} {s : State} {id : ℕ} {th : ℕ} {told : optParam Bool false} (h : Kept z s) :
    Kept z (State.closeEverywhere s id th told) := by
  unfold State.closeEverywhere
  try dsimp only
  with_reducible
    repeat' (first
      | assumption | apply State.freeDrained_kept | apply State.closeSeq_kept | apply State.tellMembers_kept
      | apply State.closeFileOf_kept | split)

theorem State.openConcluded_kept {z : State} {s : State} {t : Ticket} (h : Kept z s) :
    Kept z (State.openConcluded s t) := by
  unfold State.openConcluded
  with_reducible
    repeat' (first
      | assumption | apply State.closeEverywhere_kept | apply State.finish_kept | split)

theorem State.releaseHandle_kept {z : State} {s : State} {h0 : ℕ} {told : optParam Bool false} (h : Kept z s) :
    Kept z (State.releaseHandle s h0 told) := by
  unfold State.releaseHandle
  try dsimp only
  with_reducible
    repeat' (first
      | assumption | apply State.tellMembers_kept | apply State.dropHandle_kept | split)

theorem State.importConcluded_kept {z : State} {s : State} {t : Ticket} (h : Kept z s) :
    Kept z (State.importConcluded s t) := by
  unfold State.importConcluded
  with_reducible
    repeat' (first
      | assumption | apply State.releaseHandle_kept | apply State.finish_kept | split)

theorem State.newHandle_kept {z : State} {s : State} {h0 : Handle} (h : Kept z s) :
    KeptP z (State.newHandle s h0) := by
  unfold State.newHandle
  try dsimp only
  with_reducible
    repeat' (first
      | assumption | apply KeptP.of | apply KeptP.none | apply KeptO.mapPair | apply KeptO.mapState | apply KeptO.map
      | apply KeptP.mapPair | apply KeptP.map | intro _ _ _ | intro _ _ | intro _
      | (refine Kept.fst (by assumption) ?_))

theorem State.syncFiles_kept {z : State} {s : State} (h : Kept z s) :
    Kept z (State.syncFiles s) := by
  unfold State.syncFiles
  with_reducible
    repeat' (first
      | assumption | apply State.setFile_kept | apply Kept.foldl | intro _ _ _ | intro _ _ | intro _ | split)

theorem State.seqGenerate_kept {z : State} {s : State} {t : Ticket} (h : Kept z s) :
    Kept z (State.seqGenerate s t) := by
  unfold State.seqGenerate
  try dsimp only
  with_reducible
    repeat' (first
      | assumption | apply State.admitRequest_kept | apply State.finishWith_kept | apply KeptO.of | apply KeptO.none
      | apply KeptP.of | apply KeptP.none | apply Kept.foldl | apply Kept.foldlPair | apply KeptO.tryAll
      | apply KeptO.getD | apply KeptO.mapPair | apply KeptO.mapState | apply KeptO.map | apply KeptP.mapPair
      | apply KeptP.map | apply KeptO.foldl | apply KeptP.foldl | intro _ _ _ | intro _ _ | intro _
      | (refine Kept.fst (by assumption) ?_) | (refine Kept.ofSome (by assumption) ?_)
      | (refine Kept.somePair (by assumption) ?_)
      | (dsimp only [Kept]; refine Kept.parts (Kept.somePair (by assumption) ?_))
      | (dsimp only [Kept]; refine Kept.parts (Kept.ofSome (by assumption) ?_)) | split)

theorem State.prefixCreate_kept {z : State} {s : State} {t : Ticket} (h : Kept z s) :
    Kept z (State.prefixCreate s t) := by
  unfold State.prefixCreate
  try dsimp only
  with_reducible
    repeat' (first
      | assumption | apply State.newHandle_kept | apply State.finish_kept | apply State.tellMembers_kept
      | apply State.finishWith_kept | apply State.makeHandle_kept | apply KeptO.mapPair | apply KeptO.mapState
      | apply KeptO.map | apply KeptP.mapPair | apply KeptP.map | intro _ _ _ | intro _ _ | intro _
      | (refine Kept.somePair (by assumption) ?_)
      | (dsimp only [Kept]; refine Kept.parts (Kept.somePair (by assumption) ?_)) | split)

theorem State.seqCancel_kept {z : State} {s : State} {t : Ticket} {th : ℕ} (h : Kept z s) :
    Kept z (State.seqCancel s t th) := by
  unfold State.seqCancel
  with_reducible
    repeat' (first
      | assumption | apply State.finishWith_kept | apply State.retireSeq_kept | split)

theorem State.importHere_kept {z : State} {s : State} {i : ℕ} {h0 : ℕ} {tenant : ℕ} {tokens : ℕ} {b : Bytes} (h : Kept z s) :
    KeptO z (State.importHere s i h0 tenant tokens b) := by
  unfold State.importHere
  try dsimp only
  with_reducible
    repeat' (first
      | assumption | apply State.privateSlot_kept | apply State.newTables_kept | apply State.setFile_kept
      | apply State.putPlot_kept | apply KeptO.of | apply KeptO.none | apply Kept.foldl | apply Kept.foldlPair
      | apply KeptO.tryAll | apply KeptO.mapPair | apply KeptO.mapState | apply KeptO.map | apply KeptP.mapPair
      | apply KeptP.map | apply KeptO.foldl | apply KeptP.foldl | intro _ _ _ | intro _ _ | intro _
      | (refine Kept.fst (by assumption) ?_) | (refine Kept.somePair (by assumption) ?_)
      | (dsimp only [Kept]; refine Kept.parts (Kept.somePair (by assumption) ?_)) | split)

theorem State.kvImport_kept {z : State} {s : State} {t : Ticket} (h : Kept z s) :
    Kept z (State.kvImport s t) := by
  unfold State.kvImport
  try dsimp only
  with_reducible
    repeat' (first
      | assumption | apply State.mapTicket_kept | apply State.newHandle_kept | apply State.finish_kept
      | apply State.finishWith_kept | apply State.importHere_kept | apply State.forwardTo_kept | apply KeptO.mapPair
      | apply KeptO.mapState | apply KeptO.map | apply KeptP.mapPair | apply KeptP.map | intro _ _ _ | intro _ _
      | intro _ | (refine Kept.ofSome (by assumption) ?_) | (refine Kept.somePair (by assumption) ?_)
      | (dsimp only [Kept]; refine Kept.parts (Kept.somePair (by assumption) ?_))
      | (dsimp only [Kept]; refine Kept.parts (Kept.ofSome (by assumption) ?_)) | split)

theorem State.seqAppend_kept {z : State} {s : State} {t : Ticket} (h : Kept z s) :
    Kept z (State.seqAppend s t) := by
  unfold State.seqAppend
  try dsimp only
  with_reducible
    repeat' (first
      | assumption | apply State.bindDawn_kept | apply State.bump_kept | apply State.finishWith_kept
      | apply State.modSeq_kept | apply KeptO.of | apply KeptO.none | apply KeptP.of | apply KeptP.none
      | apply Kept.foldl | apply Kept.foldlPair | apply KeptO.tryAll | apply KeptO.getD | apply KeptO.mapPair
      | apply KeptO.mapState | apply KeptO.map | apply KeptP.mapPair | apply KeptP.map | apply KeptO.foldl
      | apply KeptP.foldl | intro _ _ _ | intro _ _ | intro _ | (refine Kept.fst (by assumption) ?_)
      | (refine Kept.ofSome (by assumption) ?_) | (refine Kept.somePair (by assumption) ?_)
      | (dsimp only [Kept]; refine Kept.parts (Kept.somePair (by assumption) ?_))
      | (dsimp only [Kept]; refine Kept.parts (Kept.ofSome (by assumption) ?_)) | split)

theorem State.kvExport_kept {z : State} {s : State} {t : Ticket} (h : Kept z s) :
    Kept z (State.kvExport s t) := by
  unfold State.kvExport
  try dsimp only
  with_reducible
    repeat' (first
      | assumption | apply State.reply_kept | apply State.awaitSelf_kept | apply State.finishWith_kept
      | apply State.forwardTo_kept | split)

theorem State.undefer_kept {z : State} {s : State} {no : ℕ} (h : Kept z s) :
    Kept z (State.undefer s no) := by
  unfold State.undefer
  with_reducible
    repeat' (first
      | assumption | intro _ _ _ | intro _ _ | intro _)

theorem State.prefixRelease_kept {z : State} {s : State} {t : Ticket} (h : Kept z s) :
    Kept z (State.prefixRelease s t) := by
  unfold State.prefixRelease
  with_reducible
    repeat' (first
      | assumption | apply State.releaseHandle_kept | apply State.finishWith_kept | split)

theorem State.seqClose_kept {z : State} {s : State} {t : Ticket} {th : ℕ} (h : Kept z s) :
    Kept z (State.seqClose s t th) := by
  unfold State.seqClose
  with_reducible
    repeat' (first
      | assumption | apply State.closeEverywhere_kept | apply State.finishWith_kept | split)

theorem State.applyTicket_kept {z : State} {s : State} {th : ℕ} {no : ℕ} (h : Kept z s) :
    Kept z (State.applyTicket s th no) := by
  unfold State.applyTicket
  try dsimp only
  with_reducible
    repeat' (first
      | assumption | apply State.seqGenerate_kept | apply State.prefixCreate_kept | apply State.seqOpen_kept
      | apply State.seqCancel_kept | apply State.tenantSet_kept | apply State.kvImport_kept
      | apply State.seqAppend_kept | apply State.kvExport_kept | apply State.undefer_kept
      | apply State.prefixRelease_kept | apply State.seqClose_kept | split)

theorem State.applyOne_kept {z : State} {s : State} {th : ℕ} {no : ℕ} (h : Kept z s) :
    Kept z (State.applyOne s th no) := by
  unfold State.applyOne
  with_reducible
    repeat' (first
      | assumption | apply State.applyTicket_kept | apply State.undefer_kept | split)

theorem State.applyWaiting_kept {z : State} {s : State} {th : ℕ} (h : Kept z s) :
    Kept z (State.applyWaiting s th) := by
  unfold State.applyWaiting
  with_reducible
    repeat' (first
      | assumption | apply State.applyOne_kept | apply Kept.foldl | intro _ _ _ | intro _ _ | intro _)

theorem State.syncSeqs_kept {z : State} {s : State} (h : Kept z s) :
    Kept z (State.syncSeqs s) := by
  unfold State.syncSeqs
  with_reducible
    repeat' (first
      | assumption | apply State.modSeq_kept | apply Kept.foldl | intro _ _ _ | intro _ _ | intro _ | split)

theorem State.applyEndings_kept {z : State} {s : State} {th : ℕ} (h : Kept z s) :
    Kept z (State.applyEndings s th) := by
  unfold State.applyEndings
  try dsimp only
  with_reducible
    repeat' (first
      | assumption | apply State.applyTicket_kept | apply State.undefer_kept | apply Kept.foldl | apply Kept.foldlPair
      | intro _ _ _ | intro _ _ | intro _ | (refine Kept.fst (by assumption) ?_) | split)

theorem State.markCancelled_kept {z : State} {s : State} (h : Kept z s) :
    Kept z (State.markCancelled s) := by
  unfold State.markCancelled
  with_reducible
    repeat' (first
      | assumption | apply State.modSeq_kept | apply Kept.foldl | intro _ _ _ | intro _ _ | intro _ | split)

theorem State.applyCommands_kept {z : State} {s : State} {th : ℕ} (h : Kept z s) :
    Kept z (State.applyCommands s th) := by
  unfold State.applyCommands
  with_reducible
    repeat' (first
      | assumption | apply State.applyOne_kept | apply Kept.foldl | intro _ _ _ | intro _ _ | intro _)

end Sys2Proof.Machine
end

