-- ==== Sys2Proof/Laws/KeptFetching.lean ====
section
/-!
SUPPORT. What the operations of Machine/Fetching.lean keep.
-/

set_option linter.all false

namespace Sys2Proof.Machine

theorem State.fetchRing_kept {z : State} {s : State} {i : ℕ} (h : Kept z s) :
    Kept z (State.fetchRing s i) := by
  unfold State.fetchRing
  try dsimp only
  with_reducible
    repeat' (first
      | assumption | apply State.emit_kept | apply State.noteHold_kept | apply Kept.foldl | intro _ _ _ | intro _ _
      | intro _ | split)

theorem State.resumeRing_kept {z : State} {s : State} {i : ℕ} (h : Kept z s) :
    Kept z (State.resumeRing s i) := by
  unfold State.resumeRing
  with_reducible
    repeat' (first
      | assumption | apply State.drainCq_kept | apply State.fetchRing_kept)

theorem State.dropFetches_kept {z : State} {s : State} {i : ℕ} (h : Kept z s) :
    Kept z (State.dropFetches s i) := by
  unfold State.dropFetches
  with_reducible
    repeat' (first
      | assumption | intro _ _ _ | intro _ _ | intro _)

end Sys2Proof.Machine
end

