-- ==== Sys2Proof/Laws/KeptRegWrite.lean ====
section
/-!
SUPPORT. What the operations of Machine/RegWrite.lean keep.
-/

set_option linter.all false

namespace Sys2Proof.Machine

theorem State.writeField_kept {z : State} {s : State} {v : ℕ} {m : ℕ} {f : Field} (h : Kept z s) :
    Kept z (State.writeField s v m f) := by
  unfold State.writeField
  try dsimp only
  with_reducible
    repeat' (first
      | assumption | apply State.put_kept | split)

theorem State.selectEvent_kept {z : State} {s : State} {q : ℕ} (h : Kept z s) :
    Kept z (State.selectEvent s q) := by
  unfold State.selectEvent
  try dsimp only
  with_reducible
    repeat' (first
      | assumption | apply State.draw_kept | apply State.put_kept | apply Kept.foldl | intro _ _ _ | intro _ _
      | intro _ | split)

theorem State.startRing_kept {z : State} {s : State} {k : ℕ} {i : ℕ} (h : Kept z s) :
    Kept z (State.startRing s k i) := by
  unfold State.startRing
  try dsimp only
  with_reducible
    repeat' (first
      | assumption | apply State.resumeRing_kept | apply State.put_kept | split)

theorem State.ringCtrl_kept {z : State} {s : State} {k : ℕ} {i : ℕ} {v : ℕ} {m : ℕ} (h : Kept z s) :
    Kept z (State.ringCtrl s k i v m) := by
  unfold State.ringCtrl
  try dsimp only
  with_reducible
    repeat' (first
      | assumption | apply State.dropFetches_kept | apply State.writeField_kept | apply State.startRing_kept
      | apply Kept.foldl | intro _ _ _ | intro _ _ | intro _ | split)

theorem State.clearHealth_kept {z : State} {s : State} {i : ℕ} (h : Kept z s) :
    Kept z (State.clearHealth s i) := by
  unfold State.clearHealth
  with_reducible
    repeat' (first
      | assumption | apply State.put_kept | split)

theorem State.reopen_kept {z : State} {s : State} (h : Kept z s) :
    Kept z (State.reopen s) := by
  unfold State.reopen
  try dsimp only
  with_reducible
    repeat' (first
      | assumption | apply State.resumeRing_kept | apply State.emit_kept | apply Kept.foldl | intro _ _ _ | intro _ _
      | intro _ | split)

theorem State.writeReg_kept {z : State} {s : State} {off : ℕ} {v : ℕ} {m : ℕ} (h : Kept z s) :
    Kept z (State.writeReg s off v m) := by
  unfold State.writeReg
  try dsimp only
  with_reducible
    repeat' (first
      | assumption | apply State.writeMode_kept | apply State.selectEvent_kept | apply State.requestSpare_kept
      | apply State.settleLevels_kept | apply State.atomCommand_kept | apply State.segPower_kept
      | apply State.directGo_kept | apply State.ringCtrl_kept | apply State.writeField_kept
      | apply State.clearHealth_kept | apply State.reopen_kept | apply State.countTenant_kept | apply Kept.foldl
      | intro _ _ _ | intro _ _ | intro _ | split)

theorem State.hostWrites_kept {z : State} {s : State} {size : ℕ} {off : ℕ} {v : ℕ} (h : Kept z s) :
    Kept z (State.hostWrites s size off v) := by
  unfold State.hostWrites
  with_reducible
    repeat' (first
      | assumption | apply State.bump_kept | apply State.selectEvent_kept | apply State.violation_kept
      | apply State.writeReg_kept | split)

end Sys2Proof.Machine
end

