-- ==== Sys2Proof/Laws/KeptFlash.lean ====
section
/-!
SUPPORT. What the operations of Machine/Flash.lean keep.
-/

set_option linter.all false

namespace Sys2Proof.Machine

theorem State.flashStatus_kept {z : State} {s : State} (h : Kept z s) :
    Kept z (State.flashStatus s) := by
  unfold State.flashStatus
  try dsimp only
  with_reducible
    repeat' (first
      | assumption | apply State.put_kept)

theorem State.newMap_kept {z : State} {s : State} {m : Mgt} (h : Kept z s) :
    Kept z (State.newMap s m) := by
  unfold State.newMap
  try dsimp only
  with_reducible
    repeat' (first
      | assumption | apply State.flashStatus_kept)

theorem State.moveSector_kept {z : State} {s : State} {l : ℕ} {retire : Bool} (h : Kept z s) :
    Kept z (State.moveSector s l retire) := by
  unfold State.moveSector
  try dsimp only
  with_reducible
    repeat' (first
      | assumption | apply State.draw_kept | apply State.newMap_kept | split)

theorem State.eraseSector_kept {z : State} {s : State} {l : ℕ} (h : Kept z s) :
    Kept z (State.eraseSector s l) := by
  unfold State.eraseSector
  try dsimp only
  with_reducible
    repeat' (first
      | assumption | apply State.moveSector_kept | split)

theorem State.writeEvent_kept {z : State} {s : State} {fails : Bool} (h : Kept z s) :
    Kept z (State.writeEvent s fails) := by
  unfold State.writeEvent
  try dsimp only
  with_reducible
    repeat' (first
      | assumption | apply State.moveSector_kept | apply State.put_kept | apply State.eraseSector_kept | intro _ _ _
      | intro _ _ | intro _ | split)

theorem State.findNewest_kept {z : State} {s : State} (h : Kept z s) :
    Kept z (State.findNewest s) := by
  unfold State.findNewest
  with_reducible
    repeat' (first
      | assumption | apply State.put_kept | split)

theorem State.refreshFlash_kept {z : State} {s : State} {weak : List ℕ} (h : Kept z s) :
    Kept z (State.refreshFlash s weak) := by
  unfold State.refreshFlash
  try dsimp only
  with_reducible
    repeat' (first
      | assumption | apply State.moveSector_kept | apply Kept.foldl | intro _ _ _ | intro _ _ | intro _)

end Sys2Proof.Machine
end

