-- ==== Sys2Proof/Laws/KeptPlaces.lean ====
section
/-!
SUPPORT. What the operations of Machine/Places.lean keep.
-/

set_option linter.all false

namespace Sys2Proof.Machine

theorem State.markDoubled_kept {z : State} {s : State} {c : Places} {id : ℕ} (h : Kept z s) :
    Kept z (State.markDoubled s c id) := by
  unfold State.markDoubled
  try dsimp only
  with_reducible
    repeat' (first
      | assumption | apply State.putBit_kept | apply Kept.foldl | intro _ _ _ | intro _ _ | intro _ | split)

theorem State.placed_kept {z : State} {s : State} {c : Places} (h : Kept z s) :
    Kept z (State.placed s c) := by
  unfold State.placed
  try dsimp only
  with_reducible
    repeat' (first
      | assumption | apply State.put_kept)

theorem State.viaPlaces_kept {z : State} {s : State} {c : Places} {act : State → State} (h : Kept z s) (h1 : ∀ y0, Kept z y0 → Kept z (act y0)) :
    Kept z (State.viaPlaces s c act) := by
  unfold State.viaPlaces
  try dsimp only
  with_reducible
    repeat' (first
      | assumption | apply State.put_kept | apply State.placed_kept | apply h1)

end Sys2Proof.Machine
end

