-- ==== Sys2Proof/Laws/KeptFabric.lean ====
section
/-!
SUPPORT. What the operations of Machine/Fabric.lean keep.
-/

set_option linter.all false

namespace Sys2Proof.Machine

theorem State.refreshLinks_kept {z : State} {s : State} (h : Kept z s) :
    Kept z (State.refreshLinks s) := by
  unfold State.refreshLinks
  try dsimp only
  with_reducible
    repeat' (first
      | assumption | apply State.putBit_kept | intro _ _ _ | intro _ _ | intro _)

theorem State.poisonPending_kept {z : State} {s : State} {p : ℕ} (h : Kept z s) :
    Kept z (State.poisonPending s p) := by
  unfold State.poisonPending
  try dsimp only
  with_reducible
    repeat' (first
      | assumption | apply State.streamIn_kept | apply Kept.foldl | intro _ _ _ | intro _ _ | intro _ | split)

theorem State.leaveUp_kept {z : State} {s : State} {p : ℕ} {st : ℕ} (h : Kept z s) :
    Kept z (State.leaveUp s p st) := by
  unfold State.leaveUp
  try dsimp only
  with_reducible
    repeat' (first
      | assumption | apply State.modLink_kept | apply State.bump_kept | apply State.refreshLinks_kept
      | apply State.collectives_kept | apply State.put_kept | apply State.poisonPending_kept | apply State.putBit_kept
      | intro _ _ _ | intro _ _ | intro _ | split)

theorem State.enterTrain_kept {z : State} {s : State} {p : ℕ} (h : Kept z s) :
    Kept z (State.enterTrain s p) := by
  unfold State.enterTrain
  with_reducible
    repeat' (first
      | assumption | apply State.modLink_kept | apply State.refreshLinks_kept | apply State.put_kept | intro _ _ _
      | intro _ _ | intro _)

theorem State.relink_kept {z : State} {s : State} {p : ℕ} {wasEnabled : Bool} (h : Kept z s) :
    Kept z (State.relink s p wasEnabled) := by
  unfold State.relink
  try dsimp only
  with_reducible
    repeat' (first
      | assumption | apply State.modLink_kept | apply State.leaveUp_kept | apply State.refreshLinks_kept | apply State.put_kept
      | apply State.enterTrain_kept | split)

theorem State.resumeReplay_kept {z : State} {s : State} (h : Kept z s) :
    Kept z (State.resumeReplay s) := by
  unfold State.resumeReplay
  try dsimp only
  with_reducible
    repeat' (first
      | assumption | apply State.modLink_kept | apply State.transmit_kept | apply Kept.foldl | intro _ _ _ | intro _ _
      | intro _ | split)

theorem State.deferReplay_kept {z : State} {s : State} (h : Kept z s) :
    Kept z (State.deferReplay s) := by
  unfold State.deferReplay
  try dsimp only
  with_reducible
    repeat' (first
      | assumption | apply State.modLink_kept | apply State.bump_kept | apply Kept.foldl | intro _ _ _ | intro _ _
      | intro _ | split)

theorem State.receive_kept {z : State} {s : State} {p : ℕ} {f : Frame} {fixed : ℕ} {act : State → State} (h : Kept z s) (h1 : ∀ y0, Kept z y0 → Kept z (act y0)) :
    Kept z (State.receive s p f fixed act) := by
  unfold State.receive
  try dsimp only
  with_reducible
    repeat' (first
      | assumption | apply State.modLink_kept | apply State.collectives_kept | apply State.acknowledge_kept
      | apply State.wrapAdd_kept | apply h1 | intro _ _ _ | intro _ _ | intro _ | split)

theorem State.discardFrame_kept {z : State} {s : State} {p : ℕ} (h : Kept z s) :
    Kept z (State.discardFrame s p) := by
  unfold State.discardFrame
  with_reducible
    repeat' (first
      | assumption | apply State.sendNak_kept | split)

theorem State.dataIn_kept {z : State} {s : State} {p : ℕ} {f : Frame} {tagOk : Bool} (h : Kept z s) :
    Kept z (State.dataIn s p f tagOk) := by
  unfold State.dataIn
  try dsimp only
  with_reducible
    repeat' (first
      | assumption | apply State.modLink_kept | apply State.bump_kept | apply State.streamIn_kept | intro _ _ _
      | intro _ _ | intro _ | split)

theorem State.dataFrame_kept {z : State} {s : State} {port : ℕ} {f : Frame} {fixed : ℕ} {full : Bool} {tagOk : Bool} (h : Kept z s) :
    Kept z (State.dataFrame s port f fixed full tagOk) := by
  unfold State.dataFrame
  with_reducible
    repeat' (first
      | assumption | apply State.bump_kept | apply State.receive_kept | apply State.discardFrame_kept
      | apply State.dataIn_kept | intro _ _ _ | intro _ _ | intro _ | split)

theorem State.answerFenced_kept {z : State} {s : State} {port : Option ℕ} {dev : ℕ} {epoch : ℕ} {serial : ℕ} (h : Kept z s) :
    Kept z (State.answerFenced s port dev epoch serial) := by
  unfold State.answerFenced
  try dsimp only
  with_reducible
    repeat' (first
      | assumption | apply State.sendPort_kept | split)

theorem State.startIn_kept {z : State} {s : State} {p : ℕ} {f : Frame} (h : Kept z s) :
    Kept z (State.startIn s p f) := by
  unfold State.startIn
  try dsimp only
  with_reducible
    repeat' (first
      | assumption | apply State.modLink_kept | apply State.bump_kept | apply State.deliver_kept
      | apply State.answerFenced_kept | apply Kept.foldl | intro _ _ _ | intro _ _ | intro _ | split)

theorem State.ctrlIn_kept {z : State} {s : State} {p : ℕ} {frags : ℕ} {m : CtrlMsg} {act : State → State} (h : Kept z s) (h1 : ∀ y0, Kept z y0 → Kept z (act y0)) :
    Kept z (State.ctrlIn s p frags m act) := by
  unfold State.ctrlIn
  try dsimp only
  with_reducible
    repeat' (first
      | assumption | apply State.modLink_kept | apply State.sendFragments_kept | apply State.sendPort_kept
      | apply State.answerFenced_kept | apply h1 | intro _ _ _ | intro _ _ | intro _ | split)

theorem State.replay_kept {z : State} {s : State} {p : ℕ} (h : Kept z s) :
    Kept z (State.replay s p) := by
  unfold State.replay
  try dsimp only
  with_reducible
    repeat' (first
      | assumption | apply State.leaveUp_kept | apply State.modLink_kept | apply State.bump_kept
      | apply State.transmit_kept | apply Kept.foldl | intro _ _ _ | intro _ _ | intro _ | split)

theorem State.trainDone_kept {z : State} {s : State} {p : ℕ} {ok : Bool} (h : Kept z s) :
    Kept z (State.trainDone s p ok) := by
  unfold State.trainDone
  try dsimp only
  with_reducible
    repeat' (first
      | assumption | apply State.modLink_kept | apply State.refreshLinks_kept | apply State.finish_kept
      | apply State.raise_kept | apply State.put_kept | apply State.putBit_kept | intro _ _ _ | intro _ _ | intro _
      | split)

theorem State.ackIn_kept {z : State} {s : State} {src : ℕ} {msgId : ℕ} (h : Kept z s) :
    Kept z (State.ackIn s src msgId) := by
  unfold State.ackIn
  try dsimp only
  with_reducible
    repeat' (first
      | assumption | intro _ _ _ | intro _ _ | intro _ | split)

end Sys2Proof.Machine
end

