-- ==== Sys2Proof/Laws/KeptStack.lean ====
section
/-!
SUPPORT. What the operations of Machine/Stack.lean keep.
-/

set_option linter.all false

namespace Sys2Proof.Machine

theorem State.trafficEnd_kept {z : State} {s : State} {n : ℕ} {count : ℕ} {mismatches : ℕ} {uncorrectable : ℕ} {firstPc : Option ℕ} {left : List (ℕ × Bytes)} (h : Kept z s) :
    Kept z (State.trafficEnd s n count mismatches uncorrectable firstPc left) := by
  unfold State.trafficEnd
  try dsimp only
  with_reducible
    repeat' (first
      | assumption | apply State.zero_kept | apply State.write_kept | apply State.finish_kept | apply State.put_kept
      | apply State.putBit_kept | apply State.modStack_kept | apply Kept.foldl | intro _ _ _ | intro _ _ | intro _
      | split)

theorem State.channelLost_kept {z : State} {s : State} {n : ℕ} {pc : ℕ} (h : Kept z s) :
    Kept z (State.channelLost s n pc) := by
  unfold State.channelLost
  try dsimp only
  with_reducible
    repeat' (first
      | assumption | apply State.raise_kept | intro _ _ _ | intro _ _ | intro _ | split)

theorem State.markLane_kept {z : State} {s : State} {n : ℕ} {pc : ℕ} {lane : ℕ} (h : Kept z s) :
    Kept z (State.markLane s n pc lane) := by
  unfold State.markLane
  try dsimp only
  with_reducible
    repeat' (first
      | assumption | apply State.bump_kept | apply State.raise_kept | apply State.modStack_kept | intro _ _ _
      | intro _ _ | intro _ | split)

theorem State.decodeWord_kept {z : State} {s : State} {n : ℕ} {pc : ℕ} {addr : ℕ} {symbols : List ℕ} (h : Kept z s) :
    Kept z (State.decodeWord s n pc addr symbols) := by
  unfold State.decodeWord
  try dsimp only
  with_reducible
    repeat' (first
      | assumption | apply State.bump_kept | apply State.poisonRange_kept | apply State.channelLost_kept
      | apply State.zero_kept | apply State.raise_kept | apply State.put_kept | apply State.markLane_kept
      | apply State.putBit_kept | apply State.modStack_kept | apply Kept.foldl | intro _ _ _ | intro _ _ | intro _
      | split)

theorem State.nbuRecord_kept {z : State} {s : State} {n : ℕ} {u : ℕ} {cause : ℕ} {atom : ℕ} {idx : ℕ} (h : Kept z s) :
    Kept z (State.nbuRecord s n u cause atom idx) := by
  unfold State.nbuRecord
  try dsimp only
  with_reducible
    repeat' (first
      | assumption | apply State.put_kept | apply State.putBit_kept | split)

theorem State.setUnit_kept {z : State} {s : State} {n : ℕ} {u : ℕ} {x : Option NbUnit} (h : Kept z s) :
    Kept z (State.setUnit s n u x) := by
  unfold State.setUnit
  try dsimp only
  with_reducible
    repeat' (first
      | assumption | apply State.put_kept | apply State.modStack_kept | intro _ _ _ | intro _ _ | intro _)

theorem State.nbuEnd_kept {z : State} {s : State} {n : ℕ} {h0 : Queued} {e : Event} {st : Status} (h : Kept z s) :
    Kept z (State.nbuEnd s n h0 e st) := by
  unfold State.nbuEnd
  try dsimp only
  with_reducible
    repeat' (first
      | assumption | apply State.bump_kept | apply State.raise_kept | apply State.setUnit_kept
      | apply State.failHead_kept | apply Kept.foldl | intro _ _ _ | intro _ _ | intro _)

theorem State.nbuFail_kept {z : State} {s : State} {n : ℕ} {u : ℕ} {cause : ℕ} {atom : ℕ} {h0 : Queued} (h : Kept z s) :
    Kept z (State.nbuFail s n u cause atom h0) := by
  unfold State.nbuFail
  with_reducible
    repeat' (first
      | assumption | apply State.nbuRecord_kept | apply State.nbuEnd_kept | split)

theorem State.nbuDone_kept {z : State} {s : State} {n : ℕ} {h0 : Queued} (h : Kept z s) :
    Kept z (State.nbuDone s n h0) := by
  unfold State.nbuDone
  with_reducible
    repeat' (first
      | assumption | apply State.complete_kept | intro _ _ _ | intro _ _ | intro _ | split)

theorem State.unitNext_kept {z : State} {s : State} {n : ℕ} {u : ℕ} {x : NbUnit} {h0 : Queued} (h : Kept z s) :
    Kept z (State.unitNext s n u x h0) := by
  unfold State.unitNext
  with_reducible
    repeat' (first
      | assumption | apply State.nbuDone_kept | apply State.setUnit_kept | split)

theorem State.nbuReturn_kept {z : State} {s : State} {n : ℕ} {u : ℕ} {x : NbUnit} {slot : Slot} {atom : Bytes} {crcFails : ℕ} {h0 : Queued} (h : Kept z s) :
    Kept z (State.nbuReturn s n u x slot atom crcFails h0) := by
  unfold State.nbuReturn
  try dsimp only
  with_reducible
    repeat' (first
      | assumption | apply State.nbuFail_kept | apply State.bump_kept | apply State.unitNext_kept
      | apply State.write_kept | apply State.gate_kept | apply State.nbuEnd_kept
      | (refine Kept.fst (by assumption) ?_) | split)

theorem State.returnCredit_kept {z : State} {s : State} {data : Bool} (h : Kept z s) :
    Kept z (State.returnCredit s data) := by
  unfold State.returnCredit
  with_reducible
    repeat' (first
      | assumption | split)

theorem State.memServed_kept {z : State} {s : State} {write : Bool} {arrived : ℕ} (h : Kept z s) :
    Kept z (State.memServed s write arrived) := by
  unfold State.memServed
  try dsimp only
  with_reducible
    repeat' (first
      | assumption | apply State.bump_kept | apply State.put_kept | apply State.wrapAdd_kept | split)

theorem State.writeServed_kept {z : State} {s : State} {tag : ℕ} {arrived : ℕ} (h : Kept z s) :
    Kept z (State.writeServed s tag arrived) := by
  unfold State.writeServed
  with_reducible
    repeat' (first
      | assumption | apply State.returnCredit_kept | apply State.memServed_kept | apply State.emit_kept)

theorem State.hostRead_kept {z : State} {s : State} {n : ℕ} {pc : ℕ} {line : ℕ} {tag : ℕ} {a : StackAcc} (h : Kept z s) :
    Kept z (State.hostRead s n pc line tag a) := by
  unfold State.hostRead
  try dsimp only
  with_reducible
    repeat' (first
      | assumption | apply State.returnCredit_kept | apply State.passLine_kept | apply State.violation_kept
      | apply State.decodeWord_kept | apply State.memServed_kept | apply State.emit_kept | split)

theorem State.writeLine_kept {z : State} {s : State} {line : ℕ} {bs : Bytes} {enable : ℕ} (h : Kept z s) :
    Kept z (State.writeLine s line bs enable) := by
  unfold State.writeLine
  try dsimp only
  with_reducible
    repeat' (first
      | assumption | apply State.poisonRange_kept | apply State.write_kept | split)

theorem State.hostWriteLine_kept {z : State} {s : State} {line : ℕ} {bs : Bytes} {enable : ℕ} (h : Kept z s) :
    Kept z (State.hostWriteLine s line bs enable) := by
  unfold State.hostWriteLine
  with_reducible
    repeat' (first
      | assumption | apply State.passLine_kept | apply State.violation_kept | apply State.writeLine_kept | split)

theorem State.perform_kept {z : State} {s : State} {n : ℕ} {pc : ℕ} {a : StackAcc} (h : Kept z s) :
    Kept z (State.perform s n pc a) := by
  unfold State.perform
  try dsimp only
  with_reducible
    repeat' (first
      | assumption | apply State.writeServed_kept | apply State.hostRead_kept | apply State.put_kept
      | apply State.hostWriteLine_kept | apply State.decodeWord_kept | apply State.writeLine_kept | split)

theorem State.stackArrive_kept {z : State} {s : State} {n : ℕ} {a : StackAcc} (h : Kept z s) :
    Kept z (State.stackArrive s n a) := by
  unfold State.stackArrive
  try dsimp only
  with_reducible
    repeat' (first
      | assumption | apply State.writeServed_kept | apply State.perform_kept | apply State.modStack_kept | intro _ _ _
      | intro _ _ | intro _ | split)

theorem State.setBal_kept {z : State} {s : State} {n : ℕ} {pc : ℕ} {b : ℤ} (h : Kept z s) :
    Kept z (State.setBal s n pc b) := by
  unfold State.setBal
  with_reducible
    repeat' (first
      | assumption | apply State.modStack_kept | intro _ _ _ | intro _ _ | intro _)

theorem State.refreshes_kept {z : State} {s : State} {n : ℕ} {pc : ℕ} (h : Kept z s) :
    Kept z (State.refreshes s n pc) := by
  unfold State.refreshes
  try dsimp only
  with_reducible
    repeat' (first
      | assumption | apply State.setBal_kept | apply State.wrapAdd_kept | apply State.modStack_kept | intro _ _ _
      | intro _ _ | intro _ | split)

theorem State.refreshInterval_kept {z : State} {s : State} {n : ℕ} {pc : ℕ} (h : Kept z s) :
    Kept z (State.refreshInterval s n pc) := by
  unfold State.refreshInterval
  try dsimp only
  with_reducible
    repeat' (first
      | assumption | apply State.refreshes_kept | apply State.setBal_kept | apply State.modStack_kept | intro _ _ _
      | intro _ _ | intro _ | split)

theorem State.nbuStart_kept {z : State} {s : State} {n : ℕ} {mem : MemReport} (h : Kept z s) :
    Kept z (State.nbuStart s n mem) := by
  unfold State.nbuStart
  try dsimp only
  with_reducible
    repeat' (first
      | assumption | apply State.nbuFail_kept | apply State.complete_kept | apply State.gate_kept
      | apply State.setUnit_kept | apply State.memReport_kept | apply State.nbuEnd_kept | apply State.setHead_kept
      | apply Kept.foldl | intro _ _ _ | intro _ _ | intro _ | (refine Kept.fst (by assumption) ?_) | split)

theorem State.fenceUnits_kept {z : State} {s : State} {n : ℕ} (h : Kept z s) :
    Kept z (State.fenceUnits s n) := by
  unfold State.fenceUnits
  try dsimp only
  with_reducible
    repeat' (first
      | assumption | apply State.raise_kept | apply State.put_kept | apply State.modStack_kept | apply Kept.foldl
      | intro _ _ _ | intro _ _ | intro _ | split)

theorem State.servePc_kept {z : State} {s : State} {n : ℕ} {pc : ℕ} (h : Kept z s) :
    Kept z (State.servePc s n pc) := by
  unfold State.servePc
  try dsimp only
  with_reducible
    repeat' (first
      | assumption | apply State.bump_kept | apply State.perform_kept | apply State.modStack_kept | apply Kept.foldl
      | intro _ _ _ | intro _ _ | intro _)

theorem State.setNbSlot_kept {z : State} {s : State} {n : ℕ} {u : ℕ} {k : ℕ} {x : Slot} (h : Kept z s) :
    Kept z (State.setNbSlot s n u k x) := by
  unfold State.setNbSlot
  with_reducible
    repeat' (first
      | assumption | apply State.modStack_kept | intro _ _ _ | intro _ _ | intro _)

theorem State.atomEnd_kept {z : State} {s : State} {n : ℕ} {u : ℕ} {x : NbUnit} {atom : Bytes} {crcFails : ℕ} {h0 : Queued} (h : Kept z s) :
    Kept z (State.atomEnd s n u x atom crcFails h0) := by
  unfold State.atomEnd
  try dsimp only
  with_reducible
    repeat' (first
      | assumption | apply State.unitNext_kept | apply State.setUnit_kept | apply State.nbuReturn_kept
      | apply State.modStack_kept | intro _ _ _ | intro _ _ | intro _ | split)

theorem State.nbuAtom_kept {z : State} {s : State} {n : ℕ} {u : ℕ} {rep : NbuReport} (h : Kept z s) :
    Kept z (State.nbuAtom s n u rep) := by
  unfold State.nbuAtom
  try dsimp only
  with_reducible
    repeat' (first
      | assumption | apply State.nbuFail_kept | apply State.bump_kept | apply State.setNbSlot_kept
      | apply State.setUnit_kept | apply State.atomEnd_kept | apply State.wrapAdd_kept | apply State.modStack_kept
      | intro _ _ _ | intro _ _ | intro _ | split)

theorem State.trainingEnd_kept {z : State} {s : State} {n : ℕ} {spares : ℕ} {failed : List ℕ} (h : Kept z s) :
    Kept z (State.trainingEnd s n spares failed) := by
  unfold State.trainingEnd
  try dsimp only
  with_reducible
    repeat' (first
      | assumption | apply State.servePc_kept | apply State.finish_kept | apply State.put_kept
      | apply State.modStack_kept | apply Kept.foldl | intro _ _ _ | intro _ _ | intro _ | split)

theorem State.boundary_kept {z : State} {s : State} {n : ℕ} {pc : ℕ} (h : Kept z s) :
    Kept z (State.boundary s n pc) := by
  unfold State.boundary
  try dsimp only
  with_reducible
    repeat' (first
      | assumption | apply State.servePc_kept | apply State.refreshes_kept | apply State.modStack_kept | intro _ _ _
      | intro _ _ | intro _ | split)

theorem State.chainReceive_kept {z : State} {s : State} {n : ℕ} {u : ℕ} {crcFails : ℕ} (h : Kept z s) :
    Kept z (State.chainReceive s n u crcFails) := by
  unfold State.chainReceive
  try dsimp only
  with_reducible
    repeat' (first
      | assumption | apply State.setNbSlot_kept | apply State.atomEnd_kept | apply State.modStack_kept
      | apply Kept.foldl | intro _ _ _ | intro _ _ | intro _ | split)

end Sys2Proof.Machine
end

