-- ==== Sys2Proof/Laws/KeptStaging.lean ====
section
/-!
SUPPORT. What the operations of Machine/Staging.lean keep.
-/

set_option linter.all false

namespace Sys2Proof.Machine

theorem State.takeRegs_kept {z : State} {s : State} {which : ℕ → Bool} (h : Kept z s) :
    Kept z (State.takeRegs s which) := by
  unfold State.takeRegs
  with_reducible
    repeat' (first
      | assumption | apply State.put_kept | apply Kept.foldl | intro _ _ _ | intro _ _ | intro _ | split)

theorem State.wouldDevice_kept {z : State} {s : State} (h : Kept z s) :
    Kept z (State.wouldDevice s) := by
  unfold State.wouldDevice
  with_reducible
    repeat' (first
      | assumption | apply State.takeRegs_kept | intro _ _ _ | intro _ _ | intro _)

theorem State.digest_kept {z : State} {s : State} (h : Kept z s) :
    Kept z (State.digest s) := by
  unfold State.digest
  with_reducible
    repeat' (first
      | assumption | apply State.put_kept)

theorem State.refreshCfg_kept {z : State} {s : State} (h : Kept z s) :
    Kept z (State.refreshCfg s) := by
  unfold State.refreshCfg
  try dsimp only
  with_reducible
    repeat' (first
      | assumption | apply State.put_kept | apply State.putBit_kept | intro _ _ _ | intro _ _ | intro _)

theorem State.liveEntries_kept {z : State} {s : State} {b : Bytes} (h : Kept z s) :
    Kept z (State.liveEntries s b) := by
  unfold State.liveEntries
  try dsimp only
  with_reducible
    repeat' (first
      | assumption | apply State.writeReg_kept | apply Kept.foldl | intro _ _ _ | intro _ _ | intro _ | split)

theorem State.stageEntry_kept {z : State} {s : State} {e : ℕ × ℕ × ℕ} (h : Kept z s) :
    Kept z (State.stageEntry s e) := by
  unfold State.stageEntry
  with_reducible
    repeat' (first
      | assumption | apply Kept.foldl | intro _ _ _ | intro _ _ | intro _)

theorem State.stageEntries_kept {z : State} {s : State} {b : Bytes} (h : Kept z s) :
    KeptO z (State.stageEntries s b) := by
  unfold State.stageEntries
  with_reducible
    repeat' (first
      | assumption | apply State.stageEntry_kept | apply KeptO.of | apply KeptO.none | apply KeptO.tryAll
      | intro _ _ _ | intro _ _ | intro _ | split)

theorem State.lessGone_kept {z : State} {s : State} {stay : Table (Option Inst)} (h : Kept z s) :
    Kept z (State.lessGone s stay) := by
  unfold State.lessGone
  with_reducible
    repeat' (first
      | assumption | apply State.put_kept | apply Kept.foldl | intro _ _ _ | intro _ _ | intro _)

theorem State.wouldCluster_kept {z : State} {s : State} (h : Kept z s) :
    Kept z (State.wouldCluster s) := by
  unfold State.wouldCluster
  try dsimp only
  with_reducible
    repeat' (first
      | assumption | apply State.lessGone_kept | apply State.takeRegs_kept | intro _ _ _ | intro _ _ | intro _ | split)

theorem State.countConflict_kept {z : State} {s : State} (h : Kept z s) :
    Kept z (State.countConflict s) := by
  unfold State.countConflict
  with_reducible
    repeat' (first
      | assumption | apply State.bump_kept)

end Sys2Proof.Machine
end

