-- ==== Sys2Proof/Laws/KeptCommit.lean ====
section
/-!
SUPPORT. What the operations of Machine/Commit.lean keep.
-/

set_option linter.all false

namespace Sys2Proof.Machine

theorem State.regionMode_kept {z : State} {s : State} {n : ℕ} {new : ℕ} (h : Kept z s) :
    Kept z (State.regionMode s n new) := by
  unfold State.regionMode
  try dsimp only
  with_reducible
    repeat' (first
      | assumption | apply State.zero_kept | apply State.put_kept | apply State.modStack_kept | apply Kept.foldl
      | intro _ _ _ | intro _ _ | intro _ | split)

theorem State.commitField_kept {z : State} {s : State} {e : ℕ × ℕ} (h : Kept z s) :
    Kept z (State.commitField s e) := by
  unfold State.commitField
  try dsimp only
  with_reducible
    repeat' (first
      | assumption | apply State.flushGranary_kept | apply State.regionMode_kept | apply State.put_kept | intro _ _ _
      | intro _ _ | intro _ | split)

theorem State.commitRegs_kept {z : State} {s : State} {which : ℕ → Bool} (h : Kept z s) :
    Kept z (State.commitRegs s which) := by
  unfold State.commitRegs
  try dsimp only
  with_reducible
    repeat' (first
      | assumption | apply State.settleLevels_kept | apply State.relink_kept | apply State.commitField_kept
      | apply Kept.foldl | intro _ _ _ | intro _ _ | intro _ | split)

theorem State.activateDevice_kept {z : State} {s : State} (h : Kept z s) :
    Kept z (State.activateDevice s) := by
  unfold State.activateDevice
  with_reducible
    repeat' (first
      | assumption | apply State.digest_kept | apply State.refreshCfg_kept | apply State.commitRegs_kept | intro _ _ _
      | intro _ _ | intro _)

theorem State.lockSets_kept {z : State} {s : State} {cluster : Bool} {device : Bool} (h : Kept z s) :
    Kept z (State.lockSets s cluster device) := by
  unfold State.lockSets
  with_reducible
    repeat' (first
      | assumption | apply State.refreshCfg_kept)

theorem State.commitDone_kept {z : State} {s : State} {no : ℕ} {r0 : ℕ} {r1 : ℕ} (h : Kept z s) :
    Kept z (State.commitDone s no r0 r1) := by
  unfold State.commitDone
  try dsimp only
  with_reducible
    repeat' (first
      | assumption | apply State.reply_kept | apply State.lockSets_kept | split)

theorem State.finishSettled_kept {z : State} {s : State} {no : ℕ} {r0 : ℕ} {r1 : ℕ} (h : Kept z s) :
    Kept z (State.finishSettled s no r0 r1) := by
  unfold State.finishSettled
  with_reducible
    repeat' (first
      | assumption | apply State.commitDone_kept | split)

theorem State.dueDevice_kept {z : State} {s : State} {no : ℕ} (h : Kept z s) :
    Kept z (State.dueDevice s no) := by
  unfold State.dueDevice
  with_reducible
    repeat' (first
      | assumption | apply State.wouldDevice_kept | apply State.bump_kept | apply State.replyWith_kept
      | apply State.activateDevice_kept | apply State.finishSettled_kept | apply State.lockSets_kept | split)

theorem State.takeDevice_kept {z : State} {s : State} {no : ℕ} (h : Kept z s) :
    Kept z (State.takeDevice s no) := by
  unfold State.takeDevice
  try dsimp only
  with_reducible
    repeat' (first
      | assumption | apply State.bump_kept | apply State.replyWith_kept | apply State.dueDevice_kept
      | apply State.lockSets_kept | split)

theorem State.refuseCommit_kept {z : State} {s : State} {t : Ticket} (h : Kept z s) :
    Kept z (State.refuseCommit s t) := by
  unfold State.refuseCommit
  with_reducible
    repeat' (first
      | assumption | apply State.bump_kept | apply State.finishWith_kept)

theorem State.commitDevices_kept {z : State} {s : State} {t : Ticket} (h : Kept z s) :
    Kept z (State.commitDevices s t) := by
  unfold State.commitDevices
  try dsimp only
  with_reducible
    repeat' (first
      | assumption | apply State.awaitSelf_kept | apply State.takeDevice_kept | apply State.refuseCommit_kept
      | apply State.addReply_kept | apply State.forwardTo_kept | apply Kept.foldl | intro _ _ _ | intro _ _ | intro _
      | split)

theorem State.abortCommit_kept {z : State} {s : State} {c : LeadCommit} {dev : ℕ} {detail : ℕ} (h : Kept z s) :
    Kept z (State.abortCommit s c dev detail) := by
  unfold State.abortCommit
  try dsimp only
  with_reducible
    repeat' (first
      | assumption | apply State.bump_kept | apply State.finish_kept | apply State.sendAll_kept
      | apply State.lockSets_kept)

theorem State.decideCommit_kept {z : State} {s : State} (h : Kept z s) :
    Kept z (State.decideCommit s) := by
  unfold State.decideCommit
  try dsimp only
  with_reducible
    repeat' (first
      | assumption | apply State.abortCommit_kept | apply State.sendAll_kept | apply Kept.foldl | intro _ _ _
      | intro _ _ | intro _ | split)

theorem State.decideEarly_kept {z : State} {s : State} (h : Kept z s) :
    Kept z (State.decideEarly s) := by
  unfold State.decideEarly
  with_reducible
    repeat' (first
      | assumption | apply State.decideCommit_kept | split)

theorem State.returnRegions_kept {z : State} {s : State} {x : Inst} (h : Kept z s) :
    Kept z (State.returnRegions s x) := by
  unfold State.returnRegions
  with_reducible
    repeat' (first
      | assumption | apply State.regionMode_kept | apply Kept.foldl | intro _ _ _ | intro _ _ | intro _)

theorem State.refreshProt_kept {z : State} {s : State} (h : Kept z s) :
    Kept z (State.refreshProt s) := by
  unfold State.refreshProt
  with_reducible
    repeat' (first
      | assumption | apply State.unprotect_kept | intro _ _ _ | intro _ _ | intro _ | split)

theorem State.zeroExtents_kept {z : State} {s : State} {x : Inst} (h : Kept z s) :
    Kept z (State.zeroExtents s x) := by
  unfold State.zeroExtents
  with_reducible
    repeat' (first
      | assumption | apply State.zero_kept | apply Kept.foldl | intro _ _ _ | intro _ _ | intro _)

theorem State.endsWhole_kept {z : State} {s : State} {th : ℕ} {e : ℕ × Inst} (h : Kept z s) :
    Kept z (State.endsWhole s th e) := by
  unfold State.endsWhole
  try dsimp only
  with_reducible
    repeat' (first
      | assumption | apply State.endInst_kept | apply State.put_kept | apply State.zeroExtents_kept | split)

theorem State.showPlan_kept {z : State} {s : State} (h : Kept z s) :
    Kept z (State.showPlan s) := by
  unfold State.showPlan
  try dsimp only
  with_reducible
    repeat' (first
      | assumption | apply State.put_kept | intro _ _ _ | intro _ _ | intro _)

theorem State.commitCluster_kept {z : State} {s : State} {t : Ticket} (h : Kept z s) :
    Kept z (State.commitCluster s t) := by
  unfold State.commitCluster
  try dsimp only
  with_reducible
    repeat' (first
      | assumption | apply State.refuseCommit_kept | apply State.finishWith_kept | apply State.wouldCluster_kept
      | apply State.sendAll_kept | apply State.decideEarly_kept | apply State.lockSets_kept | split)

theorem State.declaredAbort_kept {z : State} {s : State} {dev : ℕ} (h : Kept z s) :
    Kept z (State.declaredAbort s dev) := by
  unfold State.declaredAbort
  with_reducible
    repeat' (first
      | assumption | apply State.abortCommit_kept | split)

theorem State.releaseSettled_kept {z : State} {s : State} (h : Kept z s) :
    Kept z (State.releaseSettled s) := by
  unfold State.releaseSettled
  try dsimp only
  with_reducible
    repeat' (first
      | assumption | apply State.releaseHeld_kept | apply State.commitDone_kept | apply Kept.foldl | intro _ _ _
      | intro _ _ | intro _ | split)

theorem State.removeInst_kept {z : State} {s : State} {th : ℕ} {e : ℕ × Inst} (h : Kept z s) :
    Kept z (State.removeInst s th e) := by
  unfold State.removeInst
  with_reducible
    repeat' (first
      | assumption | apply State.endsWhole_kept | apply State.returnRegions_kept)

theorem State.commitInsts_kept {z : State} {s : State} {th : ℕ} (h : Kept z s) :
    Kept z (State.commitInsts s th) := by
  unfold State.commitInsts
  try dsimp only
  with_reducible
    repeat' (first
      | assumption | apply State.refreshProt_kept | apply State.put_kept | apply State.removeInst_kept
      | apply Kept.foldl | intro _ _ _ | intro _ _ | intro _ | split)

theorem State.commitPlan_kept {z : State} {s : State} (h : Kept z s) :
    Kept z (State.commitPlan s) := by
  unfold State.commitPlan
  try dsimp only
  with_reducible
    repeat' (first
      | assumption | apply State.put_kept | apply State.showPlan_kept | split)

theorem State.activateCluster_kept {z : State} {s : State} {epoch : ℕ} {th : ℕ} (h : Kept z s) :
    Kept z (State.activateCluster s epoch th) := by
  unfold State.activateCluster
  try dsimp only
  with_reducible
    repeat' (first
      | assumption | apply State.commitInsts_kept | apply State.digest_kept | apply State.refreshCfg_kept
      | apply State.put_kept | apply State.commitPlan_kept | apply State.commitRegs_kept | intro _ _ _ | intro _ _
      | intro _)

theorem State.commitPrepared_kept {z : State} {s : State} {th : ℕ} (h : Kept z s) :
    Kept z (State.commitPrepared s th) := by
  unfold State.commitPrepared
  try dsimp only
  with_reducible
    repeat' (first
      | assumption | apply State.activateCluster_kept | apply State.finishSettled_kept | apply State.lockSets_kept
      | split)

theorem State.commitItem_kept {z : State} {s : State} {th : ℕ} (h : Kept z s) :
    Kept z (State.commitItem s th) := by
  unfold State.commitItem
  try dsimp only
  with_reducible
    repeat' (first
      | assumption | apply State.dueDevice_kept | apply State.commitPrepared_kept | apply Kept.foldl | intro _ _ _
      | intro _ _ | intro _ | split)

theorem State.deferCommit_kept {z : State} {s : State} (h : Kept z s) :
    Kept z (State.deferCommit s) := by
  unfold State.deferCommit
  with_reducible
    repeat' (first
      | assumption | apply State.refreshCfg_kept | split)

theorem State.replyIn_kept {z : State} {s : State} {src : ℕ} {epoch : ℕ} {check : Option ℕ} (h : Kept z s) :
    Kept z (State.replyIn s src epoch check) := by
  unfold State.replyIn
  try dsimp only
  with_reducible
    repeat' (first
      | assumption | apply State.decideEarly_kept | intro _ _ _ | intro _ _ | intro _ | split)

theorem State.goIn_kept {z : State} {s : State} {epoch : ℕ} (h : Kept z s) :
    Kept z (State.goIn s epoch) := by
  unfold State.goIn
  with_reducible
    repeat' (first
      | assumption | split)

theorem State.prepareIn_kept {z : State} {s : State} {src : ℕ} {epoch : ℕ} {k : ℕ} (h : Kept z s) :
    Kept z (State.prepareIn s src epoch k) := by
  unfold State.prepareIn
  try dsimp only
  with_reducible
    repeat' (first
      | assumption | apply State.sendCtrl_kept | apply State.countConflict_kept | apply State.wouldCluster_kept
      | apply State.lockSets_kept | split)

theorem State.abortIn_kept {z : State} {s : State} {epoch : ℕ} (h : Kept z s) :
    Kept z (State.abortIn s epoch) := by
  unfold State.abortIn
  with_reducible
    repeat' (first
      | assumption | apply State.bump_kept | apply State.lockSets_kept | split)

end Sys2Proof.Machine
end

