-- ==== Sys2Proof/Laws/KeptMeridian.lean ====
section
/-!
SUPPORT. What the operations of Machine/Meridian.lean keep.
-/

set_option linter.all false

namespace Sys2Proof.Machine

theorem State.dropSteps_kept {z : State} {s : State} (h : Kept z s) :
    Kept z (State.dropSteps s) := by
  unfold State.dropSteps
  with_reducible
    repeat' (first
      | assumption | apply State.abandonTile_kept | apply State.clearColl_kept | apply Kept.foldl | intro _ _ _
      | intro _ _ | intro _ | split)

theorem State.dropSends_kept {z : State} {s : State} (h : Kept z s) :
    Kept z (State.dropSends s) := by
  unfold State.dropSends
  with_reducible
    repeat' (first
      | assumption | intro _ _ _ | intro _ _ | intro _)

theorem State.commitIdle_kept {z : State} {s : State} (h : Kept z s) :
    Kept z (State.commitIdle s) := by
  unfold State.commitIdle
  try dsimp only
  with_reducible
    repeat' (first
      | assumption | apply State.dueDevice_kept | apply State.decideEarly_kept | apply Kept.foldl | intro _ _ _
      | intro _ _ | intro _)

theorem State.stopped_kept {z : State} {s : State} (h : Kept z s) :
    Kept z (State.stopped s) := by
  unfold State.stopped
  try dsimp only
  with_reducible
    repeat' (first
      | assumption | apply State.put_kept | apply State.clearLanes_kept | apply State.putBit_kept
      | apply State.restTiles_kept | apply State.dropSends_kept | apply State.commitIdle_kept | intro _ _ _
      | intro _ _ | intro _ | split)

theorem State.endWait_kept {z : State} {s : State} {no : Option ℕ} {a : Answer} (h : Kept z s) :
    Kept z (State.endWait s no a) := by
  unfold State.endWait
  with_reducible
    repeat' (first
      | assumption | apply State.finish_kept | split)

theorem State.haltSchedule_kept {z : State} {s : State} (h : Kept z s) :
    Kept z (State.haltSchedule s) := by
  unfold State.haltSchedule
  try dsimp only
  with_reducible
    repeat' (first
      | assumption | apply State.dropSteps_kept | apply State.stopped_kept | apply State.endWait_kept | split)

theorem State.setFenced_kept {z : State} {s : State} (h : Kept z s) :
    Kept z (State.setFenced s) := by
  unfold State.setFenced
  with_reducible
    repeat' (first
      | assumption | apply State.put_kept | split)

theorem State.setMrd_kept {z : State} {s : State} {v : ℕ} (h : Kept z s) :
    Kept z (State.setMrd s v) := by
  unfold State.setMrd
  with_reducible
    repeat' (first
      | assumption | apply State.put_kept | apply State.putBit_kept)

theorem State.align_kept {z : State} {s : State} (h : Kept z s) :
    Kept z (State.align s) := by
  unfold State.align
  try dsimp only
  with_reducible
    repeat' (first
      | assumption | apply State.put_kept | apply State.putBit_kept)

theorem State.reacquire_kept {z : State} {s : State} (h : Kept z s) :
    Kept z (State.reacquire s) := by
  unfold State.reacquire
  with_reducible
    repeat' (first
      | assumption | apply State.setMrd_kept | split)

theorem State.assignTime_kept {z : State} {s : State} {v : ℕ} (h : Kept z s) :
    Kept z (State.assignTime s v) := by
  unfold State.assignTime
  try dsimp only
  with_reducible
    repeat' (first
      | assumption | apply State.put_kept | apply State.putBit_kept)

theorem State.acceptMark_kept {z : State} {s : State} {e : ℤ} (h : Kept z s) :
    Kept z (State.acceptMark s e) := by
  unfold State.acceptMark
  try dsimp only
  with_reducible
    repeat' (first
      | assumption | apply State.assignTime_kept | apply State.put_kept | apply State.finishWith_kept
      | apply State.wrapAdd_kept | apply Kept.foldl | intro _ _ _ | intro _ _ | intro _ | split)

theorem State.unlock_kept {z : State} {s : State} (h : Kept z s) :
    Kept z (State.unlock s) := by
  unfold State.unlock
  try dsimp only
  with_reducible
    repeat' (first
      | assumption | apply State.setFenced_kept | apply State.setMrd_kept | apply State.bump_kept
      | apply State.haltSchedule_kept | apply State.raise_kept | apply State.put_kept | split)

theorem State.markEdge_kept {z : State} {s : State} (h : Kept z s) :
    Kept z (State.markEdge s).1 := by
  unfold State.markEdge
  try dsimp only
  with_reducible
    repeat' (first
      | assumption | apply State.setMrd_kept | apply State.bump_kept | apply State.align_kept
      | apply State.reacquire_kept | apply State.put_kept | apply State.acceptMark_kept | apply State.unlock_kept
      | (refine Kept.fst (by assumption) ?_) | split)

theorem State.heardMark_kept {z : State} {s : State} {v : ℕ} {st : ℕ} (h : Kept z s) :
    Kept z (State.heardMark s v st) := by
  unfold State.heardMark
  try dsimp only
  with_reducible
    repeat' (first
      | assumption | apply State.bump_kept | apply State.unlock_kept | split)

theorem State.missMark_kept {z : State} {s : State} (h : Kept z s) :
    Kept z (State.missMark s) := by
  unfold State.missMark
  try dsimp only
  with_reducible
    repeat' (first
      | assumption | apply State.setMrd_kept | apply State.bump_kept | apply State.put_kept | apply State.unlock_kept
      | split)

theorem State.pllLock_kept {z : State} {s : State} (h : Kept z s) :
    Kept z (State.pllLock s) := by
  unfold State.pllLock
  try dsimp only
  with_reducible
    repeat' (first
      | assumption | apply State.setMrd_kept | apply State.putBit_kept | split)

theorem State.clockLost_kept {z : State} {s : State} (h : Kept z s) :
    Kept z (State.clockLost s) := by
  unfold State.clockLost
  try dsimp only
  with_reducible
    repeat' (first
      | assumption | apply State.setMrd_kept | apply State.bump_kept | apply State.put_kept | apply State.putBit_kept
      | apply State.unlock_kept | split)

end Sys2Proof.Machine
end

