-- ==== Sys2Proof/Laws/KeptFurrow.lean ====
section
/-!
SUPPORT. What the operations of Machine/Furrow.lean keep.
-/

set_option linter.all false

namespace Sys2Proof.Machine

theorem State.refuseSets_kept {z : State} {s : State} (h : Kept z s) :
    Kept z (State.refuseSets s) := by
  unfold State.refuseSets
  try dsimp only
  with_reducible
    repeat' (first
      | assumption | apply State.finishWith_kept | apply Kept.foldl | intro _ _ _ | intro _ _ | intro _)

theorem State.arm_kept {z : State} {s : State} {t0 : ℕ} {k0 : ℕ} (h : Kept z s) :
    Kept z (State.arm s t0 k0) := by
  unfold State.arm
  try dsimp only
  with_reducible
    repeat' (first
      | assumption | apply State.refuseSets_kept | apply State.put_kept)

theorem State.startLead_kept {z : State} {s : State} {t : Ticket} (h : Kept z s) :
    Kept z (State.startLead s t) := by
  unfold State.startLead
  try dsimp only
  with_reducible
    repeat' (first
      | assumption | apply State.arm_kept | apply State.finishWith_kept | apply State.sendAll_kept | split)

theorem State.stopAtHeadland_kept {z : State} {s : State} {k : ℕ} (h : Kept z s) :
    Kept z (State.stopAtHeadland s k) := by
  unfold State.stopAtHeadland
  try dsimp only
  with_reducible
    repeat' (first
      | assumption | apply State.putBit_kept | split)

theorem State.stopAll_kept {z : State} {s : State} {k : ℕ} (h : Kept z s) :
    Kept z (State.stopAll s k) := by
  unfold State.stopAll
  with_reducible
    repeat' (first
      | assumption | apply State.stopAtHeadland_kept | apply State.sendAll_kept)

theorem State.stopLead_kept {z : State} {s : State} {t : Ticket} (h : Kept z s) :
    Kept z (State.stopLead s t) := by
  unfold State.stopLead
  try dsimp only
  with_reducible
    repeat' (first
      | assumption | apply State.haltSchedule_kept | apply State.finishWith_kept | apply State.stopAll_kept
      | apply State.sendAll_kept | split)

theorem State.stopIn_kept {z : State} {s : State} {k : ℕ} (h : Kept z s) :
    Kept z (State.stopIn s k) := by
  unfold State.stopIn
  with_reducible
    repeat' (first
      | assumption | apply State.haltSchedule_kept | apply State.stopAtHeadland_kept | split)

theorem State.silentFor_kept {z : State} {s : State} {d : ℕ} {n : ℕ} (h : Kept z s) :
    Kept z (State.silentFor s d n) := by
  unfold State.silentFor
  with_reducible
    repeat' (first
      | assumption | apply State.sendCtrl_kept | split)

theorem State.beaconsDue_kept {z : State} {s : State} (h : Kept z s) :
    Kept z (State.beaconsDue s) := by
  unfold State.beaconsDue
  try dsimp only
  with_reducible
    repeat' (first
      | assumption | apply State.bump_kept | apply State.silentFor_kept | apply Kept.foldl | intro _ _ _ | intro _ _
      | intro _ | split)

theorem State.hearBeacon_kept {z : State} {s : State} {p : ℕ} {b : Bytes} (h : Kept z s) :
    Kept z (State.hearBeacon s p b) := by
  unfold State.hearBeacon
  try dsimp only
  assumption

theorem State.abandonStep_kept {z : State} {s : State} (h : Kept z s) :
    Kept z (State.abandonStep s) := by
  unfold State.abandonStep
  try dsimp only
  with_reducible
    repeat' (first
      | assumption | apply State.bump_kept | apply State.dropOccur_kept | apply State.noteFailed_kept
      | apply State.raise_kept | apply State.abandonTile_kept | apply State.clearColl_kept | apply Kept.foldl
      | intro _ _ _ | intro _ _ | intro _ | split)

theorem State.checkStep_kept {z : State} {s : State} (h : Kept z s) :
    Kept z (State.checkStep s) := by
  unfold State.checkStep
  try dsimp only
  with_reducible
    repeat' (first
      | assumption | apply State.bump_kept | apply State.put_kept | apply State.putBit_kept | split)

theorem State.sendOn_kept {z : State} {s : State} {ports : List ℕ} {f : Frame} (h : Kept z s) :
    Kept z (State.sendOn s ports f) := by
  unfold State.sendOn
  with_reducible
    repeat' (first
      | assumption | apply State.sendSeq_kept | apply Kept.foldl | intro _ _ _ | intro _ _ | intro _)

theorem State.sendBeacon_kept {z : State} {s : State} (h : Kept z s) :
    Kept z (State.sendBeacon s) := by
  unfold State.sendBeacon
  with_reducible
    repeat' (first
      | assumption | apply State.sendOn_kept | split)

theorem State.lateCheck_kept {z : State} {s : State} (h : Kept z s) :
    Kept z (State.lateCheck s) := by
  unfold State.lateCheck
  try dsimp only
  with_reducible
    repeat' (first
      | assumption | apply State.decideCommit_kept | apply State.abandonStep_kept | apply State.checkStep_kept
      | apply State.deferReplay_kept | apply State.sendBeacon_kept | split)

theorem State.acceptBeacon_kept {z : State} {s : State} {b : Bytes} (h : Kept z s) :
    Kept z (State.acceptBeacon s b) := by
  unfold State.acceptBeacon
  try dsimp only
  with_reducible
    repeat' (first
      | assumption | apply State.heardMark_kept | split)

theorem State.beginFallow_kept {z : State} {s : State} (h : Kept z s) :
    Kept z (State.beginFallow s) := by
  unfold State.beginFallow
  try dsimp only
  with_reducible
    repeat' (first
      | assumption | apply State.bump_kept | apply State.endOccur_kept | apply State.put_kept)

theorem State.beginStep_kept {z : State} {s : State} (h : Kept z s) :
    Kept z (State.beginStep s) := by
  unfold State.beginStep
  try dsimp only
  with_reducible
    repeat' (first
      | assumption | apply State.startBlind_kept | apply State.countLanes_kept | apply State.countWaits_kept
      | apply State.startOutside_kept | apply State.put_kept | apply State.startMisses_kept
      | apply State.noteDone_kept | apply State.startTile_kept | apply Kept.foldl | intro _ _ _ | intro _ _ | intro _)

theorem State.freshFurrow_kept {z : State} {s : State} (h : Kept z s) :
    Kept z (State.freshFurrow s) := by
  unfold State.freshFurrow
  try dsimp only
  with_reducible
    repeat' (first
      | assumption | apply State.putBit_kept)

theorem State.bodyStart_kept {z : State} {s : State} (h : Kept z s) :
    Kept z (State.bodyStart s) := by
  unfold State.bodyStart
  try dsimp only
  with_reducible
    repeat' (first
      | assumption | apply State.haltSchedule_kept | apply State.beginFallow_kept | apply State.beginStep_kept | apply State.endStep_kept
      | apply State.put_kept | apply State.freshFurrow_kept | apply State.putBit_kept | apply State.endWait_kept
      | split)

theorem State.dropEpoch_kept {z : State} {s : State} {p : ℕ} {dev : ℕ} {epoch : ℕ} {serial : ℕ} (h : Kept z s) :
    Kept z (State.dropEpoch s p dev epoch serial) := by
  unfold State.dropEpoch
  with_reducible
    repeat' (first
      | assumption | apply State.bump_kept | apply State.answerFenced_kept)

theorem State.relayIn_kept {z : State} {s : State} {p : ℕ} {b : Bytes} (h : Kept z s) :
    Kept z (State.relayIn s p b) := by
  unfold State.relayIn
  try dsimp only
  with_reducible
    repeat' (first
      | assumption | apply State.dropEpoch_kept | split)

theorem State.turnDevice_kept {z : State} {s : State} {template : Option ℕ} (h : Kept z s) :
    Kept z (State.turnDevice s template) := by
  unfold State.turnDevice
  try dsimp only
  with_reducible
    repeat' (first
      | assumption | apply State.turnTiles_kept | apply State.put_kept | apply State.fenceUnits_kept
      | apply State.clearColl_kept | apply Kept.foldl | intro _ _ _ | intro _ _ | intro _ | split)

theorem State.beaconIn_kept {z : State} {s : State} {p : ℕ} {b : Bytes} (h : Kept z s) :
    Kept z (State.beaconIn s p b) := by
  unfold State.beaconIn
  try dsimp only
  with_reducible
    repeat' (first
      | assumption | apply State.dropEpoch_kept | apply State.hearBeacon_kept | apply State.acceptBeacon_kept | split)

theorem State.collapse_kept {z : State} {s : State} (h : Kept z s) :
    Kept z (State.collapse s) := by
  unfold State.collapse
  with_reducible
    repeat' (first
      | assumption | apply State.raise_kept | apply State.stopAll_kept | split)

theorem State.turn_kept {z : State} {s : State} (h : Kept z s) :
    Kept z (State.turn s) := by
  unfold State.turn
  try dsimp only
  with_reducible
    repeat' (first
      | assumption | apply State.bump_kept | apply State.turnDevice_kept | split)

theorem State.sendRelay_kept {z : State} {s : State} (h : Kept z s) :
    Kept z (State.sendRelay s) := by
  unfold State.sendRelay
  with_reducible
    repeat' (first
      | assumption | apply State.sendOn_kept | intro _ _ _ | intro _ _ | intro _ | split)

theorem State.t0In_kept {z : State} {s : State} {t0 : ℕ} {k0 : ℕ} (h : Kept z s) :
    Kept z (State.t0In s t0 k0) := by
  unfold State.t0In
  with_reducible
    repeat' (first
      | assumption | apply State.arm_kept | split)

theorem State.decideFallow_kept {z : State} {s : State} (h : Kept z s) :
    Kept z (State.decideFallow s) := by
  unfold State.decideFallow
  try dsimp only
  with_reducible
    repeat' (first
      | assumption | apply State.putBit_kept | split)

theorem State.startTurn_kept {z : State} {s : State} (h : Kept z s) :
    Kept z (State.startTurn s) := by
  unfold State.startTurn
  try dsimp only
  with_reducible
    repeat' (first
      | assumption | apply State.turnDevice_kept | split)

theorem State.stopEnds_kept {z : State} {s : State} (h : Kept z s) :
    Kept z (State.stopEnds s) := by
  unfold State.stopEnds
  try dsimp only
  with_reducible
    repeat' (first
      | assumption | apply State.stopped_kept | apply State.endStep_kept | apply State.endWait_kept | split)

theorem State.sendEcho_kept {z : State} {s : State} (h : Kept z s) :
    Kept z (State.sendEcho s) := by
  unfold State.sendEcho
  with_reducible
    repeat' (first
      | assumption | apply State.sendOn_kept | split)

theorem State.relaysDue_kept {z : State} {s : State} (h : Kept z s) :
    Kept z (State.relaysDue s) := by
  unfold State.relaysDue
  try dsimp only
  with_reducible
    repeat' (first
      | assumption | apply State.bump_kept | intro _ _ _ | intro _ _ | intro _ | split)

end Sys2Proof.Machine
end

