-- ==== Sys2Proof/Laws/KeptLoading.lean ====
section
/-!
SUPPORT. What the operations of Machine/Loading.lean keep.
-/

set_option linter.all false

namespace Sys2Proof.Machine

theorem State.discardDevice_kept {z : State} {s : State} (h : Kept z s) :
    Kept z (State.discardDevice s) := by
  unfold State.discardDevice
  with_reducible
    repeat' (first
      | assumption | intro _ _ _ | intro _ _ | intro _)

theorem State.stageScale_kept {z : State} {s : State} {n : ℕ} {i : ℕ} {w : ℕ} (h : Kept z s) :
    Kept z (State.stageScale s n i w) := by
  unfold State.stageScale
  with_reducible
    repeat' (first
      | assumption | apply Kept.foldl | intro _ _ _ | intro _ _ | intro _)

theorem State.modelStage_kept {z : State} {s : State} {p : Packet} {b : Bytes} {m : ModelImage} (h : Kept z s) :
    Kept z (State.modelStage s p b m) := by
  unfold State.modelStage
  try dsimp only
  with_reducible
    repeat' (first
      | assumption | apply State.protectAll_kept | apply State.stageScale_kept | apply State.write_kept
      | apply State.regionMode_kept | apply Kept.foldl | intro _ _ _ | intro _ _ | intro _ | split)

theorem State.discardCluster_kept {z : State} {s : State} (h : Kept z s) :
    Kept z (State.discardCluster s) := by
  unfold State.discardCluster
  try dsimp only
  with_reducible
    repeat' (first
      | assumption | apply State.returnRegions_kept | apply Kept.foldl | intro _ _ _ | intro _ _ | intro _)

theorem State.stageHere_kept {z : State} {s : State} {p : Packet} {b : Bytes} {img : Option ModelImage} (h : Kept z s) :
    Kept z (State.stageHere s p b img) := by
  unfold State.stageHere
  with_reducible
    repeat' (first
      | assumption | apply State.liveEntries_kept | apply State.discardDevice_kept | apply State.modelStage_kept
      | apply State.refreshCfg_kept | apply State.stageEntries_kept | apply State.stagePlan_kept
      | apply State.discardCluster_kept | apply KeptO.getD | (refine Kept.ofSome (by assumption) ?_)
      | (dsimp only [Kept]; refine Kept.parts (Kept.ofSome (by assumption) ?_)) | split)

theorem State.stageAnswer_kept {z : State} {s : State} {no : ℕ} {p : Packet} {b : Bytes} {img : Option ModelImage} (h : Kept z s) :
    Kept z (State.stageAnswer s no p b img) := by
  unfold State.stageAnswer
  with_reducible
    repeat' (first
      | assumption | apply State.finishSettled_kept | apply State.stageHere_kept)

theorem State.stageLead_kept {z : State} {s : State} {t : Ticket} (h : Kept z s) :
    Kept z (State.stageLead s t) := by
  unfold State.stageLead
  try dsimp only
  with_reducible
    repeat' (first
      | assumption | apply State.mapTicket_kept | apply State.finish_kept | apply State.forwardEach_kept
      | apply State.finishWith_kept | apply State.stageAnswer_kept | apply State.forwardTo_kept | intro _ _ _
      | intro _ _ | intro _ | split)

theorem State.stageConcluded_kept {z : State} {s : State} {t : Ticket} (h : Kept z s) :
    Kept z (State.stageConcluded s t) := by
  unfold State.stageConcluded
  try dsimp only
  with_reducible
    repeat' (first
      | assumption | apply State.awaitSelf_kept | apply State.mapTicket_kept | apply State.finish_kept
      | apply State.forwardEach_kept | apply State.finishWith_kept | apply State.stageAnswer_kept | intro _ _ _
      | intro _ _ | intro _ | split)

theorem State.stageMember_kept {z : State} {s : State} {t : Ticket} (h : Kept z s) :
    Kept z (State.stageMember s t) := by
  unfold State.stageMember
  try dsimp only
  with_reducible
    repeat' (first
      | assumption | apply State.finish_kept | apply State.finishWith_kept | apply State.stageAnswer_kept | split)

end Sys2Proof.Machine
end

