-- ==== Sys2Proof/Laws/KeptMembers.lean ====
section
/-!
SUPPORT. What the operations of Machine/Members.lean keep.
-/

set_option linter.all false

namespace Sys2Proof.Machine

theorem State.fenceColls_kept {z : State} {s : State} (h : Kept z s) :
    Kept z (State.fenceColls s) := by
  unfold State.fenceColls
  with_reducible
    repeat' (first
      | assumption | apply State.failHead_kept | apply Kept.foldl | intro _ _ _ | intro _ _ | intro _ | split)

theorem State.fencedIn_kept {z : State} {s : State} {d : ℕ} {epoch : ℕ} {serial : ℕ} (h : Kept z s) :
    Kept z (State.fencedIn s d epoch serial) := by
  unfold State.fencedIn
  try dsimp only
  with_reducible
    repeat' (first
      | assumption | apply State.setFenced_kept | apply State.haltSchedule_kept | apply State.raise_kept
      | apply State.fenceColls_kept | split)

theorem State.suspendWhere_kept {z : State} {s : State} {th : ℕ} {p : Inst → Bool} (h : Kept z s) :
    Kept z (State.suspendWhere s th p) := by
  unfold State.suspendWhere
  with_reducible
    repeat' (first
      | assumption | apply State.suspend_kept | apply Kept.foldl | intro _ _ _ | intro _ _ | intro _)

theorem State.removeMember_kept {z : State} {s : State} {th : ℕ} {x : ℕ} (h : Kept z s) :
    Kept z (State.removeMember s th x) := by
  unfold State.removeMember
  try dsimp only
  with_reducible
    repeat' (first
      | assumption | apply State.put_kept | apply State.suspendWhere_kept | apply State.putBit_kept | intro _ _ _
      | intro _ _ | intro _)

theorem State.membershipItem_kept {z : State} {s : State} {th : ℕ} (h : Kept z s) :
    Kept z (State.membershipItem s th) := by
  unfold State.membershipItem
  with_reducible
    repeat' (first
      | assumption | apply State.removeMember_kept | apply Kept.foldl | intro _ _ _ | intro _ _ | intro _ | split)

theorem State.fatalItem_kept {z : State} {s : State} {th : ℕ} (h : Kept z s) :
    Kept z (State.fatalItem s th) := by
  unfold State.fatalItem
  try dsimp only
  with_reducible
    repeat' (first
      | assumption | apply State.put_kept | apply State.suspendWhere_kept | apply Kept.foldl | intro _ _ _ | intro _ _
      | intro _ | split)

theorem State.loseLead_kept {z : State} {s : State} (h : Kept z s) :
    Kept z (State.loseLead s) := by
  unfold State.loseLead
  try dsimp only
  with_reducible
    repeat' (first
      | assumption | apply State.haltSchedule_kept | apply State.raise_kept)

theorem State.silentIn_kept {z : State} {s : State} {src : ℕ} {x : ℕ} (h : Kept z s) :
    Kept z (State.silentIn s src x) := by
  unfold State.silentIn
  with_reducible
    repeat' (first
      | assumption | split)

theorem State.failAwaiting_kept {z : State} {s : State} {d : ℕ} (h : Kept z s) :
    Kept z (State.failAwaiting s d) := by
  unfold State.failAwaiting
  with_reducible
    repeat' (first
      | assumption | apply State.addReply_kept | apply Kept.foldl | intro _ _ _ | intro _ _ | intro _)

theorem State.controlFault_kept {z : State} {s : State} {cause : ℕ} {addr : ℕ} (h : Kept z s) :
    Kept z (State.controlFault s cause addr) := by
  unfold State.controlFault
  try dsimp only
  with_reducible
    repeat' (first
      | assumption | apply State.raise_kept)

theorem State.recordIn_kept {z : State} {s : State} {r : ErrRec} (h : Kept z s) :
    Kept z (State.recordIn s r) := by
  unfold State.recordIn
  try dsimp only
  with_reducible
    repeat' (first
      | assumption | apply State.logForwarded_kept | split)

theorem State.stepNoticeIn_kept {z : State} {s : State} {i : ℕ} {k : ℕ} (h : Kept z s) :
    Kept z (State.stepNoticeIn s i k) := by
  unfold State.stepNoticeIn
  with_reducible
    repeat' (first
      | assumption | apply State.noteFailed_kept | apply State.enterSkip_kept | apply Kept.foldl | intro _ _ _
      | intro _ _ | intro _ | split)

theorem State.declareDead_kept {z : State} {s : State} {x : ℕ} (h : Kept z s) :
    Kept z (State.declareDead s x) := by
  unfold State.declareDead
  try dsimp only
  with_reducible
    repeat' (first
      | assumption | apply State.declaredAbort_kept | apply State.failAwaiting_kept | apply State.raise_kept
      | apply State.sendAll_kept | intro _ _ _ | intro _ _ | intro _ | split)

theorem State.resend_kept {z : State} {s : State} {dst : ℕ} {msgId : ℕ} (h : Kept z s) :
    Kept z (State.resend s dst msgId) := by
  unfold State.resend
  try dsimp only
  with_reducible
    repeat' (first
      | assumption | apply State.bump_kept | apply State.sendFragments_kept | apply State.declareDead_kept
      | intro _ _ _ | intro _ _ | intro _ | split)

end Sys2Proof.Machine
end

