-- ==== Sys2Proof/Laws/KeptForming.lean ====
section
/-!
SUPPORT. What the operations of Machine/Forming.lean keep.
-/

set_option linter.all false

namespace Sys2Proof.Machine

theorem State.sendJoin_kept {z : State} {s : State} {t : Ticket} {round : ℕ} {epoch : ℕ} (h : Kept z s) :
    Kept z (State.sendJoin s t round epoch) := by
  unfold State.sendJoin
  try dsimp only
  with_reducible
    repeat' (first
      | assumption | apply State.mapTicket_kept | apply State.sendPort_kept | apply State.addReply_kept | intro _ _ _
      | intro _ _ | intro _ | split)

theorem State.rejoinLead_kept {z : State} {s : State} {t : Ticket} (h : Kept z s) :
    Kept z (State.rejoinLead s t) := by
  unfold State.rejoinLead
  with_reducible
    repeat' (first
      | assumption | apply State.mapTicket_kept | apply State.finishWith_kept | apply State.sendJoin_kept
      | intro _ _ _ | intro _ _ | intro _ | split)

theorem State.forgetCluster_kept {z : State} {s : State} (h : Kept z s) :
    Kept z (State.forgetCluster s) := by
  unfold State.forgetCluster
  try dsimp only
  with_reducible
    repeat' (first
      | assumption | apply State.put_kept | apply State.putBit_kept | apply Kept.foldl | intro _ _ _ | intro _ _
      | intro _)

theorem State.resetClusterRegs_kept {z : State} {s : State} (h : Kept z s) :
    Kept z (State.resetClusterRegs s) := by
  unfold State.resetClusterRegs
  with_reducible
    repeat' (first
      | assumption | apply State.put_kept | apply Kept.foldl | intro _ _ _ | intro _ _ | intro _)

theorem State.emptyCluster_kept {z : State} {s : State} {th : ℕ} (h : Kept z s) :
    Kept z (State.emptyCluster s th) := by
  unfold State.emptyCluster
  try dsimp only
  with_reducible
    repeat' (first
      | assumption | apply State.refreshProt_kept | apply State.digest_kept | apply State.endsWhole_kept
      | apply State.refreshCfg_kept | apply State.abortCommit_kept | apply State.resetClusterRegs_kept
      | apply State.put_kept | apply State.putBit_kept | apply State.showPlan_kept | apply State.lockSets_kept
      | apply Kept.foldl | intro _ _ _ | intro _ _ | intro _ | split)

theorem State.setPlace_kept {z : State} {s : State} {place : Option ℕ} {lead : Bool} {epoch : ℕ} {issued : ℕ} (h : Kept z s) :
    Kept z (State.setPlace s place lead epoch issued) := by
  unfold State.setPlace
  try dsimp only
  with_reducible
    repeat' (first
      | assumption | apply State.put_kept | apply State.putBit_kept | split)

theorem State.formHere_kept {z : State} {s : State} {l : List FormEntry} {lead : ℕ} (h : Kept z s) :
    Kept z (State.formHere s l lead) := by
  unfold State.formHere
  try dsimp only
  with_reducible
    repeat' (first
      | assumption | apply State.forgetCluster_kept | apply State.markDoubled_kept | apply State.emptyCluster_kept
      | apply State.put_kept | apply State.setPlace_kept | apply Kept.foldl | intro _ _ _ | intro _ _ | intro _
      | split)

theorem State.sendForm_kept {z : State} {s : State} {t : Ticket} {l : List FormEntry} {round : ℕ} (h : Kept z s) :
    Kept z (State.sendForm s t l round) := by
  unfold State.sendForm
  try dsimp only
  with_reducible
    repeat' (first
      | assumption | apply State.mapTicket_kept | apply State.sendPort_kept | apply State.addReply_kept
      | apply State.viaPlaces_kept | apply Kept.foldl | intro _ _ _ | intro _ _ | intro _ | split)

theorem State.formLead_kept {z : State} {s : State} {t : Ticket} (h : Kept z s) :
    Kept z (State.formLead s t) := by
  unfold State.formLead
  try dsimp only
  with_reducible
    repeat' (first
      | assumption | apply State.mapTicket_kept | apply State.finish_kept | apply State.finishWith_kept
      | apply State.formHere_kept | apply State.sendForm_kept | intro _ _ _ | intro _ _ | intro _ | split)

theorem State.rejoinEngine_kept {z : State} {s : State} {no : ℕ} {p : Packet} (h : Kept z s) :
    Kept z (State.rejoinEngine s no p) := by
  unfold State.rejoinEngine
  try dsimp only
  with_reducible
    repeat' (first
      | assumption | apply State.replyWith_kept | apply State.modTile_kept | intro _ _ _ | intro _ _ | intro _ | split)

theorem State.rejoinConcluded_kept {z : State} {s : State} {t : Ticket} (h : Kept z s) :
    Kept z (State.rejoinConcluded s t) := by
  unfold State.rejoinConcluded
  try dsimp only
  with_reducible
    repeat' (first
      | assumption | apply State.mapTicket_kept | apply State.finishWith_kept | apply State.sendJoin_kept
      | apply State.forwardTo_kept | apply State.wrapAdd_kept | intro _ _ _ | intro _ _ | intro _ | split)

theorem State.formConcluded_kept {z : State} {s : State} {t : Ticket} (h : Kept z s) :
    Kept z (State.formConcluded s t) := by
  unfold State.formConcluded
  try dsimp only
  with_reducible
    repeat' (first
      | assumption | apply State.mapTicket_kept | apply State.finish_kept | apply State.finishWith_kept
      | apply State.formHere_kept | apply State.sendForm_kept | intro _ _ _ | intro _ _ | intro _ | split)

theorem State.joinNow_kept {z : State} {s : State} {j : Joining} (h : Kept z s) :
    Kept z (State.joinNow s j) := by
  unfold State.joinNow
  try dsimp only
  with_reducible
    repeat' (first
      | assumption | apply State.markDoubled_kept | apply State.finish_kept | apply State.put_kept
      | apply State.putBit_kept | apply State.setPlace_kept | split)

theorem State.joinItem_kept {z : State} {s : State} (h : Kept z s) :
    Kept z (State.joinItem s) := by
  unfold State.joinItem
  try dsimp only
  with_reducible
    repeat' (first
      | assumption | apply State.joinNow_kept | apply Kept.foldl | intro _ _ _ | intro _ _ | intro _)

theorem State.takeCopy_kept {z : State} {s : State} {c : ClusterCopy} (h : Kept z s) :
    Kept z (State.takeCopy s c) := by
  unfold State.takeCopy
  try dsimp only
  with_reducible
    repeat' (first
      | assumption | apply State.digest_kept | apply State.forgetCluster_kept | apply State.refreshCfg_kept
      | apply State.emptyCluster_kept | apply State.put_kept | apply State.showPlan_kept | apply Kept.foldl
      | intro _ _ _ | intro _ _ | intro _ | split)

theorem State.joinIn_kept {z : State} {s : State} {port : ℕ} {m : CtrlMsg} {p : Packet} {c : ClusterCopy} (h : Kept z s) :
    Kept z (State.joinIn s port m p c) := by
  unfold State.joinIn
  try dsimp only
  with_reducible
    repeat' (first
      | assumption | apply State.takeCopy_kept | apply State.sendPort_kept | intro _ _ _ | intro _ _ | intro _ | split)

theorem State.joinTold_kept {z : State} {s : State} {t : Ticket} (h : Kept z s) :
    Kept z (State.joinTold s t) := by
  unfold State.joinTold
  with_reducible
    repeat' (first
      | assumption | apply State.finish_kept)

theorem State.bistDone_kept {z : State} {s : State} {n : ℕ} {ok : Bool} (h : Kept z s) :
    Kept z (State.bistDone s n ok) := by
  unfold State.bistDone
  try dsimp only
  with_reducible
    repeat' (first
      | assumption | apply State.replyWith_kept | apply State.modTile_kept | intro _ _ _ | intro _ _ | intro _ | split)

theorem State.formMember_kept {z : State} {s : State} {p : ℕ} {m : CtrlMsg} {q : Packet} {b : Bytes} (h : Kept z s) :
    Kept z (State.formMember s p m q b) := by
  unfold State.formMember
  try dsimp only
  with_reducible
    repeat' (first
      | assumption | apply State.sendPort_kept | apply State.viaPlaces_kept | apply State.formHere_kept | intro _ _ _
      | intro _ _ | intro _ | split)

theorem State.dissolve_kept {z : State} {s : State} (h : Kept z s) :
    Kept z (State.dissolve s) := by
  unfold State.dissolve
  try dsimp only
  with_reducible
    repeat' (first
      | assumption | apply State.forgetCluster_kept | apply State.haltSchedule_kept | apply State.emptyCluster_kept
      | apply State.put_kept | apply State.putBit_kept)

end Sys2Proof.Machine
end

