-- ==== Sys2Proof/Laws/KeptHolding.lean ====
section
/-!
SUPPORT. What the operations of Machine/Holding.lean keep.
-/

set_option linter.all false

namespace Sys2Proof.Machine

theorem State.beginHold_kept {z : State} {s : State} {n : ℕ} {no : ℕ} (h : Kept z s) :
    Kept z (State.beginHold s n no) := by
  unfold State.beginHold
  try dsimp only
  with_reducible
    repeat' (first
      | assumption | apply State.flushGranary_kept)

theorem State.resetLead_kept {z : State} {s : State} {t : Ticket} {th : Option ℕ} (h : Kept z s) :
    Kept z (State.resetLead s t th) := by
  unfold State.resetLead
  try dsimp only
  with_reducible
    repeat' (first
      | assumption | apply State.finish_kept | apply State.suspend_kept | apply State.forwardTo_kept
      | apply State.beginHold_kept | apply Kept.foldl | apply KeptO.getD | intro _ _ _ | intro _ _ | intro _ | split)

theorem State.resizeGranary_kept {z : State} {s : State} {n : ℕ} {size : ℕ} (h : Kept z s) :
    Kept z (State.resizeGranary s n size) := by
  unfold State.resizeGranary
  try dsimp only
  with_reducible
    repeat' (first
      | assumption | apply State.flushGranary_kept | apply State.zero_kept | apply State.put_kept | split)

theorem State.resetRegs_kept {z s : State} {base : Nat} {l : List (Nat × Nat)} (h : Kept z s) : Kept z (s.resetRegs base l) :=
  ⟨fun c => ⟨Table.rising_filter (h.canon c).regs _, (h.canon c).mem, (h.canon c).poison⟩, h.pending, h.out, h.free⟩

theorem State.loadMap_kept {z : State} {s : State} {n : ℕ} (h : Kept z s) :
    Kept z (State.loadMap s n) := by
  unfold State.loadMap
  try dsimp only
  with_reducible
    repeat' (first
      | assumption | apply State.put_kept | apply State.putBit_kept | intro _ _ _ | intro _ _ | intro _)

theorem State.holdPart_kept {z : State} {s : State} {n : ℕ} (h : Kept z s) :
    Kept z (State.holdPart s n) := by
  unfold State.holdPart
  try dsimp only
  with_reducible
    repeat' (first
      | assumption | apply State.setSeq_kept | apply State.resetRegs_kept | apply State.put_kept
      | apply State.stopUnits_kept | apply State.putBit_kept | apply State.loadMap_kept | apply State.modTile_kept
      | apply State.modStack_kept | apply Kept.foldl | intro _ _ _ | intro _ _ | intro _ | split)

theorem State.flushDone_kept {z : State} {s : State} {n : ℕ} (h : Kept z s) :
    Kept z (State.flushDone s n) := by
  unfold State.flushDone
  try dsimp only
  with_reducible
    repeat' (first
      | assumption | apply State.flushGranary_kept | apply State.releaseSettled_kept | apply State.finish_kept
      | apply State.resizeGranary_kept | apply State.holdPart_kept | apply Kept.foldl | intro _ _ _ | intro _ _
      | intro _)

theorem State.resetItem_kept {z : State} {s : State} {th : ℕ} (h : Kept z s) :
    Kept z (State.resetItem s th) := by
  unfold State.resetItem
  with_reducible
    repeat' (first
      | assumption | apply State.resetLead_kept | apply State.undefer_kept | apply Kept.foldl | intro _ _ _
      | intro _ _ | intro _ | split)

theorem State.unhold_kept {z : State} {s : State} {n : ℕ} (h : Kept z s) :
    Kept z (State.unhold s n) := by
  unfold State.unhold
  try dsimp only
  with_reducible
    repeat' (first
      | assumption | apply State.servePc_kept | apply Kept.foldl | intro _ _ _ | intro _ _ | intro _ | split)

theorem State.zeroDone_kept {z : State} {s : State} {n : ℕ} {r : ℕ} (h : Kept z s) :
    Kept z (State.zeroDone s n r) := by
  unfold State.zeroDone
  with_reducible
    repeat' (first
      | assumption | apply State.releaseSettled_kept | apply State.modStack_kept | intro _ _ _ | intro _ _ | intro _)

end Sys2Proof.Machine
end

