-- ==== Sys2Proof/Laws/KeptCommands.lean ====
section
/-!
SUPPORT. What the operations of Machine/Commands.lean keep.
-/

set_option linter.all false

namespace Sys2Proof.Machine

theorem State.meridianSet_kept {z : State} {s : State} {t : Ticket} (h : Kept z s) :
    Kept z (State.meridianSet s t) := by
  unfold State.meridianSet
  with_reducible
    repeat' (first
      | assumption | apply State.finishWith_kept | split)

theorem State.geometryGet_kept {z : State} {s : State} {t : Ticket} (h : Kept z s) :
    Kept z (State.geometryGet s t) := by
  unfold State.geometryGet
  with_reducible
    repeat' (first
      | assumption | apply State.outPayload_kept | apply State.finish_kept)

theorem State.linkTestHere_kept {z : State} {s : State} {no : ℕ} {p : Packet} (h : Kept z s) :
    Kept z (State.linkTestHere s no p) := by
  unfold State.linkTestHere
  try dsimp only
  with_reducible
    repeat' (first
      | assumption | apply State.leaveUp_kept | apply State.modLink_kept | apply State.refreshLinks_kept
      | apply State.put_kept | apply State.finishWith_kept | apply State.putBit_kept | intro _ _ _ | intro _ _
      | intro _ | split)

theorem State.selftestHere_kept {z : State} {s : State} {no : ℕ} {p : Packet} (h : Kept z s) :
    Kept z (State.selftestHere s no p) := by
  unfold State.selftestHere
  try dsimp only
  with_reducible
    repeat' (first
      | assumption | apply State.put_kept | apply State.finishWith_kept | apply Kept.foldl | intro _ _ _ | intro _ _
      | intro _ | split)

theorem State.identify_kept {z : State} {s : State} {t : Ticket} (h : Kept z s) :
    Kept z (State.identify s t) := by
  unfold State.identify
  with_reducible
    repeat' (first
      | assumption | apply State.outPayload_kept | apply State.finish_kept)

theorem State.trafficHere_kept {z : State} {s : State} {no : ℕ} {p : Packet} (h : Kept z s) :
    Kept z (State.trafficHere s no p) := by
  unfold State.trafficHere
  try dsimp only
  with_reducible
    repeat' (first
      | assumption | apply State.put_kept | apply State.finishWith_kept | apply State.putBit_kept
      | apply State.modStack_kept | intro _ _ _ | intro _ _ | intro _ | split)

theorem State.fence_kept {z : State} {s : State} {t : Ticket} (h : Kept z s) :
    Kept z (State.fence s t) := by
  unfold State.fence
  with_reducible
    repeat' (first
      | assumption | apply State.mapTicket_kept | intro _ _ _ | intro _ _ | intro _)

theorem State.onDevice_kept {z : State} {s : State} {t : Ticket} {d : ℕ} {act : State → ℕ → Packet → State} (h : Kept z s) (h1 : ∀ y0 y1 y2, Kept z y0 → Kept z (act y0 y1 y2)) :
    Kept z (State.onDevice s t d act) := by
  unfold State.onDevice
  with_reducible
    repeat' (first
      | assumption | apply State.finish_kept | apply State.forwardTo_kept | apply h1 | split)

theorem State.replyData_kept {z : State} {s : State} {no : ℕ} {a : Answer} {b : Bytes} (h : Kept z s) :
    Kept z (State.replyData s no a b) := by
  unfold State.replyData
  with_reducible
    repeat' (first
      | assumption | apply State.outPayload_kept | apply State.finish_kept | split)

theorem State.telemetryHere_kept {z : State} {s : State} {no : ℕ} {p : Packet} (h : Kept z s) :
    Kept z (State.telemetryHere s no p) := by
  unfold State.telemetryHere
  try dsimp only
  with_reducible
    repeat' (first
      | assumption | apply State.replyData_kept)

theorem State.energyHere_kept {z : State} {s : State} {no : ℕ} {p : Packet} (h : Kept z s) :
    Kept z (State.energyHere s no p) := by
  unfold State.energyHere
  try dsimp only
  with_reducible
    repeat' (first
      | assumption | apply State.finish_kept | split)

theorem State.capHere_kept {z : State} {s : State} {no : ℕ} {p : Packet} (h : Kept z s) :
    Kept z (State.capHere s no p) := by
  unfold State.capHere
  with_reducible
    repeat' (first
      | assumption | apply State.settleLevels_kept | apply State.replyWith_kept | apply State.put_kept)

theorem State.capLead_kept {z : State} {s : State} {t : Ticket} (h : Kept z s) :
    Kept z (State.capLead s t) := by
  unfold State.capLead
  try dsimp only
  with_reducible
    repeat' (first
      | assumption | apply State.awaitSelf_kept | apply State.capHere_kept | apply State.finish_kept
      | apply State.forwardTo_kept | intro _ _ _ | intro _ _ | intro _ | split)

theorem State.takeHint_kept {z : State} {s : State} {p : Packet} (h : Kept z s) :
    Kept z (State.takeHint s p) := by
  unfold State.takeHint
  with_reducible
    repeat' (first
      | assumption | apply State.hintDevice_kept)

theorem State.hintLead_kept {z : State} {s : State} {t : Ticket} (h : Kept z s) :
    Kept z (State.hintLead s t) := by
  unfold State.hintLead
  with_reducible
    repeat' (first
      | assumption | apply State.finishWith_kept | apply State.sendAll_kept | apply State.takeHint_kept | split)

theorem State.digestHere_kept {z : State} {s : State} {no : ℕ} {x2 : Packet} (h : Kept z s) :
    Kept z (State.digestHere s no x2) := by
  unfold State.digestHere
  with_reducible
    repeat' (first
      | assumption | apply State.finish_kept | split)

theorem State.outReport_kept {z : State} {s : State} {p : Packet} {b : Bytes} (h : Kept z s) :
    Kept z (State.outReport s p b) := by
  unfold State.outReport
  with_reducible
    repeat' (first
      | assumption | apply State.d2h_kept | apply Kept.foldl | intro _ _ _ | intro _ _ | intro _)

theorem State.selftestEnds_kept {z : State} {s : State} {l : List SelfResult} (h : Kept z s) :
    Kept z (State.selftestEnds s l) := by
  unfold State.selftestEnds
  try dsimp only
  with_reducible
    repeat' (first
      | assumption | apply State.zero_kept | apply State.finish_kept | apply State.put_kept | apply State.unhold_kept
      | apply State.outReport_kept | apply Kept.foldl | intro _ _ _ | intro _ _ | intro _ | split)

end Sys2Proof.Machine
end

