-- ==== Sys2Proof/Laws/KeptSettle.lean ====
section
/-!
SUPPORT. What the operations of Machine/Settle.lean keep.
-/

set_option linter.all false

namespace Sys2Proof.Machine

theorem State.deferTicket_kept {z : State} {s : State} {t : Ticket} (h : Kept z s) :
    Kept z (State.deferTicket s t) := by
  unfold State.deferTicket
  with_reducible
    repeat' (first
      | assumption | apply State.tellEnding_kept)

theorem State.runHost_kept {z : State} {s : State} {t : Ticket} (h : Kept z s) :
    Kept z (State.runHost s t) := by
  unfold State.runHost
  try dsimp only
  with_reducible
    repeat' (first
      | assumption | apply State.meridianSet_kept | apply State.geometryGet_kept | apply State.startLead_kept
      | apply State.linkTestHere_kept | apply State.rejoinLead_kept | apply State.selftestHere_kept
      | apply State.identify_kept | apply State.trafficHere_kept | apply State.commitDevices_kept
      | apply State.stopLead_kept | apply State.stageLead_kept | apply State.formLead_kept | apply State.fence_kept
      | apply State.adapterLoad_kept | apply State.commitCluster_kept | apply State.onDevice_kept
      | apply State.telemetryHere_kept | apply State.resetLead_kept | apply State.energyHere_kept
      | apply State.rejoinEngine_kept | apply State.capLead_kept | apply State.deferTicket_kept
      | apply State.hintLead_kept | apply State.digestHere_kept | split)

theorem State.launch_kept {z : State} {s : State} {no : ℕ} (h : Kept z s) :
    Kept z (State.launch s no) := by
  unfold State.launch
  with_reducible
    repeat' (first
      | assumption | apply State.runHost_kept | apply State.mapTicket_kept | intro _ _ _ | intro _ _ | intro _ | split)

theorem State.payloadIn_kept {z : State} {s : State} {no : ℕ} {pay : Option Bytes} (h : Kept z s) :
    Kept z (State.payloadIn s no pay) := by
  unfold State.payloadIn
  with_reducible
    repeat' (first
      | assumption | apply State.bump_kept | apply State.launch_kept | apply State.mapTicket_kept
      | apply State.finishWith_kept | intro _ _ _ | intro _ _ | intro _ | split)

theorem State.conclude_kept {z : State} {s : State} {t : Ticket} (h : Kept z s) :
    Kept z (State.conclude s t) := by
  unfold State.conclude
  try dsimp only
  with_reducible
    repeat' (first
      | assumption | apply State.outPayload_kept | apply State.openConcluded_kept | apply State.importConcluded_kept
      | apply State.loadConcluded_kept | apply State.finish_kept | apply State.stageConcluded_kept
      | apply State.rejoinConcluded_kept | apply State.exportConcluded_kept | apply State.outReport_kept
      | apply State.formConcluded_kept | split)

theorem State.takeIn_kept {z : State} {s : State} {p : Packet} {img : Option ModelImage} (h : Kept z s) :
    Kept z (State.takeIn s p img).1 := by
  unfold State.takeIn
  try dsimp only
  with_reducible
    repeat' (first
      | assumption | apply State.finishWith_kept | apply State.openTicket_kept | (refine Kept.fst (by assumption) ?_)
      | split)

theorem State.endTold_kept {z : State} {s : State} {p : Packet} (h : Kept z s) :
    Kept z (State.endTold s p) := by
  unfold State.endTold
  try dsimp only
  with_reducible
    repeat' (first
      | assumption | apply State.applyTold_kept | split)

theorem State.runTold_kept {z : State} {s : State} {p : Packet} {pay : Option Bytes} (h : Kept z s) :
    KeptO z (State.runTold s p pay) := by
  unfold State.runTold
  try dsimp only
  with_reducible
    repeat' (first
      | assumption | apply State.endTold_kept | apply State.keepBitmap_kept | apply State.stopIn_kept
      | apply State.takeHint_kept | apply State.makeHandle_kept | apply State.dropVersion_kept | apply KeptO.of
      | apply KeptO.none | split)

theorem State.openPart_kept {z : State} {s : State} {t : Ticket} (h : Kept z s) :
    Kept z (State.openPart s t) := by
  unfold State.openPart
  with_reducible
    repeat' (first
      | assumption | apply State.finishWith_kept | apply State.openMember_kept
      | (refine Kept.ofSome (by assumption) ?_)
      | (dsimp only [Kept]; refine Kept.parts (Kept.ofSome (by assumption) ?_)) | split)

theorem State.importMember_kept {z : State} {s : State} {t : Ticket} (h : Kept z s) :
    Kept z (State.importMember s t) := by
  unfold State.importMember
  try dsimp only
  with_reducible
    repeat' (first
      | assumption | apply State.finishWith_kept | apply State.importHere_kept
      | (refine Kept.ofSome (by assumption) ?_)
      | (dsimp only [Kept]; refine Kept.parts (Kept.ofSome (by assumption) ?_)) | split)

theorem State.exportMember_kept {z : State} {s : State} {t : Ticket} (h : Kept z s) :
    Kept z (State.exportMember s t) := by
  unfold State.exportMember
  with_reducible
    repeat' (first
      | assumption | apply State.finish_kept | apply State.finishWith_kept | split)

theorem State.runMember_kept {z : State} {s : State} {t : Ticket} (h : Kept z s) :
    Kept z (State.runMember s t) := by
  unfold State.runMember
  try dsimp only
  with_reducible
    repeat' (first
      | assumption | apply State.stageMember_kept | apply State.capHere_kept | apply State.linkTestHere_kept
      | apply State.selftestHere_kept | apply State.loadVersion_kept | apply State.takeDevice_kept
      | apply State.trafficHere_kept | apply State.importMember_kept | apply State.exportMember_kept
      | apply State.finishWith_kept | apply State.openPart_kept | apply State.telemetryHere_kept
      | apply State.energyHere_kept | apply State.rejoinEngine_kept | apply State.beginHold_kept
      | apply State.joinTold_kept | apply State.digestHere_kept | split)

theorem State.forwarded_kept {z : State} {s : State} {src : ℕ} {msgId : ℕ} {p : Packet} {pay : Option Bytes} {img : Option ModelImage} (h : Kept z s) :
    Kept z (State.forwarded s src msgId p pay img) := by
  unfold State.forwarded
  try dsimp only
  with_reducible
    repeat' (first
      | assumption | apply State.sendCtrl_kept | apply State.runMember_kept | apply State.runTold_kept
      | apply State.openTicket_kept | (refine Kept.fst (by assumption) ?_) | (refine Kept.ofSome (by assumption) ?_)
      | (dsimp only [Kept]; refine Kept.parts (Kept.ofSome (by assumption) ?_)) | split)

theorem State.completionIn_kept {z : State} {s : State} {msgId : ℕ} {st : Status} {detail : ℕ} {r0 : ℕ} {r1 : ℕ} {data : Bytes} (h : Kept z s) :
    Kept z (State.completionIn s msgId st detail r0 r1 data) := by
  unfold State.completionIn
  with_reducible
    repeat' (first
      | assumption | apply State.addReply_kept | intro _ _ _ | intro _ _ | intro _ | split)

theorem State.proceed_kept {z : State} {s : State} {no : ℕ} (h : Kept z s) :
    Kept z (State.proceed s no) := by
  unfold State.proceed
  with_reducible
    repeat' (first
      | assumption | apply State.conclude_kept | apply State.runHost_kept | apply State.mapTicket_kept
      | apply State.finishWith_kept | intro _ _ _ | intro _ _ | intro _ | split)

theorem State.settleN_kept {z : State} {s : State} {x1 : ℕ} (h : Kept z s) :
    Kept z (State.settleN s x1) := by
  induction x1 generalizing s with
  | zero =>
    unfold State.settleN
    with_reducible
      repeat' (first
        | assumption | apply State.proceed_kept | apply Kept.foldl | intro _ _ _ | intro _ _ | intro _ | split)
  | succ y ih =>
    unfold State.settleN
    with_reducible
      repeat' (first
        | assumption | apply ih | apply State.proceed_kept | apply Kept.foldl | intro _ _ _ | intro _ _ | intro _
        | split)

theorem State.settle_kept {z : State} {s : State} (h : Kept z s) :
    Kept z (State.settle s) := by
  unfold State.settle
  with_reducible
    repeat' (first
      | assumption | apply State.settleN_kept)

theorem State.submit_kept {z : State} {s : State} {p : Packet} {pay : Option Bytes} {img : Option ModelImage} (h : Kept z s) :
    Kept z (State.submit s p pay img) := by
  unfold State.submit
  try dsimp only
  with_reducible
    repeat' (first
      | assumption | apply State.launch_kept | apply State.payloadIn_kept | apply State.takeIn_kept
      | (refine Kept.fst (by assumption) ?_) | split)

end Sys2Proof.Machine
end

