-- ==== Sys2Proof/Laws/KeptHost.lean ====
section
/-!
SUPPORT. What the operations of Machine/Host.lean keep.
-/

set_option linter.all false

namespace Sys2Proof.Machine

theorem State.pulled_kept {z : State} {s : State} {v : ℕ} (h : Kept z s) :
    Kept z (State.pulled s v) := by
  unfold State.pulled
  try dsimp only
  with_reducible
    repeat' (first
      | assumption | apply State.message_kept | intro _ _ _ | intro _ _ | intro _ | split)

theorem State.hostLost_kept {z : State} {s : State} (h : Kept z s) :
    Kept z (State.hostLost s) := by
  unfold State.hostLost
  try dsimp only
  with_reducible
    repeat' (first
      | assumption | apply State.bump_kept | apply State.dropFetches_kept | apply State.putBit_kept | apply Kept.foldl
      | intro _ _ _ | intro _ _ | intro _)

theorem State.functionReset_kept {z : State} {s : State} (h : Kept z s) :
    Kept z (State.functionReset s) :=
  State.putBit_kept (State.hostLost_kept h)

theorem State.failReads_kept {z : State} {s : State} (h : Kept z s) :
    Kept z (State.failReads s) := by
  unfold State.failReads
  try dsimp only
  with_reducible
    repeat' (first
      | assumption | apply State.payloadIn_kept | apply Kept.foldl | intro _ _ _ | intro _ _ | intro _)

theorem State.linkLost_kept {z : State} {s : State} (h : Kept z s) :
    Kept z (State.linkLost s) := by
  unfold State.linkLost
  try dsimp only
  with_reducible
    repeat' (first
      | assumption | apply State.bump_kept | apply State.raise_kept | apply State.put_kept | apply State.putBit_kept
      | apply State.hostLost_kept | apply State.failReads_kept | intro _ _ _ | intro _ _ | intro _ | split)

theorem State.unreadPacket_kept {z : State} {s : State} {i : ℕ} (h : Kept z s) :
    Kept z (State.unreadPacket s i) := by
  unfold State.unreadPacket
  try dsimp only
  with_reducible
    repeat' (first
      | assumption | apply State.bump_kept | apply State.draw_kept | apply State.postCq_kept)

theorem State.expanderLost_kept {z : State} {s : State} {k : ℕ} (h : Kept z s) :
    Kept z (State.expanderLost s k) := by
  unfold State.expanderLost
  try dsimp only
  with_reducible
    repeat' (first
      | assumption | apply State.bump_kept | apply State.raise_kept | apply State.put_kept | apply State.putBit_kept
      | intro _ _ _ | intro _ _ | intro _ | split)

theorem State.takeCredit_kept {z : State} {s : State} {data : Bool} (h : Kept z s) :
    Kept z (State.takeCredit s data) := by
  unfold State.takeCredit
  with_reducible
    repeat' (first
      | assumption | split)

theorem State.windowAccess_kept {z : State} {s : State} {tag : ℕ} {offset : ℕ} {op : StackOp} {symbols : List ℕ} (h : Kept z s) :
    Kept z (State.windowAccess s tag offset op symbols) := by
  unfold State.windowAccess
  try dsimp only
  with_reducible
    repeat' (first
      | assumption | apply State.stackArrive_kept | apply State.perform_kept | apply State.takeCredit_kept
      | apply State.emit_kept | split)

theorem State.doorbell_kept {z : State} {s : State} {enabled : Bool} {size : ℕ} {index : ℕ} {f : State → State} (h : Kept z s) (h1 : ∀ y0, Kept z y0 → Kept z (f y0)) :
    Kept z (State.doorbell s enabled size index f) := by
  unfold State.doorbell
  with_reducible
    repeat' (first
      | assumption | apply State.bump_kept | apply h1 | split)

theorem State.trDoorbell_kept {z : State} {s : State} {j : ℕ} {index : ℕ} (h : Kept z s) :
    Kept z (State.trDoorbell s j index) := by
  unfold State.trDoorbell
  with_reducible
    repeat' (first
      | assumption | apply State.doorbell_kept | intro _ _ _ | intro _ _ | intro _)

theorem State.packetRead_kept {z : State} {s : State} {f : Fetch} {data : Option Bytes} {img : Option ModelImage} (h : Kept z s) :
    Kept z (State.packetRead s f data img) := by
  unfold State.packetRead
  try dsimp only
  with_reducible
    repeat' (first
      | assumption | apply State.launch_kept | apply State.takeIn_kept | apply State.d2h_kept
      | apply State.unreadPacket_kept | apply State.put_kept | (refine Kept.fst (by assumption) ?_) | split)

theorem State.sqDoorbell_kept {z : State} {s : State} {i : ℕ} {index : ℕ} (h : Kept z s) :
    Kept z (State.sqDoorbell s i index) := by
  unfold State.sqDoorbell
  with_reducible
    repeat' (first
      | assumption | apply State.doorbell_kept | apply State.fetchRing_kept | intro _ _ _ | intro _ _ | intro _)

theorem State.cqDoorbell_kept {z : State} {s : State} {i : ℕ} {index : ℕ} (h : Kept z s) :
    Kept z (State.cqDoorbell s i index) := by
  unfold State.cqDoorbell
  with_reducible
    repeat' (first
      | assumption | apply State.doorbell_kept | apply State.resumeRing_kept | intro _ _ _ | intro _ _ | intro _)

theorem State.doorbellWrite_kept {z : State} {s : State} {off : ℕ} {v : ℕ} (h : Kept z s) :
    Kept z (State.doorbellWrite s off v) := by
  unfold State.doorbellWrite
  with_reducible
    repeat' (first
      | assumption | apply State.sqDoorbell_kept | apply State.trDoorbell_kept | apply State.cqDoorbell_kept | split)

theorem State.busMaster_kept {z : State} {s : State} {on : Bool} (h : Kept z s) :
    Kept z (State.busMaster s on) := by
  unfold State.busMaster
  with_reducible
    repeat' (first
      | assumption | apply State.putBit_kept | apply State.reopen_kept | split)

theorem State.mapExpander_kept {z : State} {s : State} {base : ℕ} {e : Expander} (h : Kept z s) :
    Kept z (State.mapExpander s base e) := by
  unfold State.mapExpander
  try dsimp only
  with_reducible
    repeat' (first
      | assumption | apply State.bump_kept | apply State.put_kept | apply State.putBit_kept | split)

theorem State.mapExpanders_kept {z : State} {s : State} {base : ℕ} {x2 : List Expander} (h : Kept z s) :
    Kept z (State.mapExpanders s base x2) := by
  induction x2 generalizing s base with
  | nil =>
    unfold State.mapExpanders
    with_reducible
      repeat' (first
        | assumption | apply State.mapExpander_kept | split)
  | cons y ys ih =>
    unfold State.mapExpanders
    with_reducible
      repeat' (first
        | assumption | apply ih | apply State.mapExpander_kept | split)

theorem State.enumerate_kept {z : State} {s : State} {l : List Expander} (h : Kept z s) :
    Kept z (State.enumerate s l) := by
  unfold State.enumerate
  try dsimp only
  with_reducible
    repeat' (first
      | assumption | apply State.mapExpanders_kept | intro _ _ _ | intro _ _ | intro _ | split)

theorem State.linkTrained_kept {z : State} {s : State} {width : ℕ} {speed : ℕ} (h : Kept z s) :
    Kept z (State.linkTrained s width speed) := by
  unfold State.linkTrained
  with_reducible
    repeat' (first
      | assumption | apply State.put_kept | apply State.putBit_kept | apply State.reopen_kept | split)

theorem State.holdoffEnds_kept {z : State} {s : State} {v : ℕ} (h : Kept z s) :
    Kept z (State.holdoffEnds s v) := by
  unfold State.holdoffEnds
  try dsimp only
  with_reducible
    repeat' (first
      | assumption | apply State.message_kept | intro _ _ _ | intro _ _ | intro _ | split)

theorem State.rdcurr_kept {z : State} {s : State} {i : ℕ} {data : Option Bytes} {img : Option ModelImage} (h : Kept z s) :
    Kept z (State.rdcurr s i data img) := by
  unfold State.rdcurr
  try dsimp only
  with_reducible
    repeat' (first
      | assumption | apply State.payloadIn_kept | apply State.packetRead_kept | apply State.fetchRing_kept
      | intro _ _ _ | intro _ _ | intro _ | split)

theorem State.ringDoorbell_kept {z : State} {s : State} {kind : ℕ} {ring : ℕ} {v : ℕ} (h : Kept z s) :
    Kept z (State.ringDoorbell s kind ring v) := by
  unfold State.ringDoorbell
  with_reducible
    repeat' (first
      | assumption | apply State.doorbellWrite_kept | split)

end Sys2Proof.Machine
end

