-- ==== Sys2Proof/Laws/KeptMessages.lean ====
section
/-!
SUPPORT. What the operations of Machine/Messages.lean keep.
-/

set_option linter.all false

namespace Sys2Proof.Machine

theorem State.fwdIn_kept {z : State} {s : State} {port : ℕ} {frags : ℕ} {m : CtrlMsg} (h : Kept z s) :
    Kept z (State.fwdIn s port frags m) := by
  unfold State.fwdIn
  try dsimp only
  with_reducible
    repeat' (first
      | assumption | apply State.ctrlIn_kept | apply State.formMember_kept | apply State.joinIn_kept
      | apply State.forwarded_kept | intro _ _ _ | intro _ _ | intro _ | split)

end Sys2Proof.Machine
end

