-- ==== Sys2Proof/Laws/KeptBoot.lean ====
section
/-!
SUPPORT. What the operations of Machine/Boot.lean keep.
-/

set_option linter.all false

namespace Sys2Proof.Machine

theorem State.memZeroed_kept {z s : State} (h : Kept z s) : Kept z s.memZeroed :=
  ⟨fun c => ⟨(h.canon c).regs, Table.wf_filter (h.canon c).mem _, Table.wf_filter (h.canon c).poison _⟩, h.pending, h.out, h.free⟩

theorem State.memoryInit_kept {z : State} {s : State} {found : List (ℕ × ℕ × List ℕ)} (h : Kept z s) :
    Kept z (State.memoryInit s found) := by
  unfold State.memoryInit
  try dsimp only
  with_reducible
    repeat' (first
      | assumption | apply State.refreshLinks_kept | apply State.put_kept | apply State.putBit_kept
      | apply State.memZeroed_kept | apply State.modStack_kept | apply Kept.foldl | intro _ _ _ | intro _ _ | intro _
      | split)

theorem State.perstAssert_kept {z : State} {s : State} (h : Kept z s) :
    Kept z (State.perstAssert s) := by
  unfold State.perstAssert
  try dsimp only
  with_reducible
    repeat' (first
      | assumption | apply State.linkLost_kept | apply State.putBit_kept | split)

theorem State.released_kept {z : State} {s : State} (h : Kept z s) :
    Kept z (State.released s) := by
  unfold State.released
  with_reducible
    repeat' (first
      | assumption | apply State.putBit_kept | split)

theorem State.resetRelease_kept {z : State} {s : State} (h : Kept z s) :
    Kept z (State.resetRelease s) := by
  unfold State.resetRelease
  try dsimp only
  with_reducible
    repeat' (first
      | assumption | apply State.settleLevels_kept | apply State.released_kept | apply State.put_kept | split)

theorem State.cleared_kept {z s : State} (h : Kept z s) : Kept z s.cleared :=
  ⟨fun c => ⟨Table.rising_filter (h.canon c).regs _, Table.wf_nil _, Table.wf_nil _⟩, h.pending, h.out, h.free⟩

theorem State.readFlash_kept {z : State} {s : State} {f : BootFlash} (h : Kept z s) :
    Kept z (State.readFlash s f) := by
  unfold State.readFlash
  try dsimp only
  with_reducible
    repeat' (first
      | assumption | apply Kept.foldl | intro _ _ _ | intro _ _ | intro _ | split)

theorem State.applyChar_kept {z : State} {s : State} (h : Kept z s) :
    Kept z (State.applyChar s) := by
  unfold State.applyChar
  try dsimp only
  with_reducible
    repeat' (first
      | assumption | apply State.put_kept | apply State.putBit_kept | apply Kept.foldl | intro _ _ _ | intro _ _
      | intro _ | split)

theorem State.raiseCounter_kept {z : State} {s : State} (h : Kept z s) :
    Kept z (State.raiseCounter s) := by
  unfold State.raiseCounter
  try dsimp only
  with_reducible
    repeat' (first
      | assumption | apply State.eraseSector_kept | split)

theorem State.adoptFloor_kept {z : State} {s : State} (h : Kept z s) :
    Kept z (State.adoptFloor s) := by
  unfold State.adoptFloor
  try dsimp only
  with_reducible
    repeat' (first
      | assumption | apply State.put_kept | apply State.putBit_kept | apply State.raiseCounter_kept | intro _ _ _
      | intro _ _ | intro _ | split)

theorem State.boot_kept {z : State} {s : State} {f : BootFlash} {tests : Bool} (h : Kept z s) :
    Kept z (State.boot s f tests) := by
  unfold State.boot
  try dsimp only
  with_reducible
    repeat' (first
      | assumption | apply State.readFlash_kept | apply State.refreshLinks_kept | apply State.digest_kept
      | apply State.applyChar_kept | apply State.controlFault_kept | apply State.refreshCfg_kept
      | apply State.flashStatus_kept | apply State.put_kept | apply State.putBit_kept | apply State.findNewest_kept
      | apply State.adoptFloor_kept | intro _ _ _ | intro _ _ | intro _ | split)

theorem State.vsbUp_kept {z s : State} {straps : Nat} (h : Kept z s) : Kept z (s.vsbUp straps) :=
  State.put_kept ⟨fun _ => ⟨.nil, Table.wf_nil _, Table.wf_nil _⟩, h.pending, h.out, h.free⟩

theorem State.railsOff_kept {z s : State} (h : Kept z s) : Kept z s.railsOff := by
  unfold State.railsOff
  split
  · exact h
  · have k := State.cleared_kept h
    exact ⟨fun c => ⟨Table.rising_filter (k.canon c).regs _, (k.canon c).mem, (k.canon c).poison⟩, k.pending, k.out, k.free⟩

theorem State.resetAssert_kept {z : State} {s : State} (h : Kept z s) :
    Kept z (State.resetAssert s) := by
  unfold State.resetAssert
  with_reducible
    repeat' (first
      | assumption | apply State.cleared_kept | split)

theorem State.perstRelease_kept {z : State} {s : State} (h : Kept z s) :
    Kept z (State.perstRelease s) := by
  unfold State.perstRelease
  with_reducible
    repeat' (first
      | assumption | apply State.released_kept | split)

theorem State.startupTest_kept {z : State} {s : State} {l : List SelfResult} {left : List (ℕ × Bytes)} (h : Kept z s) :
    Kept z (State.startupTest s l left) := by
  unfold State.startupTest
  try dsimp only
  with_reducible
    repeat' (first
      | assumption | apply State.write_kept | apply State.put_kept | apply State.memZeroed_kept | apply Kept.foldl
      | intro _ _ _ | intro _ _ | intro _ | split)

end Sys2Proof.Machine
end

