-- ==== Sys2Proof/Laws/KeptClock.lean ====
section
/-!
SUPPORT. What the operations of Machine/Clock.lean keep.
-/

set_option linter.all false

namespace Sys2Proof.Machine

theorem State.count_kept {z : State} {s : State} (h : Kept z s) :
    Kept z (State.count s) := by
  unfold State.count
  with_reducible
    repeat' (first
      | assumption | apply State.wrapAdd_kept | split)

theorem State.tick_kept {z : State} {s : State} (h : Kept z s) :
    Kept z (State.tick s) := by
  unfold State.tick
  with_reducible
    repeat' (first
      | assumption | apply State.reacquire_kept | apply State.throttleTick_kept | apply State.count_kept | split)

end Sys2Proof.Machine
end

