-- ==== Sys2Proof/Laws/KeptHeadland.lean ====
section
/-!
SUPPORT. What the operations of Machine/Headland.lean keep.
-/

set_option linter.all false

namespace Sys2Proof.Machine

theorem State.afterSettle_kept {z : State} {s : State} (h : Kept z s) :
    Kept z (State.afterSettle s) := by
  unfold State.afterSettle
  try dsimp only
  with_reducible
    repeat' (first
      | assumption | apply State.syncFiles_kept | apply State.applyWaiting_kept | apply State.noteHeld_kept
      | apply State.syncSeqs_kept | apply State.discardLanes_kept | apply State.flushItem_kept
      | apply State.buildLanes_kept | apply Kept.foldl | intro _ _ _ | intro _ _ | intro _ | split)

theorem State.laneDeadline_kept {z : State} {s : State} (h : Kept z s) :
    Kept z (State.laneDeadline s) := by
  unfold State.laneDeadline
  try dsimp only
  with_reducible
    repeat' (first
      | assumption | apply State.settleOpen_kept | apply State.afterSettle_kept | apply State.discardLanes_kept
      | apply State.noteShort_kept | apply State.decideLanes_kept | split)

theorem State.deliverWork_kept {z : State} {s : State} {th : ℕ} {ended : Bool} (h : Kept z s) :
    Kept z (State.deliverWork s th ended) := by
  unfold State.deliverWork
  try dsimp only
  with_reducible
    repeat' (first
      | assumption | apply State.syncFiles_kept | apply State.drainAll_kept | apply State.tokenItem_kept
      | apply State.applyEndings_kept | apply State.noteHeld_kept | apply State.syncSeqs_kept
      | apply State.countBound_kept | apply State.applyTold_kept | apply State.addCredits_kept
      | apply State.markCancelled_kept | apply State.flushItem_kept | apply State.endPhases_kept
      | apply State.retireItem_kept | split)

theorem State.selfFence_kept {z : State} {s : State} (h : Kept z s) :
    Kept z (State.selfFence s) := by
  unfold State.selfFence
  try dsimp only
  with_reducible
    repeat' (first
      | assumption | apply State.sendCtrl_kept | apply State.setFenced_kept | apply State.haltSchedule_kept
      | apply State.raise_kept)

theorem State.digestItem_kept {z : State} {s : State} (h : Kept z s) :
    Kept z (State.digestItem s) := by
  unfold State.digestItem
  try dsimp only
  with_reducible
    repeat' (first
      | assumption | apply State.bump_kept | apply State.raise_kept | apply State.putBit_kept
      | apply State.selfFence_kept | apply Kept.foldl | intro _ _ _ | intro _ _ | intro _ | split)

theorem State.admission_kept {z : State} {s : State} {th : ℕ} (h : Kept z s) :
    Kept z (State.admission s th) := by
  unfold State.admission
  try dsimp only
  with_reducible
    repeat' (first
      | assumption | apply State.applyCommands_kept | apply State.buildLanes_kept | apply Kept.foldl | intro _ _ _
      | intro _ _ | intro _ | split)

theorem State.spills_kept {z : State} {s : State} (h : Kept z s) :
    Kept z (State.spills s) := by
  unfold State.spills
  try dsimp only
  with_reducible
    repeat' (first
      | assumption | apply State.spillItem_kept | apply State.prefetchItem_kept | intro _ _ _ | intro _ _ | intro _
      | split)

theorem State.shortHeadland_kept {z : State} {s : State} (h : Kept z s) :
    Kept z (State.shortHeadland s) := by
  unfold State.shortHeadland
  try dsimp only
  with_reducible
    repeat' (first
      | assumption | apply State.discardLanes_kept | apply State.noteShort_kept | intro _ _ _ | intro _ _ | intro _
      | split)

theorem State.memberWork_kept {z : State} {s : State} {th : ℕ} (h : Kept z s) :
    Kept z (State.memberWork s th) := by
  unfold State.memberWork
  with_reducible
    repeat' (first
      | assumption | apply State.membershipItem_kept | apply State.resetItem_kept | apply State.fatalItem_kept
      | apply State.joinItem_kept)

theorem State.laterWork_kept {z : State} {s : State} {th : ℕ} {ended : Bool} {fallow : Bool} {stopping : Bool} {fits : Bool} (h : Kept z s) :
    Kept z (State.laterWork s th ended fallow stopping fits) := by
  unfold State.laterWork
  try dsimp only
  with_reducible
    repeat' (first
      | assumption | apply State.switchCopies_kept | apply State.admission_kept | apply State.spills_kept
      | apply State.shortHeadland_kept | apply State.commitItem_kept | apply State.deferCommit_kept
      | apply State.countSeqs_kept | apply State.countTenant_kept | apply State.memberWork_kept
      | apply State.adapterItem_kept | split)

theorem State.headland_kept {z : State} {s : State} {fits : Bool} (h : Kept z s) :
    Kept z (State.headland s fits) := by
  unfold State.headland
  try dsimp only
  with_reducible
    repeat' (first
      | assumption | apply State.deliverWork_kept | apply State.digestItem_kept | apply State.predictFurrow_kept
      | apply State.put_kept | apply State.putBit_kept | apply State.resumeReplay_kept | apply State.laterWork_kept
      | apply State.loseLead_kept | apply State.attribute_kept | split)

theorem State.clusterDivergent_kept {z : State} {s : State} {d : ℕ} (h : Kept z s) :
    Kept z (State.clusterDivergent s d) := by
  unfold State.clusterDivergent
  try dsimp only
  with_reducible
    repeat' (first
      | assumption | apply State.raise_kept | apply State.stopAll_kept | split)

theorem State.tokensIn_kept {z : State} {s : State} {i : ℕ} {l : List TokenRec} {kept : List ℕ} {missed : List ℕ} {damaged : List ℕ} {empty : List ℕ} (h : Kept z s) :
    Kept z (State.tokensIn s i l kept missed damaged empty) := by
  unfold State.tokensIn
  try dsimp only
  with_reducible
    repeat' (first
      | assumption | apply State.settleOpen_kept | apply State.retireDamaged_kept | apply State.afterSettle_kept
      | intro _ _ _ | intro _ _ | intro _ | split)

theorem State.settleArrived_kept {z : State} {s : State} (h : Kept z s) :
    Kept z (State.settleArrived s) := by
  unfold State.settleArrived
  with_reducible
    repeat' (first
      | assumption | apply State.settleOpen_kept | apply State.afterSettle_kept | split)

theorem State.markWork_kept {z : State} {s : State} {th : ℕ} (h : Kept z s) :
    Kept z (State.markWork s th) := by
  unfold State.markWork
  try dsimp only
  with_reducible
    repeat' (first
      | assumption | apply State.applyCommands_kept | apply State.applyTold_kept | apply State.countSeqs_kept
      | apply State.countTenant_kept | apply State.memberWork_kept | apply State.commitPrepared_kept | split)

theorem State.mark__kept {z : State} {s : State} (h : Kept z s) :
    Kept z (State.mark_ s) := by
  unfold State.mark_
  try dsimp only
  with_reducible
    repeat' (first
      | assumption | apply State.markEdge_kept | apply State.markWork_kept | (refine Kept.fst (by assumption) ?_)
      | split)

end Sys2Proof.Machine
end

