-- ==== Sys2Proof/Laws/KeptManage.lean ====
section
/-!
SUPPORT. What the operations of Machine/Manage.lean keep.
-/

set_option linter.all false

namespace Sys2Proof.Machine

theorem State.sideband_kept {z : State} {s : State} {a : SbAnswer} (h : Kept z s) :
    Kept z (State.sideband s a) := by
  unfold State.sideband
  with_reducible
    repeat' (first
      | assumption | apply State.emit_kept | split)

theorem State.setCap_kept {z : State} {s : State} {id : ℕ} {watts : ℕ} (h : Kept z s) :
    Kept z (State.setCap s id watts) := by
  unfold State.setCap
  try dsimp only
  with_reducible
    repeat' (first
      | assumption | apply State.sideband_kept | apply State.settleLevels_kept | apply State.put_kept | split)

theorem State.tapLoad_kept {z : State} {s : State} {code : ℕ} (h : Kept z s) :
    Kept z (State.tapLoad s code) := by
  unfold State.tapLoad
  try dsimp only
  with_reducible
    repeat' (first
      | assumption | apply State.emit_kept | split)

theorem State.takeAddress_kept {z : State} {s : State} {addr : ℕ} (h : Kept z s) :
    Kept z (State.takeAddress s addr) := by
  unfold State.takeAddress
  with_reducible
    repeat' (first
      | assumption | apply State.put_kept | split)

theorem State.readSensor_kept {z : State} {s : State} {id : ℕ} {standby : ℕ} (h : Kept z s) :
    Kept z (State.readSensor s id standby) := by
  unfold State.readSensor
  with_reducible
    repeat' (first
      | assumption | apply State.sideband_kept | split)

theorem State.setEid_kept {z : State} {s : State} {eid : ℕ} (h : Kept z s) :
    Kept z (State.setEid s eid) := by
  unfold State.setEid
  with_reducible
    repeat' (first
      | assumption | apply State.sideband_kept | apply State.put_kept | split)

theorem State.versionsOf_kept {z : State} {s : State} {type : ℕ} (h : Kept z s) :
    Kept z (State.versionsOf s type) := by
  unfold State.versionsOf
  with_reducible
    repeat' (first
      | assumption | apply State.draw_kept | apply State.sideband_kept | split)

end Sys2Proof.Machine
end

