-- ==== Sys2Proof/Laws/KeptMovers.lean ====
section
/-!
SUPPORT. What the operations of Machine/Movers.lean keep.
-/

set_option linter.all false

namespace Sys2Proof.Machine

theorem State.moveRun_kept {z : State} {s : State} {n : ℕ} {r : ℕ × ℕ × ℕ} (h : Kept z s) :
    Kept z (State.moveRun s n r) := by
  unfold State.moveRun
  try dsimp only
  with_reducible
    repeat' (first
      | assumption | apply State.writeFor_kept | apply State.countFarPoison_kept | apply State.poisonRange_kept
      | apply State.readFor_kept | apply Kept.foldl | intro _ _ _ | intro _ _ | intro _
      | (refine Kept.fst (by assumption) ?_) | split)

theorem State.xfer_kept {z : State} {s : State} {n : ℕ} {u : ℕ} {kind : ℕ} {mem : MemReport} (h : Kept z s) :
    Kept z (State.xfer s n u kind mem) := by
  unfold State.xfer
  try dsimp only
  with_reducible
    repeat' (first
      | assumption | apply State.gated_kept | apply State.writeFor_kept | apply State.failEvent_kept
      | apply State.poisonRange_kept | apply State.moveRun_kept | apply State.complete_kept
      | apply State.memReport_kept | apply State.failHead_kept | apply Kept.foldl | intro _ _ _ | intro _ _ | intro _
      | split)

end Sys2Proof.Machine
end

