-- ==== Sys2Proof/Laws/KeptSecure.lean ====
section
/-!
SUPPORT. What the operations of Machine/Secure.lean keep.
-/

set_option linter.all false

namespace Sys2Proof.Machine

theorem State.countSessions_kept {z : State} {s : State} (h : Kept z s) :
    Kept z (State.countSessions s) := by
  unfold State.countSessions
  with_reducible
    repeat' (first
      | assumption | apply State.put_kept)

theorem State.answer_kept {z : State} {s : State} {tr : ℕ} {a : SpdmAnswer} (h : Kept z s) :
    Kept z (State.answer s tr a) := by
  unfold State.answer
  with_reducible
    repeat' (first
      | assumption | apply State.emit_kept)

theorem State.withSession_kept {z : State} {s : State} {tr : ℕ} {id : ℕ} {f : State → State} (h : Kept z s) (h1 : ∀ y0, Kept z y0 → Kept z (f y0)) :
    Kept z (State.withSession s tr id f) := by
  unfold State.withSession
  with_reducible
    repeat' (first
      | assumption | apply State.answer_kept | apply h1 | split)

theorem State.setFloor_kept {z : State} {s : State} {tr : ℕ} {id : ℕ} {o : SignedObj} (h : Kept z s) :
    Kept z (State.setFloor s tr id o) := by
  unfold State.setFloor
  with_reducible
    repeat' (first
      | assumption | apply State.answer_kept | apply State.withSession_kept | intro _ _ _ | intro _ _ | intro _
      | split)

theorem State.transferEnd_kept {z : State} {s : State} {b : Bytes} {verified : Bool} {build : ℕ} (h : Kept z s) :
    Kept z (State.transferEnd s b verified build) := by
  unfold State.transferEnd
  try dsimp only
  with_reducible
    repeat' (first
      | assumption | apply State.emit_kept | split)

theorem State.setInstanceKey_kept {z : State} {s : State} {tr : ℕ} {id : ℕ} {inst : ℕ} {keyId : ℕ} {key : ℕ} (h : Kept z s) :
    Kept z (State.setInstanceKey s tr id inst keyId key) := by
  unfold State.setInstanceKey
  try dsimp only
  with_reducible
    repeat' (first
      | assumption | apply State.answer_kept | apply State.withSession_kept | intro _ _ _ | intro _ _ | intro _
      | split)

theorem State.sign_kept {z : State} {s : State} (h : Kept z s) :
    Kept z (State.sign s).1 := by
  unfold State.sign
  try dsimp only
  with_reducible
    repeat' (first
      | assumption | apply State.draw_kept | (refine Kept.fst (by assumption) ?_))

theorem State.whenAgreed_kept {z : State} {s : State} {tr : ℕ} {identity : Bool} {f : State → State} (h : Kept z s) (h1 : ∀ y0, Kept z y0 → Kept z (f y0)) :
    Kept z (State.whenAgreed s tr identity f) := by
  unfold State.whenAgreed
  with_reducible
    repeat' (first
      | assumption | apply State.answer_kept | apply h1 | split)

theorem State.finishSession_kept {z : State} {s : State} {tr : ℕ} {id : ℕ} {ok : Bool} (h : Kept z s) :
    Kept z (State.finishSession s tr id ok) := by
  unfold State.finishSession
  try dsimp only
  with_reducible
    repeat' (first
      | assumption | apply State.answer_kept | apply State.whenAgreed_kept | apply State.countSessions_kept
      | intro _ _ _ | intro _ _ | intro _ | split)

theorem State.agree_kept {z : State} {s : State} {tr : ℕ} {after : ℕ} {a : SpdmAnswer} (h : Kept z s) :
    Kept z (State.agree s tr after a) := by
  unfold State.agree
  with_reducible
    repeat' (first
      | assumption | apply State.answer_kept | split)

theorem State.endSession_kept {z : State} {s : State} {tr : ℕ} {id : ℕ} (h : Kept z s) :
    Kept z (State.endSession s tr id) := by
  unfold State.endSession
  with_reducible
    repeat' (first
      | assumption | apply State.answer_kept | apply State.withSession_kept | apply State.countSessions_kept
      | intro _ _ _ | intro _ _ | intro _)

theorem State.fwInfo_kept {z : State} {s : State} (h : Kept z s) :
    Kept z (State.fwInfo s) := by
  unfold State.fwInfo
  with_reducible
    repeat' (first
      | assumption | apply State.emit_kept)

theorem State.keyExchange_kept {z : State} {s : State} {tr : ℕ} {id : ℕ} (h : Kept z s) :
    Kept z (State.keyExchange s tr id) := by
  unfold State.keyExchange
  try dsimp only
  with_reducible
    repeat' (first
      | assumption | apply State.sign_kept | apply State.answer_kept | apply State.whenAgreed_kept | intro _ _ _
      | intro _ _ | intro _ | (refine Kept.fst (by assumption) ?_) | split)

theorem State.transferFw_kept {z : State} {s : State} {part : FwPart} {slot : ℕ} {offset : ℕ} {data : Bytes} {verified : Bool} {build : ℕ} (h : Kept z s) :
    Kept z (State.transferFw s part slot offset data verified build) := by
  unfold State.transferFw
  try dsimp only
  with_reducible
    repeat' (first
      | assumption | apply State.transferEnd_kept | apply State.emit_kept | intro _ _ _ | intro _ _ | intro _ | split)

theorem State.ideKm_kept {z : State} {s : State} {id : ℕ} {stream : ℕ} {go : Bool} {skid : Bool} (h : Kept z s) :
    Kept z (State.ideKm s id stream go skid) := by
  unfold State.ideKm
  try dsimp only
  with_reducible
    repeat' (first
      | assumption | apply State.putBit_kept | apply State.reopen_kept | apply State.emit_kept | split)

theorem State.activateFw_kept {z : State} {s : State} {slot : ℕ} {online : Bool} (h : Kept z s) :
    Kept z (State.activateFw s slot online) := by
  unfold State.activateFw
  with_reducible
    repeat' (first
      | assumption | apply State.emit_kept | split)

end Sys2Proof.Machine
end

