-- ==== Sys2Proof/Laws/KeptExec.lean ====
section
/-!
SUPPORT. What each command keeps.
-/

set_option linter.all false

namespace Sys2Proof.Machine

theorem State.act_kept {z s : State} {f : State → State} (h : Kept z s) (hf : ∀ s, Kept z s → Kept z (f s)) :
    KeptA z (s.act f) :=
  State.whenAlive_kept h fun _ k => State.settle_kept (hf _ k)

theorem State.onSideband_kept {z s : State} {f : State → State} (h : Kept z s) (hf : ∀ s, Kept z s → Kept z (f s)) :
    KeptA z (s.onSideband f) := by
  refine State.become_kept h ?_
  split
  · exact h
  · exact hf s h

theorem State.messageIn_kept {z s : State} {p n : Nat} {m : CtrlMsg} {f : State → State} (h : Kept z s)
    (hf : ∀ s, Kept z s → Kept z (f s)) : KeptA z (s.messageIn p n m f) :=
  State.act_kept h fun _ k => State.ctrlIn_kept k hf

theorem execAttend_kept {z s : State} {tile clocks : Nat} {reports : List (Nat × EngineReport) × MemReport} (h : Kept z s) : KeptA z (execAttend tile clocks reports s) := by
  unfold execAttend
  with_reducible
    repeat' (first
      | assumption | apply State.whenAlive_kept | apply State.attend_kept | intro _ _ _ | intro _ _ | intro _ | (refine Kept.fst (by assumption) ?_) | split)

theorem execAttendMerge_kept {z s : State} {run : Nat × MemReport} (h : Kept z s) : KeptA z (execAttendMerge run s) := by
  unfold execAttendMerge
  with_reducible
    repeat' (first
      | assumption | apply State.whenAlive_kept | apply State.attendMerge_kept | intro _ _ _ | intro _ _ | intro _ | (refine Kept.fst (by assumption) ?_) | split)

theorem execSysRstNAssert_kept {z s : State} (h : Kept z s) : KeptA z (execSysRstNAssert s) := by
  unfold execSysRstNAssert
  with_reducible
    repeat' (first
      | assumption | apply State.become_kept | apply State.resetAssert_kept | intro _ _ _ | intro _ _ | intro _ | (refine Kept.fst (by assumption) ?_) | split)

theorem execSysRstNRelease_kept {z s : State} (h : Kept z s) : KeptA z (execSysRstNRelease s) := by
  unfold execSysRstNRelease
  with_reducible
    repeat' (first
      | assumption | apply State.become_kept | apply State.resetRelease_kept | intro _ _ _ | intro _ _ | intro _ | (refine Kept.fst (by assumption) ?_) | split)

theorem execPerstNAssert_kept {z s : State} (h : Kept z s) : KeptA z (execPerstNAssert s) := by
  unfold execPerstNAssert
  with_reducible
    repeat' (first
      | assumption | apply State.become_kept | apply State.perstAssert_kept | apply State.settle_kept | intro _ _ _ | intro _ _ | intro _ | (refine Kept.fst (by assumption) ?_) | split)

theorem execPerstNRelease_kept {z s : State} (h : Kept z s) : KeptA z (execPerstNRelease s) := by
  unfold execPerstNRelease
  with_reducible
    repeat' (first
      | assumption | apply State.become_kept | apply State.perstRelease_kept | intro _ _ _ | intro _ _ | intro _ | (refine Kept.fst (by assumption) ?_) | split)

theorem execVsbPowerUp_kept {z s : State} {straps : Nat} (h : Kept z s) : KeptA z (execVsbPowerUp straps s) := by
  unfold execVsbPowerUp
  with_reducible
    repeat' (first
      | assumption | apply State.become_kept | apply State.vsbUp_kept | intro _ _ _ | intro _ _ | intro _ | (refine Kept.fst (by assumption) ?_) | split)

theorem execRailsRemoved_kept {z s : State} (h : Kept z s) : KeptA z (execRailsRemoved s) := by
  unfold execRailsRemoved
  with_reducible
    repeat' (first
      | assumption | apply State.become_kept | apply State.railsOff_kept | intro _ _ _ | intro _ _ | intro _ | (refine Kept.fst (by assumption) ?_) | split)

theorem execRomBoot_kept {z s : State} {flash : BootFlash} {tests : Bool} (h : Kept z s) : KeptA z (execRomBoot flash tests s) := by
  unfold execRomBoot
  with_reducible
    repeat' (first
      | assumption | apply State.whenAlive_kept | apply State.boot_kept | intro _ _ _ | intro _ _ | intro _ | (refine Kept.fst (by assumption) ?_) | split)

theorem execMemoryInitDone_kept {z s : State} {found : List (Nat × Nat × List Nat)} (h : Kept z s) : KeptA z (execMemoryInitDone found s) := by
  unfold execMemoryInitDone
  with_reducible
    repeat' (first
      | assumption | apply State.whenAlive_kept | apply State.memoryInit_kept | intro _ _ _ | intro _ _ | intro _ | (refine Kept.fst (by assumption) ?_) | split)

theorem execSelftestDone_kept {z s : State} {results : List SelfResult} {left : List (Nat × Bytes)} (h : Kept z s) : KeptA z (execSelftestDone results left s) := by
  unfold execSelftestDone
  with_reducible
    repeat' (first
      | assumption | apply State.act_kept | apply State.selftestEnds_kept | apply State.startupTest_kept | intro _ _ _ | intro _ _ | intro _ | (refine Kept.fst (by assumption) ?_) | split)

theorem execCollSlotSendTime_kept {z s : State} {slot : Nat} (h : Kept z s) : KeptA z (execCollSlotSendTime slot s) := by
  unfold execCollSlotSendTime
  with_reducible
    repeat' (first
      | assumption | apply State.whenAlive_kept | apply State.openSlot_kept | intro _ _ _ | intro _ _ | intro _ | (refine Kept.fst (by assumption) ?_) | split)

theorem execDescriptorIssue_kept {z s : State} {tile : Nat} (h : Kept z s) : KeptA z (execDescriptorIssue tile s) := by
  unfold execDescriptorIssue
  with_reducible
    repeat' (first
      | assumption | apply State.whenAlive_kept | apply State.issue_kept | apply State.collectives_kept | intro _ _ _ | intro _ _ | intro _ | (refine Kept.fst (by assumption) ?_) | split)

theorem execReduceScatter_kept {z s : State} {tile : Nat} {mem : MemReport} (h : Kept z s) : KeptA z (execReduceScatter tile mem s) := by
  unfold execReduceScatter
  with_reducible
    repeat' (first
      | assumption | apply State.whenAlive_kept | apply State.collStart_kept | intro _ _ _ | intro _ _ | intro _ | (refine Kept.fst (by assumption) ?_) | split)

theorem execAllGather_kept {z s : State} {tile : Nat} {mem : MemReport} (h : Kept z s) : KeptA z (execAllGather tile mem s) := by
  unfold execAllGather
  with_reducible
    repeat' (first
      | assumption | apply State.whenAlive_kept | apply State.collStart_kept | intro _ _ _ | intro _ _ | intro _ | (refine Kept.fst (by assumption) ?_) | split)

theorem execAllReduce_kept {z s : State} {tile : Nat} {mem : MemReport} (h : Kept z s) : KeptA z (execAllReduce tile mem s) := by
  unfold execAllReduce
  with_reducible
    repeat' (first
      | assumption | apply State.whenAlive_kept | apply State.collStart_kept | intro _ _ _ | intro _ _ | intro _ | (refine Kept.fst (by assumption) ?_) | split)

theorem execBroadcast_kept {z s : State} {tile : Nat} {mem : MemReport} (h : Kept z s) : KeptA z (execBroadcast tile mem s) := by
  unfold execBroadcast
  with_reducible
    repeat' (first
      | assumption | apply State.whenAlive_kept | apply State.collStart_kept | intro _ _ _ | intro _ _ | intro _ | (refine Kept.fst (by assumption) ?_) | split)

theorem execOneShotAllToAll_kept {z s : State} {tile : Nat} {mem : MemReport} (h : Kept z s) : KeptA z (execOneShotAllToAll tile mem s) := by
  unfold execOneShotAllToAll
  with_reducible
    repeat' (first
      | assumption | apply State.whenAlive_kept | apply State.collStart_kept | intro _ _ _ | intro _ _ | intro _ | (refine Kept.fst (by assumption) ?_) | split)

theorem execRingPass_kept {z s : State} {tile : Nat} {mem : MemReport} (h : Kept z s) : KeptA z (execRingPass tile mem s) := by
  unfold execRingPass
  with_reducible
    repeat' (first
      | assumption | apply State.whenAlive_kept | apply State.collStart_kept | intro _ _ _ | intro _ _ | intro _ | (refine Kept.fst (by assumption) ?_) | split)

theorem execAtomAdd_kept {z s : State} {route : AtomRoute} (h : Kept z s) : KeptA z (execAtomAdd route s) := by
  unfold execAtomAdd
  with_reducible
    repeat' (first
      | assumption | apply State.whenAlive_kept | apply State.atomCommand_kept | intro _ _ _ | intro _ _ | intro _ | (refine Kept.fst (by assumption) ?_) | split)

theorem execAtomMin_kept {z s : State} {route : AtomRoute} (h : Kept z s) : KeptA z (execAtomMin route s) := by
  unfold execAtomMin
  with_reducible
    repeat' (first
      | assumption | apply State.whenAlive_kept | apply State.atomCommand_kept | intro _ _ _ | intro _ _ | intro _ | (refine Kept.fst (by assumption) ?_) | split)

theorem execAtomMax_kept {z s : State} {route : AtomRoute} (h : Kept z s) : KeptA z (execAtomMax route s) := by
  unfold execAtomMax
  with_reducible
    repeat' (first
      | assumption | apply State.whenAlive_kept | apply State.atomCommand_kept | intro _ _ _ | intro _ _ | intro _ | (refine Kept.fst (by assumption) ?_) | split)

theorem execMinu_kept {z s : State} {route : AtomRoute} (h : Kept z s) : KeptA z (execMinu route s) := by
  unfold execMinu
  with_reducible
    repeat' (first
      | assumption | apply State.whenAlive_kept | apply State.atomCommand_kept | intro _ _ _ | intro _ _ | intro _ | (refine Kept.fst (by assumption) ?_) | split)

theorem execMaxu_kept {z s : State} {route : AtomRoute} (h : Kept z s) : KeptA z (execMaxu route s) := by
  unfold execMaxu
  with_reducible
    repeat' (first
      | assumption | apply State.whenAlive_kept | apply State.atomCommand_kept | intro _ _ _ | intro _ _ | intro _ | (refine Kept.fst (by assumption) ?_) | split)

theorem execCas_kept {z s : State} {route : AtomRoute} (h : Kept z s) : KeptA z (execCas route s) := by
  unfold execCas
  with_reducible
    repeat' (first
      | assumption | apply State.whenAlive_kept | apply State.atomCommand_kept | intro _ _ _ | intro _ _ | intro _ | (refine Kept.fst (by assumption) ?_) | split)

theorem execRefInc_kept {z s : State} {route : AtomRoute} (h : Kept z s) : KeptA z (execRefInc route s) := by
  unfold execRefInc
  with_reducible
    repeat' (first
      | assumption | apply State.whenAlive_kept | apply State.atomCommand_kept | intro _ _ _ | intro _ _ | intro _ | (refine Kept.fst (by assumption) ?_) | split)

theorem execRefDec_kept {z s : State} {route : AtomRoute} (h : Kept z s) : KeptA z (execRefDec route s) := by
  unfold execRefDec
  with_reducible
    repeat' (first
      | assumption | apply State.whenAlive_kept | apply State.atomCommand_kept | intro _ _ _ | intro _ _ | intro _ | (refine Kept.fst (by assumption) ?_) | split)

theorem execMatmul_kept {z s : State} {tile unit : Nat} {rep : EngineReport} {mem : MemReport} (h : Kept z s) : KeptA z (execMatmul tile unit rep mem s) := by
  unfold execMatmul
  with_reducible
    repeat' (first
      | assumption | apply State.whenAlive_kept | apply State.matmul_kept | intro _ _ _ | intro _ _ | intro _ | (refine Kept.fst (by assumption) ?_) | split)

theorem execChainLinkAdd_kept {z s : State} {tile unit : Nat} {reports : EngineReport × MemReport} (h : Kept z s) : KeptA z (execChainLinkAdd tile unit reports s) := by
  unfold execChainLinkAdd
  with_reducible
    repeat' (first
      | assumption | apply State.whenAlive_kept | apply State.chainAdd_kept | intro _ _ _ | intro _ _ | intro _ | (refine Kept.fst (by assumption) ?_) | split)

theorem execWriteOutTimeout_kept {z s : State} {tile unit : Nat} (h : Kept z s) : KeptA z (execWriteOutTimeout tile unit s) := by
  unfold execWriteOutTimeout
  with_reducible
    repeat' (first
      | assumption | apply State.whenAlive_kept | apply State.writeOutTimeout_kept | intro _ _ _ | intro _ _ | intro _ | (refine Kept.fst (by assumption) ?_) | split)

theorem execPlotRefetchDone_kept {z s : State} {tile unit : Nat} (h : Kept z s) : KeptA z (execPlotRefetchDone tile unit s) := by
  unfold execPlotRefetchDone
  with_reducible
    repeat' (first
      | assumption | apply State.whenAlive_kept | apply State.plotRefetched_kept | intro _ _ _ | intro _ _ | intro _ | (refine Kept.fst (by assumption) ?_) | split)

theorem execVecCopy_kept {z s : State} {tile stalls : Nat} {mem : MemReport} (h : Kept z s) : KeptA z (execVecCopy tile stalls mem s) := by
  unfold execVecCopy
  with_reducible
    repeat' (first
      | assumption | apply State.whenAlive_kept | apply State.vec_kept | apply vecUnary_kept | intro _ _ _ | intro _ _ | intro _ | (refine Kept.fst (by assumption) ?_) | split)

theorem execVecAdd_kept {z s : State} {tile stalls : Nat} {mem : MemReport} (h : Kept z s) : KeptA z (execVecAdd tile stalls mem s) := by
  unfold execVecAdd
  with_reducible
    repeat' (first
      | assumption | apply State.whenAlive_kept | apply State.vec_kept | apply vecBinary_kept | intro _ _ _ | intro _ _ | intro _ | (refine Kept.fst (by assumption) ?_) | split)

theorem execVecSub_kept {z s : State} {tile stalls : Nat} {mem : MemReport} (h : Kept z s) : KeptA z (execVecSub tile stalls mem s) := by
  unfold execVecSub
  with_reducible
    repeat' (first
      | assumption | apply State.whenAlive_kept | apply State.vec_kept | apply vecBinary_kept | intro _ _ _ | intro _ _ | intro _ | (refine Kept.fst (by assumption) ?_) | split)

theorem execVecMul_kept {z s : State} {tile stalls : Nat} {mem : MemReport} (h : Kept z s) : KeptA z (execVecMul tile stalls mem s) := by
  unfold execVecMul
  with_reducible
    repeat' (first
      | assumption | apply State.whenAlive_kept | apply State.vec_kept | apply vecBinary_kept | intro _ _ _ | intro _ _ | intro _ | (refine Kept.fst (by assumption) ?_) | split)

theorem execFma_kept {z s : State} {tile stalls : Nat} {mem : MemReport} (h : Kept z s) : KeptA z (execFma tile stalls mem s) := by
  unfold execFma
  with_reducible
    repeat' (first
      | assumption | apply State.whenAlive_kept | apply State.vec_kept | apply vecTernary_kept | intro _ _ _ | intro _ _ | intro _ | (refine Kept.fst (by assumption) ?_) | split)

theorem execAxpb_kept {z s : State} {tile stalls : Nat} {mem : MemReport} (h : Kept z s) : KeptA z (execAxpb tile stalls mem s) := by
  unfold execAxpb
  with_reducible
    repeat' (first
      | assumption | apply State.whenAlive_kept | apply State.vec_kept | apply vecUnary_kept | intro _ _ _ | intro _ _ | intro _ | (refine Kept.fst (by assumption) ?_) | split)

theorem execVecMax_kept {z s : State} {tile stalls : Nat} {mem : MemReport} (h : Kept z s) : KeptA z (execVecMax tile stalls mem s) := by
  unfold execVecMax
  with_reducible
    repeat' (first
      | assumption | apply State.whenAlive_kept | apply State.vec_kept | apply vecBinary_kept | intro _ _ _ | intro _ _ | intro _ | (refine Kept.fst (by assumption) ?_) | split)

theorem execVecMin_kept {z s : State} {tile stalls : Nat} {mem : MemReport} (h : Kept z s) : KeptA z (execVecMin tile stalls mem s) := by
  unfold execVecMin
  with_reducible
    repeat' (first
      | assumption | apply State.whenAlive_kept | apply State.vec_kept | apply vecBinary_kept | intro _ _ _ | intro _ _ | intro _ | (refine Kept.fst (by assumption) ?_) | split)

theorem execMulrow_kept {z s : State} {tile stalls : Nat} {mem : MemReport} (h : Kept z s) : KeptA z (execMulrow tile stalls mem s) := by
  unfold execMulrow
  with_reducible
    repeat' (first
      | assumption | apply State.whenAlive_kept | apply State.vec_kept | apply vecByRow_kept | intro _ _ _ | intro _ _ | intro _ | (refine Kept.fst (by assumption) ?_) | split)

theorem execDivrow_kept {z s : State} {tile stalls : Nat} {mem : MemReport} (h : Kept z s) : KeptA z (execDivrow tile stalls mem s) := by
  unfold execDivrow
  with_reducible
    repeat' (first
      | assumption | apply State.whenAlive_kept | apply State.vec_kept | apply vecByRow_kept | intro _ _ _ | intro _ _ | intro _ | (refine Kept.fst (by assumption) ?_) | split)

theorem execRowsum_kept {z s : State} {tile stalls : Nat} {mem : MemReport} (h : Kept z s) : KeptA z (execRowsum tile stalls mem s) := by
  unfold execRowsum
  with_reducible
    repeat' (first
      | assumption | apply State.whenAlive_kept | apply State.vec_kept | apply vecReduce_kept | intro _ _ _ | intro _ _ | intro _ | (refine Kept.fst (by assumption) ?_) | split)

theorem execRowmax_kept {z s : State} {tile stalls : Nat} {mem : MemReport} (h : Kept z s) : KeptA z (execRowmax tile stalls mem s) := by
  unfold execRowmax
  with_reducible
    repeat' (first
      | assumption | apply State.whenAlive_kept | apply State.vec_kept | apply vecReduce_kept | intro _ _ _ | intro _ _ | intro _ | (refine Kept.fst (by assumption) ?_) | split)

theorem execRowamax_kept {z s : State} {tile stalls : Nat} {mem : MemReport} (h : Kept z s) : KeptA z (execRowamax tile stalls mem s) := by
  unfold execRowamax
  with_reducible
    repeat' (first
      | assumption | apply State.whenAlive_kept | apply State.vec_kept | apply vecReduce_kept | intro _ _ _ | intro _ _ | intro _ | (refine Kept.fst (by assumption) ?_) | split)

theorem execActTable_kept {z s : State} {tile stalls : Nat} {mem : MemReport} (h : Kept z s) : KeptA z (execActTable tile stalls mem s) := by
  unfold execActTable
  with_reducible
    repeat' (first
      | assumption | apply State.whenAlive_kept | apply State.vec_kept | apply vecTable_kept | apply vecUnary_kept | intro _ _ _ | intro _ _ | intro _ | (refine Kept.fst (by assumption) ?_) | split)

theorem execGateTable_kept {z s : State} {tile stalls : Nat} {mem : MemReport} (h : Kept z s) : KeptA z (execGateTable tile stalls mem s) := by
  unfold execGateTable
  with_reducible
    repeat' (first
      | assumption | apply State.whenAlive_kept | apply State.vec_kept | apply vecTable_kept | apply vecBinary_kept | intro _ _ _ | intro _ _ | intro _ | (refine Kept.fst (by assumption) ?_) | split)

theorem execExprow_kept {z s : State} {tile stalls : Nat} {mem : MemReport} (h : Kept z s) : KeptA z (execExprow tile stalls mem s) := by
  unfold execExprow
  with_reducible
    repeat' (first
      | assumption | apply State.whenAlive_kept | apply State.vec_kept | apply vecTable_kept | apply vecByRow_kept | intro _ _ _ | intro _ _ | intro _ | (refine Kept.fst (by assumption) ?_) | split)

theorem execRmsnorm_kept {z s : State} {tile stalls : Nat} {mem : MemReport} (h : Kept z s) : KeptA z (execRmsnorm tile stalls mem s) := by
  unfold execRmsnorm
  with_reducible
    repeat' (first
      | assumption | apply State.whenAlive_kept | apply State.vec_kept | apply vecNorm_kept | intro _ _ _ | intro _ _ | intro _ | (refine Kept.fst (by assumption) ?_) | split)

theorem execLayernorm_kept {z s : State} {tile stalls : Nat} {mem : MemReport} (h : Kept z s) : KeptA z (execLayernorm tile stalls mem s) := by
  unfold execLayernorm
  with_reducible
    repeat' (first
      | assumption | apply State.whenAlive_kept | apply State.vec_kept | apply vecNorm_kept | intro _ _ _ | intro _ _ | intro _ | (refine Kept.fst (by assumption) ?_) | split)

theorem execQuantI8s_kept {z s : State} {tile stalls : Nat} {mem : MemReport} (h : Kept z s) : KeptA z (execQuantI8s tile stalls mem s) := by
  unfold execQuantI8s
  with_reducible
    repeat' (first
      | assumption | apply State.whenAlive_kept | apply State.vec_kept | apply vecQuant_kept | intro _ _ _ | intro _ _ | intro _ | (refine Kept.fst (by assumption) ?_) | split)

theorem execQuantI8a_kept {z s : State} {tile stalls : Nat} {mem : MemReport} (h : Kept z s) : KeptA z (execQuantI8a tile stalls mem s) := by
  unfold execQuantI8a
  with_reducible
    repeat' (first
      | assumption | apply State.whenAlive_kept | apply State.vec_kept | apply vecQuant_kept | intro _ _ _ | intro _ _ | intro _ | (refine Kept.fst (by assumption) ?_) | split)

theorem execQuantFp8_kept {z s : State} {tile stalls : Nat} {mem : MemReport} (h : Kept z s) : KeptA z (execQuantFp8 tile stalls mem s) := by
  unfold execQuantFp8
  with_reducible
    repeat' (first
      | assumption | apply State.whenAlive_kept | apply State.vec_kept | apply vecQuant_kept | intro _ _ _ | intro _ _ | intro _ | (refine Kept.fst (by assumption) ?_) | split)

theorem execRescaleTab_kept {z s : State} {tile stalls : Nat} {mem : MemReport} (h : Kept z s) : KeptA z (execRescaleTab tile stalls mem s) := by
  unfold execRescaleTab
  with_reducible
    repeat' (first
      | assumption | apply State.whenAlive_kept | apply State.vec_kept | apply vecRescaleTab_kept | intro _ _ _ | intro _ _ | intro _ | (refine Kept.fst (by assumption) ?_) | split)

theorem execRescaleReg_kept {z s : State} {tile stalls : Nat} {mem : MemReport} (h : Kept z s) : KeptA z (execRescaleReg tile stalls mem s) := by
  unfold execRescaleReg
  with_reducible
    repeat' (first
      | assumption | apply State.whenAlive_kept | apply State.vec_kept | apply vecRescaleReg_kept | intro _ _ _ | intro _ _ | intro _ | (refine Kept.fst (by assumption) ?_) | split)

theorem execRescaleFp_kept {z s : State} {tile stalls : Nat} {mem : MemReport} (h : Kept z s) : KeptA z (execRescaleFp tile stalls mem s) := by
  unfold execRescaleFp
  with_reducible
    repeat' (first
      | assumption | apply State.whenAlive_kept | apply State.vec_kept | apply vecRescaleFp_kept | intro _ _ _ | intro _ _ | intro _ | (refine Kept.fst (by assumption) ?_) | split)

theorem execWireQ8_kept {z s : State} {tile stalls : Nat} {mem : MemReport} (h : Kept z s) : KeptA z (execWireQ8 tile stalls mem s) := by
  unfold execWireQ8
  with_reducible
    repeat' (first
      | assumption | apply State.whenAlive_kept | apply State.vec_kept | apply vecWireQ8_kept | intro _ _ _ | intro _ _ | intro _ | (refine Kept.fst (by assumption) ?_) | split)

theorem execWireFp8_kept {z s : State} {tile stalls : Nat} {mem : MemReport} (h : Kept z s) : KeptA z (execWireFp8 tile stalls mem s) := by
  unfold execWireFp8
  with_reducible
    repeat' (first
      | assumption | apply State.whenAlive_kept | apply State.vec_kept | apply vecWire_kept | intro _ _ _ | intro _ _ | intro _ | (refine Kept.fst (by assumption) ?_) | split)

theorem execWireWide_kept {z s : State} {tile stalls : Nat} {mem : MemReport} (h : Kept z s) : KeptA z (execWireWide tile stalls mem s) := by
  unfold execWireWide
  with_reducible
    repeat' (first
      | assumption | apply State.whenAlive_kept | apply State.vec_kept | apply vecWire_kept | intro _ _ _ | intro _ _ | intro _ | (refine Kept.fst (by assumption) ?_) | split)

theorem execWidenAdd_kept {z s : State} {tile stalls : Nat} {mem : MemReport} (h : Kept z s) : KeptA z (execWidenAdd tile stalls mem s) := by
  unfold execWidenAdd
  with_reducible
    repeat' (first
      | assumption | apply State.whenAlive_kept | apply State.vec_kept | apply vecWiden_kept | intro _ _ _ | intro _ _ | intro _ | (refine Kept.fst (by assumption) ?_) | split)

theorem execWidenAddF32_kept {z s : State} {tile stalls : Nat} {mem : MemReport} (h : Kept z s) : KeptA z (execWidenAddF32 tile stalls mem s) := by
  unfold execWidenAddF32
  with_reducible
    repeat' (first
      | assumption | apply State.whenAlive_kept | apply State.vec_kept | apply vecWiden_kept | intro _ _ _ | intro _ _ | intro _ | (refine Kept.fst (by assumption) ?_) | split)

theorem execSampleLocal_kept {z s : State} {tile : Nat} {mem : MemReport} (h : Kept z s) : KeptA z (execSampleLocal tile mem s) := by
  unfold execSampleLocal
  with_reducible
    repeat' (first
      | assumption | apply State.whenAlive_kept | apply State.sampleLocal_kept | intro _ _ _ | intro _ _ | intro _ | (refine Kept.fst (by assumption) ?_) | split)

theorem execSampleFinal_kept {z s : State} {tile : Nat} {mem : MemReport} (h : Kept z s) : KeptA z (execSampleFinal tile mem s) := by
  unfold execSampleFinal
  with_reducible
    repeat' (first
      | assumption | apply State.whenAlive_kept | apply State.sampleFinal_kept | intro _ _ _ | intro _ _ | intro _ | (refine Kept.fst (by assumption) ?_) | split)

theorem execCopyXfer_kept {z s : State} {tile unit : Nat} {mem : MemReport} (h : Kept z s) : KeptA z (execCopyXfer tile unit mem s) := by
  unfold execCopyXfer
  with_reducible
    repeat' (first
      | assumption | apply State.whenAlive_kept | apply State.xfer_kept | intro _ _ _ | intro _ _ | intro _ | (refine Kept.fst (by assumption) ?_) | split)

theorem execStridedCopy_kept {z s : State} {tile unit : Nat} {mem : MemReport} (h : Kept z s) : KeptA z (execStridedCopy tile unit mem s) := by
  unfold execStridedCopy
  with_reducible
    repeat' (first
      | assumption | apply State.whenAlive_kept | apply State.xfer_kept | intro _ _ _ | intro _ _ | intro _ | (refine Kept.fst (by assumption) ?_) | split)

theorem execGather_kept {z s : State} {tile unit : Nat} {mem : MemReport} (h : Kept z s) : KeptA z (execGather tile unit mem s) := by
  unfold execGather
  with_reducible
    repeat' (first
      | assumption | apply State.whenAlive_kept | apply State.xfer_kept | intro _ _ _ | intro _ _ | intro _ | (refine Kept.fst (by assumption) ?_) | split)

theorem execZeroFill_kept {z s : State} {tile unit : Nat} {mem : MemReport} (h : Kept z s) : KeptA z (execZeroFill tile unit mem s) := by
  unfold execZeroFill
  with_reducible
    repeat' (first
      | assumption | apply State.whenAlive_kept | apply State.xfer_kept | intro _ _ _ | intro _ _ | intro _ | (refine Kept.fst (by assumption) ?_) | split)

theorem execIdleFrame_kept {z s : State} {port : Nat} {f : Frame} {fixed : Nat} (h : Kept z s) : KeptA z (execIdleFrame port f fixed s) := by
  unfold execIdleFrame
  with_reducible
    repeat' (first
      | assumption | apply State.whenAlive_kept | apply State.receive_kept | intro _ _ _ | intro _ _ | intro _ | (refine Kept.fst (by assumption) ?_) | split)

theorem execStartFrame_kept {z s : State} {port : Nat} {f : Frame} {fixed : Nat} (h : Kept z s) : KeptA z (execStartFrame port f fixed s) := by
  unfold execStartFrame
  with_reducible
    repeat' (first
      | assumption | apply State.whenAlive_kept | apply State.receive_kept | apply State.startIn_kept | intro _ _ _ | intro _ _ | intro _ | (refine Kept.fst (by assumption) ?_) | split)

theorem execNakFrame_kept {z s : State} {port : Nat} {f : Frame} {fixed : Nat} (h : Kept z s) : KeptA z (execNakFrame port f fixed s) := by
  unfold execNakFrame
  with_reducible
    repeat' (first
      | assumption | apply State.whenAlive_kept | apply State.receive_kept | apply State.replay_kept | intro _ _ _ | intro _ _ | intro _ | (refine Kept.fst (by assumption) ?_) | split)

theorem execTrainFrame_kept {z s : State} {port serial peerPort mode : Nat} (h : Kept z s) : KeptA z (execTrainFrame port serial peerPort mode s) := by
  unfold execTrainFrame
  with_reducible
    repeat' (first
      | assumption | apply State.whenAlive_kept | apply State.modLink_kept | intro _ _ _ | intro _ _ | intro _ | (refine Kept.fst (by assumption) ?_) | split)

theorem execUncorrectableFrame_kept {z s : State} {port : Nat} (h : Kept z s) : KeptA z (execUncorrectableFrame port s) := by
  unfold execUncorrectableFrame
  with_reducible
    repeat' (first
      | assumption | apply State.whenAlive_kept | apply State.bump_kept | apply State.discardFrame_kept | intro _ _ _ | intro _ _ | intro _ | (refine Kept.fst (by assumption) ?_) | split)

theorem execReplayTimeout_kept {z s : State} {port : Nat} (h : Kept z s) : KeptA z (execReplayTimeout port s) := by
  unfold execReplayTimeout
  with_reducible
    repeat' (first
      | assumption | apply State.whenAlive_kept | apply State.replay_kept | intro _ _ _ | intro _ _ | intro _ | (refine Kept.fst (by assumption) ?_) | split)

theorem execLinkRetrain_kept {z s : State} {port : Nat} (h : Kept z s) : KeptA z (execLinkRetrain port s) := by
  unfold execLinkRetrain
  with_reducible
    repeat' (first
      | assumption | apply State.whenAlive_kept | apply State.replay_kept | apply State.leaveUp_kept | intro _ _ _ | intro _ _ | intro _ | (refine Kept.fst (by assumption) ?_) | split)

theorem execPeerDetect_kept {z s : State} {port : Nat} (h : Kept z s) : KeptA z (execPeerDetect port s) := by
  unfold execPeerDetect
  try dsimp only
  with_reducible
    repeat' (first
      | assumption | apply State.whenAlive_kept | apply State.enterTrain_kept | intro _ _ _ | intro _ _ | intro _ | (refine Kept.fst (by assumption) ?_) | split)

theorem execLinkPeerLost_kept {z s : State} {port : Nat} (h : Kept z s) : KeptA z (execLinkPeerLost port s) := by
  unfold execLinkPeerLost
  with_reducible
    repeat' (first
      | assumption | apply State.whenAlive_kept | apply State.put_kept | apply State.modLink_kept | apply State.refreshLinks_kept | intro _ _ _ | intro _ _ | intro _ | (refine Kept.fst (by assumption) ?_) | split)

theorem execAckMsg_kept {z s : State} {port frags : Nat} {m : CtrlMsg} (h : Kept z s) : KeptA z (execAckMsg port frags m s) := by
  unfold execAckMsg
  with_reducible
    repeat' (first
      | assumption | apply State.whenAlive_kept | apply State.ctrlIn_kept | apply State.ackIn_kept | intro _ _ _ | intro _ _ | intro _ | (refine Kept.fst (by assumption) ?_) | split)

theorem execEventLogWrite_kept {z s : State} {fails : Bool} (h : Kept z s) : KeptA z (execEventLogWrite fails s) := by
  unfold execEventLogWrite
  with_reducible
    repeat' (first
      | assumption | apply State.become_kept | apply State.writeEvent_kept | intro _ _ _ | intro _ _ | intro _ | (refine Kept.fst (by assumption) ?_) | split)

theorem execFlashRefreshScan_kept {z s : State} {weak : List Nat} (h : Kept z s) : KeptA z (execFlashRefreshScan weak s) := by
  unfold execFlashRefreshScan
  with_reducible
    repeat' (first
      | assumption | apply State.whenAlive_kept | apply State.refreshFlash_kept | intro _ _ _ | intro _ _ | intro _ | (refine Kept.fst (by assumption) ?_) | split)

theorem execHeadlandStart_kept {z s : State} {fits : Bool} (h : Kept z s) : KeptA z (execHeadlandStart fits s) := by
  unfold execHeadlandStart
  with_reducible
    repeat' (first
      | assumption | apply State.act_kept | apply State.headland_kept | intro _ _ _ | intro _ _ | intro _ | (refine Kept.fst (by assumption) ?_) | split)

theorem execLaneTableDeadline_kept {z s : State} (h : Kept z s) : KeptA z (execLaneTableDeadline s) := by
  unfold execLaneTableDeadline
  with_reducible
    repeat' (first
      | assumption | apply State.act_kept | apply State.laneDeadline_kept | intro _ _ _ | intro _ _ | intro _ | (refine Kept.fst (by assumption) ?_) | split)

theorem execClusterDivergent_kept {z s : State} {device : Nat} (h : Kept z s) : KeptA z (execClusterDivergent device s) := by
  unfold execClusterDivergent
  with_reducible
    repeat' (first
      | assumption | apply State.act_kept | apply State.clusterDivergent_kept | intro _ _ _ | intro _ _ | intro _ | (refine Kept.fst (by assumption) ?_) | split)

theorem execMeridMarkEdge_kept {z s : State} (h : Kept z s) : KeptA z (execMeridMarkEdge s) := by
  unfold execMeridMarkEdge
  with_reducible
    repeat' (first
      | assumption | apply State.act_kept | apply State.mark__kept | intro _ _ _ | intro _ _ | intro _ | (refine Kept.fst (by assumption) ?_) | split)

theorem execLocalMillisecond_kept {z s : State} (h : Kept z s) : KeptA z (execLocalMillisecond s) := by
  unfold execLocalMillisecond
  with_reducible
    repeat' (first
      | assumption | apply State.act_kept | apply State.markWork_kept | intro _ _ _ | intro _ _ | intro _ | (refine Kept.fst (by assumption) ?_) | split)

theorem execCfgDecisionTimeout_kept {z s : State} (h : Kept z s) : KeptA z (execCfgDecisionTimeout s) := by
  unfold execCfgDecisionTimeout
  with_reducible
    repeat' (first
      | assumption | apply State.act_kept | apply State.decideCommit_kept | intro _ _ _ | intro _ _ | intro _ | (refine Kept.fst (by assumption) ?_) | split)

theorem execTokensMsg_kept {z s : State} {port frags : Nat} {m : CtrlMsg} (h : Kept z s) : KeptA z (execTokensMsg port frags m s) := by
  unfold execTokensMsg
  with_reducible
    repeat' (first
      | assumption | apply State.act_kept | apply State.ctrlIn_kept | apply State.tokensIn_kept | intro _ _ _ | intro _ _ | intro _ | (refine Kept.fst (by assumption) ?_) | split)

theorem execDataFrame_kept {z s : State} {port : Nat} {f : Frame} {fixed : Nat} {full tagOk : Bool} (h : Kept z s) : KeptA z (execDataFrame port f fixed full tagOk s) := by
  unfold execDataFrame
  with_reducible
    repeat' (first
      | assumption | apply State.act_kept | apply State.dataFrame_kept | apply State.settleArrived_kept | intro _ _ _ | intro _ _ | intro _ | (refine Kept.fst (by assumption) ?_) | split)

theorem execSqTailDoorbell_kept {z s : State} {ring index : Nat} (h : Kept z s) : KeptA z (execSqTailDoorbell ring index s) := by
  unfold execSqTailDoorbell
  with_reducible
    repeat' (first
      | assumption | apply State.act_kept | apply State.ringDoorbell_kept | intro _ _ _ | intro _ _ | intro _ | (refine Kept.fst (by assumption) ?_) | split)

theorem execCqHeadDoorbell_kept {z s : State} {ring index : Nat} (h : Kept z s) : KeptA z (execCqHeadDoorbell ring index s) := by
  unfold execCqHeadDoorbell
  with_reducible
    repeat' (first
      | assumption | apply State.act_kept | apply State.ringDoorbell_kept | intro _ _ _ | intro _ _ | intro _ | (refine Kept.fst (by assumption) ?_) | split)

theorem execTrHeadDoorbell_kept {z s : State} {ring index : Nat} (h : Kept z s) : KeptA z (execTrHeadDoorbell ring index s) := by
  unfold execTrHeadDoorbell
  with_reducible
    repeat' (first
      | assumption | apply State.act_kept | apply State.ringDoorbell_kept | intro _ _ _ | intro _ _ | intro _ | (refine Kept.fst (by assumption) ?_) | split)

theorem execRdcurrCompletion_kept {z s : State} {ring : Nat} {data : Option Bytes} {img : Option ModelImage} (h : Kept z s) : KeptA z (execRdcurrCompletion ring data img s) := by
  unfold execRdcurrCompletion
  with_reducible
    repeat' (first
      | assumption | apply State.act_kept | apply State.rdcurr_kept | intro _ _ _ | intro _ _ | intro _ | (refine Kept.fst (by assumption) ?_) | split)

theorem execMemrd_kept {z s : State} {tag offset : Nat} {symbols : List Nat} (h : Kept z s) : KeptA z (execMemrd tag offset symbols s) := by
  unfold execMemrd
  with_reducible
    repeat' (first
      | assumption | apply State.whenAlive_kept | apply State.windowAccess_kept | apply State.hostRead_kept | intro _ _ _ | intro _ _ | intro _ | (refine Kept.fst (by assumption) ?_) | split)

theorem execMemrddata_kept {z s : State} {tag offset : Nat} {symbols : List Nat} (h : Kept z s) : KeptA z (execMemrddata tag offset symbols s) := by
  unfold execMemrddata
  with_reducible
    repeat' (first
      | assumption | apply State.whenAlive_kept | apply State.windowAccess_kept | apply State.hostRead_kept | intro _ _ _ | intro _ _ | intro _ | (refine Kept.fst (by assumption) ?_) | split)

theorem execMemwr_kept {z s : State} {tag offset : Nat} {data : Bytes} (h : Kept z s) : KeptA z (execMemwr tag offset data s) := by
  unfold execMemwr
  with_reducible
    repeat' (first
      | assumption | apply State.whenAlive_kept | apply State.windowAccess_kept | intro _ _ _ | intro _ _ | intro _ | (refine Kept.fst (by assumption) ?_) | split)

theorem execMemwrptl_kept {z s : State} {tag offset : Nat} {data : Bytes} {enable : Nat} (h : Kept z s) : KeptA z (execMemwrptl tag offset data enable s) := by
  unfold execMemwrptl
  with_reducible
    repeat' (first
      | assumption | apply State.whenAlive_kept | apply State.windowAccess_kept | intro _ _ _ | intro _ _ | intro _ | (refine Kept.fst (by assumption) ?_) | split)

theorem execM2sUnsupported_kept {z s : State} {tag : Nat} (h : Kept z s) : KeptA z (execM2sUnsupported tag s) := by
  unfold execM2sUnsupported
  with_reducible
    repeat' (first
      | assumption | apply State.whenAlive_kept | apply State.emit_kept | intro _ _ _ | intro _ _ | intro _ | (refine Kept.fst (by assumption) ?_) | split)

theorem execH2dSnoop_kept {z s : State} {addr : Nat} (h : Kept z s) : KeptA z (execH2dSnoop addr s) := by
  unfold execH2dSnoop
  with_reducible
    repeat' (first
      | assumption | apply State.whenAlive_kept | apply State.emit_kept | intro _ _ _ | intro _ _ | intro _ | (refine Kept.fst (by assumption) ?_) | split)

theorem execGoWritepull_kept {z s : State} {vector : Nat} (h : Kept z s) : KeptA z (execGoWritepull vector s) := by
  unfold execGoWritepull
  with_reducible
    repeat' (first
      | assumption | apply State.whenAlive_kept | apply State.pulled_kept | intro _ _ _ | intro _ _ | intro _ | (refine Kept.fst (by assumption) ?_) | split)

theorem execIrqHoldoffExpiry_kept {z s : State} {vector : Nat} (h : Kept z s) : KeptA z (execIrqHoldoffExpiry vector s) := by
  unfold execIrqHoldoffExpiry
  with_reducible
    repeat' (first
      | assumption | apply State.whenAlive_kept | apply State.holdoffEnds_kept | intro _ _ _ | intro _ _ | intro _ | (refine Kept.fst (by assumption) ?_) | split)

theorem execBusMasterEnableWrite_kept {z s : State} {on : Bool} (h : Kept z s) : KeptA z (execBusMasterEnableWrite on s) := by
  unfold execBusMasterEnableWrite
  with_reducible
    repeat' (first
      | assumption | apply State.act_kept | apply State.busMaster_kept | intro _ _ _ | intro _ _ | intro _ | (refine Kept.fst (by assumption) ?_) | split)

theorem execFunctionLevelReset_kept {z s : State} (h : Kept z s) : KeptA z (execFunctionLevelReset s) := by
  unfold execFunctionLevelReset
  with_reducible
    repeat' (first
      | assumption | apply State.act_kept | apply State.functionReset_kept | intro _ _ _ | intro _ _ | intro _ | (refine Kept.fst (by assumption) ?_) | split)

theorem execUpstreamLinkDown_kept {z s : State} (h : Kept z s) : KeptA z (execUpstreamLinkDown s) := by
  unfold execUpstreamLinkDown
  with_reducible
    repeat' (first
      | assumption | apply State.act_kept | apply State.linkLost_kept | intro _ _ _ | intro _ _ | intro _ | (refine Kept.fst (by assumption) ?_) | split)

theorem execUpstreamLinkUp_kept {z s : State} {width speed : Nat} (h : Kept z s) : KeptA z (execUpstreamLinkUp width speed s) := by
  unfold execUpstreamLinkUp
  with_reducible
    repeat' (first
      | assumption | apply State.whenAlive_kept | apply State.linkTrained_kept | intro _ _ _ | intro _ _ | intro _ | (refine Kept.fst (by assumption) ?_) | split)

theorem execDownstreamEnumeration_kept {z s : State} {found : List Expander} (h : Kept z s) : KeptA z (execDownstreamEnumeration found s) := by
  unfold execDownstreamEnumeration
  with_reducible
    repeat' (first
      | assumption | apply State.whenAlive_kept | apply State.enumerate_kept | intro _ _ _ | intro _ _ | intro _ | (refine Kept.fst (by assumption) ?_) | split)

theorem execExpanderLinkDown_kept {z s : State} {port : Nat} (h : Kept z s) : KeptA z (execExpanderLinkDown port s) := by
  unfold execExpanderLinkDown
  with_reducible
    repeat' (first
      | assumption | apply State.act_kept | apply State.expanderLost_kept | intro _ _ _ | intro _ _ | intro _ | (refine Kept.fst (by assumption) ?_) | split)

theorem execSpillCopyDone_kept {z s : State} {tile addr : Nat} (h : Kept z s) : KeptA z (execSpillCopyDone tile addr s) := by
  unfold execSpillCopyDone
  with_reducible
    repeat' (first
      | assumption | apply State.whenAlive_kept | apply State.copyEnds_kept | intro _ _ _ | intro _ _ | intro _ | (refine Kept.fst (by assumption) ?_) | split)

theorem execSetdasa_kept {z s : State} {staticAddr addr : Nat} (h : Kept z s) : KeptA z (execSetdasa staticAddr addr s) := by
  unfold execSetdasa
  with_reducible
    repeat' (first
      | assumption | apply State.become_kept | apply State.takeAddress_kept | intro _ _ _ | intro _ _ | intro _ | (refine Kept.fst (by assumption) ?_) | split)

theorem execEntdaa_kept {z s : State} {addr : Nat} (h : Kept z s) : KeptA z (execEntdaa addr s) := by
  unfold execEntdaa
  with_reducible
    repeat' (first
      | assumption | apply State.become_kept | apply State.takeAddress_kept | intro _ _ _ | intro _ _ | intro _ | (refine Kept.fst (by assumption) ?_) | split)

theorem execSetEndpointId_kept {z s : State} {eid : Nat} (h : Kept z s) : KeptA z (execSetEndpointId eid s) := by
  unfold execSetEndpointId
  with_reducible
    repeat' (first
      | assumption | apply State.onSideband_kept | apply State.setEid_kept | intro _ _ _ | intro _ _ | intro _ | (refine Kept.fst (by assumption) ?_) | split)

theorem execGetEndpointId_kept {z s : State} (h : Kept z s) : KeptA z (execGetEndpointId s) := by
  unfold execGetEndpointId
  with_reducible
    repeat' (first
      | assumption | apply State.onSideband_kept | apply State.sideband_kept | intro _ _ _ | intro _ _ | intro _ | (refine Kept.fst (by assumption) ?_) | split)

theorem execGetVersionSupport_kept {z s : State} {type : Nat} (h : Kept z s) : KeptA z (execGetVersionSupport type s) := by
  unfold execGetVersionSupport
  with_reducible
    repeat' (first
      | assumption | apply State.onSideband_kept | apply State.versionsOf_kept | intro _ _ _ | intro _ _ | intro _ | (refine Kept.fst (by assumption) ?_) | split)

theorem execGetMessageTypeSupport_kept {z s : State} (h : Kept z s) : KeptA z (execGetMessageTypeSupport s) := by
  unfold execGetMessageTypeSupport
  with_reducible
    repeat' (first
      | assumption | apply State.onSideband_kept | apply State.sideband_kept | intro _ _ _ | intro _ _ | intro _ | (refine Kept.fst (by assumption) ?_) | split)

theorem execGetSensorReading_kept {z s : State} {sensor standby : Nat} (h : Kept z s) : KeptA z (execGetSensorReading sensor standby s) := by
  unfold execGetSensorReading
  with_reducible
    repeat' (first
      | assumption | apply State.onSideband_kept | apply State.readSensor_kept | intro _ _ _ | intro _ _ | intro _ | (refine Kept.fst (by assumption) ?_) | split)

theorem execSetNumericEffecterValue_kept {z s : State} {effecter value : Nat} (h : Kept z s) : KeptA z (execSetNumericEffecterValue effecter value s) := by
  unfold execSetNumericEffecterValue
  with_reducible
    repeat' (first
      | assumption | apply State.onSideband_kept | apply State.setCap_kept | intro _ _ _ | intro _ _ | intro _ | (refine Kept.fst (by assumption) ?_) | split)

theorem execGetNumericEffecterValue_kept {z s : State} {effecter : Nat} (h : Kept z s) : KeptA z (execGetNumericEffecterValue effecter s) := by
  unfold execGetNumericEffecterValue
  with_reducible
    repeat' (first
      | assumption | apply State.onSideband_kept | apply State.sideband_kept | intro _ _ _ | intro _ _ | intro _ | (refine Kept.fst (by assumption) ?_) | split)

theorem execEventLogRead_kept {z s : State} {seq : Nat} (h : Kept z s) : KeptA z (execEventLogRead seq s) := by
  unfold execEventLogRead
  with_reducible
    repeat' (first
      | assumption | apply State.onSideband_kept | apply State.sideband_kept | intro _ _ _ | intro _ _ | intro _ | (refine Kept.fst (by assumption) ?_) | split)

theorem execTapExtest_kept {z s : State} (h : Kept z s) : KeptA z (execTapExtest s) := by
  unfold execTapExtest
  with_reducible
    repeat' (first
      | assumption | apply State.become_kept | apply State.tapLoad_kept | intro _ _ _ | intro _ _ | intro _ | (refine Kept.fst (by assumption) ?_) | split)

theorem execSamplePreload_kept {z s : State} (h : Kept z s) : KeptA z (execSamplePreload s) := by
  unfold execSamplePreload
  with_reducible
    repeat' (first
      | assumption | apply State.become_kept | apply State.tapLoad_kept | intro _ _ _ | intro _ _ | intro _ | (refine Kept.fst (by assumption) ?_) | split)

theorem execTapIdcode_kept {z s : State} (h : Kept z s) : KeptA z (execTapIdcode s) := by
  unfold execTapIdcode
  with_reducible
    repeat' (first
      | assumption | apply State.become_kept | apply State.tapLoad_kept | intro _ _ _ | intro _ _ | intro _ | (refine Kept.fst (by assumption) ?_) | split)

theorem execTapClamp_kept {z s : State} (h : Kept z s) : KeptA z (execTapClamp s) := by
  unfold execTapClamp
  with_reducible
    repeat' (first
      | assumption | apply State.become_kept | apply State.tapLoad_kept | intro _ _ _ | intro _ _ | intro _ | (refine Kept.fst (by assumption) ?_) | split)

theorem execTapHighz_kept {z s : State} (h : Kept z s) : KeptA z (execTapHighz s) := by
  unfold execTapHighz
  with_reducible
    repeat' (first
      | assumption | apply State.become_kept | apply State.tapLoad_kept | intro _ _ _ | intro _ _ | intro _ | (refine Kept.fst (by assumption) ?_) | split)

theorem execExtestPulse_kept {z s : State} (h : Kept z s) : KeptA z (execExtestPulse s) := by
  unfold execExtestPulse
  with_reducible
    repeat' (first
      | assumption | apply State.become_kept | apply State.tapLoad_kept | intro _ _ _ | intro _ _ | intro _ | (refine Kept.fst (by assumption) ?_) | split)

theorem execExtestTrain_kept {z s : State} (h : Kept z s) : KeptA z (execExtestTrain s) := by
  unfold execExtestTrain
  with_reducible
    repeat' (first
      | assumption | apply State.become_kept | apply State.tapLoad_kept | intro _ _ _ | intro _ _ | intro _ | (refine Kept.fst (by assumption) ?_) | split)

theorem execTapBypass_kept {z s : State} {code : Nat} (h : Kept z s) : KeptA z (execTapBypass code s) := by
  unfold execTapBypass
  with_reducible
    repeat' (first
      | assumption | apply State.become_kept | apply State.tapLoad_kept | intro _ _ _ | intro _ _ | intro _ | (refine Kept.fst (by assumption) ?_) | split)

theorem execFwdCmd_kept {z s : State} {port frags : Nat} {m : CtrlMsg} (h : Kept z s) : KeptA z (execFwdCmd port frags m s) := by
  unfold execFwdCmd
  with_reducible
    repeat' (first
      | assumption | apply State.act_kept | apply State.fwdIn_kept | intro _ _ _ | intro _ _ | intro _ | (refine Kept.fst (by assumption) ?_) | split)

theorem execCompletionMsg_kept {z s : State} {port frags : Nat} {m : CtrlMsg} (h : Kept z s) : KeptA z (execCompletionMsg port frags m s) := by
  unfold execCompletionMsg
  with_reducible
    repeat' (first
      | assumption | apply State.messageIn_kept | apply State.completionIn_kept | intro _ _ _ | intro _ _ | intro _ | (refine Kept.fst (by assumption) ?_) | split)

theorem execCfgPrepare_kept {z s : State} {port frags : Nat} {m : CtrlMsg} (h : Kept z s) : KeptA z (execCfgPrepare port frags m s) := by
  unfold execCfgPrepare
  with_reducible
    repeat' (first
      | assumption | apply State.messageIn_kept | apply State.prepareIn_kept | intro _ _ _ | intro _ _ | intro _ | (refine Kept.fst (by assumption) ?_) | split)

theorem execCfgReady_kept {z s : State} {port frags : Nat} {m : CtrlMsg} (h : Kept z s) : KeptA z (execCfgReady port frags m s) := by
  unfold execCfgReady
  with_reducible
    repeat' (first
      | assumption | apply State.messageIn_kept | apply State.replyIn_kept | intro _ _ _ | intro _ _ | intro _ | (refine Kept.fst (by assumption) ?_) | split)

theorem execCfgConflictReply_kept {z s : State} {port frags : Nat} {m : CtrlMsg} (h : Kept z s) : KeptA z (execCfgConflictReply port frags m s) := by
  unfold execCfgConflictReply
  with_reducible
    repeat' (first
      | assumption | apply State.messageIn_kept | apply State.replyIn_kept | intro _ _ _ | intro _ _ | intro _ | (refine Kept.fst (by assumption) ?_) | split)

theorem execCfgCommitGo_kept {z s : State} {port frags : Nat} {m : CtrlMsg} (h : Kept z s) : KeptA z (execCfgCommitGo port frags m s) := by
  unfold execCfgCommitGo
  with_reducible
    repeat' (first
      | assumption | apply State.messageIn_kept | apply State.goIn_kept | intro _ _ _ | intro _ _ | intro _ | (refine Kept.fst (by assumption) ?_) | split)

theorem execCfgAbort_kept {z s : State} {port frags : Nat} {m : CtrlMsg} (h : Kept z s) : KeptA z (execCfgAbort port frags m s) := by
  unfold execCfgAbort
  with_reducible
    repeat' (first
      | assumption | apply State.messageIn_kept | apply State.abortIn_kept | intro _ _ _ | intro _ _ | intro _ | (refine Kept.fst (by assumption) ?_) | split)

theorem execAdapterRoom_kept {z s : State} {inst id ver : Nat} (h : Kept z s) : KeptA z (execAdapterRoom inst id ver s) := by
  unfold execAdapterRoom
  with_reducible
    repeat' (first
      | assumption | apply State.act_kept | apply State.roomFor_kept | intro _ _ _ | intro _ _ | intro _ | (refine Kept.fst (by assumption) ?_) | split)

theorem execAdapterVerifyDone_kept {z s : State} {inst id ver : Nat} (h : Kept z s) : KeptA z (execAdapterVerifyDone inst id ver s) := by
  unfold execAdapterVerifyDone
  with_reducible
    repeat' (first
      | assumption | apply State.act_kept | apply State.verified_kept | intro _ _ _ | intro _ _ | intro _ | (refine Kept.fst (by assumption) ?_) | split)

theorem execAdapterTimeout_kept {z s : State} {inst id ver : Nat} (h : Kept z s) : KeptA z (execAdapterTimeout inst id ver s) := by
  unfold execAdapterTimeout
  with_reducible
    repeat' (first
      | assumption | apply State.act_kept | apply State.loadTimeout_kept | intro _ _ _ | intro _ _ | intro _ | (refine Kept.fst (by assumption) ?_) | split)

theorem execRegionZeroDone_kept {z s : State} {stack region : Nat} (h : Kept z s) : KeptA z (execRegionZeroDone stack region s) := by
  unfold execRegionZeroDone
  with_reducible
    repeat' (first
      | assumption | apply State.act_kept | apply State.zeroDone_kept | intro _ _ _ | intro _ _ | intro _ | (refine Kept.fst (by assumption) ?_) | split)

theorem execGranaryFlushDone_kept {z s : State} {tile : Nat} (h : Kept z s) : KeptA z (execGranaryFlushDone tile s) := by
  unfold execGranaryFlushDone
  with_reducible
    repeat' (first
      | assumption | apply State.act_kept | apply State.flushDone_kept | intro _ _ _ | intro _ _ | intro _ | (refine Kept.fst (by assumption) ?_) | split)

theorem execEngineBistDone_kept {z s : State} {tile : Nat} {ok : Bool} (h : Kept z s) : KeptA z (execEngineBistDone tile ok s) := by
  unfold execEngineBistDone
  with_reducible
    repeat' (first
      | assumption | apply State.act_kept | apply State.bistDone_kept | intro _ _ _ | intro _ _ | intro _ | (refine Kept.fst (by assumption) ?_) | split)

theorem execLinkTrainDone_kept {z s : State} {port : Nat} {ok : Bool} (h : Kept z s) : KeptA z (execLinkTrainDone port ok s) := by
  unfold execLinkTrainDone
  with_reducible
    repeat' (first
      | assumption | apply State.act_kept | apply State.trainDone_kept | intro _ _ _ | intro _ _ | intro _ | (refine Kept.fst (by assumption) ?_) | split)

theorem execLinkTestEnd_kept {z s : State} {port checked errors lanes : Nat} (h : Kept z s) : KeptA z (execLinkTestEnd port checked errors lanes s) := by
  unfold execLinkTestEnd
  try dsimp only
  with_reducible
    repeat' (first
      | assumption | apply State.act_kept | apply State.put_kept | apply State.putBit_kept | apply State.modLink_kept | apply State.enterTrain_kept | apply State.finish_kept | intro _ _ _ | intro _ _ | intro _ | (refine Kept.fst (by assumption) ?_) | split)

theorem execTrafficGenEnd_kept {z s : State} {stack count mismatches uncorrectable : Nat} {firstPc : Option Nat} {left : List (Nat × Bytes)} (h : Kept z s) : KeptA z (execTrafficGenEnd stack count mismatches uncorrectable firstPc left s) := by
  unfold execTrafficGenEnd
  with_reducible
    repeat' (first
      | assumption | apply State.act_kept | apply State.trafficEnd_kept | intro _ _ _ | intro _ _ | intro _ | (refine Kept.fst (by assumption) ?_) | split)

theorem execStackRetrainDone_kept {z s : State} {stack spares : Nat} {failed : List Nat} (h : Kept z s) : KeptA z (execStackRetrainDone stack spares failed s) := by
  unfold execStackRetrainDone
  with_reducible
    repeat' (first
      | assumption | apply State.act_kept | apply State.trainingEnd_kept | intro _ _ _ | intro _ _ | intro _ | (refine Kept.fst (by assumption) ?_) | split)

theorem execFencedMsg_kept {z s : State} {port frags : Nat} {m : CtrlMsg} (h : Kept z s) : KeptA z (execFencedMsg port frags m s) := by
  unfold execFencedMsg
  with_reducible
    repeat' (first
      | assumption | apply State.act_kept | apply State.ctrlIn_kept | apply State.fencedIn_kept | intro _ _ _ | intro _ _ | intro _ | (refine Kept.fst (by assumption) ?_) | split)

theorem execFailureStepNotice_kept {z s : State} {port frags : Nat} {m : CtrlMsg} (h : Kept z s) : KeptA z (execFailureStepNotice port frags m s) := by
  unfold execFailureStepNotice
  with_reducible
    repeat' (first
      | assumption | apply State.act_kept | apply State.ctrlIn_kept | apply State.stepNoticeIn_kept | intro _ _ _ | intro _ _ | intro _ | (refine Kept.fst (by assumption) ?_) | split)

theorem execFailurePeerSilent_kept {z s : State} {port frags : Nat} {m : CtrlMsg} (h : Kept z s) : KeptA z (execFailurePeerSilent port frags m s) := by
  unfold execFailurePeerSilent
  with_reducible
    repeat' (first
      | assumption | apply State.act_kept | apply State.ctrlIn_kept | apply State.silentIn_kept | intro _ _ _ | intro _ _ | intro _ | (refine Kept.fst (by assumption) ?_) | split)

theorem execFailureSelfFence_kept {z s : State} {port frags : Nat} {m : CtrlMsg} (h : Kept z s) : KeptA z (execFailureSelfFence port frags m s) := by
  unfold execFailureSelfFence
  with_reducible
    repeat' (first
      | assumption | apply State.act_kept | apply State.ctrlIn_kept | apply State.declareDead_kept | intro _ _ _ | intro _ _ | intro _ | (refine Kept.fst (by assumption) ?_) | split)

theorem execFailureErrorRecord_kept {z s : State} {port frags : Nat} {m : CtrlMsg} (h : Kept z s) : KeptA z (execFailureErrorRecord port frags m s) := by
  unfold execFailureErrorRecord
  with_reducible
    repeat' (first
      | assumption | apply State.act_kept | apply State.ctrlIn_kept | apply State.recordIn_kept | intro _ _ _ | intro _ _ | intro _ | (refine Kept.fst (by assumption) ?_) | split)

theorem execControlResend_kept {z s : State} {dst msgId : Nat} (h : Kept z s) : KeptA z (execControlResend dst msgId s) := by
  unfold execControlResend
  with_reducible
    repeat' (first
      | assumption | apply State.act_kept | apply State.resend_kept | intro _ _ _ | intro _ _ | intro _ | (refine Kept.fst (by assumption) ?_) | split)

theorem execPeerDeclaredDead_kept {z s : State} {device : Nat} (h : Kept z s) : KeptA z (execPeerDeclaredDead device s) := by
  unfold execPeerDeclaredDead
  with_reducible
    repeat' (first
      | assumption | apply State.act_kept | apply State.declareDead_kept | intro _ _ _ | intro _ _ | intro _ | (refine Kept.fst (by assumption) ?_) | split)

theorem execMembershipApply_kept {z s : State} (h : Kept z s) : KeptA z (execMembershipApply s) := by
  unfold execMembershipApply
  with_reducible
    repeat' (first
      | assumption | apply State.act_kept | apply State.membershipItem_kept | intro _ _ _ | intro _ _ | intro _ | (refine Kept.fst (by assumption) ?_) | split)

theorem execLeadLost_kept {z s : State} (h : Kept z s) : KeptA z (execLeadLost s) := by
  unfold execLeadLost
  with_reducible
    repeat' (first
      | assumption | apply State.act_kept | apply State.loseLead_kept | intro _ _ _ | intro _ _ | intro _ | (refine Kept.fst (by assumption) ?_) | split)

theorem execWatchdogExpiry_kept {z s : State} (h : Kept z s) : KeptA z (execWatchdogExpiry s) := by
  unfold execWatchdogExpiry
  with_reducible
    repeat' (first
      | assumption | apply State.act_kept | apply State.controlFault_kept | intro _ _ _ | intro _ _ | intro _ | (refine Kept.fst (by assumption) ?_) | split)

theorem execControlFault_kept {z s : State} {cause addr : Nat} (h : Kept z s) : KeptA z (execControlFault cause addr s) := by
  unfold execControlFault
  with_reducible
    repeat' (first
      | assumption | apply State.act_kept | apply State.controlFault_kept | intro _ _ _ | intro _ _ | intro _ | (refine Kept.fst (by assumption) ?_) | split)

theorem execLaneExhausted_kept {z s : State} {seqId : Nat} (h : Kept z s) : KeptA z (execLaneExhausted seqId s) := by
  unfold execLaneExhausted
  with_reducible
    repeat' (first
      | assumption | apply State.act_kept | apply State.exhaust_kept | intro _ _ _ | intro _ _ | intro _ | (refine Kept.fst (by assumption) ?_) | split)

theorem execInstanceDegraded_kept {z s : State} {inst : Nat} (h : Kept z s) : KeptA z (execInstanceDegraded inst s) := by
  unfold execInstanceDegraded
  with_reducible
    repeat' (first
      | assumption | apply State.act_kept | apply State.degrade_kept | intro _ _ _ | intro _ _ | intro _ | (refine Kept.fst (by assumption) ?_) | split)

theorem execDissolve_kept {z s : State} (h : Kept z s) : KeptA z (execDissolve s) := by
  unfold execDissolve
  with_reducible
    repeat' (first
      | assumption | apply State.act_kept | apply State.dissolve_kept | intro _ _ _ | intro _ _ | intro _ | (refine Kept.fst (by assumption) ?_) | split)

theorem execSegPowerWrite_kept {z s : State} {tile ts sp : Nat} (h : Kept z s) : KeptA z (execSegPowerWrite tile ts sp s) := by
  unfold execSegPowerWrite
  with_reducible
    repeat' (first
      | assumption | apply State.whenAlive_kept | apply State.segPower_kept | intro _ _ _ | intro _ _ | intro _ | (refine Kept.fst (by assumption) ?_) | split)

theorem execSegmentWakeDone_kept {z s : State} {tile segment : Nat} (h : Kept z s) : KeptA z (execSegmentWakeDone tile segment s) := by
  unfold execSegmentWakeDone
  with_reducible
    repeat' (first
      | assumption | apply State.whenAlive_kept | apply State.segWoken_kept | intro _ _ _ | intro _ _ | intro _ | (refine Kept.fst (by assumption) ?_) | split)

theorem execSegmentOnDone_kept {z s : State} {tile segment : Nat} (h : Kept z s) : KeptA z (execSegmentOnDone tile segment s) := by
  unfold execSegmentOnDone
  with_reducible
    repeat' (first
      | assumption | apply State.whenAlive_kept | apply State.segWoken_kept | intro _ _ _ | intro _ _ | intro _ | (refine Kept.fst (by assumption) ?_) | split)

theorem execScrub_kept {z s : State} {tile : Nat} {scratch : Bool} {found : Option Bool} (h : Kept z s) : KeptA z (execScrub tile scratch found s) := by
  unfold execScrub
  with_reducible
    repeat' (first
      | assumption | apply State.whenAlive_kept | apply State.scrub_kept | intro _ _ _ | intro _ _ | intro _ | (refine Kept.fst (by assumption) ?_) | split)

theorem execGranaryAccess_kept {z s : State} {addr : Nat} {write : Option Bytes} {tagFault : Bool} (h : Kept z s) : KeptA z (execGranaryAccess addr write tagFault s) := by
  unfold execGranaryAccess
  with_reducible
    repeat' (first
      | assumption | apply State.whenAlive_kept | apply State.granaryAccess_kept | intro _ _ _ | intro _ _ | intro _ | (refine Kept.fst (by assumption) ?_) | split)

theorem execGranaryFillDone_kept {z s : State} {tile line : Nat} {poison : Bool} (h : Kept z s) : KeptA z (execGranaryFillDone tile line poison s) := by
  unfold execGranaryFillDone
  with_reducible
    repeat' (first
      | assumption | apply State.whenAlive_kept | apply State.fillDone_kept | intro _ _ _ | intro _ _ | intro _ | (refine Kept.fst (by assumption) ?_) | split)

theorem execIdentify_kept {z s : State} {p : Packet} (h : Kept z s) : KeptA z (execIdentify p s) := by
  unfold execIdentify
  with_reducible
    repeat' (first
      | assumption | apply State.act_kept | apply State.submit_kept | intro _ _ _ | intro _ _ | intro _ | (refine Kept.fst (by assumption) ?_) | split)

theorem execGeometryGet_kept {z s : State} {p : Packet} (h : Kept z s) : KeptA z (execGeometryGet p s) := by
  unfold execGeometryGet
  with_reducible
    repeat' (first
      | assumption | apply State.act_kept | apply State.submit_kept | intro _ _ _ | intro _ _ | intro _ | (refine Kept.fst (by assumption) ?_) | split)

theorem execCfgStage_kept {z s : State} {p : Packet} {pay : Option Bytes} (h : Kept z s) : KeptA z (execCfgStage p pay s) := by
  unfold execCfgStage
  with_reducible
    repeat' (first
      | assumption | apply State.act_kept | apply State.submit_kept | intro _ _ _ | intro _ _ | intro _ | (refine Kept.fst (by assumption) ?_) | split)

theorem execCfgStageDiscard_kept {z s : State} {p : Packet} (h : Kept z s) : KeptA z (execCfgStageDiscard p s) := by
  unfold execCfgStageDiscard
  with_reducible
    repeat' (first
      | assumption | apply State.act_kept | apply State.submit_kept | intro _ _ _ | intro _ _ | intro _ | (refine Kept.fst (by assumption) ?_) | split)

theorem execCfgCommit_kept {z s : State} {p : Packet} (h : Kept z s) : KeptA z (execCfgCommit p s) := by
  unfold execCfgCommit
  with_reducible
    repeat' (first
      | assumption | apply State.act_kept | apply State.submit_kept | intro _ _ _ | intro _ _ | intro _ | (refine Kept.fst (by assumption) ?_) | split)

theorem execCfgCommitCluster_kept {z s : State} {p : Packet} (h : Kept z s) : KeptA z (execCfgCommitCluster p s) := by
  unfold execCfgCommitCluster
  with_reducible
    repeat' (first
      | assumption | apply State.act_kept | apply State.submit_kept | intro _ _ _ | intro _ _ | intro _ | (refine Kept.fst (by assumption) ?_) | split)

theorem execCfgDigest_kept {z s : State} {p : Packet} (h : Kept z s) : KeptA z (execCfgDigest p s) := by
  unfold execCfgDigest
  with_reducible
    repeat' (first
      | assumption | apply State.act_kept | apply State.submit_kept | intro _ _ _ | intro _ _ | intro _ | (refine Kept.fst (by assumption) ?_) | split)

theorem execClusterForm_kept {z s : State} {p : Packet} {pay : Option Bytes} (h : Kept z s) : KeptA z (execClusterForm p pay s) := by
  unfold execClusterForm
  with_reducible
    repeat' (first
      | assumption | apply State.act_kept | apply State.submit_kept | intro _ _ _ | intro _ _ | intro _ | (refine Kept.fst (by assumption) ?_) | split)

theorem execFence_kept {z s : State} {p : Packet} (h : Kept z s) : KeptA z (execFence p s) := by
  unfold execFence
  with_reducible
    repeat' (first
      | assumption | apply State.act_kept | apply State.submit_kept | intro _ _ _ | intro _ _ | intro _ | (refine Kept.fst (by assumption) ?_) | split)

theorem execRejoin_kept {z s : State} {p : Packet} (h : Kept z s) : KeptA z (execRejoin p s) := by
  unfold execRejoin
  with_reducible
    repeat' (first
      | assumption | apply State.act_kept | apply State.submit_kept | intro _ _ _ | intro _ _ | intro _ | (refine Kept.fst (by assumption) ?_) | split)

theorem execRejoinEngine_kept {z s : State} {p : Packet} (h : Kept z s) : KeptA z (execRejoinEngine p s) := by
  unfold execRejoinEngine
  with_reducible
    repeat' (first
      | assumption | apply State.act_kept | apply State.submit_kept | intro _ _ _ | intro _ _ | intro _ | (refine Kept.fst (by assumption) ?_) | split)

theorem execResetPartition_kept {z s : State} {p : Packet} (h : Kept z s) : KeptA z (execResetPartition p s) := by
  unfold execResetPartition
  with_reducible
    repeat' (first
      | assumption | apply State.act_kept | apply State.submit_kept | intro _ _ _ | intro _ _ | intro _ | (refine Kept.fst (by assumption) ?_) | split)

theorem execMeridianSet_kept {z s : State} {p : Packet} (h : Kept z s) : KeptA z (execMeridianSet p s) := by
  unfold execMeridianSet
  with_reducible
    repeat' (first
      | assumption | apply State.act_kept | apply State.submit_kept | intro _ _ _ | intro _ _ | intro _ | (refine Kept.fst (by assumption) ?_) | split)

theorem execFurrowPlanLoad_kept {z s : State} {p : Packet} {pay : Option Bytes} (h : Kept z s) : KeptA z (execFurrowPlanLoad p pay s) := by
  unfold execFurrowPlanLoad
  with_reducible
    repeat' (first
      | assumption | apply State.act_kept | apply State.submit_kept | intro _ _ _ | intro _ _ | intro _ | (refine Kept.fst (by assumption) ?_) | split)

theorem execFurrowStart_kept {z s : State} {p : Packet} (h : Kept z s) : KeptA z (execFurrowStart p s) := by
  unfold execFurrowStart
  with_reducible
    repeat' (first
      | assumption | apply State.act_kept | apply State.submit_kept | intro _ _ _ | intro _ _ | intro _ | (refine Kept.fst (by assumption) ?_) | split)

theorem execFurrowStop_kept {z s : State} {p : Packet} (h : Kept z s) : KeptA z (execFurrowStop p s) := by
  unfold execFurrowStop
  with_reducible
    repeat' (first
      | assumption | apply State.act_kept | apply State.submit_kept | intro _ _ _ | intro _ _ | intro _ | (refine Kept.fst (by assumption) ?_) | split)

theorem execModelLoad_kept {z s : State} {p : Packet} {img : ModelImage} (h : Kept z s) : KeptA z (execModelLoad p img s) := by
  unfold execModelLoad
  with_reducible
    repeat' (first
      | assumption | apply State.act_kept | apply State.submit_kept | intro _ _ _ | intro _ _ | intro _ | (refine Kept.fst (by assumption) ?_) | split)

theorem execModelUnload_kept {z s : State} {p : Packet} (h : Kept z s) : KeptA z (execModelUnload p s) := by
  unfold execModelUnload
  with_reducible
    repeat' (first
      | assumption | apply State.act_kept | apply State.submit_kept | intro _ _ _ | intro _ _ | intro _ | (refine Kept.fst (by assumption) ?_) | split)

theorem execPlanLoad_kept {z s : State} {p : Packet} (h : Kept z s) : KeptA z (execPlanLoad p s) := by
  unfold execPlanLoad
  with_reducible
    repeat' (first
      | assumption | apply State.act_kept | apply State.submit_kept | intro _ _ _ | intro _ _ | intro _ | (refine Kept.fst (by assumption) ?_) | split)

theorem execAdapterLoad_kept {z s : State} {p : Packet} (h : Kept z s) : KeptA z (execAdapterLoad p s) := by
  unfold execAdapterLoad
  with_reducible
    repeat' (first
      | assumption | apply State.act_kept | apply State.submit_kept | intro _ _ _ | intro _ _ | intro _ | (refine Kept.fst (by assumption) ?_) | split)

theorem execAdapterRetire_kept {z s : State} {p : Packet} (h : Kept z s) : KeptA z (execAdapterRetire p s) := by
  unfold execAdapterRetire
  with_reducible
    repeat' (first
      | assumption | apply State.act_kept | apply State.submit_kept | intro _ _ _ | intro _ _ | intro _ | (refine Kept.fst (by assumption) ?_) | split)

theorem execPrefixCreate_kept {z s : State} {p : Packet} (h : Kept z s) : KeptA z (execPrefixCreate p s) := by
  unfold execPrefixCreate
  with_reducible
    repeat' (first
      | assumption | apply State.act_kept | apply State.submit_kept | intro _ _ _ | intro _ _ | intro _ | (refine Kept.fst (by assumption) ?_) | split)

theorem execPrefixRelease_kept {z s : State} {p : Packet} (h : Kept z s) : KeptA z (execPrefixRelease p s) := by
  unfold execPrefixRelease
  with_reducible
    repeat' (first
      | assumption | apply State.act_kept | apply State.submit_kept | intro _ _ _ | intro _ _ | intro _ | (refine Kept.fst (by assumption) ?_) | split)

theorem execKvImport_kept {z s : State} {p : Packet} (h : Kept z s) : KeptA z (execKvImport p s) := by
  unfold execKvImport
  with_reducible
    repeat' (first
      | assumption | apply State.act_kept | apply State.submit_kept | intro _ _ _ | intro _ _ | intro _ | (refine Kept.fst (by assumption) ?_) | split)

theorem execKvExport_kept {z s : State} {p : Packet} (h : Kept z s) : KeptA z (execKvExport p s) := by
  unfold execKvExport
  with_reducible
    repeat' (first
      | assumption | apply State.act_kept | apply State.submit_kept | intro _ _ _ | intro _ _ | intro _ | (refine Kept.fst (by assumption) ?_) | split)

theorem execSeqOpen_kept {z s : State} {p : Packet} (h : Kept z s) : KeptA z (execSeqOpen p s) := by
  unfold execSeqOpen
  with_reducible
    repeat' (first
      | assumption | apply State.act_kept | apply State.submit_kept | intro _ _ _ | intro _ _ | intro _ | (refine Kept.fst (by assumption) ?_) | split)

theorem execSeqAppend_kept {z s : State} {p : Packet} {pay : Option Bytes} (h : Kept z s) : KeptA z (execSeqAppend p pay s) := by
  unfold execSeqAppend
  with_reducible
    repeat' (first
      | assumption | apply State.act_kept | apply State.submit_kept | intro _ _ _ | intro _ _ | intro _ | (refine Kept.fst (by assumption) ?_) | split)

theorem execSeqGenerate_kept {z s : State} {p : Packet} {pay : Option Bytes} (h : Kept z s) : KeptA z (execSeqGenerate p pay s) := by
  unfold execSeqGenerate
  with_reducible
    repeat' (first
      | assumption | apply State.act_kept | apply State.submit_kept | intro _ _ _ | intro _ _ | intro _ | (refine Kept.fst (by assumption) ?_) | split)

theorem execSeqCancel_kept {z s : State} {p : Packet} (h : Kept z s) : KeptA z (execSeqCancel p s) := by
  unfold execSeqCancel
  with_reducible
    repeat' (first
      | assumption | apply State.act_kept | apply State.submit_kept | intro _ _ _ | intro _ _ | intro _ | (refine Kept.fst (by assumption) ?_) | split)

theorem execSeqClose_kept {z s : State} {p : Packet} (h : Kept z s) : KeptA z (execSeqClose p s) := by
  unfold execSeqClose
  with_reducible
    repeat' (first
      | assumption | apply State.act_kept | apply State.submit_kept | intro _ _ _ | intro _ _ | intro _ | (refine Kept.fst (by assumption) ?_) | split)

theorem execTenantSet_kept {z s : State} {p : Packet} (h : Kept z s) : KeptA z (execTenantSet p s) := by
  unfold execTenantSet
  with_reducible
    repeat' (first
      | assumption | apply State.act_kept | apply State.submit_kept | intro _ _ _ | intro _ _ | intro _ | (refine Kept.fst (by assumption) ?_) | split)

theorem execHintPacket_kept {z s : State} {p : Packet} (h : Kept z s) : KeptA z (execHintPacket p s) := by
  unfold execHintPacket
  with_reducible
    repeat' (first
      | assumption | apply State.act_kept | apply State.submit_kept | intro _ _ _ | intro _ _ | intro _ | (refine Kept.fst (by assumption) ?_) | split)

theorem execPowerCapSet_kept {z s : State} {p : Packet} (h : Kept z s) : KeptA z (execPowerCapSet p s) := by
  unfold execPowerCapSet
  with_reducible
    repeat' (first
      | assumption | apply State.act_kept | apply State.submit_kept | intro _ _ _ | intro _ _ | intro _ | (refine Kept.fst (by assumption) ?_) | split)

theorem execTelemetryRead_kept {z s : State} {p : Packet} (h : Kept z s) : KeptA z (execTelemetryRead p s) := by
  unfold execTelemetryRead
  with_reducible
    repeat' (first
      | assumption | apply State.act_kept | apply State.submit_kept | intro _ _ _ | intro _ _ | intro _ | (refine Kept.fst (by assumption) ?_) | split)

theorem execEnergyRead_kept {z s : State} {p : Packet} (h : Kept z s) : KeptA z (execEnergyRead p s) := by
  unfold execEnergyRead
  with_reducible
    repeat' (first
      | assumption | apply State.act_kept | apply State.submit_kept | intro _ _ _ | intro _ _ | intro _ | (refine Kept.fst (by assumption) ?_) | split)

theorem execSeqRead_kept {z s : State} {p : Packet} (h : Kept z s) : KeptA z (execSeqRead p s) := by
  unfold execSeqRead
  with_reducible
    repeat' (first
      | assumption | apply State.act_kept | apply State.submit_kept | intro _ _ _ | intro _ _ | intro _ | (refine Kept.fst (by assumption) ?_) | split)

theorem execRandom2kRead_kept {z s : State} {p : Packet} (h : Kept z s) : KeptA z (execRandom2kRead p s) := by
  unfold execRandom2kRead
  with_reducible
    repeat' (first
      | assumption | apply State.act_kept | apply State.submit_kept | intro _ _ _ | intro _ _ | intro _ | (refine Kept.fst (by assumption) ?_) | split)

theorem execRandom64Read_kept {z s : State} {p : Packet} (h : Kept z s) : KeptA z (execRandom64Read p s) := by
  unfold execRandom64Read
  with_reducible
    repeat' (first
      | assumption | apply State.act_kept | apply State.submit_kept | intro _ _ _ | intro _ _ | intro _ | (refine Kept.fst (by assumption) ?_) | split)

theorem execSeqWriteCheck_kept {z s : State} {p : Packet} (h : Kept z s) : KeptA z (execSeqWriteCheck p s) := by
  unfold execSeqWriteCheck
  with_reducible
    repeat' (first
      | assumption | apply State.act_kept | apply State.submit_kept | intro _ _ _ | intro _ _ | intro _ | (refine Kept.fst (by assumption) ?_) | split)

theorem execMixedCheck_kept {z s : State} {p : Packet} (h : Kept z s) : KeptA z (execMixedCheck p s) := by
  unfold execMixedCheck
  with_reducible
    repeat' (first
      | assumption | apply State.act_kept | apply State.submit_kept | intro _ _ _ | intro _ _ | intro _ | (refine Kept.fst (by assumption) ?_) | split)

theorem execNbuRead_kept {z s : State} {p : Packet} (h : Kept z s) : KeptA z (execNbuRead p s) := by
  unfold execNbuRead
  with_reducible
    repeat' (first
      | assumption | apply State.act_kept | apply State.submit_kept | intro _ _ _ | intro _ _ | intro _ | (refine Kept.fst (by assumption) ?_) | split)

theorem execRetrain_kept {z s : State} {p : Packet} (h : Kept z s) : KeptA z (execRetrain p s) := by
  unfold execRetrain
  with_reducible
    repeat' (first
      | assumption | apply State.act_kept | apply State.submit_kept | intro _ _ _ | intro _ _ | intro _ | (refine Kept.fst (by assumption) ?_) | split)

theorem execPrbs31q_kept {z s : State} {p : Packet} (h : Kept z s) : KeptA z (execPrbs31q p s) := by
  unfold execPrbs31q
  with_reducible
    repeat' (first
      | assumption | apply State.act_kept | apply State.submit_kept | intro _ _ _ | intro _ _ | intro _ | (refine Kept.fst (by assumption) ?_) | split)

theorem execPrbs13q_kept {z s : State} {p : Packet} (h : Kept z s) : KeptA z (execPrbs13q p s) := by
  unfold execPrbs13q
  with_reducible
    repeat' (first
      | assumption | apply State.act_kept | apply State.submit_kept | intro _ _ _ | intro _ _ | intro _ | (refine Kept.fst (by assumption) ?_) | split)

theorem execSsprq_kept {z s : State} {p : Packet} (h : Kept z s) : KeptA z (execSsprq p s) := by
  unfold execSsprq
  with_reducible
    repeat' (first
      | assumption | apply State.act_kept | apply State.submit_kept | intro _ _ _ | intro _ _ | intro _ | (refine Kept.fst (by assumption) ?_) | split)

theorem execFrameLoop_kept {z s : State} {p : Packet} (h : Kept z s) : KeptA z (execFrameLoop p s) := by
  unfold execFrameLoop
  with_reducible
    repeat' (first
      | assumption | apply State.act_kept | apply State.submit_kept | intro _ _ _ | intro _ _ | intro _ | (refine Kept.fst (by assumption) ?_) | split)

theorem execLinkTestRetrain_kept {z s : State} {p : Packet} (h : Kept z s) : KeptA z (execLinkTestRetrain p s) := by
  unfold execLinkTestRetrain
  with_reducible
    repeat' (first
      | assumption | apply State.act_kept | apply State.submit_kept | intro _ _ _ | intro _ _ | intro _ | (refine Kept.fst (by assumption) ?_) | split)

theorem execSelftest_kept {z s : State} {p : Packet} (h : Kept z s) : KeptA z (execSelftest p s) := by
  unfold execSelftest
  with_reducible
    repeat' (first
      | assumption | apply State.act_kept | apply State.submit_kept | intro _ _ _ | intro _ _ | intro _ | (refine Kept.fst (by assumption) ?_) | split)

theorem execRegisterWrite_kept {z s : State} {host : Bool} {size offset value : Nat} (h : Kept z s) : KeptA z (execRegisterWrite host size offset value s) := by
  unfold execRegisterWrite
  with_reducible
    repeat' (first
      | assumption | apply State.whenOn_kept | apply State.hostWrites_kept | apply State.writeReg_kept | intro _ _ _ | intro _ _ | intro _ | (refine Kept.fst (by assumption) ?_) | split)

theorem execRingCtrlWrite_kept {z s : State} {kind ring value : Nat} (h : Kept z s) : KeptA z (execRingCtrlWrite kind ring value s) := by
  unfold execRingCtrlWrite
  with_reducible
    repeat' (first
      | assumption | apply State.whenAlive_kept | apply State.hostWrites_kept | intro _ _ _ | intro _ _ | intro _ | (refine Kept.fst (by assumption) ?_) | split)

theorem execInstHealthClear_kept {z s : State} {inst : Nat} (h : Kept z s) : KeptA z (execInstHealthClear inst s) := by
  unfold execInstHealthClear
  with_reducible
    repeat' (first
      | assumption | apply State.whenAlive_kept | apply State.clearHealth_kept | intro _ _ _ | intro _ _ | intro _ | (refine Kept.fst (by assumption) ?_) | split)

theorem execEvlogSelWrite_kept {z s : State} {seq : Nat} (h : Kept z s) : KeptA z (execEvlogSelWrite seq s) := by
  unfold execEvlogSelWrite
  with_reducible
    repeat' (first
      | assumption | apply State.whenOn_kept | apply State.hostWrites_kept | intro _ _ _ | intro _ _ | intro _ | (refine Kept.fst (by assumption) ?_) | split)

theorem execStartTurnaround_kept {z s : State} (h : Kept z s) : KeptA z (execStartTurnaround s) := by
  unfold execStartTurnaround
  with_reducible
    repeat' (first
      | assumption | apply State.act_kept | apply State.startTurn_kept | intro _ _ _ | intro _ _ | intro _ | (refine Kept.fst (by assumption) ?_) | split)

theorem execFurrowBodyStart_kept {z s : State} (h : Kept z s) : KeptA z (execFurrowBodyStart s) := by
  unfold execFurrowBodyStart
  with_reducible
    repeat' (first
      | assumption | apply State.act_kept | apply State.bodyStart_kept | intro _ _ _ | intro _ _ | intro _ | (refine Kept.fst (by assumption) ?_) | split)

theorem execLateStepCheck_kept {z s : State} (h : Kept z s) : KeptA z (execLateStepCheck s) := by
  unfold execLateStepCheck
  with_reducible
    repeat' (first
      | assumption | apply State.act_kept | apply State.lateCheck_kept | intro _ _ _ | intro _ _ | intro _ | (refine Kept.fst (by assumption) ?_) | split)

theorem execBeaconDeadline_kept {z s : State} (h : Kept z s) : KeptA z (execBeaconDeadline s) := by
  unfold execBeaconDeadline
  with_reducible
    repeat' (first
      | assumption | apply State.act_kept | apply State.beaconsDue_kept | intro _ _ _ | intro _ _ | intro _ | (refine Kept.fst (by assumption) ?_) | split)

theorem execRelaySend_kept {z s : State} (h : Kept z s) : KeptA z (execRelaySend s) := by
  unfold execRelaySend
  with_reducible
    repeat' (first
      | assumption | apply State.act_kept | apply State.sendRelay_kept | intro _ _ _ | intro _ _ | intro _ | (refine Kept.fst (by assumption) ?_) | split)

theorem execRelayDeadline_kept {z s : State} (h : Kept z s) : KeptA z (execRelayDeadline s) := by
  unfold execRelayDeadline
  with_reducible
    repeat' (first
      | assumption | apply State.act_kept | apply State.relaysDue_kept | intro _ _ _ | intro _ _ | intro _ | (refine Kept.fst (by assumption) ?_) | split)

theorem execEchoSend_kept {z s : State} (h : Kept z s) : KeptA z (execEchoSend s) := by
  unfold execEchoSend
  with_reducible
    repeat' (first
      | assumption | apply State.act_kept | apply State.sendEcho_kept | intro _ _ _ | intro _ _ | intro _ | (refine Kept.fst (by assumption) ?_) | split)

theorem execFallowDecision_kept {z s : State} (h : Kept z s) : KeptA z (execFallowDecision s) := by
  unfold execFallowDecision
  with_reducible
    repeat' (first
      | assumption | apply State.act_kept | apply State.decideFallow_kept | intro _ _ _ | intro _ _ | intro _ | (refine Kept.fst (by assumption) ?_) | split)

theorem execScheduleCollapse_kept {z s : State} (h : Kept z s) : KeptA z (execScheduleCollapse s) := by
  unfold execScheduleCollapse
  with_reducible
    repeat' (first
      | assumption | apply State.act_kept | apply State.collapse_kept | intro _ _ _ | intro _ _ | intro _ | (refine Kept.fst (by assumption) ?_) | split)

theorem execBeaconSend_kept {z s : State} (h : Kept z s) : KeptA z (execBeaconSend s) := by
  unfold execBeaconSend
  with_reducible
    repeat' (first
      | assumption | apply State.act_kept | apply State.sendBeacon_kept | intro _ _ _ | intro _ _ | intro _ | (refine Kept.fst (by assumption) ?_) | split)

theorem execBeaconFrame_kept {z s : State} {port : Nat} {f : Frame} {fixed : Nat} (h : Kept z s) : KeptA z (execBeaconFrame port f fixed s) := by
  unfold execBeaconFrame
  with_reducible
    repeat' (first
      | assumption | apply State.act_kept | apply State.receive_kept | apply State.beaconIn_kept | intro _ _ _ | intro _ _ | intro _ | (refine Kept.fst (by assumption) ?_) | split)

theorem execRelayFrame_kept {z s : State} {port : Nat} {f : Frame} {fixed : Nat} (h : Kept z s) : KeptA z (execRelayFrame port f fixed s) := by
  unfold execRelayFrame
  with_reducible
    repeat' (first
      | assumption | apply State.act_kept | apply State.receive_kept | apply State.relayIn_kept | intro _ _ _ | intro _ _ | intro _ | (refine Kept.fst (by assumption) ?_) | split)

theorem execTurnaround_kept {z s : State} (h : Kept z s) : KeptA z (execTurnaround s) := by
  unfold execTurnaround
  with_reducible
    repeat' (first
      | assumption | apply State.act_kept | apply State.turn_kept | intro _ _ _ | intro _ _ | intro _ | (refine Kept.fst (by assumption) ?_) | split)

theorem execStopHeadlandEnd_kept {z s : State} (h : Kept z s) : KeptA z (execStopHeadlandEnd s) := by
  unfold execStopHeadlandEnd
  with_reducible
    repeat' (first
      | assumption | apply State.act_kept | apply State.stopEnds_kept | intro _ _ _ | intro _ _ | intro _ | (refine Kept.fst (by assumption) ?_) | split)

theorem execT0Msg_kept {z s : State} {port frags : Nat} {m : CtrlMsg} (h : Kept z s) : KeptA z (execT0Msg port frags m s) := by
  unfold execT0Msg
  with_reducible
    repeat' (first
      | assumption | apply State.act_kept | apply State.ctrlIn_kept | apply State.t0In_kept | intro _ _ _ | intro _ _ | intro _ | (refine Kept.fst (by assumption) ?_) | split)

theorem execLaneTable_kept {z s : State} {port frags : Nat} {m : CtrlMsg} (h : Kept z s) : KeptA z (execLaneTable port frags m s) := by
  unfold execLaneTable
  with_reducible
    repeat' (first
      | assumption | apply State.act_kept | apply State.ctrlIn_kept | apply State.laneTableIn_kept | intro _ _ _ | intro _ _ | intro _ | (refine Kept.fst (by assumption) ?_) | split)

theorem execLaneAck_kept {z s : State} {port frags : Nat} {m : CtrlMsg} (h : Kept z s) : KeptA z (execLaneAck port frags m s) := by
  unfold execLaneAck
  with_reducible
    repeat' (first
      | assumption | apply State.act_kept | apply State.ctrlIn_kept | apply State.laneAckIn_kept | intro _ _ _ | intro _ _ | intro _ | (refine Kept.fst (by assumption) ?_) | split)

theorem execLaneAccept_kept {z s : State} {port frags : Nat} {m : CtrlMsg} (h : Kept z s) : KeptA z (execLaneAccept port frags m s) := by
  unfold execLaneAccept
  with_reducible
    repeat' (first
      | assumption | apply State.act_kept | apply State.ctrlIn_kept | apply State.laneAcceptIn_kept | intro _ _ _ | intro _ _ | intro _ | (refine Kept.fst (by assumption) ?_) | split)

theorem execLaneDiscard_kept {z s : State} {port frags : Nat} {m : CtrlMsg} (h : Kept z s) : KeptA z (execLaneDiscard port frags m s) := by
  unfold execLaneDiscard
  with_reducible
    repeat' (first
      | assumption | apply State.act_kept | apply State.ctrlIn_kept | apply State.laneDiscardIn_kept | intro _ _ _ | intro _ _ | intro _ | (refine Kept.fst (by assumption) ?_) | split)

theorem execMissingMark_kept {z s : State} (h : Kept z s) : KeptA z (execMissingMark s) := by
  unfold execMissingMark
  with_reducible
    repeat' (first
      | assumption | apply State.act_kept | apply State.missMark_kept | intro _ _ _ | intro _ _ | intro _ | (refine Kept.fst (by assumption) ?_) | split)

theorem execLockLoss_kept {z s : State} (h : Kept z s) : KeptA z (execLockLoss s) := by
  unfold execLockLoss
  with_reducible
    repeat' (first
      | assumption | apply State.act_kept | apply State.bump_kept | apply State.unlock_kept | intro _ _ _ | intro _ _ | intro _ | (refine Kept.fst (by assumption) ?_) | split)

theorem execHoldoverExhausted_kept {z s : State} (h : Kept z s) : KeptA z (execHoldoverExhausted s) := by
  unfold execHoldoverExhausted
  with_reducible
    repeat' (first
      | assumption | apply State.act_kept | apply State.unlock_kept | intro _ _ _ | intro _ _ | intro _ | (refine Kept.fst (by assumption) ?_) | split)

theorem execMeridClkLoss_kept {z s : State} (h : Kept z s) : KeptA z (execMeridClkLoss s) := by
  unfold execMeridClkLoss
  with_reducible
    repeat' (first
      | assumption | apply State.act_kept | apply State.clockLost_kept | intro _ _ _ | intro _ _ | intro _ | (refine Kept.fst (by assumption) ?_) | split)

theorem execMeridPllLock_kept {z s : State} (h : Kept z s) : KeptA z (execMeridPllLock s) := by
  unfold execMeridPllLock
  with_reducible
    repeat' (first
      | assumption | apply State.act_kept | apply State.pllLock_kept | intro _ _ _ | intro _ _ | intro _ | (refine Kept.fst (by assumption) ?_) | split)

theorem execGetFwInfo_kept {z s : State} (h : Kept z s) : KeptA z (execGetFwInfo s) := by
  unfold execGetFwInfo
  with_reducible
    repeat' (first
      | assumption | apply State.whenAlive_kept | apply State.fwInfo_kept | intro _ _ _ | intro _ _ | intro _ | (refine Kept.fst (by assumption) ?_) | split)

theorem execTransferFw_kept {z s : State} {part : FwPart} {slot offset : Nat} {data : Bytes} {verified : Bool} {build : Nat} (h : Kept z s) : KeptA z (execTransferFw part slot offset data verified build s) := by
  unfold execTransferFw
  with_reducible
    repeat' (first
      | assumption | apply State.whenAlive_kept | apply State.transferFw_kept | intro _ _ _ | intro _ _ | intro _ | (refine Kept.fst (by assumption) ?_) | split)

theorem execActivateFw_kept {z s : State} {slot : Nat} {online : Bool} (h : Kept z s) : KeptA z (execActivateFw slot online s) := by
  unfold execActivateFw
  with_reducible
    repeat' (first
      | assumption | apply State.act_kept | apply State.whenAlive_kept | apply State.activateFw_kept | intro _ _ _ | intro _ _ | intro _ | (refine Kept.fst (by assumption) ?_) | split)

theorem execGetVersion_kept {z s : State} {transport : Nat} (h : Kept z s) : KeptA z (execGetVersion transport s) := by
  unfold execGetVersion
  with_reducible
    repeat' (first
      | assumption | apply State.whenAlive_kept | apply State.agree_kept | intro _ _ _ | intro _ _ | intro _ | (refine Kept.fst (by assumption) ?_) | split)

theorem execGetCapabilities_kept {z s : State} {transport : Nat} (h : Kept z s) : KeptA z (execGetCapabilities transport s) := by
  unfold execGetCapabilities
  with_reducible
    repeat' (first
      | assumption | apply State.whenAlive_kept | apply State.agree_kept | intro _ _ _ | intro _ _ | intro _ | (refine Kept.fst (by assumption) ?_) | split)

theorem execNegotiateAlgorithms_kept {z s : State} {transport : Nat} (h : Kept z s) : KeptA z (execNegotiateAlgorithms transport s) := by
  unfold execNegotiateAlgorithms
  with_reducible
    repeat' (first
      | assumption | apply State.whenAlive_kept | apply State.agree_kept | intro _ _ _ | intro _ _ | intro _ | (refine Kept.fst (by assumption) ?_) | split)

theorem execGetDigests_kept {z s : State} {transport : Nat} (h : Kept z s) : KeptA z (execGetDigests transport s) := by
  unfold execGetDigests
  with_reducible
    repeat' (first
      | assumption | apply State.whenAlive_kept | apply State.whenAgreed_kept | apply State.answer_kept | intro _ _ _ | intro _ _ | intro _ | (refine Kept.fst (by assumption) ?_) | split)

theorem execGetCertificate_kept {z s : State} {transport slot : Nat} (h : Kept z s) : KeptA z (execGetCertificate transport slot s) := by
  unfold execGetCertificate
  with_reducible
    repeat' (first
      | assumption | apply State.whenAlive_kept | apply State.whenAgreed_kept | apply State.answer_kept | intro _ _ _ | intro _ _ | intro _ | (refine Kept.fst (by assumption) ?_) | split)

theorem execChallenge_kept {z s : State} {transport slot : Nat} (h : Kept z s) : KeptA z (execChallenge transport slot s) := by
  unfold execChallenge
  try dsimp only
  with_reducible
    repeat' (first
      | assumption | apply State.whenAlive_kept | apply State.whenAgreed_kept | apply State.answer_kept | apply State.sign_kept | intro _ _ _ | intro _ _ | intro _ | (refine Kept.fst (by assumption) ?_) | split)

theorem execGetMeasurements_kept {z s : State} {transport : Nat} {index : Option Nat} {signed : Bool} (h : Kept z s) : KeptA z (execGetMeasurements transport index signed s) := by
  unfold execGetMeasurements
  try dsimp only
  with_reducible
    repeat' (first
      | assumption | apply State.whenAlive_kept | apply State.whenAgreed_kept | apply State.answer_kept | apply State.sign_kept | intro _ _ _ | intro _ _ | intro _ | (refine Kept.fst (by assumption) ?_) | split)

theorem execKeyExchange_kept {z s : State} {transport session : Nat} (h : Kept z s) : KeptA z (execKeyExchange transport session s) := by
  unfold execKeyExchange
  with_reducible
    repeat' (first
      | assumption | apply State.whenAlive_kept | apply State.keyExchange_kept | intro _ _ _ | intro _ _ | intro _ | (refine Kept.fst (by assumption) ?_) | split)

theorem execFinish_kept {z s : State} {transport session : Nat} {ok : Bool} (h : Kept z s) : KeptA z (execFinish transport session ok s) := by
  unfold execFinish
  with_reducible
    repeat' (first
      | assumption | apply State.whenAlive_kept | apply State.finishSession_kept | intro _ _ _ | intro _ _ | intro _ | (refine Kept.fst (by assumption) ?_) | split)

theorem execKeyUpdate_kept {z s : State} {transport session : Nat} (h : Kept z s) : KeptA z (execKeyUpdate transport session s) := by
  unfold execKeyUpdate
  with_reducible
    repeat' (first
      | assumption | apply State.whenAlive_kept | apply State.withSession_kept | apply State.answer_kept | intro _ _ _ | intro _ _ | intro _ | (refine Kept.fst (by assumption) ?_) | split)

theorem execHeartbeat_kept {z s : State} {transport session : Nat} (h : Kept z s) : KeptA z (execHeartbeat transport session s) := by
  unfold execHeartbeat
  with_reducible
    repeat' (first
      | assumption | apply State.whenAlive_kept | apply State.withSession_kept | apply State.answer_kept | intro _ _ _ | intro _ _ | intro _ | (refine Kept.fst (by assumption) ?_) | split)

theorem execEndSession_kept {z s : State} {transport session : Nat} (h : Kept z s) : KeptA z (execEndSession transport session s) := by
  unfold execEndSession
  with_reducible
    repeat' (first
      | assumption | apply State.whenAlive_kept | apply State.endSession_kept | intro _ _ _ | intro _ _ | intro _ | (refine Kept.fst (by assumption) ?_) | split)

theorem execSetInstanceKey_kept {z s : State} {transport session inst keyId key : Nat} (h : Kept z s) : KeptA z (execSetInstanceKey transport session inst keyId key s) := by
  unfold execSetInstanceKey
  with_reducible
    repeat' (first
      | assumption | apply State.whenAlive_kept | apply State.setInstanceKey_kept | intro _ _ _ | intro _ _ | intro _ | (refine Kept.fst (by assumption) ?_) | split)

theorem execSetFloor_kept {z s : State} {transport session : Nat} {record : SignedObj} (h : Kept z s) : KeptA z (execSetFloor transport session record s) := by
  unfold execSetFloor
  with_reducible
    repeat' (first
      | assumption | apply State.whenAlive_kept | apply State.setFloor_kept | intro _ _ _ | intro _ _ | intro _ | (refine Kept.fst (by assumption) ?_) | split)

theorem execCxlIdeKm_kept {z s : State} {session stream : Nat} {go skid : Bool} (h : Kept z s) : KeptA z (execCxlIdeKm session stream go skid s) := by
  unfold execCxlIdeKm
  with_reducible
    repeat' (first
      | assumption | apply State.act_kept | apply State.ideKm_kept | intro _ _ _ | intro _ _ | intro _ | (refine Kept.fst (by assumption) ?_) | split)

theorem execTableAccess_kept {z s : State} (h : Kept z s) : KeptA z (execTableAccess s) := by
  unfold execTableAccess
  with_reducible
    repeat' (first
      | assumption | apply State.whenAlive_kept | apply State.emit_kept | intro _ _ _ | intro _ _ | intro _ | (refine Kept.fst (by assumption) ?_) | split)

theorem execWaitMeridian_kept {z s : State} {tile : Nat} (h : Kept z s) : KeptA z (execWaitMeridian tile s) := by
  unfold execWaitMeridian
  with_reducible
    repeat' (first
      | assumption | apply State.whenAlive_kept | apply State.waitMeridian_kept | intro _ _ _ | intro _ _ | intro _ | (refine Kept.fst (by assumption) ?_) | split)

theorem execWaitCounter_kept {z s : State} {tile : Nat} (h : Kept z s) : KeptA z (execWaitCounter tile s) := by
  unfold execWaitCounter
  with_reducible
    repeat' (first
      | assumption | apply State.whenAlive_kept | apply State.waitCounter_kept | intro _ _ _ | intro _ _ | intro _ | (refine Kept.fst (by assumption) ?_) | split)

theorem execHintDescriptor_kept {z s : State} {tile : Nat} (h : Kept z s) : KeptA z (execHintDescriptor tile s) := by
  unfold execHintDescriptor
  with_reducible
    repeat' (first
      | assumption | apply State.whenAlive_kept | apply State.ownDesc_kept | apply State.hintTile_kept | intro _ _ _ | intro _ _ | intro _ | (refine Kept.fst (by assumption) ?_) | split)

theorem execMarkDesc_kept {z s : State} {tile : Nat} (h : Kept z s) : KeptA z (execMarkDesc tile s) := by
  unfold execMarkDesc
  with_reducible
    repeat' (first
      | assumption | apply State.whenAlive_kept | apply State.ownDesc_kept | apply State.mark_kept | intro _ _ _ | intro _ _ | intro _ | (refine Kept.fst (by assumption) ?_) | split)

theorem execFailureNotice_kept {z s : State} {tile : Nat} (h : Kept z s) : KeptA z (execFailureNotice tile s) := by
  unfold execFailureNotice
  with_reducible
    repeat' (first
      | assumption | apply State.whenAlive_kept | apply State.takeNotice_kept | intro _ _ _ | intro _ _ | intro _ | (refine Kept.fst (by assumption) ?_) | split)

theorem execDirectListGo_kept {z s : State} {tile : Nat} (h : Kept z s) : KeptA z (execDirectListGo tile s) := by
  unfold execDirectListGo
  with_reducible
    repeat' (first
      | assumption | apply State.whenAlive_kept | apply State.directGo_kept | intro _ _ _ | intro _ _ | intro _ | (refine Kept.fst (by assumption) ?_) | split)

theorem execSeqCtrlModeWrite_kept {z s : State} {tile mode : Nat} (h : Kept z s) : KeptA z (execSeqCtrlModeWrite tile mode s) := by
  unfold execSeqCtrlModeWrite
  with_reducible
    repeat' (first
      | assumption | apply State.whenAlive_kept | apply State.writeMode_kept | intro _ _ _ | intro _ _ | intro _ | (refine Kept.fst (by assumption) ?_) | split)

theorem execSpareReq_kept {z s : State} {tile logical : Nat} (h : Kept z s) : KeptA z (execSpareReq tile logical s) := by
  unfold execSpareReq
  with_reducible
    repeat' (first
      | assumption | apply State.whenAlive_kept | apply State.requestSpare_kept | intro _ _ _ | intro _ _ | intro _ | (refine Kept.fst (by assumption) ?_) | split)

theorem execPhasePreposition_kept {z s : State} {inst phase : Nat} (h : Kept z s) : KeptA z (execPhasePreposition inst phase s) := by
  unfold execPhasePreposition
  with_reducible
    repeat' (first
      | assumption | apply State.whenAlive_kept | apply State.prepare_kept | intro _ _ _ | intro _ _ | intro _ | (refine Kept.fst (by assumption) ?_) | split)

theorem execPhaseLevelApply_kept {z s : State} {inst phase : Nat} (h : Kept z s) : KeptA z (execPhaseLevelApply inst phase s) := by
  unfold execPhaseLevelApply
  with_reducible
    repeat' (first
      | assumption | apply State.whenAlive_kept | apply State.beginPhase_kept | intro _ _ _ | intro _ _ | intro _ | (refine Kept.fst (by assumption) ?_) | split)

theorem execGuardRemove_kept {z s : State} (h : Kept z s) : KeptA z (execGuardRemove s) := by
  unfold execGuardRemove
  with_reducible
    repeat' (first
      | assumption | apply State.whenAlive_kept | apply State.removeGuard_kept | intro _ _ _ | intro _ _ | intro _ | (refine Kept.fst (by assumption) ?_) | split)

theorem execIdleCapStep_kept {z s : State} (h : Kept z s) : KeptA z (execIdleCapStep s) := by
  unfold execIdleCapStep
  with_reducible
    repeat' (first
      | assumption | apply State.whenAlive_kept | apply State.idleCap_kept | intro _ _ _ | intro _ _ | intro _ | (refine Kept.fst (by assumption) ?_) | split)

theorem execPowerSample_kept {z s : State} {rails : List (Nat × Nat)} {shares : List Nat} (h : Kept z s) : KeptA z (execPowerSample rails shares s) := by
  unfold execPowerSample
  with_reducible
    repeat' (first
      | assumption | apply State.whenOn_kept | apply sampleRails_kept | intro _ _ _ | intro _ _ | intro _ | (refine Kept.fst (by assumption) ?_) | split)

theorem execCurrentLimitStep_kept {z s : State} {tile : Nat} (h : Kept z s) : KeptA z (execCurrentLimitStep tile s) := by
  unfold execCurrentLimitStep
  with_reducible
    repeat' (first
      | assumption | apply State.whenAlive_kept | apply State.currentStep_kept | intro _ _ _ | intro _ _ | intro _ | (refine Kept.fst (by assumption) ?_) | split)

theorem execVrAlertFall_kept {z s : State} {input : Nat} (h : Kept z s) : KeptA z (execVrAlertFall input s) := by
  unfold execVrAlertFall
  with_reducible
    repeat' (first
      | assumption | apply State.become_kept | apply State.alertFall_kept | intro _ _ _ | intro _ _ | intro _ | (refine Kept.fst (by assumption) ?_) | split)

theorem execVrAlertRise_kept {z s : State} {input : Nat} (h : Kept z s) : KeptA z (execVrAlertRise input s) := by
  unfold execVrAlertRise
  with_reducible
    repeat' (first
      | assumption | apply State.become_kept | apply State.alertRise_kept | intro _ _ _ | intro _ _ | intro _ | (refine Kept.fst (by assumption) ?_) | split)

theorem execVrAlertHoldExpiry_kept {z s : State} (h : Kept z s) : KeptA z (execVrAlertHoldExpiry s) := by
  unfold execVrAlertHoldExpiry
  with_reducible
    repeat' (first
      | assumption | apply State.whenOn_kept | apply State.alertEnd_kept | intro _ _ _ | intro _ _ | intro _ | (refine Kept.fst (by assumption) ?_) | split)

theorem execDroopTrip_kept {z s : State} {tile : Nat} (h : Kept z s) : KeptA z (execDroopTrip tile s) := by
  unfold execDroopTrip
  with_reducible
    repeat' (first
      | assumption | apply State.whenAlive_kept | apply State.putBit_kept | apply State.settleLevels_kept | intro _ _ _ | intro _ _ | intro _ | (refine Kept.fst (by assumption) ?_) | split)

theorem execDroopSkipStart_kept {z s : State} {tile : Nat} (h : Kept z s) : KeptA z (execDroopSkipStart tile s) := by
  unfold execDroopSkipStart
  with_reducible
    repeat' (first
      | assumption | apply State.whenAlive_kept | apply State.putBit_kept | apply State.settleLevels_kept | intro _ _ _ | intro _ _ | intro _ | (refine Kept.fst (by assumption) ?_) | split)

theorem execDroopEnd_kept {z s : State} {tile : Nat} (h : Kept z s) : KeptA z (execDroopEnd tile s) := by
  unfold execDroopEnd
  with_reducible
    repeat' (first
      | assumption | apply State.whenAlive_kept | apply State.putBit_kept | apply State.settleLevels_kept | intro _ _ _ | intro _ _ | intro _ | (refine Kept.fst (by assumption) ?_) | split)

theorem execThermalSensorRead_kept {z s : State} {tile : Nat} {tj ts : List Nat} (h : Kept z s) : KeptA z (execThermalSensorRead tile tj ts s) := by
  unfold execThermalSensorRead
  try dsimp only
  with_reducible
    repeat' (first
      | assumption | apply State.whenOn_kept | apply State.put_kept | apply State.crossed_kept | apply State.thermal_kept | intro _ _ _ | intro _ _ | intro _ | (refine Kept.fst (by assumption) ?_) | split)

theorem execThermalThrottleStep_kept {z s : State} {tile source : Nat} {down : Bool} (h : Kept z s) : KeptA z (execThermalThrottleStep tile source down s) := by
  unfold execThermalThrottleStep
  with_reducible
    repeat' (first
      | assumption | apply State.whenOn_kept | apply State.thermalStep_kept | intro _ _ _ | intro _ _ | intro _ | (refine Kept.fst (by assumption) ?_) | split)

theorem execRefreshInterval_kept {z s : State} {stack pc : Nat} (h : Kept z s) : KeptA z (execRefreshInterval stack pc s) := by
  unfold execRefreshInterval
  with_reducible
    repeat' (first
      | assumption | apply State.whenAlive_kept | apply State.refreshInterval_kept | intro _ _ _ | intro _ _ | intro _ | (refine Kept.fst (by assumption) ?_) | split)

theorem execAtomBoundary_kept {z s : State} {stack pc : Nat} (h : Kept z s) : KeptA z (execAtomBoundary stack pc s) := by
  unfold execAtomBoundary
  with_reducible
    repeat' (first
      | assumption | apply State.whenAlive_kept | apply State.boundary_kept | intro _ _ _ | intro _ _ | intro _ | (refine Kept.fst (by assumption) ?_) | split)

theorem execStackAccess_kept {z s : State} {addr : Nat} {write : Option Bytes} {symbols : List Nat} (h : Kept z s) : KeptA z (execStackAccess addr write symbols s) := by
  unfold execStackAccess
  with_reducible
    repeat' (first
      | assumption | apply State.whenAlive_kept | apply State.stackArrive_kept | apply State.write_kept | intro _ _ _ | intro _ _ | intro _ | (refine Kept.fst (by assumption) ?_) | split)

theorem execStackLaneMarked_kept {z s : State} {stack pc lane : Nat} (h : Kept z s) : KeptA z (execStackLaneMarked stack pc lane s) := by
  unfold execStackLaneMarked
  with_reducible
    repeat' (first
      | assumption | apply State.whenAlive_kept | apply State.markLane_kept | intro _ _ _ | intro _ _ | intro _ | (refine Kept.fst (by assumption) ?_) | split)

theorem execStackChannelLost_kept {z s : State} {stack pc : Nat} (h : Kept z s) : KeptA z (execStackChannelLost stack pc s) := by
  unfold execStackChannelLost
  with_reducible
    repeat' (first
      | assumption | apply State.whenAlive_kept | apply State.channelLost_kept | intro _ _ _ | intro _ _ | intro _ | (refine Kept.fst (by assumption) ?_) | split)

theorem execStackThermRead_kept {z s : State} {stack temp : Nat} (h : Kept z s) : KeptA z (execStackThermRead stack temp s) := by
  unfold execStackThermRead
  try dsimp only
  with_reducible
    repeat' (first
      | assumption | apply State.whenOn_kept | apply State.put_kept | apply State.crossed_kept | apply State.putBit_kept | apply State.thermal_kept | intro _ _ _ | intro _ _ | intro _ | (refine Kept.fst (by assumption) ?_) | split)

theorem execNbuDesc_kept {z s : State} {tile : Nat} {mem : MemReport} (h : Kept z s) : KeptA z (execNbuDesc tile mem s) := by
  unfold execNbuDesc
  with_reducible
    repeat' (first
      | assumption | apply State.whenAlive_kept | apply State.nbuStart_kept | intro _ _ _ | intro _ _ | intro _ | (refine Kept.fst (by assumption) ?_) | split)

theorem execNbuAtom_kept {z s : State} {tile unit : Nat} {rep : NbuReport} (h : Kept z s) : KeptA z (execNbuAtom tile unit rep s) := by
  unfold execNbuAtom
  with_reducible
    repeat' (first
      | assumption | apply State.whenAlive_kept | apply State.nbuAtom_kept | intro _ _ _ | intro _ _ | intro _ | (refine Kept.fst (by assumption) ?_) | split)

theorem execNbuChainReceive_kept {z s : State} {tile unit crcFails : Nat} (h : Kept z s) : KeptA z (execNbuChainReceive tile unit crcFails s) := by
  unfold execNbuChainReceive
  with_reducible
    repeat' (first
      | assumption | apply State.whenAlive_kept | apply State.chainReceive_kept | intro _ _ _ | intro _ _ | intro _ | (refine Kept.fst (by assumption) ?_) | split)

end Sys2Proof.Machine
end

