-- ==== Sys2Proof/Laws/KeptStep.lean ====
section
/-!
SUPPORT. What the operations of Machine/Step.lean keep.
-/

set_option linter.all false

namespace Sys2Proof.Machine



end Sys2Proof.Machine
end

