-- ==== Sys2Proof/Laws/State.lean ====
section
/-!
SUPPORT. What the state's plain updates leave alone: one lemma per field and update, so that no proof unfolds an update.
-/

namespace Sys2Proof.Machine

@[simp] theorem State.put_pending (s : State) (f : Field) (v : Nat) : (s.put f v).pending = s.pending := rfl
@[simp] theorem State.put_mem (s : State) (f : Field) (v : Nat) : (s.put f v).mem = s.mem := rfl
@[simp] theorem State.put_poison (s : State) (f : Field) (v : Nat) : (s.put f v).poison = s.poison := rfl
@[simp] theorem State.put_mrd (s : State) (f : Field) (v : Nat) : (s.put f v).mrd = s.mrd := rfl
@[simp] theorem State.put_frw (s : State) (f : Field) (v : Nat) : (s.put f v).frw = s.frw := rfl
@[simp] theorem State.put_cfg (s : State) (f : Field) (v : Nat) : (s.put f v).cfg = s.cfg := rfl
@[simp] theorem State.put_srv (s : State) (f : Field) (v : Nat) : (s.put f v).srv = s.srv := rfl
@[simp] theorem State.put_que (s : State) (f : Field) (v : Nat) : (s.put f v).que = s.que := rfl
@[simp] theorem State.put_flt (s : State) (f : Field) (v : Nat) : (s.put f v).flt = s.flt := rfl
@[simp] theorem State.put_cxl (s : State) (f : Field) (v : Nat) : (s.put f v).cxl = s.cxl := rfl
@[simp] theorem State.put_mgt (s : State) (f : Field) (v : Nat) : (s.put f v).mgt = s.mgt := rfl
@[simp] theorem State.put_tiles (s : State) (f : Field) (v : Nat) : (s.put f v).tiles = s.tiles := rfl
@[simp] theorem State.put_stk (s : State) (f : Field) (v : Nat) : (s.put f v).stk = s.stk := rfl
@[simp] theorem State.put_pwr (s : State) (f : Field) (v : Nat) : (s.put f v).pwr = s.pwr := rfl
@[simp] theorem State.put_links (s : State) (f : Field) (v : Nat) : (s.put f v).links = s.links := rfl
@[simp] theorem State.put_coll (s : State) (f : Field) (v : Nat) : (s.put f v).coll = s.coll := rfl
@[simp] theorem State.put_kv (s : State) (f : Field) (v : Nat) : (s.put f v).kv = s.kv := rfl
@[simp] theorem State.put_sec (s : State) (f : Field) (v : Nat) : (s.put f v).sec = s.sec := rfl
@[simp] theorem State.put_pins (s : State) (f : Field) (v : Nat) : (s.put f v).pins = s.pins := rfl
@[simp] theorem State.put_out (s : State) (f : Field) (v : Nat) : (s.put f v).out = s.out := rfl
@[simp] theorem State.put_freeCtr (s : State) (f : Field) (v : Nat) : (s.put f v).freeCtr = s.freeCtr := rfl

@[simp] theorem State.putBit_pending (s : State) (f : Field) (b : Bool) : (s.putBit f b).pending = s.pending := rfl
@[simp] theorem State.putBit_mem (s : State) (f : Field) (b : Bool) : (s.putBit f b).mem = s.mem := rfl
@[simp] theorem State.putBit_poison (s : State) (f : Field) (b : Bool) : (s.putBit f b).poison = s.poison := rfl
@[simp] theorem State.putBit_mrd (s : State) (f : Field) (b : Bool) : (s.putBit f b).mrd = s.mrd := rfl
@[simp] theorem State.putBit_frw (s : State) (f : Field) (b : Bool) : (s.putBit f b).frw = s.frw := rfl
@[simp] theorem State.putBit_cfg (s : State) (f : Field) (b : Bool) : (s.putBit f b).cfg = s.cfg := rfl
@[simp] theorem State.putBit_srv (s : State) (f : Field) (b : Bool) : (s.putBit f b).srv = s.srv := rfl
@[simp] theorem State.putBit_que (s : State) (f : Field) (b : Bool) : (s.putBit f b).que = s.que := rfl
@[simp] theorem State.putBit_flt (s : State) (f : Field) (b : Bool) : (s.putBit f b).flt = s.flt := rfl
@[simp] theorem State.putBit_cxl (s : State) (f : Field) (b : Bool) : (s.putBit f b).cxl = s.cxl := rfl
@[simp] theorem State.putBit_mgt (s : State) (f : Field) (b : Bool) : (s.putBit f b).mgt = s.mgt := rfl
@[simp] theorem State.putBit_tiles (s : State) (f : Field) (b : Bool) : (s.putBit f b).tiles = s.tiles := rfl
@[simp] theorem State.putBit_stk (s : State) (f : Field) (b : Bool) : (s.putBit f b).stk = s.stk := rfl
@[simp] theorem State.putBit_pwr (s : State) (f : Field) (b : Bool) : (s.putBit f b).pwr = s.pwr := rfl
@[simp] theorem State.putBit_links (s : State) (f : Field) (b : Bool) : (s.putBit f b).links = s.links := rfl
@[simp] theorem State.putBit_coll (s : State) (f : Field) (b : Bool) : (s.putBit f b).coll = s.coll := rfl
@[simp] theorem State.putBit_kv (s : State) (f : Field) (b : Bool) : (s.putBit f b).kv = s.kv := rfl
@[simp] theorem State.putBit_sec (s : State) (f : Field) (b : Bool) : (s.putBit f b).sec = s.sec := rfl
@[simp] theorem State.putBit_pins (s : State) (f : Field) (b : Bool) : (s.putBit f b).pins = s.pins := rfl
@[simp] theorem State.putBit_out (s : State) (f : Field) (b : Bool) : (s.putBit f b).out = s.out := rfl
@[simp] theorem State.putBit_freeCtr (s : State) (f : Field) (b : Bool) : (s.putBit f b).freeCtr = s.freeCtr := rfl

@[simp] theorem State.bump_pending (s : State) (f : Field) (n : Nat) : (s.bump f n).pending = s.pending := rfl
@[simp] theorem State.bump_mem (s : State) (f : Field) (n : Nat) : (s.bump f n).mem = s.mem := rfl
@[simp] theorem State.bump_poison (s : State) (f : Field) (n : Nat) : (s.bump f n).poison = s.poison := rfl
@[simp] theorem State.bump_mrd (s : State) (f : Field) (n : Nat) : (s.bump f n).mrd = s.mrd := rfl
@[simp] theorem State.bump_frw (s : State) (f : Field) (n : Nat) : (s.bump f n).frw = s.frw := rfl
@[simp] theorem State.bump_cfg (s : State) (f : Field) (n : Nat) : (s.bump f n).cfg = s.cfg := rfl
@[simp] theorem State.bump_srv (s : State) (f : Field) (n : Nat) : (s.bump f n).srv = s.srv := rfl
@[simp] theorem State.bump_que (s : State) (f : Field) (n : Nat) : (s.bump f n).que = s.que := rfl
@[simp] theorem State.bump_flt (s : State) (f : Field) (n : Nat) : (s.bump f n).flt = s.flt := rfl
@[simp] theorem State.bump_cxl (s : State) (f : Field) (n : Nat) : (s.bump f n).cxl = s.cxl := rfl
@[simp] theorem State.bump_mgt (s : State) (f : Field) (n : Nat) : (s.bump f n).mgt = s.mgt := rfl
@[simp] theorem State.bump_tiles (s : State) (f : Field) (n : Nat) : (s.bump f n).tiles = s.tiles := rfl
@[simp] theorem State.bump_stk (s : State) (f : Field) (n : Nat) : (s.bump f n).stk = s.stk := rfl
@[simp] theorem State.bump_pwr (s : State) (f : Field) (n : Nat) : (s.bump f n).pwr = s.pwr := rfl
@[simp] theorem State.bump_links (s : State) (f : Field) (n : Nat) : (s.bump f n).links = s.links := rfl
@[simp] theorem State.bump_coll (s : State) (f : Field) (n : Nat) : (s.bump f n).coll = s.coll := rfl
@[simp] theorem State.bump_kv (s : State) (f : Field) (n : Nat) : (s.bump f n).kv = s.kv := rfl
@[simp] theorem State.bump_sec (s : State) (f : Field) (n : Nat) : (s.bump f n).sec = s.sec := rfl
@[simp] theorem State.bump_pins (s : State) (f : Field) (n : Nat) : (s.bump f n).pins = s.pins := rfl
@[simp] theorem State.bump_out (s : State) (f : Field) (n : Nat) : (s.bump f n).out = s.out := rfl
@[simp] theorem State.bump_freeCtr (s : State) (f : Field) (n : Nat) : (s.bump f n).freeCtr = s.freeCtr := rfl

@[simp] theorem State.wrapAdd_pending (s : State) (f : Field) (n : Nat) : (s.wrapAdd f n).pending = s.pending := rfl
@[simp] theorem State.wrapAdd_mem (s : State) (f : Field) (n : Nat) : (s.wrapAdd f n).mem = s.mem := rfl
@[simp] theorem State.wrapAdd_poison (s : State) (f : Field) (n : Nat) : (s.wrapAdd f n).poison = s.poison := rfl
@[simp] theorem State.wrapAdd_mrd (s : State) (f : Field) (n : Nat) : (s.wrapAdd f n).mrd = s.mrd := rfl
@[simp] theorem State.wrapAdd_frw (s : State) (f : Field) (n : Nat) : (s.wrapAdd f n).frw = s.frw := rfl
@[simp] theorem State.wrapAdd_cfg (s : State) (f : Field) (n : Nat) : (s.wrapAdd f n).cfg = s.cfg := rfl
@[simp] theorem State.wrapAdd_srv (s : State) (f : Field) (n : Nat) : (s.wrapAdd f n).srv = s.srv := rfl
@[simp] theorem State.wrapAdd_que (s : State) (f : Field) (n : Nat) : (s.wrapAdd f n).que = s.que := rfl
@[simp] theorem State.wrapAdd_flt (s : State) (f : Field) (n : Nat) : (s.wrapAdd f n).flt = s.flt := rfl
@[simp] theorem State.wrapAdd_cxl (s : State) (f : Field) (n : Nat) : (s.wrapAdd f n).cxl = s.cxl := rfl
@[simp] theorem State.wrapAdd_mgt (s : State) (f : Field) (n : Nat) : (s.wrapAdd f n).mgt = s.mgt := rfl
@[simp] theorem State.wrapAdd_tiles (s : State) (f : Field) (n : Nat) : (s.wrapAdd f n).tiles = s.tiles := rfl
@[simp] theorem State.wrapAdd_stk (s : State) (f : Field) (n : Nat) : (s.wrapAdd f n).stk = s.stk := rfl
@[simp] theorem State.wrapAdd_pwr (s : State) (f : Field) (n : Nat) : (s.wrapAdd f n).pwr = s.pwr := rfl
@[simp] theorem State.wrapAdd_links (s : State) (f : Field) (n : Nat) : (s.wrapAdd f n).links = s.links := rfl
@[simp] theorem State.wrapAdd_coll (s : State) (f : Field) (n : Nat) : (s.wrapAdd f n).coll = s.coll := rfl
@[simp] theorem State.wrapAdd_kv (s : State) (f : Field) (n : Nat) : (s.wrapAdd f n).kv = s.kv := rfl
@[simp] theorem State.wrapAdd_sec (s : State) (f : Field) (n : Nat) : (s.wrapAdd f n).sec = s.sec := rfl
@[simp] theorem State.wrapAdd_pins (s : State) (f : Field) (n : Nat) : (s.wrapAdd f n).pins = s.pins := rfl
@[simp] theorem State.wrapAdd_out (s : State) (f : Field) (n : Nat) : (s.wrapAdd f n).out = s.out := rfl
@[simp] theorem State.wrapAdd_freeCtr (s : State) (f : Field) (n : Nat) : (s.wrapAdd f n).freeCtr = s.freeCtr := rfl

@[simp] theorem State.setByte_pending (s : State) (a : Nat) (b : Byte) : (s.setByte a b).pending = s.pending := rfl
@[simp] theorem State.setByte_regs (s : State) (a : Nat) (b : Byte) : (s.setByte a b).regs = s.regs := rfl
@[simp] theorem State.setByte_poison (s : State) (a : Nat) (b : Byte) : (s.setByte a b).poison = s.poison := rfl
@[simp] theorem State.setByte_mrd (s : State) (a : Nat) (b : Byte) : (s.setByte a b).mrd = s.mrd := rfl
@[simp] theorem State.setByte_frw (s : State) (a : Nat) (b : Byte) : (s.setByte a b).frw = s.frw := rfl
@[simp] theorem State.setByte_cfg (s : State) (a : Nat) (b : Byte) : (s.setByte a b).cfg = s.cfg := rfl
@[simp] theorem State.setByte_srv (s : State) (a : Nat) (b : Byte) : (s.setByte a b).srv = s.srv := rfl
@[simp] theorem State.setByte_que (s : State) (a : Nat) (b : Byte) : (s.setByte a b).que = s.que := rfl
@[simp] theorem State.setByte_flt (s : State) (a : Nat) (b : Byte) : (s.setByte a b).flt = s.flt := rfl
@[simp] theorem State.setByte_cxl (s : State) (a : Nat) (b : Byte) : (s.setByte a b).cxl = s.cxl := rfl
@[simp] theorem State.setByte_mgt (s : State) (a : Nat) (b : Byte) : (s.setByte a b).mgt = s.mgt := rfl
@[simp] theorem State.setByte_tiles (s : State) (a : Nat) (b : Byte) : (s.setByte a b).tiles = s.tiles := rfl
@[simp] theorem State.setByte_stk (s : State) (a : Nat) (b : Byte) : (s.setByte a b).stk = s.stk := rfl
@[simp] theorem State.setByte_pwr (s : State) (a : Nat) (b : Byte) : (s.setByte a b).pwr = s.pwr := rfl
@[simp] theorem State.setByte_links (s : State) (a : Nat) (b : Byte) : (s.setByte a b).links = s.links := rfl
@[simp] theorem State.setByte_coll (s : State) (a : Nat) (b : Byte) : (s.setByte a b).coll = s.coll := rfl
@[simp] theorem State.setByte_kv (s : State) (a : Nat) (b : Byte) : (s.setByte a b).kv = s.kv := rfl
@[simp] theorem State.setByte_sec (s : State) (a : Nat) (b : Byte) : (s.setByte a b).sec = s.sec := rfl
@[simp] theorem State.setByte_pins (s : State) (a : Nat) (b : Byte) : (s.setByte a b).pins = s.pins := rfl
@[simp] theorem State.setByte_out (s : State) (a : Nat) (b : Byte) : (s.setByte a b).out = s.out := rfl
@[simp] theorem State.setByte_freeCtr (s : State) (a : Nat) (b : Byte) : (s.setByte a b).freeCtr = s.freeCtr := rfl

@[simp] theorem State.write_pending (s : State) (a : Nat) (bs : Bytes) : (s.write a bs).pending = s.pending := rfl
@[simp] theorem State.write_regs (s : State) (a : Nat) (bs : Bytes) : (s.write a bs).regs = s.regs := rfl
@[simp] theorem State.write_mrd (s : State) (a : Nat) (bs : Bytes) : (s.write a bs).mrd = s.mrd := rfl
@[simp] theorem State.write_frw (s : State) (a : Nat) (bs : Bytes) : (s.write a bs).frw = s.frw := rfl
@[simp] theorem State.write_cfg (s : State) (a : Nat) (bs : Bytes) : (s.write a bs).cfg = s.cfg := rfl
@[simp] theorem State.write_srv (s : State) (a : Nat) (bs : Bytes) : (s.write a bs).srv = s.srv := rfl
@[simp] theorem State.write_que (s : State) (a : Nat) (bs : Bytes) : (s.write a bs).que = s.que := rfl
@[simp] theorem State.write_flt (s : State) (a : Nat) (bs : Bytes) : (s.write a bs).flt = s.flt := rfl
@[simp] theorem State.write_cxl (s : State) (a : Nat) (bs : Bytes) : (s.write a bs).cxl = s.cxl := rfl
@[simp] theorem State.write_mgt (s : State) (a : Nat) (bs : Bytes) : (s.write a bs).mgt = s.mgt := rfl
@[simp] theorem State.write_tiles (s : State) (a : Nat) (bs : Bytes) : (s.write a bs).tiles = s.tiles := rfl
@[simp] theorem State.write_stk (s : State) (a : Nat) (bs : Bytes) : (s.write a bs).stk = s.stk := rfl
@[simp] theorem State.write_pwr (s : State) (a : Nat) (bs : Bytes) : (s.write a bs).pwr = s.pwr := rfl
@[simp] theorem State.write_links (s : State) (a : Nat) (bs : Bytes) : (s.write a bs).links = s.links := rfl
@[simp] theorem State.write_coll (s : State) (a : Nat) (bs : Bytes) : (s.write a bs).coll = s.coll := rfl
@[simp] theorem State.write_kv (s : State) (a : Nat) (bs : Bytes) : (s.write a bs).kv = s.kv := rfl
@[simp] theorem State.write_sec (s : State) (a : Nat) (bs : Bytes) : (s.write a bs).sec = s.sec := rfl
@[simp] theorem State.write_pins (s : State) (a : Nat) (bs : Bytes) : (s.write a bs).pins = s.pins := rfl
@[simp] theorem State.write_out (s : State) (a : Nat) (bs : Bytes) : (s.write a bs).out = s.out := rfl
@[simp] theorem State.write_freeCtr (s : State) (a : Nat) (bs : Bytes) : (s.write a bs).freeCtr = s.freeCtr := rfl

@[simp] theorem State.writeNat_pending (s : State) (a n : Nat) (v : Nat) : (s.writeNat a n v).pending = s.pending := rfl
@[simp] theorem State.writeNat_regs (s : State) (a n : Nat) (v : Nat) : (s.writeNat a n v).regs = s.regs := rfl
@[simp] theorem State.writeNat_mrd (s : State) (a n : Nat) (v : Nat) : (s.writeNat a n v).mrd = s.mrd := rfl
@[simp] theorem State.writeNat_frw (s : State) (a n : Nat) (v : Nat) : (s.writeNat a n v).frw = s.frw := rfl
@[simp] theorem State.writeNat_cfg (s : State) (a n : Nat) (v : Nat) : (s.writeNat a n v).cfg = s.cfg := rfl
@[simp] theorem State.writeNat_srv (s : State) (a n : Nat) (v : Nat) : (s.writeNat a n v).srv = s.srv := rfl
@[simp] theorem State.writeNat_que (s : State) (a n : Nat) (v : Nat) : (s.writeNat a n v).que = s.que := rfl
@[simp] theorem State.writeNat_flt (s : State) (a n : Nat) (v : Nat) : (s.writeNat a n v).flt = s.flt := rfl
@[simp] theorem State.writeNat_cxl (s : State) (a n : Nat) (v : Nat) : (s.writeNat a n v).cxl = s.cxl := rfl
@[simp] theorem State.writeNat_mgt (s : State) (a n : Nat) (v : Nat) : (s.writeNat a n v).mgt = s.mgt := rfl
@[simp] theorem State.writeNat_tiles (s : State) (a n : Nat) (v : Nat) : (s.writeNat a n v).tiles = s.tiles := rfl
@[simp] theorem State.writeNat_stk (s : State) (a n : Nat) (v : Nat) : (s.writeNat a n v).stk = s.stk := rfl
@[simp] theorem State.writeNat_pwr (s : State) (a n : Nat) (v : Nat) : (s.writeNat a n v).pwr = s.pwr := rfl
@[simp] theorem State.writeNat_links (s : State) (a n : Nat) (v : Nat) : (s.writeNat a n v).links = s.links := rfl
@[simp] theorem State.writeNat_coll (s : State) (a n : Nat) (v : Nat) : (s.writeNat a n v).coll = s.coll := rfl
@[simp] theorem State.writeNat_kv (s : State) (a n : Nat) (v : Nat) : (s.writeNat a n v).kv = s.kv := rfl
@[simp] theorem State.writeNat_sec (s : State) (a n : Nat) (v : Nat) : (s.writeNat a n v).sec = s.sec := rfl
@[simp] theorem State.writeNat_pins (s : State) (a n : Nat) (v : Nat) : (s.writeNat a n v).pins = s.pins := rfl
@[simp] theorem State.writeNat_out (s : State) (a n : Nat) (v : Nat) : (s.writeNat a n v).out = s.out := rfl
@[simp] theorem State.writeNat_freeCtr (s : State) (a n : Nat) (v : Nat) : (s.writeNat a n v).freeCtr = s.freeCtr := rfl

@[simp] theorem State.poisonRange_pending (s : State) (a : Nat) (n : Nat) : (s.poisonRange a n).pending = s.pending := rfl
@[simp] theorem State.poisonRange_regs (s : State) (a : Nat) (n : Nat) : (s.poisonRange a n).regs = s.regs := rfl
@[simp] theorem State.poisonRange_mem (s : State) (a : Nat) (n : Nat) : (s.poisonRange a n).mem = s.mem := rfl
@[simp] theorem State.poisonRange_mrd (s : State) (a : Nat) (n : Nat) : (s.poisonRange a n).mrd = s.mrd := rfl
@[simp] theorem State.poisonRange_frw (s : State) (a : Nat) (n : Nat) : (s.poisonRange a n).frw = s.frw := rfl
@[simp] theorem State.poisonRange_cfg (s : State) (a : Nat) (n : Nat) : (s.poisonRange a n).cfg = s.cfg := rfl
@[simp] theorem State.poisonRange_srv (s : State) (a : Nat) (n : Nat) : (s.poisonRange a n).srv = s.srv := rfl
@[simp] theorem State.poisonRange_que (s : State) (a : Nat) (n : Nat) : (s.poisonRange a n).que = s.que := rfl
@[simp] theorem State.poisonRange_flt (s : State) (a : Nat) (n : Nat) : (s.poisonRange a n).flt = s.flt := rfl
@[simp] theorem State.poisonRange_cxl (s : State) (a : Nat) (n : Nat) : (s.poisonRange a n).cxl = s.cxl := rfl
@[simp] theorem State.poisonRange_mgt (s : State) (a : Nat) (n : Nat) : (s.poisonRange a n).mgt = s.mgt := rfl
@[simp] theorem State.poisonRange_tiles (s : State) (a : Nat) (n : Nat) : (s.poisonRange a n).tiles = s.tiles := rfl
@[simp] theorem State.poisonRange_stk (s : State) (a : Nat) (n : Nat) : (s.poisonRange a n).stk = s.stk := rfl
@[simp] theorem State.poisonRange_pwr (s : State) (a : Nat) (n : Nat) : (s.poisonRange a n).pwr = s.pwr := rfl
@[simp] theorem State.poisonRange_links (s : State) (a : Nat) (n : Nat) : (s.poisonRange a n).links = s.links := rfl
@[simp] theorem State.poisonRange_coll (s : State) (a : Nat) (n : Nat) : (s.poisonRange a n).coll = s.coll := rfl
@[simp] theorem State.poisonRange_kv (s : State) (a : Nat) (n : Nat) : (s.poisonRange a n).kv = s.kv := rfl
@[simp] theorem State.poisonRange_sec (s : State) (a : Nat) (n : Nat) : (s.poisonRange a n).sec = s.sec := rfl
@[simp] theorem State.poisonRange_pins (s : State) (a : Nat) (n : Nat) : (s.poisonRange a n).pins = s.pins := rfl
@[simp] theorem State.poisonRange_out (s : State) (a : Nat) (n : Nat) : (s.poisonRange a n).out = s.out := rfl
@[simp] theorem State.poisonRange_freeCtr (s : State) (a : Nat) (n : Nat) : (s.poisonRange a n).freeCtr = s.freeCtr := rfl

@[simp] theorem State.zero_pending (s : State) (a : Nat) (n : Nat) : (s.zero a n).pending = s.pending := rfl
@[simp] theorem State.zero_regs (s : State) (a : Nat) (n : Nat) : (s.zero a n).regs = s.regs := rfl
@[simp] theorem State.zero_mrd (s : State) (a : Nat) (n : Nat) : (s.zero a n).mrd = s.mrd := rfl
@[simp] theorem State.zero_frw (s : State) (a : Nat) (n : Nat) : (s.zero a n).frw = s.frw := rfl
@[simp] theorem State.zero_cfg (s : State) (a : Nat) (n : Nat) : (s.zero a n).cfg = s.cfg := rfl
@[simp] theorem State.zero_srv (s : State) (a : Nat) (n : Nat) : (s.zero a n).srv = s.srv := rfl
@[simp] theorem State.zero_que (s : State) (a : Nat) (n : Nat) : (s.zero a n).que = s.que := rfl
@[simp] theorem State.zero_flt (s : State) (a : Nat) (n : Nat) : (s.zero a n).flt = s.flt := rfl
@[simp] theorem State.zero_cxl (s : State) (a : Nat) (n : Nat) : (s.zero a n).cxl = s.cxl := rfl
@[simp] theorem State.zero_mgt (s : State) (a : Nat) (n : Nat) : (s.zero a n).mgt = s.mgt := rfl
@[simp] theorem State.zero_tiles (s : State) (a : Nat) (n : Nat) : (s.zero a n).tiles = s.tiles := rfl
@[simp] theorem State.zero_stk (s : State) (a : Nat) (n : Nat) : (s.zero a n).stk = s.stk := rfl
@[simp] theorem State.zero_pwr (s : State) (a : Nat) (n : Nat) : (s.zero a n).pwr = s.pwr := rfl
@[simp] theorem State.zero_links (s : State) (a : Nat) (n : Nat) : (s.zero a n).links = s.links := rfl
@[simp] theorem State.zero_coll (s : State) (a : Nat) (n : Nat) : (s.zero a n).coll = s.coll := rfl
@[simp] theorem State.zero_kv (s : State) (a : Nat) (n : Nat) : (s.zero a n).kv = s.kv := rfl
@[simp] theorem State.zero_sec (s : State) (a : Nat) (n : Nat) : (s.zero a n).sec = s.sec := rfl
@[simp] theorem State.zero_pins (s : State) (a : Nat) (n : Nat) : (s.zero a n).pins = s.pins := rfl
@[simp] theorem State.zero_out (s : State) (a : Nat) (n : Nat) : (s.zero a n).out = s.out := rfl
@[simp] theorem State.zero_freeCtr (s : State) (a : Nat) (n : Nat) : (s.zero a n).freeCtr = s.freeCtr := rfl

@[simp] theorem State.draw_pending (s : State) : (s.draw).pending = s.pending := rfl
@[simp] theorem State.draw_regs (s : State) : (s.draw).regs = s.regs := rfl
@[simp] theorem State.draw_mem (s : State) : (s.draw).mem = s.mem := rfl
@[simp] theorem State.draw_poison (s : State) : (s.draw).poison = s.poison := rfl
@[simp] theorem State.draw_mrd (s : State) : (s.draw).mrd = s.mrd := rfl
@[simp] theorem State.draw_frw (s : State) : (s.draw).frw = s.frw := rfl
@[simp] theorem State.draw_cfg (s : State) : (s.draw).cfg = s.cfg := rfl
@[simp] theorem State.draw_srv (s : State) : (s.draw).srv = s.srv := rfl
@[simp] theorem State.draw_que (s : State) : (s.draw).que = s.que := rfl
@[simp] theorem State.draw_flt (s : State) : (s.draw).flt = s.flt := rfl
@[simp] theorem State.draw_cxl (s : State) : (s.draw).cxl = s.cxl := rfl
@[simp] theorem State.draw_mgt (s : State) : (s.draw).mgt = s.mgt := rfl
@[simp] theorem State.draw_tiles (s : State) : (s.draw).tiles = s.tiles := rfl
@[simp] theorem State.draw_stk (s : State) : (s.draw).stk = s.stk := rfl
@[simp] theorem State.draw_pwr (s : State) : (s.draw).pwr = s.pwr := rfl
@[simp] theorem State.draw_links (s : State) : (s.draw).links = s.links := rfl
@[simp] theorem State.draw_coll (s : State) : (s.draw).coll = s.coll := rfl
@[simp] theorem State.draw_kv (s : State) : (s.draw).kv = s.kv := rfl
@[simp] theorem State.draw_sec (s : State) : (s.draw).sec = s.sec := rfl
@[simp] theorem State.draw_pins (s : State) : (s.draw).pins = s.pins := rfl
@[simp] theorem State.draw_out (s : State) : (s.draw).out = s.out := rfl

@[simp] theorem State.emit_pending (s : State) (o : Output) : (s.emit o).pending = s.pending := rfl
@[simp] theorem State.emit_regs (s : State) (o : Output) : (s.emit o).regs = s.regs := rfl
@[simp] theorem State.emit_mem (s : State) (o : Output) : (s.emit o).mem = s.mem := rfl
@[simp] theorem State.emit_poison (s : State) (o : Output) : (s.emit o).poison = s.poison := rfl
@[simp] theorem State.emit_mrd (s : State) (o : Output) : (s.emit o).mrd = s.mrd := rfl
@[simp] theorem State.emit_frw (s : State) (o : Output) : (s.emit o).frw = s.frw := rfl
@[simp] theorem State.emit_cfg (s : State) (o : Output) : (s.emit o).cfg = s.cfg := rfl
@[simp] theorem State.emit_srv (s : State) (o : Output) : (s.emit o).srv = s.srv := rfl
@[simp] theorem State.emit_que (s : State) (o : Output) : (s.emit o).que = s.que := rfl
@[simp] theorem State.emit_flt (s : State) (o : Output) : (s.emit o).flt = s.flt := rfl
@[simp] theorem State.emit_cxl (s : State) (o : Output) : (s.emit o).cxl = s.cxl := rfl
@[simp] theorem State.emit_mgt (s : State) (o : Output) : (s.emit o).mgt = s.mgt := rfl
@[simp] theorem State.emit_tiles (s : State) (o : Output) : (s.emit o).tiles = s.tiles := rfl
@[simp] theorem State.emit_stk (s : State) (o : Output) : (s.emit o).stk = s.stk := rfl
@[simp] theorem State.emit_pwr (s : State) (o : Output) : (s.emit o).pwr = s.pwr := rfl
@[simp] theorem State.emit_links (s : State) (o : Output) : (s.emit o).links = s.links := rfl
@[simp] theorem State.emit_coll (s : State) (o : Output) : (s.emit o).coll = s.coll := rfl
@[simp] theorem State.emit_kv (s : State) (o : Output) : (s.emit o).kv = s.kv := rfl
@[simp] theorem State.emit_sec (s : State) (o : Output) : (s.emit o).sec = s.sec := rfl
@[simp] theorem State.emit_pins (s : State) (o : Output) : (s.emit o).pins = s.pins := rfl
@[simp] theorem State.emit_freeCtr (s : State) (o : Output) : (s.emit o).freeCtr = s.freeCtr := rfl

@[simp] theorem State.recordWritten_pending (s : State) (v : Nat) : (s.recordWritten v).pending = s.pending := rfl
@[simp] theorem State.recordWritten_regs (s : State) (v : Nat) : (s.recordWritten v).regs = s.regs := rfl
@[simp] theorem State.recordWritten_mem (s : State) (v : Nat) : (s.recordWritten v).mem = s.mem := rfl
@[simp] theorem State.recordWritten_poison (s : State) (v : Nat) : (s.recordWritten v).poison = s.poison := rfl
@[simp] theorem State.recordWritten_mrd (s : State) (v : Nat) : (s.recordWritten v).mrd = s.mrd := rfl
@[simp] theorem State.recordWritten_frw (s : State) (v : Nat) : (s.recordWritten v).frw = s.frw := rfl
@[simp] theorem State.recordWritten_cfg (s : State) (v : Nat) : (s.recordWritten v).cfg = s.cfg := rfl
@[simp] theorem State.recordWritten_srv (s : State) (v : Nat) : (s.recordWritten v).srv = s.srv := rfl
@[simp] theorem State.recordWritten_que (s : State) (v : Nat) : (s.recordWritten v).que = s.que := rfl
@[simp] theorem State.recordWritten_flt (s : State) (v : Nat) : (s.recordWritten v).flt = s.flt := rfl
@[simp] theorem State.recordWritten_mgt (s : State) (v : Nat) : (s.recordWritten v).mgt = s.mgt := rfl
@[simp] theorem State.recordWritten_tiles (s : State) (v : Nat) : (s.recordWritten v).tiles = s.tiles := rfl
@[simp] theorem State.recordWritten_stk (s : State) (v : Nat) : (s.recordWritten v).stk = s.stk := rfl
@[simp] theorem State.recordWritten_pwr (s : State) (v : Nat) : (s.recordWritten v).pwr = s.pwr := rfl
@[simp] theorem State.recordWritten_links (s : State) (v : Nat) : (s.recordWritten v).links = s.links := rfl
@[simp] theorem State.recordWritten_coll (s : State) (v : Nat) : (s.recordWritten v).coll = s.coll := rfl
@[simp] theorem State.recordWritten_kv (s : State) (v : Nat) : (s.recordWritten v).kv = s.kv := rfl
@[simp] theorem State.recordWritten_sec (s : State) (v : Nat) : (s.recordWritten v).sec = s.sec := rfl
@[simp] theorem State.recordWritten_pins (s : State) (v : Nat) : (s.recordWritten v).pins = s.pins := rfl
@[simp] theorem State.recordWritten_out (s : State) (v : Nat) : (s.recordWritten v).out = s.out := rfl
@[simp] theorem State.recordWritten_freeCtr (s : State) (v : Nat) : (s.recordWritten v).freeCtr = s.freeCtr := rfl

@[simp] theorem State.modTile_pending (s : State) (n : Nat) (f : Tile → Tile) : (s.modTile n f).pending = s.pending := rfl
@[simp] theorem State.modTile_regs (s : State) (n : Nat) (f : Tile → Tile) : (s.modTile n f).regs = s.regs := rfl
@[simp] theorem State.modTile_mem (s : State) (n : Nat) (f : Tile → Tile) : (s.modTile n f).mem = s.mem := rfl
@[simp] theorem State.modTile_poison (s : State) (n : Nat) (f : Tile → Tile) : (s.modTile n f).poison = s.poison := rfl
@[simp] theorem State.modTile_mrd (s : State) (n : Nat) (f : Tile → Tile) : (s.modTile n f).mrd = s.mrd := rfl
@[simp] theorem State.modTile_frw (s : State) (n : Nat) (f : Tile → Tile) : (s.modTile n f).frw = s.frw := rfl
@[simp] theorem State.modTile_cfg (s : State) (n : Nat) (f : Tile → Tile) : (s.modTile n f).cfg = s.cfg := rfl
@[simp] theorem State.modTile_srv (s : State) (n : Nat) (f : Tile → Tile) : (s.modTile n f).srv = s.srv := rfl
@[simp] theorem State.modTile_que (s : State) (n : Nat) (f : Tile → Tile) : (s.modTile n f).que = s.que := rfl
@[simp] theorem State.modTile_flt (s : State) (n : Nat) (f : Tile → Tile) : (s.modTile n f).flt = s.flt := rfl
@[simp] theorem State.modTile_cxl (s : State) (n : Nat) (f : Tile → Tile) : (s.modTile n f).cxl = s.cxl := rfl
@[simp] theorem State.modTile_mgt (s : State) (n : Nat) (f : Tile → Tile) : (s.modTile n f).mgt = s.mgt := rfl
@[simp] theorem State.modTile_stk (s : State) (n : Nat) (f : Tile → Tile) : (s.modTile n f).stk = s.stk := rfl
@[simp] theorem State.modTile_pwr (s : State) (n : Nat) (f : Tile → Tile) : (s.modTile n f).pwr = s.pwr := rfl
@[simp] theorem State.modTile_links (s : State) (n : Nat) (f : Tile → Tile) : (s.modTile n f).links = s.links := rfl
@[simp] theorem State.modTile_coll (s : State) (n : Nat) (f : Tile → Tile) : (s.modTile n f).coll = s.coll := rfl
@[simp] theorem State.modTile_kv (s : State) (n : Nat) (f : Tile → Tile) : (s.modTile n f).kv = s.kv := rfl
@[simp] theorem State.modTile_sec (s : State) (n : Nat) (f : Tile → Tile) : (s.modTile n f).sec = s.sec := rfl
@[simp] theorem State.modTile_pins (s : State) (n : Nat) (f : Tile → Tile) : (s.modTile n f).pins = s.pins := rfl
@[simp] theorem State.modTile_out (s : State) (n : Nat) (f : Tile → Tile) : (s.modTile n f).out = s.out := rfl
@[simp] theorem State.modTile_freeCtr (s : State) (n : Nat) (f : Tile → Tile) : (s.modTile n f).freeCtr = s.freeCtr := rfl

@[simp] theorem State.modStack_pending (s : State) (n : Nat) (f : Stack → Stack) : (s.modStack n f).pending = s.pending := rfl
@[simp] theorem State.modStack_regs (s : State) (n : Nat) (f : Stack → Stack) : (s.modStack n f).regs = s.regs := rfl
@[simp] theorem State.modStack_mem (s : State) (n : Nat) (f : Stack → Stack) : (s.modStack n f).mem = s.mem := rfl
@[simp] theorem State.modStack_poison (s : State) (n : Nat) (f : Stack → Stack) : (s.modStack n f).poison = s.poison := rfl
@[simp] theorem State.modStack_mrd (s : State) (n : Nat) (f : Stack → Stack) : (s.modStack n f).mrd = s.mrd := rfl
@[simp] theorem State.modStack_frw (s : State) (n : Nat) (f : Stack → Stack) : (s.modStack n f).frw = s.frw := rfl
@[simp] theorem State.modStack_cfg (s : State) (n : Nat) (f : Stack → Stack) : (s.modStack n f).cfg = s.cfg := rfl
@[simp] theorem State.modStack_srv (s : State) (n : Nat) (f : Stack → Stack) : (s.modStack n f).srv = s.srv := rfl
@[simp] theorem State.modStack_que (s : State) (n : Nat) (f : Stack → Stack) : (s.modStack n f).que = s.que := rfl
@[simp] theorem State.modStack_flt (s : State) (n : Nat) (f : Stack → Stack) : (s.modStack n f).flt = s.flt := rfl
@[simp] theorem State.modStack_cxl (s : State) (n : Nat) (f : Stack → Stack) : (s.modStack n f).cxl = s.cxl := rfl
@[simp] theorem State.modStack_mgt (s : State) (n : Nat) (f : Stack → Stack) : (s.modStack n f).mgt = s.mgt := rfl
@[simp] theorem State.modStack_tiles (s : State) (n : Nat) (f : Stack → Stack) : (s.modStack n f).tiles = s.tiles := rfl
@[simp] theorem State.modStack_pwr (s : State) (n : Nat) (f : Stack → Stack) : (s.modStack n f).pwr = s.pwr := rfl
@[simp] theorem State.modStack_links (s : State) (n : Nat) (f : Stack → Stack) : (s.modStack n f).links = s.links := rfl
@[simp] theorem State.modStack_coll (s : State) (n : Nat) (f : Stack → Stack) : (s.modStack n f).coll = s.coll := rfl
@[simp] theorem State.modStack_kv (s : State) (n : Nat) (f : Stack → Stack) : (s.modStack n f).kv = s.kv := rfl
@[simp] theorem State.modStack_sec (s : State) (n : Nat) (f : Stack → Stack) : (s.modStack n f).sec = s.sec := rfl
@[simp] theorem State.modStack_pins (s : State) (n : Nat) (f : Stack → Stack) : (s.modStack n f).pins = s.pins := rfl
@[simp] theorem State.modStack_out (s : State) (n : Nat) (f : Stack → Stack) : (s.modStack n f).out = s.out := rfl
@[simp] theorem State.modStack_freeCtr (s : State) (n : Nat) (f : Stack → Stack) : (s.modStack n f).freeCtr = s.freeCtr := rfl

@[simp] theorem State.modLink_pending (s : State) (p : Nat) (f : Link → Link) : (s.modLink p f).pending = s.pending := rfl
@[simp] theorem State.modLink_regs (s : State) (p : Nat) (f : Link → Link) : (s.modLink p f).regs = s.regs := rfl
@[simp] theorem State.modLink_mem (s : State) (p : Nat) (f : Link → Link) : (s.modLink p f).mem = s.mem := rfl
@[simp] theorem State.modLink_poison (s : State) (p : Nat) (f : Link → Link) : (s.modLink p f).poison = s.poison := rfl
@[simp] theorem State.modLink_mrd (s : State) (p : Nat) (f : Link → Link) : (s.modLink p f).mrd = s.mrd := rfl
@[simp] theorem State.modLink_frw (s : State) (p : Nat) (f : Link → Link) : (s.modLink p f).frw = s.frw := rfl
@[simp] theorem State.modLink_cfg (s : State) (p : Nat) (f : Link → Link) : (s.modLink p f).cfg = s.cfg := rfl
@[simp] theorem State.modLink_srv (s : State) (p : Nat) (f : Link → Link) : (s.modLink p f).srv = s.srv := rfl
@[simp] theorem State.modLink_que (s : State) (p : Nat) (f : Link → Link) : (s.modLink p f).que = s.que := rfl
@[simp] theorem State.modLink_flt (s : State) (p : Nat) (f : Link → Link) : (s.modLink p f).flt = s.flt := rfl
@[simp] theorem State.modLink_cxl (s : State) (p : Nat) (f : Link → Link) : (s.modLink p f).cxl = s.cxl := rfl
@[simp] theorem State.modLink_mgt (s : State) (p : Nat) (f : Link → Link) : (s.modLink p f).mgt = s.mgt := rfl
@[simp] theorem State.modLink_tiles (s : State) (p : Nat) (f : Link → Link) : (s.modLink p f).tiles = s.tiles := rfl
@[simp] theorem State.modLink_stk (s : State) (p : Nat) (f : Link → Link) : (s.modLink p f).stk = s.stk := rfl
@[simp] theorem State.modLink_pwr (s : State) (p : Nat) (f : Link → Link) : (s.modLink p f).pwr = s.pwr := rfl
@[simp] theorem State.modLink_coll (s : State) (p : Nat) (f : Link → Link) : (s.modLink p f).coll = s.coll := rfl
@[simp] theorem State.modLink_kv (s : State) (p : Nat) (f : Link → Link) : (s.modLink p f).kv = s.kv := rfl
@[simp] theorem State.modLink_sec (s : State) (p : Nat) (f : Link → Link) : (s.modLink p f).sec = s.sec := rfl
@[simp] theorem State.modLink_pins (s : State) (p : Nat) (f : Link → Link) : (s.modLink p f).pins = s.pins := rfl
@[simp] theorem State.modLink_out (s : State) (p : Nat) (f : Link → Link) : (s.modLink p f).out = s.out := rfl
@[simp] theorem State.modLink_freeCtr (s : State) (p : Nat) (f : Link → Link) : (s.modLink p f).freeCtr = s.freeCtr := rfl

@[simp] theorem State.setDemand_pending (s : State) (src n : Nat) (l : Nat) : (s.setDemand src n l).pending = s.pending := rfl
@[simp] theorem State.setDemand_regs (s : State) (src n : Nat) (l : Nat) : (s.setDemand src n l).regs = s.regs := rfl
@[simp] theorem State.setDemand_mem (s : State) (src n : Nat) (l : Nat) : (s.setDemand src n l).mem = s.mem := rfl
@[simp] theorem State.setDemand_poison (s : State) (src n : Nat) (l : Nat) : (s.setDemand src n l).poison = s.poison := rfl
@[simp] theorem State.setDemand_mrd (s : State) (src n : Nat) (l : Nat) : (s.setDemand src n l).mrd = s.mrd := rfl
@[simp] theorem State.setDemand_frw (s : State) (src n : Nat) (l : Nat) : (s.setDemand src n l).frw = s.frw := rfl
@[simp] theorem State.setDemand_cfg (s : State) (src n : Nat) (l : Nat) : (s.setDemand src n l).cfg = s.cfg := rfl
@[simp] theorem State.setDemand_srv (s : State) (src n : Nat) (l : Nat) : (s.setDemand src n l).srv = s.srv := rfl
@[simp] theorem State.setDemand_que (s : State) (src n : Nat) (l : Nat) : (s.setDemand src n l).que = s.que := rfl
@[simp] theorem State.setDemand_flt (s : State) (src n : Nat) (l : Nat) : (s.setDemand src n l).flt = s.flt := rfl
@[simp] theorem State.setDemand_cxl (s : State) (src n : Nat) (l : Nat) : (s.setDemand src n l).cxl = s.cxl := rfl
@[simp] theorem State.setDemand_mgt (s : State) (src n : Nat) (l : Nat) : (s.setDemand src n l).mgt = s.mgt := rfl
@[simp] theorem State.setDemand_tiles (s : State) (src n : Nat) (l : Nat) : (s.setDemand src n l).tiles = s.tiles := rfl
@[simp] theorem State.setDemand_stk (s : State) (src n : Nat) (l : Nat) : (s.setDemand src n l).stk = s.stk := rfl
@[simp] theorem State.setDemand_links (s : State) (src n : Nat) (l : Nat) : (s.setDemand src n l).links = s.links := rfl
@[simp] theorem State.setDemand_coll (s : State) (src n : Nat) (l : Nat) : (s.setDemand src n l).coll = s.coll := rfl
@[simp] theorem State.setDemand_kv (s : State) (src n : Nat) (l : Nat) : (s.setDemand src n l).kv = s.kv := rfl
@[simp] theorem State.setDemand_sec (s : State) (src n : Nat) (l : Nat) : (s.setDemand src n l).sec = s.sec := rfl
@[simp] theorem State.setDemand_pins (s : State) (src n : Nat) (l : Nat) : (s.setDemand src n l).pins = s.pins := rfl
@[simp] theorem State.setDemand_out (s : State) (src n : Nat) (l : Nat) : (s.setDemand src n l).out = s.out := rfl
@[simp] theorem State.setDemand_freeCtr (s : State) (src n : Nat) (l : Nat) : (s.setDemand src n l).freeCtr = s.freeCtr := rfl

@[simp] theorem State.mapTicket_pending (s : State) (no : Nat) (f : Ticket → Ticket) : (s.mapTicket no f).pending = s.pending := rfl
@[simp] theorem State.mapTicket_regs (s : State) (no : Nat) (f : Ticket → Ticket) : (s.mapTicket no f).regs = s.regs := rfl
@[simp] theorem State.mapTicket_mem (s : State) (no : Nat) (f : Ticket → Ticket) : (s.mapTicket no f).mem = s.mem := rfl
@[simp] theorem State.mapTicket_poison (s : State) (no : Nat) (f : Ticket → Ticket) : (s.mapTicket no f).poison = s.poison := rfl
@[simp] theorem State.mapTicket_mrd (s : State) (no : Nat) (f : Ticket → Ticket) : (s.mapTicket no f).mrd = s.mrd := rfl
@[simp] theorem State.mapTicket_frw (s : State) (no : Nat) (f : Ticket → Ticket) : (s.mapTicket no f).frw = s.frw := rfl
@[simp] theorem State.mapTicket_cfg (s : State) (no : Nat) (f : Ticket → Ticket) : (s.mapTicket no f).cfg = s.cfg := rfl
@[simp] theorem State.mapTicket_srv (s : State) (no : Nat) (f : Ticket → Ticket) : (s.mapTicket no f).srv = s.srv := rfl
@[simp] theorem State.mapTicket_flt (s : State) (no : Nat) (f : Ticket → Ticket) : (s.mapTicket no f).flt = s.flt := rfl
@[simp] theorem State.mapTicket_cxl (s : State) (no : Nat) (f : Ticket → Ticket) : (s.mapTicket no f).cxl = s.cxl := rfl
@[simp] theorem State.mapTicket_mgt (s : State) (no : Nat) (f : Ticket → Ticket) : (s.mapTicket no f).mgt = s.mgt := rfl
@[simp] theorem State.mapTicket_tiles (s : State) (no : Nat) (f : Ticket → Ticket) : (s.mapTicket no f).tiles = s.tiles := rfl
@[simp] theorem State.mapTicket_stk (s : State) (no : Nat) (f : Ticket → Ticket) : (s.mapTicket no f).stk = s.stk := rfl
@[simp] theorem State.mapTicket_pwr (s : State) (no : Nat) (f : Ticket → Ticket) : (s.mapTicket no f).pwr = s.pwr := rfl
@[simp] theorem State.mapTicket_links (s : State) (no : Nat) (f : Ticket → Ticket) : (s.mapTicket no f).links = s.links := rfl
@[simp] theorem State.mapTicket_coll (s : State) (no : Nat) (f : Ticket → Ticket) : (s.mapTicket no f).coll = s.coll := rfl
@[simp] theorem State.mapTicket_kv (s : State) (no : Nat) (f : Ticket → Ticket) : (s.mapTicket no f).kv = s.kv := rfl
@[simp] theorem State.mapTicket_sec (s : State) (no : Nat) (f : Ticket → Ticket) : (s.mapTicket no f).sec = s.sec := rfl
@[simp] theorem State.mapTicket_pins (s : State) (no : Nat) (f : Ticket → Ticket) : (s.mapTicket no f).pins = s.pins := rfl
@[simp] theorem State.mapTicket_out (s : State) (no : Nat) (f : Ticket → Ticket) : (s.mapTicket no f).out = s.out := rfl
@[simp] theorem State.mapTicket_freeCtr (s : State) (no : Nat) (f : Ticket → Ticket) : (s.mapTicket no f).freeCtr = s.freeCtr := rfl

end Sys2Proof.Machine
end

