-- ==== Sys2Proof/Laws/Registers.lean ====
section
/-!
SUPPORT. Register fields and memory: what a read finds after a write.
-/

namespace Sys2Proof.Machine

/-! ### Register fields -/

/-- A field reads what was written to it, modulo its width. -/
theorem State.get_put_same (s : State) (f : Field) (v : Nat) : (s.put f v).get f = v % 2 ^ f.width := by
  simp [State.get, State.put]

/-- A write of a field leaves every field at another place. -/
theorem State.get_put_other (s : State) {f g : Field} (v : Nat) (h : g.key ≠ f.key) : (s.put f v).get g = s.get g := by
  simp [State.get, State.put, Table.get_set_ne _ _ _ _ h]

/-- A value of the field's width is read as it was written. -/
theorem State.get_put_fits (s : State) (f : Field) {v : Nat} (h : v < 2 ^ f.width) : (s.put f v).get f = v := by
  rw [State.get_put_same, Nat.mod_eq_of_lt h]

theorem State.get_of_regs {s t : State} (h : t.regs = s.regs) (f : Field) : t.get f = s.get f := by
  simp [State.get, h]

theorem State.isSet_of_regs {s t : State} (h : t.regs = s.regs) (f : Field) : t.isSet f = s.isSet f := by
  simp [State.isSet, State.get_of_regs h]

@[simp] theorem State.emit_get (s : State) (o : Output) (f : Field) : (s.emit o).get f = s.get f := rfl
@[simp] theorem State.draw_get (s : State) (f : Field) : s.draw.get f = s.get f := rfl
@[simp] theorem State.write_get (s : State) (a : Nat) (bs : Bytes) (f : Field) : (s.write a bs).get f = s.get f := rfl
@[simp] theorem State.modTile_get (s : State) (n : Nat) (g : Tile → Tile) (f : Field) : (s.modTile n g).get f = s.get f := rfl
@[simp] theorem State.modStack_get (s : State) (n : Nat) (g : Stack → Stack) (f : Field) : (s.modStack n g).get f = s.get f := rfl
@[simp] theorem State.modLink_get (s : State) (n : Nat) (g : Link → Link) (f : Field) : (s.modLink n g).get f = s.get f := rfl
@[simp] theorem State.setDemand_get (s : State) (a n l : Nat) (f : Field) : (s.setDemand a n l).get f = s.get f := rfl

/-! ### Memory -/

theorem State.byte_setByte (s : State) (a b : Nat) (v : Byte) : (s.setByte a v).byte b = if b = a then v else s.byte b := by
  simp [State.byte, State.setByte, Table.get_set]

theorem writeMem_get (m : List Host.Cell) (a b : Nat) (bs : Bytes) :
    Table.get 0 b (writeMem m a bs) = if a ≤ b ∧ b < a + bs.length then bs.getD (b - a) 0 else Table.get 0 b m := by
  induction bs generalizing m a with
  | nil => simp [writeMem]
  | cons v bs ih =>
    rw [writeMem, ih, Table.get_set]
    by_cases h : b = a
    · subst h
      simp
    · rcases Nat.lt_or_ge b a with k | k
      · rw [if_neg (by omega), if_neg h, if_neg (by simp; omega)]
      · obtain ⟨d, rfl⟩ : ∃ d, b = a + 1 + d := ⟨b - a - 1, by omega⟩
        have e : a + 1 + d - a = (a + 1 + d - (a + 1)) + 1 := by omega
        simp only [h, if_false, e, List.getD_cons_succ, List.length_cons]
        congr 1
        simp only [eq_iff_iff]
        omega

/-- Storing bytes: inside the range the bytes stored are read, outside it nothing changes. -/
theorem State.byte_write (s : State) (a b : Nat) (bs : Bytes) :
    (s.write a bs).byte b = if a ≤ b ∧ b < a + bs.length then bs.getD (b - a) 0 else s.byte b := writeMem_get ..

theorem State.byte_write_outside (s : State) (a b : Nat) (bs : Bytes) (h : ¬ (a ≤ b ∧ b < a + bs.length)) :
    (s.write a bs).byte b = s.byte b := by rw [State.byte_write, if_neg h]

/-- What was stored is read back. -/
theorem State.read_write (s : State) (a : Nat) (bs : Bytes) : (s.write a bs).read a bs.length = bs := by
  have key : ∀ (n k : Nat), k + n = bs.length → State.read (s.write a bs) (a + k) n = bs.drop k := by
    intro n
    induction n with
    | zero =>
      intro k h
      rw [List.drop_of_length_le (by omega)]
      rfl
    | succ n ih =>
      intro k h
      have hk : k < bs.length := by omega
      rw [State.read, Nat.add_assoc, ih (k + 1) (by omega), State.byte_write, if_pos (by omega), List.drop_eq_getElem_cons hk]
      simp [List.getD_eq_getElem?_getD, List.getElem?_eq_getElem hk]
  simpa using key bs.length 0 (by simp)

theorem State.read_of_mem {s t : State} (h : t.mem = s.mem) (a n : Nat) : t.read a n = s.read a n := by
  induction n generalizing a with
  | zero => rfl
  | succ n ih => rw [State.read, State.read, ih, State.byte, State.byte, h]

/-! ### Answers -/

theorem State.become_eq {s t : State} (h : t.pending = s.pending) : s.become t = .next t := by
  rw [State.become, ← h]

theorem State.whenAlive_eq {s : State} (f : State → State) (h : s.alive = true) :
    s.whenAlive f = .next { f s with pending := s.pending } := by
  rw [State.whenAlive, if_pos h, State.become]

theorem State.whenOn_eq {s : State} (f : State → State) (h : (s.pins.sysRstN && s.pins.railsOn) = true) :
    s.whenOn f = .next { f s with pending := s.pending } := by
  rw [State.whenOn, if_pos h, State.become]

end Sys2Proof.Machine
end

