-- ==== Sys2Proof/Laws/Tix.lean ====
section
/-!
SUPPORT. Operations that leave the packets without a final completion alone.
-/

namespace Sys2Proof.Machine

/-- The packets without a final completion are those that `z` has. -/
abbrev Tix (z s : State) : Prop := s.que.tickets = z.que.tickets

/-- The state of an answer that may be none. -/
structure TixO (z : State) (o : Option State) : Prop where
  kept : ∀ t, o = some t → Tix z t

/-- The state of an answer that may be none, beside another value. -/
structure TixP {α : Type} (z : State) (o : Option (State × α)) : Prop where
  kept : ∀ t, o = some t → Tix z t.1

theorem Tix.parts {z t : State} (h : Tix z t) : t.que.tickets = z.que.tickets := h

theorem Tix.fst {α : Type} {z t : State} {x : α} {p : State × α} (e : p = (t, x)) (h : Tix z p.1) : Tix z t := by
  subst e
  exact h

theorem Tix.ofSome {z t : State} {o : Option State} (e : o = some t) (h : TixO z o) : Tix z t := h.kept t e

theorem Tix.somePair {α : Type} {z t : State} {x : α} {o : Option (State × α)} (e : o = Option.some (t, x)) (h : TixP z o) :
    Tix z t := h.kept _ e

theorem TixO.none (z : State) : TixO z none := ⟨by simp⟩

theorem TixO.of {z s : State} (h : Tix z s) : TixO z (.some s) := by
  refine ⟨?_⟩
  rintro t ⟨⟩
  exact h

theorem TixO.getD {z s : State} {o : Option State} (h : TixO z o) (hs : Tix z s) : Tix z (o.getD s) := by
  cases o with
  | none => exact hs
  | some t => exact h.kept t rfl

theorem TixP.none {α : Type} (z : State) : TixP (α := α) z none := ⟨by simp⟩

theorem TixP.of {α : Type} {z s : State} {x : α} (h : Tix z s) : TixP z (.some (s, x)) := by
  refine ⟨?_⟩
  rintro t ⟨⟩
  exact h

theorem Tix.foldl {α : Type} {z s : State} {f : State → α → State} {l : List α} (h : Tix z s)
    (hf : ∀ s x, Tix z s → Tix z (f s x)) : Tix z (l.foldl f s) := by
  induction l generalizing s with
  | nil => exact h
  | cons x l ih => exact ih (hf s x h)

theorem Tix.foldlPair {α β : Type} {z : State} {p : State × β} {f : State × β → α → State × β} {l : List α} (h : Tix z p.1)
    (hf : ∀ p x, Tix z p.1 → Tix z (f p x).1) : Tix z (l.foldl f p).1 := by
  induction l generalizing p with
  | nil => exact h
  | cons x l ih => exact ih (hf p x h)

theorem TixO.foldl {α : Type} {z : State} {o : Option State} {f : Option State → α → Option State} {l : List α}
    (h : TixO z o) (hf : ∀ o x, TixO z o → TixO z (f o x)) : TixO z (l.foldl f o) := by
  induction l generalizing o with
  | nil => exact h
  | cons x l ih => exact ih (hf o x h)

theorem TixP.foldl {α β : Type} {z : State} {o : Option (State × β)} {f : Option (State × β) → α → Option (State × β)}
    {l : List α} (h : TixP z o) (hf : ∀ o x, TixP z o → TixP z (f o x)) : TixP z (l.foldl f o) := by
  induction l generalizing o with
  | nil => exact h
  | cons x l ih => exact ih (hf o x h)

theorem TixO.map {α : Type} {z : State} {o : Option α} {f : α → State} (hf : ∀ x, Tix z (f x)) : TixO z (o.map f) := by
  refine ⟨fun t e => ?_⟩
  obtain ⟨x, _, rfl⟩ := Option.map_eq_some_iff.1 e
  exact hf x

theorem TixO.mapPair {β : Type} {z : State} {o : Option (State × β)} {f : State × β → State} (h : TixP z o)
    (hf : ∀ p, Tix z p.1 → Tix z (f p)) : TixO z (o.map f) := by
  refine ⟨fun t e => ?_⟩
  obtain ⟨x, k, rfl⟩ := Option.map_eq_some_iff.1 e
  exact hf x (h.kept x k)

theorem TixO.mapState {z : State} {o : Option State} {f : State → State} (h : TixO z o)
    (hf : ∀ s, Tix z s → Tix z (f s)) : TixO z (o.map f) := by
  refine ⟨fun t e => ?_⟩
  obtain ⟨x, k, rfl⟩ := Option.map_eq_some_iff.1 e
  exact hf x (h.kept x k)

theorem TixP.map {α β : Type} {z : State} {o : Option α} {f : α → State × β} (hf : ∀ x, Tix z (f x).1) :
    TixP z (o.map f) := by
  refine ⟨fun t e => ?_⟩
  obtain ⟨x, _, rfl⟩ := Option.map_eq_some_iff.1 e
  exact hf x

theorem TixP.mapPair {β γ : Type} {z : State} {o : Option (State × β)} {f : State × β → State × γ} (h : TixP z o)
    (hf : ∀ p, Tix z p.1 → Tix z (f p).1) : TixP z (o.map f) := by
  refine ⟨fun t e => ?_⟩
  obtain ⟨x, k, rfl⟩ := Option.map_eq_some_iff.1 e
  exact hf x (h.kept x k)

theorem State.put_tix {z s : State} {f : Field} {v : Nat} (h : Tix z s) : Tix z (s.put f v) := h

theorem State.setByte_tix {z s : State} {a : Nat} {b : Byte} (h : Tix z s) : Tix z (s.setByte a b) := h

theorem State.write_tix {z s : State} {a : Nat} {bs : Bytes} (h : Tix z s) : Tix z (s.write a bs) := h

theorem State.poisonRange_tix {z s : State} {a n : Nat} (h : Tix z s) : Tix z (s.poisonRange a n) := h

theorem State.zero_tix {z s : State} {a n : Nat} (h : Tix z s) : Tix z (s.zero a n) := h

theorem State.draw_tix {z s : State} (h : Tix z s) : Tix z s.draw := h

theorem State.emit_tix {z s : State} {o : Output} (h : Tix z s) : Tix z (s.emit o) := h

end Sys2Proof.Machine
end

