-- ==== Sys2Proof/Laws/TixOps.lean ====
section
/-!
SUPPORT. Operations that leave the packets without a final completion alone: the operations of Machine/Ops.lean.
-/

set_option linter.all false

namespace Sys2Proof.Machine

theorem State.recordWritten_tix {z : State} {s : State} {v : ℕ} (h : Tix z s) :
    Tix z (State.recordWritten s v) := by
  unfold State.recordWritten
  with_reducible
    repeat' (first
      | assumption | split)

theorem State.bump_tix {z : State} {s : State} {f : Field} {n : optParam ℕ 1} (h : Tix z s) :
    Tix z (State.bump s f n) := by
  unfold State.bump
  with_reducible
    repeat' (first
      | assumption | apply State.put_tix)

theorem State.putBit_tix {z : State} {s : State} {f : Field} {b : Bool} (h : Tix z s) :
    Tix z (State.putBit s f b) := by
  unfold State.putBit
  with_reducible
    repeat' (first
      | assumption | apply State.put_tix)

theorem State.d2h_tix {z : State} {s : State} {o : Output} (h : Tix z s) :
    Tix z (State.d2h s o) := by
  unfold State.d2h
  with_reducible
    repeat' (first
      | assumption | apply State.emit_tix | split)

theorem State.message_tix {z : State} {s : State} {v : ℕ} (h : Tix z s) :
    Tix z (State.message s v) := by
  unfold State.message
  try dsimp only
  with_reducible
    repeat' (first
      | assumption | apply State.d2h_tix | split)

theorem State.writeNat_tix {z : State} {s : State} {a : ℕ} {n : ℕ} {v : ℕ} (h : Tix z s) :
    Tix z (State.writeNat s a n v) := by
  unfold State.writeNat
  with_reducible
    repeat' (first
      | assumption | apply State.write_tix)

theorem State.wrapAdd_tix {z : State} {s : State} {f : Field} {n : optParam ℕ 1} (h : Tix z s) :
    Tix z (State.wrapAdd s f n) := by
  unfold State.wrapAdd
  with_reducible
    repeat' (first
      | assumption | apply State.put_tix)

end Sys2Proof.Machine
end

