-- ==== Sys2Proof/Laws/TixFrames.lean ====
section
/-!
SUPPORT. Operations that leave the packets without a final completion alone: the operations of Machine/Frames.lean.
-/

set_option linter.all false

namespace Sys2Proof.Machine

theorem State.modLink_tix {z : State} {s : State} {p : ℕ} {f : Link → Link} (h : Tix z s) :
    Tix z (State.modLink s p f) := by
  unfold State.modLink
  assumption

theorem State.transmitSeq_tix {z : State} {s : State} {p : ℕ} {f : Frame} {owner : Option (ℕ × ℕ)} (h : Tix z s) :
    Tix z (State.transmitSeq s p f owner) := by
  unfold State.transmitSeq
  try dsimp only
  with_reducible
    repeat' (first
      | assumption | apply State.modLink_tix | apply State.emit_tix | intro _ _ _ | intro _ _ | intro _)

theorem State.drainLink_tix {z s : State} {p n : Nat} (h : Tix z s) : Tix z (s.drainLink p n) := by
  induction n generalizing s with
  | zero => exact h
  | succ n ih =>
    unfold State.drainLink
    repeat' (first
      | with_reducible assumption
      | with_reducible apply ih
      | with_reducible apply State.transmitSeq_tix
      | with_reducible apply State.modLink_tix
      | split)

theorem State.sendSeq_tix {z : State} {s : State} {p : ℕ} {f : Frame} {owner : optParam (Option (ℕ × ℕ)) none} (h : Tix z s) :
    Tix z (State.sendSeq s p f owner) := by
  unfold State.sendSeq
  try dsimp only
  with_reducible
    repeat' (first
      | assumption | apply State.modLink_tix | apply State.drainLink_tix | intro _ _ _ | intro _ _ | intro _)

theorem State.nonce_tix {z : State} {s : State} {i : ℕ} {tile : ℕ} (h : Tix z s) :
    Tix z (State.nonce s i tile) := by
  unfold State.nonce
  assumption

theorem State.sendFragments_tix {z : State} {s : State} {p : ℕ} {m : CtrlMsg} (h : Tix z s) :
    Tix z (State.sendFragments s p m) := by
  unfold State.sendFragments
  try dsimp only
  with_reducible
    repeat' (first
      | assumption | apply State.sendSeq_tix | apply State.nonce_tix | apply State.emit_tix | apply Tix.foldl
      | intro _ _ _ | intro _ _ | intro _ | split)

theorem State.transmit_tix {z : State} {s : State} {p : ℕ} {f : Frame} (h : Tix z s) :
    Tix z (State.transmit s p f) := by
  unfold State.transmit
  with_reducible
    repeat' (first
      | assumption | apply State.emit_tix)

theorem State.acknowledge_tix {z : State} {s : State} {p : ℕ} {ack : ℕ} (h : Tix z s) :
    Tix z (State.acknowledge s p ack) := by
  unfold State.acknowledge
  try dsimp only
  with_reducible
    repeat' (first
      | assumption | apply State.modLink_tix | apply State.drainLink_tix | apply State.put_tix | intro _ _ _
      | intro _ _ | intro _ | split)

theorem State.sendNak_tix {z : State} {s : State} {p : ℕ} (h : Tix z s) :
    Tix z (State.sendNak s p) := by
  unfold State.sendNak
  with_reducible
    repeat' (first
      | assumption | apply State.modLink_tix | apply State.bump_tix | apply State.transmit_tix | intro _ _ _
      | intro _ _ | intro _ | split)

end Sys2Proof.Machine
end

