-- ==== Sys2Proof/Laws/TixControl.lean ====
section
/-!
SUPPORT. Operations that leave the packets without a final completion alone: the operations of Machine/Control.lean.
-/

set_option linter.all false

namespace Sys2Proof.Machine

theorem State.sendPort_tix {z : State} {s : State} {port : Option ℕ} {dst : ℕ} {body : CtrlBody} (h : Tix z s) :
    Tix z (State.sendPort s port dst body) := by
  unfold State.sendPort
  try dsimp only
  with_reducible
    repeat' (first
      | assumption | apply State.sendFragments_tix | split)

theorem State.sendCtrl_tix {z : State} {s : State} {dst : ℕ} {body : CtrlBody} (h : Tix z s) :
    Tix z (State.sendCtrl s dst body) := by
  unfold State.sendCtrl
  with_reducible
    repeat' (first
      | assumption | apply State.sendPort_tix)

theorem State.sendAll_tix {z : State} {s : State} {dsts : List ℕ} {body : CtrlBody} (h : Tix z s) :
    Tix z (State.sendAll s dsts body) := by
  unfold State.sendAll
  with_reducible
    repeat' (first
      | assumption | apply State.sendCtrl_tix | apply Tix.foldl | intro _ _ _ | intro _ _ | intro _)

end Sys2Proof.Machine
end

