-- ==== Sys2Proof/Laws/TixRings.lean ====
section
/-!
SUPPORT. Operations that leave the packets without a final completion alone: the operations of Machine/Rings.lean.
-/

set_option linter.all false

namespace Sys2Proof.Machine

theorem State.writeCq_tix {z : State} {s : State} {i : ℕ} {c : Completion} (h : Tix z s) :
    Tix z (State.writeCq s i c) := by
  unfold State.writeCq
  try dsimp only
  with_reducible
    repeat' (first
      | assumption | apply State.recordWritten_tix | apply State.put_tix | apply State.emit_tix | intro _ _ _
      | intro _ _ | intro _ | split)

theorem State.drainCqN_tix {z s : State} {i n : Nat} (h : Tix z s) : Tix z (s.drainCqN i n) := by
  induction n generalizing s with
  | zero => exact h
  | succ n ih =>
    unfold State.drainCqN
    repeat' (first
      | with_reducible assumption
      | with_reducible apply ih
      | with_reducible apply State.writeCq_tix
      | split)

theorem State.drainCq_tix {z : State} {s : State} {i : ℕ} (h : Tix z s) :
    Tix z (State.drainCq s i) := by
  unfold State.drainCq
  with_reducible
    repeat' (first
      | assumption | apply State.drainCqN_tix)

theorem State.noteHold_tix {z : State} {s : State} {i : ℕ} (h : Tix z s) :
    Tix z (State.noteHold s i) := by
  unfold State.noteHold
  try dsimp only
  with_reducible
    repeat' (first
      | assumption | apply State.bump_tix | split)

theorem State.postCq_tix {z : State} {s : State} {i : ℕ} {c : Completion} (h : Tix z s) :
    Tix z (State.postCq s i c) := by
  unfold State.postCq
  with_reducible
    repeat' (first
      | assumption | apply State.drainCq_tix | apply State.noteHold_tix)

theorem State.outPayload_tix {z : State} {s : State} {p : Packet} {bs : Bytes} (h : Tix z s) :
    Tix z (State.outPayload s p bs) := by
  unfold State.outPayload
  with_reducible
    repeat' (first
      | assumption | apply State.d2h_tix)

theorem State.emitToken_tix {z s : State} {a : Nat} {bs : Bytes} (h : Tix z s) : Tix z (s.emitToken a bs).1 := by
  unfold State.emitToken
  split
  · split
    · exact h
    · exact h
  · exact h

theorem State.writeTr_tix {z : State} {s : State} {j : ℕ} {t : TokenRec} (h : Tix z s) :
    Tix z (State.writeTr s j t) := by
  unfold State.writeTr
  try dsimp only
  with_reducible
    repeat' (first
      | assumption | apply State.emitToken_tix | apply State.recordWritten_tix | apply State.put_tix
      | (refine Tix.fst (by assumption) ?_) | split)

end Sys2Proof.Machine
end

