-- ==== Sys2Proof/Laws/Packets.lean ====
section
/-!
SUPPORT. A packet that the lead takes while no other is without its final completion: its ticket, and what becomes of it.
-/

namespace Sys2Proof.Machine

/-- With no packet open nothing goes on by itself. -/
theorem State.settle_idle {s : State} (h : s.que.tickets = []) : s.settle = s := by
  simp [State.settle, State.settleN, h]

/-- A command on a device with no packet open has its effect and nothing follows. -/
theorem State.act_idle {s : State} {f : State → State} (a : s.alive = true) (h : (f s).que.tickets = []) :
    s.act f = .next { f s with pending := s.pending } := by
  simp [State.act, State.whenAlive, State.become, a, State.settle_idle h]

/-- The state in which a packet's ticket is the only one. -/
def State.holding (s : State) (t : Ticket) : State := { s.counted with que := { s.counted.que with tickets := [t] } }

@[simp] theorem State.holding_ticket (s : State) (t : Ticket) : (s.holding t).ticket? t.no = some t := by
  simp [State.holding, State.ticket?]

@[simp] theorem State.holding_get (s : State) (t : Ticket) (f : Field) : (s.holding t).get f = s.get f := rfl

/-- The checks read the registers and the schedule alone. -/
theorem commonCheck_holding (s : State) (t : Ticket) (p : Packet) : commonCheck (s.holding t) p = commonCheck s p := rfl

theorem readsPayload_holding (s : State) (t : Ticket) (p : Packet) : readsPayload (s.holding t) p = readsPayload s p := rfl

theorem State.takeIn_holding {s : State} {p : Packet} (img : Option ModelImage) (h : s.takes p) :
    s.takeIn p img = (s.holding (s.nextTicket p none img), s.que.nextNo, true) := by
  obtain ⟨_, _, q, c⟩ := h
  have e : commonCheck (s.holding (s.nextTicket p none img)) p = none := c
  simp only [State.takeIn, State.openTicket, q]
  change (match commonCheck (s.holding (s.nextTicket p none img)) p with
    | some (st, k) => _ | none => (s.holding (s.nextTicket p none img), s.que.nextNo, true)) = _
  rw [e]

theorem State.launch_holding (s : State) (t : Ticket) : (s.holding t).launch t.no = (s.holding t).runHost t := by
  have : (s.holding t).blocked t = false := by
    simp [State.blocked, State.earlier, State.holding]
  simp only [State.launch, State.holding_ticket, this]
  rfl

/-- A packet without an in payload runs with its ticket the only one. -/
theorem State.submit_holding {s : State} {p : Packet} {pay : Option Bytes} {img : Option ModelImage} (h : s.takes p)
    (r : readsPayload s p = false) :
    s.submit p pay img = (s.holding (s.nextTicket p none img)).runHost (s.nextTicket p none img) := by
  have e := State.takeIn_holding img h
  have r' : readsPayload (s.holding (s.nextTicket p none img)) p = false := r
  have l := State.launch_holding s (s.nextTicket p none img)
  rw [State.submit, h.2.1, e]
  simp only [r']
  exact l

/-- What is left when the only packet open gets its final completion. -/
theorem State.finish_only {s : State} {t : Ticket} {i : Nat} (a : Answer) (h : s.que.tickets = [t]) (o : t.origin = .host i) :
    s.finish t.no a = ({ s with que := { s.que with tickets := [] } }).postCq i
      ⟨t.packet.tag, t.packet.opcode, a.status, true, a.detail, a.device.getD s.self, a.result0, a.result1⟩ := by
  have e : s.ticket? t.no = some t := by simp [State.ticket?, h]
  simp only [State.finish, e, o, h]
  simp
  rfl

theorem State.completed_tickets (s : State) (p : Packet) (a : Answer) : (s.completed p a).que.tickets = s.que.tickets :=
  State.postCq_tix (z := s) rfl

/-- With no packet open before, the state with the one ticket is the accepted one. -/
theorem State.holding_accepted {s : State} (p : Packet) (pay : Option Bytes) (img : Option ModelImage) (h : s.que.tickets = []) :
    s.holding (s.nextTicket p pay img) = s.accepted p pay img := by
  simp [State.holding, State.accepted, State.counted, h]

/-- Without its ticket the accepted state is the one in which one more packet has been taken. -/
theorem State.holding_empty {s : State} (t : Ticket) (h : s.que.tickets = []) :
    { s.holding t with que := { (s.holding t).que with tickets := [] } } = s.counted := by
  simp [State.holding, State.counted, ← h]

/-- A packet without an in payload that the lead takes: what answers it. -/
theorem State.act_submit {s : State} {p : Packet} {pay : Option Bytes} {img : Option ModelImage} (h : s.takes p)
    (r : readsPayload s p = false) :
    s.act (fun s => s.submit p pay img) =
      .next { ((s.holding (s.nextTicket p none img)).runHost (s.nextTicket p none img)).settle with pending := s.pending } := by
  rw [State.act, State.whenAlive_eq _ h.1, State.submit_holding h r]

end Sys2Proof.Machine
end

