-- ==== Sys2Proof/Laws/SameMem.lean ====
section
/-!
SUPPORT. Operations that leave device memory alone.
-/

namespace Sys2Proof.Machine

/-- Device memory is as in `z`. -/
abbrev SameMem (z s : State) : Prop := s.mem = z.mem

/-- The state of an answer that may be none. -/
structure SameMemO (z : State) (o : Option State) : Prop where
  kept : ∀ t, o = some t → SameMem z t

/-- The state of an answer that may be none, beside another value. -/
structure SameMemP {α : Type} (z : State) (o : Option (State × α)) : Prop where
  kept : ∀ t, o = some t → SameMem z t.1

theorem SameMem.parts {z t : State} (h : SameMem z t) : t.mem = z.mem := h

theorem SameMem.fst {α : Type} {z t : State} {x : α} {p : State × α} (e : p = (t, x)) (h : SameMem z p.1) : SameMem z t := by
  subst e
  exact h

theorem SameMem.ofSome {z t : State} {o : Option State} (e : o = some t) (h : SameMemO z o) : SameMem z t := h.kept t e

theorem SameMem.somePair {α : Type} {z t : State} {x : α} {o : Option (State × α)} (e : o = Option.some (t, x)) (h : SameMemP z o) :
    SameMem z t := h.kept _ e

theorem SameMemO.none (z : State) : SameMemO z none := ⟨by simp⟩

theorem SameMemO.of {z s : State} (h : SameMem z s) : SameMemO z (.some s) := by
  refine ⟨?_⟩
  rintro t ⟨⟩
  exact h

theorem SameMemO.getD {z s : State} {o : Option State} (h : SameMemO z o) (hs : SameMem z s) : SameMem z (o.getD s) := by
  cases o with
  | none => exact hs
  | some t => exact h.kept t rfl

theorem SameMemP.none {α : Type} (z : State) : SameMemP (α := α) z none := ⟨by simp⟩

theorem SameMemP.of {α : Type} {z s : State} {x : α} (h : SameMem z s) : SameMemP z (.some (s, x)) := by
  refine ⟨?_⟩
  rintro t ⟨⟩
  exact h

theorem SameMem.foldl {α : Type} {z s : State} {f : State → α → State} {l : List α} (h : SameMem z s)
    (hf : ∀ s x, SameMem z s → SameMem z (f s x)) : SameMem z (l.foldl f s) := by
  induction l generalizing s with
  | nil => exact h
  | cons x l ih => exact ih (hf s x h)

theorem SameMem.foldlPair {α β : Type} {z : State} {p : State × β} {f : State × β → α → State × β} {l : List α} (h : SameMem z p.1)
    (hf : ∀ p x, SameMem z p.1 → SameMem z (f p x).1) : SameMem z (l.foldl f p).1 := by
  induction l generalizing p with
  | nil => exact h
  | cons x l ih => exact ih (hf p x h)

theorem SameMemO.foldl {α : Type} {z : State} {o : Option State} {f : Option State → α → Option State} {l : List α}
    (h : SameMemO z o) (hf : ∀ o x, SameMemO z o → SameMemO z (f o x)) : SameMemO z (l.foldl f o) := by
  induction l generalizing o with
  | nil => exact h
  | cons x l ih => exact ih (hf o x h)

theorem SameMemP.foldl {α β : Type} {z : State} {o : Option (State × β)} {f : Option (State × β) → α → Option (State × β)}
    {l : List α} (h : SameMemP z o) (hf : ∀ o x, SameMemP z o → SameMemP z (f o x)) : SameMemP z (l.foldl f o) := by
  induction l generalizing o with
  | nil => exact h
  | cons x l ih => exact ih (hf o x h)

theorem SameMemO.map {α : Type} {z : State} {o : Option α} {f : α → State} (hf : ∀ x, SameMem z (f x)) : SameMemO z (o.map f) := by
  refine ⟨fun t e => ?_⟩
  obtain ⟨x, _, rfl⟩ := Option.map_eq_some_iff.1 e
  exact hf x

theorem SameMemO.mapPair {β : Type} {z : State} {o : Option (State × β)} {f : State × β → State} (h : SameMemP z o)
    (hf : ∀ p, SameMem z p.1 → SameMem z (f p)) : SameMemO z (o.map f) := by
  refine ⟨fun t e => ?_⟩
  obtain ⟨x, k, rfl⟩ := Option.map_eq_some_iff.1 e
  exact hf x (h.kept x k)

theorem SameMemO.mapState {z : State} {o : Option State} {f : State → State} (h : SameMemO z o)
    (hf : ∀ s, SameMem z s → SameMem z (f s)) : SameMemO z (o.map f) := by
  refine ⟨fun t e => ?_⟩
  obtain ⟨x, k, rfl⟩ := Option.map_eq_some_iff.1 e
  exact hf x (h.kept x k)

theorem SameMemP.map {α β : Type} {z : State} {o : Option α} {f : α → State × β} (hf : ∀ x, SameMem z (f x).1) :
    SameMemP z (o.map f) := by
  refine ⟨fun t e => ?_⟩
  obtain ⟨x, _, rfl⟩ := Option.map_eq_some_iff.1 e
  exact hf x

theorem SameMemP.mapPair {β γ : Type} {z : State} {o : Option (State × β)} {f : State × β → State × γ} (h : SameMemP z o)
    (hf : ∀ p, SameMem z p.1 → SameMem z (f p).1) : SameMemP z (o.map f) := by
  refine ⟨fun t e => ?_⟩
  obtain ⟨x, k, rfl⟩ := Option.map_eq_some_iff.1 e
  exact hf x (h.kept x k)

theorem State.put_same_mem {z s : State} {f : Field} {v : Nat} (h : SameMem z s) : SameMem z (s.put f v) := h

theorem State.poisonRange_same_mem {z s : State} {a n : Nat} (h : SameMem z s) : SameMem z (s.poisonRange a n) := h

theorem State.draw_same_mem {z s : State} (h : SameMem z s) : SameMem z s.draw := h

theorem State.emit_same_mem {z s : State} {o : Output} (h : SameMem z s) : SameMem z (s.emit o) := h

end Sys2Proof.Machine
end

