-- ==== Sys2Proof/Laws/SameMemOps.lean ====
section
/-!
SUPPORT. Operations that leave device memory alone: the operations of Machine/Ops.lean.
-/

set_option linter.all false

namespace Sys2Proof.Machine

theorem State.recordWritten_same_mem {z : State} {s : State} {v : ℕ} (h : SameMem z s) :
    SameMem z (State.recordWritten s v) := by
  unfold State.recordWritten
  with_reducible
    repeat' (first
      | assumption | split)

theorem State.bump_same_mem {z : State} {s : State} {f : Field} {n : optParam ℕ 1} (h : SameMem z s) :
    SameMem z (State.bump s f n) := by
  unfold State.bump
  with_reducible
    repeat' (first
      | assumption | apply State.put_same_mem)

theorem State.putBit_same_mem {z : State} {s : State} {f : Field} {b : Bool} (h : SameMem z s) :
    SameMem z (State.putBit s f b) := by
  unfold State.putBit
  with_reducible
    repeat' (first
      | assumption | apply State.put_same_mem)

theorem State.d2h_same_mem {z : State} {s : State} {o : Output} (h : SameMem z s) :
    SameMem z (State.d2h s o) := by
  unfold State.d2h
  with_reducible
    repeat' (first
      | assumption | apply State.emit_same_mem | split)

theorem State.message_same_mem {z : State} {s : State} {v : ℕ} (h : SameMem z s) :
    SameMem z (State.message s v) := by
  unfold State.message
  try dsimp only
  with_reducible
    repeat' (first
      | assumption | apply State.d2h_same_mem | split)

theorem State.wrapAdd_same_mem {z : State} {s : State} {f : Field} {n : optParam ℕ 1} (h : SameMem z s) :
    SameMem z (State.wrapAdd s f n) := by
  unfold State.wrapAdd
  with_reducible
    repeat' (first
      | assumption | apply State.put_same_mem)

end Sys2Proof.Machine
end

