-- ==== Sys2Proof/Laws/SameMemFrames.lean ====
section
/-!
SUPPORT. Operations that leave device memory alone: the operations of Machine/Frames.lean.
-/

set_option linter.all false

namespace Sys2Proof.Machine

theorem State.modLink_same_mem {z : State} {s : State} {p : ℕ} {f : Link → Link} (h : SameMem z s) :
    SameMem z (State.modLink s p f) := by
  unfold State.modLink
  assumption

theorem State.transmitSeq_same_mem {z : State} {s : State} {p : ℕ} {f : Frame} {owner : Option (ℕ × ℕ)} (h : SameMem z s) :
    SameMem z (State.transmitSeq s p f owner) := by
  unfold State.transmitSeq
  try dsimp only
  with_reducible
    repeat' (first
      | assumption | apply State.modLink_same_mem | apply State.emit_same_mem | intro _ _ _ | intro _ _ | intro _)

theorem State.drainLink_same_mem {z s : State} {p n : Nat} (h : SameMem z s) : SameMem z (s.drainLink p n) := by
  induction n generalizing s with
  | zero => exact h
  | succ n ih =>
    unfold State.drainLink
    repeat' (first
      | with_reducible assumption
      | with_reducible apply ih
      | with_reducible apply State.transmitSeq_same_mem
      | with_reducible apply State.modLink_same_mem
      | split)

theorem State.sendSeq_same_mem {z : State} {s : State} {p : ℕ} {f : Frame} {owner : optParam (Option (ℕ × ℕ)) none} (h : SameMem z s) :
    SameMem z (State.sendSeq s p f owner) := by
  unfold State.sendSeq
  try dsimp only
  with_reducible
    repeat' (first
      | assumption | apply State.modLink_same_mem | apply State.drainLink_same_mem | intro _ _ _ | intro _ _ | intro _)

theorem State.nonce_same_mem {z : State} {s : State} {i : ℕ} {tile : ℕ} (h : SameMem z s) :
    SameMem z (State.nonce s i tile) := by
  unfold State.nonce
  assumption

theorem State.sendFragments_same_mem {z : State} {s : State} {p : ℕ} {m : CtrlMsg} (h : SameMem z s) :
    SameMem z (State.sendFragments s p m) := by
  unfold State.sendFragments
  try dsimp only
  with_reducible
    repeat' (first
      | assumption | apply State.sendSeq_same_mem | apply State.nonce_same_mem | apply State.emit_same_mem | apply SameMem.foldl
      | intro _ _ _ | intro _ _ | intro _ | split)

theorem State.transmit_same_mem {z : State} {s : State} {p : ℕ} {f : Frame} (h : SameMem z s) :
    SameMem z (State.transmit s p f) := by
  unfold State.transmit
  with_reducible
    repeat' (first
      | assumption | apply State.emit_same_mem)

theorem State.acknowledge_same_mem {z : State} {s : State} {p : ℕ} {ack : ℕ} (h : SameMem z s) :
    SameMem z (State.acknowledge s p ack) := by
  unfold State.acknowledge
  try dsimp only
  with_reducible
    repeat' (first
      | assumption | apply State.modLink_same_mem | apply State.drainLink_same_mem | apply State.put_same_mem | intro _ _ _
      | intro _ _ | intro _ | split)

theorem State.sendNak_same_mem {z : State} {s : State} {p : ℕ} (h : SameMem z s) :
    SameMem z (State.sendNak s p) := by
  unfold State.sendNak
  with_reducible
    repeat' (first
      | assumption | apply State.modLink_same_mem | apply State.bump_same_mem | apply State.transmit_same_mem | intro _ _ _
      | intro _ _ | intro _ | split)

end Sys2Proof.Machine
end

