-- ==== Sys2Proof/Laws/SameMemControl.lean ====
section
/-!
SUPPORT. Operations that leave device memory alone: the operations of Machine/Control.lean.
-/

set_option linter.all false

namespace Sys2Proof.Machine

theorem State.sendPort_same_mem {z : State} {s : State} {port : Option ℕ} {dst : ℕ} {body : CtrlBody} (h : SameMem z s) :
    SameMem z (State.sendPort s port dst body) := by
  unfold State.sendPort
  try dsimp only
  with_reducible
    repeat' (first
      | assumption | apply State.sendFragments_same_mem | split)

theorem State.sendCtrl_same_mem {z : State} {s : State} {dst : ℕ} {body : CtrlBody} (h : SameMem z s) :
    SameMem z (State.sendCtrl s dst body) := by
  unfold State.sendCtrl
  with_reducible
    repeat' (first
      | assumption | apply State.sendPort_same_mem)

theorem State.sendAll_same_mem {z : State} {s : State} {dsts : List ℕ} {body : CtrlBody} (h : SameMem z s) :
    SameMem z (State.sendAll s dsts body) := by
  unfold State.sendAll
  with_reducible
    repeat' (first
      | assumption | apply State.sendCtrl_same_mem | apply SameMem.foldl | intro _ _ _ | intro _ _ | intro _)

end Sys2Proof.Machine
end

