-- ==== Sys2Proof/Laws/SameMemRings.lean ====
section
/-!
SUPPORT. Operations that leave device memory alone: the operations of Machine/Rings.lean.
-/

set_option linter.all false

namespace Sys2Proof.Machine

theorem State.writeCq_same_mem {z : State} {s : State} {i : ℕ} {c : Completion} (h : SameMem z s) :
    SameMem z (State.writeCq s i c) := by
  unfold State.writeCq
  try dsimp only
  with_reducible
    repeat' (first
      | assumption | apply State.recordWritten_same_mem | apply State.put_same_mem | apply State.emit_same_mem | intro _ _ _
      | intro _ _ | intro _ | split)

theorem State.drainCqN_same_mem {z s : State} {i n : Nat} (h : SameMem z s) : SameMem z (s.drainCqN i n) := by
  induction n generalizing s with
  | zero => exact h
  | succ n ih =>
    unfold State.drainCqN
    repeat' (first
      | with_reducible assumption
      | with_reducible apply ih
      | with_reducible apply State.writeCq_same_mem
      | split)

theorem State.drainCq_same_mem {z : State} {s : State} {i : ℕ} (h : SameMem z s) :
    SameMem z (State.drainCq s i) := by
  unfold State.drainCq
  with_reducible
    repeat' (first
      | assumption | apply State.drainCqN_same_mem)

theorem State.noteHold_same_mem {z : State} {s : State} {i : ℕ} (h : SameMem z s) :
    SameMem z (State.noteHold s i) := by
  unfold State.noteHold
  try dsimp only
  with_reducible
    repeat' (first
      | assumption | apply State.bump_same_mem | split)

theorem State.postCq_same_mem {z : State} {s : State} {i : ℕ} {c : Completion} (h : SameMem z s) :
    SameMem z (State.postCq s i c) := by
  unfold State.postCq
  with_reducible
    repeat' (first
      | assumption | apply State.drainCq_same_mem | apply State.noteHold_same_mem)

theorem State.finish_same_mem {z : State} {s : State} {no : ℕ} {a : Answer} (h : SameMem z s) :
    SameMem z (State.finish s no a) := by
  unfold State.finish
  try dsimp only
  with_reducible
    repeat' (first
      | assumption | apply State.sendCtrl_same_mem | apply State.postCq_same_mem | apply SameMemO.getD | intro _ _ _ | intro _ _
      | intro _ | split)

theorem State.finishWith_same_mem {z : State} {s : State} {no : ℕ} {st : Status} {detail : optParam ℕ 0} (h : SameMem z s) :
    SameMem z (State.finishWith s no st detail) := by
  unfold State.finishWith
  with_reducible
    repeat' (first
      | assumption | apply State.finish_same_mem)

theorem State.mapTicket_same_mem {z : State} {s : State} {no : ℕ} {f : Ticket → Ticket} (h : SameMem z s) :
    SameMem z (State.mapTicket s no f) := by
  unfold State.mapTicket
  with_reducible
    repeat' (first
      | assumption | intro _ _ _ | intro _ _ | intro _ | split)

theorem State.outPayload_same_mem {z : State} {s : State} {p : Packet} {bs : Bytes} (h : SameMem z s) :
    SameMem z (State.outPayload s p bs) := by
  unfold State.outPayload
  with_reducible
    repeat' (first
      | assumption | apply State.d2h_same_mem)

theorem State.markPending_same_mem {z : State} {s : State} {no : ℕ} (h : SameMem z s) :
    SameMem z (State.markPending s no) := by
  unfold State.markPending
  try dsimp only
  with_reducible
    repeat' (first
      | assumption | apply State.postCq_same_mem | apply State.mapTicket_same_mem | intro _ _ _ | intro _ _ | intro _ | split)

theorem State.openTicket_same_mem {z : State} {s : State} {o : Origin} {p : Packet} {pay : Option Bytes} {img : Option ModelImage} (h : SameMem z s) :
    SameMem z (State.openTicket s o p pay img).1 := by
  unfold State.openTicket
  try dsimp only
  with_reducible
    repeat' (first
      | assumption | (refine SameMem.fst (by assumption) ?_))

theorem State.emitToken_same_mem {z s : State} {a : Nat} {bs : Bytes} (h : SameMem z s) : SameMem z (s.emitToken a bs).1 := by
  unfold State.emitToken
  split
  · split
    · exact h
    · exact h
  · exact h

theorem State.writeTr_same_mem {z : State} {s : State} {j : ℕ} {t : TokenRec} (h : SameMem z s) :
    SameMem z (State.writeTr s j t) := by
  unfold State.writeTr
  try dsimp only
  with_reducible
    repeat' (first
      | assumption | apply State.emitToken_same_mem | apply State.recordWritten_same_mem | apply State.put_same_mem
      | (refine SameMem.fst (by assumption) ?_) | split)

end Sys2Proof.Machine
end

