-- ==== Sys2Proof/Laws/SameMemForward.lean ====
section
/-!
SUPPORT. Operations that leave device memory alone: the operations of Machine/Forward.lean.
-/

set_option linter.all false

namespace Sys2Proof.Machine

theorem State.awaitSelf_same_mem {z : State} {s : State} {no : ℕ} (h : SameMem z s) :
    SameMem z (State.awaitSelf s no) := by
  unfold State.awaitSelf
  with_reducible
    repeat' (first
      | assumption | apply State.mapTicket_same_mem | intro _ _ _ | intro _ _ | intro _)

theorem State.addReply_same_mem {z : State} {s : State} {no : ℕ} {r : Reply} (h : SameMem z s) :
    SameMem z (State.addReply s no r) := by
  unfold State.addReply
  with_reducible
    repeat' (first
      | assumption | apply State.mapTicket_same_mem | intro _ _ _ | intro _ _ | intro _)

theorem State.reply_same_mem {z : State} {s : State} {no : ℕ} {a : Answer} (h : SameMem z s) :
    SameMem z (State.reply s no a) := by
  unfold State.reply
  with_reducible
    repeat' (first
      | assumption | apply State.finish_same_mem | apply State.addReply_same_mem | intro _ _ _ | intro _ _ | intro _ | split)

theorem State.replyWith_same_mem {z : State} {s : State} {no : ℕ} {st : Status} {detail : optParam ℕ 0} (h : SameMem z s) :
    SameMem z (State.replyWith s no st detail) := by
  unfold State.replyWith
  with_reducible
    repeat' (first
      | assumption | apply State.reply_same_mem)

theorem State.forwardEach_same_mem {z : State} {s : State} {no : ℕ} {p : Packet} {pay : ℕ → Option Bytes} {dsts : List ℕ} {img : optParam (Option ModelImage) none} (h : SameMem z s) :
    SameMem z (State.forwardEach s no p pay dsts img) := by
  unfold State.forwardEach
  try dsimp only
  with_reducible
    repeat' (first
      | assumption | apply State.sendCtrl_same_mem | apply State.mapTicket_same_mem | apply State.addReply_same_mem
      | apply SameMem.foldl | intro _ _ _ | intro _ _ | intro _ | split)

theorem State.forwardTo_same_mem {z : State} {s : State} {no : ℕ} {p : Packet} {pay : Option Bytes} {dsts : List ℕ} {img : optParam (Option ModelImage) none} (h : SameMem z s) :
    SameMem z (State.forwardTo s no p pay dsts img) := by
  unfold State.forwardTo
  with_reducible
    repeat' (first
      | assumption | apply State.forwardEach_same_mem | intro _ _ _ | intro _ _ | intro _)

end Sys2Proof.Machine
end

