-- ==== Sys2Proof/Laws/SameMemErrors.lean ====
section
/-!
SUPPORT. Operations that leave device memory alone: the operations of Machine/Errors.lean.
-/

set_option linter.all false

namespace Sys2Proof.Machine

theorem State.errorIrq_same_mem {z : State} {s : State} {cls : ℕ} (h : SameMem z s) :
    SameMem z (State.errorIrq s cls) := by
  unfold State.errorIrq
  with_reducible
    repeat' (first
      | assumption | apply State.message_same_mem | split)

theorem State.driveFault_same_mem {z : State} {s : State} {e : Event} (h : SameMem z s) :
    SameMem z (State.driveFault s e) := by
  unfold State.driveFault
  with_reducible
    repeat' (first
      | assumption | split)

theorem State.reportEvent_same_mem {z : State} {s : State} {new : Bool} {r : ErrRec} (h : SameMem z s) :
    SameMem z (State.reportEvent s new r) := by
  unfold State.reportEvent
  with_reducible
    repeat' (first
      | assumption | apply State.emit_same_mem | split)

theorem State.appendRecord_same_mem {z : State} {s : State} {r : ErrRec} (h : SameMem z s) :
    SameMem z (State.appendRecord s r).1 := by
  unfold State.appendRecord
  try dsimp only
  with_reducible
    repeat' (first
      | assumption | apply State.bump_same_mem | apply State.put_same_mem | intro _ _ _ | intro _ _ | intro _
      | (refine SameMem.fst (by assumption) ?_) | split)

theorem State.raise_same_mem {z : State} {s : State} {e : Event} (h : SameMem z s) :
    SameMem z (State.raise s e) := by
  unfold State.raise
  try dsimp only
  with_reducible
    repeat' (first
      | assumption | apply State.sendCtrl_same_mem | apply State.errorIrq_same_mem | apply State.driveFault_same_mem
      | apply State.put_same_mem | apply State.reportEvent_same_mem | apply State.appendRecord_same_mem
      | (refine SameMem.fst (by assumption) ?_) | split)

theorem State.logForwarded_same_mem {z : State} {s : State} {r : ErrRec} (h : SameMem z s) :
    SameMem z (State.logForwarded s r) := by
  unfold State.logForwarded
  try dsimp only
  with_reducible
    repeat' (first
      | assumption | apply State.errorIrq_same_mem | apply State.reportEvent_same_mem | apply State.appendRecord_same_mem
      | (refine SameMem.fst (by assumption) ?_) | split)

end Sys2Proof.Machine
end

