-- ==== Sys2Proof/Laws/SameMemMemory.lean ====
section
/-!
SUPPORT. Operations that leave device memory alone: the operations of Machine/Memory.lean.
-/

set_option linter.all false

namespace Sys2Proof.Machine

theorem State.modStack_same_mem {z : State} {s : State} {n : ℕ} {f : Stack → Stack} (h : SameMem z s) :
    SameMem z (State.modStack s n f) := by
  unfold State.modStack
  assumption

theorem State.setSeg_same_mem {z : State} {s : State} {g : Seg} {v : ℕ} (h : SameMem z s) :
    SameMem z (State.setSeg s g v) := by
  unfold State.setSeg
  with_reducible
    repeat' (first
      | assumption | apply State.put_same_mem)

theorem State.wake_same_mem {z : State} {s : State} {g : Seg} (h : SameMem z s) :
    SameMem z (State.wake s g) := by
  unfold State.wake
  with_reducible
    repeat' (first
      | assumption | apply State.bump_same_mem | apply State.setSeg_same_mem | split)

theorem State.gate_same_mem {z : State} {s : State} {tile : ℕ} {inst : Option ℕ} {l : List Acc} (h : SameMem z s) :
    SameMem z (State.gate s tile inst l).1 := by
  unfold State.gate
  try dsimp only
  with_reducible
    repeat' (first
      | assumption | apply State.bump_same_mem | apply State.wake_same_mem | apply SameMem.foldl | apply SameMem.foldlPair
      | intro _ _ _ | intro _ _ | intro _ | (refine SameMem.fst (by assumption) ?_) | split)

theorem State.bankStall_same_mem {z : State} {s : State} {x : ℕ × Bool × ℕ} (h : SameMem z s) :
    SameMem z (State.bankStall s x) := by
  unfold State.bankStall
  with_reducible
    repeat' (first
      | assumption | apply State.wrapAdd_same_mem | split)

theorem State.eccFault_same_mem {z : State} {s : State} {a : ℕ} {src : ℕ} (h : SameMem z s) :
    SameMem z (State.eccFault s a src) := by
  unfold State.eccFault
  try dsimp only
  with_reducible
    repeat' (first
      | assumption | apply State.put_same_mem | apply State.putBit_same_mem | split)

theorem State.eccEvent_same_mem {z : State} {src : ℕ} {s : State} {e : ℕ × Bool} (h : SameMem z s) :
    SameMem z (State.eccEvent src s e) := by
  unfold State.eccEvent
  with_reducible
    repeat' (first
      | assumption | apply State.bump_same_mem | apply State.eccFault_same_mem | apply State.poisonRange_same_mem
      | apply State.raise_same_mem | split)

theorem State.memReport_same_mem {z : State} {s : State} {src : ℕ} {m : MemReport} (h : SameMem z s) :
    SameMem z (State.memReport s src m) := by
  unfold State.memReport
  with_reducible
    repeat' (first
      | assumption | apply State.bankStall_same_mem | apply State.eccEvent_same_mem | apply SameMem.foldl | intro _ _ _
      | intro _ _ | intro _)

theorem State.countFarPoison_same_mem {z : State} {s : State} {a : ℕ} {n : ℕ} (h : SameMem z s) :
    SameMem z (State.countFarPoison s a n) := by
  unfold State.countFarPoison
  with_reducible
    repeat' (first
      | assumption | apply State.bump_same_mem | intro _ _ _ | intro _ _ | intro _ | split)

end Sys2Proof.Machine
end

