-- ==== Sys2Proof/Laws/SameMemTile.lean ====
section
/-!
SUPPORT. Operations that leave device memory alone: the operations of Machine/Tile.lean.
-/

set_option linter.all false

namespace Sys2Proof.Machine

theorem State.setSeq_same_mem {z : State} {s : State} {n : ℕ} {v : ℕ} (h : SameMem z s) :
    SameMem z (State.setSeq s n v) := by
  unfold State.setSeq
  with_reducible
    repeat' (first
      | assumption | apply State.put_same_mem)

theorem State.modTile_same_mem {z : State} {s : State} {n : ℕ} {f : Tile → Tile} (h : SameMem z s) :
    SameMem z (State.modTile s n f) := by
  unfold State.modTile
  assumption

theorem State.setQueue_same_mem {z : State} {s : State} {n : ℕ} {q : ℕ} {l : List Queued} (h : SameMem z s) :
    SameMem z (State.setQueue s n q l) := by
  unfold State.setQueue
  with_reducible
    repeat' (first
      | assumption | apply State.modTile_same_mem | intro _ _ _ | intro _ _ | intro _)

theorem State.noteDone_same_mem {z : State} {s : State} (h : SameMem z s) :
    SameMem z (State.noteDone s) := by
  unfold State.noteDone
  with_reducible
    repeat' (first
      | assumption | intro _ _ _ | intro _ _ | intro _ | split)

theorem State.retire_same_mem {z : State} {s : State} {n : ℕ} (h : SameMem z s) :
    SameMem z (State.retire s n) := by
  unfold State.retire
  try dsimp only
  with_reducible
    repeat' (first
      | assumption | apply State.setSeq_same_mem | apply State.noteDone_same_mem | apply State.modTile_same_mem | intro _ _ _
      | intro _ _ | intro _ | split)

theorem State.noteFailed_same_mem {z : State} {s : State} {i : ℕ} (h : SameMem z s) :
    SameMem z (State.noteFailed s i) := by
  unfold State.noteFailed
  with_reducible
    repeat' (first
      | assumption | split)

theorem State.signal_same_mem {z : State} {s : State} {n : ℕ} {c : ℕ} {k : optParam ℕ 1} (h : SameMem z s) :
    SameMem z (State.signal s n c k) := by
  unfold State.signal
  with_reducible
    repeat' (first
      | assumption | apply State.bump_same_mem)

theorem State.applySignal_same_mem {z : State} {s : State} {n : ℕ} {d : Bytes} (h : SameMem z s) :
    SameMem z (State.applySignal s n d) := by
  unfold State.applySignal
  with_reducible
    repeat' (first
      | assumption | apply State.signal_same_mem | split)

theorem State.skipQueue_same_mem {z : State} {s : State} {n : ℕ} {q : ℕ} (h : SameMem z s) :
    SameMem z (State.skipQueue s n q) := by
  unfold State.skipQueue
  try dsimp only
  with_reducible
    repeat' (first
      | assumption | apply State.setQueue_same_mem | apply State.applySignal_same_mem | apply SameMem.foldl | intro _ _ _
      | intro _ _ | intro _ | split)

theorem State.enterSkip_same_mem {z : State} {s : State} {n : ℕ} (h : SameMem z s) :
    SameMem z (State.enterSkip s n) := by
  unfold State.enterSkip
  try dsimp only
  with_reducible
    repeat' (first
      | assumption | apply State.retire_same_mem | apply State.setSeq_same_mem | apply State.skipQueue_same_mem | apply SameMem.foldl
      | intro _ _ _ | intro _ _ | intro _)

theorem State.stepFail_same_mem {z : State} {s : State} {n : ℕ} {idx : ℕ} {st : Status} (h : SameMem z s) :
    SameMem z (State.stepFail s n idx st) := by
  unfold State.stepFail
  try dsimp only
  with_reducible
    repeat' (first
      | assumption | apply State.bump_same_mem | apply State.noteFailed_same_mem | apply State.raise_same_mem
      | apply State.put_same_mem | apply State.putBit_same_mem | apply State.enterSkip_same_mem | apply State.sendAll_same_mem
      | apply State.modTile_same_mem | apply SameMem.foldl | intro _ _ _ | intro _ _ | intro _ | split)

theorem State.failHead_same_mem {z : State} {s : State} {n : ℕ} {q : ℕ} {st : Status} (h : SameMem z s) :
    SameMem z (State.failHead s n q st) := by
  unfold State.failHead
  with_reducible
    repeat' (first
      | assumption | apply State.setQueue_same_mem | apply State.retire_same_mem | apply State.stepFail_same_mem
      | apply State.applySignal_same_mem | split)

theorem State.failEvent_same_mem {z : State} {s : State} {n : ℕ} {q : ℕ} {e : Event} (h : SameMem z s) :
    SameMem z (State.failEvent s n q e) := by
  unfold State.failEvent
  with_reducible
    repeat' (first
      | assumption | apply State.raise_same_mem | apply State.failHead_same_mem)

theorem State.completeDesc_same_mem {z : State} {s : State} {n : ℕ} {d : Bytes} (h : SameMem z s) :
    SameMem z (State.completeDesc s n d) := by
  unfold State.completeDesc
  with_reducible
    repeat' (first
      | assumption | apply State.retire_same_mem | apply State.applySignal_same_mem)

theorem State.complete_same_mem {z : State} {s : State} {n : ℕ} {q : ℕ} (h : SameMem z s) :
    SameMem z (State.complete s n q) := by
  unfold State.complete
  with_reducible
    repeat' (first
      | assumption | apply State.setQueue_same_mem | apply State.completeDesc_same_mem | split)

theorem State.setHead_same_mem {z : State} {s : State} {n : ℕ} {q : ℕ} {h0 : Queued} (h : SameMem z s) :
    SameMem z (State.setHead s n q h0) := by
  unfold State.setHead
  with_reducible
    repeat' (first
      | assumption | apply State.setQueue_same_mem | split)

theorem State.restTiles_same_mem {z : State} {s : State} (h : SameMem z s) :
    SameMem z (State.restTiles s) := by
  unfold State.restTiles
  with_reducible
    repeat' (first
      | assumption | apply State.setSeq_same_mem | apply SameMem.foldl | intro _ _ _ | intro _ _ | intro _ | split)

theorem State.wantSpare_same_mem {z : State} {s : State} {n : ℕ} {e : ℕ} (h : SameMem z s) :
    SameMem z (State.wantSpare s n e) := by
  unfold State.wantSpare
  with_reducible
    repeat' (first
      | assumption | apply State.modTile_same_mem | intro _ _ _ | intro _ _ | intro _ | split)

theorem State.gated_same_mem {z : State} {s : State} {n : ℕ} {q : ℕ} {l : List Acc} {go : State → State} (h : SameMem z s) (h1 : ∀ y0, SameMem z y0 → SameMem z (go y0)) :
    SameMem z (State.gated s n q l go) := by
  unfold State.gated
  with_reducible
    repeat' (first
      | assumption | apply State.failEvent_same_mem | apply State.gate_same_mem | apply h1
      | (refine SameMem.fst (by assumption) ?_) | split)

theorem State.scratched_same_mem {z : State} {s : State} {n : ℕ} {q : ℕ} {l : List Acc} {go : State → State} (h : SameMem z s) (h1 : ∀ y0, SameMem z y0 → SameMem z (go y0)) :
    SameMem z (State.scratched s n q l go) := by
  unfold State.scratched
  with_reducible
    repeat' (first
      | assumption | apply State.gated_same_mem | apply State.failEvent_same_mem | apply h1 | intro _ _ _ | intro _ _
      | intro _ | split)

theorem State.fencedHead_same_mem {z : State} {s : State} {n : ℕ} {q : ℕ} (h : SameMem z s) :
    SameMem z (State.fencedHead s n q) := by
  unfold State.fencedHead
  try dsimp only
  with_reducible
    repeat' (first
      | assumption | apply State.bump_same_mem | apply State.setQueue_same_mem | apply State.retire_same_mem
      | apply State.modTile_same_mem | intro _ _ _ | intro _ _ | intro _ | split)

end Sys2Proof.Machine
end

