-- ==== Sys2Proof/Laws/SameMemGranary.lean ====
section
/-!
SUPPORT. Operations that leave device memory alone: the operations of Machine/Granary.lean.
-/

set_option linter.all false

namespace Sys2Proof.Machine

theorem State.atomStatus_same_mem {z : State} {s : State} {n : ℕ} {c : ℕ} {old : ℕ} {r : AtomResult} (h : SameMem z s) :
    SameMem z (State.atomStatus s n c old r) := by
  unfold State.atomStatus
  try dsimp only
  with_reducible
    repeat' (first
      | assumption | apply State.put_same_mem | apply State.putBit_same_mem)

theorem State.setGset_same_mem {z : State} {s : State} {n : ℕ} {k : ℕ} {g : GSet} (h : SameMem z s) :
    SameMem z (State.setGset s n k g) := by
  unfold State.setGset
  with_reducible
    repeat' (first
      | assumption | apply State.modTile_same_mem | intro _ _ _ | intro _ _ | intro _)

theorem State.useLine_same_mem {z : State} {s : State} {n : ℕ} {line : ℕ} {write : Bool} (h : SameMem z s) :
    SameMem z (State.useLine s n line write) := by
  unfold State.useLine
  try dsimp only
  with_reducible
    repeat' (first
      | assumption | apply State.setGset_same_mem | split)

theorem State.writeback_same_mem {z : State} {s : State} {n : ℕ} (h : SameMem z s) :
    SameMem z (State.writeback s n) := by
  unfold State.writeback
  with_reducible
    repeat' (first
      | assumption | apply State.wrapAdd_same_mem)

theorem State.install_same_mem {z : State} {s : State} {n : ℕ} {line : ℕ} {dirty : Bool} (h : SameMem z s) :
    SameMem z (State.install s n line dirty) := by
  unfold State.install
  try dsimp only
  with_reducible
    repeat' (first
      | assumption | apply State.writeback_same_mem | apply State.setGset_same_mem | apply State.useLine_same_mem | intro _ _ _
      | intro _ _ | intro _ | split)

theorem State.lookup_same_mem {z : State} {s : State} {n : ℕ} {line : ℕ} (h : SameMem z s) :
    SameMem z (State.lookup s n line).1 := by
  unfold State.lookup
  with_reducible
    repeat' (first
      | assumption | apply State.wrapAdd_same_mem | (refine SameMem.fst (by assumption) ?_) | split)

theorem State.flushGranary_same_mem {z : State} {s : State} {n : ℕ} (h : SameMem z s) :
    SameMem z (State.flushGranary s n) := by
  unfold State.flushGranary
  try dsimp only
  with_reducible
    repeat' (first
      | assumption | apply State.modTile_same_mem | apply State.wrapAdd_same_mem | intro _ _ _ | intro _ _ | intro _)

theorem State.atomRefuse_same_mem {z : State} {s : State} {n : ℕ} {window : Bool} {c : ℕ} {cause : ℕ} {addr : ℕ} (h : SameMem z s) :
    SameMem z (State.atomRefuse s n window c cause addr) := by
  unfold State.atomRefuse
  try dsimp only
  with_reducible
    repeat' (first
      | assumption | apply State.bump_same_mem | apply State.put_same_mem | apply State.putBit_same_mem | apply State.emit_same_mem
      | split)

theorem State.passLine_same_mem {z : State} {s : State} {line : ℕ} {write : Bool} (h : SameMem z s) :
    SameMem z (State.passLine s line write) := by
  unfold State.passLine
  with_reducible
    repeat' (first
      | assumption | apply State.useLine_same_mem | apply State.lookup_same_mem | (refine SameMem.fst (by assumption) ?_) | split)

theorem State.passRange_same_mem {z : State} {s : State} {a : ℕ} {n : ℕ} {write : Bool} (h : SameMem z s) :
    SameMem z (State.passRange s a n write) := by
  unfold State.passRange
  with_reducible
    repeat' (first
      | assumption | apply State.passLine_same_mem | apply SameMem.foldl | intro _ _ _ | intro _ _ | intro _ | split)

theorem State.tagError_same_mem {z : State} {s : State} {n : ℕ} {line : ℕ} (h : SameMem z s) :
    SameMem z (State.tagError s n line) := by
  unfold State.tagError
  try dsimp only
  with_reducible
    repeat' (first
      | assumption | apply State.poisonRange_same_mem | apply State.raise_same_mem | apply State.setGset_same_mem
      | apply SameMem.foldl | intro _ _ _ | intro _ _ | intro _ | split)

end Sys2Proof.Machine
end

