-- ==== Sys2Proof/Laws/SameMemMatrix.lean ====
section
/-!
SUPPORT. Operations that leave device memory alone: the operations of Machine/Matrix.lean.
-/

set_option linter.all false

namespace Sys2Proof.Machine

theorem State.plotDamage_same_mem {z : State} {s : State} {n : ℕ} {e : ℕ} {idx : ℕ} {a : ℕ} {cause : ℕ} {index : ℕ} {master : Bool} (h : SameMem z s) :
    SameMem z (State.plotDamage s n e idx a cause index master) := by
  unfold State.plotDamage
  try dsimp only
  with_reducible
    repeat' (first
      | assumption | apply State.bump_same_mem | apply State.put_same_mem | apply State.putBit_same_mem | split)

theorem State.plotFails_same_mem {z : State} {s : State} {n : ℕ} {e : ℕ} {h0 : Queued} {a : ℕ} {master : ℕ} {resume : ℕ} (h : SameMem z s) :
    SameMem z (State.plotFails s n e h0 a master resume) := by
  unfold State.plotFails
  with_reducible
    repeat' (first
      | assumption | apply State.modTile_same_mem | apply State.failHead_same_mem | apply State.setHead_same_mem | intro _ _ _
      | intro _ _ | intro _ | split)

theorem State.setSlot_same_mem {z : State} {s : State} {n : ℕ} {e : ℕ} {k : ℕ} {x : Slot} (h : SameMem z s) :
    SameMem z (State.setSlot s n e k x) := by
  unfold State.setSlot
  try dsimp only
  with_reducible
    repeat' (first
      | assumption | apply State.modTile_same_mem | intro _ _ _ | intro _ _ | intro _)

theorem State.satColumns_same_mem {z : State} {s : State} {n : ℕ} {base : ℕ} {cols : List ℕ} (h : SameMem z s) :
    SameMem z (State.satColumns s n base cols) := by
  unfold State.satColumns
  with_reducible
    repeat' (first
      | assumption | apply State.bump_same_mem | apply SameMem.foldl | intro _ _ _ | intro _ _ | intro _)

theorem State.countWriteOut_same_mem {z : State} {s : State} {n : ℕ} {e : ℕ} {d : Bytes} {x : Slot} (h : SameMem z s) :
    SameMem z (State.countWriteOut s n e d x) := by
  unfold State.countWriteOut
  try dsimp only
  with_reducible
    repeat' (first
      | assumption | apply State.bump_same_mem | apply State.satColumns_same_mem | apply State.put_same_mem | split)

theorem State.runPass_same_mem {z : State} {s : State} {n : ℕ} {e : ℕ} {m : Mm} {p : ℕ × ℕ × List ℕ} {startK : ℕ} (h : SameMem z s) :
    SameMem z (State.runPass s n e m p startK).1 := by
  unfold State.runPass
  try dsimp only
  with_reducible
    repeat' (first
      | assumption | apply State.bump_same_mem | apply State.setSlot_same_mem | apply State.modTile_same_mem
      | apply State.wrapAdd_same_mem | apply SameMem.foldl | apply SameMem.foldlPair | intro _ _ _ | intro _ _ | intro _
      | (refine SameMem.fst (by assumption) ?_) | split)

theorem State.engineFault_same_mem {z : State} {s : State} {n : ℕ} {q : ℕ} {e : ℕ} {cause : ℕ} {slot : ℕ} {h0 : Queued} (h : SameMem z s) :
    SameMem z (State.engineFault s n q e cause slot h0) := by
  unfold State.engineFault
  try dsimp only
  with_reducible
    repeat' (first
      | assumption | apply State.wantSpare_same_mem | apply State.raise_same_mem | apply State.put_same_mem
      | apply State.putBit_same_mem | apply State.failHead_same_mem | split)

theorem State.engineCounts_same_mem {z : State} {s : State} {n : ℕ} {e : ℕ} {rep : EngineReport} (h : SameMem z s) :
    SameMem z (State.engineCounts s n e rep) := by
  unfold State.engineCounts
  try dsimp only
  with_reducible
    repeat' (first
      | assumption | apply State.bump_same_mem | apply State.wrapAdd_same_mem)

theorem State.writeOutTimeout_same_mem {z : State} {s : State} {n : ℕ} {e : ℕ} (h : SameMem z s) :
    SameMem z (State.writeOutTimeout s n e) := by
  unfold State.writeOutTimeout
  with_reducible
    repeat' (first
      | assumption | apply State.engineFault_same_mem | split)

end Sys2Proof.Machine
end

