-- ==== Sys2Proof/Laws/SameMemVector.lean ====
section
/-!
SUPPORT. Operations that leave device memory alone: the operations of Machine/Vector.lean.
-/

set_option linter.all false

namespace Sys2Proof.Machine

/-- What the end of a VEC's body keeps. -/
def SameMemV (z : State) : VecEnd → Prop
  | .done s => SameMem z s
  | _ => True

theorem SameMemV.of {z s : State} {v : VecEnd} (e : v = .done s) (h : SameMemV z v) : SameMem z s := by
  subst e
  exact h

theorem SameMemV.done {z s : State} (h : SameMem z s) : SameMemV z (.done s) := h

theorem SameMemV.tableFault (z : State) : SameMemV z .tableFault := trivial

theorem SameMemV.wordFault (z : State) : SameMemV z .wordFault := trivial

theorem State.vec_same_mem {z : State} {s : State} {n : ℕ} {code : ℕ} {stalls : ℕ} {mem : MemReport} {body : State → Queued → VecEnd} (h : SameMem z s) (h1 : ∀ y0 y1, SameMem z y0 → SameMemV z (body y0 y1)) :
    SameMem z (State.vec s n code stalls mem body) := by
  unfold State.vec
  try dsimp only
  with_reducible
    repeat' (first
      | assumption | apply State.gated_same_mem | apply State.bump_same_mem | apply State.failEvent_same_mem
      | apply State.complete_same_mem | apply State.memReport_same_mem | apply State.wrapAdd_same_mem | apply State.failHead_same_mem
      | apply h1 | (refine SameMemV.of (by assumption) ?_) | intro _ _ _ | intro _ _ | intro _ | split)

theorem vecTable_same_mem {z : State} {f : (Num → Num) →   State → Queued → VecEnd} {s : State} {h0 : Queued} (h1 : ∀ y s q, SameMem z s → SameMemV z (f y s q)) (h : SameMem z s) :
    SameMemV z (vecTable f s h0) := by
  unfold vecTable
  try dsimp only
  with_reducible
    repeat' (first
      | assumption | apply h1 | (refine SameMemV.of (by assumption) ?_) | apply SameMemV.done | apply SameMemV.tableFault
      | apply SameMemV.wordFault | split)

end Sys2Proof.Machine
end

