-- ==== Sys2Proof/Laws/SameMemPlan.lean ====
section
/-!
SUPPORT. Operations that leave device memory alone: the operations of Machine/Plan.lean.
-/

set_option linter.all false

namespace Sys2Proof.Machine

theorem State.stagePlan_same_mem {z : State} {s : State} {i : ℕ} {p : StepPlan} (h : SameMem z s) :
    SameMem z (State.stagePlan s i p) := by
  unfold State.stagePlan
  with_reducible
    repeat' (first
      | assumption | split)

end Sys2Proof.Machine
end

