-- ==== Sys2Proof/Laws/SameMemPower.lean ====
section
/-!
SUPPORT. Operations that leave device memory alone: the operations of Machine/Power.lean.
-/

set_option linter.all false

namespace Sys2Proof.Machine

theorem State.showPower_same_mem {z : State} {s : State} (h : SameMem z s) :
    SameMem z (State.showPower s) := by
  unfold State.showPower
  try dsimp only
  with_reducible
    repeat' (first
      | assumption | apply State.put_same_mem | apply SameMem.foldl | intro _ _ _ | intro _ _ | intro _)

theorem State.settleLevels_same_mem {z : State} {s : State} (h : SameMem z s) :
    SameMem z (State.settleLevels s) := by
  unfold State.settleLevels
  try dsimp only
  with_reducible
    repeat' (first
      | assumption | apply State.put_same_mem | apply SameMem.foldl | intro _ _ _ | intro _ _ | intro _ | split)

theorem State.hintDevice_same_mem {z : State} {s : State} {h0 : PowerHint} (h : SameMem z s) :
    SameMem z (State.hintDevice s h0) := by
  unfold State.hintDevice
  try dsimp only
  with_reducible
    repeat' (first
      | assumption | apply SameMem.foldl | intro _ _ _ | intro _ _ | intro _ | split)

theorem State.trip_same_mem {z : State} {s : State} {src : ℕ} {n : ℕ} {temp : ℕ} (h : SameMem z s) :
    SameMem z (State.trip s src n temp) := by
  unfold State.trip
  try dsimp only
  with_reducible
    repeat' (first
      | assumption | apply State.raise_same_mem | split)

theorem State.usePhase_same_mem {z : State} {s : State} {t : ℕ} {i : ℕ} {p : ℕ} (h : SameMem z s) :
    SameMem z (State.usePhase s t i p) := by
  unfold State.usePhase
  with_reducible
    repeat' (first
      | assumption | intro _ _ _ | intro _ _ | intro _ | split)

theorem State.predictFurrow_same_mem {z : State} {s : State} {t : ℕ} (h : SameMem z s) :
    SameMem z (State.predictFurrow s t) := by
  unfold State.predictFurrow
  try dsimp only
  with_reducible
    repeat' (first
      | assumption | apply State.usePhase_same_mem | apply State.putBit_same_mem | apply SameMem.foldl | intro _ _ _ | intro _ _
      | intro _ | split)

theorem State.learn_same_mem {z : State} {s : State} {i : ℕ} {o : Occur} (h : SameMem z s) :
    SameMem z (State.learn s i o) := by
  unfold State.learn
  try dsimp only
  with_reducible
    repeat' (first
      | assumption | apply State.draw_same_mem | intro _ _ _ | intro _ _ | intro _ | split)

theorem State.endOccur_same_mem {z : State} {s : State} {i : ℕ} (h : SameMem z s) :
    SameMem z (State.endOccur s i) := by
  unfold State.endOccur
  with_reducible
    repeat' (first
      | assumption | apply State.usePhase_same_mem | apply State.learn_same_mem | intro _ _ _ | intro _ _ | intro _ | split)

theorem State.endPhases_same_mem {z : State} {s : State} (h : SameMem z s) :
    SameMem z (State.endPhases s) := by
  unfold State.endPhases
  with_reducible
    repeat' (first
      | assumption | apply State.endOccur_same_mem | apply SameMem.foldl | intro _ _ _ | intro _ _ | intro _ | split)

theorem State.attribute_same_mem {z : State} {s : State} {fallow : Bool} (h : SameMem z s) :
    SameMem z (State.attribute s fallow) := by
  unfold State.attribute
  try dsimp only
  with_reducible
    repeat' (first
      | assumption | apply State.wrapAdd_same_mem | apply SameMem.foldl | intro _ _ _ | intro _ _ | intro _ | split)

theorem State.crossed_same_mem {z : State} {s : State} {src : ℕ} {n : ℕ} {old : ℕ} (h : SameMem z s) :
    SameMem z (State.crossed s src n old) := by
  unfold State.crossed
  try dsimp only
  with_reducible
    repeat' (first
      | assumption | apply State.emit_same_mem | intro _ _ _ | intro _ _ | intro _ | split)

theorem State.throttleTick_same_mem {z : State} {s : State} (h : SameMem z s) :
    SameMem z (State.throttleTick s) := by
  unfold State.throttleTick
  with_reducible
    repeat' (first
      | assumption | apply State.bump_same_mem | apply SameMem.foldl | intro _ _ _ | intro _ _ | intro _)

theorem State.setDemand_same_mem {z : State} {s : State} {src : ℕ} {n : ℕ} {l : ℕ} (h : SameMem z s) :
    SameMem z (State.setDemand s src n l) := by
  unfold State.setDemand
  assumption

theorem State.idleCap_same_mem {z : State} {s : State} (h : SameMem z s) :
    SameMem z (State.idleCap s) := by
  unfold State.idleCap
  try dsimp only
  with_reducible
    repeat' (first
      | assumption | apply State.settleLevels_same_mem | apply State.setDemand_same_mem | apply SameMem.foldl | intro _ _ _
      | intro _ _ | intro _ | split)

theorem State.prepare_same_mem {z : State} {s : State} {i : ℕ} {p : ℕ} (h : SameMem z s) :
    SameMem z (State.prepare s i p) := by
  unfold State.prepare
  try dsimp only
  with_reducible
    repeat' (first
      | assumption | intro _ _ _ | intro _ _ | intro _ | split)

theorem State.setGuard_same_mem {z : State} {s : State} {f : ℕ → ℕ} {left : ℕ} (h : SameMem z s) :
    SameMem z (State.setGuard s f left) := by
  unfold State.setGuard
  try dsimp only
  with_reducible
    repeat' (first
      | assumption | apply State.settleLevels_same_mem | apply State.putBit_same_mem | apply State.setDemand_same_mem
      | apply SameMem.foldl | intro _ _ _ | intro _ _ | intro _)

theorem State.peakGuard_same_mem {z : State} {s : State} {total : ℕ} (h : SameMem z s) :
    SameMem z (State.peakGuard s total) := by
  unfold State.peakGuard
  with_reducible
    repeat' (first
      | assumption | apply State.setGuard_same_mem | intro _ _ _ | intro _ _ | intro _ | split)

theorem State.addEnergy_same_mem {z : State} {s : State} {rails : List (ℕ × ℕ)} {shares : List ℕ} (h : SameMem z s) :
    SameMem z (State.addEnergy s rails shares) := by
  unfold State.addEnergy
  try dsimp only
  with_reducible
    repeat' (first
      | assumption | apply State.wrapAdd_same_mem | apply SameMem.foldl | intro _ _ _ | intro _ _ | intro _)

theorem State.keepSample_same_mem {z : State} {s : State} {rails : List (ℕ × ℕ)} (h : SameMem z s) :
    SameMem z (State.keepSample s rails) := by
  unfold State.keepSample
  try dsimp only
  with_reducible
    repeat' (first
      | assumption | apply SameMem.foldl | intro _ _ _ | intro _ _ | intro _ | split)

theorem State.powerSample_same_mem {z : State} {s : State} {rails : List (ℕ × ℕ)} {shares : List ℕ} (h : SameMem z s) :
    SameMem z (State.powerSample s rails shares) := by
  unfold State.powerSample
  with_reducible
    repeat' (first
      | assumption | apply State.peakGuard_same_mem | apply State.endPhases_same_mem | apply State.addEnergy_same_mem
      | apply State.keepSample_same_mem | apply State.showPower_same_mem | split)

theorem sampleRails_same_mem {z : State} {rails : List (ℕ × ℕ)} {shares : List ℕ} {s : State} (h : SameMem z s) :
    SameMem z (sampleRails rails shares s) := by
  unfold sampleRails
  with_reducible
    repeat' (first
      | assumption | apply State.powerSample_same_mem)

theorem State.applyPhase_same_mem {z : State} {s : State} {i : ℕ} {p : ℕ} (h : SameMem z s) :
    SameMem z (State.applyPhase s i p) := by
  unfold State.applyPhase
  try dsimp only
  with_reducible
    repeat' (first
      | assumption | apply State.settleLevels_same_mem | apply State.setDemand_same_mem | apply SameMem.foldl | intro _ _ _
      | intro _ _ | intro _ | split)

theorem State.setOccur_same_mem {z : State} {s : State} {i : ℕ} {o : Occur} (h : SameMem z s) :
    SameMem z (State.setOccur s i o) := by
  unfold State.setOccur
  assumption

theorem State.mark_same_mem {z : State} {s : State} {n : ℕ} {p : ℕ} (h : SameMem z s) :
    SameMem z (State.mark s n p) := by
  unfold State.mark
  try dsimp only
  with_reducible
    repeat' (first
      | assumption | apply State.bump_same_mem | apply State.applyPhase_same_mem | apply State.endOccur_same_mem
      | apply State.setOccur_same_mem | apply State.modTile_same_mem | intro _ _ _ | intro _ _ | intro _ | split)

theorem State.dropOccur_same_mem {z : State} {s : State} {i : ℕ} (h : SameMem z s) :
    SameMem z (State.dropOccur s i) := by
  unfold State.dropOccur
  assumption

theorem State.startOutside_same_mem {z : State} {s : State} {t : ℕ} (h : SameMem z s) :
    SameMem z (State.startOutside s t) := by
  unfold State.startOutside
  with_reducible
    repeat' (first
      | assumption | apply State.endOccur_same_mem | apply State.setOccur_same_mem)

theorem State.alertRise_same_mem {z : State} {s : State} {k : ℕ} (h : SameMem z s) :
    SameMem z (State.alertRise s k) := by
  unfold State.alertRise
  try dsimp only
  with_reducible
    repeat' (first
      | assumption | apply State.settleLevels_same_mem | apply State.put_same_mem | intro _ _ _ | intro _ _ | intro _ | split)

theorem State.beginPhase_same_mem {z : State} {s : State} {i : ℕ} {p : ℕ} (h : SameMem z s) :
    SameMem z (State.beginPhase s i p) := by
  unfold State.beginPhase
  with_reducible
    repeat' (first
      | assumption | apply State.applyPhase_same_mem | split)

theorem State.thermalStep_same_mem {z : State} {s : State} {src : ℕ} {n : ℕ} {down : Bool} (h : SameMem z s) :
    SameMem z (State.thermalStep s src n down) := by
  unfold State.thermalStep
  try dsimp only
  with_reducible
    repeat' (first
      | assumption | apply State.settleLevels_same_mem | apply State.setDemand_same_mem | split)

theorem State.alertEnd_same_mem {z : State} {s : State} (h : SameMem z s) :
    SameMem z (State.alertEnd s) := by
  unfold State.alertEnd
  with_reducible
    repeat' (first
      | assumption | apply State.settleLevels_same_mem | split)

theorem State.currentStep_same_mem {z : State} {s : State} {n : ℕ} (h : SameMem z s) :
    SameMem z (State.currentStep s n) := by
  unfold State.currentStep
  try dsimp only
  with_reducible
    repeat' (first
      | assumption | apply State.settleLevels_same_mem | apply State.setDemand_same_mem | intro _ _ _ | intro _ _ | intro _
      | split)

theorem State.alertFall_same_mem {z : State} {s : State} {k : ℕ} (h : SameMem z s) :
    SameMem z (State.alertFall s k) := by
  unfold State.alertFall
  try dsimp only
  with_reducible
    repeat' (first
      | assumption | apply State.bump_same_mem | apply State.settleLevels_same_mem | apply State.raise_same_mem
      | apply State.put_same_mem | split)

theorem State.hintTile_same_mem {z : State} {s : State} {n : ℕ} {d : Bytes} (h : SameMem z s) :
    SameMem z (State.hintTile s n d) := by
  unfold State.hintTile
  try dsimp only
  with_reducible
    repeat' (first
      | assumption | intro _ _ _ | intro _ _ | intro _ | split)

theorem State.removeGuard_same_mem {z : State} {s : State} (h : SameMem z s) :
    SameMem z (State.removeGuard s) := by
  unfold State.removeGuard
  assumption

theorem State.thermal_same_mem {z : State} {s : State} {src : ℕ} {n : ℕ} (h : SameMem z s) :
    SameMem z (State.thermal s src n) := by
  unfold State.thermal
  try dsimp only
  with_reducible
    repeat' (first
      | assumption | apply State.bump_same_mem | apply State.settleLevels_same_mem | apply State.trip_same_mem
      | apply State.raise_same_mem | apply State.putBit_same_mem | split)

end Sys2Proof.Machine
end

