-- ==== Sys2Proof/Laws/SameMemSequencer.lean ====
section
/-!
SUPPORT. Operations that leave device memory alone: the operations of Machine/Sequencer.lean.
-/

set_option linter.all false

namespace Sys2Proof.Machine

theorem State.stopUnits_same_mem {z : State} {s : State} {n : ℕ} (h : SameMem z s) :
    SameMem z (State.stopUnits s n) := by
  unfold State.stopUnits
  with_reducible
    repeat' (first
      | assumption | apply State.put_same_mem | apply State.modStack_same_mem | intro _ _ _ | intro _ _ | intro _)

theorem State.abandonTile_same_mem {z : State} {s : State} {n : ℕ} (h : SameMem z s) :
    SameMem z (State.abandonTile s n) := by
  unfold State.abandonTile
  try dsimp only
  with_reducible
    repeat' (first
      | assumption | apply State.setSeq_same_mem | apply State.stopUnits_same_mem | apply State.putBit_same_mem
      | apply State.modTile_same_mem | intro _ _ _ | intro _ _ | intro _)

theorem State.writeMode_same_mem {z : State} {s : State} {n : ℕ} {m : ℕ} (h : SameMem z s) :
    SameMem z (State.writeMode s n m) := by
  unfold State.writeMode
  with_reducible
    repeat' (first
      | assumption | apply State.put_same_mem | split)

theorem State.requestSpare_same_mem {z : State} {s : State} {n : ℕ} {e : ℕ} (h : SameMem z s) :
    SameMem z (State.requestSpare s n e) := by
  unfold State.requestSpare
  with_reducible
    repeat' (first
      | assumption | apply State.wantSpare_same_mem)

theorem State.directGo_same_mem {z : State} {s : State} {n : ℕ} (h : SameMem z s) :
    SameMem z (State.directGo s n) := by
  unfold State.directGo
  try dsimp only
  with_reducible
    repeat' (first
      | assumption | apply State.setSeq_same_mem | apply State.put_same_mem | apply State.putBit_same_mem
      | apply State.modTile_same_mem | intro _ _ _ | intro _ _ | intro _ | split)

theorem State.releaseHeld_same_mem {z : State} {s : State} (h : SameMem z s) :
    SameMem z (State.releaseHeld s) := by
  unfold State.releaseHeld
  with_reducible
    repeat' (first
      | assumption | apply State.retire_same_mem | apply State.setSeq_same_mem | apply SameMem.foldl | intro _ _ _ | intro _ _
      | intro _ | split)

theorem State.fenceEngine_same_mem {z : State} {s : State} {n : ℕ} {e : ℕ} (h : SameMem z s) :
    SameMem z (State.fenceEngine s n e) := by
  unfold State.fenceEngine
  with_reducible
    repeat' (first
      | assumption | apply State.modTile_same_mem | intro _ _ _ | intro _ _ | intro _ | split)

theorem State.replaceEngine_same_mem {z : State} {s : State} {n : ℕ} {e : ℕ} (h : SameMem z s) :
    SameMem z (State.replaceEngine s n e) := by
  unfold State.replaceEngine
  try dsimp only
  with_reducible
    repeat' (first
      | assumption | apply State.raise_same_mem | apply State.put_same_mem | apply State.putBit_same_mem
      | apply State.modTile_same_mem | apply State.fenceEngine_same_mem | apply State.wrapAdd_same_mem | intro _ _ _ | intro _ _
      | intro _ | split)

theorem State.substitute_same_mem {z : State} {s : State} {n : ℕ} (h : SameMem z s) :
    SameMem z (State.substitute s n) := by
  unfold State.substitute
  try dsimp only
  with_reducible
    repeat' (first
      | assumption | apply State.replaceEngine_same_mem | apply State.modTile_same_mem | apply SameMem.foldl | intro _ _ _
      | intro _ _ | intro _)

theorem State.clearEvents_same_mem {z : State} {s : State} {n : ℕ} (h : SameMem z s) :
    SameMem z (State.clearEvents s n) := by
  unfold State.clearEvents
  with_reducible
    repeat' (first
      | assumption | apply State.put_same_mem | apply SameMem.foldl | intro _ _ _ | intro _ _ | intro _)

theorem State.adapt_same_mem {z : State} {s : State} {n : ℕ} (h : SameMem z s) :
    SameMem z (State.adapt s n) := by
  unfold State.adapt
  try dsimp only
  with_reducible
    repeat' (first
      | assumption | apply State.bump_same_mem | apply State.put_same_mem | apply State.wrapAdd_same_mem | apply SameMem.foldl
      | intro _ _ _ | intro _ _ | intro _ | split)

theorem State.armTile_same_mem {z : State} {s : State} {t : ℕ} {n : ℕ} {i : ℕ} {l : List Bytes} (h : SameMem z s) :
    SameMem z (State.armTile s t n i l) := by
  unfold State.armTile
  try dsimp only
  with_reducible
    repeat' (first
      | assumption | apply State.adapt_same_mem | apply State.setSeq_same_mem | apply State.put_same_mem | apply State.putBit_same_mem
      | apply State.modTile_same_mem | intro _ _ _ | intro _ _ | intro _)

theorem State.regainEngine_same_mem {z : State} {s : State} {n : ℕ} (h : SameMem z s) :
    SameMem z (State.regainEngine s n) := by
  unfold State.regainEngine
  try dsimp only
  with_reducible
    repeat' (first
      | assumption | apply State.put_same_mem | apply State.putBit_same_mem | apply State.modTile_same_mem
      | apply State.wrapAdd_same_mem | intro _ _ _ | intro _ _ | intro _ | split)

theorem State.turnTile_same_mem {z : State} {s : State} {template : Option ℕ} {n : ℕ} (h : SameMem z s) :
    SameMem z (State.turnTile s template n) := by
  unfold State.turnTile
  try dsimp only
  with_reducible
    repeat' (first
      | assumption | apply State.armTile_same_mem | apply State.clearEvents_same_mem | apply State.substitute_same_mem
      | apply State.modTile_same_mem | apply State.regainEngine_same_mem | intro _ _ _ | intro _ _ | intro _ | split)

theorem State.turnTiles_same_mem {z : State} {s : State} {template : Option ℕ} (h : SameMem z s) :
    SameMem z (State.turnTiles s template) := by
  unfold State.turnTiles
  with_reducible
    repeat' (first
      | assumption | apply State.turnTile_same_mem | apply SameMem.foldl | intro _ _ _ | intro _ _ | intro _)

theorem State.advance_same_mem {z : State} {s : State} {n : ℕ} (h : SameMem z s) :
    SameMem z (State.advance s n) := by
  unfold State.advance
  with_reducible
    repeat' (first
      | assumption | apply State.modTile_same_mem | apply State.wrapAdd_same_mem | intro _ _ _ | intro _ _ | intro _)

theorem State.directFail_same_mem {z : State} {s : State} {n : ℕ} {d : Bytes} (h : SameMem z s) :
    SameMem z (State.directFail s n d) := by
  unfold State.directFail
  with_reducible
    repeat' (first
      | assumption | apply State.retire_same_mem | apply State.stepFail_same_mem | apply State.applySignal_same_mem
      | apply State.advance_same_mem)

theorem State.ownDesc_same_mem {z : State} {s : State} {n : ℕ} {ty : ℕ} {act : State → Bytes → State × Bool} (h : SameMem z s) (h1 : ∀ y0 y1, SameMem z y0 → SameMem z (act y0 y1).1) :
    SameMem z (State.ownDesc s n ty act) := by
  unfold State.ownDesc
  with_reducible
    repeat' (first
      | assumption | apply State.completeDesc_same_mem | apply State.directFail_same_mem | apply State.advance_same_mem | apply h1
      | (refine SameMem.fst (by assumption) ?_) | split)

theorem State.waitCounter_same_mem {z : State} {s : State} {n : ℕ} (h : SameMem z s) :
    SameMem z (State.waitCounter s n) := by
  unfold State.waitCounter
  with_reducible
    repeat' (first
      | assumption | apply State.ownDesc_same_mem | intro _ _ _ | intro _ _ | intro _ | split)

theorem State.takeNotice_same_mem {z : State} {s : State} {n : ℕ} (h : SameMem z s) :
    SameMem z (State.takeNotice s n) := by
  unfold State.takeNotice
  try dsimp only
  with_reducible
    repeat' (first
      | assumption | apply State.enterSkip_same_mem | apply State.modTile_same_mem | intro _ _ _ | intro _ _ | intro _ | split)

theorem State.startTile_same_mem {z : State} {s : State} {n : ℕ} (h : SameMem z s) :
    SameMem z (State.startTile s n) := by
  unfold State.startTile
  with_reducible
    repeat' (first
      | assumption | apply State.retire_same_mem | apply State.setSeq_same_mem | split)

theorem State.waitMeridian_same_mem {z : State} {s : State} {n : ℕ} (h : SameMem z s) :
    SameMem z (State.waitMeridian s n) := by
  unfold State.waitMeridian
  try dsimp only
  with_reducible
    repeat' (first
      | assumption | apply State.bump_same_mem | apply State.ownDesc_same_mem | apply State.modTile_same_mem | intro _ _ _
      | intro _ _ | intro _ | split)

theorem State.issue_same_mem {z : State} {s : State} {n : ℕ} (h : SameMem z s) :
    SameMem z (State.issue s n) := by
  unfold State.issue
  try dsimp only
  with_reducible
    repeat' (first
      | assumption | apply State.setQueue_same_mem | apply State.completeDesc_same_mem | apply State.directFail_same_mem
      | apply State.advance_same_mem | split)

end Sys2Proof.Machine
end

