-- ==== Sys2Proof/Laws/SameMemCollective.lean ====
section
/-!
SUPPORT. Operations that leave device memory alone: the operations of Machine/Collective.lean.
-/

set_option linter.all false

namespace Sys2Proof.Machine

theorem State.countArrival_same_mem {z : State} {s : State} {n : ℕ} {slot : ℕ} {d : Bytes} {k : ℕ} (h : SameMem z s) :
    SameMem z (State.countArrival s n slot d k) := by
  unfold State.countArrival
  try dsimp only
  with_reducible
    repeat' (first
      | assumption | apply State.signal_same_mem | split)

theorem State.arrivalFails_same_mem {z : State} {s : State} {n : ℕ} {slot : ℕ} (h : SameMem z s) :
    SameMem z (State.arrivalFails s n slot) := by
  unfold State.arrivalFails
  with_reducible
    repeat' (first
      | assumption | apply State.stepFail_same_mem | intro _ _ _ | intro _ _ | intro _ | split)

theorem State.poisonArrived_same_mem {z : State} {s : State} {n : ℕ} {slot : ℕ} {addr : ℕ} (h : SameMem z s) :
    SameMem z (State.poisonArrived s n slot addr) := by
  unfold State.poisonArrived
  with_reducible
    repeat' (first
      | assumption | apply State.arrivalFails_same_mem | apply State.raise_same_mem)

theorem State.sendStream_same_mem {z : State} {s : State} {p : ℕ} {n : ℕ} {x : Send} {fmt : ℕ} {data : Option Bytes} {len : ℕ} (h : SameMem z s) :
    SameMem z (State.sendStream s p n x fmt data len) := by
  unfold State.sendStream
  try dsimp only
  with_reducible
    repeat' (first
      | assumption | apply State.sendSeq_same_mem | apply State.nonce_same_mem | apply SameMem.foldl | intro _ _ _ | intro _ _
      | intro _ | split)

theorem State.setSends_same_mem {z : State} {s : State} {p : ℕ} {l : List Send} (h : SameMem z s) :
    SameMem z (State.setSends s p l) := by
  unfold State.setSends
  with_reducible
    repeat' (first
      | assumption | apply State.modLink_same_mem | intro _ _ _ | intro _ _ | intro _)

theorem State.noteLate_same_mem {z : State} {s : State} {x : Send} (h : SameMem z s) :
    SameMem z (State.noteLate s x) := by
  unfold State.noteLate
  with_reducible
    repeat' (first
      | assumption | apply State.bump_same_mem | split)

theorem State.pumpPort_same_mem {z : State} {s : State} {p : ℕ} {x2 : ℕ} (h : SameMem z s) :
    SameMem z (State.pumpPort s p x2) := by
  induction x2 generalizing s p with
  | zero =>
    unfold State.pumpPort
    try dsimp only
    with_reducible
      repeat' (first
        | assumption | apply State.sendSeq_same_mem | apply State.sendStream_same_mem | apply State.setSends_same_mem
        | apply State.noteLate_same_mem | intro _ _ _ | intro _ _ | intro _ | split)
  | succ y ih =>
    unfold State.pumpPort
    try dsimp only
    with_reducible
      repeat' (first
        | assumption | apply ih | apply State.sendSeq_same_mem | apply State.sendStream_same_mem | apply State.setSends_same_mem
        | apply State.noteLate_same_mem | intro _ _ _ | intro _ _ | intro _ | split)

theorem State.pump_same_mem {z : State} {s : State} (h : SameMem z s) :
    SameMem z (State.pump s) := by
  unfold State.pump
  with_reducible
    repeat' (first
      | assumption | apply State.pumpPort_same_mem | apply SameMem.foldl | intro _ _ _ | intro _ _ | intro _)

theorem State.skipStart_same_mem {z : State} {s : State} {n : ℕ} (h : SameMem z s) :
    SameMem z (State.skipStart s n) := by
  unfold State.skipStart
  try dsimp only
  with_reducible
    repeat' (first
      | assumption | apply State.setHead_same_mem | split)

theorem State.collTile_same_mem {z : State} {s : State} {n : ℕ} {x2 : ℕ} (h : SameMem z s) :
    SameMem z (State.collTile s n x2) := by
  induction x2 generalizing s n with
  | zero =>
    unfold State.collTile
    try dsimp only
    with_reducible
      repeat' (first
        | assumption | apply State.pump_same_mem | apply State.complete_same_mem | apply State.skipStart_same_mem | split)
  | succ y ih =>
    unfold State.collTile
    try dsimp only
    with_reducible
      repeat' (first
        | assumption | apply ih | apply State.pump_same_mem | apply State.complete_same_mem | apply State.skipStart_same_mem | split)

theorem State.collectives_same_mem {z : State} {s : State} (h : SameMem z s) :
    SameMem z (State.collectives s) := by
  unfold State.collectives
  with_reducible
    repeat' (first
      | assumption | apply State.collTile_same_mem | apply SameMem.foldl | intro _ _ _ | intro _ _ | intro _)

theorem State.clearColl_same_mem {z : State} {s : State} (h : SameMem z s) :
    SameMem z (State.clearColl s) := by
  unfold State.clearColl
  try dsimp only
  with_reducible
    repeat' (first
      | assumption | apply State.modLink_same_mem | apply SameMem.foldl | intro _ _ _ | intro _ _ | intro _)

theorem State.openSlot_same_mem {z : State} {s : State} {slot : ℕ} (h : SameMem z s) :
    SameMem z (State.openSlot s slot) := by
  unfold State.openSlot
  try dsimp only
  with_reducible
    repeat' (first
      | assumption | apply State.modLink_same_mem | apply State.collectives_same_mem | apply SameMem.foldl | intro _ _ _
      | intro _ _ | intro _ | split)

end Sys2Proof.Machine
end

