-- ==== Sys2Proof/Laws/SameMemDrill.lean ====
section
/-!
SUPPORT. Operations that leave device memory alone: the operations of Machine/Drill.lean.
-/

set_option linter.all false

namespace Sys2Proof.Machine

theorem State.sample_same_mem {z : State} {s : State} {n : ℕ} {final : Bool} {mem : MemReport} {lanes : List ℕ} {accs : Bytes → List Acc} {body : State → Bytes → State} (h : SameMem z s) (h1 : ∀ y0 y1, SameMem z y0 → SameMem z (body y0 y1)) :
    SameMem z (State.sample s n final mem lanes accs body) := by
  unfold State.sample
  try dsimp only
  with_reducible
    repeat' (first
      | assumption | apply State.gated_same_mem | apply State.scratched_same_mem | apply State.complete_same_mem
      | apply State.memReport_same_mem | apply State.failHead_same_mem | apply h1 | intro _ _ _ | intro _ _ | intro _ | split)

theorem State.addResult_same_mem {z : State} {s : State} {r : LaneResult} (h : SameMem z s) :
    SameMem z (State.addResult s r) := by
  unfold State.addResult
  try dsimp only
  with_reducible
    repeat' (first
      | assumption | intro _ _ _ | intro _ _ | intro _)

end Sys2Proof.Machine
end

