-- ==== Sys2Proof/Laws/SameMemAttention.lean ====
section
/-!
SUPPORT. Operations that leave device memory alone: the operations of Machine/Attention.lean.
-/

set_option linter.all false

namespace Sys2Proof.Machine

theorem State.nonfinite_same_mem {z : State} {s : State} {n : ℕ} {d : Bytes} {l : ℕ} (h : SameMem z s) :
    SameMem z (State.nonfinite s n d l) := by
  unfold State.nonfinite
  with_reducible
    repeat' (first
      | assumption | apply State.bump_same_mem | intro _ _ _ | intro _ _ | intro _)

theorem State.tellLane_same_mem {z : State} {s : State} {i : ℕ} {missed : List ℕ} {damaged : List ℕ} (h : SameMem z s) :
    SameMem z (State.tellLane s i missed damaged) := by
  unfold State.tellLane
  with_reducible
    repeat' (first
      | assumption | apply State.sendCtrl_same_mem | split)

theorem State.noteMiss_same_mem {z : State} {s : State} {i : ℕ} {set : ℕ} {lane : ℕ} {seqId : ℕ} (h : SameMem z s) :
    SameMem z (State.noteMiss s i set lane seqId) := by
  unfold State.noteMiss
  with_reducible
    repeat' (first
      | assumption | apply State.tellLane_same_mem | split)

theorem State.labUse_same_mem {z : State} {s : State} {n : ℕ} {table : ℕ} {key : ℕ} (h : SameMem z s) :
    SameMem z (State.labUse s n table key) := by
  unfold State.labUse
  try dsimp only
  with_reducible
    repeat' (first
      | assumption | apply State.modTile_same_mem | apply State.wrapAdd_same_mem | intro _ _ _ | intro _ _ | intro _ | split)

theorem State.clearAttendSlots_same_mem {z : State} {s : State} {n : ℕ} {mask : ℕ} (h : SameMem z s) :
    SameMem z (State.clearAttendSlots s n mask) := by
  unfold State.clearAttendSlots
  with_reducible
    repeat' (first
      | assumption | apply State.setSlot_same_mem | apply SameMem.foldl | intro _ _ _ | intro _ _ | intro _)

theorem State.noteDamage_same_mem {z : State} {s : State} {i : ℕ} {seqId : ℕ} (h : SameMem z s) :
    SameMem z (State.noteDamage s i seqId) := by
  unfold State.noteDamage
  with_reducible
    repeat' (first
      | assumption | apply State.tellLane_same_mem | split)

theorem State.attendCounts_same_mem {z : State} {s : State} {n : ℕ} {mask : ℕ} {reps : List (ℕ × EngineReport)} (h : SameMem z s) :
    SameMem z (State.attendCounts s n mask reps) := by
  unfold State.attendCounts
  with_reducible
    repeat' (first
      | assumption | apply State.engineCounts_same_mem | apply SameMem.foldl | intro _ _ _ | intro _ _ | intro _)

theorem State.attendReport_same_mem {z : State} {s : State} {n : ℕ} {clocks : ℕ} {mask : ℕ} {reps : List (ℕ × EngineReport)} {mem : MemReport} (h : SameMem z s) :
    SameMem z (State.attendReport s n clocks mask reps mem) := by
  unfold State.attendReport
  with_reducible
    repeat' (first
      | assumption | apply State.attendCounts_same_mem | apply State.memReport_same_mem | apply State.wrapAdd_same_mem)

end Sys2Proof.Machine
end

