-- ==== Sys2Proof/Laws/SameMemPackage.lean ====
section
/-!
SUPPORT. Operations that leave device memory alone: the operations of Machine/Package.lean.
-/

set_option linter.all false

namespace Sys2Proof.Machine

theorem State.scrub_same_mem {z : State} {s : State} {n : ℕ} {sp : Bool} {found : Option Bool} (h : SameMem z s) :
    SameMem z (State.scrub s n sp found) := by
  unfold State.scrub
  try dsimp only
  with_reducible
    repeat' (first
      | assumption | apply State.raise_same_mem | apply State.eccEvent_same_mem | apply State.modTile_same_mem | intro _ _ _
      | intro _ _ | intro _ | split)

end Sys2Proof.Machine
end

