-- ==== Sys2Proof/Laws/SameMemPages.lean ====
section
/-!
SUPPORT. Operations that leave device memory alone: the operations of Machine/Pages.lean.
-/

set_option linter.all false

namespace Sys2Proof.Machine

theorem SameMemO.tryAll {β : Type} {z s : State} {f : State → β → Option State} {l : List β} (h : SameMem z s)
    (hf : ∀ s x, SameMem z s → SameMemO z (f s x)) : SameMemO z (Machine.tryAll f s l) := by
  induction l generalizing s with
  | nil => exact .of h
  | cons x l ih =>
    unfold Machine.tryAll
    split
    · rename_i t e
      exact ih ((hf s x h).kept t e)
    · exact .none z

theorem State.ownAlloc_same_mem {z s : State} {n size : Nat} (h : SameMem z s) : SameMemP z (s.ownAlloc n size) := by
  unfold State.ownAlloc
  exact SameMemP.map fun _ => h

theorem State.ownFree_same_mem {z : State} {s : State} {a : ℕ} (h : SameMem z s) :
    SameMem z (State.ownFree s a) := by
  unfold State.ownFree
  with_reducible
    repeat' (first
      | assumption | intro _ _ _ | intro _ _ | intro _)

theorem State.setFile_same_mem {z : State} {s : State} {slot : ℕ} {f : Option KvFile} (h : SameMem z s) :
    SameMem z (State.setFile s slot f) := by
  unfold State.setFile
  assumption

theorem State.freePage_same_mem {z : State} {s : State} {n : ℕ} {addr : ℕ} (h : SameMem z s) :
    SameMem z (State.freePage s n addr) := by
  unfold State.freePage
  with_reducible
    repeat' (first
      | assumption | intro _ _ _ | intro _ _ | intro _ | split)

theorem State.charge_same_mem {z : State} {s : State} {n : ℕ} {tenant : ℕ} {es : List ℕ} (h : SameMem z s) :
    SameMem z (State.charge s n tenant es) := by
  unfold State.charge
  with_reducible
    repeat' (first
      | assumption | intro _ _ _ | intro _ _ | intro _ | split)

end Sys2Proof.Machine
end

