-- ==== Sys2Proof/Laws/SameMemProtect.lean ====
section
/-!
SUPPORT. Operations that leave device memory alone: the operations of Machine/Protect.lean.
-/

set_option linter.all false

namespace Sys2Proof.Machine

theorem State.protectAll_same_mem {z : State} {s : State} (h : SameMem z s) :
    SameMem z (State.protectAll s) := by
  unfold State.protectAll
  try dsimp only
  with_reducible
    repeat' (first
      | assumption | apply State.draw_same_mem | apply State.put_same_mem | apply SameMem.foldl | intro _ _ _ | intro _ _
      | intro _)

theorem State.unprotect_same_mem {z : State} {s : State} (h : SameMem z s) :
    SameMem z (State.unprotect s) := by
  unfold State.unprotect
  with_reducible
    repeat' (first
      | assumption | apply State.put_same_mem)

theorem State.violation_same_mem {z : State} {s : State} {v : ℕ × ℕ} {req : Option ℕ} {a : ℕ} {src : ℕ} {write : Bool} (h : SameMem z s) :
    SameMem z (State.violation s v req a src write) := by
  unfold State.violation
  try dsimp only
  with_reducible
    repeat' (first
      | assumption | apply State.bump_same_mem | apply State.put_same_mem | apply State.putBit_same_mem | split)

theorem State.readFor_same_mem {z : State} {s : State} {req : Option ℕ} {src : ℕ} {a : ℕ} {n : ℕ} (h : SameMem z s) :
    SameMem z (State.readFor s req src a n).1 := by
  unfold State.readFor
  with_reducible
    repeat' (first
      | assumption | apply State.passLine_same_mem | apply State.violation_same_mem | apply SameMem.foldl | apply SameMem.foldlPair
      | intro _ _ _ | intro _ _ | intro _ | (refine SameMem.fst (by assumption) ?_) | split)

end Sys2Proof.Machine
end

