-- ==== Sys2Proof/Laws/SameMemKv.lean ====
section
/-!
SUPPORT. Operations that leave device memory alone: the operations of Machine/Kv.lean.
-/

set_option linter.all false

namespace Sys2Proof.Machine

theorem State.commitFiles_same_mem {z : State} {s : State} {inst : ℕ} {kept : List ℕ} (h : SameMem z s) :
    SameMem z (State.commitFiles s inst kept) := by
  unfold State.commitFiles
  with_reducible
    repeat' (first
      | assumption | apply State.setFile_same_mem | apply SameMem.foldl | intro _ _ _ | intro _ _ | intro _ | split)

theorem State.touchPages_same_mem {z : State} {s : State} {f : KvFile} (h : SameMem z s) :
    SameMem z (State.touchPages s f) := by
  unfold State.touchPages
  try dsimp only
  with_reducible
    repeat' (first
      | assumption | apply SameMem.foldl | intro _ _ _ | intro _ _ | intro _ | split)

theorem State.touchLanes_same_mem {z : State} {s : State} {inst : ℕ} (h : SameMem z s) :
    SameMem z (State.touchLanes s inst) := by
  unfold State.touchLanes
  with_reducible
    repeat' (first
      | assumption | apply State.touchPages_same_mem | apply SameMem.foldl | intro _ _ _ | intro _ _ | intro _ | split)

theorem State.startBlind_same_mem {z : State} {s : State} (h : SameMem z s) :
    SameMem z (State.startBlind s) := by
  unfold State.startBlind
  with_reducible
    repeat' (first
      | assumption | apply State.noteMiss_same_mem | apply SameMem.foldl | intro _ _ _ | intro _ _ | intro _ | split)

theorem State.startMisses_same_mem {z : State} {s : State} (h : SameMem z s) :
    SameMem z (State.startMisses s) := by
  unfold State.startMisses
  with_reducible
    repeat' (first
      | assumption | apply State.bump_same_mem | apply State.noteMiss_same_mem | apply SameMem.foldl | intro _ _ _ | intro _ _
      | intro _)

end Sys2Proof.Machine
end

