-- ==== Sys2Proof/Laws/SameMemServing.lean ====
section
/-!
SUPPORT. Operations that leave device memory alone: the operations of Machine/Serving.lean.
-/

set_option linter.all false

namespace Sys2Proof.Machine

theorem State.setSeqn_same_mem {z : State} {s : State} {id : ℕ} {q : Option Seq} (h : SameMem z s) :
    SameMem z (State.setSeqn s id q) := by
  unfold State.setSeqn
  assumption

theorem State.retireSeq_same_mem {z : State} {s : State} {id : ℕ} {th : ℕ} {st : Status} (h : SameMem z s) :
    SameMem z (State.retireSeq s id th st) := by
  unfold State.retireSeq
  try dsimp only
  with_reducible
    repeat' (first
      | assumption | apply State.setSeqn_same_mem | apply State.finish_same_mem | intro _ _ _ | intro _ _ | intro _ | split)

theorem State.closeSeq_same_mem {z : State} {s : State} {id : ℕ} {th : ℕ} (h : SameMem z s) :
    SameMem z (State.closeSeq s id th) := by
  unfold State.closeSeq
  try dsimp only
  with_reducible
    repeat' (first
      | assumption | apply State.setSeqn_same_mem | apply State.retireSeq_same_mem | split)

theorem State.modSeq_same_mem {z : State} {s : State} {id : ℕ} {f : Seq → Seq} (h : SameMem z s) :
    SameMem z (State.modSeq s id f) := by
  unfold State.modSeq
  with_reducible
    repeat' (first
      | assumption | apply State.setSeqn_same_mem | split)

theorem State.suspend_same_mem {z : State} {s : State} {i : ℕ} {th : ℕ} (h : SameMem z s) :
    SameMem z (State.suspend s i th) := by
  unfold State.suspend
  try dsimp only
  with_reducible
    repeat' (first
      | assumption | apply State.put_same_mem | apply State.retireSeq_same_mem | apply State.modSeq_same_mem | apply SameMem.foldl
      | intro _ _ _ | intro _ _ | intro _ | split)

theorem State.retireLate_same_mem {z : State} {s : State} {id : ℕ} {th : ℕ} (h : SameMem z s) :
    SameMem z (State.retireLate s id th) := by
  unfold State.retireLate
  with_reducible
    repeat' (first
      | assumption | apply State.bump_same_mem | apply State.retireSeq_same_mem)

theorem State.noteHeld_same_mem {z : State} {s : State} (h : SameMem z s) :
    SameMem z (State.noteHeld s) := by
  unfold State.noteHeld
  with_reducible
    repeat' (first
      | assumption | apply State.bump_same_mem | intro _ _ _ | intro _ _ | intro _ | split)

theorem State.deliverToken_same_mem {z : State} {s : State} {id : ℕ} {t : TokenRec} (h : SameMem z s) :
    SameMem z (State.deliverToken s id t) := by
  unfold State.deliverToken
  with_reducible
    repeat' (first
      | assumption | apply State.writeTr_same_mem | apply State.modSeq_same_mem | intro _ _ _ | intro _ _ | intro _ | split)

theorem State.countToken_same_mem {z : State} {s : State} {id : ℕ} {t : ℕ} (h : SameMem z s) :
    SameMem z (State.countToken s id t) := by
  unfold State.countToken
  with_reducible
    repeat' (first
      | assumption | apply State.bump_same_mem | apply State.modSeq_same_mem | intro _ _ _ | intro _ _ | intro _ | split)

theorem State.giveToken_same_mem {z : State} {s : State} {th : ℕ} {e : LaneEntry} {n : ℕ} {q : Seq} {x : Request} {t : ℕ} (h : SameMem z s) :
    SameMem z (State.giveToken s th e n q x t) := by
  unfold State.giveToken
  try dsimp only
  with_reducible
    repeat' (first
      | assumption | apply State.deliverToken_same_mem | apply State.countToken_same_mem | apply State.retireLate_same_mem
      | apply State.retireSeq_same_mem | apply State.modSeq_same_mem | intro _ _ _ | intro _ _ | intro _ | split)

theorem State.failLane_same_mem {z : State} {s : State} {id : ℕ} (h : SameMem z s) :
    SameMem z (State.failLane s id) := by
  unfold State.failLane
  with_reducible
    repeat' (first
      | assumption | apply State.modSeq_same_mem | intro _ _ _ | intro _ _ | intro _)

theorem State.settleLane_same_mem {z : State} {s : State} {th : ℕ} {e : LaneEntry} {n : ℕ} {kept : Bool} {r : LaneEnd} (h : SameMem z s) :
    SameMem z (State.settleLane s th e n kept r) := by
  unfold State.settleLane
  try dsimp only
  with_reducible
    repeat' (first
      | assumption | apply State.giveToken_same_mem | apply State.retireLate_same_mem | apply State.failLane_same_mem
      | apply State.retireSeq_same_mem | apply State.modSeq_same_mem | intro _ _ _ | intro _ _ | intro _ | split)

theorem State.settleOpen_same_mem {z : State} {s : State} {th : ℕ} {got : ℕ → LaneEntry → Option (Bool × LaneEnd)} (h : SameMem z s) :
    SameMem z (State.settleOpen s th got) := by
  unfold State.settleOpen
  try dsimp only
  with_reducible
    repeat' (first
      | assumption | apply State.settleLane_same_mem | apply SameMem.foldl | intro _ _ _ | intro _ _ | intro _ | split)

theorem State.drainHeld_same_mem {z : State} {s : State} {id : ℕ} {x2 : ℕ} (h : SameMem z s) :
    SameMem z (State.drainHeld s id x2) := by
  induction x2 generalizing s id with
  | zero =>
    unfold State.drainHeld
    with_reducible
      repeat' (first
        | assumption | apply State.writeTr_same_mem | apply State.modSeq_same_mem | intro _ _ _ | intro _ _ | intro _ | split)
  | succ y ih =>
    unfold State.drainHeld
    with_reducible
      repeat' (first
        | assumption | apply ih | apply State.writeTr_same_mem | apply State.modSeq_same_mem | intro _ _ _ | intro _ _ | intro _
        | split)

theorem State.drainAll_same_mem {z : State} {s : State} (h : SameMem z s) :
    SameMem z (State.drainAll s) := by
  unfold State.drainAll
  with_reducible
    repeat' (first
      | assumption | apply State.drainHeld_same_mem | apply SameMem.foldl | intro _ _ _ | intro _ _ | intro _)

theorem State.tellLead_same_mem {z : State} {s : State} {i : ℕ} {kept : List ℕ} (h : SameMem z s) :
    SameMem z (State.tellLead s i kept) := by
  unfold State.tellLead
  try dsimp only
  with_reducible
    repeat' (first
      | assumption | apply State.sendCtrl_same_mem | intro _ _ _ | intro _ _ | intro _ | split)

theorem State.memberCommit_same_mem {z : State} {s : State} {i : ℕ} (h : SameMem z s) :
    SameMem z (State.memberCommit s i) := by
  unfold State.memberCommit
  try dsimp only
  with_reducible
    repeat' (first
      | assumption | apply State.commitFiles_same_mem | apply State.tellLead_same_mem | apply State.touchLanes_same_mem | split)

theorem State.countRun_same_mem {z : State} {s : State} {i : ℕ} (h : SameMem z s) :
    SameMem z (State.countRun s i) := by
  unfold State.countRun
  with_reducible
    repeat' (first
      | assumption | apply State.bump_same_mem | apply State.put_same_mem | split)

theorem State.tokenItem_same_mem {z : State} {s : State} {th : ℕ} (h : SameMem z s) :
    SameMem z (State.tokenItem s th) := by
  unfold State.tokenItem
  try dsimp only
  with_reducible
    repeat' (first
      | assumption | apply State.settleOpen_same_mem | apply State.memberCommit_same_mem | apply State.countRun_same_mem
      | apply SameMem.foldl | intro _ _ _ | intro _ _ | intro _ | split)

theorem State.countBound_same_mem {z : State} {s : State} {th : ℕ} (h : SameMem z s) :
    SameMem z (State.countBound s th) := by
  unfold State.countBound
  with_reducible
    repeat' (first
      | assumption | apply State.bump_same_mem | split)

theorem State.expire_same_mem {z : State} {s : State} {th : ℕ} {stepping : List ℕ} (h : SameMem z s) :
    SameMem z (State.expire s th stepping) := by
  unfold State.expire
  with_reducible
    repeat' (first
      | assumption | apply State.retireLate_same_mem | apply SameMem.foldl | intro _ _ _ | intro _ _ | intro _ | split)

theorem State.retireDamaged_same_mem {z : State} {s : State} {th : ℕ} (h : SameMem z s) :
    SameMem z (State.retireDamaged s th) := by
  unfold State.retireDamaged
  with_reducible
    repeat' (first
      | assumption | apply State.retireSeq_same_mem | apply State.modSeq_same_mem | apply SameMem.foldl | intro _ _ _ | intro _ _
      | intro _ | split)

theorem State.exhaust_same_mem {z : State} {s : State} {id : ℕ} {th : ℕ} (h : SameMem z s) :
    SameMem z (State.exhaust s id th) := by
  unfold State.exhaust
  try dsimp only
  with_reducible
    repeat' (first
      | assumption | apply State.raise_same_mem | apply State.retireSeq_same_mem | intro _ _ _ | intro _ _ | intro _ | split)

theorem State.degrade_same_mem {z : State} {s : State} {i : ℕ} {th : ℕ} (h : SameMem z s) :
    SameMem z (State.degrade s i th) := by
  unfold State.degrade
  try dsimp only
  with_reducible
    repeat' (first
      | assumption | apply State.bump_same_mem | apply State.suspend_same_mem | apply State.raise_same_mem | apply State.put_same_mem
      | split)

theorem State.retireItem_same_mem {z : State} {s : State} {th : ℕ} {ended : Bool} (h : SameMem z s) :
    SameMem z (State.retireItem s th ended) := by
  unfold State.retireItem
  try dsimp only
  with_reducible
    repeat' (first
      | assumption | apply State.expire_same_mem | apply State.retireDamaged_same_mem | apply State.exhaust_same_mem
      | apply State.degrade_same_mem | apply SameMem.foldl | intro _ _ _ | intro _ _ | intro _ | split)

theorem State.endStep_same_mem {z : State} {s : State} (h : SameMem z s) :
    SameMem z (State.endStep s) := by
  unfold State.endStep
  try dsimp only
  with_reducible
    repeat' (first
      | assumption | apply State.settleOpen_same_mem)

end Sys2Proof.Machine
end

