-- ==== Sys2Proof/Laws/SameMemLanes.lean ====
section
/-!
SUPPORT. Operations that leave device memory alone: the operations of Machine/Lanes.lean.
-/

set_option linter.all false

namespace Sys2Proof.Machine

theorem State.countTenant_same_mem {z : State} {s : State} (h : SameMem z s) :
    SameMem z (State.countTenant s) := by
  unfold State.countTenant
  try dsimp only
  with_reducible
    repeat' (first
      | assumption | apply State.put_same_mem | apply State.putBit_same_mem | apply SameMem.foldl | intro _ _ _ | intro _ _
      | intro _ | split)

theorem State.bindDawn_same_mem {z : State} {s : State} {id : ℕ} {q : Seq} (h : SameMem z s) :
    SameMemO z (State.bindDawn s id q) := by
  unfold State.bindDawn
  try dsimp only
  with_reducible
    repeat' (first
      | assumption | apply State.modSeq_same_mem | apply SameMemO.of | apply SameMemO.none | intro _ _ _ | intro _ _ | intro _
      | split)

theorem State.setRound_same_mem {z : State} {s : State} {k : ℕ} {r : Round} (h : SameMem z s) :
    SameMem z (State.setRound s k r) := by
  unfold State.setRound
  assumption

theorem State.fillWeighted_same_mem {z : State} {s : State} {i : ℕ} {cls : ℕ} {role : ℕ} {x4 : ℕ} {x5 : Filling} (h : SameMem z s) :
    SameMem z (State.fillWeighted s i cls role x4 x5).1 := by
  induction x4 generalizing s i cls role x5 with
  | zero =>
    unfold State.fillWeighted
    try dsimp only
    with_reducible
      repeat' (first
        | assumption | apply State.setRound_same_mem | intro _ _ _ | intro _ _ | intro _
        | (refine SameMem.fst (by assumption) ?_) | split)
  | succ y ih =>
    unfold State.fillWeighted
    try dsimp only
    with_reducible
      repeat' (first
        | assumption | apply ih | apply State.setRound_same_mem | intro _ _ _ | intro _ _ | intro _
        | (refine SameMem.fst (by assumption) ?_) | split)

theorem State.spend_same_mem {z : State} {s : State} {t : ℕ} {n : ℕ} (h : SameMem z s) :
    SameMem z (State.spend s t n) := by
  unfold State.spend
  with_reducible
    repeat' (first
      | assumption | intro _ _ _ | intro _ _ | intro _)

theorem State.fillBudget_same_mem {z : State} {s : State} {i : ℕ} {cls : ℕ} {role : ℕ} {x4 : ℕ} {x5 : Filling} (h : SameMem z s) :
    SameMem z (State.fillBudget s i cls role x4 x5).1 := by
  induction x4 generalizing s i cls role x5 with
  | zero =>
    unfold State.fillBudget
    try dsimp only
    with_reducible
      repeat' (first
        | assumption | apply State.spend_same_mem | intro _ _ _ | intro _ _ | intro _ | (refine SameMem.fst (by assumption) ?_)
        | split)
  | succ y ih =>
    unfold State.fillBudget
    try dsimp only
    with_reducible
      repeat' (first
        | assumption | apply ih | apply State.spend_same_mem | intro _ _ _ | intro _ _ | intro _
        | (refine SameMem.fst (by assumption) ?_) | split)

theorem State.fillClass_same_mem {z : State} {s : State} {i : ℕ} {cls : ℕ} {role : ℕ} {f : Filling} (h : SameMem z s) :
    SameMem z (State.fillClass s i cls role f).1 := by
  unfold State.fillClass
  with_reducible
    repeat' (first
      | assumption | apply State.fillWeighted_same_mem | apply State.fillBudget_same_mem
      | (refine SameMem.fst (by assumption) ?_) | split)

theorem State.fillInst_same_mem {z : State} {s : State} {i : ℕ} (h : SameMem z s) :
    SameMem z (State.fillInst s i).1 := by
  unfold State.fillInst
  try dsimp only
  with_reducible
    repeat' (first
      | assumption | apply State.fillClass_same_mem | intro _ _ _ | intro _ _ | intro _
      | (refine SameMem.fst (by assumption) ?_) | split)

theorem State.buildLanes_same_mem {z : State} {s : State} {i : ℕ} (h : SameMem z s) :
    SameMem z (State.buildLanes s i) := by
  unfold State.buildLanes
  try dsimp only
  with_reducible
    repeat' (first
      | assumption | apply State.sendAll_same_mem | apply State.fillInst_same_mem | intro _ _ _ | intro _ _ | intro _
      | (refine SameMem.fst (by assumption) ?_) | split)

theorem State.noteShort_same_mem {z : State} {s : State} (h : SameMem z s) :
    SameMem z (State.noteShort s) := by
  unfold State.noteShort
  with_reducible
    repeat' (first
      | assumption | apply State.bump_same_mem | split)

theorem State.addCredits_same_mem {z : State} {s : State} (h : SameMem z s) :
    SameMem z (State.addCredits s) := by
  unfold State.addCredits
  with_reducible
    repeat' (first
      | assumption | intro _ _ _ | intro _ _ | intro _ | split)

theorem State.countSeqs_same_mem {z : State} {s : State} (h : SameMem z s) :
    SameMem z (State.countSeqs s) := by
  unfold State.countSeqs
  try dsimp only
  with_reducible
    repeat' (first
      | assumption | apply State.put_same_mem | intro _ _ _ | intro _ _ | intro _)

theorem State.countWaits_same_mem {z : State} {s : State} (h : SameMem z s) :
    SameMem z (State.countWaits s) := by
  unfold State.countWaits
  try dsimp only
  with_reducible
    repeat' (first
      | assumption | apply State.modSeq_same_mem | apply SameMem.foldl | intro _ _ _ | intro _ _ | intro _ | split)

theorem State.countLanes_same_mem {z : State} {s : State} (h : SameMem z s) :
    SameMem z (State.countLanes s) := by
  unfold State.countLanes
  try dsimp only
  with_reducible
    repeat' (first
      | assumption | apply State.put_same_mem | intro _ _ _ | intro _ _ | intro _ | split)

theorem State.laneAckIn_same_mem {z : State} {s : State} {src : ℕ} {i : ℕ} {k : ℕ} {used : List (ℕ × ℕ)} {far : List ℕ} (h : SameMem z s) :
    SameMem z (State.laneAckIn s src i k used far) := by
  unfold State.laneAckIn
  try dsimp only
  with_reducible
    repeat' (first
      | assumption | apply SameMem.foldl | intro _ _ _ | intro _ _ | intro _ | split)

end Sys2Proof.Machine
end

