-- ==== Sys2Proof/Laws/SameMemAdapters.lean ====
section
/-!
SUPPORT. Operations that leave device memory alone: the operations of Machine/Adapters.lean.
-/

set_option linter.all false

namespace Sys2Proof.Machine

theorem State.dropSlices_same_mem {z : State} {s : State} {i : ℕ} {id : ℕ} {ver : ℕ} (h : SameMem z s) :
    SameMem z (State.dropSlices s i id ver) := by
  unfold State.dropSlices
  try dsimp only
  with_reducible
    repeat' (first
      | assumption | apply State.ownFree_same_mem | apply SameMem.foldl | intro _ _ _ | intro _ _ | intro _)

theorem State.dropVersion_same_mem {z : State} {s : State} {i : ℕ} {id : ℕ} {ver : ℕ} (h : SameMem z s) :
    SameMem z (State.dropVersion s i id ver) := by
  unfold State.dropVersion
  try dsimp only
  with_reducible
    repeat' (first
      | assumption | apply State.dropSlices_same_mem | intro _ _ _ | intro _ _ | intro _)

theorem State.modAdapter_same_mem {z : State} {s : State} {i : ℕ} {id : ℕ} {ver : ℕ} {f : Adapter → Adapter} (h : SameMem z s) :
    SameMem z (State.modAdapter s i id ver f) := by
  unfold State.modAdapter
  with_reducible
    repeat' (first
      | assumption | intro _ _ _ | intro _ _ | intro _ | split)

theorem State.tellVersion_same_mem {z : State} {s : State} {i : ℕ} {id : ℕ} {ver : ℕ} (h : SameMem z s) :
    SameMem z (State.tellVersion s i id ver) := by
  unfold State.tellVersion
  try dsimp only
  with_reducible
    repeat' (first
      | assumption | apply State.sendAll_same_mem)

theorem State.freeVersion_same_mem {z : State} {s : State} {i : ℕ} {id : ℕ} {ver : ℕ} (h : SameMem z s) :
    SameMem z (State.freeVersion s i id ver) := by
  unfold State.freeVersion
  with_reducible
    repeat' (first
      | assumption | apply State.tellVersion_same_mem | apply State.dropVersion_same_mem)

theorem State.freeDrained_same_mem {z : State} {s : State} (h : SameMem z s) :
    SameMem z (State.freeDrained s) := by
  unfold State.freeDrained
  with_reducible
    repeat' (first
      | assumption | apply State.freeVersion_same_mem | apply SameMem.foldl | intro _ _ _ | intro _ _ | intro _ | split)

theorem State.waitRoom_same_mem {z : State} {s : State} {t : Ticket} {a : Adapter} (h : SameMem z s) :
    SameMem z (State.waitRoom s t a) := by
  unfold State.waitRoom
  try dsimp only
  with_reducible
    repeat' (first
      | assumption | apply State.tellVersion_same_mem | apply State.modAdapter_same_mem | apply State.dropSlices_same_mem
      | apply State.mapTicket_same_mem | apply State.markPending_same_mem | intro _ _ _ | intro _ _ | intro _)

theorem State.loadConcluded_same_mem {z : State} {s : State} {t : Ticket} (h : SameMem z s) :
    SameMem z (State.loadConcluded s t) := by
  unfold State.loadConcluded
  with_reducible
    repeat' (first
      | assumption | apply State.freeVersion_same_mem | apply State.modAdapter_same_mem | apply State.finish_same_mem
      | apply State.finishWith_same_mem | apply State.waitRoom_same_mem | intro _ _ _ | intro _ _ | intro _ | split)

theorem State.switchVersions_same_mem {z : State} {s : State} (h : SameMem z s) :
    SameMem z (State.switchVersions s) := by
  unfold State.switchVersions
  with_reducible
    repeat' (first
      | assumption | apply SameMem.foldl | intro _ _ _ | intro _ _ | intro _ | split)

theorem State.retireAdapter_same_mem {z : State} {s : State} {i : ℕ} {id : ℕ} (h : SameMem z s) :
    SameMem z (State.retireAdapter s i id) := by
  unfold State.retireAdapter
  try dsimp only
  with_reducible
    repeat' (first
      | assumption | apply State.freeVersion_same_mem | apply State.modAdapter_same_mem | apply State.finishWith_same_mem
      | apply SameMem.foldl | intro _ _ _ | intro _ _ | intro _ | split)

theorem State.adapterItem_same_mem {z : State} {s : State} (h : SameMem z s) :
    SameMem z (State.adapterItem s) := by
  unfold State.adapterItem
  try dsimp only
  with_reducible
    repeat' (first
      | assumption | apply State.freeDrained_same_mem | apply State.switchVersions_same_mem | apply State.finishWith_same_mem
      | apply State.retireAdapter_same_mem | apply SameMem.foldl | intro _ _ _ | intro _ _ | intro _ | split)

theorem State.loadTimeout_same_mem {z : State} {s : State} {i : ℕ} {id : ℕ} {ver : ℕ} (h : SameMem z s) :
    SameMem z (State.loadTimeout s i id ver) := by
  unfold State.loadTimeout
  try dsimp only
  with_reducible
    repeat' (first
      | assumption | apply State.finishWith_same_mem | apply State.dropVersion_same_mem | split)

end Sys2Proof.Machine
end

