-- ==== Sys2Proof/Laws/SameMemAdmission.lean ====
section
/-!
SUPPORT. Operations that leave device memory alone: the operations of Machine/Admission.lean.
-/

set_option linter.all false

namespace Sys2Proof.Machine

theorem State.tellMembers_same_mem {z : State} {s : State} {i : ℕ} {p : Packet} {pay : Option Bytes} (h : SameMem z s) :
    SameMem z (State.tellMembers s i p pay) := by
  unfold State.tellMembers
  with_reducible
    repeat' (first
      | assumption | apply State.sendAll_same_mem | intro _ _ _ | intro _ _ | intro _)

theorem State.tellEnding_same_mem {z : State} {s : State} {t : Ticket} (h : SameMem z s) :
    SameMem z (State.tellEnding s t) := by
  unfold State.tellEnding
  try dsimp only
  with_reducible
    repeat' (first
      | assumption | apply State.mapTicket_same_mem | apply State.tellMembers_same_mem | intro _ _ _ | intro _ _ | intro _
      | split)

theorem State.tenantSet_same_mem {z : State} {s : State} {t : Ticket} (h : SameMem z s) :
    SameMem z (State.tenantSet s t) := by
  unfold State.tenantSet
  try dsimp only
  with_reducible
    repeat' (first
      | assumption | apply State.finishWith_same_mem | intro _ _ _ | intro _ _ | intro _ | split)

theorem State.nextStart_same_mem {z : State} {s : State} (h : SameMem z s) :
    SameMem z (State.nextStart s).1 := by
  unfold State.nextStart
  with_reducible
    repeat' (first
      | assumption | apply State.draw_same_mem | (refine SameMem.fst (by assumption) ?_) | split)

theorem State.reserveFar_same_mem {z : State} {s : State} {x : Inst} {tenant : ℕ} {maxLen : ℕ} {len : ℕ} (h : SameMem z s) :
    SameMem z (State.reserveFar s x tenant maxLen len) := by
  unfold State.reserveFar
  with_reducible
    repeat' (first
      | assumption | apply SameMem.foldl | intro _ _ _ | intro _ _ | intro _)

theorem State.newHandle_same_mem {z : State} {s : State} {h0 : Handle} (h : SameMem z s) :
    SameMemP z (State.newHandle s h0) := by
  unfold State.newHandle
  try dsimp only
  with_reducible
    repeat' (first
      | assumption | apply SameMemP.of | apply SameMemP.none | apply SameMemO.mapPair | apply SameMemO.mapState | apply SameMemO.map
      | apply SameMemP.mapPair | apply SameMemP.map | intro _ _ _ | intro _ _ | intro _
      | (refine SameMem.fst (by assumption) ?_))

theorem State.syncFiles_same_mem {z : State} {s : State} (h : SameMem z s) :
    SameMem z (State.syncFiles s) := by
  unfold State.syncFiles
  with_reducible
    repeat' (first
      | assumption | apply State.setFile_same_mem | apply SameMem.foldl | intro _ _ _ | intro _ _ | intro _ | split)

theorem State.seqCancel_same_mem {z : State} {s : State} {t : Ticket} {th : ℕ} (h : SameMem z s) :
    SameMem z (State.seqCancel s t th) := by
  unfold State.seqCancel
  with_reducible
    repeat' (first
      | assumption | apply State.finishWith_same_mem | apply State.retireSeq_same_mem | split)

theorem State.seqAppend_same_mem {z : State} {s : State} {t : Ticket} (h : SameMem z s) :
    SameMem z (State.seqAppend s t) := by
  unfold State.seqAppend
  try dsimp only
  with_reducible
    repeat' (first
      | assumption | apply State.bindDawn_same_mem | apply State.bump_same_mem | apply State.finishWith_same_mem
      | apply State.modSeq_same_mem | apply SameMemO.of | apply SameMemO.none | apply SameMemP.of | apply SameMemP.none
      | apply SameMem.foldl | apply SameMem.foldlPair | apply SameMemO.tryAll | apply SameMemO.getD | apply SameMemO.mapPair
      | apply SameMemO.mapState | apply SameMemO.map | apply SameMemP.mapPair | apply SameMemP.map | apply SameMemO.foldl
      | apply SameMemP.foldl | intro _ _ _ | intro _ _ | intro _ | (refine SameMem.fst (by assumption) ?_)
      | (refine SameMem.ofSome (by assumption) ?_) | (refine SameMem.somePair (by assumption) ?_)
      | (dsimp only [SameMem]; refine SameMem.parts (SameMem.somePair (by assumption) ?_))
      | (dsimp only [SameMem]; refine SameMem.parts (SameMem.ofSome (by assumption) ?_)) | split)

theorem State.kvExport_same_mem {z : State} {s : State} {t : Ticket} (h : SameMem z s) :
    SameMem z (State.kvExport s t) := by
  unfold State.kvExport
  try dsimp only
  with_reducible
    repeat' (first
      | assumption | apply State.reply_same_mem | apply State.awaitSelf_same_mem | apply State.finishWith_same_mem
      | apply State.forwardTo_same_mem | split)

theorem State.undefer_same_mem {z : State} {s : State} {no : ℕ} (h : SameMem z s) :
    SameMem z (State.undefer s no) := by
  unfold State.undefer
  with_reducible
    repeat' (first
      | assumption | intro _ _ _ | intro _ _ | intro _)

theorem State.syncSeqs_same_mem {z : State} {s : State} (h : SameMem z s) :
    SameMem z (State.syncSeqs s) := by
  unfold State.syncSeqs
  with_reducible
    repeat' (first
      | assumption | apply State.modSeq_same_mem | apply SameMem.foldl | intro _ _ _ | intro _ _ | intro _ | split)

theorem State.markCancelled_same_mem {z : State} {s : State} (h : SameMem z s) :
    SameMem z (State.markCancelled s) := by
  unfold State.markCancelled
  with_reducible
    repeat' (first
      | assumption | apply State.modSeq_same_mem | apply SameMem.foldl | intro _ _ _ | intro _ _ | intro _ | split)

end Sys2Proof.Machine
end

