-- ==== Sys2Proof/Laws/SameMemFetching.lean ====
section
/-!
SUPPORT. Operations that leave device memory alone: the operations of Machine/Fetching.lean.
-/

set_option linter.all false

namespace Sys2Proof.Machine

theorem State.fetchRing_same_mem {z : State} {s : State} {i : ℕ} (h : SameMem z s) :
    SameMem z (State.fetchRing s i) := by
  unfold State.fetchRing
  try dsimp only
  with_reducible
    repeat' (first
      | assumption | apply State.emit_same_mem | apply State.noteHold_same_mem | apply SameMem.foldl | intro _ _ _ | intro _ _
      | intro _ | split)

theorem State.resumeRing_same_mem {z : State} {s : State} {i : ℕ} (h : SameMem z s) :
    SameMem z (State.resumeRing s i) := by
  unfold State.resumeRing
  with_reducible
    repeat' (first
      | assumption | apply State.drainCq_same_mem | apply State.fetchRing_same_mem)

theorem State.dropFetches_same_mem {z : State} {s : State} {i : ℕ} (h : SameMem z s) :
    SameMem z (State.dropFetches s i) := by
  unfold State.dropFetches
  with_reducible
    repeat' (first
      | assumption | intro _ _ _ | intro _ _ | intro _)

end Sys2Proof.Machine
end

