-- ==== Sys2Proof/Laws/SameMemRegWrite.lean ====
section
/-!
SUPPORT. Operations that leave device memory alone: the operations of Machine/RegWrite.lean.
-/

set_option linter.all false

namespace Sys2Proof.Machine

theorem State.writeField_same_mem {z : State} {s : State} {v : ℕ} {m : ℕ} {f : Field} (h : SameMem z s) :
    SameMem z (State.writeField s v m f) := by
  unfold State.writeField
  try dsimp only
  with_reducible
    repeat' (first
      | assumption | apply State.put_same_mem | split)

theorem State.selectEvent_same_mem {z : State} {s : State} {q : ℕ} (h : SameMem z s) :
    SameMem z (State.selectEvent s q) := by
  unfold State.selectEvent
  try dsimp only
  with_reducible
    repeat' (first
      | assumption | apply State.draw_same_mem | apply State.put_same_mem | apply SameMem.foldl | intro _ _ _ | intro _ _
      | intro _ | split)

theorem State.startRing_same_mem {z : State} {s : State} {k : ℕ} {i : ℕ} (h : SameMem z s) :
    SameMem z (State.startRing s k i) := by
  unfold State.startRing
  try dsimp only
  with_reducible
    repeat' (first
      | assumption | apply State.resumeRing_same_mem | apply State.put_same_mem | split)

theorem State.ringCtrl_same_mem {z : State} {s : State} {k : ℕ} {i : ℕ} {v : ℕ} {m : ℕ} (h : SameMem z s) :
    SameMem z (State.ringCtrl s k i v m) := by
  unfold State.ringCtrl
  try dsimp only
  with_reducible
    repeat' (first
      | assumption | apply State.dropFetches_same_mem | apply State.writeField_same_mem | apply State.startRing_same_mem
      | apply SameMem.foldl | intro _ _ _ | intro _ _ | intro _ | split)

theorem State.clearHealth_same_mem {z : State} {s : State} {i : ℕ} (h : SameMem z s) :
    SameMem z (State.clearHealth s i) := by
  unfold State.clearHealth
  with_reducible
    repeat' (first
      | assumption | apply State.put_same_mem | split)

theorem State.reopen_same_mem {z : State} {s : State} (h : SameMem z s) :
    SameMem z (State.reopen s) := by
  unfold State.reopen
  try dsimp only
  with_reducible
    repeat' (first
      | assumption | apply State.resumeRing_same_mem | apply State.emit_same_mem | apply SameMem.foldl | intro _ _ _ | intro _ _
      | intro _ | split)

end Sys2Proof.Machine
end

