-- ==== Sys2Proof/Laws/SameMemFlash.lean ====
section
/-!
SUPPORT. Operations that leave device memory alone: the operations of Machine/Flash.lean.
-/

set_option linter.all false

namespace Sys2Proof.Machine

theorem State.flashStatus_same_mem {z : State} {s : State} (h : SameMem z s) :
    SameMem z (State.flashStatus s) := by
  unfold State.flashStatus
  try dsimp only
  with_reducible
    repeat' (first
      | assumption | apply State.put_same_mem)

theorem State.newMap_same_mem {z : State} {s : State} {m : Mgt} (h : SameMem z s) :
    SameMem z (State.newMap s m) := by
  unfold State.newMap
  try dsimp only
  with_reducible
    repeat' (first
      | assumption | apply State.flashStatus_same_mem)

theorem State.moveSector_same_mem {z : State} {s : State} {l : ℕ} {retire : Bool} (h : SameMem z s) :
    SameMem z (State.moveSector s l retire) := by
  unfold State.moveSector
  try dsimp only
  with_reducible
    repeat' (first
      | assumption | apply State.draw_same_mem | apply State.newMap_same_mem | split)

theorem State.eraseSector_same_mem {z : State} {s : State} {l : ℕ} (h : SameMem z s) :
    SameMem z (State.eraseSector s l) := by
  unfold State.eraseSector
  try dsimp only
  with_reducible
    repeat' (first
      | assumption | apply State.moveSector_same_mem | split)

theorem State.writeEvent_same_mem {z : State} {s : State} {fails : Bool} (h : SameMem z s) :
    SameMem z (State.writeEvent s fails) := by
  unfold State.writeEvent
  try dsimp only
  with_reducible
    repeat' (first
      | assumption | apply State.moveSector_same_mem | apply State.put_same_mem | apply State.eraseSector_same_mem | intro _ _ _
      | intro _ _ | intro _ | split)

theorem State.findNewest_same_mem {z : State} {s : State} (h : SameMem z s) :
    SameMem z (State.findNewest s) := by
  unfold State.findNewest
  with_reducible
    repeat' (first
      | assumption | apply State.put_same_mem | split)

theorem State.refreshFlash_same_mem {z : State} {s : State} {weak : List ℕ} (h : SameMem z s) :
    SameMem z (State.refreshFlash s weak) := by
  unfold State.refreshFlash
  try dsimp only
  with_reducible
    repeat' (first
      | assumption | apply State.moveSector_same_mem | apply SameMem.foldl | intro _ _ _ | intro _ _ | intro _)

end Sys2Proof.Machine
end

