-- ==== Sys2Proof/Laws/SameMemPlaces.lean ====
section
/-!
SUPPORT. Operations that leave device memory alone: the operations of Machine/Places.lean.
-/

set_option linter.all false

namespace Sys2Proof.Machine

theorem State.markDoubled_same_mem {z : State} {s : State} {c : Places} {id : ℕ} (h : SameMem z s) :
    SameMem z (State.markDoubled s c id) := by
  unfold State.markDoubled
  try dsimp only
  with_reducible
    repeat' (first
      | assumption | apply State.putBit_same_mem | apply SameMem.foldl | intro _ _ _ | intro _ _ | intro _ | split)

theorem State.placed_same_mem {z : State} {s : State} {c : Places} (h : SameMem z s) :
    SameMem z (State.placed s c) := by
  unfold State.placed
  try dsimp only
  with_reducible
    repeat' (first
      | assumption | apply State.put_same_mem)

theorem State.viaPlaces_same_mem {z : State} {s : State} {c : Places} {act : State → State} (h : SameMem z s) (h1 : ∀ y0, SameMem z y0 → SameMem z (act y0)) :
    SameMem z (State.viaPlaces s c act) := by
  unfold State.viaPlaces
  try dsimp only
  with_reducible
    repeat' (first
      | assumption | apply State.put_same_mem | apply State.placed_same_mem | apply h1)

end Sys2Proof.Machine
end

