-- ==== Sys2Proof/Laws/SameMemFabric.lean ====
section
/-!
SUPPORT. Operations that leave device memory alone: the operations of Machine/Fabric.lean.
-/

set_option linter.all false

namespace Sys2Proof.Machine

theorem State.refreshLinks_same_mem {z : State} {s : State} (h : SameMem z s) :
    SameMem z (State.refreshLinks s) := by
  unfold State.refreshLinks
  try dsimp only
  with_reducible
    repeat' (first
      | assumption | apply State.putBit_same_mem | intro _ _ _ | intro _ _ | intro _)

theorem State.enterTrain_same_mem {z : State} {s : State} {p : ℕ} (h : SameMem z s) :
    SameMem z (State.enterTrain s p) := by
  unfold State.enterTrain
  with_reducible
    repeat' (first
      | assumption | apply State.modLink_same_mem | apply State.refreshLinks_same_mem | apply State.put_same_mem | intro _ _ _
      | intro _ _ | intro _)

theorem State.resumeReplay_same_mem {z : State} {s : State} (h : SameMem z s) :
    SameMem z (State.resumeReplay s) := by
  unfold State.resumeReplay
  try dsimp only
  with_reducible
    repeat' (first
      | assumption | apply State.modLink_same_mem | apply State.transmit_same_mem | apply SameMem.foldl | intro _ _ _ | intro _ _
      | intro _ | split)

theorem State.deferReplay_same_mem {z : State} {s : State} (h : SameMem z s) :
    SameMem z (State.deferReplay s) := by
  unfold State.deferReplay
  try dsimp only
  with_reducible
    repeat' (first
      | assumption | apply State.modLink_same_mem | apply State.bump_same_mem | apply SameMem.foldl | intro _ _ _ | intro _ _
      | intro _ | split)

theorem State.receive_same_mem {z : State} {s : State} {p : ℕ} {f : Frame} {fixed : ℕ} {act : State → State} (h : SameMem z s) (h1 : ∀ y0, SameMem z y0 → SameMem z (act y0)) :
    SameMem z (State.receive s p f fixed act) := by
  unfold State.receive
  try dsimp only
  with_reducible
    repeat' (first
      | assumption | apply State.modLink_same_mem | apply State.collectives_same_mem | apply State.acknowledge_same_mem
      | apply State.wrapAdd_same_mem | apply h1 | intro _ _ _ | intro _ _ | intro _ | split)

theorem State.discardFrame_same_mem {z : State} {s : State} {p : ℕ} (h : SameMem z s) :
    SameMem z (State.discardFrame s p) := by
  unfold State.discardFrame
  with_reducible
    repeat' (first
      | assumption | apply State.sendNak_same_mem | split)

theorem State.answerFenced_same_mem {z : State} {s : State} {port : Option ℕ} {dev : ℕ} {epoch : ℕ} {serial : ℕ} (h : SameMem z s) :
    SameMem z (State.answerFenced s port dev epoch serial) := by
  unfold State.answerFenced
  try dsimp only
  with_reducible
    repeat' (first
      | assumption | apply State.sendPort_same_mem | split)

theorem State.ctrlIn_same_mem {z : State} {s : State} {p : ℕ} {frags : ℕ} {m : CtrlMsg} {act : State → State} (h : SameMem z s) (h1 : ∀ y0, SameMem z y0 → SameMem z (act y0)) :
    SameMem z (State.ctrlIn s p frags m act) := by
  unfold State.ctrlIn
  try dsimp only
  with_reducible
    repeat' (first
      | assumption | apply State.modLink_same_mem | apply State.sendFragments_same_mem | apply State.sendPort_same_mem
      | apply State.answerFenced_same_mem | apply h1 | intro _ _ _ | intro _ _ | intro _ | split)

theorem State.trainDone_same_mem {z : State} {s : State} {p : ℕ} {ok : Bool} (h : SameMem z s) :
    SameMem z (State.trainDone s p ok) := by
  unfold State.trainDone
  try dsimp only
  with_reducible
    repeat' (first
      | assumption | apply State.modLink_same_mem | apply State.refreshLinks_same_mem | apply State.finish_same_mem
      | apply State.raise_same_mem | apply State.put_same_mem | apply State.putBit_same_mem | intro _ _ _ | intro _ _ | intro _
      | split)

theorem State.ackIn_same_mem {z : State} {s : State} {src : ℕ} {msgId : ℕ} (h : SameMem z s) :
    SameMem z (State.ackIn s src msgId) := by
  unfold State.ackIn
  try dsimp only
  with_reducible
    repeat' (first
      | assumption | intro _ _ _ | intro _ _ | intro _ | split)

end Sys2Proof.Machine
end

