-- ==== Sys2Proof/Laws/SameMemStack.lean ====
section
/-!
SUPPORT. Operations that leave device memory alone: the operations of Machine/Stack.lean.
-/

set_option linter.all false

namespace Sys2Proof.Machine

theorem State.channelLost_same_mem {z : State} {s : State} {n : ℕ} {pc : ℕ} (h : SameMem z s) :
    SameMem z (State.channelLost s n pc) := by
  unfold State.channelLost
  try dsimp only
  with_reducible
    repeat' (first
      | assumption | apply State.raise_same_mem | intro _ _ _ | intro _ _ | intro _ | split)

theorem State.markLane_same_mem {z : State} {s : State} {n : ℕ} {pc : ℕ} {lane : ℕ} (h : SameMem z s) :
    SameMem z (State.markLane s n pc lane) := by
  unfold State.markLane
  try dsimp only
  with_reducible
    repeat' (first
      | assumption | apply State.bump_same_mem | apply State.raise_same_mem | apply State.modStack_same_mem | intro _ _ _
      | intro _ _ | intro _ | split)

theorem State.nbuRecord_same_mem {z : State} {s : State} {n : ℕ} {u : ℕ} {cause : ℕ} {atom : ℕ} {idx : ℕ} (h : SameMem z s) :
    SameMem z (State.nbuRecord s n u cause atom idx) := by
  unfold State.nbuRecord
  try dsimp only
  with_reducible
    repeat' (first
      | assumption | apply State.put_same_mem | apply State.putBit_same_mem | split)

theorem State.setUnit_same_mem {z : State} {s : State} {n : ℕ} {u : ℕ} {x : Option NbUnit} (h : SameMem z s) :
    SameMem z (State.setUnit s n u x) := by
  unfold State.setUnit
  try dsimp only
  with_reducible
    repeat' (first
      | assumption | apply State.put_same_mem | apply State.modStack_same_mem | intro _ _ _ | intro _ _ | intro _)

theorem State.nbuEnd_same_mem {z : State} {s : State} {n : ℕ} {h0 : Queued} {e : Event} {st : Status} (h : SameMem z s) :
    SameMem z (State.nbuEnd s n h0 e st) := by
  unfold State.nbuEnd
  try dsimp only
  with_reducible
    repeat' (first
      | assumption | apply State.bump_same_mem | apply State.raise_same_mem | apply State.setUnit_same_mem
      | apply State.failHead_same_mem | apply SameMem.foldl | intro _ _ _ | intro _ _ | intro _)

theorem State.nbuFail_same_mem {z : State} {s : State} {n : ℕ} {u : ℕ} {cause : ℕ} {atom : ℕ} {h0 : Queued} (h : SameMem z s) :
    SameMem z (State.nbuFail s n u cause atom h0) := by
  unfold State.nbuFail
  with_reducible
    repeat' (first
      | assumption | apply State.nbuRecord_same_mem | apply State.nbuEnd_same_mem | split)

theorem State.nbuDone_same_mem {z : State} {s : State} {n : ℕ} {h0 : Queued} (h : SameMem z s) :
    SameMem z (State.nbuDone s n h0) := by
  unfold State.nbuDone
  with_reducible
    repeat' (first
      | assumption | apply State.complete_same_mem | intro _ _ _ | intro _ _ | intro _ | split)

theorem State.unitNext_same_mem {z : State} {s : State} {n : ℕ} {u : ℕ} {x : NbUnit} {h0 : Queued} (h : SameMem z s) :
    SameMem z (State.unitNext s n u x h0) := by
  unfold State.unitNext
  with_reducible
    repeat' (first
      | assumption | apply State.nbuDone_same_mem | apply State.setUnit_same_mem | split)

theorem State.returnCredit_same_mem {z : State} {s : State} {data : Bool} (h : SameMem z s) :
    SameMem z (State.returnCredit s data) := by
  unfold State.returnCredit
  with_reducible
    repeat' (first
      | assumption | split)

theorem State.memServed_same_mem {z : State} {s : State} {write : Bool} {arrived : ℕ} (h : SameMem z s) :
    SameMem z (State.memServed s write arrived) := by
  unfold State.memServed
  try dsimp only
  with_reducible
    repeat' (first
      | assumption | apply State.bump_same_mem | apply State.put_same_mem | apply State.wrapAdd_same_mem | split)

theorem State.writeServed_same_mem {z : State} {s : State} {tag : ℕ} {arrived : ℕ} (h : SameMem z s) :
    SameMem z (State.writeServed s tag arrived) := by
  unfold State.writeServed
  with_reducible
    repeat' (first
      | assumption | apply State.returnCredit_same_mem | apply State.memServed_same_mem | apply State.emit_same_mem)

theorem State.setBal_same_mem {z : State} {s : State} {n : ℕ} {pc : ℕ} {b : ℤ} (h : SameMem z s) :
    SameMem z (State.setBal s n pc b) := by
  unfold State.setBal
  with_reducible
    repeat' (first
      | assumption | apply State.modStack_same_mem | intro _ _ _ | intro _ _ | intro _)

theorem State.refreshes_same_mem {z : State} {s : State} {n : ℕ} {pc : ℕ} (h : SameMem z s) :
    SameMem z (State.refreshes s n pc) := by
  unfold State.refreshes
  try dsimp only
  with_reducible
    repeat' (first
      | assumption | apply State.setBal_same_mem | apply State.wrapAdd_same_mem | apply State.modStack_same_mem | intro _ _ _
      | intro _ _ | intro _ | split)

theorem State.refreshInterval_same_mem {z : State} {s : State} {n : ℕ} {pc : ℕ} (h : SameMem z s) :
    SameMem z (State.refreshInterval s n pc) := by
  unfold State.refreshInterval
  try dsimp only
  with_reducible
    repeat' (first
      | assumption | apply State.refreshes_same_mem | apply State.setBal_same_mem | apply State.modStack_same_mem | intro _ _ _
      | intro _ _ | intro _ | split)

theorem State.nbuStart_same_mem {z : State} {s : State} {n : ℕ} {mem : MemReport} (h : SameMem z s) :
    SameMem z (State.nbuStart s n mem) := by
  unfold State.nbuStart
  try dsimp only
  with_reducible
    repeat' (first
      | assumption | apply State.nbuFail_same_mem | apply State.complete_same_mem | apply State.gate_same_mem
      | apply State.setUnit_same_mem | apply State.memReport_same_mem | apply State.nbuEnd_same_mem | apply State.setHead_same_mem
      | apply SameMem.foldl | intro _ _ _ | intro _ _ | intro _ | (refine SameMem.fst (by assumption) ?_) | split)

theorem State.fenceUnits_same_mem {z : State} {s : State} {n : ℕ} (h : SameMem z s) :
    SameMem z (State.fenceUnits s n) := by
  unfold State.fenceUnits
  try dsimp only
  with_reducible
    repeat' (first
      | assumption | apply State.raise_same_mem | apply State.put_same_mem | apply State.modStack_same_mem | apply SameMem.foldl
      | intro _ _ _ | intro _ _ | intro _ | split)

theorem State.setNbSlot_same_mem {z : State} {s : State} {n : ℕ} {u : ℕ} {k : ℕ} {x : Slot} (h : SameMem z s) :
    SameMem z (State.setNbSlot s n u k x) := by
  unfold State.setNbSlot
  with_reducible
    repeat' (first
      | assumption | apply State.modStack_same_mem | intro _ _ _ | intro _ _ | intro _)

end Sys2Proof.Machine
end

