-- ==== Sys2Proof/Laws/SameMemStaging.lean ====
section
/-!
SUPPORT. Operations that leave device memory alone: the operations of Machine/Staging.lean.
-/

set_option linter.all false

namespace Sys2Proof.Machine

theorem State.takeRegs_same_mem {z : State} {s : State} {which : ℕ → Bool} (h : SameMem z s) :
    SameMem z (State.takeRegs s which) := by
  unfold State.takeRegs
  with_reducible
    repeat' (first
      | assumption | apply State.put_same_mem | apply SameMem.foldl | intro _ _ _ | intro _ _ | intro _ | split)

theorem State.wouldDevice_same_mem {z : State} {s : State} (h : SameMem z s) :
    SameMem z (State.wouldDevice s) := by
  unfold State.wouldDevice
  with_reducible
    repeat' (first
      | assumption | apply State.takeRegs_same_mem | intro _ _ _ | intro _ _ | intro _)

theorem State.digest_same_mem {z : State} {s : State} (h : SameMem z s) :
    SameMem z (State.digest s) := by
  unfold State.digest
  with_reducible
    repeat' (first
      | assumption | apply State.put_same_mem)

theorem State.refreshCfg_same_mem {z : State} {s : State} (h : SameMem z s) :
    SameMem z (State.refreshCfg s) := by
  unfold State.refreshCfg
  try dsimp only
  with_reducible
    repeat' (first
      | assumption | apply State.put_same_mem | apply State.putBit_same_mem | intro _ _ _ | intro _ _ | intro _)

theorem State.stageEntry_same_mem {z : State} {s : State} {e : ℕ × ℕ × ℕ} (h : SameMem z s) :
    SameMem z (State.stageEntry s e) := by
  unfold State.stageEntry
  with_reducible
    repeat' (first
      | assumption | apply SameMem.foldl | intro _ _ _ | intro _ _ | intro _)

theorem State.stageEntries_same_mem {z : State} {s : State} {b : Bytes} (h : SameMem z s) :
    SameMemO z (State.stageEntries s b) := by
  unfold State.stageEntries
  with_reducible
    repeat' (first
      | assumption | apply State.stageEntry_same_mem | apply SameMemO.of | apply SameMemO.none | apply SameMemO.tryAll
      | intro _ _ _ | intro _ _ | intro _ | split)

theorem State.lessGone_same_mem {z : State} {s : State} {stay : Table (Option Inst)} (h : SameMem z s) :
    SameMem z (State.lessGone s stay) := by
  unfold State.lessGone
  with_reducible
    repeat' (first
      | assumption | apply State.put_same_mem | apply SameMem.foldl | intro _ _ _ | intro _ _ | intro _)

theorem State.wouldCluster_same_mem {z : State} {s : State} (h : SameMem z s) :
    SameMem z (State.wouldCluster s) := by
  unfold State.wouldCluster
  try dsimp only
  with_reducible
    repeat' (first
      | assumption | apply State.lessGone_same_mem | apply State.takeRegs_same_mem | intro _ _ _ | intro _ _ | intro _ | split)

theorem State.countConflict_same_mem {z : State} {s : State} (h : SameMem z s) :
    SameMem z (State.countConflict s) := by
  unfold State.countConflict
  with_reducible
    repeat' (first
      | assumption | apply State.bump_same_mem)

end Sys2Proof.Machine
end

