-- ==== Sys2Proof/Laws/SameMemCommit.lean ====
section
/-!
SUPPORT. Operations that leave device memory alone: the operations of Machine/Commit.lean.
-/

set_option linter.all false

namespace Sys2Proof.Machine

theorem State.lockSets_same_mem {z : State} {s : State} {cluster : Bool} {device : Bool} (h : SameMem z s) :
    SameMem z (State.lockSets s cluster device) := by
  unfold State.lockSets
  with_reducible
    repeat' (first
      | assumption | apply State.refreshCfg_same_mem)

theorem State.commitDone_same_mem {z : State} {s : State} {no : ℕ} {r0 : ℕ} {r1 : ℕ} (h : SameMem z s) :
    SameMem z (State.commitDone s no r0 r1) := by
  unfold State.commitDone
  try dsimp only
  with_reducible
    repeat' (first
      | assumption | apply State.reply_same_mem | apply State.lockSets_same_mem | split)

theorem State.finishSettled_same_mem {z : State} {s : State} {no : ℕ} {r0 : ℕ} {r1 : ℕ} (h : SameMem z s) :
    SameMem z (State.finishSettled s no r0 r1) := by
  unfold State.finishSettled
  with_reducible
    repeat' (first
      | assumption | apply State.commitDone_same_mem | split)

theorem State.refuseCommit_same_mem {z : State} {s : State} {t : Ticket} (h : SameMem z s) :
    SameMem z (State.refuseCommit s t) := by
  unfold State.refuseCommit
  with_reducible
    repeat' (first
      | assumption | apply State.bump_same_mem | apply State.finishWith_same_mem)

theorem State.abortCommit_same_mem {z : State} {s : State} {c : LeadCommit} {dev : ℕ} {detail : ℕ} (h : SameMem z s) :
    SameMem z (State.abortCommit s c dev detail) := by
  unfold State.abortCommit
  try dsimp only
  with_reducible
    repeat' (first
      | assumption | apply State.bump_same_mem | apply State.finish_same_mem | apply State.sendAll_same_mem
      | apply State.lockSets_same_mem)

theorem State.decideCommit_same_mem {z : State} {s : State} (h : SameMem z s) :
    SameMem z (State.decideCommit s) := by
  unfold State.decideCommit
  try dsimp only
  with_reducible
    repeat' (first
      | assumption | apply State.abortCommit_same_mem | apply State.sendAll_same_mem | apply SameMem.foldl | intro _ _ _
      | intro _ _ | intro _ | split)

theorem State.decideEarly_same_mem {z : State} {s : State} (h : SameMem z s) :
    SameMem z (State.decideEarly s) := by
  unfold State.decideEarly
  with_reducible
    repeat' (first
      | assumption | apply State.decideCommit_same_mem | split)

theorem State.refreshProt_same_mem {z : State} {s : State} (h : SameMem z s) :
    SameMem z (State.refreshProt s) := by
  unfold State.refreshProt
  with_reducible
    repeat' (first
      | assumption | apply State.unprotect_same_mem | intro _ _ _ | intro _ _ | intro _ | split)

theorem State.showPlan_same_mem {z : State} {s : State} (h : SameMem z s) :
    SameMem z (State.showPlan s) := by
  unfold State.showPlan
  try dsimp only
  with_reducible
    repeat' (first
      | assumption | apply State.put_same_mem | intro _ _ _ | intro _ _ | intro _)

theorem State.commitCluster_same_mem {z : State} {s : State} {t : Ticket} (h : SameMem z s) :
    SameMem z (State.commitCluster s t) := by
  unfold State.commitCluster
  try dsimp only
  with_reducible
    repeat' (first
      | assumption | apply State.refuseCommit_same_mem | apply State.finishWith_same_mem | apply State.wouldCluster_same_mem
      | apply State.sendAll_same_mem | apply State.decideEarly_same_mem | apply State.lockSets_same_mem | split)

theorem State.declaredAbort_same_mem {z : State} {s : State} {dev : ℕ} (h : SameMem z s) :
    SameMem z (State.declaredAbort s dev) := by
  unfold State.declaredAbort
  with_reducible
    repeat' (first
      | assumption | apply State.abortCommit_same_mem | split)

theorem State.releaseSettled_same_mem {z : State} {s : State} (h : SameMem z s) :
    SameMem z (State.releaseSettled s) := by
  unfold State.releaseSettled
  try dsimp only
  with_reducible
    repeat' (first
      | assumption | apply State.releaseHeld_same_mem | apply State.commitDone_same_mem | apply SameMem.foldl | intro _ _ _
      | intro _ _ | intro _ | split)

theorem State.commitPlan_same_mem {z : State} {s : State} (h : SameMem z s) :
    SameMem z (State.commitPlan s) := by
  unfold State.commitPlan
  try dsimp only
  with_reducible
    repeat' (first
      | assumption | apply State.put_same_mem | apply State.showPlan_same_mem | split)

theorem State.deferCommit_same_mem {z : State} {s : State} (h : SameMem z s) :
    SameMem z (State.deferCommit s) := by
  unfold State.deferCommit
  with_reducible
    repeat' (first
      | assumption | apply State.refreshCfg_same_mem | split)

theorem State.replyIn_same_mem {z : State} {s : State} {src : ℕ} {epoch : ℕ} {check : Option ℕ} (h : SameMem z s) :
    SameMem z (State.replyIn s src epoch check) := by
  unfold State.replyIn
  try dsimp only
  with_reducible
    repeat' (first
      | assumption | apply State.decideEarly_same_mem | intro _ _ _ | intro _ _ | intro _ | split)

theorem State.goIn_same_mem {z : State} {s : State} {epoch : ℕ} (h : SameMem z s) :
    SameMem z (State.goIn s epoch) := by
  unfold State.goIn
  with_reducible
    repeat' (first
      | assumption | split)

theorem State.prepareIn_same_mem {z : State} {s : State} {src : ℕ} {epoch : ℕ} {k : ℕ} (h : SameMem z s) :
    SameMem z (State.prepareIn s src epoch k) := by
  unfold State.prepareIn
  try dsimp only
  with_reducible
    repeat' (first
      | assumption | apply State.sendCtrl_same_mem | apply State.countConflict_same_mem | apply State.wouldCluster_same_mem
      | apply State.lockSets_same_mem | split)

theorem State.abortIn_same_mem {z : State} {s : State} {epoch : ℕ} (h : SameMem z s) :
    SameMem z (State.abortIn s epoch) := by
  unfold State.abortIn
  with_reducible
    repeat' (first
      | assumption | apply State.bump_same_mem | apply State.lockSets_same_mem | split)

end Sys2Proof.Machine
end

