-- ==== Sys2Proof/Laws/SameMemMeridian.lean ====
section
/-!
SUPPORT. Operations that leave device memory alone: the operations of Machine/Meridian.lean.
-/

set_option linter.all false

namespace Sys2Proof.Machine

theorem State.dropSteps_same_mem {z : State} {s : State} (h : SameMem z s) :
    SameMem z (State.dropSteps s) := by
  unfold State.dropSteps
  with_reducible
    repeat' (first
      | assumption | apply State.abandonTile_same_mem | apply State.clearColl_same_mem | apply SameMem.foldl | intro _ _ _
      | intro _ _ | intro _ | split)

theorem State.dropSends_same_mem {z : State} {s : State} (h : SameMem z s) :
    SameMem z (State.dropSends s) := by
  unfold State.dropSends
  with_reducible
    repeat' (first
      | assumption | intro _ _ _ | intro _ _ | intro _)

theorem State.endWait_same_mem {z : State} {s : State} {no : Option ℕ} {a : Answer} (h : SameMem z s) :
    SameMem z (State.endWait s no a) := by
  unfold State.endWait
  with_reducible
    repeat' (first
      | assumption | apply State.finish_same_mem | split)

theorem State.setFenced_same_mem {z : State} {s : State} (h : SameMem z s) :
    SameMem z (State.setFenced s) := by
  unfold State.setFenced
  with_reducible
    repeat' (first
      | assumption | apply State.put_same_mem | split)

theorem State.setMrd_same_mem {z : State} {s : State} {v : ℕ} (h : SameMem z s) :
    SameMem z (State.setMrd s v) := by
  unfold State.setMrd
  with_reducible
    repeat' (first
      | assumption | apply State.put_same_mem | apply State.putBit_same_mem)

theorem State.align_same_mem {z : State} {s : State} (h : SameMem z s) :
    SameMem z (State.align s) := by
  unfold State.align
  try dsimp only
  with_reducible
    repeat' (first
      | assumption | apply State.put_same_mem | apply State.putBit_same_mem)

theorem State.reacquire_same_mem {z : State} {s : State} (h : SameMem z s) :
    SameMem z (State.reacquire s) := by
  unfold State.reacquire
  with_reducible
    repeat' (first
      | assumption | apply State.setMrd_same_mem | split)

theorem State.assignTime_same_mem {z : State} {s : State} {v : ℕ} (h : SameMem z s) :
    SameMem z (State.assignTime s v) := by
  unfold State.assignTime
  try dsimp only
  with_reducible
    repeat' (first
      | assumption | apply State.put_same_mem | apply State.putBit_same_mem)

theorem State.acceptMark_same_mem {z : State} {s : State} {e : ℤ} (h : SameMem z s) :
    SameMem z (State.acceptMark s e) := by
  unfold State.acceptMark
  try dsimp only
  with_reducible
    repeat' (first
      | assumption | apply State.assignTime_same_mem | apply State.put_same_mem | apply State.finishWith_same_mem
      | apply State.wrapAdd_same_mem | apply SameMem.foldl | intro _ _ _ | intro _ _ | intro _ | split)

theorem State.pllLock_same_mem {z : State} {s : State} (h : SameMem z s) :
    SameMem z (State.pllLock s) := by
  unfold State.pllLock
  try dsimp only
  with_reducible
    repeat' (first
      | assumption | apply State.setMrd_same_mem | apply State.putBit_same_mem | split)

end Sys2Proof.Machine
end

