-- ==== Sys2Proof/Laws/SameMemFurrow.lean ====
section
/-!
SUPPORT. Operations that leave device memory alone: the operations of Machine/Furrow.lean.
-/

set_option linter.all false

namespace Sys2Proof.Machine

theorem State.refuseSets_same_mem {z : State} {s : State} (h : SameMem z s) :
    SameMem z (State.refuseSets s) := by
  unfold State.refuseSets
  try dsimp only
  with_reducible
    repeat' (first
      | assumption | apply State.finishWith_same_mem | apply SameMem.foldl | intro _ _ _ | intro _ _ | intro _)

theorem State.arm_same_mem {z : State} {s : State} {t0 : ℕ} {k0 : ℕ} (h : SameMem z s) :
    SameMem z (State.arm s t0 k0) := by
  unfold State.arm
  try dsimp only
  with_reducible
    repeat' (first
      | assumption | apply State.refuseSets_same_mem | apply State.put_same_mem)

theorem State.startLead_same_mem {z : State} {s : State} {t : Ticket} (h : SameMem z s) :
    SameMem z (State.startLead s t) := by
  unfold State.startLead
  try dsimp only
  with_reducible
    repeat' (first
      | assumption | apply State.arm_same_mem | apply State.finishWith_same_mem | apply State.sendAll_same_mem | split)

theorem State.stopAtHeadland_same_mem {z : State} {s : State} {k : ℕ} (h : SameMem z s) :
    SameMem z (State.stopAtHeadland s k) := by
  unfold State.stopAtHeadland
  try dsimp only
  with_reducible
    repeat' (first
      | assumption | apply State.putBit_same_mem | split)

theorem State.stopAll_same_mem {z : State} {s : State} {k : ℕ} (h : SameMem z s) :
    SameMem z (State.stopAll s k) := by
  unfold State.stopAll
  with_reducible
    repeat' (first
      | assumption | apply State.stopAtHeadland_same_mem | apply State.sendAll_same_mem)

theorem State.silentFor_same_mem {z : State} {s : State} {d : ℕ} {n : ℕ} (h : SameMem z s) :
    SameMem z (State.silentFor s d n) := by
  unfold State.silentFor
  with_reducible
    repeat' (first
      | assumption | apply State.sendCtrl_same_mem | split)

theorem State.beaconsDue_same_mem {z : State} {s : State} (h : SameMem z s) :
    SameMem z (State.beaconsDue s) := by
  unfold State.beaconsDue
  try dsimp only
  with_reducible
    repeat' (first
      | assumption | apply State.bump_same_mem | apply State.silentFor_same_mem | apply SameMem.foldl | intro _ _ _ | intro _ _
      | intro _ | split)

theorem State.hearBeacon_same_mem {z : State} {s : State} {p : ℕ} {b : Bytes} (h : SameMem z s) :
    SameMem z (State.hearBeacon s p b) := by
  unfold State.hearBeacon
  try dsimp only
  assumption

theorem State.abandonStep_same_mem {z : State} {s : State} (h : SameMem z s) :
    SameMem z (State.abandonStep s) := by
  unfold State.abandonStep
  try dsimp only
  with_reducible
    repeat' (first
      | assumption | apply State.bump_same_mem | apply State.dropOccur_same_mem | apply State.noteFailed_same_mem
      | apply State.raise_same_mem | apply State.abandonTile_same_mem | apply State.clearColl_same_mem | apply SameMem.foldl
      | intro _ _ _ | intro _ _ | intro _ | split)

theorem State.checkStep_same_mem {z : State} {s : State} (h : SameMem z s) :
    SameMem z (State.checkStep s) := by
  unfold State.checkStep
  try dsimp only
  with_reducible
    repeat' (first
      | assumption | apply State.bump_same_mem | apply State.put_same_mem | apply State.putBit_same_mem | split)

theorem State.sendOn_same_mem {z : State} {s : State} {ports : List ℕ} {f : Frame} (h : SameMem z s) :
    SameMem z (State.sendOn s ports f) := by
  unfold State.sendOn
  with_reducible
    repeat' (first
      | assumption | apply State.sendSeq_same_mem | apply SameMem.foldl | intro _ _ _ | intro _ _ | intro _)

theorem State.sendBeacon_same_mem {z : State} {s : State} (h : SameMem z s) :
    SameMem z (State.sendBeacon s) := by
  unfold State.sendBeacon
  with_reducible
    repeat' (first
      | assumption | apply State.sendOn_same_mem | split)

theorem State.lateCheck_same_mem {z : State} {s : State} (h : SameMem z s) :
    SameMem z (State.lateCheck s) := by
  unfold State.lateCheck
  try dsimp only
  with_reducible
    repeat' (first
      | assumption | apply State.decideCommit_same_mem | apply State.abandonStep_same_mem | apply State.checkStep_same_mem
      | apply State.deferReplay_same_mem | apply State.sendBeacon_same_mem | split)

theorem State.beginFallow_same_mem {z : State} {s : State} (h : SameMem z s) :
    SameMem z (State.beginFallow s) := by
  unfold State.beginFallow
  try dsimp only
  with_reducible
    repeat' (first
      | assumption | apply State.bump_same_mem | apply State.endOccur_same_mem | apply State.put_same_mem)

theorem State.beginStep_same_mem {z : State} {s : State} (h : SameMem z s) :
    SameMem z (State.beginStep s) := by
  unfold State.beginStep
  try dsimp only
  with_reducible
    repeat' (first
      | assumption | apply State.startBlind_same_mem | apply State.countLanes_same_mem | apply State.countWaits_same_mem
      | apply State.startOutside_same_mem | apply State.put_same_mem | apply State.startMisses_same_mem
      | apply State.noteDone_same_mem | apply State.startTile_same_mem | apply SameMem.foldl | intro _ _ _ | intro _ _ | intro _)

theorem State.freshFurrow_same_mem {z : State} {s : State} (h : SameMem z s) :
    SameMem z (State.freshFurrow s) := by
  unfold State.freshFurrow
  try dsimp only
  with_reducible
    repeat' (first
      | assumption | apply State.putBit_same_mem)

theorem State.dropEpoch_same_mem {z : State} {s : State} {p : ℕ} {dev : ℕ} {epoch : ℕ} {serial : ℕ} (h : SameMem z s) :
    SameMem z (State.dropEpoch s p dev epoch serial) := by
  unfold State.dropEpoch
  with_reducible
    repeat' (first
      | assumption | apply State.bump_same_mem | apply State.answerFenced_same_mem)

theorem State.relayIn_same_mem {z : State} {s : State} {p : ℕ} {b : Bytes} (h : SameMem z s) :
    SameMem z (State.relayIn s p b) := by
  unfold State.relayIn
  try dsimp only
  with_reducible
    repeat' (first
      | assumption | apply State.dropEpoch_same_mem | split)

theorem State.turnDevice_same_mem {z : State} {s : State} {template : Option ℕ} (h : SameMem z s) :
    SameMem z (State.turnDevice s template) := by
  unfold State.turnDevice
  try dsimp only
  with_reducible
    repeat' (first
      | assumption | apply State.turnTiles_same_mem | apply State.put_same_mem | apply State.fenceUnits_same_mem
      | apply State.clearColl_same_mem | apply SameMem.foldl | intro _ _ _ | intro _ _ | intro _ | split)

theorem State.collapse_same_mem {z : State} {s : State} (h : SameMem z s) :
    SameMem z (State.collapse s) := by
  unfold State.collapse
  with_reducible
    repeat' (first
      | assumption | apply State.raise_same_mem | apply State.stopAll_same_mem | split)

theorem State.turn_same_mem {z : State} {s : State} (h : SameMem z s) :
    SameMem z (State.turn s) := by
  unfold State.turn
  try dsimp only
  with_reducible
    repeat' (first
      | assumption | apply State.bump_same_mem | apply State.turnDevice_same_mem | split)

theorem State.sendRelay_same_mem {z : State} {s : State} (h : SameMem z s) :
    SameMem z (State.sendRelay s) := by
  unfold State.sendRelay
  with_reducible
    repeat' (first
      | assumption | apply State.sendOn_same_mem | intro _ _ _ | intro _ _ | intro _ | split)

theorem State.t0In_same_mem {z : State} {s : State} {t0 : ℕ} {k0 : ℕ} (h : SameMem z s) :
    SameMem z (State.t0In s t0 k0) := by
  unfold State.t0In
  with_reducible
    repeat' (first
      | assumption | apply State.arm_same_mem | split)

theorem State.decideFallow_same_mem {z : State} {s : State} (h : SameMem z s) :
    SameMem z (State.decideFallow s) := by
  unfold State.decideFallow
  try dsimp only
  with_reducible
    repeat' (first
      | assumption | apply State.putBit_same_mem | split)

theorem State.startTurn_same_mem {z : State} {s : State} (h : SameMem z s) :
    SameMem z (State.startTurn s) := by
  unfold State.startTurn
  try dsimp only
  with_reducible
    repeat' (first
      | assumption | apply State.turnDevice_same_mem | split)

theorem State.sendEcho_same_mem {z : State} {s : State} (h : SameMem z s) :
    SameMem z (State.sendEcho s) := by
  unfold State.sendEcho
  with_reducible
    repeat' (first
      | assumption | apply State.sendOn_same_mem | split)

theorem State.relaysDue_same_mem {z : State} {s : State} (h : SameMem z s) :
    SameMem z (State.relaysDue s) := by
  unfold State.relaysDue
  try dsimp only
  with_reducible
    repeat' (first
      | assumption | apply State.bump_same_mem | intro _ _ _ | intro _ _ | intro _ | split)

end Sys2Proof.Machine
end

