-- ==== Sys2Proof/Laws/SameMemLoading.lean ====
section
/-!
SUPPORT. Operations that leave device memory alone: the operations of Machine/Loading.lean.
-/

set_option linter.all false

namespace Sys2Proof.Machine

theorem State.discardDevice_same_mem {z : State} {s : State} (h : SameMem z s) :
    SameMem z (State.discardDevice s) := by
  unfold State.discardDevice
  with_reducible
    repeat' (first
      | assumption | intro _ _ _ | intro _ _ | intro _)

theorem State.stageScale_same_mem {z : State} {s : State} {n : ℕ} {i : ℕ} {w : ℕ} (h : SameMem z s) :
    SameMem z (State.stageScale s n i w) := by
  unfold State.stageScale
  with_reducible
    repeat' (first
      | assumption | apply SameMem.foldl | intro _ _ _ | intro _ _ | intro _)

end Sys2Proof.Machine
end

