-- ==== Sys2Proof/Laws/SameMemMembers.lean ====
section
/-!
SUPPORT. Operations that leave device memory alone: the operations of Machine/Members.lean.
-/

set_option linter.all false

namespace Sys2Proof.Machine

theorem State.fenceColls_same_mem {z : State} {s : State} (h : SameMem z s) :
    SameMem z (State.fenceColls s) := by
  unfold State.fenceColls
  with_reducible
    repeat' (first
      | assumption | apply State.failHead_same_mem | apply SameMem.foldl | intro _ _ _ | intro _ _ | intro _ | split)

theorem State.suspendWhere_same_mem {z : State} {s : State} {th : ℕ} {p : Inst → Bool} (h : SameMem z s) :
    SameMem z (State.suspendWhere s th p) := by
  unfold State.suspendWhere
  with_reducible
    repeat' (first
      | assumption | apply State.suspend_same_mem | apply SameMem.foldl | intro _ _ _ | intro _ _ | intro _)

theorem State.removeMember_same_mem {z : State} {s : State} {th : ℕ} {x : ℕ} (h : SameMem z s) :
    SameMem z (State.removeMember s th x) := by
  unfold State.removeMember
  try dsimp only
  with_reducible
    repeat' (first
      | assumption | apply State.put_same_mem | apply State.suspendWhere_same_mem | apply State.putBit_same_mem | intro _ _ _
      | intro _ _ | intro _)

theorem State.membershipItem_same_mem {z : State} {s : State} {th : ℕ} (h : SameMem z s) :
    SameMem z (State.membershipItem s th) := by
  unfold State.membershipItem
  with_reducible
    repeat' (first
      | assumption | apply State.removeMember_same_mem | apply SameMem.foldl | intro _ _ _ | intro _ _ | intro _ | split)

theorem State.fatalItem_same_mem {z : State} {s : State} {th : ℕ} (h : SameMem z s) :
    SameMem z (State.fatalItem s th) := by
  unfold State.fatalItem
  try dsimp only
  with_reducible
    repeat' (first
      | assumption | apply State.put_same_mem | apply State.suspendWhere_same_mem | apply SameMem.foldl | intro _ _ _ | intro _ _
      | intro _ | split)

theorem State.silentIn_same_mem {z : State} {s : State} {src : ℕ} {x : ℕ} (h : SameMem z s) :
    SameMem z (State.silentIn s src x) := by
  unfold State.silentIn
  with_reducible
    repeat' (first
      | assumption | split)

theorem State.failAwaiting_same_mem {z : State} {s : State} {d : ℕ} (h : SameMem z s) :
    SameMem z (State.failAwaiting s d) := by
  unfold State.failAwaiting
  with_reducible
    repeat' (first
      | assumption | apply State.addReply_same_mem | apply SameMem.foldl | intro _ _ _ | intro _ _ | intro _)

theorem State.controlFault_same_mem {z : State} {s : State} {cause : ℕ} {addr : ℕ} (h : SameMem z s) :
    SameMem z (State.controlFault s cause addr) := by
  unfold State.controlFault
  try dsimp only
  with_reducible
    repeat' (first
      | assumption | apply State.raise_same_mem)

theorem State.recordIn_same_mem {z : State} {s : State} {r : ErrRec} (h : SameMem z s) :
    SameMem z (State.recordIn s r) := by
  unfold State.recordIn
  try dsimp only
  with_reducible
    repeat' (first
      | assumption | apply State.logForwarded_same_mem | split)

theorem State.stepNoticeIn_same_mem {z : State} {s : State} {i : ℕ} {k : ℕ} (h : SameMem z s) :
    SameMem z (State.stepNoticeIn s i k) := by
  unfold State.stepNoticeIn
  with_reducible
    repeat' (first
      | assumption | apply State.noteFailed_same_mem | apply State.enterSkip_same_mem | apply SameMem.foldl | intro _ _ _
      | intro _ _ | intro _ | split)

theorem State.declareDead_same_mem {z : State} {s : State} {x : ℕ} (h : SameMem z s) :
    SameMem z (State.declareDead s x) := by
  unfold State.declareDead
  try dsimp only
  with_reducible
    repeat' (first
      | assumption | apply State.declaredAbort_same_mem | apply State.failAwaiting_same_mem | apply State.raise_same_mem
      | apply State.sendAll_same_mem | intro _ _ _ | intro _ _ | intro _ | split)

theorem State.resend_same_mem {z : State} {s : State} {dst : ℕ} {msgId : ℕ} (h : SameMem z s) :
    SameMem z (State.resend s dst msgId) := by
  unfold State.resend
  try dsimp only
  with_reducible
    repeat' (first
      | assumption | apply State.bump_same_mem | apply State.sendFragments_same_mem | apply State.declareDead_same_mem
      | intro _ _ _ | intro _ _ | intro _ | split)

end Sys2Proof.Machine
end

