-- ==== Sys2Proof/Laws/SameMemForming.lean ====
section
/-!
SUPPORT. Operations that leave device memory alone: the operations of Machine/Forming.lean.
-/

set_option linter.all false

namespace Sys2Proof.Machine

theorem State.sendJoin_same_mem {z : State} {s : State} {t : Ticket} {round : ℕ} {epoch : ℕ} (h : SameMem z s) :
    SameMem z (State.sendJoin s t round epoch) := by
  unfold State.sendJoin
  try dsimp only
  with_reducible
    repeat' (first
      | assumption | apply State.mapTicket_same_mem | apply State.sendPort_same_mem | apply State.addReply_same_mem | intro _ _ _
      | intro _ _ | intro _ | split)

theorem State.rejoinLead_same_mem {z : State} {s : State} {t : Ticket} (h : SameMem z s) :
    SameMem z (State.rejoinLead s t) := by
  unfold State.rejoinLead
  with_reducible
    repeat' (first
      | assumption | apply State.mapTicket_same_mem | apply State.finishWith_same_mem | apply State.sendJoin_same_mem
      | intro _ _ _ | intro _ _ | intro _ | split)

theorem State.forgetCluster_same_mem {z : State} {s : State} (h : SameMem z s) :
    SameMem z (State.forgetCluster s) := by
  unfold State.forgetCluster
  try dsimp only
  with_reducible
    repeat' (first
      | assumption | apply State.put_same_mem | apply State.putBit_same_mem | apply SameMem.foldl | intro _ _ _ | intro _ _
      | intro _)

theorem State.resetClusterRegs_same_mem {z : State} {s : State} (h : SameMem z s) :
    SameMem z (State.resetClusterRegs s) := by
  unfold State.resetClusterRegs
  with_reducible
    repeat' (first
      | assumption | apply State.put_same_mem | apply SameMem.foldl | intro _ _ _ | intro _ _ | intro _)

theorem State.setPlace_same_mem {z : State} {s : State} {place : Option ℕ} {lead : Bool} {epoch : ℕ} {issued : ℕ} (h : SameMem z s) :
    SameMem z (State.setPlace s place lead epoch issued) := by
  unfold State.setPlace
  try dsimp only
  with_reducible
    repeat' (first
      | assumption | apply State.put_same_mem | apply State.putBit_same_mem | split)

theorem State.sendForm_same_mem {z : State} {s : State} {t : Ticket} {l : List FormEntry} {round : ℕ} (h : SameMem z s) :
    SameMem z (State.sendForm s t l round) := by
  unfold State.sendForm
  try dsimp only
  with_reducible
    repeat' (first
      | assumption | apply State.mapTicket_same_mem | apply State.sendPort_same_mem | apply State.addReply_same_mem
      | apply State.viaPlaces_same_mem | apply SameMem.foldl | intro _ _ _ | intro _ _ | intro _ | split)

theorem State.rejoinEngine_same_mem {z : State} {s : State} {no : ℕ} {p : Packet} (h : SameMem z s) :
    SameMem z (State.rejoinEngine s no p) := by
  unfold State.rejoinEngine
  try dsimp only
  with_reducible
    repeat' (first
      | assumption | apply State.replyWith_same_mem | apply State.modTile_same_mem | intro _ _ _ | intro _ _ | intro _ | split)

theorem State.rejoinConcluded_same_mem {z : State} {s : State} {t : Ticket} (h : SameMem z s) :
    SameMem z (State.rejoinConcluded s t) := by
  unfold State.rejoinConcluded
  try dsimp only
  with_reducible
    repeat' (first
      | assumption | apply State.mapTicket_same_mem | apply State.finishWith_same_mem | apply State.sendJoin_same_mem
      | apply State.forwardTo_same_mem | apply State.wrapAdd_same_mem | intro _ _ _ | intro _ _ | intro _ | split)

theorem State.joinNow_same_mem {z : State} {s : State} {j : Joining} (h : SameMem z s) :
    SameMem z (State.joinNow s j) := by
  unfold State.joinNow
  try dsimp only
  with_reducible
    repeat' (first
      | assumption | apply State.markDoubled_same_mem | apply State.finish_same_mem | apply State.put_same_mem
      | apply State.putBit_same_mem | apply State.setPlace_same_mem | split)

theorem State.joinItem_same_mem {z : State} {s : State} (h : SameMem z s) :
    SameMem z (State.joinItem s) := by
  unfold State.joinItem
  try dsimp only
  with_reducible
    repeat' (first
      | assumption | apply State.joinNow_same_mem | apply SameMem.foldl | intro _ _ _ | intro _ _ | intro _)

theorem State.joinTold_same_mem {z : State} {s : State} {t : Ticket} (h : SameMem z s) :
    SameMem z (State.joinTold s t) := by
  unfold State.joinTold
  with_reducible
    repeat' (first
      | assumption | apply State.finish_same_mem)

theorem State.bistDone_same_mem {z : State} {s : State} {n : ℕ} {ok : Bool} (h : SameMem z s) :
    SameMem z (State.bistDone s n ok) := by
  unfold State.bistDone
  try dsimp only
  with_reducible
    repeat' (first
      | assumption | apply State.replyWith_same_mem | apply State.modTile_same_mem | intro _ _ _ | intro _ _ | intro _ | split)

end Sys2Proof.Machine
end

