-- ==== Sys2Proof/Laws/SameMemHolding.lean ====
section
/-!
SUPPORT. Operations that leave device memory alone: the operations of Machine/Holding.lean.
-/

set_option linter.all false

namespace Sys2Proof.Machine

theorem State.beginHold_same_mem {z : State} {s : State} {n : ℕ} {no : ℕ} (h : SameMem z s) :
    SameMem z (State.beginHold s n no) := by
  unfold State.beginHold
  try dsimp only
  with_reducible
    repeat' (first
      | assumption | apply State.flushGranary_same_mem)

theorem State.resetLead_same_mem {z : State} {s : State} {t : Ticket} {th : Option ℕ} (h : SameMem z s) :
    SameMem z (State.resetLead s t th) := by
  unfold State.resetLead
  try dsimp only
  with_reducible
    repeat' (first
      | assumption | apply State.finish_same_mem | apply State.suspend_same_mem | apply State.forwardTo_same_mem
      | apply State.beginHold_same_mem | apply SameMem.foldl | apply SameMemO.getD | intro _ _ _ | intro _ _ | intro _ | split)

theorem State.resetRegs_same_mem {z s : State} {base : Nat} {l : List (Nat × Nat)} (h : SameMem z s) : SameMem z (s.resetRegs base l) := h

theorem State.loadMap_same_mem {z : State} {s : State} {n : ℕ} (h : SameMem z s) :
    SameMem z (State.loadMap s n) := by
  unfold State.loadMap
  try dsimp only
  with_reducible
    repeat' (first
      | assumption | apply State.put_same_mem | apply State.putBit_same_mem | intro _ _ _ | intro _ _ | intro _)

theorem State.holdPart_same_mem {z : State} {s : State} {n : ℕ} (h : SameMem z s) :
    SameMem z (State.holdPart s n) := by
  unfold State.holdPart
  try dsimp only
  with_reducible
    repeat' (first
      | assumption | apply State.setSeq_same_mem | apply State.resetRegs_same_mem | apply State.put_same_mem
      | apply State.stopUnits_same_mem | apply State.putBit_same_mem | apply State.loadMap_same_mem | apply State.modTile_same_mem
      | apply State.modStack_same_mem | apply SameMem.foldl | intro _ _ _ | intro _ _ | intro _ | split)

theorem State.resetItem_same_mem {z : State} {s : State} {th : ℕ} (h : SameMem z s) :
    SameMem z (State.resetItem s th) := by
  unfold State.resetItem
  with_reducible
    repeat' (first
      | assumption | apply State.resetLead_same_mem | apply State.undefer_same_mem | apply SameMem.foldl | intro _ _ _
      | intro _ _ | intro _ | split)

theorem State.zeroDone_same_mem {z : State} {s : State} {n : ℕ} {r : ℕ} (h : SameMem z s) :
    SameMem z (State.zeroDone s n r) := by
  unfold State.zeroDone
  with_reducible
    repeat' (first
      | assumption | apply State.releaseSettled_same_mem | apply State.modStack_same_mem | intro _ _ _ | intro _ _ | intro _)

end Sys2Proof.Machine
end

