-- ==== Sys2Proof/Laws/SameMemCommands.lean ====
section
/-!
SUPPORT. Operations that leave device memory alone: the operations of Machine/Commands.lean.
-/

set_option linter.all false

namespace Sys2Proof.Machine

theorem State.meridianSet_same_mem {z : State} {s : State} {t : Ticket} (h : SameMem z s) :
    SameMem z (State.meridianSet s t) := by
  unfold State.meridianSet
  with_reducible
    repeat' (first
      | assumption | apply State.finishWith_same_mem | split)

theorem State.geometryGet_same_mem {z : State} {s : State} {t : Ticket} (h : SameMem z s) :
    SameMem z (State.geometryGet s t) := by
  unfold State.geometryGet
  with_reducible
    repeat' (first
      | assumption | apply State.outPayload_same_mem | apply State.finish_same_mem)

theorem State.selftestHere_same_mem {z : State} {s : State} {no : ℕ} {p : Packet} (h : SameMem z s) :
    SameMem z (State.selftestHere s no p) := by
  unfold State.selftestHere
  try dsimp only
  with_reducible
    repeat' (first
      | assumption | apply State.put_same_mem | apply State.finishWith_same_mem | apply SameMem.foldl | intro _ _ _ | intro _ _
      | intro _ | split)

theorem State.identify_same_mem {z : State} {s : State} {t : Ticket} (h : SameMem z s) :
    SameMem z (State.identify s t) := by
  unfold State.identify
  with_reducible
    repeat' (first
      | assumption | apply State.outPayload_same_mem | apply State.finish_same_mem)

theorem State.trafficHere_same_mem {z : State} {s : State} {no : ℕ} {p : Packet} (h : SameMem z s) :
    SameMem z (State.trafficHere s no p) := by
  unfold State.trafficHere
  try dsimp only
  with_reducible
    repeat' (first
      | assumption | apply State.put_same_mem | apply State.finishWith_same_mem | apply State.putBit_same_mem
      | apply State.modStack_same_mem | intro _ _ _ | intro _ _ | intro _ | split)

theorem State.fence_same_mem {z : State} {s : State} {t : Ticket} (h : SameMem z s) :
    SameMem z (State.fence s t) := by
  unfold State.fence
  with_reducible
    repeat' (first
      | assumption | apply State.mapTicket_same_mem | intro _ _ _ | intro _ _ | intro _)

theorem State.onDevice_same_mem {z : State} {s : State} {t : Ticket} {d : ℕ} {act : State → ℕ → Packet → State} (h : SameMem z s) (h1 : ∀ y0 y1 y2, SameMem z y0 → SameMem z (act y0 y1 y2)) :
    SameMem z (State.onDevice s t d act) := by
  unfold State.onDevice
  with_reducible
    repeat' (first
      | assumption | apply State.finish_same_mem | apply State.forwardTo_same_mem | apply h1 | split)

theorem State.replyData_same_mem {z : State} {s : State} {no : ℕ} {a : Answer} {b : Bytes} (h : SameMem z s) :
    SameMem z (State.replyData s no a b) := by
  unfold State.replyData
  with_reducible
    repeat' (first
      | assumption | apply State.outPayload_same_mem | apply State.finish_same_mem | split)

theorem State.telemetryHere_same_mem {z : State} {s : State} {no : ℕ} {p : Packet} (h : SameMem z s) :
    SameMem z (State.telemetryHere s no p) := by
  unfold State.telemetryHere
  try dsimp only
  with_reducible
    repeat' (first
      | assumption | apply State.replyData_same_mem)

theorem State.energyHere_same_mem {z : State} {s : State} {no : ℕ} {p : Packet} (h : SameMem z s) :
    SameMem z (State.energyHere s no p) := by
  unfold State.energyHere
  try dsimp only
  with_reducible
    repeat' (first
      | assumption | apply State.finish_same_mem | split)

theorem State.capHere_same_mem {z : State} {s : State} {no : ℕ} {p : Packet} (h : SameMem z s) :
    SameMem z (State.capHere s no p) := by
  unfold State.capHere
  with_reducible
    repeat' (first
      | assumption | apply State.settleLevels_same_mem | apply State.replyWith_same_mem | apply State.put_same_mem)

theorem State.capLead_same_mem {z : State} {s : State} {t : Ticket} (h : SameMem z s) :
    SameMem z (State.capLead s t) := by
  unfold State.capLead
  try dsimp only
  with_reducible
    repeat' (first
      | assumption | apply State.awaitSelf_same_mem | apply State.capHere_same_mem | apply State.finish_same_mem
      | apply State.forwardTo_same_mem | intro _ _ _ | intro _ _ | intro _ | split)

theorem State.takeHint_same_mem {z : State} {s : State} {p : Packet} (h : SameMem z s) :
    SameMem z (State.takeHint s p) := by
  unfold State.takeHint
  with_reducible
    repeat' (first
      | assumption | apply State.hintDevice_same_mem)

theorem State.hintLead_same_mem {z : State} {s : State} {t : Ticket} (h : SameMem z s) :
    SameMem z (State.hintLead s t) := by
  unfold State.hintLead
  with_reducible
    repeat' (first
      | assumption | apply State.finishWith_same_mem | apply State.sendAll_same_mem | apply State.takeHint_same_mem | split)

theorem State.digestHere_same_mem {z : State} {s : State} {no : ℕ} {x2 : Packet} (h : SameMem z s) :
    SameMem z (State.digestHere s no x2) := by
  unfold State.digestHere
  with_reducible
    repeat' (first
      | assumption | apply State.finish_same_mem | split)

theorem State.outReport_same_mem {z : State} {s : State} {p : Packet} {b : Bytes} (h : SameMem z s) :
    SameMem z (State.outReport s p b) := by
  unfold State.outReport
  with_reducible
    repeat' (first
      | assumption | apply State.d2h_same_mem | apply SameMem.foldl | intro _ _ _ | intro _ _ | intro _)

end Sys2Proof.Machine
end

