-- ==== Sys2Proof/Laws/SameMemSettle.lean ====
section
/-!
SUPPORT. Operations that leave device memory alone: the operations of Machine/Settle.lean.
-/

set_option linter.all false

namespace Sys2Proof.Machine

theorem State.deferTicket_same_mem {z : State} {s : State} {t : Ticket} (h : SameMem z s) :
    SameMem z (State.deferTicket s t) := by
  unfold State.deferTicket
  with_reducible
    repeat' (first
      | assumption | apply State.tellEnding_same_mem)

theorem State.takeIn_same_mem {z : State} {s : State} {p : Packet} {img : Option ModelImage} (h : SameMem z s) :
    SameMem z (State.takeIn s p img).1 := by
  unfold State.takeIn
  try dsimp only
  with_reducible
    repeat' (first
      | assumption | apply State.finishWith_same_mem | apply State.openTicket_same_mem | (refine SameMem.fst (by assumption) ?_)
      | split)

theorem State.exportMember_same_mem {z : State} {s : State} {t : Ticket} (h : SameMem z s) :
    SameMem z (State.exportMember s t) := by
  unfold State.exportMember
  with_reducible
    repeat' (first
      | assumption | apply State.finish_same_mem | apply State.finishWith_same_mem | split)

theorem State.completionIn_same_mem {z : State} {s : State} {msgId : ℕ} {st : Status} {detail : ℕ} {r0 : ℕ} {r1 : ℕ} {data : Bytes} (h : SameMem z s) :
    SameMem z (State.completionIn s msgId st detail r0 r1 data) := by
  unfold State.completionIn
  with_reducible
    repeat' (first
      | assumption | apply State.addReply_same_mem | intro _ _ _ | intro _ _ | intro _ | split)

end Sys2Proof.Machine
end

