-- ==== Sys2Proof/Laws/SameMemHost.lean ====
section
/-!
SUPPORT. Operations that leave device memory alone: the operations of Machine/Host.lean.
-/

set_option linter.all false

namespace Sys2Proof.Machine

theorem State.pulled_same_mem {z : State} {s : State} {v : ℕ} (h : SameMem z s) :
    SameMem z (State.pulled s v) := by
  unfold State.pulled
  try dsimp only
  with_reducible
    repeat' (first
      | assumption | apply State.message_same_mem | intro _ _ _ | intro _ _ | intro _ | split)

theorem State.hostLost_same_mem {z : State} {s : State} (h : SameMem z s) :
    SameMem z (State.hostLost s) := by
  unfold State.hostLost
  try dsimp only
  with_reducible
    repeat' (first
      | assumption | apply State.bump_same_mem | apply State.dropFetches_same_mem | apply State.putBit_same_mem | apply SameMem.foldl
      | intro _ _ _ | intro _ _ | intro _)

theorem State.functionReset_same_mem {z : State} {s : State} (h : SameMem z s) :
    SameMem z (State.functionReset s) :=
  State.putBit_same_mem (State.hostLost_same_mem h)

theorem State.unreadPacket_same_mem {z : State} {s : State} {i : ℕ} (h : SameMem z s) :
    SameMem z (State.unreadPacket s i) := by
  unfold State.unreadPacket
  try dsimp only
  with_reducible
    repeat' (first
      | assumption | apply State.bump_same_mem | apply State.draw_same_mem | apply State.postCq_same_mem)

theorem State.expanderLost_same_mem {z : State} {s : State} {k : ℕ} (h : SameMem z s) :
    SameMem z (State.expanderLost s k) := by
  unfold State.expanderLost
  try dsimp only
  with_reducible
    repeat' (first
      | assumption | apply State.bump_same_mem | apply State.raise_same_mem | apply State.put_same_mem | apply State.putBit_same_mem
      | intro _ _ _ | intro _ _ | intro _ | split)

theorem State.takeCredit_same_mem {z : State} {s : State} {data : Bool} (h : SameMem z s) :
    SameMem z (State.takeCredit s data) := by
  unfold State.takeCredit
  with_reducible
    repeat' (first
      | assumption | split)

theorem State.doorbell_same_mem {z : State} {s : State} {enabled : Bool} {size : ℕ} {index : ℕ} {f : State → State} (h : SameMem z s) (h1 : ∀ y0, SameMem z y0 → SameMem z (f y0)) :
    SameMem z (State.doorbell s enabled size index f) := by
  unfold State.doorbell
  with_reducible
    repeat' (first
      | assumption | apply State.bump_same_mem | apply h1 | split)

theorem State.trDoorbell_same_mem {z : State} {s : State} {j : ℕ} {index : ℕ} (h : SameMem z s) :
    SameMem z (State.trDoorbell s j index) := by
  unfold State.trDoorbell
  with_reducible
    repeat' (first
      | assumption | apply State.doorbell_same_mem | intro _ _ _ | intro _ _ | intro _)

theorem State.sqDoorbell_same_mem {z : State} {s : State} {i : ℕ} {index : ℕ} (h : SameMem z s) :
    SameMem z (State.sqDoorbell s i index) := by
  unfold State.sqDoorbell
  with_reducible
    repeat' (first
      | assumption | apply State.doorbell_same_mem | apply State.fetchRing_same_mem | intro _ _ _ | intro _ _ | intro _)

theorem State.cqDoorbell_same_mem {z : State} {s : State} {i : ℕ} {index : ℕ} (h : SameMem z s) :
    SameMem z (State.cqDoorbell s i index) := by
  unfold State.cqDoorbell
  with_reducible
    repeat' (first
      | assumption | apply State.doorbell_same_mem | apply State.resumeRing_same_mem | intro _ _ _ | intro _ _ | intro _)

theorem State.doorbellWrite_same_mem {z : State} {s : State} {off : ℕ} {v : ℕ} (h : SameMem z s) :
    SameMem z (State.doorbellWrite s off v) := by
  unfold State.doorbellWrite
  with_reducible
    repeat' (first
      | assumption | apply State.sqDoorbell_same_mem | apply State.trDoorbell_same_mem | apply State.cqDoorbell_same_mem | split)

theorem State.busMaster_same_mem {z : State} {s : State} {on : Bool} (h : SameMem z s) :
    SameMem z (State.busMaster s on) := by
  unfold State.busMaster
  with_reducible
    repeat' (first
      | assumption | apply State.putBit_same_mem | apply State.reopen_same_mem | split)

theorem State.mapExpander_same_mem {z : State} {s : State} {base : ℕ} {e : Expander} (h : SameMem z s) :
    SameMem z (State.mapExpander s base e) := by
  unfold State.mapExpander
  try dsimp only
  with_reducible
    repeat' (first
      | assumption | apply State.bump_same_mem | apply State.put_same_mem | apply State.putBit_same_mem | split)

theorem State.mapExpanders_same_mem {z : State} {s : State} {base : ℕ} {x2 : List Expander} (h : SameMem z s) :
    SameMem z (State.mapExpanders s base x2) := by
  induction x2 generalizing s base with
  | nil =>
    unfold State.mapExpanders
    with_reducible
      repeat' (first
        | assumption | apply State.mapExpander_same_mem | split)
  | cons y ys ih =>
    unfold State.mapExpanders
    with_reducible
      repeat' (first
        | assumption | apply ih | apply State.mapExpander_same_mem | split)

theorem State.enumerate_same_mem {z : State} {s : State} {l : List Expander} (h : SameMem z s) :
    SameMem z (State.enumerate s l) := by
  unfold State.enumerate
  try dsimp only
  with_reducible
    repeat' (first
      | assumption | apply State.mapExpanders_same_mem | intro _ _ _ | intro _ _ | intro _ | split)

theorem State.linkTrained_same_mem {z : State} {s : State} {width : ℕ} {speed : ℕ} (h : SameMem z s) :
    SameMem z (State.linkTrained s width speed) := by
  unfold State.linkTrained
  with_reducible
    repeat' (first
      | assumption | apply State.put_same_mem | apply State.putBit_same_mem | apply State.reopen_same_mem | split)

theorem State.holdoffEnds_same_mem {z : State} {s : State} {v : ℕ} (h : SameMem z s) :
    SameMem z (State.holdoffEnds s v) := by
  unfold State.holdoffEnds
  try dsimp only
  with_reducible
    repeat' (first
      | assumption | apply State.message_same_mem | intro _ _ _ | intro _ _ | intro _ | split)

theorem State.ringDoorbell_same_mem {z : State} {s : State} {kind : ℕ} {ring : ℕ} {v : ℕ} (h : SameMem z s) :
    SameMem z (State.ringDoorbell s kind ring v) := by
  unfold State.ringDoorbell
  with_reducible
    repeat' (first
      | assumption | apply State.doorbellWrite_same_mem | split)

end Sys2Proof.Machine
end

