-- ==== Sys2Proof/Laws/SameMemBoot.lean ====
section
/-!
SUPPORT. Operations that leave device memory alone: the operations of Machine/Boot.lean.
-/

set_option linter.all false

namespace Sys2Proof.Machine

theorem State.released_same_mem {z : State} {s : State} (h : SameMem z s) :
    SameMem z (State.released s) := by
  unfold State.released
  with_reducible
    repeat' (first
      | assumption | apply State.putBit_same_mem | split)

theorem State.resetRelease_same_mem {z : State} {s : State} (h : SameMem z s) :
    SameMem z (State.resetRelease s) := by
  unfold State.resetRelease
  try dsimp only
  with_reducible
    repeat' (first
      | assumption | apply State.settleLevels_same_mem | apply State.released_same_mem | apply State.put_same_mem | split)

theorem State.readFlash_same_mem {z : State} {s : State} {f : BootFlash} (h : SameMem z s) :
    SameMem z (State.readFlash s f) := by
  unfold State.readFlash
  try dsimp only
  with_reducible
    repeat' (first
      | assumption | apply SameMem.foldl | intro _ _ _ | intro _ _ | intro _ | split)

theorem State.applyChar_same_mem {z : State} {s : State} (h : SameMem z s) :
    SameMem z (State.applyChar s) := by
  unfold State.applyChar
  try dsimp only
  with_reducible
    repeat' (first
      | assumption | apply State.put_same_mem | apply State.putBit_same_mem | apply SameMem.foldl | intro _ _ _ | intro _ _
      | intro _ | split)

theorem State.raiseCounter_same_mem {z : State} {s : State} (h : SameMem z s) :
    SameMem z (State.raiseCounter s) := by
  unfold State.raiseCounter
  try dsimp only
  with_reducible
    repeat' (first
      | assumption | apply State.eraseSector_same_mem | split)

theorem State.adoptFloor_same_mem {z : State} {s : State} (h : SameMem z s) :
    SameMem z (State.adoptFloor s) := by
  unfold State.adoptFloor
  try dsimp only
  with_reducible
    repeat' (first
      | assumption | apply State.put_same_mem | apply State.putBit_same_mem | apply State.raiseCounter_same_mem | intro _ _ _
      | intro _ _ | intro _ | split)

theorem State.boot_same_mem {z : State} {s : State} {f : BootFlash} {tests : Bool} (h : SameMem z s) :
    SameMem z (State.boot s f tests) := by
  unfold State.boot
  try dsimp only
  with_reducible
    repeat' (first
      | assumption | apply State.readFlash_same_mem | apply State.refreshLinks_same_mem | apply State.digest_same_mem
      | apply State.applyChar_same_mem | apply State.controlFault_same_mem | apply State.refreshCfg_same_mem
      | apply State.flashStatus_same_mem | apply State.put_same_mem | apply State.putBit_same_mem | apply State.findNewest_same_mem
      | apply State.adoptFloor_same_mem | intro _ _ _ | intro _ _ | intro _ | split)

theorem State.perstRelease_same_mem {z : State} {s : State} (h : SameMem z s) :
    SameMem z (State.perstRelease s) := by
  unfold State.perstRelease
  with_reducible
    repeat' (first
      | assumption | apply State.released_same_mem | split)

end Sys2Proof.Machine
end

