-- ==== Sys2Proof/Laws/SameMemClock.lean ====
section
/-!
SUPPORT. Operations that leave device memory alone: the operations of Machine/Clock.lean.
-/

set_option linter.all false

namespace Sys2Proof.Machine

theorem State.count_same_mem {z : State} {s : State} (h : SameMem z s) :
    SameMem z (State.count s) := by
  unfold State.count
  with_reducible
    repeat' (first
      | assumption | apply State.wrapAdd_same_mem | split)

theorem State.tick_same_mem {z : State} {s : State} (h : SameMem z s) :
    SameMem z (State.tick s) := by
  unfold State.tick
  with_reducible
    repeat' (first
      | assumption | apply State.reacquire_same_mem | apply State.throttleTick_same_mem | apply State.count_same_mem | split)

end Sys2Proof.Machine
end

