-- ==== Sys2Proof/Laws/SameMemHeadland.lean ====
section
/-!
SUPPORT. Operations that leave device memory alone: the operations of Machine/Headland.lean.
-/

set_option linter.all false

namespace Sys2Proof.Machine

theorem State.memberWork_same_mem {z : State} {s : State} {th : ℕ} (h : SameMem z s) :
    SameMem z (State.memberWork s th) := by
  unfold State.memberWork
  with_reducible
    repeat' (first
      | assumption | apply State.membershipItem_same_mem | apply State.resetItem_same_mem | apply State.fatalItem_same_mem
      | apply State.joinItem_same_mem)

theorem State.clusterDivergent_same_mem {z : State} {s : State} {d : ℕ} (h : SameMem z s) :
    SameMem z (State.clusterDivergent s d) := by
  unfold State.clusterDivergent
  try dsimp only
  with_reducible
    repeat' (first
      | assumption | apply State.raise_same_mem | apply State.stopAll_same_mem | split)

end Sys2Proof.Machine
end

