-- ==== Sys2Proof/Laws/SameMemManage.lean ====
section
/-!
SUPPORT. Operations that leave device memory alone: the operations of Machine/Manage.lean.
-/

set_option linter.all false

namespace Sys2Proof.Machine

theorem State.sideband_same_mem {z : State} {s : State} {a : SbAnswer} (h : SameMem z s) :
    SameMem z (State.sideband s a) := by
  unfold State.sideband
  with_reducible
    repeat' (first
      | assumption | apply State.emit_same_mem | split)

theorem State.setCap_same_mem {z : State} {s : State} {id : ℕ} {watts : ℕ} (h : SameMem z s) :
    SameMem z (State.setCap s id watts) := by
  unfold State.setCap
  try dsimp only
  with_reducible
    repeat' (first
      | assumption | apply State.sideband_same_mem | apply State.settleLevels_same_mem | apply State.put_same_mem | split)

theorem State.tapLoad_same_mem {z : State} {s : State} {code : ℕ} (h : SameMem z s) :
    SameMem z (State.tapLoad s code) := by
  unfold State.tapLoad
  try dsimp only
  with_reducible
    repeat' (first
      | assumption | apply State.emit_same_mem | split)

theorem State.takeAddress_same_mem {z : State} {s : State} {addr : ℕ} (h : SameMem z s) :
    SameMem z (State.takeAddress s addr) := by
  unfold State.takeAddress
  with_reducible
    repeat' (first
      | assumption | apply State.put_same_mem | split)

theorem State.readSensor_same_mem {z : State} {s : State} {id : ℕ} {standby : ℕ} (h : SameMem z s) :
    SameMem z (State.readSensor s id standby) := by
  unfold State.readSensor
  with_reducible
    repeat' (first
      | assumption | apply State.sideband_same_mem | split)

theorem State.setEid_same_mem {z : State} {s : State} {eid : ℕ} (h : SameMem z s) :
    SameMem z (State.setEid s eid) := by
  unfold State.setEid
  with_reducible
    repeat' (first
      | assumption | apply State.sideband_same_mem | apply State.put_same_mem | split)

theorem State.versionsOf_same_mem {z : State} {s : State} {type : ℕ} (h : SameMem z s) :
    SameMem z (State.versionsOf s type) := by
  unfold State.versionsOf
  with_reducible
    repeat' (first
      | assumption | apply State.draw_same_mem | apply State.sideband_same_mem | split)

end Sys2Proof.Machine
end

