-- ==== Sys2Proof/Laws/SameMemSecure.lean ====
section
/-!
SUPPORT. Operations that leave device memory alone: the operations of Machine/Secure.lean.
-/

set_option linter.all false

namespace Sys2Proof.Machine

theorem State.countSessions_same_mem {z : State} {s : State} (h : SameMem z s) :
    SameMem z (State.countSessions s) := by
  unfold State.countSessions
  with_reducible
    repeat' (first
      | assumption | apply State.put_same_mem)

theorem State.answer_same_mem {z : State} {s : State} {tr : ℕ} {a : SpdmAnswer} (h : SameMem z s) :
    SameMem z (State.answer s tr a) := by
  unfold State.answer
  with_reducible
    repeat' (first
      | assumption | apply State.emit_same_mem)

theorem State.withSession_same_mem {z : State} {s : State} {tr : ℕ} {id : ℕ} {f : State → State} (h : SameMem z s) (h1 : ∀ y0, SameMem z y0 → SameMem z (f y0)) :
    SameMem z (State.withSession s tr id f) := by
  unfold State.withSession
  with_reducible
    repeat' (first
      | assumption | apply State.answer_same_mem | apply h1 | split)

theorem State.setFloor_same_mem {z : State} {s : State} {tr : ℕ} {id : ℕ} {o : SignedObj} (h : SameMem z s) :
    SameMem z (State.setFloor s tr id o) := by
  unfold State.setFloor
  with_reducible
    repeat' (first
      | assumption | apply State.answer_same_mem | apply State.withSession_same_mem | intro _ _ _ | intro _ _ | intro _
      | split)

theorem State.transferEnd_same_mem {z : State} {s : State} {b : Bytes} {verified : Bool} {build : ℕ} (h : SameMem z s) :
    SameMem z (State.transferEnd s b verified build) := by
  unfold State.transferEnd
  try dsimp only
  with_reducible
    repeat' (first
      | assumption | apply State.emit_same_mem | split)

theorem State.setInstanceKey_same_mem {z : State} {s : State} {tr : ℕ} {id : ℕ} {inst : ℕ} {keyId : ℕ} {key : ℕ} (h : SameMem z s) :
    SameMem z (State.setInstanceKey s tr id inst keyId key) := by
  unfold State.setInstanceKey
  try dsimp only
  with_reducible
    repeat' (first
      | assumption | apply State.answer_same_mem | apply State.withSession_same_mem | intro _ _ _ | intro _ _ | intro _
      | split)

theorem State.sign_same_mem {z : State} {s : State} (h : SameMem z s) :
    SameMem z (State.sign s).1 := by
  unfold State.sign
  try dsimp only
  with_reducible
    repeat' (first
      | assumption | apply State.draw_same_mem | (refine SameMem.fst (by assumption) ?_))

theorem State.whenAgreed_same_mem {z : State} {s : State} {tr : ℕ} {identity : Bool} {f : State → State} (h : SameMem z s) (h1 : ∀ y0, SameMem z y0 → SameMem z (f y0)) :
    SameMem z (State.whenAgreed s tr identity f) := by
  unfold State.whenAgreed
  with_reducible
    repeat' (first
      | assumption | apply State.answer_same_mem | apply h1 | split)

theorem State.finishSession_same_mem {z : State} {s : State} {tr : ℕ} {id : ℕ} {ok : Bool} (h : SameMem z s) :
    SameMem z (State.finishSession s tr id ok) := by
  unfold State.finishSession
  try dsimp only
  with_reducible
    repeat' (first
      | assumption | apply State.answer_same_mem | apply State.whenAgreed_same_mem | apply State.countSessions_same_mem
      | intro _ _ _ | intro _ _ | intro _ | split)

theorem State.agree_same_mem {z : State} {s : State} {tr : ℕ} {after : ℕ} {a : SpdmAnswer} (h : SameMem z s) :
    SameMem z (State.agree s tr after a) := by
  unfold State.agree
  with_reducible
    repeat' (first
      | assumption | apply State.answer_same_mem | split)

theorem State.endSession_same_mem {z : State} {s : State} {tr : ℕ} {id : ℕ} (h : SameMem z s) :
    SameMem z (State.endSession s tr id) := by
  unfold State.endSession
  with_reducible
    repeat' (first
      | assumption | apply State.answer_same_mem | apply State.withSession_same_mem | apply State.countSessions_same_mem
      | intro _ _ _ | intro _ _ | intro _)

theorem State.fwInfo_same_mem {z : State} {s : State} (h : SameMem z s) :
    SameMem z (State.fwInfo s) := by
  unfold State.fwInfo
  with_reducible
    repeat' (first
      | assumption | apply State.emit_same_mem)

theorem State.keyExchange_same_mem {z : State} {s : State} {tr : ℕ} {id : ℕ} (h : SameMem z s) :
    SameMem z (State.keyExchange s tr id) := by
  unfold State.keyExchange
  try dsimp only
  with_reducible
    repeat' (first
      | assumption | apply State.sign_same_mem | apply State.answer_same_mem | apply State.whenAgreed_same_mem | intro _ _ _
      | intro _ _ | intro _ | (refine SameMem.fst (by assumption) ?_) | split)

theorem State.transferFw_same_mem {z : State} {s : State} {part : FwPart} {slot : ℕ} {offset : ℕ} {data : Bytes} {verified : Bool} {build : ℕ} (h : SameMem z s) :
    SameMem z (State.transferFw s part slot offset data verified build) := by
  unfold State.transferFw
  try dsimp only
  with_reducible
    repeat' (first
      | assumption | apply State.transferEnd_same_mem | apply State.emit_same_mem | intro _ _ _ | intro _ _ | intro _ | split)

theorem State.ideKm_same_mem {z : State} {s : State} {id : ℕ} {stream : ℕ} {go : Bool} {skid : Bool} (h : SameMem z s) :
    SameMem z (State.ideKm s id stream go skid) := by
  unfold State.ideKm
  try dsimp only
  with_reducible
    repeat' (first
      | assumption | apply State.putBit_same_mem | apply State.reopen_same_mem | apply State.emit_same_mem | split)

theorem State.activateFw_same_mem {z : State} {s : State} {slot : ℕ} {online : Bool} (h : SameMem z s) :
    SameMem z (State.activateFw s slot online) := by
  unfold State.activateFw
  with_reducible
    repeat' (first
      | assumption | apply State.emit_same_mem | split)

end Sys2Proof.Machine
end

