-- ==== Sys2Proof/Laws/SameMemStep.lean ====
section
/-!
SUPPORT. Operations that leave device memory alone: the operations of Machine/Step.lean.
-/

set_option linter.all false

namespace Sys2Proof.Machine



end Sys2Proof.Machine
end

