-- ==== Sys2Proof/Laws/TixErrors.lean ====
section
/-!
SUPPORT. Operations that leave the packets without a final completion alone: the operations of Machine/Errors.lean.
-/

set_option linter.all false

namespace Sys2Proof.Machine

theorem State.errorIrq_tix {z : State} {s : State} {cls : ℕ} (h : Tix z s) :
    Tix z (State.errorIrq s cls) := by
  unfold State.errorIrq
  with_reducible
    repeat' (first
      | assumption | apply State.message_tix | split)

theorem State.driveFault_tix {z : State} {s : State} {e : Event} (h : Tix z s) :
    Tix z (State.driveFault s e) := by
  unfold State.driveFault
  with_reducible
    repeat' (first
      | assumption | split)

theorem State.reportEvent_tix {z : State} {s : State} {new : Bool} {r : ErrRec} (h : Tix z s) :
    Tix z (State.reportEvent s new r) := by
  unfold State.reportEvent
  with_reducible
    repeat' (first
      | assumption | apply State.emit_tix | split)

theorem State.appendRecord_tix {z : State} {s : State} {r : ErrRec} (h : Tix z s) :
    Tix z (State.appendRecord s r).1 := by
  unfold State.appendRecord
  try dsimp only
  with_reducible
    repeat' (first
      | assumption | apply State.bump_tix | apply State.put_tix | intro _ _ _ | intro _ _ | intro _
      | (refine Tix.fst (by assumption) ?_) | split)

theorem State.raise_tix {z : State} {s : State} {e : Event} (h : Tix z s) :
    Tix z (State.raise s e) := by
  unfold State.raise
  try dsimp only
  with_reducible
    repeat' (first
      | assumption | apply State.sendCtrl_tix | apply State.errorIrq_tix | apply State.driveFault_tix
      | apply State.put_tix | apply State.reportEvent_tix | apply State.appendRecord_tix
      | (refine Tix.fst (by assumption) ?_) | split)

theorem State.logForwarded_tix {z : State} {s : State} {r : ErrRec} (h : Tix z s) :
    Tix z (State.logForwarded s r) := by
  unfold State.logForwarded
  try dsimp only
  with_reducible
    repeat' (first
      | assumption | apply State.errorIrq_tix | apply State.reportEvent_tix | apply State.appendRecord_tix
      | (refine Tix.fst (by assumption) ?_) | split)

end Sys2Proof.Machine
end

