-- ==== Sys2Proof/Laws/TixMemory.lean ====
section
/-!
SUPPORT. Operations that leave the packets without a final completion alone: the operations of Machine/Memory.lean.
-/

set_option linter.all false

namespace Sys2Proof.Machine

theorem State.modStack_tix {z : State} {s : State} {n : ℕ} {f : Stack → Stack} (h : Tix z s) :
    Tix z (State.modStack s n f) := by
  unfold State.modStack
  assumption

theorem State.setSeg_tix {z : State} {s : State} {g : Seg} {v : ℕ} (h : Tix z s) :
    Tix z (State.setSeg s g v) := by
  unfold State.setSeg
  with_reducible
    repeat' (first
      | assumption | apply State.put_tix)

theorem State.wake_tix {z : State} {s : State} {g : Seg} (h : Tix z s) :
    Tix z (State.wake s g) := by
  unfold State.wake
  with_reducible
    repeat' (first
      | assumption | apply State.bump_tix | apply State.setSeg_tix | split)

theorem State.gate_tix {z : State} {s : State} {tile : ℕ} {inst : Option ℕ} {l : List Acc} (h : Tix z s) :
    Tix z (State.gate s tile inst l).1 := by
  unfold State.gate
  try dsimp only
  with_reducible
    repeat' (first
      | assumption | apply State.bump_tix | apply State.wake_tix | apply Tix.foldl | apply Tix.foldlPair
      | intro _ _ _ | intro _ _ | intro _ | (refine Tix.fst (by assumption) ?_) | split)

theorem State.bankStall_tix {z : State} {s : State} {x : ℕ × Bool × ℕ} (h : Tix z s) :
    Tix z (State.bankStall s x) := by
  unfold State.bankStall
  with_reducible
    repeat' (first
      | assumption | apply State.wrapAdd_tix | split)

theorem State.eccFault_tix {z : State} {s : State} {a : ℕ} {src : ℕ} (h : Tix z s) :
    Tix z (State.eccFault s a src) := by
  unfold State.eccFault
  try dsimp only
  with_reducible
    repeat' (first
      | assumption | apply State.put_tix | apply State.putBit_tix | split)

theorem State.eccEvent_tix {z : State} {src : ℕ} {s : State} {e : ℕ × Bool} (h : Tix z s) :
    Tix z (State.eccEvent src s e) := by
  unfold State.eccEvent
  with_reducible
    repeat' (first
      | assumption | apply State.bump_tix | apply State.eccFault_tix | apply State.poisonRange_tix
      | apply State.raise_tix | split)

theorem State.memReport_tix {z : State} {s : State} {src : ℕ} {m : MemReport} (h : Tix z s) :
    Tix z (State.memReport s src m) := by
  unfold State.memReport
  with_reducible
    repeat' (first
      | assumption | apply State.bankStall_tix | apply State.eccEvent_tix | apply Tix.foldl | intro _ _ _
      | intro _ _ | intro _)

theorem State.countFarPoison_tix {z : State} {s : State} {a : ℕ} {n : ℕ} (h : Tix z s) :
    Tix z (State.countFarPoison s a n) := by
  unfold State.countFarPoison
  with_reducible
    repeat' (first
      | assumption | apply State.bump_tix | intro _ _ _ | intro _ _ | intro _ | split)

end Sys2Proof.Machine
end

