-- ==== Sys2Proof/Laws/TixTile.lean ====
section
/-!
SUPPORT. Operations that leave the packets without a final completion alone: the operations of Machine/Tile.lean.
-/

set_option linter.all false

namespace Sys2Proof.Machine

theorem State.setSeq_tix {z : State} {s : State} {n : ℕ} {v : ℕ} (h : Tix z s) :
    Tix z (State.setSeq s n v) := by
  unfold State.setSeq
  with_reducible
    repeat' (first
      | assumption | apply State.put_tix)

theorem State.modTile_tix {z : State} {s : State} {n : ℕ} {f : Tile → Tile} (h : Tix z s) :
    Tix z (State.modTile s n f) := by
  unfold State.modTile
  assumption

theorem State.setQueue_tix {z : State} {s : State} {n : ℕ} {q : ℕ} {l : List Queued} (h : Tix z s) :
    Tix z (State.setQueue s n q l) := by
  unfold State.setQueue
  with_reducible
    repeat' (first
      | assumption | apply State.modTile_tix | intro _ _ _ | intro _ _ | intro _)

theorem State.noteDone_tix {z : State} {s : State} (h : Tix z s) :
    Tix z (State.noteDone s) := by
  unfold State.noteDone
  with_reducible
    repeat' (first
      | assumption | intro _ _ _ | intro _ _ | intro _ | split)

theorem State.retire_tix {z : State} {s : State} {n : ℕ} (h : Tix z s) :
    Tix z (State.retire s n) := by
  unfold State.retire
  try dsimp only
  with_reducible
    repeat' (first
      | assumption | apply State.setSeq_tix | apply State.noteDone_tix | apply State.modTile_tix | intro _ _ _
      | intro _ _ | intro _ | split)

theorem State.noteFailed_tix {z : State} {s : State} {i : ℕ} (h : Tix z s) :
    Tix z (State.noteFailed s i) := by
  unfold State.noteFailed
  with_reducible
    repeat' (first
      | assumption | split)

theorem State.signal_tix {z : State} {s : State} {n : ℕ} {c : ℕ} {k : optParam ℕ 1} (h : Tix z s) :
    Tix z (State.signal s n c k) := by
  unfold State.signal
  with_reducible
    repeat' (first
      | assumption | apply State.bump_tix)

theorem State.applySignal_tix {z : State} {s : State} {n : ℕ} {d : Bytes} (h : Tix z s) :
    Tix z (State.applySignal s n d) := by
  unfold State.applySignal
  with_reducible
    repeat' (first
      | assumption | apply State.signal_tix | split)

theorem State.skipQueue_tix {z : State} {s : State} {n : ℕ} {q : ℕ} (h : Tix z s) :
    Tix z (State.skipQueue s n q) := by
  unfold State.skipQueue
  try dsimp only
  with_reducible
    repeat' (first
      | assumption | apply State.setQueue_tix | apply State.applySignal_tix | apply Tix.foldl | intro _ _ _
      | intro _ _ | intro _ | split)

theorem State.enterSkip_tix {z : State} {s : State} {n : ℕ} (h : Tix z s) :
    Tix z (State.enterSkip s n) := by
  unfold State.enterSkip
  try dsimp only
  with_reducible
    repeat' (first
      | assumption | apply State.retire_tix | apply State.setSeq_tix | apply State.skipQueue_tix | apply Tix.foldl
      | intro _ _ _ | intro _ _ | intro _)

theorem State.stepFail_tix {z : State} {s : State} {n : ℕ} {idx : ℕ} {st : Status} (h : Tix z s) :
    Tix z (State.stepFail s n idx st) := by
  unfold State.stepFail
  try dsimp only
  with_reducible
    repeat' (first
      | assumption | apply State.bump_tix | apply State.noteFailed_tix | apply State.raise_tix
      | apply State.put_tix | apply State.putBit_tix | apply State.enterSkip_tix | apply State.sendAll_tix
      | apply State.modTile_tix | apply Tix.foldl | intro _ _ _ | intro _ _ | intro _ | split)

theorem State.failHead_tix {z : State} {s : State} {n : ℕ} {q : ℕ} {st : Status} (h : Tix z s) :
    Tix z (State.failHead s n q st) := by
  unfold State.failHead
  with_reducible
    repeat' (first
      | assumption | apply State.setQueue_tix | apply State.retire_tix | apply State.stepFail_tix
      | apply State.applySignal_tix | split)

theorem State.failEvent_tix {z : State} {s : State} {n : ℕ} {q : ℕ} {e : Event} (h : Tix z s) :
    Tix z (State.failEvent s n q e) := by
  unfold State.failEvent
  with_reducible
    repeat' (first
      | assumption | apply State.raise_tix | apply State.failHead_tix)

theorem State.completeDesc_tix {z : State} {s : State} {n : ℕ} {d : Bytes} (h : Tix z s) :
    Tix z (State.completeDesc s n d) := by
  unfold State.completeDesc
  with_reducible
    repeat' (first
      | assumption | apply State.retire_tix | apply State.applySignal_tix)

theorem State.complete_tix {z : State} {s : State} {n : ℕ} {q : ℕ} (h : Tix z s) :
    Tix z (State.complete s n q) := by
  unfold State.complete
  with_reducible
    repeat' (first
      | assumption | apply State.setQueue_tix | apply State.completeDesc_tix | split)

theorem State.setHead_tix {z : State} {s : State} {n : ℕ} {q : ℕ} {h0 : Queued} (h : Tix z s) :
    Tix z (State.setHead s n q h0) := by
  unfold State.setHead
  with_reducible
    repeat' (first
      | assumption | apply State.setQueue_tix | split)

theorem State.restTiles_tix {z : State} {s : State} (h : Tix z s) :
    Tix z (State.restTiles s) := by
  unfold State.restTiles
  with_reducible
    repeat' (first
      | assumption | apply State.setSeq_tix | apply Tix.foldl | intro _ _ _ | intro _ _ | intro _ | split)

theorem State.wantSpare_tix {z : State} {s : State} {n : ℕ} {e : ℕ} (h : Tix z s) :
    Tix z (State.wantSpare s n e) := by
  unfold State.wantSpare
  with_reducible
    repeat' (first
      | assumption | apply State.modTile_tix | intro _ _ _ | intro _ _ | intro _ | split)

theorem State.gated_tix {z : State} {s : State} {n : ℕ} {q : ℕ} {l : List Acc} {go : State → State} (h : Tix z s) (h1 : ∀ y0, Tix z y0 → Tix z (go y0)) :
    Tix z (State.gated s n q l go) := by
  unfold State.gated
  with_reducible
    repeat' (first
      | assumption | apply State.failEvent_tix | apply State.gate_tix | apply h1
      | (refine Tix.fst (by assumption) ?_) | split)

theorem State.scratched_tix {z : State} {s : State} {n : ℕ} {q : ℕ} {l : List Acc} {go : State → State} (h : Tix z s) (h1 : ∀ y0, Tix z y0 → Tix z (go y0)) :
    Tix z (State.scratched s n q l go) := by
  unfold State.scratched
  with_reducible
    repeat' (first
      | assumption | apply State.gated_tix | apply State.failEvent_tix | apply h1 | intro _ _ _ | intro _ _
      | intro _ | split)

theorem State.fencedHead_tix {z : State} {s : State} {n : ℕ} {q : ℕ} (h : Tix z s) :
    Tix z (State.fencedHead s n q) := by
  unfold State.fencedHead
  try dsimp only
  with_reducible
    repeat' (first
      | assumption | apply State.bump_tix | apply State.setQueue_tix | apply State.retire_tix
      | apply State.modTile_tix | intro _ _ _ | intro _ _ | intro _ | split)

end Sys2Proof.Machine
end

