-- ==== Sys2Proof/Laws/TixGranary.lean ====
section
/-!
SUPPORT. Operations that leave the packets without a final completion alone: the operations of Machine/Granary.lean.
-/

set_option linter.all false

namespace Sys2Proof.Machine

theorem State.atomStatus_tix {z : State} {s : State} {n : ℕ} {c : ℕ} {old : ℕ} {r : AtomResult} (h : Tix z s) :
    Tix z (State.atomStatus s n c old r) := by
  unfold State.atomStatus
  try dsimp only
  with_reducible
    repeat' (first
      | assumption | apply State.put_tix | apply State.putBit_tix)

theorem State.setGset_tix {z : State} {s : State} {n : ℕ} {k : ℕ} {g : GSet} (h : Tix z s) :
    Tix z (State.setGset s n k g) := by
  unfold State.setGset
  with_reducible
    repeat' (first
      | assumption | apply State.modTile_tix | intro _ _ _ | intro _ _ | intro _)

theorem State.useLine_tix {z : State} {s : State} {n : ℕ} {line : ℕ} {write : Bool} (h : Tix z s) :
    Tix z (State.useLine s n line write) := by
  unfold State.useLine
  try dsimp only
  with_reducible
    repeat' (first
      | assumption | apply State.setGset_tix | split)

theorem State.atomPerform_tix {z : State} {s : State} {n : ℕ} {window : Bool} {c : ℕ} {op : ℕ} {addr : ℕ} {wide : Bool} {data : ℕ} {cmp : ℕ} (h : Tix z s) :
    Tix z (State.atomPerform s n window c op addr wide data cmp) := by
  unfold State.atomPerform
  try dsimp only
  with_reducible
    repeat' (first
      | assumption | apply State.bump_tix | apply State.writeNat_tix | apply State.atomStatus_tix
      | apply State.wrapAdd_tix | apply State.useLine_tix | split)

theorem State.writeback_tix {z : State} {s : State} {n : ℕ} (h : Tix z s) :
    Tix z (State.writeback s n) := by
  unfold State.writeback
  with_reducible
    repeat' (first
      | assumption | apply State.wrapAdd_tix)

theorem State.install_tix {z : State} {s : State} {n : ℕ} {line : ℕ} {dirty : Bool} (h : Tix z s) :
    Tix z (State.install s n line dirty) := by
  unfold State.install
  try dsimp only
  with_reducible
    repeat' (first
      | assumption | apply State.writeback_tix | apply State.setGset_tix | apply State.useLine_tix | intro _ _ _
      | intro _ _ | intro _ | split)

theorem State.lookup_tix {z : State} {s : State} {n : ℕ} {line : ℕ} (h : Tix z s) :
    Tix z (State.lookup s n line).1 := by
  unfold State.lookup
  with_reducible
    repeat' (first
      | assumption | apply State.wrapAdd_tix | (refine Tix.fst (by assumption) ?_) | split)

theorem State.flushGranary_tix {z : State} {s : State} {n : ℕ} (h : Tix z s) :
    Tix z (State.flushGranary s n) := by
  unfold State.flushGranary
  try dsimp only
  with_reducible
    repeat' (first
      | assumption | apply State.modTile_tix | apply State.wrapAdd_tix | intro _ _ _ | intro _ _ | intro _)

theorem State.atomRefuse_tix {z : State} {s : State} {n : ℕ} {window : Bool} {c : ℕ} {cause : ℕ} {addr : ℕ} (h : Tix z s) :
    Tix z (State.atomRefuse s n window c cause addr) := by
  unfold State.atomRefuse
  try dsimp only
  with_reducible
    repeat' (first
      | assumption | apply State.bump_tix | apply State.put_tix | apply State.putBit_tix | apply State.emit_tix
      | split)

theorem State.atomIssue_tix {z : State} {s : State} {n : ℕ} {window : Bool} {c : ℕ} {op : ℕ} {addr : ℕ} {wide : Bool} {data : ℕ} {cmp : ℕ} (h : Tix z s) :
    Tix z (State.atomIssue s n window c op addr wide data cmp) := by
  unfold State.atomIssue
  try dsimp only
  with_reducible
    repeat' (first
      | assumption | apply State.atomPerform_tix | apply State.atomRefuse_tix | apply State.putBit_tix
      | apply State.modTile_tix | apply State.lookup_tix | intro _ _ _ | intro _ _ | intro _
      | (refine Tix.fst (by assumption) ?_) | split)

theorem State.atomCommand_tix {z : State} {s : State} {r : AtomRoute} {op : ℕ} (h : Tix z s) :
    Tix z (State.atomCommand s r op) := by
  unfold State.atomCommand
  with_reducible
    repeat' (first
      | assumption | apply State.emit_tix | apply State.atomIssue_tix | split)

theorem State.passLine_tix {z : State} {s : State} {line : ℕ} {write : Bool} (h : Tix z s) :
    Tix z (State.passLine s line write) := by
  unfold State.passLine
  with_reducible
    repeat' (first
      | assumption | apply State.useLine_tix | apply State.lookup_tix | (refine Tix.fst (by assumption) ?_) | split)

theorem State.passRange_tix {z : State} {s : State} {a : ℕ} {n : ℕ} {write : Bool} (h : Tix z s) :
    Tix z (State.passRange s a n write) := by
  unfold State.passRange
  with_reducible
    repeat' (first
      | assumption | apply State.passLine_tix | apply Tix.foldl | intro _ _ _ | intro _ _ | intro _ | split)

theorem State.tagError_tix {z : State} {s : State} {n : ℕ} {line : ℕ} (h : Tix z s) :
    Tix z (State.tagError s n line) := by
  unfold State.tagError
  try dsimp only
  with_reducible
    repeat' (first
      | assumption | apply State.poisonRange_tix | apply State.raise_tix | apply State.setGset_tix
      | apply Tix.foldl | intro _ _ _ | intro _ _ | intro _ | split)

end Sys2Proof.Machine
end

