-- ==== Sys2Proof/Laws/TixMatrix.lean ====
section
/-!
SUPPORT. Operations that leave the packets without a final completion alone: the operations of Machine/Matrix.lean.
-/

set_option linter.all false

namespace Sys2Proof.Machine

theorem State.plotDamage_tix {z : State} {s : State} {n : ℕ} {e : ℕ} {idx : ℕ} {a : ℕ} {cause : ℕ} {index : ℕ} {master : Bool} (h : Tix z s) :
    Tix z (State.plotDamage s n e idx a cause index master) := by
  unfold State.plotDamage
  try dsimp only
  with_reducible
    repeat' (first
      | assumption | apply State.bump_tix | apply State.put_tix | apply State.putBit_tix | split)

theorem State.plotRefetched_tix {z : State} {s : State} {n : ℕ} {e : ℕ} (h : Tix z s) :
    Tix z (State.plotRefetched s n e) := by
  unfold State.plotRefetched
  try dsimp only
  with_reducible
    repeat' (first
      | assumption | apply State.bump_tix | apply State.write_tix | apply State.raise_tix
      | apply State.plotDamage_tix | apply State.passRange_tix | apply State.failHead_tix
      | apply State.setHead_tix | intro _ _ _ | intro _ _ | intro _ | split)

theorem State.plotFails_tix {z : State} {s : State} {n : ℕ} {e : ℕ} {h0 : Queued} {a : ℕ} {master : ℕ} {resume : ℕ} (h : Tix z s) :
    Tix z (State.plotFails s n e h0 a master resume) := by
  unfold State.plotFails
  with_reducible
    repeat' (first
      | assumption | apply State.modTile_tix | apply State.failHead_tix | apply State.setHead_tix | intro _ _ _
      | intro _ _ | intro _ | split)

theorem State.setSlot_tix {z : State} {s : State} {n : ℕ} {e : ℕ} {k : ℕ} {x : Slot} (h : Tix z s) :
    Tix z (State.setSlot s n e k x) := by
  unfold State.setSlot
  try dsimp only
  with_reducible
    repeat' (first
      | assumption | apply State.modTile_tix | intro _ _ _ | intro _ _ | intro _)

theorem State.satColumns_tix {z : State} {s : State} {n : ℕ} {base : ℕ} {cols : List ℕ} (h : Tix z s) :
    Tix z (State.satColumns s n base cols) := by
  unfold State.satColumns
  with_reducible
    repeat' (first
      | assumption | apply State.bump_tix | apply Tix.foldl | intro _ _ _ | intro _ _ | intro _)

theorem State.countWriteOut_tix {z : State} {s : State} {n : ℕ} {e : ℕ} {d : Bytes} {x : Slot} (h : Tix z s) :
    Tix z (State.countWriteOut s n e d x) := by
  unfold State.countWriteOut
  try dsimp only
  with_reducible
    repeat' (first
      | assumption | apply State.bump_tix | apply State.satColumns_tix | apply State.put_tix | split)

theorem State.writeOut_tix {z : State} {s : State} {n : ℕ} {e : ℕ} {d : Bytes} {outliers : List ℕ} (h : Tix z s) :
    Tix z (State.writeOut s n e d outliers) := by
  unfold State.writeOut
  try dsimp only
  with_reducible
    repeat' (first
      | assumption | apply State.complete_tix | apply State.write_tix | apply State.countWriteOut_tix | split)

theorem State.runPass_tix {z : State} {s : State} {n : ℕ} {e : ℕ} {m : Mm} {p : ℕ × ℕ × List ℕ} {startK : ℕ} (h : Tix z s) :
    Tix z (State.runPass s n e m p startK).1 := by
  unfold State.runPass
  try dsimp only
  with_reducible
    repeat' (first
      | assumption | apply State.bump_tix | apply State.setSlot_tix | apply State.modTile_tix
      | apply State.wrapAdd_tix | apply Tix.foldl | apply Tix.foldlPair | intro _ _ _ | intro _ _ | intro _
      | (refine Tix.fst (by assumption) ?_) | split)

theorem State.runPasses_tix {z s : State} {n e : Nat} {m : Mm} {q : Queued} {l : List (Nat × Nat × List Nat)} {i startK : Nat}
    (h : Tix z s) : Tix z (s.runPasses n e m q l i startK) := by
  induction l generalizing s i startK with
  | nil =>
    unfold State.runPasses
    dsimp only
    repeat' (first
      | with_reducible assumption
      | with_reducible apply State.setHead_tix
      | with_reducible apply State.writeOut_tix
      | split)
  | cons p l ih =>
    unfold State.runPasses
    repeat' (first
      | with_reducible assumption
      | with_reducible apply ih
      | with_reducible apply State.plotFails_tix
      | with_reducible apply State.plotDamage_tix
      | with_reducible apply State.runPass_tix
      | with_reducible apply State.gated_tix
      | with_reducible apply State.setHead_tix
      | intro _ _
      | (refine Tix.fst (by with_reducible assumption) ?_)
      | split)

theorem State.matmulRun_tix {z : State} {s : State} {n : ℕ} {e : ℕ} {h0 : Queued} (h : Tix z s) :
    Tix z (State.matmulRun s n e h0) := by
  unfold State.matmulRun
  try dsimp only
  with_reducible
    repeat' (first
      | assumption | apply State.plotFails_tix | apply State.setSlot_tix | apply State.runPasses_tix | split)

theorem State.engineFault_tix {z : State} {s : State} {n : ℕ} {q : ℕ} {e : ℕ} {cause : ℕ} {slot : ℕ} {h0 : Queued} (h : Tix z s) :
    Tix z (State.engineFault s n q e cause slot h0) := by
  unfold State.engineFault
  try dsimp only
  with_reducible
    repeat' (first
      | assumption | apply State.wantSpare_tix | apply State.raise_tix | apply State.put_tix
      | apply State.putBit_tix | apply State.failHead_tix | split)

theorem State.engineCounts_tix {z : State} {s : State} {n : ℕ} {e : ℕ} {rep : EngineReport} (h : Tix z s) :
    Tix z (State.engineCounts s n e rep) := by
  unfold State.engineCounts
  try dsimp only
  with_reducible
    repeat' (first
      | assumption | apply State.bump_tix | apply State.wrapAdd_tix)

theorem State.matmul_tix {z : State} {s : State} {n : ℕ} {e : ℕ} {rep : EngineReport} {mem : MemReport} (h : Tix z s) :
    Tix z (State.matmul s n e rep mem) := by
  unfold State.matmul
  try dsimp only
  with_reducible
    repeat' (first
      | assumption | apply State.gated_tix | apply State.matmulRun_tix | apply State.failEvent_tix
      | apply State.complete_tix | apply State.fencedHead_tix | apply State.memReport_tix
      | apply State.engineFault_tix | apply State.engineCounts_tix | intro _ _ _ | intro _ _ | intro _ | split)

theorem State.writeOutTimeout_tix {z : State} {s : State} {n : ℕ} {e : ℕ} (h : Tix z s) :
    Tix z (State.writeOutTimeout s n e) := by
  unfold State.writeOutTimeout
  with_reducible
    repeat' (first
      | assumption | apply State.engineFault_tix | split)

theorem State.chainAdd_tix {z : State} {s : State} {n : ℕ} {e : ℕ} {rep : EngineReport} {mem : MemReport} (h : Tix z s) :
    Tix z (State.chainAdd s n e rep mem) := by
  unfold State.chainAdd
  try dsimp only
  with_reducible
    repeat' (first
      | assumption | apply State.gated_tix | apply State.bump_tix | apply State.setSlot_tix
      | apply State.fencedHead_tix | apply State.writeOut_tix | apply State.memReport_tix
      | apply State.engineFault_tix | apply State.engineCounts_tix | apply Tix.foldl | intro _ _ _ | intro _ _
      | intro _ | split)

end Sys2Proof.Machine
end

