-- ==== Sys2Proof/Laws/TixVector.lean ====
section
/-!
SUPPORT. Operations that leave the packets without a final completion alone: the operations of Machine/Vector.lean.
-/

set_option linter.all false

namespace Sys2Proof.Machine

/-- What the end of a VEC's body keeps. -/
def TixV (z : State) : VecEnd → Prop
  | .done s => Tix z s
  | _ => True

theorem TixV.of {z s : State} {v : VecEnd} (e : v = .done s) (h : TixV z v) : Tix z s := by
  subst e
  exact h

theorem TixV.done {z s : State} (h : Tix z s) : TixV z (.done s) := h

theorem TixV.tableFault (z : State) : TixV z .tableFault := trivial

theorem TixV.wordFault (z : State) : TixV z .wordFault := trivial

theorem State.outRows_tix {z s : State} {d : Bytes} {f : Nat → List Num} (h : Tix z s) : TixV z (s.outRows d f) :=
  State.write_tix h

theorem vecWiden_tix {z : State} {k : Bytes → ℕ} {s : State} {h0 : Queued} (h : Tix z s) :
    TixV z (vecWiden k s h0) := by
  unfold vecWiden
  try dsimp only
  with_reducible
    repeat' (first
      | assumption | apply State.write_tix | apply TixV.done | apply TixV.tableFault | apply TixV.wordFault
      | intro _ _ _ | intro _ _ | intro _)

theorem vecRescaleFp_tix {z : State} {s : State} {h0 : Queued} (h : Tix z s) :
    TixV z (vecRescaleFp s h0) := by
  unfold vecRescaleFp
  try dsimp only
  with_reducible
    repeat' (first
      | assumption | apply State.outRows_tix | (refine TixV.of (by assumption) ?_) | apply TixV.done
      | apply TixV.tableFault | apply TixV.wordFault | intro _ _ _ | intro _ _ | intro _ | split)

theorem vecNorm_tix {z : State} {f : Fmt →   Num →     List Num → List Num → List Num → Bytes} {s : State} {h0 : Queued} (h : Tix z s) :
    TixV z (vecNorm f s h0) := by
  unfold vecNorm
  try dsimp only
  with_reducible
    repeat' (first
      | assumption | apply State.write_tix | apply TixV.done | apply TixV.tableFault | apply TixV.wordFault
      | intro _ _ _ | intro _ _ | intro _)

theorem vecRescale_tix {z : State} {n : ℕ} {words : ℕ → Mult} {base : Option ℕ} {outl : Bool} {s : State} {h0 : Queued} (h : Tix z s) :
    TixV z (vecRescale n words base outl s h0) := by
  unfold vecRescale
  try dsimp only
  with_reducible
    repeat' (first
      | assumption | apply State.bump_tix | apply State.satColumns_tix | apply State.write_tix | apply TixV.done
      | apply TixV.tableFault | apply TixV.wordFault | intro _ _ _ | intro _ _ | intro _ | split)

theorem vecRescaleReg_tix {z : State} {n : ℕ} {s : State} {h0 : Queued} (h : Tix z s) :
    TixV z (vecRescaleReg n s h0) := by
  unfold vecRescaleReg
  try dsimp only
  with_reducible
    repeat' (first
      | assumption | apply vecRescale_tix | (refine TixV.of (by assumption) ?_) | apply TixV.done
      | apply TixV.tableFault | apply TixV.wordFault | intro _ _ _ | intro _ _ | intro _ | split)

theorem vecWireQ8_tix {z : State} {n : ℕ} {s : State} {h0 : Queued} (h : Tix z s) :
    TixV z (vecWireQ8 n s h0) := by
  unfold vecWireQ8
  try dsimp only
  with_reducible
    repeat' (first
      | assumption | apply State.bump_tix | apply State.draw_tix | apply State.write_tix | apply TixV.done
      | apply TixV.tableFault | apply TixV.wordFault | intro _ _ _ | intro _ _ | intro _)

theorem State.outVector_tix {z : State} {s : State} {d : Bytes} {f : ℕ → Num} (h : Tix z s) :
    TixV z (State.outVector s d f) := by
  unfold State.outVector
  with_reducible
    repeat' (first
      | assumption | apply State.write_tix | apply TixV.done | apply TixV.tableFault | apply TixV.wordFault
      | intro _ _ _ | intro _ _ | intro _)

theorem vecReduce_tix {z : State} {f : List Num → Num} {s : State} {h0 : Queued} (h : Tix z s) :
    TixV z (vecReduce f s h0) := by
  unfold vecReduce
  with_reducible
    repeat' (first
      | assumption | apply State.outVector_tix | (refine TixV.of (by assumption) ?_) | apply TixV.done
      | apply TixV.tableFault | apply TixV.wordFault | intro _ _ _ | intro _ _ | intro _)

theorem vecRescaleTab_tix {z : State} {n : ℕ} {s : State} {h0 : Queued} (h : Tix z s) :
    TixV z (vecRescaleTab n s h0) := by
  unfold vecRescaleTab
  try dsimp only
  with_reducible
    repeat' (first
      | assumption | apply vecRescale_tix | (refine TixV.of (by assumption) ?_) | apply TixV.done
      | apply TixV.tableFault | apply TixV.wordFault | intro _ _ _ | intro _ _ | intro _ | split)

theorem vecWire_tix {z : State} {f : Bytes → Fmt} {s : State} {h0 : Queued} (h : Tix z s) :
    TixV z (vecWire f s h0) := by
  unfold vecWire
  with_reducible
    repeat' (first
      | assumption | apply State.write_tix | apply TixV.done | apply TixV.tableFault | apply TixV.wordFault
      | intro _ _ _ | intro _ _ | intro _)

theorem vecUnary_tix {z : State} {f : Queued → Num → Num} {s : State} {h0 : Queued} (h : Tix z s) :
    TixV z (vecUnary f s h0) := by
  unfold vecUnary
  with_reducible
    repeat' (first
      | assumption | apply State.outRows_tix | (refine TixV.of (by assumption) ?_) | apply TixV.done
      | apply TixV.tableFault | apply TixV.wordFault | intro _ _ _ | intro _ _ | intro _)

theorem vecTernary_tix {z : State} {f : Num → Num → Num → Num} {s : State} {h0 : Queued} (h : Tix z s) :
    TixV z (vecTernary f s h0) := by
  unfold vecTernary
  with_reducible
    repeat' (first
      | assumption | apply State.outRows_tix | (refine TixV.of (by assumption) ?_) | apply TixV.done
      | apply TixV.tableFault | apply TixV.wordFault | intro _ _ _ | intro _ _ | intro _)

theorem State.vec_tix {z : State} {s : State} {n : ℕ} {code : ℕ} {stalls : ℕ} {mem : MemReport} {body : State → Queued → VecEnd} (h : Tix z s) (h1 : ∀ y0 y1, Tix z y0 → TixV z (body y0 y1)) :
    Tix z (State.vec s n code stalls mem body) := by
  unfold State.vec
  try dsimp only
  with_reducible
    repeat' (first
      | assumption | apply State.gated_tix | apply State.bump_tix | apply State.failEvent_tix
      | apply State.complete_tix | apply State.memReport_tix | apply State.wrapAdd_tix | apply State.failHead_tix
      | apply h1 | (refine TixV.of (by assumption) ?_) | intro _ _ _ | intro _ _ | intro _ | split)

theorem vecBinary_tix {z : State} {f : Num → Num → Num} {s : State} {h0 : Queued} (h : Tix z s) :
    TixV z (vecBinary f s h0) := by
  unfold vecBinary
  with_reducible
    repeat' (first
      | assumption | apply State.outRows_tix | (refine TixV.of (by assumption) ?_) | apply TixV.done
      | apply TixV.tableFault | apply TixV.wordFault | intro _ _ _ | intro _ _ | intro _)

theorem vecQuant_tix {z : State} {n : ℕ} {k : QKind} {s : State} {h0 : Queued} (h : Tix z s) :
    TixV z (vecQuant n k s h0) := by
  unfold vecQuant
  try dsimp only
  with_reducible
    repeat' (first
      | assumption | apply State.bump_tix | apply State.draw_tix | apply State.write_tix | apply TixV.done
      | apply TixV.tableFault | apply TixV.wordFault | intro _ _ _ | intro _ _ | intro _ | split)

theorem vecTable_tix {z : State} {f : (Num → Num) →   State → Queued → VecEnd} {s : State} {h0 : Queued} (h1 : ∀ y s q, Tix z s → TixV z (f y s q)) (h : Tix z s) :
    TixV z (vecTable f s h0) := by
  unfold vecTable
  try dsimp only
  with_reducible
    repeat' (first
      | assumption | apply h1 | (refine TixV.of (by assumption) ?_) | apply TixV.done | apply TixV.tableFault
      | apply TixV.wordFault | split)

theorem vecByRow_tix {z : State} {f : Num → Num → Num} {s : State} {h0 : Queued} (h : Tix z s) :
    TixV z (vecByRow f s h0) := by
  unfold vecByRow
  with_reducible
    repeat' (first
      | assumption | apply State.outRows_tix | (refine TixV.of (by assumption) ?_) | apply TixV.done
      | apply TixV.tableFault | apply TixV.wordFault | intro _ _ _ | intro _ _ | intro _)

end Sys2Proof.Machine
end

