-- ==== Sys2Proof/Laws/TixPlan.lean ====
section
/-!
SUPPORT. Operations that leave the packets without a final completion alone: the operations of Machine/Plan.lean.
-/

set_option linter.all false

namespace Sys2Proof.Machine

theorem State.stagePlan_tix {z : State} {s : State} {i : ℕ} {p : StepPlan} (h : Tix z s) :
    Tix z (State.stagePlan s i p) := by
  unfold State.stagePlan
  with_reducible
    repeat' (first
      | assumption | split)

end Sys2Proof.Machine
end

