-- ==== Sys2Proof/Laws/TixPower.lean ====
section
/-!
SUPPORT. Operations that leave the packets without a final completion alone: the operations of Machine/Power.lean.
-/

set_option linter.all false

namespace Sys2Proof.Machine

theorem State.showPower_tix {z : State} {s : State} (h : Tix z s) :
    Tix z (State.showPower s) := by
  unfold State.showPower
  try dsimp only
  with_reducible
    repeat' (first
      | assumption | apply State.put_tix | apply Tix.foldl | intro _ _ _ | intro _ _ | intro _)

theorem State.settleLevels_tix {z : State} {s : State} (h : Tix z s) :
    Tix z (State.settleLevels s) := by
  unfold State.settleLevels
  try dsimp only
  with_reducible
    repeat' (first
      | assumption | apply State.put_tix | apply Tix.foldl | intro _ _ _ | intro _ _ | intro _ | split)

theorem State.hintDevice_tix {z : State} {s : State} {h0 : PowerHint} (h : Tix z s) :
    Tix z (State.hintDevice s h0) := by
  unfold State.hintDevice
  try dsimp only
  with_reducible
    repeat' (first
      | assumption | apply Tix.foldl | intro _ _ _ | intro _ _ | intro _ | split)

theorem State.trip_tix {z : State} {s : State} {src : ℕ} {n : ℕ} {temp : ℕ} (h : Tix z s) :
    Tix z (State.trip s src n temp) := by
  unfold State.trip
  try dsimp only
  with_reducible
    repeat' (first
      | assumption | apply State.raise_tix | split)

theorem State.usePhase_tix {z : State} {s : State} {t : ℕ} {i : ℕ} {p : ℕ} (h : Tix z s) :
    Tix z (State.usePhase s t i p) := by
  unfold State.usePhase
  with_reducible
    repeat' (first
      | assumption | intro _ _ _ | intro _ _ | intro _ | split)

theorem State.predictFurrow_tix {z : State} {s : State} {t : ℕ} (h : Tix z s) :
    Tix z (State.predictFurrow s t) := by
  unfold State.predictFurrow
  try dsimp only
  with_reducible
    repeat' (first
      | assumption | apply State.usePhase_tix | apply State.putBit_tix | apply Tix.foldl | intro _ _ _ | intro _ _
      | intro _ | split)

theorem State.learn_tix {z : State} {s : State} {i : ℕ} {o : Occur} (h : Tix z s) :
    Tix z (State.learn s i o) := by
  unfold State.learn
  try dsimp only
  with_reducible
    repeat' (first
      | assumption | apply State.draw_tix | intro _ _ _ | intro _ _ | intro _ | split)

theorem State.endOccur_tix {z : State} {s : State} {i : ℕ} (h : Tix z s) :
    Tix z (State.endOccur s i) := by
  unfold State.endOccur
  with_reducible
    repeat' (first
      | assumption | apply State.usePhase_tix | apply State.learn_tix | intro _ _ _ | intro _ _ | intro _ | split)

theorem State.endPhases_tix {z : State} {s : State} (h : Tix z s) :
    Tix z (State.endPhases s) := by
  unfold State.endPhases
  with_reducible
    repeat' (first
      | assumption | apply State.endOccur_tix | apply Tix.foldl | intro _ _ _ | intro _ _ | intro _ | split)

theorem State.attribute_tix {z : State} {s : State} {fallow : Bool} (h : Tix z s) :
    Tix z (State.attribute s fallow) := by
  unfold State.attribute
  try dsimp only
  with_reducible
    repeat' (first
      | assumption | apply State.wrapAdd_tix | apply Tix.foldl | intro _ _ _ | intro _ _ | intro _ | split)

theorem State.crossed_tix {z : State} {s : State} {src : ℕ} {n : ℕ} {old : ℕ} (h : Tix z s) :
    Tix z (State.crossed s src n old) := by
  unfold State.crossed
  try dsimp only
  with_reducible
    repeat' (first
      | assumption | apply State.emit_tix | intro _ _ _ | intro _ _ | intro _ | split)

theorem State.throttleTick_tix {z : State} {s : State} (h : Tix z s) :
    Tix z (State.throttleTick s) := by
  unfold State.throttleTick
  with_reducible
    repeat' (first
      | assumption | apply State.bump_tix | apply Tix.foldl | intro _ _ _ | intro _ _ | intro _)

theorem State.setDemand_tix {z : State} {s : State} {src : ℕ} {n : ℕ} {l : ℕ} (h : Tix z s) :
    Tix z (State.setDemand s src n l) := by
  unfold State.setDemand
  assumption

theorem State.idleCap_tix {z : State} {s : State} (h : Tix z s) :
    Tix z (State.idleCap s) := by
  unfold State.idleCap
  try dsimp only
  with_reducible
    repeat' (first
      | assumption | apply State.settleLevels_tix | apply State.setDemand_tix | apply Tix.foldl | intro _ _ _
      | intro _ _ | intro _ | split)

theorem State.prepare_tix {z : State} {s : State} {i : ℕ} {p : ℕ} (h : Tix z s) :
    Tix z (State.prepare s i p) := by
  unfold State.prepare
  try dsimp only
  with_reducible
    repeat' (first
      | assumption | intro _ _ _ | intro _ _ | intro _ | split)

theorem State.setGuard_tix {z : State} {s : State} {f : ℕ → ℕ} {left : ℕ} (h : Tix z s) :
    Tix z (State.setGuard s f left) := by
  unfold State.setGuard
  try dsimp only
  with_reducible
    repeat' (first
      | assumption | apply State.settleLevels_tix | apply State.putBit_tix | apply State.setDemand_tix
      | apply Tix.foldl | intro _ _ _ | intro _ _ | intro _)

theorem State.peakGuard_tix {z : State} {s : State} {total : ℕ} (h : Tix z s) :
    Tix z (State.peakGuard s total) := by
  unfold State.peakGuard
  with_reducible
    repeat' (first
      | assumption | apply State.setGuard_tix | intro _ _ _ | intro _ _ | intro _ | split)

theorem State.addEnergy_tix {z : State} {s : State} {rails : List (ℕ × ℕ)} {shares : List ℕ} (h : Tix z s) :
    Tix z (State.addEnergy s rails shares) := by
  unfold State.addEnergy
  try dsimp only
  with_reducible
    repeat' (first
      | assumption | apply State.wrapAdd_tix | apply Tix.foldl | intro _ _ _ | intro _ _ | intro _)

theorem State.keepSample_tix {z : State} {s : State} {rails : List (ℕ × ℕ)} (h : Tix z s) :
    Tix z (State.keepSample s rails) := by
  unfold State.keepSample
  try dsimp only
  with_reducible
    repeat' (first
      | assumption | apply Tix.foldl | intro _ _ _ | intro _ _ | intro _ | split)

theorem State.powerSample_tix {z : State} {s : State} {rails : List (ℕ × ℕ)} {shares : List ℕ} (h : Tix z s) :
    Tix z (State.powerSample s rails shares) := by
  unfold State.powerSample
  with_reducible
    repeat' (first
      | assumption | apply State.peakGuard_tix | apply State.endPhases_tix | apply State.addEnergy_tix
      | apply State.keepSample_tix | apply State.showPower_tix | split)

theorem sampleRails_tix {z : State} {rails : List (ℕ × ℕ)} {shares : List ℕ} {s : State} (h : Tix z s) :
    Tix z (sampleRails rails shares s) := by
  unfold sampleRails
  with_reducible
    repeat' (first
      | assumption | apply State.powerSample_tix)

theorem State.applyPhase_tix {z : State} {s : State} {i : ℕ} {p : ℕ} (h : Tix z s) :
    Tix z (State.applyPhase s i p) := by
  unfold State.applyPhase
  try dsimp only
  with_reducible
    repeat' (first
      | assumption | apply State.settleLevels_tix | apply State.setDemand_tix | apply Tix.foldl | intro _ _ _
      | intro _ _ | intro _ | split)

theorem State.setOccur_tix {z : State} {s : State} {i : ℕ} {o : Occur} (h : Tix z s) :
    Tix z (State.setOccur s i o) := by
  unfold State.setOccur
  assumption

theorem State.mark_tix {z : State} {s : State} {n : ℕ} {p : ℕ} (h : Tix z s) :
    Tix z (State.mark s n p) := by
  unfold State.mark
  try dsimp only
  with_reducible
    repeat' (first
      | assumption | apply State.bump_tix | apply State.applyPhase_tix | apply State.endOccur_tix
      | apply State.setOccur_tix | apply State.modTile_tix | intro _ _ _ | intro _ _ | intro _ | split)

theorem State.dropOccur_tix {z : State} {s : State} {i : ℕ} (h : Tix z s) :
    Tix z (State.dropOccur s i) := by
  unfold State.dropOccur
  assumption

theorem State.startOutside_tix {z : State} {s : State} {t : ℕ} (h : Tix z s) :
    Tix z (State.startOutside s t) := by
  unfold State.startOutside
  with_reducible
    repeat' (first
      | assumption | apply State.endOccur_tix | apply State.setOccur_tix)

theorem State.alertRise_tix {z : State} {s : State} {k : ℕ} (h : Tix z s) :
    Tix z (State.alertRise s k) := by
  unfold State.alertRise
  try dsimp only
  with_reducible
    repeat' (first
      | assumption | apply State.settleLevels_tix | apply State.put_tix | intro _ _ _ | intro _ _ | intro _ | split)

theorem State.beginPhase_tix {z : State} {s : State} {i : ℕ} {p : ℕ} (h : Tix z s) :
    Tix z (State.beginPhase s i p) := by
  unfold State.beginPhase
  with_reducible
    repeat' (first
      | assumption | apply State.applyPhase_tix | split)

theorem State.thermalStep_tix {z : State} {s : State} {src : ℕ} {n : ℕ} {down : Bool} (h : Tix z s) :
    Tix z (State.thermalStep s src n down) := by
  unfold State.thermalStep
  try dsimp only
  with_reducible
    repeat' (first
      | assumption | apply State.settleLevels_tix | apply State.setDemand_tix | split)

theorem State.alertEnd_tix {z : State} {s : State} (h : Tix z s) :
    Tix z (State.alertEnd s) := by
  unfold State.alertEnd
  with_reducible
    repeat' (first
      | assumption | apply State.settleLevels_tix | split)

theorem State.currentStep_tix {z : State} {s : State} {n : ℕ} (h : Tix z s) :
    Tix z (State.currentStep s n) := by
  unfold State.currentStep
  try dsimp only
  with_reducible
    repeat' (first
      | assumption | apply State.settleLevels_tix | apply State.setDemand_tix | intro _ _ _ | intro _ _ | intro _
      | split)

theorem State.alertFall_tix {z : State} {s : State} {k : ℕ} (h : Tix z s) :
    Tix z (State.alertFall s k) := by
  unfold State.alertFall
  try dsimp only
  with_reducible
    repeat' (first
      | assumption | apply State.bump_tix | apply State.settleLevels_tix | apply State.raise_tix
      | apply State.put_tix | split)

theorem State.hintTile_tix {z : State} {s : State} {n : ℕ} {d : Bytes} (h : Tix z s) :
    Tix z (State.hintTile s n d) := by
  unfold State.hintTile
  try dsimp only
  with_reducible
    repeat' (first
      | assumption | intro _ _ _ | intro _ _ | intro _ | split)

theorem State.removeGuard_tix {z : State} {s : State} (h : Tix z s) :
    Tix z (State.removeGuard s) := by
  unfold State.removeGuard
  assumption

theorem State.thermal_tix {z : State} {s : State} {src : ℕ} {n : ℕ} (h : Tix z s) :
    Tix z (State.thermal s src n) := by
  unfold State.thermal
  try dsimp only
  with_reducible
    repeat' (first
      | assumption | apply State.bump_tix | apply State.settleLevels_tix | apply State.trip_tix
      | apply State.raise_tix | apply State.putBit_tix | split)

end Sys2Proof.Machine
end

