-- ==== Sys2Proof/Laws/TixSequencer.lean ====
section
/-!
SUPPORT. Operations that leave the packets without a final completion alone: the operations of Machine/Sequencer.lean.
-/

set_option linter.all false

namespace Sys2Proof.Machine

theorem State.stopUnits_tix {z : State} {s : State} {n : ℕ} (h : Tix z s) :
    Tix z (State.stopUnits s n) := by
  unfold State.stopUnits
  with_reducible
    repeat' (first
      | assumption | apply State.put_tix | apply State.modStack_tix | intro _ _ _ | intro _ _ | intro _)

theorem State.abandonTile_tix {z : State} {s : State} {n : ℕ} (h : Tix z s) :
    Tix z (State.abandonTile s n) := by
  unfold State.abandonTile
  try dsimp only
  with_reducible
    repeat' (first
      | assumption | apply State.setSeq_tix | apply State.stopUnits_tix | apply State.putBit_tix
      | apply State.modTile_tix | intro _ _ _ | intro _ _ | intro _)

theorem State.writeMode_tix {z : State} {s : State} {n : ℕ} {m : ℕ} (h : Tix z s) :
    Tix z (State.writeMode s n m) := by
  unfold State.writeMode
  with_reducible
    repeat' (first
      | assumption | apply State.put_tix | split)

theorem State.requestSpare_tix {z : State} {s : State} {n : ℕ} {e : ℕ} (h : Tix z s) :
    Tix z (State.requestSpare s n e) := by
  unfold State.requestSpare
  with_reducible
    repeat' (first
      | assumption | apply State.wantSpare_tix)

theorem State.directGo_tix {z : State} {s : State} {n : ℕ} (h : Tix z s) :
    Tix z (State.directGo s n) := by
  unfold State.directGo
  try dsimp only
  with_reducible
    repeat' (first
      | assumption | apply State.setSeq_tix | apply State.put_tix | apply State.putBit_tix
      | apply State.modTile_tix | intro _ _ _ | intro _ _ | intro _ | split)

theorem State.releaseHeld_tix {z : State} {s : State} (h : Tix z s) :
    Tix z (State.releaseHeld s) := by
  unfold State.releaseHeld
  with_reducible
    repeat' (first
      | assumption | apply State.retire_tix | apply State.setSeq_tix | apply Tix.foldl | intro _ _ _ | intro _ _
      | intro _ | split)

theorem State.fenceEngine_tix {z : State} {s : State} {n : ℕ} {e : ℕ} (h : Tix z s) :
    Tix z (State.fenceEngine s n e) := by
  unfold State.fenceEngine
  with_reducible
    repeat' (first
      | assumption | apply State.modTile_tix | intro _ _ _ | intro _ _ | intro _ | split)

theorem State.replaceEngine_tix {z : State} {s : State} {n : ℕ} {e : ℕ} (h : Tix z s) :
    Tix z (State.replaceEngine s n e) := by
  unfold State.replaceEngine
  try dsimp only
  with_reducible
    repeat' (first
      | assumption | apply State.raise_tix | apply State.put_tix | apply State.putBit_tix
      | apply State.modTile_tix | apply State.fenceEngine_tix | apply State.wrapAdd_tix | intro _ _ _ | intro _ _
      | intro _ | split)

theorem State.substitute_tix {z : State} {s : State} {n : ℕ} (h : Tix z s) :
    Tix z (State.substitute s n) := by
  unfold State.substitute
  try dsimp only
  with_reducible
    repeat' (first
      | assumption | apply State.replaceEngine_tix | apply State.modTile_tix | apply Tix.foldl | intro _ _ _
      | intro _ _ | intro _)

theorem State.clearEvents_tix {z : State} {s : State} {n : ℕ} (h : Tix z s) :
    Tix z (State.clearEvents s n) := by
  unfold State.clearEvents
  with_reducible
    repeat' (first
      | assumption | apply State.put_tix | apply Tix.foldl | intro _ _ _ | intro _ _ | intro _)

theorem State.adapt_tix {z : State} {s : State} {n : ℕ} (h : Tix z s) :
    Tix z (State.adapt s n) := by
  unfold State.adapt
  try dsimp only
  with_reducible
    repeat' (first
      | assumption | apply State.bump_tix | apply State.put_tix | apply State.wrapAdd_tix | apply Tix.foldl
      | intro _ _ _ | intro _ _ | intro _ | split)

theorem State.armTile_tix {z : State} {s : State} {t : ℕ} {n : ℕ} {i : ℕ} {l : List Bytes} (h : Tix z s) :
    Tix z (State.armTile s t n i l) := by
  unfold State.armTile
  try dsimp only
  with_reducible
    repeat' (first
      | assumption | apply State.adapt_tix | apply State.setSeq_tix | apply State.put_tix | apply State.putBit_tix
      | apply State.modTile_tix | intro _ _ _ | intro _ _ | intro _)

theorem State.regainEngine_tix {z : State} {s : State} {n : ℕ} (h : Tix z s) :
    Tix z (State.regainEngine s n) := by
  unfold State.regainEngine
  try dsimp only
  with_reducible
    repeat' (first
      | assumption | apply State.put_tix | apply State.putBit_tix | apply State.modTile_tix
      | apply State.wrapAdd_tix | intro _ _ _ | intro _ _ | intro _ | split)

theorem State.turnTile_tix {z : State} {s : State} {template : Option ℕ} {n : ℕ} (h : Tix z s) :
    Tix z (State.turnTile s template n) := by
  unfold State.turnTile
  try dsimp only
  with_reducible
    repeat' (first
      | assumption | apply State.armTile_tix | apply State.clearEvents_tix | apply State.substitute_tix
      | apply State.modTile_tix | apply State.regainEngine_tix | intro _ _ _ | intro _ _ | intro _ | split)

theorem State.turnTiles_tix {z : State} {s : State} {template : Option ℕ} (h : Tix z s) :
    Tix z (State.turnTiles s template) := by
  unfold State.turnTiles
  with_reducible
    repeat' (first
      | assumption | apply State.turnTile_tix | apply Tix.foldl | intro _ _ _ | intro _ _ | intro _)

theorem State.advance_tix {z : State} {s : State} {n : ℕ} (h : Tix z s) :
    Tix z (State.advance s n) := by
  unfold State.advance
  with_reducible
    repeat' (first
      | assumption | apply State.modTile_tix | apply State.wrapAdd_tix | intro _ _ _ | intro _ _ | intro _)

theorem State.directFail_tix {z : State} {s : State} {n : ℕ} {d : Bytes} (h : Tix z s) :
    Tix z (State.directFail s n d) := by
  unfold State.directFail
  with_reducible
    repeat' (first
      | assumption | apply State.retire_tix | apply State.stepFail_tix | apply State.applySignal_tix
      | apply State.advance_tix)

theorem State.ownDesc_tix {z : State} {s : State} {n : ℕ} {ty : ℕ} {act : State → Bytes → State × Bool} (h : Tix z s) (h1 : ∀ y0 y1, Tix z y0 → Tix z (act y0 y1).1) :
    Tix z (State.ownDesc s n ty act) := by
  unfold State.ownDesc
  with_reducible
    repeat' (first
      | assumption | apply State.completeDesc_tix | apply State.directFail_tix | apply State.advance_tix | apply h1
      | (refine Tix.fst (by assumption) ?_) | split)

theorem State.waitCounter_tix {z : State} {s : State} {n : ℕ} (h : Tix z s) :
    Tix z (State.waitCounter s n) := by
  unfold State.waitCounter
  with_reducible
    repeat' (first
      | assumption | apply State.ownDesc_tix | intro _ _ _ | intro _ _ | intro _ | split)

theorem State.takeNotice_tix {z : State} {s : State} {n : ℕ} (h : Tix z s) :
    Tix z (State.takeNotice s n) := by
  unfold State.takeNotice
  try dsimp only
  with_reducible
    repeat' (first
      | assumption | apply State.enterSkip_tix | apply State.modTile_tix | intro _ _ _ | intro _ _ | intro _ | split)

theorem State.startTile_tix {z : State} {s : State} {n : ℕ} (h : Tix z s) :
    Tix z (State.startTile s n) := by
  unfold State.startTile
  with_reducible
    repeat' (first
      | assumption | apply State.retire_tix | apply State.setSeq_tix | split)

theorem State.waitMeridian_tix {z : State} {s : State} {n : ℕ} (h : Tix z s) :
    Tix z (State.waitMeridian s n) := by
  unfold State.waitMeridian
  try dsimp only
  with_reducible
    repeat' (first
      | assumption | apply State.bump_tix | apply State.ownDesc_tix | apply State.modTile_tix | intro _ _ _
      | intro _ _ | intro _ | split)

theorem State.issue_tix {z : State} {s : State} {n : ℕ} (h : Tix z s) :
    Tix z (State.issue s n) := by
  unfold State.issue
  try dsimp only
  with_reducible
    repeat' (first
      | assumption | apply State.setQueue_tix | apply State.completeDesc_tix | apply State.directFail_tix
      | apply State.advance_tix | split)

end Sys2Proof.Machine
end

