-- ==== Sys2Proof/Laws/TixCollective.lean ====
section
/-!
SUPPORT. Operations that leave the packets without a final completion alone: the operations of Machine/Collective.lean.
-/

set_option linter.all false

namespace Sys2Proof.Machine

theorem State.countArrival_tix {z : State} {s : State} {n : ℕ} {slot : ℕ} {d : Bytes} {k : ℕ} (h : Tix z s) :
    Tix z (State.countArrival s n slot d k) := by
  unfold State.countArrival
  try dsimp only
  with_reducible
    repeat' (first
      | assumption | apply State.signal_tix | split)

theorem State.arrivalFails_tix {z : State} {s : State} {n : ℕ} {slot : ℕ} (h : Tix z s) :
    Tix z (State.arrivalFails s n slot) := by
  unfold State.arrivalFails
  with_reducible
    repeat' (first
      | assumption | apply State.stepFail_tix | intro _ _ _ | intro _ _ | intro _ | split)

theorem State.poisonArrived_tix {z : State} {s : State} {n : ℕ} {slot : ℕ} {addr : ℕ} (h : Tix z s) :
    Tix z (State.poisonArrived s n slot addr) := by
  unfold State.poisonArrived
  with_reducible
    repeat' (first
      | assumption | apply State.arrivalFails_tix | apply State.raise_tix)

theorem State.placeData_tix {z : State} {s : State} {n : ℕ} {slot : ℕ} {addr : ℕ} {len : ℕ} {b : Option Bytes} (h : Tix z s) :
    Tix z (State.placeData s n slot addr len b) := by
  unfold State.placeData
  with_reducible
    repeat' (first
      | assumption | apply State.arrivalFails_tix | apply State.poisonRange_tix | apply State.write_tix
      | apply State.raise_tix | apply State.gate_tix | apply State.poisonArrived_tix
      | (refine Tix.fst (by assumption) ?_) | split)

theorem State.combine_tix {z : State} {s : State} {n : ℕ} {e : PlanEntry} {d : Bytes} (h : Tix z s) :
    Tix z (State.combine s n e d) := by
  unfold State.combine
  try dsimp only
  with_reducible
    repeat' (first
      | assumption | apply State.draw_tix | apply State.bump_tix | apply State.countArrival_tix | apply State.placeData_tix | intro _ _ _
      | intro _ _ | intro _ | split)

theorem State.sendStream_tix {z : State} {s : State} {p : ℕ} {n : ℕ} {x : Send} {fmt : ℕ} {data : Option Bytes} {len : ℕ} (h : Tix z s) :
    Tix z (State.sendStream s p n x fmt data len) := by
  unfold State.sendStream
  try dsimp only
  with_reducible
    repeat' (first
      | assumption | apply State.sendSeq_tix | apply State.nonce_tix | apply Tix.foldl | intro _ _ _ | intro _ _
      | intro _ | split)

theorem State.setSends_tix {z : State} {s : State} {p : ℕ} {l : List Send} (h : Tix z s) :
    Tix z (State.setSends s p l) := by
  unfold State.setSends
  with_reducible
    repeat' (first
      | assumption | apply State.modLink_tix | intro _ _ _ | intro _ _ | intro _)

theorem State.noteLate_tix {z : State} {s : State} {x : Send} (h : Tix z s) :
    Tix z (State.noteLate s x) := by
  unfold State.noteLate
  with_reducible
    repeat' (first
      | assumption | apply State.bump_tix | split)

theorem State.pumpPort_tix {z : State} {s : State} {p : ℕ} {x2 : ℕ} (h : Tix z s) :
    Tix z (State.pumpPort s p x2) := by
  induction x2 generalizing s p with
  | zero =>
    unfold State.pumpPort
    try dsimp only
    with_reducible
      repeat' (first
        | assumption | apply State.sendSeq_tix | apply State.sendStream_tix | apply State.setSends_tix
        | apply State.noteLate_tix | intro _ _ _ | intro _ _ | intro _ | split)
  | succ y ih =>
    unfold State.pumpPort
    try dsimp only
    with_reducible
      repeat' (first
        | assumption | apply ih | apply State.sendSeq_tix | apply State.sendStream_tix | apply State.setSends_tix
        | apply State.noteLate_tix | intro _ _ _ | intro _ _ | intro _ | split)

theorem State.pump_tix {z : State} {s : State} (h : Tix z s) :
    Tix z (State.pump s) := by
  unfold State.pump
  with_reducible
    repeat' (first
      | assumption | apply State.pumpPort_tix | apply Tix.foldl | intro _ _ _ | intro _ _ | intro _)

theorem State.skipStart_tix {z : State} {s : State} {n : ℕ} (h : Tix z s) :
    Tix z (State.skipStart s n) := by
  unfold State.skipStart
  try dsimp only
  with_reducible
    repeat' (first
      | assumption | apply State.setHead_tix | split)

theorem State.collTile_tix {z : State} {s : State} {n : ℕ} {x2 : ℕ} (h : Tix z s) :
    Tix z (State.collTile s n x2) := by
  induction x2 generalizing s n with
  | zero =>
    unfold State.collTile
    try dsimp only
    with_reducible
      repeat' (first
        | assumption | apply State.pump_tix | apply State.complete_tix | apply State.skipStart_tix | split)
  | succ y ih =>
    unfold State.collTile
    try dsimp only
    with_reducible
      repeat' (first
        | assumption | apply ih | apply State.pump_tix | apply State.complete_tix | apply State.skipStart_tix | split)

theorem State.collectives_tix {z : State} {s : State} (h : Tix z s) :
    Tix z (State.collectives s) := by
  unfold State.collectives
  with_reducible
    repeat' (first
      | assumption | apply State.collTile_tix | apply Tix.foldl | intro _ _ _ | intro _ _ | intro _)

theorem State.addPiece_tix {z : State} {s : State} {n : ℕ} {e : PlanEntry} {d : Bytes} {q : ℕ} {b : Option Bytes} (h : Tix z s) :
    Tix z (State.addPiece s n e d q b) := by
  unfold State.addPiece
  with_reducible
    repeat' (first
      | assumption | apply State.combine_tix)

theorem State.deliver_tix {z : State} {s : State} {e : PlanEntry} {phase : ℕ} {g : ℕ} {t : ℕ} {b : Option Bytes} (h : Tix z s) :
    Tix z (State.deliver s e phase g t b) := by
  unfold State.deliver
  try dsimp only
  with_reducible
    repeat' (first
      | assumption | apply State.addPiece_tix | apply State.countArrival_tix | apply State.placeData_tix
      | intro _ _ _ | intro _ _ | intro _ | split)

theorem State.streamIn_tix {z : State} {s : State} {p : ℕ} {r : Rx} {t : ℕ} {b : Option Bytes} (h : Tix z s) :
    Tix z (State.streamIn s p r t b) := by
  unfold State.streamIn
  try dsimp only
  with_reducible
    repeat' (first
      | assumption | apply State.bump_tix | apply State.deliver_tix | split)

theorem State.clearColl_tix {z : State} {s : State} (h : Tix z s) :
    Tix z (State.clearColl s) := by
  unfold State.clearColl
  try dsimp only
  with_reducible
    repeat' (first
      | assumption | apply State.modLink_tix | apply Tix.foldl | intro _ _ _ | intro _ _ | intro _)

theorem State.ownPiece_tix {z : State} {s : State} {n : ℕ} {e : PlanEntry} {d : Bytes} (h : Tix z s) :
    Tix z (State.ownPiece s n e d) := by
  unfold State.ownPiece
  try dsimp only
  with_reducible
    repeat' (first
      | assumption | apply State.addPiece_tix | apply State.countArrival_tix | apply State.placeData_tix | split)

theorem State.openSlot_tix {z : State} {s : State} {slot : ℕ} (h : Tix z s) :
    Tix z (State.openSlot s slot) := by
  unfold State.openSlot
  try dsimp only
  with_reducible
    repeat' (first
      | assumption | apply State.modLink_tix | apply State.collectives_tix | apply Tix.foldl | intro _ _ _
      | intro _ _ | intro _ | split)

theorem State.collStart_tix {z : State} {s : State} {n : ℕ} {op : ℕ} {mem : MemReport} (h : Tix z s) :
    Tix z (State.collStart s n op mem) := by
  unfold State.collStart
  try dsimp only
  with_reducible
    repeat' (first
      | assumption | apply State.ownPiece_tix | apply State.collectives_tix | apply State.stepFail_tix
      | apply State.raise_tix | apply State.gate_tix | apply State.memReport_tix | apply State.setHead_tix
      | (refine Tix.fst (by assumption) ?_) | split)

end Sys2Proof.Machine
end

