-- ==== Sys2Proof/Laws/TixDrill.lean ====
section
/-!
SUPPORT. Operations that leave the packets without a final completion alone: the operations of Machine/Drill.lean.
-/

set_option linter.all false

namespace Sys2Proof.Machine

theorem State.sample_tix {z : State} {s : State} {n : ℕ} {final : Bool} {mem : MemReport} {lanes : List ℕ} {accs : Bytes → List Acc} {body : State → Bytes → State} (h : Tix z s) (h1 : ∀ y0 y1, Tix z y0 → Tix z (body y0 y1)) :
    Tix z (State.sample s n final mem lanes accs body) := by
  unfold State.sample
  try dsimp only
  with_reducible
    repeat' (first
      | assumption | apply State.gated_tix | apply State.scratched_tix | apply State.complete_tix
      | apply State.memReport_tix | apply State.failHead_tix | apply h1 | intro _ _ _ | intro _ _ | intro _ | split)

theorem State.addResult_tix {z : State} {s : State} {r : LaneResult} (h : Tix z s) :
    Tix z (State.addResult s r) := by
  unfold State.addResult
  try dsimp only
  with_reducible
    repeat' (first
      | assumption | intro _ _ _ | intro _ _ | intro _)

theorem State.putChoice_tix {z : State} {s : State} {n : ℕ} {inst : Option ℕ} {d : Bytes} {l : ℕ} {c : Choice} (h : Tix z s) :
    Tix z (State.putChoice s n inst d l c) := by
  unfold State.putChoice
  try dsimp only
  with_reducible
    repeat' (first
      | assumption | apply State.bump_tix | apply State.draw_tix | apply State.write_tix | apply State.put_tix
      | apply State.putBit_tix | apply State.addResult_tix | split)

theorem State.sampleFinal_tix {z s : State} {n : Nat} {mem : MemReport} (h : Tix z s) :
    Tix z (s.sampleFinal n mem) := by
  unfold State.sampleFinal
  apply State.sample_tix h
  intro y d h
  refine Tix.foldl h ?_
  intro y d h
  exact State.putChoice_tix h

theorem State.sampleLocal_tix {z : State} {s : State} {n : ℕ} {mem : MemReport} (h : Tix z s) :
    Tix z (State.sampleLocal s n mem) := by
  unfold State.sampleLocal
  try dsimp only
  with_reducible
    repeat' (first
      | assumption | apply State.bump_tix | apply State.sample_tix | apply State.write_tix | intro _ _ _
      | intro _ _ | intro _)

end Sys2Proof.Machine
end

