-- ==== Sys2Proof/Laws/TixAttention.lean ====
section
/-!
SUPPORT. Operations that leave the packets without a final completion alone: the operations of Machine/Attention.lean.
-/

set_option linter.all false

namespace Sys2Proof.Machine

theorem State.laneStatus_tix {z : State} {s : State} {d : Bytes} {l : ℕ} {b : ℕ} (h : Tix z s) :
    Tix z (State.laneStatus s d l b) := by
  unfold State.laneStatus
  try dsimp only
  with_reducible
    repeat' (first
      | assumption | apply State.writeNat_tix)

theorem State.nonfinite_tix {z : State} {s : State} {n : ℕ} {d : Bytes} {l : ℕ} (h : Tix z s) :
    Tix z (State.nonfinite s n d l) := by
  unfold State.nonfinite
  with_reducible
    repeat' (first
      | assumption | apply State.bump_tix | intro _ _ _ | intro _ _ | intro _)

theorem State.tellLane_tix {z : State} {s : State} {i : ℕ} {missed : List ℕ} {damaged : List ℕ} (h : Tix z s) :
    Tix z (State.tellLane s i missed damaged) := by
  unfold State.tellLane
  with_reducible
    repeat' (first
      | assumption | apply State.sendCtrl_tix | split)

theorem State.noteMiss_tix {z : State} {s : State} {i : ℕ} {set : ℕ} {lane : ℕ} {seqId : ℕ} (h : Tix z s) :
    Tix z (State.noteMiss s i set lane seqId) := by
  unfold State.noteMiss
  with_reducible
    repeat' (first
      | assumption | apply State.tellLane_tix | split)

theorem State.attendLane_tix {z : State} {s : State} {n : ℕ} {d : Bytes} {t : Bytes} {hLoc : ℕ} {alpha : Num} {e : ℕ × Bytes} (h : Tix z s) :
    Tix z (State.attendLane s n d t hLoc alpha e) := by
  unfold State.attendLane
  try dsimp only
  with_reducible
    repeat' (first
      | assumption | apply State.bump_tix | apply State.laneStatus_tix | apply State.write_tix
      | apply State.nonfinite_tix | apply State.noteMiss_tix | intro _ _ _ | intro _ _ | intro _ | split)

theorem State.labUse_tix {z : State} {s : State} {n : ℕ} {table : ℕ} {key : ℕ} (h : Tix z s) :
    Tix z (State.labUse s n table key) := by
  unfold State.labUse
  try dsimp only
  with_reducible
    repeat' (first
      | assumption | apply State.modTile_tix | apply State.wrapAdd_tix | intro _ _ _ | intro _ _ | intro _ | split)

theorem State.clearAttendSlots_tix {z : State} {s : State} {n : ℕ} {mask : ℕ} (h : Tix z s) :
    Tix z (State.clearAttendSlots s n mask) := by
  unfold State.clearAttendSlots
  with_reducible
    repeat' (first
      | assumption | apply State.setSlot_tix | apply Tix.foldl | intro _ _ _ | intro _ _ | intro _)

theorem State.noteDamage_tix {z : State} {s : State} {i : ℕ} {seqId : ℕ} (h : Tix z s) :
    Tix z (State.noteDamage s i seqId) := by
  unfold State.noteDamage
  with_reducible
    repeat' (first
      | assumption | apply State.tellLane_tix | split)

theorem State.kvDamage_tix {z : State} {s : State} {n : ℕ} {d : Bytes} {r : Bytes} {l : ℕ} {a : ℕ} {cause : ℕ} {index : ℕ} (h : Tix z s) :
    Tix z (State.kvDamage s n d r l a cause index) := by
  unfold State.kvDamage
  try dsimp only
  with_reducible
    repeat' (first
      | assumption | apply State.bump_tix | apply State.laneStatus_tix | apply State.raise_tix
      | apply State.put_tix | apply State.putBit_tix | apply State.noteDamage_tix | apply State.modTile_tix
      | intro _ _ _ | intro _ _ | intro _ | split)

theorem State.kvDamages_tix {z : State} {s : State} {n : ℕ} {d : Bytes} {r : Bytes} {l : ℕ} {b : Block} (h : Tix z s) :
    Tix z (State.kvDamages s n d r l b) := by
  unfold State.kvDamages
  try dsimp only
  with_reducible
    repeat' (first
      | assumption | apply State.kvDamage_tix | apply Tix.foldl | intro _ _ _ | intro _ _ | intro _ | split)

theorem State.mergeLane_tix {z : State} {s : State} {d : Bytes} {t : Bytes} {l : ℕ} (h : Tix z s) :
    Tix z (State.mergeLane s d t l) := by
  unfold State.mergeLane
  try dsimp only
  with_reducible
    repeat' (first
      | assumption | apply State.write_tix | apply Tix.foldl | intro _ _ _ | intro _ _ | intro _ | split)

theorem State.attendStep_tix {z : State} {n : ℕ} {d : Bytes} {k : ℕ} {s : State} {x : (ℕ × Bytes) × List LaneStep} (h : Tix z s) :
    Tix z (State.attendStep n d k s x) := by
  unfold State.attendStep
  try dsimp only
  with_reducible
    repeat' (first
      | assumption | apply State.kvDamages_tix | apply State.labUse_tix | split)

theorem State.attendGroup_tix {z : State} {s : State} {n : ℕ} {d : Bytes} {t : Bytes} {hLoc : ℕ} {lanes : List (ℕ × Bytes)} (h : Tix z s) :
    Tix z (State.attendGroup s n d t hLoc lanes) := by
  unfold State.attendGroup
  try dsimp only
  with_reducible
    repeat' (first
      | assumption | apply State.attendStep_tix | apply Tix.foldl | intro _ _ _ | intro _ _ | intro _)

theorem State.attendCounts_tix {z : State} {s : State} {n : ℕ} {mask : ℕ} {reps : List (ℕ × EngineReport)} (h : Tix z s) :
    Tix z (State.attendCounts s n mask reps) := by
  unfold State.attendCounts
  with_reducible
    repeat' (first
      | assumption | apply State.engineCounts_tix | apply Tix.foldl | intro _ _ _ | intro _ _ | intro _)

theorem State.attendReport_tix {z : State} {s : State} {n : ℕ} {clocks : ℕ} {mask : ℕ} {reps : List (ℕ × EngineReport)} {mem : MemReport} (h : Tix z s) :
    Tix z (State.attendReport s n clocks mask reps mem) := by
  unfold State.attendReport
  with_reducible
    repeat' (first
      | assumption | apply State.attendCounts_tix | apply State.memReport_tix | apply State.wrapAdd_tix)

theorem State.stageLane_tix {z : State} {s : State} {d : Bytes} {t : Bytes} {hLoc : ℕ} {e : ℕ × Bytes} (h : Tix z s) :
    Tix z (State.stageLane s d t hLoc e) := by
  unfold State.stageLane
  try dsimp only
  with_reducible
    repeat' (first
      | assumption | apply State.write_tix | split)

theorem State.attendRun_tix {z : State} {s : State} {n : ℕ} {hLoc : ℕ} {h0 : Queued} (h : Tix z s) :
    Tix z (State.attendRun s n hLoc h0) := by
  unfold State.attendRun
  try dsimp only
  with_reducible
    repeat' (first
      | assumption | apply State.draw_tix | apply State.failEvent_tix | apply State.stageLane_tix
      | apply State.complete_tix | apply State.attendLane_tix | apply State.clearAttendSlots_tix
      | apply State.attendGroup_tix | apply State.failHead_tix | apply State.setHead_tix | apply Tix.foldl
      | intro _ _ _ | intro _ _ | intro _ | split)

theorem State.attendGo_tix {z : State} {s : State} {n : ℕ} {h0 : Queued} (h : Tix z s) :
    Tix z (State.attendGo s n h0) := by
  unfold State.attendGo
  with_reducible
    repeat' (first
      | assumption | apply State.gated_tix | apply State.scratched_tix | apply State.attendRun_tix | intro _ _ _
      | intro _ _ | intro _)

theorem State.attend_tix {z : State} {s : State} {n : ℕ} {clocks : ℕ} {reps : List (ℕ × EngineReport)} {mem : MemReport} (h : Tix z s) :
    Tix z (State.attend s n clocks reps mem) := by
  unfold State.attend
  try dsimp only
  with_reducible
    repeat' (first
      | assumption | apply State.attendReport_tix | apply State.attendGo_tix | apply State.engineFault_tix
      | intro _ _ _ | intro _ _ | intro _ | split)

theorem State.attendMerge_tix {z : State} {s : State} {n : ℕ} {mem : MemReport} (h : Tix z s) :
    Tix z (State.attendMerge s n mem) := by
  unfold State.attendMerge
  try dsimp only
  with_reducible
    repeat' (first
      | assumption | apply State.mergeLane_tix | apply State.complete_tix | apply State.memReport_tix
      | apply Tix.foldl | intro _ _ _ | intro _ _ | intro _ | split)

end Sys2Proof.Machine
end

