-- ==== Sys2Proof/Laws/TixPackage.lean ====
section
/-!
SUPPORT. Operations that leave the packets without a final completion alone: the operations of Machine/Package.lean.
-/

set_option linter.all false

namespace Sys2Proof.Machine

theorem State.segLose_tix {z : State} {s : State} {g : Seg} (h : Tix z s) :
    Tix z (State.segLose s g) := by
  unfold State.segLose
  with_reducible
    repeat' (first
      | assumption | apply State.zero_tix | apply State.setSeg_tix)

theorem State.segGo_tix {z : State} {s : State} {g : Seg} {want : ℕ} (h : Tix z s) :
    Tix z (State.segGo s g want) := by
  unfold State.segGo
  try dsimp only
  with_reducible
    repeat' (first
      | assumption | apply State.segLose_tix | apply State.setSeg_tix | apply State.modTile_tix | intro _ _ _
      | intro _ _ | intro _ | split)

theorem State.segAsk_tix {z : State} {s : State} {g : Seg} {want : ℕ} (h : Tix z s) :
    Tix z (State.segAsk s g want) := by
  unfold State.segAsk
  with_reducible
    repeat' (first
      | assumption | apply State.bump_tix | apply State.put_tix | apply State.segGo_tix | split)

theorem State.segPower_tix {z : State} {s : State} {n : ℕ} {ts : ℕ} {sp : ℕ} (h : Tix z s) :
    Tix z (State.segPower s n ts sp) := by
  unfold State.segPower
  try dsimp only
  with_reducible
    repeat' (first
      | assumption | apply State.segAsk_tix | apply Tix.foldl | intro _ _ _ | intro _ _ | intro _)

theorem State.granaryPerform_tix {z : State} {s : State} {n : ℕ} {line : ℕ} {a : GAccess} (h : Tix z s) :
    Tix z (State.granaryPerform s n line a) := by
  unfold State.granaryPerform
  try dsimp only
  with_reducible
    repeat' (first
      | assumption | apply State.atomPerform_tix | apply State.write_tix | apply State.useLine_tix
      | apply State.emit_tix | split)

theorem State.fillDone_tix {z : State} {s : State} {n : ℕ} {line : ℕ} {poison : Bool} (h : Tix z s) :
    Tix z (State.fillDone s n line poison) := by
  unfold State.fillDone
  try dsimp only
  with_reducible
    repeat' (first
      | assumption | apply State.countFarPoison_tix | apply State.poisonRange_tix | apply State.install_tix
      | apply State.modTile_tix | apply State.granaryPerform_tix | apply Tix.foldl | intro _ _ _ | intro _ _
      | intro _ | split)

theorem State.segWoken_tix {z : State} {s : State} {g : Seg} {off : Bool} (h : Tix z s) :
    Tix z (State.segWoken s g off) := by
  unfold State.segWoken
  try dsimp only
  with_reducible
    repeat' (first
      | assumption | apply State.zero_tix | apply State.setSeg_tix | apply State.modTile_tix
      | apply State.segGo_tix | intro _ _ _ | intro _ _ | intro _ | split)

theorem State.coreDirect_tix {z : State} {s : State} {addr : ℕ} {write : Option Bytes} (h : Tix z s) :
    Tix z (State.coreDirect s addr write) := by
  unfold State.coreDirect
  try dsimp only
  with_reducible
    repeat' (first
      | assumption | apply State.bump_tix | apply State.wake_tix | apply State.write_tix | apply State.emit_tix
      | intro _ _ _ | intro _ _ | intro _ | split)

theorem State.granaryAccess_tix {z : State} {s : State} {addr : ℕ} {write : Option Bytes} {tagFault : Bool} (h : Tix z s) :
    Tix z (State.granaryAccess s addr write tagFault) := by
  unfold State.granaryAccess
  try dsimp only
  with_reducible
    repeat' (first
      | assumption | apply State.coreDirect_tix | apply State.tagError_tix | apply State.modTile_tix
      | apply State.granaryPerform_tix | apply State.lookup_tix | intro _ _ _ | intro _ _ | intro _
      | (refine Tix.fst (by assumption) ?_) | split)

theorem State.scrub_tix {z : State} {s : State} {n : ℕ} {sp : Bool} {found : Option Bool} (h : Tix z s) :
    Tix z (State.scrub s n sp found) := by
  unfold State.scrub
  try dsimp only
  with_reducible
    repeat' (first
      | assumption | apply State.raise_tix | apply State.eccEvent_tix | apply State.modTile_tix | intro _ _ _
      | intro _ _ | intro _ | split)

end Sys2Proof.Machine
end

