-- ==== Sys2Proof/Laws/TixPages.lean ====
section
/-!
SUPPORT. Operations that leave the packets without a final completion alone: the operations of Machine/Pages.lean.
-/

set_option linter.all false

namespace Sys2Proof.Machine

theorem TixO.tryAll {β : Type} {z s : State} {f : State → β → Option State} {l : List β} (h : Tix z s)
    (hf : ∀ s x, Tix z s → TixO z (f s x)) : TixO z (Machine.tryAll f s l) := by
  induction l generalizing s with
  | nil => exact .of h
  | cons x l ih =>
    unfold Machine.tryAll
    split
    · rename_i t e
      exact ih ((hf s x h).kept t e)
    · exact .none z

theorem State.ownAlloc_tix {z s : State} {n size : Nat} (h : Tix z s) : TixP z (s.ownAlloc n size) := by
  unfold State.ownAlloc
  exact TixP.map fun _ => h

theorem State.ownFree_tix {z : State} {s : State} {a : ℕ} (h : Tix z s) :
    Tix z (State.ownFree s a) := by
  unfold State.ownFree
  with_reducible
    repeat' (first
      | assumption | intro _ _ _ | intro _ _ | intro _)

theorem State.setFile_tix {z : State} {s : State} {slot : ℕ} {f : Option KvFile} (h : Tix z s) :
    Tix z (State.setFile s slot f) := by
  unfold State.setFile
  assumption

theorem State.copyBytes_tix {z : State} {s : State} {src : ℕ} {dst : ℕ} {n : ℕ} (h : Tix z s) :
    Tix z (State.copyBytes s src dst n) := by
  unfold State.copyBytes
  try dsimp only
  with_reducible
    repeat' (first
      | assumption | apply State.poisonRange_tix | apply State.write_tix | apply Tix.foldl | intro _ _ _
      | intro _ _ | intro _)

theorem State.refOp_tix {z : State} {s : State} {n : ℕ} {tier : ℕ} {addr : ℕ} {op : ℕ} {data : ℕ} {cmp : ℕ} (h : Tix z s) :
    Tix z (State.refOp s n tier addr op data cmp).1 := by
  unfold State.refOp
  try dsimp only
  with_reducible
    repeat' (first
      | assumption | apply State.atomPerform_tix | apply State.install_tix | apply State.lookup_tix
      | (refine Tix.fst (by assumption) ?_) | split)

theorem State.refRead_tix {z : State} {s : State} {n : ℕ} {tier : ℕ} {addr : ℕ} (h : Tix z s) :
    Tix z (State.refRead s n tier addr).1 := by
  unfold State.refRead
  try dsimp only
  with_reducible
    repeat' (first
      | assumption | apply State.refOp_tix | (refine Tix.fst (by assumption) ?_) | split)

theorem State.setRef_tix {z : State} {s : State} {n : ℕ} {tier : ℕ} {addr : ℕ} {v : ℕ} (h : Tix z s) :
    Tix z (State.setRef s n tier addr v) := by
  unfold State.setRef
  try dsimp only
  with_reducible
    repeat' (first
      | assumption | apply State.refRead_tix | apply State.refOp_tix | (refine Tix.fst (by assumption) ?_) | split)

theorem State.pageIn_tix {z : State} {s : State} {n : ℕ} {tier : ℕ} {size : ℕ} {tenant : ℕ} {dawn : Bool} (h : Tix z s) :
    TixP z (State.pageIn s n tier size tenant dawn) := by
  unfold State.pageIn
  try dsimp only
  with_reducible
    repeat' (first
      | assumption | apply State.setRef_tix | apply TixP.of | apply TixP.none | apply TixO.mapPair
      | apply TixO.mapState | apply TixO.map | apply TixP.mapPair | apply TixP.map | intro _ _ _ | intro _ _
      | intro _ | (refine Tix.fst (by assumption) ?_) | split)

theorem State.mapEntries_tix {z : State} {s : State} {n : ℕ} {addr : ℕ} {f : ℕ → ℕ} (h : Tix z s) :
    Tix z (State.mapEntries s n addr f) := by
  unfold State.mapEntries
  try dsimp only
  with_reducible
    repeat' (first
      | assumption | apply State.writeNat_tix | apply Tix.foldl | intro _ _ _ | intro _ _ | intro _ | split)

theorem State.setPtes_tix {z : State} {s : State} {table : ℕ} {g : ℕ} {size : ℕ} {e : ℕ} (h : Tix z s) :
    Tix z (State.setPtes s table g size e) := by
  unfold State.setPtes
  with_reducible
    repeat' (first
      | assumption | apply State.writeNat_tix | apply Tix.foldl | intro _ _ _ | intro _ _ | intro _)

theorem State.copySlots_tix {z : State} {s : State} {n : ℕ} {tierA : ℕ} {a : ℕ} {tierB : ℕ} {b : ℕ} {len : ℕ} (h : Tix z s) :
    Tix z (State.copySlots s n tierA a tierB b len) := by
  unfold State.copySlots
  try dsimp only
  with_reducible
    repeat' (first
      | assumption | apply State.copyBytes_tix)

theorem State.freePage_tix {z : State} {s : State} {n : ℕ} {addr : ℕ} (h : Tix z s) :
    Tix z (State.freePage s n addr) := by
  unfold State.freePage
  with_reducible
    repeat' (first
      | assumption | intro _ _ _ | intro _ _ | intro _ | split)

theorem State.dropRef_tix {z : State} {s : State} {n : ℕ} {e : ℕ} {dawn : Bool} (h : Tix z s) :
    Tix z (State.dropRef s n e dawn) := by
  unfold State.dropRef
  try dsimp only
  with_reducible
    repeat' (first
      | assumption | apply State.mapEntries_tix | apply State.freePage_tix | apply State.refOp_tix | intro _ _ _
      | intro _ _ | intro _ | (refine Tix.fst (by assumption) ?_) | split)

theorem State.newPage_tix {z : State} {s : State} {n : ℕ} {size : ℕ} {tenant : ℕ} {dawn : Bool} {watermark : ℕ} (h : Tix z s) :
    TixP z (State.newPage s n size tenant dawn watermark) := by
  unfold State.newPage
  try dsimp only
  with_reducible
    repeat' (first
      | assumption | apply State.pageIn_tix | apply TixP.of | apply TixP.none | apply TixO.mapPair
      | apply TixO.mapState | apply TixO.map | apply TixP.mapPair | apply TixP.map | intro _ _ _ | intro _ _
      | intro _ | (refine Tix.fst (by assumption) ?_) | (refine Tix.somePair (by assumption) ?_)
      | (dsimp only [Tix]; refine Tix.parts (Tix.somePair (by assumption) ?_)) | split)

theorem State.closeFile_tix {z : State} {s : State} {slot : ℕ} (h : Tix z s) :
    Tix z (State.closeFile s slot) := by
  unfold State.closeFile
  try dsimp only
  with_reducible
    repeat' (first
      | assumption | apply State.ownFree_tix | apply State.dropRef_tix | apply State.setFile_tix | apply Tix.foldl
      | intro _ _ _ | intro _ _ | intro _ | split)

theorem State.dropHandle_tix {z : State} {s : State} {hslot : ℕ} (h : Tix z s) :
    Tix z (State.dropHandle s hslot) := by
  unfold State.dropHandle
  try dsimp only
  with_reducible
    repeat' (first
      | assumption | apply State.dropRef_tix | apply Tix.foldl | intro _ _ _ | intro _ _ | intro _ | split)

theorem State.privateSlot_tix {z : State} {s : State} {n : ℕ} {table : ℕ} {off : ℕ} {size : ℕ} {tenant : ℕ} {fmt : ℕ} {watermark : ℕ} {dawn : Bool} (h : Tix z s) :
    TixP z (State.privateSlot s n table off size tenant fmt watermark dawn) := by
  unfold State.privateSlot
  try dsimp only
  with_reducible
    repeat' (first
      | assumption | apply State.setPtes_tix | apply State.newPage_tix | apply TixP.of | apply TixP.none
      | apply TixO.mapPair | apply TixO.mapState | apply TixO.map | apply TixP.mapPair | apply TixP.map
      | intro _ _ _ | intro _ _ | intro _ | (refine Tix.fst (by assumption) ?_)
      | (refine Tix.somePair (by assumption) ?_)
      | (dsimp only [Tix]; refine Tix.parts (Tix.somePair (by assumption) ?_)) | split)

theorem State.newTables_tix {z : State} {s : State} {areas : List Reserve} {g : Geo} {maxLen : ℕ} {x4 : List ℕ} (h : Tix z s) :
    TixP z (State.newTables s areas g maxLen x4) := by
  induction x4 generalizing s areas g maxLen with
  | nil =>
    unfold State.newTables
    try dsimp only
    with_reducible
      repeat' (first
        | assumption | apply State.zero_tix | apply TixP.of | apply TixP.none | apply TixO.mapPair
        | apply TixO.mapState | apply TixO.map | apply TixP.mapPair | apply TixP.map | intro _ _ _ | intro _ _
        | intro _ | (refine Tix.fst (by assumption) ?_) | split)
  | cons y ys ih =>
    unfold State.newTables
    try dsimp only
    with_reducible
      repeat' (first
        | assumption | apply ih | apply State.zero_tix | apply TixP.of | apply TixP.none | apply TixO.mapPair
        | apply TixO.mapState | apply TixO.map | apply TixP.mapPair | apply TixP.map | intro _ _ _ | intro _ _
        | intro _ | (refine Tix.fst (by assumption) ?_) | split)

theorem State.takeRef_tix {z : State} {s : State} {n : ℕ} {e : ℕ} {dawn : Bool} (h : Tix z s) :
    Tix z (State.takeRef s n e dawn) := by
  unfold State.takeRef
  try dsimp only
  with_reducible
    repeat' (first
      | assumption | apply State.mapEntries_tix | apply State.refOp_tix | intro _ _ _ | intro _ _ | intro _
      | (refine Tix.fst (by assumption) ?_) | split)

theorem State.shareBlocks_tix {z : State} {s : State} {h0 : KvHandle} {g : Geo} {f : KvFile} {share : ℕ} {n : ℕ} {table : ℕ} {x : ℕ} {i : ℕ} (h : Tix z s) :
    TixO z (State.shareBlocks s h0 g f share n table x i) := by
  unfold State.shareBlocks
  try dsimp only
  with_reducible
    repeat' (first
      | assumption | apply State.privateSlot_tix | apply State.takeRef_tix | apply State.setPtes_tix
      | apply State.copySlots_tix | apply TixO.of | apply TixO.none | apply TixO.mapPair | apply TixO.mapState
      | apply TixO.map | apply TixP.mapPair | apply TixP.map | intro _ _ _ | intro _ _ | intro _
      | (refine Tix.somePair (by assumption) ?_)
      | (dsimp only [Tix]; refine Tix.parts (Tix.somePair (by assumption) ?_)) | split)

theorem State.openFile_tix {z : State} {s : State} {slot : ℕ} {f : KvFile} {h0 : Option KvHandle} (h : Tix z s) :
    TixO z (State.openFile s slot f h0) := by
  unfold State.openFile
  try dsimp only
  with_reducible
    repeat' (first
      | assumption | apply State.privateSlot_tix | apply State.newTables_tix | apply State.shareBlocks_tix
      | apply State.setFile_tix | apply TixO.of | apply TixO.none | apply TixO.tryAll | apply TixO.mapPair
      | apply TixO.mapState | apply TixO.map | apply TixP.mapPair | apply TixP.map | intro _ _ _ | intro _ _
      | intro _ | (refine Tix.ofSome (by assumption) ?_) | (refine Tix.somePair (by assumption) ?_)
      | (dsimp only [Tix]; refine Tix.parts (Tix.somePair (by assumption) ?_))
      | (dsimp only [Tix]; refine Tix.parts (Tix.ofSome (by assumption) ?_)) | split)

theorem State.closeFileOf_tix {z : State} {s : State} {id : ℕ} (h : Tix z s) :
    Tix z (State.closeFileOf s id) := by
  unfold State.closeFileOf
  with_reducible
    repeat' (first
      | assumption | apply State.closeFile_tix | split)

theorem State.charge_tix {z : State} {s : State} {n : ℕ} {tenant : ℕ} {es : List ℕ} (h : Tix z s) :
    Tix z (State.charge s n tenant es) := by
  unfold State.charge
  with_reducible
    repeat' (first
      | assumption | intro _ _ _ | intro _ _ | intro _ | split)

theorem State.makeHandle_tix {z : State} {s : State} {hslot : ℕ} {slot : ℕ} {tenant : ℕ} {len : ℕ} (h : Tix z s) :
    Tix z (State.makeHandle s hslot slot tenant len) := by
  unfold State.makeHandle
  try dsimp only
  with_reducible
    repeat' (first
      | assumption | apply State.takeRef_tix | apply State.charge_tix | apply Tix.foldl | intro _ _ _ | intro _ _
      | intro _ | split)

end Sys2Proof.Machine
end

