-- ==== Sys2Proof/Laws/TixProtect.lean ====
section
/-!
SUPPORT. Operations that leave the packets without a final completion alone: the operations of Machine/Protect.lean.
-/

set_option linter.all false

namespace Sys2Proof.Machine

theorem State.protectAll_tix {z : State} {s : State} (h : Tix z s) :
    Tix z (State.protectAll s) := by
  unfold State.protectAll
  try dsimp only
  with_reducible
    repeat' (first
      | assumption | apply State.draw_tix | apply State.put_tix | apply Tix.foldl | intro _ _ _ | intro _ _
      | intro _)

theorem State.unprotect_tix {z : State} {s : State} (h : Tix z s) :
    Tix z (State.unprotect s) := by
  unfold State.unprotect
  with_reducible
    repeat' (first
      | assumption | apply State.put_tix)

theorem State.violation_tix {z : State} {s : State} {v : ℕ × ℕ} {req : Option ℕ} {a : ℕ} {src : ℕ} {write : Bool} (h : Tix z s) :
    Tix z (State.violation s v req a src write) := by
  unfold State.violation
  try dsimp only
  with_reducible
    repeat' (first
      | assumption | apply State.bump_tix | apply State.put_tix | apply State.putBit_tix | split)

theorem State.writeFor_tix {z : State} {s : State} {req : Option ℕ} {src : ℕ} {a : ℕ} {bs : Bytes} (h : Tix z s) :
    Tix z (State.writeFor s req src a bs) := by
  unfold State.writeFor
  with_reducible
    repeat' (first
      | assumption | apply State.write_tix | apply State.passLine_tix | apply State.violation_tix
      | apply Tix.foldl | intro _ _ _ | intro _ _ | intro _ | split)

theorem State.readFor_tix {z : State} {s : State} {req : Option ℕ} {src : ℕ} {a : ℕ} {n : ℕ} (h : Tix z s) :
    Tix z (State.readFor s req src a n).1 := by
  unfold State.readFor
  with_reducible
    repeat' (first
      | assumption | apply State.passLine_tix | apply State.violation_tix | apply Tix.foldl | apply Tix.foldlPair
      | intro _ _ _ | intro _ _ | intro _ | (refine Tix.fst (by assumption) ?_) | split)

end Sys2Proof.Machine
end

