-- ==== Sys2Proof/Laws/TixKv.lean ====
section
/-!
SUPPORT. Operations that leave the packets without a final completion alone: the operations of Machine/Kv.lean.
-/

set_option linter.all false

namespace Sys2Proof.Machine

theorem State.putDescs_tix {z : State} {s : State} {i : ℕ} {a : ℕ} {stride : ℕ} {l : List (List Bytes)} (h : Tix z s) :
    Tix z (State.putDescs s i a stride l) := by
  unfold State.putDescs
  try dsimp only
  with_reducible
    repeat' (first
      | assumption | apply State.write_tix | apply Tix.foldl | intro _ _ _ | intro _ _ | intro _)

theorem State.writeDescs_tix {z : State} {s : State} {i : ℕ} {n : ℕ} {stride : ℕ} {l : List (List Bytes)} (h : Tix z s) :
    Tix z (State.writeDescs s i n stride l).1 := by
  unfold State.writeDescs
  with_reducible
    repeat' (first
      | assumption | apply State.ownAlloc_tix | apply State.putDescs_tix | (refine Tix.fst (by assumption) ?_)
      | (refine Tix.somePair (by assumption) ?_)
      | (dsimp only [Tix]; refine Tix.parts (Tix.somePair (by assumption) ?_)) | split)

theorem State.laneBytes_tix {z : State} {s : State} {i : ℕ} {n : ℕ} {share : ℕ} {g : Geo} {e : LaneEntry} (h : Tix z s) :
    Tix z (State.laneBytes s i n share g e).1 := by
  unfold State.laneBytes
  try dsimp only
  with_reducible
    repeat' (first
      | assumption | apply State.writeDescs_tix | apply Tix.foldl | apply Tix.foldlPair | apply TixO.getD
      | intro _ _ _ | intro _ _ | intro _ | (refine Tix.fst (by assumption) ?_) | split)

theorem State.recordBytes_tix {z : State} {s : State} {i : ℕ} {e : LaneEntry} (h : Tix z s) :
    Tix z (State.recordBytes s i e).1 := by
  unfold State.recordBytes
  try dsimp only
  with_reducible
    repeat' (first
      | assumption | apply State.write_tix | intro _ _ _ | intro _ _ | intro _ | (refine Tix.fst (by assumption) ?_)
      | split)

theorem State.writeTable_tix {z : State} {s : State} {i : ℕ} {n : ℕ} {share : ℕ} {g : Geo} {x : Inst} {es : List LaneEntry} {set : ℕ} {a : ℕ} (h : Tix z s) :
    Tix z (State.writeTable s i n share g x es set a) := by
  unfold State.writeTable
  try dsimp only
  with_reducible
    repeat' (first
      | assumption | apply State.laneBytes_tix | apply State.write_tix | apply State.recordBytes_tix
      | apply Tix.foldl | intro _ _ _ | intro _ _ | intro _ | (refine Tix.fst (by assumption) ?_) | split)

theorem State.park_tix {z : State} {s : State} {slot : ℕ} (h : Tix z s) :
    Tix z (State.park s slot) := by
  unfold State.park
  with_reducible
    repeat' (first
      | assumption | apply State.setFile_tix | apply State.ownAlloc_tix | apply State.copyBytes_tix
      | (refine Tix.somePair (by assumption) ?_)
      | (dsimp only [Tix]; refine Tix.parts (Tix.somePair (by assumption) ?_)) | split)

theorem State.stageIn_tix {z : State} {s : State} {slot : ℕ} {busy : List ℕ} {x3 : ℕ} (h : Tix z s) :
    Tix z (State.stageIn s slot busy x3) := by
  induction x3 generalizing s slot busy with
  | zero =>
    unfold State.stageIn
    try dsimp only
    with_reducible
      repeat' (first
        | assumption | apply State.ownFree_tix | apply State.setFile_tix | apply State.copyBytes_tix
        | apply State.park_tix | split)
  | succ y ih =>
    unfold State.stageIn
    try dsimp only
    with_reducible
      repeat' (first
        | assumption | apply ih | apply State.ownFree_tix | apply State.setFile_tix | apply State.copyBytes_tix
        | apply State.park_tix | split)

theorem State.writeLanes_tix {z : State} {s : State} {i : ℕ} {es : List LaneEntry} (h : Tix z s) :
    Tix z (State.writeLanes s i es) := by
  unfold State.writeLanes
  try dsimp only
  with_reducible
    repeat' (first
      | assumption | apply State.write_tix | apply State.ownFree_tix | apply State.writeTable_tix
      | apply State.stageIn_tix | apply Tix.foldl | intro _ _ _ | intro _ _ | intro _ | split)

theorem State.putPlot_tix {z : State} {s : State} {pool : ℕ × ℕ} {slot : ℕ} {off : ℕ} {b : Bytes} (h : Tix z s) :
    Tix z (State.putPlot s pool slot off b) := by
  unfold State.putPlot
  with_reducible
    repeat' (first
      | assumption | apply State.write_tix)

theorem State.flushSlot_tix {z : State} {s : State} {n : ℕ} {share : ℕ} {table : ℕ} {off : ℕ} {g : Geo} {f : KvFile} (h : Tix z s) :
    TixP z (State.flushSlot s n share table off g f) := by
  unfold State.flushSlot
  try dsimp only
  with_reducible
    repeat' (first
      | assumption | apply State.bump_tix | apply State.pageIn_tix | apply State.mapEntries_tix
      | apply State.setPtes_tix | apply State.refRead_tix | apply State.copySlots_tix | apply State.dropRef_tix
      | apply State.newPage_tix | apply TixP.of | apply TixP.none | apply Tix.foldl | apply Tix.foldlPair
      | apply TixO.mapPair | apply TixO.mapState | apply TixO.map | apply TixP.mapPair | apply TixP.map
      | apply TixO.foldl | apply TixP.foldl | intro _ _ _ | intro _ _ | intro _
      | (refine Tix.fst (by assumption) ?_) | (refine Tix.somePair (by assumption) ?_)
      | (dsimp only [Tix]; refine Tix.parts (Tix.somePair (by assumption) ?_)) | split)

theorem State.flushHead_tix {z : State} {s : State} {n : ℕ} {share : ℕ} {table : ℕ} {stage : ℕ} {j : ℕ} {i : ℕ} {g : Geo} {f : KvFile} {x : ℕ} (h : Tix z s) :
    TixO z (State.flushHead s n share table stage j i g f x) := by
  unfold State.flushHead
  try dsimp only
  with_reducible
    repeat' (first
      | assumption | apply State.draw_tix | apply State.bump_tix | apply State.putPlot_tix | apply State.flushSlot_tix | apply TixO.of
      | apply TixO.none | apply Tix.foldl | apply Tix.foldlPair | apply TixO.mapPair | apply TixO.mapState
      | apply TixO.map | apply TixP.mapPair | apply TixP.map | apply TixO.foldl | apply TixP.foldl | intro _ _ _
      | intro _ _ | intro _ | (refine Tix.fst (by assumption) ?_) | (refine Tix.somePair (by assumption) ?_)
      | (dsimp only [Tix]; refine Tix.parts (Tix.somePair (by assumption) ?_)) | split)

theorem State.flushSeq_tix {z : State} {s : State} {slot : ℕ} {f : KvFile} (h : Tix z s) :
    Tix z (State.flushSeq s slot f) := by
  unfold State.flushSeq
  try dsimp only
  with_reducible
    repeat' (first
      | assumption | apply State.bump_tix | apply State.setFile_tix | apply State.flushHead_tix
      | apply TixO.tryAll | apply TixO.getD | intro _ _ _ | intro _ _ | intro _
      | (refine Tix.ofSome (by assumption) ?_)
      | (dsimp only [Tix]; refine Tix.parts (Tix.ofSome (by assumption) ?_)) | split)

theorem State.flushItem_tix {z : State} {s : State} (h : Tix z s) :
    Tix z (State.flushItem s) := by
  unfold State.flushItem
  with_reducible
    repeat' (first
      | assumption | apply State.flushSeq_tix | apply Tix.foldl | intro _ _ _ | intro _ _ | intro _ | split)

theorem State.commitFiles_tix {z : State} {s : State} {inst : ℕ} {kept : List ℕ} (h : Tix z s) :
    Tix z (State.commitFiles s inst kept) := by
  unfold State.commitFiles
  with_reducible
    repeat' (first
      | assumption | apply State.setFile_tix | apply Tix.foldl | intro _ _ _ | intro _ _ | intro _ | split)

theorem State.touchPages_tix {z : State} {s : State} {f : KvFile} (h : Tix z s) :
    Tix z (State.touchPages s f) := by
  unfold State.touchPages
  try dsimp only
  with_reducible
    repeat' (first
      | assumption | apply Tix.foldl | intro _ _ _ | intro _ _ | intro _ | split)

theorem State.touchLanes_tix {z : State} {s : State} {inst : ℕ} (h : Tix z s) :
    Tix z (State.touchLanes s inst) := by
  unfold State.touchLanes
  with_reducible
    repeat' (first
      | assumption | apply State.touchPages_tix | apply Tix.foldl | intro _ _ _ | intro _ _ | intro _ | split)

theorem State.switchCopies_tix {z : State} {s : State} (h : Tix z s) :
    Tix z (State.switchCopies s) := by
  unfold State.switchCopies
  try dsimp only
  with_reducible
    repeat' (first
      | assumption | apply State.bump_tix | apply State.mapEntries_tix | apply State.refRead_tix
      | apply State.setRef_tix | apply Tix.foldl | intro _ _ _ | intro _ _ | intro _
      | (refine Tix.fst (by assumption) ?_) | split)

theorem State.movePage_tix {z : State} {s : State} {p : KvPage} {tier : ℕ} (h : Tix z s) :
    Tix z (State.movePage s p tier) := by
  unfold State.movePage
  with_reducible
    repeat' (first
      | assumption | apply State.mapEntries_tix | intro _ _ _ | intro _ _ | intro _ | split)

theorem State.spillItem_tix {z : State} {s : State} (h : Tix z s) :
    Tix z (State.spillItem s) := by
  unfold State.spillItem
  try dsimp only
  with_reducible
    repeat' (first
      | assumption | apply State.movePage_tix | apply Tix.foldl | intro _ _ _ | intro _ _ | intro _ | split)

theorem State.prefetchItem_tix {z : State} {s : State} {slots : List ℕ} (h : Tix z s) :
    Tix z (State.prefetchItem s slots) := by
  unfold State.prefetchItem
  with_reducible
    repeat' (first
      | assumption | apply State.movePage_tix | apply Tix.foldl | intro _ _ _ | intro _ _ | intro _ | split)

theorem State.startBlind_tix {z : State} {s : State} (h : Tix z s) :
    Tix z (State.startBlind s) := by
  unfold State.startBlind
  with_reducible
    repeat' (first
      | assumption | apply State.noteMiss_tix | apply Tix.foldl | intro _ _ _ | intro _ _ | intro _ | split)

theorem State.startMisses_tix {z : State} {s : State} (h : Tix z s) :
    Tix z (State.startMisses s) := by
  unfold State.startMisses
  with_reducible
    repeat' (first
      | assumption | apply State.bump_tix | apply State.noteMiss_tix | apply Tix.foldl | intro _ _ _ | intro _ _
      | intro _)

theorem State.copyEnds_tix {z : State} {s : State} {n : ℕ} {addr : ℕ} (h : Tix z s) :
    Tix z (State.copyEnds s n addr) := by
  unfold State.copyEnds
  try dsimp only
  with_reducible
    repeat' (first
      | assumption | apply State.countFarPoison_tix | apply State.copySlots_tix | intro _ _ _ | intro _ _ | intro _
      | split)

end Sys2Proof.Machine
end

