-- ==== Sys2Proof/Laws/TixServing.lean ====
section
/-!
SUPPORT. Operations that leave the packets without a final completion alone: the operations of Machine/Serving.lean.
-/

set_option linter.all false

namespace Sys2Proof.Machine

theorem State.setSeqn_tix {z : State} {s : State} {id : ℕ} {q : Option Seq} (h : Tix z s) :
    Tix z (State.setSeqn s id q) := by
  unfold State.setSeqn
  assumption

theorem State.modSeq_tix {z : State} {s : State} {id : ℕ} {f : Seq → Seq} (h : Tix z s) :
    Tix z (State.modSeq s id f) := by
  unfold State.modSeq
  with_reducible
    repeat' (first
      | assumption | apply State.setSeqn_tix | split)

theorem State.noteHeld_tix {z : State} {s : State} (h : Tix z s) :
    Tix z (State.noteHeld s) := by
  unfold State.noteHeld
  with_reducible
    repeat' (first
      | assumption | apply State.bump_tix | intro _ _ _ | intro _ _ | intro _ | split)

theorem State.deliverToken_tix {z : State} {s : State} {id : ℕ} {t : TokenRec} (h : Tix z s) :
    Tix z (State.deliverToken s id t) := by
  unfold State.deliverToken
  with_reducible
    repeat' (first
      | assumption | apply State.writeTr_tix | apply State.modSeq_tix | intro _ _ _ | intro _ _ | intro _ | split)

theorem State.countToken_tix {z : State} {s : State} {id : ℕ} {t : ℕ} (h : Tix z s) :
    Tix z (State.countToken s id t) := by
  unfold State.countToken
  with_reducible
    repeat' (first
      | assumption | apply State.bump_tix | apply State.modSeq_tix | intro _ _ _ | intro _ _ | intro _ | split)

theorem State.failLane_tix {z : State} {s : State} {id : ℕ} (h : Tix z s) :
    Tix z (State.failLane s id) := by
  unfold State.failLane
  with_reducible
    repeat' (first
      | assumption | apply State.modSeq_tix | intro _ _ _ | intro _ _ | intro _)

theorem State.drainHeld_tix {z : State} {s : State} {id : ℕ} {x2 : ℕ} (h : Tix z s) :
    Tix z (State.drainHeld s id x2) := by
  induction x2 generalizing s id with
  | zero =>
    unfold State.drainHeld
    with_reducible
      repeat' (first
        | assumption | apply State.writeTr_tix | apply State.modSeq_tix | intro _ _ _ | intro _ _ | intro _ | split)
  | succ y ih =>
    unfold State.drainHeld
    with_reducible
      repeat' (first
        | assumption | apply ih | apply State.writeTr_tix | apply State.modSeq_tix | intro _ _ _ | intro _ _ | intro _
        | split)

theorem State.drainAll_tix {z : State} {s : State} (h : Tix z s) :
    Tix z (State.drainAll s) := by
  unfold State.drainAll
  with_reducible
    repeat' (first
      | assumption | apply State.drainHeld_tix | apply Tix.foldl | intro _ _ _ | intro _ _ | intro _)

theorem State.tellLead_tix {z : State} {s : State} {i : ℕ} {kept : List ℕ} (h : Tix z s) :
    Tix z (State.tellLead s i kept) := by
  unfold State.tellLead
  try dsimp only
  with_reducible
    repeat' (first
      | assumption | apply State.sendCtrl_tix | intro _ _ _ | intro _ _ | intro _ | split)

theorem State.memberCommit_tix {z : State} {s : State} {i : ℕ} (h : Tix z s) :
    Tix z (State.memberCommit s i) := by
  unfold State.memberCommit
  try dsimp only
  with_reducible
    repeat' (first
      | assumption | apply State.commitFiles_tix | apply State.tellLead_tix | apply State.touchLanes_tix | split)

theorem State.countRun_tix {z : State} {s : State} {i : ℕ} (h : Tix z s) :
    Tix z (State.countRun s i) := by
  unfold State.countRun
  with_reducible
    repeat' (first
      | assumption | apply State.bump_tix | apply State.put_tix | split)

theorem State.countBound_tix {z : State} {s : State} {th : ℕ} (h : Tix z s) :
    Tix z (State.countBound s th) := by
  unfold State.countBound
  with_reducible
    repeat' (first
      | assumption | apply State.bump_tix | split)

end Sys2Proof.Machine
end

