-- ==== Sys2Proof/Laws/TixLanes.lean ====
section
/-!
SUPPORT. Operations that leave the packets without a final completion alone: the operations of Machine/Lanes.lean.
-/

set_option linter.all false

namespace Sys2Proof.Machine

theorem State.setLanes_tix {z : State} {s : State} {i : ℕ} {l : List LaneEntry} (h : Tix z s) :
    Tix z (State.setLanes s i l) := by
  unfold State.setLanes
  with_reducible
    repeat' (first
      | assumption | apply State.writeLanes_tix)

theorem State.laneAcceptIn_tix {z : State} {s : State} {i : ℕ} {k : ℕ} (h : Tix z s) :
    Tix z (State.laneAcceptIn s i k) := by
  unfold State.laneAcceptIn
  with_reducible
    repeat' (first
      | assumption | apply State.setLanes_tix | split)

theorem State.takeCounts_tix {z : State} {s : State} {e : LaneEntry} (h : Tix z s) :
    Tix z (State.takeCounts s e) := by
  unfold State.takeCounts
  try dsimp only
  with_reducible
    repeat' (first
      | assumption | apply State.flushSeq_tix | apply State.setFile_tix | split)

theorem State.clearLanes_tix {z : State} {s : State} (h : Tix z s) :
    Tix z (State.clearLanes s) := by
  unfold State.clearLanes
  with_reducible
    repeat' (first
      | assumption | apply State.setLanes_tix | apply Tix.foldl | intro _ _ _ | intro _ _ | intro _)

theorem State.countTenant_tix {z : State} {s : State} (h : Tix z s) :
    Tix z (State.countTenant s) := by
  unfold State.countTenant
  try dsimp only
  with_reducible
    repeat' (first
      | assumption | apply State.put_tix | apply State.putBit_tix | apply Tix.foldl | intro _ _ _ | intro _ _
      | intro _ | split)

theorem State.bindDawn_tix {z : State} {s : State} {id : ℕ} {q : Seq} (h : Tix z s) :
    TixO z (State.bindDawn s id q) := by
  unfold State.bindDawn
  try dsimp only
  with_reducible
    repeat' (first
      | assumption | apply State.modSeq_tix | apply TixO.of | apply TixO.none | intro _ _ _ | intro _ _ | intro _
      | split)

theorem State.laneTableIn_tix {z : State} {s : State} {src : ℕ} {t : LaneTable} (h : Tix z s) :
    Tix z (State.laneTableIn s src t) := by
  unfold State.laneTableIn
  try dsimp only
  with_reducible
    repeat' (first
      | assumption | apply State.sendCtrl_tix | apply State.writeLanes_tix | apply State.takeCounts_tix
      | apply Tix.foldl | intro _ _ _ | intro _ _ | intro _ | split)

theorem State.discardLanes_tix {z : State} {s : State} {l : List ℕ} (h : Tix z s) :
    Tix z (State.discardLanes s l) := by
  unfold State.discardLanes
  try dsimp only
  with_reducible
    repeat' (first
      | assumption | apply State.setLanes_tix | apply State.sendAll_tix | apply Tix.foldl | intro _ _ _ | intro _ _
      | intro _)

theorem State.setRound_tix {z : State} {s : State} {k : ℕ} {r : Round} (h : Tix z s) :
    Tix z (State.setRound s k r) := by
  unfold State.setRound
  assumption

theorem State.fillWeighted_tix {z : State} {s : State} {i : ℕ} {cls : ℕ} {role : ℕ} {x4 : ℕ} {x5 : Filling} (h : Tix z s) :
    Tix z (State.fillWeighted s i cls role x4 x5).1 := by
  induction x4 generalizing s i cls role x5 with
  | zero =>
    unfold State.fillWeighted
    try dsimp only
    with_reducible
      repeat' (first
        | assumption | apply State.setRound_tix | intro _ _ _ | intro _ _ | intro _
        | (refine Tix.fst (by assumption) ?_) | split)
  | succ y ih =>
    unfold State.fillWeighted
    try dsimp only
    with_reducible
      repeat' (first
        | assumption | apply ih | apply State.setRound_tix | intro _ _ _ | intro _ _ | intro _
        | (refine Tix.fst (by assumption) ?_) | split)

theorem State.spend_tix {z : State} {s : State} {t : ℕ} {n : ℕ} (h : Tix z s) :
    Tix z (State.spend s t n) := by
  unfold State.spend
  with_reducible
    repeat' (first
      | assumption | intro _ _ _ | intro _ _ | intro _)

theorem State.fillBudget_tix {z : State} {s : State} {i : ℕ} {cls : ℕ} {role : ℕ} {x4 : ℕ} {x5 : Filling} (h : Tix z s) :
    Tix z (State.fillBudget s i cls role x4 x5).1 := by
  induction x4 generalizing s i cls role x5 with
  | zero =>
    unfold State.fillBudget
    try dsimp only
    with_reducible
      repeat' (first
        | assumption | apply State.spend_tix | intro _ _ _ | intro _ _ | intro _ | (refine Tix.fst (by assumption) ?_)
        | split)
  | succ y ih =>
    unfold State.fillBudget
    try dsimp only
    with_reducible
      repeat' (first
        | assumption | apply ih | apply State.spend_tix | intro _ _ _ | intro _ _ | intro _
        | (refine Tix.fst (by assumption) ?_) | split)

theorem State.fillClass_tix {z : State} {s : State} {i : ℕ} {cls : ℕ} {role : ℕ} {f : Filling} (h : Tix z s) :
    Tix z (State.fillClass s i cls role f).1 := by
  unfold State.fillClass
  with_reducible
    repeat' (first
      | assumption | apply State.fillWeighted_tix | apply State.fillBudget_tix
      | (refine Tix.fst (by assumption) ?_) | split)

theorem State.fillInst_tix {z : State} {s : State} {i : ℕ} (h : Tix z s) :
    Tix z (State.fillInst s i).1 := by
  unfold State.fillInst
  try dsimp only
  with_reducible
    repeat' (first
      | assumption | apply State.fillClass_tix | intro _ _ _ | intro _ _ | intro _
      | (refine Tix.fst (by assumption) ?_) | split)

theorem State.buildLanes_tix {z : State} {s : State} {i : ℕ} (h : Tix z s) :
    Tix z (State.buildLanes s i) := by
  unfold State.buildLanes
  try dsimp only
  with_reducible
    repeat' (first
      | assumption | apply State.sendAll_tix | apply State.fillInst_tix | intro _ _ _ | intro _ _ | intro _
      | (refine Tix.fst (by assumption) ?_) | split)

theorem State.noteShort_tix {z : State} {s : State} (h : Tix z s) :
    Tix z (State.noteShort s) := by
  unfold State.noteShort
  with_reducible
    repeat' (first
      | assumption | apply State.bump_tix | split)

theorem State.decideLanes_tix {z : State} {s : State} (h : Tix z s) :
    Tix z (State.decideLanes s) := by
  unfold State.decideLanes
  try dsimp only
  with_reducible
    repeat' (first
      | assumption | apply State.setLanes_tix | apply State.discardLanes_tix | apply State.putBit_tix
      | apply State.sendAll_tix | apply State.noteShort_tix | apply Tix.foldl | intro _ _ _ | intro _ _ | intro _
      | split)

theorem State.addCredits_tix {z : State} {s : State} (h : Tix z s) :
    Tix z (State.addCredits s) := by
  unfold State.addCredits
  with_reducible
    repeat' (first
      | assumption | intro _ _ _ | intro _ _ | intro _ | split)

theorem State.countSeqs_tix {z : State} {s : State} (h : Tix z s) :
    Tix z (State.countSeqs s) := by
  unfold State.countSeqs
  try dsimp only
  with_reducible
    repeat' (first
      | assumption | apply State.put_tix | intro _ _ _ | intro _ _ | intro _)

theorem State.countWaits_tix {z : State} {s : State} (h : Tix z s) :
    Tix z (State.countWaits s) := by
  unfold State.countWaits
  try dsimp only
  with_reducible
    repeat' (first
      | assumption | apply State.modSeq_tix | apply Tix.foldl | intro _ _ _ | intro _ _ | intro _ | split)

theorem State.countLanes_tix {z : State} {s : State} (h : Tix z s) :
    Tix z (State.countLanes s) := by
  unfold State.countLanes
  try dsimp only
  with_reducible
    repeat' (first
      | assumption | apply State.put_tix | intro _ _ _ | intro _ _ | intro _ | split)

theorem State.laneDiscardIn_tix {z : State} {s : State} {i : ℕ} {l : List LaneEntry} (h : Tix z s) :
    Tix z (State.laneDiscardIn s i l) := by
  unfold State.laneDiscardIn
  with_reducible
    repeat' (first
      | assumption | apply State.setLanes_tix | apply State.takeCounts_tix | apply State.noteShort_tix
      | apply Tix.foldl | intro _ _ _ | intro _ _ | intro _)

theorem State.laneAckIn_tix {z : State} {s : State} {src : ℕ} {i : ℕ} {k : ℕ} {used : List (ℕ × ℕ)} {far : List ℕ} (h : Tix z s) :
    Tix z (State.laneAckIn s src i k used far) := by
  unfold State.laneAckIn
  try dsimp only
  with_reducible
    repeat' (first
      | assumption | apply Tix.foldl | intro _ _ _ | intro _ _ | intro _ | split)

end Sys2Proof.Machine
end

