-- ==== Sys2Proof/Laws/TixAdapters.lean ====
section
/-!
SUPPORT. Operations that leave the packets without a final completion alone: the operations of Machine/Adapters.lean.
-/

set_option linter.all false

namespace Sys2Proof.Machine

theorem State.dropSlices_tix {z : State} {s : State} {i : ℕ} {id : ℕ} {ver : ℕ} (h : Tix z s) :
    Tix z (State.dropSlices s i id ver) := by
  unfold State.dropSlices
  try dsimp only
  with_reducible
    repeat' (first
      | assumption | apply State.ownFree_tix | apply Tix.foldl | intro _ _ _ | intro _ _ | intro _)

theorem State.dropVersion_tix {z : State} {s : State} {i : ℕ} {id : ℕ} {ver : ℕ} (h : Tix z s) :
    Tix z (State.dropVersion s i id ver) := by
  unfold State.dropVersion
  try dsimp only
  with_reducible
    repeat' (first
      | assumption | apply State.dropSlices_tix | intro _ _ _ | intro _ _ | intro _)

theorem State.modAdapter_tix {z : State} {s : State} {i : ℕ} {id : ℕ} {ver : ℕ} {f : Adapter → Adapter} (h : Tix z s) :
    Tix z (State.modAdapter s i id ver f) := by
  unfold State.modAdapter
  with_reducible
    repeat' (first
      | assumption | intro _ _ _ | intro _ _ | intro _ | split)

theorem State.writeSlice_tix {z : State} {s : State} {x : Slice} (h : Tix z s) :
    Tix z (State.writeSlice s x) := by
  unfold State.writeSlice
  with_reducible
    repeat' (first
      | assumption | apply State.write_tix)

theorem State.placeSlices_tix {z : State} {s : State} {i : ℕ} {id : ℕ} {ver : ℕ} {b : Bytes} {dir : List Reserve} (h : Tix z s) :
    TixO z (State.placeSlices s i id ver b dir) := by
  unfold State.placeSlices
  try dsimp only
  with_reducible
    repeat' (first
      | assumption | apply State.ownAlloc_tix | apply State.writeSlice_tix | apply TixO.of | apply TixO.none
      | apply TixO.tryAll | apply TixO.mapPair | apply TixO.mapState | apply TixO.map | apply TixP.mapPair
      | apply TixP.map | intro _ _ _ | intro _ _ | intro _ | (refine Tix.somePair (by assumption) ?_)
      | (dsimp only [Tix]; refine Tix.parts (Tix.somePair (by assumption) ?_)) | split)

theorem State.tellVersion_tix {z : State} {s : State} {i : ℕ} {id : ℕ} {ver : ℕ} (h : Tix z s) :
    Tix z (State.tellVersion s i id ver) := by
  unfold State.tellVersion
  try dsimp only
  with_reducible
    repeat' (first
      | assumption | apply State.sendAll_tix)

theorem State.freeVersion_tix {z : State} {s : State} {i : ℕ} {id : ℕ} {ver : ℕ} (h : Tix z s) :
    Tix z (State.freeVersion s i id ver) := by
  unfold State.freeVersion
  with_reducible
    repeat' (first
      | assumption | apply State.tellVersion_tix | apply State.dropVersion_tix)

theorem State.freeDrained_tix {z : State} {s : State} (h : Tix z s) :
    Tix z (State.freeDrained s) := by
  unfold State.freeDrained
  with_reducible
    repeat' (first
      | assumption | apply State.freeVersion_tix | apply Tix.foldl | intro _ _ _ | intro _ _ | intro _ | split)

theorem State.switchVersions_tix {z : State} {s : State} (h : Tix z s) :
    Tix z (State.switchVersions s) := by
  unfold State.switchVersions
  with_reducible
    repeat' (first
      | assumption | apply Tix.foldl | intro _ _ _ | intro _ _ | intro _ | split)

end Sys2Proof.Machine
end

