-- ==== Sys2Proof/Laws/TixAdmission.lean ====
section
/-!
SUPPORT. Operations that leave the packets without a final completion alone: the operations of Machine/Admission.lean.
-/

set_option linter.all false

namespace Sys2Proof.Machine

theorem State.placeParts_tix {z : State} {s : State} {dst : ℕ} {b : Bytes} (h : Tix z s) :
    Tix z (State.placeParts s dst b) := by
  unfold State.placeParts
  with_reducible
    repeat' (first
      | assumption | apply State.write_tix | apply Tix.foldl | intro _ _ _ | intro _ _ | intro _)

theorem State.tellMembers_tix {z : State} {s : State} {i : ℕ} {p : Packet} {pay : Option Bytes} (h : Tix z s) :
    Tix z (State.tellMembers s i p pay) := by
  unfold State.tellMembers
  with_reducible
    repeat' (first
      | assumption | apply State.sendAll_tix | intro _ _ _ | intro _ _ | intro _)

theorem State.nextStart_tix {z : State} {s : State} (h : Tix z s) :
    Tix z (State.nextStart s).1 := by
  unfold State.nextStart
  with_reducible
    repeat' (first
      | assumption | apply State.draw_tix | (refine Tix.fst (by assumption) ?_) | split)

theorem State.keepBitmap_tix {z : State} {s : State} {id : ℕ} {b : Option Bytes} (h : Tix z s) :
    Tix z (State.keepBitmap s id b) := by
  unfold State.keepBitmap
  try dsimp only
  with_reducible
    repeat' (first
      | assumption | apply State.write_tix | apply State.ownFree_tix | apply State.setFile_tix
      | apply State.ownAlloc_tix | (refine Tix.somePair (by assumption) ?_)
      | (dsimp only [Tix]; refine Tix.parts (Tix.somePair (by assumption) ?_)) | split)

theorem State.reserveFar_tix {z : State} {s : State} {x : Inst} {tenant : ℕ} {maxLen : ℕ} {len : ℕ} (h : Tix z s) :
    Tix z (State.reserveFar s x tenant maxLen len) := by
  unfold State.reserveFar
  with_reducible
    repeat' (first
      | assumption | apply Tix.foldl | intro _ _ _ | intro _ _ | intro _)

theorem State.openMember_tix {z : State} {s : State} {id : ℕ} {p : Packet} (h : Tix z s) :
    TixO z (State.openMember s id p) := by
  unfold State.openMember
  try dsimp only
  with_reducible
    repeat' (first
      | assumption | apply State.openFile_tix | apply TixO.of | apply TixO.none | apply TixO.mapPair
      | apply TixO.mapState | apply TixO.map | apply TixP.mapPair | apply TixP.map | intro _ _ _ | intro _ _
      | intro _ | (refine Tix.ofSome (by assumption) ?_)
      | (dsimp only [Tix]; refine Tix.parts (Tix.ofSome (by assumption) ?_)) | split)

theorem State.applyTold_tix {z : State} {s : State} (h : Tix z s) :
    Tix z (State.applyTold s) := by
  unfold State.applyTold
  with_reducible
    repeat' (first
      | assumption | apply State.dropHandle_tix | apply State.closeFileOf_tix | apply Tix.foldl | intro _ _ _
      | intro _ _ | intro _ | split)

theorem State.releaseHandle_tix {z : State} {s : State} {h0 : ℕ} {told : optParam Bool false} (h : Tix z s) :
    Tix z (State.releaseHandle s h0 told) := by
  unfold State.releaseHandle
  try dsimp only
  with_reducible
    repeat' (first
      | assumption | apply State.tellMembers_tix | apply State.dropHandle_tix | split)

theorem State.newHandle_tix {z : State} {s : State} {h0 : Handle} (h : Tix z s) :
    TixP z (State.newHandle s h0) := by
  unfold State.newHandle
  try dsimp only
  with_reducible
    repeat' (first
      | assumption | apply TixP.of | apply TixP.none | apply TixO.mapPair | apply TixO.mapState | apply TixO.map
      | apply TixP.mapPair | apply TixP.map | intro _ _ _ | intro _ _ | intro _
      | (refine Tix.fst (by assumption) ?_))

theorem State.syncFiles_tix {z : State} {s : State} (h : Tix z s) :
    Tix z (State.syncFiles s) := by
  unfold State.syncFiles
  with_reducible
    repeat' (first
      | assumption | apply State.setFile_tix | apply Tix.foldl | intro _ _ _ | intro _ _ | intro _ | split)

theorem State.importHere_tix {z : State} {s : State} {i : ℕ} {h0 : ℕ} {tenant : ℕ} {tokens : ℕ} {b : Bytes} (h : Tix z s) :
    TixO z (State.importHere s i h0 tenant tokens b) := by
  unfold State.importHere
  try dsimp only
  with_reducible
    repeat' (first
      | assumption | apply State.privateSlot_tix | apply State.newTables_tix | apply State.setFile_tix
      | apply State.putPlot_tix | apply TixO.of | apply TixO.none | apply Tix.foldl | apply Tix.foldlPair
      | apply TixO.tryAll | apply TixO.mapPair | apply TixO.mapState | apply TixO.map | apply TixP.mapPair
      | apply TixP.map | apply TixO.foldl | apply TixP.foldl | intro _ _ _ | intro _ _ | intro _
      | (refine Tix.fst (by assumption) ?_) | (refine Tix.somePair (by assumption) ?_)
      | (dsimp only [Tix]; refine Tix.parts (Tix.somePair (by assumption) ?_)) | split)

theorem State.undefer_tix {z : State} {s : State} {no : ℕ} (h : Tix z s) :
    Tix z (State.undefer s no) := by
  unfold State.undefer
  with_reducible
    repeat' (first
      | assumption | intro _ _ _ | intro _ _ | intro _)

theorem State.syncSeqs_tix {z : State} {s : State} (h : Tix z s) :
    Tix z (State.syncSeqs s) := by
  unfold State.syncSeqs
  with_reducible
    repeat' (first
      | assumption | apply State.modSeq_tix | apply Tix.foldl | intro _ _ _ | intro _ _ | intro _ | split)

theorem State.markCancelled_tix {z : State} {s : State} (h : Tix z s) :
    Tix z (State.markCancelled s) := by
  unfold State.markCancelled
  with_reducible
    repeat' (first
      | assumption | apply State.modSeq_tix | apply Tix.foldl | intro _ _ _ | intro _ _ | intro _ | split)

end Sys2Proof.Machine
end

