-- ==== Sys2Proof/Laws/TixFetching.lean ====
section
/-!
SUPPORT. Operations that leave the packets without a final completion alone: the operations of Machine/Fetching.lean.
-/

set_option linter.all false

namespace Sys2Proof.Machine

theorem State.fetchRing_tix {z : State} {s : State} {i : ℕ} (h : Tix z s) :
    Tix z (State.fetchRing s i) := by
  unfold State.fetchRing
  try dsimp only
  with_reducible
    repeat' (first
      | assumption | apply State.emit_tix | apply State.noteHold_tix | apply Tix.foldl | intro _ _ _ | intro _ _
      | intro _ | split)

theorem State.resumeRing_tix {z : State} {s : State} {i : ℕ} (h : Tix z s) :
    Tix z (State.resumeRing s i) := by
  unfold State.resumeRing
  with_reducible
    repeat' (first
      | assumption | apply State.drainCq_tix | apply State.fetchRing_tix)

theorem State.dropFetches_tix {z : State} {s : State} {i : ℕ} (h : Tix z s) :
    Tix z (State.dropFetches s i) := by
  unfold State.dropFetches
  with_reducible
    repeat' (first
      | assumption | intro _ _ _ | intro _ _ | intro _)

end Sys2Proof.Machine
end

