-- ==== Sys2Proof/Laws/TixRegWrite.lean ====
section
/-!
SUPPORT. Operations that leave the packets without a final completion alone: the operations of Machine/RegWrite.lean.
-/

set_option linter.all false

namespace Sys2Proof.Machine

theorem State.writeField_tix {z : State} {s : State} {v : ℕ} {m : ℕ} {f : Field} (h : Tix z s) :
    Tix z (State.writeField s v m f) := by
  unfold State.writeField
  try dsimp only
  with_reducible
    repeat' (first
      | assumption | apply State.put_tix | split)

theorem State.selectEvent_tix {z : State} {s : State} {q : ℕ} (h : Tix z s) :
    Tix z (State.selectEvent s q) := by
  unfold State.selectEvent
  try dsimp only
  with_reducible
    repeat' (first
      | assumption | apply State.draw_tix | apply State.put_tix | apply Tix.foldl | intro _ _ _ | intro _ _
      | intro _ | split)

theorem State.startRing_tix {z : State} {s : State} {k : ℕ} {i : ℕ} (h : Tix z s) :
    Tix z (State.startRing s k i) := by
  unfold State.startRing
  try dsimp only
  with_reducible
    repeat' (first
      | assumption | apply State.resumeRing_tix | apply State.put_tix | split)

theorem State.ringCtrl_tix {z : State} {s : State} {k : ℕ} {i : ℕ} {v : ℕ} {m : ℕ} (h : Tix z s) :
    Tix z (State.ringCtrl s k i v m) := by
  unfold State.ringCtrl
  try dsimp only
  with_reducible
    repeat' (first
      | assumption | apply State.dropFetches_tix | apply State.writeField_tix | apply State.startRing_tix
      | apply Tix.foldl | intro _ _ _ | intro _ _ | intro _ | split)

theorem State.clearHealth_tix {z : State} {s : State} {i : ℕ} (h : Tix z s) :
    Tix z (State.clearHealth s i) := by
  unfold State.clearHealth
  with_reducible
    repeat' (first
      | assumption | apply State.put_tix | split)

theorem State.reopen_tix {z : State} {s : State} (h : Tix z s) :
    Tix z (State.reopen s) := by
  unfold State.reopen
  try dsimp only
  with_reducible
    repeat' (first
      | assumption | apply State.resumeRing_tix | apply State.emit_tix | apply Tix.foldl | intro _ _ _ | intro _ _
      | intro _ | split)

theorem State.writeReg_tix {z : State} {s : State} {off : ℕ} {v : ℕ} {m : ℕ} (h : Tix z s) :
    Tix z (State.writeReg s off v m) := by
  unfold State.writeReg
  try dsimp only
  with_reducible
    repeat' (first
      | assumption | apply State.writeMode_tix | apply State.selectEvent_tix | apply State.requestSpare_tix
      | apply State.settleLevels_tix | apply State.atomCommand_tix | apply State.segPower_tix
      | apply State.directGo_tix | apply State.ringCtrl_tix | apply State.writeField_tix
      | apply State.clearHealth_tix | apply State.reopen_tix | apply State.countTenant_tix | apply Tix.foldl
      | intro _ _ _ | intro _ _ | intro _ | split)

theorem State.hostWrites_tix {z : State} {s : State} {size : ℕ} {off : ℕ} {v : ℕ} (h : Tix z s) :
    Tix z (State.hostWrites s size off v) := by
  unfold State.hostWrites
  with_reducible
    repeat' (first
      | assumption | apply State.bump_tix | apply State.selectEvent_tix | apply State.violation_tix
      | apply State.writeReg_tix | split)

end Sys2Proof.Machine
end

