-- ==== Sys2Proof/Laws/TixFlash.lean ====
section
/-!
SUPPORT. Operations that leave the packets without a final completion alone: the operations of Machine/Flash.lean.
-/

set_option linter.all false

namespace Sys2Proof.Machine

theorem State.flashStatus_tix {z : State} {s : State} (h : Tix z s) :
    Tix z (State.flashStatus s) := by
  unfold State.flashStatus
  try dsimp only
  with_reducible
    repeat' (first
      | assumption | apply State.put_tix)

theorem State.newMap_tix {z : State} {s : State} {m : Mgt} (h : Tix z s) :
    Tix z (State.newMap s m) := by
  unfold State.newMap
  try dsimp only
  with_reducible
    repeat' (first
      | assumption | apply State.flashStatus_tix)

theorem State.moveSector_tix {z : State} {s : State} {l : ℕ} {retire : Bool} (h : Tix z s) :
    Tix z (State.moveSector s l retire) := by
  unfold State.moveSector
  try dsimp only
  with_reducible
    repeat' (first
      | assumption | apply State.draw_tix | apply State.newMap_tix | split)

theorem State.eraseSector_tix {z : State} {s : State} {l : ℕ} (h : Tix z s) :
    Tix z (State.eraseSector s l) := by
  unfold State.eraseSector
  try dsimp only
  with_reducible
    repeat' (first
      | assumption | apply State.moveSector_tix | split)

theorem State.writeEvent_tix {z : State} {s : State} {fails : Bool} (h : Tix z s) :
    Tix z (State.writeEvent s fails) := by
  unfold State.writeEvent
  try dsimp only
  with_reducible
    repeat' (first
      | assumption | apply State.moveSector_tix | apply State.put_tix | apply State.eraseSector_tix | intro _ _ _
      | intro _ _ | intro _ | split)

theorem State.findNewest_tix {z : State} {s : State} (h : Tix z s) :
    Tix z (State.findNewest s) := by
  unfold State.findNewest
  with_reducible
    repeat' (first
      | assumption | apply State.put_tix | split)

theorem State.refreshFlash_tix {z : State} {s : State} {weak : List ℕ} (h : Tix z s) :
    Tix z (State.refreshFlash s weak) := by
  unfold State.refreshFlash
  try dsimp only
  with_reducible
    repeat' (first
      | assumption | apply State.moveSector_tix | apply Tix.foldl | intro _ _ _ | intro _ _ | intro _)

end Sys2Proof.Machine
end

