-- ==== Sys2Proof/Laws/TixPlaces.lean ====
section
/-!
SUPPORT. Operations that leave the packets without a final completion alone: the operations of Machine/Places.lean.
-/

set_option linter.all false

namespace Sys2Proof.Machine

theorem State.markDoubled_tix {z : State} {s : State} {c : Places} {id : ℕ} (h : Tix z s) :
    Tix z (State.markDoubled s c id) := by
  unfold State.markDoubled
  try dsimp only
  with_reducible
    repeat' (first
      | assumption | apply State.putBit_tix | apply Tix.foldl | intro _ _ _ | intro _ _ | intro _ | split)

theorem State.placed_tix {z : State} {s : State} {c : Places} (h : Tix z s) :
    Tix z (State.placed s c) := by
  unfold State.placed
  try dsimp only
  with_reducible
    repeat' (first
      | assumption | apply State.put_tix)

theorem State.viaPlaces_tix {z : State} {s : State} {c : Places} {act : State → State} (h : Tix z s) (h1 : ∀ y0, Tix z y0 → Tix z (act y0)) :
    Tix z (State.viaPlaces s c act) := by
  unfold State.viaPlaces
  try dsimp only
  with_reducible
    repeat' (first
      | assumption | apply State.put_tix | apply State.placed_tix | apply h1)

end Sys2Proof.Machine
end

