-- ==== Sys2Proof/Laws/TixFabric.lean ====
section
/-!
SUPPORT. Operations that leave the packets without a final completion alone: the operations of Machine/Fabric.lean.
-/

set_option linter.all false

namespace Sys2Proof.Machine

theorem State.refreshLinks_tix {z : State} {s : State} (h : Tix z s) :
    Tix z (State.refreshLinks s) := by
  unfold State.refreshLinks
  try dsimp only
  with_reducible
    repeat' (first
      | assumption | apply State.putBit_tix | intro _ _ _ | intro _ _ | intro _)

theorem State.poisonPending_tix {z : State} {s : State} {p : ℕ} (h : Tix z s) :
    Tix z (State.poisonPending s p) := by
  unfold State.poisonPending
  try dsimp only
  with_reducible
    repeat' (first
      | assumption | apply State.streamIn_tix | apply Tix.foldl | intro _ _ _ | intro _ _ | intro _ | split)

theorem State.leaveUp_tix {z : State} {s : State} {p : ℕ} {st : ℕ} (h : Tix z s) :
    Tix z (State.leaveUp s p st) := by
  unfold State.leaveUp
  try dsimp only
  with_reducible
    repeat' (first
      | assumption | apply State.modLink_tix | apply State.bump_tix | apply State.refreshLinks_tix
      | apply State.collectives_tix | apply State.put_tix | apply State.poisonPending_tix | apply State.putBit_tix
      | intro _ _ _ | intro _ _ | intro _ | split)

theorem State.enterTrain_tix {z : State} {s : State} {p : ℕ} (h : Tix z s) :
    Tix z (State.enterTrain s p) := by
  unfold State.enterTrain
  with_reducible
    repeat' (first
      | assumption | apply State.modLink_tix | apply State.refreshLinks_tix | apply State.put_tix | intro _ _ _
      | intro _ _ | intro _)

theorem State.relink_tix {z : State} {s : State} {p : ℕ} {wasEnabled : Bool} (h : Tix z s) :
    Tix z (State.relink s p wasEnabled) := by
  unfold State.relink
  try dsimp only
  with_reducible
    repeat' (first
      | assumption | apply State.modLink_tix | apply State.leaveUp_tix | apply State.refreshLinks_tix | apply State.put_tix
      | apply State.enterTrain_tix | split)

theorem State.resumeReplay_tix {z : State} {s : State} (h : Tix z s) :
    Tix z (State.resumeReplay s) := by
  unfold State.resumeReplay
  try dsimp only
  with_reducible
    repeat' (first
      | assumption | apply State.modLink_tix | apply State.transmit_tix | apply Tix.foldl | intro _ _ _ | intro _ _
      | intro _ | split)

theorem State.deferReplay_tix {z : State} {s : State} (h : Tix z s) :
    Tix z (State.deferReplay s) := by
  unfold State.deferReplay
  try dsimp only
  with_reducible
    repeat' (first
      | assumption | apply State.modLink_tix | apply State.bump_tix | apply Tix.foldl | intro _ _ _ | intro _ _
      | intro _ | split)

theorem State.receive_tix {z : State} {s : State} {p : ℕ} {f : Frame} {fixed : ℕ} {act : State → State} (h : Tix z s) (h1 : ∀ y0, Tix z y0 → Tix z (act y0)) :
    Tix z (State.receive s p f fixed act) := by
  unfold State.receive
  try dsimp only
  with_reducible
    repeat' (first
      | assumption | apply State.modLink_tix | apply State.collectives_tix | apply State.acknowledge_tix
      | apply State.wrapAdd_tix | apply h1 | intro _ _ _ | intro _ _ | intro _ | split)

theorem State.discardFrame_tix {z : State} {s : State} {p : ℕ} (h : Tix z s) :
    Tix z (State.discardFrame s p) := by
  unfold State.discardFrame
  with_reducible
    repeat' (first
      | assumption | apply State.sendNak_tix | split)

theorem State.dataIn_tix {z : State} {s : State} {p : ℕ} {f : Frame} {tagOk : Bool} (h : Tix z s) :
    Tix z (State.dataIn s p f tagOk) := by
  unfold State.dataIn
  try dsimp only
  with_reducible
    repeat' (first
      | assumption | apply State.modLink_tix | apply State.bump_tix | apply State.streamIn_tix | intro _ _ _
      | intro _ _ | intro _ | split)

theorem State.dataFrame_tix {z : State} {s : State} {port : ℕ} {f : Frame} {fixed : ℕ} {full : Bool} {tagOk : Bool} (h : Tix z s) :
    Tix z (State.dataFrame s port f fixed full tagOk) := by
  unfold State.dataFrame
  with_reducible
    repeat' (first
      | assumption | apply State.bump_tix | apply State.receive_tix | apply State.discardFrame_tix
      | apply State.dataIn_tix | intro _ _ _ | intro _ _ | intro _ | split)

theorem State.answerFenced_tix {z : State} {s : State} {port : Option ℕ} {dev : ℕ} {epoch : ℕ} {serial : ℕ} (h : Tix z s) :
    Tix z (State.answerFenced s port dev epoch serial) := by
  unfold State.answerFenced
  try dsimp only
  with_reducible
    repeat' (first
      | assumption | apply State.sendPort_tix | split)

theorem State.startIn_tix {z : State} {s : State} {p : ℕ} {f : Frame} (h : Tix z s) :
    Tix z (State.startIn s p f) := by
  unfold State.startIn
  try dsimp only
  with_reducible
    repeat' (first
      | assumption | apply State.modLink_tix | apply State.bump_tix | apply State.deliver_tix
      | apply State.answerFenced_tix | apply Tix.foldl | intro _ _ _ | intro _ _ | intro _ | split)

theorem State.ctrlIn_tix {z : State} {s : State} {p : ℕ} {frags : ℕ} {m : CtrlMsg} {act : State → State} (h : Tix z s) (h1 : ∀ y0, Tix z y0 → Tix z (act y0)) :
    Tix z (State.ctrlIn s p frags m act) := by
  unfold State.ctrlIn
  try dsimp only
  with_reducible
    repeat' (first
      | assumption | apply State.modLink_tix | apply State.sendFragments_tix | apply State.sendPort_tix
      | apply State.answerFenced_tix | apply h1 | intro _ _ _ | intro _ _ | intro _ | split)

theorem State.replay_tix {z : State} {s : State} {p : ℕ} (h : Tix z s) :
    Tix z (State.replay s p) := by
  unfold State.replay
  try dsimp only
  with_reducible
    repeat' (first
      | assumption | apply State.leaveUp_tix | apply State.modLink_tix | apply State.bump_tix
      | apply State.transmit_tix | apply Tix.foldl | intro _ _ _ | intro _ _ | intro _ | split)

theorem State.ackIn_tix {z : State} {s : State} {src : ℕ} {msgId : ℕ} (h : Tix z s) :
    Tix z (State.ackIn s src msgId) := by
  unfold State.ackIn
  try dsimp only
  with_reducible
    repeat' (first
      | assumption | intro _ _ _ | intro _ _ | intro _ | split)

end Sys2Proof.Machine
end

