-- ==== Sys2Proof/Laws/TixStack.lean ====
section
/-!
SUPPORT. Operations that leave the packets without a final completion alone: the operations of Machine/Stack.lean.
-/

set_option linter.all false

namespace Sys2Proof.Machine

theorem State.channelLost_tix {z : State} {s : State} {n : ℕ} {pc : ℕ} (h : Tix z s) :
    Tix z (State.channelLost s n pc) := by
  unfold State.channelLost
  try dsimp only
  with_reducible
    repeat' (first
      | assumption | apply State.raise_tix | intro _ _ _ | intro _ _ | intro _ | split)

theorem State.markLane_tix {z : State} {s : State} {n : ℕ} {pc : ℕ} {lane : ℕ} (h : Tix z s) :
    Tix z (State.markLane s n pc lane) := by
  unfold State.markLane
  try dsimp only
  with_reducible
    repeat' (first
      | assumption | apply State.bump_tix | apply State.raise_tix | apply State.modStack_tix | intro _ _ _
      | intro _ _ | intro _ | split)

theorem State.decodeWord_tix {z : State} {s : State} {n : ℕ} {pc : ℕ} {addr : ℕ} {symbols : List ℕ} (h : Tix z s) :
    Tix z (State.decodeWord s n pc addr symbols) := by
  unfold State.decodeWord
  try dsimp only
  with_reducible
    repeat' (first
      | assumption | apply State.bump_tix | apply State.poisonRange_tix | apply State.channelLost_tix
      | apply State.zero_tix | apply State.raise_tix | apply State.put_tix | apply State.markLane_tix
      | apply State.putBit_tix | apply State.modStack_tix | apply Tix.foldl | intro _ _ _ | intro _ _ | intro _
      | split)

theorem State.nbuRecord_tix {z : State} {s : State} {n : ℕ} {u : ℕ} {cause : ℕ} {atom : ℕ} {idx : ℕ} (h : Tix z s) :
    Tix z (State.nbuRecord s n u cause atom idx) := by
  unfold State.nbuRecord
  try dsimp only
  with_reducible
    repeat' (first
      | assumption | apply State.put_tix | apply State.putBit_tix | split)

theorem State.setUnit_tix {z : State} {s : State} {n : ℕ} {u : ℕ} {x : Option NbUnit} (h : Tix z s) :
    Tix z (State.setUnit s n u x) := by
  unfold State.setUnit
  try dsimp only
  with_reducible
    repeat' (first
      | assumption | apply State.put_tix | apply State.modStack_tix | intro _ _ _ | intro _ _ | intro _)

theorem State.nbuEnd_tix {z : State} {s : State} {n : ℕ} {h0 : Queued} {e : Event} {st : Status} (h : Tix z s) :
    Tix z (State.nbuEnd s n h0 e st) := by
  unfold State.nbuEnd
  try dsimp only
  with_reducible
    repeat' (first
      | assumption | apply State.bump_tix | apply State.raise_tix | apply State.setUnit_tix
      | apply State.failHead_tix | apply Tix.foldl | intro _ _ _ | intro _ _ | intro _)

theorem State.nbuFail_tix {z : State} {s : State} {n : ℕ} {u : ℕ} {cause : ℕ} {atom : ℕ} {h0 : Queued} (h : Tix z s) :
    Tix z (State.nbuFail s n u cause atom h0) := by
  unfold State.nbuFail
  with_reducible
    repeat' (first
      | assumption | apply State.nbuRecord_tix | apply State.nbuEnd_tix | split)

theorem State.nbuDone_tix {z : State} {s : State} {n : ℕ} {h0 : Queued} (h : Tix z s) :
    Tix z (State.nbuDone s n h0) := by
  unfold State.nbuDone
  with_reducible
    repeat' (first
      | assumption | apply State.complete_tix | intro _ _ _ | intro _ _ | intro _ | split)

theorem State.unitNext_tix {z : State} {s : State} {n : ℕ} {u : ℕ} {x : NbUnit} {h0 : Queued} (h : Tix z s) :
    Tix z (State.unitNext s n u x h0) := by
  unfold State.unitNext
  with_reducible
    repeat' (first
      | assumption | apply State.nbuDone_tix | apply State.setUnit_tix | split)

theorem State.nbuReturn_tix {z : State} {s : State} {n : ℕ} {u : ℕ} {x : NbUnit} {slot : Slot} {atom : Bytes} {crcFails : ℕ} {h0 : Queued} (h : Tix z s) :
    Tix z (State.nbuReturn s n u x slot atom crcFails h0) := by
  unfold State.nbuReturn
  try dsimp only
  with_reducible
    repeat' (first
      | assumption | apply State.nbuFail_tix | apply State.bump_tix | apply State.unitNext_tix
      | apply State.write_tix | apply State.gate_tix | apply State.nbuEnd_tix
      | (refine Tix.fst (by assumption) ?_) | split)

theorem State.returnCredit_tix {z : State} {s : State} {data : Bool} (h : Tix z s) :
    Tix z (State.returnCredit s data) := by
  unfold State.returnCredit
  with_reducible
    repeat' (first
      | assumption | split)

theorem State.memServed_tix {z : State} {s : State} {write : Bool} {arrived : ℕ} (h : Tix z s) :
    Tix z (State.memServed s write arrived) := by
  unfold State.memServed
  try dsimp only
  with_reducible
    repeat' (first
      | assumption | apply State.bump_tix | apply State.put_tix | apply State.wrapAdd_tix | split)

theorem State.writeServed_tix {z : State} {s : State} {tag : ℕ} {arrived : ℕ} (h : Tix z s) :
    Tix z (State.writeServed s tag arrived) := by
  unfold State.writeServed
  with_reducible
    repeat' (first
      | assumption | apply State.returnCredit_tix | apply State.memServed_tix | apply State.emit_tix)

theorem State.hostRead_tix {z : State} {s : State} {n : ℕ} {pc : ℕ} {line : ℕ} {tag : ℕ} {a : StackAcc} (h : Tix z s) :
    Tix z (State.hostRead s n pc line tag a) := by
  unfold State.hostRead
  try dsimp only
  with_reducible
    repeat' (first
      | assumption | apply State.returnCredit_tix | apply State.passLine_tix | apply State.violation_tix
      | apply State.decodeWord_tix | apply State.memServed_tix | apply State.emit_tix | split)

theorem State.writeLine_tix {z : State} {s : State} {line : ℕ} {bs : Bytes} {enable : ℕ} (h : Tix z s) :
    Tix z (State.writeLine s line bs enable) := by
  unfold State.writeLine
  try dsimp only
  with_reducible
    repeat' (first
      | assumption | apply State.poisonRange_tix | apply State.write_tix | split)

theorem State.hostWriteLine_tix {z : State} {s : State} {line : ℕ} {bs : Bytes} {enable : ℕ} (h : Tix z s) :
    Tix z (State.hostWriteLine s line bs enable) := by
  unfold State.hostWriteLine
  with_reducible
    repeat' (first
      | assumption | apply State.passLine_tix | apply State.violation_tix | apply State.writeLine_tix | split)

theorem State.perform_tix {z : State} {s : State} {n : ℕ} {pc : ℕ} {a : StackAcc} (h : Tix z s) :
    Tix z (State.perform s n pc a) := by
  unfold State.perform
  try dsimp only
  with_reducible
    repeat' (first
      | assumption | apply State.writeServed_tix | apply State.hostRead_tix | apply State.put_tix
      | apply State.hostWriteLine_tix | apply State.decodeWord_tix | apply State.writeLine_tix | split)

theorem State.stackArrive_tix {z : State} {s : State} {n : ℕ} {a : StackAcc} (h : Tix z s) :
    Tix z (State.stackArrive s n a) := by
  unfold State.stackArrive
  try dsimp only
  with_reducible
    repeat' (first
      | assumption | apply State.writeServed_tix | apply State.perform_tix | apply State.modStack_tix | intro _ _ _
      | intro _ _ | intro _ | split)

theorem State.setBal_tix {z : State} {s : State} {n : ℕ} {pc : ℕ} {b : ℤ} (h : Tix z s) :
    Tix z (State.setBal s n pc b) := by
  unfold State.setBal
  with_reducible
    repeat' (first
      | assumption | apply State.modStack_tix | intro _ _ _ | intro _ _ | intro _)

theorem State.refreshes_tix {z : State} {s : State} {n : ℕ} {pc : ℕ} (h : Tix z s) :
    Tix z (State.refreshes s n pc) := by
  unfold State.refreshes
  try dsimp only
  with_reducible
    repeat' (first
      | assumption | apply State.setBal_tix | apply State.wrapAdd_tix | apply State.modStack_tix | intro _ _ _
      | intro _ _ | intro _ | split)

theorem State.refreshInterval_tix {z : State} {s : State} {n : ℕ} {pc : ℕ} (h : Tix z s) :
    Tix z (State.refreshInterval s n pc) := by
  unfold State.refreshInterval
  try dsimp only
  with_reducible
    repeat' (first
      | assumption | apply State.refreshes_tix | apply State.setBal_tix | apply State.modStack_tix | intro _ _ _
      | intro _ _ | intro _ | split)

theorem State.nbuStart_tix {z : State} {s : State} {n : ℕ} {mem : MemReport} (h : Tix z s) :
    Tix z (State.nbuStart s n mem) := by
  unfold State.nbuStart
  try dsimp only
  with_reducible
    repeat' (first
      | assumption | apply State.nbuFail_tix | apply State.complete_tix | apply State.gate_tix
      | apply State.setUnit_tix | apply State.memReport_tix | apply State.nbuEnd_tix | apply State.setHead_tix
      | apply Tix.foldl | intro _ _ _ | intro _ _ | intro _ | (refine Tix.fst (by assumption) ?_) | split)

theorem State.fenceUnits_tix {z : State} {s : State} {n : ℕ} (h : Tix z s) :
    Tix z (State.fenceUnits s n) := by
  unfold State.fenceUnits
  try dsimp only
  with_reducible
    repeat' (first
      | assumption | apply State.raise_tix | apply State.put_tix | apply State.modStack_tix | apply Tix.foldl
      | intro _ _ _ | intro _ _ | intro _ | split)

theorem State.servePc_tix {z : State} {s : State} {n : ℕ} {pc : ℕ} (h : Tix z s) :
    Tix z (State.servePc s n pc) := by
  unfold State.servePc
  try dsimp only
  with_reducible
    repeat' (first
      | assumption | apply State.bump_tix | apply State.perform_tix | apply State.modStack_tix | apply Tix.foldl
      | intro _ _ _ | intro _ _ | intro _)

theorem State.setNbSlot_tix {z : State} {s : State} {n : ℕ} {u : ℕ} {k : ℕ} {x : Slot} (h : Tix z s) :
    Tix z (State.setNbSlot s n u k x) := by
  unfold State.setNbSlot
  with_reducible
    repeat' (first
      | assumption | apply State.modStack_tix | intro _ _ _ | intro _ _ | intro _)

theorem State.atomEnd_tix {z : State} {s : State} {n : ℕ} {u : ℕ} {x : NbUnit} {atom : Bytes} {crcFails : ℕ} {h0 : Queued} (h : Tix z s) :
    Tix z (State.atomEnd s n u x atom crcFails h0) := by
  unfold State.atomEnd
  try dsimp only
  with_reducible
    repeat' (first
      | assumption | apply State.unitNext_tix | apply State.setUnit_tix | apply State.nbuReturn_tix
      | apply State.modStack_tix | intro _ _ _ | intro _ _ | intro _ | split)

theorem State.nbuAtom_tix {z : State} {s : State} {n : ℕ} {u : ℕ} {rep : NbuReport} (h : Tix z s) :
    Tix z (State.nbuAtom s n u rep) := by
  unfold State.nbuAtom
  try dsimp only
  with_reducible
    repeat' (first
      | assumption | apply State.nbuFail_tix | apply State.bump_tix | apply State.setNbSlot_tix
      | apply State.setUnit_tix | apply State.atomEnd_tix | apply State.wrapAdd_tix | apply State.modStack_tix
      | intro _ _ _ | intro _ _ | intro _ | split)

theorem State.boundary_tix {z : State} {s : State} {n : ℕ} {pc : ℕ} (h : Tix z s) :
    Tix z (State.boundary s n pc) := by
  unfold State.boundary
  try dsimp only
  with_reducible
    repeat' (first
      | assumption | apply State.servePc_tix | apply State.refreshes_tix | apply State.modStack_tix | intro _ _ _
      | intro _ _ | intro _ | split)

theorem State.chainReceive_tix {z : State} {s : State} {n : ℕ} {u : ℕ} {crcFails : ℕ} (h : Tix z s) :
    Tix z (State.chainReceive s n u crcFails) := by
  unfold State.chainReceive
  try dsimp only
  with_reducible
    repeat' (first
      | assumption | apply State.setNbSlot_tix | apply State.atomEnd_tix | apply State.modStack_tix
      | apply Tix.foldl | intro _ _ _ | intro _ _ | intro _ | split)

end Sys2Proof.Machine
end

