-- ==== Sys2Proof/Laws/TixStaging.lean ====
section
/-!
SUPPORT. Operations that leave the packets without a final completion alone: the operations of Machine/Staging.lean.
-/

set_option linter.all false

namespace Sys2Proof.Machine

theorem State.takeRegs_tix {z : State} {s : State} {which : ℕ → Bool} (h : Tix z s) :
    Tix z (State.takeRegs s which) := by
  unfold State.takeRegs
  with_reducible
    repeat' (first
      | assumption | apply State.put_tix | apply Tix.foldl | intro _ _ _ | intro _ _ | intro _ | split)

theorem State.wouldDevice_tix {z : State} {s : State} (h : Tix z s) :
    Tix z (State.wouldDevice s) := by
  unfold State.wouldDevice
  with_reducible
    repeat' (first
      | assumption | apply State.takeRegs_tix | intro _ _ _ | intro _ _ | intro _)

theorem State.digest_tix {z : State} {s : State} (h : Tix z s) :
    Tix z (State.digest s) := by
  unfold State.digest
  with_reducible
    repeat' (first
      | assumption | apply State.put_tix)

theorem State.refreshCfg_tix {z : State} {s : State} (h : Tix z s) :
    Tix z (State.refreshCfg s) := by
  unfold State.refreshCfg
  try dsimp only
  with_reducible
    repeat' (first
      | assumption | apply State.put_tix | apply State.putBit_tix | intro _ _ _ | intro _ _ | intro _)

theorem State.liveEntries_tix {z : State} {s : State} {b : Bytes} (h : Tix z s) :
    Tix z (State.liveEntries s b) := by
  unfold State.liveEntries
  try dsimp only
  with_reducible
    repeat' (first
      | assumption | apply State.writeReg_tix | apply Tix.foldl | intro _ _ _ | intro _ _ | intro _ | split)

theorem State.stageEntry_tix {z : State} {s : State} {e : ℕ × ℕ × ℕ} (h : Tix z s) :
    Tix z (State.stageEntry s e) := by
  unfold State.stageEntry
  with_reducible
    repeat' (first
      | assumption | apply Tix.foldl | intro _ _ _ | intro _ _ | intro _)

theorem State.stageEntries_tix {z : State} {s : State} {b : Bytes} (h : Tix z s) :
    TixO z (State.stageEntries s b) := by
  unfold State.stageEntries
  with_reducible
    repeat' (first
      | assumption | apply State.stageEntry_tix | apply TixO.of | apply TixO.none | apply TixO.tryAll
      | intro _ _ _ | intro _ _ | intro _ | split)

theorem State.lessGone_tix {z : State} {s : State} {stay : Table (Option Inst)} (h : Tix z s) :
    Tix z (State.lessGone s stay) := by
  unfold State.lessGone
  with_reducible
    repeat' (first
      | assumption | apply State.put_tix | apply Tix.foldl | intro _ _ _ | intro _ _ | intro _)

theorem State.wouldCluster_tix {z : State} {s : State} (h : Tix z s) :
    Tix z (State.wouldCluster s) := by
  unfold State.wouldCluster
  try dsimp only
  with_reducible
    repeat' (first
      | assumption | apply State.lessGone_tix | apply State.takeRegs_tix | intro _ _ _ | intro _ _ | intro _ | split)

theorem State.countConflict_tix {z : State} {s : State} (h : Tix z s) :
    Tix z (State.countConflict s) := by
  unfold State.countConflict
  with_reducible
    repeat' (first
      | assumption | apply State.bump_tix)

end Sys2Proof.Machine
end

