-- ==== Sys2Proof/Laws/TixCommit.lean ====
section
/-!
SUPPORT. Operations that leave the packets without a final completion alone: the operations of Machine/Commit.lean.
-/

set_option linter.all false

namespace Sys2Proof.Machine

theorem State.regionMode_tix {z : State} {s : State} {n : ℕ} {new : ℕ} (h : Tix z s) :
    Tix z (State.regionMode s n new) := by
  unfold State.regionMode
  try dsimp only
  with_reducible
    repeat' (first
      | assumption | apply State.zero_tix | apply State.put_tix | apply State.modStack_tix | apply Tix.foldl
      | intro _ _ _ | intro _ _ | intro _ | split)

theorem State.commitField_tix {z : State} {s : State} {e : ℕ × ℕ} (h : Tix z s) :
    Tix z (State.commitField s e) := by
  unfold State.commitField
  try dsimp only
  with_reducible
    repeat' (first
      | assumption | apply State.flushGranary_tix | apply State.regionMode_tix | apply State.put_tix | intro _ _ _
      | intro _ _ | intro _ | split)

theorem State.commitRegs_tix {z : State} {s : State} {which : ℕ → Bool} (h : Tix z s) :
    Tix z (State.commitRegs s which) := by
  unfold State.commitRegs
  try dsimp only
  with_reducible
    repeat' (first
      | assumption | apply State.settleLevels_tix | apply State.relink_tix | apply State.commitField_tix
      | apply Tix.foldl | intro _ _ _ | intro _ _ | intro _ | split)

theorem State.activateDevice_tix {z : State} {s : State} (h : Tix z s) :
    Tix z (State.activateDevice s) := by
  unfold State.activateDevice
  with_reducible
    repeat' (first
      | assumption | apply State.digest_tix | apply State.refreshCfg_tix | apply State.commitRegs_tix | intro _ _ _
      | intro _ _ | intro _)

theorem State.lockSets_tix {z : State} {s : State} {cluster : Bool} {device : Bool} (h : Tix z s) :
    Tix z (State.lockSets s cluster device) := by
  unfold State.lockSets
  with_reducible
    repeat' (first
      | assumption | apply State.refreshCfg_tix)

theorem State.returnRegions_tix {z : State} {s : State} {x : Inst} (h : Tix z s) :
    Tix z (State.returnRegions s x) := by
  unfold State.returnRegions
  with_reducible
    repeat' (first
      | assumption | apply State.regionMode_tix | apply Tix.foldl | intro _ _ _ | intro _ _ | intro _)

theorem State.refreshProt_tix {z : State} {s : State} (h : Tix z s) :
    Tix z (State.refreshProt s) := by
  unfold State.refreshProt
  with_reducible
    repeat' (first
      | assumption | apply State.unprotect_tix | intro _ _ _ | intro _ _ | intro _ | split)

theorem State.zeroExtents_tix {z : State} {s : State} {x : Inst} (h : Tix z s) :
    Tix z (State.zeroExtents s x) := by
  unfold State.zeroExtents
  with_reducible
    repeat' (first
      | assumption | apply State.zero_tix | apply Tix.foldl | intro _ _ _ | intro _ _ | intro _)

theorem State.showPlan_tix {z : State} {s : State} (h : Tix z s) :
    Tix z (State.showPlan s) := by
  unfold State.showPlan
  try dsimp only
  with_reducible
    repeat' (first
      | assumption | apply State.put_tix | intro _ _ _ | intro _ _ | intro _)

theorem State.commitPlan_tix {z : State} {s : State} (h : Tix z s) :
    Tix z (State.commitPlan s) := by
  unfold State.commitPlan
  try dsimp only
  with_reducible
    repeat' (first
      | assumption | apply State.put_tix | apply State.showPlan_tix | split)

theorem State.deferCommit_tix {z : State} {s : State} (h : Tix z s) :
    Tix z (State.deferCommit s) := by
  unfold State.deferCommit
  with_reducible
    repeat' (first
      | assumption | apply State.refreshCfg_tix | split)

theorem State.goIn_tix {z : State} {s : State} {epoch : ℕ} (h : Tix z s) :
    Tix z (State.goIn s epoch) := by
  unfold State.goIn
  with_reducible
    repeat' (first
      | assumption | split)

theorem State.prepareIn_tix {z : State} {s : State} {src : ℕ} {epoch : ℕ} {k : ℕ} (h : Tix z s) :
    Tix z (State.prepareIn s src epoch k) := by
  unfold State.prepareIn
  try dsimp only
  with_reducible
    repeat' (first
      | assumption | apply State.sendCtrl_tix | apply State.countConflict_tix | apply State.wouldCluster_tix
      | apply State.lockSets_tix | split)

theorem State.abortIn_tix {z : State} {s : State} {epoch : ℕ} (h : Tix z s) :
    Tix z (State.abortIn s epoch) := by
  unfold State.abortIn
  with_reducible
    repeat' (first
      | assumption | apply State.bump_tix | apply State.lockSets_tix | split)

end Sys2Proof.Machine
end

