-- ==== Sys2Proof/Laws/TixMeridian.lean ====
section
/-!
SUPPORT. Operations that leave the packets without a final completion alone: the operations of Machine/Meridian.lean.
-/

set_option linter.all false

namespace Sys2Proof.Machine

theorem State.dropSteps_tix {z : State} {s : State} (h : Tix z s) :
    Tix z (State.dropSteps s) := by
  unfold State.dropSteps
  with_reducible
    repeat' (first
      | assumption | apply State.abandonTile_tix | apply State.clearColl_tix | apply Tix.foldl | intro _ _ _
      | intro _ _ | intro _ | split)

theorem State.dropSends_tix {z : State} {s : State} (h : Tix z s) :
    Tix z (State.dropSends s) := by
  unfold State.dropSends
  with_reducible
    repeat' (first
      | assumption | intro _ _ _ | intro _ _ | intro _)

theorem State.setFenced_tix {z : State} {s : State} (h : Tix z s) :
    Tix z (State.setFenced s) := by
  unfold State.setFenced
  with_reducible
    repeat' (first
      | assumption | apply State.put_tix | split)

theorem State.setMrd_tix {z : State} {s : State} {v : ℕ} (h : Tix z s) :
    Tix z (State.setMrd s v) := by
  unfold State.setMrd
  with_reducible
    repeat' (first
      | assumption | apply State.put_tix | apply State.putBit_tix)

theorem State.align_tix {z : State} {s : State} (h : Tix z s) :
    Tix z (State.align s) := by
  unfold State.align
  try dsimp only
  with_reducible
    repeat' (first
      | assumption | apply State.put_tix | apply State.putBit_tix)

theorem State.reacquire_tix {z : State} {s : State} (h : Tix z s) :
    Tix z (State.reacquire s) := by
  unfold State.reacquire
  with_reducible
    repeat' (first
      | assumption | apply State.setMrd_tix | split)

theorem State.assignTime_tix {z : State} {s : State} {v : ℕ} (h : Tix z s) :
    Tix z (State.assignTime s v) := by
  unfold State.assignTime
  try dsimp only
  with_reducible
    repeat' (first
      | assumption | apply State.put_tix | apply State.putBit_tix)

theorem State.pllLock_tix {z : State} {s : State} (h : Tix z s) :
    Tix z (State.pllLock s) := by
  unfold State.pllLock
  try dsimp only
  with_reducible
    repeat' (first
      | assumption | apply State.setMrd_tix | apply State.putBit_tix | split)

end Sys2Proof.Machine
end

