-- ==== Sys2Proof/Laws/TixFurrow.lean ====
section
/-!
SUPPORT. Operations that leave the packets without a final completion alone: the operations of Machine/Furrow.lean.
-/

set_option linter.all false

namespace Sys2Proof.Machine

theorem State.stopAtHeadland_tix {z : State} {s : State} {k : ℕ} (h : Tix z s) :
    Tix z (State.stopAtHeadland s k) := by
  unfold State.stopAtHeadland
  try dsimp only
  with_reducible
    repeat' (first
      | assumption | apply State.putBit_tix | split)

theorem State.stopAll_tix {z : State} {s : State} {k : ℕ} (h : Tix z s) :
    Tix z (State.stopAll s k) := by
  unfold State.stopAll
  with_reducible
    repeat' (first
      | assumption | apply State.stopAtHeadland_tix | apply State.sendAll_tix)

theorem State.silentFor_tix {z : State} {s : State} {d : ℕ} {n : ℕ} (h : Tix z s) :
    Tix z (State.silentFor s d n) := by
  unfold State.silentFor
  with_reducible
    repeat' (first
      | assumption | apply State.sendCtrl_tix | split)

theorem State.beaconsDue_tix {z : State} {s : State} (h : Tix z s) :
    Tix z (State.beaconsDue s) := by
  unfold State.beaconsDue
  try dsimp only
  with_reducible
    repeat' (first
      | assumption | apply State.bump_tix | apply State.silentFor_tix | apply Tix.foldl | intro _ _ _ | intro _ _
      | intro _ | split)

theorem State.hearBeacon_tix {z : State} {s : State} {p : ℕ} {b : Bytes} (h : Tix z s) :
    Tix z (State.hearBeacon s p b) := by
  unfold State.hearBeacon
  try dsimp only
  assumption

theorem State.abandonStep_tix {z : State} {s : State} (h : Tix z s) :
    Tix z (State.abandonStep s) := by
  unfold State.abandonStep
  try dsimp only
  with_reducible
    repeat' (first
      | assumption | apply State.bump_tix | apply State.dropOccur_tix | apply State.noteFailed_tix
      | apply State.raise_tix | apply State.abandonTile_tix | apply State.clearColl_tix | apply Tix.foldl
      | intro _ _ _ | intro _ _ | intro _ | split)

theorem State.checkStep_tix {z : State} {s : State} (h : Tix z s) :
    Tix z (State.checkStep s) := by
  unfold State.checkStep
  try dsimp only
  with_reducible
    repeat' (first
      | assumption | apply State.bump_tix | apply State.put_tix | apply State.putBit_tix | split)

theorem State.sendOn_tix {z : State} {s : State} {ports : List ℕ} {f : Frame} (h : Tix z s) :
    Tix z (State.sendOn s ports f) := by
  unfold State.sendOn
  with_reducible
    repeat' (first
      | assumption | apply State.sendSeq_tix | apply Tix.foldl | intro _ _ _ | intro _ _ | intro _)

theorem State.sendBeacon_tix {z : State} {s : State} (h : Tix z s) :
    Tix z (State.sendBeacon s) := by
  unfold State.sendBeacon
  with_reducible
    repeat' (first
      | assumption | apply State.sendOn_tix | split)

theorem State.beginFallow_tix {z : State} {s : State} (h : Tix z s) :
    Tix z (State.beginFallow s) := by
  unfold State.beginFallow
  try dsimp only
  with_reducible
    repeat' (first
      | assumption | apply State.bump_tix | apply State.endOccur_tix | apply State.put_tix)

theorem State.beginStep_tix {z : State} {s : State} (h : Tix z s) :
    Tix z (State.beginStep s) := by
  unfold State.beginStep
  try dsimp only
  with_reducible
    repeat' (first
      | assumption | apply State.startBlind_tix | apply State.countLanes_tix | apply State.countWaits_tix
      | apply State.startOutside_tix | apply State.put_tix | apply State.startMisses_tix
      | apply State.noteDone_tix | apply State.startTile_tix | apply Tix.foldl | intro _ _ _ | intro _ _ | intro _)

theorem State.freshFurrow_tix {z : State} {s : State} (h : Tix z s) :
    Tix z (State.freshFurrow s) := by
  unfold State.freshFurrow
  try dsimp only
  with_reducible
    repeat' (first
      | assumption | apply State.putBit_tix)

theorem State.dropEpoch_tix {z : State} {s : State} {p : ℕ} {dev : ℕ} {epoch : ℕ} {serial : ℕ} (h : Tix z s) :
    Tix z (State.dropEpoch s p dev epoch serial) := by
  unfold State.dropEpoch
  with_reducible
    repeat' (first
      | assumption | apply State.bump_tix | apply State.answerFenced_tix)

theorem State.relayIn_tix {z : State} {s : State} {p : ℕ} {b : Bytes} (h : Tix z s) :
    Tix z (State.relayIn s p b) := by
  unfold State.relayIn
  try dsimp only
  with_reducible
    repeat' (first
      | assumption | apply State.dropEpoch_tix | split)

theorem State.turnDevice_tix {z : State} {s : State} {template : Option ℕ} (h : Tix z s) :
    Tix z (State.turnDevice s template) := by
  unfold State.turnDevice
  try dsimp only
  with_reducible
    repeat' (first
      | assumption | apply State.turnTiles_tix | apply State.put_tix | apply State.fenceUnits_tix
      | apply State.clearColl_tix | apply Tix.foldl | intro _ _ _ | intro _ _ | intro _ | split)

theorem State.collapse_tix {z : State} {s : State} (h : Tix z s) :
    Tix z (State.collapse s) := by
  unfold State.collapse
  with_reducible
    repeat' (first
      | assumption | apply State.raise_tix | apply State.stopAll_tix | split)

theorem State.turn_tix {z : State} {s : State} (h : Tix z s) :
    Tix z (State.turn s) := by
  unfold State.turn
  try dsimp only
  with_reducible
    repeat' (first
      | assumption | apply State.bump_tix | apply State.turnDevice_tix | split)

theorem State.sendRelay_tix {z : State} {s : State} (h : Tix z s) :
    Tix z (State.sendRelay s) := by
  unfold State.sendRelay
  with_reducible
    repeat' (first
      | assumption | apply State.sendOn_tix | intro _ _ _ | intro _ _ | intro _ | split)

theorem State.decideFallow_tix {z : State} {s : State} (h : Tix z s) :
    Tix z (State.decideFallow s) := by
  unfold State.decideFallow
  try dsimp only
  with_reducible
    repeat' (first
      | assumption | apply State.putBit_tix | split)

theorem State.startTurn_tix {z : State} {s : State} (h : Tix z s) :
    Tix z (State.startTurn s) := by
  unfold State.startTurn
  try dsimp only
  with_reducible
    repeat' (first
      | assumption | apply State.turnDevice_tix | split)

theorem State.sendEcho_tix {z : State} {s : State} (h : Tix z s) :
    Tix z (State.sendEcho s) := by
  unfold State.sendEcho
  with_reducible
    repeat' (first
      | assumption | apply State.sendOn_tix | split)

theorem State.relaysDue_tix {z : State} {s : State} (h : Tix z s) :
    Tix z (State.relaysDue s) := by
  unfold State.relaysDue
  try dsimp only
  with_reducible
    repeat' (first
      | assumption | apply State.bump_tix | intro _ _ _ | intro _ _ | intro _ | split)

end Sys2Proof.Machine
end

