-- ==== Sys2Proof/Laws/TixLoading.lean ====
section
/-!
SUPPORT. Operations that leave the packets without a final completion alone: the operations of Machine/Loading.lean.
-/

set_option linter.all false

namespace Sys2Proof.Machine

theorem State.discardDevice_tix {z : State} {s : State} (h : Tix z s) :
    Tix z (State.discardDevice s) := by
  unfold State.discardDevice
  with_reducible
    repeat' (first
      | assumption | intro _ _ _ | intro _ _ | intro _)

theorem State.stageScale_tix {z : State} {s : State} {n : ℕ} {i : ℕ} {w : ℕ} (h : Tix z s) :
    Tix z (State.stageScale s n i w) := by
  unfold State.stageScale
  with_reducible
    repeat' (first
      | assumption | apply Tix.foldl | intro _ _ _ | intro _ _ | intro _)

theorem State.modelStage_tix {z : State} {s : State} {p : Packet} {b : Bytes} {m : ModelImage} (h : Tix z s) :
    Tix z (State.modelStage s p b m) := by
  unfold State.modelStage
  try dsimp only
  with_reducible
    repeat' (first
      | assumption | apply State.protectAll_tix | apply State.stageScale_tix | apply State.write_tix
      | apply State.regionMode_tix | apply Tix.foldl | intro _ _ _ | intro _ _ | intro _ | split)

theorem State.discardCluster_tix {z : State} {s : State} (h : Tix z s) :
    Tix z (State.discardCluster s) := by
  unfold State.discardCluster
  try dsimp only
  with_reducible
    repeat' (first
      | assumption | apply State.returnRegions_tix | apply Tix.foldl | intro _ _ _ | intro _ _ | intro _)

theorem State.stageHere_tix {z : State} {s : State} {p : Packet} {b : Bytes} {img : Option ModelImage} (h : Tix z s) :
    Tix z (State.stageHere s p b img) := by
  unfold State.stageHere
  with_reducible
    repeat' (first
      | assumption | apply State.liveEntries_tix | apply State.discardDevice_tix | apply State.modelStage_tix
      | apply State.refreshCfg_tix | apply State.stageEntries_tix | apply State.stagePlan_tix
      | apply State.discardCluster_tix | apply TixO.getD | (refine Tix.ofSome (by assumption) ?_)
      | (dsimp only [Tix]; refine Tix.parts (Tix.ofSome (by assumption) ?_)) | split)

end Sys2Proof.Machine
end

