-- ==== Sys2Proof/Laws/TixMembers.lean ====
section
/-!
SUPPORT. Operations that leave the packets without a final completion alone: the operations of Machine/Members.lean.
-/

set_option linter.all false

namespace Sys2Proof.Machine

theorem State.fenceColls_tix {z : State} {s : State} (h : Tix z s) :
    Tix z (State.fenceColls s) := by
  unfold State.fenceColls
  with_reducible
    repeat' (first
      | assumption | apply State.failHead_tix | apply Tix.foldl | intro _ _ _ | intro _ _ | intro _ | split)

theorem State.silentIn_tix {z : State} {s : State} {src : ℕ} {x : ℕ} (h : Tix z s) :
    Tix z (State.silentIn s src x) := by
  unfold State.silentIn
  with_reducible
    repeat' (first
      | assumption | split)

theorem State.controlFault_tix {z : State} {s : State} {cause : ℕ} {addr : ℕ} (h : Tix z s) :
    Tix z (State.controlFault s cause addr) := by
  unfold State.controlFault
  try dsimp only
  with_reducible
    repeat' (first
      | assumption | apply State.raise_tix)

theorem State.recordIn_tix {z : State} {s : State} {r : ErrRec} (h : Tix z s) :
    Tix z (State.recordIn s r) := by
  unfold State.recordIn
  try dsimp only
  with_reducible
    repeat' (first
      | assumption | apply State.logForwarded_tix | split)

theorem State.stepNoticeIn_tix {z : State} {s : State} {i : ℕ} {k : ℕ} (h : Tix z s) :
    Tix z (State.stepNoticeIn s i k) := by
  unfold State.stepNoticeIn
  with_reducible
    repeat' (first
      | assumption | apply State.noteFailed_tix | apply State.enterSkip_tix | apply Tix.foldl | intro _ _ _
      | intro _ _ | intro _ | split)

end Sys2Proof.Machine
end

