-- ==== Sys2Proof/Laws/TixForming.lean ====
section
/-!
SUPPORT. Operations that leave the packets without a final completion alone: the operations of Machine/Forming.lean.
-/

set_option linter.all false

namespace Sys2Proof.Machine

theorem State.forgetCluster_tix {z : State} {s : State} (h : Tix z s) :
    Tix z (State.forgetCluster s) := by
  unfold State.forgetCluster
  try dsimp only
  with_reducible
    repeat' (first
      | assumption | apply State.put_tix | apply State.putBit_tix | apply Tix.foldl | intro _ _ _ | intro _ _
      | intro _)

theorem State.resetClusterRegs_tix {z : State} {s : State} (h : Tix z s) :
    Tix z (State.resetClusterRegs s) := by
  unfold State.resetClusterRegs
  with_reducible
    repeat' (first
      | assumption | apply State.put_tix | apply Tix.foldl | intro _ _ _ | intro _ _ | intro _)

theorem State.setPlace_tix {z : State} {s : State} {place : Option ℕ} {lead : Bool} {epoch : ℕ} {issued : ℕ} (h : Tix z s) :
    Tix z (State.setPlace s place lead epoch issued) := by
  unfold State.setPlace
  try dsimp only
  with_reducible
    repeat' (first
      | assumption | apply State.put_tix | apply State.putBit_tix | split)

end Sys2Proof.Machine
end

