-- ==== Sys2Proof/Laws/TixHolding.lean ====
section
/-!
SUPPORT. Operations that leave the packets without a final completion alone: the operations of Machine/Holding.lean.
-/

set_option linter.all false

namespace Sys2Proof.Machine

theorem State.beginHold_tix {z : State} {s : State} {n : ℕ} {no : ℕ} (h : Tix z s) :
    Tix z (State.beginHold s n no) := by
  unfold State.beginHold
  try dsimp only
  with_reducible
    repeat' (first
      | assumption | apply State.flushGranary_tix)

theorem State.resizeGranary_tix {z : State} {s : State} {n : ℕ} {size : ℕ} (h : Tix z s) :
    Tix z (State.resizeGranary s n size) := by
  unfold State.resizeGranary
  try dsimp only
  with_reducible
    repeat' (first
      | assumption | apply State.flushGranary_tix | apply State.zero_tix | apply State.put_tix | split)

theorem State.resetRegs_tix {z s : State} {base : Nat} {l : List (Nat × Nat)} (h : Tix z s) : Tix z (s.resetRegs base l) := h

theorem State.loadMap_tix {z : State} {s : State} {n : ℕ} (h : Tix z s) :
    Tix z (State.loadMap s n) := by
  unfold State.loadMap
  try dsimp only
  with_reducible
    repeat' (first
      | assumption | apply State.put_tix | apply State.putBit_tix | intro _ _ _ | intro _ _ | intro _)

theorem State.holdPart_tix {z : State} {s : State} {n : ℕ} (h : Tix z s) :
    Tix z (State.holdPart s n) := by
  unfold State.holdPart
  try dsimp only
  with_reducible
    repeat' (first
      | assumption | apply State.setSeq_tix | apply State.resetRegs_tix | apply State.put_tix
      | apply State.stopUnits_tix | apply State.putBit_tix | apply State.loadMap_tix | apply State.modTile_tix
      | apply State.modStack_tix | apply Tix.foldl | intro _ _ _ | intro _ _ | intro _ | split)

theorem State.unhold_tix {z : State} {s : State} {n : ℕ} (h : Tix z s) :
    Tix z (State.unhold s n) := by
  unfold State.unhold
  try dsimp only
  with_reducible
    repeat' (first
      | assumption | apply State.servePc_tix | apply Tix.foldl | intro _ _ _ | intro _ _ | intro _ | split)

end Sys2Proof.Machine
end

