-- ==== Sys2Proof/Laws/TixCommands.lean ====
section
/-!
SUPPORT. Operations that leave the packets without a final completion alone: the operations of Machine/Commands.lean.
-/

set_option linter.all false

namespace Sys2Proof.Machine

theorem State.takeHint_tix {z : State} {s : State} {p : Packet} (h : Tix z s) :
    Tix z (State.takeHint s p) := by
  unfold State.takeHint
  with_reducible
    repeat' (first
      | assumption | apply State.hintDevice_tix)

theorem State.outReport_tix {z : State} {s : State} {p : Packet} {b : Bytes} (h : Tix z s) :
    Tix z (State.outReport s p b) := by
  unfold State.outReport
  with_reducible
    repeat' (first
      | assumption | apply State.d2h_tix | apply Tix.foldl | intro _ _ _ | intro _ _ | intro _)

end Sys2Proof.Machine
end

