-- ==== Sys2Proof/Laws/TixSettle.lean ====
section
/-!
SUPPORT. Operations that leave the packets without a final completion alone: the operations of Machine/Settle.lean.
-/

set_option linter.all false

namespace Sys2Proof.Machine

theorem State.endTold_tix {z : State} {s : State} {p : Packet} (h : Tix z s) :
    Tix z (State.endTold s p) := by
  unfold State.endTold
  try dsimp only
  with_reducible
    repeat' (first
      | assumption | apply State.applyTold_tix | split)

end Sys2Proof.Machine
end

