-- ==== Sys2Proof/Laws/TixHost.lean ====
section
/-!
SUPPORT. Operations that leave the packets without a final completion alone: the operations of Machine/Host.lean.
-/

set_option linter.all false

namespace Sys2Proof.Machine

theorem State.pulled_tix {z : State} {s : State} {v : ℕ} (h : Tix z s) :
    Tix z (State.pulled s v) := by
  unfold State.pulled
  try dsimp only
  with_reducible
    repeat' (first
      | assumption | apply State.message_tix | intro _ _ _ | intro _ _ | intro _ | split)

theorem State.hostLost_tix {z : State} {s : State} (h : Tix z s) :
    Tix z (State.hostLost s) := by
  unfold State.hostLost
  try dsimp only
  with_reducible
    repeat' (first
      | assumption | apply State.bump_tix | apply State.dropFetches_tix | apply State.putBit_tix | apply Tix.foldl
      | intro _ _ _ | intro _ _ | intro _)

theorem State.functionReset_tix {z : State} {s : State} (h : Tix z s) :
    Tix z (State.functionReset s) :=
  State.putBit_tix (State.hostLost_tix h)

theorem State.unreadPacket_tix {z : State} {s : State} {i : ℕ} (h : Tix z s) :
    Tix z (State.unreadPacket s i) := by
  unfold State.unreadPacket
  try dsimp only
  with_reducible
    repeat' (first
      | assumption | apply State.bump_tix | apply State.draw_tix | apply State.postCq_tix)

theorem State.expanderLost_tix {z : State} {s : State} {k : ℕ} (h : Tix z s) :
    Tix z (State.expanderLost s k) := by
  unfold State.expanderLost
  try dsimp only
  with_reducible
    repeat' (first
      | assumption | apply State.bump_tix | apply State.raise_tix | apply State.put_tix | apply State.putBit_tix
      | intro _ _ _ | intro _ _ | intro _ | split)

theorem State.takeCredit_tix {z : State} {s : State} {data : Bool} (h : Tix z s) :
    Tix z (State.takeCredit s data) := by
  unfold State.takeCredit
  with_reducible
    repeat' (first
      | assumption | split)

theorem State.windowAccess_tix {z : State} {s : State} {tag : ℕ} {offset : ℕ} {op : StackOp} {symbols : List ℕ} (h : Tix z s) :
    Tix z (State.windowAccess s tag offset op symbols) := by
  unfold State.windowAccess
  try dsimp only
  with_reducible
    repeat' (first
      | assumption | apply State.stackArrive_tix | apply State.perform_tix | apply State.takeCredit_tix
      | apply State.emit_tix | split)

theorem State.doorbell_tix {z : State} {s : State} {enabled : Bool} {size : ℕ} {index : ℕ} {f : State → State} (h : Tix z s) (h1 : ∀ y0, Tix z y0 → Tix z (f y0)) :
    Tix z (State.doorbell s enabled size index f) := by
  unfold State.doorbell
  with_reducible
    repeat' (first
      | assumption | apply State.bump_tix | apply h1 | split)

theorem State.trDoorbell_tix {z : State} {s : State} {j : ℕ} {index : ℕ} (h : Tix z s) :
    Tix z (State.trDoorbell s j index) := by
  unfold State.trDoorbell
  with_reducible
    repeat' (first
      | assumption | apply State.doorbell_tix | intro _ _ _ | intro _ _ | intro _)

theorem State.sqDoorbell_tix {z : State} {s : State} {i : ℕ} {index : ℕ} (h : Tix z s) :
    Tix z (State.sqDoorbell s i index) := by
  unfold State.sqDoorbell
  with_reducible
    repeat' (first
      | assumption | apply State.doorbell_tix | apply State.fetchRing_tix | intro _ _ _ | intro _ _ | intro _)

theorem State.cqDoorbell_tix {z : State} {s : State} {i : ℕ} {index : ℕ} (h : Tix z s) :
    Tix z (State.cqDoorbell s i index) := by
  unfold State.cqDoorbell
  with_reducible
    repeat' (first
      | assumption | apply State.doorbell_tix | apply State.resumeRing_tix | intro _ _ _ | intro _ _ | intro _)

theorem State.doorbellWrite_tix {z : State} {s : State} {off : ℕ} {v : ℕ} (h : Tix z s) :
    Tix z (State.doorbellWrite s off v) := by
  unfold State.doorbellWrite
  with_reducible
    repeat' (first
      | assumption | apply State.sqDoorbell_tix | apply State.trDoorbell_tix | apply State.cqDoorbell_tix | split)

theorem State.busMaster_tix {z : State} {s : State} {on : Bool} (h : Tix z s) :
    Tix z (State.busMaster s on) := by
  unfold State.busMaster
  with_reducible
    repeat' (first
      | assumption | apply State.putBit_tix | apply State.reopen_tix | split)

theorem State.mapExpander_tix {z : State} {s : State} {base : ℕ} {e : Expander} (h : Tix z s) :
    Tix z (State.mapExpander s base e) := by
  unfold State.mapExpander
  try dsimp only
  with_reducible
    repeat' (first
      | assumption | apply State.bump_tix | apply State.put_tix | apply State.putBit_tix | split)

theorem State.mapExpanders_tix {z : State} {s : State} {base : ℕ} {x2 : List Expander} (h : Tix z s) :
    Tix z (State.mapExpanders s base x2) := by
  induction x2 generalizing s base with
  | nil =>
    unfold State.mapExpanders
    with_reducible
      repeat' (first
        | assumption | apply State.mapExpander_tix | split)
  | cons y ys ih =>
    unfold State.mapExpanders
    with_reducible
      repeat' (first
        | assumption | apply ih | apply State.mapExpander_tix | split)

theorem State.enumerate_tix {z : State} {s : State} {l : List Expander} (h : Tix z s) :
    Tix z (State.enumerate s l) := by
  unfold State.enumerate
  try dsimp only
  with_reducible
    repeat' (first
      | assumption | apply State.mapExpanders_tix | intro _ _ _ | intro _ _ | intro _ | split)

theorem State.linkTrained_tix {z : State} {s : State} {width : ℕ} {speed : ℕ} (h : Tix z s) :
    Tix z (State.linkTrained s width speed) := by
  unfold State.linkTrained
  with_reducible
    repeat' (first
      | assumption | apply State.put_tix | apply State.putBit_tix | apply State.reopen_tix | split)

theorem State.holdoffEnds_tix {z : State} {s : State} {v : ℕ} (h : Tix z s) :
    Tix z (State.holdoffEnds s v) := by
  unfold State.holdoffEnds
  try dsimp only
  with_reducible
    repeat' (first
      | assumption | apply State.message_tix | intro _ _ _ | intro _ _ | intro _ | split)

theorem State.ringDoorbell_tix {z : State} {s : State} {kind : ℕ} {ring : ℕ} {v : ℕ} (h : Tix z s) :
    Tix z (State.ringDoorbell s kind ring v) := by
  unfold State.ringDoorbell
  with_reducible
    repeat' (first
      | assumption | apply State.doorbellWrite_tix | split)

end Sys2Proof.Machine
end

