-- ==== Sys2Proof/Laws/TixBoot.lean ====
section
/-!
SUPPORT. Operations that leave the packets without a final completion alone: the operations of Machine/Boot.lean.
-/

set_option linter.all false

namespace Sys2Proof.Machine

theorem State.memZeroed_tix {z s : State} (h : Tix z s) : Tix z s.memZeroed := h

theorem State.memoryInit_tix {z : State} {s : State} {found : List (ℕ × ℕ × List ℕ)} (h : Tix z s) :
    Tix z (State.memoryInit s found) := by
  unfold State.memoryInit
  try dsimp only
  with_reducible
    repeat' (first
      | assumption | apply State.refreshLinks_tix | apply State.put_tix | apply State.putBit_tix
      | apply State.memZeroed_tix | apply State.modStack_tix | apply Tix.foldl | intro _ _ _ | intro _ _ | intro _
      | split)

theorem State.released_tix {z : State} {s : State} (h : Tix z s) :
    Tix z (State.released s) := by
  unfold State.released
  with_reducible
    repeat' (first
      | assumption | apply State.putBit_tix | split)

theorem State.resetRelease_tix {z : State} {s : State} (h : Tix z s) :
    Tix z (State.resetRelease s) := by
  unfold State.resetRelease
  try dsimp only
  with_reducible
    repeat' (first
      | assumption | apply State.settleLevels_tix | apply State.released_tix | apply State.put_tix | split)

theorem State.readFlash_tix {z : State} {s : State} {f : BootFlash} (h : Tix z s) :
    Tix z (State.readFlash s f) := by
  unfold State.readFlash
  try dsimp only
  with_reducible
    repeat' (first
      | assumption | apply Tix.foldl | intro _ _ _ | intro _ _ | intro _ | split)

theorem State.applyChar_tix {z : State} {s : State} (h : Tix z s) :
    Tix z (State.applyChar s) := by
  unfold State.applyChar
  try dsimp only
  with_reducible
    repeat' (first
      | assumption | apply State.put_tix | apply State.putBit_tix | apply Tix.foldl | intro _ _ _ | intro _ _
      | intro _ | split)

theorem State.raiseCounter_tix {z : State} {s : State} (h : Tix z s) :
    Tix z (State.raiseCounter s) := by
  unfold State.raiseCounter
  try dsimp only
  with_reducible
    repeat' (first
      | assumption | apply State.eraseSector_tix | split)

theorem State.adoptFloor_tix {z : State} {s : State} (h : Tix z s) :
    Tix z (State.adoptFloor s) := by
  unfold State.adoptFloor
  try dsimp only
  with_reducible
    repeat' (first
      | assumption | apply State.put_tix | apply State.putBit_tix | apply State.raiseCounter_tix | intro _ _ _
      | intro _ _ | intro _ | split)

theorem State.boot_tix {z : State} {s : State} {f : BootFlash} {tests : Bool} (h : Tix z s) :
    Tix z (State.boot s f tests) := by
  unfold State.boot
  try dsimp only
  with_reducible
    repeat' (first
      | assumption | apply State.readFlash_tix | apply State.refreshLinks_tix | apply State.digest_tix
      | apply State.applyChar_tix | apply State.controlFault_tix | apply State.refreshCfg_tix
      | apply State.flashStatus_tix | apply State.put_tix | apply State.putBit_tix | apply State.findNewest_tix
      | apply State.adoptFloor_tix | intro _ _ _ | intro _ _ | intro _ | split)

theorem State.perstRelease_tix {z : State} {s : State} (h : Tix z s) :
    Tix z (State.perstRelease s) := by
  unfold State.perstRelease
  with_reducible
    repeat' (first
      | assumption | apply State.released_tix | split)

theorem State.startupTest_tix {z : State} {s : State} {l : List SelfResult} {left : List (ℕ × Bytes)} (h : Tix z s) :
    Tix z (State.startupTest s l left) := by
  unfold State.startupTest
  try dsimp only
  with_reducible
    repeat' (first
      | assumption | apply State.write_tix | apply State.put_tix | apply State.memZeroed_tix | apply Tix.foldl
      | intro _ _ _ | intro _ _ | intro _ | split)

end Sys2Proof.Machine
end

