-- ==== Sys2Proof/Laws/TixClock.lean ====
section
/-!
SUPPORT. Operations that leave the packets without a final completion alone: the operations of Machine/Clock.lean.
-/

set_option linter.all false

namespace Sys2Proof.Machine

theorem State.count_tix {z : State} {s : State} (h : Tix z s) :
    Tix z (State.count s) := by
  unfold State.count
  with_reducible
    repeat' (first
      | assumption | apply State.wrapAdd_tix | split)

theorem State.tick_tix {z : State} {s : State} (h : Tix z s) :
    Tix z (State.tick s) := by
  unfold State.tick
  with_reducible
    repeat' (first
      | assumption | apply State.reacquire_tix | apply State.throttleTick_tix | apply State.count_tix | split)

end Sys2Proof.Machine
end

