-- ==== Sys2Proof/Laws/TixHeadland.lean ====
section
/-!
SUPPORT. Operations that leave the packets without a final completion alone: the operations of Machine/Headland.lean.
-/

set_option linter.all false

namespace Sys2Proof.Machine

theorem State.spills_tix {z : State} {s : State} (h : Tix z s) :
    Tix z (State.spills s) := by
  unfold State.spills
  try dsimp only
  with_reducible
    repeat' (first
      | assumption | apply State.spillItem_tix | apply State.prefetchItem_tix | intro _ _ _ | intro _ _ | intro _
      | split)

theorem State.shortHeadland_tix {z : State} {s : State} (h : Tix z s) :
    Tix z (State.shortHeadland s) := by
  unfold State.shortHeadland
  try dsimp only
  with_reducible
    repeat' (first
      | assumption | apply State.discardLanes_tix | apply State.noteShort_tix | intro _ _ _ | intro _ _ | intro _
      | split)

theorem State.clusterDivergent_tix {z : State} {s : State} {d : ℕ} (h : Tix z s) :
    Tix z (State.clusterDivergent s d) := by
  unfold State.clusterDivergent
  try dsimp only
  with_reducible
    repeat' (first
      | assumption | apply State.raise_tix | apply State.stopAll_tix | split)

end Sys2Proof.Machine
end

