-- ==== Sys2Proof/Laws/TixManage.lean ====
section
/-!
SUPPORT. Operations that leave the packets without a final completion alone: the operations of Machine/Manage.lean.
-/

set_option linter.all false

namespace Sys2Proof.Machine

theorem State.sideband_tix {z : State} {s : State} {a : SbAnswer} (h : Tix z s) :
    Tix z (State.sideband s a) := by
  unfold State.sideband
  with_reducible
    repeat' (first
      | assumption | apply State.emit_tix | split)

theorem State.setCap_tix {z : State} {s : State} {id : ℕ} {watts : ℕ} (h : Tix z s) :
    Tix z (State.setCap s id watts) := by
  unfold State.setCap
  try dsimp only
  with_reducible
    repeat' (first
      | assumption | apply State.sideband_tix | apply State.settleLevels_tix | apply State.put_tix | split)

theorem State.tapLoad_tix {z : State} {s : State} {code : ℕ} (h : Tix z s) :
    Tix z (State.tapLoad s code) := by
  unfold State.tapLoad
  try dsimp only
  with_reducible
    repeat' (first
      | assumption | apply State.emit_tix | split)

theorem State.takeAddress_tix {z : State} {s : State} {addr : ℕ} (h : Tix z s) :
    Tix z (State.takeAddress s addr) := by
  unfold State.takeAddress
  with_reducible
    repeat' (first
      | assumption | apply State.put_tix | split)

theorem State.readSensor_tix {z : State} {s : State} {id : ℕ} {standby : ℕ} (h : Tix z s) :
    Tix z (State.readSensor s id standby) := by
  unfold State.readSensor
  with_reducible
    repeat' (first
      | assumption | apply State.sideband_tix | split)

theorem State.setEid_tix {z : State} {s : State} {eid : ℕ} (h : Tix z s) :
    Tix z (State.setEid s eid) := by
  unfold State.setEid
  with_reducible
    repeat' (first
      | assumption | apply State.sideband_tix | apply State.put_tix | split)

theorem State.versionsOf_tix {z : State} {s : State} {type : ℕ} (h : Tix z s) :
    Tix z (State.versionsOf s type) := by
  unfold State.versionsOf
  with_reducible
    repeat' (first
      | assumption | apply State.draw_tix | apply State.sideband_tix | split)

end Sys2Proof.Machine
end

