-- ==== Sys2Proof/Laws/TixMovers.lean ====
section
/-!
SUPPORT. Operations that leave the packets without a final completion alone: the operations of Machine/Movers.lean.
-/

set_option linter.all false

namespace Sys2Proof.Machine

theorem State.moveRun_tix {z : State} {s : State} {n : ℕ} {r : ℕ × ℕ × ℕ} (h : Tix z s) :
    Tix z (State.moveRun s n r) := by
  unfold State.moveRun
  try dsimp only
  with_reducible
    repeat' (first
      | assumption | apply State.writeFor_tix | apply State.countFarPoison_tix | apply State.poisonRange_tix
      | apply State.readFor_tix | apply Tix.foldl | intro _ _ _ | intro _ _ | intro _
      | (refine Tix.fst (by assumption) ?_) | split)

theorem State.xfer_tix {z : State} {s : State} {n : ℕ} {u : ℕ} {kind : ℕ} {mem : MemReport} (h : Tix z s) :
    Tix z (State.xfer s n u kind mem) := by
  unfold State.xfer
  try dsimp only
  with_reducible
    repeat' (first
      | assumption | apply State.gated_tix | apply State.writeFor_tix | apply State.failEvent_tix
      | apply State.poisonRange_tix | apply State.moveRun_tix | apply State.complete_tix
      | apply State.memReport_tix | apply State.failHead_tix | apply Tix.foldl | intro _ _ _ | intro _ _ | intro _
      | split)

end Sys2Proof.Machine
end

