-- ==== Sys2Proof/Laws/TixSecure.lean ====
section
/-!
SUPPORT. Operations that leave the packets without a final completion alone: the operations of Machine/Secure.lean.
-/

set_option linter.all false

namespace Sys2Proof.Machine

theorem State.countSessions_tix {z : State} {s : State} (h : Tix z s) :
    Tix z (State.countSessions s) := by
  unfold State.countSessions
  with_reducible
    repeat' (first
      | assumption | apply State.put_tix)

theorem State.answer_tix {z : State} {s : State} {tr : ℕ} {a : SpdmAnswer} (h : Tix z s) :
    Tix z (State.answer s tr a) := by
  unfold State.answer
  with_reducible
    repeat' (first
      | assumption | apply State.emit_tix)

theorem State.withSession_tix {z : State} {s : State} {tr : ℕ} {id : ℕ} {f : State → State} (h : Tix z s) (h1 : ∀ y0, Tix z y0 → Tix z (f y0)) :
    Tix z (State.withSession s tr id f) := by
  unfold State.withSession
  with_reducible
    repeat' (first
      | assumption | apply State.answer_tix | apply h1 | split)

theorem State.setFloor_tix {z : State} {s : State} {tr : ℕ} {id : ℕ} {o : SignedObj} (h : Tix z s) :
    Tix z (State.setFloor s tr id o) := by
  unfold State.setFloor
  with_reducible
    repeat' (first
      | assumption | apply State.answer_tix | apply State.withSession_tix | intro _ _ _ | intro _ _ | intro _
      | split)

theorem State.transferEnd_tix {z : State} {s : State} {b : Bytes} {verified : Bool} {build : ℕ} (h : Tix z s) :
    Tix z (State.transferEnd s b verified build) := by
  unfold State.transferEnd
  try dsimp only
  with_reducible
    repeat' (first
      | assumption | apply State.emit_tix | split)

theorem State.setInstanceKey_tix {z : State} {s : State} {tr : ℕ} {id : ℕ} {inst : ℕ} {keyId : ℕ} {key : ℕ} (h : Tix z s) :
    Tix z (State.setInstanceKey s tr id inst keyId key) := by
  unfold State.setInstanceKey
  try dsimp only
  with_reducible
    repeat' (first
      | assumption | apply State.answer_tix | apply State.withSession_tix | intro _ _ _ | intro _ _ | intro _
      | split)

theorem State.sign_tix {z : State} {s : State} (h : Tix z s) :
    Tix z (State.sign s).1 := by
  unfold State.sign
  try dsimp only
  with_reducible
    repeat' (first
      | assumption | apply State.draw_tix | (refine Tix.fst (by assumption) ?_))

theorem State.whenAgreed_tix {z : State} {s : State} {tr : ℕ} {identity : Bool} {f : State → State} (h : Tix z s) (h1 : ∀ y0, Tix z y0 → Tix z (f y0)) :
    Tix z (State.whenAgreed s tr identity f) := by
  unfold State.whenAgreed
  with_reducible
    repeat' (first
      | assumption | apply State.answer_tix | apply h1 | split)

theorem State.finishSession_tix {z : State} {s : State} {tr : ℕ} {id : ℕ} {ok : Bool} (h : Tix z s) :
    Tix z (State.finishSession s tr id ok) := by
  unfold State.finishSession
  try dsimp only
  with_reducible
    repeat' (first
      | assumption | apply State.answer_tix | apply State.whenAgreed_tix | apply State.countSessions_tix
      | intro _ _ _ | intro _ _ | intro _ | split)

theorem State.agree_tix {z : State} {s : State} {tr : ℕ} {after : ℕ} {a : SpdmAnswer} (h : Tix z s) :
    Tix z (State.agree s tr after a) := by
  unfold State.agree
  with_reducible
    repeat' (first
      | assumption | apply State.answer_tix | split)

theorem State.endSession_tix {z : State} {s : State} {tr : ℕ} {id : ℕ} (h : Tix z s) :
    Tix z (State.endSession s tr id) := by
  unfold State.endSession
  with_reducible
    repeat' (first
      | assumption | apply State.answer_tix | apply State.withSession_tix | apply State.countSessions_tix
      | intro _ _ _ | intro _ _ | intro _)

theorem State.fwInfo_tix {z : State} {s : State} (h : Tix z s) :
    Tix z (State.fwInfo s) := by
  unfold State.fwInfo
  with_reducible
    repeat' (first
      | assumption | apply State.emit_tix)

theorem State.keyExchange_tix {z : State} {s : State} {tr : ℕ} {id : ℕ} (h : Tix z s) :
    Tix z (State.keyExchange s tr id) := by
  unfold State.keyExchange
  try dsimp only
  with_reducible
    repeat' (first
      | assumption | apply State.sign_tix | apply State.answer_tix | apply State.whenAgreed_tix | intro _ _ _
      | intro _ _ | intro _ | (refine Tix.fst (by assumption) ?_) | split)

theorem State.transferFw_tix {z : State} {s : State} {part : FwPart} {slot : ℕ} {offset : ℕ} {data : Bytes} {verified : Bool} {build : ℕ} (h : Tix z s) :
    Tix z (State.transferFw s part slot offset data verified build) := by
  unfold State.transferFw
  try dsimp only
  with_reducible
    repeat' (first
      | assumption | apply State.transferEnd_tix | apply State.emit_tix | intro _ _ _ | intro _ _ | intro _ | split)

theorem State.ideKm_tix {z : State} {s : State} {id : ℕ} {stream : ℕ} {go : Bool} {skid : Bool} (h : Tix z s) :
    Tix z (State.ideKm s id stream go skid) := by
  unfold State.ideKm
  try dsimp only
  with_reducible
    repeat' (first
      | assumption | apply State.putBit_tix | apply State.reopen_tix | apply State.emit_tix | split)

theorem State.activateFw_tix {z : State} {s : State} {slot : ℕ} {online : Bool} (h : Tix z s) :
    Tix z (State.activateFw s slot online) := by
  unfold State.activateFw
  with_reducible
    repeat' (first
      | assumption | apply State.emit_tix | split)

end Sys2Proof.Machine
end

