-- ==== Sys2Proof/Laws/TixStep.lean ====
section
/-!
SUPPORT. Operations that leave the packets without a final completion alone: the operations of Machine/Step.lean.
-/

set_option linter.all false

namespace Sys2Proof.Machine



end Sys2Proof.Machine
end

