-- ==== Sys2Proof/Tests/Slice0.lean ====
section
/-!
SUPPORT. Small checks of the model: a state that meets the hypotheses of each statement, commands that are not well-formed, and worked
examples of the spec.
-/

namespace Sys2Proof.Tests

open Sys2Proof.Machine

-- one theorem at a time: each runs on a thread of its own otherwise, with a large stack
set_option Elab.async false

/-! ### Small devices -/

/-- The device at reset, with some registers set. -/
def dev (fs : List (Field × Nat)) : State := fs.foldl (fun (s : State) e => s.put e.1 e.2) State.reset

/-- A device whose host, booted firmware and ring 0 answer, and whose ring 0 may issue every packet. -/
def up (fs : List (Field × Nat)) : State :=
  { dev ([(R.GLB_READY.BOOT_OK, 1), (R.GLB_READY.MEM_OK, 1), (R.CXLU_STATUS.LINK_UP, 1), (R.CXLU_STATUS.BUS_MASTER, 1),
      (R.QUE_SQ_CTRL.ADMIN 0, 1)] ++ fs) with cxl := { Cxl.reset with answers := true } }

/-- A packet of ring 0. -/
def pk : Packet := ⟨0, 0, 0, 0, 0, 7, 0, 0, 0, 0, 0, 0, 0, 0, 0⟩

/-- The ticket of a packet. -/
def ticket (p : Packet) : Ticket := ⟨0, .host 0, p, none, none, false, false, none, [], [], 0⟩

/-- A device with one packet that has no final completion yet. -/
def holding (s : State) (T : Ticket) : State := { s with que := { s.que with tickets := [T], nextNo := T.no + 1 } }

/-- A report of no error and no taken bank. -/
def noErr : MemReport := ⟨[], []⟩

/-- The device with these bytes in memory that reads zero otherwise. -/
def filled (s : State) (a : Nat) (b : Bytes) : State :=
  { s with mem := (b.zipIdx.filter fun e => e.1 != 0).map fun e => (a + e.2, e.1) }

/-- Where the tests place images in stack memory. -/
def stack0 : Nat := 0x1000000000

/-- A model image of one layer that places nothing. -/
def model0 : ModelImage := ⟨true, 16, 256, 1, 1, 1, 128, 0, [], 1, [], [], [], [], none, [], [], 0, [], [], [], [], [], 0, 0⟩

/-- An instance of that image on this device. -/
def inst0 : Inst := ⟨1, false, model0, List.replicate 48 0, none⟩

/-! ### The queue and every command -/

/-- Two commands wait at this device. -/
def two : State := { State.reset with pending := [.getFwInfo, .meridMarkEdge] }

theorem witness_StepRunsFront : two.pending = Instr.getFwInfo :: [.meridMarkEdge] := rfl

theorem witness_QueueRunsInOrder : 0 ≤ two.pending.length ∧ 2 ≤ two.pending.length := by decide

theorem witness_FormKept : two.inForm ∧ ∃ t, step two = .next t := ⟨by decide, _, rfl⟩

/-- Position `g` of a group of four. -/
def meshed (g : Nat) : State :=
  let s := dev [(R.GLB_DEVPOS.GROUP, 1), (R.GLB_DEVPOS.POSITION, g)]
  { s with flt := { s.flt with groupSize := [(1, 4)] } }

theorem witness_MeshWiring :
    (∀ e ∈ [(0, 0), (2, 2), (3, 3), (14, 2)], (meshed e.2).flt.groupSize = (meshed 3).flt.groupSize ∧
      (meshed e.2).get R.GLB_DEVPOS.GROUP = (meshed 3).get R.GLB_DEVPOS.GROUP ∧
      (meshed e.2).get R.GLB_DEVPOS.POSITION = (3 + e.1 + 1) % (meshed 3).groupOf 1) ∧
    3 < (meshed 3).groupOf 1 ∧ 0 + 1 < (meshed 3).groupOf 1 ∧ 2 + 1 < (meshed 3).groupOf 1 ∧ (meshed 3).groupOf 1 ≤ 3 + 1 := by decide

/-! ### Management and test -/

/-- A target that has a dynamic address. -/
def addressed : State := dev [(R.MGT_SB_STATUS.DYN_ADDR, 0x22)]

/-- The same while only VSB is present. -/
def standby : State := { addressed with pins := { Pins.reset with railsOn := false } }

theorem witness_Sideband : State.reset.get R.MGT_SB_STATUS.DYN_ADDR = 0 ∧ addressed.get R.MGT_SB_STATUS.DYN_ADDR ≠ 0 ∧
    standby.get R.MGT_SB_STATUS.DYN_ADDR ≠ 0 ∧ standby.pins.railsOn = false ∧ addressed.pins.railsOn = true ∧
    (∀ w ∈ [0, 800, 3200], w = 0 ∨ (800 ≤ w ∧ w ≤ 3200)) ∧ ∀ w ∈ [1, 799, 3201], ¬ (w = 0 ∨ (800 ≤ w ∧ w ≤ 3200)) := by decide

/-- A record of an alert. -/
def alertRec : ErrRec := State.reset.record (evVrAlert 2)

/-- A record waits for the log, whose next entry is not the first of a sector. -/
def toLog : State := { State.reset with mgt := { Mgt.reset with toLog := [alertRec], evSeq := 1025 } }

theorem witness_ManagementBlock : toLog.mgt.toLog = alertRec :: [] ∧ toLog.mgt.evSeq < 2 ^ 32 ∧ toLog.mgt.evSeq % 1024 ≠ 0 ∧
    (up []).alive = true ∧ (up []).isSet R.GLB_READY.BOOT_OK = true := by decide

/-! ### Security -/

theorem ofLe_leBytes (n v : Nat) (h : v < 256 ^ n) : ofLe (leBytes n v) = v := by
  induction n generalizing v with
  | zero => simp [leBytes, ofLe]; omega
  | succ n ih => simp only [leBytes, ofLe]; rw [ih (v / 256) (by rw [Nat.pow_succ] at h; omega)]; simp; omega

theorem leBytes_length (n v : Nat) : (leBytes n v).length = n := by
  induction n generalizing v with
  | zero => rfl
  | succ n ih => simp only [leBytes, List.length_cons, ih]

/-- A body of one byte, and the keys and signatures, all zero. -/
def objRest : Bytes := List.replicate 17045 0

theorem objRest_length : objRest.length = 17045 := List.length_replicate

/-- A signed object of this type, security version and serial, with a body of one byte. -/
def obj (type svn serial : Nat) : SignedObj :=
  ⟨leBytes 4 0x4A424F53 ++ leBytes 1 type ++ leBytes 1 0 ++ leBytes 2 1 ++ leBytes 4 svn ++ leBytes 4 1 ++ leBytes 8 serial ++
    leBytes 8 0 ++ leBytes 32 0 ++ objRest, true, 0, 0, 0, none⟩

theorem obj_length (type svn serial : Nat) : (obj type svn serial).bytes.length = 17109 := by
  simp only [obj, List.length_append, leBytes_length, objRest_length]

theorem obj_body (type svn serial : Nat) : objBody (obj type svn serial).bytes = 1 := rfl

theorem obj_magic (type svn serial : Nat) : rd (obj type svn serial).bytes 0 4 = 0x4A424F53 :=
  show ofLe (leBytes 4 0x4A424F53) = _ from ofLe_leBytes 4 _ (by decide)

theorem obj_type (type svn serial : Nat) (ht : type = 1 ∨ type = 3) : rd (obj type svn serial).bytes 4 1 = type := by
  rcases ht with rfl | rfl <;> rfl

theorem obj_key (type svn serial : Nat) : rd (obj type svn serial).bytes 5 1 = 0 ∧ rd (obj type svn serial).bytes 6 2 = 1 := ⟨rfl, rfl⟩

theorem obj_rest (type svn serial : Nat) : slice (obj type svn serial).bytes 32 32 = leBytes 32 0 := rfl

theorem obj_sequence (type svn serial : Nat) : objSequence (obj type svn serial).bytes = 0 := rfl

theorem obj_header (type svn serial : Nat) (ht : type = 1 ∨ type = 3) : objHeader type (obj type svn serial).bytes = true := by
  unfold objHeader
  rw [obj_length, obj_body, obj_magic, obj_type _ _ _ ht, (obj_key type svn serial).1, (obj_key type svn serial).2, obj_rest, obj_sequence]
  rcases ht with rfl | rfl <;> decide

theorem obj_accepted (type svn serial floor : Nat) (ht : type = 1 ∨ type = 3) (h : svn < 2 ^ 32) (hf : floor ≤ svn) (hs : serial < 2 ^ 64)
    (hi : (type = 1 ∧ serial = 0) ∨ serial = Config.serial) : objAccepted type floor (obj type svn serial) = true := by
  have h8 : rd (obj type svn serial).bytes 16 8 = serial := by
    show ofLe (leBytes 8 serial) = serial
    exact ofLe_leBytes 8 serial (by omega)
  have hv : objSvn (obj type svn serial).bytes = svn := by
    show ofLe (leBytes 4 svn) = svn
    exact ofLe_leBytes 4 svn (by omega)
  have hh := obj_header type svn serial ht
  have ho : (obj type svn serial).verified = true := rfl
  unfold objAccepted
  rw [hh, h8, hv, ho]
  rcases hi with ⟨rfl, rfl⟩ | h
  · simp only [beq_self_eq_true, Bool.and_true, Bool.true_or, hf, decide_true]
  · simp only [beq_iff_eq.mpr h, Bool.and_true, Bool.or_true, hf, decide_true]

/-- A floor record of this device. -/
def floorObj : SignedObj := obj 3 0 Config.serial

theorem floorObj_accepted : objAccepted 3 0 floorObj = true :=
  obj_accepted 3 0 Config.serial 0 (.inr rfl) (by decide) (by decide) (BitVec.isLt _) (.inr rfl)

/-- A characterisation record that gives one certificate chain. -/
def charObj : SignedObj := ⟨[], true, 0, 0, 0, some ⟨[], [], true, true, [[1, 2, 3]]⟩⟩

/-- A responder whose identity keys are there, agreed up to `n` on both transports, with sessions open and half open. -/
def responder (n : Nat) (open' half : List (Nat × Nat)) : State :=
  let s := up [(R.SEC_STATUS.IDENTITY_OK, 1), (R.CXLU_STATUS.BUS_MASTER, 0)]
  { s with sec := { s.sec with spdm := [(0, n), (1, n)], sessions := open', handshakes := half, char := some charObj } }

theorem witness_Spdm :
    (∀ tr ∈ [0, 1], ∀ n ∈ [0, 1, 2, 3], (responder n [] []).alive = true ∧ (responder n [] []).spdmReady tr = true ∧
      Table.get 0 tr (responder n [] []).sec.spdm = n) ∧
    (responder 3 [] []).isSet R.SEC_STATUS.IDENTITY_OK = true ∧ (responder 3 [] []).chain 0 = some [1, 2, 3] ∧
    (6, leBytes 2 0) ∈ (responder 3 [] []).measurements ∧
    (responder 3 [] []).sec.sessions.length + (responder 3 [] []).sec.handshakes.length < 8 ∧
    (∀ e ∈ [(1, 5), (0, 5)], e ∉ (responder 3 [] []).sec.sessions ∧ e ∉ (responder 3 [] []).sec.handshakes ∧
      e ∈ (responder 3 [] [(0, 5), (1, 5)]).sec.handshakes ∧ e ∈ (responder 3 [(0, 5), (1, 5)] []).sec.sessions) ∧
    (responder 3 [(0, 5)] []).que.tickets = [] ∧ (responder 3 [(0, 5)] []).isSet R.CXLU_STATUS.BUS_MASTER = false := by
  decide +kernel

theorem witness_FirmwareAndKeys :
    (1, 5) ∈ (responder 3 [(1, 5)] []).sec.sessions ∧ (1, 5) ∉ (responder 3 [] []).sec.sessions ∧ objAccepted 3 0 floorObj = true ∧
    (up []).mailReady = true ∧ (up []).sec.transfer = none ∧ ([] : Bytes).length ≤ 8405716 ∧
    { up [] with sec := { Sec.reset with transfer := some [] } }.mailReady = true :=
  ⟨by decide, by decide, floorObj_accepted, by decide, by decide, by decide, by decide⟩

theorem witness_CdatContents : (up []).alive = true ∧ (up []).hostReaches = true := by decide

/-! ### Command packets -/

/-- The packet forms of R127. -/
def forms (p : Packet) : List Packet :=
  [p.op 0x00, p.op 0x01, (p.op 0x02).with_ 5 false, (p.op 0x02).with_ 5 true, (p.op 0x03).with_ 4 false, (p.op 0x03).with_ 4 true,
    p.op 0x04, p.op 0x05, p.op 0x06, (p.op 0x07).with_ 5 false, (p.op 0x07).with_ 5 true, p.op 0x08, p.op 0x10, p.op 0x11, p.op 0x12,
    p.op 0x13, p.op 0x20, p.op 0x21, p.op 0x22, p.op 0x23, p.op 0x24, p.op 0x30, p.op 0x31, p.op 0x32, p.op 0x33, p.op 0x40, p.op 0x41,
    p.op 0x42, p.op 0x43, p.op 0x44, p.op 0x50, p.op 0x51, p.op 0x60, p.op 0x61, p.op 0x62, p.op 0x72] ++
  (List.range 7).map (fun k => (p.op 0x70).pattern (k + 1)) ++ (List.range 5).map (fun k => (p.op 0x71).pattern (k + 1))

theorem witness_CommonChecks :
    (up []).alive = true ∧ (up []).isLead = true ∧ (up []).que.tickets = [] ∧
    ((forms { pk with rsv3 := 1 }).all fun p => commonCheck (up []) p == some (.rejFormat, 0x81)) = true ∧
    commonCheck (up []) (pk.op 0x00) = some (.okEmpty, 0x82) ∧ commonCheck (up []) (pk.op 0x51) = some (.rejZeroExtent, 0x83) ∧
    commonCheck State.reset (pk.op 0x04) = some (.rejAuth, 0x84) := by decide

/-- Packets that pass the common checks. -/
def reads : Packet := { pk with payloadLen := 64, p1 := 1 }

theorem witness_ImmediatePackets :
    (up []).alone ∧ (up []).takes ({ pk with payloadLen := 1 }.op 0x00) ∧ (up []).takes ({ pk with payloadLen := 64 }.op 0x01) ∧ (up []).takes (pk.op 0x04) ∧ bits pk.p0 0 6 = (up []).self ∧
    (up []).takes (pk.op 0x06) ∧ (up []).takes ({ pk with p1 := 1 }.op 0x51) ∧ (up []).now ≤ pk.p0 ∧
    (up [(R.MRD_TIME.TIME, 1)]).takes ({ pk with p1 := 1 }.op 0x51) ∧ pk.p0 < (up [(R.MRD_TIME.TIME, 1)]).now ∧
    (∀ w ∈ [800, 3200], (up []).takes ({ pk with p0 := w, p1 := 1 }.op 0x60)) ∧ bitList 64 1 = [(up []).self] ∧
    (∀ k ∈ [1, 5], (up []).takes ({ reads with p1 := k }.op 0x61)) ∧ (up []).takes (pk.op 0x62) ∧
    (up []).takes ({ pk with flags := 16, tenant := 1023 }.op 0x62) ∧ (up []).takes ({ pk with cls := 3, p0 := 0xF00 }.op 0x62) := by
  decide

/-- Packets for the headland, by opcode. -/
def later : List (Nat × Packet) :=
  [(0x24, { pk with p0 := 2 ^ 32 }), (0x30, { pk with p1 := 64 }), (0x31, pk), (0x32, { pk with p2 := 0x1000000000, p3 := 64 }),
    (0x33, { pk with p1 := 64, p2 := 0x1000000000 }), (0x40, { pk with cls := 1, p2 := 1 }), (0x43, pk), (0x44, pk),
    (0x50, { pk with p0 := 1, p2 := 16384, p3 := 1 }), (0x41, { pk with payloadLen := 4 }), (0x42, { pk with payloadLen := 64, p1 := 1 })]

/-- The host of this device has a token ring. -/
def ringed : State := up [(R.QUE_TR_CTRL.ENABLE 0, 1)]

theorem witness_PacketsForTheHeadland : (∀ e ∈ later, ringed.takes (e.2.op e.1)) ∧ ringed.inSchedule = false ∧
    ({ pk with p0 := 1, p2 := 16384, p3 := 1 } : Packet).f4 = false ∧ ∀ no ∈ ringed.srv.deferred, no ≠ ringed.que.nextNo := by decide

/-- A furrow plan image of one PHASE entry. -/
def planBytes : Bytes :=
  let body := leBytes 4 1 ++ leBytes 4 0 ++ leBytes 4 1000 ++ leBytes 20 0
  leBytes 4 0x50575246 ++ leBytes 2 1 ++ leBytes 2 1 ++ leBytes 4 9 ++ leBytes 4 100000 ++ leBytes 4 10000 ++ leBytes 4 50000 ++
    leBytes 4 0x0101 ++ leBytes 4 (crc32c body) ++ leBytes 32 0 ++ body

/-- A step plan image of instance 0 for this device: one list of one MARK descriptor. -/
def stepBytes : Bytes :=
  let body := leBytes 1 0 ++ leBytes 1 0 ++ leBytes 2 0 ++ leBytes 4 1 ++ leBytes 8 128 ++ leBytes 48 0 ++ leBytes 1 0x0A ++ leBytes 63 0
  leBytes 4 0x4E414C50 ++ leBytes 2 1 ++ leBytes 2 1 ++ leBytes 1 0 ++ leBytes 1 1 ++ leBytes 6 0 ++ leBytes 8 0 ++ leBytes 4 (crc32c body) ++
    leBytes 36 0 ++ body

/-- A device with one instance staged, and a step plan image in its stack. -/
def staged0 : State :=
  let s := up [(R.SEC_STATUS.IDENTITY_OK, 1)]
  filled { s with cfg := { s.cfg with instS := [(0, some inst0)], instA := [(0, some inst0)] }, sec := { s.sec with keys := [(1, some (5, 6))] } } stack0 stepBytes

/-- A CFG_STAGE entry for a field. -/
def entryOf (f : Field) (v : Nat) : Bytes :=
  leBytes 8 (windowBase + f.addr) ++ leBytes 8 (v * 2 ^ f.lo) ++ leBytes 8 ((2 ^ f.width - 1) * 2 ^ f.lo)

set_option maxRecDepth 20000 in
theorem witness_StagingPackets :
    staged0.alone ∧ staged0.unsettled = false ∧ staged0.takes ({ pk with payloadLen := 96 }.op 0x11) ∧ planBytes.length = 96 ∧
    staged0.furrowPlanCheck planBytes = none ∧ staged0.furrowPlanCheck (leBytes 96 (2 ^ 48)) = some (.rejFormat, 2) ∧
    staged0.takes (pk.op 0x21) ∧ staged0.takes ({ pk with p0 := 15 }.op 0x21) ∧ (staged0.instance? 0).isSome = true ∧
    (staged0.instance? 15).isSome = false ∧ staged0.cfg.lockCluster = false ∧ staged0.cfg.lockDevice = false ∧
    staged0.takes ({ pk with p1 := stack0, p2 := 192 }.op 0x22) ∧ planWhole (staged0.read stack0 192) = none ∧
    staged0.planCheck 0 (staged0.planView (staged0.read stack0 192)) = none ∧ staged0.instance? 0 = some inst0 ∧
    staged0.takes ((pk.op 0x02).with_ 5 true) ∧ ((pk.op 0x02).with_ 5 true).f4 = false ∧ bits pk.p0 0 6 = staged0.self ∧
    staged0.takes (({ pk with flags := 16 }.op 0x02).with_ 5 true) ∧ (({ pk with flags := 16 }.op 0x02).with_ 5 true).f4 = true ∧
    (∀ e ∈ instList staged0.cfg.instS, e.2.image.unitLocal = []) ∧
    staged0.takes (({ pk with payloadLen := 24, flags := 16 }.op 0x02).with_ 5 false) ∧ (entryOf R.FRW_CTRL.FALLOW_LIMIT 3).length = 24 ∧
    (stageEntries (entryOf R.FRW_CTRL.FALLOW_LIMIT 3)).any entryShape = false ∧
    staged0.stageCheck (({ pk with payloadLen := 24, flags := 16 }.op 0x02).with_ 5 false) (entryOf R.FRW_CTRL.FALLOW_LIMIT 3) none = none ∧
    (staged0.stageEntries (entryOf R.FRW_CTRL.FALLOW_LIMIT 3)).isSome = true ∧
    (∀ e ∈ stageEntries (entryOf R.FRW_CTRL.FALLOW_LIMIT 3), e.2.2 &&& liveMask (e.1 - windowBase) = 0) ∧
    (stageEntries (entryOf R.MRD_STATUS.STATE 3)).any entryShape = true ∧
    (∀ e ∈ [(0, 1), (16, 1)], staged0.takes ({ pk with flags := e.1, p0 := stack0, p1 := 192, p2 := 1, p3 := 1 }.op 0x20) ∧
      { staged0 with cfg := Cfg.reset }.modelCheck ({ pk with flags := e.1, p0 := stack0, p1 := 192, p2 := 1, p3 := 1 }.op 0x20)
        (staged0.read stack0 192) model0 = none) ∧ model0.unitLocal = [] := by
  decide +kernel

/-- A device in the schedule, in furrow 5. -/
def running : State := up [(R.FRW_STATE.STATE, frwRunning), (R.FRW_FURROW_NUM.FURROW_NUM, 5)]

/-- The device with these staged fields. -/
def staging (s : State) (l : List (Nat × Nat)) : State := { s with cfg := { s.cfg with stagedRegs := l } }

/-- CFG_COMMIT, and CFG_COMMIT_CLUSTER for an epoch and a furrow. -/
def commitPk : Packet := (pk.op 0x03).with_ 4 false
def clusterPk (e k : Nat) : Packet := ({ pk with p0 := e, p1 := k }.op 0x03).with_ 4 true

/-- A commit that the lead has decided outside the schedule waits for the next millisecond. -/
def decided : State :=
  let s := holding (up [(R.FRW_STATE.STATE, frwNoPlan)]) (ticket (clusterPk 1 0))
  { s with cfg := { s.cfg with prepared := some ⟨1, 0, true⟩, lead := some ⟨0, 1, 0, [], [], true⟩, lockCluster := true, lockDevice := true }
           frw := { s.frw with staged := some ⟨9, 100000, 10000, 50000, 1, 1, [], []⟩ } }

set_option maxRecDepth 20000 in
theorem witness_Commits :
    (up []).alone ∧ (up []).takes commitPk ∧ running.takes commitPk ∧ bits pk.p2 0 6 = (up []).self ∧ (up []).flt.declared = [] ∧
    (up []).cfg.lockDevice = false ∧ running.idle = false ∧ (up []).idle = true ∧ (up []).unsettled = false ∧
    (staging (up []) [(R.QUE_CTRL.MODE.key, 1)]).commitStands (staging (up []) [(R.QUE_CTRL.MODE.key, 1)]).wouldDevice = true ∧
    fieldOf R.QUE_CTRL.MODE.key = some R.QUE_CTRL.MODE ∧ R.QUE_CTRL.MODE.access = .staged ∧ clusterKey R.QUE_CTRL.MODE.key = false ∧
    scaleRegAt R.QUE_CTRL.MODE.addr = none ∧
    (∀ n, n < 16 → R.QUE_CTRL.MODE ≠ R.TSTORE_GRANARY.SIZE n ∧ R.QUE_CTRL.MODE ≠ R.STACK_REGION_MODE.UNIT_LOCAL n) ∧
    (∀ n, n < 24 → R.QUE_CTRL.MODE ≠ R.LINK_CTRL.ENABLE n ∧ R.QUE_CTRL.MODE ≠ R.LINK_CTRL.MODE n) ∧
    (staging (up [(R.TSTORE_GRANARY.SIZE 0, 0)]) [((R.TILE_KV_POOL_TS.GRANULES 0).key, 1)]).commitStands
      (staging (up [(R.TSTORE_GRANARY.SIZE 0, 0)]) [((R.TILE_KV_POOL_TS.GRANULES 0).key, 1)]).wouldDevice = false ∧
    (up []).takes (clusterPk 1 0) ∧ running.takes (clusterPk 1 7) ∧ running.takes (clusterPk 1 6) ∧ (up []).takes (clusterPk 2 0) ∧
    (up []).get R.CFG_STATUS.ACTIVE_EPOCH = 0 ∧ (up []).commitStands (up []).wouldCluster = true ∧
    running.commitStands running.wouldCluster = true ∧ running.inSchedule = true ∧ running.furrow + 2 ≤ 7 ∧ 6 < running.furrow + 2 := by
  decide +kernel

theorem witness_Commits_takeEffect :
    decided.alive = true ∧ decided.mrdState = mrdUnlocked ∧ decided.inSchedule = false ∧ decided.que.tickets = [ticket (clusterPk 1 0)] ∧
    (clusterPk 1 0).f4 = true ∧ decided.unsettled = false ∧ decided.srv = Srv.reset ∧ decided.cfg.deviceCommit = [] ∧
    decided.flt.declared = [] ∧ decided.flt.rejoin = [] ∧ decided.flt.fatalParts = [] ∧ decided.flt.fatalFar = [] ∧
    decided.frw.staged.isSome = true ∧ decided.frwState = frwNoPlan := by decide

/-- The entry of this device at position 0 of group 0, and its bytes. -/
def ownEntry : FormEntry := ⟨Config.serial, 0, 0, false, true⟩
def ownBytes : Bytes := leBytes 8 Config.serial ++ leBytes 8 0

theorem ownBytes_entries : formEntries ownBytes = [ownEntry] := by
  have h : rd ownBytes 0 8 = Config.serial := (show rd ownBytes 0 8 = ofLe (leBytes 8 Config.serial) from rfl).trans (ofLe_leBytes 8 _ (BitVec.isLt _))
  show [FormEntry.mk (rd ownBytes 0 8) 0 0 false true] = [ownEntry]
  rw [h]; rfl

theorem own_noConflict : (up []).formConflict [ownEntry] = false := by
  have h : (placesOf [ownEntry]).idOf Config.serial = some 0 := by
    show (List.find? (fun e : Nat × Nat => e.2 == Config.serial) [(0, Config.serial)]).map Prod.fst = some 0
    simp only [List.find?_cons, beq_self_eq_true, Option.map_some]
  have hc : (up []).cabled (placesOf [ownEntry]) 0 = true := by decide +kernel
  have ha : ((up []).assigned || !(up []).idle) = false := by decide
  unfold State.formConflict
  simp only [h, hc, ha, Bool.false_or, Bool.not_true]

/-- The device has heard a device of serial `n` on port 0, whose link is UP. -/
def hearing (n : Nat) : State :=
  let s := up [(R.LINK_STATUS.STATE 0, linkUp)]
  { s with flt := { s.flt with heard := [(n, some ⟨n, false, true, false, 0, 0, 0, 0, 0⟩)] } }

/-- REJOIN for a serial, and for an engine. -/
def rejoinPk (serial : Nat) : Packet := ({ pk with p0 := serial }.op 0x07).with_ 5 false
def rejoinEnginePk : Packet := ({ pk with p2 := 15 * 256 + 8 * 4096 }.op 0x07).with_ 5 true

/-- Tile 15 of this device is without its spare engine. -/
def spareless : State := up [(R.TILE_ENGINE_MAP.SPARE 15, 15)]

theorem witness_MembershipPackets :
    (up []).alone ∧ (up []).takes ({ pk with payloadLen := 16 }.op 0x05) ∧ ownBytes.length = 16 ∧ 16 % 16 = 0 ∧
    formEntries ownBytes = [ownEntry] ∧ ownEntry.clean = true ∧ ownEntry.spare = false ∧ (up []).formConflict [ownEntry] = false ∧
    (∃ n ∈ [5, 6], n ≠ Config.serial ∧ (hearing n).alone ∧ (hearing n).takes (rejoinPk n) ∧
      Table.get none n (hearing n).flt.heard = some ⟨n, false, true, false, 0, 0, 0, 0, 0⟩ ∧ (hearing n).portUp 0 = true ∧
      (up []).takes (rejoinPk n) ∧ Table.get none n (up []).flt.heard = none) ∧
    spareless.alone ∧ spareless.takes rejoinEnginePk ∧ bits rejoinEnginePk.p2 0 6 = spareless.self ∧ bits rejoinEnginePk.p2 8 4 = 15 ∧
    bits rejoinEnginePk.p2 12 4 = 8 ∧ (∀ l, l < 8 → bits (spareless.get (R.TILE_ENGINE_MAP.PHYS 15)) (4 * l) 4 ≠ 8) ∧
    spareless.get (R.TILE_ENGINE_MAP.SPARE 15) = 0xF ∧ (spareless.tile 15).bist = none ∧ (spareless.tile 15).regain = none ∧
    (up []).takes ({ pk with p0 := 15 * 256 }.op 0x08) ∧ bits (15 * 256) 0 6 = (up []).self ∧ (up []).users 0 15 = [] := by
  refine ⟨by decide, by decide, ?_, by decide, ownBytes_entries, by decide, by decide, own_noConflict, ?_, by decide +kernel⟩
  · simp only [ownBytes, List.length_append, leBytes_length]
  · by_cases h : Config.serial = 5
    · exact ⟨6, by decide, by omega, by decide +kernel⟩
    · exact ⟨5, by decide, by omega, by decide +kernel⟩

/-- A plan in force. -/
def plan0 : FurrowPlan := ⟨9, 100000, 10000, 50000, 1, 1, [], []⟩

/-- A device that is ready, with a plan, STOPPED. -/
def stopped0 : State :=
  let s := up [(R.FRW_STATE.STATE, frwStopped), (R.GLB_READY.CXL_CFG, 1), (R.GLB_READY.LINKS_OK, 1), (R.GLB_READY.MERIDIAN_OK, 1)]
  { s with frw := { s.frw with active := some plan0 }, flt := { s.flt with startPassed := true } }

/-- The same, ARMED. -/
def armed0 : State := stopped0.put R.FRW_STATE.STATE frwArmed

theorem witness_SchedulePackets :
    (up []).alone ∧ (up []).takes ({ pk with p0 := 3000000 }.op 0x10) ∧ (up []).idle = true ∧
    (∀ t ∈ [99999, 100000], stopped0.takes ({ pk with p0 := t }.op 0x12)) ∧ stopped0.ready = true ∧ stopped0.frw.active.isSome = true ∧
    stopped0.frwState = frwStopped ∧ stopped0.mrd.setTo = [] ∧ stopped0.now + 100000 ≤ 100000 ∧ 99999 < stopped0.now + 100000 ∧
    running.takes ({ pk with p0 := 6 }.op 0x13) ∧ running.inSchedule = true ∧ running.frw.stopAt = none ∧ running.furrow < 6 ∧
    armed0.takes (pk.op 0x13) ∧ armed0.takes ({ pk with flags := 16 }.op 0x13) ∧ armed0.frwState = frwArmed ∧ armed0.frw.stopAt = none ∧
    ({ pk with flags := 16 } : Packet).f4 = true ∧ armed0.furrow ≤ 0 ∧ armed0.frw.startTicket = none ∧ armed0.frw.stopTicket = none ∧
    armed0.stopsAlone := by
  decide

/-- Regions of stack 15 that tests may write, and port 23 UP, port 22 in training. -/
def testable : State :=
  up [(R.STACK_TG_REGIONS.ALLOW 15, 6), (R.LINK_STATUS.STATE 23, linkUp), (R.LINK_STATUS.STATE 22, linkTrain)]

theorem witness_Diagnostics :
    testable.alone ∧ testable.idle = true ∧ bits (15 * 256) 0 6 = testable.self ∧
    (∀ k ∈ [1, 2, 3, 4, 5, 6, 7], testable.takes (({ pk with p0 := 15 * 256, p1 := 1 }.op 0x70).pattern k)) ∧
    (testable.stack 15).traffic = none ∧ (testable.stack 15).training = none ∧ testable.get (R.STACK_TG_REGIONS.ALLOW 15) ≠ 0 ∧
    (∀ k ∈ [1, 2, 3, 4, 5], testable.takes (({ pk with p0 := 23 * 256, p1 := 1 }.op 0x71).pattern k)) ∧ testable.peerRuns 23 = false ∧
    (testable.link 23).test = none ∧ testable.portUp 23 = true ∧ testable.coll.opened = [] ∧ (testable.link 23).rx = none ∧ testable.noColl ∧
    testable.takes (({ pk with p0 := 22 * 256, p1 := 1 }.op 0x71).pattern 3) ∧ testable.peerRuns 22 = false ∧
    testable.portUp 22 = false ∧ testable.get (R.LINK_STATUS.STATE 22) ≠ linkDown ∧ testable.get (R.LINK_STATUS.STATE 22) ≠ linkTest ∧
    testable.takes ({ pk with p0 := 0xFFFF * 65536, payloadLen := 64 }.op 0x72) ∧ testable.flt.selftest = none ∧
    (∀ k ∈ bitList 16 0xFFFF, testable.usedBy testable.cfg.instA k = [] ∧ testable.usedBy testable.cfg.instS k = []) := by
  decide +kernel

/-- Tests in progress on stack 15, port 23 and two partitions, for the packet that holds ticket 0. -/
def testing : State :=
  let s := holding (up [(R.LINK_STATUS.STATE 23, linkTest)]) (ticket (pk.op 0x70))
  (s.modStack 15 fun k => { k with traffic := some ⟨5, 6, 1, 0⟩ }).modLink 23 fun l => { l with test := some ⟨1, 0⟩ }

/-- Training of stack 15, and a self-test of partitions 0 and 15. -/
def judging : State :=
  let s := holding (up []) (ticket (pk.op 0x72))
  { s.modStack 15 fun k => { k with training := some 0 } with flt := { s.flt with selftest := some (0, 0x8001) } }

theorem witness_Diagnostics_ends :
    testing.alive = true ∧ testing.que.tickets = [ticket (pk.op 0x70)] ∧ judging.alive = true ∧ judging.que.tickets = [ticket (pk.op 0x72)] ∧
    (testing.stack 15).traffic = some ⟨5, 6, 1, 0⟩ ∧ (judging.stack 15).traffic = none ∧
    ((testing.modStack 15 fun k => { k with traffic := some ⟨1, 0, 1, 0⟩ }).stack 15).traffic = some ⟨1, 0, 1, 0⟩ ∧
    (testing.link 23).test = some ⟨1, 0⟩ ∧ testing.get (R.LINK_STATUS.STATE 23) = linkTest ∧ (judging.stack 15).training = some 0 ∧
    (judging.stack 15).queue = [] ∧ judging.flt.selftest = some (0, 0x8001) ∧ ∀ k, k < 16 → (judging.stack k).queue = [] := by
  decide

/-- A member of a cluster whose lead it hears on port 0. -/
def member : State :=
  let s := up [(R.GLB_DEVPOS.ASSIGNED, 1), (R.GLB_DEVPOS.POSITION, 1), (R.GLB_MEMBER_STATE.STATE, 1), (R.GLB_MEMBERSHIP.EPOCH, 1),
    (R.GLB_PEER_EPOCH.EPOCH 0, 1), (R.GLB_PEER_EPOCH.EPOCH 1, 1), (R.LINK_STATUS.STATE 0, linkUp), (R.LINK_STATUS.PEER_VALID 0, 1),
    (R.FRW_STATE.STATE, frwRunning), (R.FRW_FURROW_NUM.FURROW_NUM, 5)]
  { s with flt := { s.flt with groupSize := [(0, 2)], serials := [(0, 100), (1, 101)], leadDevice := some 0 } }

/-- A message of the lead. -/
def fromLead (b : CtrlBody) : CtrlMsg := ⟨0, 1, 3, 1, b⟩

theorem witness_DiagnosticsRefused :
    running.alive = true ∧ running.frwState ≠ frwNoPlan ∧ running.frwState ≠ frwStopped ∧ bits (0 : Nat) 0 6 = running.self ∧
    (∀ k ∈ [1, 2, 3, 4, 5, 6, 7], running.takes (({ pk with p1 := 1 }.op 0x70).pattern k)) ∧
    (∀ k ∈ [1, 2, 3, 4, 5], running.takes (({ pk with p1 := 1 }.op 0x71).pattern k)) ∧
    running.takes ({ pk with p0 := 0x10000, payloadLen := 64 }.op 0x72) ∧
    (∀ k ∈ [0x70, 0x71, 0x72], member.takesMessage 0 (fromLead (.fwdCmd (pk.op k) none none)) ∧ (pk.op k).opcode ∈ [0x70, 0x71, 0x72]) ∧
    member.que.tickets = [] ∧ member.isFenced = false ∧ (member.route 0).isSome = true := by
  decide

/-! ### Registers that software writes -/

/-- An instance that runs on tile 15 of this device. -/
def inst15 : Inst := { inst0 with plan := some ⟨1, [], [(0, 15)], []⟩ }

/-- A device in the schedule with that instance. -/
def busy15 : State := { running with cfg := { running.cfg with instA := [(0, some inst15)] } }

/-- Tile 15 has a direct list of one descriptor in the control cores' SRAM. -/
def listed : State := dev [(R.TILE_DIRECT_LIST.COUNT 15, 1), (R.TILE_DIRECT_LIST.ADDR 15, sramBase / 64 + 0x3FFFF)]

/-- Instance 15 is degraded. -/
def degraded : State := dev [(R.GLB_INST_HEALTH.STATE 15, healthDegraded), (R.TILE_ENGINE_MAP.DOUBLED 3, 1)]

theorem witness_SoftwareControls :
    State.reset.alive = true ∧ State.reset.idle = true ∧ busy15.alive = true ∧ busy15.idle = false ∧ busy15.usedBy busy15.cfg.instA 15 ≠ [] ∧
    busy15.usedBy busy15.cfg.instA 14 = [] ∧ listed.alive = true ∧ listed.get (R.TILE_SEQ_CTRL.MODE 15) ≠ 0 ∧ listed.seqState 15 = seqIdle ∧
    15 ∉ listed.flt.heldParts ∧ 0 < listed.get (R.TILE_DIRECT_LIST.COUNT 15) ∧ sramBase ≤ listed.get (R.TILE_DIRECT_LIST.ADDR 15) * 64 ∧
    listed.get (R.TILE_DIRECT_LIST.ADDR 15) * 64 + 64 * listed.get (R.TILE_DIRECT_LIST.COUNT 15) ≤ sramBase + 0x1000000 ∧
    degraded.isSet (R.TILE_ENGINE_MAP.DOUBLED 3) = true ∧ degraded.isSet (R.TILE_ENGINE_MAP.DOUBLED 15) = false ∧ degraded.isLead = true ∧
    degraded.health 15 = healthDegraded ∧ degraded.doubledTile 15 = false ∧ State.reset.health 15 ≠ healthDegraded := by decide

/-- The event log of this device holds entry 7. -/
def logged : State := { up [] with mgt := { Mgt.reset with evlog := [(7, some (evEntryBytes 7 (State.reset.record (evVrAlert 2))))] } }

set_option maxRecDepth 20000 in
theorem witness_RegisterWrites :
    let f := R.TSTORE_ATOM_DATA.VALUE 15 3
    (up []).alive = true ∧ (up []).hostReaches = true ∧ (up []).isSet R.GLB_READY.BOOT_OK = true ∧ f.addr % 8 = 0 ∧ writable f.addr = true ∧
    inQue f.addr = false ∧ (up []).protBlock f.addr = none ∧ regAction f.addr = .plain ∧ fieldsAt f.addr = [f] ∧ f.access = .live ∧
    0 < f.width ∧ f.lo + f.width ≤ 64 ∧ (up []).get f < 2 ^ f.width ∧
    (dev [(R.CXLU_STATUS.LINK_UP, 1)]).isSet R.GLB_READY.BOOT_OK = false ∧ writable R.MRD_TIME.TIME.addr = false ∧
    logged.pins.sysRstN = true ∧ logged.pins.railsOn = true ∧ logged.hostReaches = true ∧ logged.isSet R.GLB_READY.BOOT_OK = true ∧
    (logged.evEntry 7).isSome = true ∧ (up []).isLead = true ∧ (up []).isSet (R.QUE_SQ_CTRL.ENABLE 15) = false ∧
    bits 1 (R.QUE_SQ_CTRL.ENABLE 15).lo 1 = 1 ∧ (up [(R.QUE_SQ_CTRL.ENABLE 0, 1)]).isSet (R.QUE_SQ_CTRL.ENABLE 0) = true := by
  decide +kernel

/-- Core 3's window of tile 15 names a word of stack 15 whose line is in the Granary. -/
def cached : State :=
  let s := dev [(R.TSTORE_ATOM_ADDR.ADDR 15 3, stackBase 15 + 64), (R.TSTORE_ATOM_STATUS.DONE 15 3, 1),
    (R.TSTORE_ATOM_DATA.VALUE 15 3, 0x00010001), (R.TSTORE_ATOM_CMP.VALUE 15 3, 5)]
  s.setGset 15 (setOf (stackBase 15 + 64)) ⟨[(31, some (stackBase 15 + 64, false))], []⟩

theorem witness_Atomics :
    let a := cached.get (R.TSTORE_ATOM_ADDR.ADDR 15 3)
    cached.alive = true ∧ cached.isSet (R.TSTORE_ATOM_STATUS.DONE 15 3) = true ∧ cached.cacheHome a = some 15 ∧ a % 4 = 0 ∧ a % 8 = 0 ∧
    (cached.gset 15 (setOf (a / 64 * 64))).find (a / 64 * 64) = some 31 ∧
    (0xFFFF < 2 ^ 16 ∧ 0xFFFE + 1 < 2 ^ 16 ∧ 2 ^ 16 ≤ 0xFFFF + 1 ∧ 1 ≤ 1 ∧ 0 < 1) := by decide

/-- A descriptor of a type, with numbers at byte offsets. -/
def descOf (ty : Nat) (fs : List (Nat × Nat)) : Bytes := leBytes 64 (ty + (fs.map fun e => e.2 * 2 ^ (8 * e.1)).sum)

/-- A descriptor in its queue. -/
def queued (d : Bytes) : Queued := ⟨d, 0, 0, 0, 0, false, false, none, []⟩

/-- A tile whose sequencer is in a state, with a list. -/
def tiled (n st : Nat) (l : List Bytes) : State := ((up []).setSeq n st).modTile n fun t => { t with list := l }


/-- Scratchpad memory of a tile. -/
def scratch (n k : Nat) : Nat := 0x100000000 + n * 0x2000000 + k

/-- A vector descriptor of one row of one FP32 value, its streams apart from each other. -/
def vecDesc (n op nin : Nat) : Bytes :=
  descOf tVec ([(16, 0xC0 + op), (17, nin), (20, 1), (42, scratch n 0x3000), (48, 1)] ++
    (List.range nin).map fun k => (24 + 6 * k, scratch n (0x1000 * k)))

/-- Whether the memories let accesses pass and leave a device as it is. -/
def goes (s : State) : State × Verdict → Bool
  | (t, .go) => decide (t = s)
  | _ => false

/-- A matrix descriptor of one K-block, one lane and eight columns of kind 5 that writes nothing out. -/
def matDesc (n : Nat) : Bytes :=
  descOf tMatmul [(16, n * 0x10000000 + 0x400000), (22, 1), (24, scratch n 0x1000), (30, scratch n 0x3000), (36, 5 + 16 * 3), (38, 8 + 512),
    (40, stack0)]

/-- A failed step elsewhere, told to a tile. -/
def noticed (n st : Nat) : State := (tiled n st []).modTile n fun t => { t with notice := true }

theorem witness_SequencerWork :
    (∀ n ∈ [0, 15], ∀ d ∈ [descOf tMatmul [], descOf (tMatmul + 7 * 16) [], vecDesc n 1 1, descOf tAttend [], descOf tSample [], descOf tXfer [],
        descOf tColl [], descOf tNbu []],
      (tiled n seqRun [d]).alive = true ∧ (tiled n seqRun [d]).nextDesc n = some d ∧ (queueOf d).isSome = true ∧
      (tiled n seqRun [d]).issuing n = true ∧ (tiled n seqRun [d]).seqState n = seqRun ∧
      ∀ q ∈ queueOf d, ((tiled n seqRun [d]).queue n q).length < queueDepth q) ∧
    (tiled 3 seqDirect [vecDesc 3 1 1]).issuing 3 = true ∧ (tiled 3 seqDirect [vecDesc 3 1 1]).seqState 3 = seqDirect ∧
    (tiled 3 seqDirect [vecDesc 3 1 1]).directBad 3 (vecDesc 3 1 1) = false ∧
    (∀ e ∈ [(tWait, 1, 0), (tWait, 1, 1), (tWait, 2, 0), (tHint, 0, 0), (tMark, 0, 0)],
      (tiled 3 seqRun [descOf e.1 [(16, e.2.1), (20, e.2.2)]]).nextDesc 3 = some (descOf e.1 [(16, e.2.1), (20, e.2.2)]) ∧
      (tiled 3 seqRun [descOf e.1 [(16, e.2.1), (20, e.2.2)]]).issuing 3 = true) ∧
    (let d := descOf tWait [(16, 1)]
     let s := tiled 3 seqRun [d]
     D.type d = tWait ∧ D.wMode d = 1 ∧ s.now = s.get R.FRW_START_TIME.START_TIME + D.wOffset d ∧ (s.tile 3).waiting = false ∧
     ({ s with mrd := s.mrd }.put R.MRD_TIME.TIME 1).now = 1) ∧
    (let d := descOf tWait [(16, 1), (20, 1)]
     let s := tiled 3 seqRun [d]
     D.type d = tWait ∧ D.wMode d = 1 ∧ s.now < s.get R.FRW_START_TIME.START_TIME + D.wOffset d) ∧
    (let d := descOf tWait [(16, 1)]
     let s := (tiled 3 seqRun [d]).put R.MRD_TIME.TIME 1
     s.get R.FRW_START_TIME.START_TIME + D.wOffset d < s.now ∧ (s.tile 3).waiting = false) ∧
    (let d := descOf tWait [(16, 2)]
     let s := tiled 3 seqRun [d]
     D.type d = tWait ∧ D.wMode d = 2 ∧ D.wValue d ≤ s.event 3 (D.wCtr d)) ∧
    (let d := descOf tWait [(16, 2), (28, 1)]
     let s := tiled 3 seqRun [d]
     D.type d = tWait ∧ D.wMode d = 2 ∧ s.event 3 (D.wCtr d) < D.wValue d) ∧
    (∀ n ∈ [0, 15], (noticed n seqRun).alive = true ∧ ((noticed n seqRun).tile n).notice = true ∧ (noticed n seqRun).owes n = true ∧
      (noticed n seqRun).seqState n ≠ seqSkip ∧ (noticed n seqSkip).seqState n = seqSkip ∧ ((noticed n seqSkip).tile n).notice = true ∧
      (noticed n seqDone).owes n = false ∧ ((noticed n seqDone).tile n).notice = true) := by
  decide +kernel

/-- The operations of the vector engine: their codes and their inputs. -/
def vecCodes : List (Nat × Nat) :=
  [(0x01, 1), (0x02, 2), (0x03, 2), (0x04, 2), (0x05, 3), (0x06, 1), (0x07, 2), (0x08, 2), (0x09, 2), (0x0a, 2), (0x10, 1), (0x11, 1),
    (0x12, 1), (0x18, 1), (0x19, 2), (0x1a, 2), (0x1c, 2), (0x1d, 3), (0x20, 1), (0x21, 1), (0x22, 1), (0x24, 2), (0x25, 1), (0x26, 1),
    (0x28, 1), (0x29, 1), (0x2a, 1), (0x2c, 2), (0x2d, 2)]

/-- A vector operation at the head of its queue, its scalar A naming scratchpad memory. -/
def vecHead (n : Nat) (c : Nat × Nat) : Queued := { queued (vecDesc n c.1 c.2) with scalarA := scratch n 0x4000 }
def vecAt (n : Nat) (c : Nat × Nat) : State := (tiled n seqRun [(vecHead n c).desc, (vecHead n c).desc]).setQueue n 8 [vecHead n c]


theorem witness_VectorEngine :
    ∀ n ∈ [0, 15], ∀ c ∈ vecCodes,
      let s := vecAt n c
      let h := vecHead n c
      let u := (s.memReport srcVector noErr).wrapAdd (R.TILE_VEC_STALLS.OPERAND_STALLS n) 2
      s.alive = true ∧ s.runnable n 8 tVec = some h ∧ D.vLength h.desc ≠ 0 ∧ (u.seqState n == seqDirect && vecOverlap h.desc) = false ∧
        (s.seqState n == seqDirect && vecOverlap h.desc) = false ∧
        (∀ x ∈ u.vecAccs h, inScratch n x.addr x.len = true ∨ inTileStore n x.addr x.len = true) ∧
        (∀ x ∈ s.vecAccs h, inScratch n x.addr x.len = true ∨ inTileStore n x.addr x.len = true) ∧
        goes u (u.gate n (u.tile n).inst (u.vecAccs h)) = true ∧ goes s (s.gate n (s.tile n).inst (s.vecAccs h)) = true ∧ vCode h.desc = c.1 := by
  decide +kernel

/-- A plot of kind 5 with one group, all of whose weights are zero. -/
def plot5 : Bytes :=
  let b := leBytes 2 0x4C50 ++ leBytes 1 5 ++ leBytes 2 0 ++ leBytes 1 1 ++ leBytes 2 512 ++ leBytes 20 0
  b ++ leBytes 4 (crc32c (b ++ leBytes 32 0 ++ leBytes 512 0)) ++ leBytes 544 0

/-- A tile with a MATMUL at the head of matrix queue 7, and its weights. -/
def matHead (n : Nat) : Queued := queued (matDesc n)
def matAt (n : Nat) (h : Queued) : State :=
  let s := tiled n seqRun [h.desc, h.desc]
  (filled s (n * 0x10000000 + 0x400000) plot5).setQueue n 7 [h]

/-- A MATMUL that adds a chain link and writes it out, waiting for the link; and one that writes out. -/
def chainHead (n : Nat) : Queued :=
  { queued (descOf tMatmul [(0, 7 * 16), (22, 1), (30, scratch n 0x3000), (36, 5 + 16 * 3), (37, 128), (38, 8 + 512), (54, scratch n 0x4000)]) with
    waiting := true }
def outHead (n : Nat) : Queued := queued (descOf tMatmul [(0, 7 * 16), (22, 1), (30, scratch n 0x3000), (36, 5 + 16 * 3), (37, 128), (38, 8 + 512)])

/-- No K-block; and a damaged plot whose master copy comes. -/
def noBlocks : Queued := queued (descOf tMatmul [(0, 7 * 16)])
def refetching (n : Nat) : Queued := { matHead n with refetch := some (n * 0x10000000 + 0x400000, stack0 + n * 0xC00000000) }
def refetchAt (n : Nat) : State :=
  let s := tiled n seqRun [matDesc n, matDesc n]
  (filled s (stack0 + n * 0xC00000000) plot5).setQueue n 7 [refetching n]

/-- A report of an engine without faults. -/
def calm : EngineReport := ⟨1, 1, 1, 0⟩

set_option maxRecDepth 20000 in
theorem witness_MatrixEngines :
    (∀ n ∈ [0, 15],
      let s := matAt n (matHead n)
      let d := (matHead n).desc
      let v := (s.memReport srcMatrix noErr).engineCounts n 7 calm
      let z := v.setSlot n 7 (D.mSlot d) Slot.clear
      s.alive = true ∧ s.runnable n 7 tMatmul = some (matHead n) ∧
      ((s.modTile n fun t => { t with stale := [7] }).runnable n 7 tMatmul = some (matHead n) ∧
        (s.modTile n fun t => { t with stale := [7] }).isStale n 7 = true) ∧
      s.isStale n 7 = false ∧ s.engineFree n 7 (matHead n) = true ∧ D.mKBlocks d ≠ 0 ∧ v.passes d = [(n * 0x10000000 + 0x400000, stack0, [0])] ∧
      calm.fault = 0 ∧ matmulPlaces n d = true ∧ (matHead n).resume = 0 ∧ D.mOutlier d = 0 ∧ D.mChain d = 0 ∧ D.mWriteOut d = false ∧
      goes v (v.gate n (s.tile n).inst (matmulRanges d false)) = true ∧ D.mAcc d = false ∧
      (match (z.passWalk n 7 d (n * 0x10000000 + 0x400000) 0).stop with | .done => true | _ => false) = true ∧
      0 < ceilDiv (D.mColumns d) (kindN (D.mWfmt d))) ∧
    (∀ n ∈ [0, 15],
      (matAt n noBlocks).runnable n 7 tMatmul = some noBlocks ∧ (matAt n noBlocks).engineFree n 7 noBlocks = true ∧ D.mKBlocks noBlocks.desc = 0) := by
  decide +kernel

set_option maxRecDepth 20000 in
theorem witness_MatrixEngines_others :
    ∀ n ∈ [15],
      (let s := matAt n (chainHead n)
       let d := (chainHead n).desc
       let v := (s.memReport srcMatrix noErr).engineCounts n 7 calm
       s.queue n 7 = [chainHead n] ∧ (chainHead n).waiting = true ∧ D.type d = tMatmul ∧ s.depHolds n d 1 = true ∧
         goes v (v.gate n (s.tile n).inst [⟨D.mChain d, regionBytes (D.mLanes d) (D.mColumns d) false, false⟩]) = true) ∧
      (let s := matAt n (outHead n)
       let d := (outHead n).desc
       s.queue n 7 = [outHead n] ∧ D.type d = tMatmul ∧ D.mWriteOut d = true ∧ (outHead n).refetch = none ∧ (outHead n).waiting = false ∧
         s.depHolds n d 0 = true ∧ s.depHolds n d 1 = true) ∧
      (let s := refetchAt n
       let a := n * 0x10000000 + 0x400000
       let m := stack0 + n * 0xC00000000
       let len := P.size (s.read m 32)
       s.queue n 7 = [refetching n] ∧ (refetching n).refetch = some (a, m) ∧ a ≠ D.mOutlier (refetching n).desc ∧
         (s.passRange m len false).masterCause n 7 (refetching n) a m len = none) := by
  decide +kernel

/-- An ATTEND of one KV head, with its lane table of one generation lane at position 0; and the device that runs it. -/
def attHead (n : Nat) : Queued :=
  queued (descOf tAttend [(18, 1), (20, 32), (22, 0x80), (24, scratch n 0x10000), (30, scratch n 0x20000), (36, scratch n 0x30000),
    (42, scratch n 0x40000)])
def laneTable (n : Nat) (s : State) : State :=
  ((s.writeNat (scratch n 0x40004) 1 1).writeNat (scratch n 0x40026) 6 (stack0 + n * 0xC00000000)).writeNat (scratch n 0x41008) 6 (scratch n 0x60000)
def attAt (n : Nat) : State := laneTable n ((tiled n seqRun [(attHead n).desc, (attHead n).desc]).setQueue n 9 [attHead n])

/-- The same once its partial is there. -/
def mergeHead (n : Nat) : Queued := { attHead n with started := true, waiting := true }
def mergeAt (n : Nat) : State :=
  (laneTable n ((tiled n seqRun [(attHead n).desc, (attHead n).desc]).setQueue n 9 [mergeHead n])).writeNat (scratch n 0x60000) 8 0x100000000

set_option maxRecDepth 20000 in
theorem witness_AttentionAndSampling_attend :
    ∀ n ∈ [0, 15],
      (let s := attAt n
       let h := attHead n
       let u := s.attendReport n 3 0x80 [(7, calm)] noErr
       s.alive = true ∧ s.runnable n 9 tAttend = some h ∧ (s.attendLanes h.desc).length = 1 ∧ s.tableBad h.desc = false ∧
       (∀ e ∈ bitList 8 (D.aEngineMask h.desc), s.queue n e = []) ∧ calm.fault = 0 ∧ D.aEngineMask h.desc = 0x80 ∧
       (∀ x ∈ u.attendAccs h.desc, inScratch n x.addr x.len = true) ∧ goes u (u.gate n (s.tile n).inst (u.attendAccs h.desc)) = true ∧
       goes u (u.gate n (s.tile n).inst (u.attendReads h.desc (s.headsOf (s.tile n).inst))) = true) ∧
      (let s := mergeAt n
       let h := mergeHead n
       let t := s.tileRec (D.aLaneTable h.desc)
       s.alive = true ∧ s.queue n 9 = [h] ∧ h.waiting = true ∧ D.type h.desc = tAttend ∧
       ((s.attendLanes h.desc).filter fun e => e.1 % L.shares t == L.shareIndex t).length = 1 ∧
       s.mergeReady n h.desc t (s.headsOf (s.tile n).inst) 0 = true) := by
  decide +kernel

/-- A SAMPLE of one lane and one token, and the device that runs it. -/
def samHead (n final : Nat) : Queued :=
  queued (descOf tSample [(16, scratch n 0x10000), (26, 1), (30, scratch n 0x20000), (36, 1), (37, final), (38, scratch n 0x40000)])
def samAt (n final : Nat) : State :=
  let s := (tiled n seqRun [(samHead n final).desc, (samHead n final).desc]).setQueue n 10 [samHead n final]
  (((s.writeNat (scratch n 0x40808) 4 0x3F800000).writeNat (scratch n 0x40810) 4 0x3F800000).writeNat (scratch n 0x40848) 1 1).writeNat
    (scratch n 0x10000) 4 0x3F800000

set_option maxRecDepth 20000 in
theorem witness_AttentionAndSampling_sample :
    ∀ n ∈ [0, 15], ∀ f ∈ [0, 1],
      let s := samAt n f
      let h := samHead n f
      let u := s.memReport srcDrill noErr
      let owned := s.ownedLanes (s.tile n).inst h.desc
      s.alive = true ∧ s.runnable n 10 tSample = some h ∧ D.sVocabCount h.desc ≠ 0 ∧ goes u (u.gate n (s.tile n).inst (u.listAccs h.desc)) = true ∧
      S.active (s.samplingRecord (D.sLaneTable h.desc) 0) = true ∧ s.recordWhole (s.samplingRecord (D.sLaneTable h.desc) 0) = true ∧
      D.sLanes h.desc = 1 ∧ owned = [0] ∧ D.sFinal h.desc = (f == 1) ∧
      (∀ l ∈ ([[⟨D.sLogit h.desc, 4 * D.sLanes h.desc * D.sVocabCount h.desc, false⟩, ⟨D.sLaneTable h.desc + 0x800, 0x800, false⟩,
            ⟨D.sCand h.desc, 576 * D.sLanes h.desc, true⟩],
          [⟨D.sCand h.desc, 576 * D.sVocabCount h.desc * owned.length, false⟩, ⟨D.sLaneTable h.desc + 0x800, 0x800, false⟩,
            ⟨D.sLogit h.desc, 16 * D.sLanes h.desc, true⟩]] : List (List Acc)),
        (∀ x ∈ l, inScratch n x.addr x.len = true) ∧ goes u (u.gate n (s.tile n).inst l) = true) := by
  decide +kernel

/-- An XFER of 128 bytes, from a stack or by a list of addresses there, to a scratchpad. -/
def xferDesc (n kind : Nat) : Bytes :=
  descOf tXfer [(16, stack0 + n * 0xC00000000), (22, scratch n 0x1000), (28, 128), (32, kind), (34, 64), (38, 64), (42, 64)]
def xferAt (n u kind : Nat) : State := (tiled n seqRun [xferDesc n kind, xferDesc n kind]).setQueue n (11 + u) [queued (xferDesc n kind)]

theorem witness_Movers :
    (∀ n ∈ [0, 15], ∀ u ∈ [0, 3], ∀ k ∈ [1, 2, 3, 4],
      let s := xferAt n u k
      let d := xferDesc n k
      let v := s.memReport srcMover noErr
      s.alive = true ∧ s.runnable n (11 + u) tXfer = some (queued d) ∧ D.xBytes d ≠ 0 ∧ noErr.errors = [] ∧
      (k ≠ 3 → goes v (v.gate n (s.tile n).inst (s.xferAccs d)) = true) ∧ D.xKind d = k ∧ D.xElem d ≠ 0 ∧
      ∀ r ∈ s.xferRuns d, s.poisoned r.1 r.2.2 = false) ∧
    (let s := (xferAt 15 3 3).writeNat (stack0 + 15 * 0xC00000000) 16 (stack0 * (2 ^ 64 + 1))
     let v := s.memReport srcMover noErr
     goes v (v.gate 15 (s.tile 15).inst (s.xferAccs (xferDesc 15 3))) = true) := by
  decide +kernel

theorem witness_Movers_move : (∀ a, (up []).violated (some 15) a = none) ∧ (64 : Nat) ≠ 0 ∧ 0xF00000000 - 64 < 0xF00000000 ∧
    0xF00000000 - 64 + 64 ≤ 0xF00000000 := by
  refine ⟨fun a => ?_, by decide, by decide, by decide⟩
  have h : ∀ n, (up []).prot n = false := fun n => by
    show bit ((up []).get R.SEC_PROT.PARTITIONS) n = false
    rw [show (up []).get R.SEC_PROT.PARTITIONS = 0 by decide]
    simp [bit]
  simp only [State.violated, h]
  rw [show (Option.filter (fun _ => false) ((up []).owner a)) = none by cases (up []).owner a <;> rfl]
  rfl

/-- A COLL of slot 5, and the device of a group of two that runs it in a step with that slot. -/
def collHead (n bytes src : Nat) : Queued := queued (descOf tColl [(16, 5), (20, src), (26, scratch n 0x20000), (32, bytes), (37, 3)])
def slot5 (op argB : Nat) : PlanEntry := ⟨2, 0, 0, 5, 1000, 1000, 1, argB, op⟩
def collAt (n op argB bytes src : Nat) : State :=
  let h := collHead n bytes src
  let s := (tiled n seqRun [h.desc, h.desc]).setQueue n 15 [h]
  let s := s.put R.FRW_STATE.STATE frwRunning
  { s with frw := { s.frw with active := some ⟨9, 100000, 10000, 50000, 1, 1, [slot5 op argB], []⟩, stepOpen := true },
           flt := { s.flt with groupSize := [(0, 2)] } }

theorem witness_Collectives :
    (∀ n ∈ [0, 15], ∀ op ∈ [1, 2, 3, 4, 5, 6], ∀ e ∈ [(0, 1024, scratch n 0x10000), (64, 0, scratch n 0x10000), (64, 1024, scratch n 0x10000), (64, 1024, 0)],
      let s := collAt n op e.1 e.2.1 e.2.2
      let h := collHead n e.2.1 e.2.2
      let u := (s.memReport srcMesh noErr).setHead n 15 { h with started := true }
      let len := D.cBytes h.desc * (if op = 1 ∨ op = 3 ∨ op = 5 then (s.slotIndices (slot5 op e.1)).getLast?.getD 0 + 1 else 1)
      s.alive = true ∧ s.runnable n 15 tColl = some h ∧ s.slotEntry (s.tile n).template (D.cSlot h.desc) = some (slot5 op e.1) ∧ h.started = false ∧
      (slot5 op e.1).argB = e.1 ∧ D.cBytes h.desc = e.2.1 ∧ D.cSrc h.desc = e.2.2 ∧
      (e.2.2 ≠ 0 → u.poisoned (D.cSrc h.desc) len = false ∧ goes u (u.gate n (s.tile n).inst [⟨D.cSrc h.desc, len, true⟩]) = true)) ∧
    (∀ argB ∈ [0, 64], (collAt 0 1 argB 1024 0).slotEntry ((collAt 0 1 argB 1024 0).get R.FRW_LATE.TEMPLATE) 5 = some (slot5 1 argB) ∧
      (collAt 0 1 argB 1024 0).frwState = frwRunning ∧ 5 ∉ (collAt 0 1 argB 1024 0).coll.opened ∧ (collAt 0 1 argB 1024 0).frw.stepOpen = true) := by
  decide +kernel

/-- A plot of kind 7 with one group, all of whose weights are zero. -/
def plot7 : Bytes :=
  let b := leBytes 2 0x4C50 ++ leBytes 1 7 ++ leBytes 2 0 ++ leBytes 1 1 ++ leBytes 2 512 ++ leBytes 20 0
  b ++ leBytes 4 (crc32c (b ++ leBytes 160 0 ++ leBytes 512 0)) ++ leBytes 672 0

/-- The sequence of a near-bank unit: two atoms of one plot each, in slot 3, the first with these flags. -/
def nbSeq (flags : Nat) : Bytes :=
  leBytes 64 (0x5351424E + 2 ^ 32 + 2 * 2 ^ 48 + 2 ^ 80 + 4 * 2 ^ 96 + 7 * 2 ^ 112) ++ leBytes 64 (0x400 + 2 ^ 48 + (3 + flags) * 2 ^ 56) ++
    leBytes 64 (0x400 + 2 ^ 48 + 3 * 2 ^ 56) ++ leBytes 832 0 ++ plot7

/-- An NBU descriptor for units 0 and 1, and the device that runs it: its units idle, or at their first atom in a phase. -/
def nbDesc (n : Nat) : Bytes :=
  descOf tNbu [(16, stack0 + n * 0xC00000000), (22, 0), (23, 2), (24, 1), (26, scratch n 0x10000), (32, scratch n 0x20000), (38, 2)]
def nbHead (n : Nat) (w : Bool) : Queued := { queued (nbDesc n) with started := w, waiting := w }
def unit0 (ph : Nat) : NbUnit := ⟨List.replicate 2048 0, 1, 4, 7, 2, 0, ph, []⟩
def nbAt (n flags : Nat) (w : Bool) : State :=
  let s := (tiled n seqRun [nbDesc n, nbDesc n]).setQueue n 16 [nbHead n w]
  let s := s.put (R.STACK_REGION_MODE.UNIT_LOCAL n) 1
  filled s (stack0 + n * 0xC00000000) (nbSeq flags)
def nbStart (n : Nat) : State :=
  let s := nbAt n 0 false
  s.write (stack0 + n * 0xC00000000 + 2 ^ 24) (nbSeq 0)
def nbRun (n ph flags : Nat) : State := ((nbAt n flags true).setUnit n 0 (some (unit0 ph))).setUnit n 1 (some (unit0 0))

set_option maxRecDepth 40000 in
theorem witness_NearBankUnits :
    ∀ n ∈ [15],
      (let s := nbStart n
       let h := nbHead n false
       let v := s.memReport srcMover noErr
       s.alive = true ∧ s.runnable n 16 tNbu = some h ∧ nbUnits h.desc = [0, 1] ∧
       (∀ u ∈ nbUnits h.desc, s.unit n u = none ∧ (match s.unitStart n h.desc u with | .ok _ => true | .error _ => false) = true) ∧
       D.nAtoms h.desc ≠ 0 ∧ s.unitLocal (D.nProg h.desc) = true ∧ inScratch n (D.nOut h.desc) 1 = true ∧
       goes v (v.gate n (s.tile n).inst (s.nbuAccs h.desc)) = true) ∧
      (let s := nbRun n 0 0
       let h := nbHead n true
       let a := s.atomAt h.desc 0 (unit0 0)
       s.queue n 16 = [h] ∧ s.unit n 0 = some (unit0 0) ∧ h.waiting = true ∧ 0 ∈ nbUnits h.desc ∧ 0 ∉ (s.stack n).inAtom ∧
       atomWhole a (0 == D.nFirst h.desc) (0 + 1 == D.nFirst h.desc + D.nCount h.desc) = true ∧ bit (rd a 7 1) 4 = false ∧
       bit (rd a 7 1) 5 = false ∧ rd a 0 6 < 2 ^ 24 ∧ 0 < ceilDiv 4 (kindN 7) ∧
       (s.atomPlots (unit0 0) (D.nLanes h.desc) (fld a 6 1 0 4) (sequenceAt h.desc 0 / 2 ^ 24 * 2 ^ 24 + rd a 0 6)
         ⟨{ NbRun.start with group := rd a 8 2 * ceilDiv 4 (kindN 7) }, Slot.clear, none⟩).fail = none) ∧
      (let s := ((nbRun n 1 (0x60)).modStack n fun t => { t with shadows := [(3, some Slot.clear)] })
       let h := nbHead n true
       let a := s.atomAt h.desc 0 (unit0 1)
       s.queue n 16 = [h] ∧ s.unit n 0 = some (unit0 1) ∧ fld a 7 1 0 4 = 3 ∧ Table.get none (0 * 16 + 3) (s.stack n).shadows = some Slot.clear ∧
       bit (rd a 7 1) 5 = true ∧ bit (rd a 7 1) 6 = true ∧ Table.get none ((0 + 1) * 16 + 3) (s.stack n).shadows = none) := by
  decide +kernel

/-- A device whose Meridian unit is in a state, at a time. -/
def clocked (st t : Nat) (fs : List (Field × Nat)) : State := up ([(R.MRD_STATUS.STATE, st), (R.MRD_TIME.TIME, t)] ++ fs)

/-- The same in a furrow. -/
def clockedRun (st t : Nat) : State := clocked st t [(R.FRW_STATE.STATE, frwRunning)]

/-- The same after so many excursions in a row. -/
def strayed (st t k : Nat) : State := { clocked st t [] with mrd := { Mrd.reset with excursions := k } }

theorem witness_Meridian :
    (clockedRun mrdLocked 1000000).quiet ∧ (clockedRun mrdLocked 1000000).mrd.handled ≠ some (windowOf 1000000) ∧
    (∀ e ∈ [1000000, 1000050, 999950], (clockedRun mrdLocked e).mrdState = mrdLocked ∧ (clockedRun mrdLocked e).now = e ∧
      (phaseError e).natAbs ≤ (clockedRun mrdLocked e).get R.MRD_CTRL.PHASE_TOL_NS ∧ (clockedRun mrdLocked e).inSchedule = true ∧
      (clockedRun mrdHoldover e).mrdState = mrdHoldover ∧ (clockedRun mrdHoldover e).inSchedule = true) ∧
    (∀ k ∈ [0, 1, 2], (strayed mrdLocked 1000051 k).mrdState = mrdLocked ∧ (strayed mrdLocked 1000051 k).mrd.excursions = k ∧
      (strayed mrdLocked 1000051 k).get R.MRD_CTRL.PHASE_TOL_NS < (phaseError 1000051).natAbs ∧ (strayed mrdLocked 1000051 k).inSchedule = false) ∧
    (let s := { clocked mrdAcquire 1000004 [] with mrd := { Mrd.reset with aligned := true, goodMarks := 3 } }
     s.quiet ∧ s.mrdState = mrdAcquire ∧ s.mrd.aligned = true ∧ (phaseError s.now).natAbs ≤ 4 ∧ s.mrd.goodMarks = 3 ∧
       s.mrd.handled ≠ some (windowOf s.now)) ∧
    (clocked mrdAcquire 7 []).mrdState = mrdAcquire ∧ (clocked mrdAcquire 7 []).mrd.aligned = false ∧
    (clocked mrdUnlocked 7 []).mrdState = mrdUnlocked ∧ (clocked mrdUnlocked 7 []).mrd.pllLocked = false ∧
    (let s := { clocked mrdUnlocked 7 [] with mrd := { Mrd.reset with pllLocked := true } }
     s.quiet ∧ s.mrdState = mrdUnlocked ∧ s.mrd.pllLocked = true) ∧
    (clocked mrdLocked 1500000 []).mrd.handled ≠ some (windowOf 1500000 - 1) ∧
    (let s := clocked mrdHoldover 1500000 [(R.MRD_STATUS.MISSED_MARKS, 9), (R.MRD_CTRL.HOLDOVER_MARKS, 10)]
     s.quiet ∧ s.mrdState = mrdHoldover ∧ s.get R.MRD_STATUS.MISSED_MARKS < s.get R.MRD_CTRL.HOLDOVER_MARKS ∧
       s.get R.MRD_CTRL.HOLDOVER_MARKS < 2 ^ R.MRD_STATUS.MISSED_MARKS.width) := by
  decide

theorem witness_Meridian_losses :
    (strayed mrdLocked 7 2).quiet ∧ (strayed mrdLocked 7 2).mrdState = mrdLocked ∧ 2 ≤ (strayed mrdLocked 7 2).mrd.excursions ∧
    ¬ 2 ≤ (strayed mrdLocked 7 1).mrd.excursions ∧
    (let s := clocked mrdHoldover 7 [(R.MRD_STATUS.MISSED_MARKS, 10), (R.MRD_CTRL.HOLDOVER_MARKS, 10)]
     s.mrdState = mrdHoldover ∧ s.get R.MRD_CTRL.HOLDOVER_MARKS ≤ s.get R.MRD_STATUS.MISSED_MARKS ∧ s.inSchedule = false) ∧
    (clockedRun mrdHoldover 7).inSchedule = true ∧ (clockedRun mrdHoldover 7).stopsAlone ∧
    (clocked mrdUnlocked 7 []).inSchedule = false ∧ (clocked mrdUnlocked 7 []).srv.deferred = [] ∧ (clocked mrdUnlocked 7 []).srv.told = [] ∧
    (clocked mrdUnlocked 7 []).flt.declared = [] ∧ (clocked mrdUnlocked 7 []).flt.rejoin = [] ∧ (clocked mrdUnlocked 7 []).flt.fatalFar = [] ∧
    (clocked mrdUnlocked 7 []).cfg.prepared = none ∧ (clocked mrdUnlocked 7 []).cfg.instA = [] ∧ (clocked mrdUnlocked 7 []).pending = [] := by
  decide

/-- An instance with a plan: tile 3 runs a MARK in template 1. -/
def planned : Option Inst := some ⟨1, false, model0, List.replicate 48 0, some ⟨2, [⟨0, 3, 1, [descOf tMark []]⟩], [(0, 3)], []⟩⟩

/-- A device before its turnarounds: ARMED, and in a headland; the template next is 1. -/
def turning (st : Nat) (fs : List (Field × Nat)) : State :=
  let s := up ([(R.FRW_STATE.STATE, st), (R.GLB_READY.PART_OK, 0xFFFF), (R.TILE_SEQ_CTRL.MODE 3, 0), (R.TILE_SEQ_CTRL.MODE 15, 0)] ++ fs)
  { s with frw := { s.frw with nextTemplate := 1 }, cfg := { s.cfg with instA := [(0, planned)] } }

/-- A tile that still runs, one that is DONE. -/
def unevenTiles (s : State) : State := (s.setSeq 4 seqRun).setSeq 3 seqDone

theorem witness_Turnarounds :
    (let s := unevenTiles (turning frwArmed [])
     s.quiet ∧ s.frwState = frwArmed ∧ s.frw.turned = false ∧ s.seqState 3 = seqDone ∧ s.seqState 4 ≠ seqDone ∧ s.seqState 4 ≠ seqIdle ∧
       s.get (R.TILE_SEQ_CTRL.MODE 3) = 0 ∧ 3 ∉ s.flt.heldParts ∧ s.partOk 3 = true ∧ s.listFor 3 1 = some (0, [descOf tMark []]) ∧
       s.listFor 15 1 = none ∧ s.seqState 15 = seqIdle) ∧
    (let s := unevenTiles (turning frwRunning [(R.FRW_STATE.HEADLAND, 1)])
     s.quiet ∧ s.inSchedule = true ∧ s.isSet R.FRW_STATE.HEADLAND = true ∧ s.isSet R.FRW_STATE.LATE_GROUP = false ∧ s.frw.correcting = false ∧
       ({ s with frw := { s.frw with correcting := true, resync := some 0 } } : State).frw.resync = some 0) := by
  decide +kernel

/-- A device with an armed sequencer before a furrow's body. -/
def before (st : Nat) (fs : List (Field × Nat)) : State := ((turning st fs).setSeq 3 seqArmed).modTile 3 fun t => { t with list := [descOf tMark []] }

/-- A lane that instance 0 has built. -/
def builtLane (s : State) : State := { s with srv := { s.srv with built := [(0, [])] } }

/-- A device without lock at T0. -/
theorem witness_FurrowStarts_lockless :
    let s := before frwArmed []
    let s := { s with frw := { s.frw with turned := true } }
    s.quiet ∧ s.frwState = frwArmed ∧ s.frw.turned = true ∧ s.lockless = true ∧ s.frw.startTicket = none ∧ s.frw.stopTicket = none ∧
      s.stopsAlone ∧ s.seqState 3 = seqArmed := by
  decide +kernel

theorem witness_FurrowStarts :
    (let s := before frwArmed [(R.MRD_STATUS.STATE, mrdLocked)]
     let s := { s with frw := { s.frw with turned := true } }
     s.quiet ∧ s.frwState = frwArmed ∧ s.frw.turned = true ∧ s.lockless = false ∧ s.srv.openLanes = [] ∧ s.seqState 3 = seqArmed ∧ s.unsettled = false ∧
       s.listIndex 3 < (s.tile 3).list.length ∧ s.srv.lanes = [] ∧
       ({ s with cfg := { s.cfg with granaryFlush := [(1, 0)] } } : State).unsettled = true) ∧
    (∀ e ∈ [0, 1], let s := before frwRunning [(R.FRW_STATE.HEADLAND, 1), (R.FRW_STATE.LATE_GROUP, e)]
      s.quiet ∧ s.inSchedule = true ∧ s.isSet R.FRW_STATE.HEADLAND = true ∧ s.srv.openLanes = [] ∧ s.isSet R.FRW_STATE.LATE_GROUP = (e == 1)) ∧
    (∀ e ∈ [0, 1], let s := up [(R.FRW_STATE.STATE, frwRunning), (R.FRW_FURROW_NUM.FURROW_NUM, 5), (R.FRW_STATE.LATE_GROUP, e)]
      let s := { s with frw := { s.frw with stopAt := some 5 } }
      s.quiet ∧ s.inSchedule = true ∧ s.isSet R.FRW_STATE.HEADLAND = false ∧ s.frw.leadSilent = false ∧ s.servesNothing ∧
        s.frw.stopAt = some 5 ∧ 5 ≤ s.furrow ∧ s.isSet R.FRW_STATE.LATE_GROUP = (e == 1) ∧ s.frw.stopMoved = false) ∧
    (let s := before frwStopping [(R.FRW_STATE.HEADLAND, 1)]
     s.quiet ∧ s.frwState = frwStopping ∧ s.srv.openLanes = [] ∧ s.stopsAlone ∧
       (let s := holding s (ticket (pk.op 0x13))
        let s := { s with frw := { s.frw with stopTicket := some 0 } }
        s.alive = true ∧ s.que.tickets = [ticket (pk.op 0x13)] ∧ (ticket (pk.op 0x13)).origin = .host 0 ∧ s.frw.stopTicket = some 0)) ∧
    (let s := builtLane (turning frwRunning [(R.FRW_STATE.HEADLAND, 1)])
     s.quiet ∧ s.inSchedule = true ∧ s.isSet R.FRW_STATE.HEADLAND = true ∧ s.alone ∧ s.srv.built = [(0, [])] ∧
       Table.get [] 0 s.srv.laneWait = [] ∧ s.srv.farWait = [] ∧ s.srv.openLanes = [] ∧ s.srv.waitCmds = []) := by
  decide +kernel

/-- The lead of a cluster of two devices in one group, in furrow 5; its only trained peer stands on port 0. -/
def lead2 (st : Nat) (fs : List (Field × Nat)) : State :=
  let s := up ([(R.GLB_DEVPOS.ASSIGNED, 1), (R.GLB_DEVPOS.LEAD, 1), (R.GLB_MEMBER_STATE.STATE, 1), (R.GLB_MEMBERSHIP.EPOCH, 1),
    (R.GLB_PEER_EPOCH.EPOCH 0, 1), (R.GLB_PEER_EPOCH.EPOCH 1, 1), (R.LINK_STATUS.STATE 0, linkUp), (R.LINK_STATUS.PEER_VALID 0, 1),
    (R.FRW_STATE.STATE, st), (R.FRW_FURROW_NUM.FURROW_NUM, 5), (R.MRD_STATUS.STATE, mrdLocked)] ++ fs)
  { s with flt := { s.flt with groupSize := [(0, 2)], serials := [(0, 100), (1, 101)], leadDevice := some 0 } }

/-- The same with its only peer in another group, behind column port 15. -/
def column2 (fs : List (Field × Nat)) : State :=
  let s := lead2 frwRunning ([(R.LINK_STATUS.STATE 0, linkDown), (R.GLB_PEER_EPOCH.EPOCH 1, 0), (R.GLB_PEER_EPOCH.EPOCH 16, 1),
    (R.LINK_STATUS.STATE 15, linkUp)] ++ fs)
  { s with flt := { s.flt with groupSize := [(0, 1), (1, 1)], serials := [(0, 100), (16, 101)] } }

/-- A step's completion, so far after its furrow's start. -/
def doneAt (s : State) (d : Option Nat) : State := { s with frw := { s.frw with doneAt := d, stepOpen := true } }

theorem witness_LateCheck :
    ∀ d ∈ [none, some 49999], let s := doneAt (lead2 frwRunning []) d
      s.quiet ∧ s.frwState = frwRunning ∧ s.isSet R.FRW_STATE.HEADLAND = false ∧ s.mrdState = mrdLocked ∧ s.cfg.lead = none ∧
        s.portUp 0 = true ∧ (∀ p, p < 24 → s.portUp p = true → (s.link p).waiting = [] ∧ (s.link p).replay.length < 256) ∧ s.frw.doneAt = d := by
  decide +kernel

theorem witness_Lateness :
    (∀ d ∈ [none, some 49999], let s := doneAt (lead2 frwRunning []) d
      s.quiet ∧ s.inBody = true ∧ s.cfg.lead = none ∧ s.frwState = frwRunning ∧ s.frw.doneAt = d ∧ s.isLead = true) ∧
    (let s := (doneAt (lead2 frwFallow []) none).setSeq 15 seqRun
     s.quiet ∧ s.inBody = true ∧ s.frwState = frwFallow ∧ s.frw.stepOpen = true ∧ s.frw.doneAt = none ∧ s.owes 15 = true) ∧
    (let s := up [(R.FRW_STATE.STATE, frwFallow), (R.FRW_CTRL.FALLOW_LIMIT, 4)]
     let s := { s with frw := { s.frw with fallowRun := 4 } }
     s.quiet ∧ s.alone ∧ s.inSchedule = true ∧ s.get R.FRW_CTRL.FALLOW_LIMIT ≤ s.frw.fallowRun ∧ s.frw.stopAt = none ∧
       ({ s with frw := { s.frw with fallowRun := 3 } } : State).frw.fallowRun < s.get R.FRW_CTRL.FALLOW_LIMIT) := by
  decide +kernel

theorem witness_ScheduleFrames :
    (let s := lead2 frwStopped []
     s.quiet ∧ s.inSchedule = false ∧ s.mrdState ≠ mrdUnlocked ∧ s.mrdState ≠ mrdAcquire ∧ (List.range 24).filter (fun p => s.portUp p) = [0] ∧
       (s.link 0).waiting = [] ∧ (s.link 0).replay.length < 256 ∧
       (List.range 24).filter (fun p => (s.put (R.LINK_STATUS.STATE 0) linkDown).portUp p) = []) ∧
    (let s := column2 []
     s.quiet ∧ s.inBody = true ∧ 1 < s.groups.length ∧ ((List.range 9).map fun j => 15 + j).filter (fun p => s.portUp p) = [15] ∧
       (List.range 15).filter (fun p => s.portUp p) = [] ∧ (s.link 15).waiting = [] ∧ (s.link 15).replay.length < 256) ∧
    (let s := lead2 frwRunning []
     s.inBody = true ∧ ¬ 1 < s.groups.length ∧ ((List.range 9).map fun j => 15 + j).filter (fun p => s.portUp p) = [] ∧
       (List.range 15).filter (fun p => s.portUp p) = [0]) := by
  decide +kernel

/-- A plan with two PHASE entries of instance 0, and a device in its furrow. -/
def phases2 : List PlanEntry := [⟨1, 0, 0, 7, 1000, 0, 0, 0, 0⟩, ⟨1, 0, 0, 8, 5000, 0, 0, 0, 0⟩]
def phased (t : Nat) (lv : Nat) : State :=
  let s := up [(R.FRW_STATE.STATE, frwRunning), (R.PWR_CTRL.PREPOS_EN, 1), (R.MRD_TIME.TIME, t)]
  let s := { s with frw := { s.frw with active := some ⟨9, 100000, 10000, 50000, 1, 1, phases2, []⟩ } }
  let s := s.modTile 15 fun x => { x with inst := some 0 }
  { s with pwr := { s.pwr with levels := [⟨0, 7, 1000, 3⟩, ⟨0, 8, 5000, lv⟩] } }

/-- The same with a phase prepared. -/
def preparedPhase : State := { phased 5000 0 with pwr := { (phased 5000 0).pwr with prepared := [(0, 8)], guards := [25] } }

/-- A device with these power samples. -/
def powerSampled (l : List Nat) : State := { up [] with pwr := { Pwr.reset with samples := l } }

/-- Rails of a sample: all the power on rail 21. -/
def rails (w : Nat) : List (Nat × Nat) := List.replicate 21 (0, 0) ++ [(1000, 1000 * w)]

/-- Tile 15's currents in the last ten samples, and windows below its limit. -/
def currents15 (l : List Nat) (u : Nat) : State :=
  { up [] with pwr := { Pwr.reset with currents := [(15, l)], under := Table.set 0 15 u [] } }

theorem witness_PowerLevels :
    (∀ e ∈ [(998, 0, 7), (3000, 0, 8), (3000, 3, 8)], let s := phased e.1 e.2.1
      s.alive = true ∧ s.isSet R.PWR_CTRL.PREPOS_EN = true ∧ s.inSchedule = true ∧ s.alert = false ∧
      (((s.phaseEntries (s.get R.FRW_LATE.TEMPLATE)).filter fun x => x.inst == 0 && x.tag == e.2.2 && decide (s.offset ≤ x.offset)).head?.isSome
        = true) ∧ (0, e.2.2) ∉ s.pwr.prepared) ∧
    (let s := phased 3000 0
     let e : PlanEntry := ⟨1, 0, 0, 8, 5000, 0, 0, 0, 0⟩
     let b : PlanEntry := ⟨1, 0, 0, 7, 1000, 0, 0, 0, 0⟩
     11 * s.phasePower (s.get R.FRW_LATE.TEMPLATE) b < 10 * s.phasePower (s.get R.FRW_LATE.TEMPLATE) e ∧
       10 * (phased 3000 3).phasePower 0 e ≤ 11 * (phased 3000 3).phasePower 0 b) ∧
    (up []).inSchedule = false ∧
    preparedPhase.alive = true ∧ preparedPhase.inSchedule = true ∧ (0, 8) ∈ preparedPhase.pwr.prepared ∧
    (preparedPhase.tile 15).inst = some 0 ∧ preparedPhase.levelOf 15 0 8 preparedPhase.offset = some 0 ∧ preparedPhase.pwr.guards.length ≤ 1 ∧
    (∀ w ∈ [(3201, true, false), (1, false, true), (3200, false, false)], let s := (powerSampled [w.1 * 1000000]).put R.PWR_CTRL.CAP_W 3200
      s.alive = true ∧ s.inSchedule = false ∧ decide (s.cap * 1000000 < s.meanPower 10000) = w.2.1 ∧
        decide (100 * s.meanPower 10000 < 95 * (s.cap * 1000000)) = w.2.2) ∧
    (∀ w ∈ [3900, 3901], let s := (powerSampled []).put R.PWR_CTRL.CAP_W 3200
      s.frw.doneAt = none ∧ decide ((s.cap + 700) * 1000000 < samplePower (rails w)) = (w == 3901) ∧
        ({ s with pwr := { s.pwr with peakLeft := 1 } } : State).pwr.peakLeft = 1) ∧
    (∀ w ∈ [(101, 0, 1), (1, 9, 2), (1, 8, 2), (100, 3, 3)], let s := (currents15 [1000 * w.1] w.2.1).put R.PWR_FREQ_CTRL.CUR_LIMIT_A 100
      let l := Table.get [] 15 s.pwr.currents
      let limit := 1000 * s.get R.PWR_FREQ_CTRL.CUR_LIMIT_A * l.length
      s.alive = true ∧ decide (limit < l.sum) = (w.2.2 == 1) ∧ decide (100 * l.sum < 95 * limit) = (w.2.2 == 2) ∧ Table.get 0 15 s.pwr.under = w.2.1) := by
  decide +kernel

/-- Alert inputs that are low. -/
def alerted (l : List Nat) : State := { up [] with pins := { Pins.reset with vrAlertLow := l } }

theorem witness_AlertsAndTemperatures :
    (∀ k ∈ [0, 3], (up []).alive = true ∧ k ∉ (up []).pins.vrAlertLow ∧ k ∈ (alerted [k]).pins.vrAlertLow) ∧ (up []).pins.vrAlertLow = [] ∧
    (up []).isSet (R.PWR_TILE.DROOP_SKIP 15) = false ∧ (up [(R.PWR_TILE.STRETCH 15, 1)]).isSet (R.PWR_TILE.STRETCH 15) = true ∧
    (up []).pins.thermTripN = true ∧
    (let s := up [(R.THM_CTRL.TILE_THROTTLE_C, 95), (R.THM_TILE.TJ 15, 95)]
     (s.tempOf 3 15).2.1 ≤ (s.tempOf 3 15).1 ∧ (s.put (R.THM_TILE.TJ 15) 91 |>.tempOf 3 15).1 + 3 < (s.put (R.THM_TILE.TJ 15) 91 |>.tempOf 3 15).2.1 ∧
       (s.put (R.THM_TILE.TJ 15) 94 |>.tempOf 3 15).1 < (s.put (R.THM_TILE.TJ 15) 94 |>.tempOf 3 15).2.1 ∧
       (s.put (R.THM_TILE.TJ 15) 92 |>.tempOf 3 15).2.1 ≤ (s.put (R.THM_TILE.TJ 15) 92 |>.tempOf 3 15).1 + 3) := by
  decide +kernel

/-- A segment in a state. -/
def segged (g : Seg) (v : Nat) : State := (up []).setSeg g v

/-- A device with a Granary of 4 MiB on tile 15 that holds a line. -/
def cached15 (line : Option Nat) (fs : List (Nat × GAccess)) : State :=
  let s := up [(R.TSTORE_GRANARY.SIZE 15, 1)]
  let s := match line with
    | some l => s.setGset 15 (setOf l) ⟨[(0, some (l, false))], []⟩
    | none => s
  s.modTile 15 fun t => { t with fills := fs }

/-- An address of stack 15. -/
def at15 : Nat := stack0 + 15 * 0xC00000000 + 64

theorem witness_OnPackageMemory :
    (∀ g ∈ ([⟨15, false, 1⟩, ⟨0, true, 7⟩] : List Seg), g.tile < 16 ∧ g.idx < (if g.sp then 8 else 16) ∧
      (∀ st ∈ [segOff, segOn, segRetain], (segged g st).segState g = st ∧ (segged g st).segState g ≠ segWaking ∧ (segged g st).segHeld g = false) ∧
      (segged g segWaking).segState g = segWaking ∧ Table.get none g.no ((segged g segWaking).tile g.tile).segPend = none ∧
      g.no ∉ ((segged g segWaking).tile g.tile).fromOff ∧
      g.no ∈ (((segged g segWaking).modTile g.tile fun t => { t with fromOff := [g.no] }).tile g.tile).fromOff) ∧
    (up []).segHeld ⟨15, false, 0⟩ = true ∧
    (∀ e ∈ [(true, 0x2000000 - 64), (false, 0x10000000 - 64), (false, 0)], let s := (up [(R.TSTORE_GRANARY.SIZE 15, 0)]).modTile 15 fun t =>
        { t with scrubSp := e.2, scrubTs := e.2 }
      s.alive = true ∧ e.2 = (if e.1 then (s.tile 15).scrubSp else (s.tile 15).scrubTs) ∧ e.2 < (if e.1 then 0x2000000 else 0x10000000) ∧
        e.2 % 64 = 0 ∧ s.segState ⟨15, e.1, e.2 / (if e.1 then 0x400000 else 0x1000000)⟩ = segOn ∧ (e.1 = false → e.2 + s.granaryBytes 15 < 0x10000000)) ∧
    (let s := cached15 (some at15) []
     s.alive = true ∧ at15 % 64 + 64 ≤ 64 ∧ s.cacheHome at15 = some 15 ∧ (s.tile 15).fills = [] ∧
       ((s.gset 15 (setOf at15)).find at15).isSome = true ∧ s.poisoned at15 64 = false) ∧
    (let s := cached15 none []
     s.cacheHome at15 = some 15 ∧ (s.tile 15).fills = [] ∧ (s.gset 15 (setOf at15)).find at15 = none) ∧
    (up [(R.TSTORE_GRANARY.SIZE 15, 0)]).cacheHome at15 = none ∧ ((up [(R.TSTORE_GRANARY.SIZE 15, 0)]).home at15).isSome = true ∧ at15 < farBase ∧
    ((cached15 none [(at15, .write at15 [1])]).tile 15).fills = [(at15, .write at15 [1])] := by
  decide +kernel

/-- Stack 15 with this state of its pseudo-channel 63. -/
def stack15 (st : Nat) (f : Stack → Stack) : State := (up [(R.FRW_STATE.STATE, st)]).modStack 15 f

/-- An address of pseudo-channel 63 of stack 15. -/
def pc63 : Nat := stack0 + 15 * 0xC00000000 + 63 * 2048

theorem witness_StackController :
    (up []).alive = true ∧ (up []).place pc63 = .stack 15 ∧ (up []).pcOf pc63 = 63 ∧ pc63 / 64 * 64 = pc63 ∧ (up []).pcFree 15 63 = true ∧
    ((up []).stack 15).corrects 63 [0, 1, 2, 3, 4] = false ∧ (leBytes 64 5).length = 64 ∧
    (stack15 frwStopped fun k => { k with inAtom := [63] }).pcFree 15 63 = false ∧
    (let s := stack15 frwStopped fun k => { k with inAtom := [63], queue := [(63, [⟨pc63, .write (leBytes 64 5), [], 0⟩])] }
     s.stackServes 15 = true ∧ s.inSchedule = false ∧ 0 ≤ (s.stack 15).bal 63 ∧ s.pcOf pc63 = 63 ∧
       Table.get [] 63 (s.stack 15).queue = [(⟨pc63, .write (leBytes 64 5), [], 0⟩ : StackAcc)]) ∧
    (let s := stack15 frwRunning fun k => { k with inAtom := [63], balance := [(63, -2)] }
     (s.stack 15).inAtom.contains 63 = true ∧ (s.stack 15).bal 63 < -1 ∧ s.postpones 15 = true ∧ s.catchUp 15 = false) ∧
    ((up []).stack 15).inAtom.contains 63 = false ∧ (up []).postpones 15 = false ∧
    (let s := stack15 frwFallow fun k => { k with balance := [(63, -1)] }
     let s := { s with frw := { s.frw with active := some ⟨9, 100000, 10000, 50000, 1, 1, [], []⟩ } }
     s.postpones 15 = true ∧ s.catchUp 15 = true ∧ (s.stack 15).bal 63 ≤ s.get (R.STACK_REFRESH.PULLIN_MAX 15)) ∧
    (∀ b ∈ [(-1 : Int), -2], let s := stack15 frwRunning fun k => { k with balance := [(63, b)] }
     s.postpones 15 = true ∧ s.catchUp 15 = false ∧ 63 ∉ (s.stack 15).forced ∧ (s.stack 15).bal 63 = b) ∧
    (∀ c ∈ [255, 256], let s := stack15 frwStopped fun k => { k with corrected := [(63 * 64 + 35, c)] }
     Table.get 0 (63 * 64 + 35) (s.stack 15).corrected = c ∧ 63 * 64 + 35 ∉ (s.stack 15).marked ∧ ((s.stack 15).marks 63).length < 2) ∧
    (let s := stack15 frwStopped fun k => { k with recent := [(63, List.replicate 65 0)] }
     64 < ((Table.get [] 63 (s.stack 15).recent).filter fun x => decide (s.now < x + 1000000)).length ∧ 15 ∉ s.flt.fatalParts) := by
  decide +kernel

/-- A copy of a page of 16 KiB that a partition is moving to the far tier. -/
def copying15 : State :=
  let s := up [(R.TILE_KV_POOL_FAR.BASE 15, farBase / 16384), (R.TILE_KV_POOL_FAR.GRANULES 15, 2)]
  { s with kv := { s.kv with copies := [⟨⟨15, 1, stack0 + 15 * 0xC00000000, 0, 0, 0⟩, 2, farBase, false, false⟩] } }

/-- A partition that empties its Granary, to be held in reset for the packet of ticket 0; and an engine that tests itself for it. -/
def holding15 : State :=
  let s := holding (up []) (ticket (pk.op 0x08))
  { s with flt := { s.flt with holdWait := [(15, 0)] } }.modTile 15 fun t => { t with bist := some (8, 0) }

theorem witness_LongWorkEnds :
    (up []).alive = true ∧ (up []).que.tickets = [] ∧ (up []).cfg.finishing = [] ∧ (∀ k, k < 16 → (up []).seqState k ≠ seqHeld) ∧
    (let s := up [(R.TSTORE_GRANARY.SIZE 15, 1)]
     let s := { s with cfg := { s.cfg with granaryFlush := [(15, 8)] } }
     s.alive = true ∧ s.que.tickets = [] ∧ s.cfg.finishing = [] ∧ s.cfg.granaryFlush = [(15, 8)] ∧ s.get (R.TSTORE_GRANARY.SIZE 15) ≤ 8 ∧
       s.flt.holdWait = [] ∧ ∀ k, k < 16 → s.seqState k ≠ seqHeld) ∧
    holding15.alive = true ∧ holding15.que.tickets = [ticket (pk.op 0x08)] ∧ holding15.cfg.finishing = [] ∧ holding15.cfg.granaryFlush = [] ∧
    holding15.flt.holdWait = [(15, 0)] ∧ (holding15.tile 15).bist = some (8, 0) ∧ (∀ k, k < 16 → holding15.seqState k ≠ seqHeld) ∧
    copying15.alive = true ∧
    (copying15.kv.copies.find? fun x => x.page.tile == 15 && x.page.addr == stack0 + 15 * 0xC00000000 && !x.ended).isSome = true ∧
    farBase + 16384 * 2 ^ 0 ≤ headerOf (copying15.pool 15 2) farBase ∧
    (let s := (up [(R.GLB_READY.MEM_OK, 0)])
     let s := { s with sec := { s.sec with started := true } }
     s.alive = true ∧ s.sec.started = true ∧ s.isSet R.GLB_READY.MEM_OK = false) := by
  decide +kernel

/-- A factor image of one slice, for tile 3 of this device, that holds no tensor. -/
def factor0 : Bytes :=
  let dir := leBytes 1 0 ++ leBytes 1 3 ++ leBytes 2 0 ++ leBytes 4 64 ++ leBytes 8 128
  leBytes 4 0x50444441 ++ leBytes 2 1 ++ leBytes 18 1 ++ leBytes 4 1 ++ leBytes 4 (crc32c (dir ++ leBytes 64 0)) ++ leBytes 32 0 ++ dir ++
    leBytes 48 0 ++ leBytes 64 0

/-- A device with an instance whose adapter store on tile 3 has so many bytes, and that image in stack memory. -/
def storing (n : Nat) : State :=
  let x : Inst := ⟨1, false, { model0 with adapterStore := [⟨0, 3, 3 * 0x10000000 + 0x800000, n⟩] }, List.replicate 48 0, none⟩
  filled { up [] with cfg := { Cfg.reset with instA := [(0, some x)] } } stack0 factor0

/-- ADAPTER_LOAD of that image, with a flag that it may not wait; and the version it makes. -/
def loadPk (nowait : Nat) : Packet := { pk with flags := nowait, p0 := 7 * 2 ^ 32, p1 := stack0, p2 := 192, p3 := 1 - nowait }
def version7 (st : AdapterState) (sha : Bytes) : Adapter := ⟨0, 7, 1, st, stack0, 192, sha, [⟨0, 3, 128, 64⟩], some 0, none⟩

/-- A device that holds that version for the packet of ticket 0. -/
def loadingV (n : Nat) (st : AdapterState) (aw : List (Nat × Nat)) : State :=
  let s := holding (storing n) { ticket ((loadPk 0).op 0x23) with awaiting := aw }
  { s with srv := { s.srv with adapters := [version7 st []] } }

set_option maxRecDepth 20000 in
theorem witness_LongWorkEnds_adapters :
    (∀ n ∈ [63, 64], ∀ w ∈ [0, 1],
      let s := storing n
      let q := (loadPk w).op 0x23
      s.alone ∧ s.takes q ∧ (match s.adapterCheck (bits (loadPk w).p0 0 4) (s.read (loadPk w).p1 (loadPk w).p2) with
        | .ok dir => dir == [⟨0, 3, 128, 64⟩] | .error _ => false) = true ∧
      bits (loadPk w).p0 0 4 ∉ s.srv.suspended ∧ (s.srv.adapters.filter fun x => x.inst == bits (loadPk w).p0 0 4).length < 1024 ∧
      s.adapterRoom (version7 .pending []) = (n == 64) ∧ (loadPk w).noWait = (w == 1) ∧
      (n = 64 → ((({ s.accepted q none none with srv := { s.srv with adapters := [version7 .pending []] } }).modAdapter 0 7 1 fun x =>
        { x with state := .loading }).placeSlices 0 7 1 (s.read stack0 192) [⟨0, 3, 128, 64⟩]).isSome = true)) ∧
    (let s := loadingV 64 .pending []
     s.alive = true ∧ s.que.tickets = [ticket ((loadPk 0).op 0x23)] ∧ ((loadPk 0).op 0x23).opcode = 0x23 ∧ s.srv.adapters = [version7 .pending []] ∧
       (version7 .pending []).ticket = some 0 ∧ s.adapterRoom (version7 .pending []) = true ∧
       ((sliceDir (s.read stack0 192)).map Prod.fst).any (fun e => e.device == s.self) = true ∧
       ((s.modAdapter 0 7 1 fun x => { x with state := .loading }).placeSlices 0 7 1 (s.read stack0 192) [⟨0, 3, 128, 64⟩]).isSome = true) ∧
    (let s := loadingV 64 .loading [(0, 0)]
     s.alive = true ∧ s.self = 0 ∧ s.srv.adapters = [version7 .loading []] ∧ (s.que.tickets.map Ticket.awaiting) = [[(0, 0)]]) := by
  decide +kernel

/-- A frame of a type with these fields, and a flit with numbers at byte offsets. -/
def frame (ty seq ack : Nat) (b : Bytes) : Frame := ⟨ty, false, false, false, false, seq, ack, 0, b⟩
def flit (n : Nat) (fs : List (Nat × Nat)) : Bytes := leBytes n (fs.map fun e => e.2 * 2 ^ (8 * e.1)).sum

/-- The lead of two devices with port 0 in a state. -/
def linked (l : Link) : State := (lead2 frwRunning []).modLink 0 fun _ => l

/-- A frame that waits for its acknowledgement. -/
def kept (seq tries : Nat) : TxFrame := ⟨frame fData seq 0 [], none, 5, tries, false⟩

theorem witness_LinkFrames :
    (up []).quiet ∧ (up []).portUp 23 = false ∧ (linked Link.reset).quiet ∧ (linked Link.reset).portUp 0 = true ∧ (linked Link.reset).noColl ∧
    (∀ l ∈ [{ Link.reset with rxSeq := 1023, replay := [kept 7 0] }, { Link.reset with rxSeq := 1023, nakSent := true }],
      (linked l).quiet ∧ (linked l).portUp 0 = true ∧ (linked l).noColl ∧ (∀ x ∈ ((linked l).link 0).replay, x.frame.seq ≠ (frame fData 0 0 []).ack) ∧
        ((linked l).link 0).rx = none ∧ (frame fData 0 0 []).seq = (((linked l).link 0).rxSeq + 1) % 1024 ∧
        (frame fData 2 0 []).seq ≠ (((linked l).link 0).rxSeq + 1) % 1024) ∧
    ((linked Link.reset).link 0).nakSent = false ∧ ((linked { Link.reset with nakSent := true }).link 0).nakSent = true := by
  decide +kernel

theorem witness_ReplayBuffer :
    (∀ l ∈ [{ Link.reset with replay := [kept 7 7, kept 8 0] }, { Link.reset with replay := [kept 7 8, kept 8 0] }, Link.reset],
      (linked l).quiet ∧ (linked l).noColl ∧ (linked l).portUp 0 = true ∧ (∀ x ∈ ((linked l).link 0).replay, x.frame.seq ≠ (frame fNak 0 3 []).ack) ∧
      ((linked l).link 0).rx = none ∧ (linked l).coll.opened = [] ∧ ((linked l).link 0).waiting = []) ∧
    (let x := (linked { Link.reset with replay := [kept 7 7, kept 8 0] }).link 0
     x.replay ≠ [] ∧ (∀ y ∈ x.replay, y.tries < 8 ∧ y.deferred = false) ∧ (∀ y ∈ x.replay, y.tries < 8) ∧
       x.replay = [kept 7 7] ++ kept 8 0 :: [] ∧ (∀ y ∈ [kept 7 7], y.frame.seq ≠ (kept 8 0).frame.seq) ∧ (frame fIdle 0 8 []).ack = 8) ∧
    (∃ y ∈ ((linked { Link.reset with replay := [kept 7 8, kept 8 0] }).link 0).replay, 8 ≤ y.tries) ∧
    ((linked Link.reset).link 0).replay = [] ∧ ((linked Link.reset).link 0).replay.length < 256 ∧
    256 ≤ ((linked { Link.reset with replay := List.replicate 256 (kept 9 0) }).link 0).replay.length := by
  decide +kernel

/-- Port 0 in a state of its training, with this of its peer's TRAIN frame. -/
def trainingPort (st : Nat) (l : Link) : State := (up [(R.LINK_STATUS.STATE 0, st), (R.LINK_CTRL.ENABLE 0, 1)]).modLink 0 fun _ => l

theorem witness_Training :
    (∀ st ∈ [linkDetect, linkDown], (trainingPort st Link.reset).quiet ∧ (trainingPort st Link.reset).isSet (R.LINK_CTRL.ENABLE 0) = true ∧
      (trainingPort st Link.reset).get (R.LINK_STATUS.STATE 0) = st ∧ (trainingPort st Link.reset).get (R.LINK_STATUS.STATE 0) ≠ linkTrain) ∧
    (up [(R.LINK_CTRL.ENABLE 0, 0)]).isSet (R.LINK_CTRL.ENABLE 0) = false ∧
    (∀ l ∈ [{ Link.reset with train := some (101, 0, 1) }, { Link.reset with train := some (101, 0, 1), retraining := true },
        { Link.reset with attempts := 1 }, { Link.reset with attempts := 2, train := some (101, 0, 2) }],
      (trainingPort linkTrain l).quiet ∧ (trainingPort linkTrain l).get (R.LINK_STATUS.STATE 0) = linkTrain ∧
        ((trainingPort linkTrain l).link 0).test = none ∧ ((trainingPort linkTrain l).link 0).train = l.train ∧
        ((trainingPort linkTrain l).link 0).attempts = l.attempts ∧ (trainingPort linkTrain l).get (R.LINK_CTRL.MODE 0) = 1) := by
  decide +kernel

/-- A device of two that runs a step whose slot 5 is a broadcast, and its tile 3 receives 256 bytes of it. -/
def stepping : State :=
  let d := descOf tColl [(16, 5), (26, scratch 3 0x20000), (32, 256), (37, 3)]
  let s := lead2 frwRunning []
  { s with frw := { s.frw with active := some ⟨9, 100000, 10000, 50000, 1, 1, [slot5 4 256], []⟩, stepOpen := true }
           cfg := { s.cfg with instA := [(0, some ⟨3, false, model0, List.replicate 48 0, some ⟨1, [⟨0, 3, 0, [d]⟩], [(0, 3)], []⟩⟩)] } }

/-- The same while a stream of so many bytes arrives on port 0. -/
def receiving (len : Nat) : State := stepping.modLink 0 fun l => { l with rx := some ⟨5, 0, 0, 0, 1, [(3, len)], []⟩ }

/-- The START of that slot from the peer, of an epoch and a slot, and a frame of its data. -/
def start5 (epoch slot : Nat) : Frame :=
  frame fStart 1 0 (flit 256 [(0, slot), (2, 5), (4, epoch), (8, 4 + 16 * 3), (12, 1), (16 + 12, 256)])
def data5 : Frame := frame fData 1 0 (List.replicate 256 9)

set_option synthInstance.maxSize 400 in
set_option synthInstance.maxHeartbeats 200000 in
theorem witness_Streams :
    stepping.hears 0 (start5 1 5) ∧ (stepping.link 0).rx = none ∧ stepping.hears 0 data5 ∧
    (∀ len ∈ [256, 257], (receiving len).hears 0 data5 ∧ ((receiving len).link 0).rx = some ⟨5, 0, 0, 0, 1, [(3, len)], []⟩ ∧
      ((collOf ((receiving len).slotTable 0 5) 3).map fun c => D.cWireFmt c.2).getD 0 ≠ 5) ∧
    ((([] : List Frame).length + 1) * 256 < 257) ∧ data5.enc = false ∧ data5.poison = false ∧ data5.flit.length = 256 ∧
    (receiving 256).slotEntry 0 5 = some (slot5 4 256) ∧ (slot5 4 256).op = 4 ∧
    (match collOf ((receiving 256).slotTable 0 5) 3 with
      | some (_, d) => D.cDst d != 0 && (receiving 256).mappedRange (D.cDst d) (D.cBytes d) &&
          (segsOf (D.cDst d) (D.cBytes d)).all fun g => (receiving 256).segState g != segOff
      | none => false) = true ∧
    rd (start5 2 5).flit 4 4 ≠ stepping.get (R.GLB_PEER_EPOCH.EPOCH ((stepping.portDevice 0).getD 0)) ∧ stepping.assigned = true ∧
    stepping.isFenced = false ∧ Table.get 0 (stepping.get (R.LINK_PEER.SERIAL 0)) stepping.flt.answered = 0 ∧
    rd (start5 1 5).flit 4 4 = stepping.get (R.GLB_PEER_EPOCH.EPOCH ((stepping.portDevice 0).getD 0)) ∧
    stepping.slotEntry (stepping.get R.FRW_LATE.TEMPLATE) (rd (start5 1 6).flit 0 2) = none ∧
    stepping.slotEntry (stepping.get R.FRW_LATE.TEMPLATE) (rd (start5 1 5).flit 0 2) = some (slot5 4 256) ∧
    fld (start5 1 5).flit 9 1 0 3 = stepping.get R.FRW_LATE.TEMPLATE ∧
    (stepping.slotLinks (slot5 4 256).argA).find? (fun k => k.2.contains 0) = some (1, [0]) ∧
    rd (start5 1 5).flit 2 2 = stepping.furrow % 65536 ∧ stepping.slotTable 0 5 ≠ [] ∧ fld (start5 1 5).flit 8 1 0 4 = 4 ∧
    fld (start5 1 5).flit 10 1 0 4 = 0 ∧ (∀ x ∈ stepping.slotTable 0 5, D.cWireFmt x.2.2 = fld (start5 1 5).flit 8 1 4 4) ∧
    streamsAgree (slot5 4 256) (stepping.slotTable 0 5) [0] 0 (start5 1 5).flit = true ∧ fld (start5 1 5).flit 9 1 3 1 = 0 := by
  decide +kernel

/-- A beacon of device 1 of furrow 5 with an epoch and a late flag, and relays and echoes of another group. -/
def beacon1 (epoch late : Nat) : Frame :=
  frame fBeacon 1 0 (flit 64 [(1, 2 + late), (2, 1), (4, epoch), (16, 101), (40, 5)])
def relay1 (epoch echo mask : Nat) : Frame := frame fRelay 1 0 (flit 64 [(1, 1 + 4 * echo), (2, mask), (8, 5), (16, epoch)])

/-- The device with its peer in another group hears on port 15. -/
def columnUp : State := column2 [(R.GLB_PEER_EPOCH.EPOCH 16, 1)]

set_option synthInstance.maxSize 400 in
set_option synthInstance.maxHeartbeats 200000 in
theorem witness_BeaconsAndRelays :
    (let s := up [(R.LINK_STATUS.STATE 0, linkUp)]
     s.hears 0 (beacon1 1 1) ∧ s.alone) ∧
    (∀ e ∈ [(1, 0), (1, 1), (2, 0)], let s := lead2 frwRunning []
      let b := (beacon1 e.1 e.2).flit
      s.hears 0 (beacon1 e.1 e.2) ∧ s.assigned = true ∧ fld b 1 1 1 1 = 1 ∧ fld b 1 1 5 1 = 0 ∧ fld b 2 1 0 6 = 1 ∧ fld b 1 1 0 1 = e.2 ∧
        decide (rd b 4 4 = s.get (R.GLB_PEER_EPOCH.EPOCH 1)) = (e.1 == 1) ∧ 1 ≠ s.leadId ∧ s.inSchedule = true ∧ rd b 40 8 = s.furrow ∧
        1 ∉ s.frw.beacons ∧ 1 ∉ s.frw.lateBeacons) ∧
    (∀ e ∈ [(1, 0, 3), (1, 1, 3), (2, 0, 0)], let s := columnUp
      let b := (relay1 e.1 e.2.1 e.2.2).flit
      s.hears 15 (relay1 e.1 e.2.1 e.2.2) ∧ s.assigned = true ∧ s.portDevice 15 = some 16 ∧
        decide (rd b 16 4 = s.get (R.GLB_PEER_EPOCH.EPOCH 16)) = (e.1 == 1) ∧ s.inSchedule = true ∧ rd b 8 8 = s.furrow ∧ fld b 1 1 2 1 = e.2.1) := by
  decide +kernel

/-- The lead of three devices of one group in a schedule state, whose peers stand on ports 0 and 1; and a message of device 1 to it. -/
def lead3 (st : Nat) : State :=
  let s := lead2 st [(R.LINK_STATUS.STATE 1, linkUp), (R.GLB_PEER_EPOCH.EPOCH 2, 1)]
  { s with flt := { s.flt with groupSize := [(0, 3)], serials := [(0, 100), (1, 101), (2, 102)] } }
def from1 (b : CtrlBody) : CtrlMsg := ⟨1, 0, 3, 1, b⟩

theorem witness_MessagesOnTheWay :
    (up []).quiet ∧ (up []).portUp 23 = false ∧ (lead3 frwRunning).quiet ∧ (lead3 frwRunning).portUp 0 = true ∧
    (lead3 frwRunning).passOn ⟨1, 2, 3, 1, .cfgReady 1⟩ = some (some 1) ∧ (lead3 frwRunning).passOn (from1 (.cfgReady 1)) = none ∧
    (lead3 frwRunning).assigned = true ∧ ({ from1 (.cfgReady 1) with epoch := 2 }).epoch ≠ (lead3 frwRunning).heldEpoch 0 1 ∧
    (lead3 frwRunning).fromJoiner (.cfgReady 1) = false ∧ (lead3 frwRunning).isFenced = false ∧ ((lead3 frwRunning).route 1).isSome = true ∧
    Table.get 0 (Table.get 0 1 (lead3 frwRunning).flt.serials) (lead3 frwRunning).flt.answered = 0 ∧
    (lead3 frwRunning).takesMessage 0 (from1 (.cfgReady 1)) ∧ acknowledged (lead3 frwRunning).self (.cfgReady 1) = true ∧
    (lead3 frwRunning).get R.GLB_MEMBER_STATE.STATE = 1 := by
  decide +kernel

/-- A lane table of instance 0 for furrow 6, and a member that holds it. -/
def table6 : LaneTable := ⟨0, 6, false, [], [], []⟩
def tabled : State := { member with srv := { member.srv with laneRecv := [(0, some table6)] } }

/-- A member with a prepared set. -/
def readied : State := { member with cfg := { member.cfg with prepared := some ⟨4, 9, false⟩, lockCluster := true, lockDevice := true } }

set_option synthInstance.maxSize 400 in
set_option synthInstance.maxHeartbeats 200000 in
theorem witness_MessagesToMembers :
    (∀ b ∈ [CtrlBody.ack 9, .t0 7 8, .laneTable table6, .laneAck 0 6 [(1023, 7)] [], .laneAccept 0 6, .laneDiscard 0 6 [], .cfgPrepare 4 9,
        .cfgCommitGo 4, .cfgAbort 4], member.takesMessage 0 (fromLead b) ∧ member.que.tickets = []) ∧
    (member.put R.FRW_STATE.STATE frwStopped).takesMessage 0 (fromLead (.t0 7 8)) ∧ (member.put R.FRW_STATE.STATE frwStopped).frwState = frwStopped ∧
    member.frwState ≠ frwStopped ∧ (member.route 0).isSome = true ∧ 6 = member.furrow + 1 ∧
    tabled.takesMessage 0 (fromLead (.laneAccept 0 6)) ∧ Table.get none 0 tabled.srv.laneRecv = some table6 ∧ table6.furrow = 6 ∧
    Table.get none 0 member.srv.laneRecv = none ∧ member.cfg.prepared = none ∧ member.cfg.lockCluster = false ∧ member.cfg.lockDevice = false ∧
    readied.takesMessage 0 (fromLead (.cfgPrepare 4 9)) ∧ readied.takesMessage 0 (fromLead (.cfgCommitGo 4)) ∧
    readied.takesMessage 0 (fromLead (.cfgAbort 4)) ∧ readied.cfg.prepared = some ⟨4, 9, false⟩ ∧
    (∀ k ∈ [0x04, 0x60, 0x13], member.takesMessage 0 (fromLead (.fwdCmd (pk.op k) none none)) ∧ (pk.op k).opcode = k ∧ (pk.op k).opcode ≠ 5) ∧
    member.isFenced = false ∧ member.inSchedule = true ∧ member.frw.stopAt = none ∧
    (member.put R.GLB_MEMBER_STATE.STATE 3).isFenced = true ∧
    (member.put R.GLB_MEMBER_STATE.STATE 3).passOn (fromLead (.fwdCmd (pk.op 0x04) none none)) = none ∧
    (member.put R.GLB_MEMBER_STATE.STATE 3).takesMessage 0 (fromLead (.fwdCmd (pk.op 0x04) none none)) := by
  decide +kernel

/-- The lead while its commit waits for devices, in a schedule state. -/
def deciding (st : Nat) (w : List Nat) : State :=
  let s := lead3 st
  { s with cfg := { s.cfg with lead := some ⟨0, 4, 9, w, [], false⟩, prepared := some ⟨4, 9, false⟩, lockCluster := true, lockDevice := true } }

/-- The lead with a packet that waits for parts of members. -/
def awaiting (w : List (Nat × Nat)) : State := holding (lead3 frwRunning) { ticket (pk.op 0x04) with awaiting := w }

/-- A sequence that generates, its lane of furrow 5, and a lead that waits for the lane's token from another group. -/
def request0 : Request := ⟨0, 3, 0, none, false, ⟨0, 0, 0x3F800000, 0, 0x3F800000, 0, 0, 0, [], []⟩⟩
def seq0 : Seq :=
  ⟨0, 1, 0, 0, 0, 0, 0, 256, .generate, [7], 4, 4, 0, none, some request0, 0, 0, [], false, none, 100000, false, none, 0, [], []⟩
def lane0 : LaneEntry := ⟨0, 0, 0, 0, 7, 4, .generation, 0, 0, 0, 0, 1, 0, 256, 0, 4, 0, [], [], []⟩
def expecting : State :=
  let s := lead2 frwRunning []
  { s with srv := { s.srv with seqs := [(0, some seq0)], openLanes := [(0, lane0)] } }

set_option synthInstance.maxSize 400 in
set_option synthInstance.maxHeartbeats 200000 in
theorem witness_MessagesToTheLead :
    (∀ st ∈ [frwRunning, frwStopped], ∀ w ∈ [[1, 2], [1]], let s := deciding st w
      s.takesMessage 0 (from1 (.cfgReady 4)) ∧ s.takesMessage 0 (from1 (.cfgConflict 4 7)) ∧ s.que.tickets = [] ∧
        s.cfg.lead = some ⟨0, 4, 9, w, [], false⟩ ∧ 1 ∈ w ∧ s.replyInTime ⟨0, 4, 9, w, [], false⟩ = true ∧ s.inSchedule = (st == frwRunning)) ∧
    (∃ d ∈ [1, 2], d ≠ 1) ∧ (∀ d ∈ [1], d = 1) ∧
    (∀ w ∈ [[(1, 8), (2, 9)], [(1, 8)]], let s := awaiting w
      s.takesMessage 0 (from1 (.completion 8 .ok 0 0 0 [])) ∧ s.que.tickets = [{ ticket (pk.op 0x04) with awaiting := w }] ∧ 1 ≠ s.self ∧
        (pk.op 0x04).opcode ∈ [0x04, 0x60, 0x61, 0x62, 0x70, 0x71]) ∧ ((2, 9) : Nat × Nat).1 ≠ 1 ∧
    expecting.takesMessage 0 (from1 (.tokens 0 5 [⟨0, 11, 5, false, false, false, false, 5⟩] [0] [] [] [])) ∧ expecting.que.tickets = [] ∧
    expecting.isLead = true ∧ expecting.srv.waitCmds = [] ∧ expecting.srv.farWait = [] ∧ expecting.srv.openLanes = [(0, lane0)] ∧
    sampled lane0 = true ∧ expecting.seqOf 0 = some seq0 ∧ seq0.req = some request0 ∧ request0.deadline = none ∧ seq0.cancelled = false ∧
    (0, lane0.set, lane0.lane) ∉ expecting.srv.misses ∧ 11 ∉ request0.sampling.stops ∧ lane0.position + 2 < seq0.maxLen ∧
    request0.delivered + 1 < request0.wanted ∧ expecting.kv.files = [] := by
  decide +kernel

/-- The lead whose commit is overdue, for the packet of ticket 0. -/
def overdue : State := holding (deciding frwStopped [1, 2]) (ticket (clusterPk 4 9))

theorem witness_MessagesToTheLead_overdue :
    overdue.alive = true ∧ overdue.inSchedule = false ∧ overdue.cfg.lead = some ⟨0, 4, 9, [1, 2], [], false⟩ ∧
    overdue.que.tickets = [ticket (clusterPk 4 9)] ∧ (ticket (clusterPk 4 9)).no = 0 ∧ (ticket (clusterPk 4 9)).origin = .host 0 ∧
    (lead3 frwRunning).que.tickets = [] ∧ (lead3 frwRunning).inSchedule = true ∧ (lead3 frwStopped).cfg.lead = none := by
  decide +kernel

/-- An error record of another device. -/
def record1 : ErrRec := ⟨7, 0x30, 4, 1, false, some 3, none, 0, 0, 0, 5⟩

/-- A member whose tile 3 runs a step of instance 0. -/
def stepped : State := (member.setSeq 3 seqRun).modTile 3 fun t => { t with inst := some 0 }

theorem witness_FailureMessages :
    (∀ b ∈ [CtrlBody.fenced 2 1 (Config.serial + 1), .fenced 1 1 Config.serial], member.takesMessage 0 (fromLead b)) ∧ member.que.tickets = [] ∧
    Config.serial + 1 ≠ Config.serial ∧ member.isLead = false ∧ 1 ∈ member.members ∧ 1 = member.get (R.GLB_PEER_EPOCH.EPOCH 1) ∧
    member.isDeclared 1 = false ∧ member.noColl ∧ member.assigned = true ∧ member.isFenced = false ∧ 1 = member.get R.GLB_MEMBERSHIP.EPOCH ∧
    member.frw.startTicket = none ∧ member.frw.stopTicket = none ∧ member.stopsAlone ∧
    stepped.takesMessage 0 (fromLead (.failure 1 0 0 5 none)) ∧ 5 = stepped.stepFurrow ∧ stepped.tilesOf 0 = [3] ∧
    (∀ k ∈ [2, 3, 4], (lead3 frwRunning).takesMessage 0 (from1 (.failure k 2 0 5 (some record1)))) ∧ (lead3 frwRunning).isLead = true ∧
    (2, 1) ∉ (lead3 frwRunning).flt.silentReports ∧ (lead3 frwRunning).cfg.lead = none ∧ 1 ≠ (lead3 frwRunning).self ∧
    1 ∈ (lead3 frwRunning).members ∧ (lead3 frwRunning).isDeclared 1 = false ∧ (lead3 frwRunning).flt.last = none ∧
    ((lead3 frwRunning).get R.GLB_ERR_LOG.TAIL + 1) % 64 ≠ (lead3 frwRunning).get R.GLB_ERR_LOG.HEAD := by
  refine ⟨?_, by decide, Nat.succ_ne_self _, by decide +kernel⟩
  simp only [List.forall_mem_cons, List.not_mem_nil, IsEmpty.forall_iff, implies_true, and_true]
  exact ⟨by decide +kernel, by decide +kernel⟩

/-- The lead of three devices with a message to device 1 that nothing has acknowledged, and one that has heard device 1 no more. -/
def unanswered (again : Bool) : State :=
  let s := lead3 frwRunning
  { s with flt := { s.flt with sent := [⟨1, ⟨0, 1, 3, 1, .cfgReady 1⟩, again⟩] } }
def silent1 : State :=
  let s := lead3 frwRunning
  { s with frw := { s.frw with silent := [(1, s.get R.FRW_CTRL.MISSING_BEACON_LIMIT)] } }

/-- The lead once a declared device waits for the members in `w`; with device 1's digest unequal twice; and once the lead is lost. -/
def removing (st : Nat) (h : Nat) (w : List Nat) : State :=
  let s := (lead3 st).put R.FRW_STATE.HEADLAND h
  { s with flt := { s.flt with declared := [⟨1, 1, w⟩] } }
def divergent1 (n enforce : Nat) : State :=
  let s := (lead3 frwRunning).put R.CFG_CTRL.ENFORCE enforce
  { s with cfg := { s.cfg with divergent := [(1, n)] } }
def leadGone (st : Nat) : State :=
  let s := up [(R.GLB_DEVPOS.ASSIGNED, 1), (R.GLB_MEMBER_STATE.STATE, 1), (R.GLB_MEMBERSHIP.EPOCH, 1), (R.FRW_STATE.STATE, st)]
  { s with frw := { s.frw with leadSilent := true }, flt := { s.flt with leadLost := true } }

set_option synthInstance.maxSize 400 in
set_option synthInstance.maxHeartbeats 200000 in
theorem witness_Membership :
    (∀ b ∈ [true, false], (unanswered b).quiet ∧
      (unanswered b).flt.sent.find? (fun x => x.dst == 1 && x.msg.msgId == 3) = some ⟨1, ⟨0, 1, 3, 1, .cfgReady 1⟩, b⟩ ∧
        (unanswered b).route 1 = some 0) ∧
    (lead3 frwRunning).deathDue 1 = false ∧ silent1.quiet ∧ silent1.deathDue 1 = true ∧ silent1.isLead = true ∧ silent1.cfg.lead = none ∧
    1 ≠ silent1.self ∧ 1 ∈ silent1.members ∧ silent1.isDeclared 1 = false ∧ 2 ∈ silent1.others ∧ (silent1.route 2).isSome = true ∧
    (∀ s ∈ [removing frwRunning 1 [], removing frwStopped 0 []], s.quiet ∧
      (s.isSet R.FRW_STATE.HEADLAND = true ∨ s.inSchedule = false) ∧ s.flt.declared = [⟨1, 1, []⟩] ∧ s.cfg.instA = []) ∧
    (removing frwRunning 1 [2]).quiet ∧ (∃ y ∈ (removing frwRunning 1 [2]).flt.declared, y.waiting ≠ []) ∧
    (removing frwRunning 0 []).quiet ∧ (removing frwRunning 0 []).isSet R.FRW_STATE.HEADLAND = false ∧ (removing frwRunning 0 []).inSchedule = true ∧
    (∀ e, e < 2 → (divergent1 2 e).quiet ∧ (divergent1 2 e).isLead = true ∧ 2 ≤ Table.get 0 1 (divergent1 2 e).cfg.divergent ∧
      1 ≠ (divergent1 2 e).self ∧ (divergent1 2 e).isSet R.CFG_CTRL.ENFORCE = decide (e = 1) ∧ (divergent1 2 e).inSchedule = true ∧
        (divergent1 2 e).frw.stopAt = none) ∧
    Table.get 0 1 (divergent1 1 0).cfg.divergent < 2 ∧
    (∀ st ∈ [frwRunning, frwStopped], let s := leadGone st
      s.quiet ∧ s.frw.leadSilent = true ∧ s.frw.startTicket = none ∧ s.frw.stopTicket = none ∧ s.stopsAlone ∧ s.flt.leadLost = true ∧
        s.cfg.instA = [] ∧ s.cfg.instS = []) ∧ (leadGone frwRunning).inSchedule = true ∧ (lead3 frwRunning).frw.leadSilent = false ∧
    (lead3 frwRunning).flt.leadLost = false := by
  decide +kernel

/-- A sequence whose lane has failed so often, whose request is the ticket's. -/
def failing (T : Ticket) (n : Nat) : State :=
  let s := holding (up [(R.GLB_ERR_CTRL.LANE_RETRY_LIMIT, 3)]) T
  { s with srv := { s.srv with seqs := [(0, some { seq0 with fails := n })] } }

/-- The lead with a running, degraded or suspended instance 15. -/
def health15 (h stop run : Nat) : State :=
  lead2 frwRunning [(R.GLB_INST_HEALTH.STATE 15, h), (R.GLB_INST_HEALTH.FAIL_RUN 15, run), (R.GLB_ERR_CTRL.DEGRADED_STOP, stop),
    (R.GLB_ERR_CTRL.DEGRADE_COUNT, 16)]

set_option synthInstance.maxSize 400 in
set_option synthInstance.maxHeartbeats 200000 in
theorem witness_Faults :
    (up []).alive = true ∧ (up []).que.tickets = [] ∧
    (let s := failing (ticket (pk.op 0x23)) 2
     s.alive = true ∧ ({ s with que := { s.que with tickets := [] } } : State).que.tickets = [] ∧ s.seqOf 0 = some { seq0 with fails := 2 } ∧
       2 < s.get R.GLB_ERR_CTRL.LANE_RETRY_LIMIT) ∧
    (let s := failing (ticket (pk.op 0x23)) 3
     s.alive = true ∧ s.que.tickets = [ticket (pk.op 0x23)] ∧ (ticket (pk.op 0x23)).origin = .host 0 ∧ s.seqOf 0 = some { seq0 with fails := 3 } ∧
       seq0.req = some request0 ∧ request0.ticket = (ticket (pk.op 0x23)).no ∧ s.get R.GLB_ERR_CTRL.LANE_RETRY_LIMIT ≤ 3) ∧
    (up []).isLead = true ∧ ((up []).put R.GLB_DEVPOS.ASSIGNED 1).isLead = false ∧ (up []).health 0 = healthNone ∧
    (health15 healthSuspended 0 0).health 15 = healthSuspended ∧
    (health15 healthDegraded 0 0).health 15 = healthDegraded ∧ (health15 healthDegraded 0 0).isSet R.GLB_ERR_CTRL.DEGRADED_STOP = false ∧
    (∀ stop, stop < 2 → ∀ h ∈ [healthDegraded, healthRunning], let s := health15 h stop 16
      s.alive = true ∧ s.que.tickets = [] ∧ s.health 15 = h ∧ s.isLead = true ∧ s.isSet R.GLB_ERR_CTRL.DEGRADED_STOP = decide (stop = 1) ∧
        15 ∉ s.srv.suspended ∧ s.get R.GLB_ERR_CTRL.DEGRADE_COUNT ≤ s.get (R.GLB_INST_HEALTH.FAIL_RUN 15)) := by
  decide +kernel

theorem witness_DoorbellChecks :
    ∀ e, e < 2 → let s := up [(R.QUE_SQ_CTRL.ENABLE 15, e), (R.QUE_CQ_CTRL.ENABLE 15, e), (R.QUE_TR_CTRL.ENABLE 255, e)]
      s.quiet ∧ s.hostReaches = true ∧ s.isSet R.GLB_READY.BOOT_OK = true ∧ s.isLead = true ∧
        s.isSet (R.QUE_SQ_CTRL.ENABLE 15) = decide (e = 1) ∧ s.sqEntries 15 ≤ 65535 ∧
        s.isSet (R.QUE_CQ_CTRL.ENABLE 15) = decide (e = 1) ∧ s.cqEntries 15 ≤ 65535 ∧
        s.isSet (R.QUE_TR_CTRL.ENABLE 255) = decide (e = 1) ∧ s.trEntries 255 ≤ 65535 := by
  decide +kernel

/-- Rings 15 and token ring 255 open; a read of ring 15's packet 3 in flight; a payload read for the only packet. -/
def ringing (fs : List (Field × Nat)) : State :=
  up ([(R.QUE_SQ_CTRL.ENABLE 15, 1), (R.QUE_CQ_CTRL.ENABLE 15, 1), (R.QUE_TR_CTRL.ENABLE 255, 1), (R.QUE_SQ_CTRL.ADMIN 15, 1)] ++ fs)
def fetching (f : Fetch) : State := let s := ringing []; { s with que := { s.que with fetches := [f] } }

/-- The 64 bytes of a CLUSTER_FORM, which reads its payload. -/
def formBytes : Bytes := [5, 0, 0, 0] ++ leBytes 4 7 ++ leBytes 4 64 ++ [0, 0, 0, 0] ++ leBytes 8 0x1000 ++ List.replicate 40 0

set_option synthInstance.maxSize 400 in
set_option synthInstance.maxHeartbeats 200000 in
theorem witness_Rings :
    (let s := (up []).put R.GLB_DEVPOS.ASSIGNED 1
     s.alive = true ∧ s.hostReaches = true ∧ s.isSet R.GLB_READY.BOOT_OK = true ∧ s.que.tickets = [] ∧ s.isLead = false) ∧
    (let s := ringing []
     s.alive = true ∧ s.hostReaches = true ∧ s.isSet R.GLB_READY.BOOT_OK = true ∧ s.que.tickets = [] ∧ s.isLead = true ∧
       15 < s.sqEntries 15 ∧ s.mayFetch 15 = true ∧ s.inFlight 15 = 0 ∧ 63 < s.trEntries 255 ∧ s.isSet (R.QUE_TR_CTRL.ENABLE 255) = true ∧
       ∀ f ∈ s.que.fetches, f.ring ≠ 15) ∧
    (let s : State := { ringing [(R.QUE_CQ_CTRL.INDEX 15, 15)] with que := { Que.reset with cqHeld := [(15, [⟨7, 5, .ok, true, 0, 0, 0, 0⟩])] } }
     s.alive = true ∧ s.hostReaches = true ∧ s.isSet R.GLB_READY.BOOT_OK = true ∧ s.que.tickets = [] ∧ s.isLead = true ∧
       15 < s.cqEntries 15 ∧ s.isSet (R.QUE_CQ_CTRL.ENABLE 15) = true ∧ s.d2hOpen = true ∧
       Table.get [] 15 s.que.cqHeld = [⟨7, 5, .ok, true, 0, 0, 0, 0⟩] ∧ (s.get (R.QUE_CQ_CTRL.INDEX 15) + 1) % s.cqEntries 15 ≠ 15) ∧
    (let s := fetching ⟨15, 15, none⟩
     s.alive = true ∧ s.hostReaches = true ∧ s.isSet R.GLB_READY.BOOT_OK = true ∧ s.que.tickets = [] ∧ s.isLead = true ∧
       s.que.fetches = [⟨15, 15, none⟩] ∧ commonCheck s (packetOf 15 (fit 64 formBytes)) = none ∧
       readsPayload s (packetOf 15 (fit 64 formBytes)) = true ∧ s.d2hOpen = true) ∧
    (let s := holding (fetching ⟨15, 15, some 0⟩) (ticket (pk.op 5))
     s.alive = true ∧ s.hostReaches = true ∧ s.isSet R.GLB_READY.BOOT_OK = true ∧ s.que.tickets = [ticket (pk.op 5)] ∧
       (ticket (pk.op 5)).origin = .host 0 ∧ s.que.fetches = [⟨15, 15, some (ticket (pk.op 5)).no⟩]) := by
  decide +kernel

/-- A device whose stacks have no Granary. -/
def uncached : State := up ((List.range 16).map fun n => (R.TSTORE_GRANARY.SIZE n, 0))

set_option synthInstance.maxSize 400 in
set_option synthInstance.maxHeartbeats 200000 in
theorem witness_MemoryWindow :
    uncached.alive = true ∧ uncached.cxl.reqUsed < 32 ∧ uncached.cxl.rwdUsed < 32 ∧ uncached.hostReaches = true ∧ uncached.windowServes = true ∧
    State.reset.hostReaches = false ∧ (up [(R.CXLU_CTRL.IDE_REQUIRED, 1)]).windowServes = false ∧
    (up [(R.CXLU_CTRL.IDE_REQUIRED, 1)]).hostReaches = true ∧
    (∀ offset ∈ [0, 0xBFFFFFFFFF], let line := stack0 + offset / 64 * 64
      uncached.cacheHome line = none ∧ uncached.pcFree (stackOf line) (uncached.pcOf line) = true ∧ uncached.violated none line = none ∧
        uncached.poisoned line 64 = false) := by
  decide +kernel

/-- A device whose vector 7 awaits so many responses, with that vector's message wanted, in its hold-off, or due. -/
def vectors (wait : Nat) (hold due : List Nat) : State :=
  { up [] with cxl := { Cxl.reset with answers := true, goWait := [(7, wait)], irqWant := [7], holdoff := hold, irqDue := due } }

/-- The upstream port before Bus Master Enable, with a held record and a waiting message; PERST_N high, and low. -/
def portDown (fs : List (Field × Nat)) : State :=
  let s := up (fs ++ [(R.CXLU_STATUS.BUS_MASTER, 0), (R.QUE_SQ_CTRL.ENABLE 15, 1)])
  { s with cxl := { s.cxl with waiting := [.msix 3] }, que := { s.que with cqHeld := [(15, [⟨7, 5, .ok, true, 0, 0, 0, 0⟩])] } }
def perst (s : State) (b : Bool) : State := { s with pins := { s.pins with perstN := b } }

theorem witness_UpstreamPort :
    (up []).alive = true ∧ Table.get 0 7 (up []).cxl.goWait = 0 ∧ 1 < Table.get 0 7 (vectors 2 [] []).cxl.goWait ∧
    (∀ h ∈ [[], [7]], Table.get 0 7 (vectors 1 h []).cxl.goWait = 1 ∧ 7 ∈ (vectors 1 h []).cxl.irqWant ∧ (vectors 1 h []).d2hOpen = true) ∧
    7 ∉ (vectors 1 [] []).cxl.holdoff ∧ 7 ∈ (vectors 1 [7] []).cxl.holdoff ∧ 7 ∉ (vectors 1 [7] []).cxl.irqDue ∧
    7 ∈ (vectors 0 [7] [7]).cxl.irqDue ∧ (vectors 0 [7] [7]).d2hOpen = true ∧ (vectors 2 [] []).alive = true ∧
    (portDown []).quiet ∧ (portDown []).hostReaches = true ∧ (portDown []).isSet R.CXLU_CTRL.IDE_REQUIRED = false ∧
    (portDown []).isSet R.CXLU_STATUS.LINK_UP = true ∧ (portDown []).que.fetches = [] ∧ (portDown []).isLead = true ∧
    (portDown [(R.CXLU_STATUS.LINK_UP, 0)]).quiet ∧ (portDown [(R.CXLU_STATUS.LINK_UP, 0)]).isSet R.CXLU_STATUS.LINK_UP = false ∧
    (portDown []).isSet R.CXLU_STATUS.BUS_MASTER = false ∧ (perst (up []) true).quiet ∧ (perst (up []) true).pins.perstN = true ∧
    (perst (up []) true).isSet R.CXLU_STATUS.BUS_MASTER = true ∧ (perst (up []) true).isSet R.CXLU_CTRL.IDE_REQUIRED = false ∧
    (∀ b ∈ [true, false], (perst (portDown []) b).quiet ∧ (perst (portDown []) b).pins.perstN = b) := by
  decide +kernel

/-- An expander behind port 0, of so many bytes; and a device that has found none, or has one of 1 GiB. -/
def expander (type3 ide : Bool) (bytes : Nat) : Expander := ⟨0, 8, 5, true, type3, ide, bytes⟩
def nothingFound (ide : Bool) : State := { up [] with cxl := { Cxl.reset with answers := true, bifurcated := false, expanderIde := ide } }
def oneFound : State :=
  { up [(R.CXLD_PORT.LINK_UP 1, 1)] with cxl := { Cxl.reset with answers := true, enumerated := true, far := [(1, some ⟨farBase, 0x40000000⟩)] } }

theorem witness_Expanders :
    State.reset.quiet ∧ State.reset.isSet R.GLB_READY.BOOT_OK = false ∧ oneFound.quiet ∧ oneFound.cxl.enumerated = true ∧
    (nothingFound true).quiet ∧ (nothingFound true).isSet R.GLB_READY.BOOT_OK = true ∧ (nothingFound true).cxl.enumerated = false ∧
    (nothingFound true).cxl.bifurcated = false ∧ (nothingFound true).usable (expander true true 0x40000000) = true ∧
    (nothingFound true).usable (expander true true 0x3FFFFFFF) = false ∧ oneFound.isSet (R.CXLD_PORT.LINK_UP 1) = true ∧
    Table.get none 1 oneFound.cxl.far = some ⟨farBase, 0x40000000⟩ ∧ oneFound.kv.files = [] ∧
    oneFound.isSet (R.CXLD_PORT.LINK_UP 0) = false := by
  decide +kernel

theorem witness_UnusableExpanders :
    ∀ ide ∈ [true, false], let s := nothingFound ide
      s.alive = true ∧ s.isSet R.GLB_READY.BOOT_OK = true ∧ s.cxl.enumerated = false ∧ s.cxl.expanderIde = ide ∧
        (∀ e ∈ [expander false true 0x40000000, expander true true 0x3FFFFFFF, expander true false 0x40000000], e.port = 0) ∧
        (expander false true 0x40000000).type3 = false ∧ (expander true true 0x3FFFFFFF).bytes < 0x40000000 ∧
        (expander true false 0x40000000).ide = false ∧
        ¬ ((expander true true 0x40000000).type3 = false ∨ (expander true true 0x40000000).bytes < 0x40000000 ∨
          ((expander true true 0x40000000).ide = false ∧ s.cxl.expanderIde = true)) := by
  decide +kernel

/-- A device in reset, with PERST_N so; and one without rails. -/
def inReset (p : Bool) : State := { State.reset with pins := { Pins.reset with sysRstN := false, perstN := p } }
def noRails : State := { State.reset with pins := { Pins.reset with railsOn := false } }

theorem witness_ResetAndPower :
    State.reset.pins.sysRstN = true ∧ State.reset.pins.railsOn = true ∧ State.reset.pins.perstN = false ∧ noRails.pins.railsOn = false ∧
    (∀ p ∈ [true, false], (inReset p).pins.sysRstN = false ∧ (inReset p).pins.vrAlertLow = [] ∧ (inReset p).pins.perstN = p) ∧
    (perst (up []) true).quiet ∧ (perst (up []) true).pins.perstN = true ∧ (perst (up []) true).isSet R.CXLU_STATUS.LINK_UP = true ∧
    (perst (up []) true).que.fetches = [] := by
  decide +kernel

/-- A firmware image that verifies nowhere, a device whose security core has started and read its flash, and one that has booted. -/
def object1 : SignedObj := ⟨[], false, 1, 0, 0, none⟩
def started1 (o : Option SignedObj) (boot : Nat) (rec : Bool) : State :=
  let s := dev [(R.GLB_READY.BOOT_OK, boot), (R.GLB_READY.MEM_OK, boot)]
  { s with sec := { s.sec with started := true, read := true, fwSlot := o, recovery := rec } }

theorem witness_StartUp :
    (∀ o ∈ [some object1, none], let s := started1 o 0 false
      s.quiet ∧ s.sec.started = true ∧ s.isSet R.GLB_READY.BOOT_OK = false ∧ s.sec.recovery = false ∧ s.sec.read = true ∧
        s.sec.floorSlots = [] ∧ s.sec.charSlots = [] ∧ s.sec.fwSlot = o) ∧
    State.reset.quiet ∧ State.reset.sec.started = false ∧ (started1 none 0 true).quiet ∧ (started1 none 0 true).sec.recovery = true ∧
    (started1 none 1 false).quiet ∧ (started1 none 1 false).isSet R.GLB_READY.BOOT_OK = true ∧ (started1 none 1 false).flt.selftest = none ∧
    (started1 none 1 false).flt.startTested = false ∧ (started1 none 1 false).isSet R.GLB_READY.MEM_OK = true := by
  decide +kernel

/-! ### Ill-formed commands -/

/-- A packet of ring 16, a report and a message from outside the cluster, a frame of no type. -/
def pk16 : Packet := { pk with ring := 16 }
def badReport : MemReport := ⟨[(2 ^ 48, true)], []⟩
def msg0 : CtrlMsg := ⟨0, 0, 0, 0, .ack 0⟩
def msg64 : CtrlMsg := { msg0 with src := 64 }
def frame0 : Frame := frame 0 0 0 (List.replicate 256 0)
def frame16 : Frame := { frame0 with type := 16 }

theorem test_wf_refuses_packetFields :
    ([{ pk with ring := 16 }, { pk with opcode := 256 }, { pk with flags := 256 }, { pk with cls := 256 },
      { pk with rsv3 := 256 }, { pk with tag := 2 ^ 32 }, { pk with payloadLen := 2 ^ 32 }, { pk with tenant := 65536 },
      { pk with rsv14 := 65536 }, { pk with payloadAddr := 2 ^ 64 }, { pk with p0 := 2 ^ 64 }, { pk with p1 := 2 ^ 64 },
      { pk with p2 := 2 ^ 64 }, { pk with p3 := 2 ^ 64 }, { pk with p4 := 2 ^ 64 }].all fun (p : Packet) => !p.wf) = true := by decide

theorem test_wf_refuses_partFields :
    ([{ frame0 with seq := 1024 }, { frame0 with ack := 1024 }, { frame0 with srcTile := 16 }, { frame0 with flit := [] }].all fun (f : Frame) => !f.wf) &&
    ([{ msg0 with dst := 64 }, { msg0 with msgId := 2 ^ 32 }, { msg0 with epoch := 2 ^ 32 }].all fun (m : CtrlMsg) => !m.wf) &&
    !(⟨[], [(16, true, 0)]⟩ : MemReport).wf = true := by decide +kernel

theorem test_wf_refuses_packets_1 :
    [.identify pk16, .geometryGet pk16, .cfgStage pk16 none, .cfgStageDiscard pk16, .cfgCommit pk16, .cfgCommitCluster pk16,
      .cfgDigest pk16, .clusterForm pk16 none, .fence pk16, .rejoin pk16, .rejoinEngine pk16, .resetPartition pk16, .meridianSet pk16,
      .furrowPlanLoad pk16 none, .furrowStart pk16, .furrowStop pk16, .modelLoad pk16 model0, .modelUnload pk16, .planLoad pk16,
      .adapterLoad pk16, .adapterRetire pk16, .prefixCreate pk16, .prefixRelease pk16, .kvImport pk16, .kvExport pk16, .seqOpen pk16,
      .seqAppend pk16 none, .seqGenerate pk16 none, .seqCancel pk16, .seqClose pk16, .tenantSet pk16, .hintPacket pk16, .powerCapSet pk16,
      .telemetryRead pk16, .energyRead pk16, .seqRead pk16, .random2kRead pk16, .random64Read pk16, .seqWriteCheck pk16, .mixedCheck pk16].all (fun (c : Instr) => !c.wf) = true := by decide +kernel

theorem test_wf_refuses_packets_2 :
    [.nbuRead pk16, .retrain pk16, .prbs31q pk16, .prbs13q pk16, .ssprq pk16, .frameLoop pk16, .linkTestRetrain pk16, .selftest pk16].all (fun (c : Instr) => !c.wf) = true := by decide +kernel

theorem test_wf_refuses_ports :
    [.linkTestEnd 24 0 0 0, .idleFrame 24 frame0 0, .dataFrame 24 frame0 0 false false, .startFrame 24 frame0 0, .beaconFrame 24 frame0 0,
      .relayFrame 24 frame0 0, .nakFrame 24 frame0 0, .trainFrame 24 0 0 0, .replayTimeout 24, .linkRetrain 24, .peerDetect 24,
      .linkTrainDone 24 false, .linkPeerLost 24, .ackMsg 24 0 msg0, .fwdCmd 24 0 msg0, .completionMsg 24 0 msg0, .laneTable 24 0 msg0,
      .laneAck 24 0 msg0, .laneAccept 24 0 msg0, .laneDiscard 24 0 msg0, .cfgPrepare 24 0 msg0, .cfgReady 24 0 msg0,
      .cfgConflictReply 24 0 msg0, .cfgCommitGo 24 0 msg0, .cfgAbort 24 0 msg0, .t0Msg 24 0 msg0, .tokensMsg 24 0 msg0,
      .fencedMsg 24 0 msg0, .failureStepNotice 24 0 msg0, .failurePeerSilent 24 0 msg0, .failureSelfFence 24 0 msg0,
      .failureErrorRecord 24 0 msg0, .uncorrectableFrame 24].all (fun (c : Instr) => !c.wf) = true := by decide +kernel

theorem test_wf_refuses_tiles_1 :
    [.directListGo 16, .seqCtrlModeWrite 16 0, .spareReq 16 0, .segPowerWrite 16 0 0, .descriptorIssue 16, .matmul 16 0 ⟨0, 0, 0, 0⟩ noErr,
      .chainLinkAdd 16 0 (⟨0, 0, 0, 0⟩, noErr), .writeOutTimeout 16 0, .plotRefetchDone 16 0, .vecCopy 16 0 noErr, .vecAdd 16 0 noErr,
      .vecSub 16 0 noErr, .vecMul 16 0 noErr, .fma 16 0 noErr, .axpb 16 0 noErr, .vecMax 16 0 noErr, .vecMin 16 0 noErr,
      .mulrow 16 0 noErr, .divrow 16 0 noErr, .rowsum 16 0 noErr, .rowmax 16 0 noErr, .rowamax 16 0 noErr, .actTable 16 0 noErr,
      .gateTable 16 0 noErr, .exprow 16 0 noErr, .rmsnorm 16 0 noErr, .layernorm 16 0 noErr, .quantI8s 16 0 noErr, .quantI8a 16 0 noErr,
      .quantFp8 16 0 noErr, .rescaleTab 16 0 noErr, .rescaleReg 16 0 noErr, .rescaleFp 16 0 noErr, .wireQ8 16 0 noErr, .wireFp8 16 0 noErr,
      .wireWide 16 0 noErr, .widenAdd 16 0 noErr, .widenAddF32 16 0 noErr, .attend 16 0 ([], noErr), .attendMerge (16, noErr)].all (fun (c : Instr) => !c.wf) = true := by decide +kernel

theorem test_wf_refuses_tiles_2 :
    [.sampleLocal 16 noErr, .sampleFinal 16 noErr, .copyXfer 16 0 noErr, .stridedCopy 16 0 noErr, .gather 16 0 noErr, .zeroFill 16 0 noErr,
      .reduceScatter 16 noErr, .allGather 16 noErr, .allReduce 16 noErr, .broadcast 16 noErr, .oneShotAllToAll 16 noErr,
      .ringPass 16 noErr, .nbuDesc 16 noErr, .nbuAtom 16 0 ⟨[], 0, false⟩, .nbuChainReceive 16 0 0, .waitMeridian 16, .waitCounter 16,
      .hintDescriptor 16, .markDesc 16, .failureNotice 16, .currentLimitStep 16, .droopTrip 16, .droopSkipStart 16, .droopEnd 16,
      .thermalSensorRead 16 (List.replicate 8 0) (List.replicate 4 0), .thermalThrottleStep 16 0 false, .granaryFillDone 16 0 false,
      .scrub 16 false none, .segmentWakeDone 16 0, .segmentOnDone 16 0, .spillCopyDone 16 0, .engineBistDone 16 false, .granaryFlushDone 16].all (fun (c : Instr) => !c.wf) = true := by decide +kernel

theorem test_wf_refuses_memoryReports_1 :
    [.matmul 0 0 ⟨0, 0, 0, 0⟩ badReport, .chainLinkAdd 0 0 (⟨0, 0, 0, 0⟩, badReport), .vecCopy 0 0 badReport, .vecAdd 0 0 badReport,
      .vecSub 0 0 badReport, .vecMul 0 0 badReport, .fma 0 0 badReport, .axpb 0 0 badReport, .vecMax 0 0 badReport, .vecMin 0 0 badReport,
      .mulrow 0 0 badReport, .divrow 0 0 badReport, .rowsum 0 0 badReport, .rowmax 0 0 badReport, .rowamax 0 0 badReport,
      .actTable 0 0 badReport, .gateTable 0 0 badReport, .exprow 0 0 badReport, .rmsnorm 0 0 badReport, .layernorm 0 0 badReport,
      .quantI8s 0 0 badReport, .quantI8a 0 0 badReport, .quantFp8 0 0 badReport, .rescaleTab 0 0 badReport, .rescaleReg 0 0 badReport,
      .rescaleFp 0 0 badReport, .wireQ8 0 0 badReport, .wireFp8 0 0 badReport, .wireWide 0 0 badReport, .widenAdd 0 0 badReport,
      .widenAddF32 0 0 badReport, .attend 0 0 ([], badReport), .attendMerge (0, badReport), .sampleLocal 0 badReport, .sampleFinal 0 badReport,
      .copyXfer 0 0 badReport, .stridedCopy 0 0 badReport, .gather 0 0 badReport, .zeroFill 0 0 badReport, .reduceScatter 0 badReport].all (fun (c : Instr) => !c.wf) = true := by decide +kernel

theorem test_wf_refuses_memoryReports_2 :
    [.allGather 0 badReport, .allReduce 0 badReport, .broadcast 0 badReport, .oneShotAllToAll 0 badReport, .ringPass 0 badReport,
      .nbuDesc 0 badReport].all (fun (c : Instr) => !c.wf) = true := by decide +kernel

theorem test_wf_refuses_messages :
    [.ackMsg 0 0 msg64, .fwdCmd 0 0 msg64, .completionMsg 0 0 msg64, .laneTable 0 0 msg64, .laneAck 0 0 msg64, .laneAccept 0 0 msg64,
      .laneDiscard 0 0 msg64, .cfgPrepare 0 0 msg64, .cfgReady 0 0 msg64, .cfgConflictReply 0 0 msg64, .cfgCommitGo 0 0 msg64,
      .cfgAbort 0 0 msg64, .t0Msg 0 0 msg64, .tokensMsg 0 0 msg64, .fencedMsg 0 0 msg64, .failureStepNotice 0 0 msg64,
      .failurePeerSilent 0 0 msg64, .failureSelfFence 0 0 msg64, .failureErrorRecord 0 0 msg64].all (fun (c : Instr) => !c.wf) = true := by decide +kernel

theorem test_wf_refuses_transports :
    [.getVersion 2, .getCapabilities 2, .negotiateAlgorithms 2, .getDigests 2, .getCertificate 2 0, .challenge 2 0,
      .getMeasurements 2 none false, .keyExchange 2 0, .finish 2 0 false, .keyUpdate 2 0, .heartbeat 2 0, .endSession 2 0,
      .setInstanceKey 2 0 0 0 0, .setFloor 2 0 object1].all (fun (c : Instr) => !c.wf) = true := by decide +kernel

theorem test_wf_refuses_operands_1 :
    [.trafficGenEnd 16 0 0 0 none [], .stackThermRead 16 0, .refreshInterval 16 0, .atomBoundary 16 0, .stackLaneMarked 16 0 0,
      .stackChannelLost 16 0, .regionZeroDone 16 0, .stackRetrainDone 16 0 [], .linkTestEnd 0 0 0 256, .sqTailDoorbell 16 0,
      .cqHeadDoorbell 16 0, .rdcurrCompletion 16 none none, .sqTailDoorbell 0 (2 ^ 64), .cqHeadDoorbell 0 (2 ^ 64),
      .trHeadDoorbell 0 (2 ^ 64), .trHeadDoorbell 256 0, .ringCtrlWrite 0 256 0, .ringCtrlWrite 3 0 0, .ringCtrlWrite 0 0 (2 ^ 64),
      .registerWrite false 0 0 (2 ^ 64), .setNumericEffecterValue 0 (2 ^ 64), .registerWrite false 0 0x10000000 0, .seqCtrlModeWrite 0 4,
      .spareReq 0 8, .segPowerWrite 0 (2 ^ 32) 0, .segPowerWrite 0 0 (2 ^ 16), .instHealthClear 16, .instanceDegraded 16,
      .phasePreposition 16 0, .phaseLevelApply 16 0, .adapterRoom 16 0 0, .adapterVerifyDone 16 0 0, .adapterTimeout 16 0 0,
      .setInstanceKey 0 0 16 0 0, .evlogSelWrite (2 ^ 32), .eventLogRead (2 ^ 32), .atomAdd (.window 16 0 false),
      .atomMin (.window 16 0 false), .atomMax (.window 16 0 false), .minu (.window 16 0 false)].all (fun (c : Instr) => !c.wf) = true := by decide +kernel

theorem test_wf_refuses_operands_2 :
    [.maxu (.window 16 0 false), .cas (.window 16 0 false), .refInc (.window 16 0 false), .refDec (.window 16 0 false),
      .matmul 0 8 ⟨0, 0, 0, 0⟩ noErr, .chainLinkAdd 0 8 (⟨0, 0, 0, 0⟩, noErr), .writeOutTimeout 0 8, .plotRefetchDone 0 8,
      .matmul 0 0 ⟨0, 0, 0, 256⟩ noErr, .chainLinkAdd 0 0 (⟨0, 0, 0, 256⟩, noErr), .copyXfer 0 4 noErr, .stridedCopy 0 4 noErr,
      .gather 0 4 noErr, .zeroFill 0 4 noErr, .nbuAtom 0 64 ⟨[], 0, false⟩, .nbuChainReceive 0 64 0, .nbuAtom 0 0 ⟨[], 3, false⟩,
      .nbuChainReceive 0 0 3, .laneExhausted (2 ^ 32), .phasePreposition 0 (2 ^ 16), .phaseLevelApply 0 (2 ^ 16), .vrAlertFall 4,
      .vrAlertRise 4, .thermalThrottleStep 0 3 false, .refreshInterval 0 64, .atomBoundary 0 64, .stackLaneMarked 0 64 0,
      .stackChannelLost 0 64, .stackAccess (2 ^ 48) none [], .granaryAccess (2 ^ 48) none false, .controlFault 0 (2 ^ 48),
      .spillCopyDone 0 (2 ^ 48), .h2dSnoop (2 ^ 48), .stackLaneMarked 0 0 36, .regionZeroDone 0 48, .granaryFillDone 0 (2 ^ 48) false,
      .segmentWakeDone 0 24, .segmentOnDone 0 24, .idleFrame 0 frame16 0, .dataFrame 0 frame16 0 false false].all (fun (c : Instr) => !c.wf) = true := by decide +kernel

theorem test_wf_refuses_operands_3 :
    [.startFrame 0 frame16 0, .beaconFrame 0 frame16 0, .relayFrame 0 frame16 0, .nakFrame 0 frame16 0, .idleFrame 0 frame0 5,
      .dataFrame 0 frame0 5 false false, .startFrame 0 frame0 5, .beaconFrame 0 frame0 5, .relayFrame 0 frame0 5, .nakFrame 0 frame0 5,
      .trainFrame 0 (2 ^ 64) 0 0, .trainFrame 0 0 24 0, .trainFrame 0 0 0 2, .controlResend 64 0, .controlResend 0 (2 ^ 32),
      .peerDeclaredDead 64, .clusterDivergent 64, .controlFault 256 0, .adapterRoom 0 (2 ^ 32) 0, .adapterVerifyDone 0 (2 ^ 32) 0,
      .adapterTimeout 0 (2 ^ 32) 0, .adapterRoom 0 0 (2 ^ 32), .adapterVerifyDone 0 0 (2 ^ 32), .adapterTimeout 0 0 (2 ^ 32),
      .memrd (2 ^ 16) 0 [], .memrddata (2 ^ 16) 0 [], .memwr (2 ^ 16) 0 (List.replicate 64 0),
      .memwrptl (2 ^ 16) 0 (List.replicate 64 0) 0, .m2sUnsupported (2 ^ 16), .memrd 0 (2 ^ 40) [], .memrddata 0 (2 ^ 40) [],
      .memwr 0 (2 ^ 40) (List.replicate 64 0), .memwrptl 0 (2 ^ 40) (List.replicate 64 0) 0, .transferFw .full 0 (2 ^ 40) [] false 0,
      .memwrptl 0 0 (List.replicate 64 0) (2 ^ 64), .goWritepull 1024, .irqHoldoffExpiry 1024, .expanderLinkDown 2, .vsbPowerUp 4,
      .transferFw .full 256 0 [] false 0].all (fun (c : Instr) => !c.wf) = true := by decide +kernel

theorem test_wf_refuses_operands_4 :
    [.activateFw 256 false, .getCertificate 0 256, .challenge 0 256, .keyExchange 0 (2 ^ 32), .finish 0 (2 ^ 32) false,
      .keyUpdate 0 (2 ^ 32), .heartbeat 0 (2 ^ 32), .endSession 0 (2 ^ 32), .setInstanceKey 0 (2 ^ 32) 0 0 0, .setFloor 0 (2 ^ 32) object1,
      .cxlIdeKm (2 ^ 32) 0 false false, .setInstanceKey 0 0 0 (2 ^ 32) 0, .setInstanceKey 0 0 0 0 (2 ^ 256), .cxlIdeKm 0 2 false false,
      .setdasa 128 0, .setdasa 0 128, .entdaa 128, .setEndpointId 256, .getVersionSupport 256, .getSensorReading (2 ^ 16) 0,
      .setNumericEffecterValue (2 ^ 16) 0, .getNumericEffecterValue (2 ^ 16), .tapBypass 256, .collSlotSendTime (2 ^ 16),
      .upstreamLinkUp 17 0, .upstreamLinkUp 0 5, .trafficGenEnd 0 0 0 0 (some 64) [], .trafficGenEnd 0 0 0 0 none [(2 ^ 48, [0])],
      .selftestDone [⟨16, 0, 0, 0, 0, 0⟩] [], .selftestDone [⟨0, 256, 0, 0, 0, 0⟩] [], .selftestDone [] [(2 ^ 48, [0])],
      .powerSample [] (List.replicate 16 0), .powerSample (List.replicate 22 (0, 0)) [], .thermalSensorRead 0 [] (List.replicate 4 0),
      .thermalSensorRead 0 (List.replicate 8 0) [], .stackAccess 0 (some []) [], .stackAccess 0 none [72],
      .granaryAccess 63 (some [0, 0]) false, .memrd 0 0 [72], .memrddata 0 0 [72]].all (fun (c : Instr) => !c.wf) = true := by decide +kernel

theorem test_wf_refuses_operands_5 :
    [.memwr 0 0 [], .memwrptl 0 0 [] 0, .memoryInitDone [(16, 0, [])], .memoryInitDone [(0, 0, [4096])],
      .downstreamEnumeration [⟨2, 0, 0, false, true, true, 0⟩], .downstreamEnumeration [⟨0, 17, 0, false, true, true, 0⟩],
      .downstreamEnumeration [⟨0, 0, 5, false, true, true, 0⟩], .flashRefreshScan [192], .stackRetrainDone 0 0 [4096],
      .attend 0 0 ([(8, ⟨0, 0, 0, 0⟩)], noErr), .attend 0 0 ([(0, ⟨0, 0, 0, 256⟩)], noErr), .atomAdd (.window 0 4 false),
      .atomAdd (.amo 4 0 false 0), .atomAdd (.amo 0 (2 ^ 48) false 0)].all (fun (c : Instr) => !c.wf) = true := by decide +kernel

/-! ### Worked examples of the spec -/

/-- A tie of BF16 rounds away from zero (the example after R234). -/
theorem test_bf16_ties : bf16.round (fp32.decode 0x3F808000) = 0x3F81 ∧ bf16.round (fp32.decode 0xBF808000) = 0xBF81 := by decide +kernel

/-- Block-scale byte 0x95 with B = 16 is the factor 52 (the example after R237). -/
theorem test_blockScale : scaledTerm 1 1 0x95 16 = (52, false) := by decide +kernel

/-- The two K-blocks of the saturation example of "Matrix engines and accumulation": the order decides whether the slot clamps. -/
theorem test_slotClamps :
    (let x : Slot := Slot.clear.put 0 5 2145000000
     let y := (x.addInt 0 5 (scaledTerm 1 65536 0x95 16).1 false).addInt 0 5 (scaledTerm 1 (-19231) 0x95 16).1 false
     let z := (x.addInt 0 5 (scaledTerm 1 (-19231) 0x95 16).1 false).addInt 0 5 (scaledTerm 1 65536 0x95 16).1 false
     y.get 0 5 = 2146483635 ∧ y.sat = true ∧ z.get 0 5 = 2147407860 ∧ z.sat = false) := by
  decide +kernel

/-- The rescale of the query-projection example: stage 1 with its ties, and BF16 0x403C and 0x403D from stage 2. -/
theorem test_rescale :
    let m := multOf 0x0000362150000000
    stage1 m 1234567 = (192901, false) ∧ stage1 m 32 = (5, false) ∧ stage1 m (-48) = (-8, false) ∧
      bf16.round (stage2 m 192901 (.pow2 (-6)) .zero) = 0x403C ∧ bf16.round (stage2 m 192901 (.pow2 (-6)) (.pow2 (-6))) = 0x403D := by
  decide +kernel

/-- The widening example: saturated at WIDEN 0, BF16 0x430F at WIDEN 1. -/
theorem test_widening :
    let m := multOf 0x0000362150000000
    stage1 m 60000000 = (8388607, true) ∧ bf16.round (stage2 m 8388607 (.pow2 (-6)) .zero) = 0x4300 ∧
      stage1 { m with widen := 1 } 60000000 = (4687500, false) ∧ bf16.round (stage2 { m with widen := 1 } 4687500 (.pow2 (-6)) .zero) = 0x430F := by
  decide +kernel

/-- A slice of 768 columns for 16 lanes is 12,352 bytes in INT8 and 24,576 in BF16 (the example of the wire formats). -/
theorem test_wireBytes : wireBytes 0 16 768 = 12352 ∧ wireBytes 3 16 768 = 24576 := by decide

/-- The code table of the coded-plot example. -/
def exampleLengths : Bytes :=
  (List.range 128).map fun k =>
    let len := fun (e : Nat) => match e with
      | 121 | 122 => 2 | 120 | 123 => 3 | 119 | 124 => 4 | 118 => 5 | 117 | 125 => 6 | _ => 0
    BitVec.ofNat 8 (len (2 * k) + 16 * len (2 * k + 1))

/-- Its codewords, and its first four exponents from the bits 0100 0010 0. -/
theorem test_codewords :
    codewords exampleLengths = [(2, 0, 121), (2, 1, 122), (3, 4, 120), (3, 5, 123), (4, 12, 119), (4, 13, 124), (5, 28, 118), (6, 58, 117), (6, 59, 125)] ∧
      tableClean exampleLengths = true ∧
      decodeSub (codewords exampleLengths) 6 [false, true, false, false, false, false, true, false, false] 4 0 0 [] = ([122, 121, 121, 120], none) := by
  decide +kernel

/-- Device address 0x34_1234_5000 lies in region 0 of stack 3 (the example after R26). -/
theorem test_stackOf : stackOf 0x3412345000 = 3 ∧ regionOf 0x3412345000 = 0 := by decide

/-- In a group of 16, the device at position 5 reaches position 6 on port 0, 4 on port 14, 9 on port 3; position 9 reaches 5 on
port 11 (the example after R442). -/
theorem test_meshPorts :
    let at5 := dev [(R.GLB_DEVPOS.POSITION, 5)]
    let at9 := dev [(R.GLB_DEVPOS.POSITION, 9)]
    let full := fun (s : State) => { s with flt := { s.flt with groupSize := [(0, 16)] } }
    (full at5).meshPort 6 = 0 ∧ (full at5).meshPort 4 = 14 ∧ (full at5).meshPort 9 = 3 ∧ (full at9).meshPort 5 = 11 := by
  decide +kernel

/-- The SEQ_GENERATE of the packet example passes the common checks on a token ring that is open; with a CLASS it does not. -/
theorem test_generatePacket :
    let p : Packet := { pk with opcode := 0x42, flags := 0x30, payloadLen := 96, p0 := 0x00030011, p1 := 0x20, p2 := 1000 }
    commonCheck (up []) p = none ∧ commonCheck (up []) { p with cls := 1 } = some (.rejFormat, 0x81) := by
  decide +kernel

/-- A lane table of 4,160 bytes is 18 fragments (the example after R468). -/
theorem test_fragments : (fragments ⟨0, 1, 0, 0, .ack 0⟩ (List.replicate 4160 0)).length = 18 := by decide +kernel

/-- The check values of the two CRCs for the bytes of "123456789", as their standards give them. -/
theorem test_crcs :
    let b : Bytes := (List.range 9).map fun i => BitVec.ofNat 8 (0x31 + i)
    crc32c b = 0xE3069283 ∧ crc32 b = 0xCBF43926 := by
  decide +kernel

end Sys2Proof.Tests
end

section
/-!
SUPPORT. The late-step check of a RUNNING furrow (R51): what a port sends when its replay buffer has room, what deferral and the
check of the step leave alone, and the beacon's late flag.
-/

namespace Sys2Proof.Machine

/-! ### What a register write leaves alone -/

theorem State.sameRegs_refl (s : State) (l : List Field) : s.sameRegs s l := fun _ _ => rfl

/-- A write of a listed field adds nothing to what may differ. -/
theorem State.sameRegs_put {s t : State} {l : List Field} {f : Field} (h : s.sameRegs t l) (hf : f ∈ l) (v : Nat) :
    s.sameRegs (t.put f v) l := fun g hg => by
  rw [State.get_put_other t v (hg f hf), h g hg]

/-! ### A sequenced frame on a port with room (R447 to R449) -/

@[simp] theorem State.link_modLink_same (s : State) (p : Nat) (f : Link → Link) :
    (s.modLink p f).link p = f (s.link p) := by
  simp [State.link, State.modLink, Table.modify]

theorem State.link_modLink_other (s : State) {p q : Nat} (f : Link → Link) (h : q ≠ p) :
    (s.modLink p f).link q = s.link q := by
  simp [State.link, State.modLink, Table.modify, Table.get_set_other _ _ _ h]

/-- Nothing waits on the port, and its replay buffer takes one more frame. -/
abbrev State.hasRoom (s : State) (p : Nat) : Prop := (s.link p).waiting = [] ∧ (s.link p).replay.length < 256

/-- A frame with the number and the acknowledgement that the port gives the next one it sends. -/
def State.stamped (s : State) (p : Nat) (f : Frame) : Frame :=
  { f with seq := ((s.link p).txSeq + 1) % 1024, ack := (s.link p).rxSeq }

/-- With room the frame leaves at once: it stands in the waiting list only in passing. -/
theorem State.sendSeq_of_room {s : State} {p : Nat} (h : s.hasRoom p) (f : Frame) (o : Option (Nat × Nat)) :
    s.sendSeq p f o = (((s.modLink p fun l => { l with waiting := l.waiting ++ [(f, o)] }).modLink p
      fun l => { l with waiting := [] }).transmitSeq p f o) := by
  obtain ⟨hw, hr⟩ := h
  simp [State.sendSeq, State.drainLink, hw, Nat.not_le.2 hr]

theorem State.sendSeq_out {s : State} {p : Nat} (h : s.hasRoom p) (f : Frame) (o : Option (Nat × Nat)) :
    (s.sendSeq p f o).out = s.out ++ [.frame p (s.stamped p f)] := by
  rw [State.sendSeq_of_room h]
  simp [State.transmitSeq, State.stamped, State.emit]

theorem State.sendSeq_regs {s : State} {p : Nat} (h : s.hasRoom p) (f : Frame) (o : Option (Nat × Nat)) :
    (s.sendSeq p f o).regs = s.regs := by
  rw [State.sendSeq_of_room h]
  rfl

@[simp] theorem State.bump_link (s : State) (f : Field) (n p : Nat) : (s.bump f n).link p = s.link p := rfl

@[simp] theorem State.emit_link (s : State) (o : Output) (p : Nat) : (s.emit o).link p = s.link p := rfl

theorem State.sendSeq_link_other {s : State} {p q : Nat} (h : s.hasRoom p) (hq : q ≠ p) (f : Frame) (o : Option (Nat × Nat)) :
    (s.sendSeq p f o).link q = s.link q := by
  simp only [State.sendSeq_of_room h, State.transmitSeq, State.link_modLink_other _ _ hq, State.emit_link]

/-- One frame sent on each of several ports with room: each port gives it its own numbers, and no register changes. -/
theorem State.foldl_sendSeq {l : List Nat} (f : Frame) (hl : l.Nodup) {s : State} (h : ∀ p ∈ l, s.hasRoom p) :
    (l.foldl (fun (s : State) p => s.sendSeq p f) s).out = s.out ++ l.map (fun p => .frame p (s.stamped p f)) ∧
      (l.foldl (fun (s : State) p => s.sendSeq p f) s).regs = s.regs := by
  induction l generalizing s with
  | nil => simp
  | cons p l ih =>
    obtain ⟨hp, hl⟩ := List.nodup_cons.1 hl
    have room : s.hasRoom p := h p (by simp)
    have same : ∀ q ∈ l, (s.sendSeq p f).link q = s.link q := fun q hq =>
      State.sendSeq_link_other room (ne_of_mem_of_not_mem hq hp) f none
    have rest : ∀ q ∈ l, (s.sendSeq p f).hasRoom q := fun q hq => by
      rw [State.hasRoom, same q hq]
      exact h q (by simp [hq])
    have stamps : l.map (fun q => Output.frame q ((s.sendSeq p f).stamped q f)) =
        l.map fun q => .frame q (s.stamped q f) :=
      List.map_congr_left fun q hq => by rw [State.stamped, same q hq, State.stamped]
    obtain ⟨out, regs⟩ := ih hl rest
    rw [List.foldl_cons, out, regs, stamps, State.sendSeq_out room, State.sendSeq_regs room]
    simp

/-- A device with lock sends its beacon on every port that is UP, where each has room (R39). -/
theorem State.sendBeacon_of_room {s : State} (hlock : s.lockless = false)
    (h : ∀ p, p < 24 → s.portUp p = true → s.hasRoom p) :
    s.sendBeacon.out = s.out ++ ((List.range 24).filter fun p => s.portUp p).map
        (fun p => .frame p (s.stamped p (plainFrame fBeacon s.beaconFlit))) ∧
      s.sendBeacon.regs = s.regs := by
  rw [State.sendBeacon, hlock]
  exact State.foldl_sendSeq _ (List.nodup_range.filter _) fun p hp => by
    obtain ⟨hp, up⟩ := List.mem_filter.1 hp
    exact h p (List.mem_range.1 hp) up

/-! ### The beacon's late flag (R463) -/

theorem rd_fit_second (n : Nat) (a b : Byte) (l : Bytes) : rd (fit (n + 2) (a :: b :: l)) 1 1 = b.toNat := by
  simp [rd, fit, ofLe]

/-- Bit 0 of byte 1 is the late flag of the device itself. -/
theorem State.beaconFlit_late (s : State) : fld s.beaconFlit 1 1 0 1 = b2n (s.isSet R.FRW_STATE.LATE_SELF) := by
  simp only [State.beaconFlit, leBytes, List.cons_append, List.nil_append, fld, rd_fit_second, bits, BitVec.toNat_ofNat]
  have : b2n (s.isSet R.FRW_STATE.LATE_SELF) < 2 := by
    unfold b2n
    split <;> omega
  omega

/-! ### Deferred replay (R460) -/

/-- From `s` to `t` frames kept for replay have been marked as deferred, and counted as such. -/
structure State.OnlyDefers (s t : State) : Prop where
  out : t.out = s.out
  frw : t.frw = s.frw
  cfg : t.cfg = s.cfg
  link : ∀ p, ∃ r, r.length = (s.link p).replay.length ∧ t.link p = { s.link p with replay := r }
  get : ∀ f : Field, (∀ p, f.key ≠ (R.LINK_COUNTS1.DEFERRED p).key) → t.get f = s.get f

namespace State.OnlyDefers

theorem refl (s : State) : s.OnlyDefers s := ⟨rfl, rfl, rfl, fun _ => ⟨_, rfl, rfl⟩, fun _ _ => rfl⟩

/-- One port's frames are marked. -/
theorem mark {s t : State} (h : s.OnlyDefers t) (p : Nat) (g : TxFrame → TxFrame) :
    s.OnlyDefers ((t.modLink p fun k => { k with replay := (t.link p).replay.map g }).bump (R.LINK_COUNTS1.DEFERRED p)) where
  out := h.out
  frw := h.frw
  cfg := h.cfg
  link q := by
    obtain ⟨r, len, e⟩ := h.link q
    rw [State.bump_link]
    by_cases hq : q = p
    · subst hq
      exact ⟨r.map g, by simpa using len, by simp [e]⟩
    · exact ⟨r, len, by rw [State.link_modLink_other t _ hq, e]⟩
  get f hf := (State.get_put_other _ _ (hf p)).trans (h.get f hf)

/-- A register below the link block reads as before. -/
theorem get_below {s t : State} (h : s.OnlyDefers t) {f : Field} (hf : f.key < 0x40000 * 64) : t.get f = s.get f :=
  h.get f fun p => by
    simp only [Field.key, R.LINK_COUNTS1.DEFERRED] at *
    omega

theorem portUp {s t : State} (h : s.OnlyDefers t) (p : Nat) : t.portUp p = s.portUp p := by
  rw [State.portUp, State.portUp, h.get]
  intro q
  simp only [Field.key, R.LINK_STATUS.STATE, R.LINK_COUNTS1.DEFERRED]
  omega

theorem stamped {s t : State} (h : s.OnlyDefers t) (p : Nat) (f : Frame) : t.stamped p f = s.stamped p f := by
  obtain ⟨_, _, e⟩ := h.link p
  simp [State.stamped, e]

theorem hasRoom {s t : State} (h : s.OnlyDefers t) {p : Nat} (k : s.hasRoom p) : t.hasRoom p := by
  obtain ⟨_, len, e⟩ := h.link p
  simpa [State.hasRoom, e, len] using k

end State.OnlyDefers

theorem State.deferReplay_onlyDefers (s : State) : s.OnlyDefers s.deferReplay := by
  refine List.foldlRecOn (motive := s.OnlyDefers) _ _ (.refl s) fun t h p _ => ?_
  dsimp only
  split
  · exact h.mark p _
  · exact h

/-! ### The check of the step (R51) -/

/-- The check writes registers alone. -/
theorem State.checkStep_regs_only (s : State) : s.checkStep = { s with regs := s.checkStep.regs } := by
  unfold State.checkStep
  split
  · rfl
  · dsimp only
    split <;> rfl

@[simp] theorem State.checkStep_out (s : State) : s.checkStep.out = s.out := (congrArg State.out s.checkStep_regs_only :)

@[simp] theorem State.checkStep_cfg (s : State) : s.checkStep.cfg = s.cfg := (congrArg State.cfg s.checkStep_regs_only :)

@[simp] theorem State.checkStep_link (s : State) (p : Nat) : s.checkStep.link p = s.link p :=
  (congrArg (State.link · p) s.checkStep_regs_only :)

theorem State.checkStep_of_open {s : State} (h : s.frw.doneAt = none) :
    s.checkStep = (s.putBit R.FRW_STATE.LATE_SELF true).bump R.FRW_EVENTS0.LATE_SELF_COUNT := by
  simp [State.checkStep, h]

/-- An incomplete step makes its device late. -/
theorem State.checkStep_late {s : State} (h : s.frw.doneAt = none) : s.checkStep.isSet R.FRW_STATE.LATE_SELF = true := by
  rw [State.checkStep_of_open h, State.isSet, State.bump, State.get_put_other _ _ (by decide), State.putBit,
    State.get_put_fits _ _ (by decide)]
  rfl

/-- An incomplete step is counted. -/
theorem State.checkStep_count {s : State} (h : s.frw.doneAt = none) : s.checkStep.get R.FRW_EVENTS0.LATE_SELF_COUNT =
    min (2 ^ R.FRW_EVENTS0.LATE_SELF_COUNT.width - 1) (s.get R.FRW_EVENTS0.LATE_SELF_COUNT + 1) := by
  have fits : min (2 ^ R.FRW_EVENTS0.LATE_SELF_COUNT.width - 1) (s.get R.FRW_EVENTS0.LATE_SELF_COUNT + 1) <
      2 ^ R.FRW_EVENTS0.LATE_SELF_COUNT.width := by
    have := Nat.two_pow_pos R.FRW_EVENTS0.LATE_SELF_COUNT.width
    omega
  have kept : (s.putBit R.FRW_STATE.LATE_SELF true).get R.FRW_EVENTS0.LATE_SELF_COUNT = s.get R.FRW_EVENTS0.LATE_SELF_COUNT :=
    State.get_put_other _ _ (by decide)
  rw [State.checkStep_of_open h, State.bump, kept, State.get_put_fits _ _ fits]

/-- A complete step changes no register but those of its slack. -/
theorem State.checkStep_done {s : State} (h : s.frw.doneAt ≠ none) :
    s.sameRegs s.checkStep [R.FRW_SLACK.LAST_SLACK_NS, R.FRW_SLACK.MIN_SLACK_NS] := by
  have last := State.sameRegs_put (State.sameRegs_refl s [R.FRW_SLACK.LAST_SLACK_NS, R.FRW_SLACK.MIN_SLACK_NS])
    (f := R.FRW_SLACK.LAST_SLACK_NS) (by simp)
  unfold State.checkStep
  split
  · contradiction
  · dsimp only
    split
    · exact State.sameRegs_put (last _) (by simp) _
    · exact last _

/-- The check writes the late flag and its count, or the slack. -/
theorem State.checkStep_sameRegs (s : State) : s.sameRegs s.checkStep [R.FRW_STATE.LATE_SELF, R.FRW_EVENTS0.LATE_SELF_COUNT,
    R.FRW_SLACK.LAST_SLACK_NS, R.FRW_SLACK.MIN_SLACK_NS] := by
  by_cases h : s.frw.doneAt = none
  · rw [State.checkStep_of_open h]
    exact State.sameRegs_put (State.sameRegs_put (State.sameRegs_refl s _) (by simp) _) (by simp) _
  · exact fun f hf => State.checkStep_done h f fun g hg => hf g (by simp_all)

theorem State.checkStep_portUp (s : State) (p : Nat) : s.checkStep.portUp p = s.portUp p := by
  rw [State.portUp, State.portUp, State.checkStep_sameRegs]
  simp only [Field.key, R.LINK_STATUS.STATE, R.FRW_STATE.LATE_SELF, R.FRW_EVENTS0.LATE_SELF_COUNT, R.FRW_SLACK.LAST_SLACK_NS,
    R.FRW_SLACK.MIN_SLACK_NS, List.forall_mem_cons]
  refine ⟨by omega, by omega, by omega, by omega, by simp⟩

/-! ### The late-step check -/

/-- In the body of a RUNNING furrow, with no commit for the lead to decide: replay is deferred, the step is checked, the beacon
goes out. -/
theorem State.lateCheck_running {s : State} (run : s.frwState = frwRunning) (body : s.isSet R.FRW_STATE.HEADLAND = false)
    (lead : ∀ c, s.cfg.lead = some c → s.furrow < c.furrow) : s.lateCheck = s.deferReplay.checkStep.sendBeacon := by
  have d := s.deferReplay_onlyDefers
  have running : s.deferReplay.frwState = frwRunning := (d.get_below (by decide)).trans run
  have furrow : s.deferReplay.checkStep.furrow = s.furrow :=
    (State.checkStep_sameRegs _ _ (by decide)).trans (d.get_below (by decide))
  have inSchedule : s.inSchedule = true := by simp [State.inSchedule, run]
  simp only [State.lateCheck, inSchedule, body, running]
  cases hc : s.cfg.lead with
  | none => simp [d.cfg, hc]
  | some c => simp [d.cfg, hc, furrow, Nat.not_le.2 (lead c hc)]

theorem State.lockless_of_lock {s : State} (h : s.mrdState = mrdLocked ∨ s.mrdState = mrdHoldover) : s.lockless = false := by
  rcases h with h | h <;> simp [State.lockless, h, mrdLocked, mrdHoldover, mrdUnlocked, mrdAcquire]

/-- What R51 sends and writes: deferral and the check change nothing that a port's next frame depends on, so the beacon, built
after the check, leaves each port that is UP under that port's own next number, and no register changes after the check. -/
theorem State.lateCheck_sends {s : State} (run : s.frwState = frwRunning) (body : s.isSet R.FRW_STATE.HEADLAND = false)
    (lock : s.mrdState = mrdLocked ∨ s.mrdState = mrdHoldover) (lead : ∀ c, s.cfg.lead = some c → s.furrow < c.furrow)
    (room : ∀ p, p < 24 → s.portUp p = true → s.hasRoom p) :
    s.lateCheck.out = s.out ++ ((List.range 24).filter fun p => s.portUp p).map
        (fun p => .frame p (s.stamped p (plainFrame fBeacon s.deferReplay.checkStep.beaconFlit))) ∧
      s.lateCheck.regs = s.deferReplay.checkStep.regs := by
  have d := s.deferReplay_onlyDefers
  rw [State.lateCheck_running run body lead]
  have up : ∀ p, s.deferReplay.checkStep.portUp p = s.portUp p := fun p => (State.checkStep_portUp _ p).trans (d.portUp p)
  have stamped : ∀ p f, s.deferReplay.checkStep.stamped p f = s.stamped p f := fun p f => by
    rw [State.stamped, State.checkStep_link]
    exact d.stamped p f
  have state : s.deferReplay.checkStep.mrdState = s.mrdState :=
    (State.checkStep_sameRegs _ _ (by decide)).trans (d.get_below (by decide))
  have rooms : ∀ p, p < 24 → s.deferReplay.checkStep.portUp p = true → s.deferReplay.checkStep.hasRoom p := fun p hp hup => by
    rw [State.hasRoom, State.checkStep_link]
    exact d.hasRoom (room p hp (by rwa [← up p]))
  obtain ⟨out, regs⟩ := State.sendBeacon_of_room (State.lockless_of_lock (by rwa [state])) rooms
  refine ⟨?_, regs⟩
  simp only [out, up, stamped, State.checkStep_out, d.out]

/-- No packet gets its final completion by the check. -/
theorem State.lateCheck_tickets {s : State} (run : s.frwState = frwRunning) (body : s.isSet R.FRW_STATE.HEADLAND = false)
    (lead : ∀ c, s.cfg.lead = some c → s.furrow < c.furrow) : s.lateCheck.que.tickets = s.que.tickets := by
  rw [State.lateCheck_running run body lead]
  exact State.sendBeacon_tix (State.checkStep_tix (State.deferReplay_tix rfl))

/-- The registers after deferral and the check, where the step is not complete. -/
theorem State.deferReplay_checkStep_late {s : State} (h : s.frw.doneAt = none) :
    s.deferReplay.checkStep.isSet R.FRW_STATE.LATE_SELF = true ∧
      s.deferReplay.checkStep.get R.FRW_EVENTS0.LATE_SELF_COUNT =
        min (2 ^ R.FRW_EVENTS0.LATE_SELF_COUNT.width - 1) (s.get R.FRW_EVENTS0.LATE_SELF_COUNT + 1) := by
  have d := s.deferReplay_onlyDefers
  have h' : s.deferReplay.frw.doneAt = none := by rw [d.frw, h]
  exact ⟨State.checkStep_late h', by rw [State.checkStep_count h', d.get_below (by decide)]⟩

/-- The registers after deferral and the check, where the step is complete. -/
theorem State.deferReplay_checkStep_done {s : State} (h : s.frw.doneAt ≠ none) :
    s.deferReplay.checkStep.isSet R.FRW_STATE.LATE_SELF = s.isSet R.FRW_STATE.LATE_SELF ∧
      s.deferReplay.checkStep.get R.FRW_EVENTS0.LATE_SELF_COUNT = s.get R.FRW_EVENTS0.LATE_SELF_COUNT := by
  have d := s.deferReplay_onlyDefers
  have h' : s.deferReplay.frw.doneAt ≠ none := by rwa [d.frw]
  constructor
  · rw [State.isSet, State.isSet, State.checkStep_done h' _ (by decide), d.get_below (by decide)]
  · rw [State.checkStep_done h' _ (by decide), d.get_below (by decide)]

end Sys2Proof.Machine

open Sys2Proof Sys2Proof.Machine

/-- Settles O34: the beacon is built after the check, so it carries the late flag as the check has left it. -/
theorem lateCheck : Obligations.LateCheck := by
  intro s ⟨alive, idle⟩ run body lock lead room
  obtain ⟨out, regs⟩ := State.lateCheck_sends run body lock lead room
  have tickets : s.lateCheck.que.tickets = [] := (State.lateCheck_tickets run body lead).trans idle
  refine ⟨{ s.lateCheck with pending := s.pending }, State.act_idle alive tickets, s.deferReplay.checkStep.beaconFlit,
    out, fun late => ?_, fun done => ?_⟩
  · obtain ⟨flag, count⟩ := State.deferReplay_checkStep_late late
    refine ⟨by rw [State.beaconFlit_late, flag]; rfl, ?_, ?_⟩
    · exact (State.isSet_of_regs regs _).trans flag
    · exact (State.get_of_regs regs _).trans count
  · obtain ⟨flag, count⟩ := State.deferReplay_checkStep_done done
    refine ⟨by rw [State.beaconFlit_late, flag], ?_, ?_⟩
    · exact (State.isSet_of_regs regs _).trans flag
    · exact (State.get_of_regs regs _).trans count
end

section
/-!
SUPPORT. Doorbells (R119, R124): a write at a ring's offset of the doorbell window reaches that ring, whose checks count it or ignore
it.
-/

namespace Sys2Proof.Machine

/-! ### What a command answers -/

/-- A command whose effect leaves no packet open, and the commands behind it as they were. -/
theorem State.act_eq_next {s t : State} {f : State → State} (alive : s.alive = true) (effect : f s = t) (none_open : t.que.tickets = [])
    (waiting : t.pending = s.pending) : s.act f = .next t := by
  rw [State.act_idle alive (by rw [effect, none_open]), effect, ← waiting]

/-! ### Saturating counters -/

theorem State.get_bump_same (s : State) (f : Field) (n : Nat) : (s.bump f n).get f = min (2 ^ f.width - 1) (s.get f + n) := by
  have := Nat.two_pow_pos f.width
  rw [State.bump, State.get_put_fits _ _ (by omega)]

/-- Counting writes one field: nothing is sent and memory stays. -/
theorem State.leaves_bump (s : State) (f : Field) (n : Nat) : s.leaves (s.bump f n) [f] :=
  ⟨rfl, rfl, State.sameRegs_put (State.sameRegs_refl s _) (by simp) _⟩

/-! ### The doorbell window (R124) -/

/-- The three parts of the window do not meet: an offset names one kind and one ring. -/
theorem doorbellAt_doorbellOffset {kind r : Nat} (hk : kind < 3) (hr : r < ringCount kind) :
    doorbellAt (doorbellOffset kind r) = some (kind, r) := by
  simp only [doorbellAt, doorbellOffset]
  interval_cases kind <;> simp [ringCount] at hr ⊢
  · omega
  · omega
  · rw [if_neg (by omega), if_pos (by omega)]

theorem State.ringDoorbell_sq (s : State) {r index : Nat} (hr : r < 16) (hi : index < 65536) :
    s.ringDoorbell 0 r index = s.sqDoorbell r index := by
  simp [State.ringDoorbell, ringCount, hr, State.doorbellWrite, doorbellAt_doorbellOffset (kind := 0) (by decide) hr, Nat.mod_eq_of_lt hi]

theorem State.ringDoorbell_cq (s : State) {r index : Nat} (hr : r < 16) (hi : index < 65536) :
    s.ringDoorbell 1 r index = s.cqDoorbell r index := by
  simp [State.ringDoorbell, ringCount, hr, State.doorbellWrite, doorbellAt_doorbellOffset (kind := 1) (by decide) hr, Nat.mod_eq_of_lt hi]

theorem State.ringDoorbell_tr (s : State) {r index : Nat} (hr : r < 256) (hi : index < 65536) :
    s.ringDoorbell 2 r index = s.trDoorbell r index := by
  simp [State.ringDoorbell, ringCount, hr, State.doorbellWrite, doorbellAt_doorbellOffset (kind := 2) (by decide) hr, Nat.mod_eq_of_lt hi]

/-! ### The checks (R119) -/

/-- A command that reaches a ring's checks at the lead device: an index of the ring's size or more is counted where the ring is enabled; one
of a disabled ring changes nothing. -/
theorem doorbell_checked {s : State} {c : Instr} {enabled : Field} {kind r size index : Nat} {f : State → State} (quiet : s.quiet)
    (reach : s.hostReaches = true) (boot : s.isSet R.GLB_READY.BOOT_OK = true) (lead : s.isLead = true)
    (runs : exec c s = s.act fun s => s.ringDoorbell kind r index)
    (checks : s.ringDoorbell kind r index = s.doorbell (s.isSet enabled) size index f) :
    (s.isSet enabled = true → size ≤ index → Completes c s fun t =>
      t.get R.QUE_RING_ERRORS.DOORBELL_RANGE =
        min (2 ^ R.QUE_RING_ERRORS.DOORBELL_RANGE.width - 1) (s.get R.QUE_RING_ERRORS.DOORBELL_RANGE + 1) ∧ t.que = s.que ∧
        s.leaves t [R.QUE_RING_ERRORS.DOORBELL_RANGE]) ∧
    (s.isSet enabled = false → Completes c s fun t => t = s) := by
  obtain ⟨alive, idle⟩ := quiet
  constructor
  · intro on range
    have counted : s.ringDoorbell kind r index = s.bump R.QUE_RING_ERRORS.DOORBELL_RANGE := by
      simp [checks, State.doorbell, reach, boot, lead, on, range]
    exact ⟨_, runs.trans (State.act_eq_next alive counted idle rfl), State.get_bump_same _ _ _, rfl, State.leaves_bump _ _ _⟩
  · intro off
    have ignored : s.ringDoorbell kind r index = s := by simp [checks, State.doorbell, reach, boot, lead, off]
    exact ⟨s, runs.trans (State.act_eq_next alive ignored idle rfl), rfl⟩

end Sys2Proof.Machine

open Sys2Proof Sys2Proof.Machine

/-- Settles O53: each of the three commands runs the checks of its own ring. -/
theorem doorbellChecks : Obligations.DoorbellChecks := by
  intro s r index quiet reach boot lead hi c hc
  simp only [List.mem_cons, List.not_mem_nil, or_false] at hc
  rcases hc with rfl | rfl | rfl <;> intro hr
  · exact doorbell_checked quiet reach boot lead rfl (s.ringDoorbell_sq hr hi)
  · exact doorbell_checked quiet reach boot lead rfl (s.ringDoorbell_cq hr hi)
  · exact doorbell_checked quiet reach boot lead rfl (s.ringDoorbell_tr hr hi)
end

section
/-!
SUPPORT. Messages between devices (R448, R449, R465 to R468): what sending one leaves alone, and what a device does with one that it
takes.
-/

namespace Sys2Proof.Machine

/-! ### What a message sent leaves alone (R449, R466, R467) -/

/-- From `s` to `t` messages have been sent: what has gone out, the links, the nonces and the messages that wait for their
acknowledgement may differ, nothing else. -/
def State.onlySends (s t : State) : Prop :=
  t = { s with out := t.out, links := t.links, coll := t.coll, flt := { s.flt with nextMsg := t.flt.nextMsg, sent := t.flt.sent } }

theorem State.onlySends.refl (s : State) : s.onlySends s := rfl

theorem State.onlySends.trans {a b c : State} (h : a.onlySends b) (k : b.onlySends c) : a.onlySends c := by
  rw [State.onlySends] at k ⊢
  refine k.trans ?_
  rw [h]

theorem State.onlySends.regs {s t : State} (h : s.onlySends t) : t.regs = s.regs := (congrArg State.regs h :)

theorem State.onlySends.que {s t : State} (h : s.onlySends t) : t.que = s.que := (congrArg State.que h :)

theorem State.onlySends.mem {s t : State} (h : s.onlySends t) : t.mem = s.mem := (congrArg State.mem h :)

theorem State.onlySends.pending {s t : State} (h : s.onlySends t) : t.pending = s.pending := (congrArg State.pending h :)

theorem State.onlySends.passOn {s t : State} (h : s.onlySends t) (m : CtrlMsg) : t.passOn m = s.passOn m :=
  (congrArg (State.passOn · m) h :)

theorem State.onlySends.heldEpoch {s t : State} (h : s.onlySends t) (p d : Nat) : t.heldEpoch p d = s.heldEpoch p d :=
  (congrArg (State.heldEpoch · p d) h :)

theorem State.onlySends.assigned {s t : State} (h : s.onlySends t) : t.assigned = s.assigned := (congrArg State.assigned h :)

theorem State.onlySends.idle {s t : State} (h : s.onlySends t) : t.idle = s.idle := (congrArg State.idle h :)

theorem State.onlySends.isFenced {s t : State} (h : s.onlySends t) : t.isFenced = s.isFenced := (congrArg State.isFenced h :)

theorem State.onlySends.dead {s t : State} (h : s.onlySends t) : t.flt.dead = s.flt.dead := (congrArg (fun u => u.flt.dead) h :)

theorem State.onlySends.route {s t : State} (h : s.onlySends t) (d : Nat) : t.route d = s.route d := (congrArg (State.route · d) h :)

theorem State.modLink_onlySends (s : State) (p : Nat) (f : Link → Link) : s.onlySends (s.modLink p f) := rfl

theorem State.emit_onlySends (s : State) (o : Output) : s.onlySends (s.emit o) := rfl

theorem State.nonce_onlySends (s : State) (i n : Nat) : s.onlySends (s.nonce i n) := rfl

theorem State.transmitSeq_onlySends (s : State) (p : Nat) (f : Frame) (o : Option (Nat × Nat)) : s.onlySends (s.transmitSeq p f o) :=
  (s.emit_onlySends _).trans (State.modLink_onlySends _ p _)

theorem State.drainLink_onlySends (s : State) (p n : Nat) : s.onlySends (s.drainLink p n) := by
  induction n generalizing s with
  | zero => exact .refl s
  | succ n ih =>
    unfold State.drainLink
    split
    · exact .refl s
    · split
      · exact .refl s
      · exact ((s.modLink_onlySends p _).trans (State.transmitSeq_onlySends _ p _ _)).trans (ih _)

theorem State.sendSeq_onlySends (s : State) (p : Nat) (f : Frame) (o : Option (Nat × Nat)) : s.onlySends (s.sendSeq p f o) :=
  (s.modLink_onlySends p _).trans (State.drainLink_onlySends _ _ _)

theorem State.foldl_sendSeq_onlySends {α : Type} (s : State) (p : Nat) (f : α → Frame) (l : List α) :
    s.onlySends (l.foldl (fun (s : State) x => s.sendSeq p (f x)) s) :=
  List.foldlRecOn (motive := s.onlySends) _ _ (.refl s) fun _ h _ _ => h.trans (State.sendSeq_onlySends _ _ _ _)

theorem State.sendFragments_onlySends (s : State) (p : Nat) (m : CtrlMsg) : s.onlySends (s.sendFragments p m) := by
  unfold State.sendFragments
  dsimp only
  split
  · exact (s.emit_onlySends _).trans (State.foldl_sendSeq_onlySends _ _ _ _)
  · exact ((s.emit_onlySends _).trans (State.nonce_onlySends _ _ _)).trans (State.foldl_sendSeq_onlySends _ _ _ _)

theorem State.sendPort_onlySends (s : State) (port : Option Nat) (dst : Nat) (b : CtrlBody) :
    s.onlySends (s.sendPort port dst b) := by
  unfold State.sendPort
  split
  · exact .refl s
  · cases port with
    | none => rfl
    | some p => exact (State.sendFragments_onlySends s p _).trans rfl

theorem State.sendCtrl_onlySends (s : State) (dst : Nat) (b : CtrlBody) : s.onlySends (s.sendCtrl dst b) :=
  s.sendPort_onlySends _ _ _

/-! ### A message that has a way is sent (R468) -/

theorem State.dead_of_alive {s : State} (h : s.alive = true) : s.flt.dead = false := by
  simp only [State.alive, Bool.and_eq_true, Bool.not_eq_true'] at h
  exact h.2

/-- Only a write of host memory grows: a message sent stays as it is. -/
theorem stillSent.ctrl_mem {l k : List Output} (h : stillSent l k) {d : Nat} {m : CtrlMsg} (hm : Output.ctrl d m ∈ l) :
    Output.ctrl d m ∈ k := by
  induction l generalizing k with
  | nil => simp at hm
  | cons a l ih =>
    cases k with
    | nil => exact h.elim
    | cons b k =>
      obtain ⟨here, rest⟩ := h
      rcases List.mem_cons.1 hm with rfl | hm
      · rcases here with rfl | ⟨_, _, _, e, _⟩
        · simp
        · cases e
      · exact List.mem_cons_of_mem _ (ih rest hm)

theorem State.sendFragments_sends (s : State) (p : Nat) (m : CtrlMsg) : Output.ctrl m.dst m ∈ (s.sendFragments p m).out := by
  have sent : Output.ctrl m.dst m ∈ (s.emit (.ctrl m.dst m)).out := by simp [State.emit]
  have kept : Kept (s.emit (.ctrl m.dst m)) (s.sendFragments p m) := by
    unfold State.sendFragments
    dsimp only
    split
    · exact Kept.foldl (.refl _) fun _ _ h => State.sendSeq_kept h
    · exact Kept.foldl (State.nonce_kept (.refl _)) fun _ _ h => State.sendSeq_kept h
  exact stillSent.ctrl_mem kept.out sent

/-- A message on its way stands among what has gone out. -/
theorem State.sendCtrl_told {s : State} {dst : Nat} (b : CtrlBody) (alive : s.flt.dead = false) (way : (s.route dst).isSome = true) :
    (s.sendCtrl dst b).told dst b := by
  obtain ⟨p, hp⟩ := Option.isSome_iff_exists.1 way
  simp only [State.sendCtrl, State.sendPort, hp, alive]
  exact ⟨_, State.sendFragments_sends s p ⟨s.self, dst, s.flt.nextMsg, s.get R.GLB_MEMBERSHIP.EPOCH, b⟩, rfl, rfl⟩

/-! ### A message taken (R467, R468, R581) -/

/-- A message that the device takes acts once it has come in and has been acknowledged. -/
theorem State.ctrlIn_taken {s : State} {p : Nat} {m : CtrlMsg} (h : s.takesMessage p m) (frags : Nat) (act : State → State) :
    s.ctrlIn p frags m act = act (s.arrived p frags m) := by
  obtain ⟨_, _, up, here, epoch⟩ := h
  have counted : s.onlySends (s.modLink p fun l => { l with rxSeq := (l.rxSeq + frags) % 1024, nakSent := false }) :=
    s.modLink_onlySends p _
  have here' := counted.passOn m |>.trans here
  have held := counted.heldEpoch p m.src
  have assigned := counted.assigned
  simp only [State.ctrlIn, up, State.arrived]
  generalize (s.modLink p fun l => { l with rxSeq := (l.rxSeq + frags) % 1024, nakSent := false }) = u at *
  cases a : s.assigned with
  | false => simp [here', assigned, a]
  | true => simp [here', assigned, held, epoch a]

theorem State.arrived_onlySends (s : State) (p frags : Nat) (m : CtrlMsg) : s.onlySends (s.arrived p frags m) := by
  unfold State.arrived
  dsimp only
  split
  · exact (s.modLink_onlySends p _).trans (State.sendPort_onlySends _ _ _ _)
  · rfl

/-- A packet that the lead forwarded is answered to it. -/
theorem State.finish_forwarded {s : State} {t : Ticket} {src msgId : Nat} (a : Answer) (h : s.que.tickets = [t])
    (o : t.origin = .lead src msgId) :
    s.finish t.no a = ({ s with que := { s.que with tickets := [] } }).sendCtrl src
      (.completion msgId a.status a.detail a.result0 a.result1 a.data) := by
  have e : s.ticket? t.no = some t := by simp [State.ticket?, h]
  simp only [State.finish, e, o, h]
  simp

end Sys2Proof.Machine
end

section
/-!
SUPPORT. TRAFFIC_GEN, LINK_TEST and SELFTEST while the furrow state is neither NO_PLAN nor STOPPED (R145): at the lead device, and at a
member that the lead has forwarded them to.
-/

namespace Sys2Proof.Machine

/-! ### A device that is busy refuses -/

/-- The opcodes of the diagnostics. -/
abbrev diagnostics : List Nat := [0x70, 0x71, 0x72]

theorem mem_diagnostics {op : Nat} : op ∈ diagnostics ↔ op = 0x70 ∨ op = 0x71 ∨ op = 0x72 := by simp

theorem State.busy_of_frwState {s : State} (h : s.frwState ≠ frwNoPlan) (k : s.frwState ≠ frwStopped) : s.idle = false := by
  simp [State.idle, h, k]

theorem State.trafficHere_busy {s : State} (h : s.idle = false) (no : Nat) (p : Packet) :
    s.trafficHere no p = s.finishWith no .cfgConflict := by
  simp [State.trafficHere, h]

theorem State.linkTestHere_busy {s : State} (h : s.idle = false) (no : Nat) (p : Packet) :
    s.linkTestHere no p = s.finishWith no .cfgConflict := by
  simp [State.linkTestHere, h]

theorem State.selftestHere_busy {s : State} (h : s.idle = false) (no : Nat) (p : Packet) :
    s.selftestHere no p = s.finishWith no .cfgConflict := by
  simp [State.selftestHere, h]

theorem State.onDevice_self {s : State} {t : Ticket} {d : Nat} (h : d = s.self) (act : State → Nat → Packet → State) :
    s.onDevice t d act = act s t.no t.packet := by
  simp [State.onDevice, h]

/-! ### At the lead device, for itself -/

theorem State.runHost_diagnostic {s : State} {t : Ticket} (op : t.packet.opcode ∈ diagnostics) (busy : s.idle = false)
    (here : bits t.packet.p0 0 6 = s.self) : s.runHost t = s.finishWith t.no .cfgConflict := by
  rcases mem_diagnostics.1 op with op | op | op <;> simp only [State.runHost, op]
  · rw [State.onDevice_self here, State.trafficHere_busy busy]
  · rw [State.onDevice_self here, State.linkTestHere_busy busy]
  · rw [State.onDevice_self here, State.selftestHere_busy busy]

/-- A packet without an in payload. -/
theorem readsPayload_diagnostic (s : State) {p : Packet} (op : p.opcode ∈ diagnostics) : readsPayload s p = false := by
  rcases mem_diagnostics.1 op with op | op | op <;> simp only [readsPayload, opSpec, op] <;> rfl

theorem State.completed_pending (s : State) (p : Packet) (a : Answer) : (s.completed p a).pending = s.pending :=
  (State.postCq_kept (.refl s)).pending

theorem State.submit_diagnostic {s : State} {p : Packet} (h : s.takes p) (op : p.opcode ∈ diagnostics) (busy : s.idle = false)
    (here : bits p.p0 0 6 = s.self) :
    s.submit p none none = s.counted.completed p { status := .cfgConflict } := by
  have idle : s.que.tickets = [] := h.2.2.1
  rw [State.submit_holding h (readsPayload_diagnostic s op),
    State.runHost_diagnostic (s := s.holding (s.nextTicket p none none)) (t := s.nextTicket p none none) op busy here, State.finishWith,
    State.finish_only _ rfl rfl, State.holding_empty _ idle]
  rfl

/-! ### The packet as its row takes it (R412, R471) -/

/-- What remains of `v` below the field at `lo` is what it was. -/
theorem bits_setBits_below (v lo w x w' : Nat) (h : w' ≤ lo) : bits (setBits v lo w x) 0 w' = bits v 0 w' := by
  obtain ⟨d, rfl⟩ := Nat.exists_eq_add_of_le h
  have shift (n : Nat) : n <<< (w' + d) = 2 ^ w' * (2 ^ d * n) := by
    rw [Nat.shiftLeft_eq, pow_add]
    ring
  have le : bits v (w' + d) w <<< (w' + d) ≤ v := by
    rw [Nat.shiftLeft_eq, bits, Nat.shiftRight_eq_div_pow]
    exact (Nat.mul_le_mul_right _ (Nat.mod_le _ _)).trans (Nat.div_mul_le_self _ _)
  rw [shift] at le
  rw [setBits, shift, shift]
  generalize 2 ^ d * bits v (w' + d) w = a at le ⊢
  simp only [bits, Nat.shiftRight_zero]
  rw [Nat.add_mul_mod_self_left, Nat.sub_mul_mod le]

theorem bits_pattern (p : Packet) (v : Nat) : bits (p.pattern v).p0 0 6 = bits p.p0 0 6 :=
  bits_setBits_below _ _ _ _ _ (by decide)

/-- A row of a diagnostic takes the packet `q`, which names the device that `p` names. -/
structure TakesDiagnostic (p q : Packet) (c : Instr) : Prop where
  runs : ∀ s, exec c s = s.act fun s => s.submit q none none
  op : q.opcode ∈ diagnostics
  names : bits q.p0 0 6 = bits p.p0 0 6

theorem TakesDiagnostic.pattern {p : Packet} {op v : Nat} {c : Instr} (h : op ∈ diagnostics)
    (runs : ∀ s, exec c s = s.act fun s => s.submit ((p.op op).pattern v) none none) : TakesDiagnostic p ((p.op op).pattern v) c :=
  ⟨runs, h, bits_pattern _ v⟩

theorem TakesDiagnostic.selftest (p : Packet) : TakesDiagnostic p (p.op 0x72) (.selftest p) :=
  ⟨fun _ => rfl, by simp [Packet.op], rfl⟩

theorem diagnostic_refused {s : State} {p q : Packet} {c : Instr} (d : TakesDiagnostic p q c) (busy : s.idle = false) (h : s.takes q)
    (here : bits p.p0 0 6 = s.self) : Completes c s fun t => t = s.counted.completed q { status := .cfgConflict } :=
  ⟨_, (d.runs s).trans (State.act_eq_next h.1 (State.submit_diagnostic h d.op busy (d.names.trans here))
    ((State.completed_tickets _ _ _).trans h.2.2.1) (State.completed_pending _ _ _)), rfl⟩

/-! ### At a member, for the lead (R467) -/

theorem State.runMember_diagnostic {s : State} {t : Ticket} (op : t.packet.opcode ∈ diagnostics) (busy : s.idle = false) :
    s.runMember t = s.finishWith t.no .cfgConflict := by
  rcases mem_diagnostics.1 op with op | op | op <;> simp only [State.runMember, op]
  · exact State.trafficHere_busy busy _ _
  · exact State.linkTestHere_busy busy _ _
  · exact State.selftestHere_busy busy _ _

/-- The lead waits for the answer to a diagnostic. -/
theorem State.runTold_diagnostic (s : State) {p : Packet} (op : p.opcode ∈ diagnostics) (pay : Option Bytes) :
    s.runTold p pay = none := by
  rcases mem_diagnostics.1 op with op | op | op <;> simp only [State.runTold, op]

theorem State.forwarded_diagnostic {s : State} {src msgId : Nat} {k : Packet} {pay : Option Bytes} {img : Option ModelImage}
    (op : k.opcode ∈ diagnostics) (busy : s.idle = false) (fenced : s.isFenced = false) (none_open : s.que.tickets = []) :
    s.forwarded src msgId k pay img = s.counted.sendCtrl src (.completion msgId .cfgConflict 0 0 0 []) := by
  let t : Ticket := ⟨s.que.nextNo, .lead src msgId, k, pay, img, false, false, none, [], [], 0⟩
  have opened : s.openTicket (.lead src msgId) k pay img = (s.holding t, t.no) := by
    simp [State.openTicket, State.holding, State.counted, none_open, t]
  simp only [State.forwarded, fenced, State.runTold_diagnostic s op, opened, State.holding_ticket]
  rw [if_neg (by simp), State.runMember_diagnostic (s := s.holding t) op busy, State.finishWith,
    State.finish_forwarded _ rfl rfl, State.holding_empty t none_open]

theorem State.fwdIn_diagnostic {s : State} {m : CtrlMsg} {k : Packet} {pay : Option Bytes} {img : Option ModelImage}
    (body : m.body = .fwdCmd k pay img) (op : k.opcode ∈ diagnostics) (port frags : Nat) :
    s.fwdIn port frags m = s.ctrlIn port frags m fun s => s.forwarded m.src m.msgId k pay img := by
  have other : (k.opcode == 0x05) = false := by
    rcases mem_diagnostics.1 op with op | op | op <;> simp [op]
  simp [State.fwdIn, body, other]

theorem forwarded_refused {s : State} {port frags : Nat} {m : CtrlMsg} {k : Packet} {pay : Option Bytes} {img : Option ModelImage}
    (h : s.takesMessage port m) (busy : s.idle = false) (none_open : s.que.tickets = []) (fenced : s.isFenced = false)
    (body : m.body = .fwdCmd k pay img) (op : k.opcode ∈ diagnostics) (way : (s.route m.src).isSome = true) :
    Completes (.fwdCmd port frags m) s fun t =>
      t.told m.src (.completion m.msgId .cfgConflict 0 0 0 []) ∧ t.que.tickets = [] ∧ t.mem = s.mem ∧ ∀ f, t.get f = s.get f := by
  have arrived : s.onlySends (s.arrived port frags m) := s.arrived_onlySends port frags m
  have effect : s.fwdIn port frags m = (s.arrived port frags m).forwarded m.src m.msgId k pay img := by
    rw [State.fwdIn_diagnostic body op, State.ctrlIn_taken h]
  generalize s.arrived port frags m = u at arrived effect
  rw [State.forwarded_diagnostic op (arrived.idle.trans busy) (arrived.isFenced.trans fenced) (by rw [arrived.que, none_open])] at effect
  have sent := u.counted.sendCtrl_onlySends m.src (.completion m.msgId .cfgConflict 0 0 0 [])
  have told := State.sendCtrl_told (s := u.counted) (dst := m.src) (.completion m.msgId .cfgConflict 0 0 0 [])
    (arrived.dead.trans (State.dead_of_alive h.1)) (by rwa [← arrived.route] at way)
  generalize u.counted.sendCtrl m.src (.completion m.msgId .cfgConflict 0 0 0 []) = v at effect sent told
  have idle : v.que.tickets = [] := by simp [sent.que, State.counted, arrived.que, none_open]
  refine ⟨v, State.act_eq_next (f := (State.fwdIn · port frags m)) h.1 effect idle ?_, told, idle, ?_, fun f => ?_⟩
  · exact sent.pending.trans arrived.pending
  · exact sent.mem.trans arrived.mem
  · exact State.get_of_regs (sent.regs.trans arrived.regs) f

end Sys2Proof.Machine

open Sys2Proof Sys2Proof.Machine

/-- Settles O20: a furrow state that is neither NO_PLAN nor STOPPED makes the device busy, and a busy device refuses every diagnostic, at
the lead's own hand as behind a message that it takes. -/
theorem diagnosticsRefused : Obligations.DiagnosticsRefused := by
  intro s alive plan stopped
  have busy : s.idle = false := State.busy_of_frwState plan stopped
  refine ⟨fun p q here takes c hc hq => ?_, fun port frags m k pay img takes idle fenced body op way =>
    forwarded_refused takes busy idle fenced body op way⟩
  have row : TakesDiagnostic p c.1 c.2 := by
    simp only [List.mem_cons, List.not_mem_nil, or_false] at hc
    rcases hc with rfl | rfl | rfl | rfl | rfl | rfl | rfl | rfl | rfl | rfl | rfl | rfl | rfl
    iterate 12 exact .pattern (by simp) fun _ => rfl
    exact .selftest p
  subst hq
  exact diagnostic_refused row busy takes here
end

section
/-!
SUPPORT. The CDAT, and the enumeration of the downstream port (R495 to R498, R507, R508): what the firmware reports of the link of an
expander that it finds, and what it does with one that it refuses and with one that it maps.
-/

namespace Sys2Proof.Machine

/-- A command whose effect waits for nothing, and the commands behind it as they were. -/
theorem State.whenAlive_eq_next {s t : State} {f : State → State} (alive : s.alive = true) (effect : f s = t)
    (waiting : t.pending = s.pending) : s.whenAlive f = .next t := by
  rw [State.whenAlive_eq f alive, effect, ← waiting]

/-! ### Which expanders are refused (R497, R506) -/

theorem State.usable_eq_false_iff {s : State} {e : Expander} :
    s.usable e = false ↔ e.type3 = false ∨ e.bytes < 0x40000000 ∨ (e.ide = false ∧ s.cxl.expanderIde = true) := by
  simp only [State.usable, Bool.and_eq_false_iff, Bool.or_eq_false_iff, Bool.not_eq_false', decide_eq_false_iff_not,
    Nat.not_le, or_assoc]

/-! ### What an expander's registers report (R507) -/

/-- The port reports the link on which the expander was found. -/
def State.reportLink (s : State) (e : Expander) : State :=
  ((((s.putBit (R.CXLD_PORT.LINK_UP e.port) true).put (R.CXLD_PORT.WIDTH e.port) e.width).put (R.CXLD_PORT.SPEED e.port)
    e.speed).putBit (R.CXLD_PORT.FLIT256 e.port) e.flit256).putBit (R.CXLD_PORT.IDE e.port) e.ide

/-- What is mapped of the expander behind port `k` is reported: `gib` GiB from `base`. -/
def State.reportRange (s : State) (k base gib : Nat) : State :=
  ((s.put (R.CXLD_EXP.MAPPED_GIB k) gib).putBit (R.CXLD_EXP.MAPPED k) (gib != 0)).put (R.CXLD_EXP.BASE_GIB k)
    ((base - farBase) / 0x40000000)

/-- The expander behind port `k` has a range of the far tier. -/
def State.withRange (s : State) (k : Nat) (r : FarRange) : State :=
  { s with cxl := { s.cxl with far := Table.set none k (some r) s.cxl.far } }

@[simp] theorem State.reportLink_pending (s : State) (e : Expander) : (s.reportLink e).pending = s.pending := rfl
@[simp] theorem State.reportRange_pending (s : State) (k base gib : Nat) : (s.reportRange k base gib).pending = s.pending := by
  rw [State.reportRange, State.put_pending, State.putBit_pending, State.put_pending]
@[simp] theorem State.withRange_pending (s : State) (k : Nat) (r : FarRange) : (s.withRange k r).pending = s.pending := rfl
@[simp] theorem State.withRange_get (s : State) (k : Nat) (r : FarRange) (f : Field) : (s.withRange k r).get f = s.get f := rfl

@[simp] theorem State.withRange_far (s : State) (k : Nat) (r : FarRange) :
    Table.get none k (s.withRange k r).cxl.far = some r := by
  simp [State.withRange]

theorem State.reportLink_sameRegs (s : State) (e : Expander) : s.sameRegs (s.reportLink e) [R.CXLD_PORT.LINK_UP e.port,
    R.CXLD_PORT.WIDTH e.port, R.CXLD_PORT.SPEED e.port, R.CXLD_PORT.FLIT256 e.port, R.CXLD_PORT.IDE e.port] := by
  iterate 5 refine State.sameRegs_put ?_ (by simp) _
  exact State.sameRegs_refl s _

theorem State.reportRange_sameRegs (s : State) (k base gib : Nat) : s.sameRegs (s.reportRange k base gib) [R.CXLD_EXP.MAPPED_GIB k,
    R.CXLD_EXP.MAPPED k, R.CXLD_EXP.BASE_GIB k] := by
  iterate 3 refine State.sameRegs_put ?_ (by simp) _
  exact State.sameRegs_refl s _

/-- Fields that start at different bits of their words stand at different places. -/
theorem Field.key_ne_of_lo {f g : Field} (hf : f.lo < 64) (hg : g.lo < 64) (h : f.lo ≠ g.lo) : f.key ≠ g.key := by
  simp only [Field.key]
  omega

/-- No field of the two reports starts at bit 11, where the port's verdict stands, or at bit 32, where the refused are counted. -/
theorem State.reportLink_get (s : State) (e : Expander) {f : Field} (h : f.lo = 11 ∨ f.lo = 32) :
    (s.reportLink e).get f = s.get f := by
  refine s.reportLink_sameRegs e f fun g hg => ?_
  have bits : g.lo ≤ 10 := by
    simp only [List.mem_cons, List.not_mem_nil, or_false] at hg
    rcases hg with rfl | rfl | rfl | rfl | rfl <;>
      simp [R.CXLD_PORT.LINK_UP, R.CXLD_PORT.WIDTH, R.CXLD_PORT.SPEED, R.CXLD_PORT.FLIT256, R.CXLD_PORT.IDE]
  exact Field.key_ne_of_lo (by omega) (by omega) (by omega)

theorem State.reportRange_get (s : State) (k base gib : Nat) {f : Field} (h : f.lo = 11 ∨ f.lo = 32) :
    (s.reportRange k base gib).get f = s.get f := by
  refine s.reportRange_sameRegs k base gib f fun g hg => ?_
  have bits : g.lo = 0 ∨ g.lo = 12 ∨ g.lo = 48 := by
    simp only [List.mem_cons, List.not_mem_nil, or_false] at hg
    rcases hg with rfl | rfl | rfl <;> simp [R.CXLD_EXP.MAPPED_GIB, R.CXLD_EXP.MAPPED, R.CXLD_EXP.BASE_GIB]
  exact Field.key_ne_of_lo (by omega) (by omega) (by omega)

/-- The verdict of a port is not where the refused are counted. -/
theorem usable_key_ne_unusable_key (k : Nat) : (R.CXLD_PORT.USABLE k).key ≠ R.CXLD_COUNTS.UNUSABLE.key :=
  Field.key_ne_of_lo (show 11 < 64 by decide) (show 32 < 64 by decide) (show 11 ≠ 32 by decide)

/-! ### An expander that is found (R497, R498) -/

theorem State.mapExpander_of_unusable {s : State} {e : Expander} (h : s.usable e = false) (base : Nat) :
    s.mapExpander base e = (s.reportLink e).bump R.CXLD_COUNTS.UNUSABLE := by
  have verdict : (!(s.reportLink e).usable e) = true := congrArg not h
  exact if_pos verdict

theorem State.mapExpander_of_usable {s : State} {e : Expander} (h : s.usable e = true) (base : Nat) :
    s.mapExpander base e = (((s.reportLink e).putBit (R.CXLD_PORT.USABLE e.port) true).reportRange e.port base
      (expanderGib base e)).withRange e.port ⟨base, expanderGib base e * 0x40000000⟩ := by
  have verdict : ¬ (!(s.reportLink e).usable e) = true := ne_true_of_eq_false (congrArg not h)
  exact if_neg verdict

theorem State.mapExpander_pending (s : State) (base : Nat) (e : Expander) : (s.mapExpander base e).pending = s.pending := by
  cases h : s.usable e with
  | false => rw [State.mapExpander_of_unusable h, State.bump, State.put_pending, State.reportLink_pending]
  | true =>
    rw [State.mapExpander_of_usable h, State.withRange_pending, State.reportRange_pending, State.putBit_pending,
      State.reportLink_pending]

/-- One that is refused is counted; the port's verdict and the far tier stay. -/
theorem State.mapExpander_refuses {s : State} {e : Expander} (h : s.usable e = false) (base : Nat) :
    (s.mapExpander base e).get R.CXLD_COUNTS.UNUSABLE =
        min (2 ^ R.CXLD_COUNTS.UNUSABLE.width - 1) (s.get R.CXLD_COUNTS.UNUSABLE + 1) ∧
      (∀ k, (s.mapExpander base e).get (R.CXLD_PORT.USABLE k) = s.get (R.CXLD_PORT.USABLE k)) ∧
      (s.mapExpander base e).cxl = s.cxl := by
  rw [State.mapExpander_of_unusable h]
  refine ⟨?_, fun k => ?_, rfl⟩
  · rw [State.get_bump_same, State.reportLink_get s e (.inr rfl)]
  · rw [State.bump, State.get_put_other _ _ (usable_key_ne_unusable_key k), State.reportLink_get s e (.inl rfl)]

/-- One that is taken is not counted; its port reports it as usable, and it has a range of the far tier. -/
theorem State.mapExpander_accepts {s : State} {e : Expander} (h : s.usable e = true) (base : Nat) :
    (s.mapExpander base e).get R.CXLD_COUNTS.UNUSABLE = s.get R.CXLD_COUNTS.UNUSABLE ∧
      (s.mapExpander base e).isSet (R.CXLD_PORT.USABLE e.port) = true ∧
      Table.get none e.port (s.mapExpander base e).cxl.far = some ⟨base, expanderGib base e * 0x40000000⟩ := by
  rw [State.mapExpander_of_usable h]
  refine ⟨?_, ?_, State.withRange_far ..⟩
  · rw [State.withRange_get, State.reportRange_get _ _ _ _ (.inr rfl), State.putBit,
      State.get_put_other _ _ (usable_key_ne_unusable_key e.port).symm, State.reportLink_get s e (.inr rfl)]
  · have fits : b2n true < 2 ^ 1 := by decide
    rw [State.isSet, State.withRange_get, State.reportRange_get _ _ _ _ (.inl rfl), State.putBit,
      State.get_put_fits (f := R.CXLD_PORT.USABLE e.port) _ fits]
    rfl

/-! ### The enumeration (R496) -/

/-- The device with its ports enumerated, before what is behind them is mapped. -/
def State.withPortsEnumerated (s : State) : State := { s with cxl := { s.cxl with enumerated := true } }

/-- The expander of port 0 is the first that is mapped, whether or not there is a port 1. -/
theorem State.enumerate_port0 {s : State} {e : Expander} (boot : s.isSet R.GLB_READY.BOOT_OK = true)
    (first : s.cxl.enumerated = false) (port : e.port = 0) :
    s.enumerate [e] = s.withPortsEnumerated.mapExpander farBase e := by
  have found : (if s.cxl.bifurcated then [0, 1] else [0]).filterMap (fun k => [e].find? fun e => e.port == k) = [e] := by
    split <;> simp [port]
  rw [State.enumerate, boot, first]
  dsimp only
  rw [found]
  rfl

theorem exec_downstreamEnumeration_port0 {s : State} {e : Expander} (alive : s.alive = true)
    (boot : s.isSet R.GLB_READY.BOOT_OK = true) (first : s.cxl.enumerated = false) (port : e.port = 0) :
    exec (.downstreamEnumeration [e]) s = .next (s.withPortsEnumerated.mapExpander farBase e) :=
  State.whenAlive_eq_next (f := (State.enumerate · [e])) alive (State.enumerate_port0 boot first port)
    (State.mapExpander_pending ..)

end Sys2Proof.Machine

open Sys2Proof Sys2Proof.Machine

/-- Settles O11: Table Access sends the one table `cdat`, whose entries are the rows of R495. -/
theorem cdatContents : Obligations.CdatContents := by
  intro s alive reach
  have sent : (if s.hostReaches then s.emit (.cdat cdat) else s) = s.emit (.cdat cdat) := if_pos reach
  exact ⟨_, State.whenAlive_eq_next (f := fun s => if s.hostReaches then s.emit (.cdat cdat) else s) alive sent rfl, rfl⟩

/-- Settles O58: the three cases of R497 are those in which the model's `usable` fails. -/
theorem unusableExpanders : Obligations.UnusableExpanders := by
  intro s e alive boot first port
  have runs := exec_downstreamEnumeration_port0 alive boot first port
  refine ⟨fun refused => ?_, fun taken => ?_⟩
  · have unusable : s.withPortsEnumerated.usable e = false := State.usable_eq_false_iff.2 refused
    obtain ⟨count, verdict, cxl⟩ := State.mapExpander_refuses unusable farBase
    exact ⟨_, runs, count, congrArg (· == 1) (verdict 0), (congrArg Cxl.far cxl :)⟩
  · have usable : s.withPortsEnumerated.usable e = true :=
      Bool.eq_true_of_not_eq_false (mt State.usable_eq_false_iff.1 taken)
    obtain ⟨count, verdict, range⟩ := State.mapExpander_accepts usable farBase
    rw [port] at verdict range
    exact ⟨_, runs, count, verdict, by rw [range]; rfl⟩
end

section
/-!
SUPPORT. Every command and every step answers a next state, which keeps what the state before it has (O1 to O4).
-/

namespace Sys2Proof.Machine

/-! ### Commands -/

/-- Every command answers a next state: no arm of `exec` refuses. -/
theorem exec_answers (i : Instr) (s : State) : ∃ t, exec i s = .next t := by
  cases i <;> exact ⟨_, rfl⟩

/-- The arms of `exec`, each by what its command keeps. -/
theorem exec_kept {z s : State} (h : Kept z s) (i : Instr) : KeptA z (exec i s) :=
  match i with
  | .identify _ => execIdentify_kept h
  | .geometryGet _ => execGeometryGet_kept h
  | .cfgStage _ _ => execCfgStage_kept h
  | .cfgStageDiscard _ => execCfgStageDiscard_kept h
  | .cfgCommit _ => execCfgCommit_kept h
  | .cfgCommitCluster _ => execCfgCommitCluster_kept h
  | .cfgDigest _ => execCfgDigest_kept h
  | .clusterForm _ _ => execClusterForm_kept h
  | .fence _ => execFence_kept h
  | .rejoin _ => execRejoin_kept h
  | .rejoinEngine _ => execRejoinEngine_kept h
  | .resetPartition _ => execResetPartition_kept h
  | .meridianSet _ => execMeridianSet_kept h
  | .furrowPlanLoad _ _ => execFurrowPlanLoad_kept h
  | .furrowStart _ => execFurrowStart_kept h
  | .furrowStop _ => execFurrowStop_kept h
  | .modelLoad _ _ => execModelLoad_kept h
  | .modelUnload _ => execModelUnload_kept h
  | .planLoad _ => execPlanLoad_kept h
  | .adapterLoad _ => execAdapterLoad_kept h
  | .adapterRetire _ => execAdapterRetire_kept h
  | .prefixCreate _ => execPrefixCreate_kept h
  | .prefixRelease _ => execPrefixRelease_kept h
  | .kvImport _ => execKvImport_kept h
  | .kvExport _ => execKvExport_kept h
  | .seqOpen _ => execSeqOpen_kept h
  | .seqAppend _ _ => execSeqAppend_kept h
  | .seqGenerate _ _ => execSeqGenerate_kept h
  | .seqCancel _ => execSeqCancel_kept h
  | .seqClose _ => execSeqClose_kept h
  | .tenantSet _ => execTenantSet_kept h
  | .hintPacket _ => execHintPacket_kept h
  | .powerCapSet _ => execPowerCapSet_kept h
  | .telemetryRead _ => execTelemetryRead_kept h
  | .energyRead _ => execEnergyRead_kept h
  | .seqRead _ => execSeqRead_kept h
  | .random2kRead _ => execRandom2kRead_kept h
  | .random64Read _ => execRandom64Read_kept h
  | .seqWriteCheck _ => execSeqWriteCheck_kept h
  | .mixedCheck _ => execMixedCheck_kept h
  | .nbuRead _ => execNbuRead_kept h
  | .retrain _ => execRetrain_kept h
  | .trafficGenEnd _ _ _ _ _ _ => execTrafficGenEnd_kept h
  | .prbs31q _ => execPrbs31q_kept h
  | .prbs13q _ => execPrbs13q_kept h
  | .ssprq _ => execSsprq_kept h
  | .frameLoop _ => execFrameLoop_kept h
  | .linkTestRetrain _ => execLinkTestRetrain_kept h
  | .linkTestEnd _ _ _ _ => execLinkTestEnd_kept h
  | .selftest _ => execSelftest_kept h
  | .selftestDone _ _ => execSelftestDone_kept h
  | .sqTailDoorbell _ _ => execSqTailDoorbell_kept h
  | .cqHeadDoorbell _ _ => execCqHeadDoorbell_kept h
  | .trHeadDoorbell _ _ => execTrHeadDoorbell_kept h
  | .ringCtrlWrite _ _ _ => execRingCtrlWrite_kept h
  | .registerWrite _ _ _ _ => execRegisterWrite_kept h
  | .directListGo _ => execDirectListGo_kept h
  | .seqCtrlModeWrite _ _ => execSeqCtrlModeWrite_kept h
  | .spareReq _ _ => execSpareReq_kept h
  | .segPowerWrite _ _ _ => execSegPowerWrite_kept h
  | .instHealthClear _ => execInstHealthClear_kept h
  | .evlogSelWrite _ => execEvlogSelWrite_kept h
  | .atomAdd _ => execAtomAdd_kept h
  | .atomMin _ => execAtomMin_kept h
  | .atomMax _ => execAtomMax_kept h
  | .minu _ => execMinu_kept h
  | .maxu _ => execMaxu_kept h
  | .cas _ => execCas_kept h
  | .refInc _ => execRefInc_kept h
  | .refDec _ => execRefDec_kept h
  | .descriptorIssue _ => execDescriptorIssue_kept h
  | .matmul _ _ _ _ => execMatmul_kept h
  | .chainLinkAdd _ _ _ => execChainLinkAdd_kept h
  | .writeOutTimeout _ _ => execWriteOutTimeout_kept h
  | .plotRefetchDone _ _ => execPlotRefetchDone_kept h
  | .vecCopy _ _ _ => execVecCopy_kept h
  | .vecAdd _ _ _ => execVecAdd_kept h
  | .vecSub _ _ _ => execVecSub_kept h
  | .vecMul _ _ _ => execVecMul_kept h
  | .fma _ _ _ => execFma_kept h
  | .axpb _ _ _ => execAxpb_kept h
  | .vecMax _ _ _ => execVecMax_kept h
  | .vecMin _ _ _ => execVecMin_kept h
  | .mulrow _ _ _ => execMulrow_kept h
  | .divrow _ _ _ => execDivrow_kept h
  | .rowsum _ _ _ => execRowsum_kept h
  | .rowmax _ _ _ => execRowmax_kept h
  | .rowamax _ _ _ => execRowamax_kept h
  | .actTable _ _ _ => execActTable_kept h
  | .gateTable _ _ _ => execGateTable_kept h
  | .exprow _ _ _ => execExprow_kept h
  | .rmsnorm _ _ _ => execRmsnorm_kept h
  | .layernorm _ _ _ => execLayernorm_kept h
  | .quantI8s _ _ _ => execQuantI8s_kept h
  | .quantI8a _ _ _ => execQuantI8a_kept h
  | .quantFp8 _ _ _ => execQuantFp8_kept h
  | .rescaleTab _ _ _ => execRescaleTab_kept h
  | .rescaleReg _ _ _ => execRescaleReg_kept h
  | .rescaleFp _ _ _ => execRescaleFp_kept h
  | .wireQ8 _ _ _ => execWireQ8_kept h
  | .wireFp8 _ _ _ => execWireFp8_kept h
  | .wireWide _ _ _ => execWireWide_kept h
  | .widenAdd _ _ _ => execWidenAdd_kept h
  | .widenAddF32 _ _ _ => execWidenAddF32_kept h
  | .attend _ _ _ => execAttend_kept h
  | .attendMerge _ => execAttendMerge_kept h
  | .sampleLocal _ _ => execSampleLocal_kept h
  | .sampleFinal _ _ => execSampleFinal_kept h
  | .copyXfer _ _ _ => execCopyXfer_kept h
  | .stridedCopy _ _ _ => execStridedCopy_kept h
  | .gather _ _ _ => execGather_kept h
  | .zeroFill _ _ _ => execZeroFill_kept h
  | .reduceScatter _ _ => execReduceScatter_kept h
  | .allGather _ _ => execAllGather_kept h
  | .allReduce _ _ => execAllReduce_kept h
  | .broadcast _ _ => execBroadcast_kept h
  | .oneShotAllToAll _ _ => execOneShotAllToAll_kept h
  | .ringPass _ _ => execRingPass_kept h
  | .nbuDesc _ _ => execNbuDesc_kept h
  | .nbuAtom _ _ _ => execNbuAtom_kept h
  | .nbuChainReceive _ _ _ => execNbuChainReceive_kept h
  | .waitMeridian _ => execWaitMeridian_kept h
  | .waitCounter _ => execWaitCounter_kept h
  | .hintDescriptor _ => execHintDescriptor_kept h
  | .markDesc _ => execMarkDesc_kept h
  | .failureNotice _ => execFailureNotice_kept h
  | .meridMarkEdge => execMeridMarkEdge_kept h
  | .missingMark => execMissingMark_kept h
  | .lockLoss => execLockLoss_kept h
  | .holdoverExhausted => execHoldoverExhausted_kept h
  | .meridClkLoss => execMeridClkLoss_kept h
  | .meridPllLock => execMeridPllLock_kept h
  | .localMillisecond => execLocalMillisecond_kept h
  | .startTurnaround => execStartTurnaround_kept h
  | .furrowBodyStart => execFurrowBodyStart_kept h
  | .lateStepCheck => execLateStepCheck_kept h
  | .beaconDeadline => execBeaconDeadline_kept h
  | .relaySend => execRelaySend_kept h
  | .relayDeadline => execRelayDeadline_kept h
  | .echoSend => execEchoSend_kept h
  | .fallowDecision => execFallowDecision_kept h
  | .scheduleCollapse => execScheduleCollapse_kept h
  | .beaconSend => execBeaconSend_kept h
  | .headlandStart _ => execHeadlandStart_kept h
  | .laneTableDeadline => execLaneTableDeadline_kept h
  | .turnaround => execTurnaround_kept h
  | .laneExhausted _ => execLaneExhausted_kept h
  | .instanceDegraded _ => execInstanceDegraded_kept h
  | .phasePreposition _ _ => execPhasePreposition_kept h
  | .phaseLevelApply _ _ => execPhaseLevelApply_kept h
  | .guardRemove => execGuardRemove_kept h
  | .idleCapStep => execIdleCapStep_kept h
  | .powerSample _ _ => execPowerSample_kept h
  | .currentLimitStep _ => execCurrentLimitStep_kept h
  | .vrAlertFall _ => execVrAlertFall_kept h
  | .vrAlertRise _ => execVrAlertRise_kept h
  | .vrAlertHoldExpiry => execVrAlertHoldExpiry_kept h
  | .droopTrip _ => execDroopTrip_kept h
  | .droopSkipStart _ => execDroopSkipStart_kept h
  | .droopEnd _ => execDroopEnd_kept h
  | .thermalSensorRead _ _ _ => execThermalSensorRead_kept h
  | .thermalThrottleStep _ _ _ => execThermalThrottleStep_kept h
  | .stackThermRead _ _ => execStackThermRead_kept h
  | .refreshInterval _ _ => execRefreshInterval_kept h
  | .atomBoundary _ _ => execAtomBoundary_kept h
  | .stackAccess _ _ _ => execStackAccess_kept h
  | .stackLaneMarked _ _ _ => execStackLaneMarked_kept h
  | .stackChannelLost _ _ => execStackChannelLost_kept h
  | .regionZeroDone _ _ => execRegionZeroDone_kept h
  | .granaryAccess _ _ _ => execGranaryAccess_kept h
  | .granaryFillDone _ _ _ => execGranaryFillDone_kept h
  | .scrub _ _ _ => execScrub_kept h
  | .segmentWakeDone _ _ => execSegmentWakeDone_kept h
  | .segmentOnDone _ _ => execSegmentOnDone_kept h
  | .idleFrame _ _ _ => execIdleFrame_kept h
  | .dataFrame _ _ _ _ _ => execDataFrame_kept h
  | .startFrame _ _ _ => execStartFrame_kept h
  | .beaconFrame _ _ _ => execBeaconFrame_kept h
  | .relayFrame _ _ _ => execRelayFrame_kept h
  | .nakFrame _ _ _ => execNakFrame_kept h
  | .trainFrame _ _ _ _ => execTrainFrame_kept h
  | .replayTimeout _ => execReplayTimeout_kept h
  | .linkRetrain _ => execLinkRetrain_kept h
  | .peerDetect _ => execPeerDetect_kept h
  | .linkTrainDone _ _ => execLinkTrainDone_kept h
  | .linkPeerLost _ => execLinkPeerLost_kept h
  | .ackMsg _ _ _ => execAckMsg_kept h
  | .fwdCmd _ _ _ => execFwdCmd_kept h
  | .completionMsg _ _ _ => execCompletionMsg_kept h
  | .laneTable _ _ _ => execLaneTable_kept h
  | .laneAck _ _ _ => execLaneAck_kept h
  | .laneAccept _ _ _ => execLaneAccept_kept h
  | .laneDiscard _ _ _ => execLaneDiscard_kept h
  | .cfgPrepare _ _ _ => execCfgPrepare_kept h
  | .cfgReady _ _ _ => execCfgReady_kept h
  | .cfgConflictReply _ _ _ => execCfgConflictReply_kept h
  | .cfgCommitGo _ _ _ => execCfgCommitGo_kept h
  | .cfgAbort _ _ _ => execCfgAbort_kept h
  | .cfgDecisionTimeout => execCfgDecisionTimeout_kept h
  | .t0Msg _ _ _ => execT0Msg_kept h
  | .tokensMsg _ _ _ => execTokensMsg_kept h
  | .fencedMsg _ _ _ => execFencedMsg_kept h
  | .failureStepNotice _ _ _ => execFailureStepNotice_kept h
  | .failurePeerSilent _ _ _ => execFailurePeerSilent_kept h
  | .failureSelfFence _ _ _ => execFailureSelfFence_kept h
  | .failureErrorRecord _ _ _ => execFailureErrorRecord_kept h
  | .controlResend _ _ => execControlResend_kept h
  | .peerDeclaredDead _ => execPeerDeclaredDead_kept h
  | .membershipApply => execMembershipApply_kept h
  | .clusterDivergent _ => execClusterDivergent_kept h
  | .leadLost => execLeadLost_kept h
  | .dissolve => execDissolve_kept h
  | .watchdogExpiry => execWatchdogExpiry_kept h
  | .controlFault _ _ => execControlFault_kept h
  | .adapterRoom _ _ _ => execAdapterRoom_kept h
  | .adapterVerifyDone _ _ _ => execAdapterVerifyDone_kept h
  | .adapterTimeout _ _ _ => execAdapterTimeout_kept h
  | .spillCopyDone _ _ => execSpillCopyDone_kept h
  | .memrd _ _ _ => execMemrd_kept h
  | .memrddata _ _ _ => execMemrddata_kept h
  | .memwr _ _ _ => execMemwr_kept h
  | .memwrptl _ _ _ _ => execMemwrptl_kept h
  | .m2sUnsupported _ => execM2sUnsupported_kept h
  | .h2dSnoop _ => execH2dSnoop_kept h
  | .goWritepull _ => execGoWritepull_kept h
  | .irqHoldoffExpiry _ => execIrqHoldoffExpiry_kept h
  | .busMasterEnableWrite _ => execBusMasterEnableWrite_kept h
  | .functionLevelReset => execFunctionLevelReset_kept h
  | .upstreamLinkDown => execUpstreamLinkDown_kept h
  | .expanderLinkDown _ => execExpanderLinkDown_kept h
  | .sysRstNAssert => execSysRstNAssert_kept h
  | .sysRstNRelease => execSysRstNRelease_kept h
  | .perstNAssert => execPerstNAssert_kept h
  | .perstNRelease => execPerstNRelease_kept h
  | .vsbPowerUp _ => execVsbPowerUp_kept h
  | .romBoot _ _ => execRomBoot_kept h
  | .memoryInitDone _ => execMemoryInitDone_kept h
  | .downstreamEnumeration _ => execDownstreamEnumeration_kept h
  | .getFwInfo => execGetFwInfo_kept h
  | .transferFw _ _ _ _ _ _ => execTransferFw_kept h
  | .activateFw _ _ => execActivateFw_kept h
  | .getVersion _ => execGetVersion_kept h
  | .getCapabilities _ => execGetCapabilities_kept h
  | .negotiateAlgorithms _ => execNegotiateAlgorithms_kept h
  | .getDigests _ => execGetDigests_kept h
  | .getCertificate _ _ => execGetCertificate_kept h
  | .challenge _ _ => execChallenge_kept h
  | .getMeasurements _ _ _ => execGetMeasurements_kept h
  | .keyExchange _ _ => execKeyExchange_kept h
  | .finish _ _ _ => execFinish_kept h
  | .keyUpdate _ _ => execKeyUpdate_kept h
  | .heartbeat _ _ => execHeartbeat_kept h
  | .endSession _ _ => execEndSession_kept h
  | .setInstanceKey _ _ _ _ _ => execSetInstanceKey_kept h
  | .setFloor _ _ _ => execSetFloor_kept h
  | .cxlIdeKm _ _ _ _ => execCxlIdeKm_kept h
  | .tableAccess => execTableAccess_kept h
  | .setdasa _ _ => execSetdasa_kept h
  | .entdaa _ => execEntdaa_kept h
  | .setEndpointId _ => execSetEndpointId_kept h
  | .getEndpointId => execGetEndpointId_kept h
  | .getVersionSupport _ => execGetVersionSupport_kept h
  | .getMessageTypeSupport => execGetMessageTypeSupport_kept h
  | .getSensorReading _ _ => execGetSensorReading_kept h
  | .setNumericEffecterValue _ _ => execSetNumericEffecterValue_kept h
  | .getNumericEffecterValue _ => execGetNumericEffecterValue_kept h
  | .eventLogRead _ => execEventLogRead_kept h
  | .eventLogWrite _ => execEventLogWrite_kept h
  | .flashRefreshScan _ => execFlashRefreshScan_kept h
  | .tapExtest => execTapExtest_kept h
  | .samplePreload => execSamplePreload_kept h
  | .tapIdcode => execTapIdcode_kept h
  | .tapClamp => execTapClamp_kept h
  | .tapHighz => execTapHighz_kept h
  | .extestPulse => execExtestPulse_kept h
  | .extestTrain => execExtestTrain_kept h
  | .tapBypass _ => execTapBypass_kept h
  | .uncorrectableFrame _ => execUncorrectableFrame_kept h
  | .stopHeadlandEnd => execStopHeadlandEnd_kept h
  | .stackRetrainDone _ _ _ => execStackRetrainDone_kept h
  | .engineBistDone _ _ => execEngineBistDone_kept h
  | .granaryFlushDone _ => execGranaryFlushDone_kept h
  | .collSlotSendTime _ => execCollSlotSendTime_kept h
  | .rdcurrCompletion _ _ _ => execRdcurrCompletion_kept h
  | .railsRemoved => execRailsRemoved_kept h
  | .upstreamLinkUp _ _ => execUpstreamLinkUp_kept h

/-- What the next state of a command keeps. -/
theorem exec_next_kept (i : Instr) (s : State) : ∃ t, exec i s = .next t ∧ Kept s t := by
  obtain ⟨t, ht⟩ := exec_answers i s
  exact ⟨t, ht, exec_kept (.refl s) i t ht⟩

/-! ### Steps -/

theorem step_cons {s : State} {c : Instr} {rest : List Instr} (h : s.pending = c :: rest) :
    step s = exec c { s with pending := rest } := by
  simp only [step, h]

theorem step_nil {s : State} (h : s.pending = []) : step s = .next s.tick := by
  simp only [step, h]

/-- A step on a queue that is not empty takes its front and keeps all else. -/
theorem step_cons_next {s : State} {c : Instr} {rest : List Instr} (h : s.pending = c :: rest) :
    ∃ t, step s = .next t ∧ t.pending = rest ∧ stillSent s.out t.out := by
  obtain ⟨t, ht, kept⟩ := exec_next_kept c { s with pending := rest }
  exact ⟨t, (step_cons h).trans ht, kept.pending, kept.out⟩

/-- Every step keeps the canonical forms. -/
theorem step_canon {s t : State} (canon : s.canon) (h : step s = .next t) : t.canon := by
  cases waiting : s.pending with
  | nil =>
    rw [step_nil waiting] at h
    obtain rfl := Host.Outcome.next.inj h
    exact (State.tick_kept (.refl s)).canon canon
  | cons c rest =>
    rw [step_cons waiting] at h
    exact (exec_kept (.refl _) c t h).canon canon

theorem State.inForm_iff_canon (s : State) : s.inForm ↔ s.canon := by
  rw [State.inForm, Table.sorted_iff]
  exact ⟨fun ⟨regs, mem, poison⟩ => ⟨regs, mem, poison⟩, fun c => ⟨c.regs, c.mem, c.poison⟩⟩

/-! ### Runs -/

/-- A run of as many steps as there are commands, or fewer, runs them from the front. -/
theorem run_inOrder (n : Nat) (s : State) (h : n ≤ s.pending.length) :
    ∃ t, Host.Core.run Sys2Proof.core n s = .next t ∧ t.pending = s.pending.drop n ∧ stillSent s.out t.out := by
  induction n generalizing s with
  | zero => exact ⟨s, rfl, rfl, stillSent.refl _⟩
  | succ n ih =>
    cases waiting : s.pending with
    | nil => simp [waiting] at h
    | cons c rest =>
      obtain ⟨u, hu, left, sent⟩ := step_cons_next waiting
      obtain ⟨t, ht, later, sent'⟩ := ih u (by simpa [left, waiting] using h)
      refine ⟨t, ?_, by rw [later, left, List.drop_succ_cons], sent.trans sent'⟩
      have first : Sys2Proof.core.step s = .next u := hu
      simp only [Host.Core.run, first]
      exact ht

/-! ### The state after reset -/

/-- At reset a register field reads its reset value. -/
theorem State.reset_get (f : Field) : State.reset.get f = f.reset := rfl

end Sys2Proof.Machine

open Sys2Proof Sys2Proof.Machine

/-- Settles O1: a step on a queue that is not empty is the command at its front. -/
theorem stepRunsFront : Obligations.StepRunsFront := fun _ _ _ h => step_cons h

/-- Settles O2, by what each command keeps. -/
theorem noCommandStops : Obligations.NoCommandStops := by
  intro i s
  obtain ⟨t, ht, kept⟩ := exec_next_kept i s
  exact ⟨t, ht, kept.pending, kept.out, kept.free⟩

/-- Settles O3, by induction on the number of steps. -/
theorem queueRunsInOrder : Obligations.QueueRunsInOrder := fun s n h => run_inOrder n s h

/-- Settles O4: what a command and the passing of time keep. -/
theorem formKept : Obligations.FormKept := by
  intro s t form h
  rw [State.inForm_iff_canon] at *
  exact step_canon form h

/-- Settles O5: at reset every register field reads the reset value of its map. -/
theorem reset : Obligations.Reset := by
  refine ⟨⟨rfl, rfl, rfl⟩, rfl, rfl, rfl, fun _ => rfl, rfl, rfl, rfl, rfl, rfl, rfl, ?_, ?_, ?_, fun n _ => ?_⟩
  · intro i hi
    simp [State.reset] at hi
  · simp only [State.reset_get]
    decide
  · simp only [State.reset_get]
    decide
  · simp only [State.reset_get, State.seqState]
    exact ⟨rfl, rfl, rfl, rfl, rfl, rfl, rfl, rfl, rfl, rfl⟩
end

section
/-!
SUPPORT. What a command answers, told once for each way in which a command runs; and which fields a chain of register writes
leaves alone.
-/

namespace Sys2Proof.Machine

/-! ### What a command answers -/

theorem completes_become {i : Instr} {s t : State} {P : State → Prop} (runs : exec i s = s.become t)
    (waiting : t.pending = s.pending) (h : P t) : Completes i s P :=
  ⟨t, runs.trans (State.become_eq waiting), h⟩

theorem completes_whenAlive {i : Instr} {s t : State} {f : State → State} {P : State → Prop} (alive : s.alive = true)
    (runs : exec i s = s.whenAlive f) (effect : f s = t) (waiting : t.pending = s.pending) (h : P t) : Completes i s P :=
  ⟨t, runs.trans (State.whenAlive_eq_next alive effect waiting), h⟩

theorem completes_whenOn {i : Instr} {s t : State} {f : State → State} {P : State → Prop}
    (on : (s.pins.sysRstN && s.pins.railsOn) = true) (runs : exec i s = s.whenOn f) (effect : f s = t)
    (waiting : t.pending = s.pending) (h : P t) : Completes i s P :=
  ⟨t, by rw [runs, State.whenOn_eq f on, effect, ← waiting], h⟩

/-- A command after which no packet is open. -/
theorem completes_act {i : Instr} {s t : State} {f : State → State} {P : State → Prop} (alive : s.alive = true)
    (runs : exec i s = s.act f) (effect : f s = t) (none_open : t.que.tickets = []) (waiting : t.pending = s.pending)
    (h : P t) : Completes i s P :=
  ⟨t, runs.trans (State.act_eq_next alive effect none_open waiting), h⟩

/-- A device out of reset and powered that has not stopped is out of reset and powered. -/
theorem State.on_of_alive {s : State} (h : s.alive = true) : (s.pins.sysRstN && s.pins.railsOn) = true := by
  simp only [State.alive, Bool.and_eq_true] at h ⊢
  exact h.1

/-! ### Chains of register writes -/

/-- From `s` to `t` registers have been written, those named alone. -/
def State.onlyRegs (s t : State) (l : List Field) : Prop := t = { s with regs := t.regs } ∧ s.sameRegs t l

theorem State.onlyRegs.refl (s : State) (l : List Field) : s.onlyRegs s l := ⟨rfl, State.sameRegs_refl s l⟩

theorem State.onlyRegs.put {s t : State} {l : List Field} {f : Field} (h : s.onlyRegs t l) (hf : f ∈ l) (v : Nat) :
    s.onlyRegs (t.put f v) l :=
  ⟨by rw [h.1]; rfl, State.sameRegs_put h.2 hf v⟩

theorem State.onlyRegs.foldl_put {s t : State} {l : List Field} {is : List Nat} {f : Nat → Field} {v : Nat → Nat}
    (h : s.onlyRegs t l) (hf : ∀ i ∈ is, f i ∈ l) : s.onlyRegs (is.foldl (fun (t : State) i => t.put (f i) (v i)) t) l := by
  induction is generalizing t with
  | nil => exact h
  | cons i is ih => exact ih (h.put (hf i (by simp)) _) fun j hj => hf j (by simp [hj])

theorem State.onlyRegs.get {s t : State} {l : List Field} (h : s.onlyRegs t l) {f : Field} (hf : ∀ g ∈ l, f.key ≠ g.key) :
    t.get f = s.get f := h.2 f hf

theorem State.onlyRegs.isSet {s t : State} {l : List Field} (h : s.onlyRegs t l) {f : Field} (hf : ∀ g ∈ l, f.key ≠ g.key) :
    t.isSet f = s.isSet f := by rw [State.isSet, h.get hf, State.isSet]

theorem State.onlyRegs.leaves {s t : State} {l : List Field} (h : s.onlyRegs t l) : s.leaves t l :=
  ⟨(congrArg State.mem h.1 :), (congrArg State.out h.1 :), h.2⟩

theorem State.onlyRegs.pending {s t : State} {l : List Field} (h : s.onlyRegs t l) : t.pending = s.pending :=
  (congrArg State.pending h.1 :)

theorem State.onlyRegs.que {s t : State} {l : List Field} (h : s.onlyRegs t l) : t.que = s.que := (congrArg State.que h.1 :)

theorem State.isSet_put (s : State) (f : Field) (v : Nat) : (s.put f v).isSet f = (v % 2 ^ f.width == 1) := by
  rw [State.isSet, State.get_put_same]

theorem State.isSet_putBit {s : State} {f : Field} (w : 0 < f.width) (b : Bool) : (s.putBit f b).isSet f = b := by
  have fits : b2n b < 2 ^ f.width :=
    Nat.lt_of_lt_of_le (by cases b <;> decide : b2n b < 2) (Nat.le_self_pow (by omega) 2)
  rw [State.putBit, State.isSet, State.get_put_fits _ _ fits]
  cases b <;> rfl

theorem State.isSet_put_other (s : State) {f g : Field} (v : Nat) (h : g.key ≠ f.key) : (s.put f v).isSet g = s.isSet g := by
  rw [State.isSet, State.get_put_other s v h, State.isSet]

end Sys2Proof.Machine
end

section
/-!
SUPPORT. The mesh of a group (R439).
-/

namespace Sys2Proof.Machine

/-- One lap of the ring of positions, from `g` over port `p` and back over its peer's port. -/
theorem ring_lap {G g p : Nat} (hg : g < G) (hp : p + 1 < G) :
    ((g + p + 1) % G + G - g - 1) % G = p ∧ ((g + p + 1) % G + (G - 2 - p) + 1) % G = g ∧
      (g + G - (g + p + 1) % G - 1) % G = G - 2 - p := by
  rcases Nat.lt_or_ge (g + p + 1) G with h | h
  · rw [Nat.mod_eq_of_lt h]
    refine ⟨?_, ?_, ?_⟩
    · rw [show g + p + 1 + G - g - 1 = p + G by omega, Nat.add_mod_right, Nat.mod_eq_of_lt (by omega)]
    · rw [show g + p + 1 + (G - 2 - p) + 1 = g + G by omega, Nat.add_mod_right, Nat.mod_eq_of_lt hg]
    · rw [show g + G - (g + p + 1) - 1 = G - 2 - p by omega, Nat.mod_eq_of_lt (by omega)]
  · rw [Nat.mod_eq_sub_mod h, Nat.mod_eq_of_lt (show g + p + 1 - G < G by omega)]
    refine ⟨?_, ?_, ?_⟩
    · rw [show g + p + 1 - G + G - g - 1 = p by omega, Nat.mod_eq_of_lt (by omega)]
    · rw [show g + p + 1 - G + (G - 2 - p) + 1 = g by omega, Nat.mod_eq_of_lt hg]
    · rw [show g + G - (g + p + 1 - G) - 1 = G - 2 - p + G by omega, Nat.add_mod_right, Nat.mod_eq_of_lt (by omega)]

/-- A mesh port reaches the position as many places on. -/
theorem State.portDevice_mesh {s : State} {p : Nat} (h : p + 1 < s.groupOf (s.get R.GLB_DEVPOS.GROUP)) :
    s.portDevice p = some (16 * s.get R.GLB_DEVPOS.GROUP +
      (s.get R.GLB_DEVPOS.POSITION + p + 1) % s.groupOf (s.get R.GLB_DEVPOS.GROUP)) := by
  rw [State.portDevice]
  exact if_pos (by omega)

/-- Ports below 15 are no column ports: past the mesh ports they reach nothing. -/
theorem State.portDevice_unused {s : State} {p : Nat} (h : s.groupOf (s.get R.GLB_DEVPOS.GROUP) ≤ p + 1) (hp : p ≤ 14) :
    s.portDevice p = none := by
  have doubled : s.doubledPorts.contains p = false := by
    simp only [State.doubledPorts, List.contains_eq_mem, decide_eq_false_iff_not, List.mem_filterMap, List.mem_range, not_exists,
      not_and]
    intro k _ e
    split at e
    · exact absurd (Option.some.inj e) (by omega)
    · cases e
  have column : ∀ b, p ∉ s.columnPorts b := fun b => by
    simp only [State.columnPorts, List.mem_cons, List.not_mem_nil, or_false]
    omega
  simp only [State.portDevice]
  rw [if_neg (by omega), doubled, if_neg (by simp)]
  simp [column]

end Sys2Proof.Machine

open Sys2Proof Sys2Proof.Machine

/-- Settles O6: port `p` goes `p + 1` places on along the ring of the group's positions, and port G − 2 − p goes the rest of the lap. -/
theorem meshWiring : Obligations.MeshWiring := by
  intro s u p grp G g h size group position hg
  have same : u.groupOf grp = G := by rw [State.groupOf, size]; rfl
  refine ⟨fun hp => ?_, State.portDevice_unused⟩
  obtain ⟨there, back, home⟩ := ring_lap hg hp
  refine ⟨State.portDevice_mesh hp, there, ?_, ?_⟩
  · rw [State.portDevice_mesh (by rw [group, same]; omega), group, same, position]
    exact congrArg (fun x => some (16 * grp + x)) back
  · rw [State.meshPort, group, same, position]
    exact home
end

section
/-!
SUPPORT. The levels of the tiles (R510, R511): what settling them writes, and that they follow the demands afterwards.
-/

namespace Sys2Proof.Machine

/-- The registers that settling the levels writes. -/
def levelFields : List Field := (List.range 16).map R.PWR_TILE.PL ++ [R.PWR_STATUS.DEVICE_PL, R.PWR_REASONS.ACTIVE]

theorem pl_mem_levelFields {n : Nat} (h : n < 16) : R.PWR_TILE.PL n ∈ levelFields := by
  simp only [levelFields, List.mem_append, List.mem_map, List.mem_range]
  exact .inl ⟨n, h, rfl⟩

/-- A field is none of the levels' if it stands elsewhere, or beside their bits. -/
theorem notLevel {f : Field} (lo : f.lo < 64)
    (h : f.lo ≠ 0 ∨ (f.addr ≠ 0x20008 ∧ f.addr ≠ 0x20018 ∧ (f.addr < 0x20100 ∨ 0x20180 ≤ f.addr))) :
    ∀ g ∈ levelFields, f.key ≠ g.key := by
  simp only [levelFields, List.mem_append, List.mem_map, List.mem_range, List.mem_cons, List.not_mem_nil, or_false]
  rintro g (⟨n, hn, rfl⟩ | rfl | rfl) <;> simp only [Field.key, R.PWR_TILE.PL, R.PWR_STATUS.DEVICE_PL, R.PWR_REASONS.ACTIVE] <;> omega

/-- The registers after the levels have been settled. -/
def State.levelled (s : State) : State :=
  (((List.range 16).foldl (fun (t : State) n => t.put (R.PWR_TILE.PL n) (((List.range 16).map s.wanted).getD n 0)) s).put
    R.PWR_STATUS.DEVICE_PL (((List.range 16).map s.wanted).foldl max 0)).put R.PWR_REASONS.ACTIVE
      (bitSet ((List.range 8).filter s.binds))

theorem State.levelled_onlyRegs (s : State) : s.onlyRegs s.levelled levelFields := by
  refine State.onlyRegs.put (State.onlyRegs.put (State.onlyRegs.foldl_put (.refl s _) fun n hn => ?_) ?_ _) ?_ _
  · exact pl_mem_levelFields (List.mem_range.1 hn)
  · simp [levelFields]
  · simp [levelFields]

theorem State.settleLevels_regs (s : State) : s.settleLevels.regs = s.levelled.regs := by
  simp only [State.settleLevels]
  split <;> rfl

/-- Settling the levels writes the levels' registers, and an occurrence in progress may note PL7. -/
theorem State.settleLevels_eq (s : State) :
    s.settleLevels = { s with regs := s.settleLevels.regs, pwr := { s.pwr with occur := s.settleLevels.pwr.occur } } := by
  have e := s.levelled_onlyRegs.1
  have h : s.settleLevels = if ((List.range 16).map s.wanted).contains 7 then
      { s.levelled with pwr := { s.levelled.pwr with
          occur := s.levelled.pwr.occur.map fun e => (e.1, e.2.map fun o => { o with seven := true }) } } else s.levelled := rfl
  generalize s.levelled = u at e h
  rw [h]
  split <;> rw [e]

theorem State.settleLevels_sameRegs (s : State) : s.sameRegs s.settleLevels levelFields := fun f hf => by
  rw [State.get_of_regs s.settleLevels_regs, s.levelled_onlyRegs.get hf]

theorem State.settleLevels_get (s : State) {f : Field} (hf : ∀ g ∈ levelFields, f.key ≠ g.key) : s.settleLevels.get f = s.get f :=
  s.settleLevels_sameRegs f hf

theorem State.settleLevels_isSet (s : State) {f : Field} (hf : ∀ g ∈ levelFields, f.key ≠ g.key) :
    s.settleLevels.isSet f = s.isSet f := by rw [State.isSet, s.settleLevels_get hf, State.isSet]

@[simp] theorem State.settleLevels_mem (s : State) : s.settleLevels.mem = s.mem := (congrArg State.mem s.settleLevels_eq :)
@[simp] theorem State.settleLevels_poison (s : State) : s.settleLevels.poison = s.poison := (congrArg State.poison s.settleLevels_eq :)
@[simp] theorem State.settleLevels_out (s : State) : s.settleLevels.out = s.out := (congrArg State.out s.settleLevels_eq :)
@[simp] theorem State.settleLevels_pending (s : State) : s.settleLevels.pending = s.pending :=
  (congrArg State.pending s.settleLevels_eq :)
@[simp] theorem State.settleLevels_mgt (s : State) : s.settleLevels.mgt = s.mgt := (congrArg State.mgt s.settleLevels_eq :)
@[simp] theorem State.settleLevels_pins (s : State) : s.settleLevels.pins = s.pins := (congrArg State.pins s.settleLevels_eq :)
@[simp] theorem State.settleLevels_flt (s : State) : s.settleLevels.flt = s.flt := (congrArg State.flt s.settleLevels_eq :)
@[simp] theorem State.settleLevels_que (s : State) : s.settleLevels.que = s.que := (congrArg State.que s.settleLevels_eq :)
@[simp] theorem State.settleLevels_tiles (s : State) : s.settleLevels.tiles = s.tiles := (congrArg State.tiles s.settleLevels_eq :)

theorem State.settleLevels_pwr (s : State) : s.settleLevels.pwr = { s.pwr with occur := s.settleLevels.pwr.occur } :=
  (congrArg State.pwr s.settleLevels_eq :)

@[simp] theorem State.settleLevels_alive (s : State) : s.settleLevels.alive = s.alive := by
  simp only [State.alive, State.settleLevels_pins, State.settleLevels_flt]

@[simp] theorem State.settleLevels_demand (s : State) (src n : Nat) : s.settleLevels.demand src n = s.demand src n := by
  rw [State.demand, s.settleLevels_pwr]
  rfl

@[simp] theorem State.settleLevels_alert (s : State) : s.settleLevels.alert = s.alert := by
  rw [State.alert, s.settleLevels_pwr, s.settleLevels_pins]
  rfl

/-- No level register shows an emergency. -/
theorem State.settleLevels_emergency (s : State) (src n : Nat) : s.settleLevels.emergency src n = s.emergency src n := by
  have tile := s.settleLevels_isSet (notLevel (f := R.THM_TILE.TILE_EMERGENCY n) (show 17 < 64 by decide) (.inl (show 17 ≠ 0 by decide)))
  have store := s.settleLevels_isSet (notLevel (f := R.THM_TILE.STORE_EMERGENCY n) (show 19 < 64 by decide) (.inl (show 19 ≠ 0 by decide)))
  have stack := s.settleLevels_isSet (notLevel (f := R.STACK_THERM.EMERGENCY n) (show 17 < 64 by decide) (.inl (show 17 ≠ 0 by decide)))
  simp only [State.emergency, tile, store, stack]

theorem State.settleLevels_wanted (s : State) (n : Nat) : s.settleLevels.wanted n = s.wanted n := by
  simp only [State.wanted, State.demanded, s.settleLevels_alert, s.settleLevels_emergency, s.settleLevels_demand]

theorem pl_key_inj {m n : Nat} (h : m ≠ n) : (R.PWR_TILE.PL m).key ≠ (R.PWR_TILE.PL n).key := by
  simp only [Field.key, R.PWR_TILE.PL]
  omega

/-- Registers of an injective family written one after the other: each reads what was written to it. -/
theorem State.get_foldl_put {s : State} {l : List Nat} {f : Nat → Field} {v : Nat → Nat} (inj : ∀ i j, i ≠ j → (f i).key ≠ (f j).key)
    (nodup : l.Nodup) {i : Nat} (hi : i ∈ l) :
    (l.foldl (fun (t : State) i => t.put (f i) (v i)) s).get (f i) = v i % 2 ^ (f i).width := by
  induction l generalizing s with
  | nil => simp at hi
  | cons j l ih =>
    obtain ⟨fresh, nodup⟩ := List.nodup_cons.1 nodup
    rcases List.mem_cons.1 hi with rfl | hi
    · have rest : (s.put (f i) (v i)).sameRegs (l.foldl (fun (t : State) i => t.put (f i) (v i)) (s.put (f i) (v i))) (l.map f) :=
        (State.onlyRegs.foldl_put (.refl _ _) fun k hk => List.mem_map_of_mem hk).2
      rw [List.foldl_cons, rest, State.get_put_same]
      simp only [List.mem_map]
      rintro g ⟨k, hk, rfl⟩
      exact inj _ _ fun e => fresh (e ▸ hk)
    · exact ih nodup hi

/-- After the levels have been settled every tile's register holds the level that its demands give (R511). -/
theorem State.settleLevels_levelsFollow (s : State) : s.settleLevels.levelsFollow := by
  intro n hn
  rw [s.settleLevels_wanted, State.pl, State.get_of_regs s.settleLevels_regs, State.levelled,
    State.get_put_other _ _ (by simp only [Field.key, R.PWR_TILE.PL, R.PWR_REASONS.ACTIVE]; omega),
    State.get_put_other _ _ (by simp only [Field.key, R.PWR_TILE.PL, R.PWR_STATUS.DEVICE_PL]; omega),
    State.get_foldl_put (f := R.PWR_TILE.PL) (fun i j h => pl_key_inj h) List.nodup_range (List.mem_range.2 hn)]
  simp [hn, R.PWR_TILE.PL]

end Sys2Proof.Machine
end

section
/-!
SUPPORT. The sideband target (R596 to R600, R605).
-/

namespace Sys2Proof.Machine

/-- A target without an address takes the one it is given. -/
theorem State.takeAddress_none {s : State} (h : s.get R.MGT_SB_STATUS.DYN_ADDR = 0) (a : Nat) :
    s.takeAddress a = s.put R.MGT_SB_STATUS.DYN_ADDR a := by
  simp [State.takeAddress, h]

/-- A target with an address answers. -/
theorem State.sideband_addressed {s : State} (h : s.get R.MGT_SB_STATUS.DYN_ADDR ≠ 0) (a : SbAnswer) :
    s.sideband a = s.emit (.sideband a) := by
  simp [State.sideband, h]

/-- A request that reaches the target of a device. -/
theorem completes_onSideband {i : Instr} {s t : State} {P : State → Prop} (f : State → State)
    (addressed : s.get R.MGT_SB_STATUS.DYN_ADDR ≠ 0) (runs : exec i s = s.onSideband f) (effect : f s = t)
    (waiting : t.pending = s.pending) (h : P t) : Completes i s P :=
  completes_become (runs.trans (by simp [State.onSideband, addressed, effect])) waiting h

/-- A request that is answered and does nothing else. -/
theorem completes_sideband {i : Instr} {s : State} {a : SbAnswer} {P : State → Prop} (f : State → State)
    (addressed : s.get R.MGT_SB_STATUS.DYN_ADDR ≠ 0) (runs : exec i s = s.onSideband f) (effect : f s = s.sideband a)
    (h : P (s.emit (.sideband a))) : Completes i s P :=
  completes_onSideband f addressed runs (effect.trans (State.sideband_addressed addressed a)) rfl h

/-- A request that is answered with `a` alone. -/
theorem completes_answers {i : Instr} {s : State} {a : SbAnswer} (f : State → State)
    (addressed : s.get R.MGT_SB_STATUS.DYN_ADDR ≠ 0) (runs : exec i s = s.onSideband f) (effect : f s = s.sideband a) :
    Completes i s fun t => t = s.emit (.sideband a) :=
  completes_sideband f addressed runs effect rfl

/-! ### Sensors (R599) -/

theorem State.sensor_tile {s : State} {n : Nat} (h : n < 16) : s.sensor (0x01 + n) = some (s.get (R.THM_TILE.TJ n)) := by
  rw [State.sensor, if_pos (by simp; omega), Nat.add_sub_cancel_left]

theorem State.sensor_store {s : State} {n : Nat} (h : n < 16) : s.sensor (0x11 + n) = some (s.get (R.THM_TILE.TSTORE n)) := by
  rw [State.sensor, if_neg (by simp; omega), if_pos (by simp; omega), Nat.add_sub_cancel_left]

theorem State.sensor_stack {s : State} {n : Nat} (h : n < 16) : s.sensor (0x21 + n) = some (s.get (R.STACK_THERM.TEMP n)) := by
  rw [State.sensor, if_neg (by simp; omega), if_neg (by simp; omega), if_pos (by simp; omega), Nat.add_sub_cancel_left]

/-- A sensor of the device that is there is read where the rails are on. -/
theorem State.readSensor_of_sensor {s : State} {id v c : Nat} (on : s.pins.railsOn = true) (lo : 1 ≤ id) (hi : id < 0x60)
    (h : s.sensor id = some v) : s.readSensor id c = s.sideband (.reading v) := by
  rw [State.readSensor, if_neg (by simp; omega), if_neg (by simp; omega), if_neg (by simp [on]), h]

theorem State.readSensor_off {s : State} {id c : Nat} (off : s.pins.railsOn = false) (lo : 1 ≤ id) (hi : id < 0x60) :
    s.readSensor id c = s.sideband .unavailable := by
  rw [State.readSensor, if_neg (by simp; omega), if_neg (by simp; omega), if_pos (by simp [off])]

/-! ### The sideband cap (R600) -/

/-- Values that the cap may take. -/
theorem State.setCap_of_legal {s : State} {w : Nat} (h : w = 0 ∨ (800 ≤ w ∧ w ≤ 3200)) :
    s.setCap 0x101 w = (if (s.put R.MGT_SB_CAP.CAP_W w).alive then (s.put R.MGT_SB_CAP.CAP_W w).settleLevels
      else s.put R.MGT_SB_CAP.CAP_W w).sideband .done := by
  rw [State.setCap, if_neg (by simp; omega)]

theorem State.setCap_of_illegal {s : State} {w : Nat} (h : ¬ (w = 0 ∨ (800 ≤ w ∧ w ≤ 3200))) :
    s.setCap 0x101 w = s.sideband .invalidData := by
  rw [State.setCap, if_pos (by simp; omega)]

/-- A value taken is in the register, and what else is written are the levels. -/
theorem setCap_completes {s : State} {w : Nat} (addressed : s.get R.MGT_SB_STATUS.DYN_ADDR ≠ 0)
    (h : w = 0 ∨ (800 ≤ w ∧ w ≤ 3200)) : Completes (.setNumericEffecterValue 0x101 w) s fun t =>
      t.get R.MGT_SB_CAP.CAP_W = w ∧ t.out = s.out ++ [.sideband .done] ∧ t.mem = s.mem ∧ t.mgt = s.mgt := by
  have stored : (s.put R.MGT_SB_CAP.CAP_W w).get R.MGT_SB_CAP.CAP_W = w :=
    State.get_put_fits _ _ (show w < 2 ^ 16 by omega)
  have still : (s.put R.MGT_SB_CAP.CAP_W w).get R.MGT_SB_STATUS.DYN_ADDR ≠ 0 := by
    rwa [State.get_put_other _ _ (by decide)]
  have effect := State.setCap_of_legal (s := s) h
  by_cases alive : (s.put R.MGT_SB_CAP.CAP_W w).alive = true
  · rw [if_pos alive, State.sideband_addressed (by rwa [State.settleLevels_get _ (notLevel (by decide) (by decide))])] at effect
    refine completes_onSideband (State.setCap · 0x101 w) addressed rfl effect (by simp [State.emit]) ⟨?_, ?_, ?_, ?_⟩
    · rw [State.emit_get, State.settleLevels_get _ (notLevel (by decide) (by decide)), stored]
    · simp [State.emit]
    · simp [State.emit]
    · simp [State.emit]
  · rw [if_neg alive, State.sideband_addressed still] at effect
    exact completes_onSideband (State.setCap · 0x101 w) addressed rfl effect rfl ⟨stored, rfl, rfl, rfl⟩

end Sys2Proof.Machine

open Sys2Proof Sys2Proof.Machine

/-- Settles O7: an address is taken where there is none; with one, each request is one answer, and the two that set something write its
register first. -/
theorem sideband : Obligations.Sideband := by
  refine ⟨fun s a none ha => ?_, fun s addressed => ⟨fun eid lo hi => ?_, ?_, ?_, ?_, ?_, ?_, fun q => ?_⟩,
    fun s addressed => ⟨fun c => ?_, fun id c lo hi off => ?_, fun n c hn on => ⟨?_, ?_, ?_⟩, fun c on => ⟨?_, ?_⟩⟩,
    fun s w addressed => ⟨setCap_completes addressed, fun illegal => ?_⟩⟩
  · have taken := State.takeAddress_none none a
    have shown : (s.put R.MGT_SB_STATUS.DYN_ADDR a).get R.MGT_SB_STATUS.DYN_ADDR = a :=
      State.get_put_fits _ _ (show a < 2 ^ 7 from ha)
    refine ⟨completes_become (t := s.put R.MGT_SB_STATUS.DYN_ADDR a) ?_ rfl ⟨rfl, shown⟩,
      completes_become (t := s.put R.MGT_SB_STATUS.DYN_ADDR a) ?_ rfl ⟨rfl, shown⟩⟩
    · rw [← taken]
      exact congrArg s.become (if_pos (by simp))
    · rw [← taken]
      rfl
  · have still : (s.put R.MGT_SB_STATUS.EID eid).get R.MGT_SB_STATUS.DYN_ADDR ≠ 0 := by
      rwa [State.get_put_other _ _ (by decide)]
    have effect : s.setEid eid = (s.put R.MGT_SB_STATUS.EID eid).emit (.sideband (.endpoint eid)) := by
      rw [State.setEid, if_neg (by simp; omega), State.sideband_addressed still]
    refine completes_onSideband (State.setEid · eid) addressed rfl effect rfl ⟨rfl, ?_⟩
    exact State.get_put_fits _ _ (show eid < 2 ^ 8 by omega)
  · exact completes_answers (fun s => s.sideband (.endpoint (s.get R.MGT_SB_STATUS.EID))) addressed rfl rfl
  · exact completes_answers (fun s => s.sideband (.types mctpTypes)) addressed rfl rfl
  · exact completes_answers (State.versionsOf · 0x00) addressed rfl rfl
  · exact completes_answers (State.versionsOf · 0x05) addressed rfl rfl
  · exact completes_answers (fun s => s.sideband (.effecter (s.get R.MGT_SB_CAP.CAP_W))) addressed rfl rfl
  · refine completes_sideband (fun s => s.sideband (.entries (s.readEvents (q % 2 ^ 32)))) addressed rfl rfl ⟨_, rfl, ?_⟩
    simp only [State.readEvents, List.length_map, List.length_take]
    omega
  · exact completes_answers (State.readSensor · 0x60 c) addressed rfl rfl
  · exact completes_answers (State.readSensor · id c) addressed rfl (State.readSensor_off off lo hi)
  · exact completes_answers (State.readSensor · (0x01 + n) c) addressed rfl
      (State.readSensor_of_sensor on (by omega) (by omega) (State.sensor_tile hn))
  · exact completes_answers (State.readSensor · (0x11 + n) c) addressed rfl
      (State.readSensor_of_sensor on (by omega) (by omega) (State.sensor_store hn))
  · exact completes_answers (State.readSensor · (0x21 + n) c) addressed rfl
      (State.readSensor_of_sensor on (by omega) (by omega) (State.sensor_stack hn))
  · exact completes_answers (State.readSensor · 0x5D c) addressed rfl (State.readSensor_of_sensor on (by decide) (by decide) rfl)
  · exact completes_answers (State.readSensor · 0x5E c) addressed rfl (State.readSensor_of_sensor on (by decide) (by decide) rfl)
  · exact completes_answers (State.setCap · 0x101 w) addressed rfl (State.setCap_of_illegal illegal)
end

section
/-!
SUPPORT. The TAP (R608, R609), the event log (R604) and the flash scan (R606).
-/

namespace Sys2Proof.Machine

/-- The TAP with an instruction loaded. -/
def State.tapLoaded (s : State) (c : Nat) : State := { s with mgt := { s.mgt with tapIr := c } }

/-- What an instruction loaded shifts out, by what is in effect. -/
theorem State.tapLoad_eq (s : State) (c : Nat) : s.tapLoad c =
    let u := s.tapLoaded c
    if u.tapEffect == 2 then u.emit (.tdo 32 idcode)
    else if u.tapEffect == 0xFF || u.tapEffect == 3 || u.tapEffect == 4 then u.emit (.tdo 1 0) else u := rfl

/-- CLAMP, HIGHZ and what selects BYPASS shift out the bypass bit. -/
theorem State.tapLoad_bypass {s : State} {c : Nat} (h : c = 3 ∨ c = 4 ∨ 7 ≤ c) : s.tapLoad c = (s.tapLoaded c).emit (.tdo 1 0) := by
  have effect : (s.tapLoaded c).tapEffect = c ∧ (c = 3 ∨ c = 4) ∨ (s.tapLoaded c).tapEffect = 0xFF := by
    have ir : (s.tapLoaded c).mgt.tapIr = c := rfl
    simp only [State.tapEffect, ir]
    rw [if_neg (by simp; omega)]
    split
    · rename_i drives
      simp only [Bool.and_eq_true, Bool.or_eq_true, beq_iff_eq, decide_eq_true_eq] at drives
      exact .inl ⟨rfl, by omega⟩
    · exact .inr rfl
  rw [State.tapLoad_eq]
  dsimp only
  generalize (s.tapLoaded c).tapEffect = e at effect
  rw [if_neg (by simp; omega), if_pos (by simp; omega)]

/-- EXTEST and its kind drive the outputs while SYS_RST_N is low, and are BYPASS else. -/
theorem State.tapLoad_extest {s : State} {c : Nat} (h : c = 0 ∨ c = 5 ∨ c = 6) :
    s.tapLoad c = if s.pins.sysRstN then (s.tapLoaded c).emit (.tdo 1 0) else s.tapLoaded c := by
  have effect : (s.tapLoaded c).tapEffect = if s.pins.sysRstN then 0xFF else c := by
    have ir : (s.tapLoaded c).mgt.tapIr = c := rfl
    have pin : (s.tapLoaded c).pins.sysRstN = s.pins.sysRstN := rfl
    simp only [State.tapEffect, ir, pin]
    rw [if_neg (by simp; omega)]
    rcases h with rfl | rfl | rfl <;> cases s.pins.sysRstN <;> rfl
  rw [State.tapLoad_eq]
  dsimp only
  rw [effect]
  cases s.pins.sysRstN
  · rcases h with rfl | rfl | rfl <;> rfl
  · rfl

/-- The oldest record that waits is written; here no sector begins and its program succeeds. -/
theorem State.writeEvent_within {s : State} {r : ErrRec} {rest : List ErrRec} (waits : s.mgt.toLog = r :: rest)
    (within : s.mgt.evSeq % 1024 ≠ 0) :
    s.writeEvent false = ({ s with mgt := { s.mgt with
      toLog := rest, evlog := Table.insert (s.mgt.evSeq % 32768) (some (evEntryBytes s.mgt.evSeq r)) s.mgt.evlog,
      evSeq := (s.mgt.evSeq + 1) % 2 ^ 32 } }).put R.MGT_EVLOG_SEL.NEWEST s.mgt.evSeq := by
  have inside : (s.mgt.evSeq % 32768 % 1024 != 0) = true := by simp; omega
  simp only [State.writeEvent, waits, inside]
  rfl

end Sys2Proof.Machine

open Sys2Proof Sys2Proof.Machine

/-- Settles O8: each code is one case of the TAP's effect; the record is written within its sector; an empty scan notes its time. -/
theorem managementBlock : Obligations.ManagementBlock := by
  refine ⟨fun s => ⟨?_, ?_, ?_, ?_, fun c lo hi => ?_, fun e he => ?_⟩, fun s r rest waits small within => ?_, fun s alive boot => ?_⟩
  · exact completes_become rfl rfl rfl
  · exact completes_become rfl rfl rfl
  · exact completes_become (congrArg s.become (State.tapLoad_bypass (.inl rfl))) rfl rfl
  · exact completes_become (congrArg s.become (State.tapLoad_bypass (.inr (.inl rfl)))) rfl rfl
  · have code : (if 7 ≤ c then c % 256 else 0xFF) = c := by rw [if_pos lo, Nat.mod_eq_of_lt hi]
    refine completes_become (t := (s.tapLoaded c).emit (.tdo 1 0)) ?_ rfl rfl
    rw [← State.tapLoad_bypass (.inr (.inr lo))]
    exact congrArg (fun c => s.become (s.tapLoad c)) code
  · have extest : ∀ (c : Nat) (i : Instr), c = 0 ∨ c = 5 ∨ c = 6 → exec i s = s.become (s.tapLoad c) →
        Completes i s fun t => t = if s.pins.sysRstN then (s.tapLoaded c).emit (.tdo 1 0) else s.tapLoaded c := fun c i hc runs =>
      completes_become (runs.trans (congrArg s.become (State.tapLoad_extest hc))) (by split <;> rfl) rfl
    simp only [List.mem_cons, List.not_mem_nil, or_false] at he
    rcases he with rfl | rfl | rfl
    · exact extest 0 _ (.inl rfl) rfl
    · exact extest 5 _ (.inr (.inl rfl)) rfl
    · exact extest 6 _ (.inr (.inr rfl)) rfl
  · refine completes_become (congrArg s.become (State.writeEvent_within waits within)) rfl ⟨rfl, ?_, rfl, ?_, rfl, rfl⟩
    · exact Table.get_insert_same ..
    · exact State.get_put_fits _ _ (show _ < 2 ^ 32 from small)
  · exact completes_whenAlive (f := fun s => if s.isSet R.GLB_READY.BOOT_OK then s.refreshFlash [] else s) alive rfl (if_pos boot) rfl rfl
end

section
/-!
SUPPORT. SPDM (R550, R551), sessions (R564), the vendor's requests (R552, R607) and IDE (R493).
-/

namespace Sys2Proof.Machine

/-! ### What stands before a request -/

theorem State.agree_of_reached {s : State} {tr after : Nat} (ready : s.spdmReady tr = true) (h : after ≤ Table.get 0 tr s.sec.spdm)
    (a : SpdmAnswer) :
    s.agree tr after a = { s with sec := { s.sec with spdm := Table.set 0 tr (after + 1) s.sec.spdm } }.emit (.spdm tr a) := by
  rw [State.agree, ready, if_neg (by simp), if_neg (by omega)]
  rfl

theorem State.agree_of_early {s : State} {tr after : Nat} (ready : s.spdmReady tr = true) (h : Table.get 0 tr s.sec.spdm < after)
    (a : SpdmAnswer) : s.agree tr after a = s.emit (.spdm tr .error) := by
  rw [State.agree, ready, if_neg (by simp), if_pos h]
  rfl

theorem State.whenAgreed_agreed {s : State} {tr : Nat} {identity : Bool} (f : State → State) (ready : s.spdmReady tr = true)
    (agreed : Table.get 0 tr s.sec.spdm = 3) (keys : identity = true → s.isSet R.SEC_STATUS.IDENTITY_OK = true) :
    s.whenAgreed tr identity f = f s := by
  rw [State.whenAgreed, ready, agreed, if_neg (by simp), if_neg]
  cases identity <;> simp_all

theorem State.withSession_open {s : State} {tr id : Nat} (f : State → State) (ready : s.spdmReady tr = true)
    (h : (tr, id) ∈ s.sec.sessions) : s.withSession tr id f = f s := by
  rw [State.withSession, ready, if_neg (by simp), if_pos (by simpa [State.inSession] using h)]

theorem State.withSession_closed {s : State} {tr id : Nat} (f : State → State) (ready : s.spdmReady tr = true)
    (h : (tr, id) ∉ s.sec.sessions) : s.withSession tr id f = s.emit (.spdm tr .error) := by
  rw [State.withSession, ready, if_neg (by simp), if_neg (by simpa [State.inSession] using h)]
  rfl

/-! ### A request that runs at once -/

/-- The effect of a request that needs what is agreed. -/
theorem completes_agreed {i : Instr} {s t : State} {tr : Nat} {identity : Bool} {P : State → Prop} (f : State → State)
    (alive : s.alive = true) (ready : s.spdmReady tr = true) (agreed : Table.get 0 tr s.sec.spdm = 3)
    (keys : identity = true → s.isSet R.SEC_STATUS.IDENTITY_OK = true)
    (runs : exec i s = s.whenAlive fun s => s.whenAgreed tr identity f) (effect : f s = t) (waiting : t.pending = s.pending)
    (h : P t) : Completes i s P :=
  completes_whenAlive (f := fun s => s.whenAgreed tr identity f) alive runs
    ((State.whenAgreed_agreed f ready agreed keys).trans effect) waiting h

/-- The effect of a request inside an open session. -/
theorem completes_inSession {i : Instr} {s t : State} {tr id : Nat} {P : State → Prop} (f : State → State)
    (alive : s.alive = true) (ready : s.spdmReady tr = true) (inside : (tr, id) ∈ s.sec.sessions)
    (runs : exec i s = s.whenAlive fun s => s.withSession tr id f) (effect : f s = t) (waiting : t.pending = s.pending)
    (h : P t) : Completes i s P :=
  completes_whenAlive (f := fun s => s.withSession tr id f) alive runs
    ((State.withSession_open f ready inside).trans effect) waiting h

/-! ### IDE (R493) -/

/-- While Bus Master Enable is clear nothing that waits goes out. -/
theorem State.reopen_closed {s : State} (h : s.isSet R.CXLU_STATUS.BUS_MASTER = false) : s.reopen = s := by
  simp [State.reopen, State.d2hOpen, h]

theorem State.ideKm_inSession {s : State} {id k : Nat} {go skid : Bool} (ready : s.spdmReady 0 = true)
    (inside : (0, id) ∈ s.sec.sessions) (hk : k ≤ 1) : s.ideKm id k go skid =
      ((if k == 0 then s.putBit R.CXLU_STATUS.IDE_IO go
        else (s.putBit R.CXLU_STATUS.IDE_CM go).putBit R.CXLU_STATUS.SKID (go && skid)).emit (.ideKm true)).reopen := by
  have refused : (!s.inSession 0 id || decide (1 < k)) = false := by simp [State.inSession, inside]; omega
  rw [State.ideKm, ready, refused]
  rfl

theorem State.ideKm_outside {s : State} {id k : Nat} {go skid : Bool} (ready : s.spdmReady 0 = true)
    (outside : (0, id) ∉ s.sec.sessions) : s.ideKm id k go skid = s.emit (.ideKm false) := by
  have refused : (!s.inSession 0 id || decide (1 < k)) = true := by simp [State.inSession, outside]
  rw [State.ideKm, ready, refused]
  rfl

end Sys2Proof.Machine

open Sys2Proof Sys2Proof.Machine

/-- Settles O9: each request stands behind what R550 asks of it, and then is one answer with what it opens or closes. -/
theorem spdm : Obligations.Spdm := by
  refine ⟨fun s tr alive ready e he => ?_, fun s tr alive ready agreed keys => ⟨?_, fun slot c chain => ⟨?_, ?_⟩, fun i b block => ?_⟩,
    fun s tr id alive ready agreed => ⟨fun keys few closed fresh => ?_, fun opening => ?_, fun inside => ⟨?_, ?_, ?_⟩⟩,
    fun s id go skid alive ready idle => ⟨fun inside slave => ?_, fun outside k => ?_⟩⟩
  · have step : ∀ (after : Nat) (i : Instr) (a : SpdmAnswer), exec i s = s.whenAlive (State.agree · tr after a) →
        (after ≤ Table.get 0 tr s.sec.spdm → Completes i s fun t =>
          t = { s with sec := { s.sec with spdm := Table.set 0 tr (after + 1) s.sec.spdm } }.emit (.spdm tr a)) ∧
        (Table.get 0 tr s.sec.spdm < after → Completes i s fun t => t = s.emit (.spdm tr .error)) := fun after i a runs =>
      ⟨fun h => completes_whenAlive alive runs (State.agree_of_reached ready h a) rfl rfl,
        fun h => completes_whenAlive alive runs (State.agree_of_early ready h a) rfl rfl⟩
    simp only [List.mem_cons, List.not_mem_nil, or_false] at he
    rcases he with rfl | rfl | rfl
    · exact step 0 _ _ rfl
    · exact step 1 _ _ rfl
    · exact step 2 _ _ rfl
  · exact completes_agreed (fun s => s.answer tr (.digests ([0, 1].filterMap fun k => (s.chain k).map sha384)))
      alive ready agreed (fun _ => keys) rfl rfl rfl rfl
  · refine completes_whenAlive (f := fun s => s.whenAgreed tr true fun s => match s.chain slot with
      | some c => s.answer tr (.certificate slot c)
      | none => s.answer tr .error) alive rfl (State.whenAgreed_agreed _ ready agreed fun _ => keys) ?_ ?_ <;> rw [chain] <;> rfl
  · have given : (s.chain slot).isNone = false := by rw [chain]; rfl
    refine completes_agreed (fun s => if (s.chain slot).isNone then s.answer tr .error
      else s.sign.1.answer tr (.challengeAuth slot s.sign.2)) alive ready agreed (fun _ => keys) rfl
      (if_neg (ne_true_of_eq_false given)) rfl ⟨_, rfl⟩
  · have mine : (i, b) ∈ s.measurements.filter fun e => (some i).isNone || some i == some e.1 := by
      simp [block]
    have some_block : (s.measurements.filter fun e => (some i).isNone || some i == some e.1).isEmpty = false := by
      rw [List.isEmpty_eq_false_iff]
      exact List.ne_nil_of_mem mine
    let f := fun (signed : Bool) (s : State) =>
      let l := s.measurements.filter fun e => (some i).isNone || some i == some e.1
      if l.isEmpty then s.answer tr .error
      else if signed then s.sign.1.answer tr (.measurements l (some s.sign.2))
      else s.answer tr (.measurements l none)
    have effect : ∀ signed, f signed s = if signed then
        s.sign.1.answer tr (.measurements (s.measurements.filter fun e => (some i).isNone || some i == some e.1) (some s.sign.2))
        else s.answer tr (.measurements (s.measurements.filter fun e => (some i).isNone || some i == some e.1) none) := fun signed =>
      if_neg (ne_true_of_eq_false some_block)
    exact ⟨completes_agreed (f true) alive ready agreed (fun _ => keys) rfl (effect true) rfl ⟨_, _, mine, rfl⟩,
      completes_agreed (f false) alive ready agreed (fun h => absurd h (by simp)) rfl (effect false) rfl ⟨_, mine, rfl⟩⟩
  · have room : (8 ≤ s.sec.sessions.length + s.sec.handshakes.length || s.inSession tr id || s.sec.handshakes.contains (tr, id)) = false := by
      simp [State.inSession, closed, fresh]
      omega
    exact completes_whenAlive (f := (State.keyExchange · tr id)) alive rfl
      ((State.whenAgreed_agreed _ ready agreed fun _ => keys).trans (if_neg (ne_true_of_eq_false room))) rfl ⟨_, rfl⟩
  · have known : (!s.sec.handshakes.contains (tr, id)) = false := by simp [opening]
    refine completes_whenAlive (f := (State.finishSession · tr id true)) alive rfl
      ((State.whenAgreed_agreed (identity := false) _ ready agreed (by simp)).trans (if_neg (ne_true_of_eq_false known))) rfl
      ⟨rfl, rfl, ?_, rfl, rfl⟩
    exact (State.get_put_same _ _ _).trans (by simp)
  · exact completes_inSession (fun s => s.answer tr (.keyUpdated id)) alive ready inside rfl rfl rfl rfl
  · exact completes_inSession (fun s => s.answer tr (.alive id)) alive ready inside rfl rfl rfl rfl
  · exact completes_inSession (fun s => (({ s with sec := { s.sec with
      sessions := s.sec.sessions.erase (tr, id) } }).countSessions).answer tr (.ended id)) alive ready inside rfl rfl rfl ⟨rfl, rfl, rfl⟩
  · constructor
    · have held : ((s.putBit R.CXLU_STATUS.IDE_IO go).emit (.ideKm true)).isSet R.CXLU_STATUS.BUS_MASTER = false :=
        (State.isSet_put_other _ _ (by decide)).trans slave
      have effect := State.ideKm_inSession (k := 0) (go := go) (skid := skid) ready inside (by decide)
      rw [if_pos (by rfl), State.reopen_closed held] at effect
      exact completes_act (f := (State.ideKm · id 0 go skid)) alive rfl effect idle rfl ⟨rfl, State.isSet_putBit (by decide) go⟩
    · have held : (((s.putBit R.CXLU_STATUS.IDE_CM go).putBit R.CXLU_STATUS.SKID (go && skid)).emit (.ideKm true)).isSet
          R.CXLU_STATUS.BUS_MASTER = false :=
        ((State.isSet_put_other _ _ (by decide)).trans (State.isSet_put_other _ _ (by decide))).trans slave
      have effect := State.ideKm_inSession (k := 1) (go := go) (skid := skid) ready inside (by decide)
      rw [if_neg (by simp), State.reopen_closed held] at effect
      exact completes_act (f := (State.ideKm · id 1 go skid)) alive rfl effect idle rfl rfl
  · exact completes_act (f := (State.ideKm · id k go skid)) alive rfl (State.ideKm_outside ready outside) idle rfl rfl

namespace Sys2Proof.Machine

/-! ### Firmware over the mailbox (R543, R544) -/

/-- A request of a mailbox that answers. -/
theorem completes_mail {i : Instr} {s t : State} {P : State → Prop} (f : State → State) (alive : s.alive = true)
    (ready : s.mailReady = true) (runs : exec i s = s.whenAlive fun s => if s.mailReady then f s else s) (effect : f s = t)
    (waiting : t.pending = s.pending) (h : P t) : Completes i s P :=
  completes_whenAlive (f := fun s => if s.mailReady then f s else s) alive runs ((if_pos ready).trans effect) waiting h

/-- A part that begins at offset 0 fits where it is no longer than an image. -/
theorem first_part_fits {data : Bytes} (h : data.length ≤ 8405716) :
    (decide (([] : Bytes).length + data.length ≤ 8405716) && 0 * 128 == ([] : Bytes).length) = true := by
  simpa using h

theorem State.transferFw_first {s : State} {data : Bytes} (h : data.length ≤ 8405716) (fresh : s.sec.transfer = none) (ok : Bool)
    (build : Nat) : s.transferFw .first 1 0 data ok build =
      { s with sec := { s.sec with transfer := some data } }.emit (.mailbox .success) := by
  simp only [State.transferFw, fresh, first_part_fits h]
  rfl

theorem State.transferFw_busy {s : State} {b : Bytes} (h : s.sec.transfer = some b) (data : Bytes) (ok : Bool) (build : Nat) :
    s.transferFw .first 1 0 data ok build = s.emit (.mailbox .busy) := by
  simp only [State.transferFw, h]
  rfl

/-- A whole image that does not verify is refused. -/
theorem State.transferFw_unverified {s : State} {data : Bytes} (h : data.length ≤ 8405716) (fresh : s.sec.transfer = none)
    (build : Nat) : s.transferFw .full 1 0 data false build =
      { s with sec := { s.sec with transfer := none } }.emit (.mailbox .authFailed) := by
  have refused : ∀ floor, objAccepted 1 floor ⟨data, false, build, 0, 0, none⟩ = false := fun floor => by simp [objAccepted]
  simp only [State.transferFw, fresh, first_part_fits h, State.transferEnd, refused]
  rfl

end Sys2Proof.Machine

/-- Settles O10: the requests of a session, and the mailbox's by part and by whether a transfer is under way. -/
theorem firmwareAndKeys : Obligations.FirmwareAndKeys := by
  refine ⟨fun s tr id alive ready => ⟨fun inside => ⟨fun i k key hi hk hkey => ?_, fun o accepted => ?_⟩, fun outside i k key => ?_⟩,
    fun s alive ready => ⟨?_, fun data ok build fits fresh => ?_, fun data ok build b busy => ?_, fun data build fits fresh => ?_, ?_, ?_⟩⟩
  · let kept := { s with sec := { s.sec with keys := Table.insert i (some (k % 2 ^ 32, key % 2 ^ 256)) s.sec.keys } }
    refine completes_inSession (t := kept.answer tr .vendor) (fun s => if 16 ≤ i then s.answer tr .error
      else ({ s with sec := { s.sec with keys := Table.insert i (some (k % 2 ^ 32, key % 2 ^ 256)) s.sec.keys } }).answer tr .vendor)
      alive ready inside rfl (if_neg (by omega)) rfl ⟨?_, fun j hj => ?_, rfl, rfl, rfl⟩
    · refine (Table.get_insert_same ..).trans ?_
      rw [Nat.mod_eq_of_lt hk, Nat.mod_eq_of_lt hkey]
    · exact Table.get_insert_other _ _ _ hj
  · exact completes_inSession (fun s => if objAccepted 3 0 o then ({ s with sec := { s.sec with
      floorSlots := Table.insert s.freeFloorSlot (some o) s.sec.floorSlots } }).answer tr .vendor else s.answer tr .error)
      alive ready inside rfl (if_pos accepted) rfl rfl
  · exact completes_whenAlive (f := (State.setInstanceKey · tr id i k key)) alive rfl (State.withSession_closed _ ready outside) rfl rfl
  · exact completes_mail State.fwInfo alive ready rfl rfl rfl rfl
  · exact completes_mail (State.transferFw · .first 1 0 data ok build) alive ready rfl (State.transferFw_first fits fresh ok build) rfl rfl
  · exact completes_mail (State.transferFw · .first 1 0 data ok build) alive ready rfl (State.transferFw_busy busy data ok build) rfl rfl
  · exact completes_mail (State.transferFw · .full 1 0 data false build) alive ready rfl (State.transferFw_unverified fits fresh build)
      rfl ⟨rfl, rfl, rfl, rfl⟩
  · exact completes_mail (State.activateFw · 1 s.sec.recovery) alive ready rfl (if_neg (by simp)) rfl rfl
  · exact completes_mail (State.activateFw · 1 (!s.sec.recovery)) alive ready rfl (if_pos (by simp)) rfl rfl
end

section
/-!
SUPPORT. Command packets at the lead device (R125 to R133): the packet that each row submits, its ticket from the checks to its final
completion, and what a completion record leaves alone.
-/

namespace Sys2Proof.Machine

/-! ### Rows (R127) -/

/-- The packet that a row takes, with what the read of its in payload answered and its image. -/
def Instr.submits : Instr → Option (Packet × Option Bytes × Option ModelImage)
  | .identify p => some (p.op 0x00, none, none)
  | .geometryGet p => some (p.op 0x01, none, none)
  | .cfgStage p pay => some ((p.op 0x02).with_ 5 false, pay, none)
  | .cfgStageDiscard p => some ((p.op 0x02).with_ 5 true, none, none)
  | .cfgCommit p => some ((p.op 0x03).with_ 4 false, none, none)
  | .cfgCommitCluster p => some ((p.op 0x03).with_ 4 true, none, none)
  | .cfgDigest p => some (p.op 0x04, none, none)
  | .clusterForm p pay => some (p.op 0x05, pay, none)
  | .fence p => some (p.op 0x06, none, none)
  | .rejoin p => some ((p.op 0x07).with_ 5 false, none, none)
  | .rejoinEngine p => some ((p.op 0x07).with_ 5 true, none, none)
  | .resetPartition p => some (p.op 0x08, none, none)
  | .meridianSet p => some (p.op 0x10, none, none)
  | .furrowPlanLoad p pay => some (p.op 0x11, pay, none)
  | .furrowStart p => some (p.op 0x12, none, none)
  | .furrowStop p => some (p.op 0x13, none, none)
  | .modelLoad p img => some (p.op 0x20, none, some img)
  | .modelUnload p => some (p.op 0x21, none, none)
  | .planLoad p => some (p.op 0x22, none, none)
  | .adapterLoad p => some (p.op 0x23, none, none)
  | .adapterRetire p => some (p.op 0x24, none, none)
  | .prefixCreate p => some (p.op 0x30, none, none)
  | .prefixRelease p => some (p.op 0x31, none, none)
  | .kvImport p => some (p.op 0x32, none, none)
  | .kvExport p => some (p.op 0x33, none, none)
  | .seqOpen p => some (p.op 0x40, none, none)
  | .seqAppend p pay => some (p.op 0x41, pay, none)
  | .seqGenerate p pay => some (p.op 0x42, pay, none)
  | .seqCancel p => some (p.op 0x43, none, none)
  | .seqClose p => some (p.op 0x44, none, none)
  | .tenantSet p => some (p.op 0x50, none, none)
  | .hintPacket p => some (p.op 0x51, none, none)
  | .powerCapSet p => some (p.op 0x60, none, none)
  | .telemetryRead p => some (p.op 0x61, none, none)
  | .energyRead p => some (p.op 0x62, none, none)
  | .seqRead p => some ((p.op 0x70).pattern 1, none, none)
  | .random2kRead p => some ((p.op 0x70).pattern 2, none, none)
  | .random64Read p => some ((p.op 0x70).pattern 3, none, none)
  | .seqWriteCheck p => some ((p.op 0x70).pattern 4, none, none)
  | .mixedCheck p => some ((p.op 0x70).pattern 5, none, none)
  | .nbuRead p => some ((p.op 0x70).pattern 6, none, none)
  | .retrain p => some ((p.op 0x70).pattern 7, none, none)
  | .prbs31q p => some ((p.op 0x71).pattern 1, none, none)
  | .prbs13q p => some ((p.op 0x71).pattern 2, none, none)
  | .ssprq p => some ((p.op 0x71).pattern 3, none, none)
  | .frameLoop p => some ((p.op 0x71).pattern 4, none, none)
  | .linkTestRetrain p => some ((p.op 0x71).pattern 5, none, none)
  | .selftest p => some (p.op 0x72, none, none)  | _ => none

/-- A row that takes a packet submits it. -/
theorem exec_of_submits {i : Instr} {q : Packet} {pay : Option Bytes} {img : Option ModelImage}
    (h : Instr.submits i = some (q, pay, img)) (s : State) : exec i s = s.act fun s => s.submit q pay img := by
  cases i <;> simp only [Instr.submits, Option.some.injEq, Prod.mk.injEq, reduceCtorEq] at h <;>
    obtain ⟨rfl, rfl, rfl⟩ := h <;> rfl

/-! ### Completion records (R118, R133) -/

/-- A field that the writing of completion records cannot reach, whatever the ring's number. -/
def Field.notPosted (f : Field) : Prop := f.lo < 64 ∧ (f.lo ≠ 16 ∨ (f.addr % 0x20 ≠ 0x18 ∧ f.addr ≠ 0x10030))

/-- From `s` to `t` completion records have been written or held: rings, what has gone out, what waits at the upstream port and the
rings' registers may differ, nothing else; no ticket has come or gone. -/
structure State.Posts (s t : State) : Prop where
  eq : t = { s with regs := t.regs, out := t.out, que := t.que, cxl := t.cxl }
  get : ∀ f, f.notPosted → t.get f = s.get f
  tickets : t.que.tickets = s.que.tickets

namespace State.Posts

theorem refl (s : State) : s.Posts s := ⟨rfl, fun _ _ => rfl, rfl⟩

theorem trans {a b c : State} (h : a.Posts b) (k : b.Posts c) : a.Posts c where
  eq := by rw [k.eq, h.eq]
  get f hf := (k.get f hf).trans (h.get f hf)
  tickets := k.tickets.trans h.tickets

theorem put {s : State} {f : Field} (v : Nat) (h : ∀ g : Field, g.notPosted → g.key ≠ f.key) : s.Posts (s.put f v) :=
  ⟨rfl, fun g hg => State.get_put_other s v (h g hg), rfl⟩

theorem emit (s : State) (o : Output) : s.Posts (s.emit o) := ⟨rfl, fun _ _ => rfl, rfl⟩

/-- The rings may go on as long as no ticket comes or goes. -/
theorem rings (s : State) {q : Que} (h : q.tickets = s.que.tickets := by rfl) : s.Posts { s with que := q } := ⟨rfl, fun _ _ => rfl, h⟩

theorem recordWritten (s : State) (v : Nat) : s.Posts (s.recordWritten v) := ⟨rfl, fun _ _ => rfl, rfl⟩

theorem ite {s t u : State} {c : Prop} [Decidable c] (h : s.Posts t) (k : s.Posts u) : s.Posts (if c then t else u) := by
  split
  · exact h
  · exact k

theorem writeCq (s : State) (i : Nat) (c : Completion) : s.Posts (s.writeCq i c) := by
  have index : ∀ g : Field, g.notPosted → g.key ≠ (R.QUE_CQ_CTRL.INDEX i).key := by
    intro g ⟨lo, h⟩
    simp only [Field.key, R.QUE_CQ_CTRL.INDEX]
    omega
  unfold State.writeCq
  extract_lets tail pass bytes next sent indexed _ moved _ onward
  have hsent : s.Posts sent := emit s _
  have hmoved : s.Posts moved := (hsent.trans (put next index)).trans (rings _)
  have honward : s.Posts onward := ite (hmoved.trans (rings _)) hmoved
  exact ite (honward.trans (recordWritten _ _)) honward

theorem drainCqN (s : State) (i n : Nat) : s.Posts (s.drainCqN i n) := by
  induction n generalizing s with
  | zero => exact refl s
  | succ n ih =>
    unfold State.drainCqN
    split
    · exact refl s
    · split
      · exact (rings s).trans ((writeCq _ i _).trans (ih _))
      · exact refl s

theorem noteHold (s : State) (i : Nat) : s.Posts (s.noteHold i) := by
  unfold State.noteHold
  dsimp only
  split
  · refine (put _ ?_).trans (rings _)
    intro g ⟨lo, h⟩
    simp only [Field.key, R.QUE_RING_ERRORS.CQ_FULL_STALLS]
    omega
  · exact refl s

theorem postCq (s : State) (i : Nat) (c : Completion) : s.Posts (s.postCq i c) := by
  unfold State.postCq State.drainCq
  exact ((rings s).trans (drainCqN _ i _)).trans (noteHold _ i)

theorem completed (s : State) (p : Packet) (a : Answer) : s.Posts (s.completed p a) := postCq s _ _

theorem pending {s t : State} (h : s.Posts t) : t.pending = s.pending := (congrArg State.pending h.eq :)
theorem mem {s t : State} (h : s.Posts t) : t.mem = s.mem := (congrArg State.mem h.eq :)
theorem frw {s t : State} (h : s.Posts t) : t.frw = s.frw := (congrArg State.frw h.eq :)
theorem cfg {s t : State} (h : s.Posts t) : t.cfg = s.cfg := (congrArg State.cfg h.eq :)
theorem srv {s t : State} (h : s.Posts t) : t.srv = s.srv := (congrArg State.srv h.eq :)
theorem flt {s t : State} (h : s.Posts t) : t.flt = s.flt := (congrArg State.flt h.eq :)
theorem links {s t : State} (h : s.Posts t) : t.links = s.links := (congrArg State.links h.eq :)
theorem tiles {s t : State} (h : s.Posts t) : t.tiles = s.tiles := (congrArg State.tiles h.eq :)
theorem stk {s t : State} (h : s.Posts t) : t.stk = s.stk := (congrArg State.stk h.eq :)
theorem pwr {s t : State} (h : s.Posts t) : t.pwr = s.pwr := (congrArg State.pwr h.eq :)
theorem mrd {s t : State} (h : s.Posts t) : t.mrd = s.mrd := (congrArg State.mrd h.eq :)

theorem isSet {s t : State} (h : s.Posts t) {f : Field} (hf : f.notPosted) : t.isSet f = s.isSet f := by
  rw [State.isSet, h.get f hf, State.isSet]

end State.Posts

/-! ### A packet's ticket -/

/-- The state with these packets open. -/
def State.withTickets (s : State) (l : List Ticket) : State := { s with que := { s.que with tickets := l } }

@[simp] theorem State.withTickets_tickets (s : State) (l : List Ticket) : (s.withTickets l).que.tickets = l := rfl
@[simp] theorem State.withTickets_withTickets (s : State) (l k : List Ticket) : (s.withTickets l).withTickets k = s.withTickets k := rfl
@[simp] theorem State.withTickets_get (s : State) (l : List Ticket) (f : Field) : (s.withTickets l).get f = s.get f := rfl
@[simp] theorem State.withTickets_pending (s : State) (l : List Ticket) : (s.withTickets l).pending = s.pending := rfl

theorem State.withTickets_self {s : State} {l : List Ticket} (h : s.que.tickets = l) : s.withTickets l = s := by
  subst h
  rfl

theorem State.holding_eq (s : State) (t : Ticket) : s.holding t = s.counted.withTickets [t] := rfl

/-- One more packet taken, and none open. -/
theorem State.counted_withTickets {s : State} (h : s.que.tickets = []) : s.counted.withTickets [] = s.counted :=
  State.withTickets_self (s := s.counted) h

/-- The only ticket of a state is found by its number. -/
theorem State.ticket?_only {s : State} {t : Ticket} (h : s.que.tickets = [t]) : s.ticket? t.no = some t := by
  simp [State.ticket?, h]

/-- The final completion of the only packet open. -/
theorem State.finish_last {s : State} {t : Ticket} (a : Answer) (h : s.que.tickets = [t]) (o : t.origin = .host t.packet.ring) :
    s.finish t.no a = (s.withTickets []).completed t.packet a := State.finish_only a h o

theorem State.mapTicket_only {s : State} {t : Ticket} (f : Ticket → Ticket) (h : s.que.tickets = [t]) :
    s.mapTicket t.no f = s.withTickets [f t] := by
  simp [State.mapTicket, State.withTickets, h]

theorem State.d2h_withTickets (s : State) (l : List Ticket) (o : Output) : (s.withTickets l).d2h o = (s.d2h o).withTickets l := by
  unfold State.d2h
  have same : (s.withTickets l).d2hOpen = s.d2hOpen := rfl
  rw [same]
  split <;> rfl

theorem State.outPayload_withTickets (s : State) (l : List Ticket) (p : Packet) (b : Bytes) :
    (s.withTickets l).outPayload p b = (s.outPayload p b).withTickets l := s.d2h_withTickets l _

/-- An out payload is one message to the host, sent or held. -/
theorem State.d2h_que (s : State) (o : Output) : (s.d2h o).que = s.que := by
  unfold State.d2h
  split <;> rfl

/-! ### What follows a command for the packet open (R128, R132) -/

theorem State.settleN_none {s : State} (h : s.que.tickets = []) (n : Nat) : s.settleN n = s := by
  induction n with
  | zero => rfl
  | succ n ih => simp [State.settleN, h, ih]

/-- The only packet open goes on and gets its final completion. -/
theorem State.settle_last {s u : State} {t : Ticket} (h : s.que.tickets = [t]) (goes : s.proceed t.no = u) (done : u.que.tickets = []) :
    s.settle = u := by
  simp only [State.settle, h, List.length_cons, List.length_nil, State.settleN, List.map_cons, List.map_nil, List.foldl_cons,
    List.foldl_nil, goes, done]

/-- Rounds in which nothing goes on. -/
theorem State.settleN_stays {s : State} (h : ∀ t ∈ s.que.tickets, s.proceed t.no = s) (n : Nat) : s.settleN n = s := by
  have round : (s.que.tickets.map Ticket.no).foldl (fun (s : State) no => s.proceed no) s = s := by
    have key : ∀ l : List Ticket, (∀ t ∈ l, s.proceed t.no = s) → (l.map Ticket.no).foldl (fun (s : State) no => s.proceed no) s = s := by
      intro l
      induction l with
      | nil => exact fun _ => rfl
      | cons t l ih => exact fun k => by rw [List.map_cons, List.foldl_cons, k t (by simp), ih fun u hu => k u (by simp [hu])]
    exact key _ h
  induction n with
  | zero => rfl
  | succ n ih => rw [State.settleN, round, ih]

/-- The only packet open waits on. -/
theorem State.settle_waits {s : State} {t : Ticket} (h : s.que.tickets = [t]) (waits : s.proceed t.no = s) : s.settle = s :=
  State.settleN_stays (by simpa [h] using waits) _

/-- A packet that waits for nothing of its own stays open until another event. -/
theorem State.proceed_idle {s : State} {t : Ticket} (h : s.ticket? t.no = some t) (barrier : t.barrier = false) (fence : t.fence = none)
    (answers : t.awaiting ≠ [] ∨ t.answers = []) : s.proceed t.no = s := by
  have notAll : (t.awaiting.isEmpty && !t.answers.isEmpty) = false := by
    rcases answers with h | h <;> simp [h]
  simp only [State.proceed, h, barrier, fence, notAll]
  rfl

/-- A packet that every device has answered concludes. -/
theorem State.proceed_concludes {s : State} {t : Ticket} (h : s.ticket? t.no = some t) (barrier : t.barrier = false)
    (all : t.awaiting = []) (answers : t.answers ≠ []) : s.proceed t.no = s.conclude t := by
  have answered : (t.awaiting.isEmpty && !t.answers.isEmpty) = true := by simp [all, answers]
  simp only [State.proceed, h, barrier, answered]
  rfl

/-! ### A packet that the lead takes -/

/-- A packet whose in payload has been read runs with its ticket the only one. -/
theorem State.submit_paid {s : State} {q : Packet} {b : Bytes} {img : Option ModelImage} (takes : s.takes q)
    (paid : readsPayload s q = true) :
    s.submit q (some b) img
      = (s.holding (s.nextTicket q (some (fit q.payloadLen b)) img)).runHost (s.nextTicket q (some (fit q.payloadLen b)) img) := by
  have reads : readsPayload (s.holding (s.nextTicket q none img)) q = true := paid
  have kept : (s.holding (s.nextTicket q none img)).mapTicket s.que.nextNo
      (fun t => { t with payload := some (fit t.packet.payloadLen b) }) = s.holding (s.nextTicket q (some (fit q.payloadLen b)) img) :=
    State.mapTicket_only (t := s.nextTicket q none img) _ rfl
  simp only [State.submit, takes.2.1, State.takeIn_holding img takes, reads, State.payloadIn, kept]
  exact State.launch_holding s (s.nextTicket q (some (fit q.payloadLen b)) img)

/-- The lead takes a packet that runs at once: what it does, what follows, and nothing else. -/
theorem completes_submit {i : Instr} {s t : State} {T : Ticket} {q : Packet} {img : Option ModelImage} {pay : Option Bytes}
    {P : State → Prop} (takes : s.takes q) (row : Instr.submits i = some (q, pay, img))
    (enters : s.submit q pay img = (s.holding T).runHost T) (effect : ((s.holding T).runHost T).settle = t)
    (waiting : t.pending = s.pending) (h : P t) : Completes i s P := by
  have alive := takes.1
  refine ⟨t, (exec_of_submits row s).trans ?_, h⟩
  rw [State.act, State.whenAlive_eq _ alive, enters, effect, ← waiting]

/-- A packet that gets its final completion at once. -/
theorem completes_submit_done {i : Instr} {s u : State} {T : Ticket} {q : Packet} {a : Answer} {img : Option ModelImage}
    {pay : Option Bytes} {P : State → Prop} (takes : s.takes q) (row : Instr.submits i = some (q, pay, img))
    (enters : s.submit q pay img = (s.holding T).runHost T) (runs : (s.holding T).runHost T = u.completed q a)
    (none_open : u.que.tickets = []) (waiting : u.pending = s.pending) (h : P (u.completed q a)) : Completes i s P :=
  completes_submit takes row enters
    ((congrArg State.settle runs).trans (State.settle_idle ((State.completed_tickets u q a).trans none_open)))
    ((State.completed_pending u q a).trans waiting) h

/-- A packet that is accepted and stays open. -/
theorem completes_submit_open {i : Instr} {s u : State} {T t : Ticket} {q : Packet} {img : Option ModelImage} {pay : Option Bytes}
    {P : State → Prop} (takes : s.takes q) (row : Instr.submits i = some (q, pay, img))
    (enters : s.submit q pay img = (s.holding T).runHost T) (runs : (s.holding T).runHost T = u) (still_open : u.que.tickets = [t])
    (barrier : t.barrier = false) (fence : t.fence = none) (answers : t.awaiting ≠ [] ∨ t.answers = [])
    (waiting : u.pending = s.pending) (h : P u) : Completes i s P :=
  completes_submit takes row enters
    ((congrArg State.settle runs).trans (State.settle_waits still_open
      (State.proceed_idle (State.ticket?_only still_open) barrier fence answers))) waiting h

/-! ### The checks common to every packet (R128) -/

/-- A packet that fails a check is completed with its status, and is gone. -/
theorem State.submit_refused {s : State} {q : Packet} {st : Status} {k : Nat} (lead : s.isLead = true) (idle : s.que.tickets = [])
    (check : commonCheck s q = some (st, k)) (pay : Option Bytes) (img : Option ModelImage) :
    s.submit q pay img = s.counted.completed q { status := st, detail := k } := by
  let t := s.nextTicket q none img
  have opened : s.openTicket (.host q.ring) q none img = (s.holding t, t.no) := by
    simp [State.openTicket, State.holding, State.counted, idle, t, State.nextTicket]
  have finished : (s.holding t).finishWith t.no st k = s.counted.completed q { status := st, detail := k } := by
    rw [State.finishWith, State.finish_last _ rfl rfl, State.holding_eq, State.withTickets_withTickets, State.counted_withTickets idle]
    rfl
  have taken : s.takeIn q img = (s.counted.completed q { status := st, detail := k }, t.no, false) := by
    simp only [State.takeIn, opened, commonCheck_holding, check, finished]
  simp only [State.submit, lead, taken]
  rfl

theorem completes_refused {i : Instr} {s : State} {q : Packet} {pay : Option Bytes} {img : Option ModelImage} {st : Status} {k : Nat}
    (row : Instr.submits i = some (q, pay, img)) (alive : s.alive = true) (lead : s.isLead = true) (idle : s.que.tickets = [])
    (check : commonCheck s q = some (st, k)) : Completes i s fun t => t = s.counted.completed q { status := st, detail := k } :=
  completes_act (f := (State.submit · q pay img)) alive (exec_of_submits row s) (State.submit_refused lead idle check pay img)
    ((State.completed_tickets _ _ _).trans idle) (State.completed_pending _ _ _) rfl

end Sys2Proof.Machine

open Sys2Proof Sys2Proof.Machine

/-- Settles O12: every row submits the packet of its opcode, and a packet that fails a check is completed before it acts. -/
theorem commonChecks : Obligations.CommonChecks := by
  intro s p q img pay st k alive lead idle check c hc hq
  subst hq
  simp only [List.mem_cons, List.not_mem_nil, or_false] at hc
  rcases hc with rfl | rfl | rfl | rfl | rfl | rfl | rfl | rfl | rfl | rfl | rfl | rfl | rfl | rfl | rfl | rfl | rfl | rfl | rfl | rfl | rfl | rfl | rfl | rfl | rfl | rfl | rfl | rfl | rfl | rfl | rfl | rfl | rfl | rfl | rfl | rfl | rfl | rfl | rfl | rfl | rfl | rfl | rfl | rfl | rfl | rfl | rfl | rfl
  all_goals exact completes_refused rfl alive lead idle check
end

section
/-!
SUPPORT. The packets that the lead answers at once (R129, R132, R137, R144, R146, R158, R519, R529, R549).
-/

namespace Sys2Proof.Machine

/-- The final completion of the only packet open, in terms of the state without it. -/
theorem State.finish_open {u : State} {t : Ticket} (a : Answer) (none_open : u.que.tickets = []) (o : t.origin = .host t.packet.ring) :
    (u.withTickets [t]).finish t.no a = u.completed t.packet a := by
  rw [State.finish_last a rfl o, State.withTickets_withTickets, State.withTickets_self none_open]

theorem State.finish_holding {s : State} (q : Packet) (pay : Option Bytes) (img : Option ModelImage) (a : Answer)
    (idle : s.que.tickets = []) : (s.holding (s.nextTicket q pay img)).finish s.que.nextNo a = s.counted.completed q a :=
  State.finish_open (u := s.counted) (t := s.nextTicket q pay img) a idle rfl

/-- An out payload and the final completion of the only packet open. -/
theorem State.outPayload_finish {s : State} (q : Packet) (img : Option ModelImage) (b : Bytes) (a : Answer) (idle : s.que.tickets = []) :
    ((s.holding (s.nextTicket q none img)).outPayload q b).finish s.que.nextNo a = (s.counted.outPayload q b).completed q a := by
  rw [State.holding_eq, State.outPayload_withTickets]
  refine State.finish_open (t := s.nextTicket q none img) a ?_ rfl
  rw [State.outPayload, State.d2h_que]
  exact idle

theorem State.outPayload_tickets (s : State) (q : Packet) (b : Bytes) : (s.outPayload q b).que.tickets = s.que.tickets :=
  congrArg Que.tickets (s.d2h_que _)

theorem State.outPayload_pending (s : State) (q : Packet) (b : Bytes) : (s.outPayload q b).pending = s.pending := by
  unfold State.outPayload State.d2h
  split <;> rfl

/-- A packet that is answered with bytes for the host. -/
theorem completes_submit_bytes {i : Instr} {s : State} {q : Packet} {a : Answer} {b : Bytes} {img : Option ModelImage}
    {pay : Option Bytes} (takes : s.takes q) (row : Instr.submits i = some (q, pay, img)) (unpaid : readsPayload s q = false)
    (runs : (s.holding (s.nextTicket q none img)).runHost (s.nextTicket q none img)
      = ((s.holding (s.nextTicket q none img)).outPayload q b).finish s.que.nextNo a) :
    Completes i s fun t => t = (s.counted.outPayload q b).completed q a :=
  completes_submit_done takes row (State.submit_holding takes unpaid) (runs.trans (State.outPayload_finish q img b a takes.2.2.1))
    ((State.outPayload_tickets _ q b).trans takes.2.2.1) (State.outPayload_pending _ q b) rfl

/-- A packet that is answered and has no other effect. -/
theorem completes_submit_answer {i : Instr} {s : State} {q : Packet} {a : Answer} {img : Option ModelImage} {pay : Option Bytes}
    (takes : s.takes q) (row : Instr.submits i = some (q, pay, img)) (unpaid : readsPayload s q = false)
    (runs : (s.holding (s.nextTicket q none img)).runHost (s.nextTicket q none img)
      = (s.holding (s.nextTicket q none img)).finish s.que.nextNo a) :
    Completes i s fun t => t = s.counted.completed q a :=
  completes_submit_done takes row (State.submit_holding takes unpaid) (runs.trans (State.finish_holding q none img a takes.2.2.1)) takes.2.2.1 rfl rfl

/-- A device in no cluster has no other members. -/
theorem State.others_alone {s : State} (alone : s.alone) : s.others = [] := by
  simp [State.others, State.members, alone]

/-- A hint to a device in no cluster. -/
theorem State.hintDevice_withTickets (s : State) (l : List Ticket) (h : PowerHint) :
    (s.withTickets l).hintDevice h = (s.hintDevice h).withTickets l := rfl

theorem State.runHost_hint {s : State} {p : Packet} (alone : s.alone) (idle : s.que.tickets = []) (h : s.now ≤ p.p0) :
    (s.holding (s.nextTicket (p.op 0x51) none none)).runHost (s.nextTicket (p.op 0x51) none none)
      = (s.counted.hintDevice ⟨p.p0, p.p0 + p.p1, p.p2⟩).completed (p.op 0x51) { status := .ok } := by
  let t := s.nextTicket (p.op 0x51) none none
  let u := (s.counted.hintDevice ⟨p.p0, p.p0 + p.p1, p.p2⟩).withTickets [t]
  have inTime : ¬ p.p0 < (s.holding t).now := not_lt.2 h
  have noOther : u.others = [] := State.others_alone (s := u) alone
  calc (s.holding t).runHost t = (s.holding t).hintLead t := rfl
    _ = (u.sendAll u.others (.fwdCmd t.packet none none)).finishWith t.no .ok := if_neg inTime
    _ = u.finish t.no { status := .ok } := by rw [noOther]; rfl
    _ = _ := State.finish_open _ idle rfl

/-- A telemetry set of this device. -/
theorem State.runHost_telemetry {s : State} {p : Packet} (me : bits p.p0 0 6 = s.self) :
    (s.holding (s.nextTicket (p.op 0x61) none none)).runHost (s.nextTicket (p.op 0x61) none none)
      = ((s.holding (s.nextTicket (p.op 0x61) none none)).outPayload (p.op 0x61) (s.telemetry p.p1)).finish s.que.nextNo
          { status := .ok, result0 := (s.telemetry p.p1).length } := by
  let t := s.nextTicket (p.op 0x61) none none
  calc (s.holding t).runHost t = (s.holding t).telemetryHere t.no (p.op 0x61) := if_pos (beq_iff_eq.2 me)
    _ = _ := by
      rw [State.telemetryHere, State.replyData, State.holding_ticket]
      rfl

/-- A FENCE waits for the packets taken before it. -/
theorem State.runHost_fence (s : State) (p : Packet) :
    (s.holding (s.nextTicket (p.op 0x06) none none)).runHost (s.nextTicket (p.op 0x06) none none)
      = s.counted.withTickets [{ s.nextTicket (p.op 0x06) none none with fence := some [] }] := by
  let t := s.nextTicket (p.op 0x06) none none
  have first : (s.holding t).earlier t t.packet.f4 = [] := by
    simp [State.earlier, State.holding]
  calc (s.holding t).runHost t = (s.holding t).fence t := rfl
    _ = _ := by
      rw [State.fence, first, State.mapTicket_only (t := t) _ rfl]
      rfl

/-- A FENCE with no packet before it is completed. -/
theorem State.proceed_fence {s u : State} {t : Ticket} (only : s.que.tickets = [t]) (barrier : t.barrier = false)
    (fresh : t.answers = []) (fence : t.fence = some []) (done : s.finish t.no { status := .ok } = u) : s.proceed t.no = u := by
  have notAll : (t.awaiting.isEmpty && !t.answers.isEmpty) = false := by simp [fresh]
  simp only [State.proceed, State.ticket?_only only, barrier, notAll, fence]
  exact done

theorem State.settleLevels_tickets (s : State) : s.settleLevels.que.tickets = s.que.tickets := by
  rw [State.settleLevels_que]

/-- The part of the device itself in a command of several devices. -/
theorem State.reply_self {s : State} {t : Ticket} (a : Answer) (only : s.que.tickets = [t]) (waits : t.awaiting = [(s.self, 0)]) :
    s.reply t.no a = s.withTickets [{ t with
      awaiting := [], answers := t.answers ++ [⟨s.self, a.status, a.detail, a.result0, a.result1, a.data⟩] }] := by
  have mine : (t.awaiting.any fun w => w.1 == s.self) = true := by simp [waits]
  rw [State.reply, State.ticket?_only only]
  simp only [mine, if_true]
  rw [State.addReply, State.mapTicket_only _ only, waits]
  simp

theorem State.self_settleLevels (s : State) : s.settleLevels.self = s.self := by
  rw [State.self, State.settleLevels_get _ (by decide), State.settleLevels_get _ (by decide), State.self]

theorem State.self_put (s : State) {f : Field} (v : Nat) (group : R.GLB_DEVPOS.GROUP.key ≠ f.key)
    (position : R.GLB_DEVPOS.POSITION.key ≠ f.key) : (s.put f v).self = s.self := by
  rw [State.self, State.get_put_other _ _ group, State.get_put_other _ _ position, State.self]

/-- This device's part of a cap for several devices. -/
theorem State.capHere_self {s : State} {t : Ticket} {p : Packet} (only : s.que.tickets = [t]) (waits : t.awaiting = [(s.self, 0)])
    (unanswered : t.answers = []) :
    s.capHere t.no p = ((s.put R.PWR_CTRL.CAP_W p.p0).settleLevels).withTickets
      [{ t with awaiting := [], answers := [⟨s.self, .ok, 0, 0, 0, []⟩] }] := by
  obtain ⟨u, capped, tickets, me⟩ : ∃ u : State, u = (s.put R.PWR_CTRL.CAP_W p.p0).settleLevels ∧ u.que.tickets = s.que.tickets ∧
      u.self = s.self := ⟨_, rfl, State.settleLevels_tickets _, (State.self_settleLevels _).trans (State.self_put s _ (by decide) (by decide))⟩
  rw [State.capHere, State.replyWith, ← capped, State.reply_self _ (tickets.trans only) (by rw [me, waits]), unanswered, me]
  rfl

/-- The cap of this device alone is taken at once, and its part of the packet is answered. -/
theorem State.capLead_self {s : State} {t : Ticket} (only : s.que.tickets = [t]) (fresh : t.awaiting = []) (unanswered : t.answers = [])
    (me : bitList 64 t.packet.p1 = [s.self]) :
    s.capLead t = ((s.withTickets [{ t with awaiting := [(s.self, 0)] }]).put R.PWR_CTRL.CAP_W t.packet.p0).settleLevels.withTickets
      [{ t with awaiting := [], answers := [⟨s.self, .ok, 0, 0, 0, []⟩] }] := by
  have waiting : s.awaitSelf t.no = s.withTickets [{ t with awaiting := [(s.self, 0)] }] := by
    rw [State.awaitSelf, State.mapTicket_only _ only, fresh]
    rfl
  have here : s.capLead t = (s.awaitSelf t.no).capHere t.no t.packet := by
    simp only [State.capLead, me, State.forwardTo, State.forwardEach]
    simp [waiting, State.self]
  rw [here, waiting]
  exact State.capHere_self (t := { t with awaiting := [(s.self, 0)] }) rfl rfl unanswered

/-- A cap that every device named has taken completes its packet. -/
theorem State.conclude_cap {s : State} {t : Ticket} {r : Reply} (op : t.packet.opcode = 0x60) (answers : t.answers = [r])
    (ok : r.status = .ok) : s.conclude t = s.finish t.no { status := .ok } := by
  simp [State.conclude, op, answers, refusal, ok, lowest]

/-- The only packet open has all its answers: it concludes. -/
theorem State.settle_concludes {u : State} {t : Ticket} {a : Answer} (o : t.origin = .host t.packet.ring) (barrier : t.barrier = false)
    (all : t.awaiting = []) (answers : t.answers ≠ []) (concludes : ∀ s : State, s.conclude t = s.finish t.no a) :
    (u.withTickets [t]).settle = (u.withTickets []).completed t.packet a := by
  refine State.settle_last rfl ?_ (State.completed_tickets _ _ _)
  rw [State.proceed_concludes (State.ticket?_only rfl) barrier all answers, concludes, State.finish_last a rfl o]
  rfl

theorem completes_cap {s : State} {p : Packet} (takes : s.takes (p.op 0x60)) (me : bitList 64 p.p1 = [s.self]) :
    Completes (.powerCapSet p) s fun t => t.get R.PWR_CTRL.CAP_W = p.p0 % 65536 ∧ t.que.tickets = [] ∧ t.mem = s.mem := by
  let t := s.nextTicket (p.op 0x60) none none
  let t' := { t with answers := [⟨s.self, .ok, 0, 0, 0, []⟩] }
  obtain ⟨u, runs, cap, mem, pending⟩ : ∃ u : State, (s.holding t).runHost t = u.withTickets [t'] ∧
      u.get R.PWR_CTRL.CAP_W = p.p0 % 65536 ∧ u.mem = s.mem ∧ u.pending = s.pending :=
    ⟨_, State.capLead_self (s := s.holding t) rfl rfl rfl me, (State.settleLevels_get _ (by decide)).trans (State.get_put_same _ _ _),
      State.settleLevels_mem _, State.settleLevels_pending _⟩
  have settled := State.settle_concludes (u := u) (t := t') rfl rfl rfl (List.cons_ne_nil _ _)
    fun w => State.conclude_cap (s := w) rfl rfl rfl
  have posts := State.Posts.completed (u.withTickets []) (p.op 0x60) { status := .ok }
  refine completes_submit takes rfl (State.submit_holding takes rfl) ((congrArg State.settle runs).trans settled) (posts.pending.trans pending)
    ⟨?_, posts.tickets, posts.mem.trans mem⟩
  exact (posts.get _ ⟨by decide, .inr (by decide)⟩).trans cap

end Sys2Proof.Machine

open Sys2Proof Sys2Proof.Machine

/-- Settles O13: each packet's branch of the lead, and its final completion. -/
theorem immediatePackets : Obligations.ImmediatePackets := by
  intro s p alone
  refine ⟨fun h => ?_, fun h => ?_, fun h me => ?_, fun h => ?_, fun h now => ?_, fun h late => ?_, fun h me => ?_, fun h me => ?_,
    fun h me => ?_⟩
  · exact completes_submit_bytes h rfl rfl rfl
  · exact completes_submit_bytes h rfl rfl rfl
  · exact completes_submit_answer h rfl rfl (if_pos (beq_iff_eq.2 me))
  · refine completes_submit (t := s.counted.completed (p.op 0x06) { status := .ok }) h rfl
      (State.submit_holding h rfl) ?_ (State.completed_pending _ _ _) rfl
    rw [State.runHost_fence]
    refine State.settle_last rfl (State.proceed_fence rfl rfl rfl rfl ?_) ((State.completed_tickets _ _ _).trans h.2.2.1)
    exact State.finish_open _ h.2.2.1 rfl
  · exact completes_submit_done h rfl (State.submit_holding h rfl) (State.runHost_hint alone h.2.2.1 now) h.2.2.1 rfl rfl
  · exact completes_submit_answer h rfl rfl (if_pos late)
  · exact completes_cap h me
  · exact completes_submit_bytes h rfl rfl (State.runHost_telemetry me)
  · exact completes_submit_answer h rfl rfl (if_pos (beq_iff_eq.2 me))
end

section
/-!
SUPPORT. Packets that wait for a headland (R81, R130, R144, R348).
-/

namespace Sys2Proof.Machine

/-- Messages to several devices are only sent. -/
theorem State.sendAll_onlySends (s : State) (l : List Nat) (b : CtrlBody) : s.onlySends (s.sendAll l b) :=
  List.foldlRecOn (motive := s.onlySends) _ _ (.refl s) fun _ h _ _ => h.trans (State.sendCtrl_onlySends _ _ _)

theorem State.onlySends.srv {s t : State} (h : s.onlySends t) : t.srv = s.srv := (congrArg State.srv h :)

/-- Telling the members ahead marks the ticket and sends, nothing else. -/
theorem State.tellEnding_cases (s : State) (t : Ticket) :
    s.tellEnding t = s ∨ s.inSchedule = true ∧ (s.mapTicket t.no fun t => { t with note := 1 }).onlySends (s.tellEnding t) := by
  simp only [State.tellEnding]
  split
  · exact .inl rfl
  · split
    · exact .inl rfl
    · next open_ =>
      refine .inr ⟨?_, State.sendAll_onlySends _ _ _⟩
      revert open_
      cases s.inSchedule <;> simp

/-- The state with these commands waiting for a headland. -/
def State.withDeferred (s : State) (l : List Nat) : State := { s with srv := { s.srv with deferred := l } }

theorem State.deferTicket_eq (s : State) (T : Ticket) :
    s.deferTicket T = (s.withDeferred (s.srv.deferred ++ [T.no])).tellEnding T := rfl

/-- What is left where the only packet open waits for a headland. -/
structure State.Defers (s u : State) (T : Ticket) : Prop where
  deferred : u.srv.deferred = s.srv.deferred ++ [T.no]
  tickets : ∃ n, u.que.tickets = [{ T with note := n }]
  outside : s.inSchedule = false → u = s.withDeferred (s.srv.deferred ++ [T.no])
  pending : u.pending = s.pending

theorem State.deferTicket_defers {s : State} {T : Ticket} (only : s.que.tickets = [T]) : s.Defers (s.deferTicket T) T := by
  rw [State.deferTicket_eq]
  rcases State.tellEnding_cases (s.withDeferred (s.srv.deferred ++ [T.no])) T with same | ⟨inside, sends⟩
  · rw [same]
    exact ⟨rfl, ⟨T.note, only⟩, fun _ => rfl, rfl⟩
  · have marked := State.mapTicket_only (s := s.withDeferred (s.srv.deferred ++ [T.no])) (t := T) (fun t => { t with note := 1 }) only
    rw [marked] at sends
    exact ⟨congrArg Srv.deferred sends.srv, ⟨1, congrArg Que.tickets sends.que⟩,
      fun outside => Bool.noConfusion (inside.symm.trans outside), sends.pending⟩

/-- A packet that waits for the headland stays open. -/
theorem completes_deferred {i : Instr} {s : State} {q : Packet} {pay : Option Bytes} {img : Option ModelImage} {T : Ticket}
    {P : State → Prop} (takes : s.takes q) (row : Instr.submits i = some (q, pay, img))
    (enters : s.submit q pay img = (s.holding T).runHost T) (runs : (s.holding T).runHost T = (s.holding T).deferTicket T)
    (fresh : T.barrier = false ∧ T.fence = none ∧ T.answers = [])
    (h : (s.holding T).Defers ((s.holding T).deferTicket T) T → P ((s.holding T).deferTicket T)) : Completes i s P := by
  have defers := State.deferTicket_defers (s := s.holding T) (T := T) rfl
  obtain ⟨n, only⟩ := defers.tickets
  obtain ⟨barrier, fence, answers⟩ := fresh
  exact completes_submit_open takes row enters runs only barrier fence (.inr answers) defers.pending (h defers)

/-- A command takes its place behind those that wait and leaves it. -/
theorem State.undefer_last {s : State} {no : Nat} (fresh : ∀ n ∈ s.srv.deferred, n ≠ no) :
    (s.withDeferred (s.srv.deferred ++ [no])).undefer no = s := by
  have kept : (s.srv.deferred ++ [no]).filter (fun n => n != no) = s.srv.deferred := by
    rw [List.filter_append, List.filter_eq_self.2 fun n h => by simpa using fresh n h]
    simp
  show s.withDeferred ((s.srv.deferred ++ [no]).filter fun n => n != no) = s
  rw [kept]
  rfl

theorem readsPayload_of_spec {s : State} {p : Packet} {o : OpSpec} (h : opSpec s p = some o) : readsPayload s p = (o.pay == .into) := by
  rw [readsPayload, h]

/-- TENANT_SET has no payload. -/
theorem readsPayload_tenantSet (s : State) (p : Packet) : readsPayload s (p.op 0x50) = false := by
  by_cases removes : (p.op 0x50).f4 = true
  · exact readsPayload_of_spec (s := s) (p := p.op 0x50) (if_pos removes)
  · exact readsPayload_of_spec (s := s) (p := p.op 0x50) (if_neg removes)

/-- A tenant's queue is set at the headland. -/
theorem State.applyTicket_tenantSet {s : State} {p : Packet} (th : Nat) (idle : s.que.tickets = []) (named : p.f4 = false)
    (fresh : ∀ no ∈ s.srv.deferred, no ≠ s.que.nextNo) :
    ((s.holding (s.nextTicket (p.op 0x50) none none)).deferTicket (s.nextTicket (p.op 0x50) none none)).applyTicket th s.que.nextNo
      = ({ s.counted with srv := { s.srv with
        tenants := Table.set none p.tenant (some ⟨bits p.p0 0 8, bits p.p0 8 8, p.p1, p.p2, p.p3, p.p4,
          ((Table.get none p.tenant s.srv.tenants).map Tenant.credit).getD 0⟩) s.srv.tenants } }).completed (p.op 0x50)
            { status := .ok } := by
  let T := s.nextTicket (p.op 0x50) none none
  have waits : (s.holding T).deferTicket T = (s.holding T).withDeferred (s.srv.deferred ++ [s.que.nextNo]) := rfl
  have mine : ((s.holding T).withDeferred (s.srv.deferred ++ [s.que.nextNo])).ticket? s.que.nextNo = some T := State.holding_ticket s T
  rw [waits, State.applyTicket, mine]
  calc _ = (((s.holding T).withDeferred (s.srv.deferred ++ [s.que.nextNo])).undefer s.que.nextNo).tenantSet T := rfl
    _ = (s.holding T).tenantSet T := congrArg (State.tenantSet · T) (State.undefer_last (s := s.holding T) fresh)
    _ = _ := ?_
  rw [State.tenantSet]
  refine (if_neg (show ¬ p.f4 = true by simp [named])).trans ?_
  exact State.finish_open (t := T) (u := { s.counted with srv := { s.srv with tenants := _ } }) _ idle rfl

end Sys2Proof.Machine

open Sys2Proof Sys2Proof.Machine

/-- Settles O14: the last branch of the lead, and a tenant's packet at its headland. -/
theorem packetsForTheHeadland : Obligations.PacketsForTheHeadland := by
  intro s p
  refine ⟨fun c hc takes => ?_, fun b c hc takes => ?_, fun th takes named fresh => ?_⟩
  · have idle := takes.2.2.1
    let T := s.nextTicket (p.op c.1) none none
    have waits : Completes c.2 s fun t => t = (s.holding T).deferTicket T ∧ (s.holding T).Defers t T := by
      simp only [List.mem_cons, List.not_mem_nil, or_false] at hc
      rcases hc with rfl | rfl | rfl | rfl | rfl | rfl | rfl | rfl | rfl
      case inr.inr.inr.inr.inr.inr.inr.inr =>
        exact completes_deferred takes rfl (State.submit_holding takes (readsPayload_tenantSet s p)) rfl ⟨rfl, rfl, rfl⟩ fun h => ⟨rfl, h⟩
      all_goals exact completes_deferred takes rfl (State.submit_holding takes rfl) rfl ⟨rfl, rfl, rfl⟩ fun h => ⟨rfl, h⟩
    obtain ⟨t, runs, eq, defers⟩ := waits
    obtain ⟨n, only⟩ := defers.tickets
    have accepted := State.holding_accepted (p.op c.1) none none idle
    refine ⟨t, runs, eq.trans (by rw [accepted]), defers.deferred, ?_, fun outside => (defers.outside outside).trans ?_⟩
    · rw [only]; rfl
    · rw [accepted]; rfl
  · have accepted := State.holding_accepted (p.op c.1) (some (fit p.payloadLen b)) none takes.2.2.1
    simp only [List.mem_cons, List.not_mem_nil, or_false] at hc
    rcases hc with rfl | rfl
    all_goals
      refine completes_deferred takes rfl (State.submit_paid takes rfl) rfl ⟨rfl, rfl, rfl⟩ fun _ => ?_
      rw [← accepted]
      rfl
  · exact completes_deferred takes rfl (State.submit_holding takes (readsPayload_tenantSet s p)) rfl ⟨rfl, rfl, rfl⟩ fun _ =>
      State.applyTicket_tenantSet th takes.2.2.1 named fresh
end

section
/-!
SUPPORT. Packets that stage configuration (R47, R137 to R141, R147, R150, R152, R168, R556) at a device in no cluster.
-/

namespace Sys2Proof.Machine

/-! ### The bits of a flag byte -/

theorem bit_setBit_same (v i : Nat) (b : Bool) : bit (setBit v i b) i = b := by
  have pos : 0 < 2 ^ i := Nat.two_pow_pos i
  have low : v % 2 ^ i < 2 ^ i := Nat.mod_lt _ pos
  have split : v = 2 ^ i * (2 * (v / 2 ^ i / 2) + v / 2 ^ i % 2) + v % 2 ^ i := by rw [Nat.div_add_mod, Nat.div_add_mod]
  have flag : b2n b < 2 := by cases b <;> decide
  have set : setBit v i b = 2 ^ i * (2 * (v / 2 ^ i / 2) + b2n b) + v % 2 ^ i := by
    simp only [setBit, setBits, bits, Nat.shiftLeft_eq, Nat.shiftRight_eq_div_pow, pow_one, Nat.mod_eq_of_lt flag]
    rw [Nat.mul_comm (v / 2 ^ i % 2), Nat.mul_comm (b2n b)]
    rw [Nat.mul_add] at split ⊢
    omega
  rw [bit, set, Nat.shiftRight_eq_div_pow, Nat.mul_add_div pos, Nat.div_eq_of_lt low]
  cases b <;> simp [b2n]

theorem Packet.with_f5 (p : Packet) (b : Bool) : (p.with_ 5 b).f5 = b := bit_setBit_same _ 5 b
theorem Packet.with_f4 (p : Packet) (b : Bool) : (p.with_ 4 b).f4 = b := bit_setBit_same _ 4 b

/-- A payload of the length that the packet gives is taken whole. -/
theorem fit_self {n : Nat} {b : Bytes} (h : b.length = n) : fit n b = b := by
  simp [fit, ← h]

/-- CFG_STAGE reads a payload unless it discards. -/
theorem readsPayload_cfgStage (s : State) (p : Packet) (discard : Bool) :
    readsPayload s ((p.op 0x02).with_ 5 discard) = !discard := by
  have flag := Packet.with_f5 (p.op 0x02) discard
  rw [readsPayload_of_spec (s := s) (p := (p.op 0x02).with_ 5 discard) rfl, flag]
  cases discard <;> rfl

/-! ### A device in no cluster stages at once -/

/-- With one packet open no other commit holds a staged set. -/
theorem State.commitHolds_only {s : State} {T : Ticket} (only : s.que.tickets = [T]) (dev : Option Nat) :
    s.commitHolds T.no dev = false := by
  simp [State.commitHolds, only]

/-- The final completion, where nothing is left to flush or to zero. -/
theorem State.finishSettled_only {u : State} {T : Ticket} (r0 r1 : Nat) (only : u.que.tickets = [T]) (fresh : T.awaiting = [])
    (other : T.packet.opcode ≠ 0x03) (settled : u.unsettled = false) :
    u.finishSettled T.no r0 r1 = u.finish T.no { status := .ok, result0 := r0, result1 := r1 } := by
  have found := State.ticket?_only only
  simp [State.finishSettled, settled, State.commitDone, found, other, State.reply, fresh]

/-- What the lead of no cluster does with a packet that stages: the device's own check, and its own part. -/
theorem State.stageLead_alone {s : State} {T : Ticket} (alone : s.alone) (only : s.que.tickets = [T])
    (shape : ¬ (T.packet.opcode = 0x02 ∧ T.packet.f5 = false ∧
      ((s.stageBytes T).length % 24 ≠ 0 ∨ (Machine.stageEntries (s.stageBytes T)).any entryShape = true)))
    (mine : stagesAll T.packet = true ∨ bits T.packet.p0 0 6 = s.self) :
    s.stageLead T = (s.stageCheck T.packet (s.stageBytes T) T.image).elim (s.stageAnswer T.no T.packet (s.stageBytes T) T.image)
      fun r => s.finishWith T.no r.1 r.2 := by
  have noOthers := State.others_alone alone
  have here : (!stagesAll T.packet && bits T.packet.p0 0 6 != s.self) = false := by
    rcases mine with h | h <;> simp [h]
  have whole : (T.packet.opcode == 0x02 && !T.packet.f5 && ((s.stageBytes T).length % 24 != 0 || (Machine.stageEntries (s.stageBytes T)).any entryShape)) = false := by
    rw [Bool.eq_false_iff]
    intro h
    simp only [Bool.and_eq_true, beq_iff_eq, Bool.not_eq_true', Bool.or_eq_true, bne_iff_ne] at h
    exact shape ⟨h.1.1, h.1.2, h.2⟩
  cases check : s.stageCheck T.packet (s.stageBytes T) T.image <;>
    simp [State.stageLead, whole, State.commitHolds_only only, here, noOthers, check]

theorem State.put_withTickets (s : State) (l : List Ticket) (f : Field) (v : Nat) :
    (s.withTickets l).put f v = (s.put f v).withTickets l := rfl

theorem State.putBit_withTickets (s : State) (l : List Ticket) (f : Field) (b : Bool) :
    (s.withTickets l).putBit f b = (s.putBit f b).withTickets l := rfl

theorem State.refreshCfg_withTickets (s : State) (l : List Ticket) : (s.withTickets l).refreshCfg = s.refreshCfg.withTickets l := by
  have dirty : (s.withTickets l).stagedDirty = s.stagedDirty := rfl
  simp only [State.refreshCfg, dirty, State.putBit_withTickets, State.put_withTickets]
  rfl

/-- The registers of the configuration alone follow. -/
theorem State.refreshCfg_onlyRegs (s : State) : s.refreshCfg = { s with regs := s.refreshCfg.regs } := by
  simp only [State.refreshCfg]
  rfl

/-- The registers that follow the staged sets, the locks and a prepared commit. -/
def cfgFields : List Field := [R.CFG_STATUS.STAGED_DIRTY, R.CFG_STATUS.LOCKED, R.CFG_PENDING.TARGET_EPOCH,
  R.CFG_PENDING_FURROW.TARGET_FURROW, R.FRW_PLAN.ACTIVE_ID, R.FRW_PLAN.STAGED_ID]

theorem State.refreshCfg_get (s : State) {f : Field} (h : ∀ g ∈ cfgFields, f.key ≠ g.key) : s.refreshCfg.get f = s.get f := by
  simp only [cfgFields, List.forall_mem_cons] at h
  obtain ⟨dirty, locked, epoch, furrow, active, staged, _⟩ := h
  simp only [State.refreshCfg, State.putBit]
  rw [State.get_put_other _ _ staged, State.get_put_other _ _ active, State.get_put_other _ _ furrow, State.get_put_other _ _ epoch,
    State.get_put_other _ _ locked, State.get_put_other _ _ dirty]

theorem State.refreshCfg_pending (s : State) : s.refreshCfg.pending = s.pending := (congrArg State.pending s.refreshCfg_onlyRegs :)
theorem State.refreshCfg_que (s : State) : s.refreshCfg.que = s.que := (congrArg State.que s.refreshCfg_onlyRegs :)
theorem State.refreshCfg_cfg (s : State) : s.refreshCfg.cfg = s.cfg := (congrArg State.cfg s.refreshCfg_onlyRegs :)
theorem State.refreshCfg_frw (s : State) : s.refreshCfg.frw = s.frw := (congrArg State.frw s.refreshCfg_onlyRegs :)
theorem State.refreshCfg_mem (s : State) : s.refreshCfg.mem = s.mem := (congrArg State.mem s.refreshCfg_onlyRegs :)
theorem State.refreshCfg_tickets (s : State) : s.refreshCfg.que.tickets = s.que.tickets := congrArg Que.tickets s.refreshCfg_que
theorem State.refreshCfg_unsettled (s : State) : s.refreshCfg.unsettled = s.unsettled :=
  (congrArg State.unsettled s.refreshCfg_onlyRegs :)

theorem State.stageHere_furrowPlan (s : State) {q : Packet} (b : Bytes) (img : Option ModelImage) (op : q.opcode = 0x11) :
    s.stageHere q b img = { s with frw := { s.frw with staged := some (furrowPlanOf b) } }.refreshCfg := by
  simp only [State.stageHere, op]

theorem State.stageHere_unload (s : State) {q : Packet} (b : Bytes) (img : Option ModelImage) (op : q.opcode = 0x21) :
    s.stageHere q b img = { s with cfg := { s.cfg with instS := Table.erase (bits q.p0 0 4) s.cfg.instS } }.refreshCfg := by
  simp only [State.stageHere, op]

theorem State.stageHere_plan {s : State} {q : Packet} {b : Bytes} {x : Inst} (img : Option ModelImage) (op : q.opcode = 0x22)
    (inst : s.instance? (bits q.p0 0 4) = some x) :
    s.stageHere q b img = { s with cfg := { s.cfg with
      instS := Table.insert (bits q.p0 0 4) (some { x with plan := some ((s.planView b).plan s.self) }) s.cfg.instS } }.refreshCfg := by
  simp only [State.stageHere, op, State.stagePlan, inst]

theorem State.read_holding (s : State) (T : Ticket) (a n : Nat) : (s.holding T).read a n = s.read a n :=
  State.read_of_mem (s := s) (t := s.holding T) rfl a n

theorem State.planView_holding (s : State) (T : Ticket) (b : Bytes) : (s.holding T).planView b = s.planView b := rfl

theorem State.planCheck_holding (s : State) (T : Ticket) (i : Nat) (v : PlanView) : (s.holding T).planCheck i v = s.planCheck i v := rfl

theorem State.stageCheck_plan {s : State} {q : Packet} {b : Bytes} (img : Option ModelImage) (op : q.opcode = 0x22)
    (lead : s.isLead = true) (whole : planWhole b = none) (check : s.planCheck (bits q.p0 0 4) (s.planView b) = none) :
    s.stageCheck q b img = none := by
  simp only [State.stageCheck, op, lead, whole, check]
  rfl

/-! ### Discarding (R137, R152) -/

theorem State.stageHere_discardOne {s : State} {q : Packet} (b : Bytes) (img : Option ModelImage) (op : q.opcode = 0x02)
    (discard : q.f5 = true) (one : q.f4 = false) : s.stageHere q b img = s.discardDevice.refreshCfg := by
  simp only [State.stageHere, op, discard, one]
  rfl

theorem State.stageHere_discardAll {s : State} {q : Packet} (b : Bytes) (img : Option ModelImage) (op : q.opcode = 0x02)
    (discard : q.f5 = true) (all : q.f4 = true) : s.stageHere q b img = s.discardCluster.discardDevice.refreshCfg := by
  simp only [State.stageHere, op, discard, all]
  rfl

/-- Without unit-local regions of instances that go, discarding changes the staged set alone. -/
theorem State.discardCluster_eq {s : State} (plain : ∀ e ∈ instList s.cfg.instS, e.2.image.unitLocal = []) :
    s.discardCluster = { s with
      cfg := { s.cfg with instS := s.cfg.instA, stagedRegs := s.cfg.stagedRegs.filter fun e => !clusterKey e.1 }
      frw := { s.frw with staged := none } } := by
  rw [State.discardCluster]
  refine List.foldlRecOn (motive := fun t => t = _) _ _ rfl fun t h e he => ?_
  have none_local := plain e (List.mem_filter.1 he).1
  rw [State.returnRegions, none_local]
  exact h

theorem State.stageCheck_discard {s : State} {q : Packet} (b : Bytes) (img : Option ModelImage) (op : q.opcode = 0x02)
    (discard : q.f5 = true) (device : s.cfg.lockDevice = false) (cluster : q.f4 = false ∨ s.cfg.lockCluster = false) :
    s.stageCheck q b img = none := by
  have free : (q.f4 && s.cfg.lockCluster) = false := by
    rcases cluster with h | h <;> simp [h]
  simp only [State.stageCheck, op, discard, device, free]
  rfl

/-! ### Entries of CFG_STAGE (R147) -/

/-- The state with other rings. -/
def State.withQue (s : State) (q : Que) : State := { s with que := q }

/-- The state with these staged registers. -/
def State.withStaged (s : State) (l : Table Nat) : State := { s with cfg := { s.cfg with stagedRegs := l } }

theorem State.stageEntry_staged (s : State) (e : Nat × Nat × Nat) :
    ∃ l, s.stageEntry e = s.withStaged l ∧ ∀ q, (s.withQue q).stageEntry e = (s.withStaged l).withQue q := by
  unfold State.stageEntry
  generalize (fieldsAt (e.1 - windowBase)).filter (fun f => f.access == .staged && bits e.2.2 f.lo f.width != 0) = fs
  induction fs generalizing s with
  | nil => exact ⟨s.cfg.stagedRegs, rfl, fun _ => rfl⟩
  | cons f fs ih =>
    obtain ⟨l, here, there⟩ := ih (s.withStaged (Table.insert f.key (s.entryValue e f) s.cfg.stagedRegs))
    exact ⟨l, here, fun q => there q⟩

/-- Entries change the staged registers alone, and read no ring. -/
theorem State.stageEntries_staged (s : State) (b : Bytes) :
    (s.stageEntries b = none ∧ ∀ q, (s.withQue q).stageEntries b = none) ∨
      ∃ l, s.stageEntries b = some (s.withStaged l) ∧ ∀ q, (s.withQue q).stageEntries b = some ((s.withStaged l).withQue q) := by
  unfold State.stageEntries
  generalize Machine.stageEntries b = es
  induction es generalizing s with
  | nil => exact .inr ⟨s.cfg.stagedRegs, rfl, fun _ => rfl⟩
  | cons e es ih =>
    obtain ⟨l, here, there⟩ := s.stageEntry_staged e
    have same (q : Que) : (s.withQue q).entryBad e = s.entryBad e := rfl
    by_cases bad : s.entryBad e = true
    · simp [tryAll, same, bad]
    · simp only [tryAll, same, bad, here, there]
      rcases ih (s.withStaged l) with fails | ⟨m, staged, others⟩
      · exact .inl fails
      · exact .inr ⟨m, staged, others⟩

/-- The check of CFG_STAGE reads no ring. -/
theorem State.stageCheck_withQue {s : State} {r : Packet} {b : Bytes} (q : Que) (op : r.opcode = 0x02) (img : Option ModelImage) :
    (s.withQue q).stageCheck r b img = s.stageCheck r b img := by
  have same : ((s.withQue q).stageEntries b).isNone = (s.stageEntries b).isNone := by
    rcases s.stageEntries_staged b with ⟨here, there⟩ | ⟨l, here, there⟩
    · rw [here, there q]
    · rw [here, there q]
      rfl
  simp only [State.stageCheck, op, same]
  rfl

/-- A payload that passes the check is whole entries. -/
theorem State.stageCheck_unit {s : State} {q : Packet} {b : Bytes} {img : Option ModelImage} (op : q.opcode = 0x02)
    (stages : q.f5 = false) (check : s.stageCheck q b img = none) : b.length % 24 = 0 := by
  by_contra part
  have refused : s.stageCheck q b img = some (.rejFormat, 0x81) := by simp [State.stageCheck, op, stages, part]
  simp [refused] at check

/-- Entries without a live field write no register. -/
theorem State.liveEntries_none {s : State} {b : Bytes}
    (h : ∀ e ∈ Machine.stageEntries b, e.2.2 &&& liveMask (e.1 - windowBase) = 0) : s.liveEntries b = s :=
  List.foldlRecOn (motive := fun t => t = s) _ _ rfl fun t ht e he => by simp [h e he, ht]

theorem State.stageHere_entries {s u : State} {q : Packet} {b : Bytes} (img : Option ModelImage) (op : q.opcode = 0x02)
    (stages : q.f5 = false) (entries : s.stageEntries b = some u)
    (h : ∀ e ∈ Machine.stageEntries b, e.2.2 &&& liveMask (e.1 - windowBase) = 0) : s.stageHere q b img = u.refreshCfg := by
  simp only [State.stageHere, op, stages, entries, Option.getD_some, State.liveEntries_none h]
  rfl

/-- What a packet that stages leaves: the lead's ticket is the only one, and nothing waits to be flushed or zeroed. -/
theorem State.stageAnswer_only {s u : State} {T : Ticket} {b : Bytes} {img : Option ModelImage}
    (staged : s.stageHere T.packet b img = u.withTickets [T]) (none_open : u.que.tickets = []) (o : T.origin = .host T.packet.ring)
    (fresh : T.awaiting = []) (other : T.packet.opcode ≠ 0x03) (settled : u.unsettled = false) :
    s.stageAnswer T.no T.packet b img = u.completed T.packet { status := .ok, result0 := stageResult T.packet b } := by
  rw [State.stageAnswer, staged, State.finishSettled_only (u := u.withTickets [T]) _ _ rfl fresh other settled, State.finish_open _ none_open o]

/-- The lead of no cluster takes a packet that stages. -/
theorem completes_staged {i : Instr} {s v : State} {q : Packet} {pay p' : Option Bytes} {img : Option ModelImage} {b : Bytes}
    {P : State → Prop} (alone : s.alone) (takes : s.takes q) (row : Instr.submits i = some (q, pay, img))
    (enters : s.submit q pay img = (s.holding (s.nextTicket q p' img)).runHost (s.nextTicket q p' img))
    (runs : (s.holding (s.nextTicket q p' img)).runHost (s.nextTicket q p' img)
      = (s.holding (s.nextTicket q p' img)).stageLead (s.nextTicket q p' img)) (other : q.opcode ≠ 0x03)
    (bytes : (s.holding (s.nextTicket q p' img)).stageBytes (s.nextTicket q p' img) = b)
    (shape : ¬ (q.opcode = 0x02 ∧ q.f5 = false ∧ (b.length % 24 ≠ 0 ∨ (Machine.stageEntries b).any entryShape = true)))
    (mine : stagesAll q = true ∨ bits q.p0 0 6 = s.self) (check : (s.holding (s.nextTicket q p' img)).stageCheck q b img = none)
    (staged : (s.holding (s.nextTicket q p' img)).stageHere q b img = (v.withTickets [s.nextTicket q p' img]).refreshCfg)
    (none_open : v.que.tickets = []) (settled : v.unsettled = false) (waiting : v.pending = s.pending) {r : Nat}
    (result : stageResult q b = r) (h : P (v.refreshCfg.completed q { status := .ok, result0 := r })) : Completes i s P := by
  subst bytes result
  refine completes_submit_done takes row enters ?_ (v.refreshCfg_tickets.trans none_open) (v.refreshCfg_pending.trans waiting) h
  rw [runs, State.stageLead_alone (s := s.holding (s.nextTicket q p' img)) alone rfl shape mine]
  refine (congrArg (Option.elim · _ _) check).trans ?_
  exact State.stageAnswer_only (T := s.nextTicket q p' img) (staged.trans (v.refreshCfg_withTickets _))
    (v.refreshCfg_tickets.trans none_open) rfl rfl other (v.refreshCfg_unsettled.trans settled)

/-- The lead of no cluster refuses a packet that stages. -/
theorem completes_stageRefused {i : Instr} {s : State} {q : Packet} {pay p' : Option Bytes} {img : Option ModelImage} {b : Bytes}
    {st : Status} {k : Nat} (alone : s.alone) (takes : s.takes q) (row : Instr.submits i = some (q, pay, img))
    (enters : s.submit q pay img = (s.holding (s.nextTicket q p' img)).runHost (s.nextTicket q p' img))
    (runs : (s.holding (s.nextTicket q p' img)).runHost (s.nextTicket q p' img)
      = (s.holding (s.nextTicket q p' img)).stageLead (s.nextTicket q p' img))
    (bytes : (s.holding (s.nextTicket q p' img)).stageBytes (s.nextTicket q p' img) = b)
    (shape : ¬ (q.opcode = 0x02 ∧ q.f5 = false ∧ (b.length % 24 ≠ 0 ∨ (Machine.stageEntries b).any entryShape = true)))
    (mine : stagesAll q = true ∨ bits q.p0 0 6 = s.self)
    (check : (s.holding (s.nextTicket q p' img)).stageCheck q b img = some (st, k)) :
    Completes i s fun t => t = s.counted.completed q { status := st, detail := k } := by
  subst bytes
  refine completes_submit_done (u := s.counted) takes row enters ?_ takes.2.2.1 rfl rfl
  rw [runs, State.stageLead_alone (s := s.holding (s.nextTicket q p' img)) alone rfl shape mine]
  refine (congrArg (Option.elim · _ _) check).trans ?_
  exact State.finish_holding q p' img { status := st, detail := k } takes.2.2.1

/-- CFG_STAGE with an entry that no device could take is refused before anything else. -/
theorem State.stageLead_shape {s : State} {T : Ticket} (op : T.packet.opcode = 0x02) (stages : T.packet.f5 = false)
    (bad : (s.stageBytes T).length % 24 ≠ 0 ∨ (Machine.stageEntries (s.stageBytes T)).any entryShape = true) :
    s.stageLead T = s.finishWith T.no .rejFormat 0x81 := by
  have shape : ((s.stageBytes T).length % 24 != 0 || (Machine.stageEntries (s.stageBytes T)).any entryShape) = true := by
    simpa using bad
  simp only [State.stageLead, op, stages, shape]
  rfl

/-! ### MODEL_LOAD (R140, R150, R556) -/

/-- From `s` to `t` an image has been put in place: memory, registers, staged registers and keys may differ, nothing else. -/
def State.placesImage (s t : State) : Prop :=
  t = { s with mem := t.mem, poison := t.poison, regs := t.regs, sec := t.sec, freeCtr := t.freeCtr,
               cfg := { s.cfg with stagedRegs := t.cfg.stagedRegs } }

theorem State.placesImage.refl (s : State) : s.placesImage s := rfl

theorem State.placesImage.trans {a b c : State} (h : a.placesImage b) (k : b.placesImage c) : a.placesImage c := by
  rw [State.placesImage] at k ⊢
  refine k.trans ?_
  rw [h]

theorem State.placesImage.foldl {α : Type} {s : State} {f : State → α → State} (l : List α) (h : ∀ (s : State) (x : α), s.placesImage (f s x)) :
    s.placesImage (l.foldl f s) :=
  List.foldlRecOn (motive := s.placesImage) _ _ (.refl s) fun _ k _ _ => k.trans (h _ _)

theorem State.placesImage.instS {s t : State} (h : s.placesImage t) : t.cfg.instS = s.cfg.instS := (congrArg (fun u => u.cfg.instS) h :)
theorem State.placesImage.instA {s t : State} (h : s.placesImage t) : t.cfg.instA = s.cfg.instA := (congrArg (fun u => u.cfg.instA) h :)
theorem State.placesImage.que {s t : State} (h : s.placesImage t) : t.que = s.que := (congrArg State.que h :)
theorem State.placesImage.pending {s t : State} (h : s.placesImage t) : t.pending = s.pending := (congrArg State.pending h :)
theorem State.placesImage.unsettled {s t : State} (h : s.placesImage t) : t.unsettled = s.unsettled := (congrArg State.unsettled h :)

theorem State.protectAll_places (s : State) : s.placesImage s.protectAll := by
  have keyed : s.placesImage (((List.range 16).filter fun n => !s.prot n).foldl (fun (s : State) n =>
      { s with sec := { s.sec with partKeys := Table.insert n (some s.freeVal) s.sec.partKeys } }.draw) s) :=
    placesImage.foldl _ fun _ _ => rfl
  exact keyed.trans rfl

theorem State.protectAll_partitions (s : State) : s.protectAll.get R.SEC_PROT.PARTITIONS = 0xFFFF := State.get_put_same _ _ _

theorem State.stageScale_places (s : State) (n i w : Nat) : s.placesImage (s.stageScale n i w) :=
  placesImage.foldl _ fun _ _ => rfl

/-- The state with an instance staged. -/
def State.withStagedInst (s : State) (i : Nat) (x : Inst) : State :=
  { s with cfg := { s.cfg with instS := Table.insert i (some x) s.cfg.instS } }

/-- An image without unit-local regions is put in place, and its partitions are protected where it is. -/
theorem State.modelStage_places {s : State} {q : Packet} {b : Bytes} {m : ModelImage} (plain : m.unitLocal = []) :
    (s.withStagedInst (bits q.p2 0 4) (instOf q b m)).placesImage (s.modelStage q b m) ∧
      (q.f4 = true → bit q.p3 s.self = true → (s.modelStage q b m).get R.SEC_PROT.PARTITIONS = 0xFFFF) := by
  have placed (u : State) : u.placesImage (((m.placed.filter fun e => e.device == u.self).foldl (fun (s : State) e => s.write e.addr e.bytes) u)) :=
    placesImage.foldl _ fun _ _ => rfl
  have scaled (u : State) (l : List (Nat × Nat × Nat × Nat)) :
      u.placesImage (l.foldl (fun (s : State) (e : Nat × Nat × Nat × Nat) => s.stageScale e.2.1 e.2.2.1 e.2.2.2) u) :=
    placesImage.foldl _ fun _ _ => State.stageScale_places _ _ _ _
  simp only [State.modelStage, plain, List.filter_nil, List.foldl_nil]
  split
  · next away => exact ⟨.refl _, fun _ here => Bool.noConfusion (here.symm.trans (Eq.mp (Bool.not_eq_true' _) away))⟩
  · split
    · exact ⟨((placed _).trans (scaled _ _)).trans (State.protectAll_places _), fun _ _ => State.protectAll_partitions _⟩
    · next open_ => exact ⟨(placed _).trans (scaled _ _), fun prot => absurd prot open_⟩

theorem State.stageHere_model (s : State) {q : Packet} (b : Bytes) (m : ModelImage) (op : q.opcode = 0x20) :
    s.stageHere q b (some m) = (s.modelStage q b m).refreshCfg := by
  simp only [State.stageHere, op]

/-- What is left once every staged set is discarded. -/
theorem State.discardAll_eq {s : State} (plain : ∀ e ∈ instList s.cfg.instS, e.2.image.unitLocal = []) :
    s.discardCluster.discardDevice = { s with
      cfg := { s.cfg with instS := s.cfg.instA, stagedRegs := [] }
      frw := { s.frw with staged := none } } := by
  have none_left (l : Table Nat) : (l.filter fun e => !clusterKey e.1).filter (fun e => clusterKey e.1) = [] := by
    simp [List.filter_filter]
  rw [State.discardCluster_eq plain, State.discardDevice]
  simp only [none_left]

/-- A discarding packet for every device. -/
theorem completes_discardAll {s : State} {p q : Packet} (alone : s.alone) (settled : s.unsettled = false)
    (hq : q = (p.op 0x02).with_ 5 true) (takes : s.takes q) (device : s.cfg.lockDevice = false) (all : q.f4 = true)
    (cluster : s.cfg.lockCluster = false) (plain : ∀ e ∈ instList s.cfg.instS, e.2.image.unitLocal = []) :
    Completes (.cfgStageDiscard p) s fun t =>
      t.cfg.instS = s.cfg.instA ∧ t.cfg.stagedRegs = [] ∧ t.frw.staged = none ∧ t.cfg.instA = s.cfg.instA ∧ t.frw.active = s.frw.active ∧
        t.que.tickets = [] ∧ t.mem = s.mem := by
  subst hq
  have discard := Packet.with_f5 (p.op 0x02) true
  let v : State := { s.counted with
    cfg := { s.cfg with instS := s.cfg.instA, stagedRegs := [] }
    frw := { s.frw with staged := none } }
  have posts := State.Posts.completed v.refreshCfg ((p.op 0x02).with_ 5 true) { status := .ok, result0 := 0 }
  have cfg := posts.cfg.trans v.refreshCfg_cfg
  have frw := posts.frw.trans v.refreshCfg_frw
  have all_ : stagesAll ((p.op 0x02).with_ 5 true) = true := by simp [stagesAll, all]
  exact completes_staged (v := v) (b := []) alone takes rfl (State.submit_holding takes (readsPayload_cfgStage s p true)) rfl
    (show 0x02 ≠ 0x03 by decide) rfl (fun h => Bool.noConfusion (discard.symm.trans h.2.1)) (.inl all_)
    (State.stageCheck_discard _ _ rfl discard device (.inr cluster))
    ((State.stageHere_discardAll _ _ rfl discard all).trans (congrArg State.refreshCfg (State.discardAll_eq plain))) takes.2.2.1 settled rfl
    (if_neg (show ¬ (0x02 == 0x11) = true by decide))
    ⟨congrArg Cfg.instS cfg, congrArg Cfg.stagedRegs cfg, congrArg Frw.staged frw, (congrArg Cfg.instA cfg :),
      (congrArg Frw.active frw :), posts.tickets.trans (v.refreshCfg_tickets.trans takes.2.2.1), posts.mem.trans v.refreshCfg_mem⟩

/-- A load at the lead of no cluster. -/
theorem completes_modelLoad {s : State} {p : Packet} {m : ModelImage} (alone : s.alone) (settled : s.unsettled = false)
    (takes : s.takes (p.op 0x20)) (check : s.modelCheck (p.op 0x20) (s.read p.p0 p.p1) m = none) (plain : m.unitLocal = []) :
    Completes (.modelLoad p m) s fun t =>
      Table.get none (bits p.p2 0 4) t.cfg.instS = some ⟨p.p3, p.f4, m, sha384 (s.read p.p0 p.p1), none⟩ ∧
        (p.f4 = true → bit p.p3 s.self = true → t.get R.SEC_PROT.PARTITIONS = 0xFFFF) ∧
        t.cfg.instA = s.cfg.instA ∧ t.que.tickets = [] := by
  let q := p.op 0x20
  let T := s.nextTicket q none (some m)
  obtain ⟨places, prot⟩ := State.modelStage_places (s := s.holding T) (q := q) (b := s.read p.p0 p.p1) plain
  generalize hu : (s.holding T).modelStage q (s.read p.p0 p.p1) m = u at places prot
  have only : u.que.tickets = [T] := congrArg Que.tickets places.que
  have posts := State.Posts.completed (u.withTickets []).refreshCfg q { status := .ok, result0 := 0 }
  have cfg : ((u.withTickets []).refreshCfg.completed q { status := .ok, result0 := 0 }).cfg = u.cfg :=
    posts.cfg.trans (State.refreshCfg_cfg (u.withTickets []))
  refine completes_staged (v := u.withTickets []) (b := s.read p.p0 p.p1) (p' := none) alone takes rfl (State.submit_holding takes rfl) rfl
    (show 0x20 ≠ 0x03 by decide) (State.read_holding s T p.p0 p.p1) (fun h => absurd h.1 (show ¬ 0x20 = 0x02 by decide)) (.inl rfl) check
    ?_ rfl (places.unsettled.trans settled) places.pending (if_neg (show ¬ (0x20 == 0x11) = true by decide)) ⟨?_, ?_, ?_, ?_⟩
  · rw [State.stageHere_model _ _ _ rfl, hu, State.withTickets_withTickets, State.withTickets_self only]
  · rw [cfg, places.instS]
    exact Table.get_insert_same _ _ _ _
  · intro f4 here
    calc _ = (u.withTickets []).refreshCfg.get R.SEC_PROT.PARTITIONS := posts.get _ ⟨by decide, .inl (by decide)⟩
      _ = u.get R.SEC_PROT.PARTITIONS := State.refreshCfg_get _ (by decide)
      _ = _ := prot f4 here
  · exact (congrArg Cfg.instA cfg).trans places.instA
  · exact posts.tickets.trans (State.refreshCfg_tickets (u.withTickets []))

/-- CFG_STAGE with an entry that no device could take. -/
theorem completes_badEntries {s : State} {p q : Packet} {b : Bytes} (hq : q = (p.op 0x02).with_ 5 false) (takes : s.takes q)
    (len : b.length = p.payloadLen) (bad : b.length % 24 ≠ 0 ∨ (Machine.stageEntries b).any entryShape = true) :
    Completes (.cfgStage p (some b)) s fun t => t = s.counted.completed q { status := .rejFormat, detail := 0x81 } := by
  subst hq
  let q := (p.op 0x02).with_ 5 false
  let T := s.nextTicket q (some (fit q.payloadLen b)) none
  have whole : fit q.payloadLen b = b := fit_self len
  have stages := Packet.with_f5 (p.op 0x02) false
  have bytes : (s.holding T).stageBytes T = b := whole
  have paid : readsPayload s q = true := readsPayload_cfgStage s p false
  refine completes_submit_done (T := T) (u := s.counted) takes rfl (State.submit_paid takes paid) ?_ takes.2.2.1 rfl rfl
  calc (s.holding T).runHost T = (s.holding T).stageLead T := rfl
    _ = (s.holding T).finishWith T.no .rejFormat 0x81 := State.stageLead_shape rfl stages (by rwa [bytes])
    _ = _ := State.finish_holding q (some (fit q.payloadLen b)) none _ takes.2.2.1

/-- CFG_STAGE with entries of staged fields. -/
theorem completes_entries {s u : State} {p q : Packet} {b : Bytes} (alone : s.alone) (settled : s.unsettled = false)
    (hq : q = (p.op 0x02).with_ 5 false) (takes : s.takes q) (len : b.length = p.payloadLen) (mine : q.f4 = true ∨ bits p.p0 0 6 = s.self)
    (shape : (Machine.stageEntries b).any entryShape = false) (check : s.stageCheck q b none = none) (staged : s.stageEntries b = some u)
    (live : ∀ e ∈ Machine.stageEntries b, e.2.2 &&& liveMask (e.1 - windowBase) = 0) :
    Completes (.cfgStage p (some b)) s fun t =>
      t = ({ s.counted with cfg := { s.cfg with stagedRegs := u.cfg.stagedRegs } }.refreshCfg).completed q { status := .ok } := by
  subst hq
  let q := (p.op 0x02).with_ 5 false
  let T := s.nextTicket q (some (fit q.payloadLen b)) none
  have whole : fit q.payloadLen b = b := fit_self len
  have stages : q.f5 = false := Packet.with_f5 (p.op 0x02) false
  have paid : readsPayload s q = true := readsPayload_cfgStage s p false
  have unit : b.length % 24 = 0 := State.stageCheck_unit rfl stages check
  obtain ⟨l, here, there⟩ : ∃ l, s.stageEntries b = some (s.withStaged l) ∧ ∀ q, (s.withQue q).stageEntries b = some ((s.withStaged l).withQue q) :=
    (s.stageEntries_staged b).resolve_left fun h => by simp [h.1] at staged
  obtain rfl : u = s.withStaged l := Option.some.inj (staged.symm.trans here)
  refine completes_staged (v := s.counted.withStaged l) (b := b) (p' := some (fit q.payloadLen b)) alone takes rfl (State.submit_paid takes paid) rfl
    (show 0x02 ≠ 0x03 by decide) whole ?_ ?_ ((State.stageCheck_withQue (s := s) (s.holding T).que rfl none).trans check)
    (State.stageHere_entries _ rfl stages (there (s.holding T).que) live) takes.2.2.1 settled rfl
    (if_neg (show ¬ (0x02 == 0x11) = true by decide)) rfl
  · rintro ⟨-, -, bad | bad⟩
    · exact bad unit
    · exact Bool.noConfusion (shape.symm.trans bad)
  · exact mine.imp_left fun all => by simp [stagesAll, all]

end Sys2Proof.Machine

open Sys2Proof Sys2Proof.Machine

/-- Settles O15: the packet's own check on the one device there is, and what it stages. -/
theorem stagingPackets : Obligations.StagingPackets := by
  intro s p alone settled
  have lead : s.isLead = true := by simp [State.isLead, alone]
  have not02 (op : Nat) (h : op ≠ 0x02) {c : Prop} : ¬ (op = 0x02 ∧ c) := fun k => h k.1
  refine ⟨fun b takes len => ⟨fun ok => ?_, fun st k bad => ?_⟩, fun takes => ⟨fun there free => ?_, fun refused => ?_⟩,
    fun y v takes whole view check inst => ?_, fun q hq takes free => ⟨fun one mine => ?_, fun all free' plain => ?_⟩,
    fun q b hq takes len mine => ⟨fun bad => ?_, fun u shape check staged live => ?_⟩, fun m takes check plain => ?_⟩
  · exact completes_staged (v := { s.counted with frw := { s.frw with staged := some (furrowPlanOf b) } }) alone takes rfl
      (State.submit_paid takes rfl) rfl (show 0x11 ≠ 0x03 by decide) (fit_self len) (not02 0x11 (by decide))
      (.inl rfl) ok (State.stageHere_furrowPlan _ _ _ rfl) takes.2.2.1 settled rfl (if_pos rfl) rfl
  · exact completes_stageRefused alone takes rfl
      (State.submit_paid takes rfl) rfl (fit_self len) (not02 0x11 (by decide)) (.inl rfl)
      bad
  · have may : ((s.instance? (bits p.p0 0 4)).isNone || s.cfg.lockCluster) = false := by
      simpa [free, Option.isSome_iff_ne_none] using there
    exact completes_staged (v := { s.counted with cfg := { s.cfg with instS := Table.erase (bits p.p0 0 4) s.cfg.instS } }) alone takes rfl
      (State.submit_holding takes rfl) rfl (show 0x21 ≠ 0x03 by decide) rfl (not02 0x21 (by decide))
      (.inl rfl) (if_neg (Bool.eq_false_iff.1 may)) (State.stageHere_unload _ _ _ rfl) takes.2.2.1 settled rfl
      (if_neg (show ¬ (0x21 == 0x11) = true by decide)) rfl
  · have mayNot : ((s.instance? (bits p.p0 0 4)).isNone || s.cfg.lockCluster) = true := by
      simpa [Option.isSome_eq_false_iff] using refused
    exact completes_stageRefused alone takes rfl (State.submit_holding takes rfl) rfl rfl (not02 0x21 (by decide)) (.inl rfl)
      (if_pos mayNot)
  · subst view
    exact completes_staged (v := { s.counted with cfg := { s.cfg with
          instS := Table.insert (bits p.p0 0 4) (some { y with plan := some ((s.planView (s.read p.p1 p.p2)).plan s.self) }) s.cfg.instS } })
      (b := s.read p.p1 p.p2) alone takes rfl (State.submit_holding takes rfl) rfl (show 0x22 ≠ 0x03 by decide) (State.read_holding s _ p.p1 p.p2) (not02 0x22 (by decide))
      (.inl rfl) (State.stageCheck_plan _ rfl lead whole check) (State.stageHere_plan _ rfl inst) takes.2.2.1 settled rfl
      (if_neg (show ¬ (0x22 == 0x11) = true by decide)) rfl
  · subst hq
    have discard := Packet.with_f5 (p.op 0x02) true
    exact completes_staged (v := s.counted.discardDevice) (b := []) alone takes rfl (State.submit_holding takes (readsPayload_cfgStage s p true)) rfl
      (show 0x02 ≠ 0x03 by decide) rfl (fun h => Bool.noConfusion (discard.symm.trans h.2.1)) (.inr mine)
      (State.stageCheck_discard _ _ rfl discard free (.inl one)) (State.stageHere_discardOne _ _ rfl discard one) takes.2.2.1 settled rfl
      (if_neg (show ¬ (0x02 == 0x11) = true by decide)) rfl
  · exact completes_discardAll alone settled hq takes free all free' plain
  · exact completes_badEntries hq takes len bad
  · exact completes_entries alone settled hq takes len mine shape check staged live
  · exact completes_modelLoad alone settled takes check plain
end

section
/-!
SUPPORT. The end of a schedule (R36, R42, R44): what `stopped` leaves where nothing else ends with it.
-/

namespace Sys2Proof.Machine

/-! ### Registers of a family -/

/-- The registers of a family of fields are put where a test holds: each has its value once. -/
theorem State.foldl_put_if_get {s : State} {l : List Nat} {f : Nat → Field} {test : State → Nat → Bool} {v : Nat}
    (inj : ∀ i j, i ≠ j → (f i).key ≠ (f j).key) (own : ∀ (u u' : State) n, u.get (f n) = u'.get (f n) → test u n = test u' n)
    (nodup : l.Nodup) (n : Nat) :
    (l.foldl (fun (s : State) n => if test s n = true then s.put (f n) v else s) s).get (f n)
      = if n ∈ l ∧ test s n = true then v % 2 ^ (f n).width else s.get (f n) := by
  induction l generalizing s with
  | nil => simp
  | cons m l ih =>
    obtain ⟨fresh, nodup⟩ := List.nodup_cons.1 nodup
    rw [List.foldl_cons, ih nodup]
    by_cases here : n = m
    · subst here
      simp only [fresh, false_and, if_false, List.mem_cons, true_or, true_and]
      split
      · exact State.get_put_same _ _ _
      · rfl
    · have kept : (if test s m = true then s.put (f m) v else s).get (f n) = s.get (f n) := by
        split
        · exact State.get_put_other _ _ (inj n m here)
        · rfl
      simp only [own _ s n kept, kept, List.mem_cons, here, false_or]

theorem State.foldl_put_if_only {s : State} {l : List Nat} {f : Nat → Field} {test : State → Nat → Bool} {v : Nat} {fs : List Field}
    (mem : ∀ n ∈ l, f n ∈ fs) : s.onlyRegs (l.foldl (fun (s : State) n => if test s n = true then s.put (f n) v else s) s) fs :=
  List.foldlRecOn (motive := fun t => s.onlyRegs t fs) _ _ (.refl s fs) fun t h n hn => by
    split
    · exact h.put (mem n hn) _
    · exact h

theorem State.isSet_putBit_other (s : State) {f g : Field} (b : Bool) (h : g.key ≠ f.key) : (s.putBit f b).isSet g = s.isSet g :=
  State.isSet_put_other s _ h

theorem State.isSet_of_get {s t : State} {f : Field} (h : t.get f = s.get f) : t.isSet f = s.isSet f := by
  rw [State.isSet, h, State.isSet]

/-! ### Sequencers rest (R190) -/

/-- The states of the tile sequencers. -/
def seqStates : List Field := (List.range 16).map R.TILE_SEQ_STATUS.STATE

theorem mem_seqStates {n : Nat} (h : n < 16) : R.TILE_SEQ_STATUS.STATE n ∈ seqStates :=
  List.mem_map.2 ⟨n, List.mem_range.2 h, rfl⟩

theorem seqState_key_inj {i j : Nat} (h : i ≠ j) : (R.TILE_SEQ_STATUS.STATE i).key ≠ (R.TILE_SEQ_STATUS.STATE j).key := by
  simp only [Field.key, R.TILE_SEQ_STATUS.STATE]
  omega

theorem State.restTiles_onlyRegs (s : State) : s.onlyRegs s.restTiles seqStates :=
  State.foldl_put_if_only (test := fun s n => [seqArmed, seqHeld, seqDone].contains (s.seqState n))
    fun _ hn => mem_seqStates (List.mem_range.1 hn)

/-- A sequencer that runs no list is IDLE; another goes on. -/
theorem State.restTiles_seqState (s : State) {n : Nat} (h : n < 16) :
    s.restTiles.seqState n = if s.seqState n = seqArmed ∨ s.seqState n = seqHeld ∨ s.seqState n = seqDone then seqIdle
      else s.seqState n := by
  have rests := State.foldl_put_if_get (s := s) (l := List.range 16) (f := R.TILE_SEQ_STATUS.STATE) (v := seqIdle)
    (test := fun s n => [seqArmed, seqHeld, seqDone].contains (s.seqState n)) (fun _ _ => seqState_key_inj)
    (fun u u' n h => by simp only [State.seqState, h]) (List.nodup_range) n
  refine rests.trans ?_
  simp only [List.mem_range, h, true_and, List.contains_iff_mem, List.mem_cons, List.not_mem_nil, or_false]
  rfl

/-! ### The schedule is over -/

theorem State.clearLanes_none {s : State} (h : s.srv.lanes = []) : s.clearLanes = s := by
  rw [State.clearLanes, h, List.foldl_nil]

theorem State.commitIdle_none {s : State} (commits : s.cfg.deviceCommit = []) (lead : s.cfg.lead = none) : s.commitIdle = s := by
  have same : ({ s with cfg := { s.cfg with deviceCommit := [] } } : State) = s := by rw [← commits]
  calc s.commitIdle = ({ s with cfg := { s.cfg with deviceCommit := [] } } : State).decideEarly := by
        rw [State.commitIdle, commits]
        rfl
    _ = s := by rw [same, State.decideEarly, lead]

/-- The registers that say that no schedule runs. -/
def stopFields : List Field :=
  [R.FRW_STATE.STATE, R.FRW_STATE.HEADLAND, R.FRW_STATE.STOP_PENDING, R.FRW_STATE.LATE_SELF, R.FRW_STATE.LATE_GROUP]

/-- FRW.STATE of a schedule that is over. -/
def State.stopRegs (s : State) : State :=
  ((((s.put R.FRW_STATE.STATE frwStopped).putBit R.FRW_STATE.HEADLAND false).putBit R.FRW_STATE.STOP_PENDING false).putBit
    R.FRW_STATE.LATE_SELF false).putBit R.FRW_STATE.LATE_GROUP false

theorem State.stopRegs_onlyRegs (s : State) : s.onlyRegs s.stopRegs stopFields :=
  (((((State.onlyRegs.refl s stopFields).put (by decide) _).put (by decide) _).put (by decide) _).put (by decide) _).put (by decide) _

theorem State.stopRegs_state (s : State) : s.stopRegs.get R.FRW_STATE.STATE = frwStopped := by
  simp only [State.stopRegs, State.putBit]
  rw [State.get_put_other _ _ (by decide), State.get_put_other _ _ (by decide), State.get_put_other _ _ (by decide),
    State.get_put_other _ _ (by decide), State.get_put_same]
  rfl

theorem State.stopRegs_headland (s : State) : s.stopRegs.isSet R.FRW_STATE.HEADLAND = false := by
  simp only [State.stopRegs]
  rw [State.isSet_putBit_other _ _ (by decide), State.isSet_putBit_other _ _ (by decide), State.isSet_putBit_other _ _ (by decide)]
  exact State.isSet_putBit (by decide) false

theorem State.stopRegs_pending (s : State) : s.stopRegs.isSet R.FRW_STATE.STOP_PENDING = false := by
  simp only [State.stopRegs]
  rw [State.isSet_putBit_other _ _ (by decide), State.isSet_putBit_other _ _ (by decide)]
  exact State.isSet_putBit (by decide) false

/-- What a stop leaves of the furrow, and the furrow that a later start begins with. -/
def State.stopFrw (s : State) : Frw :=
  { s.frw with
    stepOpen := false, doneAt := none, stopAt := none, stopMoved := false, resync := none, correcting := false, turned := false
    nextK := if s.frwState == frwArmed then s.frw.nextK else s.furrow + 1 }

/-- From `s` to `t` the schedule has ended, and nothing else: registers, links and the sequences' last tokens follow. -/
structure State.Stops (s t : State) : Prop where
  eq : t = { s with regs := t.regs, frw := s.stopFrw, srv := t.srv, links := t.links }
  regs : s.sameRegs t (stopFields ++ seqStates)
  state : t.frwState = frwStopped
  headland : t.isSet R.FRW_STATE.HEADLAND = false
  pending : t.isSet R.FRW_STATE.STOP_PENDING = false
  seqs : ∀ n, n < 16 → t.seqState n = if s.seqState n = seqArmed ∨ s.seqState n = seqHeld ∨ s.seqState n = seqDone then seqIdle
    else s.seqState n
  lanes : t.srv.lanes = s.srv.lanes
  openLanes : t.srv.openLanes = []

/-- The schedule that is over, before its sequencers rest. -/
def State.stopBase (s : State) : State :=
  { s.stopRegs with
    frw := s.stopFrw
    srv := { s.srv with
      seqs := s.srv.seqs.map fun (e : Nat × Option Seq) => (e.1, e.2.map fun (q : Seq) => { q with lastToken := none })
      openLanes := [], waitCmds := [], farWait := [] } }.dropSends

theorem State.stopped_alone {s : State} (h : s.stopsAlone) : s.stopped = s.stopBase.restTiles := by
  obtain ⟨lanes, commits, lead⟩ := h
  let a : State := { s.stopRegs with
    frw := s.stopFrw
    srv := { s.srv with seqs := s.srv.seqs.map fun (e : Nat × Option Seq) => (e.1, e.2.map fun (q : Seq) => { q with lastToken := none }) } }
  have kept : s.stopBase.restTiles.cfg = s.cfg := (congrArg State.cfg s.stopBase.restTiles_onlyRegs.1 :)
  calc s.stopped = ({ a.clearLanes with srv := { a.clearLanes.srv with openLanes := [], waitCmds := [], farWait := [] } }.dropSends.restTiles).commitIdle :=
        rfl
    _ = s.stopBase.restTiles.commitIdle := by rw [State.clearLanes_none (s := a) lanes]; rfl
    _ = s.stopBase.restTiles := State.commitIdle_none (by rw [kept, commits]) (by rw [kept, lead])

/-- Where no lane is in force and no commit waits, the schedule ends alone. -/
theorem State.stopped_stops {s : State} (h : s.stopsAlone) : s.Stops s.stopped := by
  rw [State.stopped_alone h]
  have rests := s.stopBase.restTiles_onlyRegs
  have base (f : Field) : s.stopBase.get f = s.stopRegs.get f := rfl
  have flag (f : Field) (hf : ∀ g ∈ seqStates, f.key ≠ g.key) : s.stopBase.restTiles.get f = s.stopRegs.get f :=
    (rests.get hf).trans (base f)
  refine ⟨?_, fun f hf => ?_, ?_, ?_, ?_, fun n hn => ?_, (congrArg (fun u => u.srv.lanes) rests.1 :), (congrArg (fun u => u.srv.openLanes) rests.1 :)⟩
  · obtain ⟨r, hr⟩ : ∃ r, s.stopBase.restTiles = { s.stopBase with regs := r } := ⟨_, rests.1⟩
    rw [hr]
    rfl
  · rw [flag f fun g hg => hf g (by simp [hg]), s.stopRegs_onlyRegs.get fun g hg => hf g (by simp [hg])]
  · exact (flag _ (by decide)).trans s.stopRegs_state
  · exact (State.isSet_of_get (flag _ (by decide))).trans s.stopRegs_headland
  · exact (State.isSet_of_get (flag _ (by decide))).trans s.stopRegs_pending
  · have kept : s.stopBase.seqState n = s.seqState n := (base _).trans (s.stopRegs_onlyRegs.get (by
      simp only [stopFields, List.forall_mem_cons, Field.key, R.TILE_SEQ_STATUS.STATE, R.FRW_STATE.STATE, R.FRW_STATE.HEADLAND,
        R.FRW_STATE.STOP_PENDING, R.FRW_STATE.LATE_SELF, R.FRW_STATE.LATE_GROUP]
      simp
      omega))
    rw [State.restTiles_seqState _ hn, kept]

namespace State.Stops

variable {s t : State} (h : s.Stops t)
include h

theorem que : t.que = s.que := (congrArg State.que h.eq :)
theorem mem : t.mem = s.mem := (congrArg State.mem h.eq :)
theorem out : t.out = s.out := (congrArg State.out h.eq :)
theorem frw : t.frw = s.stopFrw := (congrArg State.frw h.eq :)
theorem cfg : t.cfg = s.cfg := (congrArg State.cfg h.eq :)
theorem mrd : t.mrd = s.mrd := (congrArg State.mrd h.eq :)
theorem flt : t.flt = s.flt := (congrArg State.flt h.eq :)
theorem waiting : t.pending = s.pending := (congrArg State.pending h.eq :)

end State.Stops

/-- No packet waits for the start or the stop of the schedule. -/
def State.noWaits (s : State) : State := { s with frw := { s.frw with startTicket := none, stopTicket := none } }

theorem State.noWaits_self {s : State} (start : s.frw.startTicket = none) (stop : s.frw.stopTicket = none) : s.noWaits = s := by
  have frw : ({ s.frw with startTicket := none, stopTicket := none } : Frw) = s.frw := by
    generalize s.frw = f at start stop ⊢
    cases f
    simp only at start stop
    rw [start, stop]
  rw [State.noWaits, frw]

theorem State.endWait_none (s : State) (a : Answer) : s.endWait none a = s := rfl

/-- A schedule that stops at once, in terms of what stops it. -/
theorem State.haltSchedule_eq {s u : State} (halts : (s.inSchedule || s.frwState == frwStopping || s.frwState == frwArmed) = true)
    (drops : (if s.frwState == frwArmed then s else s.dropSteps) = u) :
    s.haltSchedule = ((u.stopped.endWait u.frw.startTicket { status := .cfgConflict }).endWait u.frw.stopTicket { status := .ok }).noWaits := by
  subst drops
  rw [State.haltSchedule, if_pos halts]
  rfl

/-- A schedule that is armed ends at once; no packet waits for it. -/
theorem State.haltSchedule_armed {s : State} (armed : s.frwState = frwArmed) (alone : s.stopsAlone) (start : s.frw.startTicket = none)
    (stop : s.frw.stopTicket = none) : s.haltSchedule = s.stopped := by
  have stops := State.stopped_stops alone
  have halts : (s.inSchedule || s.frwState == frwStopping || s.frwState == frwArmed) = true := by simp [armed]
  rw [State.haltSchedule_eq halts (if_pos (beq_iff_eq.2 armed)), start, stop, State.endWait_none, State.endWait_none]
  exact State.noWaits_self ((congrArg Frw.startTicket stops.frw).trans start) ((congrArg Frw.stopTicket stops.frw).trans stop)

/-! ### The packets of the schedule at a device in no cluster (R37, R41, R42, R44) -/

/-- A device in no cluster has nobody to tell. -/
theorem State.sendAll_others {s : State} (alone : s.alone) (t : State) (b : CtrlBody) : t.sendAll s.others b = t := by
  rw [State.others_alone alone]
  rfl

/-- The schedule is armed for T0. -/
def State.armed (s : State) (t0 k0 : Nat) : State :=
  { s.put R.FRW_STATE.STATE frwArmed with
    mrd := { s.mrd with setTo := [], adopt := none }
    frw := { s.frw with t0 := t0, k0 := k0, turned := false, nextTemplate := 0, fallowRun := 0 } }

/-- With no MERIDIAN_SET waiting, arming refuses none. -/
theorem State.arm_eq {s : State} (noSet : s.mrd.setTo = []) (t0 k0 : Nat) : s.arm t0 k0 = s.armed t0 k0 := by
  have none_waits : s.refuseSets = { s with mrd := { s.mrd with setTo := [], adopt := none } } := by
    rw [State.refuseSets, noSet]
    rfl
  rw [State.arm, none_waits]
  rfl

/-- The schedule is armed for T0, and a packet waits for it. -/
def State.armedFor (s : State) (t0 no : Nat) : State :=
  { s.armed t0 s.frw.nextK with frw := { (s.armed t0 s.frw.nextK).frw with startTicket := some no } }

/-- A device in no cluster arms its own schedule alone. -/
theorem State.startLead_arms {s : State} {T : Ticket} (alone : s.alone) (ready : s.ready = true) (plan : s.frw.active.isSome = true)
    (stopped : s.frwState = frwStopped) (noSet : s.mrd.setTo = []) (inTime : s.now + 100000 ≤ T.packet.p0) :
    s.startLead T = s.armedFor T.packet.p0 T.no := by
  have may : (!s.ready || s.frw.active.isNone || s.frwState != frwStopped) = false := by
    rw [Option.isNone_eq_false_iff.2 plan, ready, stopped]
    rfl
  rw [State.startLead, if_neg (Bool.eq_false_iff.1 may), if_neg (not_lt.2 inTime)]
  simp only [State.sendAll_others alone, State.arm_eq noSet]
  rfl

theorem State.startLead_late {s : State} {T : Ticket} (ready : s.ready = true) (plan : s.frw.active.isSome = true)
    (stopped : s.frwState = frwStopped) (late : T.packet.p0 < s.now + 100000) :
    s.startLead T = s.finishWith T.no .rejDeadline := by
  have may : (!s.ready || s.frw.active.isNone || s.frwState != frwStopped) = false := by
    rw [Option.isNone_eq_false_iff.2 plan, ready, stopped]
    rfl
  rw [State.startLead, if_neg (Bool.eq_false_iff.1 may), if_pos late]

/-- The schedule is to stop, and a packet waits for that. -/
def State.stopsAt (s : State) (k no : Nat) : State :=
  { s.putBit R.FRW_STATE.STOP_PENDING true with frw := { s.frw with stopAt := some k, stopTicket := some no } }

/-- A device in no cluster notes its own stop alone. -/
theorem State.stopLead_notes {s : State} {T : Ticket} (alone : s.alone) (inside : s.inSchedule = true) (noStop : s.frw.stopAt = none)
    (named : T.packet.f4 = false) (ahead : s.furrow < T.packet.p0) : s.stopLead T = s.stopsAt T.packet.p0 T.no := by
  have running : (s.frwState == frwArmed) = false := by
    simp only [State.inSchedule, Bool.or_eq_true, beq_iff_eq] at inside
    rcases inside with h | h <;> simp [h, frwRunning, frwFallow, frwArmed]
  have late : (!T.packet.f4 && decide (T.packet.p0 < s.furrow)) = false := by simp [ahead.le]
  have head : s.stopHeadland (if T.packet.f4 = true then s.furrow else T.packet.p0) = T.packet.p0 := by
    simp [State.stopHeadland, named, not_le.2 ahead]
  have noted : s.stopAll T.packet.p0 = { s.putBit R.FRW_STATE.STOP_PENDING true with frw := { s.frw with stopAt := some T.packet.p0 } } := by
    rw [State.stopAll, State.sendAll_others alone, State.stopAtHeadland, noStop]
  simp only [State.stopLead, running, inside, noStop, late, head, noted]
  rfl

/-- A schedule that is armed stops at once, and the packet completes. -/
theorem State.stopLead_armed {s : State} {T : Ticket} (alone : s.alone) (armed : s.frwState = frwArmed) (noStop : s.frw.stopAt = none)
    (named : T.packet.f4 = true ∨ s.furrow ≤ T.packet.p0) (start : s.frw.startTicket = none) (stop : s.frw.stopTicket = none)
    (ends : s.stopsAlone) : s.stopLead T = s.stopped.finishWith T.no .ok := by
  have late : (!T.packet.f4 && decide (T.packet.p0 < s.furrow)) = false := by
    rcases named with h | h <;> simp [h]
  have may : (!(s.frwState == frwArmed || s.inSchedule) || s.frw.stopAt.isSome) = false := by simp [armed, noStop]
  rw [State.stopLead, if_neg (Bool.eq_false_iff.1 may), if_neg (Bool.eq_false_iff.1 late), if_pos (beq_iff_eq.2 armed)]
  rw [State.sendAll_others alone, State.haltSchedule_armed armed ends start stop]

theorem State.armedFor_state (s : State) (t0 no : Nat) : (s.armedFor t0 no).frwState = frwArmed :=
  State.get_put_same s R.FRW_STATE.STATE frwArmed

theorem State.armedFor_leaves (s : State) (t0 no : Nat) : s.leaves (s.armedFor t0 no) [R.FRW_STATE.STATE] :=
  ⟨rfl, rfl, fun _ hf => State.get_put_other s frwArmed (hf _ (List.mem_singleton.2 rfl))⟩

theorem State.stopsAt_leaves (s : State) (k no : Nat) : s.leaves (s.stopsAt k no) [R.FRW_STATE.STOP_PENDING] :=
  ⟨rfl, rfl, fun _ hf => State.get_put_other s (b2n true) (hf _ (List.mem_singleton.2 rfl))⟩

end Sys2Proof.Machine

open Sys2Proof Sys2Proof.Machine

/-- Settles O18: each packet's branch of the lead, with no other member to tell. -/
theorem schedulePackets : Obligations.SchedulePackets := by
  intro s p alone
  refine ⟨fun takes idle => ?_, fun takes ready plan stopped noSet => ⟨fun inTime => ?_, fun late => ?_⟩,
    fun takes inside noStop named ahead => ?_, fun takes armed noStop named start stop ends => ?_⟩
  · refine completes_submit_open takes rfl (State.submit_holding takes rfl) (if_pos idle) rfl rfl rfl (.inr rfl) rfl ?_
    rw [← State.holding_accepted _ _ _ takes.2.2.1]
    rfl
  · let T := s.nextTicket (p.op 0x12) none none
    have runs : (s.holding T).runHost T = (s.holding T).armedFor p.p0 T.no :=
      State.startLead_arms (s := s.holding T) (T := T) alone ready plan stopped noSet inTime
    have accepted := State.holding_accepted (p.op 0x12) none none takes.2.2.1
    refine completes_submit_open takes rfl (State.submit_holding takes rfl) runs rfl rfl rfl (.inr rfl) rfl
      ⟨State.armedFor_state _ _ _, rfl, by rw [← accepted]; rfl, State.armedFor_leaves (s.holding T) p.p0 T.no⟩
  · exact completes_submit_answer takes rfl rfl (State.startLead_late (T := s.nextTicket (p.op 0x12) none none) ready plan stopped late)
  · let T := s.nextTicket (p.op 0x13) none none
    have runs : (s.holding T).runHost T = (s.holding T).stopsAt p.p0 T.no :=
      State.stopLead_notes (s := s.holding T) (T := T) alone inside noStop named ahead
    have accepted := State.holding_accepted (p.op 0x13) none none takes.2.2.1
    refine completes_submit_open takes rfl (State.submit_holding takes rfl) runs rfl rfl rfl (.inr rfl) rfl
      ⟨rfl, State.isSet_putBit (by decide) true, by rw [← accepted]; rfl, State.stopsAt_leaves (s.holding T) p.p0 T.no⟩
  · let T := s.nextTicket (p.op 0x13) none none
    have stops := State.stopped_stops (s := s.holding T) ends
    have runs : (s.holding T).runHost T = (s.holding T).stopped.finishWith T.no .ok :=
      State.stopLead_armed (s := s.holding T) (T := T) alone armed noStop named start stop ends
    have only : (s.holding T).stopped.que.tickets = [T] := congrArg Que.tickets stops.que
    generalize (s.holding T).stopped = u at stops runs only
    have finished : (s.holding T).runHost T = (u.withTickets []).completed (p.op 0x13) { status := .ok } :=
      runs.trans (State.finish_last _ only rfl)
    have posts := State.Posts.completed (u.withTickets []) (p.op 0x13) { status := .ok }
    exact completes_submit_done takes rfl (State.submit_holding takes rfl) finished rfl stops.waiting
      ⟨(posts.get _ ⟨by decide, .inl (by decide)⟩).trans stops.state,
        (congrArg Frw.nextK (posts.frw.trans stops.frw)).trans (if_pos (beq_iff_eq.2 armed)), posts.tickets, posts.mem.trans stops.mem⟩
end

section
/-!
SUPPORT. The packets of membership and repair at a device in no cluster (R138, R148, R586, R587), and the tickets that the end of a
configuration closes.
-/

namespace Sys2Proof.Machine

/-! ### Operations that only close tickets -/

/-- No packet is open but this one. -/
def State.openOnly (s : State) (T : Ticket) : Prop := ∀ t ∈ s.que.tickets, t = T

theorem State.openOnly.of_tix {s t : State} {T : Ticket} (h : s.openOnly T) (same : t.que.tickets = s.que.tickets) : t.openOnly T := by
  rwa [State.openOnly, same]

theorem State.openOnly.foldl {α : Type} {s : State} {T : Ticket} {f : State → α → State} {l : List α} (h : s.openOnly T)
    (hf : ∀ (s : State) (x : α), s.openOnly T → (f s x).openOnly T) : (l.foldl f s).openOnly T :=
  List.foldlRecOn (motive := fun t => t.openOnly T) _ _ h fun t k x _ => hf t x k

theorem State.openOnly.finish {s : State} {T : Ticket} (h : s.openOnly T) (k : Nat) (a : Answer) : (s.finish k a).openOnly T := by
  have closed : (s.withTickets (s.que.tickets.filter fun u => u.no != k)).openOnly T := fun t ht => h t (List.mem_filter.1 ht).1
  unfold State.finish
  split
  · exact h
  · dsimp only
    split
    · exact closed.of_tix (State.postCq_tix (z := s.withTickets _) rfl)
    · exact closed.of_tix (State.sendCtrl_tix (z := s.withTickets _) rfl)

theorem State.openOnly.retireSeq {s : State} {T : Ticket} (h : s.openOnly T) (id th : Nat) (st : Status) :
    (s.retireSeq id th st).openOnly T := by
  unfold State.retireSeq
  split
  · exact h
  · dsimp only
    split
    · refine State.openOnly.finish ?_ _ _
      exact h.of_tix rfl
    · exact h.of_tix rfl

theorem State.openOnly.closeSeq {s : State} {T : Ticket} (h : s.openOnly T) (id th : Nat) : (s.closeSeq id th).openOnly T := by
  unfold State.closeSeq
  split
  · exact h
  · exact (h.retireSeq id th .cancelled).of_tix rfl

theorem State.openOnly.endInst {s : State} {T : Ticket} (h : s.openOnly T) (i th : Nat) : (s.endInst i th).openOnly T := by
  unfold State.endInst
  extract_lets ids retired closed files handles dropped versions lists _
  have hretired : retired.openOnly T := h.foldl fun _ _ k => k.retireSeq _ _ _
  have hclosed : closed.openOnly T := hretired.foldl fun s id k =>
    (k.closeSeq id th).of_tix (State.closeFile_tix (z := s.closeSeq id th) rfl)
  have hfiles : files.openOnly T := hclosed.foldl fun s x k => by
    split
    · split
      · exact k.of_tix (State.closeFile_tix (z := s) rfl)
      · exact k
    · exact k
  have hhandles : handles.openOnly T := hfiles.foldl fun s x k => by
    split
    · split
      · exact k.of_tix rfl
      · exact k
    · exact k
  have hdropped : dropped.openOnly T := hhandles.foldl fun s x k => by
    split
    · split
      · exact k.of_tix (State.dropHandle_tix (z := s) rfl)
      · exact k
    · exact k
  have hversions : versions.openOnly T := hdropped.foldl fun s x k => by
    have gone : (s.dropVersion i x.id x.ver).openOnly T := k.of_tix (State.dropVersion_tix (z := s) rfl)
    dsimp only
    split
    · exact gone.finish _ _
    · exact gone
  have hlists : lists.openOnly T := hversions.foldl fun s x k => k.of_tix (State.ownFree_tix (z := s) rfl)
  clear_value lists
  exact hlists.of_tix rfl

theorem State.openOnly.endsWhole {s : State} {T : Ticket} (h : s.openOnly T) (th : Nat) (e : Nat × Inst) : (s.endsWhole th e).openOnly T := by
  unfold State.endsWhole
  extract_lets ended zeroed keyless
  have hzeroed : zeroed.openOnly T := by
    unfold zeroed
    split
    · exact (h.endInst e.1 th).of_tix (State.zeroExtents_tix rfl)
    · exact h.endInst e.1 th
  split
  · exact hzeroed.of_tix rfl
  · exact hzeroed.of_tix rfl

theorem State.openOnly.abortCommit {s : State} {T : Ticket} (h : s.openOnly T) (c : LeadCommit) (dev detail : Nat) :
    (s.abortCommit c dev detail).openOnly T := by
  unfold State.abortCommit
  extract_lets told _ unlocked counted
  have htold : told.openOnly T := h.of_tix (State.sendAll_tix rfl)
  have hunlocked : unlocked.openOnly T := htold.of_tix (State.lockSets_tix rfl)
  refine State.openOnly.finish ?_ _ _
  exact hunlocked.of_tix rfl

theorem State.openOnly.emptyCluster {s : State} {T : Ticket} (h : s.openOnly T) (th : Nat) : (s.emptyCluster th).openOnly T := by
  unfold State.emptyCluster
  extract_lets freed _ plain ended cleared _ _ _ _ emptied shown unprotected
  have hfreed : freed.openOnly T := by
    unfold freed
    split
    · exact h.abortCommit _ _ _
    · split
      · exact h.of_tix (State.lockSets_tix rfl)
      · exact h
  have hended : ended.openOnly T := State.openOnly.foldl (s := plain) (hfreed.of_tix rfl) fun s e k => k.endsWhole th e
  have hshown : shown.openOnly T :=
    (hended.of_tix (t := cleared) (State.resetClusterRegs_tix rfl)).of_tix (State.showPlan_tix (z := cleared) rfl)
  have hunprotected : unprotected.openOnly T := hshown.of_tix (State.refreshProt_tix (s := shown) rfl)
  exact hunprotected.of_tix ((State.refreshCfg_tickets _).trans rfl)

/-- What an empty configuration holds. -/
structure State.HoldsNothing (s : State) : Prop where
  insts : s.cfg.instA = []
  plan : s.frw.active = none
  epoch : s.get R.CFG_STATUS.ACTIVE_EPOCH = 0

theorem State.emptyCluster_holdsNothing (s : State) (th : Nat) : (s.emptyCluster th).HoldsNothing := by
  unfold State.emptyCluster
  extract_lets freed _ plain ended cleared _ _ _ _ emptied shown unprotected
  have cfg : shown.refreshProt.cfg = emptied.cfg := by
    unfold State.refreshProt
    split <;> rfl
  have frw : shown.refreshProt.frw = emptied.frw := by
    unfold State.refreshProt
    split <;> rfl
  refine ⟨?_, ?_, ?_⟩
  · rw [State.refreshCfg_cfg]
    exact congrArg Cfg.instA cfg
  · rw [State.refreshCfg_frw]
    exact congrArg Frw.active frw
  · rw [State.refreshCfg_get _ (by decide), State.digest, State.get_put_other _ _ (by decide)]
    exact (State.get_put_other _ _ (by decide)).trans (State.get_put_same _ _ _)

/-! ### CLUSTER_FORM (R148) -/

theorem State.forgetCluster_openOnly {s : State} {T : Ticket} (h : s.openOnly T) : s.forgetCluster.openOnly T :=
  h.of_tix (State.forgetCluster_tix rfl)

theorem State.onlyRegs.cfg {s t : State} {l : List Field} (h : s.onlyRegs t l) : t.cfg = s.cfg := (congrArg State.cfg h.1 :)

theorem State.onlyRegs.frw {s t : State} {l : List Field} (h : s.onlyRegs t l) : t.frw = s.frw := (congrArg State.frw h.1 :)

/-- The column ports that may be shown as doubling a mesh port. -/
def doubledFields : List Field := (List.range 24).map R.LINK_STATUS.DOUBLED

theorem State.markDoubled_onlyRegs (s : State) (c : Places) (id : Nat) : s.onlyRegs (s.markDoubled c id) doubledFields :=
  List.foldlRecOn (motive := fun t => s.onlyRegs t doubledFields) _ _ (.refl s _) fun _ h p hp =>
    h.put (List.mem_map.2 ⟨p, hp, rfl⟩) _

theorem State.openOnly.formHere {s : State} {T : Ticket} (h : s.openOnly T) (l : List FormEntry) (lead : Nat) :
    (s.formHere l lead).openOnly T := by
  unfold State.formHere
  extract_lets c emptied me place placed known _ _ _ _ formed timed
  have hemptied : emptied.openOnly T := State.forgetCluster_openOnly (h.emptyCluster s.now)
  have hplaced : placed.openOnly T := hemptied.of_tix (State.setPlace_tix rfl)
  have hknown : known.openOnly T := hplaced.foldl fun _ _ k => k.of_tix rfl
  have htimed : timed.openOnly T := hknown.of_tix rfl
  cases place with
  | some id => exact htimed.of_tix (State.markDoubled_tix rfl)
  | none => exact htimed

/-- The registers that forming a cluster of one writes behind the device's place. -/
def formFields (id : Nat) : List Field :=
  R.GLB_PEER_EPOCH.EPOCH id :: R.FRW_FURROW_NUM.FURROW_NUM :: R.FRW_START_TIME.START_TIME :: doubledFields

/-- A cluster of this device alone: its place, and what follows it. -/
theorem State.formHere_place (s : State) {e : FormEntry} (own : e.serial = Config.serial) (held : e.spare = false) :
    let placed := (s.emptyCluster s.now).forgetCluster.setPlace (some e.id) true 1 1
    (s.formHere [e] e.id).cfg = placed.cfg ∧ (s.formHere [e] e.id).frw.active = placed.frw.active ∧
      placed.sameRegs (s.formHere [e] e.id) (formFields e.id) := by
  intro taken
  unfold State.formHere
  extract_lets c emptied me place placed known _ _ _ _ formed timed
  have found : [e].find? (fun e => e.serial == Config.serial) = some e := by simp [own]
  have ids : c.ids = [(e.id, e.serial)] := by simp [c, placesOf, held, Table.insert]
  have hplace : place = some e.id := by simp [place, me, found, held]
  have hplaced : placed = taken := by simp [placed, hplace, taken, emptied]
  have hknown : known = taken.put (R.GLB_PEER_EPOCH.EPOCH e.id) 1 := by
    simp only [known, ids, hplaced, List.foldl_cons, List.foldl_nil]
  have timed_cfg : timed.cfg = known.cfg := rfl
  have timed_frw : timed.frw.active = known.frw.active := rfl
  have timed_get (f : Field) (hf : ∀ g ∈ formFields e.id, f.key ≠ g.key) : timed.get f = known.get f := by
    simp only [formFields, List.forall_mem_cons] at hf
    obtain ⟨-, furrow, start, -⟩ := hf
    exact (State.get_put_other _ _ start).trans (State.get_put_other _ _ furrow)
  have doubled := timed.markDoubled_onlyRegs c e.id
  rw [hplace]
  clear_value timed known
  have cfg : known.cfg = taken.cfg := by rw [hknown, State.put_cfg]
  have frw : known.frw = taken.frw := by rw [hknown, State.put_frw]
  have active : (timed.markDoubled c e.id).frw.active = taken.frw.active := by rw [doubled.frw, timed_frw, frw]
  refine ⟨doubled.cfg.trans (timed_cfg.trans cfg), active, fun f hf => ?_⟩
  have timed_f := timed_get f hf
  simp only [formFields, List.forall_mem_cons] at hf
  obtain ⟨epoch, -, -, shown⟩ := hf
  rw [hknown, State.get_put_other _ _ epoch] at timed_f
  exact (doubled.get shown).trans timed_f

/-- The device's own place and what it held before a cluster of one, none of which forming it writes afterwards. -/
def placeFields : List Field := [R.GLB_DEVPOS.ASSIGNED, R.GLB_DEVPOS.LEAD, R.GLB_MEMBERSHIP.EPOCH, R.CFG_STATUS.ACTIVE_EPOCH]

theorem formFields_place {id : Nat} (h : id < 64) : ∀ f ∈ placeFields, ∀ g ∈ formFields id, f.key ≠ g.key := by
  have rest : ∀ f ∈ placeFields, f.key < 0x40000 * 64 ∧ (f.key < 0x200 * 64 ∨ 0x400 * 64 ≤ f.key) ∧
    f.key ≠ R.FRW_FURROW_NUM.FURROW_NUM.key ∧ f.key ≠ R.FRW_START_TIME.START_TIME.key := by decide
  intro f hf
  obtain ⟨below, apart, furrow, start⟩ := rest f hf
  simp only [formFields, List.forall_mem_cons]
  refine ⟨?_, furrow, start, fun g hg => ?_⟩
  · simp only [Field.key, R.GLB_PEER_EPOCH.EPOCH] at apart ⊢
    omega
  · obtain ⟨p, -, rfl⟩ := List.mem_map.1 hg
    simp only [Field.key, R.LINK_STATUS.DOUBLED] at below ⊢
    omega

/-- What the device's own place gives. -/
theorem State.setPlace_regs (s : State) (id : Nat) :
    (s.setPlace (some id) true 1 1).isSet R.GLB_DEVPOS.ASSIGNED = true ∧ (s.setPlace (some id) true 1 1).isSet R.GLB_DEVPOS.LEAD = true ∧
      (s.setPlace (some id) true 1 1).get R.GLB_MEMBERSHIP.EPOCH = 1 ∧
      (s.setPlace (some id) true 1 1).get R.CFG_STATUS.ACTIVE_EPOCH = s.get R.CFG_STATUS.ACTIVE_EPOCH := by
  unfold State.setPlace
  extract_lets placed led shown
  have later (f : Field) (hf : ∀ g ∈ [R.GLB_DEVPOS.SPARE, R.GLB_MEMBER_STATE.STATE, R.GLB_MEMBERSHIP.EPOCH, R.GLB_MEMBERSHIP.ISSUED],
      f.key ≠ g.key) : ((shown.put R.GLB_MEMBERSHIP.EPOCH 1).put R.GLB_MEMBERSHIP.ISSUED 1).get f = led.get f := by
    simp only [List.forall_mem_cons] at hf
    obtain ⟨spare, state, epoch, issued, -⟩ := hf
    rw [State.get_put_other _ _ issued, State.get_put_other _ _ epoch, State.get_put_other _ _ state]
    exact State.get_put_other _ _ spare
  refine ⟨?_, ?_, ?_, ?_⟩
  · rw [State.isSet_of_get (later _ (by decide))]
    exact (State.isSet_putBit_other _ _ (by decide)).trans (State.isSet_putBit (by decide) true)
  · rw [State.isSet_of_get (later _ (by decide))]
    exact State.isSet_putBit (by decide) true
  · rw [State.get_put_other _ _ (by decide), State.get_put_fits _ _ (by decide)]
  · rw [later _ (by decide)]
    refine (State.get_put_other _ _ (by decide)).trans ((State.get_put_other _ _ (by decide)).trans ?_)
    exact (State.get_put_other _ _ (by decide)).trans (State.get_put_other _ _ (by decide))

/-- The registers that show other devices' epochs and doubled ports. -/
def peerFields : List Field :=
  ((List.range 64).map R.GLB_PEER_EPOCH.EPOCH ++ (List.range 64).map R.GLB_PEER_EPOCH.VACANT) ++ doubledFields

theorem State.forgetCluster_holds (s : State) : s.forgetCluster.cfg = s.cfg ∧ s.forgetCluster.frw.active = s.frw.active ∧
    s.sameRegs s.forgetCluster peerFields := by
  unfold State.forgetCluster
  extract_lets epochs doubled
  have hepochs : s.onlyRegs epochs peerFields :=
    List.foldlRecOn (motive := fun t => s.onlyRegs t peerFields) _ _ (.refl s _) fun _ h d hd =>
      (h.put (List.mem_append_left _ (List.mem_append_left _ (List.mem_map.2 ⟨d, hd, rfl⟩))) _).put
        (List.mem_append_left _ (List.mem_append_right _ (List.mem_map.2 ⟨d, hd, rfl⟩))) _
  have hdoubled : s.onlyRegs doubled peerFields :=
    List.foldlRecOn (motive := fun t => s.onlyRegs t peerFields) _ _ hepochs fun _ h d hd =>
      h.put (List.mem_append_right _ (List.mem_map.2 ⟨d, hd, rfl⟩)) _
  clear_value doubled
  exact ⟨hdoubled.cfg, (congrArg Frw.active hdoubled.frw :), fun f hf => hdoubled.get hf⟩

theorem activeEpoch_notPeer : ∀ g ∈ peerFields, R.CFG_STATUS.ACTIVE_EPOCH.key ≠ g.key := by
  intro g hg
  simp only [peerFields, List.mem_append, doubledFields, List.mem_map] at hg
  simp only [Field.key, R.CFG_STATUS.ACTIVE_EPOCH]
  obtain (⟨d, hd, rfl⟩ | ⟨d, hd, rfl⟩) | ⟨d, hd, rfl⟩ := hg
  · have := List.mem_range.1 hd
    simp only [R.GLB_PEER_EPOCH.EPOCH]
    omega
  · have := List.mem_range.1 hd
    simp only [R.GLB_PEER_EPOCH.VACANT]
    omega
  · simp only [R.LINK_STATUS.DOUBLED]
    omega

theorem State.HoldsNothing.of_same {s t : State} (h : s.HoldsNothing) (cfg : t.cfg = s.cfg) (active : t.frw.active = s.frw.active)
    (epoch : t.get R.CFG_STATUS.ACTIVE_EPOCH = s.get R.CFG_STATUS.ACTIVE_EPOCH) : t.HoldsNothing :=
  ⟨by rw [cfg, h.insts], by rw [active, h.plan], by rw [epoch, h.epoch]⟩

theorem State.setPlace_holds (s : State) (place : Option Nat) (lead : Bool) (epoch issued : Nat) :
    (s.setPlace place lead epoch issued).cfg = s.cfg ∧ (s.setPlace place lead epoch issued).frw = s.frw := ⟨rfl, rfl⟩

/-- A cluster of this device alone: what it holds once it is formed. -/
theorem State.formHere_alone (s : State) {e : FormEntry} (own : e.serial = Config.serial) (held : e.spare = false) (id : e.id < 64) :
    (s.formHere [e] e.id).HoldsNothing ∧ (s.formHere [e] e.id).assigned = true ∧
      (s.formHere [e] e.id).isSet R.GLB_DEVPOS.LEAD = true ∧ (s.formHere [e] e.id).get R.GLB_MEMBERSHIP.EPOCH = 1 := by
  have unshown := formFields_place id
  have empty := s.emptyCluster_holdsNothing s.now
  obtain ⟨cfg, active, same⟩ := s.formHere_place own held
  generalize s.emptyCluster s.now = gone at *
  obtain ⟨forgotCfg, forgotActive, forgotRegs⟩ := gone.forgetCluster_holds
  have forgot := empty.of_same forgotCfg forgotActive (forgotRegs _ activeEpoch_notPeer)
  generalize gone.forgetCluster = away at *
  obtain ⟨placedCfg, placedFrw⟩ := away.setPlace_holds (some e.id) true 1 1
  obtain ⟨assigned, lead, epoch, active0⟩ := away.setPlace_regs e.id
  have placed := forgot.of_same placedCfg (congrArg Frw.active placedFrw) active0
  refine ⟨placed.of_same cfg active (same _ (unshown _ (by decide))), ?_, ?_, ?_⟩
  · rw [State.assigned, State.isSet_of_get (same _ (unshown _ (by decide))), assigned]
  · rw [State.isSet_of_get (same _ (unshown _ (by decide))), lead]
  · rw [same _ (unshown _ (by decide)), epoch]

/-- The final completion of the only packet that may be open. -/
theorem State.openOnly.finish_posts {u : State} {T : Ticket} (h : u.openOnly T) (o : T.origin = .host T.packet.ring) (a : Answer) :
    (u.withTickets []).Posts (u.finish T.no a) := by
  unfold State.finish
  split
  next shut =>
    have none_open : u.que.tickets = [] := List.eq_nil_iff_forall_not_mem.2 fun t ht => by
      have := List.find?_eq_none.1 shut t ht
      rw [h t ht, beq_self_eq_true] at this
      exact this rfl
    rw [State.withTickets_self none_open]
    exact .refl u
  next t found =>
    obtain rfl := h t (List.mem_of_find?_eq_some found)
    have closed : u.que.tickets.filter (fun v => v.no != t.no) = [] :=
      List.filter_eq_nil_iff.2 fun v hv => by simp [h v hv]
    rw [closed, o]
    exact .postCq (u.withTickets []) _ _

theorem bits_lt (v lo w : Nat) : bits v lo w < 2 ^ w := Nat.mod_lt _ (by positivity)

theorem formEntries_id {b : Bytes} {e : FormEntry} (h : e ∈ formEntries b) : e.id < 64 := by
  obtain ⟨i, -, rfl⟩ := List.mem_map.1 h
  have pos := bits_lt (rd b (16 * i + 8) 1) 0 4
  have group := bits_lt (rd b (16 * i + 8) 1) 4 2
  simp only [FormEntry.id]
  omega

/-- CLUSTER_FORM of this device alone. -/
theorem State.formLead_alone {s : State} {T : Ticket} {b : Bytes} {e : FormEntry} (payload : T.payload = some b)
    (whole : b.length % 16 = 0) (entry : formEntries b = [e]) (clean : e.clean = true) (held : e.spare = false)
    (own : e.serial = Config.serial) (free : s.formConflict [e] = false) :
    s.formLead T = (s.formHere [e] e.id).finish T.no { status := .ok } := by
  have heard : s.unheard [e] = none := by simp [State.unheard, own]
  have place : (placesOf [e]).idOf Config.serial = some e.id := by simp [placesOf, Places.idOf, held, own, Table.insert]
  have single (n : Nat) : [n].eraseDups = [n] := by rw [List.eraseDups_cons]; rfl
  unfold State.formLead
  simp only [payload, Option.getD_some, entry, heard, place, whole, free]
  simp only [held, clean, own, List.filter_cons, List.map_cons, List.all_cons, List.any_cons]
  rw [if_neg (by simp [single])]
  split <;> simp

/-! ### REJOIN of a device (R586) -/

theorem State.withTickets_flt (s : State) (l : List Ticket) : (s.withTickets l).flt = s.flt := rfl

theorem State.portUp_withTickets (s : State) (l : List Ticket) (p : Nat) : (s.withTickets l).portUp p = s.portUp p := rfl

/-- The device that REJOIN names is asked on the port it is heard on. -/
def State.asked (s : State) (T : Ticket) (h : Heard) : State :=
  (s.withTickets [{ T with note := 1, awaiting := T.awaiting ++ [(64, s.flt.nextMsg)] }]).sendPort (some h.port) h.device
    (.fwdCopy { T.packet with p3 := 0, p4 := 1 } s.clusterCopy)

theorem State.rejoinLead_asks {s : State} {T : Ticket} {h : Heard} (only : s.que.tickets = [T]) (another : T.packet.p0 ≠ Config.serial)
    (heard : Table.get none T.packet.p0 s.flt.heard = some h) (up : s.portUp h.port = true) :
    s.rejoinLead T = s.asked T h := by
  have noted := State.mapTicket_only (s := s) (t := T) (fun t => { t with note := 1 }) only
  have waits := State.mapTicket_only (s := s.withTickets [{ T with note := 1 }]) (t := { T with note := 1 })
    (fun t => { t with awaiting := t.awaiting ++ [(64, s.flt.nextMsg)] }) rfl
  rw [State.rejoinLead, if_neg (by simpa using another), heard]
  dsimp only
  rw [noted, State.sendJoin]
  simp only [State.withTickets_flt, heard]
  rw [if_neg (by rw [State.portUp_withTickets, up]; decide)]
  exact congrArg (fun u : State => u.sendPort (some h.port) h.device (.fwdCopy { T.packet with p3 := 0, p4 := 1 } u.clusterCopy)) waits

theorem State.rejoinLead_unheard {s : State} {T : Ticket} (another : T.packet.p0 ≠ Config.serial)
    (unheard : Table.get none T.packet.p0 s.flt.heard = none) : s.rejoinLead T = s.finishWith T.no .failDevice 5 := by
  rw [State.rejoinLead, if_neg (by simpa using another), unheard]

/-- What is sent on a port is told. -/
theorem State.sendPort_told {s : State} {p dst : Nat} {b : CtrlBody} (alive : s.flt.dead = false) :
    (s.sendPort (some p) dst b).told dst b := by
  simp only [State.sendPort, alive]
  exact ⟨_, State.sendFragments_sends s p ⟨s.self, dst, s.flt.nextMsg, s.get R.GLB_MEMBERSHIP.EPOCH, b⟩, rfl, rfl⟩

/-! ### REJOIN of an engine (R587) -/

theorem State.rejoinEngine_begins {s : State} {no : Nat} {p : Packet} (out : ∀ l, l < 8 →
      bits (s.get (R.TILE_ENGINE_MAP.PHYS (bits p.p2 8 4))) (4 * l) 4 ≠ bits p.p2 12 4)
    (spare : s.get (R.TILE_ENGINE_MAP.SPARE (bits p.p2 8 4)) = 0xF) (bist : (s.tile (bits p.p2 8 4)).bist = none)
    (regain : (s.tile (bits p.p2 8 4)).regain = none) :
    s.rejoinEngine no p = s.modTile (bits p.p2 8 4) fun x => { x with bist := some (bits p.p2 12 4, no) } := by
  have unmapped : ((List.range 8).any fun l => bits (s.get (R.TILE_ENGINE_MAP.PHYS (bits p.p2 8 4))) (4 * l) 4 == bits p.p2 12 4) = false :=
    List.any_eq_false.2 fun l hl => by simpa using out l (List.mem_range.1 hl)
  simp [State.rejoinEngine, unmapped, spare, bist, regain]

/-! ### RESET_PARTITION (R138) -/

theorem State.resetLead_holds {s : State} {T : Ticket} (here : bits T.packet.p0 0 6 = s.self)
    (unused : s.users s.self (bits T.packet.p0 8 4) = []) : s.resetLead T none = s.beginHold (bits T.packet.p0 8 4) T.no := by
  simp [State.resetLead, here, unused]

theorem State.modTile_tile (s : State) (n : Nat) (f : Tile → Tile) : (s.modTile n f).tile n = f (s.tile n) :=
  Table.get_set_same _ _ _ _

theorem State.beginHold_granary (s : State) (n no : Nat) : ((s.beginHold n no).tile n).granary = [] :=
  congrArg Tile.granary (State.modTile_tile (s.wrapAdd _ _) n fun t => { t with granary := [] })

end Sys2Proof.Machine

open Sys2Proof Sys2Proof.Machine

/-- Settles O17: forming a cluster closes at most the packet itself, and the others wait for what they began. -/
theorem membershipPackets : Obligations.MembershipPackets := by
  intro s p q alone
  refine ⟨fun b e hq takes len whole entry clean held own free => ?_, fun h hq takes another heard up => ?_,
    fun hq takes another unheard => ?_, fun n e hq takes here hn he out spare bist regain => ?_, fun n hq takes here hn unused => ?_⟩
  · subst hq
    let T := s.nextTicket (p.op 0x05) (some (fit p.payloadLen b)) none
    have payload : T.payload = some b := congrArg some (fit_self len)
    have only : (s.holding T).openOnly T := fun t ht => List.mem_singleton.1 ht
    have formed := only.formHere [e] e.id
    have kept : (State.formHere (s.holding T) [e] e.id).pending = s.pending := (State.formHere_kept (.refl _)).pending
    obtain ⟨nothing, assigned, lead, epoch⟩ := (s.holding T).formHere_alone own held (formEntries_id (entry ▸ List.mem_singleton.2 rfl))
    have runs : (s.holding T).runHost T = ((s.holding T).formHere [e] e.id).finish T.no { status := .ok } :=
      State.formLead_alone payload whole entry clean held own free
    have posts := formed.finish_posts rfl { status := .ok }
    rw [← runs] at posts
    generalize (s.holding T).formHere [e] e.id = u at nothing assigned lead epoch kept posts
    refine completes_submit takes rfl (State.submit_paid takes rfl) (State.settle_idle posts.tickets) (posts.pending.trans kept)
      ⟨(posts.isSet ⟨by decide, .inl (by decide)⟩).trans assigned, (posts.isSet ⟨by decide, .inl (by decide)⟩).trans lead,
        (posts.get _ ⟨by decide, .inl (by decide)⟩).trans epoch, (posts.get _ ⟨by decide, .inl (by decide)⟩).trans nothing.epoch,
        (congrArg Cfg.instA posts.cfg).trans nothing.insts, (congrArg Frw.active posts.frw).trans nothing.plan, posts.tickets⟩
  · subst hq
    let T := s.nextTicket ((p.op 0x07).with_ 5 false) none none
    have unflagged : ¬((p.op 0x07).with_ 5 false).f5 = true := by
      rw [Packet.with_f5]
      decide
    have unpaid : readsPayload s ((p.op 0x07).with_ 5 false) = false :=
      readsPayload_of_spec (s := s) (p := (p.op 0x07).with_ 5 false) (if_neg unflagged)
    have runs : (s.holding T).runHost T = (s.holding T).asked T h :=
      (if_neg unflagged).trans (State.rejoinLead_asks (s := s.holding T) (T := T) rfl another heard up)
    have sends : ((s.holding T).withTickets [{ T with note := 1, awaiting := T.awaiting ++ [(64, s.flt.nextMsg)] }]).onlySends
        ((s.holding T).asked T h) := State.sendPort_onlySends _ _ _ _
    have told : ((s.holding T).asked T h).told h.device (.fwdCopy { T.packet with p3 := 0, p4 := 1 } s.clusterCopy) :=
      State.sendPort_told (State.dead_of_alive takes.1)
    generalize (s.holding T).asked T h = u at runs sends told
    exact completes_submit_open takes rfl (State.submit_holding takes unpaid) runs (congrArg Que.tickets sends.que) rfl rfl
      (.inr rfl) sends.pending ⟨congrArg Que.tickets sends.que, told, (congrArg State.cfg sends :), (congrArg State.frw sends :), sends.mem⟩
  · subst hq
    have unflagged : ¬((p.op 0x07).with_ 5 false).f5 = true := by
      rw [Packet.with_f5]
      decide
    have unpaid : readsPayload s ((p.op 0x07).with_ 5 false) = false :=
      readsPayload_of_spec (s := s) (p := (p.op 0x07).with_ 5 false) (if_neg unflagged)
    exact completes_submit_answer takes rfl unpaid ((if_neg unflagged).trans
      (State.rejoinLead_unheard (T := s.nextTicket ((p.op 0x07).with_ 5 false) none none) another unheard))
  · subst hq hn he
    let T := s.nextTicket ((p.op 0x07).with_ 5 true) none none
    have flagged := Packet.with_f5 (p.op 0x07) true
    have unpaid : readsPayload s ((p.op 0x07).with_ 5 true) = false :=
      readsPayload_of_spec (s := s) (p := (p.op 0x07).with_ 5 true) (if_pos flagged)
    have runs : (s.holding T).runHost T
        = (s.holding T).modTile (bits p.p2 8 4) fun x => { x with bist := some (bits p.p2 12 4, T.no) } :=
      (if_pos flagged).trans ((if_pos (beq_iff_eq.2 here)).trans
        (State.rejoinEngine_begins (s := s.holding T) (no := T.no) (p := T.packet) out spare bist regain))
    have accepted := State.holding_accepted ((p.op 0x07).with_ 5 true) none none takes.2.2.1
    refine completes_submit_open takes rfl (State.submit_holding takes unpaid) runs rfl rfl rfl (.inr rfl) rfl ?_
    rw [← accepted]
    rfl
  · subst hq hn
    let T := s.nextTicket (p.op 0x08) none none
    have runs : (s.holding T).runHost T = (s.holding T).beginHold (bits p.p0 8 4) T.no :=
      State.resetLead_holds (s := s.holding T) (T := T) here unused
    exact completes_submit_open takes rfl (State.submit_holding takes rfl) runs rfl rfl rfl (.inr rfl) rfl
      ⟨rfl, State.beginHold_granary _ _ _, rfl, State.sameRegs_put (State.sameRegs_refl s _) (List.mem_singleton.2 rfl) _⟩
end

section
/-!
SUPPORT. What software may ask of a sequencer and of an instance's health (R189, R190, R194, R195, R577).
-/

namespace Sys2Proof.Machine

theorem State.modTile_tile_other (s : State) {m n : Nat} (f : Tile → Tile) (h : m ≠ n) : (s.modTile n f).tile m = s.tile m :=
  Table.get_set_other _ _ _ h

theorem State.onlyRegs.tiles {s t : State} {l : List Field} (h : s.onlyRegs t l) : t.tiles = s.tiles := (congrArg State.tiles h.1 :)

/-- The registers that GO of a direct list writes. -/
def goFields (n : Nat) : List Field :=
  [R.TILE_SEQ_STATUS.STATE n, R.TILE_SEQ_STATUS.LIST_INDEX n, R.TILE_SEQ_STATUS.FAILED n, R.TILE_SEQ_STATUS.ABANDONED n]

/-- At index 0, not failed, not abandoned. -/
def State.goBits (s : State) (n : Nat) : State :=
  ((s.put (R.TILE_SEQ_STATUS.LIST_INDEX n) 0).putBit (R.TILE_SEQ_STATUS.FAILED n) false).putBit (R.TILE_SEQ_STATUS.ABANDONED n) false

/-- The registers as GO leaves them: in DIRECT, and as above. -/
def State.goRegs (s : State) (n : Nat) : State := (s.goBits n).setSeq n seqDirect

theorem State.goBits_onlyRegs (s : State) (n : Nat) : s.onlyRegs (s.goBits n) (goFields n) :=
  (((State.onlyRegs.refl s _).put (by simp [goFields]) _).put (by simp [goFields]) _).put (by simp [goFields]) _

theorem State.goRegs_onlyRegs (s : State) (n : Nat) : s.onlyRegs (s.goRegs n) (goFields n) :=
  (s.goBits_onlyRegs n).put (by simp [goFields]) _

theorem State.goRegs_seqState (s : State) (n : Nat) : (s.goRegs n).seqState n = seqDirect :=
  State.get_put_fits _ _ (by decide : seqDirect < 2 ^ 3)

theorem State.goRegs_abandoned (s : State) (n : Nat) : (s.goRegs n).isSet (R.TILE_SEQ_STATUS.ABANDONED n) = false :=
  (State.isSet_put_other _ _ (by simp [Field.key, R.TILE_SEQ_STATUS.ABANDONED, R.TILE_SEQ_STATUS.STATE])).trans
    (State.isSet_putBit Nat.one_pos false)

theorem State.goRegs_failed (s : State) (n : Nat) : (s.goRegs n).isSet (R.TILE_SEQ_STATUS.FAILED n) = false :=
  (State.isSet_put_other _ _ (by simp [Field.key, R.TILE_SEQ_STATUS.FAILED, R.TILE_SEQ_STATUS.STATE])).trans
    ((State.isSet_putBit_other _ _ (by simp [Field.key, R.TILE_SEQ_STATUS.FAILED, R.TILE_SEQ_STATUS.ABANDONED])).trans
      (State.isSet_putBit Nat.one_pos false))

theorem State.goRegs_listIndex (s : State) (n : Nat) : (s.goRegs n).listIndex n = 0 :=
  (State.get_put_other _ _ (by simp [Field.key, R.TILE_SEQ_STATUS.LIST_INDEX, R.TILE_SEQ_STATUS.STATE])).trans
    ((State.get_put_other _ _ (by simp [Field.key, R.TILE_SEQ_STATUS.LIST_INDEX, R.TILE_SEQ_STATUS.ABANDONED])).trans
      ((State.get_put_other _ _ (by simp [Field.key, R.TILE_SEQ_STATUS.LIST_INDEX, R.TILE_SEQ_STATUS.FAILED])).trans
        (State.get_put_fits _ _ (by simp))))

theorem State.goBits_now (s : State) (n : Nat) : (s.goBits n).now = s.now :=
  (s.goBits_onlyRegs n).get fun g hg => by
    simp only [goFields, List.mem_cons, List.not_mem_nil, or_false] at hg
    obtain rfl | rfl | rfl | rfl := hg <;>
      simp only [Field.key, R.MRD_TIME.TIME, R.TILE_SEQ_STATUS.STATE, R.TILE_SEQ_STATUS.LIST_INDEX, R.TILE_SEQ_STATUS.FAILED,
        R.TILE_SEQ_STATUS.ABANDONED] <;> omega

/-- GO on an idle sequencer outside SERVICE, with a list in the control cores' SRAM. -/
theorem State.directGo_runs {s : State} {n : Nat} (mode : s.get (R.TILE_SEQ_CTRL.MODE n) ≠ 0) (idle : s.seqState n = seqIdle)
    (free : n ∉ s.flt.heldParts) (count : 0 < s.get (R.TILE_DIRECT_LIST.COUNT n)) (low : sramBase ≤ s.get (R.TILE_DIRECT_LIST.ADDR n) * 64)
    (high : s.get (R.TILE_DIRECT_LIST.ADDR n) * 64 + 64 * s.get (R.TILE_DIRECT_LIST.COUNT n) ≤ sramBase + 0x1000000) :
    s.directGo n = (s.goRegs n).modTile n fun t => { t with
      inst := none, goTime := s.now, waiting := false
      list := (List.range (s.get (R.TILE_DIRECT_LIST.COUNT n))).map fun i => s.read (s.get (R.TILE_DIRECT_LIST.ADDR n) * 64 + 64 * i) 64 } := by
  rw [State.directGo, if_neg (by simp [mode, idle, free]), if_neg (by simp; omega), if_neg (by simp [low, high])]
  rw [← s.goBits_now n]
  rfl

end Sys2Proof.Machine

open Sys2Proof Sys2Proof.Machine

/-- Settles O21: each control is one register write or one tile's change, under its condition. -/
theorem softwareControls : Obligations.SoftwareControls := by
  refine ⟨fun s n m alive _ hm => ⟨fun may => ?_, fun must => ?_⟩, fun s n alive _ mode idle free count low high => ?_,
    fun s n e alive _ he => ⟨fun single => ?_, fun pair => ?_⟩, fun s i alive hi => ⟨fun lead degraded whole => ?_, fun other => ?_⟩⟩
  · have may' : (m % 4 == 0 || s.idle || (s.usedBy s.cfg.instA n).isEmpty) = true := by
      simpa [Nat.mod_eq_of_lt hm, or_assoc] using may
    exact completes_whenAlive (f := (State.writeMode · n m)) alive rfl (if_pos may') rfl
      ⟨rfl, State.get_put_fits _ _ hm⟩
  · have must' : ¬(m % 4 == 0 || s.idle || (s.usedBy s.cfg.instA n).isEmpty) = true := by
      simpa [Nat.mod_eq_of_lt hm, or_assoc] using must
    exact completes_whenAlive (f := (State.writeMode · n m)) alive rfl (if_neg must') rfl rfl
  · have regs := s.goRegs_onlyRegs n
    have shows (g : Tile → Tile) (f : Field) : ((s.goRegs n).modTile n g).get f = (s.goRegs n).get f := State.get_of_regs rfl f
    refine completes_whenAlive (f := (State.directGo · n)) alive rfl (State.directGo_runs mode idle free count low high) regs.pending
      ⟨(shows _ _).trans (s.goRegs_seqState n), (shows _ _).trans (s.goRegs_listIndex n),
        (State.isSet_of_get (shows _ _)).trans (s.goRegs_failed n), (State.isSet_of_get (shows _ _)).trans (s.goRegs_abandoned n),
        ?_, ?_, fun m hm => ?_, regs.leaves.1, regs.leaves.2.1, fun f hf => (shows _ f).trans (regs.get hf)⟩
    · rw [State.modTile_tile]
    · rw [State.modTile_tile]
    · rw [State.modTile_tile_other _ _ hm]
      exact congrArg (Table.get Tile.reset m) regs.tiles
  · have asks : s.requestSpare n e
        = s.modTile n (fun x => { x with spareReq := (List.range 8).filter fun k => k == e || x.spareReq.contains k }) := by
      rw [State.requestSpare, State.wantSpare, single, Nat.mod_eq_of_lt he]
      rfl
    refine completes_whenAlive (f := (State.requestSpare · n e)) alive rfl asks rfl ⟨rfl, fun k hk => ?_⟩
    · rw [State.modTile_tile]
      simp [hk]
  · exact completes_whenAlive (f := (State.requestSpare · n e)) alive rfl (if_pos pair) rfl rfl
  · have clears : s.clearHealth (i % 16) = (s.put (R.GLB_INST_HEALTH.STATE i) healthRunning).put (R.GLB_INST_HEALTH.FAIL_RUN i) 0 := by
      rw [Nat.mod_eq_of_lt hi, State.clearHealth, if_pos (by simp [lead, degraded, whole])]
    have apart : (R.GLB_INST_HEALTH.STATE i).key ≠ (R.GLB_INST_HEALTH.FAIL_RUN i).key := by
      simp [Field.key, R.GLB_INST_HEALTH.STATE, R.GLB_INST_HEALTH.FAIL_RUN]
    exact completes_whenAlive (f := (State.clearHealth · (i % 16))) alive rfl clears rfl
      ⟨(State.get_put_other _ _ apart).trans (State.get_put_fits _ _ (by decide : healthRunning < 2 ^ 2)), State.get_put_fits _ _ (by simp), rfl, rfl,
        State.sameRegs_put (State.sameRegs_put (State.sameRegs_refl s _) (by simp) _) (by simp) _⟩
  · refine completes_whenAlive (f := (State.clearHealth · (i % 16))) alive rfl (if_neg fun h => other ?_) rfl rfl
    simpa [Nat.mod_eq_of_lt hi, and_assoc] using h
end

section
/-!
SUPPORT. Atomic operations through a control core's window (R382, R383): what one leaves in memory and in the window's registers,
and what each computes.
-/

namespace Sys2Proof.Machine

/-! ### What an operation leaves -/

theorem State.useLine_out (s : State) (n line : Nat) (write : Bool) : (s.useLine n line write).out = s.out := by
  unfold State.useLine
  dsimp only
  split <;> rfl

/-- What an operation stores, or the refusal it counts. -/
def State.atomStore (s : State) (n addr len : Nat) (r : AtomResult) : State :=
  match r.cause with
  | none => ((s.writeNat addr len r.new).useLine n (addr / 64 * 64) true).wrapAdd (R.TSTORE_GRANARY_EVENTS.ATOMICS n)
  | some k => s.bump (if k == 4 then R.TSTORE_ATOM_EVENTS.REF_UNDERFLOW n else R.TSTORE_ATOM_EVENTS.REF_OVERFLOW n)

theorem State.atomStore_none {r : AtomResult} (s : State) (n addr len : Nat) (h : r.cause = none) :
    s.atomStore n addr len r
      = ((s.writeNat addr len r.new).useLine n (addr / 64 * 64) true).wrapAdd (R.TSTORE_GRANARY_EVENTS.ATOMICS n) := by
  rw [State.atomStore, h]

theorem State.atomStore_some {r : AtomResult} {k : Nat} (s : State) (n addr len : Nat) (h : r.cause = some k) :
    s.atomStore n addr len r = s.bump (if k == 4 then R.TSTORE_ATOM_EVENTS.REF_UNDERFLOW n else R.TSTORE_ATOM_EVENTS.REF_OVERFLOW n) := by
  rw [State.atomStore, h]

theorem State.atomStore_out (s : State) (n addr len : Nat) (r : AtomResult) : (s.atomStore n addr len r).out = s.out := by
  cases h : r.cause with
  | none => rw [State.atomStore_none s n addr len h]; exact State.useLine_out _ _ _ _
  | some k => rw [State.atomStore_some s n addr len h]; rfl

/-- Memory after an operation: the new value where it is not refused, and nothing else. -/
theorem State.atomStore_mem (s : State) (n addr len : Nat) (r : AtomResult) :
    (s.atomStore n addr len r).mem = if r.cause = none then (s.writeNat addr len r.new).mem else s.mem := by
  cases h : r.cause with
  | none => rw [State.atomStore_none s n addr len h, if_pos rfl]; exact State.useLine_same_mem (z := s.writeNat addr len r.new) rfl
  | some k => rw [State.atomStore_some s n addr len h, if_neg (Option.some_ne_none k)]; rfl

theorem State.atomStore_pending (s : State) (n addr len : Nat) (r : AtomResult) : (s.atomStore n addr len r).pending = s.pending := by
  cases h : r.cause with
  | none => rw [State.atomStore_none s n addr len h]; exact (State.useLine_kept (z := s.writeNat addr len r.new) (.refl _)).pending
  | some k => rw [State.atomStore_some s n addr len h]; rfl

theorem length_leBytes (n v : Nat) : (leBytes n v).length = n := by
  induction n generalizing v with
  | zero => rfl
  | succ n ih => simp only [leBytes, List.length_cons, ih]

/-! ### What the window shows -/

/-- The fields of a window's status lie apart from each other and from its result. -/
theorem State.atomStatus_shows (s : State) (n c old : Nat) (r : AtomResult) :
    (s.atomStatus n c old r).get (R.TSTORE_ATOM_RESULT.VALUE n c) = old % 2 ^ 64 ∧
      (s.atomStatus n c old r).isSet (R.TSTORE_ATOM_STATUS.DONE n c) = true ∧
      (s.atomStatus n c old r).isSet (R.TSTORE_ATOM_STATUS.ZERO n c) = r.zero ∧
      (s.atomStatus n c old r).isSet (R.TSTORE_ATOM_STATUS.WAS_ZERO n c) = r.wasZero ∧
      (s.atomStatus n c old r).isSet (R.TSTORE_ATOM_STATUS.SUCCESS n c) = r.success ∧
      (s.atomStatus n c old r).isSet (R.TSTORE_ATOM_STATUS.REFUSED n c) = r.cause.isSome := by
  have bit (b : Bool) : (b2n b % 2 ^ 1 == 1) = b := by cases b <;> rfl
  have apart : (0x2000220 + 0x10000 * n + 0x40 * c) * 64 ≠ (0x2000228 + 0x10000 * n + 0x40 * c) * 64 := by omega
  refine ⟨?_, ?_, ?_, ?_, ?_, ?_⟩ <;>
    simp (disch := (simp only [Field.key, R.TSTORE_ATOM_RESULT.VALUE, R.TSTORE_ATOM_STATUS.DONE, R.TSTORE_ATOM_STATUS.ZERO,
      R.TSTORE_ATOM_STATUS.WAS_ZERO, R.TSTORE_ATOM_STATUS.SUCCESS, R.TSTORE_ATOM_STATUS.REFUSED, R.TSTORE_ATOM_STATUS.CAUSE]; omega)) only
      [State.atomStatus, State.isSet, State.putBit, State.get_put_other, State.get_put_same]
  · rfl
  all_goals exact bit _

/-! ### An operation on a word whose line is present -/

/-- A window's operation on an aligned word of a line present in its tile's Granary is performed at once. -/
theorem State.atomCommand_performs {s : State} {n c op h : Nat} {wide : Bool}
    (free : s.isSet (R.TSTORE_ATOM_STATUS.DONE n c) = true) (home : s.cacheHome (s.get (R.TSTORE_ATOM_ADDR.ADDR n c)) = some n)
    (aligned : s.get (R.TSTORE_ATOM_ADDR.ADDR n c) % (if wide then 8 else 4) = 0) (narrow : wide = true → op ≤ 6)
    (present : (s.gset n (setOf (s.get (R.TSTORE_ATOM_ADDR.ADDR n c) / 64 * 64))).find (s.get (R.TSTORE_ATOM_ADDR.ADDR n c) / 64 * 64) = some h) :
    s.atomCommand (.window n c wide) op =
      (s.wrapAdd (R.TSTORE_GRANARY_COUNTS.HITS n)).atomPerform n true c op (s.get (R.TSTORE_ATOM_ADDR.ADDR n c)) wide
        (s.get (R.TSTORE_ATOM_DATA.VALUE n c)) (s.get (R.TSTORE_ATOM_CMP.VALUE n c)) := by
  have hit : s.lookup n (s.get (R.TSTORE_ATOM_ADDR.ADDR n c) / 64 * 64) = (s.wrapAdd (R.TSTORE_GRANARY_COUNTS.HITS n), true) :=
    if_pos (by rw [present]; rfl)
  have fits : (s.get (R.TSTORE_ATOM_ADDR.ADDR n c) % (if wide then 8 else 4) != 0 || (wide && decide (7 ≤ op))) = false := by
    rw [aligned]
    cases wide with
    | false => rfl
    | true => simpa using Nat.lt_succ_of_le (narrow rfl)
  simp only [State.atomCommand, free, State.atomIssue, home, fits, hit]
  simp

theorem State.atomPerform_window (s : State) (n c op addr : Nat) (wide : Bool) (data cmp : Nat) :
    s.atomPerform n true c op addr wide data cmp =
      (s.atomStore n addr (if wide then 8 else 4)
        (atomOp op (8 * if wide then 8 else 4) (s.readNat addr (if wide then 8 else 4)) data cmp)).atomStatus n c
        (s.readNat addr (if wide then 8 else 4))
        (atomOp op (8 * if wide then 8 else 4) (s.readNat addr (if wide then 8 else 4)) data cmp) := rfl

/-! ### What operations compute (R382, R383) -/

theorem min_of_le_ite {α : Type} [LinearOrder α] {β : Type} (f : β → α) (x y : β) :
    f (if f x ≤ f y then x else y) = min (f x) (f y) := by
  split
  next h => rw [min_eq_left h]
  next h => rw [min_eq_right (le_of_lt (not_le.1 h))]

theorem max_of_le_ite {α : Type} [LinearOrder α] {β : Type} (f : β → α) (x y : β) :
    f (if f x ≤ f y then y else x) = max (f x) (f y) := by
  split
  next h => rw [max_eq_right h]
  next h => rw [max_eq_left (le_of_lt (not_le.1 h))]

/-- A word of two 16-bit counts: each half is read back. -/
theorem counts_halves {r p : Nat} (hr : r < 2 ^ 16) (hp : p < 2 ^ 16) :
    (r + 2 ^ 16 * p) % 65536 = r ∧ bits (r + 2 ^ 16 * p) 16 16 = p := by
  simp only [bits, Nat.shiftRight_eq_div_pow]
  omega

theorem counts_fit {w r p : Nat} (hw : w = 32 ∨ w = 64) (hr : r < 2 ^ 16) (hp : p < 2 ^ 16) :
    (r + 2 ^ 16 * p) % 2 ^ w = r + 2 ^ 16 * p := by
  obtain rfl | rfl := hw <;> omega

/-- REF_INC on a word of two counts moves both or neither. -/
theorem atomOp_refInc {w r p i j : Nat} (cmp : Nat) (hw : w = 32 ∨ w = 64) (hr : r < 2 ^ 16) (hp : p < 2 ^ 16) (hi : i < 2 ^ 16)
    (hj : j < 2 ^ 16) : atomOp 7 w (r + 2 ^ 16 * p) (i + 2 ^ 16 * j) cmp
      = if r + i > 0xFFFF || p + j > 0xFFFF then { new := r + 2 ^ 16 * p, cause := some 5 }
        else { new := (r + i) + 65536 * (p + j), wasZero := r == 0 } := by
  obtain ⟨low, high⟩ := counts_halves hr hp
  obtain ⟨low', high'⟩ := counts_halves hi hj
  simp only [atomOp, counts_fit hw hr hp, counts_fit hw hi hj, low, high, low', high']

/-- REF_DEC on a word of two counts moves both or neither. -/
theorem atomOp_refDec {w r p i j : Nat} (cmp : Nat) (hw : w = 32 ∨ w = 64) (hr : r < 2 ^ 16) (hp : p < 2 ^ 16) (hi : i < 2 ^ 16)
    (hj : j < 2 ^ 16) : atomOp 8 w (r + 2 ^ 16 * p) (i + 2 ^ 16 * j) cmp
      = if r < i || p < j then { new := r + 2 ^ 16 * p, cause := some 4 }
        else { new := (r - i) + 65536 * (p - j), zero := r - i == 0 } := by
  obtain ⟨low, high⟩ := counts_halves hr hp
  obtain ⟨low', high'⟩ := counts_halves hi hj
  simp only [atomOp, counts_fit hw hr hp, counts_fit hw hi hj, low, high, low', high']

end Sys2Proof.Machine

open Sys2Proof Sys2Proof.Machine

/-- Settles O23: the line present, the operation is performed at once; what each computes, case by case. -/
theorem atomics : Obligations.Atomics := by
  refine ⟨fun s n c wide h alive _ _ free home aligned present e he narrow => ?_, fun w old data cmp hw hold hdata hcmp => ?_⟩
  · have runs : exec e.2 s = s.whenAlive fun s => s.atomCommand (.window n c wide) e.1 := by
      simp only [List.mem_cons, List.not_mem_nil, or_false] at he
      obtain rfl | rfl | rfl | rfl | rfl | rfl | rfl | rfl := he <;> rfl
    have performs := State.atomCommand_performs free home aligned narrow present
    rw [State.atomPerform_window] at performs
    set u := s.wrapAdd (R.TSTORE_GRANARY_COUNTS.HITS n)
    set a := s.get (R.TSTORE_ATOM_ADDR.ADDR n c)
    set len := if wide then 8 else 4
    have same : u.readNat a len = s.readNat a len := congrArg ofLe (State.read_of_mem (s := s) (t := u) rfl a len)
    rw [same] at performs
    set r := atomOp e.1 (8 * len) (s.readNat a len) (s.get (R.TSTORE_ATOM_DATA.VALUE n c)) (s.get (R.TSTORE_ATOM_CMP.VALUE n c))
    have mem := u.atomStore_mem n a len r
    have waiting := u.atomStore_pending n a len r
    have out := u.atomStore_out n a len r
    generalize u.atomStore n a len r = v at performs mem waiting out
    obtain ⟨result, done, zero, wasZero, success, refused⟩ := v.atomStatus_shows n c (s.readNat a len) r
    refine completes_whenAlive (f := fun s => s.atomCommand (.window n c wide) e.1) alive runs performs waiting
      ⟨result, done, zero, wasZero, success, refused, fun stored => ?_, fun b hb => ?_, out⟩
    · rw [if_pos stored] at mem
      have written := u.read_write a (leBytes len r.new)
      rw [length_leBytes] at written
      have shown : (v.atomStatus n c (s.readNat a len) r).mem = v.mem := rfl
      exact (State.read_of_mem (shown.trans mem) a len).trans written
    · have apart : (v.atomStatus n c (s.readNat a len) r).byte b = v.byte b := rfl
      rw [apart, State.byte, mem]
      split
      next stored =>
        refine u.byte_write_outside a b _ fun inside => hb ⟨stored, ?_⟩
        rwa [length_leBytes] at inside
      next => rfl
  · have low (v : Nat) (h : v < 2 ^ w) : v % 2 ^ w = v := Nat.mod_eq_of_lt h
    refine ⟨?_, ?_, ?_, ?_, ?_, ?_, ?_, fun r p i j hr hp hi hj => ⟨fun noR noP => ?_, fun full => ?_, fun hir hjp => ?_, fun under => ?_⟩⟩
    · simp only [atomOp, low old hold, low data hdata]
    · simp only [atomOp, low old hold, low data hdata]
      exact min_of_le_ite (signed w) old data
    · simp only [atomOp, low old hold, low data hdata]
      exact max_of_le_ite (signed w) old data
    · simp only [atomOp, low old hold, low data hdata, Nat.min_def]
    · simp only [atomOp, low old hold, low data hdata, Nat.max_def]
    · simp only [atomOp, low old hold, low data hdata, low cmp hcmp, beq_iff_eq]
      split <;> rfl
    · simp only [atomOp, low old hold, low data hdata, low cmp hcmp, beq_iff_eq]
      split <;> simp [*]
    · rw [atomOp_refInc cmp hw hr hp hi hj, if_neg (by simp; omega)]
      exact ⟨rfl, rfl⟩
    · rw [atomOp_refInc cmp hw hr hp hi hj, if_pos (by simp; omega)]
    · rw [atomOp_refDec cmp hw hr hp hi hj, if_neg (by simp; omega)]
      exact ⟨rfl, rfl⟩
    · rw [atomOp_refDec cmp hw hr hp hi hj, if_pos (by simp; omega)]
end

section
/-!
SUPPORT. What a tile sequencer does itself (R181, R182, R184, R188, R198, R519), and how a notice sends a tile to SKIP (R192).
-/

namespace Sys2Proof.Machine

/-! ### Descriptors that the sequencer executes -/

/-- The sequencer's own descriptor of the type a row names, in RUN: what the row does with it. -/
theorem State.ownDesc_run {s : State} {n ty : Nat} {d : Bytes} {act : State → Bytes → State × Bool} (next : s.nextDesc n = some d)
    (issuing : s.issuing n = true) (run : s.seqState n = seqRun) (type : D.type d = ty) :
    s.ownDesc n ty act = if (act s d).2 then ((act s d).1.advance n).completeDesc n d else (act s d).1 := by
  have own : (D.type d != ty || !s.issuing n) = false := by simp [type, issuing]
  have direct : (s.seqState n == seqDirect && s.directBad n d) = false := by rw [run]; rfl
  have skip : (s.seqState n == seqSkip) = false := by rw [run]; rfl
  rw [State.ownDesc, next]
  dsimp only
  rw [own, direct, skip]
  obtain ⟨t, done⟩ := act s d
  cases done <;> rfl

theorem State.ownDesc_done {s u : State} {n ty : Nat} {d : Bytes} {act : State → Bytes → State × Bool} (next : s.nextDesc n = some d)
    (issuing : s.issuing n = true) (run : s.seqState n = seqRun) (type : D.type d = ty) (acts : act s d = (u, true)) :
    s.ownDesc n ty act = (u.advance n).completeDesc n d := by
  rw [State.ownDesc_run next issuing run type, acts]
  rfl

theorem State.ownDesc_waits {s u : State} {n ty : Nat} {d : Bytes} {act : State → Bytes → State × Bool} (next : s.nextDesc n = some d)
    (issuing : s.issuing n = true) (run : s.seqState n = seqRun) (type : D.type d = ty) (acts : act s d = (u, false)) :
    s.ownDesc n ty act = u := by
  rw [State.ownDesc_run next issuing run type, acts]
  rfl

/-- The moment that a wait of mode 0b01 names, in RUN. -/
theorem State.waitMeridian_run {s : State} {n : Nat} {d : Bytes} (next : s.nextDesc n = some d) (issuing : s.issuing n = true)
    (run : s.seqState n = seqRun) (type : D.type d = tWait) (mode : D.wMode d = 1) :
    s.waitMeridian n =
      if s.now < s.get R.FRW_START_TIME.START_TIME + D.wOffset d then s.modTile n fun x => { x with waiting := true }
      else if s.get R.FRW_START_TIME.START_TIME + D.wOffset d < s.now && !(s.tile n).waiting then
        ((s.bump (R.TILE_SEQ_COUNTS.LATE_WAITS n)).advance n).completeDesc n d
      else (s.advance n).completeDesc n d := by
  have base : (s.seqState n == seqDirect) = false := by rw [run]; rfl
  rw [State.waitMeridian, State.ownDesc_run next issuing run type]
  by_cases early : s.now < s.get R.FRW_START_TIME.START_TIME + D.wOffset d
  · simp [mode, base, early]
  · by_cases late : (s.get R.FRW_START_TIME.START_TIME + D.wOffset d < s.now && !(s.tile n).waiting) = true <;>
      simp [mode, base, early, late]

theorem State.waitCounter_run {s : State} {n : Nat} {d : Bytes} (next : s.nextDesc n = some d) (issuing : s.issuing n = true)
    (run : s.seqState n = seqRun) (type : D.type d = tWait) (mode : D.wMode d = 2) :
    s.waitCounter n = if D.wValue d ≤ s.event n (D.wCtr d) then (s.advance n).completeDesc n d else s := by
  rw [State.waitCounter, State.ownDesc_run next issuing run type]
  simp [mode]

/-- In RUN, or in DIRECT with a sound descriptor, the next descriptor goes to a queue that has room. -/
theorem State.issue_queues {s : State} {n q : Nat} {d : Bytes} (next : s.nextDesc n = some d) (queue : queueOf d = some q)
    (issuing : s.issuing n = true) (runs : s.seqState n = seqRun ∨ (s.seqState n = seqDirect ∧ s.directBad n d = false))
    (room : (s.queue n q).length < queueDepth q) :
    s.issue n = (s.advance n).setQueue n q (s.queue n q ++
      [(⟨d, s.listIndex n, (s.scalars n d).1, (s.scalars n d).2, 0, false, false, none, []⟩ : Queued)]) := by
  have direct : (s.seqState n == seqDirect && s.directBad n d) = false := by
    obtain run | ⟨-, sound⟩ := runs
    · rw [run]; rfl
    · rw [sound, Bool.and_false]
  have skip : (s.seqState n == seqSkip && q != 15) = false := by
    obtain run | ⟨run, -⟩ := runs <;> rw [run] <;> rfl
  rw [State.issue, next]
  dsimp only
  rw [queue]
  dsimp only
  rw [issuing, direct, skip, if_neg (by simp), if_neg (by simp), if_neg (by simp), if_neg (by omega)]

/-! ### A tile enters SKIP -/

/-- Only a tile's queues, its counters and what it signals change. -/
structure State.SkipsOn (s t : State) (n : Nat) : Prop where
  eq : t = { s with regs := t.regs, tiles := t.tiles }
  notice : (t.tile n).notice = (s.tile n).notice
  others : ∀ m, m ≠ n → t.tile m = s.tile m
  state : t.seqState n = s.seqState n

namespace State.SkipsOn

variable {s t u : State} {n : Nat}

theorem refl (s : State) (n : Nat) : s.SkipsOn s n := ⟨rfl, rfl, fun _ _ => rfl, rfl⟩

theorem trans (h : s.SkipsOn t n) (k : t.SkipsOn u n) : s.SkipsOn u n where
  eq := by rw [k.eq, h.eq]
  notice := k.notice.trans h.notice
  others m hm := (k.others m hm).trans (h.others m hm)
  state := k.state.trans h.state

theorem setQueue (s : State) (n q : Nat) (l : List Queued) : s.SkipsOn (s.setQueue n q l) n where
  eq := rfl
  notice := by rw [State.setQueue, State.modTile_tile]
  others m hm := State.modTile_tile_other _ _ hm
  state := rfl

theorem applySignal (s : State) (n : Nat) (d : Bytes) : s.SkipsOn (s.applySignal n d) n := by
  unfold State.applySignal
  split
  · refine ⟨rfl, rfl, fun _ _ => rfl, State.get_put_other _ _ ?_⟩
    have tile : D.sigTile d < 16 := bits_lt _ _ 4
    have ctr : D.sigCtr d < 32 := bits_lt _ _ 5
    simp only [Field.key, R.TILE_SEQ_STATUS.STATE, R.TILE_EVENT.VALUE]
    split <;> omega
  · exact refl s n

theorem skipQueue (s : State) (n q : Nat) : s.SkipsOn (s.skipQueue n q) n := by
  unfold State.skipQueue
  split
  · exact refl s n
  · exact List.foldlRecOn (motive := fun t => s.SkipsOn t n) _ _ (setQueue s n q _) fun t h x _ => h.trans (applySignal t n _)

theorem skipQueues (s : State) (n : Nat) (l : List Nat) :
    s.SkipsOn (l.foldl (fun (s : State) q => s.skipQueue n q) s) n :=
  List.foldlRecOn (motive := fun t => s.SkipsOn t n) _ _ (refl s n) fun t h q _ => h.trans (skipQueue t n q)

end State.SkipsOn

theorem State.noteDone_only (s : State) : s.noteDone = { s with frw := s.noteDone.frw } := by
  unfold State.noteDone
  split <;> rfl

/-- The end of a list in SKIP: the sequencer stays, is DONE, or is IDLE; no tile changes. -/
theorem State.retire_skip {s : State} {n : Nat} (skip : s.seqState n = seqSkip) :
    ((s.retire n).seqState n = seqSkip ∨ (s.retire n).seqState n = seqDone ∨ (s.retire n).seqState n = seqIdle) ∧
      (s.retire n).tiles = s.tiles ∧ (s.retire n).out = s.out := by
  unfold State.retire
  split
  next =>
    dsimp only
    rw [if_pos (by rw [skip]; rfl)]
    have only := (s.setSeq n (if s.idle then seqIdle else seqDone)).noteDone_only
    have shown : (s.setSeq n (if s.idle then seqIdle else seqDone)).noteDone.seqState n = if s.idle then seqIdle else seqDone := by
      refine (State.get_of_regs (congrArg State.regs only :) _).trans (State.get_put_fits _ _ ?_)
      split
      · exact (by decide : seqIdle < 2 ^ 3)
      · exact (by decide : seqDone < 2 ^ 3)
    refine ⟨?_, (congrArg State.tiles only :), (congrArg State.out only :)⟩
    rw [shown]
    split
    · exact .inr (.inr rfl)
    · exact .inr (.inl rfl)
  next => exact ⟨.inl skip, rfl, rfl⟩

/-- A tile that enters SKIP: its queues empty, and its list may end. -/
theorem State.enterSkip_skips (s : State) (n : Nat) :
    ((s.enterSkip n).seqState n = seqSkip ∨ (s.enterSkip n).seqState n = seqDone ∨ (s.enterSkip n).seqState n = seqIdle) ∧
      ((s.enterSkip n).tile n).notice = (s.tile n).notice ∧ (∀ m, m ≠ n → (s.enterSkip n).tile m = s.tile m) ∧
      (s.enterSkip n).out = s.out := by
  have skips := State.SkipsOn.skipQueues (s.setSeq n seqSkip) n (List.range 17)
  unfold State.enterSkip
  extract_lets entered
  change entered.SkipsOn ((List.range 17).foldl (fun (s : State) q => s.skipQueue n q) entered) n at skips
  generalize (List.range 17).foldl (fun (s : State) q => s.skipQueue n q) entered = u at skips
  obtain ⟨state, tiles, out⟩ := State.retire_skip (s := u) (n := n) (skips.state.trans (State.get_put_fits s _ (by decide : seqSkip < 2 ^ 3)))
  have tile (m : Nat) : (u.retire n).tile m = u.tile m := congrArg (Table.get Tile.reset m) tiles
  refine ⟨state, by rw [tile, skips.notice]; rfl, fun m hm => by rw [tile, skips.others m hm]; rfl, out.trans (congrArg State.out skips.eq :)⟩

/-- A notice that has come: the tile enters SKIP where it still owes its step and is not there. -/
theorem State.takeNotice_noticed {s : State} {n : Nat} (noticed : (s.tile n).notice = true) :
    s.takeNotice n = if s.owes n && s.seqState n != seqSkip then (s.modTile n fun x => { x with notice := false }).enterSkip n
      else s.modTile n fun x => { x with notice := false } := by
  rw [State.takeNotice, if_neg (by simp [noticed])]
  rfl

end Sys2Proof.Machine

open Sys2Proof Sys2Proof.Machine

/-- Settles O24: in RUN the sequencer's own descriptors are executed at once, and a notice empties the tile's queues. -/
theorem sequencerWork : Obligations.SequencerWork := by
  refine ⟨fun s n q d alive _ next queue issuing runs room => ?_, fun s n d alive _ next issuing run =>
    ⟨fun ty mode due => ?_, fun ty mode early => ?_, fun ty mode late fresh => ?_, fun ty mode reached => ?_, fun ty mode short => ?_,
      fun ty => ?_, fun ty => ?_⟩, fun s n alive hn noticed => ⟨fun owes skip => ?_, fun none_owed => ?_⟩⟩
  · refine completes_whenAlive (f := fun s => (s.issue n).collectives) alive rfl
      (congrArg State.collectives (State.issue_queues next queue issuing runs room)) ?_ rfl
    exact (State.collectives_kept (.refl _)).pending
  · have runs : s.waitMeridian n = (s.advance n).completeDesc n d := by
      rw [State.waitMeridian_run next issuing run ty mode, if_neg (by omega), if_neg (by simp [due])]
    exact completes_whenAlive (f := (State.waitMeridian · n)) alive rfl runs
      (State.completeDesc_kept (State.advance_kept (.refl _))).pending rfl
  · exact completes_whenAlive (f := (State.waitMeridian · n)) alive rfl
      ((State.waitMeridian_run next issuing run ty mode).trans (if_pos early)) rfl rfl
  · have runs : s.waitMeridian n = ((s.bump (R.TILE_SEQ_COUNTS.LATE_WAITS n)).advance n).completeDesc n d := by
      rw [State.waitMeridian_run next issuing run ty mode, if_neg (by omega), if_pos (by simp [late, fresh])]
    exact completes_whenAlive (f := (State.waitMeridian · n)) alive rfl runs
      (State.completeDesc_kept (State.advance_kept (State.bump_kept (.refl _)))).pending rfl
  · exact completes_whenAlive (f := (State.waitCounter · n)) alive rfl
      ((State.waitCounter_run next issuing run ty mode).trans (if_pos reached))
      (State.completeDesc_kept (State.advance_kept (.refl _))).pending rfl
  · exact completes_whenAlive (f := (State.waitCounter · n)) alive rfl
      ((State.waitCounter_run next issuing run ty mode).trans (if_neg (not_le.2 short))) rfl rfl
  · exact completes_whenAlive (f := fun s => s.ownDesc n tHint fun s d => (s.hintTile n d, true)) alive rfl
      (State.ownDesc_done next issuing run ty rfl) (State.completeDesc_kept (State.advance_kept (State.hintTile_kept (.refl _)))).pending rfl
  · exact completes_whenAlive (f := fun s => s.ownDesc n tMark fun s d => (s.mark n (D.hPhase d), true)) alive rfl
      (State.ownDesc_done next issuing run ty rfl) (State.completeDesc_kept (State.advance_kept (State.mark_kept (.refl _)))).pending rfl
  · let u := s.modTile n fun x => { x with notice := false }
    have runs : s.takeNotice n = u.enterSkip n :=
      (State.takeNotice_noticed noticed).trans (if_pos (by simp [owes, skip]))
    obtain ⟨state, notice, others, out⟩ := u.enterSkip_skips n
    refine completes_whenAlive (f := (State.takeNotice · n)) alive rfl runs (State.enterSkip_kept (z := u) (.refl _)).pending
      ⟨notice.trans (congrArg Tile.notice (State.modTile_tile _ _ _)), state, State.enterSkip_same_mem (z := u) rfl, out,
        fun m hm => (others m hm).trans (State.modTile_tile_other _ _ hm)⟩
  · have stays : (s.owes n && s.seqState n != seqSkip) = false := by
      obtain no | yes := none_owed
      · rw [no, Bool.false_and]
      · simp [yes]
    exact completes_whenAlive (f := (State.takeNotice · n)) alive rfl
      ((State.takeNotice_noticed noticed).trans (if_neg (Bool.eq_false_iff.1 stays))) rfl rfl
end

section
/-!
SUPPORT. The gate that a descriptor's accesses pass (R26, R370, R372), and what a counter of the engines leaves of it.
-/

namespace Sys2Proof.Machine

/-- The memories let accesses through: mapped, in segments that are ON, on stacks in service, and not poisoned where it matters. -/
structure State.Admits (s : State) (l : List Acc) : Prop where
  mapped : (l.find? fun x => !s.mappedRange x.addr x.len) = none
  powered : (l.find? fun x => (segsOf x.addr x.len).any fun g => s.segState g == segOff) = none
  awake : ((l.flatMap fun x => segsOf x.addr x.len).any fun g => s.segState g != segOn) = false
  free : l.any s.stackBusy = false
  clean : (l.find? fun x => !x.unchecked && s.poisoned x.addr x.len) = none

theorem State.Admits.gate {s : State} {l : List Acc} (h : s.Admits l) (tile : Nat) (inst : Option Nat) : s.gate tile inst l = (s, .go) := by
  simp only [State.gate, h.mapped, h.powered, h.awake, h.free, h.clean]
  rfl

theorem State.admits_of_gate {s : State} {tile : Nat} {inst : Option Nat} {l : List Acc} (h : s.gate tile inst l = (s, .go)) :
    s.Admits l := by
  unfold State.gate at h
  split at h
  next => cases (Prod.ext_iff.1 h).2
  next mapped =>
    split at h
    next => cases (Prod.ext_iff.1 h).2
    next powered =>
      dsimp only at h
      split at h
      next => cases (Prod.ext_iff.1 h).2
      next awake =>
        split at h
        next => cases (Prod.ext_iff.1 h).2
        next free =>
          split at h
          next => cases (Prod.ext_iff.1 h).2
          next clean => exact ⟨mapped, powered, Bool.eq_false_iff.2 awake, Bool.eq_false_iff.2 free, clean⟩

/-- What the gate looks at, in another state, is as it was. -/
structure State.SameGate (s t : State) : Prop where
  place : t.place = s.place
  seg : t.segState = s.segState
  poison : t.poison = s.poison
  busy : t.stackBusy = s.stackBusy

theorem State.SameGate.mappedRange {s t : State} (h : s.SameGate t) (a n : Nat) : t.mappedRange a n = s.mappedRange a n := by
  unfold State.mappedRange State.mapped
  rw [h.place]

theorem State.SameGate.poisoned {s t : State} (h : s.SameGate t) (a n : Nat) : t.poisoned a n = s.poisoned a n := by
  rw [State.poisoned, h.poison, State.poisoned]

theorem State.Admits.of_same {s t : State} {l : List Acc} (h : s.Admits l) (same : s.SameGate t) : t.Admits l where
  mapped := by simp only [same.mappedRange, h.mapped]
  powered := by simp only [same.seg, h.powered]
  awake := by simp only [same.seg, h.awake]
  free := by simp only [same.busy, h.free]
  clean := by simp only [same.poisoned, h.clean]

/-- The place of an address depends on the Granaries' sizes and on the far tier alone. -/
theorem State.place_of_same {s t : State} (size : ∀ n, t.get (R.TSTORE_GRANARY.SIZE n) = s.get (R.TSTORE_GRANARY.SIZE n))
    (far : t.cxl = s.cxl) : t.place = s.place := by
  funext a
  have range : t.farRange a = s.farRange a := by rw [State.farRange, far, State.farRange]
  unfold State.place State.granaryBytes
  dsimp only
  rw [range, size]

/-- A write of a register below those of the tile stores leaves the gate. -/
theorem State.SameGate.of_put (s : State) {f : Field} (v : Nat) (low : f.key < 0x2000000 * 64) : s.SameGate (s.put f v) := by
  have place : (s.put f v).place = s.place :=
    State.place_of_same (fun n => State.get_put_other _ _ (by simp only [Field.key, R.TSTORE_GRANARY.SIZE] at *; omega)) rfl
  refine ⟨place, ?_, rfl, ?_⟩
  · funext g
    refine congrArg (bits · (2 * g.idx) 2) (State.get_put_other _ _ ?_)
    unfold Seg.field
    split <;> (simp only [Field.key, R.TSTORE_SEG_STATUS.SP, R.TSTORE_SEG_STATUS.TS] at *; omega)
  · funext x
    unfold State.stackBusy
    rw [place]
    rfl

/-! ### What the end of a descriptor leaves -/

theorem State.retire_keeps (s : State) (n : Nat) : (s.retire n).out = s.out ∧ ∀ m q, (s.retire n).queue m q = s.queue m q := by
  unfold State.retire
  split
  · dsimp only
    split
    · have only := (s.setSeq n (if s.idle then seqIdle else seqDone)).noteDone_only
      exact ⟨(congrArg State.out only :), fun m q =>
        congrArg (fun l => Table.get [] q (Table.get Tile.reset m l).queues) (congrArg State.tiles only :)⟩
    · split
      · refine ⟨rfl, fun m q => congrArg (Table.get [] q) ?_⟩
        by_cases hm : m = n
        · subst hm
          rw [State.modTile_tile]
          rfl
        · rw [State.modTile_tile_other _ _ hm]
          rfl
      · exact ⟨rfl, fun _ _ => rfl⟩
  · exact ⟨rfl, fun _ _ => rfl⟩

theorem State.setQueue_queue (s : State) (n q : Nat) (l : List Queued) : (s.setQueue n q l).queue n q = l := by
  rw [State.queue, State.setQueue, State.modTile_tile]
  exact Table.get_set_same _ _ _ _

theorem State.applySignal_keeps (s : State) (n : Nat) (d : Bytes) : (s.applySignal n d).out = s.out ∧ (s.applySignal n d).tiles = s.tiles := by
  unfold State.applySignal
  split <;> exact ⟨rfl, rfl⟩

/-- The head of a queue completes: it is gone, and nothing is sent. -/
theorem State.complete_keeps (s : State) (n q : Nat) : (s.complete n q).out = s.out ∧ (s.complete n q).queue n q = (s.queue n q).tail := by
  unfold State.complete
  split
  next none_there => exact ⟨rfl, by rw [none_there]; rfl⟩
  next h rest there =>
    obtain ⟨out, tiles⟩ := (s.setQueue n q rest).applySignal_keeps n h.desc
    obtain ⟨out', queue⟩ := ((s.setQueue n q rest).applySignal n h.desc).retire_keeps n
    refine ⟨out'.trans out, (queue n q).trans ?_⟩
    have same : ((s.setQueue n q rest).applySignal n h.desc).queue n q = (s.setQueue n q rest).queue n q :=
      congrArg (fun l => Table.get [] q (Table.get Tile.reset n l).queues) tiles
    rw [same, State.setQueue_queue, there]
    rfl

/-! ### Vector operations (R183, R261 to R271) -/

/-- What follows the body of a vector operation. -/
def VecEnd.after (u : State) (n : Nat) : VecEnd → State
  | .done w => w.complete n 8
  | .tableFault => (u.bump (R.TILE_VEC_COUNTS.TABLE_FAULTS n)).failHead n 8 .failStep
  | .wordFault => (u.bump (R.TILE_VEC_COUNTS.WORD_FAULTS n)).failHead n 8 .failStep

/-- A vector operation whose inputs can be read runs its body on the state with what the memories reported. -/
theorem State.vec_runs {s u : State} {n stalls : Nat} {mem : MemReport} {h : Queued} {body : State → Queued → VecEnd}
    (head : s.runnable n 8 tVec = some h) (work : D.vLength h.desc ≠ 0)
    (reported : u = (s.memReport srcVector mem).wrapAdd (R.TILE_VEC_STALLS.OPERAND_STALLS n) stalls)
    (apart : (u.seqState n == seqDirect && vecOverlap h.desc) = false)
    (own : ∀ x ∈ u.vecAccs h, inScratch n x.addr x.len = true ∨ inTileStore n x.addr x.len = true)
    (admits : u.Admits (u.vecAccs h)) : s.vec n (vCode h.desc) stalls mem body = (body u h).after u n := by
  have within : ((u.vecAccs h).find? fun x => !(inScratch n x.addr x.len || inTileStore n x.addr x.len)) = none :=
    List.find?_eq_none.2 fun x hx => by simpa [or_iff_not_imp_left] using own x hx
  rw [State.vec, head]
  dsimp only
  rw [if_neg (by simp), ← reported, if_neg (by simpa using work), if_neg (Bool.eq_false_iff.1 apart), within]
  dsimp only
  rw [State.gated, admits.gate]
  dsimp only
  cases body u h <;> rfl

/-- A row of the vector engine: which instruction runs which body, and that the body leaves what waits. -/
structure VecRow (n stalls : Nat) (mem : MemReport) (e : Nat × Instr × (State → Queued → VecEnd)) : Prop where
  runs : ∀ s, exec e.2.1 s = s.whenAlive fun s => s.vec n e.1 stalls mem e.2.2
  kept : ∀ z s q, Kept z s → KeptV z (e.2.2 s q)

theorem VecRow.of {n stalls code : Nat} {mem : MemReport} {i : Instr} {body : State → Queued → VecEnd}
    (runs : ∀ s, exec i s = s.whenAlive fun s => s.vec n code stalls mem body) (kept : ∀ z s q, Kept z s → KeptV z (body s q)) :
    VecRow n stalls mem (code, i, body) := ⟨runs, kept⟩

theorem VecRow.completes {n stalls : Nat} {mem : MemReport} {e : Nat × Instr × (State → Queued → VecEnd)} (row : VecRow n stalls mem e)
    {s t : State} {P : State → Prop} (alive : s.alive = true) (effect : s.vec n e.1 stalls mem e.2.2 = t) (h : P t) :
    Completes e.2.1 s P :=
  completes_whenAlive (f := fun s => s.vec n e.1 stalls mem e.2.2) alive (row.runs s) effect
    (effect ▸ (State.vec_kept (z := s) (.refl s) fun y q k => row.kept s y q k).pending) h

/-! ### The plain operations (R263) -/

theorem State.inRow_of_mem {s u : State} (same : u.mem = s.mem) (d : Bytes) (k : Nat) : u.inRow d k = s.inRow d k := by
  funext r
  simp only [State.inRow, State.vrow]
  congr 1
  funext i
  rw [State.elem, State.readNat, State.read_of_mem same, State.elem, State.readNat]

theorem State.rowVal_of_mem {s u : State} (same : u.mem = s.mem) (a r : Nat) : u.rowVal a r = s.rowVal a r := by
  rw [State.rowVal, State.readNat, State.read_of_mem same, State.rowVal, State.readNat]

/-- A plain row of the vector engine: its output rows are a function of what memory held. -/
def PlainRow (s : State) (h : Queued) (n stalls : Nat) (e : Nat × Instr × (Nat → List Num)) : Prop :=
  ∃ body, VecRow n stalls ⟨[], []⟩ (e.1, e.2.1, body) ∧ ∀ u : State, u.mem = s.mem → body u h = u.outRows h.desc e.2.2

theorem PlainRow.unary {s : State} {h : Queued} {n stalls code : Nat} {i : Instr} {f : Queued → Num → Num}
    (runs : ∀ s, exec i s = s.whenAlive fun s => s.vec n code stalls ⟨[], []⟩ (vecUnary f)) :
    PlainRow s h n stalls (code, i, fun r => (s.inRow h.desc 0 r).map (f h)) :=
  ⟨vecUnary f, .of runs fun _ _ _ k => vecUnary_kept k, fun u same => by rw [vecUnary, State.inRow_of_mem same]⟩

theorem PlainRow.binary {s : State} {h : Queued} {n stalls code : Nat} {i : Instr} {f : Num → Num → Num}
    (runs : ∀ s, exec i s = s.whenAlive fun s => s.vec n code stalls ⟨[], []⟩ (vecBinary f)) :
    PlainRow s h n stalls (code, i, fun r => List.zipWith f (s.inRow h.desc 0 r) (s.inRow h.desc 1 r)) :=
  ⟨vecBinary f, .of runs fun _ _ _ k => vecBinary_kept k, fun u same => by
    rw [vecBinary, State.inRow_of_mem same, State.inRow_of_mem same]⟩

theorem PlainRow.ternary {s : State} {h : Queued} {n stalls code : Nat} {i : Instr} {f : Num → Num → Num → Num}
    (runs : ∀ s, exec i s = s.whenAlive fun s => s.vec n code stalls ⟨[], []⟩ (vecTernary f)) :
    PlainRow s h n stalls (code, i, fun r => List.zipWith (fun x y => f x y.1 y.2) (s.inRow h.desc 0 r)
      (List.zip (s.inRow h.desc 1 r) (s.inRow h.desc 2 r))) :=
  ⟨vecTernary f, .of runs fun _ _ _ k => vecTernary_kept k, fun u same => by
    rw [vecTernary, State.inRow_of_mem same, State.inRow_of_mem same, State.inRow_of_mem same]⟩

theorem PlainRow.byRow {s : State} {h : Queued} {n stalls code : Nat} {i : Instr} {f : Num → Num → Num}
    (runs : ∀ s, exec i s = s.whenAlive fun s => s.vec n code stalls ⟨[], []⟩ (vecByRow f)) :
    PlainRow s h n stalls (code, i, fun r => (s.inRow h.desc 0 r).map fun x => f x (s.rowVal (D.vIn h.desc 1) r)) :=
  ⟨vecByRow f, .of runs fun _ _ _ k => vecByRow_kept k, fun u same => by
    rw [vecByRow, State.inRow_of_mem same]
    simp only [State.rowVal_of_mem same]⟩

/-- The state in which a vector operation's body runs, where the memories report nothing. -/
theorem State.vecAccs_of_mem {s u : State} (same : u.mem = s.mem) (h : Queued) : u.vecAccs h = s.vecAccs h := by
  have table (a : Nat) : u.tableBytes a = s.tableBytes a := by
    rw [State.tableBytes, State.read_of_mem same, State.tableBytes]
  have extra : u.vecExtra h = s.vecExtra h := by
    unfold State.vecExtra
    simp only [table]
  rw [State.vecAccs, extra, State.vecAccs]

/-- Rows written from an address: read back, and nothing else changes. -/
theorem State.write_complete (u : State) (n q a : Nat) (b : Bytes) :
    ((u.write a b).complete n q).read a b.length = b ∧
      (∀ x, ¬ (a ≤ x ∧ x < a + b.length) → ((u.write a b).complete n q).byte x = u.byte x) ∧
      ((u.write a b).complete n q).queue n q = (u.queue n q).tail ∧ ((u.write a b).complete n q).out = u.out := by
  have mem : ((u.write a b).complete n q).mem = (u.write a b).mem := State.complete_same_mem (z := u.write a b) rfl
  obtain ⟨out, queue⟩ := (u.write a b).complete_keeps n q
  refine ⟨(State.read_of_mem mem a _).trans (u.read_write a b), fun x hx => ?_, queue, out⟩
  rw [State.byte, mem]
  exact u.byte_write_outside a x b hx

end Sys2Proof.Machine

open Sys2Proof Sys2Proof.Machine

/-- Settles O25: each row runs its body on what its accesses may read, and the plain bodies write their rows at the output. -/
theorem vectorEngine : Obligations.VectorEngine := by
  refine ⟨fun s u n stalls mem h alive _ head work reported apart own gate e he code => ?_, ?_⟩
  · have row : VecRow n stalls mem e := by
      clear code
      revert e
      simp only [List.forall_mem_cons]
      refine ⟨.of (fun _ => rfl) fun _ _ _ k => vecUnary_kept k, .of (fun _ => rfl) fun _ _ _ k => vecBinary_kept k,
        .of (fun _ => rfl) fun _ _ _ k => vecBinary_kept k, .of (fun _ => rfl) fun _ _ _ k => vecBinary_kept k,
        .of (fun _ => rfl) fun _ _ _ k => vecTernary_kept k, .of (fun _ => rfl) fun _ _ _ k => vecUnary_kept k,
        .of (fun _ => rfl) fun _ _ _ k => vecBinary_kept k, .of (fun _ => rfl) fun _ _ _ k => vecBinary_kept k,
        .of (fun _ => rfl) fun _ _ _ k => vecByRow_kept k, .of (fun _ => rfl) fun _ _ _ k => vecByRow_kept k,
        .of (fun _ => rfl) fun _ _ _ k => vecReduce_kept k, .of (fun _ => rfl) fun _ _ _ k => vecReduce_kept k,
        .of (fun _ => rfl) fun _ _ _ k => vecReduce_kept k,
        .of (fun _ => rfl) fun _ _ _ k => vecTable_kept (fun _ _ _ k => vecUnary_kept k) k,
        .of (fun _ => rfl) fun _ _ _ k => vecTable_kept (fun _ _ _ k => vecBinary_kept k) k,
        .of (fun _ => rfl) fun _ _ _ k => vecTable_kept (fun _ _ _ k => vecByRow_kept k) k,
        .of (fun _ => rfl) fun _ _ _ k => vecNorm_kept k, .of (fun _ => rfl) fun _ _ _ k => vecNorm_kept k,
        .of (fun _ => rfl) fun _ _ _ k => vecQuant_kept k, .of (fun _ => rfl) fun _ _ _ k => vecQuant_kept k,
        .of (fun _ => rfl) fun _ _ _ k => vecQuant_kept k, .of (fun _ => rfl) fun _ _ _ k => vecRescaleTab_kept k,
        .of (fun _ => rfl) fun _ _ _ k => vecRescaleReg_kept k,
        .of (fun _ => rfl) fun _ _ _ k => vecRescaleFp_kept k, .of (fun _ => rfl) fun _ _ _ k => vecWireQ8_kept k,
        .of (fun _ => rfl) fun _ _ _ k => vecWire_kept k, .of (fun _ => rfl) fun _ _ _ k => vecWire_kept k,
        .of (fun _ => rfl) fun _ _ _ k => vecWiden_kept k, .of (fun _ => rfl) fun _ _ _ k => vecWiden_kept k,
        List.forall_mem_nil _⟩
    have runs := State.vec_runs (body := e.2.2) head work reported apart own (State.admits_of_gate gate)
    rw [code] at runs
    exact ⟨fun w ends => row.completes alive (runs.trans (congrArg (VecEnd.after u n) ends)) rfl,
      fun ends => row.completes alive (runs.trans (congrArg (VecEnd.after u n) ends)) rfl,
      fun ends => row.completes alive (runs.trans (congrArg (VecEnd.after u n) ends)) rfl⟩
  · intro s n stalls h alive _ head work apart own gate d a b c k e he code
    have row : PlainRow s h n stalls e := by
      clear code
      revert e
      simp only [List.forall_mem_cons]
      refine ⟨?_, .binary (f := Machine.Num.add) fun _ => rfl, .binary (f := Machine.Num.sub) fun _ => rfl, .binary (f := Machine.Num.mul) fun _ => rfl,
        .ternary (f := fun a b c => (a.mul b).add c) fun _ => rfl, .unary (f := axpb) fun _ => rfl,
        .binary (f := Machine.Num.max) fun _ => rfl, .binary (f := Machine.Num.min) fun _ => rfl, .byRow (f := Machine.Num.mul) fun _ => rfl,
        .byRow (f := Machine.Num.div) fun _ => rfl, List.forall_mem_nil _⟩
      have copied := PlainRow.unary (s := s) (h := h) (n := n) (stalls := stalls) (code := 0x01) (i := .vecCopy n stalls ⟨[], []⟩)
        (f := fun _ x => x) fun _ => rfl
      simpa using copied
    obtain ⟨body, row, rows⟩ := row
    let u := s.wrapAdd (R.TILE_VEC_STALLS.OPERAND_STALLS n) stalls
    have low : (R.TILE_VEC_STALLS.OPERAND_STALLS n).key < 0x2000000 * 64 := by
      simp only [Field.key, R.TILE_VEC_STALLS.OPERAND_STALLS]
      omega
    have state : u.seqState n = s.seqState n := State.get_put_other _ _ (by
      simp only [Field.key, R.TILE_SEQ_STATUS.STATE, R.TILE_VEC_STALLS.OPERAND_STALLS]
      omega)
    have accs : u.vecAccs h = s.vecAccs h := State.vecAccs_of_mem rfl h
    have admits : u.Admits (u.vecAccs h) := accs ▸ (State.admits_of_gate gate).of_same (.of_put s _ low)
    have runs := State.vec_runs (body := body) (mem := ⟨[], []⟩) (u := u) head work rfl (by rw [state]; exact apart)
      (by rw [accs]; exact own) admits
    rw [code, rows u rfl] at runs
    exact row.completes alive runs (State.write_complete u n 8 (D.vOut d) _)
end

section
/-!
SUPPORT. What raising an event changes (R569 to R575), and what the memories report of a command's accesses (R366, R370): counters,
poison and the error log, nothing of the tiles.
-/

namespace Sys2Proof.Machine

/-! ### Raising an event -/

/-- The registers of the error log. -/
def errorFields : List Field := [R.GLB_ERR_SUMMARY.SEEN, R.GLB_ERR_LOG.TAIL, R.GLB_ERR_LOG.OVERFLOWS]

/-- From `s` to `t` events have been raised: the log, what is sent of it and the pin FAULT_N may differ, nothing else. -/
structure State.Raises (s t : State) : Prop where
  eq : t = { s with
    regs := t.regs, out := t.out, links := t.links, coll := t.coll
    flt := { s.flt with log := t.flt.log, last := t.flt.last, faultParts := t.flt.faultParts, nextMsg := t.flt.nextMsg, sent := t.flt.sent }
    pins := { s.pins with faultN := t.pins.faultN }
    mgt := { s.mgt with toLog := t.mgt.toLog }
    cxl := { s.cxl with waiting := t.cxl.waiting, irqDue := t.cxl.irqDue, holdoff := t.cxl.holdoff } }
  regs : s.sameRegs t errorFields

namespace State.Raises

variable {s t u : State}

theorem refl (s : State) : s.Raises s := ⟨rfl, State.sameRegs_refl s _⟩

theorem trans (h : s.Raises t) (k : t.Raises u) : s.Raises u where
  eq := by
    refine k.eq.trans ?_
    rw [h.eq]
  regs f hf := (k.regs f hf).trans (h.regs f hf)

theorem mem (h : s.Raises t) : t.mem = s.mem := (congrArg State.mem h.eq :)
theorem poison (h : s.Raises t) : t.poison = s.poison := (congrArg State.poison h.eq :)
theorem pending (h : s.Raises t) : t.pending = s.pending := (congrArg State.pending h.eq :)
theorem tiles (h : s.Raises t) : t.tiles = s.tiles := (congrArg State.tiles h.eq :)
theorem que (h : s.Raises t) : t.que = s.que := (congrArg State.que h.eq :)
theorem frw (h : s.Raises t) : t.frw = s.frw := (congrArg State.frw h.eq :)
theorem cfg (h : s.Raises t) : t.cfg = s.cfg := (congrArg State.cfg h.eq :)
theorem srv (h : s.Raises t) : t.srv = s.srv := (congrArg State.srv h.eq :)
theorem stk (h : s.Raises t) : t.stk = s.stk := (congrArg State.stk h.eq :)
theorem pwr (h : s.Raises t) : t.pwr = s.pwr := (congrArg State.pwr h.eq :)
theorem mrd (h : s.Raises t) : t.mrd = s.mrd := (congrArg State.mrd h.eq :)

theorem get (h : s.Raises t) {f : Field} (hf : ∀ g ∈ errorFields, f.key ≠ g.key) : t.get f = s.get f := h.regs f hf

theorem isSet (h : s.Raises t) {f : Field} (hf : ∀ g ∈ errorFields, f.key ≠ g.key) : t.isSet f = s.isSet f := State.isSet_of_get (h.get hf)

theorem put {f : Field} (s : State) (v : Nat) (hf : f ∈ errorFields) : s.Raises (s.put f v) :=
  ⟨rfl, State.sameRegs_put (State.sameRegs_refl s _) hf v⟩

theorem of_onlySends (h : s.onlySends t) : s.Raises t where
  eq := by
    rw [State.onlySends] at h
    exact h.trans (by rw [h])
  regs f _ := State.get_of_regs h.regs f

theorem driveFault (s : State) (e : Event) : s.Raises (s.driveFault e) := by
  unfold State.driveFault
  split
  · exact ⟨rfl, fun _ _ => rfl⟩
  · split <;> exact ⟨rfl, fun _ _ => rfl⟩

theorem emit (s : State) (o : Output) : s.Raises (s.emit o) := ⟨rfl, fun _ _ => rfl⟩

theorem d2h (s : State) (o : Output) : s.Raises (s.d2h o) := by
  unfold State.d2h
  split <;> exact ⟨rfl, fun _ _ => rfl⟩

theorem message (s : State) (v : Nat) : s.Raises (s.message v) := by
  unfold State.message
  split
  · exact ⟨rfl, fun _ _ => rfl⟩
  · dsimp only
    split
    · exact d2h s _
    · exact (d2h s _).trans ⟨rfl, fun _ _ => rfl⟩

theorem errorIrq (s : State) (cls : Nat) : s.Raises (s.errorIrq cls) := by
  unfold State.errorIrq
  split
  · exact message s _
  · exact refl s

theorem reportEvent (s : State) (new : Bool) (r : ErrRec) : s.Raises (s.reportEvent new r) := by
  unfold State.reportEvent
  split
  · exact emit s _
  · exact refl s

theorem appendRecord (s : State) (r : ErrRec) : s.Raises (s.appendRecord r).1 := by
  unfold State.appendRecord
  split
  · exact ⟨rfl, fun _ _ => rfl⟩
  · dsimp only
    split
    · exact put s _ (by simp [errorFields])
    · exact (put s ((s.get R.GLB_ERR_LOG.TAIL + 1) % 64) (by simp [errorFields] : R.GLB_ERR_LOG.TAIL ∈ errorFields)).trans ⟨rfl, fun _ _ => rfl⟩

theorem raise (s : State) (e : Event) : s.Raises (s.raise e) := by
  unfold State.raise
  extract_lets seen driven r merged
  have hdriven : s.Raises driven := (put s _ (by simp [errorFields])).trans (driveFault seen e)
  split
  · exact hdriven
  · have appended := appendRecord driven r
    split
    next a new made =>
    rw [made] at appended
    extract_lets told _ logged
    have htold : a.Raises told := by
      refine trans ?_ (reportEvent _ new r)
      split
      · exact errorIrq a _
      · exact refl a
    have hlogged : told.Raises logged := by
      unfold logged
      split
      · exact ⟨rfl, fun _ _ => rfl⟩
      · exact refl told
    have whole := ((hdriven.trans appended).trans htold).trans hlogged
    split
    · exact whole.trans (of_onlySends (State.sendCtrl_onlySends _ _ _))
    · exact whole

end State.Raises

/-! ### What the memories report (R366, R370) -/

/-- A register below those of the tile stores, and not of the error log. -/
def Field.notReported (f : Field) : Prop := f.key < 0x2000000 * 64 ∧ ∀ g ∈ errorFields, f.key ≠ g.key

/-- A register of a tile's sequencer or engines is none of the error log's. -/
theorem Field.notReported_of_tile {f : Field} (low : 0x1000000 * 64 ≤ f.key) (high : f.key < 0x2000000 * 64) : f.notReported := by
  have below : ∀ g ∈ errorFields, g.key < 0x1000000 * 64 := by decide
  refine ⟨high, fun g hg => ?_⟩
  have := below g hg
  omega

/-- From `s` to `t` the memories have reported: tiles, memory, the configuration and the other registers below those of the tile stores
are as they were. -/
structure State.Reported (s t : State) : Prop where
  mem : t.mem = s.mem
  tiles : t.tiles = s.tiles
  cfg : t.cfg = s.cfg
  pending : t.pending = s.pending
  get : ∀ f : Field, f.notReported → t.get f = s.get f

namespace State.Reported

variable {s t u : State}

theorem refl (s : State) : s.Reported s := ⟨rfl, rfl, rfl, rfl, fun _ _ => rfl⟩

theorem trans (h : s.Reported t) (k : t.Reported u) : s.Reported u where
  mem := k.mem.trans h.mem
  tiles := k.tiles.trans h.tiles
  cfg := k.cfg.trans h.cfg
  pending := k.pending.trans h.pending
  get f hf := (k.get f hf).trans (h.get f hf)

theorem of_raises (h : s.Raises t) : s.Reported t := ⟨h.mem, h.tiles, h.cfg, h.pending, fun _ hf => h.get hf.2⟩

theorem put (s : State) {f : Field} (v : Nat) (high : 0x2000000 * 64 ≤ f.key) : s.Reported (s.put f v) :=
  ⟨rfl, rfl, rfl, rfl, fun g hg => State.get_put_other _ _ (by have := hg.1; omega)⟩

theorem poisonRange (s : State) (a n : Nat) : s.Reported (s.poisonRange a n) := ⟨rfl, rfl, rfl, rfl, fun _ _ => rfl⟩

theorem bump (s : State) {f : Field} (n : Nat) (high : 0x2000000 * 64 ≤ f.key) : s.Reported (s.bump f n) := put s _ high

theorem eccFault (s : State) (a src : Nat) : s.Reported (s.eccFault a src) := by
  unfold State.eccFault
  split
  · exact refl s
  · split
    · exact refl s
    · next g _ _ =>
      refine (((put s _ ?_).trans (put _ _ ?_)).trans (put _ _ ?_)).trans (put _ _ ?_) <;>
        simp only [Field.key, R.TSTORE_ECC_FAULT.ADDR, R.TSTORE_ECC_FAULT.VALID, R.TSTORE_ECC_FAULT.MEMORY, R.TSTORE_ECC_FAULT.SOURCE] <;>
        omega

theorem eccEvent (s : State) (src : Nat) (e : Nat × Bool) : s.Reported (s.eccEvent src e) := by
  unfold State.eccEvent
  split
  · split
    · exact poisonRange s _ _
    · exact refl s
  · next g _ =>
    split
    · refine (bump s 1 ?_).trans (of_raises (.raise _ _))
      split <;> (simp only [Field.key, R.TSTORE_ECC_COUNTS.SP_CORRECTED, R.TSTORE_ECC_COUNTS.TS_CORRECTED]; omega)
    · refine ((bump s 1 ?_).trans (poisonRange _ _ _)).trans (eccFault _ _ _)
      split <;> (simp only [Field.key, R.TSTORE_ECC_COUNTS.SP_POISONED, R.TSTORE_ECC_COUNTS.TS_POISONED]; omega)

theorem bankStall (s : State) (x : Nat × Bool × Nat) : s.Reported (s.bankStall x) := by
  refine put s _ ?_
  split <;> (simp only [Field.key, R.TSTORE_BANK_STALLS.SP_CONFLICTS, R.TSTORE_BANK_STALLS.TS_CONFLICTS]; omega)

theorem memReport (s : State) (src : Nat) (m : MemReport) : s.Reported (s.memReport src m) := by
  have errors := List.foldlRecOn (motive := s.Reported) m.errors (State.eccEvent src) (refl s) fun t h e _ => h.trans (eccEvent t src e)
  exact List.foldlRecOn (motive := s.Reported) m.conflicts State.bankStall errors fun t h x _ => h.trans (bankStall t x)

end State.Reported

/-! ### The matrix engines (R180, R191, R196, R204, R214, R222) -/

/-- A tile with its control cores interrupted, or not. -/
def Tile.withIrq (t : Tile) (b : Bool) : Tile := { t with coreIrq := b }

/-- A list that ends changes no register but the sequencer's state, and of the tiles one interrupt. -/
theorem State.retire_tile (s : State) (n : Nat) :
    (∀ m, ∃ b, (s.retire n).tile m = (s.tile m).withIrq b) ∧
      ∀ f : Field, f.key ≠ (R.TILE_SEQ_STATUS.STATE n).key → (s.retire n).get f = s.get f := by
  have same (m : Nat) : ∃ b, s.tile m = (s.tile m).withIrq b := ⟨(s.tile m).coreIrq, rfl⟩
  unfold State.retire
  split
  · dsimp only
    split
    · have only := (s.setSeq n (if s.idle then seqIdle else seqDone)).noteDone_only
      refine ⟨fun m => ?_, fun f hf => (State.get_of_regs (congrArg State.regs only :) f).trans (State.get_put_other _ _ hf)⟩
      rw [show (s.setSeq n (if s.idle then seqIdle else seqDone)).noteDone.tile m = s.tile m from
        congrArg (Table.get Tile.reset m) (congrArg State.tiles only :)]
      exact same m
    · split
      · refine ⟨fun m => ?_, fun f hf => State.get_put_other s (f := R.TILE_SEQ_STATUS.STATE n) seqIdle hf⟩
        by_cases hm : m = n
        · subst hm
          rw [State.modTile_tile]
          exact ⟨true, rfl⟩
        · rw [State.modTile_tile_other _ _ hm]
          exact same m
      · exact ⟨same, fun _ _ => rfl⟩
  · exact ⟨same, fun _ _ => rfl⟩

/-- What the engines count leaves memory and the tiles. -/
theorem State.engineCounts_keeps (s : State) (n e : Nat) (rep : EngineReport) :
    (s.engineCounts n e rep).mem = s.mem ∧ (s.engineCounts n e rep).tiles = s.tiles ∧ (s.engineCounts n e rep).pending = s.pending ∧
      ∀ f : Field, f.key ≠ (R.TILE_MAT_STALLS.OPERAND_STALLS n e).key → f.key ≠ (R.TILE_MAT_STALLS.SLOT_WAITS n e).key →
        f.key ≠ (R.TILE_MAT_COUNTS.ACC_CORRECTED n e).key → (s.engineCounts n e rep).get f = s.get f :=
  ⟨rfl, rfl, rfl, fun _ operand slot corrected => (State.get_put_other _ _ corrected).trans
    ((State.get_put_other _ _ slot).trans (State.get_put_other _ _ operand))⟩

/-- A tile on which an engine is no longer stale. -/
def Tile.without (t : Tile) (e : Nat) : Tile := { t with stale := t.stale.filter fun x => x != e }

/-- What was counted on a replaced engine's head: it is gone, and no longer stale. -/
theorem State.fencedHead_drops {s : State} {n e : Nat} {h : Queued} {rest : List Queued} (head : s.queue n e = h :: rest) :
    (s.fencedHead n e).queue n e = rest ∧ (s.fencedHead n e).isStale n e = false ∧ (s.fencedHead n e).mem = s.mem ∧
      (s.fencedHead n e).out = s.out ∧ (s.fencedHead n e).get (R.TILE_SEQ_COUNTS.FENCED_WRITES n) =
        min (2 ^ (R.TILE_SEQ_COUNTS.FENCED_WRITES n).width - 1)
          (s.get (R.TILE_SEQ_COUNTS.FENCED_WRITES n) + (b2n (D.mWriteOut h.desc) + b2n (D.sigEn h.desc))) := by
  let dropped := (s.setQueue n e rest).modTile n (Tile.without · e)
  let counted := dropped.bump (R.TILE_SEQ_COUNTS.FENCED_WRITES n) (b2n (D.mWriteOut h.desc) + b2n (D.sigEn h.desc))
  have runs : s.fencedHead n e = counted.retire n := by rw [State.fencedHead, head]; rfl
  have tile : counted.tile n = ((s.setQueue n e rest).tile n).without e :=
    State.modTile_tile (s.setQueue n e rest) n (Tile.without · e)
  obtain ⟨out, queue⟩ := counted.retire_keeps n
  obtain ⟨tiles, get⟩ := counted.retire_tile n
  obtain ⟨b, ended⟩ := tiles n
  rw [runs]
  refine ⟨?_, ?_, State.retire_same_mem (z := counted) rfl, out, ?_⟩
  · rw [queue, State.queue, tile]
    exact s.setQueue_queue n e rest
  · rw [State.isStale, ended, tile]
    simp [Tile.withIrq, Tile.without]
  · rw [get _ (by simp only [Field.key, R.TILE_SEQ_COUNTS.FENCED_WRITES, R.TILE_SEQ_STATUS.STATE]; omega)]
    exact State.get_put_fits _ _ (by simp [R.TILE_SEQ_COUNTS.FENCED_WRITES])

/-! ### A MATMUL of one pass -/

/-- A MATMUL whose engine is free counts its reports first. -/
theorem State.matmul_counts {s : State} {n e : Nat} {h : Queued} {rep : EngineReport} {mem : MemReport}
    (head : s.runnable n e tMatmul = some h) (fresh : s.isStale n e = false) (free : s.engineFree n e h = true)
    (empty : D.mKBlocks h.desc = 0) : s.matmul n e rep mem = ((s.memReport srcMatrix mem).engineCounts n e rep).complete n e := by
  rw [State.matmul, head]
  dsimp only
  rw [if_neg (Bool.eq_false_iff.1 fresh), if_neg (by simp [free]), if_pos (by simp [empty])]

theorem State.matmul_stale {s : State} {n e : Nat} {h : Queued} {rep : EngineReport} {mem : MemReport}
    (head : s.runnable n e tMatmul = some h) (stale : s.isStale n e = true) : s.matmul n e rep mem = s.fencedHead n e := by
  rw [State.matmul, head]
  dsimp only
  rw [if_pos stale]

/-- A queue whose head may run. -/
theorem State.queue_of_runnable {s : State} {n q ty : Nat} {h : Queued} (head : s.runnable n q ty = some h) :
    ∃ rest, s.queue n q = h :: rest := by
  unfold State.runnable at head
  split at head
  · cases head
  · next x rest there =>
    dsimp only at head
    split at head
    · obtain rfl := Option.some.inj head
      exact ⟨rest, there⟩
    · cases head

theorem State.matmul_streams {s v : State} {n e : Nat} {h : Queued} {rep : EngineReport} {mem : MemReport}
    (reported : v = (s.memReport srcMatrix mem).engineCounts n e rep)
    (head : s.runnable n e tMatmul = some h) (fresh : s.isStale n e = false) (free : s.engineFree n e h = true)
    (work : D.mKBlocks h.desc ≠ 0) (sound : rep.fault = 0) (places : matmulPlaces n h.desc = true) (plain : D.mOutlier h.desc = 0)
    (admits : v.Admits (matmulRanges h.desc false)) : s.matmul n e rep mem = v.matmulRun n e h := by
  have accs : matmulRanges h.desc false ++ v.outlierAccs h.desc = matmulRanges h.desc false := by simp [State.outlierAccs, plain]
  rw [State.matmul, head]
  dsimp only
  rw [if_neg (Bool.eq_false_iff.1 fresh), if_neg (by simp [free]), ← reported, if_neg (by simpa using work), if_neg (by simp [sound]),
    if_neg (by simp [places]), accs, State.gated, admits.gate]

/-- The state after one pass whose every group is released: the slot, what the Harrow counted, and its code tables. -/
def State.passed (u : State) (n e k : Nat) (w : Walk) (x : Slot) : State :=
  ((((u.setSlot n e k x).wrapAdd (R.TILE_HARROW_PLOTS.CODED n e) w.coded).wrapAdd (R.TILE_HARROW_PLOTS.RAW n e) w.raw).bump
    (R.TILE_HARROW_DAMAGE.TABLE_LOADS n e) w.loads).modTile n fun t => { t with harrow := Table.set [] e w.cache t.harrow }

theorem State.runPass_done {u : State} {n e : Nat} {m : Mm} {p : Nat × Nat × List Nat} (done : (u.passWalk n e m.d p.1 0).stop = .done)
    (per : 0 < ceilDiv (D.mColumns m.d) (kindN (D.mWfmt m.d))) :
    u.runPass n e m p 0 = (u.passed n e (D.mSlot m.d) (u.passWalk n e m.d p.1 0)
      (((u.passWalk n e m.d p.1 0).groups.filter fun g => decide (g.1 < D.mKBlocks m.d * ceilDiv (D.mColumns m.d) (kindN (D.mWfmt m.d)))).foldl
        (fun x g => u.addGroup m p.2.2 x g.1 g.2) (u.slot n e (D.mSlot m.d))), .done, D.mKBlocks m.d) := by
  unfold State.runPass
  dsimp only
  rw [done]
  dsimp only
  rw [Nat.mul_div_cancel _ per]
  rfl

theorem State.readNat_of_mem {s t : State} (same : t.mem = s.mem) (a n : Nat) : t.readNat a n = s.readNat a n :=
  congrArg ofLe (State.read_of_mem same a n)

theorem State.passes_of_mem {s t : State} (same : t.mem = s.mem) (d : Bytes) : t.passes d = s.passes d := by
  unfold State.passes
  simp only [State.readNat_of_mem same]

theorem State.zeroPoints_of_mem {s t : State} (same : t.mem = s.mem) (d : Bytes) : t.zeroPoints d = s.zeroPoints d := by
  unfold State.zeroPoints
  simp only [State.readNat_of_mem same]

theorem State.matmulRun_onePass {v u : State} {n e : Nat} {h : Queued} {p : Nat × Nat × List Nat} (start : h.resume = 0)
    (plain : D.mOutlier h.desc = 0) (chain : D.mChain h.desc = 0) (stays : D.mWriteOut h.desc = false) (pass : v.passes h.desc = [p])
    (cleared : u = if D.mAcc h.desc then v else v.setSlot n e (D.mSlot h.desc) Slot.clear)
    (done : (u.passWalk n e h.desc p.1 0).stop = .done) (per : 0 < ceilDiv (D.mColumns h.desc) (kindN (D.mWfmt h.desc))) :
    v.matmulRun n e h = (u.passed n e (D.mSlot h.desc) (u.passWalk n e h.desc p.1 0)
      (((u.passWalk n e h.desc p.1 0).groups.filter fun g =>
          decide (g.1 < D.mKBlocks h.desc * ceilDiv (D.mColumns h.desc) (kindN (D.mWfmt h.desc)))).foldl
        (fun x g => u.addGroup ⟨h.desc, [], v.zeroPoints h.desc⟩ p.2.2 x g.1 g.2) (u.slot n e (D.mSlot h.desc)))).complete n e := by
  have rows : v.outlierRows h.desc = some [] := if_pos (by simp [plain])
  have begins : (if D.mAcc h.desc || h.resume != 0 then v else v.setSlot n e (D.mSlot h.desc) Slot.clear) = u := by
    rw [cleared, start]
    simp
  have mem : u.mem = v.mem := by rw [cleared]; split <;> rfl
  have run := State.runPass_done (m := ⟨h.desc, [], v.zeroPoints h.desc⟩) done per
  rw [State.matmulRun, rows]
  dsimp only
  rw [begins, State.passes_of_mem mem, pass, State.zeroPoints_of_mem mem, start, Nat.zero_div, Nat.zero_mod, List.drop_zero, State.runPasses]
  rw [run]
  dsimp only
  rw [State.runPasses]
  rw [if_neg (by simp [chain]), State.writeOut, if_neg (by simp [stays])]

theorem State.phys_of_get {s t : State} {n : Nat} (same : t.get (R.TILE_ENGINE_MAP.PHYS n) = s.get (R.TILE_ENGINE_MAP.PHYS n)) (e : Nat) :
    t.phys n e = s.phys n e := by rw [State.phys, same, State.phys]

theorem State.setSlot_slot (u : State) (n e k : Nat) (x : Slot) : (u.setSlot n e k x).slot n e k = x := by
  have tile := u.modTile_tile n fun t => { t with slots := Table.set Slot.clear (u.phys n e * 64 + k) x t.slots }
  exact (congrArg (fun t : Tile => Table.get Slot.clear (u.phys n e * 64 + k) t.slots) tile).trans (Table.get_set_same _ _ _ _)

theorem State.setSlot_queue (u : State) (n e k q : Nat) (x : Slot) : (u.setSlot n e k x).queue n q = u.queue n q :=
  (congrArg (fun t : Tile => Table.get [] q t.queues)
    (u.modTile_tile n fun t => { t with slots := Table.set Slot.clear (u.phys n e * 64 + k) x t.slots }) :)

/-- What a pass leaves: its slot, and nothing sent, stored or queued. -/
theorem State.passed_keeps (u : State) (n e k : Nat) (w : Walk) (x : Slot) :
    (u.passed n e k w x).slot n e k = x ∧ (u.passed n e k w x).queue n e = u.queue n e := by
  let c := ((((u.setSlot n e k x).wrapAdd (R.TILE_HARROW_PLOTS.CODED n e) w.coded).wrapAdd (R.TILE_HARROW_PLOTS.RAW n e) w.raw).bump
    (R.TILE_HARROW_DAMAGE.TABLE_LOADS n e) w.loads)
  have tile : (u.passed n e k w x).tile n = { c.tile n with harrow := Table.set [] e w.cache (c.tile n).harrow } := c.modTile_tile n _
  have map : c.get (R.TILE_ENGINE_MAP.PHYS n) = u.get (R.TILE_ENGINE_MAP.PHYS n) := by
    refine (State.get_put_other _ _ ?_).trans ((State.get_put_other _ _ ?_).trans ((State.get_put_other _ _ ?_).trans rfl)) <;>
      (simp only [Field.key, R.TILE_ENGINE_MAP.PHYS, R.TILE_HARROW_PLOTS.CODED, R.TILE_HARROW_PLOTS.RAW,
        R.TILE_HARROW_DAMAGE.TABLE_LOADS]; omega)
  have phys : (u.passed n e k w x).phys n e = (u.setSlot n e k x).phys n e := State.phys_of_get map e
  constructor
  · rw [State.slot, phys, tile]
    exact u.setSlot_slot n e k x
  · rw [State.queue, tile]
    exact u.setSlot_queue n e k e x

/-- A head that completes leaves the engines' slots. -/
theorem State.complete_slot (s : State) (n q e k : Nat) : (s.complete n q).slot n e k = s.slot n e k := by
  unfold State.complete
  split
  · rfl
  · next h rest there =>
    let u := s.setQueue n q rest
    obtain ⟨-, tiles⟩ := u.applySignal_keeps n h.desc
    obtain ⟨ended, get⟩ := (u.applySignal n h.desc).retire_tile n
    obtain ⟨b, tile⟩ := ended n
    have signalled : (u.applySignal n h.desc).get (R.TILE_ENGINE_MAP.PHYS n) = u.get (R.TILE_ENGINE_MAP.PHYS n) := by
      unfold State.applySignal
      split
      · have ctr : D.sigCtr h.desc < 32 := bits_lt _ _ 5
        refine State.get_put_other _ _ ?_
        simp only [Field.key, R.TILE_ENGINE_MAP.PHYS, R.TILE_EVENT.VALUE]
        split <;> omega
      · rfl
    have phys : ((u.applySignal n h.desc).retire n).phys n e = u.phys n e := State.phys_of_get ((get _ (by
      simp only [Field.key, R.TILE_ENGINE_MAP.PHYS, R.TILE_SEQ_STATUS.STATE]; omega)).trans signalled) e
    have slots : (((u.applySignal n h.desc).retire n).tile n).slots = (s.tile n).slots := by
      rw [tile, show (u.applySignal n h.desc).tile n = u.tile n from congrArg (Table.get Tile.reset n) tiles]
      exact (congrArg Tile.slots (s.modTile_tile n fun t => { t with queues := Table.set [] q rest t.queues }) :)
    show Table.get Slot.clear (((u.applySignal n h.desc).retire n).phys n e * 64 + k) (((u.applySignal n h.desc).retire n).tile n).slots = _
    rw [phys, slots]
    rfl

/-! ### Write-outs and chain links (R217, R218, R222) -/

/-- A head that completes changes no register but the sequencer's state and an event counter. -/
theorem State.complete_get (s : State) (n q : Nat) {f : Field} (state : f.key ≠ (R.TILE_SEQ_STATUS.STATE n).key)
    (event : ∀ m c, f.key ≠ (R.TILE_EVENT.VALUE m c).key) : (s.complete n q).get f = s.get f := by
  unfold State.complete
  split
  · rfl
  · next h rest there =>
    obtain ⟨-, get⟩ := ((s.setQueue n q rest).applySignal n h.desc).retire_tile n
    refine (get f state).trans ?_
    unfold State.applySignal
    split
    · exact State.get_put_other _ _ (event _ _)
    · rfl

/-- The registers that a write-out counts in. -/
def writeOutFields (n e : Nat) : List Field :=
  [R.TILE_MAT_SAT.SLOTS n e, R.TILE_MAT_COUNTS.SAT_WRITEOUTS n e, R.TILE_MAT_FPEXC.SLOTS n e, R.TILE_MAT_COUNTS.FPEXC_WRITEOUTS n e]

/-- From `s` to `t` a write-out has been counted. -/
structure State.WriteOutCounted (s t : State) (n e : Nat) : Prop where
  eq : t = { s with regs := t.regs }
  get : ∀ f : Field, (∀ g ∈ writeOutFields n e, f.key ≠ g.key) → (∀ i, f.key ≠ (R.TILE_SCALE_REG.SAT_COUNT n i).key) → t.get f = s.get f

namespace State.WriteOutCounted

variable {s t u : State} {n e : Nat}

theorem refl (s : State) : s.WriteOutCounted s n e := ⟨rfl, fun _ _ _ => rfl⟩

theorem trans (h : s.WriteOutCounted t n e) (k : t.WriteOutCounted u n e) : s.WriteOutCounted u n e where
  eq := by rw [k.eq, h.eq]
  get f hf hi := (k.get f hf hi).trans (h.get f hf hi)

theorem put (s : State) {f : Field} (v : Nat) (hf : f ∈ writeOutFields n e) : s.WriteOutCounted (s.put f v) n e :=
  ⟨rfl, fun _ h _ => State.get_put_other _ _ (h f hf)⟩

theorem satColumns (s : State) (base : Nat) (cols : List Nat) : s.WriteOutCounted (s.satColumns n base cols) n e :=
  List.foldlRecOn (motive := fun t => s.WriteOutCounted t n e) _ _ (refl s) fun _ h c _ =>
    h.trans ⟨rfl, fun _ _ hi => State.get_put_other _ _ (hi (base + c))⟩

theorem countWriteOut (s : State) (n e : Nat) (d : Bytes) (x : Slot) : s.WriteOutCounted (s.countWriteOut n e d x) n e := by
  unfold State.countWriteOut
  extract_lets b saturated excepted
  have first : s.WriteOutCounted saturated n e := by
    unfold saturated
    split
    · exact (put s _ (by simp [writeOutFields])).trans (put _ _ (by simp [writeOutFields]))
    · exact refl s
  have second : saturated.WriteOutCounted excepted n e := by
    unfold excepted
    split
    · exact (put _ _ (by simp [writeOutFields])).trans (put _ _ (by simp [writeOutFields]))
    · exact refl _
  split
  · exact (first.trans second).trans (satColumns _ _ _)
  · exact first.trans second

end State.WriteOutCounted

theorem length_fit (n : Nat) (b : Bytes) : (fit n b).length = n := by
  simp only [fit, List.length_append, List.length_take, List.length_replicate]
  omega

theorem length_regionOfSlot (x : Slot) (lanes cols : Nat) (o : Option (List Nat)) :
    (regionOfSlot x lanes cols o).length = regionBytes lanes cols o.isSome := by
  cases o with
  | none => simp [regionOfSlot, regionBytes, trailerAt, trailerBytes, length_fit, length_leBytes]
  | some o =>
    simp [regionOfSlot, regionBytes, trailerAt, trailerBytes, length_fit, length_leBytes]
    omega

/-- A write-out: the head is gone, nothing is sent, and nothing outside its region changes. -/
theorem State.writeOut_keeps (s : State) (n e : Nat) (d : Bytes) (o : List Nat) :
    (s.writeOut n e d o).queue n e = (s.queue n e).tail ∧ (s.writeOut n e d o).out = s.out ∧
      (s.writeOut n e d o).get (R.TILE_MAT_COUNTS.CHAIN_LINKS n e) = s.get (R.TILE_MAT_COUNTS.CHAIN_LINKS n e) ∧
      ∀ a, ¬ (D.mWriteOut d = true ∧ D.mOut d ≤ a ∧ a < D.mOut d + regionBytes (D.mLanes d) (D.mColumns d) (D.mOutlier d != 0)) →
        (s.writeOut n e d o).byte a = s.byte a := by
  have links (t : State) : (t.complete n e).get (R.TILE_MAT_COUNTS.CHAIN_LINKS n e) = t.get (R.TILE_MAT_COUNTS.CHAIN_LINKS n e) :=
    State.complete_get t n e (by simp only [Field.key, R.TILE_MAT_COUNTS.CHAIN_LINKS, R.TILE_SEQ_STATUS.STATE]; omega)
      (fun m c => by simp only [Field.key, R.TILE_MAT_COUNTS.CHAIN_LINKS, R.TILE_EVENT.VALUE]; omega)
  have same (t : State) : (t.complete n e).mem = t.mem := State.complete_same_mem (z := t) rfl
  unfold State.writeOut
  split
  · next writes =>
    extract_lets x stored
    have counted := State.WriteOutCounted.countWriteOut stored n e d x
    obtain ⟨out, queue⟩ := (stored.countWriteOut n e d x).complete_keeps n e
    have kept := links (stored.countWriteOut n e d x)
    have mem := same (stored.countWriteOut n e d x)
    generalize stored.countWriteOut n e d x = u at *
    have shown : u.get (R.TILE_MAT_COUNTS.CHAIN_LINKS n e) = stored.get (R.TILE_MAT_COUNTS.CHAIN_LINKS n e) := by
      refine counted.get _ ?_ fun i => ?_
      · simp only [writeOutFields, List.forall_mem_cons, Field.key, R.TILE_MAT_COUNTS.CHAIN_LINKS, R.TILE_MAT_SAT.SLOTS,
          R.TILE_MAT_COUNTS.SAT_WRITEOUTS, R.TILE_MAT_FPEXC.SLOTS, R.TILE_MAT_COUNTS.FPEXC_WRITEOUTS]
        refine ⟨?_, ?_, ?_, ?_, List.forall_mem_nil _⟩ <;> omega
      · simp only [Field.key, R.TILE_MAT_COUNTS.CHAIN_LINKS, R.TILE_SCALE_REG.SAT_COUNT]
        omega
    have tiles : u.tiles = s.tiles := (congrArg State.tiles counted.eq :)
    refine ⟨queue.trans (congrArg (fun l => (Table.get [] e (Table.get Tile.reset n l).queues).tail) tiles),
      out.trans (congrArg State.out counted.eq :), kept.trans shown, fun a outside => ?_⟩
    rw [State.byte, mem, show u.mem = stored.mem from (congrArg State.mem counted.eq :)]
    refine s.byte_write_outside _ a _ fun inside => outside ⟨writes, ?_⟩
    have listed : (if D.mOutlier d == 0 then none else some o).isSome = (D.mOutlier d != 0) := by
      by_cases plain : D.mOutlier d = 0 <;> simp [plain]
    rwa [length_regionOfSlot, listed] at inside
  · obtain ⟨out, queue⟩ := s.complete_keeps n e
    exact ⟨queue, out, links s, fun a _ => congrArg (Table.get 0 a) (same s)⟩

/-- A chain link adds what came into its slot, counts it and writes out. -/
theorem State.chainAdd_links {s v : State} {n e : Nat} {h : Queued} {rest : List Queued} {rep : EngineReport} {mem : MemReport}
    (reported : v = (s.memReport srcMatrix mem).engineCounts n e rep) (head : s.queue n e = h :: rest) (waiting : h.waiting = true)
    (type : D.type h.desc = tMatmul) (dep : s.depHolds n h.desc 1 = true) (fresh : s.isStale n e = false) (sound : rep.fault = 0)
    (admits : v.Admits [⟨D.mChain h.desc, regionBytes (D.mLanes h.desc) (D.mColumns h.desc) false, false⟩]) :
    ∃ x, s.chainAdd n e rep mem = ((v.setSlot n e (D.mSlot h.desc) x).bump (R.TILE_MAT_COUNTS.CHAIN_LINKS n e)).writeOut n e h.desc h.outliers := by
  refine ⟨?_, ?_⟩
  rotate_left
  · rw [State.chainAdd, head]
    dsimp only
    rw [if_neg (by simp [waiting, type, dep]), if_neg (Bool.eq_false_iff.1 fresh), ← reported, if_neg (by simp [sound]), State.gated,
      admits.gate]

theorem State.writeOutTimeout_fails {s : State} {n e : Nat} {h : Queued} {rest : List Queued} (head : s.queue n e = h :: rest)
    (type : D.type h.desc = tMatmul) (writes : D.mWriteOut h.desc = true) (settled : h.refetch = none) (fresh : s.isStale n e = false)
    (waiting : h.waiting = true) (dep0 : s.depHolds n h.desc 0 = true) (dep1 : s.depHolds n h.desc 1 = true) :
    s.writeOutTimeout n e = s.engineFault n e e 3 (D.mSlot h.desc) h := by
  rw [State.writeOutTimeout, head]
  exact if_pos (by simp [type, writes, settled, fresh, waiting, dep0, dep1])

end Sys2Proof.Machine

open Sys2Proof Sys2Proof.Machine

/-- Settles O26: each row in its own branch, on the state with what the engine and the memories report. -/
theorem matrixEngines : Obligations.MatrixEngines := by
  intro s v n e h rep mem alive hn he counted
  have reported := State.Reported.memReport s srcMatrix mem
  obtain ⟨cmem, ctiles, cpending, cget⟩ := (s.memReport srcMatrix mem).engineCounts_keeps n e rep
  rw [← counted] at cmem ctiles cpending cget
  have vmem := cmem.trans reported.mem
  have vtiles := ctiles.trans reported.tiles
  have vpending := cpending.trans reported.pending
  have queue : v.queue n e = s.queue n e := congrArg (fun l => Table.get [] e (Table.get Tile.reset n l).queues) vtiles
  refine ⟨fun head stale => ?_, fun fresh => ⟨fun head free empty => ?_, fun u p head free work pass sound places start plain chain stays
    gate cleared => ?_, fun rest head waiting type dep sound gate => ?_, fun rest head type writes settled waiting
    dep0 dep1 => ?_⟩, fun a m rest head fetch other => ?_⟩
  · obtain ⟨rest, there⟩ := State.queue_of_runnable head
    obtain ⟨gone, unstale, same, out, writes⟩ := State.fencedHead_drops there
    exact completes_whenAlive (f := (State.matmul · n e rep mem)) alive rfl (State.matmul_stale head stale)
      (State.fencedHead_kept (z := s) (.refl s)).pending ⟨by rw [gone, there]; rfl, unstale, same, out, writes⟩
  · exact completes_whenAlive (f := (State.matmul · n e rep mem)) alive rfl
      ((State.matmul_counts head fresh free empty).trans (congrArg (State.complete · n e) counted.symm)) ((State.complete_kept (z := v) (.refl _)).pending.trans vpending) rfl
  · intro w need done per
    have runs := (State.matmul_streams counted head fresh free work sound places plain (State.admits_of_gate gate)).trans
      (State.matmulRun_onePass start plain chain stays pass cleared done per)
    have tail : u.queue n e = s.queue n e ∧ u.mem = v.mem ∧ u.out = v.out ∧ u.pending = v.pending := by
      rw [cleared]
      split
      · exact ⟨queue, rfl, rfl, rfl⟩
      · exact ⟨(State.setSlot_queue _ _ _ _ _ _).trans queue, rfl, rfl, rfl⟩
    obtain ⟨uqueue, umem, uout, upending⟩ := tail
    set x := (w.groups.filter fun g => decide (g.1 < need)).foldl
      (fun x g => u.addGroup ⟨h.desc, [], v.zeroPoints h.desc⟩ p.2.2 x g.1 g.2) (u.slot n e (D.mSlot h.desc))
    obtain ⟨slot, kept⟩ := u.passed_keeps n e (D.mSlot h.desc) w x
    obtain ⟨out, gone⟩ := (u.passed n e (D.mSlot h.desc) w x).complete_keeps n e
    refine completes_whenAlive (f := (State.matmul · n e rep mem)) alive rfl runs
      ((State.complete_kept (z := u.passed n e (D.mSlot h.desc) w x) (.refl _)).pending.trans (upending.trans vpending))
      ⟨(State.complete_slot _ _ _ _ _).trans slot, gone.trans (congrArg List.tail (kept.trans uqueue)),
        (State.complete_same_mem (z := u.passed n e (D.mSlot h.desc) w x) rfl).trans (umem.trans vmem), out.trans uout⟩
  · obtain ⟨x, runs⟩ := State.chainAdd_links counted head waiting type dep fresh sound (State.admits_of_gate gate)
    let y := (v.setSlot n e (D.mSlot h.desc) x).bump (R.TILE_MAT_COUNTS.CHAIN_LINKS n e)
    obtain ⟨gone, out, links, outside⟩ := y.writeOut_keeps n e h.desc h.outliers
    have queued : y.queue n e = h :: rest := (State.setSlot_queue _ _ _ _ _ _).trans (queue.trans head)
    have before : v.get (R.TILE_MAT_COUNTS.CHAIN_LINKS n e) = s.get (R.TILE_MAT_COUNTS.CHAIN_LINKS n e) := by
      refine (cget _ ?_ ?_ ?_).trans (reported.get _ ?_)
      · simp only [Field.key, R.TILE_MAT_COUNTS.CHAIN_LINKS, R.TILE_MAT_STALLS.OPERAND_STALLS]
        omega
      · simp only [Field.key, R.TILE_MAT_COUNTS.CHAIN_LINKS, R.TILE_MAT_STALLS.SLOT_WAITS]
        omega
      · simp only [Field.key, R.TILE_MAT_COUNTS.CHAIN_LINKS, R.TILE_MAT_COUNTS.ACC_CORRECTED]
        omega
      · refine Field.notReported_of_tile ?_ ?_ <;>
          (simp only [Field.key, R.TILE_MAT_COUNTS.CHAIN_LINKS]; omega)
    have linked : y.get (R.TILE_MAT_COUNTS.CHAIN_LINKS n e) = min (2 ^ (R.TILE_MAT_COUNTS.CHAIN_LINKS n e).width - 1)
        (v.get (R.TILE_MAT_COUNTS.CHAIN_LINKS n e) + 1) := State.get_put_fits _ _ (by simp [R.TILE_MAT_COUNTS.CHAIN_LINKS])
    refine completes_whenAlive (f := (State.chainAdd · n e rep mem)) alive rfl runs
      ((State.writeOut_kept (z := y) (.refl y)).pending.trans vpending)
      ⟨by rw [gone, queued]; rfl, out, by rw [links, linked, before], fun a ha => (outside a ha).trans ?_⟩
    exact congrArg (Table.get 0 a) vmem
  · exact completes_whenAlive (f := (State.writeOutTimeout · n e)) alive rfl
      (State.writeOutTimeout_fails head type writes settled fresh waiting dep0 dep1) (State.engineFault_kept (z := s) (.refl s)).pending rfl
  · intro len u whole
    have master : (a == D.mOutlier h.desc && a != 0) = false := by simp [other]
    have runs : s.plotRefetched n e = (((u.write a (u.read m len)).bump (R.TILE_SEQ_COUNTS.REFETCHES n)).raise
        (evPlotRefetched n e a)).setHead n e { h with refetch := none } := by
      rw [State.plotRefetched, head]
      dsimp only
      rw [fetch]
      dsimp only
      rw [master, if_neg (by simp), if_neg (by simp), whole]
    refine completes_whenAlive (f := (State.plotRefetched · n e)) alive rfl runs ?_ rfl
    exact (State.setHead_kept (State.raise_kept (State.bump_kept (State.write_kept (State.passRange_kept (.refl s)))))).pending
end

section
/-!
SUPPORT. Attention and sampling (R275 to R281, R325, R331, R332): what a report of the memories leaves of what they read, and the
branches that the statements name.
-/

namespace Sys2Proof.Machine

/-! ### What a report leaves of the device's place -/

theorem State.Reported.members {s t : State} (h : s.Reported t) : t.members = s.members := by
  have assigned : t.assigned = s.assigned := State.isSet_of_get (h.get _ ⟨by decide, by decide⟩)
  have self : t.self = s.self := by
    simp only [State.self, h.get R.GLB_DEVPOS.POSITION ⟨by decide, by decide⟩, h.get R.GLB_DEVPOS.GROUP ⟨by decide, by decide⟩]
  unfold State.members
  rw [assigned, self]
  split
  · refine List.filter_congr fun d hd => ?_
    have := List.mem_range.1 hd
    rw [h.get (R.GLB_PEER_EPOCH.EPOCH d) ⟨by simp only [Field.key, R.GLB_PEER_EPOCH.EPOCH]; omega, fun g hg => ?_⟩]
    have apart : ∀ g ∈ errorFields, g.key < 0x200 * 64 ∨ 0x400 * 64 ≤ g.key := by decide
    have := apart g hg
    simp only [Field.key, R.GLB_PEER_EPOCH.EPOCH] at this ⊢
    omega
  · rfl

theorem State.Reported.ownedLanes {s t : State} (h : s.Reported t) (inst : Option Nat) (d : Bytes) : t.ownedLanes inst d = s.ownedLanes inst d := by
  have instMembers (i : Nat) : t.instMembers i = s.instMembers i := by
    unfold State.instMembers
    rw [h.cfg, h.members]
  have group : t.groupSizeOf inst = s.groupSizeOf inst := by
    cases inst with
    | none => rfl
    | some i => simp only [State.groupSizeOf, instMembers, h.get R.GLB_DEVPOS.GROUP ⟨by decide, by decide⟩]
  unfold State.ownedLanes State.ownsLane
  rw [group, h.get R.GLB_DEVPOS.POSITION ⟨by decide, by decide⟩]

theorem State.Reported.headsOf {s t : State} (h : s.Reported t) (inst : Option Nat) : t.headsOf inst = s.headsOf inst := by
  rw [State.headsOf, h.cfg, State.headsOf]

theorem State.Reported.tile {s t : State} (h : s.Reported t) (n : Nat) : t.tile n = s.tile n :=
  congrArg (Table.get Tile.reset n) h.tiles

theorem State.Reported.queue {s t : State} (h : s.Reported t) (n q : Nat) : t.queue n q = s.queue n q :=
  congrArg (fun x : Tile => Table.get [] q x.queues) (h.tile n)

/-! ### ATTEND (R325) and its merge (R331) -/

theorem State.attendReport_reported (s : State) (n clocks mask : Nat) (reps : List (Nat × EngineReport)) (mem : MemReport) :
    (s.attendReport n clocks mask reps mem).tiles = s.tiles ∧ (s.attendReport n clocks mask reps mem).cfg = s.cfg ∧
      (s.attendReport n clocks mask reps mem).pending = s.pending := by
  have reported := State.Reported.memReport s srcAttention mem
  refine List.foldlRecOn (motive := fun t : State => t.tiles = s.tiles ∧ t.cfg = s.cfg ∧ t.pending = s.pending) _ _
    ⟨reported.tiles, reported.cfg, reported.pending⟩ fun t h e _ => h

theorem State.scratched_admits {s : State} {n q : Nat} {l : List Acc} {go : State → State}
    (own : ∀ x ∈ l, inScratch n x.addr x.len = true) (admits : s.Admits l) : s.scratched n q l go = go s := by
  have within : (l.find? fun x => !inScratch n x.addr x.len) = none := List.find?_eq_none.2 fun x hx => by simp [own x hx]
  rw [State.scratched, within]
  dsimp only
  rw [State.gated, admits.gate]

theorem State.gated_admits {s : State} {n q : Nat} {l : List Acc} {go : State → State} (admits : s.Admits l) : s.gated n q l go = go s := by
  rw [State.gated, admits.gate]

/-- An ATTEND whose engines are free and whose accesses pass runs on what was reported. -/
theorem State.attend_runs {s u : State} {n clocks : Nat} {h : Queued} {reps : List (Nat × EngineReport)} {mem : MemReport}
    (head : s.runnable n 9 tAttend = some h)
    (idle : ∀ e ∈ bitList 8 (D.aEngineMask h.desc), ∀ x rest, s.queue n e = x :: rest → x.started = false)
    (sound : ∀ e ∈ reps, bit (D.aEngineMask h.desc) e.1 = true → e.2.fault = 0)
    (reported : u = s.attendReport n clocks (D.aEngineMask h.desc) reps mem)
    (own : ∀ x ∈ u.attendAccs h.desc, inScratch n x.addr x.len = true) (places : u.Admits (u.attendAccs h.desc))
    (reads : u.Admits (u.attendReads h.desc (s.headsOf (s.tile n).inst))) :
    s.attend n clocks reps mem = u.attendRun n (s.headsOf (s.tile n).inst) h := by
  obtain ⟨tiles, cfg, -⟩ := s.attendReport_reported n clocks (D.aEngineMask h.desc) reps mem
  rw [← reported] at tiles cfg
  have heads : u.headsOf (u.tile n).inst = s.headsOf (s.tile n).inst := by
    rw [State.headsOf, cfg, State.tile, tiles]
    rfl
  have faults : (reps.find? fun e => bit (D.aEngineMask h.desc) e.1 && e.2.fault != 0) = none :=
    List.find?_eq_none.2 fun e he => by
      intro both
      obtain ⟨named, fault⟩ := Bool.and_eq_true_iff.1 both
      simp [sound e he named] at fault
  rw [State.attend, head]
  dsimp only
  rw [if_neg, faults]
  · dsimp only
    rw [← reported, State.attendGo, State.scratched_admits own places, heads, State.gated_admits reads, heads]
  · intro busy
    obtain ⟨e, he, started⟩ := List.any_eq_true.1 busy
    split at started
    · cases started
    · next x rest there => rw [idle e he x rest there] at started; cases started

/-- Merging a lane writes memory alone. -/
theorem State.mergeLane_tiles (s : State) (d t : Bytes) (l : Nat) :
    (s.mergeLane d t l).tiles = s.tiles ∧ (s.mergeLane d t l).out = s.out ∧ (s.mergeLane d t l).pending = s.pending := by
  unfold State.mergeLane
  dsimp only
  split <;> exact ⟨rfl, rfl, rfl⟩

theorem State.mergeLanes_tiles (s : State) (d t : Bytes) (l : List (Nat × Bytes)) :
    (l.foldl (fun (s : State) e => s.mergeLane d t e.1) s).tiles = s.tiles ∧
      (l.foldl (fun (s : State) e => s.mergeLane d t e.1) s).out = s.out ∧
      (l.foldl (fun (s : State) e => s.mergeLane d t e.1) s).pending = s.pending :=
  List.foldlRecOn (motive := fun u : State => u.tiles = s.tiles ∧ u.out = s.out ∧ u.pending = s.pending) _ _ ⟨rfl, rfl, rfl⟩
    fun u h e _ => by
      obtain ⟨tiles, out, pending⟩ := u.mergeLane_tiles d t e.1
      exact ⟨tiles.trans h.1, out.trans h.2.1, pending.trans h.2.2⟩

/-! ### SAMPLE (R275 to R281) -/

section
variable {s u : State} (same : u.mem = s.mem)
include same

theorem State.pairs_of_mem (a n : Nat) : u.pairs a n = s.pairs a n := by
  unfold State.pairs
  simp only [State.readNat_of_mem same]

theorem State.samplingRecord_of_mem (table lane : Nat) : u.samplingRecord table lane = s.samplingRecord table lane :=
  State.read_of_mem same _ _

theorem State.recordWhole_of_mem (r : Bytes) : u.recordWhole r = s.recordWhole r := by
  unfold State.recordWhole
  rw [State.pairs_of_mem same, State.pairs_of_mem same]

theorem State.localLane_of_mem (d : Bytes) (l : Nat) : u.localLane d l = s.localLane d l := by
  have z (r : Bytes) (bias pen : List (Nat × Nat)) (t : Nat) (x : Num) : u.zOf r bias pen t x = s.zOf r bias pen t x := by
    unfold State.zOf
    rw [State.readNat_of_mem same]
  unfold State.localLane
  simp only [State.samplingRecord_of_mem same, State.readNat_of_mem same, State.pairs_of_mem same, z]

end

/-- The records of the lanes in use are whole, as the sampler reads them. -/
def State.recordsWhole (s : State) (d : Bytes) : Prop :=
  ∀ l, l < 16 → l < D.sLanes d → S.active (s.samplingRecord (D.sLaneTable d) l) = true →
    s.recordWhole (s.samplingRecord (D.sLaneTable d) l) = true

theorem State.Reported.recordsWhole {s u : State} {d : Bytes} (h : s.Reported u) (whole : s.recordsWhole d) : u.recordsWhole d :=
  fun l hl below active => by
    rw [State.samplingRecord_of_mem h.mem] at active ⊢
    rw [State.recordWhole_of_mem h.mem]
    exact whole l hl below active

/-- A SAMPLE of its stage whose accesses pass and whose records are whole runs its body. -/
theorem State.sample_runs {s u : State} {n : Nat} {final : Bool} {mem : MemReport} {h : Queued} {accs : Bytes → List Acc}
    {body : State → Bytes → State} (head : s.runnable n 10 tSample = some h) (stage : D.sFinal h.desc = final)
    (some_vocab : D.sVocabCount h.desc ≠ 0) (reported : u = s.memReport srcDrill mem)
    (own : ∀ x ∈ accs h.desc, inScratch n x.addr x.len = true) (places : u.Admits (accs h.desc)) (lists : u.Admits (u.listAccs h.desc))
    (whole : u.recordsWhole h.desc) : s.sample n final mem (List.range 16) accs body = (body u h.desc).complete n 10 := by
  rw [State.sample, head]
  dsimp only
  rw [if_neg (by simp [stage]), ← reported, if_neg (by simpa using some_vocab), State.scratched_admits own places, State.gated_admits lists,
    if_neg]
  intro bad
  obtain ⟨l, hl, broken⟩ := List.any_eq_true.1 bad
  simp only [Bool.and_eq_true, decide_eq_true_eq, Bool.not_eq_true'] at broken
  obtain ⟨⟨below, active⟩, damaged⟩ := broken
  rw [whole l (List.mem_range.1 hl) below active] at damaged
  cases damaged

/-- A lane's choice is written in its 16 bytes; no other byte changes. -/
theorem State.putChoice_byte (s : State) (n : Nat) (inst : Option Nat) (d : Bytes) (l : Nat) (c : Choice) (a : Nat)
    (outside : ¬ (D.sLogit d + 16 * l ≤ a ∧ a < D.sLogit d + 16 * l + 16)) : (s.putChoice n inst d l c).byte a = s.byte a := by
  unfold State.putChoice
  extract_lets r token drawn counted written last lane set valid greedy
  have before : counted.mem = s.mem := by
    simp only [counted, drawn]
    split <;> split <;> rfl
  have shown : greedy.mem = written.mem := rfl
  have stored : written.byte a = counted.byte a := by
    refine counted.byte_write_outside _ a _ ?_
    rw [choiceRecord, length_fit]
    exact outside
  clear_value greedy written
  have whole : greedy.byte a = s.byte a := (congrArg (Table.get 0 a) shown).trans (stored.trans (congrArg (Table.get 0 a) before))
  cases inst with
  | none => exact whole
  | some i => exact whole

/-- The choices of the owned lanes, each read where the candidates lie and written where its lane does. -/
theorem State.putChoices_keeps (u : State) (n : Nat) (inst : Option Nat) (d : Bytes) (owned : List Nat) :
    let v := (List.zip (List.range owned.length) owned).foldl (fun (s : State) e => s.putChoice n inst d e.2 (s.finalLane d e.1 e.2)) u
    v.pending = u.pending ∧
      ∀ a, (∀ l ∈ owned, ¬ (D.sLogit d + 16 * l ≤ a ∧ a < D.sLogit d + 16 * l + 16)) → v.byte a = u.byte a := by
  intro v
  refine List.foldlRecOn (motive := fun w : State => w.pending = u.pending ∧
    ∀ a, (∀ l ∈ owned, ¬ (D.sLogit d + 16 * l ≤ a ∧ a < D.sLogit d + 16 * l + 16)) → w.byte a = u.byte a) _ _
    ⟨rfl, fun _ _ => rfl⟩ fun w kept e among => ?_
  obtain ⟨pending, bytes⟩ := kept
  exact ⟨(State.putChoice_kept (z := w) (.refl w)).pending.trans pending, fun a outside =>
    (w.putChoice_byte n inst d e.2 _ a (outside e.2 (List.of_mem_zip among).2)).trans (bytes a outside)⟩

end Sys2Proof.Machine

open Sys2Proof Sys2Proof.Machine

/-- Settles O27: each command runs on what its accesses may read, and writes where its lanes lie. -/
theorem attentionAndSampling : Obligations.AttentionAndSampling := by
  refine ⟨fun s n h mem alive hn => ⟨fun clocks reps u head idle sound reported own gate gate' => ?_,
    fun rest t u head waiting type table reported => ?_⟩, fun s u n h mem alive hn head some_vocab reported lists whole => ⟨?_, ?_⟩⟩
  · obtain ⟨-, -, pending⟩ := s.attendReport_reported n clocks (D.aEngineMask h.desc) reps mem
    rw [← reported] at pending
    exact completes_whenAlive (f := (State.attend · n clocks reps mem)) alive rfl
      (State.attend_runs head idle sound reported own (State.admits_of_gate gate) (State.admits_of_gate gate'))
      ((State.attendRun_kept (z := u) (.refl u)).pending.trans pending) rfl
  · intro mine ready
    have told := State.Reported.memReport s srcAttention mem
    rw [← reported] at told
    obtain ⟨tiles, out, pending⟩ := u.mergeLanes_tiles h.desc t mine
    generalize merged : mine.foldl (fun (s : State) e => s.mergeLane h.desc t e.1) u = m at *
    obtain ⟨out', queue⟩ := m.complete_keeps n 9
    refine completes_whenAlive (f := (State.attendMerge · n mem)) alive rfl (t := m.complete n 9) ?_
      ((State.complete_kept (z := m) (.refl m)).pending.trans (pending.trans told.pending)) ⟨rfl, ?_, out'.trans out⟩
    · rw [State.attendMerge, head]
      dsimp only
      rw [← table, ← reported, if_pos]
      · exact congrArg (State.complete · n 9) merged
      · simp only [waiting, type, beq_self_eq_true, Bool.and_self, Bool.true_and]
        exact List.all_eq_true.2 ready
    · have kept : m.queue n 9 = s.queue n 9 :=
        (congrArg (fun l => Table.get [] 9 (Table.get Tile.reset n l).queues) tiles).trans (told.queue n 9)
      rw [queue, kept, head]
      rfl
  · intro final own gate outs
    have told := State.Reported.memReport s srcDrill mem
    rw [← reported] at told
    have lanes : (List.range (D.sLanes h.desc)).map (u.localLane h.desc) = outs :=
      List.map_congr_left fun l _ => State.localLane_of_mem told.mem _ _
    let w := (u.write (D.sCand h.desc) (outs.flatMap Prod.fst)).bump (R.TILE_DRILL_COUNTS.NAN_LOGITS n) (outs.filter Prod.snd).length
    refine completes_whenAlive (f := (State.sampleLocal · n mem)) alive rfl (t := w.complete n 10) ?_
      ((State.complete_kept (z := w) (.refl w)).pending.trans told.pending) ⟨rfl, fun a outside => ?_⟩
    · refine (State.sample_runs head final some_vocab reported own (State.admits_of_gate gate) (State.admits_of_gate lists)
        ?_).trans ?_
      · exact told.recordsWhole whole
      · simp only [lanes]
        rfl
    · have same : (w.complete n 10).mem = w.mem := State.complete_same_mem (z := w) rfl
      exact (congrArg (Table.get 0 a) same).trans ((u.byte_write_outside _ a _ outside).trans (congrArg (Table.get 0 a) told.mem))
  · intro final own gate
    have told := State.Reported.memReport s srcDrill mem
    rw [← reported] at told
    have owns : u.ownedLanes (s.tile n).inst h.desc = s.ownedLanes (s.tile n).inst h.desc := told.ownedLanes _ _
    have told_mem := told.mem
    have runs := State.sample_runs (n := n) (final := true) (accs := fun d => [⟨D.sCand d, 576 * D.sVocabCount d *
        (s.ownedLanes (s.tile n).inst d).length, false⟩, ⟨D.sLaneTable d + 0x800, 0x800, false⟩, ⟨D.sLogit d, 16 * D.sLanes d, true⟩])
      (body := fun s' d => (List.zip (List.range (s'.ownedLanes (s.tile n).inst d).length) (s'.ownedLanes (s.tile n).inst d)).foldl
        (fun s' e => s'.putChoice n (s.tile n).inst d e.2 (s'.finalLane d e.1 e.2)) s')
      head final some_vocab reported own (State.admits_of_gate gate) (State.admits_of_gate lists) (told.recordsWhole whole)
    rw [told.ownedLanes] at runs
    obtain ⟨pending, bytes⟩ := u.putChoices_keeps n (s.tile n).inst h.desc (s.ownedLanes (s.tile n).inst h.desc)
    generalize chosen : (List.zip (List.range (s.ownedLanes (s.tile n).inst h.desc).length) (s.ownedLanes (s.tile n).inst h.desc)).foldl
      (fun s' e => s'.putChoice n (s.tile n).inst h.desc e.2 (s'.finalLane h.desc e.1 e.2)) u = w at *
    have same : (w.complete n 10).mem = w.mem := State.complete_same_mem (z := w) rfl
    exact completes_whenAlive (f := (State.sampleFinal · n mem)) alive rfl runs
      ((State.complete_kept (z := w) (.refl w)).pending.trans (pending.trans told.pending))
      ⟨rfl, fun a outside => (congrArg (Table.get 0 a) same).trans ((bytes a outside).trans (congrArg (Table.get 0 a) told_mem))⟩
end

section
/-!
SUPPORT. Movers (R178): the pieces into which a run is cut, what reading and writing them leaves, and where no protection stands in
the way.
-/

namespace Sys2Proof.Machine

/-! ### The pieces of a range -/

/-- The pieces follow one another and cover the range of `n` bytes from `a`. -/
def Consecutive : Nat → Nat → List (Nat × Nat) → Prop
  | _, n, [] => n = 0
  | a, n, p :: l => p.1 = a ∧ p.2 ≤ n ∧ Consecutive (a + p.2) (n - p.2) l

theorem consecutive_lines (a n k j : Nat) (reach : a + n ≤ (a / 64 + j + k) * 64) (need : (a / 64 + j + k) * 64 < a + n + 64) :
    Consecutive (min (a + n) (max a ((a / 64 + j) * 64))) (a + n - min (a + n) (max a ((a / 64 + j) * 64)))
      ((List.range' j k).map fun i =>
        let lo := max a ((a / 64 + i) * 64)
        (lo, min (a + n) ((a / 64 + i + 1) * 64) - lo)) := by
  induction k generalizing j with
  | zero =>
    show _ = 0
    omega
  | succ k ih =>
    have rest := ih (j + 1) (by omega) (by omega)
    rw [List.range'_succ, List.map_cons]
    refine ⟨by dsimp only; omega, by dsimp only; omega, ?_⟩
    convert rest using 1 <;> (dsimp only; omega)

theorem linePieces_consecutive (a n : Nat) : Consecutive a n (linePieces a n) := by
  unfold linePieces
  split
  · next none_there => exact eq_of_beq none_there
  · next some_there =>
    have pos : n ≠ 0 := by simpa using some_there
    have all := consecutive_lines a n ((a + n - 1) / 64 - a / 64 + 1) 0 (by omega) (by omega)
    rw [← List.range_eq_range'] at all
    convert all using 1 <;> omega

theorem Consecutive.within {a n : Nat} {l : List (Nat × Nat)} (h : Consecutive a n l) : ∀ p ∈ l, a ≤ p.1 ∧ p.1 + p.2 ≤ a + n := by
  induction l generalizing a n with
  | nil => exact fun p hp => nomatch hp
  | cons q l ih =>
    obtain ⟨at_start, fits, rest⟩ := h
    intro p hp
    rcases List.mem_cons.1 hp with rfl | later
    · omega
    · have := ih rest p later
      omega

/-! ### Reading and writing a range for a requester -/

theorem State.read_append (s : State) (a m n : Nat) : s.read a (m + n) = s.read a m ++ s.read (a + m) n := by
  induction m generalizing a with
  | zero => rw [Nat.zero_add]; rfl
  | succ m ih => rw [Nat.succ_add, State.read, ih, State.read, List.cons_append, Nat.add_assoc, Nat.add_comm 1]

theorem State.length_read (s : State) (a n : Nat) : (s.read a n).length = n := by
  induction n generalizing a with
  | zero => rfl
  | succ n ih => rw [State.read, List.length_cons, ih]

theorem State.read_congr {s t : State} (h : ∀ a, t.byte a = s.byte a) (a n : Nat) : t.read a n = s.read a n := by
  induction n generalizing a with
  | zero => rfl
  | succ n ih => rw [State.read, State.read, ih, h]

theorem slice_getD (bs : Bytes) (off n k : Nat) (inside : k < n) : (slice bs off n).getD k 0 = bs.getD (off + k) 0 := by
  simp only [slice, List.getD_eq_getElem?_getD, List.getElem?_take, List.getElem?_drop, if_pos inside]

theorem length_slice (bs : Bytes) (off n : Nat) (fits : off + n ≤ bs.length) : (slice bs off n).length = n := by
  simp only [slice, List.length_take, List.length_drop]
  omega

/-- One piece read for a requester. -/
def State.readPiece (req : Option Nat) (src : Nat) (acc : State × Bytes) (p : Nat × Nat) : State × Bytes :=
  match acc.1.violated req p.1 with
  | some v => (acc.1.violation v req p.1 src false, acc.2 ++ List.replicate p.2 0)
  | none => (acc.1.passLine (p.1 / 64 * 64) false, acc.2 ++ acc.1.read p.1 p.2)

/-- One piece of bytes that lie from `a` written for a requester. -/
def State.writePiece (req : Option Nat) (src a : Nat) (bs : Bytes) (s : State) (p : Nat × Nat) : State :=
  match s.violated req p.1 with
  | some v => s.violation v req p.1 src true
  | none => (s.passLine (p.1 / 64 * 64) true).write p.1 (slice bs (p.1 - a) p.2)

theorem State.readFor_pieces (s : State) (req : Option Nat) (src a n : Nat) :
    s.readFor req src a n = (linePieces a n).foldl (State.readPiece req src) (s, []) := rfl

theorem State.writeFor_pieces (s : State) (req : Option Nat) (src a : Nat) (bs : Bytes) :
    s.writeFor req src a bs = (linePieces a bs.length).foldl (State.writePiece req src a bs) s := rfl

theorem State.length_readPiece (req : Option Nat) (src : Nat) (acc : State × Bytes) (p : Nat × Nat) :
    (State.readPiece req src acc p).2.length = acc.2.length + p.2 := by
  unfold State.readPiece
  split <;> simp [State.length_read]

theorem State.length_readFor (s : State) (req : Option Nat) (src a n : Nat) : (s.readFor req src a n).2.length = n := by
  have pieces : ∀ (l : List (Nat × Nat)) (a n : Nat) (acc : State × Bytes), Consecutive a n l →
      (l.foldl (State.readPiece req src) acc).2.length = acc.2.length + n := by
    intro l
    induction l with
    | nil =>
      intro a n acc h
      rw [show n = 0 from h]
      rfl
    | cons p l ih =>
      rintro a n acc ⟨-, fits, rest⟩
      rw [List.foldl_cons, ih _ _ _ rest, State.length_readPiece]
      omega
  rw [State.readFor_pieces, pieces _ _ _ _ (linePieces_consecutive a n), List.length_nil, Nat.zero_add]

/-- A write for a requester changes no byte outside its range. -/
theorem State.writeFor_byte_outside (s : State) (req : Option Nat) (src a : Nat) (bs : Bytes) (b : Nat)
    (outside : ¬ (a ≤ b ∧ b < a + bs.length)) : (s.writeFor req src a bs).byte b = s.byte b := by
  have within := (linePieces_consecutive a bs.length).within
  rw [State.writeFor_pieces]
  refine List.foldlRecOn (motive := fun u : State => u.byte b = s.byte b) _ _ rfl fun u kept p hp => ?_
  have inside := within p hp
  unfold State.writePiece
  split
  · next v _ => exact (congrArg (Table.get 0 b) (State.violation_same_mem (z := u) (v := v) (a := p.1) rfl)).trans kept
  · refine (State.byte_write_outside _ _ _ _ ?_).trans ((congrArg (Table.get 0 b) (State.passLine_same_mem (z := u) rfl)).trans kept)
    simp only [slice, List.length_take, List.length_drop]
    omega

theorem State.poisonRanges_mem (s : State) (l : List Nat) (a n : Nat → Nat) :
    (l.foldl (fun (s : State) i => s.poisonRange (a i) (n i)) s).mem = s.mem :=
  List.foldlRecOn (motive := fun u : State => u.mem = s.mem) _ _ rfl fun _ h _ _ => h

/-- A move changes no byte outside its destination. -/
theorem State.moveRun_byte_outside (s : State) (n : Nat) (r : Nat × Nat × Nat) (b : Nat) (outside : ¬ (r.2.1 ≤ b ∧ b < r.2.1 + r.2.2)) :
    (s.moveRun n r).byte b = s.byte b := by
  have counted : (s.countFarPoison r.1 r.2.2).mem = s.mem := State.countFarPoison_same_mem (z := s) rfl
  have mem : ((s.countFarPoison r.1 r.2.2).readFor (some n) 3 r.1 r.2.2).1.mem = s.mem := State.readFor_same_mem (z := s) counted
  have length := (s.countFarPoison r.1 r.2.2).length_readFor (some n) 3 r.1 r.2.2
  unfold State.moveRun
  generalize (s.countFarPoison r.1 r.2.2).readFor (some n) 3 r.1 r.2.2 = taken at *
  dsimp only
  refine (congrArg (Table.get 0 b) (State.poisonRanges_mem _ _ _ _)).trans ?_
  exact (State.writeFor_byte_outside _ _ _ _ _ b (by rwa [length])).trans (congrArg (Table.get 0 b) mem)

theorem State.moveRuns_keeps (s : State) (n : Nat) (l : List (Nat × Nat × Nat)) :
    (l.foldl (fun (s : State) r => s.moveRun n r) s).pending = s.pending ∧
      ∀ a, (∀ r ∈ l, ¬ (r.2.1 ≤ a ∧ a < r.2.1 + r.2.2)) → (l.foldl (fun (s : State) r => s.moveRun n r) s).byte a = s.byte a :=
  List.foldlRecOn (motive := fun u : State => u.pending = s.pending ∧
    ∀ a, (∀ r ∈ l, ¬ (r.2.1 ≤ a ∧ a < r.2.1 + r.2.2)) → u.byte a = s.byte a) _ _ ⟨rfl, fun _ _ => rfl⟩ fun u kept r hr =>
      ⟨(State.moveRun_kept (z := u) (.refl u)).pending.trans kept.1,
        fun a outside => (u.moveRun_byte_outside n r a (outside r hr)).trans (kept.2 a outside)⟩

/-! ### An XFER -/

theorem State.conflicts_poison (s : State) (l : List (Nat × Bool × Nat)) : (l.foldl State.bankStall s).poison = s.poison :=
  List.foldlRecOn (motive := fun u : State => u.poison = s.poison) _ _ rfl fun _ h _ _ => h

theorem State.xferRuns_of_mem {s t : State} (h : t.mem = s.mem) (d : Bytes) : t.xferRuns d = s.xferRuns d := by
  unfold State.xferRuns
  simp only [State.readNat_of_mem h]

/-- What a mover stores of a descriptor of its kind. -/
def State.moved (v : State) (n kind : Nat) (d : Bytes) (runs : List (Nat × Nat × Nat)) : State :=
  let s := runs.foldl (fun (s : State) r => s.moveRun n r) v
  if kind == 4 then s.writeFor (some n) 3 (D.xDst d) (List.replicate (D.xBytes d) 0) else s

/-- An XFER whose accesses pass, with no error and no poison in its sources, moves and completes. -/
theorem State.xfer_moves {s v : State} {n u kind : Nat} {h : Queued} {mem : MemReport} (head : s.runnable n (11 + u) tXfer = some h)
    (work : D.xBytes h.desc ≠ 0) (sound : mem.errors = []) (reported : v = s.memReport srcMover mem) (admits : v.Admits (s.xferAccs h.desc))
    (clean : ∀ r ∈ s.xferRuns h.desc, s.poisoned r.1 r.2.2 = false) (of_kind : D.xKind h.desc = kind)
    (cut : kind = 2 ∨ kind = 3 → D.xElem h.desc ≠ 0) :
    s.xfer n u kind mem = (v.moved n kind h.desc (s.xferRuns h.desc)).complete n (11 + u) := by
  have told := State.Reported.memReport s srcMover mem
  rw [← reported] at told
  have poison : v.poison = s.poison := by
    rw [reported, State.memReport, sound]
    exact s.conflicts_poison _
  have runs : v.xferRuns h.desc = s.xferRuns h.desc := State.xferRuns_of_mem told.mem _
  have accs : v.xferAccs h.desc = s.xferAccs h.desc := by rw [State.xferAccs, runs, State.xferAccs]
  have none_bad : ((s.xferRuns h.desc).find? fun r => v.poisoned r.1 r.2.2) = none := List.find?_eq_none.2 fun r hr => by
    have same : v.poisoned r.1 r.2.2 = s.poisoned r.1 r.2.2 := by rw [State.poisoned, poison, State.poisoned]
    rw [same, clean r hr]
    exact Bool.false_ne_true
  have none_failed : writeFails h.desc (s.xferRuns h.desc) mem = [] := by rw [writeFails, sound]; rfl
  have whole : ((kind == 2 || kind == 3) && D.xElem h.desc == 0) = false := by
    simp only [Bool.and_eq_false_iff, Bool.or_eq_false_iff, beq_eq_false_iff_ne]
    tauto
  rw [State.xfer, head]
  dsimp only
  rw [if_neg (by simp [of_kind]), if_neg (by simpa using work), if_neg (Bool.eq_false_iff.1 whole), ← reported, runs, accs,
    State.gated_admits admits, none_bad, none_failed]
  rfl

/-! ### Where no protection stands in the way -/

/-- What protection looks at is as it was. -/
structure State.Guarded (s t : State) : Prop where
  mem : t.mem = s.mem
  place : t.place = s.place
  prot : t.get R.SEC_PROT.PARTITIONS = s.get R.SEC_PROT.PARTITIONS
  opened : ∀ n < 16, t.get (R.SEC_OPEN.REGIONS n) = s.get (R.SEC_OPEN.REGIONS n)

/-- A stack address lies in one of the 16 stacks. -/
theorem State.stack_lt {s : State} {a n : Nat} (h : s.place a = .stack n) : n < 16 := by
  unfold State.place at h
  dsimp only at h
  split_ifs at h
  case pos inside =>
    cases h
    omega
  case neg => split at h <;> cases h

theorem State.Guarded.openAt {s t : State} (h : s.Guarded t) (a : Nat) : t.openAt a = s.openAt a := by
  unfold State.openAt
  rw [h.place]
  split
  · next n there => rw [h.opened n (State.stack_lt there)]
  · rfl

theorem State.Guarded.violated {s t : State} (h : s.Guarded t) (req : Option Nat) (a : Nat) : t.violated req a = s.violated req a := by
  unfold State.violated State.owner State.prot
  simp only [h.place, h.prot, h.openAt]

theorem State.Guarded.refl (s : State) : s.Guarded s := ⟨rfl, rfl, rfl, fun _ _ => rfl⟩

theorem State.Guarded.trans {s t u : State} (h : s.Guarded t) (k : t.Guarded u) : s.Guarded u where
  mem := k.mem.trans h.mem
  place := k.place.trans h.place
  prot := k.prot.trans h.prot
  opened n hn := (k.opened n hn).trans (h.opened n hn)

theorem State.Guarded.modTile (s : State) (n : Nat) (f : Tile → Tile) : s.Guarded (s.modTile n f) :=
  ⟨rfl, State.place_of_same (fun _ => State.get_of_regs rfl _) rfl, State.get_of_regs rfl _, fun _ _ => State.get_of_regs rfl _⟩

/-- A write of the counters of a Granary leaves what protection looks at. -/
theorem State.Guarded.put (s : State) {f : Field} (v : Nat) (high : 0x2000000 * 64 ≤ f.key)
    (apart : ∀ m, (R.TSTORE_GRANARY.SIZE m).key ≠ f.key) : s.Guarded (s.put f v) where
  mem := rfl
  place := State.place_of_same (fun m => State.get_put_other _ _ (apart m)) rfl
  prot := State.get_put_other _ _ (by simp only [Field.key, R.SEC_PROT.PARTITIONS] at *; omega)
  opened n hn := State.get_put_other _ _ (by simp only [Field.key, R.SEC_OPEN.REGIONS] at *; omega)

theorem State.guarded_passLine (s : State) (line : Nat) (write : Bool) : s.Guarded (s.passLine line write) := by
  have use (t : State) (n : Nat) : t.Guarded (t.useLine n line write) := by
    unfold State.useLine
    dsimp only
    split
    · exact .refl t
    · exact .modTile t _ _
  unfold State.passLine
  split
  · exact .refl s
  · next n _ =>
    have looked : s.Guarded (s.lookup n line).1 := by
      unfold State.lookup
      split
      · exact .put s _ (by simp only [Field.key, R.TSTORE_GRANARY_COUNTS.HITS]; omega)
          (fun m => by simp only [Field.key, R.TSTORE_GRANARY_COUNTS.HITS, R.TSTORE_GRANARY.SIZE]; omega)
      · exact .put s _ (by simp only [Field.key, R.TSTORE_GRANARY_COUNTS.MISSES]; omega)
          (fun m => by simp only [Field.key, R.TSTORE_GRANARY_COUNTS.MISSES, R.TSTORE_GRANARY.SIZE]; omega)
    split
    · next t there =>
      rw [there] at looked
      exact looked.trans (use t n)
    · next t there =>
      rw [there] at looked
      exact looked

section
variable {s : State} {req : Option Nat}

/-- Where nothing is refused, a read for a requester gives what memory holds. -/
theorem State.readFor_free (free : ∀ a, s.violated req a = none) (src a n : Nat) :
    s.Guarded (s.readFor req src a n).1 ∧ (s.readFor req src a n).2 = s.read a n := by
  have pieces : ∀ (l : List (Nat × Nat)) (a n : Nat) (acc : State × Bytes), Consecutive a n l → s.Guarded acc.1 →
      s.Guarded (l.foldl (State.readPiece req src) acc).1 ∧ (l.foldl (State.readPiece req src) acc).2 = acc.2 ++ s.read a n := by
    intro l
    induction l with
    | nil =>
      intro a n acc h guarded
      rw [show n = 0 from h]
      exact ⟨guarded, (List.append_nil _).symm⟩
    | cons p l ih =>
      rintro a n acc ⟨at_start, fits, rest⟩ guarded
      have step : State.readPiece req src acc p = (acc.1.passLine (p.1 / 64 * 64) false, acc.2 ++ s.read a p.2) := by
        rw [State.readPiece, guarded.violated, free]
        dsimp only
        rw [State.read_of_mem guarded.mem, at_start]
      rw [List.foldl_cons, step]
      obtain ⟨guarded', bytes⟩ := ih _ _ (acc.1.passLine (p.1 / 64 * 64) false, acc.2 ++ s.read a p.2) rest
        (guarded.trans (acc.1.guarded_passLine _ _))
      refine ⟨guarded', bytes.trans ?_⟩
      rw [List.append_assoc, ← State.read_append, Nat.add_sub_cancel' fits]
  exact pieces _ a n (s, []) (linePieces_consecutive a n) (.refl s)

/-- Where nothing is refused, a write for a requester stores its bytes. -/
theorem State.writeFor_free (free : ∀ a, s.violated req a = none) (src a : Nat) (bs : Bytes) (b : Nat) :
    (s.writeFor req src a bs).byte b = (s.write a bs).byte b := by
  have pieces : ∀ (l : List (Nat × Nat)) (x m : Nat) (u : State), Consecutive x m l → a ≤ x → x + m = a + bs.length →
      (∀ c, u.violated req c = none) → (l.foldl (State.writePiece req src a bs) u).byte b =
        if x ≤ b ∧ b < x + m then bs.getD (b - a) 0 else u.byte b := by
    intro l
    induction l with
    | nil =>
      intro x m u h _ _ _
      rw [show m = 0 from h, if_neg (by omega)]
      rfl
    | cons p l ih =>
      rintro x m u ⟨at_start, fits, rest⟩ after total clear
      have line := u.guarded_passLine (p.1 / 64 * 64) true
      have step : State.writePiece req src a bs u p = (u.passLine (p.1 / 64 * 64) true).write p.1 (slice bs (p.1 - a) p.2) := by
        rw [State.writePiece, clear]
      rw [List.foldl_cons, step]
      generalize u.passLine (p.1 / 64 * 64) true = w at line
      have length := length_slice bs (p.1 - a) p.2 (by omega)
      have clear' (c : Nat) : (w.write p.1 (slice bs (p.1 - a) p.2)).violated req c = none := (line.violated req c).trans (clear c)
      rw [ih (x + p.2) (m - p.2) _ rest (by omega) (by omega) clear', State.byte_write, length]
      have before : w.byte b = u.byte b := congrArg (Table.get 0 b) line.mem
      by_cases later : x + p.2 ≤ b ∧ b < x + p.2 + (m - p.2)
      · rw [if_pos later, if_pos (by omega)]
      · rw [if_neg later]
        by_cases now : p.1 ≤ b ∧ b < p.1 + p.2
        · rw [if_pos now, if_pos (by omega), slice_getD _ _ _ _ (by omega), show p.1 - a + (b - p.1) = b - a by omega]
        · rw [if_neg now, if_neg (by omega), before]
  rw [State.writeFor_pieces, pieces _ a _ s (linePieces_consecutive a _) (Nat.le_refl a) rfl free, State.byte_write]

end

/-- A plain copy where nothing is refused: the destination holds what the source held. -/
theorem State.moveRun_read (s : State) (n : Nat) (r : Nat × Nat × Nat) (free : ∀ a, s.violated (some n) a = none) (near : r.1 < farBase) :
    (s.moveRun n r).read r.2.1 r.2.2 = s.read r.1 r.2.2 := by
  have length := s.length_readFor (some n) 3 r.1 r.2.2
  obtain ⟨guarded, bytes⟩ := State.readFor_free free 3 r.1 r.2.2
  unfold State.moveRun
  rw [State.countFarPoison, if_pos near]
  generalize s.readFor (some n) 3 r.1 r.2.2 = taken at *
  dsimp only
  rw [State.read_of_mem (State.poisonRanges_mem _ _ _ _), State.read_congr (State.writeFor_free (fun a => (guarded.violated _ _).trans (free a)) _ _ _)]
  conv_lhs => rw [← length]
  rw [State.read_write, bytes]

end Sys2Proof.Machine

open Sys2Proof Sys2Proof.Machine

/-- Settles O28: each kind through `State.xfer_moves`; the copy piece by piece. -/
theorem movers : Obligations.Movers := by
  refine ⟨fun s v n u h mem alive hn hu head work sound reported gate clean => ?_, fun s n r hn some_bytes free low end_src end_dst => s.moveRun_read n r free (low.trans (by decide))⟩
  have told := State.Reported.memReport s srcMover mem
  rw [← reported] at told
  refine ⟨?_, fun fill => ?_⟩
  · intro e he of_kind cut
    have moves (kind : Nat) (of_kind : D.xKind h.desc = kind) (cut : kind = 2 ∨ kind = 3 → D.xElem h.desc ≠ 0) (plain : kind ≠ 4) :
        (exec e.2 s = s.whenAlive (State.xfer · n u kind mem)) → Completes e.2 s fun t =>
          t = ((s.xferRuns h.desc).foldl (fun (s : State) r => s.moveRun n r) v).complete n (11 + u) ∧
          ∀ a, (∀ r ∈ s.xferRuns h.desc, ¬ (r.2.1 ≤ a ∧ a < r.2.1 + r.2.2)) → t.byte a = s.byte a := fun runs => by
      have done := State.xfer_moves head work sound reported (State.admits_of_gate gate) clean of_kind cut
      rw [State.moved, if_neg (by simpa using plain)] at done
      obtain ⟨pending, bytes⟩ := v.moveRuns_keeps n (s.xferRuns h.desc)
      generalize (s.xferRuns h.desc).foldl (fun (s : State) r => s.moveRun n r) v = w at *
      exact completes_whenAlive (f := (State.xfer · n u kind mem)) alive runs done
        ((State.complete_kept (z := w) (.refl w)).pending.trans (pending.trans told.pending)) ⟨rfl, fun a outside =>
          (congrArg (Table.get 0 a) (State.complete_same_mem (z := w) rfl)).trans
            ((bytes a outside).trans (congrArg (Table.get 0 a) told.mem))⟩
    revert e
    simp only [List.forall_mem_cons]
    refine ⟨fun of_kind _ moves => moves 1 of_kind (by simp) (by simp) rfl, fun of_kind cut moves =>
      moves 2 of_kind (fun _ => cut.resolve_left (by simp)) (by simp) rfl, fun of_kind cut moves =>
      moves 3 of_kind (fun _ => cut.resolve_left (by simp)) (by simp) rfl, List.forall_mem_nil _⟩
  · have done := State.xfer_moves head work sound reported (State.admits_of_gate gate) clean fill (by simp)
    have no_runs : s.xferRuns h.desc = [] := by rw [State.xferRuns, fill]; rfl
    rw [no_runs, State.moved, List.foldl_nil, if_pos (by decide)] at done
    have bytes (a : Nat) := v.writeFor_byte_outside (some n) 3 (D.xDst h.desc) (List.replicate (D.xBytes h.desc) 0) a
    rw [List.length_replicate] at bytes
    have pending := (State.writeFor_kept (z := v) (req := some n) (src := 3) (a := D.xDst h.desc) (bs := List.replicate (D.xBytes h.desc) 0)
      (.refl v)).pending
    generalize v.writeFor (some n) 3 (D.xDst h.desc) (List.replicate (D.xBytes h.desc) 0) = w at *
    exact completes_whenAlive (f := (State.xfer · n u 4 mem)) alive rfl done
      ((State.complete_kept (z := w) (.refl w)).pending.trans (pending.trans told.pending)) ⟨rfl, fun a outside =>
        (congrArg (Table.get 0 a) (State.complete_same_mem (z := w) rfl)).trans
          ((bytes a outside).trans (congrArg (Table.get 0 a) told.mem))⟩
end

section
/-!
SUPPORT. Frames at a receiver (R448): what a port that is UP does with a frame that acknowledges nothing, and that collectives which
stand nowhere stay where they are.
-/

namespace Sys2Proof.Machine

/-! ### Collectives that stand nowhere -/

theorem State.pump_idle {s : State} (h : ∀ p, p < 24 → (s.link p).sends = []) : s.pump = s :=
  List.foldlRecOn (motive := fun t : State => t = s) _ _ rfl fun t kept p hp => by
    subst kept
    rw [State.pumpPort, h p (List.mem_range.1 hp)]

theorem State.collTile_idle {s : State} (h : s.noColl) {n : Nat} (hn : n < 16) (k : Nat) : s.collTile n k = s := by
  cases k with
  | zero => rfl
  | succ k =>
    have skip : s.skipStart n = s := by rw [State.skipStart, h.1 n hn]
    have done : s.collDone n = false := by rw [State.collDone, h.1 n hn]
    rw [State.collTile, skip, State.pump_idle h.2, done, if_neg Bool.false_ne_true]

theorem State.collectives_idle {s : State} (h : s.noColl) : s.collectives = s :=
  List.foldlRecOn (motive := fun t : State => t = s) _ _ rfl fun t kept n hn => by
    subst kept
    exact State.collTile_idle h (List.mem_range.1 hn) 17

theorem State.noColl.of_same {s t : State} (h : s.noColl) (tiles : t.tiles = s.tiles)
    (sends : ∀ p, (t.link p).sends = (s.link p).sends) : t.noColl :=
  ⟨fun n hn => (congrArg (fun l => Table.get [] 15 (Table.get Tile.reset n l).queues) tiles).trans (h.1 n hn),
    fun p hp => (sends p).trans (h.2 p hp)⟩

/-- A change of a link that leaves what it has to send. -/
theorem State.noColl.modLink {s : State} (h : s.noColl) (p : Nat) {f : Link → Link} (keeps : ∀ l, (f l).sends = l.sends) :
    (s.modLink p f).noColl :=
  h.of_same rfl fun q => by
    by_cases here : q = p
    · rw [here, State.link_modLink_same, keeps]
    · rw [State.link_modLink_other _ _ here]

/-! ### A frame at a receiver -/

section
variable (s : State) (p fixed : Nat) (f : Frame)

theorem exec_idleFrame : exec (.idleFrame p f fixed) s = s.whenAlive (State.receive · p { f with type := fIdle } fixed id) := rfl

theorem exec_startFrame :
    exec (.startFrame p f fixed) s = s.whenAlive (State.receive · p { f with type := fStart } fixed fun s => s.startIn p f) := rfl

theorem exec_nakFrame : exec (.nakFrame p f fixed) s = s.whenAlive (State.receive · p { f with type := fNak } fixed fun s => s.replay p) := rfl

theorem exec_beaconFrame :
    exec (.beaconFrame p f fixed) s = s.act (State.receive · p { f with type := fBeacon } fixed fun s => s.beaconIn p f.flit) := rfl

theorem exec_relayFrame :
    exec (.relayFrame p f fixed) s = s.act (State.receive · p { f with type := fRelay } fixed fun s => s.relayIn p f.flit) := rfl

theorem exec_uncorrectableFrame : exec (.uncorrectableFrame p) s = s.whenAlive fun s =>
    if s.portUp p then (s.bump (R.LINK_COUNTS0.UNCORRECTABLE p)).discardFrame p else s := rfl

theorem exec_replayTimeout : exec (.replayTimeout p) s = s.whenAlive fun s => if s.portUp p then s.replay p else s := rfl

theorem exec_linkRetrain : exec (.linkRetrain p) s = s.whenAlive fun s =>
    if s.portUp p && (s.link p).replay.any fun x => decide (8 ≤ x.tries) then s.leaveUp p linkTrain else s := rfl

end

/-- What an intact frame corrects is counted. -/
def State.corrected (s : State) (p fixed : Nat) : State := s.wrapAdd (R.LINK_COUNTS0.CORRECTED_SYMBOLS p) fixed

/-- A sequenced frame in order is accepted: ACK advances to its SEQ. -/
def State.acceptSeq (s : State) (p seq : Nat) : State := s.modLink p fun l => { l with rxSeq := seq, nakSent := false }

section
variable {s : State} {p : Nat} {f : Frame} (fixed : Nat) (act : State → State)

theorem State.receive_down (down : s.portUp p = false) : s.receive p f fixed act = s := by
  rw [State.receive, down]
  rfl

theorem State.acknowledge_none (fresh : ∀ x ∈ (s.link p).replay, x.frame.seq ≠ f.ack) : s.acknowledge p f.ack = s := by
  have unknown : ((s.link p).replay.find? fun x => x.frame.seq == f.ack) = none :=
    List.find?_eq_none.2 fun x hx => by simpa using fresh x hx
  rw [State.acknowledge, unknown]

variable (up : s.portUp p = true) (fresh : ∀ x ∈ (s.link p).replay, x.frame.seq ≠ f.ack)
include up fresh

theorem State.receive_unsequenced (plain : sequenced f.type = false) :
    s.receive p f fixed act = (act (s.corrected p fixed)).collectives := by
  have none_acked : (s.corrected p fixed).acknowledge p f.ack = s.corrected p fixed := State.acknowledge_none fresh
  rw [State.receive, up]
  simp only [State.corrected] at none_acked
  simp only [none_acked, plain]
  rfl

theorem State.receive_outOfOrder (seq : sequenced f.type = true) (out_of_order : f.seq ≠ ((s.link p).rxSeq + 1) % 1024) :
    s.receive p f fixed act = (s.corrected p fixed).collectives := by
  have none_acked : (s.corrected p fixed).acknowledge p f.ack = s.corrected p fixed := State.acknowledge_none fresh
  have apart : (f.seq != (((s.corrected p fixed).link p).rxSeq + 1) % 1024) = true := bne_iff_ne.2 out_of_order
  rw [State.receive, up]
  simp only [State.corrected] at none_acked apart
  simp only [none_acked, seq, apart]
  rfl

theorem State.receive_inOrder (seq : sequenced f.type = true) (in_order : f.seq = ((s.link p).rxSeq + 1) % 1024) :
    s.receive p f fixed act = (act ((s.corrected p fixed).acceptSeq p f.seq)).collectives := by
  have none_acked : (s.corrected p fixed).acknowledge p f.ack = s.corrected p fixed := State.acknowledge_none fresh
  have next : (f.seq != (((s.corrected p fixed).link p).rxSeq + 1) % 1024) = false := bne_eq_false_iff_eq.2 in_order
  rw [State.receive, up]
  simp only [State.corrected] at none_acked next
  simp only [none_acked, seq, next]
  rfl

end

theorem State.corrected_leaves (s : State) (p fixed : Nat) : s.leaves (s.corrected p fixed) [R.LINK_COUNTS0.CORRECTED_SYMBOLS p] :=
  ⟨rfl, rfl, State.sameRegs_put (State.sameRegs_refl s _) (List.mem_singleton.2 rfl) _⟩

theorem State.corrected_get (s : State) (p fixed : Nat) : (s.corrected p fixed).get (R.LINK_COUNTS0.CORRECTED_SYMBOLS p) =
    (s.get (R.LINK_COUNTS0.CORRECTED_SYMBOLS p) + fixed) % 2 ^ (R.LINK_COUNTS0.CORRECTED_SYMBOLS p).width := State.get_put_same _ _ _

theorem State.noColl.corrected {s : State} (h : s.noColl) (p fixed : Nat) : (s.corrected p fixed).noColl := h.of_same rfl fun _ => rfl

theorem State.acceptSeq_onlyLink (s : State) (p seq : Nat) : s.onlyLink (s.acceptSeq p seq) p := fun _ other => State.link_modLink_other _ _ other

/-! ### DATA settles lanes that are open (R59) -/

/-- A device with port 0 in a state, a lane whose step has not been delivered, and a token held for the lane's sequence. -/
def State.undelivered (link : Nat) : State :=
  let lane : LaneEntry := ⟨0, 0, 0, 0, 7, 4, .generation, 0, 0, 0, 0, 1, 0, 256, 0, 4, 0, [], [], []⟩
  let seq : Seq := ⟨0, 1, 0, 0, 0, 0, 0, 256, .generate, [7], 4, 4, 0, none, none, 0, 0, [⟨0, 7, 0, false, false, false, true, 0⟩], false,
    none, 100000, false, none, 0, [], []⟩
  { State.reset.put (R.LINK_STATUS.STATE 0) link with srv := { Srv.reset with seqs := [(0, some seq)], openLanes := [(0, lane)] } }

/-- The first DATA frame after a port's start. -/
def firstData : Frame := ⟨fData, false, false, false, false, 1, 0, 0, []⟩

/-- A register after a command. -/
def Answered.shows (a : Answered) (f : Field) : Option Nat := match a with
  | .next t => some (t.get f)
  | _ => none

/-- The held token is counted after any DATA frame, whether its port takes it or not. -/
theorem undelivered_counts : ∀ link ∈ [0, linkUp],
    Answered.shows (exec (.dataFrame 0 firstData 0 false false) (State.undelivered link)) R.QUE_REJECTS.RING_FULL = some 1 := by
  decide +kernel

theorem undelivered_count : ∀ link ∈ [0, linkUp], (State.undelivered link).get R.QUE_REJECTS.RING_FULL = 0 := by decide

theorem undelivered_not_kept {link : Nat} (known : link ∈ [0, linkUp]) {t : State}
    (runs : exec (.dataFrame 0 firstData 0 false false) (State.undelivered link) = .next t) :
    t.get R.QUE_REJECTS.RING_FULL ≠ (State.undelivered link).get R.QUE_REJECTS.RING_FULL := by
  have counted := undelivered_counts link known
  rw [runs] at counted
  rw [undelivered_count link known, Option.some.inj counted]
  decide

end Sys2Proof.Machine

open Sys2Proof Sys2Proof.Machine

/-- Refutes O42: a DATA frame at a port that is not UP settles lanes that are open, and a token held is counted in QUE.REJECTS. -/
theorem not_linkFrames : ¬ Obligations.LinkFrames := by
  intro holds
  have quiet : (State.undelivered 0).quiet := by decide
  obtain ⟨t, runs, same⟩ := (holds (State.undelivered 0) 0 firstData 0 false quiet (by decide)).1 (by decide) (.dataFrame 0 firstData 0 false false)
    (by simp)
  exact undelivered_not_kept (by decide) runs (congrArg (State.get · R.QUE_REJECTS.RING_FULL) same)

/-- Refutes O45: a DATA frame that joins no stream settles lanes that are open, and a token held is counted in QUE.REJECTS. -/
theorem not_streams : ¬ Obligations.Streams := by
  intro holds
  have hears : (State.undelivered linkUp).hears 0 firstData := by decide +kernel
  obtain ⟨t, runs, -, -, -, -, regs⟩ := (holds (State.undelivered linkUp) 0 firstData 0 false hears).1 (by decide)
  exact undelivered_not_kept (by decide) runs (regs R.QUE_REJECTS.RING_FULL (by decide))
end

section
/-!
SUPPORT. Replay (R449): what goes out again, what an acknowledgement lets go, and a link that leaves UP.
-/

namespace Sys2Proof.Machine

/-! ### The frames of the buffer go out again -/

/-- A frame of the replay buffer after it has gone out once more. -/
def TxFrame.again (x : TxFrame) : TxFrame := { x with frame := { x.frame with replay := true }, tries := x.tries + 1 }

/-- Frames sent again stand behind what has been sent; nothing else changes. -/
theorem State.transmits (s : State) (p : Nat) (l : List TxFrame) :
    l.foldl (fun (s : State) x => s.transmit p { x.frame with replay := true }) s =
      { s with out := s.out ++ l.map fun x => .frame p { x.frame with replay := true, ack := (s.link p).rxSeq } } := by
  induction l generalizing s with
  | nil => rw [List.map_nil, List.append_nil]; rfl
  | cons x l ih =>
    rw [List.foldl_cons, ih]
    simp only [State.transmit, State.emit, List.map_cons, List.append_assoc, List.singleton_append]
    rfl

section
variable {s : State} {p : Nat}

theorem State.replay_empty (empty : (s.link p).replay = []) : s.replay p = s := by rw [State.replay, empty]; rfl

theorem State.replay_again (some_frame : (s.link p).replay ≠ []) (fresh : ∀ x ∈ (s.link p).replay, x.tries < 8 ∧ x.deferred = false) :
    s.replay p = { (s.bump (R.LINK_COUNTS0.REPLAYS p)).modLink p (fun k => { k with replay := (s.link p).replay.map TxFrame.again }) with
      out := s.out ++ (s.link p).replay.map fun x => .frame p { x.frame with replay := true, ack := (s.link p).rxSeq } } := by
  have nonempty : (s.link p).replay.isEmpty = false := by simpa using some_frame
  have few : ((s.link p).replay.any fun x => decide (8 ≤ x.tries)) = false :=
    List.any_eq_false.2 fun x hx => by have := (fresh x hx).1; simp; omega
  have all : ((s.link p).replay.filter fun x => !x.deferred) = (s.link p).replay :=
    List.filter_eq_self.2 fun x hx => by rw [(fresh x hx).2]; rfl
  have marks : ((s.link p).replay.map fun x => if x.deferred then x else
      { x with frame := { x.frame with replay := true }, tries := x.tries + 1 }) = (s.link p).replay.map TxFrame.again :=
    List.map_congr_left fun x hx => by rw [(fresh x hx).2, if_neg Bool.false_ne_true, TxFrame.again, (fresh x hx).2]
  unfold State.replay
  dsimp only
  rw [nonempty, if_neg Bool.false_ne_true, few, if_neg Bool.false_ne_true, all, marks, State.transmits]
  rfl

theorem State.replay_worn (worn : ∃ x ∈ (s.link p).replay, 8 ≤ x.tries) : s.replay p = s.leaveUp p linkTrain := by
  obtain ⟨x, hx, tries⟩ := worn
  have nonempty : (s.link p).replay.isEmpty = false := by simpa using List.ne_nil_of_mem hx
  have many : ((s.link p).replay.any fun x => decide (8 ≤ x.tries)) = true := List.any_eq_true.2 ⟨x, hx, decide_eq_true tries⟩
  unfold State.replay
  dsimp only
  rw [nonempty, if_neg Bool.false_ne_true, many, if_pos rfl]

end

/-! ### A link leaves UP (R449, R468, R470) -/

/-- What remains of a link that leaves UP to train again. -/
def Link.restarted (l : Link) (retrain : Bool) : Link :=
  { l with txSeq := 0, rxSeq := 0, nakSent := false, replay := [], waiting := [], rx := none, attempts := 0, train := none, retraining := retrain }

/-- The fields that show that a port has left UP. -/
def downFields (p : Nat) : List Field :=
  [R.LINK_STATUS.STATE p, R.LINK_STATUS.PEER_VALID p, R.LINK_COUNTS2.RETRAINS p, R.GLB_READY.LINKS_OK]

/-- A port has left UP, with nothing in hand and no slot open: what its registers show, and what has become of its link. -/
structure State.LeftUp (s t : State) (p st : Nat) : Prop where
  link : t.link p = (s.link p).restarted (st == linkTrain)
  others : s.onlyLink t p
  leaves : s.leaves t (downFields p)
  state : t.get (R.LINK_STATUS.STATE p) = st % 2 ^ 3
  peer : t.isSet (R.LINK_STATUS.PEER_VALID p) = false
  retrains : st = linkTrain → t.get (R.LINK_COUNTS2.RETRAINS p) =
    min (2 ^ (R.LINK_COUNTS2.RETRAINS p).width - 1) (s.get (R.LINK_COUNTS2.RETRAINS p) + 1)
  down : st = linkTrain → p < 24 → t.isSet R.GLB_READY.LINKS_OK = false
  que : t.que = s.que
  pending : t.pending = s.pending
  still : t.noColl

theorem State.poisonPending_none {s : State} {p : Nat} (none_in : (s.link p).rx = none) (closed : s.coll.opened = []) : s.poisonPending p = s := by
  rw [State.poisonPending, none_in, closed]
  rfl

/-- A port in TRAIN holds LINKS_OK at 0. -/
theorem State.refreshLinks_training {s : State} {p : Nat} (hp : p < 24) (training : s.get (R.LINK_STATUS.STATE p) = linkTrain) :
    s.refreshLinks.isSet R.GLB_READY.LINKS_OK = false := by
  have one : ((List.range 24).all fun p =>
      s.get (R.LINK_STATUS.STATE p) != linkTrain && s.get (R.LINK_STATUS.STATE p) != linkFailed) = false :=
    List.all_eq_false.2 ⟨p, List.mem_range.2 hp, by rw [training]; decide⟩
  exact (State.isSet_putBit (by decide) _).trans one

/-- What a port's registers show when it leaves UP. -/
def State.showDown (s : State) (p st : Nat) : State :=
  let s := (s.put (R.LINK_STATUS.STATE p) st).putBit (R.LINK_STATUS.PEER_VALID p) false
  if st == linkTrain then s.bump (R.LINK_COUNTS2.RETRAINS p) else s

section
variable (s : State) (p st : Nat)

theorem State.showDown_only : s.onlyRegs (s.showDown p st) (downFields p) := by
  have two := ((State.onlyRegs.refl s (downFields p)).put (f := R.LINK_STATUS.STATE p) (by simp [downFields]) st).put
    (f := R.LINK_STATUS.PEER_VALID p) (by simp [downFields]) (b2n false)
  unfold State.showDown
  dsimp only
  split
  · exact two.put (by simp [downFields]) _
  · exact two

theorem State.showDown_state : (s.showDown p st).get (R.LINK_STATUS.STATE p) = st % 2 ^ 3 := by
  have two : ((s.put (R.LINK_STATUS.STATE p) st).putBit (R.LINK_STATUS.PEER_VALID p) false).get (R.LINK_STATUS.STATE p) = st % 2 ^ 3 :=
    (State.get_put_other _ _ (by simp only [Field.key, R.LINK_STATUS.STATE, R.LINK_STATUS.PEER_VALID]; omega)).trans (State.get_put_same _ _ _)
  unfold State.showDown
  dsimp only
  split
  · exact (State.get_put_other _ _ (by simp only [Field.key, R.LINK_STATUS.STATE, R.LINK_COUNTS2.RETRAINS]; omega)).trans two
  · exact two

theorem State.showDown_peer : (s.showDown p st).isSet (R.LINK_STATUS.PEER_VALID p) = false := by
  have two : ((s.put (R.LINK_STATUS.STATE p) st).putBit (R.LINK_STATUS.PEER_VALID p) false).isSet (R.LINK_STATUS.PEER_VALID p) = false :=
    State.isSet_putBit Nat.one_pos _
  unfold State.showDown
  dsimp only
  split
  · exact (State.isSet_put_other _ _ (by simp only [Field.key, R.LINK_STATUS.PEER_VALID, R.LINK_COUNTS2.RETRAINS]; omega)).trans two
  · exact two

theorem State.showDown_retrains : (s.showDown p linkTrain).get (R.LINK_COUNTS2.RETRAINS p) =
    min (2 ^ (R.LINK_COUNTS2.RETRAINS p).width - 1) (s.get (R.LINK_COUNTS2.RETRAINS p) + 1) := by
  have before : ((s.put (R.LINK_STATUS.STATE p) linkTrain).putBit (R.LINK_STATUS.PEER_VALID p) false).get (R.LINK_COUNTS2.RETRAINS p) =
      s.get (R.LINK_COUNTS2.RETRAINS p) :=
    (State.get_put_other _ _ (by simp only [Field.key, R.LINK_STATUS.PEER_VALID, R.LINK_COUNTS2.RETRAINS]; omega)).trans
      (State.get_put_other _ _ (by simp only [Field.key, R.LINK_STATUS.STATE, R.LINK_COUNTS2.RETRAINS]; omega))
  unfold State.showDown
  dsimp only
  rw [if_pos (by decide), State.get_bump_same, before]

end

theorem State.leaveUp_left {s : State} {p st : Nat} (none_in : (s.link p).rx = none) (closed : s.coll.opened = []) (still : s.noColl) :
    s.LeftUp (s.leaveUp p st) p st := by
  let lost : State := { s with coll := { s.coll with
    lost := s.coll.lost ++ ((s.link p).replay.filterMap TxFrame.owner ++ (s.link p).waiting.filterMap Prod.snd).eraseDups } }
  have only := lost.showDown_only p st
  have state := lost.showDown_state p st
  have peer := lost.showDown_peer p st
  have retrains := lost.showDown_retrains p
  have unfolded : s.leaveUp p st = (((lost.showDown p st).poisonPending p).modLink p
    fun l => l.restarted (st == linkTrain)).refreshLinks.collectives := rfl
  rw [unfolded]
  generalize shown : lost.showDown p st = u at *
  have links : u.links = s.links := (congrArg State.links only.1 :)
  have link (q : Nat) : u.link q = s.link q := congrArg (Table.get Link.reset q) links
  have idle : (u.modLink p fun l => l.restarted (st == linkTrain)).refreshLinks.noColl := by
    refine noColl.of_same (t := (u.modLink p fun l => l.restarted (st == linkTrain)).refreshLinks) still
      (show u.tiles = s.tiles from (congrArg State.tiles only.1 :)) fun q => ?_
    show ((u.modLink p fun l => l.restarted (st == linkTrain)).link q).sends = _
    by_cases here : q = p
    · rw [here, State.link_modLink_same, link]
      rfl
    · rw [State.link_modLink_other _ _ here, link]
  have closed' : u.coll.opened = [] := (congrArg (fun v => v.coll.opened) only.1 :).trans closed
  rw [State.poisonPending_none (by rw [link]; exact none_in) closed', State.collectives_idle idle]
  have links_ok (q : Nat) : (R.LINK_STATUS.STATE q).key ≠ R.GLB_READY.LINKS_OK.key ∧
      (R.LINK_STATUS.PEER_VALID q).key ≠ R.GLB_READY.LINKS_OK.key ∧ (R.LINK_COUNTS2.RETRAINS q).key ≠ R.GLB_READY.LINKS_OK.key := by
    simp only [Field.key, R.LINK_STATUS.STATE, R.LINK_STATUS.PEER_VALID, R.LINK_COUNTS2.RETRAINS, R.GLB_READY.LINKS_OK]
    omega
  obtain ⟨state_apart, peer_apart, retrains_apart⟩ := links_ok p
  generalize modded : (u.modLink p fun l => l.restarted (st == linkTrain)) = w at *
  have regs : w.regs = u.regs := by rw [← modded]; rfl
  have kept : w.mem = s.mem ∧ w.out = s.out ∧ w.que = s.que ∧ w.pending = s.pending := by
    rw [← modded]
    exact ⟨(congrArg State.mem only.1 :), (congrArg State.out only.1 :), (congrArg State.que only.1 :), (congrArg State.pending only.1 :)⟩
  obtain ⟨mem, out, que, pending⟩ := kept
  have shows : w.get (R.LINK_STATUS.STATE p) = st % 2 ^ 3 := (State.get_of_regs regs _).trans state
  exact {
    link := by
      show w.link p = _
      rw [← modded, State.link_modLink_same, link]
    others := fun q other => by
      show w.link q = _
      rw [← modded, State.link_modLink_other _ _ other, link]
    leaves := ⟨mem, out, State.sameRegs_put (fun f hf => (State.get_of_regs regs f).trans (only.2 f hf)) (by simp [downFields]) _⟩
    state := (State.get_put_other _ _ state_apart).trans shows
    peer := (State.isSet_put_other _ _ peer_apart).trans ((State.isSet_of_regs regs _).trans peer)
    retrains := fun train => by
      refine (State.get_put_other _ _ retrains_apart).trans ((State.get_of_regs regs _).trans ?_)
      rw [← shown, train]
      exact retrains
    down := fun train hp => State.refreshLinks_training hp (shows.trans (by rw [train]; rfl))
    que := que
    pending := pending
    still := idle }

/-! ### An acknowledgement (R449) -/

theorem State.modLink_congr {s : State} {p : Nat} {f g : Link → Link} (h : f (s.link p) = g (s.link p)) : s.modLink p f = s.modLink p g :=
  congrArg (fun l => { s with links := Table.set Link.reset p l s.links }) h

theorem State.drainLink_empty {s : State} {p : Nat} (waiting : (s.link p).waiting = []) (n : Nat) : s.drainLink p n = s := by
  cases n with
  | zero => rfl
  | succ n => rw [State.drainLink, waiting]

/-- The frame that an ACK names is the first of its SEQ: it goes, and those before it. -/
theorem State.acknowledge_upTo {s : State} {p : Nat} {a b : List TxFrame} {x : TxFrame} (buffer : (s.link p).replay = a ++ x :: b)
    (first : ∀ y ∈ a, y.frame.seq ≠ x.frame.seq) (waiting : (s.link p).waiting = []) :
    s.acknowledge p x.frame.seq = (s.put (R.LINK_STATUS.RTT_NS p) (min 0xFFFF (s.now - x.sent))).modLink p fun l => { l with replay := b } := by
  have found : ((s.link p).replay.find? fun y => y.frame.seq == x.frame.seq) = some x := by
    rw [buffer, List.find?_append, List.find?_eq_none.2 fun y hy => by simpa using first y hy]
    simp
  have rest : (((s.link p).replay.dropWhile fun y => y.frame.seq != x.frame.seq).drop 1) = b := by
    rw [buffer, List.dropWhile_append_of_pos fun y hy => by simpa using first y hy]
    simp
  rw [State.acknowledge, found]
  dsimp only
  rw [State.drainLink_empty (by rw [State.link_modLink_same]; exact waiting)]
  exact State.modLink_congr (s := s.put (R.LINK_STATUS.RTT_NS p) (min 0xFFFF (s.now - x.sent)))
    (congrArg (fun l => { s.link p with replay := l }) rest)

/-- An unsequenced frame that acknowledges. -/
theorem State.receive_acked {s t : State} {p : Nat} {f : Frame} (fixed : Nat) (act : State → State) (up : s.portUp p = true)
    (plain : sequenced f.type = false) (acked : (s.corrected p fixed).acknowledge p f.ack = t) :
    s.receive p f fixed act = (act t).collectives := by
  rw [State.receive, up]
  simp only [State.corrected] at acked
  simp only [acked, plain]
  rfl

/-! ### Replay and retraining from a state that a frame has counted -/

theorem State.onlyRegs.link {s t : State} {l : List Field} (h : s.onlyRegs t l) (q : Nat) : t.link q = s.link q :=
  congrArg (Table.get Link.reset q) (congrArg State.links h.1 :)

theorem State.onlyRegs.noColl {s t : State} {l : List Field} (h : s.onlyRegs t l) (still : s.noColl) : t.noColl :=
  still.of_same h.tiles fun q => by rw [h.link]

section
variable {s w : State} {p : Nat} (only : s.onlyRegs w [R.LINK_COUNTS0.CORRECTED_SYMBOLS p])
include only

/-- The buffer has gone out again. -/
theorem State.replay_effect (some_frame : (s.link p).replay ≠ []) (fresh : ∀ x ∈ (s.link p).replay, x.tries < 8 ∧ x.deferred = false) :
    (w.replay p).out = s.out ++ (s.link p).replay.map (fun x => .frame p { x.frame with replay := true, ack := (s.link p).rxSeq }) ∧
      (w.replay p).link p = { s.link p with replay := (s.link p).replay.map TxFrame.again } ∧
      (w.replay p).get (R.LINK_COUNTS0.REPLAYS p) = min (2 ^ (R.LINK_COUNTS0.REPLAYS p).width - 1) (s.get (R.LINK_COUNTS0.REPLAYS p) + 1) ∧
      s.onlyLink (w.replay p) p ∧ (w.replay p).mem = s.mem ∧
      s.sameRegs (w.replay p) [R.LINK_COUNTS0.CORRECTED_SYMBOLS p, R.LINK_COUNTS0.REPLAYS p] ∧ (s.noColl → (w.replay p).noColl) := by
  have link := only.link
  have out : w.out = s.out := (congrArg State.out only.1 :)
  rw [State.replay_again (by rw [link]; exact some_frame) (by rw [link]; exact fresh), link, out]
  let marked : Link → Link := fun k => { k with replay := (s.link p).replay.map TxFrame.again }
  refine ⟨rfl, ?_, ?_, fun q other => ?_, (congrArg State.mem only.1 :), fun g hg => ?_, fun still => ?_⟩
  · show ((w.bump (R.LINK_COUNTS0.REPLAYS p)).modLink p marked).link p = _
    rw [State.link_modLink_same, State.bump_link, link]
  · refine (State.get_bump_same w _ _).trans ?_
    rw [only.get]
    simp only [List.forall_mem_cons, Field.key, R.LINK_COUNTS0.REPLAYS, R.LINK_COUNTS0.CORRECTED_SYMBOLS]
    exact ⟨by omega, List.forall_mem_nil _⟩
  · show ((w.bump (R.LINK_COUNTS0.REPLAYS p)).modLink p marked).link q = _
    rw [State.link_modLink_other _ _ other, State.bump_link, link]
  · exact (State.get_put_other _ _ (hg _ (by simp))).trans (only.2 g fun k hk => hg k (List.mem_cons.2 (.inl (List.mem_singleton.1 hk))))
  · have bumped : (w.bump (R.LINK_COUNTS0.REPLAYS p)).noColl := (only.noColl still).of_same rfl fun _ => rfl
    exact (bumped.modLink p (f := marked) fun _ => rfl).of_same rfl fun _ => rfl

end

end Sys2Proof.Machine

open Sys2Proof Sys2Proof.Machine

/-- Settles O43: what `State.replay`, `State.acknowledge` and `State.leaveUp` leave where no collective waits. -/
theorem replayBuffer : Obligations.ReplayBuffer := by
  intro s p f fixed quiet still hp up fresh P C
  obtain ⟨alive, idle⟩ := quiet
  have counted : s.onlyRegs (s.corrected p fixed) [C] := (State.onlyRegs.refl s _).put (List.mem_singleton.2 rfl) _
  have waiting : (s.corrected p fixed).pending = s.pending := rfl
  have nak (act : State → State) : s.receive p { f with type := fNak } fixed act = (act (s.corrected p fixed)).collectives :=
    State.receive_unsequenced (f := { f with type := fNak }) fixed act up fresh rfl
  generalize keep : s.corrected p fixed = w at counted waiting nak
  refine ⟨fun c hc some_frame few => ?_, fun c hc worn none_in closed => ?_, fun empty => ?_, fun few => ?_,
    fun a x b g buffer first acks none_waits => ?_, fun g none_waits => ⟨fun room => ?_, fun full => ?_⟩⟩
  · revert c
    simp only [List.forall_mem_cons]
    refine ⟨?_, ?_, List.forall_mem_nil _⟩
    · obtain ⟨out, link, get, others, mem, regs, idles⟩ := State.replay_effect counted some_frame few
      have runs := (nak fun s => s.replay p).trans (State.collectives_idle (idles still))
      exact completes_whenAlive alive (exec_nakFrame ..) runs ((State.replay_kept (z := w) (.refl w)).pending.trans waiting)
        ⟨out, link, get, others, mem, regs⟩
    · obtain ⟨out, link, get, others, mem, regs, -⟩ := State.replay_effect (State.onlyRegs.refl s _) some_frame few
      exact completes_whenAlive alive (exec_replayTimeout ..) (if_pos up) (State.replay_kept (z := s) (.refl s)).pending
        ⟨out, link, get, others, mem, regs⟩
  · have leaves (v : State) (only : s.onlyRegs v [C]) : v.LeftUp (v.leaveUp p linkTrain) p linkTrain :=
      State.leaveUp_left (by rw [only.link]; exact none_in) ((congrArg (fun u => u.coll.opened) only.1 :).trans closed) (only.noColl still)
    have worn' (v : State) (only : s.onlyRegs v [C]) : v.replay p = v.leaveUp p linkTrain :=
      State.replay_worn (by rw [only.link]; exact worn)
    have shows (v : State) (only : s.onlyRegs v [C]) {t : State} (left : v.LeftUp t p linkTrain) :
        t.get (R.LINK_STATUS.STATE p) = linkTrain ∧ t.isSet (R.LINK_STATUS.PEER_VALID p) = false ∧
          t.isSet R.GLB_READY.LINKS_OK = false ∧
          t.get (R.LINK_COUNTS2.RETRAINS p) = min (2 ^ (R.LINK_COUNTS2.RETRAINS p).width - 1) (s.get (R.LINK_COUNTS2.RETRAINS p) + 1) ∧
          t.link p = { s.link p with txSeq := 0, rxSeq := 0, nakSent := false, replay := [], waiting := [], attempts := 0, train := none,
                                     retraining := true } ∧ s.onlyLink t p ∧ t.mem = s.mem ∧ t.out = s.out := by
      obtain ⟨mem, out, -⟩ := left.leaves
      have retrains : v.get (R.LINK_COUNTS2.RETRAINS p) = s.get (R.LINK_COUNTS2.RETRAINS p) := only.get (by
        simp only [C, List.forall_mem_cons, Field.key, R.LINK_COUNTS2.RETRAINS, R.LINK_COUNTS0.CORRECTED_SYMBOLS]
        exact ⟨by omega, List.forall_mem_nil _⟩)
      refine ⟨left.state, left.peer, left.down rfl hp, by rw [left.retrains rfl, retrains], left.link.trans ?_, fun q other =>
        (left.others q other).trans (only.link q), mem.trans (congrArg State.mem only.1 :), out.trans (congrArg State.out only.1 :)⟩
      rw [only.link, Link.restarted]
      simp only [none_in]
      rfl
    revert c
    simp only [List.forall_mem_cons]
    have plain := State.onlyRegs.refl s [C]
    have left := leaves s plain
    have left' := leaves w counted
    refine ⟨?_, ?_, ?_, List.forall_mem_nil _⟩
    · refine completes_whenAlive alive (exec_nakFrame ..) ((nak fun s => s.replay p).trans ?_) (left'.pending.trans waiting) (shows w counted left')
      rw [worn' w counted, State.collectives_idle left'.still]
    · exact completes_whenAlive alive (exec_replayTimeout ..) ((if_pos up).trans (worn' s plain)) left.pending (shows s plain left)
    · refine completes_whenAlive alive (exec_linkRetrain ..) (if_pos ?_) left.pending (shows s plain left)
      obtain ⟨x, hx, tries⟩ := worn
      rw [up, Bool.true_and]
      exact List.any_eq_true.2 ⟨x, hx, decide_eq_true tries⟩
  · exact completes_whenAlive alive (exec_replayTimeout ..) ((if_pos up).trans (State.replay_empty empty)) rfl rfl
  · refine completes_whenAlive alive (exec_linkRetrain ..) (if_neg ?_) rfl rfl
    rw [up, Bool.true_and]
    exact Bool.eq_false_iff.1 (List.any_eq_false.2 fun x hx => by have := few x hx; simp; omega)
  · have acked := (s.corrected p fixed).acknowledge_upTo buffer first none_waits
    rw [← acks] at acked
    have still' : (((s.corrected p fixed).put (R.LINK_STATUS.RTT_NS p) (min 0xFFFF ((s.corrected p fixed).now - x.sent))).modLink p
        fun l => { l with replay := b }).noColl :=
      (State.noColl.of_same (t := (s.corrected p fixed).put (R.LINK_STATUS.RTT_NS p) (min 0xFFFF ((s.corrected p fixed).now - x.sent))) still rfl
        fun _ => rfl).modLink p fun _ => rfl
    have runs : s.receive p { g with type := fIdle } fixed id = _ :=
      (State.receive_acked (f := { g with type := fIdle }) fixed id up rfl acked).trans (State.collectives_idle still')
    refine completes_whenAlive alive (exec_idleFrame ..) runs rfl ⟨?_, ?_, fun q other => ?_, rfl, rfl, fun h hh => ?_⟩
    · exact State.link_modLink_same _ _ _
    · have now : (s.corrected p fixed).now = s.now :=
        State.get_put_other _ _ (by simp only [Field.key, R.MRD_TIME.TIME, R.LINK_COUNTS0.CORRECTED_SYMBOLS]; omega)
      refine Eq.trans (State.get_of_regs (s := (s.corrected p fixed).put (R.LINK_STATUS.RTT_NS p)
        (min 0xFFFF ((s.corrected p fixed).now - x.sent))) rfl _) ?_
      rw [now]
      refine State.get_put_fits (s.corrected p fixed) _ ?_
      exact Nat.lt_of_le_of_lt (Nat.min_le_left _ _) (by decide : 0xFFFF < 2 ^ 16)
    · exact State.link_modLink_other _ _ other
    · exact (State.get_put_other _ _ (hh _ (.tail _ (.head _)))).trans (State.get_put_other _ _ (hh _ (.head _)))
  · have hasRoom : s.hasRoom p := ⟨none_waits, room⟩
    rw [State.sendSeq_of_room hasRoom, State.transmitSeq]
    simp only [State.link_modLink_same, State.emit_link]
    exact ⟨rfl, trivial⟩
  · have stays : s.sendSeq p g = s.modLink p fun l => { l with waiting := l.waiting ++ [(g, none)] } := by
      simp [State.sendSeq, State.drainLink, none_waits, full]
    rw [stays, State.link_modLink_same, none_waits]
    exact ⟨rfl, rfl, rfl⟩
end

section
/-!
SUPPORT. Training (R444, R470): the outcomes of a training, and what an event of low class leaves: its class is seen, and nothing goes out
on the links.
-/

namespace Sys2Proof.Machine

/-! ### Raising an event shows its class (R571) -/

theorem State.message_kept_regs (s : State) (v : Nat) : (s.message v).regs = s.regs ∧ (s.message v).links = s.links := by
  unfold State.message State.d2h
  split
  · exact ⟨rfl, rfl⟩
  · dsimp only
    split <;> split <;> exact ⟨rfl, rfl⟩

theorem State.errorIrq_kept_regs (s : State) (cls : Nat) : (s.errorIrq cls).regs = s.regs ∧ (s.errorIrq cls).links = s.links := by
  unfold State.errorIrq
  split
  · exact s.message_kept_regs _
  · exact ⟨rfl, rfl⟩

theorem State.reportEvent_kept_regs (s : State) (new : Bool) (r : ErrRec) :
    (s.reportEvent new r).regs = s.regs ∧ (s.reportEvent new r).links = s.links := by
  unfold State.reportEvent
  split <;> exact ⟨rfl, rfl⟩

theorem State.driveFault_kept_regs (s : State) (e : Event) : (s.driveFault e).regs = s.regs ∧ (s.driveFault e).links = s.links := by
  unfold State.driveFault
  split
  · exact ⟨rfl, rfl⟩
  · split <;> exact ⟨rfl, rfl⟩

theorem State.appendRecord_seen (s : State) (r : ErrRec) :
    (s.appendRecord r).1.get R.GLB_ERR_SUMMARY.SEEN = s.get R.GLB_ERR_SUMMARY.SEEN ∧ (s.appendRecord r).1.links = s.links := by
  unfold State.appendRecord
  split
  · exact ⟨State.get_of_regs rfl _, rfl⟩
  · dsimp only
    split
    · exact ⟨State.get_put_other _ _ (by decide), rfl⟩
    · exact ⟨(State.get_of_regs (s := s.put R.GLB_ERR_LOG.TAIL ((s.get R.GLB_ERR_LOG.TAIL + 1) % 64)) rfl _).trans
        (State.get_put_other _ _ (by decide)), rfl⟩

/-- An event shows its class; below class 3 it goes out on no link. -/
theorem State.raise_shows (s : State) (e : Event) :
    (s.raise e).get R.GLB_ERR_SUMMARY.SEEN = (s.get R.GLB_ERR_SUMMARY.SEEN ||| 2 ^ (e.cls - 1)) % 2 ^ 8 ∧
      (e.cls < 3 → (s.raise e).links = s.links) := by
  unfold State.raise
  extract_lets seen driven r merged
  obtain ⟨driven_regs, driven_links⟩ := seen.driveFault_kept_regs e
  have shown : driven.get R.GLB_ERR_SUMMARY.SEEN = (s.get R.GLB_ERR_SUMMARY.SEEN ||| 2 ^ (e.cls - 1)) % 2 ^ 8 :=
    (State.get_of_regs driven_regs _).trans (State.get_put_same _ _ _)
  split
  · exact ⟨shown, fun _ => driven_links⟩
  · obtain ⟨appended, appended_links⟩ := driven.appendRecord_seen r
    split
    next a new made =>
    rw [made] at appended appended_links
    extract_lets told _ logged
    have irq : (if new then a.errorIrq e.cls else a).regs = a.regs ∧ (if new then a.errorIrq e.cls else a).links = a.links := by
      split
      · exact a.errorIrq_kept_regs _
      · exact ⟨rfl, rfl⟩
    obtain ⟨told_regs, told_links⟩ := (if new then a.errorIrq e.cls else a).reportEvent_kept_regs new r
    have logged_kept : logged.regs = told.regs ∧ logged.links = told.links := by
      unfold logged
      split <;> exact ⟨rfl, rfl⟩
    have regs : logged.regs = a.regs := logged_kept.1.trans (told_regs.trans irq.1)
    have links : logged.links = s.links := logged_kept.2.trans (told_links.trans (irq.2.trans (appended_links.trans driven_links)))
    have final : logged.get R.GLB_ERR_SUMMARY.SEEN = (s.get R.GLB_ERR_SUMMARY.SEEN ||| 2 ^ (e.cls - 1)) % 2 ^ 8 :=
      (State.get_of_regs regs _).trans (appended.trans shown)
    split
    · next sends =>
      refine ⟨(State.get_of_regs (State.sendCtrl_onlySends logged _ _).regs _).trans final, fun low => ?_⟩
      simp only [Bool.and_eq_true, decide_eq_true_eq] at sends
      omega
    · exact ⟨final, fun _ => links⟩

theorem bit_eq_testBit (v i : Nat) : bit v i = v.testBit i := by
  rw [bit, Nat.testBit_eq_decide_div_mod_eq, Nat.shiftRight_eq_div_pow]
  rfl

theorem bit_or_pow (v k : Nat) (hk : k < 8) : bit ((v ||| 2 ^ k) % 2 ^ 8) k = true := by
  rw [bit_eq_testBit, Nat.testBit_mod_two_pow, Nat.testBit_or, Nat.testBit_two_pow_self]
  simp [hk]

/-- The class of an event is seen. -/
theorem State.raise_seen (s : State) (e : Event) (hk : e.cls - 1 < 8) : bit ((s.raise e).get R.GLB_ERR_SUMMARY.SEEN) (e.cls - 1) = true := by
  rw [(s.raise_shows e).1]
  exact bit_or_pow _ _ hk

/-! ### Training -/

section
variable {s : State} {p : Nat}

theorem State.refreshLinks_only (s : State) : s.onlyRegs s.refreshLinks [R.GLB_READY.LINKS_OK] :=
  (State.onlyRegs.refl s _).put (List.mem_singleton.2 rfl) _

/-- A port in FAILED holds LINKS_OK at 0. -/
theorem State.refreshLinks_failed (hp : p < 24) (failed : s.get (R.LINK_STATUS.STATE p) = linkFailed) :
    s.refreshLinks.isSet R.GLB_READY.LINKS_OK = false := by
  have one : ((List.range 24).all fun p =>
      s.get (R.LINK_STATUS.STATE p) != linkTrain && s.get (R.LINK_STATUS.STATE p) != linkFailed) = false :=
    List.all_eq_false.2 ⟨p, List.mem_range.2 hp, by rw [failed]; decide⟩
  exact (State.isSet_putBit (by decide) _).trans one

theorem State.put_modLink_get (s : State) (p : Nat) {f : Field} {v : Nat} (fits : v < 2 ^ f.width) (g : Link → Link) :
    ((s.put f v).modLink p g).get f = v :=
  (State.get_of_regs (s := s.put f v) rfl f).trans (State.get_put_fits s f fits)

/-- A port's state has been written and its link changed, and LINKS_OK follows. -/
theorem State.moved_leaves (s : State) (p st : Nat) (f : Link → Link) :
    let t := ((s.put (R.LINK_STATUS.STATE p) st).modLink p f).refreshLinks
    t.get (R.LINK_STATUS.STATE p) = st % 2 ^ 3 ∧ t.link p = f (s.link p) ∧ s.onlyLink t p ∧
      s.leaves t [R.LINK_STATUS.STATE p, R.GLB_READY.LINKS_OK] := by
  intro t
  have only : ((s.put (R.LINK_STATUS.STATE p) st).modLink p f).onlyRegs t [R.GLB_READY.LINKS_OK] := State.refreshLinks_only _
  have apart : (R.LINK_STATUS.STATE p).key ≠ R.GLB_READY.LINKS_OK.key := by
    simp only [Field.key, R.LINK_STATUS.STATE, R.GLB_READY.LINKS_OK]
    omega
  refine ⟨(only.get fun g hg => by rw [List.mem_singleton.1 hg]; exact apart).trans ((State.get_of_regs rfl _).trans (State.get_put_same s _ _)),
    (only.link p).trans (State.link_modLink_same _ _ _), fun q other => (only.link q).trans (State.link_modLink_other _ _ other),
    (congrArg State.mem only.1 :), (congrArg State.out only.1 :), fun g hg => ?_⟩
  refine (only.get fun k hk => hg k (.tail _ hk)).trans ((State.get_of_regs rfl _).trans (State.get_put_other s _ (hg _ (.head _))))

/-- Whether a training that reported success brings the port UP: both ends have told the same mode. -/
def State.trained (s : State) (p : Nat) (ok : Bool) : Bool := match (s.link p).train with
  | some (_, _, mode) => ok && mode == s.get (R.LINK_CTRL.MODE p)
  | none => false

theorem State.trained_of_bad {ok : Bool} {ser port mode : Nat}
    (bad : ok = false ∨ (s.link p).train = none ∨ (s.link p).train = some (ser, port, mode) ∧ mode ≠ s.get (R.LINK_CTRL.MODE p)) :
    s.trained p ok = false := by
  unfold State.trained
  rcases bad with rfl | none_told | ⟨told, differs⟩
  · split <;> rfl
  · rw [none_told]
  · rw [told]
    simp [differs]

/-- The branches of the end of a training on a port that no test holds. -/
theorem State.trainDone_eq {ok : Bool} (trains : s.get (R.LINK_STATUS.STATE p) = linkTrain) (no_test : (s.link p).test = none) :
    s.trainDone p ok =
      if s.trained p ok then
        let told := (s.link p).train.getD (0, 0, 0)
        let u := (((s.put (R.LINK_PEER.SERIAL p) told.1).put (R.LINK_STATUS.PEER_PORT p) told.2.1).putBit (R.LINK_STATUS.PEER_VALID p) true).put
          (R.LINK_STATUS.STATE p) linkUp
        let u := u.modLink p fun l => { l with txSeq := 0, rxSeq := 0, nakSent := false, attempts := 0, retraining := false, train := none }
        (if (s.link p).retraining then u.raise (evLinkRetrain p linkUp) else u).refreshLinks
      else if (s.link p).attempts + 1 < 3 then s.modLink p fun l => { l with attempts := l.attempts + 1, train := none }
      else
        (((s.put (R.LINK_STATUS.STATE p) linkFailed).modLink p fun l => { l with attempts := 0, retraining := false, train := none }).raise
          (evLinkRetrain p linkFailed)).refreshLinks := by
  rw [State.trainDone, trains]
  dsimp only
  rw [if_neg (by decide), no_test]
  rfl

/-- What a port's registers show of the peer whose training has come to an end, and that the port is UP. -/
def State.showPeer (s : State) (p ser port : Nat) : State :=
  (((s.put (R.LINK_PEER.SERIAL p) ser).put (R.LINK_STATUS.PEER_PORT p) port).putBit (R.LINK_STATUS.PEER_VALID p) true).put
    (R.LINK_STATUS.STATE p) linkUp

theorem State.showPeer_shows (s : State) (p ser port : Nat) :
    let t := s.showPeer p ser port
    t.get (R.LINK_STATUS.STATE p) = linkUp ∧ t.isSet (R.LINK_STATUS.PEER_VALID p) = true ∧ t.get (R.LINK_PEER.SERIAL p) = ser % 2 ^ 64 ∧
      t.get (R.LINK_STATUS.PEER_PORT p) = port % 2 ^ 5 ∧
      s.onlyRegs t [R.LINK_STATUS.STATE p, R.LINK_STATUS.PEER_VALID p, R.LINK_PEER.SERIAL p, R.LINK_STATUS.PEER_PORT p] := by
  intro t
  have state_valid : (R.LINK_STATUS.PEER_VALID p).key ≠ (R.LINK_STATUS.STATE p).key := by
    simp only [Field.key, R.LINK_STATUS.PEER_VALID, R.LINK_STATUS.STATE]; omega
  have state_serial : (R.LINK_PEER.SERIAL p).key ≠ (R.LINK_STATUS.STATE p).key := by
    simp only [Field.key, R.LINK_PEER.SERIAL, R.LINK_STATUS.STATE]; omega
  have state_port : (R.LINK_STATUS.PEER_PORT p).key ≠ (R.LINK_STATUS.STATE p).key := by
    simp only [Field.key, R.LINK_STATUS.PEER_PORT, R.LINK_STATUS.STATE]; omega
  have valid_serial : (R.LINK_PEER.SERIAL p).key ≠ (R.LINK_STATUS.PEER_VALID p).key := by
    simp only [Field.key, R.LINK_PEER.SERIAL, R.LINK_STATUS.PEER_VALID]; omega
  have valid_port : (R.LINK_STATUS.PEER_PORT p).key ≠ (R.LINK_STATUS.PEER_VALID p).key := by
    simp only [Field.key, R.LINK_STATUS.PEER_PORT, R.LINK_STATUS.PEER_VALID]; omega
  have port_serial : (R.LINK_PEER.SERIAL p).key ≠ (R.LINK_STATUS.PEER_PORT p).key := by
    simp only [Field.key, R.LINK_PEER.SERIAL, R.LINK_STATUS.PEER_PORT]; omega
  exact ⟨State.get_put_fits _ _ (by decide : linkUp < 2 ^ 3), (State.isSet_put_other _ _ state_valid).trans (State.isSet_putBit Nat.one_pos _),
    (State.get_put_other _ _ state_serial).trans ((State.get_put_other _ _ valid_serial).trans ((State.get_put_other _ _ port_serial).trans
      (State.get_put_same _ _ _))),
    (State.get_put_other _ _ state_port).trans ((State.get_put_other _ _ valid_port).trans (State.get_put_same _ _ _)),
    ((((State.onlyRegs.refl s _).put (by simp) ser).put (by simp) port).put (by simp) (b2n true)).put (by simp) linkUp⟩

/-- A register of a port is none of the error log's, and not LINKS_OK. -/
theorem port_apart {f : Field} (port : 0x40000 * 64 ≤ f.key) : (∀ g ∈ errorFields, f.key ≠ g.key) ∧ f.key ≠ R.GLB_READY.LINKS_OK.key := by
  have below : ∀ g ∈ R.GLB_READY.LINKS_OK :: errorFields, g.key < 0x40000 * 64 := by decide
  refine ⟨fun g hg => ?_, ?_⟩
  · have := below g (.tail _ hg)
    omega
  · have := below _ (.head _)
    omega

/-- An event may have been raised about a port, and LINKS_OK follows the ports. -/
structure State.Reacts (s t : State) : Prop where
  raises : ∃ w, s.Raises w ∧ w.onlyRegs t [R.GLB_READY.LINKS_OK]
  links : t.links = s.links

theorem State.Reacts.get {s t : State} (h : s.Reacts t) {f : Field} (port : 0x40000 * 64 ≤ f.key) : t.get f = s.get f := by
  obtain ⟨w, raised, only⟩ := h.raises
  obtain ⟨log, ready⟩ := port_apart port
  exact (only.get fun g hg => by rw [List.mem_singleton.1 hg]; exact ready).trans (raised.get log)

theorem State.reacts_raise (s : State) (e : Event) (low : e.cls < 3) : s.Reacts (s.raise e).refreshLinks :=
  ⟨⟨_, .raise s e, State.refreshLinks_only _⟩, (s.raise_shows e).2 low⟩

theorem State.reacts_quiet (s : State) : s.Reacts s.refreshLinks := ⟨⟨_, .refl s, State.refreshLinks_only s⟩, rfl⟩

theorem State.Reacts.que {s t : State} (h : s.Reacts t) : t.que = s.que ∧ t.pending = s.pending ∧ t.mem = s.mem := by
  obtain ⟨w, raised, only⟩ := h.raises
  exact ⟨only.que.trans raised.que, only.pending.trans raised.pending, (congrArg State.mem only.1 :).trans raised.mem⟩

theorem refreshLinks_seen (s : State) : s.refreshLinks.get R.GLB_ERR_SUMMARY.SEEN = s.get R.GLB_ERR_SUMMARY.SEEN :=
  State.get_put_other _ _ (by decide)

end

end Sys2Proof.Machine

open Sys2Proof Sys2Proof.Machine

/-- Settles O44: each outcome of a training in its own branch. -/
theorem training : Obligations.Training := by
  intro s p ser port mode ok quiet hp S L
  obtain ⟨alive, idle⟩ := quiet
  refine ⟨fun enabled state => ?_, fun disabled => ?_, fun other c hc => ?_, fun trains => ⟨?_, ?_, fun no_test => ⟨fun agree => ?_,
    fun bad => ⟨fun early => ?_, fun late => ?_⟩⟩⟩⟩
  · obtain ⟨state', link, others, leaves⟩ := s.moved_leaves p linkTrain fun l => { l with attempts := 0, train := none, retraining := false }
    refine completes_whenAlive alive (f := fun s => if s.isSet (R.LINK_CTRL.ENABLE p) &&
      (s.get S == linkDetect || s.get S == linkDown) then s.enterTrain p else s) rfl (if_pos ?_) rfl ⟨state', ?_, link, others, leaves⟩
    · rw [enabled]
      rcases state with state | state <;> rw [state] <;> rfl
    · exact State.refreshLinks_training hp (s.put_modLink_get p (by decide : linkTrain < 2 ^ 3) _)
  · refine completes_whenAlive alive (f := fun s => if s.isSet (R.LINK_CTRL.ENABLE p) &&
      (s.get S == linkDetect || s.get S == linkDown) then s.enterTrain p else s) rfl (if_neg ?_) rfl rfl
    rw [disabled]
    exact Bool.false_ne_true
  · revert c
    simp only [List.forall_mem_cons]
    refine ⟨completes_whenAlive alive (f := fun s => if s.get S == linkTrain then s.modLink p fun l => { l with train := some (ser, port, mode) }
        else s) rfl (if_neg (by simpa using other)) rfl rfl,
      completes_act alive (f := (State.trainDone · p ok)) rfl (if_pos (by simpa using other)) idle rfl rfl,
      completes_whenAlive alive (f := fun s => if s.get S == linkTrain then
        ((s.put S linkDetect).modLink p fun l => { l with attempts := 0, train := none }).refreshLinks else s) rfl
        (if_neg (by simpa using other)) rfl rfl, List.forall_mem_nil _⟩
  · exact completes_whenAlive alive (f := fun s => if s.get S == linkTrain then s.modLink p fun l => { l with train := some (ser, port, mode) }
      else s) rfl (if_pos (by rw [trains]; rfl)) rfl rfl
  · obtain ⟨state', link, others, leaves⟩ := s.moved_leaves p linkDetect fun l => { l with attempts := 0, train := none }
    exact completes_whenAlive alive (f := fun s => if s.get S == linkTrain then
        ((s.put S linkDetect).modLink p fun l => { l with attempts := 0, train := none }).refreshLinks else s) rfl
        (if_pos (by rw [trains]; rfl)) rfl ⟨state', link, others, leaves⟩
  · have up : s.trained p true = true := by
      unfold State.trained
      rw [agree]
      simp
    have runs := State.trainDone_eq (ok := true) trains no_test
    rw [up, if_pos rfl, agree] at runs
    obtain ⟨state, valid, serial, number, only⟩ := s.showPeer_shows p ser port
    let shown := s.showPeer p ser port
    let joined : Link → Link :=
      fun l => { l with txSeq := 0, rxSeq := 0, nakSent := false, attempts := 0, retraining := false, train := none }
    let u := shown.modLink p joined
    have changed (t : State) (reacts : u.Reacts t) : t.get S = linkUp ∧ t.isSet (R.LINK_STATUS.PEER_VALID p) = true ∧
        t.get (R.LINK_PEER.SERIAL p) = ser % 2 ^ 64 ∧ t.get (R.LINK_STATUS.PEER_PORT p) = port % 2 ^ 5 ∧ t.link p = joined (s.link p) ∧
        s.onlyLink t p ∧ t.mem = s.mem := by
      have kept {f : Field} (port : 0x40000 * 64 ≤ f.key) : t.get f = shown.get f := (reacts.get port).trans (State.get_of_regs rfl f)
      have link (q : Nat) : t.link q = u.link q := congrArg (Table.get Link.reset q) reacts.links
      obtain ⟨-, -, mem⟩ := reacts.que
      refine ⟨(kept ?_).trans state, (State.isSet_of_get (kept ?_)).trans valid, (kept ?_).trans serial, (kept ?_).trans number, ?_,
        fun q other => ?_, mem.trans (congrArg State.mem only.1 :)⟩
      · simp only [Field.key, S, R.LINK_STATUS.STATE]; omega
      · simp only [Field.key, R.LINK_STATUS.PEER_VALID]; omega
      · simp only [Field.key, R.LINK_PEER.SERIAL]; omega
      · simp only [Field.key, R.LINK_STATUS.PEER_PORT]; omega
      · rw [link, State.link_modLink_same, only.link]
      · rw [link, State.link_modLink_other _ _ other, only.link]
    replace runs : s.trainDone p true = (if (s.link p).retraining then u.raise (evLinkRetrain p linkUp) else u).refreshLinks := runs
    by_cases again : (s.link p).retraining = true
    · rw [again, if_pos rfl] at runs
      have reacts := u.reacts_raise (evLinkRetrain p linkUp) (by decide : 2 < 3)
      obtain ⟨state, valid, serial, number, link, others, mem⟩ := changed _ reacts
      obtain ⟨que, pending, -⟩ := reacts.que
      refine completes_act alive (f := (State.trainDone · p true)) rfl runs
        ((congrArg Que.tickets (que.trans only.que)).trans idle) (pending.trans only.pending)
        ⟨state, valid, serial, number, link, others, mem, fun _ => ?_, fun no => ?_⟩
      · rw [refreshLinks_seen]
        exact u.raise_seen (evLinkRetrain p linkUp) (by decide : 1 < 8)
      · rw [again] at no
        cases no
    · have first : (s.link p).retraining = false := Bool.eq_false_iff.2 again
      rw [first, if_neg Bool.false_ne_true] at runs
      have reacts := u.reacts_quiet
      obtain ⟨state, valid, serial, number, link, others, mem⟩ := changed _ reacts
      refine completes_act alive (f := (State.trainDone · p true)) rfl runs
        ((congrArg Que.tickets only.que).trans idle) only.pending
        ⟨state, valid, serial, number, link, others, mem, fun yes => absurd yes again, fun _ => ⟨mem, (congrArg State.out only.1 :), fun g hg => ?_⟩⟩
      have ready := (State.refreshLinks_only u).get (f := g) fun k hk => hg k (by rw [List.mem_singleton.1 hk]; exact .tail _ (.head _))
      refine ready.trans ((State.get_of_regs rfl g).trans (only.get fun k hk => hg k ?_))
      rcases List.mem_cons.1 hk with rfl | hk
      · exact .head _
      · exact .tail _ (.tail _ hk)
  · have runs := State.trainDone_eq (ok := ok) trains no_test
    rw [State.trained_of_bad bad, if_neg Bool.false_ne_true, if_pos (by omega)] at runs
    exact completes_act alive (f := (State.trainDone · p ok)) rfl runs idle rfl rfl
  · have runs := State.trainDone_eq (ok := ok) trains no_test
    rw [State.trained_of_bad bad, if_neg Bool.false_ne_true, if_neg (by omega)] at runs
    let u := (s.put S linkFailed).modLink p fun l => { l with attempts := 0, retraining := false, train := none }
    have reacts := u.reacts_raise (evLinkRetrain p linkFailed) (by decide : 2 < 3)
    have failed : (u.raise (evLinkRetrain p linkFailed)).get S = linkFailed :=
      ((State.Raises.raise u _).get (port_apart (by simp only [Field.key, S, R.LINK_STATUS.STATE]; omega)).1).trans
        (s.put_modLink_get p (by decide : linkFailed < 2 ^ 3) _)
    have seen := u.raise_seen (evLinkRetrain p linkFailed) (by decide : 1 < 8)
    obtain ⟨que, pending, mem⟩ := reacts.que
    have link (q : Nat) : (u.raise (evLinkRetrain p linkFailed)).refreshLinks.link q = u.link q := congrArg (Table.get Link.reset q) reacts.links
    refine completes_act alive (f := (State.trainDone · p ok)) rfl runs ((congrArg Que.tickets que).trans idle) pending ⟨?_, ?_, ?_, ?_, ?_, ?_⟩
    · exact (reacts.get (by simp only [Field.key, S, R.LINK_STATUS.STATE]; omega)).trans (s.put_modLink_get p (by decide : linkFailed < 2 ^ 3) _)
    · exact State.refreshLinks_failed hp failed
    · rw [refreshLinks_seen]
      exact seen
    · exact (link p).trans (State.link_modLink_same _ _ _)
    · exact fun q other => (link q).trans (State.link_modLink_other _ _ other)
    · exact mem
end

section
/-!
SUPPORT. A device whose group number is out of its width: the register that holds the epoch of the device at port 0 is then the counter of
the symbols that the port corrects.
-/

namespace Sys2Proof.Machine

/-- A device of a cluster that runs a furrow, with port 0 UP; GLB.DEVPOS.GROUP holds a number that no write of the field leaves. -/
def State.farGroup : State :=
  { State.reset with
    regs := Table.insert R.GLB_DEVPOS.GROUP.key 2044 (Table.insert R.GLB_DEVPOS.POSITION.key 2 ((((State.reset.put (R.LINK_STATUS.STATE 0) linkUp).put
      R.GLB_DEVPOS.ASSIGNED 1).put R.FRW_STATE.STATE frwRunning).regs))
    flt := { Flt.reset with groupSize := [(2044, 4)] } }

/-- An echo that tells of a late member. -/
def lateEcho : Frame := ⟨fRelay, false, false, false, false, 1, 0, 0, [0, 4, 1]⟩

theorem farGroup_hears : State.farGroup.hears 0 lateEcho := by decide +kernel

/-- The register of the epoch is the counter. -/
theorem farGroup_epoch : R.GLB_PEER_EPOCH.EPOCH ((State.farGroup.portDevice 0).getD 0) = R.LINK_COUNTS0.CORRECTED_SYMBOLS 0 := by decide +kernel

/-- Whether a command leaves the sign of a late echo. -/
def Answered.echoLate (a : Answered) : Option Bool := match a with
  | .next t => some t.frw.echoLate
  | _ => none

/-- With a symbol corrected the echo is dropped: its epoch has been written over. -/
theorem farGroup_drops : Answered.echoLate (exec (.relayFrame 0 lateEcho 1) State.farGroup) = some false := by decide +kernel

end Sys2Proof.Machine

open Sys2Proof Sys2Proof.Machine

/-- Refutes O46: where GLB.DEVPOS.GROUP holds 2044, beyond its two bits, the epoch of the device at port 0 is read from the port's counter of
corrected symbols, and an echo that corrects one is dropped as of another epoch. -/
theorem not_beaconsAndRelays : ¬ Obligations.BeaconsAndRelays := by
  intro holds
  obtain ⟨-, -, relays⟩ := holds State.farGroup 0 lateEcho 1 farGroup_hears
  obtain ⟨-, echoes⟩ := relays (by decide)
  obtain ⟨t, runs, frw, -⟩ := (echoes (by decide +kernel) (by decide) (by decide)).1 (by decide)
  have dropped := farGroup_drops
  rw [runs] at dropped
  have late : t.frw.echoLate = true := (congrArg Frw.echoLate frw).trans (by decide)
  rw [Answered.echoLate, late] at dropped
  cases dropped
end

section
/-!
SUPPORT. Frames of the schedule (R39, R52): what goes out on the ports that are UP.
-/

namespace Sys2Proof.Machine

theorem State.sendOn_none {s : State} {l : List Nat} (none_up : l.filter (fun p => s.portUp p) = []) (f : Frame) : s.sendOn l f = s := by
  rw [State.sendOn, none_up]
  rfl

/-- What a frame that leaves one port with room changes. -/
structure State.SentOne (s t : State) (p : Nat) (f : Frame) : Prop where
  out : t.out = s.out ++ [.frame p { f with seq := ((s.link p).txSeq + 1) % 1024, ack := (s.link p).rxSeq }]
  txSeq : (t.link p).txSeq = ((s.link p).txSeq + 1) % 1024
  replay : (t.link p).replay.length = (s.link p).replay.length + 1
  others : ∀ q, q ≠ p → t.link q = s.link q
  mem : t.mem = s.mem
  regs : ∀ f, t.get f = s.get f

theorem State.sendOn_one {s : State} {l : List Nat} {p : Nat} (one_up : l.filter (fun p => s.portUp p) = [p]) (room : s.hasRoom p) (f : Frame) :
    s.SentOne (s.sendOn l f) p f := by
  have sends : s.sendOn l f = s.sendSeq p f := by rw [State.sendOn, one_up]; rfl
  rw [sends]
  refine ⟨State.sendSeq_out room f none, ?_, ?_, fun q other => State.sendSeq_link_other room other f none, (s.sendSeq_onlySends p f none).mem,
    State.get_of_regs (State.sendSeq_regs room f none)⟩
  · rw [State.sendSeq_of_room room, State.transmitSeq]
    simp
  · rw [State.sendSeq_of_room room, State.transmitSeq]
    simp

/-- A command that sends a frame on the ports of a list that are UP, where its condition holds, does nothing else. -/
theorem completes_sendOn {s : State} {i : Instr} {f : State → State} {l : List Nat} {c : Prop} {g : Frame} (quiet : s.quiet)
    (runs : exec i s = s.act f) (stays : ¬ c → f s = s) (sends : c → f s = s.sendOn l g) :
    (¬ c → Completes i s fun t => t = s) ∧
      (c → l.filter (fun p => s.portUp p) = [] → Completes i s fun t => t = s) ∧
      (∀ p, c → l.filter (fun p => s.portUp p) = [p] → (s.link p).waiting = [] → (s.link p).replay.length < 256 →
        Completes i s fun t =>
          t.out = s.out ++ [.frame p { g with seq := ((s.link p).txSeq + 1) % 1024, ack := (s.link p).rxSeq }] ∧
            (t.link p).txSeq = ((s.link p).txSeq + 1) % 1024 ∧ (t.link p).replay.length = (s.link p).replay.length + 1 ∧
            (∀ q, q ≠ p → t.link q = s.link q) ∧ t.mem = s.mem ∧ ∀ f, t.get f = s.get f) := by
  obtain ⟨alive, idle⟩ := quiet
  refine ⟨fun no => completes_act alive runs (stays no) idle rfl rfl, fun yes none_up =>
    completes_act alive runs ((sends yes).trans (State.sendOn_none none_up g)) idle rfl rfl, fun p yes one_up waiting few => ?_⟩
  have sent := State.sendOn_one one_up ⟨waiting, few⟩ g
  have only : s.onlySends (s.sendOn l g) := by
    rw [State.sendOn, one_up]
    exact s.sendSeq_onlySends p g none
  exact completes_act alive runs (sends yes) ((congrArg (fun u => u.que.tickets) only :).trans idle) (congrArg State.pending only :)
    ⟨sent.out, sent.txSeq, sent.replay, sent.others, sent.mem, sent.regs⟩

end Sys2Proof.Machine

open Sys2Proof Sys2Proof.Machine

/-- Settles O36: each of the three commands sends under its condition alone. -/
theorem scheduleFrames : Obligations.ScheduleFrames := by
  intro s quiet
  simp only [List.forall_mem_cons]
  refine ⟨completes_sendOn quiet (f := fun s => if s.inSchedule then s else s.sendBeacon) rfl (fun no => ?_) (fun ⟨off, unlocked, acquire⟩ => ?_),
    completes_sendOn quiet (f := State.sendRelay) rfl (fun no => if_neg ?_) (fun ⟨body, many⟩ => if_pos ?_),
    completes_sendOn quiet (f := State.sendEcho) rfl (fun no => if_neg no) (fun body => if_pos body), List.forall_mem_nil _⟩
  · by_cases off : s.inSchedule = true
    · exact if_pos off
    · refine (if_neg off).trans (if_pos ?_)
      by_contra locked
      refine no ⟨Bool.eq_false_iff.2 off, fun unlocked => locked ?_, fun acquire => locked ?_⟩
      · simp [State.lockless, unlocked]
      · simp [State.lockless, acquire]
  · refine (if_neg (Bool.eq_false_iff.1 off)).trans (if_neg ?_)
    simp [State.lockless, unlocked, acquire]
  · simpa using no
  · simp [body, many]
end

section
/-!
SUPPORT. Control messages on their way (R467, R468, R581): one lemma for the commands that carry one, from what each does with a message
that the device takes.
-/

namespace Sys2Proof.Machine

/-- A command that brings a control message to a port, and does nothing with it but what `State.ctrlIn` lets act. -/
def Carries (c : Instr) (p frags : Nat) (m : CtrlMsg) : Prop :=
  ∃ act : State → State, (∀ u, Kept u (act u)) ∧
    ∀ s, exec c s = s.whenAlive (State.ctrlIn · p frags m act) ∨ exec c s = s.act (State.ctrlIn · p frags m act)

/-- What a command does with the body that it expects. -/
theorem Carries.of_body {c : Instr} {p frags : Nat} {m : CtrlMsg} {act : State → State}
    (runs : ∀ s, exec c s = s.act (State.ctrlIn · p frags m act)) (keeps : ∀ u, Kept u (act u)) : Carries c p frags m :=
  ⟨act, keeps, fun s => .inr (runs s)⟩

section
variable (p frags : Nat) (m : CtrlMsg)

theorem ackMsg_carries : Carries (.ackMsg p frags m) p frags m := by
  refine ⟨_, fun u => ?_, fun s => .inl rfl⟩
  split
  · exact State.ackIn_kept (.refl u)
  · exact .refl u

theorem fwdCmd_carries (other : ∀ k pay img, m.body = .fwdCmd k pay img → k.opcode ≠ 5) : Carries (.fwdCmd p frags m) p frags m := by
  have runs (act : State → State) (h : ∀ s : State, s.fwdIn p frags m = s.ctrlIn p frags m act) (s : State) :
      exec (.fwdCmd p frags m) s = s.act (State.ctrlIn · p frags m act) := congrArg s.act (funext h)
  cases body : m.body with
  | fwdCmd k pay img =>
    refine .of_body (runs (fun s => s.forwarded m.src m.msgId k pay img) fun s => ?_) fun u => State.forwarded_kept (.refl u)
    rw [State.fwdIn, body]
    exact if_neg (by simpa using other k pay img body)
  | fwdCopy k c =>
    refine .of_body (runs (fun s => s.joinIn p m k c) fun s => ?_) fun u => State.joinIn_kept (.refl u)
    rw [State.fwdIn, body]
  | _ =>
    refine .of_body (runs (fun s => s) fun s => ?_) fun u => .refl u
    rw [State.fwdIn, body]

/-- The commands that bring a control message. -/
def bringers : List Instr :=
  [.ackMsg p frags m, .fwdCmd p frags m, .completionMsg p frags m, .laneTable p frags m, .laneAck p frags m,
    .laneAccept p frags m, .laneDiscard p frags m, .cfgPrepare p frags m, .cfgReady p frags m, .cfgConflictReply p frags m,
    .cfgCommitGo p frags m, .cfgAbort p frags m, .t0Msg p frags m, .tokensMsg p frags m, .fencedMsg p frags m,
    .failureStepNotice p frags m, .failurePeerSilent p frags m, .failureSelfFence p frags m, .failureErrorRecord p frags m]

theorem bringers_carry (other : ∀ k pay img, m.body = .fwdCmd k pay img → k.opcode ≠ 5) : ∀ c ∈ bringers p frags m, Carries c p frags m := by
  simp only [bringers, List.forall_mem_cons]
  refine ⟨ackMsg_carries p frags m, fwdCmd_carries p frags m other, ?_, ?_, ?_, ?_, ?_, ?_, ?_, ?_, ?_, ?_, ?_, ?_, ?_, ?_, ?_, ?_, ?_, List.forall_mem_nil _⟩
  · exact .of_body (fun _ => rfl) fun u => by split; exacts [State.completionIn_kept (.refl u), .refl u]
  · exact .of_body (fun _ => rfl) fun u => by split; exacts [State.laneTableIn_kept (.refl u), .refl u]
  · exact .of_body (fun _ => rfl) fun u => by split; exacts [State.laneAckIn_kept (.refl u), .refl u]
  · exact .of_body (fun _ => rfl) fun u => by split; exacts [State.laneAcceptIn_kept (.refl u), .refl u]
  · exact .of_body (fun _ => rfl) fun u => by split; exacts [State.laneDiscardIn_kept (.refl u), .refl u]
  · exact .of_body (fun _ => rfl) fun u => by split; exacts [State.prepareIn_kept (.refl u), .refl u]
  · exact .of_body (fun _ => rfl) fun u => by split; exacts [State.replyIn_kept (.refl u), .refl u]
  · exact .of_body (fun _ => rfl) fun u => by split; exacts [State.replyIn_kept (.refl u), .refl u]
  · exact .of_body (fun _ => rfl) fun u => by split; exacts [State.goIn_kept (.refl u), .refl u]
  · exact .of_body (fun _ => rfl) fun u => by split; exacts [State.abortIn_kept (.refl u), .refl u]
  · exact .of_body (fun _ => rfl) fun u => by split; exacts [State.t0In_kept (.refl u), .refl u]
  · exact .of_body (fun _ => rfl) fun u => by split; exacts [State.tokensIn_kept (.refl u), .refl u]
  · exact .of_body (fun _ => rfl) fun u => by split; exacts [State.fencedIn_kept (.refl u), .refl u]
  · exact .of_body (fun _ => rfl) fun u => by split; exacts [State.stepNoticeIn_kept (.refl u), .refl u]
  · exact .of_body (fun _ => rfl) fun u => by split; exacts [State.silentIn_kept (.refl u), .refl u]
  · exact .of_body (fun _ => rfl) fun u => by split; exacts [State.declareDead_kept (.refl u), .refl u]
  · exact .of_body (fun _ => rfl) fun u => by split; exacts [State.recordIn_kept (.refl u), .refl u]

end

/-! ### What sending leaves of the links -/

/-- From `s` to `t` frames may have left or come to wait on port `p`: no other port has changed, nor what the port has received. -/
structure State.SendsOn (s t : State) (p : Nat) : Prop where
  others : ∀ r, r ≠ p → t.link r = s.link r
  received : (t.link p).rxSeq = (s.link p).rxSeq

namespace State.SendsOn

variable {s t u : State} {p : Nat}

theorem of_links (h : t.links = s.links) : s.SendsOn t p :=
  ⟨fun r _ => congrArg (Table.get Link.reset r) h, congrArg (fun l => (Table.get Link.reset p l).rxSeq) h⟩

theorem trans (h : s.SendsOn t p) (k : t.SendsOn u p) : s.SendsOn u p :=
  ⟨fun r hr => (k.others r hr).trans (h.others r hr), k.received.trans h.received⟩

theorem modLink (s : State) (f : Link → Link) (keeps : ∀ l, (f l).rxSeq = l.rxSeq) : s.SendsOn (s.modLink p f) p :=
  ⟨fun r hr => State.link_modLink_other s f hr, by rw [State.link_modLink_same, keeps]⟩

theorem transmitSeq (s : State) (f : Frame) (o : Option (Nat × Nat)) : s.SendsOn (s.transmitSeq p f o) p := by
  refine trans (t := s.emit (.frame p { f with seq := ((s.link p).txSeq + 1) % 1024, ack := (s.link p).rxSeq })) (of_links rfl) ?_
  exact modLink _ _ fun _ => rfl

theorem drainLink (s : State) (n : Nat) : s.SendsOn (s.drainLink p n) p := by
  induction n generalizing s with
  | zero => exact of_links rfl
  | succ n ih =>
    unfold State.drainLink
    split
    · exact of_links rfl
    · split
      · exact of_links rfl
      · refine trans (trans ?_ (transmitSeq _ _ _)) (ih _)
        exact modLink s _ fun _ => rfl

theorem sendSeq (s : State) (f : Frame) (o : Option (Nat × Nat)) : s.SendsOn (s.sendSeq p f o) p := by
  refine trans ?_ (drainLink _ _)
  exact modLink s _ fun _ => rfl

theorem foldl_sendSeq {α : Type} (s : State) (f : α → Frame) (l : List α) : s.SendsOn (l.foldl (fun (s : State) x => s.sendSeq p (f x)) s) p :=
  List.foldlRecOn (motive := fun t => s.SendsOn t p) _ _ (of_links rfl) fun _ h _ _ => h.trans (sendSeq _ _ _)

theorem sendFragments (s : State) (m : CtrlMsg) : s.SendsOn (s.sendFragments p m) p := by
  unfold State.sendFragments
  dsimp only
  split
  · refine trans ?_ (foldl_sendSeq _ _ _)
    exact of_links rfl
  · refine trans ?_ (foldl_sendSeq _ _ _)
    exact of_links rfl

end State.SendsOn

theorem State.sendFragments_flt (s : State) (p : Nat) (m : CtrlMsg) : (s.sendFragments p m).flt = s.flt := by
  have drain (s : State) (n : Nat) : (s.drainLink p n).flt = s.flt := by
    induction n generalizing s with
    | zero => rfl
    | succ n ih =>
      unfold State.drainLink
      split
      · rfl
      · split
        · rfl
        · exact ih _
  have sends {α : Type} (s : State) (f : α → Frame) (l : List α) : (l.foldl (fun (s : State) x => s.sendSeq p (f x)) s).flt = s.flt :=
    List.foldlRecOn (motive := fun t : State => t.flt = s.flt) _ _ rfl fun t h x _ => (drain _ _).trans h
  unfold State.sendFragments
  dsimp only
  split <;> exact sends _ _ _

/-! ### The ways of a message -/

section
variable {s : State} {p frags : Nat} {m : CtrlMsg} {act : State → State}

/-- The message has been received. -/
def State.took (s : State) (p frags : Nat) : State := s.modLink p fun l => { l with rxSeq := (l.rxSeq + frags) % 1024, nakSent := false }

theorem State.ctrlIn_down (down : s.portUp p = false) : s.ctrlIn p frags m act = s := by
  rw [State.ctrlIn, down]
  rfl

theorem State.ctrlIn_passes {q : Nat} (up : s.portUp p = true) (goes : s.passOn m = some (some q)) :
    s.ctrlIn p frags m act = (s.took p frags).sendFragments q m := by
  have goes' := ((s.modLink_onlySends p fun l => { l with rxSeq := (l.rxSeq + frags) % 1024, nakSent := false }).passOn m).trans goes
  rw [State.ctrlIn, up]
  dsimp only
  rw [goes']
  rfl

/-- A message of an epoch that is not held draws FENCED. -/
theorem State.ctrlIn_fences (up : s.portUp p = true) (here : s.passOn m = none) (assigned : s.assigned = true)
    (other : m.epoch ≠ s.heldEpoch p m.src) (member : s.fromJoiner m.body = false) :
    s.ctrlIn p frags m act =
      (s.took p frags).answerFenced (s.route m.src) m.src m.epoch (Table.get 0 m.src s.flt.serials) := by
  have took : s.onlySends (s.took p frags) := s.modLink_onlySends p _
  have here' := (took.passOn m).trans here
  have assigned' := took.assigned.trans assigned
  have other' : m.epoch ≠ (s.took p frags).heldEpoch p m.src := by rwa [took.heldEpoch]
  have member' : (s.took p frags).fromJoiner m.body = false := member
  have route := took.route m.src
  rw [State.ctrlIn, up]
  dsimp only
  change (match (s.took p frags).passOn m with | some (some q) => _ | some none => _ | none => _) = _
  rw [here']
  refine (if_pos ?_).trans ?_
  · show ((s.took p frags).assigned && m.epoch != (s.took p frags).heldEpoch p m.src && !(s.took p frags).fromJoiner m.body) = true
    rw [assigned', member']
    simpa using other'
  · show (s.took p frags).answerFenced ((s.took p frags).route m.src) _ _ _ = _
    rw [route]
    rfl

/-- A device that answers with FENCED sends it, and notes when. -/
theorem State.answerFenced_keeps (s : State) (port : Option Nat) (dev epoch serial : Nat) :
    ∃ t, s.onlySends t ∧ ((s.answerFenced port dev epoch serial = t) ∨
      s.answerFenced port dev epoch serial = { t with flt := { t.flt with answered := Table.set 0 serial t.now t.flt.answered } }) := by
  unfold State.answerFenced
  dsimp only
  split
  · exact ⟨s, .refl s, .inl rfl⟩
  · exact ⟨_, s.sendPort_onlySends _ _ _, .inr rfl⟩

/-- A device that is assigned, not fenced, and has not answered yet sends FENCED by a port. -/
theorem State.answerFenced_told (s : State) (q dev epoch serial : Nat) (alive : s.flt.dead = false) (assigned : s.assigned = true)
    (member : s.isFenced = false) (first : Table.get 0 serial s.flt.answered = 0) :
    (s.answerFenced (some q) dev epoch serial).told dev (.fenced dev epoch serial) := by
  have answers : (!s.assigned || s.isFenced || (Table.get 0 serial s.flt.answered != 0 &&
      decide (s.now < Table.get 0 serial s.flt.answered + 1000000))) = false := by
    rw [assigned, member, first]
    rfl
  unfold State.answerFenced
  dsimp only
  rw [answers, if_neg Bool.false_ne_true]
  refine ⟨⟨s.self, dev, s.flt.nextMsg, s.get R.GLB_MEMBERSHIP.EPOCH, .fenced dev epoch serial⟩, ?_, rfl, rfl⟩
  show _ ∈ (s.sendPort (some q) dev (.fenced dev epoch serial)).out
  rw [State.sendPort, alive]
  exact State.sendFragments_sends s q _

/-- A message taken is acknowledged to its sender, but for ACK itself. -/
theorem State.arrived_told (s : State) {p : Nat} {m : CtrlMsg} (takes : s.takesMessage p m) (frags : Nat) (acked : acknowledged s.self m.body = true)
    (way : s.get R.GLB_MEMBER_STATE.STATE = 1 → (s.route m.src).isSome = true) : (s.arrived p frags m).told m.src (.ack m.msgId) := by
  have alive := State.dead_of_alive takes.1
  have port : ∃ q, (if s.get R.GLB_MEMBER_STATE.STATE == 1 then s.route m.src else some p) = some q := by
    by_cases member : s.get R.GLB_MEMBER_STATE.STATE = 1
    · obtain ⟨q, hq⟩ := Option.isSome_iff_exists.1 (way member)
      exact ⟨q, by rw [member, ← hq]; rfl⟩
    · exact ⟨p, if_neg (by simpa using member)⟩
  obtain ⟨q, hq⟩ := port
  have unfolded : s.arrived p frags m = if acknowledged s.self m.body then
      (s.took p frags).sendPort (if s.get R.GLB_MEMBER_STATE.STATE == 1 then s.route m.src else some p) m.src (.ack m.msgId)
      else s.took p frags := rfl
  rw [unfolded, acked, if_pos rfl, hq]
  refine ⟨⟨s.self, m.src, s.flt.nextMsg, s.get R.GLB_MEMBERSHIP.EPOCH, .ack m.msgId⟩, ?_, rfl, rfl⟩
  have dead : (s.took p frags).flt.dead = false := alive
  rw [State.sendPort, dead]
  exact State.sendFragments_sends (s.took p frags) q _

end

end Sys2Proof.Machine

open Sys2Proof Sys2Proof.Machine

/-- Settles O47: the branches of `State.ctrlIn`, for every command that brings a message. -/
theorem messagesOnTheWay : Obligations.MessagesOnTheWay := by
  intro s p frags m quiet hp other c hc
  obtain ⟨alive, idle⟩ := quiet
  obtain ⟨act, keeps, runs⟩ := bringers_carry p frags m other c hc
  have ends {t : State} {P : State → Prop} (effect : s.ctrlIn p frags m act = t) (none_open : t.que.tickets = []) (waiting : t.pending = s.pending)
      (h : P t) : Completes c s P := by
    rcases runs s with runs | runs
    · exact completes_whenAlive alive runs effect waiting h
    · exact completes_act alive runs effect none_open waiting h
  refine ⟨fun down => ends (State.ctrlIn_down down) idle rfl rfl, fun q up goes => ?_, fun up here assigned old member => ?_,
    fun takes acked way => ?_⟩
  · have took : s.onlySends (s.took p frags) := s.modLink_onlySends p _
    have sends := took.trans ((s.took p frags).sendFragments_onlySends q m)
    have links := State.SendsOn.sendFragments (p := q) (s.took p frags) m
    have received : ((s.took p frags).link p).rxSeq = ((s.link p).rxSeq + frags) % 1024 := by
      rw [State.took, State.link_modLink_same]
    have flt : ((s.took p frags).sendFragments q m).flt = s.flt := (s.took p frags).sendFragments_flt q m
    refine ends (State.ctrlIn_passes up goes) ((congrArg Que.tickets sends.que).trans idle) sends.pending
      ⟨State.sendFragments_sends _ q m, ?_, fun r hp hq => (links.others r hq).trans (State.link_modLink_other _ _ hp), flt,
        (congrArg State.frw sends :), (congrArg State.cfg sends :), sends.mem, State.get_of_regs sends.regs⟩
    by_cases same : p = q
    · subst same
      exact links.received.trans received
    · rw [links.others p same, received]
  · have took : s.onlySends (s.took p frags) := s.modLink_onlySends p _
    obtain ⟨t, sends, ends_as⟩ := (s.took p frags).answerFenced_keeps (s.route m.src) m.src m.epoch (Table.get 0 m.src s.flt.serials)
    have told (member : s.isFenced = false) (way : (s.route m.src).isSome = true)
        (first : Table.get 0 (Table.get 0 m.src s.flt.serials) s.flt.answered = 0) :
        ((s.took p frags).answerFenced (s.route m.src) m.src m.epoch (Table.get 0 m.src s.flt.serials)).told m.src
          (.fenced m.src m.epoch (Table.get 0 m.src s.flt.serials)) := by
      obtain ⟨q, hq⟩ := Option.isSome_iff_exists.1 way
      rw [hq]
      exact State.answerFenced_told _ q _ _ _ (State.dead_of_alive alive) assigned member first
    have runs := State.ctrlIn_fences (act := act) (frags := frags) up here assigned old member
    generalize (s.took p frags).answerFenced (s.route m.src) m.src m.epoch (Table.get 0 m.src s.flt.serials) = v at *
    have whole := took.trans sends
    have kept : v.frw = s.frw ∧ v.cfg = s.cfg ∧ v.srv = s.srv ∧ v.que = s.que ∧ v.mem = s.mem ∧ v.regs = s.regs ∧ v.pending = s.pending := by
      rcases ends_as with rfl | rfl <;>
        exact ⟨(congrArg State.frw whole :), (congrArg State.cfg whole :), whole.srv, whole.que, whole.mem, whole.regs, whole.pending⟩
    obtain ⟨frw, cfg, srv, que, mem, regs, pending⟩ := kept
    exact ends runs ((congrArg Que.tickets que).trans idle) pending ⟨frw, cfg, srv, que, mem, State.get_of_regs regs, told⟩
  · have act' : s.ctrlIn p frags m act = act (s.arrived p frags m) := State.ctrlIn_taken takes frags act
    have told : (s.arrived p frags m).told m.src (.ack m.msgId) := s.arrived_told takes frags acked way
    obtain ⟨msg, sent, dst, body⟩ := told
    have acts := keeps (s.arrived p frags m)
    have before := (s.arrived_onlySends p frags m).pending
    rcases runs s with runs | runs
    · exact completes_whenAlive alive runs act' (acts.pending.trans before) ⟨msg, acts.out.ctrl_mem sent, dst, body⟩
    · have settles := acts.trans (State.settle_kept (z := act (s.arrived p frags m)) (.refl _))
      exact completes_whenAlive (f := fun s => (s.ctrlIn p frags m act).settle) alive runs (congrArg State.settle act')
        (settles.pending.trans before) ⟨msg, settles.out.ctrl_mem sent, dst, body⟩
end

section
/-! SUPPORT. The host's requests to the memory window (R482 to R487). -/

namespace Sys2Proof.Machine

/-! ### Homes of lines -/

/-- The place of an address depends on the Granaries' sizes and on the ranges of the far tier alone. -/
theorem State.place_of_far {s t : State} (size : ∀ n, t.get (R.TSTORE_GRANARY.SIZE n) = s.get (R.TSTORE_GRANARY.SIZE n))
    (far : t.cxl.far = s.cxl.far) : t.place = s.place := by
  funext a
  have range : t.farRange a = s.farRange a := by rw [State.farRange, far, State.farRange]
  unfold State.place State.granaryBytes
  dsimp only
  rw [range, size]

theorem State.stackOf_of_place {s : State} {a n : Nat} (h : s.place a = .stack n) : stackOf a = n := by
  unfold State.place at h
  dsimp only at h
  split_ifs at h
  case pos => cases h; rfl
  case neg => split at h <;> cases h

/-- The home of a line depends on its place, on the Granaries' sizes and on the regions' modes alone. -/
theorem State.cacheHome_congr {s t : State} (place : t.place = s.place)
    (size : ∀ n, t.get (R.TSTORE_GRANARY.SIZE n) = s.get (R.TSTORE_GRANARY.SIZE n))
    (mode : ∀ n < 16, t.get (R.STACK_REGION_MODE.UNIT_LOCAL n) = s.get (R.STACK_REGION_MODE.UNIT_LOCAL n)) (a : Nat) :
    t.cacheHome a = s.cacheHome a := by
  unfold State.cacheHome State.home
  rw [place]
  cases there : s.place a
  case stack n =>
    have lt : stackOf a < 16 := by rw [State.stackOf_of_place there]; exact State.stack_lt there
    simp only [size, State.unitLocal, mode _ lt]
    rfl
  all_goals simp only [size]

/-- What cannot be cached passes the Granaries. -/
theorem State.passLine_uncached {s : State} {line : Nat} (h : s.cacheHome line = none) (write : Bool) : s.passLine line write = s := by
  rw [State.passLine, h]

/-! ### A host's request at its stack -/

/-- Credits and the host's longest wait at a stack are all that has changed. -/
structure State.Heard (s t : State) (n : Nat) : Prop where
  mem : t.mem = s.mem
  poison : t.poison = s.poison
  out : t.out = s.out
  pending : t.pending = s.pending
  far : t.cxl.far = s.cxl.far
  others : s.sameRegs t [R.STACK_ARB_COUNTS.HOST_WAIT_MAX_NS n]

theorem State.Heard.get {s t : State} {n : Nat} (h : s.Heard t n) {f : Field} (apart : f.key ≠ (R.STACK_ARB_COUNTS.HOST_WAIT_MAX_NS n).key) :
    t.get f = s.get f :=
  h.others f fun _ hg => List.mem_singleton.1 hg ▸ apart

theorem State.Heard.guarded {s t : State} {n : Nat} (h : s.Heard t n) (hn : n < 16) : s.Guarded t where
  mem := h.mem
  place := State.place_of_far
    (fun _ => h.get (by simp only [Field.key, R.TSTORE_GRANARY.SIZE, R.STACK_ARB_COUNTS.HOST_WAIT_MAX_NS]; omega)) h.far
  prot := h.get (by simp only [Field.key, R.SEC_PROT.PARTITIONS, R.STACK_ARB_COUNTS.HOST_WAIT_MAX_NS]; omega)
  opened _ _ := h.get (by simp only [Field.key, R.SEC_OPEN.REGIONS, R.STACK_ARB_COUNTS.HOST_WAIT_MAX_NS]; omega)

theorem State.Heard.cacheHome {s t : State} {n : Nat} (h : s.Heard t n) (hn : n < 16) (a : Nat) : t.cacheHome a = s.cacheHome a :=
  State.cacheHome_congr (h.guarded hn).place
    (fun _ => h.get (by simp only [Field.key, R.TSTORE_GRANARY.SIZE, R.STACK_ARB_COUNTS.HOST_WAIT_MAX_NS]; omega))
    (fun _ _ => h.get (by simp only [Field.key, R.STACK_REGION_MODE.UNIT_LOCAL, R.STACK_ARB_COUNTS.HOST_WAIT_MAX_NS]; omega)) a

/-- The state in which a stack performs a host's request that did not wait. -/
def State.awaited (s : State) (data : Bool) (n : Nat) : State :=
  let s := s.takeCredit data
  s.put (R.STACK_ARB_COUNTS.HOST_WAIT_MAX_NS n) (max (s.get (R.STACK_ARB_COUNTS.HOST_WAIT_MAX_NS n)) (min 0xFFFF (s.now - s.now)))

theorem State.heard_awaited (s : State) (data : Bool) (n : Nat) : s.Heard (s.awaited data n) n := by
  have far : (s.takeCredit data).cxl.far = s.cxl.far := by unfold State.takeCredit; split <;> rfl
  exact ⟨rfl, rfl, rfl, rfl, far, fun f other =>
    (State.get_put_other (s.takeCredit data) _ (other _ (.head _))).trans (State.get_of_regs rfl f)⟩

theorem State.Heard.returnCredit {s t : State} {n : Nat} (h : s.Heard t n) (data : Bool) : s.Heard (t.returnCredit data) n := by
  have far : (t.returnCredit data).cxl.far = t.cxl.far := by unfold State.returnCredit; dsimp only; split <;> rfl
  exact ⟨h.mem, h.poison, h.out, h.pending, far.trans h.far, fun f other => (State.get_of_regs rfl f).trans (h.others f other)⟩

/-- Counting a completed request changes registers alone. -/
theorem State.memServed_keeps (s : State) (write : Bool) (arrived : Nat) :
    (s.memServed write arrived).mem = s.mem ∧ (s.memServed write arrived).poison = s.poison ∧
      (s.memServed write arrived).out = s.out ∧ (s.memServed write arrived).pending = s.pending := by
  unfold State.memServed
  dsimp only
  split <;> exact ⟨rfl, rfl, rfl, rfl⟩

/-- A request for a line that no Granary holds, at a stack that is free, is performed at once. -/
theorem State.windowAccess_performed {s u : State} {tag offset line : Nat} {op : StackOp} (at_line : line = 0x1000000000 + offset / 64 * 64)
    (reaches : s.hostReaches = true) (credit : s.creditFree op.carries = true) (serves : s.windowServes = true)
    (inside : offset < 0xC000000000) (taken : s.takeCredit op.carries = u) (uncached : u.cacheHome line = none)
    (free : u.pcFree (stackOf line) (u.pcOf line) = true) :
    s.windowAccess tag offset op [] = u.perform (stackOf line) (u.pcOf line) ⟨line, op, [], u.now⟩ := by
  rw [State.windowAccess, reaches, credit, serves]
  dsimp only
  rw [← at_line, taken, if_neg (by decide), if_neg (by simpa using inside), uncached]
  dsimp only
  rw [if_neg Bool.false_ne_true, State.stackArrive]
  dsimp only
  rw [if_pos free]

theorem State.decodeWord_none (s : State) (n pc addr : Nat) : s.decodeWord n pc addr [] = s := rfl

/-- A read that protection lets pass answers the line and stores nothing. -/
theorem State.Heard.hostRead {s v : State} {line tag n pc now : Nat} {op : StackOp} (heard : s.Heard v n) (hn : n < 16)
    (uncached : s.cacheHome line = none) (open_to : s.violated none line = none) :
    let t := v.hostRead n pc line tag ⟨line, op, [], now⟩
    t.mem = s.mem ∧ t.poison = s.poison ∧ t.out = s.out ++ [.memData tag (s.read line 64) (s.poisoned line 64)] ∧
      t.pending = s.pending := by
  have after := heard.returnCredit false
  have told : v.hostRead n pc line tag ⟨line, op, [], now⟩ =
      ((v.returnCredit false).memServed false now).emit
        (.memData tag (((v.returnCredit false).memServed false now).read line 64)
          (((v.returnCredit false).memServed false now).poisoned line 64)) := by
    rw [State.hostRead, (after.guarded hn).violated, open_to]
    dsimp only
    rw [State.decodeWord_none, State.passLine_uncached ((after.cacheHome hn line).trans uncached)]
  obtain ⟨mem, poison, out, pending⟩ := (v.returnCredit false).memServed_keeps false now
  dsimp only
  rw [told]
  generalize (v.returnCredit false).memServed false now = w at *
  refine ⟨mem.trans after.mem, poison.trans after.poison, ?_, pending.trans after.pending⟩
  change w.out ++ _ = _
  rw [out, after.out, State.read_of_mem (mem.trans after.mem), State.poisoned, poison, after.poison, State.poisoned]

/-- A write that protection lets pass stores as `writeLine` does, and completes. -/
theorem State.Heard.hostWrite {s v : State} {line tag n now en : Nat} {bs : Bytes} (heard : s.Heard v n) (hn : n < 16)
    (uncached : s.cacheHome line = none) (open_to : s.violated none line = none) :
    let t := (v.hostWriteLine line bs en).writeServed tag now
    t.mem = (v.writeLine line bs en).mem ∧ t.out = s.out ++ [.memDone tag] ∧ t.pending = s.pending := by
  have kept : (v.writeLine line bs en).out = v.out ∧ (v.writeLine line bs en).pending = v.pending ∧
      (v.writeLine line bs en).cxl = v.cxl ∧ (v.writeLine line bs en).regs = v.regs := by
    unfold State.writeLine
    dsimp only
    split <;> exact ⟨rfl, rfl, rfl, rfl⟩
  obtain ⟨out, pending, cxl, regs⟩ := kept
  have still : (v.writeLine line bs en).cacheHome line = none :=
    (State.cacheHome_congr (State.place_of_same (fun _ => State.get_of_regs regs _) cxl) (fun _ => State.get_of_regs regs _)
      (fun _ _ => State.get_of_regs regs _) line).trans ((heard.cacheHome hn line).trans uncached)
  have stored : v.hostWriteLine line bs en = v.writeLine line bs en := by
    rw [State.hostWriteLine, (heard.guarded hn).violated, open_to]
    exact State.passLine_uncached still true
  dsimp only
  rw [stored]
  generalize v.writeLine line bs en = w at *
  obtain ⟨mem', -, out', pending'⟩ := (w.returnCredit true).memServed_keeps true now
  rw [State.writeServed]
  generalize (w.returnCredit true).memServed true now = x at *
  refine ⟨mem', ?_, pending'.trans (pending.trans heard.pending)⟩
  change x.out ++ _ = _
  rw [out']
  change w.out ++ _ = _
  rw [out, heard.out]

/-! ### Lines written in part -/

theorem length_merge64 (old new : Bytes) (enable : Nat) (whole : old.length = 64) : (merge64 old new enable).length = 64 := by
  simp [merge64, whole]

theorem merge64_getD (old new : Bytes) (enable i : Nat) (whole : old.length = 64) (inside : i < 64) :
    (merge64 old new enable).getD i 0 = if bit enable i then new.getD i 0 else old.getD i 0 := by
  simp [merge64, whole, inside]

theorem State.read_getD (s : State) (a n i : Nat) (inside : i < n) : (s.read a n).getD i 0 = s.byte (a + i) := by
  induction n generalizing a i with
  | zero => omega
  | succ n ih =>
    cases i with
    | zero => rfl
    | succ i =>
      rw [State.read, List.getD_cons_succ, ih (a + 1) i (by omega)]
      congr 1
      omega

/-- A range holds the bytes that its addresses hold. -/
theorem State.read_eq {s : State} {a n : Nat} {bs : Bytes} (whole : bs.length = n) (h : ∀ i < n, s.byte (a + i) = bs.getD i 0) :
    s.read a n = bs := by
  refine List.ext_getElem ((s.length_read a n).trans whole.symm) fun i hi hj => ?_
  have inside : i < n := by rwa [s.length_read] at hi
  have left := s.read_getD a n i inside
  rw [List.getD_eq_getElem _ _ hi] at left
  rw [left, h i inside, List.getD_eq_getElem _ _ hj]

theorem fit_of_length {n : Nat} {bs : Bytes} (whole : bs.length = n) : fit n bs = bs := by
  simp [fit, ← whole]

/-- A write to a line that is not poisoned replaces the bytes enabled. -/
theorem State.writeLine_byte {s : State} {line : Nat} (clean : s.poisoned line 64 = false) (bs : Bytes) (enable : Nat) :
    (∀ i, i < 64 → (s.writeLine line bs enable).byte (line + i) = if bit enable i then bs.getD i 0 else s.byte (line + i)) ∧
      (∀ a, ¬ (line ≤ a ∧ a < line + 64) → (s.writeLine line bs enable).byte a = s.byte a) := by
  have length := length_merge64 (s.read line 64) bs enable (s.length_read line 64)
  have written : s.writeLine line bs enable = s.write line (merge64 (s.read line 64) bs enable) := by
    rw [State.writeLine, clean]
    rfl
  rw [written]
  refine ⟨fun i hi => ?_, fun a outside => State.byte_write_outside _ _ _ _ (by rwa [length])⟩
  rw [State.byte_write, if_pos (by omega), Nat.add_sub_cancel_left, merge64_getD _ _ _ _ (s.length_read line 64) hi,
    State.read_getD _ _ _ _ hi]

theorem completes_window {s t : State} {i : Instr} {tag offset : Nat} {op : StackOp} {P : State → Prop} (alive : s.alive = true)
    (runs : exec i s = s.whenAlive fun s => s.windowAccess tag offset op []) (effect : s.windowAccess tag offset op [] = t)
    (waiting : t.pending = s.pending) (h : P t) : Completes i s P :=
  completes_whenAlive (f := fun s => s.windowAccess tag offset op []) alive runs effect waiting h

end Sys2Proof.Machine

open Sys2Proof Sys2Proof.Machine

/-- Settles O55: requests beyond the window or without memory are unsupported; a line that no Granary holds, in a
stack that is free, is read or written at once. -/
theorem memoryWindow : Obligations.MemoryWindow := by
  intro s tag offset enable data alive req rwd line
  have reqFree : s.creditFree false = true := decide_eq_true req
  have rwdFree : s.creditFree true = true := decide_eq_true rwd
  have reads {P : State → Prop} {t : State} (runs : s.windowAccess tag offset (.hostRead tag) [] = t) (waits : t.pending = s.pending)
      (h : P t) : ∀ c ∈ [Instr.memrd tag offset [], .memrddata tag offset []], Completes c s P := by
    intro c hc
    fin_cases hc <;> exact completes_window alive rfl runs waits h
  have alike {P : State → Prop} {t : State} (runs : ∀ op, s.creditFree op.carries = true → s.windowAccess tag offset op [] = t)
      (waits : t.pending = s.pending) (h : P t) : ∀ c ∈ [Instr.memrd tag offset [], .memrddata tag offset [], .memwr tag offset data,
        .memwrptl tag offset data enable], Completes c s P := by
    intro c hc
    fin_cases hc
    · exact completes_window alive rfl (runs (.hostRead tag) reqFree) waits h
    · exact completes_window alive rfl (runs (.hostRead tag) reqFree) waits h
    · exact completes_window alive rfl (runs (.hostWrite tag data (2 ^ 64 - 1)) rwdFree) waits h
    · exact completes_window alive rfl (runs (.hostWrite tag data enable) rwdFree) waits h
  refine ⟨fun away => ?_, fun reaches => ⟨?_, ?_, fun unserved => ?_, fun serves inside uncached free open_to => ?_⟩⟩
  · have ignored : ∀ op, s.creditFree op.carries = true → s.windowAccess tag offset op [] = s := fun op _ => by
      rw [State.windowAccess, away]
      rfl
    have others : ∀ c ∈ [Instr.m2sUnsupported tag, .h2dSnoop offset], Completes c s fun t => t = s := by
      intro c hc
      fin_cases hc <;> exact completes_whenAlive (t := s) alive rfl (if_neg (by rw [away]; exact Bool.false_ne_true)) rfl rfl
    intro c hc
    have cases : c ∈ [Instr.memrd tag offset [], .memrddata tag offset [], .memwr tag offset data, .memwrptl tag offset data enable] ∨
        c ∈ [Instr.m2sUnsupported tag, .h2dSnoop offset] := List.mem_append.1 hc
    exact cases.elim (alike (P := fun t => t = s) ignored rfl rfl c) (others c)
  · exact completes_whenAlive alive rfl (if_pos reaches) rfl rfl
  · exact completes_whenAlive alive rfl (if_pos reaches) rfl rfl
  · refine alike (t := s.emit (.memUnsupported tag)) (P := fun t => t = s.emit (.memUnsupported tag)) (fun op credit => ?_) rfl rfl
    rw [State.windowAccess, reaches, credit]
    have refused : (!s.windowServes || decide (0xC000000000 ≤ offset)) = true := by
      rcases unserved with no | far
      · rw [no]
        rfl
      · rw [decide_eq_true far, Bool.or_true]
    exact (if_neg (by decide)).trans (if_pos refused)
  · have hn : stackOf line < 16 := by simp only [stackOf, line]; omega
    have aligned : line / 64 * 64 = line := by omega
    have credited (data : Bool) : (s.takeCredit data).cacheHome line = none ∧
        (s.takeCredit data).pcFree (stackOf line) ((s.takeCredit data).pcOf line) = true := ⟨by
      have far : (s.takeCredit data).cxl.far = s.cxl.far := by cases data <;> rfl
      exact (State.cacheHome_congr (s := s) (t := s.takeCredit data) (State.place_of_far (fun _ => State.get_of_regs rfl _) far) (fun _ => State.get_of_regs rfl _)
        (fun _ _ => State.get_of_regs rfl _) line).trans uncached, free⟩
    have performed (op : StackOp) (credit : s.creditFree op.carries = true) := State.windowAccess_performed (op := op) (tag := tag) (offset := offset) rfl reaches
      credit serves inside rfl (credited op.carries).1 (credited op.carries).2
    have heard (data : Bool) := s.heard_awaited data (stackOf line)
    have written (en : Nat) : s.windowAccess tag offset (.hostWrite tag data en) [] =
        ((s.awaited true (stackOf line)).hostWriteLine line (fit 64 data) en).writeServed tag s.now := by
      rw [performed (.hostWrite tag data en) rwdFree, State.perform]
      dsimp only
      rw [aligned]
      rfl
    refine ⟨?_, fun whole clean => ?_⟩
    · have read : s.windowAccess tag offset (.hostRead tag) [] =
          (s.awaited false (stackOf line)).hostRead (stackOf line) (s.pcOf line) line tag ⟨line, .hostRead tag, [], s.now⟩ := by
        rw [performed (.hostRead tag) reqFree, State.perform]
        dsimp only
        rw [aligned]
        rfl
      obtain ⟨mem, poison, out, waits⟩ := (heard false).hostRead (line := line) (tag := tag) (pc := s.pcOf line) (now := s.now)
        (op := .hostRead tag) hn uncached open_to
      exact reads read waits ⟨mem, poison, out⟩
    · have stored (en : Nat) := (heard true).hostWrite (tag := tag) (now := s.now) (en := en) (bs := fit 64 data) hn uncached open_to
      have stillClean : (s.awaited true (stackOf line)).poisoned line 64 = false := clean
      have bytes (en : Nat) := State.writeLine_byte stillClean (fit 64 data) en
      have filled : fit 64 data = data := fit_of_length whole
      have outside (en a : Nat) (h : ¬ (line ≤ a ∧ a < line + 64)) :
          (((s.awaited true (stackOf line)).hostWriteLine line (fit 64 data) en).writeServed tag s.now).byte a = s.byte a :=
        (congrArg (Table.get 0 a) (stored en).1).trans ((bytes en).2 a h)
      refine ⟨?_, ?_⟩
      · refine completes_window alive rfl (written (2 ^ 64 - 1)) (stored _).2.2 ⟨State.read_eq whole fun i hi => ?_, outside _, (stored _).2.1⟩
        refine (congrArg (Table.get 0 (line + i)) (stored (2 ^ 64 - 1)).1).trans (((bytes (2 ^ 64 - 1)).1 i hi).trans ?_)
        rw [filled, if_pos (by rw [bit_eq_testBit, Nat.testBit_two_pow_sub_one]; exact decide_eq_true hi)]
      · refine completes_window alive rfl (written enable) (stored _).2.2 ⟨fun i hi => ?_, outside _, (stored _).2.1⟩
        refine (congrArg (Table.get 0 (line + i)) (stored enable).1).trans (((bytes enable).1 i hi).trans ?_)
        rw [filled]
        rfl
end

section
/-! SUPPORT. Stack controllers: words, poison, refresh balances (R400 to R409). -/

namespace Sys2Proof.Machine

/-! ### Memory -/

theorem Table.get_filter {α : Type} (d : α) (k : Nat) (p : Nat → Bool) (t : Table α) :
    Table.get d k (t.filter fun e => p e.1) = if p k then Table.get d k t else d := by
  induction t with
  | nil => simp
  | cons e t ih =>
    obtain ⟨j, v⟩ := e
    by_cases same : j = k
    · subst same
      by_cases kept : p j = true
      · rw [List.filter_cons_of_pos (by exact kept), if_pos kept, Table.get_cons, Table.get_cons]
        simp
      · rw [List.filter_cons_of_neg (by exact kept), ih, if_neg kept, if_neg kept]
    · have skip (u : Table α) : Table.get d k ((j, v) :: u) = Table.get d k u := by rw [Table.get_cons]; exact if_neg same
      rw [List.filter_cons]
      split
      · rw [skip, skip, ih]
      · rw [skip, ih]

/-- Zeroing a range leaves zeros in it, and nothing else changes. -/
theorem State.byte_zero (s : State) (a n b : Nat) : (s.zero a n).byte b = if a ≤ b ∧ b < a + n then 0 else s.byte b := by
  refine (Table.get_filter 0 b (fun k => decide (¬ (a ≤ k ∧ k < a + n))) s.mem).trans ?_
  by_cases inside : a ≤ b ∧ b < a + n
  · rw [if_pos inside, if_neg (by simp [inside])]
  · rw [if_neg inside, if_pos (by exact decide_eq_true inside)]
    rfl

theorem Table.self_mem_insert {α : Type} (k : Nat) (v : α) (t : Table α) : (k, v) ∈ Table.insert k v t := by
  induction t with
  | nil => exact .head _
  | cons e t ih =>
    unfold Table.insert
    split_ifs
    · exact .head _
    · exact .head _
    · exact .tail _ ih

/-- Poisoning the line of an address poisons it. -/
theorem State.poisoned_poisonRange (s : State) {line : Nat} (aligned : line % 64 = 0) : (s.poisonRange line 64).poisoned line 64 = true := by
  have lanes : ceilDiv (line % 64 + 64) 64 * 8 = 7 + 1 := by rw [aligned]; rfl
  rw [State.poisoned, State.poisonRange]
  dsimp only
  rw [lanes, List.range_succ, List.foldl_append, List.any_eq_true]
  refine ⟨_, Table.self_mem_insert _ _ _, decide_eq_true ?_⟩
  dsimp only
  omega

/-- A line written whole is not poisoned. -/
theorem State.write_whole_clean (s : State) {line : Nat} {bs : Bytes} (aligned : line % 64 = 0) (whole : bs.length = 64) :
    (s.write line bs).poisoned line 64 = false := by
  rw [State.poisoned, State.write, List.any_eq_false]
  intro e he
  have kept := (List.mem_filter.1 he).2
  simp only [replacesLane, whole, Bool.not_eq_true'] at kept
  simp only [decide_eq_true_eq]
  split at kept <;> simp only [decide_eq_false_iff_not] at kept <;> omega

/-- Every enable bit set: the line takes the new bytes. -/
theorem State.writeLine_whole (s : State) (line : Nat) {bs : Bytes} (whole : bs.length = 64) :
    s.writeLine line bs (2 ^ 64 - 1) = s.write line bs := by
  have merged : merge64 (s.read line 64) bs (2 ^ 64 - 1) = bs := by
    have length := length_merge64 (s.read line 64) bs (2 ^ 64 - 1) (s.length_read line 64)
    refine List.ext_getElem (length.trans whole.symm) fun i hi hj => ?_
    have inside : i < 64 := by omega
    have all : bit (2 ^ 64 - 1) i = true := by
      rw [bit_eq_testBit, Nat.testBit_two_pow_sub_one]
      exact decide_eq_true inside
    have left := merge64_getD (s.read line 64) bs (2 ^ 64 - 1) i (s.length_read line 64) inside
    rwa [if_pos all, List.getD_eq_getElem _ _ hi, List.getD_eq_getElem _ _ hj] at left
  rw [State.writeLine, merged]
  exact if_neg (by simp)

/-- A block's write of a whole line. -/
theorem State.perform_write (s : State) (n pc addr at_ : Nat) {b : Bytes} (whole : b.length = 64) :
    s.perform n pc ⟨addr, .write b, [], at_⟩ = s.write (addr / 64 * 64) b := by
  rw [State.perform]
  dsimp only
  rw [fit_of_length whole, ← s.writeLine_whole _ whole]
  rfl

@[simp] theorem State.stack_modStack (s : State) (n : Nat) (f : Stack → Stack) : (s.modStack n f).stack n = f (s.stack n) :=
  Table.get_set_same _ _ _ _

@[simp] theorem State.stack_put (s : State) (f : Field) (v n : Nat) : (s.put f v).stack n = s.stack n := rfl

/-! ### What a stack controller reports -/

/-- What has been seen stays seen. -/
theorem State.raise_still_seen {s : State} {k : Nat} (e : Event) (hk : k < 8) (h : bit (s.get R.GLB_ERR_SUMMARY.SEEN) k = true) :
    bit ((s.raise e).get R.GLB_ERR_SUMMARY.SEEN) k = true := by
  rw [(s.raise_shows e).1]
  rw [bit_eq_testBit] at h ⊢
  rw [Nat.testBit_mod_two_pow, Nat.testBit_or, h]
  simp [hk]

/-- A register of the stack controllers is none of the error log's. -/
theorem notError_of_stack {f : Field} (high : 0x2000000 * 64 ≤ f.key) : ∀ g ∈ errorFields, f.key ≠ g.key := by
  have below : ∀ g ∈ errorFields, g.key < 0x2000000 * 64 := by decide
  intro g hg
  have := below g hg
  omega

theorem State.Raises.fatalParts {s t : State} (h : s.Raises t) : t.flt.fatalParts = s.flt.fatalParts :=
  (congrArg (fun u : State => u.flt.fatalParts) h.eq :)

/-- Losing a pseudo-channel is an event and a mark on its partition: all else stays. -/
theorem State.channelLost_keeps (s : State) (n pc : Nat) :
    (s.channelLost n pc).mem = s.mem ∧ (s.channelLost n pc).poison = s.poison ∧
      (∀ f : Field, (∀ g ∈ errorFields, f.key ≠ g.key) → (s.channelLost n pc).get f = s.get f) ∧
      ∀ k < 8, bit (s.get R.GLB_ERR_SUMMARY.SEEN) k = true → bit ((s.channelLost n pc).get R.GLB_ERR_SUMMARY.SEEN) k = true := by
  unfold State.channelLost
  dsimp only
  split
  · exact ⟨rfl, rfl, fun _ _ => rfl, fun _ _ h => h⟩
  · have raised := State.Raises.raise s (evStackChannelLost n pc
      ((Table.get [] pc (s.stack n).recent).filter fun t => decide (s.now < t + 1000000)).length)
    refine ⟨raised.mem, raised.poison, fun f hf => (State.get_of_regs rfl f).trans (raised.get hf), fun k hk h => ?_⟩
    exact (congrArg (bit · k) (State.get_of_regs rfl _)).trans (s.raise_still_seen _ hk h)

/-- A word that cannot be corrected: its line is zeroed and poisoned, counted, and the first is recorded. -/
def State.wordLost (s : State) (n pc line : Nat) : State :=
  let s := (s.zero line 64).poisonRange line 64
  let s := (s.bump (R.STACK_ECC_COUNTS.UNCORRECTABLE n)).raise (evLatentPoison n pc line)
  if s.isSet (R.STACK_ECC_FAULT.VALID n) then s
  else ((s.put (R.STACK_ECC_FAULT.ADDR n) line).putBit (R.STACK_ECC_FAULT.VALID n) true).put (R.STACK_ECC_FAULT.PC n) pc

/-- The time of a word lost is kept for 1 ms (R579). -/
def State.countLost (s : State) (n pc : Nat) : State :=
  s.modStack n fun k => { k with recent := Table.modify [] pc (fun l => (l.filter fun t => decide (s.now < t + 1000000)) ++ [s.now]) k.recent }

theorem State.decodeWord_lost {s : State} {n pc addr : Nat} {y : List Nat} (some_ : y ≠ []) (lost : (s.stack n).corrects pc y = false) :
    s.decodeWord n pc addr y = ((s.wordLost n pc (addr / 64 * 64)).countLost n pc).channelLost n pc := by
  have some' : y.isEmpty = false := by simpa using some_
  rw [State.decodeWord, some', lost]
  dsimp only
  rw [if_neg Bool.false_ne_true, if_neg Bool.false_ne_true]
  rfl

theorem State.wordLost_shows (s : State) {n pc line : Nat} (hn : n < 16) (hpc : pc < 64) (aligned : line % 64 = 0) :
    let t := s.wordLost n pc line
    t.poisoned line 64 = true ∧ (∀ x, ¬ (line ≤ x ∧ x < line + 64) → t.byte x = s.byte x) ∧
      bit (t.get R.GLB_ERR_SUMMARY.SEEN) 1 = true ∧
      (s.isSet (R.STACK_ECC_FAULT.VALID n) = false → t.isSet (R.STACK_ECC_FAULT.VALID n) = true ∧ t.get (R.STACK_ECC_FAULT.PC n) = pc) := by
  set u := ((s.zero line 64).poisonRange line 64).bump (R.STACK_ECC_COUNTS.UNCORRECTABLE n) with hu
  set v := u.raise (evLatentPoison n pc line) with hv
  have raised : u.Raises v := State.Raises.raise _ _
  have poisoned : v.poisoned line 64 = true := by
    rw [State.poisoned, raised.poison]
    exact (s.zero line 64).poisoned_poisonRange aligned
  have bytes (x : Nat) (outside : ¬ (line ≤ x ∧ x < line + 64)) : v.byte x = s.byte x :=
    (congrArg (Table.get 0 x) raised.mem).trans ((s.byte_zero line 64 x).trans (if_neg outside))
  have seen : bit (v.get R.GLB_ERR_SUMMARY.SEEN) 1 = true := u.raise_seen (evLatentPoison n pc line) (show 2 - 1 < 8 by decide)
  have valid : v.isSet (R.STACK_ECC_FAULT.VALID n) = s.isSet (R.STACK_ECC_FAULT.VALID n) := by
    refine (raised.isSet (notError_of_stack (by simp only [Field.key, R.STACK_ECC_FAULT.VALID]; omega))).trans ?_
    refine (State.isSet_put_other _ _ (by simp only [Field.key, R.STACK_ECC_FAULT.VALID, R.STACK_ECC_COUNTS.UNCORRECTABLE]; omega)).trans ?_
    exact State.isSet_of_regs rfl _
  have shape : s.wordLost n pc line = if v.isSet (R.STACK_ECC_FAULT.VALID n) then v
      else ((v.put (R.STACK_ECC_FAULT.ADDR n) line).putBit (R.STACK_ECC_FAULT.VALID n) true).put (R.STACK_ECC_FAULT.PC n) pc := rfl
  clear_value v u
  dsimp only
  rw [shape]
  split
  · next was => exact ⟨poisoned, bytes, seen, fun no => absurd (valid.symm.trans was) (by simp [no])⟩
  · refine ⟨poisoned, bytes, ?_, fun _ => ⟨?_, ?_⟩⟩
    · rw [State.get_put_other _ _ (by simp only [Field.key, R.STACK_ECC_FAULT.PC, R.GLB_ERR_SUMMARY.SEEN]; omega), State.putBit,
        State.get_put_other _ _ (by simp only [Field.key, R.STACK_ECC_FAULT.VALID, R.GLB_ERR_SUMMARY.SEEN]; omega),
        State.get_put_other _ _ (by simp only [Field.key, R.STACK_ECC_FAULT.ADDR, R.GLB_ERR_SUMMARY.SEEN]; omega)]
      exact seen
    · rw [State.isSet_put_other _ _ (by simp only [Field.key, R.STACK_ECC_FAULT.PC, R.STACK_ECC_FAULT.VALID]; omega)]
      exact State.isSet_putBit Nat.one_pos true
    · exact State.get_put_fits _ _ (by simpa [R.STACK_ECC_FAULT.PC] using hpc)

/-! ### Atom boundaries and refreshes -/

/-- A boundary outside the schedule, with no refresh owed, performs the one write that waits. -/
theorem State.boundary_write {s : State} {n pc addr at_ : Nat} {b : Bytes} (serves : s.stackServes n = true) (out_of : s.inSchedule = false)
    (owed : 0 ≤ (s.stack n).bal pc) (whole : b.length = 64)
    (waits : Table.get [] pc (s.stack n).queue = [(⟨addr, .write b, [], at_⟩ : StackAcc)]) :
    s.boundary n pc = (((s.modStack n fun k => { k with inAtom := k.inAtom.filter fun x => x != pc }).modStack n fun k =>
      { k with queue := Table.set [] pc [] k.queue }).bump (R.STACK_ARB_COUNTS.HOST_DEFERRED n) 0).write (addr / 64 * 64) b := by
  have left := s.stack_modStack n fun k => { k with inAtom := k.inAtom.filter fun x => x != pc }
  have regs : (s.modStack n fun k => { k with inAtom := k.inAtom.filter fun x => x != pc }).frwState = s.frwState := State.get_of_regs rfl _
  have flt : (s.modStack n fun k => { k with inAtom := k.inAtom.filter fun x => x != pc }).flt = s.flt := rfl
  rw [State.boundary]
  generalize (s.modStack n fun k => { k with inAtom := k.inAtom.filter fun x => x != pc }) = u at *
  have serves' : u.stackServes n = true := by rw [← serves, State.stackServes, left, flt, State.stackServes]
  have rests : u.refreshes n pc = u := by
    have out_of' : u.postpones n = false := by
      rw [State.postpones, State.inSchedule, regs]
      rw [State.inSchedule] at out_of
      rw [out_of, Bool.false_and]
    have none_owed : ¬ (u.stack n).bal pc < 0 := by
      rw [left]
      exact Int.not_lt.2 owed
    rw [State.refreshes, out_of']
    exact (if_pos rfl).trans (if_neg none_owed)
  have queue : Table.get [] pc (u.stack n).queue = [(⟨addr, .write b, [], at_⟩ : StackAcc)] := by rw [left]; exact waits
  rw [if_pos serves', rests, State.servePc, queue]
  exact State.perform_write _ n pc addr at_ whole

@[simp] theorem State.bal_setBal (s : State) (n pc : Nat) (b : Int) : ((s.setBal n pc b).stack n).bal pc = b := by
  rw [State.setBal, State.stack_modStack]
  exact Table.get_set_same _ _ _ _

/-- A refresh a pseudo-channel makes is no longer forced. -/
def State.unforce (s : State) (n pc : Nat) : State := s.modStack n fun k => { k with forced := k.forced.filter fun x => x != pc }

/-- A refresh that a pseudo-channel owes beyond the limit is forced. -/
def State.force (s : State) (n pc : Nat) : State :=
  s.modStack n fun k => { k with forced := if k.forced.contains pc then k.forced else k.forced ++ [pc] }

/-- From `s` to `t` the balances and forced refreshes of one stack alone may differ. -/
structure State.Rebalances (s t : State) (n : Nat) : Prop where
  eq : t = { s with stk := t.stk }
  inAtom : (t.stack n).inAtom = (s.stack n).inAtom

namespace State.Rebalances

variable {s t : State} {n : Nat}

theorem setBal (h : s.Rebalances t n) (pc : Nat) (b : Int) : s.Rebalances (t.setBal n pc b) n :=
  ⟨by rw [h.eq]; rfl, (congrArg Stack.inAtom (t.stack_modStack n _)).trans h.inAtom⟩

theorem force (h : s.Rebalances t n) (pc : Nat) : s.Rebalances (t.force n pc) n :=
  ⟨by rw [h.eq]; rfl, (congrArg Stack.inAtom (t.stack_modStack n _)).trans h.inAtom⟩

theorem unforce (h : s.Rebalances t n) (pc : Nat) : s.Rebalances (t.unforce n pc) n :=
  ⟨by rw [h.eq]; rfl, (congrArg Stack.inAtom (t.stack_modStack n _)).trans h.inAtom⟩

theorem refl (s : State) (n : Nat) : s.Rebalances s n := ⟨rfl, rfl⟩

theorem regs (h : s.Rebalances t n) : t.regs = s.regs := (congrArg State.regs h.eq :)
theorem pending (h : s.Rebalances t n) : t.pending = s.pending := (congrArg State.pending h.eq :)
theorem postpones (h : s.Rebalances t n) : t.postpones n = s.postpones n := by rw [h.eq]; rfl
theorem catchUp (h : s.Rebalances t n) : t.catchUp n = s.catchUp n := by rw [h.eq]; rfl

theorem leaves (h : s.Rebalances t n) : s.leaves t [] :=
  ⟨(congrArg State.mem h.eq :), (congrArg State.out h.eq :), fun f _ => State.get_of_regs h.regs f⟩

/-- With a count of refreshes one register changes. -/
theorem leaves_count (h : s.Rebalances t n) (f : Field) (m : Nat) : s.leaves (t.wrapAdd f m) [f] :=
  ⟨h.leaves.1, h.leaves.2.1, State.sameRegs_put (fun g _ => h.leaves.2.2 g fun _ no => nomatch no) (.head _) _⟩

end State.Rebalances

/-- The balance after one more interval, and a refresh forced where more than two are owed in the schedule. -/
def State.oneMore (s : State) (n pc : Nat) : State :=
  let b := (s.stack n).bal pc - 1
  if b < -2 && s.postpones n && !s.catchUp n then (s.setBal n pc b).force n pc else s.setBal n pc b

theorem State.oneMore_rebalances (s : State) (n pc : Nat) : s.Rebalances (s.oneMore n pc) n := by
  unfold State.oneMore
  dsimp only
  split
  · exact ((State.Rebalances.refl s n).setBal pc _).force pc
  · exact (State.Rebalances.refl s n).setBal pc _

theorem State.bal_force (s : State) (n pc : Nat) : ((s.force n pc).stack n).bal pc = (s.stack n).bal pc := by
  rw [State.force, State.stack_modStack]
  rfl

theorem State.bal_unforce (s : State) (n pc : Nat) : ((s.unforce n pc).stack n).bal pc = (s.stack n).bal pc := by
  rw [State.unforce, State.stack_modStack]
  rfl

theorem State.not_forced_unforce (s : State) (n pc : Nat) : pc ∉ ((s.unforce n pc).stack n).forced := by
  rw [State.unforce, State.stack_modStack]
  simp

theorem State.forced_force (s : State) (n pc : Nat) : pc ∈ ((s.force n pc).stack n).forced := by
  rw [State.force, State.stack_modStack]
  dsimp only
  split
  · next h => simpa using h
  · simp

theorem State.forced_setBal (s : State) (n pc : Nat) (b : Int) : ((s.setBal n pc b).stack n).forced = (s.stack n).forced := by
  rw [State.setBal, State.stack_modStack]

theorem State.bal_oneMore (s : State) (n pc : Nat) : ((s.oneMore n pc).stack n).bal pc = (s.stack n).bal pc - 1 := by
  unfold State.oneMore
  dsimp only
  split
  · rw [State.bal_force, State.bal_setBal]
  · rw [State.bal_setBal]

theorem State.refreshInterval_eq (s : State) (n pc : Nat) :
    s.refreshInterval n pc = if (s.stack n).inAtom.contains pc then s.oneMore n pc else (s.oneMore n pc).refreshes n pc := by
  rw [← (s.oneMore_rebalances n pc).inAtom]
  rfl

section
variable {s : State} {n pc : Nat}

theorem State.refreshes_free (free : s.postpones n = false) :
    s.refreshes n pc = if (s.stack n).bal pc < 0 then (s.setBal n pc 0).unforce n pc else s := by
  rw [State.refreshes, free]
  exact if_pos rfl

theorem State.refreshes_window (bound : s.postpones n = true) (window : s.catchUp n = true)
    (short : (s.stack n).bal pc < (s.get (R.STACK_REFRESH.PULLIN_MAX n) : Int)) :
    s.refreshes n pc = ((s.setBal n pc (s.get (R.STACK_REFRESH.PULLIN_MAX n))).unforce n pc).wrapAdd (R.STACK_REFRESH_COUNTS.CATCH_UP n)
      ((s.get (R.STACK_REFRESH.PULLIN_MAX n) : Int) - (s.stack n).bal pc).toNat := by
  rw [State.refreshes, bound, window]
  exact (if_neg (by decide)).trans ((if_pos rfl).trans (if_pos short))

theorem State.refreshes_outside (bound : s.postpones n = true) (outside : s.catchUp n = false) :
    s.refreshes n pc = if (s.stack n).forced.contains pc then
      ((s.setBal n pc ((s.stack n).bal pc + 1)).unforce n pc).wrapAdd (R.STACK_REFRESH_COUNTS.FORCED n) else s := by
  rw [State.refreshes, bound, outside]
  exact (if_neg (by decide)).trans (if_neg Bool.false_ne_true)

end

/-- A lane whose count has come is marked, counted and told. -/
theorem State.markLane_shows {s : State} {n pc lane : Nat} (hn : n < 16) (count : 256 ≤ Table.get 0 (pc * 64 + lane) (s.stack n).corrected)
    (unmarked : pc * 64 + lane ∉ (s.stack n).marked) (room : ((s.stack n).marks pc).length < 2) :
    let t := s.markLane n pc lane
    (t.stack n).marked = (s.stack n).marked ++ [pc * 64 + lane] ∧
      t.get (R.STACK_ECC_COUNTS.LANE_MARKS n) = min (2 ^ 16 - 1) (s.get (R.STACK_ECC_COUNTS.LANE_MARKS n) + 1) ∧
      bit (t.get R.GLB_ERR_SUMMARY.SEEN) 1 = true ∧ t.mem = s.mem := by
  have due : (256 ≤ Table.get 0 (pc * 64 + lane) (s.stack n).corrected && !(s.stack n).marked.contains (pc * 64 + lane) &&
      ((s.stack n).marks pc).length < 2) = true := by
    simp [count, unmarked, room]
  set u := ((s.modStack n fun k => { k with marked := k.marked ++ [pc * 64 + lane] }).bump (R.STACK_ECC_COUNTS.LANE_MARKS n)).bump
    (R.STACK_LANE_STATUS.ERASED_LANES n) with hu
  have shape : s.markLane n pc lane = u.raise (evStackLaneMarked n pc lane) := if_pos due
  have marked : (u.stack n).marked = (s.stack n).marked ++ [pc * 64 + lane] := by
    refine (congrArg Stack.marked (?_ : u.stack n = (s.modStack n fun k => { k with marked := k.marked ++ [pc * 64 + lane] }).stack n)).trans
      (congrArg Stack.marked (s.stack_modStack n _))
    rfl
  have counted : u.get (R.STACK_ECC_COUNTS.LANE_MARKS n) = min (2 ^ 16 - 1) (s.get (R.STACK_ECC_COUNTS.LANE_MARKS n) + 1) := by
    rw [hu, State.bump, State.get_put_other _ _ (by simp only [Field.key, R.STACK_LANE_STATUS.ERASED_LANES, R.STACK_ECC_COUNTS.LANE_MARKS]; omega),
      State.get_bump_same]
    rfl
  have mem : u.mem = s.mem := rfl
  clear_value u
  have raised := State.Raises.raise u (evStackLaneMarked n pc lane)
  dsimp only
  rw [shape]
  refine ⟨?_, (raised.get (notError_of_stack (by simp only [Field.key, R.STACK_ECC_COUNTS.LANE_MARKS]; omega))).trans counted,
    u.raise_seen (evStackLaneMarked n pc lane) (show 2 - 1 < 8 by decide), raised.mem.trans mem⟩
  rw [State.stack, raised.stk]
  exact marked

/-- An access arrives at the controller of its stack. -/
theorem completes_stackAccess {s t : State} {n addr : Nat} {w : Option Bytes} {y : List Nat} {P : State → Prop} (alive : s.alive = true)
    (at_stack : s.place addr = .stack n)
    (effect : s.stackArrive n ⟨addr, match w with | some b => .write b | none => .read, y, s.now⟩ = t)
    (waiting : t.pending = s.pending) (h : P t) : Completes (.stackAccess addr w y) s P := by
  refine ⟨t, (show exec (.stackAccess addr w y) s = execStackAccess addr w y s from rfl).trans ?_, h⟩
  unfold execStackAccess
  refine State.whenAlive_eq_next alive ?_ waiting
  rw [at_stack]
  exact effect

end Sys2Proof.Machine

open Sys2Proof Sys2Proof.Machine

/-- Settles O40: a free stack performs an access at once, one in an atom makes it wait for the boundary; the refresh balance
falls with each interval and is made up where the schedule allows; lanes are marked and pseudo-channels lost on their counts. -/
theorem stackController : Obligations.StackController := by
  intro s n pc alive hn hpc
  refine ⟨fun addr b line at_stack of_pc at_line => ⟨fun free => ⟨fun whole => ?_, ?_, fun y some_ lost => ?_⟩, fun busy => ?_,
    fun serves out_of owed whole waits => ?_⟩, fun in_atom => ?_, fun between => ?_, fun lane hlane => ⟨fun count unmarked room => ?_, fun few => ?_⟩,
    fun many fresh => ?_⟩
  · have runs : s.stackArrive n ⟨addr, .write b, [], s.now⟩ = s.write line b := by
      rw [State.stackArrive]
      dsimp only
      rw [of_pc, if_pos free, at_line]
      exact State.perform_write s n pc addr _ whole
    refine completes_stackAccess alive at_stack runs rfl ⟨?_, fun x outside => State.byte_write_outside _ _ _ _ (by rwa [whole]),
      State.write_whole_clean _ (by omega) whole, rfl, fun f _ => State.get_of_regs rfl f⟩
    rw [← whole]
    exact s.read_write line b
  · refine completes_stackAccess (t := s) alive at_stack ?_ rfl rfl
    rw [State.stackArrive]
    dsimp only
    rw [of_pc, if_pos free]
    rfl
  · have runs : s.stackArrive n ⟨addr, .read, y, s.now⟩ = ((s.wordLost n pc line).countLost n pc).channelLost n pc := by
      rw [State.stackArrive]
      dsimp only
      rw [of_pc, if_pos free, State.perform]
      dsimp only
      rw [if_neg (by decide), ← at_line, State.decodeWord_lost some_ lost]
      congr 3
      omega
    have waiting := (State.decodeWord_kept (n := n) (pc := pc) (addr := line) (symbols := y) (.refl s)).pending
    rw [State.decodeWord_lost some_ lost, show line / 64 * 64 = line by omega] at waiting
    obtain ⟨poisoned, bytes, seen, first⟩ := s.wordLost_shows hn hpc (show line % 64 = 0 by omega)
    have counted : ((s.wordLost n pc line).countLost n pc).mem = (s.wordLost n pc line).mem ∧
      ((s.wordLost n pc line).countLost n pc).poison = (s.wordLost n pc line).poison ∧
      ((s.wordLost n pc line).countLost n pc).regs = (s.wordLost n pc line).regs := ⟨rfl, rfl, rfl⟩
    obtain ⟨mem, poison, others, still⟩ := ((s.wordLost n pc line).countLost n pc).channelLost_keeps n pc
    generalize (s.wordLost n pc line).countLost n pc = u at *
    refine completes_stackAccess alive at_stack runs waiting ⟨?_, fun x outside => ?_, ?_, fun no => ⟨?_, ?_⟩⟩
    · rwa [State.poisoned, poison, counted.2.1]
    · exact (congrArg (Table.get 0 x) (mem.trans counted.1)).trans (bytes x outside)
    · exact still 1 (by decide) ((congrArg (bit · 1) (State.get_of_regs counted.2.2 _)).trans seen)
    · rw [State.isSet_of_get (others _ (notError_of_stack (by simp only [Field.key, R.STACK_ECC_FAULT.VALID]; omega))),
        State.isSet_of_regs counted.2.2]
      exact (first no).1
    · rw [others _ (notError_of_stack (by simp only [Field.key, R.STACK_ECC_FAULT.PC]; omega)), State.get_of_regs counted.2.2]
      exact (first no).2
  · refine completes_stackAccess alive at_stack (t := s.modStack n fun k =>
      { k with queue := Table.modify [] pc (· ++ [(⟨addr, .write b, [], s.now⟩ : StackAcc)]) k.queue }) ?_ rfl rfl
    rw [State.stackArrive]
    dsimp only
    rw [of_pc, if_neg (by rw [busy]; exact Bool.false_ne_true)]
  · obtain ⟨at_, waits⟩ := waits
    have left : ((((s.modStack n fun k => { k with inAtom := k.inAtom.filter fun x => x != pc }).modStack n fun k =>
        { k with queue := Table.set [] pc [] k.queue }).bump (R.STACK_ARB_COUNTS.HOST_DEFERRED n) 0).write (addr / 64 * 64) b).stack n =
        { s.stack n with inAtom := (s.stack n).inAtom.filter fun x => x != pc, queue := Table.set [] pc [] (s.stack n).queue } := by
      refine (State.stack_modStack (s.modStack n fun k => { k with inAtom := k.inAtom.filter fun x => x != pc }) n fun k =>
        { k with queue := Table.set [] pc [] k.queue }).trans ?_
      rw [State.stack_modStack]
    refine completes_whenAlive (f := fun s => s.boundary n pc) alive rfl (State.boundary_write serves out_of owed whole waits) rfl ⟨?_, ?_, ?_, fun x outside => ?_, rfl⟩
    · rw [left]
      simp
    · rw [left]
      exact Table.get_set_same (d := []) (v := []) ..
    · rw [← at_line]
      exact (congrArg _ whole.symm).trans (State.read_write _ line b)
    · exact State.byte_write_outside _ _ _ _ (by rwa [whole, ← at_line])
  · have moved := s.oneMore_rebalances n pc
    refine completes_whenAlive (f := fun s => s.refreshInterval n pc) (t := s.oneMore n pc) alive rfl ((s.refreshInterval_eq n pc).trans (if_pos in_atom)) moved.pending
      ⟨s.bal_oneMore n pc, fun many bound outside => ?_, moved.leaves⟩
    have due : ((s.stack n).bal pc - 1 < -2 && s.postpones n && !s.catchUp n) = true := by
      rw [bound, outside, decide_eq_true (by omega)]
      rfl
    have forced : s.oneMore n pc = (s.setBal n pc ((s.stack n).bal pc - 1)).force n pc := if_pos due
    rw [forced]
    exact State.forced_force _ n pc
  · have moved := s.oneMore_rebalances n pc
    have balance := s.bal_oneMore n pc
    have runs := (s.refreshInterval_eq n pc).trans (if_neg (by rw [between]; exact Bool.false_ne_true))
    have interval {P : State → Prop} {t : State} (effect : (s.oneMore n pc).refreshes n pc = t) (waits : t.pending = s.pending) (h : P t) :
        Completes (.refreshInterval n pc) s P :=
      completes_whenAlive (f := fun s => s.refreshInterval n pc) alive rfl (runs.trans effect) waits h
    have top : (s.oneMore n pc).get (R.STACK_REFRESH.PULLIN_MAX n) = s.get (R.STACK_REFRESH.PULLIN_MAX n) := State.get_of_regs moved.regs _
    refine ⟨fun off => ?_, fun bound window low => ?_, fun bound outside unforced few => ?_, fun bound outside many => ?_⟩
    · refine interval (State.refreshes_free (moved.postpones.trans off)) ?_ ?_ <;> split
      · exact ((moved.setBal pc 0).unforce pc).pending
      · exact moved.pending
      · refine ⟨?_, ((moved.setBal pc 0).unforce pc).leaves⟩
        rw [State.bal_unforce, State.bal_setBal]
        omega
      · refine ⟨?_, moved.leaves⟩
        omega
    · have after := (moved.setBal pc ((s.oneMore n pc).get (R.STACK_REFRESH.PULLIN_MAX n))).unforce pc
      refine interval (State.refreshes_window (moved.postpones.trans bound) (moved.catchUp.trans window) (by omega)) after.pending
        ⟨?_, after.leaves_count _ _⟩
      rw [← top]
      exact (State.bal_unforce _ n pc).trans (State.bal_setBal _ n pc _)
    · have within : s.oneMore n pc = s.setBal n pc ((s.stack n).bal pc - 1) := if_neg (by simp; omega)
      have not_forced : ((s.oneMore n pc).stack n).forced.contains pc = false := by
        rw [within, State.forced_setBal]
        simpa using unforced
      exact interval ((State.refreshes_outside (moved.postpones.trans bound) (moved.catchUp.trans outside)).trans
        (if_neg (by rw [not_forced]; exact Bool.false_ne_true))) moved.pending ⟨balance, moved.leaves⟩
    · have due : ((s.stack n).bal pc - 1 < -2 && s.postpones n && !s.catchUp n) = true := by
        rw [bound, outside, decide_eq_true (by omega)]
        rfl
      have forced : ((s.oneMore n pc).stack n).forced.contains pc = true := by
        rw [show s.oneMore n pc = (s.setBal n pc ((s.stack n).bal pc - 1)).force n pc from if_pos due]
        simpa using State.forced_force _ n pc
      have after := (moved.setBal pc (((s.oneMore n pc).stack n).bal pc + 1)).unforce pc
      refine interval ((State.refreshes_outside (moved.postpones.trans bound) (moved.catchUp.trans outside)).trans (if_pos forced))
        after.pending ⟨?_, State.not_forced_unforce _ n pc, after.leaves_count _ _⟩
      refine (State.bal_unforce _ n pc).trans ((State.bal_setBal _ n pc _).trans ?_)
      omega
  · exact completes_whenAlive alive rfl rfl (State.markLane_kept (.refl s)).pending (State.markLane_shows hn count unmarked room)
  · exact completes_whenAlive (f := fun s => s.markLane n pc lane) alive rfl (if_neg (by simp; omega)) rfl rfl
  · have runs : s.channelLost n pc = _ := if_neg (by simp [fresh]; omega)
    have raised := State.Raises.raise s (evStackChannelLost n pc
      ((Table.get [] pc (s.stack n).recent).filter fun t => decide (s.now < t + 1000000)).length)
    have seen := s.raise_seen (evStackChannelLost n pc
      ((Table.get [] pc (s.stack n).recent).filter fun t => decide (s.now < t + 1000000)).length) (show 5 - 1 < 8 by decide)
    refine completes_whenAlive (f := fun s => s.channelLost n pc) alive rfl runs raised.pending ⟨?_, ?_, raised.mem⟩
    · exact congrArg (· ++ [n]) raised.fatalParts
    · exact (congrArg (bit · 4) (State.get_of_regs rfl _)).trans seen
end

section
/-! SUPPORT. Segments of the SRAMs, the scrubber and the Granaries' lines (R370 to R380). -/

namespace Sys2Proof.Machine

/-! ### Bits of a number -/

theorem testBit_setBits (v lo w x j : Nat) :
    (setBits v lo w x).testBit j = if lo ≤ j ∧ j < lo + w then x.testBit (j - lo) else v.testBit j := by
  have low : v % 2 ^ lo < 2 ^ lo := Nat.mod_lt _ (Nat.two_pow_pos lo)
  have mid : v / 2 ^ lo % 2 ^ w < 2 ^ w := Nat.mod_lt _ (Nat.two_pow_pos w)
  have new : x % 2 ^ w < 2 ^ w := Nat.mod_lt _ (Nat.two_pow_pos w)
  have split : v = 2 ^ lo * (2 ^ w * (v / 2 ^ lo / 2 ^ w) + v / 2 ^ lo % 2 ^ w) + v % 2 ^ lo := by
    rw [Nat.div_add_mod, Nat.div_add_mod]
  have set : setBits v lo w x = 2 ^ lo * (2 ^ w * (v / 2 ^ lo / 2 ^ w) + x % 2 ^ w) + v % 2 ^ lo := by
    simp only [setBits, bits, Nat.shiftLeft_eq, Nat.shiftRight_eq_div_pow]
    rw [Nat.mul_comm (v / 2 ^ lo % 2 ^ w), Nat.mul_comm (x % 2 ^ w)]
    rw [Nat.mul_add] at split ⊢
    omega
  rw [set]
  conv_rhs => rw [split]
  rw [Nat.testBit_two_pow_mul_add _ low, Nat.testBit_two_pow_mul_add _ low, Nat.testBit_two_pow_mul_add _ new,
    Nat.testBit_two_pow_mul_add _ mid, Nat.testBit_mod_two_pow]
  by_cases below : j < lo
  · rw [if_pos below, if_neg (by omega), if_pos below]
  · by_cases inside : j - lo < w
    · rw [if_neg below, if_pos inside, if_pos (by omega)]
      simp [inside]
    · rw [if_neg below, if_neg inside, if_neg (by omega), if_neg below, if_neg inside]

theorem testBit_bits (v lo w j : Nat) : (bits v lo w).testBit j = (decide (j < w) && v.testBit (lo + j)) := by
  rw [bits, Nat.testBit_mod_two_pow, Nat.testBit_shiftRight]

/-- Bits set in a field wide enough are read back. -/
theorem bits_setBits_same {lo w width : Nat} (v x : Nat) (inside : lo + w ≤ width) :
    bits (setBits v lo w x % 2 ^ width) lo w = x % 2 ^ w := by
  refine Nat.eq_of_testBit_eq fun j => ?_
  rw [testBit_bits, Nat.testBit_mod_two_pow, Nat.testBit_mod_two_pow, testBit_setBits]
  by_cases hj : j < w
  · rw [if_pos (by omega), decide_eq_true (show lo + j < width by omega), Nat.add_sub_cancel_left]
    simp
  · simp [hj]

/-- Setting bits leaves those below and above. -/
theorem bits_setBits_apart {lo w lo' w' : Nat} (v x : Nat) (apart : lo' + w' ≤ lo ∨ lo + w ≤ lo') :
    bits (setBits v lo w x) lo' w' = bits v lo' w' := by
  refine Nat.eq_of_testBit_eq fun j => ?_
  rw [testBit_bits, testBit_bits, testBit_setBits]
  by_cases hj : j < w'
  · rw [if_neg (by omega)]
  · simp [hj]

/-! ### Segments -/

theorem Seg.field_ne_asked (g : Seg) : g.field.key ≠ g.asked.key := by
  unfold Seg.field Seg.asked
  split <;> simp only [Field.key, R.TSTORE_SEG_STATUS.SP, R.TSTORE_SEG_STATUS.TS, R.TSTORE_SEG_POWER.SP, R.TSTORE_SEG_POWER.TS] <;> omega

/-- The segment's bits lie in its fields. -/
theorem Seg.inside {g : Seg} (h : g.idx < (if g.sp then 8 else 16)) : 2 * g.idx + 2 ≤ g.field.width ∧ 2 * g.idx + 2 ≤ g.asked.width := by
  unfold Seg.field Seg.asked
  split at h
  · next sp => rw [if_pos sp, if_pos sp]; exact ⟨(by omega : 2 * g.idx + 2 ≤ 16), (by omega : 2 * g.idx + 2 ≤ 16)⟩
  · next sp => rw [if_neg sp, if_neg sp]; exact ⟨(by omega : 2 * g.idx + 2 ≤ 32), (by omega : 2 * g.idx + 2 ≤ 32)⟩

section
variable {g : Seg}

theorem State.segState_setSeg (inside : g.idx < (if g.sp then 8 else 16)) (s : State) (v : Nat) : (s.setSeg g v).segState g = v % 4 := by
  rw [State.segState, State.setSeg, State.get_put_same]
  exact bits_setBits_same _ _ (Seg.inside inside).1

/-- A request shows what was asked for. -/
def State.askSeg (s : State) (g : Seg) (v : Nat) : State := s.put g.asked (setBits (s.get g.asked) (2 * g.idx) 2 v)

theorem State.asked_askSeg (inside : g.idx < (if g.sp then 8 else 16)) (s : State) (v : Nat) :
    bits ((s.askSeg g v).get g.asked) (2 * g.idx) 2 = v % 4 := by
  rw [State.askSeg, State.get_put_same]
  exact bits_setBits_same _ _ (Seg.inside inside).2

theorem State.segState_askSeg (s : State) (g : Seg) (v : Nat) : (s.askSeg g v).segState g = s.segState g := by
  rw [State.segState, State.askSeg, State.get_put_other _ _ g.field_ne_asked, State.segState]

end

/-- A step of a fold that alone does something is all that the fold does. -/
theorem foldl_range_only {σ : Type} {n k : Nat} {f : σ → Nat → σ} {s : σ} (inside : k < n) (idle : ∀ i < n, i ≠ k → ∀ t, f t i = t) :
    (List.range n).foldl f s = f s k := by
  induction n with
  | zero => omega
  | succ n ih =>
    rw [List.range_succ, List.foldl_append, List.foldl_cons, List.foldl_nil]
    by_cases last : k = n
    · subst last
      exact congrArg (f · k) (List.foldlRecOn (motive := (· = s)) _ _ rfl fun t ht i hi => by
        have below := List.mem_range.1 hi
        rw [idle i (by omega) (by omega), ht])
    · rw [ih (by omega) fun i hi => idle i (by omega), idle n (by omega) (Ne.symm last)]

/-- A write of SEG_POWER that asks one segment for a state and the others for nothing. -/
theorem State.segPower_only {g : Seg} {v ts sp : Nat} (s : State) (inside : g.idx < (if g.sp then 8 else 16)) (hv : v < 4)
    (rest : (if g.sp then ts else sp) = (if g.sp then 0xFFFFFFFF else 0xFFFF))
    (own : (if g.sp then sp else ts) = setBits (if g.sp then 0xFFFF else 0xFFFFFFFF) (2 * g.idx) 2 v) :
    s.segPower g.tile ts sp = s.segAsk g v := by
  have nothing (u : State) (h : Seg) : u.segAsk h 3 = u := if_pos rfl
  have ones_ts : ∀ i < 16, bits 0xFFFFFFFF (2 * i) 2 = 3 := by decide
  have ones_sp : ∀ i < 8, bits 0xFFFF (2 * i) 2 = 3 := by decide
  have mine (ones width : Nat) (lt : setBits ones (2 * g.idx) 2 v < 2 ^ width) (wide : 2 * g.idx + 2 ≤ width) :
      bits (setBits ones (2 * g.idx) 2 v) (2 * g.idx) 2 = v := by
    rw [← Nat.mod_eq_of_lt lt, bits_setBits_same _ _ wide]
    exact Nat.mod_eq_of_lt hv
  have apart (ones i : Nat) (other : i ≠ g.idx) : bits (setBits ones (2 * g.idx) 2 v) (2 * i) 2 = bits ones (2 * i) 2 :=
    bits_setBits_apart _ _ (by omega)
  obtain ⟨tile, in_sp, idx⟩ := g
  have small (ones width : Nat) (all : ones = 2 ^ width - 1) (wide : 2 * idx + 2 ≤ width) : setBits ones (2 * idx) 2 v < 2 ^ width := by
    refine Nat.lt_pow_two_of_testBit _ fun j hj => ?_
    rw [testBit_setBits, if_neg (by omega), all, Nat.testBit_two_pow_sub_one]
    exact decide_eq_false (by omega)
  cases in_sp
  · rw [if_neg Bool.false_ne_true] at inside
    change idx < 16 at inside
    rw [if_neg Bool.false_ne_true, if_neg Bool.false_ne_true] at rest own
    rw [State.segPower, foldl_range_only (k := idx) inside, own, mine 0xFFFFFFFF 32 (small _ _ rfl (by omega)) (show 2 * idx + 2 ≤ 32 by omega), rest]
    · exact List.foldlRecOn (motive := (· = s.segAsk ⟨tile, false, idx⟩ v)) _ _ rfl fun u hu i hi => by
        rw [ones_sp i (List.mem_range.1 hi), nothing, hu]
    · intro i hi other u
      rw [own, apart _ _ other, ones_ts i hi, nothing]
  · rw [if_pos rfl] at inside
    change idx < 8 at inside
    rw [if_pos rfl, if_pos rfl] at rest own
    have idle : (List.range 16).foldl (fun (s : State) i => s.segAsk ⟨tile, false, i⟩ (bits ts (2 * i) 2)) s = s :=
      List.foldlRecOn (motive := (· = s)) _ _ rfl fun u hu i hi => by rw [rest, ones_ts i (List.mem_range.1 hi), nothing, hu]
    rw [State.segPower]
    dsimp only
    rw [idle, foldl_range_only (k := idx) inside, own, mine 0xFFFF 16 (small _ _ rfl (by omega)) (show 2 * idx + 2 ≤ 16 by omega)]
    intro i hi other u
    rw [own, apart _ _ other, ones_sp i hi, nothing]

/-! ### What a request does -/

section
variable {s : State} {g : Seg}

theorem State.segAsk_held (held : s.segHeld g = true) : s.segAsk g segOff = s.bump (R.TSTORE_ATOM_EVENTS.SEG_REFUSED g.tile) := by
  rw [State.segAsk, held]
  exact (if_neg (by decide)).trans (if_pos rfl)

theorem State.segAsk_taken {v : Nat} (asks : v ≠ 3) (free : v = segOff → s.segHeld g = false) :
    s.segAsk g v = (s.askSeg g v).segGo g v := by
  refine (if_neg (by simpa using asks)).trans (if_neg ?_)
  by_cases off : v = segOff
  · rw [free off, Bool.and_false]
    exact Bool.false_ne_true
  · simp [off]

theorem State.segGo_off (awake : s.segState g ≠ segWaking) : s.segGo g segOff = if s.segState g = segOff then s else s.segLose g := by
  rw [State.segGo]
  dsimp only
  rw [if_neg (by simpa using awake)]
  by_cases same : s.segState g = segOff
  · rw [if_pos same]
    exact if_pos (by simp [same])
  · rw [if_neg same, if_neg (by simpa using Ne.symm same)]
    exact if_pos rfl

theorem State.segGo_retain (on : s.segState g = segOn) : s.segGo g segRetain = s.setSeg g segRetain := by
  rw [State.segGo, on]
  rfl

theorem State.segGo_on (off : s.segState g ≠ segOn) (awake : s.segState g ≠ segWaking) :
    s.segGo g segOn = (if s.segState g = segOff then s.modTile g.tile fun t => { t with fromOff := t.fromOff ++ [g.no] } else s).setSeg g segWaking := by
  rw [State.segGo]
  dsimp only
  rw [if_neg (by simpa using awake), if_neg (by simpa using Ne.symm off), if_neg (by decide), if_neg (by decide)]
  by_cases was : s.segState g = segOff
  · rw [if_pos was, if_pos (by simp [was])]
  · rw [if_neg was, if_neg (by simpa using was)]

/-- A request and the segment's new state: no other register changes. -/
theorem State.sameRegs_seg (s : State) (g : Seg) (v w : Nat) : s.sameRegs ((s.askSeg g v).setSeg g w) [g.field, g.asked] :=
  State.sameRegs_put (State.sameRegs_put (State.sameRegs_refl s _) (.tail _ (.head _)) _) (.head _) _

end

/-! ### Lines of a Granary -/

/-- A line entered at a way is found. -/
theorem GSet.find_entered (ways : Table (Option (Nat × Bool))) (plru : Table Bool) (line w : Nat) (dirty : Bool) :
    ((⟨Table.set none w (some (line, dirty)) ways, plru⟩ : GSet).find line).isSome = true := by
  have entered : (w, some (line, dirty)) ∈ Table.set none w (some (line, dirty)) ways := by
    rw [Table.set, if_neg (by simp)]
    exact Table.self_mem_insert _ _ _
  rw [GSet.find, Option.isSome_map, List.find?_isSome]
  exact ⟨_, entered, by simp⟩

theorem State.gset_setGset (s : State) (n k : Nat) (g : GSet) : (s.setGset n k g).gset n k = g := by
  rw [State.gset, State.setGset, State.modTile_tile]
  exact Table.get_set_same ..

/-- From `s` to `t` the lines of Granaries alone may differ. -/
structure State.Lines (s t : State) : Prop where
  eq : t = { s with tiles := t.tiles }
  fills : ∀ n, (t.tile n).fills = (s.tile n).fills

namespace State.Lines

variable {s t : State}

theorem refl (s : State) : s.Lines s := ⟨rfl, fun _ => rfl⟩

theorem setGset (s : State) (n k : Nat) (g : GSet) : s.Lines (s.setGset n k g) := by
  refine ⟨rfl, fun m => ?_⟩
  by_cases same : m = n
  · subst same
    rw [State.setGset, State.modTile_tile]
  · rw [State.setGset, State.modTile_tile_other _ _ same]

theorem regs (h : s.Lines t) : t.regs = s.regs := (congrArg State.regs h.eq :)
theorem mem (h : s.Lines t) : t.mem = s.mem := (congrArg State.mem h.eq :)
theorem poison (h : s.Lines t) : t.poison = s.poison := (congrArg State.poison h.eq :)
theorem out (h : s.Lines t) : t.out = s.out := (congrArg State.out h.eq :)
theorem pending (h : s.Lines t) : t.pending = s.pending := (congrArg State.pending h.eq :)

end State.Lines

theorem State.lines_useLine (s : State) (n line : Nat) (write : Bool) : s.Lines (s.useLine n line write) := by
  unfold State.useLine
  dsimp only
  split
  · exact .refl s
  · exact .setGset s _ _ _

/-- A line that is used stays present. -/
theorem State.find_useLine {s : State} {n line : Nat} (write : Bool) (there : ((s.gset n (setOf line)).find line).isSome = true) :
    (((s.useLine n line write).gset n (setOf line)).find line).isSome = true := by
  obtain ⟨w, found⟩ := Option.isSome_iff_exists.1 there
  rw [State.useLine, found]
  dsimp only
  rw [State.gset_setGset]
  exact GSet.find_entered _ _ _ _ _

/-- A line that is installed is present; a line it replaces is counted. -/
theorem State.install_finds (s : State) (n line : Nat) (dirty : Bool) :
    let t := s.install n line dirty
    ((t.gset n (setOf line)).find line).isSome = true ∧ t.mem = s.mem ∧ t.out = s.out ∧ t.pending = s.pending ∧
      ∀ m, (t.tile m).fills = (s.tile m).fills := by
  have keeps {u t : State} (h : u.Lines t) (mem : u.mem = s.mem) (out : u.out = s.out) (pending : u.pending = s.pending)
      (tiles : u.tiles = s.tiles) : t.mem = s.mem ∧ t.out = s.out ∧ t.pending = s.pending ∧ ∀ m, (t.tile m).fills = (s.tile m).fills :=
    ⟨h.mem.trans mem, h.out.trans out, h.pending.trans pending, fun m => (h.fills m).trans (by rw [State.tile, tiles, State.tile])⟩
  unfold State.install
  dsimp only
  split
  · next found => exact ⟨State.find_useLine _ (by rw [found]; rfl), keeps (s.lines_useLine _ _ _) rfl rfl rfl rfl⟩
  · split <;> refine ⟨?_, keeps (.setGset _ _ _ _) rfl rfl rfl rfl⟩ <;> (rw [State.gset_setGset]; exact GSet.find_entered _ _ _ _ _)

/-- A lookup counts; it answers whether the line is present. -/
theorem State.lookup_present {s : State} {n line : Nat} (there : ((s.gset n (setOf line)).find line).isSome = true) :
    s.lookup n line = (s.wrapAdd (R.TSTORE_GRANARY_COUNTS.HITS n), true) := if_pos there

theorem State.lookup_absent {s : State} {n line : Nat} (absent : (s.gset n (setOf line)).find line = none) :
    s.lookup n line = (s.wrapAdd (R.TSTORE_GRANARY_COUNTS.MISSES n), false) := if_neg (by rw [absent]; exact Bool.false_ne_true)

/-- A line that a Granary holds belongs to a stack or the far tier: no segment of an SRAM, and it is there. -/
theorem State.home_direct {s : State} {addr : Nat} (h : (s.home addr).isSome = true) : segOf addr = none ∧ s.mapped addr = true := by
  have place : (∃ n, s.place addr = .stack n) ∨ ∃ k, s.place addr = .far k := by
    unfold State.home at h
    split at h
    · next n there => exact .inl ⟨n, there⟩
    · next k there => exact .inr ⟨k, there⟩
    · cases h
  have high : 0x120000000 ≤ addr := by
    by_contra low
    by_cases store : addr < 0x100000000
    · rw [State.place, if_pos store] at place
      dsimp only at place
      split_ifs at place <;> simp at place
    · rw [State.place, if_neg store, if_pos (by omega)] at place
      simp at place
  refine ⟨?_, ?_⟩
  · rw [segOf, if_neg (by omega), if_neg (by omega)]
  · rw [State.mapped]
    rcases place with ⟨n, there⟩ | ⟨k, there⟩ <;> rw [there]

/-- A write beside the Granaries. -/
theorem State.coreDirect_write {s : State} {addr : Nat} (h : (s.home addr).isSome = true) (b : Bytes) :
    s.coreDirect addr (some b) = s.write addr b := by
  obtain ⟨none_, mapped⟩ := State.home_direct h
  rw [State.coreDirect, mapped, none_]
  rfl

theorem Seg.of_no {g : Seg} (inside : g.idx < (if g.sp then 8 else 16)) : (⟨g.tile, decide (16 ≤ g.no), g.no % 16⟩ : Seg) = g := by
  obtain ⟨tile, in_sp, idx⟩ := g
  cases in_sp
  · change idx < 16 at inside
    simp only [Seg.no, Bool.false_eq_true, if_false, Nat.mod_eq_of_lt inside]
    rw [decide_eq_false (by omega)]
  · change idx < 8 at inside
    simp only [Seg.no, if_true, Nat.add_mod_left, Nat.mod_eq_of_lt (show idx < 16 by omega)]
    rw [decide_eq_true (by omega)]

/-- A wake that nothing else was asked during ends with the segment ON. -/
theorem State.segWoken_ends {s : State} {g : Seg} {off : Bool} (waking : s.segState g = segWaking)
    (from_off : (s.tile g.tile).fromOff.contains g.no = off) (none_waits : Table.get none g.no (s.tile g.tile).segPend = none) :
    s.segWoken g off =
      (let s := s.modTile g.tile fun t => { t with fromOff := t.fromOff.filter fun x => x != g.no, segPend := Table.erase g.no t.segPend }
       (if off then s.zero g.base g.size else s).setSeg g segOn) := by
  rw [State.segWoken]
  dsimp only
  rw [if_neg (by simp only [waking, from_off]; simp), none_waits]

/-- What the scrubber finds it reports before it goes on. -/
def State.scrubbed (s : State) (n a : Nat) : Option Bool → State
  | none => s
  | some true => s.eccEvent srcScrubber (a, true)
  | some false => (s.eccEvent srcScrubber (a, false)).raise (evLatentPoison n n a)

/-- The counter of words corrected in a memory of a tile. -/
def correctedWords (n : Nat) (sp : Bool) : Field := if sp then R.TSTORE_ECC_COUNTS.SP_CORRECTED n else R.TSTORE_ECC_COUNTS.TS_CORRECTED n

theorem State.eccFault_keeps (s : State) (a src : Nat) :
    (s.eccFault a src).mem = s.mem ∧ (s.eccFault a src).poison = s.poison ∧ (s.eccFault a src).pending = s.pending ∧
      (s.eccFault a src).tiles = s.tiles := by
  unfold State.eccFault
  split
  · exact ⟨rfl, rfl, rfl, rfl⟩
  · split <;> exact ⟨rfl, rfl, rfl, rfl⟩

/-- An error that was corrected is counted. -/
theorem State.scrubbed_corrected {s : State} {n a idx : Nat} {sp : Bool} (seg : segOf a = some ⟨n, sp, idx⟩) :
    let t := s.scrubbed n a (some true)
    t.mem = s.mem ∧ t.poison = s.poison ∧ t.pending = s.pending ∧ t.tiles = s.tiles ∧
      t.get (correctedWords n sp) = min (2 ^ (correctedWords n sp).width - 1) (s.get (correctedWords n sp) + 1) := by
  have runs : s.scrubbed n a (some true) = (s.bump (correctedWords n sp)).raise (evSramCorrected n a) := by
    rw [State.scrubbed, State.eccEvent, seg]
    rfl
  have raised := State.Raises.raise (s.bump (correctedWords n sp)) (evSramCorrected n a)
  have apart : ∀ g ∈ errorFields, (correctedWords n sp).key ≠ g.key := notError_of_stack (by
    unfold correctedWords
    split <;> simp only [Field.key, R.TSTORE_ECC_COUNTS.SP_CORRECTED, R.TSTORE_ECC_COUNTS.TS_CORRECTED] <;> omega)
  dsimp only
  rw [runs]
  exact ⟨raised.mem, raised.poison, raised.pending, raised.tiles, (raised.get apart).trans (State.get_bump_same _ _ _)⟩

/-- A word that was not corrected is poisoned, and told. -/
theorem State.scrubbed_poisoned {s : State} {n a idx : Nat} {sp : Bool} (seg : segOf a = some ⟨n, sp, idx⟩) (aligned : a % 64 = 0) :
    let t := s.scrubbed n a (some false)
    t.mem = s.mem ∧ t.poisoned a 64 = true ∧ t.pending = s.pending ∧ t.tiles = s.tiles ∧ bit (t.get R.GLB_ERR_SUMMARY.SEEN) 1 = true := by
  set u := (s.bump (if sp then R.TSTORE_ECC_COUNTS.SP_POISONED n else R.TSTORE_ECC_COUNTS.TS_POISONED n)).poisonRange a 64 with hu
  have poisoned : u.poisoned a 64 = true := State.poisoned_poisonRange _ aligned
  have found : s.eccEvent srcScrubber (a, false) = u.eccFault a srcScrubber := by
    rw [State.eccEvent, seg, hu]
    dsimp only
    rw [show a / 64 * 64 = a by omega]
    rfl
  have kept : u.mem = s.mem ∧ u.pending = s.pending ∧ u.tiles = s.tiles := ⟨rfl, rfl, rfl⟩
  clear_value u
  obtain ⟨mem, poison, pending, tiles⟩ := u.eccFault_keeps a srcScrubber
  have runs : s.scrubbed n a (some false) = (u.eccFault a srcScrubber).raise (evLatentPoison n n a) := by rw [State.scrubbed, found]
  have raised := State.Raises.raise (u.eccFault a srcScrubber) (evLatentPoison n n a)
  have seen := (u.eccFault a srcScrubber).raise_seen (evLatentPoison n n a) (show 2 - 1 < 8 by decide)
  dsimp only
  rw [runs]
  refine ⟨raised.mem.trans (mem.trans kept.1), ?_, raised.pending.trans (pending.trans kept.2.1), raised.tiles.trans (tiles.trans kept.2.2), seen⟩
  rwa [State.poisoned, raised.poison, poison]

/-- Whatever the scrubber finds, memory and tiles stay. -/
theorem State.scrubbed_keeps {s : State} {n a idx : Nat} {sp : Bool} (seg : segOf a = some ⟨n, sp, idx⟩) (aligned : a % 64 = 0)
    (found : Option Bool) :
    (s.scrubbed n a found).mem = s.mem ∧ (s.scrubbed n a found).pending = s.pending ∧ (s.scrubbed n a found).tiles = s.tiles := by
  rcases found with _ | _ | _
  · exact ⟨rfl, rfl, rfl⟩
  · obtain ⟨mem, -, pending, tiles, -⟩ := State.scrubbed_poisoned (s := s) seg aligned
    exact ⟨mem, pending, tiles⟩
  · obtain ⟨mem, -, pending, tiles, -⟩ := State.scrubbed_corrected (s := s) seg
    exact ⟨mem, pending, tiles⟩

theorem State.scrub_word {s : State} {n o : Nat} {sp : Bool} (at_word : o = if sp then (s.tile n).scrubSp else (s.tile n).scrubTs)
    (on : s.segState ⟨n, sp, o / (if sp then 0x400000 else 0x1000000)⟩ = segOn) (beside : sp = false → o + s.granaryBytes n < 0x10000000)
    (found : Option Bool) :
    s.scrub n sp found = (s.scrubbed n ((if sp then scratchBase n else tileStoreBase n) + o) found).modTile n fun t =>
      if sp then { t with scrubSp := (o + 64) % (if sp then 0x2000000 else 0x10000000) }
      else { t with scrubTs := (o + 64) % (if sp then 0x2000000 else 0x10000000) } := by
  have clear : (!sp && decide (0x10000000 ≤ o + s.granaryBytes n)) = false := by
    cases sp
    · simpa using beside rfl
    · rfl
  unfold State.scrub
  dsimp only
  rw [← at_word, on, clear]
  rcases found with _ | _ | _ <;> rfl

/-! ### Accesses to lines -/

/-- What a control core asks of a line. -/
def lineAccess (addr : Nat) : Option Bytes → GAccess
  | some b => .write addr b
  | none => .read addr

section
variable {s : State} {n addr : Nat} {w : Option Bytes}

theorem State.granaryAccess_present (homed : s.cacheHome addr = some n) (no_fills : (s.tile n).fills = [])
    (there : ((s.gset n (setOf (addr / 64 * 64))).find (addr / 64 * 64)).isSome = true) (fits : addr % 64 + (w.getD []).length ≤ 64) :
    s.granaryAccess addr w false =
      (s.wrapAdd (R.TSTORE_GRANARY_COUNTS.HITS n)).granaryPerform n (addr / 64 * 64) (lineAccess addr w) := by
  have taken : (w.getD []).take (64 - addr % 64) = w.getD [] := List.take_of_length_le (by omega)
  unfold State.granaryAccess
  dsimp only
  rw [homed, taken]
  dsimp only
  rw [if_neg Bool.false_ne_true, no_fills, State.lookup_present there]
  cases w <;> rfl

theorem State.granaryAccess_absent (homed : s.cacheHome addr = some n) (no_fills : (s.tile n).fills = [])
    (absent : (s.gset n (setOf (addr / 64 * 64))).find (addr / 64 * 64) = none) (fits : addr % 64 + (w.getD []).length ≤ 64) :
    s.granaryAccess addr w false = (s.wrapAdd (R.TSTORE_GRANARY_COUNTS.MISSES n)).modTile n fun t =>
      { t with fills := t.fills ++ [(addr / 64 * 64, lineAccess addr w)] } := by
  have taken : (w.getD []).take (64 - addr % 64) = w.getD [] := List.take_of_length_le (by omega)
  unfold State.granaryAccess
  dsimp only
  rw [homed, taken]
  dsimp only
  rw [if_neg Bool.false_ne_true, no_fills, State.lookup_absent absent]
  cases w <;> rfl

/-- A fill that a write waits for: the line enters, and the write is performed on it. -/
theorem State.fillDone_write {line : Nat} {b : Bytes} (near : line < farBase) (waits : (s.tile n).fills = [(line, .write addr b)]) :
    s.fillDone n line false =
      ((((s.modTile n fun t => { t with fills := t.fills.filter fun e => e.1 != line }).install n line false).write addr b).useLine n line true) := by
  have mine : (s.tile n).fills.filter (fun e => e.1 == line) = [(line, .write addr b)] := by rw [waits]; simp
  have counts (u : State) : u.countFarPoison line 64 = u := if_pos near
  rw [State.fillDone, mine]
  dsimp only
  rw [if_neg (by simp), if_neg (by simp), counts]
  rfl

end

end Sys2Proof.Machine

open Sys2Proof Sys2Proof.Machine

/-- Settles O39: a segment takes the state that it is asked for, unless it holds what may not lose power; the scrubber goes on by a word;
a line that its Granary holds is accessed at once, another waits for its fill. -/
theorem onPackageMemory : Obligations.OnPackageMemory := by
  refine ⟨fun s g v alive htile inside => ⟨fun ts sp rest own awake => ⟨?_, ?_, ?_, ?_, ?_⟩, fun k at_segment waking none_waits => ⟨?_, ?_⟩⟩,
    fun s n sp o alive hn at_word low aligned on beside => ?_, fun s n addr b alive hn fits => ?_⟩
  · rintro rfl free
    have runs := (s.segPower_only inside (by decide) rest own).trans
      ((State.segAsk_taken (by decide) fun _ => free).trans (State.segGo_off (by rwa [State.segState_askSeg])))
    rw [State.segState_askSeg] at runs
    have asked := State.asked_askSeg inside s segOff
    by_cases off : s.segState g = segOff
    · rw [if_pos off] at runs
      exact completes_whenAlive (f := fun s => s.segPower g.tile ts sp) alive rfl runs rfl
        ⟨(s.segState_askSeg g _).trans off, asked, fun no => absurd off no, fun _ _ => rfl,
          State.sameRegs_put (State.sameRegs_refl s _) (.tail _ (.head _)) _⟩
    · rw [if_neg off] at runs
      have zeroed (a : Nat) := ((s.askSeg g segOff).setSeg g segOff).byte_zero g.base g.size a
      refine completes_whenAlive (f := fun s => s.segPower g.tile ts sp) alive rfl runs rfl
        ⟨State.segState_setSeg inside _ _, ?_, fun _ a from_ to_ => (zeroed a).trans (if_pos ⟨from_, to_⟩),
          fun a without => (zeroed a).trans (if_neg without), s.sameRegs_seg g _ _⟩
      exact (congrArg (bits · (2 * g.idx) 2) (State.get_put_other _ _ g.field_ne_asked.symm)).trans asked
  · rintro rfl held
    have runs := (s.segPower_only inside (by decide) rest own).trans (State.segAsk_held held)
    refine completes_whenAlive (f := fun s => s.segPower g.tile ts sp) alive rfl runs rfl ⟨?_, s.leaves_bump _ _⟩
    refine congrArg (bits · (2 * g.idx) 2) (State.get_put_other _ _ ?_)
    unfold Seg.field
    split <;> simp only [Field.key, R.TSTORE_SEG_STATUS.SP, R.TSTORE_SEG_STATUS.TS, R.TSTORE_ATOM_EVENTS.SEG_REFUSED] <;> omega
  · rintro rfl was_on
    have runs := (s.segPower_only inside (by decide) rest own).trans
      ((State.segAsk_taken (by decide) fun no => absurd no (by decide)).trans (State.segGo_retain ((s.segState_askSeg g _).trans was_on)))
    exact completes_whenAlive (f := fun s => s.segPower g.tile ts sp) alive rfl runs rfl
      ⟨State.segState_setSeg inside _ _, rfl, rfl, s.sameRegs_seg g _ _⟩
  · rintro rfl off
    have runs := (s.segPower_only inside (by decide) rest own).trans
      ((State.segAsk_taken (by decide) fun no => absurd no (by decide)).trans
        (State.segGo_on (by rwa [State.segState_askSeg]) (by rwa [State.segState_askSeg])))
    rw [State.segState_askSeg] at runs
    by_cases was : s.segState g = segOff
    · rw [if_pos was] at runs
      refine completes_whenAlive (f := fun s => s.segPower g.tile ts sp) alive rfl runs rfl
        ⟨State.segState_setSeg inside _ _, fun _ => ?_, rfl, rfl, s.sameRegs_seg g _ _⟩
      have noted : (((s.askSeg g segOn).modTile g.tile fun t => { t with fromOff := t.fromOff ++ [g.no] }).tile g.tile).fromOff =
          (s.tile g.tile).fromOff ++ [g.no] := by
        rw [State.modTile_tile]
        rfl
      exact noted ▸ List.mem_append_right _ (.head _)
    · rw [if_neg was] at runs
      exact completes_whenAlive (f := fun s => s.segPower g.tile ts sp) alive rfl runs rfl
        ⟨State.segState_setSeg inside _ _, fun no => absurd no was, rfl, rfl, s.sameRegs_seg g _ _⟩
  · rintro rfl
    exact completes_whenAlive (f := fun s => s.segPower g.tile ts sp) alive rfl
      ((s.segPower_only inside (by decide) rest own).trans (if_pos rfl)) rfl rfl
  · intro kept
    have runs := State.segWoken_ends (off := false) waking (by simpa using kept) none_waits
    refine completes_whenAlive (f := fun s => s.segWoken g false) alive ?_ runs rfl
      ⟨State.segState_setSeg inside _ _, rfl, rfl, State.sameRegs_put (State.sameRegs_refl s _) (.head _) _⟩
    rw [at_segment]
    exact congrArg (fun h => s.whenAlive fun s => s.segWoken h false) (Seg.of_no inside)
  · intro lost
    have runs := State.segWoken_ends (off := true) waking (by simpa using lost) none_waits
    have zeroed (a : Nat) := (s.modTile g.tile fun t =>
      { t with fromOff := t.fromOff.filter fun x => x != g.no, segPend := Table.erase g.no t.segPend }).byte_zero g.base g.size a
    refine completes_whenAlive (f := fun s => s.segWoken g true) alive ?_ runs rfl
      ⟨State.segState_setSeg inside _ _, ?_, fun a from_ to_ => (zeroed a).trans (if_pos ⟨from_, to_⟩),
        fun a without => (zeroed a).trans (if_neg without), State.sameRegs_put (State.sameRegs_refl s _) (.head _) _⟩
    · rw [at_segment]
      exact congrArg (fun h => s.whenAlive fun s => s.segWoken h true) (Seg.of_no inside)
    · have noted := congrArg Tile.fromOff (s.modTile_tile g.tile fun t =>
        { t with fromOff := t.fromOff.filter fun x => x != g.no, segPend := Table.erase g.no t.segPend })
      intro still
      have there := noted ▸ still
      simp at there
  · intro a next
    have seg : ∃ idx, segOf a = some ⟨n, sp, idx⟩ := by
      cases sp
      · change o < 0x10000000 at low
        have at_a : a = n * 0x10000000 + o := rfl
        refine ⟨a % 0x10000000 / 0x1000000, ?_⟩
        rw [segOf, if_pos (by omega), show a / 0x10000000 = n by omega]
      · change o < 0x2000000 at low
        have at_a : a = 0x100000000 + n * 0x2000000 + o := rfl
        refine ⟨(a - 0x100000000) % 0x2000000 / 0x400000, ?_⟩
        rw [segOf, if_neg (by omega), if_pos (by omega), show (a - 0x100000000) / 0x2000000 = n by omega]
    obtain ⟨idx, seg⟩ := seg
    have aligned' : a % 64 = 0 := by
      cases sp
      · have at_a : a = n * 0x10000000 + o := rfl
        omega
      · have at_a : a = 0x100000000 + n * 0x2000000 + o := rfl
        omega
    have scrubs (r : Option Bool) {P : State → Prop} (h : P ((s.scrubbed n a r).modTile n fun t =>
        if sp then { t with scrubSp := next } else { t with scrubTs := next })) : Completes (.scrub n sp r) s P :=
      completes_whenAlive (f := fun s => s.scrub n sp r) alive rfl (State.scrub_word at_word on beside r)
        (State.scrubbed_keeps seg aligned' r).2.1 h
    refine ⟨fun r _ => scrubs r ⟨?_, (State.scrubbed_keeps seg aligned' r).1⟩, scrubs none rfl, scrubs (some true) ?_, scrubs (some false) ?_⟩
    · rw [State.modTile_tile]
      cases sp <;> rfl
    · obtain ⟨-, poison, -, -, counted⟩ := State.scrubbed_corrected (s := s) seg
      exact ⟨counted, poison⟩
    · obtain ⟨-, poisoned, -, -, seen⟩ := State.scrubbed_poisoned (s := s) seg aligned'
      exact ⟨poisoned, seen⟩
  · intro line
    refine ⟨fun homed => ⟨fun no_fills there => ⟨?_, fun clean => ?_⟩, fun no_fills absent => ?_⟩, fun uncached homed => ?_, fun near waits => ?_⟩
    · have used := ((s.wrapAdd (R.TSTORE_GRANARY_COUNTS.HITS n)).write addr b).lines_useLine n line true
      have stored := (s.wrapAdd (R.TSTORE_GRANARY_COUNTS.HITS n)).read_write addr b
      have counted := State.sameRegs_put (State.sameRegs_refl s [R.TSTORE_GRANARY_COUNTS.HITS n]) (.head _)
        (s.get (R.TSTORE_GRANARY_COUNTS.HITS n) + 1)
      refine completes_whenAlive (f := fun s => s.granaryAccess addr (some b) false) alive rfl
        (State.granaryAccess_present homed no_fills there fits) used.pending ⟨?_, fun x outside => ?_, used.out, fun f hf => ?_⟩
      · exact (State.read_of_mem used.mem _ _).trans stored
      · exact (congrArg (Table.get 0 x) used.mem).trans (State.byte_write_outside _ _ _ _ outside)
      · exact (State.get_of_regs used.regs f).trans (counted f hf)
    · have used := (s.wrapAdd (R.TSTORE_GRANARY_COUNTS.HITS n)).lines_useLine n line false
      have clean' : ((s.wrapAdd (R.TSTORE_GRANARY_COUNTS.HITS n)).useLine n line false).poisoned line 64 = false := by
        rw [State.poisoned, used.poison]
        exact clean
      have counted := State.sameRegs_put (State.sameRegs_refl s [R.TSTORE_GRANARY_COUNTS.HITS n]) (.head _)
        (s.get (R.TSTORE_GRANARY_COUNTS.HITS n) + 1)
      have runs := State.granaryAccess_present (w := none) homed no_fills there (by simp; omega)
      refine completes_whenAlive (f := fun s => s.granaryAccess addr none false) alive rfl
        (runs.trans (if_neg (by rw [clean']; exact Bool.false_ne_true))) used.pending ⟨used.mem, used.out, fun f hf => ?_⟩
      exact (State.get_of_regs used.regs f).trans (counted f hf)
    · refine completes_whenAlive (f := fun s => s.granaryAccess addr (some b) false) alive rfl
        (State.granaryAccess_absent homed no_fills absent fits) rfl
        ⟨?_, rfl, rfl, State.sameRegs_put (State.sameRegs_refl s _) (.head _) _⟩
      rw [State.modTile_tile]
      exact congrArg (· ++ [(line, GAccess.write addr b)]) no_fills
    · refine completes_whenAlive (f := fun s => s.granaryAccess addr (some b) false) (t := s.write addr b) alive rfl ?_ rfl rfl
      rw [State.granaryAccess, uncached]
      exact (congrArg (fun b => s.coreDirect addr (some b)) (List.take_of_length_le (by simp; omega))).trans (State.coreDirect_write homed b)
    · have line_near : line < farBase := by omega
      have runs := State.fillDone_write line_near waits
      set u := s.modTile n fun t => { t with fills := t.fills.filter fun e => e.1 != line } with hu
      have empty : (u.tile n).fills = [] := by
        rw [hu, State.modTile_tile]
        simp [waits]
      have kept : u.mem = s.mem ∧ u.out = s.out ∧ u.pending = s.pending := ⟨rfl, rfl, rfl⟩
      clear_value u
      obtain ⟨found, mem, out, pending, fills⟩ := u.install_finds n line false
      generalize u.install n line false = v at *
      have used := (v.write addr b).lines_useLine n line true
      have whole : line / 64 * 64 = line := by omega
      refine completes_whenAlive (f := fun s => s.fillDone n (line / 64 * 64) false) alive rfl ((congrArg (s.fillDone n · false) whole).trans runs)
        (used.pending.trans (pending.trans kept.2.2)) ⟨?_, ?_, ?_, fun x outside => ?_, used.out.trans (out.trans kept.2.1)⟩
      · exact (used.fills n).trans ((fills n).trans empty)
      · exact State.find_useLine (s := v.write addr b) true found
      · exact (State.read_of_mem used.mem _ _).trans (v.read_write addr b)
      · refine (congrArg (Table.get 0 x) used.mem).trans ((State.byte_write_outside v _ _ _ outside).trans ?_)
        exact congrArg (Table.get 0 x) (mem.trans kept.1)
end

section
/-! SUPPORT. Expanders found and lost (R496 to R499). -/

namespace Sys2Proof.Machine

theorem State.Raises.far {s t : State} (h : s.Raises t) : t.cxl.far = s.cxl.far := (congrArg (fun u : State => u.cxl.far) h.eq :)

/-- A usable expander has a GiB of the far tier to give. -/
theorem expanderGib_ne_zero {s : State} {e : Expander} (h : s.usable e = true) : expanderGib farBase e ≠ 0 := by
  have bytes : 0x40000000 ≤ e.bytes := by
    simp only [State.usable, Bool.and_eq_true, decide_eq_true_eq] at h
    exact h.1.2
  simp only [expanderGib, farBase]
  omega

/-- What the registers report of a usable expander behind port 0. -/
theorem State.mapExpander_reports {s : State} {e : Expander} (h : s.usable e = true) (port : e.port = 0) :
    let t := s.mapExpander farBase e
    t.isSet (R.CXLD_PORT.LINK_UP 0) = true ∧ t.isSet (R.CXLD_EXP.MAPPED 0) = true ∧ t.get (R.CXLD_EXP.BASE_GIB 0) = 0 ∧
      t.cxl.enumerated = s.cxl.enumerated ∧ t.mem = s.mem ∧ t.out = s.out := by
  have some_ : (expanderGib farBase e != 0) = true := by simpa using expanderGib_ne_zero h
  dsimp only
  rw [State.mapExpander_of_usable h, port]
  refine ⟨?_, ?_, ?_, rfl, rfl, rfl⟩
  · have linked : (s.reportLink e).isSet (R.CXLD_PORT.LINK_UP 0) = true := by
      rw [State.reportLink, port, State.isSet_putBit_other _ _ (by decide), State.isSet_putBit_other _ _ (by decide),
        State.isSet_put_other _ _ (by decide), State.isSet_put_other _ _ (by decide)]
      exact State.isSet_putBit Nat.one_pos true
    refine (State.isSet_of_get ((State.withRange_get ..).trans (State.reportRange_sameRegs _ 0 _ _ _ (by decide)))).trans ?_
    exact (State.isSet_putBit_other _ _ (by decide)).trans linked
  · refine (State.isSet_of_get (State.withRange_get ..)).trans ?_
    rw [State.reportRange, State.isSet_put_other _ _ (by decide), some_]
    exact State.isSet_putBit Nat.one_pos true
  · refine (State.withRange_get ..).trans ?_
    exact State.get_put_fits _ _ (by decide)

/-- The registers with which a downstream port tells that its link is down. -/
def downLinkFields (k : Nat) : List Field :=
  [R.CXLD_PORT.LINK_UP k, R.CXLD_PORT.WIDTH k, R.CXLD_PORT.SPEED k, R.CXLD_PORT.IDE k, R.CXLD_COUNTS.LINK_DOWNS]

/-- An expander's link as it is shown once it is down. -/
def State.showLost (s : State) (k : Nat) : State :=
  ((((s.putBit (R.CXLD_PORT.LINK_UP k) false).put (R.CXLD_PORT.WIDTH k) 0).put (R.CXLD_PORT.SPEED k) 0).putBit (R.CXLD_PORT.IDE k)
    false).bump R.CXLD_COUNTS.LINK_DOWNS

theorem State.showLost_shows (s : State) {k : Nat} (hk : k < 2) :
    (s.showLost k).isSet (R.CXLD_PORT.LINK_UP k) = false ∧
      (s.showLost k).get R.CXLD_COUNTS.LINK_DOWNS =
        min (2 ^ R.CXLD_COUNTS.LINK_DOWNS.width - 1) (s.get R.CXLD_COUNTS.LINK_DOWNS + 1) := by
  have cases : k = 0 ∨ k = 1 := by omega
  rcases cases with rfl | rfl
  all_goals
    refine ⟨?_, ?_⟩
    · rw [State.showLost, State.bump, State.isSet_put_other _ _ (by decide), State.isSet_putBit_other _ _ (by decide),
        State.isSet_put_other _ _ (by decide), State.isSet_put_other _ _ (by decide)]
      exact State.isSet_putBit Nat.one_pos false
    · rw [State.showLost, State.get_bump_same, State.putBit, State.get_put_other _ _ (by decide), State.get_put_other _ _ (by decide),
        State.get_put_other _ _ (by decide), State.putBit, State.get_put_other _ _ (by decide)]

/-- The range of an expander taken from the map: what was in it is lost to the sequences that had it. -/
def State.unmapped (s : State) (k : Nat) (r : FarRange) : State :=
  let lost := (s.filesIn r).filter fun x => !s.srv.damaged.contains x
  { s with
    cxl := { s.cxl with far := Table.set none k none s.cxl.far }
    srv := { s.srv with damaged := s.srv.damaged ++ lost } }

theorem State.expanderLost_mapped {s : State} {k : Nat} {r : FarRange} (up : s.isSet (R.CXLD_PORT.LINK_UP k) = true)
    (range : Table.get none k s.cxl.far = some r) :
    s.expanderLost k = (((s.showLost k).unmapped k r).putBit (R.CXLD_EXP.MAPPED k) false).raise (evFarTierLost k r.base) := by
  have range' : Table.get none k (s.showLost k).cxl.far = some r := range
  have shape : s.expanderLost k = (if (!s.isSet (R.CXLD_PORT.LINK_UP k)) = true then s
      else match Table.get none k (s.showLost k).cxl.far with
        | none => s.showLost k
        | some r => (((s.showLost k).unmapped k r).putBit (R.CXLD_EXP.MAPPED k) false).raise (evFarTierLost k r.base)) := rfl
  rw [shape, up, range']
  rfl

end Sys2Proof.Machine

open Sys2Proof Sys2Proof.Machine

/-- Settles O57: enumeration maps a usable expander of port 0 at the start of the far tier, and a link that goes down takes its
range from the map. -/
theorem expanders : Obligations.Expanders := by
  intro s e l ⟨alive, idle⟩
  refine ⟨fun done => ?_, fun boot first _ port => ⟨fun usable => ?_, fun unusable => ?_⟩, fun k r hk up range _ => ?_, fun k down => ?_⟩
  · refine completes_whenAlive (f := fun s => s.enumerate l) alive rfl (if_pos ?_) rfl rfl
    rcases done with h | h <;> simp [h]
  · have runs := exec_downstreamEnumeration_port0 alive boot first port
    have usable' : s.withPortsEnumerated.usable e = true := usable
    obtain ⟨-, verdict, mapped⟩ := State.mapExpander_accepts usable' farBase
    obtain ⟨linked, shown, base, enumerated, mem, out⟩ := State.mapExpander_reports usable' port
    rw [port] at verdict mapped
    exact ⟨_, runs, enumerated, linked, verdict, shown, base, mapped, mem, out⟩
  · have runs := exec_downstreamEnumeration_port0 alive boot first port
    have unusable' : s.withPortsEnumerated.usable e = false := unusable
    obtain ⟨count, -, cxl⟩ := State.mapExpander_refuses unusable' farBase
    refine ⟨_, runs, cxl, count, ?_, ?_⟩ <;> rw [State.mapExpander_of_unusable unusable'] <;> rfl
  · obtain ⟨down, counted⟩ := s.showLost_shows hk
    set u := ((s.showLost k).unmapped k r).putBit (R.CXLD_EXP.MAPPED k) false with hu
    have others {f : Field} (other : f.key ≠ (R.CXLD_EXP.MAPPED k).key) : u.get f = (s.showLost k).get f :=
      (State.get_put_other _ _ other).trans (State.get_of_regs rfl f)
    have unmapped : u.isSet (R.CXLD_EXP.MAPPED k) = false := State.isSet_putBit Nat.one_pos false
    have range' : Table.get none k u.cxl.far = none := Table.get_set_same none k none s.cxl.far
    have kept : u.pending = s.pending ∧ u.que = s.que ∧ u.mem = s.mem := ⟨rfl, rfl, rfl⟩
    have runs := State.expanderLost_mapped up range
    rw [← hu] at runs
    clear_value u
    have raised := State.Raises.raise u (evFarTierLost k r.base)
    have seen := u.raise_seen (evFarTierLost k r.base) (show 3 - 1 < 8 by decide)
    have ports : k = 0 ∨ k = 1 := by omega
    refine completes_act (f := fun s => s.expanderLost k) alive rfl runs ?_ (raised.pending.trans kept.1)
      ⟨?_, ?_, ?_, ?_, seen, fun a => congrArg (Table.get 0 a) (raised.mem.trans kept.2.2)⟩
    · rw [raised.que, kept.2.1, idle]
    · rw [raised.far, range']
    · exact (raised.isSet (by rcases ports with rfl | rfl <;> decide)).trans unmapped
    · refine (raised.isSet (by rcases ports with rfl | rfl <;> decide)).trans ?_
      exact (State.isSet_of_get (others (by simp only [Field.key, R.CXLD_PORT.LINK_UP, R.CXLD_EXP.MAPPED]; omega))).trans down
    · refine (raised.get (by decide)).trans ?_
      exact (others (by simp only [Field.key, R.CXLD_COUNTS.LINK_DOWNS, R.CXLD_EXP.MAPPED]; omega)).trans counted
  · refine completes_act (f := fun s => s.expanderLost k) alive rfl (if_pos ?_) idle rfl rfl
    rw [down]
    rfl
end

section
/-! SUPPORT. Rings: bursts of reads, held records, and what a read answers (R117, R118, R490). -/

namespace Sys2Proof.Machine

/-! ### Bursts of reads -/

/-- The packet reads of these entries of a ring go out. -/
def State.reading (s : State) (i : Nat) (es : List Nat) : State :=
  { s with
    out := s.out ++ es.map fun e => .hostRead (s.get (R.QUE_SQ_BASE.BASE i) * 4096 + 64 * e) 64
    que := { s.que with fetches := s.que.fetches ++ es.map fun e => ⟨i, e, none⟩ } }

theorem State.reading_cons (s : State) (i e : Nat) (es : List Nat) : (s.reading i [e]).reading i es = s.reading i (e :: es) := by
  have base : (s.reading i [e]).get (R.QUE_SQ_BASE.BASE i) = s.get (R.QUE_SQ_BASE.BASE i) := State.get_of_regs rfl _
  simp only [State.reading, List.map_cons, List.map_nil, List.append_assoc, List.singleton_append] at base ⊢
  rw [base]

theorem State.reading_foldl (s : State) (i : Nat) (at_ : Nat → Nat) (l : List Nat) :
    l.foldl (fun (s : State) j => s.reading i [at_ j]) s = s.reading i (l.map at_) := by
  induction l generalizing s with
  | nil => simp [State.reading]
  | cons j l ih => rw [List.foldl_cons, ih, State.reading_cons, List.map_cons]

/-- A ring that may be read, with no read in flight, sends its next burst. -/
theorem State.fetchRing_bursts {s : State} {i : Nat} (may : s.mayFetch i = true) (none_out : s.inFlight i = 0) :
    s.fetchRing i = s.reading i ((List.range (min 8 ((Table.get 0 i s.que.sqTail + s.sqEntries i - s.get (R.QUE_SQ_CTRL.INDEX i)) %
      s.sqEntries i))).map fun j => (s.get (R.QUE_SQ_CTRL.INDEX i) + j) % s.sqEntries i) := by
  have goes : ¬ (!s.mayFetch i || s.inFlight i != 0) = true := by simp [may, none_out]
  rw [State.fetchRing, if_neg goes]
  exact s.reading_foldl i _ _

theorem State.Posts.reading (s : State) (i : Nat) (es : List Nat) : s.Posts (s.reading i es) :=
  ⟨rfl, fun f _ => State.get_of_regs rfl f, rfl⟩

theorem State.Posts.fetchRing (s : State) (i : Nat) : s.Posts (s.fetchRing i) := by
  cases goes : !s.mayFetch i || s.inFlight i != 0 with
  | true => exact (show s.fetchRing i = s.noteHold i from if_pos goes) ▸ State.Posts.noteHold s i
  | false =>
    rw [Bool.or_eq_false_iff, Bool.not_eq_false'] at goes
    rw [State.fetchRing_bursts goes.1 (by simpa using goes.2)]
    exact .reading s i _

/-! ### What goes out goes out behind what went before -/

/-- What has been sent from `s` to `t` follows what had been sent. -/
def State.Sends (s t : State) : Prop := ∃ l, t.out = s.out ++ l

theorem State.Sends.refl (s : State) : s.Sends s := ⟨[], by simp⟩

theorem State.Sends.of_out {s t : State} (h : t.out = s.out) : s.Sends t := ⟨[], by simp [h]⟩

theorem State.Sends.trans {s t u : State} (h : s.Sends t) (k : t.Sends u) : s.Sends u := by
  obtain ⟨l, h⟩ := h
  obtain ⟨m, k⟩ := k
  exact ⟨l ++ m, by rw [k, h, List.append_assoc]⟩

/-- From `s` to `t` a ring has fetched: its reads have gone out, or it is held. -/
structure State.Fetches (s t : State) : Prop where
  held : t.que.cqHeld = s.que.cqHeld
  head : t.que.cqHead = s.que.cqHead
  waiting : t.cxl.waiting = s.cxl.waiting
  get : ∀ f : Field, f.key ≠ R.QUE_RING_ERRORS.CQ_FULL_STALLS.key → t.get f = s.get f
  sends : s.Sends t

theorem State.noteHold_fetches (s : State) (i : Nat) : s.Fetches (s.noteHold i) := by
  unfold State.noteHold
  dsimp only
  split
  · exact ⟨rfl, rfl, rfl, fun f other => (State.get_of_regs (s := s.bump R.QUE_RING_ERRORS.CQ_FULL_STALLS) rfl f).trans
      (State.get_put_other _ _ other), .of_out rfl⟩
  · exact ⟨rfl, rfl, rfl, fun _ _ => rfl, .refl s⟩

theorem State.fetchRing_fetches (s : State) (i : Nat) : s.Fetches (s.fetchRing i) := by
  cases goes : !s.mayFetch i || s.inFlight i != 0 with
  | true => exact (show s.fetchRing i = s.noteHold i from if_pos goes) ▸ s.noteHold_fetches i
  | false =>
    rw [Bool.or_eq_false_iff, Bool.not_eq_false'] at goes
    rw [State.fetchRing_bursts goes.1 (by simpa using goes.2)]
    exact ⟨rfl, rfl, rfl, fun f _ => State.get_of_regs rfl f, _, rfl⟩

/-- A record that is written goes to the ring's tail, which goes on. -/
theorem State.writeCq_shows (s : State) (i : Nat) (c : Completion) :
    let t := s.writeCq i c
    t.que.cqHeld = s.que.cqHeld ∧ t.que.cqHead = s.que.cqHead ∧ t.cxl.waiting = s.cxl.waiting ∧
      t.get (R.QUE_CQ_CTRL.INDEX i) = (s.get (R.QUE_CQ_CTRL.INDEX i) + 1) % s.cqEntries i % 2 ^ (R.QUE_CQ_CTRL.INDEX i).width ∧
      t.out = s.out ++ [.hostWrite (s.get (R.QUE_CQ_BASE.BASE i) * 4096 + 32 * s.get (R.QUE_CQ_CTRL.INDEX i))
        (completionBytes c (phaseOf (Table.get 0 i s.que.cqPass)) i (s.get (R.QUE_SQ_CTRL.INDEX i)))] := by
  unfold State.writeCq
  extract_lets tail pass bytes next sent indexed _ moved _ onward told
  have index : moved.get (R.QUE_CQ_CTRL.INDEX i) = next % 2 ^ (R.QUE_CQ_CTRL.INDEX i).width :=
    (State.get_of_regs (s := indexed) rfl _).trans (State.get_put_same _ _ _)
  have kept : onward.que.cqHeld = s.que.cqHeld ∧ onward.que.cqHead = s.que.cqHead ∧ onward.cxl = s.cxl ∧ onward.regs = moved.regs ∧
      onward.out = sent.out := by
    unfold onward
    split <;> exact ⟨rfl, rfl, rfl, rfl, rfl⟩
  obtain ⟨held, head, cxl, regs, out⟩ := kept
  unfold told
  split
  · exact ⟨held, head, (congrArg Cxl.waiting cxl :), (State.get_of_regs regs _).trans index, out⟩
  · exact ⟨held, head, congrArg Cxl.waiting cxl, (State.get_of_regs regs _).trans index, out⟩

/-- One held record of a ring that takes it is written. -/
theorem State.drainCq_one {s : State} {i : Nat} {c : Completion} (held : Table.get [] i s.que.cqHeld = [c]) (open_ : s.cqOpen i = true) :
    s.drainCq i = ({ s with que := { s.que with cqHeld := Table.set [] i [] s.que.cqHeld } }).writeCq i c := by
  rw [State.drainCq, held]
  change s.drainCqN i 1 = _
  rw [State.drainCqN, held]
  exact if_pos open_

/-! ### Packets read -/

theorem opSpec_congr {s t : State} (runs : t.inSchedule = s.inSchedule)
    (rings : ∀ j, t.get (R.QUE_TR_CTRL.ENABLE j) = s.get (R.QUE_TR_CTRL.ENABLE j)) (p : Packet) : opSpec t p = opSpec s p := by
  unfold opSpec State.isSet
  simp only [runs, rings]

theorem commonCheck_congr {s t : State} (runs : t.inSchedule = s.inSchedule)
    (rings : ∀ j, t.get (R.QUE_TR_CTRL.ENABLE j) = s.get (R.QUE_TR_CTRL.ENABLE j))
    (tenants : ∀ j, t.get (R.QUE_TR_CTRL.TENANT j) = s.get (R.QUE_TR_CTRL.TENANT j))
    (admin : ∀ i, t.get (R.QUE_SQ_CTRL.ADMIN i) = s.get (R.QUE_SQ_CTRL.ADMIN i))
    (tenant : ∀ i, t.get (R.QUE_SQ_CTRL.TENANT i) = s.get (R.QUE_SQ_CTRL.TENANT i)) (p : Packet) : commonCheck t p = commonCheck s p := by
  have rights : unauthorised t p = unauthorised s p := by
    unfold unauthorised State.isSet
    simp only [tenants, admin, tenant]
  rw [commonCheck, opSpec_congr runs rings, rights, commonCheck]

section
variable {s : State} {r k : Nat}

/-- The state in which a packet's read has answered: the head is past it. -/
def State.past (s : State) (r k : Nat) : State :=
  { s with que := { s.que with fetches := [] } }.put (R.QUE_SQ_CTRL.INDEX r) ((k + 1) % s.sqEntries r)

theorem State.past_get (s : State) (r k : Nat) {f : Field} (other : f.key ≠ (R.QUE_SQ_CTRL.INDEX r).key) : (s.past r k).get f = s.get f :=
  (State.get_put_other _ _ other).trans (State.get_of_regs rfl f)

theorem State.past_index (s : State) (r k : Nat) :
    (s.past r k).get (R.QUE_SQ_CTRL.INDEX r) = (k + 1) % s.sqEntries r % 2 ^ (R.QUE_SQ_CTRL.INDEX r).width := State.get_put_same _ _ _

theorem State.rdcurr_packet (only : s.que.fetches = [⟨r, k, none⟩]) (data : Option Bytes) (img : Option ModelImage) :
    s.rdcurr r data img = (({ s with que := { s.que with fetches := [] } }).packetRead ⟨r, k, none⟩ data img).fetchRing r := by
  rw [State.rdcurr, only]
  simp

theorem State.rdcurr_payload {no : Nat} (only : s.que.fetches = [⟨r, k, some no⟩]) (data : Option Bytes) (img : Option ModelImage) :
    s.rdcurr r data img = (({ s with que := { s.que with fetches := [] } }).payloadIn no data).fetchRing r := by
  rw [State.rdcurr, only]
  simp

/-- A packet whose payload is still to be read, its read in flight. -/
def State.paying (s : State) (r k : Nat) (p : Packet) (img : Option ModelImage) : State :=
  let t := ((s.past r k).holding ((s.past r k).nextTicket p none img)).emit (.hostRead p.payloadAddr p.payloadLen)
  { t with que := { t.que with fetches := [⟨r, k, some s.que.nextNo⟩] } }

/-- A whole packet that passes its checks has its payload read. -/
theorem State.packetRead_pays {b : Bytes} {img : Option ModelImage} (hr : r < 16) (idle : s.que.tickets = [])
    (check : commonCheck s (packetOf r (fit 64 b)) = none) (reads : readsPayload s (packetOf r (fit 64 b)) = true) (open_ : s.d2hOpen = true) :
    ({ s with que := { s.que with fetches := [] } }).packetRead ⟨r, k, none⟩ (some b) img = s.paying r k (packetOf r (fit 64 b)) img := by
  have past {f : Field} (other : f.key ≠ (R.QUE_SQ_CTRL.INDEX r).key) := s.past_get r k other
  have unread : ({ s with que := { s.que with fetches := [] } } : State).put (R.QUE_SQ_CTRL.INDEX r)
      ((k + 1) % ({ s with que := { s.que with fetches := [] } } : State).sqEntries r) = s.past r k := rfl
  have p_ring : (packetOf r (fit 64 b)).ring = r := rfl
  rw [State.packetRead]
  dsimp only
  rw [unread]
  generalize packetOf r (fit 64 b) = p at *
  have runs : (s.past r k).inSchedule = s.inSchedule := by
    unfold State.inSchedule State.frwState
    rw [past (by simp only [Field.key, R.FRW_STATE.STATE, R.QUE_SQ_CTRL.INDEX]; omega)]
  have rings (j : Nat) : (s.past r k).get (R.QUE_TR_CTRL.ENABLE j) = s.get (R.QUE_TR_CTRL.ENABLE j) :=
    past (by simp only [Field.key, R.QUE_TR_CTRL.ENABLE, R.QUE_SQ_CTRL.INDEX]; omega)
  have check' : commonCheck (s.past r k) p = none := by
    refine (commonCheck_congr runs rings (fun j => past ?_) (fun j => past ?_) (fun j => past ?_) p).trans check
    · simp only [Field.key, R.QUE_TR_CTRL.TENANT, R.QUE_SQ_CTRL.INDEX]; omega
    · simp only [Field.key, R.QUE_SQ_CTRL.ADMIN, R.QUE_SQ_CTRL.INDEX]; omega
    · simp only [Field.key, R.QUE_SQ_CTRL.TENANT, R.QUE_SQ_CTRL.INDEX]; omega
  have reads' : readsPayload (s.past r k) p = true := by rwa [readsPayload, opSpec_congr runs rings, ← readsPayload]
  have open' : (s.past r k).d2hOpen = true := by
    refine Eq.trans ?_ open_
    unfold State.d2hOpen State.isSet
    rw [past (by simp only [Field.key, R.CXLU_STATUS.LINK_UP, R.QUE_SQ_CTRL.INDEX]; omega),
      past (by simp only [Field.key, R.CXLU_STATUS.BUS_MASTER, R.QUE_SQ_CTRL.INDEX]; omega),
      past (by simp only [Field.key, R.CXLU_CTRL.IDE_REQUIRED, R.QUE_SQ_CTRL.INDEX]; omega),
      past (by simp only [Field.key, R.CXLU_STATUS.IDE_IO, R.QUE_SQ_CTRL.INDEX]; omega),
      past (by simp only [Field.key, R.CXLU_STATUS.IDE_CM, R.QUE_SQ_CTRL.INDEX]; omega)]
  have idle' : (s.past r k).que.tickets = [] := idle
  have no : (s.past r k).que.nextNo = s.que.nextNo ∧ (s.past r k).que.fetches = [] := ⟨rfl, rfl⟩
  have opened : (s.past r k).openTicket (.host p.ring) p none img =
      ((s.past r k).holding ((s.past r k).nextTicket p none img), (s.past r k).que.nextNo) := by
    simp [State.openTicket, State.holding, State.counted, idle', State.nextTicket]
  have taken : (s.past r k).takeIn p img = ((s.past r k).holding ((s.past r k).nextTicket p none img), (s.past r k).que.nextNo, true) := by
    rw [State.takeIn, opened]
    dsimp only
    rw [commonCheck_holding, check']
  rw [taken]
  dsimp only
  have readsHeld : readsPayload ((s.past r k).holding ((s.past r k).nextTicket p none img)) p = true := reads'
  have openHeld : ((s.past r k).holding ((s.past r k).nextTicket p none img)).d2hOpen = true := open'
  rw [if_neg (by decide), if_pos readsHeld, State.d2h, if_pos openHeld, State.paying]
  exact congrArg (fun l => { (((s.past r k).holding ((s.past r k).nextTicket p none img)).emit (.hostRead p.payloadAddr p.payloadLen)) with
    que := { (((s.past r k).holding ((s.past r k).nextTicket p none img)).emit (.hostRead p.payloadAddr p.payloadLen)).que with
      fetches := ⟨r, k, some s.que.nextNo⟩ :: l } }) no.2

end

/-! ### Doorbells -/

section
variable {s : State} {on : Bool} {size index : Nat} {f : State → State}

theorem State.doorbell_nonlead (reach : s.hostReaches = true) (boot : s.isSet R.GLB_READY.BOOT_OK = true) (other : s.isLead = false) :
    s.doorbell on size index f = s.bump R.CXLU_ERRORS.NONLEAD_DOORBELLS := by
  simp [State.doorbell, reach, boot, other]

theorem State.doorbell_taken (reach : s.hostReaches = true) (boot : s.isSet R.GLB_READY.BOOT_OK = true) (lead : s.isLead = true)
    (enabled : on = true) (inside : index < size) : s.doorbell on size index f = f s := by
  simp [State.doorbell, reach, boot, lead, enabled, inside]

end

end Sys2Proof.Machine

open Sys2Proof Sys2Proof.Machine

/-- Settles O54: each doorbell and each answer of a read taken through the checks, the ring's own step, and the fetching that follows. -/
theorem rings : Obligations.Rings := by
  intro s r index alive reach boot hindex F n head
  refine ⟨fun idle other hr => ?_, fun idle lead => ⟨fun hr inside may none_out => ?_, fun c hr inside on open_ held room => ?_,
    fun hr inside on => ?_, fun none_read data img => ?_, fun k img hr only => ⟨?_, ?_⟩⟩, fun T k i img only origin fetch => ?_⟩
  · have counts {c : Instr} {kind : Nat} (runs : exec c s = s.act fun s => s.ringDoorbell kind r index)
        (effect : s.ringDoorbell kind r index = s.bump R.CXLU_ERRORS.NONLEAD_DOORBELLS) : Completes c s fun t =>
        t.get R.CXLU_ERRORS.NONLEAD_DOORBELLS =
          min (2 ^ R.CXLU_ERRORS.NONLEAD_DOORBELLS.width - 1) (s.get R.CXLU_ERRORS.NONLEAD_DOORBELLS + 1) ∧ t.que = s.que ∧
            s.leaves t [R.CXLU_ERRORS.NONLEAD_DOORBELLS] :=
      completes_act (f := fun s => s.ringDoorbell kind r index) alive runs effect idle rfl
        ⟨State.get_bump_same _ _ _, rfl, s.leaves_bump _ _⟩
    intro c hc
    fin_cases hc
    · exact counts rfl ((s.ringDoorbell_sq hr hindex).trans (State.doorbell_nonlead reach boot other))
    · exact counts rfl ((s.ringDoorbell_cq hr hindex).trans (State.doorbell_nonlead reach boot other))
    · exact counts rfl ((s.ringDoorbell_tr (by omega) hindex).trans (State.doorbell_nonlead reach boot other))
  · have enabled : s.isSet (R.QUE_SQ_CTRL.ENABLE r) = true := by
      simp only [State.mayFetch, Bool.and_eq_true] at may
      exact may.1.1.2
    have fetches := State.fetchRing_bursts (s := { s with que := { s.que with sqTail := Table.set 0 r index s.que.sqTail } }) (i := r) may none_out
    have tail : Table.get 0 r (Table.set 0 r index s.que.sqTail) = index := Table.get_set_same ..
    refine completes_act (f := fun s => s.ringDoorbell 0 r index) alive rfl ((s.ringDoorbell_sq hr hindex).trans
      ((State.doorbell_taken reach boot lead enabled inside).trans fetches)) idle rfl ⟨rfl, ?_, rfl, fun f => State.get_of_regs rfl f⟩
    change s.out ++ ((List.range (min 8 ((Table.get 0 r (Table.set 0 r index s.que.sqTail) + n - head) % n))).map fun j =>
      (head + j) % n).map (fun e => Output.hostRead (s.get (R.QUE_SQ_BASE.BASE r) * 4096 + 64 * e) 64) = _
    rw [tail, List.map_map]
    rfl
  · set u : State := { s with que := { s.que with cqHead := Table.set 0 r index s.que.cqHead } } with hu
    have u_head : Table.get 0 r u.que.cqHead = index := Table.get_set_same ..
    have full : u.cqFull r = false := by
      rw [State.cqFull, u_head]
      exact beq_false_of_ne room
    have open' : u.cqOpen r = true := by
      rw [State.cqOpen, full]
      change (s.isSet (R.QUE_CQ_CTRL.ENABLE r) && s.d2hOpen && !false) = true
      rw [on, open_]
      rfl
    set v : State := { u with que := { u.que with cqHeld := Table.set [] r [] u.que.cqHeld } } with hv
    have drained : u.drainCq r = v.writeCq r c := State.drainCq_one held open'
    have v_held : Table.get [] r v.que.cqHeld = [] := Table.get_set_same (d := []) (v := []) ..
    obtain ⟨kept_held, kept_head, -, index_, out⟩ := v.writeCq_shows r c
    have posts : s.Posts ((v.writeCq r c).fetchRing r) :=
      ((State.Posts.rings s).trans (.writeCq v r c)).trans (.fetchRing _ r)
    have fetches := (v.writeCq r c).fetchRing_fetches r
    have resumed : u.resumeRing r = (v.writeCq r c).fetchRing r := by rw [State.resumeRing, drained]
    obtain ⟨l, more⟩ := fetches.sends
    refine completes_act (f := fun s => s.ringDoorbell 1 r index) alive rfl ((s.ringDoorbell_cq hr hindex).trans
      ((State.doorbell_taken reach boot lead on inside).trans resumed)) (posts.tickets.trans idle) posts.pending ⟨?_, ?_, ?_, l, ?_⟩
    · rw [fetches.held, kept_held, v_held]
    · rw [fetches.head, kept_head]
      exact u_head
    · exact (fetches.get _ (by simp only [Field.key, R.QUE_CQ_CTRL.INDEX, R.QUE_RING_ERRORS.CQ_FULL_STALLS]; omega)).trans index_
    · rw [more, out, List.append_assoc]
      rfl
  · exact completes_act (f := fun s => s.ringDoorbell 2 r index) alive rfl ((s.ringDoorbell_tr hr hindex).trans
      (State.doorbell_taken reach boot lead on inside)) idle rfl ⟨rfl, rfl, rfl, fun f _ => State.get_of_regs rfl f⟩
  · have none_found : s.que.fetches.find? (fun f => f.ring == r) = none :=
      List.find?_eq_none.2 fun f hf => by simpa using none_read f hf
    refine completes_act (t := s) (f := fun s => s.rdcurr r data img) alive rfl ?_ idle rfl rfl
    rw [State.rdcurr, none_found]
  · set u := (s.past r k).draw.draw.bump F with hu
    set record : Completion := ⟨(s.past r k).freeVal % 2 ^ 32, (s.past r k).draw.freeVal % 256, .rejFormat, true, 0xFE,
      (s.past r k).draw.draw.self, 0, 0⟩ with hrecord
    have runs : s.rdcurr r none img = (u.postCq r record).fetchRing r := State.rdcurr_packet only none img
    have posts : u.Posts ((u.postCq r record).fetchRing r) := (State.Posts.postCq u r record).trans (.fetchRing _ r)
    have counted : u.get F = min (2 ^ F.width - 1) (s.get F + 1) := by
      refine (State.get_bump_same _ _ _).trans ?_
      have same : (s.past r k).draw.draw.get F = s.get F := (State.get_of_regs rfl F).trans
        (s.past_get r k (by simp only [Field.key, F, R.QUE_RING_ERRORS.FETCH_ERRORS, R.QUE_SQ_CTRL.INDEX]; omega))
      rw [same]
    have index_ : u.get (R.QUE_SQ_CTRL.INDEX r) = (k + 1) % n % 2 ^ (R.QUE_SQ_CTRL.INDEX r).width :=
      (State.get_put_other _ _ (by simp only [Field.key, F, R.QUE_RING_ERRORS.FETCH_ERRORS, R.QUE_SQ_CTRL.INDEX]; omega)).trans
        ((State.get_of_regs rfl _).trans (s.past_index r k))
    have kept : u.que.tickets = s.que.tickets ∧ u.mem = s.mem ∧ u.pending = s.pending := ⟨rfl, rfl, rfl⟩
    clear_value u record
    refine completes_act (f := fun s => s.rdcurr r none img) alive rfl runs (posts.tickets.trans (kept.1.trans idle))
      (posts.pending.trans kept.2.2) ⟨(posts.get F ⟨by decide, .inl (by decide)⟩).trans counted, (posts.get _ ?_).trans index_,
        posts.tickets.trans (kept.1.trans idle), posts.mem.trans kept.2.1⟩
    refine ⟨(by decide : 16 < 64), .inr ⟨?_, ?_⟩⟩ <;> simp only [R.QUE_SQ_CTRL.INDEX] <;> omega
  · intro b p check reads open_
    set u := s.paying r k p img with hu
    have runs : s.rdcurr r (some b) img = u.fetchRing r :=
      (State.rdcurr_packet only (some b) img).trans (congrArg (State.fetchRing · r) (State.packetRead_pays hr idle check reads open_))
    have posts : u.Posts (u.fetchRing r) := .fetchRing u r
    have ticket : u.que.tickets = [s.nextTicket p none img] := rfl
    have sent : Output.hostRead p.payloadAddr p.payloadLen ∈ u.out := List.mem_append_right _ (.head _)
    have index_ : u.get (R.QUE_SQ_CTRL.INDEX r) = (k + 1) % n % 2 ^ (R.QUE_SQ_CTRL.INDEX r).width :=
      (State.get_of_regs rfl _).trans (s.past_index r k)
    have kept : u.mem = s.mem ∧ u.pending = s.pending := ⟨rfl, rfl⟩
    clear_value u
    have still := posts.tickets.trans ticket
    have settles : (u.fetchRing r).settle = u.fetchRing r :=
      State.settle_waits still (State.proceed_idle (State.ticket?_only still) rfl rfl (.inr rfl))
    obtain ⟨l, more⟩ := (u.fetchRing_fetches r).sends
    refine completes_whenAlive (f := fun s => (s.rdcurr r (some b) img).settle) alive rfl ((congrArg State.settle runs).trans settles)
      (posts.pending.trans kept.2) ⟨still, ?_, (posts.get _ ?_).trans index_, posts.mem.trans kept.1⟩
    · rw [more]
      exact List.mem_append_left _ sent
    · refine ⟨(by decide : 16 < 64), .inr ⟨?_, ?_⟩⟩ <;> simp only [R.QUE_SQ_CTRL.INDEX] <;> omega
  · set u := ({ s with que := { s.que with fetches := [] } } : State).bump F with hu
    have u_tickets : u.que.tickets = [T] := only
    set v : State := { u with que := { u.que with tickets := [] } } with hv
    set record : Completion := ⟨T.packet.tag, T.packet.opcode, .rejFormat, true, 0xFE, u.self, 0, 0⟩ with hrecord
    have finished : u.finishWith T.no .rejFormat 0xFE = v.postCq i record := State.finish_only _ u_tickets origin
    have runs : s.rdcurr r none img = (v.postCq i record).fetchRing r :=
      (State.rdcurr_payload fetch none img).trans (congrArg (State.fetchRing · r) finished)
    have posts : v.Posts ((v.postCq i record).fetchRing r) := (State.Posts.postCq v i record).trans (.fetchRing _ r)
    have counted : v.get F = min (2 ^ F.width - 1) (s.get F + 1) := (State.get_of_regs rfl F).trans (State.get_bump_same _ _ _)
    have kept : v.que.tickets = [] ∧ v.mem = s.mem ∧ v.pending = s.pending := ⟨rfl, rfl, rfl⟩
    clear_value v
    exact completes_act (f := fun s => s.rdcurr r none img) alive rfl runs (posts.tickets.trans kept.1) (posts.pending.trans kept.2.2)
      ⟨(posts.get F ⟨by decide, .inl (by decide)⟩).trans counted, posts.tickets.trans kept.1, posts.mem.trans kept.2.1⟩
end

section
/-! SUPPORT. Interrupts and the upstream port's resets (R489 to R492, R502). -/

namespace Sys2Proof.Machine

/-! ### Messages -/

/-- A message that may go out goes out, and begins its vector's hold-off. -/
theorem State.message_sent {s : State} {v : Nat} (free : v ∉ s.cxl.holdoff) (open_ : s.d2hOpen = true) :
    s.message v = { s.emit (.msix v) with
      cxl := { s.cxl with holdoff := if s.get R.CXLU_CTRL.IRQ_HOLDOFF_NS = 0 then s.cxl.holdoff else s.cxl.holdoff ++ [v] } } := by
  have sent : s.d2h (.msix v) = s.emit (.msix v) := if_pos open_
  rw [State.message, if_neg (by simpa using free), sent]
  change (if (s.get R.CXLU_CTRL.IRQ_HOLDOFF_NS == 0) = true then _ else _) = _
  by_cases zero : s.get R.CXLU_CTRL.IRQ_HOLDOFF_NS = 0
  · rw [if_pos (by simpa using zero), if_pos zero]
    rfl
  · rw [if_neg (by simpa using zero), if_neg zero]
    rfl

/-- The last response that a wanted message waits for. -/
theorem State.pulled_last {s : State} {v : Nat} (last : Table.get 0 v s.cxl.goWait = 1) (wanted : v ∈ s.cxl.irqWant) :
    s.pulled v = ({ s with cxl := { s.cxl with
      goWait := Table.set 0 v (Table.get 0 v s.cxl.goWait - 1) s.cxl.goWait, irqWant := s.cxl.irqWant.filter fun x => x != v } } : State).message v := by
  refine (if_neg (by simp [last])).trans (if_pos ?_)
  simp [last, wanted]

/-- A vector out of its hold-off. -/
def State.endHoldoff (s : State) (v : Nat) : State :=
  { s with cxl := { s.cxl with holdoff := s.cxl.holdoff.filter fun x => x != v, irqDue := s.cxl.irqDue.filter fun x => x != v } }

theorem State.holdoffEnds_held {s : State} {v : Nat} (held : v ∈ s.cxl.holdoff) :
    s.holdoffEnds v = if s.cxl.irqDue.contains v then (s.endHoldoff v).message v else s.endHoldoff v :=
  if_neg (by simp [held])

/-! ### What waits goes out -/

/-- From `s` to `t` rings have gone on: nothing that waits at the port has come or gone, and what is sent follows what was. -/
structure State.Resumes (s t : State) : Prop where
  posts : s.Posts t
  waiting : t.cxl.waiting = s.cxl.waiting
  sends : s.Sends t

namespace State.Resumes

variable {s t u : State}

theorem refl (s : State) : s.Resumes s := ⟨.refl s, rfl, .refl s⟩

theorem trans (h : s.Resumes t) (k : t.Resumes u) : s.Resumes u :=
  ⟨h.posts.trans k.posts, k.waiting.trans h.waiting, h.sends.trans k.sends⟩

theorem fetchRing (s : State) (i : Nat) : s.Resumes (s.fetchRing i) :=
  ⟨.fetchRing s i, (s.fetchRing_fetches i).waiting, (s.fetchRing_fetches i).sends⟩

theorem drainCqN (s : State) (i n : Nat) : s.Resumes (s.drainCqN i n) := by
  induction n generalizing s with
  | zero => exact refl s
  | succ n ih =>
    rw [State.drainCqN]
    split
    · exact refl s
    · next c rest _ =>
      split
      · have taken : s.Resumes { s with que := { s.que with cqHeld := Table.set [] i rest s.que.cqHeld } } := ⟨.rings s, rfl, .of_out rfl⟩
        have written (u : State) : u.Resumes (u.writeCq i c) := by
          obtain ⟨-, -, waiting, -, out⟩ := u.writeCq_shows i c
          exact ⟨.writeCq u i c, waiting, _, out⟩
        exact taken.trans ((written _).trans (ih _))
      · exact refl s

theorem resumeRing (s : State) (i : Nat) : s.Resumes (s.resumeRing i) := (drainCqN s i _).trans (fetchRing _ i)

theorem resumeRings (s : State) (l : List Nat) : s.Resumes (l.foldl (fun (s : State) i => s.resumeRing i) s) :=
  List.foldlRecOn (motive := s.Resumes) _ _ (refl s) fun _ h i _ => h.trans (resumeRing _ i)

end State.Resumes

theorem State.emits_eq (s : State) (l : List Output) :
    l.foldl (fun (s : State) o => s.emit o) s = { s with out := s.out ++ l } := by
  induction l generalizing s with
  | nil => simp
  | cons o l ih =>
    rw [List.foldl_cons, ih, State.emit]
    simp

/-- Where D2H traffic may flow, what waited goes out, and then the rings go on. -/
theorem State.reopen_open {s : State} (open_ : s.d2hOpen = true) :
    s.Posts s.reopen ∧ s.reopen.cxl.waiting = [] ∧ ∃ l, s.reopen.out = s.out ++ s.cxl.waiting ++ l := by
  have shape : s.reopen = (List.range 16).foldl (fun (s : State) i => s.resumeRing i)
      (s.cxl.waiting.foldl (fun (s : State) o => s.emit o) { s with cxl := { s.cxl with waiting := [] } }) := by
    rw [State.reopen, open_]
    rfl
  rw [State.emits_eq] at shape
  set u : State := { ({ s with cxl := { s.cxl with waiting := [] } } : State) with out := s.out ++ s.cxl.waiting } with hu
  have flushed : s.Posts u := ⟨rfl, fun f _ => State.get_of_regs rfl f, rfl⟩
  have waiting : u.cxl.waiting = [] := rfl
  have out : u.out = s.out ++ s.cxl.waiting := rfl
  clear_value u
  obtain ⟨posts, kept, l, sends⟩ := State.Resumes.resumeRings u (List.range 16)
  rw [shape]
  exact ⟨flushed.trans posts, kept.trans waiting, l, by rw [sends, out]⟩

theorem State.posts_reopen (s : State) : s.Posts s.reopen := by
  cases open_ : s.d2hOpen with
  | true => exact (State.reopen_open open_).1
  | false =>
    have stays : s.reopen = s := by simp [State.reopen, open_]
    rw [stays]
    exact .refl s

/-! ### The host is lost -/

/-- Steps that each clear their own field, and set none of the others, clear them all. -/
theorem foldl_clears {step : State → Nat → State} {F : Nat → Field} (sets : ∀ s j, (step s j).isSet (F j) = false)
    (keeps : ∀ s i j, s.isSet (F i) = false → (step s j).isSet (F i) = false) (s : State) {n i : Nat} (hi : i < n) :
    ((List.range n).foldl step s).isSet (F i) = false := by
  induction n with
  | zero => omega
  | succ n ih =>
    rw [List.range_succ, List.foldl_append]
    by_cases last : i = n
    · exact last ▸ sets _ i
    · exact keeps _ _ _ (ih (by omega))

theorem State.isSet_putBit_clear {s : State} {f g : Field} (w : 0 < g.width) (sep : f = g ∨ f.key ≠ g.key) (h : s.isSet f = false) :
    (s.putBit g false).isSet f = false := by
  rcases sep with rfl | other
  · exact State.isSet_putBit w false
  · rw [State.isSet_putBit_other _ _ other, h]

/-- Submission and completion ring `i` disabled, its reads forgotten. -/
def State.disableRing (s : State) (i : Nat) : State :=
  ((s.putBit (R.QUE_SQ_CTRL.ENABLE i) false).putBit (R.QUE_CQ_CTRL.ENABLE i) false).dropFetches i

/-- Every ring disabled. -/
def State.disableRings (s : State) : State :=
  (List.range 256).foldl (fun (s : State) j => s.putBit (R.QUE_TR_CTRL.ENABLE j) false) ((List.range 16).foldl State.disableRing s)

/-- Disabling rings changes their enable bits and forgets reads; registers below and above those of the rings stay. -/
theorem State.disableRings_keeps (s : State) :
    s.disableRings = { s with regs := s.disableRings.regs, que := { s.que with fetches := s.disableRings.que.fetches } } ∧
      ∀ f : Field, f.key < 0x10108 * 64 ∨ 0x20000 * 64 ≤ f.key → s.disableRings.get f = s.get f := by
  let Kept (t : State) : Prop := t = { s with regs := t.regs, que := { s.que with fetches := t.que.fetches } } ∧
    ∀ f : Field, f.key < 0x10108 * 64 ∨ 0x20000 * 64 ≤ f.key → t.get f = s.get f
  have put {t : State} {f : Field} (h : Kept t) (inside : 0x10108 * 64 ≤ f.key ∧ f.key < 0x20000 * 64) : Kept (t.putBit f false) := by
    refine ⟨?_, fun g hg => (State.get_put_other _ _ (by omega)).trans (h.2 g hg)⟩
    rw [h.1]
    rfl
  have drop {t : State} (h : Kept t) (i : Nat) : Kept (t.dropFetches i) := by
    refine ⟨?_, fun g hg => (State.get_of_regs rfl g).trans (h.2 g hg)⟩
    rw [h.1]
    rfl
  have rings : Kept ((List.range 16).foldl State.disableRing s) := List.foldlRecOn (motive := Kept) _ _ ⟨rfl, fun _ _ => rfl⟩
    fun t h i hi => by
      have lt := List.mem_range.1 hi
      exact drop (put (put h (by simp only [Field.key, R.QUE_SQ_CTRL.ENABLE]; omega)) (by simp only [Field.key, R.QUE_CQ_CTRL.ENABLE]; omega)) i
  exact List.foldlRecOn (motive := Kept) _ _ rings fun t h j hj => by
    have lt := List.mem_range.1 hj
    exact put h (by simp only [Field.key, R.QUE_TR_CTRL.ENABLE]; omega)

/-- No ring is enabled any more. -/
theorem State.disableRings_clears (s : State) :
    (∀ i < 16, s.disableRings.isSet (R.QUE_SQ_CTRL.ENABLE i) = false ∧ s.disableRings.isSet (R.QUE_CQ_CTRL.ENABLE i) = false) ∧
      ∀ j < 256, s.disableRings.isSet (R.QUE_TR_CTRL.ENABLE j) = false := by
  have sq_apart (i j : Nat) : R.QUE_SQ_CTRL.ENABLE i = R.QUE_SQ_CTRL.ENABLE j ∨ (R.QUE_SQ_CTRL.ENABLE i).key ≠ (R.QUE_SQ_CTRL.ENABLE j).key := by
    by_cases same : i = j
    · exact .inl (by rw [same])
    · exact .inr (by simp only [Field.key, R.QUE_SQ_CTRL.ENABLE]; omega)
  have cq_apart (i j : Nat) : R.QUE_CQ_CTRL.ENABLE i = R.QUE_CQ_CTRL.ENABLE j ∨ (R.QUE_CQ_CTRL.ENABLE i).key ≠ (R.QUE_CQ_CTRL.ENABLE j).key := by
    by_cases same : i = j
    · exact .inl (by rw [same])
    · exact .inr (by simp only [Field.key, R.QUE_CQ_CTRL.ENABLE]; omega)
  have tr_apart (i j : Nat) : R.QUE_TR_CTRL.ENABLE i = R.QUE_TR_CTRL.ENABLE j ∨ (R.QUE_TR_CTRL.ENABLE i).key ≠ (R.QUE_TR_CTRL.ENABLE j).key := by
    by_cases same : i = j
    · exact .inl (by rw [same])
    · exact .inr (by simp only [Field.key, R.QUE_TR_CTRL.ENABLE]; omega)
  have sq_cq (i j : Nat) : (R.QUE_SQ_CTRL.ENABLE i).key ≠ (R.QUE_CQ_CTRL.ENABLE j).key := by
    simp only [Field.key, R.QUE_SQ_CTRL.ENABLE, R.QUE_CQ_CTRL.ENABLE]; omega
  have past {f : Field} (low : f.key < 0x11008 * 64) (u : State) (h : u.isSet f = false) :
      ((List.range 256).foldl (fun (s : State) j => s.putBit (R.QUE_TR_CTRL.ENABLE j) false) u).isSet f = false :=
    List.foldlRecOn (motive := fun t : State => t.isSet f = false) _ _ h fun t ht j _ =>
      (State.isSet_putBit_other _ _ (by simp only [Field.key, R.QUE_TR_CTRL.ENABLE] at low ⊢; omega)).trans ht
  refine ⟨fun i hi => ⟨past (by simp only [Field.key, R.QUE_SQ_CTRL.ENABLE]; omega) _ ?_,
    past (by simp only [Field.key, R.QUE_CQ_CTRL.ENABLE]; omega) _ ?_⟩, fun j hj => ?_⟩
  · refine foldl_clears (F := R.QUE_SQ_CTRL.ENABLE) (fun s j => ?_) (fun s i j h => ?_) s hi
    · exact (State.isSet_putBit_other (s.putBit (R.QUE_SQ_CTRL.ENABLE j) false) false (sq_cq j j)).trans (State.isSet_putBit Nat.one_pos false)
    · exact (State.isSet_putBit_other (s.putBit (R.QUE_SQ_CTRL.ENABLE j) false) false (sq_cq i j)).trans (State.isSet_putBit_clear Nat.one_pos (sq_apart i j) h)
  · refine foldl_clears (F := R.QUE_CQ_CTRL.ENABLE) (fun s j => ?_) (fun s i j h => ?_) s hi
    · exact State.isSet_putBit Nat.one_pos false
    · exact State.isSet_putBit_clear Nat.one_pos (cq_apart i j) ((State.isSet_putBit_other _ _ (sq_cq j i).symm).trans h)
  · exact foldl_clears (F := R.QUE_TR_CTRL.ENABLE) (fun _ _ => State.isSet_putBit Nat.one_pos false)
      (fun s i j h => State.isSet_putBit_clear Nat.one_pos (tr_apart i j) h) _ hj

/-- What the loss of the host leaves. -/
structure State.HostLost (s t : State) : Prop where
  eq : t = { s with regs := t.regs, que := t.que, cxl := t.cxl }
  rings : ∀ i < 16, t.isSet (R.QUE_SQ_CTRL.ENABLE i) = false ∧ t.isSet (R.QUE_CQ_CTRL.ENABLE i) = false
  tokens : ∀ j < 256, t.isSet (R.QUE_TR_CTRL.ENABLE j) = false
  held : t.que.cqHeld = []
  tickets : t.que.tickets = s.que.tickets
  count : t.get R.CXLU_ERRORS.DISCARDED_RECORDS =
    min (2 ^ R.CXLU_ERRORS.DISCARDED_RECORDS.width - 1) (s.get R.CXLU_ERRORS.DISCARDED_RECORDS + (s.que.cqHeld.map fun e => e.2.length).sum)
  irqs : t.cxl.goWait = [] ∧ t.cxl.irqWant = [] ∧ t.cxl.holdoff = [] ∧ t.cxl.irqDue = []
  get : ∀ f : Field, f.key < 0x10108 * 64 ∨ 0x20000 * 64 ≤ f.key → f.key ≠ R.CXLU_ERRORS.DISCARDED_RECORDS.key → t.get f = s.get f

theorem State.HostLost.pending {s t : State} (h : s.HostLost t) : t.pending = s.pending := (congrArg State.pending h.eq :)
theorem State.HostLost.mem {s t : State} (h : s.HostLost t) : t.mem = s.mem := (congrArg State.mem h.eq :)
theorem State.HostLost.out {s t : State} (h : s.HostLost t) : t.out = s.out := (congrArg State.out h.eq :)

theorem State.hostLost_lost (s : State) : s.HostLost s.hostLost := by
  have shape : s.hostLost =
      (let u := s.disableRings
       let lost := (u.que.cqHeld.map fun e => e.2.length).sum
       let v := ({ u with que := { u.que with cqHeld := [], cqStalled := [] } }).bump R.CXLU_ERRORS.DISCARDED_RECORDS lost
       { v with cxl := { v.cxl with
          goWait := []
          irqWant := []
          holdoff := []
          irqDue := []
          waiting := v.cxl.waiting.filter fun o => !o.isMsix } }) := rfl
  obtain ⟨eq, get⟩ := s.disableRings_keeps
  obtain ⟨rings, tokens⟩ := s.disableRings_clears
  rw [shape]
  generalize s.disableRings = u at *
  have que : u.que.cqHeld = s.que.cqHeld ∧ u.que.tickets = s.que.tickets := by
    rw [eq]
    exact ⟨rfl, rfl⟩
  have others {f : Field} (other : f.key ≠ R.CXLU_ERRORS.DISCARDED_RECORDS.key) (m : Nat) :
      (({ u with que := { u.que with cqHeld := [], cqStalled := [] } } : State).bump R.CXLU_ERRORS.DISCARDED_RECORDS m).get f = u.get f :=
    (State.get_put_other _ _ other).trans (State.get_of_regs rfl f)
  have enables {f : Field} (low : f.key < 0x20000 * 64) : f.key ≠ R.CXLU_ERRORS.DISCARDED_RECORDS.key := by
    simp only [Field.key, R.CXLU_ERRORS.DISCARDED_RECORDS] at low ⊢
    omega
  refine ⟨?_, fun i hi => ⟨?_, ?_⟩, fun j hj => ?_, rfl, que.2, ?_, ⟨rfl, rfl, rfl, rfl⟩, fun f range other => ?_⟩
  · rw [eq]
    rfl
  · refine (State.isSet_of_get ((State.get_of_regs rfl _).trans (others (enables ?_) _))).trans (rings i hi).1
    simp only [Field.key, R.QUE_SQ_CTRL.ENABLE]; omega
  · refine (State.isSet_of_get ((State.get_of_regs rfl _).trans (others (enables ?_) _))).trans (rings i hi).2
    simp only [Field.key, R.QUE_CQ_CTRL.ENABLE]; omega
  · refine (State.isSet_of_get ((State.get_of_regs rfl _).trans (others (enables ?_) _))).trans (tokens j hj)
    simp only [Field.key, R.QUE_TR_CTRL.ENABLE]; omega
  · refine (State.get_of_regs rfl _).trans ((State.get_bump_same _ _ _).trans ?_)
    rw [que.1]
    have same : ({ u with que := { u.que with cqHeld := [], cqStalled := [] } } : State).get R.CXLU_ERRORS.DISCARDED_RECORDS =
        s.get R.CXLU_ERRORS.DISCARDED_RECORDS := (State.get_of_regs rfl _).trans (get _ (.inr (by decide)))
    rw [same]
  · exact (State.get_of_regs rfl f).trans ((others other _).trans (get f range))

/-! ### The link -/

/-- The fields of the upstream port's status that a loss of the link clears. -/
def downStatus : List Field :=
  [R.CXLU_STATUS.LINK_UP, R.CXLU_STATUS.WIDTH, R.CXLU_STATUS.SPEED, R.CXLU_STATUS.IDE_IO, R.CXLU_STATUS.IDE_CM, R.CXLU_STATUS.SKID]

/-- The upstream port's status without a link. -/
def State.showNoLink (s : State) : State :=
  (((((s.putBit R.CXLU_STATUS.LINK_UP false).put R.CXLU_STATUS.WIDTH 0).put R.CXLU_STATUS.SPEED 0).putBit R.CXLU_STATUS.IDE_IO false).putBit
    R.CXLU_STATUS.IDE_CM false).putBit R.CXLU_STATUS.SKID false

theorem State.showNoLink_shows (s : State) :
    s.showNoLink.isSet R.CXLU_STATUS.LINK_UP = false ∧ s.showNoLink.get R.CXLU_STATUS.WIDTH = 0 ∧
      s.showNoLink.get R.CXLU_STATUS.SPEED = 0 := by
  unfold State.showNoLink
  refine ⟨?_, ?_, ?_⟩
  · rw [State.isSet_putBit_other _ _ (by decide), State.isSet_putBit_other _ _ (by decide), State.isSet_putBit_other _ _ (by decide),
      State.isSet_put_other _ _ (by decide), State.isSet_put_other _ _ (by decide)]
    exact State.isSet_putBit Nat.one_pos false
  · rw [State.putBit, State.get_put_other _ _ (by decide), State.putBit, State.get_put_other _ _ (by decide), State.putBit,
      State.get_put_other _ _ (by decide), State.get_put_other _ _ (by decide)]
    exact State.get_put_fits _ _ (by decide)
  · rw [State.putBit, State.get_put_other _ _ (by decide), State.putBit, State.get_put_other _ _ (by decide), State.putBit,
      State.get_put_other _ _ (by decide)]
    exact State.get_put_fits _ _ (by decide)

theorem State.showNoLink_onlyRegs (s : State) : s.onlyRegs s.showNoLink downStatus :=
  ((((((State.onlyRegs.refl s _).put (by simp [downStatus]) _).put (by simp [downStatus]) _).put (by simp [downStatus]) _).put
    (by simp [downStatus]) _).put (by simp [downStatus]) _).put (by simp [downStatus]) _

/-- With no payload read in flight, what waits to be read is forgotten. -/
theorem State.failReads_none {s : State} (none_out : s.que.fetches = []) :
    s.failReads = { s with que := { s.que with fetches := [] }, cxl := { s.cxl with waiting := s.cxl.waiting.filter fun o => !o.isRead } } := by
  rw [State.failReads, none_out]
  rfl

/-- The credits of the host's requests are forgotten. -/
def State.noCredits (s : State) : State := { s with cxl := { s.cxl with reqUsed := 0, rwdUsed := 0 } }

/-- A loss of the link is counted; the credits of the host's requests are forgotten. -/
def State.countLinkDown (s : State) : State := (s.bump R.CXLU_ERRORS.LINK_DOWNS).noCredits

theorem State.countLinkDown_keeps (s : State) :
    s.countLinkDown.que = s.que ∧ s.countLinkDown.pending = s.pending ∧ s.countLinkDown.mem = s.mem ∧
      s.countLinkDown.get R.CXLU_ERRORS.LINK_DOWNS = min (2 ^ R.CXLU_ERRORS.LINK_DOWNS.width - 1) (s.get R.CXLU_ERRORS.LINK_DOWNS + 1) ∧
      ∀ f : Field, f.key ≠ R.CXLU_ERRORS.LINK_DOWNS.key → s.countLinkDown.get f = s.get f :=
  ⟨rfl, rfl, rfl, (State.get_of_regs rfl _).trans (State.get_bump_same _ _ _), fun f other =>
    (State.get_of_regs rfl f).trans (State.get_put_other _ _ other)⟩

theorem State.linkLost_up {s : State} (up : s.isSet R.CXLU_STATUS.LINK_UP = true) :
    s.linkLost = if s.showNoLink.failReads.hostLost.countLinkDown.isLead then s.showNoLink.failReads.hostLost.countLinkDown.raise evHostLinkDown
      else s.showNoLink.failReads.hostLost.countLinkDown := by
  rw [State.linkLost, up, if_neg (by decide)]
  unfold State.showNoLink State.countLinkDown State.noCredits
  dsimp only

/-- The upstream port's status with a link. -/
def State.showLink (s : State) (width speed : Nat) : State :=
  ((s.putBit R.CXLU_STATUS.LINK_UP true).put R.CXLU_STATUS.WIDTH width).put R.CXLU_STATUS.SPEED speed

theorem State.showLink_onlyRegs (s : State) (width speed : Nat) :
    s.onlyRegs (s.showLink width speed) [R.CXLU_STATUS.LINK_UP, R.CXLU_STATUS.WIDTH, R.CXLU_STATUS.SPEED] :=
  (((State.onlyRegs.refl s _).put (by simp) _).put (by simp) _).put (by simp) _

theorem State.showLink_shows (s : State) {width speed : Nat} (w : width ≤ 16) (v : speed ≤ 4) :
    (s.showLink width speed).isSet R.CXLU_STATUS.LINK_UP = true ∧ (s.showLink width speed).get R.CXLU_STATUS.WIDTH = width ∧
      (s.showLink width speed).get R.CXLU_STATUS.SPEED = speed := by
  unfold State.showLink
  refine ⟨?_, ?_, State.get_put_fits _ _ (show speed < 2 ^ 3 by omega)⟩
  · rw [State.isSet_put_other _ _ (by decide), State.isSet_put_other _ _ (by decide)]
    exact State.isSet_putBit Nat.one_pos true
  · rw [State.get_put_other _ _ (by decide)]
    exact State.get_put_fits _ _ (show width < 2 ^ 5 by omega)

/-- Fields of the upstream port's status stand where no record is written. -/
theorem notPosted_of_status {f : Field} (h : f.lo < 16) : f.notPosted := ⟨by omega, .inl (by omega)⟩

/-- What a loss of the link leaves. -/
theorem completes_linkLost {s : State} (alive : s.alive = true) (idle : s.que.tickets = []) (up : s.isSet R.CXLU_STATUS.LINK_UP = true)
    (none_out : s.que.fetches = []) :
    let B := R.CXLU_STATUS.BUS_MASTER
    let L := R.CXLU_ERRORS.LINK_DOWNS
    Completes .upstreamLinkDown s fun t =>
      t.isSet R.CXLU_STATUS.LINK_UP = false ∧ t.get R.CXLU_STATUS.WIDTH = 0 ∧ t.get R.CXLU_STATUS.SPEED = 0 ∧ t.isSet B = s.isSet B ∧
        t.get L = min (2 ^ L.width - 1) (s.get L + 1) ∧ (∀ i, i < 16 → t.isSet (R.QUE_SQ_CTRL.ENABLE i) = false) ∧ t.que.cqHeld = [] ∧
        (s.isLead = true → bit (t.get R.GLB_ERR_SUMMARY.SEEN) 1 = true) ∧ t.mem = s.mem := by
  intro B L
  let D := R.CXLU_ERRORS.DISCARDED_RECORDS
  obtain ⟨unlinked, lanes, rate⟩ := s.showNoLink_shows
  have shown := s.showNoLink_onlyRegs
  have failed : s.showNoLink.failReads = _ := State.failReads_none none_out
  set u := s.showNoLink.failReads with hu
  have u_get (f : Field) : u.get f = s.showNoLink.get f := by
    rw [failed]
    exact State.get_of_regs rfl f
  have u_kept : u.que.tickets = [] ∧ u.pending = s.pending ∧ u.mem = s.mem := by
    rw [failed]
    exact ⟨idle, rfl, rfl⟩
  have lost := u.hostLost_lost
  have runs := State.linkLost_up up
  rw [← hu] at runs
  generalize u.hostLost = h at *
  obtain ⟨que, pending, mem, count, others⟩ := h.countLinkDown_keeps
  generalize h.countLinkDown = w at *
  have w_count : w.get L = min (2 ^ L.width - 1) (s.get L + 1) := by
    rw [count, lost.get L (.inr (by decide)) (by decide), u_get, shown.get (by decide)]
  have status {f : Field} (range : f.key < 0x10108 * 64 ∨ 0x20000 * 64 ≤ f.key) (other : f.key ≠ D.key) (other' : f.key ≠ L.key) :
      w.get f = s.showNoLink.get f := (others f other').trans ((lost.get f range other).trans (u_get f))
  have lead : w.isLead = s.isLead := by
    unfold State.isLead State.assigned State.isSet
    rw [status (.inl (by decide)) (by decide) (by decide), status (.inl (by decide)) (by decide) (by decide), shown.get (by decide),
      shown.get (by decide)]
  have told : w.Raises (if w.isLead then w.raise evHostLinkDown else w) := by
    split
    · exact .raise w _
    · exact .refl w
  refine completes_act (f := State.linkLost) alive rfl runs ?_ (told.pending.trans (pending.trans (lost.pending.trans u_kept.2.1)))
    ⟨?_, ?_, ?_, ?_, ?_, fun i hi => ?_, ?_, fun leads => ?_, told.mem.trans (mem.trans (lost.mem.trans u_kept.2.2))⟩
  · rw [told.que, que, lost.tickets, u_kept.1]
  · rw [told.isSet (by decide), State.isSet_of_get (status (.inr (by decide)) (by decide) (by decide)), unlinked]
  · rw [told.get (by decide), status (.inr (by decide)) (by decide) (by decide), lanes]
  · rw [told.get (by decide), status (.inr (by decide)) (by decide) (by decide), rate]
  · rw [told.isSet (by decide), State.isSet_of_get (status (.inr (by decide)) (by decide) (by decide)), shown.isSet (by decide)]
  · rw [told.get (by decide), w_count]
  · have apart : ∀ g ∈ errorFields, (R.QUE_SQ_CTRL.ENABLE i).key ≠ g.key := by
      have below : ∀ g ∈ errorFields, g.key < 0x10108 * 64 := by decide
      intro g hg
      have := below g hg
      simp only [Field.key, R.QUE_SQ_CTRL.ENABLE] at this ⊢
      omega
    rw [told.isSet apart, State.isSet_of_get (others _ ?_)]
    · exact (lost.rings i hi).1
    · simp only [Field.key, R.QUE_SQ_CTRL.ENABLE, R.CXLU_ERRORS.LINK_DOWNS]; omega
  · rw [told.que, que, lost.held]
  · rw [lead, leads, if_pos rfl]
    exact w.raise_seen evHostLinkDown (by decide)

end Sys2Proof.Machine

open Sys2Proof Sys2Proof.Machine

/-- Settles O56: messages wait for responses and for the hold-off; the port's resets and its loss disable every ring. -/
theorem upstreamPort : Obligations.UpstreamPort := by
  refine ⟨fun s v alive => ⟨fun none_due => ?_, fun more => ?_, fun last wanted open_ => ⟨fun free => ?_, fun held => ?_⟩, fun free => ?_,
    fun held => ⟨fun none_due => ?_, fun due open_ => ?_⟩⟩, fun s width speed quiet => ?_⟩
  · exact completes_whenAlive (f := fun s => s.pulled v) alive rfl (if_pos (by simpa using none_due)) rfl rfl
  · refine completes_whenAlive (f := fun s => s.pulled v) alive rfl ((if_neg (by simp; omega)).trans (if_neg ?_)) rfl rfl
    simp only [Bool.and_eq_true, beq_iff_eq]
    omega
  · set u : State := { s with cxl := { s.cxl with
      goWait := Table.set 0 v (Table.get 0 v s.cxl.goWait - 1) s.cxl.goWait, irqWant := s.cxl.irqWant.filter fun x => x != v } } with hu
    have runs : s.pulled v = u.message v := State.pulled_last last wanted
    have sent : u.message v = _ := State.message_sent free open_
    refine completes_whenAlive (f := fun s => s.pulled v) alive rfl (runs.trans sent) rfl ⟨rfl, ?_, ?_, ?_, rfl, fun f => State.get_of_regs rfl f⟩
    · rw [last] at hu
      rw [hu]
      exact Table.get_set_same (d := 0) (v := 0) ..
    · simp [hu]
    · change (v ∈ if s.get R.CXLU_CTRL.IRQ_HOLDOFF_NS = 0 then s.cxl.holdoff else s.cxl.holdoff ++ [v]) ↔ _
      split <;> simp_all
  · set u : State := { s with cxl := { s.cxl with
      goWait := Table.set 0 v (Table.get 0 v s.cxl.goWait - 1) s.cxl.goWait, irqWant := s.cxl.irqWant.filter fun x => x != v } } with hu
    have runs : s.pulled v = u.message v := State.pulled_last last wanted
    have waits : u.message v = _ := if_pos (by simpa using held)
    refine completes_whenAlive (f := fun s => s.pulled v) alive rfl (runs.trans waits) rfl ⟨rfl, ?_, ?_, rfl, fun f => State.get_of_regs rfl f⟩
    · change v ∈ if s.cxl.irqDue.contains v then s.cxl.irqDue else s.cxl.irqDue ++ [v]
      split
      · next there => simpa using there
      · simp
    · simp [hu]
  · exact completes_whenAlive (f := fun s => s.holdoffEnds v) alive rfl (if_pos (by simp [free])) rfl rfl
  · have runs := (State.holdoffEnds_held held).trans (if_neg (by simpa using none_due))
    exact completes_whenAlive (f := fun s => s.holdoffEnds v) alive rfl runs rfl ⟨by simp [State.endHoldoff], rfl, rfl, fun f _ => State.get_of_regs rfl f⟩
  · have runs := (State.holdoffEnds_held held).trans (if_pos (by simpa using due))
    have sent : (s.endHoldoff v).message v = _ := State.message_sent (by simp [State.endHoldoff]) open_
    exact completes_whenAlive (f := fun s => s.holdoffEnds v) alive rfl (runs.trans sent) rfl
      ⟨rfl, by simp [State.endHoldoff], rfl, fun f => State.get_of_regs rfl f⟩
  · obtain ⟨alive, idle⟩ := quiet
    intro B D L
    refine ⟨fun reaches => ⟨?_, fun plain => ?_, ?_⟩, fun up none_out => ?_, fun down => ?_, fun present w0 w v0 v => ?_, fun absent => ?_⟩
    · have shut : (s.putBit B false).reopen = s.putBit B false := State.reopen_closed (State.isSet_putBit Nat.one_pos false)
      have only := (State.onlyRegs.refl s [B]).put (.head _) (b2n false)
      exact completes_act (f := fun s => s.busMaster false) alive rfl ((if_neg (by simp [reaches])).trans shut) idle rfl
        ⟨State.isSet_putBit Nat.one_pos false, only.leaves⟩
    · have link : s.isSet R.CXLU_STATUS.LINK_UP = true := by
        simp only [State.hostReaches, Bool.and_eq_true] at reaches
        exact reaches.2
      have on : (s.putBit B true).isSet B = true := State.isSet_putBit Nat.one_pos true
      have open_ : (s.putBit B true).d2hOpen = true := by
        rw [State.d2hOpen, on, State.isSet_putBit_other _ _ (by decide), link, State.isSet_putBit_other _ _ (by decide), plain]
        rfl
      obtain ⟨posts, waiting, l, out⟩ := State.reopen_open open_
      exact completes_act (f := fun s => s.busMaster true) alive rfl (if_neg (by simp [reaches])) (posts.tickets.trans idle) posts.pending
        ⟨(posts.isSet (notPosted_of_status (by decide))).trans on, waiting, ⟨l, out⟩, posts.mem⟩
    · have lost := s.hostLost_lost
      have off {f : Field} (other : f.key ≠ B.key) : (s.hostLost.putBit B false).get f = s.hostLost.get f := State.get_put_other _ _ other
      have runs : (if s.hostReaches then s.functionReset else s) = s.hostLost.putBit B false := if_pos reaches
      generalize s.hostLost = h at *
      refine completes_act (f := fun s => if s.hostReaches then s.functionReset else s) (t := h.putBit B false) alive rfl
        runs (lost.tickets.trans idle) lost.pending ⟨fun i hi => ⟨?_, ?_⟩, fun j hj => ?_,
          State.isSet_putBit Nat.one_pos false, lost.held, (off (by decide)).trans lost.count, lost.irqs.1, lost.irqs.2.1, lost.irqs.2.2.1,
          lost.irqs.2.2.2, lost.mem, lost.out⟩
      · refine (State.isSet_of_get (off ?_)).trans (lost.rings i hi).1
        simp only [Field.key, R.QUE_SQ_CTRL.ENABLE, B, R.CXLU_STATUS.BUS_MASTER]; omega
      · refine (State.isSet_of_get (off ?_)).trans (lost.rings i hi).2
        simp only [Field.key, R.QUE_CQ_CTRL.ENABLE, B, R.CXLU_STATUS.BUS_MASTER]; omega
      · refine (State.isSet_of_get (off ?_)).trans (lost.tokens j hj)
        simp only [Field.key, R.QUE_TR_CTRL.ENABLE, B, R.CXLU_STATUS.BUS_MASTER]; omega
    · exact completes_linkLost alive idle up none_out
    · exact completes_act (f := State.linkLost) alive rfl (if_pos (by simp [down])) idle rfl rfl
    · have goes : (!s.pins.perstN || decide (width = 0 ∨ 16 < width) || decide (speed = 0 ∨ 4 < speed)) = false := by
        simp [present]; omega
      have runs : s.linkTrained width speed = (s.showLink width speed).reopen := if_neg (by rw [goes]; exact Bool.false_ne_true)
      have only := s.showLink_onlyRegs width speed
      obtain ⟨linked, lanes, rate⟩ := s.showLink_shows w v
      have master : (s.showLink width speed).isSet B = s.isSet B := only.isSet (by decide)
      have required : (s.showLink width speed).isSet R.CXLU_CTRL.IDE_REQUIRED = s.isSet R.CXLU_CTRL.IDE_REQUIRED := only.isSet (by decide)
      have kept : (s.showLink width speed).mem = s.mem ∧ (s.showLink width speed).out = s.out ∧
        (s.showLink width speed).cxl = s.cxl ∧ (s.showLink width speed).pending = s.pending := ⟨rfl, rfl, rfl, rfl⟩
      generalize s.showLink width speed = u at *
      have posts := u.posts_reopen
      refine completes_whenAlive (f := fun s => s.linkTrained width speed) alive rfl runs (posts.pending.trans kept.2.2.2)
        ⟨(posts.isSet (notPosted_of_status (by decide))).trans linked, (posts.get _ (notPosted_of_status (by decide))).trans lanes,
          (posts.get _ (notPosted_of_status (by decide))).trans rate, (posts.isSet (notPosted_of_status (by decide))).trans master,
          posts.mem.trans kept.1, fun shut => ?_, fun on plain => ?_⟩
      · rw [State.reopen_closed (master.trans shut)]
        exact only.leaves
      · have open_ : u.d2hOpen = true := by
          rw [State.d2hOpen, linked, master, on, required, plain]
          rfl
        obtain ⟨-, waiting, l, out⟩ := State.reopen_open open_
        rw [kept.2.1, kept.2.2.1] at out
        exact ⟨waiting, l, out⟩
    · exact completes_whenAlive (f := fun s => s.linkTrained width speed) alive rfl (if_pos (by simp [absent])) rfl rfl
end

section
/-!
SUPPORT. A device that loses lock in a furrow while a commit of its own scope waits for the headland: the commit, made as the schedule
stops, takes the staged FRW.STATE.
-/

namespace Sys2Proof.Machine

/-- LOCKED with two excursions, in a RUNNING furrow, with a commit due that has RUNNING staged for FRW.STATE. -/
def State.stateStaged : State :=
  let s := (State.reset.put R.MRD_STATUS.STATE mrdLocked).put R.FRW_STATE.STATE frwRunning
  { s with
    mrd := { s.mrd with excursions := 2 }
    cfg := { s.cfg with deviceCommit := [0], stagedRegs := [(R.FRW_STATE.STATE.key, frwRunning)] } }

/-- The state of the furrows that a command leaves. -/
def Answered.frwState (a : Answered) : Option Nat := match a with
  | .next t => some t.frwState
  | _ => none

/-- The schedule stops, and the commit that is then made has it RUNNING again. -/
theorem stateStaged_runs : Answered.frwState (exec .lockLoss State.stateStaged) = some frwRunning := by decide +kernel

end Sys2Proof.Machine

open Sys2Proof Sys2Proof.Machine

/-- Refutes O31: a loss of lock stops the schedule, and the commit that waited for the headland is made at once; where FRW.STATE itself
is staged the device is RUNNING again, not STOPPED. -/
theorem not_meridian : ¬ Obligations.Meridian := by
  intro holds
  obtain ⟨-, unlocks, -⟩ := holds
  obtain ⟨lost, -⟩ := unlocks State.stateStaged (by decide)
  obtain ⟨t, runs, -, -, -, -, -, stops, -⟩ := (lost _ (.head _)).1 (by decide)
  have running := stateStaged_runs
  rw [runs, Answered.frwState, stops (by decide)] at running
  cases running
end

section
/-!
SUPPORT. Reset and power (O59).
-/

namespace Sys2Proof.Machine

/-! ### The pins when an event is raised -/

theorem State.d2h_pins (s : State) (o : Output) : (s.d2h o).pins = s.pins := by
  unfold State.d2h
  split <;> rfl

theorem State.message_pins (s : State) (v : Nat) : (s.message v).pins = s.pins := by
  unfold State.message
  split
  · rfl
  · dsimp only
    split <;> exact s.d2h_pins _

theorem State.errorIrq_pins (s : State) (cls : Nat) : (s.errorIrq cls).pins = s.pins := by
  unfold State.errorIrq
  split
  · exact s.message_pins _
  · rfl

theorem State.reportEvent_pins (s : State) (new : Bool) (r : ErrRec) : (s.reportEvent new r).pins = s.pins := by
  unfold State.reportEvent
  split <;> rfl

theorem State.appendRecord_pins (s : State) (r : ErrRec) : (s.appendRecord r).1.pins = s.pins := by
  unfold State.appendRecord
  split
  · rfl
  · dsimp only
    split <;> rfl

theorem State.onlySends.pins {s t : State} (h : s.onlySends t) : t.pins = s.pins := by
  rw [State.onlySends] at h
  exact (congrArg State.pins h :)

/-- Only an event of class 7, or one of class 5, drives FAULT_N. -/
theorem State.raise_pins {s : State} {e : Event} (h : e.cls ≠ 5) :
    (s.raise e).pins = if e.cls = 7 then { s.pins with faultN := false } else s.pins := by
  unfold State.raise
  extract_lets seen driven r merged
  have hdriven : driven.pins = if e.cls = 7 then { s.pins with faultN := false } else s.pins := by
    unfold driven State.driveFault
    by_cases seventh : e.cls = 7 <;> simp [seventh, h, seen]
  split
  · exact hdriven
  · have appended := driven.appendRecord_pins r
    split
    next a new made =>
    rw [made] at appended
    extract_lets told _ logged
    have htold : told.pins = a.pins := by
      refine (State.reportEvent_pins _ new r).trans ?_
      split
      · exact a.errorIrq_pins _
      · rfl
    have hlogged : logged.pins = told.pins := by
      unfold logged
      split <;> rfl
    have whole := hlogged.trans (htold.trans (appended.trans hdriven))
    split
    · exact (State.sendCtrl_onlySends _ _ _).pins.trans whole
    · exact whole

/-! ### The link's loss -/

/-- What a loss of the link leaves as it was, where no payload is being read. -/
theorem State.linkLost_keeps {s : State} (up : s.isSet R.CXLU_STATUS.LINK_UP = true) (none_out : s.que.fetches = []) :
    s.linkLost.que.tickets = s.que.tickets ∧ s.linkLost.que.cqHeld = [] ∧ s.linkLost.pending = s.pending ∧ s.linkLost.mem = s.mem ∧
      s.linkLost.sec = s.sec ∧ s.linkLost.frw = s.frw ∧ s.linkLost.pins = s.pins ∧
      s.linkLost.isSet R.CXLU_STATUS.LINK_UP = false := by
  have runs := State.linkLost_up up
  obtain ⟨unlinked, -, -⟩ := s.showNoLink_shows
  have failed : s.showNoLink.failReads = _ := State.failReads_none none_out
  have u_get (f : Field) : s.showNoLink.failReads.get f = s.showNoLink.get f := by
    rw [failed]
    exact State.get_of_regs rfl f
  have u_kept : s.showNoLink.failReads.que.tickets = s.que.tickets ∧ s.showNoLink.failReads.pending = s.pending ∧
      s.showNoLink.failReads.mem = s.mem ∧ s.showNoLink.failReads.sec = s.sec ∧ s.showNoLink.failReads.frw = s.frw ∧
      s.showNoLink.failReads.pins = s.pins := by
    rw [failed]
    exact ⟨rfl, rfl, rfl, rfl, rfl, rfl⟩
  generalize s.showNoLink.failReads = u at *
  have lost := u.hostLost_lost
  generalize u.hostLost = h at *
  have w_kept : h.countLinkDown.sec = h.sec ∧ h.countLinkDown.frw = h.frw ∧ h.countLinkDown.pins = h.pins := ⟨rfl, rfl, rfl⟩
  obtain ⟨que, pending, mem, -, others⟩ := h.countLinkDown_keeps
  generalize h.countLinkDown = w at *
  have told : w.Raises s.linkLost ∧ s.linkLost.pins = w.pins := by
    rw [runs]
    split
    · exact ⟨.raise w _, State.raise_pins (by decide)⟩
    · exact ⟨.refl w, rfl⟩
  obtain ⟨raised, pins⟩ := told
  obtain ⟨tickets, u_pending, u_mem, u_sec, u_frw, u_pins⟩ := u_kept
  obtain ⟨w_sec, w_frw, w_pins⟩ := w_kept
  refine ⟨?_, ?_, ?_, ?_, ?_, ?_, ?_, ?_⟩
  · rw [raised.que, que, lost.tickets, tickets]
  · rw [raised.que, que, lost.held]
  · rw [raised.pending, pending, lost.pending, u_pending]
  · rw [raised.mem, mem, lost.mem, u_mem]
  · exact (congrArg State.sec raised.eq :).trans (w_sec.trans ((congrArg State.sec lost.eq :).trans u_sec))
  · rw [raised.frw]
    exact w_frw.trans ((congrArg State.frw lost.eq :).trans u_frw)
  · exact pins.trans (w_pins.trans ((congrArg State.pins lost.eq :).trans u_pins))
  · rw [raised.isSet (by decide), State.isSet_of_get (others _ (by decide)), State.isSet_of_get (lost.get _ (.inr (by decide)) (by decide)),
      State.isSet_of_get (u_get _), unlinked]

/-! ### The blocks that reset clears -/

/-- A field within its register lies in the register's part of the table. -/
theorem Field.addr_of_key {f : Field} (within : f.lo < 64) : f.key / 64 = f.addr := by
  simp only [Field.key]
  omega

/-- After a reset a field reads as before where its register is kept, else its reset value. -/
theorem State.get_filter {s t : State} {p : Nat → Bool} (h : t.regs = s.regs.filter fun e => p e.1) (f : Field) :
    t.get f = if p f.key then s.get f else f.reset := by
  rw [State.get, h]
  exact Table.get_filter f.reset f.key p s.regs

theorem State.cleared_get (s : State) (f : Field) :
    s.cleared.get f = if inMgt f.key || inEnergy f.key then s.get f else f.reset :=
  State.get_filter (p := fun k => inMgt k || inEnergy k) rfl f

/-- A field outside the management block and the energy counters. -/
theorem notKept {f : Field} (within : f.lo < 64)
    (outside : f.addr < 0x20200 ∨ (0x20500 ≤ f.addr ∧ f.addr < 0x23000) ∨ 0x24000 ≤ f.addr) :
    inMgt f.key = false ∧ inEnergy f.key = false := by
  simp only [inMgt, inEnergy, Field.addr_of_key within, decide_eq_false_iff_not]
  omega

theorem energy_kept {f : Field} (within : f.lo < 64) (low : 0x20200 ≤ f.addr) (high : f.addr < 0x20500) :
    inMgt f.key = false ∧ inEnergy f.key = true := by
  simp only [inMgt, inEnergy, Field.addr_of_key within, decide_eq_false_iff_not, decide_eq_true_eq]
  omega

/-! ### What is released -/

theorem State.released_out {s : State} (held : s.pins.sysRstN = false ∨ s.pins.perstN = false) : s.released = s :=
  if_neg (by rcases held with h | h <;> simp [h])

theorem State.released_runs {s : State} (out : s.pins.sysRstN = true) (up : s.pins.perstN = true) :
    s.released = ({ s with sec := { s.sec with started := true }, cxl := { s.cxl with answers := true } } : State).putBit R.GLB_READY.CXL_CFG true :=
  if_pos (by simp [out, up])

end Sys2Proof.Machine

open Sys2Proof Sys2Proof.Machine

/-- Settles O59: reset clears every block but the management block and the energy counters, and the pins release what waits. -/
theorem resetAndPower : Obligations.ResetAndPower := by
  intro s blank energy
  have cleared_blank {f : Field} (within : f.lo < 64)
      (outside : f.addr < 0x20200 ∨ (0x20500 ≤ f.addr ∧ f.addr < 0x23000) ∨ 0x24000 ≤ f.addr) : s.cleared.get f = f.reset := by
    obtain ⟨mgt, en⟩ := notKept within outside
    rw [State.cleared_get, mgt, en]
    rfl
  refine ⟨fun high => ?_, fun low => ?_, fun high => ?_, fun low quiet => ?_, fun low out => ?_, fun high => ?_, fun quiet high up idle => ?_,
    fun on => ?_, fun off => ?_, fun straps => ?_⟩
  · have runs : s.resetAssert = { s.cleared with pins := { s.pins with sysRstN := false } } := if_neg (by simp [high])
    refine completes_become (congrArg s.become runs) rfl ⟨⟨rfl, rfl, rfl, rfl, rfl, rfl, rfl, rfl, rfl, rfl, rfl, rfl, fun f within outside => ?_⟩,
      rfl, rfl, rfl, rfl, rfl, rfl, fun f h => ?_, rfl⟩
    · exact (State.get_of_regs rfl f).trans (cleared_blank within outside)
    · obtain ⟨within, above, below⟩ := h
      obtain ⟨mgt, en⟩ := energy_kept within above below
      refine (State.get_of_regs rfl f).trans ((s.cleared_get f).trans ?_)
      rw [en, Bool.or_true, if_pos rfl]
  · exact completes_become (congrArg s.become (if_pos (by simp [low]))) rfl rfl
  · exact completes_become (congrArg s.become (if_pos high)) rfl rfl
  · set u : State := ({ s with pins := { s.pins with sysRstN := true, railsOn := true, faultN := s.pins.thermTripN } } : State).put
      R.PWR_STATUS.VR_ALERT 0 with hu
    have runs : s.resetRelease = u.released := by
      have none_low : s.pins.vrAlertLow.isEmpty = true ∧ bitSet s.pins.vrAlertLow = 0 := by
        rw [quiet]
        exact ⟨rfl, rfl⟩
      rw [State.resetRelease, if_neg (by simp [low])]
      dsimp only
      rw [if_pos none_low.1, none_low.2]
    have alert : u.get R.PWR_STATUS.VR_ALERT = 0 := State.get_put_fits _ _ (by decide)
    have only : ({ s with pins := { s.pins with sysRstN := true, railsOn := true, faultN := s.pins.thermTripN } } : State).onlyRegs u
        [R.PWR_STATUS.VR_ALERT, R.GLB_READY.CXL_CFG] := (State.onlyRegs.refl _ _).put (by simp) _
    cases up : s.pins.perstN with
    | false =>
      refine completes_become (t := u) ((congrArg s.become (runs.trans (State.released_out (.inr up))))) rfl
        ⟨rfl, alert, nofun, fun _ => ⟨rfl, rfl⟩, rfl, rfl, fun f other => ?_⟩
      exact (only.get other).trans (State.get_of_regs rfl f)
    | true =>
      refine completes_become (congrArg s.become (runs.trans (State.released_runs rfl up))) rfl
        ⟨rfl, ?_, fun _ => ⟨rfl, rfl, State.isSet_putBit Nat.one_pos true⟩, nofun, rfl, rfl, fun f other => ?_⟩
      · refine (State.get_put_other _ _ (by decide)).trans ((State.get_of_regs rfl _).trans alert)
      · refine (State.get_put_other _ _ (other _ (by simp))).trans ((State.get_of_regs rfl _).trans ?_)
        exact (only.get other).trans (State.get_of_regs rfl f)
  · have runs : s.perstRelease = _ := (if_neg (by simp [low])).trans (State.released_runs (s := { s with pins := { s.pins with perstN := true } }) out rfl)
    refine completes_become (congrArg s.become runs) rfl ⟨rfl, rfl, rfl, State.isSet_putBit Nat.one_pos true, rfl, rfl, fun f other => ?_⟩
    exact (State.get_put_other _ _ (other _ (by simp))).trans (State.get_of_regs rfl f)
  · exact completes_become (congrArg s.become (if_pos high)) rfl rfl
  · obtain ⟨alive, none_waits⟩ := quiet
    obtain ⟨tickets, held, pending, mem, sec, frw, pins, down⟩ := State.linkLost_keeps up idle
    have runs : s.perstAssert = (({ ({ s.linkLost with pins := { s.linkLost.pins with perstN := false } } : State) with
        cxl := { s.linkLost.cxl with answers := false } } : State).putBit R.GLB_READY.CXL_CFG false).putBit R.CXLU_STATUS.BUS_MASTER false := by
      rw [State.perstAssert, if_neg (by simp [high])]
      dsimp only
      rw [pins]
    generalize s.linkLost = u at *
    set v := ({ ({ u with pins := { u.pins with perstN := false } } : State) with cxl := { u.cxl with answers := false } } : State).putBit
      R.GLB_READY.CXL_CFG false with hv
    have settles : (v.putBit R.CXLU_STATUS.BUS_MASTER false).settle = v.putBit R.CXLU_STATUS.BUS_MASTER false :=
      State.settle_idle (tickets.trans none_waits)
    refine completes_become (t := v.putBit R.CXLU_STATUS.BUS_MASTER false) ?_ pending
      ⟨congrArg (fun p : Pins => { p with perstN := false }) pins, rfl, ?_, ?_, State.isSet_putBit Nat.one_pos false, held, sec, frw, mem⟩
    · change s.become (if s.alive then s.perstAssert.settle else _) = _
      rw [if_pos alive, runs, settles]
    · refine (State.isSet_of_get (State.get_put_other _ _ (by decide))).trans ?_
      exact State.isSet_putBit Nat.one_pos false
    · refine (State.isSet_of_get (State.get_put_other _ _ (by decide))).trans ((State.isSet_of_get (State.get_put_other _ _ (by decide))).trans ?_)
      exact (State.isSet_of_get (State.get_of_regs rfl _)).trans down
  · have runs : s.railsOff = { s.cleared with
        regs := s.cleared.regs.filter fun e => inMgt e.1
        pwr := Pwr.reset
        flt := { s.cleared.flt with dead := false }
        pins := { s.pins with railsOn := false, faultN := true, thermTripN := true } } := if_neg (by simp [on])
    have reads (f : Field) : State.get { s.cleared with
        regs := s.cleared.regs.filter fun e => inMgt e.1
        pwr := Pwr.reset
        flt := { s.cleared.flt with dead := false }
        pins := { s.pins with railsOn := false, faultN := true, thermTripN := true } } f = if inMgt f.key then s.cleared.get f else f.reset :=
      State.get_filter (p := inMgt) rfl f
    refine completes_become (congrArg s.become runs) rfl ⟨⟨rfl, rfl, rfl, rfl, rfl, rfl, rfl, rfl, rfl, rfl, rfl, rfl, fun f within outside => ?_⟩,
      rfl, rfl, ?_, rfl, fun f h => ?_, rfl⟩
    · rw [reads, (notKept within outside).1]
      rfl
    · simp [State.alive]
    · obtain ⟨within, above, below⟩ := h
      rw [reads, (energy_kept within above below).1]
      rfl
  · exact completes_become (congrArg s.become (if_pos (by simp [off]))) rfl rfl
  · have reads {f : Field} (within : f.lo < 64) (outside : f.addr < 0x23000 ∨ 0x24000 ≤ f.addr) : (s.vsbUp straps).get f = f.reset := by
      refine (State.get_put_other _ _ ?_).trans rfl
      simp only [Field.key, R.MGT_SB_STATUS.STATIC_SEL]
      omega
    refine completes_become rfl rfl ⟨⟨rfl, rfl, rfl, rfl, rfl, rfl, rfl, rfl, rfl, rfl, rfl, rfl, fun f within outside => reads within (by omega)⟩,
      rfl, rfl, rfl, fun f h => reads h.1 (by omega), rfl, State.get_put_same _ _ _⟩

end

section
/-!
SUPPORT. The ROM flow and the start-up self-test (O60).
-/

namespace Sys2Proof.Machine

/-! ### Sets of bits -/

theorem testBit_bitSet (l : List Nat) (k : Nat) : (bitSet l).testBit k = decide (k ∈ l) := by
  have general (v : Nat) : (l.foldl (fun v i => v ||| 2 ^ i) v).testBit k = (v.testBit k || decide (k ∈ l)) := by
    induction l generalizing v with
    | nil => simp
    | cons i l ih => rw [List.foldl_cons, ih, Nat.testBit_or, Nat.testBit_two_pow, Bool.or_assoc]; simp [eq_comm]
  exact (general 0).trans (by rw [Nat.zero_testBit, Bool.false_or])

/-- PART_OK shows the partitions that it is set to. -/
theorem State.partOk_put (s : State) (l : List Nat) {k : Nat} (hk : k < 16) :
    (s.put R.GLB_READY.PART_OK (bitSet l)).partOk k = decide (k ∈ l) := by
  rw [State.partOk, State.get_put_same, bit_eq_testBit, Nat.testBit_mod_two_pow, testBit_bitSet]
  exact (congrArg (· && decide (k ∈ l)) (decide_eq_true hk)).trans (Bool.true_and _)

/-! ### The floors without a record -/

/-- The floors where the flash holds no floor record: those of the ROM. -/
def State.romFloors (s : State) : State :=
  ((({ s with sec := { s.sec with floor := none } } : State).putBit R.SEC_STATUS.FLOOR_OK false).put R.SEC_FLOOR.FW (Config.romFloor 1)).put
    R.SEC_FLOOR.CHAR (Config.romFloor 2)

theorem State.adoptFloor_none {s : State} (none_there : s.sec.floorSlots = []) : s.adoptFloor = s.romFloors := by
  have no_floor : s.validFloors = [] := by
    unfold State.validFloors
    rw [none_there]
    rfl
  unfold State.adoptFloor
  rw [no_floor]
  rfl

theorem State.applyChar_none {s : State} (none_there : s.sec.charSlots = []) : s.applyChar = s := by
  have no_record : s.validChar = none := by
    unfold State.validChar
    rw [none_there]
    rfl
  rw [State.applyChar, no_record]

/-! ### What the status registers show at the end of the boot -/

/-- The fields that the flash's status, the newest record and the configuration's status show. -/
def bootFields : List Field :=
  [R.MGT_FLASH_STATUS.MAP_GENERATION, R.MGT_FLASH_STATUS.RETIRED, R.MGT_FLASH_STATUS.POOL_FREE, R.MGT_EVLOG_SEL.NEWEST, R.GLB_READY.LINKS_OK,
    R.CFG_DIGEST.ACTIVE_DIGEST] ++ cfgFields

/-- From `s` to `t` only some registers, the flash's numbers, the counter and the floor in force change. -/
structure State.Shows (s t : State) (l : List Field) : Prop where
  eq : t = { s with
    regs := t.regs, mgt := t.mgt, freeCtr := t.freeCtr
    sec := { s.sec with counter := t.sec.counter, floor := t.sec.floor } }
  regs : s.sameRegs t l

theorem State.Shows.refl (s : State) (l : List Field) : s.Shows s l := ⟨rfl, State.sameRegs_refl s l⟩

theorem State.Shows.trans {s t u : State} {l : List Field} (h : s.Shows t l) (k : t.Shows u l) : s.Shows u l where
  eq := by
    refine k.eq.trans ?_
    rw [h.eq]
  regs f hf := (k.regs f hf).trans (h.regs f hf)

theorem State.Shows.put {s t : State} {l : List Field} (h : s.Shows t l) {f : Field} (hf : f ∈ l) (v : Nat) : s.Shows (t.put f v) l :=
  h.trans ⟨rfl, State.sameRegs_put (State.sameRegs_refl t l) hf v⟩

theorem State.Shows.widen {s t : State} {l m : List Field} (h : s.Shows t l) (sub : l ⊆ m) : s.Shows t m :=
  ⟨h.eq, fun f hf => h.regs f fun g hg => hf g (sub hg)⟩

theorem State.Shows.pending {s t : State} {l : List Field} (h : s.Shows t l) : t.pending = s.pending := (congrArg State.pending h.eq :)
theorem State.Shows.mem {s t : State} {l : List Field} (h : s.Shows t l) : t.mem = s.mem := (congrArg State.mem h.eq :)
theorem State.Shows.fwSlot {s t : State} {l : List Field} (h : s.Shows t l) : t.sec.fwSlot = s.sec.fwSlot :=
  (congrArg (fun u : State => u.sec.fwSlot) h.eq :)
theorem State.Shows.recovery {s t : State} {l : List Field} (h : s.Shows t l) : t.sec.recovery = s.sec.recovery :=
  (congrArg (fun u : State => u.sec.recovery) h.eq :)
theorem State.Shows.running {s t : State} {l : List Field} (h : s.Shows t l) : t.sec.running = s.sec.running :=
  (congrArg (fun u : State => u.sec.running) h.eq :)
theorem State.Shows.isSet {s t : State} {l : List Field} (h : s.Shows t l) {f : Field} (hf : ∀ g ∈ l, f.key ≠ g.key) : t.isSet f = s.isSet f :=
  State.isSet_of_get (h.regs f hf)

theorem State.flashStatus_shows (s : State) : s.Shows s.flashStatus bootFields :=
  (((State.Shows.refl s _).put (by simp [bootFields]) _).put (by simp [bootFields]) _).put (by simp [bootFields]) _

theorem State.findNewest_shows (s : State) : s.Shows s.findNewest bootFields := by
  unfold State.findNewest
  split
  · next e _ =>
    have numbered : s.Shows { s with mgt := { s.mgt with evSeq := (e.1 + 1) % 2 ^ 32 } } bootFields := ⟨rfl, fun f _ => State.get_of_regs rfl f⟩
    exact numbered.put (by simp [bootFields]) _
  · exact .refl s _

theorem State.digest_shows (s : State) : s.Shows s.digest bootFields := (State.Shows.refl s _).put (by simp [bootFields]) _

theorem State.refreshLinks_shows (s : State) : s.Shows s.refreshLinks bootFields := (State.Shows.refl s _).put (by simp [bootFields]) _

theorem State.refreshCfg_shows (s : State) : s.Shows s.refreshCfg bootFields where
  eq := s.refreshCfg_onlyRegs
  regs f hf := s.refreshCfg_get fun g hg => hf g (by simp [bootFields, hg])

/-- The end of a boot with a valid image. -/
def State.bootEnds (s : State) : State :=
  (s.flashStatus.findNewest.putBit R.GLB_READY.BOOT_OK true).refreshLinks.digest.refreshCfg

theorem State.bootEnds_shows (s : State) : s.Shows s.bootEnds (R.GLB_READY.BOOT_OK :: bootFields) := by
  have widen {u v : State} (h : u.Shows v bootFields) : u.Shows v (R.GLB_READY.BOOT_OK :: bootFields) := h.widen (List.subset_cons_self _ _)
  have newest := (widen s.flashStatus_shows).trans (widen s.flashStatus.findNewest_shows)
  exact (((newest.put (f := R.GLB_READY.BOOT_OK) (.head _) (b2n true)).trans (widen (State.refreshLinks_shows _))).trans
    (widen (State.digest_shows _))).trans (widen (State.refreshCfg_shows _))

theorem State.bootEnds_ok (s : State) : s.bootEnds.isSet R.GLB_READY.BOOT_OK = true := by
  have shown := ((State.refreshLinks_shows (s.flashStatus.findNewest.putBit R.GLB_READY.BOOT_OK true)).trans (State.digest_shows _)).trans
    (State.refreshCfg_shows _)
  refine (State.isSet_of_get (shown.regs _ (by decide))).trans ?_
  exact State.isSet_putBit Nat.one_pos true

/-! ### The floors, whatever the flash holds -/

theorem State.eraseSector_shows (s : State) (l : Nat) : s.Shows (s.eraseSector l) bootFields := by
  have counted (m : Mgt) (c : Nat) : s.Shows { s with mgt := m, freeCtr := c } bootFields := ⟨rfl, fun f _ => State.get_of_regs rfl f⟩
  unfold State.eraseSector
  extract_lets p n u
  split
  · unfold State.moveSector
    split
    · exact counted _ s.freeCtr
    · exact (counted _ (s.freeCtr + 1)).trans (State.flashStatus_shows _)
  · exact counted _ s.freeCtr

theorem State.raiseCounter_shows (s : State) : s.Shows s.raiseCounter bootFields := by
  have raised (v : Nat) : s.Shows { s with sec := { s.sec with counter := v } } bootFields := ⟨rfl, fun f _ => State.get_of_regs rfl f⟩
  unfold State.raiseCounter
  dsimp only
  split
  · exact ((raised _).trans (State.eraseSector_shows _ _)).trans (State.eraseSector_shows _ _)
  · exact raised _

/-- The fields that show the floors. -/
def floorFields : List Field := [R.SEC_STATUS.FLOOR_OK, R.SEC_FLOOR.FW, R.SEC_FLOOR.CHAR] ++ bootFields

theorem State.adoptFloor_shows (s : State) : s.Shows s.adoptFloor floorFields := by
  have sub : bootFields ⊆ floorFields := List.subset_append_right _ _
  have adopts (u : State) (o : Option SignedObj) : u.Shows { u with sec := { u.sec with floor := o } } floorFields :=
    ⟨rfl, fun f _ => State.get_of_regs rfl f⟩
  unfold State.adoptFloor
  extract_lets l at_ _ u raised _ v
  have hv : s.Shows v floorFields := by
    refine State.Shows.trans (adopts s (at_ s.sec.counter)) (t := u) ?_
    unfold v
    split
    · split
      · next o _ _ => exact (u.raiseCounter_shows.widen sub).trans (adopts raised (some o))
      · exact .refl _ _
    · exact .refl _ _
  exact ((hv.put (f := R.SEC_STATUS.FLOOR_OK) (by simp [floorFields]) (b2n v.sec.floor.isSome)).put (f := R.SEC_FLOOR.FW)
    (by simp [floorFields]) _).put (f := R.SEC_FLOOR.CHAR) (by simp [floorFields]) _

/-! ### The ROM flow -/

/-- The ROM has read a flash and tested itself; the floors are its own. -/
def State.booting (s : State) : State := ((s.putBit R.SEC_STATUS.TRNG_OK true).put R.SEC_FW.SEQUENCE s.sec.counter).romFloors

/-- A valid image runs. -/
def State.imageRuns (s : State) (o : SignedObj) : State :=
  (({ s with sec := { s.sec with running := some o } } : State).putBit R.SEC_STATUS.FW_OK true).put R.SEC_FW.SVN (objSvn o.bytes)

/-- A boot with no valid image enters recovery. -/
def State.recovers (s : State) : State := { s with sec := { s.sec with recovery := true, fwSlot := none } }

theorem State.romFloors_regs (s : State) :
    s.romFloors.isSet R.SEC_STATUS.FLOOR_OK = false ∧ s.romFloors.get R.SEC_FLOOR.FW = Config.romFloor 1 % 2 ^ R.SEC_FLOOR.FW.width ∧
      ∀ f : Field, (∀ g ∈ [R.SEC_STATUS.FLOOR_OK, R.SEC_FLOOR.FW, R.SEC_FLOOR.CHAR], f.key ≠ g.key) → s.romFloors.get f = s.get f := by
  unfold State.romFloors
  refine ⟨?_, ?_, fun f other => ?_⟩
  · rw [State.isSet_put_other _ _ (by decide), State.isSet_put_other _ _ (by decide)]
    exact State.isSet_putBit Nat.one_pos false
  · rw [State.get_put_other _ _ (by decide)]
    exact State.get_put_same _ _ _
  · rw [State.get_put_other _ _ (other _ (by simp)), State.get_put_other _ _ (other _ (by simp)), State.putBit,
      State.get_put_other _ _ (other _ (by simp))]
    exact State.get_of_regs rfl f

theorem State.booting_ok (s : State) : s.booting.isSet R.GLB_READY.BOOT_OK = s.isSet R.GLB_READY.BOOT_OK := by
  unfold State.booting
  rw [State.isSet_of_get ((State.romFloors_regs _).2.2 _ (by decide)), State.isSet_put_other _ _ (by decide),
    State.isSet_putBit_other _ _ (by decide)]

section Runs

variable {s : State} (started : s.sec.started = true) (fresh : s.isSet R.GLB_READY.BOOT_OK = false) (working : s.sec.recovery = false)

include started fresh working

theorem State.boot_runs (f : BootFlash) (tests : Bool) (h : tests = false) : s.boot f tests = (s.readFlash f).controlFault 4 0 := by
  rw [State.boot, if_neg (by simp [started, fresh, working])]
  exact if_pos (by simp [h])

variable (read : s.sec.read = true)

include read

/-- The flow with the tests passed, up to the check of the image. -/
theorem State.boot_checks (f : BootFlash) :
    let u := ((s.putBit R.SEC_STATUS.TRNG_OK true).put R.SEC_FW.SEQUENCE s.sec.counter).adoptFloor
    s.boot f true = match u.sec.fwSlot.filter fun o => objAccepted 1 (u.floorOf 1) o with
      | none => u.recovers
      | some o => ((u.imageRuns o).applyChar.flashStatus.findNewest.putBit R.GLB_READY.BOOT_OK true).refreshLinks.digest.refreshCfg := by
  have same : s.readFlash f = s := if_pos read
  rw [State.boot, if_neg (by simp [started, fresh, working])]
  dsimp only
  rw [same, if_neg (by decide)]
  rfl

theorem State.boot_without (f : BootFlash) (no_image : s.sec.fwSlot = none) :
    s.boot f true = ((s.putBit R.SEC_STATUS.TRNG_OK true).put R.SEC_FW.SEQUENCE s.sec.counter).adoptFloor.recovers := by
  have shown := State.adoptFloor_shows ((s.putBit R.SEC_STATUS.TRNG_OK true).put R.SEC_FW.SEQUENCE s.sec.counter)
  rw [State.boot_checks started fresh working read f, shown.fwSlot.trans no_image]
  rfl

variable (no_floors : s.sec.floorSlots = []) {o : SignedObj} (image : s.sec.fwSlot = some o)

include no_floors image

theorem State.boot_rejects (f : BootFlash) (rejected : objAccepted 1 (Config.romFloor 1) o = false) : s.boot f true = s.booting.recovers := by
  have floors : ((s.putBit R.SEC_STATUS.TRNG_OK true).put R.SEC_FW.SEQUENCE s.sec.counter).adoptFloor = s.booting :=
    State.adoptFloor_none no_floors
  have dropped : (s.booting.sec.fwSlot.filter fun o => objAccepted 1 (s.booting.floorOf 1) o) = none := by
    change (s.sec.fwSlot.filter fun o => objAccepted 1 (Config.romFloor 1) o) = none
    rw [image]
    exact Option.filter_some_neg (by simp [rejected])
  rw [State.boot_checks started fresh working read f, floors, dropped]

theorem State.boot_accepts (f : BootFlash) (no_chars : s.sec.charSlots = []) (accepted : objAccepted 1 (Config.romFloor 1) o = true) :
    s.boot f true = (s.booting.imageRuns o).bootEnds := by
  have floors : ((s.putBit R.SEC_STATUS.TRNG_OK true).put R.SEC_FW.SEQUENCE s.sec.counter).adoptFloor = s.booting :=
    State.adoptFloor_none no_floors
  have kept : (s.booting.sec.fwSlot.filter fun o => objAccepted 1 (s.booting.floorOf 1) o) = some o := by
    change (s.sec.fwSlot.filter fun o => objAccepted 1 (Config.romFloor 1) o) = some o
    rw [image]
    exact Option.filter_some_pos accepted
  rw [State.boot_checks started fresh working read f, floors, kept]
  exact congrArg State.bootEnds (State.applyChar_none (s := s.booting.imageRuns o) no_chars)

end Runs

end Sys2Proof.Machine

open Sys2Proof Sys2Proof.Machine

/-- Settles O60: the boot follows the checks of the image, and the start-up self-test gives the partitions that passed. -/
theorem startUp : Obligations.StartUp := by
  intro s quiet
  obtain ⟨alive, idle⟩ := quiet
  refine ⟨fun started fresh working => ⟨fun f => ?_, fun f o read floors chars image => ?_, fun f read image => ?_⟩, fun past f tests => ?_,
    fun l none_tested untested booted memory => ?_⟩
  · have same : (s.readFlash f).isSet R.GLB_READY.BOOT_OK = false ∧ (s.readFlash f).pending = s.pending := by
      unfold State.readFlash
      split
      · exact ⟨fresh, rfl⟩
      · exact ⟨(State.isSet_of_get (State.get_of_regs rfl _)).trans fresh, rfl⟩
    have runs := State.boot_runs started fresh working f false rfl
    have raised := State.Raises.raise (s.readFlash f) (evControlFault 4 0)
    have pins := State.raise_pins (s := s.readFlash f) (e := evControlFault 4 0) (by decide)
    refine completes_whenAlive (f := fun s => s.boot f false) (t := (s.readFlash f).controlFault 4 0) alive rfl runs
      (raised.pending.trans same.2) ⟨rfl, ?_, ?_⟩
    · exact (State.isSet_of_get (State.get_of_regs rfl _)).trans ((raised.isSet (by decide)).trans same.1)
    · exact congrArg Pins.faultN pins
  · obtain ⟨no_floor, fw, -⟩ := ((s.putBit R.SEC_STATUS.TRNG_OK true).put R.SEC_FW.SEQUENCE s.sec.counter).romFloors_regs
    cases accepted : objAccepted 1 (Config.romFloor 1) o with
    | false =>
      have runs := State.boot_rejects started fresh working read floors image f accepted
      exact completes_whenAlive (f := fun s => s.boot f true) (t := s.booting.recovers) alive rfl runs rfl
        ⟨(State.isSet_of_get (State.get_of_regs rfl _)).trans (s.booting_ok.trans fresh), rfl,
          (State.isSet_of_get (State.get_of_regs rfl _)).trans no_floor, (State.get_of_regs rfl _).trans fw, nofun, rfl⟩
    | true =>
      have runs := State.boot_accepts started fresh working read floors image f chars accepted
      have shown := (s.booting.imageRuns o).bootEnds_shows
      have image_get {f : Field} (other : ∀ g ∈ [R.SEC_STATUS.FW_OK, R.SEC_FW.SVN], f.key ≠ g.key) :
          (s.booting.imageRuns o).get f = s.booting.get f := by
        unfold State.imageRuns
        rw [State.get_put_other _ _ (other _ (by simp)), State.putBit, State.get_put_other _ _ (other _ (by simp))]
        exact State.get_of_regs rfl f
      refine completes_whenAlive (f := fun s => s.boot f true) (t := (s.booting.imageRuns o).bootEnds) alive rfl runs shown.pending
        ⟨State.bootEnds_ok _, shown.recovery.trans working, ?_, ?_, fun _ => ⟨?_, shown.running, ?_⟩, shown.mem⟩
      · exact (shown.isSet (by decide)).trans ((State.isSet_of_get (image_get (by decide))).trans no_floor)
      · exact (shown.regs _ (by decide)).trans ((image_get (by decide)).trans fw)
      · refine (shown.isSet (by decide)).trans ?_
        exact (State.isSet_put_other _ _ (by decide)).trans (State.isSet_putBit Nat.one_pos true)
      · exact (shown.regs _ (by decide)).trans (State.get_put_same _ _ _)
  · have runs := State.boot_without started fresh working read f image
    have shown := State.adoptFloor_shows ((s.putBit R.SEC_STATUS.TRNG_OK true).put R.SEC_FW.SEQUENCE s.sec.counter)
    have ok := shown.isSet (f := R.GLB_READY.BOOT_OK) (by decide)
    rw [State.isSet_put_other _ _ (by decide), State.isSet_putBit_other _ _ (by decide)] at ok
    have pending := shown.pending
    have mem := shown.mem
    generalize ((s.putBit R.SEC_STATUS.TRNG_OK true).put R.SEC_FW.SEQUENCE s.sec.counter).adoptFloor = u at *
    exact completes_whenAlive (f := fun s => s.boot f true) (t := u.recovers) alive rfl runs pending
      ⟨rfl, (State.isSet_of_get (State.get_of_regs rfl _)).trans (ok.trans fresh), mem⟩
  · refine completes_whenAlive (f := fun s => s.boot f tests) alive rfl (if_pos ?_) rfl rfl
    rcases past with h | h | h <;> simp [h]
  · intro passed
    set P := (List.range 16).filter passed with hP
    have member (k : Nat) (hk : k < 16) : decide (k ∈ P) = passed k := by simp [hP, List.mem_filter, hk]
    set u := ({ s with flt := { s.flt with startTested := true, startPassed := P.length == 16 } } : State).memZeroed with hu
    set t := P.foldl (fun (v : State) n => v.put (R.TILE_SEQ_CTRL.MODE n) 0) (u.put R.GLB_READY.PART_OK (bitSet P)) with ht
    have runs : (if s.flt.selftest.isSome then s.selftestEnds l else s.startupTest l []) = t := by
      rw [if_neg (by simp [none_tested]), State.startupTest, if_neg (by simp [untested, booted, memory])]
      rfl
    have only : (u.put R.GLB_READY.PART_OK (bitSet P)).onlyRegs t (P.map R.TILE_SEQ_CTRL.MODE) :=
      State.onlyRegs.foldl_put (.refl _ _) fun n hn => List.mem_map_of_mem hn
    have byte (a : Nat) : t.byte a = if decide (0xF00000000 ≤ a ∧ a < 0x1000000000) || decide (farBase ≤ a) then s.byte a else 0 := by
      rw [State.byte, (congrArg State.mem only.1 :)]
      exact Table.get_filter 0 a (fun k => decide (0xF00000000 ≤ k ∧ k < 0x1000000000) || decide (farBase ≤ k)) s.mem
    have apart (n : Nat) : (R.TILE_SEQ_CTRL.MODE n).key ≠ R.GLB_READY.PART_OK.key := by
      simp only [Field.key, R.TILE_SEQ_CTRL.MODE, R.GLB_READY.PART_OK]; omega
    have inj (i j : Nat) (h : i ≠ j) : (R.TILE_SEQ_CTRL.MODE i).key ≠ (R.TILE_SEQ_CTRL.MODE j).key := by
      simp only [Field.key, R.TILE_SEQ_CTRL.MODE]; omega
    have flt : t.flt.startTested = true := (congrArg (fun v : State => v.flt.startTested) only.1 :)
    have out : t.out = s.out := (congrArg State.out only.1 :)
    have que : t.que = s.que := only.que
    have pending : t.pending = s.pending := only.pending
    have shows (k : Nat) (hk : k < 16) : t.partOk k = passed k := by
      rw [State.partOk, only.get (by simp; exact fun n _ => (apart n).symm)]
      exact (u.partOk_put P hk).trans (member k hk)
    have modes (k : Nat) (hk : k < 16) : t.get (R.TILE_SEQ_CTRL.MODE k) = if passed k then 0 else s.get (R.TILE_SEQ_CTRL.MODE k) := by
      cases pass : passed k with
      | true => exact (State.get_foldl_put inj (List.nodup_range.filter _) (of_decide_eq_true ((member k hk).trans pass))).trans rfl
      | false =>
        have absent : k ∉ P := of_decide_eq_false ((member k hk).trans pass)
        refine (only.get ?_).trans ((State.get_put_other _ _ (apart k)).trans (State.get_of_regs rfl _))
        simp only [List.mem_map, forall_exists_index, and_imp, forall_apply_eq_imp_iff₂]
        exact fun n hn => inj k n fun same => absent (same ▸ hn)
    clear_value t
    refine completes_act (f := fun s => if s.flt.selftest.isSome then s.selftestEnds l else s.startupTest l []) (t := t) alive rfl runs
      ((congrArg Que.tickets que).trans idle) pending ⟨flt, shows, modes, fun a range => ?_, fun a far => ?_, out⟩
    · have near : ¬ (0xF00000000 ≤ a ∧ a < 0x1000000000) ∧ ¬ farBase ≤ a := by
        unfold farBase
        omega
      rw [byte, if_neg (by simp only [decide_eq_false near.1, decide_eq_false near.2]; decide)]
    · rw [byte, if_pos (by simp [far])]

end

section
/-!
SUPPORT. Silence, death and the end of a membership (O51).
-/

namespace Sys2Proof.Machine

/-! ### Messages that stand among what has gone out -/

theorem State.told_of_kept {s t : State} {dst : Nat} {b : CtrlBody} (h : s.told dst b) (k : Kept s t) : t.told dst b := by
  obtain ⟨m, there, dest, body⟩ := h
  exact ⟨m, stillSent.ctrl_mem k.out there, dest, body⟩

/-- What is told to all has gone to each that can be reached. -/
theorem State.sendAll_told {s : State} {l : List Nat} {d : Nat} (b : CtrlBody) (alive : s.flt.dead = false) (hd : d ∈ l)
    (way : (s.route d).isSome = true) : (s.sendAll l b).told d b := by
  induction l generalizing s with
  | nil => simp at hd
  | cons x l ih =>
    rcases List.mem_cons.1 hd with rfl | later
    · exact State.told_of_kept (t := (s.sendCtrl d b).sendAll l b) (State.sendCtrl_told b alive way) (State.sendAll_kept (.refl _))
    · have sends := s.sendCtrl_onlySends x b
      exact ih (s := s.sendCtrl x b) (sends.dead.trans alive) later (by rw [sends.route]; exact way)

/-- From `s` to `t` frames have gone out, and nothing else. -/
def State.onlyFrames (s t : State) : Prop := t = { s with out := t.out, links := t.links, coll := t.coll }

namespace State.onlyFrames

theorem refl (s : State) : s.onlyFrames s := rfl

theorem trans {a b c : State} (h : a.onlyFrames b) (k : b.onlyFrames c) : a.onlyFrames c := by
  rw [State.onlyFrames] at k ⊢
  refine k.trans ?_
  rw [h]

theorem drainLink (s : State) (p n : Nat) : s.onlyFrames (s.drainLink p n) := by
  induction n generalizing s with
  | zero => exact refl s
  | succ n ih =>
    unfold State.drainLink
    split
    · exact refl s
    · split
      · exact refl s
      · exact trans (b := (s.modLink p _).transmitSeq p _ _) rfl (ih _)

theorem sendSeq (s : State) (p : Nat) (f : Frame) (o : Option (Nat × Nat)) : s.onlyFrames (s.sendSeq p f o) :=
  trans (b := s.modLink p _) rfl (drainLink _ _ _)

theorem sendFragments (s : State) (p : Nat) (m : CtrlMsg) : s.onlyFrames (s.sendFragments p m) := by
  have frames {α : Type} (u : State) (f : α → Frame) (l : List α) : u.onlyFrames (l.foldl (fun (v : State) x => v.sendSeq p (f x)) u) :=
    List.foldlRecOn (motive := u.onlyFrames) _ _ (refl u) fun _ h _ _ => h.trans (sendSeq _ _ _ _)
  unfold State.sendFragments
  dsimp only
  split
  · exact trans (b := s.emit (.ctrl m.dst m)) rfl (frames _ _ _)
  · exact trans (b := (s.emit (.ctrl m.dst m)).nonce _ 0) rfl (frames _ _ _)

end State.onlyFrames

/-! ### A schedule that stops at once (R36, R585) -/

/-- The registers that a stop of the schedule, with a step given up, may change. -/
def haltFields : List Field :=
  stopFields ++ seqStates ++ (List.range 16).map R.TILE_SEQ_STATUS.ABANDONED ++ (List.range 16).map R.NBU_BUSY.UNITS

/-- A register below those of the tiles, and not of the schedule's state, stands through a stop. -/
theorem notHalted {f : Field} (low : f.key < 0x1000000 * 64) (other : ∀ g ∈ stopFields, f.key ≠ g.key) : ∀ g ∈ haltFields, f.key ≠ g.key := by
  intro g hg
  simp only [haltFields, seqStates, List.append_assoc, List.mem_append, List.mem_map] at hg
  rcases hg with hg | ⟨n, -, rfl⟩ | ⟨n, -, rfl⟩ | ⟨n, -, rfl⟩
  · exact other g hg
  all_goals
    simp only [Field.key, R.TILE_SEQ_STATUS.STATE, R.TILE_SEQ_STATUS.ABANDONED, R.NBU_BUSY.UNITS] at low ⊢
    omega

/-- From `s` to `t` steps have been given up. -/
structure State.Drops (s t : State) : Prop where
  eq : t = { s with regs := t.regs, tiles := t.tiles, stk := t.stk, coll := t.coll, links := t.links }
  regs : s.sameRegs t haltFields

theorem State.Drops.refl (s : State) : s.Drops s := ⟨rfl, State.sameRegs_refl s _⟩

theorem State.Drops.trans {s t u : State} (h : s.Drops t) (k : t.Drops u) : s.Drops u where
  eq := by
    refine k.eq.trans ?_
    rw [h.eq]
  regs f hf := (k.regs f hf).trans (h.regs f hf)

theorem State.Drops.of_onlyRegs {s t : State} {l : List Field} (h : s.onlyRegs t l) (sub : l ⊆ haltFields) : s.Drops t :=
  ⟨by
    obtain ⟨r, hr⟩ : ∃ r, t = { s with regs := r } := ⟨_, h.1⟩
    rw [hr], fun f hf => h.2 f fun g hg => hf g (sub hg)⟩

theorem State.abandonTile_drops (s : State) {n : Nat} (h : n < 16) : s.Drops (s.abandonTile n) := by
  have among {f : Nat → Field} : f n ∈ (List.range 16).map f := List.mem_map_of_mem (List.mem_range.2 h)
  have busy : R.NBU_BUSY.UNITS n ∈ haltFields := List.mem_append_right _ among
  have mark : R.TILE_SEQ_STATUS.ABANDONED n ∈ haltFields := List.mem_append_left _ (List.mem_append_right _ among)
  have state : R.TILE_SEQ_STATUS.STATE n ∈ haltFields := List.mem_append_left _ (List.mem_append_left _ (List.mem_append_right _ among))
  let u := (s.modTile n fun t => { t with queues := [], slots := [], stale := [], waiting := false, notice := false }).modStack n fun k =>
    { k with units := [], slots := [], shadows := [] }
  have stands : s.Drops u := ⟨rfl, fun f _ => State.get_of_regs rfl f⟩
  exact stands.trans (.of_onlyRegs ((((State.onlyRegs.refl u haltFields).put busy 0).put mark _).put state seqDone) (List.Subset.refl _))

theorem State.clearColl_drops (s : State) : s.Drops s.clearColl := by
  unfold State.clearColl
  exact List.foldlRecOn (motive := s.Drops) _ _ ⟨rfl, fun f _ => State.get_of_regs rfl f⟩ fun u h p _ =>
    h.trans ⟨rfl, fun f _ => State.get_of_regs rfl f⟩

theorem State.dropSteps_drops (s : State) : s.Drops s.dropSteps := by
  unfold State.dropSteps
  refine State.Drops.trans ?_ (State.clearColl_drops _)
  refine List.foldlRecOn (motive := s.Drops) _ _ (.refl s) fun u h n hn => ?_
  split
  · exact h.trans (u.abandonTile_drops (List.mem_range.1 hn))
  · exact h

/-- From `s` to `t` the schedule, if any ran, has stopped at once, and nothing else has ended with it. -/
structure State.Halts (s t : State) : Prop where
  eq : t = { s with regs := t.regs, frw := t.frw, srv := t.srv, tiles := t.tiles, stk := t.stk, coll := t.coll, links := t.links }
  regs : s.sameRegs t haltFields
  ended : t.inSchedule = false
  stopped : s.inSchedule = true → t.frwState = frwStopped

namespace State.Halts

variable {s t : State} (h : s.Halts t)
include h

theorem mem : t.mem = s.mem := (congrArg State.mem h.eq :)
theorem que : t.que = s.que := (congrArg State.que h.eq :)
theorem flt : t.flt = s.flt := (congrArg State.flt h.eq :)
theorem cfg : t.cfg = s.cfg := (congrArg State.cfg h.eq :)
theorem pending : t.pending = s.pending := (congrArg State.pending h.eq :)

theorem get {f : Field} (low : f.key < 0x1000000 * 64) (other : ∀ g ∈ stopFields, f.key ≠ g.key) : t.get f = s.get f :=
  h.regs f (notHalted low other)

end State.Halts

/-- Where nothing else ends with it and no packet waits for it, the schedule stops alone. -/
theorem State.haltSchedule_halts {s : State} (alone : s.stopsAlone) (start : s.frw.startTicket = none) (stop : s.frw.stopTicket = none) :
    s.Halts s.haltSchedule := by
  by_cases runs : (s.inSchedule || s.frwState == frwStopping || s.frwState == frwArmed) = true
  · obtain ⟨u, drops, hu⟩ : ∃ u, s.Drops u ∧ (if s.frwState == frwArmed then s else s.dropSteps) = u := by
      split
      · exact ⟨s, .refl s, rfl⟩
      · exact ⟨_, s.dropSteps_drops, rfl⟩
    have frw : u.frw = s.frw := (congrArg State.frw drops.eq :)
    have ends : u.stopsAlone := by
      obtain ⟨lanes, commits, lead⟩ := alone
      exact ⟨(congrArg (fun v : State => v.srv.lanes) drops.eq :).trans lanes, (congrArg (fun v : State => v.cfg.deviceCommit) drops.eq :).trans commits,
        (congrArg (fun v : State => v.cfg.lead) drops.eq :).trans lead⟩
    have stops := State.stopped_stops ends
    have result : s.haltSchedule = u.stopped := by
      rw [State.haltSchedule_eq runs hu, frw, start, stop, State.endWait_none, State.endWait_none]
      exact State.noWaits_self ((congrArg Frw.startTicket stops.frw).trans ((congrArg Frw.startTicket frw).trans start))
        ((congrArg Frw.stopTicket stops.frw).trans ((congrArg Frw.stopTicket frw).trans stop))
    rw [result]
    generalize u.stopped = t at *
    refine ⟨?_, fun f hf => ?_, ?_, fun _ => stops.state⟩
    · have shape := stops.eq
      rw [drops.eq] at shape
      rw [shape]
    · refine (stops.regs f fun g hg => hf g ?_).trans (drops.regs f hf)
      simp only [haltFields, List.mem_append] at hg ⊢
      tauto
    · rw [State.inSchedule, stops.state]
      rfl
  · have same : s.haltSchedule = s := if_neg runs
    have off : s.inSchedule = false := by
      simp only [Bool.or_eq_true, not_or, Bool.not_eq_true] at runs
      exact runs.1.1
    rw [same]
    exact ⟨rfl, State.sameRegs_refl s _, off, fun on => by simp [off] at on⟩

end Sys2Proof.Machine
end

section
/-!
SUPPORT. The end of a membership (O51).
-/

namespace Sys2Proof.Machine

/-! ### The cluster's part of the configuration is emptied (R585) -/

/-- From `s` to `t` only registers and the keys change. -/
def State.regsOnly (s t : State) : Prop := t = { s with regs := t.regs, sec := t.sec }

namespace State.regsOnly

variable {s t u : State}

theorem refl (s : State) : s.regsOnly s := rfl

theorem trans (h : s.regsOnly t) (k : t.regsOnly u) : s.regsOnly u := by
  rw [State.regsOnly] at k ⊢
  refine k.trans ?_
  rw [h]

theorem put (h : s.regsOnly t) (f : Field) (v : Nat) : s.regsOnly (t.put f v) := h.trans rfl

theorem foldl {α : Type} {l : List α} {g : State → α → State} (step : ∀ (u : State) (a : α), u.regsOnly (g u a)) : s.regsOnly (l.foldl g s) :=
  List.foldlRecOn (motive := s.regsOnly) _ _ (refl s) fun u h a _ => trans h (step u a)

theorem of_regs (h : t = { s with regs := t.regs }) : s.regsOnly t := by
  have sec : t.sec = s.sec := (congrArg State.sec h :)
  rw [State.regsOnly, sec]
  exact h

theorem mem (h : s.regsOnly t) : t.mem = s.mem := (congrArg State.mem h :)
theorem que (h : s.regsOnly t) : t.que = s.que := (congrArg State.que h :)
theorem pending (h : s.regsOnly t) : t.pending = s.pending := (congrArg State.pending h :)
theorem frw (h : s.regsOnly t) : t.frw = s.frw := (congrArg State.frw h :)
theorem flt (h : s.regsOnly t) : t.flt = s.flt := (congrArg State.flt h :)

end State.regsOnly

theorem State.showPlan_get (s : State) {f : Field}
    (h : ∀ g ∈ [R.FRW_TIMING.PERIOD_NS, R.FRW_TIMING.HEADLAND_NS, R.FRW_LATE.LATE_OFFSET_NS, R.FRW_LATE.CYCLE_LEN], f.key ≠ g.key) :
    s.showPlan.get f = s.get f := by
  unfold State.showPlan
  dsimp only
  rw [State.get_put_other _ _ (h _ (by simp)), State.get_put_other _ _ (h _ (by simp)), State.get_put_other _ _ (h _ (by simp)),
    State.get_put_other _ _ (h _ (by simp))]

theorem State.refreshProt_get (s : State) {f : Field} (h : f.key ≠ R.SEC_PROT.PARTITIONS.key) : s.refreshProt.get f = s.get f := by
  unfold State.refreshProt State.unprotect
  split
  · rfl
  · exact (State.get_put_other _ _ h).trans (State.get_of_regs rfl f)

theorem State.refreshProt_regsOnly (s : State) : s.regsOnly s.refreshProt := by
  unfold State.refreshProt State.unprotect
  split
  · exact .refl s
  · exact State.regsOnly.trans (t := { s with sec := { s.sec with partKeys := [] } }) rfl ((State.regsOnly.refl _).put _ _)

/-- What an empty configuration shows. -/
def State.showEmpty (s : State) : State :=
  let s := ((s.put R.FRW_STATE.STATE frwNoPlan).put R.FRW_LATE.TEMPLATE 0).showPlan
  let s := (s.refreshProt.put R.CFG_STATUS.ACTIVE_EPOCH 0).putBit R.CFG_STATUS.DIVERGENT false
  s.digest.refreshCfg

theorem State.showEmpty_regsOnly (s : State) : s.regsOnly s.showEmpty := by
  have planned : s.regsOnly ((s.put R.FRW_STATE.STATE frwNoPlan).put R.FRW_LATE.TEMPLATE 0).showPlan :=
    (((((State.regsOnly.refl s).put _ _).put _ _).put _ _).put _ _).put _ _ |>.put _ _
  have shown := ((planned.trans (State.refreshProt_regsOnly _)).put R.CFG_STATUS.ACTIVE_EPOCH 0).put R.CFG_STATUS.DIVERGENT (b2n false)
  have digested := shown.put R.CFG_DIGEST.ACTIVE_DIGEST (rd (sha384 (State.digestBytes ((((((s.put R.FRW_STATE.STATE frwNoPlan).put
    R.FRW_LATE.TEMPLATE 0).showPlan).refreshProt.put R.CFG_STATUS.ACTIVE_EPOCH 0).put R.CFG_STATUS.DIVERGENT (b2n false))))) 0 8)
  exact digested.trans (.of_regs (State.refreshCfg_onlyRegs _))

theorem State.showEmpty_shows (s : State) : s.showEmpty.frwState = frwNoPlan ∧ s.showEmpty.get R.CFG_STATUS.ACTIVE_EPOCH = 0 := by
  unfold State.showEmpty State.digest State.putBit
  constructor
  · unfold State.frwState
    rw [State.refreshCfg_get _ (by decide), State.get_put_other _ _ (by decide), State.get_put_other _ _ (by decide),
      State.get_put_other _ _ (by decide), State.refreshProt_get _ (by decide), State.showPlan_get _ (by decide),
      State.get_put_other _ _ (by decide)]
    exact State.get_put_fits _ _ (by decide)
  · rw [State.refreshCfg_get _ (by decide), State.get_put_other _ _ (by decide), State.get_put_other _ _ (by decide)]
    exact State.get_put_fits _ _ (by decide)

/-- What emptying the cluster's part of the configuration leaves, where no model instance is active and no commit is led. -/
structure State.Empties (s t : State) : Prop where
  mem : t.mem = s.mem
  que : t.que = s.que
  pending : t.pending = s.pending
  active : t.frw.active = none
  state : t.frwState = frwNoPlan
  epoch : t.get R.CFG_STATUS.ACTIVE_EPOCH = 0

/-- No instance, plan, adapter or lane is left. -/
def State.dropCluster (s : State) : State :=
  { s with
    cfg := { s.cfg with instA := [], instS := [], lockCluster := false, prepared := none, peers := [], divergent := [] }
    frw := { s.frw with active := none, staged := none, leadNext := none, resync := none, correcting := false }
    srv := { s.srv with suspended := [], adapters := [], lanes := [], built := [], laneWait := [], laneRecv := [] }
    pwr := { s.pwr with phases := [] } }

/-- No cluster-scope value is staged. -/
def State.unstageCluster (s : State) : State :=
  { s with cfg := { s.cfg with stagedRegs := s.cfg.stagedRegs.filter fun e => !clusterKey e.1 } }

theorem State.emptyCluster_eq {s : State} (th : Nat) (lead : s.cfg.lead = none) (insts : s.cfg.instA = []) :
    s.emptyCluster th =
      ((if s.cfg.prepared.isSome then s.lockSets false false else s).unstageCluster.resetClusterRegs).dropCluster.showEmpty := by
  have kept : (if s.cfg.prepared.isSome then s.lockSets false false else s).cfg.instA = [] := by
    split
    · exact (congrArg Cfg.instA (State.refreshCfg_cfg _)).trans insts
    · exact insts
  unfold State.emptyCluster
  rw [lead]
  dsimp only
  generalize (if s.cfg.prepared.isSome then s.lockSets false false else s) = a at *
  rw [kept]
  rfl

theorem State.emptyCluster_empties {s : State} (th : Nat) (lead : s.cfg.lead = none) (insts : s.cfg.instA = []) :
    s.Empties (s.emptyCluster th) := by
  rw [State.emptyCluster_eq th lead insts]
  have unlocked : ∀ a, (if s.cfg.prepared.isSome then s.lockSets false false else s) = a → a.mem = s.mem ∧ a.que = s.que ∧ a.pending = s.pending := by
    rintro a rfl
    split
    · exact ⟨State.refreshCfg_mem _, State.refreshCfg_que _, State.refreshCfg_pending _⟩
    · exact ⟨rfl, rfl, rfl⟩
  obtain ⟨mem, que, pending⟩ := unlocked _ rfl
  generalize (if s.cfg.prepared.isSome then s.lockSets false false else s) = a at *
  have reset : a.unstageCluster.regsOnly a.unstageCluster.resetClusterRegs :=
    State.regsOnly.foldl fun u f => (State.regsOnly.refl u).put f f.reset
  generalize a.unstageCluster.resetClusterRegs = b at *
  have shown := b.dropCluster.showEmpty_regsOnly
  obtain ⟨state, epoch⟩ := b.dropCluster.showEmpty_shows
  exact ⟨shown.mem.trans (reset.mem.trans mem), shown.que.trans (reset.que.trans que), shown.pending.trans (reset.pending.trans pending),
    congrArg Frw.active shown.frw, state, epoch⟩

/-! ### The member leaves -/

/-- No device is held a member. -/
def State.noPeers (s : State) : State :=
  (List.range 24).foldl (fun (s : State) p => s.putBit (R.LINK_STATUS.DOUBLED p) false)
    ((List.range 64).foldl (fun (s : State) d => (s.put (R.GLB_PEER_EPOCH.EPOCH d) 0).putBit (R.GLB_PEER_EPOCH.VACANT d) false) s)

theorem State.noPeers_regsOnly (s : State) : s.regsOnly s.noPeers :=
  State.regsOnly.trans (State.regsOnly.foldl fun u d => ((State.regsOnly.refl u).put (R.GLB_PEER_EPOCH.EPOCH d) 0).put _ _)
    (State.regsOnly.foldl fun u _ => (State.regsOnly.refl u).put _ _)

/-- A register that is neither of the members' epochs nor of the links stands. -/
theorem State.noPeers_get (s : State) {f : Field} (low : f.key < 0x200 * 64 ∨ 0x400 * 64 ≤ f.key) (high : f.key < 0x40000 * 64) :
    s.noPeers.get f = s.get f := by
  refine List.foldlRecOn (motive := fun u : State => u.get f = s.get f) _ _ ?_ fun u h _ _ => ?_
  · refine List.foldlRecOn (motive := fun u : State => u.get f = s.get f) _ _ rfl fun u h d hd => ?_
    have small := List.mem_range.1 hd
    refine ((State.get_put_other _ _ ?_).trans (State.get_put_other _ _ ?_)).trans h <;>
      simp only [Field.key, R.GLB_PEER_EPOCH.EPOCH, R.GLB_PEER_EPOCH.VACANT] at low ⊢ <;> omega
  · refine (State.get_put_other _ _ ?_).trans h
    simp only [Field.key, R.LINK_STATUS.DOUBLED] at high ⊢
    omega

theorem State.noPeers_epoch (s : State) {d : Nat} (h : d < 64) : s.noPeers.get (R.GLB_PEER_EPOCH.EPOCH d) = 0 := by
  have cleared (n : Nat) (hd : d < n) : ((List.range n).foldl (fun (s : State) d =>
      (s.put (R.GLB_PEER_EPOCH.EPOCH d) 0).putBit (R.GLB_PEER_EPOCH.VACANT d) false) s).get (R.GLB_PEER_EPOCH.EPOCH d) = 0 := by
    induction n with
    | zero => omega
    | succ n ih =>
      rw [List.range_succ, List.foldl_append]
      refine (State.get_put_other _ _ ?_).trans ?_
      · simp only [Field.key, R.GLB_PEER_EPOCH.EPOCH, R.GLB_PEER_EPOCH.VACANT]; omega
      · by_cases last : d = n
        · rw [last]
          exact State.get_put_fits _ _ (by simp)
        · refine (State.get_put_other _ _ ?_).trans (ih (by omega))
          simp only [Field.key, R.GLB_PEER_EPOCH.EPOCH]; omega
  refine List.foldlRecOn (motive := fun u : State => u.get (R.GLB_PEER_EPOCH.EPOCH d) = 0) _ _ (cleared 64 h) fun u hu p _ => ?_
  refine (State.get_put_other _ _ ?_).trans hu
  simp only [Field.key, R.GLB_PEER_EPOCH.EPOCH, R.LINK_STATUS.DOUBLED]
  omega

/-- The device stands alone: no position, no group, no role, no epoch. -/
def State.standAlone (s : State) : State :=
  let s := ((s.put R.GLB_DEVPOS.POSITION 0).put R.GLB_DEVPOS.GROUP 0).putBit R.GLB_DEVPOS.ASSIGNED false
  let s := (s.putBit R.GLB_DEVPOS.LEAD false).putBit R.GLB_DEVPOS.SPARE false
  ((s.put R.GLB_MEMBERSHIP.EPOCH 0).put R.GLB_MEMBERSHIP.ISSUED 0).put R.GLB_MEMBER_STATE.STATE 0

/-- The fields that give the device its place. -/
def standFields : List Field :=
  [R.GLB_DEVPOS.POSITION, R.GLB_DEVPOS.GROUP, R.GLB_DEVPOS.ASSIGNED, R.GLB_DEVPOS.LEAD, R.GLB_DEVPOS.SPARE, R.GLB_MEMBERSHIP.EPOCH,
    R.GLB_MEMBERSHIP.ISSUED, R.GLB_MEMBER_STATE.STATE]

theorem State.standAlone_only (s : State) : s.onlyRegs s.standAlone standFields :=
  ((((((((State.onlyRegs.refl s _).put (by simp [standFields]) _).put (by simp [standFields]) _).put (by simp [standFields]) _).put
    (by simp [standFields]) _).put (by simp [standFields]) _).put (by simp [standFields]) _).put (by simp [standFields]) _).put
    (by simp [standFields]) _

theorem State.standAlone_shows (s : State) : ∀ f ∈ standFields, s.standAlone.get f = 0 := by
  intro f hf
  simp only [standFields, List.mem_cons, List.not_mem_nil, or_false] at hf
  rcases hf with rfl | rfl | rfl | rfl | rfl | rfl | rfl | rfl <;>
    simp (disch := decide) only [State.standAlone, State.putBit, State.get_put_other, State.get_put_same] <;> rfl

/-- The lists of members are forgotten. -/
def State.dropMembers (s : State) : State :=
  { s with
    flt := { s.flt with
      spareEpoch := [], declared := [], silentReports := [], sent := [], rejoin := [], fatalFar := [], doubled := []
      groupSize := [], leadDevice := none, leadLost := false, serials := [], forming := none }
    frw := { s.frw with silent := [], missing := [], beacons := [], relays := [] } }

theorem State.forgetCluster_eq (s : State) : s.forgetCluster = s.noPeers.dropMembers := rfl

/-- The link keys of a device that leaves its cluster are gone. -/
def State.dropKeys (s : State) : State := { s with sec := { s.sec with keys := [] } }

theorem State.dropped_get (s : State) (f : Field) : s.dropMembers.dropKeys.get f = s.get f :=
  State.get_of_regs (s := s) (t := s.dropMembers.dropKeys) rfl f

theorem State.dropped_keeps (s : State) :
    s.dropMembers.dropKeys.frw = { s.frw with silent := [], missing := [], beacons := [], relays := [] } ∧
      s.dropMembers.dropKeys.que = s.que ∧ s.dropMembers.dropKeys.pending = s.pending ∧ s.dropMembers.dropKeys.mem = s.mem ∧
      s.dropMembers.dropKeys.sec.keys = [] ∧ s.dropMembers.dropKeys.flt.declared = [] := ⟨rfl, rfl, rfl, rfl, rfl, rfl⟩

theorem State.dissolve_eq (s : State) : s.dissolve = ((s.haltSchedule.emptyCluster s.now).noPeers.dropMembers.dropKeys).standAlone := rfl

/-! ### Who is told when events are raised -/

/-- A register above those of the error log. -/
theorem notError_above {f : Field} (high : 0x30 * 64 ≤ f.key) : ∀ g ∈ errorFields, f.key ≠ g.key := by
  have below : ∀ g ∈ errorFields, g.key < 0x30 * 64 := by decide
  intro g hg
  have := below g hg
  omega

namespace State.Raises

variable {s t : State} (h : s.Raises t)
include h

theorem self : t.self = s.self := by
  unfold State.self
  rw [h.get (by decide), h.get (by decide)]

theorem assigned : t.assigned = s.assigned := h.isSet (by decide)

theorem isLead : t.isLead = s.isLead := by
  unfold State.isLead
  rw [h.assigned, h.isSet (by decide)]

theorem members : t.members = s.members := by
  have epochs (d : Nat) : t.get (R.GLB_PEER_EPOCH.EPOCH d) = s.get (R.GLB_PEER_EPOCH.EPOCH d) :=
    h.get (notError_above (by simp only [Field.key, R.GLB_PEER_EPOCH.EPOCH]; omega))
  unfold State.members
  simp only [h.assigned, h.self, epochs]

theorem others : t.others = s.others := by
  unfold State.others
  rw [h.members, h.self]

theorem route (d : Nat) : t.route d = s.route d := by
  have groups (g : Nat) : t.groupOf g = s.groupOf g := (congrArg (fun v : State => Table.get 0 g v.flt.groupSize) h.eq :)
  have up (p : Nat) : t.portUp p = s.portUp p := by
    unfold State.portUp
    rw [h.get (notError_above (by simp only [Field.key, R.LINK_STATUS.STATE]; omega))]
  have ups : t.portUp = s.portUp := funext up
  have position : t.get R.GLB_DEVPOS.POSITION = s.get R.GLB_DEVPOS.POSITION := h.get (by decide)
  have group : t.get R.GLB_DEVPOS.GROUP = s.get R.GLB_DEVPOS.GROUP := h.get (by decide)
  unfold State.route State.meshPort State.columnPorts State.groups
  simp only [groups, ups, position, group]

theorem dead : t.flt.dead = s.flt.dead := (congrArg (fun v : State => v.flt.dead) h.eq :)
theorem declared : t.flt.declared = s.flt.declared := (congrArg (fun v : State => v.flt.declared) h.eq :)

end State.Raises

/-! ### A member is removed (R582) -/

/-- A member is removed; no model instance needs it. -/
def State.removed (s : State) (x : Nat) : State :=
  let s := (s.put (R.GLB_PEER_EPOCH.EPOCH x) 0).putBit (R.GLB_PEER_EPOCH.VACANT x) true
  { s with
    flt := { s.flt with
      declared := s.flt.declared.filter fun d => d.device != x
      sent := s.flt.sent.filter fun m => m.dst != x
      doubled := s.flt.doubled.filter fun (e : Nat × Nat) => e.1 != x }
    srv := { s.srv with laneWait := s.srv.laneWait.map fun (e : Nat × List Nat) => (e.1, e.2.filter fun d => d != x) }
    frw := { s.frw with silent := Table.erase x s.frw.silent } }

theorem State.removeMember_eq {s : State} {th : Nat} (x : Nat) (insts : s.cfg.instA = []) : s.removeMember th x = s.removed x := by
  have same : s.removeMember th x = (s.removed x).suspendWhere th fun i => bit i.mask x := rfl
  have kept : (s.removed x).cfg.instA = [] := insts
  rw [same, State.suspendWhere, kept]
  rfl

theorem State.removed_get (s : State) (x : Nat) (f : Field) :
    (s.removed x).get f = ((s.put (R.GLB_PEER_EPOCH.EPOCH x) 0).putBit (R.GLB_PEER_EPOCH.VACANT x) true).get f := State.get_of_regs rfl f

/-! ### A stop that the lead orders (R42, R159) -/

theorem State.stopAtHeadland_get (s : State) (k : Nat) {f : Field} (other : f.key ≠ R.FRW_STATE.STOP_PENDING.key) :
    (s.stopAtHeadland k).get f = s.get f := by
  have same : (s.stopAtHeadland k).get f = (s.putBit R.FRW_STATE.STOP_PENDING true).get f := State.get_of_regs rfl f
  exact same.trans (State.get_put_other _ _ other)

theorem State.stopAtHeadland_pending (s : State) (k : Nat) : (s.stopAtHeadland k).isSet R.FRW_STATE.STOP_PENDING = true := by
  have same : (s.stopAtHeadland k).get R.FRW_STATE.STOP_PENDING = (s.putBit R.FRW_STATE.STOP_PENDING true).get R.FRW_STATE.STOP_PENDING :=
    State.get_of_regs rfl _
  exact (State.isSet_of_get same).trans (State.isSet_putBit Nat.one_pos true)

theorem State.stopAtHeadland_keeps (s : State) (k : Nat) :
    (s.stopAtHeadland k).mem = s.mem ∧ (s.stopAtHeadland k).que = s.que ∧ (s.stopAtHeadland k).pending = s.pending := ⟨rfl, rfl, rfl⟩

theorem State.stopAtHeadland_frw {s : State} (k : Nat) (free : s.frw.stopAt = none) :
    (s.stopAtHeadland k).frw = { s.frw with stopAt := some k } := by
  unfold State.stopAtHeadland
  dsimp only
  rw [free]

/-! ### A member is declared dead (R582) -/

/-- The lead notes the declaration and tells the members. -/
def State.declares (s : State) (x : Nat) : State :=
  let ep := s.get (R.GLB_PEER_EPOCH.EPOCH x)
  let u := s.raise (evPeerDeclaredDead x ep)
  let before := u.flt.declared.map fun d => { d with waiting := d.waiting.filter fun w => w != x }
  let w := { u with flt := { u.flt with
    declared := before ++ [(⟨x, ep, u.others.filter fun d => d != x && !u.isDeclared d⟩ : Declared)]
    sent := u.flt.sent.filter fun m => m.dst != x } }
  w.sendAll w.others (.fenced x ep (Table.get 0 x w.flt.serials))

theorem State.declareDead_eq {s : State} {x : Nat} (lead : s.isLead = true) (other : x ≠ s.self) (member : x ∈ s.members)
    (first : s.isDeclared x = false) (noCommit : s.cfg.lead = none) (idle : s.que.tickets = []) : s.declareDead x = s.declares x := by
  have raised := State.Raises.raise s (evPeerDeclaredDead x (s.get (R.GLB_PEER_EPOCH.EPOCH x)))
  have noCommit' : (s.raise (evPeerDeclaredDead x (s.get (R.GLB_PEER_EPOCH.EPOCH x)))).cfg.lead = none := by rw [raised.cfg]; exact noCommit
  have kept (u : State) (h : u.cfg.lead = none) : u.declaredAbort x = u := by rw [State.declaredAbort, h]
  have quiet (u : State) (h : u.que.tickets = []) : u.failAwaiting x = u := by rw [State.failAwaiting, h]; rfl
  unfold State.declareDead State.declares
  rw [if_neg (by simp [lead, other, member, first])]
  dsimp only
  rw [kept _ noCommit']
  refine quiet _ ?_
  refine (congrArg Que.tickets (State.sendAll_onlySends _ _ _).que).trans ?_
  exact (congrArg Que.tickets raised.que).trans idle

/-- A message that must be acknowledged is kept until it is. -/
theorem State.sendPort_sent (s : State) (port : Option Nat) (dst : Nat) (b : CtrlBody) :
    (s.sendPort port dst b).flt.sent = s.flt.sent ∨
      (acknowledged dst b = true ∧ ∃ m, (s.sendPort port dst b).flt.sent = s.flt.sent ++ [⟨dst, m, false⟩]) := by
  unfold State.sendPort
  split
  · exact .inl rfl
  · extract_lets m u
    have frames : u.flt.sent = s.flt.sent := by
      unfold u
      cases port with
      | none => rfl
      | some p => exact (congrArg (fun w : State => w.flt.sent) (State.onlyFrames.sendFragments s p m) :)
    cases acked : acknowledged dst b with
    | false => exact .inl frames
    | true => exact .inr ⟨rfl, m, congrArg (· ++ [(⟨dst, m, false⟩ : Sent)]) frames⟩

/-- A device's declaration leaves no message to it that waits to be acknowledged. -/
theorem State.sendAll_sent {s : State} {l : List Nat} {x ep n : Nat} (none_there : ∀ y ∈ s.flt.sent, y.dst ≠ x) :
    ∀ y ∈ (s.sendAll l (.fenced x ep n)).flt.sent, y.dst ≠ x := by
  refine List.foldlRecOn (motive := fun u : State => ∀ y ∈ u.flt.sent, y.dst ≠ x) _ _ none_there fun u h d _ => ?_
  rcases u.sendPort_sent (u.route d) d (.fenced x ep n) with same | ⟨acked, m, more⟩
  · intro y hy
    exact h y (same ▸ hy)
  · intro y hy
    rcases List.mem_append.1 (more ▸ hy : y ∈ u.flt.sent ++ [⟨d, m, false⟩]) with hy | hy
    · exact h y hy
    · rw [List.mem_singleton.1 hy]
      exact fun same => absurd same.symm (by simpa [acknowledged] using acked)

/-- What a declaration leaves: the member is noted with those that must acknowledge it, the others are told, and it is logged. -/
structure State.Declares (s t : State) (d : Nat) : Prop where
  que : t.que = s.que
  pending : t.pending = s.pending
  mem : t.mem = s.mem
  noted : ∃ y ∈ t.flt.declared, y.device = d ∧ y.epoch = s.get (R.GLB_PEER_EPOCH.EPOCH d) ∧
    y.waiting = s.others.filter fun e => e != d && !s.isDeclared e
  told : ∀ x ∈ s.others, (s.route x).isSome = true →
    t.told x (.fenced d (s.get (R.GLB_PEER_EPOCH.EPOCH d)) (Table.get 0 d s.flt.serials))
  quiet : ∀ y ∈ t.flt.sent, y.dst ≠ d
  seen : bit (t.get R.GLB_ERR_SUMMARY.SEEN) 5 = true

theorem State.declares_declares {s : State} (alive : s.flt.dead = false) (d : Nat) : s.Declares (s.declares d) d := by
  set ep := s.get (R.GLB_PEER_EPOCH.EPOCH d) with hep
  have raised := State.Raises.raise s (evPeerDeclaredDead d ep)
  have seen := s.raise_seen (evPeerDeclaredDead d ep) (show 6 - 1 < 8 by decide)
  have shape : s.declares d = (let u := s.raise (evPeerDeclaredDead d ep)
    let before := u.flt.declared.map fun e => { e with waiting := e.waiting.filter fun w => w != d }
    let w := { u with flt := { u.flt with
      declared := before ++ [(⟨d, ep, u.others.filter fun e => e != d && !u.isDeclared e⟩ : Declared)]
      sent := u.flt.sent.filter fun m => m.dst != d } }
    w.sendAll w.others (.fenced d ep (Table.get 0 d w.flt.serials))) := rfl
  generalize s.raise (evPeerDeclaredDead d ep) = u at *
  dsimp only at shape
  have waiting : (u.others.filter fun e => e != d && !u.isDeclared e) = s.others.filter fun e => e != d && !s.isDeclared e := by
    unfold State.isDeclared
    rw [raised.others, raised.declared]
  rw [waiting] at shape
  set w : State := { u with flt := { u.flt with
      declared := (u.flt.declared.map fun e => { e with waiting := e.waiting.filter fun w => w != d }) ++
        [(⟨d, ep, s.others.filter fun e => e != d && !s.isDeclared e⟩ : Declared)]
      sent := u.flt.sent.filter fun m => m.dst != d } } with hw
  have others : w.others = s.others := (congrArg State.others hw).trans raised.others
  have serials : w.flt.serials = s.flt.serials := (congrArg (fun v : State => v.flt.serials) raised.eq :)
  have dead : w.flt.dead = false := raised.dead.trans alive
  have route (x : Nat) : w.route x = s.route x := raised.route x
  have sends := w.sendAll_onlySends w.others (.fenced d ep (Table.get 0 d w.flt.serials))
  have tells (x : Nat) (hx : x ∈ w.others) (way : (w.route x).isSome = true) := State.sendAll_told (.fenced d ep (Table.get 0 d w.flt.serials)) dead hx way
  have quiet := State.sendAll_sent (s := w) (l := w.others) (x := d) (ep := ep) (n := Table.get 0 d w.flt.serials)
    (fun y hy => by simpa using (List.mem_filter.1 hy).2)
  rw [shape]
  generalize w.sendAll w.others (.fenced d ep (Table.get 0 d w.flt.serials)) = t at *
  refine ⟨sends.que.trans raised.que, sends.pending.trans raised.pending, sends.mem.trans raised.mem,
    ⟨⟨d, ep, s.others.filter fun e => e != d && !s.isDeclared e⟩, ?_, rfl, rfl, rfl⟩, fun x hx way => ?_, quiet, ?_⟩
  · have declared : t.flt.declared = w.flt.declared := (congrArg (fun v : State => v.flt.declared) sends :)
    rw [declared]
    exact List.mem_append_right _ (.head _)
  · rw [← serials]
    exact tells x (others ▸ hx) (by rw [route]; exact way)
  · rw [State.get_of_regs sends.regs]
    exact seen

/-! ### The commands of a membership -/

section

variable {s : State} (alive : s.alive = true) (idle : s.que.tickets = [])
include alive idle

/-- A message not yet acknowledged goes out once more. -/
theorem completes_resend {dst id q : Nat} {x : Sent} (found : s.flt.sent.find? (fun x => x.dst == dst && x.msg.msgId == id) = some x)
    (fresh : x.resent = false) (way : s.route dst = some q) :
    Completes (.controlResend dst id) s fun t =>
      Output.ctrl x.msg.dst x.msg ∈ t.out ∧ t.frw = s.frw ∧ t.mem = s.mem ∧ (∀ f, t.get f = s.get f) ∧
        t.flt = { s.flt with sent := s.flt.sent.map fun y => if y.dst == dst && y.msg.msgId == id then { y with resent := true } else y } := by
  have runs : s.resend dst id = ({ s with flt := { s.flt with
      sent := s.flt.sent.map fun y => if y.dst == dst && y.msg.msgId == id then { y with resent := true } else y } } : State).sendFragments q
        x.msg := by
    unfold State.resend
    dsimp only
    rw [found]
    dsimp only
    rw [if_pos (by simp [fresh])]
    change (match s.route dst with | some p => _ | none => _) = _
    rw [way]
  set u : State := { s with flt := { s.flt with
    sent := s.flt.sent.map fun y => if y.dst == dst && y.msg.msgId == id then { y with resent := true } else y } } with hu
  have frames := State.onlyFrames.sendFragments u q x.msg
  have sends := u.sendFragments_onlySends q x.msg
  exact completes_act (f := fun s => s.resend dst id) (t := u.sendFragments q x.msg) alive rfl runs
    ((congrArg Que.tickets sends.que).trans idle) sends.pending ⟨u.sendFragments_sends q x.msg, (congrArg State.frw frames :), sends.mem,
      fun f => State.get_of_regs sends.regs f, (congrArg State.flt frames :)⟩

/-- A message not acknowledged a second time counts its receiver as missing. -/
theorem completes_resend_missing {dst id : Nat} {x : Sent} (found : s.flt.sent.find? (fun x => x.dst == dst && x.msg.msgId == id) = some x)
    (again : x.resent = true) (plain : ∀ d e n, x.msg.body ≠ .fenced d e n) :
    Completes (.controlResend dst id) s fun t =>
      t.flt = { s.flt with sent := s.flt.sent.filter fun y => !(y.dst == dst && y.msg.msgId == id) } ∧ dst ∈ t.frw.missing ∧
        s.leaves t [R.FRW_EVENTS2.MISSING_BEACONS] := by
  set u : State := { s with
    flt := { s.flt with sent := s.flt.sent.filter fun y => !(y.dst == dst && y.msg.msgId == id) }
    frw := { s.frw with missing := if s.frw.missing.contains dst then s.frw.missing else s.frw.missing ++ [dst] } } with hu
  have runs : s.resend dst id = u.bump R.FRW_EVENTS2.MISSING_BEACONS := by
    unfold State.resend
    dsimp only
    rw [found]
    dsimp only
    rw [if_neg (by simp [again])]
    split
    · next d e n body => exact absurd body (plain d e n)
    · rfl
  refine completes_act (f := fun s => s.resend dst id) (t := u.bump R.FRW_EVENTS2.MISSING_BEACONS) alive rfl runs idle rfl
    ⟨rfl, ?_, rfl, rfl, fun f other => ?_⟩
  · change dst ∈ if s.frw.missing.contains dst then s.frw.missing else s.frw.missing ++ [dst]
    split
    · next there => simpa using there
    · simp
  · exact (State.get_put_other _ _ (other _ (by simp))).trans (State.get_of_regs rfl f)

/-- A member declared dead is noted, and the others are told. -/
theorem completes_declareDead {d : Nat} (due : s.deathDue d = true) (lead : s.isLead = true) (noCommit : s.cfg.lead = none) (other : d ≠ s.self)
    (member : d ∈ s.members) (first : s.isDeclared d = false) :
    Completes (.peerDeclaredDead d) s fun t =>
      (∃ y ∈ t.flt.declared, y.device = d ∧ y.epoch = s.get (R.GLB_PEER_EPOCH.EPOCH d)) ∧
        (∀ x ∈ s.others, (s.route x).isSome = true →
          t.told x (.fenced d (s.get (R.GLB_PEER_EPOCH.EPOCH d)) (Table.get 0 d s.flt.serials))) ∧
        (∀ y ∈ t.flt.sent, y.dst ≠ d) ∧ bit (t.get R.GLB_ERR_SUMMARY.SEEN) 5 = true ∧ t.mem = s.mem := by
  have runs : (if s.deathDue d then s.declareDead d else s) = s.declares d :=
    (if_pos due).trans (State.declareDead_eq lead other member first noCommit idle)
  have declares := State.declares_declares (s := s) (State.dead_of_alive alive) d
  obtain ⟨y, there, device, epoch, -⟩ := declares.noted
  exact completes_act (f := fun s => if s.deathDue d then s.declareDead d else s) (t := s.declares d) alive rfl runs
    ((congrArg Que.tickets declares.que).trans idle) declares.pending
    ⟨⟨y, there, device, epoch⟩, declares.told, declares.quiet, declares.seen, declares.mem⟩

/-- A declared member whose declaration all have acknowledged is removed. -/
theorem completes_removed {d e : Nat} (when_ : s.isSet R.FRW_STATE.HEADLAND = true ∨ s.inSchedule = false) (declared : s.flt.declared = [⟨d, e, []⟩])
    (insts : s.cfg.instA = []) :
    Completes .membershipApply s fun t =>
      t.get (R.GLB_PEER_EPOCH.EPOCH d) = 0 ∧ t.isSet (R.GLB_PEER_EPOCH.VACANT d) = true ∧ t.flt.declared = [] ∧
        (∀ y ∈ t.flt.sent, y.dst ≠ d) ∧ s.leaves t [R.GLB_PEER_EPOCH.EPOCH d, R.GLB_PEER_EPOCH.VACANT d] := by
  have runs : (if s.isSet R.FRW_STATE.HEADLAND || !s.inSchedule then s.membershipItem s.now else s) = s.removed d := by
    rw [if_pos (by rcases when_ with h | h <;> simp [h]), State.membershipItem, declared]
    exact State.removeMember_eq d insts
  have apart : (R.GLB_PEER_EPOCH.EPOCH d).key ≠ (R.GLB_PEER_EPOCH.VACANT d).key := by
    simp only [Field.key, R.GLB_PEER_EPOCH.EPOCH, R.GLB_PEER_EPOCH.VACANT]; omega
  have unheld : (s.removed d).get (R.GLB_PEER_EPOCH.EPOCH d) = 0 :=
    (s.removed_get d _).trans ((State.get_put_other _ _ apart).trans (State.get_put_fits _ _ (by simp)))
  have vacant : (s.removed d).isSet (R.GLB_PEER_EPOCH.VACANT d) = true :=
    (State.isSet_of_get (s.removed_get d _)).trans (State.isSet_putBit Nat.one_pos true)
  refine completes_act (f := fun s => if s.isSet R.FRW_STATE.HEADLAND || !s.inSchedule then s.membershipItem s.now else s) (t := s.removed d) alive rfl
    runs idle rfl ⟨unheld, vacant, ?_, fun y hy => ?_, rfl, rfl, fun f other => ?_⟩
  · simp [State.removed, declared]
  · simpa using (List.mem_filter.1 hy).2
  · exact (s.removed_get d f).trans ((State.get_put_other _ _ (other _ (by simp))).trans (State.get_put_other _ _ (other _ (by simp))))

/-- A counterpart that differs twice is reported, and under ENFORCE the lead stops the schedule. -/
theorem completes_clusterDivergent {d : Nat} (lead : s.isLead = true) (twice : 2 ≤ Table.get 0 d s.cfg.divergent) (other : d ≠ s.self) :
    Completes (.clusterDivergent d) s fun t =>
      bit (t.get R.GLB_ERR_SUMMARY.SEEN) 7 = true ∧ t.mem = s.mem ∧
        (s.isSet R.CFG_CTRL.ENFORCE = false → t.frw = s.frw) ∧
        (s.isSet R.CFG_CTRL.ENFORCE = true → s.inSchedule = true → s.frw.stopAt = none →
          t.frw.stopAt = some (s.stopHeadland s.furrow) ∧ t.isSet R.FRW_STATE.STOP_PENDING = true) := by
  have diverges : (!s.isLead || decide (Table.get 0 d s.cfg.divergent < 2) || (d == s.self && !s.isSet R.CFG_CTRL.ENFORCE)) = false := by
    simp [lead, other]
    omega
  set digest := if d == s.self then s.get R.CFG_DIGEST.ACTIVE_DIGEST else (Table.get (0, 0) d s.cfg.peers).2
  set u : State := { s with cfg := { s.cfg with divergent := Table.insert d 1 s.cfg.divergent } } with hu
  have raised := State.Raises.raise u (evClusterDivergent d digest)
  have seen := u.raise_seen (evClusterDivergent d digest) (show 8 - 1 < 8 by decide)
  have runs : s.clusterDivergent d = (let w := u.raise (evClusterDivergent d digest)
    if s.isSet R.CFG_CTRL.ENFORCE && w.inSchedule && w.mayStop (w.stopHeadland w.furrow) then w.stopAll (w.stopHeadland w.furrow) else w) := by
    unfold State.clusterDivergent
    dsimp only
    rw [if_neg (by rw [diverges]; exact Bool.false_ne_true)]
  generalize u.raise (evClusterDivergent d digest) = w at *
  dsimp only at runs
  have w_frw : w.frw = s.frw := raised.frw
  have w_state : w.inSchedule = s.inSchedule := by
    unfold State.inSchedule State.frwState
    rw [raised.get (by decide)]
    rfl
  have w_stop : w.stopHeadland w.furrow = s.stopHeadland s.furrow := by
    unfold State.stopHeadland State.furrow
    rw [raised.get (by decide), raised.isSet (by decide)]
    rfl
  have idle' : w.que.tickets = [] := (congrArg Que.tickets raised.que).trans idle
  by_cases stops : (s.isSet R.CFG_CTRL.ENFORCE && w.inSchedule && w.mayStop (w.stopHeadland w.furrow)) = true
  · rw [if_pos stops] at runs
    have result : w.stopAll (w.stopHeadland w.furrow) = (w.stopAtHeadland (w.stopHeadland w.furrow)).sendAll w.others
      (.fwdCmd (stopPacket (w.stopHeadland w.furrow)) none none) := rfl
    rw [result] at runs
    obtain ⟨mem, que, pending⟩ := w.stopAtHeadland_keeps (w.stopHeadland w.furrow)
    have ordered := w.stopAtHeadland_pending (w.stopHeadland w.furrow)
    have shown := w.stopAtHeadland_get (w.stopHeadland w.furrow) (f := R.GLB_ERR_SUMMARY.SEEN) (by decide)
    have frw := State.stopAtHeadland_frw (s := w) (w.stopHeadland w.furrow)
    generalize w.stopAtHeadland (w.stopHeadland w.furrow) = v at *
    have sends := v.sendAll_onlySends w.others (.fwdCmd (stopPacket (w.stopHeadland w.furrow)) none none)
    generalize v.sendAll w.others (.fwdCmd (stopPacket (w.stopHeadland w.furrow)) none none) = t at *
    refine completes_act (f := fun s => s.clusterDivergent d) (t := t) alive rfl runs ((congrArg Que.tickets (sends.que.trans que)).trans idle')
      (sends.pending.trans (pending.trans raised.pending)) ⟨?_, sends.mem.trans (mem.trans raised.mem), fun off => ?_, fun _ _ free => ⟨?_, ?_⟩⟩
    · rw [State.get_of_regs sends.regs, shown]
      exact seen
    · simp [off] at stops
    · have same : t.frw = v.frw := (congrArg State.frw sends :)
      rw [same, frw ((congrArg Frw.stopAt w_frw).trans free), w_stop]
    · exact (State.isSet_of_get (State.get_of_regs sends.regs _)).trans ordered
  · rw [if_neg stops] at runs
    refine completes_act (f := fun s => s.clusterDivergent d) (t := w) alive rfl runs idle' raised.pending
      ⟨seen, raised.mem, fun _ => w_frw, fun on running free => absurd ?_ stops⟩
    have may : w.mayStop (w.stopHeadland w.furrow) = true := by
      rw [State.mayStop, w_frw, free]
    simp [on, w_state, running, may]

/-- A member that has lost its lead stops. -/
theorem completes_leadLost (silent : s.frw.leadSilent = true) (start : s.frw.startTicket = none) (stop : s.frw.stopTicket = none)
    (alone : s.stopsAlone) :
    Completes .leadLost s fun t =>
      t.flt.leadLost = true ∧ t.frw.leadSilent = false ∧ t.inSchedule = false ∧ (s.inSchedule = true → t.frwState = frwStopped) ∧
        bit (t.get R.GLB_ERR_SUMMARY.SEEN) 7 = true ∧ t.mem = s.mem := by
  have halts := State.haltSchedule_halts alone start stop
  have raised := State.Raises.raise s.haltSchedule (evLeadLost s.leadId)
  have seen := s.haltSchedule.raise_seen (evLeadLost s.leadId) (show 8 - 1 < 8 by decide)
  have runs : (if s.frw.leadSilent then s.loseLead else s) = (let u := s.haltSchedule.raise (evLeadLost s.leadId)
    { u with frw := { u.frw with leadSilent := false }, flt := { u.flt with leadLost := true } }) := if_pos silent
  generalize s.haltSchedule = h at *
  generalize h.raise (evLeadLost s.leadId) = u at *
  have state : u.frwState = h.frwState := raised.get (by decide)
  refine completes_act (f := fun s => if s.frw.leadSilent then s.loseLead else s) alive rfl runs ?_ (raised.pending.trans halts.pending)
    ⟨rfl, rfl, ?_, fun on => state.trans (halts.stopped on), seen, raised.mem.trans halts.mem⟩
  · exact (congrArg Que.tickets (raised.que.trans halts.que)).trans idle
  · have ended := halts.ended
    unfold State.inSchedule at ended ⊢
    rw [← state] at ended
    exact ended

/-- A member whose lead stays lost leaves the cluster. -/
theorem completes_dissolve (lost : s.flt.leadLost = true) (alone : s.stopsAlone) (insts : s.cfg.instA = []) (start : s.frw.startTicket = none)
    (stop : s.frw.stopTicket = none) :
    Completes .dissolve s fun t =>
      t.assigned = false ∧ t.isSet R.GLB_DEVPOS.LEAD = false ∧ t.isSet R.GLB_DEVPOS.SPARE = false ∧ t.self = 0 ∧
        t.get R.GLB_MEMBERSHIP.EPOCH = 0 ∧ t.get R.GLB_MEMBER_STATE.STATE = 0 ∧ (∀ d, d < 64 → t.get (R.GLB_PEER_EPOCH.EPOCH d) = 0) ∧
        t.frwState = frwNoPlan ∧ t.frw.active = none ∧ t.get R.CFG_STATUS.ACTIVE_EPOCH = 0 ∧ t.sec.keys = [] ∧ t.flt.declared = [] ∧
        t.mem = s.mem := by
  have halts := State.haltSchedule_halts alone start stop
  have runs : (if s.flt.leadLost then s.dissolve else s) =
    ((s.haltSchedule.emptyCluster s.now).noPeers.dropMembers.dropKeys).standAlone := (if_pos lost).trans s.dissolve_eq
  generalize s.haltSchedule = h at *
  have empties := State.emptyCluster_empties (s := h) s.now ((congrArg Cfg.lead halts.cfg).trans alone.2.2) ((congrArg Cfg.instA halts.cfg).trans insts)
  generalize h.emptyCluster s.now = u at *
  have peers := u.noPeers_regsOnly
  have state : u.noPeers.frwState = frwNoPlan := (u.noPeers_get (by decide) (by decide)).trans empties.state
  have epoch : u.noPeers.get R.CFG_STATUS.ACTIVE_EPOCH = 0 := (u.noPeers_get (by decide) (by decide)).trans empties.epoch
  have held {d : Nat} (hd : d < 64) := u.noPeers_epoch hd
  have active : u.noPeers.frw.active = none := (congrArg Frw.active peers.frw).trans empties.active
  have mem : u.noPeers.mem = s.mem := peers.mem.trans (empties.mem.trans halts.mem)
  have que : u.noPeers.que = s.que := peers.que.trans (empties.que.trans halts.que)
  have pending : u.noPeers.pending = s.pending := peers.pending.trans (empties.pending.trans halts.pending)
  generalize u.noPeers = w at *
  have dropped := w.dropped_get
  have kept := w.dropped_keeps
  generalize w.dropMembers.dropKeys = v at *
  have only := v.standAlone_only
  have zero := v.standAlone_shows
  have reads {f : Field} (other : ∀ g ∈ standFields, f.key ≠ g.key) : v.standAlone.get f = w.get f := (only.get other).trans (dropped f)
  have clear {f : Field} (hf : f ∈ standFields) : v.standAlone.isSet f = false := by
    rw [State.isSet, zero f hf]
    rfl
  obtain ⟨v_frw, v_que, v_pending, v_mem, v_keys, v_declared⟩ := kept
  have t_frw : v.standAlone.frw = v.frw := (congrArg State.frw only.1 :)
  have t_sec : v.standAlone.sec = v.sec := (congrArg State.sec only.1 :)
  have t_flt : v.standAlone.flt = v.flt := (congrArg State.flt only.1 :)
  have t_mem : v.standAlone.mem = v.mem := (congrArg State.mem only.1 :)
  have t_que := only.que
  have t_pending := only.pending
  generalize v.standAlone = t at *
  refine completes_act (f := fun s => if s.flt.leadLost then s.dissolve else s) (t := t) alive rfl runs
    ((congrArg Que.tickets (t_que.trans (v_que.trans que))).trans idle) (t_pending.trans (v_pending.trans pending))
    ⟨clear (by simp [standFields]), clear (by simp [standFields]), clear (by simp [standFields]), ?_, zero _ (by simp [standFields]),
      zero _ (by simp [standFields]), fun d hd => (reads ?_).trans (held hd), (reads (by decide)).trans state,
      (congrArg Frw.active (t_frw.trans v_frw)).trans active, (reads (by decide)).trans epoch, (congrArg Sec.keys t_sec).trans v_keys,
      (congrArg Flt.declared t_flt).trans v_declared, t_mem.trans (v_mem.trans mem)⟩
  · rw [State.self, zero _ (by simp [standFields]), zero _ (by simp [standFields])]
  · have below : ∀ g ∈ standFields, g.key < 0x200 * 64 := by decide
    intro g hg
    have := below g hg
    simp only [Field.key, R.GLB_PEER_EPOCH.EPOCH] at this ⊢
    omega

end

end Sys2Proof.Machine

open Sys2Proof Sys2Proof.Machine

/-- Settles O51: silence is counted, a death is declared and applied, and a member that has lost its lead leaves. -/
theorem membership : Obligations.Membership := by
  intro s quiet
  obtain ⟨alive, idle⟩ := quiet
  refine ⟨fun dst id x found => ⟨fun q fresh way => completes_resend alive idle found fresh way,
      fun again plain => completes_resend_missing alive idle found again plain⟩,
    fun d => ⟨fun early => ?_, fun due lead noCommit other member first => completes_declareDead alive idle due lead noCommit other member first⟩,
    fun d e _ when_ declared insts => completes_removed alive idle when_ declared insts, fun held => ?_,
    fun d => ⟨fun lead twice other => completes_clusterDivergent alive idle lead twice other, fun once => ?_⟩,
    fun silent start stop alone => completes_leadLost alive idle silent start stop alone, fun heard => ?_,
    fun lost alone insts _ start stop => completes_dissolve alive idle lost alone insts start stop, fun kept => ?_⟩
  · exact completes_act (f := fun s => if s.deathDue d then s.declareDead d else s) alive rfl (if_neg (by simp [early])) idle rfl rfl
  · refine completes_act (f := fun s => if s.isSet R.FRW_STATE.HEADLAND || !s.inSchedule then s.membershipItem s.now else s) (t := s) alive rfl
      ?_ idle rfl rfl
    rcases held with ⟨y, hy, waits⟩ | ⟨body, runs⟩
    · split
      · refine if_neg fun all => waits ?_
        simpa using List.all_eq_true.1 all y hy
      · rfl
    · exact if_neg (by simp [body, runs])
  · exact completes_act (f := fun s => s.clusterDivergent d) alive rfl (if_pos (by simp [once])) idle rfl rfl
  · exact completes_act (f := fun s => if s.frw.leadSilent then s.loseLead else s) alive rfl (if_neg (by simp [heard])) idle rfl rfl
  · exact completes_act (f := fun s => if s.flt.leadLost then s.dissolve else s) alive rfl (if_neg (by simp [kept])) idle rfl rfl


end

section
/-!
SUPPORT. FENCED and FAILURE (O50).
-/

namespace Sys2Proof.Machine

/-! ### A message that acts once it has come in -/

theorem completes_taken {c : Instr} {s t : State} {p frags : Nat} {m : CtrlMsg} {g : State → State} {P : State → Prop}
    (takes : s.takesMessage p m) (runs : exec c s = s.act fun s => s.ctrlIn p frags m g) (effect : g (s.arrived p frags m) = t)
    (none_open : t.que.tickets = []) (waiting : t.pending = s.pending) (h : P t) : Completes c s P :=
  completes_act (f := fun s => s.ctrlIn p frags m g) takes.1 runs ((State.ctrlIn_taken takes frags g).trans effect) none_open waiting h

namespace State.onlySends

variable {s t : State} (h : s.onlySends t)
include h

theorem get (f : Field) : t.get f = s.get f := State.get_of_regs h.regs f
theorem isSet (f : Field) : t.isSet f = s.isSet f := State.isSet_of_get (h.get f)
theorem frw : t.frw = s.frw := (congrArg State.frw h :)
theorem cfg : t.cfg = s.cfg := (congrArg State.cfg h :)
theorem tiles : t.tiles = s.tiles := (congrArg State.tiles h :)
theorem isLead : t.isLead = s.isLead := (congrArg State.isLead h :)
theorem self : t.self = s.self := (congrArg State.self h :)
theorem members : t.members = s.members := (congrArg State.members h :)
theorem others : t.others = s.others := (congrArg State.others h :)
theorem declared : t.flt.declared = s.flt.declared := (congrArg (fun v : State => v.flt.declared) h :)

end State.onlySends

/-! ### A failed step's tiles go to SKIP (R192) -/

/-- A signal leaves every sequencer's state. -/
theorem State.applySignal_seqState (s : State) (n : Nat) (d : Bytes) (m : Nat) : (s.applySignal n d).seqState m = s.seqState m := by
  unfold State.applySignal
  split
  · refine State.get_put_other _ _ ?_
    have ctr : D.sigCtr d < 32 := bits_lt _ _ 5
    simp only [Field.key, R.TILE_SEQ_STATUS.STATE, R.TILE_EVENT.VALUE]
    split <;> omega
  · rfl

theorem State.skipQueue_seqState (s : State) (n q m : Nat) : (s.skipQueue n q).seqState m = s.seqState m := by
  unfold State.skipQueue
  split
  · rfl
  · exact List.foldlRecOn (motive := fun t : State => t.seqState m = s.seqState m) _ _ rfl fun t h x _ =>
      (t.applySignal_seqState n _ m).trans h

/-- From `s` to `t` only registers, tiles and the schedule change. -/
def State.tilesOnly (s t : State) : Prop := t = { s with regs := t.regs, tiles := t.tiles, frw := t.frw }

theorem State.tilesOnly.trans {a b c : State} (h : a.tilesOnly b) (k : b.tilesOnly c) : a.tilesOnly c := by
  rw [State.tilesOnly] at k ⊢
  refine k.trans ?_
  rw [h]

/-- The end of a list in SKIP leaves the other sequencers' states, and all but registers and the schedule. -/
theorem State.retire_skip_only {s : State} {n : Nat} (skip : s.seqState n = seqSkip) :
    s.tilesOnly (s.retire n) ∧ ∀ m, m ≠ n → (s.retire n).seqState m = s.seqState m := by
  unfold State.retire
  split
  · dsimp only
    rw [if_pos (by rw [skip]; rfl)]
    have only := (s.setSeq n (if s.idle then seqIdle else seqDone)).noteDone_only
    have done : (s.setSeq n (if s.idle then seqIdle else seqDone)).tilesOnly (s.setSeq n (if s.idle then seqIdle else seqDone)).noteDone := by
      rw [State.tilesOnly, only]
    refine ⟨State.tilesOnly.trans (b := s.setSeq n (if s.idle then seqIdle else seqDone)) rfl done, fun m other => ?_⟩
    exact (State.get_of_regs (congrArg State.regs only :) _).trans (State.get_put_other _ _ (seqState_key_inj other))
  · exact ⟨rfl, fun _ _ => rfl⟩

/-- A tile entering SKIP leaves the other tiles' states, and everything but registers, tiles and the schedule. -/
theorem State.enterSkip_only (s : State) (n : Nat) :
    s.tilesOnly (s.enterSkip n) ∧ ∀ m, m ≠ n → (s.enterSkip n).seqState m = s.seqState m := by
  have skips := State.SkipsOn.skipQueues (s.setSeq n seqSkip) n (List.range 17)
  have states (m : Nat) : ((List.range 17).foldl (fun (s : State) q => s.skipQueue n q) (s.setSeq n seqSkip)).seqState m =
      (s.setSeq n seqSkip).seqState m :=
    List.foldlRecOn (motive := fun t : State => t.seqState m = (s.setSeq n seqSkip).seqState m) _ _ rfl fun t h q _ =>
      (t.skipQueue_seqState n q m).trans h
  have shape : s.enterSkip n = ((List.range 17).foldl (fun (s : State) q => s.skipQueue n q) (s.setSeq n seqSkip)).retire n := rfl
  rw [shape]
  generalize (List.range 17).foldl (fun (s : State) q => s.skipQueue n q) (s.setSeq n seqSkip) = u at *
  obtain ⟨eq, others⟩ := State.retire_skip_only (s := u) (n := n) ((states n).trans (State.get_put_fits s _ (by decide : seqSkip < 2 ^ 3)))
  have base : s.tilesOnly u := by
    have shape := skips.eq
    rw [State.tilesOnly, shape]
    rfl
  exact ⟨base.trans eq, fun m other => (others m other).trans ((states m).trans (State.get_put_other _ _ (seqState_key_inj other)))⟩

/-- A tile that owes a failed step is in SKIP, past its list, or idle; another stays as it is. -/
theorem State.skipTiles (s : State) (l : List Nat) (nodup : l.Nodup) :
    let t := l.foldl (fun (s : State) n => if s.seqState n == seqSkip then s else s.enterSkip n) s
    s.tilesOnly t ∧ (∀ n ∈ l, t.seqState n = seqSkip ∨ t.seqState n = seqDone ∨ t.seqState n = seqIdle) ∧ ∀ n, n ∉ l → t.seqState n = s.seqState n := by
  induction l generalizing s with
  | nil => exact ⟨rfl, nofun, fun _ _ => rfl⟩
  | cons n l ih =>
    obtain ⟨fresh, rest⟩ := List.nodup_cons.1 nodup
    obtain ⟨u, hu, eq, state, others⟩ : ∃ u, (if s.seqState n == seqSkip then s else s.enterSkip n) = u ∧
        s.tilesOnly u ∧ (u.seqState n = seqSkip ∨ u.seqState n = seqDone ∨ u.seqState n = seqIdle) ∧ ∀ m, m ≠ n → u.seqState m = s.seqState m := by
      refine ⟨_, rfl, ?_⟩
      split
      · next there => exact ⟨rfl, .inl (by simpa using there), fun _ _ => rfl⟩
      · exact ⟨(s.enterSkip_only n).1, (s.enterSkip_skips n).1, (s.enterSkip_only n).2⟩
    obtain ⟨eq', states, kept⟩ := ih u rest
    intro t
    have ht : t = l.foldl (fun (s : State) n => if s.seqState n == seqSkip then s else s.enterSkip n) u := by
      rw [← hu]
      rfl
    rw [← ht] at eq' states kept
    clear_value t
    refine ⟨eq.trans eq', fun m hm => ?_, fun m hm => ?_⟩
    · rcases List.mem_cons.1 hm with rfl | later
      · rw [kept m fresh]
        exact state
      · exact states m later
    · have other : m ≠ n := fun same => hm (same ▸ .head _)
      have absent : m ∉ l := fun later => hm (.tail _ later)
      exact (kept m absent).trans (others m other)

/-! ### Records of faults elsewhere (R570, R573) -/

theorem State.message_flt (s : State) (v : Nat) : (s.message v).flt = s.flt := by
  have sent (o : Output) : (s.d2h o).flt = s.flt := by
    unfold State.d2h
    split <;> rfl
  unfold State.message
  split
  · rfl
  · dsimp only
    split <;> exact sent _

theorem State.errorIrq_flt (s : State) (cls : Nat) : (s.errorIrq cls).flt = s.flt := by
  unfold State.errorIrq
  split
  · exact s.message_flt _
  · rfl

theorem State.reportEvent_flt (s : State) (new : Bool) (r : ErrRec) : (s.reportEvent new r).flt = s.flt := by
  unfold State.reportEvent
  split <;> rfl

/-- A record that nothing merges stands behind the others where the log has room. -/
def State.logsAt (s : State) (q : ErrRec) : State :=
  { (s.put R.GLB_ERR_LOG.TAIL ((s.get R.GLB_ERR_LOG.TAIL + 1) % 64)) with
    flt := { s.flt with log := Table.set none (s.get R.GLB_ERR_LOG.TAIL) (some q) s.flt.log, last := some (s.get R.GLB_ERR_LOG.TAIL) } }

theorem State.appendRecord_room {s : State} (q : ErrRec) (first : s.flt.last = none)
    (room : (s.get R.GLB_ERR_LOG.TAIL + 1) % 64 ≠ s.get R.GLB_ERR_LOG.HEAD) : s.appendRecord q = (s.logsAt q, true) := by
  have apart : s.mergeable q = false := by rw [State.mergeable, first]
  rw [State.appendRecord, apart, if_neg Bool.false_ne_true]
  dsimp only
  rw [if_neg (by simpa using room)]
  rfl

/-- A record that goes on to the flash waits for it. -/
def State.keepsFor (s : State) (q : ErrRec) : State :=
  if decide (5 ≤ q.cls) && !s.mergeable q then { s with mgt := { s.mgt with toLog := s.mgt.toLog ++ [q] } } else s

theorem State.keepsFor_keeps (s : State) (q : ErrRec) :
    s.Raises (s.keepsFor q) ∧ (s.keepsFor q).flt = s.flt ∧ ∀ f, (s.keepsFor q).get f = s.get f := by
  unfold State.keepsFor
  split
  · exact ⟨⟨rfl, fun f _ => State.get_of_regs rfl f⟩, rfl, fun f => State.get_of_regs rfl f⟩
  · exact ⟨.refl s, rfl, fun _ => rfl⟩

/-- A record that the lead is told of is logged behind the others, where the log has room and nothing merges it. -/
theorem State.logForwarded_logs {s : State} (r : ErrRec) (first : s.flt.last = none)
    (room : (s.get R.GLB_ERR_LOG.TAIL + 1) % 64 ≠ s.get R.GLB_ERR_LOG.HEAD) :
    s.Raises (s.logForwarded r) ∧
      Table.get none (s.get R.GLB_ERR_LOG.TAIL) (s.logForwarded r).flt.log = some { r with forwarded := true, repeats := 0 } ∧
      (s.logForwarded r).get R.GLB_ERR_LOG.TAIL = (s.get R.GLB_ERR_LOG.TAIL + 1) % 64 ∧
      (s.logForwarded r).get R.GLB_ERR_SUMMARY.SEEN = s.get R.GLB_ERR_SUMMARY.SEEN := by
  set q : ErrRec := { r with forwarded := true, repeats := 0 } with hq
  obtain ⟨raises, flt, gets⟩ := s.keepsFor_keeps q
  have appended := State.appendRecord_room (s := s.keepsFor q) q (by rw [flt]; exact first) (by rw [gets, gets]; exact room)
  have appends := State.Raises.appendRecord (s.keepsFor q) q
  have runs : s.logForwarded r = (((s.keepsFor q).logsAt q).errorIrq q.cls).reportEvent true q := by
    have shape : s.logForwarded r = (match (s.keepsFor q).appendRecord q with
      | (u, new) => (if new then u.errorIrq q.cls else u).reportEvent new q) := rfl
    rw [shape, appended]
    rfl
  rw [appended] at appends
  have tail : ((s.keepsFor q).logsAt q).get R.GLB_ERR_LOG.TAIL = (s.get R.GLB_ERR_LOG.TAIL + 1) % 64 := by
    rw [← gets R.GLB_ERR_LOG.TAIL]
    exact (State.get_of_regs (t := (s.keepsFor q).logsAt q)
      (s := (s.keepsFor q).put R.GLB_ERR_LOG.TAIL (((s.keepsFor q).get R.GLB_ERR_LOG.TAIL + 1) % 64)) rfl _).trans
      (State.get_put_fits _ _ (show _ % 64 < 2 ^ 6 by omega))
  have seen : ((s.keepsFor q).logsAt q).get R.GLB_ERR_SUMMARY.SEEN = s.get R.GLB_ERR_SUMMARY.SEEN := by
    rw [← gets R.GLB_ERR_SUMMARY.SEEN]
    exact (State.get_of_regs (t := (s.keepsFor q).logsAt q)
      (s := (s.keepsFor q).put R.GLB_ERR_LOG.TAIL (((s.keepsFor q).get R.GLB_ERR_LOG.TAIL + 1) % 64)) rfl _).trans
      (State.get_put_other _ _ (by decide))
  have logged : Table.get none (s.get R.GLB_ERR_LOG.TAIL) ((s.keepsFor q).logsAt q).flt.log = some q := by
    rw [← gets R.GLB_ERR_LOG.TAIL]
    exact Table.get_set_same (d := none) (v := some q) ..
  rw [runs]
  generalize (s.keepsFor q).logsAt q = u at *
  have regs : ((u.errorIrq q.cls).reportEvent true q).regs = u.regs :=
    ((u.errorIrq q.cls).reportEvent_kept_regs true q).1.trans (u.errorIrq_kept_regs q.cls).1
  have kept : ((u.errorIrq q.cls).reportEvent true q).flt = u.flt := (State.reportEvent_flt _ true q).trans (u.errorIrq_flt q.cls)
  exact ⟨((raises.trans appends).trans (.errorIrq u q.cls)).trans (.reportEvent _ true q), by rw [kept]; exact logged,
    (State.get_of_regs regs _).trans tail, (State.get_of_regs regs _).trans seen⟩

/-- What the lead keeps of a record for its headland: a partition-fatal event, and a tile that is DOUBLED. -/
def State.notesFatal (s : State) (r : ErrRec) : State :=
  let n := r.partition.getD 0
  if r.code == 0x30 || r.code == 0x31 then
    { s with flt := { s.flt with fatalFar := s.flt.fatalFar ++ [(r.device, n)] } }
  else if r.code == 0x21 then { s with flt := { s.flt with doubled := s.flt.doubled ++ [(r.device, n)] } }
  else s

theorem State.notesFatal_keeps (s : State) (r : ErrRec) :
    let t := s.notesFatal r
    t.que = s.que ∧ t.pending = s.pending ∧ t.mem = s.mem ∧ t.flt.log = s.flt.log ∧ (∀ f, t.get f = s.get f) ∧
      (r.code = 0x30 ∨ r.code = 0x31 → (r.device, r.partition.getD 0) ∈ t.flt.fatalFar) ∧
      (r.code = 0x21 → (r.device, r.partition.getD 0) ∈ t.flt.doubled) := by
  unfold State.notesFatal
  dsimp only
  split
  · next fatal => exact ⟨rfl, rfl, rfl, rfl, fun f => State.get_of_regs rfl f, fun _ => by simp, fun code => by simp [code] at fatal⟩
  · next plain =>
    split
    · exact ⟨rfl, rfl, rfl, rfl, fun f => State.get_of_regs rfl f, fun fatal => absurd (by simpa using fatal) plain, fun _ => by simp⟩
    · next other => exact ⟨rfl, rfl, rfl, rfl, fun _ => rfl, fun fatal => absurd (by simpa using fatal) plain, fun code => by simp [code] at other⟩

/-! ### The device is fenced (R584) -/

/-- With no collective waiting, none fails. -/
theorem State.fenceColls_none {s : State} (still : ∀ n, n < 16 → s.queue n 15 = []) : s.fenceColls = s := by
  unfold State.fenceColls
  refine List.foldlRecOn (motive := fun u => u = s) _ _ rfl fun u h n hn => ?_
  rw [h, still n (List.mem_range.1 hn)]
  rfl

end Sys2Proof.Machine

open Sys2Proof Sys2Proof.Machine

/-- Settles O50: FENCED and FAILURE act at the device that takes them. -/
theorem failureMessages : Obligations.FailureMessages := by
  intro s p frags m takes idle A
  have came := s.arrived_onlySends p frags m
  have idle' : A.que.tickets = [] := (congrArg Que.tickets came.que).trans idle
  refine ⟨fun d e n body => ⟨fun other member known held first => ?_, fun own still assigned working held start stop alone => ?_⟩,
    fun d i k r body => ⟨fun now => ?_, fun late => ?_⟩, fun d i k r body lead first => ?_,
    fun d i k r body lead noCommit other member first => ?_, fun d i k r body => ⟨fun lead first room => ?_, fun no_lead => ?_⟩⟩
  · refine completes_taken (t := { A with flt := { A.flt with declared := s.flt.declared ++ [⟨d, e, []⟩] } }) takes rfl ?_ idle' came.pending rfl
    rw [body]
    have counts : (A.isLead || !A.members.contains d || e != A.get (R.GLB_PEER_EPOCH.EPOCH d) || A.isDeclared d) = false := by
      have first' : A.isDeclared d = false := by rw [State.isDeclared, came.declared]; exact first
      rw [came.isLead, came.members, came.get, first']
      simpa [member, held] using known
    refine (if_neg (by simpa using other)).trans ((if_neg (by rw [counts]; exact Bool.false_ne_true)).trans ?_)
    rw [came.declared]
  · have still' (n : Nat) (hn : n < 16) : A.queue n 15 = [] := (congrArg (fun v : State => v.queue n 15) came :).trans (still.1 n hn)
    have ends : A.stopsAlone := by
      obtain ⟨lanes, commits, lead⟩ := alone
      exact ⟨(congrArg (fun v : Srv => v.lanes) came.srv).trans lanes, (congrArg Cfg.deviceCommit came.cfg).trans commits,
        (congrArg Cfg.lead came.cfg).trans lead⟩
    have halts := State.haltSchedule_halts ends ((congrArg Frw.startTicket came.frw).trans start) ((congrArg Frw.stopTicket came.frw).trans stop)
    have runs : A.fencedIn d e n = (A.haltSchedule.setFenced).raise (evFencedOnContact e) := by
      rw [State.fencedIn, if_pos (by simpa using own), State.fenceColls_none still']
      refine if_neg ?_
      rw [came.assigned, came.isFenced, came.get, assigned, working, held]
      simp
    have idleA : A.inSchedule = s.inSchedule := (congrArg State.inSchedule came :)
    have memA : A.mem = s.mem := came.mem
    have pendingA : A.pending = s.pending := came.pending
    have assignedA : A.isSet R.GLB_DEVPOS.ASSIGNED = true := (came.isSet _).trans assigned
    generalize A.haltSchedule = h at *
    have shown : h.setFenced = h.put R.GLB_MEMBER_STATE.STATE 3 := if_pos ((State.isSet_of_get (halts.get (by decide) (by decide))).trans assignedA)
    have ended : (h.put R.GLB_MEMBER_STATE.STATE 3).frwState = h.frwState := State.get_put_other _ _ (by decide)
    have fenced : (h.put R.GLB_MEMBER_STATE.STATE 3).get R.GLB_MEMBER_STATE.STATE = 3 := State.get_put_fits _ _ (by decide)
    have kept : (h.put R.GLB_MEMBER_STATE.STATE 3).que = h.que ∧ (h.put R.GLB_MEMBER_STATE.STATE 3).mem = h.mem ∧
      (h.put R.GLB_MEMBER_STATE.STATE 3).pending = h.pending := ⟨rfl, rfl, rfl⟩
    rw [shown] at runs
    generalize h.put R.GLB_MEMBER_STATE.STATE 3 = v at *
    have raised := State.Raises.raise v (evFencedOnContact e)
    have seen := v.raise_seen (evFencedOnContact e) (show 6 - 1 < 8 by decide)
    generalize v.raise (evFencedOnContact e) = t at *
    obtain ⟨que, mem, pending⟩ := kept
    have state : t.frwState = h.frwState := (raised.get (by decide)).trans ended
    refine completes_taken (t := t) takes rfl (by rw [body]; exact runs) ?_ (raised.pending.trans (pending.trans (halts.pending.trans pendingA)))
      ⟨?_, ?_, fun on => ?_, seen, raised.mem.trans (mem.trans (halts.mem.trans memA))⟩
    · exact (congrArg Que.tickets (raised.que.trans (que.trans halts.que))).trans idle'
    · rw [State.isFenced, raised.get (by decide), fenced]
      rfl
    · have off := halts.ended
      unfold State.inSchedule at off ⊢
      rw [state]
      exact off
    · exact state.trans (halts.stopped (idleA.trans on))
  · have tilesA : A.tilesOf i = s.tilesOf i := (congrArg (fun v : State => v.tilesOf i) came :)
    have statesA (n : Nat) : A.seqState n = s.seqState n := came.get _
    have same : A.stepFurrow = s.stepFurrow := (congrArg State.stepFurrow came :)
    obtain ⟨u, hu, noted, listed, u_que, u_pending, u_mem, u_regs⟩ : ∃ u, A.noteFailed i = u ∧ i ∈ u.srv.failedInst ∧ u.tilesOf i = A.tilesOf i ∧
        u.que = A.que ∧ u.pending = A.pending ∧ u.mem = A.mem ∧ u.regs = A.regs := by
      refine ⟨_, rfl, ?_⟩
      unfold State.noteFailed
      split
      · next there => exact ⟨by simpa using there, rfl, rfl, rfl, rfl, rfl⟩
      · exact ⟨by simp, rfl, rfl, rfl, rfl, rfl⟩
    have runs : A.stepNoticeIn i k = (A.tilesOf i).foldl (fun (s : State) n => if s.seqState n == seqSkip then s else s.enterSkip n) u := by
      rw [State.stepNoticeIn, if_neg (by simp [now, same]), hu]
    obtain ⟨only, skips, others⟩ := u.skipTiles (A.tilesOf i) (List.nodup_range.filter _)
    generalize (A.tilesOf i).foldl (fun (s : State) n => if s.seqState n == seqSkip then s else s.enterSkip n) u = t at *
    have que : t.que = u.que := (congrArg State.que only :)
    have pending : t.pending = u.pending := (congrArg State.pending only :)
    have mem : t.mem = u.mem := (congrArg State.mem only :)
    have srv : t.srv = u.srv := (congrArg State.srv only :)
    refine completes_taken (t := t) takes rfl (by rw [body]; exact runs) ?_ (pending.trans (u_pending.trans came.pending))
      ⟨by rw [srv]; exact noted, mem.trans (u_mem.trans came.mem), fun n hn => skips n (tilesA ▸ hn), fun n _ hn => ?_⟩
    · exact (congrArg Que.tickets (que.trans u_que)).trans idle'
    · exact (others n (tilesA ▸ hn)).trans ((State.get_of_regs u_regs _).trans (statesA n))
  · refine completes_taken (t := A) takes rfl ?_ idle' came.pending rfl
    rw [body]
    have same : (s.arrived p frags m).stepFurrow = s.stepFurrow := (congrArg State.stepFurrow came :)
    exact if_pos (by rw [same]; simpa using late)
  · refine completes_taken takes rfl ?_ (t := { A with flt := { A.flt with silentReports := s.flt.silentReports ++ [(d, m.src)] } }) idle' came.pending rfl
    rw [body]
    have reports : A.flt.silentReports = s.flt.silentReports := (congrArg (fun v : State => v.flt.silentReports) came :)
    refine (if_neg ?_).trans (by rw [reports])
    rw [came.isLead, reports]
    simpa [lead] using first
  · have runs : A.declareDead m.src = A.declares m.src := by
      refine State.declareDead_eq (by rw [came.isLead]; exact lead) (by rw [came.self]; exact other) (by rw [came.members]; exact member) ?_
        ((congrArg Cfg.lead came.cfg).trans noCommit) idle'
      rw [State.isDeclared, came.declared]
      exact first
    have declares := State.declares_declares (s := A) (came.dead.trans (State.dead_of_alive takes.1)) m.src
    obtain ⟨y, there, device, epoch, waiting⟩ := declares.noted
    have tells := declares.told
    have serials : A.flt.serials = s.flt.serials := (congrArg (fun v : State => v.flt.serials) came :)
    have route (x : Nat) : A.route x = s.route x := came.route x
    have declared (x : Nat) : A.isDeclared x = s.isDeclared x := by rw [State.isDeclared, came.declared, State.isDeclared]
    rw [came.get] at epoch
    rw [came.others] at waiting tells
    rw [came.get, serials] at tells
    simp only [declared] at waiting
    refine completes_taken (t := A.declares m.src) takes rfl (by rw [body]; exact runs) ((congrArg Que.tickets declares.que).trans idle')
      (declares.pending.trans came.pending) ⟨⟨y, there, device, epoch, waiting⟩, fun x hx way => tells x hx (by rw [route]; exact way),
        declares.seen, declares.mem.trans came.mem⟩
  · have last : A.flt.last = s.flt.last := (congrArg (fun v : State => v.flt.last) came :)
    obtain ⟨raised, logged, tail, seen⟩ := State.logForwarded_logs (s := A) r (last.trans first) (by rw [came.get, came.get]; exact room)
    rw [came.get] at logged tail seen
    have runs : A.recordIn r = (A.logForwarded r).notesFatal r := by
      refine (if_neg ?_).trans rfl
      rw [came.isLead, lead]
      decide
    generalize A.logForwarded r = u at *
    obtain ⟨que, pending, mem, log, regs, fatal, doubled⟩ := u.notesFatal_keeps r
    generalize u.notesFatal r = t at *
    exact completes_taken (t := t) takes rfl (by rw [body]; exact runs) ((congrArg Que.tickets (que.trans raised.que)).trans idle')
      (pending.trans (raised.pending.trans came.pending))
      ⟨by rw [log]; exact logged, (regs _).trans tail, (regs _).trans seen, fatal, doubled, mem.trans (raised.mem.trans came.mem)⟩
  · refine completes_taken (t := A) takes rfl ?_ idle' came.pending rfl
    rw [body]
    exact if_pos (by rw [came.isLead, no_lead]; rfl)

end

section
/-!
SUPPORT. Faults that stop the device, retire a request or degrade an instance (O52).
-/

namespace Sys2Proof.Machine

/-! ### A device that has stopped (R580) -/

/-- On a device that has stopped nothing happens. -/
theorem completes_dead {c : Instr} {s : State} {f : State → State} (dead : s.alive = false) (runs : exec c s = s.whenAlive f) :
    Completes c s fun t => t = s := by
  refine completes_become (t := s) (runs.trans ?_) rfl rfl
  rw [State.whenAlive, dead]
  rfl

/-- The events of the schedule, the clock and the links do nothing on a device that has stopped. -/
theorem dead_does_nothing {t : State} (dead : t.alive = false) :
    ∀ d ∈ [Instr.furrowBodyStart, .turnaround, .meridMarkEdge, .beaconSend, .localMillisecond, .dissolve, .membershipApply, .linkRetrain 0,
      .peerDetect 0, .collSlotSendTime 0, .descriptorIssue 0], Completes d t fun u => u = t := by
  simp only [List.forall_mem_cons]
  refine ⟨completes_dead (f := fun s => s.bodyStart.settle) dead rfl, completes_dead (f := fun s => s.turn.settle) dead rfl,
    completes_dead (f := fun s => s.mark_.settle) dead rfl, completes_dead (f := fun s => (if s.inSchedule then s else s.sendBeacon).settle) dead rfl,
    completes_dead (f := fun s => (if s.lockless then s.markWork s.now else s).settle) dead rfl,
    completes_dead (f := fun s => (if s.flt.leadLost then s.dissolve else s).settle) dead rfl,
    completes_dead (f := fun s => (if s.isSet R.FRW_STATE.HEADLAND || !s.inSchedule then s.membershipItem s.now else s).settle) dead rfl,
    completes_dead (f := fun s => if s.portUp 0 && (s.link 0).replay.any fun x => decide (8 ≤ x.tries) then s.leaveUp 0 linkTrain else s) dead rfl,
    completes_dead (f := fun s => if s.isSet (R.LINK_CTRL.ENABLE 0) && (s.get (R.LINK_STATUS.STATE 0) == linkDetect ||
      s.get (R.LINK_STATUS.STATE 0) == linkDown) then s.enterTrain 0 else s) dead rfl,
    completes_dead (f := fun s => s.openSlot 0) dead rfl, completes_dead (f := fun s => (s.issue 0).collectives) dead rfl, fun _ h => nomatch h⟩

/-- A control fault stops the device, shows its class and drives FAULT_N. -/
theorem State.controlFault_stops (s : State) (cause addr : Nat) :
    let t := s.controlFault cause addr
    t.flt.dead = true ∧ t.alive = false ∧ bit (t.get R.GLB_ERR_SUMMARY.SEEN) 6 = true ∧ t.pins.faultN = false ∧ t.mem = s.mem ∧
      t.frw = s.frw ∧ t.que = s.que ∧ t.pending = s.pending := by
  have raised := State.Raises.raise s (evControlFault cause addr)
  have seen := s.raise_seen (evControlFault cause addr) (show 7 - 1 < 8 by decide)
  have pins := State.raise_pins (s := s) (e := evControlFault cause addr) (show 7 ≠ 5 by decide)
  have shape : s.controlFault cause addr = { s.raise (evControlFault cause addr) with
    flt := { (s.raise (evControlFault cause addr)).flt with dead := true } } := rfl
  rw [shape]
  generalize s.raise (evControlFault cause addr) = u at *
  exact ⟨rfl, by simp [State.alive], seen, congrArg Pins.faultN pins, raised.mem, raised.frw, raised.que, raised.pending⟩

/-! ### A request that a lane's failures retire (R576) -/

theorem State.seqOf_setSeqn {s : State} {id : Nat} {q : Seq} (gen : q.gen = id / 65536) : (s.setSeqn id (some q)).seqOf id = some q := by
  have there : Table.get none (id % 65536) (s.setSeqn id (some q)).srv.seqs = some q := Table.get_set_same (d := none) (v := some q) ..
  rw [State.seqOf, there]
  exact if_pos (by simpa using gen)

theorem State.gen_of_seqOf {s : State} {id : Nat} {q : Seq} (h : s.seqOf id = some q) : q.gen = id / 65536 := by
  unfold State.seqOf at h
  split at h
  · next =>
    split at h
    · next there => cases h; simpa using there
    · cases h
  · cases h

/-- A sequence whose request ends. -/
def State.seqEnds (s : State) (id : Nat) (q : Seq) : State :=
  let s := s.setSeqn id (some q.idled)
  { s with srv := { s.srv with openLanes := s.srv.openLanes.filter fun x => x.2.seqId != id } }

theorem State.retireSeq_some {s : State} {id th : Nat} {st : Status} {q : Seq} {r : Request} (known : s.seqOf id = some q)
    (asked : q.req = some r) :
    s.retireSeq id th st = (s.seqEnds id q).finish r.ticket { status := st, result0 := r.delivered, result1 := th } := by
  rw [State.retireSeq, known]
  dsimp only
  rw [asked]
  rfl

/-! ### An instance that is suspended (R577) -/

/-- Only the sequences and what waits for their lanes change. -/
def State.seqsOnly (s t : State) : Prop := t = { s with srv := { s.srv with seqs := t.srv.seqs, openLanes := t.srv.openLanes } }

theorem State.seqsOnly.trans {a b c : State} (h : a.seqsOnly b) (k : b.seqsOnly c) : a.seqsOnly c := by
  rw [State.seqsOnly] at k ⊢
  refine k.trans ?_
  rw [h]

theorem State.retireSeq_seqsOnly {s : State} (id th : Nat) (st : Status) (idle : s.que.tickets = []) : s.seqsOnly (s.retireSeq id th st) := by
  have nobody (u : State) (no : Nat) (a : Answer) (h : u.que.tickets = []) : u.finish no a = u := by
    rw [State.finish, State.ticket?, h]
    rfl
  unfold State.retireSeq
  split
  · rfl
  · next q _ =>
    dsimp only
    split
    · have quiet (r : Request) := nobody (s.seqEnds id q) r.ticket { status := st, result0 := r.delivered, result1 := th } idle
      exact (quiet _).symm ▸ rfl
    · rfl

theorem State.modSeq_seqsOnly (s : State) (id : Nat) (f : Seq → Seq) : s.seqsOnly (s.modSeq id f) := by
  unfold State.modSeq
  split <;> rfl

/-- An instance that was in service is suspended: its requests end, and only its health shows it. -/
theorem State.suspend_suspends {s : State} {i : Nat} (th : Nat) (lead : s.isLead = true) (serving : i ∉ s.srv.suspended)
    (idle : s.que.tickets = []) :
    let t := s.suspend i th
    t.health i = healthSuspended ∧ i ∈ t.srv.suspended ∧ t.mem = s.mem ∧ t.que = s.que ∧ t.pending = s.pending ∧
      s.sameRegs t [R.GLB_INST_HEALTH.STATE i] := by
  set u : State := ({ s with srv := { s.srv with suspended := s.srv.suspended ++ [i] } } : State).put (R.GLB_INST_HEALTH.STATE i) healthSuspended
    with hu
  have shape : s.suspend i th = (s.seqsOf i).foldl (fun (s : State) (e : Nat × Seq) =>
      (s.retireSeq e.1 th .failDevice).modSeq e.1 fun q => { q with unusable := true, state := .idle, bound := none }) u := by
    have lead' : ({ s with srv := { s.srv with suspended := s.srv.suspended ++ [i] } } : State).isLead = true := lead
    rw [State.suspend, if_neg (by simpa [State.isSuspended] using serving)]
    dsimp only
    rw [if_pos lead']
    rfl
  have only : u.seqsOnly (s.suspend i th) := by
    rw [shape]
    refine List.foldlRecOn (motive := u.seqsOnly) _ _ rfl fun v h e _ => ?_
    have open_ : v.que.tickets = [] := (congrArg (fun w : State => w.que.tickets) h :).trans idle
    exact (h.trans (State.retireSeq_seqsOnly _ _ _ open_)).trans (State.modSeq_seqsOnly _ _ _)
  have shown : u.health i = healthSuspended := State.get_put_fits _ _ (by decide : healthSuspended < 2 ^ 2)
  have regs : s.sameRegs u [R.GLB_INST_HEALTH.STATE i] := fun f hf =>
    (State.get_put_other _ _ (hf _ (by simp))).trans (State.get_of_regs rfl f)
  have kept : u.mem = s.mem ∧ u.que = s.que ∧ u.pending = s.pending ∧ u.srv.suspended = s.srv.suspended ++ [i] := ⟨rfl, rfl, rfl, rfl⟩
  clear_value u
  generalize s.suspend i th = t at *
  obtain ⟨mem, que, pending, suspended⟩ := kept
  have same : t.regs = u.regs := (congrArg State.regs only :)
  refine ⟨(State.get_of_regs same _).trans shown, ?_, (congrArg State.mem only :).trans mem, (congrArg State.que only :).trans que,
    (congrArg State.pending only :).trans pending, fun f hf => (State.get_of_regs same f).trans (regs f hf)⟩
  have still : t.srv.suspended = u.srv.suspended := by
    rw [State.seqsOnly] at only
    rw [only]
  rw [still, suspended]
  simp

/-- With no packet open there is nothing to go on with. -/
theorem State.settle_none {s : State} (h : s.que.tickets = []) : s.settle = s := State.settleN_none h _

/-- A sequence whose failures exhaust the limit is retired, and its packet, the only one, completes. -/
theorem State.exhaust_retires {s : State} {id i : Nat} {q : Seq} {T : Ticket} {r : Request} (th : Nat) (open_ : s.que.tickets = [T])
    (host : T.origin = .host i) (known : s.seqOf id = some q) (asked : q.req = some r) (mine : r.ticket = T.no)
    (many : s.get R.GLB_ERR_CTRL.LANE_RETRY_LIMIT ≤ q.fails) :
    let t := s.exhaust id th
    t.seqOf id = some q.idled ∧ t.que.tickets = [] ∧ bit (t.get R.GLB_ERR_SUMMARY.SEEN) 2 = true ∧ t.mem = s.mem ∧ t.pending = s.pending := by
  unfold State.exhaust
  rw [known]
  dsimp only
  rw [if_neg (by omega)]
  generalize hev : evLaneExhausted _ _ id q.inst = e
  have cls : e.cls = 3 := by rw [← hev]; rfl
  have raised := State.Raises.raise s e
  have seen := s.raise_seen e (by rw [cls]; decide)
  rw [cls] at seen
  generalize s.raise e = u at *
  have knownU : u.seqOf id = some q := by
    rw [← known, State.seqOf, State.seqOf, raised.srv]
  rw [State.retireSeq_some knownU asked, mine]
  have ends : (u.seqEnds id q).seqOf id = some q.idled :=
    State.seqOf_setSeqn (q := q.idled) (State.gen_of_seqOf known : q.gen = _)
  have kept : (u.seqEnds id q).que.tickets = [T] ∧ (u.seqEnds id q).mem = s.mem ∧ (u.seqEnds id q).pending = s.pending ∧
      bit ((u.seqEnds id q).get R.GLB_ERR_SUMMARY.SEEN) 2 = true :=
    ⟨(congrArg Que.tickets raised.que).trans open_, raised.mem, raised.pending, seen⟩
  generalize u.seqEnds id q = v at *
  obtain ⟨tickets, mem, pending, seen⟩ := kept
  rw [State.finish_only _ tickets host]
  generalize hc : (⟨T.packet.tag, _, _, _, _, _, _, _⟩ : Completion) = c
  have posts := State.Posts.postCq (v.withTickets []) i c
  change let t := (v.withTickets []).postCq i c; t.seqOf id = some q.idled ∧ t.que.tickets = [] ∧
    bit (t.get R.GLB_ERR_SUMMARY.SEEN) 2 = true ∧ t.mem = s.mem ∧ t.pending = s.pending
  generalize (v.withTickets []).postCq i c = t at *
  have sequences : t.seqOf id = v.seqOf id := by
    rw [State.seqOf, posts.srv]
    rfl
  have shown : t.get R.GLB_ERR_SUMMARY.SEEN = v.get R.GLB_ERR_SUMMARY.SEEN := posts.get _ ⟨by decide, .inl (by decide)⟩
  exact ⟨sequences.trans ends, posts.tickets, (congrArg (bit · 2) shown).trans seen, posts.mem.trans mem, posts.pending.trans pending⟩

/-- A running instance that is due is DEGRADED: the event is raised and counted. -/
theorem State.degrade_degrades {s : State} {i : Nat} (th : Nat) (lead : s.isLead = true) (running : s.health i = healthRunning)
    (due : s.get R.GLB_ERR_CTRL.DEGRADE_COUNT ≤ s.get (R.GLB_INST_HEALTH.FAIL_RUN i) ∨ s.doubledTile i = true)
    (goes_on : s.isSet R.GLB_ERR_CTRL.DEGRADED_STOP = false) :
    let t := s.degrade i th
    t.health i = healthDegraded ∧ t.srv = s.srv ∧ bit (t.get R.GLB_ERR_SUMMARY.SEEN) 3 = true ∧
      t.get (R.GLB_INST_HEALTH.DEGRADE_EVENTS i) =
        min (2 ^ (R.GLB_INST_HEALTH.DEGRADE_EVENTS i).width - 1) (s.get (R.GLB_INST_HEALTH.DEGRADE_EVENTS i) + 1) ∧
      t.mem = s.mem ∧ t.que = s.que ∧ t.pending = s.pending := by
  have shape : s.degrade i th = ((s.raise (evInstanceDegraded i (s.get (R.GLB_INST_HEALTH.FAIL_RUN i)))).put (R.GLB_INST_HEALTH.STATE i)
      healthDegraded).bump (R.GLB_INST_HEALTH.DEGRADE_EVENTS i) := by
    rw [State.degrade, if_pos (by simp [lead, running, due]), if_neg (by simp [goes_on])]
  rw [shape]
  have raised := State.Raises.raise s (evInstanceDegraded i (s.get (R.GLB_INST_HEALTH.FAIL_RUN i)))
  have seen := s.raise_seen (evInstanceDegraded i (s.get (R.GLB_INST_HEALTH.FAIL_RUN i))) (show 4 - 1 < 8 by decide)
  generalize s.raise _ = u at *
  have notState : (R.GLB_INST_HEALTH.STATE i).key ≠ (R.GLB_INST_HEALTH.DEGRADE_EVENTS i).key := by
    simp only [Field.key, R.GLB_INST_HEALTH.STATE, R.GLB_INST_HEALTH.DEGRADE_EVENTS]; omega
  have notSeen : R.GLB_ERR_SUMMARY.SEEN.key ≠ (R.GLB_INST_HEALTH.DEGRADE_EVENTS i).key ∧
      R.GLB_ERR_SUMMARY.SEEN.key ≠ (R.GLB_INST_HEALTH.STATE i).key := by
    simp only [Field.key, R.GLB_INST_HEALTH.STATE, R.GLB_INST_HEALTH.DEGRADE_EVENTS, R.GLB_ERR_SUMMARY.SEEN]; omega
  have notError : ∀ g ∈ errorFields, (R.GLB_INST_HEALTH.DEGRADE_EVENTS i).key ≠ g.key := by
    simp only [errorFields, List.forall_mem_cons, Field.key, R.GLB_INST_HEALTH.DEGRADE_EVENTS, R.GLB_ERR_SUMMARY.SEEN, R.GLB_ERR_LOG.TAIL,
      R.GLB_ERR_LOG.OVERFLOWS]
    exact ⟨by omega, by omega, by omega, fun _ h => nomatch h⟩
  have degraded : (u.put (R.GLB_INST_HEALTH.STATE i) healthDegraded).health i = healthDegraded :=
    State.get_put_fits _ _ (by decide : healthDegraded < 2 ^ 2)
  refine ⟨(State.get_put_other _ _ notState).trans degraded, raised.srv, ?_, ?_, raised.mem, raised.que, raised.pending⟩
  · rw [← seen]
    exact congrArg (bit · 3) ((State.get_put_other _ _ notSeen.1).trans (State.get_put_other _ _ notSeen.2))
  · rw [State.get_bump_same, State.get_put_other _ _ notState.symm, raised.get notError]

end Sys2Proof.Machine

open Sys2Proof Sys2Proof.Machine

/-- Settles O52: control faults stop the device; failures of a lane retire its request, and those of an instance degrade it. -/
theorem faults : Obligations.Faults := by
  intro s alive
  refine ⟨fun cause addr idle c hc => ?_, fun id q => ⟨fun idle known few => ?_, fun T i r open_ host known asked mine many => ?_⟩,
    fun i hi idle => ⟨fun not_due => ?_, fun degraded lead stops serving => ?_, fun running lead due => ?_⟩⟩
  · obtain ⟨stopped, dead, seen, pin, mem, frw, que, pending⟩ := s.controlFault_stops cause addr
    obtain ⟨stopped3, dead3, seen3, pin3, mem3, frw3, que3, pending3⟩ := s.controlFault_stops 3 0
    simp only [List.mem_cons, List.not_mem_nil, or_false] at hc
    obtain rfl | rfl := hc
    · exact completes_act (f := fun s => s.controlFault 3 0) alive rfl rfl ((congrArg Que.tickets que3).trans idle) pending3
        ⟨stopped3, dead3, seen3, pin3, mem3, frw3, dead_does_nothing dead3⟩
    · exact completes_act (f := fun s => s.controlFault cause addr) alive rfl rfl ((congrArg Que.tickets que).trans idle) pending
        ⟨stopped, dead, seen, pin, mem, frw, dead_does_nothing dead⟩
  · refine completes_act (t := s) (f := fun s => s.exhaust id s.now) alive rfl ?_ idle rfl rfl
    rw [State.exhaust, known]
    exact if_pos few
  · obtain ⟨retired, none_open, seen, mem, pending⟩ := s.exhaust_retires s.now open_ host known asked mine many
    exact completes_act (f := fun s => s.exhaust id s.now) alive rfl rfl none_open pending ⟨retired, none_open, seen, mem⟩
  · refine completes_act (t := s) (f := fun s => s.degrade i s.now) alive rfl ?_ idle rfl rfl
    have noRun : s.health i = healthRunning → s.isLead = false := by
      obtain h | h | h | ⟨h, _⟩ := not_due
      · exact fun _ => h
      all_goals rw [h]; exact fun no => absurd no (by decide)
    have noStop : s.health i = healthDegraded → s.isSet R.GLB_ERR_CTRL.DEGRADED_STOP = true → s.isLead = false := by
      obtain h | h | h | ⟨_, h⟩ := not_due
      · exact fun _ _ => h
      · rw [h]; exact fun no => absurd no (by decide)
      · rw [h]; exact fun no => absurd no (by decide)
      · rw [h]; exact fun _ no => absurd no (by decide)
    rw [State.degrade, if_neg, if_neg]
    · simp only [Bool.and_eq_true, beq_iff_eq]
      rintro ⟨⟨lead, h⟩, stops⟩
      exact absurd lead (by simp [noStop h stops])
    · simp only [Bool.and_eq_true, beq_iff_eq]
      rintro ⟨⟨lead, h⟩, _⟩
      exact absurd lead (by simp [noRun h])
  · have shape : s.degrade i s.now = s.suspend i s.now := by
      rw [State.degrade, if_neg (by simp [degraded, healthDegraded, healthRunning]), if_pos (by simp [lead, degraded, stops])]
    obtain ⟨shown, listed, mem, que, pending, regs⟩ := s.suspend_suspends s.now lead serving idle
    exact completes_act (f := fun s => s.degrade i s.now) alive rfl shape ((congrArg Que.tickets que).trans idle) pending
      ⟨shown, listed, mem, regs⟩
  · cases stops : s.isSet R.GLB_ERR_CTRL.DEGRADED_STOP
    · obtain ⟨shown, srv, seen, counted, mem, que, pending⟩ := State.degrade_degrades s.now lead running due stops
      exact completes_act (f := fun s => s.degrade i s.now) alive rfl rfl ((congrArg Que.tickets que).trans idle) pending
        ⟨fun _ => ⟨shown, srv, seen, counted⟩, fun no => absurd no (by decide), mem⟩
    · have shape : s.degrade i s.now = s.suspend i s.now := by
        rw [State.degrade, if_pos (by simp [lead, running, due]), if_pos stops]
      by_cases serving : i ∈ s.srv.suspended
      · have same : s.suspend i s.now = s := if_pos (by simpa [State.isSuspended] using serving)
        exact completes_act (t := s) (f := fun s => s.degrade i s.now) alive rfl (shape.trans same) idle rfl
          ⟨fun no => absurd no (by decide), fun _ no => absurd serving no, rfl⟩
      · obtain ⟨shown, listed, mem, que, pending, regs⟩ := s.suspend_suspends s.now lead serving idle
        exact completes_act (f := fun s => s.degrade i s.now) alive rfl shape ((congrArg Que.tickets que).trans idle) pending
          ⟨fun no => absurd no (by decide), fun _ _ => ⟨shown, listed, regs⟩, mem⟩

end

section
/-!
SUPPORT. Alerts, droop and temperatures (O38).
-/

namespace Sys2Proof.Machine

/-! ### Temperatures (R425, R523, R524) -/

/-- The registers that a temperature at its thresholds writes. -/
def heatFields (src n : Nat) : List Field :=
  levelFields ++ errorFields ++ [R.THM_EVENTS.EMERGENCIES, R.THM_EVENTS.THROTTLE_ENTRIES, throttlingField src n, emergencyField src n]

/-- What a field must not be to stay as it is at a threshold. -/
theorem notHeat {f : Field} {src n : Nat} (lo : f.lo < 64) (high : 0x20180 ≤ f.addr) (count : f.addr ≠ 0x21008)
    (throttling : f.key ≠ (throttlingField src n).key) (emergency : f.key ≠ (emergencyField src n).key) :
    ∀ g ∈ heatFields src n, f.key ≠ g.key := by
  simp only [heatFields, List.mem_append, List.mem_cons, List.not_mem_nil, or_false]
  rintro g ((level | error) | rfl | rfl | rfl | rfl)
  · exact notLevel lo (.inr ⟨by omega, by omega, .inr high⟩) g level
  · exact notError_above (by simp only [Field.key]; omega) g error
  · simp only [Field.key, R.THM_EVENTS.EMERGENCIES]; omega
  · simp only [Field.key, R.THM_EVENTS.THROTTLE_ENTRIES]; omega
  · exact throttling
  · exact emergency

/-- From `s` to `t` an event may have been raised and fields of `heatFields` written; the pins and whether the device has stopped are as
before. -/
structure State.Warms (src n : Nat) (s t : State) : Prop where
  regs : s.sameRegs t (heatFields src n)
  mem : t.mem = s.mem
  pending : t.pending = s.pending
  pins : t.pins = s.pins
  dead : t.flt.dead = s.flt.dead
  pwr : t.pwr = s.pwr

namespace State.Warms

variable {s t u : State} {src n : Nat}

theorem refl (s : State) : s.Warms src n s := ⟨State.sameRegs_refl s _, rfl, rfl, rfl, rfl, rfl⟩

theorem trans (h : s.Warms src n t) (k : t.Warms src n u) : s.Warms src n u where
  regs f hf := (k.regs f hf).trans (h.regs f hf)
  mem := k.mem.trans h.mem
  pending := k.pending.trans h.pending
  pins := k.pins.trans h.pins
  dead := k.dead.trans h.dead
  pwr := k.pwr.trans h.pwr

theorem put {f : Field} (s : State) (v : Nat) (hf : f ∈ heatFields src n) : s.Warms src n (s.put f v) :=
  ⟨State.sameRegs_put (State.sameRegs_refl s _) hf v, rfl, rfl, rfl, rfl, rfl⟩

theorem raise (s : State) {e : Event} (cls : e.cls = 2) : s.Warms src n (s.raise e) := by
  have raised := State.Raises.raise s e
  have pins := State.raise_pins (s := s) (e := e) (by rw [cls]; decide)
  rw [cls] at pins
  refine ⟨fun f hf => raised.regs f fun g hg => hf g ?_, raised.mem, raised.pending, pins, raised.dead, raised.pwr⟩
  simp only [heatFields, List.mem_append]
  exact .inl (.inr hg)

end State.Warms

theorem throttling_mem (src n : Nat) : throttlingField src n ∈ heatFields src n := by simp [heatFields]
theorem emergency_mem (src n : Nat) : emergencyField src n ∈ heatFields src n := by simp [heatFields]

theorem throttling_emergency (src n : Nat) : (throttlingField src n).key ≠ (emergencyField src n).key := by
  unfold throttlingField emergencyField
  split
  · simp only [Field.key, R.THM_TILE.TILE_THROTTLING, R.THM_TILE.TILE_EMERGENCY]; omega
  · split
    · simp only [Field.key, R.THM_TILE.STORE_THROTTLING, R.THM_TILE.STORE_EMERGENCY]; omega
    · simp only [Field.key, R.STACK_THERM.THROTTLING, R.STACK_THERM.EMERGENCY]; omega

/-- Throttling and emergency follow a reading, before a trip. -/
def State.heated (s : State) (src n : Nat) : State :=
  let (t, thr, emg, _) := s.tempOf src n
  let hot := decide (thr ≤ t)
  let s := if hot && !s.isSet (throttlingField src n) then s.bump R.THM_EVENTS.THROTTLE_ENTRIES else s
  let s := s.putBit (throttlingField src n) hot
  if emg ≤ t && !s.emergency src n then
    ((s.putBit (emergencyField src n) true).bump R.THM_EVENTS.EMERGENCIES).raise (evThermalEmergency n (src - 3) t)
  else if t < thr then s.putBit (emergencyField src n) false
  else s

theorem State.thermal_eq (s : State) (src n : Nat) :
    s.thermal src n = (if (s.tempOf src n).2.2.2 ≤ (s.tempOf src n).1 then (s.heated src n).trip src n (s.tempOf src n).1
      else s.heated src n).settleLevels := rfl

/-- The sources that are temperatures. -/
def ofHeat (src : Nat) : Prop := src = srcTileTemp ∨ src = srcStoreTemp ∨ src = srcStackTemp

theorem State.emergency_eq {src : Nat} (kind : ofHeat src) (s : State) (n : Nat) : s.emergency src n = s.isSet (emergencyField src n) := by
  obtain rfl | rfl | rfl := kind <;> rfl

theorem throttling_width (src n : Nat) : 0 < (throttlingField src n).width := by
  unfold throttlingField
  split
  · exact Nat.one_pos
  · split <;> exact Nat.one_pos

theorem emergency_width (src n : Nat) : 0 < (emergencyField src n).width := by
  unfold emergencyField
  split
  · exact Nat.one_pos
  · split <;> exact Nat.one_pos

theorem emergency_above (src n : Nat) : ∀ g ∈ errorFields, (emergencyField src n).key ≠ g.key := by
  refine notError_above ?_
  unfold emergencyField
  split
  · simp only [Field.key, R.THM_TILE.TILE_EMERGENCY]; omega
  · split
    · simp only [Field.key, R.THM_TILE.STORE_EMERGENCY]; omega
    · simp only [Field.key, R.STACK_THERM.EMERGENCY]; omega

theorem throttling_above (src n : Nat) : ∀ g ∈ errorFields, (throttlingField src n).key ≠ g.key := by
  refine notError_above ?_
  unfold throttlingField
  split
  · simp only [Field.key, R.THM_TILE.TILE_THROTTLING]; omega
  · split
    · simp only [Field.key, R.THM_TILE.STORE_THROTTLING]; omega
    · simp only [Field.key, R.STACK_THERM.THROTTLING]; omega

theorem emergency_notLevel (src n : Nat) : ∀ g ∈ levelFields, (emergencyField src n).key ≠ g.key := by
  unfold emergencyField
  split
  · exact notLevel (show 17 < 64 by decide) (.inl (show 17 ≠ 0 by decide))
  · split
    · exact notLevel (show 19 < 64 by decide) (.inl (show 19 ≠ 0 by decide))
    · exact notLevel (show 17 < 64 by decide) (.inl (show 17 ≠ 0 by decide))

theorem throttling_notLevel (src n : Nat) : ∀ g ∈ levelFields, (throttlingField src n).key ≠ g.key := by
  unfold throttlingField
  split
  · exact notLevel (show 16 < 64 by decide) (.inl (show 16 ≠ 0 by decide))
  · split
    · exact notLevel (show 18 < 64 by decide) (.inl (show 18 ≠ 0 by decide))
    · exact notLevel (show 16 < 64 by decide) (.inl (show 16 ≠ 0 by decide))

theorem emergency_notEvents (src n : Nat) : (emergencyField src n).key ≠ R.THM_EVENTS.EMERGENCIES.key ∧
    (throttlingField src n).key ≠ R.THM_EVENTS.EMERGENCIES.key := by
  unfold throttlingField emergencyField
  split
  · simp only [Field.key, R.THM_TILE.TILE_THROTTLING, R.THM_TILE.TILE_EMERGENCY, R.THM_EVENTS.EMERGENCIES]; omega
  · split
    · simp only [Field.key, R.THM_TILE.STORE_THROTTLING, R.THM_TILE.STORE_EMERGENCY, R.THM_EVENTS.EMERGENCIES]; omega
    · simp only [Field.key, R.STACK_THERM.THROTTLING, R.STACK_THERM.EMERGENCY, R.THM_EVENTS.EMERGENCIES]; omega

/-- What a reading leaves of a temperature: whether it throttles and whether it is an emergency. -/
theorem State.heated_shows {src n T thr emg trp : Nat} {s : State} (kind : ofHeat src) (reads : s.tempOf src n = (T, thr, emg, trp)) :
    let t := s.heated src n
    s.Warms src n t ∧ t.isSet (throttlingField src n) = decide (thr ≤ T) ∧
      (emg ≤ T → thr ≤ T → t.isSet (emergencyField src n) = true) ∧ (T < emg → T < thr → t.isSet (emergencyField src n) = false) := by
  unfold State.heated
  rw [reads]
  dsimp only
  have entries : ∀ w : State, (w = s ∨ w = s.bump R.THM_EVENTS.THROTTLE_ENTRIES) → s.Warms src n w := by
    rintro w (rfl | rfl)
    · exact .refl _
    · exact .put s _ (by simp [heatFields])
  have first := entries (if (decide (thr ≤ T) && !s.isSet (throttlingField src n)) = true then s.bump R.THM_EVENTS.THROTTLE_ENTRIES else s)
    (by split <;> simp)
  generalize (if (decide (thr ≤ T) && !s.isSet (throttlingField src n)) = true then s.bump R.THM_EVENTS.THROTTLE_ENTRIES else s) = v at *
  have second : s.Warms src n (v.putBit (throttlingField src n) (decide (thr ≤ T))) := first.trans (.put v _ (throttling_mem src n))
  have shown : (v.putBit (throttlingField src n) (decide (thr ≤ T))).isSet (throttlingField src n) = decide (thr ≤ T) :=
    State.isSet_putBit (throttling_width src n) _
  generalize v.putBit (throttlingField src n) (decide (thr ≤ T)) = w at *
  rw [State.emergency_eq kind]
  split
  · next due =>
    simp only [Bool.and_eq_true, decide_eq_true_eq] at due
    have third : s.Warms src n ((w.putBit (emergencyField src n) true).bump R.THM_EVENTS.EMERGENCIES) :=
      (second.trans (.put w _ (emergency_mem src n))).trans (.put _ _ (by simp [heatFields]))
    have held : ((w.putBit (emergencyField src n) true).bump R.THM_EVENTS.EMERGENCIES).isSet (throttlingField src n) = decide (thr ≤ T) :=
      ((State.isSet_put_other _ _ (emergency_notEvents src n).2).trans
        (State.isSet_putBit_other _ _ (throttling_emergency src n))).trans shown
    have set : ((w.putBit (emergencyField src n) true).bump R.THM_EVENTS.EMERGENCIES).isSet (emergencyField src n) = true :=
      (State.isSet_put_other _ _ (emergency_notEvents src n).1).trans (State.isSet_putBit (emergency_width src n) true)
    generalize (w.putBit (emergencyField src n) true).bump R.THM_EVENTS.EMERGENCIES = x at *
    have raised := State.Raises.raise x (evThermalEmergency n (src - 3) T)
    refine ⟨third.trans (.raise x rfl), (raised.isSet (throttling_above src n)).trans held,
      fun _ _ => (raised.isSet (emergency_above src n)).trans set, fun cool _ => absurd due.1 (by omega)⟩
  · next notDue =>
    split
    · next cool =>
      exact ⟨second.trans (.put w _ (emergency_mem src n)), (State.isSet_putBit_other _ _ (throttling_emergency src n)).trans shown,
        fun _ hot => absurd hot (by omega), fun _ _ => State.isSet_putBit (emergency_width src n) false⟩
    · next hot =>
      exact ⟨second, shown, fun high _ => by simpa [high] using notDue, fun _ cool => absurd cool hot⟩

/-- What `thermal` leaves: throttling and emergency as the reading says, and at the trip value a device that has stopped. -/
theorem State.thermal_shows {src n T thr emg trp : Nat} {s : State} (kind : ofHeat src) (reads : s.tempOf src n = (T, thr, emg, trp)) :
    let t := s.thermal src n
    s.sameRegs t (heatFields src n) ∧ t.mem = s.mem ∧ t.pending = s.pending ∧ t.levelsFollow ∧
      t.isSet (throttlingField src n) = decide (thr ≤ T) ∧
      (emg ≤ T → thr ≤ T → t.isSet (emergencyField src n) = true) ∧ (T < emg → T < thr → t.isSet (emergencyField src n) = false) ∧
      (T < trp ∨ s.pins.thermTripN = false → t.pins = s.pins ∧ t.flt.dead = s.flt.dead) ∧
      (trp ≤ T → s.pins.thermTripN = true → t.flt.dead = true ∧ t.pins.thermTripN = false ∧ t.pins.faultN = false) := by
  rw [State.thermal_eq, reads]
  dsimp only
  obtain ⟨warms, throttles, set, clear⟩ := State.heated_shows kind reads
  generalize s.heated src n = u at *
  have settle (w : State) (regs : u.sameRegs w errorFields) (mem : w.mem = u.mem) (pending : w.pending = u.pending) :
      s.sameRegs w.settleLevels (heatFields src n) ∧ w.settleLevels.mem = s.mem ∧ w.settleLevels.pending = s.pending ∧
        w.settleLevels.levelsFollow ∧ w.settleLevels.isSet (throttlingField src n) = decide (thr ≤ T) ∧
        (emg ≤ T → thr ≤ T → w.settleLevels.isSet (emergencyField src n) = true) ∧
        (T < emg → T < thr → w.settleLevels.isSet (emergencyField src n) = false) := by
    have seen := (w.settleLevels_isSet (throttling_notLevel src n)).trans (State.isSet_of_get (regs _ (throttling_above src n)))
    have seenE := (w.settleLevels_isSet (emergency_notLevel src n)).trans (State.isSet_of_get (regs _ (emergency_above src n)))
    refine ⟨fun f hf => ?_, w.settleLevels_mem.trans (mem.trans warms.mem), w.settleLevels_pending.trans (pending.trans warms.pending),
      w.settleLevels_levelsFollow, seen.trans throttles, fun h k => seenE.trans (set h k), fun h k => seenE.trans (clear h k)⟩
    have level : ∀ g ∈ levelFields, f.key ≠ g.key := fun g hg => hf g (by simp [heatFields, hg])
    have error : ∀ g ∈ errorFields, f.key ≠ g.key := fun g hg => hf g (by simp [heatFields, hg])
    exact (w.settleLevels_get level).trans ((regs f error).trans (warms.regs f hf))
  split
  · next trips =>
    unfold State.trip
    split
    · next low =>
      have low : s.pins.thermTripN = false := by rw [← warms.pins]; simpa using low
      obtain ⟨regs, mem, pending, follow, t1, e1, e2⟩ := settle u (State.sameRegs_refl u _) rfl rfl
      refine ⟨regs, mem, pending, follow, t1, e1, e2, fun _ => ⟨u.settleLevels_pins.trans warms.pins, ?_⟩, fun _ high => absurd high (by simp [low])⟩
      rw [u.settleLevels_flt, warms.dead]
    · next high =>
      have high : s.pins.thermTripN = true := by rw [← warms.pins]; simpa using high
      have raised := State.Raises.raise ({ u with pins := { u.pins with thermTripN := false } } : State) (evThermalTrip n (src - 3) T)
      have pins := State.raise_pins (s := ({ u with pins := { u.pins with thermTripN := false } } : State)) (e := evThermalTrip n (src - 3) T)
        (show 7 ≠ 5 by decide)
      dsimp only
      generalize ({ u with pins := { u.pins with thermTripN := false } } : State).raise (evThermalTrip n (src - 3) T) = w at *
      obtain ⟨regs, mem, pending, follow, t1, e1, e2⟩ := settle { w with flt := { w.flt with dead := true } } raised.regs raised.mem raised.pending
      refine ⟨regs, mem, pending, follow, t1, e1, e2, ?_, fun _ _ => ?_⟩
      · rintro (cool | low)
        · omega
        · exact absurd high (by simp [low])
      · rw [State.settleLevels_flt, State.settleLevels_pins]
        exact ⟨rfl, congrArg Pins.thermTripN pins, congrArg Pins.faultN pins⟩
  · next cool =>
    obtain ⟨regs, mem, pending, follow, t1, e1, e2⟩ := settle u (State.sameRegs_refl u _) rfl rfl
    refine ⟨regs, mem, pending, follow, t1, e1, e2, fun _ => ⟨u.settleLevels_pins.trans warms.pins, ?_⟩, fun trips => absurd trips cool⟩
    rw [u.settleLevels_flt, warms.dead]

/-- A reading that crosses a threshold only tells the sensor's reader. -/
theorem State.crossed_eq (s : State) (src n old : Nat) : s.crossed src n old = { s with out := (s.crossed src n old).out } := by
  unfold State.crossed
  dsimp only
  split <;> rfl

/-- From `s` to `t` registers have been written and readings told, nothing else. -/
def State.shownOnly (s t : State) : Prop := t = { s with regs := t.regs, out := t.out }

/-- A tile's sensors are shown before their thresholds are looked at. -/
def State.tileRead (s : State) (n T U : Nat) : State :=
  (((s.put (R.THM_TILE.TJ n) T).put (R.THM_TILE.TSTORE n) U).crossed srcTileTemp n (s.get (R.THM_TILE.TJ n))).crossed srcStoreTemp n
    (s.get (R.THM_TILE.TSTORE n))

theorem State.tileRead_shown (s : State) (n T U : Nat) : s.shownOnly (s.tileRead n T U) ∧
    (s.tileRead n T U).regs = ((s.put (R.THM_TILE.TJ n) T).put (R.THM_TILE.TSTORE n) U).regs := by
  unfold State.tileRead
  generalize hu : (s.put (R.THM_TILE.TJ n) T).put (R.THM_TILE.TSTORE n) U = u
  have h1 := u.crossed_eq srcTileTemp n (s.get (R.THM_TILE.TJ n))
  generalize u.crossed srcTileTemp n (s.get (R.THM_TILE.TJ n)) = v at *
  have h2 := v.crossed_eq srcStoreTemp n (s.get (R.THM_TILE.TSTORE n))
  generalize v.crossed srcStoreTemp n (s.get (R.THM_TILE.TSTORE n)) = w at *
  subst hu
  refine ⟨?_, (congrArg State.regs h2 :).trans (congrArg State.regs h1 :)⟩
  rw [State.shownOnly, h2, h1]
  rfl

theorem State.tileRead_get (s : State) {n T U : Nat} (hT : T ≤ 255) (hU : U ≤ 255) :
    (s.tileRead n T U).get (R.THM_TILE.TJ n) = T ∧ (s.tileRead n T U).get (R.THM_TILE.TSTORE n) = U ∧
      s.sameRegs (s.tileRead n T U) [R.THM_TILE.TJ n, R.THM_TILE.TSTORE n] := by
  have regs := (s.tileRead_shown n T U).2
  have apart : (R.THM_TILE.TJ n).key ≠ (R.THM_TILE.TSTORE n).key := by
    simp only [Field.key, R.THM_TILE.TJ, R.THM_TILE.TSTORE]; omega
  refine ⟨?_, ?_, fun f hf => ?_⟩
  · rw [State.get_of_regs regs, State.get_put_other _ _ apart, State.get_put_fits _ _ (show T < 2 ^ 8 by omega)]
  · rw [State.get_of_regs regs, State.get_put_fits _ _ (show U < 2 ^ 8 by omega)]
  · rw [State.get_of_regs regs, State.get_put_other _ _ (hf _ (by simp)), State.get_put_other _ _ (hf _ (by simp))]

/-- The reading of a tile's sensors. -/
theorem State.tileThermal_shows {s : State} {n T U : Nat} (on : s.pins.thermTripN = true) (awake : s.flt.dead = false) (hT : T ≤ 255)
    (hU : U ≤ 255) :
    let t := ((s.tileRead n T U).thermal srcTileTemp n).thermal srcStoreTemp n
    t.get (R.THM_TILE.TJ n) = T ∧ t.get (R.THM_TILE.TSTORE n) = U ∧
      t.isSet (R.THM_TILE.TILE_THROTTLING n) = decide (s.get R.THM_CTRL.TILE_THROTTLE_C ≤ T) ∧
      t.isSet (R.THM_TILE.STORE_THROTTLING n) = decide (s.get R.THM_CTRL.STORE_THROTTLE_C ≤ U) ∧
      (105 ≤ T → s.get R.THM_CTRL.TILE_THROTTLE_C ≤ T → t.isSet (R.THM_TILE.TILE_EMERGENCY n) = true) ∧
      (T < 105 → T < s.get R.THM_CTRL.TILE_THROTTLE_C → t.isSet (R.THM_TILE.TILE_EMERGENCY n) = false) ∧
      (100 ≤ U → s.get R.THM_CTRL.STORE_THROTTLE_C ≤ U → t.isSet (R.THM_TILE.STORE_EMERGENCY n) = true) ∧
      (T < 115 → U < 110 → t.flt.dead = false ∧ t.pins = s.pins) ∧
      (115 ≤ T ∨ 110 ≤ U → t.alive = false ∧ t.pins.thermTripN = false ∧ t.pins.faultN = false) ∧ t.levelsFollow ∧ t.mem = s.mem ∧
      t.pending = s.pending := by
  obtain ⟨readT, readU, same⟩ := s.tileRead_get hT hU
  obtain ⟨only, -⟩ := s.tileRead_shown n T U
  generalize s.tileRead n T U = r at *
  have mem : r.mem = s.mem := (congrArg State.mem only :)
  have pending : r.pending = s.pending := (congrArg State.pending only :)
  have pins : r.pins = s.pins := (congrArg State.pins only :)
  have dead : r.flt.dead = s.flt.dead := (congrArg (fun u : State => u.flt.dead) only :)
  have limit : r.get R.THM_CTRL.TILE_THROTTLE_C = s.get R.THM_CTRL.TILE_THROTTLE_C := by
    refine same _ ?_
    simp only [List.forall_mem_cons, Field.key, R.THM_CTRL.TILE_THROTTLE_C, R.THM_TILE.TJ, R.THM_TILE.TSTORE]
    exact ⟨by omega, by omega, fun _ h => nomatch h⟩
  have limitU : r.get R.THM_CTRL.STORE_THROTTLE_C = s.get R.THM_CTRL.STORE_THROTTLE_C := by
    refine same _ ?_
    simp only [List.forall_mem_cons, Field.key, R.THM_CTRL.STORE_THROTTLE_C, R.THM_TILE.TJ, R.THM_TILE.TSTORE]
    exact ⟨by omega, by omega, fun _ h => nomatch h⟩
  have reads : r.tempOf srcTileTemp n = (T, s.get R.THM_CTRL.TILE_THROTTLE_C, 105, 115) := by
    rw [← limit, ← readT]; rfl
  obtain ⟨regs1, mem1, pending1, _, throttles1, set1, clear1, cool1, trip1⟩ := State.thermal_shows (.inl rfl) reads
  generalize r.thermal srcTileTemp n = u at *
  have kept1 (f : Field) (lo : f.lo < 64) (high : 0x20180 ≤ f.addr) (count : f.addr ≠ 0x21008)
      (h : f.key ≠ (R.THM_TILE.TILE_THROTTLING n).key) (k : f.key ≠ (R.THM_TILE.TILE_EMERGENCY n).key) : u.get f = r.get f :=
    regs1 f (notHeat lo high count h k)
  have reads2 : u.tempOf srcStoreTemp n = (U, s.get R.THM_CTRL.STORE_THROTTLE_C, 100, 110) := by
    have h : u.get (R.THM_TILE.TSTORE n) = r.get (R.THM_TILE.TSTORE n) := by
      refine kept1 _ (show 8 < 64 by decide) (show 0x20180 ≤ 0x21100 + 0x8 * n by omega) (show 0x21100 + 0x8 * n ≠ 0x21008 by omega) ?_ ?_
      · simp only [Field.key, R.THM_TILE.TSTORE, R.THM_TILE.TILE_THROTTLING]; omega
      · simp only [Field.key, R.THM_TILE.TSTORE, R.THM_TILE.TILE_EMERGENCY]; omega
    have k : u.get R.THM_CTRL.STORE_THROTTLE_C = r.get R.THM_CTRL.STORE_THROTTLE_C := by
      refine kept1 _ (by decide) (by decide) (by decide) ?_ ?_
      · simp only [Field.key, R.THM_CTRL.STORE_THROTTLE_C, R.THM_TILE.TILE_THROTTLING]; omega
      · simp only [Field.key, R.THM_CTRL.STORE_THROTTLE_C, R.THM_TILE.TILE_EMERGENCY]; omega
    rw [← limitU, ← readU, ← h, ← k]; rfl
  have showsTJ : u.get (R.THM_TILE.TJ n) = T := by
    refine (kept1 _ (show 0 < 64 by decide) (show 0x20180 ≤ 0x21100 + 0x8 * n by omega) (show 0x21100 + 0x8 * n ≠ 0x21008 by omega) ?_ ?_).trans readT
    · simp only [Field.key, R.THM_TILE.TJ, R.THM_TILE.TILE_THROTTLING]; omega
    · simp only [Field.key, R.THM_TILE.TJ, R.THM_TILE.TILE_EMERGENCY]; omega
  have showsTS : u.get (R.THM_TILE.TSTORE n) = U := (congrArg Prod.fst reads2 :)
  obtain ⟨regs2, mem2, pending2, follow2, throttles2, set2, _, cool2, trip2⟩ := State.thermal_shows (.inr (.inl rfl)) reads2
  generalize u.thermal srcStoreTemp n = t at *
  have kept2 (f : Field) (lo : f.lo < 64) (high : f.addr = 0x21100 + 0x8 * n)
      (h : f.lo ≠ 18) (k : f.lo ≠ 19) : t.get f = u.get f := by
    refine regs2 f (notHeat lo (by omega) (by omega) ?_ ?_)
    · simp only [Field.key, throttlingField, srcStoreTemp, srcTileTemp, R.THM_TILE.STORE_THROTTLING, high]; simp; omega
    · simp only [Field.key, emergencyField, srcStoreTemp, srcTileTemp, R.THM_TILE.STORE_EMERGENCY, high]; simp; omega
  have emergencyKept : t.isSet (R.THM_TILE.TILE_EMERGENCY n) = u.isSet (R.THM_TILE.TILE_EMERGENCY n) :=
    State.isSet_of_get (kept2 _ (show 17 < 64 by decide) rfl (show 17 ≠ 18 by decide) (show 17 ≠ 19 by decide))
  have throttlingKept : t.isSet (R.THM_TILE.TILE_THROTTLING n) = u.isSet (R.THM_TILE.TILE_THROTTLING n) :=
    State.isSet_of_get (kept2 _ (show 16 < 64 by decide) rfl (show 16 ≠ 18 by decide) (show 16 ≠ 19 by decide))
  refine ⟨(kept2 _ (show 0 < 64 by decide) rfl (show 0 ≠ 18 by decide) (show 0 ≠ 19 by decide)).trans showsTJ,
    (kept2 _ (show 8 < 64 by decide) rfl (show 8 ≠ 18 by decide) (show 8 ≠ 19 by decide)).trans showsTS,
    throttlingKept.trans throttles1, throttles2, fun h k => emergencyKept.trans (set1 h k), fun h k => emergencyKept.trans (clear1 h k),
    set2, fun h k => ?_, fun h => ?_, follow2, mem2.trans (mem1.trans mem), pending2.trans (pending1.trans pending)⟩
  · obtain ⟨pins1, dead1⟩ := cool1 (.inl h)
    obtain ⟨pins2, dead2⟩ := cool2 (.inl k)
    exact ⟨dead2.trans (dead1.trans (dead.trans awake)), pins2.trans (pins1.trans pins)⟩
  · have ends : t.flt.dead = true ∧ t.pins.thermTripN = false ∧ t.pins.faultN = false := by
      by_cases hot : 115 ≤ T
      · obtain ⟨dead1, trip, fault⟩ := trip1 hot (pins ▸ on)
        obtain ⟨pins2, dead2⟩ := cool2 (.inr trip)
        exact ⟨dead2.trans dead1, pins2 ▸ trip, pins2 ▸ fault⟩
      · obtain ⟨pins1, _⟩ := cool1 (.inl (by omega))
        exact trip2 (by omega) (by rw [pins1, pins, on])
    exact ⟨by simp [State.alive, ends.1], ends.2⟩

/-- A stack's temperature is shown, and with it whether it refreshes at the hot rate (R425). -/
def State.stackRead (s : State) (n c : Nat) : State :=
  let u := (s.put (R.STACK_THERM.TEMP n) (min 255 c)).crossed srcStackTemp n (s.get (R.STACK_THERM.TEMP n))
  if 85 < c then u.putBit (R.STACK_REFRESH.HOT n) true else if c ≤ 83 then u.putBit (R.STACK_REFRESH.HOT n) false else u

theorem State.stackRead_shown (s : State) (n c : Nat) : s.shownOnly (s.stackRead n c) := by
  unfold State.stackRead
  generalize hv : s.put (R.STACK_THERM.TEMP n) (min 255 c) = v
  have h := v.crossed_eq srcStackTemp n (s.get (R.STACK_THERM.TEMP n))
  generalize v.crossed srcStackTemp n (s.get (R.STACK_THERM.TEMP n)) = u at *
  have only : s.shownOnly u := by
    rw [State.shownOnly, h, ← hv]
    rfl
  have puts (b : Bool) : s.shownOnly (u.putBit (R.STACK_REFRESH.HOT n) b) := by
    rw [State.shownOnly] at only ⊢
    rw [only]
    rfl
  dsimp only
  split
  · exact puts true
  · split
    · exact puts false
    · exact only

theorem State.stackRead_get (s : State) (n c : Nat) :
    let t := s.stackRead n c
    t.get (R.STACK_THERM.TEMP n) = min 255 c ∧ t.get (R.STACK_THERM.THROTTLE_C n) = s.get (R.STACK_THERM.THROTTLE_C n) ∧
      (85 < c → t.isSet (R.STACK_REFRESH.HOT n) = true) ∧ (c ≤ 83 → t.isSet (R.STACK_REFRESH.HOT n) = false) ∧
      (83 < c → c ≤ 85 → t.isSet (R.STACK_REFRESH.HOT n) = s.isSet (R.STACK_REFRESH.HOT n)) := by
  unfold State.stackRead
  have h := (s.put (R.STACK_THERM.TEMP n) (min 255 c)).crossed_eq srcStackTemp n (s.get (R.STACK_THERM.TEMP n))
  generalize (s.put (R.STACK_THERM.TEMP n) (min 255 c)).crossed srcStackTemp n (s.get (R.STACK_THERM.TEMP n)) = u at *
  have regs : u.regs = (s.put (R.STACK_THERM.TEMP n) (min 255 c)).regs := (congrArg State.regs h :)
  have temp : u.get (R.STACK_THERM.TEMP n) = min 255 c := by
    rw [State.get_of_regs regs, State.get_put_fits _ _ (show min 255 c < 2 ^ 8 by omega)]
  have limit : u.get (R.STACK_THERM.THROTTLE_C n) = s.get (R.STACK_THERM.THROTTLE_C n) := by
    rw [State.get_of_regs regs, State.get_put_other]
    simp only [Field.key, R.STACK_THERM.THROTTLE_C, R.STACK_THERM.TEMP]; omega
  have rate : u.isSet (R.STACK_REFRESH.HOT n) = s.isSet (R.STACK_REFRESH.HOT n) := by
    rw [State.isSet_of_regs regs, State.isSet_put_other]
    simp only [Field.key, R.STACK_REFRESH.HOT, R.STACK_THERM.TEMP]; omega
  have apart : (R.STACK_THERM.TEMP n).key ≠ (R.STACK_REFRESH.HOT n).key ∧ (R.STACK_THERM.THROTTLE_C n).key ≠ (R.STACK_REFRESH.HOT n).key := by
    simp only [Field.key, R.STACK_REFRESH.HOT, R.STACK_THERM.TEMP, R.STACK_THERM.THROTTLE_C]; omega
  have puts (b : Bool) : (u.putBit (R.STACK_REFRESH.HOT n) b).get (R.STACK_THERM.TEMP n) = min 255 c ∧
      (u.putBit (R.STACK_REFRESH.HOT n) b).get (R.STACK_THERM.THROTTLE_C n) = s.get (R.STACK_THERM.THROTTLE_C n) ∧
      (u.putBit (R.STACK_REFRESH.HOT n) b).isSet (R.STACK_REFRESH.HOT n) = b :=
    ⟨(State.get_put_other _ _ apart.1).trans temp, (State.get_put_other _ _ apart.2).trans limit, State.isSet_putBit Nat.one_pos b⟩
  dsimp only
  split
  · obtain ⟨t, l, b⟩ := puts true
    exact ⟨t, l, fun _ => b, fun _ => by omega, fun _ _ => by omega⟩
  · split
    · obtain ⟨t, l, b⟩ := puts false
      exact ⟨t, l, fun _ => by omega, fun _ => b, fun _ => by omega⟩
    · exact ⟨temp, limit, fun _ => by omega, fun _ => by omega, fun _ _ => rate⟩

/-- The reading of a stack's temperature. -/
theorem State.stackThermal_shows {s : State} {n c T : Nat} (on : s.pins.thermTripN = true) (awake : s.flt.dead = false) (hT : T = min 255 c) :
    let t := (s.stackRead n c).thermal srcStackTemp n
    t.get (R.STACK_THERM.TEMP n) = T ∧ t.isSet (R.STACK_THERM.THROTTLING n) = decide (s.get (R.STACK_THERM.THROTTLE_C n) ≤ T) ∧
      (95 ≤ T → s.get (R.STACK_THERM.THROTTLE_C n) ≤ T → t.isSet (R.STACK_THERM.EMERGENCY n) = true) ∧
      (85 < c → t.isSet (R.STACK_REFRESH.HOT n) = true) ∧ (c ≤ 83 → t.isSet (R.STACK_REFRESH.HOT n) = false) ∧
      (83 < c → c ≤ 85 → t.isSet (R.STACK_REFRESH.HOT n) = s.isSet (R.STACK_REFRESH.HOT n)) ∧
      (T < 105 → t.flt.dead = false) ∧ (105 ≤ T → t.alive = false ∧ t.pins.thermTripN = false) ∧ t.levelsFollow ∧ t.mem = s.mem ∧
      t.pending = s.pending := by
  subst hT
  obtain ⟨temp, limit, hot, cold, between⟩ := s.stackRead_get n c
  have only := s.stackRead_shown n c
  generalize s.stackRead n c = r at *
  have reads : r.tempOf srcStackTemp n = (min 255 c, s.get (R.STACK_THERM.THROTTLE_C n), 95, 105) := by
    rw [← temp, ← limit]; rfl
  obtain ⟨regs, mem, pending, follow, throttles, set, _, cool, trip⟩ := State.thermal_shows (.inr (.inr rfl)) reads
  generalize r.thermal srcStackTemp n = t at *
  have pins : r.pins = s.pins := (congrArg State.pins only :)
  have dead : r.flt.dead = s.flt.dead := (congrArg (fun u : State => u.flt.dead) only :)
  have rate : t.isSet (R.STACK_REFRESH.HOT n) = r.isSet (R.STACK_REFRESH.HOT n) := by
    refine State.isSet_of_get (regs _ (notHeat (show 4 < 64 by decide) (show 0x20180 ≤ 0x3000008 + 0x1000 * n by omega)
      (show 0x3000008 + 0x1000 * n ≠ 0x21008 by omega) ?_ ?_))
    · exact (by simp only [Field.key, R.STACK_REFRESH.HOT, R.STACK_THERM.THROTTLING]; omega :
        (R.STACK_REFRESH.HOT n).key ≠ (R.STACK_THERM.THROTTLING n).key)
    · exact (by simp only [Field.key, R.STACK_REFRESH.HOT, R.STACK_THERM.EMERGENCY]; omega :
        (R.STACK_REFRESH.HOT n).key ≠ (R.STACK_THERM.EMERGENCY n).key)
  have shown : t.get (R.STACK_THERM.TEMP n) = r.get (R.STACK_THERM.TEMP n) := by
    refine regs _ (notHeat (show 0 < 64 by decide) (show 0x20180 ≤ 0x3000010 + 0x1000 * n by omega)
      (show 0x3000010 + 0x1000 * n ≠ 0x21008 by omega) ?_ ?_)
    · exact (by simp only [Field.key, R.STACK_THERM.TEMP, R.STACK_THERM.THROTTLING]; omega :
        (R.STACK_THERM.TEMP n).key ≠ (R.STACK_THERM.THROTTLING n).key)
    · exact (by simp only [Field.key, R.STACK_THERM.TEMP, R.STACK_THERM.EMERGENCY]; omega :
        (R.STACK_THERM.TEMP n).key ≠ (R.STACK_THERM.EMERGENCY n).key)
  refine ⟨shown.trans temp, throttles, set, fun h => rate.trans (hot h), fun h => rate.trans (cold h), fun h k => rate.trans (between h k),
    fun h => ?_, fun h => ?_, follow, mem.trans (congrArg State.mem only :), pending.trans (congrArg State.pending only :)⟩
  · exact (cool (.inl h)).2.trans (dead.trans awake)
  · obtain ⟨stopped, tripped, _⟩ := trip h (pins ▸ on)
    exact ⟨by simp [State.alive, stopped], tripped⟩

/-! ### Alerts and droop (R512, R520) -/

theorem le_foldl_max {α : Type} (f : α → Nat) (l : List α) (m : Nat) : m ≤ l.foldl (fun a x => max a (f x)) m := by
  induction l generalizing m with
  | nil => exact Nat.le_refl m
  | cons x l ih => exact (Nat.le_max_left m (f x)).trans (ih _)

/-- While an alert stands every tile wants PL7. -/
theorem State.wanted_alert {s : State} (h : s.alert = true) (n : Nat) : 7 ≤ s.wanted n := by
  rw [State.wanted, h]
  exact le_foldl_max (fun src => s.demanded src n) _ 7

/-- A tile whose clock is stretched or skips has its reason shown. -/
theorem State.settleLevels_droop {s : State} {n : Nat} (hn : n < 16)
    (h : s.isSet (R.PWR_TILE.STRETCH n) = true ∨ s.isSet (R.PWR_TILE.DROOP_SKIP n) = true) :
    bit (s.settleLevels.get R.PWR_REASONS.ACTIVE) 0 = true := by
  have binds : s.binds 0 = true := by
    simp only [State.binds, List.any_eq_true, List.mem_range, Bool.or_eq_true]
    exact ⟨n, hn, h⟩
  rw [State.get_of_regs s.settleLevels_regs, State.levelled, State.get_put_same, bit_eq_testBit, Nat.testBit_mod_two_pow, testBit_bitSet]
  simp [R.PWR_REASONS.ACTIVE, binds]

theorem notLevel_stretch (n : Nat) : ∀ g ∈ levelFields, (R.PWR_TILE.STRETCH n).key ≠ g.key :=
  notLevel (show 3 < 64 by decide) (.inl (show 3 ≠ 0 by decide))

theorem notLevel_skip (n : Nat) : ∀ g ∈ levelFields, (R.PWR_TILE.DROOP_SKIP n).key ≠ g.key :=
  notLevel (show 4 < 64 by decide) (.inl (show 4 ≠ 0 by decide))

theorem stretch_skip (n : Nat) : (R.PWR_TILE.STRETCH n).key ≠ (R.PWR_TILE.DROOP_SKIP n).key := by
  simp only [Field.key, R.PWR_TILE.STRETCH, R.PWR_TILE.DROOP_SKIP]; omega

/-- An alert input that falls. -/
theorem State.alertFall_shows {s : State} {k : Nat} (hk : k < 4) (was : k ∉ s.pins.vrAlertLow) :
    let t := s.alertFall k
    t.pins.vrAlertLow = s.pins.vrAlertLow ++ [k] ∧ bit (t.get R.PWR_STATUS.VR_ALERT) k = true ∧ t.pwr.prepared = [] ∧
      t.get R.THM_EVENTS.VR_ALERTS = min (2 ^ R.THM_EVENTS.VR_ALERTS.width - 1) (s.get R.THM_EVENTS.VR_ALERTS + 1) ∧
      (∀ n, n < 16 → 7 ≤ t.wanted n) ∧ t.levelsFollow ∧ bit (t.get R.GLB_ERR_SUMMARY.SEEN) 1 = true ∧ t.mem = s.mem ∧
      t.pending = s.pending := by
  unfold State.alertFall
  rw [if_neg (by simpa using was)]
  dsimp only
  set low : State := { s with pins := { s.pins with vrAlertLow := s.pins.vrAlertLow ++ [k] },
                              pwr := { s.pwr with prepared := [], alertHold := false } } with hlow
  have shown : bit (((low.put R.PWR_STATUS.VR_ALERT (low.get R.PWR_STATUS.VR_ALERT ||| 2 ^ k)).bump R.THM_EVENTS.VR_ALERTS).get
      R.PWR_STATUS.VR_ALERT) k = true := by
    rw [State.bump, State.get_put_other _ _ (by decide), State.get_put_same, bit_eq_testBit, Nat.testBit_mod_two_pow, Nat.testBit_or,
      Nat.testBit_two_pow_self]
    simp [R.PWR_STATUS.VR_ALERT, hk]
  have counted : ((low.put R.PWR_STATUS.VR_ALERT (low.get R.PWR_STATUS.VR_ALERT ||| 2 ^ k)).bump R.THM_EVENTS.VR_ALERTS).get
      R.THM_EVENTS.VR_ALERTS = min (2 ^ R.THM_EVENTS.VR_ALERTS.width - 1) (s.get R.THM_EVENTS.VR_ALERTS + 1) := by
    rw [State.get_bump_same, State.get_put_other _ _ (by decide)]
    rfl
  have kept : ((low.put R.PWR_STATUS.VR_ALERT (low.get R.PWR_STATUS.VR_ALERT ||| 2 ^ k)).bump R.THM_EVENTS.VR_ALERTS).pins = low.pins ∧
      ((low.put R.PWR_STATUS.VR_ALERT (low.get R.PWR_STATUS.VR_ALERT ||| 2 ^ k)).bump R.THM_EVENTS.VR_ALERTS).pwr = low.pwr ∧
      ((low.put R.PWR_STATUS.VR_ALERT (low.get R.PWR_STATUS.VR_ALERT ||| 2 ^ k)).bump R.THM_EVENTS.VR_ALERTS).mem = s.mem ∧
      ((low.put R.PWR_STATUS.VR_ALERT (low.get R.PWR_STATUS.VR_ALERT ||| 2 ^ k)).bump R.THM_EVENTS.VR_ALERTS).pending = s.pending :=
    ⟨rfl, rfl, rfl, rfl⟩
  generalize (low.put R.PWR_STATUS.VR_ALERT (low.get R.PWR_STATUS.VR_ALERT ||| 2 ^ k)).bump R.THM_EVENTS.VR_ALERTS = u at *
  obtain ⟨pinsU, pwrU, memU, pendingU⟩ := kept
  have lowPins : low.pins.vrAlertLow = s.pins.vrAlertLow ++ [k] := rfl
  have lowPwr : low.pwr.prepared = [] := rfl
  clear_value low
  have raised := State.Raises.raise u (evVrAlert k)
  have seen := u.raise_seen (evVrAlert k) (show 2 - 1 < 8 by decide)
  have pins : (u.raise (evVrAlert k)).pins = u.pins := State.raise_pins (e := evVrAlert k) (show 2 ≠ 5 by decide)
  generalize u.raise (evVrAlert k) = v at *
  have alert : v.settleLevels.alert = true := by
    rw [State.settleLevels_alert, State.alert, pins, pinsU, lowPins]
    simp
  refine ⟨?_, ?_, ?_, ?_, fun n _ => State.wanted_alert alert n, v.settleLevels_levelsFollow, ?_, v.settleLevels_mem.trans (raised.mem.trans memU),
    v.settleLevels_pending.trans (raised.pending.trans pendingU)⟩
  · rw [State.settleLevels_pins, pins, pinsU, lowPins]
  · rw [v.settleLevels_get (notLevel (by decide) (.inl (by decide))), raised.get (by decide), shown]
  · rw [v.settleLevels_pwr]
    exact (congrArg Pwr.prepared (raised.pwr.trans pwrU)).trans lowPwr
  · rw [v.settleLevels_get (notLevel (by decide) (.inl (by decide))), raised.get (by decide), counted]
  · rw [v.settleLevels_get (notLevel (by decide) (.inr (by decide)))]
    exact seen

/-- An alert input that rises: the hold begins with the last of them. -/
theorem State.alertRise_shows {s : State} {k : Nat} (low : k ∈ s.pins.vrAlertLow) :
    let t := s.alertRise k
    t.pins.vrAlertLow = s.pins.vrAlertLow.filter (fun j => j != k) ∧ t.pwr.alertHold = t.pins.vrAlertLow.isEmpty ∧ t.alert = true ∧
      t.levelsFollow ∧ t.mem = s.mem ∧ t.out = s.out ∧ t.pending = s.pending := by
  unfold State.alertRise
  rw [if_neg (by simpa using low)]
  dsimp only
  set u : State := { s.put R.PWR_STATUS.VR_ALERT (s.get R.PWR_STATUS.VR_ALERT - 2 ^ k) with
    pins := { s.pins with vrAlertLow := s.pins.vrAlertLow.filter fun j => j != k }
    pwr := { s.pwr with alertHold := (s.pins.vrAlertLow.filter fun j => j != k).isEmpty } } with hu
  have kept : u.pins.vrAlertLow = s.pins.vrAlertLow.filter (fun j => j != k) ∧ u.pwr.alertHold = u.pins.vrAlertLow.isEmpty ∧
      u.mem = s.mem ∧ u.out = s.out ∧ u.pending = s.pending := ⟨rfl, rfl, rfl, rfl, rfl⟩
  change let t := u.settleLevels; t.pins.vrAlertLow = _ ∧ t.pwr.alertHold = t.pins.vrAlertLow.isEmpty ∧ t.alert = true ∧
      t.levelsFollow ∧ t.mem = s.mem ∧ t.out = s.out ∧ t.pending = s.pending
  clear_value u
  obtain ⟨low, held, mem, out, pending⟩ := kept
  refine ⟨by rw [u.settleLevels_pins, low], ?_, ?_, u.settleLevels_levelsFollow, u.settleLevels_mem.trans mem, u.settleLevels_out.trans out,
    u.settleLevels_pending.trans pending⟩
  · rw [u.settleLevels_pins, u.settleLevels_pwr]
    exact held
  · rw [u.settleLevels_alert, State.alert, held]
    cases u.pins.vrAlertLow.isEmpty <;> rfl

/-- The demand of a source on a tile changes, and the levels follow. -/
theorem State.setDemand_settled (s : State) (src n l : Nat) :
    let t := (s.setDemand src n l).settleLevels
    t.demand src n = l ∧ t.levelsFollow ∧ t.mem = s.mem ∧ t.out = s.out ∧ t.pending = s.pending := by
  have set : (s.setDemand src n l).demand src n = l := Table.get_set_same ..
  have kept : (s.setDemand src n l).mem = s.mem ∧ (s.setDemand src n l).out = s.out ∧ (s.setDemand src n l).pending = s.pending := ⟨rfl, rfl, rfl⟩
  generalize s.setDemand src n l = u at *
  obtain ⟨mem, out, pending⟩ := kept
  exact ⟨(u.settleLevels_demand src n).trans set, u.settleLevels_levelsFollow, u.settleLevels_mem.trans mem, u.settleLevels_out.trans out,
    u.settleLevels_pending.trans pending⟩

/-- A step of the thermal controller, by the reading and its limit. -/
theorem State.thermalStep_eq (s : State) (src n : Nat) (down : Bool) {T H : Nat} (reads : (s.tempOf src n).1 = T)
    (limit : (s.tempOf src n).2.1 = H) :
    s.thermalStep src n down = if down = false ∧ H ≤ T then (s.setDemand src n (min 6 (s.demand src n + 1))).settleLevels
      else if down = true ∧ T + 3 < H then (s.setDemand src n (s.demand src n - 1)).settleLevels else s := by
  subst reads limit
  unfold State.thermalStep
  generalize s.tempOf src n = r
  obtain ⟨t, h, _, _⟩ := r
  simp only [Bool.and_eq_true, Bool.not_eq_true', decide_eq_true_eq]

/-- The bits of a droop change, and the levels follow. -/
theorem State.onlyRegs.settled {s u : State} {l : List Field} (h : s.onlyRegs u l) :
    u.settleLevels.mem = s.mem ∧ u.settleLevels.out = s.out ∧ u.settleLevels.pending = s.pending :=
  ⟨u.settleLevels_mem.trans (congrArg State.mem h.1 :), u.settleLevels_out.trans (congrArg State.out h.1 :),
    u.settleLevels_pending.trans (congrArg State.pending h.1 :)⟩

end Sys2Proof.Machine

open Sys2Proof Sys2Proof.Machine

/-- Settles O38: alerts hold PL7, droops stretch and skip, and temperatures throttle, warn and trip. -/
theorem alertsAndTemperatures : Obligations.AlertsAndTemperatures := by
  constructor
  · intro s alive
    have on := State.on_of_alive alive
    refine ⟨fun k hk was => ?_, fun k low => ?_, fun risen => ?_, fun n hn => ⟨fun clear => ?_, fun stretched => ?_, ?_⟩⟩
    · obtain ⟨pins, shown, prepared, counted, wanted, follow, seen, mem, pending⟩ := State.alertFall_shows hk was
      refine completes_become (t := s.alertFall k) (congrArg (State.become s) ?_) pending
        ⟨pins, shown, prepared, counted, wanted, follow, seen, mem⟩
      rw [if_neg (by omega), if_pos on]
    · obtain ⟨pins, held, alert, follow, mem, out, pending⟩ := State.alertRise_shows low
      exact completes_become (t := s.alertRise k) (congrArg (State.become s) (if_pos on)) pending ⟨pins, held, alert, follow, mem, out⟩
    · refine completes_whenOn (t := ({ s with pwr := { s.pwr with alertHold := false } } : State).settleLevels) (f := fun s => s.alertEnd) on rfl
        (if_pos (by rw [risen]; rfl)) (State.settleLevels_pending _) ⟨?_, State.settleLevels_pwr _, State.settleLevels_levelsFollow _,
          State.settleLevels_mem _, State.settleLevels_out _⟩
      rw [State.settleLevels_alert, State.alert, risen]
      rfl
    · have only : s.onlyRegs (s.putBit (R.PWR_TILE.STRETCH n) true) [R.PWR_TILE.STRETCH n] := .put (.refl s _) (by simp) _
      have set : (s.putBit (R.PWR_TILE.STRETCH n) true).isSet (R.PWR_TILE.STRETCH n) = true := State.isSet_putBit Nat.one_pos true
      obtain ⟨mem, out, pending⟩ := only.settled
      refine completes_whenAlive (t := (s.putBit (R.PWR_TILE.STRETCH n) true).settleLevels) (f := fun s =>
        (if s.isSet (R.PWR_TILE.DROOP_SKIP n) then s else s.putBit (R.PWR_TILE.STRETCH n) true).settleLevels) alive rfl
        (congrArg State.settleLevels (if_neg (by simp [clear]))) pending
        ⟨(State.settleLevels_isSet _ (notLevel_stretch n)).trans set, State.settleLevels_droop hn (.inl set), mem, out⟩
    · have only : s.onlyRegs ((s.putBit (R.PWR_TILE.STRETCH n) false).putBit (R.PWR_TILE.DROOP_SKIP n) true)
          [R.PWR_TILE.STRETCH n, R.PWR_TILE.DROOP_SKIP n] := .put (.put (.refl s _) (by simp) _) (by simp) _
      have set : ((s.putBit (R.PWR_TILE.STRETCH n) false).putBit (R.PWR_TILE.DROOP_SKIP n) true).isSet (R.PWR_TILE.DROOP_SKIP n) = true :=
        State.isSet_putBit Nat.one_pos true
      have cleared : ((s.putBit (R.PWR_TILE.STRETCH n) false).putBit (R.PWR_TILE.DROOP_SKIP n) true).isSet (R.PWR_TILE.STRETCH n) = false :=
        (State.isSet_putBit_other _ _ (stretch_skip n)).trans (State.isSet_putBit Nat.one_pos false)
      obtain ⟨mem, out, pending⟩ := only.settled
      exact completes_whenAlive (f := fun s => if s.isSet (R.PWR_TILE.STRETCH n) then
        ((s.putBit (R.PWR_TILE.STRETCH n) false).putBit (R.PWR_TILE.DROOP_SKIP n) true).settleLevels else s) alive rfl (if_pos stretched) pending
        ⟨(State.settleLevels_isSet _ (notLevel_stretch n)).trans cleared, (State.settleLevels_isSet _ (notLevel_skip n)).trans set,
          State.settleLevels_droop hn (.inr set), mem, out⟩
    · have only : s.onlyRegs ((s.putBit (R.PWR_TILE.STRETCH n) false).putBit (R.PWR_TILE.DROOP_SKIP n) false)
          [R.PWR_TILE.STRETCH n, R.PWR_TILE.DROOP_SKIP n] := .put (.put (.refl s _) (by simp) _) (by simp) _
      have set : ((s.putBit (R.PWR_TILE.STRETCH n) false).putBit (R.PWR_TILE.DROOP_SKIP n) false).isSet (R.PWR_TILE.DROOP_SKIP n) = false :=
        State.isSet_putBit Nat.one_pos false
      have cleared : ((s.putBit (R.PWR_TILE.STRETCH n) false).putBit (R.PWR_TILE.DROOP_SKIP n) false).isSet (R.PWR_TILE.STRETCH n) = false :=
        (State.isSet_putBit_other _ _ (stretch_skip n)).trans (State.isSet_putBit Nat.one_pos false)
      obtain ⟨mem, out, pending⟩ := only.settled
      exact completes_whenAlive (f := fun s => ((s.putBit (R.PWR_TILE.STRETCH n) false).putBit (R.PWR_TILE.DROOP_SKIP n) false).settleLevels)
        alive rfl rfl pending ⟨(State.settleLevels_isSet _ (notLevel_stretch n)).trans cleared,
          (State.settleLevels_isSet _ (notLevel_skip n)).trans set, mem, out⟩
  · intro s alive on n hn
    have powered := State.on_of_alive alive
    have awake := State.dead_of_alive alive
    refine ⟨fun tj ts T U hT hU => ?_, fun c T hT => ?_, fun k hk down => ?_⟩
    · obtain ⟨a1, a2, a3, a4, a5, a6, a7, a8, a9, a10, a11, pending⟩ :=
        State.tileThermal_shows (n := n) on awake (hT ▸ Nat.min_le_left .. : T ≤ 255) (hU ▸ Nat.min_le_left .. : U ≤ 255)
      subst hT hU
      exact completes_whenOn (t := _) (f := fun s => ((s.tileRead n (min 255 (tj.foldl max 0)) (min 255 (ts.foldl max 0))).thermal srcTileTemp
        n).thermal srcStoreTemp n) powered rfl rfl pending ⟨a1, a2, a3, a4, a5, a6, a7, a8, a9, a10, a11⟩
    · obtain ⟨b1, b2, b3, b4, b5, b6, b7, b8, b9, b10, pending⟩ := State.stackThermal_shows (n := n) on awake hT
      exact completes_whenOn (f := fun s => (s.stackRead n c).thermal srcStackTemp n) powered rfl rfl pending
        ⟨b1, b2, b3, b4, b5, b6, b7, b8, b9, b10⟩
    · intro T H
      have runs : exec (.thermalThrottleStep n k down) s = s.whenOn fun s => if k < 3 then s.thermalStep (3 + k) n down else s := rfl
      have steps : (if k < 3 then s.thermalStep (3 + k) n down else s) = _ := (if_pos hk).trans (s.thermalStep_eq (3 + k) n down rfl rfl)
      refine ⟨fun up hot => ?_, fun off cool => ?_, fun neither => ?_⟩
      · obtain ⟨demand, follow, mem, out, pending⟩ := s.setDemand_settled (3 + k) n (min 6 (s.demand (3 + k) n + 1))
        exact completes_whenOn powered runs (steps.trans (if_pos ⟨up, hot⟩)) pending ⟨demand, follow, mem, out⟩
      · obtain ⟨demand, follow, mem, out, pending⟩ := s.setDemand_settled (3 + k) n (s.demand (3 + k) n - 1)
        exact completes_whenOn powered runs (steps.trans ((if_neg (by simp [off])).trans (if_pos ⟨off, cool⟩))) pending
          ⟨demand, follow, mem, out⟩
      · refine completes_whenOn powered runs (steps.trans ((if_neg ?_).trans (if_neg ?_))) rfl rfl
        · rintro ⟨up, hot⟩
          obtain ⟨-, h⟩ | ⟨off, -⟩ := neither
          · exact absurd hot (Nat.not_le.2 h)
          · simp [up] at off
        · rintro ⟨off, cool⟩
          obtain ⟨up, -⟩ | ⟨-, h⟩ := neither
          · simp [up] at off
          · exact absurd cool (Nat.not_lt.2 h)

end

section
/-!
SUPPORT. Phases, samples of the rails and the levels that they demand (O37).
-/

namespace Sys2Proof.Machine

/-! ### Demands tile by tile -/

/-- Only what the levels are demanded to be differs. -/
def State.demandsOnly (s t : State) : Prop := t = { s with pwr := { s.pwr with demands := t.pwr.demands } }

theorem State.demandsOnly.set {s t : State} (h : s.demandsOnly t) (src n l : Nat) : s.demandsOnly (t.setDemand src n l) := by
  rw [State.demandsOnly] at h ⊢
  rw [h]
  rfl

theorem State.demand_setDemand (s : State) (src n l : Nat) : (s.setDemand src n l).demand src n = l := Table.get_set_same ..

theorem State.demand_setDemand_other (s : State) (src l : Nat) {m n : Nat} (h : m ≠ n) :
    (s.setDemand src n l).demand src m = s.demand src m :=
  Table.get_set_other _ _ _ (by omega)

/-- A source's demands taken up tile by tile: each tile of the list has its own, the others keep theirs. -/
theorem State.foldl_demand {s : State} {src : Nat} {step : State → Nat → State} {v : Nat → Option Nat} {l : List Nat}
    (one : ∀ u n, s.demandsOnly u → u.demand src n = s.demand src n →
      step u n = match v n with | some x => u.setDemand src n x | none => u) (nodup : l.Nodup) :
    s.demandsOnly (l.foldl step s) ∧
      ∀ n, (l.foldl step s).demand src n = if n ∈ l then (v n).getD (s.demand src n) else s.demand src n := by
  have general (l : List Nat) (nodup : l.Nodup) (u : State) (only : s.demandsOnly u) (fresh : ∀ n ∈ l, u.demand src n = s.demand src n) :
      s.demandsOnly (l.foldl step u) ∧
        ∀ n, (l.foldl step u).demand src n = if n ∈ l then (v n).getD (s.demand src n) else u.demand src n := by
    induction l generalizing u with
    | nil => exact ⟨only, fun n => by simp⟩
    | cons m l ih =>
      obtain ⟨new, nodup⟩ := List.nodup_cons.1 nodup
      have here := fresh m (by simp)
      have stepped : s.demandsOnly (step u m) ∧ (step u m).demand src m = (v m).getD (s.demand src m) ∧
          ∀ n, n ≠ m → (step u m).demand src n = u.demand src n := by
        rw [one u m only here]
        cases v m with
        | none => exact ⟨only, here, fun _ _ => rfl⟩
        | some x => exact ⟨only.set src m x, State.demand_setDemand u src m x, fun n h => State.demand_setDemand_other u src x h⟩
      obtain ⟨only', now, others⟩ := stepped
      obtain ⟨done, all⟩ := ih nodup (step u m) only' fun n hn => by
        rw [others n (fun e => new (e ▸ hn)), fresh n (by simp [hn])]
      refine ⟨done, fun n => ?_⟩
      rw [List.foldl_cons, all n]
      by_cases h : n = m
      · subst h
        rw [if_neg new, now, if_pos (by simp)]
      · by_cases k : n ∈ l
        · rw [if_pos k, if_pos (by simp [k])]
        · rw [if_neg k, if_neg (by simp [h, k]), others n h]
  exact general l nodup s rfl fun _ _ => rfl

/-- What settled levels keep of a state whose demands alone have changed. -/
theorem State.demandsOnly.settled {s t : State} (h : s.demandsOnly t) :
    t.settleLevels.mem = s.mem ∧ t.settleLevels.out = s.out ∧ t.settleLevels.pending = s.pending ∧
      t.settleLevels.pwr = { s.pwr with demands := t.pwr.demands, occur := t.settleLevels.pwr.occur } := by
  refine ⟨t.settleLevels_mem.trans (congrArg State.mem h :), t.settleLevels_out.trans (congrArg State.out h :),
    t.settleLevels_pending.trans (congrArg State.pending h :), t.settleLevels_pwr.trans ?_⟩
  have pwr : t.pwr = { s.pwr with demands := t.pwr.demands } := (congrArg State.pwr h :)
  rw [pwr]

/-! ### Phases (R518) -/

/-- A phase that begins: its tiles take their levels. -/
theorem State.applyPhase_levels (s : State) (i p : Nat) :
    let t := s.applyPhase i p
    t.pwr.prepared = s.pwr.prepared ∧ t.levelsFollow ∧ t.mem = s.mem ∧ t.out = s.out ∧ t.pending = s.pending ∧ ∀ n, n < 16 →
      ((s.tile n).inst = some i → ∀ l, s.levelOf n i p s.offset = some l → t.demand srcCap n = l) ∧
      ((s.tile n).inst ≠ some i ∨ s.levelOf n i p s.offset = none → t.demand srcCap n = s.demand srcCap n) := by
  unfold State.applyPhase
  have nodup : (s.instTiles i).Nodup := List.nodup_range.filter _
  obtain ⟨only, demands⟩ := State.foldl_demand (s := s) (src := srcCap) (v := fun n => s.levelOf n i p s.offset)
    (step := fun (s : State) n => match s.levelOf n i p s.offset with | some l => s.setDemand srcCap n l | none => s) (fun u n only _ => by
      rw [State.demandsOnly] at only
      rw [only]
      rfl) nodup
  dsimp only
  generalize (s.instTiles i).foldl _ s = u at *
  have kept : ({ u with pwr := { u.pwr with applied := Table.insert i (some p) u.pwr.applied } } : State).pwr.prepared = s.pwr.prepared :=
    (congrArg (fun w : State => w.pwr.prepared) only :)
  have mem : u.mem = s.mem := (congrArg State.mem only :)
  have out : u.out = s.out := (congrArg State.out only :)
  have pending : u.pending = s.pending := (congrArg State.pending only :)
  have demand (n : Nat) : ({ u with pwr := { u.pwr with applied := Table.insert i (some p) u.pwr.applied } } : State).demand srcCap n =
      u.demand srcCap n := rfl
  have same : ({ u with pwr := { u.pwr with applied := Table.insert i (some p) u.pwr.applied } } : State).mem = u.mem ∧
      ({ u with pwr := { u.pwr with applied := Table.insert i (some p) u.pwr.applied } } : State).out = u.out ∧
      ({ u with pwr := { u.pwr with applied := Table.insert i (some p) u.pwr.applied } } : State).pending = u.pending := ⟨rfl, rfl, rfl⟩
  generalize ({ u with pwr := { u.pwr with applied := Table.insert i (some p) u.pwr.applied } } : State) = w at *
  obtain ⟨memW, outW, pendingW⟩ := same
  refine ⟨?_, w.settleLevels_levelsFollow, w.settleLevels_mem.trans (memW.trans mem), w.settleLevels_out.trans (outW.trans out),
    w.settleLevels_pending.trans (pendingW.trans pending), fun n hn => ⟨fun mine l level => ?_, fun not => ?_⟩⟩
  · rw [w.settleLevels_pwr]
    exact kept
  · rw [w.settleLevels_demand, demand, demands n, if_pos (by simp [State.instTiles, hn, mine]), level]
    rfl
  · rw [w.settleLevels_demand, demand, demands n]
    split
    · next mine =>
      obtain other | none_ := not
      · simp [State.instTiles, other] at mine
      · rw [none_]
        rfl
    · rfl

/-- The phases of a furrow that begin before `e`, in the order of their offsets. -/
def State.phasesBefore (s : State) (e : PlanEntry) : List PlanEntry :=
  ((s.phaseEntries (s.get R.FRW_LATE.TEMPLATE)).filter fun x => decide (x.offset < e.offset)).mergeSort fun x y =>
    decide (x.offset ≤ y.offset)

/-- A phase that comes is prepared, with the guard where its power is enough above that of the phase before it. -/
theorem State.prepare_prepares {s : State} {i p : Nat} {e : PlanEntry} (enabled : s.isSet R.PWR_CTRL.PREPOS_EN = true)
    (running : s.inSchedule = true) (calm : s.alert = false)
    (first : ((s.phaseEntries (s.get R.FRW_LATE.TEMPLATE)).filter fun x => x.inst == i && x.tag == p && decide (s.offset ≤ x.offset)).head?
      = some e) (fresh : (i, p) ∉ s.pwr.prepared) :
    let t := s.prepare i p
    (t = { s with pwr := { s.pwr with prepared := s.pwr.prepared ++ [(i, p)], guards := t.pwr.guards } } ∧
      (∀ b, (s.phasesBefore e).getLast? = some b →
        (11 * s.phasePower (s.get R.FRW_LATE.TEMPLATE) b < 10 * s.phasePower (s.get R.FRW_LATE.TEMPLATE) e →
          t.pwr.guards = s.pwr.guards ++ [s.get R.PWR_CTRL.GUARD_MV]) ∧
        (10 * s.phasePower (s.get R.FRW_LATE.TEMPLATE) e ≤ 11 * s.phasePower (s.get R.FRW_LATE.TEMPLATE) b →
          t.pwr.guards = s.pwr.guards)) ∧
      (s.phasesBefore e = [] → t.pwr.guards = s.pwr.guards)) ∧ t.pending = s.pending := by
  unfold State.prepare
  rw [if_neg (by simp [enabled, running, calm])]
  dsimp only
  rw [first]
  dsimp only
  rw [if_neg (by simpa using fresh)]
  unfold State.phasesBefore
  refine ⟨⟨rfl, fun b last => ⟨fun above => ?_, fun within => ?_⟩, fun none_ => ?_⟩, rfl⟩
  · rw [last]
    exact if_pos (by simpa using above)
  · rw [last]
    exact if_neg (by simpa using within)
  · rw [none_]
    rfl

/-! ### The cap outside the schedule -/

theorem State.idleCap_levels {s : State} (idle : s.inSchedule = false) :
    let t := s.idleCap
    t.levelsFollow ∧ t.mem = s.mem ∧ t.out = s.out ∧ t.pending = s.pending ∧ ∀ n, n < 16 →
      (s.cap * 1000000 < s.meanPower 10000 → t.demand srcCap n = min 6 (s.demand srcCap n + 1)) ∧
      (100 * s.meanPower 10000 < 95 * (s.cap * 1000000) → t.demand srcCap n = s.demand srcCap n - 1) ∧
      (s.meanPower 10000 ≤ s.cap * 1000000 → 95 * (s.cap * 1000000) ≤ 100 * s.meanPower 10000 →
        t.demand srcCap n = s.demand srcCap n) := by
  unfold State.idleCap
  rw [if_neg (by simp [idle])]
  dsimp only
  generalize s.meanPower 10000 = m
  generalize s.cap * 1000000 = c
  generalize hf : (fun l : Nat => if c < m then min 6 (l + 1) else if 100 * m < 95 * c then l - 1 else l) = f
  have apply (l : Nat) : (if c < m then min 6 (l + 1) else if 100 * m < 95 * c then l - 1 else l) = f l := congrFun hf l
  simp only [apply]
  obtain ⟨only, demands⟩ := State.foldl_demand (s := s) (src := srcCap) (v := fun n => some (f (s.demand srcCap n)))
    (step := fun (s : State) n => s.setDemand srcCap n (f (s.demand srcCap n))) (l := List.range 16) (fun u n _ same => by rw [same])
    List.nodup_range
  generalize (List.range 16).foldl _ s = u at *
  obtain ⟨mem, out, pending, _⟩ := only.settled
  refine ⟨u.settleLevels_levelsFollow, mem, out, pending, fun n hn => ?_⟩
  rw [u.settleLevels_demand, demands n, if_pos (List.mem_range.2 hn), Option.getD_some, ← hf]
  dsimp only
  refine ⟨fun h => if_pos h, fun h => ?_, fun h k => ?_⟩
  · rw [if_neg (by omega), if_pos h]
  · rw [if_neg (by omega), if_neg (by omega)]

/-! ### Energy (R527) -/

/-- What one sample adds to a partition's energy, in sixteenths of a picojoule, with what was left over. -/
def sampleEnergy (rails : List (Nat × Nat)) (shares : List Nat) (left n : Nat) : Nat :=
  left + 16 * (railPower rails n + shares.getD n 0) + (railPower rails 17 + railPower rails 19 + railPower rails 20)

def State.takeEnergy (s : State) (n e : Nat) : State :=
  { (s.wrapAdd (R.PWR_ENERGY.UJ n) (e / 16000000)) with
      pwr := { s.pwr with fraction := Table.set 0 n (e % 16000000) s.pwr.fraction } }

theorem State.addEnergy_eq (s : State) (rails : List (Nat × Nat)) (shares : List Nat) :
    s.addEnergy rails shares =
      (List.range 16).foldl (fun (s : State) n => s.takeEnergy n (sampleEnergy rails shares (Table.get 0 n s.pwr.fraction) n)) s := rfl

theorem uj_key_inj {m n : Nat} (h : m ≠ n) : (R.PWR_ENERGY.UJ m).key ≠ (R.PWR_ENERGY.UJ n).key := by
  simp only [Field.key, R.PWR_ENERGY.UJ]
  omega

/-- From `s` to `t` the energy of the partitions in `l` has been counted, by what `e` gives. -/
structure State.Energy (l : List Nat) (e : Nat → Nat) (s t : State) : Prop where
  eq : t = { s with regs := t.regs, pwr := { s.pwr with fraction := t.pwr.fraction } }
  regs : s.sameRegs t (l.map R.PWR_ENERGY.UJ)
  counted : ∀ n ∈ l, t.get (R.PWR_ENERGY.UJ n) = (s.get (R.PWR_ENERGY.UJ n) + e n / 16000000) % 2 ^ 64 ∧
    Table.get 0 n t.pwr.fraction = e n % 16000000
  others : ∀ n, n ∉ l → Table.get 0 n t.pwr.fraction = Table.get 0 n s.pwr.fraction

theorem State.Energy.foldl {rails : List (Nat × Nat)} {shares : List Nat} (l : List Nat) (nodup : l.Nodup) (s : State) :
    State.Energy l (fun n => sampleEnergy rails shares (Table.get 0 n s.pwr.fraction) n) s
      (l.foldl (fun (s : State) n => s.takeEnergy n (sampleEnergy rails shares (Table.get 0 n s.pwr.fraction) n)) s) := by
  induction l generalizing s with
  | nil => exact ⟨rfl, State.sameRegs_refl s _, nofun, fun _ _ => rfl⟩
  | cons m l ih =>
    obtain ⟨new, nodup⟩ := List.nodup_cons.1 nodup
    rw [List.foldl_cons]
    generalize he : sampleEnergy rails shares (Table.get 0 m s.pwr.fraction) m = e
    have rest := ih nodup (s.takeEnergy m e)
    have eq : s.takeEnergy m e = { s with regs := (s.takeEnergy m e).regs, pwr := { s.pwr with fraction := (s.takeEnergy m e).pwr.fraction } } := rfl
    have now : (s.takeEnergy m e).get (R.PWR_ENERGY.UJ m) = (s.get (R.PWR_ENERGY.UJ m) + e / 16000000) % 2 ^ 64 :=
      State.get_put_same s (R.PWR_ENERGY.UJ m) (s.get (R.PWR_ENERGY.UJ m) + e / 16000000)
    have left : Table.get 0 m (s.takeEnergy m e).pwr.fraction = e % 16000000 := Table.get_set_same ..
    have apart (n : Nat) (h : n ≠ m) : Table.get 0 n (s.takeEnergy m e).pwr.fraction = Table.get 0 n s.pwr.fraction :=
      Table.get_set_other _ _ _ h
    have regs (f : Field) (h : f.key ≠ (R.PWR_ENERGY.UJ m).key) : (s.takeEnergy m e).get f = s.get f := State.get_put_other s _ h
    generalize s.takeEnergy m e = u at *
    generalize l.foldl _ u = t at *
    obtain ⟨eq', regs', counted, others⟩ := rest
    refine ⟨?_, fun f hf => ?_, fun n hn => ?_, fun n hn => ?_⟩
    · rw [eq', eq]
    · rw [regs' f fun g hg => hf g (by simp at hg ⊢; exact .inr hg), regs f (hf _ (by simp))]
    · rcases List.mem_cons.1 hn with rfl | hn
      · have still : t.get (R.PWR_ENERGY.UJ n) = u.get (R.PWR_ENERGY.UJ n) := regs' _ fun g hg => by
          obtain ⟨k, hk, rfl⟩ := List.mem_map.1 hg
          exact uj_key_inj fun h => new (h ▸ hk)
        rw [still, now, others n new, left, he]
        exact ⟨rfl, rfl⟩
      · have other : n ≠ m := fun h => new (h ▸ hn)
        obtain ⟨c, f⟩ := counted n hn
        rw [c, f, apart n other, regs _ (uj_key_inj other)]
        exact ⟨rfl, rfl⟩
    · simp only [List.mem_cons, not_or] at hn
      rw [others n hn.2, apart n hn.1]

/-! ### Samples (R513 to R515) -/

/-- The registers that a sample's power is shown in. -/
def powerFields : List Field := (List.range 16).map R.PWR_TILE.CURRENT_A ++ [R.PWR_STATUS.POWER_W, R.PWR_STATUS.WINDOW_W]

theorem State.showPower_shows (s : State) :
    s.onlyRegs s.showPower powerFields ∧ s.showPower.get R.PWR_STATUS.POWER_W = min 0xFFFF (s.meanPower 1000 / 1000000) ∧
      s.showPower.get R.PWR_STATUS.WINDOW_W = min 0xFFFF (s.meanPower 10000 / 1000000) := by
  unfold State.showPower
  have only : s.onlyRegs ((List.range 16).foldl (fun (s : State) n =>
      s.put (R.PWR_TILE.CURRENT_A n) (min 255 ((Table.get [] n s.pwr.currents).sum / (1000 * max 1 (Table.get [] n s.pwr.currents).length)))) s)
      powerFields :=
    List.foldlRecOn (motive := fun t => s.onlyRegs t powerFields) _ _ (.refl s _) fun t h n hn =>
      .put h (by simp only [powerFields, List.mem_append, List.mem_map]; exact .inl ⟨n, hn, rfl⟩) _
  dsimp only
  generalize (List.range 16).foldl _ s = u at *
  have mean (k : Nat) : u.meanPower k = s.meanPower k := by rw [only.1]; rfl
  have first := State.onlyRegs.put only (f := R.PWR_STATUS.POWER_W) (by simp [powerFields]) (min 0xFFFF (u.meanPower 1000 / 1000000))
  have mean' (k : Nat) : (u.put R.PWR_STATUS.POWER_W (min 0xFFFF (u.meanPower 1000 / 1000000))).meanPower k = s.meanPower k := mean k
  refine ⟨State.onlyRegs.put first (by simp [powerFields]) _, ?_, ?_⟩
  · rw [State.get_put_other _ _ (by decide), State.get_put_fits _ _ (show min 0xFFFF (u.meanPower 1000 / 1000000) < 2 ^ 16 by omega), mean]
  · rw [State.get_put_fits _ _ (show min 0xFFFF ((u.put R.PWR_STATUS.POWER_W _).meanPower 10000 / 1000000) < 2 ^ 16 by omega), mean']

/-- What setting the peak guard leaves. -/
theorem State.setGuard_sets (s : State) (f : Nat → Nat) (left : Nat) :
    let t := s.setGuard f left
    t.isSet R.PWR_STATUS.PEAK_GUARD = (left != 0) ∧ t.pwr.peakLeft = left ∧ t.levelsFollow ∧ (∀ n, n < 16 → t.demand srcPeak n = f n) ∧
      t.mem = s.mem ∧ t.out = s.out ∧ t.pending = s.pending ∧ t.pwr.samples = s.pwr.samples ∧ t.pwr.fraction = s.pwr.fraction ∧
      s.sameRegs t (R.PWR_STATUS.PEAK_GUARD :: levelFields) := by
  unfold State.setGuard
  obtain ⟨only, demands⟩ := State.foldl_demand (s := s) (src := srcPeak) (v := fun n => some (f n))
    (step := fun (s : State) n => s.setDemand srcPeak n (f n)) (l := List.range 16) (fun u n _ _ => rfl) List.nodup_range
  dsimp only
  generalize (List.range 16).foldl _ s = u at *
  set w : State := ({ u with pwr := { u.pwr with peakLeft := left } } : State).putBit R.PWR_STATUS.PEAK_GUARD (left != 0) with hw
  have set_ : w.isSet R.PWR_STATUS.PEAK_GUARD = (left != 0) := State.isSet_putBit Nat.one_pos _
  have kept : w.mem = u.mem ∧ w.out = u.out ∧ w.pending = u.pending ∧ w.pwr = { u.pwr with peakLeft := left } := ⟨rfl, rfl, rfl, rfl⟩
  have regs (f : Field) (h : f.key ≠ R.PWR_STATUS.PEAK_GUARD.key) : w.get f = u.get f :=
    (State.get_put_other _ _ h).trans (State.get_of_regs rfl f)
  have demand (n : Nat) : w.demand srcPeak n = u.demand srcPeak n := rfl
  clear_value w
  obtain ⟨mem, out, pending, pwr⟩ := kept
  have regsU : u.regs = s.regs := (congrArg State.regs only :)
  refine ⟨?_, ?_, w.settleLevels_levelsFollow, fun n hn => ?_, w.settleLevels_mem.trans (mem.trans (congrArg State.mem only :)),
    w.settleLevels_out.trans (out.trans (congrArg State.out only :)), w.settleLevels_pending.trans (pending.trans (congrArg State.pending only :)),
    ?_, ?_, fun f hf => ?_⟩
  · rw [w.settleLevels_isSet (notLevel (by decide) (.inl (by decide))), set_]
  · rw [w.settleLevels_pwr, pwr]
  · rw [w.settleLevels_demand, demand, demands n, if_pos (List.mem_range.2 hn)]
    rfl
  · rw [w.settleLevels_pwr, pwr]
    exact (congrArg (fun v : State => v.pwr.samples) only :)
  · rw [w.settleLevels_pwr, pwr]
    exact (congrArg (fun v : State => v.pwr.fraction) only :)
  · rw [w.settleLevels_get fun g hg => hf g (by simp [hg]), regs f (hf _ (by simp)), State.get_of_regs regsU]

/-- The peak guard after a sample (R514). -/
theorem State.peakGuard_guards (s : State) (total : Nat) :
    let t := s.peakGuard total
    (t.mem = s.mem ∧ t.out = s.out ∧ t.pending = s.pending ∧ t.pwr.samples = s.pwr.samples ∧ t.pwr.fraction = s.pwr.fraction ∧
      s.sameRegs t (R.PWR_STATUS.PEAK_GUARD :: levelFields)) ∧
    ((s.cap + 700) * 1000000 < total → t.isSet R.PWR_STATUS.PEAK_GUARD = true ∧ t.pwr.peakLeft = 10 ∧ t.levelsFollow ∧
      ∀ n, n < 16 → t.demand srcPeak n = min 6 (s.pl n + 2)) ∧
    (total ≤ (s.cap + 700) * 1000000 → t.pwr.peakLeft = s.pwr.peakLeft - 1 ∧
      (s.pwr.peakLeft = 1 → t.isSet R.PWR_STATUS.PEAK_GUARD = false ∧ t.levelsFollow ∧ ∀ n, n < 16 → t.demand srcPeak n = 0)) := by
  unfold State.peakGuard
  generalize (s.cap + 700) * 1000000 = limit
  split
  · next high =>
    obtain ⟨shown, left, follow, demand, mem, out, pending, samples, fraction, regs⟩ := s.setGuard_sets (fun n => min 6 (s.pl n + 2)) 10
    exact ⟨⟨mem, out, pending, samples, fraction, regs⟩, fun _ => ⟨shown, left, follow, demand⟩, fun low => absurd high (by omega)⟩
  · next low =>
    split
    · next more => exact ⟨⟨rfl, rfl, rfl, rfl, rfl, fun _ _ => rfl⟩, fun high => absurd high low, fun _ => ⟨rfl, fun last => by omega⟩⟩
    · next few =>
      split
      · next last =>
        have last : s.pwr.peakLeft = 1 := by simpa using last
        obtain ⟨shown, left, follow, demand, mem, out, pending, samples, fraction, regs⟩ := s.setGuard_sets (fun _ => 0) 0
        exact ⟨⟨mem, out, pending, samples, fraction, regs⟩, fun high => absurd high low,
          fun _ => ⟨left.trans (by omega), fun _ => ⟨shown, follow, demand⟩⟩⟩
      · next none_ =>
        have none_ : s.pwr.peakLeft ≠ 1 := by simpa using none_
        exact ⟨⟨rfl, rfl, rfl, rfl, rfl, fun _ _ => rfl⟩, fun high => absurd high low, fun _ => ⟨by omega, fun last => absurd last none_⟩⟩

theorem State.keepSample_keeps (s : State) (rails : List (Nat × Nat)) :
    let t := s.keepSample rails
    t = { s with pwr := t.pwr } ∧ t.pwr.samples = (samplePower rails :: s.pwr.samples).take 10000 ∧ t.pwr.fraction = s.pwr.fraction ∧
      t.pwr.peakLeft = s.pwr.peakLeft := ⟨rfl, rfl, rfl, rfl⟩

/-- A field above the levels' and beside the energy's. -/
theorem notUj {f : Field} (lo : f.lo < 64) (apart : f.addr < 0x20200) : ∀ g ∈ (List.range 16).map R.PWR_ENERGY.UJ, f.key ≠ g.key := by
  intro g hg
  obtain ⟨n, -, rfl⟩ := List.mem_map.1 hg
  simp only [Field.key, R.PWR_ENERGY.UJ]
  omega

theorem notPower {f : Field} (lo : f.lo < 64) (h : f.lo ≠ 48) (k : f.key ≠ R.PWR_STATUS.POWER_W.key ∧ f.key ≠ R.PWR_STATUS.WINDOW_W.key) :
    ∀ g ∈ powerFields, f.key ≠ g.key := by
  simp only [powerFields, List.mem_append, List.mem_map, List.mem_cons, List.not_mem_nil, or_false]
  rintro g (⟨n, _, rfl⟩ | rfl | rfl)
  · simp only [Field.key, R.PWR_TILE.CURRENT_A]
    omega
  · exact k.1
  · exact k.2

theorem cap_congr {s t : State} (host : t.get R.PWR_CTRL.CAP_W = s.get R.PWR_CTRL.CAP_W)
    (sideband : t.get R.MGT_SB_CAP.CAP_W = s.get R.MGT_SB_CAP.CAP_W) : t.cap = s.cap := by
  rw [State.cap, host, sideband, State.cap]

/-- A sample of the rails outside the end of a furrow. -/
theorem State.powerSample_shows {s : State} (rails : List (Nat × Nat)) (shares : List Nat) (running : s.frw.doneAt = none) :
    let t := s.powerSample rails shares
    t.pwr.samples = (samplePower rails :: s.pwr.samples).take 10000 ∧
      t.get R.PWR_STATUS.POWER_W = min 0xFFFF (t.meanPower 1000 / 1000000) ∧
      t.get R.PWR_STATUS.WINDOW_W = min 0xFFFF (t.meanPower 10000 / 1000000) ∧
      (∀ n, n < 16 → ∃ e, e = Table.get 0 n s.pwr.fraction + 16 * (railPower rails n + shares.getD n 0) +
          (railPower rails 17 + railPower rails 19 + railPower rails 20) ∧
        t.get (R.PWR_ENERGY.UJ n) = (s.get (R.PWR_ENERGY.UJ n) + e / 16000000) % 2 ^ 64 ∧
        Table.get 0 n t.pwr.fraction = e % 16000000) ∧
      ((s.cap + 700) * 1000000 < samplePower rails → t.isSet R.PWR_STATUS.PEAK_GUARD = true ∧ t.pwr.peakLeft = 10 ∧ t.levelsFollow ∧
        ∀ n, n < 16 → t.demand srcPeak n = min 6 (s.pl n + 2)) ∧
      (samplePower rails ≤ (s.cap + 700) * 1000000 → t.pwr.peakLeft = s.pwr.peakLeft - 1 ∧
        (s.pwr.peakLeft = 1 → t.isSet R.PWR_STATUS.PEAK_GUARD = false ∧ t.levelsFollow ∧ ∀ n, n < 16 → t.demand srcPeak n = 0)) ∧
      t.mem = s.mem ∧ t.out = s.out ∧ t.pending = s.pending := by
  have shape : s.powerSample rails shares = (((s.keepSample rails).showPower).addEnergy rails shares).peakGuard (samplePower rails) := by
    rw [State.powerSample, running]
    rfl
  rw [shape]
  obtain ⟨kept, samples, fraction, left⟩ := s.keepSample_keeps rails
  generalize s.keepSample rails = a at *
  have regsA : a.regs = s.regs := (congrArg State.regs kept :)
  have memA : a.mem = s.mem := (congrArg State.mem kept :)
  have outA : a.out = s.out := (congrArg State.out kept :)
  have pendingA : a.pending = s.pending := (congrArg State.pending kept :)
  obtain ⟨only, power, window⟩ := a.showPower_shows
  generalize a.showPower = b at *
  have pwrB : b.pwr = a.pwr := (congrArg State.pwr only.1 :)
  have energy := State.Energy.foldl (rails := rails) (shares := shares) (List.range 16) List.nodup_range b
  rw [← State.addEnergy_eq] at energy
  generalize b.addEnergy rails shares = c at *
  have pwrC : c.pwr = { b.pwr with fraction := c.pwr.fraction } := (congrArg State.pwr energy.eq :)
  have through (f : Field) (lo : f.lo < 64) (h : f.lo ≠ 48) (apart : f.addr < 0x20200 ∨ 0x20280 ≤ f.addr)
      (k : f.key ≠ R.PWR_STATUS.POWER_W.key ∧ f.key ≠ R.PWR_STATUS.WINDOW_W.key) : c.get f = s.get f := by
    have notU : ∀ g ∈ (List.range 16).map R.PWR_ENERGY.UJ, f.key ≠ g.key := by
      intro g hg
      obtain ⟨n, hn, rfl⟩ := List.mem_map.1 hg
      rw [List.mem_range] at hn
      simp only [Field.key, R.PWR_ENERGY.UJ]
      omega
    rw [energy.regs f notU, only.get (notPower lo h k), State.get_of_regs regsA]
  have cap : c.cap = s.cap := cap_congr (through _ (by decide) (by decide) (.inl (by decide)) (by decide))
    (through _ (by decide) (by decide) (.inr (by decide)) (by decide))
  have pl (n : Nat) (hn : n < 16) : c.pl n = s.pl n :=
    through (R.PWR_TILE.PL n) (show 0 < 64 by decide) (show 0 ≠ 48 by decide) (.inl (show 0x20100 + 0x8 * n < 0x20200 by omega)) (by
      simp only [Field.key, R.PWR_TILE.PL, R.PWR_STATUS.POWER_W, R.PWR_STATUS.WINDOW_W]; omega)
  obtain ⟨⟨mem, out, pending, samplesT, fractionT, regs⟩, high, low⟩ := c.peakGuard_guards (samplePower rails)
  generalize c.peakGuard (samplePower rails) = t at *
  have samplesC : c.pwr.samples = (samplePower rails :: s.pwr.samples).take 10000 := by
    rw [pwrC]
    exact (congrArg Pwr.samples pwrB).trans samples
  have leftC : c.pwr.peakLeft = s.pwr.peakLeft := by
    rw [pwrC]
    exact (congrArg Pwr.peakLeft pwrB).trans left
  have means (k : Nat) : t.meanPower k = a.meanPower k := by
    rw [State.meanPower, State.meanPower, samplesT, samplesC, samples]
  have notGuard {f : Field} (lo : f.lo < 64) (other : f.key ≠ R.PWR_STATUS.PEAK_GUARD.key)
      (h : f.lo ≠ 0 ∨ (f.addr ≠ 0x20008 ∧ f.addr ≠ 0x20018 ∧ (f.addr < 0x20100 ∨ 0x20180 ≤ f.addr))) : t.get f = c.get f :=
    regs f fun g hg => by
      rcases List.mem_cons.1 hg with rfl | hg
      · exact other
      · exact notLevel lo h g hg
  refine ⟨samplesT.trans samplesC, ?_, ?_, fun n hn => ⟨_, rfl, ?_, ?_⟩, fun h => ?_, fun h => ?_, ?_, ?_, ?_⟩
  · rw [notGuard (by decide) (by decide) (.inl (by decide)), energy.regs _ (notUj (by decide) (by decide)), power, means]
  · rw [notGuard (by decide) (by decide) (.inl (by decide)), energy.regs _ (notUj (by decide) (by decide)), window, means]
  · have before : b.get (R.PWR_ENERGY.UJ n) = s.get (R.PWR_ENERGY.UJ n) := by
      rw [only.get, State.get_of_regs regsA]
      refine notPower (show 0 < 64 by decide) (show 0 ≠ 48 by decide) ?_
      simp only [Field.key, R.PWR_ENERGY.UJ, R.PWR_STATUS.POWER_W, R.PWR_STATUS.WINDOW_W]
      omega
    have after : t.get (R.PWR_ENERGY.UJ n) = c.get (R.PWR_ENERGY.UJ n) := by
      refine notGuard (show 0 < 64 by decide) ?_ (.inr ⟨?_, ?_, .inr ?_⟩)
      · simp only [Field.key, R.PWR_ENERGY.UJ, R.PWR_STATUS.PEAK_GUARD]; omega
      · show 0x20200 + 0x8 * n ≠ 0x20008; omega
      · show 0x20200 + 0x8 * n ≠ 0x20018; omega
      · show 0x20180 ≤ 0x20200 + 0x8 * n; omega
    rw [after, (energy.counted n (List.mem_range.2 hn)).1, before, pwrB, fraction]
    rfl
  · rw [fractionT, (energy.counted n (List.mem_range.2 hn)).2, pwrB, fraction]
    rfl
  · obtain ⟨shown, left, follow, demand⟩ := high (by rw [cap]; exact h)
    exact ⟨shown, left, follow, fun n hn => (demand n hn).trans (by rw [pl n hn])⟩
  · obtain ⟨left, last⟩ := low (by rw [cap]; exact h)
    exact ⟨left.trans (by rw [leftC]), fun one => last (leftC.trans one)⟩
  · exact mem.trans ((congrArg State.mem energy.eq :).trans ((congrArg State.mem only.1 :).trans memA))
  · exact out.trans ((congrArg State.out energy.eq :).trans ((congrArg State.out only.1 :).trans outA))
  · exact pending.trans ((congrArg State.pending energy.eq :).trans ((congrArg State.pending only.1 :).trans pendingA))

/-! ### The current limit (R513) -/

/-- The windows below the limit that a tile has had. -/
def State.underSet (s : State) (n k : Nat) : State := { s with pwr := { s.pwr with under := Table.set 0 n k s.pwr.under } }

theorem State.currentStep_eq (s : State) (n : Nat) {total limit : Nat} (h : (Table.get [] n s.pwr.currents).sum = total)
    (k : 1000 * s.get R.PWR_FREQ_CTRL.CUR_LIMIT_A * (Table.get [] n s.pwr.currents).length = limit) :
    s.currentStep n = if limit < total then ((s.underSet n 0).setDemand srcCurrent n (min 6 (s.pl n + 1))).settleLevels
      else if 100 * total < 95 * limit then
        if (Table.get 0 n s.pwr.under + 1 == 10) = true then
          ((s.underSet n 0).setDemand srcCurrent n (s.demand srcCurrent n - 1)).settleLevels
        else s.underSet n (Table.get 0 n s.pwr.under + 1)
      else s.underSet n 0 := by
  subst h k
  rfl

/-- A tile's current demands another level, counted anew. -/
theorem State.currentDemand (s : State) (n l : Nat) :
    let t := ((s.underSet n 0).setDemand srcCurrent n l).settleLevels
    t.demand srcCurrent n = l ∧ Table.get 0 n t.pwr.under = 0 ∧ t.levelsFollow ∧ t.mem = s.mem ∧ t.pending = s.pending := by
  obtain ⟨demand, follow, mem, -, pending⟩ := (s.underSet n 0).setDemand_settled srcCurrent n l
  have under : Table.get 0 n ((s.underSet n 0).setDemand srcCurrent n l).pwr.under = 0 :=
    Table.get_set_same (d := 0) (v := 0) ..
  refine ⟨demand, ?_, follow, mem, pending⟩
  rw [State.settleLevels_pwr]
  exact under

end Sys2Proof.Machine

open Sys2Proof Sys2Proof.Machine

/-- Settles O37: phases are prepared and take their levels, samples enter the windows and the guards demand theirs. -/
theorem powerLevels : Obligations.PowerLevels := by
  constructor
  · intro s alive
    refine ⟨fun i p e enabled running calm first => ?_, fun i p off => ?_, fun i p running ready => ?_, fun i p off => ?_, ?_,
      fun idle => ?_, fun running => ?_⟩
    · intro es before fresh
      obtain ⟨prepares, pending⟩ := State.prepare_prepares enabled running calm first fresh
      exact completes_whenAlive (f := fun s => s.prepare i p) alive rfl rfl pending prepares
    · refine completes_whenAlive (t := s) (f := fun s => s.prepare i p) alive rfl ?_ rfl rfl
      unfold State.prepare
      split
      · rfl
      · next on =>
        simp only [Bool.or_eq_true, Bool.not_eq_true', not_or] at on
        obtain ⟨⟨enabled, running⟩, calm⟩ := on
        have there : (i, p) ∈ s.pwr.prepared := by
          obtain h | h | h | h := off
          · exact absurd h enabled
          · exact absurd h running
          · exact absurd h calm
          · exact h
        dsimp only
        split
        · rfl
        · exact if_pos (by simpa using there)
    · obtain ⟨prepared, follow, mem, out, pending, levels⟩ :=
        ({ s with pwr := { s.pwr with prepared := s.pwr.prepared.erase (i, p) } } : State).applyPhase_levels i p
      refine completes_whenAlive (f := fun s => s.beginPhase i p) alive rfl ?_ pending ⟨prepared, follow, mem, out, levels⟩
      exact if_neg (by simp [running, ready])
    · exact completes_whenAlive (t := s) (f := fun s => s.beginPhase i p) alive rfl (if_pos (by simpa using off)) rfl rfl
    · refine completes_whenAlive (f := State.removeGuard) alive rfl rfl rfl ⟨rfl, fun few => ?_⟩
      have none_ : s.pwr.guards.drop 1 = [] := List.drop_eq_nil_of_le few
      rw [State.guardMv, State.removeGuard, none_]
      rfl
    · obtain ⟨follow, mem, out, pending, levels⟩ := State.idleCap_levels idle
      exact completes_whenAlive (f := fun s => s.idleCap) alive rfl rfl pending ⟨follow, mem, out, levels⟩
    · exact completes_whenAlive (t := s) (f := fun s => s.idleCap) alive rfl (if_pos running) rfl rfl
  · intro s alive
    refine ⟨fun rails shares running => ?_, fun n hn => ?_⟩
    · have shows := State.powerSample_shows rails shares running
      have runs : exec (.powerSample rails shares) s = s.whenOn (sampleRails rails shares) := rfl
      have effect : sampleRails rails shares s = s.powerSample rails shares := rfl
      generalize s.powerSample rails shares = t at *
      obtain ⟨c1, c2, c3, c4, c5, c6, c7, c8, pending⟩ := shows
      exact completes_whenOn (State.on_of_alive alive) runs effect pending ⟨c1, c2, c3, c4, c5, c6, c7, c8⟩
    · intro l limit
      have shape := s.currentStep_eq n rfl (rfl : _ = limit)
      have runs : exec (.currentLimitStep n) s = s.whenAlive fun s => s.currentStep n := rfl
      refine ⟨fun above => ?_, fun below ninth => ?_, fun below early => ?_, fun notAbove notBelow => ?_⟩
      · obtain ⟨demand, under, follow, mem, pending⟩ := s.currentDemand n (min 6 (s.pl n + 1))
        exact completes_whenAlive alive runs (shape.trans (if_pos above)) pending ⟨demand, under, follow, mem⟩
      · obtain ⟨demand, under, follow, mem, pending⟩ := s.currentDemand n (s.demand srcCurrent n - 1)
        refine completes_whenAlive alive runs (shape.trans ?_) pending ⟨demand, under, follow, mem⟩
        rw [if_neg (by change ¬limit < l.sum; omega), if_pos below, if_pos (by rw [ninth]; rfl)]
      · refine completes_whenAlive (t := s.underSet n (Table.get 0 n s.pwr.under + 1)) alive runs (shape.trans ?_) rfl rfl
        rw [if_neg (by change ¬limit < l.sum; omega), if_pos below, if_neg (by simpa using early)]
      · refine completes_whenAlive (t := s.underSet n 0) alive runs (shape.trans ?_) rfl rfl
        rw [if_neg (by change ¬limit < l.sum; omega), if_neg (by change ¬100 * l.sum < 95 * limit; omega)]

end

section
/-!
SUPPORT. Turnarounds (O32): what they leave of every tile.
-/

namespace Sys2Proof.Machine

/-! ### Work at tiles -/

/-- The field stands in the registers of tile `n`. -/
def Field.ofTile (n : Nat) (f : Field) : Prop := 0x1000000 + 0x100000 * n ≤ f.key / 64 ∧ f.key / 64 < 0x1100000 + 0x100000 * n

/-- From `s` to `t` work has been done at the tiles of `l`: they, their registers and what raising an event changes may differ, nothing else. -/
structure State.Tends (l : List Nat) (s t : State) : Prop where
  eq : t = { s with
    regs := t.regs, out := t.out, links := t.links, coll := t.coll, tiles := t.tiles
    flt := { s.flt with log := t.flt.log, last := t.flt.last, faultParts := t.flt.faultParts, nextMsg := t.flt.nextMsg, sent := t.flt.sent }
    pins := { s.pins with faultN := t.pins.faultN }
    mgt := { s.mgt with toLog := t.mgt.toLog }
    cxl := { s.cxl with waiting := t.cxl.waiting, irqDue := t.cxl.irqDue, holdoff := t.cxl.holdoff } }
  regs : ∀ f : Field, (∀ g ∈ errorFields, f.key ≠ g.key) → (∀ n ∈ l, ¬f.ofTile n) → t.get f = s.get f
  others : ∀ m, m ∉ l → t.tile m = s.tile m

namespace State.Tends

variable {s t u : State} {l k : List Nat} {n : Nat}

theorem refl (l : List Nat) (s : State) : s.Tends l s := ⟨rfl, fun _ _ _ => rfl, fun _ _ => rfl⟩

theorem trans (h : s.Tends l t) (k : t.Tends l u) : s.Tends l u where
  eq := by
    refine k.eq.trans ?_
    rw [h.eq]
  regs f hf hl := (k.regs f hf hl).trans (h.regs f hf hl)
  others m hm := (k.others m hm).trans (h.others m hm)

theorem mono (h : s.Tends l t) (sub : ∀ n ∈ l, n ∈ k) : s.Tends k t where
  eq := h.eq
  regs f hf hl := h.regs f hf fun n hn => hl n (sub n hn)
  others m hm := h.others m fun no => hm (sub m no)

theorem put {f : Field} (s : State) (v : Nat) (hf : f.ofTile n) : s.Tends [n] (s.put f v) :=
  ⟨rfl, fun g _ hg => State.get_put_other s v fun e => hg n (by simp) (by rw [Field.ofTile, e]; exact hf), fun _ _ => rfl⟩

theorem modTile (s : State) (n : Nat) (f : Tile → Tile) : s.Tends [n] (s.modTile n f) :=
  ⟨rfl, fun _ _ _ => rfl, fun _ h => State.modTile_tile_other s f (by simpa using h)⟩

theorem raises (h : s.Raises t) (l : List Nat) : s.Tends l t where
  eq := by
    have tiles := h.tiles
    refine h.eq.trans ?_
    rw [tiles]
  regs f hf _ := h.get hf
  others m _ := congrArg (Table.get Tile.reset m) h.tiles

theorem mem (h : s.Tends l t) : t.mem = s.mem := (congrArg State.mem h.eq :)
theorem pending (h : s.Tends l t) : t.pending = s.pending := (congrArg State.pending h.eq :)
theorem frw (h : s.Tends l t) : t.frw = s.frw := (congrArg State.frw h.eq :)
theorem que (h : s.Tends l t) : t.que = s.que := (congrArg State.que h.eq :)
theorem cfg (h : s.Tends l t) : t.cfg = s.cfg := (congrArg State.cfg h.eq :)
theorem srv (h : s.Tends l t) : t.srv = s.srv := (congrArg State.srv h.eq :)
theorem heldParts (h : s.Tends l t) : t.flt.heldParts = s.flt.heldParts := (congrArg (fun v : State => v.flt.heldParts) h.eq :)

end State.Tends

/-! ### Engines change places (R194, R195) -/

/-- The registers of a tile's engine map. -/
def mapFields (n : Nat) : List Field :=
  [R.TILE_ENGINE_MAP.PHYS n, R.TILE_ENGINE_MAP.SPARE n, R.TILE_ENGINE_MAP.DOUBLED n, R.TILE_ENGINE_EPOCH.EPOCH n]

theorem ofTile_of_mapFields {n : Nat} : ∀ f ∈ mapFields n, f.ofTile n := by
  simp only [mapFields, List.forall_mem_cons, Field.ofTile, Field.key, R.TILE_ENGINE_MAP.PHYS, R.TILE_ENGINE_MAP.SPARE,
    R.TILE_ENGINE_MAP.DOUBLED, R.TILE_ENGINE_EPOCH.EPOCH]
  exact ⟨by omega, by omega, by omega, by omega, fun _ h => nomatch h⟩

/-- From `s` to `t` only the engine map of tile `n` changes, and what goes with it. -/
structure State.Remaps (n : Nat) (s t : State) : Prop where
  tends : s.Tends [n] t
  regs : s.sameRegs t (mapFields n ++ errorFields)
  tile : t.tile n = { s.tile n with
    stale := (t.tile n).stale, retired := (t.tile n).retired, dbl := (t.tile n).dbl, regain := (t.tile n).regain
    spareReq := (t.tile n).spareReq }

namespace State.Remaps

variable {s t u : State} {n : Nat}

theorem refl (n : Nat) (s : State) : s.Remaps n s := ⟨.refl _ s, State.sameRegs_refl s _, rfl⟩

theorem trans (h : s.Remaps n t) (k : t.Remaps n u) : s.Remaps n u where
  tends := h.tends.trans k.tends
  regs f hf := (k.regs f hf).trans (h.regs f hf)
  tile := by
    refine k.tile.trans ?_
    rw [h.tile]

theorem put {f : Field} (s : State) (v : Nat) (hf : f ∈ mapFields n) : s.Remaps n (s.put f v) :=
  ⟨.put s v (ofTile_of_mapFields f hf), State.sameRegs_put (State.sameRegs_refl s _) (List.mem_append_left _ hf) v, rfl⟩

/-- What may change of a tile beside its list and queues. -/
theorem modTile (s : State) {f : Tile → Tile} (h : ∀ x : Tile, f x = { x with
    stale := (f x).stale, retired := (f x).retired, dbl := (f x).dbl, regain := (f x).regain, spareReq := (f x).spareReq }) :
    s.Remaps n (s.modTile n f) :=
  ⟨.modTile s n f, fun _ _ => rfl, by rw [State.modTile_tile]; exact h _⟩

theorem raise (s : State) (e : Event) : s.Remaps n (s.raise e) where
  tends := .raises (.raise s e) _
  regs f hf := (State.Raises.raise s e).get fun g hg => hf g (List.mem_append_right _ hg)
  tile := by
    have same : (s.raise e).tile n = s.tile n := congrArg (Table.get Tile.reset n) (State.Raises.raise s e).tiles
    rw [same]

theorem fenceEngine (s : State) (n e : Nat) : s.Remaps n (s.fenceEngine n e) := by
  unfold State.fenceEngine
  split
  · exact refl n s
  · split
    · exact modTile s fun _ => rfl
    · exact refl n s

theorem replaceEngine (s : State) (n e : Nat) : s.Remaps n (s.replaceEngine n e) := by
  unfold State.replaceEngine
  have first := fenceEngine s n e
  dsimp only
  generalize s.fenceEngine n e = a at *
  split
  · exact first
  · have second : s.Remaps n ((a.modTile n fun t => { t with
        retired := if t.retired.contains (a.phys n e) then t.retired else t.retired ++ [a.phys n e] }).wrapAdd (R.TILE_ENGINE_EPOCH.EPOCH n)) :=
      (first.trans (modTile a fun _ => rfl)).trans (put _ _ (by simp [mapFields]))
    generalize (a.modTile n _).wrapAdd (R.TILE_ENGINE_EPOCH.EPOCH n) = b at *
    split
    · exact (second.trans (put _ _ (by simp [mapFields]))).trans (put _ _ (by simp [mapFields]))
    · have third := second.trans (put (f := R.TILE_ENGINE_MAP.PHYS n) b (setBits (a.get (R.TILE_ENGINE_MAP.PHYS n)) (4 * e) 4 (b.phys n (e ^^^ 1)))
        (by simp [mapFields]))
      exact ((third.trans (modTile _ fun _ => rfl)).trans (put (f := R.TILE_ENGINE_MAP.DOUBLED n) _ _ (by simp [mapFields]))).trans (raise _ _)

theorem substitute (s : State) (n : Nat) : s.Remaps n (s.substitute n) :=
  List.foldlRecOn (motive := fun t => s.Remaps n t) _ _ (modTile s fun _ => rfl) fun t h e _ => h.trans (replaceEngine t n e)

theorem regainEngine (s : State) (n : Nat) : s.Remaps n (s.regainEngine n) := by
  unfold State.regainEngine
  split
  · exact refl n s
  · next e _ =>
    split
    · exact modTile s fun _ => rfl
    · dsimp only
      have first : s.Remaps n (s.modTile n fun t => { t with regain := none, dbl := none, retired := t.retired.filter fun x => x != e }) :=
        modTile s fun _ => rfl
      generalize s.modTile n _ = a at *
      refine State.Remaps.trans ?_ (put _ _ (by simp [mapFields]))
      split
      · exact (first.trans (put a _ (by simp [mapFields]))).trans (put _ _ (by simp [mapFields]))
      · exact first.trans (put a _ (by simp [mapFields]))

end State.Remaps

/-! ### The turnaround of one tile (R41, R187, R215, R340) -/

/-- Adapting the scales of a tile leaves its sequencer's registers. -/
theorem State.adapt_adapts (s : State) (n : Nat) : s.Tends [n] (s.adapt n) ∧ (s.adapt n).tiles = s.tiles ∧
    ∀ f : Field, f.key / 64 < 0x1000310 + 0x100000 * n → (s.adapt n).get f = s.get f := by
  have puts {t : State} {f : Field} (v : Nat) (low : 0x1000310 + 0x100000 * n ≤ f.key / 64) (high : f.key / 64 < 0x1100000 + 0x100000 * n)
      (h : s.Tends [n] t ∧ t.tiles = s.tiles ∧ ∀ f : Field, f.key / 64 < 0x1000310 + 0x100000 * n → t.get f = s.get f) :
      s.Tends [n] (t.put f v) ∧ (t.put f v).tiles = s.tiles ∧
        ∀ g : Field, g.key / 64 < 0x1000310 + 0x100000 * n → (t.put f v).get g = s.get g := by
    obtain ⟨tends, tiles, regs⟩ := h
    refine ⟨tends.trans (.put t v ⟨by omega, high⟩), tiles, fun g hg => (State.get_put_other t v ?_).trans (regs g hg)⟩
    intro e
    rw [e] at hg
    omega
  unfold State.adapt
  split
  · exact ⟨.refl _ s, rfl, fun _ _ => rfl⟩
  · refine List.foldlRecOn (motive := fun t : State => s.Tends [n] t ∧ t.tiles = s.tiles ∧
      ∀ f : Field, f.key / 64 < 0x1000310 + 0x100000 * n → t.get f = s.get f) _ _ ⟨.refl _ s, rfl, fun _ _ => rfl⟩ fun t h i hi => ?_
    rw [List.mem_range] at hi
    split
    · exact h
    · refine puts 0 (by simp only [Field.key, R.TILE_SCALE_REG.SAT_COUNT]; omega) (by simp only [Field.key, R.TILE_SCALE_REG.SAT_COUNT]; omega) ?_
      split
      · refine puts _ (by simp only [Field.key, R.TILE_SCALE_ADAPTS.ADAPTATIONS]; omega)
          (by simp only [Field.key, R.TILE_SCALE_ADAPTS.ADAPTATIONS]; omega) ?_
        exact puts _ (by simp only [Field.key, R.TILE_SCALE_REG.WIDEN]; omega) (by simp only [Field.key, R.TILE_SCALE_REG.WIDEN]; omega) h
      · exact puts _ (by simp only [Field.key, R.TILE_SCALE_ADAPTS.AT_LIMIT]; omega)
          (by simp only [Field.key, R.TILE_SCALE_ADAPTS.AT_LIMIT]; omega) h

/-- The event counters of a tile are cleared, and nothing else changes. -/
theorem State.clearEvents_clears (s : State) (n : Nat) :
    s.onlyRegs (s.clearEvents n) ((List.range 32).map (R.TILE_EVENT.VALUE n)) ∧ ∀ e, e < 32 → (s.clearEvents n).event n e = 0 := by
  refine ⟨.foldl_put (.refl s _) fun c hc => List.mem_map_of_mem hc, fun e he => ?_⟩
  exact State.get_foldl_put (v := fun _ => 0) (fun i j h => by simp only [Field.key, R.TILE_EVENT.VALUE]; omega) List.nodup_range
    (List.mem_range.2 he)

/-- A list is set up for a tile's sequencer. -/
theorem State.armTile_arms (s : State) (k n i : Nat) (l : List Bytes) :
    let t := s.armTile k n i l
    s.Tends [n] t ∧ t.seqState n = seqArmed ∧ t.listIndex n = 0 ∧ t.isSet (R.TILE_SEQ_STATUS.FAILED n) = false ∧
      t.tile n = { s.tile n with inst := some i, template := k, list := l, queues := [], stale := [], waiting := false } ∧
      ∀ e, e < 32 → t.event n e = s.event n e := by
  unfold State.armTile
  obtain ⟨tends, tiles, regs⟩ := s.adapt_adapts n
  have tile : (s.adapt n).tile n = s.tile n := congrArg (Table.get Tile.reset n) tiles
  dsimp only
  generalize s.adapt n = a at *
  have first := tends.trans (.modTile a n fun x => { x with inst := some i, template := k, list := l, queues := [], stale := [], waiting := false })
  have set : (a.modTile n fun x => { x with inst := some i, template := k, list := l, queues := [], stale := [], waiting := false }).tile n =
      { s.tile n with inst := some i, template := k, list := l, queues := [], stale := [], waiting := false } := by
    rw [State.modTile_tile, tile]
  have events (e : Nat) (he : e < 32) :
      (a.modTile n fun x => { x with inst := some i, template := k, list := l, queues := [], stale := [], waiting := false }).event n e =
        s.event n e :=
    regs (R.TILE_EVENT.VALUE n e) (by simp only [Field.key, R.TILE_EVENT.VALUE]; omega)
  generalize a.modTile n _ = b at *
  refine ⟨((((first.trans (.put b 0 ?_)).trans (.put _ _ ?_)).trans (.put _ _ ?_)).trans (.put _ seqArmed ?_)),
    State.get_put_fits _ _ (by decide : seqArmed < 2 ^ 3), ?_, ?_, set, fun e he => ?_⟩
  · simp only [Field.ofTile, Field.key, R.TILE_SEQ_STATUS.LIST_INDEX]; omega
  · simp only [Field.ofTile, Field.key, R.TILE_SEQ_STATUS.FAILED]; omega
  · simp only [Field.ofTile, Field.key, R.TILE_SEQ_STATUS.ABANDONED]; omega
  · simp only [Field.ofTile, Field.key, R.TILE_SEQ_STATUS.STATE]; omega
  · refine ((State.get_put_other _ _ ?_).trans ((State.get_put_other _ _ ?_).trans (State.get_put_other _ _ ?_))).trans
      (State.get_put_fits _ _ (by decide : 0 < 2 ^ 16))
    all_goals
      simp only [Field.key, R.TILE_SEQ_STATUS.LIST_INDEX, R.TILE_SEQ_STATUS.FAILED, R.TILE_SEQ_STATUS.ABANDONED, R.TILE_SEQ_STATUS.STATE]
      omega
  · refine ((State.isSet_put_other _ _ ?_).trans (State.isSet_putBit_other _ _ ?_)).trans (State.isSet_putBit Nat.one_pos false)
    all_goals
      simp only [Field.key, R.TILE_SEQ_STATUS.FAILED, R.TILE_SEQ_STATUS.ABANDONED, R.TILE_SEQ_STATUS.STATE]
      omega
  · refine ((State.get_put_other _ _ ?_).trans ((State.get_put_other _ _ ?_).trans ((State.get_put_other _ _ ?_).trans
      (State.get_put_other _ _ ?_)))).trans (events e he)
    all_goals
      simp only [Field.key, R.TILE_SEQ_STATUS.LIST_INDEX, R.TILE_SEQ_STATUS.FAILED, R.TILE_SEQ_STATUS.ABANDONED, R.TILE_SEQ_STATUS.STATE,
        R.TILE_EVENT.VALUE]
      omega

/-- A sequencer that is DONE or IDLE. -/
def State.rests (s : State) (n : Nat) : Prop := s.seqState n = seqDone ∨ s.seqState n = seqIdle

/-- What every turnaround does at a tile, before a list is set up. -/
def State.turnBase (s : State) (n : Nat) : State :=
  let quiet := s.seqState n == seqDone || s.seqState n == seqIdle
  let s := ((s.substitute n).regainEngine n).modTile n fun x => { x with lab := [] }
  let s := if quiet then (s.clearEvents n).modTile n fun x => { x with damaged := [], phase := none } else s
  s.modTile n fun x => { x with slots := [] }

theorem notMap_of_seq {f : Field} {n : Nat} (lo : f.lo < 64) (tile : 0x1000000 ≤ f.addr)
    (h : f.addr ≠ 0x1000010 + 0x100000 * n ∧ f.addr ≠ 0x1000030 + 0x100000 * n) : ∀ g ∈ mapFields n ++ errorFields, f.key ≠ g.key := by
  simp only [mapFields, List.mem_append, List.mem_cons, List.not_mem_nil, or_false]
  rintro g ((rfl | rfl | rfl | rfl) | hg)
  · simp only [Field.key, R.TILE_ENGINE_MAP.PHYS]; omega
  · simp only [Field.key, R.TILE_ENGINE_MAP.SPARE]; omega
  · simp only [Field.key, R.TILE_ENGINE_MAP.DOUBLED]; omega
  · simp only [Field.key, R.TILE_ENGINE_EPOCH.EPOCH]; omega
  · exact notError_above (by simp only [Field.key]; omega) g hg

/-- What a turnaround leaves of a tile before a list is set up. -/
theorem State.turnBase_leaves (s : State) (n : Nat) :
    let t := s.turnBase n
    s.Tends [n] t ∧ (t.tile n).slots = [] ∧ (t.tile n).lab = [] ∧ (t.tile n).list = (s.tile n).list ∧ (t.tile n).queues = (s.tile n).queues ∧
      t.seqState n = s.seqState n ∧ t.get (R.TILE_SEQ_CTRL.MODE n) = s.get (R.TILE_SEQ_CTRL.MODE n) ∧
      ∀ e, e < 32 → (s.rests n → t.event n e = 0) ∧ (¬s.rests n → t.event n e = s.event n e) := by
  unfold State.turnBase
  have remaps := (State.Remaps.substitute s n).trans (.regainEngine _ n)
  dsimp only
  generalize (s.substitute n).regainEngine n = a at *
  have tends := remaps.tends.trans (.modTile a n fun x => { x with lab := [] })
  have tile : (a.modTile n fun x => { x with lab := [] }).tile n = { a.tile n with lab := [] } := State.modTile_tile ..
  have regs (f : Field) (hf : ∀ g ∈ mapFields n ++ errorFields, f.key ≠ g.key) : (a.modTile n fun x => { x with lab := [] }).get f = s.get f :=
    remaps.regs f hf
  generalize (a.modTile n fun x => { x with lab := [] }) = b at *
  have list : (b.tile n).list = (s.tile n).list := by
    rw [tile]
    exact (congrArg Tile.list remaps.tile :)
  have queues : (b.tile n).queues = (s.tile n).queues := by
    rw [tile]
    exact (congrArg Tile.queues remaps.tile :)
  have lab : (b.tile n).lab = [] := by rw [tile]
  have state : b.seqState n = s.seqState n := regs _ (notMap_of_seq (show 0 < 64 by decide) (show 0x1000000 ≤ 0x1000008 + 0x100000 * n by omega)
    ⟨show 0x1000008 + 0x100000 * n ≠ 0x1000010 + 0x100000 * n by omega, show 0x1000008 + 0x100000 * n ≠ 0x1000030 + 0x100000 * n by omega⟩)
  have mode : b.get (R.TILE_SEQ_CTRL.MODE n) = s.get (R.TILE_SEQ_CTRL.MODE n) :=
    regs _ (notMap_of_seq (show 0 < 64 by decide) (show 0x1000000 ≤ 0x1000000 + 0x100000 * n by omega)
      ⟨show 0x1000000 + 0x100000 * n ≠ 0x1000010 + 0x100000 * n by omega, show 0x1000000 + 0x100000 * n ≠ 0x1000030 + 0x100000 * n by omega⟩)
  have event (e : Nat) : b.event n e = s.event n e :=
    regs _ (notMap_of_seq (show 0 < 64 by decide) (show 0x1000000 ≤ 0x1000100 + 0x100000 * n + 0x8 * e by omega)
      ⟨show 0x1000100 + 0x100000 * n + 0x8 * e ≠ 0x1000010 + 0x100000 * n by omega,
        show 0x1000100 + 0x100000 * n + 0x8 * e ≠ 0x1000030 + 0x100000 * n by omega⟩)
  split
  · next quiet =>
    have quiet : s.rests n := by simpa [State.rests] using quiet
    obtain ⟨only, cleared⟩ := b.clearEvents_clears n
    have tends' : b.Tends [n] (b.clearEvents n) :=
      ⟨by rw [only.1], fun f _ hf => only.get fun g hg e => by
        obtain ⟨c, hc, rfl⟩ := List.mem_map.1 hg
        rw [List.mem_range] at hc
        refine hf n (by simp) ?_
        rw [Field.ofTile, e]
        simp only [Field.key, R.TILE_EVENT.VALUE]
        omega, fun m _ => by rw [State.tile, State.tile, only.1]⟩
    have tileC : (b.clearEvents n).tile n = b.tile n := by rw [State.tile, State.tile, only.1]
    have keep {f : Field} (lo : f.lo < 64) (low : f.addr < 0x1000100 + 0x100000 * n) : (b.clearEvents n).get f = b.get f :=
      only.get fun g hg => by
        obtain ⟨c, _, rfl⟩ := List.mem_map.1 hg
        simp only [Field.key, R.TILE_EVENT.VALUE]
        omega
    have stateC : (b.clearEvents n).seqState n = b.seqState n :=
      keep (show 0 < 64 by decide) (show 0x1000008 + 0x100000 * n < 0x1000100 + 0x100000 * n by omega)
    have modeC : (b.clearEvents n).get (R.TILE_SEQ_CTRL.MODE n) = b.get (R.TILE_SEQ_CTRL.MODE n) :=
      keep (show 0 < 64 by decide) (show 0x1000000 + 0x100000 * n < 0x1000100 + 0x100000 * n by omega)
    generalize b.clearEvents n = c at *
    have last : ((c.modTile n fun x => { x with damaged := [], phase := none }).modTile n fun x => { x with slots := [] }).tile n =
        { b.tile n with damaged := [], phase := none, slots := [] } := by
      rw [State.modTile_tile, State.modTile_tile, tileC]
    refine ⟨((tends.trans tends').trans (.modTile c n _)).trans (.modTile _ n _), ?_, ?_, ?_, ?_, stateC.trans state, modeC.trans mode,
      fun e he => ⟨fun _ => cleared e he, fun busy => absurd quiet busy⟩⟩
    · rw [last]
    · rw [last]; exact lab
    · rw [last]; exact list
    · rw [last]; exact queues
  · next busy =>
    have busy : ¬s.rests n := by simpa [State.rests] using busy
    have last : (b.modTile n fun x => { x with slots := [] }).tile n = { b.tile n with slots := [] } := State.modTile_tile ..
    refine ⟨tends.trans (.modTile b n _), ?_, ?_, ?_, ?_, state, mode, fun e _ => ⟨fun quiet => absurd quiet busy, fun _ => event e⟩⟩
    · rw [last]
    · rw [last]; exact lab
    · rw [last]; exact list
    · rw [last]; exact queues

/-- What a turnaround with template `k` leaves at tile `n`. -/
def State.turned (s t : State) (k n : Nat) : Prop :=
  (t.tile n).slots = [] ∧ (t.tile n).lab = [] ∧
    ((s.seqState n = seqDone ∨ s.seqState n = seqIdle) → (∀ e, e < 32 → t.event n e = 0) ∧
      (s.get (R.TILE_SEQ_CTRL.MODE n) = 0 → n ∉ s.flt.heldParts → s.partOk n = true →
        (∀ i l, s.listFor n k = some (i, l) → t.seqState n = seqArmed ∧ t.listIndex n = 0 ∧ (t.tile n).inst = some i ∧
          (t.tile n).list = l ∧ (t.tile n).queues = [] ∧ t.isSet (R.TILE_SEQ_STATUS.FAILED n) = false) ∧
        (s.listFor n k = none → t.seqState n = s.seqState n ∧ (t.tile n).list = []))) ∧
    (s.seqState n ≠ seqDone → s.seqState n ≠ seqIdle → t.seqState n = s.seqState n ∧ (t.tile n).list = (s.tile n).list ∧
      (t.tile n).queues = (s.tile n).queues ∧ (∀ e, e < 32 → t.event n e = s.event n e))

theorem State.turnTile_eq (s : State) (k n : Nat) :
    s.turnTile (some k) n =
      if !(s.seqState n == seqDone || s.seqState n == seqIdle) || (s.turnBase n).get (R.TILE_SEQ_CTRL.MODE n) != 0 ||
          (s.turnBase n).flt.heldParts.contains n || !(s.turnBase n).partOk n then s.turnBase n
      else match (s.turnBase n).listFor n k with
        | none => (s.turnBase n).modTile n fun x => { x with inst := none, template := k, list := [] }
        | some (i, l) => (s.turnBase n).armTile k n i l := rfl

theorem notOfTile_partOk (n : Nat) : ¬R.GLB_READY.PART_OK.ofTile n := by
  simp only [Field.ofTile, Field.key, R.GLB_READY.PART_OK]
  omega

theorem State.listFor_congr {s t : State} (cfg : t.cfg = s.cfg) (srv : t.srv = s.srv) (n k : Nat) : t.listFor n k = s.listFor n k := by
  rw [State.listFor, cfg, srv, State.listFor]

theorem State.Tends.partOk {s t : State} {l : List Nat} (h : s.Tends l t) (n : Nat) : t.partOk n = s.partOk n := by
  rw [State.partOk, h.regs _ (by decide) fun m _ => notOfTile_partOk m, State.partOk]

/-- The turnaround of one tile. -/
theorem State.turnTile_turned (s : State) (k n : Nat) : s.Tends [n] (s.turnTile (some k) n) ∧ s.turned (s.turnTile (some k) n) k n := by
  rw [State.turnTile_eq]
  obtain ⟨tends, slots, lab, list, queues, state, mode, event⟩ := s.turnBase_leaves n
  generalize s.turnBase n = b at *
  have held : b.flt.heldParts = s.flt.heldParts := tends.heldParts
  have part : b.partOk n = s.partOk n := tends.partOk n
  have for_ : b.listFor n k = s.listFor n k := State.listFor_congr tends.cfg tends.srv n k
  split
  · next stays =>
    refine ⟨tends, slots, lab, fun quiet => ⟨fun e he => (event e he).1 quiet, fun service unheld ok => ?_⟩, fun notDone notIdle =>
      ⟨state, list, queues, fun e he => (event e he).2 (by rintro (h | h); exacts [notDone h, notIdle h])⟩⟩
    rw [mode, held, part] at stays
    have quiet' : (s.seqState n == seqDone || s.seqState n == seqIdle) = true := by simpa using quiet
    simp [quiet', service, unheld, ok] at stays
  · next goes =>
    have quiet : s.rests n := by
      by_contra busy
      obtain ⟨notDone, notIdle⟩ := not_or.1 busy
      simp [notDone, notIdle] at goes
    rw [for_]
    split
    · next none_ =>
      have tile : (b.modTile n fun x => { x with inst := none, template := k, list := [] }).tile n =
          { b.tile n with inst := none, template := k, list := [] } := State.modTile_tile ..
      refine ⟨tends.trans (.modTile b n _), ?_, ?_, fun _ => ⟨fun e he => (event e he).1 quiet, fun _ _ _ => ⟨fun i l found => ?_, fun _ =>
        ⟨state, ?_⟩⟩⟩, fun notDone notIdle => ?_⟩
      · rw [tile]; exact slots
      · rw [tile]; exact lab
      · rw [none_] at found
        cases found
      · rw [tile]
      · obtain h | h := quiet
        · exact absurd h notDone
        · exact absurd h notIdle
    · next i l found =>
      obtain ⟨arms, armed, index, unfailed, tile, events⟩ := b.armTile_arms k n i l
      generalize b.armTile k n i l = t at *
      refine ⟨tends.trans arms, ?_, ?_, fun _ => ⟨fun e he => (events e he).trans ((event e he).1 quiet), fun _ _ _ => ⟨fun i' l' found' => ?_,
        fun none_ => ?_⟩⟩, fun notDone notIdle => ?_⟩
      · rw [tile]; exact slots
      · rw [tile]; exact lab
      · obtain ⟨rfl, rfl⟩ := Prod.mk.inj (Option.some.inj (found.symm.trans found'))
        rw [tile]
        exact ⟨armed, index, rfl, rfl, rfl, unfailed⟩
      · rw [found] at none_
        cases none_
      · obtain h | h := quiet
        · exact absurd h notDone
        · exact absurd h notIdle

/-! ### The turnaround of the device -/

/-- Two states that agree on the registers of tile `n` and on the tile. -/
structure State.sameTile (n : Nat) (s t : State) : Prop where
  regs : ∀ f : Field, f.ofTile n → t.get f = s.get f
  tile : t.tile n = s.tile n

theorem ofTile_seq (n : Nat) : (R.TILE_SEQ_STATUS.STATE n).ofTile n ∧ (R.TILE_SEQ_STATUS.FAILED n).ofTile n ∧
    (R.TILE_SEQ_STATUS.LIST_INDEX n).ofTile n ∧ (R.TILE_SEQ_CTRL.MODE n).ofTile n := by
  simp only [Field.ofTile, Field.key, R.TILE_SEQ_STATUS.STATE, R.TILE_SEQ_STATUS.FAILED, R.TILE_SEQ_STATUS.LIST_INDEX, R.TILE_SEQ_CTRL.MODE]
  omega

theorem ofTile_event (n : Nat) {e : Nat} (he : e < 32) : (R.TILE_EVENT.VALUE n e).ofTile n := by
  simp only [Field.ofTile, Field.key, R.TILE_EVENT.VALUE]
  omega

/-- What a turnaround leaves of a tile stays while only other things change. -/
theorem State.turned.later {s t u : State} {k n : Nat} (h : s.turned t k n) (same : t.sameTile n u) : s.turned u k n := by
  obtain ⟨slots, lab, resting, busy⟩ := h
  obtain ⟨state, failed, index, _⟩ := ofTile_seq n
  have state : u.seqState n = t.seqState n := same.regs _ state
  have failed : u.isSet (R.TILE_SEQ_STATUS.FAILED n) = t.isSet (R.TILE_SEQ_STATUS.FAILED n) := State.isSet_of_get (same.regs _ failed)
  have index : u.listIndex n = t.listIndex n := same.regs _ index
  have events (e : Nat) (he : e < 32) : u.event n e = t.event n e := same.regs _ (ofTile_event n he)
  rw [State.turned, same.tile, state, failed, index]
  refine ⟨slots, lab, fun quiet => ⟨fun e he => (events e he).trans ((resting quiet).1 e he), (resting quiet).2⟩, fun h k => ?_⟩
  obtain ⟨a, b, c, d⟩ := busy h k
  exact ⟨a, b, c, fun e he => (events e he).trans (d e he)⟩

/-- What a turnaround leaves of a tile is told by the state before, whatever was done at other tiles first. -/
theorem State.turned.earlier {s t u : State} {k n : Nat} (h : t.turned u k n) (same : s.sameTile n t) (held : t.flt.heldParts = s.flt.heldParts)
    (part : t.partOk n = s.partOk n) (for_ : t.listFor n k = s.listFor n k) : s.turned u k n := by
  obtain ⟨state, _, _, mode⟩ := ofTile_seq n
  have state : t.seqState n = s.seqState n := same.regs _ state
  have mode : t.get (R.TILE_SEQ_CTRL.MODE n) = s.get (R.TILE_SEQ_CTRL.MODE n) := same.regs _ mode
  have events (e : Nat) (he : e < 32) : t.event n e = s.event n e := same.regs _ (ofTile_event n he)
  rw [State.turned, same.tile, state, mode, held, part, for_] at h
  obtain ⟨slots, lab, resting, busy⟩ := h
  refine ⟨slots, lab, resting, fun h k => ?_⟩
  obtain ⟨a, b, c, d⟩ := busy h k
  exact ⟨a, b, c, fun e he => (d e he).trans (events e he)⟩

theorem State.Tends.sameTile {s t : State} {l : List Nat} {n : Nat} (h : s.Tends l t) (other : n ∉ l) : s.sameTile n t where
  regs f hf := by
    refine h.regs f ?_ fun m hm => ?_
    · exact notError_above (by rw [Field.ofTile] at hf; omega)
    · have apart : m ≠ n := fun e => other (e ▸ hm)
      simp only [Field.ofTile] at hf ⊢
      omega
  tile := h.others n other

/-- The turnaround of a list of tiles. -/
theorem State.turnTiles_turned (k : Nat) (l : List Nat) (nodup : l.Nodup) (s : State) :
    s.Tends l (l.foldl (fun (s : State) n => s.turnTile (some k) n) s) ∧
      ∀ n ∈ l, s.turned (l.foldl (fun (s : State) n => s.turnTile (some k) n) s) k n := by
  induction l generalizing s with
  | nil => exact ⟨.refl _ s, nofun⟩
  | cons m l ih =>
    obtain ⟨new, nodup⟩ := List.nodup_cons.1 nodup
    rw [List.foldl_cons]
    obtain ⟨here, turned⟩ := s.turnTile_turned k m
    generalize s.turnTile (some k) m = u at *
    obtain ⟨rest, all⟩ := ih nodup u
    generalize l.foldl _ u = t at *
    refine ⟨(here.mono (by simp)).trans (rest.mono fun n hn => List.mem_cons_of_mem _ hn), fun n hn => ?_⟩
    rcases List.mem_cons.1 hn with rfl | hn
    · exact turned.later (rest.sameTile new)
    · have other : n ∉ [m] := fun e => new (List.mem_singleton.1 e ▸ hn)
      exact (all n hn).earlier (here.sameTile other) here.heldParts (here.partOk n) (State.listFor_congr here.cfg here.srv n k)

/-- From `s` to `t` faulty units have been fenced: what raising an event changes, the stacks and the units' registers may differ. -/
structure State.Fences (s t : State) : Prop where
  eq : t = { s with
    regs := t.regs, out := t.out, links := t.links, coll := t.coll, stk := t.stk
    flt := { s.flt with log := t.flt.log, last := t.flt.last, faultParts := t.flt.faultParts, nextMsg := t.flt.nextMsg, sent := t.flt.sent }
    pins := { s.pins with faultN := t.pins.faultN }
    mgt := { s.mgt with toLog := t.mgt.toLog }
    cxl := { s.cxl with waiting := t.cxl.waiting, irqDue := t.cxl.irqDue, holdoff := t.cxl.holdoff } }
  regs : ∀ f : Field, (∀ g ∈ errorFields, f.key ≠ g.key) → f.key / 64 < 0x3000000 → t.get f = s.get f

namespace State.Fences

variable {s t u : State}

theorem refl (s : State) : s.Fences s := ⟨rfl, fun _ _ _ => rfl⟩

theorem trans (h : s.Fences t) (k : t.Fences u) : s.Fences u where
  eq := by
    refine k.eq.trans ?_
    rw [h.eq]
  regs f hf low := (k.regs f hf low).trans (h.regs f hf low)

theorem put {f : Field} (s : State) (v : Nat) (high : 0x3000000 ≤ f.key / 64) : s.Fences (s.put f v) :=
  ⟨rfl, fun g _ low => State.get_put_other s v fun e => by rw [e] at low; omega⟩

theorem raises (h : s.Raises t) : s.Fences t where
  eq := by
    have stk := h.stk
    refine h.eq.trans ?_
    rw [stk]
  regs _ hf _ := h.get hf

theorem fenceUnits (s : State) (n : Nat) : s.Fences (s.fenceUnits n) := by
  unfold State.fenceUnits
  have bad := List.foldlRecOn (motive := fun t => s.Fences t) (s.stack n).badUnits (fun (s : State) u =>
    (s.put (R.NBU_UNIT_OK.UNITS n) (setBit (s.get (R.NBU_UNIT_OK.UNITS n)) u false)).raise (evUnitFenced n u)) (refl s) fun t h u _ =>
      (h.trans (put t _ (by simp only [Field.key, R.NBU_UNIT_OK.UNITS]; omega))).trans (raises (.raise _ _))
  dsimp only
  generalize (s.stack n).badUnits.foldl _ s = t at *
  split
  · exact bad
  · exact bad.trans ⟨rfl, fun _ _ _ => rfl⟩

theorem clearColl (s : State) : s.Fences s.clearColl := by
  unfold State.clearColl
  exact List.foldlRecOn (motive := fun t => s.Fences t) _ _ ⟨rfl, fun _ _ _ => rfl⟩ fun t h p _ => h.trans ⟨rfl, fun _ _ _ => rfl⟩

theorem sameTile (h : s.Fences t) {n : Nat} (hn : n < 16) : s.sameTile n t where
  regs f hf := by
    rw [Field.ofTile] at hf
    exact h.regs f (notError_above (by omega)) (by omega)
  tile := congrArg (Table.get Tile.reset n) (congrArg State.tiles h.eq :)

theorem mem (h : s.Fences t) : t.mem = s.mem := (congrArg State.mem h.eq :)
theorem pending (h : s.Fences t) : t.pending = s.pending := (congrArg State.pending h.eq :)
theorem frw (h : s.Fences t) : t.frw = s.frw := (congrArg State.frw h.eq :)
theorem que (h : s.Fences t) : t.que = s.que := (congrArg State.que h.eq :)

end State.Fences

/-- The clock that a turnaround sets at a tile (R521). -/
def State.clockOf (s : State) (n : Nat) : Nat :=
  if bit (s.get R.PWR_FREQ_CTRL.MAX_MODE) n then s.get (R.PWR_TILE.F_MAX_MHZ n) else 1100

def clockFields : List Field := (List.range 16).map R.PWR_TILE.F_SET_MHZ

theorem notClock {f : Field} (lo : f.lo < 64) (h : f.lo ≠ 16) : ∀ g ∈ clockFields, f.key ≠ g.key := by
  intro g hg
  obtain ⟨n, _, rfl⟩ := List.mem_map.1 hg
  simp only [Field.key, R.PWR_TILE.F_SET_MHZ]
  omega

theorem notClock_of_low {f : Field} (h : f.key / 64 < 0x20100 ∨ 0x20180 ≤ f.key / 64) : ∀ g ∈ clockFields, f.key ≠ g.key := by
  intro g hg
  obtain ⟨n, hn, rfl⟩ := List.mem_map.1 hg
  rw [List.mem_range] at hn
  simp only [Field.key, R.PWR_TILE.F_SET_MHZ] at h ⊢
  omega

/-- Every tile takes the clock that MAX_MODE gives. -/
theorem State.clocks_set (s : State) :
    let t := (List.range 16).foldl (fun (s : State) n => s.put (R.PWR_TILE.F_SET_MHZ n) (s.clockOf n)) s
    s.onlyRegs t clockFields ∧ ∀ n, n < 16 → t.get (R.PWR_TILE.F_SET_MHZ n) = s.clockOf n % 2 ^ 11 := by
  have reads (u : State) (only : s.onlyRegs u clockFields) (n : Nat) : u.clockOf n = s.clockOf n := by
    rw [State.clockOf, only.get (notClock (by decide) (by decide)),
      only.get (notClock (f := R.PWR_TILE.F_MAX_MHZ n) (show 32 < 64 by decide) (show 32 ≠ 16 by decide)), State.clockOf]
  have same (l : List Nat) (sub : ∀ n ∈ l, n < 16) (u : State) (only : s.onlyRegs u clockFields) :
      l.foldl (fun (s : State) n => s.put (R.PWR_TILE.F_SET_MHZ n) (s.clockOf n)) u =
        l.foldl (fun (t : State) n => t.put (R.PWR_TILE.F_SET_MHZ n) (s.clockOf n)) u := by
    induction l generalizing u with
    | nil => rfl
    | cons m l ih =>
      rw [List.foldl_cons, List.foldl_cons, reads u only m]
      exact ih (fun n hn => sub n (by simp [hn])) _
        (.put only (List.mem_map_of_mem (List.mem_range.2 (sub m (by simp)))) _)
  dsimp only
  rw [same _ (fun n hn => List.mem_range.1 hn) s (.refl s _)]
  refine ⟨.foldl_put (.refl s _) fun n hn => List.mem_map_of_mem hn, fun n hn => ?_⟩
  exact State.get_foldl_put (fun i j h => by simp only [Field.key, R.PWR_TILE.F_SET_MHZ]; omega) List.nodup_range (List.mem_range.2 hn)

/-- The turnaround of the device with template `k`. -/
theorem State.turnDevice_turned (s : State) (k : Nat) :
    let t := s.turnDevice (some k)
    t.frw = s.frw ∧ t.frwState = s.frwState ∧ t.furrow = s.furrow ∧ t.mem = s.mem ∧ t.que = s.que ∧ t.pending = s.pending ∧
      ∀ n, n < 16 → t.get (R.PWR_TILE.F_SET_MHZ n) =
        (if bit (s.get R.PWR_FREQ_CTRL.MAX_MODE) n then s.get (R.PWR_TILE.F_MAX_MHZ n) % 2 ^ 11 else 1100) ∧ s.turned t k n := by
  have shape : s.turnDevice (some k) = (List.range 16).foldl (fun (s : State) n => s.put (R.PWR_TILE.F_SET_MHZ n) (s.clockOf n))
      ((List.range 16).foldl (fun (s : State) n => s.fenceUnits n)
        ((List.range 16).foldl (fun (s : State) n => s.turnTile (some k) n) s)).clearColl := by
    unfold State.turnDevice State.turnTiles State.clockOf
    dsimp only
    rw [if_pos (Option.isSome_some)]
  rw [shape]
  obtain ⟨tends, turned⟩ := State.turnTiles_turned k (List.range 16) List.nodup_range s
  generalize (List.range 16).foldl (fun (s : State) n => s.turnTile (some k) n) s = a at *
  have fences := List.foldlRecOn (motive := fun t => a.Fences t) (List.range 16) (fun (s : State) n => s.fenceUnits n) (.refl a)
    fun t h n _ => h.trans (.fenceUnits t n)
  generalize (List.range 16).foldl (fun (s : State) n => s.fenceUnits n) a = b at *
  have fences := fences.trans (.clearColl b)
  generalize b.clearColl = c at *
  obtain ⟨only, clocks⟩ := c.clocks_set
  generalize (List.range 16).foldl _ c = t at *
  have low {f : Field} (notError : ∀ g ∈ errorFields, f.key ≠ g.key) (h : f.key / 64 < 0x1000000) : c.get f = s.get f :=
    (fences.regs f notError (by omega)).trans (tends.regs f notError fun n _ => by rw [Field.ofTile]; omega)
  have eq := only.1
  refine ⟨(congrArg State.frw eq :).trans (fences.frw.trans tends.frw), ?_, ?_, (congrArg State.mem eq :).trans (fences.mem.trans tends.mem),
    (congrArg State.que eq :).trans (fences.que.trans tends.que), (congrArg State.pending eq :).trans (fences.pending.trans tends.pending),
    fun n hn => ⟨?_, ?_⟩⟩
  · exact (only.get (notClock_of_low (.inl (by decide)))).trans (low (by decide) (by decide))
  · exact (only.get (notClock_of_low (.inl (by decide)))).trans (low (by decide) (by decide))
  · rw [clocks n hn, State.clockOf, low (by decide) (by decide), low (f := R.PWR_TILE.F_MAX_MHZ n)
      (notError_above (by simp only [Field.key, R.PWR_TILE.F_MAX_MHZ]; omega)) (by simp only [Field.key, R.PWR_TILE.F_MAX_MHZ]; omega)]
    split <;> rfl
  · refine ((turned n (List.mem_range.2 hn)).later (fences.sameTile hn)).later ⟨fun f hf => ?_, ?_⟩
    · rw [Field.ofTile] at hf
      exact only.get (notClock_of_low (.inr (by omega)))
    · exact congrArg (Table.get Tile.reset n) (congrArg State.tiles eq :)

/-- A device whose template disagrees with its cluster's takes the cluster's at a turnaround (R59). -/
def State.resynced (s : State) : State :=
  match s.frw.resync, s.frw.correcting with
  | some t, true =>
    { (s.bump R.FRW_SLACK.TEMPLATE_RESYNCS) with frw := { s.frw with nextTemplate := t, resync := none, correcting := false } }
  | _, _ => s

theorem State.turn_eq (s : State) : s.turn = if !(s.inSchedule && s.isSet R.FRW_STATE.HEADLAND) then s
    else s.resynced.turnDevice (if s.resynced.isSet R.FRW_STATE.LATE_GROUP then none else some s.resynced.frw.nextTemplate) := rfl

theorem State.resynced_straight {s : State} (h : s.frw.correcting = false) : s.resynced = s := by
  rw [State.resynced, h]
  split
  · next no => cases no
  · rfl

/-- What the correction leaves of the registers, the tiles and the rest. -/
theorem State.resynced_takes {s : State} {k : Nat} (h : s.frw.correcting = true) (template : s.frw.resync = some k) :
    let t := s.resynced
    t = { s with regs := t.regs, frw := { s.frw with nextTemplate := k, resync := none, correcting := false } } ∧
      ∀ f : Field, f.key ≠ R.FRW_SLACK.TEMPLATE_RESYNCS.key → t.get f = s.get f := by
  rw [State.resynced, h, template]
  exact ⟨rfl, fun f hf => (State.get_of_regs rfl f).trans (State.get_put_other s _ hf)⟩

end Sys2Proof.Machine

open Sys2Proof Sys2Proof.Machine

/-- Settles O32: a turnaround clears the engines' slots and counters and arms the sequencers whose lists are to run. -/
theorem turnarounds : Obligations.Turnarounds := by
  rintro s c k frw ⟨alive, idle⟩ (⟨rfl, armed, before, rfl, rfl⟩ | ⟨rfl, running, headland, onTime, ⟨straight, rfl, rfl⟩ | ⟨correcting, template, rfl⟩⟩)
  · obtain ⟨frw, state, furrow, mem, que, pending, tiles⟩ := s.turnDevice_turned 0
    have shape : s.startTurn = { s.turnDevice (some 0) with frw := { (s.turnDevice (some 0)).frw with turned := true } } := by
      rw [State.startTurn, if_pos (by simp [armed, before])]
    generalize s.turnDevice (some 0) = t at *
    exact completes_act (f := State.startTurn) alive rfl shape ((congrArg Que.tickets que).trans idle) pending
      ⟨congrArg (fun w : Frw => { w with turned := true }) frw, state, furrow, mem, tiles⟩
  · obtain ⟨frw, state, furrow, mem, que, pending, tiles⟩ := s.turnDevice_turned s.frw.nextTemplate
    have shape : s.turn = s.turnDevice (some s.frw.nextTemplate) := by
      rw [State.turn_eq, if_neg (by simp [running, headland]), State.resynced_straight straight, if_neg (by simp [onTime])]
    generalize s.turnDevice (some s.frw.nextTemplate) = t at *
    exact completes_act (f := State.turn) alive rfl shape ((congrArg Que.tickets que).trans idle) pending ⟨frw, state, furrow, mem, tiles⟩
  · obtain ⟨eq, regs⟩ := State.resynced_takes correcting template
    have shape : s.turn = s.resynced.turnDevice (some s.resynced.frw.nextTemplate) := by
      rw [State.turn_eq, if_neg (by simp [running, headland]), if_neg]
      rw [State.isSet, regs _ (by decide)]
      simpa [State.isSet] using onTime
    generalize s.resynced = u at *
    have next : u.frw.nextTemplate = k := (congrArg (fun v : State => v.frw.nextTemplate) eq :)
    rw [next] at shape
    obtain ⟨frw, state, furrow, mem, que, pending, tiles⟩ := u.turnDevice_turned k
    generalize u.turnDevice (some k) = t at *
    refine completes_act (f := State.turn) alive rfl shape ((congrArg Que.tickets (que.trans (congrArg State.que eq :))).trans idle)
      (pending.trans (congrArg State.pending eq :)) ⟨frw.trans (congrArg State.frw eq :), state.trans (regs _ (by decide)),
        furrow.trans (regs _ (by decide)), mem.trans (congrArg State.mem eq :), fun n hn => ?_⟩
    obtain ⟨clock, turned⟩ := tiles n hn
    rw [regs _ (by decide), regs (R.PWR_TILE.F_MAX_MHZ n) (by
      simp only [Field.key, R.PWR_TILE.F_MAX_MHZ, R.FRW_SLACK.TEMPLATE_RESYNCS]; omega)] at clock
    have same : s.sameTile n u := by
      refine ⟨fun f hf => regs f fun e => ?_, congrArg (Table.get Tile.reset n) (congrArg State.tiles eq :)⟩
      rw [Field.ofTile, e] at hf
      simp only [Field.key, R.FRW_SLACK.TEMPLATE_RESYNCS] at hf
      omega
    exact ⟨clock, turned.earlier same (congrArg (fun v : State => v.flt.heldParts) eq :) (congrArg (bit · n) (regs _ (by decide)))
      (State.listFor_congr (congrArg State.cfg eq :) (congrArg State.srv eq :) n k)⟩

end

section
/-!
SUPPORT. A member whose table of a sequence's pages lies where a lane table's tile map is written: what it tells the lead of its far pages is
what it held before.
-/

namespace Sys2Proof.Machine

/-- An image of one layer and one head, served by tile 0. -/
def oneTileImage : ModelImage :=
  { authentic := true, vocab := 0, maxLen := 0, layers := 1, hLoc := 1, kvHeads := 1, headDim := 128, kvFmt := 0, serving := [0], ring := 1
    placed := [], tensors := [], multipliers := [], scales := [], wire := none, unitLocal := [], sequences := [], layoutTag := 0
    adapterStore := [], shareArea := [], stagingArea := [], partialArea := [], ringIn := [], ringCtr := 0, watermark := 0 }

/-- Sequence 5 of instance 0, whose page table is at the instance's tile map. -/
def fileAtTileMap : KvFile :=
  { seqId := 5, inst := 0, tenant := 0, dawn := false, maxLen := 64, flushed := 0, staged := 0, tables := [(0, tileMapAt 0)], stage := none
    parked := none, bitmap := none, used := 0 }

/-- A device with port 0 UP and instance 0 active, on which sequence 5 has a page in the far tier. -/
def State.farPaged : State :=
  { State.reset.put (R.LINK_STATUS.STATE 0) linkUp with
    mem := [(tileMapAt 0, 17)]
    cfg := { State.reset.cfg with instA := [(0, some ⟨1, false, oneTileImage, [], none⟩)] }
    flt := { State.reset.flt with groupSize := [(0, 2)] }
    kv := { State.reset.kv with files := [(0, some fileAtTileMap)] } }

/-- A lane table of instance 0 without lanes. -/
def emptyTable : LaneTable := { inst := 0, furrow := 0, suspended := false, entries := [], full := [], soon := [] }

def emptyTableIn : CtrlMsg := { src := 1, dst := 0, msgId := 7, epoch := 0, body := .laneTable emptyTable }

theorem farPaged_takes : State.farPaged.takesMessage 0 emptyTableIn := by decide +kernel

theorem farPaged_routes : (State.farPaged.route 1).isSome = true := by decide +kernel

/-! ### What has gone out -/

theorem State.emit_ctrl {s : State} {o : Output} {d : Nat} {m : CtrlMsg} (h : Output.ctrl d m ∈ (s.emit o).out) :
    Output.ctrl d m ∈ s.out ∨ o = .ctrl d m := by
  have split : Output.ctrl d m ∈ s.out ++ [o] := h
  exact (List.mem_append.1 split).imp id fun e => (List.mem_singleton.1 e).symm

/-- Frames are no messages to other devices. -/
theorem State.sendSeq_ctrl {s : State} {p d : Nat} {f : Frame} {o : Option (Nat × Nat)} {m : CtrlMsg} (h : Output.ctrl d m ∈ (s.sendSeq p f o).out) :
    Output.ctrl d m ∈ s.out := by
  have drain (n : Nat) (u : State) (h : Output.ctrl d m ∈ (u.drainLink p n).out) : Output.ctrl d m ∈ u.out := by
    induction n generalizing u with
    | zero => exact h
    | succ n ih =>
      unfold State.drainLink at h
      split at h
      · exact h
      · next f o rest _ =>
        split at h
        · exact h
        · have sent := ih _ h
          exact (State.emit_ctrl (s := u.modLink p fun l => { l with waiting := rest }) sent).resolve_right nofun
  exact drain _ (s.modLink p fun l => { l with waiting := l.waiting ++ [(f, o)] }) h

theorem State.sendFragments_ctrl {s : State} {p d : Nat} {m x : CtrlMsg} (h : Output.ctrl d x ∈ (s.sendFragments p m).out) :
    Output.ctrl d x ∈ s.out ∨ x = m := by
  have frames {α : Type} (f : α → Frame) (l : List α) (u : State)
      (h : Output.ctrl d x ∈ (l.foldl (fun (v : State) y => v.sendSeq p (f y)) u).out) : Output.ctrl d x ∈ u.out := by
    induction l generalizing u with
    | nil => exact h
    | cons y l ih => exact State.sendSeq_ctrl (ih _ h)
  have emitted (h : Output.ctrl d x ∈ (s.emit (.ctrl m.dst m)).out) : Output.ctrl d x ∈ s.out ∨ x = m :=
    (State.emit_ctrl h).imp id fun e => (Output.ctrl.inj e).2.symm
  unfold State.sendFragments at h
  dsimp only at h
  split at h
  · exact emitted (frames (plainFrame fControl) _ _ h)
  · exact emitted (frames (fun f => { plainFrame fControl f with enc := true }) _ (State.nonce _ _ 0) h)

/-- A message sent adds itself alone to what other devices have been sent. -/
theorem State.sendPort_ctrl {s : State} {q : Option Nat} {dst d : Nat} {b : CtrlBody} {x : CtrlMsg}
    (h : Output.ctrl d x ∈ (s.sendPort q dst b).out) : Output.ctrl d x ∈ s.out ∨ x.body = b := by
  unfold State.sendPort at h
  split at h
  · exact .inl h
  · dsimp only at h
    split at h
    · exact (State.sendFragments_ctrl h).imp id fun e => by rw [e]
    · exact .inl h

theorem State.arrived_ctrl {s : State} {p frags d : Nat} {m x : CtrlMsg} (h : Output.ctrl d x ∈ (s.arrived p frags m).out) :
    Output.ctrl d x ∈ s.out ∨ x.body = .ack m.msgId := by
  unfold State.arrived at h
  dsimp only at h
  split at h
  · exact State.sendPort_ctrl (s := s.modLink p fun l => { l with rxSeq := (l.rxSeq + frags) % 1024, nakSent := false }) h
  · exact .inl h

/-! ### The lane table -/

/-- What the far tier holds is read from the files, memory, the instances and the device's place. -/
theorem State.farHere_congr {s t : State} (kv : t.kv = s.kv) (mem : t.mem = s.mem) (cfg : t.cfg = s.cfg) (regs : t.regs = s.regs) :
    t.farHere = s.farHere := by
  cases s
  cases t
  cases kv
  cases mem
  cases cfg
  cases regs
  rfl

/-- A table without lanes writes the tile map alone, where the instance runs without a plan. -/
theorem State.writeLanes_empty {s : State} {i : Nat} {x : Inst} (active : s.activeInst i = some x) (here : bit x.mask s.self = true)
    (planless : x.plan = none) (unlisted : Table.get [] i s.srv.descLists = []) :
    (s.writeLanes i []).kv = s.kv ∧ (s.writeLanes i []).cfg = s.cfg ∧ (s.writeLanes i []).regs = s.regs ∧
      (s.writeLanes i []).que = s.que ∧ (s.writeLanes i []).pending = s.pending ∧ (s.writeLanes i []).out = s.out ∧
      (s.writeLanes i []).mem = writeMem s.mem (tileMapAt i) (fit 16 ((x.geo s.self).serving.map (BitVec.ofNat 8))) := by
  unfold State.writeLanes
  rw [active]
  dsimp only
  have slots : (([] : List LaneEntry).map fun e => e.slot).eraseDups = [] := rfl
  rw [if_neg (by simp [here]), slots, List.foldl_nil, unlisted, List.foldl_nil]
  set u : State := ({ s with srv := { s.srv with descLists := Table.erase i s.srv.descLists } } : State).write (tileMapAt i)
    (fit 16 ((x.geo s.self).serving.map (BitVec.ofNat 8))) with hu
  have cfg : u.cfg = s.cfg := rfl
  have nowhere (n : Nat) : u.tablePlaces i n = [] := by
    have same : u.activeInst i = some x := by rw [State.activeInst, cfg]; exact active
    rw [State.tablePlaces, same]
    dsimp only
    rw [planless]
  rw [List.foldl_fixed' fun t => by rw [nowhere]; rfl]
  exact ⟨rfl, rfl, rfl, rfl, rfl, rfl, rfl⟩

theorem farPaged_far : State.farPaged.farHere = [5] := by decide +kernel

theorem farPaged_written : ({ State.farPaged with mem := writeMem State.farPaged.mem (tileMapAt 0) (fit 16 [0]) } : State).farHere = [] := by
  decide +kernel

/-- The table has come in and is written: no page stands in the far tier, and the only messages out acknowledge it and name sequence 5. -/
theorem farPaged_tells : ∃ t, exec (.laneTable 0 1 emptyTableIn) State.farPaged = .next t ∧ t.farHere = [] ∧
    ∀ d m, Output.ctrl d m ∈ t.out → m.body = .ack 7 ∨ ∃ used, m.body = .laneAck 0 0 used [5] := by
  have came := State.arrived_onlySends State.farPaged 0 1 emptyTableIn
  have sent {d : Nat} {m : CtrlMsg} (h : Output.ctrl d m ∈ (State.farPaged.arrived 0 1 emptyTableIn).out) : m.body = .ack 7 :=
    (State.arrived_ctrl h).resolve_left nofun
  have taken := State.ctrlIn_taken farPaged_takes 1 fun s => s.laneTableIn 1 emptyTable
  generalize State.farPaged.arrived 0 1 emptyTableIn = A at *
  set B : State := { A with srv := { A.srv with laneRecv := Table.insert 0 (some emptyTable) A.srv.laneRecv, full := [], soon := [] } } with hB
  have shape : A.laneTableIn 1 emptyTable = (B.writeLanes 0 []).sendCtrl 1 (.laneAck 0 0 B.usedByTenant B.farHere) := rfl
  have kv : B.kv = State.farPaged.kv := (congrArg State.kv came :)
  have mem : B.mem = State.farPaged.mem := (congrArg State.mem came :)
  have cfg : B.cfg = State.farPaged.cfg := (congrArg State.cfg came :)
  have regs : B.regs = State.farPaged.regs := came.regs
  have out : B.out = A.out := rfl
  have que : B.que = State.farPaged.que := came.que
  have pending : B.pending = State.farPaged.pending := came.pending
  have lists : B.srv.descLists = [] := (congrArg (fun u : State => u.srv.descLists) came :)
  clear_value B
  have self : B.self = 0 := by
    rw [State.self, State.get_of_regs regs, State.get_of_regs regs]
    decide
  have active : B.activeInst 0 = some ⟨1, false, oneTileImage, [], none⟩ := by
    rw [State.activeInst, cfg]
    rfl
  obtain ⟨kvW, cfgW, regsW, queW, pendingW, outW, memW⟩ := State.writeLanes_empty active (by rw [self]; decide) rfl (by rw [lists]; rfl)
  have farB : B.farHere = [5] := (State.farHere_congr kv mem cfg regs).trans farPaged_far
  have map : (Inst.geo ⟨1, false, oneTileImage, [], none⟩ B.self).serving = [0] := rfl
  rw [map, mem] at memW
  rw [farB] at shape
  generalize B.writeLanes 0 [] = W at *
  have farW : W.farHere = [] := (State.farHere_congr (s := { State.farPaged with mem := writeMem State.farPaged.mem (tileMapAt 0) (fit 16 [0]) })
    (kvW.trans kv) memW (cfgW.trans cfg) (regsW.trans regs)).trans farPaged_written
  have sends := W.sendCtrl_onlySends 1 (.laneAck 0 0 B.usedByTenant [5])
  have told {d : Nat} {m : CtrlMsg} (h : Output.ctrl d m ∈ (W.sendCtrl 1 (.laneAck 0 0 B.usedByTenant [5])).out) :
      Output.ctrl d m ∈ W.out ∨ m.body = .laneAck 0 0 B.usedByTenant [5] := State.sendPort_ctrl h
  generalize W.sendCtrl 1 (.laneAck 0 0 B.usedByTenant [5]) = t at *
  refine ⟨t, ?_, (State.farHere_congr (congrArg State.kv sends :) (congrArg State.mem sends :) (congrArg State.cfg sends :) sends.regs).trans farW,
    fun d m h => ?_⟩
  · exact State.act_eq_next (s := State.farPaged) (f := fun s => s.ctrlIn 0 1 emptyTableIn fun s => s.laneTableIn 1 emptyTable) farPaged_takes.1 (taken.trans shape) (congrArg Que.tickets (sends.que.trans (queW.trans que)))
      (sends.pending.trans (pendingW.trans pending))
  · refine (told h).imp (fun before => ?_) fun after => ⟨_, after⟩
    rw [outW, out] at before
    exact sent before

end Sys2Proof.Machine

open Sys2Proof Sys2Proof.Machine

/-- Refutes O48: a page table may lie where the lane table's tile map is written, and LANE_ACK then tells the pages that the far tier held
before the table was written, not those of the state after it. -/
theorem not_messagesToMembers : ¬ Obligations.MessagesToMembers := by
  intro holds
  obtain ⟨-, -, tables, -⟩ := holds.1 State.farPaged 0 1 emptyTableIn farPaged_takes rfl
  obtain ⟨t, runs, -, -, -, told⟩ := tables emptyTable rfl
  obtain ⟨u, runs', none_far, only⟩ := farPaged_tells
  cases runs.symm.trans runs'
  obtain ⟨m, out, -, body⟩ := told farPaged_routes
  rw [none_far] at body
  obtain ack | ⟨used, far⟩ := only _ _ out
  · cases body.symm.trans ack
  · cases body.symm.trans far

end

section
/-!
SUPPORT. What comes to the lead (O49): replies to a commit, and completions of the members' parts of a command.
-/

namespace Sys2Proof.Machine

/-! ### Replies to a commit (R154) -/

/-- The commit after a member's reply. -/
def LeadCommit.replied (c : LeadCommit) (src : Nat) (check : Option Nat) : LeadCommit :=
  { c with
    waiting := c.waiting.filter fun d => d != src
    refused := match check with
      | some k => Table.insert src k c.refused
      | none => c.refused }

/-- A reply that counts strikes its member off. -/
theorem State.replyIn_counts {s : State} {c : LeadCommit} {src : Nat} (check : Option Nat) (lead : s.cfg.lead = some c)
    (open_ : c.decided = false) (waited : src ∈ c.waiting) (inTime : s.replyInTime c = true) :
    s.replyIn src c.epoch check = ({ s with cfg := { s.cfg with lead := some (c.replied src check) } } : State).decideEarly := by
  rw [State.replyIn, lead]
  exact if_neg (by simp [open_, waited, inTime])

/-- While a schedule runs, or others have not replied, the commit is not decided yet. -/
theorem State.decideEarly_waits {s : State} {c : LeadCommit} (lead : s.cfg.lead = some c) (h : s.inSchedule = true ∨ c.waiting ≠ []) :
    s.decideEarly = s := by
  rw [State.decideEarly, lead]
  refine if_neg ?_
  rcases h with h | h <;> simp [h]

/-- Outside the schedule the last reply decides. -/
theorem State.decideEarly_commits {s : State} {c : LeadCommit} (lead : s.cfg.lead = some c) (idle : s.inSchedule = false)
    (all : c.waiting = []) (none_ : c.refused = []) (open_ : c.decided = false) :
    s.decideEarly = { s.sendAll s.others (.cfgCommitGo c.epoch) with cfg := { s.cfg with
      lead := some { c with decided := true }, prepared := s.cfg.prepared.map fun p => { p with go := true } } } := by
  have cfg : (s.sendAll s.others (.cfgCommitGo c.epoch)).cfg = s.cfg := (State.sendAll_onlySends s s.others _).cfg
  rw [State.decideEarly, lead]
  dsimp only
  rw [if_pos (by simp [all, idle]), State.decideCommit, lead]
  dsimp only
  rw [if_neg (by simp [open_]), all, none_]
  dsimp only [List.foldl_nil]
  rw [cfg]

theorem State.onlySends.replyInTime {s t : State} (h : s.onlySends t) (c : LeadCommit) : t.replyInTime c = s.replyInTime c :=
  (congrArg (fun v : State => v.replyInTime c) h :)

theorem State.onlySends.inSchedule {s t : State} (h : s.onlySends t) : t.inSchedule = s.inSchedule := (congrArg State.inSchedule h :)

section
variable {s : State} {p frags : Nat} {m : CtrlMsg} {c : LeadCommit} (takes : s.takesMessage p m) (idle : s.que.tickets = [])
  (lead : s.cfg.lead = some c) (open_ : c.decided = false) (waited : m.src ∈ c.waiting) (inTime : s.replyInTime c = true)
include takes idle lead open_ waited inTime

/-- A reply that others follow, or that comes in a schedule. -/
theorem completes_reply_waits {i : Instr} (check : Option Nat) (runs : exec i s = s.act fun s => s.ctrlIn p frags m fun s =>
      s.replyIn m.src c.epoch check)
    (more : s.inSchedule = true ∨ ∃ d ∈ c.waiting, d ≠ m.src) :
    Completes i s fun t => t = { s.arrived p frags m with cfg := { s.cfg with lead := some (c.replied m.src check) } } := by
  have came := s.arrived_onlySends p frags m
  have leadA : (s.arrived p frags m).cfg.lead = some c := (congrArg Cfg.lead came.cfg).trans lead
  have counts := State.replyIn_counts (src := m.src) check leadA open_ waited ((came.replyInTime c).trans inTime)
  have sched : ({ s.arrived p frags m with cfg := { (s.arrived p frags m).cfg with lead := some (c.replied m.src check) } } : State).inSchedule =
      s.inSchedule := came.inSchedule
  rw [came.cfg] at counts sched
  have waits := State.decideEarly_waits (s := { s.arrived p frags m with cfg := { s.cfg with lead := some (c.replied m.src check) } })
    (c := c.replied m.src check) rfl (by
      rw [sched]
      refine more.imp id fun ⟨d, there, other⟩ none_ => ?_
      have kept : d ∈ (c.replied m.src check).waiting := List.mem_filter.2 ⟨there, by simpa using other⟩
      rw [none_] at kept
      cases kept)
  exact completes_taken takes runs (counts.trans waits) ((congrArg Que.tickets came.que).trans idle) came.pending rfl

/-- The last reply outside the schedule. -/
theorem completes_reply_decides {i : Instr} (runs : exec i s = s.act fun s => s.ctrlIn p frags m fun s => s.replyIn m.src c.epoch none)
    (off : s.inSchedule = false) (last : ∀ d ∈ c.waiting, d = m.src) (none_ : c.refused = []) :
    Completes i s fun t => t.cfg.lead = some { c with waiting := [], decided := true } ∧ (∀ P, t.cfg.prepared = some P → P.go = true) ∧
      (∀ d ∈ s.others, (s.route d).isSome = true → t.told d (.cfgCommitGo c.epoch)) ∧ t.mem = s.mem ∧ ∀ f, t.get f = s.get f := by
  have came := s.arrived_onlySends p frags m
  have leadA : (s.arrived p frags m).cfg.lead = some c := (congrArg Cfg.lead came.cfg).trans lead
  have counts := State.replyIn_counts (src := m.src) none leadA open_ waited ((came.replyInTime c).trans inTime)
  have alive : (s.arrived p frags m).flt.dead = false := (congrArg (fun v : State => v.flt.dead) came :).trans (State.dead_of_alive takes.1)
  generalize hA : s.arrived p frags m = A at came leadA counts alive
  have all : (c.replied m.src none).waiting = [] := List.filter_eq_nil_iff.2 fun d hd => by simp [last d hd]
  have kept : ({ A with cfg := { A.cfg with lead := some (c.replied m.src none) } } : State).inSchedule = A.inSchedule ∧
      ({ A with cfg := { A.cfg with lead := some (c.replied m.src none) } } : State).others = A.others ∧
      (∀ d, ({ A with cfg := { A.cfg with lead := some (c.replied m.src none) } } : State).route d = A.route d) ∧
      ({ A with cfg := { A.cfg with lead := some (c.replied m.src none) } } : State).flt = A.flt ∧
      ({ A with cfg := { A.cfg with lead := some (c.replied m.src none) } } : State).que = A.que ∧
      ({ A with cfg := { A.cfg with lead := some (c.replied m.src none) } } : State).mem = A.mem ∧
      ({ A with cfg := { A.cfg with lead := some (c.replied m.src none) } } : State).pending = A.pending ∧
      ({ A with cfg := { A.cfg with lead := some (c.replied m.src none) } } : State).regs = A.regs := ⟨rfl, rfl, fun _ => rfl, rfl, rfl, rfl, rfl, rfl⟩
  have leadB : ({ A with cfg := { A.cfg with lead := some (c.replied m.src none) } } : State).cfg.lead = some (c.replied m.src none) := rfl
  generalize ({ A with cfg := { A.cfg with lead := some (c.replied m.src none) } } : State) = B at *
  obtain ⟨sched, others, route, flt, que, mem, pending, regs⟩ := kept
  have commits := State.decideEarly_commits leadB (sched.trans (came.inSchedule.trans off)) all none_ open_
  have sends := State.sendAll_onlySends B B.others (.cfgCommitGo c.epoch)
  have told (d : Nat) (hd : d ∈ B.others) (way : (B.route d).isSome = true) :=
    State.sendAll_told (.cfgCommitGo c.epoch) (s := B) (by rw [flt]; exact alive) hd way
  have epoch : (c.replied m.src none).epoch = c.epoch := rfl
  rw [epoch] at commits
  generalize B.sendAll B.others (.cfgCommitGo c.epoch) = S at *
  rw [commits] at counts
  have leadT : ({ S with cfg := { B.cfg with
      lead := some { c.replied m.src none with decided := true }
      prepared := B.cfg.prepared.map fun P => { P with go := true } } } : State).cfg.lead =
    some { c.replied m.src none with decided := true } := rfl
  refine completes_taken (t := { S with cfg := { B.cfg with
      lead := some { c.replied m.src none with decided := true }
      prepared := B.cfg.prepared.map fun P => { P with go := true } } }) takes runs (by rw [hA]; exact counts) ((congrArg Que.tickets (sends.que.trans (que.trans came.que))).trans idle)
    (sends.pending.trans (pending.trans came.pending)) ⟨leadT.trans ?_, fun P hP => ?_, fun d hd way => ?_, sends.mem.trans (mem.trans came.mem),
      fun f => (sends.get f).trans ((State.get_of_regs regs f).trans (came.get f))⟩
  · exact congrArg (fun w => some { c with waiting := w, decided := true }) all
  · obtain ⟨x, -, made⟩ := Option.map_eq_some_iff.1 (show (B.cfg.prepared.map fun P : Prepared => { P with go := true }) = some P from hP)
    rw [← made]
  · exact told d (by rw [others, came.others]; exact hd) (by rw [route, came.route]; exact way)

end

/-! ### Completions of the members' parts -/

/-- A part that has come in. -/
theorem State.completionIn_only {s : State} {T : Ticket} {i d : Nat} {st : Status} {k r0 r1 : Nat} {data : Bytes}
    {rest : List (Nat × Nat)} (tickets : s.que.tickets = [T]) (awaits : T.awaiting = (d, i) :: rest) (other : d ≠ s.self) :
    s.completionIn i st k r0 r1 data = s.withTickets [{ T with
      awaiting := rest.filter fun x => x.1 != d, answers := T.answers ++ [⟨d, st, k, r0, r1, data⟩] }] := by
  have first : T.awaiting.any (fun w => w.2 == i && w.1 != s.self) = true := by simp [awaits, other]
  have found : T.awaiting.find? (fun w => w.2 == i && w.1 != s.self) = some (d, i) := by
    rw [awaits, List.find?_cons_of_pos]
    simp [other]
  rw [State.completionIn, tickets, List.find?_cons_of_pos (p := fun t : Ticket => t.awaiting.any fun w => w.2 == i && w.1 != s.self) first]
  dsimp only
  rw [found]
  dsimp only
  rw [State.addReply, State.mapTicket, tickets]
  simp [awaits, State.withTickets]

/-- The packets of one answer each without data are done once that answer has come. -/
theorem State.conclude_answered {s : State} {T : Ticket} {r : Reply} (op : T.packet.opcode ∈ [0x04, 0x60, 0x61, 0x62, 0x70, 0x71])
    (answers : T.answers = [r]) (plain : r.data = []) : ∃ a, s.conclude T = s.finish T.no a := by
  simp only [List.mem_cons, List.not_mem_nil, or_false] at op
  have one : T.answers.headD ⟨0, .ok, 0, 0, 0, []⟩ = r := by rw [answers]; rfl
  have finished (op : Nat) (there : op = 0x60 ∨ op ≠ 0x72) (open_ : (op == 0x07 && !T.packet.f5) = false) :
      ∃ a, (if (op == 0x07 && !T.packet.f5) = true then s.rejoinConcluded T else match refusal T.answers with
        | some r => s.finish T.no r.answer
        | none =>
          if (op == 0x03 || op == 0x60) = true then s.finish T.no { status := .ok }
          else (if (op == 0x72) = true then s.outReport T.packet r.data else if r.data.isEmpty = true then s
            else s.outPayload T.packet r.data).finish T.no r.answer) = s.finish T.no a := by
    rw [if_neg (by rw [open_]; decide)]
    cases refusal T.answers with
    | some x => exact ⟨_, rfl⟩
    | none =>
      dsimp only
      by_cases h : (op == 0x03 || op == 0x60) = true
      · exact ⟨_, if_pos h⟩
      · have report : ¬(op == 0x72) = true := by
          rcases there with rfl | there
          · decide
          · simpa using there
        rw [if_neg h, if_neg report, plain]
        exact ⟨_, rfl⟩
  rw [← one] at finished
  unfold State.conclude
  rcases op with op | op | op | op | op | op <;> rw [op]
  · exact finished 0x04 (.inr (by decide)) rfl
  · exact finished 0x60 (.inl rfl) rfl
  · exact finished 0x61 (.inr (by decide)) rfl
  · exact finished 0x62 (.inr (by decide)) rfl
  · exact finished 0x70 (.inr (by decide)) rfl
  · exact finished 0x71 (.inr (by decide)) rfl

section
variable {s : State} {p frags : Nat} {m : CtrlMsg} (takes : s.takesMessage p m)
include takes

/-- A message after which the one packet still waits. -/
theorem completes_taken_waits {i : Instr} {g : State → State} {T : Ticket} {P : State → Prop}
    (runs : exec i s = s.act fun s => s.ctrlIn p frags m g) (effect : g (s.arrived p frags m) = (s.arrived p frags m).withTickets [T])
    (barrier : T.barrier = false) (fence : T.fence = none) (waits : T.awaiting ≠ []) (h : P ((s.arrived p frags m).withTickets [T])) :
    Completes i s P := by
  have came := (s.arrived_onlySends p frags m).pending
  generalize hA : s.arrived p frags m = A at effect h came
  refine completes_whenAlive (t := A.withTickets [T]) (f := fun s => (s.ctrlIn p frags m g).settle) takes.1 runs ?_ came h
  rw [State.ctrlIn_taken takes frags g, hA, effect]
  exact State.settle_waits (t := T) rfl (State.proceed_idle (State.ticket?_only rfl) barrier fence (.inl waits))

/-- A message after which the one packet gets its final completion. -/
theorem completes_taken_last {i : Instr} {g : State → State} {T : Ticket} {r : Reply} {h : Nat} {P : State → Prop}
    (runs : exec i s = s.act fun s => s.ctrlIn p frags m g) (effect : g (s.arrived p frags m) = (s.arrived p frags m).withTickets [T])
    (barrier : T.barrier = false) (all : T.awaiting = []) (answers : T.answers = [r]) (plain : r.data = []) (host : T.origin = .host h)
    (op : T.packet.opcode ∈ [0x04, 0x60, 0x61, 0x62, 0x70, 0x71])
    (then_ : ∀ t : State, ((s.arrived p frags m).withTickets []).Posts t → P t) : Completes i s P := by
  have came := (s.arrived_onlySends p frags m).pending
  generalize hA : s.arrived p frags m = A at effect then_ came
  obtain ⟨a, finishes⟩ := State.conclude_answered (s := A.withTickets [T]) op answers plain
  have finish := State.finish_only (s := A.withTickets [T]) a rfl host
  have posts := State.Posts.postCq (A.withTickets []) h
    ⟨T.packet.tag, T.packet.opcode, a.status, true, a.detail, a.device.getD (A.withTickets [T]).self, a.result0, a.result1⟩
  have proceeds := State.proceed_concludes (s := A.withTickets [T]) (State.ticket?_only rfl) barrier all (by rw [answers]; nofun)
  rw [finishes, finish] at proceeds
  have none_ : (A.withTickets []).que.tickets = [] := rfl
  have same : ({ A.withTickets [T] with que := { (A.withTickets [T]).que with tickets := [] } } : State) = A.withTickets [] := rfl
  rw [same] at proceeds
  have pend : (A.withTickets []).pending = A.pending := rfl
  generalize A.withTickets [] = B at *
  generalize hu : B.postCq h _ = u at *
  refine completes_whenAlive (t := u) (f := fun s => (s.ctrlIn p frags m g).settle) takes.1 runs ?_
    (posts.pending.trans (pend.trans came)) (then_ u posts)
  rw [State.ctrlIn_taken takes frags g, hA, effect]
  exact State.settle_last (t := T) rfl proceeds (posts.tickets.trans none_)

end

/-! ### Flushing a tile's staged tokens leaves what is served as it was -/

theorem foldl_srv {α : Type} (l : List α) {f : State → α → State} (h : ∀ s x, (f s x).srv = s.srv) (s : State) : (l.foldl f s).srv = s.srv :=
  List.foldlRecOn (motive := fun t : State => t.srv = s.srv) l f rfl fun t e x _ => (h t x).trans e

@[simp] theorem State.useLine_srv (s : State) (n line : Nat) (d : Bool) : (s.useLine n line d).srv = s.srv := by
  unfold State.useLine
  dsimp only
  split <;> rfl

@[simp] theorem State.install_srv (s : State) (n line : Nat) (d : Bool) : (s.install n line d).srv = s.srv := by
  unfold State.install
  dsimp only
  split
  · exact State.useLine_srv ..
  · split <;> rfl

theorem State.atomPerform_srv (s : State) (n c op addr data cmp : Nat) (wide : Bool) : (s.atomPerform n false c op addr wide data cmp).srv = s.srv := by
  unfold State.atomPerform
  dsimp only
  rw [if_neg (by decide)]
  split
  · simp
  · simp

@[simp] theorem State.refOp_srv (s : State) (n tier addr op data cmp : Nat) : (s.refOp n tier addr op data cmp).1.srv = s.srv := by
  unfold State.refOp
  dsimp only
  rw [State.atomPerform_srv]
  split
  · rfl
  · next h _ =>
    simp only [State.lookup]
    split
    · next t heq =>
      split at heq <;> cases heq
      rfl
    · next t heq =>
      split at heq <;> cases heq
      simp

@[simp] theorem State.setRef_srv (s : State) (n tier addr v : Nat) : (s.setRef n tier addr v).srv = s.srv := by
  simp [State.setRef, State.refRead]

@[simp] theorem State.setPtes_srv (s : State) (table g size e : Nat) : (s.setPtes table g size e).srv = s.srv :=
  foldl_srv _ (fun _ _ => State.writeNat_srv ..) s

@[simp] theorem State.mapEntries_srv (s : State) (n addr : Nat) (f : Nat → Nat) : (s.mapEntries n addr f).srv = s.srv :=
  foldl_srv _ (fun _ _ => foldl_srv _ (fun _ _ => by split <;> rfl) _) s

@[simp] theorem State.copyBytes_srv (s : State) (a b n : Nat) : (s.copyBytes a b n).srv = s.srv :=
  foldl_srv _ (fun _ _ => State.poisonRange_srv ..) _

@[simp] theorem State.copySlots_srv (s : State) (n tierA a tierB b len : Nat) : (s.copySlots n tierA a tierB b len).srv = s.srv := by
  simp [State.copySlots]

@[simp] theorem State.dropRef_srv (s : State) (n e : Nat) (dawn : Bool) : (s.dropRef n e dawn).srv = s.srv := by
  unfold State.dropRef
  dsimp only
  split
  · simp
  · split
    · unfold State.freePage
      split <;> simp
    · split <;> simp

theorem State.putPlot_srv (s : State) (pool : Nat × Nat) (slot off : Nat) (b : Bytes) : (s.putPlot pool slot off b).srv = s.srv := rfl

/-- What an optional operation leaves of the serving state. -/
theorem State.pageIn_srv {s t : State} {n tier size tenant a : Nat} {dawn : Bool} (h : s.pageIn n tier size tenant dawn = some (t, a)) :
    t.srv = s.srv := by
  unfold State.pageIn at h
  split at h
  · cases h
  · obtain ⟨x, -, made⟩ := Option.map_eq_some_iff.1 h
    cases made
    exact State.setRef_srv ..

theorem State.newPage_srv {s t : State} {n size tenant water a b : Nat} {dawn : Bool}
    (h : s.newPage n size tenant dawn water = some (t, a, b)) : t.srv = s.srv := by
  unfold State.newPage at h
  dsimp only at h
  split at h
  · next v x near =>
    cases h
    split at near
    · exact State.pageIn_srv near
    · cases near
  · obtain ⟨x, page, made⟩ := Option.map_eq_some_iff.1 h
    cases made
    exact State.pageIn_srv page

theorem State.flushSlot_srv {s t : State} {n share table off a b : Nat} {g : Geo} {f : KvFile}
    (h : s.flushSlot n share table off g f = some (t, a, b)) : t.srv = s.srv := by
  unfold State.flushSlot at h
  dsimp only at h
  split at h
  · obtain ⟨⟨u, y, z⟩, page, made⟩ := Option.map_eq_some_iff.1 h
    cases made
    exact (State.setPtes_srv ..).trans (State.newPage_srv page)
  · split at h
    · cases h
      rfl
    · split at h
      · cases h
        simp [State.refRead]
      · obtain ⟨⟨u, y⟩, page, made⟩ := Option.map_eq_some_iff.1 h
        cases made
        rw [State.bump_srv, State.dropRef_srv, State.setPtes_srv, foldl_srv _ (fun _ _ => State.copySlots_srv ..), State.pageIn_srv page]
        simp [State.refRead]

theorem State.flushHead_srv {s t : State} {n share table stage j i x : Nat} {g : Geo} {f : KvFile}
    (h : s.flushHead n share table stage j i g f x = some t) : t.srv = s.srv := by
  unfold State.flushHead at h
  obtain ⟨⟨u, y, z⟩, slot, made⟩ := Option.map_eq_some_iff.1 h
  rw [← made]
  dsimp only
  rw [State.draw_srv, State.draw_srv, State.bump_srv, foldl_srv _ (fun _ _ => State.putPlot_srv ..), foldl_srv _ (fun _ _ => State.putPlot_srv ..), State.flushSlot_srv slot]

theorem tryAll_srv {α : Type} {f : State → α → Option State} (h : ∀ s x t, f s x = some t → t.srv = s.srv) {l : List α} {s t : State}
    (all : tryAll f s l = some t) : t.srv = s.srv := by
  induction l generalizing s with
  | nil => cases all; rfl
  | cons x l ih =>
    simp only [tryAll] at all
    split at all
    · next u first => exact (ih all).trans (h _ _ _ first)
    · cases all

theorem State.flushSeq_srv (s : State) (slot : Nat) (f : KvFile) : (s.flushSeq slot f).srv = s.srv := by
  unfold State.flushSeq
  dsimp only
  split
  · rfl
  · split
    · rfl
    · split
      · rfl
      · split
        · rfl
        · next u all =>
          have same := tryAll_srv (fun _ _ _ part => State.flushHead_srv part) all
          exact same

theorem State.flushItem_srv (s : State) : s.flushItem.srv = s.srv :=
  foldl_srv _ (fun s e => by
    split
    · split
      · exact State.flushSeq_srv ..
      · rfl
    · rfl) s

/-! ### The tokens of lanes elsewhere (R59, R106) -/

/-- A sequence whose bookkeeping alone has changed. -/
def Seq.noted (q v : Seq) : Prop :=
  v = { q with held := v.held, penalty := v.penalty, stagedToks := v.stagedToks, flushed := v.flushed }

theorem Seq.noted.trans {a b c : Seq} (h : a.noted b) (k : b.noted c) : a.noted c := by
  rw [Seq.noted] at k ⊢
  refine k.trans ?_
  rw [h]

/-- Only sequences have changed of what is served. -/
def State.servesOn (s t : State) : Prop := t.srv = { s.srv with seqs := t.srv.seqs }

theorem State.servesOn.trans {a b c : State} (h : a.servesOn b) (k : b.servesOn c) : a.servesOn c := by
  rw [State.servesOn] at k ⊢
  refine k.trans ?_
  rw [h]

theorem State.servesOn.of_eq {s t : State} (h : t.srv = s.srv) : s.servesOn t := by
  rw [State.servesOn, h]

theorem State.modSeq_servesOn (s : State) (id : Nat) (f : Seq → Seq) : s.servesOn (s.modSeq id f) := by
  unfold State.modSeq
  split <;> rfl

theorem State.seqOf_congr {s t : State} (h : t.srv.seqs = s.srv.seqs) (id : Nat) : t.seqOf id = s.seqOf id := by
  rw [State.seqOf, h, State.seqOf]

theorem State.modSeq_same {s : State} {id : Nat} {q : Seq} {f : Seq → Seq} (h : s.seqOf id = some q) (gen : (f q).gen = q.gen) :
    (s.modSeq id f).seqOf id = some (f q) := by
  rw [State.modSeq, h]
  exact State.seqOf_setSeqn (gen.trans (State.gen_of_seqOf h))

/-- The sequence is still there, with other bookkeeping at most. -/
def State.stillRuns (s t : State) (id : Nat) : Prop := ∀ q, s.seqOf id = some q → ∃ v, t.seqOf id = some v ∧ q.noted v

theorem State.stillRuns.trans {a b c : State} {id : Nat} (h : a.stillRuns b id) (k : b.stillRuns c id) : a.stillRuns c id := fun q hq => by
  obtain ⟨v, hv, n⟩ := h q hq
  obtain ⟨w, hw, n'⟩ := k v hv
  exact ⟨w, hw, n.trans n'⟩

theorem State.stillRuns.of_eq {s t : State} {id : Nat} (h : t.srv = s.srv) : s.stillRuns t id := fun q hq =>
  ⟨q, (State.seqOf_congr (congrArg Srv.seqs h) id).trans hq, rfl⟩

theorem State.modSeq_stillRuns (s : State) (k id : Nat) {f : Seq → Seq} (hf : ∀ q, Seq.noted q (f q)) : s.stillRuns (s.modSeq k f) id := fun q hq => by
  unfold State.modSeq
  split
  · next p hp =>
    have gen : (f p).gen = p.gen := (congrArg Seq.gen (hf p) :)
    by_cases slot : id % 65536 = k % 65536
    · have same : p = q ∧ k = id := by
        have one := State.gen_of_seqOf hp
        have two := State.gen_of_seqOf hq
        unfold State.seqOf at hp hq
        rw [slot] at hq
        split at hp
        · next r hr =>
          rw [hr] at hq
          dsimp only at hq
          split at hp <;> cases hp
          split at hq <;> cases hq
          exact ⟨rfl, by omega⟩
        · cases hp
      obtain ⟨rfl, rfl⟩ := same
      exact ⟨f p, State.seqOf_setSeqn (gen.trans (State.gen_of_seqOf hp)), hf p⟩
    · have there : Table.get none (id % 65536) (s.setSeqn k (some (f p))).srv.seqs = Table.get none (id % 65536) s.srv.seqs :=
        Table.get_set_other none (some (f p)) s.srv.seqs slot
      refine ⟨q, ?_, rfl⟩
      rw [State.seqOf, there]
      exact hq
  · exact ⟨q, hq, rfl⟩

theorem State.foldl_runs {α : Type} (l : List α) {f : State → α → State} {id : Nat} (h : ∀ (s : State) x, s.servesOn (f s x) ∧ s.stillRuns (f s x) id)
    (s : State) : s.servesOn (l.foldl f s) ∧ s.stillRuns (l.foldl f s) id :=
  List.foldlRecOn (motive := fun t : State => s.servesOn t ∧ s.stillRuns t id) l f ⟨.of_eq rfl, .of_eq rfl⟩ fun _ e x _ =>
    ⟨e.1.trans (h _ x).1, e.2.trans (h _ x).2⟩

theorem State.syncSeqs_runs (s : State) (id : Nat) : s.servesOn s.syncSeqs ∧ s.stillRuns s.syncSeqs id :=
  State.foldl_runs _ (fun s e => by
    split
    · exact ⟨State.modSeq_servesOn .., State.modSeq_stillRuns _ _ _ fun _ => rfl⟩
    · refine ⟨State.modSeq_servesOn .., State.modSeq_stillRuns _ _ _ fun q => ?_⟩
      split <;> rfl) s

theorem State.syncFiles_srv (s : State) : s.syncFiles.srv = s.srv :=
  foldl_srv _ (fun s e => by split <;> rfl) s

theorem State.writeTr_srv (s : State) (j : Nat) (t : TokenRec) : (s.writeTr j t).srv = s.srv := by
  have out (a : Nat) (b : Bytes) : (s.emitToken a b).1.srv = s.srv := by
    unfold State.emitToken
    split
    · split <;> rfl
    · rfl
  unfold State.writeTr
  dsimp only
  split
  · split <;> exact out ..
  · split <;> exact out ..

theorem State.deliverToken_runs (s : State) (k id : Nat) (t : TokenRec) : s.servesOn (s.deliverToken k t) ∧ s.stillRuns (s.deliverToken k t) id := by
  unfold State.deliverToken
  split
  · exact ⟨.of_eq rfl, .of_eq rfl⟩
  · split
    · exact ⟨.of_eq (State.writeTr_srv ..), .of_eq (State.writeTr_srv ..)⟩
    · exact ⟨State.modSeq_servesOn .., State.modSeq_stillRuns _ _ _ fun _ => rfl⟩

theorem State.countToken_runs (s : State) (k id t : Nat) : s.servesOn (s.countToken k t) ∧ s.stillRuns (s.countToken k t) id := by
  unfold State.countToken
  split
  · exact ⟨.of_eq rfl, .of_eq rfl⟩
  · split
    · exact ⟨State.modSeq_servesOn .., State.modSeq_stillRuns _ _ _ fun _ => rfl⟩
    · split
      · exact ⟨.of_eq rfl, .of_eq rfl⟩
      · exact ⟨State.modSeq_servesOn .., State.modSeq_stillRuns _ _ _ fun _ => rfl⟩

theorem State.noteHeld_srv (s : State) : ∃ b, s.noteHeld.srv = { s.srv with ringFull := b } := by
  unfold State.noteHeld
  split
  · exact ⟨_, rfl⟩
  · exact ⟨true, rfl⟩

/-- What follows when lanes are settled, where nothing waits for it. -/
theorem State.afterSettle_runs {s : State} (id : Nat) (cmds : s.srv.waitCmds = []) (far : s.srv.farWait = []) :
    s.afterSettle.srv.openLanes = s.srv.openLanes ∧ s.stillRuns s.afterSettle id ∧
      s.afterSettle.mem = s.noteHeld.syncFiles.flushItem.syncSeqs.mem ∧ s.afterSettle.regs = s.noteHeld.syncFiles.flushItem.syncSeqs.regs ∧
      s.afterSettle.que.tickets = s.que.tickets := by
  obtain ⟨b, noted⟩ := s.noteHeld_srv
  have flushed : s.noteHeld.syncFiles.flushItem.srv = s.noteHeld.srv := (State.flushItem_srv _).trans (State.syncFiles_srv _)
  have first : s.stillRuns s.noteHeld.syncFiles.flushItem id := fun q hq =>
    ⟨q, (State.seqOf_congr ((congrArg Srv.seqs flushed).trans (congrArg Srv.seqs noted :)) id).trans hq, rfl⟩
  obtain ⟨serves, runs⟩ := s.noteHeld.syncFiles.flushItem.syncSeqs_runs id
  have tickets : s.noteHeld.syncFiles.flushItem.syncSeqs.que.tickets = s.que.tickets :=
    State.syncSeqs_tix (State.flushItem_tix (State.syncFiles_tix (State.noteHeld_tix (z := s) rfl)))
  unfold State.afterSettle
  have made := serves
  generalize s.noteHeld.syncFiles.flushItem.syncSeqs = t at *
  rw [State.servesOn, flushed, noted] at made
  have cmdsT : t.srv.waitCmds = [] := by rw [made]; exact cmds
  have farT : t.srv.farWait = [] := by rw [made]; exact far
  have openT : t.srv.openLanes = s.srv.openLanes := by rw [made]
  have all := first.trans runs
  simp only [State.applyWaiting, cmdsT, List.foldl_nil, farT, List.filter_nil, State.discardLanes, ite_self]
  exact ⟨openT, all, trivial, trivial, tickets⟩

/-- With no sequence's KV file here, only the count of full rings may have gone up. -/
theorem State.afterSettle_still {s : State} (cmds : s.srv.waitCmds = []) (far : s.srv.farWait = []) (files : s.kv.files = []) :
    s.afterSettle.mem = s.mem ∧ s.sameRegs s.afterSettle [R.QUE_REJECTS.RING_FULL] := by
  obtain ⟨-, -, mem, regs, -⟩ := State.afterSettle_runs 0 cmds far
  have held : s.noteHeld.kv = s.kv ∧ s.noteHeld.mem = s.mem ∧ s.sameRegs s.noteHeld [R.QUE_REJECTS.RING_FULL] := by
    unfold State.noteHeld
    split
    · exact ⟨rfl, rfl, fun _ _ => rfl⟩
    · exact ⟨rfl, rfl, fun f hf => State.get_put_other _ _ (hf _ (by simp))⟩
  obtain ⟨kv, heldMem, heldRegs⟩ := held
  have nofile (t : State) (h : t.kv.files = []) (k : Nat) : t.file? k = none := by rw [State.file?, h]; rfl
  have synced : s.noteHeld.syncFiles = s.noteHeld := by
    refine List.foldlRecOn (motive := fun t : State => t = s.noteHeld) _ _ rfl fun t e x _ => ?_
    rw [e, nofile _ ((congrArg Kv.files kv).trans files)]
  have flushed : s.noteHeld.syncFiles.flushItem = s.noteHeld := by
    rw [synced, State.flushItem, kv, files]
    rfl
  have modSeq (t : State) (k : Nat) (f : Seq → Seq) : (t.modSeq k f).mem = t.mem ∧ (t.modSeq k f).regs = t.regs := by
    unfold State.modSeq
    split <;> exact ⟨rfl, rfl⟩
  have seqs : s.noteHeld.syncSeqs.mem = s.noteHeld.mem ∧ s.noteHeld.syncSeqs.regs = s.noteHeld.regs := by
    refine List.foldlRecOn (motive := fun t : State => t.mem = s.noteHeld.mem ∧ t.regs = s.noteHeld.regs) _ _ ⟨rfl, rfl⟩ fun t e x _ => ?_
    split <;> exact ⟨(modSeq ..).1.trans e.1, (modSeq ..).2.trans e.2⟩
  rw [flushed] at mem regs
  exact ⟨(mem.trans seqs.1).trans heldMem, fun f hf => (State.get_of_regs (regs.trans seqs.2) f).trans (heldRegs f hf)⟩

/-- The one lane open, of a sequence that is to be sampled, has no choice: it has failed once more. -/
theorem State.settleOpen_fails {s : State} {i th : Nat} {e : LaneEntry} {q : Seq} {x : Request} {got : Nat → LaneEntry → Option (Bool × LaneEnd)}
    {k : Bool} (open_ : s.srv.openLanes = [(i, e)]) (told : got i e = some (k, .none)) (role : sampled e = true)
    (known : s.seqOf e.seqId = some q) (asked : q.req = some x) (free : x.deadline = none) :
    s.settleOpen th got = { s.failLane e.seqId with srv := { (s.failLane e.seqId).srv with
      openLanes := (s.failLane e.seqId).srv.openLanes.filter fun y => y != (i, e) } } := by
  have never : x.passed th = false := by rw [Request.passed, free]
  rw [State.settleOpen, open_, List.foldl_cons, List.foldl_nil, told]
  dsimp only
  have lane : s.settleLane th e (e.chunkLast + 1) k .none = s.failLane e.seqId := by
    rw [State.settleLane, known]
    dsimp only
    rw [asked]
    dsimp only
    rw [role, never]
    rfl
  rw [lane]

/-- A sequence that has been given a token and goes on. -/
def Seq.given (q : Seq) (n t th period : Nat) (x : Request) : Seq :=
  { q.advanced n (some t) with lastToken := some th, lastPeriod := period, req := some { x with delivered := x.delivered + 1 } }

/-- The one lane open has a token that is not the last: its sequence goes on with it. -/
theorem State.settleOpen_gives {s : State} {i th t : Nat} {e : LaneEntry} {q : Seq} {x : Request}
    (open_ : s.srv.openLanes = [(i, e)]) (role : sampled e = true)
    (known : s.seqOf e.seqId = some q) (asked : q.req = some x) (free : x.deadline = none) (runs : q.cancelled = false)
    (goes : t ∉ x.sampling.stops) (room : e.position + 2 < q.maxLen) (more : x.delivered + 1 < x.wanted) :
    ∃ u : State, s.servesOn u ∧ u.que.tickets = s.que.tickets ∧ (∃ v w, q.noted v ∧ u.seqOf e.seqId = some (v.given (e.chunkLast + 1) t th w x)) ∧
      ∀ got : Nat → LaneEntry → Option (Bool × LaneEnd), got i e = some (true, .token t) →
        s.settleOpen th got = { u with srv := { u.srv with openLanes := u.srv.openLanes.filter fun y => y != (i, e) } } := by
  have never : x.passed th = false := by rw [Request.passed, free]
  have stop : x.sampling.stops.contains t = false := by simpa using goes
  have full : decide (q.maxLen ≤ e.position + 2) = false := by simpa using room
  have last : decide (x.wanted ≤ x.delivered + 1) = false := by simpa using more
  let rec_ : TokenRec := ⟨e.seqId, t, e.position + 1, false, false, false, false, s.endingFurrow % 65536⟩
  obtain ⟨serves, still⟩ := s.deliverToken_runs e.seqId e.seqId rec_
  obtain ⟨serves', still'⟩ := (s.deliverToken e.seqId rec_).countToken_runs e.seqId e.seqId t
  obtain ⟨v, hv, noted⟩ := (still.trans still') q known
  have lane : s.settleLane th e (e.chunkLast + 1) true (.token t) =
      ((s.deliverToken e.seqId rec_).countToken e.seqId t).modSeq e.seqId fun q =>
        q.given (e.chunkLast + 1) t th (s.deliverToken e.seqId rec_).period x := by
    rw [State.settleLane, known]
    dsimp only
    rw [asked]
    dsimp only
    rw [role, never, runs]
    simp only [State.giveToken, never, stop, full, last]
    rfl
  refine ⟨_, (serves.trans serves').trans (State.modSeq_servesOn ..),
    State.modSeq_tix (State.countToken_tix (State.deliverToken_tix (z := s) rfl)), ⟨v, _, noted, State.modSeq_same (f := fun q => q.given (e.chunkLast + 1) t th (s.deliverToken e.seqId rec_).period x) hv rfl⟩, fun got told => ?_⟩
  rw [State.settleOpen, open_, List.foldl_cons, List.foldl_nil, told]
  dsimp only
  rw [lane]

/-- What the records of a message say of a sequence. -/
def choiceIn (l : List TokenRec) (id : Nat) : LaneEnd := match l.find? fun r => r.seqId == id with
  | some r => .token r.token
  | none => .none

section
variable {s : State} {p frags : Nat} {m : CtrlMsg} (takes : s.takesMessage p m)
include takes

/-- What the lead takes from a message of tokens: the lanes open are settled, and what follows from that. -/
theorem completes_tokens {i k : Nat} {l : List TokenRec} {kept : List Nat} {e : LaneEntry} {P : State → Prop} {U : State}
    (body : m.body = .tokens i k l kept [] [] []) (lead : s.isLead = true)
    (known : e.seqId ∈ kept) (fresh : (i, e.set, e.lane) ∉ s.srv.misses)
    (settles : ∀ got : Nat → LaneEntry → Option (Bool × LaneEnd), got i e = some (true, choiceIn l e.seqId) →
      (s.arrived p frags m).settleOpen s.deliveryTime got = U)
    (none_open : U.afterSettle.que.tickets = []) (h : P U.afterSettle) : Completes (.tokensMsg p frags m) s P := by
  have came := s.arrived_onlySends p frags m
  have runs : exec (.tokensMsg p frags m) s = s.act fun s => s.ctrlIn p frags m fun s => match m.body with
    | .tokens i _ l kept missed damaged empty => s.tokensIn i l kept missed damaged empty
    | _ => s := rfl
  rw [body] at runs
  dsimp only at runs
  have effect : (s.arrived p frags m).tokensIn i l kept [] [] [] = U.afterSettle := by
    have misses : (s.arrived p frags m).srv.misses = s.srv.misses := (congrArg (fun v : State => v.srv.misses) came :)
    have time : (s.arrived p frags m).deliveryTime = s.deliveryTime := (congrArg State.deliveryTime came :)
    have leads := came.isLead.trans lead
    generalize s.arrived p frags m = A at *
    have there : kept.contains e.seqId = true := by simpa using known
    have missed : A.srv.misses.contains (i, e.set, e.lane) = false := by rw [misses]; simpa using fresh
    rw [State.tokensIn]
    simp only [List.contains_nil, List.filter_false, List.map_nil, List.append_nil]
    rw [if_neg (by rw [leads]; decide)]
    simp only [List.isEmpty_nil, Bool.not_true, Bool.or_self, Bool.false_eq_true, if_false]
    rw [time]
    refine congrArg State.afterSettle (settles _ ?_)
    rw [bne_self_eq_false, there, missed, choiceIn]
    cases l.find? fun r => r.seqId == e.seqId <;> rfl
  have pending : U.afterSettle.pending = s.pending := by
    rw [← effect]
    exact (State.tokensIn_kept (z := s.arrived p frags m) (.refl _)).pending.trans came.pending
  exact completes_taken takes runs effect none_open pending h

section
variable {i k : Nat} {l : List TokenRec} {kept : List Nat} {e : LaneEntry} {q : Seq} {x : Request} (idle : s.que.tickets = [])
  (body : m.body = .tokens i k l kept [] [] []) (lead : s.isLead = true) (cmds : s.srv.waitCmds = []) (far : s.srv.farWait = [])
  (open_ : s.srv.openLanes = [(i, e)]) (role : sampled e = true) (known : s.seqOf e.seqId = some q) (asked : q.req = some x)
  (free : x.deadline = none) (there : e.seqId ∈ kept) (fresh : (i, e.set, e.lane) ∉ s.srv.misses)
include idle body lead cmds far open_ role known asked free there fresh

/-- A token for the one lane open. -/
theorem completes_tokens_given {r : TokenRec} (runs : q.cancelled = false) (found : l.find? (fun r => r.seqId == e.seqId) = some r)
    (goes : r.token ∉ x.sampling.stops) (room : e.position + 2 < q.maxLen) (more : x.delivered + 1 < x.wanted) :
    Completes (.tokensMsg p frags m) s fun t => ∃ v : Seq, t.seqOf e.seqId = some v ∧
      v.req = some { x with delivered := x.delivered + 1 } ∧ v.inputs = [r.token] ∧ v.state = .generate ∧
      v.len = q.len + (e.chunkLast + 1) ∧ v.fails = 0 ∧ v.lastToken = some s.deliveryTime ∧ t.srv.openLanes = [] := by
  have came := s.arrived_onlySends p frags m
  have srv : (s.arrived p frags m).srv = s.srv := (congrArg State.srv came :)
  have tick : (s.arrived p frags m).que.tickets = [] := (congrArg Que.tickets came.que).trans idle
  have choice : choiceIn l e.seqId = .token r.token := by rw [choiceIn, found]
  have made {P : State → Prop} {U : State} := completes_tokens (P := P) (U := U) (frags := frags) takes body lead there fresh
  rw [choice] at made
  generalize s.arrived p frags m = A at *
  have knownA := (State.seqOf_congr (congrArg Srv.seqs srv) e.seqId).trans known
  have openA := (congrArg Srv.openLanes srv).trans open_
  obtain ⟨u, serves, uTick, ⟨v, w, noted, now⟩, settles⟩ := State.settleOpen_gives (th := s.deliveryTime) (t := r.token)
    openA role knownA asked free runs goes room more
  have openU : u.srv.openLanes = [(i, e)] := (congrArg Srv.openLanes serves :).trans openA
  have cmdsU : u.srv.waitCmds = [] := (congrArg Srv.waitCmds serves :).trans ((congrArg Srv.waitCmds srv).trans cmds)
  have farU : u.srv.farWait = [] := (congrArg Srv.farWait serves :).trans ((congrArg Srv.farWait srv).trans far)
  have none_ : u.srv.openLanes.filter (fun y => y != (i, e)) = [] := by rw [openU]; simp
  have after := State.afterSettle_runs (s := { u with srv := { u.srv with openLanes := u.srv.openLanes.filter fun y => y != (i, e) } })
    e.seqId cmdsU farU
  have there' : ({ u with srv := { u.srv with openLanes := u.srv.openLanes.filter fun y => y != (i, e) } } : State).seqOf e.seqId = _ :=
    (State.seqOf_congr rfl _).trans now
  have same : ({ u with srv := { u.srv with openLanes := u.srv.openLanes.filter fun y => y != (i, e) } } : State).srv.openLanes = [] ∧
    ({ u with srv := { u.srv with openLanes := u.srv.openLanes.filter fun y => y != (i, e) } } : State).que.tickets = [] := ⟨none_, uTick.trans tick⟩
  generalize ({ u with srv := { u.srv with openLanes := u.srv.openLanes.filter fun y => y != (i, e) } } : State) = U at *
  obtain ⟨openT, still, -, -, tickets⟩ := after
  obtain ⟨y, hy, n⟩ := still _ there'
  refine made settles (tickets.trans same.2) ⟨y, hy, ?_, ?_, ?_, ?_, ?_, ?_, openT.trans same.1⟩
  · exact (congrArg Seq.req n :)
  · exact (congrArg Seq.inputs n :)
  · exact (congrArg Seq.state n :)
  · exact ((congrArg Seq.len n :)).trans (congrArg (fun z : Seq => z.len + (e.chunkLast + 1)) noted :)
  · exact (congrArg Seq.fails n :)
  · exact (congrArg Seq.lastToken n :)

/-- No choice for the one lane open. -/
theorem completes_tokens_missing (nothing : l = []) (files : s.kv.files = []) :
    Completes (.tokensMsg p frags m) s fun t => ∃ v : Seq, t.seqOf e.seqId = some v ∧ v.fails = q.fails + 1 ∧ v.req = q.req ∧
      v.inputs = q.inputs ∧ v.state = q.state ∧ v.len = q.len ∧ t.srv.openLanes = [] ∧ t.mem = s.mem ∧
      s.sameRegs t [R.QUE_REJECTS.RING_FULL] := by
  have came := s.arrived_onlySends p frags m
  have srv : (s.arrived p frags m).srv = s.srv := (congrArg State.srv came :)
  have kv : (s.arrived p frags m).kv = s.kv := (congrArg State.kv came :)
  have tick : (s.arrived p frags m).que.tickets = [] := (congrArg Que.tickets came.que).trans idle
  have choice : choiceIn l e.seqId = .none := by rw [nothing]; rfl
  have made {P : State → Prop} {U : State} := completes_tokens (P := P) (U := U) (frags := frags) takes body lead there fresh
  rw [choice] at made
  generalize s.arrived p frags m = A at *
  have knownA := (State.seqOf_congr (congrArg Srv.seqs srv) e.seqId).trans known
  have settles (got : Nat → LaneEntry → Option (Bool × LaneEnd)) (told : got i e = some (true, .none)) :=
    State.settleOpen_fails (th := s.deliveryTime) ((congrArg Srv.openLanes srv).trans open_) told role knownA asked free
  have failed : (A.failLane e.seqId).seqOf e.seqId = some { q with fails := q.fails + 1 } := State.modSeq_same (f := fun q => { q with fails := q.fails + 1 }) knownA rfl
  have serves : A.servesOn (A.failLane e.seqId) := State.modSeq_servesOn ..
  have openF : (A.failLane e.seqId).srv.openLanes = [(i, e)] :=
    (congrArg Srv.openLanes serves :).trans ((congrArg Srv.openLanes srv).trans open_)
  have cmdsF : (A.failLane e.seqId).srv.waitCmds = [] := (congrArg Srv.waitCmds serves :).trans ((congrArg Srv.waitCmds srv).trans cmds)
  have farF : (A.failLane e.seqId).srv.farWait = [] := (congrArg Srv.farWait serves :).trans ((congrArg Srv.farWait srv).trans far)
  have kept : (A.failLane e.seqId).kv = s.kv ∧ (A.failLane e.seqId).mem = s.mem ∧ (A.failLane e.seqId).regs = s.regs ∧
      (A.failLane e.seqId).que.tickets = [] := by
    unfold State.failLane State.modSeq
    split <;> exact ⟨kv, came.mem, came.regs, tick⟩
  generalize A.failLane e.seqId = F at *
  obtain ⟨kvF, memF, regsF, tickF⟩ := kept
  have none_ : F.srv.openLanes.filter (fun y => y != (i, e)) = [] := by rw [openF]; simp
  have after := State.afterSettle_runs (s := { F with srv := { F.srv with openLanes := F.srv.openLanes.filter fun y => y != (i, e) } })
    e.seqId cmdsF farF
  have quiet := State.afterSettle_still (s := { F with srv := { F.srv with openLanes := F.srv.openLanes.filter fun y => y != (i, e) } })
    cmdsF farF ((congrArg Kv.files kvF).trans files)
  have there' : ({ F with srv := { F.srv with openLanes := F.srv.openLanes.filter fun y => y != (i, e) } } : State).seqOf e.seqId = _ :=
    (State.seqOf_congr rfl _).trans failed
  have same : ({ F with srv := { F.srv with openLanes := F.srv.openLanes.filter fun y => y != (i, e) } } : State).srv.openLanes = [] ∧
    ({ F with srv := { F.srv with openLanes := F.srv.openLanes.filter fun y => y != (i, e) } } : State).que.tickets = [] ∧
    ({ F with srv := { F.srv with openLanes := F.srv.openLanes.filter fun y => y != (i, e) } } : State).mem = s.mem ∧
    ({ F with srv := { F.srv with openLanes := F.srv.openLanes.filter fun y => y != (i, e) } } : State).regs = s.regs := ⟨none_, tickF, memF, regsF⟩
  generalize ({ F with srv := { F.srv with openLanes := F.srv.openLanes.filter fun y => y != (i, e) } } : State) = U at *
  obtain ⟨openT, still, -, -, tickets⟩ := after
  obtain ⟨y, hy, n⟩ := still _ there'
  refine made settles (tickets.trans same.2.1) ⟨y, hy, ?_, ?_, ?_, ?_, ?_, openT.trans same.1, quiet.1.trans same.2.2.1,
    fun f hf => (quiet.2 f hf).trans (State.get_of_regs same.2.2.2 f)⟩
  · exact (congrArg Seq.fails n :)
  · exact (congrArg Seq.req n :)
  · exact (congrArg Seq.inputs n :)
  · exact (congrArg Seq.state n :)
  · exact (congrArg Seq.len n :)

end

end

/-! ### The decision that is overdue (R154) -/

theorem Table.insert_ne_nil {α : Type} (k : Nat) (v : α) (t : Table α) : Table.insert k v t ≠ [] := by
  cases t with
  | nil => nofun
  | cons x t =>
    rw [Table.insert]
    split
    · nofun
    · split <;> nofun

/-- Members that have not replied stand as refusals. -/
theorem refusals_ne_nil (d : Nat) (l : List Nat) (t : Table Nat) :
    (d :: l).foldl (fun (t : Table Nat) d => Table.insert d 0xFF t) t ≠ [] := by
  induction l generalizing d t with
  | nil => exact Table.insert_ne_nil d 0xFF t
  | cons x l ih => exact ih x (Table.insert d 0xFF t)

/-- A decision that members are still missing for aborts the commit. -/
theorem State.decideCommit_aborts {s : State} {c : LeadCommit} {d : Nat} {rest : List Nat} (lead : s.cfg.lead = some c)
    (open_ : c.decided = false) (waits : c.waiting = d :: rest) : ∃ x : Nat × Nat, s.decideCommit = s.abortCommit c x.1 x.2 := by
  rw [State.decideCommit, lead]
  dsimp only
  rw [if_neg (by rw [open_]; decide), waits]
  split
  · next none_ => exact absurd none_ (refusals_ne_nil d rest c.refused)
  · next x _ _ => exact ⟨x, rfl⟩

/-- An abort frees the sets, tells the members, and completes the packet that asked for the commit. -/
theorem State.abortCommit_aborts {s : State} {c : LeadCommit} {T : Ticket} {i : Nat} (dev detail : Nat) (alive : s.flt.dead = false)
    (tickets : s.que.tickets = [T]) (mine : T.no = c.ticket) (host : T.origin = .host i) :
    let t := s.abortCommit c dev detail
    t.cfg.lead = none ∧ t.cfg.prepared = none ∧ t.cfg.lockCluster = false ∧ t.cfg.lockDevice = false ∧ t.que.tickets = [] ∧
      t.get R.CFG_COUNTS.ABORTS = min (2 ^ R.CFG_COUNTS.ABORTS.width - 1) (s.get R.CFG_COUNTS.ABORTS + 1) ∧
      (∀ x ∈ s.others, (s.route x).isSome = true → t.told x (.cfgAbort c.epoch)) ∧ t.mem = s.mem ∧ t.pending = s.pending := by
  have sends := s.sendAll_onlySends s.others (.cfgAbort c.epoch)
  have told (d : Nat) (hd : d ∈ s.others) (way : (s.route d).isSome = true) := State.sendAll_told (.cfgAbort c.epoch) alive hd way
  have kept : Kept (s.sendAll s.others (.cfgAbort c.epoch)) (s.abortCommit c dev detail) :=
    State.finish_kept (State.bump_kept (State.bump_kept (State.lockSets_kept (.refl _))))
  unfold State.abortCommit at kept ⊢
  dsimp only at kept ⊢
  generalize s.sendAll s.others (.cfgAbort c.epoch) = A at *
  generalize hB : ({ A with cfg := { A.cfg with lead := none, prepared := none } } : State).lockSets false false = B at *
  have sets : B.cfg.lead = none ∧ B.cfg.prepared = none ∧ B.cfg.lockCluster = false ∧ B.cfg.lockDevice = false := by
    rw [← hB, State.lockSets, State.refreshCfg_cfg]
    exact ⟨rfl, rfl, rfl, rfl⟩
  have same : B.que = A.que ∧ B.mem = A.mem ∧ B.pending = A.pending ∧ B.get R.CFG_COUNTS.ABORTS = A.get R.CFG_COUNTS.ABORTS := by
    rw [← hB, State.lockSets]
    exact ⟨State.refreshCfg_que _, State.refreshCfg_mem _, State.refreshCfg_pending _, State.refreshCfg_get _ (by decide)⟩
  obtain ⟨que, mem, pending, aborts⟩ := same
  have only : ((B.bump R.CFG_COUNTS.ABORTS).bump R.CFG_COUNTS.CONFLICTS).que.tickets = [T] :=
    (congrArg Que.tickets (que.trans sends.que)).trans tickets
  have counts : ((B.bump R.CFG_COUNTS.ABORTS).bump R.CFG_COUNTS.CONFLICTS).get R.CFG_COUNTS.ABORTS =
      min (2 ^ R.CFG_COUNTS.ABORTS.width - 1) (s.get R.CFG_COUNTS.ABORTS + 1) := by
    rw [State.bump, State.get_put_other _ _ (by decide), State.get_bump_same, aborts, sends.get]
  have rest : ((B.bump R.CFG_COUNTS.ABORTS).bump R.CFG_COUNTS.CONFLICTS).cfg = B.cfg ∧
      ((B.bump R.CFG_COUNTS.ABORTS).bump R.CFG_COUNTS.CONFLICTS).mem = s.mem ∧
      ((B.bump R.CFG_COUNTS.ABORTS).bump R.CFG_COUNTS.CONFLICTS).pending = s.pending :=
    ⟨rfl, mem.trans sends.mem, pending.trans sends.pending⟩
  generalize (B.bump R.CFG_COUNTS.ABORTS).bump R.CFG_COUNTS.CONFLICTS = C at *
  obtain ⟨cfg, memC, pendC⟩ := rest
  rw [← mine, State.finish_only _ only host] at kept ⊢
  generalize (⟨T.packet.tag, T.packet.opcode, _, true, _, _, _, _⟩ : Completion) = k at *
  have posts := State.Posts.postCq (C.withTickets []) i k
  have shape : ({ C with que := { C.que with tickets := [] } } : State) = C.withTickets [] := rfl
  rw [shape] at kept ⊢
  have emptied : (C.withTickets []).cfg = B.cfg ∧ (C.withTickets []).mem = s.mem ∧ (C.withTickets []).pending = s.pending ∧
      (C.withTickets []).que.tickets = [] ∧ (C.withTickets []).get R.CFG_COUNTS.ABORTS = C.get R.CFG_COUNTS.ABORTS :=
    ⟨cfg, memC, pendC, rfl, rfl⟩
  generalize C.withTickets [] = D at *
  obtain ⟨cfgD, memD, pendD, tickD, getD⟩ := emptied
  generalize D.postCq i k = E at *
  obtain ⟨lead, prepared, cluster, device⟩ := sets
  have cfgE : E.cfg = B.cfg := posts.cfg.trans cfgD
  rw [cfgE]
  exact ⟨lead, prepared, cluster, device, posts.tickets.trans tickD,
    ((posts.get _ ⟨by decide, .inr (by decide)⟩).trans getD).trans counts, fun x hx way => State.told_of_kept (told x hx way) kept,
    posts.mem.trans memD, posts.pending.trans pendD⟩

end Sys2Proof.Machine

open Sys2Proof Sys2Proof.Machine

/-- Settles O49: a reply that counts strikes its member off and decides where it is the last one and no schedule runs; a completion
ends its member's part of the one packet open, and the last part completes it; tokens settle the one lane open; a decision that is
overdue aborts. -/
theorem messagesToTheLead : Obligations.MessagesToTheLead := by
  unfold Obligations.MessagesToTheLead
  refine ⟨fun s p frags m takes => ⟨?replies, ?completions, ?tokens⟩, fun s alive => ⟨?overdue, ?waits⟩⟩
  case replies =>
    intro e c idle lead epoch open_ waited inTime
    subst epoch
    refine ⟨fun body => ?_, fun k body sched => ?_⟩
    · have runs : exec (.cfgReady p frags m) s = s.act fun s => s.ctrlIn p frags m fun s => s.replyIn m.src c.epoch none := by
        have : exec (.cfgReady p frags m) s = s.act fun s => s.ctrlIn p frags m fun s => match m.body with
          | .cfgReady e => s.replyIn m.src e none
          | _ => s := rfl
        rw [this, body]
      exact ⟨fun more => completes_reply_waits takes idle lead open_ waited inTime none runs more, fun off last none_ =>
        completes_reply_decides takes idle lead open_ waited inTime runs off last none_⟩
    · have runs : exec (.cfgConflictReply p frags m) s = s.act fun s => s.ctrlIn p frags m fun s => s.replyIn m.src c.epoch (some k) := by
        have : exec (.cfgConflictReply p frags m) s = s.act fun s => s.ctrlIn p frags m fun s => match m.body with
          | .cfgConflict e k => s.replyIn m.src e (some k)
          | _ => s := rfl
        rw [this, body]
      exact completes_reply_waits takes idle lead open_ waited inTime (some k) runs (.inl sched)
  case completions =>
    intro T i d st k r0 r1 data tickets body other barrier fence
    have came := s.arrived_onlySends p frags m
    have runs : exec (.completionMsg p frags m) s = s.act fun s => s.ctrlIn p frags m fun s => s.completionIn i st k r0 r1 data := by
      have : exec (.completionMsg p frags m) s = s.act fun s => s.ctrlIn p frags m fun s => match m.body with
        | .completion i st d r0 r1 data => s.completionIn i st d r0 r1 data
        | _ => s := rfl
      rw [this, body]
    have only {rest : List (Nat × Nat)} (awaits : T.awaiting = (d, i) :: rest) :=
      State.completionIn_only (s := s.arrived p frags m) (st := st) (k := k) (r0 := r0) (r1 := r1) (data := data)
        ((congrArg Que.tickets came.que).trans tickets) awaits (by rw [came.self]; exact other)
    refine ⟨fun w rest awaits differs => ?_, fun r awaits none_ host op plain => ?_⟩
    · refine completes_taken_waits takes runs (only awaits) barrier fence (fun empty => ?_) ⟨rfl, came.mem, fun f => came.get f⟩
      have kept : w ∈ (w :: rest).filter fun x => x.1 != d := List.mem_filter.2 ⟨List.mem_cons_self, by simpa using differs⟩
      rw [show (w :: rest).filter (fun x => x.1 != d) = [] from empty] at kept
      cases kept
    · refine completes_taken_last (r := ⟨d, st, k, r0, r1, data⟩) takes runs (only awaits) barrier rfl (by rw [none_]; rfl) plain host op
        fun t posts => ⟨posts.tickets, posts.mem.trans came.mem, posts.frw.trans came.frw, posts.cfg.trans came.cfg,
          posts.srv.trans (congrArg State.srv came :)⟩
  case tokens =>
    intro i k l kept e q x idle body lead cmds far open_ role known asked free runs there fresh
    exact ⟨fun r found goes room more => completes_tokens_given takes idle body lead cmds far open_ role known asked free there fresh
      runs found goes room more, fun nothing files => completes_tokens_missing takes idle body lead cmds far open_ role known asked free
      there fresh nothing files⟩
  case overdue =>
    intro c T i d rest off lead open_ tickets mine host none_ waits
    obtain ⟨x, aborts⟩ := State.decideCommit_aborts lead open_ waits
    have ends := State.abortCommit_aborts (c := c) x.1 x.2 (State.dead_of_alive alive) tickets mine host
    have effect : (if s.inSchedule then s else s.decideCommit) = s.abortCommit c x.1 x.2 := by rw [off, aborts]; rfl
    generalize s.abortCommit c x.1 x.2 = t at *
    obtain ⟨noLead, prepared, cluster, device, done, counted, told, mem, pending⟩ := ends
    exact completes_act (f := fun s => if s.inSchedule then s else s.decideCommit) (t := t) alive rfl effect done pending
      ⟨noLead, prepared, cluster, device, done, counted, told, mem⟩
  case waits =>
    intro idle quiet
    have effect : (if s.inSchedule then s else s.decideCommit) = s := by
      rcases quiet with sched | none_
      · exact if_pos sched
      · rw [State.decideCommit, none_]
        exact ite_self s
    exact completes_act (f := fun s => if s.inSchedule then s else s.decideCommit) (t := s) alive rfl effect idle rfl rfl

end

section
/-!
SUPPORT. Diagnostics (O19): the packets that begin them, on a device where nothing is in their way.
-/

namespace Sys2Proof.Machine

/-! ### The operand of a diagnostic -/

theorem bits_setBits_named (v lo w x : Nat) : bits (setBits v lo w x) lo w = x % 2 ^ w := by
  refine Nat.eq_of_testBit_eq fun j => ?_
  rw [testBit_bits, Nat.testBit_mod_two_pow, testBit_setBits]
  by_cases hj : j < w
  · rw [if_pos (by omega), Nat.add_sub_cancel_left]
  · simp [hj]

/-- What the operand of a packet with a pattern names. -/
theorem pattern_operand (p : Packet) (k : Nat) (small : k < 2 ^ 8) :
    bits (p.pattern k).p0 16 8 = k ∧ bits (p.pattern k).p0 8 4 = bits p.p0 8 4 ∧ bits (p.pattern k).p0 8 5 = bits p.p0 8 5 ∧
      bits (p.pattern k).p0 0 6 = bits p.p0 0 6 :=
  ⟨(bits_setBits_named ..).trans (Nat.mod_eq_of_lt small), bits_setBits_apart _ _ (.inl (by decide)), bits_setBits_apart _ _ (.inl (by decide)),
    bits_setBits_apart _ _ (.inl (by decide))⟩

/-! ### A test of a stack (R411, R412) -/

/-- The results of a test of a stack. -/
def tgFields (n : Nat) : List Field :=
  [R.STACK_TG_RESULT.MISMATCHES n, R.STACK_TG_RESULT.UNCORRECTABLE n, R.STACK_TG_RESULT.FIRST_PC n, R.STACK_TG_RESULT.VALID n]

/-- The results of tests of stack `n` are cleared, and the stack is as `f` leaves it. -/
def State.tests (s : State) (n : Nat) (f : Stack → Stack) : State :=
  ((((s.put (R.STACK_TG_RESULT.MISMATCHES n) 0).put (R.STACK_TG_RESULT.UNCORRECTABLE n) 0).put (R.STACK_TG_RESULT.FIRST_PC n) 0).putBit
    (R.STACK_TG_RESULT.VALID n) false).modStack n f

theorem State.stack_modStack_other (s : State) {n k : Nat} (f : Stack → Stack) (h : k ≠ n) : (s.modStack n f).stack k = s.stack k :=
  Table.get_set_other _ _ _ h

/-- Fields that are cleared one after the other. -/
def State.zeroed (s : State) (l : List Field) : State := l.foldl (fun (t : State) f => t.put f 0) s

theorem State.zeroed_only (s : State) (l : List Field) : s.onlyRegs (s.zeroed l) l := by
  have key (m : List Field) (sub : m ⊆ l) (t : State) (only : s.onlyRegs t l) : s.onlyRegs (t.zeroed m) l := by
    induction m generalizing t with
    | nil => exact only
    | cons f m ih => exact ih (List.cons_subset.1 sub).2 _ (only.put (List.cons_subset.1 sub).1 0)
  exact key l (List.Subset.refl l) s (.refl s l)

theorem State.zeroed_zero (s : State) {l : List Field} (apart : l.Pairwise fun f g => f.key ≠ g.key) : ∀ f ∈ l, (s.zeroed l).get f = 0 := by
  induction l generalizing s with
  | nil => nofun
  | cons f l ih =>
    obtain ⟨first, apart⟩ := List.pairwise_cons.1 apart
    intro g hg
    rcases List.mem_cons.1 hg with rfl | hg
    · exact (((s.put g 0).zeroed_only l).get first).trans ((State.get_put_same ..).trans (Nat.zero_mod _))
    · exact ih _ apart g hg

theorem State.tests_shows (s : State) (n : Nat) (f : Stack → Stack) :
    (s.tests n f).stack n = f (s.stack n) ∧ (∀ k, k ≠ n → (s.tests n f).stack k = s.stack k) ∧ (∀ x ∈ tgFields n, (s.tests n f).get x = 0) ∧
      (s.tests n f).que = s.que ∧ s.leaves (s.tests n f) (tgFields n) := by
  have only := s.zeroed_only (tgFields n)
  have zero := s.zeroed_zero (l := tgFields n) (by simp [tgFields, Field.key, R.STACK_TG_RESULT.MISMATCHES, R.STACK_TG_RESULT.UNCORRECTABLE,
    R.STACK_TG_RESULT.FIRST_PC, R.STACK_TG_RESULT.VALID])
  exact ⟨State.stack_modStack .., fun k other => State.stack_modStack_other _ _ other, zero, rfl, only.leaves⟩

/-- A stack on which the run of pattern `k` has begun; pattern 7 trains its lanes. -/
def Stack.started (u : Stack) (k no regions micros : Nat) : Stack :=
  if k = 7 then { u with training := some no } else { u with traffic := some ⟨k, if 4 ≤ k ∧ k ≤ 5 then regions else 0, micros, no⟩ }

/-- A test or training that nothing keeps from starting. -/
theorem State.trafficHere_starts {s : State} {q : Packet} {n k : Nat} (no : Nat) (stack : bits q.p0 8 4 = n) (pattern : bits q.p0 16 8 = k)
    (idle : s.idle = true) (traffic : (s.stack n).traffic = none) (training : (s.stack n).training = none)
    (allowed : 4 ≤ k → k ≤ 5 → s.get (R.STACK_TG_REGIONS.ALLOW n) ≠ 0) :
    s.trafficHere no q = s.tests n fun u => u.started k no (s.get (R.STACK_TG_REGIONS.ALLOW n)) q.p1 := by
  have writes : (k == 4 || k == 5) = decide (4 ≤ k ∧ k ≤ 5) := by
    rw [Bool.eq_iff_iff]
    simp only [Bool.or_eq_true, beq_iff_eq, decide_eq_true_eq]
    omega
  have may : (!s.idle || (s.stack n).traffic.isSome || (s.stack n).training.isSome ||
      ((k == 4 || k == 5) && s.get (R.STACK_TG_REGIONS.ALLOW n) == 0)) = false := by
    rw [idle, traffic, training, writes]
    simp only [Bool.not_true, Option.isSome_none, Bool.or_self, Bool.false_or, Bool.and_eq_false_iff, decide_eq_false_iff_not, beq_eq_false_iff_ne]
    by_cases range : 4 ≤ k ∧ k ≤ 5
    · exact .inr (allowed range.1 range.2)
    · exact .inl range
  unfold State.trafficHere Stack.started
  dsimp only
  rw [stack, pattern, may, writes, if_neg (by decide)]
  by_cases seven : k = 7
  · simp only [seven, if_pos]
    rfl
  · simp only [seven, if_false, beq_iff_eq, decide_eq_true_eq]
    rfl

section
variable {s : State} {q : Packet} {n k : Nat} (takes : s.takes q) (named : bits q.p0 0 6 = s.self)
include takes named

/-- A packet for the device that takes it, which begins work that ends later. -/
theorem completes_begins {i : Instr} {start : State → Nat → Packet → State} {P : State → Prop} (row : Instr.submits i = some (q, none, none))
    (unpaid : readsPayload s q = false)
    (runs : ∀ (u : State) (T : Ticket), T.packet = q → u.runHost T = u.onDevice T (bits q.p0 0 6) start)
    (rest : (start (s.holding (s.nextTicket q none none)) s.que.nextNo q).que = (s.holding (s.nextTicket q none none)).que)
    (waiting : (start (s.holding (s.nextTicket q none none)) s.que.nextNo q).pending = s.pending)
    (h : P (start (s.holding (s.nextTicket q none none)) s.que.nextNo q)) : Completes i s P := by
  have here : (s.holding (s.nextTicket q none none)).runHost (s.nextTicket q none none) =
      start (s.holding (s.nextTicket q none none)) s.que.nextNo q := by
    rw [runs _ _ rfl, State.onDevice]
    exact if_pos (beq_iff_eq.2 named)
  exact completes_submit_open (t := s.nextTicket q none none) takes row (State.submit_holding takes unpaid) here
    (congrArg Que.tickets rest) rfl rfl (.inr rfl) waiting h

/-- The packet that begins a test of a stack. -/
theorem completes_traffic {i : Instr} (op : q.opcode = 0x70)
    (stack : bits q.p0 8 4 = n) (pattern : bits q.p0 16 8 = k) (idle : s.idle = true) (traffic : (s.stack n).traffic = none)
    (training : (s.stack n).training = none) (allowed : 4 ≤ k → k ≤ 5 → s.get (R.STACK_TG_REGIONS.ALLOW n) ≠ 0)
    (row : Instr.submits i = some (q, none, none)) (unpaid : readsPayload s q = false) :
    Completes i s fun t => t.stack n = (s.stack n).started k s.que.nextNo (s.get (R.STACK_TG_REGIONS.ALLOW n)) q.p1 ∧
      (∀ k, k ≠ n → t.stack k = s.stack k) ∧ (∀ f ∈ tgFields n, t.get f = 0) ∧
      t.que = (s.accepted q none none).que ∧ s.leaves t (tgFields n) := by
  have starts := State.trafficHere_starts (s := s.holding (s.nextTicket q none none)) s.que.nextNo stack pattern idle traffic training allowed
  obtain ⟨here, others, zero, que, leaves⟩ := (s.holding (s.nextTicket q none none)).tests_shows n
    fun u => u.started k s.que.nextNo (s.get (R.STACK_TG_REGIONS.ALLOW n)) q.p1
  refine completes_begins takes named (start := State.trafficHere) row unpaid (fun u T hT => ?_) (starts ▸ que) ?_ ?_
  · rw [State.runHost, hT, op]
    rfl
  · rw [starts]
    rfl
  · rw [starts]
    exact ⟨here, others, zero, que.trans (by rw [← State.holding_accepted q none none takes.2.2.1]), leaves⟩

end

/-! ### A test of a port (R435, R471, R475) -/

/-- The results of a test of a port. -/
def testFields (p : Nat) : List Field := [R.LINK_TEST_RESULT.ERRORS p, R.LINK_TEST_RESULT.ERRORED_LANES p, R.LINK_TEST_RESULT.VALID p]

theorem testFields_apart (p : Nat) : (testFields p).Pairwise fun f g => f.key ≠ g.key := by
  simp [testFields, Field.key, R.LINK_TEST_RESULT.ERRORS, R.LINK_TEST_RESULT.ERRORED_LANES, R.LINK_TEST_RESULT.VALID]

/-- What shows the state of ports is none of their results. -/
theorem testFields_down {p : Nat} {f : Field} (hf : f ∈ testFields p) : ∀ g ∈ downFields p, f.key ≠ g.key := by
  simp only [testFields, List.mem_cons, List.not_mem_nil, or_false] at hf
  simp only [downFields, List.forall_mem_cons]
  rcases hf with rfl | rfl | rfl <;>
    simp only [Field.key, R.LINK_TEST_RESULT.ERRORS, R.LINK_TEST_RESULT.ERRORED_LANES, R.LINK_TEST_RESULT.VALID, R.LINK_STATUS.STATE,
      R.LINK_STATUS.PEER_VALID, R.LINK_COUNTS2.RETRAINS, R.GLB_READY.LINKS_OK] <;>
    exact ⟨by omega, by omega, by omega, by omega, nofun⟩

/-- A test is in progress on port `p`. -/
def State.testOn (s : State) (p : Nat) (T : LinkTest) : State := s.modLink p fun l => { l with test := some T }

theorem State.testOn_shows (s : State) (p : Nat) (T : LinkTest) :
    (s.testOn p T).link p = { s.link p with test := some T } ∧ (∀ r, r ≠ p → (s.testOn p T).link r = s.link r) ∧
      (s.testOn p T).regs = s.regs ∧ (s.testOn p T).que = s.que ∧ (s.testOn p T).mem = s.mem ∧ (s.testOn p T).out = s.out ∧
      (s.testOn p T).pending = s.pending :=
  ⟨State.link_modLink_same .., fun _ other => State.link_modLink_other s _ other, rfl, rfl, rfl, rfl, rfl⟩

theorem State.zeroed_state (s : State) (p : Nat) : (s.zeroed (testFields p)).portUp p = s.portUp p := by
  have same := (s.zeroed_only (testFields p)).get (f := R.LINK_STATUS.STATE p) fun g hg =>
    (testFields_down hg _ (List.mem_cons_self ..)).symm
  rw [State.portUp, same, State.portUp]

/-- A test of a port that is UP takes it out of UP. -/
theorem State.linkTestHere_up {s : State} {q : Packet} {p k : Nat} (no : Nat) (port : bits q.p0 8 5 = p) (pattern : bits q.p0 16 8 = k)
    (idle : s.idle = true) (alone : s.peerRuns p = false) (free : (s.link p).test = none) (up : s.portUp p = true) :
    s.linkTestHere no q = ((s.zeroed (testFields p)).leaveUp p (if k = 5 then linkTrain else linkTest)).testOn p ⟨k, no⟩ := by
  have still := (s.zeroed_state p).trans up
  have shape : ((s.put (R.LINK_TEST_RESULT.ERRORS p) 0).put (R.LINK_TEST_RESULT.ERRORED_LANES p) 0).putBit (R.LINK_TEST_RESULT.VALID p) false =
    s.zeroed (testFields p) := rfl
  unfold State.linkTestHere
  dsimp only
  rw [port, pattern, idle, alone, free, up, shape]
  generalize s.zeroed (testFields p) = Z at *
  simp only [still, if_true, beq_iff_eq]
  rfl

/-- A pattern that is only transmitted, on a port that is not UP. -/
theorem State.linkTestHere_alone {s : State} {q : Packet} {p : Nat} (no : Nat) (port : bits q.p0 8 5 = p) (pattern : bits q.p0 16 8 = 3)
    (idle : s.idle = true) (alone : s.peerRuns p = false) (free : (s.link p).test = none) (out : s.portUp p = false)
    (on : s.get (R.LINK_STATUS.STATE p) ≠ linkDown) (other : s.get (R.LINK_STATUS.STATE p) ≠ linkTest) :
    s.linkTestHere no q = (((s.zeroed (testFields p)).put (R.LINK_STATUS.STATE p) linkTest).refreshLinks).testOn p ⟨3, no⟩ := by
  have still := (s.zeroed_state p).trans out
  have shape : ((s.put (R.LINK_TEST_RESULT.ERRORS p) 0).put (R.LINK_TEST_RESULT.ERRORED_LANES p) 0).putBit (R.LINK_TEST_RESULT.VALID p) false =
    s.zeroed (testFields p) := rfl
  have may : (3 == 3 && s.get (R.LINK_STATUS.STATE p) != linkDown && s.get (R.LINK_STATUS.STATE p) != linkTest) = true := by
    simp [on, other]
  unfold State.linkTestHere
  dsimp only
  rw [port, pattern, idle, alone, free, out, shape, may]
  generalize s.zeroed (testFields p) = Z at *
  simp only [still]
  rfl

section
variable {s : State} {q : Packet} {p : Nat} (takes : s.takes q) (named : bits q.p0 0 6 = s.self) (op : q.opcode = 0x71)
  (port : bits q.p0 8 5 = p) (idle : s.idle = true) (alone : s.peerRuns p = false) (free : (s.link p).test = none)
include takes named op port idle alone free

/-- The packet that takes a port out of UP for a test. -/
theorem completes_linkTest {i : Instr} {k : Nat} (pattern : bits q.p0 16 8 = k) (row : Instr.submits i = some (q, none, none))
    (unpaid : readsPayload s q = false) (inside : p < 24) (up : s.portUp p = true) (closed : s.coll.opened = [])
    (none_in : (s.link p).rx = none) (still : s.noColl) : Completes i s fun t =>
      t.get (R.LINK_STATUS.STATE p) = (if k = 5 then linkTrain else linkTest) ∧ t.isSet (R.LINK_STATUS.PEER_VALID p) = false ∧
        (k = 5 → t.isSet R.GLB_READY.LINKS_OK = false) ∧ (t.link p).test = some ⟨k, s.que.nextNo⟩ ∧ (t.link p).replay = [] ∧
        s.onlyLink t p ∧ (∀ f ∈ testFields p, t.get f = 0) ∧ t.que = (s.accepted q none none).que ∧
        s.leaves t (testFields p ++ downFields p) := by
  have starts := State.linkTestHere_up (s := s.holding (s.nextTicket q none none)) s.que.nextNo port pattern idle alone free up
  have held : (s.holding (s.nextTicket q none none)).que = (s.accepted q none none).que := by
    rw [State.holding_accepted q none none takes.2.2.1]
  have only := (s.holding (s.nextTicket q none none)).zeroed_only (testFields p)
  have zero := (s.holding (s.nextTicket q none none)).zeroed_zero (testFields_apart p)
  have same : (s.holding (s.nextTicket q none none)).leaves ((s.holding (s.nextTicket q none none)).zeroed (testFields p)) (testFields p) := only.leaves
  have left := State.leaveUp_left (s := (s.holding (s.nextTicket q none none)).zeroed (testFields p)) (p := p)
    (st := if k = 5 then linkTrain else linkTest)
    (by rw [only.link]; exact none_in) ((congrArg (fun u : State => u.coll.opened) only.1 :).trans closed) (only.noColl still)
  have que := only.que
  have pending := only.pending
  have links (r : Nat) : ((s.holding (s.nextTicket q none none)).zeroed (testFields p)).link r = s.link r := by rw [only.link]; rfl
  generalize (s.holding (s.nextTicket q none none)).zeroed (testFields p) = Z at *
  generalize Z.leaveUp p (if k = 5 then linkTrain else linkTest) = L at *
  obtain ⟨test, others, regs, queT, memT, outT, pendT⟩ := L.testOn_shows p ⟨k, s.que.nextNo⟩
  generalize L.testOn p ⟨k, s.que.nextNo⟩ = t at *
  have get := State.get_of_regs regs
  have state : L.get (R.LINK_STATUS.STATE p) = if k = 5 then linkTrain else linkTest := by
    rw [left.state]
    split <;> rfl
  refine completes_begins takes named (start := State.linkTestHere) row unpaid (fun u T hT => ?_) ?_ ?_ ?_
  · rw [State.runHost, hT, op]
    rfl
  · rw [starts]
    exact queT.trans (left.que.trans que)
  · rw [starts]
    exact pendT.trans (left.pending.trans pending)
  · rw [starts]
    refine ⟨(get _).trans state, (State.isSet_of_get (get _)).trans left.peer, fun five => (State.isSet_of_get (get _)).trans
      (left.down (if_pos five) inside), by rw [test], by rw [test]; exact (congrArg Link.replay left.link :), fun r other =>
      (others r other).trans ((left.others r other).trans (links r)), fun f hf => ?_, queT.trans (left.que.trans (que.trans held)), ?_⟩
    · exact (get f).trans ((left.leaves.2.2 f (testFields_down hf)).trans (zero f hf))
    · refine ⟨memT.trans (left.leaves.1.trans same.1), outT.trans (left.leaves.2.1.trans same.2.1), fun f hf => ?_⟩
      exact (get f).trans ((left.leaves.2.2 f fun g hg => hf g (List.mem_append_right _ hg)).trans
        (same.2.2 f fun g hg => hf g (List.mem_append_left _ hg)))

/-- The packet that begins a pattern that is only transmitted, on a port that is not UP. -/
theorem completes_ssprq {i : Instr} (pattern : bits q.p0 16 8 = 3) (row : Instr.submits i = some (q, none, none))
    (unpaid : readsPayload s q = false) (out : s.portUp p = false)
    (on : s.get (R.LINK_STATUS.STATE p) ≠ linkDown) (other : s.get (R.LINK_STATUS.STATE p) ≠ linkTest) : Completes i s fun t =>
      t.get (R.LINK_STATUS.STATE p) = linkTest ∧ t.link p = { s.link p with test := some ⟨3, s.que.nextNo⟩ } ∧ s.onlyLink t p ∧
        (∀ f ∈ testFields p, t.get f = 0) ∧ t.que = (s.accepted q none none).que ∧
        s.leaves t (testFields p ++ [R.LINK_STATUS.STATE p, R.GLB_READY.LINKS_OK]) := by
  have starts := State.linkTestHere_alone (s := s.holding (s.nextTicket q none none)) s.que.nextNo port pattern idle alone free out on other
  have held : (s.holding (s.nextTicket q none none)).que = (s.accepted q none none).que := by
    rw [State.holding_accepted q none none takes.2.2.1]
  have only := (s.holding (s.nextTicket q none none)).zeroed_only (testFields p)
  have zero := (s.holding (s.nextTicket q none none)).zeroed_zero (testFields_apart p)
  have links (r : Nat) : ((s.holding (s.nextTicket q none none)).zeroed (testFields p)).link r = s.link r := by rw [only.link]; rfl
  have same : (s.holding (s.nextTicket q none none)).leaves ((s.holding (s.nextTicket q none none)).zeroed (testFields p)) (testFields p) := only.leaves
  have que := only.que
  have pending := only.pending
  generalize (s.holding (s.nextTicket q none none)).zeroed (testFields p) = Z at *
  have shows : Z.onlyRegs (Z.put (R.LINK_STATUS.STATE p) linkTest).refreshLinks [R.LINK_STATUS.STATE p, R.GLB_READY.LINKS_OK] :=
    ((State.onlyRegs.refl Z _).put (List.mem_cons_self ..) linkTest).put (List.mem_cons_of_mem _ (List.mem_cons_self ..)) _
  have state : (Z.put (R.LINK_STATUS.STATE p) linkTest).refreshLinks.get (R.LINK_STATUS.STATE p) = linkTest := by
    rw [(State.refreshLinks_only _).get (by
      simp only [List.forall_mem_cons, Field.key, R.LINK_STATUS.STATE, R.GLB_READY.LINKS_OK]
      exact ⟨by omega, nofun⟩)]
    exact State.get_put_fits _ _ (by decide : linkTest < 2 ^ 3)
  generalize (Z.put (R.LINK_STATUS.STATE p) linkTest).refreshLinks = L at *
  obtain ⟨test, others, regs, queT, memT, outT, pendT⟩ := L.testOn_shows p ⟨3, s.que.nextNo⟩
  generalize L.testOn p ⟨3, s.que.nextNo⟩ = t at *
  have get := State.get_of_regs regs
  refine completes_begins takes named (start := State.linkTestHere) row unpaid (fun u T hT => ?_) ?_ ?_ ?_
  · rw [State.runHost, hT, op]
    rfl
  · rw [starts]
    exact queT.trans (shows.que.trans que)
  · rw [starts]
    exact pendT.trans (shows.pending.trans pending)
  · rw [starts]
    refine ⟨(get _).trans state, by rw [test, shows.link, links], fun r other =>
      (others r other).trans ((shows.link r).trans (links r)), fun f hf => ?_, queT.trans (shows.que.trans (que.trans held)), ?_⟩
    · refine (get f).trans ((shows.get fun g hg => testFields_down hf g ?_).trans (zero f hf))
      simp only [List.mem_cons, List.not_mem_nil, or_false] at hg
      rcases hg with rfl | rfl <;> simp [downFields]
    · refine ⟨memT.trans (shows.leaves.1.trans same.1), outT.trans (shows.leaves.2.1.trans same.2.1), fun f hf => ?_⟩
      exact (get f).trans ((shows.2 f fun g hg => hf g (List.mem_append_right _ hg)).trans
        (same.2.2 f fun g hg => hf g (List.mem_append_left _ hg)))

end

/-! ### A self-test of partitions (R610) -/

/-- The partitions `l` go to their test mode. -/
def State.testModes (s : State) (l : List Nat) : State := l.foldl (fun (s : State) n => s.put (R.TILE_SEQ_CTRL.MODE n) 2) s

theorem modeKey_inj {i j : Nat} (h : i ≠ j) : (R.TILE_SEQ_CTRL.MODE i).key ≠ (R.TILE_SEQ_CTRL.MODE j).key := by
  simp only [Field.key, R.TILE_SEQ_CTRL.MODE]
  omega

theorem bitList_nodup (w v : Nat) : (bitList w v).Nodup := List.Nodup.filter _ List.nodup_range

theorem mem_bitList {w v i : Nat} : i ∈ bitList w v ↔ i < w ∧ bit v i = true := by simp [bitList]

theorem State.testModes_mode (s : State) (parts k : Nat) (hk : k < 16) : (s.testModes (bitList 16 parts)).get (R.TILE_SEQ_CTRL.MODE k) =
    if bit parts k then 2 else s.get (R.TILE_SEQ_CTRL.MODE k) := by
  by_cases named : bit parts k = true
  · rw [if_pos named]
    exact State.get_foldl_put (f := R.TILE_SEQ_CTRL.MODE) (v := fun _ => 2) (fun _ _ h => modeKey_inj h) (bitList_nodup ..)
      (mem_bitList.2 ⟨hk, named⟩)
  · rw [if_neg named]
    refine ((State.onlyRegs.refl s ((bitList 16 parts).map R.TILE_SEQ_CTRL.MODE)).foldl_put (v := fun _ => 2) fun i hi => List.mem_map_of_mem hi).2 _
      fun g hg => ?_
    obtain ⟨i, hi, rfl⟩ := List.mem_map.1 hg
    exact modeKey_inj fun e => named (e ▸ (mem_bitList.1 hi).2)

/-- A self-test that nothing keeps from starting. -/
theorem State.selftestHere_starts {s : State} {q : Packet} (no : Nat) (idle : s.idle = true) (free : s.flt.selftest = none)
    (unused : ∀ k ∈ bitList 16 (bits q.p0 16 16), s.usedBy s.cfg.instA k = [] ∧ s.usedBy s.cfg.instS k = []) :
    s.selftestHere no q = { s.testModes (bitList 16 (bits q.p0 16 16)) with flt := { s.flt with selftest := some (no, bits q.p0 16 16) } } := by
  have used : ((bitList 16 (bits q.p0 16 16)).any fun n => !(s.usedBy s.cfg.instA n).isEmpty || !(s.usedBy s.cfg.instS n).isEmpty) = false :=
    List.any_eq_false.2 fun k hk => by simp [unused k hk]
  have flt : (s.testModes (bitList 16 (bits q.p0 16 16))).flt = s.flt :=
    (congrArg State.flt ((State.onlyRegs.refl s ((bitList 16 (bits q.p0 16 16)).map R.TILE_SEQ_CTRL.MODE)).foldl_put (v := fun _ => 2)
      fun i hi => List.mem_map_of_mem hi).1 :)
  rw [State.testModes] at *
  unfold State.selftestHere
  dsimp only
  rw [idle, used, free, if_neg (by decide), flt]

/-- The packet that begins a self-test. -/
theorem completes_selftest {s : State} {q : Packet} {i : Instr} (takes : s.takes q) (named : bits q.p0 0 6 = s.self) (op : q.opcode = 0x72)
    (row : Instr.submits i = some (q, none, none)) (unpaid : readsPayload s q = false) (idle : s.idle = true) (free : s.flt.selftest = none)
    (unused : ∀ k ∈ bitList 16 (bits q.p0 16 16), s.usedBy s.cfg.instA k = [] ∧ s.usedBy s.cfg.instS k = []) : Completes i s fun t =>
      t.flt = { s.flt with selftest := some (s.que.nextNo, bits q.p0 16 16) } ∧
        (∀ k, k < 16 → t.get (R.TILE_SEQ_CTRL.MODE k) = if bit (bits q.p0 16 16) k then 2 else s.get (R.TILE_SEQ_CTRL.MODE k)) ∧
        t.que = (s.accepted q none none).que ∧ s.leaves t ((bitList 16 (bits q.p0 16 16)).map R.TILE_SEQ_CTRL.MODE) := by
  have starts := State.selftestHere_starts (s := s.holding (s.nextTicket q none none)) s.que.nextNo idle free unused
  have held : (s.holding (s.nextTicket q none none)).que = (s.accepted q none none).que := by
    rw [State.holding_accepted q none none takes.2.2.1]
  have mode (k : Nat) (hk : k < 16) := (s.holding (s.nextTicket q none none)).testModes_mode (bits q.p0 16 16) k hk
  have only : (s.holding (s.nextTicket q none none)).onlyRegs ((s.holding (s.nextTicket q none none)).testModes (bitList 16 (bits q.p0 16 16)))
      ((bitList 16 (bits q.p0 16 16)).map R.TILE_SEQ_CTRL.MODE) :=
    (State.onlyRegs.refl _ _).foldl_put (v := fun _ => 2) fun i hi => List.mem_map_of_mem hi
  have que := only.que
  have pending := only.pending
  have leaves := only.leaves
  generalize (s.holding (s.nextTicket q none none)).testModes (bitList 16 (bits q.p0 16 16)) = M at *
  refine completes_begins takes named (start := State.selftestHere) row unpaid (fun u T hT => ?_) ?_ ?_ ?_
  · rw [State.runHost, hT, op]
    rfl
  · rw [starts]
    exact que
  · rw [starts]
    exact pending
  · rw [starts]
    exact ⟨rfl, mode, que.trans held, leaves⟩

end Sys2Proof.Machine
end

section
/-!
SUPPORT. The ends of diagnostics (O19): results are shown, regions and stores are left as the run leaves them, and the packet that
began the work, the only one open, completes.
-/

namespace Sys2Proof.Machine

/-- An event that ends the only packet open. -/
theorem completes_finishes {c : Instr} {s u : State} {f : State → State} {T : Ticket} {i : Nat} {a : Answer} {P : State → Prop}
    (alive : s.alive = true) (runs : exec c s = s.act f) (effect : f s = u.finish T.no a) (tickets : u.que.tickets = [T])
    (host : T.origin = .host i) (waiting : u.pending = s.pending) (h : ∀ t, (u.withTickets []).Posts t → P t) : Completes c s P := by
  have finish := State.finish_only a tickets host
  have posts := State.Posts.postCq (u.withTickets []) i
    ⟨T.packet.tag, T.packet.opcode, a.status, true, a.detail, a.device.getD u.self, a.result0, a.result1⟩
  have shape : ({ u with que := { u.que with tickets := [] } } : State) = u.withTickets [] := rfl
  have none_ : (u.withTickets []).que.tickets = [] := rfl
  have pend : (u.withTickets []).pending = u.pending := rfl
  rw [shape] at finish
  generalize u.withTickets [] = B at *
  generalize B.postCq i _ = t at *
  exact completes_act (f := f) (t := t) alive runs (effect.trans finish) (posts.tickets.trans none_) (posts.pending.trans (pend.trans waiting)) (h t posts)

theorem Field.notPosted_of_lo {f : Field} (k : Nat) (lo : f.lo = k) (h : k < 64 ∧ k ≠ 16) : f.notPosted := by
  rw [Field.notPosted, lo]
  exact ⟨h.1, .inl h.2⟩

theorem State.Posts.stack {s t : State} (h : s.Posts t) (n : Nat) : t.stack n = s.stack n := by rw [State.stack, h.stk, State.stack]

/-! ### The end of a run of traffic (R411, R413) -/

/-- The results of a run as it ends. -/
def State.tgResults (s : State) (n mismatches uncorrectable : Nat) (firstPc : Option Nat) : State :=
  ((((s.modStack n fun k => { k with traffic := none }).put (R.STACK_TG_RESULT.MISMATCHES n) mismatches).put
    (R.STACK_TG_RESULT.UNCORRECTABLE n) uncorrectable).put (R.STACK_TG_RESULT.FIRST_PC n) (firstPc.getD 0)).putBit
    (R.STACK_TG_RESULT.VALID n) firstPc.isSome

/-- What such a run leaves in the regions that it may write. -/
def State.tgRegions (s : State) (n regions : Nat) (left : List (Nat × Bytes)) : State :=
  (left.filter fun e => stackBase n ≤ e.1 && inStack e.1 e.2.length && stackOf e.1 == n && bit regions (regionOf e.1) &&
    regionOf e.1 == regionOf (e.1 + e.2.length - 1)).foldl (fun (s : State) e => s.write e.1 e.2)
    ((bitList 48 regions).foldl (fun (s : State) r => s.zero (stackBase n + r * 2 ^ 30) (2 ^ 30)) s)

theorem tgKeys_apart (n : Nat) : (tgFields n).Pairwise fun f g => f.key ≠ g.key := by
  simp [tgFields, Field.key, R.STACK_TG_RESULT.MISMATCHES, R.STACK_TG_RESULT.UNCORRECTABLE, R.STACK_TG_RESULT.FIRST_PC, R.STACK_TG_RESULT.VALID]

theorem State.tgResults_shows (s : State) (n mis unc : Nat) (first : Option Nat) :
    let u := s.tgResults n mis unc first
    u.get (R.STACK_TG_RESULT.MISMATCHES n) = mis % 2 ^ 32 ∧ u.get (R.STACK_TG_RESULT.UNCORRECTABLE n) = unc % 2 ^ 16 ∧
      u.get (R.STACK_TG_RESULT.FIRST_PC n) = first.getD 0 % 2 ^ 6 ∧ u.isSet (R.STACK_TG_RESULT.VALID n) = first.isSome ∧
      (u.stack n).traffic = none ∧ u.que = s.que ∧ u.mem = s.mem ∧ u.pending = s.pending := by
  have apart := tgKeys_apart n
  simp only [tgFields, List.pairwise_cons, List.forall_mem_cons] at apart
  obtain ⟨⟨mu, mf, mv, -⟩, ⟨uf, uv, -⟩, ⟨fv, -⟩, -⟩ := apart
  refine ⟨?_, ?_, ?_, State.isSet_putBit Nat.one_pos _, congrArg Stack.traffic (State.stack_modStack s n fun k => { k with traffic := none }), rfl, rfl, rfl⟩
  · exact (State.get_put_other _ _ mv).trans ((State.get_put_other _ _ mf).trans ((State.get_put_other _ _ mu).trans (State.get_put_same ..)))
  · exact (State.get_put_other _ _ uv).trans ((State.get_put_other _ _ uf).trans (State.get_put_same ..))
  · exact (State.get_put_other _ _ fv).trans (State.get_put_same ..)

theorem State.foldl_zero_byte (s : State) (base : Nat) (l : List Nat) (a : Nat) :
    (l.foldl (fun (s : State) r => s.zero (base + r * 2 ^ 30) (2 ^ 30)) s).byte a =
      if ∃ r ∈ l, base + r * 2 ^ 30 ≤ a ∧ a < base + r * 2 ^ 30 + 2 ^ 30 then 0 else s.byte a := by
  induction l generalizing s with
  | nil => simp
  | cons r l ih =>
    rw [List.foldl_cons, ih, State.byte_zero]
    by_cases later : ∃ r ∈ l, base + r * 2 ^ 30 ≤ a ∧ a < base + r * 2 ^ 30 + 2 ^ 30
    · rw [if_pos later, if_pos (by obtain ⟨k, hk, h⟩ := later; exact ⟨k, List.mem_cons_of_mem _ hk, h⟩)]
    · rw [if_neg later]
      refine if_congr ⟨fun h => ⟨r, List.mem_cons_self, h⟩, fun ⟨k, hk, h⟩ => ?_⟩ rfl rfl
      rcases List.mem_cons.1 hk with rfl | hk
      · exact h
      · exact absurd ⟨k, hk, h⟩ later

/-- The region of an address of the stack. -/
theorem regionOf_eq {n a : Nat} (low : stackBase n ≤ a) (high : a < stackBase n + 0xC00000000) : regionOf a = (a - stackBase n) / 2 ^ 30 := by
  rw [regionOf]
  simp only [stackBase] at *
  omega

/-- Bytes that no region in question holds are as they were. -/
theorem State.tgRegions_outside (s : State) {n regions a : Nat} {left : List (Nat × Bytes)} (small : ∀ e ∈ left, e.2.length ≤ 2 ^ 30)
    (out : ¬ (stackBase n ≤ a ∧ a < stackBase n + 0xC00000000 ∧ bit regions (regionOf a) = true)) :
    (s.tgRegions n regions left).byte a = s.byte a := by
  rw [State.tgRegions]
  refine List.foldlRecOn (motive := fun t : State => t.byte a = s.byte a) _ _ ?_ fun t same e he => ?_
  · rw [State.foldl_zero_byte, if_neg]
    rintro ⟨r, hr, low, high⟩
    obtain ⟨hr, named⟩ := mem_bitList.1 hr
    have inside : stackBase n ≤ a ∧ a < stackBase n + 0xC00000000 := by omega
    refine out ⟨inside.1, inside.2, ?_⟩
    rw [regionOf_eq inside.1 inside.2, show (a - stackBase n) / 2 ^ 30 = r by omega]
    exact named
  · obtain ⟨there, may⟩ := List.mem_filter.1 he
    have len := small e there
    simp only [Bool.and_eq_true, decide_eq_true_eq, beq_iff_eq] at may
    obtain ⟨⟨⟨⟨low, inside⟩, stack⟩, named⟩, same_region⟩ := may
    refine (State.byte_write_outside t e.1 a e.2 fun hit => ?_).trans same
    have within : a < stackBase n + 0xC00000000 ∧ regionOf a = regionOf e.1 := by
      simp only [regionOf, stackOf, stackBase] at low stack same_region ⊢
      omega
    exact out ⟨low.trans hit.1, within.1, by rw [within.2]; exact named⟩

/-- A region in question that nothing is left in reads zero. -/
theorem State.tgRegions_zero (s : State) {n regions a : Nat} (low : stackBase n ≤ a) (high : a < stackBase n + 0xC00000000)
    (named : bit regions (regionOf a) = true) : (s.tgRegions n regions []).byte a = 0 := by
  have region := regionOf_eq low high
  rw [State.tgRegions, List.filter_nil, List.foldl_nil, State.foldl_zero_byte, if_pos]
  exact ⟨regionOf a, mem_bitList.2 ⟨by omega, named⟩, by omega, by omega⟩

/-- A run that writes nothing: its results are shown. -/
theorem State.trafficEnd_reads {s : State} {n : Nat} {g : Traffic} (count mis unc : Nat) (first : Option Nat) (left : List (Nat × Bytes))
    (there : (s.stack n).traffic = some g) (reads : g.pattern ≠ 4 ∧ g.pattern ≠ 5) : s.trafficEnd n count mis unc first left =
      (s.tgResults n mis unc first).finish g.ticket
        { status := .ok, result0 := count, result1 := mis % 2 ^ 32 + unc % 2 ^ 16 * 2 ^ 32 } := by
  rw [State.trafficEnd, there]
  dsimp only
  rw [if_neg (by simp [reads])]
  rfl

/-- A run that writes: its regions are as it leaves them. -/
theorem State.trafficEnd_writes {s : State} {n : Nat} {g : Traffic} (count mis unc : Nat) (first : Option Nat) (left : List (Nat × Bytes))
    (there : (s.stack n).traffic = some g) (writes : g.pattern = 4 ∨ g.pattern = 5) : s.trafficEnd n count mis unc first left =
      ((s.tgResults n mis unc first).tgRegions n g.regions left).finish g.ticket
        { status := .ok, result0 := count, result1 := mis % 2 ^ 32 + unc % 2 ^ 16 * 2 ^ 32 } := by
  rw [State.trafficEnd, there]
  dsimp only
  rw [if_pos (by simpa using writes)]
  rfl

/-- Memory alone is touched. -/
theorem State.tgRegions_only (s : State) (n regions : Nat) (left : List (Nat × Bytes)) : s.tgRegions n regions left =
    { s with mem := (s.tgRegions n regions left).mem, poison := (s.tgRegions n regions left).poison } := by
  have step {t u : State} (h : t = { s with mem := t.mem, poison := t.poison }) (k : u = { t with mem := u.mem, poison := u.poison }) :
      u = { s with mem := u.mem, poison := u.poison } := by
    rw [h] at k
    exact k
  exact List.foldlRecOn (motive := fun t : State => t = { s with mem := t.mem, poison := t.poison }) _ _
    (List.foldlRecOn (motive := fun t : State => t = { s with mem := t.mem, poison := t.poison }) _ _ rfl fun t h r _ => step h rfl)
    fun t h e _ => step h rfl

/-! ### The end of a test of a port (R471, R476) -/

/-- The results of a test of a port, and the port in training anew. -/
def State.testResults (s : State) (p errors lanes : Nat) : State :=
  ((((s.put (R.LINK_TEST_RESULT.ERRORS p) errors).put (R.LINK_TEST_RESULT.ERRORED_LANES p) lanes).putBit
    (R.LINK_TEST_RESULT.VALID p) true).modLink p fun l => { l with test := none }).enterTrain p

theorem State.testResults_shows (s : State) (p errors lanes : Nat) :
    let u := s.testResults p errors lanes
    u.get (R.LINK_TEST_RESULT.ERRORS p) = errors % 2 ^ 32 ∧ u.get (R.LINK_TEST_RESULT.ERRORED_LANES p) = lanes % 2 ^ 8 ∧
      u.isSet (R.LINK_TEST_RESULT.VALID p) = true ∧ u.get (R.LINK_STATUS.STATE p) = linkTrain ∧ (u.link p).test = none ∧
      u.que = s.que ∧ u.mem = s.mem ∧ u.pending = s.pending := by
  let v := ((s.put (R.LINK_TEST_RESULT.ERRORS p) errors).put (R.LINK_TEST_RESULT.ERRORED_LANES p) lanes).putBit (R.LINK_TEST_RESULT.VALID p) true
  have shown : v.get (R.LINK_TEST_RESULT.ERRORS p) = errors % 2 ^ 32 ∧ v.get (R.LINK_TEST_RESULT.ERRORED_LANES p) = lanes % 2 ^ 8 ∧
      v.isSet (R.LINK_TEST_RESULT.VALID p) = true := by
    have apart := testFields_apart p
    simp only [testFields, List.pairwise_cons, List.forall_mem_cons] at apart
    obtain ⟨⟨el, ev, -⟩, ⟨lv, -⟩, -⟩ := apart
    exact ⟨(State.get_put_other _ _ ev).trans ((State.get_put_other _ _ el).trans (State.get_put_same ..)),
      (State.get_put_other _ _ lv).trans (State.get_put_same ..), State.isSet_putBit Nat.one_pos true⟩
  have only : v.onlyRegs ((v.put (R.LINK_STATUS.STATE p) linkTrain).refreshLinks) [R.LINK_STATUS.STATE p, R.GLB_READY.LINKS_OK] :=
    ((State.onlyRegs.refl v _).put (List.mem_cons_self ..) linkTrain).put (List.mem_cons_of_mem _ (List.mem_cons_self ..)) _
  have regs : (s.testResults p errors lanes).regs = ((v.put (R.LINK_STATUS.STATE p) linkTrain).refreshLinks).regs := rfl
  have keep (f : Field) (hf : f ∈ testFields p) : (s.testResults p errors lanes).get f = v.get f := by
    refine (State.get_of_regs regs f).trans (only.get fun g hg => testFields_down hf g ?_)
    simp only [List.mem_cons, List.not_mem_nil, or_false] at hg
    rcases hg with rfl | rfl <;> simp [downFields]
  have state : (s.testResults p errors lanes).get (R.LINK_STATUS.STATE p) = linkTrain := by
    rw [State.get_of_regs regs, (State.refreshLinks_only _).get (by
      simp only [List.forall_mem_cons, Field.key, R.LINK_STATUS.STATE, R.GLB_READY.LINKS_OK]
      exact ⟨by omega, nofun⟩)]
    exact State.get_put_fits _ _ (by decide : linkTrain < 2 ^ 3)
  refine ⟨(keep _ (by simp [testFields])).trans shown.1, (keep _ (by simp [testFields])).trans shown.2.1,
    (State.isSet_of_get (keep _ (by simp [testFields]))).trans shown.2.2, state, ?_, rfl, rfl, rfl⟩
  have twice : (s.testResults p errors lanes).link p = ((((v.modLink p fun l => { l with test := none }).put (R.LINK_STATUS.STATE p) linkTrain).modLink p
    fun l => { l with attempts := 0, train := none, retraining := false })).link p := rfl
  have cleared : ((v.modLink p fun l => { l with test := none }).put (R.LINK_STATUS.STATE p) linkTrain).link p =
    (v.modLink p fun l => { l with test := none }).link p := rfl
  rw [twice, State.link_modLink_same, cleared, State.link_modLink_same]

/-- A test that ends shows what it counted, and its port trains anew. -/
theorem exec_linkTestEnd {s : State} {p : Nat} {g : LinkTest} (checked errors lanes : Nat) (there : (s.link p).test = some g)
    (testing : s.get (R.LINK_STATUS.STATE p) = linkTest) : ∃ f a, exec (.linkTestEnd p checked errors lanes) s = s.act f ∧
      f s = (s.testResults p (if g.pattern = 3 then 0 else errors) (if g.pattern ≤ 2 then lanes else 0)).finish g.ticket a := by
  refine ⟨fun s => match (s.link p).test with
    | none => s
    | some t =>
      if s.get (R.LINK_STATUS.STATE p) != linkTest then s
      else
        let (r0, r1) := if t.pattern == 3 then (0, 0) else (checked, errors)
        let s := s.put (R.LINK_TEST_RESULT.ERRORS p) r1
        let s := s.put (R.LINK_TEST_RESULT.ERRORED_LANES p) (if t.pattern ≤ 2 then lanes else 0)
        let s := s.putBit (R.LINK_TEST_RESULT.VALID p) true
        let s := (s.modLink p fun l => { l with test := none }).enterTrain p
        s.finish t.ticket { status := .ok, result0 := r0, result1 := r1 },
    { status := .ok, result0 := if g.pattern = 3 then 0 else checked, result1 := if g.pattern = 3 then 0 else errors }, rfl, ?_⟩
  dsimp only
  rw [there]
  dsimp only
  rw [if_neg (by simp [testing])]
  by_cases three : g.pattern = 3
  · simp only [three]
    rfl
  · simp only [three, beq_iff_eq, if_false]
    rfl

/-- The port that a test names is one of the 24. -/
theorem linkTest_inside {s : State} {q : Packet} (check : commonCheck s q = none) (op : q.opcode = 0x71) : bits q.p0 8 5 < 24 := by
  by_contra far
  have row : opSpec s q = some {
      words := [mask 0 6 + mask 8 5 + mask 16 8, mask 0 32, 0, 0, 0]
      inRange := decide (bits q.p0 8 5 < 24) && decide (1 ≤ bits q.p0 16 8 ∧ bits q.p0 16 8 ≤ 5)
      zeroExtent := q.p1 == 0 } := by
    rw [opSpec, op]
    rfl
  rw [commonCheck, row] at check
  dsimp only at check
  rw [if_pos (by simp [badFormat, far])] at check
  cases check

/-! ### Controllers with nothing waiting -/

/-- Controllers that had nothing to serve: at most their counts and the shape of their tables have changed. -/
structure State.ServesNothing (s t : State) (n : Nat) : Prop where
  eq : t = { s with regs := t.regs, stk := t.stk }
  same : ∀ k, t.stack k = s.stack k
  regs : s.sameRegs t [R.STACK_ARB_COUNTS.HOST_DEFERRED n]

namespace State.ServesNothing

theorem refl (s : State) (n : Nat) : s.ServesNothing s n := ⟨rfl, fun _ => rfl, fun _ _ => rfl⟩

theorem trans {a b c : State} {n : Nat} (h : a.ServesNothing b n) (k : b.ServesNothing c n) : a.ServesNothing c n where
  eq := by rw [k.eq, h.eq]
  same i := (k.same i).trans (h.same i)
  regs f hf := (k.regs f hf).trans (h.regs f hf)

theorem servePc {s : State} {n : Nat} (pc : Nat) (empty : (s.stack n).queue = []) : s.ServesNothing (s.servePc n pc) n := by
  have none_ : Table.get [] pc (s.stack n).queue = [] := by rw [empty]; rfl
  have same : ({ s.stack n with queue := Table.set [] pc [] (s.stack n).queue } : Stack) = s.stack n := by
    rw [empty, show Table.set ([] : List StackAcc) pc [] [] = [] from rfl, ← empty]
  have shape : s.servePc n pc = (s.modStack n fun k => { k with queue := Table.set [] pc [] k.queue }).bump (R.STACK_ARB_COUNTS.HOST_DEFERRED n) 0 := by
    rw [State.servePc, none_]
    rfl
  rw [shape]
  refine ⟨rfl, fun k => ?_, fun f hf => State.get_put_other _ _ (hf _ (List.mem_singleton.2 rfl))⟩
  rw [State.bump, State.stack_put]
  by_cases here : k = n
  · rw [here, State.stack_modStack, same]
  · exact State.stack_modStack_other _ _ here

theorem foldl {s : State} {n : Nat} (l : List Nat) {step : State → Nat → State} (empty : (s.stack n).queue = [])
    (each : ∀ (t : State) (x : Nat), (t.stack n).queue = [] → t.ServesNothing (step t x) n) : s.ServesNothing (l.foldl step s) n :=
  List.foldlRecOn (motive := fun t : State => s.ServesNothing t n) l step (refl s n) fun t h x _ =>
    h.trans (each t x ((congrArg Stack.queue (h.same n)).trans empty))

theorem flt {s t : State} {n : Nat} (h : s.ServesNothing t n) : t.flt = s.flt := (congrArg State.flt h.eq :)
theorem mem {s t : State} {n : Nat} (h : s.ServesNothing t n) : t.mem = s.mem := (congrArg State.mem h.eq :)
theorem que {s t : State} {n : Nat} (h : s.ServesNothing t n) : t.que = s.que := (congrArg State.que h.eq :)
theorem pending {s t : State} {n : Nat} (h : s.ServesNothing t n) : t.pending = s.pending := (congrArg State.pending h.eq :)

end State.ServesNothing

/-! ### The end of training (R412, R476) -/

/-- What training has found, shown and kept. -/
def State.trainResults (s : State) (n spares : Nat) (failed : List Nat) : State :=
  ((s.modStack n fun k => { k with training := none, corrected := [], marked := marksOf failed }).put
    (R.STACK_LANE_STATUS.SPARES_USED n) spares).put (R.STACK_LANE_STATUS.ERASED_LANES n) (marksOf failed).length

theorem State.trainResults_shows (s : State) (n spares : Nat) (failed : List Nat) :
    let u := s.trainResults n spares failed
    u.get (R.STACK_LANE_STATUS.SPARES_USED n) = spares % 2 ^ 7 ∧ u.get (R.STACK_LANE_STATUS.ERASED_LANES n) = (marksOf failed).length % 2 ^ 7 ∧
      u.stack n = { s.stack n with training := none, corrected := [], marked := marksOf failed } ∧ u.que = s.que ∧ u.mem = s.mem ∧
      u.pending = s.pending := by
  have apart : (R.STACK_LANE_STATUS.SPARES_USED n).key ≠ (R.STACK_LANE_STATUS.ERASED_LANES n).key := by
    simp only [Field.key, R.STACK_LANE_STATUS.SPARES_USED, R.STACK_LANE_STATUS.ERASED_LANES]
    omega
  exact ⟨(State.get_put_other _ _ apart).trans (State.get_put_same ..), State.get_put_same ..,
    State.stack_modStack s n fun k => { k with training := none, corrected := [], marked := marksOf failed }, rfl, rfl, rfl⟩

theorem State.trainingEnd_eq {s : State} {n no : Nat} (spares : Nat) (failed : List Nat) (training : (s.stack n).training = some no) :
    s.trainingEnd n spares failed = ((List.range 64).foldl (fun (s : State) pc => s.servePc n pc) (s.trainResults n spares failed)).finish no
      { status := .ok, result0 := spares, result1 := (marksOf failed).length } := by
  rw [State.trainingEnd, training]
  rfl

/-! ### The end of a self-test (R587, R610, R611) -/

/-- One partition that a self-test has judged. -/
def State.judged (s : State) (n : Nat) (passed : Bool) : State :=
  let u := (s.zero (tileStoreBase n) 0x10000000).zero (scratchBase n) 0x2000000
  if passed then
    ((u.put R.GLB_READY.PART_OK (setBit (u.get R.GLB_READY.PART_OK) n true)).put (R.TILE_SEQ_CTRL.MODE n) 0).unhold n
  else u.put R.GLB_READY.PART_OK (setBit (u.get R.GLB_READY.PART_OK) n false)

/-- A partition's memory that a self-test leaves zero. -/
def testedBy (n a : Nat) : Prop :=
  (tileStoreBase n ≤ a ∧ a < tileStoreBase n + 0x10000000) ∨ (scratchBase n ≤ a ∧ a < scratchBase n + 0x2000000)

/-- The partitions of `l` have been judged one after the other. -/
structure State.Judges (s t : State) (l : List Nat) (passed : Nat → Bool) : Prop where
  que : t.que = s.que
  pending : t.pending = s.pending
  selftest : t.flt.selftest = s.flt.selftest
  queues : ∀ k, (t.stack k).queue = (s.stack k).queue
  ok : ∀ k, k < 16 → t.partOk k = if k ∈ l then passed k else s.partOk k
  mode : ∀ k, k < 16 → t.get (R.TILE_SEQ_CTRL.MODE k) = if k ∈ l ∧ passed k = true then 0 else s.get (R.TILE_SEQ_CTRL.MODE k)
  held : ∀ k, k ∈ t.flt.heldParts ↔ k ∈ s.flt.heldParts ∧ ¬ (k ∈ l ∧ passed k = true)
  zero : ∀ a, (∃ k ∈ l, testedBy k a) → t.byte a = 0
  kept : ∀ a, ¬ (∃ k ∈ l, testedBy k a) → t.byte a = s.byte a

theorem testBit_setBit (v i j : Nat) (b : Bool) : (setBit v i b).testBit j = if j = i then b else v.testBit j := by
  rw [setBit, testBit_setBits]
  by_cases same : j = i
  · subst same
    rw [if_pos (by omega), if_pos rfl, Nat.sub_self]
    cases b <;> rfl
  · rw [if_neg (by omega), if_neg same]

theorem State.unhold_judges (s : State) {n : Nat} (empty : (s.stack n).queue = []) :
    ({ s with flt := { s.flt with heldParts := s.flt.heldParts.filter fun x => x != n } } : State).ServesNothing (s.unhold n) n :=
  .foldl _ empty fun t pc h => by
    split
    · exact .servePc pc h
    · exact .refl t n

/-- The map of partitions in service after one has been judged. -/
theorem State.partOk_judged (u : State) (n : Nat) (b : Bool) {k : Nat} (hk : k < 16) :
    (u.put R.GLB_READY.PART_OK (setBit (u.get R.GLB_READY.PART_OK) n b)).partOk k = if k = n then b else u.partOk k := by
  rw [State.partOk, State.get_put_same, bit_eq_testBit, Nat.testBit_mod_two_pow, testBit_setBit,
    decide_eq_true (show k < R.GLB_READY.PART_OK.width from hk), Bool.true_and, State.partOk, bit_eq_testBit]

theorem modeKey_deferred (k n : Nat) : (R.TILE_SEQ_CTRL.MODE k).key ≠ (R.STACK_ARB_COUNTS.HOST_DEFERRED n).key := by
  simp only [Field.key, R.TILE_SEQ_CTRL.MODE, R.STACK_ARB_COUNTS.HOST_DEFERRED]
  omega

theorem partOkKey_mode (k : Nat) : R.GLB_READY.PART_OK.key ≠ (R.TILE_SEQ_CTRL.MODE k).key := by
  simp only [Field.key, R.TILE_SEQ_CTRL.MODE, R.GLB_READY.PART_OK]
  omega

/-- One partition is judged; nothing waits at its stack. -/
theorem State.judged_judges {s : State} {n : Nat} (passed : Nat → Bool) (empty : (s.stack n).queue = []) :
    s.Judges (s.judged n (passed n)) [n] passed := by
  have zero (a : Nat) (h : testedBy n a) : ((s.zero (tileStoreBase n) 0x10000000).zero (scratchBase n) 0x2000000).byte a = 0 := by
    rw [State.byte_zero, State.byte_zero]
    rcases h with h | h
    · rw [if_pos h, ite_self]
    · rw [if_pos h]
  have outside (a : Nat) (h : ¬ testedBy n a) :
      ((s.zero (tileStoreBase n) 0x10000000).zero (scratchBase n) 0x2000000).byte a = s.byte a := by
    rw [State.byte_zero, State.byte_zero, if_neg fun e => h (.inr e), if_neg fun e => h (.inl e)]
  unfold State.judged
  dsimp only
  have kept : ((s.zero (tileStoreBase n) 0x10000000).zero (scratchBase n) 0x2000000).que = s.que ∧
      ((s.zero (tileStoreBase n) 0x10000000).zero (scratchBase n) 0x2000000).pending = s.pending ∧
      ((s.zero (tileStoreBase n) 0x10000000).zero (scratchBase n) 0x2000000).flt = s.flt ∧
      ((s.zero (tileStoreBase n) 0x10000000).zero (scratchBase n) 0x2000000).stack = s.stack ∧
      ((s.zero (tileStoreBase n) 0x10000000).zero (scratchBase n) 0x2000000).regs = s.regs := ⟨rfl, rfl, rfl, rfl, rfl⟩
  generalize (s.zero (tileStoreBase n) 0x10000000).zero (scratchBase n) 0x2000000 = u at *
  obtain ⟨que, pending, flt, stack, regs⟩ := kept
  have ok (b : Bool) {k : Nat} (hk : k < 16) := u.partOk_judged n b hk
  have mode (b : Bool) (k : Nat) : (u.put R.GLB_READY.PART_OK (setBit (u.get R.GLB_READY.PART_OK) n b)).get (R.TILE_SEQ_CTRL.MODE k) =
      s.get (R.TILE_SEQ_CTRL.MODE k) := (State.get_put_other _ _ (partOkKey_mode k).symm).trans (State.get_of_regs regs _)
  have same (b : Bool) : (u.put R.GLB_READY.PART_OK (setBit (u.get R.GLB_READY.PART_OK) n b)).que = u.que ∧
      (u.put R.GLB_READY.PART_OK (setBit (u.get R.GLB_READY.PART_OK) n b)).pending = u.pending ∧
      (u.put R.GLB_READY.PART_OK (setBit (u.get R.GLB_READY.PART_OK) n b)).flt = u.flt ∧
      (u.put R.GLB_READY.PART_OK (setBit (u.get R.GLB_READY.PART_OK) n b)).stack = u.stack ∧
      (u.put R.GLB_READY.PART_OK (setBit (u.get R.GLB_READY.PART_OK) n b)).mem = u.mem := ⟨rfl, rfl, rfl, rfl, rfl⟩
  have partOk (k : Nat) : u.partOk k = s.partOk k := by rw [State.partOk, State.get_of_regs regs, State.partOk]
  cases verdict : passed n with
  | false =>
    rw [if_neg (by decide)]
    have ok {k : Nat} (hk : k < 16) := ok false hk
    have mode := mode false
    have same := same false
    generalize u.put R.GLB_READY.PART_OK (setBit (u.get R.GLB_READY.PART_OK) n false) = v at *
    obtain ⟨queV, pendV, fltV, stackV, memV⟩ := same
    have bytes (a : Nat) : v.byte a = u.byte a := by rw [State.byte, memV, State.byte]
    refine ⟨queV.trans que, pendV.trans pending, congrArg Flt.selftest (fltV.trans flt), fun k => by rw [stackV, stack], fun k hk => ?_,
      fun k hk => ?_, fun k => ?_, fun a ⟨k, hk, h⟩ => ?_, fun a h => ?_⟩
    · rw [ok hk]
      by_cases e : k = n
      · rw [if_pos e, if_pos (List.mem_singleton.2 e), e, verdict]
      · rw [if_neg e, if_neg (by simpa using e), partOk]
    · rw [mode, if_neg]
      rintro ⟨here, pass⟩
      rw [List.mem_singleton.1 here, verdict] at pass
      cases pass
    · rw [fltV, flt]
      refine ⟨fun h => ⟨h, ?_⟩, fun h => h.1⟩
      rintro ⟨here, pass⟩
      rw [List.mem_singleton.1 here, verdict] at pass
      cases pass
    · exact (bytes a).trans (zero a (List.mem_singleton.1 hk ▸ h))
    · exact (bytes a).trans (outside a fun t => h ⟨n, List.mem_singleton.2 rfl, t⟩)
  | true =>
    rw [if_pos rfl]
    have ok {k : Nat} (hk : k < 16) := ok true hk
    have mode := mode true
    have same := same true
    generalize u.put R.GLB_READY.PART_OK (setBit (u.get R.GLB_READY.PART_OK) n true) = v at *
    obtain ⟨queV, pendV, fltV, stackV, memV⟩ := same
    have serves := (v.put (R.TILE_SEQ_CTRL.MODE n) 0).unhold_judges (n := n)
      ((congrArg Stack.queue (congrFun (stackV.trans stack) n)).trans empty)
    have modes (k : Nat) : (v.put (R.TILE_SEQ_CTRL.MODE n) 0).get (R.TILE_SEQ_CTRL.MODE k) =
        if k = n then 0 else s.get (R.TILE_SEQ_CTRL.MODE k) := by
      split
      · next e => rw [e]; exact State.get_put_fits _ _ (by decide : 0 < 2 ^ 2)
      · next e => exact (State.get_put_other _ _ (modeKey_inj e)).trans (mode k)
    have oks {k : Nat} (hk : k < 16) : (v.put (R.TILE_SEQ_CTRL.MODE n) 0).partOk k = if k = n then true else u.partOk k := by
      rw [State.partOk, State.get_put_other _ _ (partOkKey_mode n)]
      exact ok hk
    have same' : (v.put (R.TILE_SEQ_CTRL.MODE n) 0).que = v.que ∧ (v.put (R.TILE_SEQ_CTRL.MODE n) 0).pending = v.pending ∧
      (v.put (R.TILE_SEQ_CTRL.MODE n) 0).flt = v.flt ∧ (v.put (R.TILE_SEQ_CTRL.MODE n) 0).stack = v.stack ∧
      (v.put (R.TILE_SEQ_CTRL.MODE n) 0).mem = v.mem := ⟨rfl, rfl, rfl, rfl, rfl⟩
    generalize v.put (R.TILE_SEQ_CTRL.MODE n) 0 = w at *
    obtain ⟨queW, pendW, fltW, stackW, memW⟩ := same'
    have fltT := serves.flt
    have queT := serves.que
    have pendT := serves.pending
    have bytes (a : Nat) : (w.unhold n).byte a = u.byte a := by
      rw [State.byte, serves.mem.trans (memW.trans memV), State.byte]
    have regsT := serves.regs
    have stackT := serves.same
    generalize w.unhold n = t at *
    have getT (f : Field) (hf : f.key ≠ (R.STACK_ARB_COUNTS.HOST_DEFERRED n).key) : t.get f = w.get f :=
      regsT f fun g hg => by rw [List.mem_singleton.1 hg]; exact hf
    refine ⟨queT.trans (queW.trans (queV.trans que)), pendT.trans (pendW.trans (pendV.trans pending)), ?_, fun k => ?_, fun k hk => ?_,
      fun k hk => ?_, fun k => ?_, fun a ⟨k, hk, h⟩ => ?_, fun a h => ?_⟩
    · rw [fltT, fltW, fltV, flt]
    · exact congrArg Stack.queue ((stackT k).trans (congrFun (stackW.trans (stackV.trans stack)) k))
    · rw [State.partOk, getT _ (by simp only [Field.key, R.GLB_READY.PART_OK, R.STACK_ARB_COUNTS.HOST_DEFERRED]; omega)]
      refine (oks hk).trans ?_
      by_cases e : k = n
      · rw [if_pos e, if_pos (List.mem_singleton.2 e), e, verdict]
      · rw [if_neg e, if_neg (by simpa using e), partOk]
    · rw [getT _ (modeKey_deferred k n), modes]
      exact if_congr ⟨fun e => ⟨List.mem_singleton.2 e, e ▸ verdict⟩, fun e => List.mem_singleton.1 e.1⟩ rfl rfl
    · rw [fltT, fltW, fltV, flt]
      simp only [List.mem_filter, bne_iff_ne, List.mem_singleton]
      exact and_congr_right fun _ => ⟨fun other h => other h.1, fun h e => h ⟨e, e ▸ verdict⟩⟩
    · exact (bytes a).trans (zero a (List.mem_singleton.1 hk ▸ h))
    · exact (bytes a).trans (outside a fun t => h ⟨n, List.mem_singleton.2 rfl, t⟩)

theorem State.Judges.nil (s : State) (passed : Nat → Bool) : s.Judges s [] passed where
  que := rfl
  pending := rfl
  selftest := rfl
  queues _ := rfl
  ok _ _ := (if_neg List.not_mem_nil).symm
  mode _ _ := (if_neg fun h => List.not_mem_nil h.1).symm
  held _ := ⟨fun h => ⟨h, fun e => List.not_mem_nil e.1⟩, fun h => h.1⟩
  zero _ := fun ⟨_, h, _⟩ => absurd h List.not_mem_nil
  kept _ _ := rfl

theorem State.Judges.cons {s t u : State} {n : Nat} {l : List Nat} {passed : Nat → Bool} (h : s.Judges t [n] passed) (k : t.Judges u l passed) :
    s.Judges u (n :: l) passed where
  que := k.que.trans h.que
  pending := k.pending.trans h.pending
  selftest := k.selftest.trans h.selftest
  queues i := (k.queues i).trans (h.queues i)
  ok i hi := by
    rw [k.ok i hi, h.ok i hi]
    by_cases first : i = n <;> by_cases later : i ∈ l <;> simp [first, later]
  mode i hi := by
    rw [k.mode i hi, h.mode i hi]
    by_cases first : i = n <;> by_cases later : i ∈ l <;> by_cases pass : passed i = true <;> simp_all
  held i := by
    rw [k.held i, h.held i]
    simp only [List.mem_cons, List.not_mem_nil, or_false]
    tauto
  zero a := fun ⟨i, hi, hit⟩ => by
    by_cases later : ∃ k ∈ l, testedBy k a
    · exact k.zero a later
    · rcases List.mem_cons.1 hi with rfl | hi
      · exact (k.kept a later).trans (h.zero a ⟨i, List.mem_singleton.2 rfl, hit⟩)
      · exact absurd ⟨i, hi, hit⟩ later
  kept a miss := (k.kept a fun ⟨i, hi, hit⟩ => miss ⟨i, List.mem_cons_of_mem _ hi, hit⟩).trans
    (h.kept a fun ⟨i, hi, hit⟩ => miss ⟨i, List.mem_cons.2 (.inl (List.mem_singleton.1 hi)), hit⟩)

theorem State.foldl_judges {s : State} (l : List Nat) (passed : Nat → Bool) (empty : ∀ k ∈ l, (s.stack k).queue = []) :
    s.Judges (l.foldl (fun (s : State) n => s.judged n (passed n)) s) l passed := by
  induction l generalizing s with
  | nil => exact .nil s passed
  | cons n l ih =>
    have first := State.judged_judges passed (empty n List.mem_cons_self)
    exact first.cons (ih fun k hk => (first.queues k).trans (empty k (List.mem_cons_of_mem _ hk)))

theorem State.Posts.d2h (s : State) (o : Output) : s.Posts (s.d2h o) := by
  unfold State.d2h
  split
  · exact .emit s o
  · exact ⟨rfl, fun _ _ => rfl, rfl⟩

theorem State.Posts.outReport (s : State) (p : Packet) (b : Bytes) : s.Posts (s.outReport p b) :=
  List.foldlRecOn (motive := fun t : State => s.Posts t) _ _ (.refl s) fun _ h _ _ => h.trans (.d2h _ _)

/-- Whether every partition named by a result has passed. -/
def passedIn (l : List SelfResult) (n : Nat) : Bool := l.any fun r => r.partition == n && r.failed == 0

/-- How a self-test ends: its partitions are judged, the report goes out, and its packet completes. -/
theorem State.selftestEnds_eq {s : State} {T : Ticket} {i parts : Nat} (l : List SelfResult) (tickets : s.que.tickets = [T])
    (host : T.origin = .host i) (mine : s.flt.selftest = some (T.no, parts)) (empty : ∀ k, k < 16 → (s.stack k).queue = []) :
    ∃ (u : State) (b : Bytes) (a : Answer), ({ s with flt := { s.flt with selftest := none } } : State).Judges u (bitList 16 parts) (passedIn l) ∧
      s.selftestEnds l = (u.outReport T.packet b).finish T.no a := by
  have judges := State.foldl_judges (s := { s with flt := { s.flt with selftest := none } }) (bitList 16 parts) (passedIn l)
    fun k hk => empty k (mem_bitList.1 hk).1
  have each : (bitList 16 parts).foldl (fun (s : State) n => s.judged n (bit (bitSet ((bitList 16 parts).filter (passedIn l))) n))
      { s with flt := { s.flt with selftest := none } } =
      (bitList 16 parts).foldl (fun (s : State) n => s.judged n (passedIn l n)) { s with flt := { s.flt with selftest := none } } := by
    refine List.foldl_ext _ _ _ fun t n hn => ?_
    rw [bit_eq_testBit, testBit_bitSet]
    simp [List.mem_filter, hn]
  have unfolded : s.selftestEnds l =
      let passed := bitSet ((bitList 16 parts).filter (passedIn l))
      let u := (bitList 16 parts).foldl (fun (s : State) n => s.judged n (bit passed n)) { s with flt := { s.flt with selftest := none } }
      let a : Answer := { status := .ok, result0 := passed, result1 := parts - passed }
      match u.ticket? T.no with
        | some t => match t.origin with
          | .host _ => (u.outReport t.packet (selfReport parts passed l)).finish T.no a
          | .lead _ _ => u.finish T.no { a with data := selfReport parts passed l }
        | none => u := by
    rw [State.selftestEnds, mine]
    rfl
  dsimp only at unfolded
  rw [each] at unfolded
  generalize (bitList 16 parts).foldl (fun (s : State) n => s.judged n (passedIn l n)) _ = u at *
  have there : u.ticket? T.no = some T := State.ticket?_only ((congrArg Que.tickets judges.que).trans tickets)
  rw [there] at unfolded
  dsimp only at unfolded
  rw [host] at unfolded
  exact ⟨u, _, _, judges, unfolded⟩

end Sys2Proof.Machine
open Sys2Proof Sys2Proof.Machine

/-- Settles O19: each diagnostic begins where nothing keeps it from starting, and its end shows what it found, leaves the regions and
stores it worked on as it must, and completes its packet. -/
theorem diagnostics : Obligations.Diagnostics := by
  unfold Obligations.Diagnostics
  refine ⟨fun s p q alone idle named => ⟨?traffic, ?train, ?port, ?selftest⟩,
    fun s T i n alive tickets host _ _ _ _ hn => ⟨?reads, ?writes, ?portEnds, ?trainEnds, ?selfEnds⟩⟩
  case traffic =>
    intro c hc hq takes traffic training allowed
    obtain ⟨row, small, other⟩ : Instr.submits c.2 = some ((p.op 0x70).pattern c.1, none, none) ∧ c.1 < 2 ^ 8 ∧ c.1 ≠ 7 := by
      simp only [List.mem_cons, List.not_mem_nil, or_false] at hc
      rcases hc with rfl | rfl | rfl | rfl | rfl | rfl <;> exact ⟨rfl, by dsimp only; decide⟩
    obtain ⟨pattern, stack, -, self⟩ := pattern_operand (p.op 0x70) c.1 small
    subst hq
    have key := completes_traffic takes (self.trans named) rfl stack pattern idle traffic training allowed row rfl
    rw [Stack.started, if_neg other] at key
    exact key
  case train =>
    intro hq takes traffic training
    obtain ⟨pattern, stack, -, self⟩ := pattern_operand (p.op 0x70) 7 (by decide)
    subst hq
    exact completes_traffic (i := .retrain p) (k := 7) takes (self.trans named) rfl stack pattern idle traffic training
      (fun _ h => absurd h (by decide)) rfl rfl
  case port =>
    intro c hc hq takes runs free
    obtain ⟨row, small⟩ : Instr.submits c.2 = some ((p.op 0x71).pattern c.1, none, none) ∧ c.1 < 2 ^ 8 := by
      simp only [List.mem_cons, List.not_mem_nil, or_false] at hc
      rcases hc with rfl | rfl | rfl | rfl | rfl <;> exact ⟨rfl, by dsimp only; decide⟩
    obtain ⟨pattern, -, port, self⟩ := pattern_operand (p.op 0x71) c.1 small
    subst hq
    refine ⟨fun up closed none_in still => ?_, fun three out on other => ?_⟩
    · have inside : bits p.p0 8 5 < 24 := port ▸ linkTest_inside takes.2.2.2 rfl
      exact completes_linkTest takes (self.trans named) rfl port idle runs free pattern row rfl inside up closed none_in still
    · exact completes_ssprq takes (self.trans named) rfl port idle runs free (pattern.trans three) row rfl out on other
  case selftest =>
    intro hq takes free unused
    subst hq
    exact completes_selftest takes named rfl rfl rfl idle free unused
  case reads =>
    intro g count mis unc first left there mine four five
    obtain ⟨miss, uncs, pc, valid, gone, que, mem, pending⟩ := s.tgResults_shows n mis unc first
    have effect := State.trafficEnd_reads count mis unc first left there ⟨four, five⟩
    rw [mine] at effect
    generalize s.tgResults n mis unc first = u at *
    exact completes_finishes (f := fun s => s.trafficEnd n count mis unc first left) alive rfl effect ((congrArg Que.tickets que).trans tickets) host
      pending fun t posts => ⟨(posts.get _ (Field.notPosted_of_lo 0 rfl (by decide))).trans miss,
        (posts.get _ (Field.notPosted_of_lo 32 rfl (by decide))).trans uncs, (posts.get _ (Field.notPosted_of_lo 48 rfl (by decide))).trans pc,
        (posts.isSet (Field.notPosted_of_lo 54 rfl (by decide))).trans valid, (congrArg Stack.traffic (posts.stack n)).trans gone, posts.tickets,
        posts.mem.trans mem⟩
  case writes =>
    intro g count mis unc first left there mine pattern
    obtain ⟨miss, -, -, -, gone, que, mem, pending⟩ := s.tgResults_shows n mis unc first
    have effect := State.trafficEnd_writes count mis unc first left there pattern
    rw [mine] at effect
    have only := State.tgRegions_only (s.tgResults n mis unc first) n g.regions left
    have outside (a : Nat) (small : ∀ e ∈ left, e.2.length ≤ 2 ^ 30) := (s.tgResults n mis unc first).tgRegions_outside (a := a) small
      (n := n) (regions := g.regions)
    have zero (a : Nat) (low : stackBase n ≤ a) (high : a < stackBase n + 0xC00000000) (named : bit g.regions (regionOf a) = true)
        (empty : left = []) : ((s.tgResults n mis unc first).tgRegions n g.regions left).byte a = 0 :=
      empty ▸ (s.tgResults n mis unc first).tgRegions_zero low high named
    have bytes (a : Nat) : (s.tgResults n mis unc first).byte a = s.byte a := by rw [State.byte, mem, State.byte]
    generalize s.tgResults n mis unc first = u at *
    generalize u.tgRegions n g.regions left = v at *
    have queV : v.que = u.que := (congrArg State.que only :)
    have pendV : v.pending = u.pending := (congrArg State.pending only :)
    have regsV : v.regs = u.regs := (congrArg State.regs only :)
    have stkV : v.stk = u.stk := (congrArg State.stk only :)
    refine completes_finishes (f := fun s => s.trafficEnd n count mis unc first left) alive rfl effect
      ((congrArg Que.tickets (queV.trans que)).trans tickets) host (pendV.trans pending) fun t posts =>
      ⟨(posts.get _ (Field.notPosted_of_lo 0 rfl (by decide))).trans ((State.get_of_regs regsV _).trans miss), ?_, posts.tickets,
        fun small a out => ?_, fun empty a low high named => ?_⟩
    · have same : t.stack n = u.stack n := (posts.stack n).trans (congrArg (Table.get Stack.reset n) stkV)
      rw [same, gone]
    · have here : t.byte a = v.byte a := by rw [State.byte, posts.mem, State.byte]; rfl
      exact here.trans ((outside a small out).trans (bytes a))
    · have here : t.byte a = v.byte a := by rw [State.byte, posts.mem, State.byte]; rfl
      exact here.trans (zero a low high named empty)
  case portEnds =>
    intro g checked errors lanes p hp there mine state
    obtain ⟨failed, marked, valid, training, over_, que, mem, pending⟩ := s.testResults_shows p (if g.pattern = 3 then 0 else errors)
      (if g.pattern ≤ 2 then lanes else 0)
    obtain ⟨f, a, runs, effect⟩ := exec_linkTestEnd (s := s) checked errors lanes there state
    rw [mine] at effect
    generalize s.testResults p (if g.pattern = 3 then 0 else errors) (if g.pattern ≤ 2 then lanes else 0) = u at *
    refine completes_finishes (f := f) alive runs effect ((congrArg Que.tickets que).trans tickets) host pending
      fun t posts => ?_
    have link : t.link p = u.link p := congrArg (Table.get Link.reset p) posts.links
    rw [link]
    refine ⟨(posts.get _ (Field.notPosted_of_lo 0 rfl (by decide))).trans (failed.trans ?_),
      (posts.get _ (Field.notPosted_of_lo 32 rfl (by decide))).trans (marked.trans ?_),
      (posts.isSet (Field.notPosted_of_lo 40 rfl (by decide))).trans valid,
      (posts.get _ (Field.notPosted_of_lo 0 rfl (by decide))).trans training, over_, posts.tickets, posts.mem.trans mem⟩
    · split <;> rfl
    · split <;> rfl
  case trainEnds =>
    intro spares failed there empty
    obtain ⟨spared, erased, stack, que, mem, pending⟩ := s.trainResults_shows n spares failed
    have effect := State.trainingEnd_eq spares failed there
    have serves := State.ServesNothing.foldl (s := s.trainResults n spares failed) (n := n) (List.range 64) (step := fun s pc => s.servePc n pc)
      ((congrArg Stack.queue stack).trans empty) fun t pc h => .servePc pc h
    generalize s.trainResults n spares failed = u at *
    generalize (List.range 64).foldl (fun (s : State) pc => s.servePc n pc) u = v at *
    have lane (f : Field) (hf : f.addr = (R.STACK_LANE_STATUS.SPARES_USED n).addr) (lo : f.lo < 64) : v.get f = u.get f := by
      refine serves.regs f fun g hg => ?_
      rw [List.mem_singleton.1 hg]
      simp only [Field.key, hf, R.STACK_LANE_STATUS.SPARES_USED, R.STACK_ARB_COUNTS.HOST_DEFERRED]
      omega
    refine completes_finishes (f := fun s => s.trainingEnd n spares failed) alive rfl effect
      ((congrArg Que.tickets (serves.que.trans que)).trans tickets) host (serves.pending.trans pending) fun t posts => ?_
    have here : t.stack n = { s.stack n with training := none, corrected := [], marked := marksOf failed } :=
      (posts.stack n).trans ((serves.same n).trans stack)
    rw [here]
    exact ⟨(posts.get _ (Field.notPosted_of_lo 0 rfl (by decide))).trans ((lane (R.STACK_LANE_STATUS.SPARES_USED n) rfl (by show 0 < 64; decide)).trans spared),
      (posts.get _ (Field.notPosted_of_lo 8 rfl (by decide))).trans ((lane (R.STACK_LANE_STATUS.ERASED_LANES n) rfl (by show 8 < 64; decide)).trans erased), rfl, rfl, rfl,
      posts.tickets, posts.mem.trans (serves.mem.trans mem)⟩
  case selfEnds =>
    intro parts results left mine empty
    obtain ⟨u, b, a, judges, ends⟩ := State.selftestEnds_eq results tickets host mine empty
    have report := State.Posts.outReport u T.packet b
    have effect : (if s.flt.selftest.isSome then s.selftestEnds results else s.startupTest results left) =
        (u.outReport T.packet b).finish T.no a := by
      rw [if_pos (by rw [mine]; rfl), ends]
    generalize u.outReport T.packet b = v at *
    refine completes_finishes (f := fun s => if s.flt.selftest.isSome then s.selftestEnds results else s.startupTest results left) alive rfl effect
      (report.tickets.trans ((congrArg Que.tickets judges.que).trans tickets)) host (report.pending.trans judges.pending) fun t posts => ?_
    have get (f : Field) (hf : f.notPosted) : t.get f = u.get f := (posts.get f hf).trans (report.get f hf)
    have flt : t.flt = u.flt := posts.flt.trans report.flt
    have byte (x : Nat) : t.byte x = u.byte x := by
      have mem : t.mem = u.mem := posts.mem.trans report.mem
      rw [State.byte, mem, State.byte]
    have zero (a : Nat) (k : Nat) (hk : k < 16) (named : bit parts k = true) (hit : testedBy k a) : t.byte a = 0 :=
      (byte a).trans (judges.zero a ⟨k, mem_bitList.2 ⟨hk, named⟩, hit⟩)
    refine ⟨by rw [flt, judges.selftest], posts.tickets, fun k hk => ?_, fun k hk named pass => ?_,
      fun a ⟨k, hk, named, hit⟩ => zero a k hk named hit, fun a miss => ?_⟩
    · rw [State.partOk, get _ ⟨by decide, .inr (by decide)⟩]
      refine (judges.ok k hk).trans (if_congr ?_ rfl rfl)
      simp [mem_bitList, hk]
    · have there : k ∈ bitList 16 parts := mem_bitList.2 ⟨hk, named⟩
      rw [get _ (Field.notPosted_of_lo 0 rfl (by decide)), flt]
      exact ⟨(judges.mode k hk).trans (if_pos ⟨there, pass⟩), fun h => ((judges.held k).1 h).2 ⟨there, pass⟩⟩
    · refine (byte a).trans (judges.kept a fun ⟨k, hk, hit⟩ => miss ?_)
      obtain ⟨hk, named⟩ := mem_bitList.1 hk
      exact ⟨k, hk, named, hit⟩
end

section
/-!
SUPPORT. The ends of long work (O41): regions zeroed, Granaries emptied, engines tested, pages copied, memory initialised.
-/

namespace Sys2Proof.Machine

/-! ### What waits for the end of such work -/

/-- No sequencer is held and no commit waits to be finished: nothing is released. -/
theorem State.releaseSettled_nothing {s : State} (none_ : s.cfg.finishing = []) (free : ∀ k, k < 16 → s.seqState k ≠ seqHeld) :
    s.releaseSettled = s := by
  have held : s.releaseHeld = s := by
    refine List.foldlRecOn (motive := fun t : State => t = s) _ _ rfl fun t same k hk => ?_
    rw [same]
    exact if_neg (by simpa using free k (List.mem_range.1 hk))
  unfold State.releaseSettled
  dsimp only
  rw [held, none_]
  split
  · rfl
  · have same : ({ s with cfg := { s.cfg with finishing := [] } } : State) = s := by rw [← none_]
    exact same

/-- A region is zeroed. -/
theorem completes_zeroDone {s : State} {n r : Nat} (alive : s.alive = true) (idle : s.que.tickets = []) (none_ : s.cfg.finishing = [])
    (free : ∀ k, k < 16 → s.seqState k ≠ seqHeld) : Completes (.regionZeroDone n r) s fun t =>
      t = s.modStack n fun k => { k with zeroing := k.zeroing.filter fun x => x != r } :=
  completes_act (f := fun s => s.zeroDone n r) alive rfl (State.releaseSettled_nothing none_ free) idle rfl rfl

/-! ### A Granary's new size (R386, R387) -/

/-- The Granary is empty; nothing but its count of writebacks shows it. -/
theorem State.flushGranary_empties (s : State) (n : Nat) : ((s.flushGranary n).tile n).granary = [] ∧
    (∀ f, f.key ≠ (R.TSTORE_GRANARY_EVENTS.WRITEBACKS n).key → (s.flushGranary n).get f = s.get f) ∧
    (s.flushGranary n).mem = s.mem ∧ (s.flushGranary n).que = s.que ∧ (s.flushGranary n).pending = s.pending ∧
    (s.flushGranary n).cfg = s.cfg ∧ (s.flushGranary n).flt = s.flt := by
  refine ⟨?_, fun f hf => State.get_put_other _ _ hf, rfl, rfl, rfl, rfl, rfl⟩
  exact congrArg Tile.granary (State.modTile_tile _ n fun t => { t with granary := [] })

theorem State.resizeGranary_resizes (s : State) (n : Nat) {size : Nat} (small : size ≤ 8) (was : s.get (R.TSTORE_GRANARY.SIZE n) ≤ 8) :
    let t := s.resizeGranary n size
    t.get (R.TSTORE_GRANARY.SIZE n) = size ∧ (t.tile n).granary = [] ∧ t.cfg = s.cfg ∧ t.flt = s.flt ∧ t.que = s.que ∧ t.pending = s.pending ∧
      (∀ k, t.seqState k = s.seqState k) ∧
      ∀ a, t.byte a = if tileStoreBase n + 0x10000000 - s.get (R.TSTORE_GRANARY.SIZE n) * 0x400000 ≤ a ∧
        a < tileStoreBase n + 0x10000000 - size * 0x400000 then 0 else s.byte a := by
  obtain ⟨empty, get, mem, que, pending, cfg, flt⟩ := s.flushGranary_empties n
  have shown : ((s.flushGranary n).put (R.TSTORE_GRANARY.SIZE n) size).get (R.TSTORE_GRANARY.SIZE n) = size :=
    State.get_put_fits _ _ (by show size < 16; omega)
  have state (k : Nat) : ((s.flushGranary n).put (R.TSTORE_GRANARY.SIZE n) size).seqState k = s.seqState k := by
    rw [State.seqState, State.get_put_other _ _ (by simp only [Field.key, R.TILE_SEQ_STATUS.STATE, R.TSTORE_GRANARY.SIZE]; omega),
      get _ (by simp only [Field.key, R.TILE_SEQ_STATUS.STATE, R.TSTORE_GRANARY_EVENTS.WRITEBACKS]; omega), State.seqState]
  have bytes (a : Nat) : ((s.flushGranary n).put (R.TSTORE_GRANARY.SIZE n) size).byte a = s.byte a := by
    have same : ((s.flushGranary n).put (R.TSTORE_GRANARY.SIZE n) size).mem = s.mem := mem
    rw [State.byte, same, State.byte]
  have kept : (((s.flushGranary n).put (R.TSTORE_GRANARY.SIZE n) size).tile n).granary = [] ∧
      ((s.flushGranary n).put (R.TSTORE_GRANARY.SIZE n) size).cfg = s.cfg ∧ ((s.flushGranary n).put (R.TSTORE_GRANARY.SIZE n) size).flt = s.flt ∧
      ((s.flushGranary n).put (R.TSTORE_GRANARY.SIZE n) size).que = s.que ∧
      ((s.flushGranary n).put (R.TSTORE_GRANARY.SIZE n) size).pending = s.pending := ⟨empty, cfg, flt, que, pending⟩
  unfold State.resizeGranary
  dsimp only
  generalize (s.flushGranary n).put (R.TSTORE_GRANARY.SIZE n) size = u at *
  obtain ⟨emptyU, cfgU, fltU, queU, pendU⟩ := kept
  by_cases less : size < s.get (R.TSTORE_GRANARY.SIZE n)
  · rw [if_pos less]
    refine ⟨shown, emptyU, cfgU, fltU, queU, pendU, state, fun a => (State.byte_zero ..).trans (if_congr ?_ rfl (bytes a))⟩
    have low : s.get (R.TSTORE_GRANARY.SIZE n) * 0x400000 ≤ tileStoreBase n + 0x10000000 := by omega
    constructor <;> rintro ⟨h, k⟩ <;> exact ⟨h, by omega⟩
  · rw [if_neg less]
    exact ⟨shown, emptyU, cfgU, fltU, queU, pendU, state, fun a => (bytes a).trans (if_neg (by omega)).symm⟩

/-- The new size of a Granary, the only one to be emptied. -/
theorem completes_flushDone {s : State} {n size : Nat} (alive : s.alive = true) (idle : s.que.tickets = []) (none_ : s.cfg.finishing = [])
    (flush : s.cfg.granaryFlush = [(n, size)]) (small : size ≤ 8) (was : s.get (R.TSTORE_GRANARY.SIZE n) ≤ 8) (holds : s.flt.holdWait = [])
    (free : ∀ k, k < 16 → s.seqState k ≠ seqHeld) : Completes (.granaryFlushDone n) s fun t =>
      t.get (R.TSTORE_GRANARY.SIZE n) = size ∧ (t.tile n).granary = [] ∧ t.cfg.granaryFlush = [] ∧
        (∀ a, t.byte a = if tileStoreBase n + 0x10000000 - s.get (R.TSTORE_GRANARY.SIZE n) * 0x400000 ≤ a ∧
          a < tileStoreBase n + 0x10000000 - size * 0x400000 then 0 else s.byte a) := by
  let b : State := { s with cfg := { s.cfg with granaryFlush := [] }, flt := { s.flt with holdWait := [] } }
  have unfolded : s.flushDone n = (b.resizeGranary n size).releaseSettled := by
    unfold State.flushDone
    dsimp only
    rw [flush, holds]
    simp only [List.filter_cons, beq_self_eq_true, if_true, List.filter_nil, bne_self_eq_false, Bool.false_eq_true, if_false, List.foldl_cons,
      List.foldl_nil]
    rfl
  obtain ⟨shown, empty, cfg, flt, que, pending, state, bytes⟩ := b.resizeGranary_resizes n small was
  generalize b.resizeGranary n size = t at *
  rw [State.releaseSettled_nothing ((congrArg Cfg.finishing cfg).trans none_) fun k hk => by rw [state]; exact free k hk] at unfolded
  exact completes_act (f := fun s => s.flushDone n) alive rfl unfolded ((congrArg Que.tickets que).trans idle) pending
    ⟨shown, empty, congrArg Cfg.granaryFlush cfg, bytes⟩

/-! ### A partition that is held (R587) -/

/-- Fields of other ranges stand when a range of registers is reset. -/
theorem State.get_resetRegs (s : State) {base : Nat} {l : List (Nat × Nat)} {f : Field}
    (out : ∀ r ∈ l, ¬ (base + r.1 ≤ f.key / 64 ∧ f.key / 64 ≤ base + r.2)) : (s.resetRegs base l).get f = s.get f := by
  refine (State.get_filter (s := s) (t := s.resetRegs base l)
    (p := fun k => !(l.any fun r => decide (base + r.1 ≤ k / 64 ∧ k / 64 ≤ base + r.2))) rfl f).trans (if_pos ?_)
  simpa using out

/-- What a hold clears of the state of a tile's sequencer. -/
theorem State.seqState_resets (s : State) (n k : Nat) :
    (((s.resetRegs (0x1000000 + 0x100000 * n) resetTile).resetRegs (0x2000000 + 0x10000 * n) resetStore).resetRegs
      (0x3100000 + 0x1000 * n) resetUnits).seqState k = s.seqState k := by
  have addr : (R.TILE_SEQ_STATUS.STATE k).key / 64 = 0x1000008 + 0x100000 * k := by
    simp only [Field.key, R.TILE_SEQ_STATUS.STATE]
    omega
  rw [State.seqState, State.get_resetRegs _ (by rw [addr]; simp only [resetUnits, List.forall_mem_cons]; exact ⟨by omega, nofun⟩),
    State.get_resetRegs _ (by rw [addr]; simp only [resetStore, List.forall_mem_cons]; exact ⟨by omega, by omega, nofun⟩),
    State.get_resetRegs _ (by
      rw [addr]
      simp only [resetTile, List.forall_mem_cons]
      exact ⟨by omega, by omega, by omega, by omega, by omega, by omega, by omega, nofun⟩), State.seqState]

/-- A partition that is held. -/
structure State.Held (s t : State) (n : Nat) : Prop where
  out : n ∈ t.flt.heldParts
  ok : t.partOk n = false
  seqs : ∀ k, k < 16 → t.seqState k = if k = n then seqIdle else s.seqState k
  queues : (t.tile n).queues = []
  units : (t.stack n).units = []
  waits : t.flt.holdWait = s.flt.holdWait
  mem : t.mem = s.mem
  que : t.que = s.que
  pending : t.pending = s.pending
  cfg : t.cfg = s.cfg

/-- The registers of a partition's tile, store and units as a hold leaves them, its sequencer idle. -/
def State.holdRegs (s : State) (n : Nat) : State :=
  let s := ((s.resetRegs (0x1000000 + 0x100000 * n) resetTile).resetRegs (0x2000000 + 0x10000 * n) resetStore).resetRegs
    (0x3100000 + 0x1000 * n) resetUnits
  let s := (s.setSeq n seqIdle).putBit (R.TILE_SEQ_STATUS.FAILED n) false
  let s := (s.putBit (R.TILE_SEQ_STATUS.ABANDONED n) false).put (R.TILE_SEQ_STATUS.LIST_INDEX n) 0
  (List.range 4).foldl (fun (s : State) c => s.putBit (R.TSTORE_ATOM_STATUS.DONE n c) true) s

theorem State.holdRegs_seq (s : State) (n k : Nat) : (s.holdRegs n).seqState k = if k = n then seqIdle else s.seqState k := by
  unfold State.holdRegs
  dsimp only
  have resets := s.seqState_resets n k
  generalize ((s.resetRegs (0x1000000 + 0x100000 * n) resetTile).resetRegs (0x2000000 + 0x10000 * n) resetStore).resetRegs
    (0x3100000 + 0x1000 * n) resetUnits = u at *
  have flags : ((((u.setSeq n seqIdle).putBit (R.TILE_SEQ_STATUS.FAILED n) false).putBit (R.TILE_SEQ_STATUS.ABANDONED n) false).put
      (R.TILE_SEQ_STATUS.LIST_INDEX n) 0).seqState k = if k = n then seqIdle else s.seqState k := by
    rw [State.seqState, State.get_put_other _ _ (by simp only [Field.key, R.TILE_SEQ_STATUS.STATE, R.TILE_SEQ_STATUS.LIST_INDEX]; omega),
      State.putBit, State.get_put_other _ _ (by simp only [Field.key, R.TILE_SEQ_STATUS.STATE, R.TILE_SEQ_STATUS.ABANDONED]; omega),
      State.putBit, State.get_put_other _ _ (by simp only [Field.key, R.TILE_SEQ_STATUS.STATE, R.TILE_SEQ_STATUS.FAILED]; omega), State.setSeq]
    by_cases here : k = n
    · rw [here, if_pos rfl]
      exact State.get_put_fits _ _ (by decide : seqIdle < 2 ^ 3)
    · rw [if_neg here, State.get_put_other _ _ (by simp only [Field.key, R.TILE_SEQ_STATUS.STATE]; omega)]
      exact resets
  refine Eq.trans ?_ flags
  refine (((State.onlyRegs.refl _ ((List.range 4).map (R.TSTORE_ATOM_STATUS.DONE n))).foldl_put (f := R.TSTORE_ATOM_STATUS.DONE n) (v := fun _ => b2n true)
    fun i hi => List.mem_map_of_mem hi).get ?_)
  intro g hg
  obtain ⟨c, -, rfl⟩ := List.mem_map.1 hg
  simp only [Field.key, R.TILE_SEQ_STATUS.STATE, R.TSTORE_ATOM_STATUS.DONE]
  omega

theorem State.holdRegs_only (s : State) (n : Nat) : s.holdRegs n = { s with regs := (s.holdRegs n).regs } := by
  unfold State.holdRegs
  dsimp only
  exact ((State.onlyRegs.refl _ ((List.range 4).map (R.TSTORE_ATOM_STATUS.DONE n))).foldl_put (f := R.TSTORE_ATOM_STATUS.DONE n) (v := fun _ => b2n true)
    fun i hi => List.mem_map_of_mem hi).1

/-- What a hold leaves of a tile. -/
def Tile.held (t : Tile) : Tile :=
  { Tile.reset with
    bist := t.bist, regain := t.regain, granary := t.granary
    fills := t.fills, scrubTs := t.scrubTs, scrubSp := t.scrubSp, fromOff := t.fromOff, segPend := t.segPend }

/-- The engines, queues and units of a partition as a hold leaves them. -/
def State.holdParts (s : State) (n : Nat) : State :=
  (((s.modTile n fun _ => (s.tile n).held).loadMap n).stopUnits n).modStack n fun k => { k with
    inAtom := []
    queue := (k.queue.map fun e => (e.1, e.2.filter fun a => a.op.host)).filter fun e => !e.2.isEmpty }

theorem State.holdParts_parts (s : State) (n : Nat) : ((s.holdParts n).tile n).queues = [] ∧ ((s.holdParts n).stack n).units = [] ∧
    (∀ k, (s.holdParts n).seqState k = s.seqState k) ∧ (s.holdParts n).flt = s.flt ∧ (s.holdParts n).mem = s.mem ∧ (s.holdParts n).que = s.que ∧
    (s.holdParts n).pending = s.pending ∧ (s.holdParts n).cfg = s.cfg := by
  have tile : ((s.holdParts n).tile n).queues = [] := by
    have same : (s.holdParts n).tile n = (s.modTile n fun _ => (s.tile n).held).tile n := rfl
    rw [same, State.modTile_tile]
    rfl
  have units : ((s.holdParts n).stack n).units = [] := by
    unfold State.holdParts
    rw [State.stack_modStack]
    exact congrArg Stack.units (State.stack_modStack _ n fun k => { k with units := [], slots := [], shadows := [] })
  refine ⟨tile, units, fun k => ?_, rfl, rfl, rfl, rfl, rfl⟩
  have same : (s.holdParts n).get (R.TILE_SEQ_STATUS.STATE k) =
    (((s.modTile n fun _ => (s.tile n).held).loadMap n).put (R.NBU_BUSY.UNITS n) 0).get (R.TILE_SEQ_STATUS.STATE k) := rfl
  rw [State.seqState, same, State.get_put_other _ _ (by simp only [Field.key, R.TILE_SEQ_STATUS.STATE, R.NBU_BUSY.UNITS]; omega), State.loadMap]
  rw [State.putBit, State.get_put_other _ _ (by simp only [Field.key, R.TILE_SEQ_STATUS.STATE, R.TILE_ENGINE_MAP.DOUBLED]; omega),
    State.get_put_other _ _ (by simp only [Field.key, R.TILE_SEQ_STATUS.STATE, R.TILE_ENGINE_MAP.SPARE]; omega),
    State.get_put_other _ _ (by simp only [Field.key, R.TILE_SEQ_STATUS.STATE, R.TILE_ENGINE_MAP.PHYS]; omega)]
  rfl

theorem State.holdPart_eq (s : State) (n : Nat) : s.holdPart n =
    let u := (s.holdParts n).holdRegs n
    let v := u.put R.GLB_READY.PART_OK (setBit (u.get R.GLB_READY.PART_OK) n false)
    let parts := v.flt.faultParts.filter fun x => x != n
    { v with
      flt := { v.flt with
        heldParts := if v.flt.heldParts.contains n then v.flt.heldParts else v.flt.heldParts ++ [n]
        fatalParts := v.flt.fatalParts.filter fun x => x != n
        faultParts := parts }
      pins := { v.pins with faultN := v.pins.faultN || (!v.flt.faultParts.isEmpty && parts.isEmpty) } } := rfl

theorem State.holdPart_holds (s : State) {n : Nat} (hn : n < 16) : s.Held (s.holdPart n) n := by
  obtain ⟨queues, units, seqs, flt, mem, que, pending, cfg⟩ := s.holdParts_parts n
  rw [State.holdPart_eq]
  dsimp only
  generalize s.holdParts n = p at *
  have only := p.holdRegs_only n
  have seqs' (k : Nat) := p.holdRegs_seq n k
  generalize p.holdRegs n = u at *
  have ok := u.partOk_judged n false hn
  have seqV (k : Nat) : (u.put R.GLB_READY.PART_OK (setBit (u.get R.GLB_READY.PART_OK) n false)).seqState k = if k = n then seqIdle else s.seqState k := by
    rw [State.seqState, State.get_put_other _ _ (by simp only [Field.key, R.TILE_SEQ_STATUS.STATE, R.GLB_READY.PART_OK]; omega), ← seqs k]
    exact seqs' k
  have same : (u.put R.GLB_READY.PART_OK (setBit (u.get R.GLB_READY.PART_OK) n false)) =
    { p with regs := (u.put R.GLB_READY.PART_OK (setBit (u.get R.GLB_READY.PART_OK) n false)).regs } := by
    rw [State.put, only]
  generalize u.put R.GLB_READY.PART_OK (setBit (u.get R.GLB_READY.PART_OK) n false) = v at *
  have tiles : v.tile n = p.tile n := (congrArg (fun w : State => w.tile n) same :)
  have units_ : v.stack n = p.stack n := (congrArg (fun w : State => w.stack n) same :)
  have fltV : v.flt = s.flt := (congrArg State.flt same :).trans flt
  refine ⟨?_, ok.trans (if_pos rfl), fun k _ => seqV k, (congrArg Tile.queues tiles).trans queues, (congrArg Stack.units units_).trans units,
    (congrArg Flt.holdWait fltV :), (congrArg State.mem same :).trans mem, (congrArg State.que same :).trans que,
    (congrArg State.pending same :).trans pending, (congrArg State.cfg same :).trans cfg⟩
  dsimp only
  by_cases there : v.flt.heldParts.contains n = true
  · rw [if_pos there]
    simpa using there
  · rw [if_neg there]
    simp

/-- A partition whose Granary is empty is held, and the packet that asked for it completes. -/
theorem completes_holdDone {s : State} {n i : Nat} {T : Ticket} (alive : s.alive = true) (hn : n < 16) (tickets : s.que.tickets = [T])
    (host : T.origin = .host i) (none_ : s.cfg.finishing = []) (flush : s.cfg.granaryFlush = []) (holds : s.flt.holdWait = [(n, T.no)])
    (free : ∀ k, k < 16 → s.seqState k ≠ seqHeld) : Completes (.granaryFlushDone n) s fun t =>
      n ∈ t.flt.heldParts ∧ t.partOk n = false ∧ t.seqState n = seqIdle ∧ (t.tile n).queues = [] ∧ (t.stack n).units = [] ∧
        t.flt.holdWait = [] ∧ t.que.tickets = [] ∧ t.mem = s.mem := by
  let b : State := { s with cfg := { s.cfg with granaryFlush := [] }, flt := { s.flt with holdWait := [] } }
  have unfolded : s.flushDone n = (((b.flushGranary n).holdPart n).finish T.no { status := .ok }).releaseSettled := by
    unfold State.flushDone
    dsimp only
    rw [flush, holds]
    simp only [List.filter_cons, beq_self_eq_true, if_true, List.filter_nil, bne_self_eq_false, Bool.false_eq_true, if_false, List.foldl_cons,
      List.foldl_nil]
    rfl
  have held := (b.flushGranary n).holdPart_holds hn
  obtain ⟨-, get, mem, que, pending, cfg, flt⟩ := b.flushGranary_empties n
  have seqs (k : Nat) : (b.flushGranary n).seqState k = s.seqState k := by
    rw [State.seqState, get _ (by simp only [Field.key, R.TILE_SEQ_STATUS.STATE, R.TSTORE_GRANARY_EVENTS.WRITEBACKS]; omega)]
    rfl
  generalize b.flushGranary n = g at *
  generalize g.holdPart n = h at *
  have ticketsH : h.que.tickets = [T] := (congrArg Que.tickets (held.que.trans que)).trans tickets
  rw [State.finish_only _ ticketsH host] at unfolded
  generalize hc : (⟨T.packet.tag, _, _, _, _, _, _, _⟩ : Completion) = c at unfolded
  have posts := State.Posts.postCq (h.withTickets []) i c
  have shape : ({ h with que := { h.que with tickets := [] } } : State) = h.withTickets [] := rfl
  rw [shape] at unfolded
  have same : (h.withTickets []).flt = h.flt ∧ (h.withTickets []).partOk n = h.partOk n ∧ (∀ k, (h.withTickets []).seqState k = h.seqState k) ∧
      (h.withTickets []).tile n = h.tile n ∧ (h.withTickets []).stack n = h.stack n ∧ (h.withTickets []).mem = h.mem ∧
      (h.withTickets []).pending = h.pending ∧ (h.withTickets []).cfg = h.cfg ∧ (h.withTickets []).que.tickets = [] :=
    ⟨rfl, rfl, fun _ => rfl, rfl, rfl, rfl, rfl, rfl, rfl⟩
  generalize h.withTickets [] = e at *
  obtain ⟨fltE, okE, seqE, tileE, stackE, memE, pendE, cfgE, none_E⟩ := same
  generalize e.postCq i c = t at *
  have seqT (k : Nat) (hk : k < 16) : t.seqState k = if k = n then seqIdle else s.seqState k := by
    rw [State.seqState, posts.get _ (Field.notPosted_of_lo 0 rfl (by decide)), ← seqs k]
    exact (seqE k).trans (held.seqs k hk)
  rw [State.releaseSettled_nothing ((congrArg Cfg.finishing (posts.cfg.trans (cfgE.trans (held.cfg.trans cfg)))).trans none_) fun k hk => by
    rw [seqT k hk]
    split
    · decide
    · exact free k hk] at unfolded
  refine completes_act (f := fun s => s.flushDone n) alive rfl unfolded (posts.tickets.trans none_E)
    (posts.pending.trans (pendE.trans (held.pending.trans pending))) ⟨?_, ?_, (seqT n hn).trans (if_pos rfl), ?_, ?_, ?_, posts.tickets.trans none_E,
      posts.mem.trans (memE.trans (held.mem.trans mem))⟩
  · rw [posts.flt, fltE]
    exact held.out
  · rw [State.partOk, posts.get _ ⟨by decide, .inr (by decide)⟩]
    exact okE.trans held.ok
  · rw [State.tile, posts.tiles]
    exact (congrArg Tile.queues tileE).trans held.queues
  · rw [posts.stack, stackE]
    exact held.units
  · rw [posts.flt, fltE, held.waits, flt]

/-! ### An engine's self-test (R587) -/

theorem completes_bistDone {s : State} {n i e : Nat} {T : Ticket} (ok : Bool) (alive : s.alive = true) (tickets : s.que.tickets = [T])
    (host : T.origin = .host i) (awaits : T.awaiting = []) (there : (s.tile n).bist = some (e, T.no)) :
    Completes (.engineBistDone n ok) s fun t => (t.tile n).bist = none ∧
      (t.tile n).regain = (if ok then some e else (s.tile n).regain) ∧ t.que.tickets = [] ∧ t.mem = s.mem := by
  have tile := State.modTile_tile s n fun t => { t with bist := none, regain := if ok then some e else t.regain }
  have kept : (s.modTile n fun t => { t with bist := none, regain := if ok then some e else t.regain }).que = s.que ∧
      (s.modTile n fun t => { t with bist := none, regain := if ok then some e else t.regain }).pending = s.pending ∧
      (s.modTile n fun t => { t with bist := none, regain := if ok then some e else t.regain }).mem = s.mem := ⟨rfl, rfl, rfl⟩
  have effect : s.bistDone n ok = (s.modTile n fun t => { t with bist := none, regain := if ok then some e else t.regain }).finish T.no
      { status := if ok then .ok else .failDevice, detail := 0 } := by
    unfold State.bistDone
    rw [there]
    dsimp only
    generalize (s.modTile n fun t => { t with bist := none, regain := if ok then some e else t.regain }) = u at *
    rw [State.replyWith, State.reply, State.ticket?_only ((congrArg Que.tickets kept.1).trans tickets)]
    dsimp only
    rw [awaits]
    rfl
  generalize (s.modTile n fun t => { t with bist := none, regain := if ok then some e else t.regain }) = u at *
  obtain ⟨que, pending, mem⟩ := kept
  refine completes_finishes (f := fun s => s.bistDone n ok) alive rfl effect ((congrArg Que.tickets que).trans tickets) host pending
    fun t posts => ?_
  have same : t.tile n = u.tile n := congrArg (Table.get Tile.reset n) posts.tiles
  rw [same, tile]
  exact ⟨rfl, rfl, posts.tickets, posts.mem.trans mem⟩

/-! ### A page's copy (R350) -/

/-- The bytes of a range after it has been copied from another. -/
theorem State.copyBytes_mem (s : State) (src dst n : Nat) : (s.copyBytes src dst n).mem = (s.write dst (s.read src n)).mem :=
  List.foldlRecOn (motive := fun t : State => t.mem = (s.write dst (s.read src n)).mem) _ _ rfl fun _ same _ _ => same

theorem State.copyBytes_out (s : State) (src dst n : Nat) : (s.copyBytes src dst n).out = s.out ∧ (s.copyBytes src dst n).kv = s.kv ∧
    (s.copyBytes src dst n).regs = s.regs ∧ (s.copyBytes src dst n).pending = s.pending :=
  List.foldlRecOn (motive := fun t : State => t.out = s.out ∧ t.kv = s.kv ∧ t.regs = s.regs ∧ t.pending = s.pending) _ _ ⟨rfl, rfl, rfl, rfl⟩
    fun _ same _ _ => same

theorem State.copyBytes_outside (s : State) {src dst n a : Nat} (out : ¬ (dst ≤ a ∧ a < dst + n)) : (s.copyBytes src dst n).byte a = s.byte a := by
  rw [State.byte, State.copyBytes_mem, ← State.byte]
  exact State.byte_write_outside _ _ _ _ (by rw [length_read]; exact out)

theorem State.copyBytes_read (s : State) (src dst n : Nat) : (s.copyBytes src dst n).read dst n = s.read src n := by
  have stored := s.read_write dst (s.read src n)
  rw [length_read] at stored
  rw [State.read_of_mem (s.copyBytes_mem src dst n), stored]

theorem State.read_within {s t : State} {a n : Nat} (h : ∀ x, a ≤ x → x < a + n → t.byte x = s.byte x) : t.read a n = s.read a n := by
  induction n generalizing a with
  | zero => rfl
  | succ n ih => rw [State.read, State.read, h a (le_refl a) (by omega), ih fun x low high => h x (by omega) (by omega)]

/-- The pools of a tile are none of the far tier's counts. -/
theorem State.pool_countFarPoison (s : State) (a len n tier : Nat) : (s.countFarPoison a len).pool n tier = s.pool n tier := by
  have get (f : Field) (hf : f.key ≠ R.CXLD_COUNTS.POISON_READS.key) : (s.countFarPoison a len).get f = s.get f := by
    unfold State.countFarPoison
    split
    · rfl
    · exact State.get_put_other _ _ hf
  unfold State.pool
  split <;> refine Prod.ext (congrArg (· * 16384) (get _ ?_)) (get _ ?_) <;>
    simp only [Field.key, R.CXLD_COUNTS.POISON_READS, R.TILE_KV_POOL_TS.BASE, R.TILE_KV_POOL_TS.GRANULES, R.TILE_KV_POOL_ST.BASE,
      R.TILE_KV_POOL_ST.GRANULES, R.TILE_KV_POOL_FAR.BASE, R.TILE_KV_POOL_FAR.GRANULES] <;> omega

theorem State.pool_of_regs {s t : State} (h : t.regs = s.regs) (n tier : Nat) : t.pool n tier = s.pool n tier := by
  have get := State.get_of_regs h
  unfold State.pool
  split <;> simp only [get]

/-- What a copy of a page leaves: the page, its headers, and nothing else. -/
theorem State.copySlots_copies (s : State) {n tierA a tierB b len : Nat} (apart : b + len ≤ headerOf (s.pool n tierB) b) :
    (s.copySlots n tierA a tierB b len).read b len = s.read a len ∧
      (∀ x, ¬ (b ≤ x ∧ x < b + len) → ¬ (headerOf (s.pool n tierB) b ≤ x ∧ x < headerOf (s.pool n tierB) b + len / 64) →
        (s.copySlots n tierA a tierB b len).byte x = s.byte x) ∧
      (s.copySlots n tierA a tierB b len).kv = s.kv ∧ (s.copySlots n tierA a tierB b len).out = s.out ∧
      (s.copySlots n tierA a tierB b len).pending = s.pending := by
  obtain ⟨out, kv, regs, pending⟩ := s.copyBytes_out a b len
  have pool := State.pool_of_regs regs n tierB
  have data := s.copyBytes_read a b len
  have outside (x : Nat) := s.copyBytes_outside (src := a) (dst := b) (n := len) (a := x)
  unfold State.copySlots
  dsimp only
  generalize s.copyBytes a b len = u at *
  obtain ⟨out', kv', -, pending'⟩ := u.copyBytes_out (headerOf (u.pool n tierA) a) (headerOf (u.pool n tierB) b) (len / 64)
  rw [pool] at *
  refine ⟨(State.read_within fun x low high => u.copyBytes_outside (by omega)).trans data, fun x h k => ?_, kv'.trans kv, out'.trans out,
    pending'.trans pending⟩
  exact (u.copyBytes_outside k).trans (outside x h)

/-- The copies of a page have ended. -/
def State.copiesEnd (s : State) (n addr : Nat) : State :=
  { s with kv := { s.kv with copies := s.kv.copies.map fun x =>
      if x.page.tile == n && x.page.addr == addr then { x with ended := true } else x } }

theorem completes_spillCopy {s : State} {n : Nat} {c : KvCopy} (alive : s.alive = true)
    (found : (s.kv.copies.find? fun x => x.page.tile == n && x.page.addr == c.page.addr && !x.ended) = some c)
    (apart : c.addr + 16384 * 2 ^ c.page.size ≤ headerOf (s.pool n c.tier) c.addr) : Completes (.spillCopyDone n c.page.addr) s fun t =>
      t.read c.addr (16384 * 2 ^ c.page.size) = s.read c.page.addr (16384 * 2 ^ c.page.size) ∧
        (∀ x, ¬ (c.addr ≤ x ∧ x < c.addr + 16384 * 2 ^ c.page.size) → ¬ (headerOf (s.pool n c.tier) c.addr ≤ x ∧
          x < headerOf (s.pool n c.tier) c.addr + 16384 * 2 ^ c.page.size / 64) → t.byte x = s.byte x) ∧
        (∀ x ∈ t.kv.copies, x.page.tile = n → x.page.addr = c.page.addr → x.ended = true) ∧ t.out = s.out := by
  have counted : (s.countFarPoison c.page.addr (16384 * 2 ^ c.page.size)).mem = s.mem ∧
      (s.countFarPoison c.page.addr (16384 * 2 ^ c.page.size)).kv = s.kv ∧
      (s.countFarPoison c.page.addr (16384 * 2 ^ c.page.size)).out = s.out ∧
      (s.countFarPoison c.page.addr (16384 * 2 ^ c.page.size)).pending = s.pending := by
    unfold State.countFarPoison
    split <;> exact ⟨rfl, rfl, rfl, rfl⟩
  have pool := s.pool_countFarPoison c.page.addr (16384 * 2 ^ c.page.size) n c.tier
  have unfolded : s.copyEnds n c.page.addr =
      ((s.countFarPoison c.page.addr (16384 * 2 ^ c.page.size)).copySlots n c.page.tier c.page.addr c.tier c.addr
        (16384 * 2 ^ c.page.size)).copiesEnd n c.page.addr := by
    rw [State.copyEnds, found]
    rfl
  obtain ⟨mem, kv, out, pending⟩ := counted
  generalize s.countFarPoison c.page.addr (16384 * 2 ^ c.page.size) = v at *
  obtain ⟨copied, outside, kv', out', pending'⟩ := v.copySlots_copies (tierA := c.page.tier) (a := c.page.addr)
    (tierB := c.tier) (len := 16384 * 2 ^ c.page.size) (by rw [pool]; exact apart)
  generalize v.copySlots n c.page.tier c.page.addr c.tier c.addr (16384 * 2 ^ c.page.size) = u at *
  have kept : (u.copiesEnd n c.page.addr).mem = u.mem ∧
    (u.copiesEnd n c.page.addr).out = u.out ∧
    (u.copiesEnd n c.page.addr).pending = u.pending ∧
    (u.copiesEnd n c.page.addr).kv.copies = u.kv.copies.map fun x =>
        if x.page.tile == n && x.page.addr == c.page.addr then { x with ended := true } else x := ⟨rfl, rfl, rfl, rfl⟩
  have runs : exec (.spillCopyDone n c.page.addr) s = s.whenAlive fun s => s.copyEnds n c.page.addr := rfl
  generalize (u.copiesEnd n c.page.addr) = t at *
  obtain ⟨memT, outT, pendT, copies⟩ := kept
  refine completes_whenAlive (f := fun s => s.copyEnds n c.page.addr) (t := t) alive runs unfolded (pendT.trans (pending'.trans pending))
    ⟨?_, fun x h k => ?_, fun x hx tile addr => ?_, outT.trans (out'.trans out)⟩
  · exact (State.read_of_mem memT _ _).trans (copied.trans (State.read_of_mem mem _ _))
  · rw [← pool] at k
    have same : t.byte x = u.byte x := by rw [State.byte, memT, State.byte]
    refine same.trans ((outside x h k).trans ?_)
    rw [State.byte, mem, State.byte]
  · rw [copies] at hx
    obtain ⟨y, -, rfl⟩ := List.mem_map.1 hx
    by_cases here : (y.page.tile == n && y.page.addr == c.page.addr) = true
    · rw [if_pos here]
    · rw [if_neg here] at tile addr
      exact absurd (by simp [tile, addr]) here

/-! ### Memory initialisation (R398, R426) -/

/-- What training found on the stacks, kept and shown. -/
def State.lanesFound (s : State) (found : List (Nat × Nat × List Nat)) : State :=
  found.foldl (fun (s : State) x =>
    let n := x.1
    let failed := x.2.2
    let bad := failed.any fun m => decide (2 < (failed.filter fun k => k / 64 == m / 64).length)
    let s := s.modStack n fun k => { k with marked := marksOf failed, corrected := [] }
    let s := (s.put (R.STACK_LANE_STATUS.SPARES_USED n) x.2.1).put (R.STACK_LANE_STATUS.ERASED_LANES n) (marksOf failed).length
    if bad then { s with flt := { s.flt with trainFailed := s.flt.trainFailed ++ [n] } } else s) s

theorem State.lanesFound_same (s : State) (found : List (Nat × Nat × List Nat)) :
    (s.lanesFound found).mem = s.mem ∧ (s.lanesFound found).out = s.out ∧ (s.lanesFound found).pending = s.pending :=
  List.foldlRecOn (motive := fun t : State => t.mem = s.mem ∧ t.out = s.out ∧ t.pending = s.pending) _ _ ⟨rfl, rfl, rfl⟩ fun t same x _ => by
    dsimp only
    split <;> exact same

theorem State.memZeroed_byte (s : State) (a : Nat) :
    s.memZeroed.byte a = if (0xF00000000 ≤ a ∧ a < 0x1000000000) ∨ farBase ≤ a then s.byte a else 0 := by
  refine (Table.get_filter 0 a (fun k => decide (0xF00000000 ≤ k ∧ k < 0x1000000000) || decide (farBase ≤ k)) s.mem).trans (if_congr ?_ rfl rfl)
  simp

theorem completes_memoryInit {s : State} (found : List (Nat × Nat × List Nat)) (alive : s.alive = true) (started : s.sec.started = true)
    (first : s.isSet R.GLB_READY.MEM_OK = false) : Completes (.memoryInitDone found) s fun t =>
      t.isSet R.GLB_READY.MEM_OK = true ∧ (∀ a, a < 0x120000000 ∨ (0x1000000000 ≤ a ∧ a < 0xD000000000) → t.byte a = 0) ∧
        (∀ a, farBase ≤ a → t.byte a = s.byte a) ∧ t.out = s.out := by
  have unfolded : s.memoryInit found = ((s.memZeroed.lanesFound found).putBit R.GLB_READY.MEM_OK true).refreshLinks := by
    rw [State.memoryInit, if_neg (by rw [started, first]; decide)]
    rfl
  have runs : exec (.memoryInitDone found) s = s.whenAlive fun s => s.memoryInit found := rfl
  obtain ⟨mem, out, pending⟩ := s.memZeroed.lanesFound_same found
  have zeroed := s.memZeroed_byte
  have kept : s.memZeroed.out = s.out ∧ s.memZeroed.pending = s.pending := ⟨rfl, rfl⟩
  generalize s.memZeroed = z at *
  generalize z.lanesFound found = u at *
  have only := (u.putBit R.GLB_READY.MEM_OK true).refreshLinks_only
  have shown : (u.putBit R.GLB_READY.MEM_OK true).isSet R.GLB_READY.MEM_OK = true := State.isSet_putBit (by decide) true
  have same : (u.putBit R.GLB_READY.MEM_OK true).mem = u.mem ∧ (u.putBit R.GLB_READY.MEM_OK true).out = u.out ∧
    (u.putBit R.GLB_READY.MEM_OK true).pending = u.pending := ⟨rfl, rfl, rfl⟩
  generalize u.putBit R.GLB_READY.MEM_OK true = v at *
  generalize v.refreshLinks = t at *
  have bytes (a : Nat) : t.byte a = if (0xF00000000 ≤ a ∧ a < 0x1000000000) ∨ farBase ≤ a then s.byte a else 0 := by
    rw [← zeroed a, State.byte, only.leaves.1, same.1, mem, State.byte]
  refine completes_whenAlive (f := fun s => s.memoryInit found) (t := t) alive runs unfolded
    (only.pending.trans (same.2.2.trans (pending.trans kept.2))) ⟨(only.isSet (by decide)).trans shown, fun a within => ?_, fun a far => ?_,
      only.leaves.2.1.trans (same.2.1.trans (out.trans kept.1))⟩
  · rw [bytes, if_neg (by simp only [farBase]; omega)]
  · rw [bytes, if_pos (.inr far)]

end Sys2Proof.Machine
end

section
/-!
SUPPORT. Adapter versions (O41): a load with and without room, the end of the wait, and the verification of what was placed.
-/

namespace Sys2Proof.Machine

/-- An image that passes the checks is placed by its own directory. -/
theorem State.adapterCheck_dir {s : State} {i : Nat} {b : Bytes} {dir : List Reserve} (h : s.adapterCheck i b = .ok dir) :
    dir = (sliceDir b).map Prod.fst := by
  unfold State.adapterCheck at h
  dsimp only at h
  split at h
  · cases h
  split at h
  · cases h
  split at h
  · cases h
  split at h
  · cases h
  split at h
  · cases h
  split at h
  · cases h
  split at h
  · cases h
  cases h
  rfl

/-- The one version of that name is found. -/
theorem State.version?_last {s : State} {a : Adapter} {l : List Adapter} (h : s.srv.adapters = l ++ [a]) :
    (s.version? a.inst a.id a.ver).isSome = true := by
  rw [State.version?, h, List.find?_isSome]
  exact ⟨a, List.mem_append_right _ (List.mem_singleton.2 rfl), by simp⟩

/-- Memory and what is served from it alone have changed. -/
def State.placesOnly (s t : State) : Prop := t = { s with mem := t.mem, poison := t.poison, kv := t.kv, srv := t.srv }

theorem State.placesOnly.trans {a b c : State} (h : a.placesOnly b) (k : b.placesOnly c) : a.placesOnly c := by
  rw [State.placesOnly] at k ⊢
  refine k.trans ?_
  rw [h]

theorem tryAll_places {α : Type} {f : State → α → Option State} (h : ∀ s x t, f s x = some t → s.placesOnly t) {l : List α} {s t : State}
    (all : tryAll f s l = some t) : s.placesOnly t := by
  induction l generalizing s with
  | nil => cases all; rfl
  | cons x l ih =>
    simp only [tryAll] at all
    split at all
    · next u first => exact (h _ _ _ first).trans (ih all)
    · cases all

theorem State.placed_only (s : State) (x : Slice) (l : List Slice) :
    s.placesOnly { s.writeSlice x with srv := { s.srv with slices := l } } := rfl

theorem State.placeSlices_only {s u : State} {i id ver : Nat} {b : Bytes} {dir : List Reserve} (h : s.placeSlices i id ver b dir = some u) :
    s.placesOnly u := by
  refine tryAll_places (fun s e t step => ?_) h
  dsimp only at step
  split at step
  · cases step
  · split at step
    · next v m _ alloc =>
      obtain ⟨x, -, made⟩ := Option.map_eq_some_iff.1 alloc
      have first : s.placesOnly v := by
        rw [← show _ = v from congrArg Prod.fst made]
        rfl
      rw [← Option.some.inj step]
      exact first.trans (State.placed_only v ..)
    · cases step

/-- A version starts to load where the slices of this device can be placed. -/
theorem State.startLoad_places {s u : State} {T : Ticket} {a : Adapter} {b : Bytes} (tickets : s.que.tickets = [T]) (mine : a.ticket = some T.no)
    (alone : s.others = []) (image : b = s.read a.imageAddr a.imageLen)
    (there : (s.version? a.inst a.id a.ver).isSome = true) (here : ((sliceDir b).map Prod.fst).any (fun e => e.device == s.self) = true)
    (placed : ((s.awaitSelf T.no).modAdapter a.inst a.id a.ver fun x => { x with state := .loading }).placeSlices a.inst a.id a.ver b
      ((sliceDir b).map Prod.fst) = some u) : s.startLoad a = u := by
  have self : u.self = s.self := (congrArg State.self (State.placeSlices_only placed) :)
  rw [State.startLoad, mine]
  dsimp only [Option.bind_some]
  rw [State.ticket?_only tickets]
  dsimp only
  rw [alone, ← image]
  have stays : ((s.awaitSelf T.no).forwardTo T.no { T.packet with p4 := a.ver } (some b) []) = s.awaitSelf T.no := rfl
  rw [stays, State.loadVersion]
  dsimp only
  have known : ((s.awaitSelf T.no).version? a.inst a.id a.ver).isSome = true := there
  rw [if_pos known, placed]
  dsimp only
  rw [self, if_pos here]

/-! ### A version that waits (R103, R104) -/

/-- What remains when slices of a version are dropped. -/
theorem State.dropVersion_only (s : State) (i id ver : Nat) : s.placesOnly (s.dropVersion i id ver) ∧ (s.dropVersion i id ver).mem = s.mem ∧
    (s.dropVersion i id ver).srv.adapters = s.srv.adapters.filter fun a => !(a.inst == i && a.id == id && a.ver == ver) := by
  have freed (l : List Slice) (t : State) : t.placesOnly (l.foldl (fun (s : State) x => s.ownFree x.master) t) ∧
      (l.foldl (fun (s : State) x => s.ownFree x.master) t).mem = t.mem ∧ (l.foldl (fun (s : State) x => s.ownFree x.master) t).srv = t.srv := by
    induction l generalizing t with
    | nil => exact ⟨rfl, rfl, rfl⟩
    | cons x l ih =>
      obtain ⟨only, mem, srv⟩ := ih (t.ownFree x.master)
      exact ⟨State.placesOnly.trans (b := t.ownFree x.master) rfl only, mem, srv⟩
  obtain ⟨only, mem, srv⟩ := freed (s.srv.slices.filter fun x => x.inst == i && x.id == id && x.ver == ver) s
  unfold State.dropVersion State.dropSlices
  dsimp only
  generalize (s.srv.slices.filter fun x => x.inst == i && x.id == id && x.ver == ver).foldl (fun (s : State) x => s.ownFree x.master) s = t at *
  exact ⟨only.trans rfl, mem, by rw [srv]⟩

theorem State.adapterCheck_of_cfg {s t : State} (h : t.cfg = s.cfg) (i : Nat) (b : Bytes) : t.adapterCheck i b = s.adapterCheck i b := by
  have inst : t.activeInst i = s.activeInst i := by rw [State.activeInst, h, State.activeInst]
  unfold State.adapterCheck
  rw [inst]

theorem State.adapterRoom_of {s t : State} (cfg : t.cfg = s.cfg) (srv : t.srv = s.srv) (a : Adapter) : t.adapterRoom a = s.adapterRoom a := by
  have inst : t.activeInst a.inst = s.activeInst a.inst := by rw [State.activeInst, cfg, State.activeInst]
  unfold State.adapterRoom
  rw [inst, srv]

/-- A packet that waits for room has been told so. -/
theorem State.markPending_marks {s : State} {T : Ticket} {i : Nat} (tickets : s.que.tickets = [T]) (fresh : T.pending = false)
    (host : T.origin = .host i) : (s.markPending T.no).que.tickets = [{ T with pending := true }] ∧ (s.markPending T.no).mem = s.mem ∧
      (s.markPending T.no).srv = s.srv ∧ (s.markPending T.no).pending = s.pending := by
  have marked := State.mapTicket_only (fun t => { t with pending := true }) tickets
  have posts := State.Posts.postCq (s.withTickets [{ T with pending := true }]) i ⟨T.packet.tag, T.packet.opcode, .pending, false, 0, s.self, 0, 0⟩
  have unfolded : s.markPending T.no = (s.withTickets [{ T with pending := true }]).postCq i
      ⟨T.packet.tag, T.packet.opcode, .pending, false, 0, s.self, 0, 0⟩ := by
    rw [State.markPending, State.ticket?_only tickets]
    dsimp only
    rw [fresh, if_neg (by decide), marked, host]
    rfl
  rw [unfolded]
  exact ⟨posts.tickets, posts.mem, posts.srv, posts.pending⟩

section
variable {s : State} {p : Packet} {dir : List Reserve} {a : Adapter}
  (checked : s.adapterCheck (bits p.p0 0 4) (s.read p.p1 p.p2) = .ok dir) (serves : bits p.p0 0 4 ∉ s.srv.suspended)
  (few : (s.srv.adapters.filter fun x => x.inst == bits p.p0 0 4).length < 1024)
  (named : a = ⟨bits p.p0 0 4, bits p.p0 32 32,
    ((s.srv.adapters.filter fun x => x.inst == bits p.p0 0 4 && x.id == bits p.p0 32 32).map fun x => x.ver).foldl max 0 + 1,
    .pending, p.p1, p.p2, sha384 (s.read p.p1 p.p2), dir, some s.que.nextNo, none⟩)
include checked serves few named

/-- What the packet comes to where its image passes. -/
theorem State.runHost_adapterLoad : let H := s.holding (s.nextTicket (p.op 0x23) none none)
    H.runHost (s.nextTicket (p.op 0x23) none none) =
      if s.adapterRoom a then ({ H with srv := { s.srv with adapters := s.srv.adapters ++ [a] } } : State).startLoad a
      else if p.noWait then H.finishWith s.que.nextNo .rejNoSpace
      else ({ H with srv := { s.srv with adapters := s.srv.adapters ++ [a] } } : State).markPending s.que.nextNo := by
  intro H
  have same : H.cfg = s.cfg ∧ H.srv = s.srv ∧ H.mem = s.mem := ⟨rfl, rfl, rfl⟩
  have run : H.runHost (s.nextTicket (p.op 0x23) none none) = H.adapterLoad (s.nextTicket (p.op 0x23) none none) := rfl
  clear_value H
  obtain ⟨cfg, srv, mem⟩ := same
  have image := State.read_of_mem mem p.p1 p.p2
  have checkedH := (State.adapterCheck_of_cfg cfg (bits p.p0 0 4) (s.read p.p1 p.p2)).trans checked
  have room := State.adapterRoom_of cfg srv a
  have served : H.isSuspended (bits p.p0 0 4) = false := by simpa [State.isSuspended, srv] using serves
  have fits : decide (1024 ≤ (s.srv.adapters.filter fun x => x.inst == bits p.p0 0 4).length) = false := by
    simpa using few
  have packet : (s.nextTicket (p.op 0x23) none none).packet.p0 = p.p0 ∧ (s.nextTicket (p.op 0x23) none none).packet.p1 = p.p1 ∧
    (s.nextTicket (p.op 0x23) none none).packet.p2 = p.p2 ∧ (s.nextTicket (p.op 0x23) none none).packet.noWait = p.noWait ∧
    (s.nextTicket (p.op 0x23) none none).no = s.que.nextNo := ⟨rfl, rfl, rfl, rfl, rfl⟩
  obtain ⟨p0, p1, p2, wait, no⟩ := packet
  rw [run, State.adapterLoad]
  dsimp only
  rw [p0, p1, p2, wait, no, image, checkedH]
  dsimp only
  rw [served, srv, fits, ← named, room]
  rfl

/-- A load with room is under way. -/
theorem completes_adapterLoad {u z : State} (alone : s.alone) (takes : s.takes (p.op 0x23)) (room : s.adapterRoom a = true)
    (here : dir.any (fun e => e.device == s.self) = true)
    (made : z = { s.accepted (p.op 0x23) none none with srv := { s.srv with adapters := s.srv.adapters ++ [a] } })
    (placed : ((z.awaitSelf s.que.nextNo).modAdapter a.inst a.id a.ver fun x => { x with state := .loading }).placeSlices a.inst a.id a.ver
      (s.read p.p1 p.p2) dir = some u) : Completes (.adapterLoad p) s fun t => t = u := by
  have runs := State.runHost_adapterLoad checked serves few named
  have directory := State.adapterCheck_dir checked
  have mine : a.ticket = some (s.nextTicket (p.op 0x23) none none).no := by rw [named]; rfl
  have image : s.read p.p1 p.p2 = s.read a.imageAddr a.imageLen := by rw [named]
  dsimp only at runs
  rw [if_pos room, State.holding_accepted _ _ _ takes.2.2.1, ← made] at runs
  have fields : z.que.tickets = [s.nextTicket (p.op 0x23) none none] ∧ z.others = [] ∧ z.mem = s.mem ∧ z.self = s.self ∧
      z.srv.adapters = s.srv.adapters ++ [a] ∧ z.pending = s.pending := by
    rw [made, ← State.holding_accepted _ _ _ takes.2.2.1]
    exact ⟨rfl, State.others_alone alone, rfl, rfl, rfl, rfl⟩
  obtain ⟨tickets, others, mem, self, adapters, pending⟩ := fields
  have starts := State.startLoad_places (b := s.read p.p1 p.p2) tickets mine others (image.trans (State.read_of_mem mem _ _).symm)
    (State.version?_last adapters) (by rw [self, ← directory]; exact here) (by rw [← directory]; exact placed)
  have only := State.placeSlices_only placed
  have waiting : u.que.tickets = [{ s.nextTicket (p.op 0x23) none none with awaiting := [(z.self, 0)] }] := by
    have same : u.que = (z.awaitSelf s.que.nextNo).que := (congrArg State.que only :)
    rw [same, State.awaitSelf, State.mapTicket, tickets]
    simp [State.nextTicket]
  have pend : u.pending = z.pending := (congrArg State.pending only :)
  rw [← State.holding_accepted _ _ _ takes.2.2.1] at runs
  exact completes_submit_open takes rfl (State.submit_holding takes rfl) (runs.trans starts) waiting rfl rfl (.inl (by nofun)) (pend.trans pending) rfl

/-- A load without room that may not wait. -/
theorem completes_adapterRefused (takes : s.takes (p.op 0x23)) (full : s.adapterRoom a = false) (now : p.noWait = true) :
    Completes (.adapterLoad p) s fun t => t = s.counted.completed (p.op 0x23) { status := .rejNoSpace } := by
  have runs := State.runHost_adapterLoad checked serves few named
  dsimp only at runs
  rw [full, now] at runs
  exact completes_submit_answer (q := p.op 0x23) takes rfl rfl runs

/-- A load without room that waits. -/
theorem completes_adapterWaits (takes : s.takes (p.op 0x23)) (full : s.adapterRoom a = false) (later : p.noWait = false) :
    Completes (.adapterLoad p) s fun t => t.srv.adapters = s.srv.adapters ++ [a] ∧ t.que.tickets.map Ticket.no = [s.que.nextNo] ∧
      t.mem = s.mem := by
  have runs := State.runHost_adapterLoad checked serves few named
  dsimp only at runs
  rw [full, later] at runs
  simp only [Bool.false_eq_true, if_false] at runs
  have marked := State.markPending_marks (s := { s.holding (s.nextTicket (p.op 0x23) none none) with
    srv := { s.srv with adapters := s.srv.adapters ++ [a] } }) (T := s.nextTicket (p.op 0x23) none none) rfl rfl rfl
  have no : (s.nextTicket (p.op 0x23) none none).no = s.que.nextNo := rfl
  rw [no] at marked
  have kept : ({ s.holding (s.nextTicket (p.op 0x23) none none) with srv := { s.srv with adapters := s.srv.adapters ++ [a] } } : State).mem = s.mem ∧
    ({ s.holding (s.nextTicket (p.op 0x23) none none) with srv := { s.srv with adapters := s.srv.adapters ++ [a] } } : State).srv.adapters =
      s.srv.adapters ++ [a] ∧
    ({ s.holding (s.nextTicket (p.op 0x23) none none) with srv := { s.srv with adapters := s.srv.adapters ++ [a] } } : State).pending = s.pending :=
    ⟨rfl, rfl, rfl⟩
  generalize ({ s.holding (s.nextTicket (p.op 0x23) none none) with srv := { s.srv with adapters := s.srv.adapters ++ [a] } } : State) = z at *
  obtain ⟨tickets, mem, srv, pending⟩ := marked
  generalize z.markPending s.que.nextNo = u at *
  exact completes_submit_open takes rfl (State.submit_holding takes rfl) runs tickets rfl rfl (.inr rfl) (pending.trans kept.2.2)
    ⟨(congrArg Srv.adapters srv).trans kept.2.1, by rw [tickets]; rfl, mem.trans kept.1⟩

end

theorem State.version?_one {s : State} {a : Adapter} (only_one : s.srv.adapters = [a]) : s.version? a.inst a.id a.ver = some a := by
  rw [State.version?, only_one]
  exact List.find?_cons_of_pos (by simp)

section
variable {s : State} {a : Adapter} {T : Ticket} {i : Nat} (alone : s.alone) (alive : s.alive = true) (tickets : s.que.tickets = [T])
  (host : T.origin = .host i) (barrier : T.barrier = false) (fence : T.fence = none) (answers : T.answers = [])
  (only_one : s.srv.adapters = [a]) (mine : a.ticket = some T.no)
include alive tickets only_one mine

include alone barrier fence in
/-- Room has appeared for a version that waits. -/
theorem completes_adapterRoom {u : State} {b : Bytes} (pending : a.state = .pending) (room : s.adapterRoom a = true) (awaits : T.awaiting = [])
    (image : b = s.read a.imageAddr a.imageLen) (here : ((sliceDir b).map Prod.fst).any (fun e => e.device == s.self) = true)
    (placed : ((s.awaitSelf T.no).modAdapter a.inst a.id a.ver fun x => { x with state := .loading }).placeSlices a.inst a.id a.ver b
      ((sliceDir b).map Prod.fst) = some u) : Completes (.adapterRoom a.inst a.id a.ver) s fun t => t = u := by
  have there := State.version?_one only_one
  have starts := State.startLoad_places tickets mine (State.others_alone alone) image (by rw [there]; rfl) here placed
  have effect : s.roomFor a.inst a.id a.ver = u := by
    rw [State.roomFor, there]
    dsimp only
    rw [pending, room]
    exact starts
  have only := State.placeSlices_only placed
  have waiting : u.que.tickets = [{ T with awaiting := [(s.self, 0)] }] := by
    have same : u.que = (s.awaitSelf T.no).que := (congrArg State.que only :)
    rw [same, State.awaitSelf, State.mapTicket, tickets]
    simp [awaits]
  have pend : u.pending = s.pending := (congrArg State.pending only :)
  have settled : (s.roomFor a.inst a.id a.ver).settle = u := by
    rw [effect]
    exact State.settle_waits waiting (State.proceed_idle (State.ticket?_only waiting) barrier fence (.inl (by nofun)))
  exact completes_whenAlive (f := fun s => (s.roomFor a.inst a.id a.ver).settle) (t := u) alive rfl settled pend rfl

include host in
/-- The wait for room is over. -/
theorem completes_adapterTimeout (pending : a.state = .pending) : Completes (.adapterTimeout a.inst a.id a.ver) s fun t =>
    t.srv.adapters = [] ∧ t.que.tickets = [] ∧ t.mem = s.mem := by
  have there := State.version?_one only_one
  obtain ⟨only, mem, left⟩ := s.dropVersion_only a.inst a.id a.ver
  have effect : s.loadTimeout a.inst a.id a.ver = (s.dropVersion a.inst a.id a.ver).finish T.no { status := .rejNoSpace, detail := 0 } := by
    rw [State.loadTimeout, there]
    dsimp only
    rw [pending, mine]
    rfl
  have none_ : (s.dropVersion a.inst a.id a.ver).srv.adapters = [] := by rw [left, only_one]; simp
  generalize s.dropVersion a.inst a.id a.ver = u at *
  have que : u.que = s.que := (congrArg State.que only :)
  exact completes_finishes (f := fun s => s.loadTimeout a.inst a.id a.ver) alive rfl effect ((congrArg Que.tickets que).trans tickets) host
    (congrArg State.pending only :) fun t posts => ⟨(congrArg Srv.adapters posts.srv).trans none_, posts.tickets, posts.mem.trans mem⟩

end

/-! ### The verification of a version (R308) -/

/-- Slices are written once more. -/
theorem State.foldl_writeSlice (s : State) (l : List Slice) : s.placesOnly (l.foldl State.writeSlice s) ∧ (l.foldl State.writeSlice s).srv = s.srv :=
  List.foldlRecOn (motive := fun t : State => s.placesOnly t ∧ t.srv = s.srv) _ _ ⟨rfl, rfl⟩ fun t h x _ =>
    ⟨h.1.trans (State.placed_only t x t.srv.slices), h.2⟩

/-- A ticket whose one reply has come. -/
def Ticket.replied (T : Ticket) (r : Reply) : Ticket := { T with awaiting := [], answers := [r] }

theorem State.conclude_load (s : State) {T : Ticket} (op : T.packet.opcode = 0x23) : s.conclude T = s.loadConcluded T := by
  rw [State.conclude, op]
  rfl

/-- The reply of this device is the last that its packet waits for. -/
theorem State.replyWith_last {s : State} {T : Ticket} (st : Status) (tickets : s.que.tickets = [T]) (awaits : T.awaiting = [(s.self, 0)])
    (answers : T.answers = []) : s.replyWith T.no st = s.withTickets [T.replied ⟨s.self, st, 0, 0, 0, []⟩] := by
  rw [State.replyWith, State.reply, State.ticket?_only tickets]
  dsimp only
  rw [awaits, if_pos (by simp), State.addReply, State.mapTicket, tickets]
  simp [awaits, answers, State.withTickets, Ticket.replied]

/-- A load whose slices are whole: the version is staged. -/
theorem State.loadConcluded_stages {s : State} {T : Ticket} {a : Adapter} {r : Reply} (only_one : s.srv.adapters = [a]) (mine : a.ticket = some T.no)
    (answers : T.answers = [r]) (ok : r.status = .ok) : s.loadConcluded T =
      (s.modAdapter a.inst a.id a.ver fun x => { x with state := .staged, ticket := none }).finish T.no { status := .ok, result0 := a.ver } := by
  have none_ : refusal T.answers = none := by rw [answers, refusal, List.filter_cons_of_neg (by simp [ok])]; rfl
  rw [State.loadConcluded, only_one, List.find?_cons_of_pos (by simp [mine])]
  dsimp only
  rw [none_]

/-- A load with a slice that is not whole: the version is gone. -/
theorem State.loadConcluded_fails {s : State} {T : Ticket} {a : Adapter} {r : Reply} (only_one : s.srv.adapters = [a]) (mine : a.ticket = some T.no)
    (answers : T.answers = [r]) (bad : r.status = .failPlot) (others : s.others = []) : s.loadConcluded T =
      (s.dropVersion a.inst a.id a.ver).finish T.no r.answer := by
  have some_ : refusal T.answers = some r := by rw [answers, refusal, List.filter_cons_of_pos (by rw [bad]; decide)]; rfl
  have otherwise : (r.status == .rejNoSpace && !T.packet.noWait) = false := by rw [bad]; rfl
  have told : s.freeVersion a.inst a.id a.ver = s.dropVersion a.inst a.id a.ver := by
    have alone : (s.dropVersion a.inst a.id a.ver).others = [] := by
      rw [(s.dropVersion_only a.inst a.id a.ver).1]
      exact others
    rw [State.freeVersion, State.tellVersion, alone]
    rfl
  rw [State.loadConcluded, only_one, List.find?_cons_of_pos (by simp [mine])]
  dsimp only
  rw [some_]
  dsimp only
  rw [otherwise, told]
  rfl

/-- Slices of a version that has been judged keep no image. -/
def State.judgedSlices (s : State) (a : Adapter) : State :=
  { s with srv := { s.srv with slices := s.srv.slices.map fun x =>
    if x.inst == a.inst && x.id == a.id && x.ver == a.ver then { x with image := [] } else x } }

/-- The packet that loads a version, when its last reply is in. -/
theorem State.load_settles {s : State} {T : Ticket} {a : Adapter} {i : Nat} (st : Status) (tickets : s.que.tickets = [T])
    (awaits : T.awaiting = [(s.self, 0)]) (answers : T.answers = []) (barrier : T.barrier = false) (host : T.origin = .host i)
    (op : T.packet.opcode = 0x23) (only_one : s.srv.adapters = [a]) (mine : a.ticket = some T.no) (others : s.others = [])
    (judged : st = .ok ∨ st = .failPlot) :
    let t := (s.replyWith T.no st).settle
    t.que.tickets = [] ∧ t.mem = s.mem ∧ t.pending = s.pending ∧
      t.srv.adapters = if st = .ok then [{ a with state := .staged, ticket := none }] else [] := by
  have replied := State.replyWith_last st tickets awaits answers
  let X : State := s.withTickets [T.replied ⟨s.self, st, 0, 0, 0, []⟩]
  have adapters : X.srv.adapters = [a] := only_one
  have conclude : X.conclude (T.replied ⟨s.self, st, 0, 0, 0, []⟩) =
      X.loadConcluded (T.replied ⟨s.self, st, 0, 0, 0, []⟩) := X.conclude_load op
  have proceeds := State.proceed_concludes (s := X) (t := T.replied ⟨s.self, st, 0, 0, 0, []⟩)
    (State.ticket?_only rfl) barrier rfl (by nofun)
  rw [conclude] at proceeds
  rw [replied]
  have finishes : ∃ (Y : State) (w : Answer), X.loadConcluded (T.replied ⟨s.self, st, 0, 0, 0, []⟩) = Y.finish T.no w ∧
      Y.que.tickets = [T.replied ⟨s.self, st, 0, 0, 0, []⟩] ∧ Y.mem = s.mem ∧ Y.pending = s.pending ∧
      Y.srv.adapters = if st = .ok then [{ a with state := .staged, ticket := none }] else [] := by
    rcases judged with ok | bad
    · refine ⟨_, _, State.loadConcluded_stages (T := T.replied ⟨s.self, st, 0, 0, 0, []⟩) adapters mine rfl ok,
        rfl, rfl, rfl, ?_⟩
      rw [if_pos ok, State.modAdapter, adapters]
      simp
    · obtain ⟨only, mem, left⟩ := X.dropVersion_only a.inst a.id a.ver
      refine ⟨_, _, State.loadConcluded_fails (T := T.replied ⟨s.self, st, 0, 0, 0, []⟩) adapters mine rfl bad others,
        (congrArg (fun w : State => w.que.tickets) only :), mem, (congrArg State.pending only :), ?_⟩
      rw [if_neg (by rw [bad]; decide), left, adapters]
      simp
  obtain ⟨Y, w, concluded, ticketsY, mem, pending, srv⟩ := finishes
  rw [concluded] at proceeds
  obtain ⟨c, finish⟩ : ∃ c, Y.finish T.no w = (Y.withTickets []).postCq i c := ⟨_, State.finish_only (t := T.replied ⟨s.self, st, 0, 0, 0, []⟩) w ticketsY host⟩
  rw [finish] at proceeds
  have posts := State.Posts.postCq (Y.withTickets []) i c
  have kept : (Y.withTickets []).que.tickets = [] ∧ (Y.withTickets []).mem = Y.mem ∧ (Y.withTickets []).pending = Y.pending ∧
    (Y.withTickets []).srv = Y.srv := ⟨rfl, rfl, rfl, rfl⟩
  generalize Y.withTickets [] = Z at *
  obtain ⟨none_, memZ, pendZ, srvZ⟩ := kept
  generalize Z.postCq i c = t at *
  have settled : X.settle = t := State.settle_last (t := T.replied ⟨s.self, st, 0, 0, 0, []⟩) rfl proceeds
    (posts.tickets.trans none_)
  rw [settled]
  exact ⟨posts.tickets.trans none_, posts.mem.trans (memZ.trans mem), posts.pending.trans (pendZ.trans pending), by rw [posts.srv, srvZ]; exact srv⟩

/-- A version is verified: what is not whole has been written once more. -/
theorem completes_adapterVerify {s : State} {a : Adapter} {T : Ticket} {i : Nat} (alone : s.alone) (alive : s.alive = true)
    (tickets : s.que.tickets = [T]) (host : T.origin = .host i) (op : T.packet.opcode = 0x23) (barrier : T.barrier = false)
    (answers : T.answers = []) (only_one : s.srv.adapters = [a]) (mine : a.ticket = some T.no) (loading : a.state = .loading)
    (awaits : T.awaiting = [(s.self, 0)]) : Completes (.adapterVerifyDone a.inst a.id a.ver) s fun t =>
      t.que.tickets = [] ∧ t.mem = ((s.badSlices a.inst a.id a.ver).foldl State.writeSlice s).mem ∧
        t.srv.adapters = if (((s.badSlices a.inst a.id a.ver).foldl State.writeSlice s).badSlices a.inst a.id a.ver).isEmpty then
          [{ a with state := .staged, ticket := none }] else [] := by
  obtain ⟨only, srv⟩ := s.foldl_writeSlice (s.badSlices a.inst a.id a.ver)
  have unfolded : s.verified a.inst a.id a.ver =
      let r := (s.badSlices a.inst a.id a.ver).foldl (fun (s : State) (x : Slice) => s.writeSlice x) s
      let w := r.judgedSlices a
      if (r.badSlices a.inst a.id a.ver).isEmpty then
        (if w.isLead then w else w.modAdapter a.inst a.id a.ver fun x => { x with state := .staged }).replyWith T.no .ok
      else (if w.isLead then w else w.dropVersion a.inst a.id a.ver).replyWith T.no .failPlot := by
    rw [State.verified, State.version?_one only_one]
    dsimp only
    rw [loading, mine]
    rfl
  dsimp only at unfolded
  generalize (s.badSlices a.inst a.id a.ver).foldl State.writeSlice s = r at *
  have w : (r.judgedSlices a).que = s.que ∧ (r.judgedSlices a).mem = r.mem ∧ (r.judgedSlices a).pending = s.pending ∧
      (r.judgedSlices a).srv.adapters = s.srv.adapters ∧ (r.judgedSlices a).self = s.self ∧ (r.judgedSlices a).others = s.others ∧
      (r.judgedSlices a).isLead = s.isLead := by
    refine ⟨(congrArg State.que only :), rfl, (congrArg State.pending only :), (congrArg Srv.adapters srv :), (congrArg State.self only :),
      (congrArg State.others only :), (congrArg State.isLead only :)⟩
  generalize r.judgedSlices a = v at *
  obtain ⟨que, mem, pending, adapters, self, others, lead⟩ := w
  have leads : v.isLead = true := by rw [lead, State.isLead, alone]; rfl
  rw [leads] at unfolded
  simp only [if_true] at unfolded
  have settles (st : Status) (judged : st = .ok ∨ st = .failPlot) := State.load_settles (s := v) st ((congrArg Que.tickets que).trans tickets)
    (by rw [self]; exact awaits) answers barrier host op (adapters.trans only_one) mine (others.trans (State.others_alone alone)) judged
  by_cases good : (r.badSlices a.inst a.id a.ver).isEmpty = true
  · rw [if_pos good] at unfolded
    obtain ⟨none_, memT, pendT, left⟩ := settles .ok (.inl rfl)
    rw [← unfolded] at none_ memT pendT left
    generalize ht : (s.verified a.inst a.id a.ver).settle = t at *
    exact completes_whenAlive (f := fun s => (s.verified a.inst a.id a.ver).settle) alive rfl ht (pendT.trans pending)
      ⟨none_, memT.trans mem, by rw [if_pos good]; exact left⟩
  · rw [if_neg good] at unfolded
    obtain ⟨none_, memT, pendT, left⟩ := settles .failPlot (.inr rfl)
    rw [← unfolded] at none_ memT pendT left
    generalize ht : (s.verified a.inst a.id a.ver).settle = t at *
    exact completes_whenAlive (f := fun s => (s.verified a.inst a.id a.ver).settle) alive rfl ht (pendT.trans pending)
      ⟨none_, memT.trans mem, by rw [if_neg good]; exact left⟩

end Sys2Proof.Machine

open Sys2Proof Sys2Proof.Machine

/-- Settles O41: each work that takes long ends as its clause says, and a version's load goes on as room and its slices allow. -/
theorem longWorkEnds : Obligations.LongWorkEnds := by
  unfold Obligations.LongWorkEnds
  refine ⟨fun s n alive hn => ⟨fun r idle none_ free => completes_zeroDone alive idle none_ free,
      fun size idle none_ flush small was holds free => completes_flushDone alive idle none_ flush small was holds free,
      fun T i tickets host awaits _ _ _ => ⟨fun none_ flush holds free => completes_holdDone alive hn tickets host none_ flush holds free,
        fun e ok there => completes_bistDone ok alive tickets host awaits there⟩,
      fun c found apart => completes_spillCopy alive found apart,
      fun found started first => completes_memoryInit found alive started first⟩,
    fun s alone => ⟨?load, fun a T i alive tickets host op barrier fence answers only_one mine => ⟨?room, ?timeout, ?verify⟩⟩⟩
  case load =>
    intro p q dir a z m hq takes checked serves few named hz hm
    subst hq hm
    exact ⟨fun u room here placed => completes_adapterLoad checked serves few named alone takes room here hz placed,
      fun full now => completes_adapterRefused checked serves few named takes full now,
      fun full later => completes_adapterWaits checked serves few named takes full later⟩
  case room =>
    intro m u b pending room awaits image made here placed
    subst made
    exact completes_adapterRoom alone alive tickets barrier fence only_one mine pending room awaits image here placed
  case timeout => exact fun pending _ => completes_adapterTimeout alive tickets host only_one mine pending
  case verify => exact fun loading awaits => completes_adapterVerify alone alive tickets host op barrier answers only_one mine loading awaits
end

section StepBegin
/-! SUPPORT. A furrow's start (R40, R56): what a step that begins sets, tile by tile, and what it leaves. -/

namespace Sys2Proof.Machine

/-- `t` is `s` with sequencers of the tiles `l` moved, and perhaps the end of the step noted. -/
structure State.TilesStart (l : List Nat) (s t : State) : Prop where
  eq : t = { s with regs := t.regs, frw := { s.frw with doneAt := t.frw.doneAt } }
  get : ∀ f : Field, (∀ n ∈ l, f.key ≠ (R.TILE_SEQ_STATUS.STATE n).key) → t.get f = s.get f

namespace State.TilesStart
variable {l k : List Nat} {s t u : State} {n : Nat}

theorem refl (l : List Nat) (s : State) : TilesStart l s s := ⟨rfl, fun _ _ => rfl⟩

theorem trans (h : TilesStart l s t) (k : TilesStart l t u) : TilesStart l s u where
  eq := by
    have := k.eq
    rw [h.eq] at this
    exact this
  get f hf := (k.get f hf).trans (h.get f hf)

theorem mono (h : TilesStart l s t) (sub : ∀ n ∈ l, n ∈ k) : TilesStart k s t :=
  ⟨h.eq, fun f hf => h.get f fun n hn => hf n (sub n hn)⟩

theorem setSeq (s : State) (n v : Nat) : TilesStart [n] s (s.setSeq n v) :=
  ⟨rfl, fun _ hf => State.get_put_other s _ (hf n (List.mem_singleton.2 rfl))⟩

theorem noteDone (s : State) : TilesStart l s s.noteDone where
  eq := by
    unfold State.noteDone
    split <;> rfl
  get f _ := State.get_of_regs (congrArg State.regs s.noteDone_only :) f

theorem seqState (h : TilesStart l s t) (hn : n ∉ l) : t.seqState n = s.seqState n :=
  h.get _ fun _ hm => seqState_key_inj fun e => hn (e ▸ hm)

theorem listIndex (h : TilesStart l s t) (n : Nat) : t.listIndex n = s.listIndex n :=
  h.get _ fun _ _ => by simp only [Field.key, R.TILE_SEQ_STATUS.LIST_INDEX, R.TILE_SEQ_STATUS.STATE]; omega

theorem tile (h : TilesStart l s t) (n : Nat) : t.tile n = s.tile n := (congrArg (fun v : State => v.tile n) h.eq :)

theorem unsettled (h : TilesStart l s t) : t.unsettled = s.unsettled := (congrArg State.unsettled h.eq :)

end State.TilesStart

/-- A sequencer that runs and whose list has ended goes on to DONE or IDLE; no other is touched. -/
theorem State.retire_run {s : State} {n : Nat} (run : s.seqState n = seqRun) : TilesStart [n] s (s.retire n) := by
  unfold State.retire
  split
  next =>
    dsimp only
    rw [if_pos (by rw [run]; rfl)]
    exact (TilesStart.setSeq s n _).trans (.noteDone _)
  next => exact .refl _ _

theorem State.retire_running {s : State} {n : Nat} (more : s.listIndex n < (s.tile n).list.length) : s.retire n = s := by
  rw [State.retire, if_neg]
  simp only [Bool.and_eq_true, decide_eq_true_eq]
  omega

theorem State.seqState_setSeq (s : State) (n : Nat) {v : Nat} (h : v < 8) : (s.setSeq n v).seqState n = v := State.get_put_fits s _ h

theorem State.startTile_starts (s : State) (n : Nat) : TilesStart [n] s (s.startTile n) := by
  unfold State.startTile
  split
  next =>
    split
    · exact .setSeq s n _
    · exact (TilesStart.setSeq s n seqRun).trans (State.retire_run (s.seqState_setSeq n (by decide)))
  next =>
    split
    · exact .setSeq s n _
    · exact .refl _ _

/-- What the start of a step makes of an armed sequencer: it waits while regions are zeroed or a Granary moves, else it runs
while its list has descriptors. -/
def State.armedStarts (s t : State) (n : Nat) : Prop :=
  s.seqState n = seqArmed → (s.unsettled = false → s.listIndex n < (s.tile n).list.length → t.seqState n = seqRun) ∧
    (s.unsettled = true → t.seqState n = seqHeld)

theorem State.startTile_armed (s : State) (n : Nat) : s.armedStarts (s.startTile n) n := fun armed => by
  have first : (s.seqState n == seqArmed) = true := beq_iff_eq.2 armed
  rw [State.startTile, if_pos first]
  constructor
  · intro settled more
    rw [if_neg (by simp [settled])]
    have set := TilesStart.setSeq s n seqRun
    rw [State.retire_running (by rw [set.listIndex, set.tile]; exact more)]
    exact s.seqState_setSeq n (by decide)
  · intro waits
    rw [if_pos waits]
    exact s.seqState_setSeq n (by decide)

theorem State.startTiles (l : List Nat) (nodup : l.Nodup) (s : State) :
    TilesStart l s (l.foldl (fun (s : State) n => s.startTile n) s) ∧
      ∀ n ∈ l, s.armedStarts (l.foldl (fun (s : State) n => s.startTile n) s) n := by
  induction l generalizing s with
  | nil => exact ⟨.refl _ _, fun _ h => absurd h (List.not_mem_nil)⟩
  | cons m l ih =>
    obtain ⟨other, nodup⟩ := List.nodup_cons.1 nodup
    obtain ⟨rest, arms⟩ := ih nodup (s.startTile m)
    have here := s.startTile_starts m
    rw [List.foldl_cons]
    refine ⟨(here.mono (by simp)).trans (rest.mono (by simp +contextual)), fun n hn armed => ?_⟩
    rcases List.mem_cons.1 hn with rfl | hn
    · rw [rest.seqState other]
      exact s.startTile_armed n armed
    · have apart : n ∉ [m] := fun h => other (List.mem_singleton.1 h ▸ hn)
      have := arms n hn ((here.seqState apart).trans armed)
      rwa [here.unsettled, here.listIndex, here.tile] at this

/-- The registers in which the start of a step counts lanes. -/
def laneFields : List Field := [R.QUE_LANE_USE.DAWN, R.QUE_LANE_USE.NOON, R.QUE_LANE_USE.DUSK, R.QUE_LANE_USE.GLEAN, R.QUE_LANE_USE.EMPTY]

/-- A field that the counts of a step's start are not shown in. -/
def Field.notCount (f : Field) : Prop := (∀ g ∈ laneFields, f.key ≠ g.key) ∧ ∀ n, f.key ≠ (R.TILE_KV_COUNTS.MISS_LANES n).key

theorem Field.notCount_low {f : Field} (h : f.key < 0x10000 * 64) : f.notCount := by
  constructor
  · intro _ hg
    have high : ∀ g ∈ laneFields, 0x10000 * 64 ≤ g.key := by decide
    have := high _ hg
    omega
  · intro n
    simp only [Field.key, R.TILE_KV_COUNTS.MISS_LANES] at h ⊢
    omega

theorem Field.notCount_seq (n : Nat) : (R.TILE_SEQ_STATUS.STATE n).notCount := by
  constructor
  · intro _ hg
    have low : ∀ g ∈ laneFields, g.key < 0x11000 * 64 := by decide
    have := low _ hg
    simp only [Field.key, R.TILE_SEQ_STATUS.STATE] at this ⊢
    omega
  · intro m
    simp only [Field.key, R.TILE_SEQ_STATUS.STATE, R.TILE_KV_COUNTS.MISS_LANES]
    omega

/-- `t` is `s` after counts of lanes and misses: the schedule's own state is as it was. -/
structure State.Counts (s t : State) : Prop where
  frw : t.frw = s.frw
  get : ∀ f : Field, f.notCount → t.get f = s.get f
  lanes : t.srv.lanes = s.srv.lanes

namespace State.Counts
variable {s t u : State}

theorem refl (s : State) : s.Counts s := ⟨rfl, fun _ _ => rfl, rfl⟩

theorem trans (h : s.Counts t) (k : t.Counts u) : s.Counts u :=
  ⟨k.frw.trans h.frw, fun f hf => (k.get f hf).trans (h.get f hf), k.lanes.trans h.lanes⟩

theorem foldl {α : Type} (l : List α) {f : State → α → State} (h : ∀ s x, Counts s (f s x)) (s : State) : s.Counts (l.foldl f s) :=
  List.foldlRecOn (motive := fun t => s.Counts t) _ _ (refl s) fun t k x _ => k.trans (h t x)

theorem of_onlySends (h : s.onlySends t) : s.Counts t :=
  ⟨(congrArg State.frw h :), fun f _ => State.get_of_regs h.regs f, (congrArg (fun v : State => v.srv.lanes) h :)⟩

theorem put {f : Field} (s : State) (v : Nat) (hf : f ∈ laneFields) : s.Counts (s.put f v) :=
  ⟨rfl, fun _ hg => State.get_put_other s v (hg.1 f hf), rfl⟩

end State.Counts

theorem State.endOccur_only (s : State) (i : Nat) : ∃ p c, s.endOccur i = { s with pwr := p, freeCtr := c } := by
  have learns : ∀ o, ∃ p c, s.learn i o = { s with pwr := p, freeCtr := c } := fun o => by
    unfold State.learn
    split
    · exact ⟨s.pwr, s.freeCtr, rfl⟩
    · dsimp only
      split
      · exact ⟨_, _, rfl⟩
      · exact ⟨_, _, rfl⟩
  unfold State.endOccur
  split
  next => exact ⟨s.pwr, s.freeCtr, rfl⟩
  next o _ =>
    obtain ⟨p, c, learned⟩ := learns o
    rw [learned]
    unfold State.usePhase
    split
    · exact ⟨_, _, rfl⟩
    · exact ⟨_, _, rfl⟩

theorem State.startOutside_counts (s : State) (k : Nat) : s.Counts (s.startOutside k) ∧ (s.startOutside k).out = s.out := by
  obtain ⟨p, c, ended⟩ := s.endOccur_only 16
  rw [State.startOutside, ended]
  exact ⟨⟨rfl, fun _ _ => rfl, rfl⟩, rfl⟩

theorem State.countLanes_counts (s : State) : s.Counts s.countLanes ∧ s.countLanes.out = s.out := by
  unfold State.countLanes
  split
  · exact ⟨.refl s, rfl⟩
  · dsimp only
    refine ⟨⟨rfl, fun f hf => ?_, rfl⟩, rfl⟩
    have other : ∀ g ∈ laneFields, f.key ≠ g.key := hf.1
    simp only [laneFields, List.forall_mem_cons] at other
    obtain ⟨dawn, noon, dusk, glean, empty, -⟩ := other
    refine (State.get_put_other _ _ empty).trans ?_
    refine (State.get_put_other _ _ glean).trans ?_
    refine (State.get_put_other _ _ dusk).trans ?_
    exact (State.get_put_other _ _ noon).trans (State.get_put_other _ _ dawn)

theorem State.modSeq_only (s : State) (id : Nat) (f : Seq → Seq) : ∃ l, s.modSeq id f = { s with srv := { s.srv with seqs := l } } := by
  unfold State.modSeq
  split
  · exact ⟨_, rfl⟩
  · exact ⟨s.srv.seqs, rfl⟩

theorem State.countWaits_counts (s : State) : s.Counts s.countWaits ∧ s.countWaits.out = s.out := by
  refine List.foldlRecOn (motive := fun t => s.Counts t ∧ t.out = s.out) _ _ ⟨.refl s, rfl⟩ fun t h e _ => ?_
  have modifies : ∀ f, s.Counts (t.modSeq e.1 f) ∧ (t.modSeq e.1 f).out = s.out := fun f => by
    obtain ⟨l, only⟩ := t.modSeq_only e.1 f
    rw [only]
    exact ⟨h.1.trans ⟨rfl, fun _ _ => rfl, rfl⟩, h.2⟩
  dsimp only
  split
  · exact modifies _
  · split
    · exact h
    · exact modifies _

theorem State.noteMiss_counts (s : State) (i set lane id : Nat) : s.Counts (s.noteMiss i set lane id) := by
  unfold State.noteMiss
  split
  · exact .refl s
  · refine Counts.trans (t := { s with srv := { s.srv with misses := s.srv.misses ++ [(i, set, lane)] } }) ⟨rfl, fun _ _ => rfl, rfl⟩ ?_
    unfold State.tellLane
    split
    · exact .refl _
    · exact .of_onlySends (State.sendCtrl_onlySends _ _ _)

theorem State.bumpMiss_counts (s : State) (n : Nat) : s.Counts (s.bump (R.TILE_KV_COUNTS.MISS_LANES n)) :=
  ⟨rfl, fun _ hf => State.get_put_other s _ (hf.2 n), rfl⟩

theorem State.startMisses_counts (s : State) : s.Counts s.startMisses := by
  rw [State.startMisses]
  refine Counts.foldl _ (fun s x => ?_) s
  refine Counts.foldl _ (fun s e => ?_) s
  exact (s.bumpMiss_counts e.1).trans (State.noteMiss_counts _ _ _ _ _)

theorem State.startBlind_counts (s : State) : s.Counts s.startBlind := by
  rw [State.startBlind]
  refine Counts.foldl _ (fun s x => ?_) s
  refine Counts.foldl _ (fun s e => ?_) s
  split
  · split
    · exact State.noteMiss_counts _ _ _ _ _
    · exact .refl _
  · exact .refl _

theorem State.startMisses_none {s : State} (h : s.srv.lanes = []) : s.startMisses = s := by
  rw [State.startMisses, h, List.foldl_nil]

theorem State.startBlind_none {s : State} (h : s.srv.lanes = []) : s.startBlind = s := by
  rw [State.startBlind, h, List.foldl_nil]

/-- What follows the start of the tiles: counts alone, and no message where there is no lane. -/
theorem State.countStep (s : State) (k : Nat) :
    let t := ((((s.startOutside k).countLanes).countWaits).startMisses.startBlind)
    s.Counts t ∧ (s.srv.lanes = [] → t.out = s.out) := by
  obtain ⟨outside, out1⟩ := s.startOutside_counts k
  generalize s.startOutside k = a at outside out1
  obtain ⟨lanes, out2⟩ := a.countLanes_counts
  generalize a.countLanes = b at lanes out2
  obtain ⟨waits, out3⟩ := b.countWaits_counts
  generalize b.countWaits = c at waits out3
  have counts : s.Counts c := (outside.trans lanes).trans waits
  refine ⟨(counts.trans c.startMisses_counts).trans (State.startBlind_counts _), fun none => ?_⟩
  have none : c.srv.lanes = [] := counts.lanes.trans none
  rw [State.startMisses_none none, State.startBlind_none none, out3, out2, out1]

end Sys2Proof.Machine
end StepBegin

section FurrowBodies
/-! SUPPORT. A furrow begins (R40, R56): the numbers it is given, its step, or the lateness that leaves it fallow. -/

namespace Sys2Proof.Machine

/-- The registers in which a furrow that begins is shown, before its step. -/
def freshFields : List Field :=
  [R.FRW_FURROW_NUM.FURROW_NUM, R.FRW_START_TIME.START_TIME, R.FRW_STATE.HEADLAND, R.FRW_STATE.LATE_SELF, R.FRW_STATE.LATE_GROUP]

/-- `t` is `s` in a furrow that has begun, before its step. -/
structure State.Freshens (s t : State) : Prop where
  regs : s.sameRegs t freshFields
  next : t.frw = { s.frw with
    beacons := [], lateBeacons := [], missing := [], relays := [], lateGroups := [], missingRelays := [], echoLate := false, leadNext := none }
  rest : t = { s with regs := t.regs, frw := t.frw, srv := t.srv, cfg := { s.cfg with peers := [] }, flt := { s.flt with silentReports := [] } }
  lanes : t.srv.lanes = s.srv.lanes
  self : t.isSet R.FRW_STATE.LATE_SELF = false
  group : t.isSet R.FRW_STATE.LATE_GROUP = false

/-- The results of the step that ended are dropped. -/
def State.dropResults (s : State) : State :=
  { s with srv := { s.srv with results := [], misses := [], damaged := [], failedInst := [], openLanes := [] } }

theorem State.endStep_none {s : State} (h : s.srv.openLanes = []) : s.endStep = s.dropResults := by
  rw [State.endStep, State.settleOpen, h]
  rfl

/-- The flags of lateness, cleared. -/
def State.noLateness (s : State) : State := (s.putBit R.FRW_STATE.LATE_SELF false).putBit R.FRW_STATE.LATE_GROUP false

theorem State.freshFurrow_regs (s : State) : s.freshFurrow.regs = s.noLateness.regs := rfl

/-- Every other register stays while a furrow's flags are cleared. -/
theorem State.freshFurrow_get (s : State) {f : Field} (self : f.key ≠ R.FRW_STATE.LATE_SELF.key) (group : f.key ≠ R.FRW_STATE.LATE_GROUP.key) :
    s.freshFurrow.get f = s.get f := by
  rw [State.get_of_regs s.freshFurrow_regs, State.noLateness, State.putBit, State.putBit, State.get_put_other _ _ group,
    State.get_put_other _ _ self]

theorem State.freshFurrow_late (s : State) : s.freshFurrow.isSet R.FRW_STATE.LATE_SELF = false ∧
    s.freshFurrow.isSet R.FRW_STATE.LATE_GROUP = false := by
  have self : ((s.putBit R.FRW_STATE.LATE_SELF false).putBit R.FRW_STATE.LATE_GROUP false).isSet R.FRW_STATE.LATE_SELF = false := by
    rw [State.isSet_putBit_other _ _ (by decide)]
    exact State.isSet_putBit Nat.one_pos false
  have group : ((s.putBit R.FRW_STATE.LATE_SELF false).putBit R.FRW_STATE.LATE_GROUP false).isSet R.FRW_STATE.LATE_GROUP = false :=
    State.isSet_putBit Nat.one_pos false
  exact ⟨self, group⟩

theorem State.freshFurrow_freshens {s a : State} (only : a = { s with regs := a.regs }) (regs : s.sameRegs a freshFields) :
    s.Freshens a.freshFurrow where
  regs f hf := (a.freshFurrow_get (hf _ (by decide)) (hf _ (by decide))).trans (regs f hf)
  next := by rw [only]; rfl
  rest := by rw [only]; rfl
  lanes := by rw [only]; rfl
  self := a.freshFurrow_late.1
  group := a.freshFurrow_late.2

theorem State.Freshens.dropResults {s t : State} (h : s.Freshens t) : s.Freshens t.dropResults where
  regs := h.regs
  next := h.next
  rest := by
    have := h.rest
    generalize t = u at this ⊢
    rw [this]
    rfl
  lanes := h.lanes
  self := h.self
  group := h.group

/-- The furrow `k` that starts at `start`, in its registers. -/
def State.numbered (s : State) (k start : Nat) : State :=
  (s.put R.FRW_FURROW_NUM.FURROW_NUM k).put R.FRW_START_TIME.START_TIME start

theorem State.numbered_same (s : State) (k start : Nat) : s.sameRegs (s.numbered k start) freshFields :=
  State.sameRegs_put (State.sameRegs_put (State.sameRegs_refl s _) (by decide) _) (by decide) _

theorem State.numbered_shows (s : State) (k start : Nat) : (s.numbered k start).furrow = k % 2 ^ 64 ∧
    (s.numbered k start).get R.FRW_START_TIME.START_TIME = start % 2 ^ 64 :=
  ⟨(State.get_put_other _ _ (by decide)).trans (State.get_put_same _ _ _), State.get_put_same _ _ _⟩

/-- `t` is `s` after its step has begun. -/
structure State.StepBegun (s t : State) : Prop where
  state : t.frwState = frwRunning
  template : t.get R.FRW_LATE.TEMPLATE = s.frw.nextTemplate % 8
  frw : t.frw = { s.frw with
    nextTemplate := (s.frw.nextTemplate + 1) % max 1 (s.get R.FRW_LATE.CYCLE_LEN), stepOpen := true, doneAt := t.frw.doneAt, fallowRun := 0 }
  get : ∀ f : Field, f.key < 0x10000 * 64 → f.key ≠ R.FRW_STATE.STATE.key → f.key ≠ R.FRW_LATE.TEMPLATE.key → t.get f = s.get f
  tiles : ∀ n, n < 16 → s.armedStarts t n
  out : s.srv.lanes = [] → t.out = s.out

/-- A step's state and template, before its tiles start. -/
def State.stepOpens (s : State) : State :=
  { (s.put R.FRW_STATE.STATE frwRunning).put R.FRW_LATE.TEMPLATE s.frw.nextTemplate with
    frw := { s.frw with nextTemplate := (s.frw.nextTemplate + 1) % max 1 (s.get R.FRW_LATE.CYCLE_LEN), stepOpen := true, doneAt := none, fallowRun := 0 } }

theorem State.beginStep_eq (s : State) : s.beginStep =
    ((((((List.range 16).foldl (fun (s : State) n => s.startTile n) s.stepOpens).noteDone.startOutside s.frw.nextTemplate).countLanes).countWaits).startMisses.startBlind) :=
  rfl

theorem State.stepOpens_get (s : State) {f : Field} (state : f.key ≠ R.FRW_STATE.STATE.key) (template : f.key ≠ R.FRW_LATE.TEMPLATE.key) :
    s.stepOpens.get f = s.get f :=
  (State.get_put_other (s.put R.FRW_STATE.STATE frwRunning) _ template).trans (State.get_put_other s _ state)

theorem State.stepOpens_shows (s : State) : s.stepOpens.frwState = frwRunning ∧
    s.stepOpens.get R.FRW_LATE.TEMPLATE = s.frw.nextTemplate % 8 :=
  ⟨(State.get_put_other (s.put R.FRW_STATE.STATE frwRunning) _ (by decide)).trans (State.get_put_fits s _ (by decide)),
    State.get_put_same (s.put R.FRW_STATE.STATE frwRunning) _ _⟩

/-- A field of the first registers is none of a sequencer's. -/
theorem notSeq_low {f : Field} (h : f.key < 0x10000 * 64) (l : List Nat) : ∀ n ∈ l, f.key ≠ (R.TILE_SEQ_STATUS.STATE n).key := by
  intro n _
  simp only [Field.key, R.TILE_SEQ_STATUS.STATE] at h ⊢
  omega

theorem State.stepOpens_armed {s t : State} {n : Nat} (h : s.stepOpens.armedStarts t n) : s.armedStarts t n := by
  have seq : s.stepOpens.seqState n = s.seqState n := s.stepOpens_get
    (by simp only [Field.key, R.TILE_SEQ_STATUS.STATE, R.FRW_STATE.STATE]; omega)
    (by simp only [Field.key, R.TILE_SEQ_STATUS.STATE, R.FRW_LATE.TEMPLATE]; omega)
  have index : s.stepOpens.listIndex n = s.listIndex n := s.stepOpens_get
    (by simp only [Field.key, R.TILE_SEQ_STATUS.LIST_INDEX, R.FRW_STATE.STATE]; omega)
    (by simp only [Field.key, R.TILE_SEQ_STATUS.LIST_INDEX, R.FRW_LATE.TEMPLATE]; omega)
  have settled : s.stepOpens.unsettled = s.unsettled := rfl
  have tile : s.stepOpens.tile n = s.tile n := rfl
  intro armed
  have := h (seq.trans armed)
  rwa [settled, index, tile] at this

theorem State.beginStep_begun (s : State) : s.StepBegun s.beginStep := by
  obtain ⟨starts, arms⟩ := State.startTiles (List.range 16) List.nodup_range s.stepOpens
  rw [State.beginStep_eq]
  generalize (List.range 16).foldl (fun (s : State) n => s.startTile n) s.stepOpens = a at starts arms
  have noted := starts.trans (TilesStart.noteDone a)
  have after : ∀ n, a.noteDone.seqState n = a.seqState n := fun n => State.get_of_regs (congrArg State.regs a.noteDone_only :) _
  generalize a.noteDone = b at noted after
  obtain ⟨counts, quiet⟩ := b.countStep s.frw.nextTemplate
  generalize (((b.startOutside s.frw.nextTemplate).countLanes).countWaits).startMisses.startBlind = t at counts quiet
  have low : ∀ f : Field, f.key < 0x10000 * 64 → t.get f = s.stepOpens.get f := fun f hf =>
    (counts.get f (Field.notCount_low hf)).trans (noted.get f (notSeq_low hf _))
  refine ⟨(low _ (by decide)).trans s.stepOpens_shows.1, (low _ (by decide)).trans s.stepOpens_shows.2, ?_, fun f hf state template =>
    (low f hf).trans (s.stepOpens_get state template), fun n hn => State.stepOpens_armed fun armed => ?_, fun none => ?_⟩
  · rw [counts.frw]
    exact (congrArg State.frw noted.eq :)
  · have same : t.seqState n = a.seqState n := (counts.get _ (Field.notCount_seq n)).trans (after n)
    rw [same]
    exact arms n (List.mem_range.2 hn) armed
  · have lanes : b.srv.lanes = s.srv.lanes := (congrArg (fun v : State => v.srv.lanes) noted.eq :)
    exact (quiet (lanes.trans none)).trans (congrArg State.out noted.eq :)

/-! ### The first furrow and the next (R40, R56) -/

/-- No packet is open: the end of a wait for one does nothing. -/
theorem State.endWait_open {s : State} (none_open : s.que.tickets = []) (no : Option Nat) (a : Answer) : s.endWait no a = s := by
  cases no with
  | none => rfl
  | some n => rw [State.endWait, State.finish, State.ticket?, none_open]; rfl

/-- The first furrow, before its step. -/
def State.firstFurrow (s : State) : State := (s.numbered s.frw.k0 s.frw.t0).freshFurrow

theorem State.firstFurrow_freshens (s : State) : s.Freshens s.firstFurrow :=
  State.freshFurrow_freshens rfl (s.numbered_same _ _)

theorem State.firstFurrow_shows (s : State) : s.firstFurrow.furrow = s.frw.k0 % 2 ^ 64 ∧
    s.firstFurrow.get R.FRW_START_TIME.START_TIME = s.frw.t0 % 2 ^ 64 := by
  obtain ⟨number, start⟩ := s.numbered_shows s.frw.k0 s.frw.t0
  exact ⟨((s.numbered _ _).freshFurrow_get (by decide) (by decide)).trans number,
    ((s.numbered _ _).freshFurrow_get (by decide) (by decide)).trans start⟩

/-- The next furrow, before its step. -/
def State.laterFurrow (s : State) : State :=
  ((s.numbered (s.furrow + 1) (s.furrowStart (s.furrow + 1))).putBit R.FRW_STATE.HEADLAND false).freshFurrow

theorem State.laterFurrow_freshens (s : State) : s.Freshens s.laterFurrow :=
  State.freshFurrow_freshens rfl (State.sameRegs_put (s.numbered_same _ _) (by decide) _)

theorem State.laterFurrow_shows (s : State) : s.laterFurrow.furrow = (s.furrow + 1) % 2 ^ 64 ∧
    s.laterFurrow.get R.FRW_START_TIME.START_TIME = s.furrowStart (s.furrow + 1) % 2 ^ 64 ∧
    s.laterFurrow.isSet R.FRW_STATE.HEADLAND = false := by
  obtain ⟨number, start⟩ := s.numbered_shows (s.furrow + 1) (s.furrowStart (s.furrow + 1))
  refine ⟨?_, ?_, ?_⟩
  · refine (State.freshFurrow_get _ (by decide) (by decide)).trans ?_
    exact (State.get_put_other _ _ (by decide)).trans number
  · refine (State.freshFurrow_get _ (by decide) (by decide)).trans ?_
    exact (State.get_put_other _ _ (by decide)).trans start
  · refine (State.isSet_of_get (State.freshFurrow_get _ (by decide) (by decide))).trans ?_
    exact State.isSet_putBit Nat.one_pos false

/-- What a furrow that begins keeps of the tiles and of what they wait for. -/
theorem State.Freshens.armed {s t u : State} {n : Nat} (h : s.Freshens t) (k : t.armedStarts u n) : s.armedStarts u n := by
  have regs : ∀ f : Field, 0x1000000 * 64 ≤ f.key → t.get f = s.get f := fun f hf => h.regs f fun g hg => by
    have low : ∀ g ∈ freshFields, g.key < 0x1000000 * 64 := by decide
    have := low g hg
    omega
  have seq : t.seqState n = s.seqState n := regs _ (by simp only [Field.key, R.TILE_SEQ_STATUS.STATE]; omega)
  have index : t.listIndex n = s.listIndex n := regs _ (by simp only [Field.key, R.TILE_SEQ_STATUS.LIST_INDEX]; omega)
  have settled : t.unsettled = s.unsettled := (congrArg State.unsettled h.rest :)
  have tile : t.tile n = s.tile n := (congrArg (fun v : State => v.tile n) h.rest :)
  intro armed
  have := k (seq.trans armed)
  rwa [settled, index, tile] at this

theorem State.Freshens.open {s t : State} (h : s.Freshens t) : t.que.tickets = s.que.tickets ∧ t.pending = s.pending ∧ t.mem = s.mem ∧
    t.out = s.out :=
  ⟨(congrArg (fun v : State => v.que.tickets) h.rest :), (congrArg State.pending h.rest :), (congrArg State.mem h.rest :),
    (congrArg State.out h.rest :)⟩

end Sys2Proof.Machine
end FurrowBodies

section FurrowNumbers
/-! SUPPORT. The first furrow at T0 and the next one (R40, R56), and the end of a schedule's last headland (R42). -/

namespace Sys2Proof.Machine

/-- What a step that begins leaves of memory, of the packets and of the commands that wait. -/
theorem State.beginStep_open (s : State) : s.beginStep.que.tickets = s.que.tickets ∧ s.beginStep.pending = s.pending ∧
    s.beginStep.mem = s.mem :=
  ⟨State.beginStep_tix (z := s) rfl, (State.beginStep_kept (.refl s)).pending, State.beginStep_same_mem (z := s) rfl⟩

theorem State.StepBegun.flag {s t : State} {f : Field} (h : s.StepBegun t) (low : f.key < 0x10000 * 64)
    (state : f.key ≠ R.FRW_STATE.STATE.key) (template : f.key ≠ R.FRW_LATE.TEMPLATE.key) : t.isSet f = s.isSet f :=
  State.isSet_of_get (h.get f low state template)

/-- Where a running step may begin: a furrow that has begun and whose old results are gone. -/
structure State.BodyRuns (s t : State) (k start : Nat) : Prop where
  state : t.frwState = frwRunning
  furrow : t.furrow = k % 2 ^ 64
  start : t.get R.FRW_START_TIME.START_TIME = start % 2 ^ 64
  template : t.get R.FRW_LATE.TEMPLATE = s.frw.nextTemplate % 8
  self : t.isSet R.FRW_STATE.LATE_SELF = false
  group : t.isSet R.FRW_STATE.LATE_GROUP = false
  next : t.frw.nextTemplate = (s.frw.nextTemplate + 1) % max 1 (s.get R.FRW_LATE.CYCLE_LEN)
  step : t.frw.stepOpen = true
  fallow : t.frw.fallowRun = 0
  tiles : ∀ n, n < 16 → s.armedStarts t n
  mem : t.mem = s.mem
  out : s.srv.lanes = [] → t.out = s.out

theorem State.Freshens.runs {s u : State} {k start : Nat} (h : s.Freshens u) (furrow : u.furrow = k % 2 ^ 64)
    (starts : u.get R.FRW_START_TIME.START_TIME = start % 2 ^ 64) : s.BodyRuns u.beginStep k start := by
  have begun := u.beginStep_begun
  obtain ⟨-, -, mem⟩ := u.beginStep_open
  obtain ⟨-, -, mem0, out0⟩ := h.open
  generalize u.beginStep = t at begun mem
  have template : u.frw.nextTemplate = s.frw.nextTemplate := (congrArg Frw.nextTemplate h.next :)
  have cycle : u.get R.FRW_LATE.CYCLE_LEN = s.get R.FRW_LATE.CYCLE_LEN := h.regs _ (by decide)
  exact {
    state := begun.state
    furrow := (begun.get _ (by decide) (by decide) (by decide)).trans furrow
    start := (begun.get _ (by decide) (by decide) (by decide)).trans starts
    template := template ▸ begun.template
    self := (begun.flag (by decide) (by decide) (by decide)).trans h.self
    group := (begun.flag (by decide) (by decide) (by decide)).trans h.group
    next := by rw [begun.frw, template, cycle]
    step := by rw [begun.frw]
    fallow := by rw [begun.frw]
    tiles := fun n hn => h.armed (begun.tiles n hn)
    mem := mem.trans mem0
    out := fun none => (begun.out (h.lanes.trans none)).trans out0 }

/-- The first furrow's own state, once no packet waits for its start. -/
def State.startOver (s : State) : State := { s with frw := { s.frw with startTicket := none } }

/-- The answer to the packet that started the schedule. -/
def State.startAnswered (s : State) : State := (s.endWait s.frw.startTicket { status := .ok, result0 := s.frw.t0 }).startOver

theorem State.bodyStart_first {s : State} (armed : s.frwState = frwArmed) (turned : s.frw.turned = true) (locked : s.lockless = false)
    (none_open : s.que.tickets = []) (noLanes : s.srv.openLanes = []) :
    s.bodyStart = s.firstFurrow.dropResults.beginStep.startOver := by
  have first : (s.frwState == frwArmed && s.frw.turned) = true := by rw [armed, turned]; rfl
  have ended : s.firstFurrow.endStep = s.firstFurrow.dropResults := State.endStep_none noLanes
  have unfolded : s.bodyStart = s.firstFurrow.endStep.beginStep.startAnswered := by
    rw [State.bodyStart, if_neg (by rw [first, locked]; decide), if_pos first, State.startAnswered, State.startOver, State.firstFurrow,
      State.numbered]
  have still : s.firstFurrow.dropResults.beginStep.que.tickets = [] :=
    (State.beginStep_open _).1.trans ((s.firstFurrow_freshens.dropResults.open).1.trans none_open)
  rw [unfolded, ended, State.startAnswered, State.endWait_open still]

/-- A furrow that is fallow: shown, counted, and with no step of its own. -/
theorem State.beginFallow_fallow (s : State) : s.beginFallow.frwState = frwFallow ∧
    s.beginFallow.frw.nextTemplate = s.frw.nextTemplate ∧ s.beginFallow.frw.fallowRun = s.frw.fallowRun + 1 ∧
    (∀ f : Field, f.key ≠ R.FRW_STATE.STATE.key → f.key ≠ R.FRW_EVENTS0.FALLOW_COUNT.key → s.beginFallow.get f = s.get f) ∧
    s.beginFallow.out = s.out ∧ s.beginFallow.que.tickets = s.que.tickets ∧ s.beginFallow.pending = s.pending ∧ s.beginFallow.mem = s.mem := by
  obtain ⟨p, c, ended⟩ := ((s.put R.FRW_STATE.STATE frwFallow).bump R.FRW_EVENTS0.FALLOW_COUNT).endOccur_only 16
  rw [State.beginFallow, ended]
  refine ⟨?_, rfl, rfl, fun f state count => ?_, rfl, rfl, rfl, rfl⟩
  · exact (State.get_put_other (s.put R.FRW_STATE.STATE frwFallow) _ (by decide)).trans (State.get_put_fits s _ (by decide))
  · exact (State.get_put_other (s.put R.FRW_STATE.STATE frwFallow) _ count).trans (State.get_put_other s _ state)

/-- The next furrow, whose old results are gone where no step goes on. -/
def State.laterBody (s : State) : State := if s.frw.stepOpen then s.laterFurrow else s.laterFurrow.dropResults

theorem State.laterBody_freshens (s : State) : s.Freshens s.laterBody := by
  unfold State.laterBody
  split
  · exact s.laterFurrow_freshens
  · exact s.laterFurrow_freshens.dropResults

theorem State.laterBody_get (s : State) (f : Field) : s.laterBody.get f = s.laterFurrow.get f := by
  unfold State.laterBody
  split <;> rfl

theorem State.bodyStart_later {s : State} (inside : s.inSchedule = true) (head : s.isSet R.FRW_STATE.HEADLAND = true)
    (noLanes : s.srv.openLanes = []) :
    s.bodyStart = if s.isSet R.FRW_STATE.LATE_GROUP then s.laterBody.beginFallow else s.laterBody.beginStep := by
  have notArmed : (s.frwState == frwArmed && s.frw.turned) = false := by
    rcases Bool.or_eq_true _ _ ▸ inside with h | h <;> rw [beq_iff_eq.1 h] <;> rfl
  have body : (if s.laterFurrow.frw.stepOpen then s.laterFurrow else s.laterFurrow.endStep) = s.laterBody := by
    rw [State.endStep_none (s := s.laterFurrow) noLanes]
    rfl
  rw [State.bodyStart, if_neg (by rw [notArmed, Bool.false_and]; decide), if_neg (by rw [notArmed]; decide), if_pos (by rw [inside, head]; rfl), ← body]
  rfl

end Sys2Proof.Machine
end FurrowNumbers

section StopHeadland
/-! SUPPORT. How furrows begin and a schedule ends, as the events that do it answer (R40, R42, R56). -/

namespace Sys2Proof.Machine

/-- Nothing waits for the end of the schedule any more. -/
def State.stopOver (s : State) : State := { s with frw := { s.frw with stopTicket := none } }

theorem State.stopEnds_eq {s : State} (stopping : s.frwState = frwStopping) (noLanes : s.srv.openLanes = []) :
    s.stopEnds = (s.dropResults.stopped.endWait s.frw.stopTicket { status := .ok }).stopOver := by
  rw [State.stopEnds, if_pos (beq_iff_eq.2 stopping), State.endStep_none noLanes]
  generalize s.dropResults.stopped = u
  rfl

/-- What the last headland leaves, before the packet that stopped the schedule completes. -/
theorem State.dropResults_stops {s : State} (alone : s.stopsAlone) : s.dropResults.Stops s.dropResults.stopped :=
  State.stopped_stops alone

theorem State.stopFrw_stopping {s : State} (stopping : s.frwState = frwStopping) : s.stopFrw.nextK = s.furrow + 1 := by
  rw [State.stopFrw, stopping]
  rfl

/-- A device without lock at T0 starts no furrow: its schedule is over. -/
theorem completes_lockless {s : State} (quiet : s.quiet) (armed : s.frwState = frwArmed) (turned : s.frw.turned = true)
    (lockless : s.lockless = true) (start : s.frw.startTicket = none) (stop : s.frw.stopTicket = none) (alone : s.stopsAlone) :
    Completes .furrowBodyStart s fun t => t.frwState = frwStopped ∧ t.furrow = s.furrow ∧ t.frw.nextK = s.frw.nextK ∧
        (∀ n, n < 16 → t.seqState n = if s.seqState n = seqArmed ∨ s.seqState n = seqHeld ∨ s.seqState n = seqDone then seqIdle
          else s.seqState n) ∧ t.mem = s.mem ∧ t.out = s.out := by
  have stops := State.stopped_stops alone
  have runs : exec .furrowBodyStart s = s.act State.bodyStart := rfl
  have effect : s.bodyStart = s.stopped := by
    rw [State.bodyStart, if_pos (by rw [armed, turned, lockless]; rfl), State.haltSchedule_armed armed alone start stop]
  generalize s.stopped = t at stops effect
  refine completes_act (f := State.bodyStart) (t := t) quiet.1 runs effect ((congrArg Que.tickets stops.que).trans quiet.2) stops.waiting ?_
  refine ⟨stops.state, stops.regs _ (by decide), ?_, stops.seqs, stops.mem, stops.out⟩
  rw [stops.frw, State.stopFrw, armed]
  rfl

theorem completes_firstFurrow {s : State} (quiet : s.quiet) (armed : s.frwState = frwArmed) (turned : s.frw.turned = true)
    (locked : s.lockless = false) (noLanes : s.srv.openLanes = []) :
    Completes .furrowBodyStart s fun t => s.BodyRuns t s.frw.k0 s.frw.t0 ∧ t.frw.startTicket = none := by
  have runs : exec .furrowBodyStart s = s.act State.bodyStart := rfl
  have effect := State.bodyStart_first armed turned locked quiet.2 noLanes
  have fresh := s.firstFurrow_freshens.dropResults
  have body : s.BodyRuns s.firstFurrow.dropResults.beginStep s.frw.k0 s.frw.t0 := fresh.runs s.firstFurrow_shows.1 s.firstFurrow_shows.2
  obtain ⟨tickets0, pending0, -, -⟩ := fresh.open
  generalize s.firstFurrow.dropResults = u at effect body tickets0 pending0
  obtain ⟨tickets, pending, -⟩ := u.beginStep_open
  generalize u.beginStep = t at effect body tickets pending
  refine completes_act (f := State.bodyStart) (t := t.startOver) quiet.1 runs effect (tickets.trans (tickets0.trans quiet.2))
    (pending.trans pending0) ⟨?_, rfl⟩
  exact { body with }

theorem completes_laterFurrow {s : State} (quiet : s.quiet) (inside : s.inSchedule = true) (head : s.isSet R.FRW_STATE.HEADLAND = true)
    (late : s.isSet R.FRW_STATE.LATE_GROUP = false) (noLanes : s.srv.openLanes = []) :
    Completes .furrowBodyStart s fun t => s.BodyRuns t (s.furrow + 1) (s.furrowStart (s.furrow + 1)) ∧
      t.isSet R.FRW_STATE.HEADLAND = false := by
  have runs : exec .furrowBodyStart s = s.act State.bodyStart := rfl
  have effect := State.bodyStart_later inside head noLanes
  rw [late, if_neg Bool.false_ne_true] at effect
  obtain ⟨number, start, noHead⟩ := s.laterFurrow_shows
  have fresh := s.laterBody_freshens
  have get := s.laterBody_get
  generalize s.laterBody = u at effect fresh get
  have body := fresh.runs (k := s.furrow + 1) (start := s.furrowStart (s.furrow + 1)) ((get _).trans number) ((get _).trans start)
  have flag := u.beginStep_begun.flag (f := R.FRW_STATE.HEADLAND) (by decide) (by decide) (by decide)
  obtain ⟨tickets0, pending0, -, -⟩ := fresh.open
  obtain ⟨tickets, pending, -⟩ := u.beginStep_open
  generalize u.beginStep = t at effect body tickets pending flag
  exact completes_act (f := State.bodyStart) (t := t) quiet.1 runs effect (tickets.trans (tickets0.trans quiet.2))
    (pending.trans pending0) ⟨body, flag.trans ((State.isSet_of_get (get _)).trans noHead)⟩

theorem completes_fallowFurrow {s : State} (quiet : s.quiet) (inside : s.inSchedule = true) (head : s.isSet R.FRW_STATE.HEADLAND = true)
    (late : s.isSet R.FRW_STATE.LATE_GROUP = true) (noLanes : s.srv.openLanes = []) :
    Completes .furrowBodyStart s fun t => t.furrow = (s.furrow + 1) % 2 ^ 64 ∧
      t.get R.FRW_START_TIME.START_TIME = s.furrowStart (s.furrow + 1) % 2 ^ 64 ∧
      t.isSet R.FRW_STATE.HEADLAND = false ∧ t.isSet R.FRW_STATE.LATE_GROUP = false ∧ t.frwState = frwFallow ∧
      t.frw.nextTemplate = s.frw.nextTemplate ∧ t.frw.fallowRun = s.frw.fallowRun + 1 ∧
      t.get R.FRW_LATE.TEMPLATE = s.get R.FRW_LATE.TEMPLATE ∧ t.mem = s.mem ∧ t.out = s.out := by
  have runs : exec .furrowBodyStart s = s.act State.bodyStart := rfl
  have effect := State.bodyStart_later inside head noLanes
  rw [late, if_pos rfl] at effect
  obtain ⟨number, start, noHead⟩ := s.laterFurrow_shows
  have fresh := s.laterBody_freshens
  have reads := s.laterBody_get
  generalize s.laterBody = u at effect fresh reads
  obtain ⟨tickets0, pending0, mem0, out0⟩ := fresh.open
  obtain ⟨state, next, run, get, out, tickets, pending, mem⟩ := u.beginFallow_fallow
  generalize u.beginFallow = t at effect state next run get out tickets pending mem
  have next0 : u.frw.nextTemplate = s.frw.nextTemplate := (congrArg Frw.nextTemplate fresh.next :)
  have run0 : u.frw.fallowRun = s.frw.fallowRun := (congrArg Frw.fallowRun fresh.next :)
  refine completes_act (f := State.bodyStart) (t := t) quiet.1 runs effect (tickets.trans (tickets0.trans quiet.2)) (pending.trans pending0) ?_
  exact ⟨(get _ (by decide) (by decide)).trans ((reads _).trans number), (get _ (by decide) (by decide)).trans ((reads _).trans start),
    (State.isSet_of_get ((get _ (by decide) (by decide)).trans (reads _))).trans noHead,
    (State.isSet_of_get (get _ (by decide) (by decide))).trans fresh.group, state, next.trans next0, run.trans (congrArg (· + 1) run0),
    (get _ (by decide) (by decide)).trans (fresh.regs _ (by decide)), mem.trans mem0, out.trans out0⟩

/-- The last headland's end, where no packet waits for it. -/
theorem completes_stopEnds {s : State} (quiet : s.quiet) (stopping : s.frwState = frwStopping) (noLanes : s.srv.openLanes = [])
    (alone : s.stopsAlone) : Completes .stopHeadlandEnd s fun t =>
      t.frwState = frwStopped ∧ t.isSet R.FRW_STATE.HEADLAND = false ∧ t.isSet R.FRW_STATE.STOP_PENDING = false ∧
        t.frw.stopAt = none ∧ t.frw.nextK = s.furrow + 1 ∧
        (∀ n, n < 16 → t.seqState n = if s.seqState n = seqArmed ∨ s.seqState n = seqHeld ∨ s.seqState n = seqDone then seqIdle
          else s.seqState n) ∧
        s.leaves t ([R.FRW_STATE.STATE, R.FRW_STATE.HEADLAND, R.FRW_STATE.STOP_PENDING, R.FRW_STATE.LATE_SELF,
          R.FRW_STATE.LATE_GROUP] ++ (List.range 16).map R.TILE_SEQ_STATUS.STATE) := by
  have runs : exec .stopHeadlandEnd s = s.act State.stopEnds := rfl
  have effect := State.stopEnds_eq stopping noLanes
  have stops := State.dropResults_stops alone
  have nextK : s.dropResults.stopFrw.nextK = s.furrow + 1 := State.stopFrw_stopping (s := s.dropResults) stopping
  have none_open : s.dropResults.stopped.que.tickets = [] := (congrArg Que.tickets stops.que).trans quiet.2
  rw [State.endWait_open none_open] at effect
  generalize s.dropResults.stopped = t at effect stops none_open
  refine completes_act (f := State.stopEnds) (t := t.stopOver) quiet.1 runs effect none_open stops.waiting ?_
  exact ⟨stops.state, stops.headland, stops.pending, (congrArg Frw.stopAt stops.frw :), (congrArg Frw.nextK stops.frw :).trans nextK,
    stops.seqs, stops.mem, stops.out, stops.regs⟩

/-- The end of the only packet open, which a host's ring gave. -/
theorem State.finish_posts {u : State} {T : Ticket} {i : Nat} (a : Answer) (tickets : u.que.tickets = [T]) (host : T.origin = .host i) :
    (u.withTickets []).Posts (u.finish T.no a) := by
  rw [State.finish_only a tickets host]
  exact State.Posts.postCq (u.withTickets []) i _

/-- The last headland's end, for which FURROW_STOP waits. -/
theorem completes_stopEnds_answered {s : State} {T : Ticket} {i : Nat} (alive : s.alive = true) (stopping : s.frwState = frwStopping)
    (tickets : s.que.tickets = [T]) (host : T.origin = .host i) (waits : s.frw.stopTicket = some T.no) (noLanes : s.srv.openLanes = [])
    (alone : s.stopsAlone) : Completes .stopHeadlandEnd s fun t =>
      t.frwState = frwStopped ∧ t.que.tickets = [] ∧ t.frw.stopTicket = none ∧ t.mem = s.mem := by
  have runs : exec .stopHeadlandEnd s = s.act State.stopEnds := rfl
  have effect := State.stopEnds_eq stopping noLanes
  have stops := State.dropResults_stops alone
  have still : s.dropResults.stopped.que.tickets = [T] := (congrArg Que.tickets stops.que).trans tickets
  rw [waits, State.endWait] at effect
  generalize s.dropResults.stopped = u at effect stops still
  have posts := State.finish_posts { status := .ok } still host
  have state : (u.withTickets []).frwState = frwStopped := stops.state
  have mem : (u.withTickets []).mem = s.mem := stops.mem
  have pending : (u.withTickets []).pending = s.pending := stops.waiting
  have none_open : (u.withTickets []).que.tickets = [] := rfl
  generalize u.withTickets [] = b at posts state mem pending none_open
  generalize u.finish T.no { status := .ok } = t at effect posts
  refine completes_act (f := State.stopEnds) (t := t.stopOver) alive runs effect (posts.tickets.trans none_open)
    (posts.pending.trans pending) ?_
  exact ⟨(posts.get _ ⟨by decide, .inl (by decide)⟩).trans state, posts.tickets.trans none_open, rfl, posts.mem.trans mem⟩

end Sys2Proof.Machine
end StopHeadland

section LaneTablesWritten
/-! SUPPORT. What the writing of lane tables and the flushing of KV files touch: memory, page tables and counts (R59, R341, R348). -/

namespace Sys2Proof.Machine

/-- From `s` to `t` device memory, its poison and what the KV store keeps of it may differ, and the lists of page descriptors. -/
def State.memOnly (s t : State) : Prop :=
  t = { s with mem := t.mem, poison := t.poison, kv := t.kv, srv := { s.srv with descLists := t.srv.descLists } }

/-- From `s` to `t` memory, page tables, the tiles' counts and Granary lines may differ, and values drawn. -/
structure State.kvOnly (s t : State) : Prop where
  eq : t = { s with
    regs := t.regs, mem := t.mem, poison := t.poison, kv := t.kv, tiles := t.tiles, freeCtr := t.freeCtr
    srv := { s.srv with descLists := t.srv.descLists } }
  low : ∀ f : Field, f.key < 0x1000000 * 64 → t.get f = s.get f

namespace State.memOnly
variable {s t u : State}

theorem refl (s : State) : s.memOnly s := rfl

theorem trans (h : s.memOnly t) (k : t.memOnly u) : s.memOnly u := by
  rw [memOnly] at k ⊢
  refine k.trans ?_
  rw [h]

theorem foldl {α : Type} (l : List α) {f : State → α → State} (h : ∀ s x, memOnly s (f s x)) (s : State) : s.memOnly (l.foldl f s) :=
  List.foldlRecOn (motive := fun t => s.memOnly t) _ _ (refl s) fun t k x _ => k.trans (h t x)

theorem regs (h : s.memOnly t) : t.regs = s.regs := (congrArg State.regs h :)
theorem frw (h : s.memOnly t) : t.frw = s.frw := (congrArg State.frw h :)
theorem lanes (h : s.memOnly t) : t.srv.lanes = s.srv.lanes ∧ t.srv.built = s.srv.built :=
  ⟨(congrArg (fun v : State => v.srv.lanes) h :), (congrArg (fun v : State => v.srv.built) h :)⟩

theorem write (s : State) (a : Nat) (b : Bytes) : s.memOnly (s.write a b) := rfl

theorem poisonRange (s : State) (a n : Nat) : s.memOnly (s.poisonRange a n) := rfl

theorem copyBytes (s : State) (a b n : Nat) : s.memOnly (s.copyBytes a b n) :=
  (write s b _).trans (foldl _ (fun t _ => poisonRange t _ _) _)

theorem setFile (s : State) (slot : Nat) (f : Option KvFile) : s.memOnly (s.setFile slot f) := rfl

theorem ownFree (s : State) (a : Nat) : s.memOnly (s.ownFree a) := rfl

theorem ownAlloc {n size a : Nat} (h : s.ownAlloc n size = some (t, a)) : s.memOnly t := by
  obtain ⟨_, -, made⟩ := Option.map_eq_some_iff.1 h
  cases made
  rfl

theorem park (s : State) (slot : Nat) : s.memOnly (s.park slot) := by
  unfold State.park
  split
  · exact refl s
  · split
    · split
      · exact refl s
      · next given => exact ((ownAlloc given).trans (copyBytes _ _ _ _)).trans (setFile _ _ _)
    · exact refl s

theorem stageIn (s : State) (slot : Nat) (busy : List Nat) (n : Nat) : s.memOnly (s.stageIn slot busy n) := by
  induction n generalizing s with
  | zero => exact refl s
  | succ n ih =>
    unfold State.stageIn
    split
    · exact refl s
    · split
      · exact refl s
      · split
        · split
          · exact refl s
          · dsimp only
            split
            · split
              · exact ((copyBytes s _ _ _).trans (ownFree _ _)).trans (setFile _ _ _)
              · exact setFile _ _ _
            · split
              · exact (park s _).trans (ih _)
              · exact refl s
        · exact refl s

theorem putDescs (s : State) (i a stride : Nat) (l : List (List Bytes)) : s.memOnly (s.putDescs i a stride l) :=
  trans (t := { s with srv := { s.srv with descLists := Table.modify [] i (· ++ [a]) s.srv.descLists } }) rfl
    (foldl _ (fun t _ => write t _ _) _)

theorem writeDescs (s : State) (i n stride : Nat) (l : List (List Bytes)) : s.memOnly (s.writeDescs i n stride l).1 := by
  unfold State.writeDescs
  split
  · exact refl s
  · next given => exact (ownAlloc given).trans (putDescs _ _ _ _ _)

theorem laneBytes (s : State) (i n share : Nat) (g : Geo) (e : LaneEntry) : s.memOnly (s.laneBytes i n share g e).1 := by
  unfold State.laneBytes
  dsimp only
  split
  · exact writeDescs s _ _ _ _
  · exact refl s

theorem recordBytes (s : State) (i : Nat) (e : LaneEntry) : s.memOnly (s.recordBytes i e).1 :=
  (write s _ _).trans (write _ _ _)

theorem writeTable (s : State) (i n share : Nat) (g : Geo) (x : Inst) (es : List LaneEntry) (set a : Nat) :
    s.memOnly (s.writeTable i n share g x es set a) := by
  have lane (t : State) (e : LaneEntry) : t.memOnly ((((t.laneBytes i n share g e).1.recordBytes i e).1.write (a + 128 * e.lane)
      (t.laneBytes i n share g e).2).write (a + 0x800 + 128 * e.lane) ((t.laneBytes i n share g e).1.recordBytes i e).2) :=
    (((laneBytes t i n share g e).trans (recordBytes _ i e)).trans (write _ _ _)).trans (write _ _ _)
  exact ((write s a _).trans (foldl _ lane _)).trans (write _ _ _)

theorem writeLanes (s : State) (i : Nat) (es : List LaneEntry) : s.memOnly (s.writeLanes i es) := by
  unfold State.writeLanes
  split
  · exact refl s
  · split
    · exact refl s
    · next x _ _ =>
      dsimp only
      have staged := foldl (es.map fun e => e.slot).eraseDups (fun t q => stageIn t q (s.inLanes ++ es.map fun e => e.seqId) 64) s
      generalize (es.map fun e => e.slot).eraseDups.foldl _ s = t at staged ⊢
      have freed := staged.trans (foldl (Table.get [] i t.srv.descLists) (fun u a => ownFree u a) t)
      generalize (Table.get [] i t.srv.descLists).foldl _ t = u at freed ⊢
      have erased : s.memOnly { u with srv := { u.srv with descLists := Table.erase i u.srv.descLists } } := freed.trans rfl
      generalize ({ u with srv := { u.srv with descLists := Table.erase i u.srv.descLists } } : State) = v at erased ⊢
      have mapped := erased.trans (write v (tileMapAt i) (fit 16 ((x.geo s.self).serving.map (BitVec.ofNat 8))))
      exact mapped.trans (foldl _ (fun w _ => foldl _ (fun w _ => writeTable w _ _ _ _ _ _ _ _) w) _)

end State.memOnly

namespace State.kvOnly
variable {s t u : State}

theorem refl (s : State) : s.kvOnly s := ⟨rfl, fun _ _ => rfl⟩

theorem trans (h : s.kvOnly t) (k : t.kvOnly u) : s.kvOnly u where
  eq := by
    refine k.eq.trans ?_
    rw [h.eq]
  low f hf := (k.low f hf).trans (h.low f hf)

theorem after (k : t.kvOnly u) (h : s.kvOnly t) : s.kvOnly u := h.trans k

theorem of_memOnly (h : s.memOnly t) : s.kvOnly t := by
  have tiles : t.tiles = s.tiles := (congrArg State.tiles h :)
  have drawn : t.freeCtr = s.freeCtr := (congrArg State.freeCtr h :)
  refine ⟨?_, fun f _ => State.get_of_regs h.regs f⟩
  rw [h.regs, tiles, drawn]
  exact h

theorem foldl {α : Type} (l : List α) {f : State → α → State} (h : ∀ s x, kvOnly s (f s x)) (s : State) : s.kvOnly (l.foldl f s) :=
  List.foldlRecOn (motive := fun t => s.kvOnly t) _ _ (refl s) fun t k x _ => k.trans (h t x)

theorem frw (h : s.kvOnly t) : t.frw = s.frw := (congrArg State.frw h.eq :)

theorem put {f : Field} (s : State) (v : Nat) (hf : 0x1000000 * 64 ≤ f.key) : s.kvOnly (s.put f v) :=
  ⟨rfl, fun g hg => State.get_put_other s v (by omega)⟩

theorem bump {f : Field} (s : State) (n : Nat) (hf : 0x1000000 * 64 ≤ f.key) : s.kvOnly (s.bump f n) := put s _ hf

theorem wrapAdd {f : Field} (s : State) (n : Nat) (hf : 0x1000000 * 64 ≤ f.key) : s.kvOnly (s.wrapAdd f n) := put s _ hf

theorem draw (s : State) : s.kvOnly s.draw := ⟨rfl, fun _ _ => rfl⟩

theorem modTile (s : State) (n : Nat) (f : Tile → Tile) : s.kvOnly (s.modTile n f) := ⟨rfl, fun _ _ => rfl⟩

theorem write (s : State) (a : Nat) (b : Bytes) : s.kvOnly (s.write a b) := ⟨rfl, fun _ _ => rfl⟩

theorem setFile (s : State) (slot : Nat) (f : Option KvFile) : s.kvOnly (s.setFile slot f) := ⟨rfl, fun _ _ => rfl⟩

theorem granaryCount_high (n : Nat) : 0x1000000 * 64 ≤ (R.TSTORE_GRANARY_EVENTS.WRITEBACKS n).key ∧
    0x1000000 * 64 ≤ (R.TSTORE_GRANARY_EVENTS.ATOMICS n).key ∧ 0x1000000 * 64 ≤ (R.TSTORE_ATOM_EVENTS.REF_UNDERFLOW n).key ∧
    0x1000000 * 64 ≤ (R.TSTORE_ATOM_EVENTS.REF_OVERFLOW n).key ∧ 0x1000000 * 64 ≤ (R.TSTORE_GRANARY_COUNTS.HITS n).key ∧
    0x1000000 * 64 ≤ (R.TSTORE_GRANARY_COUNTS.MISSES n).key := by
  simp only [Field.key, R.TSTORE_GRANARY_EVENTS.WRITEBACKS, R.TSTORE_GRANARY_EVENTS.ATOMICS, R.TSTORE_ATOM_EVENTS.REF_UNDERFLOW,
    R.TSTORE_ATOM_EVENTS.REF_OVERFLOW, R.TSTORE_GRANARY_COUNTS.HITS, R.TSTORE_GRANARY_COUNTS.MISSES]
  omega

theorem kvCount_high (n : Nat) : 0x1000000 * 64 ≤ (R.TILE_KV_COUNTS.COW_COPIES n).key ∧
    0x1000000 * 64 ≤ (R.TILE_KV_COUNTS.NONFINITE_BLOCKS n).key ∧ 0x1000000 * 64 ≤ (R.TILE_KV_TIER_COUNTS.FLUSHES n).key := by
  simp only [Field.key, R.TILE_KV_COUNTS.COW_COPIES, R.TILE_KV_COUNTS.NONFINITE_BLOCKS, R.TILE_KV_TIER_COUNTS.FLUSHES]
  omega

theorem useLine (s : State) (n line : Nat) (d : Bool) : s.kvOnly (s.useLine n line d) := by
  unfold State.useLine
  dsimp only
  split
  · exact refl s
  · exact modTile s _ _

theorem writeback (s : State) (n : Nat) : s.kvOnly (s.writeback n) := wrapAdd s 1 (granaryCount_high n).1

theorem install (s : State) (n line : Nat) (d : Bool) : s.kvOnly (s.install n line d) := by
  unfold State.install
  dsimp only
  split
  · exact useLine s n line d
  · split
    · exact (writeback s n).trans (modTile _ _ _)
    · exact modTile s _ _

theorem atomPerform (s : State) (n c op addr data cmp : Nat) (wide : Bool) : s.kvOnly (s.atomPerform n false c op addr wide data cmp) := by
  obtain ⟨-, atomics, underflow, overflow, -, -⟩ := granaryCount_high n
  unfold State.atomPerform
  dsimp only
  rw [if_neg (by decide)]
  split
  · exact ((write s _ _).trans (useLine _ _ _ _)).trans (wrapAdd _ _ atomics)
  · refine bump s _ ?_
    split
    · exact underflow
    · exact overflow

theorem lookup (s : State) (n line : Nat) : s.kvOnly (s.lookup n line).1 := by
  obtain ⟨-, -, -, -, hits, misses⟩ := granaryCount_high n
  unfold State.lookup
  split
  · exact wrapAdd s _ hits
  · exact wrapAdd s _ misses

theorem refOp (s : State) (n tier addr op data cmp : Nat) : s.kvOnly (s.refOp n tier addr op data cmp).1 := by
  unfold State.refOp
  dsimp only
  refine trans ?_ (atomPerform _ n 0 op _ data cmp false)
  split
  · exact refl s
  · next h _ =>
    have looked := lookup s h (s.refAddr n tier addr / 64 * 64)
    split
    · next t heq =>
      rw [heq] at looked
      exact looked
    · next t heq =>
      rw [heq] at looked
      exact looked.trans (install t _ _ _)

theorem setRef (s : State) (n tier addr v : Nat) : s.kvOnly (s.setRef n tier addr v) :=
  (refOp s n tier addr 0x1 0 0).trans (refOp _ n tier addr 0x6 v _)

theorem setPtes (s : State) (table g size e : Nat) : s.kvOnly (s.setPtes table g size e) := foldl _ (fun t _ => write t _ _) s

theorem handles (s : State) (h : Table (Option KvHandle)) : s.kvOnly { s with kv := { s.kv with handles := h } } := ⟨rfl, fun _ _ => rfl⟩

theorem mapEntries (s : State) (n addr : Nat) (f : Nat → Nat) : s.kvOnly (s.mapEntries n addr f) := by
  unfold State.mapEntries
  refine (handles _ _).after (foldl _ (fun t x => foldl _ (fun u g => ?_) t) s)
  split
  · exact write u _ _
  · exact refl u

theorem copySlots (s : State) (n tierA a tierB b len : Nat) : s.kvOnly (s.copySlots n tierA a tierB b len) :=
  of_memOnly ((memOnly.copyBytes s _ _ _).trans (memOnly.copyBytes _ _ _ _))

theorem freePage (s : State) (n addr : Nat) : s.kvOnly (s.freePage n addr) := by
  unfold State.freePage
  split
  · exact ⟨rfl, fun _ _ => rfl⟩
  · exact ⟨rfl, fun _ _ => rfl⟩

theorem dropRef (s : State) (n e : Nat) (dawn : Bool) : s.kvOnly (s.dropRef n e dawn) := by
  unfold State.dropRef
  dsimp only
  have op := refOp s n (Pte.tier e) (Pte.addr e) 0x8 (refData dawn) 0
  split
  · exact op
  · split
    · exact op.trans (freePage _ _ _)
    · split
      · exact op.trans (mapEntries _ _ _ _)
      · exact op

theorem pageIn {n tier size tenant a : Nat} {dawn : Bool} (h : s.pageIn n tier size tenant dawn = some (t, a)) : s.kvOnly t := by
  unfold State.pageIn at h
  split at h
  · cases h
  · obtain ⟨x, -, made⟩ := Option.map_eq_some_iff.1 h
    cases made
    exact (setRef _ _ _ _ _).after ⟨rfl, fun _ _ => rfl⟩

theorem newPage {n size tenant water a b : Nat} {dawn : Bool} (h : s.newPage n size tenant dawn water = some (t, a, b)) : s.kvOnly t := by
  unfold State.newPage at h
  dsimp only at h
  split at h
  · next v x near =>
    cases h
    split at near
    · exact pageIn near
    · cases near
  · obtain ⟨x, page, made⟩ := Option.map_eq_some_iff.1 h
    cases made
    exact pageIn page

theorem flushSlot {n share table off a b : Nat} {g : Geo} {f : KvFile} (h : s.flushSlot n share table off g f = some (t, a, b)) : s.kvOnly t := by
  unfold State.flushSlot at h
  dsimp only at h
  split at h
  · obtain ⟨⟨u, y, z⟩, page, made⟩ := Option.map_eq_some_iff.1 h
    cases made
    exact (newPage page).trans (setPtes _ _ _ _ _)
  · split at h
    · cases h
      exact refl s
    · split at h
      · cases h
        exact (refOp s _ _ _ _ _ _).trans (mapEntries _ _ _ _)
      · obtain ⟨⟨u, y⟩, page, made⟩ := Option.map_eq_some_iff.1 h
        cases made
        refine (bump _ _ (kvCount_high n).1).after ((dropRef _ _ _ _).after ((setPtes _ _ _ _ _).after ?_))
        refine (foldl _ (fun t _ => copySlots t _ _ _ _ _ _) u).after ?_
        exact (refOp s _ _ _ _ _ _).trans (pageIn page)

theorem putPlot (s : State) (pool : Nat × Nat) (slot off : Nat) (b : Bytes) : s.kvOnly (s.putPlot pool slot off b) := ⟨rfl, fun _ _ => rfl⟩

theorem flushHead {n share table stage j i x : Nat} {g : Geo} {f : KvFile} (h : s.flushHead n share table stage j i g f x = some t) :
    s.kvOnly t := by
  unfold State.flushHead at h
  obtain ⟨⟨u, y, z⟩, slot, made⟩ := Option.map_eq_some_iff.1 h
  rw [← made]
  refine (draw _).after ((draw _).after ((bump _ _ (kvCount_high n).2.1).after ?_))
  refine (foldl _ (fun t _ => putPlot t _ _ _ _) _).after ?_
  exact (foldl _ (fun t _ => putPlot t _ _ _ _) u).after (flushSlot slot)

theorem tryAll {α : Type} {f : State → α → Option State} (h : ∀ (s : State) x t, f s x = some t → s.kvOnly t) {l : List α}
    (all : tryAll f s l = some t) : s.kvOnly t := by
  induction l generalizing s with
  | nil => cases all; exact refl _
  | cons x l ih =>
    simp only [Machine.tryAll] at all
    split at all
    · next u first => exact (h _ _ _ first).trans (ih all)
    · cases all

theorem flushSeq (s : State) (slot : Nat) (f : KvFile) : s.kvOnly (s.flushSeq slot f) := by
  unfold State.flushSeq
  dsimp only
  split
  · exact refl s
  · split
    · exact setFile s _ _
    · split
      · exact refl s
      · split
        · exact refl s
        · next u all => exact (bump _ _ (kvCount_high _).2.2).after ((setFile u _ _).after (tryAll (fun _ _ _ part => flushHead part) all))

theorem flushItem (s : State) : s.kvOnly s.flushItem := foldl _ (fun t e => by
  split
  · split
    · exact flushSeq t _ _
    · exact refl t
  · exact refl t) s

theorem syncFiles (s : State) : s.kvOnly s.syncFiles := foldl _ (fun t e => by
  split
  · exact setFile t _ _
  · exact refl t) s

end State.kvOnly
end Sys2Proof.Machine
end LaneTablesWritten

section LaneDeadline
/-! SUPPORT. A lane table that every member has acknowledged takes effect at its deadline (R90). -/

namespace Sys2Proof.Machine

theorem State.syncSeqs_still (s : State) : s.syncSeqs.frw = s.frw ∧ s.syncSeqs.regs = s.regs := by
  have noted (t : State) (id : Nat) (f : Seq → Seq) : (t.modSeq id f).frw = t.frw ∧ (t.modSeq id f).regs = t.regs := by
    obtain ⟨l, only⟩ := t.modSeq_only id f
    rw [only]
    exact ⟨rfl, rfl⟩
  refine List.foldlRecOn (motive := fun t : State => t.frw = s.frw ∧ t.regs = s.regs) _ _ ⟨rfl, rfl⟩ fun t h e _ => ?_
  split
  · exact ⟨(noted t _ _).1.trans h.1, (noted t _ _).2.trans h.2⟩
  · exact ⟨(noted t _ _).1.trans h.1, (noted t _ _).2.trans h.2⟩

theorem State.noteHeld_still (s : State) : s.noteHeld.frw = s.frw ∧ s.sameRegs s.noteHeld [R.QUE_REJECTS.RING_FULL] := by
  unfold State.noteHeld
  split
  · exact ⟨rfl, fun _ _ => rfl⟩
  · exact ⟨rfl, fun f hf => State.get_put_other _ _ (hf _ (List.mem_singleton.2 rfl))⟩

/-- From `s` to `t` what the lane tables and the schedule need is as it was. -/
structure State.TablesStay (s t : State) : Prop where
  frw : t.frw = s.frw
  low : ∀ f : Field, f.key < 0x1000000 * 64 → f.key ≠ R.QUE_REJECTS.RING_FULL.key → t.get f = s.get f
  built : t.srv.built = s.srv.built
  laneWait : t.srv.laneWait = s.srv.laneWait

theorem State.TablesStay.trans {s t u : State} (h : s.TablesStay t) (k : t.TablesStay u) : s.TablesStay u :=
  ⟨k.frw.trans h.frw, fun f hf other => (k.low f hf other).trans (h.low f hf other), k.built.trans h.built, k.laneWait.trans h.laneWait⟩

/-- What follows when lanes are settled leaves the schedule and the lane tables as they are, where nothing waits for it. -/
theorem State.afterSettle_stay {s : State} (cmds : s.srv.waitCmds = []) (far : s.srv.farWait = []) : s.TablesStay s.afterSettle := by
  obtain ⟨b, noted⟩ := s.noteHeld_srv
  have flushed : s.noteHeld.syncFiles.flushItem.srv = s.noteHeld.srv := (State.flushItem_srv _).trans (State.syncFiles_srv _)
  have kv := (kvOnly.syncFiles s.noteHeld).trans (kvOnly.flushItem _)
  obtain ⟨frw0, regs0⟩ := s.noteHeld_still
  have first : s.noteHeld.syncFiles.flushItem.frw = s.frw ∧ ∀ f : Field, f.key < 0x1000000 * 64 → f.key ≠ R.QUE_REJECTS.RING_FULL.key →
      s.noteHeld.syncFiles.flushItem.get f = s.get f :=
    ⟨kv.frw.trans frw0, fun f hf other => (kv.low f hf).trans (regs0 f fun _ hg => List.mem_singleton.1 hg ▸ other)⟩
  obtain ⟨frw1, regs1⟩ := s.noteHeld.syncFiles.flushItem.syncSeqs_still
  obtain ⟨serves, -⟩ := s.noteHeld.syncFiles.flushItem.syncSeqs_runs 0
  rw [State.servesOn, flushed, noted] at serves
  obtain ⟨frw2, low2⟩ := first
  unfold State.afterSettle
  have frw := frw1.trans frw2
  have low : ∀ f : Field, f.key < 0x1000000 * 64 → f.key ≠ R.QUE_REJECTS.RING_FULL.key →
      s.noteHeld.syncFiles.flushItem.syncSeqs.get f = s.get f := fun f hf other => (State.get_of_regs regs1 f).trans (low2 f hf other)
  generalize s.noteHeld.syncFiles.flushItem.syncSeqs = t at serves frw low ⊢
  have cmdsT : t.srv.waitCmds = [] := by rw [serves]; exact cmds
  have farT : t.srv.farWait = [] := by rw [serves]; exact far
  have builtT : t.srv.built = s.srv.built := by rw [serves]
  have waitT : t.srv.laneWait = s.srv.laneWait := by rw [serves]
  simp only [State.applyWaiting, cmdsT, List.foldl_nil, farT, List.filter_nil, State.discardLanes, ite_self]
  exact ⟨frw, low, builtT, waitT⟩

/-- The tables of instance `i` that are in force from now on. -/
def State.inForce (s : State) (i : Nat) (l : List LaneEntry) : State :=
  { s with srv := { s.srv with
      lanes := Table.set [] i l s.srv.lanes
      built := Table.erase i s.srv.built
      laneWait := Table.erase i s.srv.laneWait
      laneRecv := Table.erase i s.srv.laneRecv } }

theorem State.setLanes_sets (s : State) (i : Nat) (l : List LaneEntry) : (s.setLanes i l).frw = s.frw ∧ (s.setLanes i l).regs = s.regs ∧
    Table.get [] i (s.setLanes i l).srv.lanes = l ∧ (s.setLanes i l).srv.built = Table.erase i s.srv.built := by
  have only : (s.inForce i l).memOnly (s.setLanes i l) := memOnly.writeLanes _ i l
  obtain ⟨lanes, built⟩ := only.lanes
  exact ⟨only.frw, only.regs, by rw [lanes]; exact Table.get_set_same _ _ _ _, built⟩

/-- The one table built, which nobody has still to acknowledge, is accepted. -/
theorem State.decideLanes_accepts {s : State} {i : Nat} {l : List LaneEntry} (lead : s.isLead = true) (built : s.srv.built = [(i, l)])
    (none : Table.get [] i s.srv.laneWait = []) : s.decideLanes.frw = s.frw ∧ s.decideLanes.isSet R.QUE_LANE_USE.DISCARDED = false ∧
      Table.get [] i s.decideLanes.srv.lanes = l ∧ s.decideLanes.srv.built = [] ∧ s.decideLanes.que.tickets = s.que.tickets := by
  rw [State.decideLanes, if_neg (by rw [lead]; decide), built, List.foldl_cons, List.foldl_nil]
  dsimp only
  rw [none, if_pos (show ([] : List Nat).isEmpty = true from rfl)]
  have marked : (s.putBit R.QUE_LANE_USE.DISCARDED false).isSet R.QUE_LANE_USE.DISCARDED = false := State.isSet_putBit Nat.one_pos false
  have told := State.sendAll_onlySends (s.putBit R.QUE_LANE_USE.DISCARDED false) ((s.instMembers i).filter fun d => d != s.self)
    (.laneAccept i (s.furrow + 1))
  generalize (s.putBit R.QUE_LANE_USE.DISCARDED false).sendAll _ _ = u at told ⊢
  obtain ⟨frw, regs, lanes, rest⟩ := u.setLanes_sets i l
  have builtU : u.srv.built = [(i, l)] := (congrArg (fun v : State => v.srv.built) told :).trans built
  have tickets : (u.setLanes i l).que.tickets = s.que.tickets := State.setLanes_tix (congrArg (fun v : State => v.que.tickets) told :)
  refine ⟨frw.trans (congrArg State.frw told :), ?_, lanes, ?_, tickets⟩
  · exact (State.isSet_of_get (State.get_of_regs (regs.trans told.regs) _)).trans marked
  · rw [rest, builtU, Table.erase]
    simp

/-- No instance's lanes wait for a lane of another device. -/
def State.noFar (s : State) : State := { s with srv := { s.srv with farWait := [] } }

theorem State.laneDeadline_eq {s : State} (inside : s.inSchedule = true) (head : s.isSet R.FRW_STATE.HEADLAND = true)
    (far : s.srv.farWait = []) (noLanes : s.srv.openLanes = []) : s.laneDeadline = s.noFar.afterSettle.decideLanes := by
  have still : s.noFar.settleOpen s.noFar.deliveryTime s.noFar.knownLast = s.noFar := by
    rw [State.settleOpen, show s.noFar.srv.openLanes = [] from noLanes, List.foldl_nil]
  rw [State.laneDeadline, if_neg (by rw [inside, head]; decide)]
  dsimp only
  rw [far, ← State.noFar, still]
  rfl

theorem completes_laneDeadline {s : State} {i : Nat} {l : List LaneEntry} (quiet : s.quiet) (inside : s.inSchedule = true)
    (head : s.isSet R.FRW_STATE.HEADLAND = true) (alone : s.alone) (built : s.srv.built = [(i, l)])
    (none : Table.get [] i s.srv.laneWait = []) (far : s.srv.farWait = []) (noLanes : s.srv.openLanes = []) (cmds : s.srv.waitCmds = []) :
    Completes .laneTableDeadline s fun t =>
      Table.get [] i t.srv.lanes = l ∧ t.srv.built = [] ∧ t.isSet R.QUE_LANE_USE.DISCARDED = false ∧ t.frw = s.frw := by
  have runs : exec .laneTableDeadline s = s.act State.laneDeadline := rfl
  have effect := State.laneDeadline_eq inside head far noLanes
  have pending := (State.laneDeadline_kept (.refl s)).pending
  have stay := State.afterSettle_stay (s := s.noFar) cmds rfl
  obtain ⟨-, -, -, -, tickets0⟩ := State.afterSettle_runs (s := s.noFar) 0 cmds rfl
  generalize s.noFar.afterSettle = u at effect stay tickets0
  have lead : u.isLead = true := by
    have same : u.isSet R.GLB_DEVPOS.ASSIGNED = s.isSet R.GLB_DEVPOS.ASSIGNED := State.isSet_of_get (stay.low _ (by decide) (by decide))
    rw [State.isLead, State.assigned, same, show s.isSet R.GLB_DEVPOS.ASSIGNED = false from alone]
    rfl
  obtain ⟨frw, mark, lanes, rest, tickets⟩ := State.decideLanes_accepts lead (stay.built.trans built) ((congrArg (Table.get [] i) stay.laneWait).trans none)
  rw [effect] at pending
  generalize u.decideLanes = t at effect pending frw mark lanes rest tickets
  exact completes_act (f := State.laneDeadline) (t := t) quiet.1 runs effect (tickets.trans (tickets0.trans quiet.2)) pending
    ⟨lanes, rest, mark, frw.trans stay.frw⟩

end Sys2Proof.Machine
end LaneDeadline

section EmptyHeadland
/-! SUPPORT. A headland with nothing to serve (R42, R56, R60): each of its items in turn leaves the schedule as it is. -/

namespace Sys2Proof.Machine

/-- What a headland may not touch, where nothing is served. -/
def headFields : List Field :=
  [R.FRW_STATE.STATE, R.FRW_STATE.HEADLAND, R.FRW_FURROW_NUM.FURROW_NUM, R.GLB_DEVPOS.ASSIGNED, R.GLB_MEMBER_STATE.STATE]

/-- Nothing is served, nothing is to be committed, and nobody comes or goes. -/
structure State.vacant (s : State) : Prop where
  srv : s.srv = { Srv.reset with short := s.srv.short }
  kv : s.kv = Kv.reset
  insts : s.cfg.instA = []
  prepared : s.cfg.prepared = none
  commits : s.cfg.deviceCommit = []
  declared : s.flt.declared = []
  rejoin : s.flt.rejoin = []
  alone : s.assigned = false
  member : s.isFenced = false
  open_ : s.que.tickets = []

/-- From `s` to `t` an item of the headland has been done, with nothing to do. -/
structure State.HeadStays (s t : State) : Prop where
  frw : t.frw = s.frw
  mem : t.mem = s.mem
  get : ∀ f ∈ headFields, t.get f = s.get f
  vacant : s.vacant → t.vacant

namespace State.HeadStays
variable {s t u : State}

theorem refl (s : State) : s.HeadStays s := ⟨rfl, rfl, fun _ _ => rfl, id⟩

theorem trans (h : s.HeadStays t) (k : t.HeadStays u) : s.HeadStays u :=
  ⟨k.frw.trans h.frw, k.mem.trans h.mem, fun f hf => (k.get f hf).trans (h.get f hf), fun v => k.vacant (h.vacant v)⟩

theorem of_eq (h : t = s) : s.HeadStays t := h ▸ refl s

theorem assigned (get : ∀ f ∈ headFields, t.get f = s.get f) : t.assigned = s.assigned := State.isSet_of_get (get R.GLB_DEVPOS.ASSIGNED (by decide))

theorem isFenced (get : ∀ f ∈ headFields, t.get f = s.get f) : t.isFenced = s.isFenced := by
  rw [State.isFenced, get R.GLB_MEMBER_STATE.STATE (by decide), State.isFenced]

/-- Where only registers that a headland may touch, and what it does not look at, differ. -/
theorem of_parts (get : ∀ f ∈ headFields, t.get f = s.get f) (frw : t.frw = s.frw) (mem : t.mem = s.mem) (srv : t.srv = s.srv)
    (kv : t.kv = s.kv) (insts : t.cfg.instA = s.cfg.instA) (prepared : t.cfg.prepared = s.cfg.prepared)
    (commits : t.cfg.deviceCommit = s.cfg.deviceCommit) (declared : t.flt.declared = s.flt.declared)
    (rejoin : s.flt.rejoin = [] → t.flt.rejoin = []) (tickets : t.que.tickets = s.que.tickets) : s.HeadStays t where
  frw := frw
  mem := mem
  get := get
  vacant v := {
    srv := by rw [srv]; exact v.srv
    kv := kv.trans v.kv
    insts := insts.trans v.insts
    prepared := prepared.trans v.prepared
    commits := commits.trans v.commits
    declared := declared.trans v.declared
    rejoin := rejoin v.rejoin
    alone := (assigned get).trans v.alone
    member := (isFenced get).trans v.member
    open_ := tickets.trans v.open_ }

theorem put {f : Field} (s : State) (v : Nat) (h : ∀ g ∈ headFields, g.key ≠ f.key) : s.HeadStays (s.put f v) :=
  of_parts (fun g hg => State.get_put_other s v (h g hg)) rfl rfl rfl rfl rfl rfl rfl rfl id rfl

theorem putBit {f : Field} (s : State) (b : Bool) (h : ∀ g ∈ headFields, g.key ≠ f.key) : s.HeadStays (s.putBit f b) := put s _ h

theorem bump {f : Field} (s : State) (n : Nat) (h : ∀ g ∈ headFields, g.key ≠ f.key) : s.HeadStays (s.bump f n) := put s _ h

theorem of_onlySends (h : s.onlySends t) : s.HeadStays t :=
  of_parts (fun f _ => State.get_of_regs h.regs f) (congrArg State.frw h :) h.mem (congrArg State.srv h :) (congrArg State.kv h :)
    (congrArg (fun v : State => v.cfg.instA) h :) (congrArg (fun v : State => v.cfg.prepared) h :)
    (congrArg (fun v : State => v.cfg.deviceCommit) h :) (congrArg (fun v : State => v.flt.declared) h :)
    (fun e => (congrArg (fun v : State => v.flt.rejoin) h :).trans e) (congrArg (fun v : State => v.que.tickets) h :)

theorem of_raises (h : s.Raises t) : s.HeadStays t :=
  of_parts (fun _ hf => h.get fun _ hg => apart _ hf _ hg) h.frw h.mem h.srv (congrArg State.kv h.eq :)
    (congrArg Cfg.instA h.cfg) (congrArg Cfg.prepared h.cfg) (congrArg Cfg.deviceCommit h.cfg)
    (congrArg (fun v : State => v.flt.declared) h.eq :) (fun e => (congrArg (fun v : State => v.flt.rejoin) h.eq :).trans e)
    (congrArg Que.tickets h.que)
where
  apart : ∀ f ∈ headFields, ∀ g ∈ errorFields, f.key ≠ g.key := by decide

/-- A list of items, none of which has anything to do. -/
theorem foldl {α : Type} (l : List α) {f : State → α → State} (h : ∀ (t : State) x, t.vacant → HeadStays t (f t x)) (v : s.vacant) :
    s.HeadStays (l.foldl f s) :=
  List.foldlRecOn (motive := fun t => s.HeadStays t) _ _ (refl s) fun t k x _ => k.trans (h t x (k.vacant v))

end State.HeadStays

namespace State.vacant
variable {s : State}

theorem deferred (v : s.vacant) : s.srv.deferred = [] := (congrArg Srv.deferred v.srv :)
theorem lanes (v : s.vacant) : s.srv.lanes = [] := (congrArg Srv.lanes v.srv :)
theorem openLanes (v : s.vacant) : s.srv.openLanes = [] := (congrArg Srv.openLanes v.srv :)
theorem openSeqs (v : s.vacant) : s.openSeqs = [] := by
  rw [State.openSeqs, show s.srv.seqs = [] from (congrArg Srv.seqs v.srv :)]
  rfl
theorem isLead (v : s.vacant) : s.isLead = true := by
  rw [State.isLead, v.alone]
  rfl
theorem files (v : s.vacant) : s.kv.files = [] := (congrArg Kv.files v.kv :)
theorem pages (v : s.vacant) : s.kv.pages = [] := (congrArg Kv.pages v.kv :)
theorem copies (v : s.vacant) : s.kv.copies = [] := (congrArg Kv.copies v.kv :)
theorem adapters (v : s.vacant) : s.srv.adapters = [] := (congrArg Srv.adapters v.srv :)

/-! ### What the step that ended leaves to be done -/

/-- The power manager's own state is not what a headland looks at. -/
theorem pwrOnly (s : State) (p : Pwr) (c : Nat) : s.HeadStays { s with pwr := p, freeCtr := c } :=
  HeadStays.of_parts (fun _ _ => rfl) rfl rfl rfl rfl rfl rfl rfl rfl id rfl

theorem energyClass_apart (n k : Nat) : ∀ g ∈ headFields, g.key ≠ (R.PWR_ENERGY_CLASS.UJ n k).key := by
  intro g hg
  have low : ∀ g ∈ headFields, g.key < 0x3000 * 64 := by decide
  have := low g hg
  simp only [Field.key, R.PWR_ENERGY_CLASS.UJ] at this ⊢
  omega

theorem energyShared (v : s.vacant) (n e : Nat) (l : List LaneEntry) (none : Bool) : s.HeadStays (if none || l.isEmpty then s
    else l.foldl (fun (s : State) x =>
      let s := s.wrapAdd (R.PWR_ENERGY_CLASS.UJ n (x.cls - 1)) (e / l.length)
      { s with pwr := { s.pwr with tenants := Table.modify 0 x.tenant (· + e / l.length) s.pwr.tenants } }) s) := by
  split
  · exact .refl s
  · exact HeadStays.foldl _ (fun u x _ => (HeadStays.put u _ (energyClass_apart _ _)).trans (pwrOnly _ _ _)) v

theorem attributed (v : s.vacant) (fallow : Bool) : s.HeadStays (s.attribute fallow) := by
  refine HeadStays.foldl _ (fun t n w => ?_) v
  have noted := pwrOnly t { t.pwr with atHeadland := Table.set 0 n (t.get (R.PWR_ENERGY.UJ n)) t.pwr.atHeadland } t.freeCtr
  exact noted.trans (energyShared (noted.vacant w) _ _ _ _)

theorem resumeReplay (s : State) : s.onlySends s.resumeReplay := by
  refine List.foldlRecOn (motive := fun t : State => s.onlySends t) _ _ (State.onlySends.refl s) fun t h p _ => ?_
  dsimp only
  split
  · refine (h.trans ?_).trans (State.modLink_onlySends _ _ _)
    exact List.foldlRecOn (motive := fun u : State => t.onlySends u) _ _ (State.onlySends.refl t) fun u k x _ =>
      k.trans (State.emit_onlySends u _)
  · exact h

theorem usePhase (s : State) (k i p : Nat) : s.HeadStays (s.usePhase k i p) := by
  unfold State.usePhase
  split
  · exact .refl s
  · exact pwrOnly s _ s.freeCtr

theorem predictFurrow (v : s.vacant) (k : Nat) : s.HeadStays (s.predictFurrow k) := by
  unfold State.predictFurrow
  split
  · exact .refl s
  · dsimp only
    have used := HeadStays.foldl (s.phaseEntries k) (fun t (e : PlanEntry) _ => usePhase t k e.inst e.tag) v
    generalize (s.phaseEntries k).foldl _ s = t at used ⊢
    generalize decide (t.get R.FRW_SLACK.LAST_SLACK_NS < _) = short
    have shown := used.trans (HeadStays.putBit (f := R.PWR_STATUS.SLACK_SHORT) t short (by decide))
    generalize t.putBit R.PWR_STATUS.SLACK_SHORT short = u at shown ⊢
    exact shown.trans (pwrOnly u _ u.freeCtr)

/-! ### Work on sequences, lanes and files -/

theorem markCancelled (v : s.vacant) : s.markCancelled = s := by rw [State.markCancelled, v.deferred, List.foldl_nil]

theorem addCredits (v : s.vacant) : s.addCredits = s := by
  unfold State.addCredits
  split
  · rfl
  · have none : s.srv.tenants = [] := (congrArg Srv.tenants v.srv :)
    rw [none, List.map_nil]
    conv_rhs => rw [show s = { s with srv := { s.srv with tenants := s.srv.tenants } } from rfl, none]

theorem countBound (s : State) (th : Nat) : s.HeadStays (s.countBound th) := by
  unfold State.countBound
  split
  · exact HeadStays.bump s _ (by decide)
  · exact .refl s

theorem drainAll (v : s.vacant) : s.drainAll = s := by rw [State.drainAll, v.openSeqs, List.foldl_nil]

theorem endPhases (v : s.vacant) : s.HeadStays s.endPhases := by
  refine HeadStays.foldl _ (fun t i _ => ?_) v
  split
  · exact .refl t
  · obtain ⟨p, c, ended⟩ := t.endOccur_only i
    rw [ended]
    exact pwrOnly t p c

theorem tokenItem (v : s.vacant) (th : Nat) : s.tokenItem th = s := by
  have insts : s.steppedInsts = [] := by rw [State.steppedInsts, v.lanes]; rfl
  have none : ({ s with srv := { s.srv with openLanes := deliveryOrder [] } } : State) = s := by
    conv_rhs => rw [show s = { s with srv := { s.srv with openLanes := s.srv.openLanes } } from rfl, v.openLanes]
    rfl
  rw [State.tokenItem, insts]
  simp only [List.foldl_nil, v.isLead, Bool.not_true, Bool.false_eq_true, if_false, List.flatMap_nil]
  rw [none, State.settleOpen, v.openLanes, List.foldl_nil]

theorem noteHeld (v : s.vacant) : s.noteHeld = s := by
  rw [State.noteHeld, v.openSeqs]
  simp

theorem retireItem (v : s.vacant) (th : Nat) (ended : Bool) : s.retireItem th ended = s := by
  have damaged : s.retireDamaged th = s := by
    rw [State.retireDamaged, show s.srv.damaged = [] from (congrArg Srv.damaged v.srv :), List.foldl_nil]
  have expired (l : List Nat) : s.expire th l = s := by rw [State.expire, v.openSeqs, List.foldl_nil]
  rw [State.retireItem]
  simp only [damaged, expired, v.openSeqs, List.foldl_nil, v.insts, List.map_nil]

theorem applyTold (v : s.vacant) : s.applyTold = s := by
  have told : s.srv.told = [] := (congrArg Srv.told v.srv :)
  rw [State.applyTold, told, List.foldl_nil]
  conv_rhs => rw [show s = { s with srv := { s.srv with told := s.srv.told } } from rfl, told]

theorem applyEndings (v : s.vacant) (th : Nat) : s.applyEndings th = s := by rw [State.applyEndings, v.deferred, List.foldl_nil]

theorem syncFiles (v : s.vacant) : s.syncFiles = s := by rw [State.syncFiles, v.openSeqs, List.foldl_nil]

theorem flushItem (v : s.vacant) : s.flushItem = s := by rw [State.flushItem, v.files, List.foldl_nil]

theorem syncSeqs (v : s.vacant) : s.syncSeqs = s := by rw [State.syncSeqs, v.openSeqs, List.foldl_nil]

theorem deliverWork (v : s.vacant) (th : Nat) (ended : Bool) : s.HeadStays (s.deliverWork th ended) := by
  have bound := countBound s th
  rw [State.deliverWork, v.markCancelled, if_pos v.isLead, v.addCredits, (bound.vacant v).drainAll]
  have w := bound.vacant v
  generalize s.countBound th = t at bound w ⊢
  have phases : t.HeadStays (if ended then t.endPhases.tokenItem th else t) := by
    cases ended
    · exact .refl t
    · rw [if_pos rfl, (w.endPhases.vacant w).tokenItem]
      exact w.endPhases
  have x := phases.vacant w
  generalize (if ended then t.endPhases.tokenItem th else t) = u at phases x ⊢
  rw [if_pos x.isLead, x.noteHeld, x.retireItem, x.applyTold, x.applyEndings, x.syncFiles, x.flushItem, x.syncSeqs]
  exact bound.trans phases

end State.vacant
end Sys2Proof.Machine
end EmptyHeadland

section HeadlandItems
/-! SUPPORT. The later items of a headland with nothing to serve, and the headland as a whole (R42, R56, R60). -/

namespace Sys2Proof.Machine

namespace State.vacant
variable {s : State}

theorem digestItem (v : s.vacant) : s.HeadStays s.digestItem := by
  unfold State.digestItem
  dsimp only
  generalize hd : (reference s.groupPairs != (s.get R.CFG_STATUS.ACTIVE_EPOCH, s.get R.CFG_DIGEST.ACTIVE_DIGEST)) = differs
  generalize List.foldl (fun (t : Table Nat) d => Table.insert d (Table.get 0 d s.cfg.divergent + 1) t) [] _ = counts
  have shown : s.HeadStays { (s.putBit R.CFG_STATUS.DIVERGENT differs) with cfg := { s.cfg with divergent := counts } } :=
    (HeadStays.put (f := R.CFG_STATUS.DIVERGENT) s _ (by decide)).trans
      (HeadStays.of_parts (fun _ _ => rfl) rfl rfl rfl rfl rfl rfl rfl rfl id rfl)
  generalize ({ (s.putBit R.CFG_STATUS.DIVERGENT differs) with cfg := { s.cfg with divergent := counts } } : State) = t at shown
  split
  · exact shown
  · have bumped := shown.trans (HeadStays.bump (f := R.CFG_COUNTS.DIVERGENCES) t 1 (by decide))
    split
    · exact bumped.trans (HeadStays.of_raises (State.Raises.raise _ _))
    · have lead : (t.bump R.CFG_COUNTS.DIVERGENCES).isLead = true := (bumped.vacant v).isLead
      rw [lead, Bool.true_or, if_pos rfl]
      exact bumped

theorem resetItem (v : s.vacant) (th : Nat) : s.resetItem th = s := by
  rw [State.resetItem, v.deferred]
  rfl

theorem fatalItem (v : s.vacant) (th : Nat) : s.HeadStays (s.fatalItem th) := by
  unfold State.fatalItem
  dsimp only
  generalize s.flt.fatalParts.foldl (fun v n => setBit v n false) (s.get R.GLB_READY.PART_OK) = ok
  have cleared : s.HeadStays { (s.put R.GLB_READY.PART_OK ok) with flt := { s.flt with fatalParts := [], fatalFar := [] } } :=
    (HeadStays.put (f := R.GLB_READY.PART_OK) s _ (by decide)).trans
      (HeadStays.of_parts (fun _ _ => rfl) rfl rfl rfl rfl rfl rfl rfl rfl id rfl)
  have nobody (t : State) (p : Inst → Bool) (h : t.cfg.instA = []) : t.suspendWhere th p = t := by
    rw [State.suspendWhere, h]
    rfl
  rw [nobody _ _ (cleared.vacant v).insts, ite_self]
  exact cleared

theorem membershipItem (v : s.vacant) (th : Nat) : s.membershipItem th = s := by
  rw [State.membershipItem, v.declared]
  rfl

theorem joinItem (v : s.vacant) : s.HeadStays s.joinItem := by
  rw [State.joinItem, v.rejoin, List.foldl_nil]
  exact HeadStays.of_parts (fun _ _ => rfl) rfl rfl rfl rfl rfl rfl rfl rfl (fun _ => rfl) rfl

theorem memberWork (v : s.vacant) (th : Nat) : s.HeadStays (s.memberWork th) := by
  have fatal := v.fatalItem th
  have w := fatal.vacant v
  rw [State.memberWork, v.resetItem]
  generalize s.fatalItem th = t at fatal w
  rw [w.membershipItem]
  exact fatal.trans w.joinItem

theorem deferCommit (v : s.vacant) : s.deferCommit = s := by rw [State.deferCommit, v.prepared]

theorem commitItem (v : s.vacant) (th : Nat) : s.commitItem th = s := by
  rw [State.commitItem, v.prepared]
  simp only [v.commits, List.foldl_nil, Bool.false_eq_true, if_false]
  conv_rhs => rw [show s = { s with cfg := { s.cfg with deviceCommit := s.cfg.deviceCommit } } from rfl, v.commits]

theorem switchCopies (v : s.vacant) : s.switchCopies = s := by
  rw [State.switchCopies, v.copies]
  rfl

theorem switchVersions (v : s.vacant) : s.switchVersions = s := by
  rw [State.switchVersions, v.adapters]
  rfl

theorem freeDrained (v : s.vacant) : s.freeDrained = s := by
  rw [State.freeDrained, v.adapters]
  simp

theorem adapterItem (v : s.vacant) : s.adapterItem = s := by
  rw [State.adapterItem, if_neg (by rw [v.isLead]; decide), v.open_]
  simp only [List.foldl_nil]
  rw [v.switchVersions, v.freeDrained]

theorem openInsts (v : s.vacant) : s.openInsts = [] := by
  rw [State.openInsts, v.openLanes]
  rfl

theorem noFar (v : s.vacant) : s.noFar = s := by
  have none : s.srv.farWait = [] := (congrArg Srv.farWait v.srv :)
  rw [State.noFar]
  conv_rhs => rw [show s = { s with srv := { s.srv with farWait := s.srv.farWait } } from rfl, none]

theorem admission (v : s.vacant) (th : Nat) : s.admission th = s := by
  have applied : s.applyCommands th = s := by rw [State.applyCommands, v.deferred, List.foldl_nil]
  rw [State.admission, if_neg (by rw [v.isLead]; decide), applied]
  simp only [v.openInsts, v.insts]
  exact v.noFar

theorem spills (v : s.vacant) : s.spills = s := by
  have nothing (ok : KvPage → Bool) : s.spillVictim ok = none := by rw [State.spillVictim, v.pages]; rfl
  have spilled : s.spillItem = s := by
    rw [State.spillItem]
    simp only [v.pages, List.map_nil]
    rw [show ([] : List Nat).eraseDups = [] from rfl, List.filter_nil, List.foldl_nil]
    exact List.foldl_fixed' (fun _ => by rw [nothing]) _
  have soon : s.soonSeqs = [] := by rw [State.soonSeqs, v.openSeqs]; rfl
  rw [State.spills, if_pos v.isLead, soon, spilled]
  rfl

theorem noteShort (v : s.vacant) : s.HeadStays s.noteShort := by
  unfold State.noteShort
  split
  · exact .refl s
  · have counted := HeadStays.bump (f := R.FRW_EVENTS1.HEADLAND_SHORT) s 1 (by decide)
    have reset : ({ s.srv with short := true } : Srv) = { Srv.reset with short := true } :=
      congrArg (fun x : Srv => { x with short := true }) v.srv
    exact { counted with vacant := fun w => { counted.vacant w with srv := reset } }

theorem shortHeadland (v : s.vacant) : s.HeadStays s.shortHeadland := by
  have short := v.noteShort
  have w := short.vacant v
  rw [State.shortHeadland]
  generalize s.noteShort = t at short w
  dsimp only
  rw [if_neg (by rw [w.isLead]; decide), w.openInsts]
  have none : ({ t with srv := { t.srv with farWait := [] } } : State) = t := w.noFar
  rw [none, w.lanes]
  exact short

theorem countSeqs (s : State) : s.HeadStays s.countSeqs :=
  (((HeadStays.put _ _ (by decide)).trans (HeadStays.put _ _ (by decide))).trans (HeadStays.put _ _ (by decide))).trans
    (HeadStays.put _ _ (by decide))

theorem countTenant (s : State) : s.HeadStays s.countTenant := by
  unfold State.countTenant
  dsimp only
  refine HeadStays.trans ?_ (HeadStays.putBit (f := R.QUE_TENANT_STATE.PRESENT) _ _ (by decide))
  refine HeadStays.trans ?_ (HeadStays.put (f := R.QUE_TENANT_STATE.DAWN_BOUND) _ _ (by decide))
  refine HeadStays.trans ?_ (HeadStays.put (f := R.QUE_TENANT_STATE.DEFICIT_OR_CREDIT) _ _ (by decide))
  refine HeadStays.trans ?_ (HeadStays.put (f := R.QUE_TENANT_STATE.RUNNABLE) _ _ (by decide))
  exact HeadStays.put (f := R.QUE_TENANT_STATE.OPEN_SEQS) _ _ (by decide)

/-- A change of the schedule's own state alone leaves a headland without work. -/
theorem frwOnly (v : s.vacant) (f : Frw) : ({ s with frw := f } : State).vacant := { v with }

theorem put (v : s.vacant) {f : Field} (x : Nat) (assigned : R.GLB_DEVPOS.ASSIGNED.key ≠ f.key) (member : R.GLB_MEMBER_STATE.STATE.key ≠ f.key) :
    (s.put f x).vacant :=
  { v with
    alone := (State.isSet_put_other s x assigned).trans v.alone
    member := by
      rw [State.isFenced, State.get_put_other s x member]
      exact v.member }

end State.vacant

/-- The step's end is taken note of. -/
def State.stepNoted (s : State) (ended : Bool) : State :=
  { s with frw := { s.frw with stepOpen := s.frw.stepOpen && !ended, doneAt := none } }

/-- The copies and the lanes of a headland with nothing to serve. -/
theorem State.vacant.lastWork {s : State} (v : s.vacant) (th : Nat) (fallow stopping fits : Bool) :
    s.HeadStays (if stopping || fallow then s.switchCopies
      else if fits then ((s.adapterItem).admission th).switchCopies.spills
      else s.switchCopies.shortHeadland) := by
  split
  · exact .of_eq v.switchCopies
  · split
    · refine .of_eq ?_
      rw [v.adapterItem, v.admission, v.switchCopies, v.spills]
    · rw [v.switchCopies]
      exact v.shortHeadland

theorem State.vacant.laterWork {s : State} (v : s.vacant) (th : Nat) (ended fallow stopping fits : Bool) :
    ∃ u, s.HeadStays u ∧ (u.stepNoted ended).HeadStays (s.laterWork th ended fallow stopping fits) := by
  have members := v.memberWork th
  have w := members.vacant v
  rw [State.laterWork]
  generalize s.memberWork th = u at members w
  have commits : (if fallow then u.deferCommit else u.commitItem th) = u := by rw [w.deferCommit, w.commitItem, ite_self]
  refine ⟨u, members, ?_⟩
  dsimp only
  rw [commits]
  have noted : (u.stepNoted ended).vacant := w.frwOnly _
  have last := noted.lastWork th fallow stopping fits
  refine (last.trans (State.vacant.countSeqs _)).trans (State.vacant.countTenant _)

end Sys2Proof.Machine
end HeadlandItems

section Headlands
/-! SUPPORT. A headland with nothing to serve begins (R42, R44, R56). -/

namespace Sys2Proof.Machine

/-- Whether a stop is due in the headland that begins, moves past a furrow that was fallow, and takes place; and whether the
headland ends a fallow furrow. -/
def State.stopDue (s : State) : Bool := match s.frw.stopAt with
  | some k => decide (k ≤ s.furrow)
  | none => false
def State.stopMoves (s : State) : Bool := s.stopDue && s.isSet R.FRW_STATE.LATE_GROUP && !s.frw.stopMoved
def State.stopsNow (s : State) : Bool := s.stopDue && !s.stopMoves
def State.endsFallow (s : State) : Bool := s.isSet R.FRW_STATE.LATE_GROUP && !s.stopsNow

/-- The stop that moves past a furrow that was fallow. -/
def State.headMoves (s : State) (moves : Bool) : State :=
  if moves then { s with frw := { s.frw with stopAt := some (s.furrow + 1), stopMoved := true } } else s

/-- The stop that takes place in this headland. -/
def State.headStops (s : State) (stopping : Bool) : State := if stopping then s.put R.FRW_STATE.STATE frwStopping else s

/-- The levels of the furrow to come, which has none where no step runs in it. -/
def State.headPower (s : State) (none : Bool) : State :=
  if none then { s with pwr := { s.pwr with levels := [], tileLevels := [] } } else s.predictFurrow s.frw.nextTemplate

/-- What the last headland left undone is dropped; frames put off go out again. -/
def State.headCleared (s : State) : State :=
  { s.resumeReplay with srv := { s.srv with
      closing := [], built := [], laneWait := [], farWait := [], waitCmds := [], ringFull := false, short := false } }

/-- The headland shown, and the stop that moves or takes place. -/
def State.headShown (s : State) : State :=
  (((s.attribute (s.frwState == frwFallow)).putBit R.FRW_STATE.HEADLAND true).headMoves s.stopMoves).headStops s.stopsNow

/-- The headland before its later items. -/
def State.headFirst (s : State) : State :=
  ((((s.headShown).headPower (s.endsFallow || s.stopsNow)).headCleared).deliverWork s.headlandTime s.frw.doneAt.isSome).digestItem

theorem State.headland_eq {s : State} (fits : Bool) (inside : s.inSchedule = true) (head : s.isSet R.FRW_STATE.HEADLAND = false)
    (led : s.frw.leadSilent = false) (member : s.headFirst.isFenced = false) :
    s.headland fits = s.headFirst.laterWork s.headlandTime s.frw.doneAt.isSome s.endsFallow s.stopsNow fits := by
  have unfolded : s.headland fits = if s.headFirst.isFenced then s.headFirst
      else s.headFirst.laterWork s.headlandTime s.frw.doneAt.isSome s.endsFallow s.stopsNow fits := by
    rw [State.headland, if_neg (by rw [inside, head]; decide), if_neg (by rw [led]; decide)]
    rfl
  rw [unfolded, if_neg (by rw [member]; decide)]

/-- What is seen of the headland that begins, and of its stop. -/
structure State.HeadBegun (s t : State) : Prop where
  vacant : t.vacant
  head : t.isSet R.FRW_STATE.HEADLAND = true
  furrow : t.furrow = s.furrow
  state : t.frwState = if s.stopsNow then frwStopping else s.frwState
  frw : t.frw = if s.stopMoves then { s.frw with stopAt := some (s.furrow + 1), stopMoved := true } else s.frw
  mem : t.mem = s.mem

theorem State.HeadBegun.stays {s t u : State} (h : s.HeadBegun t) (k : t.HeadStays u) : s.HeadBegun u where
  vacant := k.vacant h.vacant
  head := (State.isSet_of_get (k.get R.FRW_STATE.HEADLAND (by decide))).trans h.head
  furrow := (k.get R.FRW_FURROW_NUM.FURROW_NUM (by decide)).trans h.furrow
  state := (k.get R.FRW_STATE.STATE (by decide)).trans h.state
  frw := k.frw.trans h.frw
  mem := k.mem.trans h.mem

theorem State.headShown_begun {s : State} (v : s.vacant) : s.HeadBegun s.headShown := by
  have first := v.attributed (s.frwState == frwFallow)
  have w := first.vacant v
  rw [State.headShown]
  generalize s.attribute (s.frwState == frwFallow) = a at first w
  have furrow : a.furrow = s.furrow := first.get R.FRW_FURROW_NUM.FURROW_NUM (by decide)
  have shown : (a.putBit R.FRW_STATE.HEADLAND true).isSet R.FRW_STATE.HEADLAND = true := State.isSet_putBit Nat.one_pos true
  have furrow1 : (a.putBit R.FRW_STATE.HEADLAND true).furrow = s.furrow := (State.get_put_other a _ (by decide)).trans furrow
  have state1 : (a.putBit R.FRW_STATE.HEADLAND true).frwState = s.frwState :=
    (State.get_put_other a _ (by decide)).trans (first.get R.FRW_STATE.STATE (by decide))
  have w1 : (a.putBit R.FRW_STATE.HEADLAND true).vacant := w.put _ (by decide) (by decide)
  have frw1 : (a.putBit R.FRW_STATE.HEADLAND true).frw = s.frw := first.frw
  have mem1 : (a.putBit R.FRW_STATE.HEADLAND true).mem = s.mem := first.mem
  generalize a.putBit R.FRW_STATE.HEADLAND true = b at shown furrow1 state1 w1 frw1 mem1
  have moved : (b.headMoves s.stopMoves).vacant ∧ (b.headMoves s.stopMoves).regs = b.regs ∧ (b.headMoves s.stopMoves).mem = b.mem ∧
      (b.headMoves s.stopMoves).frw = if s.stopMoves then { s.frw with stopAt := some (s.furrow + 1), stopMoved := true } else s.frw := by
    cases s.stopMoves
    · exact ⟨w1, rfl, rfl, frw1⟩
    · refine ⟨w1.frwOnly _, rfl, rfl, ?_⟩
      rw [State.headMoves, if_pos rfl, if_pos rfl, ← furrow1, ← frw1]
  obtain ⟨w2, regs2, mem2, frw2⟩ := moved
  generalize b.headMoves s.stopMoves = c at w2 regs2 mem2 frw2
  have same (f : Field) : c.get f = b.get f := State.get_of_regs regs2 f
  cases now : s.stopsNow
  · have state : c.frwState = if s.stopsNow then frwStopping else s.frwState := by
      rw [now]
      exact (same _).trans state1
    exact ⟨w2, (State.isSet_of_get (same _)).trans shown, (same _).trans furrow1, state, frw2, mem2.trans mem1⟩
  · have state : (c.headStops true).frwState = if s.stopsNow then frwStopping else s.frwState := by
      rw [now]
      exact State.get_put_fits c R.FRW_STATE.STATE (by decide)
    refine ⟨w2.put _ (by decide) (by decide), ?_, ?_, state, frw2, mem2.trans mem1⟩
    · exact (State.isSet_put_other c _ (by decide)).trans ((State.isSet_of_get (same _)).trans shown)
    · exact (State.get_put_other c _ (by decide)).trans ((same _).trans furrow1)

theorem State.headPower_stays {s : State} (v : s.vacant) (none : Bool) : s.HeadStays (s.headPower none) := by
  cases none
  · exact v.predictFurrow _
  · exact State.vacant.pwrOnly s _ s.freeCtr

theorem State.headCleared_stays (s : State) : s.HeadStays s.headCleared := by
  have replayed := State.HeadStays.of_onlySends (State.vacant.resumeReplay s)
  have sends := State.vacant.resumeReplay s
  have same : s.resumeReplay.srv = s.srv := sends.srv
  rw [State.headCleared]
  generalize s.resumeReplay = t at replayed same
  refine ⟨replayed.frw, replayed.mem, replayed.get, fun v => ?_⟩
  exact { replayed.vacant v with
    srv := congrArg (fun x : Srv => { x with
      closing := [], built := [], laneWait := [], farWait := [], waitCmds := [], ringFull := false, short := false }) v.srv }

theorem State.headFirst_begun {s : State} (v : s.vacant) : s.HeadBegun s.headFirst := by
  have shown := State.headShown_begun v
  rw [State.headFirst]
  generalize s.headShown = a at shown
  have power := shown.stays (State.headPower_stays shown.vacant (s.endsFallow || s.stopsNow))
  generalize a.headPower (s.endsFallow || s.stopsNow) = b at power
  have cleared := power.stays b.headCleared_stays
  generalize b.headCleared = c at cleared
  have delivered := cleared.stays (cleared.vacant.deliverWork s.headlandTime s.frw.doneAt.isSome)
  generalize c.deliverWork s.headlandTime s.frw.doneAt.isSome = d at delivered
  exact delivered.stays delivered.vacant.digestItem

theorem State.vacant_of_serves {s : State} (none_open : s.que.tickets = []) (h : s.servesNothing) : s.vacant := by
  obtain ⟨alone, member, srv, kv, insts, -, prepared, -, commits, declared, rejoin⟩ := h
  exact ⟨by rw [srv], kv, insts, prepared, commits, declared, rejoin, alone, member, none_open⟩

/-- A headland with nothing to serve: shown, its step's end noted, and its stop made or moved. -/
theorem completes_headland {s : State} (fits : Bool) (quiet : s.quiet) (inside : s.inSchedule = true)
    (head : s.isSet R.FRW_STATE.HEADLAND = false) (led : s.frw.leadSilent = false) (serves : s.servesNothing) :
    Completes (.headlandStart fits) s fun t => t.isSet R.FRW_STATE.HEADLAND = true ∧ t.furrow = s.furrow ∧
      t.frwState = (if s.stopsNow then frwStopping else s.frwState) ∧
      (s.stopMoves = true → t.frw.stopAt = some (s.furrow + 1) ∧ t.frw.stopMoved = true) ∧ t.frw.doneAt = none ∧ t.mem = s.mem := by
  have v := State.vacant_of_serves quiet.2 serves
  have runs : exec (.headlandStart fits) s = s.act fun s => s.headland fits := rfl
  have first := State.headFirst_begun v
  have effect := State.headland_eq fits inside head led first.vacant.member
  have pending := (State.headland_kept (fits := fits) (.refl s)).pending
  generalize s.headFirst = a at first effect
  obtain ⟨u, stays, later⟩ := first.vacant.laterWork s.headlandTime s.frw.doneAt.isSome s.endsFallow s.stopsNow fits
  have begun := first.stays stays
  have noted : (u.stepNoted s.frw.doneAt.isSome).vacant := begun.vacant.frwOnly _
  rw [effect] at pending
  generalize a.laterWork _ _ _ _ _ = t at effect later pending
  have open_ := (later.vacant noted).open_
  refine completes_act (f := fun s => s.headland fits) (t := t) quiet.1 runs effect open_ pending ?_
  refine ⟨(State.isSet_of_get (later.get R.FRW_STATE.HEADLAND (by decide))).trans begun.head,
    (later.get R.FRW_FURROW_NUM.FURROW_NUM (by decide)).trans begun.furrow, (later.get R.FRW_STATE.STATE (by decide)).trans begun.state,
    fun moves => ?_, (congrArg Frw.doneAt later.frw :), later.mem.trans begun.mem⟩
  have frw := begun.frw
  rw [if_pos moves] at frw
  rw [later.frw]
  exact ⟨(congrArg Frw.stopAt frw :), (congrArg Frw.stopMoved frw :)⟩

/-- Whether a stop noted for the headland of furrow `k` or earlier takes place or moves on. -/
theorem State.stops_due {s : State} {k : Nat} (stop : s.frw.stopAt = some k) (due : k ≤ s.furrow) :
    (s.isSet R.FRW_STATE.LATE_GROUP = false ∨ s.frw.stopMoved = true → s.stopsNow = true) ∧
      (s.isSet R.FRW_STATE.LATE_GROUP = true → s.frw.stopMoved = false → s.stopsNow = false ∧ s.stopMoves = true) := by
  have isDue : s.stopDue = true := by
    rw [State.stopDue, stop]
    exact decide_eq_true due
  constructor
  · intro h
    rw [State.stopsNow, State.stopMoves, isDue]
    rcases h with h | h <;> simp [h]
  · intro late fresh
    rw [State.stopsNow, State.stopMoves, isDue, late, fresh]
    exact ⟨rfl, rfl⟩

theorem State.stops_never {s : State} (none : s.frw.stopAt = none) : s.stopsNow = false := by
  rw [State.stopsNow, State.stopDue, none]
  rfl

end Sys2Proof.Machine

open Sys2Proof Sys2Proof.Machine

/-- Settles O33: the first furrow, the next and the fallow one begin from the same cleared registers; a headland with nothing to
serve is followed item by item; a stop's end and a lane table's are given by what each leaves. -/
theorem furrowStarts : Obligations.FurrowStarts := by
  unfold Obligations.FurrowStarts
  refine ⟨fun s quiet => ⟨?_, ?_, ?_, ?_, ?_, ?_⟩, ?_⟩
  · exact fun armed turned lockless start stop alone => completes_lockless quiet armed turned lockless start stop alone
  · intro armed turned locked noLanes
    obtain ⟨t, runs, body, answered⟩ := completes_firstFurrow quiet armed turned locked noLanes
    exact ⟨t, runs, body.state, body.furrow, body.start, body.template, body.self, body.group, body.next, body.step, answered,
      body.tiles, body.mem, body.out⟩
  · intro inside head noLanes
    cases late : s.isSet R.FRW_STATE.LATE_GROUP with
    | false =>
      obtain ⟨t, runs, body, noHead⟩ := completes_laterFurrow quiet inside head late noLanes
      exact ⟨t, runs, body.furrow, body.start, noHead, body.group, fun h => (Bool.false_ne_true h).elim,
        fun _ => ⟨body.state, body.fallow, body.next, body.template⟩, body.mem, body.out⟩
    | true =>
      obtain ⟨t, runs, furrow, start, noHead, group, state, next, fallow, template, mem, out⟩ :=
        completes_fallowFurrow quiet inside head late noLanes
      exact ⟨t, runs, furrow, start, noHead, group, fun _ => ⟨state, next, fallow, template⟩, fun h => (Bool.false_ne_true h.symm).elim,
        mem, fun _ => out⟩
  · intro fits inside head led serves
    obtain ⟨t, runs, shown, furrow, state, moved, done, mem⟩ := completes_headland fits quiet inside head led serves
    refine ⟨t, runs, shown, furrow, fun k stop due => ?_, fun never => ?_, done, mem⟩
    · obtain ⟨now, moves⟩ := State.stops_due stop due
      refine ⟨fun h => ?_, fun late fresh => ?_⟩
      · rw [state, now h, if_pos rfl]
      · obtain ⟨notNow, goes⟩ := moves late fresh
        rw [state, notNow, if_neg Bool.false_ne_true]
        exact ⟨rfl, moved goes⟩
    · rw [state, State.stops_never never, if_neg Bool.false_ne_true]
  · exact fun stopping noLanes alone => completes_stopEnds quiet stopping noLanes alone
  · exact fun i l inside head alone built none far noLanes cmds => completes_laneDeadline quiet inside head alone built none far noLanes cmds
  · exact fun s T i alive stopping tickets host waits noLanes alone =>
      completes_stopEnds_answered alive stopping tickets host waits noLanes alone

end Headlands

section ClusterActivation
/-! SUPPORT. A cluster-wide commit takes effect (R154, R43): what becomes active, and what stays. -/

namespace Sys2Proof.Machine

/-- From `s` to `t` a configuration has been settled: registers, levels, locks, staged sets and the plan may differ, nothing else. -/
def State.configures (s t : State) : Prop := t = { s with regs := t.regs, sec := t.sec, pwr := t.pwr, cfg := t.cfg, frw := t.frw }

namespace State.configures
variable {s t u : State}

theorem refl (s : State) : s.configures s := rfl

theorem trans (h : s.configures t) (k : t.configures u) : s.configures u := by
  rw [configures] at k ⊢
  refine k.trans ?_
  rw [h]

theorem mem (h : s.configures t) : t.mem = s.mem := (congrArg State.mem h :)
theorem que (h : s.configures t) : t.que = s.que := (congrArg State.que h :)
theorem pending (h : s.configures t) : t.pending = s.pending := (congrArg State.pending h :)
theorem flt (h : s.configures t) : t.flt = s.flt := (congrArg State.flt h :)
theorem srv (h : s.configures t) : t.srv = s.srv := (congrArg State.srv h :)
theorem stk (h : s.configures t) : t.stk = s.stk := (congrArg State.stk h :)

theorem put (s : State) (f : Field) (v : Nat) : s.configures (s.put f v) := rfl

theorem of_parts {r : Table Nat} {p : Pwr} (h : t = { s with regs := r, pwr := p }) : s.configures t := by
  subst h
  rfl

theorem settleLevels (s : State) : s.configures s.settleLevels := of_parts s.settleLevels_eq

theorem refreshCfg (s : State) : s.configures s.refreshCfg := of_parts (p := s.pwr) s.refreshCfg_onlyRegs

theorem lockSets (s : State) (a b : Bool) : s.configures (s.lockSets a b) :=
  trans (t := { s with cfg := { s.cfg with lockCluster := a, lockDevice := b } }) rfl (refreshCfg _)

theorem of_regsOnly (h : s.regsOnly t) : s.configures t := by
  have pwr : t.pwr = s.pwr := (congrArg State.pwr h :)
  have cfg : t.cfg = s.cfg := (congrArg State.cfg h :)
  rw [configures, pwr, cfg, h.frw]
  exact h

/-- Whether something is left to flush or to zero depends on neither. -/
theorem unsettled (h : s.configures t) (flush : t.cfg.granaryFlush = s.cfg.granaryFlush) : t.unsettled = s.unsettled := by
  have stack (n : Nat) : t.stack n = s.stack n := (congrArg (fun v : State => v.stack n) h :)
  rw [State.unsettled, flush, State.unsettled]
  simp only [stack]

end State.configures

theorem State.lockSets_cfg (s : State) (a b : Bool) : (s.lockSets a b).cfg = { s.cfg with lockCluster := a, lockDevice := b } :=
  State.refreshCfg_cfg _

theorem State.lockSets_frw (s : State) (a b : Bool) : (s.lockSets a b).frw = s.frw := State.refreshCfg_frw _

theorem State.lockSets_get (s : State) (a b : Bool) {f : Field} (h : ∀ g ∈ cfgFields, f.key ≠ g.key) : (s.lockSets a b).get f = s.get f :=
  State.refreshCfg_get _ h

/-- With no instance active or staged nothing leaves and nothing comes. -/
theorem State.commitInsts_none {s : State} (th : Nat) (active : s.cfg.instA = []) (staged : s.cfg.instS = []) :
    s.commitInsts th = s.refreshProt := by
  have gone : instList s.cfg.instA = [] := by rw [active]; rfl
  have new : instList s.cfg.instS = [] := by rw [staged]; rfl
  have same : ({ s with cfg := { s.cfg with instA := s.cfg.instS } } : State) = s := by rw [staged.trans active.symm]
  simp only [State.commitInsts, gone, new, List.filter_nil, List.foldl_nil]
  exact congrArg State.refreshProt same

/-- With no register staged the levels alone are settled. -/
theorem State.commitRegs_none {s : State} (which : Nat → Bool) (staged : s.cfg.stagedRegs = []) : s.commitRegs which = s.settleLevels := by
  have same : ({ s with cfg := { s.cfg with stagedRegs := [] } } : State) = s := by
    conv_rhs => rw [show s = { s with cfg := { s.cfg with stagedRegs := s.cfg.stagedRegs } } from rfl, staged]
  rw [State.commitRegs, staged]
  simp only [List.filter_nil, List.foldl_nil]
  rw [staged, List.filter_nil, same]
  congr 1
  exact List.foldl_fixed' (fun p => by simp) _

/-- The registers in which a plan is shown. -/
def planFields : List Field := [R.FRW_STATE.STATE, R.FRW_TIMING.PERIOD_NS, R.FRW_TIMING.HEADLAND_NS, R.FRW_LATE.LATE_OFFSET_NS, R.FRW_LATE.CYCLE_LEN]

/-- From `s` to `t` the staged plan has become the active one. -/
structure State.PlanCommits (s t : State) : Prop where
  only : s.configures t
  cfg : t.cfg = s.cfg
  get : s.sameRegs t planFields
  plan : ∀ x, s.frw.staged = some x → t.frw.active = some x ∧ t.frw.staged = none ∧ (s.frwState = frwNoPlan → t.frwState = frwStopped)

theorem State.showPlan_configures (s : State) : s.configures s.showPlan :=
  ((State.configures.put s _ _).trans (State.configures.put _ _ _)).trans ((State.configures.put _ _ _).trans (State.configures.put _ _ _))

/-- The plan `p` in the place of the active one, before it is shown. -/
def State.planIn (s : State) (p : FurrowPlan) : State :=
  let timed := (s.inSchedule || s.frwState == frwStopping) && (p.period != s.period || p.headland != s.headlandLen)
  { (if s.frw.active == some p then s else { s with pwr := { s.pwr with phases := [] } }) with
    frw := { s.frw with
      active := some p, staged := none, nextTemplate := s.frw.nextTemplate % max 1 p.cycleLen
      t0 := if timed then s.furrowStart (s.furrow + 1) else s.frw.t0, k0 := if timed then s.furrow + 1 else s.frw.k0 } }

/-- A schedule that has its first plan is stopped. -/
def State.planStops (s : State) : State := if s.frwState == frwNoPlan then s.put R.FRW_STATE.STATE frwStopped else s

theorem State.commitPlan_eq {s : State} {p : FurrowPlan} (staged : s.frw.staged = some p) : s.commitPlan = ((s.planIn p).planStops).showPlan := by
  rw [State.commitPlan, staged]
  dsimp only
  rw [State.planStops, State.planIn]
  split <;> rfl

theorem State.planIn_only (s : State) (p : FurrowPlan) : s.configures (s.planIn p) ∧ (s.planIn p).cfg = s.cfg ∧ (s.planIn p).regs = s.regs := by
  unfold State.planIn
  split <;> exact ⟨rfl, rfl, rfl⟩

theorem State.planStops_only (s : State) : s.configures s.planStops ∧ s.planStops.cfg = s.cfg ∧ s.planStops.frw = s.frw ∧
    s.sameRegs s.planStops planFields ∧ (s.frwState = frwNoPlan → s.planStops.frwState = frwStopped) := by
  unfold State.planStops
  split
  next => exact ⟨.put s _ _, rfl, rfl, State.sameRegs_put (State.sameRegs_refl s _) (by decide) _, fun _ => State.get_put_fits s _ (by decide)⟩
  next h => exact ⟨.refl s, rfl, rfl, State.sameRegs_refl s _, fun e => absurd (beq_iff_eq.2 e) h⟩

theorem State.commitPlan_commits (s : State) : s.PlanCommits s.commitPlan := by
  cases staged : s.frw.staged with
  | none =>
    rw [State.commitPlan, staged]
    exact ⟨.refl s, rfl, fun _ _ => rfl, fun x h => by rw [staged] at h; cases h⟩
  | some p =>
    rw [State.commitPlan_eq staged]
    obtain ⟨only, cfg, regs⟩ := s.planIn_only p
    have plan : (s.planIn p).frw.active = some p ∧ (s.planIn p).frw.staged = none := ⟨rfl, rfl⟩
    generalize s.planIn p = a at only cfg regs plan
    obtain ⟨only1, cfg1, frw1, regs1, stops⟩ := a.planStops_only
    generalize a.planStops = b at only1 cfg1 frw1 regs1 stops
    have shown (f : Field) (h : ∀ g ∈ planFields.tail, f.key ≠ g.key) : b.showPlan.get f = b.get f := State.showPlan_get b h
    refine ⟨(only.trans only1).trans b.showPlan_configures, cfg1.trans cfg, fun f hf => ?_, fun x h => ?_⟩
    · exact (shown f fun g hg => hf g (List.mem_of_mem_tail hg)).trans ((regs1 f hf).trans (State.get_of_regs regs f))
    · cases staged.symm.trans h
      have kept : b.showPlan.frw = a.frw := frw1
      refine ⟨kept ▸ plan.1, kept ▸ plan.2, fun idle => ?_⟩
      exact (shown _ (by decide)).trans (stops ((State.get_of_regs regs _).trans idle))

end Sys2Proof.Machine
end ClusterActivation

section MarkCommits
/-! SUPPORT. A commit prepared and decided takes effect outside the schedule, with no instance and no register staged (R154). -/

namespace Sys2Proof.Machine

/-- From `s` to `t` the prepared configuration has become active under `epoch`. -/
structure State.Activates (s t : State) (epoch : Nat) : Prop where
  only : s.configures t
  cfg : t.cfg = { s.cfg with prepared := none }
  epoch : t.get R.CFG_STATUS.ACTIVE_EPOCH = epoch % 2 ^ R.CFG_STATUS.ACTIVE_EPOCH.width
  plan : ∀ x, s.frw.staged = some x → t.frw.active = some x ∧ t.frw.staged = none ∧ (s.frwState = frwNoPlan → t.frwState = frwStopped)
  assigned : t.assigned = s.assigned

/-- The configuration made active under `epoch`, and its digest. -/
def State.sealed (s : State) (epoch : Nat) : State :=
  (({ s with cfg := { s.cfg with prepared := none } }.put R.CFG_STATUS.ACTIVE_EPOCH epoch).digest).refreshCfg

theorem State.sealed_only (s : State) (epoch : Nat) : s.configures (s.sealed epoch) ∧ (s.sealed epoch).cfg = { s.cfg with prepared := none } ∧
    (s.sealed epoch).frw = s.frw ∧ (s.sealed epoch).get R.CFG_STATUS.ACTIVE_EPOCH = epoch % 2 ^ R.CFG_STATUS.ACTIVE_EPOCH.width ∧
    ∀ f : Field, (∀ g ∈ cfgFields, f.key ≠ g.key) → f.key ≠ R.CFG_STATUS.ACTIVE_EPOCH.key → f.key ≠ R.CFG_DIGEST.ACTIVE_DIGEST.key →
      (s.sealed epoch).get f = s.get f := by
  have base : s.configures ({ s with cfg := { s.cfg with prepared := none } }.put R.CFG_STATUS.ACTIVE_EPOCH epoch) := rfl
  have cfg : ({ s with cfg := { s.cfg with prepared := none } }.put R.CFG_STATUS.ACTIVE_EPOCH epoch).cfg = { s.cfg with prepared := none } := rfl
  have frw : ({ s with cfg := { s.cfg with prepared := none } }.put R.CFG_STATUS.ACTIVE_EPOCH epoch).frw = s.frw := rfl
  have shown := State.get_put_same { s with cfg := { s.cfg with prepared := none } } R.CFG_STATUS.ACTIVE_EPOCH epoch
  have other (f : Field) (h : f.key ≠ R.CFG_STATUS.ACTIVE_EPOCH.key) :
      ({ s with cfg := { s.cfg with prepared := none } }.put R.CFG_STATUS.ACTIVE_EPOCH epoch).get f = s.get f :=
    State.get_put_other _ _ h
  rw [State.sealed]
  generalize ({ s with cfg := { s.cfg with prepared := none } } : State).put R.CFG_STATUS.ACTIVE_EPOCH epoch = a at base cfg frw shown other
  rw [State.digest]
  generalize rd (sha384 a.digestBytes) 0 8 = v
  refine ⟨(base.trans (.put a _ _)).trans (.refreshCfg _), (State.refreshCfg_cfg _).trans cfg, (State.refreshCfg_frw _).trans frw, ?_,
    fun f low epochField digest => ?_⟩
  · exact (State.refreshCfg_get _ (by decide)).trans ((State.get_put_other a _ (by decide)).trans shown)
  · exact (State.refreshCfg_get _ low).trans ((State.get_put_other a _ digest).trans (other f epochField))

theorem State.activateCluster_activates {s : State} (epoch th : Nat) (active : s.cfg.instA = []) (insts : s.cfg.instS = [])
    (regs : s.cfg.stagedRegs = []) : s.Activates (s.activateCluster epoch th) epoch := by
  have prot := s.refreshProt_regsOnly
  have protGet (f : Field) (h : f.key ≠ R.SEC_PROT.PARTITIONS.key) := s.refreshProt_get h
  have unfolded : s.activateCluster epoch th = (((s.commitInsts th).commitRegs fun _ => true).commitPlan).sealed epoch := rfl
  rw [unfolded, State.commitInsts_none th active insts]
  have same : s.refreshProt.cfg = s.cfg := (congrArg State.cfg prot :)
  have plan : s.refreshProt.frw = s.frw := prot.frw
  have first := State.configures.of_regsOnly prot
  generalize s.refreshProt = a at protGet same plan first
  rw [State.commitRegs_none _ (by rw [same]; exact regs)]
  have second := first.trans (.settleLevels a)
  have get1 (f : Field) (h : f.key ≠ R.SEC_PROT.PARTITIONS.key) (k : ∀ g ∈ levelFields, f.key ≠ g.key) : a.settleLevels.get f = s.get f :=
    (a.settleLevels_get k).trans (protGet f h)
  have cfg1 : a.settleLevels.cfg = s.cfg := (congrArg State.cfg a.settleLevels_eq :).trans same
  have frw1 : a.settleLevels.frw = s.frw := (congrArg State.frw a.settleLevels_eq :).trans plan
  generalize a.settleLevels = b at second get1 cfg1 frw1
  have commits := b.commitPlan_commits
  generalize b.commitPlan = c at commits
  obtain ⟨only, cfg, frw, shown, get⟩ := c.sealed_only epoch
  generalize c.sealed epoch = t at only cfg frw shown get
  refine ⟨(second.trans commits.only).trans only, by rw [cfg, commits.cfg, cfg1], shown, fun x h => ?_, ?_⟩
  · obtain ⟨now, none, stops⟩ := commits.plan x (frw1 ▸ h)
    refine ⟨by rw [frw]; exact now, by rw [frw]; exact none, fun idle => ?_⟩
    have state : b.frwState = s.frwState := get1 _ (by decide) (by decide)
    exact (get R.FRW_STATE.STATE (by decide) (by decide) (by decide)).trans (stops (state.trans idle))
  · refine State.isSet_of_get ?_
    exact (get _ (by decide) (by decide) (by decide)).trans ((commits.get _ (by decide)).trans (get1 _ (by decide) (by decide)))

end Sys2Proof.Machine
end MarkCommits

section LocalMillisecond
/-! SUPPORT. The local millisecond at which a commit outside the schedule takes effect (R154). -/

namespace Sys2Proof.Machine

/-- The work on members, where none comes, goes or has failed: partitions are shown as they are. -/
theorem State.memberWork_still {s : State} (th : Nat) (deferred : s.srv.deferred = []) (insts : s.cfg.instA = [])
    (declared : s.flt.declared = []) (rejoin : s.flt.rejoin = []) :
    s.memberWork th = { s with regs := (s.memberWork th).regs, flt := (s.memberWork th).flt } ∧
      s.sameRegs (s.memberWork th) [R.GLB_READY.PART_OK] := by
  have reset : s.resetItem th = s := by rw [State.resetItem, deferred]; rfl
  have nobody (t : State) (p : Inst → Bool) (h : t.cfg.instA = []) : t.suspendWhere th p = t := by
    rw [State.suspendWhere, h]
    rfl
  have fatal : s.fatalItem th = { s with regs := (s.fatalItem th).regs, flt := (s.fatalItem th).flt } ∧
      s.sameRegs (s.fatalItem th) [R.GLB_READY.PART_OK] ∧ (s.fatalItem th).flt.declared = [] ∧ (s.fatalItem th).flt.rejoin = [] := by
    unfold State.fatalItem
    dsimp only
    generalize s.flt.fatalParts.foldl (fun v n => setBit v n false) (s.get R.GLB_READY.PART_OK) = ok
    have cleared : ({ (s.put R.GLB_READY.PART_OK ok) with flt := { s.flt with fatalParts := [], fatalFar := [] } } : State).cfg.instA = [] := insts
    rw [nobody _ _ cleared, ite_self]
    exact ⟨rfl, State.sameRegs_put (State.sameRegs_refl s _) (List.mem_singleton.2 rfl) _, declared, rejoin⟩
  rw [State.memberWork, reset]
  obtain ⟨only, regs, declared1, rejoin1⟩ := fatal
  generalize s.fatalItem th = a at only regs declared1 rejoin1
  have still : a.membershipItem th = a := by rw [State.membershipItem, declared1]; rfl
  have joined : a.joinItem = { a with flt := { a.flt with rejoin := [] } } := by rw [State.joinItem, rejoin1, List.foldl_nil]
  rw [still, joined]
  exact ⟨by rw [only], regs⟩

/-- The packet of a commit that has taken effect completes, and both sets are free. -/
theorem State.commitDone_only {s : State} {T : Ticket} (r0 r1 : Nat) (only : s.que.tickets = [T]) (fresh : T.awaiting = [])
    (op : T.packet.opcode = 0x03) : s.commitDone T.no r0 r1 =
      (s.lockSets (s.cfg.lockCluster && !T.packet.f4) false).finish T.no { status := .ok, result0 := r0, result1 := r1 } := by
  have locked : (s.lockSets (s.cfg.lockCluster && !T.packet.f4) false).que.tickets = [T] :=
    (congrArg Que.tickets (State.configures.lockSets s _ _).que).trans only
  rw [State.commitDone, State.ticket?_only only]
  dsimp only
  rw [op, if_pos (beq_self_eq_true _), State.reply, State.ticket?_only locked]
  dsimp only
  rw [fresh, List.any_nil, if_neg Bool.false_ne_true]

theorem State.commitPrepared_done {s : State} {T : Ticket} {e k : Nat} (th : Nat) (tickets : s.que.tickets = [T]) (fresh : T.awaiting = [])
    (op : T.packet.opcode = 0x03) (whole : T.packet.f4 = true) (prepared : s.cfg.prepared = some ⟨e, k, true⟩)
    (lead : s.cfg.lead = some ⟨T.no, e, k, [], [], true⟩) (regs : s.cfg.stagedRegs = []) (active : s.cfg.instA = [])
    (insts : s.cfg.instS = []) (settled : s.unsettled = false) :
    ∃ u a, s.commitPrepared th = u.finish T.no a ∧ s.configures u ∧ u.cfg = { s.cfg with prepared := none, lead := none, lockCluster := false, lockDevice := false } ∧
      u.get R.CFG_STATUS.ACTIVE_EPOCH = e % 2 ^ R.CFG_STATUS.ACTIVE_EPOCH.width ∧ u.assigned = s.assigned ∧
      ∀ x, s.frw.staged = some x → u.frw.active = some x ∧ u.frw.staged = none ∧ (s.frwState = frwNoPlan → u.frwState = frwStopped) := by
  have acts := State.activateCluster_activates e th active insts regs
  rw [State.commitPrepared, prepared]
  dsimp only
  generalize s.activateCluster e th = a at acts
  have leadA : a.cfg.lead = some ⟨T.no, e, k, [], [], true⟩ := by rw [acts.cfg]; exact lead
  rw [leadA]
  dsimp only
  have base : s.configures { a with cfg := { a.cfg with lead := none } } := acts.only.trans rfl
  have cfg : ({ a with cfg := { a.cfg with lead := none } } : State).cfg = { s.cfg with prepared := none, lead := none } := by
    dsimp only
    rw [acts.cfg]
  have epoch : ({ a with cfg := { a.cfg with lead := none } } : State).get R.CFG_STATUS.ACTIVE_EPOCH = _ := acts.epoch
  have state : ({ a with cfg := { a.cfg with lead := none } } : State).frwState = a.frwState := rfl
  have frw : ({ a with cfg := { a.cfg with lead := none } } : State).frw = a.frw := rfl
  have assigned : ({ a with cfg := { a.cfg with lead := none } } : State).assigned = s.assigned := acts.assigned
  generalize ({ a with cfg := { a.cfg with lead := none } } : State) = b at base cfg epoch state frw assigned
  have ready : b.unsettled = false := (base.unsettled (by rw [cfg])).trans settled
  rw [State.finishSettled, ready, if_neg Bool.false_ne_true, State.commitDone_only _ _ ((congrArg Que.tickets base.que).trans tickets) fresh op,
    whole, Bool.not_true, Bool.and_false]
  refine ⟨_, _, rfl, base.trans (.lockSets b _ _), by rw [State.lockSets_cfg, cfg], (State.lockSets_get b _ _ (by decide)).trans epoch,
    (State.isSet_of_get (State.lockSets_get b _ _ (by decide))).trans assigned, fun x h => ?_⟩
  obtain ⟨now, none, stops⟩ := acts.plan x h
  refine ⟨by rw [State.lockSets_frw, frw]; exact now, by rw [State.lockSets_frw, frw]; exact none, fun idle => ?_⟩
  exact (State.lockSets_get b _ _ (by decide)).trans (state.trans (stops idle))

end Sys2Proof.Machine
end LocalMillisecond

section LocalCommit
/-! SUPPORT. A local millisecond as a whole: the decided commit, its packet, and the counts that follow (R154). -/

namespace Sys2Proof.Machine

/-- The registers that count sequences and show a tenant. -/
def seqCountFields : List Field := [R.QUE_SEQ_COUNT.DAWN_ADMITTED, R.QUE_SEQ_COUNT.NOON_RUNNABLE, R.QUE_SEQ_COUNT.DUSK_RUNNABLE,
  R.QUE_SEQ_COUNT.INGESTING, R.QUE_TENANT_STATE.OPEN_SEQS, R.QUE_TENANT_STATE.RUNNABLE, R.QUE_TENANT_STATE.DEFICIT_OR_CREDIT,
  R.QUE_TENANT_STATE.DAWN_BOUND, R.QUE_TENANT_STATE.PRESENT]

theorem State.countSeqs_only (s : State) : s.onlyRegs s.countSeqs seqCountFields :=
  ((((State.onlyRegs.refl s seqCountFields).put (by decide) _).put (by decide) _).put (by decide) _).put (by decide) _

theorem State.countTenant_only (s : State) : s.onlyRegs s.countTenant seqCountFields :=
  (((((State.onlyRegs.refl s seqCountFields).put (by decide) _).put (by decide) _).put (by decide) _).put (by decide) _).put (by decide) _

theorem State.onlyRegs.trans {s t u : State} {l : List Field} (h : s.onlyRegs t l) (k : t.onlyRegs u l) : s.onlyRegs u l :=
  ⟨by rw [k.1, h.1], fun f hf => (k.2 f hf).trans (h.2 f hf)⟩

theorem State.counts_only (s : State) : s.onlyRegs s.countSeqs.countTenant seqCountFields := s.countSeqs_only.trans (State.countTenant_only _)

/-- No slot closed in an earlier furrow is kept from use. -/
def State.slotsFree (s : State) : State := { s with srv := { s.srv with closing := [] } }

theorem State.markWork_eq {s : State} (th : Nat) (outside : s.inSchedule = false) : s.markWork th =
    (if ((s.slotsFree.memberWork th).commitPrepared th).isLead then ((s.slotsFree.memberWork th).commitPrepared th).applyCommands th
      else ((s.slotsFree.memberWork th).commitPrepared th).applyTold).countSeqs.countTenant := by
  rw [State.markWork, if_neg (by rw [outside]; decide), State.slotsFree]

theorem completes_localCommit {s : State} {T : Ticket} {r e k : Nat} (alone : s.alone) (alive : s.alive = true) (lockless : s.lockless = true)
    (outside : s.inSchedule = false) (tickets : s.que.tickets = [T]) (host : T.origin = .host r) (fresh : T.awaiting = [])
    (op : T.packet.opcode = 0x03) (whole : T.packet.f4 = true) (prepared : s.cfg.prepared = some ⟨e, k, true⟩)
    (lead : s.cfg.lead = some ⟨T.no, e, k, [], [], true⟩) (regs : s.cfg.stagedRegs = []) (active : s.cfg.instA = [])
    (insts : s.cfg.instS = []) (settled : s.unsettled = false) (deferred : s.srv.deferred = []) (declared : s.flt.declared = [])
    (rejoin : s.flt.rejoin = []) : Completes .localMillisecond s fun t =>
        t.get R.CFG_STATUS.ACTIVE_EPOCH = e % 2 ^ R.CFG_STATUS.ACTIVE_EPOCH.width ∧ t.cfg.prepared = none ∧ t.cfg.lead = none ∧
          t.cfg.lockCluster = false ∧ t.cfg.lockDevice = false ∧
          (∀ x, s.frw.staged = some x → t.frw.active = some x ∧ t.frw.staged = none ∧ (s.frwState = frwNoPlan → t.frwState = frwStopped)) ∧
          t.que.tickets = [] ∧ t.mem = s.mem := by
  have runs : exec .localMillisecond s = s.act fun s => if s.lockless then s.markWork s.now else s := rfl
  have effect := (if_pos lockless : (if s.lockless then s.markWork s.now else s) = s.markWork s.now).trans (State.markWork_eq s.now outside)
  obtain ⟨only, getA⟩ := State.memberWork_still (s := s.slotsFree) s.now deferred active declared rejoin
  generalize s.slotsFree.memberWork s.now = a at effect only getA
  have cfgA : a.cfg = s.cfg := (congrArg State.cfg only :)
  have frwA : a.frw = s.frw := (congrArg State.frw only :)
  have memA : a.mem = s.mem := (congrArg State.mem only :)
  have ticketsA : a.que.tickets = [T] := (congrArg (fun v : State => v.que.tickets) only :).trans tickets
  have pendingA : a.pending = s.pending := (congrArg State.pending only :)
  have settledA : a.unsettled = false := (congrArg State.unsettled only :).trans settled
  have deferredA : a.srv.deferred = [] := (congrArg (fun v : State => v.srv.deferred) only :).trans deferred
  have stateA : a.frwState = s.frwState := getA _ (by decide)
  have aloneA : a.assigned = false := (State.isSet_of_get (getA R.GLB_DEVPOS.ASSIGNED (by decide))).trans alone
  obtain ⟨u, x, done, conf, cfgU, epoch, assigned, plan⟩ := State.commitPrepared_done s.now ticketsA fresh op whole
    (by rw [cfgA]; exact prepared) (by rw [cfgA]; exact lead) (by rw [cfgA]; exact regs) (by rw [cfgA]; exact active)
    (by rw [cfgA]; exact insts) settledA
  rw [done] at effect
  have posts := State.finish_posts x ((congrArg Que.tickets conf.que).trans ticketsA) host
  have none_open : (u.withTickets []).que.tickets = [] := rfl
  generalize u.finish T.no x = v at effect posts
  have leadV : v.isLead = true := by
    have same : v.assigned = false := (posts.isSet (f := R.GLB_DEVPOS.ASSIGNED) ⟨by decide, .inl (by decide)⟩).trans (assigned.trans aloneA)
    rw [State.isLead, same]
    rfl
  have nothing : v.applyCommands s.now = v := by
    have none : v.srv.deferred = [] := (congrArg Srv.deferred (posts.srv.trans conf.srv)).trans deferredA
    rw [State.applyCommands, none, List.foldl_nil]
  rw [leadV, if_pos rfl, nothing] at effect
  have counts := v.counts_only
  generalize v.countSeqs.countTenant = t at effect counts
  have cfgT : t.cfg = u.cfg := counts.cfg.trans posts.cfg
  have frwT : t.frw = u.frw := counts.frw.trans posts.frw
  have ticketsT : t.que.tickets = [] := (congrArg Que.tickets (congrArg State.que counts.1 :)).trans (posts.tickets.trans none_open)
  have pendingT : t.pending = s.pending := (congrArg State.pending counts.1 :).trans (posts.pending.trans (conf.pending.trans pendingA))
  have memT : t.mem = s.mem := (congrArg State.mem counts.1 :).trans (posts.mem.trans (conf.mem.trans memA))
  refine completes_act (f := fun s => if s.lockless then s.markWork s.now else s) (t := t) alive runs effect ticketsT pendingT ?_
  rw [cfgT, cfgU]
  refine ⟨?_, rfl, rfl, rfl, rfl, fun p staged => ?_, ticketsT, memT⟩
  · exact (counts.2 _ (by decide)).trans ((posts.get _ ⟨by decide, .inl (by decide)⟩).trans epoch)
  · obtain ⟨now, none, stops⟩ := plan p (by rw [frwA]; exact staged)
    rw [frwT]
    refine ⟨now, none, fun idle => ?_⟩
    exact (counts.2 _ (by decide)).trans ((posts.get _ ⟨by decide, .inl (by decide)⟩).trans (stops (stateA.trans idle)))

end Sys2Proof.Machine
end LocalCommit

section CommitChecks
/-! SUPPORT. What the checks of a commit depend on (R153, R154): not on locks, on what follows them, nor on the packets open. -/

namespace Sys2Proof.Machine

/-- What is read at a place just written does not depend on the table. -/
theorem Table.get_set_rows {α : Type} [DecidableEq α] (d e : α) (k : Nat) (v : α) (t u : Table α) :
    Table.get d k (Table.set e k v t) = Table.get d k (Table.set e k v u) := by
  unfold Table.set
  split
  · rw [Table.get_erase_same, Table.get_erase_same]
  · rw [Table.get_insert_same, Table.get_insert_same]

/-- `t` is `s` but for the packets open, the locks and the registers that follow the locks. -/
structure State.SeesAlike (s t : State) : Prop where
  eq : t = { s with
    regs := t.regs, que := t.que, cfg := { s.cfg with lockCluster := t.cfg.lockCluster, lockDevice := t.cfg.lockDevice } }
  get : ∀ f : Field, (∀ g ∈ cfgFields, f.key ≠ g.key) → t.get f = s.get f

theorem notCfg_high {f : Field} (h : 0x4000 * 64 ≤ f.key) : ∀ g ∈ cfgFields, f.key ≠ g.key := by
  intro g hg
  have low : ∀ g ∈ cfgFields, g.key < 0x4000 * 64 := by decide
  have := low g hg
  omega

namespace State.SeesAlike
variable {s t u w x : State}

theorem refl (s : State) : s.SeesAlike s := ⟨rfl, fun _ _ => rfl⟩

theorem trans (h : s.SeesAlike t) (k : t.SeesAlike u) : s.SeesAlike u where
  eq := by
    refine k.eq.trans ?_
    rw [h.eq]
  get f hf := (k.get f hf).trans (h.get f hf)

theorem withTickets (s : State) (q : Que) : s.SeesAlike { s with que := q } := ⟨rfl, fun _ _ => rfl⟩

theorem lockSets (s : State) (a b : Bool) : s.SeesAlike (s.lockSets a b) where
  eq := by
    have only := State.refreshCfg_onlyRegs { s with cfg := { s.cfg with lockCluster := a, lockDevice := b } }
    rw [State.lockSets_cfg]
    exact only
  get _ hf := State.lockSets_get s a b hf

theorem high (h : s.SeesAlike t) {f : Field} (hf : 0x4000 * 64 ≤ f.key) : t.get f = s.get f := h.get f (notCfg_high hf)

/-- The same register written to both. -/
theorem put (h : s.SeesAlike t) (f : Field) (v : Nat) : (s.put f v).SeesAlike (t.put f v) where
  eq := (congrArg (fun z : State => { z with regs := Table.set f.reset f.key (v % 2 ^ f.width) t.regs }) h.eq :)
  get g hg := by
    by_cases same : g.key = f.key
    · rw [State.get, State.put, State.get, State.put, same, Table.get_set_rows]
    · rw [State.get_put_other _ _ same, State.get_put_other _ _ same, h.get g hg]

theorem foldl {α : Type} (h : s.SeesAlike t) (l : List α) {f : State → α → State} (step : ∀ s t x, SeesAlike s t → SeesAlike (f s x) (f t x)) :
    (l.foldl f s).SeesAlike (l.foldl f t) := by
  induction l generalizing s t with
  | nil => exact h
  | cons x l ih => exact ih (step s t x h)

theorem staged (h : s.SeesAlike t) : t.cfg.stagedRegs = s.cfg.stagedRegs := (congrArg (fun v : State => v.cfg.stagedRegs) h.eq :)
theorem instA (h : s.SeesAlike t) : t.cfg.instA = s.cfg.instA := (congrArg (fun v : State => v.cfg.instA) h.eq :)
theorem instS (h : s.SeesAlike t) : t.cfg.instS = s.cfg.instS := (congrArg (fun v : State => v.cfg.instS) h.eq :)
theorem frw (h : s.SeesAlike t) : t.frw = s.frw := (congrArg State.frw h.eq :)
theorem srv (h : s.SeesAlike t) : t.srv = s.srv := (congrArg State.srv h.eq :)
theorem kv (h : s.SeesAlike t) : t.kv = s.kv := (congrArg State.kv h.eq :)
theorem flt (h : s.SeesAlike t) : t.flt = s.flt := (congrArg State.flt h.eq :)
theorem cxl (h : s.SeesAlike t) : t.cxl = s.cxl := (congrArg State.cxl h.eq :)

theorem takeRegs (h : s.SeesAlike t) (which : Nat → Bool) : (s.takeRegs which).SeesAlike (t.takeRegs which) := by
  rw [State.takeRegs, State.takeRegs, h.staged]
  refine h.foldl _ fun s t e k => ?_
  split
  · exact k.put _ _
  · exact k

theorem self (h : s.SeesAlike t) : t.self = s.self := by
  rw [State.self, h.get R.GLB_DEVPOS.GROUP (by decide), h.get R.GLB_DEVPOS.POSITION (by decide), State.self]

theorem unitLocal_high (n : Nat) : 0x4000 * 64 ≤ (R.STACK_REGION_MODE.UNIT_LOCAL n).key := by
  simp only [Field.key, R.STACK_REGION_MODE.UNIT_LOCAL]
  omega

theorem granarySize_high (n : Nat) : 0x4000 * 64 ≤ (R.TSTORE_GRANARY.SIZE n).key := by
  simp only [Field.key, R.TSTORE_GRANARY.SIZE]
  omega

theorem lessGone (h : s.SeesAlike t) (stay : Table (Option Inst)) : (s.lessGone stay).SeesAlike (t.lessGone stay) := by
  rw [State.lessGone, State.lessGone, h.instA]
  refine h.foldl _ fun s t e k => ?_
  rw [k.self]
  refine k.foldl _ fun s t r j => ?_
  rw [j.high (unitLocal_high _)]
  exact j.put _ _

theorem wouldDevice (h : s.SeesAlike t) : s.wouldDevice.SeesAlike t.wouldDevice := h.takeRegs _

theorem wouldCluster (h : s.SeesAlike t) : s.wouldCluster.SeesAlike t.wouldCluster := by
  rw [State.wouldCluster, State.wouldCluster, h.instS, h.frw]
  have k := (h.lessGone s.cfg.instS).takeRegs fun _ => true
  generalize (s.lessGone s.cfg.instS).takeRegs (fun _ => true) = w at k
  generalize (t.lessGone s.cfg.instS).takeRegs (fun _ => true) = x at k
  refine ⟨?_, k.get⟩
  dsimp only
  rw [k.frw]
  exact (congrArg (fun z : State => { z with
    cfg := { z.cfg with instA := s.cfg.instS }
    frw := { w.frw with active := match s.frw.staged with
      | some p => some p
      | none => s.frw.active } }) k.eq :)

/-! ### The single checks -/

theorem slotLinks (h : s.SeesAlike t) (ports : Nat) : t.slotLinks ports = s.slotLinks ports := by
  have group := h.get R.GLB_DEVPOS.GROUP (by decide)
  have position := h.get R.GLB_DEVPOS.POSITION (by decide)
  have groupOf : t.groupOf = s.groupOf := by
    funext g
    rw [State.groupOf, h.flt, State.groupOf]
  have groups : t.groups = s.groups := by rw [State.groups, groupOf, State.groups]
  have columns : t.columnPorts = s.columnPorts := by
    funext b
    rw [State.columnPorts, groups, group, State.columnPorts]
  have doubled : t.doubledPorts = s.doubledPorts := by
    have port (p : Nat) : t.isSet (R.LINK_STATUS.DOUBLED p) = s.isSet (R.LINK_STATUS.DOUBLED p) :=
      State.isSet_of_get (h.high (by simp only [Field.key, R.LINK_STATUS.DOUBLED]; omega))
    rw [State.doubledPorts, State.doubledPorts]
    congr 1
    funext k
    rw [port]
  rw [State.slotLinks, groupOf, group, position, groups, columns, doubled, State.slotLinks]

theorem slotConflict (h : s.SeesAlike t) (e : PlanEntry) (tab : List (Nat × Nat × Bytes)) : t.slotConflict e tab = s.slotConflict e tab := by
  simp only [State.slotConflict, h.slotLinks]

theorem slotTable (h : s.SeesAlike t) (k slot : Nat) : t.slotTable k slot = s.slotTable k slot := by
  simp only [State.slotTable, State.listFor, h.instA, h.srv]

theorem awake (h : s.SeesAlike t) : SeesAlike { s with srv := { s.srv with suspended := [] } } { t with srv := { t.srv with suspended := [] } } where
  eq := by
    rw [h.srv]
    exact (congrArg (fun z : State => { z with srv := { s.srv with suspended := [] } }) h.eq :)
  get := h.get

theorem templatesStand (h : s.SeesAlike t) (p : FurrowPlan) : t.templatesStand p = s.templatesStand p := by
  simp only [State.templatesStand, h.instA, h.slotConflict, h.awake.slotTable]

theorem dawnStands (h : s.SeesAlike t) (p : FurrowPlan) : t.dawnStands p = s.dawnStands p := by
  simp only [State.dawnStands, State.openSeqs, h.srv]

theorem listsStand (h : s.SeesAlike t) : t.listsStand = s.listsStand := by
  have unit : t.unitLocal = s.unitLocal := by
    funext a
    rw [State.unitLocal, h.high (unitLocal_high _), State.unitLocal]
  simp only [State.listsStand, h.instA, h.high (granarySize_high _), unit]

theorem idle (h : s.SeesAlike t) : t.idle = s.idle := by
  rw [State.idle, State.frwState, h.get R.FRW_STATE.STATE (by decide), State.idle, State.frwState]

theorem pool (h : s.SeesAlike t) (n tier : Nat) : t.pool n tier = s.pool n tier := by
  unfold State.pool
  split <;> rw [h.high (by simp only [Field.key, R.TILE_KV_POOL_TS.BASE, R.TILE_KV_POOL_ST.BASE, R.TILE_KV_POOL_FAR.BASE]; omega),
    h.high (by simp only [Field.key, R.TILE_KV_POOL_TS.GRANULES, R.TILE_KV_POOL_ST.GRANULES, R.TILE_KV_POOL_FAR.GRANULES]; omega)]

theorem poolSpan (h : s.SeesAlike t) (n tier : Nat) : t.poolSpan n tier = s.poolSpan n tier := by
  simp only [State.poolSpan, h.pool]

theorem refSpan (h : s.SeesAlike t) (n : Nat) : t.refSpan n = s.refSpan n := by
  have addr := h.high (f := R.TILE_KV_REF.ADDR n) (by simp only [Field.key, R.TILE_KV_REF.ADDR]; omega)
  simp only [State.refSpan, h.pool, addr]

theorem instsHere (h : s.SeesAlike t) : t.instsHere = s.instsHere := by
  simp only [State.instsHere, h.instA, h.instS, h.self]

theorem regionIdle (h : s.SeesAlike t) (n r : Nat) : t.regionIdle n r = s.regionIdle n r := by
  simp only [State.regionIdle, h.instA, h.self, h.poolSpan, h.refSpan, h.kv]

theorem granaryStands (h : s.SeesAlike t) (k : w.SeesAlike x) : t.granaryStands x = s.granaryStands w := by
  simp only [State.granaryStands, h.high (granarySize_high _), k.high (granarySize_high _), h.idle, k.poolSpan, h.instsHere, k.instsHere,
    h.self, k.pool]

theorem regionsStand (h : s.SeesAlike t) (k : w.SeesAlike x) : t.regionsStand x = s.regionsStand w := by
  simp only [State.regionsStand, h.high (unitLocal_high _), k.high (unitLocal_high _), h.regionIdle, k.poolSpan, k.refSpan]

theorem openStands (h : s.SeesAlike t) (k : w.SeesAlike x) : t.openStands x = s.openStands w := by
  have regions (n : Nat) : x.get (R.SEC_OPEN.REGIONS n) = w.get (R.SEC_OPEN.REGIONS n) :=
    k.high (by simp only [Field.key, R.SEC_OPEN.REGIONS]; omega)
  simp only [State.openStands, k.instsHere, regions, h.self, k.poolSpan, k.refSpan, h.kv]

theorem portsStand (h : s.SeesAlike t) (k : w.SeesAlike x) : t.portsStand x = s.portsStand w := by
  have enable (p : Nat) : 0x4000 * 64 ≤ (R.LINK_CTRL.ENABLE p).key := by simp only [Field.key, R.LINK_CTRL.ENABLE]; omega
  have mode (p : Nat) : 0x4000 * 64 ≤ (R.LINK_CTRL.MODE p).key := by simp only [Field.key, R.LINK_CTRL.MODE]; omega
  simp only [State.portsStand, h.idle, h.high (enable _), k.high (enable _), h.high (mode _), k.high (mode _),
    h.get R.CXLD_CTRL.BIFURCATE (by decide), k.get R.CXLD_CTRL.BIFURCATE (by decide), h.get R.CXLD_CTRL.IDE_REQUIRED (by decide),
    k.get R.CXLD_CTRL.IDE_REQUIRED (by decide), h.cxl]

theorem heldStands (h : s.SeesAlike t) (k : w.SeesAlike x) : t.heldStands x = s.heldStands w := by
  simp only [State.heldStands, k.instA, h.flt, h.self, h.instA]

/-- The checks of a commit see no difference. -/
theorem commitStands (h : s.SeesAlike t) (k : w.SeesAlike x) : t.commitStands x = s.commitStands w := by
  have gone := h.lessGone w.cfg.instA
  rw [State.commitStands, State.commitStands, k.frw, k.listsStand, h.granaryStands k, k.instA, gone.regionsStand k, h.openStands k,
    h.portsStand k, h.heldStands k]
  cases w.frw.active with
  | none => rfl
  | some p =>
    dsimp only
    rw [k.templatesStand, k.dawnStands]

end State.SeesAlike
end Sys2Proof.Machine
end CommitChecks

section ClusterCommit
/-! SUPPORT. CFG_COMMIT of both sets at a device in no cluster (R154): decided at once, or refused. -/

namespace Sys2Proof.Machine

theorem readsPayload_cfgCommit (s : State) (p : Packet) (whole : Bool) : readsPayload s ((p.op 0x03).with_ 4 whole) = false := by
  unfold readsPayload
  have spec : opSpec s ((p.op 0x03).with_ 4 whole) = if ((p.op 0x03).with_ 4 whole).f4 then
      some { flags := 0x10, words := [mask 0 32, mask 0 64, 0, 0, 0], inRange := s.inSchedule || ((p.op 0x03).with_ 4 whole).p1 == 0 }
    else some { flags := 0x20, words := [0, 0, if ((p.op 0x03).with_ 4 whole).f5 then 0 else mask 0 6, 0, 0] } := rfl
  rw [spec]
  cases ((p.op 0x03).with_ 4 whole).f4 <;> rfl

/-- The commit of both sets, as the lead of no cluster decides it. -/
def State.leads (s : State) (no e k : Nat) : State :=
  ({ s with cfg := { s.cfg with lead := some ⟨no, e, k, [], [], false⟩, prepared := some ⟨e, k, false⟩ } }).lockSets true true

/-- A commit decided to take effect. -/
def State.goes (s : State) : State :=
  { s with cfg := { s.cfg with
      lead := s.cfg.lead.map fun c => { c with decided := true }, prepared := s.cfg.prepared.map fun p => { p with go := true } } }

theorem State.commitCluster_decides {s : State} {T : Ticket} (alone : s.alone) (only : s.que.tickets = [T]) (cluster : s.cfg.lockCluster = false)
    (device : s.cfg.lockDevice = false) (epoch : T.packet.p0 = s.get R.CFG_STATUS.ACTIVE_EPOCH + 1) (stands : s.commitStands s.wouldCluster = true)
    (timely : s.inSchedule = true → s.furrow + 2 ≤ T.packet.p1) :
    s.commitCluster T = if s.inSchedule then s.leads T.no T.packet.p0 T.packet.p1 else (s.leads T.no T.packet.p0 T.packet.p1).goes := by
  have held := State.commitHolds_only only none
  have mayGo : (s.cfg.lockCluster || s.cfg.lockDevice || s.commitHolds T.no none || T.packet.p0 != s.get R.CFG_STATUS.ACTIVE_EPOCH + 1) = false := by
    simp [cluster, device, held, epoch]
  have inTime : (s.inSchedule && decide (T.packet.p1 < s.furrow + 2)) = false := by
    cases inside : s.inSchedule
    · rfl
    · simpa using timely inside
  have others := State.others_alone alone
  rw [State.commitCluster]
  dsimp only
  rw [mayGo, if_neg Bool.false_ne_true, inTime, if_neg Bool.false_ne_true, stands, if_pos rfl, others]
  have leads : (State.lockSets { s with cfg := { s.cfg with
      lead := some ⟨T.no, T.packet.p0, T.packet.p1, [], [], false⟩, prepared := some ⟨T.packet.p0, T.packet.p1, false⟩ } } true true)
      = s.leads T.no T.packet.p0 T.packet.p1 := rfl
  have early : (s.leads T.no T.packet.p0 T.packet.p1).inSchedule = s.inSchedule := by
    have state : (s.leads T.no T.packet.p0 T.packet.p1).frwState = s.frwState := State.lockSets_get _ _ _ (by decide)
    rw [State.inSchedule, state, State.inSchedule]
  have aloneV : (s.leads T.no T.packet.p0 T.packet.p1).alone := (State.isSet_of_get (State.lockSets_get _ _ _ (by decide))).trans alone
  have cfg : (s.leads T.no T.packet.p0 T.packet.p1).cfg.lead = some ⟨T.no, T.packet.p0, T.packet.p1, [], [], false⟩ := by
    rw [State.leads, State.lockSets_cfg]
  have unfolded : (((s.leads T.no T.packet.p0 T.packet.p1).sendAll [] (.cfgPrepare T.packet.p0 T.packet.p1)).decideEarly) =
      (s.leads T.no T.packet.p0 T.packet.p1).decideEarly := rfl
  have nobody : ({ s with cfg := { s.cfg with
      lead := some ⟨T.no, T.packet.p0, T.packet.p1, [], [], false⟩, prepared := some ⟨T.packet.p0, T.packet.p1, false⟩ } } : State).others = [] :=
    State.others_alone alone
  rw [leads, nobody, unfolded]
  generalize s.leads T.no T.packet.p0 T.packet.p1 = v at early aloneV cfg
  cases inside : s.inSchedule
  · rw [State.decideEarly_commits cfg (early.trans inside) rfl rfl rfl, State.others_alone aloneV, State.goes, cfg]
    rfl
  · rw [State.decideEarly_waits cfg (.inl (early.trans inside)), if_pos rfl]

/-- A packet submitted is run with its ticket the only one. -/
theorem State.runHost_cluster (s : State) {T : Ticket} (op : T.packet.opcode = 0x03) (whole : T.packet.f4 = true) :
    s.runHost T = s.commitCluster T := by
  rw [State.runHost, op]
  exact if_pos whole

theorem State.runHost_device (s : State) {T : Ticket} (op : T.packet.opcode = 0x03) (part : T.packet.f4 = false) :
    s.runHost T = s.commitDevices T := by
  rw [State.runHost, op]
  exact if_neg (by rw [part]; decide)

theorem State.leads_shows (s : State) (no e k : Nat) : (s.leads no e k).cfg = { s.cfg with
      lead := some ⟨no, e, k, [], [], false⟩, prepared := some ⟨e, k, false⟩, lockCluster := true, lockDevice := true } ∧
    s.configures (s.leads no e k) ∧ (s.leads no e k).get R.CFG_STATUS.ACTIVE_EPOCH = s.get R.CFG_STATUS.ACTIVE_EPOCH :=
  ⟨State.lockSets_cfg _ _ _, State.configures.trans (t := { s with cfg := { s.cfg with
      lead := some ⟨no, e, k, [], [], false⟩, prepared := some ⟨e, k, false⟩ } }) rfl (.lockSets _ _ _), State.lockSets_get _ _ _ (by decide)⟩

theorem completes_clusterCommit {s : State} {p : Packet} (alone : s.alone) (takes : s.takes ((p.op 0x03).with_ 4 true))
    (cluster : s.cfg.lockCluster = false) (device : s.cfg.lockDevice = false) (epoch : p.p0 = s.get R.CFG_STATUS.ACTIVE_EPOCH + 1)
    (stands : s.commitStands s.wouldCluster = true) (timely : s.inSchedule = true → s.furrow + 2 ≤ p.p1) :
    Completes (.cfgCommitCluster p) s fun t =>
          t.cfg.prepared = some ⟨p.p0, p.p1, !s.inSchedule⟩ ∧ t.cfg.lead = some ⟨s.que.nextNo, p.p0, p.p1, [], [], !s.inSchedule⟩ ∧
            t.cfg.lockCluster = true ∧ t.cfg.lockDevice = true ∧ t.get R.CFG_STATUS.ACTIVE_EPOCH = s.get R.CFG_STATUS.ACTIVE_EPOCH ∧
            t.cfg.instA = s.cfg.instA ∧ t.que.tickets.map Ticket.no = [s.que.nextNo] ∧ t.mem = s.mem ∧ t.out = s.out := by
  let T := s.nextTicket ((p.op 0x03).with_ 4 true) none none
  have alike : s.SeesAlike (s.holding T) := State.SeesAlike.withTickets s _
  have checks : (s.holding T).commitStands (s.holding T).wouldCluster = true := (alike.commitStands alike.wouldCluster).trans stands
  have runs : (s.holding T).runHost T = (s.holding T).commitCluster T := State.runHost_cluster _ rfl (Packet.with_f4 (p.op 0x03) true)
  have decides := State.commitCluster_decides (s := s.holding T) (T := T) alone rfl cluster device epoch checks timely
  obtain ⟨cfg, only, same⟩ := (s.holding T).leads_shows T.no p.p0 p.p1
  have inside : (s.holding T).inSchedule = s.inSchedule := rfl
  have enters := State.submit_holding (img := none) (pay := none) takes (readsPayload_cfgCommit s p true)
  have tickets : ((s.holding T).leads T.no p.p0 p.p1).que.tickets = [T] := congrArg Que.tickets only.que
  have mem : ((s.holding T).leads T.no p.p0 p.p1).mem = s.mem := only.mem
  have out : ((s.holding T).leads T.no p.p0 p.p1).out = s.out := (congrArg State.out only :)
  have pending : ((s.holding T).leads T.no p.p0 p.p1).pending = s.pending := only.pending
  have step : (s.holding T).commitCluster T = if s.inSchedule then (s.holding T).leads T.no p.p0 p.p1 else ((s.holding T).leads T.no p.p0 p.p1).goes :=
    decides
  generalize (s.holding T).leads T.no p.p0 p.p1 = v at step cfg same tickets mem out pending
  cases h : s.inSchedule with
  | true =>
    rw [h, if_pos rfl] at step
    refine completes_submit_open (t := T) takes rfl enters (runs.trans step) tickets rfl rfl (.inr rfl) pending ?_
    rw [cfg]
    exact ⟨rfl, rfl, rfl, rfl, same, rfl, by rw [tickets]; rfl, mem, out⟩
  | false =>
    rw [h, if_neg Bool.false_ne_true] at step
    refine completes_submit_open (t := T) takes rfl enters (runs.trans step) tickets rfl rfl (.inr rfl) pending ?_
    rw [State.goes]
    dsimp only
    rw [cfg]
    exact ⟨rfl, rfl, rfl, rfl, same, rfl, by rw [tickets]; rfl, mem, out⟩

/-- A commit of both sets refused for its epoch, and one whose furrow comes too soon. -/
theorem completes_clusterRefused {s : State} {p : Packet} (takes : s.takes ((p.op 0x03).with_ 4 true))
    (epoch : p.p0 ≠ s.get R.CFG_STATUS.ACTIVE_EPOCH + 1) : Completes (.cfgCommitCluster p) s fun t =>
      t = (s.counted.bump R.CFG_COUNTS.CONFLICTS).completed ((p.op 0x03).with_ 4 true) { status := .cfgConflict } := by
  let T := s.nextTicket ((p.op 0x03).with_ 4 true) none none
  have runs : (s.holding T).runHost T = (s.holding T).commitCluster T := State.runHost_cluster _ rfl (Packet.with_f4 (p.op 0x03) true)
  have wrong : (T.packet.p0 != (s.holding T).get R.CFG_STATUS.ACTIVE_EPOCH + 1) = true := bne_iff_ne.2 epoch
  have refused : (s.holding T).commitCluster T = (s.holding T).refuseCommit T := by
    rw [State.commitCluster]
    dsimp only
    rw [wrong, Bool.or_true, if_pos rfl]
  have finished : (s.holding T).refuseCommit T = (s.counted.bump R.CFG_COUNTS.CONFLICTS).completed ((p.op 0x03).with_ 4 true) { status := .cfgConflict } :=
    State.finish_open (u := s.counted.bump R.CFG_COUNTS.CONFLICTS) (t := T) { status := .cfgConflict } takes.2.2.1 rfl
  exact completes_submit_done takes rfl (State.submit_holding (img := none) (pay := none) takes (readsPayload_cfgCommit s p true))
    (runs.trans (refused.trans finished)) takes.2.2.1 rfl rfl

theorem completes_clusterLate {s : State} {p : Packet} (takes : s.takes ((p.op 0x03).with_ 4 true)) (cluster : s.cfg.lockCluster = false)
    (device : s.cfg.lockDevice = false) (epoch : p.p0 = s.get R.CFG_STATUS.ACTIVE_EPOCH + 1) (inside : s.inSchedule = true)
    (soon : p.p1 < s.furrow + 2) : Completes (.cfgCommitCluster p) s fun t =>
      t = s.counted.completed ((p.op 0x03).with_ 4 true) { status := .rejDeadline } := by
  let T := s.nextTicket ((p.op 0x03).with_ 4 true) none none
  have runs : (s.holding T).runHost T = (s.holding T).commitCluster T := State.runHost_cluster _ rfl (Packet.with_f4 (p.op 0x03) true)
  have held := State.commitHolds_only (s := s.holding T) (T := T) rfl none
  have mayGo : ((s.holding T).cfg.lockCluster || (s.holding T).cfg.lockDevice || (s.holding T).commitHolds T.no none ||
      T.packet.p0 != (s.holding T).get R.CFG_STATUS.ACTIVE_EPOCH + 1) = false := by
    have right : (T.packet.p0 != (s.holding T).get R.CFG_STATUS.ACTIVE_EPOCH + 1) = false := bne_eq_false_iff_eq.2 epoch
    have first : (s.holding T).cfg.lockCluster = false := cluster
    have second : (s.holding T).cfg.lockDevice = false := device
    rw [first, second, held, right]
    rfl
  have late : ((s.holding T).inSchedule && decide (T.packet.p1 < (s.holding T).furrow + 2)) = true :=
    Bool.and_eq_true_iff.2 ⟨inside, decide_eq_true soon⟩
  have refused : (s.holding T).commitCluster T = (s.holding T).finish T.no { status := .rejDeadline } := by
    rw [State.commitCluster]
    dsimp only
    rw [mayGo, if_neg Bool.false_ne_true, late, if_pos rfl]
    rfl
  exact completes_submit_answer takes rfl (readsPayload_cfgCommit s p true) (runs.trans refused)

end Sys2Proof.Machine
end ClusterCommit

section DeviceCommit
/-! SUPPORT. CFG_COMMIT of device scope at a device in no cluster (R153): for the headland, refused, or made at once. -/

namespace Sys2Proof.Machine

/-- The packet waits for this device's own part alone. -/
def State.waitsSelf (s : State) (T : Ticket) : Ticket := { T with awaiting := [(s.self, 0)] }

theorem State.commitDevices_self {s : State} {T : Ticket} (alone : s.alone) (only : s.que.tickets = [T]) (fresh : T.awaiting = [])
    (me : T.packet.f5 = true ∨ bits T.packet.p2 0 6 = s.self) (declared : s.flt.declared = []) :
    s.commitDevices T = (s.withTickets [s.waitsSelf T]).takeDevice T.no := by
  have held (d : Option Nat) := State.commitHolds_only only d
  have dsts : (if T.packet.f5 then s.members else [bits T.packet.p2 0 6]) = [s.self] := by
    rcases me with h | h
    · rw [h, if_pos rfl, State.members, show s.assigned = false from alone, if_neg Bool.false_ne_true]
    · rw [h]
      split
      · rw [State.members, show s.assigned = false from alone, if_neg Bool.false_ne_true]
      · rfl
  have here : ([s.self].partition fun d => s.isDeclared d) = ([], [s.self]) := by
    have not : s.isDeclared s.self = false := by rw [State.isDeclared, declared]; rfl
    simp [List.partition, List.partition.loop, not]
  have waiting : s.awaitSelf T.no = s.withTickets [s.waitsSelf T] := by
    rw [State.awaitSelf, State.mapTicket_only _ only, fresh]
    rfl
  rw [State.commitDevices, held, if_neg Bool.false_ne_true]
  dsimp only
  rw [dsts, here]
  dsimp only
  have mine : [s.self].contains s.self = true := by simp
  rw [mine, if_pos rfl, waiting, List.foldl_nil]
  have member : ((s.withTickets [s.waitsSelf T]).members.contains s.self) = true := by
    have same : (s.withTickets [s.waitsSelf T]).members = s.members := rfl
    rw [same, State.members, show s.assigned = false from alone, if_neg Bool.false_ne_true]
    exact mine
  have nobody : ([s.self].filter fun d => !(s.withTickets [s.waitsSelf T]).members.contains d) = [] := by
    rw [List.filter_cons, member]
    rfl
  rw [nobody, List.foldl_nil]
  have self : (s.withTickets [s.waitsSelf T]).self = s.self := rfl
  have nowhere : ([s.self].filter fun d => d != (s.withTickets [s.waitsSelf T]).self && (s.withTickets [s.waitsSelf T]).members.contains d) = [] := by
    rw [List.filter_cons, self, bne_self_eq_false, Bool.false_and]
    rfl
  have sent : (s.withTickets [s.waitsSelf T]).forwardTo T.no T.packet none [] = s.withTickets [s.waitsSelf T] := rfl
  rw [nowhere, sent, self, mine, if_pos rfl]

/-- A commit that its one device has answered concludes. -/
theorem State.conclude_commit {s : State} {T : Ticket} {r : Reply} (op : T.packet.opcode = 0x03) (answers : T.answers = [r]) :
    s.conclude T = s.finish T.no (if r.status = .ok then { status := .ok } else r.answer) := by
  by_cases ok : r.status = .ok
  · simp [State.conclude, op, answers, refusal, ok, lowest]
  · simp [State.conclude, op, answers, refusal, ok, lowest]

/-- This device's own part of a commit, answered: the packet completes. -/
theorem completes_commitAnswered {s u : State} {p : Packet} {r : Reply} {P : State → Prop} (alone : s.alone)
    (takes : s.takes ((p.op 0x03).with_ 4 false)) (me : ((p.op 0x03).with_ 4 false).f5 = true ∨ bits p.p2 0 6 = s.self)
    (declared : s.flt.declared = [])
    (answered : ((s.holding (s.nextTicket ((p.op 0x03).with_ 4 false) none none)).withTickets
        [s.waitsSelf (s.nextTicket ((p.op 0x03).with_ 4 false) none none)]).takeDevice s.que.nextNo =
      u.withTickets [{ s.nextTicket ((p.op 0x03).with_ 4 false) none none with answers := [r] }])
    (waiting : u.pending = s.pending) (h : ∀ t, (u.withTickets []).Posts t → P t) : Completes (.cfgCommit p) s P := by
  let T := s.nextTicket ((p.op 0x03).with_ 4 false) none none
  have runs : (s.holding T).runHost T = (s.holding T).commitDevices T := State.runHost_device _ rfl (Packet.with_f4 (p.op 0x03) false)
  have self := State.commitDevices_self (s := s.holding T) (T := T) alone rfl rfl me declared
  have settled := State.settle_concludes (u := u) (t := { T with answers := [r] }) (a := if r.status = .ok then { status := .ok } else r.answer)
    rfl rfl rfl (List.cons_ne_nil _ _) fun w => State.conclude_commit (s := w) rfl rfl
  have posts := State.Posts.completed (u.withTickets []) ((p.op 0x03).with_ 4 false) (if r.status = .ok then { status := .ok } else r.answer)
  exact completes_submit takes rfl (State.submit_holding (img := none) (pay := none) takes (readsPayload_cfgCommit s p false))
    ((congrArg State.settle (runs.trans (self.trans answered))).trans settled) (posts.pending.trans waiting) (h _ posts)

end Sys2Proof.Machine
end DeviceCommit

section DeviceCommitAnswers
/-! SUPPORT. A commit of device scope that waits for the headland, and one that is refused (R152, R153). -/

namespace Sys2Proof.Machine

theorem State.refreshCfg_locked (s : State) : s.refreshCfg.isSet R.CFG_STATUS.LOCKED = (s.cfg.lockCluster || s.cfg.lockDevice) := by
  simp only [State.refreshCfg]
  refine (State.isSet_put_other _ _ (by decide)).trans ((State.isSet_put_other _ _ (by decide)).trans ?_)
  refine (State.isSet_put_other _ _ (by decide)).trans ((State.isSet_put_other _ _ (by decide)).trans ?_)
  exact State.isSet_putBit Nat.one_pos _

theorem State.lockSets_self (s : State) (a b : Bool) : (s.lockSets a b).self = s.self := (State.SeesAlike.lockSets s a b).self

theorem State.lockSets_tickets (s : State) (a b : Bool) : (s.lockSets a b).que.tickets = s.que.tickets :=
  congrArg Que.tickets (State.configures.lockSets s a b).que

/-- The commit, its ticket and what it waits for, before this device's own part. -/
def State.committing (s : State) (p : Packet) : State :=
  (s.holding (s.nextTicket ((p.op 0x03).with_ 4 false) none none)).withTickets [s.waitsSelf (s.nextTicket ((p.op 0x03).with_ 4 false) none none)]

theorem State.committing_alike (s : State) (p : Packet) : s.SeesAlike (s.committing p) := State.SeesAlike.withTickets s _

theorem completes_commitWaits {s : State} {p : Packet} (alone : s.alone) (takes : s.takes ((p.op 0x03).with_ 4 false))
    (me : ((p.op 0x03).with_ 4 false).f5 = true ∨ bits p.p2 0 6 = s.self) (declared : s.flt.declared = []) (free : s.cfg.lockDevice = false)
    (busy : s.idle = false) : Completes (.cfgCommit p) s fun t =>
        t.cfg.lockDevice = true ∧ t.cfg.lockCluster = s.cfg.lockCluster ∧ t.cfg.deviceCommit = s.cfg.deviceCommit ++ [s.que.nextNo] ∧
          t.cfg.stagedRegs = s.cfg.stagedRegs ∧ t.isSet R.CFG_STATUS.LOCKED = true ∧ t.mem = s.mem ∧ t.out = s.out ∧
          t.que.tickets.map Ticket.no = [s.que.nextNo] := by
  let T := s.nextTicket ((p.op 0x03).with_ 4 false) none none
  have runs : (s.holding T).runHost T = (s.holding T).commitDevices T := State.runHost_device _ rfl (Packet.with_f4 (p.op 0x03) false)
  have self := State.commitDevices_self (s := s.holding T) (T := T) alone rfl rfl me declared
  have begins : (s.holding T).commitDevices T = (s.committing p).takeDevice s.que.nextNo := self
  have cfg0 : (s.committing p).cfg = s.cfg := rfl
  have tickets0 : (s.committing p).que.tickets = [s.waitsSelf T] := rfl
  have mem0 : (s.committing p).mem = s.mem := rfl
  have out0 : (s.committing p).out = s.out := rfl
  have pending0 : (s.committing p).pending = s.pending := rfl
  have idle0 : (s.committing p).idle = false := busy
  generalize s.committing p = w at begins cfg0 tickets0 mem0 out0 pending0 idle0
  have locks := State.configures.lockSets w s.cfg.lockCluster true
  have cfg := State.lockSets_cfg w s.cfg.lockCluster true
  have idle : (w.lockSets s.cfg.lockCluster true).idle = false := (State.SeesAlike.lockSets w _ _).idle.trans idle0
  have locked : (w.lockSets s.cfg.lockCluster true).isSet R.CFG_STATUS.LOCKED = true := (State.refreshCfg_locked _).trans (Bool.or_true _)
  have taken : w.takeDevice s.que.nextNo = { w.lockSets s.cfg.lockCluster true with
      cfg := { (w.lockSets s.cfg.lockCluster true).cfg with
        deviceCommit := (w.lockSets s.cfg.lockCluster true).cfg.deviceCommit ++ [s.que.nextNo] } } := by
    rw [State.takeDevice, cfg0, free, if_neg Bool.false_ne_true]
    dsimp only
    rw [idle, if_neg Bool.false_ne_true]
  generalize w.lockSets s.cfg.lockCluster true = v at locks cfg locked taken
  have tickets : v.que.tickets = [s.waitsSelf T] := (congrArg Que.tickets locks.que).trans tickets0
  refine completes_submit_open (t := s.waitsSelf T) takes rfl
    (State.submit_holding (img := none) (pay := none) takes (readsPayload_cfgCommit s p false)) (runs.trans (begins.trans taken)) tickets rfl rfl
    (.inl (List.cons_ne_nil _ _)) (locks.pending.trans pending0) ?_
  have lists : v.cfg.deviceCommit = s.cfg.deviceCommit ∧ v.cfg.stagedRegs = s.cfg.stagedRegs ∧ v.cfg.lockDevice = true ∧
      v.cfg.lockCluster = s.cfg.lockCluster := by
    rw [cfg, cfg0]
    exact ⟨rfl, rfl, rfl, rfl⟩
  obtain ⟨commits, staged, device, cluster⟩ := lists
  exact ⟨device, cluster, congrArg (· ++ [s.que.nextNo]) commits, staged, locked, locks.mem.trans mem0, (congrArg State.out locks :).trans out0,
    by rw [tickets]; rfl⟩

/-- A refusal counted and answered, from a state whose locks are as they were. -/
theorem State.refuse_answers {w : State} {W : Ticket} (tickets : w.que.tickets = [W]) (waits : W.awaiting = [(w.self, 0)]) (answers : W.answers = []) :
    (w.bump R.CFG_COUNTS.CONFLICTS).replyWith W.no .cfgConflict =
      (w.bump R.CFG_COUNTS.CONFLICTS).withTickets [{ W with awaiting := [], answers := [⟨w.self, .cfgConflict, 0, 0, 0, []⟩] }] := by
  have self : (w.bump R.CFG_COUNTS.CONFLICTS).self = w.self := State.self_put w _ (by decide) (by decide)
  rw [State.replyWith, State.reply_self _ (show (w.bump R.CFG_COUNTS.CONFLICTS).que.tickets = [W] from tickets) (by rw [self, waits]), answers, self]
  rfl

theorem completes_commitRefused {s : State} {p : Packet} (alone : s.alone) (takes : s.takes ((p.op 0x03).with_ 4 false))
    (me : ((p.op 0x03).with_ 4 false).f5 = true ∨ bits p.p2 0 6 = s.self) (declared : s.flt.declared = [])
    (refused : s.cfg.lockDevice = true ∨ (s.idle = true ∧ s.commitStands s.wouldDevice = false)) : Completes (.cfgCommit p) s fun t =>
        t.cfg.stagedRegs = s.cfg.stagedRegs ∧ t.cfg.lockDevice = s.cfg.lockDevice ∧ t.cfg.lockCluster = s.cfg.lockCluster ∧
          t.get R.CFG_COUNTS.CONFLICTS = min (2 ^ R.CFG_COUNTS.CONFLICTS.width - 1) (s.get R.CFG_COUNTS.CONFLICTS + 1) ∧
          t.que.tickets = [] ∧ t.mem = s.mem := by
  obtain ⟨v, taken, conf, cfg, count⟩ : ∃ v : State, (s.committing p).takeDevice s.que.nextNo = (v.bump R.CFG_COUNTS.CONFLICTS).withTickets
      [{ s.nextTicket ((p.op 0x03).with_ 4 false) none none with answers := [⟨s.self, .cfgConflict, 0, 0, 0, []⟩] }] ∧
      (s.committing p).configures v ∧ v.cfg = s.cfg ∧ v.get R.CFG_COUNTS.CONFLICTS = s.get R.CFG_COUNTS.CONFLICTS := by
    have alike := s.committing_alike p
    have cfg0 : (s.committing p).cfg = s.cfg := rfl
    have tickets0 : (s.committing p).que.tickets = [s.waitsSelf (s.nextTicket ((p.op 0x03).with_ 4 false) none none)] := rfl
    have count0 : (s.committing p).get R.CFG_COUNTS.CONFLICTS = s.get R.CFG_COUNTS.CONFLICTS := rfl
    generalize s.committing p = w at alike cfg0 tickets0 count0
    have self := alike.self
    by_cases locked : s.cfg.lockDevice = true
    · refine ⟨w, ?_, .refl w, cfg0, count0⟩
      rw [State.takeDevice, cfg0, if_pos locked]
      exact (State.refuse_answers tickets0 (by rw [self]; rfl) rfl).trans (by rw [self]; rfl)
    · obtain ⟨idle, falls⟩ := refused.resolve_left locked
      have free : s.cfg.lockDevice = false := Bool.eq_false_iff.2 locked
      have first := State.SeesAlike.lockSets w s.cfg.lockCluster true
      have second := State.SeesAlike.lockSets (w.lockSets s.cfg.lockCluster true) s.cfg.lockCluster false
      have both := alike.trans first
      have checks := (both.commitStands both.wouldDevice).trans falls
      have cfg1 := State.lockSets_cfg w s.cfg.lockCluster true
      have cfg2 := State.lockSets_cfg (w.lockSets s.cfg.lockCluster true) s.cfg.lockCluster false
      have conf := (State.configures.lockSets w s.cfg.lockCluster true).trans (.lockSets _ s.cfg.lockCluster false)
      have taken : w.takeDevice s.que.nextNo = (((w.lockSets s.cfg.lockCluster true).lockSets s.cfg.lockCluster false).bump
          R.CFG_COUNTS.CONFLICTS).replyWith s.que.nextNo .cfgConflict := by
        rw [State.takeDevice, cfg0, if_neg locked]
        dsimp only
        rw [both.idle, idle, if_pos rfl, State.dueDevice, checks, if_neg Bool.false_ne_true, cfg1]
      have self2 := (both.trans second).self
      have count := (both.trans second).get R.CFG_COUNTS.CONFLICTS (by decide)
      rw [cfg1] at cfg2
      generalize (w.lockSets s.cfg.lockCluster true).lockSets s.cfg.lockCluster false = v at taken conf self2 count cfg2
      refine ⟨v, ?_, conf, ?_, count⟩
      · rw [taken]
        exact (State.refuse_answers ((congrArg Que.tickets conf.que).trans tickets0) (by rw [self2]; rfl) rfl).trans (by rw [self2]; rfl)
      · rw [cfg2, cfg0, ← free]
  have conflicts := State.get_bump_same v R.CFG_COUNTS.CONFLICTS 1
  have mem : (v.bump R.CFG_COUNTS.CONFLICTS).mem = s.mem := conf.mem
  refine completes_commitAnswered alone takes me declared taken conf.pending fun t posts => ?_
  have cfgT : t.cfg = s.cfg := posts.cfg.trans cfg
  rw [cfgT]
  refine ⟨rfl, rfl, rfl, ?_, posts.tickets, posts.mem.trans mem⟩
  rw [posts.get _ ⟨by decide, .inl (by decide)⟩, ← count]
  exact conflicts

end Sys2Proof.Machine
end DeviceCommitAnswers

section StagedFields
/-! SUPPORT. Staged fields (R140, R153): where they stand in the register map, and what is written elsewhere. -/

namespace Sys2Proof.Machine

/-- What a staged field of the map looks like, as the writing of completion records needs it. -/
def Field.stagedShape (f : Field) : Bool := f.access != .staged || (Nat.blt f.lo 64 && (f.lo != 16 || f.addr == 0x20010))

theorem regClasses_stagedShape (n i : Nat) : (regClasses.all fun c => (c.fields n i).all Field.stagedShape) = true := by
  simp only [regClasses, List.all_append, Bool.and_eq_true]
  and_intros <;> rfl

/-- A field that its key names stands in the map. -/
theorem stagedShape_of_fieldOf {k : Nat} {f : Field} (h : fieldOf k = some f) : f.stagedShape = true := by
  have mem := List.mem_of_find?_eq_some h
  rw [fieldsAt] at mem
  cases found : regClasses.findSome? fun c => (c.index (k / 64)).map fun x => c.fields x.1 x.2 with
  | none =>
    rw [found] at mem
    cases mem
  | some l =>
    rw [found] at mem
    obtain ⟨c, hc, hl⟩ := List.exists_of_findSome?_eq_some found
    obtain ⟨x, -, made⟩ := Option.map_eq_some_iff.1 hl
    have all := regClasses_stagedShape x.1 x.2
    rw [List.all_eq_true] at all
    have fields := all c hc
    rw [List.all_eq_true] at fields
    exact fields f (made ▸ mem)

theorem notPosted_of_staged {f : Field} (h : fieldOf f.key = some f) (staged : f.access = .staged) : f.notPosted := by
  have shape := stagedShape_of_fieldOf h
  rw [Field.stagedShape, staged] at shape
  simp only [bne_self_eq_false, Bool.false_or, Bool.and_eq_true, Bool.or_eq_true, bne_iff_ne, beq_iff_eq] at shape
  obtain ⟨lo, apart⟩ := shape
  refine ⟨Nat.le_of_ble_eq_true lo, apart.imp_right fun addr => ?_⟩
  rw [addr]
  decide

/-- Fields that the levels, the locks and the digest are shown in. -/
def shownFields : List Field := R.CFG_DIGEST.ACTIVE_DIGEST :: (levelFields ++ cfgFields)

theorem shownFields_notStaged : ∀ g ∈ shownFields, ((fieldOf g.key).any fun x => x.access == .staged) = false := by decide +kernel

theorem staged_key_ne {f g : Field} (h : fieldOf f.key = some f) (staged : f.access = .staged)
    (not : ((fieldOf g.key).any fun x => x.access == .staged) = false) : f.key ≠ g.key := by
  intro same
  rw [← same, h, Option.any_some, staged] at not
  cases not

theorem staged_notShown {f : Field} (h : fieldOf f.key = some f) (staged : f.access = .staged) : ∀ g ∈ shownFields, f.key ≠ g.key :=
  fun g hg => staged_key_ne h staged (shownFields_notStaged g hg)

theorem linkFields_named : ∀ p, p < 24 → fieldOf (R.LINK_CTRL.ENABLE p).key = some (R.LINK_CTRL.ENABLE p) ∧
    fieldOf (R.LINK_CTRL.MODE p).key = some (R.LINK_CTRL.MODE p) := by decide +kernel

theorem key_ne_of_named {f g : Field} (hf : fieldOf f.key = some f) (hg : fieldOf g.key = some g) (other : f ≠ g) : g.key ≠ f.key := fun same =>
  other (Option.some.inj (hf.symm.trans (same ▸ hg)))

end Sys2Proof.Machine
end StagedFields

section DeviceCommitMade
/-! SUPPORT. A commit of device scope made at once (R153): a plain staged field takes its value. -/

namespace Sys2Proof.Machine

/-- A staged field whose commit does nothing but write it. -/
structure Field.PlainStaged (f : Field) : Prop where
  named : fieldOf f.key = some f
  staged : f.access = .staged
  device : clusterKey f.key = false
  scale : scaleRegAt f.addr = none
  stores : ∀ n, n < 16 → f ≠ R.TSTORE_GRANARY.SIZE n ∧ f ≠ R.STACK_REGION_MODE.UNIT_LOCAL n
  links : ∀ n, n < 24 → f ≠ R.LINK_CTRL.ENABLE n ∧ f ≠ R.LINK_CTRL.MODE n

namespace Field.PlainStaged
variable {f : Field}

theorem commitField (h : f.PlainStaged) (s : State) (v : Nat) : s.commitField (f.key, v) = s.put f v := by
  have noSize : ((List.range 16).find? fun n => R.TSTORE_GRANARY.SIZE n == f) = none :=
    List.find?_eq_none.2 fun n hn e => (h.stores n (List.mem_range.1 hn)).1 (eq_of_beq e).symm
  have noMode : ((List.range 16).find? fun n => R.STACK_REGION_MODE.UNIT_LOCAL n == f) = none :=
    List.find?_eq_none.2 fun n hn e => (h.stores n (List.mem_range.1 hn)).2 (eq_of_beq e).symm
  rw [State.commitField, h.named]
  dsimp only
  rw [noSize, noMode]
  dsimp only
  rw [h.scale]

/-- No port is taken down by it. -/
theorem link_get (h : f.PlainStaged) (s : State) (v : Nat) {n : Nat} (hn : n < 24) :
    (s.put f v).get (R.LINK_CTRL.ENABLE n) = s.get (R.LINK_CTRL.ENABLE n) ∧ (s.put f v).get (R.LINK_CTRL.MODE n) = s.get (R.LINK_CTRL.MODE n) := by
  obtain ⟨enable, mode⟩ := linkFields_named n hn
  obtain ⟨notEnable, notMode⟩ := h.links n hn
  exact ⟨State.get_put_other _ _ (key_ne_of_named h.named enable notEnable), State.get_put_other _ _ (key_ne_of_named h.named mode notMode)⟩

end Field.PlainStaged

theorem foldl_fixed_of_mem {α β : Type} {l : List α} {g : β → α → β} {b : β} (h : ∀ x ∈ l, g b x = b) : l.foldl g b = b := by
  induction l with
  | nil => rfl
  | cons x l ih =>
    rw [List.foldl_cons, h x (by simp)]
    exact ih fun y hy => h y (by simp [hy])

/-- The one staged field of device scope is written. -/
theorem State.commitRegs_plain {s : State} {f : Field} {v : Nat} (plain : f.PlainStaged) (staged : s.cfg.stagedRegs = [(f.key, v)]) :
    (s.commitRegs fun k => !clusterKey k) = ({ s.put f v with cfg := { s.cfg with stagedRegs := [] } } : State).settleLevels := by
  have goes : (!clusterKey f.key) = true := by rw [plain.device]; rfl
  have stays : (!(!clusterKey f.key)) = false := by rw [goes]; rfl
  have written : (s.cfg.stagedRegs.filter fun e => !clusterKey e.1) = [(f.key, v)] := by
    rw [staged, List.filter_cons, if_pos goes, List.filter_nil]
  have left : (s.cfg.stagedRegs.filter fun e => !(!clusterKey e.1)) = [] := by
    rw [staged, List.filter_cons, if_neg (by rw [stays]; exact Bool.false_ne_true), List.filter_nil]
  rw [State.commitRegs, written, List.foldl_cons, List.foldl_nil, plain.commitField]
  have cfg : (s.put f v).cfg = s.cfg := rfl
  dsimp only
  rw [cfg, left]
  congr 1
  refine foldl_fixed_of_mem fun n hn => ?_
  obtain ⟨enable, mode⟩ := plain.link_get s v (List.mem_range.1 hn)
  have enable' : ({ s.put f v with cfg := { s.cfg with stagedRegs := [] } } : State).get (R.LINK_CTRL.ENABLE n) = s.get (R.LINK_CTRL.ENABLE n) := enable
  have mode' : ({ s.put f v with cfg := { s.cfg with stagedRegs := [] } } : State).get (R.LINK_CTRL.MODE n) = s.get (R.LINK_CTRL.MODE n) := mode
  rw [enable', mode', beq_self_eq_true, beq_self_eq_true, Bool.and_self, if_pos rfl]

/-- From `s` to `t` the set of device scope, which held `f` with `v` alone, is active. -/
structure State.DeviceActivates (s t : State) (f : Field) (v : Nat) : Prop where
  only : s.configures t
  cfg : t.cfg = { s.cfg with stagedRegs := [] }
  shown : t.get f = v % 2 ^ f.width
  self : t.self = s.self

theorem State.digested_only (s : State) : s.configures s.digest.refreshCfg ∧ s.digest.refreshCfg.cfg = s.cfg ∧
    ∀ f : Field, (∀ g ∈ R.CFG_DIGEST.ACTIVE_DIGEST :: cfgFields, f.key ≠ g.key) → s.digest.refreshCfg.get f = s.get f := by
  rw [State.digest]
  generalize rd (sha384 s.digestBytes) 0 8 = v
  refine ⟨(State.configures.put s _ v).trans (.refreshCfg _), State.refreshCfg_cfg _, fun f hf => ?_⟩
  exact (State.refreshCfg_get _ fun g hg => hf g (List.mem_cons_of_mem _ hg)).trans (State.get_put_other s _ (hf _ List.mem_cons_self))

theorem posFields_notStaged : ∀ g ∈ [R.GLB_DEVPOS.GROUP, R.GLB_DEVPOS.POSITION], ((fieldOf g.key).any fun x => x.access == .staged) = false ∧
    ∀ h ∈ shownFields, g.key ≠ h.key := by decide +kernel

theorem State.activateDevice_activates {s : State} {f : Field} {v : Nat} (plain : f.PlainStaged) (staged : s.cfg.stagedRegs = [(f.key, v)]) :
    s.DeviceActivates s.activateDevice f v := by
  rw [State.activateDevice, State.commitRegs_plain plain staged]
  have only : s.configures ({ s.put f v with cfg := { s.cfg with stagedRegs := [] } } : State) := rfl
  have written (g : Field) : ({ s.put f v with cfg := { s.cfg with stagedRegs := [] } } : State).get g = (s.put f v).get g := rfl
  have cfg : ({ s.put f v with cfg := { s.cfg with stagedRegs := [] } } : State).cfg = { s.cfg with stagedRegs := [] } := rfl
  generalize ({ s.put f v with cfg := { s.cfg with stagedRegs := [] } } : State) = w at only written cfg
  have levelled (g : Field) (hg : ∀ h ∈ levelFields, g.key ≠ h.key) := (w.settleLevels_get hg).trans (written g)
  have onlyL := only.trans (.settleLevels w)
  have cfgL : w.settleLevels.cfg = { s.cfg with stagedRegs := [] } := (congrArg State.cfg w.settleLevels_eq :).trans cfg
  generalize w.settleLevels = l at levelled onlyL cfgL
  obtain ⟨onlyD, cfgD, digested⟩ := l.digested_only
  generalize l.digest.refreshCfg = t at onlyD cfgD digested
  have kept {g : Field} (hg : ∀ h ∈ shownFields, g.key ≠ h.key) : t.get g = (s.put f v).get g := by
    simp only [shownFields, List.mem_cons, List.mem_append] at hg
    refine (digested g fun h hh => hg h ?_).trans (levelled g fun h hh => hg h (.inr (.inl hh)))
    exact (List.mem_cons.1 hh).imp_right .inr
  have pos (g : Field) (hg : g ∈ [R.GLB_DEVPOS.GROUP, R.GLB_DEVPOS.POSITION]) : t.get g = s.get g := by
    obtain ⟨not, apart⟩ := posFields_notStaged g hg
    exact (kept apart).trans (State.get_put_other _ _ (staged_key_ne plain.named plain.staged not).symm)
  exact ⟨onlyL.trans onlyD, cfgD.trans cfgL, (kept (staged_notShown plain.named plain.staged)).trans (State.get_put_same _ _ _),
    by rw [State.self, pos _ (by simp), pos _ (by simp), State.self]⟩

/-- This device's part of the commit, made at once. -/
theorem State.takeDevice_makes {w : State} {W : Ticket} {f : Field} {v : Nat} (plain : f.PlainStaged) (staged : w.cfg.stagedRegs = [(f.key, v)])
    (tickets : w.que.tickets = [W]) (waits : W.awaiting = [(w.self, 0)]) (answers : W.answers = []) (op : W.packet.opcode = 0x03)
    (part : W.packet.f4 = false) (free : w.cfg.lockDevice = false) (idle : w.idle = true) (settled : w.unsettled = false)
    (stands : w.commitStands w.wouldDevice = true) : ∃ u, w.takeDevice W.no = u.withTickets
      [{ W with awaiting := [], answers := [⟨w.self, .ok, 0, 0, 0, []⟩] }] ∧ w.configures u ∧
      u.cfg = { w.cfg with stagedRegs := [] } ∧ u.get f = v % 2 ^ f.width := by
  have alike := State.SeesAlike.lockSets w w.cfg.lockCluster true
  have only := State.configures.lockSets w w.cfg.lockCluster true
  have cfg := State.lockSets_cfg w w.cfg.lockCluster true
  have taken : w.takeDevice W.no = (w.lockSets w.cfg.lockCluster true).activateDevice.finishSettled W.no 0 0 := by
    rw [State.takeDevice, if_neg (by rw [free]; exact Bool.false_ne_true)]
    dsimp only
    rw [alike.idle, idle, if_pos rfl, State.dueDevice, alike.commitStands alike.wouldDevice, stands, if_pos rfl]
  have self := alike.self
  generalize w.lockSets w.cfg.lockCluster true = l at only cfg taken self
  have acts := State.activateDevice_activates (s := l) plain (by rw [cfg]; exact staged)
  generalize l.activateDevice = a at acts taken
  have ready : a.unsettled = false := ((only.trans acts.only).unsettled (by rw [acts.cfg, cfg])).trans settled
  have ticketsA : a.que.tickets = [W] := (congrArg Que.tickets (only.trans acts.only).que).trans tickets
  have locks := State.SeesAlike.lockSets a a.cfg.lockCluster false
  have onlyU := (only.trans acts.only).trans (.lockSets a a.cfg.lockCluster false)
  have selfU : (a.lockSets a.cfg.lockCluster false).self = w.self := locks.self.trans (acts.self.trans self)
  have done : a.commitDone W.no 0 0 = (a.lockSets a.cfg.lockCluster false).reply W.no { status := .ok, result0 := 0, result1 := 0 } := by
    rw [State.commitDone, State.ticket?_only ticketsA]
    dsimp only
    rw [op, if_pos (beq_self_eq_true _), part, Bool.not_false, Bool.and_true]
  refine ⟨a.lockSets a.cfg.lockCluster false, ?_, onlyU, ?_, ?_⟩
  · rw [taken, State.finishSettled, ready, if_neg Bool.false_ne_true, done,
      State.reply_self _ ((congrArg Que.tickets onlyU.que).trans tickets) (by rw [selfU, waits]), answers, selfU]
    rfl
  · rw [State.lockSets_cfg, acts.cfg, cfg, ← free]
  · rw [State.lockSets_get _ _ _ fun g hg => staged_notShown plain.named plain.staged g (by simp [shownFields, hg]), acts.shown]

theorem completes_commitMade {s : State} {p : Packet} {f : Field} {v : Nat} (plain : f.PlainStaged) (alone : s.alone)
    (takes : s.takes ((p.op 0x03).with_ 4 false)) (me : ((p.op 0x03).with_ 4 false).f5 = true ∨ bits p.p2 0 6 = s.self)
    (declared : s.flt.declared = []) (free : s.cfg.lockDevice = false) (idle : s.idle = true) (settled : s.unsettled = false)
    (stands : s.commitStands s.wouldDevice = true) (staged : s.cfg.stagedRegs = [(f.key, v)]) : Completes (.cfgCommit p) s fun t =>
      t.get f = v % 2 ^ f.width ∧ t.cfg.stagedRegs = [] ∧ t.cfg.lockDevice = false ∧ t.cfg.instA = s.cfg.instA ∧ t.que.tickets = [] ∧
        t.mem = s.mem := by
  let T := s.nextTicket ((p.op 0x03).with_ 4 false) none none
  have alike := s.committing_alike p
  have parts : (s.committing p).cfg = s.cfg ∧ (s.committing p).que.tickets = [s.waitsSelf T] ∧ (s.committing p).mem = s.mem ∧
      (s.committing p).pending = s.pending ∧ (s.committing p).unsettled = s.unsettled ∧ (s.committing p).idle = s.idle := ⟨rfl, rfl, rfl, rfl, rfl, rfl⟩
  obtain ⟨u, made, only, cfg, shown⟩ : ∃ u : State, (s.committing p).takeDevice s.que.nextNo =
      u.withTickets [{ T with answers := [⟨s.self, .ok, 0, 0, 0, []⟩] }] ∧ (s.committing p).configures u ∧
      u.cfg = { s.cfg with stagedRegs := [] } ∧ u.get f = v % 2 ^ f.width := by
    generalize s.committing p = w at alike parts
    obtain ⟨cfg, tickets, -, -, unsettled, idle0⟩ := parts
    obtain ⟨u, made, only, cfgU, shown⟩ := State.takeDevice_makes (w := w) (W := s.waitsSelf T) plain (by rw [cfg]; exact staged) tickets
      (by rw [alike.self]; rfl) rfl rfl (Packet.with_f4 (p.op 0x03) false) (by rw [cfg]; exact free) (idle0.trans idle) (unsettled.trans settled)
      ((alike.commitStands alike.wouldDevice).trans stands)
    exact ⟨u, made.trans (by rw [alike.self]; rfl), only, by rw [cfgU, cfg], shown⟩
  obtain ⟨-, -, mem, pending, -, -⟩ := parts
  refine completes_commitAnswered alone takes me declared made (only.pending.trans pending) fun t posts => ?_
  have cfgT : t.cfg = { s.cfg with stagedRegs := [] } := posts.cfg.trans cfg
  rw [cfgT]
  exact ⟨(posts.get f (notPosted_of_staged plain.named plain.staged)).trans shown, rfl, free, rfl, posts.tickets,
    posts.mem.trans (only.mem.trans mem)⟩

end Sys2Proof.Machine

open Sys2Proof Sys2Proof.Machine

/-- Settles O16: at a device in no cluster the commit's one part is its own, so it waits, is made or is refused in the step that takes it, and
a cluster-wide one that has been prepared takes effect at the next local millisecond. -/
theorem commits : Obligations.Commits := by
  unfold Obligations.Commits
  intro s p q alone
  refine ⟨fun hq takes me declared => ?_, fun hq takes cluster device => ?_, ?_⟩
  · subst hq
    refine ⟨completes_commitWaits alone takes me declared, fun f v free idle settled stands staged named access scope scale stores links => ?_,
      completes_commitRefused alone takes me declared⟩
    exact completes_commitMade ⟨named, access, scope, scale, stores, links⟩ alone takes me declared free idle settled stands staged
  · subst hq
    exact ⟨completes_clusterCommit alone takes cluster device, completes_clusterRefused takes, completes_clusterLate takes cluster device⟩
  · intro T r e k alive mrd outside tickets host fresh op whole prepared lead regs active insts settled srv _ declared rejoin _ _
    have lockless : s.lockless = true := by rw [State.lockless]; rcases mrd with h | h <;> simp [h]
    exact completes_localCommit alone alive lockless outside tickets host fresh op whole prepared lead regs active insts settled
      (by rw [srv]; rfl) declared rejoin

end DeviceCommitMade
